-- ==== Sys2Proof/Word.lean ====
section
/-! DEFINITION. The words of the CMK-8320 and the plain table type that the state is built from. -/

namespace Sys2Proof

/-- One byte. -/
abbrev Byte := BitVec 8

/-- One register value; a 32-bit register uses the low half (R6). -/
abbrev Word := BitVec 64

/-- One line of pool memory, 64 B (R26). -/
abbrev LineData := BitVec 512

/-- A line number, PA[45:6] (R26). -/
abbrev LineNo := BitVec 40

/-- A Domain ID (R45). -/
abbrev DomainId := BitVec 12

/-- A Device ID of the fabric, 11 bits (Table SC-2). -/
abbrev DeviceId := BitVec 11

/-- A sparse table: pairs of a key and a value, at most one pair per key. -/
abbrev Table (κ β : Type) := List (κ × β)

/-- A queue, oldest first. -/
abbrev Fifo (β : Type) := List β

end Sys2Proof
end

