-- ==== Sys2Proof/Syntax.lean ====
section
/-! DEFINITION. The commands of the CMK-8320: one constructor of Instr for each row of the specification's command
table, and the operand types they carry. -/

namespace Sys2Proof

/-- Who makes a pool access (Table PS-1). A neighbour's request names its slot, the Stitch link it came in on and the
device that issued it (SRC_DEV). -/
inductive Agent
  | host (p : Fin 64)
  | nbr (n : Fin 16) (link : Fin 16) (src : DeviceId)
  | engine (e : Fin 256)
  | dmv (c : Fin 64)
  | firmware
  | debug
  deriving DecidableEq, Repr

/-- Who can hold lines: a host on a CXL port, a neighbour slot, an engine or a data-mover channel (R73, Table CO-3). -/
inductive Holder
  | port (p : Fin 64)
  | slot (n : Fin 16)
  | engine (e : Fin 256)
  | dmv (c : Fin 64)
  deriving DecidableEq, Repr

/-- The host requests of Table CO-4, with MetaField and MetaValue. -/
inductive HostOp
  | memRdS | memRdData | memRdA | memRdI | memRdNoOp | memWr | memWrPtl
  deriving DecidableEq, Repr

/-- An access as it reaches its home slice. txn names it; domain is the Domain ID of the slot that translated it
(R41), or the REMOTE_DOMAIN a neighbour's request carries; mask gives the bytes a partial write covers. -/
structure HomeReq where
  txn      : Nat
  agent    : Agent
  line     : LineNo
  domain   : DomainId
  data     : LineData
  mask     : BitVec 64
  poisoned : Bool
  deriving DecidableEq, Repr

/-- Message classes (Table SW-1). -/
inductive MsgClass
  | req | rsp | snp | mgt
  deriving DecidableEq, Repr

/-- Ingress entities of the shared buffer (Table SW-2). -/
inductive Entity
  | port (p : Fin 64)
  | link (s : Fin 16)
  | tambour (t : Fin 16)
  | mgmt
  deriving DecidableEq, Repr

/-- Where a message in the buffer goes: the egress of a CXL port or of a Stitch link, or a home slice. -/
inductive Egress
  | port (p : Fin 64)
  | link (s : Fin 16)
  | home (t : Fin 16)
  deriving DecidableEq, Repr

/-- What a message is, as Table SW-6 sorts messages for a discard. -/
inductive MsgKind
  | hostMemRead | hostMemWrite | ioNonPosted | ioPosted | neighbourRequest
  | homeRead (op : Nat) | homeWrite (op : Nat) | agentAccess (a : Agent) | other
  deriving DecidableEq, Repr

/-- How a BIRsp or a recall answer leaves the agent (R77): no copy, a clean shared copy, or an X holder's release. -/
inductive SnoopAnswer
  | invalid | shared | current
  deriving DecidableEq, Repr

/-- How an expander answers a read. -/
inductive ReadStatus
  | good | poison | error
  deriving DecidableEq, Repr

/-- Where a management command came from (Table MG-1): the Pool Device mailbox of a port, the FM mailbox, MCTP from
an endpoint, or the JTAG debug mailbox. SPDM exchanges name their transport in the same way: DOE on function 0 of a
HOST port, or MCTP. -/
inductive Path
  | pool (p : Fin 64)
  | fm
  | mctp (eid : Nat)
  | jtag
  deriving DecidableEq, Repr

/-- Who makes a register access (Table PS-1): a host's CXL.io request to one of the BARs of its port, firmware, the
debug probe, the OOB bridge, or REG_READ on behalf of a path. -/
inductive RegRequester
  | mgmt (p : Fin 64)
  | service (p : Fin 64)
  | poolDev (p : Fin 64)
  | firmware
  | debug
  | oob
  deriving DecidableEq, Repr

/-- The service budget of a HOST port (R296). -/
structure Budget where
  shares   : Nat
  channels : Nat
  rings    : Nat
  queues   : Nat
  vectors  : Nat
  deriving DecidableEq, Repr

/-- What the PORTS section gives one port (Table MG-20, R28). -/
structure BcbPort where
  mode      : Nat
  width     : Nat
  maxRate   : Nat
  fmPort    : Bool
  laneRev   : Bool
  boundHost : Nat
  slotBase  : Nat
  region0   : Nat
  region1   : Nat
  budget    : Budget
  deriving DecidableEq, Repr

/-- What the INTERLEAVE section gives one set (R29, R30). capacity is C in MiB. -/
structure BcbSet where
  index    : Nat
  ways     : Nat
  gran4k   : Bool
  mirrored : Bool
  member   : List Nat
  mirror   : List Nat
  capacity : Nat
  first    : Nat
  deriving DecidableEq, Repr

/-- The contents of a Board Configuration Blob (Table MG-20). links, nbrs and routes are images of STL.CFG, GLB.NBR and
GLB.ROUTE; registers lists the other register images its sections give, by offset in the Management Endpoint BAR0.
sections lists the section types present; broken says that it fails a check of the board that this device cannot
compute from the fields here (one that concerns other devices or the board). An item that its section leaves out is none and takes its
default (R311). -/
structure Bcb where
  sections     : List Nat
  broken       : Bool
  extended     : Bool
  devId        : Nat
  timeRoot     : Bool
  altValid     : Bool
  timeParent   : Nat
  timeAlt      : Nat
  tollPeriod   : Option Nat
  miss         : Option Nat
  ageLimit     : Option Nat
  devload      : Option Nat
  biTimeout    : Option Nat
  offerTimeout : Option Nat
  drainTimeout : Option Nat
  fwChannels   : Option (List Nat)
  i3c          : Bool
  mctpAddress  : Nat
  ports        : List (Nat × BcbPort)
  sets         : List BcbSet
  links        : List (Nat × Word)
  nbrs         : List (Nat × Word)
  routes       : List (Nat × Word)
  chain        : Bool
  secPaths     : Nat
  mirrorAllow  : Bool
  registers    : List (Nat × Word)
  deriving DecidableEq, Repr

/-- An image as a flash slot holds it (Table MG-17). hash is HASH, hashOk says that the body hashes to it, and
sigOk that SIGNATURE verifies under the key that KEY_ID names. -/
structure Image where
  magic    : Nat
  typ      : Nat
  version  : Nat
  svn      : Nat
  length   : Nat
  keyId    : Nat
  sequence : Nat
  hash     : BitVec 384
  hashOk   : Bool
  sigOk    : Bool
  bcb      : Option Bcb
  deriving DecidableEq, Repr

/-- A number for each message class. -/
structure Four where
  req : Nat
  rsp : Nat
  snp : Nat
  mgt : Nat
  deriving DecidableEq, Repr

/-- Nothing in every class. -/
def Four.zero : Four := ⟨0, 0, 0, 0⟩

/-- Resources that a targeted self-test names (Table FI-9) or a RESOURCE_RESTORE names (Table FI-13). Rows are numbered 65,536
times their bank, slice or quarter plus the row, die-to-die lanes 65,536 times the die plus the lane. -/
inductive Resource
  | tambour | tdir | hub | engine | channel | cxlLane | stitchLane | domain | portDie | bank | bankRow | dirRow | tableRow
  | dieLane | xts | pair
  deriving DecidableEq, Repr

/-- The commands, one constructor for each row of the table of operations and events. -/
inductive Instr
  /-- REGISTER_WRITE (R8): A write to a register field that has no row of its own takes effect as its access code
      gives. -/
  | registerWrite (who : RegRequester) (addr width : Nat) (v : Word)
  /-- PORST_B_FALL (R435): A falling edge of PORST_B puts every domain except AO into cold reset, and the SBS scanner
      runs a final reset scan. -/
  | porstBFall
  /-- COLD_RESET_RELEASE (R433): Cold reset is released at the last of its conditions; the straps are sampled and the
      ROM boot of Table MG-18 begins. -/
  | coldResetRelease (straps : BitVec 4) (found : List ((Nat × Nat) × Image)) (entropyOk trialStarts : Bool)
  /-- WRST_B_FALL (R436): A low of WRST_B after cold reset has been released starts a warm reset. -/
  | wrstBFall
  /-- WRST_B_RISE (R436): A rising edge of WRST_B ends the warm reset. -/
  | wrstBRise
  /-- BOOT_TRIAL_TIMEOUT (R308): Firmware started from a TRIAL slot has not reported ready within 300 ms, so the ROM
      resets the management cluster and boots the other slot. -/
  | bootTrialTimeout
  /-- POOL_REQUEST_INGRESS (R18): A CXL.mem request from a host is translated through its slot cache and written to
      the shared buffer for its home slice. -/
  | poolRequestIngress (p : Fin 64) (dpa : Nat) (op : HostOp) (txn : Nat) (data : LineData) (mask : BitVec 64) (poisoned : Bool)
  /-- HOME_READ_SHARED (R80): The home accepts or retries a read shared and applies the directory transition of Table
      CO-6. -/
  | homeReadShared (req : HomeReq)
  /-- HOME_READ_EXCLUSIVE (R80): The home accepts or retries a read exclusive and applies the directory transition of
      Table CO-6. -/
  | homeReadExclusive (req : HomeReq)
  /-- HOME_READ_CURRENT (R80): The home accepts or retries a read current, including internal reads, and applies Table
      CO-6. -/
  | homeReadCurrent (req : HomeReq)
  /-- HOME_WRITE (R22): The home accepts a write, sends any Back-Invalidates, and issues the expander writes. -/
  | homeWrite (req : HomeReq)
  /-- HOME_PARTIAL_WRITE (R82): The home performs a MemWrPtl or partial internal write as a read, merge and full-line
      write under one conflict-table entry. -/
  | homePartialWrite (req : HomeReq)
  /-- HOME_WRITE_BACK (R81): A write-back from the E owner is accepted or joins a recall in progress, and is never
      retried. -/
  | homeWriteBack (req : HomeReq)
  /-- NEIGHBOUR_RELEASE (R80): A neighbour release writes the lines it carries and drops the granule from E to I. -/
  | neighbourRelease (req : HomeReq) (lines : List (Fin 16 × LineData))
  /-- TAKE_X (R74): An engine or data-mover channel takes a granule in X, with recalls as Table CO-6 gives. -/
  | takeX (req : HomeReq)
  /-- RELEASE_X (R80): An internal agent releases X, and the entry becomes I. -/
  | releaseX (who : Holder) (granule : BitVec 36)
  /-- INTEGRITY_RECOVERY_DONE (R75): Every holder has answered or timed out, so the granule's 16 lines are poisoned,
      the entry is written I and the granule is logged with cause 0x7. -/
  | integrityRecoveryDone (granule : BitVec 36)
  /-- EXPANDER_READ_RESPONSE (R34): Expander read data arrives, is decrypted and forwarded; poison from a primary
      leads to a mirror read and a repair. -/
  | expanderReadResponse (op : Nat) (status : ReadStatus)
  /-- EXPANDER_WRITE_COMPLETION (R23): An expander write completion arrives, and the home retires the conflict-table
      entry once every copy has completed. -/
  | expanderWriteCompletion (op : Nat)
  /-- EXPANDER_WRITE_FAILURE (R23): An expander write fails, so the granule is marked for repair or the line is
      poisoned and Carillon is told. -/
  | expanderWriteFailure (op : Nat)
  /-- CONFLICT_ENTRY_RETIRE (R85): A conflict-table entry retires, and the oldest reservation is marked HELD and sent
      a Grant. -/
  | conflictEntryRetire (granule : BitVec 36)
  /-- GRANT_RECEIVED (R85): A group resends its granted request, and the home accepts it into the reserved entry. -/
  | grantReceived (granule : BitVec 36)
  /-- INGRESS_RESEND (R86): An ingress resends a retried request without reservation once its group's reserved entry
      is known to be free. -/
  | ingressResend (group : Fin 33) (slice : Fin 16)
  /-- PASS_THROUGH_REQUEST (R24): A request for a PASS device is decoded against the vPPB windows and forwarded
      through the buffer. -/
  | passThroughRequest (host : Fin 64) (p : Fin 64) (kind : MsgKind) (credit length txn : Nat)
  /-- LOCKED_REQUEST (R305): A locked request completes with Unsupported Request and is not forwarded. -/
  | lockedRequest (p : Fin 64) (fn : Fin 256) (tag : Nat)
  /-- CONFIG_REQUEST (R206): A configuration request to a HOST port gets Configuration Retry Status until the port is
      ready, and normal handling after. -/
  | configRequest (p : Fin 64) (fn : Fin 256) (tag : Nat)
  /-- BIRSP_RECEIVED (R77): A BIRsp or neighbour snoop answer arrives and updates the recall mask and the vector; a
      late one is discarded and counted. -/
  | birspReceived (who : Holder) (line : LineNo) (answer : SnoopAnswer)
  /-- BICONFLICT (R78): A host answers a BISnp with BIConflict, and the device completes the exchange with
      BIConflictAck and orders the host's request. -/
  | biconflict (p : Fin 64) (line : LineNo)
  /-- BISNP_TIMEOUT (R97): In Compact mode a line stays unanswered for T, so it is poisoned, the sharer is removed and
      the granule is logged. -/
  | bisnpTimeout (p : Fin 64) (granule : BitVec 36)
  /-- EXTENDED_BISNP_TIMEOUT (R98): In Extended mode a BISnp timeout resends the snoop and increments the agent's
      counter, declaring death at 8. -/
  | extendedBisnpTimeout (p : Fin 64) (line : LineNo)
  /-- NEIGHBOUR_SNOOP_TIMEOUT (R95): A neighbour snoop stays unanswered for 2T at the home. -/
  | neighbourSnoopTimeout (n : Fin 16) (line : LineNo)
  /-- NEIGHBOUR_SNOOP_AT_PROXY (R94): A proxy serves a home's snoop at once by recalling its local holders, and never
      retries it. -/
  | neighbourSnoopAtProxy (src : DeviceId) (tag : BitVec 16) (kind : Fin 3) (line : LineNo)
  /-- PROXY_FORWARD_READ (R93): A proxy recalls its local holders and then forwards the read to the home device. -/
  | proxyForwardRead (kind : Fin 3) (req : HomeReq)
  /-- PROXY_DATA_RECEIVED (R93): Neighbour data reaches the proxy, which updates its entry and returns the data to the
      local host. -/
  | proxyDataReceived (words : List Word)
  /-- VICTIM_ENTRY_FREED (R90): Every answer and merged write-back for a victim has arrived, so its victim-buffer
      entry is freed. -/
  | victimEntryFreed (granule : BitVec 36)
  /-- AGENT_DEATH_DECLARED (R99): The device declares an agent dead, reports it to Carillon and starts the reclaim. -/
  | agentDeathDeclared (who : Holder) (cause : Fin 8)
  /-- RECLAIM_SWEEP_DONE (R100): A slice's reclaim sweep finishes, and the requests waiting on reclaimed granules
      proceed. -/
  | reclaimSweepDone (who : Holder) (slice : Fin 16)
  /-- DIR_BI_TIMEOUT_WRITE (R105): A write to DIR.BI_TIMEOUT takes effect only when it lies in range and above the age
      limit. -/
  | dirBiTimeoutWrite (t : Fin 16) (v : BitVec 32)
  /-- INGRESS_MESSAGE (R107): A message's cells are written to the shared buffer and charged to its ingress entity. -/
  | ingressMessage (entity : Entity) (dest : Egress) (cls : MsgClass) (kind : MsgKind) (credit txn length cost : Nat) (raw : List Byte)
  /-- EGRESS_GRANT (R120): An egress scheduler picks the head message with the smallest finish tag and sends it. -/
  | egressGrant (egress : Egress) (credits : List (Fin 4 × Nat))
  /-- AGE_DISCARD (R119): A message exceeds the age limit, is discarded and is completed as Table SW-6 gives. -/
  | ageDiscard (id : Nat)
  /-- HUB_QUARTER_NAP (R110): A HUB quarter stops cell allocation, waits until its cells are free, and leaves the
      buffer for Nap. -/
  | hubQuarterNap (q : Fin 4)
  /-- HUB_QUARTER_LOST (R394): A HUB quarter is lost: a napping quarter is woken, its messages are discarded, and
      tables run on one copy. -/
  | hubQuarterLost (q : Fin 4)
  /-- GLB_AGE_LIMIT_WRITE (R118): A write to GLB.AGE_LIMIT takes effect only when it lies in range and below T in
      every in-service slice. -/
  | glbAgeLimitWrite (v : BitVec 32)
  /-- PEAK_BUCKET_RELEASE (R122): A host request that waited on the peak bucket passes the shaper and is coloured
      green or yellow. -/
  | peakBucketRelease (id : Nat)
  /-- GATE_INTERVAL_END (R124): A gate interval ends, and the next entry's gates take force with their guard bands. -/
  | gateIntervalEnd (egress : Egress)
  /-- GATE_CYCLE_START (R126): A gate cycle starts and performs a pending bank swap. -/
  | gateCycleStart (egress : Egress)
  /-- GCL_SWAP (R126): A write of GCL_CTL.SWAP checks the inactive bank, then sets ERR or PENDING, or swaps at once
      when EN is 0. -/
  | gclSwap (egress : Egress)
  /-- MIR_CTL_WRITE (R128): A write to GLB.MIR_CTL(s) sets up a session; EN for a quad not in ANALYSIS mode is
      ignored. -/
  | mirCtlWrite (session : Fin 16) (v : BitVec 32)
  /-- MIRROR_CELL_WAIT_EXPIRY (R129): A cell has waited 10 µs for a mirror session, so the record is dropped and
      counted. -/
  | mirrorCellWaitExpiry (session : Fin 16)
  /-- MIRROR_RECORD_SEND (R259): An ANALYSIS quad sends a mirror record as a REC block followed by its data blocks. -/
  | mirrorRecordSend (session : Fin 16)
  /-- RING_ENABLE (R137): A write of ENABLE in DISABLED reads and checks the ring context, then enters ACTIVE or
      ERROR. -/
  | ringEnable (p : Fin 64) (index : Fin 256) (ring : Fin 64)
  /-- RING_DISABLE (R146): A write of DISABLE moves the ring to DISABLING and stops all fetching. -/
  | ringDisable (p : Fin 64) (index : Fin 256) (ring : Fin 64)
  /-- RING_POLL_SAMPLE (R140): At the ring's poll interval the device samples SQ_PI and starts fetching new entries. -/
  | ringPollSample (slice : Fin 4096) (ring : Fin 64)
  /-- SUBMISSION_FETCHED (R140): A submission entry's read current returns; SQ_CI advances and the operation is
      dispatched. -/
  | submissionFetched (slice : Fin 4096) (ring : Fin 64)
  /-- FENCED_SUBMISSION_START (R144): A FENCE submission starts once every earlier submission has completed and become
      visible. -/
  | fencedSubmissionStart (slice : Fin 4096) (ring : Fin 64)
  /-- COMPLETION_WRITE (R142): An operation ends, and its completion entry is written into the next free slot. -/
  | completionWrite (slice : Fin 4096) (ring : Fin 64) (index : BitVec 32)
  /-- COMPLETION_WRITE_ACCEPTED (R142): A completion write is accepted and answered at home; CQ_PI and the SHADOW line
      advance. -/
  | completionWriteAccepted (slice : Fin 4096) (ring : Fin 64) (index : BitVec 32)
  /-- COMPLETION_WRITE_FAILED (R147): A completion write is refused or reads back poison, so the ring enters ERROR
      with ERR_CODE 5. -/
  | completionWriteFailed (slice : Fin 4096) (ring : Fin 64) (index : BitVec 32)
  /-- CQ_CI_WRITE (R143): Host software writes CQ_CI; a value beyond CQ_PI is ignored and counted. -/
  | cqCiWrite (p : Fin 64) (index : Fin 256) (ring : Fin 64) (v : BitVec 32)
  /-- FLR_SERVICE_FUNCTION (R176): A Function Level Reset of the Service Function aborts channels, disables rings and
      flushes queues without waiting, and keeps the slices. -/
  | flrServiceFunction (p : Fin 64)
  /-- NOP (R148): NOP completes OK. -/
  | nop (slice : Fin 4096) (ring : Fin 64) (index : BitVec 32)
  /-- EM_LOOKUP (R152): EM_LOOKUP hashes the key, probes two buckets and returns the value or MISS. -/
  | emLookup (slice : Fin 4096) (ring : Fin 64) (index : BitVec 32)
  /-- LPM_LOOKUP (R154): LPM_LOOKUP walks the trie and returns the longest-prefix result or MISS. -/
  | lpmLookup (slice : Fin 4096) (ring : Fin 64) (index : BitVec 32)
  /-- LOOKUP_BATCH (R155): LOOKUP_BATCH performs COUNT lookups under one anchor and writes a result record for each. -/
  | lookupBatch (slice : Fin 4096) (ring : Fin 64) (index : BitVec 32)
  /-- QS_INIT (R157): QS_INIT gives a slice's queue service its 272 KiB area. -/
  | qsInit (slice : Fin 4096) (ring : Fin 64) (index : BitVec 32)
  /-- CELL_POOL (R158): CELL_POOL defines, redefines or deletes a cell pool and builds its free list. -/
  | cellPool (slice : Fin 4096) (ring : Fin 64) (index : BitVec 32)
  /-- NODE_SET (R162): NODE_SET enables, changes or deletes a scheduling node. -/
  | nodeSet (slice : Fin 4096) (ring : Fin 64) (index : BitVec 32)
  /-- QUEUE_SET (R167): QUEUE_SET enables, changes or deletes a packet queue. -/
  | queueSet (slice : Fin 4096) (ring : Fin 64) (index : BitVec 32)
  /-- GATE_SET (R164): GATE_SET checks and loads a queue-service gate list. -/
  | gateSet (slice : Fin 4096) (ring : Fin 64) (index : BitVec 32)
  /-- ENQUEUE (R160): ENQUEUE checks limits, takes cells and copies the packet data in. -/
  | enqueue (slice : Fin 4096) (ring : Fin 64) (index : BitVec 32)
  /-- ENQUEUE_COMMIT (R160): The packet's writes have completed, so it is rechecked, linked at the tail and stamped. -/
  | enqueueCommit (slice : Fin 4096) (ring : Fin 64) (index : BitVec 32)
  /-- DEQUEUE (R161): DEQUEUE selects and unlinks a packet under the scheduling rules and starts the copy. -/
  | dequeue (slice : Fin 4096) (ring : Fin 64) (index : BitVec 32)
  /-- DEQUEUE_COPY_DONE (R161): The dequeued packet's copy has completed, and its cells return to the free list. -/
  | dequeueCopyDone (slice : Fin 4096) (ring : Fin 64) (index : BitVec 32)
  /-- QUEUE_QUERY (R149): QUEUE_QUERY returns a queue's counts. -/
  | queueQuery (slice : Fin 4096) (ring : Fin 64) (index : BitVec 32)
  /-- QUEUE_FLUSH (R167): QUEUE_FLUSH drops every packet of the queue and counts the drops as age drops. -/
  | queueFlush (slice : Fin 4096) (ring : Fin 64) (index : BitVec 32)
  /-- QUEUE_AGE_VISIT (R165): An engine visits a non-empty queue and drops head packets that have exceeded their age
      limit. -/
  | queueAgeVisit (slice : Fin 4096) (queue : BitVec 16)
  /-- ENGINE_LOST_REEXECUTE (R134): Operations interrupted by an engine retirement or self-test are re-executed on
      another engine, or complete ENGINE_LOST. -/
  | engineLostReexecute (slice : Fin 4096) (ring : Fin 64) (index : BitVec 32)
  /-- SERVICE_IMAGE_ENGINE_MOVE (R313): An engine moves to the new service image version between its operations. -/
  | serviceImageEngineMove (e : Fin 256)
  /-- QUOTA_DRAIN_DONE (R172): A slice quota decrease has drained and takes effect. -/
  | quotaDrainDone (slice : Fin 4096)
  /-- QUOTA_DRAIN_TIMEOUT (R175): The drain timeout expires, so firmware forces the change and the command completes
      with TIMEOUT. -/
  | quotaDrainTimeout (slice : Fin 4096)
  /-- DMV_ARM (R179): A write of ARM checks the shadow set and arms it or refuses it. -/
  | dmvArm (c : Fin 64)
  /-- DMV_DISARM (R187): A write of DISARM disarms the shadow set. -/
  | dmvDisarm (c : Fin 64)
  /-- DMV_ABORT (R184): A write of ABORT moves a BUSY channel to ABORTING and disarms the shadow. -/
  | dmvAbort (c : Fin 64)
  /-- DMV_ACK (R186): A write of ACK in HALTED clears the error and enters IDLE. -/
  | dmvAck (c : Fin 64)
  /-- DMV_HOLD_GRANTED (R189): A firmware channel holds X on a burst's source granules and reads the burst. -/
  | dmvHoldGranted (c : Fin 64)
  /-- DMV_BURST_DONE (R181): Every line of the current burst has been read, so the channel starts the next burst. -/
  | dmvBurstDone (c : Fin 64)
  /-- DMV_TRANSFER_COMPLETE (R182): The last write response returns, so the transfer reports DONE and any armed shadow
      is promoted. -/
  | dmvTransferComplete (c : Fin 64)
  /-- DMV_ABORT_DRAINED (R184): An aborting channel's current burst has finished, so it sets RESIDUE and ABORTED and
      enters IDLE. -/
  | dmvAbortDrained (c : Fin 64)
  /-- DMV_LINE_FAILURE (R185): A line fails, so the channel latches the error and stops issuing. -/
  | dmvLineFailure (c : Fin 64) (offset : Nat) (write : Bool) (cause : Fin 4)
  /-- DMV_HALTED_DRAINED (R185): The outstanding writes after a bus error have returned, so the channel sets BUS_ERROR
      and enters HALTED. -/
  | dmvHaltedDrained (c : Fin 64)
  /-- DMV_CHANNEL_RETIRED (R191): A channel is retired or reset, its transfer ends with CHANNEL_LOST, and the local
      channel is remapped or CLOSED. -/
  | dmvChannelRetired (c : Fin 64)
  /-- DIRTY_ENABLE (R194): A write of EN 1 to SFN.DIRTY_CTL starts logging if the window and buffers are valid. -/
  | dirtyEnable (p : Fin 64) (index : Fin 256) (v : BitVec 32)
  /-- DIRTY_DISABLE (R194): A write of EN 0 stops logging for writes accepted afterwards. -/
  | dirtyDisable (p : Fin 64) (index : Fin 256) (v : BitVec 32)
  /-- DIRTY_SWAP (R195): A write of SWAP flips ACTIVE and sets SWAP_PENDING. -/
  | dirtySwap (p : Fin 64) (index : Fin 256) (v : BitVec 32)
  /-- DIRTY_SWAP_COMPLETE (R195): Every bit update from before the flip is done, so SWAP_PENDING clears, SWAPS counts
      and the message is sent. -/
  | dirtySwapComplete (slice : Fin 4096)
  /-- PORT_START_CONDITION (R207): An IDLE port's start condition holds, and it enters TRAIN or POWER, or FAILED on a
      power fault. -/
  | portStartCondition (p : Fin 64)
  /-- PORT_POWER_ELAPSED (R207): PWR_MS elapses in POWER, so PERST_B is released and the port enters TRAIN. -/
  | portPowerElapsed (p : Fin 64)
  /-- PORT_DL_UP (R207): The port's link reaches DL_Up, so the port enters SETUP. -/
  | portDlUp (p : Fin 64) (rate lanes : Nat) (flit256 bi partnerOk : Bool)
  /-- PORT_TRAIN_TIMEOUT (R207): No DL_Up within 1 s of TRAIN, so the port enters FAILED with reason 3. -/
  | portTrainTimeout (p : Fin 64)
  /-- CONFIG_RETRY_TIMEOUT (R206): A HOST port is not ready 1 s after PERST_B release, so it enters FAILED with reason
      4. -/
  | configRetryTimeout (p : Fin 64)
  /-- PORT_SETUP_COMPLETE (R207): Firmware readiness or bring-up completes, and the port enters ACTIVE. -/
  | portSetupComplete (p : Fin 64)
  /-- POOL_BRING_UP (R218): Firmware brings up an expander step by step in SETUP, and the port fails at the first step
      that fails. -/
  | poolBringUp (p : Fin 64) (enumerates cdatOk : Bool) (capacity : Nat) (commitOk : Bool)
  /-- REMOVAL_RECOGNISED (R214): The removal of a port's occupant is recognised, and the port enters TEARDOWN with
      settle. -/
  | removalRecognised (p : Fin 64)
  /-- TEARDOWN_COMPLETE (R215): Every teardown item is complete, and the port enters IDLE or SETTLE. -/
  | teardownComplete (p : Fin 64)
  /-- SETTLE_EXPIRY (R216): The settle timer expires, and the port enters IDLE. -/
  | settleExpiry (p : Fin 64)
  /-- CHATTER_DETECTED (R212): More than 16 accepted edges in 10 ms send the port through TEARDOWN to QUARANTINE. -/
  | chatterDetected (p : Fin 64)
  /-- PWRFLT_ACCEPTED (R213): PWRFLT_B is accepted active, so power and reset are dropped and the port fails with
      reason 2. -/
  | pwrfltAccepted (p : Fin 64)
  /-- SBS_SCAN (R208): The scanner completes one 256-clock scan of the sideband chain. -/
  | sbsScan (frame : BitVec 256)
  /-- SBS_RESUME (R211): A write of SBS.CTL.RESUME ends a chain fault and restarts the filter. -/
  | sbsResume
  /-- HP_QCLR (R212): A write of PRT.HP_CTL.QCLR ends QUARANTINE into SETTLE. -/
  | hpQclr (p : Fin 64)
  /-- HP_FCLR (R213): A write of PRT.HP_CTL.FCLR re-arms the power fault and clears NOISE. -/
  | hpFclr (p : Fin 64)
  /-- HP_RETRY (R213): A write of PRT.HP_CTL.RETRY in FAILED moves the port to IDLE where rule R213 allows. -/
  | hpRetry (p : Fin 64)
  /-- CXL_MEM_COMPLETION_TIMEOUT (R219): A CXL.mem request to an expander times out and completes to the home; the
      eighth in a row takes the link down. -/
  | cxlMemCompletionTimeout (op : Nat)
  /-- CXL_IO_COMPLETION_TIMEOUT (R219): A CXL.io request to an expander times out and completes to firmware with
      Completer Abort. -/
  | cxlIoCompletionTimeout (p : Fin 64) (tag : Nat)
  /-- LATE_MEM_RESPONSE (R219): A CXL.mem response arriving after its timeout is discarded and counted. -/
  | lateMemResponse (p : Fin 64) (op : Nat)
  /-- DRAIN_COMPLETE (R220): No request to a draining port remains, so it passes through TEARDOWN without settle. -/
  | drainComplete (p : Fin 64)
  /-- PASS_POWER_CONTROLLER_OFF (R222): The bound host turns a vPPB's power controller off, and the PASS port drains. -/
  | passPowerControllerOff (host : Fin 64) (p : Fin 64)
  /-- PASS_POWER_CONTROLLER_ON (R222): The bound host turns a vPPB's power controller on, which lets IDLE start the
      port. -/
  | passPowerControllerOn (host : Fin 64) (p : Fin 64)
  /-- ASPM_L1_ENTRY (R356): A port enters ASPM L1, and its quads go to Doze or Nap. -/
  | aspmL1Entry (p : Fin 64)
  /-- ASPM_L1_EXIT (R356): A port leaves L1 and wakes its quads. -/
  | aspmL1Exit (p : Fin 64)
  /-- STITCH_TRAINING_ATTEMPT (R237): A training attempt of a DOWN link starts on its retry schedule. -/
  | stitchTrainingAttempt (link : Fin 16)
  /-- DETECT_PHASE_END (R235): DETECT ends with lanes locked, or its 2 ms limit expires. -/
  | detectPhaseEnd (link : Fin 16) (locked : BitVec 4)
  /-- FRAME_PHASE_END (R235): The receiver finds ALIGN and deskews its lanes, or FRAME times out. -/
  | framePhaseEnd (link : Fin 16) (deskewed : Bool)
  /-- EQUALISE_PHASE_END (R235): Both ends have sent READY, or EQUALISE times out. -/
  | equalisePhaseEnd (link : Fin 16) (peerReady : Bool)
  /-- CONFIRM_WINDOW_END (R236): The CONFIRM window ends; lanes qualify or the attempt fails with reason 2. -/
  | confirmWindowEnd (link : Fin 16) (errors : List Nat) (peerQualified : BitVec 4)
  /-- TRAIN_REQUEST_RECEIVED (R235): A TRAIN block requests an equaliser change, which is applied or refused with
      LIMIT. -/
  | trainRequestReceived (link : Fin 16) (lane : Fin 4) (request preset : Fin 8)
  /-- LINKUP_RECEIVED (R236): The peer's LINKUP and initial CREDIT arrive, its identity is checked, and the link
      enters ACTIVE or FAILED. -/
  | linkupReceived (link : Fin 16) (dev : DeviceId) (peerLink : Fin 16) (limits : Four)
  /-- STITCH_PACKET_SEND (R242): A message gets credits and replay-buffer room and is sent with the next SEQ. -/
  | stitchPacketSend (link : Fin 16) (words : List Word)
  /-- PACKET_RECEIVED (R242): A received packet is accepted, dropped as a duplicate, or starts the discard state with
      a NAK. -/
  | packetReceived (link : Fin 16) (words : List Word) (blockError : Option (Fin 4))
  /-- ACK_RECEIVED (R243): An ACK passes the window test and releases entries from the replay buffer. -/
  | ackReceived (link : Fin 16) (seq : BitVec 12)
  /-- ACK_TIMER_EXPIRY (R243): The ACK timer expires, and the receiver sends an ACK. -/
  | ackTimerExpiry (link : Fin 16)
  /-- NAK_RECEIVED (R244): A NAK acknowledges entries and starts a replay with a REPLAY block. -/
  | nakReceived (link : Fin 16) (seq : BitVec 12)
  /-- REPLAY_RECEIVED (R244): A REPLAY block ends the discard state. -/
  | replayReceived (link : Fin 16) (first : BitVec 12)
  /-- NAK_REPEAT_TIMEOUT (R244): No REPLAY arrives within REPLAY_TO, so the receiver sends the NAK again. -/
  | nakRepeatTimeout (link : Fin 16)
  /-- REPLAY_TIMEOUT (R246): Nothing has been acknowledged for REPLAY_TO, so a replay starts; at REPLAY_LIMIT the link
      dies with reason 4. -/
  | replayTimeout (link : Fin 16)
  /-- CREDIT_RECEIVED (R247): A CREDIT block raises the sender's credit limits. -/
  | creditReceived (link : Fin 16) (limits : Four)
  /-- CREDIT_ADVERTISE_TIMER (R247): A CREDIT block is sent within 1 µs of a rise and at least every 10 µs. -/
  | creditAdvertiseTimer (link : Fin 16)
  /-- WIDTH_REQ_RECEIVED (R250): A WIDTH_REQ changes the permitted mask, and the transmitter narrows or widens. -/
  | widthReqReceived (link : Fin 16) (mask : BitVec 4)
  /-- WIDTH_SET_RECEIVED (R251): A WIDTH_SET row switches the receiver to the new lane set. -/
  | widthSetReceived (link : Fin 16) (mask : BitVec 4)
  /-- WIDTH_READY_RECEIVED (R252): The added lanes are ready, and the transmitter changes to the wider set. -/
  | widthReadyReceived (link : Fin 16) (mask : BitVec 4)
  /-- WIDEN_LANE_TIMEOUT (R252): An added lane has not qualified within 20 ms and stays out of the set. -/
  | widenLaneTimeout (link : Fin 16)
  /-- LANE_SIGNAL_LOSS (R229): Loss of signal or loss of lock is asserted on a Stitch lane. -/
  | laneSignalLoss (link : Fin 16) (lane : Fin 4) (signal : Bool)
  /-- LINK_DECLARED_DEAD (R254): A link is declared dead: its receiver freezes, transmission stops and a takeover
      begins. -/
  | linkDeclaredDead (link : Fin 16) (reason : Fin 16)
  /-- TAKEOVER_RECEIVED (R256): The peer's TAKEOVER arrives, and the residue of the dead link is acknowledged and
      resent once. -/
  | takeoverReceived (carrier : Fin 16) (dead : Fin 16) (event : BitVec 8) (lastAccepted : BitVec 12)
  /-- TAKEOVER_REPEAT (R255): The TAKEOVER block is resent every 2 µs until the peer's TAKEOVER arrives. -/
  | takeoverRepeat (link : Fin 16)
  /-- LINK_CTL_DOWN (R237): A write of STL.LINK_CTL.DOWN puts the link in DOWN with reason 6 and holds it there. -/
  | linkCtlDown (link : Fin 16)
  /-- LINK_CTL_RETRAIN (R237): A write of STL.LINK_CTL.RETRAIN starts a training sequence. -/
  | linkCtlRetrain (link : Fin 16)
  /-- WIDTH_CTL_WRITE (R250): A write of STL.WIDTH_CTL.TARGET changes the permitted lane set; an invalid set is
      ignored. -/
  | widthCtlWrite (link : Fin 16) (target : BitVec 4)
  /-- TOLL_SEND (R272): Once each period, a Toll goes on every ACTIVE link. -/
  | tollSend
  /-- TOLL_RECEIVED (R274): A received Toll updates fabric time, peer-dead state and rejoin counts. -/
  | tollReceived (link : Fin 16) (words : List Word)
  /-- TOLL_SILENCE (R273): No Toll arrives for MISS periods, so the neighbour is declared dead with cause 3. -/
  | tollSilence (n : Fin 16)
  /-- KNELL_RECEIVED (R277): A Knell is acted on as Table MF-5 gives and reported to the fabric manager. -/
  | knellReceived (link : Fin 16) (words : List Word)
  /-- TRANSIT_MESSAGE (R269): A message for another device is routed onward without home or XTS. -/
  | transitMessage (link : Fin 16) (words : List Word)
  /-- GRANULE_TAKEBACK (R271): A returned bundle member takes back its granules once the substitute holds none of
      their messages. -/
  | granuleTakeback (n : Fin 16)
  /-- MGMT_REQUEST_REPEAT (R278): An unanswered MGMT request is repeated after 2 ms. -/
  | mgmtRequestRepeat (tag : BitVec 16)
  /-- MGMT_RESERVED_TYPE (R278): A MGMT message of a reserved MTYPE is discarded and reported under 0x304. -/
  | mgmtReservedType (src : DeviceId) (mtype : BitVec 8)
  /-- IMPORT_BIND (R66): The home checks an IMPORT_BIND against its export, sets MAPPED and answers. -/
  | importBind (src : DeviceId) (tag : BitVec 16) (exportId domain : BitVec 12) (coherent : Bool) (blocks : List Nat)
  /-- IMPORT_BIND_ACK (R66): The home's answer lets the importer write its REMOTE entries and import record. -/
  | importBindAck (src : DeviceId) (tag : BitVec 16) (exportId : BitVec 12) (status : Fin 3)
  /-- IMPORT_UNMAP_REQUEST (R67): The importer ends the import and answers IMPORT_UNMAPPED. -/
  | importUnmapRequest (src : DeviceId) (tag : BitVec 16) (exportId : BitVec 12)
  /-- IMPORT_UNMAPPED (R67): The home receives IMPORT_UNMAPPED and runs the block fence of the release. -/
  | importUnmapped (src : DeviceId) (tag : BitVec 16) (exportId : BitVec 12) (status : Fin 3)
  /-- EXPORT_NOTICE (R65): The importer ends any stale import of the named blocks and answers. -/
  | exportNotice (src : DeviceId) (tag : BitVec 16) (exportId domain : BitVec 12) (coherent : Bool) (blocks : List Nat)
  /-- EXPORT_NOTICE_ACK (R65): The home creates the domain and writes the blocks and the export record. -/
  | exportNoticeAck (src : DeviceId) (tag : BitVec 16) (exportId : BitVec 12) (status : Fin 3)
  /-- IMPORT_DROPPED (R67): The home sets MAPPED to 0 and answers. -/
  | importDropped (src : DeviceId) (tag : BitVec 16) (exportId : BitVec 12)
  /-- IMPORT_DROPPED_ACK (R278): The importer receives the answer to IMPORT_DROPPED. -/
  | importDroppedAck (src : DeviceId) (tag : BitVec 16) (exportId : BitVec 12) (status : Fin 3)
  /-- EXPORT_NOTICE_WAIT_EXPIRY (R65): No answer to EXPORT_NOTICE within 10 ms, so EXPORT_CREATE completes with
      TIMEOUT. -/
  | exportNoticeWaitExpiry (tag : BitVec 16)
  /-- IMPORT_BIND_WAIT_EXPIRY (R66): No answer to IMPORT_BIND within 10 ms, so REMOTE_MAP completes with TIMEOUT. -/
  | importBindWaitExpiry (tag : BitVec 16)
  /-- IMPORT_UNMAPPED_WAIT_EXPIRY (R67): No IMPORT_UNMAPPED within 1 s, so the home releases the export without it. -/
  | importUnmappedWaitExpiry (tag : BitVec 16)
  /-- INITIATE_DYNAMIC_CAPACITY_ADD (R54): The FM requests capacity for a host; firmware checks it, creates domains
      and offers blocks. -/
  | initiateDynamicCapacityAdd (path : Path) (host : Fin 64) (region : Fin 2) (tag : BitVec 128) (extents : List (Nat × Nat))
  /-- ADD_DYNAMIC_CAPACITY_RESPONSE (R55): The host accepts extents, which become BOUND; the rest are fenced. -/
  | addDynamicCapacityResponse (p : Fin 64) (accepted : List (Nat × Nat))
  /-- OFFER_TIMEOUT (R55): The host has not answered an offer in time, so every extent is withdrawn. -/
  | offerTimeout (p : Fin 64)
  /-- INITIATE_DYNAMIC_CAPACITY_RELEASE (R56): The FM asks a host to release extents, and a Release Capacity record is
      placed. -/
  | initiateDynamicCapacityRelease (path : Path) (host : Fin 64) (extents : List (Nat × Nat))
  /-- FORCED_RELEASE (R57): A forced release clears the host's slots and fences without waiting for the host. -/
  | forcedRelease (path : Path) (host : Fin 64) (extents : List (Nat × Nat))
  /-- RELEASE_DYNAMIC_CAPACITY (R56): The host releases extents; firmware runs the holder and block fences. -/
  | releaseDynamicCapacity (p : Fin 64) (extents : List (Nat × Nat))
  /-- FENCE_START (R59): Firmware starts a fence batch of at most 16 blocks. -/
  | fenceStart
  /-- FENCE_STEP_COMPLETE (R59): A fence step completes, and the next step of Table PB-11 begins. -/
  | fenceStepComplete
  /-- KEY_SLOT_REKEY (R47): The key vault rekeys a SPENT slot, which becomes READY. -/
  | keySlotRekey (slot : Fin 4096)
  /-- KEYV_POWER_LOSS (R50): KEYV loses power: every slot becomes SPENT, and bound blocks are fenced with forced
      revocation. -/
  | keyvPowerLoss
  /-- MIGRATION_CHUNK_COPIED (R64): A 4 KiB chunk is copied and the migration watermark advances. -/
  | migrationChunkCopied (block : BitVec 20)
  /-- MIGRATION_COMPLETE (R64): The watermark reaches 64 MiB, so slots point at the target and the source is fenced. -/
  | migrationComplete (block : BitVec 20)
  /-- RESYNC_COMPLETE (R36): Every mirror copy of a resynchronisation has completed, so WAY_OK is set and RESYNC
      cleared. -/
  | resyncComplete (setNo : Fin 64) (way : Fin 16) (copy : Fin 2)
  /-- MAILBOX_DOORBELL (R285): A write of DOORBELL submits the mailbox command. -/
  | mailboxDoorbell (m : Fin 65)
  /-- MCTP_REQUEST (R287): A command arrives as an MCTP request message. -/
  | mctpRequest (eid : Nat) (componentCci : Bool) (opcode : BitVec 16) (length : Nat)
  /-- BACKGROUND_OPERATION_END (R286): A background operation ends, and its result is placed in MBX.BG_STATUS. -/
  | backgroundOperationEnd (path : Path)
  /-- IDENTIFY (R290): The CXL Identify command on the Pool Device mailbox. -/
  | identify (p : Fin 64)
  /-- BACKGROUND_OPERATION_STATUS (R290): Returns the status of the background operation. -/
  | backgroundOperationStatus (path : Path)
  /-- GET_RESPONSE_MESSAGE_LIMIT (R290): Returns the response message limit. -/
  | getResponseMessageLimit (path : Path)
  /-- GET_EVENT_RECORDS (R290): Returns event records, including Dynamic Capacity records. -/
  | getEventRecords (p : Fin 64) (log : Fin 5)
  /-- CLEAR_EVENT_RECORDS (R290): Clears event records. -/
  | clearEventRecords (p : Fin 64) (log : Fin 5) (handles : List Nat)
  /-- GET_EVENT_INTERRUPT_POLICY (R290): Returns the event interrupt policy. -/
  | getEventInterruptPolicy (p : Fin 64)
  /-- SET_EVENT_INTERRUPT_POLICY (R290): Sets the event interrupt policy. -/
  | setEventInterruptPolicy (p : Fin 64) (input : List Byte)
  /-- GET_FW_INFO (R290): Reports the active management firmware. -/
  | getFwInfo (p : Fin 64)
  /-- GET_TIMESTAMP (R290): Returns a timestamp from fabric time. -/
  | getTimestamp (p : Fin 64)
  /-- SET_TIMESTAMP (R290): Accepted and ignored. -/
  | setTimestamp (p : Fin 64) (input : List Byte)
  /-- GET_SUPPORTED_LOGS (R290): Lists the supported logs. -/
  | getSupportedLogs (p : Fin 64)
  /-- GET_LOG (R290): Returns the Command Effects Log or another listed log. -/
  | getLog (p : Fin 64) (input : List Byte)
  /-- IDENTIFY_MEMORY_DEVICE (R290): Reports the memory device, with no static capacity. -/
  | identifyMemoryDevice (p : Fin 64)
  /-- GET_PARTITION_INFO (R290): Reports partition information. -/
  | getPartitionInfo (p : Fin 64)
  /-- GET_HEALTH_INFO (R290): Reports health from the Carillon state of the sources that serve the host. -/
  | getHealthInfo (p : Fin 64)
  /-- GET_POISON_LIST (R290): Lists lost lines behind the host's valid slots, as DPAs. -/
  | getPoisonList (p : Fin 64)
  /-- GET_DYNAMIC_CAPACITY_CONFIGURATION (R290): Returns the Dynamic Capacity configuration. -/
  | getDynamicCapacityConfiguration (p : Fin 64)
  /-- GET_DYNAMIC_CAPACITY_EXTENT_LIST (R290): Returns the host's extent list. -/
  | getDynamicCapacityExtentList (p : Fin 64) (first count : Nat)
  /-- UNSUPPORTED_CXL_COMMAND (R290): Any other CXL command returns the standard Unsupported code. -/
  | unsupportedCxlCommand (p : Fin 64) (opcode : BitVec 16)
  /-- FM_IDENTIFY (R291): The FM-API Identify command. -/
  | fmIdentify (path : Path)
  /-- IDENTIFY_SWITCH_DEVICE (R291): Reports the switch device to the FM. -/
  | identifySwitchDevice (path : Path)
  /-- GET_PHYSICAL_PORT_STATE (R291): Reports the state of physical ports. -/
  | getPhysicalPortState (path : Path) (ports : List (Fin 64))
  /-- GET_VIRTUAL_CXL_SWITCH_INFO (R291): Reports the virtual switch information. -/
  | getVirtualCxlSwitchInfo (path : Path)
  /-- GET_DCD_INFO (R291): Reports DCD information for a host port. -/
  | getDcdInfo (path : Path) (host : Fin 64)
  /-- GET_HOST_DC_REGION_CONFIGURATION (R291): Reports a host's DC region configuration. -/
  | getHostDcRegionConfiguration (path : Path) (host : Fin 64)
  /-- GET_DC_REGION_EXTENT_LISTS (R291): Reports DC region extent lists. -/
  | getDcRegionExtentLists (path : Path) (host : Fin 64) (first count : Nat)
  /-- UNSUPPORTED_FM_API_COMMAND (R291): An FM-API command outside the subset is refused as unsupported. -/
  | unsupportedFmApiCommand (path : Path) (opcode : BitVec 16)
  /-- GET_INFO (R292): Returns device identity, firmware, lifecycle and pool counts. -/
  | getInfo (path : Path) (input : List Byte)
  /-- REG_READ (R293): Performs one register read with its side effects and returns the value. -/
  | regRead (path : Path) (input : List Byte)
  /-- BLOCK_QUERY (R294): Returns a block map entry. -/
  | blockQuery (path : Path) (input : List Byte)
  /-- BLOCK_MIGRATE (R294): Starts a live migration of a block. -/
  | blockMigrate (path : Path) (input : List Byte)
  /-- EXPORT_CREATE (R65): Exports FREE blocks to an importing device. -/
  | exportCreate (path : Path) (input : List Byte)
  /-- EXPORT_RELEASE (R67): Releases an export: sets RELEASING, asks the importer to unmap, then fences. -/
  | exportRelease (path : Path) (input : List Byte)
  /-- REMOTE_MAP (R66): Imports an export as REMOTE block map entries. -/
  | remoteMap (path : Path) (input : List Byte)
  /-- REMOTE_UNMAP (R67): Ends an import on the importer. -/
  | remoteUnmap (path : Path) (input : List Byte)
  /-- QOS_SET (R294): Writes reservation, weight, shaper, age or DevLoad registers after the checks of Table SW-4. -/
  | qosSet (path : Path) (input : List Byte)
  /-- GATE_LIST_SET (R294): Writes the inactive gate bank and requests a swap. -/
  | gateListSet (path : Path) (input : List Byte)
  /-- MIRROR_SET (R294): Configures a mirror session. -/
  | mirrorSet (path : Path) (input : List Byte)
  /-- SLICE_CREATE (R296): Creates a slice with a PASID and a quota. -/
  | sliceCreate (path : Path) (input : List Byte)
  /-- SLICE_RESIZE (R296): Replaces a slice's quota, draining any decrease. -/
  | sliceResize (path : Path) (input : List Byte)
  /-- SLICE_DESTROY (R176): Reduces a slice to zero and frees it. -/
  | sliceDestroy (path : Path) (input : List Byte)
  /-- SLICE_QUERY (R296): Returns a slice's state, quota, rings and channels. -/
  | sliceQuery (path : Path) (input : List Byte)
  /-- ENGINE_ASSIGN (R296): Assigns a service image to an engine. -/
  | engineAssign (path : Path) (input : List Byte)
  /-- PORT_REMOVE (R220): Starts the orderly removal of a POOL port. -/
  | portRemove (path : Path) (input : List Byte)
  /-- PORT_RELEASE (R297): Releases a port held in IDLE after orderly removal. -/
  | portRelease (path : Path) (input : List Byte)
  /-- LINK_SET_DOWN (R237): LINK_SET with ACTION 0 puts a link down with reason 6 and holds it. -/
  | linkSetDown (path : Path) (input : List Byte)
  /-- LINK_SET_RETRAIN (R237): LINK_SET with ACTION 1 starts retraining. -/
  | linkSetRetrain (path : Path) (input : List Byte)
  /-- LINK_SET_TARGET (R297): LINK_SET with ACTION 2 sets STL.WIDTH_CTL.TARGET. -/
  | linkSetTarget (path : Path) (input : List Byte)
  /-- ROUTE_SET (R297): Applies routing entries at one instant after the local route-order check. -/
  | routeSet (path : Path) (input : List Byte)
  /-- NEIGHBOUR_REJOIN (R279): Accepts the rejoin of a DEAD neighbour slot. -/
  | neighbourRejoin (path : Path) (input : List Byte)
  /-- LOG_READ (R298): Reads records from a log. -/
  | logRead (path : Path) (input : List Byte)
  /-- LOG_CLEAR (R299): Clears a log when THROUGH_SEQ is current. -/
  | logClear (path : Path) (input : List Byte)
  /-- FW_TRANSFER_START (R312): Erases the unused slot of the target. -/
  | fwTransferStart (path : Path) (input : List Byte)
  /-- FW_TRANSFER_DATA (R312): Writes image data at ascending offsets. -/
  | fwTransferData (path : Path) (input : List Byte)
  /-- FW_TRANSFER_END (R312): Verifies the written slot as a background operation. -/
  | fwTransferEnd (path : Path) (input : List Byte) (body : Image)
  /-- FW_TRANSFER_ABORT (R312): Discards an open transfer. -/
  | fwTransferAbort (path : Path) (input : List Byte)
  /-- FW_ACTIVATE_NEXT_RESET (R313): FW_ACTIVATE with MODE 0 marks a verified slot preferred or in use. -/
  | fwActivateNextReset (path : Path) (input : List Byte)
  /-- FW_ACTIVATE_LIVE (R313): FW_ACTIVATE with MODE 1 activates firmware or a service image live. -/
  | fwActivateLive (path : Path) (input : List Byte)
  /-- LIVE_ACTIVATION_TAKEOVER (R314): The new firmware takes over from the handover region, and the activation
      completes. -/
  | liveActivationTakeover
  /-- LIVE_ACTIVATION_TIMEOUT (R314): The new firmware misses the 2 s window, so the old firmware resumes and the
      activation completes with TIMEOUT. -/
  | liveActivationTimeout
  /-- FW_COMMIT (R313): Advances the OTP rollback counter, clears TRIAL and revokes lower image keys. -/
  | fwCommit (path : Path) (input : List Byte)
  /-- RESET_WARM (R315): RESET KIND 0 completes and then performs a warm reset without taking any link down. -/
  | resetWarm (path : Path) (input : List Byte)
  /-- RESET_TAMBOUR (R315): RESET KIND 1 performs BRST on a Tambour's logic. -/
  | resetTambour (path : Path) (input : List Byte)
  /-- RESET_PORT (R315): RESET KIND 2 performs BRST on a CXL port. -/
  | resetPort (path : Path) (input : List Byte)
  /-- RESET_LINK (R315): RESET KIND 3 performs BRST on a Stitch link. -/
  | resetLink (path : Path) (input : List Byte)
  /-- OOB_READ (R302): A bridge READ delivers held data, or starts a fetch and answers PENDING, BUSY or an error. -/
  | oobRead (addr : BitVec 32)
  /-- OOB_WRITE (R304): A bridge WRITE performs one register write and discards slots holding the block. -/
  | oobWrite (addr : BitVec 32) (v : Word)
  /-- OOB_RESULT (R301): A bridge RESULT returns the status and data of the last READ or WRITE. -/
  | oobResult
  /-- OOB_FETCH_COMPLETE (R302): A bridge fetch of a 64-byte block completes into its slot. -/
  | oobFetchComplete (block : Nat)
  /-- OOB_SLOT_EXPIRY (R302): A slot's 50 ms hold ends, and its block is discarded. -/
  | oobSlotExpiry (block : Nat)
  /-- ACU_REGION_SET (R329): Writes regions into all 17 ACUs at one instant and advances the epoch. -/
  | acuRegionSet (path : Path) (input : List Byte)
  /-- ACU_FENCE (R326): Completes once no access of an older ACU epoch remains. -/
  | acuFence (path : Path) (input : List Byte)
  /-- ACU_OLD_EPOCH_DRAINED (R326): The last access of the previous ACU epoch ends. -/
  | acuOldEpochDrained
  /-- ACU_VIOLATION_READ (R329): Returns a violation record, clearing it if asked. -/
  | acuViolationRead (path : Path) (input : List Byte)
  /-- VIOL_INFO_CLEAR (R323): A write of 1 to VIOL_INFO.VALID clears the whole record and its count. -/
  | violInfoClear (who : RegRequester) (v : Fin 17)
  /-- LIFECYCLE_SET_PROVISIONED (R335): Writes the owner keys and then PROVISIONED to OTP. -/
  | lifecycleSetProvisioned (path : Path) (input : List Byte) (otpOk : Bool)
  /-- LIFECYCLE_SET_DEPLOYED (R335): Moves the lifecycle state to DEPLOYED. -/
  | lifecycleSetDeployed (path : Path) (input : List Byte) (otpOk : Bool)
  /-- LIFECYCLE_SET_RMA (R335): Verifies the RMA token, performs a FULL zeroization and writes RMA. -/
  | lifecycleSetRma (path : Path) (input : List Byte) (sigOk otpOk : Bool)
  /-- DEBUG_CHALLENGE (R344): Draws a nonce and returns a challenge record. -/
  | debugChallenge (path : Path) (input : List Byte)
  /-- DEBUG_UNLOCK (R344): Verifies a signed challenge and grants DL1, or starts the entry to DL2. -/
  | debugUnlock (path : Path) (input : List Byte) (sigOk : Bool)
  /-- DEBUG_LOCK (R346): Returns the debug level to DL0 and releases halted cores. -/
  | debugLock (path : Path) (input : List Byte)
  /-- CHALLENGE_EXPIRY (R344): A pending debug challenge expires 60 s after issue. -/
  | challengeExpiry
  /-- ZEROIZE_KEYS (R347): ZEROIZE SCOPE 0 erases keys and secrets, then forces revocation. -/
  | zeroizeKeys (path : Path) (input : List Byte) (readBack : Bool)
  /-- ZEROIZE_FULL (R347): ZEROIZE SCOPE 1 erases the items of the FULL column and ends with a warm reset. -/
  | zeroizeFull (path : Path) (input : List Byte) (readBack : Bool)
  /-- DRBG_HEALTH_FAILURE (R330): A failed entropy health test stops the DRBG and raises source 0x2D2. -/
  | drbgHealthFailure
  /-- DRBG_STARTUP_RETRY (R330): Every 1 s the start-up test is retried; a pass reseeds the DRBG. -/
  | drbgStartupRetry (pass : Bool)
  /-- GET_VERSION (R340): SPDM GET_VERSION is answered. -/
  | getVersion (path : Path)
  /-- GET_CAPABILITIES (R340): SPDM GET_CAPABILITIES is answered. -/
  | getCapabilities (path : Path)
  /-- NEGOTIATE_ALGORITHMS (R340): SPDM NEGOTIATE_ALGORITHMS is answered. -/
  | negotiateAlgorithms (path : Path) (offersSubset : Bool)
  /-- GET_DIGESTS (R340): SPDM GET_DIGESTS is answered. -/
  | getDigests (path : Path)
  /-- GET_CERTIFICATE (R341): SPDM GET_CERTIFICATE returns the slot 0 chain. -/
  | getCertificate (path : Path) (slot offset length : Nat)
  /-- CHALLENGE (R340): SPDM CHALLENGE is answered under the alias key. -/
  | challenge (path : Path) (slot : Nat)
  /-- GET_MEASUREMENTS (R342): SPDM GET_MEASUREMENTS returns the blocks of Table PS-14. -/
  | getMeasurements (path : Path) (index : BitVec 8) (signed : Bool)
  /-- KEY_EXCHANGE (R340): SPDM KEY_EXCHANGE opens a session. -/
  | keyExchange (path : Path) (slot : Nat)
  /-- FINISH (R340): SPDM FINISH completes session setup. -/
  | finish (path : Path) (session : Nat) (verifies : Bool)
  /-- KEY_UPDATE (R340): SPDM KEY_UPDATE updates session keys. -/
  | keyUpdate (path : Path) (session : Nat)
  /-- HEARTBEAT (R340): SPDM HEARTBEAT is answered. -/
  | heartbeat (path : Path) (session : Nat)
  /-- END_SESSION (R332): SPDM END_SESSION ends a session and erases its secrets. -/
  | endSession (path : Path) (session : Nat)
  /-- IDE_KM (R223): A secured IDE_KM message sets up link IDE keys within a session. -/
  | ideKm (path : Path) (session : Nat) (keySet : Nat)
  /-- DOMAIN_DOZE_ENTRY (R355): A domain's Doze condition has held for 64 cycles, and it enters Doze. -/
  | domainDozeEntry (dom : Fin 124)
  /-- DOMAIN_NAP_ENTRY (R355): A domain's Nap condition has held for NAP_IDLE, and it enters Nap. -/
  | domainNapEntry (dom : Fin 124)
  /-- DOMAIN_DEEP_ENTRY (R355): A domain's Deep condition has held for DEEP_IDLE, and it enters Deep. -/
  | domainDeepEntry (dom : Fin 124)
  /-- DOMAIN_WAKE_EVENT (R354): A wake event returns a sleeping domain toward Run while its work waits. -/
  | domainWakeEvent (dom : Fin 124)
  /-- DOMAIN_WAKE_COMPLETE (R354): A waking domain first accepts work. -/
  | domainWakeComplete (dom : Fin 124)
  /-- BREAKER_CURVE_TRIP (R362): Segment current exceeds a curve point for its time, so both segments open. -/
  | breakerCurveTrip (dom : Fin 124) (segment : Fin 2)
  /-- BREAKER_FAST_TRIP (R362): Current above four times the rating opens both segments within 1 µs. -/
  | breakerFastTrip (dom : Fin 124) (segment : Fin 2)
  /-- RETRY_BACKOFF_EXPIRY (R363): A retry's backoff ends with the rail qualified, and the breaker ramps again. -/
  | retryBackoffExpiry (dom : Fin 124)
  /-- RAMP_COMPLETE (R361): The segment output reaches 95 % and the domain restore begins. -/
  | rampComplete (dom : Fin 124)
  /-- RAMP_TIMEOUT (R361): The output has not risen within RAMP plus 20 %, so the domain latches with CAUSE 4. -/
  | rampTimeout (dom : Fin 124)
  /-- RETRY_SEQUENCE_END (R363): 1 s passes without a trip, and the retry sequence ends. -/
  | retrySequenceEnd (dom : Fin 124)
  /-- CLASS_B_RESIDUAL_CHECK (R364): 50 µs after a command off, a class B output is checked and clamped if still high. -/
  | classBResidualCheck (dom : Fin 124) (high : Bool)
  /-- RAIL_OUT_OF_WINDOW (R365): A rail has stayed out of its window for the deglitch time, and its segments open. -/
  | railOutOfWindow (rail : Fin 7) (mv : BitVec 12)
  /-- RAIL_QUALIFIED (R360): A rail has stayed in its window for its insertion delay. -/
  | railQualified (rail : Fin 7) (mv : BitVec 12)
  /-- AO_FEED_CHANGEOVER (R366): The AO feed in use leaves its window, and the island changes to the other feed. -/
  | aoFeedChangeover
  /-- AO_FEED_RETURN (R366): VDD_AO_A is qualified again, and the island changes back to it. -/
  | aoFeedReturn
  /-- AO_ONLY_WAKE (R367): An enabled wake source ends AO-ONLY, and the device boots from step 2. -/
  | aoOnlyWake (source : Fin 3)
  /-- AO_ONLY_TIMER_EXPIRY (R367): TIMER_S expires in AO-ONLY. -/
  | aoOnlyTimerExpiry
  /-- SLEEP_CTL_WAKE (R367): A write of PWR.SLEEP_CTL.WAKE requests the end of AO-ONLY. -/
  | sleepCtlWake
  /-- AOCLK_LOSS (R369): AOCLK is absent or off frequency, and the island changes to the internal oscillator. -/
  | aoclkLoss
  /-- AOCLK_RETURN (R369): AOCLK has stayed within 100 ppm for 100 ms, and the island returns to it. -/
  | aoclkReturn
  /-- REFCLK_LOSS (R370): A port die's REFCLK is absent for 1 µs, and its ports and links go down. -/
  | refclkLoss (die : Fin 4)
  /-- REFCLK_RETURN (R370): REFCLK has been present for 10 ms, and the die's quads retrain. -/
  | refclkReturn (die : Fin 4)
  /-- AVS_STEP (R371): The device writes a new VDD_CORE target step to the regulator. -/
  | avsStep (target : BitVec 12) (acked : Bool)
  /-- POWER_POLICY_SET_DOMAINS (R373): Applies DOM_CFG entries at one instant. -/
  | powerPolicySetDomains (path : Path) (input : List Byte)
  /-- POWER_POLICY_SET_CURVE (R373): Loads a breaker curve. -/
  | powerPolicySetCurve (path : Path) (input : List Byte)
  /-- POWER_POLICY_SET_AO_ONLY (R367): Requests AO-ONLY, which firmware enters in order within 20 ms. -/
  | powerPolicySetAoOnly (path : Path) (input : List Byte)
  /-- POWER_POLICY_SET_AVS (R372): Enables or disables AVS. -/
  | powerPolicySetAvs (path : Path) (input : List Byte)
  /-- FAULT_SIGNAL (R381): A source's pair reads fault for 2 samples; Carillon reads the syndrome, logs it and reacts. -/
  | faultSignal (n : Fin 1024) (cls : Fin 5) (detail : BitVec 96) (resource : Option (Resource × Nat))
  /-- BROKEN_WIRE (R378): A pair reads (0,0) or (1,1), so WIRE is set and the highest severity is applied. -/
  | brokenWire (n : Fin 1024)
  /-- SELF_TEST_RESULT (R390): A targeted self-test ends, and the event is marked transient, or lasting with
      retirement. -/
  | selfTestResult (n : Fin 1024) (resource : Resource) (number : Nat) (passed : Bool)
  /-- TAMBOUR_LOGIC_LOST (R395): A Tambour's logic is lost: its ports, link, engines and channels go down, and a
      lasting loss moves its slice. -/
  | tambourLogicLost (t : Fin 16) (lasting : Bool)
  /-- SLICE_MOVE_COMPLETE (R395): The logical slice has moved to its host Tambour and accepts requests again. -/
  | sliceMoveComplete (t : Fin 16)
  /-- TDIR_LOST (R397): A TDIR is lost, so coherent bindings are force-released and coherent neighbour links put down. -/
  | tdirLost (t : Fin 16)
  /-- PORT_DIE_LOST (R398): A port die is lost with its ports, links and one log copy. -/
  | portDieLost (die : Fin 4)
  /-- PORT_DIE_RETURN (R386): A returning port die has its logs copied before both copies are used again. -/
  | portDieReturn (die : Fin 4)
  /-- MGT_RESTORE (R399): MGT is restored, and firmware rebuilds its state from live tables. -/
  | mgtRestore
  /-- CARILLON_CONFIG_SCRUB (R393): Every 1 ms every source's configuration is checked against its complement. -/
  | carillonConfigScrub
  /-- FAULT_CLEAR (R401): Clears PENDING and WIRE of named sources whose pair reads normal. -/
  | faultClear (path : Path) (input : List Byte)
  /-- RESOURCE_RESTORE (R401): Tests a retired resource and returns it to service. -/
  | resourceRestore (path : Path) (input : List Byte) (passes : Bool)
  /-- TEMPERATURE_THRESHOLD (R459): A die reading crosses a threshold of Table ET-9 and raises its event or throttle. -/
  | temperatureThreshold (die : Fin 5) (reading : Nat)
  /-- THERMAL_TRIP (R460): A reading of 120 °C opens the main rails and holds cold reset and FAULT_B. -/
  | thermalTrip (die : Fin 5) (reading : Nat)
  /-- COUNTER_WRAP (R407): A PMU counter wraps, sets OVF and raises an event if IRQ is set. -/
  | counterWrap (u : Fin 37) (counter : Fin 9) (rest : BitVec 48)
  /-- PMC_COUNTER_WRITE (R408): A write replaces a counter's count. -/
  | pmcCounterWrite (who : RegRequester) (u : Fin 37) (counter : Fin 9) (v : Word)
  /-- PMC_LOW_HALF_READ (R410): A 32-bit read of a counter's low half latches the high half. -/
  | pmcLowHalfRead (who : RegRequester) (u : Fin 37) (counter : Fin 9)
  /-- FTIME_LOW_HALF_READ (R420): A 32-bit read of GLB.FTIME's low half latches the high half. -/
  | ftimeLowHalfRead (who : RegRequester)
  /-- PMC_FREEZE_WRITE (R411): GLB_CTL.FREEZE stops or restarts every programmable counter at one instant. -/
  | pmcFreezeWrite (who : RegRequester) (freeze : Bool)
  /-- PMC_SNAP (R411): A write of SNAP requests a snapshot at the next AO edge. -/
  | pmcSnap (who : RegRequester)
  /-- SNAPSHOT_TAKEN (R411): At the AO edge, fabric time and every PMU's counts are copied, and SNAP_PENDING clears. -/
  | snapshotTaken
  /-- TLS_SAMPLE (R413): At each sample instant every enabled slot adds depth and delay to its histograms. -/
  | tlsSample
  /-- TLS_SWAP (R415): A write of TLS.CTL.SWAP sets PENDING for a bank flip at the next sample. -/
  | tlsSwap (who : RegRequester)
  /-- ALIGN_ROW_RECEIVED (R251): A Stitch receiver takes an ALIGN row, deskews its lanes on it, and adopts the row's
      lanes as its set when they differ from its current set. -/
  | alignRowReceived (link : Fin 16) (lanes : BitVec 4)
  /-- CONTROL_BLOCK_ERROR (R234): A control block with a bad CRC-12, a reserved CTYPE or a bad header, arriving
      between packets, is counted as a block error and starts the discard state. -/
  | controlBlockError (link : Fin 16) (lane : Fin 4)
  /-- LINKUP_PHASE_TIMEOUT (R235): The LINKUP phase of a Stitch training attempt runs out its 100 µs limit without the
      peer's LINKUP and initial CREDIT. -/
  | linkupPhaseTimeout (link : Fin 16)
  /-- JTAG_CORE_CONTROL (R343): At DL2, a JTAG core-control instruction halts, steps or releases the management cores,
      which GLB.SEC_STATUS.HALTED reports. -/
  | jtagCoreControl (op : Fin 3)
  /-- PME_TURN_OFF (R200): A host sends PME_Turn_Off, and its port's link moves toward L2 or L3, which PRT.STATUS.PM
      reports. -/
  | pmeTurnOff (p : Fin 64)
  /-- PORT_WIDTH_OR_RATE_CHANGE (R125): A CXL port changes its width under L0p or its rate by retraining, and the
      device recomputes the guard band G_c and reports a degraded event if an open gate interval becomes too short. -/
  | portWidthOrRateChange (p : Fin 64) (rate lanes : Nat) (l0p : Bool)
  /-- VDD_AO_HOLD_LOW (R366): VDD_AO_HOLD falls below 0.70 V during a feed gap, which sets HOLD_LOW, and resets the AO
      domain when neither feed is qualified. -/
  | vddAoHoldLow
  /-- MCTP_CONTROL_MESSAGE (R283): The BMC, as bus owner, sends MCTP control messages that assign the endpoint ID of
      the device's MCTP endpoint. -/
  | mctpControlMessage (eid : BitVec 8)
  /-- I3C_DYNAMIC_ADDRESS_ASSIGNMENT (R432): The I3C bus controller assigns a dynamic address to the bridge target or
      the MCTP target through SETDASA or ENTDAA. -/
  | i3cDynamicAddressAssignment (bridge : Bool) (addr : BitVec 7)
  /-- EXPANDER_EVENT_RECORD (R218): An expander on a POOL port raises an event record or poison report, or sends
      Viral, and firmware handles it; Viral counts as a fatal expander error. -/
  | expanderEventRecord (p : Fin 64) (kind : Fin 3) (dpa : Nat)
  deriving DecidableEq, Repr

end Sys2Proof
end

