-- ==== Sys2Proof/Decode.lean ====
section
/-! DEFINITION. The command that a word of the command table spells. No row of the table gives a command any bits:
commands reach the device as register accesses, messages and events, so no word spells one. -/

namespace Sys2Proof

/-- The command a word spells by the table's bits: none, because the table gives no row bits. -/
def decodeTableWord (_nbits _w : Nat) : Option Instr := none

end Sys2Proof
end

