-- ==== Sys2Proof/Config.lean ====
section
/-! DEFINITION. What one implementation fixes and this specification leaves open: the free values.
None of these constants has a body, so nothing in the model can depend on what they are. -/

namespace Sys2Proof.Config

/-- The n-th open value of width w: indeterminate data (R51, R161), nonces and keys from the DRBG (R330). -/
opaque freeBits (w : Nat) (n : Nat) : BitVec w

/-- The n-th open number: a choice the specification leaves to the device (victim way R89, which thread or engine). -/
opaque freeNat (n : Nat) : Nat

/-- The class (R380) of an event that the specification reports without giving its class; the argument names the kind
of event (log entry 12). -/
opaque eventClass (kind : Nat) : Nat

/-- SHA-384 of FIPS 180-4 (R1, R342): a published function, kept uninterpreted. -/
opaque sha384 : List Byte → BitVec 384

/-- The contents of certificates and keys the specification does not print (R341). -/
opaque certificateByte : Nat → Byte

/-- Bytes of command outputs whose layout is CXL's or SPDM's own and not this specification's. -/
opaque standardByte : Nat → Nat → Byte

/-- The interrupt numbers that the CXL mailbox capability of a Pool Device reports (R284): 0 doorbell, 1 background. -/
opaque mailboxVector : Nat → Nat

/-- Whether the host has enabled DPC in the vPPB of a PASS port: PCIe configuration state (R215). -/
opaque dpcEnabled : Nat → Bool

end Sys2Proof.Config
end

