-- ==== Sys2Proof/Machine/Bits.lean ====
section
/-! DEFINITION. Bit fields, sparse tables and checksums that every block of the model shares. -/

namespace Sys2Proof.Machine

/-- A field of a register: its highest and lowest bit. -/
structure Fld where
  hi : Nat
  lo : Nat
  deriving DecidableEq, Repr

/-- The mask of bits hi down to lo. -/
def fieldMask (hi lo : Nat) : Word := BitVec.ofNat 64 ((2 ^ (hi + 1 - lo) - 1) * 2 ^ lo)

/-- The number that bits hi down to lo hold. -/
def getBits (v : Word) (hi lo : Nat) : Nat := v.toNat / 2 ^ lo % 2 ^ (hi + 1 - lo)

/-- v with bits hi down to lo holding n (its low bits, if it is wider). -/
def setBits (v : Word) (hi lo n : Nat) : Word :=
  (v &&& ~~~ fieldMask hi lo) ||| (BitVec.ofNat 64 (n % 2 ^ (hi + 1 - lo) * 2 ^ lo))

def Fld.get (f : Fld) (v : Word) : Nat := getBits v f.hi f.lo
def Fld.set (f : Fld) (v : Word) (n : Nat) : Word := setBits v f.hi f.lo n

section
variable {κ β : Type} [DecidableEq κ]

/-- Look a key up. -/
def tget : Table κ β → κ → Option β
  | [], _ => none
  | (k', v) :: r, k => if k' = k then some v else tget r k

/-- The value of a key, or a default. -/
def tgetD (m : Table κ β) (k : κ) (dflt : β) : β := (tget m k).getD dflt

/-- Set a key's value: in place, or at the end. -/
def tset : Table κ β → κ → β → Table κ β
  | [], k, v => [(k, v)]
  | (k', v') :: r, k, v => if k' = k then (k, v) :: r else (k', v') :: tset r k v

/-- Remove a key. -/
def tdel (m : Table κ β) (k : κ) : Table κ β := m.filter fun e => !decide (e.1 = k)

/-- Change the value of a key that is present. -/
def tmod (m : Table κ β) (k : κ) (f : β → β) : Table κ β :=
  match tget m k with
  | none => m
  | some v => tset m k (f v)

end

/-- Add one to a number, stopping at a bound (a saturating counter). -/
def satAdd (bound a n : Nat) : Nat := min bound (a + n)

/-- ceil(a / b). -/
def ceilDiv (a b : Nat) : Nat := (a + b - 1) / b

/-- Whether bit i of a number is set. -/
def bit (v i : Nat) : Bool := v.testBit i

/-- The bits set in a 64-bit mask, ascending. -/
def bitsSet (n : Nat) (width : Nat) : List Nat := (List.range width).filter fun i => n.testBit i

/-- A number in n bytes, little-endian (R4). -/
def toBytes : Nat → Nat → List Byte
  | 0, _ => []
  | n + 1, v => BitVec.ofNat 8 (v % 256) :: toBytes n (v / 256)

/-- The number that bytes hold, little-endian (R4). -/
def ofBytes : List Byte → Nat
  | [] => 0
  | b :: r => b.toNat + 256 * ofBytes r

/-- Bytes off to off + len - 1 of a payload as a number; bytes beyond the end read 0. -/
def field (p : List Byte) (off len : Nat) : Nat := ofBytes ((p.drop off).take len)

/-- Bytes off to off + len - 1 of a payload. -/
def slice (p : List Byte) (off len : Nat) : List Byte := (p.drop off).take len

/-- One bit step of a reflected 32-bit CRC. -/
def crcStep (poly c : Nat) : Nat := if c % 2 = 1 then (c / 2) ^^^ poly else c / 2

/-- One byte of a reflected 32-bit CRC. -/
def crcByte (poly c : Nat) (b : Byte) : Nat :=
  let x := c ^^^ b.toNat
  crcStep poly (crcStep poly (crcStep poly (crcStep poly
    (crcStep poly (crcStep poly (crcStep poly (crcStep poly x)))))))

/-- A reflected CRC over bytes from a start value. -/
def crcBytes (poly : Nat) : Nat → List Byte → Nat
  | c, [] => c
  | c, b :: r => crcBytes poly (crcByte poly c b) r

/-- The CRC-32 of the Stitch link (R239): polynomial 0x04C11DB7 reflected, all-ones start, inverted. -/
def crc32 (bs : List Byte) : Nat := (crcBytes 0xEDB88320 0xFFFFFFFF bs) ^^^ 0xFFFFFFFF

end Sys2Proof.Machine
end

