-- ==== Sys2Proof/Machine/Registers.lean ====
section
/-! DEFINITION. Every register that software can reach: its name, offset, width, fields with their access codes,
reset value, reset domain and the power domain that holds it (Register Index, R416, with the field tables of the
defining chapters). -/

namespace Sys2Proof.Machine

/-- Access codes (Table SC-6). -/
inductive Acc
  | ro | rw | rw1c | rc | wo | rwl | rws
  deriving DecidableEq, Repr

/-- Reset domains, widest first (Table SC-7). -/
inductive ResetDomain
  | ao | cold | warm | blk
  deriving DecidableEq, Repr

/-- Where a register is held (the "Held in" columns of the Register Index). -/
inductive Held
  | ao | hub | mgt | keyv | tmb (t : Nat) | pdie (p : Nat)
  deriving DecidableEq, Repr

/-- One field of a register that is not reserved. -/
structure RegField where
  hi  : Nat
  lo  : Nat
  acc : Acc
  deriving DecidableEq, Repr

/-- What the index and the defining chapter give for a register. -/
structure RegLayout where
  width  : Nat
  reset  : Word
  domain : ResetDomain
  held   : Held
  fields : List RegField
  deriving DecidableEq, Repr

/-- The registers of a data-mover channel group (Table RI-12). -/
inductive DmvReg
  | src | dst | len | ctl | cmd | status | actSrc | actDst | actLen | actCtl | residue | errInfo | errAddr | cfg
  deriving DecidableEq, Repr

/-- The registers of one ring (Table RI-11). -/
inductive RingReg
  | sqPi | sqCi | cqPi | cqCi | ctl | status | ctx
  deriving DecidableEq, Repr

/-- Every register of the device. p is a CXL port, s a Stitch link, t a Tambour, u a PMU, d a power domain or a
destination, h the HOST port of a Service Function or Pool Device, i a local index or an entry. Mailbox m is 0 to 63
for the Pool Device of port m and 64 for the FM mailbox. Function f of an MSI-X table is 0 to 63 for function 0 of
port f, 64 + p for function 1 and 128 + p for function 2. -/
inductive Reg
  | glbIdent | bufStatus | ageLimit | devloadThr | intResv (t : Nat) | mgtResv
  | mirCtl (s : Nat) | mirLo (s : Nat) | mirHi (s : Nat)
  | fabCfg | tollCtl | ftime | timeStatus | nbr (n : Nat) | keyStatus | secStatus | route (d : Nat)
  | srcCfg (n : Nat) | srcStatus (n : Nat) | faultStat | retireStatus
  | domStatus (d : Nat) | domCfg (d : Nat) | curve (c k : Nat) | rail (r : Nat) | aoFeed | clkStatus | avs | sleepCtl
  | pStart (i : Nat) | pEnd (i : Nat) | pPorts (i : Nat) | pCtl (i : Nat)
  | rStart (i : Nat) | rEnd (i : Nat) | rPorts (i : Nat) | rCtl (i : Nat)
  | acuStatus | violAddr (v : Nat) | violInfo (v : Nat) | violCount (v : Nat)
  | pmcCycles (u : Nat) | pmcStatus (u : Nat) | pmcCnt (u i : Nat) | pmcEvsel (u i : Nat)
  | pmcSnapCycles (u : Nat) | pmcSnapCnt (u i : Nat) | pmcGlbCtl | pmcSnapFtime
  | prtCfg (p : Nat) | prtStatus (p : Nat) | hpCtl (p : Nat) | hpStatus (p : Nat) | cplTo (p : Nat)
  | prtResv (p : Nat) | prtClassWeight (p : Nat) | prtShape (p : Nat) | prtGclCtl (p : Nat) | prtGclBase (p : Nat)
  | prtHostWeight (p n : Nat) | prtGclEntry (p b i : Nat)
  | stlCfg (s : Nat) | stlStatus (s : Nat) | linkCtl (s : Nat) | widthCtl (s : Nat) | txeq (s i : Nat)
  | laneStatus (s i : Nat) | errCnt (s : Nat) | trainCtl (s : Nat) | seqStatus (s : Nat)
  | stlResv (s : Nat) | stlClassWeight (s : Nat) | stlGclCtl (s : Nat) | stlGclBase (s : Nat) | stlGclEntry (s b i : Nat)
  | tlsCtl | tlsSlotCfg (i : Nat) | tlsHist (i k h b : Nat)
  | mbxCap (m : Nat) | mbxCtl (m : Nat) | mbxCmd (m : Nat) | mbxStatus (m : Nat) | mbxBgStatus (m : Nat)
  | mbxPayload (m i : Nat)
  | msixAddr (f v : Nat) | msixData (f v : Nat) | msixPba (f w : Nat)
  | oobBoot | sbsCtl | sbsStatus
  | dirBiTimeout (t : Nat) | dirStatus (t : Nat) | dirCtStatus (t : Nat) | lksStatus (t : Nat) | qsvStatus (t : Nat)
  | dmv (c : Nat) (r : DmvReg)
  | svcVer (h : Nat) | sliceDir (h i : Nat) | sliceInfo (h i : Nat) | sliceQuota (h i : Nat) | sliceQueues (h i : Nat)
  | sliceRegionBase (h i n : Nat) | sliceRegionLimit (h i n : Nat)
  | dirtyCtl (h i : Nat) | dirtyStatus (h i : Nat) | dirtyWin (h i : Nat) | dirtyBuf (h i b : Nat)
  | ring (h i r : Nat) (w : RingReg)
  deriving DecidableEq, Repr

/-- Reset value of PWR.DOM_STATUS(d): Deep and OPEN, CLASS set for the class B domains 2 and 3, 0 for AO (R375, Table PW-11). -/
def domStatusReset (d : Nat) : Word := if d = 0 then 0 else if d = 2 ∨ d = 3 then 0x68080000 else 0x68000000

/-- Point k of the default breaker curve (Table PW-5): ILIM in units of 2 %, TIME in µs. -/
def curvePoint : Nat → Nat × Nat
  | 0 => (55, 1000000)
  | 1 => (62, 100000)
  | 2 => (75, 10000)
  | 3 => (88, 2000)
  | 4 => (100, 500)
  | 5 => (125, 100)
  | 6 => (150, 20)
  | _ => (175, 5)

def curveReset (k : Nat) : Word := BitVec.ofNat 64 ((curvePoint k).1 * 2 ^ 24 + (curvePoint k).2)

/-- Insertion delay in 0.1 ms, upper and lower window limit in mV of rail r (Table PW-4). -/
def railWindow : Nat → Nat × Nat × Nat
  | 0 => (50, 800, 700)
  | 1 => (50, 850, 750)
  | 2 => (50, 900, 800)
  | 3 => (50, 1270, 1130)
  | 4 => (50, 1900, 1700)
  | _ => (100, 800, 700)

def railReset (r : Nat) : Word :=
  BitVec.ofNat 64 ((railWindow r).1 * 2 ^ 36 + (railWindow r).2.1 * 2 ^ 24 + (railWindow r).2.2 * 2 ^ 12)

/-- The domain that holds PMU u (Table TM-1). -/
def pmuHeld (u : Nat) : Held :=
  if u < 16 then .tmb u else if u < 20 then .pdie (u - 16) else if u < 36 then .pdie ((u - 20) / 4) else .mgt

/-- Function 2's MSI-X table lies in the AO island (R421); the others are held in the hub. -/
def msixHeld (f : Nat) : Held := if f < 128 then .hub else .ao

/-- The layout of each register: width, reset value, reset domain, holding domain, fields and access codes. -/
def Reg.layout : Reg → RegLayout
  | .glbIdent => ⟨32, 0x83201000, .ao, .ao, [⟨31, 16, .ro⟩, ⟨15, 12, .ro⟩, ⟨11, 8, .ro⟩]⟩
  | .bufStatus => ⟨32, 0xF0040000, .cold, .hub, [⟨31, 28, .ro⟩, ⟨18, 0, .ro⟩]⟩
  | .ageLimit => ⟨32, 0x1F4, .cold, .hub, [⟨16, 0, .rw⟩]⟩
  | .devloadThr => ⟨32, 0x00A0280A, .cold, .hub, [⟨23, 16, .rw⟩, ⟨15, 8, .rw⟩, ⟨7, 0, .rw⟩]⟩
  | .intResv _ => ⟨64, 0, .cold, .hub, [⟨63, 48, .ro⟩, ⟨47, 32, .ro⟩, ⟨31, 16, .ro⟩, ⟨15, 0, .ro⟩]⟩
  | .mgtResv => ⟨64, 0, .cold, .hub, [⟨63, 48, .ro⟩, ⟨47, 32, .ro⟩, ⟨31, 16, .ro⟩, ⟨15, 0, .ro⟩]⟩
  | .mirCtl _ => ⟨32, 0, .cold, .hub, [⟨31, 31, .rw⟩, ⟨30, 24, .rw⟩, ⟨23, 22, .rw⟩, ⟨21, 18, .rw⟩, ⟨17, 17, .rw⟩, ⟨16, 16, .rw⟩, ⟨15, 4, .rw⟩, ⟨2, 0, .rw⟩]⟩
  | .mirLo _ => ⟨64, 0, .cold, .hub, [⟨45, 6, .rw⟩]⟩
  | .mirHi _ => ⟨64, 0, .cold, .hub, [⟨45, 6, .rw⟩]⟩
  | .fabCfg => ⟨32, 0, .cold, .hub, [⟨31, 31, .ro⟩, ⟨30, 30, .ro⟩, ⟨29, 29, .ro⟩, ⟨23, 20, .ro⟩, ⟨19, 16, .ro⟩, ⟨10, 0, .ro⟩]⟩
  | .tollCtl => ⟨32, 0x00040064, .cold, .hub, [⟨23, 16, .rw⟩, ⟨15, 0, .rw⟩]⟩
  | .ftime => ⟨64, 0, .ao, .ao, [⟨63, 0, .ro⟩]⟩
  | .timeStatus => ⟨32, 0x3E000000, .ao, .ao, [⟨31, 31, .ro⟩, ⟨30, 30, .ro⟩, ⟨29, 25, .ro⟩, ⟨24, 21, .ro⟩, ⟨15, 0, .ro⟩]⟩
  | .nbr _ => ⟨64, 0, .cold, .hub, [⟨63, 63, .ro⟩, ⟨62, 62, .ro⟩, ⟨61, 60, .ro⟩, ⟨42, 32, .ro⟩, ⟨31, 16, .ro⟩, ⟨15, 0, .ro⟩]⟩
  | .keyStatus => ⟨32, 0, .cold, .keyv, [⟨31, 31, .ro⟩, ⟨30, 30, .ro⟩, ⟨27, 16, .ro⟩, ⟨11, 0, .ro⟩]⟩
  | .secStatus => ⟨32, 0x00600000, .cold, .ao, [⟨31, 30, .ro⟩, ⟨29, 28, .ro⟩, ⟨27, 26, .ro⟩, ⟨25, 25, .ro⟩, ⟨24, 24, .ro⟩, ⟨23, 23, .ro⟩, ⟨22, 21, .ro⟩, ⟨15, 8, .ro⟩]⟩
  | .route _ => ⟨32, 0, .cold, .hub, [⟨31, 31, .ro⟩, ⟨30, 30, .ro⟩, ⟨23, 20, .ro⟩, ⟨19, 16, .ro⟩]⟩
  | .srcCfg _ => ⟨64, 0x51BAEFFFAE451000, .cold, .ao, [⟨63, 32, .ro⟩, ⟨31, 31, .ro⟩, ⟨29, 20, .ro⟩, ⟨19, 18, .ro⟩, ⟨16, 12, .ro⟩]⟩
  | .srcStatus _ => ⟨64, 0, .ao, .ao, [⟨63, 63, .ro⟩, ⟨62, 62, .ro⟩, ⟨61, 59, .ro⟩, ⟨58, 57, .ro⟩, ⟨56, 55, .ro⟩, ⟨54, 54, .ro⟩, ⟨31, 0, .ro⟩]⟩
  | .faultStat => ⟨32, 0, .ao, .ao, [⟨31, 31, .ro⟩, ⟨30, 28, .ro⟩, ⟨27, 27, .ro⟩, ⟨26, 26, .ro⟩, ⟨25, 24, .ro⟩, ⟨15, 0, .ro⟩]⟩
  | .retireStatus => ⟨64, 0, .cold, .ao, [⟨63, 48, .ro⟩, ⟨47, 32, .ro⟩, ⟨31, 24, .ro⟩, ⟨23, 16, .ro⟩, ⟨15, 12, .ro⟩, ⟨11, 8, .ro⟩]⟩
  | .domStatus d => ⟨32, (domStatusReset d), .ao, .ao, [⟨31, 29, .ro⟩, ⟨28, 26, .ro⟩, ⟨25, 23, .ro⟩, ⟨22, 21, .ro⟩, ⟨20, 20, .ro⟩, ⟨19, 19, .ro⟩, ⟨18, 16, .ro⟩, ⟨15, 0, .ro⟩]⟩
  | .domCfg _ => ⟨32, 0x00A06464, .cold, .ao, [⟨31, 30, .ro⟩, ⟨29, 27, .ro⟩, ⟨26, 19, .ro⟩, ⟨18, 8, .ro⟩, ⟨7, 0, .ro⟩]⟩
  | .curve _ k => ⟨32, (curveReset k), .cold, .ao, [⟨31, 24, .ro⟩, ⟨19, 0, .ro⟩]⟩
  | .rail r => ⟨64, (railReset r), .ao, .ao, [⟨63, 63, .ro⟩, ⟨62, 62, .ro⟩, ⟨47, 36, .ro⟩, ⟨35, 24, .ro⟩, ⟨23, 12, .ro⟩, ⟨11, 0, .ro⟩]⟩
  | .aoFeed => ⟨32, 0, .ao, .ao, [⟨31, 31, .ro⟩, ⟨30, 30, .ro⟩, ⟨29, 29, .ro⟩, ⟨28, 28, .rw1c⟩, ⟨15, 0, .ro⟩]⟩
  | .clkStatus => ⟨32, 0, .ao, .ao, [⟨31, 31, .ro⟩, ⟨30, 30, .ro⟩, ⟨29, 26, .ro⟩, ⟨25, 20, .ro⟩]⟩
  | .avs => ⟨32, 0x2EE, .cold, .ao, [⟨31, 31, .ro⟩, ⟨30, 30, .ro⟩, ⟨29, 23, .ro⟩, ⟨11, 0, .ro⟩]⟩
  | .sleepCtl => ⟨32, 0, .ao, .ao, [⟨31, 31, .wo⟩, ⟨30, 30, .ro⟩, ⟨29, 28, .ro⟩]⟩
  | .pStart _ => ⟨64, 0, .cold, .hub, [⟨45, 8, .ro⟩]⟩
  | .pEnd _ => ⟨64, 0, .cold, .hub, [⟨45, 8, .ro⟩]⟩
  | .pPorts i => ⟨64, (if i = 256 then 0xFFFFFFFFFFFFFFFF else 0), .cold, .hub, [⟨63, 0, .ro⟩]⟩
  | .pCtl i => ⟨32, (if i = 256 then 0xE007FFFF else 0), .cold, .hub, [⟨31, 31, .ro⟩, ⟨30, 30, .ro⟩, ⟨29, 29, .ro⟩, ⟨28, 28, .ro⟩, ⟨21, 0, .ro⟩]⟩
  | .rStart _ => ⟨64, 0, .cold, .hub, [⟨25, 8, .ro⟩]⟩
  | .rEnd _ => ⟨64, 0, .cold, .hub, [⟨25, 8, .ro⟩]⟩
  | .rPorts i => ⟨64, (if i = 256 then 0xFFFFFFFFFFFFFFFF else 0), .cold, .hub, [⟨63, 0, .ro⟩]⟩
  | .rCtl i => ⟨32, (if i = 256 then 0xE0340000 else 0), .cold, .hub, [⟨31, 31, .ro⟩, ⟨30, 30, .ro⟩, ⟨29, 29, .ro⟩, ⟨28, 28, .ro⟩, ⟨21, 0, .ro⟩]⟩
  | .acuStatus => ⟨32, 0, .cold, .hub, [⟨31, 30, .ro⟩, ⟨29, 29, .ro⟩, ⟨17, 9, .ro⟩, ⟨8, 0, .ro⟩]⟩
  | .violAddr _ => ⟨64, 0, .ao, .ao, [⟨45, 0, .ro⟩]⟩
  | .violInfo _ => ⟨32, 0, .ao, .ao, [⟨31, 31, .rw1c⟩, ⟨30, 30, .ro⟩, ⟨29, 28, .ro⟩, ⟨27, 24, .ro⟩, ⟨23, 15, .ro⟩, ⟨14, 6, .ro⟩]⟩
  | .violCount _ => ⟨32, 0, .ao, .ao, [⟨31, 0, .ro⟩]⟩
  | .pmcCycles u => ⟨64, 0, .blk, (pmuHeld u), [⟨63, 0, .rw⟩]⟩
  | .pmcStatus u => ⟨32, 0, .blk, (pmuHeld u), [⟨31, 24, .ro⟩, ⟨18, 18, .rw1c⟩, ⟨17, 17, .rw1c⟩, ⟨16, 16, .rw1c⟩, ⟨7, 0, .rw1c⟩]⟩
  | .pmcCnt u _ => ⟨64, 0, .blk, (pmuHeld u), [⟨47, 0, .rw⟩]⟩
  | .pmcEvsel u _ => ⟨64, 0, .blk, (pmuHeld u), [⟨63, 63, .rw⟩, ⟨62, 62, .rw⟩, ⟨61, 61, .rw⟩, ⟨51, 32, .rw⟩, ⟨15, 0, .rw⟩]⟩
  | .pmcSnapCycles u => ⟨64, 0, .blk, (pmuHeld u), [⟨63, 0, .ro⟩]⟩
  | .pmcSnapCnt u _ => ⟨64, 0, .blk, (pmuHeld u), [⟨47, 0, .ro⟩]⟩
  | .pmcGlbCtl => ⟨32, 0, .cold, .ao, [⟨31, 31, .rw⟩, ⟨30, 30, .wo⟩, ⟨29, 29, .ro⟩]⟩
  | .pmcSnapFtime => ⟨64, 0, .cold, .ao, [⟨63, 0, .ro⟩]⟩
  | .prtCfg p => ⟨32, 0, .cold, .tmb (p / 4), [⟨31, 28, .ro⟩, ⟨27, 26, .ro⟩, ⟨25, 25, .ro⟩, ⟨24, 24, .ro⟩, ⟨23, 20, .ro⟩, ⟨17, 12, .ro⟩, ⟨11, 6, .ro⟩]⟩
  | .prtStatus p => ⟨32, 0, .cold, .tmb (p / 4), [⟨31, 28, .ro⟩, ⟨27, 24, .ro⟩, ⟨23, 21, .ro⟩, ⟨20, 16, .ro⟩, ⟨15, 15, .ro⟩, ⟨14, 14, .ro⟩, ⟨13, 13, .ro⟩, ⟨12, 12, .ro⟩, ⟨11, 11, .ro⟩, ⟨10, 8, .ro⟩]⟩
  | .hpCtl _ => ⟨32, 0x001903E8, .cold, .ao, [⟨31, 31, .wo⟩, ⟨30, 30, .wo⟩, ⟨29, 29, .wo⟩, ⟨23, 14, .rw⟩, ⟨13, 0, .rw⟩]⟩
  | .hpStatus _ => ⟨32, 0, .ao, .ao, [⟨31, 31, .ro⟩, ⟨30, 30, .ro⟩, ⟨29, 29, .ro⟩, ⟨28, 28, .ro⟩, ⟨27, 27, .ro⟩, ⟨26, 26, .ro⟩, ⟨25, 25, .ro⟩, ⟨24, 24, .ro⟩, ⟨23, 23, .ro⟩, ⟨22, 16, .ro⟩, ⟨15, 0, .ro⟩]⟩
  | .cplTo p => ⟨32, 0x00320064, .cold, .tmb (p / 4), [⟨31, 16, .rw⟩, ⟨15, 0, .rw⟩]⟩
  | .prtResv p => ⟨64, 0, .cold, .tmb (p / 4), [⟨63, 48, .ro⟩, ⟨47, 32, .ro⟩, ⟨31, 16, .ro⟩, ⟨15, 0, .ro⟩]⟩
  | .prtClassWeight p => ⟨32, 0x41104020, .cold, .tmb (p / 4), [⟨31, 28, .rw⟩, ⟨27, 24, .rw⟩, ⟨23, 16, .rw⟩, ⟨15, 8, .rw⟩, ⟨7, 0, .rw⟩]⟩
  | .prtShape p => ⟨64, 0x01000100FFFFFFFF, .cold, .tmb (p / 4), [⟨63, 48, .rw⟩, ⟨47, 32, .rw⟩, ⟨31, 16, .rw⟩, ⟨15, 0, .rw⟩]⟩
  | .prtGclCtl p => ⟨32, 1, .cold, .tmb (p / 4), [⟨31, 31, .rw⟩, ⟨30, 30, .ro⟩, ⟨29, 29, .ro⟩, ⟨28, 28, .rw1c⟩, ⟨27, 27, .wo⟩, ⟨5, 0, .rw⟩]⟩
  | .prtGclBase p => ⟨64, 0, .cold, .tmb (p / 4), [⟨63, 0, .rw⟩]⟩
  | .prtHostWeight p n => ⟨32, (if n = 20 then 0x10 else 0x10101010), .cold, .tmb (p / 4),
      if n = 20 then [⟨7, 0, .rw⟩] else [⟨31, 24, .rw⟩, ⟨23, 16, .rw⟩, ⟨15, 8, .rw⟩, ⟨7, 0, .rw⟩]⟩
  | .prtGclEntry p _ _ => ⟨32, 0x300000FA, .cold, .tmb (p / 4), [⟨29, 29, .rw⟩, ⟨28, 28, .rw⟩, ⟨27, 0, .rw⟩]⟩
  | .stlCfg s => ⟨32, 0, .cold, .pdie (s / 4), [⟨31, 30, .ro⟩, ⟨29, 29, .ro⟩, ⟨28, 28, .ro⟩, ⟨27, 27, .ro⟩, ⟨26, 24, .ro⟩, ⟨23, 20, .ro⟩, ⟨19, 8, .ro⟩, ⟨7, 4, .ro⟩]⟩
  | .stlStatus s => ⟨32, 0, .cold, .pdie (s / 4), [⟨31, 28, .ro⟩, ⟨27, 24, .ro⟩, ⟨23, 20, .ro⟩, ⟨19, 16, .ro⟩, ⟨15, 15, .ro⟩, ⟨14, 14, .ro⟩, ⟨7, 0, .ro⟩]⟩
  | .linkCtl s => ⟨32, 0x0F0140A8, .cold, .pdie (s / 4), [⟨31, 31, .wo⟩, ⟨30, 30, .wo⟩, ⟨29, 24, .rw⟩, ⟨20, 12, .rw⟩, ⟨11, 4, .rw⟩, ⟨3, 0, .rw⟩]⟩
  | .widthCtl s => ⟨32, 0xF, .cold, .pdie (s / 4), [⟨7, 4, .ro⟩, ⟨3, 0, .rw⟩]⟩
  | .txeq s _ => ⟨32, 0xFC0, .cold, .pdie (s / 4), [⟨17, 12, .ro⟩, ⟨11, 6, .ro⟩, ⟨5, 0, .ro⟩]⟩
  | .laneStatus s _ => ⟨64, 0, .cold, .pdie (s / 4), [⟨63, 63, .ro⟩, ⟨62, 62, .ro⟩, ⟨61, 61, .ro⟩, ⟨60, 60, .ro⟩, ⟨47, 24, .ro⟩, ⟨23, 0, .ro⟩]⟩
  | .errCnt s => ⟨64, 0, .cold, .pdie (s / 4), [⟨63, 48, .ro⟩, ⟨47, 32, .ro⟩, ⟨31, 16, .ro⟩, ⟨15, 0, .ro⟩]⟩
  | .trainCtl s => ⟨32, 0x004003E8, .cold, .pdie (s / 4), [⟨31, 16, .rw⟩, ⟨15, 0, .rw⟩]⟩
  | .seqStatus s => ⟨64, 0, .cold, .pdie (s / 4), [⟨63, 52, .ro⟩, ⟨51, 40, .ro⟩, ⟨39, 28, .ro⟩, ⟨27, 17, .ro⟩, ⟨16, 0, .ro⟩]⟩
  | .stlResv s => ⟨64, 0, .cold, .tmb s, [⟨63, 48, .ro⟩, ⟨47, 32, .ro⟩, ⟨31, 16, .ro⟩, ⟨15, 0, .ro⟩]⟩
  | .stlClassWeight s => ⟨32, 0x41104020, .cold, .tmb s, [⟨31, 28, .rw⟩, ⟨27, 24, .rw⟩, ⟨23, 16, .rw⟩, ⟨15, 8, .rw⟩, ⟨7, 0, .rw⟩]⟩
  | .stlGclCtl s => ⟨32, 1, .cold, .tmb s, [⟨31, 31, .rw⟩, ⟨30, 30, .ro⟩, ⟨29, 29, .ro⟩, ⟨28, 28, .rw1c⟩, ⟨27, 27, .wo⟩, ⟨5, 0, .rw⟩]⟩
  | .stlGclBase s => ⟨64, 0, .cold, .tmb s, [⟨63, 0, .rw⟩]⟩
  | .stlGclEntry s _ _ => ⟨32, 0x300000FA, .cold, .tmb s, [⟨29, 29, .rw⟩, ⟨28, 28, .rw⟩, ⟨27, 0, .rw⟩]⟩
  | .tlsCtl => ⟨32, 0, .blk, .hub, [⟨31, 31, .rw⟩, ⟨30, 30, .wo⟩, ⟨29, 29, .ro⟩, ⟨28, 28, .ro⟩, ⟨15, 0, .rw⟩]⟩
  | .tlsSlotCfg _ => ⟨64, 0, .blk, .hub, [⟨63, 63, .rw⟩, ⟨62, 61, .rw⟩, ⟨60, 54, .rw⟩, ⟨53, 52, .rw⟩, ⟨51, 45, .rw⟩, ⟨31, 16, .rw⟩, ⟨15, 0, .rw⟩]⟩
  | .tlsHist _ _ _ _ => ⟨32, 0, .blk, .hub, [⟨31, 0, .ro⟩]⟩
  | .mbxCap _ => ⟨32, 0x6C, .warm, .mgt, [⟨6, 6, .ro⟩, ⟨5, 5, .ro⟩, ⟨4, 0, .ro⟩]⟩
  | .mbxCtl _ => ⟨32, 0, .warm, .mgt, [⟨2, 2, .rw⟩, ⟨1, 1, .rw⟩, ⟨0, 0, .rw⟩]⟩
  | .mbxCmd _ => ⟨64, 0, .warm, .mgt, [⟨36, 16, .rw⟩, ⟨15, 0, .rw⟩]⟩
  | .mbxStatus _ => ⟨64, 0, .warm, .mgt, [⟨63, 48, .ro⟩, ⟨47, 32, .ro⟩, ⟨0, 0, .ro⟩]⟩
  | .mbxBgStatus _ => ⟨64, 0, .warm, .mgt, [⟨63, 48, .ro⟩, ⟨47, 32, .ro⟩, ⟨22, 16, .ro⟩, ⟨15, 0, .ro⟩]⟩
  | .mbxPayload _ _ => ⟨64, 0, .warm, .mgt, [⟨63, 0, .rw⟩]⟩
  | .msixAddr f _ => ⟨64, 0, .warm, (msixHeld f), [⟨63, 2, .rw⟩]⟩
  | .msixData f _ => ⟨64, 0x100000000, .warm, (msixHeld f), [⟨32, 32, .rw⟩, ⟨31, 0, .rw⟩]⟩
  | .msixPba f _ => ⟨64, 0, .warm, (msixHeld f), [⟨63, 0, .ro⟩]⟩
  | .oobBoot => ⟨32, 0, .cold, .ao, [⟨31, 28, .ro⟩, ⟨27, 27, .ro⟩, ⟨26, 26, .ro⟩, ⟨25, 25, .ro⟩, ⟨24, 24, .ro⟩, ⟨23, 16, .ro⟩]⟩
  | .sbsCtl => ⟨32, 0, .ao, .ao, [⟨31, 31, .ro⟩, ⟨30, 30, .wo⟩]⟩
  | .sbsStatus => ⟨32, 0, .ao, .ao, [⟨31, 31, .ro⟩, ⟨30, 0, .ro⟩]⟩
  | .dirBiTimeout t => ⟨32, 0x7D0, .cold, .tmb t, [⟨19, 0, .rw⟩]⟩
  | .dirStatus t => ⟨32, 0, .cold, .tmb t, [⟨31, 30, .ro⟩, ⟨29, 29, .ro⟩, ⟨28, 25, .ro⟩, ⟨19, 0, .ro⟩]⟩
  | .dirCtStatus t => ⟨32, 0, .blk, .tmb t, [⟨28, 16, .ro⟩, ⟨14, 8, .ro⟩, ⟨5, 0, .ro⟩]⟩
  | .lksStatus t => ⟨32, 0, .cold, .tmb t, [⟨23, 16, .ro⟩, ⟨15, 8, .ro⟩, ⟨7, 0, .ro⟩]⟩
  | .qsvStatus t => ⟨32, 0, .cold, .tmb t, [⟨23, 16, .ro⟩, ⟨15, 8, .ro⟩, ⟨7, 0, .ro⟩]⟩
  | .dmv c .src => ⟨64, 0, .blk, .tmb (c / 4), [⟨45, 0, .rwl⟩]⟩
  | .dmv c .dst => ⟨64, 0, .blk, .tmb (c / 4), [⟨45, 0, .rwl⟩]⟩
  | .dmv c .len => ⟨32, 0, .blk, .tmb (c / 4), [⟨31, 0, .rwl⟩]⟩
  | .dmv c .ctl => ⟨32, 0, .blk, .tmb (c / 4), [⟨31, 16, .rwl⟩, ⟨8, 8, .rwl⟩, ⟨7, 7, .rwl⟩, ⟨6, 6, .rwl⟩, ⟨2, 0, .rwl⟩]⟩
  | .dmv c .cmd => ⟨32, 0, .blk, .tmb (c / 4), [⟨3, 3, .wo⟩, ⟨2, 2, .wo⟩, ⟨1, 1, .wo⟩, ⟨0, 0, .wo⟩]⟩
  | .dmv c .status => ⟨32, 0, .blk, .tmb (c / 4), [⟨31, 29, .ro⟩, ⟨28, 28, .ro⟩, ⟨27, 24, .ro⟩, ⟨15, 0, .ro⟩]⟩
  | .dmv c .actSrc => ⟨64, 0, .blk, .tmb (c / 4), [⟨45, 0, .ro⟩]⟩
  | .dmv c .actDst => ⟨64, 0, .blk, .tmb (c / 4), [⟨45, 0, .ro⟩]⟩
  | .dmv c .actLen => ⟨32, 0, .blk, .tmb (c / 4), [⟨31, 0, .ro⟩]⟩
  | .dmv c .actCtl => ⟨32, 0, .blk, .tmb (c / 4), [⟨31, 16, .ro⟩, ⟨8, 8, .ro⟩, ⟨7, 7, .ro⟩, ⟨6, 6, .ro⟩, ⟨2, 0, .ro⟩]⟩
  | .dmv c .residue => ⟨32, 0, .blk, .tmb (c / 4), [⟨31, 0, .ro⟩]⟩
  | .dmv c .errInfo => ⟨32, 0, .blk, .tmb (c / 4), [⟨31, 31, .ro⟩, ⟨30, 30, .ro⟩, ⟨27, 24, .ro⟩, ⟨15, 0, .ro⟩]⟩
  | .dmv c .errAddr => ⟨64, 0, .blk, .tmb (c / 4), [⟨45, 0, .ro⟩]⟩
  | .dmv c .cfg => ⟨32, 0, .blk, .tmb (c / 4), [⟨31, 31, .rw⟩, ⟨10, 0, .rw⟩]⟩
  | .svcVer _ => ⟨32, 0, .cold, .hub, [⟨31, 24, .ro⟩, ⟨23, 16, .ro⟩, ⟨15, 8, .ro⟩, ⟨7, 0, .ro⟩]⟩
  | .sliceDir _ _ => ⟨64, 0, .warm, .hub, [⟨63, 63, .ro⟩, ⟨43, 24, .ro⟩, ⟨11, 0, .ro⟩]⟩
  | .sliceInfo _ _ => ⟨64, 0, .warm, .hub, [⟨63, 62, .ro⟩, ⟨43, 24, .ro⟩, ⟨11, 0, .ro⟩]⟩
  | .sliceQuota _ _ => ⟨64, 0, .warm, .hub, [⟨63, 52, .ro⟩, ⟨51, 40, .ro⟩, ⟨39, 32, .ro⟩, ⟨31, 24, .ro⟩, ⟨23, 20, .ro⟩, ⟨18, 16, .ro⟩, ⟨14, 8, .ro⟩]⟩
  | .sliceQueues _ _ => ⟨64, 0, .warm, .hub, [⟨48, 32, .ro⟩, ⟨15, 0, .ro⟩]⟩
  | .sliceRegionBase _ _ _ => ⟨64, 0, .warm, .hub, [⟨63, 63, .ro⟩, ⟨43, 12, .ro⟩]⟩
  | .sliceRegionLimit _ _ _ => ⟨64, 0, .warm, .hub, [⟨43, 12, .ro⟩]⟩
  | .dirtyCtl _ _ => ⟨32, 0, .warm, .hub, [⟨31, 31, .rw⟩, ⟨30, 30, .wo⟩, ⟨29, 29, .rw⟩, ⟨26, 0, .rwl⟩]⟩
  | .dirtyStatus _ _ => ⟨32, 0, .warm, .hub, [⟨31, 31, .ro⟩, ⟨30, 30, .ro⟩, ⟨29, 29, .ro⟩, ⟨28, 28, .ro⟩, ⟨15, 0, .ro⟩]⟩
  | .dirtyWin _ _ => ⟨64, 0, .warm, .hub, [⟨43, 12, .rwl⟩, ⟨10, 0, .rw⟩]⟩
  | .dirtyBuf _ _ _ => ⟨64, 0, .warm, .hub, [⟨43, 6, .rwl⟩]⟩
  | .ring _ _ _ .sqPi => ⟨32, 0, .warm, .hub, [⟨31, 0, .rw⟩]⟩
  | .ring _ _ _ .sqCi => ⟨32, 0, .warm, .hub, [⟨31, 0, .ro⟩]⟩
  | .ring _ _ _ .cqPi => ⟨32, 0, .warm, .hub, [⟨31, 0, .ro⟩]⟩
  | .ring _ _ _ .cqCi => ⟨32, 0, .warm, .hub, [⟨31, 0, .rw⟩]⟩
  | .ring _ _ _ .ctl => ⟨32, 0, .warm, .hub, [⟨31, 31, .wo⟩, ⟨30, 30, .wo⟩]⟩
  | .ring _ _ _ .status => ⟨32, 0, .warm, .hub, [⟨31, 29, .ro⟩, ⟨24, 17, .ro⟩, ⟨16, 0, .ro⟩]⟩
  | .ring _ _ _ .ctx => ⟨64, 0, .warm, .hub, [⟨43, 6, .rwl⟩]⟩

/-- The bits of a register that hold a value: every field but the WO ones, which read 0 (R5, Table SC-6). -/
def Reg.mask (r : Reg) : Word :=
  r.layout.fields.foldl (fun m f => if f.acc = .wo then m else m ||| fieldMask f.hi f.lo) 0

/-- The bits of a register that software sets by writing them (RW and RWS; RWL too where its lock is clear). -/
def Reg.writable (r : Reg) (unlocked : Bool) : Word :=
  r.layout.fields.foldl
    (fun m f =>
      match f.acc with
      | .rw | .rws => m ||| fieldMask f.hi f.lo
      | .rwl => if unlocked then m ||| fieldMask f.hi f.lo else m
      | _ => m) 0

/-- The bits that a written 1 clears (RW1C). -/
def Reg.clearable (r : Reg) : Word :=
  r.layout.fields.foldl (fun m f => if f.acc = .rw1c then m ||| fieldMask f.hi f.lo else m) 0

/-- A register's value after a software write of v in the bit lanes that the access covers (R5, R8). -/
def Reg.softWrite (r : Reg) (unlocked : Bool) (old v lanes : Word) : Word :=
  let w := r.writable unlocked &&& lanes
  let c := r.clearable &&& lanes
  (((old &&& ~~~ w) ||| (v &&& w)) &&& ~~~ (v &&& c)) &&& r.mask

/-- Whether a reset of domain D also resets registers of domain e (R9, Table SC-7: a reset of a domain resets every
domain below it). -/
def ResetDomain.covers : ResetDomain → ResetDomain → Bool
  | .ao, _ => true
  | .cold, .ao => false
  | .cold, _ => true
  | .warm, .warm => true
  | .warm, .blk => true
  | .warm, _ => false
  | .blk, .blk => true
  | .blk, _ => false

/-- Offset of a data-mover register within its channel group (Table RI-12). -/
def DmvReg.offset : DmvReg → Nat
  | .src => 0x00 | .dst => 0x08 | .len => 0x10 | .ctl => 0x14 | .cmd => 0x18 | .status => 0x1C
  | .actSrc => 0x20 | .actDst => 0x28 | .actLen => 0x30 | .actCtl => 0x34 | .residue => 0x38
  | .errInfo => 0x3C | .errAddr => 0x40 | .cfg => 0x48

def dmvRegAt : Nat → Option DmvReg
  | 0x00 => some .src | 0x08 => some .dst | 0x10 => some .len | 0x14 => some .ctl | 0x18 => some .cmd
  | 0x1C => some .status | 0x20 => some .actSrc | 0x28 => some .actDst | 0x30 => some .actLen
  | 0x34 => some .actCtl | 0x38 => some .residue | 0x3C => some .errInfo | 0x40 => some .errAddr
  | 0x48 => some .cfg | _ => none

/-- Offset of a ring register within its 0x20-byte group (Table RI-11). -/
def RingReg.offset : RingReg → Nat
  | .sqPi => 0x00 | .sqCi => 0x04 | .cqPi => 0x08 | .cqCi => 0x0C | .ctl => 0x10 | .status => 0x14 | .ctx => 0x18

def ringRegAt : Nat → Option RingReg
  | 0x00 => some .sqPi | 0x04 => some .sqCi | 0x08 => some .cqPi | 0x0C => some .cqCi
  | 0x10 => some .ctl | 0x14 => some .status | 0x18 => some .ctx | _ => none

/-- n objects of a stride from a base: the index of the one an offset lies in, and the offset within it. -/
def strideAt (base stride count w : Nat) : Option (Nat × Nat) :=
  if base ≤ w ∧ w < base + stride * count then some ((w - base) / stride, (w - base) % stride) else none

/-- GLB and KEY registers (Table RI-2), by offset within the block. -/
def glbRegAt (w : Nat) : Option Reg :=
  if w = 0 then some .glbIdent
  else if w = 0x10000 then some .bufStatus
  else if w = 0x10004 then some .ageLimit
  else if w = 0x10008 then some .devloadThr
  else if w = 0x10180 then some .mgtResv
  else if w = 0x20000 then some .fabCfg
  else if w = 0x20004 then some .tollCtl
  else if w = 0x20008 then some .ftime
  else if w = 0x20010 then some .timeStatus
  else if w = 0x30000 then some .keyStatus
  else if w = 0x30010 then some .secStatus
  else match strideAt 0x10100 8 16 w with
  | some (t, 0) => some (.intResv t)
  | some _ => none
  | none => match strideAt 0x10200 0x20 16 w with
    | some (s, 0) => some (.mirCtl s)
    | some (s, 8) => some (.mirLo s)
    | some (s, 16) => some (.mirHi s)
    | some _ => none
    | none => match strideAt 0x20100 8 16 w with
      | some (n, 0) => some (.nbr n)
      | some _ => none
      | none => match strideAt 0x40000 4 2048 w with
        | some (d, 0) => some (.route d)
        | _ => none

/-- CRL registers (Table RI-3). -/
def crlRegAt (w : Nat) : Option Reg :=
  if w = 0x4000 then some .faultStat
  else if w = 0x4008 then some .retireStatus
  else match strideAt 0 8 1024 w with
  | some (n, 0) => some (.srcCfg n)
  | some _ => none
  | none => match strideAt 0x2000 8 1024 w with
    | some (n, 0) => some (.srcStatus n)
    | _ => none

/-- PWR registers (Table RI-3). -/
def pwrRegAt (w : Nat) : Option Reg :=
  if w = 0x2040 then some .aoFeed
  else if w = 0x2048 then some .clkStatus
  else if w = 0x2050 then some .avs
  else if w = 0x2058 then some .sleepCtl
  else match strideAt 0 0x10 124 w with
  | some (d, 0) => some (.domStatus d)
  | some (d, 4) => some (.domCfg d)
  | some _ => none
  | none => match strideAt 0x1000 4 64 w with
    | some (n, 0) => some (.curve (n / 8) (n % 8))
    | some _ => none
    | none => match strideAt 0x2000 8 7 w with
      | some (r, 0) => some (.rail r)
      | _ => none

/-- ACU registers (Table RI-4); region 256 is DEF. -/
def acuRegAt (w : Nat) : Option Reg :=
  if w = 0x8000 then some .acuStatus
  else match strideAt 0 0x20 257 w with
  | some (i, 0x00) => some (.pStart i)
  | some (i, 0x08) => some (.pEnd i)
  | some (i, 0x10) => some (.pPorts i)
  | some (i, 0x18) => some (.pCtl i)
  | some _ => none
  | none => match strideAt 0x4000 0x20 257 w with
    | some (i, 0x00) => some (.rStart i)
    | some (i, 0x08) => some (.rEnd i)
    | some (i, 0x10) => some (.rPorts i)
    | some (i, 0x18) => some (.rCtl i)
    | some _ => none
    | none => match strideAt 0x9000 0x20 17 w with
      | some (v, 0x00) => some (.violAddr v)
      | some (v, 0x08) => some (.violInfo v)
      | some (v, 0x0C) => some (.violCount v)
      | _ => none

/-- PMC registers (Table RI-5). -/
def pmcRegAt (w : Nat) : Option Reg :=
  if w = 0x40000 then some .pmcGlbCtl
  else if w = 0x40008 then some .pmcSnapFtime
  else match strideAt 0 0x1000 37 w with
  | none => none
  | some (u, r) =>
    if r = 0 then some (.pmcCycles u)
    else if r = 8 then some (.pmcStatus u)
    else if r = 0x100 then some (.pmcSnapCycles u)
    else match strideAt 0x40 8 8 r with
    | some (i, 0) => some (.pmcCnt u i)
    | some _ => none
    | none => match strideAt 0x80 8 8 r with
      | some (i, 0) => some (.pmcEvsel u i)
      | some _ => none
      | none => match strideAt 0x140 8 8 r with
        | some (i, 0) => some (.pmcSnapCnt u i)
        | _ => none

/-- PRT registers (Table RI-6) of port p, by window offset. -/
def prtRegAt (p r : Nat) : Option Reg :=
  if r = 0 then some (.prtCfg p)
  else if r = 0x8 then some (.prtStatus p)
  else if r = 0x10 then some (.hpCtl p)
  else if r = 0x18 then some (.hpStatus p)
  else if r = 0x20 then some (.cplTo p)
  else if r = 0x2000 then some (.prtResv p)
  else if r = 0x2008 then some (.prtClassWeight p)
  else if r = 0x2010 then some (.prtShape p)
  else if r = 0x2018 then some (.prtGclCtl p)
  else if r = 0x2020 then some (.prtGclBase p)
  else match strideAt 0x2040 4 21 r with
  | some (n, 0) => some (.prtHostWeight p n)
  | some _ => none
  | none => match strideAt 0x2200 4 128 r with
    | some (n, 0) => some (.prtGclEntry p (n / 64) (n % 64))
    | _ => none

/-- STL registers (Table RI-7) of link s, by window offset. -/
def stlRegAt (s r : Nat) : Option Reg :=
  if r = 0 then some (.stlCfg s)
  else if r = 0x8 then some (.stlStatus s)
  else if r = 0x10 then some (.linkCtl s)
  else if r = 0x18 then some (.widthCtl s)
  else if r = 0x60 then some (.errCnt s)
  else if r = 0x70 then some (.trainCtl s)
  else if r = 0x78 then some (.seqStatus s)
  else if r = 0x2000 then some (.stlResv s)
  else if r = 0x2008 then some (.stlClassWeight s)
  else if r = 0x2018 then some (.stlGclCtl s)
  else if r = 0x2020 then some (.stlGclBase s)
  else match strideAt 0x20 4 4 r with
  | some (i, 0) => some (.txeq s i)
  | some _ => none
  | none => match strideAt 0x40 8 4 r with
    | some (i, 0) => some (.laneStatus s i)
    | some _ => none
    | none => match strideAt 0x2200 4 128 r with
      | some (n, 0) => some (.stlGclEntry s (n / 64) (n % 64))
      | _ => none

/-- TLS registers (Table RI-8). -/
def tlsRegAt (w : Nat) : Option Reg :=
  if w = 0 then some .tlsCtl
  else match strideAt 0x800 8 256 w with
  | some (i, 0) => some (.tlsSlotCfg i)
  | some _ => none
  | none => match strideAt 0x10000 4 16384 w with
    | some (n, 0) => some (.tlsHist (n / 64) (n / 32 % 2) (n / 16 % 2) (n % 16))
    | _ => none

/-- A mailbox's registers, by offset from its base (Table RI-8, R284). -/
def mbxRegAt (m r : Nat) : Option Reg :=
  if r = 0 then some (.mbxCap m)
  else if r = 4 then some (.mbxCtl m)
  else if r = 8 then some (.mbxCmd m)
  else if r = 0x10 then some (.mbxStatus m)
  else if r = 0x18 then some (.mbxBgStatus m)
  else match strideAt 0x20 8 512 r with
  | some (i, 0) => some (.mbxPayload m i)
  | _ => none

/-- MSI-X table entries of function f, by offset from the table's base: 16 B an entry. -/
def msixRegAt (f n r : Nat) : Option Reg :=
  match strideAt 0 16 n r with
  | some (v, 0) => some (.msixAddr f v)
  | some (v, 8) => some (.msixData f v)
  | _ => none

/-- Registers of a Tambour window (Table RI-9). -/
def tmbRegAt (t w : Nat) : Option Reg :=
  if w = 0x80000 then some (.dirBiTimeout t)
  else if w = 0x80004 then some (.dirStatus t)
  else if w = 0x80008 then some (.dirCtStatus t)
  else if w = 0x90000 then some (.lksStatus t)
  else if w = 0x90004 then some (.qsvStatus t)
  else match strideAt 0xA0000 0x100 4 w with
  | some (k, r) => (dmvRegAt r).map (.dmv (4 * t + k))
  | none => none

/-- The register of the Management Endpoint BAR0 at an offset that holds one (Table RI-1); f2 is the function 2
whose MSI-X table the requester sees (R421). -/
def mgmtRegAt (f2 a : Nat) : Option Reg :=
  let w := a % 0x100000
  match a / 0x100000 with
  | 0x00 => glbRegAt w
  | 0x01 => crlRegAt w
  | 0x02 => pwrRegAt w
  | 0x03 => acuRegAt w
  | 0x04 => pmcRegAt w
  | 0x05 => prtRegAt (w / 0x4000) (w % 0x4000)
  | 0x06 => if w < 0x40000 then stlRegAt (w / 0x4000) (w % 0x4000) else none
  | 0x07 => tlsRegAt w
  | 0x08 =>
    if w < 0x2000 then mbxRegAt 64 w
    else if w = 0x3000 then some (.msixPba (128 + f2) 0)
    else if w < 0x3000 then msixRegAt (128 + f2) 8 (w - 0x2000)
    else none
  | 0x09 => if w = 0 then some .oobBoot else none
  | 0x0A => if w = 0 then some .sbsCtl else if w = 4 then some .sbsStatus else none
  | b => if 0x10 ≤ b ∧ b ≤ 0x1F then tmbRegAt (b - 0x10) w else none

/-- Registers of a slice page of host h, local index i (Table RI-11), but for the channel groups. -/
def slicePageRegAt (h i r : Nat) : Option Reg :=
  if r = 0 then some (.sliceInfo h i)
  else if r = 0x8 then some (.sliceQuota h i)
  else if r = 0x10 then some (.sliceQueues h i)
  else if r = 0x100 then some (.dirtyCtl h i)
  else if r = 0x104 then some (.dirtyStatus h i)
  else if r = 0x108 then some (.dirtyWin h i)
  else if r = 0x110 then some (.dirtyBuf h i 0)
  else if r = 0x118 then some (.dirtyBuf h i 1)
  else match strideAt 0x40 0x10 8 r with
  | some (n, 0) => some (.sliceRegionBase h i n)
  | some (n, 8) => some (.sliceRegionLimit h i n)
  | some _ => none
  | none => match strideAt 0x800 0x20 64 r with
    | some (n, o) => (ringRegAt o).map (.ring h i n)
    | none => none

/-- The register of the Service Function BAR0 of host h at an offset (Table RI-10). chan gives the channel behind a
local channel of a slice page, if any (R423). -/
def sfnRegAt (chan : Nat → Nat → Option Nat) (h a : Nat) : Option Reg :=
  if a < 0x1000 then
    if a = 0x100 then some (.svcVer h)
    else match strideAt 0x800 8 256 a with
    | some (i, 0) => some (.sliceDir h i)
    | _ => none
  else match strideAt 0x10000 0x1000 256 a with
  | some (i, r) =>
    match strideAt 0x400 0x100 4 r with
    | some (c, o) =>
      match chan i c, dmvRegAt o with
      | some ch, some x => some (.dmv ch x)
      | _, _ => none
    | none => slicePageRegAt h i r
  | none =>
    match strideAt 0x1000000 16 2048 a with
    | some (v, 0) => some (.msixAddr (64 + h) v)
    | some (v, 8) => some (.msixData (64 + h) v)
    | some _ => none
    | none => match strideAt 0x1008000 8 32 a with
      | some (n, 0) => some (.msixPba (64 + h) n)
      | _ => none

/-- The register of the Pool Device BAR0 of host h at an offset: the mailbox and the MSI-X table (Table RI-13); the
other blocks are CXL's. -/
def pdRegAt (h a : Nat) : Option Reg :=
  if 0x10800 ≤ a ∧ a < 0x11820 then mbxRegAt h (a - 0x10800)
  else match strideAt 0xF000 16 128 a with
  | some (v, 0) => some (.msixAddr h v)
  | some (v, 8) => some (.msixData h v)
  | some _ => none
  | none => match strideAt 0xF800 8 2 a with
    | some (n, 0) => some (.msixPba h n)
    | _ => none

/-- The offset of a register of the Management Endpoint BAR0 (Register Index); none for registers of other BARs. -/
def Reg.mgmtAddr : Reg → Option Nat
  | .glbIdent => some 0 | .bufStatus => some 0x10000 | .ageLimit => some 0x10004 | .devloadThr => some 0x10008
  | .intResv t => some (0x10100 + t * 8) | .mgtResv => some 0x10180
  | .mirCtl s => some (0x10200 + s * 0x20) | .mirLo s => some (0x10208 + s * 0x20) | .mirHi s => some (0x10210 + s * 0x20)
  | .fabCfg => some 0x20000 | .tollCtl => some 0x20004 | .ftime => some 0x20008 | .timeStatus => some 0x20010
  | .nbr n => some (0x20100 + n * 8) | .keyStatus => some 0x30000 | .secStatus => some 0x30010
  | .route d => some (0x40000 + d * 4)
  | .srcCfg n => some (0x100000 + n * 8) | .srcStatus n => some (0x102000 + n * 8)
  | .faultStat => some 0x104000 | .retireStatus => some 0x104008
  | .domStatus d => some (0x200000 + d * 0x10) | .domCfg d => some (0x200004 + d * 0x10)
  | .curve c k => some (0x201000 + c * 0x20 + k * 4) | .rail r => some (0x202000 + r * 8)
  | .aoFeed => some 0x202040 | .clkStatus => some 0x202048 | .avs => some 0x202050 | .sleepCtl => some 0x202058
  | .pStart i => some (0x300000 + i * 0x20) | .pEnd i => some (0x300008 + i * 0x20)
  | .pPorts i => some (0x300010 + i * 0x20) | .pCtl i => some (0x300018 + i * 0x20)
  | .rStart i => some (0x304000 + i * 0x20) | .rEnd i => some (0x304008 + i * 0x20)
  | .rPorts i => some (0x304010 + i * 0x20) | .rCtl i => some (0x304018 + i * 0x20)
  | .acuStatus => some 0x308000
  | .violAddr v => some (0x309000 + v * 0x20) | .violInfo v => some (0x309008 + v * 0x20)
  | .violCount v => some (0x30900C + v * 0x20)
  | .pmcCycles u => some (0x400000 + u * 0x1000) | .pmcStatus u => some (0x400008 + u * 0x1000)
  | .pmcCnt u i => some (0x400040 + u * 0x1000 + i * 8) | .pmcEvsel u i => some (0x400080 + u * 0x1000 + i * 8)
  | .pmcSnapCycles u => some (0x400100 + u * 0x1000) | .pmcSnapCnt u i => some (0x400140 + u * 0x1000 + i * 8)
  | .pmcGlbCtl => some 0x440000 | .pmcSnapFtime => some 0x440008
  | .prtCfg p => some (0x500000 + p * 0x4000) | .prtStatus p => some (0x500008 + p * 0x4000)
  | .hpCtl p => some (0x500010 + p * 0x4000) | .hpStatus p => some (0x500018 + p * 0x4000)
  | .cplTo p => some (0x500020 + p * 0x4000) | .prtResv p => some (0x502000 + p * 0x4000)
  | .prtClassWeight p => some (0x502008 + p * 0x4000) | .prtShape p => some (0x502010 + p * 0x4000)
  | .prtGclCtl p => some (0x502018 + p * 0x4000) | .prtGclBase p => some (0x502020 + p * 0x4000)
  | .prtHostWeight p n => some (0x502040 + p * 0x4000 + n * 4)
  | .prtGclEntry p b i => some (0x502200 + p * 0x4000 + b * 0x100 + i * 4)
  | .stlCfg s => some (0x600000 + s * 0x4000) | .stlStatus s => some (0x600008 + s * 0x4000)
  | .linkCtl s => some (0x600010 + s * 0x4000) | .widthCtl s => some (0x600018 + s * 0x4000)
  | .txeq s i => some (0x600020 + s * 0x4000 + i * 4) | .laneStatus s i => some (0x600040 + s * 0x4000 + i * 8)
  | .errCnt s => some (0x600060 + s * 0x4000) | .trainCtl s => some (0x600070 + s * 0x4000)
  | .seqStatus s => some (0x600078 + s * 0x4000) | .stlResv s => some (0x602000 + s * 0x4000)
  | .stlClassWeight s => some (0x602008 + s * 0x4000) | .stlGclCtl s => some (0x602018 + s * 0x4000)
  | .stlGclBase s => some (0x602020 + s * 0x4000)
  | .stlGclEntry s b i => some (0x602200 + s * 0x4000 + b * 0x100 + i * 4)
  | .tlsCtl => some 0x700000 | .tlsSlotCfg i => some (0x700800 + i * 8)
  | .tlsHist i k h b => some (0x710000 + i * 0x100 + k * 0x80 + h * 0x40 + b * 4)
  | .mbxCap m => if m = 64 then some 0x800000 else none
  | .mbxCtl m => if m = 64 then some 0x800004 else none
  | .mbxCmd m => if m = 64 then some 0x800008 else none
  | .mbxStatus m => if m = 64 then some 0x800010 else none
  | .mbxBgStatus m => if m = 64 then some 0x800018 else none
  | .mbxPayload m i => if m = 64 then some (0x800020 + i * 8) else none
  | .msixAddr f v => if 128 ≤ f then some (0x802000 + v * 16) else none
  | .msixData f v => if 128 ≤ f then some (0x802008 + v * 16) else none
  | .msixPba f _ => if 128 ≤ f then some 0x803000 else none
  | .oobBoot => some 0x900000 | .sbsCtl => some 0xA00000 | .sbsStatus => some 0xA00004
  | .dirBiTimeout t => some (0x1080000 + t * 0x100000) | .dirStatus t => some (0x1080004 + t * 0x100000)
  | .dirCtStatus t => some (0x1080008 + t * 0x100000) | .lksStatus t => some (0x1090000 + t * 0x100000)
  | .qsvStatus t => some (0x1090004 + t * 0x100000)
  | .dmv c r => some (0x10A0000 + c / 4 * 0x100000 + c % 4 * 0x100 + r.offset)
  | .svcVer _ | .sliceDir _ _ | .sliceInfo _ _ | .sliceQuota _ _ | .sliceQueues _ _ | .sliceRegionBase _ _ _
  | .sliceRegionLimit _ _ _ | .dirtyCtl _ _ | .dirtyStatus _ _ | .dirtyWin _ _ | .dirtyBuf _ _ _
  | .ring _ _ _ _ => none

/-- The index ranges of the Register Index: which register names exist. -/
def Reg.present : Reg → Bool
  | .intResv t => t < 16 | .mirCtl s | .mirLo s | .mirHi s => s < 16 | .nbr n => n < 16 | .route d => d < 2048
  | .srcCfg n | .srcStatus n => n < 1024
  | .domStatus d | .domCfg d => d < 124 | .curve c k => c < 8 && k < 8 | .rail r => r < 7
  | .pStart i | .pEnd i | .pPorts i | .pCtl i | .rStart i | .rEnd i | .rPorts i | .rCtl i => i < 257
  | .violAddr v | .violInfo v | .violCount v => v < 17
  | .pmcCycles u | .pmcStatus u | .pmcSnapCycles u => u < 37
  | .pmcCnt u i | .pmcEvsel u i | .pmcSnapCnt u i => u < 37 && i < 8
  | .prtCfg p | .prtStatus p | .hpCtl p | .hpStatus p | .cplTo p | .prtResv p | .prtClassWeight p | .prtShape p
  | .prtGclCtl p | .prtGclBase p => p < 64
  | .prtHostWeight p n => p < 64 && n < 21
  | .prtGclEntry p b i => p < 64 && b < 2 && i < 64
  | .stlCfg s | .stlStatus s | .linkCtl s | .widthCtl s | .errCnt s | .trainCtl s | .seqStatus s | .stlResv s
  | .stlClassWeight s | .stlGclCtl s | .stlGclBase s => s < 16
  | .txeq s i | .laneStatus s i => s < 16 && i < 4
  | .stlGclEntry s b i => s < 16 && b < 2 && i < 64
  | .tlsSlotCfg i => i < 256
  | .tlsHist i k h b => i < 256 && k < 2 && h < 2 && b < 16
  | .mbxCap m | .mbxCtl m | .mbxCmd m | .mbxStatus m | .mbxBgStatus m => m < 65
  | .mbxPayload m i => m < 65 && i < 512
  | .msixAddr f v | .msixData f v => (f < 64 && v < 128) || (64 ≤ f && f < 128 && v < 2048) || (128 ≤ f && f < 192 && v < 8)
  | .msixPba f w => (f < 64 && w < 2) || (64 ≤ f && f < 128 && w < 32) || (128 ≤ f && f < 192 && w < 1)
  | .dirBiTimeout t | .dirStatus t | .dirCtStatus t | .lksStatus t | .qsvStatus t => t < 16
  | .dmv c _ => c < 64
  | .svcVer h => h < 64
  | .sliceDir h i | .sliceInfo h i | .sliceQuota h i | .sliceQueues h i | .dirtyCtl h i | .dirtyStatus h i
  | .dirtyWin h i => h < 64 && i < 256
  | .sliceRegionBase h i n | .sliceRegionLimit h i n => h < 64 && i < 256 && n < 8
  | .dirtyBuf h i b => h < 64 && i < 256 && b < 2
  | .ring h i r _ => h < 64 && i < 256 && r < 64
  | _ => true

end Sys2Proof.Machine
end

