-- ==== Sys2Proof/Machine/State.lean ====
section
/-! DEFINITION. The state of the CMK-8320: every register, table, queue, log, latch and pin the specification gives it,
the commands waiting, and the two ways a step can stop. -/

namespace Sys2Proof.Machine

/-! ### Pool, binding and owner encryption -/

/-- What one 64 B line of an expander holds. A written line holds its ciphertext, kept as the key generation and the
tweak it was encrypted under with the plaintext (R49): only the same key and tweak give the plaintext back. -/
inductive Stored
  | cipher (gen : Nat) (tweak : LineNo) (plain : LineData)
  | poison
  deriving DecidableEq, Repr

/-- A block map entry (Table PB-4). eccBad says that the SEC-DED code over the entry does not check. -/
structure BlockEntry where
  owner        : DomainId
  ownerC       : DomainId
  state        : BitVec 4
  stateC       : BitVec 4
  remote       : Bool
  coherent     : Bool
  set          : BitVec 6
  setIndex     : BitVec 20
  homeDev      : DeviceId
  remoteBlock  : BitVec 20
  remoteDomain : DomainId
  eccBad       : Bool
  deriving DecidableEq, Repr

/-- A host slot table entry (Table PB-6). -/
structure SlotEntry where
  valid  : Bool
  validC : Bool
  block  : BitVec 20
  blockC : BitVec 20
  domain : DomainId
  eccBad : Bool
  deriving DecidableEq, Repr

/-- A table held in two copies (R16, R464). -/
structure Copies (β : Type) where
  a : Table Nat β
  b : Table Nat β
  deriving DecidableEq, Repr

/-- An interleave set descriptor (Table PB-3). Masks have one bit per way. -/
structure SetDesc where
  valid     : Bool
  ways      : Nat
  gran4k    : Bool
  mirrored  : Bool
  member    : List Nat
  mirror    : List Nat
  okP       : BitVec 16
  okM       : BitVec 16
  resyncP   : BitVec 16
  resyncM   : BitVec 16
  inService : Bool
  first     : Nat
  count     : Nat
  deriving DecidableEq, Repr

/-- A repair table entry (R35); copy 0 is the primary, 1 the mirror. -/
structure RepairEntry where
  set     : Nat
  way     : Nat
  copy    : Nat
  granule : Nat
  deriving DecidableEq, Repr

/-- A key slot (Table PB-8a). An ACTIVE slot's key pair is named by its generation. -/
inductive KeySlot
  | spent
  | ready
  | active (gen : Nat)
  deriving DecidableEq, Repr

/-- What an owner domain is (R54 to R56, R66). -/
inductive DomainKind
  | priv | shared | proxy | exported
  deriving DecidableEq, Repr

/-- Firmware's record of an owner domain: its tag, holders and blocks. -/
structure DomainRec where
  kind    : DomainKind
  tag     : Nat
  holders : List Nat
  blocks  : List Nat
  fencing : Bool
  deriving DecidableEq, Repr

/-- An extent of a host: first slot, length in blocks, whether it is offered or held. -/
structure Extent where
  port    : Nat
  region  : Nat
  first   : Nat
  count   : Nat
  tag     : Nat
  domain  : Nat
  blocks  : List Nat
  offered : Bool
  seq     : Nat
  deriving DecidableEq, Repr


/-- A Dynamic Capacity add or release in progress for a host (R53): the command that waits for it, the extents that the host
has still to release (first slot, blocks), and the fences that have still to end. -/
structure DcOp where
  add      : Bool
  path     : Path
  extents  : List (Nat × Nat)
  pending  : Nat
  deriving DecidableEq, Repr

/-- What ends an import, and who is told (R67): REMOTE_UNMAP's path, or the tag of the home's IMPORT_UNMAP_REQUEST. -/
inductive ImportEnd
  | unmap (path : Path)
  | request (tag : Nat)
  | notice
  | revoked
  deriving DecidableEq, Repr

/-- An EXPORT_NOTICE that this device has not answered: it waits for the stale imports of its blocks (R67). -/
structure Notice where
  home     : DeviceId
  tag      : Nat
  exportId : Nat
  blocks   : List Nat
  deriving DecidableEq, Repr

/-- What happens when a fence has ended. -/
inductive AfterFence
  | nothing
  | dc (port : Nat)
  | unprompted (port : Nat) (freed : Nat × Nat)
  | exportGone (id : Nat) (path : Option Path) (timedOut : Bool)
  | importGone (home : DeviceId) (id : Nat)
  | migrated (source : Nat)
  deriving DecidableEq, Repr

/-- A request for a fence of at most 16 blocks (R59): a block fence has whole, a holder fence names the departing holders;
slots are the slot table entries to clear, domain the domain that may lose its last block. -/
structure FenceRec where
  whole    : Bool
  blocks   : List Nat
  slots    : List Nat
  holders  : List Holder
  domain   : Nat
  after    : AfterFence
  deriving DecidableEq, Repr

/-- The fence batch that runs: its requests, the step of Table PB-11 that runs, and the translation epoch being drained. -/
structure FenceRun where
  recs     : List FenceRec
  step     : Nat
  oldEpoch : BitVec 2
  deriving DecidableEq, Repr

/-- A migration record (R64): path is the BLOCK_MIGRATE that waits for it, none for those of an orderly removal. -/
structure Migration where
  source    : Nat
  target    : Nat
  watermark : Nat
  path      : Option Path
  deriving DecidableEq, Repr

/-- An export record (Table PB-14). -/
structure ExportRec where
  id        : Nat
  importer  : DeviceId
  domain    : Nat
  coherent  : Bool
  releasing : Bool
  mapped    : Bool
  blocks    : List Nat
  deriving DecidableEq, Repr

/-- An import record (Table PB-14): pairs of a home block number and the local block number; ending lists, while its fence runs,
what has ended it. -/
structure ImportRec where
  homeDev      : DeviceId
  exportId     : Nat
  remoteDomain : Nat
  proxyDomain  : Nat
  coherent     : Bool
  tag          : Nat
  blocks       : List (Nat × Nat)
  ending       : List ImportEnd
  deriving DecidableEq, Repr

/-- An access that has taken a translation epoch and has not completed (R44). -/
structure InFlight where
  tile  : Nat
  epoch : BitVec 2
  deriving DecidableEq, Repr

/-- The hub structures that stand in the lower quarter of each table copy beside block map and slot table rows (R464). -/
structure HubTables where
  sets       : Table Nat SetDesc
  repair     : List RepairEntry
  migrations : List Migration
  exports    : List ExportRec
  imports    : List ImportRec
  deriving DecidableEq, Repr

/-- Forced work that waits until firmware runs (R17): the extents of a host that has gone (R58), or a revocation (R50). -/
inductive ForcedWork
  | host (port : Nat) | revocation
  deriving DecidableEq, Repr

/-- The pool: hubA is the primary copy of the hub structures, in HUB0, and hubB the mirror, in HUB2. forcedDue is the forced work that waits for
firmware. -/
structure PoolState where
  windows    : Table Nat (Nat × Nat × Nat)
  setCap     : Table Nat Nat
  blocks     : Copies BlockEntry
  slots      : Copies SlotEntry
  hubA       : HubTables
  hubB       : HubTables
  slotCache  : Table (Nat × Nat) SlotEntry
  blockCache : Table (Nat × Nat) BlockEntry
  setCache   : Table (Nat × Nat) SetDesc
  epoch      : BitVec 2
  inflight   : Table (Agent × Nat) InFlight
  keys       : Table Nat KeySlot
  readyOrder : Fifo Nat
  keyGen     : Nat
  domains    : Table Nat DomainRec
  extents    : List Extent
  extentSeq  : Nat
  dcOps      : Table Nat DcOp
  fence      : Option FenceRun
  fenceQueue : Fifo FenceRec
  notices    : List Notice
  revoking   : Bool
  forcedDue  : List ForcedWork
  mem        : List (Nat × Stored)
  deriving DecidableEq, Repr

/-! ### Coherence and the directory -/

/-- The outcome of an entry's ECC check (R75). -/
inductive EccState
  | good | single | bad
  deriving DecidableEq, Repr

/-- A directory entry (Table CO-1) that is not I; TAG is kept as the granule the entry stands for. -/
structure DirEntry where
  tag    : BitVec 21
  state  : BitVec 4
  stateC : BitVec 4
  vector : BitVec 80
  ecc    : EccState
  deriving DecidableEq, Repr

/-- Request kinds at a home (Table CO-4), and the home's own operations that take a conflict-table entry. -/
inductive ReqKind
  | readShared | readExclusive | readCurrent | write | partialWrite | writeBack | release | takeX | releaseX
  | proxySnoop | sweep | integrity | death | eviction | turn
  deriving DecidableEq, Repr

/-- Snoops (R77). -/
inductive SnoopKind
  | cur | dat | inv
  deriving DecidableEq, Repr

/-- Transient states (Table CO-8). -/
inductive CtState
  | recall | xrecall | mem | write | poison | held
  deriving DecidableEq, Repr

/-- Lines that one snooped holder has still to answer, whether any answer kept it in the vector (R77), and the timeouts
of each line's snoop (R98). -/
structure Wait where
  holder  : Holder
  lines   : BitVec 16
  stays   : Bool
  retries : Table Nat Nat
  deriving DecidableEq, Repr

/-- A conflict-table entry (R83). block is the block whose memory serves the access (a migration's target below the
watermark, R64); coherent says that the directory tracks it, remote that the entry is a proxy's (R93); poisoned the lines
of the recall that have been poisoned; answered the data of the requested line from a merged write-back (R81); resv the
reservations, as group and transaction; done that the response has gone; green and peakWaited come from the host's shaper
(R122, R127); epoch is the ACU epoch of its check (R324). An entry of kind turn recalls for an access that an internal agent makes
inside one of its commands (log entry 35): rdOk and wrOk are the lines whose recalls for a read or a write have been answered. -/
structure CtEntry where
  slice      : Nat
  state      : CtState
  general    : Bool
  group      : Nat
  kind       : ReqKind
  req        : HomeReq
  block      : Nat
  coherent   : Bool
  remote     : Bool
  waits      : List Wait
  snoop      : SnoopKind
  answered   : Option LineData
  resv       : List (Nat × Nat)
  done       : Bool
  green      : Bool
  peakWaited : Bool
  epoch      : BitVec 2
  rdOk       : BitVec 16 := 0
  wrOk       : BitVec 16 := 0
  whole      : Bool := false
  lines      : List (Fin 16 × LineData) := []
  deriving DecidableEq, Repr

/-- A victim-buffer entry (R90); owned says that its holder held it in E. -/
structure Victim where
  slice : Nat
  owned : Bool
  block : Nat
  waits : List Wait
  resv  : List (Nat × Nat)
  deriving DecidableEq, Repr

/-- A retried request as its ingress keeps it (R86); lines are those that a neighbour release carries. -/
structure Retried where
  kind     : ReqKind
  req      : HomeReq
  reserved : Bool
  lines    : List (Fin 16 × LineData) := []
  deriving DecidableEq, Repr

/-- An access of a home to an expander that has not come back. line is the line of the access and real the line that
is encrypted (they differ below a migration's watermark); what is the stored form that a write carries; copy is 0 for the
primary or the only copy, 1 for the mirror; fallback says that the primary has failed the same access; wait is the wait
D in the per-host queue (R127), none until the egress has sent it. -/
structure ExpOp where
  op       : Nat
  port     : Nat
  addr     : Nat
  line     : LineNo
  real     : LineNo
  what     : Option Stored
  copy     : Nat
  fallback : Bool
  wait     : Option Nat
  deriving DecidableEq, Repr

/-- A request that a proxy has forwarded to its home device (R93), or a write-back or poison write of its own; retried says
that the home has told of a Retry and of no Grant since (R87). -/
structure ProxyOut where
  kind  : ReqKind
  req   : HomeReq
  reply : Bool
  retried : Bool
  deriving DecidableEq, Repr

/-- A home's snoop of one line that a proxy is serving (R94): who asked, with its tag, and the local holders that have
not answered; keeps says that one of them keeps a shared copy; retries counts the timeouts of each one's snoop (R98). -/
structure ProxySnoop where
  home  : DeviceId
  tag   : Nat
  kind  : SnoopKind
  waits : List Holder
  keeps : Bool
  retries : Table Holder Nat
  deriving DecidableEq, Repr

/-- Why an access inside a command cannot be made yet (log entry 35): its home slice accepts no request now; another access covers
its granule or no entry is free (R84); it needs recalls first (R80); its directory entry fails the integrity check (R75). -/
inductive Stall
  | asleep (slice : Nat)
  | covered
  | recalls (kind : ReqKind) (req : HomeReq)
  | integrity (granule : Nat)
  deriving DecidableEq, Repr

/-- The accesses inside the command that runs: the first that cannot be made yet, and the granules whose answered recalls the
command has used. Between commands it is empty. -/
structure Turn where
  stall : Option Stall
  used  : List Nat
  deriving DecidableEq, Repr

/-- A lost-line record (Table CO-17). -/
structure LostRec where
  seq      : Nat
  ftime    : Nat
  line     : Nat
  mask     : Nat
  domain   : Nat
  prior    : Nat
  cause    : Nat
  agentDev : Nat
  kind     : Nat
  num      : Nat
  slice    : Nat
  deriving DecidableEq, Repr

/-- A log or record kept in MRAM on two port dies (R103, R386): the two copies, the next sequence number and the
records a full log refused. -/
structure MLog (β : Type) where
  a        : List β
  b        : List β
  seq      : Nat
  overflow : Nat
  deriving DecidableEq, Repr

/-- The directory slices, their conflict tables, victim buffers and lost-line log (R72 to R103). timeouts counts the
consecutive snoop timeouts of a holder (R98), sweeps the cause of a death and the slices that have still to sweep (R100);
psnoops is keyed by line; invd holds the lines of a proxy granule that home snoops have invalidated since a local host last
received data of it, datd those that home data snoops have downgraded, and whether a local holder kept one of them; grantE the granules
that their home has granted in E (R93). -/
structure DirState where
  entries  : Table Nat DirEntry
  mru      : Table (Nat × Nat) Nat
  ct       : Table Nat CtEntry
  retried  : Table (Nat × Nat) (List Retried)
  victims  : Table Nat Victim
  expOps   : List ExpOp
  opNext   : Nat
  timeouts : Table Holder Nat
  dead     : List Holder
  sweeps   : Table Holder (Nat × List Nat)
  proxyOut : Table Nat ProxyOut
  psnoops  : Table Nat ProxySnoop
  invd     : Table Nat (BitVec 16)
  datd     : Table Nat (BitVec 16 × Bool)
  grantE   : List Nat
  lostLog  : MLog LostRec
  turn     : Turn
  deriving DecidableEq, Repr

/-! ### What the device sends -/

/-- One thing the device has sent, driven or completed, as the outside sees it. -/
inductive Out
  | memData (a : Agent) (txn : Nat) (data : LineData) (poison : Bool) (devLoad : Nat)
  | memDone (a : Agent) (txn : Nat) (devLoad : Nat)
  | accessError (a : Agent) (txn : Nat)
  | retry (group : Nat) (txn : Nat) (reserved : Bool)
  | grant (group : Nat) (txn : Nat)
  | snoop (who : Holder) (line : LineNo) (kind : SnoopKind)
  | recall (who : Holder) (granule : Nat)
  | conflictAck (port : Nat) (line : LineNo)
  | expRead (op : Nat) (port : Nat) (addr : Nat)
  | expWrite (op : Nat) (port : Nat) (addr : Nat) (what : Stored)
  | sent (e : Egress) (msg : Nat)
  | discarded (msg : Nat)
  | ioCpl (port : Nat) (tag : Nat) (status : Nat) (value : Word)
  | passed (port : Nat) (tag : Nat)
  | msix (f : Nat) (vec : Nat)
  | eventRecord (port : Nat) (log : Nat) (kind : Nat) (detail : Nat)
  | mirror (session : Nat) (record : List Byte)
  | firmware (what : Nat) (detail : Nat)
  | access (requester : Nat) (status : Nat) (value : Word)
  | cmdDone (path : Path) (opcode : Nat) (rc : Nat) (vendor : Nat) (out : List Byte)
  | spdm (path : Path) (what : Nat) (out : List Byte)
  | message (link : Nat) (words : List Word)
  | packet (link : Nat) (words : List Word)
  | block (link : Nat) (body : Word)
  | accepted (link : Nat) (words : List Word)
  | bridge (what : Nat) (data : List Byte)
  | pin (which : Nat) (level : Bool)
  | sbs (frame : BitVec 256)
  | pmbus (address : Nat) (mv : Nat)
  | viral (port : Nat)
  deriving DecidableEq, Repr

/-! ### Switch core -/

/-- A message in the shared buffer. cells from the shared pool are counted in fromShared; dest and its complement are
the internal header's (R109); f1 and f2 are the finish tags of the two scheduling levels (R120); born is
its fabric time; held says that it waits on its port's peak bucket (R122); quarters is the mask of HUB quarters that hold its
cells; homeKind is the kind that Table CO-4 gives a request for a home (R76); f3 is the finish tag among the credit types of a per-host
queue (R120); sends is what the egress presents when it sends a message that the device has written itself. -/
structure Msg where
  id         : Nat
  entity     : Entity
  cls        : MsgClass
  cells      : Nat
  fromShared : Nat
  dest       : Egress
  destC      : BitVec 8
  kind       : MsgKind
  txn        : Nat
  born       : Nat
  domain     : Option DomainId
  paddr      : Option Nat
  poison     : Bool
  raw        : List Byte
  credit     : Nat
  hostQueue  : Nat
  cost       : Nat
  green      : Bool
  peakWaited : Bool
  held       : Bool
  f1         : Nat
  f2         : Nat
  quarters   : BitVec 4
  homeKind   : Option ReqKind := none
  f3         : Nat := 0
  sends      : List Out := []
  deriving DecidableEq, Repr

/-- Where a gate list stands: entries of the bank in force, the entry in force, the fabric time at which it took force
(R124). -/
structure GateRun where
  length : Nat
  entry  : Nat
  since  : Nat
  deriving DecidableEq, Repr

/-- The two buckets of a HOST port's shaper in 1/1000 B, and the fabric time they were last filled to (R122). -/
structure Buckets where
  committed : Nat
  peak      : Nat
  filledAt  : Nat
  deriving DecidableEq, Repr

/-- A mirror record (Table SW-18) waiting in its session's queue; the session has still to read the cells of message msg. -/
structure MirrorRec where
  msg    : Nat
  ftime  : Nat
  port   : Nat
  flags  : Nat
  domain : Nat
  origLen : Nat
  paddr  : Nat
  data   : List Byte
  deriving DecidableEq, Repr

/-- A mirror session (R129). -/
structure MirrorSession where
  queue : Fifo MirrorRec
  drops : Nat
  seq   : Nat
  deriving DecidableEq, Repr

/-- The switch core. headAt gives, for a class at an egress (0) or one of its second-level queues (1 plus its number), the time at
which its present head came to be its head (R413). linger holds messages that have left the buffer and whose cells a mirror session has
still to read (R129). -/
structure SwitchState where
  msgs     : List Msg
  linger   : List Msg
  blocked  : List Msg
  vtime    : Table (Egress × Nat) Nat
  flast    : Table (Egress × Nat × Nat) Nat
  buckets  : Table Nat Buckets
  gates    : Table Egress GateRun
  lastWait : Table (Nat × Nat) Nat
  headAt   : Table (Egress × Nat × Nat) Nat
  sessions : Table Nat MirrorSession
  napping  : Option Nat
  leaving  : Option Nat
  nextId   : Nat
  deriving DecidableEq, Repr

/-! ### Telemetry -/

structure TelState where
  latch     : Table Nat (BitVec 32)
  ftimeHigh : Option (BitVec 32)
  tlsForce  : Table Nat Word
  deriving DecidableEq, Repr

/-! ### Protection and security -/

/-- A pending debug challenge (R344). -/
structure Challenge where
  level  : Nat
  nonce  : BitVec 256
  deriving DecidableEq, Repr

/-- Contents of OTP (R334, R307, R339). -/
structure Otp where
  lifecycle : Nat
  serial    : BitVec 128
  bcbKey    : List Byte
  debugKey  : List Byte
  counters  : List Nat
  revoked   : List Bool
  deriving DecidableEq, Repr

/-- An SPDM session (R340): its transport (a HOST port, or MCTP), its keys' generation, whether FINISH has run. -/
structure SpdmSession where
  id       : Nat
  path     : Path
  finished : Bool
  keyGen   : Nat
  deriving DecidableEq, Repr

/-- One locked region as the lock record keeps it (R321). -/
structure LockedRegion where
  space : Nat
  index : Nat
  start : Word
  stop  : Word
  ports : Word
  ctl   : Word
  deriving DecidableEq, Repr

/-- Security. conns says how far the SPDM exchange of a transport has come (R340): 1 version, 2 capabilities, 3 algorithms; ideKeys
is keyed by port and key set; aliasHeld says that the lifecycle block holds the identity and alias keys (R341); fencePaths wait for an
ACU_FENCE; dl2Pending and zeroize (scope, path) wait for a forced revocation; noAdds refuses adds (R345). -/
structure SecState where
  otp         : Otp
  challenge   : Option Challenge
  lockRecord  : MLog LockedRegion
  masterBad   : List (Nat × Nat)
  conns       : Table Path Nat
  sessions    : List SpdmSession
  sessionNext : Nat
  ideKeys     : Table (Nat × Nat) Nat
  aliasHeld   : Bool
  fencePaths  : List Path
  dl2Pending  : Option Path
  zeroize     : Option (Nat × Path)
  noAdds      : Bool
  deriving DecidableEq, Repr

/-! ### Power -/

/-- What a die's temperature has led to (Table ET-9): its last reported reading, and the thresholds in force. -/
structure Temp where
  reading  : Nat
  warned   : Bool
  throttle : Bool
  hot      : Bool
  deriving DecidableEq, Repr

/-- Power. napExit holds the time at which a domain left Nap (R355), wakeFrom the state a waking domain left; checkDue the class B
domains that await the check of R364; wakeMask and timerS those of AO-ONLY (Table PW-8); feedTripped says that the breaker of the AO
feed in use has tripped, feedOut the feeds that have still to be removed before a latched island runs again (R366); avsHold the AO
clock cycles left of the 100 µs after a step of the VDD_CORE target (R371);
tripOver says that PORST_B has been low since a thermal trip (R460). -/
structure PwrState where
  napExit     : Table Nat Nat
  wakeFrom    : Table Nat Nat
  checkDue    : List Nat
  wakeMask    : Nat
  timerS      : Nat
  feedTripped : Bool
  feedOut     : List Nat
  avsHold     : Nat
  tripOver    : Bool
  temps       : Table Nat Temp
  deriving DecidableEq, Repr

/-! ### Faults -/

/-- What a source's pair of wires carries (Table FI-3). -/
inductive PairCode
  | normal | fault | wire
  deriving DecidableEq, Repr

/-- A source's pair and the syndrome it holds while it reads fault (R378). -/
structure Pair where
  code   : PairCode
  cls    : Nat
  detail : Nat
  deriving DecidableEq, Repr

/-- A fault log record (Table FI-7). -/
structure FaultRec where
  seq     : Nat
  ftime   : Nat
  source  : Nat
  cls     : Nat
  sev     : Nat
  wire    : Bool
  test    : Nat
  retired : Bool
  react   : Nat
  count   : Nat
  detail  : Nat
  deriving DecidableEq, Repr

/-- One resource of the retirement record (R391): retired or not, and the AO-island times of its last transients. -/
structure RetireRec where
  retired    : Bool
  transients : List Nat
  deriving DecidableEq, Repr

/-- A self-test that is due on a resource (R389), and the record that waits for its result (R384). -/
structure TestDue where
  source   : Nat
  resource : Resource
  number   : Nat
  record   : Option FaultRec
  deriving DecidableEq, Repr

/-- Faults. lastLog0 gives for a source the time of its last severity 0 record and its COUNT then (R384); diesOut the port dies
that are lost, logicOut the Tambours whose logic is lost; moving maps a logical slice that is moving to its host Tambour
(16 where none qualifies), hosts one that has moved (R395); nmiHeld says that an NMI is held (Table FI-14). -/
structure FltState where
  pairs      : Table Nat Pair
  log        : MLog FaultRec
  lastLog0   : Table Nat (Nat × Nat)
  retirement : MLog (Resource × Nat × RetireRec)
  testDue    : List TestDue
  diesOut    : List Nat
  logicOut   : List Nat
  moving     : Table Nat Nat
  hosts      : Table Nat Nat
  nmiHeld    : Bool
  deriving DecidableEq, Repr

/-! ### Services, slices and the data mover -/

/-- Service images (R131). -/
inductive Image
  | none | lookup | queue | assist
  deriving DecidableEq, Repr

/-- An engine: its image and image version, whether it is retired, and the version it moves to (R313). -/
structure Engine where
  image   : Image
  version : Nat
  retired : Bool
  move    : Option Nat
  deriving DecidableEq, Repr

/-- A slice's quota (Table DM-3). rings maps local ring indices to Ring IDs; channels local channels to channels,
none for CLOSED without one; engines the share with weights; regions first and last page of each. -/
structure Quota where
  rings     : List Nat
  channels  : List (Option Nat)
  engines   : List (Nat × Nat)
  queueBase : Nat
  queues    : Nat
  regions   : List (Nat × Nat)
  msixBase  : Nat
  msixCount : Nat
  deriving DecidableEq, Repr

/-- A quota change in progress (R175): the quota it leads to, whether it destroys the slice, who waits (none for
a decrease of firmware's own, R392), and whether the drain timeout has forced it. -/
structure Resize where
  target  : Quota
  destroy : Bool
  path    : Option Path
  forced  : Bool
  deriving DecidableEq, Repr

/-- A slice (R169). closing holds local channels that run to their end, removed queues those that drain. -/
structure SliceRec where
  id     : Nat
  port   : Nat
  index  : Nat
  pasid  : Nat
  quota  : Quota
  resize : Option Resize
  deriving DecidableEq, Repr

/-- The result of a service operation (Table MS-11). -/
structure OpResult where
  status : Nat
  flags  : Nat
  info   : Nat
  aux    : Nat
  data   : List Byte
  deriving DecidableEq, Repr

/-- A queued packet (Table MS-20). -/
structure Packet where
  pool   : Nat
  cells  : List Nat
  len    : Nat
  ftime  : Nat
  info   : List Byte
  deriving DecidableEq, Repr

/-- Where a fetched operation stands: fenced waits for every earlier one (R144); copyingIn is an ENQUEUE before its commit point
and copyingOut a DEQUEUE after it, on an engine; written holds its completion slot. -/
inductive OpStage
  | fenced
  | waiting
  | copyingIn (engine : Nat) (pool : Nat) (cells : List Nat)
  | copyingOut (engine : Nat) (queue : Nat) (p : Packet)
  | ended
  | written (slot : Nat)
  deriving DecidableEq, Repr

/-- A fetched submission (R140). regions are the slice's pool regions when it was fetched (Table DM-3). -/
structure RingOp where
  index   : Nat
  entry   : List Byte
  stage   : OpStage
  result  : OpResult
  retried : Bool
  regions : List (Nat × Nat)
  deriving DecidableEq, Repr

/-- A ring's context as ENABLE read it, and its operations (R136 to R147). slotNext is the next completion slot to
fill; done the written slots beyond CQ_PI, with whether the write was good and whether NOTIFY was set; sampled the last sample
of SQ_PI; notify says that a message is due, sent that one has gone in this poll interval. -/
structure RingRun where
  sqBase   : Nat
  cqBase   : Nat
  shadow   : Nat
  sqLog2   : Nat
  cqLog2   : Nat
  service  : Nat
  msixEn   : Bool
  pollN    : Nat
  msixVec  : Nat
  sampled  : Nat
  ops      : List RingOp
  slotNext : Nat
  done     : List (Nat × Bool × Bool)
  notify   : Bool
  sent     : Bool
  deriving DecidableEq, Repr

/-- A cell pool (R158). -/
structure CellPool where
  csize    : Nat
  cellBase : Nat
  linkBase : Nat
  count    : Nat
  free     : List Nat
  deriving DecidableEq, Repr

/-- A scheduling node (R162, R163). Tags in 1/256 B; buckets in 1/256000 B, of which the whole 1/256 B count, so that filling one often
loses nothing. -/
structure QNode where
  parent    : Nat
  weight    : Nat
  gate      : Nat
  guardNs   : Nat
  cir       : Nat
  pir       : Nat
  cbs       : Nat
  pbs       : Nat
  committed : Nat
  peak      : Nat
  filledAt  : Nat
  vtime     : Nat
  flast     : Nat
  deriving DecidableEq, Repr

/-- A packet queue's descriptor. tags are the finish tags of its head packet: as the queue's own message, and as that of a node
above it (R162). -/
structure PQueue where
  node     : Nat
  weight   : Nat
  pool     : Nat
  ageUs    : Nat
  maxPkts  : Nat
  maxBytes : Nat
  packets  : Fifo Packet
  aged     : Nat
  refused  : Nat
  flast    : Nat
  tags     : List (Option Nat × Nat)
  deriving DecidableEq, Repr

/-- A queue-service gate list: the entries of the bank in force and its BASE_NS, and the bank that takes their place, its base
and the fabric time of the swap (R164). -/
structure QGate where
  entries : List Nat
  base    : Nat
  next    : Option (List Nat × Nat × Nat)
  deriving DecidableEq, Repr

/-- The queue service of one slice. -/
structure QService where
  area   : Nat
  pools  : Table Nat CellPool
  nodes  : Table Nat QNode
  queues : Table Nat PQueue
  gates  : Table Nat QGate
  deriving DecidableEq, Repr

/-- What a data-mover channel is doing beyond its registers (R181 to R185): the offset of the current burst; whether the burst
after which an abort stops has ended (aborting says that one has come); the lowest offset of a line that failed, and how many failures came after the first; the
source granules it holds in X; the pool regions in force at its promotion. -/
structure ChannelRun where
  aborting : Bool
  offset   : Nat
  stopped  : Bool
  failed   : Option Nat
  failures : Nat
  held     : List Nat
  regions  : List (Nat × Nat)
  deriving DecidableEq, Repr

/-- A bit that a logged write owes to a dirty buffer: the buffer, the device address of its byte, the bit, and the agent of the
write (R193). -/
structure DirtyMark where
  buf   : Nat
  addr  : Nat
  bit   : Nat
  agent : Agent
  deriving DecidableEq, Repr

/-- What happened to the active dirty buffer and, after a flip, to the one being harvested (R196); marks are the bit updates that their
homes have not accepted yet (R195). -/
structure DirtyRun where
  outside : Bool
  lost    : Bool
  oldOut  : Bool
  oldLost : Bool
  marks   : Fifo DirtyMark
  deriving DecidableEq, Repr

/-- The service slices. rounds holds the threads that each slice has been given in the present round of an engine (R174), by engine and
slice; held the vector of a message that waits for the end of a poll interval of a ring that has been disabled (R145). -/
structure SvcState where
  engines    : Table Nat Engine
  slices     : Table Nat SliceRec
  rings      : Table (Nat × Nat) RingRun
  queues     : Table Nat QService
  channels   : Table Nat ChannelRun
  fwChannels : List Nat
  dirty      : Table Nat DirtyRun
  flr        : List Nat
  ignoredCi  : Nat
  rounds     : Table (Nat × Nat) Nat
  held       : Table (Nat × Nat) Nat
  deriving DecidableEq, Repr

/-! ### CXL ports -/

/-- What the vPPB of a PASS port shows its host (R205, R222): Power Controller Control, the link, and the latched
events Presence Detect Changed, Data Link Layer State Changed and DPC. -/
structure Vppb where
  powerOff  : Bool
  linkUp    : Bool
  presence  : Bool
  dllChange : Bool
  dpc       : Bool
  deriving DecidableEq, Repr

/-- Where a port goes after TEARDOWN (Table CP-6). -/
inductive AfterTeardown
  | idle
  | settle
  | quarantine
  | failed (reason : Nat)
  deriving DecidableEq, Repr

/-- A port's state beside its registers. run counts the consecutive scans in which each line has shown a new level
(R209); edges and rejects are the times of accepted edges and rejected changes (R210, R212); fclr says that FCLR has
been written since the last power fault (R213); held that firmware holds the port in IDLE after orderly removal;
removal is the path whose PORT_REMOVE runs; timeouts counts consecutive CXL.mem timeouts (R219); l0p is the width in use while
PRT.STATUS.L0P is 1, which PRT.STATUS.LANES, the trained width, does not show (R200). -/
structure PortRec where
  run      : Nat × Nat × Nat
  edges    : List Nat
  rejects  : List Nat
  fclr     : Bool
  held     : Bool
  after    : AfterTeardown
  removal  : Option Path
  resetBy  : Option Path
  timeouts : Nat
  late     : Nat
  readyOk  : Bool
  l0p      : Nat
  vppb     : Vppb
  deriving DecidableEq, Repr

/-- scans counts the scans since the filter started or RESUME restarted it; frozen outputs follow from SBS.STATUS.CHAIN_FAULT. -/
structure PortState where
  recs  : Table Nat PortRec
  scans : Nat
  deriving DecidableEq, Repr

/-! ### Stitch links -/

/-- A packet in a replay buffer: its SEQ, its words without the link header, its class. -/
structure Entry where
  seq   : Nat
  cls   : MsgClass
  words : List Word
  deriving DecidableEq, Repr

/-- A takeover exchange of a dead link (R255, R256). -/
structure Takeover where
  event        : Nat
  lastAccepted : Nat
  carrier      : Nat
  peerSeen     : Bool
  deriving DecidableEq, Repr

/-- A link's state beside its registers. phase is the training phase of Table ST-3 (0 none, 1 DETECT to 5 LINKUP);
attempts counts the attempts of the retrain sequence; slow says that it has fallen back to 53.125 Gb/s; held that the
link is held down (R237). limit and spent are the sender's credits; adv the receiver's cumulative limit, sentAdv the
limit in its last CREDIT block, taken the credits of accepted packets (R247). farMask is the far receiver's last
WIDTH_REQ, ownMask this receiver's. extra counts the shared cells of each class set aside for advertised credits (R114).
residue holds messages of dead links that this link still has to resend (R256). adding holds lanes being added for transmission, addingRx
for reception. -/
structure LinkRec where
  phase      : Nat
  attempts   : Nat
  slow       : Bool
  held       : Bool
  locked     : Nat
  ready      : Bool
  txShed     : Nat
  rxShed     : Nat
  farMask    : Nat
  ownMask    : Nat
  adding     : Nat
  addingRx   : Nat
  secondTry  : Bool
  entries    : List Entry
  discarding : Bool
  sinceAck   : Nat
  ackDue     : Bool
  lastReplay : Option (Nat × Nat)
  replays    : Nat
  extra      : Four
  limit      : Four
  spent      : Four
  adv        : Four
  sentAdv    : Four
  taken      : Four
  frozen     : Bool
  tko        : Option Takeover
  blockErrs  : List (Nat × Nat)
  residue    : List (Nat × List Word)
  resetBy    : Option Path
  deriving DecidableEq, Repr

structure LinkState where
  recs : Table Nat LinkRec
  deriving DecidableEq, Repr

/-! ### Multi-device fabric -/

/-- A rejoin that this device has accepted (R279): the consecutive periods that brought REJOIN_READY, the periods for
which the device still sets it after the return, and whether a Toll with PEER_DEAD clear is still awaited. -/
structure Rejoin where
  count   : Nat
  fresh   : Bool
  left    : Nat
  waiting : Bool
  deriving DecidableEq, Repr

/-- A MGMT request without an answer yet (R278), and the command that waits for it. -/
structure MgmtReq where
  tag      : Nat
  dev      : DeviceId
  mtype    : Nat
  exportId : Nat
  domain   : Nat
  coherent : Bool
  blocks   : List Nat
  path     : Option Path
  tagBytes : Nat
  deriving DecidableEq, Repr

/-- A MGMT request that this device has answered, kept to answer a repeat again (R278). -/
structure Answered where
  dev    : DeviceId
  tag    : Nat
  mtype  : Nat
  status : Nat
  deriving DecidableEq, Repr

/-- A fabric event record (R300, Table MG-12). -/
structure FabRec where
  seq    : Nat
  ftime  : Nat
  typ    : Nat
  detail : Nat
  deriving DecidableEq, Repr

/-- deaths counts the declared deaths (R276); knells are those received, with their times; tollTx are the TX_TIMEs of
the last four periods on each link; tollRx the TX_TIME and receipt time of the last Toll received on each link;
parentOk says that the last Toll of slot TIME_PARENT carried TIME_VALID; low and high count consecutive exchanges (R274); subst
lists members of bundles whose granules still use the substitute (R271). -/
structure FabState where
  deaths   : Nat
  knells   : List (Nat × Nat × Nat)
  tollTx   : Table Nat (List Nat)
  tollRx   : Table Nat (Nat × Nat)
  parentOk : Bool
  low      : Nat
  high     : Nat
  rejoins  : Table Nat Rejoin
  subst    : List Nat
  requests : List MgmtReq
  answered : List Answered
  tagNext  : BitVec 16
  log      : MLog FabRec
  noRoute  : Nat
  deriving DecidableEq, Repr

/-! ### Management -/

/-- A command that a mailbox holds between its doorbell and its completion (R285). -/
structure Submitted where
  opcode  : Nat
  payload : List Byte
  deriving DecidableEq, Repr

/-- A background operation: its opcode, and its final codes once they are known (R286). -/
structure BgOp where
  opcode : Nat
  result : Option (Nat × Nat)
  deriving DecidableEq, Repr

/-- A fetch slot of the OOB bridge (R302): its 64-byte block, the 16 words once the fetch has ended, and whether data
has been delivered. -/
structure OobSlot where
  block     : Nat
  words     : Option (List (BitVec 32))
  delivered : Bool
  deriving DecidableEq, Repr

/-- The bridge's last result (Table MG-15). -/
structure OobResult where
  status : Nat
  addr   : Nat
  data   : Word
  deriving DecidableEq, Repr

/-- An open firmware transfer (R312): the next offset and the header bytes received. -/
structure Transfer where
  next   : Nat
  header : List Byte
  deriving DecidableEq, Repr

/-- A record of a host's event log: log 0 to 3 are CXL's, 4 the Dynamic Capacity event log. -/
structure EventRec where
  log    : Nat
  handle : Nat
  kind   : Nat
  dpa    : Nat
  length : Nat
  tag    : Nat
  deriving DecidableEq, Repr

/-- A live activation in its window (R314): who asked, and the flash directory to restore. -/
structure Activation where
  path      : Path
  slot      : Nat
  window    : Bool
  preferred : Nat
  trial     : Bool
  deriving DecidableEq, Repr

/-- straps, pins, reset conditions, flash and its directory, mailboxes, MCTP, the bridge, logs and updates. flash maps
(target, slot) to an image: targets 0 firmware, 1 lookup, 2 queue, 3 BCB. inUse gives the slot in use of each target,
verified the slots that END has verified, booted whether the firmware in use was booted or activated from one. -/
structure MgmtState where
  strapAddr  : Nat
  strapBus   : Bool
  porst      : Bool
  wrst       : Bool
  coldHeld   : Bool
  warmHeld   : Bool
  tripHeld   : Bool
  flash      : Table (Nat × Nat) Sys2Proof.Image
  preferred  : Nat
  trial      : Bool
  bcbSlot    : Nat
  inUse      : Table Nat Nat
  verified   : List (Nat × Nat)
  fwVersion  : Nat
  fwSvn      : Nat
  fwUp       : Bool
  bcb        : Option Bcb
  bcbSeq     : Nat
  measured   : List (Nat × BitVec 384)
  submitted  : Table Nat Submitted
  mctpBusy   : List (Nat × Nat)
  bg         : Table Path BgOp
  bgLast     : Table Path (Nat × Nat × Nat)
  transfers  : Table Nat Transfer
  activation : Option Activation
  imageMove  : Table Nat (Nat × Path)
  events     : Table Nat (List EventRec)
  eventNext  : Nat
  policies   : Table Nat (List Byte)
  oobSlots   : List OobSlot
  oobResult  : OobResult
  mctpEid    : Option Nat
  i3cBridge  : Option Nat
  i3cMctp    : Option Nat
  i3cBus     : Bool
  mctpAddr   : Nat
  ioPending  : List (Nat × Nat × Nat)
  deriving DecidableEq, Repr

/-! ### The device, the state, and how a step can stop -/

/-- Everything the specification gives the block. regs lists the registers that differ from their reset values; out is
what the device has sent, oldest first; free counts the open values taken so far. -/
structure Dev where
  regs : Table Reg Word
  pool : PoolState
  dir  : DirState
  sw   : SwitchState
  svc  : SvcState
  port : PortState
  link : LinkState
  fab  : FabState
  mgmt : MgmtState
  sec  : SecState
  pwr  : PwrState
  flt  : FltState
  tel  : TelState
  out  : List Out
  free : Nat
  deriving DecidableEq, Repr

/-- The machine: the device, and the commands waiting, first in first out. -/
structure State where
  dev     : Dev
  pending : Fifo Instr
  deriving DecidableEq, Repr

/-- Faults of a step. -/
inductive Fault
  /-- Raised by no command: the specification gives every command an effect. Safe. -/
  | none
  deriving DecidableEq, Repr

/-- Refusals of a step. -/
inductive Refusal
  /-- Raised by an arm of exec whose command has no meaning yet. Safe: the machine stops. -/
  | notModelled (mnemonic : String)
  deriving DecidableEq, Repr

/-! ### Reset -/

/-- The record of a port that nothing has happened to. -/
def PortRec.reset : PortRec :=
  { run := (0, 0, 0), edges := [], rejects := [], fclr := false, held := false, after := .idle, removal := none
    resetBy := none, timeouts := 0, late := 0, readyOk := false
    l0p := 0
    vppb := { powerOff := false, linkUp := false, presence := false, dllChange := false, dpc := false } }


/-- The record of a link that has not trained. -/
def LinkRec.reset : LinkRec :=
  { phase := 0, attempts := 0, slow := false, held := false, locked := 0, ready := false
    txShed := 0, rxShed := 0, farMask := 15, ownMask := 15
    adding := 0, addingRx := 0, secondTry := false, entries := [], discarding := false, sinceAck := 0, ackDue := false
    lastReplay := none, replays := 0, extra := .zero, limit := .zero, spent := .zero, adv := .zero, sentAdv := .zero, taken := .zero
    frozen := false, tko := none, blockErrs := [], residue := [], resetBy := none }

def MLog.empty (β : Type) : MLog β := { a := [], b := [], seq := 0, overflow := 0 }

def HubTables.empty : HubTables := { sets := [], repair := [], migrations := [], exports := [], imports := [] }

/-- The pool before any BCB: no window, no set, every table row at what an unlisted row holds, every key slot SPENT. -/
def PoolState.reset : PoolState :=
  { windows := [], setCap := [], blocks := ⟨[], []⟩, slots := ⟨[], []⟩, hubA := .empty, hubB := .empty, slotCache := []
    blockCache := [], setCache := [], epoch := 0, inflight := [], keys := [], readyOrder := [], keyGen := 0
    domains := [], extents := [], extentSeq := 0, dcOps := [], fence := none, fenceQueue := []
    notices := [], revoking := false, forcedDue := [], mem := [] }

def DirState.reset : DirState :=
  { entries := [], mru := [], ct := [], retried := [], victims := [], expOps := [], opNext := 0, timeouts := []
    dead := [], sweeps := [], proxyOut := [], psnoops := [], invd := [], datd := [], grantE := [], lostLog := .empty _, turn := ⟨none, []⟩ }

def SwitchState.reset : SwitchState :=
  { msgs := [], linger := [], blocked := [], vtime := [], flast := [], buckets := [], gates := [], lastWait := [], headAt := [], sessions := []
    napping := none, leaving := none, nextId := 0 }

def SvcState.reset : SvcState :=
  { engines := [], slices := [], rings := [], queues := [], channels := [], fwChannels := [], dirty := []
    flr := [], ignoredCi := 0, rounds := [], held := [] }

def FabState.reset : FabState :=
  { deaths := 0, knells := [], tollTx := [], tollRx := [], parentOk := false, low := 0, high := 0, rejoins := [], subst := []
    requests := [], answered := [], tagNext := 0, log := .empty _, noRoute := 0 }

/-- Management at AO reset: cold reset in force, nothing strapped, a blank flash and no image. -/
def MgmtState.reset : MgmtState :=
  { strapAddr := 0, strapBus := false, porst := false, wrst := true, coldHeld := true, warmHeld := false
    tripHeld := false, flash := [], preferred := 0, trial := false, bcbSlot := 0
    inUse := [], verified := [], fwVersion := 0, fwSvn := 0, fwUp := false, bcb := none, bcbSeq := 0, measured := []
    submitted := [], mctpBusy := [], bg := [], bgLast := [], transfers := [], activation := none, imageMove := [], events := []
    eventNext := 0, policies := [], oobSlots := [], oobResult := ⟨0, 0, 0⟩, mctpEid := none, i3cBridge := none
    i3cMctp := none, i3cBus := false, mctpAddr := 0, ioPending := [] }

/-- OTP of a part in BLANK: counters 0, nothing revoked (R334, R339). -/
def Otp.blank : Otp :=
  { lifecycle := 0, serial := 0, bcbKey := [], debugKey := [], counters := [0, 0, 0, 0], revoked := [] }

def SecState.reset : SecState :=
  { otp := .blank, challenge := none, lockRecord := .empty _, masterBad := []
    conns := [], sessions := [], sessionNext := 0, ideKeys := [], aliasHeld := false, fencePaths := [], dl2Pending := none, zeroize := none, noAdds := false }

def PwrState.reset : PwrState :=
  { napExit := [], wakeFrom := [], checkDue := [], wakeMask := 0, timerS := 0, feedTripped := false, feedOut := [], avsHold := 0
    tripOver := false, temps := [] }

def FltState.reset : FltState :=
  { pairs := [], log := .empty _, lastLog0 := [], retirement := .empty _, testDue := [], diesOut := []
    logicOut := [], moving := [], hosts := [], nmiHeld := false }

def TelState.reset : TelState := { latch := [], ftimeHigh := none, tlsForce := [] }

def Dev.reset : Dev :=
  { regs := [], pool := .reset, dir := .reset, sw := .reset, svc := .reset, port := { recs := [], scans := 0 }
    link := { recs := [] }, fab := .reset, mgmt := .reset, sec := .reset, pwr := .reset, flt := .reset, tel := .reset
    out := [], free := 0 }

/-- The machine right after AO reset (R9, R433): every register at its reset value, cold reset in force until
COLD_RESET_RELEASE, no command waiting. -/
def State.reset : State := { dev := .reset, pending := [] }

end Sys2Proof.Machine
end

