-- ==== Sys2Proof/Machine/Ops.lean ====
section
/-! DEFINITION. The named operations that every block shares: registers, what the device sends, open values,
performance counting, reports to Carillon, MSI-X, fabric time, the ACUs and expander memory. -/

namespace Sys2Proof.Machine

/-! ### Registers -/

/-- A register's value: what the file lists, or its reset value (R9). -/
def Dev.reg (d : Dev) (r : Reg) : Word := tgetD d.regs r r.layout.reset

/-- Write a register from inside the device. Reserved bits stay 0 (R5). -/
def Dev.setReg (d : Dev) (r : Reg) (v : Word) : Dev :=
  { d with regs := if v &&& r.mask = r.layout.reset then tdel d.regs r else tset d.regs r (v &&& r.mask) }

/-- The number in bits hi down to lo of a register. -/
def Dev.rd (d : Dev) (r : Reg) (hi lo : Nat) : Nat := getBits (d.reg r) hi lo

/-- Write bits hi down to lo of a register from inside the device. -/
def Dev.wr (d : Dev) (r : Reg) (hi lo n : Nat) : Dev := d.setReg r (setBits (d.reg r) hi lo n)

/-- Bit i of a register. -/
def Dev.bitOf (d : Dev) (r : Reg) (i : Nat) : Bool := d.rd r i i = 1

/-- Add to a field that wraps. -/
def Dev.bumpWrap (d : Dev) (r : Reg) (hi lo n : Nat) : Dev := d.wr r hi lo (d.rd r hi lo + n)

/-- Add to a field that saturates. -/
def Dev.bumpSat (d : Dev) (r : Reg) (hi lo n : Nat) : Dev :=
  d.wr r hi lo (satAdd (2 ^ (hi + 1 - lo) - 1) (d.rd r hi lo) n)

/-- Registers whose reset domain a reset of domain x covers take their reset values (R9). keep names registers that
the event leaves alone. -/
def Dev.resetDomain (d : Dev) (x : ResetDomain) : Dev :=
  { d with regs := d.regs.filter fun e => !x.covers e.1.layout.domain }

/-- One block's registers take their reset values. -/
def Dev.resetRegs (d : Dev) (which : Reg → Bool) : Dev := { d with regs := d.regs.filter fun e => !which e.1 }

/-! ### Sending, open values, time -/

/-- Record something the device sends. -/
def Dev.emit (d : Dev) (o : Out) : Dev := { d with out := d.out ++ [o] }

/-- Record several, in order. -/
def Dev.emits (d : Dev) (os : List Out) : Dev := { d with out := d.out ++ os }

/-- The next open number, and the device that has taken it. -/
def Dev.openNat (d : Dev) : Nat × Dev := (Config.freeNat d.free, { d with free := d.free + 1 })

/-- The next open value of width w. -/
def Dev.openBits (d : Dev) (w : Nat) : BitVec w × Dev := (Config.freeBits w d.free, { d with free := d.free + 1 })

/-- An element of a list that the specification leaves the device to choose; of one element there is no choice. -/
def Dev.choose {α : Type} (d : Dev) : List α → Option α × Dev
  | [] => (none, d)
  | [x] => (some x, d)
  | l => (l[Config.freeNat d.free % l.length]?, { d with free := d.free + 1 })

/-- Fabric time in ns (R274). -/
def Dev.now (d : Dev) : Nat := (d.reg .ftime).toNat

/-! ### Power domains (Table PW-1) -/

def domMgt : Nat := 1
def domKeyv : Nat := 2
def domLife : Nat := 3
def domHub (q : Nat) : Nat := 4 + q
def domTmb (t : Nat) : Nat := 8 + t
def domTdir (t : Nat) : Nat := 24 + t
def domPdie (p : Nat) : Nat := 40 + p
def domQuad (q : Nat) : Nat := 44 + q

/-- State of a power domain: 0 Run, 1 Doze, 2 Nap, 3 Deep, 4 Off (Table PW-11). -/
def Dev.domState (d : Dev) (i : Nat) : Nat := d.rd (.domStatus i) 31 29

def Dev.setDomState (d : Dev) (i st : Nat) : Dev := d.wr (.domStatus i) 31 29 st

/-- Whether HUB quarter q is lost (Table FI-18). -/
def Dev.hubLost (d : Dev) (q : Nat) : Bool := bit (d.rd .retireStatus 11 8) q

/-- State of the domain that holds a register (R418). A hub register is Off only when HUB0 and HUB2 are both lost. -/
def Dev.heldState (d : Dev) : Held → Nat
  | .ao => 0
  | .hub => if d.hubLost 0 && d.hubLost 2 then 4 else if d.domState (domHub 0) = 4 && d.domState (domHub 2) = 4 then 4 else 0
  | .mgt => d.domState domMgt
  | .keyv => d.domState domKeyv
  | .tmb t => d.domState (domTmb t)
  | .pdie p => d.domState (domPdie p)

/-- Whether the device is in AO-ONLY (Table PW-15). -/
def Dev.aoOnly (d : Dev) : Bool := d.bitOf .sleepCtl 30

/-- Whether the DRBG is seeded and healthy (R330). -/
def Dev.drbgOk (d : Dev) : Bool := d.bitOf .keyStatus 31

/-- Whether the logic of Tambour t is in service (R395). -/
def Dev.logicUp (d : Dev) (t : Nat) : Bool := !d.flt.logicOut.contains t

/-- The temperature record of a die; 4 is the core die (R459). -/
def Dev.temp (d : Dev) (die : Nat) : Temp := tgetD d.pwr.temps die ⟨0, false, false, false⟩

/-- Whether the core die throttles (Table ET-9). -/
def Dev.throttled (d : Dev) : Bool := (d.temp 4).throttle

/-- Whether the device is in the safe state (R387). -/
def Dev.safe (d : Dev) : Bool := d.bitOf .faultStat 31

/-- A wake event returns a sleeping domain toward Run; the work that woke it waits until it accepts work (R354). -/
def Dev.wake (d : Dev) (i : Nat) : Dev :=
  let st := d.domState i
  if 1 ≤ st ∧ st ≤ 3 ∧ (tget d.pwr.wakeFrom i).isNone then { d with pwr := { d.pwr with wakeFrom := tset d.pwr.wakeFrom i st } } else d

/-! ### Reports to Carillon -/

/-- The power domain whose isolation cells drive a source's pair (R379); 0 for sources of the AO island. -/
def sourceDomain (n : Nat) : Nat :=
  if n < 0x100 then (if n % 16 = 11 then domTdir (n / 16) else domTmb (n / 16))
  else if n < 0x200 then (if n % 4 = 3 then 0 else domPdie ((n - 0x100) / 64))
  else if n < 0x240 then domPdie ((n - 0x200) / 16)
  else if n < 0x280 then domPdie ((n - 0x240) / 16)
  else if 0x300 ≤ n ∧ n < 0x304 then domMgt
  else if 0x380 ≤ n ∧ n < 0x384 then domHub (n - 0x380)
  else if 0x384 ≤ n ∧ n < 0x388 then domHub (n - 0x384)
  else 0

/-- A source raises an event of a class with 96 bits of detail (R378, R380). A sleeping or lost domain raises nothing
(R379); an event while the pair already reads fault is counted and not read. -/
def Dev.report (d : Dev) (src cls detail : Nat) : Dev :=
  if 2 ≤ d.domState (sourceDomain src) then d
  else
    match (tgetD d.flt.pairs src ⟨.normal, 0, 0⟩).code with
    | .normal => { d with flt := { d.flt with pairs := tset d.flt.pairs src ⟨.fault, cls, detail % 2 ^ 96⟩ } }
    | _ => d.bumpSat (.srcStatus src) 31 0 1

/-! ### Performance counting -/

/-- Event codes of Table TM-2 by kind: some false for kind E, some true for kind O, none for a reserved code. -/
def eventKind (ev : Nat) : Option Bool :=
  let l := ev % 0x1000
  match ev / 0x1000 with
  | 1 =>
    if l < 0x20 then some false else if l < 0x30 then some true else if l < 0x34 then some false
    else if l = 0x34 then some true else if 0x38 ≤ l ∧ l < 0x42 then some false else none
  | 2 => if l < 0xB then some false else if l < 0xF then some true else if l = 0xF then some false else none
  | 3 =>
    if l < 0xD then some false else if l = 0xD then some true else if l = 0x10 ∨ l = 0x11 then some false else none
  | 4 => if l = 4 then some true else if l < 7 then some false else none
  | 5 => if l < 0xB then some false else none
  | 6 => if l < 0x10 then some false else none
  | 7 => if l < 3 ∨ (0x10 ≤ l ∧ l < 0x42) then some false else none
  | 8 =>
    if l < 0xD then some false else if l = 0xD then some true else if l = 0xE then some false
    else if 0x10 ≤ l ∧ l < 0x19 then some false else none
  | 9 =>
    if l = 1 ∨ l = 7 ∨ l = 8 then some true else if l < 7 then some false else none
  | _ => none

/-- Whether PMU u serves an event code (Table TM-1, R407). -/
def pmuServes (u ev : Nat) : Bool :=
  (eventKind ev).isSome &&
    (let c := ev / 0x1000
     if u < 16 then decide (1 ≤ c ∧ c ≤ 6) else if u < 20 then decide (c = 7)
     else if u < 36 then decide (c = 8) else decide (c = 9))

/-- The Carillon source of PMU u's overflow (Table TM-1). -/
def pmuSource (u : Nat) : Nat :=
  if u < 16 then 16 * u + 13 else if u < 20 then 0x240 + 16 * (u - 16) + 2
  else if u < 36 then 0x200 + 4 * (u - 20) + 1 else 0x304

/-- A programmable counter takes an increment: it wraps past 2^48 - 1 and sets OVF, and with IRQ it raises a class 0
event (R407). -/
def Dev.addCounter (d : Dev) (u i n : Nat) : Dev :=
  let v := (d.reg (.pmcCnt u i)).toNat + n
  let d' := d.setReg (.pmcCnt u i) (BitVec.ofNat 64 (v % 2 ^ 48))
  if v < 2 ^ 48 then d'
  else
    let d'' := d'.wr (.pmcStatus u) i i 1
    if d.bitOf (.pmcEvsel u i) 61 then d''.report (pmuSource u) 0 i else d''

/-- An event of value n in one cycle reaches PMU u's counters (R405, R406): a PMU counts in Run and Doze, and FREEZE
stops the programmable counters. -/
def Dev.count (d : Dev) (u ev n : Nat) : Dev :=
  if 2 ≤ d.heldState (pmuHeld u) || d.bitOf .pmcGlbCtl 31 || !pmuServes u ev then d
  else
    (List.range 8).foldl
      (fun d i =>
        let e := d.reg (.pmcEvsel u i)
        if getBits e 63 63 = 1 ∧ getBits e 15 0 = ev then
          if getBits e 62 62 = 0 then d.addCounter u i n
          else if getBits e 51 32 < n then d.addCounter u i 1 else d
        else d) d

/-! ### MSI-X -/

/-- Send an MSI-X message of function f, vector v: a masked vector sets its Pending bit instead (R197, R421). -/
def Dev.msix (d : Dev) (f v : Nat) : Dev :=
  if d.bitOf (.msixData f v) 32 then d.wr (.msixPba f (v / 64)) (v % 64) (v % 64) 1 else d.emit (.msix f v)

/-- The designated fabric-manager ports (PRT.CFG.FM_PORT). -/
def Dev.fmPorts (d : Dev) : List Nat :=
  (List.range 64).filter fun p => d.rd (.prtCfg p) 31 28 = 1 && d.bitOf (.prtCfg p) 25

/-- The Management Endpoint's vector v goes out of every designated fabric-manager port's function 2 (R284, R421). -/
def Dev.mgmtVector (d : Dev) (v : Nat) : Dev := d.fmPorts.foldl (fun d p => d.msix (128 + p) v) d

/-! ### Port modes and states -/

/-- PRT.CFG.MODE: 0 unused, 1 HOST, 2 POOL, 3 PASS. -/
def Dev.portMode (d : Dev) (p : Nat) : Nat := d.rd (.prtCfg p) 31 28

/-- PRT.STATUS.STATE (Table CP-5). -/
def Dev.portState (d : Dev) (p : Nat) : Nat := d.rd (.prtStatus p) 31 28

/-- The HOST ports. -/
def Dev.hostPorts (d : Dev) : List Nat := (List.range 64).filter fun p => d.portMode p = 1

/-- Whether the host on port p has DC region 1: 256-byte flits and Back-Invalidate (R27, R33). -/
def Dev.hasBi (d : Dev) (p : Nat) : Bool := d.bitOf (.prtStatus p) 14 && d.bitOf (.prtStatus p) 15

/-- STL.STATUS.STATE (Table ST-5): 0 OFF, 1 TRAIN, 2 ACTIVE, 3 DOWN, 4 FAILED, 5 ANALYSIS. -/
def Dev.linkState (d : Dev) (s : Nat) : Nat := d.rd (.stlStatus s) 31 28

/-- The neighbour slot of Stitch link s (STL.CFG.NSLOT). -/
def Dev.linkSlot (d : Dev) (s : Nat) : Nat := d.rd (.stlCfg s) 23 20

/-- This device's Device ID. -/
def Dev.devId (d : Dev) : Nat := d.rd .fabCfg 10 0

/-- Whether the fabric runs Compact (R96). -/
def Dev.compact (d : Dev) : Bool := !d.bitOf .fabCfg 31

/-! ### Logs kept on two port dies -/

/-- Append a record to both copies, or to the one whose die is in service (R103, R386); a full log counts the record
it cannot store. -/
def MLog.append {β : Type} (l : MLog β) (cap dieA dieB : Nat) (out : List Nat) (rec : β) : MLog β × Bool :=
  if cap ≤ max l.a.length l.b.length then ({ l with overflow := l.overflow + 1 }, false)
  else
    ({ a := if out.contains dieA then l.a else l.a ++ [rec]
       b := if out.contains dieB then l.b else l.b ++ [rec]
       seq := l.seq + 1, overflow := l.overflow }, true)

/-- The copy a log is read from: the first whose die is in service. -/
def MLog.live {β : Type} (l : MLog β) (dieA : Nat) (out : List Nat) : List β := if out.contains dieA then l.b else l.a

end Sys2Proof.Machine
end

