-- ==== Sys2Proof/Machine/Retire.lean ====
section
/-! DEFINITION. The retirement record (R391) and CRL.RETIRE_STATUS (Table FI-18). -/

namespace Sys2Proof.Machine

/-- The record of a resource, read from the first copy whose port die is in service. -/
def Dev.retireRec (d : Dev) (r : Resource) (i : Nat) : RetireRec :=
  (((d.flt.retirement.live 1 d.flt.diesOut).find? fun x => decide (x.1 = r ∧ x.2.1 = i)).map (·.2.2)).getD ⟨false, []⟩

def Dev.isRetired (d : Dev) (r : Resource) (i : Nat) : Bool := (d.retireRec r i).retired

/-- A list of records with one of them replaced, or added. -/
def putRecord (l : List (Resource × Nat × RetireRec)) (r : Resource) (i : Nat) (x : RetireRec) : List (Resource × Nat × RetireRec) :=
  (l.filter fun y => !decide (y.1 = r ∧ y.2.1 = i)) ++ [(r, i, x)]

/-- Retired resources of a kind. -/
def Dev.retiredOf (d : Dev) (r : Resource) : List Nat :=
  ((d.flt.retirement.live 1 d.flt.diesOut).filter fun x => decide (x.1 = r) && x.2.2.retired).map (·.2.1)

/-- A number with a set of its bits. -/
def maskOf (l : List Nat) : Nat := (l.dedup.map fun i => 2 ^ i).sum

/-- The counts and masks of CRL.RETIRE_STATUS follow the record; HUB_LOST is written where a quarter is lost or returns. -/
def Dev.showRetired (d : Dev) : Dev :=
  let d := d.wr .retireStatus 63 48 (maskOf (d.retiredOf .tambour))
  let d := d.wr .retireStatus 47 32 (maskOf (d.retiredOf .tdir))
  let d := d.wr .retireStatus 31 24 (min 255 (d.retiredOf .engine).length)
  let d := d.wr .retireStatus 23 16 (d.retiredOf .channel).length
  d.wr .retireStatus 15 12 (d.retiredOf .bank).length

/-- Write a resource's record to the copies in service (R386). -/
def Dev.setRetireRec (d : Dev) (r : Resource) (i : Nat) (x : RetireRec) : Dev :=
  let m := d.flt.retirement
  let a := if d.flt.diesOut.contains 1 then m.a else putRecord m.a r i x
  let b := if d.flt.diesOut.contains 3 then m.b else putRecord m.b r i x
  ({ d with flt := { d.flt with retirement := { m with a := a, b := b } } }).showRetired

end Sys2Proof.Machine
end

