-- ==== Sys2Proof/Machine/Shown.lean ====
section
/-! DEFINITION. Status registers and pins that show the device's state at every instant: free cells, key slots, pending faults and
FAULT_B; and how a command's effect becomes a next state (R5, R109, R382, Tables PS-9, FI-17). -/

namespace Sys2Proof.Machine

/-! ### Free cells -/

/-- The HUB quarters in the buffer, as a mask. -/
def Dev.quartersIn (d : Dev) : Nat := d.rd .bufStatus 31 28

/-- Cells of the quarters in the buffer: 65,536 each, in 16 banks, less those of retired banks (R391). -/
def Dev.cellsIn (d : Dev) : Nat :=
  65536 * (bitsSet d.quartersIn 4).length - 4096 * ((d.retiredOf .bank).filter fun b => bit d.quartersIn (b / 16)).length

/-- The messages that hold cells: those in the buffer, and those that a mirror session has still to read (R129). -/
def Dev.holding (d : Dev) : List Msg := d.sw.msgs ++ d.sw.linger

def Dev.cellsUsed (d : Dev) : Nat := (d.holding.map (·.cells)).sum

/-- GLB.BUF_STATUS.FREE_CELLS follows the buffer (log entry 31). -/
def Dev.showCells (d : Dev) : Dev := d.wr .bufStatus 18 0 (d.cellsIn - d.cellsUsed)

/-! ### Key slots -/

/-- Key slots 1 to 4,095 in ACTIVE. -/
def Dev.activeKeys (d : Dev) : Nat :=
  (d.pool.keys.filter fun e => decide (1 ≤ e.1) && (match e.2 with
    | .active _ => true
    | _ => false)).length

/-- Key slots in READY. -/
def Dev.readyKeys (d : Dev) : Nat := (d.pool.keys.filter fun e => decide (e.2 = .ready)).length

/-- KEY.STATUS.ACTIVE and READY follow the key slots (Table PS-9). -/
def Dev.showKeys (d : Dev) : Dev := (d.wr .keyStatus 27 16 d.activeKeys).wr .keyStatus 11 0 d.readyKeys

/-! ### Faults and FAULT_B -/

/-- OOB.BOOT.STAGE. -/
def Dev.stage (d : Dev) : Nat := d.rd .oobBoot 31 28

/-- Sources whose SRC_STATUS is not at its reset value. -/
def Dev.raisedSources (d : Dev) : List Nat :=
  d.regs.filterMap fun e => match e.1 with
    | .srcStatus n => some n
    | _ => none

/-- Sources with PENDING set. -/
def Dev.pendingSources (d : Dev) : List Nat := d.raisedSources.filter fun n => d.bitOf (.srcStatus n) 63

/-- Whether the device holds FAULT_B low: a pending source with PIN, the safe state, RECOVERY, or a thermal trip (R382, R460). -/
def Dev.pulls (d : Dev) : Bool :=
  (d.pendingSources.any fun n => d.bitOf (.srcCfg n) 16) || d.safe || decide (d.stage = 8) || d.mgmt.tripHeld

/-- FAULT_STAT follows the sources, and FAULT_B is driven or released; pin 0 is FAULT_B. -/
def Dev.showFaults (d : Dev) : Dev :=
  let l := d.pendingSources
  let d := d.wr .faultStat 15 0 l.length
  let d := d.wr .faultStat 25 24 ((l.map fun n => d.rd (.srcStatus n) 58 57).foldl max 0)
  let low := d.pulls
  if low = d.bitOf .faultStat 27 then d else (d.wr .faultStat 27 27 (if low then 1 else 0)).emit (.pin 0 (!low))

/-! ### A command's effect -/

/-- What the status registers show follows the state. -/
def Dev.shown (d : Dev) : Dev := d.showKeys.showCells.showFaults

/-- A command's effect on the device, as exec answers it: the next state, its status registers up to date, the queue untouched. -/
def onDev (s : State) (f : Dev → Dev) : Host.Outcome State Fault Refusal := .next { s with dev := (f s.dev).shown }

end Sys2Proof.Machine
end

