-- ==== Sys2Proof/Machine/Commands.lean ====
section
/-! DEFINITION. How a management command is taken and completed on each path: mailboxes, MCTP, background operations,
the checks that come before a command's own rules, and fabric event records (R283 to R289, R300, R310, R314). -/

namespace Sys2Proof.Machine

/-! ### Return codes (Table MG-3a; the standard codes are CXL 3.1's) -/

def rcSuccess : Nat := 0
def rcBackground : Nat := 1
def rcInvalid : Nat := 2
def rcUnsupported : Nat := 3
def rcBusy : Nat := 4
def rcNoResource : Nat := 5
def rcPermission : Nat := 6
def rcConflict : Nat := 7
def rcIntegrity : Nat := 8
def rcLocked : Nat := 9
def rcTimeout : Nat := 10
def rcNotFound : Nat := 11
def rcAlignment : Nat := 12

/-- CXL's Internal Error and Busy (PRESUMED from CXL 3.1, log entry 20). -/
def cxlInternalError : Nat := 4
def cxlBusy : Nat := 6

/-! ### Mailbox registers -/

/-- The mailbox of a path: 0 to 63 the Pool Device of a port, 64 the FM mailbox. -/
def mailboxOf : Path → Option Nat
  | .pool p => some p.val
  | .fm => some 64
  | _ => none

/-- Bytes of MBX.PAYLOAD. -/
def Dev.payload (d : Dev) (m len : Nat) : List Byte :=
  (List.range len).map fun i => BitVec.ofNat 8 ((d.reg (.mbxPayload m (i / 8))).toNat / 256 ^ (i % 8))

/-- Write the output payload from byte 0; later bytes keep what they held. -/
def Dev.writePayload (d : Dev) (m : Nat) (out : List Byte) : Dev :=
  (List.range (ceilDiv out.length 8)).foldl
    (fun d i =>
      let chunk := slice out (8 * i) 8
      let old := (d.reg (.mbxPayload m i)).toNat
      let k := 256 ^ chunk.length
      d.setReg (.mbxPayload m i) (BitVec.ofNat 64 (ofBytes chunk + old / k * k))) d

/-- An interrupt of a mailbox: vector 0 and 1 of the Management Endpoint, or the Pool Device's own numbers (R284). -/
def Dev.mailboxIrq (d : Dev) (m which : Nat) : Dev :=
  if m = 64 then d.mgmtVector which else d.msix m (Config.mailboxVector which % 128)

/-- The MCTP message type of a command: 1 for the CXL Component Command Interface, 0 for the FM API (R287). -/
def mctpType (opcode : Nat) : Nat := if 0xC000 ≤ opcode then 1 else 0

/-- Complete a command in the foreground: outputs and codes first, then DOORBELL clears (R285, R287). -/
def Dev.complete (d : Dev) (path : Path) (opcode rc vendor : Nat) (out : List Byte) : Dev :=
  let d := (d.emit (.cmdDone path opcode rc vendor out)).count 36 0x9000 1
  match mailboxOf path with
  | some m =>
    let d := (d.writePayload m out).wr (.mbxCmd m) 36 16 out.length
    let d := ((d.wr (.mbxStatus m) 47 32 rc).wr (.mbxStatus m) 63 48 vendor).wr (.mbxCtl m) 0 0 0
    let d := { d with mgmt := { d.mgmt with submitted := tdel d.mgmt.submitted m } }
    if d.bitOf (.mbxCtl m) 1 then d.mailboxIrq m 0 else d
  | none =>
    match path with
    | .mctp eid =>
      { d with mgmt := { d.mgmt with mctpBusy := d.mgmt.mctpBusy.filter fun e => !decide (e = (eid, mctpType opcode)) } }
    | _ => d

/-- Complete with a code alone. -/
def Dev.finish (d : Dev) (path : Path) (opcode rc : Nat) : Dev := d.complete path opcode rc 0 []

/-! ### Background operations (R286) -/

/-- Whether a path's mailbox (for MCTP, its endpoint) runs a background operation. -/
def Dev.bgRunning (d : Dev) (path : Path) : Bool := (tget d.mgmt.bg path).isSome

/-- Start a background operation: the command completes with BACKGROUND_STARTED and no payload. -/
def Dev.bgStart (d : Dev) (path : Path) (opcode : Nat) : Dev :=
  let d := { d with mgmt := { d.mgmt with bg := tset d.mgmt.bg path ⟨opcode, none⟩ } }
  let d := match mailboxOf path with
    | some m => (((d.wr (.mbxStatus m) 0 0 1).wr (.mbxBgStatus m) 15 0 opcode).wr (.mbxBgStatus m) 22 16 0)
    | none => d
  d.finish path opcode rcBackground

/-- Start one unless the path already runs one, in which case the command completes with BUSY and body does not run. -/
def Dev.background (d : Dev) (path : Path) (opcode : Nat) (body : Dev → Dev) : Dev :=
  if d.bgRunning path then d.finish path opcode rcBusy else body (d.bgStart path opcode)

/-- The final codes of a path's background operation are known. -/
def Dev.bgResult (d : Dev) (path : Path) (rc vendor : Nat) : Dev :=
  { d with mgmt := { d.mgmt with bg := tmod d.mgmt.bg path fun b => { b with result := some (rc, vendor) } } }

/-- Start a background operation whose outcome is already fixed. -/
def Dev.bgWith (d : Dev) (path : Path) (opcode rc vendor : Nat) (body : Dev → Dev) : Dev :=
  d.background path opcode fun d => (body d).bgResult path rc vendor

/-- A background operation with a known result ends: MBX.BG_STATUS holds it and MBX.PAYLOAD is not touched (R286). -/
def Dev.bgEnd (d : Dev) (path : Path) : Dev :=
  match tget d.mgmt.bg path with
  | some ⟨opcode, some (rc, vendor)⟩ =>
    let d := { d with mgmt := { d.mgmt with
      bg := tdel d.mgmt.bg path, bgLast := tset d.mgmt.bgLast path (opcode, rc, vendor) } }
    match mailboxOf path with
    | some m =>
      let d := ((d.wr (.mbxBgStatus m) 63 48 vendor).wr (.mbxBgStatus m) 47 32 rc).wr (.mbxBgStatus m) 22 16 100
      let d := (d.wr (.mbxBgStatus m) 15 0 opcode).wr (.mbxStatus m) 0 0 0
      if d.bitOf (.mbxCtl m) 2 then d.mailboxIrq m 1 else d
    | none => d
  | _ => d

/-! ### Which commands a path may carry (Table MG-6, R292, R310, R314) -/

/-- Classes of Stoluo commands. -/
inductive CmdClass
  | h | f | s
  deriving DecidableEq, Repr

/-- Table MG-6. -/
def cmdClass (opcode : Nat) : Option CmdClass :=
  if [0xC000, 0xC020, 0xC021, 0xC022, 0xC023].contains opcode then some .h
  else if [0xC001, 0xC010, 0xC011, 0xC012, 0xC013, 0xC014, 0xC015, 0xC018, 0xC019, 0xC01A, 0xC024, 0xC030, 0xC031,
      0xC032, 0xC038, 0xC039, 0xC040, 0xC041, 0xC050, 0xC051, 0xC052, 0xC058, 0xC070, 0xC078, 0xC079].contains opcode
    then some .f
  else if 0xC060 ≤ opcode ∧ opcode ≤ 0xC067 then some .s
  else none

/-- The paths that carry a class (R292): JTAG carries the three debug commands alone. -/
def pathCarries (path : Path) (opcode : Nat) (c : CmdClass) : Bool :=
  match path with
  | .pool _ => decide (c = .h)
  | .jtag => decide (0xC064 ≤ opcode ∧ opcode ≤ 0xC066)
  | _ => true

/-- Whether the management cores are halted under DL2 (Table PS-21). -/
def Dev.halted (d : Dev) : Bool := d.bitOf .secStatus 24

/-- Whether firmware runs, so that work of its own can go on (R17). -/
def Dev.fwRuns (d : Dev) : Bool :=
  d.mgmt.fwUp && !d.halted && !d.mgmt.coldHeld && !d.mgmt.warmHeld && decide (d.domState domMgt ≤ 1)

/-- Whether anything serves a command on a path: firmware, or in RECOVERY the ROM; nothing completes while a reset runs, MGT is
off or the cores are halted (Table MG-1, R310, R315, R346). The security block serves DEBUG_LOCK (R343). -/
def Dev.serves (d : Dev) (path : Path) (opcode : Nat) : Bool :=
  if d.mgmt.coldHeld then false
  else if opcode = 0xC066 ∧ (path = .jtag ∨ d.halted) then true
  else if d.halted then false
  else if d.stage = 8 then path = .fm || path = .jtag
  else d.mgmt.fwUp && !d.mgmt.warmHeld && decide (d.domState domMgt ≤ 1)

/-- The update commands (Table MG-13). -/
def isUpdate (opcode : Nat) : Bool := decide (0xC050 ≤ opcode ∧ opcode ≤ 0xC052)

/-- Whether a live activation is in its window (R314). -/
def Dev.inWindow (d : Dev) : Bool :=
  match d.mgmt.activation with
  | some a => a.window
  | none => false

/-- In DEPLOYED the BCB names the paths, FM mailbox and MCTP, that carry class S (R336). -/
def Dev.securityPath (d : Dev) (path : Path) (c : CmdClass) : Bool :=
  if c = .s ∧ d.sec.otp.lifecycle = 2 then
    match path with
    | .fm => d.bitOf .secStatus 21
    | .mctp _ => d.bitOf .secStatus 22
    | _ => true
  else true

/-- The Stoluo commands that the safe state serves (Table FI-8): GET_INFO, REG_READ, LOG_READ, FAULT_CLEAR. -/
def servedInSafe (opcode : Nat) : Bool := [0xC000, 0xC001, 0xC040, 0xC078].contains opcode

/-- The checks of R288 that need no payload: the code of the first that fails. live is false for FW_ACTIVATE in MODE 0. -/
def Dev.refusal (d : Dev) (path : Path) (opcode : Nat) (live : Bool) : Option Nat :=
  if d.inWindow && path ≠ .jtag then some rcBusy
  else if d.stage = 8 ∧ path ≠ .jtag ∧ ¬(opcode = 0xC000 ∨ opcode = 0xC050 ∨ (opcode = 0xC051 ∧ live = false)) then
    some rcUnsupported
  else
    match cmdClass opcode with
    | none => some rcUnsupported
    | some c =>
      if !pathCarries path opcode c || !d.securityPath path c then some rcPermission
      else if d.safe && !servedInSafe opcode then some rcConflict
      else if d.stage = 9 ∧ ¬(opcode = 0xC000 ∨ isUpdate opcode ∨ opcode = 0xC040) ∧ path ≠ .jtag then some rcConflict
      else none

/-- A Stoluo command: nothing where nothing serves it; else the first failing check of R288 gives the code, and the
command's own rules run only when every check has passed. -/
def Dev.stoluo (d : Dev) (path : Path) (opcode : Nat) (live inputOk : Bool) (body : Dev → Dev) : Dev :=
  if !d.serves path opcode then d
  else
    match d.refusal path opcode live with
    | some rc => d.finish path opcode rc
    | none => if inputOk then body d else d.finish path opcode rcInvalid

/-- A standard CXL or FM-API command: served by firmware only; BUSY in the activation window; in NO_BCB every one but
Identify answers Internal Error (R310), in the safe state every one but Identify and Background Operation Status (Table FI-8). -/
def Dev.standard (d : Dev) (path : Path) (opcode : Nat) (body : Dev → Dev) : Dev :=
  if !d.serves path opcode then d
  else if d.inWindow then d.finish path opcode cxlBusy
  else if d.stage = 8 then d.finish path opcode rcUnsupported
  else if d.stage = 9 ∧ opcode ≠ 1 then d.finish path opcode cxlInternalError
  else if d.safe ∧ opcode ≠ 1 ∧ opcode ≠ 2 then d.finish path opcode cxlInternalError
  else body d

/-- The host that a class H command names: the issuing port on the Pool Device mailbox, where HOST must be 0 (R292). -/
def hostOf (path : Path) (input : List Byte) : Option Nat :=
  match path with
  | .pool p => if field input 0 1 = 0 then some p.val else none
  | _ => if field input 0 1 < 64 then some (field input 0 1) else none

/-- Bytes of a command output whose contents are the standard's (log entry 21). -/
def Dev.standardOut (d : Dev) (opcode n : Nat) : List Byte := (List.range n).map (Config.standardByte (opcode + 65536 * d.free))

/-! ### Fabric event records (R300) -/

/-- Write a fabric event record of a type with its DETAIL (120 bits) to the log of dies P0 and P2, and signal it on
vector 2. -/
def Dev.fabricEvent (d : Dev) (typ detail : Nat) : Dev :=
  let (l, _) := d.fab.log.append 4096 0 2 d.flt.diesOut ⟨d.fab.log.seq, d.now, typ, detail⟩
  ({ d with fab := { d.fab with log := l } }).mgmtVector 2

/-- A field of DETAIL, whose bits the specification numbers [151:32] of the record. -/
def det (lo v : Nat) : Nat := v * 2 ^ (lo - 32)

/-! ### Messages to a host's event logs -/

/-- Place a record in an event log of a host (Table PB-9, Table PB-10). -/
def Dev.hostEvent (d : Dev) (p log kind dpa len tag : Nat) : Dev :=
  let r : EventRec := ⟨log, d.mgmt.eventNext + 1, kind, dpa, len, tag⟩
  ({ d with mgmt := { d.mgmt with
      eventNext := d.mgmt.eventNext + 1, events := tset d.mgmt.events p (tgetD d.mgmt.events p [] ++ [r]) } }).emit
    (.eventRecord p log kind dpa)

end Sys2Proof.Machine

namespace Sys2Proof

/-- The number of one message class. -/
def Four.get (f : Four) : MsgClass → Nat
  | .req => f.req
  | .rsp => f.rsp
  | .snp => f.snp
  | .mgt => f.mgt

/-- The numbers with that of one class changed. -/
def Four.put (f : Four) (c : MsgClass) (v : Nat) : Four :=
  match c with
  | .req => { f with req := v }
  | .rsp => { f with rsp := v }
  | .snp => { f with snp := v }
  | .mgt => { f with mgt := v }

end Sys2Proof
end

