-- ==== Sys2Proof/Machine/Wire.lean ====
section
/-! DEFINITION. What crosses a Stitch link: control blocks with their CRC-12, packets with their CRC-32, the message
header, and the words of Toll, Knell and management messages (R232, R238 to R241, R272, R276, R278). -/

namespace Sys2Proof.Machine

/-! ### Control blocks (R232) -/

/-- One bit of the CRC-12, most significant bit first, polynomial x^12 + x^11 + x^3 + x^2 + x + 1. -/
def crc12Step (c : Nat) (b : Bool) : Nat :=
  let top := c.testBit 11
  let c := c * 2 % 4096
  if top != b then c ^^^ 0x80F else c

/-- The CRC-12 over bits [63:12] of a body: initial value 0xFFF, no final inversion. -/
def crc12 (body : Nat) : Nat :=
  ((List.range 52).map fun i => body.testBit (63 - i)).foldl crc12Step 0xFFF

/-- A control block body with a type and a field area [55:12]. -/
def controlBlock (ctype fields : Nat) : Word :=
  let v := ctype * 2 ^ 56 + fields
  BitVec.ofNat 64 (v + crc12 v)

/-- The body of an ALIGN block. -/
def alignBlock : Word := 0xA55AC33C0FF09669

def ackBlock (seq : Nat) : Word := controlBlock 0x02 (seq * 2 ^ 44)
def nakBlock (seq : Nat) : Word := controlBlock 0x03 (seq * 2 ^ 44)
def creditBlock (f : Four) : Word :=
  controlBlock 0x04 (f.req % 2048 * 2 ^ 45 + f.rsp % 2048 * 2 ^ 34 + f.snp % 2048 * 2 ^ 23 + f.mgt % 2048 * 2 ^ 12)
def replayBlock (seq : Nat) : Word := controlBlock 0x05 (seq * 2 ^ 44)
def widthReqBlock (mask : Nat) : Word := controlBlock 0x08 (mask * 2 ^ 52)
def widthReadyBlock (mask : Nat) : Word := controlBlock 0x09 (mask * 2 ^ 52)
def widthSetBlock (mask : Nat) : Word := controlBlock 0x0A (mask * 2 ^ 52)
def takeoverBlock (dead event last : Nat) : Word := controlBlock 0x0C (dead * 2 ^ 52 + event * 2 ^ 44 + last * 2 ^ 32)
def linkupBlock (dev link rate tx rx : Nat) : Word :=
  controlBlock 0x11 (dev * 2 ^ 45 + link * 2 ^ 41 + rate * 2 ^ 40 + tx * 2 ^ 36 + rx * 2 ^ 32)
def recBlock (words session : Nat) : Word := controlBlock 0x18 (words * 2 ^ 40 + session * 2 ^ 36)

/-! ### Packets (R238, R239, Table ST-7) -/

def classCode : MsgClass → Nat
  | .req => 0
  | .rsp => 1
  | .snp => 2
  | .mgt => 3

def codeClass (n : Nat) : MsgClass := if n = 0 then .req else if n = 1 then .rsp else if n = 2 then .snp else .mgt

/-- The bytes of words, each little-endian. -/
def wordBytes (ws : List Word) : List Byte := ws.flatMap fun w => toBytes 8 w.toNat

/-- The link header of a packet without its CRC. -/
def linkHeader (c : MsgClass) (len seq : Nat) : Word :=
  BitVec.ofNat 64 (classCode c * 2 ^ 62 + len % 64 * 2 ^ 56 + seq % 4096 * 2 ^ 44)

/-- A packet: link header with the CRC over all words, then the message. -/
def packet (c : MsgClass) (seq : Nat) (msg : List Word) : List Word :=
  let h := linkHeader c (msg.length + 1) seq
  (h ||| BitVec.ofNat 64 (crc32 (wordBytes (h :: msg)))) :: msg

/-- Whether a received packet's LEN and CRC are good (R239, R240). -/
def packetGood (ws : List Word) : Bool :=
  match ws with
  | [] => false
  | h :: msg =>
    let len := getBits h 61 56
    decide (1 ≤ len ∧ len ≤ 34 ∧ len = ws.length) &&
      decide (crc32 (wordBytes (setBits h 31 0 0 :: msg)) = getBits h 31 0)

/-- Credits of a packet of LEN words (R247). -/
def packetCost (len : Nat) : Nat := 2 * ceilDiv len 16

/-! ### Messages (Table ST-7, Table ST-8): word 1 first -/

def word (ws : List Word) (i : Nat) : Word := ws.getD i 0
def msgOp (ws : List Word) : Nat := getBits (word ws 0) 63 58
def msgSrc (ws : List Word) : Nat := getBits (word ws 0) 57 47
def msgDst (ws : List Word) : Nat := getBits (word ws 0) 46 36
def msgTag (ws : List Word) : Nat := getBits (word ws 0) 35 20
def msgDomain (ws : List Word) : Nat := getBits (word ws 0) 19 8
def msgStatus (ws : List Word) : Nat := getBits (word ws 1) 62 60
def msgLine (ws : List Word) : Nat := getBits (word ws 1) 39 0

/-- Words 1 and 2 of a message. -/
def msgHead (op src dst tag domain wait : Nat) (poison : Bool) (status : Nat) (rsv : Bool) (line : Nat) : List Word :=
  [BitVec.ofNat 64 (op % 64 * 2 ^ 58 + src % 2048 * 2 ^ 47 + dst % 2048 * 2 ^ 36 + tag % 65536 * 2 ^ 20 +
      domain % 4096 * 2 ^ 8 + min 255 wait),
   BitVec.ofNat 64 ((if poison then 2 ^ 63 else 0) + status % 8 * 2 ^ 60 + (if rsv then 2 ^ 59 else 0) + line % 2 ^ 40)]

/-- The class of an operation; none for a reserved one. -/
def opClass (op : Nat) : Option MsgClass :=
  if 0x01 ≤ op ∧ op ≤ 0x0A then some .req
  else if (0x10 ≤ op ∧ op ≤ 0x12) ∨ op = 0x1F then some .snp
  else if 0x20 ≤ op ∧ op ≤ 0x25 then some .rsp
  else if op = 0x30 ∨ op = 0x31 then some .mgt
  else none

/-- Whether an operation is coherent (R267). -/
def opCoherent (op : Nat) : Bool :=
  decide ((0x01 ≤ op ∧ op ≤ 0x07) ∨ (0x10 ≤ op ∧ op ≤ 0x12) ∨ (0x20 ≤ op ∧ op ≤ 0x24))

/-- Whether a message carries a line: every operation but Toll, Knell and management. -/
def opHasLine (op : Nat) : Bool := !decide (op = 0x1F ∨ op = 0x30 ∨ op = 0x31)

/-- Whether a request reads. -/
def opReads (op : Nat) : Bool := decide (op = 0x01 ∨ op = 0x02 ∨ op = 0x03 ∨ op = 0x08)

/-- NFAIL to the sender of a request (Table ST-8). -/
def nfailFor (self : Nat) (ws : List Word) (status : Nat) : List Word :=
  msgHead 0x25 self (msgSrc ws) (msgTag ws) 0 0 false status false (msgLine ws)

/-- Words 1 to 6 of a Toll (Table MF-3) but for TX_TIME, which each transmission writes. -/
def tollWords (self dst echoTx echoRx link depth : Nat) (valid peerDead extended ready : Bool) : List Word :=
  msgHead 0x30 self dst 0 0 0 false 0 false 0 ++
    [0, BitVec.ofNat 64 echoTx, BitVec.ofNat 64 echoRx,
     BitVec.ofNat 64 (link * 2 ^ 60 + (if valid then 2 ^ 59 else 0) + depth % 32 * 2 ^ 54 + (if peerDead then 2 ^ 53 else 0) +
       (if extended then 2 ^ 52 else 0) + (if ready then 2 ^ 51 else 0))]

/-- Word 3 of a Knell (Table MF-4). -/
def knellWord (kind dev num cause event : Nat) : Word :=
  BitVec.ofNat 64 (kind * 2 ^ 62 + dev % 2048 * 2 ^ 51 + num % 512 * 2 ^ 42 + cause % 16 * 2 ^ 38 + event % 256 * 2 ^ 30)

/-- Word 3 of a management message (Table MF-4a). -/
def mgmtWord (mtype exportId domain status : Nat) (coherent : Bool) (part count : Nat) : Word :=
  BitVec.ofNat 64 (mtype % 256 * 2 ^ 56 + exportId % 4096 * 2 ^ 44 + domain % 4096 * 2 ^ 32 + status % 256 * 2 ^ 24 +
    (if coherent then 2 ^ 23 else 0) + part % 128 * 2 ^ 16 + count % 2048)

/-- Block numbers, two to a word. -/
def blockWords : List Nat → List Word
  | [] => []
  | [a] => [BitVec.ofNat 64 (a % 2 ^ 20)]
  | a :: b :: r => BitVec.ofNat 64 (a % 2 ^ 20 + b % 2 ^ 20 * 2 ^ 32) :: blockWords r

/-- The messages that carry a request or an answer with its block list, at most 60 block numbers to a message (R278). -/
def mgmtMessages (self dst tag mtype exportId domain status : Nat) (coherent : Bool) (blocks : List Nat) :
    List (List Word) :=
  (List.range (max 1 (ceilDiv blocks.length 60))).map fun part =>
    msgHead 0x31 self dst tag 0 0 false 0 false 0 ++
      mgmtWord mtype exportId domain status coherent part blocks.length :: blockWords (slicePart blocks part)
where
  slicePart (l : List Nat) (part : Nat) : List Nat := (l.drop (60 * part)).take 60

end Sys2Proof.Machine
end

