-- ==== Sys2Proof/Machine/Route.lean ====
section
/-! DEFINITION. The neighbour map, routing and the choice of a link within a bundle (R263 to R271, R279). -/

namespace Sys2Proof.Machine

/-- The state of neighbour slot n: 0 NONE, 1 ALIVE, 2 DEAD (R265). -/
def Dev.slotState (d : Dev) (n : Nat) : Nat := d.rd (.nbr n) 61 60

def Dev.slotDev (d : Dev) (n : Nat) : Nat := d.rd (.nbr n) 42 32
def Dev.slotValid (d : Dev) (n : Nat) : Bool := d.bitOf (.nbr n) 63
def Dev.slotCoh (d : Dev) (n : Nat) : Bool := d.bitOf (.nbr n) 62

/-- The links of a slot's bundle, ascending. -/
def Dev.bundle (d : Dev) (n : Nat) : List Nat := bitsSet (d.rd (.nbr n) 31 16) 16

/-- The slot of a direct neighbour with a Device ID. -/
def Dev.slotOf (d : Dev) (dev : Nat) : Option Nat :=
  (List.range 16).find? fun n => d.slotValid n && decide (d.slotDev n = dev)

/-- Whether a link is ACTIVE. -/
def Dev.active (d : Dev) (s : Nat) : Bool := decide (d.linkState s = 2)

/-- The lowest-numbered ACTIVE link of a bundle. -/
def Dev.lowestActive (d : Dev) (n : Nat) : Option Nat := (d.bundle n).find? d.active

/-- Change a slot's state, with a fabric event record of type 6 (R265, Table MG-12). -/
def Dev.setSlotState (d : Dev) (n st : Nat) : Dev :=
  if d.slotState n = st then d
  else (d.wr (.nbr n) 61 60 st).fabricEvent 6 (det 148 n + det 146 (d.slotState n) + det 144 st)

/-- The slot that a message for another device goes to (R267); none where it has no route. A management message also
crosses the links of a DEAD slot, and NFAIL answers a DEAD neighbour on its own links (R279). An answer to a device that is no direct
neighbour answers a non-coherent request, and follows the route as such (DEDUCED, log entry 61). -/
def Dev.routeSlot (d : Dev) (ws : List Word) : Option Nat :=
  let dst := msgDst ws
  let op := msgOp ws
  if opCoherent op && !(decide (0x20 ≤ op) && (d.slotOf dst).isNone) then
    match d.slotOf dst with
    | some n => if d.slotState n = 1 then some n else none
    | none => none
  else
    let direct := if op = 0x25 ∨ op = 0x30 then d.slotOf dst else none
    match direct with
    | some n => some n
    | none =>
      let r := d.reg (.route dst)
      if getBits r 31 31 = 0 then none
      else
        let pri := getBits r 23 20
        let alt := getBits r 19 16
        if d.slotState pri = 1 then some pri
        else if getBits r 30 30 = 1 ∧ d.slotState alt = 1 then some alt
        else if op = 0x31 ∧ d.slotState pri = 2 ∧ (d.lowestActive pri).isSome then some pri
        else none

/-- The link of a bundle that carries a message (R271): the member of the granule while it is ACTIVE and no substitute
holds its granules, otherwise the lowest-numbered ACTIVE member. -/
def Dev.linkFor (d : Dev) (n : Nat) (ws : List Word) : Option Nat :=
  let m := d.bundle n
  if opHasLine (msgOp ws) then
    match m[msgLine ws / 16 % m.length]? with
    | some j => if d.active j && !d.fab.subst.contains j then some j else d.lowestActive n
    | none => none
  else d.lowestActive n

/-- A message without a route is counted and reported as an uncorrected event (R270). -/
def Dev.noRoute (d : Dev) (dst : Nat) : Dev :=
  let d := { d with fab := { d.fab with noRoute := d.fab.noRoute + 1 } }
  let r := d.reg (.route dst)
  match (if getBits r 31 31 = 1 then (d.bundle (getBits r 23 20)).head? else none) with
  | some s => d.report (0x200 + 4 * s + 1) 2 dst
  | none => d.report 0x38A 2 dst

end Sys2Proof.Machine
end

