-- ==== Sys2Proof/Machine/LinkBase.lean ====
section
/-! DEFINITION. A Stitch link's record, its control blocks and the credits its receiver gives back (R247, R248). -/

namespace Sys2Proof.Machine

def Dev.lrec (d : Dev) (s : Nat) : LinkRec := tgetD d.link.recs s LinkRec.reset

def Dev.modLink (d : Dev) (s : Nat) (f : LinkRec → LinkRec) : Dev :=
  { d with link := { d.link with recs := tset d.link.recs s (f (d.lrec s)) } }

/-- A Carillon source of link s (Table ST-11). -/
def linkSource (s k : Nat) : Nat := 0x200 + 4 * s + k

/-- The PMU of a link. -/
def linkPmu (s : Nat) : Nat := 20 + s

/-- Emit a control block. -/
def Dev.sendBlock (d : Dev) (s : Nat) (b : Word) : Dev := d.emit (.block s b)

/-- Send a CREDIT block with the current limits (R247). -/
def Dev.sendCredit (d : Dev) (s : Nat) : Dev :=
  (d.modLink s fun r => { r with sentAdv := r.adv }).sendBlock s (creditBlock (d.lrec s).adv)

/-- Credits of a class go back to the sender; a rise of 8 sends a CREDIT block (R247, R248). -/
def Dev.returnCredit (d : Dev) (s : Nat) (c : MsgClass) (n : Nat) : Dev :=
  let d := d.modLink s fun r => { r with adv := r.adv.put c ((r.adv.get c + n) % 2048) }
  if 8 ≤ ((d.lrec s).adv.get c + 2048 - (d.lrec s).sentAdv.get c) % 2048 then d.sendCredit s else d

end Sys2Proof.Machine
end

