-- ==== Sys2Proof/Machine/Acu.lean ====
section
/-! DEFINITION. The access control units: which region decides, what a refusal records, epochs (R316 to R329). -/

namespace Sys2Proof.Machine

/-- A requester as the ACUs see it: REQ_KIND and REQ_NUM (Table PS-1). -/
structure Requester where
  kind : Nat
  num  : Nat
  deriving DecidableEq, Repr

/-- What an operation needs (Table PS-2). -/
structure Needs where
  r : Bool
  w : Bool
  deriving DecidableEq, Repr

/-- The requester of a pool access. A firmware channel counts as firmware with 256 plus its number. -/
def Dev.requester (d : Dev) : Agent → Requester
  | .host p => ⟨0, p.val⟩
  | .nbr n _ _ => ⟨1, n.val⟩
  | .engine e => ⟨2, e.val⟩
  | .dmv c => if d.svc.fwChannels.contains c.val then ⟨4, 256 + c.val⟩ else ⟨3, c.val⟩
  | .firmware => ⟨4, 0⟩
  | .debug => ⟨5, 0⟩

/-- Whether a region's masks name a requester. pool says which space: bits 20 and 21 of OTHER are ignored in pool
regions and bits 0 to 17 in register regions (Table PS-5). -/
def masksName (pool : Bool) (ports : Word) (other : Nat) (q : Requester) : Bool :=
  match q.kind with
  | 0 => bit ports.toNat q.num
  | 1 => pool && bit other q.num
  | 2 => pool && bit other 16
  | 3 => pool && bit other 17
  | 4 => bit other 18
  | 5 => bit other 19
  | 6 => !pool && bit other 20
  | _ => !pool && bit other 21

/-- The control, mask, start and end registers of region i in one space. -/
def regionRegs (pool : Bool) (i : Nat) : Reg × Reg × Reg × Reg :=
  if pool then (.pCtl i, .pPorts i, .pStart i, .pEnd i) else (.rCtl i, .rPorts i, .rStart i, .rEnd i)

/-- Whether an enabled region covers an address: START through END + 255 (R319). -/
def Dev.regionCovers (d : Dev) (pool : Bool) (i addr : Nat) : Bool :=
  let (c, _, s, e) := regionRegs pool i
  d.bitOf c 31 && decide ((d.reg s).toNat ≤ addr ∧ addr ≤ (d.reg e).toNat + 255)

def Dev.regionNames (d : Dev) (pool : Bool) (i : Nat) (q : Requester) : Bool :=
  let (c, m, _, _) := regionRegs pool i
  masksName pool (d.reg m) (d.rd c 21 0) q

/-- The regions whose control register is not 0, highest first. -/
def Dev.regionList (d : Dev) (pool : Bool) : List Nat :=
  ((List.range 256).reverse).filter fun i => d.regs.any fun e => decide (e.1 = (regionRegs pool i).1)

/-- The region that decides: the highest-numbered enabled region that covers the address and names the requester, else
DEF (256) if its mask names it, else none (258) (R319, R323). -/
def Dev.decidingRegion (d : Dev) (pool : Bool) (addr : Nat) (q : Requester) : Nat :=
  match (d.regionList pool).find? fun i => d.regionCovers pool i addr && d.regionNames pool i q with
  | some i => i
  | none => if d.regionNames pool 256 q then 256 else 258

/-- Whether the debug requester meets an enabled locked region there (R320). -/
def Dev.lockedCovers (d : Dev) (pool : Bool) (addr : Nat) : Option Nat :=
  (d.regionList pool).find? fun i => d.regionCovers pool i addr && d.bitOf (regionRegs pool i).1 28

/-- The current debug level (Table PS-21). -/
def Dev.debugLevel (d : Dev) : Nat := d.rd .secStatus 29 28

/-- The ACU's decision: none allows; some region refuses, with the region number that the record carries. A region whose
bounds fail their complement in the master registers refuses every requester until firmware restores it (R393). -/
def Dev.acuDecide (d : Dev) (pool : Bool) (addr : Nat) (q : Requester) (n : Needs) : Option Nat :=
  if q.kind = 5 ∧ (d.debugLevel = 0 ∨ (d.debugLevel = 1 ∧ (pool ∨ n.w))) then some 257
  else
    match d.sec.masterBad.find? fun b => decide (b.1 = (if pool then 0 else 1)) && d.regionCovers pool b.2 addr with
    | some b => some b.2
    | none =>
      match (if q.kind = 5 then d.lockedCovers pool addr else none) with
      | some i => some i
      | none =>
        let i := d.decidingRegion pool addr q
        if i = 258 then some 258
        else
          let c := (regionRegs pool i).1
          if (n.r && !d.bitOf c 30) || (n.w && !d.bitOf c 29) then some i else none

/-- The ACU epoch (Table PS-6). -/
def Dev.acuEpoch (d : Dev) : Nat := d.rd .acuStatus 31 30

/-- A refusal at ACU v: the first one after a clear fills the violation record, later ones count (R323); it is counted
in the Tambour's performance monitor and reported. -/
def Dev.acuViolation (d : Dev) (v addr : Nat) (write : Bool) (q : Requester) (region : Nat) : Dev :=
  let d :=
    if d.bitOf (.violInfo v) 31 then d.bumpSat (.violCount v) 31 0 1
    else
      let info := setBits (setBits (setBits (setBits (setBits (setBits 0 31 31 1) 30 30 (if write then 1 else 0))
        29 28 d.acuEpoch) 27 24 q.kind) 23 15 q.num) 14 6 region
      (d.setReg (.violAddr v) (BitVec.ofNat 64 addr)).setReg (.violInfo v) info
  if v < 16 then (d.count v 0x300B 1).report (16 * v + 5) 2 addr else d.report 0x2D0 2 addr

/-- One write of 1 to VIOL_INFO.VALID clears the whole record and its count (R323, Table PS-7). -/
def Dev.clearViolation (d : Dev) (v : Nat) : Dev :=
  ((d.setReg (.violAddr v) 0).setReg (.violInfo v) 0).setReg (.violCount v) 0

/-- Whether any access of an ACU epoch other than the current one remains (R324): pool accesses hold their epoch in
their conflict-table entries; a register access ends within its command. -/
def Dev.acuOldLive (d : Dev) : Bool := d.dir.ct.any fun e => decide (e.2.epoch.toNat ≠ d.acuEpoch)

end Sys2Proof.Machine
end

