-- ==== Sys2Proof/Machine/Tables.lean ====
section
/-! DEFINITION. Expander memory, interleave arithmetic, the central tables in two copies, the translation caches, owner
keys, and the outcome of a pool access (R16, R26 to R52). -/

namespace Sys2Proof.Machine

/-! ### Expander memory: strictly rising keys, one 64 B line each -/

/-- The key of a line of an expander: its port and its expander address. -/
def memKey (port addr : Nat) : Nat := port * 2 ^ 58 + addr / 64

def memGet : List (Nat × Stored) → Nat → Option Stored
  | [], _ => none
  | (k', v) :: r, k => if k' = k then some v else memGet r k

def memPut : List (Nat × Stored) → Nat → Stored → List (Nat × Stored)
  | [], k, v => [(k, v)]
  | (k', v') :: r, k, v =>
    if k < k' then (k, v) :: (k', v') :: r
    else if k = k' then (k, v) :: r
    else (k', v') :: memPut r k v

/-- The canonical form: keys strictly rise. A line that nothing has written is not listed; what it reads as is open
(R51), so no listed value equals what an unlisted line reads as. -/
def memWf : List (Nat × Stored) → Bool
  | [] => true
  | [_] => true
  | (k, _) :: (k', v') :: r => decide (k < k') && memWf ((k', v') :: r)

def Dev.memAt (d : Dev) (port addr : Nat) : Option Stored := memGet d.pool.mem (memKey port addr)

def Dev.memWrite (d : Dev) (port addr : Nat) (v : Stored) : Dev :=
  { d with pool := { d.pool with mem := memPut d.pool.mem (memKey port addr) v } }

/-! ### The hub structures beside block map and slots (R16, R394, R464) -/

/-- The HUB quarters of the primary and the mirror copy that hold row i (R464). -/
def quarters (i : Nat) : Nat × Nat := if i < 524288 then (0, 2) else (1, 3)

/-- A table write wakes a napping quarter (Table PW-3). -/
def Dev.wakeQuarters (d : Dev) (i : Nat) : Dev := (d.wake (domHub (quarters i).1)).wake (domHub (quarters i).2)

/-- The hub structures as every read finds them: in the primary copy, or in the mirror after the loss of HUB0 (R394). -/
def Dev.hub (d : Dev) : HubTables := if d.hubLost 0 && !d.hubLost 2 then d.pool.hubB else d.pool.hubA

/-- Write the hub structures in every copy in service (R16, R394); without either copy the device is in the safe state, and
what the model keeps there stands for nothing (log entry 24). -/
def Dev.modHub (d : Dev) (f : HubTables → HubTables) : Dev :=
  let d := d.wakeQuarters 0
  ({ d with pool := { d.pool with
      hubA := if d.hubLost 0 && !d.hubLost 2 then d.pool.hubA else f d.pool.hubA
      hubB := if d.hubLost 2 then d.pool.hubB else f d.pool.hubB } }).count 36 0x9002 1

/-! ### Granules, slices, sets (R69 to R71) -/

/-- The granule of a line. -/
def granuleOf (line : Nat) : Nat := line / 16

/-- The XOR of the nine 4-bit groups of a granule number (R70). -/
def foldSlice (g : Nat) : Nat :=
  (g % 16) ^^^ (g / 16 % 16) ^^^ (g / 256 % 16) ^^^ (g / 4096 % 16) ^^^ (g / 65536 % 16) ^^^
    (g / 1048576 % 16) ^^^ (g / 16777216 % 16) ^^^ (g / 268435456 % 16) ^^^ (g / 4294967296 % 16)

/-- Set index and tag of a granule (R70). -/
def setOf (g : Nat) : Nat := g % 32768
def tagOf (g : Nat) : Nat := g / 32768

/-- The block of a line: its 64 MiB block number. -/
def blockOfLine (line : Nat) : Nat := line / 2 ^ 20

def blockOfGranule (g : Nat) : Nat := g / 2 ^ 16

/-! ### Interleave arithmetic (R29 to R33) -/

/-- The place of an access within its set: way and expander address (R33). -/
def interleave (sd : SetDesc) (k offset : Nat) : Nat × Nat :=
  let w := 2 ^ sd.ways
  let gran := if sd.gran4k then 4096 else 256
  let a := k * 2 ^ 26 + offset
  let g := a / gran
  (g % w, g / w * gran + a % gran)

/-- The interleave set descriptor of a number. -/
def Dev.setDesc? (d : Dev) (i : Nat) : Option SetDesc := (tget d.hub.sets i).filter fun s => s.valid

/-- The interleave set descriptor that slice t works with: the one in its set cache, or the central table's (R43). -/
def Dev.setAt (d : Dev) (t i : Nat) : Option SetDesc :=
  match tget d.pool.setCache (t, i) with
  | some s => some s
  | none => d.setDesc? i

/-- Whether every way has a usable copy (R32). -/
def SetDesc.allWays (s : SetDesc) : Bool :=
  (List.range (2 ^ s.ways)).all fun w => s.okP.getLsbD w || (s.mirrored && s.okM.getLsbD w)

/-- Where a line of a LOCAL block lies: set, way, expander address, primary port and mirror port. -/
structure Place where
  set    : Nat
  way    : Nat
  addr   : Nat
  prim   : Nat
  mirr   : Option Nat
  deriving DecidableEq, Repr

def Dev.place (d : Dev) (e : BlockEntry) (line : Nat) : Option Place :=
  match d.setAt (foldSlice (granuleOf line)) e.set.toNat with
  | none => none
  | some sd =>
    let (w, a) := interleave sd e.setIndex.toNat (line % 2 ^ 20 * 64)
    some ⟨e.set.toNat, w, a, sd.member.getD w 0, if sd.mirrored then some (sd.mirror.getD w 0) else none⟩

/-- Whether the repair table lists a granule for a copy of a way (R35). -/
def Dev.needsRepair (d : Dev) (set way copy granule : Nat) : Bool :=
  d.hub.repair.contains ⟨set, way, copy, granule⟩

/-- Whether copy c (0 primary, 1 mirror) of a way is usable. -/
def Dev.copyOk (d : Dev) (set way c : Nat) : Bool :=
  match d.setDesc? set with
  | none => false
  | some sd => if c = 0 then sd.okP.getLsbD way else sd.mirrored && sd.okM.getLsbD way

/-- Whether copy c of a way takes writes: usable, or under resynchronisation (R36). -/
def Dev.copyWritten (d : Dev) (set way c : Nat) : Bool :=
  match d.setDesc? set with
  | none => false
  | some sd =>
    if c = 0 then sd.okP.getLsbD way || sd.resyncP.getLsbD way
    else sd.mirrored && (sd.okM.getLsbD way || sd.resyncM.getLsbD way)

/-- The copy a read goes to: the primary, unless it is unusable or the granule is listed for repair there (R34). -/
def Dev.readCopy (d : Dev) (p : Place) (granule : Nat) : Nat :=
  if p.mirr.isSome && (!d.copyOk p.set p.way 0 || d.needsRepair p.set p.way 0 granule) then 1 else 0

def Place.port (p : Place) (c : Nat) : Nat := if c = 0 then p.prim else p.mirr.getD p.prim

/-! ### Keys (R45 to R51, R331) -/

/-- A key slot's state; an unlisted slot is SPENT. -/
def Dev.keySlot (d : Dev) (i : Nat) : KeySlot := tgetD d.pool.keys i .spent

/-- Write a key slot, with KEY.STATUS.ACTIVE and READY following (Table PS-9). -/
def Dev.setKeySlot (d : Dev) (i : Nat) (k : KeySlot) : Dev :=
  let keys := tset d.pool.keys i k
  let order := d.pool.readyOrder.filter (fun j => !decide (j = i)) ++ (if k = .ready then [i] else [])
  ({ d with pool := { d.pool with keys := keys, readyOrder := order } }).showKeys

/-- The domain that an XTS engine works for, from the ID and the complement that the block's entry brings: none, and an INTEGRITY
event of the engine's Tambour, where they disagree, and the line is not transferred (R45, Table FI-10). -/
def Dev.xtsDomain (d : Dev) (e : BlockEntry) (line : Nat) : Option Nat × Dev :=
  if e.ownerC = ~~~e.owner then (some e.owner.toNat, d)
  else (none, d.report (16 * foldSlice (granuleOf line) + 6) 4 (line * 64))

/-- Encrypt a line for a domain: the ciphertext that the expander stores, or nothing where the slot is not ACTIVE (R331). -/
def Dev.encrypt (d : Dev) (dom line : Nat) (data : LineData) : Option Stored :=
  match d.keySlot dom with
  | .active g => some (.cipher g (BitVec.ofNat 40 line) data)
  | _ => none

/-- Decrypt what an expander stores for a domain: the plaintext where key and tweak are those of the write, poison where
the line is poison or the slot is not ACTIVE, and otherwise an open value (R51). -/
def Dev.decrypt (d : Dev) (dom line : Nat) (s : Option Stored) : (LineData × Bool) × Dev :=
  match d.keySlot dom, s with
  | .active _, some .poison => ((0, true), d)
  | .active g, some (.cipher g' t p) =>
    if g = g' ∧ t = BitVec.ofNat 40 line then ((p, false), d)
    else let (v, d) := d.openBits 512; ((v, false), d)
  | .active _, none => let (v, d) := d.openBits 512; ((v, false), d)
  | _, _ => ((0, true), d)

/-! ### The central tables (R16, R37 to R43, R464) -/

def goodState (s : BitVec 4) : Bool := decide (s.toNat ≤ 6)

/-- The checks of R37 and R38 on one copy. -/
def BlockEntry.ok (e : BlockEntry) : Bool :=
  decide (e.ownerC = ~~~e.owner) && decide (e.stateC = ~~~e.state) && goodState e.state && !e.eccBad

/-- The checks of R40 on one copy. -/
def SlotEntry.ok (e : SlotEntry) : Bool :=
  decide (e.validC = !e.valid) && decide (e.blockC = ~~~e.block) && !e.eccBad

/-- An entry with its complements. -/
def mkBlock (owner : Nat) (state : Nat) (remote coherent : Bool) (set index home rblock rdom : Nat) : BlockEntry :=
  { owner := BitVec.ofNat 12 owner, ownerC := ~~~(BitVec.ofNat 12 owner)
    state := BitVec.ofNat 4 state, stateC := ~~~(BitVec.ofNat 4 state)
    remote := remote, coherent := coherent, set := BitVec.ofNat 6 set, setIndex := BitVec.ofNat 20 index
    homeDev := BitVec.ofNat 11 home, remoteBlock := BitVec.ofNat 20 rblock, remoteDomain := BitVec.ofNat 12 rdom
    eccBad := false }

def mkSlot (valid : Bool) (block dom : Nat) : SlotEntry :=
  { valid := valid, validC := !valid, block := BitVec.ofNat 20 block, blockC := ~~~(BitVec.ofNat 20 block)
    domain := BitVec.ofNat 12 dom, eccBad := false }

/-- A block map entry's state and owner changed, with their complements. -/
def BlockEntry.withState (e : BlockEntry) (st : Nat) : BlockEntry :=
  { e with state := BitVec.ofNat 4 st, stateC := ~~~(BitVec.ofNat 4 st) }

def BlockEntry.withOwner (e : BlockEntry) (o : Nat) : BlockEntry :=
  { e with owner := BitVec.ofNat 12 o, ownerC := ~~~(BitVec.ofNat 12 o) }

/-- What an unlisted block map entry holds: a FREE LOCAL block of the set whose range covers it (R33), else zero. -/
def Dev.blockDefault (d : Dev) (b : Nat) : BlockEntry :=
  match d.hub.sets.find? fun s => s.2.valid && decide (s.2.first ≤ b ∧ b < s.2.first + s.2.count) with
  | some (i, s) => mkBlock 0 0 false false i (b - s.first) 0 0 0
  | none => mkBlock 0 0 false false 0 0 0 0 0

def slotDefault : SlotEntry := mkSlot false 0 0

/-- Write a block map entry in every copy in service (R16, R394). -/
def Dev.writeBlock (d : Dev) (b : Nat) (e : BlockEntry) : Dev :=
  let (qa, qb) := quarters b
  let d := d.wakeQuarters b
  let c := d.pool.blocks
  ({ d with pool := { d.pool with blocks :=
      { a := if d.hubLost qa then c.a else tset c.a b e, b := if d.hubLost qb then c.b else tset c.b b e } } }).count
    36 0x9002 1

def Dev.writeSlot (d : Dev) (i : Nat) (e : SlotEntry) : Dev :=
  let (qa, qb) := quarters i
  let d := d.wakeQuarters i
  let c := d.pool.slots
  ({ d with pool := { d.pool with slots :=
      { a := if d.hubLost qa then c.a else tset c.a i e, b := if d.hubLost qb then c.b else tset c.b i e } } }).count
    36 0x9002 1

/-- The domain whose record holds a block, or 0. -/
def Dev.domainOfBlock (d : Dev) (b : Nat) : Nat :=
  ((d.pool.domains.find? fun e => e.2.blocks.contains b).map (·.1)).getD 0

/-- Read a table row from either copy in service. A copy that fails its checks is rewritten from the other and reported
as INTEGRITY under the row's quarter; when no copy checks, the answer is none (R38, R39). -/
def readRow {β : Type} (d : Dev) (i : Nat) (a b : β) (ok : β → Bool) (put : Dev → β → Dev) : Option β × Dev :=
  let (qa, qb) := quarters i
  let la := d.hubLost qa
  let lb := d.hubLost qb
  if !la && ok a then (some a, d)
  else if !lb && ok b then
    if la then (some b, d) else (some b, (put d b).report (0x384 + qa) 4 i)
  else
    (none, if la then d.report (0x384 + qb) 4 i
      else if lb then d.report (0x384 + qa) 4 i
      else (d.report (0x384 + qa) 4 i).report (0x384 + qb) 4 i)

/-- The copy that a read of row i takes: the first in service that passes its checks (R16, R39, R394). -/
def Dev.checkedRow {β : Type} (d : Dev) (i : Nat) (a b : β) (ok : β → Bool) : Option β :=
  if !d.hubLost (quarters i).1 && ok a then some a
  else if !d.hubLost (quarters i).2 && ok b then some b
  else none

/-- Whether firmware's records bind a block to DC region 1: an extent, an export or an import that names it says so (R42). -/
def Dev.recordedCoherent (d : Dev) (b : Nat) : Bool :=
  (d.pool.extents.any fun x => decide (x.region = 1) && x.blocks.contains b) ||
    (d.hub.exports.any fun x => x.coherent && x.blocks.contains b) ||
    (d.hub.imports.any fun x => x.coherent && x.blocks.any fun y => decide (y.2 = b))

/-- What firmware writes in a block map row of which both copies have failed: POISONED, as the rule gives it; a LOCAL entry at the
block's place in its set, its owner and its COHERENT as firmware's own records have them (R39, R42; DESIGN CHOICE, log entry 25:
the rule gives STATE alone). -/
def Dev.lostBlock (d : Dev) (b : Nat) : BlockEntry :=
  { ((d.blockDefault b).withOwner (d.domainOfBlock b)).withState 5 with coherent := d.recordedCoherent b }

/-- A block map entry, as a read with its checks finds it (R37, R39); readBlock is that read with what it repairs and reports. -/
def Dev.blockEntry (d : Dev) (b : Nat) : BlockEntry :=
  let dflt := d.blockDefault b
  (d.checkedRow b (tgetD d.pool.blocks.a b dflt) (tgetD d.pool.blocks.b b dflt) BlockEntry.ok).getD (d.lostBlock b)

/-- A host slot table entry, as a read with its checks finds it (R40). -/
def Dev.slotEntry (d : Dev) (i : Nat) : SlotEntry :=
  (d.checkedRow i (tgetD d.pool.slots.a i slotDefault) (tgetD d.pool.slots.b i slotDefault) SlotEntry.ok).getD slotDefault

/-- Every Tambour in Run or Doze counts a translation-cache invalidation that it receives. -/
def Dev.countInvalidation (d : Dev) : Dev := (List.range 16).foldl (fun d t => d.count t 0x300C 1) d

/-- Invalidate a slot table index in all 64 slot caches (Table PB-7). -/
def Dev.invalidateSlot (d : Dev) (i : Nat) : Dev :=
  ({ d with pool := { d.pool with slotCache := d.pool.slotCache.filter fun e => !decide (e.1.2 = i) } }).countInvalidation

/-- Invalidate a block number in all 16 block caches. -/
def Dev.invalidateBlock (d : Dev) (b : Nat) : Dev :=
  ({ d with pool := { d.pool with blockCache := d.pool.blockCache.filter fun e => !decide (e.1.2 = b) } }).countInvalidation

/-- Invalidate a set number in all 16 set caches. -/
def Dev.invalidateSet (d : Dev) (i : Nat) : Dev :=
  ({ d with pool := { d.pool with setCache := d.pool.setCache.filter fun e => !decide (e.1.2 = i) } }).countInvalidation

/-- Change an interleave set descriptor, and invalidate it where it is cached (R31, R43). -/
def Dev.modSet (d : Dev) (i : Nat) (f : SetDesc → SetDesc) : Dev :=
  (d.modHub fun h => { h with sets := tmod h.sets i f }).invalidateSet i

/-- Read a block map entry. When both copies fail, firmware rewrites both, the block enters POISONED, and the number is
invalidated (R39, R43). -/
def Dev.readBlock (d : Dev) (b : Nat) : Option BlockEntry × Dev :=
  let dflt := d.blockDefault b
  match readRow d b (tgetD d.pool.blocks.a b dflt) (tgetD d.pool.blocks.b b dflt) BlockEntry.ok (fun d e => d.writeBlock b e) with
  | (some e, d) => (some e, d)
  | (none, d) => (none, (d.writeBlock b (d.lostBlock b)).invalidateBlock b)

/-- Read a host slot table entry. When both copies fail, firmware rewrites both with VALID 0 and invalidates the index (R40, R43). -/
def Dev.readSlot (d : Dev) (i : Nat) : Option SlotEntry × Dev :=
  match readRow d i (tgetD d.pool.slots.a i slotDefault) (tgetD d.pool.slots.b i slotDefault) SlotEntry.ok
      (fun d e => d.writeSlot i e) with
  | (some e, d) => (some e, d)
  | (none, d) => (none, (d.writeSlot i slotDefault).invalidateSlot i)

/-- Change a block map entry: a read with its checks, then the write of both copies. -/
def Dev.changeBlock (d : Dev) (b : Nat) (f : BlockEntry → BlockEntry) : Dev :=
  let d := (d.readBlock b).2
  d.writeBlock b (f (d.blockEntry b))

def Dev.changeSlot (d : Dev) (i : Nat) (f : SlotEntry → SlotEntry) : Dev :=
  let d := (d.readSlot i).2
  d.writeSlot i (f (d.slotEntry i))

/-- Change a block map entry and invalidate it in every cache. -/
def Dev.updateBlock (d : Dev) (b : Nat) (f : BlockEntry → BlockEntry) : Dev := (d.changeBlock b f).invalidateBlock b

/-- Change a slot entry and invalidate it in every cache. -/
def Dev.updateSlot (d : Dev) (i : Nat) (f : SlotEntry → SlotEntry) : Dev := (d.changeSlot i f).invalidateSlot i

/-- Make room in a cache of a bounded size: one entry, which the device chooses, leaves a full cache. -/
def Dev.makeRoom {β : Type} (d : Dev) (m : Table (Nat × Nat) β) (who bound : Nat) : Table (Nat × Nat) β × Dev :=
  let mine := m.filter fun e => decide (e.1.1 = who)
  if mine.length < bound then (m, d)
  else
    match d.choose mine with
    | (some v, d) => (tdel m v.1, d)
    | (none, d) => (m, d)

/-- Look a slot up through port p's slot cache: a hit whose flag or block disagrees with its complement is dropped and
refilled and reported as INTEGRITY under the translation source (R40, R43, R393). -/
def Dev.lookupSlot (d : Dev) (p i : Nat) : Option SlotEntry × Dev :=
  let t := p / 4
  let fill (d : Dev) : Option SlotEntry × Dev :=
    match d.readSlot i with
    | (none, d) => (none, d)
    | (some e, d) =>
      let (m, d) := d.makeRoom d.pool.slotCache p 2048
      (some e, { d with pool := { d.pool with slotCache := tset m (p, i) e } })
  match tget d.pool.slotCache (p, i) with
  | some e =>
    if e.ok then (some e, d.count t (0x3000 + p % 4) 1)
    else fill (({ d with pool := { d.pool with slotCache := tdel d.pool.slotCache (p, i) } }).report (16 * t + 2) 4 i)
  | none => fill (d.count t (0x3004 + p % 4) 1)

/-- Look a block up through the block cache of slice t (R39, R43, R393). -/
def Dev.lookupBlock (d : Dev) (t b : Nat) : Option BlockEntry × Dev :=
  let fill (d : Dev) : Option BlockEntry × Dev :=
    match d.readBlock b with
    | (none, d) => (none, d)
    | (some e, d) =>
      let (m, d) := d.makeRoom d.pool.blockCache t 8192
      (some e, { d with pool := { d.pool with blockCache := tset m (t, b) e } })
  match tget d.pool.blockCache (t, b) with
  | some e =>
    if e.ok then (some e, d.count t 0x3008 1)
    else fill (({ d with pool := { d.pool with blockCache := tdel d.pool.blockCache (t, b) } }).report (16 * t + 4) 4 b)
  | none => fill (d.count t 0x3009 1)

/-- A home slice takes a descriptor into its set cache on a miss (R43, Table PB-7). -/
def Dev.fillSet (d : Dev) (t i : Nat) : Dev :=
  match tget d.pool.setCache (t, i), d.setDesc? i with
  | none, some s =>
    let (m, d) := d.makeRoom d.pool.setCache t 64
    { d with pool := { d.pool with setCache := tset m (t, i) s } }
  | _, _ => d

/-! ### Translation (R26 to R28, R41, R44) -/

/-- Translate a device address of the host on port p: its line, domain and pool address, or none as the first row of
Table PB-8. -/
def Dev.translate (d : Dev) (p dpa : Nat) : Option (Nat × Nat) × Dev :=
  match tget d.pool.windows p with
  | none => (none, d)
  | some (base, r0, r1) =>
    let slot := dpa / 2 ^ 26
    if r0 + r1 ≤ slot then (none, d)
    else
      match d.lookupSlot p (base + slot) with
      | (none, d) => (none, d)
      | (some e, d) =>
        if e.valid then (some (e.block.toNat * 2 ^ 20 + dpa % 2 ^ 26 / 64, e.domain.toNat), d) else (none, d)

/-- The class of an event whose class the specification does not give. -/
def openClass (kind : Nat) : Nat := Config.eventClass kind % 5

/-- A refusal by the translation: counted and reported under k = 2 of the Tambour that translated (R52). -/
def Dev.refuseTranslation (d : Dev) (t detail : Nat) : Dev := (d.count t 0x300A 1).report (16 * t + 2) (openClass 2) detail

/-- A refusal by the home: counted and reported under k = 4 of its Tambour (R52). -/
def Dev.refuseHome (d : Dev) (t line : Nat) : Dev := (d.count t 0x300A 1).report (16 * t + 4) (openClass 4) (line * 64)

/-- An access takes the current translation epoch when its slot or block is first looked up, and keeps it (R44). -/
def Dev.takeEpoch (d : Dev) (tile : Nat) (a : Agent) (txn : Nat) : Dev :=
  if (tget d.pool.inflight (a, txn)).isSome then d
  else { d with pool := { d.pool with inflight := tset d.pool.inflight (a, txn) ⟨tile, d.pool.epoch⟩ } }

/-- An access completes and gives its epoch back. -/
def Dev.endTxn (d : Dev) (a : Agent) (txn : Nat) : Dev :=
  { d with pool := { d.pool with inflight := tdel d.pool.inflight (a, txn) } }

/-- Accesses outstanding under an epoch, in all Tambours. -/
def Dev.outstanding (d : Dev) (ep : BitVec 2) : Nat := (d.pool.inflight.filter fun e => decide (e.2.epoch = ep)).length

/-! ### Outcomes at the home (Table PB-8) -/

/-- What Table PB-8 gives an access that has passed translation. -/
inductive Served
  | accessError
  | refused
  | acu (region : Nat)
  | forward (e : BlockEntry)
  | here (block : Nat) (e : BlockEntry)
  deriving DecidableEq, Repr

/-- Whether an export lets a neighbour's device reach a LOCAL block (R65). -/
def Dev.exportedTo (d : Dev) (b : Nat) (src : DeviceId) : Bool :=
  d.hub.exports.any fun x => x.blocks.contains b && decide (x.importer = src)

/-- An engine or a data-mover channel (Table PB-8, second row). -/
def isInternal : Agent → Bool
  | .engine _ => true
  | .dmv _ => true
  | _ => false

/-- An agent of the device itself, which reaches LOCAL blocks only (R79). -/
def isOwn : Agent → Bool
  | .host _ => false
  | .nbr _ _ _ => false
  | _ => true

/-- The migration whose source is a block (R64). -/
def Dev.migrationOf (d : Dev) (b : Nat) : Option Migration := d.hub.migrations.find? fun m => decide (m.source = b)

/-- Which block of a migration serves a line of its source (R64): the target below the watermark. A migrated source that is
being fenced is served from its target too. -/
def Dev.migrated (d : Dev) (b : Nat) (e : BlockEntry) (line : Nat) : Served :=
  match d.migrationOf b with
  | some m => if line % 2 ^ 20 * 64 < m.watermark then .here m.target (d.blockEntry m.target) else .here b e
  | none => .here b e

/-- The outcome of an access at home slice t, by the first row of Table PB-8 that applies. checked says whether the ACU
checks it (R317); mirror exempts the mirror copies of a firmware channel from the COHERENT 0 bar (R190). -/
def Dev.homeOutcome (d : Dev) (t : Nat) (q : HomeReq) (n : Needs) (checked mirror : Bool) : Served × Dev :=
  let line := q.line.toNat
  let b := blockOfLine line
  match d.lookupBlock t b with
  | (none, d) => (.refused, d.refuseHome t line)
  | (some e, d) =>
    let foreign : Bool := match q.agent with
      | .nbr _ _ src => e.remote || !d.exportedTo b src
      | _ => false
    if (isOwn q.agent && e.remote) || (isInternal q.agent && !e.coherent && !mirror) then (.accessError, d.refuseHome t line)
    else if !decide (q.domain = e.owner) || foreign then (.refused, d.refuseHome t line)
    else
      match (if checked then d.acuDecide true (line * 64) (d.requester q.agent) n else none) with
      | some region => (.acu region, d.acuViolation t (line * 64) n.w (d.requester q.agent) region)
      | none =>
        match e.state.toNat with
        | 2 => if e.remote then (.forward e, d) else (.here b e, d.fillSet t e.set.toNat)
        | 3 => if e.remote then (.forward e, d) else (d.migrated b e line, d.fillSet t e.set.toNat)
        | 4 => (d.migrated b e line, d.fillSet t e.set.toNat)
        | _ => (.refused, d.refuseHome t line)

/-! ### Poison and repair (R23, R34, R35, R102) -/

/-- The bit of a way in a WAY_OK or RESYNC mask. -/
def wayBit (w : Nat) : BitVec 16 := (1 : BitVec 16) <<< w

/-- Store a form of a line in one copy at once; a write of the same address still on its way carries it too. -/
def Dev.storeCopy (d : Dev) (port addr : Nat) (v : Stored) : Dev :=
  ({ d with dir := { d.dir with expOps := d.dir.expOps.map fun (o : ExpOp) =>
      if o.port = port ∧ o.addr = addr ∧ o.what.isSome then { o with what := some v } else o } }).memWrite port addr v

/-- Store poison in every copy of a line, behind every write of it that is still on its way (R102). -/
def Dev.poisonLine (d : Dev) (line : Nat) : Dev :=
  match d.place (d.blockEntry (blockOfLine line)) line with
  | none => d
  | some p =>
    let d := d.storeCopy p.prim p.addr .poison
    match p.mirr with
    | some m => d.storeCopy m p.addr .poison
    | none => d

/-- The detail of an event that concerns a line and its copies: the pool address in bits 45 to 0, then the POOL ports of the primary
and the mirror, and whether there is a mirror (R34; the places of the bits are a DESIGN CHOICE, log entry 43). -/
def Place.detail (p : Place) (line : Nat) : Nat :=
  line * 64 + 2 ^ 46 * (p.prim % 64) + 2 ^ 52 * (p.mirr.getD 0 % 64) + 2 ^ 58 * (if p.mirr.isSome then 1 else 0)

/-- The detail of an event that concerns a line of a block. -/
def Dev.lineDetail (d : Dev) (line : Nat) : Nat :=
  ((d.place (d.blockEntry (blockOfLine line)) line).map fun p => p.detail line).getD (line * 64)

/-- Mark a granule of a failed copy for repair; with a full table that copy of the way becomes unusable (R35), and the
full table is reported under source 0x389. -/
def Dev.markRepair (d : Dev) (p : Place) (copy granule : Nat) : Dev :=
  if d.needsRepair p.set p.way copy granule then d
  else if d.hub.repair.length < 256 then
    d.modHub fun h => { h with repair := h.repair ++ [⟨p.set, p.way, copy, granule⟩] }
  else
    (d.modSet p.set fun s =>
      if copy = 0 then { s with okP := s.okP &&& ~~~wayBit p.way, resyncP := s.resyncP ||| wayBit p.way }
      else { s with okM := s.okM &&& ~~~wayBit p.way, resyncM := s.resyncM ||| wayBit p.way }).report
      0x389 (openClass 0x389) p.set

end Sys2Proof.Machine
end

