-- ==== Sys2Proof/Machine/Buffer.lean ====
section
/-! DEFINITION. The shared buffer: cells and reservations, the finish tags of the egress schedulers, gates and guard
bands, shapers, load reporting and mirror taps (R107 to R130). -/

namespace Sys2Proof.Machine

/-! ### Reservations and cells (R107 to R115) -/

/-- Number of a class: 0 REQ, 1 RSP, 2 SNP, 3 MGT. -/
def classes : List MsgClass := [.req, .rsp, .snp, .mgt]

/-- The reservation register of an entity (Table SW-2). -/
def resvReg : Entity → Reg
  | .port p => .prtResv p
  | .link s => .stlResv s
  | .tambour t => .intResv t
  | .mgmt => .mgtResv

/-- Cells reserved for an entity in a class (Table SW-5). -/
def Dev.reserved (d : Dev) (e : Entity) (c : MsgClass) : Nat :=
  d.rd (resvReg e) (16 * classCode c + 15) (16 * classCode c)

def Dev.reservedAll (d : Dev) (r : Reg) : Nat := d.rd r 15 0 + d.rd r 31 16 + d.rd r 47 32 + d.rd r 63 48

/-- The sum of all reservations. -/
def Dev.allReserved (d : Dev) : Nat :=
  ((List.range 64).map fun p => d.reservedAll (.prtResv p)).sum + ((List.range 16).map fun s => d.reservedAll (.stlResv s)).sum +
    ((List.range 16).map fun t => d.reservedAll (.intResv t)).sum + d.reservedAll .mgtResv

/-- Shared cells that a link has set aside for the credits it advertises (R114). -/
def Dev.setAside (d : Dev) (s : Nat) : Nat := (classes.map fun c => (d.lrec s).extra.get c).sum

/-- Free cells of the shared pool (R112, R114). -/
def Dev.sharedFree (d : Dev) : Nat :=
  d.cellsIn - d.allReserved - (d.holding.map (·.fromShared)).sum - ((List.range 16).map d.setAside).sum

/-- 16 α of an entity: 2^(ALPHA - 4), ALPHA 8 to 15 acting as 7; 1 for an internal entity (R114, Table SW-10). -/
def Dev.alpha16 (d : Dev) : Entity → Nat
  | .port p => 2 ^ min 7 (d.rd (.prtClassWeight p) 31 28)
  | .link s => 2 ^ min 7 (d.rd (.stlClassWeight s) 31 28)
  | _ => 16

/-- Whether n more cells can come from the shared pool, one by one, while own (the entity's shared cells) stays below α
times the free cells (R114). -/
def mayShare (a16 : Nat) : Nat → Nat → Nat → Bool
  | 0, _, _ => true
  | n + 1, own, free => decide (0 < free ∧ own * 16 < a16 * free) && mayShare a16 n (own + 1) (free - 1)

/-- The credit types of a class on a CXL port, by number, each with the exclusive share that firmware gives it: one largest message, in
cells (R113, Table SW-3). REQ: M2S Req, M2S RwD, CXL.io posted, CXL.io non-posted, and on a PASS port the two CXL.cache requests. RSP: data,
completion without data, CXL.io completion, BIRsp, and the four CXL.cache responses. The numbers are the model's (log entry 57). -/
def creditShares (pass : Bool) : MsgClass → List Nat
  | .req => [1, 1, 33, 1] ++ if pass then [1, 1] else []
  | .rsp => [1, 1, 33, 1] ++ if pass then [1, 1, 1, 1] else []
  | .snp => 2 :: if pass then [1] else []
  | .mgt => [33]

/-- Reserved cells of a class that the credit types other than one keep for themselves beyond what they use (R113); only a port divides
its reservation. -/
def Dev.keptFor (d : Dev) (e : Entity) (c : MsgClass) (credit : Nat) : Nat :=
  match e with
  | .port p =>
    let used (k : Nat) : Nat := ((d.holding.filter fun m => decide (m.entity = e ∧ m.cls = c ∧ m.credit = k)).map fun m =>
      m.cells - m.fromShared).sum
    ((creditShares (decide (d.portMode p = 3)) c).zipIdx.map fun x => if x.2 = credit then 0 else x.1 - used x.2).sum
  | _ => 0

/-- Cells that a message of an entity takes: from its class reservation first, beyond what its other credit types keep, and then from the
shared pool; the answer is the number of shared cells, or none where neither has room (R113, R114). A link's shared cells are those it set
aside when it advertised them; a CXL port's are set aside as the message arrives, within the credits of its type's share (DESIGN CHOICE,
log entry 68). -/
def Dev.takeCells (d : Dev) (e : Entity) (c : MsgClass) (credit n : Nat) : Option Nat :=
  let mine := d.holding.filter fun m => decide (m.entity = e)
  let used := ((mine.filter fun m => decide (m.cls = c)).map fun m => m.cells - m.fromShared).sum
  let short := n - (d.reserved e c - used - d.keptFor e c credit)
  let aside := match e with
    | .link s => (d.lrec s).extra.get c
    | _ => 0
  if mayShare (d.alpha16 e) (short - aside) (mine.map (·.fromShared)).sum d.sharedFree then some short else none

/-- A link's message uses shared cells that were set aside for it. -/
def Dev.useAside (d : Dev) (e : Entity) (c : MsgClass) (n : Nat) : Dev :=
  match e with
  | .link s => if n = 0 then d else d.modLink s fun r => { r with extra := r.extra.put c (r.extra.get c - n) }
  | _ => d

/-- The quarters that the device places a message's cells in: any of those in the buffer that is not about to leave. -/
def Dev.pickQuarters (d : Dev) : BitVec 4 × Dev :=
  let ok := (bitsSet d.quartersIn 4).filter fun q => !decide (d.sw.leaving = some q)
  let (n, d) := d.openNat
  let chosen := ok.filter fun q => n.testBit q
  let l := if chosen.isEmpty then ok.take 1 else chosen
  (BitVec.ofNat 4 ((l.map (2 ^ ·)).sum), d)

/-! ### Weights and tags (R120, R121) -/

/-- The class-weight register of an egress. -/
def weightReg : Egress → Reg
  | .port p => .prtClassWeight p
  | .link s => .stlClassWeight s
  | .home t => .stlClassWeight t

/-- The weight of a class at an egress; a weight of 0 acts as 1 (R121, Table SW-10). -/
def Dev.classWeight (d : Dev) (e : Egress) (c : MsgClass) : Nat :=
  max 1 (match c with
    | .req => d.rd (weightReg e) 7 0
    | .rsp => d.rd (weightReg e) 15 8
    | .snp => d.rd (weightReg e) 23 16
    | .mgt => d.rd (weightReg e) 27 24)

/-- Whether an egress is that of a POOL port. -/
def Dev.poolEgress (d : Dev) : Egress → Bool
  | .port p => decide (d.portMode p = 2)
  | _ => false

/-- The second-level queue of a message: the per-host queue in class REQ of a POOL port, elsewhere its credit type. -/
def Dev.subQueue (d : Dev) (m : Msg) : Nat := if d.poolEgress m.dest ∧ m.cls = .req then m.hostQueue else m.credit

/-- Whether a message waits in one of the per-host queues, which its credit types share equally (R120). -/
def Dev.hostQueued (d : Dev) (m : Msg) : Bool := d.poolEgress m.dest && decide (m.cls = .req)

/-- The weight of a second-level queue: PRT.HOST_WEIGHT, or equal shares among credit types (R120). -/
def Dev.subWeight (d : Dev) (m : Msg) : Nat :=
  match m.dest with
  | .port p =>
    if d.portMode p = 2 ∧ m.cls = .req then
      max 1 (d.rd (.prtHostWeight p (m.hostQueue / 4)) (8 * (m.hostQueue % 4) + 7) (8 * (m.hostQueue % 4)))
    else 1
  | _ => 1

/-- A finish tag in 1/256 B: S = max(V, F_last) and F = S + L / w, the quotient truncated and at least 1 (R120). -/
def finishTag (v last cost w : Nat) : Nat := max v last + max 1 (cost * 256 / w)

/-- The key of a class's second level among the scheduler's virtual times. -/
def subLevel (c : MsgClass) : Nat := 1 + classCode c

/-- The key of the credit types of a per-host queue among the scheduler's virtual times. -/
def hostLevel (q : Nat) : Nat := 5 + q

/-- A message of a per-host queue receives its tag among that queue's credit types. -/
def Dev.tagCredit (d : Dev) (m : Msg) : Msg × Dev :=
  if d.hostQueued m then
    let level := hostLevel m.hostQueue
    let f := finishTag (tgetD d.sw.vtime (m.dest, level) 0) (tgetD d.sw.flast (m.dest, level, m.credit) 0) m.cost 1
    ({ m with f3 := f }, { d with sw := { d.sw with flast := tset d.sw.flast (m.dest, level, m.credit) f } })
  else (m, d)

/-- A message arrives at its egress queue and receives its tags (R120, R121). -/
def Dev.tag (d : Dev) (m : Msg) : Msg × Dev :=
  let q := d.subQueue m
  let f1 := finishTag (tgetD d.sw.vtime (m.dest, 0) 0) (tgetD d.sw.flast (m.dest, 0, classCode m.cls) 0) m.cost
    (d.classWeight m.dest m.cls)
  let f2 := finishTag (tgetD d.sw.vtime (m.dest, subLevel m.cls) 0)
    (tgetD d.sw.flast (m.dest, subLevel m.cls, q) 0) m.cost (d.subWeight m)
  let flast := tset (tset d.sw.flast (m.dest, 0, classCode m.cls) f1) (m.dest, subLevel m.cls, q) f2
  ({ d with sw := { d.sw with flast := flast } }).tagCredit { m with f1 := f1, f2 := f2 }

/-! ### Entering and leaving the buffer -/

/-- Where an entity's events are counted: the PMU of its Tambour. No Tambour holds the management source, whose discards PMU 36 of the
management cluster and hub counts (DESIGN CHOICE, log entry 58). -/
def entityPmu : Entity → Nat
  | .port p => p / 4
  | .link s => s
  | .tambour t => t
  | .mgmt => 36

/-- The message at the head of a queue: of a whole class at an egress, or of one second-level queue. -/
def Dev.queueHead (d : Dev) (msgs : List Msg) (m : Msg) (whole : Bool) : Option Nat :=
  (msgs.find? fun x => decide (x.dest = m.dest ∧ x.cls = m.cls) && (whole || decide (d.subQueue x = d.subQueue m))).map (·.id)

/-- The time at which the queues of a message took their present heads, after old was what the buffer held (R413). -/
def Dev.markHeads (d : Dev) (old : List Msg) (m : Msg) : Dev :=
  let mark (whole : Bool) (k : Nat) (t : Table (Egress × Nat × Nat) Nat) : Table (Egress × Nat × Nat) Nat :=
    if d.queueHead d.sw.msgs m whole = d.queueHead old m whole then t else tset t (m.dest, classCode m.cls, k) d.now
  { d with sw := { d.sw with headAt := mark false (1 + d.subQueue m) (mark true 0 d.sw.headAt) } }

/-- Take a message into the buffer, with its cells, its quarters and its tags. An internal message for which there is no
room waits (R114); a message from a port or a link always finds the cells behind its credits, or takes no effect. Its age counts from
now (R119). -/
def Dev.store (d : Dev) (m : Msg) : Dev :=
  match d.takeCells m.entity m.cls m.credit m.cells with
  | none =>
    match m.entity with
    | .tambour _ => { d with sw := { d.sw with blocked := d.sw.blocked ++ [m] } }
    | .mgmt => { d with sw := { d.sw with blocked := d.sw.blocked ++ [m] } }
    | _ => d
  | some sh =>
    let (qs, d) := d.pickQuarters
    let (m, d) := (d.useAside m.entity m.cls sh).tag { m with fromShared := sh, quarters := qs, born := d.now }
    (({ d with sw := { d.sw with msgs := d.sw.msgs ++ [m] } }).markHeads d.sw.msgs m).showCells

/-- A number for a new message. -/
def Dev.newId (d : Dev) : Nat × Dev := (d.sw.nextId, { d with sw := { d.sw with nextId := d.sw.nextId + 1 } })

/-- The leaving quarter leaves once all of its cells are free (R110). -/
def Dev.quarterLeaves (d : Dev) : Dev :=
  match d.sw.leaving with
  | some q =>
    if d.holding.any fun m => m.quarters.getLsbD q then d
    else
      (({ d with sw := { d.sw with leaving := none, napping := some q } }).wr .bufStatus (28 + q) (28 + q) 0).setDomState
        (domHub q) 2
  | none => d

/-- Internal messages that waited for cells enter in order as they find room. -/
def Dev.admitBlocked (d : Dev) : Dev :=
  let waiting := d.sw.blocked
  waiting.foldl (fun d m => d.store m) { d with sw := { d.sw with blocked := [] } }

/-- The credits of a message that came through a link go back when its cells are free (log entry 29); shared cells return to the pool
instead (R114). -/
def Dev.cellsBack (d : Dev) (m : Msg) : Dev :=
  match m.entity with
  | .link s => if d.active s then d.returnCredit s m.cls (packetCost (m.raw.length / 8 + 1) - 2 * m.fromShared) else d
  | _ => d

/-- Whether a mirror session has still to read the cells of a message (R129). -/
def Dev.unread (d : Dev) (id : Nat) : Bool := d.sw.sessions.any fun s => s.2.queue.any fun r => decide (r.msg = id)

/-- Cells have become free: a quarter that wants to leave may, and internal messages that waited enter. -/
def Dev.cellsFreed (d : Dev) : Dev := d.quarterLeaves.showCells.admitBlocked

/-- A message leaves the buffer, and its cells are free once every reader has read them (R129). -/
def Dev.unstore (d : Dev) (id : Nat) : Dev :=
  let old := d.sw.msgs
  match old.find? fun m => decide (m.id = id) with
  | none => d
  | some m =>
    let keep := d.unread id
    let d := if keep then d else d.cellsBack m
    let d := { d with sw := { d.sw with
      msgs := old.filter fun m => !decide (m.id = id), linger := if keep then d.sw.linger ++ [m] else d.sw.linger } }
    (d.markHeads old m).cellsFreed

/-- A mirror session has read the cells of a message, or reads them no longer. -/
def Dev.readDone (d : Dev) (id : Nat) : Dev :=
  match d.sw.linger.find? fun m => decide (m.id = id) with
  | some m =>
    if d.unread id then d
    else
      let d := d.cellsBack m
      ({ d with sw := { d.sw with linger := d.sw.linger.filter fun m => !decide (m.id = id) } }).cellsFreed
  | none => d

/-- The receiver of a link may set aside cells of the shared pool and advertise their credits: how many it takes is open, within R114 and
the 1,023 credits of R247 (DESIGN CHOICE, log entry 59). -/
def Dev.advertiseMore (d : Dev) (s : Fin 16) (c : MsgClass) : Dev :=
  let (n, d) := d.openNat
  let mine := d.holding.filter fun m => decide (m.entity = .link s)
  let used := ((mine.filter fun m => decide (m.cls = c)).map (·.fromShared)).sum
  let own := (mine.map (·.fromShared)).sum + d.setAside s
  let ok (k : Nat) : Bool :=
    mayShare (d.alpha16 (.link s)) k own d.sharedFree &&
      decide (min 1023 (2 * d.reserved (.link s) c) + 2 * (used + (d.lrec s).extra.get c + k) ≤ 1023)
  match ((List.range (n % 512 + 1)).filter ok).getLast? with
  | some k => if k = 0 then d else (d.modLink s fun r => { r with extra := r.extra.put c (r.extra.get c + k) }).returnCredit s c (2 * k)
  | none => d

/-! ### Load reported to hosts (R127) -/

/-- The DevLoad code of a wait in ns: 0 Light, 1 Optimal, 2 Moderate Overload, 3 Severe Overload; a threshold below the
one before it counts as equal to that one. -/
def Dev.devLoad (d : Dev) (wait : Nat) (peakWaited : Bool) : Nat :=
  let o := d.rd .devloadThr 7 0
  let m := max o (d.rd .devloadThr 15 8)
  let v := max m (d.rd .devloadThr 23 16)
  let c := if wait < o * 100 then 0 else if wait < m * 100 then 1 else if wait < v * 100 then 2 else 3
  if peakWaited then max 2 c else c

/-! ### Shaping (R122, R123) -/

/-- Rates in 16 MB/s units as thousandths of a byte per ns; PIR is at least CIR, 0xFFFF is unlimited. -/
def Dev.shape (d : Dev) (p : Nat) : Nat × Nat × Nat × Nat :=
  let cir := d.rd (.prtShape p) 15 0
  let pir := max cir (d.rd (.prtShape p) 31 16)
  (cir, pir, d.rd (.prtShape p) 47 32 * 256000, d.rd (.prtShape p) 63 48 * 256000)

/-- The buckets of a port, filled to now: full until first used. -/
def Dev.filled (d : Dev) (p : Nat) : Buckets :=
  let (cir, pir, cbs, pbs) := d.shape p
  match tget d.sw.buckets p with
  | none => ⟨cbs, pbs, d.now⟩
  | some b =>
    let dt := d.now - b.filledAt
    ⟨min cbs (b.committed + cir * 16 * dt), min pbs (b.peak + pir * 16 * dt), d.now⟩

/-- A request of 64 B passes the shaper of port p: none where the peak bucket holds too little, otherwise its colour
(R122, R123). -/
def Dev.passShaper (d : Dev) (p : Nat) : Option Bool × Dev :=
  let (cir, pir, _, _) := d.shape p
  let b := d.filled p
  let put (b : Buckets) (d : Dev) : Dev := { d with sw := { d.sw with buckets := tset d.sw.buckets p b } }
  if pir ≠ 0xFFFF ∧ b.peak < 64000 then (none, put b d)
  else
    let b := if pir = 0xFFFF then b else { b with peak := b.peak - 64000 }
    if cir = 0xFFFF then (some true, put b d)
    else if 64000 ≤ b.committed then (some true, put { b with committed := b.committed - 64000 } d)
    else (some false, put b d)

/-! ### Gates and guard bands (R124 to R126) -/

def gclCtl : Egress → Reg
  | .port p => .prtGclCtl p
  | .link s => .stlGclCtl s
  | .home t => .stlGclCtl t

def gclBase : Egress → Reg
  | .port p => .prtGclBase p
  | .link s => .stlGclBase s
  | .home t => .stlGclBase t

def gclEntry (e : Egress) (b i : Nat) : Reg :=
  match e with
  | .port p => .prtGclEntry p b i
  | .link s => .stlGclEntry s b i
  | .home t => .stlGclEntry t b i

/-- The bank in force. -/
def Dev.gclActive (d : Dev) (e : Egress) : Nat := d.rd (gclCtl e) 29 29

/-- Entries in the bank that a swap puts in force. -/
def Dev.nextLength (d : Dev) (e : Egress) : Nat := d.rd (gclCtl e) 5 0 + 1

/-- Where the gate list of an egress stands; before the first cycle start the bank in force at reset has LENGTH entries
(log entry 32). -/
def Dev.gateRun (d : Dev) (e : Egress) : GateRun := tgetD d.sw.gates e ⟨2, 0, 0⟩

/-- Interval of entry i of bank b in ns. -/
def Dev.gateInterval (d : Dev) (e : Egress) (b i : Nat) : Nat := 4 * d.rd (gclEntry e b i) 27 0

/-- Whether entry i of bank b opens a class; SNP and MGT are never gated. -/
def Dev.gateOpens (d : Dev) (e : Egress) (b i : Nat) (c : MsgClass) : Bool :=
  match c with
  | .req => d.bitOf (gclEntry e b i) 28
  | .rsp => d.bitOf (gclEntry e b i) 29
  | _ => true

/-- The cycle length of a bank's first n entries in ns. -/
def Dev.gateCycle (d : Dev) (e : Egress) (b n : Nat) : Nat := ((List.range n).map fun i => d.gateInterval e b i).sum

/-- Round up to a multiple of 4 ns. -/
def ceil4 (num den : Nat) : Nat := 4 * ceilDiv num (4 * den)

/-- The guard band G_c in ns (R125, Table SW-14). On a CXL port the largest message needs 18 flits of 256 B; in 68-byte
flits 65 of them (log entry 33). On a Stitch link 2,310 bits. At CXL rates below 64 GT/s, for which the table has no row, the line code is
left out (DESIGN CHOICE, log entry 60). Under L0p the width is the reduced one. -/
def Dev.guardBand (d : Dev) : Egress → Nat
  | .port p =>
    let lanes := if d.bitOf (.prtStatus p) 11 then (tgetD d.port.recs p.val PortRec.reset).l0p else d.rd (.prtStatus p) 20 16
    let gts10 := [25, 50, 80, 160, 320, 640].getD (d.rd (.prtStatus p) 23 21 - 1) 25
    let bits := if d.bitOf (.prtStatus p) 15 then 18 * 256 * 8 else 65 * 68 * 8
    if lanes = 0 then 0 else ceil4 (10 * bits) (lanes * gts10)
  | .link s =>
    let lanes := (bitsSet (d.rd (.stlStatus s) 23 20) 4).length
    let half := if d.bitOf (.stlStatus s) 15 then 1 else 2
    if lanes = 0 then 0 else ceil4 (2310 * 1000) (lanes * half * 53125)
  | .home _ => 0

/-- The gate of a class over the entries from the one in force to the end of the cycle, and over the cycle after it: that of the bank
which a pending swap puts in force, if any (R125, R126). -/
def Dev.gateAhead (d : Dev) (e : Egress) (c : MsgClass) : List (Bool × Nat) :=
  let g := d.gateRun e
  let b := d.gclActive e
  let entry (b i : Nat) : Bool × Nat := (d.gateOpens e b i c, d.gateInterval e b i)
  let swap := d.bitOf (gclCtl e) 30
  ((List.range g.length).drop g.entry).map (entry b) ++
    (List.range (if swap then d.nextLength e else g.length)).map (entry (if swap then 1 - b else b))

/-- Time until a run of gates first closes; none where it stays open. -/
def closesAfter : List (Bool × Nat) → Option Nat
  | [] => none
  | (o, t) :: r => if o then (closesAfter r).map (· + t) else some 0

/-- Whether a new message of a class may start at an egress now: its gate is open and does not close within G_c. -/
def Dev.gateAllows (d : Dev) (e : Egress) (c : MsgClass) : Bool :=
  if c = .snp ∨ c = .mgt ∨ ¬ d.bitOf (gclCtl e) 31 then true
  else
    let g := d.gateRun e
    let b := d.gclActive e
    if d.gateOpens e b g.entry c then
      match closesAfter (d.gateAhead e c) with
      | none => true
      | some t => decide (d.now + d.guardBand e ≤ g.since + t)
    else false

/-- The class a message is withheld in for a guard band: its gate is open but closes too soon (Table TM-2, 0x1038). -/
def Dev.guarded (d : Dev) (e : Egress) (c : MsgClass) : Bool :=
  !d.gateAllows e c && d.gateOpens e (d.gclActive e) (d.gateRun e).entry c

/-! ### Mirroring (R128 to R130) -/

/-- The number of an entity or egress in GLB.MIR_CTL.PORT. -/
def tapOfEntity : Entity → Option Nat
  | .port p => some p.val
  | .link s => some (64 + s.val)
  | _ => none

def tapOfEgress : Egress → Option Nat
  | .port p => some p.val
  | .link s => some (64 + s.val)
  | .home _ => none

/-- Bytes that a session captures (Table SW-19, SNAP). -/
def snapBytes (snap len : Nat) : Nat := if snap = 0 then 0 else if snap = 7 then len else min len (64 * 2 ^ (snap - 1))

/-- Whether session s selects a message at a tap (R128). -/
def Dev.mirrorSelects (d : Dev) (s tap : Nat) (m : Msg) (egress : Bool) : Bool :=
  let c := d.reg (.mirCtl s)
  decide (getBits c 31 31 = 1 ∧ d.linkState s = 5 ∧ getBits c 30 24 = tap) &&
    (getBits c 23 22).testBit (if egress then 1 else 0) && (getBits c 21 18).testBit (classCode m.cls) &&
    (decide (getBits c 17 17 = 0) || decide (m.domain = some (BitVec.ofNat 12 (getBits c 15 4)))) &&
    (decide (getBits c 16 16 = 0) ||
      (match m.paddr with
       | some a => decide (d.rd (.mirLo s) 45 6 ≤ a / 64 ∧ a / 64 ≤ d.rd (.mirHi s) 45 6)
       | none => false))

def Dev.session (d : Dev) (s : Nat) : MirrorSession := tgetD d.sw.sessions s ⟨[], 0, 0⟩

def Dev.setSession (d : Dev) (s : Nat) (x : MirrorSession) : Dev :=
  { d with sw := { d.sw with sessions := tset d.sw.sessions s x } }

/-- A session drops a record and counts it (R129). -/
def Dev.mirrorDrop (d : Dev) (s : Nat) : Dev :=
  let x := d.session s
  (d.setSession s { x with drops := satAdd 0xFFFFFFFF x.drops 1 }).count s 0x1041 1

/-- The length of a message whose bytes the model does not hold: a CXL.mem request without data one slot of 16 B, one with data a slot and
its line (PRESUMED from CXL 3.1, log entry 57), otherwise its length on the link. -/
def Msg.length (m : Msg) : Nat :=
  match m.kind with
  | .hostMemRead => 16
  | .hostMemWrite => 80
  | .homeRead _ => 16
  | .homeWrite _ => 80
  | _ => m.cost

/-- The records of a message whose cells are lost are dropped (R110, R129). -/
def Dev.dropRecords (d : Dev) (id : Nat) : Dev :=
  ((List.range 16).foldl (fun (d : Dev) s =>
    let x := d.session s
    let n := (x.queue.filter fun r => decide (r.msg = id)).length
    let d := if n = 0 then d else d.setSession s { x with queue := x.queue.filter fun r => !decide (r.msg = id) }
    (List.range n).foldl (fun (d : Dev) _ => d.mirrorDrop s) d) d).readDone id

/-- The bytes of a message as its link layer carries it: those the model holds, or open ones (log entry 38). -/
def Dev.rawBytes (d : Dev) (m : Msg) : List Byte × Dev :=
  if m.raw.isEmpty then
    let (n, d) := d.openNat
    ((List.range m.length).map (Config.standardByte (65536 * n)), d)
  else (m.raw, d)

/-- A session takes a record of a message, or drops it where its queue of 256 is full. Of a message in an enabled locked pool
region it records the header alone (R129, R337). -/
def Dev.mirrorTake (d : Dev) (s tap : Nat) (m : Msg) (egress : Bool) : Dev :=
  let x := d.session s
  if 256 ≤ x.queue.length then d.mirrorDrop s
  else
    let (raw, d) := d.rawBytes m
    let locked := (m.paddr.bind fun a => d.lockedCovers true a).isSome
    let cap := if locked then 0 else snapBytes (d.rd (.mirCtl s) 2 0) raw.length
    let flags := (if egress then 1 else 0) + 2 * classCode m.cls + (if locked ∨ cap < raw.length then 8 else 0) +
      (if m.poison then 16 else 0)
    let r : MirrorRec :=
      { msg := m.id, ftime := m.born, port := tap, flags := flags, domain := (m.domain.map (·.toNat)).getD 0, origLen := raw.length
        paddr := (m.paddr.map fun a => 2 ^ 63 + a).getD 0, data := raw.take cap }
    d.setSession s { x with queue := x.queue ++ [r] }

/-- Every session looks at a message at a tap. -/
def Dev.mirror (d : Dev) (tap : Option Nat) (m : Msg) (egress : Bool) : Dev :=
  match tap with
  | none => d
  | some n => (List.range 16).foldl (fun d s => if d.mirrorSelects s n m egress then d.mirrorTake s n m egress else d) d

/-! ### The home side of the buffer -/

/-- The number of an egress in the internal header (R109). -/
def egressNumber : Egress → Nat
  | .port p => p.val
  | .link s => 64 + s.val
  | .home t => t.val

/-- A message kind for an access of an agent that waits for its home. -/
def agentKind (a : Agent) (write : Bool) : MsgKind :=
  match a with
  | .host _ => if write then .hostMemWrite else .hostMemRead
  | .nbr _ _ _ => .neighbourRequest
  | a => .agentAccess a

/-- The entity through which an agent's access enters the buffer. -/
def agentEntity : Agent → Entity
  | .host p => .port p
  | .nbr _ s _ => .link s
  | .engine e => .tambour ⟨e.val / 16, by omega⟩
  | .dmv c => .tambour ⟨c.val / 4, by omega⟩
  | .firmware => .mgmt
  | .debug => .mgmt

/-- The per-host queue of a requester: 0 to 63 host ports, 64 to 79 neighbour slots, 80 internal agents. -/
def hostQueueOf : Agent → Nat
  | .host p => p.val
  | .nbr n _ _ => 64 + n.val
  | _ => 80

/-- The message in the buffer that a request of an agent is, while it waits for its home slice. -/
def Dev.homeMsg (d : Dev) (t : Nat) (req : HomeReq) (write : Bool) : Option Msg :=
  let src : Option Nat := match req.agent with
    | .nbr _ _ src => some src.toNat
    | _ => none
  d.sw.msgs.find? fun m =>
    decide (m.txn = req.txn ∧ m.kind = agentKind req.agent write ∧ m.entity = agentEntity req.agent) &&
      (src.isNone || decide (src = some m.credit)) && (match m.dest with | .home h => decide (h.val = t) | _ => false)

/-- Whether anything is queued for an egress. -/
def Dev.queuedFor (d : Dev) (e : Egress) : Bool :=
  (d.sw.msgs.any fun m => decide (m.dest = e)) || d.sw.blocked.any fun m => decide (m.dest = e)

/-- The kind of Table CO-4 that a neighbour's request of an operation of Table ST-8 has. -/
def opKind : Nat → Option ReqKind
  | 0x01 => some .readShared
  | 0x02 => some .readExclusive
  | 0x03 => some .readCurrent
  | 0x04 => some .write
  | 0x05 => some .partialWrite
  | 0x06 => some .writeBack
  | 0x07 => some .release
  | 0x08 => some .readCurrent
  | 0x09 => some .write
  | 0x0A => some .partialWrite
  | _ => none

/-- A message of a link as it stands in the buffer: words are words 1 on. -/
def Dev.linkMsg (d : Dev) (id : Nat) (s : Fin 16) (dest : Egress) (destC : BitVec 8) (credit : Nat) (ws : List Word) : Msg :=
  { id := id, entity := .link s, cls := (opClass (msgOp ws)).getD .mgt, cells := ceilDiv (8 * (ws.length + 1)) 128
    fromShared := 0, dest := dest, destC := destC
    kind := if opClass (msgOp ws) = some .req then .neighbourRequest else .other, txn := msgTag ws, born := d.now
    domain := if opHasLine (msgOp ws) then some (BitVec.ofNat 12 (msgDomain ws)) else none
    paddr := if opHasLine (msgOp ws) then some (msgLine ws * 64) else none, poison := getBits (word ws 1) 63 63 = 1
    raw := wordBytes ws, credit := credit, hostQueue := 0, cost := 8 * (ws.length + 1), green := true, peakWaited := false
    held := false, f1 := 0, f2 := 0, quarters := 0, homeKind := opKind (msgOp ws) }

/-- A transit message enters the buffer through the link it came on, for another link (R108, R269). -/
def Dev.bufferTransit (d : Dev) (s out : Nat) (ws : List Word) : Dev :=
  if h : s < 16 ∧ out < 16 then
    let (id, d) := d.newId
    let m := d.linkMsg id ⟨s, h.1⟩ (.link ⟨out, h.2⟩) (~~~(BitVec.ofNat 8 (64 + out))) 0 ws
    (d.mirror (tapOfEntity m.entity) m false).store m
  else d

/-- A neighbour's request for a home of this device waits in the buffer until the home accepts it (R88, R108). -/
def Dev.bufferRequest (d : Dev) (s : Nat) (ws : List Word) : Dev :=
  if h : s < 16 then
    let (id, d) := d.newId
    let t := foldSlice (msgLine ws / 16) % 16
    let m := d.linkMsg id ⟨s, h⟩ (.home ⟨t, by omega⟩) (~~~(BitVec.ofNat 8 t)) (msgSrc ws) ws
    (d.mirror (tapOfEntity m.entity) m false).store m
  else d

end Sys2Proof.Machine
end

