-- ==== Sys2Proof/Machine/Send.lean ====
section
/-! DEFINITION. What the device writes itself: replies and snoops of its homes to hosts, and messages to other devices, each of which waits
in the shared buffer for its egress (R107, R111, R112, Table SW-1). -/

namespace Sys2Proof.Machine

/-! ### Which egress takes messages (R463, R204) -/

/-- Whether a PASS port's bound host port is ACTIVE; a port of another mode has none (R204). -/
def Dev.boundActive (d : Dev) (p : Nat) : Bool := !decide (d.portMode p = 3) || decide (d.portState (d.rd (.prtCfg p) 17 12) = 5)

/-- Whether an egress takes new messages: a port in SETUP, ACTIVE or DRAIN whose bound host, if it has one, is ACTIVE, a link in ACTIVE
(R463); in the safe state traffic has stopped (Table FI-8). -/
def Dev.takesMessages (d : Dev) : Egress → Bool
  | .port p => decide (4 ≤ d.portState p ∧ d.portState p ≤ 6) && d.boundActive p && !d.safe
  | .link s => d.active s && !d.safe
  | .home _ => true

/-! ### The device's own messages -/

/-- The Tambour that serves logical slice t: its own, or the one that serves it as guest (R395). -/
def Dev.hostTile (d : Dev) (t : Nat) : Nat :=
  tgetD d.flt.hosts t t

/-- The ingress entity of what the home of a granule writes (Table SW-2). -/
def Dev.homeEntity (d : Dev) (g : Nat) : Entity :=
  let u := d.hostTile (foldSlice g)
  if h : u < 16 then .tambour ⟨u, h⟩ else .mgmt

/-- A message of one cell that the device writes for a port; cost is its length there (PRESUMED from CXL 3.1, log entry 57). -/
def Dev.ownMsg (d : Dev) (e : Entity) (p : Fin 64) (c : MsgClass) (credit cost : Nat) (o : Out) : Msg :=
  { id := d.sw.nextId, entity := e, cls := c, cells := 1, fromShared := 0, dest := .port p
    destC := ~~~(BitVec.ofNat 8 (egressNumber (.port p))), kind := .other, txn := 0, born := d.now, domain := none, paddr := none
    poison := false, raw := [], credit := credit, hostQueue := 80, cost := cost, green := true, peakWaited := false, held := false
    f1 := 0, f2 := 0, quarters := 0, sends := [o] }

/-- A message that the device writes waits for its egress. One for an egress out of service is dropped (R463); in the safe state, which
stops traffic, what it would send goes at once (Table FI-8). What waits for no egress in the model is in log entry 69 (DESIGN CHOICE). -/
def Dev.writeOut (d : Dev) (m : Msg) : Dev :=
  if d.safe then m.sends.foldl (fun d o => d.emit o) d
  else if d.takesMessages m.dest then (d.newId.2).store m
  else (d.newId.2).emit (.discarded m.id)

/-- A response of a home to a host: data, or a completion without data. -/
def Dev.respond (d : Dev) (p : Fin 64) (e : Entity) (data : Bool) (o : Out) : Dev :=
  d.writeOut (d.ownMsg e p .rsp (if data then 0 else 1) (if data then 80 else 16) o)

/-- A BISnp to a host. -/
def Dev.snoopHost (d : Dev) (p : Fin 64) (g : Nat) (o : Out) : Dev := d.writeOut (d.ownMsg (d.homeEntity g) p .snp 0 16 o)

/-! ### Messages to other devices -/

/-- A message of the device's own, as it waits for link s. -/
def Dev.linkOut (d : Dev) (e : Entity) (s : Fin 16) (ws : List Word) : Msg :=
  { d.linkMsg d.sw.nextId s (.link s) (~~~(BitVec.ofNat 8 (egressNumber (.link s)))) 0 ws with
    entity := e, kind := .other, hostQueue := 80, homeKind := none }

/-- Write a message for link s. -/
def Dev.writeLink (d : Dev) (e : Entity) (s : Nat) (ws : List Word) : Dev :=
  if h : s < 16 then d.writeOut (d.linkOut e ⟨s, h⟩ ws) else d

/-- Hand a message of an entity to the egress of its link; none where it has no route. -/
def Dev.postFrom (d : Dev) (e : Entity) (ws : List Word) : Option Dev :=
  match d.routeSlot ws with
  | none => none
  | some n => (d.linkFor n ws).map fun s => d.writeLink e s ws

/-- The entity that writes a message: the home of its line, or the management cluster. -/
def Dev.writerOf (d : Dev) (ws : List Word) : Entity := if opHasLine (msgOp ws) then d.homeEntity (msgLine ws / 16) else .mgmt

/-- Hand a message to the egress of its link; none where it has no route. -/
def Dev.post (d : Dev) (ws : List Word) : Option Dev := d.postFrom (d.writerOf ws) ws

/-- Hand a message over, or drop it where it has no route. -/
def Dev.postOrDrop (d : Dev) (ws : List Word) : Dev := (d.post ws).getD (d.noRoute (msgDst ws))

/-- A tag for a request of the device's own. -/
def Dev.freshTag (d : Dev) : Nat × Dev := (d.fab.tagNext.toNat, { d with fab := { d.fab with tagNext := d.fab.tagNext + 1 } })

/-! ### Messages consumed on arrival (R87, R117, R128) -/

/-- An RSP message that a port or a link delivers to a consumer of the device, which takes it without waiting: its cells are free again at
once, and the mirror sessions see it at its ingress. -/
def Dev.consumed (d : Dev) (m : Msg) : Dev := d.newId.2.mirror (tapOfEntity m.entity) m false

/-- A message of a CXL port to a consumer of the device. -/
def Dev.portMsg (d : Dev) (p : Fin 64) (c : MsgClass) (credit cost line : Nat) (poison : Bool) : Msg :=
  { d.ownMsg (.port p) p c credit cost (.discarded d.sw.nextId) with sends := [], paddr := some (line * 64), poison := poison }

end Sys2Proof.Machine
end

