-- ==== Sys2Proof/Machine/Directory.lean ====
section
/-! DEFINITION. Directory entries: who holds a granule, the integrity check, ways and victims, snoops, and the lost-line
log (R69 to R77, R89, R103). -/

namespace Sys2Proof.Machine

/-! ### Kinds of access (R76) -/

/-- Whether a kind reads. -/
def ReqKind.reads : ReqKind → Bool
  | .readShared => true
  | .readExclusive => true
  | .readCurrent => true
  | _ => false

/-- Whether a kind writes the accessed line. -/
def ReqKind.writes : ReqKind → Bool
  | .write => true
  | .partialWrite => true
  | .writeBack => true
  | _ => false

/-- Whether a kind gives the granule an entry where it has none. -/
def ReqKind.takesWay : ReqKind → Bool
  | .readShared => true
  | .readExclusive => true
  | .takeX => true
  | _ => false

/-! ### Slices -/

/-- The home slice of a granule. -/
def sliceOf (g : Nat) : Nat := foldSlice g

/-- The logical slices that Tambour u serves as a host. -/
def Dev.guestsOf (d : Dev) (u : Nat) : List Nat := (d.flt.hosts.filter fun x => decide (x.2 = u)).map (·.1)

/-- DIR.STATUS of Tambour u shows whether it is split, and its guest (R396). -/
def Dev.showGuests (d : Dev) (u : Nat) : Dev :=
  match d.guestsOf u with
  | [] => (d.wr (.dirStatus u) 29 29 0).wr (.dirStatus u) 28 25 0
  | t :: _ => (d.wr (.dirStatus u) 29 29 1).wr (.dirStatus u) 28 25 t

/-- Whether logical slice t accepts requests: its directory slice and its Tambour are awake and it is not moving (R104). -/
def Dev.sliceReady (d : Dev) (t : Nat) : Bool :=
  let u := d.hostTile t
  decide (d.domState (domTdir u) ≤ 1 ∧ d.domState (domTmb u) ≤ 1) && d.logicUp u && (tget d.flt.moving t).isNone

/-- Ways that a logical slice has: 16, or 8 where its Tambour serves two (R396); two guests divide the upper ways (log entry 51). -/
def Dev.ways (d : Dev) (t : Nat) : Nat :=
  let u := d.hostTile t
  match (d.guestsOf u).length with
  | 0 => 16
  | n => if t = u then 8 else 8 / n

/-! ### Holders -/

/-- The agent code of Table CO-3, for holders of X. -/
def holderCode : Holder → Option Nat
  | .engine e => some e.val
  | .dmv c => some (256 + c.val)
  | _ => none

/-- The vector bit of a holder in S and E (Table CO-1). -/
def holderBit : Holder → Option Nat
  | .port p => some p.val
  | .slot n => some (64 + n.val)
  | _ => none

/-- The holder that an agent is, if it can hold lines (R74). -/
def agentHolder : Agent → Option Holder
  | .host p => some (.port p)
  | .nbr n _ _ => some (.slot n)
  | .engine e => some (.engine e)
  | .dmv c => some (.dmv c)
  | _ => none

/-- Every port and neighbour slot, in vector order. -/
def allSharers : List Holder := (List.finRange 64).map Holder.port ++ (List.finRange 16).map Holder.slot

/-- The sharers that a vector names in S or E. -/
def vectorHolders (v : BitVec 80) : List Holder :=
  allSharers.filter fun h => match holderBit h with
    | some b => v.getLsbD b
    | none => false

/-- The holder that an agent code names. -/
def codeHolder (n : Nat) : Option Holder :=
  if h : n < 256 then some (.engine ⟨n, h⟩)
  else if h : n - 256 < 64 then some (.dmv ⟨n - 256, h⟩)
  else none

/-- The X holder of a vector (Table CO-3). -/
def xHolder (v : BitVec 80) : Option Holder := codeHolder (v.toNat % 512)

/-- The vector with one holder's bit. -/
def bitVector (h : Holder) : BitVec 80 :=
  match holderBit h with
  | some b => (1 : BitVec 80) <<< b
  | none => BitVec.ofNat 80 ((holderCode h).getD 0)

/-- The agents that an entry names. -/
def DirEntry.holders (e : DirEntry) : List Holder :=
  match e.state.toNat with
  | 1 => vectorHolders e.vector
  | 2 => vectorHolders e.vector
  | 3 => (xHolder e.vector).toList
  | _ => []

/-- Whether an entry's owner is a given holder. -/
def DirEntry.ownedBy (e : DirEntry) (h : Holder) : Bool := decide (e.state.toNat = 2) && e.holders.contains h

def mkEntry (g st : Nat) (v : BitVec 80) : DirEntry :=
  { tag := BitVec.ofNat 21 (tagOf g), state := BitVec.ofNat 4 st, stateC := ~~~(BitVec.ofNat 4 st), vector := v, ecc := .good }

/-! ### Counters and changes of entries -/

/-- DIR.STATUS.OCCUPIED and DIR.CT_STATUS of the Tambour that serves a slice follow its tables. -/
def Dev.showSlice (d : Dev) (t : Nat) : Dev :=
  let u := d.hostTile t
  let mine (s : Nat) : Bool := decide (d.hostTile s = u)
  let occupied := (d.dir.entries.filter fun e => mine (sliceOf e.1)).length
  let ct := d.dir.ct.filter fun e => mine e.2.slice
  let d := d.wr (.dirStatus u) 19 0 occupied
  let d := d.wr (.dirCtStatus u) 28 16 ct.length
  let d := d.wr (.dirCtStatus u) 14 8 (d.dir.victims.filter fun v => mine v.2.slice).length
  d.wr (.dirCtStatus u) 5 0 (ct.filter fun e => !e.2.general).length

/-- Whether the victim buffer that logical slice t uses has room: 64 entries, which a guest shares with its host (R90, R396). -/
def Dev.victimRoom (d : Dev) (t : Nat) : Bool :=
  decide ((d.dir.victims.filter fun v => decide (d.hostTile v.2.slice = d.hostTile t)).length < 64)

def Dev.setEntry (d : Dev) (g : Nat) (e : DirEntry) : Dev :=
  ({ d with dir := { d.dir with entries := tset d.dir.entries g e } }).showSlice (sliceOf g)

def Dev.dropEntry (d : Dev) (g : Nat) : Dev :=
  ({ d with dir := { d.dir with entries := tdel d.dir.entries g } }).showSlice (sliceOf g)

/-- The entry of a granule; none is I. -/
def Dev.entry (d : Dev) (g : Nat) : Option DirEntry := tget d.dir.entries g

/-- State of a granule: 0 I, 1 S, 2 E, 3 X. -/
def Dev.entryState (d : Dev) (g : Nat) : Nat := ((d.entry g).map (·.state.toNat)).getD 0

/-- Remove a holder from a granule: I if none remain. -/
def Dev.removeHolder (d : Dev) (g : Nat) (h : Holder) : Dev :=
  match d.entry g with
  | none => d
  | some e =>
    if !e.holders.contains h then d
    else if e.state.toNat = 1 ∧ e.vector &&& ~~~bitVector h ≠ 0 then d.setEntry g { e with vector := e.vector &&& ~~~bitVector h }
    else d.dropEntry g

/-- Add a sharer: S{V, r}, S{r} from I. -/
def Dev.addSharer (d : Dev) (g : Nat) (h : Holder) : Dev :=
  match d.entry g with
  | none => d.setEntry g (mkEntry g 1 (bitVector h))
  | some e => d.setEntry g (mkEntry g 1 (e.vector ||| bitVector h))

/-- The most recently allocated or hit granule of a set (R89). -/
def Dev.touch (d : Dev) (g : Nat) : Dev :=
  { d with dir := { d.dir with mru := tset d.dir.mru (sliceOf g, setOf g) g } }

/-! ### The integrity check (R75) -/

/-- Whether the host of a HOST port has DC region 1: its window has slots of region 1, and while its port is in service the host
supports Back-Invalidate (R27; log entry 34). -/
def Dev.hasRegion1 (d : Dev) (p : Nat) : Bool :=
  decide (d.portMode p = 1) && ((tget d.pool.windows p).map fun w => decide (0 < w.2.2)).getD false &&
    (d.hasBi p || !decide (4 ≤ d.portState p ∧ d.portState p ≤ 6))

/-- Whether Table CO-2 and Table CO-3 allow a vector: in S and E each bit names a HOST port whose host has DC region 1 or a slot of
the neighbour map. -/
def Dev.vectorOk (d : Dev) (st : Nat) (v : BitVec 80) : Bool :=
  let hs := vectorHolders v
  let named := hs.all fun h => match h with
    | .port p => d.hasRegion1 p
    | .slot n => d.slotValid n
    | _ => false
  match st with
  | 0 => decide (v = 0)
  | 1 => named && decide (1 ≤ hs.length)
  | 2 => named && decide (hs.length = 1)
  | 3 => decide (v.toNat < 320)
  | _ => false

/-- Whether an entry passes R75: ECC, STATE against STATE_C, a stable state, its vector, and the fold of its tag and set. -/
def Dev.entryOk (d : Dev) (g : Nat) (e : DirEntry) : Bool :=
  decide (e.ecc ≠ .bad) && decide (e.stateC = ~~~e.state) && decide (e.state.toNat ≤ 3) && d.vectorOk e.state.toNat e.vector &&
    decide (sliceOf (e.tag.toNat * 32768 + setOf g) = sliceOf g)

/-- A single-bit error of an entry is corrected, the entry rewritten, and the event reported. -/
def Dev.correctEntry (d : Dev) (g : Nat) : Dev :=
  match d.entry g with
  | some e => if e.ecc = .single then (d.setEntry g { e with ecc := .good }).report (16 * sliceOf g + 3) 0 g else d
  | none => d

/-! ### Ways and victims (R89, R90) -/

/-- The granules tracked in a set of a slice. -/
def Dev.setGranules (d : Dev) (t set : Nat) : List Nat :=
  (d.dir.entries.filter fun e => decide (sliceOf e.1 = t ∧ setOf e.1 = set)).map (·.1)

/-- The ways that qualify as a victim: neither X nor covered by a conflict-table entry, and not the most recent one while
another qualifies. -/
def Dev.victimsFor (d : Dev) (g : Nat) : List Nat :=
  let q := (d.setGranules (sliceOf g) (setOf g)).filter fun x => decide (d.entryState x ≠ 3) && (tget d.dir.ct x).isNone
  let old := q.filter fun x => !decide (tget d.dir.mru (sliceOf g, setOf g) = some x)
  if old.isEmpty then q else old

/-- The granules of a set that have a way, beside one granule: those tracked, and those whose accepted request has been given the way
that its entry will take (R89). -/
def Dev.waysTaken (d : Dev) (g : Nat) : List Nat :=
  let given := (d.dir.ct.filter fun e => decide (e.2.slice = sliceOf g ∧ setOf e.1 = setOf g) && e.2.coherent && (d.entry e.1).isNone &&
    e.2.kind.takesWay).map (·.1)
  ((d.setGranules (sliceOf g) (setOf g)) ++ given).filter fun x => !decide (x = g)

/-- Whether the granule has an entry or a way can be given to it (R84, fourth condition). -/
def Dev.wayFree (d : Dev) (g : Nat) : Bool :=
  (d.entry g).isSome || decide ((d.waysTaken g).length < d.ways (sliceOf g)) ||
    (d.victimRoom (sliceOf g) && !(d.victimsFor g).isEmpty)

/-! ### Snoops (R77) -/

/-- The operation of a neighbour snoop (Table ST-8). -/
def snoopOp : SnoopKind → Nat
  | .cur => 0x10
  | .dat => 0x11
  | .inv => 0x12

/-- Snoop one line at a sharer, or recall a granule from an internal agent. -/
def Dev.snoop (d : Dev) (h : Holder) (line : Nat) (k : SnoopKind) : Dev :=
  match h with
  | .port p => (d.snoopHost p (granuleOf line) (.snoop h (BitVec.ofNat 40 line) k)).count (sliceOf (granuleOf line)) 0x2007 1
  | .slot n =>
    (d.postOrDrop
      (msgHead (snoopOp k) d.devId (d.slotDev n) (line % 65536) 0 0 false 0 false line)).count
        (sliceOf (granuleOf line)) 0x2007 1
  | _ => d.emit (.recall h (granuleOf line))

/-- The lines of a mask, as offsets. -/
def maskLines (m : BitVec 16) : List Nat := (List.range 16).filter fun i => m.getLsbD i

/-- Snoop the lines of a mask of a granule at every holder of a list; an internal agent receives one recall. -/
def Dev.snoopAll (d : Dev) (hs : List Holder) (g : Nat) (m : BitVec 16) (k : SnoopKind) : Dev :=
  hs.foldl (fun d h =>
    match holderBit h with
    | some _ => (maskLines m).foldl (fun d i => d.snoop h (g * 16 + i) k) d
    | none => d.snoop h (g * 16) k) d

/-- What a recall waits for. -/
def waitsFor (hs : List Holder) (m : BitVec 16) : List Wait := hs.map fun h => ⟨h, m, false, []⟩

/-! ### The lost-line log (R103) -/

/-- AGENT_DEV, AGENT_KIND and AGENT_NUM of a lost-line record; none names no agent. -/
def Dev.lostAgent (d : Dev) : Option Holder → Nat × Nat × Nat
  | some (.port p) => (d.devId, 0, p.val)
  | some (.slot n) => (d.slotDev n, 1, n.val)
  | some (.engine e) => (d.devId, 2, e.val)
  | some (.dmv c) => (d.devId, 3, 256 + c.val)
  | none => (d.devId, 7, 0)

/-- Write a lost-line record to both copies; a full log counts it and reports the overflow (R103). -/
def Dev.logLost (d : Dev) (g mask prior cause : Nat) (who : Option Holder) : Dev :=
  let (dev, kind, num) := d.lostAgent who
  let r : LostRec :=
    { seq := d.dir.lostLog.seq, ftime := d.now, line := g * 16, mask := mask
      domain := (d.blockEntry (blockOfGranule g)).owner.toNat, prior := prior, cause := cause, agentDev := dev, kind := kind
      num := num, slice := sliceOf g }
  let (l, ok) := d.dir.lostLog.append 8192 0 2 d.flt.diesOut r
  let d := { d with dir := { d.dir with lostLog := l } }
  if ok then d else d.report (16 * sliceOf g + 8) (openClass 8) g

/-- The state that a lost-line record gives for a granule: its entry's, or that of the entry in the victim buffer. -/
def Dev.priorState (d : Dev) (g : Nat) : Nat :=
  match d.entry g, tget d.dir.victims g with
  | some e, _ => e.state.toNat
  | none, some v => if v.owned then 2 else 1
  | none, none => 0

/-- The row "Poison(m)" of Table CO-5: poison the lines of a mask in every copy, log the granule, and report it under the
coherence-assist source. Lines of a proxy's granule are poisoned at their home by neighbour writes carrying poison (R95). -/
def Dev.poisonMask (d : Dev) (g mask cause : Nat) (who : Option Holder) : Dev :=
  if mask = 0 then d
  else
    let b := d.blockEntry (blockOfGranule g)
    let lines := (bitsSet mask 16).map fun i => g * 16 + i
    let d := lines.foldl (fun d line =>
      if b.remote then
        let (tag, d) := d.freshTag
        d.postOrDrop (msgHead 0x04 d.devId b.homeDev.toNat tag b.remoteDomain.toNat 0 true 0 false line ++
          List.replicate 8 0)
      else d.poisonLine line) d
    let d := d.logLost g mask (d.priorState g) cause who
    (d.count (sliceOf g) 0x200A lines.length).report (16 * sliceOf g + 8) (openClass 8) g

/-- A neighbour release of a granule whose home grant was E (R93). -/
def Dev.releaseGrant (d : Dev) (g : Nat) : Dev :=
  let b := d.blockEntry (blockOfGranule g)
  let (tag, d) := d.freshTag
  d.postOrDrop (msgHead 0x07 d.devId b.homeDev.toNat tag b.remoteDomain.toNat 0 false 0 false (g * 16))

end Sys2Proof.Machine
end

