-- ==== Sys2Proof/Machine/Conflict.lean ====
section
/-! DEFINITION. The conflict table of a home slice: requester groups, retries, reservations and Grants, and the recalls that an
access needs (R80, R83 to R86). -/

namespace Sys2Proof.Machine

/-! ### Groups and the conflict table (R83 to R86) -/

/-- The requester group of an agent (Table CO-7). -/
def groupOf : Agent → Nat
  | .host p => p.val / 4
  | .nbr _ s _ => 16 + s.val
  | _ => 32

def Dev.ctEntry (d : Dev) (g : Nat) : Option CtEntry := tget d.dir.ct g

def Dev.setCt (d : Dev) (g : Nat) (e : CtEntry) : Dev :=
  ({ d with dir := { d.dir with ct := tset d.dir.ct g e } }).showSlice e.slice

def Dev.modCt (d : Dev) (g : Nat) (f : CtEntry → CtEntry) : Dev :=
  match d.ctEntry g with
  | some e => d.setCt g (f e)
  | none => d

def Dev.dropCt (d : Dev) (g : Nat) : Dev :=
  ({ d with dir := { d.dir with ct := tdel d.dir.ct g } }).showSlice (sliceOf g)

/-- Whether a conflict-table entry only keeps the answered recalls of an access whose command has not come again (log entry 35). -/
def CtEntry.idle (e : CtEntry) : Bool := decide (e.kind = .turn) && e.done

/-- Whether a granule is busy: a conflict-table entry or a victim-buffer entry covers it. An idle entry gives way. -/
def Dev.busy (d : Dev) (g : Nat) : Bool := ((d.ctEntry g).map fun e => !e.idle).getD false || (tget d.dir.victims g).isSome

/-- Whether a general entry of slice t is free: there are 4,063, which a guest shares with its host (R396). -/
def Dev.generalFree (d : Dev) (t : Nat) : Bool :=
  decide ((d.dir.ct.filter fun e => decide (d.hostTile e.2.slice = d.hostTile t) && e.2.general).length < 4063)

/-- Whether the reserved entry of a group at slice t is free: neither in use nor bound to a reservation. A guest shares it with its host
(R396). -/
def Dev.reservedFree (d : Dev) (t grp : Nat) : Bool :=
  (d.dir.ct.all fun e => !decide (d.hostTile e.2.slice = d.hostTile t) ||
    ((e.2.general || !decide (e.2.group = grp)) && e.2.resv.all fun r => !decide (r.1 = grp))) &&
  (d.dir.victims.all fun v => !decide (d.hostTile v.2.slice = d.hostTile t) || v.2.resv.all fun r => !decide (r.1 = grp))

/-- The retried requests that a group keeps for slice t, oldest first (R86). -/
def Dev.retriedList (d : Dev) (grp t : Nat) : List Retried := tgetD d.dir.retried (grp, t) []

def Dev.setRetried (d : Dev) (grp t : Nat) (l : List Retried) : Dev :=
  { d with dir := { d.dir with retried := if l.isEmpty then tdel d.dir.retried (grp, t) else tset d.dir.retried (grp, t) l } }

def sameReq (a b : HomeReq) : Bool := decide (a.agent = b.agent ∧ a.txn = b.txn)

/-- A request is no longer among the retried ones. -/
def Dev.unretry (d : Dev) (grp t : Nat) (req : HomeReq) : Dev :=
  d.setRetried grp t ((d.retriedList grp t).filter fun r => !sameReq r.req req)

/-- Keep a retried request in its place by age. -/
def Dev.keepRetried (d : Dev) (grp t : Nat) (x : Retried) : Dev :=
  let l := d.retriedList grp t
  d.setRetried grp t (if l.any fun r => sameReq r.req x.req then l.map fun r => if sameReq r.req x.req then x else r else l ++ [x])

/-- A neighbour is told of the Retry or the Grant of its request, which waits here in the ingress of its link (R87). -/
def Dev.tellNeighbour (d : Dev) (op : Nat) (req : HomeReq) (resv : Bool) : Dev :=
  match req.agent with
  | .nbr _ _ src =>
    (d.postFrom (d.homeEntity (granuleOf req.line.toNat))
      (msgHead op d.devId src.toNat req.txn 0 0 false 0 resv req.line.toNat)).getD d
  | _ => d

/-- Answer with an internal Retry: with a reservation where the granule is busy and the group's reserved entry is free
(R84). -/
def Dev.retry (d : Dev) (kind : ReqKind) (req : HomeReq) (lines : List (Fin 16 × LineData)) : Dev :=
  let g := granuleOf req.line.toNat
  let t := sliceOf g
  let grp := groupOf req.agent
  let resv := d.busy g && d.reservedFree t grp
  let d := d.count t 0x2001 1
  let d := if resv then d.count t 0x2002 1 else d
  let d := if resv then
      match d.ctEntry g with
      | some e => d.setCt g { e with resv := e.resv ++ [(grp, req.txn)] }
      | none => { d with dir := { d.dir with victims := tmod d.dir.victims g fun v => { v with resv := v.resv ++ [(grp, req.txn)] } } }
    else d
  ((d.keepRetried grp t ⟨kind, req, resv, lines⟩).emit (.retry grp req.txn resv)).tellNeighbour 0x23 req resv

/-- Whether a request is a retried one that holds a reservation, which only its Grant brings back (R85). -/
def Dev.reservedFor (d : Dev) (t : Nat) (req : HomeReq) : Bool :=
  (d.retriedList (groupOf req.agent) t).any fun r => sameReq r.req req && r.reserved

/-- Whether an older retried request of a request's group waits for the same granule of slice t: the newer one waits behind it (R86). -/
def Dev.behindOlder (d : Dev) (t : Nat) (req : HomeReq) : Bool :=
  ((d.retriedList (groupOf req.agent) t).takeWhile fun r => !sameReq r.req req).any fun r =>
    decide (granuleOf r.req.line.toNat = granuleOf req.line.toNat)

/-- The granule is marked HELD for the oldest reservation, and its group receives a Grant (R85). -/
def Dev.holdFor (d : Dev) (g : Nat) : List (Nat × Nat) → Dev
  | [] => d
  | (grp, txn) :: rest =>
    match (d.retriedList grp (sliceOf g)).find? fun r => decide (r.req.txn = txn) && r.reserved with
    | some r =>
      let d := d.setCt g
        { slice := sliceOf g, state := .held, general := false, group := grp, kind := r.kind, req := r.req
          block := blockOfGranule g, coherent := false, remote := false, waits := [], snoop := .inv, answered := none
          resv := rest, done := false, green := true, peakWaited := false, epoch := BitVec.ofNat 2 d.acuEpoch }
      ((d.emit (.grant grp txn)).tellNeighbour 0x24 r.req false).count (sliceOf g) 0x2003 1
    | none => d.holdFor g rest

/-- A granule's entry retires: its access ends, and the next reservation is granted (R85). -/
def Dev.retire (d : Dev) (g : Nat) : Dev :=
  match d.ctEntry g with
  | none => d
  | some e => ((if e.kind = .turn then d else d.endTxn e.req.agent e.req.txn).dropCt g).holdFor g e.resv

/-! ### Recalls (R80) -/

/-- Whether the recalls of an entry concern single lines, whose holders keep the others (Table CO-6, "Inv1"). -/
def CtEntry.oneLine (e : CtEntry) : Bool :=
  decide (e.state = .recall) && (decide (e.kind = .write ∨ e.kind = .partialWrite ∨ e.kind = .release) || (decide (e.kind = .turn) && !e.whole))

/-- The recalls of Table CO-6 for an event from the entry's state: the holders concerned, the lines and the snoop. -/
def recallPlan (kind : ReqKind) (e : Option DirEntry) (r : Option Holder) (line : Nat) :
    List Holder × BitVec 16 × SnoopKind :=
  match e with
  | none => ([], 0, .inv)
  | some e =>
    let others := e.holders.filter fun h => !decide (some h = r)
    let one : BitVec 16 := (1 : BitVec 16) <<< (line % 16)
    let all := BitVec.allOnes 16
    match e.state.toNat, kind with
    | 1, .readExclusive => (others, all, .inv)
    | 1, .takeX => (e.holders, all, .inv)
    | 1, .write => (others, one, .inv)
    | 1, .partialWrite => (others, one, .inv)
    | 2, .readShared => (others, all, .dat)
    | 2, .readExclusive => (others, all, .inv)
    | 2, .readCurrent => (others, one, .cur)
    | 2, .write => (others, one, .inv)
    | 2, .partialWrite => (others, one, .inv)
    | 2, .takeX => (e.holders, all, .inv)
    | 3, _ => (others, all, .inv)
    | _, _ => ([], 0, .inv)

end Sys2Proof.Machine
end

