-- ==== Sys2Proof/Machine/Access.lean ====
section
/-! DEFINITION. Lines as the home reads and writes them at the expanders, accesses that an engine, a data-mover channel or
firmware makes inside one of its own commands, and the dirty-page log (R18, R33, R34, R79, R192 to R196). -/

namespace Sys2Proof.Machine

/-! ### Lines at the expanders -/

/-- Whether a POOL port carries accesses. -/
def Dev.poolUp (d : Dev) (port : Nat) : Bool := decide (d.portState port = 5 ∨ d.portState port = 6)

/-- What an expander address holds behind every accepted write: the newest write still on its way, or memory (R22). -/
def Dev.memNow (d : Dev) (port addr : Nat) : Option Stored :=
  match (d.dir.expOps.filter fun o => decide (o.port = port ∧ o.addr = addr) && o.what.isSome).getLast? with
  | some o => o.what
  | none => d.memAt port addr

/-- Read copy c of a placed line for a domain: none where its port is down. -/
def Dev.readCopyAt (d : Dev) (p : Place) (c dom real : Nat) : Option (LineData × Bool) × Dev :=
  if d.poolUp (p.port c) then
    let (r, d) := d.decrypt dom real (d.memNow (p.port c) p.addr)
    (some r, d.count (p.port c / 4) 0x3010 1)
  else (none, d)

/-- Read a line of a LOCAL block with the fallback of R34: data and whether it is poison. -/
def Dev.fetchLine (d : Dev) (e : BlockEntry) (real : Nat) : (LineData × Bool) × Dev :=
  match d.place e real, d.xtsDomain e real with
  | some p, (some dom, d) =>
    let c := d.readCopy p (granuleOf real)
    match d.readCopyAt p c dom real with
    | (some (v, false), d) => ((v, false), d)
    | (_, d) =>
      if c = 0 ∧ p.mirr.isSome ∧ d.copyOk p.set p.way 1 then
        match d.readCopyAt p 1 dom real with
        | (some (v, false), d) =>
          let d := match d.memNow (p.port 1) p.addr with
            | some x => d.memWrite p.prim p.addr x
            | none => d
          ((v, false), d.report (16 * sliceOf (granuleOf real) + 4) 0 (p.detail real))
        | (_, d) => ((0, true), (d.poisonLine real).report (16 * sliceOf (granuleOf real) + 4) 2 (p.detail real))
      else ((0, true), d)
  | _, (_, d) => ((0, true), d)

/-- Write a line of a LOCAL block to every copy that takes writes (R23, R36); data for a slot that is not ACTIVE is
discarded (R331). -/
def Dev.putLine (d : Dev) (e : BlockEntry) (real : Nat) (data : LineData) (poison : Bool) : Dev :=
  match d.place e real, (if poison then (some e.owner.toNat, d) else d.xtsDomain e real) with
  | some p, (some dom, d) =>
    match (if poison then some .poison else d.encrypt dom real data) with
    | some v =>
      let copies := [0, 1].filter fun c => d.copyWritten p.set p.way c && (decide (c = 0) || p.mirr.isSome)
      copies.foldl (fun d c => (d.storeCopy (p.port c) p.addr v).count (p.port c / 4) 0x3011 1) d
    | none => d
  | _, (_, d) => d

/-! ### Accesses inside a command (R18, R22, R79 to R84, log entry 35)

An engine, a data-mover channel or firmware makes the accesses of one of its commands through their homes. An access that its home
cannot accept yet, or that needs recalls first, makes the command wait: nothing of the command has happened, except that the recalls
have gone out. Once they are answered, the command's next coming makes the access. -/

/-- The outcome of one line access; a write that is discarded has its normal completion (R52). -/
inductive Access
  | data (v : LineData)
  | poison
  | error
  | dropped
  deriving DecidableEq, Repr

/-- The command's first access that cannot be made yet. -/
def Dev.stall (d : Dev) (x : Stall) : Dev :=
  if d.dir.turn.stall.isSome then d else { d with dir := { d.dir with turn := { d.dir.turn with stall := some x } } }

/-- Whether a firmware channel's access is a mirror copy (R190). -/
def Dev.mirrorCopy (d : Dev) : Agent → Bool
  | .dmv c => d.svc.fwChannels.contains c.val && d.bitOf (.dmv c .actCtl) 8
  | _ => false

/-- Whether the home of a granule can accept a request of an internal agent now: it is awake, no other access covers the granule, and
an entry is free. -/
def Dev.mayEnter (d : Dev) (g : Nat) : Bool × Dev :=
  let t := sliceOf g
  if !d.sliceReady t then (false, d.stall (.asleep t))
  else if d.busy g || !(d.generalFree t || d.reservedFree t 32) then (false, d.stall .covered)
  else (true, d)

/-- The lines that the recalls of a kind of access concern. -/
def ReqKind.turnMask (k : ReqKind) (line : Nat) : BitVec 16 :=
  match k with
  | .takeX => BitVec.allOnes 16
  | _ => (1 : BitVec 16) <<< (line % 16)

/-- Whether the recalls for an agent's access have been answered. -/
def CtEntry.answeredFor (e : CtEntry) (a : Agent) (k : ReqKind) (line : Nat) : Bool :=
  e.idle && decide (e.req.agent = a) && (e.whole || !decide (k = .takeX)) &&
    decide ((if k.reads then e.rdOk else e.wrOk) &&& k.turnMask line = k.turnMask line)

/-- Whether an access of an internal agent can be made at its home, whose directory is read and checked for a COHERENT 1 block: it needs
no recall, or its recalls have been answered (R75, R80). -/
def Dev.mayAccess (d : Dev) (k : ReqKind) (req : HomeReq) (coherent : Bool) : Bool × Dev :=
  let g := granuleOf req.line.toNat
  if !coherent then (true, d)
  else
    match d.entry g with
    | none => (true, d)
    | some e =>
      if !d.entryOk g e then (false, d.stall (.integrity g))
      else
        let d := d.correctEntry g
        if ((d.ctEntry g).map fun x => x.answeredFor req.agent k req.line.toNat).getD false then
          (true, { d with dir := { d.dir with turn := { d.dir.turn with used := d.dir.turn.used ++ [g] } } })
        else if (recallPlan k (d.entry g) (agentHolder req.agent) req.line.toNat).1.isEmpty then (true, d.touch g)
        else (false, d.stall (.recalls k req))

/-- An access of an internal agent up to the home's decision: the outcome, and whether it can be made now. -/
def Dev.agentEnters (d : Dev) (a : Agent) (k : ReqKind) (line : Nat) (dom : DomainId) (n : Needs) : Option Served × Dev :=
  let g := granuleOf line
  let req : HomeReq := ⟨0, a, BitVec.ofNat 40 line, dom, 0, 0, false⟩
  match d.mayEnter g with
  | (false, d) => (none, d)
  | (true, d) =>
    match d.homeOutcome (sliceOf g) req n true (d.mirrorCopy a) with
    | (.here b e, d) =>
      match d.mayAccess k req (e.coherent && !d.mirrorCopy a) with
      | (true, d) => (some (.here b e), d.count (sliceOf g) 0x2000 1)
      | (false, d) => (none, d)
    | (o, d) => (some o, d)

/-- One read current of a line by an internal agent (R76). -/
def Dev.agentRead (d : Dev) (a : Agent) (line : Nat) (dom : DomainId) : Access × Dev :=
  if d.safe then (.poison, d) else
  match d.agentEnters a .readCurrent line dom ⟨true, false⟩ with
  | (some (.here b e), d) =>
    match d.fetchLine e (b * 2 ^ 20 + line % 2 ^ 20) with
    | ((v, false), d) => (.data v, d)
    | (_, d) => (.poison, d)
  | (some .refused, d) => (.poison, d)
  | (some _, d) => (.error, d)
  | (none, d) => (.poison, d)

/-- Bytes i of a line where mask bit i is set come from new. -/
def mergeBytes (old new : LineData) (mask : BitVec 64) : LineData :=
  BitVec.ofNat 512 (ofBytes ((List.range 64).map fun i =>
    BitVec.ofNat 8 ((if mask.getLsbD i then new else old).toNat / 256 ^ i % 256)))

/-- One read, merge and full-line write by an internal agent; without a merge, a write of the whole line. A line whose read half is
poison is not merged and stays poisoned, and the write has its normal completion (R82). -/
def Dev.agentStore (d : Dev) (a : Agent) (line : Nat) (dom : DomainId) (whole : Option LineData) (merge : LineData → LineData) :
    Access × Dev :=
  if d.safe then (.dropped, d) else
  match d.agentEnters a (if whole.isSome then .write else .partialWrite) line dom ⟨false, true⟩ with
  | (some (.here b e), d) =>
    let real := b * 2 ^ 20 + line % 2 ^ 20
    match whole with
    | some v => (.data v, d.putLine e real v false)
    | none =>
      match d.fetchLine e real with
      | ((old, false), d) => (.data (merge old), d.putLine e real (merge old) false)
      | (_, d) => (.poison, d)
  | (some .refused, d) => (.dropped, d)
  | (some _, d) => (.error, d)
  | (none, d) => (.dropped, d)

/-- One write of a line, or of the bytes of a mask, by an internal agent. -/
def Dev.agentWrite (d : Dev) (a : Agent) (line : Nat) (dom : DomainId) (data : LineData) (mask : BitVec 64) : Access × Dev :=
  d.agentStore a line dom (if mask = BitVec.allOnes 64 then some data else none) fun old => mergeBytes old data mask

/-- The recalls of an access that waits for them go out under a conflict-table entry of its granule; what earlier recalls of the same
agent have answered there stays answered. -/
def Dev.beginTurn (d : Dev) (k : ReqKind) (req : HomeReq) : Dev :=
  let g := granuleOf req.line.toNat
  let (hs, mask, snoop) := recallPlan k (d.entry g) (agentHolder req.agent) req.line.toNat
  let old := (d.ctEntry g).filter fun e => e.idle && decide (e.req.agent = req.agent)
  let m := k.turnMask req.line.toNat
  let e : CtEntry :=
    { slice := sliceOf g, state := if d.entryState g = 3 then .xrecall else .recall, general := d.generalFree (sliceOf g), group := 32
      kind := .turn, req := req, block := blockOfGranule g, coherent := true
      remote := false, waits := waitsFor hs mask, snoop := snoop, answered := none, resv := [], done := false, green := true
      peakWaited := false, epoch := BitVec.ofNat 2 d.acuEpoch
      rdOk := (old.map (·.rdOk)).getD 0 ||| m, wrOk := (old.map (·.wrOk)).getD 0 ||| (if k.reads then 0 else m)
      whole := decide (k = .takeX) }
  (d.setCt g e).snoopAll hs g mask snoop

/-- The recalls of an access inside a command have been answered: the entry waits for the command, unless a request has reserved the
granule meanwhile and takes it (R85). -/
def Dev.turnAnswered (d : Dev) (g : Nat) (e : CtEntry) : Dev :=
  if e.resv.isEmpty then d.setCt g { e with done := true } else d.retire g

/-- The Tambour that translates for an agent. -/
def agentTile : Agent → Nat
  | .host p => p.val / 4
  | .engine e => e.val / 16
  | .dmv c => c.val / 4
  | _ => 0

/-! ### The dirty-page log (R192 to R196) -/

/-- The record of a slice by its ID. -/
def Dev.sliceRec (d : Dev) (id : Nat) : Option SliceRec := tget d.svc.slices id

def Dev.dirtyRun (d : Dev) (id : Nat) : DirtyRun := tgetD d.svc.dirty id ⟨false, false, false, false, []⟩

def Dev.setDirtyRun (d : Dev) (id : Nat) (r : DirtyRun) : Dev := { d with svc := { d.svc with dirty := tset d.svc.dirty id r } }

/-- A logged write at a device address owes its page's bit to the buffer that is ACTIVE at this moment; a write outside the window is
noted (R193, R195, R196). -/
def Dev.dirtyMark (d : Dev) (id dpa : Nat) (a : Agent) : Dev :=
  match d.sliceRec id with
  | none => d
  | some s =>
    if !d.bitOf (.dirtyCtl s.port s.index) 31 then d
    else
      let base := d.rd (.dirtyWin s.port s.index) 43 12 * 4096
      let pages := d.rd (.dirtyCtl s.port s.index) 26 0
      if dpa < base ∨ base + pages * 4096 ≤ dpa then d.setDirtyRun id { d.dirtyRun id with outside := true }
      else
        let page := (dpa - base) / 4096
        let active := d.rd (.dirtyStatus s.port s.index) 31 31
        let at_ := d.rd (.dirtyBuf s.port s.index active) 43 6 * 64 + page / 8
        d.setDirtyRun id { d.dirtyRun id with marks := (d.dirtyRun id).marks ++ [⟨active, at_, page % 8, a⟩] }

/-- A bit update: an atomic read, merge and write of the buffer line at its home; an update that fails is noted (R193, R196). -/
def Dev.applyMark (d : Dev) (id : Nat) (m : DirtyMark) : Dev :=
  match d.sliceRec id with
  | none => d
  | some s =>
    let fail (d : Dev) : Dev :=
      if m.buf = d.rd (.dirtyStatus s.port s.index) 31 31 then d.setDirtyRun id { d.dirtyRun id with lost := true }
      else d.setDirtyRun id { d.dirtyRun id with oldLost := true }
    match d.translate s.port m.addr with
    | (none, d) => fail (d.refuseTranslation (agentTile m.agent) m.addr)
    | (some (line, dom), d) =>
      match d.agentStore m.agent line (BitVec.ofNat 12 dom) none fun v => v ||| (1 : LineData) <<< (m.addr % 64 * 8 + m.bit) with
      | (.data _, d) => d
      | (_, d) => fail d

/-- The slice that a data-mover channel belongs to. -/
def Dev.sliceOfChannel (d : Dev) (c : Nat) : Option Nat :=
  (d.svc.slices.find? fun s => s.2.quota.channels.contains (some c)).map (·.1)

/-- The device address of a line in a host's slot window. -/
def Dev.dpaOf (d : Dev) (port line : Nat) : Option Nat :=
  match tget d.pool.windows port with
  | none => none
  | some (base, r0, r1) =>
    ((List.range (r0 + r1)).find? fun s => (d.slotEntry (base + s)).valid &&
      decide ((d.slotEntry (base + s)).block.toNat = blockOfLine line)).map fun s => s * 2 ^ 26 + line % 2 ^ 20 * 64

/-- The engine that an operation occupies a thread of. -/
def OpStage.engine : OpStage → Option Nat
  | .copyingIn e _ _ => some e
  | .copyingOut e _ _ => some e
  | _ => none

/-- The slices that have an operation on an engine. -/
def Dev.slicesOn (d : Dev) (e : Nat) : List SliceRec :=
  (d.svc.slices.map (·.2)).filter fun s => d.svc.rings.any fun x =>
    decide (x.1.1 = s.id) && x.2.ops.any fun o => decide (o.stage.engine = some e)

/-- The slice on whose behalf an internal agent's own write is logged: that of a channel; for an engine the one whose operation it
works on, and of several operations that map the line one that the command does not tell (log entry 36). -/
def Dev.loggedFor (d : Dev) (a : Agent) (line : Nat) : Option (Nat × Nat) × Dev :=
  let at_ (s : SliceRec) : Option (Nat × Nat) := (d.dpaOf s.port line).map fun x => (s.id, x)
  match a with
  | .dmv c => (((d.sliceOfChannel c.val).bind d.sliceRec).bind at_, d)
  | .engine e => d.choose ((d.slicesOn e.val).filterMap at_)
  | _ => (none, d)

/-- Log a write that a home accepts from an internal agent. -/
def Dev.dirtyLog (d : Dev) (a : Agent) (line : Nat) : Dev :=
  match d.loggedFor a line with
  | (some x, d) => d.dirtyMark x.1 x.2 a
  | (none, d) => d

end Sys2Proof.Machine
end

