-- ==== Sys2Proof/Machine/Home.lean ====
section
/-! DEFINITION. The home slice: accepting and retrying requests, the conflict table, the transitions of Table CO-6, expander
accesses, answers to requesters, proxies and victims (R18, R22, R23, R34, R61, R75 to R95). -/

namespace Sys2Proof.Machine

/-! ### Answers to requesters -/

/-- The eight words of a line. -/
def lineWords (v : LineData) : List Word := (List.range 8).map fun i => BitVec.ofNat 64 (v.toNat / 2 ^ (64 * i))

/-- The wait that a response without a wait of its own reports: that of the same host's last granted request at the port
of the line's primary (R127). -/
def Dev.lastWaitOf (d : Dev) (req : HomeReq) : Nat :=
  match d.place (d.blockEntry (blockOfLine req.line.toNat)) req.line.toNat with
  | some p => tgetD d.sw.lastWait (p.prim, hostQueueOf req.agent) 0
  | none => 0

/-- Return data to a requester: a DRS with DevLoad to a host, NDATA with the state granted to a neighbour. -/
def Dev.replyData (d : Dev) (req : HomeReq) (data : LineData) (poison : Bool) (grant wait : Nat) (peak : Bool) : Dev :=
  match req.agent with
  | .nbr _ _ src =>
    d.postOrDrop (msgHead 0x20 d.devId src.toNat req.txn 0 (wait / 100) poison grant false req.line.toNat ++ lineWords data)
  | .host p => d.respond p (d.homeEntity (granuleOf req.line.toNat)) true (.memData req.agent req.txn data poison (d.devLoad wait peak))
  | a => d.emit (.memData a req.txn data poison (d.devLoad wait peak))

/-- Return a completion. -/
def Dev.replyDone (d : Dev) (req : HomeReq) (wait : Nat) (peak : Bool) : Dev :=
  match req.agent with
  | .nbr _ _ src => d.postOrDrop (msgHead 0x21 d.devId src.toNat req.txn 0 (wait / 100) false 0 false req.line.toNat)
  | .host p => d.respond p (d.homeEntity (granuleOf req.line.toNat)) false (.memDone req.agent req.txn (d.devLoad wait peak))
  | a => d.emit (.memDone a req.txn (d.devLoad wait peak))

/-- A refusal by the home: poison for a read, the normal completion for a write; a hold is refused with an access error
(Table PB-8). peak says that the request waited on its peak bucket. -/
def Dev.replyRefused (d : Dev) (kind : ReqKind) (req : HomeReq) (peak : Bool) : Dev :=
  if kind.reads then d.replyData req 0 true 0 (d.lastWaitOf req) peak
  else if kind.writes then d.replyDone req (d.lastWaitOf req) peak
  else d.emit (.accessError req.agent req.txn)

/-- A refusal by the ACU (Table PS-3). -/
def Dev.replyDenied (d : Dev) (kind : ReqKind) (req : HomeReq) (peak : Bool) : Dev :=
  match req.agent with
  | .host _ => d.replyRefused kind req peak
  | .nbr _ _ src => d.postOrDrop (msgHead 0x25 d.devId src.toNat req.txn 0 0 false 3 false req.line.toNat)
  | a => d.emit (.accessError a req.txn)

/-- The outcome that a request without a served access ends in. -/
def Dev.replyOutcome (d : Dev) (kind : ReqKind) (req : HomeReq) (peak : Bool) : Served → Dev
  | .accessError => d.emit (.accessError req.agent req.txn)
  | .acu _ => d.replyDenied kind req peak
  | _ => d.replyRefused kind req peak

/-- A request leaves the shared buffer when its home accepts it (R88). -/
def Dev.leaveBuffer (d : Dev) (kind : ReqKind) (req : HomeReq) : Dev :=
  match d.homeMsg (sliceOf (granuleOf req.line.toNat)) req (!kind.reads) with
  | some m => d.unstore m.id
  | none => d

/-! ### Expander accesses -/

/-- Send one access to an expander: the request is written to the shared buffer for the POOL port's egress. -/
def Dev.sendExp (d : Dev) (req : HomeReq) (real port addr copy : Nat) (what : Option Stored) (fallback green : Bool) : Dev :=
  if h : port < 64 then
    let op := d.dir.opNext
    let t := sliceOf (granuleOf req.line.toNat)
    let x : ExpOp :=
      { op := op, port := port, addr := addr, line := req.line, real := BitVec.ofNat 40 real, what := what, copy := copy
        fallback := fallback, wait := none }
    let d := { d with dir := { d.dir with opNext := op + 1, expOps := d.dir.expOps ++ [x] } }
    let (id, d) := d.newId
    d.store
      { id := id, entity := .tambour ⟨d.hostTile t % 16, by omega⟩, cls := .req, cells := 1, fromShared := 0
        dest := .port ⟨port, h⟩, destC := ~~~(BitVec.ofNat 8 port)
        kind := if what.isSome then .homeWrite op else .homeRead op, txn := req.txn, born := d.now
        domain := some (d.blockEntry (blockOfLine real)).owner, paddr := some (req.line.toNat * 64), poison := decide (what = some .poison), raw := []
        credit := if what.isSome then 1 else 0, hostQueue := hostQueueOf req.agent, cost := 64, green := green
        peakWaited := false, held := false, f1 := 0, f2 := 0, quarters := 0 }
  else d

/-- Whether any expander access of a granule is outstanding. -/
def Dev.opsOf (d : Dev) (g : Nat) : Bool := d.dir.expOps.any fun o => decide (granuleOf o.line.toNat = g)

/-- A line whose every copy has failed reads as poison, and the event is recorded under k = 4 (R23, R34). -/
def Dev.lineLost (d : Dev) (line real : Nat) : Dev :=
  (d.poisonLine real).report (16 * sliceOf (granuleOf line) + 4) 2 (d.lineDetail real)

/-- Write a line to every copy that takes writes: the POOL ports' requests, or the loss of the line where no copy can take
it. Data for a key slot that is not ACTIVE, or for a Domain ID that fails its complement at the XTS engine, is discarded; a poison
write makes no repair-table entry (R23, R36, R45, R102, R331). -/
def Dev.writeLine (d : Dev) (req : HomeReq) (real : Nat) (data : LineData) (poison green : Bool) : Dev :=
  let e := d.blockEntry (blockOfLine real)
  match d.place e real, (if poison then (some e.owner.toNat, d) else d.xtsDomain e real) with
  | some p, (some dom, d) =>
    match (if poison then some .poison else d.encrypt dom real data) with
    | none => d
    | some v =>
      let all := if p.mirr.isSome then [0, 1] else [0]
      let copies := all.filter fun c => d.copyWritten p.set p.way c
      let up := copies.filter fun c => d.poolUp (p.port c)
      if up.isEmpty then d.lineLost req.line.toNat real
      else
        let d := if poison then d
          else (copies.filter fun c => !up.contains c).foldl (fun d c => d.markRepair p c (granuleOf real)) d
        up.foldl (fun d c => d.sendExp req real (p.port c) p.addr c (some v) (decide (up.length = 1)) green) d
  | _, (_, d) => d

/-- An expander write fails: the granule is marked for repair in that copy, and where the other copy has failed too, or
there is none, the line is lost (R23, R35). A poison write makes no repair-table entry (R102). -/
def Dev.writeFails (d : Dev) (o : ExpOp) : Dev :=
  let real := o.real.toNat
  let d := { d with dir := { d.dir with expOps := (d.dir.expOps.filter fun (x : ExpOp) => !decide (x.op = o.op)).map fun (x : ExpOp) =>
    if x.line = o.line ∧ x.what.isSome then { x with fallback := true } else x } }
  match d.place (d.blockEntry (blockOfLine real)) real with
  | none => d
  | some p =>
    if p.mirr.isNone || o.fallback then d.lineLost o.line.toNat real
    else if o.what = some .poison then d
    else d.markRepair p o.copy (granuleOf real)

/-! ### Serving an accepted request -/

/-- The physical line of a conflict-table entry's access. -/
def CtEntry.real (e : CtEntry) : Nat := e.block * 2 ^ 20 + e.req.line.toNat % 2 ^ 20

/-- The state that a read grants a neighbour (Table ST-8): 0 I, 1 S, 2 E. -/
def Dev.granted (d : Dev) (kind : ReqKind) (req : HomeReq) : Nat :=
  match kind with
  | .readShared =>
    match d.entry (granuleOf req.line.toNat), agentHolder req.agent with
    | some e, some h => if e.ownedBy h then 2 else 1
    | _, _ => 1
  | .readExclusive => 2
  | _ => 0

/-- Data for a read has gone to its requester. In a FENCING block a sharer that the read added is back-invalidated at
once, and the access stays outstanding until it has answered (R61). A holder of X is recalled in the same way. -/
def Dev.readServed (d : Dev) (g : Nat) : Dev :=
  match d.ctEntry g with
  | none => d
  | some e =>
    let fencing := decide ((d.blockEntry (blockOfGranule g)).state.toNat = 3)
    let added := (agentHolder e.req.agent).filter fun h => ((d.entry g).map fun x => x.holders.contains h).getD false
    match (if fencing && e.coherent && e.kind.takesWay then added else none) with
    | some h =>
      (d.setCt g { e with state := .recall, kind := .sweep, waits := waitsFor [h] (BitVec.allOnes 16), snoop := .inv }).snoopAll
        [h] g (BitVec.allOnes 16) .inv
    | none => d.setCt g { e with done := true }

/-- Merged bytes of a partial write. -/
def CtEntry.merged (e : CtEntry) (old : LineData) : LineData := mergeBytes old e.req.data e.req.mask

/-- Retire a finished write once no expander access of its granule remains. -/
def Dev.settle (d : Dev) (g : Nat) : Dev :=
  match d.ctEntry g with
  | some e => if e.done && !e.kind.reads && !e.idle && e.waits.isEmpty && !d.opsOf g then d.retire g else d
  | none => d

/-- The read of an accepted access has its data (R82 for the read half of a partial write). -/
def Dev.readArrived (d : Dev) (g : Nat) (data : LineData) (poison : Bool) (wait : Nat) : Dev :=
  match d.ctEntry g with
  | none => d
  | some e =>
    if e.kind = .partialWrite then
      let d := d.setCt g { e with state := .write, done := true }
      if poison then d.settle g
      else (d.writeLine e.req e.real (e.merged data) false e.green).settle g
    else (d.replyData e.req data poison (d.granted e.kind e.req) wait e.peakWaited).readServed g

/-- Read the accessed line: from the copy of R34, from the other one where that port is down, or as poison. -/
def Dev.readLine (d : Dev) (g : Nat) : Dev :=
  match d.ctEntry g with
  | none => d
  | some e =>
    let d := d.setCt g { e with state := .mem }
    match d.place (d.blockEntry e.block) e.real with
    | none => d.readArrived g 0 true 0
    | some p =>
      let c := d.readCopy p (granuleOf e.real)
      if d.poolUp (p.port c) then d.sendExp e.req e.real (p.port c) p.addr c none false e.green
      else if c = 0 ∧ p.mirr.isSome ∧ d.copyOk p.set p.way 1 ∧ d.poolUp (p.port 1) then
        d.sendExp e.req e.real (p.port 1) p.addr 1 none true e.green
      else d.readArrived g 0 true 0

/-- The entry that Table CO-6 gives once the recalls are complete. -/
def Dev.grantEntry (d : Dev) (g : Nat) (kind : ReqKind) (a : Agent) : Dev :=
  match agentHolder a with
  | none => d
  | some r =>
    match kind with
    | .readShared =>
      match d.entry g with
      | some e => if e.holders.contains r then d.touch g else (d.addSharer g r).touch g
      | none => (d.addSharer g r).touch g
    | .readExclusive => (d.setEntry g (mkEntry g 2 (bitVector r))).touch g
    | .takeX => (d.setEntry g (mkEntry g 3 (bitVector r))).touch g
    | _ => d

/-- The recalls of a local access are complete: its entry is written, then it reads, writes or ends (Table CO-6). -/
def Dev.proceed (d : Dev) (g : Nat) : Dev :=
  match d.ctEntry g with
  | none => d
  | some e =>
    match e.kind with
    | .write =>
      let d := (d.replyDone e.req (d.lastWaitOf e.req) e.peakWaited).dirtyLog e.req.agent e.req.line.toNat
      ((d.setCt g { e with state := .write, done := true }).writeLine e.req e.real e.req.data e.req.poisoned e.green).settle g
    | .partialWrite =>
      ((d.replyDone e.req (d.lastWaitOf e.req) e.peakWaited).dirtyLog e.req.agent e.req.line.toNat).readLine g
    | .takeX =>
      let d := ((d.grantEntry g .takeX e.req.agent).replyDone e.req 0 false).readServed g
      if ((d.ctEntry g).map (·.done)).getD true then d.retire g else d
    | .release =>
      let d := e.lines.foldl (fun d l =>
        let real := e.block * 2 ^ 20 + g * 16 % 2 ^ 20 + l.1.val
        d.writeLine { e.req with line := BitVec.ofNat 40 (g * 16 + l.1.val), data := l.2 } real l.2 false e.green) d
      let owned := match agentHolder e.req.agent, d.entry g with
        | some h, some x => x.ownedBy h
        | _, _ => false
      ((if owned then d.dropEntry g else d).setCt g { e with state := .write, done := true }).settle g
    | .turn => d.turnAnswered g e
    | .sweep => d.retire g
    | .death => (d.dropEntry g).retire g
    | .integrity => d.setCt g { e with state := .poison }
    | k =>
      let d := if e.coherent then d.grantEntry g k e.req.agent else d
      match e.answered with
      | some v => (d.replyData e.req v false (d.granted k e.req) (d.lastWaitOf e.req) e.peakWaited).readServed g
      | none => d.readLine g

/-! ### Proxies (R91 to R95) -/

/-- The neighbour operation that carries a request (Table ST-8). A write-back of the E owner slot travels as such, another one as a
write, and one of some bytes as a partial write (R82, R93). -/
def proxyOp (coherent owner : Bool) (k : ReqKind) (part : Bool) : Nat :=
  match k with
  | .readShared => if coherent then 1 else 8
  | .readExclusive => if coherent then 2 else 8
  | .readCurrent => if coherent then 3 else 8
  | _ => if part then (if coherent then 5 else 0xA) else if !coherent then 9 else if owner then 6 else 4

/-- Whether a request covers only some bytes of its line. -/
def partOf (k : ReqKind) (req : HomeReq) : Bool :=
  decide (k = .partialWrite) || (decide (k = .writeBack) && !decide (req.mask = BitVec.allOnes 64))

/-- Send a request to a REMOTE block's home device. Without a route it completes as Table SW-6 gives a discarded
message; reply says that the requester waits for the answer. -/
def Dev.forward (d : Dev) (kind : ReqKind) (req : HomeReq) (b : BlockEntry) (reply : Bool) : Option Dev :=
  let tag := d.fab.tagNext.toNat
  let line := b.remoteBlock.toNat * 2 ^ 20 + req.line.toNat % 2 ^ 20
  let owner := decide (kind = .writeBack) && d.dir.grantE.contains (granuleOf req.line.toNat)
  let head := msgHead (proxyOp b.coherent owner kind (partOf kind req)) d.devId b.homeDev.toNat tag b.remoteDomain.toNat 0
    req.poisoned 0 false line
  let body := if kind.reads then []
    else (if partOf kind req then [BitVec.ofNat 64 req.mask.toNat] else []) ++ lineWords req.data
  (d.postFrom (d.homeEntity (granuleOf req.line.toNat)) (head ++ body)).map fun d =>
    ({ d with fab := { d.fab with tagNext := d.fab.tagNext + 1 }
              dir := { d.dir with proxyOut := tset d.dir.proxyOut tag ⟨kind, req, reply, false⟩ } }).count
      (sliceOf (granuleOf req.line.toNat)) 0x200F 1

/-- A request that the device originated and that found no route or failed completes to its requester as a discarded
message (R270, Table SW-6). -/
def Dev.replyFailed (d : Dev) (kind : ReqKind) (req : HomeReq) : Dev :=
  match req.agent with
  | .host p =>
    let peak := ((d.ctEntry (granuleOf req.line.toNat)).map fun e => e.peakWaited && decide (e.req = req)).getD false
    if kind.reads then d.replyData req 0 true 0 (d.lastWaitOf req) peak
    else (d.replyDone req (d.lastWaitOf req) peak).report (16 * (p.val / 4) + 10) 2 (req.line.toNat * 64 + 2 ^ 46 * p.val)
  | a => d.emit (.accessError a req.txn)

/-- Whether a write-back of a granule is still on its way to the home device. -/
def Dev.writeBacksOut (d : Dev) (g : Nat) : Bool :=
  d.dir.proxyOut.any fun x => decide (x.2.kind = .writeBack ∧ granuleOf x.2.req.line.toNat = g)

/-- A local holder has left a proxy entry: a home grant in E is released when none remains (R93). -/
def Dev.proxyLeft (d : Dev) (g : Nat) : Dev :=
  if (d.entry g).isNone && d.dir.grantE.contains g then
    ({ d with dir := { d.dir with grantE := d.dir.grantE.filter fun x => !decide (x = g) } }).releaseGrant g
  else d

/-- The proxy's local holders have been recalled and their write-backs have completed: the request goes to the home. -/
def Dev.proxyProceed (d : Dev) (g : Nat) : Dev :=
  match d.ctEntry g with
  | none => d
  | some e =>
    if d.writeBacksOut g then d
    else if e.kind = .sweep then (d.proxyLeft g).retire g
    else if e.kind = .death then (d.dropEntry g).retire g
    else
      let b := d.blockEntry (blockOfGranule g)
      match d.forward e.kind e.req b true with
      | some d => d.setCt g { e with state := if e.kind.reads then .mem else .write }
      | none => ((d.noRoute b.homeDev.toNat).replyFailed e.kind e.req).retire g

/-- A recall is complete when nothing is awaited: the access goes on. -/
def Dev.advance (d : Dev) (g : Nat) : Dev :=
  match d.ctEntry g with
  | some e =>
    if (e.state = .recall ∨ e.state = .xrecall) ∧ e.waits.isEmpty then (if e.remote then d.proxyProceed g else d.proceed g) else d
  | none => d

/-! ### Accepting a request (R80, R84) -/

/-- Put an accepted request into the conflict table and start its recalls. -/
def Dev.takeIn (d : Dev) (kind : ReqKind) (req : HomeReq) (block : Nat) (coherent remote granted : Bool) : Dev :=
  let g := granuleOf req.line.toNat
  let t := sliceOf g
  let m := d.homeMsg t req (!kind.reads)
  let general := !granted && d.generalFree t
  let kept := ((d.ctEntry g).map (·.resv)).getD []
  let (hs, mask, k) := if coherent then recallPlan kind (d.entry g) (agentHolder req.agent) req.line.toNat else ([], 0, .inv)
  let x := decide (d.entryState g = 3)
  let e : CtEntry :=
    { slice := t, state := if x && !hs.isEmpty then .xrecall else .recall, general := general, group := groupOf req.agent
      kind := kind, req := req, block := block, coherent := coherent, remote := remote, waits := waitsFor hs mask, snoop := k
      answered := none, resv := kept, done := false, green := (m.map (·.green)).getD true
      peakWaited := (m.map (·.peakWaited)).getD false, epoch := BitVec.ofNat 2 d.acuEpoch }
  let d := ((d.unretry (groupOf req.agent) t req).leaveBuffer kind req).setCt g e
  let d := if coherent then d.count t (if (d.entry g).isSome then 0x2004 else 0x2005) 1 else d
  let d := if (d.entry g).isSome && coherent then d.touch g else d
  ((d.count t 0x2000 1).snoopAll hs g mask k).advance g

/-- Every agent that could hold a line of a granule: the HOST ports with DC region 1, the slots of the neighbour map, and
every engine and data-mover channel (R75). -/
def Dev.everyHolder (d : Dev) : List Holder :=
  (allSharers.filter fun h => match h with
    | .port p => d.hasRegion1 p && d.hasBi p
    | .slot n => d.slotValid n
    | _ => false) ++ (List.finRange 256).map Holder.engine ++ (List.finRange 64).map Holder.dmv

/-- A request whose entry gives way to an integrity recovery goes back among the retried ones of its group. -/
def Dev.displace (d : Dev) (g : Nat) : Dev :=
  match d.ctEntry g with
  | some e =>
    if e.kind.reads || e.kind.writes || decide (e.kind = .takeX ∨ e.kind = .release) then
      (d.keepRetried e.group e.slice ⟨e.kind, e.req, false, e.lines⟩).emit (.retry e.group e.req.txn false)
    else d
  | none => d

/-- An entry fails its integrity check: the granule is lost, and every possible holder is recalled (R75). -/
def Dev.integrityFault (d : Dev) (g : Nat) : Dev :=
  let hs := d.everyHolder
  let e : CtEntry :=
    { slice := sliceOf g, state := .recall, general := true, group := 32, kind := .integrity
      req := ⟨0, .firmware, BitVec.ofNat 40 (g * 16), 0, 0, 0, false⟩, block := blockOfGranule g, coherent := true, remote := false
      waits := waitsFor hs (BitVec.allOnes 16), snoop := .inv, answered := none, resv := ((d.ctEntry g).map (·.resv)).getD [], done := false, green := true
      peakWaited := false, epoch := BitVec.ofNat 2 d.acuEpoch }
  ((((d.displace g).report (16 * sliceOf g + 3) 4 g).setCt g e).snoopAll hs g (BitVec.allOnes 16) .inv).advance g

/-- The home checks the entry it reads: a single-bit error is corrected and reported, an INTEGRITY fault starts the
recovery, in which case the answer is false (R75). -/
def Dev.checkEntry (d : Dev) (g : Nat) : Bool × Dev :=
  match d.entry g with
  | none => (true, d)
  | some e => if d.entryOk g e then (true, d.correctEntry g) else (false, d.integrityFault g)

/-- Whether the entry of a granule can be believed. While an access of the granule is past its recalls, or a recovery runs, its entry
has been checked already. -/
def Dev.trustEntry (d : Dev) (g : Nat) : Bool × Dev :=
  match d.ctEntry g with
  | some e => if (e.state = .recall ∨ e.state = .xrecall) ∧ e.kind ≠ .integrity then d.checkEntry g else (decide (e.kind ≠ .integrity), d)
  | none => d.checkEntry g

/-- Make room in the granule's set: the victim's sharers are invalidated by the coherence-assist engine (R89, R90). Where no way can be
given, the answer is false. -/
def Dev.makeWay (d : Dev) (g : Nat) : Bool × Dev :=
  if (d.entry g).isSome ∨ (d.waysTaken g).length < d.ways (sliceOf g) then (true, d)
  else if !d.victimRoom (sliceOf g) then (false, d)
  else
    match d.choose (d.victimsFor g) with
    | (some v, d) =>
      match d.trustEntry v with
      | (true, d) =>
        match d.entry v with
        | some e =>
          let x : Victim := ⟨sliceOf v, decide (e.state.toNat = 2), blockOfGranule v, waitsFor e.holders (BitVec.allOnes 16), []⟩
          let d := { d with dir := { d.dir with victims := tset d.dir.victims v x } }
          (true, ((d.dropEntry v).snoopAll e.holders v (BitVec.allOnes 16) .inv).count (sliceOf g) 0x2006 1)
        | none => (true, d)
      | (false, d) => (false, d)
    | (none, d) => (false, d)

/-- What an operation needs of the ACU (Table PS-2). -/
def ReqKind.needs : ReqKind → Needs
  | .write => ⟨false, true⟩
  | .partialWrite => ⟨false, true⟩
  | .takeX => ⟨true, true⟩
  | _ => ⟨true, false⟩

/-- The kind of an access: that of Table CO-4 for a read that the buffer holds, otherwise the one it comes as (R76). -/
def Dev.kindOf (d : Dev) (kind : ReqKind) (req : HomeReq) : ReqKind :=
  match (d.homeMsg (sliceOf (granuleOf req.line.toNat)) req (!kind.reads)).bind (·.homeKind) with
  | some k => if k.reads && kind.reads then k else kind
  | none => kind

/-- A read exclusive without W permission is served as a read shared (Table PS-2). -/
def Dev.effectiveKind (d : Dev) (kind : ReqKind) (req : HomeReq) : ReqKind :=
  let kind := d.kindOf kind req
  if kind = .readExclusive ∧ (d.acuDecide true (req.line.toNat * 64) (d.requester req.agent) ⟨false, true⟩).isSome then .readShared
  else kind

/-- A served access of a block: the directory of a COHERENT 1 block is read and checked, a way is given where the granule will need one,
and the access admitted. A granted request is accepted all the same where no way can be given (R85; DESIGN CHOICE, log entry 30). -/
def Dev.serve (d : Dev) (kind : ReqKind) (req : HomeReq) (block : Nat) (coherent remote granted : Bool) : Dev :=
  let g := granuleOf req.line.toNat
  if !coherent then d.takeIn kind req block false remote granted
  else
    match d.checkEntry g with
    | (false, d) => d.retry kind req []
    | (true, d) =>
      if !granted && !d.wayFree g then d.retry kind req []
      else
        match (if kind.takesWay then d.makeWay g else (true, d)) with
        | (ok, d) => if ok || granted then d.takeIn kind req block true remote granted else d.retry kind req []

/-- Whether the message of a request waits on the peak bucket of its port (R122). -/
def Dev.heldBack (d : Dev) (kind : ReqKind) (req : HomeReq) : Bool :=
  ((d.homeMsg (sliceOf (granuleOf req.line.toNat)) req (!kind.reads)).map (·.held)).getD false

/-- Whether a request can be taken now, its granule and an entry being free (R84); a Grant has settled that already (R85). -/
def Dev.mayTake (d : Dev) (req : HomeReq) (granted : Bool) : Bool :=
  let g := granuleOf req.line.toNat
  granted || (!d.busy g && (d.generalFree (sliceOf g) || d.reservedFree (sliceOf g) (groupOf req.agent)))

/-- A request reaches its home slice: it waits while the slice sleeps or moves, while its port's shaper holds it, while it waits for a
Grant, or behind an older retried request for its granule; it is retried where the granule is busy or no entry is free; otherwise
Table PB-8 and the ACU decide (R18, R52, R84, R86, R104). granted says that it is the resend of a granted request, which is not checked
again (R85). -/
def Dev.arrive (d : Dev) (kind : ReqKind) (req : HomeReq) (granted : Bool) : Dev :=
  let g := granuleOf req.line.toNat
  let t := sliceOf g
  if d.safe then ((d.leaveBuffer kind req).replyRefused kind req false).endTxn req.agent req.txn
  else if !d.sliceReady t || d.heldBack kind req || (!granted && d.reservedFor t req) then d
  else if !granted && d.behindOlder t req then (d.takeEpoch t req.agent req.txn).keepRetried (groupOf req.agent) t ⟨kind, req, false, []⟩
  else if !d.mayTake req granted then (d.takeEpoch t req.agent req.txn).retry (d.kindOf kind req) req []
  else
    let kind := d.effectiveKind kind req
    match (d.takeEpoch t req.agent req.txn).homeOutcome t req kind.needs true (d.mirrorCopy req.agent) with
    | (.here b e, d) => d.serve kind req b (e.coherent && !d.mirrorCopy req.agent) false granted
    | (.forward e, d) => d.serve kind req (blockOfGranule g) e.coherent true granted
    | (o, d) =>
      let peak := ((d.homeMsg t req (!kind.reads)).map (·.peakWaited)).getD false
      let d := ((d.leaveBuffer kind req).unretry (groupOf req.agent) t req).replyOutcome kind req peak o
      if granted then d.retire g else d.endTxn req.agent req.txn

/-! ### Write-backs and releases (R80, R81) -/

/-- Whether a recall, a victim or a proxy's snoop awaits an answer of a holder for a granule. -/
def Dev.underRecall (d : Dev) (g : Nat) (h : Holder) : Bool :=
  (((d.ctEntry g).map fun e => e.waits.any fun w => decide (w.holder = h)).getD false) ||
    (((tget d.dir.victims g).map fun v => v.waits.any fun w => decide (w.holder = h)).getD false) ||
    (d.dir.psnoops.any fun x => decide (granuleOf x.1 = g) && x.2.waits.contains h)

/-- Whether a holder is the E owner of a granule, by its entry or by the victim buffer. -/
def Dev.ownerOf (d : Dev) (g : Nat) (h : Holder) : Bool :=
  ((d.entry g).map fun e => e.ownedBy h).getD false ||
    ((tget d.dir.victims g).map fun v => v.owned && v.waits.any fun w => decide (w.holder = h)).getD false

/-- Whether a write of a holder carries data that an earlier checked access placed with it, which the ACU does not check: from the E
owner, or from the holder of X that a recall waits for (R18, R317). -/
def Dev.givesBack (d : Dev) (g : Nat) (h : Holder) : Bool :=
  d.ownerOf g h || (d.underRecall g h && ((d.entry g).map fun e => decide (e.state.toNat = 3) && e.holders.contains h).getD false)

/-- A write-back joins the entry that covers its granule; where it carries the line that the entry's requester asked for,
that data answers the request; an internal agent's wait loses the line (R81, Table CO-6). One of some bytes is a read, merge and
full-line write; a line that reads as poison stays poisoned (R82). -/
def Dev.joinWriteBack (d : Dev) (kind : ReqKind) (req : HomeReq) (block : Nat) (green peak : Bool) : Dev :=
  let g := granuleOf req.line.toNat
  let real := block * 2 ^ 20 + req.line.toNat % 2 ^ 20
  let (new, d) : Option LineData × Dev :=
    if kind = .partialWrite then
      match d.fetchLine (d.blockEntry block) real with
      | ((old, false), d) => (some (mergeBytes old req.data req.mask), d)
      | (_, d) => (none, d)
    else (some req.data, d)
  let d := d.modCt g fun e =>
    let waits := e.waits.map fun w =>
      if (holderBit w.holder).isNone ∧ agentHolder req.agent = some w.holder then
        { w with lines := w.lines &&& ~~~((1 : BitVec 16) <<< (req.line.toNat % 16)) } else w
    if e.req.line = req.line ∧ (e.state = .recall ∨ e.state = .xrecall) ∧ e.kind.reads ∧ ¬ req.poisoned then
      { e with waits := waits, answered := new } else { e with waits := waits }
  let d := (d.replyDone req (d.lastWaitOf req) peak).dirtyLog req.agent req.line.toNat
  match new with
  | some v => d.writeLine req real v req.poisoned green
  | none => d

/-- A write at its home, of a line or of the bytes of its mask (kind): from the E owner or an agent under recall it is a write-back,
accepted and never retried; from any other agent it is a write. Table PB-8 applies (R52, R76, R80, R81, R317). -/
def Dev.writeIn (d : Dev) (kind : ReqKind) (req : HomeReq) : Dev :=
  let g := granuleOf req.line.toNat
  let t := sliceOf g
  match agentHolder req.agent with
  | none => d.arrive kind req false
  | some h =>
    if d.safe || !d.sliceReady t || d.heldBack kind req then d.arrive kind req false
    else
      let d := (d.trustEntry g).2
      if !(d.ownerOf g h || d.underRecall g h) then d.arrive kind req false
      else
        match (d.takeEpoch t req.agent req.txn).homeOutcome t req ⟨false, true⟩ (!d.givesBack g h) false with
        | (.here b _, d) =>
          if d.busy g then
            let m := d.homeMsg t req true
            (((d.leaveBuffer kind req).unretry (groupOf req.agent) t req).joinWriteBack kind req b
              ((m.map (·.green)).getD true) ((m.map (·.peakWaited)).getD false)).endTxn req.agent req.txn
          else d.takeIn kind req b true false false
        | (.forward e, d) =>
          let d := (d.leaveBuffer kind req).unretry (groupOf req.agent) t req
          match d.forward .writeBack (if kind = .write then { req with mask := BitVec.allOnes 64 } else req) e true with
          | some d => d
          | none => ((d.noRoute e.homeDev.toNat).replyFailed .writeBack req).endTxn req.agent req.txn
        | (o, d) =>
          let peak := ((d.homeMsg t req true).map (·.peakWaited)).getD false
          (((d.leaveBuffer kind req).unretry (groupOf req.agent) t req).replyOutcome kind req peak o).endTxn req.agent req.txn

/-- A release is accepted: its lines are written, those of an agent that does not own the granule once the other holders of the lines
have answered, as for a write (Table CO-6). -/
def Dev.takeRelease (d : Dev) (req : HomeReq) (lines : List (Fin 16 × LineData)) (block : Nat) (granted : Bool) : Dev :=
  let g := granuleOf req.line.toNat
  let t := sliceOf g
  let mask : BitVec 16 := lines.foldl (fun m l => m ||| (1 : BitVec 16) <<< l.1.val) 0
  let hs := match d.entry g with
    | some e => if mask = 0 then [] else e.holders.filter fun h => !decide (some h = agentHolder req.agent)
    | none => []
  let x := decide (d.entryState g = 3)
  let e : CtEntry :=
    { slice := t, state := if x && !hs.isEmpty then .xrecall else .recall, general := !granted && d.generalFree t
      group := groupOf req.agent, kind := .release, req := req, block := block, coherent := true, remote := false
      waits := waitsFor hs (if x then BitVec.allOnes 16 else mask), snoop := .inv, answered := none
      resv := ((d.ctEntry g).map (·.resv)).getD [], done := false
      green := true, peakWaited := false, epoch := BitVec.ofNat 2 d.acuEpoch, lines := lines }
  let d := ((d.unretry (groupOf req.agent) t req).leaveBuffer .release req).setCt g e
  ((d.count t 0x2000 1).snoopAll hs g (if x then BitVec.allOnes 16 else mask) .inv).advance g

/-- A neighbour release at its home: the lines it carries are written and the granule leaves E. A busy granule retries it, unless a
recall of that neighbour is in progress, which the lines join; its lines wait with it. Table PB-8 applies to lines (R52, R80, R81). -/
def Dev.releaseIn (d : Dev) (req : HomeReq) (lines : List (Fin 16 × LineData)) (granted : Bool) : Dev :=
  let g := granuleOf req.line.toNat
  let t := sliceOf g
  match agentHolder req.agent with
  | none => d
  | some h =>
    if !d.sliceReady t || (!granted && d.reservedFor t req) then d
    else
      let d := (d.trustEntry g).2
      let joins := d.underRecall g h
      if !joins && !granted && d.behindOlder t req then d.keepRetried (groupOf req.agent) t ⟨.release, req, false, lines⟩
      else if !joins && !d.mayTake req granted then d.retry .release req lines
      else
        let (kept, block, d) : List (Fin 16 × LineData) × Nat × Dev :=
          if lines.isEmpty then ([], blockOfGranule g, d)
          else match d.homeOutcome t req ⟨false, true⟩ (!d.givesBack g h) false with
            | (.here b _, d) => (lines, b, d)
            | (_, d) => ([], blockOfGranule g, d)
        if joins then
          kept.foldl (fun d l => d.writeLine { req with line := BitVec.ofNat 40 (g * 16 + l.1.val), data := l.2 }
            (block * 2 ^ 20 + g * 16 % 2 ^ 20 + l.1.val) l.2 false true) (d.leaveBuffer .release req)
        else d.takeRelease req kept block granted

/-! ### Answers to snoops (R77, R81, R94, R97, R98) -/

/-- A wait without one line. -/
def Wait.clear (w : Wait) (line : Nat) (keeps : Bool) : Wait :=
  { w with lines := w.lines &&& ~~~((1 : BitVec 16) <<< (line % 16)), stays := w.stays || keeps }

/-- What a finished wait does to the entry: an invalidated holder leaves it (unless single lines were invalidated), and a downgraded
owner stays as a sharer where it reported S (R77, Table CO-6). -/
def Dev.waitDone (d : Dev) (g : Nat) (e : CtEntry) (w : Wait) : Dev :=
  match e.snoop with
  | .cur => d
  | .dat => if w.stays then d.setEntry g (mkEntry g 1 (bitVector w.holder)) else d.removeHolder g w.holder
  | .inv => if e.oneLine || decide (e.kind = .integrity) then d else d.removeHolder g w.holder

/-- An answer for one line at a conflict-table entry. -/
def Dev.answerCt (d : Dev) (g : Nat) (h : Holder) (line : Nat) (keeps : Bool) : Dev :=
  match d.ctEntry g with
  | none => d
  | some e =>
    match e.waits.find? fun w => decide (w.holder = h) with
    | none => d
    | some w =>
      let w' := w.clear line keeps
      let internal := (holderBit h).isNone
      if internal || decide (w'.lines = 0) then
        let d := d.setCt g { e with waits := e.waits.filter fun x => !decide (x.holder = h) }
        (d.waitDone g e w').advance g
      else d.setCt g { e with waits := e.waits.map fun x => if x.holder = h then w' else x }

/-- An answer for one line at a victim-buffer entry. -/
def Dev.answerVictim (d : Dev) (g : Nat) (h : Holder) (line : Nat) : Dev :=
  { d with dir := { d.dir with victims := tmod d.dir.victims g fun v =>
      { v with waits := (v.waits.map fun w => if w.holder = h then w.clear line false else w).filter fun w => !decide (w.lines = 0) } } }

/-- A proxy answers a home's snoop with NSRSP: STATUS 1 where a local holder keeps S. A granule of which the home has invalidated all
16 lines leaves the proxy's entry; one of which it has downgraded all 16 keeps its local owner as a sharer, where one of the lines was
kept (R94, log entry 37). -/
def Dev.answerHome (d : Dev) (line : Nat) (x : ProxySnoop) : Dev :=
  let g := granuleOf line
  let one : BitVec 16 := (1 : BitVec 16) <<< (line % 16)
  let d := { d with dir := { d.dir with psnoops := tdel d.dir.psnoops line } }
  let d := d.postOrDrop (msgHead 0x22 d.devId x.home.toNat x.tag 0 0 false (if x.keeps then 1 else 0) false line)
  match x.kind with
  | .cur => d
  | .dat =>
    let old := tgetD d.dir.datd g (0, false)
    let m := old.1 ||| one
    let keeps := old.2 || x.keeps
    if m = BitVec.allOnes 16 then
      let d := { d with dir := { d.dir with datd := tdel d.dir.datd g, grantE := d.dir.grantE.filter fun y => !decide (y = g) } }
      match d.entry g with
      | some e => if e.state.toNat = 2 then (if keeps then d.setEntry g (mkEntry g 1 e.vector) else d.dropEntry g) else d
      | none => d
    else { d with dir := { d.dir with datd := tset d.dir.datd g (m, keeps) } }
  | .inv =>
    let m := tgetD d.dir.invd g 0 ||| one
    if m = BitVec.allOnes 16 then
      ({ d with dir := { d.dir with invd := tdel d.dir.invd g, grantE := d.dir.grantE.filter fun y => !decide (y = g) } }).dropEntry g
    else { d with dir := { d.dir with invd := tset d.dir.invd g m } }

/-- An answer for one line of a home's snoop at a proxy. -/
def Dev.answerProxy (d : Dev) (h : Holder) (line : Nat) (keeps : Bool) : Dev :=
  match tget d.dir.psnoops line with
  | none => d
  | some x =>
    let x := { x with waits := x.waits.filter fun y => !decide (y = h), keeps := x.keeps || keeps }
    if x.waits.isEmpty then d.answerHome line x else { d with dir := { d.dir with psnoops := tset d.dir.psnoops line x } }

/-- Whether a snoop of a line at a holder is outstanding. -/
def Dev.snoopOut (d : Dev) (h : Holder) (line : Nat) : Bool :=
  let g := granuleOf line
  let here (ws : List Wait) : Bool := ws.any fun w => decide (w.holder = h) && w.lines.getLsbD (line % 16)
  ((d.ctEntry g).map fun e => here e.waits).getD false || ((tget d.dir.victims g).map fun v => here v.waits).getD false ||
    ((tget d.dir.psnoops line).map fun x => x.waits.contains h).getD false

/-- A line of a holder counts as answered wherever its answer is awaited. -/
def Dev.answered (d : Dev) (h : Holder) (line : Nat) (keeps : Bool) : Dev :=
  let g := granuleOf line
  ((d.answerCt g h line keeps).answerVictim g h line).answerProxy h line keeps

/-- A proxy serves a home's snoop of one line at once against its local state, its victim buffer included (R94). Where its entry fails
the integrity check the recovery recalls every possible holder, and the snoop waits for the local hosts among them (R75). -/
def Dev.proxySnoop (d : Dev) (home : DeviceId) (tag : Nat) (kind : SnoopKind) (line : Nat) : Dev :=
  let g := granuleOf line
  let (sound, d) := d.trustEntry g
  let local_ := match d.entry g with
    | some e => if kind = .inv ∨ e.state.toNat = 2 then e.holders else []
    | none => []
  let leaving : List Holder := match tget d.dir.victims g with
    | some v => (v.waits.filter fun (w : Wait) => w.lines.getLsbD (line % 16)).map (·.holder)
    | none => []
  let waits := if sound then local_ ++ leaving.filter (fun h => !local_.contains h) else d.everyHolder.filter fun h => match h with
    | .port _ => true
    | _ => false
  let x : ProxySnoop := ⟨home, tag, kind, waits, decide (kind = .dat) && waits.isEmpty && (d.entry g).isSome, []⟩
  if waits.isEmpty then d.answerHome line x
  else
    let d := { d with dir := { d.dir with psnoops := tset d.dir.psnoops line x } }
    (if sound then local_ else []).foldl (fun d h => d.snoop h line kind) d

/-! ### Expander answers -/

/-- An expander access that has been sent to its port. -/
def Dev.sentOp (d : Dev) (op : Nat) : Option ExpOp :=
  d.dir.expOps.find? fun o => decide (o.op = op) &&
    !(d.sw.msgs.any fun m => decide (m.kind = .homeRead op ∨ m.kind = .homeWrite op)) &&
    !(d.sw.blocked.any fun m => decide (m.kind = .homeRead op ∨ m.kind = .homeWrite op))

def Dev.dropOp (d : Dev) (op : Nat) : Dev :=
  { d with dir := { d.dir with expOps := d.dir.expOps.filter fun (x : ExpOp) => !decide (x.op = op) } }

/-- A read ends at its home: data, or the mirror where the primary failed, or poison (R34). -/
def Dev.readEnds (d : Dev) (o : ExpOp) (status : ReadStatus) : Dev :=
  let g := granuleOf o.line.toNat
  let real := o.real.toNat
  let e := d.blockEntry (blockOfLine real)
  let stored := d.memNow o.port o.addr
  let d := d.dropOp o.op
  let bad := decide (status ≠ .good) || decide (stored = some .poison)
  let wait := o.wait.getD 0
  match d.place e real with
  | none => d.readArrived g 0 true wait
  | some p =>
    if bad then
      let d := d.count (o.port / 4) (0x6008 + o.port % 4) (if status = .error then 0 else 1)
      if o.copy = 0 ∧ p.mirr.isSome ∧ d.copyOk p.set p.way 1 ∧ d.poolUp (p.port 1) then
        match d.ctEntry g with
        | some c => d.sendExp c.req real (p.port 1) p.addr 1 none true c.green
        | none => d
      else if p.mirr.isSome then (d.lineLost o.line.toNat real).readArrived g 0 true wait
      else d.readArrived g 0 true wait
    else
      match d.xtsDomain e real with
      | (none, d) => d.readArrived g 0 true wait
      | (some dom, d) =>
        let ((v, poison), d) := d.decrypt dom real stored
        let d := d.count (o.port / 4) 0x3010 1
        let d := if o.fallback then
            (match stored with
             | some x => d.memWrite p.prim p.addr x
             | none => d).report (16 * sliceOf g + 4) 0 (p.detail real)
          else d
        d.readArrived g v poison wait

/-- A victim's answers and write-backs have all arrived: the entry is freed, and a request that waited is granted (R90). -/
def Dev.freeVictim (d : Dev) (g : Nat) : Dev :=
  match tget d.dir.victims g with
  | some v =>
    if v.waits.isEmpty && !d.opsOf g then
      let d := ({ d with dir := { d.dir with victims := tdel d.dir.victims g } }).showSlice (sliceOf g)
      let d := if (d.blockEntry v.block).remote then d.proxyLeft g else d
      d.holdFor g v.resv
    else d
  | none => d

end Sys2Proof.Machine
end

