-- ==== Sys2Proof/Machine/Turn.lean ====
section
/-! DEFINITION. Commands that make pool accesses of their own (R18, R22, R80, R84): a command whose access cannot be made yet leaves
everything as it was, except for what it waits for, and makes the access when it comes again (log entry 35); and the bit updates of the
dirty-page log (R193). -/

namespace Sys2Proof.Machine

/-- No access of a command is under way. -/
def Dev.inTurn (d : Dev) : Dev := { d with dir := { d.dir with turn := ⟨none, []⟩ } }

/-- A wake event of the Tambour and the directory slice that serve logical slice t. -/
def Dev.wakeSlice (d : Dev) (t : Nat) : Dev := (d.wake (domTdir (d.hostTile t))).wake (domTmb (d.hostTile t))

/-- What a command does whose access cannot be made yet. -/
def Dev.stalled (d : Dev) : Stall → Dev
  | .asleep t => d.wakeSlice t
  | .covered => d
  | .recalls k req => (d.beginTurn k req).advance (granuleOf req.line.toNat)
  | .integrity g => d.integrityFault g

/-- The entries whose answered recalls a command has used retire with its accesses. -/
def Dev.dropUsed (d : Dev) : Dev :=
  d.dir.turn.used.foldl (fun d g =>
    match d.ctEntry g with
    | some e => if e.idle then d.retire g else d
    | none => d) d

/-- A command's accesses: all of its effect where every one can be made, otherwise only what the first of them waits for. -/
def Dev.attempt (d : Dev) (f : Dev → Dev) : Bool × Dev :=
  let r := f d.inTurn
  match r.dir.turn.stall with
  | none => (true, r.dropUsed.inTurn)
  | some x => (false, d.inTurn.stalled x)

/-- A command that waits for nothing: an access that cannot be made now is left out (log entry 35). -/
def Dev.forced (d : Dev) (f : Dev → Dev) : Dev := (f d.inTurn).dropUsed.inTurn

/-- The holder of X gives it up: the entry becomes I, and a recall that waited for it goes on (Table CO-6). -/
def Dev.releaseX (d : Dev) (who : Holder) (g : Nat) : Dev :=
  let d := if d.entryState g = 3 ∧ ((d.entry g).map fun e => e.holders.contains who) = some true then d.dropEntry g else d
  match d.ctEntry g with
  | some e =>
    if e.waits.any fun w => decide (w.holder = who) then
      (d.setCt g { e with waits := e.waits.filter fun w => !decide (w.holder = who) }).advance g
    else d
  | none => d

/-- An internal agent takes X on a granule (R74, R80): false where Table PB-8 or the ACU refuses it; exempt lifts the bar on COHERENT 0
blocks, which have no directory entry to hold. -/
def Dev.holdX (d : Dev) (a : Agent) (g : Nat) (exempt : Bool) : Bool × Dev :=
  let req : HomeReq := ⟨0, a, BitVec.ofNat 40 (g * 16), (d.blockEntry (blockOfGranule g)).owner, 0, 0, false⟩
  match d.mayEnter g with
  | (false, d) => (true, d)
  | (true, d) =>
    match d.homeOutcome (sliceOf g) req ⟨true, true⟩ true exempt with
    | (.here _ e, d) =>
      let d := d.count (sliceOf g) 0x2000 1
      if !e.coherent then (true, d)
      else
        match d.mayAccess .takeX req true with
        | (false, d) => (true, d)
        | (true, d) =>
          match (if d.wayFree g then d.makeWay g else (false, d)) with
          | (true, d) => (true, d.grantEntry g .takeX a)
          | (false, d) => (true, d.stall .covered)
    | (_, d) => (false, d)

/-- The bit updates that a slice owes, oldest first, up to one that has to wait (R193). -/
def Dev.drainMarks (d : Dev) (id : Nat) : Fifo DirtyMark → Dev
  | [] => d.setDirtyRun id { d.dirtyRun id with marks := [] }
  | m :: rest =>
    match d.attempt fun d => d.applyMark id m with
    | (true, d) => d.drainMarks id rest
    | (false, d) => d.setDirtyRun id { d.dirtyRun id with marks := m :: rest }

/-- The bit updates of every slice that owes some. -/
def Dev.drainAll (d : Dev) : Dev :=
  d.svc.dirty.foldl (fun d x => if x.2.marks.isEmpty then d else d.drainMarks x.1 x.2.marks) d

/-- A command that makes pool accesses of its own. -/
def onAccess (s : State) (f : Dev → Dev) : Host.Outcome State Fault Refusal := onDev s fun d => (d.attempt f).2.drainAll

end Sys2Proof.Machine
end

