-- ==== Sys2Proof/Machine/Coherence.lean ====
section
/-! DEFINITION. Meanings of the commands of pool accesses, the home slices, snoops and proxies (R18 to R24, R74 to R97,
R105). -/

namespace Sys2Proof.Machine

/-! ### Ingress (R18, R26, R122) -/

/-- Whether a host operation writes. -/
def opWrites : HostOp → Bool
  | .memWr => true
  | .memWrPtl => true
  | _ => false

/-- The kind of Table CO-4 that a host's request has by its operation (R76). -/
def hostKind : HostOp → ReqKind
  | .memRdS => .readShared
  | .memRdData => .readShared
  | .memRdA => .readExclusive
  | .memRdI => .readCurrent
  | .memRdNoOp => .readCurrent
  | .memWr => .write
  | .memWrPtl => .partialWrite

/-- The completion of a request that reaches no home: the first row of Table PB-8, or in the safe state that of Table FI-8. It has
waited in no queue and reports Light load (DESIGN CHOICE, log entry 44). -/
def Dev.noTranslation (d : Dev) (p : Fin 64) (op : HostOp) (txn : Nat) : Dev :=
  let o : Out := if opWrites op then .memDone (.host p) txn 0 else .memData (.host p) txn 0 true 0
  d.respond p (.tambour ⟨p.val / 4, by omega⟩) (!opWrites op) o

/-- A CXL.mem request of the host on port p: translated through its slot cache and written to the shared buffer for its
home slice with its kind, or completed. A request that the peak bucket cannot pass waits in the ingress. -/
def Dev.poolIngress (d : Dev) (p : Fin 64) (dpa : Nat) (op : HostOp) (txn : Nat) (poisoned : Bool) : Dev :=
  let d := d.count (p.val / 4) (0x1000 + 4 * (p.val % 4)) 1
  let d := if poisoned then d.count (p.val / 4) (0x6008 + p.val % 4) 1 else d
  if d.safe then d.noTranslation p op txn else
  match d.translate p.val dpa with
  | (none, d) =>
    (d.refuseTranslation (p.val / 4) dpa).noTranslation p op txn
  | (some (line, dom), d) =>
    if (d.takeCells (.port p) .req (if opWrites op then 1 else 0) 1).isNone then d else
    let d := d.takeEpoch (p.val / 4) (.host p) txn
    let (colour, d) := d.passShaper p.val
    let (id, d) := d.newId
    let kind : MsgKind := if opWrites op then .hostMemWrite else .hostMemRead
    let m : Msg :=
      { id := id, entity := .port p, cls := .req, cells := 1, fromShared := 0
        dest := .home ⟨sliceOf (granuleOf line) % 16, by omega⟩, destC := ~~~(BitVec.ofNat 8 (sliceOf (granuleOf line)))
        kind := kind, txn := txn, born := d.now, domain := some (BitVec.ofNat 12 dom), paddr := some (line * 64)
        poison := poisoned, raw := [], credit := if opWrites op then 1 else 0, hostQueue := p.val, cost := 64
        green := colour.getD false, peakWaited := colour.isNone, held := colour.isNone, f1 := 0, f2 := 0
        quarters := 0, homeKind := some (hostKind op) }
    (d.mirror (some p.val) m false).store m

def execPoolRequestIngress (p : Fin 64) (dpa : Nat) (op : HostOp) (txn : Nat) (_data : LineData) (_mask : BitVec 64)
    (poisoned : Bool) (s : State) : Host.Outcome State Fault Refusal :=
  onDev s fun d => if d.portMode p = 1 ∧ d.portState p = 5 then d.poolIngress p dpa op txn poisoned else d

/-- A request for a device below a vPPB of the host: written to the buffer for the PASS port that its window names; no
translation, home slice or XTS engine is on the way (R24). Outside every window of a bound PASS port in service it
completes with Unsupported Request. -/
def execPassThroughRequest (host p : Fin 64) (kind : MsgKind) (credit length txn : Nat) (s : State) :
    Host.Outcome State Fault Refusal :=
  onDev s fun d =>
    if d.portMode host ≠ 1 ∨ d.portState host ≠ 5 then d
    else if d.portMode p = 3 ∧ d.rd (.prtCfg p) 17 12 = host.val ∧ 4 ≤ d.portState p ∧ d.portState p ≤ 6 then
      let (id, d) := d.newId
      let m : Msg :=
        { id := id, entity := .port host, cls := .req, cells := ceilDiv length 128, fromShared := 0, dest := .port p
          destC := ~~~(BitVec.ofNat 8 p.val), kind := kind, txn := txn, born := d.now, domain := none, paddr := none
          poison := false, raw := [], credit := credit, hostQueue := host.val, cost := length, green := true
          peakWaited := false, held := false, f1 := 0, f2 := 0, quarters := 0 }
      ((d.count (host.val / 4) (0x1000 + 4 * (host.val % 4)) 1).mirror (some host.val) m false).store m
    else d.emit (.ioCpl host txn 1 0)

/-! ### Requests at their home -/

def execHomeReadShared (req : HomeReq) (s : State) : Host.Outcome State Fault Refusal :=
  onDev s fun d => d.arrive .readShared req false

def execHomeReadExclusive (req : HomeReq) (s : State) : Host.Outcome State Fault Refusal :=
  onDev s fun d => d.arrive .readExclusive req false

def execHomeReadCurrent (req : HomeReq) (s : State) : Host.Outcome State Fault Refusal :=
  onDev s fun d => d.arrive .readCurrent req false

def execHomeWrite (req : HomeReq) (s : State) : Host.Outcome State Fault Refusal :=
  onDev s fun d => d.writeIn .write req

/-- A partial write: read, merge and full-line write under one conflict-table entry (R82). -/
def execHomePartialWrite (req : HomeReq) (s : State) : Host.Outcome State Fault Refusal :=
  onDev s fun d => d.writeIn .partialWrite req

def execHomeWriteBack (req : HomeReq) (s : State) : Host.Outcome State Fault Refusal :=
  onDev s fun d => d.writeIn (if req.mask = BitVec.allOnes 64 then .write else .partialWrite) req

def execNeighbourRelease (req : HomeReq) (lines : List (Fin 16 × LineData)) (s : State) : Host.Outcome State Fault Refusal :=
  onDev s fun d => d.releaseIn req lines false

/-- Only an engine or a data-mover channel takes X (R74). -/
def execTakeX (req : HomeReq) (s : State) : Host.Outcome State Fault Refusal :=
  onDev s fun d =>
    match req.agent with
    | .engine _ => d.arrive .takeX req false
    | .dmv _ => d.arrive .takeX req false
    | _ => d

def execReleaseX (who : Holder) (granule : BitVec 36) (s : State) : Host.Outcome State Fault Refusal :=
  onDev s fun d => if (holderCode who).isSome then d.releaseX who granule.toNat else d

/-- Every holder has answered or timed out: the 16 lines are written with poison, the entry is written I and the granule
logged with cause 0x7 (R75). -/
def execIntegrityRecoveryDone (granule : BitVec 36) (s : State) : Host.Outcome State Fault Refusal :=
  onDev s fun d =>
    let g := granule.toNat
    match d.ctEntry g with
    | some e => if e.kind = .integrity ∧ e.waits.isEmpty then ((d.poisonMask g 0xFFFF 7 none).dropEntry g).retire g else d
    | none => d

/-! ### Expanders -/

/-- An answer in time ends a port's run of completion timeouts (R219). -/
def Dev.answeredInTime (d : Dev) (p : Nat) : Dev :=
  { d with port := { d.port with recs := tmod d.port.recs p fun (r : PortRec) => { r with timeouts := 0 } } }

/-- The mirror sessions see an expander's answer at its port. -/
def Dev.answerTap (d : Dev) (o : ExpOp) (data poison : Bool) : Dev :=
  if h : o.port < 64 then
    d.consumed (d.portMsg ⟨o.port, h⟩ .rsp (if data then 0 else 1) (if data then 80 else 16) o.line.toNat poison)
  else d

def execExpanderReadResponse (op : Nat) (status : ReadStatus) (s : State) : Host.Outcome State Fault Refusal :=
  onDev s fun d =>
    match d.sentOp op with
    | some o =>
      if o.what.isNone then ((d.answerTap o true (decide (status ≠ .good))).answeredInTime o.port).readEnds o status else d
    | none => d

/-- The line is stored in this copy; the entry of a finished write retires once every copy has completed (R23). -/
def execExpanderWriteCompletion (op : Nat) (s : State) : Host.Outcome State Fault Refusal :=
  onDev s fun d =>
    match d.sentOp op with
    | some o =>
      match o.what with
      | some v => (((((d.answerTap o false false).answeredInTime o.port).memWrite o.port o.addr v).dropOp op).count (o.port / 4) 0x3011 1).settle (granuleOf o.line.toNat)
      | none => d
    | none => d

def execExpanderWriteFailure (op : Nat) (s : State) : Host.Outcome State Fault Refusal :=
  onDev s fun d =>
    match d.sentOp op with
    | some o => if o.what.isSome then (d.writeFails o).settle (granuleOf o.line.toNat) else d
    | none => d

/-! ### Retirement, Grants and resends (R85, R86) -/

/-- An entry retires when its response has gone and no answer, write-back or expander access of its granule is awaited. -/
def execConflictEntryRetire (granule : BitVec 36) (s : State) : Host.Outcome State Fault Refusal :=
  onDev s fun d =>
    let g := granule.toNat
    match d.ctEntry g with
    | some e => if e.done && e.waits.isEmpty && !d.opsOf g then d.retire g else d
    | none => d

/-- A retried request comes to its home again. -/
def Dev.resend (d : Dev) (r : Retried) (granted : Bool) : Dev :=
  if r.kind = .release then d.releaseIn r.req r.lines granted
  else if r.kind.writes ∧ ¬ granted then d.writeIn r.kind r.req
  else d.arrive r.kind r.req granted

/-- The group resends the request that the granule is HELD for, and it is accepted into the reserved entry (R85). -/
def execGrantReceived (granule : BitVec 36) (s : State) : Host.Outcome State Fault Refusal :=
  onDev s fun d =>
    match d.ctEntry granule.toNat with
    | some e =>
      if e.state = .held then
        d.resend (((d.retriedList e.group e.slice).find? fun r => sameReq r.req e.req).getD ⟨e.kind, e.req, true, []⟩) true
      else d
    | none => d

/-- An ingress resends its oldest retried request without reservation whose granule no older request of the list wants,
once the group's reserved entry at that slice is free (R86). -/
def execIngressResend (group : Fin 33) (slice : Fin 16) (s : State) : Host.Outcome State Fault Refusal :=
  onDev s fun d =>
    if d.reservedFree slice group then
      match nextResend [] (d.retriedList group slice) with
      | some r => d.resend r false
      | none => d
    else d
where
  /-- The first request without reservation whose granule has not been seen in the list. -/
  nextResend : List Nat → List Retried → Option Retried
    | _, [] => none
    | seen, r :: rest =>
      let g := granuleOf r.req.line.toNat
      if !r.reserved && !seen.contains g then some r else nextResend (g :: seen) rest

/-! ### Snoop answers and conflicts (R77, R78, R81, R97) -/

/-- The mirror sessions see a BIRsp of a host at its port. -/
def Dev.birspTap (d : Dev) (who : Holder) (line : Nat) : Dev :=
  match who with
  | .port p => d.consumed (d.portMsg p .rsp 3 16 line false)
  | _ => d

/-- A BIRsp, a neighbour's answer or a recall answer. One that nothing awaits is late: it is discarded and counted; one in
time clears the agent's timeout counter (R97, R98). -/
def execBirspReceived (who : Holder) (line : LineNo) (answer : SnoopAnswer) (s : State) : Host.Outcome State Fault Refusal :=
  onDev s fun d =>
    let d := d.birspTap who line.toNat
    if d.snoopOut who line.toNat then
      ({ d with dir := { d.dir with timeouts := tdel d.dir.timeouts who } }).answered who line.toNat
        (decide (answer = SnoopAnswer.shared))
    else d.count (sliceOf (granuleOf line.toNat)) 0x2009 1

/-- BIConflict is completed with BIConflictAck; the order of the host's request follows from whether its home has accepted
it (R78). -/
def execBiconflict (p : Fin 64) (line : LineNo) (s : State) : Host.Outcome State Fault Refusal :=
  onDev s fun d =>
    if d.snoopOut (.port p) line.toNat then d.respond p (d.homeEntity (granuleOf line.toNat)) false (.conflictAck p line) else d

/-- The lines of a granule that a holder has still to answer. -/
def Dev.unanswered (d : Dev) (h : Holder) (g : Nat) : BitVec 16 :=
  (List.range 16).foldl (fun m i => if d.snoopOut h (g * 16 + i) then m ||| (1 : BitVec 16) <<< i else m) 0

/-- A holder leaves every wait of a granule, and what waited goes on. -/
def Dev.stopWaiting (d : Dev) (h : Holder) (g : Nat) : Dev :=
  let d := { d with dir := { d.dir with victims := tmod d.dir.victims g fun v =>
    { v with waits := v.waits.filter fun w => !decide (w.holder = h) } } }
  let d := (List.range 16).foldl (fun d i => d.answerProxy h (g * 16 + i) false) d
  match d.ctEntry g with
  | some e => (d.setCt g { e with waits := e.waits.filter fun w => !decide (w.holder = h) }).advance g
  | none => d

/-- Lines of a recall stay unanswered in Compact mode: they are poisoned, the sharer leaves the vector, the granule is logged
with cause 0x1, and the recall goes on (R97); a proxy entry that the last local holder leaves is released (R93). During an INTEGRITY recovery the holder only counts as answered (R75). -/
def Dev.compactTimeout (d : Dev) (h : Holder) (g : Nat) : Dev :=
  let m := d.unanswered h g
  if m = 0 then d
  else
    let d := d.count (sliceOf g) 0x2008 1
    let d := if (d.ctEntry g).map (·.kind) = some .integrity then d
      else
        let d := (d.poisonMask g m.toNat 1 (some h)).removeHolder g h
        if (d.blockEntry (blockOfGranule g)).remote then d.proxyLeft g else d
    d.stopWaiting h g

def execBisnpTimeout (p : Fin 64) (granule : BitVec 36) (s : State) : Host.Outcome State Fault Refusal :=
  onDev s fun d => if d.compact then d.compactTimeout (.port p) granule.toNat else d

/-! ### Proxies and victims (R90, R93, R94) -/

def execNeighbourSnoopAtProxy (src : DeviceId) (tag : BitVec 16) (kind : Fin 3) (line : LineNo) (s : State) :
    Host.Outcome State Fault Refusal :=
  onDev s fun d =>
    d.proxySnoop src tag.toNat (if kind.val = 0 then .cur else if kind.val = 1 then .dat else .inv) line.toNat

/-- A read of a line of a coherent REMOTE block: the proxy recalls its local holders and forwards it (R93). -/
def execProxyForwardRead (kind : Fin 3) (req : HomeReq) (s : State) : Host.Outcome State Fault Refusal :=
  onDev s fun d =>
    let b := d.blockEntry (blockOfLine req.line.toNat)
    if b.remote ∧ b.coherent then
      d.arrive (if kind.val = 0 then .readShared else if kind.val = 1 then .readExclusive else .readCurrent) req false
    else d

/-- The data of words 3 to 10 of a message. -/
def wordsData (ws : List Word) : LineData := BitVec.ofNat 512 (ofBytes (wordBytes ((ws.drop 2).take 8)))

/-- A forwarded request has failed: it completes as a discarded message (R270, Table SW-6). -/
def Dev.failForwarded (d : Dev) (tag : Nat) : Dev :=
  match tget d.dir.proxyOut tag with
  | none => d
  | some x =>
    let g := granuleOf x.req.line.toNat
    let d := { d with dir := { d.dir with proxyOut := tdel d.dir.proxyOut tag } }
    let d := if x.reply then d.replyFailed x.kind x.req else d
    if x.kind = .writeBack then (d.endTxn x.req.agent x.req.txn).advance g else d.retire g

/-- The kind of local grant that the state of an NDATA allows: the proxy's entry stays at most as strong as the home's grant (R92). -/
def grantedKind (kind : ReqKind) (status : Nat) : ReqKind :=
  if status = 0 then .readCurrent
  else if kind = .readExclusive ∧ status ≠ 2 then .readShared
  else kind

/-- The answer to a forwarded request: NDATA updates the proxy's entry and goes to the local host with the neighbour's
wait, NCMP completes a write, NFAIL fails it (R93, R127, Table ST-8). -/
def Dev.proxyAnswer (d : Dev) (ws : List Word) : Dev :=
  let tag := msgTag ws
  match tget d.dir.proxyOut tag with
  | none => d
  | some x =>
    let g := granuleOf x.req.line.toNat
    let wait := 100 * getBits (word ws 0) 7 0
    let op := msgOp ws
    if op = 0x25 then d.failForwarded tag
    else if op = 0x20 ∧ x.kind.reads then
      let d := { d with dir := { d.dir with proxyOut := tdel d.dir.proxyOut tag, invd := tdel d.dir.invd g, datd := tdel d.dir.datd g } }
      let coherent := (d.blockEntry (blockOfGranule g)).coherent
      let d := if coherent then d.grantEntry g (grantedKind x.kind (msgStatus ws)) x.req.agent else d
      let d := if coherent && decide (msgStatus ws = 2) && !d.dir.grantE.contains g then
          { d with dir := { d.dir with grantE := d.dir.grantE ++ [g] } } else d
      let peak := ((d.ctEntry g).map (·.peakWaited)).getD false
      (d.replyData x.req (wordsData ws) (decide (getBits (word ws 1) 63 63 = 1)) 0 wait peak).readServed g
    else if op = 0x21 ∧ ¬ x.kind.reads then
      let d := { d with dir := { d.dir with proxyOut := tdel d.dir.proxyOut tag } }
      let d := if x.reply then d.replyDone x.req wait (((d.ctEntry g).map (·.peakWaited)).getD false) else d
      if x.kind = .writeBack then (d.endTxn x.req.agent x.req.txn).advance g else d.retire g
    else d

def execProxyDataReceived (words : List Word) (s : State) : Host.Outcome State Fault Refusal :=
  onDev s fun d => d.proxyAnswer words

def execVictimEntryFreed (granule : BitVec 36) (s : State) : Host.Outcome State Fault Refusal :=
  onDev s fun d => d.freeVictim granule.toNat

/-! ### DIR.BI_TIMEOUT (R105) -/

/-- A write takes effect only for 10 µs to 1 s and above the age limit. -/
def dirBiTimeoutWrite (t v : Nat) (d : Dev) : Dev :=
  let n := v % 2 ^ 20
  if 10 ≤ n ∧ n ≤ 1000000 ∧ d.rd .ageLimit 16 0 < n then d.wr (.dirBiTimeout t) 19 0 n else d

def execDirBiTimeoutWrite (t : Fin 16) (v : BitVec 32) (s : State) : Host.Outcome State Fault Refusal :=
  onDev s (dirBiTimeoutWrite t.val v.toNat)

end Sys2Proof.Machine
end

