-- ==== Sys2Proof/Machine/Reset.lean ====
section
/-! DEFINITION. What several flows start: waking a sleeping domain, and what follows a forced revocation. -/

namespace Sys2Proof.Machine

/-- The key vault serves a key command in Run (R359). -/
def Dev.keyvRun (d : Dev) : Dev := if d.domState domKeyv = 1 ∨ d.domState domKeyv = 2 then d.setDomState domKeyv 0 else d

/-- Domain 0 gets a fresh key where its slot holds none (R48). -/
def Dev.rekeyZero (d : Dev) : Dev :=
  if d.drbgOk && decide (d.domState domKeyv ≤ 2) && decide (d.keySlot 0 = .spent) then
    let d := { d with pool := { d.pool with keyGen := d.pool.keyGen + 1 } }
    d.setKeySlot 0 (.active d.pool.keyGen)
  else d

/-- The current debug level becomes n, and the highest one since cold reset follows (Table PS-21). -/
def Dev.grantDebug (d : Dev) (n : Nat) : Dev :=
  (d.wr .secStatus 29 28 n).wr .secStatus 27 26 (max n (d.rd .secStatus 27 26))

/-- The forced revocation has ended: Domain 0 gets its key, DL2 is granted, and a zeroization of KEYS is complete (R345, R347). One
of FULL completes with its end. -/
def Dev.revocationEnds (d : Dev) : Dev :=
  let d := ({ d with pool := { d.pool with revoking := false } }).rekeyZero
  let d := match d.sec.dl2Pending with
    | some path =>
      let d := (d.grantDebug 2).bgResult path rcSuccess 0
      { d with sec := { d.sec with dl2Pending := none, noAdds := false } }
    | none => d
  match d.sec.zeroize with
  | some (scope, path) =>
    let d := d.bgResult path rcSuccess 0
    if scope = 0 then ({ d with sec := { d.sec with zeroize := none } }).wr .keyStatus 30 30 0 else d
  | none => d

end Sys2Proof.Machine
end

