-- ==== Sys2Proof/Machine/Messages.lean ====
section
/-! DEFINITION. Management messages between devices: requests kept until their answer, answers kept for a repeat (R278). -/

namespace Sys2Proof.Machine

/-- Send a MGMT request, and keep it until it is answered (R278). -/
def Dev.mgmtRequest (d : Dev) (r : MgmtReq) : Dev :=
  let tag := d.fab.tagNext.toNat
  let r := { r with tag := tag }
  let d := { d with fab := { d.fab with tagNext := d.fab.tagNext + 1, requests := d.fab.requests ++ [r] } }
  (mgmtMessages d.devId r.dev.toNat tag r.mtype r.exportId r.domain 0 r.coherent r.blocks).foldl
    (fun d ws => d.postOrDrop ws) d

/-- Answer a MGMT request, and keep the answer for a repeat. -/
def Dev.mgmtAnswer (d : Dev) (dev : DeviceId) (tag mtype exportId status : Nat) : Dev :=
  let d := { d with fab := { d.fab with
    answered := (d.fab.answered.filter fun a => !decide (a.dev = dev ∧ a.tag = tag)) ++ [⟨dev, tag, mtype, status⟩] } }
  (mgmtMessages d.devId dev.toNat tag mtype exportId 0 status false []).foldl (fun d ws => d.postOrDrop ws) d

/-- The answer already given to a request, if any (R278). -/
def Dev.answeredBefore (d : Dev) (dev : DeviceId) (tag mtype : Nat) : Option Nat :=
  (d.fab.answered.find? fun a => decide (a.dev = dev ∧ a.tag = tag ∧ a.mtype = mtype)).map (·.status)

/-- The request that an answer names; it is no longer waited for. -/
def Dev.takeRequest (d : Dev) (dev : DeviceId) (tag mtype : Nat) : Option (MgmtReq × Dev) :=
  let hit (r : MgmtReq) : Bool := decide (r.dev = dev ∧ r.tag = tag ∧ r.mtype = mtype)
  (d.fab.requests.find? hit).map fun r =>
    (r, { d with fab := { d.fab with requests := d.fab.requests.filter fun r => !hit r } })

end Sys2Proof.Machine
end

