-- ==== Sys2Proof/Machine/PortBase.lean ====
section
/-! DEFINITION. A port's record, and a change of its state (Table CP-5). -/

namespace Sys2Proof.Machine

def Dev.prec (d : Dev) (p : Nat) : PortRec := tgetD d.port.recs p PortRec.reset

def Dev.modPort (d : Dev) (p : Nat) (f : PortRec → PortRec) : Dev :=
  { d with port := { d.port with recs := tset d.port.recs p (f (d.prec p)) } }

/-- Quads of a width code. -/
def widthQuads (w : Nat) : Nat := if w = 0 then 1 else if w = 1 then 2 else 4

/-- The Carillon source of a port's state (Table FI-2, k = 3). -/
def portSource (p : Nat) : Nat := 0x100 + 4 * p + 3

/-- Enter a port state: STATE, REASON and QUAR follow, and a change to FAILED, QUARANTINE or SETTLE writes a fabric
event record of type 4 (Table CP-5, Table MG-12). -/
def Dev.enterPort (d : Dev) (p st reason : Nat) : Dev :=
  let old := d.portState p
  let r := if st = 10 then reason else 0
  let d := ((d.wr (.prtStatus p) 31 28 st).wr (.prtStatus p) 27 24 r).wr (.hpStatus p) 26 26 (if st = 9 then 1 else 0)
  if 8 ≤ st ∧ st ≤ 10 then d.fabricEvent 4 (det 146 p + det 142 old + det 138 st + det 134 r) else d

end Sys2Proof.Machine
end

