-- ==== Sys2Proof/Machine/Pool.lean ====
section
/-! DEFINITION. Blocks, domains and extents, the fence of Table PB-11, live migration, and members that join or leave an
interleave set (R32 to R36, R45 to R64, R67). -/

namespace Sys2Proof.Machine

/-! ### Free blocks (R32, R54, R65) -/

/-- The slot table index of slot s of the host on port p (R28). -/
def Dev.slotIndex (d : Dev) (p s : Nat) : Nat := ((tget d.pool.windows p).map (·.1)).getD 0 + s

/-- Blocks that an export waiting for its importer's answer has chosen. -/
def Dev.promised (d : Dev) : List Nat := (d.fab.requests.filter fun r => decide (r.mtype = 5)).flatMap (·.blocks)

/-- The FREE blocks of a set from which firmware may allocate. -/
def Dev.freeBlocks (d : Dev) (i : Nat) : List Nat :=
  match d.setDesc? i with
  | some s =>
    if s.inService && s.allWays then
      ((List.range s.count).map fun k => s.first + k).filter fun b =>
        decide ((d.blockEntry b).state = 0) && !(d.blockEntry b).remote && !d.promised.contains b
    else []
  | none => []

/-- A block taken from the FREE ones: firmware gives it the position in its set that its number has, an owner and a state (R33, R54;
log entry 28). -/
def Dev.allotted (d : Dev) (b owner st : Nat) (coherent : Bool) (e : BlockEntry) : BlockEntry :=
  let at_ := d.blockDefault b
  { (e.withOwner owner).withState st with coherent := coherent, set := at_.set, setIndex := at_.setIndex }

/-- Blocks of one of some sets: which set and which blocks is the device's choice. -/
def Dev.pickBlocks (d : Dev) (sets : List Nat) (n : Nat) (taken : List Nat) : Option (List Nat) × Dev :=
  let free (i : Nat) : List Nat := (d.freeBlocks i).filter fun b => !taken.contains b
  match d.choose (sets.filter fun i => decide (n ≤ (free i).length)) with
  | (some i, d) =>
    let (k, d) := d.openNat
    (some (((free i).rotate k).take n), d)
  | (none, d) => (none, d)

/-- The numbers of the sets. -/
def Dev.setNumbers (d : Dev) : List Nat := d.hub.sets.map (·.1)

/-! ### Domains (R45 to R50) -/

def Dev.domain (d : Dev) (i : Nat) : Option DomainRec := tget d.pool.domains i

def Dev.setDomain (d : Dev) (i : Nat) (r : DomainRec) : Dev := { d with pool := { d.pool with domains := tset d.pool.domains i r } }

/-- READY Domain IDs that nothing holds, longest READY first; the slot of an import's proxy domain stays READY (R66). -/
def Dev.readyDomains (d : Dev) : List Nat := d.pool.readyOrder.filter fun i => decide (1 ≤ i) && (d.domain i).isNone

/-- Create a domain with a fresh key pair in the slot READY longest; none while the DRBG makes no key (R47, R330). -/
def Dev.createDomain (d : Dev) (r : DomainRec) : Option Nat × Dev :=
  match d.readyDomains.head? with
  | some i =>
    if d.drbgOk then
      let d := d.keyvRun
      let g := d.pool.keyGen + 1
      (some i, (({ d with pool := { d.pool with keyGen := g } }).setKeySlot i (.active g)).setDomain i r)
    else (none, d)
  | none => (none, d)

/-- Blocks leave a domain; a domain without blocks loses its key and its record (R50). A proxy domain has no key, and its
record goes with its import. -/
def Dev.leaveDomain (d : Dev) (i : Nat) (bs : List Nat) : Dev :=
  match d.domain i with
  | none => d
  | some r =>
    let r := { r with blocks := r.blocks.filter fun b => !bs.contains b }
    if r.blocks.isEmpty ∧ r.kind ≠ .proxy then
      let d := d.keyvRun.setKeySlot i .spent
      { d with pool := { d.pool with domains := tdel d.pool.domains i } }
    else d.setDomain i r

/-- The domain that a tag names (R56, R66). A TAG of zero is no tag (DESIGN CHOICE, log entry 41). -/
def Dev.tagDomain (d : Dev) (tag : Nat) : Option (Nat × DomainRec) :=
  if tag = 0 then none
  else d.pool.domains.find? fun e => decide (e.2.tag = tag) && (decide (e.2.kind = .shared) || decide (e.2.kind = .proxy))

/-! ### What follows a fence -/

/-- The fabric event record of an export or import that the other device ended, or that ended without its answer (R67). -/
def Dev.endEvent (d : Dev) (dev exportId dom : Nat) (importer : Bool) : Dev :=
  d.fabricEvent 9 (det 141 dev + det 129 exportId + det 117 dom + det 116 (if importer then 1 else 0))

/-- A Dynamic Capacity operation of a host completes once it waits for no extent and no fence (Table PB-9, Table PB-10). -/
def Dev.dcSettle (d : Dev) (p : Nat) : Dev :=
  match tget d.pool.dcOps p with
  | some o =>
    if o.pending = 0 ∧ o.extents = [] ∧ ¬ (d.pool.extents.any fun e => decide (e.port = p) && e.offered) then
      ({ d with pool := { d.pool with dcOps := tdel d.pool.dcOps p } }).bgResult o.path 0 0
    else d
  | none => d

/-- A fence of a host's operation has ended. -/
def Dev.dcFenced (d : Dev) (p : Nat) : Dev :=
  ({ d with pool := { d.pool with dcOps := tmod d.pool.dcOps p fun (o : DcOp) => { o with pending := o.pending - 1 } } }).dcSettle p

/-- A host's operation waits for one more fence. -/
def Dev.dcWait (d : Dev) (p : Nat) : Dev :=
  { d with pool := { d.pool with dcOps := tmod d.pool.dcOps p fun (o : DcOp) => { o with pending := o.pending + 1 } } }

/-- Answer the notices of a home for which no stale import remains (R67). -/
def Dev.answerNotices (d : Dev) : Dev :=
  let stale (n : Notice) : Bool := d.hub.imports.any fun i => decide (i.homeDev = n.home) && i.blocks.any fun b => n.blocks.contains b.1
  let ready := d.pool.notices.filter fun n => !stale n
  ready.foldl (fun d n => d.mgmtAnswer n.home n.tag 6 n.exportId 0)
    { d with pool := { d.pool with notices := d.pool.notices.filter stale } }

/-- Tell whoever ended an import that it has ended. -/
def Dev.importEnded (d : Dev) (i : ImportRec) : ImportEnd → Dev
  | .unmap path =>
    (d.mgmtRequest ⟨0, i.homeDev, 7, i.exportId, i.remoteDomain, i.coherent, [], none, 0⟩).bgResult path 0 0
  | .request tag => (d.mgmtAnswer i.homeDev tag 4 i.exportId 0).endEvent i.homeDev.toNat i.exportId i.remoteDomain true
  | .notice => d.endEvent i.homeDev.toNat i.exportId i.remoteDomain true
  | .revoked => d.endEvent i.homeDev.toNat i.exportId i.remoteDomain true

/-- The fence of an import has ended: its record and its proxy domain go, and whoever ended it is told (R67). -/
def Dev.importGone (d : Dev) (home : DeviceId) (id : Nat) : Dev :=
  let mine (i : ImportRec) : Bool := decide (i.homeDev = home ∧ i.exportId = id)
  match d.hub.imports.find? mine with
  | some i =>
    let d := d.modHub fun h => { h with imports := h.imports.filter fun i => !mine i }
    let d := { d with pool := { d.pool with domains := tdel d.pool.domains i.proxyDomain } }
    (i.ending.foldl (fun d w => d.importEnded i w) d).answerNotices
  | none => d

/-- The fence of an export has ended: its record goes, and EXPORT_RELEASE completes (R67). -/
def Dev.exportGone (d : Dev) (id : Nat) (path : Option Path) (timedOut : Bool) : Dev :=
  match d.hub.exports.find? fun x => decide (x.id = id) with
  | some x =>
    let d := d.modHub fun h => { h with exports := h.exports.filter fun x => !decide (x.id = id) }
    let d := if timedOut then d.endEvent x.importer.toNat id x.domain false else d
    match path with
    | some p => d.bgResult p (if timedOut then rcTimeout else rcSuccess) 0
    | none => d
  | none => d

/-- The source of a migration is free: the record goes, and BLOCK_MIGRATE completes (R64). -/
def Dev.migrationGone (d : Dev) (source : Nat) : Dev :=
  match d.migrationOf source with
  | some m =>
    let d := d.modHub fun h => { h with migrations := h.migrations.filter fun m => !decide (m.source = source) }
    match m.path with
    | some p => d.bgResult p 0 0
    | none => d
  | none => d

def Dev.afterFence (d : Dev) : AfterFence → Dev
  | .nothing => d
  | .dc p => d.dcFenced p
  | .unprompted p x => d.fabricEvent 3 (det 146 p + det 102 x.1 + det 82 x.2)
  | .exportGone id path timedOut => d.exportGone id path timedOut
  | .importGone home id => d.importGone home id
  | .migrated source => d.migrationGone source

/-! ### Asking for a fence (R59) -/

/-- Split a list into pieces of 16. -/
def pieces : Nat → List Nat → List (List Nat)
  | 0, _ => []
  | n + 1, l => if l.isEmpty then [] else l.take 16 :: pieces n (l.drop 16)

/-- Queue a fence, in batches of at most 16 blocks; what follows it comes after the last. A fence over nothing has ended. -/
def Dev.queueFence (d : Dev) (whole : Bool) (blocks slots : List Nat) (holders : List Holder) (dom : Nat) (after : AfterFence) :
    Dev :=
  match (pieces blocks.length blocks).reverse with
  | [] => d.afterFence after
  | last :: rest =>
    let mk (bs : List Nat) (a : AfterFence) : FenceRec :=
      ⟨whole, bs, slots.filter fun s => bs.contains (d.slotEntry s).block.toNat, holders, dom, a⟩
    { d with pool := { d.pool with
      fenceQueue := d.pool.fenceQueue ++ (rest.reverse.map fun bs => mk bs .nothing) ++ [mk last after] } }

/-! ### Extents: withdrawing and releasing (R55 to R58) -/

/-- Extents of a host. -/
def Dev.extentsOf (d : Dev) (p : Nat) : List Extent := d.pool.extents.filter fun e => decide (e.port = p)

/-- Slot table indices of an extent. -/
def Dev.extentSlots (d : Dev) (e : Extent) : List Nat := (List.range e.count).map fun i => d.slotIndex e.port (e.first + i)

/-- Clear VALID of slots in both copies. -/
def Dev.clearSlots (d : Dev) (slots : List Nat) : Dev :=
  slots.foldl (fun d s => d.changeSlot s fun e => { e with valid := false, validC := true }) d

def Dev.dropExtent (d : Dev) (e : Extent) : Dev :=
  { d with pool := { d.pool with extents := d.pool.extents.filter (fun x => !decide (x = e)), extentSeq := d.pool.extentSeq + 1 } }

/-- Withdraw an offered extent: its blocks are freed through the fence, unless another extent names them or an import owns
them (R55, R66). wait says that the host's operation waits for the fence. -/
def Dev.withdraw (d : Dev) (e : Extent) (wait : Bool) : Dev :=
  let d := (d.dropExtent e).clearSlots (d.extentSlots e)
  match d.domain e.domain with
  | some r =>
    let others := d.pool.extents.filter fun x => decide (x.domain = e.domain)
    let bs := e.blocks.filter fun b =>
      (others.all fun x => !x.blocks.contains b) && (r.holders.isEmpty || decide ((d.blockEntry b).state = 1))
    if r.kind = .proxy ∨ bs = [] then d
    else
      let d := if r.holders.isEmpty && others.isEmpty then d.setDomain e.domain { r with fencing := true } else d
      (if wait then d.dcWait e.port else d).queueFence true bs [] [] e.domain (if wait then .dc e.port else .nothing)
  | none => d

/-- Release a held extent: VALID clears, the host's holder fence runs, and where the domain has no holder left a block fence
over its blocks (steps 4 and 5 of Table PB-10). A proxy domain keeps its blocks (R66). -/
def Dev.releaseExtent (d : Dev) (e : Extent) (after : AfterFence) : Dev :=
  let slots := d.extentSlots e
  let d := (d.dropExtent e).clearSlots slots
  let d := match after with
    | .dc p => d.dcWait p
    | _ => d
  let hs : List Holder := if h : e.port < 64 then [.port ⟨e.port, h⟩] else []
  match d.domain e.domain with
  | none => d.queueFence false e.blocks slots hs 0 after
  | some r =>
    let kept := d.pool.extents.any fun x => decide (x.port = e.port ∧ x.domain = e.domain) && !x.offered
    let r := if kept then r else { r with holders := r.holders.filter fun h => !decide (h = e.port) }
    let gone := r.holders.isEmpty && !decide (r.kind = .proxy) && d.pool.extents.all fun x => !decide (x.domain = e.domain)
    let d := d.setDomain e.domain { r with fencing := r.fencing || gone }
    if gone then
      (d.queueFence false e.blocks slots hs 0 .nothing).queueFence true r.blocks [] [] e.domain after
    else d.queueFence false e.blocks slots hs 0 after

/-- Forced release of an extent: a Release Capacity record marked forced (R57). -/
def Dev.forceRelease (d : Dev) (e : Extent) (after : AfterFence) : Dev :=
  (d.releaseExtent e after).hostEvent e.port 4 2 (e.first * 2 ^ 26) (e.count * 2 ^ 26) e.tag

/-- A forced release that no command of the host's operation asked for: an orderly release that waits for the host to release this
extent waits for its fence instead (R67). -/
def Dev.forceOut (d : Dev) (e : Extent) : Dev :=
  if ((tget d.pool.dcOps e.port).map fun o => o.extents.contains (e.first, e.count)).getD false then
    ({ d with pool := { d.pool with dcOps := tmod d.pool.dcOps e.port fun (o : DcOp) =>
        { o with extents := o.extents.erase (e.first, e.count) } } }).forceRelease e (.dc e.port)
  else d.forceRelease e .nothing

/-- Forced work is done by firmware: it waits while firmware does not run (R17; DEDUCED, log entry 73). -/
def Dev.whenFirmware (d : Dev) (w : ForcedWork) (work : Dev → Dev) : Dev :=
  if d.fwRuns then work d
  else { d with pool := { d.pool with forcedDue := d.pool.forcedDue.filter (fun x => !decide (x = w)) ++ [w] } }

/-- Every extent of a host is withdrawn or released without waiting for it (R58): an operation in progress completes once
its fences have ended. -/
def Dev.forceHostNow (d : Dev) (p : Nat) : Dev :=
  let waits := (tget d.pool.dcOps p).isSome
  let d := { d with pool := { d.pool with dcOps := tmod d.pool.dcOps p fun (o : DcOp) => { o with extents := [] } } }
  let d := (d.extentsOf p).foldl (fun d e =>
    if e.offered then d.withdraw e waits else d.forceRelease e (if waits then .dc p else .nothing)) d
  d.dcSettle p

/-- The forced release of a host that has gone. -/
def Dev.forceHost (d : Dev) (p : Nat) : Dev := d.whenFirmware (.host p) fun d => d.forceHostNow p

/-! ### Ending exports and imports (R67) -/

/-- Run the block fence of an export that is being released. -/
def Dev.fenceExport (d : Dev) (id : Nat) (path : Option Path) (timedOut : Bool) : Dev :=
  match d.hub.exports.find? fun x => decide (x.id = id) with
  | some x => d.queueFence true x.blocks [] [] x.domain (.exportGone id path timedOut)
  | none => d

/-- End an import: forced releases of the extents that hold its blocks, then a block fence over its entries. An import that is
already ending only tells one more when it has ended. -/
def Dev.endImport (d : Dev) (i : ImportRec) (why : ImportEnd) : Dev :=
  let d := d.modHub fun h => { h with imports := h.imports.map fun (x : ImportRec) =>
    if x.homeDev = i.homeDev ∧ x.exportId = i.exportId then { x with ending := x.ending ++ [why] } else x }
  if i.ending ≠ [] then d
  else
    let d := match d.domain i.proxyDomain with
      | some r => d.setDomain i.proxyDomain { r with fencing := true }
      | none => d
    let d := (d.pool.extents.filter fun e => decide (e.domain = i.proxyDomain)).foldl (fun d e =>
      if e.offered then (d.withdraw e false).dcSettle e.port else d.forceOut e) d
    d.queueFence true (i.blocks.map (·.2)) [] [] i.proxyDomain (.importGone i.homeDev i.exportId)

/-! ### Forced revocation (R50, Table PS-17 steps 2 and 4) -/

/-- Every key slot becomes SPENT. -/
def Dev.zeroizeKeys (d : Dev) : Dev :=
  let d := { d with pool := { d.pool with keys := [], readyOrder := [] } }
  (d.wr .keyStatus 27 16 0).wr .keyStatus 11 0 0

/-- Every OFFERED and BOUND block moves to FENCING, and every extent, export and import is released. A mapped export and an import that
a revocation ends has ended without the other device's answer, so its end is recorded (R67; DEDUCED, log entry 40). -/
def Dev.revokeNow (d : Dev) : Dev :=
  let bound := (d.pool.blocks.a ++ d.pool.blocks.b).map (·.1) |>.dedup.filter fun b =>
    decide ((d.blockEntry b).state = 1 ∨ (d.blockEntry b).state = 2)
  let d := bound.foldl (fun d b => d.changeBlock b fun e => e.withState 3) d
  let d := (List.range 64).foldl (fun d p => d.forceHostNow p) d
  let d := d.hub.exports.foldl (fun d x => if x.releasing then d else d.fenceExport x.id none x.mapped) d
  let d := d.modHub fun h => { h with exports := h.exports.map fun (x : ExportRec) => { x with releasing := true } }
  let d := d.hub.imports.foldl (fun d i => if i.ending = [] then d.endImport i .revoked else d) d
  if d.pool.fence.isNone && d.pool.fenceQueue.isEmpty then d.revocationEnds else d

/-- The forced-revocation flow (R50). -/
def Dev.revoke (d : Dev) : Dev :=
  ({ d with pool := { d.pool with revoking := true } }).whenFirmware .revocation Dev.revokeNow

/-- Firmware does the forced work that has waited for it. -/
def Dev.forcedWork (d : Dev) : Dev :=
  d.pool.forcedDue.foldl (fun d w => match w with
    | .host p => d.forceHostNow p
    | .revocation => d.revokeNow) { d with pool := { d.pool with forcedDue := [] } }

/-! ### Sweeps (R60, R61, Table CO-6) -/

/-- Invalidate some holders of a granule under a conflict-table entry; a busy granule or a slice that sleeps is swept later. -/
def Dev.sweepGranule (d : Dev) (g : Nat) (hs : List Holder) (kind : ReqKind) : Dev :=
  if d.busy g || !d.sliceReady (sliceOf g) then d.wake (domTdir (d.hostTile (sliceOf g)))
  else
    let e : CtEntry :=
      { slice := sliceOf g, state := .recall, general := true, group := 32, kind := kind
        req := ⟨0, .firmware, BitVec.ofNat 40 (g * 16), 0, 0, 0, false⟩, block := blockOfGranule g, coherent := true
        remote := (d.blockEntry (blockOfGranule g)).remote, waits := waitsFor hs (BitVec.allOnes 16), snoop := .inv, answered := none
        resv := [], done := false, green := true, peakWaited := false, epoch := BitVec.ofNat 2 d.acuEpoch }
    ((d.setCt g e).snoopAll hs g (BitVec.allOnes 16) .inv).advance g

/-- Granules of some blocks that the directory tracks. -/
def Dev.trackedIn (d : Dev) (blocks : List Nat) : List Nat :=
  (d.dir.entries.map (·.1)).filter fun g => blocks.contains (blockOfGranule g)

/-- Invalidate every holder of every tracked granule of some blocks. -/
def Dev.sweepBlocks (d : Dev) (blocks : List Nat) : Dev :=
  (d.trackedIn blocks).foldl (fun d g =>
    match d.entry g with
    | some e => d.sweepGranule g e.holders .sweep
    | none => d) d

/-- The holders of an entry that a fence concerns. -/
def FenceRec.concerns (r : FenceRec) (g : Nat) (e : DirEntry) : List Holder :=
  if !r.blocks.contains (blockOfGranule g) then []
  else if r.whole then e.holders else e.holders.filter fun h => r.holders.contains h

/-- Whether a sweep has still to begin or end for a fence. -/
def Dev.sweepLeft (d : Dev) (r : FenceRec) : Bool :=
  (d.dir.entries.any fun e => !(r.concerns e.1 e.2).isEmpty) ||
    d.dir.ct.any fun e => decide (e.2.kind = .sweep) && r.blocks.contains (blockOfGranule e.1)

/-- Sweep for a fence. -/
def Dev.sweepFor (d : Dev) (r : FenceRec) : Dev :=
  (d.trackedIn r.blocks).foldl (fun d g =>
    match d.entry g with
    | some e => if (r.concerns g e).isEmpty then d else d.sweepGranule g (r.concerns g e) .sweep
    | none => d) d

/-! ### The steps of Table PB-11 -/

/-- Slots that map some blocks. -/
def Dev.slotsOf (d : Dev) (blocks : List Nat) : List Nat :=
  ((d.pool.slots.a ++ d.pool.slots.b).map (·.1)).dedup.filter fun s =>
    (d.slotEntry s).valid && blocks.contains (d.slotEntry s).block.toNat

/-- Step 1: VALID clears; for a block fence, STATE becomes FENCING unless the block is POISONED (R62). -/
def Dev.fenceStep1 (d : Dev) (r : FenceRec) : Dev :=
  let d := d.clearSlots (r.slots ++ if r.whole then d.slotsOf r.blocks else [])
  if r.whole then
    r.blocks.foldl (fun d b => if (d.blockEntry b).state = 5 then d else d.changeBlock b fun e => e.withState 3) d
  else d

/-- Step 2: slots and blocks leave every cache. -/
def Dev.fenceStep2 (d : Dev) (r : FenceRec) : Dev :=
  let d := ((d.pool.slots.a ++ d.pool.slots.b).map (·.1)).dedup.foldl (fun d s =>
    if r.slots.contains s || r.blocks.contains (d.slotEntry s).block.toNat then d.invalidateSlot s else d) d
  r.blocks.foldl (fun d b => d.invalidateBlock b) d

/-- Step 5: a block fence frees its blocks, or retires those that are POISONED, clears their SET_INDEX, and invalidates them again
(R62). -/
def Dev.fenceStep5 (d : Dev) (r : FenceRec) : Dev :=
  if r.whole then
    r.blocks.foldl (fun d b =>
      d.updateBlock b fun e => { (e.withOwner 0).withState (if e.state = 5 then 6 else 0) with coherent := false, setIndex := 0 }) d
  else d

/-- Whether a fence may start: a MIGRATING block waits for the end of its migration, whose own fence frees it (R62). -/
def Dev.fenceMay (d : Dev) (r : FenceRec) : Bool :=
  r.blocks.all fun b => (d.migrationOf b).isNone || decide (r.after = .migrated b)

/-- Whether two requests are pieces of one fence, or of fences for the same departing holders and domain. -/
def FenceRec.sameFence (r x : FenceRec) : Bool := decide (r.whole = x.whole ∧ r.holders = x.holders ∧ r.domain = x.domain)

/-- The requests that make the next batch, at most 16 blocks, no block twice, and no piece of a fence before the pieces ahead of it;
and those that wait. -/
def Dev.nextBatch (d : Dev) : List FenceRec → List FenceRec → List FenceRec → List FenceRec × List FenceRec
  | [], batch, left => (batch, left)
  | r :: rest, batch, left =>
    let used := (batch ++ left).flatMap (·.blocks)
    if d.fenceMay r && (r.blocks.all fun b => !used.contains b) && (left.all fun x => !r.sameFence x) &&
        decide ((batch.map (·.blocks.length)).sum + r.blocks.length ≤ 16) then
      d.nextBatch rest (batch ++ [r]) left
    else d.nextBatch rest batch (left ++ [r])

/-- Start the next batch with its first step. -/
def Dev.fenceStart (d : Dev) : Dev :=
  if d.pool.fence.isSome then d
  else
    match d.nextBatch d.pool.fenceQueue [] [] with
    | ([], _) => d
    | (batch, left) =>
      let d := { d with pool := { d.pool with fence := some ⟨batch, 1, d.pool.epoch⟩, fenceQueue := left } }
      batch.foldl (fun d r => d.fenceStep1 r) d

/-- The device advances the translation epoch (R44). -/
def Dev.advanceEpoch (d : Dev) : Dev := { d with pool := { d.pool with epoch := d.pool.epoch + 1 } }

def Dev.setFence (d : Dev) (f : FenceRun) : Dev := { d with pool := { d.pool with fence := some f } }

/-! ### Migration (R63, R64) -/

/-- Start a migration: the target is bound to the source's owner, the record written, the source MIGRATING. -/
def Dev.startMigration (d : Dev) (source target : Nat) (path : Option Path) : Dev :=
  let owner := (d.blockEntry source).owner.toNat
  let d := d.updateBlock target (d.allotted target owner 2 true)
  let m : Migration := ⟨source, target, 0, path⟩
  let d := d.modHub fun h => { h with migrations := h.migrations ++ [m] }
  d.updateBlock source fun e => e.withState 4

/-- Whether firmware may migrate a block. -/
def Dev.mayMigrate (d : Dev) (b : Nat) : Bool :=
  let e := d.blockEntry b
  !e.remote && decide (e.state = 2) && e.coherent && !d.hub.exports.any fun x => x.blocks.contains b

/-! ### Members of interleave sets (R32, R36) -/

/-- The set, way and copy of a POOL port. -/
def Dev.setOfPort (d : Dev) (p : Nat) : Option (Nat × Nat × Nat) :=
  d.hub.sets.findSome? fun s =>
    if !s.2.valid then none
    else match s.2.member.findIdx? (fun q => decide (q = p)) with
      | some w => some (s.1, w, 0)
      | none => if s.2.mirrored then (s.2.mirror.findIdx? fun q => decide (q = p)).map fun w => (s.1, w, 1) else none

/-- Blocks of a set, by number. -/
def SetDesc.blocks (s : SetDesc) : List Nat := (List.range s.count).map fun k => s.first + k

/-- WAY_OK and RESYNC of one copy. -/
def SetDesc.withCopy (s : SetDesc) (w c : Nat) (ok resync : Bool) : SetDesc :=
  let put (m : BitVec 16) (v : Bool) : BitVec 16 := if v then m ||| wayBit w else m &&& ~~~wayBit w
  if c = 0 then { s with okP := put s.okP ok, resyncP := put s.resyncP resync }
  else { s with okM := put s.okM ok, resyncM := put s.resyncM resync }

def SetDesc.ok (s : SetDesc) (w c : Nat) : Bool := if c = 0 then s.okP.getLsbD w else s.okM.getLsbD w
def SetDesc.resync (s : SetDesc) (w c : Nat) : Bool := if c = 0 then s.resyncP.getLsbD w else s.resyncM.getLsbD w

/-- Every block of a set enters POISONED, or RETIRED where no domain owns it, and its tracked lines are back-invalidated (R36,
R58). -/
def Dev.poisonSet (d : Dev) (i : Nat) : Dev :=
  match d.setDesc? i with
  | some s =>
    let d := s.blocks.foldl (fun d b =>
      let e := d.blockEntry b
      if e.remote ∨ e.state = 6 then d else d.updateBlock b fun e => e.withState (if e.state = 0 then 6 else 5)) d
    d.sweepBlocks s.blocks
  | none => d

/-- Whether the blocks of a set have been lost. -/
def Dev.setPoisoned (d : Dev) (s : SetDesc) : Bool :=
  s.blocks.all fun b => decide ((d.blockEntry b).state = 5 ∨ (d.blockEntry b).state = 6)

/-- A member leaves its set (R32, R36). -/
def Dev.loseMember (d : Dev) (p : Nat) : Dev :=
  match d.setOfPort p with
  | none => d
  | some (i, w, c) =>
    match d.setDesc? i with
    | none => d
    | some s =>
      let d := d.modSet i fun s => s.withCopy w c false false
      if !s.inService || d.setPoisoned s then d
      else if !s.mirrored then d.poisonSet i
      else if s.ok w c && !s.ok w (1 - c) then (d.modSet i fun s => s.withCopy w (1 - c) false false).poisonSet i
      else d

/-- Every expander access of a port completes to its home as failed (Table SW-6, home-generated requests). -/
def Dev.failAccesses (d : Dev) (p : Nat) : Dev :=
  (d.dir.expOps.filter fun o => decide (o.port = p)).foldl (fun d o =>
    if o.what.isNone then d.readEnds o .error else (d.writeFails o).settle (granuleOf o.line.toNat)) d

/-- Teardown of a POOL port: its copy is lost and its outstanding requests complete (Table CP-8a). -/
def Dev.memberLost (d : Dev) (p : Nat) : Dev := (d.loseMember p).failAccesses p

/-- Tracked granules of the blocks that the loss of a port has poisoned. -/
def Dev.lostTracked (d : Dev) (p : Nat) : List Nat :=
  match (d.setOfPort p).bind fun w => d.setDesc? w.1 with
  | some s => if d.setPoisoned s && s.inService then d.trackedIn s.blocks else []
  | none => []

/-- Sweep what the loss of a port leaves tracked: a granule that was busy at the loss is back-invalidated once it is free. -/
def Dev.sweepLost (d : Dev) (p : Nat) : Dev := d.sweepBlocks ((d.lostTracked p).map blockOfGranule).dedup

/-- Whether the teardown of a POOL port has completed. -/
def Dev.memberClear (d : Dev) (p : Nat) : Bool :=
  (d.dir.expOps.all fun o => !decide (o.port = p)) && (d.lostTracked p).isEmpty

/-- A member that has completed bring-up joins its set: at once before service or where the set has lost its data, by
resynchronisation where the other copy of its way is usable (R32, R36). -/
def Dev.memberJoins (d : Dev) (p : Nat) : Dev :=
  match d.setOfPort p with
  | none => d
  | some (i, w, c) =>
    match d.setDesc? i with
    | none => d
    | some s =>
      if s.inService && s.mirrored && s.ok w (1 - c) && !d.setPoisoned s then d.modSet i fun s => s.withCopy w c false true
      else
        let d := d.modSet i fun s => s.withCopy w c true false
        if ((d.setDesc? i).map SetDesc.allWays).getD false then d.modSet i fun s => { s with inService := true } else d

/-! ### Evacuating a plain set (R220) -/

/-- The set that the orderly removal of a port is emptying: plain, in service, not poisoned. -/
def Dev.evacuating (d : Dev) (p : Nat) : Option (Nat × SetDesc) :=
  if (d.prec p).removal.isSome ∧ d.portState p = 6 then
    match (d.setOfPort p).bind fun w => (d.setDesc? w.1).map fun s => (w.1, s) with
    | some (i, s) => if s.inService && !s.mirrored && !d.setPoisoned s then some (i, s) else none
    | none => none
  else none

/-- Start one migration out of a set, where a block and a target are found. -/
def Dev.evacuateOne (d : Dev) (i : Nat) (s : SetDesc) : Dev :=
  match s.blocks.find? fun b => d.mayMigrate b with
  | some b =>
    if d.hub.migrations.length < 16 then
      match d.pickBlocks (d.setNumbers.filter fun j => !decide (j = i)) 1 [] with
      | (some [t], d) => d.startMigration b t none
      | (_, d) => d
    else d
  | none => d

/-- Go on emptying a set: FREE blocks are RETIRED, BOUND ones migrate, at most 16 at once. -/
def Dev.evacuate (d : Dev) (p : Nat) : Dev :=
  match d.evacuating p with
  | none => d
  | some (i, s) =>
    let d := s.blocks.foldl (fun d b =>
      if (d.blockEntry b).state = 0 then d.updateBlock b fun e => e.withState 6 else d) d
    (List.range 16).foldl (fun d _ => d.evacuateOne i s) d

/-- Whether the set of a port under orderly removal holds nothing any more. -/
def Dev.evacuated (d : Dev) (p : Nat) : Bool := (d.evacuating p).isNone

/-! ### Ending a fence -/

/-- A fence step completes and the next begins (Table PB-11). -/
def Dev.fenceNext (d : Dev) (f : FenceRun) : Dev :=
  match f.step with
  | 1 =>
    let d := f.recs.foldl (fun d r => d.fenceStep2 r) d
    d.advanceEpoch.setFence { f with step := 2, oldEpoch := d.pool.epoch }
  | 2 => (f.recs.foldl (fun d r => d.sweepFor r) d).setFence { f with step := 3 }
  | 3 =>
    if f.recs.any fun r => d.sweepLeft r then f.recs.foldl (fun d r => d.sweepFor r) d
    else d.setFence { f with step := 4 }
  | 4 =>
    if d.outstanding f.oldEpoch ≠ 0 then d
    else if f.recs.any fun r => d.sweepLeft r then f.recs.foldl (fun d r => d.sweepFor r) d
    else (f.recs.foldl (fun d r => d.fenceStep5 r) d).setFence { f with step := 5 }
  | 5 => (f.recs.foldl (fun d r => if r.whole then d.leaveDomain r.domain r.blocks else d) d).setFence { f with step := 6 }
  | _ =>
    let d := { d with pool := { d.pool with fence := none } }
    let d := f.recs.foldl (fun d r => d.afterFence r.after) d
    let d := (List.range 64).foldl (fun d p => d.evacuate p) d
    if d.pool.revoking && d.pool.fenceQueue.isEmpty && d.pool.forcedDue.isEmpty then d.revocationEnds else d

end Sys2Proof.Machine
end

