-- ==== Sys2Proof/Machine/Slices.lean ====
section
/-! DEFINITION. Service slices: their quotas, engines, pool regions and memory as the services see it (R131 to R136, R169 to
R176). -/

namespace Sys2Proof.Machine

/-! ### Engines (R131, R132, R134) -/

def Dev.engine (d : Dev) (e : Nat) : Engine := tgetD d.svc.engines e ⟨.none, 0, false, none⟩

def Dev.setEngine (d : Dev) (e : Nat) (x : Engine) : Dev := { d with svc := { d.svc with engines := tset d.svc.engines e x } }

/-- The image that a ring's SERVICE names (Table MS-3). -/
def serviceImage (n : Nat) : Image := if n = 1 then .lookup else if n = 2 then .queue else .none

/-- Whether an engine's targeted self-test is due or running. -/
def Dev.engineTested (d : Dev) (e : Nat) : Bool := d.flt.testDue.any fun t => decide (t.resource = .engine ∧ t.number = e)

/-- Whether an engine runs an image and takes operations. -/
def Dev.engineRuns (d : Dev) (e : Nat) (i : Image) : Bool :=
  decide ((d.engine e).image = i) && !(d.engine e).retired && !d.engineTested e

/-- The coherence-assist engine of Tambour t (R132). -/
def Dev.assistEngine (d : Dev) (t : Nat) : Option Nat :=
  ((List.range 16).map fun k => 16 * t + k).find? fun e => decide ((d.engine e).image = .assist) && !(d.engine e).retired

/-- Threads of an engine that carry an operation. -/
def Dev.threadsOf (d : Dev) (e : Nat) : Nat :=
  (d.svc.rings.map fun r => (r.2.ops.filter fun o => decide (o.stage.engine = some e)).length).sum

/-- LKS.STATUS and QSV.STATUS of a Tambour follow its engines (Table MS-2). -/
def Dev.showEngines (d : Dev) (t : Nat) : Dev :=
  let es := (List.range 16).map fun k => 16 * t + k
  let show_ (d : Dev) (r : Reg) (i : Image) : Dev :=
    let mine := es.filter fun e => decide ((d.engine e).image = i)
    let d := d.wr r 23 16 (mine.filter fun e => (d.engine e).retired).length
    let d := d.wr r 15 8 (mine.map fun e => d.threadsOf e).sum
    d.wr r 7 0 (mine.filter fun e => !(d.engine e).retired).length
  show_ (show_ d (.lksStatus t) .lookup) (.qsvStatus t) .queue

/-! ### Slices and their registers (R169 to R173) -/

def Dev.setSlice (d : Dev) (s : SliceRec) : Dev := { d with svc := { d.svc with slices := tset d.svc.slices s.id s } }

/-- The slice of the host on port p with a local index. -/
def Dev.sliceAt (d : Dev) (p index : Nat) : Option SliceRec :=
  (d.svc.slices.find? fun x => decide (x.2.port = p ∧ x.2.index = index)).map (·.2)

/-- Slices of a host. -/
def Dev.slicesOf (d : Dev) (p : Nat) : List SliceRec := (d.svc.slices.filter fun x => decide (x.2.port = p)).map (·.2)

/-- Engines of a quota that run an image. -/
def Dev.engineCount (d : Dev) (q : Quota) (i : Image) : Nat := (q.engines.filter fun e => d.engineRuns e.1 i).length

/-- SLICE_INFO.STATE of a slice. -/
def SliceRec.state (s : SliceRec) : Nat :=
  match s.resize with
  | none => 1
  | some r => if r.destroy then 3 else 2

/-- The registers that describe a slice follow its record (Tables DM-2, DM-4 to DM-7). -/
def Dev.showSliceRec (d : Dev) (s : SliceRec) : Dev :=
  let q := s.quota
  let name := s.pasid * 2 ^ 24 + s.id
  let d := d.setReg (.sliceDir s.port s.index) (BitVec.ofNat 64 (2 ^ 63 + name))
  let d := d.setReg (.sliceInfo s.port s.index) (BitVec.ofNat 64 (s.state * 2 ^ 62 + name))
  let d := d.setReg (.sliceQuota s.port s.index) (BitVec.ofNat 64
    (q.msixBase * 2 ^ 52 + q.msixCount * 2 ^ 40 + d.engineCount q .queue * 2 ^ 32 + d.engineCount q .lookup * 2 ^ 24 +
      q.regions.length * 2 ^ 20 + q.channels.length * 2 ^ 16 + q.rings.length * 2 ^ 8))
  let d := d.setReg (.sliceQueues s.port s.index) (BitVec.ofNat 64 (q.queues * 2 ^ 32 + q.queueBase))
  (List.range 8).foldl (fun d i =>
    match q.regions[i]? with
    | some (a, b) => (d.setReg (.sliceRegionBase s.port s.index i) (BitVec.ofNat 64 (2 ^ 63 + a * 4096))).setReg
        (.sliceRegionLimit s.port s.index i) (BitVec.ofNat 64 (b * 4096))
    | none => (d.setReg (.sliceRegionBase s.port s.index i) 0).setReg (.sliceRegionLimit s.port s.index i) 0) d

/-- Write a slice's record and the registers that describe it. -/
def Dev.putSlice (d : Dev) (s : SliceRec) : Dev := (d.setSlice s).showSliceRec s

/-- The registers of a slice that software drives: rings, dirty-page log. -/
def driven (port index : Nat) : Reg → Bool
  | .ring h i _ _ => h = port && i = index
  | .dirtyCtl h i => h = port && i = index
  | .dirtyStatus h i => h = port && i = index
  | .dirtyWin h i => h = port && i = index
  | .dirtyBuf h i _ => h = port && i = index
  | _ => false

/-- The registers that describe a slice. -/
def describes (port index : Nat) : Reg → Bool
  | .sliceDir h i => h = port && i = index
  | .sliceInfo h i => h = port && i = index
  | .sliceQuota h i => h = port && i = index
  | .sliceQueues h i => h = port && i = index
  | .sliceRegionBase h i _ => h = port && i = index
  | .sliceRegionLimit h i _ => h = port && i = index
  | _ => false

/-- The quota that new work of a slice sees: during a decrease, what the old and the new quota share (Table DM-3). -/
def SliceRec.sharedEngines (s : SliceRec) : List (Nat × Nat) :=
  match s.resize with
  | some r => s.quota.engines.filter fun e => r.target.engines.any fun x => decide (x.1 = e.1)
  | none => s.quota.engines

/-- Local rings that can be enabled: none that a change is removing (Table DM-3). -/
def SliceRec.ringCount (s : SliceRec) : Nat :=
  match s.resize with
  | some r => min s.quota.rings.length r.target.rings.length
  | none => s.quota.rings.length

/-- Whether a queue number lies in a quota's range. -/
def Quota.hasQueue (q : Quota) (n : Nat) : Bool := decide (q.queueBase ≤ n ∧ n < q.queueBase + q.queues)

/-- Whether a queue takes new packets: in the range, and not removed by a change in progress. -/
def SliceRec.openQueue (s : SliceRec) (n : Nat) : Bool :=
  s.quota.hasQueue n && match s.resize with
    | some r => r.target.hasQueue n
    | none => true

/-- Whether a list of regions covers the pages from one to another, looking at up to fuel regions; regions may meet. -/
def coveredTo : Nat → List (Nat × Nat) → Nat → Nat → Bool
  | 0, _, page, stop => decide (stop < page)
  | fuel + 1, rs, page, stop =>
    if stop < page then true
    else match rs.find? fun r => decide (r.1 ≤ page ∧ page ≤ r.2) with
      | some r => coveredTo fuel rs (r.2 + 1) stop
      | none => false

/-- Whether a range of device addresses lies wholly within some pool regions. -/
def inRegions (rs : List (Nat × Nat)) (dpa len : Nat) : Bool := coveredTo (rs.length + 1) rs (dpa / 4096) ((dpa + len - 1) / 4096)

/-- The pool regions that new work of a slice sees: during a change, those of the new quota (Table DM-3). -/
def SliceRec.regionsNow (s : SliceRec) : List (Nat × Nat) :=
  match s.resize with
  | some r => r.target.regions
  | none => s.quota.regions

/-! ### Pool memory as a slice's engine or channel reaches it (R133, R178) -/

/-- Completion status codes (Table MS-13). -/
def stOk : Nat := 0
def stMiss : Nat := 1
def stEmpty : Nat := 2
def stQueueFull : Nat := 3
def stNoCells : Nat := 4
def stBadOpcode : Nat := 5
def stBadParam : Nat := 6
def stAccess : Nat := 7
def stPoison : Nat := 8
def stTableFormat : Nat := 9
def stEngineLost : Nat := 10
def stNotEligible : Nat := 11
def stAlignment : Nat := 12
def stBusyObject : Nat := 13

/-- The bytes of a line, lowest address first. -/
def lineBytes (v : LineData) : List Byte := toBytes 64 v.toNat

/-- A line of bytes; bytes that are missing are 0. -/
def bytesLine (b : List Byte) : LineData := BitVec.ofNat 512 (ofBytes (b.take 64))

/-- One line read of a slice at a device address: a cleared slot reads as poison (Table PB-8). -/
def Dev.sliceLine (d : Dev) (s : SliceRec) (a : Agent) (dpa : Nat) : Access × Dev :=
  match d.translate s.port dpa with
  | (none, d) => (.poison, d.refuseTranslation (agentTile a) dpa)
  | (some (line, dom), d) => d.agentRead a line (BitVec.ofNat 12 dom)

/-- One line write of a slice: one that the translation or the home discards has its normal completion (R52); an accepted one is logged
(R192, R193). -/
def Dev.sliceStore (d : Dev) (s : SliceRec) (a : Agent) (dpa : Nat) (data : LineData) (mask : BitVec 64) : Access × Dev :=
  match d.translate s.port dpa with
  | (none, d) => (.dropped, d.refuseTranslation (agentTile a) dpa)
  | (some (line, dom), d) =>
    match d.agentWrite a line (BitVec.ofNat 12 dom) data mask with
    | (.data v, d) => (.data v, d.dirtyMark s.id dpa a)
    | (x, d) => (x, d)

/-- Read n lines. -/
def Dev.sliceLines (d : Dev) (s : SliceRec) (a : Agent) : Nat → Nat → Except Nat (List Byte) × Dev
  | 0, _ => (.ok [], d)
  | n + 1, dpa =>
    match d.sliceLine s a dpa with
    | (.data v, d) =>
      match d.sliceLines s a n (dpa + 64) with
      | (.ok r, d) => (.ok (lineBytes v ++ r), d)
      | (.error c, d) => (.error c, d)
    | (.error, d) => (.error stAccess, d)
    | (_, d) => (.error stPoison, d)

/-- Read bytes of a slice's pool memory within some regions: ACCESS or POISON where that fails (R133). -/
def Dev.sliceRead (d : Dev) (s : SliceRec) (rs : List (Nat × Nat)) (a : Agent) (dpa len : Nat) : Except Nat (List Byte) × Dev :=
  if !inRegions rs dpa len then (.error stAccess, d)
  else
    match d.sliceLines s a ((dpa % 64 + len + 63) / 64) (dpa / 64 * 64) with
    | (.ok b, d) => (.ok (slice b (dpa % 64) len), d)
    | (.error c, d) => (.error c, d)

/-- Write bytes line by line from a line address; off is where the bytes begin in the first line. -/
def Dev.sliceStores (d : Dev) (s : SliceRec) (a : Agent) : Nat → Nat → Nat → List Byte → Nat × Dev
  | 0, _, _, _ => (stOk, d)
  | n + 1, dpa, off, b =>
    let here := b.take (64 - off)
    let mask : BitVec 64 := BitVec.ofNat 64 ((2 ^ here.length - 1) * 2 ^ off)
    match d.sliceStore s a dpa (bytesLine (List.replicate off 0 ++ here)) mask with
    | (.error, d) => (stAccess, d)
    | (_, d) => d.sliceStores s a n (dpa + 64) 0 (b.drop (64 - off))

/-- Write bytes of a slice's pool memory within some regions: OK, or ACCESS. A write that its home discards has its normal
completion (R52). -/
def Dev.sliceWrite (d : Dev) (s : SliceRec) (rs : List (Nat × Nat)) (a : Agent) (dpa : Nat) (b : List Byte) : Nat × Dev :=
  if !inRegions rs dpa b.length then (stAccess, d)
  else d.sliceStores s a ((dpa % 64 + b.length + 63) / 64) (dpa / 64 * 64) (dpa % 64) b

/-- Send a message of a slice's Service Function (R197): everything it announces has been accepted and answered. -/
def Dev.sliceMsix (d : Dev) (s : SliceRec) (vec : Nat) : Dev := d.msix (64 + s.port) vec

/-- Whether a vector lies within a slice's vectors. -/
def Quota.hasVector (q : Quota) (v : Nat) : Bool := decide (q.msixBase ≤ v ∧ v < q.msixBase + q.msixCount)

/-- Whether a vector is one of a slice's: during a change, one of the old quota or of the new (Table DM-3). -/
def SliceRec.hasVector (s : SliceRec) (v : Nat) : Bool :=
  s.quota.hasVector v || ((s.resize.map fun r => r.target.hasVector v).getD false)

end Sys2Proof.Machine
end

