-- ==== Sys2Proof/Machine/Dmv.lean ====
section
/-! DEFINITION. Data-mover channels and the registers of the dirty-page log (R177 to R198). A channel makes its line accesses within the
command that works through a burst; one that has to wait makes the command wait (log entry 35). -/

namespace Sys2Proof.Machine

/-! ### Channel state -/

/-- The active transfer of a channel. -/
def Dev.chan (d : Dev) (c : Nat) : Option ChannelRun := tget d.svc.channels c

def Dev.setChan (d : Dev) (c : Nat) (x : ChannelRun) : Dev := { d with svc := { d.svc with channels := tset d.svc.channels c x } }

def Dev.dropChan (d : Dev) (c : Nat) : Dev := { d with svc := { d.svc with channels := tdel d.svc.channels c } }

/-- DMV.STATUS.STATE: 0 IDLE, 1 BUSY, 2 ABORTING, 3 HALTED, 4 CLOSED (Table DM-12). -/
def Dev.dmvState (d : Dev) (c : Nat) : Nat := d.rd (.dmv c .status) 31 29

def Dev.setDmvState (d : Dev) (c st : Nat) : Dev := d.wr (.dmv c .status) 31 29 st

def Dev.firmwareChannel (d : Dev) (c : Nat) : Bool := d.svc.fwChannels.contains c

/-- The slice that a channel belongs to. -/
def Dev.channelSlice (d : Dev) (c : Nat) : Option SliceRec := (d.sliceOfChannel c).bind d.sliceRec

/-- Whether a quota change is removing a channel (Table DM-3). -/
def Dev.closing (d : Dev) (c : Nat) : Bool :=
  match (d.channelSlice c).bind (·.resize) with
  | some r => !r.target.channels.contains (some c)
  | none => false

def dmvAgent (c : Nat) : Agent := .dmv ⟨c % 64, Nat.mod_lt _ (by omega)⟩

/-- An interrupt of a channel with MSIX_EN: to firmware for a firmware channel, else an MSI-X message of the slice; a vector
outside the slice's vectors sends nothing (Table DM-14, R197). -/
def Dev.dmvIrq (d : Dev) (c : Nat) : Dev :=
  if !d.bitOf (.dmv c .cfg) 31 then d
  else if d.firmwareChannel c then d.emit (.firmware 1 c)
  else match d.channelSlice c with
    | some s =>
      let v := d.rd (.dmv c .cfg) 10 0
      if s.hasVector v then d.sliceMsix s v else d
    | none => d

/-- LAST_RESULT and LAST_TAG. -/
def Dev.dmvResult (d : Dev) (c result tag : Nat) : Dev := (d.wr (.dmv c .status) 27 24 result).wr (.dmv c .status) 15 0 tag

def Dev.actLen (d : Dev) (c : Nat) : Nat := (d.reg (.dmv c .actLen)).toNat
def Dev.actTag (d : Dev) (c : Nat) : Nat := d.rd (.dmv c .actCtl) 31 16

def Dev.setResidue (d : Dev) (c n : Nat) : Dev := d.setReg (.dmv c .residue) (BitVec.ofNat 64 n)

/-- Promotion of an armed shadow into the active set (R180); a channel that is being removed stays CLOSED. -/
def Dev.dmvPromote (d : Dev) (c : Nat) : Dev :=
  let d := d.setReg (.dmv c .actSrc) (d.reg (.dmv c .src))
  let d := d.setReg (.dmv c .actDst) (d.reg (.dmv c .dst))
  let d := d.setReg (.dmv c .actLen) (d.reg (.dmv c .len))
  let d := d.setReg (.dmv c .actCtl) (d.reg (.dmv c .ctl))
  let d := (d.wr (.dmv c .status) 28 28 0).setDmvState c (if d.closing c then 4 else 1)
  (d.setResidue c (d.actLen c)).setChan c
    ⟨false, 0, false, none, 0, [], ((d.channelSlice c).map SliceRec.regionsNow).getD []⟩

/-- The channel has no active transfer any more: an armed shadow is promoted, or the channel rests (R180, Table DM-3). -/
def Dev.dmvRest (d : Dev) (c : Nat) : Dev :=
  let d := d.dropChan c
  if d.bitOf (.dmv c .status) 28 && !d.safe then d.dmvPromote c else d.setDmvState c (if d.closing c then 4 else 0)

/-! ### Arming (R179) -/

/-- Whether a range of pool addresses lies within the blocks of one mirrored interleave set. -/
def Dev.inMirroredSet (d : Dev) (addr len : Nat) : Bool :=
  let first := addr / 2 ^ 26
  let blocks := (List.range ((addr + len - 1) / 2 ^ 26 - first + 1)).map fun k => first + k
  let e := d.blockEntry first
  (((d.setDesc? e.set.toNat).map (·.mirrored)).getD false) &&
    blocks.all fun b => !(d.blockEntry b).remote && decide ((d.blockEntry b).set = e.set)

/-- The checks of Table DM-15 in their order: the result that refuses, 3 ALIGNMENT or 4 INVALID. -/
def Dev.armCheck (d : Dev) (c : Nat) : Option Nat :=
  let src := (d.reg (.dmv c .src)).toNat
  let dst := (d.reg (.dmv c .dst)).toNat
  let len := (d.reg (.dmv c .len)).toNat
  let ctl := d.reg (.dmv c .ctl)
  let swap := getBits ctl 2 0
  let hold := getBits ctl 7 7
  let mirror := getBits ctl 8 8
  if src % 64 ≠ 0 ∨ dst % 64 ≠ 0 ∨ len % 64 ≠ 0 then some 3
  else if len < 64 ∨ 2 ^ 30 < len ∨ 5 < swap then some 4
  else if mirror = 0 ∧ src < dst + len ∧ dst < src + len then some 4
  else if mirror = 1 ∧ (src ≠ dst ∨ swap ≠ 0 ∨ hold ≠ 0 ∨ !d.inMirroredSet src len) then some 4
  else if d.firmwareChannel c then none
  else match d.channelSlice c with
    | none => some 4
    | some s =>
      if hold ≠ 0 ∨ mirror ≠ 0 ∨ 2 ^ 44 ≤ src ∨ 2 ^ 44 ≤ dst ∨ !inRegions s.regionsNow src len ∨ !inRegions s.regionsNow dst len then
        some 4
      else if d.bitOf (.dmv c .cfg) 31 ∧ !s.hasVector (d.rd (.dmv c .cfg) 10 0) then some 4
      else none

/-- A write of ARM (R179, R180). -/
def Dev.dmvArm (d : Dev) (c : Nat) : Dev :=
  if d.bitOf (.dmv c .status) 28 then d
  else
    match (if d.dmvState c = 4 then some 4 else d.armCheck c) with
    | some r => (d.dmvResult c r (d.rd (.dmv c .ctl) 31 16)).dmvIrq c
    | none =>
      let d := d.wr (.dmv c .status) 28 28 1
      if d.dmvState c = 0 ∧ ¬ d.safe then d.dmvPromote c else d

/-- A write of DISARM. -/
def Dev.dmvDisarm (d : Dev) (c : Nat) : Dev := d.wr (.dmv c .status) 28 28 0

/-- A write of ACK: in HALTED it clears ERR_INFO.VALID and enters IDLE, which promotes an armed shadow (R186). -/
def Dev.dmvAck (d : Dev) (c : Nat) : Dev :=
  if d.dmvState c = 3 then (d.wr (.dmv c .errInfo) 31 31 0).dmvRest c else d

/-- A write of ABORT disarms the shadow and aborts the active transfer (R184, Table DM-11); the STATE of a channel that is being removed
stays CLOSED. -/
def Dev.dmvAbort (d : Dev) (c : Nat) : Dev :=
  let d := d.dmvDisarm c
  if d.dmvState c = 3 then d.dmvAck c
  else
    match d.chan c with
    | some x =>
      let d := d.setChan c { x with aborting := true }
      if d.dmvState c = 1 then d.setDmvState c 2 else d
    | none => d

/-! ### Bursts and lines (R181 to R190) -/

/-- Bytes of the burst that begins at an offset: up to the next 4 KiB boundary of destination addresses (R181). -/
def Dev.burstLen (d : Dev) (c off : Nat) : Nat :=
  min (4096 - ((d.reg (.dmv c .actDst)).toNat + off) % 4096) (d.actLen c - off)

/-- Offset of the burst that an offset lies in. -/
def Dev.burstOf (d : Dev) (c off : Nat) : Nat :=
  let dst := (d.reg (.dmv c .actDst)).toNat
  (dst + off) / 4096 * 4096 - dst

/-- Byte i of a destination line comes from this byte of its source line (Table DM-16). -/
def swapByte (mode i : Nat) : Nat :=
  i ^^^ (match mode with
    | 1 => 1
    | 2 => 3
    | 3 => 7
    | 4 => 2
    | 5 => 6
    | _ => 0)

def swapLine (mode : Nat) (v : LineData) : LineData :=
  let b := lineBytes v
  bytesLine ((List.range 64).map fun i => b.getD (swapByte mode i) 0)

/-- The owner domain that a channel's address belongs to, as its slot or its block names it. -/
def Dev.ownerAt (d : Dev) (c addr : Nat) : Nat :=
  match (if d.firmwareChannel c then none else d.channelSlice c) with
  | some s => match tget d.pool.windows s.port with
    | some (base, _, _) => (d.slotEntry (base + addr / 2 ^ 26)).domain.toNat
    | none => 0
  | none => (d.blockEntry (addr / 2 ^ 26)).owner.toNat

/-- Read a source line: the line, or the cause of its failure (Table DM-13). -/
def Dev.dmvRead (d : Dev) (c : Nat) (x : ChannelRun) (addr : Nat) : Except Nat LineData × Dev :=
  let of (r : Access × Dev) : Except Nat LineData × Dev :=
    match r with
    | (.data v, d) => (.ok v, d)
    | (.error, d) => (.error 2, d)
    | (_, d) => (.error 3, d)
  if d.firmwareChannel c then of (d.agentRead (dmvAgent c) (addr / 64) (d.blockEntry (addr / 2 ^ 26)).owner)
  else
    match d.channelSlice c with
    | some s => if inRegions x.regions addr 64 then of (d.sliceLine s (dmvAgent c) addr) else (.error 1, d)
    | none => (.error 1, d)

/-- Write a destination line; a write that the home discards counts as returned (R182). -/
def Dev.dmvWrite (d : Dev) (c : Nat) (x : ChannelRun) (addr : Nat) (v : LineData) : Option Nat × Dev :=
  let of (r : Access × Dev) : Option Nat × Dev :=
    match r with
    | (.error, d) => (some 2, d)
    | (_, d) => (none, d)
  if d.firmwareChannel c then
    of (d.agentWrite (dmvAgent c) (addr / 64) (d.blockEntry (addr / 2 ^ 26)).owner v (BitVec.allOnes 64))
  else
    match d.channelSlice c with
    | some s =>
      if inRegions x.regions addr 64 then of (d.sliceStore s (dmvAgent c) addr v (BitVec.allOnes 64)) else (some 1, d)
    | none => (some 1, d)

/-- Nothing has been written at an expander address: what it reads as stays open. -/
def Dev.memForget (d : Dev) (port addr : Nat) : Dev :=
  { d with pool := { d.pool with mem := d.pool.mem.filter fun e => !decide (e.1 = memKey port addr) } }

/-- The mirror copy of one line (R190): from the copy that is usable and not listed for repair to the other copy, where that one
is under resynchronisation or listed, under a conflict-table entry of the line's granule. The last line of a granule removes its repair
entry. -/
def Dev.mirrorLine (d : Dev) (c line : Nat) : Option Nat × Dev :=
  let e := d.blockEntry (blockOfLine line)
  let g := granuleOf line
  match d.mayEnter g with
  | (false, d) => (none, d)
  | (true, d) =>
  match d.homeOutcome (sliceOf g) ⟨0, dmvAgent c, BitVec.ofNat 40 line, e.owner, 0, 0, false⟩ ⟨true, true⟩ true true, d.place e line with
  | (.here _ _, d), some p =>
    match [0, 1].find? fun k => d.copyOk p.set p.way k && !d.needsRepair p.set p.way k g with
    | none => (some 3, d)
    | some k =>
      let o := 1 - k
      let resync := ((d.setDesc? p.set).map fun s => s.resync p.way o).getD false
      let listed := d.needsRepair p.set p.way o g
      if !resync && !listed then (none, d)
      else
        let v := if d.poolUp (p.port k) then d.memNow (p.port k) p.addr else some .poison
        let d := match v with
          | some v => d.storeCopy (p.port o) p.addr v
          | none => d.memForget (p.port o) p.addr
        let d := if v = some .poison then d.report (16 * sliceOf g + 4) 2 (p.detail line) else d
        let later := (List.range (15 - line % 16)).any fun i =>
          decide ((d.place e (line + 1 + i)).map (·.way) = some p.way)
        (none, if later || !listed then d
          else d.modHub fun h => { h with repair := h.repair.filter fun (r : RepairEntry) => !decide (r = ⟨p.set, p.way, o, g⟩) })
  | (.refused, d), _ => (some 3, d)
  | (_, d), _ => (some 2, d)

/-- Copy one line: none, or the direction (true for the write) and the cause of its failure. -/
def Dev.dmvLine (d : Dev) (c : Nat) (x : ChannelRun) (off : Nat) : Option (Bool × Nat) × Dev :=
  let src := (d.reg (.dmv c .actSrc)).toNat + off
  let dst := (d.reg (.dmv c .actDst)).toNat + off
  let d := d.count (c / 4) (0x5000 + c % 4) 1
  if d.bitOf (.dmv c .actCtl) 8 then
    match d.mirrorLine c (src / 64) with
    | (some k, d) => (some (false, k), d)
    | (none, d) => (none, d)
  else
    match d.dmvRead c x src with
    | (.error k, d) => (some (false, k), d)
    | (.ok v, d) =>
      let d := if d.ownerAt c src ≠ d.ownerAt c dst then d.count (c / 4) 0x500A 1 else d
      match d.dmvWrite c x dst (swapLine (d.rd (.dmv c .actCtl) 2 0) v) with
      | (some k, d) => (some (true, k), d)
      | (none, d) => (none, d)

/-- Copy lines in an order up to the first that fails: its offset, direction and cause. -/
def Dev.dmvLines (d : Dev) (c : Nat) (x : ChannelRun) : List Nat → Option (Nat × Bool × Nat) × Dev
  | [] => (none, d)
  | off :: rest =>
    match d.dmvLine c x off with
    | (none, d) => d.dmvLines c x rest
    | (some (w, k), d) => (some (off, w, k), d)

/-- An order that the device chooses for some lines: R181 gives none. -/
def Dev.anyOrder (d : Dev) : Nat → List Nat → List Nat × Dev
  | 0, _ => ([], d)
  | n + 1, l =>
    match d.choose l with
    | (some a, d) =>
      let (r, d) := d.anyOrder n (l.erase a)
      (a :: r, d)
    | (none, d) => ([], d)

/-- Latch a bus error (R185): the first failure's address, direction and cause; later ones are counted. -/
def Dev.dmvFails (d : Dev) (c : Nat) (x : ChannelRun) (off : Nat) (write : Bool) (cause : Nat) : Dev :=
  match x.failed with
  | some f => d.setChan c { x with failed := some (min f off), failures := x.failures + 1 }
  | none =>
    let base := if write then (d.reg (.dmv c .actDst)).toNat else (d.reg (.dmv c .actSrc)).toNat
    let info := 2 ^ 31 + (if write then 2 ^ 30 else 0) + cause * 2 ^ 24 + d.actTag c
    let d := (d.setReg (.dmv c .errInfo) (BitVec.ofNat 64 info)).setReg (.dmv c .errAddr) (BitVec.ofNat 64 (base + off))
    (d.count (c / 4) 0x5008 1).setChan c { x with failed := some off }

/-- Release the granules that a channel holds in X. -/
def Dev.releaseHeld (d : Dev) (c : Nat) (gs : List Nat) : Dev :=
  gs.foldl (fun d g => d.releaseX (.dmv ⟨c % 64, Nat.mod_lt _ (by omega)⟩) g) d

/-- The migration that a firmware channel with HOLD copies: its watermark advances over a burst that begins there (R64, R189). -/
def Dev.holdAdvance (d : Dev) (c off len : Nat) : Dev :=
  let src := (d.reg (.dmv c .actSrc)).toNat + off
  let dst := (d.reg (.dmv c .actDst)).toNat + off
  let mine (m : Migration) : Bool := decide (m.source = src / 2 ^ 26 ∧ m.target = dst / 2 ^ 26 ∧ m.watermark = src % 2 ^ 26)
  let moved (m : Migration) : Migration := if mine m then { m with watermark := m.watermark + len } else m
  if d.hub.migrations.any mine then d.modHub fun h => { h with migrations := h.migrations.map moved } else d

/-- Work through the current burst: the lines are copied, or the first that fails is latched. -/
def Dev.dmvBurst (d : Dev) (c : Nat) (x : ChannelRun) : Dev :=
  let len := d.burstLen c x.offset
  let offs := (List.range (len / 64)).map fun i => x.offset + 64 * i
  match d.dmvLines c x offs with
  | (none, d) =>
    let d := (d.count (c / 4) (0x5004 + c % 4) 1).releaseHeld c x.held
    let d := if d.bitOf (.dmv c .actCtl) 7 then d.holdAdvance c x.offset len else d
    let d := d.setChan c { x with offset := x.offset + len, held := [], stopped := x.aborting }
    d.setResidue c (d.actLen c - (x.offset + len))
  | (some _, _) =>
    let (order, d) := d.anyOrder offs.length offs
    match d.dmvLines c x order with
    | (some (off, w, k), d) => d.dmvFails c x off w k
    | (none, d) => d

/-- Whether the current burst can be worked through: one is left, nothing has failed, and with HOLD its granules are held. -/
def Dev.burstReady (d : Dev) (c : Nat) (x : ChannelRun) : Bool :=
  x.failed.isNone && !x.stopped && decide (x.offset < d.actLen c) && (!d.bitOf (.dmv c .actCtl) 7 || !x.held.isEmpty) &&
    !(d.flt.testDue.any fun t => decide (t.resource = .channel ∧ t.number = c))

/-! ### Ends of a transfer -/

/-- The transfer has ended ABORTED (R184). -/
def Dev.dmvAborted (d : Dev) (c : Nat) (x : ChannelRun) : Dev :=
  let d := (d.setResidue c (d.actLen c - x.offset)).dmvResult c 2 (d.actTag c)
  (((d.releaseHeld c x.held).count (c / 4) 0x5009 1).dmvIrq c).dmvRest c

/-- The transfer has ended with BUS_ERROR (R185): RESIDUE counts from the burst of the lowest failing line. A channel that is
being removed rests; any other is HALTED. -/
def Dev.dmvHalted (d : Dev) (c : Nat) (x : ChannelRun) (off : Nat) : Dev :=
  let d := (d.setResidue c (d.actLen c - d.burstOf c off)).dmvResult c 5 (d.actTag c)
  let d := (d.releaseHeld c x.held).dmvIrq c
  if d.closing c then d.dmvRest c else (d.dropChan c).setDmvState c 3

/-! ### Loss of a channel (R191, R392) -/

/-- Channels that no slice holds, that are not firmware channels and that are not retired. -/
def Dev.freeChannels (d : Dev) : List Nat :=
  (List.range 64).filter fun c => !d.firmwareChannel c && (d.sliceOfChannel c).isNone && !d.isRetired .channel c &&
    decide (d.domState (domTmb (c / 4)) ≤ 3) && d.logicUp (c / 4)

/-- A channel in a quota replaced by another. -/
def Quota.moveChannel (q : Quota) (old new : Nat) : Quota :=
  { q with channels := q.channels.map fun x => if x = some old then some new else x }

/-- The registers of a channel group. -/
def dmvRegs : List DmvReg :=
  [.src, .dst, .len, .ctl, .status, .actSrc, .actDst, .actLen, .actCtl, .residue, .errInfo, .errAddr, .cfg]

/-- The group of a channel takes its reset values, but for what the end of a lost transfer has shown (R9, R178, R191). -/
def Dev.resetGroup (d : Dev) (c : Nat) (ended : Bool) : Dev :=
  let keep := [DmvReg.status, .residue, .errInfo, .errAddr].map fun r => (r, d.reg (.dmv c r))
  let d := d.resetRegs fun g => match g with
    | .dmv k _ => decide (k = c)
    | _ => false
  if ended then (keep.foldl (fun d x => d.setReg (.dmv c x.1) x.2) d).wr (.dmv c .status) 28 28 0 else d

/-- A channel is retired, or reset with its Tambour (blk) (R191): its active transfer ends with CHANNEL_LOST at the residue point, and
its local channel moves to a free channel, HALTED with an armed shadow kept, or is CLOSED. A retired firmware channel is replaced by the
lowest-numbered free one (R392). A reset gives every group that has not moved its reset values (R178). -/
def Dev.channelLost (d : Dev) (c : Nat) (blk : Bool) : Dev :=
  let active := (d.chan c).isSome || decide (d.dmvState c = 3)
  let settle (d : Dev) : Dev := if blk then d.resetGroup c active else d
  let d := match d.chan c with
    | some x =>
      let off := d.burstOf c (x.failed.getD x.offset)
      let (w, d) := d.openNat
      let d := d.dmvFails c { x with failed := none } off (decide (w % 2 = 1)) 4
      ((d.setResidue c (d.actLen c - off)).dmvResult c 5 (d.actTag c)).releaseHeld c x.held
    | none => d
  let d := d.dropChan c
  if d.firmwareChannel c then
    let d := if active then settle ((d.setDmvState c 3).dmvIrq c) else settle d
    if d.isRetired .channel c then
      match d.freeChannels.head? with
      | some n => { d with svc := { d.svc with fwChannels := d.svc.fwChannels.map fun x => if x = c then n else x } }
      | none => { d with svc := { d.svc with fwChannels := d.svc.fwChannels.filter fun x => !decide (x = c) } }
    else d
  else
    match d.channelSlice c with
    | none => settle d
    | some s =>
      match d.choose (d.freeChannels.filter fun n => !decide (n = c)) with
      | (some n, d) =>
        let d := dmvRegs.foldl (fun d r => d.setReg (.dmv n r) (d.reg (.dmv c r))) d
        let d := d.resetRegs fun g => match g with
          | .dmv k _ => decide (k = c)
          | _ => false
        let resize := s.resize.map fun (r : Resize) => { r with target := r.target.moveChannel c n }
        let d := d.setSlice { s with quota := s.quota.moveChannel c n, resize := resize }
        let d := d.setDmvState n 3
        if active then d.dmvIrq n else d
      | (none, d) => (settle (if active then d.dmvIrq c else d)).setDmvState c 4

/-! ### Meanings -/

/-- DMV_ARM. -/
def execDmvArm (c : Fin 64) (s : State) : Host.Outcome State Fault Refusal := onDev s fun d => d.dmvArm c

/-- DMV_DISARM. -/
def execDmvDisarm (c : Fin 64) (s : State) : Host.Outcome State Fault Refusal := onDev s fun d => d.dmvDisarm c

/-- DMV_ABORT. -/
def execDmvAbort (c : Fin 64) (s : State) : Host.Outcome State Fault Refusal := onDev s fun d => d.dmvAbort c

/-- DMV_ACK. -/
def execDmvAck (c : Fin 64) (s : State) : Host.Outcome State Fault Refusal := onDev s fun d => d.dmvAck c

/-- DMV_HOLD_GRANTED: the channel takes X on every source granule of the current burst through its home (R189); a hold that is refused
is a bus error (Tables PB-8, DM-13). -/
def execDmvHoldGranted (c : Fin 64) (s : State) : Host.Outcome State Fault Refusal :=
  onAccess s fun d =>
    match d.chan c with
    | some x =>
      let first := ((d.reg (.dmv c .actSrc)).toNat + x.offset) / 1024
      let last := ((d.reg (.dmv c .actSrc)).toNat + x.offset + d.burstLen c x.offset - 1) / 1024
      let gs := (List.range (last + 1 - first)).map fun k => first + k
      if d.safe || !d.bitOf (.dmv c .actCtl) 7 || !x.held.isEmpty || x.failed.isSome || x.stopped || decide (d.actLen c ≤ x.offset) then d
      else
        let (ok, d) := gs.foldl (fun (r : Bool × Dev) g => if r.1 then r.2.holdX (dmvAgent c) g false else r) (true, d)
        if ok then d.setChan c { x with held := gs } else (d.releaseHeld c gs).dmvFails c x x.offset false 2
    | none => d

/-- DMV_BURST_DONE (R181). -/
def execDmvBurstDone (c : Fin 64) (s : State) : Host.Outcome State Fault Refusal :=
  onAccess s fun d =>
    match d.chan c with
    | some x => if !d.safe && d.burstReady c x then d.dmvBurst c x else d
    | none => d

/-- DMV_TRANSFER_COMPLETE (R182). -/
def execDmvTransferComplete (c : Fin 64) (s : State) : Host.Outcome State Fault Refusal :=
  onDev s fun d =>
    match d.chan c with
    | some x =>
      if x.failed.isSome ∨ x.offset < d.actLen c ∨ x.aborting then d
      else
        let d := (d.setResidue c 0).dmvResult c 1 (d.actTag c)
        (if d.bitOf (.dmv c .actCtl) 6 then d.dmvIrq c else d).dmvRest c
    | none => d

/-- DMV_ABORT_DRAINED (R184): the current burst finishes first; where a line of it fails, the transfer ends under R185. -/
def execDmvAbortDrained (c : Fin 64) (s : State) : Host.Outcome State Fault Refusal :=
  onAccess s fun d =>
    match d.chan c with
    | some x =>
      if !x.aborting then d
      else
        let d := if d.burstReady c x then d.dmvBurst c x else d
        match d.chan c with
        | some x => if x.failed.isNone && (x.stopped || decide (d.actLen c ≤ x.offset)) then d.dmvAborted c x else d
        | none => d
    | none => d

/-- DMV_LINE_FAILURE (R185): a line that the channel has issued fails. -/
def execDmvLineFailure (c : Fin 64) (offset : Nat) (write : Bool) (cause : Fin 4) (s : State) : Host.Outcome State Fault Refusal :=
  onDev s fun d =>
    match d.chan c with
    | some x =>
      let issued := if x.stopped then x.offset else x.offset + d.burstLen c x.offset
      if offset % 64 ≠ 0 ∨ issued ≤ offset ∨ (!write ∧ offset < x.offset) then d else d.dmvFails c x offset write cause
    | none => d

/-- DMV_HALTED_DRAINED (R185). -/
def execDmvHaltedDrained (c : Fin 64) (s : State) : Host.Outcome State Fault Refusal :=
  onDev s fun d =>
    match d.chan c with
    | some x => match x.failed with
      | some off => d.dmvHalted c x off
      | none => d
    | none => d

/-- DMV_CHANNEL_RETIRED (R191). -/
def execDmvChannelRetired (c : Fin 64) (s : State) : Host.Outcome State Fault Refusal := onDev s fun d => d.channelLost c false

/-! ### The dirty-page log's registers (R194 to R196) -/

/-- The conditions of R194 for a window of some pages. -/
def Dev.dirtyOk (d : Dev) (s : SliceRec) (pages : Nat) : Bool :=
  let base := d.rd (.dirtyWin s.port s.index) 43 12 * 4096
  let buf (b : Nat) : Nat := d.rd (.dirtyBuf s.port s.index b) 43 6 * 64
  decide (pages % 512 = 0 ∧ 512 ≤ pages ∧ pages ≤ 67108864) && inRegions s.regionsNow (buf 0) (pages / 8) &&
    inRegions s.regionsNow (buf 1) (pages / 8) &&
    match tget d.pool.windows s.port with
    | some (_, r0, r1) => decide (r0 * 2 ^ 26 ≤ base ∧ base + pages * 4096 ≤ (r0 + r1) * 2 ^ 26)
    | none => false

/-- A write of SFN.DIRTY_CTL: PAGES is locked while EN is 1, and SWAP acts where EN was 1 and no swap is pending. -/
def Dev.dirtyCtlWrite (d : Dev) (s : SliceRec) (v : Word) : Dev :=
  let r := Reg.dirtyCtl s.port s.index
  let was := d.bitOf r 31
  let d := if was then d else d.wr r 26 0 (getBits v 26 0)
  let en := getBits v 31 31 = 1 ∧ (was ∨ d.dirtyOk s (d.rd r 26 0))
  let d := (d.wr r 29 29 (getBits v 29 29)).wr r 31 31 (if en then 1 else 0)
  let st := Reg.dirtyStatus s.port s.index
  if getBits v 30 30 = 1 ∧ was ∧ d.bitOf st 30 = false then
    let x := d.dirtyRun s.id
    ((d.wr st 31 31 (1 - d.rd st 31 31)).wr st 30 30 1).setDirtyRun s.id ⟨false, false, x.outside, x.lost, x.marks⟩
  else d

/-- A pending swap completes (R195, R196): every bit update for a write before the flip has been accepted. -/
def Dev.dirtySwapDone (d : Dev) (s : SliceRec) : Dev :=
  let st := Reg.dirtyStatus s.port s.index
  let x := d.dirtyRun s.id
  if d.bitOf st 30 && x.marks.all fun m => decide (m.buf = d.rd st 31 31) then
    let d := ((d.wr st 30 30 0).wr st 29 29 (if x.oldOut then 1 else 0)).wr st 28 28 (if x.oldLost then 1 else 0)
    let d := d.bumpWrap st 15 0 1
    let vec := d.rd (.dirtyWin s.port s.index) 10 0
    if d.bitOf (.dirtyCtl s.port s.index) 29 && s.hasVector vec then d.sliceMsix s vec else d
  else d

/-- DIRTY_ENABLE: a write with EN 1. -/
def execDirtyEnable (p : Fin 64) (index : Fin 256) (v : BitVec 32) (s : State) : Host.Outcome State Fault Refusal :=
  onDev s fun d => match d.sliceAt p index with
    | some x => if v.getLsbD 31 then d.dirtyCtlWrite x (v.setWidth 64) else d
    | none => d

/-- DIRTY_DISABLE: a write with EN 0. -/
def execDirtyDisable (p : Fin 64) (index : Fin 256) (v : BitVec 32) (s : State) : Host.Outcome State Fault Refusal :=
  onDev s fun d => match d.sliceAt p index with
    | some x => if v.getLsbD 31 then d else d.dirtyCtlWrite x (v.setWidth 64)
    | none => d

/-- DIRTY_SWAP: a write with SWAP 1. -/
def execDirtySwap (p : Fin 64) (index : Fin 256) (v : BitVec 32) (s : State) : Host.Outcome State Fault Refusal :=
  onDev s fun d => match d.sliceAt p index with
    | some x => if v.getLsbD 30 then d.dirtyCtlWrite x (v.setWidth 64) else d
    | none => d

/-- DIRTY_SWAP_COMPLETE. -/
def execDirtySwapComplete (slice : Fin 4096) (s : State) : Host.Outcome State Fault Refusal :=
  onDev s fun d => match d.sliceRec slice with
    | some x => (d.drainAll).dirtySwapDone x
    | none => d

end Sys2Proof.Machine
end

