-- ==== Sys2Proof/Machine/Rings.lean ====
section
/-! DEFINITION. Rings: contexts, indices, fetching, dispatch, completions and their interrupts (R134 to R149). -/

namespace Sys2Proof.Machine

/-! ### Ring registers and runs -/

/-- Index arithmetic modulo 2^32 (R138). -/
def gap (a b : Nat) : Nat := (a + 2 ^ 32 - b) % 2 ^ 32

def next32 (a : Nat) : Nat := (a + 1) % 2 ^ 32

def Dev.ringRun (d : Dev) (s : SliceRec) (r : Nat) : Option RingRun := tget d.svc.rings (s.id, r)

def Dev.setRing (d : Dev) (s : SliceRec) (r : Nat) (x : RingRun) : Dev :=
  (({ d with svc := { d.svc with rings := tset d.svc.rings (s.id, r) x } }).wr (.ring s.port s.index r .status) 16 0 x.ops.length)

def Dev.ringReg (d : Dev) (s : SliceRec) (r : Nat) (w : RingReg) : Nat := (d.reg (.ring s.port s.index r w)).toNat

def Dev.setRingReg (d : Dev) (s : SliceRec) (r : Nat) (w : RingReg) (v : Nat) : Dev :=
  d.setReg (.ring s.port s.index r w) (BitVec.ofNat 64 v)

/-- SFN.RING_STATUS.STATE (Table MS-4): 0 DISABLED, 1 ACTIVE, 2 STALLED, 3 DISABLING, 4 ERROR. -/
def Dev.ringState (d : Dev) (s : SliceRec) (r : Nat) : Nat := d.rd (.ring s.port s.index r .status) 31 29

def Dev.setRingState (d : Dev) (s : SliceRec) (r st : Nat) : Dev := d.wr (.ring s.port s.index r .status) 31 29 st

/-- Send the ring's message, at most one per poll interval; another waits for the next interval (R145). -/
def Dev.ringMessage (d : Dev) (s : SliceRec) (r : Nat) : Dev :=
  match d.ringRun s r with
  | some x =>
    if !x.msixEn then d
    else if x.sent then d.setRing s r { x with notify := true }
    else (d.setRing s r { x with notify := false, sent := true }).sliceMsix s x.msixVec
  | none => d

/-- Enter ERROR with a code. -/
def Dev.ringError (d : Dev) (s : SliceRec) (r code : Nat) : Dev :=
  ((d.setRingState s r 4).wr (.ring s.port s.index r .status) 24 17 code).ringMessage s r

/-- STALLED while unfetched entries wait only for completion space (R140). -/
def Dev.showStall (d : Dev) (s : SliceRec) (r : Nat) : Dev :=
  let st := d.ringState s r
  match d.ringRun s r with
  | some x =>
    if st = 1 ∨ st = 2 then
      let ci := d.ringReg s r .sqCi
      let full := decide (2 ^ x.cqLog2 ≤ gap ci (d.ringReg s r .cqCi))
      d.setRingState s r (if ci ≠ x.sampled ∧ full then 2 else 1)
    else d
  | none => d

/-- A Function Level Reset completes when every ring of the function is DISABLED; the ring registers then take their reset
values (R146). -/
def Dev.flrEnds (d : Dev) (p : Nat) : Dev :=
  if d.svc.flr.contains p && (d.slicesOf p).all fun s => (List.range 64).all fun r => decide (d.ringState s r = 0) then
    let d := { d with svc := { d.svc with flr := d.svc.flr.filter fun q => !decide (q = p) } }
    d.resetRegs fun g => match g with
      | .ring h _ _ _ => decide (h = p)
      | _ => false
  else d

/-- A DISABLING ring whose fetched operations have all completed is DISABLED (R146); a message that waits for the end of its poll
interval still goes then (R145). -/
def Dev.ringSettles (d : Dev) (s : SliceRec) (r : Nat) : Dev :=
  if d.ringState s r ≠ 3 then d
  else
    match d.ringRun s r with
    | some x =>
      if x.ops.isEmpty then
        let held := if x.notify then tset d.svc.held (s.id, r) x.msixVec else d.svc.held
        (({ d with svc := { d.svc with rings := tdel d.svc.rings (s.id, r), held := held } }).setRingState s r 0).flrEnds s.port
      else d
    | none => (d.setRingState s r 0).flrEnds s.port

/-- DISABLE: nothing more is fetched, and every fetched operation completes (R146). -/
def Dev.ringDisable (d : Dev) (s : SliceRec) (r : Nat) : Dev :=
  let st := d.ringState s r
  if st = 1 ∨ st = 2 ∨ st = 4 then (d.setRingState s r 3).ringSettles s r else d

/-! ### Enabling (R136, R137) -/

/-- The engine of a slice's share by which the device reads a context or an entry. -/
def SliceRec.agent (s : SliceRec) : Agent :=
  match (s.sharedEngines ++ s.quota.engines).head? with
  | some e => .engine ⟨e.1 % 256, Nat.mod_lt _ (by omega)⟩
  | none => .engine 0

/-- The run that a context describes (Table MS-3). -/
def ringOf (c : List Byte) : RingRun :=
  { sqBase := field c 0 8, cqBase := field c 8 8, shadow := field c 16 8, sqLog2 := field c 24 1, cqLog2 := field c 25 1
    service := field c 26 1, msixEn := bit (field c 27 1) 0, pollN := field c 28 2, msixVec := field c 30 2, sampled := 0
    ops := [], slotNext := 0, done := [], notify := false, sent := false }

/-- The checks of R137 but for the share. -/
def SliceRec.contextOk (s : SliceRec) (c : List Byte) : Bool :=
  let x := ringOf c
  let rs := s.regionsNow
  decide (c.length = 64 ∧ field c 27 1 ≤ 1 ∧ field c 32 32 = 0 ∧ x.sqBase % 4096 = 0 ∧ x.cqBase % 4096 = 0 ∧ x.shadow % 64 = 0 ∧
    6 ≤ x.sqLog2 ∧ x.sqLog2 ≤ 16 ∧ 6 ≤ x.cqLog2 ∧ x.cqLog2 ≤ 16 ∧ 1 ≤ x.service ∧ x.service ≤ 2 ∧ 1 ≤ x.pollN ∧ x.pollN ≤ 4096) &&
    s.hasVector x.msixVec && inRegions rs x.sqBase (64 * 2 ^ x.sqLog2) &&
    inRegions rs x.cqBase (32 * 2 ^ x.cqLog2) && (decide (x.shadow = 0) || inRegions rs x.shadow 64)

/-- A write of ENABLE in DISABLED reads the context and checks it (R137); a local ring beyond the quota has no group (R136). -/
def Dev.ringEnable (d : Dev) (s : SliceRec) (r : Nat) : Dev :=
  if s.ringCount ≤ r ∨ d.ringState s r ≠ 0 then d
  else
    let d := d.wr (.ring s.port s.index r .status) 24 17 0
    match d.sliceRead s s.regionsNow s.agent (d.ringReg s r .ctx) 64 with
    | (.error _, d) => d.ringError s r 1
    | (.ok c, d) =>
      let x := ringOf c
      let d := d.setRing s r { x with msixEn := x.msixEn && s.hasVector x.msixVec, sent := (tget d.svc.held (s.id, r)).isSome }
      if !s.contextOk c then d.ringError s r 2
      else if !(s.sharedEngines.any fun e => d.engineRuns e.1 (serviceImage x.service)) then d.ringError s r 4
      else
        let d := (((d.setRingReg s r .sqPi 0).setRingReg s r .sqCi 0).setRingReg s r .cqPi 0).setRingReg s r .cqCi 0
        d.setRingState s r 1

/-- RING_ENABLE. -/
def execRingEnable (p : Fin 64) (index : Fin 256) (ring : Fin 64) (st : State) : Host.Outcome State Fault Refusal :=
  onAccess st fun d => match d.sliceAt p index with
    | some s => d.ringEnable s ring
    | none => d

/-- A write of DISABLE (R146). -/
def execRingDisable (p : Fin 64) (index : Fin 256) (ring : Fin 64) (st : State) : Host.Outcome State Fault Refusal :=
  onDev st fun d => match d.sliceAt p index with
    | some s => if ring.val < s.quota.rings.length then d.ringDisable s ring else d
    | none => d

/-! ### Sampling and fetching (R139 to R141) -/

/-- A message of a ring that has been disabled goes at the end of its poll interval (R145). -/
def Dev.heldMessage (d : Dev) (s : SliceRec) (r : Nat) : Dev :=
  match tget d.svc.held (s.id, r) with
  | some v => ({ d with svc := { d.svc with held := tdel d.svc.held (s.id, r) } }).sliceMsix s v
  | none => d

/-- The poll interval of a ring: its message may go again, and SQ_PI is sampled in ACTIVE and STALLED. -/
def execRingPollSample (slice : Fin 4096) (ring : Fin 64) (st : State) : Host.Outcome State Fault Refusal :=
  onDev st fun d =>
    match d.sliceRec slice with
    | none => d
    | some s =>
      let r := ring.val
      let d := d.heldMessage s r
      match d.ringRun s r with
      | none => d
      | some x =>
        let due := x.notify
        let d := d.setRing s r { x with sent := false, notify := false }
        let d := if due then d.ringMessage s r else d
        let state := d.ringState s r
        if state ≠ 1 ∧ state ≠ 2 then d
        else
          let pi := d.ringReg s r .sqPi
          if 2 ^ x.sqLog2 < gap pi (d.ringReg s r .sqCi) then d.ringError s r 3
          else
            match d.ringRun s r with
            | some x => (d.setRing s r { x with sampled := pi }).showStall s r
            | none => d

/-- The result of an operation that reports a status alone. -/
def OpResult.of (status : Nat) : OpResult := ⟨status, 0, 0, 0, []⟩

/-- An entry that could not be read: its header, and with it TAG and NOTIFY, is open. -/
def Dev.unreadEntry (d : Dev) : List Byte × Dev :=
  let (h, d) := d.openBits 32
  (toBytes 4 h.toNat ++ List.replicate 60 0, d)

/-- FLAGS of an entry. -/
def RingOp.notify (o : RingOp) : Bool := bit (field o.entry 1 1) 0
def RingOp.fence (o : RingOp) : Bool := bit (field o.entry 1 1) 1
def RingOp.opcode (o : RingOp) : Nat := field o.entry 0 1
def RingOp.tag (o : RingOp) : Nat := field o.entry 2 2

/-- A submission entry is read: SQ_CI advances, and the operation waits for its start (R140, R144). -/
def execSubmissionFetched (slice : Fin 4096) (ring : Fin 64) (st : State) : Host.Outcome State Fault Refusal :=
  onAccess st fun d =>
    match d.sliceRec slice with
    | none => d
    | some s =>
      let r := ring.val
      match d.ringRun s r with
      | none => d
      | some x =>
        let ci := d.ringReg s r .sqCi
        let state := d.ringState s r
        if d.safe ∨ (state ≠ 1 ∧ state ≠ 2) ∨ ci = x.sampled ∨ 2 ^ x.cqLog2 ≤ gap ci (d.ringReg s r .cqCi) then d
        else
          let (o, d) : RingOp × Dev :=
            match d.sliceRead s s.quota.regions s.agent (x.sqBase + ci % 2 ^ x.sqLog2 * 64) 64 with
            | (.ok b, d) =>
              let o : RingOp := ⟨ci, b, .waiting, .of 0, false, s.regionsNow⟩
              ({ o with stage := if o.fence then .fenced else .waiting }, d)
            | (.error c, d) =>
              let (b, d) := d.unreadEntry
              (⟨ci, b, .ended, .of c, false, s.regionsNow⟩, d)
          ((d.setRing s r { x with ops := x.ops ++ [o] }).setRingReg s r .sqCi (next32 ci)).showStall s r

/-- A FENCE submission starts once every earlier submission has completed and its completion is visible (R144). Behind a completion
write that has failed it never starts, since that completion is never visible (DESIGN CHOICE, log entry 46). -/
def execFencedSubmissionStart (slice : Fin 4096) (ring : Fin 64) (st : State) : Host.Outcome State Fault Refusal :=
  onDev st fun d =>
    match d.sliceRec slice with
    | none => d
    | some s =>
      match d.ringRun s ring with
      | some x =>
        match x.ops with
        | o :: rest =>
          if ¬ d.safe ∧ o.stage = .fenced ∧ x.done = [] then d.setRing s ring { x with ops := { o with stage := .waiting } :: rest } else d
        | [] => d
      | none => d

/-! ### Dispatch (R132, R134, R144, R166) -/

/-- The object that a queue operation names: a node or a queue, with its number (R166). -/
def objectOf (e : List Byte) : Option (Bool × Nat) :=
  let op := field e 0 1
  if op = 0x12 then some (true, field e 4 2)
  else if op = 0x19 then some (bit (field e 4 4) 31, field e 4 2)
  else if op = 0x13 ∨ op = 0x18 ∨ op = 0x1A ∨ op = 0x1B then some (false, field e 4 4)
  else none

/-- Operations fetched before one with an index. -/
def RingRun.before (x : RingRun) (index : Nat) : List RingOp := x.ops.takeWhile fun o => !decide (o.index = index)

/-- Whether an earlier operation of the ring that names the same object has not committed. -/
def RingRun.objectBusy (x : RingRun) (o : RingOp) : Bool :=
  (objectOf o.entry).isSome && (x.before o.index).any fun y => decide (objectOf y.entry = objectOf o.entry) &&
    match y.stage with
    | .copyingIn _ _ _ => true
    | _ => false

/-- Whether an operation may start: every earlier one has started (R144), and those on its object have committed (R166). -/
def RingRun.mayStart (x : RingRun) (o : RingOp) : Bool :=
  decide (o.stage = .waiting) && ((x.before o.index).all fun y => !decide (y.stage = .waiting) && !decide (y.stage = .fenced)) &&
    !x.objectBusy o

/-- What dispatching finds: no engine of the image in the share, none free now, or an engine. -/
inductive Dispatch
  | lost
  | later
  | on (e : Nat)
  deriving DecidableEq, Repr

/-- Whether a slice has a fetched operation waiting for an engine (R174). -/
def Dev.wantsEngine (d : Dev) (s : SliceRec) (e : Nat) : Bool :=
  (s.sharedEngines.any fun x => decide (x.1 = e)) && d.svc.rings.any fun x =>
    decide (x.1.1 = s.id) && d.engineRuns e (serviceImage x.2.service) && x.2.ops.any fun o => x.2.mayStart o

/-- The weight of a slice's entry for an engine. -/
def SliceRec.weightAt (s : SliceRec) (e : Nat) : Nat := ((s.sharedEngines.find? fun x => decide (x.1 = e)).map (·.2)).getD 1

/-- Threads that a slice has been given in the present round of an engine. -/
def Dev.given (d : Dev) (e id : Nat) : Nat := tgetD d.svc.rounds (e, id) 0

/-- Whether a slice may take a thread of an engine now: in each round every slice that waits takes as many as its weight, one that
does not wait is passed over and earns nothing, and the next round begins once no slice that waits has one left (R174; how the grants of
one round follow each other is open, log entry 45). -/
def Dev.hasTurn (d : Dev) (s : SliceRec) (e : Nat) : Bool :=
  decide (d.given e s.id < s.weightAt e) || !d.svc.slices.any fun x =>
    !decide (x.1 = s.id) && decide (d.given e x.1 < x.2.weightAt e) && d.wantsEngine x.2 e

/-- A slice takes a thread of an engine, in this round or as the first of the next. -/
def Dev.takeTurn (d : Dev) (s : SliceRec) (e : Nat) : Dev :=
  let n := d.given e s.id
  let rounds := if n < s.weightAt e then tset d.svc.rounds (e, s.id) (n + 1)
    else tset (d.svc.rounds.filter fun x => !decide (x.1.1 = e)) (e, s.id) 1
  { d with svc := { d.svc with rounds := rounds } }

/-- An engine of a slice's share that runs an image, has a free thread and owes it to the slice; which one of several is the device's
choice (R132, R174). -/
def Dev.dispatch (d : Dev) (s : SliceRec) (i : Image) : Dispatch × Dev :=
  let es := (s.sharedEngines.map (·.1)).filter fun e => d.engineRuns e i
  if d.safe then (.later, d)
  else if es.isEmpty then (.lost, d)
  else
    match d.choose (es.filter fun e => decide (d.threadsOf e < if d.throttled then 4 else 8) &&
        decide (d.domState (domTmb (e / 16)) ≤ 1) && d.logicUp (e / 16) && d.hasTurn s e) with
    | (some e, d) => (.on e, d.takeTurn s e)
    | (none, d) => (.later, es.foldl (fun d e => d.wake (domTmb (e / 16))) d)

def RingRun.find (x : RingRun) (index : Nat) : Option RingOp := x.ops.find? fun o => decide (o.index = index)

/-- Replace the operation with an index. -/
def Dev.setOp (d : Dev) (s : SliceRec) (r : Nat) (o : RingOp) : Dev :=
  match d.ringRun s r with
  | some x =>
    let d := d.setRing s r { x with ops := x.ops.map fun y => if y.index = o.index then o else y }
    match o.stage.engine with
    | some e => d.showEngines (e / 16)
    | none => d
  | none => d

/-- An operation ends with a result. -/
def Dev.endOp (d : Dev) (s : SliceRec) (r : Nat) (o : RingOp) (x : OpResult) : Dev :=
  let e := o.stage.engine
  let d := d.setOp s r { o with stage := .ended, result := x }
  match e with
  | some e => d.showEngines (e / 16)
  | none => d

/-- The pool regions that an operation may use: those of its fetch, and those granted since. -/
def SliceRec.regionsFor (s : SliceRec) (o : RingOp) : List (Nat × Nat) := o.regions ++ s.regionsNow

def engineAgent (e : Nat) : Agent := .engine ⟨e % 256, Nat.mod_lt _ (by omega)⟩

/-- The bits of FLAGS that are reserved. -/
def RingOp.flagsOk (o : RingOp) : Bool := decide (field o.entry 1 1 < 4)

/-- Start an operation of an opcode on a ring: body runs it on an engine of the ring's image. It ends with BAD_PARAM where a
reserved flag is set, and with ENGINE_LOST where the share holds no engine of the image. -/
def Dev.startOp (d : Dev) (slice ring index opcode : Nat) (services : List Nat)
    (body : Dev → SliceRec → RingRun → RingOp → Nat → Dev) : Dev :=
  match d.sliceRec slice with
  | none => d
  | some s =>
    match d.ringRun s ring with
    | none => d
    | some x =>
      match x.find index with
      | none => d
      | some o =>
        if o.opcode ≠ opcode ∨ x.mayStart o = false ∨ !services.contains x.service then d
        else
          match d.dispatch s (serviceImage x.service) with
          | (.lost, d) => d.endOp s ring o (.of stEngineLost)
          | (.later, d) => d
          | (.on e, d) =>
            let d := d.count (e / 16) (if x.service = 1 then 0x4000 else 0x4003) 1
            if o.flagsOk then body d s x o e else d.endOp s ring o (.of stBadParam)

/-- NOP completes OK (Table MS-10). -/
def execNop (slice : Fin 4096) (ring : Fin 64) (index : BitVec 32) (st : State) : Host.Outcome State Fault Refusal :=
  onDev st fun d => d.startOp slice ring index.toNat 0 [1, 2] fun d s _ o e =>
    let ok := decide (field o.entry 4 60 = 0)
    let d := if ok && decide (((d.ringRun s ring).map (·.service)) = some 1) then d.count (e / 16) 0x4001 1 else d
    d.endOp s ring o (.of (if ok then stOk else stBadParam))

/-! ### Completions (R142, R145, R147, R149) -/

/-- Opcodes that a service serves (Table MS-10). -/
def serves (service opcode : Nat) : Bool :=
  if service = 1 then [0, 1, 2, 3].contains opcode
  else [0, 0x10, 0x11, 0x12, 0x13, 0x14, 0x18, 0x19, 0x1A, 0x1B].contains opcode

/-- A completion entry (Table MS-11). -/
def completionBytes (o : RingOp) : List Byte :=
  let x := o.result
  toBytes 2 o.tag ++ toBytes 1 x.status ++ toBytes 1 ((if o.retried then 1 else 0) + x.flags) ++ toBytes 4 x.info ++
    toBytes 8 x.aux ++ (x.data ++ List.replicate (16 - x.data.length) 0).take 16

/-- An operation ends, and its completion write goes to the next free slot. An opcode that the ring's service does not serve ends
here with BAD_OPCODE. -/
def execCompletionWrite (slice : Fin 4096) (ring : Fin 64) (index : BitVec 32) (st : State) : Host.Outcome State Fault Refusal :=
  onDev st fun d =>
    match d.sliceRec slice with
    | none => d
    | some s =>
      match d.ringRun s ring with
      | none => d
      | some x =>
        match x.find index.toNat with
        | none => d
        | some o =>
          let bad := !serves x.service o.opcode && x.mayStart o
          if o.stage = .ended ∨ bad then
            let o := if o.stage = .ended then o else { o with result := .of stBadOpcode }
            (d.setRing s ring { x with slotNext := next32 x.slotNext }).setOp s ring { o with stage := .written x.slotNext }
          else d

/-- CQ_PI passes every written slot in order; the SHADOW line then receives it (R142). -/
def passSlots : Nat → Nat → List (Nat × Bool × Bool) → Nat × List (Nat × Bool × Bool) × Bool
  | 0, pi, l => (pi, l, false)
  | fuel + 1, pi, l =>
    match l.find? fun x => decide (x.1 = pi) && x.2.1 with
    | some x =>
      let (pi', l', n) := passSlots fuel (next32 pi) (l.erase x)
      (pi', l', n || x.2.2)
    | none => (pi, l, false)

/-- A slot has been written: CQ_PI, SHADOW and the ring's message follow. -/
def Dev.slotDone (d : Dev) (s : SliceRec) (r : Nat) (o : RingOp) (slot : Nat) (good : Bool) : Dev :=
  match d.ringRun s r with
  | none => d
  | some x =>
    let done := x.done ++ [(slot, good, o.notify)]
    let old := d.ringReg s r .cqPi
    let (pi, left, notify) := passSlots done.length old done
    let d := d.setRing s r { x with done := left, ops := x.ops.filter fun y => !decide (y.index = o.index) }
    let d := d.setRingReg s r .cqPi pi
    let d := if pi ≠ old ∧ x.shadow ≠ 0 then
        (d.sliceWrite s s.quota.regions s.agent x.shadow (toBytes 4 pi ++ List.replicate 60 0)).2 else d
    let d := if notify then d.ringMessage s r else d
    (d.showStall s r).ringSettles s r

/-- The operation with an index whose completion write is on its way, and its slot. -/
def Dev.writtenOp (d : Dev) (slice ring index : Nat) : Option (SliceRec × RingRun × RingOp × Nat) :=
  match d.sliceRec slice with
  | none => none
  | some s =>
    match d.ringRun s ring with
    | none => none
    | some x =>
      match x.find index with
      | some o => match o.stage with
        | .written slot => some (s, x, o, slot)
        | _ => none
      | none => none

/-- A completion write fails: the ring enters ERROR with code 5, and its slot is never passed (R147). A DISABLING ring shows the
code and goes on to DISABLED, as R146 gives it (DESIGN CHOICE, log entry 47). -/
def Dev.completionFails (d : Dev) (s : SliceRec) (r : Nat) (o : RingOp) (slot : Nat) : Dev :=
  let d := if d.ringState s r = 3 then d.wr (.ring s.port s.index r .status) 24 17 5 else d.ringError s r 5
  d.slotDone s r o slot false

/-- A completion write is accepted at home and answered (R142). -/
def execCompletionWriteAccepted (slice : Fin 4096) (ring : Fin 64) (index : BitVec 32) (st : State) :
    Host.Outcome State Fault Refusal :=
  onAccess st fun d =>
    match d.writtenOp slice ring index.toNat with
    | none => d
    | some (s, x, o, slot) =>
      match d.sliceWrite s (s.regionsFor o) s.agent (x.cqBase + slot % 2 ^ x.cqLog2 * 32) (completionBytes o) with
      | (0, d) => d.slotDone s ring o slot true
      | (_, d) => d.completionFails s ring o slot

/-- A completion write is refused or reads back as poison (R147). -/
def execCompletionWriteFailed (slice : Fin 4096) (ring : Fin 64) (index : BitVec 32) (st : State) :
    Host.Outcome State Fault Refusal :=
  onAccess st fun d =>
    match d.writtenOp slice ring index.toNat with
    | some (s, _, o, slot) => d.completionFails s ring o slot
    | none => d

/-- A write of CQ_CI: ignored in DISABLED, and ignored and counted when it moves beyond CQ_PI (R143). -/
def Dev.cqCiWrite (d : Dev) (s : SliceRec) (r v : Nat) : Dev :=
  if s.quota.rings.length ≤ r ∨ d.ringState s r = 0 then d
  else
    let old := d.ringReg s r .cqCi
    if gap (d.ringReg s r .cqPi) old < gap v old then
      ({ d with svc := { d.svc with ignoredCi := d.svc.ignoredCi + 1 } }).count 36 0x9003 1
    else (d.setRingReg s r .cqCi v).showStall s r

/-- CQ_CI_WRITE. -/
def execCqCiWrite (p : Fin 64) (index : Fin 256) (ring : Fin 64) (v : BitVec 32) (st : State) :
    Host.Outcome State Fault Refusal :=
  onDev st fun d => match d.sliceAt p index with
    | some s => d.cqCiWrite s ring v.toNat
    | none => d

end Sys2Proof.Machine
end

