-- ==== Sys2Proof/Machine/Queues.lean ====
section
/-! DEFINITION. The queue service: the queue-service area, cell pools, scheduling nodes, packet queues, gate lists, enqueue and
dequeue (R157 to R167). The contents of the area's records are the device's own: every change writes open bytes there. -/

namespace Sys2Proof.Machine

/-! ### Gate lists (R164) -/

/-- Interval of a gate entry in ns, and whether it is open (Table SW-13). -/
def entryNs (e : Nat) : Nat := 4 * (e % 2 ^ 28)
def entryOpen (e : Nat) : Bool := e.testBit 28

def cycleNs (l : List Nat) : Nat := (l.map entryNs).sum

/-- The entry in force at an offset in a cycle, and the time to its end. -/
def entryAt : List Nat → Nat → Bool × Nat
  | [], _ => (true, 1)
  | e :: r, off => if off < entryNs e then (entryOpen e, entryNs e - off) else entryAt r (off - entryNs e)

/-- Where a time lies in a cycle that is counted from a base. -/
def phase (l : List Nat) (base t : Nat) : Nat := (((t : Int) - base) % (cycleNs l : Int)).toNat

/-- Whether a list is open at a time, and when the entry in force ends: a waiting bank takes force at its swap. -/
def QGate.at (g : QGate) (t : Nat) : Bool × Nat :=
  match g.next with
  | some (l, base, swap) =>
    if swap ≤ t then (let (o, n) := entryAt l (phase l base t); (o, t + n))
    else (let (o, n) := entryAt g.entries (phase g.entries g.base t); (o, min swap (t + n)))
  | none => let (o, n) := entryAt g.entries (phase g.entries g.base t); (o, t + n)

/-- Whether a list is open from a time on, for as long as fuel entries or up to another time; every entry takes force for 1 ns or more, so
that fuel beyond the time between the two looks at all of them. -/
def QGate.opensTo (g : QGate) (stop : Nat) : Nat → Nat → Bool
  | 0, _ => false
  | fuel + 1, t =>
    let (o, t') := g.at t
    o && (decide (stop ≤ t') || g.opensTo stop fuel t')

/-- Whether a list is open and stays open for a guard band (R164). -/
def QGate.opensFor (g : QGate) (need t : Nat) : Bool := g.opensTo (t + need) (need + 1) t

/-- The time from t on that a list needs to show all that it will do: its swap and one cycle after it. -/
def QGate.span (g : QGate) (t : Nat) : Nat :=
  match g.next with
  | some (l, _, swap) => (swap - t) + cycleNs g.entries + cycleNs l
  | none => cycleNs g.entries

/-- When a list is next open for a guard band, from a time on; none where it never is. -/
def QGate.nextOpen (g : QGate) (need : Nat) : Nat → Nat → Option Nat
  | 0, _ => none
  | fuel + 1, t => if g.opensFor need t then some t else g.nextOpen need fuel (g.at t).2

/-- The lengths of the open intervals of a cycle, adjacent open entries taken as one; n counts the entries still to look at. -/
def openRuns : List Nat → Nat → List Nat
  | [], run => if run = 0 then [] else [run]
  | e :: r, run => if entryOpen e then openRuns r (run + entryNs e) else if run = 0 then openRuns r 0 else run :: openRuns r 0

/-- The shortest open interval of a cycle that is not always open. -/
def shortestOpen (l : List Nat) : Option Nat :=
  match l.findIdx? fun e => !entryOpen e with
  | some i => (openRuns (l.rotate i) 0).min?
  | none => none

/-- The check of a bank's cycle (R126), and of its open intervals against a guard band (R164). -/
def bankOk (l : List Nat) : Bool := (l.all fun e => decide (0 < entryNs e)) && decide (1000 ≤ cycleNs l ∧ cycleNs l ≤ 1000000000)

def guardOk (l : List Nat) (guardNs : Nat) : Bool :=
  match shortestOpen l with
  | some n => decide (2 * guardNs ≤ n)
  | none => true

def QGate.guardOk (g : QGate) (guardNs : Nat) : Bool :=
  Machine.guardOk g.entries guardNs && match g.next with
    | some (l, _, _) => Machine.guardOk l guardNs
    | none => true

/-- A list whose swap time has come. -/
def QGate.settled (g : QGate) (now : Nat) : QGate :=
  match g.next with
  | some (l, base, swap) => if swap ≤ now then ⟨l, base, none⟩ else g
  | none => g

/-! ### Nodes and buckets (R162, R163) -/

/-- A rate in MB/s fills a bucket by that many 1/1000 B each ns. -/
def fill (rate have_ cap dt : Nat) : Nat := min cap (have_ + rate * 256 * dt)

/-- What a bucket counts as, in 1/256 B (R163). -/
def bucket (n : Nat) : Nat := n / 1000

def unlimited : Nat := 0xFFFFFFFF

/-- A node with its buckets filled to now. -/
def QNode.filled (n : QNode) (now : Nat) : QNode :=
  let pir := max n.pir n.cir
  { n with committed := fill n.cir n.committed (256000 * n.cbs) (now - n.filledAt)
           peak := fill pir n.peak (256000 * n.pbs) (now - n.filledAt), filledAt := now }

/-- Whether P and C hold a length; a rate of 0xFFFF_FFFF removes its bucket's limit. -/
def QNode.peakOk (n : QNode) (len : Nat) : Bool := decide (max n.pir n.cir = unlimited ∨ 256 * len ≤ bucket n.peak)
def QNode.green (n : QNode) (len : Nat) : Bool := decide (n.cir = unlimited ∨ 256 * len ≤ bucket n.committed)

/-- A node after sending a message: P and, where it holds the length, C give it up. -/
def QNode.spend (n : QNode) (len : Nat) : QNode :=
  { n with peak := n.peak - 256000 * len
           committed := if 256 * len ≤ bucket n.committed then n.committed - 256000 * len else n.committed }

def QService.node (q : QService) (i : Nat) : Option QNode := tget q.nodes i
def QService.setNode (q : QService) (i : Nat) (n : QNode) : QService := { q with nodes := tset q.nodes i n }
def QService.queue (q : QService) (i : Nat) : Option PQueue := tget q.queues i
def QService.setQueue (q : QService) (i : Nat) (x : PQueue) : QService := { q with queues := tset q.queues i x }

/-- The nodes from one up to its root, at most fuel of them; none where there are more. -/
def QService.upPath (q : QService) : Nat → Nat → Option (List Nat)
  | 0, _ => none
  | fuel + 1, i =>
    if i = 0xFFFF then some []
    else match q.node i with
      | some n => (q.upPath fuel n.parent).map fun l => i :: l
      | none => some []

/-- Whether every node lies at most four levels under its root, and none in a cycle (R162). -/
def QService.treeOk (q : QService) : Bool := q.nodes.all fun n => (q.upPath 6 n.1).isSome

/-- The nodes from a queue's parent up to a node, which is the last; none where the queue is not under it. -/
def QService.pathTo (q : QService) (target : Nat) : Nat → Nat → Option (List Nat)
  | 0, _ => none
  | fuel + 1, i =>
    if i = target then some [i]
    else match q.node i with
      | some n => if n.parent = 0xFFFF then none else (q.pathTo target fuel n.parent).map fun l => i :: l
      | none => none

/-- The queues below a node, with the path of each. -/
def QService.under (q : QService) (target : Nat) : List (Nat × PQueue × List Nat) :=
  q.queues.filterMap fun x => (q.pathTo target 6 x.2.node).map fun p => (x.1, x.2, p)

/-! ### Tags (R120, R121, R162) -/

/-- The finish tag of a message of a length that becomes a child's message. -/
def childTag (v last len weight : Nat) : Nat := finishTag v last len (max 1 weight)

/-- The head of a queue takes its tag when it becomes the queue's message. -/
def QService.tagHead (q : QService) (i : Nat) : QService :=
  match q.queue i with
  | some x =>
    match x.packets with
    | [] => q.setQueue i { x with tags := [] }
    | p :: _ =>
      if x.tags.any fun t => decide (t.1 = none) then q
      else
        let v := ((q.node x.node).map (·.vtime)).getD 0
        let f := childTag v x.flast p.len x.weight
        q.setQueue i { x with tags := x.tags ++ [(none, f)], flast := f }
  | none => q

/-- The head of a queue takes its tag as the message of a child node. -/
def QService.tagNode (q : QService) (i child : Nat) : QService :=
  match q.queue i, q.node child with
  | some x, some n =>
    match x.packets with
    | p :: _ =>
      if x.tags.any fun t => decide (t.1 = some child) then q
      else
        let v := ((q.node n.parent).map (·.vtime)).getD 0
        let f := childTag v n.flast p.len n.weight
        (q.setQueue i { x with tags := x.tags ++ [(some child, f)] }).setNode child { n with flast := f }
    | [] => q
  | _, _ => q

def PQueue.tagOf (x : PQueue) (k : Option Nat) : Nat := ((x.tags.find? fun t => decide (t.1 = k)).map (·.2)).getD 0

/-! ### Selection (R162 to R164) -/

/-- A candidate of a selection: a queue with its path to the target, its colour, and the key it is known by at the level where it
competes: its own, or a child node's. -/
structure Cand where
  queue : Nat
  path  : List Nat
  green : Bool
  key   : Option Nat
  f     : Nat
  deriving DecidableEq, Repr

/-- Whether a message may go through every node of a path now: gates open for the guard band, peak buckets full enough. -/
def QService.eligible (q : QService) (now len : Nat) (path : List Nat) : Bool :=
  path.all fun i => match q.node i with
    | some n => n.peakOk len && (decide (n.gate = 0xFF) || match tget q.gates n.gate with
        | some g => g.opensFor n.guardNs now
        | none => true)
    | none => false

/-- Green before yellow, then the smallest tag; on a tie a queue before a node, and the lower number (R162, R163). -/
def Cand.beats (a b : Cand) : Bool :=
  if a.green ≠ b.green then a.green
  else if a.f ≠ b.f then decide (a.f < b.f)
  else match a.key, b.key with
    | none, some _ => true
    | some _, none => false
    | none, none => decide (a.queue < b.queue)
    | some x, some y => decide (x < y)

def bestCand : List Cand → Option Cand
  | [] => none
  | c :: r => match bestCand r with
    | some b => some (if b.beats c then b else c)
    | none => some c

/-- Whether a message is green at a node and at every node above it, of a path that ends at the target (R163). -/
def QService.greenFrom (q : QService) (len node : Nat) (path : List Nat) : Bool :=
  (path.dropWhile fun i => !decide (i = node)).all fun i => ((q.node i).map fun n => n.green len).getD true

/-- The length of a queue's head packet. -/
def QService.headLen (q : QService) (i : Nat) : Nat := (((q.queue i).bind fun x => x.packets.head?).map (·.len)).getD 0

/-- The message of one node among some candidates below it, each with the rest of its path: the node's own queues compete with
the messages of its child nodes, which take their tags when they become those nodes' messages. A child node's message has the colour that
it has from that node up. fuel bounds the levels. -/
def QService.nodeMsg (q : QService) : Nat → Nat → List Cand → Option Cand × QService
  | 0, _, _ => (none, q)
  | fuel + 1, node, cs =>
    let own := (cs.filter fun c => decide (c.path.head? = some node)).map fun c =>
      { c with key := none, green := q.greenFrom (q.headLen c.queue) node c.path, f := ((q.queue c.queue).map fun x => x.tagOf none).getD 0 }
    let kids := ((cs.filterMap fun c => (c.path.takeWhile fun i => !decide (i = node)).getLast?).dedup)
    let (below, q) := kids.foldl (fun (acc : List Cand × QService) k =>
      match acc.2.nodeMsg fuel k (cs.filter fun c => decide ((c.path.takeWhile fun i => !decide (i = node)).getLast? = some k)) with
      | (some c, q) =>
        let q := q.tagNode c.queue k
        (acc.1 ++ [{ c with key := some k, green := q.greenFrom (q.headLen c.queue) k c.path, f := ((q.queue c.queue).map fun x => x.tagOf (some k)).getD 0 }], q)
      | (none, q) => (acc.1, q)) ([], q)
    (bestCand (own ++ below), q)

/-- The packet that a node's selection takes now, with its path; the nodes that it would pass are filled. It is the target's message, and
takes its tag as such where the target has a parent (R162). -/
def QService.select (q : QService) (now target : Nat) : Option (Nat × List Nat) × QService :=
  let q := { q with nodes := q.nodes.map fun (x : Nat × QNode) => (x.1, x.2.filled now) }
  let cs := (q.under target).filterMap fun (i, x, path) =>
    match x.packets with
    | p :: _ =>
      if q.eligible now p.len path then
        some (⟨i, path, true, none, 0⟩ : Cand)
      else none
    | [] => none
  match q.nodeMsg 6 target cs with
  | (some c, q) => (some (c.queue, c.path), if ((q.node target).map (·.parent)) = some 0xFFFF then q else q.tagNode c.queue target)
  | (none, q) => (none, q)

/-- A selected packet goes: every node on its path spends its length, and its V becomes the tag the packet had there. -/
def QService.spendPath (q : QService) (i len : Nat) : Option Nat → List Nat → QService
  | _, [] => q
  | k, n :: rest =>
    match q.node n, q.queue i with
    | some x, some y => (q.setNode n { x.spend len with vtime := y.tagOf k }).spendPath i len (some n) rest
    | _, _ => q

/-- The head packet of a queue leaves it, and the next becomes its message. -/
def QService.popHead (q : QService) (i : Nat) : QService :=
  match q.queue i with
  | some x => (q.setQueue i { x with packets := x.packets.drop 1, tags := [] }).tagHead i
  | none => q

/-- The time from t on within which a path shows all that it will do: when its buckets are full enough, its gates' swaps, and one period
of all its gates together. -/
def QService.horizon (q : QService) (t : Nat) (path : List Nat) : Nat :=
  let gs := path.filterMap fun i => (q.node i).bind fun n => if n.gate = 0xFF then none else tget q.gates n.gate
  (gs.map fun g => g.span t).sum + gs.foldl (fun m g => Nat.lcm m (match g.next with
    | some (l, _, _) => cycleNs l
    | none => cycleNs g.entries)) 1 + 8

/-- When a path next lets a length through, from a time on, within fuel rounds; each but the last takes 1 ns or more. -/
def QService.earliest (q : QService) (now len : Nat) (path : List Nat) : Nat → Nat → Option Nat
  | 0, _ => none
  | fuel + 1, t =>
    let t' : Option Nat := path.foldl (fun acc i =>
      match acc, q.node i with
      | some t, some n =>
        let pir := max n.pir n.cir
        let lack := 256000 * len - n.peak
        let t1 : Option Nat :=
          if pir = unlimited ∨ lack = 0 then some t
          else if pir = 0 ∨ n.pbs < len then none
          else some (max t (now + ceilDiv lack (256 * pir)))
        match t1 with
        | some t => if n.gate = 0xFF then some t else match tget q.gates n.gate with
          | some g => g.nextOpen n.guardNs (g.span t + 2) t
          | none => some t
        | none => none
      | _, _ => none) (some t)
    match t' with
    | some t' => if t' = t then some t else q.earliest now len path fuel t'
    | none => none

/-! ### The service of a slice -/

def Dev.qservice (d : Dev) (s : SliceRec) : Option QService := tget d.svc.queues s.id

def Dev.setQService (d : Dev) (s : SliceRec) (q : QService) : Dev := { d with svc := { d.svc with queues := tset d.svc.queues s.id q } }

/-- Whether the descriptor of a queue is lost with its HUB quarter (R394). -/
def Dev.descriptorLost (d : Dev) (queue : Nat) : Bool := d.hubLost (if queue < 32768 then 0 else 1)

/-- Open bytes at an offset of the queue-service area (Table MS-19). -/
def Dev.writeArea (d : Dev) (s : SliceRec) (rs : List (Nat × Nat)) (a : Agent) (q : QService) (off lines : Nat) : Nat × Dev :=
  (List.range lines).foldl (fun (acc : Nat × Dev) i =>
    if acc.1 ≠ stOk then acc
    else
      let (v, d) := acc.2.openBits 512
      d.sliceWrite s rs a (q.area + off + 64 * i) (lineBytes v)) (stOk, d)

/-- Cells return to their pool's free list. -/
def QService.freeCells (q : QService) (pool : Nat) (cells : List Nat) : QService :=
  { q with pools := tmod q.pools pool fun (p : CellPool) => { p with free := cells ++ p.free } }

def CellPool.bytes (p : CellPool) : Nat := if p.csize = 0 then 256 else if p.csize = 1 then 512 else 2048

/-- Cells that a packet takes (R159). -/
def CellPool.need (p : CellPool) (len : Nat) : Nat := 1 + ceilDiv (len - (p.bytes - 32)) p.bytes

/-- Link entries of a chain, and the entry that ends it (R158). -/
def chain : List Nat → Nat → List (Nat × Nat)
  | [], _ => []
  | [c], last => [(c, last)]
  | c :: c' :: r, last => (c, c') :: chain (c' :: r) last

def noCell : Nat := 0xFFFFFFFF

/-- Write link entries. -/
def Dev.writeLinks (d : Dev) (s : SliceRec) (rs : List (Nat × Nat)) (a : Agent) (p : CellPool) : List (Nat × Nat) → Nat × Dev
  | [] => (stOk, d)
  | (c, n) :: rest =>
    match d.sliceWrite s rs a (p.linkBase + 4 * c) (toBytes 4 n) with
    | (0, d) => d.writeLinks s rs a p rest
    | (st, d) => (st, d)

/-- Cells go back to the free list of their pool, with their links. -/
def Dev.returnCells (d : Dev) (s : SliceRec) (rs : List (Nat × Nat)) (a : Agent) (pool : Nat) (cells : List Nat) : Dev :=
  match d.qservice s with
  | some q =>
    match tget q.pools pool with
    | some p => ((d.writeLinks s rs a p (chain cells (p.free.headD noCell))).2).setQService s (q.freeCells pool cells)
    | none => d
  | none => d

/-- Drop the head packet of a queue, counted as an age drop (R161, R165). -/
def Dev.dropHead (d : Dev) (s : SliceRec) (a : Agent) (queue : Nat) : Dev :=
  match d.qservice s with
  | some q =>
    match q.queue queue with
    | some x =>
      match x.packets with
      | p :: _ =>
        let d := d.setQService s ((q.setQueue queue { x with aged := x.aged + 1 }).popHead queue)
        (d.returnCells s s.quota.regions a p.pool p.cells).count (agentTile a) 0x4006 1
      | [] => d
    | none => d
  | none => d

/-- Whether the head of a queue has exceeded its age limit (R165). -/
def PQueue.headAged (x : PQueue) (now : Nat) : Bool :=
  match x.packets with
  | p :: _ => decide (x.ageUs ≠ 0 ∧ x.ageUs * 1000 < now - p.ftime)
  | [] => false

/-- Drop the heads of a queue that have exceeded its age limit, at most fuel; how many were dropped. -/
def Dev.ageHeads (d : Dev) (s : SliceRec) (a : Agent) (queue : Nat) : Nat → Nat × Dev
  | 0 => (0, d)
  | fuel + 1 =>
    match (d.qservice s).bind fun q => q.queue queue with
    | some x =>
      if x.headAged d.now then
        let (n, d) := (d.dropHead s a queue).ageHeads s a queue fuel
        (n + 1, d)
      else (0, d)
    | none => (0, d)

/-- Age the heads of several queues. -/
def Dev.ageAll (d : Dev) (s : SliceRec) (a : Agent) (queues : List Nat) : Nat × Dev :=
  queues.foldl (fun (acc : Nat × Dev) i =>
    let n := (((acc.2.qservice s).bind fun q => q.queue i).map fun x => x.packets.length).getD 0
    let (k, d) := acc.2.ageHeads s a i n
    (acc.1 + k, d)) (0, d)

def PQueue.bytes (x : PQueue) : Nat := (x.packets.map (·.len)).sum

/-- Whether a packet would push a queue past a limit (R160). -/
def PQueue.full (x : PQueue) (len : Nat) : Bool :=
  decide ((x.maxPkts ≠ 0 ∧ x.maxPkts < x.packets.length + 1) ∨ (x.maxBytes ≠ 0 ∧ x.maxBytes < x.bytes + len))

/-! ### Meanings: setting up -/

/-- Start a queue operation that needs the service's area: BAD_PARAM until QS_INIT has succeeded (R157). -/
def Dev.startQueueOp (d : Dev) (slice ring index opcode : Nat) (body : Dev → SliceRec → RingOp → Nat → QService → Dev) : Dev :=
  d.startOp slice ring index opcode [2] fun d s _ o e =>
    match d.qservice s with
    | some q => body d s o e q
    | none => d.endOp s ring o (.of stBadParam)

/-- QS_INIT (R157). -/
def execQsInit (slice : Fin 4096) (ring : Fin 64) (index : BitVec 32) (st : State) : Host.Outcome State Fault Refusal :=
  onDev st fun d => d.startOp slice ring index.toNat 0x10 [2] fun d s _ o _ =>
    let area := field o.entry 8 8
    let status :=
      if field o.entry 4 4 ≠ 0 ∨ field o.entry 16 48 ≠ 0 then stBadParam
      else if area % 4096 ≠ 0 then stAlignment
      else if !inRegions s.regionsNow area (272 * 1024) then stAccess
      else match d.qservice s with
        | some q => if q.pools.isEmpty && q.nodes.isEmpty && q.queues.isEmpty then stOk else stBusyObject
        | none => stOk
    let d := if status = stOk then d.setQService s ⟨area, [], [], [], []⟩ else d
    d.endOp s ring o (.of status)

/-- Whether any cell of a pool holds a packet: a queued one, or one being copied into the pool or out of it. The cells of queues whose
descriptor is lost count as free (R158, R394). -/
def Dev.poolUsed (d : Dev) (s : SliceRec) (q : QService) (pool : Nat) : Bool :=
  (q.queues.any fun x => (x.2.packets.any fun p => decide (p.pool = pool)) && !d.descriptorLost x.1) ||
    d.svc.rings.any fun r => decide (r.1.1 = s.id) && r.2.ops.any fun o => match o.stage with
      | .copyingIn _ k _ => decide (k = pool)
      | .copyingOut _ _ p => decide (p.pool = pool)
      | _ => false

/-- CELL_POOL (R158); deleting a pool that is not defined is BAD_PARAM (Table MS-13): the free list of a new pool is built in its link array, in an order that is the device's. -/
def execCellPool (slice : Fin 4096) (ring : Fin 64) (index : BitVec 32) (st : State) : Host.Outcome State Fault Refusal :=
  onAccess st fun d => d.startQueueOp slice ring index.toNat 0x11 fun d s o e q =>
    let pool := field o.entry 4 1
    let csize := field o.entry 5 1
    let cells := field o.entry 8 8
    let links := field o.entry 16 8
    let n := field o.entry 24 4
    let a := engineAgent e
    let rs := s.regionsFor o
    if 16 ≤ pool ∨ 3 ≤ csize ∨ field o.entry 6 2 ≠ 0 ∨ field o.entry 28 36 ≠ 0 ∨ (n ≠ 0 ∧ (n < 64 ∨ 16777216 < n)) ∨
        (n = 0 ∧ (tget q.pools pool).isNone) then
      d.endOp s ring o (.of stBadParam)
    else if cells % 4096 ≠ 0 ∨ links % 64 ≠ 0 then d.endOp s ring o (.of stAlignment)
    else if d.poolUsed s q pool then d.endOp s ring o (.of stBusyObject)
    else if n = 0 then
      let (c, d) := d.writeArea s rs a q (0x42000 + 64 * pool) 1
      let d := if c = stOk then d.setQService s { q with pools := tdel q.pools pool } else d
      d.endOp s ring o (.of c)
    else
      let (k, d) := d.openNat
      let free := (List.range n).rotate k
      let p : CellPool := ⟨csize, cells, links, n, free⟩
      if !inRegions rs cells (n * p.bytes) || !inRegions rs links (4 * n) then d.endOp s ring o (.of stAccess)
      else
        match d.writeLinks s rs a p (chain free noCell) with
        | (0, d) =>
          let (c, d) := d.writeArea s rs a q (0x42000 + 64 * pool) 1
          let d := if c = stOk then d.setQService s { q with pools := tset q.pools pool p } else d
          d.endOp s ring o (.of c)
        | (c, d) => d.endOp s ring o (.of c)

/-- Whether any queue at or below a node holds a packet. -/
def QService.holdsBelow (q : QService) (node : Nat) : Bool := (q.under node).any fun x => !x.2.1.packets.isEmpty

/-- NODE_SET (R162 to R164, R167). -/
def execNodeSet (slice : Fin 4096) (ring : Fin 64) (index : BitVec 32) (st : State) : Host.Outcome State Fault Refusal :=
  onAccess st fun d => d.startQueueOp slice ring index.toNat 0x12 fun d s o e q =>
    let b := o.entry
    let i := field b 4 2
    let parent := field b 6 2
    let gate := field b 10 1
    let on := decide (field b 11 1 = 1)
    let guardNs := field b 12 4
    let old := q.node i
    let rangeOk := decide (i < 4096 ∧ (parent = 0xFFFF ∨ parent < 4096) ∧ (gate < 16 ∨ gate = 0xFF) ∧ field b 11 1 ≤ 1 ∧
      guardNs ≤ 1000000 ∧ 16384 ≤ field b 24 4 ∧ 16384 ≤ field b 28 4 ∧ field b 32 32 = 0)
    let gateOk := decide (gate = 0xFF) || match tget q.gates gate with
      | some g => g.guardOk guardNs
      | none => false
    if !rangeOk || (!on && old.isNone) || (on && (!gateOk || (decide (parent ≠ 0xFFFF) && (q.node parent).isNone))) then
      d.endOp s ring o (.of stBadParam)
    else
      let moves := match old with
        | some n => !on || decide (n.parent ≠ parent)
        | none => false
      if moves && q.holdsBelow i then d.endOp s ring o (.of stBusyObject)
      else
        let cbs := field b 24 4
        let pbs := field b 28 4
        let fresh : QNode := ⟨parent, field b 8 2, gate, guardNs, field b 16 4, field b 20 4, cbs, pbs, 256000 * cbs, 256000 * pbs, d.now, 0, 0⟩
        let n : QNode := match old with
          | some x =>
            let x := x.filled d.now
            { fresh with committed := min x.committed (256000 * cbs), peak := min x.peak (256000 * pbs), vtime := x.vtime, flast := x.flast }
          | none => fresh
        let q' := if on then q.setNode i n else { q with nodes := tdel q.nodes i }
        if !q'.treeOk then d.endOp s ring o (.of stBadParam)
        else
          let (c, d) := d.writeArea s (s.regionsFor o) (engineAgent e) q (64 * i) 1
          let d := if c = stOk then d.setQService s q' else d
          d.endOp s ring o (.of c)

/-- QUEUE_SET (R167, R394). -/
def execQueueSet (slice : Fin 4096) (ring : Fin 64) (index : BitVec 32) (st : State) : Host.Outcome State Fault Refusal :=
  onDev st fun d => d.startQueueOp slice ring index.toNat 0x13 fun d s o _ q =>
    let b := o.entry
    let i := field b 4 4
    let node := field b 8 2
    let pool := field b 12 1
    let on := decide (field b 13 1 = 1)
    let old := q.queue i
    if 65536 ≤ i ∨ 16 ≤ pool ∨ 1 < field b 13 1 ∨ field b 14 2 ≠ 0 ∨ 1000000 < field b 16 4 ∨ field b 32 32 ≠ 0 then
      d.endOp s ring o (.of stBadParam)
    else if !s.quota.hasQueue i || (on && !s.openQueue i) then d.endOp s ring o (.of stAccess)
    else if d.descriptorLost i then
      if !on && old.isSome then (d.setQService s { q with queues := tdel q.queues i }).endOp s ring o (.of stOk)
      else d.endOp s ring o (.of stPoison)
    else if (!on && old.isNone) || (on && ((q.node node).isNone || (tget q.pools pool).isNone)) then
      d.endOp s ring o (.of stBadParam)
    else
      let moves := match old with
        | some x => !on || decide (x.node ≠ node ∨ x.pool ≠ pool)
        | none => false
      let busy := ((old.map fun x => !x.packets.isEmpty).getD false)
      if moves && busy then d.endOp s ring o (.of stBusyObject)
      else
        let q := match on, old with
          | false, _ => { q with queues := tdel q.queues i }
          | true, some x => q.setQueue i
              { x with node := node, weight := field b 10 2, pool := pool, ageUs := field b 16 4, maxPkts := field b 20 4
                       maxBytes := field b 24 8 }
          | true, none => q.setQueue i ⟨node, field b 10 2, pool, field b 16 4, field b 20 4, field b 24 8, [], 0, 0, 0, []⟩
        (d.setQService s q).endOp s ring o (.of stOk)

/-- GATE_SET (R164): the new bank is checked; it takes force at the next cycle start of the one in force, or at once where there
is none. -/
def execGateSet (slice : Fin 4096) (ring : Fin 64) (index : BitVec 32) (st : State) : Host.Outcome State Fault Refusal :=
  onAccess st fun d => d.startQueueOp slice ring index.toNat 0x14 fun d s o e q =>
    let b := o.entry
    let i := field b 4 1
    let len := field b 5 1
    let rs := s.regionsFor o
    let a := engineAgent e
    if 16 ≤ i ∨ 64 ≤ len ∨ field b 6 2 ≠ 0 ∨ field b 24 40 ≠ 0 then d.endOp s ring o (.of stBadParam)
    else if field b 8 8 % 64 ≠ 0 then d.endOp s ring o (.of stAlignment)
    else
      match d.sliceRead s rs a (field b 8 8) (4 * (len + 1)) with
      | (.error c, d) => d.endOp s ring o (.of c)
      | (.ok bytes, d) =>
        let l := (List.range (len + 1)).map fun k => field bytes (4 * k) 4
        let users := q.nodes.filter fun n => decide (n.2.gate = i)
        if !bankOk l || !(users.all fun n => guardOk l n.2.guardNs) then d.endOp s ring o (.of stBadParam)
        else
          let (c, d) := d.writeArea s rs a q (0x40000 + 512 * i) 8
          let base := field b 16 8
          let g : QGate := match tget q.gates i with
            | some g =>
              let g := g.settled d.now
              let left := cycleNs g.entries - phase g.entries g.base d.now
              { g with next := some (l, base, d.now + left) }
            | none => ⟨l, base, none⟩
          let d := if c = stOk then d.setQService s { q with gates := tset q.gates i g } else d
          d.endOp s ring o (.of c)

/-! ### Meanings: enqueue -/

/-- Write a packet's data into its cells: the first cell after its header, the others from their start (R159). -/
def Dev.writeCells (d : Dev) (s : SliceRec) (rs : List (Nat × Nat)) (a : Agent) (p : CellPool) : List Nat → Nat → List Byte → Nat × Dev
  | [], _, _ => (stOk, d)
  | c :: rest, off, b =>
    let here := b.take (p.bytes - off)
    if here.isEmpty then (stOk, d)
    else match d.sliceWrite s rs a (p.cellBase + c * p.bytes + off) here with
      | (0, d) => d.writeCells s rs a p rest 0 (b.drop (p.bytes - off))
      | (st, d) => (st, d)

/-- A packet header (Table MS-20). -/
def packetHeader (next len cells ftime : Nat) (info : List Byte) : List Byte :=
  toBytes 4 next ++ toBytes 2 len ++ toBytes 2 cells ++ toBytes 8 ftime ++ (info ++ List.replicate 16 0).take 16

/-- An ENQUEUE that is refused: counted where limits or cells are the reason. -/
def Dev.refuseEnqueue (d : Dev) (s : SliceRec) (ring : Nat) (o : RingOp) (queue status : Nat) : Dev :=
  let d := match d.qservice s with
    | some q => match q.queue queue with
      | some x => d.setQService s (q.setQueue queue { x with refused := x.refused + 1 })
      | none => d
    | none => d
  d.endOp s ring o (.of status)

/-- The first three steps of ENQUEUE (R160): limits, cells, copy. -/
def Dev.enqueue (d : Dev) (s : SliceRec) (ring : Nat) (o : RingOp) (e : Nat) (q : QService) : Dev :=
  let b := o.entry
  let i := field b 4 4
  let len := field b 16 2
  let a := engineAgent e
  let rs := s.regionsFor o
  let stop (d : Dev) (c : Nat) : Dev := d.endOp s ring o (.of c)
  if 65536 ≤ i ∨ len < 1 ∨ 16384 < len ∨ field b 18 6 ≠ 0 ∨ field b 40 24 ≠ 0 then stop d stBadParam
  else if field b 8 8 % 64 ≠ 0 then stop d stAlignment
  else if !s.openQueue i then stop d stAccess
  else if d.descriptorLost i then stop d stPoison
  else
    match q.queue i with
    | none => stop d stBadParam
    | some x =>
      match tget q.pools x.pool with
      | none => stop d stBadParam
      | some p =>
        if x.full len then d.refuseEnqueue s ring o i stQueueFull
        else if p.free.length < p.need len then d.refuseEnqueue s ring o i stNoCells
        else
          let cells := p.free.take (p.need len)
          let d := d.setQService s { q with pools := tset q.pools x.pool { p with free := p.free.drop (p.need len) } }
          let back (d : Dev) (c : Nat) : Dev := stop (d.returnCells s rs a x.pool cells) c
          match d.sliceRead s rs a (field b 8 8) len with
          | (.error c, d) => back d c
          | (.ok data, d) =>
            match d.writeLinks s rs a p (chain cells noCell) with
            | (0, d) =>
              match d.writeCells s rs a p cells 32 data with
              | (0, d) => d.setOp s ring { o with stage := .copyingIn e x.pool cells }
              | (c, d) => back d c
            | (c, d) => back d c

/-- ENQUEUE up to its commit (R160). -/
def execEnqueue (slice : Fin 4096) (ring : Fin 64) (index : BitVec 32) (st : State) : Host.Outcome State Fault Refusal :=
  onAccess st fun d => d.startQueueOp slice ring index.toNat 0x18 fun d s o e q => d.enqueue s ring o e q

/-- The operation with an index, with its slice and its slice's queue service. -/
def Dev.queueOp (d : Dev) (slice ring index : Nat) : Option (SliceRec × RingRun × RingOp × QService) :=
  match d.sliceRec slice with
  | none => none
  | some s =>
    match d.ringRun s ring, d.qservice s with
    | some x, some q => (x.find index).map fun o => (s, x, o, q)
    | _, _ => none

/-- The commit of an ENQUEUE: limits checked again, the header written, the packet linked at the tail and stamped (R160). It waits
for an earlier one of the ring on the same queue (R166). One whose queue has been deleted, or takes its cells from another pool, since its
cells were taken ends with BAD_PARAM, and they return (DESIGN CHOICE, log entry 48). -/
def execEnqueueCommit (slice : Fin 4096) (ring : Fin 64) (index : BitVec 32) (st : State) : Host.Outcome State Fault Refusal :=
  onAccess st fun d =>
    match d.queueOp slice ring index.toNat with
    | none => d
    | some (s, x, o, q) =>
      match o.stage with
      | .copyingIn e pool cells =>
        let b := o.entry
        let i := field b 4 4
        let len := field b 16 2
        let a := engineAgent e
        let rs := s.regionsFor o
        let back (d : Dev) : Dev := d.returnCells s rs a pool cells
        if x.objectBusy o then d
        else
          match (q.queue i).filter fun y => decide (y.pool = pool) with
          | none => (back d).endOp s ring o (.of stBadParam)
          | some y =>
            match tget q.pools pool with
            | none => d.endOp s ring o (.of stBadParam)
            | some p =>
              if d.descriptorLost i then (back d).endOp s ring o (.of stPoison)
              else if y.full len then (back d).refuseEnqueue s ring o i stQueueFull
              else
                let now := d.now
                let info := Machine.slice b 24 16
                match d.sliceWrite s rs a (p.cellBase + cells.headD 0 * p.bytes) (packetHeader noCell len cells.length now info) with
                | (0, d) =>
                  let tail := (y.packets.getLast?.map fun t => t.cells.headD 0)
                  let (c, d) := match tail with
                    | some t => d.sliceWrite s rs a (p.cellBase + t * p.bytes) (toBytes 4 (cells.headD 0))
                    | none => (stOk, d)
                  if c ≠ stOk then (back d).endOp s ring o (.of c)
                  else
                    let pk : Packet := ⟨pool, cells, len, now, info⟩
                    let q := (q.setQueue i { y with packets := y.packets ++ [pk] }).tagHead i
                    (d.setQService s q).endOp s ring o ⟨stOk, 0, y.packets.length + 1, now, []⟩
                | (c, d) => (back d).endOp s ring o (.of c)
      | _ => d

/-! ### Meanings: dequeue -/

/-- What a DEQUEUE that finds no packet answers: EMPTY, or NOT_ELIGIBLE with the ns until the earliest instant. -/
def Dev.noPacket (d : Dev) (q : QService) (target aged : Nat) : OpResult :=
  let heads := (q.under target).filterMap fun x => x.2.1.packets.head?.map fun p => (p.len, x.2.2)
  if heads.isEmpty then ⟨stEmpty, 0, aged * 2 ^ 16, 0, []⟩
  else
    let now := d.now
    let waits := heads.filterMap fun h => q.earliest now h.1 h.2 (q.horizon now h.2) now
    let ns := match waits.min? with
      | some t => min (2 ^ 64 - 1) (t - now)
      | none => 2 ^ 64 - 1
    ⟨stNotEligible, 0, aged * 2 ^ 16, ns, []⟩

/-- A packet is unlinked, which commits the DEQUEUE, and its copy starts (R161). -/
def Dev.takePacket (d : Dev) (s : SliceRec) (ring : Nat) (o : RingOp) (e queue aged : Nat) (path : List Nat) : Dev :=
  match d.qservice s with
  | none => d
  | some q =>
    match q.queue queue with
    | some x =>
      match x.packets with
      | p :: _ =>
        let q := (q.spendPath queue p.len none path).popHead queue
        let buflen := field o.entry 16 2
        let res : OpResult :=
          ⟨stOk, if buflen < p.len then 2 else 0, queue + aged * 2 ^ 16, p.len + (d.now - p.ftime) % 2 ^ 48 * 2 ^ 16, p.info⟩
        (d.setQService s q).setOp s ring { o with stage := .copyingOut e queue p, result := res }
      | [] => d.endOp s ring o ⟨stEmpty, 0, aged * 2 ^ 16, 0, []⟩
    | none => d.endOp s ring o (.of stBadParam)

/-- DEQUEUE: selection and commit (R161 to R165). -/
def Dev.dequeue (d : Dev) (s : SliceRec) (ring : Nat) (o : RingOp) (e : Nat) (q : QService) : Dev :=
  let b := o.entry
  let target := field b 4 4
  let i := target % 65536
  let node := target.testBit 31
  let buflen := field b 16 2
  let a := engineAgent e
  let stop (d : Dev) (c : Nat) : Dev := d.endOp s ring o (.of c)
  if target / 65536 % 32768 ≠ 0 ∨ buflen % 64 ≠ 0 ∨ buflen < 64 ∨ 16384 < buflen ∨ field b 18 46 ≠ 0 ∨ (node ∧ 4096 ≤ i) then
    stop d stBadParam
  else if field b 8 8 % 64 ≠ 0 then stop d stAlignment
  else if !node then
    if !s.quota.hasQueue i then stop d stAccess
    else if d.descriptorLost i then stop d stPoison
    else if (q.queue i).isNone then stop d stBadParam
    else
      let (aged, d) := d.ageAll s a [i]
      d.takePacket s ring o e i (min 65535 aged) []
  else if (q.node i).isNone then stop d stBadParam
  else
    let queues := ((q.under i).map (·.1))
    if queues.any fun n => d.descriptorLost n then stop d stPoison
    else
      let (aged, d) := d.ageAll s a queues
      let aged := min 65535 aged
      match (d.qservice s).map fun q => q.select d.now i with
      | some (some (queue, path), q) => (d.setQService s q).takePacket s ring o e queue aged path
      | some (none, q) => (d.setQService s q).endOp s ring o (d.noPacket q i aged)
      | none => stop d stBadParam

/-- DEQUEUE up to its copy (R161). -/
def execDequeue (slice : Fin 4096) (ring : Fin 64) (index : BitVec 32) (st : State) : Host.Outcome State Fault Refusal :=
  onAccess st fun d => d.startQueueOp slice ring index.toNat 0x19 fun d s o e q => d.dequeue s ring o e q

/-- Read n bytes of a packet from its cells. -/
def Dev.readCells (d : Dev) (s : SliceRec) (rs : List (Nat × Nat)) (a : Agent) (p : CellPool) :
    List Nat → Nat → Nat → Except Nat (List Byte) × Dev
  | [], _, _ => (.ok [], d)
  | c :: rest, off, n =>
    let here := min n (p.bytes - off)
    if here = 0 then (.ok [], d)
    else match d.sliceRead s rs a (p.cellBase + c * p.bytes + off) here with
      | (.error st, d) => (.error st, d)
      | (.ok b, d) =>
        match d.readCells s rs a p rest 0 (n - here) with
        | (.ok r, d) => (.ok (b ++ r), d)
        | (.error st, d) => (.error st, d)

/-- Bytes to a whole number of lines; the bytes beyond them are indeterminate (R161). -/
def Dev.padLine (d : Dev) (b : List Byte) : List Byte × Dev :=
  let extra := (64 - b.length % 64) % 64
  let (v, d) := d.openBits 512
  (b ++ (lineBytes v).take extra, d)

/-- The copy of a DEQUEUE ends: min(LEN, BUFLEN) bytes are at DST in whole lines, and the cells return. A copy that fails loses the
packet, which counts as an age drop of its queue (R161). -/
def Dev.copyOut (d : Dev) (s : SliceRec) (ring : Nat) (o : RingOp) (e queue : Nat) (pk : Packet) : Dev :=
  let a := engineAgent e
  let rs := s.regionsFor o
  match (d.qservice s).bind fun q => tget q.pools pk.pool with
  | none => d.endOp s ring o (.of stBadParam)
  | some p =>
    let lost (d : Dev) (c : Nat) : Dev :=
      let d := d.returnCells s rs a pk.pool pk.cells
      let d := match d.qservice s with
        | some q => match q.queue queue with
          | some x => d.setQService s (q.setQueue queue { x with aged := x.aged + 1 })
          | none => d
        | none => d
      (d.count (e / 16) 0x4006 1).endOp s ring o { o.result with status := c, flags := 0, aux := 0, data := [] }
    match d.readCells s rs a p pk.cells 32 (min pk.len (field o.entry 16 2)) with
    | (.error c, d) => lost d c
    | (.ok b, d) =>
      let (b, d) := d.padLine b
      match d.sliceWrite s rs a (field o.entry 8 8) b with
      | (0, d) => (d.returnCells s rs a pk.pool pk.cells).endOp s ring o o.result
      | (c, d) => lost d c

/-- The copy of a dequeued packet has completed (R161). -/
def execDequeueCopyDone (slice : Fin 4096) (ring : Fin 64) (index : BitVec 32) (st : State) :
    Host.Outcome State Fault Refusal :=
  onAccess st fun d =>
    match d.queueOp slice ring index.toNat with
    | some (s, _, o, _) => match o.stage with
      | .copyingOut e queue p => d.copyOut s ring o e queue p
      | _ => d
    | none => d

/-! ### Meanings: query, flush, ageing -/

/-- The checks of an operation that names a queue alone. -/
def Dev.namedQueue (d : Dev) (s : SliceRec) (o : RingOp) (q : QService) : Except Nat (Nat × PQueue) :=
  let i := field o.entry 4 4
  if 65536 ≤ i ∨ field o.entry 8 56 ≠ 0 then .error stBadParam
  else if !s.quota.hasQueue i then .error stAccess
  else if d.descriptorLost i then .error stPoison
  else match q.queue i with
    | some x => .ok (i, x)
    | none => .error stBadParam

/-- QUEUE_QUERY (Table MS-12). -/
def execQueueQuery (slice : Fin 4096) (ring : Fin 64) (index : BitVec 32) (st : State) : Host.Outcome State Fault Refusal :=
  onDev st fun d => d.startQueueOp slice ring index.toNat 0x1A fun d s o _ q =>
    match d.namedQueue s o q with
    | .error c => d.endOp s ring o (.of c)
    | .ok (_, x) => d.endOp s ring o ⟨stOk, 0, x.packets.length, x.bytes, toBytes 8 x.aged ++ toBytes 8 x.refused⟩

/-- Drop every packet of a queue; each counts as an age drop (R167). -/
def Dev.flushQueue (d : Dev) (s : SliceRec) (a : Agent) (queue : Nat) : Dev :=
  let n := (((d.qservice s).bind fun q => q.queue queue).map fun x => x.packets.length).getD 0
  (List.range n).foldl (fun d _ => d.dropHead s a queue) d

/-- QUEUE_FLUSH (R167). -/
def execQueueFlush (slice : Fin 4096) (ring : Fin 64) (index : BitVec 32) (st : State) : Host.Outcome State Fault Refusal :=
  onAccess st fun d => d.startQueueOp slice ring index.toNat 0x1B fun d s o e q =>
    match d.namedQueue s o q with
    | .error c => d.endOp s ring o (.of c)
    | .ok (i, x) => (d.flushQueue s (engineAgent e) i).endOp s ring o ⟨stOk, 0, x.packets.length, x.bytes, []⟩

/-- An engine of a slice's share visits a queue and drops the heads past their age limit (R165). -/
def execQueueAgeVisit (slice : Fin 4096) (queue : BitVec 16) (st : State) : Host.Outcome State Fault Refusal :=
  onAccess st fun d =>
    match d.sliceRec slice with
    | none => d
    | some s =>
      if d.descriptorLost queue.toNat then d
      else
        match d.choose ((s.sharedEngines.map (·.1)).filter fun e => d.engineRuns e .queue) with
        | (some e, d) => (d.ageAll s (engineAgent e) [queue.toNat]).2
        | (none, d) => d

/-! ### Meaning: an interrupted operation (R134) -/

/-- Whether an engine no longer carries on its operations: retired, under its targeted self-test, or its Tambour without power. -/
def Dev.engineOut (d : Dev) (e : Nat) : Bool :=
  (d.engine e).retired || d.engineTested e || decide (d.domState (domTmb (e / 16)) = 4) || !d.logicUp (e / 16)

/-- An interrupted operation goes on from its last commit point on another engine of the share with the same image, or ends with
ENGINE_LOST (R134). -/
def Dev.reexecute (d : Dev) (slice ring index : Nat) : Dev :=
  match d.queueOp slice ring index with
  | none => d
  | some (s, _, o, _) =>
    match o.stage.engine with
    | none => d
    | some old =>
      if !d.engineOut old then d
      else
        let a := s.agent
        match d.dispatch s .queue with
        | (.later, d) => d
        | (.lost, d) =>
          match o.stage with
          | .copyingIn _ pool cells =>
            (d.returnCells s (s.regionsFor o) a pool cells).endOp s ring o (.of stEngineLost)
          | .copyingOut _ i p =>
            let d := d.returnCells s (s.regionsFor o) a p.pool p.cells
            let d := match d.qservice s with
              | some q => match q.queue i with
                | some x => d.setQService s (q.setQueue i { x with aged := x.aged + 1 })
                | none => d
              | none => d
            d.endOp s ring o (.of stEngineLost)
          | _ => d
        | (.on e, d) =>
          let d := d.count (e / 16) 0x4005 1
          match o.stage with
          | .copyingIn _ pool cells =>
            let d := d.returnCells s (s.regionsFor o) a pool cells
            match d.qservice s with
            | some q => (d.enqueue s ring { o with stage := .waiting, retried := true } e q).showEngines (old / 16)
            | none => d
          | .copyingOut _ i p =>
            (d.setOp s ring { o with stage := .copyingOut e i p, retried := true }).showEngines (old / 16)
          | _ => d

def execEngineLostReexecute (slice : Fin 4096) (ring : Fin 64) (index : BitVec 32) (st : State) :
    Host.Outcome State Fault Refusal :=
  onAccess st fun d => d.reexecute slice ring index.toNat

end Sys2Proof.Machine
end

