-- ==== Sys2Proof/Machine/SliceCmds.lean ====
section
/-! DEFINITION. Slice commands: creating, resizing, destroying and querying slices, drains, engines and their images, and what a
Function Level Reset or the removal of a host does to slices (R169 to R176, R296, R392). -/

namespace Sys2Proof.Machine

def opSliceCreate : Nat := 0xC020
def opSliceResize : Nat := 0xC021
def opSliceDestroy : Nat := 0xC022
def opSliceQuery : Nat := 0xC023
def opEngineAssign : Nat := 0xC024

/-! ### The quota structure (Table MG-9a) -/

/-- A quota as a command names it: how many rings and channels, and the rest of the quota. -/
structure QuotaReq where
  rings     : Nat
  channels  : Nat
  engines   : List (Nat × Nat)
  queueBase : Nat
  queues    : Nat
  regions   : List (Nat × Nat)
  msixBase  : Nat
  msixCount : Nat
  deriving DecidableEq, Repr

/-- The quota of a command's 208 bytes; regions are page ranges. -/
def quotaOf (b : List Byte) : QuotaReq :=
  { rings := field b 0 1, channels := field b 1 1
    regions := (List.range (field b 2 1)).map fun i => (field b (16 + 16 * i) 8 / 4096, field b (24 + 16 * i) 8 / 4096)
    engines := (List.range (field b 3 1)).map fun i => (field b (144 + 4 * i) 2, field b (146 + 4 * i) 1)
    queueBase := field b 4 2, queues := field b 8 4, msixBase := field b 12 2, msixCount := field b 14 2 }

/-- Ranges and reserved bytes of Table MG-9a; one engine has one entry. -/
def quotaForm (b : List Byte) : Bool :=
  let q := quotaOf b
  decide (q.rings ≤ 64 ∧ q.channels ≤ 4 ∧ field b 2 1 ≤ 8 ∧ field b 3 1 ≤ 16 ∧ field b 6 2 = 0 ∧ q.queues ≤ 65536 ∧
    q.queueBase + q.queues ≤ 65536 ∧ q.msixBase ≤ 2047 ∧ q.msixCount ≤ 2048 ∧ q.msixBase + q.msixCount ≤ 2048) &&
  ((List.range 8).all fun i =>
    let lo := field b (16 + 16 * i) 8
    let hi := field b (24 + 16 * i) 8
    if i < field b 2 1 then decide (lo % 4096 = 0 ∧ hi % 4096 = 0 ∧ lo ≤ hi) else decide (lo = 0 ∧ hi = 0)) &&
  ((List.range 16).all fun i =>
    if i < field b 3 1 then
      decide (field b (144 + 4 * i) 2 < 256 ∧ 1 ≤ field b (146 + 4 * i) 1 ∧ field b (146 + 4 * i) 1 ≤ 16 ∧ field b (147 + 4 * i) 1 = 0)
    else decide (field b (144 + 4 * i) 4 = 0)) &&
  decide ((q.engines.map (·.1)).Nodup)

/-- A quota in the bytes of Table MG-9a. -/
def Quota.bytes (q : Quota) : List Byte :=
  toBytes 1 q.rings.length ++ toBytes 1 q.channels.length ++ toBytes 1 q.regions.length ++ toBytes 1 q.engines.length ++
    toBytes 2 q.queueBase ++ toBytes 2 0 ++ toBytes 4 q.queues ++ toBytes 2 q.msixBase ++ toBytes 2 q.msixCount ++
    ((List.range 8).flatMap fun i => match q.regions[i]? with
      | some (a, b) => toBytes 8 (a * 4096) ++ toBytes 8 (b * 4096)
      | none => toBytes 16 0) ++
    ((List.range 16).flatMap fun i => match q.engines[i]? with
      | some (e, w) => toBytes 2 e ++ toBytes 1 w ++ toBytes 1 0
      | none => toBytes 4 0)

def Quota.zero : Quota :=
  { rings := [], channels := [], engines := [], queueBase := 0, queues := 0, regions := [], msixBase := 0, msixCount := 0 }

/-! ### Checks of a quota (R172, R173, R296) -/

/-- Every slice's record. -/
def Dev.allSlices (d : Dev) : List SliceRec := d.svc.slices.map (·.2)

/-- Whether a range of pages is granted anew: no old region is the same. -/
def Dev.regionOk (d : Dev) (p : Nat) (old : List (Nat × Nat)) (r : Nat × Nat) : Bool :=
  match tget d.pool.windows p with
  | none => false
  | some (base, r0, r1) =>
    let lo := r.1 / 16384
    let hi := r.2 / 16384
    decide (r0 ≤ lo ∧ hi < r0 + r1) &&
      (old.contains r || (List.range (hi + 1 - lo)).all fun i => (d.slotEntry (base + lo + i)).valid)

/-- R173: regions lie in DC region 1, are mapped when granted, and do not overlap. -/
def Dev.regionsOk (d : Dev) (p : Nat) (old rs : List (Nat × Nat)) : Bool :=
  (rs.all fun r => d.regionOk p old r) &&
    (List.range rs.length).all fun i => (List.range i).all fun j =>
      match rs[i]?, rs[j]? with
      | some a, some b => decide (a.2 < b.1 ∨ b.2 < a.1)
      | _, _ => true

/-- An engine that a share may name: not a coherence-assist engine, with an image. -/
def Dev.engineOk (d : Dev) (e : Nat) : Bool :=
  decide ((d.engine e).image = .lookup ∨ (d.engine e).image = .queue) && !decide (d.assistEngine (e / 16) = some e)

def Dev.budget (d : Dev) (p : Nat) : Budget :=
  match d.mgmt.bcb.bind fun b => b.ports.find? fun x => decide (x.1 = p) with
  | some x => x.2.budget
  | none => ⟨0, 0, 0, 0, 0⟩

/-- Whether a host's other slices and a quota together exceed the host's budget. -/
def Dev.overBudget (d : Dev) (p id : Nat) (q : QuotaReq) : Bool :=
  let b := d.budget p
  let others := ((d.slicesOf p).filter fun s => !decide (s.id = id)).map (·.quota)
  let sum (f : Quota → Nat) : Nat := (others.map f).sum
  decide (b.shares < sum (·.engines.length) + q.engines.length ∨ b.channels < sum (·.channels.length) + q.channels ∨
    b.rings < sum (·.rings.length) + q.rings ∨ b.queues < sum (·.queues) + q.queues ∨
    b.vectors < sum (·.msixCount) + q.msixCount)

/-- Whether a queue range meets that of another slice. -/
def Dev.queuesTaken (d : Dev) (id : Nat) (q : QuotaReq) : Bool :=
  d.allSlices.any fun s => !decide (s.id = id) &&
    decide (max s.quota.queueBase q.queueBase < min (s.quota.queueBase + s.quota.queues) (q.queueBase + q.queues))

/-- A number below a bound that is not in use, counting up from k with wrap. -/
def freshFrom (bound : Nat) (used : List Nat) : Nat → Nat → Option Nat
  | 0, _ => none
  | fuel + 1, k => if used.contains (k % bound) then freshFrom bound used fuel (k + 1) else some (k % bound)

/-- A number below a bound that the device chooses among those not in use. -/
def Dev.freshNumber (d : Dev) (bound : Nat) (used : List Nat) : Option Nat × Dev :=
  let (k, d) := d.openNat
  (freshFrom bound used (min bound (used.length + 1)) k, d)

/-- Ring IDs that the device chooses for n more rings: the device has 4,096 ring pairs (R3, R168). -/
def Dev.freshRings (d : Dev) : Nat → List Nat → Option (List Nat) × Dev
  | 0, _ => (some [], d)
  | n + 1, used =>
    match d.freshNumber 4096 used with
    | (some r, d) =>
      match d.freshRings n (r :: used) with
      | (some l, d) => (some (r :: l), d)
      | (none, d) => (none, d)
    | (none, d) => (none, d)

/-- Free channels that the device chooses. -/
def Dev.freshChannels (d : Dev) : Nat → List Nat → Option (List (Option Nat)) × Dev
  | 0, _ => (some [], d)
  | n + 1, taken =>
    match d.choose (d.freeChannels.filter fun c => !taken.contains c) with
    | (some c, d) =>
      match d.freshChannels n (c :: taken) with
      | (some l, d) => (some (some c :: l), d)
      | (none, d) => (none, d)
    | (none, d) => (none, d)

/-- In RMA firmware gives no slice a pool region (R348). -/
def Dev.regionsBarred (d : Dev) (q : QuotaReq) : Bool := decide (d.sec.otp.lifecycle = 3) && !q.regions.isEmpty

/-! ### Creating (R169 to R171, R296) -/

/-- Fields of the slice commands before the quota. -/
def sliceHead (path : Path) (input : List Byte) (n : Nat) : Bool :=
  decide (input.length = n ∧ field input 1 3 = 0 ∧ field input 4 4 < 2 ^ 20) && (hostOf path input).isSome

/-- The slice that a command names by host and PASID. -/
def Dev.namedSlice (d : Dev) (path : Path) (input : List Byte) : Option SliceRec :=
  (hostOf path input).bind fun p => (d.slicesOf p).find? fun s => decide (s.pasid = field input 4 4)

/-- SLICE_CREATE. A port in TEARDOWN takes no new slice (R215; the code is the model's, log entry 63). -/
def execSliceCreate (path : Path) (input : List Byte) (st : State) : Host.Outcome State Fault Refusal :=
  onDev st fun d => d.stoluo path opSliceCreate false (sliceHead path input 216 && quotaForm (input.drop 8)) fun d =>
    let p := (hostOf path input).getD 0
    let pasid := field input 4 4
    let q := quotaOf (input.drop 8)
    let fail (d : Dev) (rc : Nat) : Dev := d.finish path opSliceCreate rc
    if d.portMode p ≠ 1 ∨ !(q.engines.all fun e => d.engineOk e.1) ∨ !d.regionsOk p [] q.regions then fail d rcInvalid
    else if d.regionsBarred q then fail d rcLocked
    else if d.portState p = 7 then fail d rcConflict
    else if (d.slicesOf p).any fun s => decide (s.pasid = pasid) then fail d rcConflict
    else if d.overBudget p 0 q ∨ d.queuesTaken 0 q then fail d rcNoResource
    else
      let was := d
      match d.freshNumber 4096 (0 :: d.allSlices.map (·.id)) with
      | (none, _) => fail was rcNoResource
      | (some id, d) =>
        match d.freshNumber 256 ((d.slicesOf p).map (·.index)) with
        | (none, _) => fail was rcNoResource
        | (some index, d) =>
          match d.freshRings q.rings (d.allSlices.flatMap fun s => s.quota.rings) with
          | (none, _) => fail was rcNoResource
          | (some rings, d) =>
            match d.freshChannels q.channels [] with
            | (none, _) => fail was rcNoResource
            | (some channels, d) =>
              let quota : Quota :=
                { rings := rings, channels := channels, engines := q.engines, queueBase := q.queueBase, queues := q.queues
                  regions := q.regions, msixBase := q.msixBase, msixCount := q.msixCount }
              let s : SliceRec := { id := id, port := p, index := index, pasid := pasid, quota := quota, resize := none }
              (d.putSlice s).complete path opSliceCreate rcSuccess 0 (toBytes 2 id ++ toBytes 1 index ++ toBytes 1 0)

/-- SLICE_QUERY; of a slice that is changing, BUSY (R175). -/
def execSliceQuery (path : Path) (input : List Byte) (st : State) : Host.Outcome State Fault Refusal :=
  onDev st fun d => d.stoluo path opSliceQuery false (sliceHead path input 8) fun d =>
    match d.namedSlice path input with
    | none => d.finish path opSliceQuery rcNotFound
    | some s =>
      if s.resize.isSome then d.finish path opSliceQuery rcBusy else
      d.complete path opSliceQuery rcSuccess 0
        (toBytes 2 s.id ++ toBytes 1 s.index ++ toBytes 1 s.state ++ s.quota.bytes ++
          ((List.range 64).flatMap fun r => toBytes 2 (s.quota.rings.getD r 0xFFFF)) ++
          ((List.range 4).flatMap fun c => toBytes 1 (((s.quota.channels.getD c none)).getD 0xFF)))

/-! ### When a quota may shrink (Table DM-3) -/

/-- Whether a range of device addresses loses a page. -/
def losesPages (old new : List (Nat × Nat)) (dpa len : Nat) : Bool := inRegions old dpa len && !inRegions new dpa len

/-- Pages that must stay: contexts and entries of rings that are not DISABLED, the queue-service area and the cell pools while
defined, dirty-log buffers while the log is enabled. -/
def Dev.pinnedLost (d : Dev) (s : SliceRec) (new : List (Nat × Nat)) : Bool :=
  let lost := losesPages s.quota.regions new
  ((List.range s.quota.rings.length).any fun r => decide (d.ringState s r ≠ 0) && match d.ringRun s r with
    | some x => lost (d.ringReg s r .ctx) 64 || lost x.sqBase (64 * 2 ^ x.sqLog2) || lost x.cqBase (32 * 2 ^ x.cqLog2)
    | none => lost (d.ringReg s r .ctx) 64) ||
  (match d.qservice s with
    | some q => (!(q.nodes.isEmpty && q.queues.isEmpty && q.pools.isEmpty) && lost q.area (272 * 1024)) ||
        q.pools.any fun x => lost x.2.cellBase (x.2.count * x.2.bytes) || lost x.2.linkBase (4 * x.2.count)
    | none => false) ||
  (d.bitOf (.dirtyCtl s.port s.index) 31 && [0, 1].any fun b =>
    lost (d.rd (.dirtyBuf s.port s.index b) 43 6 * 64) (d.rd (.dirtyCtl s.port s.index) 26 0 / 8))

/-- Whether a removed vector is named by an enabled ring, a channel with MSIX_EN, or the dirty log with IRQ_EN. -/
def Dev.vectorLost (d : Dev) (s : SliceRec) (base count : Nat) : Bool :=
  let lost (v : Nat) : Bool := s.quota.hasVector v && !decide (base ≤ v ∧ v < base + count)
  ((List.range s.quota.rings.length).any fun r => decide (d.ringState s r ≠ 0) && match d.ringRun s r with
    | some x => x.msixEn && lost x.msixVec
    | none => false) ||
  (s.quota.channels.any fun c => match c with
    | some c => d.bitOf (.dmv c .cfg) 31 && lost (d.rd (.dmv c .cfg) 10 0)
    | none => false) ||
  (d.bitOf (.dirtyCtl s.port s.index) 29 && lost (d.rd (.dirtyWin s.port s.index) 10 0))

/-- Whether the last engine of an image leaves the share while a ring of that service is ACTIVE or STALLED. -/
def Dev.lastEngineLost (d : Dev) (s : SliceRec) (new : List (Nat × Nat)) : Bool :=
  [1, 2].any fun svc =>
    let has (l : List (Nat × Nat)) : Bool := l.any fun e => decide ((d.engine e.1).image = serviceImage svc)
    has s.quota.engines && !has new && (List.range s.quota.rings.length).any fun r =>
      decide (d.ringState s r = 1 ∨ d.ringState s r = 2) && decide ((d.ringRun s r).map (·.service) = some svc)

/-- A new queue range contains the old one, or lies within it. -/
def queueRangeOk (q : Quota) (base count : Nat) : Bool :=
  decide (q.queues = 0 ∨ count = 0 ∨ (base ≤ q.queueBase ∧ q.queueBase + q.queues ≤ base + count) ∨
    (q.queueBase ≤ base ∧ base + count ≤ q.queueBase + q.queues))

/-! ### Changing a quota (R172, R175, R176) -/

/-- A removed channel enters CLOSED; what it runs or aborts, and an armed shadow, run to their end (Tables DM-3, DM-17). -/
def Dev.closeChannel (d : Dev) (c : Nat) : Dev :=
  if (d.chan c).isSome then d.setDmvState c 4
  else if d.bitOf (.dmv c .status) 28 then d.dmvPromote c else d.setDmvState c 4

/-- Local channels that a change removes. -/
def removedChannels (q target : Quota) : List Nat := (q.channels.filterMap id).filter fun c => !target.channels.contains (some c)

/-- The drains begin: removed rings are disabled, removed channels close. -/
def Dev.beginDrain (d : Dev) (s : SliceRec) (target : Quota) : Dev :=
  let d := (List.range s.quota.rings.length).foldl (fun d r => if target.rings.length ≤ r then d.ringDisable s r else d) d
  (removedChannels s.quota target).foldl (fun d c => d.closeChannel c) d

/-- Whether a change to a target has nothing to drain. -/
def growsOnly (q target : Quota) : Bool :=
  decide (q.rings.length ≤ target.rings.length ∧ q.queues ≤ target.queues) && (removedChannels q target).isEmpty &&
    (q.engines.all fun e => target.engines.any fun x => decide (x.1 = e.1)) &&
    q.regions.all fun r => coveredTo (target.regions.length + 1) target.regions r.1 r.2

/-- Whether every drain of a change has ended (Table DM-3). -/
def Dev.drained (d : Dev) (s : SliceRec) (target : Quota) : Bool :=
  let removedQueues (n : Nat) : Bool := s.quota.hasQueue n && !target.hasQueue n
  let opsOf := (d.svc.rings.filter fun r => decide (r.1.1 = s.id)).flatMap fun r => r.2.ops
  ((List.range s.quota.rings.length).all fun r => decide (r < target.rings.length ∨ d.ringState s r = 0)) &&
  ((removedChannels s.quota target).all fun c => (d.chan c).isNone && !d.bitOf (.dmv c .status) 28) &&
  (d.svc.held.all fun x => !decide (x.1.1 = s.id) || decide (x.1.2 < target.rings.length)) &&
  (opsOf.all fun o => match o.stage.engine with
    | some e => !(s.quota.engines.any fun x => decide (x.1 = e)) || target.engines.any fun x => decide (x.1 = e)
    | none => true) &&
  ((d.qservice s).map (fun q => q.queues.all fun x => !removedQueues x.1 || x.2.packets.isEmpty || d.descriptorLost x.1)).getD true &&
  (opsOf.all fun o => o.regions.all fun r => coveredTo (target.regions.length + 1) target.regions r.1 r.2) &&
  (s.quota.channels.filterMap id).all fun c => match d.chan c with
    | some x => x.regions.all fun r => coveredTo (target.regions.length + 1) target.regions r.1 r.2
    | none => true

/-- Who waits for a change is told. -/
def Dev.resizeAnswer (d : Dev) (r : Resize) (rc : Nat) : Dev :=
  match r.path with
  | some path => d.bgResult path rc 0
  | none => d

/-- The registers of a ring group, and of a channel group; the threads of a ring's operations are free (Table MS-2). -/
def Dev.resetRing (d : Dev) (s : SliceRec) (r : Nat) : Dev :=
  let tiles := (((d.ringRun s r).map fun x => x.ops.filterMap fun o => o.stage.engine.map (· / 16)).getD []).dedup
  let d := { d with svc := { d.svc with rings := tdel d.svc.rings (s.id, r), held := tdel d.svc.held (s.id, r) } }
  (tiles.foldl (fun d t => d.showEngines t) d).resetRegs fun g => match g with
    | .ring h i k _ => decide (h = s.port ∧ i = s.index ∧ k = r)
    | _ => false

def Dev.resetChannel (d : Dev) (c : Nat) : Dev :=
  (d.dropChan c).resetRegs fun g => match g with
    | .dmv k _ => decide (k = c)
    | _ => false

/-- The slice is gone: a pending swap completes, the log is disabled, its registers clear, its IDs are free (R176). -/
def Dev.removeSlice (d : Dev) (s : SliceRec) : Dev :=
  let d := d.dirtySwapDone s
  let d := (List.range s.quota.rings.length).foldl (fun d r => d.resetRing s r) d
  let d := (s.quota.channels.filterMap id).foldl (fun d c => d.resetChannel c) d
  let d := d.resetRegs fun g => describes s.port s.index g || driven s.port s.index g
  { d with svc := { d.svc with
    slices := tdel d.svc.slices s.id, queues := tdel d.svc.queues s.id, dirty := tdel d.svc.dirty s.id } }

/-- A change takes effect: removed groups read 0, removed queues are deleted, the target is in force, or the slice is gone. -/
def Dev.applyResize (d : Dev) (s : SliceRec) (r : Resize) (rc : Nat) : Dev :=
  let d :=
    if r.destroy then d.removeSlice s
    else
      let d := (List.range s.quota.rings.length).foldl (fun d k => if r.target.rings.length ≤ k then d.resetRing s k else d) d
      let d := (removedChannels s.quota r.target).foldl (fun d c => d.resetChannel c) d
      let d := match d.qservice s with
        | some q => d.setQService s { q with queues := q.queues.filter fun x => r.target.hasQueue x.1 }
        | none => d
      d.putSlice { s with quota := r.target, resize := none }
  (d.resizeAnswer r rc).flrEnds s.port

/-- Start a change: what grows is usable at once, what shrinks begins to drain and stays until the change is in force (Table DM-3); a
change with nothing to drain is in force. -/
def Dev.startResize (d : Dev) (s : SliceRec) (r : Resize) : Dev :=
  let q := s.quota
  let t := r.target
  let widens := q.regions.all fun x => coveredTo (t.regions.length + 1) t.regions x.1 x.2
  let moreVectors := decide (q.msixCount = 0 ∨ (t.msixBase ≤ q.msixBase ∧ q.msixBase + q.msixCount ≤ t.msixBase + t.msixCount))
  let kept := q.engines.filter fun e => !(t.engines.any fun x => decide (x.1 = e.1))
  let grown : Quota :=
    { rings := if q.rings.length ≤ t.rings.length then t.rings else q.rings
      channels := if q.channels.length ≤ t.channels.length then t.channels else q.channels
      engines := t.engines ++ kept
      queueBase := if q.queues ≤ t.queues then t.queueBase else q.queueBase
      queues := max q.queues t.queues, regions := if widens then t.regions else q.regions
      msixBase := if moreVectors then t.msixBase else q.msixBase, msixCount := if moreVectors then t.msixCount else q.msixCount }
  let s' : SliceRec := { s with quota := grown, resize := some r }
  let d := d.putSlice s'
  if growsOnly q t && !r.destroy then d.applyResize s' r rcSuccess else d.beginDrain s' t

/-- Whether the quota of any slice is changing: firmware changes those of one slice at a time (R175), and answers BUSY to a change of
another one meanwhile (DESIGN CHOICE, log entry 49). -/
def Dev.changing (d : Dev) : Bool := d.allSlices.any fun s => s.resize.isSome

/-- SLICE_RESIZE. -/
def execSliceResize (path : Path) (input : List Byte) (st : State) : Host.Outcome State Fault Refusal :=
  onDev st fun d => d.stoluo path opSliceResize false (sliceHead path input 216 && quotaForm (input.drop 8)) fun d =>
    let q := quotaOf (input.drop 8)
    let fail (d : Dev) (rc : Nat) : Dev := d.finish path opSliceResize rc
    match d.namedSlice path input with
    | none => fail d rcNotFound
    | some s =>
      if d.changing ∨ d.bgRunning path then fail d rcBusy
      else if !(q.engines.all fun e => (s.quota.engines.any fun x => decide (x.1 = e.1)) || d.engineOk e.1) ∨
          !d.regionsOk s.port s.quota.regions q.regions ∨ !queueRangeOk s.quota q.queueBase q.queues then fail d rcInvalid
      else if d.regionsBarred q then fail d rcLocked
      else if d.lastEngineLost s q.engines ∨ d.pinnedLost s q.regions ∨ d.vectorLost s q.msixBase q.msixCount then fail d rcConflict
      else if d.overBudget s.port s.id q ∨ d.queuesTaken s.id q then fail d rcNoResource
      else
        let was := d
        match d.freshRings (q.rings - s.quota.rings.length) (d.allSlices.flatMap fun x => x.quota.rings) with
        | (none, _) => fail was rcNoResource
        | (some rings, d) =>
          match d.freshChannels (q.channels - s.quota.channels.length) [] with
          | (none, _) => fail was rcNoResource
          | (some channels, d) =>
            let target : Quota :=
              { rings := (s.quota.rings ++ rings).take q.rings, channels := (s.quota.channels ++ channels).take q.channels
                engines := q.engines, queueBase := q.queueBase, queues := q.queues, regions := q.regions
                msixBase := q.msixBase, msixCount := q.msixCount }
            (d.bgStart path opSliceResize).startResize s ⟨target, false, some path, false⟩

/-- SLICE_DESTROY: every resource is reduced to zero (R176). -/
def execSliceDestroy (path : Path) (input : List Byte) (st : State) : Host.Outcome State Fault Refusal :=
  onDev st fun d => d.stoluo path opSliceDestroy false (sliceHead path input 8) fun d =>
    match d.namedSlice path input with
    | none => d.finish path opSliceDestroy rcNotFound
    | some s =>
      if d.changing ∨ d.bgRunning path then d.finish path opSliceDestroy rcBusy
      else (d.bgStart path opSliceDestroy).startResize s ⟨.zero, true, some path, false⟩

/-! ### The coherence-assist image (R132, R392) -/

/-- Whether an engine is in a slice's share. -/
def Dev.engineShared (d : Dev) (e : Nat) : Bool := d.allSlices.any fun s => s.quota.engines.any fun x => decide (x.1 = e)

/-- An engine leaves a share as a quota decrease of firmware's own, or as part of the change that is running. -/
def Dev.withdrawEngine (d : Dev) (e : Nat) (s : SliceRec) : Dev :=
  let drop (q : Quota) : Quota := { q with engines := q.engines.filter fun x => !decide (x.1 = e) }
  if !(s.quota.engines.any fun x => decide (x.1 = e)) then d
  else match s.resize with
    | some r => d.putSlice { s with resize := some { r with target := drop r.target } }
    | none => d.putSlice { s with resize := some ⟨drop s.quota, false, none, false⟩ }

/-- A Tambour without a coherence-assist engine gives the image to its highest-numbered engine that no slice holds; where every
one is held, the highest-numbered one is withdrawn first, from one slice's share after another (R175). -/
def Dev.assistSettle (d : Dev) (t : Nat) : Dev :=
  if (d.assistEngine t).isSome then d
  else
    let live := ((List.range 16).reverse.map fun k => 16 * t + k).filter fun e => !(d.engine e).retired
    match live.find? fun e => !d.engineShared e with
    | some e => (d.setEngine e { d.engine e with image := .assist, move := none }).showEngines t
    | none => match live.head? with
      | some e =>
        let shares := d.allSlices.filter fun s => s.quota.engines.any fun x => decide (x.1 = e)
        match (shares.find? fun s => s.resize.isSome).orElse fun _ => if d.changing then none else shares.head? with
        | some s => d.withdrawEngine e s
        | none => d
      | none => d

/-- Once a slice has changed: the Tambours of its engines, then those that another slice's engines belong to, settle their assist. -/
def Dev.assistFor (d : Dev) (s : SliceRec) : Dev :=
  let holds (x : SliceRec) (t : Nat) : Bool := x.quota.engines.any fun e => decide (e.1 / 16 = t)
  let own := (List.range 16).filter fun t => holds s t
  let others := (List.range 16).filter fun t => !holds s t && d.allSlices.any fun x => holds x t
  (own ++ others).foldl (fun d t => d.assistSettle t) d

/-- QUOTA_DRAIN_DONE: the new quota is in force, and the command completes with SUCCESS, or TIMEOUT where it was forced. -/
def execQuotaDrainDone (slice : Fin 4096) (st : State) : Host.Outcome State Fault Refusal :=
  onDev st fun d =>
    match d.sliceRec slice with
    | none => d
    | some s => match s.resize with
      | some r =>
        if d.fwRuns && d.drained s r.target then
          (d.applyResize s r (if r.forced then rcTimeout else rcSuccess)).assistFor s
        else d
      | none => d

/-- Firmware aborts a channel that a change has closed. -/
def Dev.abortClosed (d : Dev) (c : Nat) : Dev := d.dmvAbort c

/-- QUOTA_DRAIN_TIMEOUT: firmware aborts each removed channel and flushes each removed queue; the rest drains within its own
bounds (R175, Table MG-12 type 8). -/
def execQuotaDrainTimeout (slice : Fin 4096) (st : State) : Host.Outcome State Fault Refusal :=
  onAccess st fun d =>
    match d.sliceRec slice with
    | none => d
    | some s => match s.resize with
      | some r =>
        if r.forced then d
        else
          let d := (removedChannels s.quota r.target).foldl (fun d c => d.abortClosed c) d
          let queues := (((d.qservice s).map fun q => q.queues.map (·.1)).getD []).filter fun n => !r.target.hasQueue n
          let d := queues.foldl (fun d n => if d.descriptorLost n then d else d.flushQueue s s.agent n) d
          let d := d.setSlice { s with resize := some { r with forced := true } }
          d.fabricEvent 8 (det 146 s.port + det 126 s.pasid + det 114 s.id)
      | none => d

/-! ### Function Level Reset and the removal of a host (R176) -/

/-- Without waiting: every channel is aborted and its group reset, every ring disabled, every queue flushed, and the dirty-page
log reset. -/
def Dev.quiesceSlice (d : Dev) (s : SliceRec) : Dev :=
  let d := (s.quota.channels.filterMap id).foldl (fun d c =>
    let d := d.resetChannel c
    if d.closing c then d.setDmvState c 4 else d) d
  let d := (List.range s.quota.rings.length).foldl (fun d r => d.ringDisable s r) d
  let queues := ((d.qservice s).map fun q => q.queues.map (·.1)).getD []
  let d := d.forced fun d => queues.foldl (fun d n => if d.descriptorLost n then d else d.flushQueue s s.agent n) d
  let d := d.resetRegs fun g => match g with
    | .ring _ _ _ _ => false
    | g => driven s.port s.index g
  { d with svc := { d.svc with dirty := tdel d.svc.dirty s.id } }

/-- FLR_SERVICE_FUNCTION: it completes once every ring is DISABLED (R146). -/
def execFlrServiceFunction (p : Fin 64) (st : State) : Host.Outcome State Fault Refusal :=
  onDev st fun d =>
    let d := { d with svc := { d.svc with flr := d.svc.flr.filter (fun q => !decide (q = p.val)) ++ [p.val] } }
    ((d.slicesOf p).foldl (fun d s => d.quiesceSlice s) d).flrEnds p

/-- Every slice of a host is destroyed without a drain: what firmware has to do waits until it runs, as a forced destruction (R17). -/
def Dev.dropSlices (d : Dev) (p : Nat) : Dev :=
  (d.slicesOf p).foldl (fun d s =>
    let d := d.quiesceSlice s
    if d.fwRuns then
      let d := d.removeSlice s
      match s.resize with
      | some r => d.resizeAnswer r rcTimeout
      | none => d
    else d.setSlice { s with resize := some ⟨.zero, true, s.resize.bind (·.path), true⟩ }) d

/-- A host has gone: its extents are released by force, its slices destroyed (R58, R176). -/
def Dev.hostGone (d : Dev) (p : Nat) : Dev := (d.forceHost p).dropSlices p

/-! ### Engines -/

/-- The version of the image in use of an update target. -/
def Dev.imageVersion (d : Dev) (target : Nat) : Nat :=
  match (tget d.mgmt.inUse target).bind fun slot => tget d.mgmt.flash (target, slot) with
  | some i => i.version
  | none => 0

/-- ENGINE_ASSIGN: an engine runs only an image that has been loaded (R131); where none of the service has, the command completes with
NOT_FOUND (DESIGN CHOICE, log entry 55). -/
def execEngineAssign (path : Path) (input : List Byte) (st : State) : Host.Outcome State Fault Refusal :=
  onDev st fun d =>
    let e := field input 0 2
    let i := field input 2 1
    d.stoluo path opEngineAssign false
        (decide (input.length = 4 ∧ e < 256 ∧ 1 ≤ i ∧ i ≤ 2 ∧ field input 3 1 = 0)) fun d =>
      if d.engineShared e ∨ d.assistEngine (e / 16) = some e then d.finish path opEngineAssign rcConflict
      else
        if (tget d.mgmt.inUse i).isNone then d.finish path opEngineAssign rcNotFound
        else
        let d := d.setEngine e { d.engine e with image := serviceImage i, version := d.imageVersion i, move := none }
        (d.showEngines (e / 16)).finish path opEngineAssign rcSuccess

end Sys2Proof.Machine
end

