-- ==== Sys2Proof/Machine/Death.lean ====
section
/-! DEFINITION. Declared deaths: reports, Knells, the sweeps of the directory slices, what the death of a neighbour ends, and the
snoop timeouts of Extended mode (R98 to R101, R265, R276, R358). -/

namespace Sys2Proof.Machine

/-! ### Declaring a death (R99, R276) -/

/-- KIND and SUBJ_NUM of the Knell for an agent, with the device it names (Table MF-4). -/
def Dev.knellSubject (d : Dev) : Holder → Nat × Nat × Nat
  | .port p => (0, p.val, d.devId)
  | .slot n => (1, 0, d.slotDev n)
  | .engine e => (2, e.val, d.devId)
  | .dmv c => (3, 256 + c.val, d.devId)

/-- The cause of a lost-line record for a death of a cause of Table MF-4 (Table CO-17). -/
def lostCause (cause : Nat) : Nat :=
  if cause = 1 then 2 else if cause = 2 then 3 else if cause = 7 then 5 else 4

/-- Whether an agent is one that can be declared dead now: a HOST port, an ALIVE slot, an engine or a channel, not already
declared dead. -/
def Dev.mortal (d : Dev) (h : Holder) : Bool :=
  match h with
  | .port p => decide (d.portMode p = 1) && !d.dir.dead.contains h
  | .slot n => decide (d.slotState n = 1)
  | _ => !d.dir.dead.contains h

/-- One Knell on every ACTIVE link of every ALIVE slot. -/
def Dev.sendKnells (d : Dev) (w3 : Word) : Dev :=
  (List.range 16).foldl (fun d l =>
    let n := d.linkSlot l
    if d.active l ∧ d.slotState n = 1 then
      d.writeLink .mgmt l (msgHead 0x1F d.devId (d.slotDev n) 0 0 0 false 0 false 0 ++ [w3, d.reg .ftime])
    else d) d

/-- Whether logical slice t must still be woken for a sweep. -/
def Dev.wakeSlices (d : Dev) : Dev := (List.range 16).foldl (fun d t => d.wake (domTdir (d.hostTile t))) d

/-- Requests that this device has forwarded to a dead neighbour complete as messages without a route, and snoops that it sent
are no longer served (R100, R270). -/
def Dev.dropNeighbour (d : Dev) (n : Nat) : Dev :=
  let dead := BitVec.ofNat 11 (d.slotDev n)
  let gone := (d.dir.proxyOut.filter fun x => decide ((d.blockEntry (blockOfLine x.2.req.line.toNat)).homeDev = dead)).map (·.1)
  let d := { d with dir := { d.dir with
    psnoops := d.dir.psnoops.filter fun x => !decide (x.2.home = dead)
    grantE := d.dir.grantE.filter fun g => !decide ((d.blockEntry (blockOfGranule g)).homeDev = dead) } }
  gone.foldl (fun d tag => d.failForwarded tag) d

/-- The device declares an agent dead: it reports it, sends a Knell, writes a fabric event record, and every slice has a sweep to
make (R99 to R101, R276, R300). -/
def Dev.declareDeath (d : Dev) (h : Holder) (cause : Nat) : Dev :=
  if !d.mortal h then d
  else
    let (kind, num, dev) := d.knellSubject h
    let d := d.report 0x38C 2 (kind * 2 ^ 9 + num)
    let d := match h with
      | .port p => d.report (portSource p) 2 cause
      | _ => d
    let dead := match h with
      | .slot _ => d.dir.dead
      | _ => d.dir.dead ++ [h]
    let d := { d with
      fab := { d.fab with deaths := d.fab.deaths + 1 }
      dir := { d.dir with
        dead := dead, timeouts := tdel d.dir.timeouts h
        sweeps := tset d.dir.sweeps h (lostCause cause, List.range 16) } }
    let w3 := knellWord kind dev num cause d.fab.deaths
    let d := match h with
      | .slot n =>
        let d := { d with fab := { d.fab with rejoins := tdel d.fab.rejoins n.val } }
        (d.setSlotState n 2).dropNeighbour n
      | _ => d
    let d := (d.sendKnells w3).fabricEvent 2 (det 88 w3.toNat + det 77 d.devId)
    let d := match h with
      | .port p => d.forceHost p
      | _ => d
    d.wakeSlices

/-- The agent has come back into service: it can be declared dead again. -/
def Dev.revive (d : Dev) (h : Holder) : Dev :=
  { d with dir := { d.dir with dead := d.dir.dead.filter fun x => !decide (x = h) } }

def execAgentDeathDeclared (who : Holder) (cause : Fin 8) (s : State) : Host.Outcome State Fault Refusal :=
  onDev s fun d => d.declareDeath who cause.val

/-! ### Reclaim sweeps (R100, Table CO-6) -/

/-- The lines of a granule that a holder has not answered or written back: those of the recall of the whole granule that waits for
it, otherwise all 16. -/
def Dev.unreturned (d : Dev) (h : Holder) (g : Nat) : BitVec 16 :=
  match d.ctEntry g with
  | some e =>
    let whole := decide (e.snoop = .dat) || (decide (e.snoop = .inv) && !e.oneLine)
    match e.waits.find? fun w => decide (w.holder = h) with
    | some w => if whole then w.lines else BitVec.allOnes 16
    | none => BitVec.allOnes 16
  | none => BitVec.allOnes 16

/-- The row "Death of agent s" for one tracked granule: a sharer leaves it, an owner's lines that have not come back are poisoned.
In a proxy entry the cause is 6, and a grant in E is released. An entry that fails the integrity check is recovered instead (R75). -/
def Dev.reclaimEntry (d : Dev) (h : Holder) (cause g : Nat) : Dev :=
  let (sound, d) := d.trustEntry g
  match d.entry g with
  | none => d
  | some e =>
    if !sound || !e.holders.contains h then d
    else
      let remote := (d.blockEntry (blockOfGranule g)).remote
      let d := if 2 ≤ e.state.toNat then
          d.poisonMask g (d.unreturned h g).toNat (if remote then 6 else cause) (some h) else d
      let d := d.removeHolder g h
      if remote then d.proxyLeft g else d

/-- A victim that waits for a dead owner: the lines that have not come back are poisoned, with cause 6 in a proxy. -/
def Dev.reclaimVictim (d : Dev) (h : Holder) (cause g : Nat) : Dev :=
  match tget d.dir.victims g with
  | some v =>
    match v.waits.find? fun w => decide (w.holder = h) with
    | some w => if v.owned then d.poisonMask g w.lines.toNat (if (d.blockEntry v.block).remote then 6 else cause) (some h) else d
    | none => d
  | none => d

/-- Whether a granule concerns the sweep of slice t for an agent. -/
def Dev.concerned (d : Dev) (h : Holder) (t g : Nat) : Bool :=
  decide (sliceOf g = t) &&
    (((d.entry g).map fun e => e.holders.contains h).getD false || d.underRecall g h)

/-- Granules of slice t that name an agent or wait for it. -/
def Dev.reclaimList (d : Dev) (h : Holder) (t : Nat) : List Nat :=
  ((d.dir.entries.map (·.1) ++ d.dir.ct.map (·.1) ++ d.dir.victims.map (·.1) ++
    d.dir.psnoops.map fun x => granuleOf x.1).dedup).filter fun g => d.concerned h t g

/-- Proxy granules of slice t that are homed on a dead neighbour, those in the victim buffer among them. -/
def Dev.orphans (d : Dev) (h : Holder) (t : Nat) : List Nat :=
  match h with
  | .slot n =>
    (d.dir.entries.map (·.1) ++ d.dir.victims.map (·.1)).filter fun g =>
      let b := d.blockEntry (blockOfGranule g)
      decide (sliceOf g = t) && b.remote && decide (b.homeDev.toNat = d.slotDev n)
  | _ => []

/-- One slice sweeps for a dead agent: its entries, the waits for it, and the proxy entries homed on it, whose local holders are
recalled with Inv16. A sleeping or moving slice is not swept yet. -/
def Dev.reclaimSlice (d : Dev) (h : Holder) (cause t : Nat) : Dev :=
  if !d.sliceReady t then d.wake (domTdir (d.hostTile t))
  else
    let d := (d.reclaimList h t).foldl (fun d g => ((d.reclaimEntry h cause g).reclaimVictim h cause g).stopWaiting h g) d
    (d.orphans h t).foldl (fun d g =>
      match d.entry g with
      | some e => d.sweepGranule g e.holders .death
      | none => d) d

/-- Whether a slice has nothing left of a dead agent. A slice in Deep holds no entry and counts as swept (R358). -/
def Dev.reclaimed (d : Dev) (h : Holder) (t : Nat) : Bool :=
  (d.reclaimList h t).isEmpty && (d.orphans h t).isEmpty &&
    (d.sliceReady t || decide (d.domState (domTdir (d.hostTile t)) = 3))

/-- RECLAIM_SWEEP_DONE: the slice sweeps, and it is done once it has nothing left of the agent. -/
def execReclaimSweepDone (who : Holder) (slice : Fin 16) (s : State) : Host.Outcome State Fault Refusal :=
  onDev s fun d =>
    match tget d.dir.sweeps who with
    | none => d
    | some (cause, left) =>
      if !left.contains slice.val then d
      else
        let d := d.reclaimSlice who cause slice
        if d.reclaimed who slice then
          let left := left.filter fun t => !decide (t = slice.val)
          { d with dir := { d.dir with
            sweeps := if left.isEmpty then tdel d.dir.sweeps who else tset d.dir.sweeps who (cause, left) } }
        else d

/-- Whether every slice has swept for an agent. -/
def Dev.sweepsOver (d : Dev) (h : Holder) : Bool := (tget d.dir.sweeps h).isNone

/-- Whether every item of a host's teardown is done: its extents released with their fences, its slices destroyed, and every slice
swept (Table CP-8a). -/
def Dev.hostClear (d : Dev) (p : Nat) : Bool :=
  let all := ((d.pool.fence.map (·.recs)).getD []) ++ d.pool.fenceQueue
  let mine (r : FenceRec) : Bool :=
    (r.holders.any fun h => match h with
      | .port q => decide (q.val = p)
      | _ => false) ||
    (match r.after with
      | .dc q => decide (q = p)
      | .unprompted q _ => decide (q = p)
      | _ => false) ||
    (r.whole && match tget d.pool.domains r.domain with
      | some x => x.fencing && x.holders.isEmpty
      | none => false)
  !d.pool.forcedDue.contains (.host p) && (d.pool.extents.all fun x => !decide (x.port = p)) && (tget d.pool.dcOps p).isNone && (all.all fun r => !mine r) &&
    (d.slicesOf p).isEmpty && (if h : p < 64 then d.sweepsOver (.port ⟨p, h⟩) else true)

/-! ### Timeouts in Extended mode (R98) -/

/-- One more timeout of a holder's snoop of a line, and the number so far on that snoop. -/
def Dev.countRetry (d : Dev) (h : Holder) (line : Nat) : Nat × Dev :=
  let g := granuleOf line
  let i := line % 16
  let bump (w : Wait) : Wait :=
    if w.holder = h ∧ w.lines.getLsbD i then { w with retries := tset w.retries i (tgetD w.retries i 0 + 1) } else w
  let d := d.modCt g fun e => { e with waits := e.waits.map bump }
  let d := { d with dir := { d.dir with
    victims := tmod d.dir.victims g fun v => { v with waits := v.waits.map bump }
    psnoops := tmod d.dir.psnoops line fun x => { x with retries := tset x.retries h (tgetD x.retries h 0 + 1) } } }
  let of (ws : List Wait) : Nat := ((ws.find? fun w => decide (w.holder = h)).map fun w => tgetD w.retries i 0).getD 0
  (max (max (((d.ctEntry g).map fun e => of e.waits).getD 0) (((tget d.dir.victims g).map fun v => of v.waits).getD 0))
    (((tget d.dir.psnoops line).map fun x => tgetD x.retries h 0).getD 0), d)

/-- The snoop that is outstanding for a line. -/
def Dev.snoopKindOf (d : Dev) (h : Holder) (line : Nat) : SnoopKind :=
  let g := granuleOf line
  match tget d.dir.psnoops line with
  | some x => if x.waits.contains h then x.kind else ((d.ctEntry g).map (·.snoop)).getD .inv
  | none => ((d.ctEntry g).map (·.snoop)).getD .inv

/-- A line of a recall stays unanswered in Extended mode: the snoop is resent, and at the eighth consecutive timeout of the agent or
of the snoop the agent is declared dead. During an INTEGRITY recovery the line counts as answered (R75). -/
def Dev.extendedTimeout (d : Dev) (h : Holder) (line : Nat) : Dev :=
  if !d.snoopOut h line then d
  else
    let d := d.count (sliceOf (granuleOf line)) 0x2008 1
    if (d.ctEntry (granuleOf line)).map (·.kind) = some .integrity then d.answered h line false
    else
      let n := tgetD d.dir.timeouts h 0 + 1
      let d := { d with dir := { d.dir with timeouts := tset d.dir.timeouts h n } }
      let (r, d) := d.countRetry h line
      if 8 ≤ n ∨ 8 ≤ r then d.declareDeath h 1 else d.snoop h line (d.snoopKindOf h line)

def execExtendedBisnpTimeout (p : Fin 64) (line : LineNo) (s : State) : Host.Outcome State Fault Refusal :=
  onDev s fun d => if d.compact then d else d.extendedTimeout (.port p) line.toNat

/-- A home has waited 2T for a neighbour's answer (R95): Compact mode poisons the lines, Extended mode counts and resends. -/
def execNeighbourSnoopTimeout (n : Fin 16) (line : LineNo) (s : State) : Host.Outcome State Fault Refusal :=
  onDev s fun d =>
    if d.compact then d.compactTimeout (.slot n) (granuleOf line.toNat) else d.extendedTimeout (.slot n) line.toNat

end Sys2Proof.Machine
end

