-- ==== Sys2Proof/Machine/Binding.lean ====
section
/-! DEFINITION. Dynamic Capacity, the fence, keys, migration and resynchronisation, exports and imports: the meanings of
their commands (R32 to R67, R278, R294, R295). -/

namespace Sys2Proof.Machine

/-! ### Opcodes and codes of CXL (PRESUMED from CXL 3.1, log entry 20) -/

def opAddResponse : Nat := 0x4802
def opReleaseDc : Nat := 0x4803
def opInitiateAdd : Nat := 0x5604
def opInitiateRelease : Nat := 0x5605
def cxlInvalidInput : Nat := 2
def cxlInvalidSecurity : Nat := 0x13
def cxlResources : Nat := 0x1D
def cxlInvalidExtents : Nat := 0x1E

/-! ### Checking an add (R54, R56, R345, R348, R367) -/

/-- Extents of a request as first slot and blocks; none where one is no multiple of 64 MiB. -/
def asBlocks (extents : List (Nat × Nat)) : Option (List (Nat × Nat)) :=
  if extents.all fun e => decide (e.1 % 2 ^ 26 = 0 ∧ e.2 % 2 ^ 26 = 0 ∧ 0 < e.2) then
    some (extents.map fun e => (e.1 / 2 ^ 26, e.2 / 2 ^ 26))
  else none

/-- Whether two extents, each as first slot and blocks, share no slot. -/
def apart (a b : Nat × Nat) : Bool := decide (a.1 + a.2 ≤ b.1 ∨ b.1 + b.2 ≤ a.1)

/-- Whether the extents of a list share no slot. -/
def allApart : List (Nat × Nat) → Bool
  | [] => true
  | a :: r => r.all (apart a) && allApart r

/-- First slot and end of a region of the host on port p (Table PB-2). -/
def Dev.region (d : Dev) (p region : Nat) : Nat × Nat :=
  match tget d.pool.windows p with
  | some (_, r0, r1) => if region = 0 then (0, r0) else (r0, if d.hasBi p then r0 + r1 else r0)
  | none => (0, 0)

/-- Whether blocks can be found for every extent, each from one set: free lists the FREE blocks of each set. -/
def fits : List Nat → List (Nat × Nat) → Bool
  | [], _ => true
  | n :: rest, free =>
    free.any fun f => decide (n ≤ f.2) && fits rest (free.map fun x => if x.1 = f.1 then (x.1, x.2 - n) else x)

/-- FREE blocks of each set beside some that are taken. -/
def Dev.freeCounts (d : Dev) (taken : List Nat) : List (Nat × Nat) :=
  d.setNumbers.map fun i => (i, ((d.freeBlocks i).filter fun b => !taken.contains b).length)

/-- Blocks for every extent, each extent from one set that leaves enough for the others. -/
def Dev.planBlocks (d : Dev) : List Nat → List Nat → Option (List (List Nat)) × Dev
  | [], _ => (some [], d)
  | n :: rest, taken =>
    let free := d.freeCounts taken
    let sets := (free.filter fun f => decide (n ≤ f.2) &&
      fits rest (free.map fun x => if x.1 = f.1 then (x.1, x.2 - n) else x)).map (·.1)
    match d.pickBlocks sets n taken with
    | (some bs, d) =>
      match d.planBlocks rest (taken ++ bs) with
      | (some l, d) => (some (bs :: l), d)
      | (none, d) => (none, d)
    | (none, d) => (none, d)

/-- Whether a Dynamic Capacity add or release of the host on port p is in progress: an operation of the fabric manager, or the fence
of a release that the host made unprompted or that firmware forces (R53). -/
def Dev.dcBusy (d : Dev) (p : Nat) : Bool :=
  (tget d.pool.dcOps p).isSome ||
    (((d.pool.fence.map (·.recs)).getD [] ++ d.pool.fenceQueue).any fun r =>
      (r.holders.any fun h => match h with
        | .port q => decide (q.val = p)
        | _ => false) ||
      (match r.after with
        | .unprompted q _ => decide (q = p)
        | _ => false))

/-- Why an Initiate Dynamic Capacity Add is refused: the code of the first condition that fails. Nothing new binds to a port in TEARDOWN
(R215); the spec gives no code for that, and Busy says that the add may be repeated (DESIGN CHOICE, log entry 63). -/
def Dev.addRefusal (d : Dev) (path : Path) (p region tag : Nat) (extents : List (Nat × Nat)) : Option Nat :=
  if d.sec.noAdds ∨ d.debugLevel = 2 ∨ d.sec.otp.lifecycle = 3 then some cxlInvalidSecurity
  else if d.dcBusy p || d.bgRunning path || decide (d.portState p = 7) then some cxlBusy
  else if d.portMode p ≠ 1 ∨ (region = 1 ∧ d.hasBi p = false) then some cxlInvalidInput
  else
    match asBlocks extents with
    | none => some cxlInvalidExtents
    | some ext =>
      let (lo, hi) := d.region p region
      let held := (d.extentsOf p).map fun e => (e.first, e.count)
      let named := d.tagDomain tag
      let sameTag := decide (region = 1 ∧ tag ≠ 0) && (d.extentsOf p).any fun e => decide (e.tag = tag)
      let total := (ext.map (·.2)).sum
      if ext.isEmpty || ext.any (fun e => decide (e.1 < lo ∨ hi < e.1 + e.2)) || !allApart ext ||
          (ext.any fun e => held.any fun h => !apart e h) || sameTag then some cxlInvalidExtents
      else
        match named with
        | some (_, r) =>
          if r.fencing then some cxlBusy
          else if r.blocks.length ≠ total ∨ (r.blocks.any fun b => (d.blockEntry b).coherent ≠ decide (region = 1)) then
            some cxlInvalidInput
          else none
        | none =>
          let domains := if region = 1 ∧ tag ≠ 0 then 1 else ext.length
          if d.readyDomains.length < domains ∨ fits (ext.map (·.2)) (d.freeCounts []) = false then some cxlResources else none

/-! ### Offering capacity (Table PB-9) -/

/-- Destroy a domain that holds nothing. -/
def Dev.destroyDomain (d : Dev) (i : Nat) : Dev :=
  let d := d.setKeySlot i .spent
  { d with pool := { d.pool with domains := tdel d.pool.domains i } }

/-- Create several domains, or none: those made before a failure are destroyed (R55). -/
def Dev.makeDomains (d : Dev) : List DomainRec → List Nat → Option (List Nat) × Dev
  | [], made => (some made.reverse, d)
  | r :: rest, made =>
    match d.createDomain r with
    | (some i, d) => d.makeDomains rest (i :: made)
    | (none, d) => (none, made.foldl (fun d i => d.destroyDomain i) d)

/-- Cut a list into pieces of given lengths. -/
def cut : List Nat → List Nat → List (List Nat)
  | [], _ => []
  | n :: rest, l => l.take n :: cut rest (l.drop n)

/-- Steps 4 to 6 of Table PB-9 for one extent: fresh says that its blocks are newly allocated. -/
def Dev.offerExtent (d : Dev) (p region tag first dom : Nat) (blocks : List Nat) (fresh : Bool) : Dev :=
  let d := if fresh then blocks.foldl (fun d b =>
      d.changeBlock b (d.allotted b dom 1 (decide (region = 1)))) d else d
  let slots := (List.range blocks.length).map fun i => d.slotIndex p (first + i)
  let d := (slots.zip blocks).foldl (fun d x => (d.writeSlot x.1 (mkSlot false x.2 dom)).invalidateSlot x.1) d
  let d := blocks.foldl (fun d b => d.invalidateBlock b) d
  let e : Extent := ⟨p, region, first, blocks.length, tag, dom, blocks, true, d.pool.extentSeq⟩
  ({ d with pool := { d.pool with extents := d.pool.extents ++ [e], extentSeq := d.pool.extentSeq + 1 } }).hostEvent p 4 0
    (first * 2 ^ 26) (blocks.length * 2 ^ 26) tag

/-- Offer extents with a domain and blocks for each. -/
def Dev.offerAll (d : Dev) (p region tag : Nat) (fresh : Bool) : List (Nat × Nat) → List Nat → List (List Nat) → Dev
  | e :: es, i :: is, bs :: bss => (d.offerExtent p region tag e.1 i bs fresh).offerAll p region tag fresh es is bss
  | _, _, _ => d

/-- Steps 3 to 6 of an accepted add. -/
def Dev.offer (d : Dev) (path : Path) (p region tag : Nat) (ext : List (Nat × Nat)) : Dev :=
  let counts := ext.map (·.2)
  let begun (d : Dev) : Dev :=
    let op : DcOp := ⟨true, path, [], 0⟩
    { d with pool := { d.pool with dcOps := tset d.pool.dcOps p op } }
  match d.tagDomain tag with
  | some (i, r) => (begun d).offerAll p region tag false ext (counts.map fun _ => i) (cut counts r.blocks)
  | none =>
    match d.planBlocks counts [] with
    | (none, d) => d.bgResult path cxlResources 0
    | (some picks, d) =>
      let shared := decide (region = 1 ∧ tag ≠ 0)
      let recs : List DomainRec :=
        if shared then [⟨.shared, tag, [], picks.flatten, false⟩] else picks.map fun bs => ⟨.priv, 0, [], bs, false⟩
      match d.makeDomains recs [] with
      | (none, d) => d.bgResult path cxlResources 0
      | (some is, d) =>
        (begun d).offerAll p region tag true ext (if shared then counts.map fun _ => is.headD 0 else is) picks

/-! ### Meanings: Dynamic Capacity -/

/-- Initiate Dynamic Capacity Add (R53 to R56, Table PB-9 steps 1 to 6). -/
def execInitiateDynamicCapacityAdd (path : Path) (host : Fin 64) (region : Fin 2) (tag : BitVec 128)
    (extents : List (Nat × Nat)) (s : State) : Host.Outcome State Fault Refusal :=
  onDev s fun d => d.standard path opInitiateAdd fun d =>
    match d.addRefusal path host region tag.toNat extents with
    | some rc => d.finish path opInitiateAdd rc
    | none => (d.bgStart path opInitiateAdd).offer path host region tag.toNat ((asBlocks extents).getD [])

/-- The extent of a host, offered or held, that a first address and length name. -/
def Dev.findExtent (d : Dev) (p : Nat) (offered : Bool) (x : Nat × Nat) : Option Extent :=
  d.pool.extents.find? fun e => decide (e.port = p ∧ e.offered = offered ∧ e.first * 2 ^ 26 = x.1 ∧ e.count * 2 ^ 26 = x.2)

/-- The extents that a list names, each once; none where an extent is not found. -/
def Dev.namedExtents (d : Dev) (p : Nat) (offered : Bool) (l : List (Nat × Nat)) : Option (List Extent) :=
  let found := l.filterMap (d.findExtent p offered)
  if found.length = l.length ∧ found.Nodup then some found else none

/-- A host accepts an extent: its slots are VALID, its blocks BOUND, and the host holds the domain (step 8). -/
def Dev.acceptExtent (d : Dev) (e : Extent) : Dev :=
  let d := (d.extentSlots e).foldl (fun d i => d.updateSlot i fun x => { x with valid := true, validC := false }) d
  let d := e.blocks.foldl (fun d b => if (d.blockEntry b).state = 1 then d.updateBlock b fun x => x.withState 2 else d) d
  let d := match d.domain e.domain with
    | some r => d.setDomain e.domain { r with holders := if r.holders.contains e.port then r.holders else r.holders ++ [e.port] }
    | none => d
  { d with pool := { d.pool with
    extents := d.pool.extents.map (fun (x : Extent) => if x = e then { x with offered := false } else x)
    extentSeq := d.pool.extentSeq + 1 } }

/-- The extents that the host on port p has been offered. -/
def Dev.offersTo (d : Dev) (p : Nat) : List Extent := (d.extentsOf p).filter fun e => e.offered

/-- Add Dynamic Capacity Response (R55, Table PB-9 steps 7 to 10): an extent is accepted as a whole. -/
def execAddDynamicCapacityResponse (p : Fin 64) (accepted : List (Nat × Nat)) (s : State) :
    Host.Outcome State Fault Refusal :=
  onDev s fun d => d.standard (.pool p) opAddResponse fun d =>
    match d.namedExtents p true accepted with
    | none => d.finish (.pool p) opAddResponse cxlInvalidExtents
    | some es =>
      let d := es.foldl (fun d e => d.acceptExtent e) d
      let d := (d.offersTo p).foldl (fun d e => d.withdraw e true) d
      (d.dcSettle p).finish (.pool p) opAddResponse rcSuccess

/-- The offer timeout (R55): firmware withdraws every extent of the offer; nothing while it does not run (R17). -/
def execOfferTimeout (p : Fin 64) (s : State) : Host.Outcome State Fault Refusal :=
  onDev s fun d => if !d.fwRuns then d else ((d.offersTo p).foldl (fun d e => d.withdraw e true) d).dcSettle p

/-- Why a release is refused: Busy while the host or the path is busy (R53), Invalid Input for a port that is no HOST port,
Invalid Extent List where the host does not hold an extent. -/
def Dev.releaseRefusal (d : Dev) (path : Path) (p : Nat) (extents : List (Nat × Nat)) : Option Nat :=
  if d.dcBusy p || d.bgRunning path then some cxlBusy
  else if d.portMode p ≠ 1 then some cxlInvalidInput
  else if extents = [] ∨ d.namedExtents p false extents = none then some cxlInvalidExtents
  else none

/-- A release operation of a host begins. -/
def Dev.releaseBegins (d : Dev) (path : Path) (p : Nat) (es : List Extent) : Dev :=
  let op : DcOp := ⟨false, path, es.map fun e => (e.first, e.count), 0⟩
  { d with pool := { d.pool with dcOps := tset d.pool.dcOps p op } }

/-- Initiate Dynamic Capacity Release without the forced flag (Table PB-10 steps 1 and 2). -/
def execInitiateDynamicCapacityRelease (path : Path) (host : Fin 64) (extents : List (Nat × Nat)) (s : State) :
    Host.Outcome State Fault Refusal :=
  onDev s fun d => d.standard path opInitiateRelease fun d =>
    match d.releaseRefusal path host extents with
    | some rc => d.finish path opInitiateRelease rc
    | none =>
      let es := (d.namedExtents host false extents).getD []
      let d := (d.bgStart path opInitiateRelease).releaseBegins path host es
      es.foldl (fun d e => d.hostEvent host 4 1 (e.first * 2 ^ 26) (e.count * 2 ^ 26) e.tag) d

/-- Initiate Dynamic Capacity Release with the forced flag (R57): it does not wait for the host. -/
def execForcedRelease (path : Path) (host : Fin 64) (extents : List (Nat × Nat)) (s : State) :
    Host.Outcome State Fault Refusal :=
  onDev s fun d => d.standard path opInitiateRelease fun d =>
    match d.releaseRefusal path host extents with
    | some rc => d.finish path opInitiateRelease rc
    | none =>
      let es := (d.namedExtents host false extents).getD []
      let d := (d.bgStart path opInitiateRelease).releaseBegins path host []
      (es.foldl (fun d e => d.forceRelease e (.dc host.val)) d).dcSettle host

/-- A host releases an extent: what the release operation of that host waits for, or unprompted (Table PB-10 steps 3 to 6). -/
def Dev.hostReleases (d : Dev) (p : Nat) (e : Extent) : Dev :=
  let asked := ((tget d.pool.dcOps p).map fun o => o.extents.contains (e.first, e.count)).getD false
  if asked then
    ({ d with pool := { d.pool with dcOps := tmod d.pool.dcOps p fun (o : DcOp) =>
        { o with extents := o.extents.erase (e.first, e.count) } } }).releaseExtent e (.dc p)
  else d.releaseExtent e (.unprompted p (e.first * 2 ^ 26, e.count))

/-- Release Dynamic Capacity (Table PB-10 step 3). -/
def execReleaseDynamicCapacity (p : Fin 64) (extents : List (Nat × Nat)) (s : State) :
    Host.Outcome State Fault Refusal :=
  onDev s fun d => d.standard (.pool p) opReleaseDc fun d =>
    match d.namedExtents p false extents with
    | none => d.finish (.pool p) opReleaseDc cxlInvalidExtents
    | some es => ((es.foldl (fun d e => d.hostReleases p e) d).dcSettle p).finish (.pool p) opReleaseDc rcSuccess

/-! ### Meanings: the fence and keys -/

/-- Firmware does the forced work that has waited for it, and starts a fence batch (R59); nothing while it does not run (R17). -/
def execFenceStart (s : State) : Host.Outcome State Fault Refusal :=
  onDev s fun d => if d.fwRuns then d.forcedWork.fenceStart else d

/-- A fence step completes, and firmware begins the next step of Table PB-11 (R17). -/
def execFenceStepComplete (s : State) : Host.Outcome State Fault Refusal :=
  onDev s fun d => match d.pool.fence with
    | some f => if d.fwRuns then d.fenceNext f else d
    | none => d

/-- The key vault rekeys a SPENT slot, which becomes READY; none during a forced revocation, nor while the DRBG makes no
bits (R46, R47, R330). -/
def execKeySlotRekey (slot : Fin 4096) (s : State) : Host.Outcome State Fault Refusal :=
  onDev s fun d =>
    if slot.val ≠ 0 ∧ d.keySlot slot = .spent ∧ d.drbgOk ∧ d.pool.revoking = false ∧ d.domState domKeyv ≤ 2 then
      d.keyvRun.setKeySlot slot .ready
    else d

/-- KEYV loses power: every slot becomes SPENT, and the forced revocation runs (R50). -/
def Dev.keyvLost (d : Dev) : Dev := ((d.zeroizeKeys.wr .keyStatus 31 31 0).setDomState domKeyv 4).revoke

def execKeyvPowerLoss (s : State) : Host.Outcome State Fault Refusal := onDev s Dev.keyvLost

/-! ### Meanings: migration and resynchronisation -/

/-- The channel that firmware migrates with. -/
def Dev.migrationAgent (d : Dev) : Agent := dmvAgent (d.svc.fwChannels.headD 0)

/-- Copy one line of a migration: read through its home and written through the target's, decrypted under the source's tweak and
encrypted under the target's; false where a home or its ACU refuses (R18, R64). The bar on COHERENT 0 blocks does not hold for a migration
(DESIGN CHOICE, log entry 56). A line of a source that has been lost moves as poison. -/
def Dev.moveLine (d : Dev) (m : Migration) (i : Nat) : Bool × Dev :=
  let src := d.blockEntry m.source
  let dst := d.blockEntry m.target
  let line := m.source * 2 ^ 20 + i
  let new := m.target * 2 ^ 20 + i
  let req (l : Nat) (dom : DomainId) : HomeReq := ⟨0, d.migrationAgent, BitVec.ofNat 40 l, dom, 0, 0, false⟩
  if src.state = 5 then (true, d.putLine dst new 0 true)
  else
    match d.homeOutcome (sliceOf (granuleOf line)) (req line src.owner) ⟨true, false⟩ true true with
    | (.here _ e, d) =>
      match d.homeOutcome (sliceOf (granuleOf new)) (req new dst.owner) ⟨false, true⟩ true true with
      | (.here _ e', d) =>
        let ((v, bad), d) := d.fetchLine e line
        (true, d.putLine e' new v bad)
      | (_, d) => (false, d)
    | (_, d) => (false, d)

/-- Steps of a chunk up to the first that is refused. -/
def whileOk (l : List Nat) (f : Dev → Nat → Bool × Dev) (d : Dev) : Bool × Dev :=
  l.foldl (fun (r : Bool × Dev) i => if r.1 then f r.2 i else r) (true, d)

/-- The granules of the chunk at a migration's watermark. -/
def Migration.chunk (m : Migration) : List Nat :=
  (List.range 4).map fun k => granuleOf (m.source * 2 ^ 20 + m.watermark / 64) + k

/-- Take X on the granules of a chunk, unless its source has been lost, and copy its lines: whether no home refuses. -/
def Dev.copyChunk (d : Dev) (m : Migration) : Bool × Dev :=
  let (held, d) := if (d.blockEntry m.source).state = 5 then (true, d)
    else whileOk m.chunk (fun d g => d.holdX d.migrationAgent g true) d
  if held then whileOk ((List.range 64).map fun i => m.watermark / 64 + i) (fun d i => d.moveLine m i) d else (false, d)

/-- A 4 KiB chunk of a migration is copied: its lines are held in X, which back-invalidates every copy, and the watermark
advances by one chunk (R64). A chunk with a busy line, or one whose holders have still to answer, waits; a chunk that a home or its ACU
refuses is not copied. -/
def execMigrationChunkCopied (block : BitVec 20) (s : State) : Host.Outcome State Fault Refusal :=
  onAccess s fun d =>
    match d.migrationOf block.toNat with
    | none => d
    | some m =>
      if !d.fwRuns || d.safe || decide (2 ^ 26 ≤ m.watermark) then d
      else
        let (ok, d) := d.copyChunk m
        let d := match agentHolder d.migrationAgent with
          | some h => m.chunk.foldl (fun d g => d.releaseX h g) d
          | none => d
        if ok then
          d.modHub fun h => { h with migrations := h.migrations.map fun (x : Migration) =>
            if x.source = m.source then { x with watermark := x.watermark + 4096 } else x }
        else d

/-- A block number replaced in a list. -/
def replaceBlock (old new : Nat) (l : List Nat) : List Nat := l.map fun b => if b = old then new else b

/-- The records of firmware name a migration's target where they named its source. -/
def Dev.renameBlock (d : Dev) (old new : Nat) : Dev :=
  let extents := d.pool.extents.map fun (e : Extent) => { e with blocks := replaceBlock old new e.blocks }
  let domains := d.pool.domains.map fun (x : Nat × DomainRec) => (x.1, { x.2 with blocks := replaceBlock old new x.2.blocks })
  let queue := d.pool.fenceQueue.map fun (r : FenceRec) => { r with blocks := replaceBlock old new r.blocks }
  { d with pool := { d.pool with extents := extents, domains := domains, fenceQueue := queue } }

/-- The watermark has reached 64 MiB: every slot points at the target, and a block fence frees the source (R64). -/
def execMigrationComplete (block : BitVec 20) (s : State) : Host.Outcome State Fault Refusal :=
  onDev s fun d =>
    match d.migrationOf block.toNat with
    | none => d
    | some m =>
      let fences := d.pool.fenceQueue ++ ((d.pool.fence.map (·.recs)).getD [])
      if d.fwRuns = false ∨ m.watermark < 2 ^ 26 ∨ (fences.any fun r => decide (r.after = .migrated m.source)) then d
      else
        let slots := ((d.pool.slots.a ++ d.pool.slots.b).map (·.1)).dedup.filter fun i =>
          decide ((d.slotEntry i).block.toNat = m.source ∧ (d.slotEntry i).domain = (d.blockEntry m.source).owner)
        let d := slots.foldl (fun d i => d.updateSlot i fun e =>
          { e with block := BitVec.ofNat 20 m.target, blockC := ~~~(BitVec.ofNat 20 m.target) }) d
        (d.renameBlock m.source m.target).queueFence true [m.source] [] [] 0 (.migrated m.source)

/-- Every mirror copy of a resynchronisation has completed: the copy holds every line of every block that must survive, and no
repair entry names it any more (R35, R36). -/
def execResyncComplete (setNo : Fin 64) (way : Fin 16) (copy : Fin 2) (s : State) : Host.Outcome State Fault Refusal :=
  onDev s fun d =>
    match d.setDesc? setNo with
    | none => d
    | some sd =>
      if d.safe || !sd.mirrored || !sd.resync way copy || !sd.ok way (1 - copy.val) then d
      else
        let port (c : Nat) : Nat := if c = 0 then sd.member.getD way 0 else sd.mirror.getD way 0
        let live := (sd.blocks.filter fun b =>
          decide (1 ≤ (d.blockEntry b).state.toNat ∧ (d.blockEntry b).state.toNat ≤ 4)).map fun b => (d.blockEntry b).setIndex.toNat
        let ours (p : Nat) (x : Nat × Stored) : Bool :=
          decide (x.1 / 2 ^ 58 = p) && live.contains (x.1 % 2 ^ 58 * 64 * 2 ^ sd.ways / 2 ^ 26)
        let good := d.pool.mem.filter (ours (port (1 - copy.val)))
        let mem := good.foldl (fun m x => memPut m (port copy * 2 ^ 58 + x.1 % 2 ^ 58) x.2)
          (d.pool.mem.filter fun x => !ours (port copy) x)
        let d := { d with pool := { d.pool with mem := mem } }
        let others (r : RepairEntry) : Bool := !decide (r.set = setNo.val ∧ r.way = way.val ∧ r.copy = copy.val)
        let d := d.modHub fun h => { h with repair := h.repair.filter others }
        d.modSet setNo fun x => x.withCopy way copy true false

/-! ### Meanings: block commands -/

/-- BLOCK_QUERY (R294). -/
def execBlockQuery (path : Path) (input : List Byte) (s : State) : Host.Outcome State Fault Refusal :=
  onDev s fun d =>
    let b := field input 0 4
    d.stoluo path 0xC010 false (decide (input.length = 4 ∧ b < 2 ^ 20)) fun d =>
      let (_, d) := d.readBlock b
      let e := d.blockEntry b
      d.complete path 0xC010 rcSuccess 0
        (toBytes 2 e.owner.toNat ++ toBytes 1 e.state.toNat ++
          toBytes 1 ((if e.remote then 1 else 0) + (if e.coherent then 2 else 0)) ++
          toBytes 4 (if e.remote then 0 else e.set.toNat) ++
          toBytes 4 (if e.remote then e.remoteBlock.toNat else e.setIndex.toNat) ++
          toBytes 2 (if e.remote then e.homeDev.toNat else 0) ++ toBytes 2 (if e.remote then e.remoteDomain.toNat else 0))

/-- BLOCK_MIGRATE (R63, R64, R294). -/
def execBlockMigrate (path : Path) (input : List Byte) (s : State) : Host.Outcome State Fault Refusal :=
  onDev s fun d =>
    let b := field input 0 4
    let t := field input 4 1
    d.stoluo path 0xC011 false
        (decide (input.length = 8 ∧ b < 2 ^ 20 ∧ (t < 64 ∨ t = 0xFF) ∧ field input 5 3 = 0)) fun d =>
      if !d.mayMigrate b then d.finish path 0xC011 rcConflict
      else if 16 ≤ d.hub.migrations.length ∨ d.bgRunning path then d.finish path 0xC011 rcBusy
      else
        let sets := if t = 0xFF then d.setNumbers.filter fun i => !decide (i = (d.blockEntry b).set.toNat) else [t]
        match d.pickBlocks sets 1 [] with
        | (some [target], d) => (d.bgStart path 0xC011).startMigration b target (some path)
        | (_, d) => d.finish path 0xC011 rcNoResource

/-! ### Meanings: exports (R65, R67, R295) -/

/-- Whether a device lies in a neighbour slot with COH 1. -/
def Dev.coherentPeer (d : Dev) (dev : Nat) : Bool :=
  match d.slotOf dev with
  | some n => d.slotCoh n
  | none => false

/-- Whether a device has a route, and for a coherent export a coherent one (R267). -/
def Dev.hasRoute (d : Dev) (dev : Nat) (coherent : Bool) : Bool :=
  (d.routeSlot (msgHead 0x31 d.devId dev 0 0 0 false 0 false 0)).isSome &&
    (!coherent || (d.routeSlot (msgHead 0x01 d.devId dev 0 0 0 false 0 false 0)).isSome)

/-- EXPORT_IDs that name no export and no export being created. -/
def Dev.exportIds (d : Dev) : List Nat :=
  ((List.range 4095).map fun i => i + 1).filter fun i =>
    (d.hub.exports.all fun x => !decide (x.id = i)) && d.fab.requests.all fun r => !decide (r.mtype = 5 ∧ r.exportId = i)

/-- FREE blocks that an export may take. -/
def Dev.exportable (d : Dev) (set : Nat) : List Nat :=
  (if set = 0xFF then d.setNumbers else [set]).flatMap fun i => d.freeBlocks i

/-- EXPORT_CREATE up to its notice (R65 step 1). -/
def execExportCreate (path : Path) (input : List Byte) (s : State) : Host.Outcome State Fault Refusal :=
  onDev s fun d =>
    let dev := field input 0 2
    let coh := decide (field input 2 1 = 1)
    let set := field input 3 1
    let n := field input 4 2
    d.stoluo path 0xC012 false
        (decide (input.length = 8 ∧ dev < 2048 ∧ field input 2 1 ≤ 1 ∧ 1 ≤ n ∧ n ≤ 1016 ∧ field input 6 2 = 0)) fun d =>
      let setOk := decide (set = 0xFF) || ((d.setDesc? set).map fun x => x.inService).getD false
      if (coh && !d.coherentPeer dev) || !setOk then d.finish path 0xC012 rcInvalid
      else if !d.hasRoute dev coh then d.finish path 0xC012 rcConflict
      else
        let creating := (d.fab.requests.filter fun r => decide (r.mtype = 5)).length
        let free := d.exportable set
        if free.length < n ∨ d.readyDomains.length ≤ creating ∨ 256 ≤ d.hub.exports.length + creating then
          d.finish path 0xC012 rcNoResource
        else
          let (k, d) := d.openNat
          match d.choose d.exportIds with
          | (some id, d) =>
            d.mgmtRequest ⟨0, BitVec.ofNat 11 dev, 5, id, 0, coh, (free.rotate k).take n, some path, 0⟩
          | (none, d) => d.finish path 0xC012 rcNoResource

/-- A block list of a command output, 4 B each. -/
def blockBytes (bs : List Nat) : List Byte := bs.flatMap fun b => toBytes 4 b

/-- The importer has answered: the home creates the domain, writes the blocks and the record, and EXPORT_CREATE completes
(R65 steps 2 and 3). -/
def execExportNoticeAck (src : DeviceId) (tag : BitVec 16) (_exportId : BitVec 12) (status : Fin 3) (s : State) :
    Host.Outcome State Fault Refusal :=
  onDev s fun d =>
    match d.takeRequest src tag.toNat 5 with
    | none => d
    | some (r, d) =>
      let path := r.path.getD .fm
      if status.val ≠ 0 then d.finish path 0xC012 rcConflict
      else if r.blocks.any fun b => decide ((d.blockEntry b).state ≠ 0) then d.finish path 0xC012 rcNoResource
      else
        match d.createDomain ⟨.exported, 0, [], r.blocks, false⟩ with
        | (none, d) => d.finish path 0xC012 rcNoResource
        | (some dom, d) =>
          let d := r.blocks.foldl (fun d b => d.updateBlock b (d.allotted b dom 2 r.coherent)) d
          let x : ExportRec := ⟨r.exportId, src, dom, r.coherent, false, false, r.blocks⟩
          (d.modHub fun h => { h with exports := h.exports ++ [x] }).complete path 0xC012 rcSuccess 0
            (toBytes 2 r.exportId ++ toBytes 2 dom ++ toBytes 2 r.blocks.length ++ toBytes 2 0 ++ blockBytes r.blocks)

/-- The request of a kind with a tag, which is no longer waited for. -/
def Dev.expireRequest (d : Dev) (tag mtype : Nat) : Option (MgmtReq × Dev) :=
  match d.fab.requests.find? fun r => decide (r.tag = tag ∧ r.mtype = mtype) with
  | some r => d.takeRequest r.dev tag mtype
  | none => none

/-- No answer to EXPORT_NOTICE within 10 ms (R65). -/
def execExportNoticeWaitExpiry (tag : BitVec 16) (s : State) : Host.Outcome State Fault Refusal :=
  onDev s fun d => match d.expireRequest tag.toNat 5 with
    | some (r, d) => d.finish (r.path.getD .fm) 0xC012 rcTimeout
    | none => d

/-- EXPORT_RELEASE: the export is RELEASING; a mapped one waits for IMPORT_UNMAPPED, the others are fenced (R67). -/
def execExportRelease (path : Path) (input : List Byte) (s : State) : Host.Outcome State Fault Refusal :=
  onDev s fun d =>
    let id := field input 0 2
    d.stoluo path 0xC013 false (decide (input.length = 4 ∧ field input 2 2 = 0)) fun d =>
      match d.hub.exports.find? fun x => decide (x.id = id) with
      | none => d.finish path 0xC013 rcNotFound
      | some x =>
        if x.releasing then d.finish path 0xC013 rcConflict
        else d.background path 0xC013 fun d =>
          let d := d.modHub fun h => { h with exports := h.exports.map fun (y : ExportRec) =>
            if y.id = id then { y with releasing := true } else y }
          if x.mapped then d.mgmtRequest ⟨0, x.importer, 3, id, x.domain, x.coherent, [], some path, 0⟩
          else d.fenceExport id (some path) false

/-- The importer has unmapped, or holds no such import: the block fence of the release runs (R67). -/
def execImportUnmapped (src : DeviceId) (tag : BitVec 16) (_exportId : BitVec 12) (_status : Fin 3) (s : State) :
    Host.Outcome State Fault Refusal :=
  onDev s fun d => match d.takeRequest src tag.toNat 3 with
    | some (r, d) => d.fenceExport r.exportId r.path false
    | none => d

/-- No IMPORT_UNMAPPED within 1 s: the home releases the export without it (R67). -/
def execImportUnmappedWaitExpiry (tag : BitVec 16) (s : State) : Host.Outcome State Fault Refusal :=
  onDev s fun d => match d.expireRequest tag.toNat 3 with
    | some (r, d) => d.fenceExport r.exportId r.path true
    | none => d

/-- Change the export with an EXPORT_ID. -/
def Dev.modExport (d : Dev) (id : Nat) (f : ExportRec → ExportRec) : Dev :=
  d.modHub fun h => { h with exports := h.exports.map fun (x : ExportRec) => if x.id = id then f x else x }

/-- Whether two lists name the same blocks, in whatever order (R66; DEDUCED, log entry 42: the rule names the blocks, not their order). -/
def sameBlocks (a b : List Nat) : Bool := decide (a.length = b.length) && a.all b.contains && b.all a.contains

/-- IMPORT_BIND at the home (R66): accepted only where an OPEN export with that EXPORT_ID names the importer, the domain, the
coherence and exactly those blocks. -/
def execImportBind (src : DeviceId) (tag : BitVec 16) (exportId domain : BitVec 12) (coherent : Bool) (blocks : List Nat)
    (s : State) : Host.Outcome State Fault Refusal :=
  onDev s fun d =>
    let id := exportId.toNat
    match d.answeredBefore src tag.toNat 2 with
    | some st => d.mgmtAnswer src tag.toNat 2 id st
    | none =>
      match d.hub.exports.find? fun x => decide (x.id = id) with
      | none => d.mgmtAnswer src tag.toNat 2 id 2
      | some x =>
        if x.releasing = false ∧ x.importer = src ∧ x.domain = domain.toNat ∧ x.coherent = coherent ∧ sameBlocks x.blocks blocks then
          (d.modExport id fun x => { x with mapped := true }).mgmtAnswer src tag.toNat 2 id 0
        else d.mgmtAnswer src tag.toNat 2 id 1

/-- IMPORT_DROPPED at the home: MAPPED becomes 0 (R67). -/
def execImportDropped (src : DeviceId) (tag : BitVec 16) (exportId : BitVec 12) (s : State) :
    Host.Outcome State Fault Refusal :=
  onDev s fun d =>
    let id := exportId.toNat
    match d.answeredBefore src tag.toNat 8 with
    | some st => d.mgmtAnswer src tag.toNat 8 id st
    | none =>
      if d.hub.exports.any fun x => decide (x.id = id ∧ x.importer = src) then
        (d.modExport id fun x => { x with mapped := false }).mgmtAnswer src tag.toNat 8 id 0
      else d.mgmtAnswer src tag.toNat 8 id 2

/-! ### Meanings: imports (R66, R67, R295) -/

/-- Whether a block number lies in an interleave set, or in a REMOTE entry that an import uses. -/
def Dev.numberUsed (d : Dev) (b : Nat) : Bool :=
  (d.hub.sets.any fun s => s.2.valid && decide (s.2.first ≤ b ∧ b < s.2.first + s.2.count)) ||
    d.hub.imports.any fun i => i.blocks.any fun x => decide (x.2 = b)

/-- The n lowest unused block numbers from b on, looking at up to fuel numbers. -/
def Dev.freeNumbers (d : Dev) : Nat → Nat → Nat → List Nat
  | 0, _, _ => []
  | fuel + 1, b, n =>
    if n = 0 then [] else if d.numberUsed b then d.freeNumbers fuel (b + 1) n else b :: d.freeNumbers fuel (b + 1) (n - 1)

/-- The local block numbers of an import: the home's own for a coherent one, else the lowest free ones (R66). -/
def Dev.localNumbers (d : Dev) (coherent : Bool) (blocks : List Nat) : List Nat :=
  if coherent then blocks else d.freeNumbers (2 ^ 20) 0 blocks.length

/-- Why a REMOTE_MAP fails beside its answer (R295). -/
def Dev.mapRefusal (d : Dev) (home : DeviceId) (id : Nat) (coherent : Bool) (tag : Nat) (blocks : List Nat) : Option Nat :=
  if (d.hub.imports.any fun i => decide (i.homeDev = home ∧ i.exportId = id)) ||
      (decide (tag ≠ 0) && ((d.tagDomain tag).isSome || d.hub.imports.any fun i => decide (i.tag = tag))) ||
      (coherent && blocks.any d.numberUsed) then some rcConflict
  else if d.readyDomains.isEmpty || decide ((d.localNumbers coherent blocks).length < blocks.length) ||
      decide (256 ≤ d.hub.imports.length) then some rcNoResource
  else none

/-- The block list of a REMOTE_MAP payload. -/
def mapBlocks (input : List Byte) : List Nat := (List.range (field input 24 2)).map fun i => field input (32 + 4 * i) 4

/-- REMOTE_MAP up to its IMPORT_BIND (R66). -/
def execRemoteMap (path : Path) (input : List Byte) (s : State) : Host.Outcome State Fault Refusal :=
  onDev s fun d =>
    let home := field input 0 2
    let id := field input 2 2
    let dom := field input 4 2
    let coh := decide (field input 6 1 = 1)
    let n := field input 24 2
    let blocks := mapBlocks input
    d.stoluo path 0xC014 false
        (decide (home < 2048 ∧ id < 4096 ∧ dom < 4096 ∧ field input 6 1 ≤ 1 ∧ field input 7 1 = 0 ∧ field input 26 6 = 0 ∧
          1 ≤ n ∧ n ≤ 1016 ∧ input.length = 32 + 4 * n) && blocks.all fun b => decide (b < 2 ^ 20)) fun d =>
      let dev : DeviceId := BitVec.ofNat 11 home
      if coh && !d.coherentPeer home then d.finish path 0xC014 rcInvalid
      else if d.fab.requests.any fun r => decide (r.mtype = 1 ∧ r.dev = dev ∧ r.exportId = id) then d.finish path 0xC014 rcBusy
      else
        match d.mapRefusal dev id coh (field input 8 16) blocks with
        | some rc => d.finish path 0xC014 rc
        | none => d.mgmtRequest ⟨0, dev, 1, id, dom, coh, blocks, some path, field input 8 16⟩

/-- The home has accepted: the importer takes a proxy domain without a key and writes its REMOTE entries and its record (R66). -/
def Dev.importBegins (d : Dev) (r : MgmtReq) (proxy : Nat) (nums : List Nat) : Dev :=
  let pairs := r.blocks.zip nums
  let d := pairs.foldl (fun d x =>
    (d.writeBlock x.2 (mkBlock proxy 2 true r.coherent 0 0 r.dev.toNat x.1 r.domain)).invalidateBlock x.2) d
  let i : ImportRec := ⟨r.dev, r.exportId, r.domain, proxy, r.coherent, r.tagBytes, pairs, []⟩
  let d := d.modHub fun h => { h with imports := h.imports ++ [i] }
  d.setDomain proxy ⟨.proxy, r.tagBytes, [], nums, false⟩

/-- The home's answer to IMPORT_BIND (R66, R295). An import that can no longer be made is dropped at the home again. -/
def execImportBindAck (src : DeviceId) (tag : BitVec 16) (_exportId : BitVec 12) (status : Fin 3) (s : State) :
    Host.Outcome State Fault Refusal :=
  onDev s fun d =>
    match d.takeRequest src tag.toNat 1 with
    | none => d
    | some (r, d) =>
      let path := r.path.getD .fm
      if status.val ≠ 0 then d.complete path 0xC014 rcNotFound status.val []
      else
        match d.mapRefusal r.dev r.exportId r.coherent r.tagBytes r.blocks, d.readyDomains.head? with
        | none, some proxy =>
          let nums := d.localNumbers r.coherent r.blocks
          (d.importBegins r proxy nums).complete path 0xC014 rcSuccess 0 (toBytes 2 proxy ++ toBytes 2 0 ++ blockBytes nums)
        | rc, _ =>
          (d.mgmtRequest ⟨0, r.dev, 7, r.exportId, r.domain, r.coherent, [], none, 0⟩).finish path 0xC014 (rc.getD rcNoResource)

/-- No answer to IMPORT_BIND within 10 ms (R66). -/
def execImportBindWaitExpiry (tag : BitVec 16) (s : State) : Host.Outcome State Fault Refusal :=
  onDev s fun d => match d.expireRequest tag.toNat 1 with
    | some (r, d) => d.finish (r.path.getD .fm) 0xC014 rcTimeout
    | none => d

/-- The import from a home with an EXPORT_ID. -/
def Dev.findImport (d : Dev) (home : DeviceId) (id : Nat) : Option ImportRec :=
  d.hub.imports.find? fun i => decide (i.homeDev = home ∧ i.exportId = id)

/-- REMOTE_UNMAP (R67, R295). -/
def execRemoteUnmap (path : Path) (input : List Byte) (s : State) : Host.Outcome State Fault Refusal :=
  onDev s fun d =>
    d.stoluo path 0xC015 false (decide (input.length = 4 ∧ field input 0 2 < 2048)) fun d =>
      match d.findImport (BitVec.ofNat 11 (field input 0 2)) (field input 2 2) with
      | none => d.finish path 0xC015 rcNotFound
      | some i =>
        if i.ending ≠ [] then d.finish path 0xC015 rcBusy
        else d.background path 0xC015 fun d => d.endImport i (.unmap path)

/-- IMPORT_UNMAP_REQUEST at the importer: the import ends, and then the answer goes; without such an import it goes at once with
STATUS 2 (R67). -/
def execImportUnmapRequest (src : DeviceId) (tag : BitVec 16) (exportId : BitVec 12) (s : State) :
    Host.Outcome State Fault Refusal :=
  onDev s fun d =>
    let id := exportId.toNat
    match d.answeredBefore src tag.toNat 4 with
    | some st => d.mgmtAnswer src tag.toNat 4 id st
    | none =>
      match d.findImport src id with
      | none => d.mgmtAnswer src tag.toNat 4 id 2
      | some i => if i.ending.contains (.request tag.toNat) then d else d.endImport i (.request tag.toNat)

/-- EXPORT_NOTICE at the importer: every import from that home that names one of the blocks is stale and ends; the answer goes
once none remains (R67). -/
def execExportNotice (src : DeviceId) (tag : BitVec 16) (exportId _domain : BitVec 12) (_coherent : Bool) (blocks : List Nat)
    (s : State) : Host.Outcome State Fault Refusal :=
  onDev s fun d =>
    match d.answeredBefore src tag.toNat 6 with
    | some st => d.mgmtAnswer src tag.toNat 6 exportId.toNat st
    | none =>
      if d.pool.notices.any fun n => decide (n.home = src ∧ n.tag = tag.toNat) then d
      else
        let stale := d.hub.imports.filter fun i => decide (i.homeDev = src) && i.blocks.any fun b => blocks.contains b.1
        let n : Notice := ⟨src, tag.toNat, exportId.toNat, blocks⟩
        let d := { d with pool := { d.pool with notices := d.pool.notices ++ [n] } }
        (stale.foldl (fun d i => d.endImport i .notice) d).answerNotices

/-- The answer to IMPORT_DROPPED (R278). -/
def execImportDroppedAck (src : DeviceId) (tag : BitVec 16) (_exportId : BitVec 12) (_status : Fin 3) (s : State) :
    Host.Outcome State Fault Refusal :=
  onDev s fun d => match d.takeRequest src tag.toNat 7 with
    | some (_, d) => d
    | none => d

end Sys2Proof.Machine
end

