-- ==== Sys2Proof/Machine/Discard.lean ====
section
/-! DEFINITION. How a message that the device discards completes (Table SW-6), by ageing, with a port or link that leaves service, or
with a lost quarter (R88, R109, R110, R119, R463). -/

namespace Sys2Proof.Machine

/-- The words of a message that came over a link. -/
def rawWords (bs : List Byte) : List Word := (List.range (bs.length / 8)).map fun i => BitVec.ofNat 64 (field bs (8 * i) 8)

/-- The agent whose request a message toward a home is. -/
def msgAgent (m : Msg) : Option Agent :=
  match m.kind, m.entity with
  | .agentAccess a, _ => some a
  | .neighbourRequest, .link s => some (.nbr 0 s (BitVec.ofNat 11 m.credit))
  | _, .port p => some (.host p)
  | _, _ => none

/-- Whether two agents are the same requester; a neighbour's is known by its link and its device. -/
def sameRequester : Agent → Agent → Bool
  | .nbr _ l s, .nbr _ l' s' => decide (l = l' ∧ s = s')
  | a, b => decide (a = b)

/-- A discarded request gives up any reservation it held, and the home grants the next one (R88). -/
def Dev.giveUp (d : Dev) (m : Msg) : Dev :=
  match m.dest, msgAgent m with
  | .home t, some a =>
    let grp := groupOf a
    let mine (r : Retried) : Bool := decide (r.req.txn = m.txn) && sameRequester r.req.agent a
    match (d.retriedList grp t).find? mine with
    | none => d
    | some r =>
      let g := granuleOf r.req.line.toNat
      let d := d.setRetried grp t ((d.retriedList grp t).filter fun r => !mine r)
      if !r.reserved then d
      else
        let drop (l : List (Nat × Nat)) : List (Nat × Nat) := l.filter fun x => !decide (x = (grp, m.txn))
        let d := d.modCt g fun e => { e with resv := drop e.resv }
        let d := { d with dir := { d.dir with victims := tmod d.dir.victims g fun v => { v with resv := drop v.resv } } }
        match d.ctEntry g with
        | some e => if e.state = .held ∧ e.group = grp ∧ e.req.txn = m.txn then d.retire g else d
        | none => d
  | _, _ => d

/-- A neighbour's request that came over link s is answered with NFAIL. -/
def Dev.failNeighbour (d : Dev) (s : Fin 16) (m : Msg) : Dev :=
  let ws := rawWords m.raw
  (d.endTxn (.nbr ⟨d.linkSlot s % 16, by omega⟩ s (BitVec.ofNat 11 (msgSrc ws))) m.txn).postOrDrop
    (nfailFor d.devId ws (if opReads (msgOp ws) then 1 else 2))

/-- The completion of Table SW-6. -/
def Dev.completeDiscarded (d : Dev) (m : Msg) : Dev :=
  let line := (m.paddr.getD 0) / 64
  match m.kind, m.entity with
  | .hostMemRead, .port p =>
    let req : HomeReq := ⟨m.txn, .host p, BitVec.ofNat 40 line, m.domain.getD 0, 0, 0, false⟩
    (d.replyData req 0 true 0 (d.lastWaitOf req) m.peakWaited).endTxn (.host p) m.txn
  | .hostMemWrite, .port p =>
    let req : HomeReq := ⟨m.txn, .host p, BitVec.ofNat 40 line, m.domain.getD 0, 0, 0, false⟩
    ((d.replyDone req (d.lastWaitOf req) m.peakWaited).endTxn (.host p) m.txn).report (16 * (p.val / 4) + 10) 2
      (m.paddr.getD 0 + 2 ^ 46 * p.val)
  | .ioNonPosted, .port p => d.emit (.ioCpl p m.txn 4 0)
  | .ioPosted, .port p => d.report (16 * (p.val / 4) + 10) 2 (2 ^ 46 * p.val)
  | .neighbourRequest, .link s => d.failNeighbour s m
  | .homeRead op, _ =>
    match d.dir.expOps.find? fun o => decide (o.op = op) with
    | some o => d.readEnds o .error
    | none => d
  | .homeWrite op, _ =>
    match d.dir.expOps.find? fun o => decide (o.op = op) with
    | some o => (d.writeFails o).settle (granuleOf o.line.toNat)
    | none => d
  | .other, _ =>
    match m.dest, m.cls with
    | .link _, .req => if msgSrc (rawWords m.raw) = d.devId then d.failForwarded (msgTag (rawWords m.raw)) else d
    | _, _ => d
  | .agentAccess a, _ => (d.emit (.accessError a m.txn)).endTxn a m.txn
  | _, _ => d

/-- Discard a message: it leaves the buffer, gives up its reservation and completes. -/
def Dev.discardMsg (d : Dev) (m : Msg) : Dev :=
  let d := { d with sw := { d.sw with blocked := d.sw.blocked.filter fun x => !decide (x.id = m.id) } }
  (((d.unstore m.id).giveUp m).emit (.discarded m.id)).completeDiscarded m

/-- A discard is counted in the performance monitor of the Tambour that holds the message's ingress entity (R119). -/
def Dev.discardCounted (d : Dev) (m : Msg) : Dev := (d.discardMsg m).count (entityPmu m.entity) (0x1030 + classCode m.cls) 1

/-- Every message queued for an egress that leaves service completes at once (R463). -/
def Dev.flushEgress (d : Dev) (e : Egress) : Dev :=
  ((d.sw.msgs ++ d.sw.blocked).filter fun m => decide (m.dest = e)).foldl (fun d m => d.discardMsg m) d

end Sys2Proof.Machine
end

