-- ==== Sys2Proof/Machine/Stitch.lean ====
section
/-! DEFINITION. The Stitch link: training, packets, acknowledgement and replay, credits, width, link death and takeover
(R224 to R261, R465). -/

namespace Sys2Proof.Machine

/-! ### A link's record -/

/-- STL.CFG.MODE. -/
def Dev.linkMode (d : Dev) (s : Nat) : Nat := d.rd (.stlCfg s) 31 30

def Dev.txMask (d : Dev) (s : Nat) : Nat := d.rd (.stlStatus s) 23 20
def Dev.rxMask (d : Dev) (s : Nat) : Nat := d.rd (.stlStatus s) 19 16

/-- The valid lane sets in the order a transmitter prefers them (R250). -/
def laneSets : List Nat := [0xF, 0x3, 0xC, 0x1, 0x2, 0x4, 0x8]

/-- The first valid set inside a mask; 0 where there is none. -/
def laneSetIn (mask : Nat) : Nat := (laneSets.find? fun m => m &&& mask = m).getD 0

/-- GLB.NBR(n).LIVE follows whether link s is ACTIVE (Table MF-12). -/
def Dev.setLive (d : Dev) (s : Nat) (live : Bool) : Dev :=
  (List.range 16).foldl
    (fun d n => if (d.bundle n).contains s then d.wr (.nbr n) s s (if live then 1 else 0) else d) d

/-- Enter a link state; REASON is kept for the last entry to DOWN or FAILED (Table ST-14). -/
def Dev.enterLink (d : Dev) (s st : Nat) : Dev := (d.wr (.stlStatus s) 31 28 st).setLive s (decide (st = 2))

def Dev.setReason (d : Dev) (s r : Nat) : Dev := d.wr (.stlStatus s) 27 24 r

/-! ### Training (R235 to R237) -/

/-- PRE, MAIN and POST of a preset (Table ST-1). -/
def presetEq (p : Nat) : Nat × Nat × Nat :=
  match p with
  | 0 => (0, 63, 0)
  | 1 => (0, 55, 8)
  | 2 => (0, 49, 14)
  | 3 => (0, 43, 20)
  | 4 => (4, 51, 8)
  | 5 => (4, 45, 14)
  | 6 => (6, 39, 18)
  | _ => (8, 33, 22)

/-- Whether an equaliser setting obeys R228. -/
def eqOk (pre main post : Nat) : Bool := decide (pre + main + post = 63 ∧ pre ≤ 15 ∧ post ≤ 31 ∧ 24 ≤ main)

def Dev.setEq (d : Dev) (s lane : Nat) (e : Nat × Nat × Nat) : Dev :=
  d.setReg (.txeq s lane) (BitVec.ofNat 64 (e.1 * 2 ^ 12 + e.2.1 * 2 ^ 6 + e.2.2))

/-- Mark lanes shed or not in LANE_STATUS and WIDTH_CTL.SHED, from the record's two masks. -/
def Dev.showShed (d : Dev) (s : Nat) : Dev :=
  let r := d.lrec s
  let shed := r.txShed ||| r.rxShed
  (List.range 4).foldl (fun d i => d.wr (.laneStatus s i) 60 60 (if bit shed i then 1 else 0)) (d.wr (.widthCtl s) 7 4 shed)

/-- Start a training attempt: DETECT on every lane from the starting preset; a retrain returns shed lanes (R228, R235,
R236, R252). -/
def Dev.startAttempt (d : Dev) (s : Nat) : Dev :=
  let r := d.lrec s
  let d := d.modLink s fun r => { r with
    phase := 1, attempts := r.attempts + 1, locked := 0, ready := false
    txShed := 0, rxShed := 0, farMask := 15, ownMask := 15, adding := 0
    addingRx := 0, secondTry := false }
  let d := (d.enterLink s 1).wr (.stlStatus s) 15 15 (if r.slow then 1 else d.rd (.stlCfg s) 29 29)
  (List.range 4).foldl (fun d i => d.setEq s i (presetEq (d.rd (.stlCfg s) 26 24))) (d.showShed s)

/-- The reason of an attempt that ends in a phase for which Table ST-6 has no code: an open value (log entry 26). -/
def Dev.openReason (d : Dev) : Nat × Dev := let (n, d) := d.openNat; (n % 16, d)

/-- A training attempt fails: DOWN with a reason, and later attempts of the sequence at 53.125 Gb/s where FALLBACK says
so (R236). -/
def Dev.attemptFails (d : Dev) (s reason : Nat) : Dev :=
  let slow := d.bitOf (.stlCfg s) 28 && !d.bitOf (.stlStatus s) 15
  let d := d.modLink s fun r => { r with phase := 0, slow := r.slow || slow }
  ((d.enterLink s 3).setReason s reason).report (linkSource s 3) (openClass 236) reason

/-- An attempt fails in a phase without a code of its own. -/
def Dev.attemptFailsOpen (d : Dev) (s : Nat) : Dev := let (n, d) := d.openReason; d.attemptFails s n

/-- The credits that the receiver advertises at link-up: two for each cell reserved for the class (R113, R247). -/
def Dev.initialCredit (d : Dev) (s : Nat) : Four :=
  let c (hi lo : Nat) := min 1023 (2 * d.rd (.stlResv s) hi lo)
  ⟨c 63 48, c 47 32, c 31 16, c 15 0⟩

/-! ### Transmission, replay buffer, credits -/

/-- SEQ_STATUS follows the replay buffer (Table ST-21). -/
def Dev.showEntries (d : Dev) (s : Nat) : Dev :=
  let es := (d.lrec s).entries
  let bytes := (es.map fun e => 8 * (e.words.length + 1)).sum
  let oldest := match es.head? with
    | some e => e.seq
    | none => d.rd (.seqStatus s) 63 52
  ((d.wr (.seqStatus s) 51 40 oldest).wr (.seqStatus s) 27 17 es.length).wr (.seqStatus s) 16 0 bytes

def Dev.setEntries (d : Dev) (s : Nat) (es : List Entry) : Dev := (d.modLink s fun r => { r with entries := es }).showEntries s

/-- A Toll takes its TX_TIME at each transmission, and the device keeps the times of the last 4 periods (R272, R274). -/
def Dev.stamp (d : Dev) (s : Nat) (msg : List Word) : List Word × Dev :=
  if msgOp msg = 0x30 then
    let period := d.rd .tollCtl 15 0 * 1000
    let times := ((tgetD d.fab.tollTx s []).filter fun t => decide (d.now ≤ t + 4 * period)) ++ [d.now]
    (msg.set 2 (d.reg .ftime), { d with fab := { d.fab with tollTx := tset d.fab.tollTx s times } })
  else (msg, d)

/-- Put an entry's packet on the wire. -/
def Dev.transmit (d : Dev) (s : Nat) (e : Entry) : Dev :=
  let (msg, d) := d.stamp s e.words
  (d.emit (.packet s (packet e.cls e.seq msg))).count (linkPmu s) 0x8008 (msg.length + 1)

/-- Whether a new packet of LEN words may be sent now (R245, R247, R249). -/
def Dev.canSend (d : Dev) (s : Nat) (c : MsgClass) (len : Nat) : Bool :=
  let r := d.lrec s
  let held := d.rd (.seqStatus s) 16 0
  decide (r.entries.length < 1536) && decide (held + 8 * len ≤ 98304) &&
    decide (packetCost len ≤ (r.limit.get c + 2048 - r.spent.get c) % 2048)

/-- Send a new packet: the next SEQ, its credits spent once, a copy in the replay buffer (R242, R245, R248). -/
def Dev.sendNew (d : Dev) (s : Nat) (c : MsgClass) (msg : List Word) : Dev :=
  let seq := d.rd (.seqStatus s) 63 52
  let cost := packetCost (msg.length + 1)
  let d := d.modLink s fun r => { r with spent := r.spent.put c ((r.spent.get c + cost) % 2048) }
  let d := d.wr (.seqStatus s) 63 52 ((seq + 1) % 4096)
  let d := d.setEntries s ((d.lrec s).entries ++ [⟨seq, c, msg⟩])
  (d.transmit s ⟨seq, c, msg⟩).count (linkPmu s) (0x8000 + classCode c) 1

/-- Whether the neighbour of a link may be sent a message now: a DEAD slot takes only Toll, management and NFAIL, and
after a rejoin only Toll and management until a Toll with PEER_DEAD clear has arrived (R279). In the safe state only Tolls go
(Table FI-8). -/
def Dev.mayGo (d : Dev) (s : Nat) (op : Nat) : Bool :=
  let n := d.linkSlot s
  if d.safe then decide (op = 0x30)
  else if op = 0x30 ∨ op = 0x31 then true
  else if d.slotState n = 2 then decide (op = 0x25)
  else
    match tget d.fab.rejoins n with
    | some r => !r.waiting
    | none => true

/-- Send as much of a dead link's residue as credits allow, in order (R256). -/
def Dev.sendResidue (d : Dev) (s : Nat) : List (Nat × List Word) → Dev
  | [] => d.modLink s fun r => { r with residue := [] }
  | (dead, msg) :: rest =>
    match opClass (msgOp msg) with
    | some c =>
      if d.canSend s c (msg.length + 1) then
        Dev.sendResidue ((d.sendNew s c msg).count (linkPmu s) 0x8018 1) s rest
      else d.modLink s fun r => { r with residue := (dead, msg) :: rest }
    | none => Dev.sendResidue d s rest

/-- Send an ACK (R243). -/
def Dev.sendAck (d : Dev) (s : Nat) : Dev :=
  (d.modLink s fun r => { r with sinceAck := 0, ackDue := false }).sendBlock s
    (ackBlock ((d.rd (.seqStatus s) 39 28 + 4095) % 4096))

/-- Send a NAK (R244). -/
def Dev.sendNak (d : Dev) (s : Nat) : Dev :=
  ((d.sendBlock s (nakBlock ((d.rd (.seqStatus s) 39 28 + 4095) % 4096))).bumpWrap (.errCnt s) 47 32 1).count
    (linkPmu s) 0x800A 1

/-- Enter the discard state with a NAK (R240, R242). -/
def Dev.startDiscard (d : Dev) (s : Nat) : Dev := (d.modLink s fun r => { r with discarding := true }).sendNak s

/-- The entries that an ACK_SEQ acknowledges leave the replay buffer, by the window test of R243; whether any did. -/
def Dev.acknowledge (d : Dev) (s seq : Nat) : Dev × Bool :=
  let es := (d.lrec s).entries
  match es.head? with
  | none => (d, false)
  | some e =>
    let k := (seq + 4096 - e.seq) % 4096
    if k < es.length then
      ((d.setEntries s (es.drop (k + 1))).modLink s fun r => { r with lastReplay := none, replays := 0 }, true)
    else (d, false)

/-! ### Link death and takeover (R254 to R258) -/

/-- TAKEOVER for a dead link on a carrier. -/
def Dev.sendTakeover (d : Dev) (s : Nat) (t : Takeover) : Dev := d.sendBlock t.carrier (takeoverBlock s t.event t.lastAccepted)

/-- Complete a message that is lost with its link as Table SW-6 gives: this device's own request completes to its local
requester, a transit request is answered to its originator, anything else is dropped (R257, R270). -/
def Dev.loseMessage (d : Dev) (ws : List Word) : Dev :=
  if opClass (msgOp ws) = some .req then
    if msgSrc ws = d.devId then d.failForwarded (msgTag ws)
    else d.postOrDrop (nfailFor d.devId ws (if opReads (msgOp ws) then 1 else 2))
  else d

/-- No link of the bundle is left: every entry and residue of its dead links completes as discarded, so do the messages
queued for them, and the neighbour is declared dead (R257, R99). -/
def Dev.bundleLost (d : Dev) (n : Nat) : Dev :=
  let d := (d.bundle n).foldl
    (fun d s =>
      let r := d.lrec s
      let lost := (r.entries.map (·.words)) ++ r.residue.map (·.2)
      let d := (d.modLink s fun r => { r with residue := [], tko := none }).setEntries s []
      let d := lost.foldl (fun d ws => d.loseMessage ws) (d.wr (.stlStatus s) 14 14 0)
      let d := if h : s < 16 then d.flushEgress (.link ⟨s, h⟩) else d
      match r.resetBy with
      | some path => (d.modLink s fun r => { r with resetBy := none }).finish path 0xC058 rcSuccess
      | none => d) d
  if h : n < 16 then (if d.slotState n = 1 then d.declareDeath (.slot ⟨n, h⟩) 4 else d) else d

/-- The takeovers that a dead link carried restart on the next lowest-numbered ACTIVE link (R257). -/
def Dev.moveCarriers (d : Dev) (n s : Nat) : Dev :=
  match d.lowestActive n with
  | none => d
  | some c =>
    (d.bundle n).foldl
      (fun d r =>
        match (d.lrec r).tko with
        | some t =>
          if t.carrier = s then
            (d.modLink r fun x => { x with tko := some { t with carrier := c } }).sendTakeover r { t with carrier := c }
          else d
        | none => d) d

/-- An ACTIVE link stops: DOWN with a reason, the event counted and recorded, the receiver frozen (R254). -/
def Dev.linkStops (d : Dev) (s reason : Nat) : Dev :=
  let downs := (d.rd (.stlStatus s) 7 0 + 1) % 256
  let d := ((d.enterLink s 3).setReason s reason).wr (.stlStatus s) 7 0 downs
  let d := (d.wr (.stlStatus s) 23 16 0).report (linkSource s 2) (openClass 254) reason
  let d := d.fabricEvent 5 (det 148 s + det 144 reason + det 136 downs)
  let d := d.modLink s fun r => { r with frozen := true, phase := 0, adding := 0, addingRx := 0, discarding := false, extra := .zero }
  { d with fab := { d.fab with subst := if d.fab.subst.contains s then d.fab.subst else d.fab.subst ++ [s] } }

/-- A takeover of a dead link starts on its carrier, which takes its residue over (R255). -/
def Dev.startTakeover (d : Dev) (s c : Nat) : Dev :=
  let t : Takeover := ⟨d.rd (.stlStatus s) 7 0, (d.rd (.seqStatus s) 39 28 + 4095) % 4096, c, false⟩
  let moved := (d.lrec s).residue
  let d := (d.modLink s fun r => { r with tko := some t, residue := [] }).modLink c fun r =>
    { r with residue := r.residue ++ moved }
  (d.wr (.stlStatus s) 14 14 1).sendTakeover s t

/-- Declare an ACTIVE link dead: it stops, a takeover starts on the lowest-numbered ACTIVE link of the bundle, and where
there is none the bundle is lost (R254, R255, R257). -/
def Dev.linkDead (d : Dev) (s reason : Nat) : Dev :=
  if !d.active s then d
  else
    let n := d.linkSlot s
    let d := d.linkStops s reason
    match d.lowestActive n with
    | none => d.bundleLost n
    | some c => (d.startTakeover s c).moveCarriers n s

/-- A queued message takes another link, with its complement and its tags there (R109, R120, R463). -/
def Dev.moveQueued (d : Dev) (m : Msg) (c : Nat) : Dev :=
  if h : c < 16 then
    let e := Egress.link ⟨c, h⟩
    let (m, d) := d.tag { m with dest := e, destC := ~~~(BitVec.ofNat 8 (egressNumber e)) }
    { d with sw := { d.sw with msgs := d.sw.msgs.map fun x => if x.id = m.id then m else x } }
  else d

/-- A dead link's takeover is complete once the peer's TAKEOVER has arrived and its residue has been sent: its queued
messages take the carrier, and a reset that waited completes (R256, R315). -/
def Dev.takeoverEnd (d : Dev) (s : Nat) : Dev :=
  match (d.lrec s).tko with
  | some t =>
    if t.peerSeen && (d.lrec t.carrier).residue.all fun e => !decide (e.1 = s) then
      let by_ := (d.lrec s).resetBy
      let d := (d.modLink s fun r => { r with tko := none, resetBy := none }).setEntries s []
      let d := (d.wr (.stlStatus s) 14 14 0).report (linkSource s 2) (openClass 256) s
      let old := d.sw.msgs
      let d := (old.filter fun m => decide (m.dest = Egress.link ⟨s % 16, by omega⟩)).foldl (fun (d : Dev) m => d.moveQueued m t.carrier) d
      let d := (d.sw.msgs.filter fun m => match m.dest with
        | .link x => decide (x.val = t.carrier)
        | _ => false).foldl (fun (d : Dev) m => d.markHeads old m) d
      match by_ with
      | some path => d.finish path 0xC058 rcSuccess
      | none => d
    else d
  | none => d

/-- Send what residue a link can, and end the takeovers that this completes. -/
def Dev.drainResidue (d : Dev) (s : Nat) : Dev :=
  if (d.lrec s).residue.isEmpty then d
  else (d.bundle (d.linkSlot s)).foldl (fun d r => d.takeoverEnd r) (d.sendResidue s (d.lrec s).residue)

/-- The peer's TAKEOVER for one of this device's links: the first one acknowledges entries and moves the rest, in order,
to the carrier; Toll and Knell are dropped (R255, R256). -/
def Dev.takeoverIn (d : Dev) (carrier s event last : Nat) : Dev :=
  let d := d.linkDead s 7
  match (d.lrec s).tko with
  | some t =>
    if t.peerSeen then d.sendTakeover s t
    else
      let (d, _) := d.acknowledge s last
      let rest := ((d.lrec s).entries.map (·.words)).filter fun ws => !decide (msgOp ws = 0x30 ∨ msgOp ws = 0x1F)
      let d := d.modLink s fun r => { r with tko := some { t with peerSeen := true, carrier := carrier } }
      let d := (d.setEntries s []).modLink carrier fun r => { r with residue := r.residue ++ rest.map fun ws => (s, ws) }
      (d.sendResidue carrier (d.lrec carrier).residue).takeoverEnd s
  | none =>
    if d.linkState s = 3 then
      d.sendTakeover s ⟨event, (d.rd (.seqStatus s) 39 28 + 4095) % 4096, carrier, true⟩
    else d

/-! ### Replay (R244, R246) -/

/-- Resend every entry behind a REPLAY block; at REPLAY_LIMIT consecutive replays from one SEQ the link dies (R246). -/
def Dev.startReplay (d : Dev) (s : Nat) : Dev :=
  match (d.lrec s).entries.head? with
  | none => d
  | some e =>
    let same := match (d.lrec s).lastReplay with
      | some (q, _) => decide (q = e.seq)
      | none => false
    let n := if same then (d.lrec s).replays + 1 else 1
    let d := d.modLink s fun r => { r with lastReplay := some (e.seq, d.now), replays := n }
    let d := ((d.bumpWrap (.errCnt s) 31 16 1).count (linkPmu s) 0x800B 1).report (linkSource s 1) (openClass 244) e.seq
    let d := (d.sendBlock s (replayBlock e.seq)).sendBlock s alignBlock
    let d := (d.lrec s).entries.foldl (fun d e => d.transmit s e) d
    if d.rd (.linkCtl s) 3 0 ≤ n then d.linkDead s 4 else d

/-- Whether a replay from a SEQ has started within the last REPLAY_TO. -/
def Dev.replayedLately (d : Dev) (s seq : Nat) : Bool :=
  match (d.lrec s).lastReplay with
  | some (q, t) => decide (q = seq ∧ d.now < t + d.rd (.linkCtl s) 11 4 * 1000)
  | none => false

/-! ### Width (R250 to R253) -/

/-- The mask from which the transmitter may choose (R250). -/
def Dev.permitted (d : Dev) (s : Nat) : Nat :=
  let r := d.lrec s
  d.rd (.widthCtl s) 3 0 &&& r.farMask &&& (15 ^^^ (r.txShed &&& 15))

/-- Change the transmit set: WIDTH_SET on the old set, ALIGN on the new one (R251). -/
def Dev.setTx (d : Dev) (s mask : Nat) : Dev :=
  ((d.sendBlock s (widthSetBlock mask)).sendBlock s alignBlock).wr (.stlStatus s) 23 20 mask

/-- Follow the permitted mask: narrow at once, power up added lanes to widen, or declare the link dead (R250 to R252). -/
def Dev.applyWidth (d : Dev) (s : Nat) : Dev :=
  if !d.active s then d
  else
    let want := laneSetIn (d.permitted s)
    let cur := d.txMask s
    if want = 0 then d.linkDead s 5
    else if want = cur then d.modLink s fun r => { r with adding := 0 }
    else if want &&& cur = want then (d.setTx s want).modLink s fun r => { r with adding := 0 }
    else
      let now := laneSetIn (d.permitted s &&& cur)
      let d := if now = 0 ∨ now = cur then d else d.setTx s now
      d.modLink s fun r => { r with adding := want &&& (15 ^^^ cur) }

/-- The receiver sheds a lane and asks for the set without it; with no lane left the link is dead (R253, R250). -/
def Dev.shedRx (d : Dev) (s lane : Nat) : Dev :=
  let bitm := 2 ^ lane
  if bit (d.lrec s).rxShed lane then d
  else
    let d := (d.modLink s fun r => { r with
      rxShed := r.rxShed ||| bitm, ownMask := r.ownMask &&& (15 ^^^ bitm), addingRx := 0 }).showShed s
    let d := d.report (linkSource s 0) (openClass 253) lane
    if d.active s then
      let d := d.sendBlock s (widthReqBlock (d.lrec s).ownMask)
      if laneSetIn ((d.lrec s).ownMask &&& d.rxMask s) = 0 ∧ laneSetIn (d.lrec s).ownMask = 0 then d.linkDead s 5 else d
    else d

/-- A block error on a lane: counted, and the sixteenth within 1 ms sheds the lane (R234, R253). -/
def Dev.blockError (d : Dev) (s lane : Nat) : Dev :=
  let errs := ((d.lrec s).blockErrs.filter fun e => decide (d.now < e.2 + 1000000)) ++ [(lane, d.now)]
  let d := (d.bumpWrap (.laneStatus s lane) 47 24 1).modLink s fun r => { r with blockErrs := errs }
  let d := (d.count (linkPmu s) 0x800E 1).report (linkSource s 0) (openClass 234) lane
  if 16 ≤ (errs.filter fun e => decide (e.1 = lane)).length then d.shedRx s lane else d

/-! ### Commands on a link (R237) -/

/-- STL.LINK_CTL.DOWN and LINK_SET with ACTION 0. -/
def linkDown (s : Nat) (d : Dev) : Dev :=
  let st := d.linkState s
  if st = 0 ∨ st = 5 then d
  else
    let d := d.linkDead s 6
    let d := if d.linkState s = 3 then d.setReason s 6 else (d.enterLink s 3).setReason s 6
    d.modLink s fun r => { r with held := true, phase := 0 }

/-- STL.LINK_CTL.RETRAIN and LINK_SET with ACTION 1: a new retrain sequence, whose first attempt waits for a takeover
that still runs (Table ST-10, Table ST-15). -/
def linkRetrain (s : Nat) (d : Dev) : Dev :=
  let st := d.linkState s
  if st = 2 ∨ st = 3 ∨ st = 4 then
    let d := d.linkDead s 6
    let d := d.modLink s fun r => { r with held := false, attempts := 0, slow := false }
    if (d.lrec s).tko.isSome then d else d.startAttempt s
  else d

/-- A write of STL.WIDTH_CTL.TARGET; a value that is not a valid lane set is ignored (R250). -/
def widthTarget (s target : Nat) (d : Dev) : Dev :=
  if laneSets.contains target then (d.wr (.widthCtl s) 3 0 target).applyWidth s else d

/-! ### Meanings: training -/

/-- A training attempt of a DOWN link (R237). -/
def execStitchTrainingAttempt (s : Fin 16) (st : State) : Host.Outcome State Fault Refusal :=
  onDev st fun d => if d.linkState s = 3 ∧ ¬ (d.lrec s).held ∧ (d.lrec s).tko = none then d.startAttempt s else d

/-- DETECT ends with lanes locked, or fails with reason 1; on an ACTIVE link it is DETECT of added lanes (R235, R252). -/
def execDetectPhaseEnd (s : Fin 16) (locked : BitVec 4) (st : State) : Host.Outcome State Fault Refusal :=
  onDev st fun d =>
    if d.linkState s = 1 ∧ (d.lrec s).phase = 1 then
      if locked = 0 then d.attemptFails s 1 else d.modLink s fun r => { r with phase := 2, locked := locked.toNat }
    else if d.active s then
      d.modLink s fun r => { r with
        addingRx := locked.toNat &&& (15 ^^^ d.rxMask s) &&& (15 ^^^ (r.rxShed &&& 15)), secondTry := false }
    else d

def execFramePhaseEnd (s : Fin 16) (deskewed : Bool) (st : State) : Host.Outcome State Fault Refusal :=
  onDev st fun d =>
    if d.linkState s = 1 ∧ (d.lrec s).phase = 2 then
      if deskewed then d.modLink s fun r => { r with phase := 3 } else d.attemptFailsOpen s
    else if d.active s ∧ ¬ deskewed then d.modLink s fun r => { r with addingRx := 0 }
    else d

def execEqualisePhaseEnd (s : Fin 16) (peerReady : Bool) (st : State) : Host.Outcome State Fault Refusal :=
  onDev st fun d =>
    if d.linkState s = 1 ∧ (d.lrec s).phase = 3 then
      if peerReady then d.modLink s fun r => { r with phase := 4, ready := true }
      else d.attemptFailsOpen s
    else d

/-- Lanes of a mask whose PRBS31 errors in the window are at most QUAL_MAX. -/
def Dev.qualifying (d : Dev) (s mask : Nat) (errors : List Nat) : Nat :=
  (List.range 4).foldl
    (fun m i => if bit mask i ∧ errors.getD i 0 ≤ d.rd (.trainCtl s) 31 16 then m + 2 ^ i else m) 0

/-- LANE_STATUS takes the errors of the window and whether the lane qualified. -/
def Dev.showConfirm (d : Dev) (s mask q : Nat) (errors : List Nat) : Dev :=
  (List.range 4).foldl
    (fun d i =>
      if bit mask i then
        (d.wr (.laneStatus s i) 23 0 (min 0xFFFFFF (errors.getD i 0))).wr (.laneStatus s i) 61 61 (if bit q i then 1 else 0)
      else d) d

/-- The CONFIRM window ends (R235, R236); on an ACTIVE link it qualifies added lanes, with one second try (R252). -/
def execConfirmWindowEnd (s : Fin 16) (errors : List Nat) (peerQualified : BitVec 4) (st : State) :
    Host.Outcome State Fault Refusal :=
  onDev st fun d =>
    let r := d.lrec s
    if d.linkState s = 1 ∧ r.phase = 4 then
      let q := d.qualifying s r.locked errors
      let d := d.showConfirm s r.locked q errors
      if q = 0 ∨ peerQualified = 0 then d.attemptFails s 2
      else
        let d := d.modLink s fun r => { r with
          phase := 5, farMask := peerQualified.toNat, ownMask := q }
        let tx := laneSetIn (d.permitted s)
        let d := (d.wr (.stlStatus s) 23 20 tx).wr (.stlStatus s) 19 16 (laneSetIn q)
        if tx = 0 then d.attemptFails s 5
        else d.sendBlock s (linkupBlock d.devId s (d.rd (.stlStatus s) 15 15) tx (laneSetIn q))
    else if d.active s ∧ r.addingRx ≠ 0 then
      let q := d.qualifying s r.addingRx errors
      let d := d.showConfirm s r.addingRx q errors
      if q = r.addingRx then
        (d.modLink s fun r => { r with addingRx := 0, ownMask := r.ownMask ||| q }).sendBlock s (widthReadyBlock q)
      else if r.secondTry then d.modLink s fun r => { r with addingRx := 0 }
      else d.modLink s fun r => { r with secondTry := true }
    else d

/-- The setting that a request asks for (Table ST-4): 1 loads a preset, 2 to 5 move PRE or POST with MAIN adjusted. -/
def requestedEq (cur : Nat × Nat × Nat) (request preset : Nat) : Option (Nat × Nat × Nat) :=
  let (pre, main, post) := cur
  match request with
  | 0 => some cur
  | 1 => some (presetEq preset)
  | 2 => some (pre + 1, main - 1, post)
  | 3 => if pre = 0 then none else some (pre - 1, main + 1, post)
  | 4 => some (pre, main - 1, post + 1)
  | 5 => if post = 0 then none else some (pre, main + 1, post - 1)
  | _ => none

/-- A TRAIN request is applied and echoed 0, or refused with LIMIT and echoed 1 (R235); what a reserved request is
echoed with is open (log entry 27). -/
def execTrainRequestReceived (s : Fin 16) (lane : Fin 4) (request preset : Fin 8) (st : State) :
    Host.Outcome State Fault Refusal :=
  onDev st fun d =>
    if d.linkState s = 1 ∨ d.active s then
      let e := d.reg (.txeq s lane)
      let cur := (getBits e 17 12, getBits e 11 6, getBits e 5 0)
      let (next, echo, d) :=
        if 6 ≤ request.val then (cur, d.openNat.1 % 4, d.openNat.2)
        else match requestedEq cur request preset with
          | some n => if eqOk n.1 n.2.1 n.2.2 then (n, 0, d) else (cur, 1, d)
          | none => (cur, 1, d)
      let d := d.setEq s lane next
      let r := d.lrec s
      let phase := if r.phase ≤ 2 then 0 else if r.phase = 3 then 1 else if r.phase = 4 then 2 else 3
      d.sendBlock s (controlBlock 0x10 (phase * 2 ^ 54 + lane.val * 2 ^ 52 + next.1 * 2 ^ 39 + next.2.1 * 2 ^ 33 +
        next.2.2 * 2 ^ 27 + echo * 2 ^ 25 + r.ownMask % 16 * 2 ^ 21 + (if r.ready then 2 ^ 20 else 0)))
    else d

/-- The peer's LINKUP and initial CREDIT: a peer other than STL.CFG names fails the link with reason 3; otherwise the
link enters ACTIVE with every sequence number 0, and a slot in NONE enters ALIVE (R236, R237, R265). -/
def execLinkupReceived (s : Fin 16) (dev : DeviceId) (link : Fin 16) (limits : Four) (st : State) :
    Host.Outcome State Fault Refusal :=
  onDev st fun d =>
    if d.linkState s = 1 ∧ (d.lrec s).phase = 5 then
      if dev.toNat ≠ d.rd (.stlCfg s) 19 8 ∨ link.val ≠ d.rd (.stlCfg s) 7 4 then
        ((d.modLink s fun r => { r with phase := 0 }).enterLink s 4).setReason s 3 |>.report (linkSource s 3)
          (openClass 236) 3
      else
        let adv := d.initialCredit s
        let d := d.modLink s fun r => { r with
          phase := 0, attempts := 0, slow := false, discarding := false
          sinceAck := 0, ackDue := false, lastReplay := none, replays := 0, extra := .zero, limit := limits, spent := .zero, adv := adv
          sentAdv := adv, taken := .zero, frozen := false, blockErrs := [] }
        let d := ((d.setReg (.seqStatus s) 0).setEntries s []).enterLink s 2
        let d := d.sendCredit s
        let n := d.linkSlot s
        if d.slotValid n ∧ d.slotState n = 0 then d.setSlotState n 1 else d
    else d

def execLinkupPhaseTimeout (s : Fin 16) (st : State) : Host.Outcome State Fault Refusal :=
  onDev st fun d => if d.linkState s = 1 ∧ (d.lrec s).phase = 5 then d.attemptFailsOpen s else d

/-! ### Meanings: packets -/

/-- A message that has credits and replay-buffer room is sent with the next SEQ, after any residue (R242, R256, R279). -/
def execStitchPacketSend (s : Fin 16) (words : List Word) (st : State) : Host.Outcome State Fault Refusal :=
  onDev st fun d =>
    match opClass (msgOp words) with
    | some c =>
      if d.active s && (d.lrec s).residue.isEmpty && d.mayGo s (msgOp words) && d.canSend s c (words.length + 1) then
        d.sendNew s c words
      else d.count (linkPmu s) (0x8010 + classCode c) 1
    | none => d

/-- The mirror sessions see a message that a link delivers to a consumer of this device. -/
def Dev.linkTap (d : Dev) (s : Nat) (ws : List Word) : Dev :=
  if h : s < 16 then d.consumed (d.linkMsg d.sw.nextId ⟨s, h⟩ (.link ⟨s, h⟩) 0 0 ws) else d

/-- NRETRY and NGRANT tell whether a forwarded request waits at its home, in whose ingress it stays (R87; DEDUCED, log entry 74). -/
def Dev.noteRetry (d : Dev) (ws : List Word) : Dev :=
  if msgOp ws = 0x23 ∨ msgOp ws = 0x24 then
    { d with dir := { d.dir with proxyOut := tmod d.dir.proxyOut (msgTag ws) fun x => { x with retried := decide (msgOp ws = 0x23) } } }
  else d

/-- A packet with a good CRC and d = 0, backed by credit, is accepted: it counts toward the ACK; a reserved operation is
discarded and reported; a request of a DEAD neighbour other than management is answered with NFAIL; a request for this device
waits in the buffer for its home; another message goes to its consumer and its credits go back (R241, R242, R243, R248, R279). -/
def Dev.accept (d : Dev) (s : Nat) (c : MsgClass) (ws : List Word) : Dev :=
  let msg := ws.tail
  let cost := packetCost ws.length
  let seq := (d.rd (.seqStatus s) 39 28 + 1) % 4096
  let d := (d.wr (.seqStatus s) 39 28 seq).count (linkPmu s) (0x8004 + classCode c) 1
  let d := d.modLink s fun r => { r with
    taken := r.taken.put c ((r.taken.get c + cost) % 2048), sinceAck := r.sinceAck + 1 }
  let d := if d.rd (.linkCtl s) 29 24 + 1 ≤ (d.lrec s).sinceAck then d.sendAck s else d
  match opClass (msgOp msg) with
  | none => (d.report (linkSource s 1) 2 (msgOp msg)).returnCredit s c cost
  | some k =>
    if k = .req ∧ d.slotState (d.linkSlot s) = 2 then
      (d.postOrDrop (nfailFor d.devId msg 3)).returnCredit s c cost
    else
      let d := d.emit (.accepted s msg)
      if msgDst msg ≠ d.devId then d
      else if k = .req then d.bufferRequest s msg
      else ((d.linkTap s msg).noteRetry msg).returnCredit s c cost

/-- A received packet (R234, R240, R242, R465). -/
def execPacketReceived (s : Fin 16) (words : List Word) (blockError : Option (Fin 4)) (st : State) :
    Host.Outcome State Fault Refusal :=
  onDev st fun d =>
    if !d.active s || (d.lrec s).frozen then d
    else
      let d := match blockError with
        | some lane => d.blockError s lane
        | none => d
      if !d.active s || (d.lrec s).discarding then d
      else if blockError.isSome then d.startDiscard s
      else if !packetGood words then
        ((d.bumpWrap (.errCnt s) 63 48 1).count (linkPmu s) 0x8009 1).report (linkSource s 1) (openClass 240) 0
          |>.startDiscard s
      else
        let c := codeClass (getBits (word words 0) 63 62)
        let k := (getBits (word words 0) 55 44 + 4096 - d.rd (.seqStatus s) 39 28) % 4096
        let r := d.lrec s
        if k = 0 then
          if packetCost words.length ≤ (r.adv.get c + 2048 - r.taken.get c) % 2048 then d.accept s c words
          else (d.report (linkSource s 1) 2 0).startDiscard s
        else if 2048 ≤ k then
          ((d.bumpWrap (.errCnt s) 15 0 1).count (linkPmu s) 0x800C 1).modLink s fun r => { r with ackDue := true }
        else d.startDiscard s

/-- An ACK on a live link (R243); on a frozen one it is ignored (Table ST-10). -/
def execAckReceived (s : Fin 16) (seq : BitVec 12) (st : State) : Host.Outcome State Fault Refusal :=
  onDev st fun d => if d.active s then (d.acknowledge s seq.toNat).1.drainResidue s else d

/-- The ACK timer expires (R243). -/
def execAckTimerExpiry (s : Fin 16) (st : State) : Host.Outcome State Fault Refusal :=
  onDev st fun d => if d.active s ∧ ((d.lrec s).sinceAck ≠ 0 ∨ (d.lrec s).ackDue) then d.sendAck s else d

/-- A NAK acknowledges and then starts a replay, unless one from the same SEQ started within REPLAY_TO (R244). -/
def execNakReceived (s : Fin 16) (seq : BitVec 12) (st : State) : Host.Outcome State Fault Refusal :=
  onDev st fun d =>
    if d.active s then
      let d := (d.acknowledge s seq.toNat).1
      match (d.lrec s).entries.head? with
      | some e => if d.replayedLately s e.seq then d else d.startReplay s
      | none => d.drainResidue s
    else d

/-- A REPLAY block ends the discard state (R244). -/
def execReplayReceived (s : Fin 16) (_first : BitVec 12) (st : State) : Host.Outcome State Fault Refusal :=
  onDev st fun d => if d.active s then d.modLink s fun r => { r with discarding := false } else d

def execNakRepeatTimeout (s : Fin 16) (st : State) : Host.Outcome State Fault Refusal :=
  onDev st fun d => if d.active s ∧ (d.lrec s).discarding then d.sendNak s else d

/-- Nothing has been acknowledged for REPLAY_TO (R246). -/
def execReplayTimeout (s : Fin 16) (st : State) : Host.Outcome State Fault Refusal :=
  onDev st fun d => if d.active s then d.startReplay s else d

/-- A CREDIT block raises the limits (R247); on a frozen link it is ignored. -/
def execCreditReceived (s : Fin 16) (limits : Four) (st : State) : Host.Outcome State Fault Refusal :=
  onDev st fun d => if d.active s then (d.modLink s fun r => { r with limit := limits }).drainResidue s else d

def execCreditAdvertiseTimer (s : Fin 16) (st : State) : Host.Outcome State Fault Refusal :=
  onDev st fun d => if d.active s then classes.foldl (fun d c => d.advertiseMore s c) (d.sendCredit s) else d

/-! ### Meanings: width -/

/-- A WIDTH_REQ changes the permitted mask (R250). -/
def execWidthReqReceived (s : Fin 16) (mask : BitVec 4) (st : State) : Host.Outcome State Fault Refusal :=
  onDev st fun d => if d.active s then (d.modLink s fun r => { r with farMask := mask.toNat }).applyWidth s else d

/-- The receiver switches on a WIDTH_SET (R251). -/
def execWidthSetReceived (s : Fin 16) (mask : BitVec 4) (st : State) : Host.Outcome State Fault Refusal :=
  onDev st fun d => if d.active s ∧ laneSets.contains mask.toNat then d.wr (.stlStatus s) 19 16 mask.toNat else d

/-- The added lanes are ready: the transmitter changes to the set that they allow (R252). -/
def execWidthReadyReceived (s : Fin 16) (mask : BitVec 4) (st : State) : Host.Outcome State Fault Refusal :=
  onDev st fun d =>
    let add := (d.lrec s).adding &&& mask.toNat
    if d.active s ∧ add ≠ 0 then
      let want := laneSetIn (d.permitted s &&& (d.txMask s ||| add))
      let d := d.modLink s fun r => { r with adding := r.adding &&& (15 ^^^ add) }
      if want = 0 ∨ want = d.txMask s then d else d.setTx s want
    else d

/-- An added lane that has not qualified stays out of the set (R252). -/
def execWidenLaneTimeout (s : Fin 16) (st : State) : Host.Outcome State Fault Refusal :=
  onDev st fun d => d.modLink s fun r => { r with adding := 0, addingRx := 0 }

/-- Loss of signal, or of lock, on a lane: the lane is shed (R229, R253). -/
def execLaneSignalLoss (s : Fin 16) (lane : Fin 4) (signal : Bool) (st : State) : Host.Outcome State Fault Refusal :=
  onDev st fun d =>
    let b := if signal then 63 else 62
    let d := (d.wr (.laneStatus s lane) b b 1).report (linkSource s 0) (openClass 229) lane
    if d.active s then d.shedRx s lane else d

/-- An ALIGN row whose lanes differ from the current set gives the receiver its set (R251). -/
def execAlignRowReceived (s : Fin 16) (lanes : BitVec 4) (st : State) : Host.Outcome State Fault Refusal :=
  onDev st fun d => if d.active s ∧ laneSets.contains lanes.toNat then d.wr (.stlStatus s) 19 16 lanes.toNat else d

/-- A bad control block between packets: a block error, and the discard of R240 (R234). -/
def execControlBlockError (s : Fin 16) (lane : Fin 4) (st : State) : Host.Outcome State Fault Refusal :=
  onDev st fun d =>
    if d.active s then
      let d := d.blockError s lane
      if d.active s && !(d.lrec s).discarding then d.startDiscard s else d
    else d

def execWidthCtlWrite (s : Fin 16) (target : BitVec 4) (st : State) : Host.Outcome State Fault Refusal :=
  onDev st (widthTarget s target.toNat)

/-! ### Meanings: death, takeover, commands -/

def execLinkDeclaredDead (s : Fin 16) (reason : Fin 16) (st : State) : Host.Outcome State Fault Refusal :=
  onDev st fun d => d.linkDead s reason

/-- The link that a TAKEOVER names: the one of the carrier's bundle whose PEER_LINK is DEAD_LINK (R255). -/
def Dev.linkByPeer (d : Dev) (carrier dead : Nat) : Option Nat :=
  (d.bundle (d.linkSlot carrier)).find? fun s => decide (d.rd (.stlCfg s) 7 4 = dead)

def execTakeoverReceived (carrier dead : Fin 16) (event : BitVec 8) (lastAccepted : BitVec 12) (st : State) :
    Host.Outcome State Fault Refusal :=
  onDev st fun d =>
    match d.linkByPeer carrier dead with
    | some s => if d.active carrier then d.takeoverIn carrier s event.toNat lastAccepted.toNat else d
    | none => d

/-- The TAKEOVER block is resent until the peer's arrives (R255). -/
def execTakeoverRepeat (s : Fin 16) (st : State) : Host.Outcome State Fault Refusal :=
  onDev st fun d =>
    match (d.lrec s).tko with
    | some t => if t.peerSeen then d else d.sendTakeover s t
    | none => d

def execLinkCtlDown (s : Fin 16) (st : State) : Host.Outcome State Fault Refusal := onDev st (linkDown s)

def execLinkCtlRetrain (s : Fin 16) (st : State) : Host.Outcome State Fault Refusal := onDev st (linkRetrain s)

/-- The checks that LINK_SET shares: LINK below 16, ACTION and the reserved byte; an unused link or one in ANALYSIS mode
is a STATE_CONFLICT (R297). -/
def linkSetInput (input : List Byte) (action : Nat) : Bool :=
  decide (input.length = 4 ∧ field input 0 1 < 16 ∧ field input 1 1 = action ∧ field input 3 1 = 0)

def Dev.linkSet (d : Dev) (path : Path) (input : List Byte) (act : Nat → Dev → Dev) : Dev :=
  let s := field input 0 1
  if d.linkMode s = 1 then (act s d).finish path 0xC032 rcSuccess else d.finish path 0xC032 rcConflict

def execLinkSetDown (path : Path) (input : List Byte) (st : State) : Host.Outcome State Fault Refusal :=
  onDev st fun d => d.stoluo path 0xC032 false (linkSetInput input 0) fun d => d.linkSet path input linkDown

def execLinkSetRetrain (path : Path) (input : List Byte) (st : State) : Host.Outcome State Fault Refusal :=
  onDev st fun d => d.stoluo path 0xC032 false (linkSetInput input 1) fun d => d.linkSet path input linkRetrain

def execLinkSetTarget (path : Path) (input : List Byte) (st : State) : Host.Outcome State Fault Refusal :=
  onDev st fun d =>
    d.stoluo path 0xC032 false (linkSetInput input 2 && laneSets.contains (field input 2 1)) fun d =>
      d.linkSet path input fun s d => widthTarget s (field input 2 1) d

end Sys2Proof.Machine
end

