-- ==== Sys2Proof/Machine/Fabric.lean ====
section
/-! DEFINITION. The fabric: Toll and fabric time, Knell, transit messages, rejoining and routing commands (R262 to R281,
R297). -/

namespace Sys2Proof.Machine

/-! ### Rejoining (R279) -/

def Dev.setRejoin (d : Dev) (n : Nat) (r : Rejoin) : Dev :=
  { d with fab := { d.fab with rejoins := tset d.fab.rejoins n r } }

def Dev.endRejoin (d : Dev) (n : Nat) : Dev := { d with fab := { d.fab with rejoins := tdel d.fab.rejoins n } }

/-- A Toll with REJOIN_READY for a slot whose rejoin this device has accepted: the first of each period counts, and
after MISS consecutive periods the slot returns to ALIVE. -/
def Dev.rejoinToll (d : Dev) (n : Nat) : Dev :=
  match tget d.fab.rejoins n with
  | some r =>
    if d.slotState n = 2 ∧ ¬ r.fresh then
      let d := d.setRejoin n { r with count := r.count + 1, fresh := true }
      if d.rd .tollCtl 23 16 ≤ r.count + 1 then
        (d.setRejoin n { r with count := 0, fresh := true, left := d.rd .tollCtl 23 16, waiting := true }).setSlotState n 1
      else d
    else d
  | none => d

/-- A period ends: one that brought no REJOIN_READY starts the count again, and the periods after the return run out. -/
def Dev.rejoinPeriod (d : Dev) (n : Nat) : Dev :=
  match tget d.fab.rejoins n with
  | some r =>
    if d.slotState n = 2 then d.setRejoin n { r with fresh := false, count := if r.fresh then r.count else 0 }
    else if r.left ≤ 1 ∧ ¬ r.waiting then d.endRejoin n
    else d.setRejoin n { r with left := r.left - 1, fresh := false }
  | none => d

/-- Whether Tolls to a slot carry REJOIN_READY. -/
def Dev.rejoinReady (d : Dev) (n : Nat) : Bool :=
  match tget d.fab.rejoins n with
  | some r => decide (d.slotState n = 2) || decide (r.left ≠ 0)
  | none => false

/-! ### Fabric time (R274) -/

/-- Enter holdover: LOCKED clears. -/
def Dev.holdover (d : Dev) : Dev :=
  ({ d with fab := { d.fab with low := 0, high := 0 } }).wr .timeStatus 30 30 1 |>.wr .timeStatus 31 31 0

/-- The slot that fabric time follows now: TIME_PARENT while it is ALIVE and its Tolls are valid, else TIME_ALT while it
is ALIVE; none on the time root and in holdover. -/
def Dev.timeSource (d : Dev) : Option Nat :=
  let parent := d.rd .fabCfg 23 20
  let alt := d.rd .fabCfg 19 16
  if d.bitOf .fabCfg 30 then none
  else if d.slotState parent = 1 && d.fab.parentOk then some parent
  else if d.bitOf .fabCfg 29 && decide (d.slotState alt = 1) then some alt
  else none

/-- Follow the source, or enter holdover, at an exchange (Table MF-6). -/
def Dev.followTime (d : Dev) : Dev :=
  if d.bitOf .fabCfg 30 then d
  else
    match d.timeSource with
    | some n => (d.wr .timeStatus 24 21 n).wr .timeStatus 30 30 0
    | none => d.holdover

/-- A theta as TIME_STATUS.OFFSET holds it: 16 bits of two's complement, saturating. -/
def offsetField (theta : Int) : Nat :=
  let t := max (-32768) (min 32767 theta)
  if t < 0 then (65536 + t).toNat else t.toNat

/-- Theta of an exchange (R274). -/
def thetaOf (t1 t2 t3 t4 : Nat) : Int := (((t2 : Int) - t1) - ((t4 : Int) - t3)) / 2

/-- One exchange with the source: OFFSET, LOCKED, DEPTH, and a step where theta exceeds 10 µs. -/
def Dev.exchange (d : Dev) (theta : Int) (depth : Nat) : Dev :=
  let a := theta.natAbs
  let low := if a ≤ 20 then d.fab.low + 1 else 0
  let high := if 40 < a then d.fab.high + 1 else 0
  let d := { d with fab := { d.fab with low := min 8 low, high := min 8 high } }
  let d := (d.wr .timeStatus 15 0 (offsetField theta)).wr .timeStatus 29 25 (min 31 (depth + 1))
  let d := if 8 ≤ low then d.wr .timeStatus 31 31 1 else if 8 ≤ high then d.wr .timeStatus 31 31 0 else d
  if 10000 < a then d.setReg .ftime (BitVec.ofInt 64 ((d.now : Int) - theta)) else d

/-- What a Toll from slot n on link s does to fabric time. -/
def Dev.tollTime (d : Dev) (s n : Nat) (ws : List Word) : Dev :=
  let w6 := word ws 5
  let valid := getBits w6 59 59 = 1
  let t1 := (word ws 2).toNat
  let t3 := (word ws 3).toNat
  let t4 := (word ws 4).toNat
  let t2 := d.now
  let d := if n = d.rd .fabCfg 23 20 then { d with fab := { d.fab with parentOk := valid } } else d
  let d := d.followTime
  let sent := (tgetD d.fab.tollTx s []).contains t3 && decide (t2 ≤ t3 + 4 * (d.rd .tollCtl 15 0 * 1000))
  let d := if valid && decide (d.timeSource = some n) && decide (t3 ≠ 0) && sent then
      d.exchange (thetaOf t1 t2 t3 t4) (getBits w6 58 54) else d
  { d with fab := { d.fab with tollRx := tset d.fab.tollRx s (t1, t2) } }

/-! ### Meanings: Toll -/

/-- Send a Toll on one link. -/
def Dev.sendToll (d : Dev) (s : Nat) : Dev :=
  let n := d.linkSlot s
  let (etx, erx) := tgetD d.fab.tollRx s (0, 0)
  let valid := d.bitOf .fabCfg 30 || d.bitOf .timeStatus 31
  let depth := if d.bitOf .fabCfg 30 then 0 else d.rd .timeStatus 29 25
  let ws := tollWords d.devId (d.slotDev n) etx erx s depth valid (decide (d.slotState n = 2)) (!d.compact) (d.rejoinReady n)
  if d.canSend s .mgt 7 && (d.lrec s).residue.isEmpty then d.sendNew s .mgt ws else d.writeLink .mgmt s ws

/-- Once each period a Toll goes on every ACTIVE link (R272); the period ends for the counts of R279. -/
def execTollSend (s : State) : Host.Outcome State Fault Refusal :=
  onDev s fun d =>
    let d := (List.range 16).foldl (fun d l => if d.active l then d.sendToll l else d) d
    ((List.range 16).foldl (fun d n => d.rejoinPeriod n) d).followTime

/-- A Toll on an ACTIVE link (R262, R273, R274, R279). words are words 1 to 6. -/
def execTollReceived (s : Fin 16) (words : List Word) (st : State) : Host.Outcome State Fault Refusal :=
  onDev st fun d =>
    if !d.active s then d
    else
      let d := d.count (linkPmu s) 0x8017 1
      let n := d.linkSlot s
      let w6 := word words 5
      let peerDead := getBits w6 53 53 = 1
      let ready := getBits w6 51 51 = 1
      if h : n < 16 then
        if getBits w6 52 52 ≠ d.rd .fabCfg 31 31 then
          let d := d.report (linkSource s 3) 2 0
          if d.slotState n = 1 then d.declareDeath (.slot ⟨n, h⟩) 4 else d
        else
          let d := d.tollTime s n words
          let d := if peerDead ∧ ¬ ready ∧ d.slotState n = 1 then d.declareDeath (.slot ⟨n, h⟩) 6 else d
          let d := if ready then d.rejoinToll n else d
          match tget d.fab.rejoins n with
          | some r => if !peerDead && decide (d.slotState n = 1) then d.setRejoin n { r with waiting := false } else d
          | none => d
      else d

/-- No Toll for MISS periods: the neighbour is declared dead with cause 3 (R273); with no ACTIVE link left in the bundle
the death is the bundle's, with cause 4 (Table MF-6). -/
def execTollSilence (n : Fin 16) (s : State) : Host.Outcome State Fault Refusal :=
  onDev s fun d =>
    if d.slotState n = 1 then d.declareDeath (.slot n) (if (d.lowestActive n).isSome then 3 else 4) else d

/-! ### Meanings: Knell -/

/-- A Knell (R276, R277, Table MF-5). words are words 1 to 4. A copy within 1 ms of the first is discarded. -/
def execKnellReceived (_s : Fin 16) (words : List Word) (st : State) : Host.Outcome State Fault Refusal :=
  onDev st fun d =>
    let w3 := word words 2
    let src := msgSrc words
    let event := getBits w3 37 30
    let recent := d.fab.knells.filter fun k => decide (d.now ≤ k.2.2 + 1000000)
    if recent.any fun k => decide (k.1 = src ∧ k.2.1 = event) then d
    else
      let d := { d with fab := { d.fab with knells := recent ++ [(src, event, d.now)] } }
      let d := d.fabricEvent 1 (det 88 w3.toNat + det 77 src)
      if getBits w3 63 62 = 1 then
        let subj := getBits w3 61 51
        match d.slotOf (if subj = d.devId then src else subj) with
        | some n => if h : n < 16 then (if d.slotState n = 1 then d.declareDeath (.slot ⟨n, h⟩) 5 else d) else d
        | none => d
      else d

/-! ### Meanings: transit and bundles -/

/-- A message for another device is routed onward; one that would go back to the slot it came from has no route, and a
request without a route is answered with NFAIL (R269, R270). -/
def execTransitMessage (s : Fin 16) (words : List Word) (st : State) : Host.Outcome State Fault Refusal :=
  onDev st fun d =>
    if msgDst words = d.devId then d
    else
      let slot := (d.routeSlot words).filter fun n => !decide (n = d.linkSlot s)
      match slot.bind fun n => d.linkFor n words with
      | some l => d.bufferTransit s l words
      | none =>
        let c := (opClass (msgOp words)).getD .mgt
        let d := (d.noRoute (msgDst words)).returnCredit s c (packetCost (words.length + 1))
        if opClass (msgOp words) = some .req then
          d.postOrDrop (nfailFor d.devId words (if opReads (msgOp words) then 1 else 2))
        else d

/-- The bundle member of a line. -/
def memberOf (m : List Nat) (line : Nat) : Option Nat := m[line / 16 % m.length]?

/-- Whether a link still holds a message of a member's granules, queued or in its replay buffer (R271). -/
def Dev.holdsGranules (d : Dev) (m : List Nat) (sub member : Nat) : Bool :=
  let mine (ws : List Word) := opHasLine (msgOp ws) && decide (memberOf m (msgLine ws) = some member)
  ((d.lrec sub).entries.any fun e => mine e.words) || ((d.lrec sub).residue.any fun e => mine e.2) ||
    d.sw.msgs.any fun q =>
      match q.dest, q.paddr with
      | .link l, some a => decide (l.val = sub) && decide (memberOf m (a / 64) = some member)
      | _, _ => false

/-- Returned members take back their granules once the substitute holds none of their messages (R271). -/
def execGranuleTakeback (n : Fin 16) (s : State) : Host.Outcome State Fault Refusal :=
  onDev s fun d =>
    let m := d.bundle n
    let back (l : Nat) : Bool := m.contains l && d.active l &&
      m.all fun sub => decide (sub = l) || !d.active sub || !d.holdsGranules m sub l
    { d with fab := { d.fab with subst := d.fab.subst.filter fun l => !back l } }

/-! ### Meanings: management messages -/

/-- A request without an answer is repeated (R278). -/
def execMgmtRequestRepeat (tag : BitVec 16) (s : State) : Host.Outcome State Fault Refusal :=
  onDev s fun d =>
    match d.fab.requests.find? fun r => decide (r.tag = tag.toNat) with
    | some r =>
      (mgmtMessages d.devId r.dev.toNat r.tag r.mtype r.exportId r.domain 0 r.coherent r.blocks).foldl
        (fun d ws => d.postOrDrop ws) d
    | none => d

/-- A reserved MTYPE is discarded and reported under 0x304 (R278). -/
def execMgmtReservedType (_src : DeviceId) (mtype : BitVec 8) (s : State) : Host.Outcome State Fault Refusal :=
  onDev s fun d => if mtype = 0 ∨ 9 ≤ mtype.toNat then d.report 0x304 2 mtype.toNat else d

/-! ### Meanings: fabric commands -/

/-- One entry of the local check of R268. -/
def Dev.hopOk (d : Dev) (dst slot : Nat) : Bool :=
  let n := d.slotDev slot
  d.slotValid slot && (decide (n = dst) || decide (d.devId < n) || (decide (n < d.devId) && decide (dst < n)))

/-- The local check of one routing entry (R268); the entry for the device's own ID is ignored (R266). -/
def Dev.routeOk (d : Dev) (dst : Nat) (r : Word) : Bool :=
  decide (dst = d.devId) || decide (getBits r 31 31 = 0) ||
    (d.hopOk dst (getBits r 23 20) && (decide (getBits r 30 30 = 0) || d.hopOk dst (getBits r 19 16)))

/-- The entries of a ROUTE_SET payload (Table MG-10). -/
def routeEntries (input : List Byte) : List (Nat × Word) :=
  (List.range (field input 0 2)).map fun i => (field input (4 + 8 * i) 2, BitVec.ofNat 64 (field input (8 + 8 * i) 4))

/-- Every entry of a ROUTE_SET is applied, or none (R297). -/
def execRouteSet (path : Path) (input : List Byte) (s : State) : Host.Outcome State Fault Refusal :=
  onDev s fun d =>
    let n := field input 0 2
    let es := routeEntries input
    let formOk := decide (1 ≤ n ∧ n ≤ 256 ∧ input.length = 4 + 8 * n ∧ field input 2 2 = 0) &&
      (List.range n).all (fun i => decide (field input (6 + 8 * i) 2 = 0)) &&
      es.all fun e => decide (e.1 < 2048 ∧ e.2 &&& (Reg.route 0).mask = e.2)
    d.stoluo path 0xC038 false formOk fun d =>
      if es.all fun e => d.routeOk e.1 e.2 then
        (es.foldl (fun d e => d.setReg (.route e.1) e.2) d).finish path 0xC038 rcSuccess
      else d.finish path 0xC038 rcInvalid

/-- NEIGHBOUR_REJOIN: the slot is DEAD, a link of its bundle ACTIVE and every sweep of the death has ended (R279). -/
def execNeighbourRejoin (path : Path) (input : List Byte) (s : State) : Host.Outcome State Fault Refusal :=
  onDev s fun d =>
    d.stoluo path 0xC039 false (decide (input.length = 4 ∧ field input 0 1 < 16 ∧ field input 1 3 = 0)) fun d =>
      let n := field input 0 1
      if h : n < 16 then
        if d.slotState n = 2 ∧ (d.lowestActive n).isSome ∧ d.sweepsOver (.slot ⟨n, h⟩) then
          (d.setRejoin n ⟨0, false, 0, false⟩).finish path 0xC039 rcSuccess
        else d.finish path 0xC039 rcConflict
      else d.finish path 0xC039 rcInvalid

end Sys2Proof.Machine
end

