-- ==== Sys2Proof/Machine/Switch.lean ====
section
/-! DEFINITION. Meanings of the commands of the switch core: ingress, the egress schedulers, ageing, shaping, gates, quarters that
nap, and mirror sessions (R107 to R130, R259). -/

namespace Sys2Proof.Machine

/-! ### Ingress (R107, R108, R463) -/

/-- Whether an entity can send messages into the buffer; a PASS port only while its bound host port is ACTIVE (R204). -/
def Dev.sends (d : Dev) : Entity → Bool
  | .port p => decide (4 ≤ d.portState p ∧ d.portState p ≤ 6) && d.boundActive p
  | .link s => d.active s
  | _ => true

/-- A completion from the device below a PASS port ends the host's outstanding request. -/
def Dev.passAnswered (d : Dev) (e : Entity) (c : MsgClass) (txn : Nat) : Dev :=
  match e, c with
  | .port p, .rsp =>
    { d with mgmt := { d.mgmt with ioPending := d.mgmt.ioPending.filter fun x => !decide (x.1 = p.val ∧ x.2.2 = txn) } }
  | _, _ => d

/-- A message that enters at a port is counted (Table TM-2). -/
def Dev.countIngress (d : Dev) (e : Entity) (c : MsgClass) : Dev :=
  match e with
  | .port p => d.count (p.val / 4) (0x1000 + 4 * (p.val % 4) + classCode c) 1
  | _ => d

/-- The per-host queue that an entity's requests take. -/
def entityQueue : Entity → Nat
  | .port p => p.val
  | _ => 80

/-- A message as it enters, with its destination and its complement (R108, R109). -/
def Dev.ingressMsg (d : Dev) (entity : Entity) (dest : Egress) (cls : MsgClass) (kind : MsgKind) (credit txn length cost : Nat)
    (raw : List Byte) : Msg :=
  { id := d.sw.nextId, entity := entity, cls := cls, cells := ceilDiv length 128, fromShared := 0, dest := dest
    destC := ~~~(BitVec.ofNat 8 (egressNumber dest)), kind := kind, txn := txn, born := d.now, domain := none
    paddr := none, poison := false, raw := raw, credit := credit, hostQueue := entityQueue entity
    cost := cost, green := true, peakWaited := false, held := false, f1 := 0, f2 := 0, quarters := 0 }

/-- Whether a message of an entity may go to an egress past its home: a PASS port and its bound host exchange messages with each other
alone, CXL.cache among them, and other CXL ports with no egress but a home (R24, R204). -/
def Dev.mayCross (d : Dev) (e : Entity) (dest : Egress) : Bool :=
  match e, dest with
  | .port p, .port q =>
    (decide (d.portMode p = 3) && decide (d.rd (.prtCfg p) 17 12 = q.val)) ||
      (decide (d.portMode p = 1 ∧ d.portMode q = 3) && decide (d.rd (.prtCfg q) 17 12 = p.val))
  | .port _, .link _ => false
  | .port p, .home _ => !decide (d.portMode p = 3)
  | _, _ => true

/-- INGRESS_MESSAGE: the cells are charged to the ingress entity; a message for an egress out of service completes as discarded. -/
def execIngressMessage (entity : Entity) (dest : Egress) (cls : MsgClass) (kind : MsgKind) (credit txn length cost : Nat)
    (raw : List Byte) (s : State) : Host.Outcome State Fault Refusal :=
  onDev s fun d =>
    if !d.sends entity || !d.mayCross entity dest then d
    else
      let d := (d.countIngress entity cls).passAnswered entity cls txn
      let m := d.ingressMsg entity dest cls kind credit txn length cost raw
      let d := d.newId.2.mirror (tapOfEntity entity) m false
      if d.takesMessages dest then d.store m else (d.emit (.discarded m.id)).completeDiscarded m

/-! ### The egress scheduler (R109, R111, R120, R123, R127) -/

/-- The head message of each credit-type queue of a class at an egress, within each second-level queue (R111). -/
def Dev.heads (d : Dev) (e : Egress) (c : MsgClass) : List Msg :=
  ((d.sw.msgs.filter fun m => decide (m.dest = e ∧ m.cls = c)).foldl (fun (l : List Msg) m =>
    if l.any fun x => decide (d.subQueue x = d.subQueue m ∧ x.credit = m.credit) then l else l ++ [m]) [])

/-- PCIe's order between the credit types of a class: a non-posted request does not pass an earlier posted one of its ingress and
egress (R111; PRESUMED from PCIe Base 6.x, log entry 70). -/
def Dev.mustFollow (d : Dev) (m : Msg) : Bool :=
  decide (m.kind = .ioNonPosted) && (d.sw.msgs.takeWhile fun x => !decide (x.id = m.id)).any fun x =>
    decide (x.kind = .ioPosted ∧ x.entity = m.entity ∧ x.dest = m.dest)

/-- Of the heads of a per-host queue's credit types the one with the smallest tag, the lower credit type on a tie (R120). -/
def bestOf (hs : List Msg) (m : Msg) : Bool :=
  hs.all fun x => !decide (x.hostQueue = m.hostQueue) || decide (m.f3 < x.f3 ∨ (m.f3 = x.f3 ∧ m.credit ≤ x.credit))

/-- Heads that may be sent: their credit type has credits and their order lets them go; in class REQ of a POOL port one for each per-host
queue, and a yellow one yields to a green one (R111, R120, R123). -/
def Dev.eligible (d : Dev) (e : Egress) (credits : List (Fin 4 × Nat)) (c : MsgClass) : List Msg :=
  let hs := (d.heads e c).filter fun m =>
    (credits.any fun x => decide (x.1.val = classCode c ∧ x.2 = m.credit)) && !d.mustFollow m
  if d.poolEgress e ∧ c = .req then
    let hs := hs.filter (bestOf hs)
    if hs.any (·.green) then hs.filter (·.green) else hs
  else hs

/-- The tag of a second-level queue's head: in a per-host queue the smallest of its waiting messages (log entry 39). -/
def Dev.queueTag (d : Dev) (m : Msg) : Nat :=
  if d.hostQueued m then
    (((d.sw.msgs.filter fun x => decide (x.dest = m.dest ∧ x.cls = m.cls ∧ x.hostQueue = m.hostQueue)).map (·.f2)).min?).getD m.f2
  else m.f2

/-- The message with the smallest tag, the lower queue number on a tie. -/
def Dev.smallest (d : Dev) (hs : List Msg) : Option Msg :=
  hs.foldl (fun (b : Option Msg) m =>
    match b with
    | none => some m
    | some x =>
      if d.queueTag m < d.queueTag x ∨ (d.queueTag m = d.queueTag x ∧ d.subQueue m < d.subQueue x) then some m else b) none

/-- The tag of a class's head at the first level: the smallest of its waiting messages (log entry 39). -/
def Dev.classTag (d : Dev) (e : Egress) (c : MsgClass) : Nat :=
  match ((d.sw.msgs.filter fun m => decide (m.dest = e ∧ m.cls = c)).map (·.f1)).min? with
  | some n => n
  | none => 0

/-- The classes that may send, each with its message. -/
def Dev.contenders (d : Dev) (e : Egress) (credits : List (Fin 4 × Nat)) : List (MsgClass × Msg) :=
  classes.filterMap fun c =>
    if d.gateAllows e c then (d.smallest (d.eligible e credits c)).map fun m => (c, m) else none

/-- The class with the smallest head tag. -/
def Dev.winner (d : Dev) (e : Egress) (l : List (MsgClass × Msg)) : Option (MsgClass × Msg) :=
  l.foldl (fun (b : Option (MsgClass × Msg)) x =>
    match b with
    | none => some x
    | some y => if d.classTag e x.1 < d.classTag e y.1 then some x else b) none

/-- The message sent takes the head tags of its class and of its per-host queue; the ones that held them take the sent message's. V becomes
the tags sent. -/
def Dev.advanceTags (d : Dev) (e : Egress) (c : MsgClass) (m : Msg) : Dev :=
  let head := d.classTag e c
  let mine := d.queueTag m
  let swap1 (x : Msg) : Msg := if x.dest = e ∧ x.cls = c ∧ x.f1 = head ∧ x.id ≠ m.id then { x with f1 := m.f1 } else x
  let swap2 (x : Msg) : Msg :=
    if d.hostQueued m && decide (x.dest = e ∧ x.cls = c ∧ x.hostQueue = m.hostQueue ∧ x.f2 = mine ∧ x.id ≠ m.id) then { x with f2 := m.f2 } else x
  let v := tset (tset d.sw.vtime (e, 0) head) (e, subLevel c) mine
  { d with sw := { d.sw with
    msgs := d.sw.msgs.map fun x => swap2 (swap1 x)
    vtime := if d.hostQueued m then tset v (e, hostLevel m.hostQueue) m.f3 else v } }

/-- What leaves with a message: a home's access to its expander with its wait, a link's words, or the message. -/
def Dev.sendOut (d : Dev) (e : Egress) (m : Msg) : Dev :=
  let granted (op : Nat) (d : Dev) : Dev :=
    let wait := d.now - m.born
    let d := match e with
      | .port p => { d with sw := { d.sw with lastWait := tset d.sw.lastWait (p.val, m.hostQueue) wait } }
      | _ => d
    { d with dir := { d.dir with expOps := d.dir.expOps.map fun (o : ExpOp) =>
      if o.op = op then { o with wait := some wait } else o } }
  let opOf (op : Nat) : Option ExpOp := d.dir.expOps.find? fun o => decide (o.op = op)
  match m.kind with
  | .homeRead op => match opOf op with
    | some o => (granted op d).emit (.expRead op o.port o.addr)
    | none => d
  | .homeWrite op => match opOf op with
    | some o => match o.what with
      | some v => (granted op d).emit (.expWrite op o.port o.addr v)
      | none => d
    | none => d
  | k =>
    let d := match e, m.entity with
      | .port p, .port h =>
        if k = MsgKind.ioNonPosted ∧ d.portMode p = 3 then
          { d with mgmt := { d.mgmt with ioPending := d.mgmt.ioPending ++ [(p.val, h.val, m.txn)] } }
        else d
      | _, _ => d
    let d := m.sends.foldl (fun d o => d.emit o) (d.emit (.sent e m.id))
    match e with
    | .link l => d.emit (.message l (rawWords m.raw))
    | _ => d

/-- Events of a port's egress (Table TM-2). -/
def Dev.countEgress (d : Dev) (e : Egress) (base : Nat) : Dev :=
  match e with
  | .port p => d.count (p.val / 4) (base + p.val % 4) 1
  | _ => d

/-- The Carillon source of an egress's Tambour (Table FI-2, k = 0). -/
def egressSource : Egress → Nat
  | .port p => 16 * (p.val / 4)
  | .link s => 16 * s.val
  | .home t => 16 * t.val

/-- A message is granted: the destination is checked against its complement before the first cell goes (R109). -/
def Dev.grantMsg (d : Dev) (e : Egress) (c : MsgClass) (m : Msg) : Dev :=
  let d := d.advanceTags e c m
  if m.destC ≠ ~~~(BitVec.ofNat 8 (egressNumber e)) then (d.report (egressSource e) 4 m.id).discardMsg m
  else
    let d := (d.mirror (tapOfEgress e) m true).sendOut e m
    let d := match e with
      | .port p => d.count (p.val / 4) (0x1010 + 4 * (p.val % 4) + classCode c) 1
      | _ => d
    let d := if d.poolEgress e ∧ c = .req ∧ ¬ m.green then d.countEgress e 0x103C else d
    d.unstore m.id

/-- EGRESS_GRANT: credits are those that the link partner has given, by class and credit type. -/
def execEgressGrant (egress : Egress) (credits : List (Fin 4 × Nat)) (s : State) : Host.Outcome State Fault Refusal :=
  onDev s fun d =>
    match egress with
    | .home _ => d
    | e =>
      if d.safe then d else
      let held := classes.any fun c => d.guarded e c && (d.sw.msgs.any fun m => decide (m.dest = e ∧ m.cls = c))
      let d := if held then d.countEgress e 0x1038 else d
      match d.winner e (d.contenders e credits) with
      | some (c, m) => d.grantMsg e c m
      | none => d

/-- AGE_DISCARD: the message that a number names has been in the buffer longer than the age limit (R119); nothing before the limit. -/
def execAgeDiscard (id : Nat) (s : State) : Host.Outcome State Fault Refusal :=
  onDev s fun d =>
    match d.sw.msgs.find? fun m => decide (m.id = id) with
    | some m => if m.born + 1000 * d.rd .ageLimit 16 0 ≤ d.now then d.discardCounted m else d
    | none => d

/-- GLB_AGE_LIMIT_WRITE: in range and below T of every home slice whose Tambour is in service (R118, Table SW-7). -/
def ageLimitWrite (v : Nat) (d : Dev) : Dev :=
  let n := v % 2 ^ 17
  let inService (t : Nat) : Bool := !bit (d.rd .retireStatus 63 48) t && decide (d.domState (domTmb t) ≠ 4) && d.logicUp t
  if 1 ≤ n ∧ n ≤ 100000 ∧ (List.range 16).all fun t => !inService t || decide (n < d.rd (.dirBiTimeout t) 19 0) then
    d.wr .ageLimit 16 0 n
  else d

def execGlbAgeLimitWrite (v : BitVec 32) (s : State) : Host.Outcome State Fault Refusal := onDev s (ageLimitWrite v.toNat)

/-- PEAK_BUCKET_RELEASE: a host request that waited on its peak bucket passes the shaper (R122). -/
def execPeakBucketRelease (id : Nat) (s : State) : Host.Outcome State Fault Refusal :=
  onDev s fun d =>
    match d.sw.msgs.find? fun m => decide (m.id = id) && m.held with
    | some m =>
      match m.entity with
      | .port p =>
        match d.passShaper p with
        | (some green, d) =>
          { d with sw := { d.sw with msgs := d.sw.msgs.map fun (x : Msg) =>
            if x.id = id then { x with held := false, green := green } else x } }
        | (none, d) => d
      | _ => d
    | none => d

/-! ### A quarter that naps (R110) -/

/-- Whether a quarter holds queue descriptors of a defined queue: HUB0 those of queues 0 to 32,767, HUB1 the others (R394). -/
def Dev.holdsDescriptors (d : Dev) (q : Nat) : Bool :=
  d.svc.queues.any fun x => x.2.queues.any fun y => decide (y.1 / 32768 = q)

/-- HUB_QUARTER_NAP: no cells are allocated in the quarter any more, and it leaves once its cells are free. While another quarter
is out it stays (R110, Table PW-3). -/
def Dev.quarterNap (d : Dev) (q : Nat) : Dev :=
  if d.quartersIn = 15 ∧ d.sw.leaving = none ∧ ¬ d.holdsDescriptors q ∧ d.domState (domHub q) ≤ 1 then
    ({ d with sw := { d.sw with leaving := some q } }).quarterLeaves.showCells
  else d

def execHubQuarterNap (q : Fin 4) (s : State) : Host.Outcome State Fault Refusal := onDev s fun d => d.quarterNap q

/-! ### Gates (R124 to R126) -/

/-- The entry in force at an instant of a cycle, and how long it has been: the offset within the cycle runs down the intervals. -/
def gateEntryAt : List Nat → Nat → Nat → Nat × Nat
  | [], k, _ => (k, 0)
  | i :: r, k, off => if off < i ∨ r = [] then (k, off) else gateEntryAt r (k + 1) (off - i)

/-- The gate list's place at the current fabric time, with n entries of the bank in force. -/
def Dev.gatePlace (d : Dev) (e : Egress) (n : Nat) : GateRun :=
  let b := d.gclActive e
  let cycle := d.gateCycle e b n
  let base := (d.reg (gclBase e)).toNat
  if cycle = 0 then ⟨n, 0, d.now⟩
  else
    let off := ((d.now : Int) - base).emod cycle |>.toNat
    let (k, since) := gateEntryAt ((List.range n).map fun i => d.gateInterval e b i) 0 off
    ⟨n, k, d.now - since⟩

def Dev.setGate (d : Dev) (e : Egress) (g : GateRun) : Dev := { d with sw := { d.sw with gates := tset d.sw.gates e g } }

/-- The banks change places. -/
def Dev.swapBanks (d : Dev) (e : Egress) : Dev :=
  let n := d.nextLength e
  let d := (d.wr (gclCtl e) 30 30 0).wr (gclCtl e) 29 29 (1 - d.gclActive e)
  d.setGate e (d.gatePlace e n)

/-- GATE_INTERVAL_END: the next entry's gates take force. -/
def execGateIntervalEnd (egress : Egress) (s : State) : Host.Outcome State Fault Refusal :=
  onDev s fun d =>
    if d.bitOf (gclCtl egress) 31 then
      let g := d.gateRun egress
      let t := d.gateInterval egress (d.gclActive egress) g.entry
      d.setGate egress { g with entry := if g.entry + 1 < g.length then g.entry + 1 else 0, since := g.since + t }
    else d

/-- GATE_CYCLE_START: a cycle starts, and a pending swap is performed. -/
def execGateCycleStart (egress : Egress) (s : State) : Host.Outcome State Fault Refusal :=
  onDev s fun d =>
    if d.bitOf (gclCtl egress) 31 then
      if d.bitOf (gclCtl egress) 30 then d.swapBanks egress else d.setGate egress { d.gateRun egress with entry := 0, since := d.now }
    else d

/-- Whether the bank that a swap would put in force passes R126: a cycle of 1 µs to 1 s and valid intervals. -/
def Dev.bankOk (d : Dev) (e : Egress) : Bool :=
  let n := d.nextLength e
  let b := 1 - d.gclActive e
  let cycle := d.gateCycle e b n
  decide (1000 ≤ cycle ∧ cycle ≤ 1000000000) && (List.range n).all fun i => decide (d.gateInterval e b i ≠ 0)

/-- A write of 1 to GCL_CTL.SWAP. An accepted one leaves ERR as it is, until software clears it, and a refused one leaves a swap that is
PENDING (DESIGN CHOICE, log entry 62). -/
def gclSwap (e : Egress) (d : Dev) : Dev :=
  if !d.bankOk e then d.wr (gclCtl e) 28 28 1
  else if d.bitOf (gclCtl e) 31 then d.wr (gclCtl e) 30 30 1
  else d.swapBanks e

def execGclSwap (egress : Egress) (s : State) : Host.Outcome State Fault Refusal :=
  onDev s fun d => match egress with
    | .home _ => d
    | e => gclSwap e d

/-- GCL_CTL.EN is set: the list is in force from its place at the current fabric time. -/
def gclEnable (e : Egress) (d : Dev) : Dev := d.setGate e (d.gatePlace e (d.gateRun e).length)

/-! ### Mirror sessions (R128 to R130, R259, R337) -/

/-- A write of GLB.MIR_CTL(s). One that sets EN is ignored unless the quad is in ANALYSIS mode, and in DEPLOYED. -/
def mirCtlWrite (s v : Nat) (d : Dev) : Dev :=
  let w := BitVec.ofNat 64 (v % 2 ^ 32)
  if getBits w 31 31 = 1 ∧ (d.linkState s ≠ 5 ∨ d.sec.otp.lifecycle = 2) then d else d.setReg (.mirCtl s) w

def execMirCtlWrite (session : Fin 16) (v : BitVec 32) (s : State) : Host.Outcome State Fault Refusal :=
  onDev s (mirCtlWrite session v.toNat)

/-- MIRROR_CELL_WAIT_EXPIRY: a cell has waited 10 µs for the session to read it: the oldest record, which is the one that has waited
longest, is dropped and counted, and its cells are free as far as the session is concerned (R129). -/
def execMirrorCellWaitExpiry (session : Fin 16) (s : State) : Host.Outcome State Fault Refusal :=
  onDev s fun d =>
    let x := d.session session
    match x.queue with
    | [] => d
    | r :: rest => ((d.setSession session { x with queue := rest }).mirrorDrop session).readDone r.msg

/-- The 32-byte header of a record (Table SW-18). -/
def mirrorHeader (session : Nat) (r : MirrorRec) (drops seq : Nat) : List Byte :=
  toBytes 8 r.ftime ++ toBytes 1 r.port ++ toBytes 1 r.flags ++ toBytes 2 r.domain ++ toBytes 2 r.origLen ++
    toBytes 2 r.data.length ++ toBytes 8 r.paddr ++ toBytes 4 drops ++ toBytes 2 seq ++ toBytes 1 session ++ toBytes 1 0

/-- A record as its data blocks carry it: header and bytes, zero padding to 8 B, then one word with the CRC-32. -/
def mirrorBytes (session : Nat) (r : MirrorRec) (drops seq : Nat) : List Byte :=
  let body := mirrorHeader session r drops seq ++ r.data
  let padded := body ++ List.replicate (8 * ceilDiv body.length 8 - body.length) 0
  padded ++ toBytes 4 (crc32 padded) ++ toBytes 4 0

/-- MIRROR_RECORD_SEND: the session reads the cells of its oldest record, which an ANALYSIS quad sends. -/
def execMirrorRecordSend (session : Fin 16) (s : State) : Host.Outcome State Fault Refusal :=
  onDev s fun d =>
    let x := d.session session
    match x.queue with
    | [] => d
    | r :: rest =>
      if d.linkState session ≠ 5 then d
      else
        let bytes := mirrorBytes session r x.drops x.seq
        let d := (d.setSession session { queue := rest, drops := 0, seq := (x.seq + 1) % 65536 }).readDone r.msg
        ((d.emit (.block session (recBlock (bytes.length / 8) session))).emit (.mirror session bytes)).count session 0x1040 1

end Sys2Proof.Machine
end

