-- ==== Sys2Proof/Machine/Qos.lean ====
section
/-! DEFINITION. The configuration checks of the switch core (Table SW-3, Table SW-4) and the commands that apply them: QOS_SET,
GATE_LIST_SET and MIRROR_SET (R294). -/

namespace Sys2Proof.Machine

/-! ### Reservations (R115, R116) -/

/-- Least reservation of an entity in the order REQ, RSP, SNP, MGT (Table SW-3); none for one that the BCB leaves unused. A port's is what
its credit types hold exclusively, so that a class reservation of that size gives each its share (R113). -/
def Dev.minReserve (d : Dev) : Entity → Option (List Nat)
  | .port p =>
    if d.portMode p = 0 then none
    else some ([MsgClass.req, .rsp, .snp, .mgt].map fun c => (creditShares (decide (d.portMode p = 3)) c).sum)
  | .link s => if d.rd (.stlCfg s) 31 30 = 1 then some [3, 3, 3, 3] else none
  | _ => some [1, 1, 1, 1]

/-- Default reservation of an entity (Table SW-3). -/
def Dev.defaultReserve (d : Dev) : Entity → List Nat
  | .port p => if d.portMode p = 0 then [0, 0, 0, 0] else [256, 256, 16, 33]
  | .link s => if d.rd (.stlCfg s) 31 30 = 1 then [192, 192, 64, 8] else [0, 0, 0, 0]
  | .tambour _ => [512, 512, 256, 8]
  | .mgmt => [64, 64, 1, 64]

/-- The image of a reservation register. -/
def reserveImage (l : List Nat) : Word :=
  BitVec.ofNat 64 (l.getD 0 0 + l.getD 1 0 * 2 ^ 16 + l.getD 2 0 * 2 ^ 32 + l.getD 3 0 * 2 ^ 48)

/-- Whether an entity's reservations meet Table SW-3; those of an unused port or link are zero. -/
def Dev.reserveOk (d : Dev) (e : Entity) : Bool :=
  match d.minReserve e with
  | some l => classes.all fun c => decide (l.getD (classCode c) 0 ≤ d.reserved e c)
  | none => classes.all fun c => decide (d.reserved e c = 0)

/-- Whether the reservations leave the 16,384 cells of Table SW-4. -/
def Dev.reserveFits (d : Dev) : Bool := decide (d.allReserved + 16384 ≤ 196608)

/-- Count as shared what an entity's messages of a class hold beyond their reservation (R116). -/
def shareExcess (e : Entity) (c : MsgClass) : Nat → List Msg → List Msg
  | _, [] => []
  | excess, m :: r =>
    if m.entity = e ∧ m.cls = c then
      let n := min excess (m.cells - m.fromShared)
      { m with fromShared := m.fromShared + n } :: shareExcess e c (excess - n) r
    else m :: shareExcess e c excess r

/-- Write an entity's reservations; cells in use beyond a smaller one count as shared until they drain. -/
def Dev.setReserve (d : Dev) (e : Entity) (image : Word) : Dev :=
  let d := d.setReg (resvReg e) image
  classes.foldl (fun (d : Dev) c =>
    let used := ((d.sw.msgs.filter fun m => decide (m.entity = e ∧ m.cls = c)).map fun m => m.cells - m.fromShared).sum
    { d with sw := { d.sw with msgs := shareExcess e c (used - d.reserved e c) d.sw.msgs } }) d

/-! ### Age limit, shapers, gate lists and mirror sessions -/

/-- Whether a value of GLB.AGE_LIMIT is in its range and below T of every home slice whose Tambour is in service (R118). -/
def Dev.ageLimitOk (d : Dev) (n : Nat) : Bool := decide (((ageLimitWrite n d).rd .ageLimit 16 0) = n)

/-- Whether a shaper image passes Table SW-4. -/
def shapeOk (v : Word) : Bool :=
  decide (getBits v 15 0 ≤ getBits v 31 16 ∧ getBits v 47 32 ≠ 0 ∧ getBits v 63 48 ≠ 0)

/-- Neighbouring intervals of one kind, joined. -/
def joinRuns : List (Bool × Nat) → List (Bool × Nat)
  | [] => []
  | (b, n) :: r =>
    match joinRuns r with
    | (b', n') :: r' => if b = b' then (b, n + n') :: r' else (b, n) :: (b', n') :: r'
    | [] => [(b, n)]

/-- The same over the wrap of the cycle: a run at the end joins one of its kind at the start. -/
def wrapRuns (l : List (Bool × Nat)) : List (Bool × Nat) :=
  match joinRuns l with
  | (b, n) :: x :: r =>
    match (x :: r).getLast? with
    | some (b', n') => if b = b' then (b, n + n') :: (x :: r).dropLast else (b, n) :: x :: r
    | none => (b, n) :: x :: r
  | l => l

/-- Whether the bank that a swap would put in force passes the gate-list row of Table SW-4. -/
def Dev.gateListOk (d : Dev) (e : Egress) : Bool :=
  let n := d.nextLength e
  let b := 1 - d.gclActive e
  let runs (c : MsgClass) := wrapRuns ((List.range n).map fun i => (d.gateOpens e b i c, d.gateInterval e b i))
  let longest : Nat := d.rd .ageLimit 16 0 * 1000 / 2
  d.bankOk e && [MsgClass.req, .rsp].all fun c =>
    let l := runs c
    (match l with
     | [(o, _)] => o
     | _ => l.all fun x => if x.1 then decide (2 * d.guardBand e ≤ x.2) else
         decide (x.2 ≤ longest) && (decide (c ≠ .rsp) || decide (x.2 ≤ 1000000)))

/-- Whether a mirror session's registers pass Table SW-4; session s uses the quad of link s. -/
def Dev.mirrorOk (d : Dev) (s : Nat) : Bool :=
  decide (d.rd (.stlCfg s) 31 30 = 2) && (!d.bitOf (.mirCtl s) 16 || decide (d.rd (.mirLo s) 45 6 ≤ d.rd (.mirHi s) 45 6))

/-! ### QOS_SET -/

/-- The entity that TARGET and NUMBER of QOS_SET name. -/
def qosEntity (target number : Nat) : Option Entity :=
  match target with
  | 0 => if h : number < 64 then some (.port ⟨number, h⟩) else none
  | 1 => if h : number < 16 then some (.link ⟨number, h⟩) else none
  | 2 => if h : number < 16 then some (.tambour ⟨number, h⟩) else none
  | 3 => if number = 0 then some .mgmt else none
  | _ => none

/-- Bytes of VALUE of an item, for the targets that have its registers. -/
def qosLength (target item : Nat) : Option Nat :=
  match item with
  | 0 => some 8
  | 1 => if target ≤ 1 then some 4 else none
  | 2 => if target = 0 then some 84 else none
  | 3 => if target = 0 then some 8 else none
  | 4 => some 4
  | 5 => some 4
  | _ => none

/-- Whether the input of QOS_SET has its form (Table MG-8). NUMBER is ignored for the items that are device-wide. -/
def qosForm (input : List Byte) : Bool :=
  let target := field input 0 1
  let item := field input 2 1
  decide (target ≤ 3) && ((qosEntity target (field input 1 1)).isSome || decide (item = 4 ∨ item = 5)) &&
    (match qosLength target item with
     | some n => decide (input.length = 8 + n)
     | none => false) && decide (field input 3 5 = 0)

/-- Apply an item: the return code, and the device unchanged where a check of Table SW-4 fails. -/
def Dev.qosApply (d : Dev) (input : List Byte) : Nat × Dev :=
  let number := field input 1 1
  let v := BitVec.ofNat 64 (field input 8 8)
  match field input 2 1, qosEntity (field input 0 1) number with
  | 0, some e =>
    let d' := d.setReserve e v
    if !d'.reserveOk e then (rcInvalid, d) else if !d'.reserveFits then (rcNoResource, d) else (rcSuccess, d'.showCells)
  | 1, some (.link s) => (rcSuccess, d.setReg (.stlClassWeight s) v)
  | 1, _ => (rcSuccess, d.setReg (.prtClassWeight number) v)
  | 2, _ =>
    (rcSuccess, (List.range 21).foldl
      (fun d i => d.setReg (.prtHostWeight number i) (BitVec.ofNat 64 (field input (8 + 4 * i) 4))) d)
  | 3, _ => if shapeOk v then (rcSuccess, d.setReg (.prtShape number) v) else (rcInvalid, d)
  | 4, _ => if d.ageLimitOk v.toNat then (rcSuccess, ageLimitWrite v.toNat d) else (rcInvalid, d)
  | 5, _ => (rcSuccess, d.setReg .devloadThr v)
  | _, _ => (rcInvalid, d)

/-- QOS_SET (R294, R116): a check that fails changes nothing. -/
def execQosSet (path : Path) (input : List Byte) (s : State) : Host.Outcome State Fault Refusal :=
  onDev s fun d => d.stoluo path 0xC018 false (qosForm input) fun d =>
    let (rc, d) := d.qosApply input
    d.finish path 0xC018 rc

/-! ### GATE_LIST_SET -/

/-- The egress that TARGET and NUMBER of GATE_LIST_SET name. -/
def gateTarget (input : List Byte) : Option Egress :=
  let n := field input 1 1
  match field input 0 1 with
  | 0 => if h : n < 64 then some (.port ⟨n, h⟩) else none
  | 1 => if h : n < 16 then some (.link ⟨n, h⟩) else none
  | _ => none

def gateForm (input : List Byte) : Bool :=
  let n := field input 2 1
  (gateTarget input).isSome && decide (n ≤ 63 ∧ field input 3 1 ≤ 1 ∧ field input 4 4 = 0 ∧ input.length = 16 + 4 * (n + 1)) &&
    (List.range (n + 1)).all fun i => decide (field input (16 + 4 * i) 4 < 2 ^ 30)

/-- The inactive bank, LENGTH and BASE as the command gives them. -/
def Dev.writeBank (d : Dev) (e : Egress) (input : List Byte) : Dev :=
  let n := field input 2 1
  let b := 1 - d.gclActive e
  let d := (List.range (n + 1)).foldl
    (fun d i => d.setReg (gclEntry e b i) (BitVec.ofNat 64 (field input (16 + 4 * i) 4))) d
  (d.wr (gclCtl e) 5 0 n).setReg (gclBase e) (BitVec.ofNat 64 (field input 8 8))

/-- GATE_LIST_SET: writes the inactive bank, sets EN and requests the swap, or changes nothing (R294). -/
def execGateListSet (path : Path) (input : List Byte) (s : State) : Host.Outcome State Fault Refusal :=
  onDev s fun d => d.stoluo path 0xC019 false (gateForm input) fun d =>
    match gateTarget input with
    | none => d.finish path 0xC019 rcInvalid
    | some e =>
      let d' := d.writeBank e input
      if !d'.gateListOk e then d.finish path 0xC019 rcInvalid
      else
        let on : Bool := decide (field input 3 1 = 1)
        let was := d'.bitOf (gclCtl e) 31
        let d' := d'.wr (gclCtl e) 31 31 (if on then 1 else 0)
        let d' := if on && !was then gclEnable e d' else d'
        (gclSwap e d').finish path 0xC019 rcSuccess

/-! ### MIRROR_SET -/

def mirrorForm (input : List Byte) : Bool :=
  decide (input.length = 24 ∧ field input 0 1 < 16 ∧ field input 1 3 = 0)

/-- MIRROR_SET: in DEPLOYED a session is enabled only with MIRROR_ALLOW (R294, R337). -/
def execMirrorSet (path : Path) (input : List Byte) (s : State) : Host.Outcome State Fault Refusal :=
  onDev s fun d => d.stoluo path 0xC01A false (mirrorForm input) fun d =>
    let n := field input 0 1
    let d' := ((d.setReg (.mirCtl n) (BitVec.ofNat 64 (field input 4 4))).setReg (.mirLo n)
      (BitVec.ofNat 64 (field input 8 8))).setReg (.mirHi n) (BitVec.ofNat 64 (field input 16 8))
    if d'.bitOf (.mirCtl n) 31 && decide (d.sec.otp.lifecycle = 2) && !d.bitOf .secStatus 23 then d.finish path 0xC01A rcLocked
    else if !d'.mirrorOk n then d.finish path 0xC01A rcInvalid
    else d'.finish path 0xC01A rcSuccess

end Sys2Proof.Machine
end

