-- ==== Sys2Proof/Machine/BcbCheck.lean ====
section
/-! DEFINITION. The Board Configuration Blob: what loading it sets, and the checks under which firmware refuses it (R28 to R30, R68,
R91, R116, R177, R262, R264, R268, R311, R373). -/

namespace Sys2Proof.Machine

/-! ### Loading (step 7 of Table MG-18) -/

/-- The registers that the QOS, STITCH, POWER, FAULTS and ACCESS sections and the port parameters set by their images. -/
def bcbSets : Reg → Bool
  | .intResv _ | .mgtResv | .prtResv _ | .stlResv _ | .prtClassWeight _ | .stlClassWeight _ | .prtHostWeight _ _ | .prtShape _
  | .prtGclCtl _ | .prtGclBase _ | .prtGclEntry _ _ _ | .stlGclCtl _ | .stlGclBase _ | .stlGclEntry _ _ _ | .hpCtl _ | .cplTo _
  | .linkCtl _ | .widthCtl _ | .trainCtl _ | .domCfg _ | .curve _ _ | .rail _ | .avs | .srcCfg _
  | .pStart _ | .pEnd _ | .pPorts _ | .pCtl _ | .rStart _ | .rEnd _ | .rPorts _ | .rCtl _ => true
  | _ => false

/-- Load one register image. Of PWR.RAIL it gives the insertion delay alone, of PWR.AVS EN and PMB_ADDR (R372), of GCL_CTL EN and
LENGTH. -/
def Dev.loadImage (d : Dev) (x : Nat × Word) : Dev :=
  match mgmtRegAt 0 x.1 with
  | some (.rail r) => d.wr (.rail r) 47 36 (getBits x.2 47 36)
  | some .avs => (d.wr .avs 31 31 (getBits x.2 31 31)).wr .avs 29 23 (getBits x.2 29 23)
  | some (.prtGclCtl p) => (d.wr (.prtGclCtl p) 31 31 (getBits x.2 31 31)).wr (.prtGclCtl p) 5 0 (getBits x.2 5 0)
  | some (.stlGclCtl s) => (d.wr (.stlGclCtl s) 31 31 (getBits x.2 31 31)).wr (.stlGclCtl s) 5 0 (getBits x.2 5 0)
  | some r => if bcbSets r then d.setReg r x.2 else d
  | none => d

/-- A field takes the value of an item; an item that the BCB leaves out leaves it at its reset value, which is its default (R311). -/
def Dev.item (d : Dev) (r : Reg) (hi lo : Nat) : Option Nat → Dev
  | some v => d.wr r hi lo v
  | none => d

/-- The firmware channels (Table DM-21). -/
def bcbFwChannels (b : Bcb) : List Nat := b.fwChannels.getD [3, 19, 35, 51]

/-- Every egress with a gate list. -/
def gatedEgresses : List Egress := ((List.finRange 64).map Egress.port) ++ ((List.finRange 16).map Egress.link)

/-- The gate lists that the BCB gives are in force from the load on, each at its place at the current fabric time (R124). -/
def Dev.loadGates (d : Dev) : Dev :=
  gatedEgresses.foldl (fun (d : Dev) e =>
    if d.bitOf (gclCtl e) 31 || decide (d.nextLength e ≠ 2) then d.setGate e (d.gatePlace e (d.nextLength e)) else d) d

/-- PRT.CFG as the PORTS and INTERLEAVE sections give it (Table CP-12). -/
def prtCfgImage (b : Bcb) (p : Nat) (x : BcbPort) : Word :=
  let set := ((b.sets.find? fun s => s.member.contains p || s.mirror.contains p).map (·.index)).getD 0
  BitVec.ofNat 64 (x.mode * 2 ^ 28 + x.width * 2 ^ 26 + (if x.fmPort then 2 ^ 25 else 0) + (if x.laneRev then 2 ^ 24 else 0) +
    x.maxRate * 2 ^ 20 + x.boundHost * 2 ^ 12 + set * 2 ^ 6)

/-- GLB.FAB_CFG as the GLOBAL section gives it (Table MF-8). -/
def fabCfgImage (b : Bcb) : Word :=
  BitVec.ofNat 64 ((if b.extended then 2 ^ 31 else 0) + (if b.timeRoot then 2 ^ 30 else 0) + (if b.altValid then 2 ^ 29 else 0) +
    b.timeParent * 2 ^ 20 + b.timeAlt * 2 ^ 16 + b.devId)

/-- log2 of a number of ways (WAYS, Table PB-3). -/
def wayCode (w : Nat) : Nat := if w = 1 then 0 else if w = 2 then 1 else if w = 4 then 2 else if w = 8 then 3 else 4

/-- The interleave set descriptor of a set whose members have yet to arrive (R30 to R32). -/
def setDescOf (s : BcbSet) : SetDesc :=
  { valid := true, ways := wayCode s.ways, gran4k := s.gran4k, mirrored := s.mirrored, member := s.member, mirror := s.mirror
    okP := 0, okM := 0, resyncP := 0, resyncM := 0, inService := false, first := s.first, count := s.ways * s.capacity / 64 }

/-- Slot windows in ascending port, each where the one before it ends (R28). -/
def windowsFrom : Nat → List (Nat × BcbPort) → Table Nat (Nat × Nat × Nat)
  | _, [] => []
  | base, (p, x) :: r => (p, (base, x.region0, x.region1)) :: windowsFrom (base + x.region0 + x.region1) r

/-- The HOST ports of a BCB in ascending order. -/
def bcbHosts (b : Bcb) : List (Nat × BcbPort) :=
  (List.range 64).filterMap fun p => b.ports.find? fun x => decide (x.1 = p ∧ x.2.mode = 1)

/-- Every register that the BCB sets, and the pool's windows and sets. -/
def Dev.loadBcb (d : Dev) (b : Bcb) : Dev :=
  let d := d.setReg .fabCfg (fabCfgImage b)
  let d := (List.range 16).foldl (fun d t => d.wr (.dirStatus t) 31 30 (if b.extended then 1 else 0)) d
  let d := (d.item .tollCtl 23 16 b.miss).item .tollCtl 15 0 b.tollPeriod
  let d := (d.item .ageLimit 16 0 b.ageLimit).item .devloadThr 23 0 b.devload
  let d := (List.range 16).foldl (fun d t => d.item (.dirBiTimeout t) 19 0 b.biTimeout) d
  let d := b.ports.foldl (fun d x => d.setReg (.prtCfg x.1) (prtCfgImage b x.1 x.2)) d
  let d := b.links.foldl (fun d x => d.setReg (.stlCfg x.1) x.2) d
  let d := b.nbrs.foldl (fun d x => (d.setReg (.nbr x.1) x.2).wr (.nbr x.1) 61 60 0 |>.wr (.nbr x.1) 15 0 0) d
  let d := b.routes.foldl (fun d x => d.setReg (.route x.1) x.2) d
  let d := (List.finRange 64).foldl (fun d p => d.setReg (.prtResv p) (reserveImage (d.defaultReserve (.port p)))) d
  let d := (List.finRange 16).foldl (fun d s => d.setReg (.stlResv s) (reserveImage (d.defaultReserve (.link s)))) d
  let d := (List.finRange 16).foldl (fun d t => d.setReg (.intResv t) (reserveImage (d.defaultReserve (.tambour t)))) d
  let d := d.setReg .mgtResv (reserveImage (d.defaultReserve .mgmt))
  let d := (d.wr .secStatus 22 21 b.secPaths).wr .secStatus 23 23 (if b.mirrorAllow then 1 else 0)
  let d := (b.registers.foldl Dev.loadImage d).loadGates
  { d with
    pool := { d.pool with
      windows := windowsFrom 0 (bcbHosts b)
      hubA := { d.pool.hubA with sets := b.sets.map fun s => (s.index, setDescOf s) }
      hubB := { d.pool.hubB with sets := b.sets.map fun s => (s.index, setDescOf s) }
      setCache := []
      setCap := b.sets.map fun s => (s.index, s.capacity) }
    svc := { d.svc with fwChannels := bcbFwChannels b } }

/-! ### Checks -/

/-- The port IDs whose quads a port occupies (R12). -/
def portQuads (p : Nat) (x : BcbPort) : List Nat := (List.range (widthQuads x.width)).map (p + ·)

/-- Required sections are present (Table MG-20). -/
def bcbSectionsOk (b : Bcb) : Bool :=
  let has (t : Nat) : Bool := b.sections.contains t
  has 1 && has 2 && has 8 && has 9 && has 10 && decide b.sections.Nodup &&
    (has 3 || !(b.ports.any fun x => decide (x.2.mode = 2))) && (has 4 || b.links.isEmpty) &&
    ((has 5 && has 6) || !(b.links.any fun x => decide (getBits x.2 31 30 = 1)))

/-- Ports: known, of a defined mode, width and rate, on their own quads; a PASS port names a HOST port (R12, R14, R204). -/
def bcbPortsOk (b : Bcb) : Bool :=
  b.ports.all (fun x => decide (x.1 < 64 ∧ 1 ≤ x.2.mode ∧ x.2.mode ≤ 3 ∧ x.2.width ≤ 2 ∧ x.1 % widthQuads x.2.width = 0 ∧
    1 ≤ x.2.maxRate ∧ x.2.maxRate ≤ 6) &&
    (decide (x.2.mode ≠ 3) || ((bcbHosts b).any fun h => decide (h.1 = x.2.boundHost)))) &&
  decide (b.ports.flatMap fun x => portQuads x.1 x.2).Nodup

/-- Slot windows (R28). -/
def bcbWindowsOk (b : Bcb) : Bool :=
  (bcbHosts b).all (fun x => decide (x.2.region0 % 1024 = 0 ∧ x.2.region1 % 1024 = 0 ∧ x.2.region0 + x.2.region1 ≤ 262144)) &&
  decide (((bcbHosts b).map fun x => x.2.region0 + x.2.region1).sum ≤ 1048576)

/-- One interleave set (R29, R30). -/
def bcbSetOk (b : Bcb) (s : BcbSet) : Bool :=
  let pool (p : Nat) : Bool := b.ports.any fun x => decide (x.1 = p ∧ x.2.mode = 2)
  decide (s.index < 64) && [1, 2, 4, 8, 16].contains s.ways && (!s.mirrored || decide (s.ways ≤ 8)) &&
    decide (s.member.length = s.ways ∧ s.mirror.length = (if s.mirrored then s.ways else 0)) &&
    s.member.all pool && s.mirror.all pool && decide (s.ways * s.capacity % 64 = 0 ∧ s.first + s.ways * s.capacity / 64 ≤ 1048576)

/-- The sets together: numbers, ports and block ranges are apart. -/
def bcbSetsOk (b : Bcb) : Bool :=
  b.sets.all (bcbSetOk b) && decide (b.sets.map (·.index)).Nodup && decide (b.sets.flatMap fun s => s.member ++ s.mirror).Nodup &&
  decide (b.sets.Pairwise fun x y =>
    x.first + x.ways * x.capacity / 64 ≤ y.first ∨ y.first + y.ways * y.capacity / 64 ≤ x.first)

/-- The offer timeout in seconds (Table PB-13). -/
def bcbOfferTimeout (b : Bcb) : Nat := b.offerTimeout.getD 30

/-- The quota drain timeout in milliseconds (Table DM-21). -/
def bcbDrainTimeout (b : Bcb) : Nat := b.drainTimeout.getD 1000

/-- The age limit (Table SW-7) and the BISnp timeout (Table CO-19) in microseconds. -/
def bcbAgeLimit (b : Bcb) : Nat := b.ageLimit.getD 500
def bcbBiTimeout (b : Bcb) : Nat := b.biTimeout.getD 2000

/-- Whether an item is left out or lies in its range. -/
def inRange (v : Option Nat) (lo hi : Nat) : Bool := v.all fun n => decide (lo ≤ n ∧ n ≤ hi)

/-- Parameters with a range: Tables PB-13, CO-19, SW-7, MF-9, DM-21, and the firmware channels (R177). -/
def bcbRangesOk (b : Bcb) : Bool :=
  inRange (some (bcbOfferTimeout b)) 1 600 && inRange (some (bcbDrainTimeout b)) 10 60000 &&
    inRange b.biTimeout 10 1000000 && inRange b.ageLimit 1 100000 && decide (bcbAgeLimit b < bcbBiTimeout b) &&
    inRange b.miss 2 64 && inRange b.tollPeriod 10 1000 &&
    decide (b.devId < (if b.extended then 2048 else 8) ∧ 4 ≤ (bcbFwChannels b).length ∧ (bcbFwChannels b).Nodup ∧ b.secPaths ≤ 3) &&
    (bcbFwChannels b).all fun c => decide (c < 64)

/-- The neighbour map: every link of a bundle names its slot and its device, and no Device ID stands twice (R264). -/
def Dev.nbrsOk (d : Dev) : Bool :=
  let valid := (List.range 16).filter d.slotValid
  decide (valid.map d.slotDev).Nodup && valid.all fun n => (d.bundle n).all fun s =>
    decide (d.rd (.stlCfg s) 31 30 = 1 ∧ d.linkSlot s = n ∧ d.rd (.stlCfg s) 19 8 = d.slotDev n)

/-- One power-domain image: FLOOR and ranges (R359, R373, Tables PW-1, PW-12). -/
def domCfgOk (i : Nat) (v : Word) : Bool :=
  let floor := getBits v 31 30
  let ramp := getBits v 26 19
  decide (10 ≤ ramp ∧ ramp ≤ 200 ∧ 1 ≤ getBits v 18 8 ∧ 1 ≤ getBits v 7 0) &&
    (if i = 0 then decide (floor = 0) else if i < 8 then decide (floor ≤ 2) else true)

/-- The used points of a curve: at least one, before every unused one, in ascending current and descending time (R373). -/
def curveOk (pts : List Word) : Bool :=
  let used := pts.takeWhile fun v => decide (getBits v 31 24 ≠ 0)
  !used.isEmpty && (pts.drop used.length).all (fun v => decide (getBits v 31 24 = 0)) &&
    used.all (fun v => decide (51 ≤ getBits v 31 24 ∧ getBits v 31 24 ≤ 199 ∧ 1 ≤ getBits v 19 0 ∧ getBits v 19 0 ≤ 1000000)) &&
    decide (used.Pairwise fun x y => getBits x 31 24 < getBits y 31 24 ∧ getBits y 19 0 < getBits x 19 0)

/-- The POWER section's values. -/
def Dev.powerOk (d : Dev) : Bool :=
  ((List.range 124).all fun i => domCfgOk i (d.reg (.domCfg i))) &&
  ((List.range 8).all fun c => curveOk ((List.range 8).map fun k => d.reg (.curve c k))) &&
  (List.range 7).all fun r => decide (5 ≤ d.rd (.rail r) 47 36 ∧ d.rd (.rail r) 47 36 ≤ 500)

/-- Whether both banks of an egress pass the gate-list row of Table SW-4. -/
def Dev.banksOk (d : Dev) (e : Egress) : Bool := [0, 1].all fun b => (d.wr (gclCtl e) 29 29 (1 - b)).gateListOk e

/-- The QOS section's values (Table SW-4). Both banks of every gate list are checked, enabled or not. -/
def Dev.qosOk (d : Dev) : Bool :=
  ((List.finRange 64).all fun p => d.reserveOk (.port p) && shapeOk (d.reg (.prtShape p))) &&
  ((List.finRange 16).all fun s => d.reserveOk (.link s) && d.reserveOk (.tambour s)) && d.reserveOk .mgmt && d.reserveFits && gatedEgresses.all d.banksOk

/-- Whether firmware accepts a BCB at step 6 of Table MG-18. d holds what the BCB would set. -/
def Dev.bcbOk (d : Dev) (b : Bcb) : Bool :=
  let d := (d.resetDomain .cold).loadBcb b
  (bcbSectionsOk b) && !b.broken && (bcbPortsOk b) && (bcbWindowsOk b) && (bcbSetsOk b) && (bcbRangesOk b) && d.nbrsOk && d.powerOk && d.qosOk &&
    b.routes.all fun x => d.routeOk x.1 x.2

end Sys2Proof.Machine
end

