-- ==== Sys2Proof/Machine/Ports.lean ====
section
/-! DEFINITION. CXL ports: the port states, the sideband chain, removal and teardown, bring-up, and what a host sees of
its own port (R200 to R223). -/

namespace Sys2Proof.Machine

/-! ### What a port's states share -/

/-- The Carillon source of a port's transactions (Table FI-2, k = 2). -/
def portTxnSource (p : Nat) : Nat := 0x100 + 4 * p + 2

/-- Whether the settle timer of a port runs. -/
def Dev.settling (d : Dev) (p : Nat) : Bool := d.bitOf (.hpStatus p) 23

/-- Start or restart the settle timer (R216). -/
def Dev.startSettle (d : Dev) (p : Nat) : Dev := d.wr (.hpStatus p) 23 23 1

/-- The link of a port leaves DL_Up: the fields that describe it read 0 and its IDE keys are erased (R332). -/
def Dev.dropLink (d : Dev) (p : Nat) : Dev :=
  let d := d.wr (.prtStatus p) 23 8 0
  { d with sec := { d.sec with ideKeys := d.sec.ideKeys.filter fun e => !decide (e.1.1 = p) } }

/-- Enter FAILED: the link is held down and messages queued for the port complete as discarded (Table CP-6, R463). -/
def Dev.enterFailed (d : Dev) (p reason : Nat) : Dev :=
  if h : p < 64 then ((d.dropLink p).flushEgress (.port ⟨p, h⟩)).enterPort p 10 reason else d

/-- The same with the event reported. A power fault is reported when it is raised, and not here (R213). -/
def Dev.failPort (d : Dev) (p reason : Nat) : Dev :=
  if p < 64 then (d.enterFailed p reason).report (portSource p) (openClass 207) reason else d

/-- Raise a power fault once: PFAULT is set and the fault reported until it has been re-armed (R213). -/
def Dev.raisePowerFault (d : Dev) (p : Nat) : Dev :=
  if d.bitOf (.hpStatus p) 25 then d
  else ((d.wr (.hpStatus p) 25 25 1).modPort p fun r => { r with fclr := false }).report (portSource p) (openClass 213) 2

/-- Re-arm the power fault once FCLR has been written and PWRFLT_B is accepted inactive, in either order (R213). -/
def Dev.rearm (d : Dev) (p : Nat) : Dev :=
  if (d.prec p).fclr && d.bitOf (.hpStatus p) 28 then d.wr (.hpStatus p) 25 25 0 else d

/-! ### Teardown (R214 to R217, Table CP-8a) -/

/-- Whether every item of the port's row of Table CP-8a has completed. -/
def Dev.teardownDone (d : Dev) (p : Nat) : Bool :=
  match d.portMode p with
  | 1 => d.hostClear p
  | 2 => d.memberClear p
  | _ => if h : p < 64 then !d.queuedFor (.port ⟨p, h⟩) else true

/-- The items of Table CP-8a. bound says that the port was in ACTIVE or DRAIN, so that a host's removal is a death. -/
def Dev.teardownItems (d : Dev) (p : Nat) (bound : Bool) : Dev :=
  match d.portMode p with
  | 1 => if bound then (if h : p < 64 then (d.declareDeath (.port ⟨p, h⟩) 2).hostGone p else d) else d
  | 2 => d.memberLost p
  | 3 =>
    let mine := d.mgmt.ioPending.filter fun x => decide (x.1 = p)
    let d := { d with mgmt := { d.mgmt with ioPending := d.mgmt.ioPending.filter fun x => !decide (x.1 = p) } }
    let d := mine.foldl (fun d x => d.emit (.ioCpl x.2.1 x.2.2 1 0)) d
    d.modPort p fun r => { r with vppb := { r.vppb with
      linkUp := false, presence := true, dllChange := true, dpc := r.vppb.dpc || Config.dpcEnabled p } }
  | _ => d

/-- The stronger of two outcomes of a teardown when happenings meet (Table CP-9): quarantine, then a power fault. -/
def AfterTeardown.join (a b : AfterTeardown) : AfterTeardown :=
  match a, b with
  | .quarantine, _ => .quarantine
  | _, .quarantine => .quarantine
  | .failed r, _ => .failed r
  | _, .failed r => .failed r
  | .settle, _ => .settle
  | _, b => b

/-- Enter TEARDOWN, or, where it already runs, add to its outcome: teardown runs once (R217). -/
def Dev.teardown (d : Dev) (p : Nat) (settle : Bool) (after : AfterTeardown) : Dev :=
  if h : p < 64 then
    let d := if settle then d.startSettle p else d
    if d.portState p = 7 then d.modPort p fun r => { r with after := r.after.join after }
    else
      let bound := decide (d.portState p = 5 ∨ d.portState p = 6)
      let d := (d.dropLink p).flushEgress (.port ⟨p, h⟩)
      let d := (d.enterPort p 7 0).modPort p fun r => { r with after := after, readyOk := false, timeouts := 0 }
      d.teardownItems p bound
  else d

/-- A surprise removal takes an orderly removal that is in progress (Table CP-9). -/
def Dev.dropRemoval (d : Dev) (p : Nat) : Dev :=
  match (d.prec p).removal with
  | some path => (d.modPort p fun r => { r with removal := none }).bgResult path rcConflict 0
  | none => d

/-- The removal of a port's occupant is recognised (R214): with an occupant, TEARDOWN with settle; a FAILED port passes through SETTLE
where its PRSNT_B is accepted inactive, and stays on any other cause (Table CP-6). -/
def Dev.removal (d : Dev) (p : Nat) : Dev :=
  let st := d.portState p
  if 2 ≤ st ∧ st ≤ 7 then (d.dropRemoval p).teardown p true .settle
  else if st = 10 ∧ d.bitOf (.hpStatus p) 31 then (d.startSettle p).enterPort p 8 0
  else d

/-- A command that waited for a teardown completes. -/
def Dev.teardownAnswers (d : Dev) (p : Nat) : Dev :=
  let r := d.prec p
  let d := d.modPort p fun r => { r with removal := none, resetBy := none }
  let d := match r.removal with
    | some path => d.bgResult path rcSuccess 0
    | none => d
  match r.resetBy with
  | some path => d.finish path 0xC058 rcSuccess
  | none => d

/-- TEARDOWN is complete: the port goes where Table CP-6 sends it. -/
def Dev.teardownEnd (d : Dev) (p : Nat) : Dev :=
  let d := d.teardownAnswers p
  match (d.prec p).after with
  | .quarantine => d.enterPort p 9 0
  | .failed r => d.enterFailed p r
  | .settle => if d.settling p then d.enterPort p 8 0 else d.enterPort p 1 0
  | .idle => if d.settling p then d.enterPort p 8 0 else d.enterPort p 1 0

/-! ### Starting (Table CP-6) -/

/-- Whether the accepted levels may be used: the chain is off and they are fixed, or they are valid (R208, R209). -/
def Dev.levelsUsable (d : Dev) (p : Nat) : Bool := !d.bitOf .sbsCtl 31 || d.bitOf (.hpStatus p) 27

/-- The part of the start condition that every mode shares: the occupant is present. -/
def Dev.present (d : Dev) (p : Nat) : Bool := d.levelsUsable p && !d.bitOf (.hpStatus p) 31

/-- The rest of the start condition, without PWRFLT_B (Table CP-6, R204). -/
def Dev.mayStart (d : Dev) (p : Nat) : Bool :=
  d.present p && !(d.prec p).held &&
    (match d.portMode p with
     | 1 => d.bitOf (.hpStatus p) 30
     | 2 => true
     | 3 => decide (d.portState (d.rd (.prtCfg p) 17 12) = 5) && !(d.prec p).vppb.powerOff
     | _ => false)

/-! ### The sideband chain (R208 to R213) -/

/-- Levels the device drives for a POOL or PASS port in a state: PERST_B, PWREN (Table CP-5, Table CP-6). A PASS port
whose host is being torn down keeps PERST_B low (Table CP-8a). -/
def Dev.wanted (d : Dev) (p : Nat) : Bool × Bool :=
  let st := d.portState p
  let hostDown := d.portMode p = 3 ∧ d.portState (d.rd (.prtCfg p) 17 12) = 7
  (decide (3 ≤ st ∧ st ≤ 6) && !decide hostDown, decide (2 ≤ st ∧ st ≤ 6))

/-- The next driven levels of a port: after an orderly removal PWREN falls one scan after PERST_B (Table CP-10, R222); a power fault
drops both at once (R213). -/
def Dev.driveOutputs (d : Dev) (p : Nat) : Dev :=
  if d.portMode p = 2 ∨ d.portMode p = 3 then
    let (perst, pwren) := d.wanted p
    let orderly := ((d.prec p).held || (d.prec p).vppb.powerOff) && decide ((d.prec p).after = .idle)
    let keep := orderly && d.bitOf (.hpStatus p) 30 && d.bitOf (.hpStatus p) 29
    (d.wr (.hpStatus p) 30 30 (if perst then 1 else 0)).wr (.hpStatus p) 29 29 (if pwren || keep then 1 else 0)
  else d

/-- The output frame of a scan (Table CP-7): 1 in every input position. -/
def Dev.outFrame (d : Dev) : BitVec 256 :=
  BitVec.ofNat 256 <| (List.range 64).foldl (fun n p =>
    let nib := match d.portMode p with
      | 1 => 3
      | 2 | 3 => 9 + 2 * d.rd (.hpStatus p) 30 30 + 4 * d.rd (.hpStatus p) 29 29
      | _ => 0
    n + nib * 16 ^ p) 0

/-- The bit of PRT.HP_STATUS that holds the accepted level of a scanned line. -/
def lineBit (line : Nat) : Nat := if line = 0 then 31 else if line = 1 then 30 else 28

/-- The lines of a port that the device takes into account (Table CP-7); none of a quarantined port (R212), which R211 then does not count
either (DEDUCED, log entry 71). -/
def Dev.scannedLines (d : Dev) (p : Nat) : List Nat :=
  if d.portState p = 9 then []
  else match d.portMode p with
  | 1 => [0, 1]
  | 2 | 3 => [0, 3]
  | _ => []

def PortRec.runOf (r : PortRec) (line : Nat) : Nat :=
  if line = 0 then r.run.1 else if line = 1 then r.run.2.1 else r.run.2.2

def PortRec.setRun (r : PortRec) (line n : Nat) : PortRec :=
  { r with run := if line = 0 then (n, r.run.2) else if line = 1 then (r.run.1, n, r.run.2.2) else (r.run.1, r.run.2.1, n) }

/-- Times within the last 10 ms. -/
def within10ms (now : Nat) (ts : List Nat) : List Nat := ts.filter fun t => decide (now < t + 10000000)

/-- A new level is accepted: the edge is counted; a PRSNT_B edge restarts a running settle timer; an inactive PRSNT_B
releases a held port and an inactive PWRFLT_B can re-arm the power fault (R209, R212, R213, R216, R220). -/
def Dev.acceptLevel (d : Dev) (p line : Nat) (level : Bool) : Dev :=
  let d := (d.wr (.hpStatus p) (lineBit line) (lineBit line) (if level then 1 else 0)).modPort p fun r => r.setRun line 0
  let d := if line = 0 && level then d.modPort p fun r => { r with held := false } else d
  let d := if line = 3 && level then d.rearm p else d
  if d.bitOf (.hpStatus p) 27 then
    let es := within10ms d.now ((d.prec p).edges ++ [d.now])
    (d.modPort p fun r => { r with edges := es }).wr (.hpStatus p) 22 16 (min 127 es.length)
  else d

/-- A change that did not hold for 8 scans is rejected and counted; more than 64 within 10 ms raise one degraded event
(R210). -/
def Dev.rejectChange (d : Dev) (p line : Nat) : Dev :=
  let d := d.modPort p fun r => r.setRun line 0
  if d.bitOf (.hpStatus p) 27 then
    let rs := within10ms d.now ((d.prec p).rejects ++ [d.now])
    let d := (d.modPort p fun r => { r with rejects := rs }).bumpWrap (.hpStatus p) 15 0 1
    if decide (64 < rs.length) && !d.bitOf (.hpStatus p) 24 then
      (d.wr (.hpStatus p) 24 24 1).report (portSource p) 1 0
    else d
  else d

/-- The filter of R209 on one line of one port. -/
def Dev.filterLine (d : Dev) (p line : Nat) (level : Bool) : Dev :=
  let r := (d.prec p).runOf line
  if level = d.bitOf (.hpStatus p) (lineBit line) then (if r = 0 then d else d.rejectChange p line)
  else if r + 1 = 8 then d.acceptLevel p line level
  else d.modPort p fun x => x.setRun line (r + 1)

/-- The ports whose PRSNT_B this scan shows changed against its accepted level (R211). The accepted level of a port that no scan has
reached is the reset value of PRT.HP_STATUS, active, so that a chain that is open from the start ends in the chain fault, as R440 says
(DEDUCED, log entry 64). -/
def Dev.presenceChanges (d : Dev) (frame : BitVec 256) : Nat :=
  ((List.range 64).filter fun p =>
    (d.scannedLines p).contains 0 && (frame.getLsbD (4 * p) != d.bitOf (.hpStatus p) 31)).length

/-- Whether the device takes sideband inputs into account: the chain is on and not frozen (R208, R211). -/
def Dev.chainServes (d : Dev) : Bool := d.bitOf .sbsCtl 31 && !d.bitOf .sbsStatus 31

/-- One scan of the chain (R208 to R212): the outputs, then the filtered inputs, unless the chain is off or frozen. -/
def sbsScan (frame : BitVec 256) (d : Dev) : Dev :=
  if !d.bitOf .sbsCtl 31 then d
  else
    let frozen := d.bitOf .sbsStatus 31
    let d := ({ d with port := { d.port with scans := d.port.scans + if frozen then 0 else 1 } }).bumpWrap .sbsStatus 30 0 1
    let d := if frozen then d else (List.range 64).foldl (fun d p => d.driveOutputs p) d
    let d := d.emit (.sbs d.outFrame)
    if frozen then d
    else if 8 < d.presenceChanges frame then
      (d.wr .sbsStatus 31 31 1).report 0x390 2 0
    else
      let d := (List.range 64).foldl
        (fun d p => (d.scannedLines p).foldl (fun d line => d.filterLine p line (frame.getLsbD (4 * p + line))) d) d
      if d.port.scans = 8 then (List.range 64).foldl (fun d p => d.wr (.hpStatus p) 27 27 1) d else d

/-- RESUME ends a chain fault and restarts the filter from the accepted levels (R211). -/
def sbsResume (d : Dev) : Dev :=
  let d := (List.range 64).foldl (fun d p => d.modPort p fun r => { r with run := (0, 0, 0) }) (d.wr .sbsStatus 31 31 0)
  { d with port := { d.port with scans := 0 } }

/-- QCLR ends QUARANTINE into SETTLE with the timer started (R212). -/
def hpQclr (p : Nat) (d : Dev) : Dev := if d.portState p = 9 then (d.startSettle p).enterPort p 8 0 else d

/-- FCLR clears NOISE and is one of the two conditions that re-arm the power fault (R210, R213). -/
def hpFclr (p : Nat) (d : Dev) : Dev :=
  ((d.wr (.hpStatus p) 24 24 0).modPort p fun r => { r with fclr := true }).rearm p

/-- RETRY in FAILED leads to IDLE, unless a power fault has not been re-armed (R213). -/
def hpRetry (p : Nat) (d : Dev) : Dev :=
  if d.portState p = 10 ∧ ¬ d.bitOf (.hpStatus p) 25 then d.enterPort p 1 0 else d

/-! ### Meanings -/

/-- Whether a HOST port has a function (Table CP-4). -/
def Dev.functionThere (d : Dev) (p fn : Nat) : Bool :=
  decide (fn ≤ 1) || (decide (fn = 2) && d.bitOf (.prtCfg p) 25) ||
    (decide (64 ≤ fn ∧ fn < 128 ∧ d.portMode (fn - 64) = 3 ∧ d.rd (.prtCfg (fn - 64)) 17 12 = p))

/-- What a configuration request reads, so far as this manual says what stands there (R205): the header type, the slot capabilities of
a vPPB, or any other register, which is PCIe's or CXL's. -/
inductive CfgItem
  | headerType | slotCapabilities | other
  deriving DecidableEq, Repr

/-- What a configuration read of a function gives, of which v holds the bits that PCIe and CXL leave to an implementation: the header
type of Table CP-4, with the multi-function bit, and the slot capabilities of a vPPB: a power controller and hot-plug surprise, but no
attention button, MRL sensor or indicator (R205, R222). The places of the bits are those of PCIe Base 6.x (PRESUMED, log entry 65). -/
def cfgValue (fn : Nat) (item : CfgItem) (v : Word) : Word :=
  match item with
  | .headerType => if fn < 64 then 0x80 else 0x81
  | .slotCapabilities => if fn < 64 then v else (v &&& ~~~0x3F) ||| 0x22
  | .other => v

/-- CONFIG_REQUEST: Configuration Retry Status until the port is ready, then the function's answer, or Unsupported Request where no
such function is present (R205, R206). The command does not say which register the request names: that is open, as k. -/
def execConfigRequest (p : Fin 64) (fn : Fin 256) (tag : Nat) (s : State) : Host.Outcome State Fault Refusal :=
  onDev s fun d =>
    if d.portMode p ≠ 1 then d
    else if d.portState p = 4 then d.emit (.ioCpl p tag 2 0)
    else if d.portState p = 5 then
      if d.functionThere p fn then
        let (k, d) := d.openNat
        let (v, d) := d.openBits 64
        d.emit (.ioCpl p tag 0 (cfgValue fn (if k = 0 then .headerType else if k = 1 then .slotCapabilities else .other) v))
      else d.emit (.ioCpl p tag 1 0)
    else d

/-- A locked request completes with Unsupported Request on every function and every vPPB (R305). -/
def execLockedRequest (p : Fin 64) (_fn : Fin 256) (tag : Nat) (s : State) : Host.Outcome State Fault Refusal :=
  onDev s fun d => if d.portMode p = 1 ∧ (d.portState p = 4 ∨ d.portState p = 5) then d.emit (.ioCpl p tag 1 0) else d

/-- IDLE and its start condition (Table CP-6, R213). -/
def execPortStartCondition (p : Fin 64) (s : State) : Host.Outcome State Fault Refusal :=
  onDev s fun d =>
    if d.portState p = 1 ∧ d.mayStart p then
      if d.portMode p = 1 then d.enterPort p 3 0
      else if d.bitOf (.hpStatus p) 28 then d.enterPort p 2 0
      else (d.raisePowerFault p).enterPort p 10 2
    else d

def execPortPowerElapsed (p : Fin 64) (s : State) : Host.Outcome State Fault Refusal :=
  onDev s fun d => if d.portState p = 2 ∧ d.bitOf (.hpStatus p) 28 then d.enterPort p 3 0 else d

/-- With a gate list in force, an open interval shorter than its guard band at the width and rate in use is reported as a degraded
event (R126); adjacent open entries are one interval. -/
def Dev.gateWarn (d : Dev) (p : Fin 64) : Dev :=
  let e := Egress.port p
  let n := (d.gateRun e).length
  let b := d.gclActive e
  let short (c : MsgClass) : Bool :=
    let l : List (Bool × Nat) := wrapRuns ((List.range n).map fun i => (d.gateOpens e b i c, d.gateInterval e b i))
    decide (2 ≤ l.length) && l.any fun x => x.1 && decide (x.2 < d.guardBand e)
  if d.bitOf (gclCtl e) 31 && (short .req || short .rsp) then d.report (portSource p) 1 0 else d

/-- Whether a link can run at a rate and width of a port: no faster than MAX_RATE, no wider than WIDTH, and 64 GT/s in flit mode alone
(R200). -/
def Dev.trains (d : Dev) (p rate lanes : Nat) (flit : Bool) : Bool :=
  decide (rate ≤ d.rd (.prtCfg p) 23 20 ∧ lanes ≤ 4 * widthQuads (d.rd (.prtCfg p) 27 26)) && (flit || decide (rate ≤ 5))

/-- Whether the flit mode that a partner has negotiated is one its mode takes: a HOST or POOL port takes 256-byte flits at any rate and
68-byte flits at 8 to 32 GT/s; a PASS port takes a PCIe partner too (R200, R201, R203). -/
def Dev.flitsOk (d : Dev) (p rate : Nat) (flit256 : Bool) : Bool :=
  flit256 || decide (d.portMode p = 3) || decide (3 ≤ rate ∧ rate ≤ 5)

/-- DL_Up in TRAIN: SETUP, or FAILED with reason 1 where the partner is not of the kind the mode names (R203). partnerOk says what the
rate and the flit mode do not: that the partner is of the kind, with the capabilities, that R203 gives. -/
def execPortDlUp (p : Fin 64) (rate lanes : Nat) (flit256 bi partnerOk : Bool) (s : State) :
    Host.Outcome State Fault Refusal :=
  onDev s fun d =>
    if d.portState p = 3 ∧ d.trains p rate lanes flit256 then
      let d := (d.wr (.prtStatus p) 23 21 rate).wr (.prtStatus p) 20 16 lanes
      let d := (d.wr (.prtStatus p) 15 15 (if flit256 then 1 else 0)).wr (.prtStatus p) 14 14
        (if flit256 && bi && decide (d.portMode p = 1) then 1 else 0)
      let d := (d.enterPort p 4 0).gateWarn p
      if partnerOk && d.flitsOk p rate flit256 then d else d.failPort p 1
    else d

def execPortTrainTimeout (p : Fin 64) (s : State) : Host.Outcome State Fault Refusal :=
  onDev s fun d => if d.portState p = 3 then d.failPort p 3 else d

def execConfigRetryTimeout (p : Fin 64) (s : State) : Host.Outcome State Fault Refusal :=
  onDev s fun d => if d.portMode p = 1 ∧ d.portState p = 4 then d.failPort p 4 else d

/-- SETUP ends: HOST when firmware is ready, POOL when bring-up has passed, PASS at once (Table CP-6, R218). -/
def execPortSetupComplete (p : Fin 64) (s : State) : Host.Outcome State Fault Refusal :=
  onDev s fun d =>
    if d.portState p = 4 then
      match d.portMode p with
      | 1 => if d.mgmt.fwUp then d.enterPort p 5 0 else d
      | 2 => if (d.prec p).readyOk then (d.enterPort p 5 0).memberJoins p else d
      | 3 => (d.enterPort p 5 0).modPort p fun r => { r with vppb := { r.vppb with linkUp := true, dllChange := true } }
      | _ => d
    else d

/-- The steps of R218 in order; the first that fails gives the reason. capacity is in MiB. -/
def execPoolBringUp (p : Fin 64) (enumerates cdatOk : Bool) (capacity : Nat) (commitOk : Bool) (s : State) :
    Host.Outcome State Fault Refusal :=
  onDev s fun d =>
    if d.portMode p = 2 ∧ d.portState p = 4 then
      let need := (d.setOfPort p).map fun w => tgetD d.pool.setCap w.1 0
      if !enumerates || !cdatOk then d.failPort p 4
      else match need with
        | some c =>
          if capacity < c then d.failPort p 5
          else if !commitOk then d.failPort p 4
          else d.modPort p fun r => { r with readyOk := true }
        | none => d.modPort p fun r => { r with readyOk := true }
    else d

def execRemovalRecognised (p : Fin 64) (s : State) : Host.Outcome State Fault Refusal := onDev s fun d => d.removal p

/-- TEARDOWN ends once every item of Table CP-8a has completed. Until then a POOL port's lost lines that were busy when the loss came are
back-invalidated as their granules come free. -/
def execTeardownComplete (p : Fin 64) (s : State) : Host.Outcome State Fault Refusal :=
  onDev s fun d =>
    if d.portState p ≠ 7 then d
    else if d.teardownDone p then d.teardownEnd p
    else if d.portMode p = 2 then d.sweepLost p
    else d

/-- The settle timer expires: SETTLING clears, and SETTLE ends in IDLE (R216). -/
def execSettleExpiry (p : Fin 64) (s : State) : Host.Outcome State Fault Refusal :=
  onDev s fun d =>
    if d.settling p then
      let d := d.wr (.hpStatus p) 23 23 0
      if d.portState p = 8 then d.enterPort p 1 0 else d
    else d

/-- Whether a port's inputs have more than 16 accepted edges in the last 10 ms (R212). -/
def Dev.chatters (d : Dev) (p : Nat) : Bool := d.chainServes && decide (16 < (within10ms d.now (d.prec p).edges).length)

/-- Chatter: TEARDOWN with settle, then QUARANTINE, from any state but OFF; the quarantine is reported (R212). -/
def execChatterDetected (p : Fin 64) (s : State) : Host.Outcome State Fault Refusal :=
  onDev s fun d =>
    if d.portState p = 0 ∨ d.portState p = 9 ∨ ¬ d.chatters p then d
    else ((d.dropRemoval p).teardown p true .quarantine).report (portSource p) (openClass 212) 9

/-- Whether PWRFLT_B of a POOL or PASS port is accepted active (R209, R213). -/
def Dev.powerFaulty (d : Dev) (p : Nat) : Bool :=
  d.chainServes && d.bitOf (.hpStatus p) 27 && !d.bitOf (.hpStatus p) 28 && decide (d.portMode p = 2 ∨ d.portMode p = 3)

/-- PWRFLT_B accepted active: with power on, TEARDOWN and then FAILED with reason 2; in IDLE with the start condition
otherwise holding, FAILED at once (R213, Table CP-9). -/
def execPwrfltAccepted (p : Fin 64) (s : State) : Host.Outcome State Fault Refusal :=
  onDev s fun d =>
    if !d.powerFaulty p then d
    else
      let st := d.portState p
      if 2 ≤ st ∧ st ≤ 7 then ((d.raisePowerFault p).dropRemoval p).teardown p false (.failed 2)
      else if st = 1 ∧ d.mayStart p then (d.raisePowerFault p).enterPort p 10 2
      else d

def execSbsScan (frame : BitVec 256) (s : State) : Host.Outcome State Fault Refusal := onDev s (sbsScan frame)

def execSbsResume (s : State) : Host.Outcome State Fault Refusal := onDev s sbsResume

def execHpQclr (p : Fin 64) (s : State) : Host.Outcome State Fault Refusal := onDev s (hpQclr p)

def execHpFclr (p : Fin 64) (s : State) : Host.Outcome State Fault Refusal := onDev s (hpFclr p)

def execHpRetry (p : Fin 64) (s : State) : Host.Outcome State Fault Refusal := onDev s (hpRetry p)

/-- A CXL.io request to an expander times out: Completer Abort to firmware (R219). -/
def execCxlIoCompletionTimeout (p : Fin 64) (tag : Nat) (s : State) : Host.Outcome State Fault Refusal :=
  onDev s fun d =>
    if d.portMode p = 2 then (d.emit (.ioCpl p tag 4 0)).report (portTxnSource p) (openClass 219) tag else d

/-- A CXL.mem response after its timeout is discarded and counted (R219). -/
def execLateMemResponse (p : Fin 64) (op : Nat) (s : State) : Host.Outcome State Fault Refusal :=
  onDev s fun d =>
    if d.dir.expOps.any fun o => decide (o.op = op) then d
    else (d.modPort p fun r => { r with late := r.late + 1 }).count (p / 4) (0x6004 + p % 4) 1

/-- DRAIN ends when no request to the port remains: TEARDOWN without settle, and firmware holds the port in IDLE (R220,
R222). -/
def execDrainComplete (p : Fin 64) (s : State) : Host.Outcome State Fault Refusal :=
  onDev s fun d =>
    if d.portState p = 6 ∧ d.evacuated p ∧ (d.dir.expOps.all fun o => !decide (o.port = p.val)) ∧ ¬ d.queuedFor (.port p) then
      (d.modPort p fun r => { r with held := decide (d.portMode p = 2) }).teardown p false .idle
    else d

/-- The bound host turns the vPPB's power controller off: an ACTIVE PASS port drains (R222). -/
def execPassPowerControllerOff (host p : Fin 64) (s : State) : Host.Outcome State Fault Refusal :=
  onDev s fun d =>
    if d.portMode p = 3 ∧ d.rd (.prtCfg p) 17 12 = host.val then
      let d := d.modPort p fun r => { r with vppb := { r.vppb with powerOff := true } }
      if d.portState p = 5 then d.enterPort p 6 0 else d
    else d

def execPassPowerControllerOn (host p : Fin 64) (s : State) : Host.Outcome State Fault Refusal :=
  onDev s fun d =>
    if d.portMode p = 3 ∧ d.rd (.prtCfg p) 17 12 = host.val then
      d.modPort p fun r => { r with vppb := { r.vppb with powerOff := false } }
    else d

/-- PME_Turn_Off: the link moves toward L2 or L3, which PM reports (R200). -/
def execPmeTurnOff (p : Fin 64) (s : State) : Host.Outcome State Fault Refusal :=
  onDev s fun d => if d.portState p = 4 ∨ d.portState p = 5 then d.wr (.prtStatus p) 10 8 2 else d

/-- An event record or poison report of an expander goes to firmware; Viral is a fatal expander error (R218, Table CP-2). -/
def execExpanderEventRecord (p : Fin 64) (kind : Fin 3) (dpa : Nat) (s : State) : Host.Outcome State Fault Refusal :=
  onDev s fun d =>
    if d.portMode p = 2 then
      let d := d.emit (.firmware (0x100 + kind.val) dpa)
      if kind.val = 2 then d.report (portTxnSource p) 3 dpa
      else if kind.val = 1 then d.report (portTxnSource p) (openClass 218) dpa else d
    else d

/-- PORT_RELEASE (R297): only a port held in IDLE after orderly removal. -/
def execPortRelease (path : Path) (input : List Byte) (s : State) : Host.Outcome State Fault Refusal :=
  onDev s fun d =>
    d.stoluo path 0xC031 false (decide (input.length = 4 ∧ field input 0 1 < 64 ∧ field input 1 3 = 0)) fun d =>
      let p := field input 0 1
      if (d.prec p).held && decide (d.portState p = 1) then
        (d.modPort p fun r => { r with held := false }).finish path 0xC031 rcSuccess
      else d.finish path 0xC031 rcConflict

end Sys2Proof.Machine
end

