-- ==== Sys2Proof/Machine/Boot.lean ====
section
/-! DEFINITION. Reset and boot: what a cold and a warm reset leave, and the boot of Table MG-18 (R9, R306 to R311, R315, R351, R433,
R435, R436). -/

namespace Sys2Proof.Machine

/-! ### Power domains at boot -/

/-- A power domain runs with its switches on. -/
def Dev.domainOn (d : Dev) (i : Nat) : Dev := (d.setDomState i 0).wr (.domStatus i) 28 26 0

/-- A power domain is commanded off or held off: the state st, its switches open. A latched one stays latched. -/
def Dev.domainOff (d : Dev) (i st : Nat) : Dev :=
  let d := d.setDomState i st
  if d.rd (.domStatus i) 28 26 = 4 then d.setDomState i 4 else d.wr (.domStatus i) 28 26 2

/-! ### Cold reset (R9, R351, R435) -/

/-- The VDD_CORE window around the target: 50 mV below the lower and above the higher of the targets that hold (Table PW-4, R371). -/
def Dev.coreWindow (d : Dev) (low high : Nat) : Dev := (d.wr (.rail 0) 35 24 (high + 50)).wr (.rail 0) 23 12 (low - 50)

/-- Every domain but AO is in cold reset; the VDD_CORE target is 750 mV again. AO registers, OTP, flash, the logs and records in MRAM and what the expanders hold are
kept; the expanders' data stays under keys that exist no longer (Table PS-20). -/
def Dev.enterCold (d : Dev) : Dev :=
  let d := d.resetDomain .cold
  let d := (List.range 124).foldl (fun d i => if i = 0 then d else d.domainOff i 3) d
  let d := d.wr .clkStatus 25 20 0
  let d := ((d.wr .sleepCtl 30 30 0).wr .faultStat 31 28 0).coreWindow 750 750
  { d with
    pool := { PoolState.reset with keyGen := d.pool.keyGen, mem := d.pool.mem }
    dir := { DirState.reset with lostLog := d.dir.lostLog }
    sw := .reset
    svc := .reset
    port := { recs := [], scans := 0 }
    link := { recs := [] }
    fab := { FabState.reset with log := d.fab.log }
    mgmt := { MgmtState.reset with
      strapAddr := d.mgmt.strapAddr, strapBus := d.mgmt.strapBus, porst := d.mgmt.porst, wrst := d.mgmt.wrst
      tripHeld := d.mgmt.tripHeld, flash := d.mgmt.flash, preferred := d.mgmt.preferred, trial := d.mgmt.trial
      bcbSlot := d.mgmt.bcbSlot, i3cBridge := d.mgmt.i3cBridge, oobResult := d.mgmt.oobResult }
    sec := { SecState.reset with otp := d.sec.otp, lockRecord := d.sec.lockRecord, sessionNext := d.sec.sessionNext }
    pwr := { PwrState.reset with feedTripped := d.pwr.feedTripped, feedOut := d.pwr.feedOut, temps := d.pwr.temps
                                 tripOver := d.pwr.tripOver }
    flt := { FltState.reset with
      log := d.flt.log, retirement := d.flt.retirement, lastLog0 := d.flt.lastLog0, diesOut := d.flt.diesOut }
    tel := .reset }

/-- The drivers fall: the last scan leaves every POOL and PASS slot in reset with its power off (R435). -/
def Dev.lastScan (d : Dev) : Dev :=
  if d.bitOf .sbsCtl 31 then
    let ps := (List.range 64).filter fun p => decide (d.portMode p = 2 ∨ d.portMode p = 3)
    let d := ps.foldl (fun d p => (d.wr (.hpStatus p) 30 30 0).wr (.hpStatus p) 29 29 0) d
    d.emit (.sbs d.outFrame)
  else d

/-- A cold reset that the device or the board starts. -/
def Dev.coldReset (d : Dev) : Dev :=
  let d := d.lastScan.enterCold
  ({ d with mgmt := { d.mgmt with coldHeld := true } }).showFaults

/-! ### Images (R307, R338) -/

/-- TYPE of an update target's images: management firmware, lookup, queue, BCB. -/
def typeOfTarget (target : Nat) : Nat := target + 1

/-- Whether a KEY_ID signs images of a TYPE in the current lifecycle state (Table PS-12, R339). -/
def Dev.keyAdmitted (d : Dev) (keyId typ : Nat) : Bool :=
  let life := d.sec.otp.lifecycle
  if 1 ≤ keyId ∧ keyId ≤ 4 then decide (typ ≤ 3) && !(d.sec.otp.revoked.getD (keyId - 1) false)
  else if keyId = 0x10 then decide (typ = 4 ∧ (life = 0 ∨ life = 3))
  else if keyId = 0x100 then decide (typ = 4 ∧ life ≠ 0)
  else false

/-- The rollback counter of a TYPE. -/
def Dev.rollback (d : Dev) (typ : Nat) : Nat := d.sec.otp.counters.getD (typ - 1) 0

/-- Why an image is not valid for a target, by OOB.BOOT.ERROR; none for a valid one (R307, Tables MG-17, MG-19). -/
def Dev.imageError (d : Dev) (target : Nat) (i : Sys2Proof.Image) : Option Nat :=
  let typ := typeOfTarget target
  let bound := if target = 0 then 3 * 1024 * 1024 else 1024 * 1024 - 256
  if i.magic ≠ 0x4B534D43 ∨ i.typ ≠ typ ∨ bound < i.length ∨ 127 < i.svn ∨ (typ = 4 ∧ i.bcb.isNone) then some 2
  else if !i.hashOk then some 3
  else if !i.sigOk || !d.keyAdmitted i.keyId typ then some 4
  else if i.svn < d.rollback typ then some 5
  else none

/-- The image of a slot, where it is valid. -/
def Dev.validImage (d : Dev) (target slot : Nat) : Option Sys2Proof.Image :=
  (tget d.mgmt.flash (target, slot)).filter fun i => (d.imageError target i).isNone

/-- The failure that OOB.BOOT.ERROR shows for a slot; a slot without an image has no valid header. -/
def Dev.slotError (d : Dev) (target slot : Nat) : Nat :=
  match tget d.mgmt.flash (target, slot) with
  | some i => (d.imageError target i).getD 0
  | none => 2

/-! ### Steps of the boot (Table MG-18) -/

/-- The conditions of R433 that the device itself watches: the rails but the second feed are qualified. -/
def Dev.railsReady (d : Dev) : Bool :=
  ((List.range 5).all fun r => d.bitOf (.rail r) 62) && (d.bitOf (.rail 5) 62 || d.bitOf (.rail 6) 62)

/-- Whether every die is cool enough to boot after a thermal trip (R460). -/
def Dev.coolEnough (d : Dev) : Bool := d.pwr.temps.all fun t => decide (t.2.reading < 95)

/-- Write a field of OOB.BOOT. -/
def Dev.boot1 (d : Dev) (hi lo n : Nat) : Dev := d.wr .oobBoot hi lo n

/-- A measurement's digest. -/
def Dev.measure (d : Dev) (index : Nat) (h : BitVec 384) : Dev :=
  { d with mgmt := { d.mgmt with measured := tset d.mgmt.measured index h } }

/-- Step 2: OTP is read, the DRBG is seeded, the identity and alias keys are derived. -/
def Dev.bootOtp (d : Dev) (entropyOk : Bool) : Dev :=
  let d := (d.domainOn domMgt).domainOn domLife
  let d := d.wr .secStatus 31 30 d.sec.otp.lifecycle
  let d := (d.domainOn domKeyv).wr .keyStatus 31 31 (if entropyOk then 1 else 0)
  let d := { d with sec := { d.sec with aliasHeld := true } }
  if entropyOk then d else d.report 0x2D2 (openClass 330) 0

/-- RECOVERY: every port and link stays in OFF, FAULT_B is asserted, and the ROM serves (R310). -/
def Dev.recovery (d : Dev) (error : Nat) : Dev :=
  ({ (d.boot1 31 28 8).boot1 23 16 error with mgmt := { d.mgmt with fwUp := false } }).showFaults

/-- The firmware image of a slot starts, measured. -/
def Dev.startFirmware (d : Dev) (slot : Nat) (i : Sys2Proof.Image) : Dev :=
  let d := ((d.boot1 27 27 slot).measure 2 i.hash).measure 3 i.hash
  { d with mgmt := { d.mgmt with
    fwVersion := i.version, fwSvn := i.svn, fwUp := true, inUse := tset d.mgmt.inUse 0 slot } }

/-- NO_BCB: the firmware runs without a configuration and serves MCTP on SMBus at the strapped address (R310, R432). -/
def Dev.noBcb (d : Dev) : Dev :=
  let d := (d.boot1 31 28 9).boot1 23 16 7
  { d with mgmt := { d.mgmt with i3cBus := false, mctpAddr := 0x60 + d.mgmt.strapAddr } }

/-- The BCB slots in the order they are tried, each with its valid image. -/
def Dev.bcbCandidates (d : Dev) : List (Nat × Sys2Proof.Image × Bcb) :=
  [d.mgmt.bcbSlot, 1 - d.mgmt.bcbSlot].filterMap fun slot =>
    (d.validImage 3 slot).bind fun i => i.bcb.map fun b => (slot, i, b)

/-- Rekey the slots from 1 to READY, and give Domain 0 its key (R47, R48). -/
def Dev.bootKeys (d : Dev) : Dev :=
  if d.drbgOk then
    let d := (List.range 4095).foldl (fun d i => d.setKeySlot (i + 1) .ready) d
    let d := { d with pool := { d.pool with readyOrder := (List.range 4095).map (· + 1), keyGen := d.pool.keyGen + 1 } }
    d.setKeySlot 0 (.active d.pool.keyGen)
  else d

/-- The first Tambour of t xor 1, t xor 2 and t xor 3 that can host slice t: in service, and without a guest (R395). -/
def Dev.hostFor (d : Dev) (t : Nat) : Option Nat :=
  [t ^^^ 1, t ^^^ 2, t ^^^ 3].find? fun u =>
    d.logicUp u && !d.isRetired .tdir u && decide (d.domState (domTmb u) ≤ 3) && (d.guestsOf u).isEmpty &&
      !(d.flt.moving.any fun m => decide (m.2 = u))

/-- A Tambour serves a guest slice beside its own (R396). -/
def Dev.takeGuest (d : Dev) (u t : Nat) : Dev :=
  ({ d with flt := { d.flt with hosts := tset d.flt.hosts t u } }).showGuests u

/-- The retirement record is applied before any port leaves OFF (R391). -/
def Dev.applyRetired (d : Dev) : Dev :=
  let d := { d with flt := { d.flt with logicOut := d.retiredOf .tambour } }
  let d := (d.retiredOf .engine).foldl (fun d e => d.setEngine e { d.engine e with retired := true }) d
  let d := (d.retiredOf .domain).foldl (fun d i => (d.domainOff i 4).wr (.domStatus i) 28 26 4) d
  let d := (d.retiredOf .hub).foldl (fun d q => d.wr .bufStatus (28 + q) (28 + q) 0 |>.wr .retireStatus (8 + q) (8 + q) 1) d
  let d := (((d.retiredOf .tambour) ++ (d.retiredOf .tdir)).dedup).foldl (fun d t =>
    match d.hostFor t with
    | some u => d.takeGuest u t
    | none => d) d
  (d.showRetired).showCells

/-- The domains that a BCB uses run, the others stay in Deep (step 6); PLLs lock. -/
def Dev.powerUp (d : Dev) (b : Bcb) : Dev :=
  let cxl := b.ports.flatMap fun x => (portQuads x.1 x.2).map fun k => domQuad (5 * (k / 4) + k % 4)
  let stitch := (b.links.filter fun x => decide (getBits x.2 31 30 ≠ 0)).map fun x => domQuad (5 * x.1 + 4)
  let on := ((List.range 40).map (· + 4)) ++ cxl ++ stitch
  let d := on.foldl (fun d i => if d.isRetired .domain i || d.isRetired .tambour (i - 8) && decide (8 ≤ i ∧ i < 24) then d else d.domainOn i) d
  d.wr .clkStatus 25 20 0x3F

/-- The region of a space that a lock record names. -/
def Dev.lockRegion (d : Dev) (x : LockedRegion) : Dev :=
  let (c, m, s, e) := regionRegs (decide (x.space = 0)) x.index
  (((d.setReg s x.start).setReg e x.stop).setReg m x.ports).setReg c x.ctl

/-- Locked regions in a space. -/
def Dev.lockedCount (d : Dev) (pool : Bool) : Nat :=
  ((List.range 256).filter fun i => d.bitOf (regionRegs pool i).1 28).length

/-- ACU.STATUS counts the locked regions (Table PS-6). -/
def Dev.showLocks (d : Dev) : Dev := (d.wr .acuStatus 8 0 (d.lockedCount true)).wr .acuStatus 17 9 (d.lockedCount false)

/-- Whether the BCB's entry for a region differs from its record. -/
def Dev.lockDiffers (d : Dev) (x : LockedRegion) : Bool :=
  let (c, m, s, e) := regionRegs (decide (x.space = 0)) x.index
  (d.regs.any fun r => decide (r.1 = c ∨ r.1 = m ∨ r.1 = s ∨ r.1 = e)) &&
    !decide (d.reg s = x.start ∧ d.reg e = x.stop ∧ d.reg m = x.ports ∧ d.reg c = x.ctl)

/-- Regions that the BCB locks enter the lock record (R321). -/
def Dev.recordLocks (d : Dev) (pool : Bool) : Dev :=
  (List.range 256).foldl (fun (d : Dev) i =>
    let (c, m, s, e) := regionRegs pool i
    let space := if pool then 0 else 1
    let live := d.sec.lockRecord.live 1 d.flt.diesOut
    if d.bitOf c 28 && !(live.any fun x => decide (x.space = space ∧ x.index = i)) then
      let x : LockedRegion := ⟨space, i, d.reg s, d.reg e, d.reg m, d.reg c⟩
      { d with sec := { d.sec with lockRecord := (d.sec.lockRecord.append 512 1 3 d.flt.diesOut x).1 } }
    else d) d

/-- Firmware restores every region of the lock record, locked; a BCB entry that differs is ignored and reported (R321). -/
def Dev.restoreLocks (d : Dev) : Dev :=
  let live := d.sec.lockRecord.live 1 d.flt.diesOut
  let differ := live.filter d.lockDiffers
  let d := live.foldl Dev.lockRegion d
  let d := differ.foldl (fun d x => d.report 0x2D0 1 (x.space * 256 + x.index)) d
  ((d.recordLocks true).recordLocks false).showLocks

/-- The service image slot that firmware loads: A where its image is valid, else B (log entry 50). -/
def Dev.serviceSlot (d : Dev) (target : Nat) : Option Nat := [0, 1].find? fun s => (d.validImage target s).isSome

/-- SFN.SVC_VER of every HOST port shows the images in use (Table MS-1). -/
def Dev.showImages (d : Dev) : Dev :=
  let v := BitVec.ofNat 64 (d.imageVersion 1 / 2 ^ 16 * 2 ^ 16 + d.imageVersion 2 / 2 ^ 16)
  d.hostPorts.foldl (fun d h => d.setReg (.svcVer h) v) d

/-- A service image is loaded and measured. -/
def Dev.loadService (d : Dev) (target : Nat) : Dev :=
  match d.serviceSlot target with
  | none => d
  | some slot =>
    let d := { d with mgmt := { d.mgmt with inUse := tset d.mgmt.inUse target slot } }
    match d.validImage target slot with
    | some i => d.measure (5 + target) i.hash
    | none => d

/-- The coherence-assist image goes onto E(16t+15), or onto its replacement where it is retired (R132, R392). -/
def Dev.loadAssist (d : Dev) (t : Nat) : Dev :=
  let e := 16 * t + 15
  if (d.engine e).retired then d.assistSettle t else (d.setEngine e { d.engine e with image := .assist }).showEngines t

/-- The accepted levels of a port at boot: fixed where the chain is off (R208), else not valid until scanned. -/
def Dev.bootLevels (d : Dev) (p : Nat) : Dev :=
  let d := d.wr (.hpStatus p) 27 27 0
  if d.bitOf .sbsCtl 31 then d
  else
    let d := (d.wr (.hpStatus p) 31 31 0).wr (.hpStatus p) 28 28 1
    if d.portMode p = 1 then d.wr (.hpStatus p) 30 30 1 else d

/-- Step 8: ports leave OFF, links start training, ANALYSIS quads transmit. -/
def Dev.startPorts (d : Dev) : Dev :=
  let used := (List.range 64).filter fun p => decide (d.portMode p ≠ 0 ∧ d.portState p = 0) && d.logicUp (p / 4)
  let d := used.foldl (fun d p => (d.bootLevels p).enterPort p 1 0) d
  (List.range 16).foldl (fun (d : Dev) s =>
    match d.rd (.stlCfg s) 31 30 with
    | 1 => if d.logicUp s then d.startAttempt s else d
    | 2 => d.wr (.stlStatus s) 31 28 5
    | _ => d) d

/-- Steps 6 to 9 with an accepted BCB. -/
def Dev.configure (d : Dev) (slot : Nat) (i : Sys2Proof.Image) (b : Bcb) : Dev :=
  let d := (d.boot1 25 25 slot).measure 5 i.hash
  let d := { d with mgmt := { d.mgmt with
    bcb := some b, bcbSeq := i.sequence, inUse := tset d.mgmt.inUse 3 slot, i3cBus := b.i3c, mctpAddr := b.mctpAddress } }
  let d := (d.loadBcb b).wr .sbsCtl 31 31 (if b.chain then 1 else 0)
  let d := ((d.powerUp b).applyRetired).restoreLocks
  let d := d.bootKeys
  let d := (List.range 16).foldl Dev.loadAssist ((d.loadService 1).loadService 2)
  let d := (d.showImages.startPorts).boot1 31 28 7
  d.showFaults

/-- From step 5 on: the BCB in use where firmware accepts it, else the other, else NO_BCB (R308). -/
def Dev.bootBcb (d : Dev) : Dev :=
  match d.bcbCandidates.find? fun c => d.bcbOk c.2.2 with
  | some (slot, i, b) =>
    let d := if slot = d.mgmt.bcbSlot then d else (d.boot1 24 24 1).boot1 23 16 7
    d.configure slot i b
  | none => (d.noBcb).showFaults

/-- A firmware slot boots. first says that it was the first choice; error is the failure of the first choice. -/
def Dev.bootSlot (d : Dev) (slot error : Nat) (first trialStarts : Bool) : Dev :=
  match d.validImage 0 slot with
  | none => d.recovery error
  | some i =>
    let trial := first && d.mgmt.trial
    let d := if first then d else (d.boot1 24 24 1).boot1 23 16 error
    let d := (d.boot1 26 26 (if trial then 1 else 0)).startFirmware slot i
    if trial && !trialStarts then
      ({ d with mgmt := { d.mgmt with fwUp := false } }).boot1 31 28 5
    else d.bootBcb

/-- The boot from step 2 of Table MG-18 (R308). -/
def Dev.boot (d : Dev) (entropyOk trialStarts : Bool) : Dev :=
  let d := { d with mgmt := { d.mgmt with coldHeld := false } }
  let d := d.bootOtp entropyOk
  let first := d.mgmt.preferred
  if (d.validImage 0 first).isSome then d.bootSlot first 0 true trialStarts
  else d.bootSlot (1 - first) (d.slotError 0 first) false trialStarts

/-- Whether a thermal trip still keeps the device from booting: until a low of PORST_B, and then until every reading is below
95 °C (R460). -/
def Dev.tripForbids (d : Dev) : Bool := d.mgmt.tripHeld && !(d.pwr.tripOver && d.coolEnough)

/-- Cold reset ends where all its conditions hold and no thermal trip forbids it. -/
def Dev.releaseCold (d : Dev) (entropyOk trialStarts : Bool) : Dev :=
  if d.mgmt.coldHeld && d.mgmt.porst && d.mgmt.wrst && d.railsReady && d.pwr.feedOut.isEmpty && !d.tripForbids then
    ({ d with mgmt := { d.mgmt with tripHeld := false }, pwr := { d.pwr with tripOver := false } }).boot entropyOk trialStarts
  else d

/-! ### The commands -/

/-- COLD_RESET_RELEASE: with PORST_B and WRST_B high and the rails qualified, the straps are sampled and the device boots; found
gives the flash slots whose contents the board has changed (R433, R432). -/
def execColdResetRelease (straps : BitVec 4) (found : List ((Nat × Nat) × Sys2Proof.Image)) (entropyOk trialStarts : Bool) (s : State) :
    Host.Outcome State Fault Refusal :=
  onDev s fun d =>
    if d.mgmt.coldHeld && d.railsReady && d.pwr.feedOut.isEmpty && (!d.mgmt.tripHeld || d.pwr.tripOver) then
      let d := { d with mgmt := { d.mgmt with
        porst := true, wrst := true, strapAddr := straps.toNat % 8, strapBus := straps.getLsbD 3
        i3cBus := straps.getLsbD 3, flash := found.foldl (fun m (x : (Nat × Nat) × Sys2Proof.Image) => tset m x.1 x.2) d.mgmt.flash } }
      d.releaseCold entropyOk trialStarts
    else d

/-- PORST_B_FALL: cold reset begins; after a thermal trip it allows a boot once the dies are cool (R435, R460). -/
def execPorstBFall (s : State) : Host.Outcome State Fault Refusal :=
  onDev s fun d =>
    let d := { d with mgmt := { d.mgmt with porst := false }, pwr := { d.pwr with tripOver := d.mgmt.tripHeld } }
    if d.mgmt.coldHeld then d.showFaults else d.coldReset

/-! ### Warm reset (R315, R436, Table PS-20) -/

/-- What a warm reset resets: the WARM registers, every slice, SPDM sessions, the debug level, a pending challenge, and everything
firmware holds in management SRAM; links, bindings, keys and link IDE stay. -/
def Dev.warmReset (d : Dev) : Dev :=
  let d := d.allSlices.foldl (fun d x => d.removeSlice x) d
  let d := d.resetDomain .warm
  let d := (d.wr .secStatus 29 28 0).wr .secStatus 25 24 0
  let m := d.mgmt
  { d with
    mgmt := { m with
      submitted := [], mctpBusy := [], bg := [], bgLast := [], transfers := [], activation := none, imageMove := []
      policies := [], verified := [], mctpEid := none }
    svc := { d.svc with dirty := [], flr := [] }
    sec := { d.sec with
      challenge := none, conns := [], sessions := [], fencePaths := [], dl2Pending := none, zeroize := none
      noAdds := false, aliasHeld := true } }

/-- The firmware runs again after a warm reset, and ports in OFF that the BCB enables leave it (Table CP-6). -/
def Dev.warmEnd (d : Dev) : Dev :=
  let d := { d with mgmt := { d.mgmt with warmHeld := false } }
  if d.stage = 7 then d.startPorts else d

/-- WRST_B_FALL: a warm reset starts; while cold reset is in force WRST_B only delays its release (R433, R436). -/
def execWrstBFall (s : State) : Host.Outcome State Fault Refusal :=
  onDev s fun d =>
    if d.mgmt.coldHeld then
      if d.mgmt.porst then { d with mgmt := { d.mgmt with wrst := false } } else d
    else
      let d := d.warmReset
      { d with mgmt := { d.mgmt with wrst := false, warmHeld := true } }

/-- WRST_B_RISE: the warm reset ends; a delayed release of cold reset takes place. -/
def execWrstBRise (s : State) : Host.Outcome State Fault Refusal :=
  onDev s fun d =>
    let d := { d with mgmt := { d.mgmt with wrst := true } }
    if d.mgmt.warmHeld then d.warmEnd else d.releaseCold true true

/-- BOOT_TRIAL_TIMEOUT: the trial firmware has not reported ready; the management cluster is reset and the other slot
boots (R308). -/
def execBootTrialTimeout (s : State) : Host.Outcome State Fault Refusal :=
  onDev s fun d =>
    if d.stage = 5 ∧ d.bitOf .oobBoot 26 then d.bootSlot (1 - d.rd .oobBoot 27 27) 6 false true else d

/-- RESET_WARM: SUCCESS, then the warm reset (R315). -/
def execResetWarm (path : Path) (input : List Byte) (s : State) : Host.Outcome State Fault Refusal :=
  onDev s fun d => d.stoluo path 0xC058 false (decide (input.length = 4 ∧ field input 1 3 = 0)) fun d =>
    ((d.finish path 0xC058 rcSuccess).warmReset).warmEnd

end Sys2Proof.Machine
end

