-- ==== Sys2Proof/Machine/Loss.lean ====
section
/-! DEFINITION. The safe state, and what the loss or the return of a part of the device does: a Tambour's logic, a directory slice,
a HUB quarter, a port die, a quad, the management cluster, the key vault (R110, R134, R191, R366, R383, R386 to R399). -/

namespace Sys2Proof.Machine

/-! ### The safe state (R387, R388, Table FI-8) -/

/-- A message queued in the buffer when the safe state begins completes: reads with poison, writes with the normal completion. -/
def Dev.safeDiscard (d : Dev) (m : Msg) : Dev :=
  let d := { (d.unstore m.id) with sw := { (d.unstore m.id).sw with blocked := d.sw.blocked.filter fun x => !decide (x.id = m.id) } }
  let d := d.emit (.discarded m.id)
  match m.kind, m.entity with
  | .hostMemWrite, .port p =>
    let req : HomeReq := ⟨m.txn, .host p, BitVec.ofNat 40 ((m.paddr.getD 0) / 64), m.domain.getD 0, 0, 0, false⟩
    (d.replyDone req (d.lastWaitOf req) m.peakWaited).endTxn (.host p) m.txn
  | .homeRead _, _ => d
  | .homeWrite _, _ => d
  | _, _ => m.sends.foldl (fun (d : Dev) o => match o with
      | .memData a txn _ _ load => d.emit (.memData a txn 0 true load)
      | .memDone _ _ _ => d.emit o
      | _ => d) (d.completeDiscarded m)

/-- A request at its home or forwarded to another that has no response yet completes. -/
def Dev.safeReply (d : Dev) (kind : ReqKind) (req : HomeReq) : Dev :=
  (d.replyRefused kind req false).endTxn req.agent req.txn

/-- The state of Table FI-8 is taken: nothing outstanding remains, every neighbour is DEAD without a Knell, HOST ports signal Viral,
PASS ports trigger DPC. -/
def Dev.enterSafe (d : Dev) (cause : Nat) : Dev :=
  if d.safe then d
  else
    let d : Dev := (d.wr .faultStat 31 31 1).wr .faultStat 30 28 cause
    let d : Dev := (d.sw.msgs ++ d.sw.blocked).foldl (fun (d : Dev) m => d.safeDiscard m) d
    let retried := d.dir.retried.flatMap (·.2)
    let open_ := d.dir.ct.filter fun e => !e.2.done && (e.2.kind.reads || e.2.kind.writes)
    let d : Dev := open_.foldl (fun (d : Dev) e => d.safeReply e.2.kind e.2.req) d
    let d : Dev := retried.foldl (fun (d : Dev) r => d.safeReply r.kind r.req) d
    let d : Dev := (d.dir.proxyOut.filter fun x => x.2.reply).foldl (fun (d : Dev) x => d.safeReply x.2.kind x.2.req) d
    let d : Dev := { d with dir := { d.dir with ct := [], retried := [], proxyOut := [], psnoops := [], expOps := [] } }
    let d := (List.range 16).foldl (fun (d : Dev) t => d.showSlice t) d
    let alive : List Nat := (List.range 16).filter fun n => decide (d.slotState n = 1)
    let d : Dev := alive.foldl (fun (d : Dev) n => d.setSlotState n 2) d
    let d := d.hostPorts.foldl (fun (d : Dev) p => d.emit (.viral p)) d
    let pass : List Nat := (List.range 64).filter fun p => decide (d.portMode p = 3)
    let d := pass.foldl (fun (d : Dev) p => d.modPort p fun r => { r with vppb := { r.vppb with dpc := true } }) d
    (d.mgmtVector 7).showFaults

/-! ### Engines and channels (R99, R134, R191, R392) -/

/-- Whether an engine or a channel holds a granule in X. -/
def Dev.holdsX (d : Dev) (h : Holder) : Bool := d.dir.entries.any fun e => decide (e.2.state.toNat = 3) && e.2.holders.contains h

/-- An engine leaves service: one that holds X is declared dead. -/
def Dev.engineLeaves (d : Dev) (e : Nat) : Dev :=
  if h : e < 256 then (if d.holdsX (.engine ⟨e, h⟩) then d.declareDeath (.engine ⟨e, h⟩) 7 else d) else d

/-- A channel leaves service, with a reset of its block or not: one that holds X is declared dead, and its active transfer ends as
CHANNEL_LOST. -/
def Dev.channelLeaves (d : Dev) (c : Nat) (blk : Bool) : Dev :=
  if h : c < 64 then
    if d.holdsX (.dmv ⟨c, h⟩) then
      let d := d.declareDeath (.dmv ⟨c, h⟩) 7
      let d := match d.chan c with
        | some x => d.setChan c { x with held := [] }
        | none => d
      d.channelLost c blk
    else d.channelLost c blk
  else d

/-- Enter a resource in the retirement record. -/
def Dev.markRetired (d : Dev) (r : Resource) (i : Nat) : Dev := d.setRetireRec r i { d.retireRec r i with retired := true }

/-- Remove a resource from the retirement record with its history (R401). -/
def Dev.unmarkRetired (d : Dev) (r : Resource) (i : Nat) : Dev := d.setRetireRec r i ⟨false, []⟩

/-- An engine is retired; a coherence-assist engine is replaced (R392). -/
def Dev.retireEngine (d : Dev) (e : Nat) : Dev :=
  let assist := decide ((d.engine e).image = .assist)
  let d := (d.markRetired .engine e).engineLeaves e
  let x := d.engine e
  let d := (d.setEngine e { x with retired := true, image := if assist then .none else x.image }).showEngines (e / 16)
  if assist then d.assistSettle (e / 16) else d

/-- A channel is retired (R191, R392). -/
def Dev.retireChannel (d : Dev) (c : Nat) : Dev := (d.markRetired .channel c).channelLeaves c false

/-- The registers of PMU u. -/
def ofPmu (u : Nat) : Reg → Bool
  | .pmcCycles v | .pmcStatus v | .pmcCnt v _ | .pmcEvsel v _ | .pmcSnapCycles v | .pmcSnapCnt v _ => decide (v = u)
  | _ => false

/-- The counters of PMU u are lost with its domain, or reset by BRST; STATUS.LOST says so (R404). -/
def Dev.pmuLost (d : Dev) (u : Nat) : Dev := (d.resetRegs (ofPmu u)).wr (.pmcStatus u) 18 18 1

/-! ### Logical slices that move (R395 to R397) -/

/-- The logical slices that Tambour t serves. -/
def Dev.slicesAt (d : Dev) (t : Nat) : List Nat := (List.range 16).filter fun s => decide (d.hostTile s = t)

/-- Forced release of every extent in DC region 1 of every host, and of every coherent REMOTE binding (R397 step 2). -/
def Dev.releaseCoherent (d : Dev) : Dev :=
  let keep (p : Nat) (x : Nat × Nat) : Bool := decide (x.1 < (d.region p 0).2)
  let d := { d with pool := { d.pool with
    dcOps := d.pool.dcOps.map fun (x : Nat × DcOp) => (x.1, { x.2 with extents := x.2.extents.filter (keep x.1) }) } }
  let d := (d.pool.extents.filter fun (e : Extent) => decide (e.region = 1)).foldl (fun (d : Dev) e =>
    let waits := (tget d.pool.dcOps e.port).isSome
    if e.offered then d.withdraw e waits else d.forceRelease e (if waits then .dc e.port else .nothing)) d
  let d := (d.hub.imports.filter fun i => i.coherent && i.ending.isEmpty).foldl (fun (d : Dev) i => d.endImport i .revoked) d
  (List.range 64).foldl (fun (d : Dev) p => d.dcSettle p) d

/-- Every link of every slot with COH 1 is declared down with reason 6, and then retrains (R397 step 3). -/
def Dev.dropCoherentLinks (d : Dev) : Dev :=
  let slots := (List.range 16).filter fun n => d.slotValid n && d.slotCoh n
  let links := slots.flatMap d.bundle
  let d := links.foldl (fun (d : Dev) s => linkDown s d) d
  links.foldl (fun (d : Dev) s => linkRetrain s d) d

/-- The directory of some logical slices is lost (R397). -/
def Dev.directoryLost (d : Dev) (slices : List Nat) : Dev :=
  let d := { d with dir := { d.dir with entries := d.dir.entries.filter fun e => !slices.contains (sliceOf e.1) } }
  (slices.foldl (fun (d : Dev) s => d.showSlice s) d).releaseCoherent.dropCoherentLinks

/-- Logical slices start to move from Tambour t to the first that qualifies; where none does, their directory is lost. -/
def Dev.moveSlices (d : Dev) (t : Nat) (slices : List Nat) (empty : Bool) : Dev :=
  let u := (d.hostFor t).getD 16
  let d := { d with flt := { d.flt with
    hosts := d.flt.hosts.filter fun x => !slices.contains x.1
    moving := slices.foldl (fun m s => tset m s u) d.flt.moving } }
  let d := d.showGuests t
  if u = 16 ∧ ¬ empty then d.directoryLost slices else d

/-- Slices that serve at a Tambour or are moving to it. -/
def Dev.slicesToMove (d : Dev) (t : Nat) : List Nat :=
  ((d.slicesAt t).filter fun s => (tget d.flt.moving s).isNone) ++ (d.flt.moving.filter fun x => decide (x.2 = t)).map (·.1)

/-- Move one entry of a full set to the victim buffer, where that has room: never the most recently used, nor one that a request covers
(R90, R395). -/
def Dev.evictOne (d : Dev) (t set bound : Nat) : Dev :=
  if (d.setGranules t set).length ≤ bound || !d.victimRoom t then d
  else
    match (d.setGranules t set).head? with
    | none => d
    | some g =>
      match d.choose (d.victimsFor g) with
      | (some v, d) =>
        match d.entry v with
        | some e =>
          let x : Victim := ⟨sliceOf v, decide (e.state.toNat = 2), blockOfGranule v, waitsFor e.holders (BitVec.allOnes 16), []⟩
          let d := { d with dir := { d.dir with victims := tset d.dir.victims v x } }
          (d.dropEntry v).snoopAll e.holders v (BitVec.allOnes 16) .inv
        | none => d
      | (none, d) => d

/-- The sets of a slice that hold an entry. -/
def Dev.usedSets (d : Dev) (t : Nat) : List Nat := (((d.dir.entries.map (·.1)).filter fun g => decide (sliceOf g = t)).map setOf).dedup

/-- Whether each set of a slice keeps at most its ways' number of entries. -/
def Dev.fits (d : Dev) (t : Nat) : Bool := (d.usedSets t).all fun set => decide ((d.setGranules t set).length ≤ d.ways t)

/-- Entries above a slice's ways move to the victim buffer. -/
def Dev.fitSlice (d : Dev) (t : Nat) : Dev :=
  (d.usedSets t).foldl (fun (d : Dev) set => (List.range 16).foldl (fun (d : Dev) _ => d.evictOne t set (d.ways t)) d) d

/-- A logical slice has moved to its host: both slices fit their ways, and the emptied TDIR enters Deep (R395, Table FI-11). While the
victim buffer has no room for what does not fit, the move goes on (R90). -/
def Dev.sliceMoved (d : Dev) (t : Nat) : Dev :=
  match tget d.flt.moving t with
  | none => d
  | some u =>
    if 16 ≤ u then d
    else
      let d := d.takeGuest u t
      let d := (d.slicesAt u).foldl (fun (d : Dev) s => d.fitSlice s) d
      if !((d.slicesAt u).all fun s => d.fits s) then d
      else
      let d := { d with flt := { d.flt with moving := tdel d.flt.moving t } }
      if d.domState (domTdir t) ≤ 2 then d.domainOff (domTdir t) 3 else d

/-! ### A Tambour's logic (R383, R395) -/

/-- The logic of Tambour t is lost: its ports recognise removal, its link is declared dead with reason 8, its engines and channels
leave service, and its registers of domain BLK take their reset values (R9); a lasting loss retires them and moves the slices. -/
def Dev.tambourLost (d : Dev) (t : Nat) (lasting : Bool) : Dev :=
  let up := d.logicUp t
  let d := { d with flt := { d.flt with logicOut := if up then d.flt.logicOut ++ [t] else d.flt.logicOut } }
  let d := if up then
      let d := (List.range 4).foldl (fun (d : Dev) k => d.removal (4 * t + k)) d
      let d := (d.linkDead t 8).pmuLost t
      let d := (List.range 16).foldl (fun (d : Dev) k => d.engineLeaves (16 * t + k)) d
      let d := (List.range 4).foldl (fun (d : Dev) k => d.channelLeaves (4 * t + k) true) d
      (d.setReg (.dirCtStatus t) 0).showEngines t
    else d
  if lasting ∧ ¬ d.isRetired .tambour t then
    let d := d.markRetired .tambour t
    let d := (List.range 16).foldl (fun (d : Dev) k =>
      let e := 16 * t + k
      (d.markRetired .engine e).setEngine e { d.engine e with retired := true }) d
    let d := ((List.range 4).foldl (fun (d : Dev) k => d.retireChannel (4 * t + k)) d).showEngines t
    (d.moveSlices t (d.slicesToMove t) false).mgmtVector 6
  else d

/-- Firmware gives a restored Tambour's DIR.BI_TIMEOUT the value of the other slices (R118, R422). -/
def Dev.restoreTimeout (d : Dev) (t : Nat) : Dev :=
  match (List.range 16).find? fun u => decide (u ≠ t) && d.logicUp u with
  | some u => d.setReg (.dirBiTimeout t) (d.reg (.dirBiTimeout u))
  | none => d

/-- The logic of Tambour t is back after a loss that was not lasting: the slices it serves resume. -/
def Dev.tambourBack (d : Dev) (t : Nat) : Dev :=
  if d.isRetired .tambour t then d
  else ({ d with flt := { d.flt with logicOut := d.flt.logicOut.filter fun x => !decide (x = t) } }).restoreTimeout t

/-- Operations that an engine of Tambour t had in hand go on elsewhere, or end with ENGINE_LOST (R134). -/
def Dev.reexecuteAll (d : Dev) (t : Nat) : Dev :=
  d.allSlices.foldl (fun (d : Dev) s =>
    (List.range 64).foldl (fun (d : Dev) r =>
      match d.ringRun s r with
      | some x => (x.ops.filter fun o => match o.stage.engine with
          | some e => decide (e / 16 = t)
          | none => false).foldl (fun (d : Dev) o => d.reexecute s.id r o.index) d
      | none => d) d) d

/-- Block reset of Tambour t: the loss of its logic and its restore; the home slice keeps its directory (R383). -/
def Dev.resetTambour (d : Dev) (t : Nat) : Dev :=
  if d.isRetired .tambour t then d else (((d.tambourLost t false).reexecuteAll t).tambourBack t).showEngines t

/-- A retired Tambour returns: it takes its logical slice back, with the engines and channels that were retired with it (R401). -/
def Dev.tambourRestored (d : Dev) (t : Nat) : Dev :=
  let d := d.unmarkRetired .tambour t
  let d := (List.range 16).foldl (fun (d : Dev) k =>
    let e := 16 * t + k
    let d := d.unmarkRetired .engine e
    let d := d.setEngine e { d.engine e with retired := false }
    if h : e < 256 then d.revive (.engine ⟨e, h⟩) else d) d
  let d := (List.range 4).foldl (fun (d : Dev) k =>
    let d := d.unmarkRetired .channel (4 * t + k)
    if h : 4 * t + k < 64 then d.revive (.dmv ⟨4 * t + k, h⟩) else d) d
  let u := d.hostTile t
  let d := { d with flt := { d.flt with
    logicOut := d.flt.logicOut.filter fun x => !decide (x = t)
    hosts := tdel d.flt.hosts t, moving := tdel d.flt.moving t } }
  let d := d.showGuests u
  let d := if 2 ≤ d.domState (domTdir t) ∧ ¬ d.isRetired .tdir t then d.domainOn (domTdir t) else d
  (d.restoreTimeout t).loadAssist t

/-! ### A TDIR (R397) -/

/-- TDIR t is lost: no coherent binding remains tracked; a lasting loss moves the slices it held. -/
def Dev.tdirLost (d : Dev) (t : Nat) (lasting : Bool) : Dev :=
  let slices := d.slicesAt t
  if lasting then
    let d := d.markRetired .tdir t
    ((d.moveSlices t (d.slicesToMove t) true).directoryLost slices).mgmtVector 6
  else d.directoryLost slices

/-- A retired TDIR returns and takes its logical slice back. -/
def Dev.tdirRestored (d : Dev) (t : Nat) : Dev :=
  let u := d.hostTile t
  let d := d.unmarkRetired .tdir t
  let d := { d with flt := { d.flt with hosts := tdel d.flt.hosts t, moving := tdel d.flt.moving t } }
  (d.showGuests u).domainOn (domTdir t)

/-! ### A HUB quarter (R110, R394) -/

/-- HUB quarter q is lost: a napping quarter returns to the buffer, messages with a cell in q are discarded and counted; while another
is lost, the device enters the safe state. -/
def Dev.hubQuarterLost (d : Dev) (q : Nat) : Dev :=
  if d.hubLost q then d
  else
    let second := (List.range 4).any d.hubLost
    let d := (d.markRetired .hub q).wr .retireStatus (8 + q) (8 + q) 1
    let d := match d.sw.napping with
      | some n =>
        let d := if n = q then d else (d.wr .bufStatus (28 + n) (28 + n) 1).setDomState (domHub n) 0
        { d with sw := { d.sw with napping := none } }
      | none => d
    let d := { d with sw := { d.sw with leaving := none } }
    let d := d.wr .bufStatus (28 + q) (28 + q) 0
    let gone := d.sw.msgs.filter fun m => m.quarters.getLsbD q
    let d := (d.sw.linger.filter fun m => m.quarters.getLsbD q).foldl (fun (d : Dev) m => d.dropRecords m.id) d
    let d := (gone.foldl (fun (d : Dev) m => d.discardCounted m) d).showCells
    let d := d.mgmtVector 6
    if second then d.enterSafe 3 else d

/-- A lost quarter returns: its tables are rewritten from the surviving copy first (R401). -/
def Dev.hubRestored (d : Dev) (q : Nat) : Dev :=
  let mine (i : Nat) : Bool := decide ((quarters i).1 = q ∨ (quarters i).2 = q)
  let primary := decide (q < 2)
  let copy {β : Type} (c : Copies β) : Copies β :=
    if primary then { c with a := (c.a.filter fun x => !mine x.1) ++ c.b.filter fun x => mine x.1 }
    else { c with b := (c.b.filter fun x => !mine x.1) ++ c.a.filter fun x => mine x.1 }
  let d := { d with pool := { d.pool with
    blocks := copy d.pool.blocks, slots := copy d.pool.slots
    hubA := if q = 0 then d.pool.hubB else d.pool.hubA, hubB := if q = 2 then d.pool.hubA else d.pool.hubB } }
  let d := (d.unmarkRetired .hub q).wr .retireStatus (8 + q) (8 + q) 0
  let d := (d.domainOn (domHub q)).wr .bufStatus (28 + q) (28 + q) 1
  d.showCells.admitBlocked

/-! ### A port die, a quad, a link (R386, R398, R400) -/

/-- A Stitch link loses its lanes: an ACTIVE link is declared dead, a training attempt fails. -/
def Dev.linkLost (d : Dev) (s reason : Nat) : Dev :=
  if d.active s then d.linkDead s reason
  else if d.linkState s = 1 then d.attemptFails s reason else d

/-- The logs that a port die holds, as a mask: lost lines, fabric events on P0 and P2; faults, retirement, locks on P1 and P3. -/
def dieLogs (p : Nat) : Nat := if p % 2 = 0 then 3 else 28

/-- Port die p is lost: its ports are removed, its links declared dead, and its logs run on the other copy. -/
def Dev.portDieLost (d : Dev) (p reason : Nat) : Dev :=
  if d.flt.diesOut.contains p then d
  else
    let d := (List.range 16).foldl (fun (d : Dev) k => d.removal (16 * p + k)) d
    let d := (List.range 4).foldl (fun (d : Dev) k => d.linkLost (4 * p + k) reason) d
    let d := { d with flt := { d.flt with diesOut := d.flt.diesOut ++ [p] } }
    let d := (List.range 4).foldl (fun (d : Dev) k => d.pmuLost (20 + 4 * p + k)) (d.pmuLost (16 + p))
    d.report 0x395 1 (p + 4 * dieLogs p)

/-- A log's copies after its die has returned: the surviving copy is copied to it. -/
def MLog.resync {β : Type} (l : MLog β) (dieA dieB p : Nat) (out : List Nat) : MLog β :=
  if p = dieA ∧ ¬ out.contains dieB then { l with a := l.b }
  else if p = dieB ∧ ¬ out.contains dieA then { l with b := l.a } else l

/-- Port die p is back: each log and record is copied to it before both copies are used (R386). -/
def Dev.portDieBack (d : Dev) (p : Nat) : Dev :=
  if d.flt.diesOut.contains p then
    let out := d.flt.diesOut.filter fun x => !decide (x = p)
    { d with
      dir := { d.dir with lostLog := d.dir.lostLog.resync 0 2 p out }
      fab := { d.fab with log := d.fab.log.resync 0 2 p out }
      sec := { d.sec with lockRecord := d.sec.lockRecord.resync 1 3 p out }
      flt := { d.flt with
        log := d.flt.log.resync 1 3 p out, retirement := d.flt.retirement.resync 1 3 p out, diesOut := out } }
  else d

/-- The port that occupies the quad of port ID p: the one that starts there, or a wider one before it (R12). -/
def Dev.quadPort (d : Dev) (p : Nat) : Option Nat :=
  ((List.range 4).map fun k => p - k).find? fun q =>
    decide (d.portMode q ≠ 0 ∧ q / 4 = p / 4 ∧ p < q + widthQuads (d.rd (.prtCfg q) 27 26))

/-- Quad k is lost: its link, or the port it serves; a wider port retrains narrower on the quads it keeps (R400). -/
def Dev.quadLost (d : Dev) (k : Nat) : Dev :=
  let t := k / 5
  if k % 5 = 4 then d.linkLost t 8
  else
    match d.quadPort (4 * t + k % 5) with
    | some q => if widthQuads (d.rd (.prtCfg q) 27 26) = 1 then d.removal q else d
    | none => d

/-! ### The management cluster (R399) -/

/-- The mailbox registers, which MGT holds. -/
def isMailbox : Reg → Bool
  | .mbxCap _ | .mbxCtl _ | .mbxCmd _ | .mbxStatus _ | .mbxBgStatus _ | .mbxPayload _ _ => true
  | _ => false

/-- MGT loses power or is reset: firmware and what its memory held are gone; operations in hardware go on. -/
def Dev.mgtLost (d : Dev) : Dev :=
  let d := (d.resetRegs isMailbox).pmuLost 36
  let m := d.mgmt
  { d with
    mgmt := { m with
      fwUp := false, submitted := [], mctpBusy := [], transfers := [], activation := none, imageMove := [], policies := []
      verified := [], mctpEid := none }
    sec := { d.sec with conns := [], sessions := [], challenge := none, fencePaths := [], dl2Pending := none, zeroize := none } }

/-- A restore of MGT alone runs steps 2 to 5 of Table MG-18 and rebuilds its state from the live tables. -/
def Dev.mgtRestore (d : Dev) : Dev :=
  if d.mgmt.coldHeld || d.mgmt.warmHeld || d.aoOnly then d
  else
    let d := (d.domainOn domMgt).domainOn domLife
    let d := { d with sec := { d.sec with aliasHeld := true } }
    let slots := [d.rd .oobBoot 27 27, 1 - d.rd .oobBoot 27 27]
    match slots.find? fun s => (d.validImage 0 s).isSome with
    | none => d.recovery (d.slotError 0 (d.rd .oobBoot 27 27))
    | some s =>
      match d.validImage 0 s with
      | some i => (d.startFirmware s i).boot1 31 28 (if d.mgmt.bcb.isSome then 7 else 9)
      | none => d

/-! ### Power domains (Table PW-1, R400) -/

/-- What the loss of a power domain takes down; lasting says that it has latched. -/
def Dev.domainLost (d : Dev) (i : Nat) (lasting : Bool) : Dev :=
  if i = domMgt then d.mgtLost
  else if i = domKeyv then d.keyvLost
  else if i = domLife then { d with sec := { d.sec with aliasHeld := false, sessions := [], conns := [] } }
  else if 4 ≤ i ∧ i < 8 then d.hubQuarterLost (i - 4)
  else if 8 ≤ i ∧ i < 24 then d.tambourLost (i - 8) lasting
  else if 24 ≤ i ∧ i < 40 then d.tdirLost (i - 24) lasting
  else if 40 ≤ i ∧ i < 44 then d.portDieLost (i - 40) 8
  else if 44 ≤ i ∧ i < 124 then d.quadLost (i - 44)
  else d

/-- What a domain's return to service restores after a trip (Table PW-1). -/
def Dev.domainBack (d : Dev) (i : Nat) : Dev :=
  let d := d.domainOn i
  if i = domMgt then d.mgtRestore
  else if i = domKeyv then
    (d.wr .keyStatus 31 31 1).rekeyZero
  else if i = domLife then { d with sec := { d.sec with aliasHeld := true } }
  else if 4 ≤ i ∧ i < 8 then d.hubRestored (i - 4)
  else if 8 ≤ i ∧ i < 24 then d.tambourBack (i - 8)
  else if 40 ≤ i ∧ i < 44 then d.portDieBack (i - 40)
  else d

/-- A domain latches off (R363, R364, Table FI-9). -/
def Dev.latchDomain (d : Dev) (i cause : Nat) : Dev :=
  let d := (((d.setDomState i 4).wr (.domStatus i) 28 26 4).wr (.domStatus i) 25 23 cause).markRetired .domain i
  d.domainLost i true

/-! ### Retirement (R390, R391, Table FI-9) -/

/-- Resources of a kind that are retired in one bank, slice, quarter or die. -/
def Dev.retiredIn (d : Dev) (r : Resource) (group : Nat) : Nat :=
  ((d.retiredOf r).filter fun i => decide (i / 65536 = group)).length

/-- A shared-buffer bank is retired; a fifth takes its quarter out as a loss (R391). -/
def Dev.retireBank (d : Dev) (b : Nat) : Dev :=
  if d.isRetired .bank b then d
  else if (d.retiredOf .bank).length < 4 then (d.markRetired .bank b).showCells
  else d.hubQuarterLost (b / 16)

/-- A lasting event retires its resource as Table FI-9 gives. -/
def Dev.retireResource (d : Dev) (r : Resource) (i : Nat) : Dev :=
  match r with
  | .bankRow => if d.retiredIn .bankRow (i / 65536) < 8 then d.markRetired r i else d.retireBank (i / 65536)
  | .tableRow => if d.retiredIn .tableRow (i / 65536) < 16 then d.markRetired r i else d.hubQuarterLost (i / 65536)
  | .dirRow => d.markRetired r i
  | .dieLane =>
    if d.retiredIn .dieLane (i / 65536) < 4 then d.markRetired r i
    else (d.markRetired .portDie (i / 65536)).portDieLost (i / 65536) 8
  | .engine => d.retireEngine i
  | .channel => d.retireChannel i
  | .xts => d.tambourLost i true
  | .tambour => d.tambourLost i true
  | .tdir => d.tdirLost i true
  | .hub => d.hubQuarterLost i
  | .domain => d.latchDomain i (d.rd (.domStatus i) 25 23)
  | .portDie => (d.markRetired .portDie i).portDieLost i 8
  | .bank => d.retireBank i
  | .cxlLane => d.markRetired r i
  | .stitchLane => d.markRetired r i
  | .pair => d.markRetired r i

end Sys2Proof.Machine
end

