-- ==== Sys2Proof/Machine/Faults.lean ====
section
/-! DEFINITION. Carillon: events, severities, reactions, the fault log, self-tests, and the fault and block-reset commands (R376 to
R402, R315). -/

namespace Sys2Proof.Machine

/-! ### Sources (R376, R377) -/

/-- The source IDs that Tables FI-1, FI-2 and PW-10 assign. -/
def sourceKnown (n : Nat) : Bool :=
  if n < 0x100 then decide (n % 16 ≠ 14)
  else if n < 0x240 then true
  else if n < 0x280 then decide (n % 16 < 4)
  else if n < 0x2C0 then decide (n < 0x2BE)
  else if n < 0x300 then decide (0x2D0 ≤ n ∧ n ≤ 0x2D6)
  else if n < 0x340 then decide (n ≤ 0x304)
  else if n < 0x380 then decide (n ≤ 0x342)
  else decide (n ≤ 0x38C ∨ (0x390 ≤ n ∧ n ≤ 0x395))

/-- Whether a source's configuration agrees with its complement (R393). -/
def Dev.srcCfgOk (d : Dev) (n : Nat) : Bool := decide (d.rd (.srcCfg n) 63 32 + d.rd (.srcCfg n) 31 0 = 2 ^ 32 - 1)

/-- The severity of a class at a source (SEVMAP, R380). -/
def Dev.severity (d : Dev) (n cls : Nat) : Nat := d.rd (.srcCfg n) (21 + 2 * cls) (20 + 2 * cls)

/-- The highest severity that a source's SEVMAP gives (Table FI-3). -/
def Dev.topSeverity (d : Dev) (n : Nat) : Nat := ((List.range 5).map fun c => d.severity n c).foldl max 0

/-- Whether a slice holds an engine or a channel of Tambour t. -/
def SliceRec.uses (s : SliceRec) (t : Nat) : Bool :=
  (s.quota.engines.any fun e => decide (e.1 / 16 = t)) || s.quota.channels.any fun c => match c with
    | some c => decide (c / 4 = t)
    | none => false

/-- The hosts on a Tambour's ports and those of slices that hold an engine or channel of it. -/
def Dev.tambourHosts (d : Dev) (t : Nat) : List Nat :=
  d.hostPorts.filter fun p => decide (p / 4 = t) || d.allSlices.any fun s => decide (s.port = p) && s.uses t

/-- The hosts on a port die's ports. -/
def Dev.dieHosts (d : Dev) (p : Nat) : List Nat := d.hostPorts.filter fun x => decide (x / 16 = p)

/-- The hosts that INT reaches (Table FI-5). -/
def Dev.intHosts (d : Dev) (n : Nat) : List Nat :=
  if n < 0x100 then d.tambourHosts (n / 16)
  else if n < 0x200 then
    let p := (n - 0x100) / 4
    match d.portMode p with
    | 1 => [p]
    | 3 => [d.rd (.prtCfg p) 17 12]
    | _ => []
  else if n < 0x240 then []
  else if n < 0x280 then d.dieHosts ((n - 0x240) / 16)
  else if 0x288 ≤ n ∧ n < 0x2A8 then d.tambourHosts ((n - 0x288) % 16)
  else if 0x2A8 ≤ n ∧ n < 0x2B0 then d.dieHosts (n % 4)
  else if 0x2B8 ≤ n ∧ n < 0x2BC then d.dieHosts (n % 4)
  else d.hostPorts

/-! ### The fault log (R384, R385) -/

/-- Write a fault log record with the next sequence number; a full log refuses it and sets LOG_FULL (Table FI-14). -/
def Dev.writeFault (d : Dev) (x : FaultRec) : Dev :=
  let (l, ok) := d.flt.log.append 8192 1 3 d.flt.diesOut { x with seq := d.flt.log.seq }
  let d := { d with flt := { d.flt with log := l } }
  if ok then d else d.wr .faultStat 26 26 1

/-! ### Reactions (R381, Table FI-4) -/

/-- INT: firmware's interrupt, the Management Endpoint's vector, and a record in the event log of each host that Table FI-5 names. -/
def Dev.reactInt (d : Dev) (n cls sev detail : Nat) : Dev :=
  let d := (d.wake domMgt).emit (.firmware 0x200 n)
  let d := d.mgmtVector (if sev ≤ 1 then 3 else sev + 2)
  (d.intHosts n).foldl (fun (d : Dev) p => d.hostEvent p sev 0x10 n cls detail) d

/-- NMI: held while the cores are halted; not taken while firmware is not up (R399, Table FI-14). -/
def Dev.reactNmi (d : Dev) (n : Nat) : Dev :=
  if !d.mgmt.fwUp then d
  else if d.halted then { d with flt := { d.flt with nmiHeld := true } }
  else (d.wake domMgt).emit (.firmware 0x201 n)

/-- Block reset of a link: declared dead with reason 8; it retrains on its own (Table FI-5). -/
def Dev.resetLink (d : Dev) (s : Nat) : Dev := d.linkDead s 8

/-- BRST: the block reset of Table FI-5. -/
def Dev.reactBrst (d : Dev) (n : Nat) : Dev :=
  if n < 0x100 then d.resetTambour (n / 16)
  else if n < 0x200 then d.removal ((n - 0x100) / 4)
  else if n < 0x240 then d.resetLink ((n - 0x200) / 4)
  else if n < 0x280 then
    let p := (n - 0x240) / 16
    let d := (List.range 16).foldl (fun (d : Dev) k => d.removal (16 * p + k)) d
    let d := (List.range 4).foldl (fun (d : Dev) k => d.resetLink (4 * p + k)) d
    (List.range 4).foldl (fun (d : Dev) k => d.pmuLost (20 + 4 * p + k)) (d.pmuLost (16 + p))
  else if 0x300 ≤ n ∧ n < 0x340 then d.mgtLost.mgtRestore
  else d

/-! ### Events (R378, R381, R384, R389, R402) -/

/-- Resources that Table FI-9 gives a targeted self-test. -/
def hasSelfTest : Resource → Bool
  | .bankRow | .dirRow | .tableRow | .engine | .channel | .xts | .cxlLane | .stitchLane | .dieLane | .domain | .pair => true
  | .tambour | .tdir | .hub | .portDie | .bank => false

/-- Whether an event is recorded: a broken wire always, a second event while PENDING where its class is higher, severity 0 at most
once per second (R384, Table FI-14). -/
def Dev.recorded (d : Dev) (n : Nat) (wire : Bool) (cls sev : Nat) : Bool :=
  if wire then true
  else if d.bitOf (.srcStatus n) 63 then decide (d.rd (.srcStatus n) 61 59 < cls)
  else if sev = 0 then
    match tget d.flt.lastLog0 n with
    | some (t, _) => decide (t + 1000000000 ≤ d.now)
    | none => true
  else true

/-- SRC_STATUS keeps the highest class and its severity; a broken wire raises the severity alone (Tables FI-14, FI-16). -/
def Dev.keepClass (d : Dev) (n : Nat) (wire : Bool) (cls sev : Nat) : Dev :=
  let old := d.rd (.srcStatus n) 61 59
  let oldSev := d.rd (.srcStatus n) 58 57
  if wire then d.wr (.srcStatus n) 58 57 (max sev oldSev)
  else if old ≤ cls then
    (d.wr (.srcStatus n) 61 59 cls).wr (.srcStatus n) 58 57 (if d.bitOf (.srcStatus n) 62 then max sev oldSev else sev)
  else d

/-- The reactions that an event takes: in the safe state only CRST and PIN; with CRST neither NMI nor BRST (R381, Table FI-14). -/
def Dev.reactions (d : Dev) (n : Nat) (takes : Bool) : Nat :=
  let r := if takes then d.rd (.srcCfg n) 16 12 else 0
  let r := if d.safe then r &&& 24 else r
  if bit r 3 then r &&& 25 else r

/-- COUNT of a record: at severity 0 the events since the source's previous such record, else this event (R384, Table FI-7). -/
def Dev.recordCount (d : Dev) (n sev : Nat) (wire : Bool) : Nat :=
  if sev = 0 ∧ ¬ wire then
    min 255 (d.rd (.srcStatus n) 31 0 - ((tget d.flt.lastLog0 n).map (·.2)).getD 0)
  else 1

/-- DPC of a PASS port's vPPB is triggered on an uncorrectable error of the port where it is enabled (Table CP-1). -/
def Dev.dpcOn (d : Dev) (n sev : Nat) : Dev :=
  let p := (n - 0x100) / 4
  if 0x100 ≤ n ∧ n < 0x200 ∧ 2 ≤ sev ∧ d.portMode p = 3 ∧ Config.dpcEnabled p then
    d.modPort p fun r => { r with vppb := { r.vppb with dpc := true } }
  else d

/-- An event that Carillon has read from a source, or a broken wire. -/
def Dev.takeEvent (d : Dev) (n : Nat) (wire : Bool) (cls detail : Nat) (res : Option (Resource × Nat)) : Dev :=
  let d := (d.bumpSat (.srcStatus n) 31 0 1).count 36 0x9006 1
  let d := if wire then d.wr (.srcStatus n) 62 62 1 else d
  if !d.srcCfgOk n then (d.report 0x340 4 n).enterSafe 1
  else if !d.bitOf (.srcCfg n) 31 then d
  else
    let sev := if wire then d.topSeverity n else d.severity n cls
    let takes := wire || decide (d.rd (.srcCfg n) 19 18 ≤ sev)
    let react := d.reactions n takes
    let log := d.recorded n wire cls sev
    let (wireCls, d) : Nat × Dev := if wire then d.openNat else (0, d)
    let x : FaultRec :=
      { seq := 0, ftime := d.now, source := n, cls := if wire then wireCls % 5 else cls, sev := sev, wire := wire, test := 0
        retired := false, react := react, count := d.recordCount n sev wire, detail := if wire then 0 else detail }
    let d := if log && decide (sev = 0) && !wire then
        { d with flt := { d.flt with lastLog0 := tset d.flt.lastLog0 n (d.now, d.rd (.srcStatus n) 31 0) } } else d
    let d := (d.keepClass n wire cls sev).dpcOn n sev
    let d := (if takes then d.wr (.srcStatus n) 63 63 1 else d).showFaults
    let test := res.filter fun r => hasSelfTest r.1 && !d.isRetired r.1 r.2 && !d.safe && !bit react 3 &&
      !(d.flt.testDue.any fun t => decide (t.resource = r.1 ∧ t.number = r.2))
    let d := if log && test.isNone then d.writeFault x else d
    let d := if bit react 0 then d.reactInt n cls sev detail else d
    let d := if bit react 1 then d.reactNmi n else d
    let d := if bit react 2 then d.reactBrst n else d
    let d := match test with
      | some r => { d with flt := { d.flt with
          testDue := d.flt.testDue ++ [⟨n, r.1, r.2, if log then some x else none⟩] } }
      | none => d
    let d := if n = 0x341 ∨ (wire ∧ 0x340 ≤ n ∧ n < 0x380) then d.enterSafe 2 else if n = 0x340 then d.enterSafe 1 else d
    if bit react 3 then d.coldReset.releaseCold true true else d

/-- FAULT_SIGNAL: the pair reads fault; Carillon reads the syndrome that the source holds, and acknowledges it. A source of a domain
in Nap, Deep or Off reads normal (R379). -/
def execFaultSignal (n : Fin 1024) (cls : Fin 5) (detail : BitVec 96) (resource : Option (Resource × Nat)) (s : State) :
    Host.Outcome State Fault Refusal :=
  onDev s fun d =>
    if !sourceKnown n || decide (2 ≤ d.domState (sourceDomain n)) then d
    else
      let p := tgetD d.flt.pairs n.val ⟨.normal, 0, 0⟩
      let (c, x) := if p.code = .fault then (p.cls, p.detail) else (cls.val, detail.toNat)
      let d := { d with flt := { d.flt with pairs := tdel d.flt.pairs n.val } }
      d.takeEvent n false c x resource

/-- BROKEN_WIRE: the pair reads (0,0) or (1,1) (Table FI-3). -/
def execBrokenWire (n : Fin 1024) (s : State) : Host.Outcome State Fault Refusal :=
  onDev s fun d =>
    let p := tgetD d.flt.pairs n.val ⟨.normal, 0, 0⟩
    if !sourceKnown n || decide (2 ≤ d.domState (sourceDomain n)) || decide (p.code = .wire) then d
    else
      let d := { d with flt := { d.flt with pairs := tset d.flt.pairs n.val ⟨.wire, 0, 0⟩ } }
      d.takeEvent n true 0 0 none

/-! ### Self-tests (R389, R390) -/

/-- A Stitch lane that has passed its test may carry traffic again (R252). -/
def Dev.unshedLane (d : Dev) (number : Nat) : Dev :=
  let s := number / 4
  let m := 15 ^^^ 2 ^ (number % 4)
  if s < 16 then
    let d := (d.modLink s fun r => { r with
      rxShed := r.rxShed &&& m, txShed := r.txShed &&& m, ownMask := r.ownMask ||| 2 ^ (number % 4) }).showShed s
    if d.active s then d.sendBlock s (widthReqBlock (d.lrec s).ownMask) else d
  else d

/-- A targeted self-test has ended: transient, lasting, or lasting as the third transient within 24 h (R390). -/
def execSelfTestResult (n : Fin 1024) (resource : Resource) (number : Nat) (passed : Bool) (s : State) :
    Host.Outcome State Fault Refusal :=
  onDev s fun d =>
    let mine (t : TestDue) : Bool := decide (t.source = n.val ∧ t.resource = resource ∧ t.number = number)
    match d.flt.testDue.find? mine with
    | none => d
    | some t =>
      let d := { d with flt := { d.flt with testDue := d.flt.testDue.filter fun x => !mine x } }
      let r := d.retireRec resource number
      let recent := r.transients.filter fun x => decide (d.now < x + 86400 * 10 ^ 9)
      let third := passed && decide (2 ≤ recent.length)
      let lasting := !passed || third
      let code := if !passed then 2 else if third then 3 else 1
      let d := (d.wr (.srcStatus n) 56 55 code).wr (.srcStatus n) 54 54 (if lasting then 1 else d.rd (.srcStatus n) 54 54)
      let d := match t.record with
        | some x => d.writeFault { x with test := code, retired := lasting }
        | none => d
      let d := if lasting then d.retireResource resource number
        else
          let d := d.setRetireRec resource number { r with transients := (recent ++ [d.now]).drop (recent.length - 1) }
          if resource = .stitchLane then d.unshedLane number else d
      d.mgmtVector 6

/-! ### Losses (R386, R394 to R399) -/

def execTambourLogicLost (t : Fin 16) (lasting : Bool) (s : State) : Host.Outcome State Fault Refusal :=
  onDev s fun d => d.tambourLost t lasting

def execSliceMoveComplete (t : Fin 16) (s : State) : Host.Outcome State Fault Refusal := onDev s fun d => d.sliceMoved t

def execTdirLost (t : Fin 16) (s : State) : Host.Outcome State Fault Refusal :=
  onDev s fun d => if d.isRetired .tdir t then d else d.tdirLost t true

def execHubQuarterLost (q : Fin 4) (s : State) : Host.Outcome State Fault Refusal := onDev s fun d => d.hubQuarterLost q

def execPortDieLost (die : Fin 4) (s : State) : Host.Outcome State Fault Refusal :=
  onDev s fun d => (d.portDieLost die 8).domainOff (domPdie die) 4

def execPortDieReturn (die : Fin 4) (s : State) : Host.Outcome State Fault Refusal :=
  onDev s fun d => if d.isRetired .portDie die then d else (d.domainOn (domPdie die)).portDieBack die

/-- MGT_RESTORE (R399). -/
def execMgtRestore (s : State) : Host.Outcome State Fault Refusal :=
  onDev s fun d => if d.mgmt.fwUp then d else d.mgtRestore

/-- The scrub of every source's configuration (R393, R387): a mismatch is a class 4 event under 0x340 and the safe state. -/
def execCarillonConfigScrub (s : State) : Host.Outcome State Fault Refusal :=
  onDev s fun d =>
    match (List.range 1024).find? fun n => !d.srcCfgOk n with
    | some n => (d.report 0x340 4 n).enterSafe 1
    | none => d

/-! ### FAULT_CLEAR and RESOURCE_RESTORE (R401) -/

/-- Clear one source: PENDING, WIRE and the class where its pair reads normal; COUNT where the command asks for it. -/
def Dev.clearSource (d : Dev) (count : Bool) (n : Nat) : Dev :=
  let d := if count then
      { d.wr (.srcStatus n) 31 0 0 with flt := { d.flt with lastLog0 := tmod d.flt.lastLog0 n fun x => (x.1, 0) } } else d
  if (tget d.flt.pairs n).isSome then d
  else ((d.wr (.srcStatus n) 63 62 0).wr (.srcStatus n) 61 59 0).wr (.srcStatus n) 58 57 0

def faultClearForm (input : List Byte) : Bool :=
  decide (input.length = 4 ∧ (field input 0 2 < 1024 ∨ field input 0 2 = 0xFFFF) ∧ field input 2 1 ≤ 1 ∧ field input 3 1 = 0)

def execFaultClear (path : Path) (input : List Byte) (s : State) : Host.Outcome State Fault Refusal :=
  onDev s fun d => d.stoluo path 0xC078 false (faultClearForm input) fun d =>
    let n := field input 0 2
    let named := if n = 0xFFFF then d.raisedSources else [n]
    let d := (named.foldl (fun (d : Dev) n => d.clearSource (decide (field input 2 1 = 1)) n) d).showFaults
    let left := (named.filter fun n => d.bitOf (.srcStatus n) 63).length
    d.complete path 0xC078 rcSuccess 0 (toBytes 2 left ++ [0, 0])

/-- KIND of RESOURCE_RESTORE, and how many of the kind there are (Table FI-13). -/
def restoreKind : Nat → Option (Resource × Nat)
  | 0 => some (.tambour, 16)
  | 1 => some (.tdir, 16)
  | 2 => some (.hub, 4)
  | 3 => some (.engine, 256)
  | 4 => some (.channel, 64)
  | 5 => some (.cxlLane, 256)
  | 6 => some (.stitchLane, 64)
  | 7 => some (.domain, 124)
  | 8 => some (.portDie, 4)
  | 9 => some (.bank, 64)
  | _ => none

def restoreForm (input : List Byte) : Bool :=
  decide (input.length = 4 ∧ field input 3 1 = 0) &&
    match restoreKind (field input 0 1) with
    | some (_, n) => decide (field input 1 2 < n)
    | none => false

/-- An engine returns; E(16t+15) takes the coherence-assist image back from its replacement (R392). -/
def Dev.engineRestored (d : Dev) (e : Nat) : Dev :=
  let t := e / 16
  let d := d.unmarkRetired .engine e
  let d := d.setEngine e { d.engine e with retired := false }
  let d := if h : e < 256 then d.revive (.engine ⟨e, h⟩) else d
  if e % 16 = 15 then
    let d := match d.assistEngine t with
      | some a => d.setEngine a { d.engine a with image := .none }
      | none => d
    d.loadAssist t
  else d.showEngines t

/-- A retired resource that has passed its test returns to service. -/
def Dev.restoreResource (d : Dev) (r : Resource) (i : Nat) : Dev :=
  match r with
  | .tambour => d.tambourRestored i
  | .tdir => d.tdirRestored i
  | .hub => d.hubRestored i
  | .engine => d.engineRestored i
  | .channel =>
    let d := d.unmarkRetired .channel i
    if h : i < 64 then d.revive (.dmv ⟨i, h⟩) else d
  | .stitchLane => (d.unmarkRetired .stitchLane i).unshedLane i
  | .domain => ((d.unmarkRetired .domain i).wr (.domStatus i) 22 21 0).domainBack i
  | .portDie => ((d.unmarkRetired .portDie i).domainOn (domPdie i)).portDieBack i
  | .bank => (d.unmarkRetired .bank i).showCells.admitBlocked
  | r => d.unmarkRetired r i

/-- Whether a move of the resource's slice is still running. -/
def Dev.stillMoving (d : Dev) (r : Resource) (i : Nat) : Bool :=
  decide (r = .tambour ∨ r = .tdir) && ((tget d.flt.moving i).map fun u => decide (u < 16)).getD false

def execResourceRestore (path : Path) (input : List Byte) (passes : Bool) (s : State) : Host.Outcome State Fault Refusal :=
  onDev s fun d => d.stoluo path 0xC079 false (restoreForm input) fun d =>
    match restoreKind (field input 0 1) with
    | none => d.finish path 0xC079 rcInvalid
    | some (r, _) =>
      let i := field input 1 2
      if !d.isRetired r i then d.complete path 0xC079 rcConflict 1 []
      else if d.stillMoving r i then d.complete path 0xC079 rcConflict 3 []
      else
        d.background path 0xC079 fun d =>
          if passes then (d.restoreResource r i).showRetired.bgResult path rcSuccess 0 else d.bgResult path rcConflict 2

/-! ### Block resets by command (R315) -/

/-- RESET's input for a block: NUMBER within its kind, reserved bytes 0. -/
def resetForm (input : List Byte) (bound : Nat) : Bool :=
  decide (input.length = 4 ∧ field input 1 1 < bound ∧ field input 2 2 = 0)

def execResetTambour (path : Path) (input : List Byte) (s : State) : Host.Outcome State Fault Refusal :=
  onDev s fun d => d.stoluo path 0xC058 false (resetForm input 16) fun d =>
    if d.isRetired .tambour (field input 1 1) then d.finish path 0xC058 rcConflict
    else (d.resetTambour (field input 1 1)).finish path 0xC058 rcSuccess

/-- It completes once the port's teardown is complete. -/
def execResetPort (path : Path) (input : List Byte) (s : State) : Host.Outcome State Fault Refusal :=
  onDev s fun d => d.stoluo path 0xC058 false (resetForm input 64) fun d =>
    let p := field input 1 1
    if (d.prec p).resetBy.isSome then d.finish path 0xC058 rcBusy
    else
      let d := d.removal p
      if d.portState p = 7 then d.modPort p fun r => { r with resetBy := some path } else d.finish path 0xC058 rcSuccess

/-- It completes once the link has been declared dead and any takeover has completed. -/
def execResetLink (path : Path) (input : List Byte) (s : State) : Host.Outcome State Fault Refusal :=
  onDev s fun d => d.stoluo path 0xC058 false (resetForm input 16) fun d =>
    let l := field input 1 1
    if (d.lrec l).resetBy.isSome then d.finish path 0xC058 rcBusy
    else
      let d := d.resetLink l
      if (d.lrec l).tko.isSome then d.modLink l fun r => { r with resetBy := some path } else d.finish path 0xC058 rcSuccess

end Sys2Proof.Machine
end

