-- ==== Sys2Proof/Machine/Lookup.lean ====
section
/-! DEFINITION. The lookup service: anchors and headers, exact match, longest-prefix match and batches (R150 to R156). -/

namespace Sys2Proof.Machine

/-! ### Anchors and headers (R150) -/

/-- An anchor's ROOT and VERSION. -/
structure Anchor where
  root    : Nat
  version : Nat
  deriving DecidableEq, Repr

/-- A header as 64 bytes (Table MS-14). -/
structure Header where
  typ  : Nat
  raw  : List Byte
  deriving DecidableEq, Repr

def Header.keyLen (h : Header) : Nat := field h.raw 1 1
def Header.keyClass (h : Header) : Nat := field h.raw 2 1
def Header.log2Nb (h : Header) : Nat := field h.raw 3 1
def Header.seed0 (h : Header) : Nat := field h.raw 4 4
def Header.seed1 (h : Header) : Nat := field h.raw 8 4
def Header.buckets (h : Header) : Nat := field h.raw 16 8
def Header.entries (h : Header) : Nat := field h.raw 24 8
def Header.nodes (h : Header) : Nat := field h.raw 4 4
def Header.results (h : Header) : Nat := field h.raw 8 4
def Header.root16 (h : Header) : Nat := field h.raw 16 8
def Header.nodeBase (h : Header) : Nat := field h.raw 24 8
def Header.resultBase (h : Header) : Nat := field h.raw 32 8

/-- Key bytes and entry size of a key class (Table MS-15). -/
def classKey (c : Nat) : Nat := if c = 0 then 16 else if c = 1 then 48 else 64
def classSize (c : Nat) : Nat := if c = 0 then 32 else if c = 1 then 64 else 128

/-- Whether an exact-match header lies within Table MS-14, with a KEY_LEN that fits its class (R152). -/
def Header.emOk (h : Header) : Bool :=
  decide (h.typ = 1 ∧ 1 ≤ h.keyLen ∧ h.keyLen ≤ 64 ∧ h.keyClass ≤ 2 ∧ h.keyLen ≤ classKey h.keyClass ∧ 1 ≤ h.log2Nb ∧
    h.log2Nb ≤ 25 ∧ h.buckets % 64 = 0 ∧ h.entries % 64 = 0)

/-- Whether an LPM header lies within Table MS-14. -/
def Header.lpmOk (h : Header) : Bool :=
  decide ((h.typ = 2 ∨ h.typ = 3) ∧ h.nodes ≤ 16777216 ∧ h.results ≤ 16777216 ∧ h.root16 % 4096 = 0 ∧ h.nodeBase % 2048 = 0 ∧
    h.resultBase % 64 = 0)

/-- What a lookup works with: the slice, its pool regions and the engine. -/
structure LookupCtx where
  s  : SliceRec
  rs : List (Nat × Nat)
  a  : Agent
  deriving DecidableEq, Repr

def Dev.lread (d : Dev) (x : LookupCtx) (dpa len : Nat) : Except Nat (List Byte) × Dev := d.sliceRead x.s x.rs x.a dpa len

/-- Read the anchor once, and the header that it names: the anchor's VERSION is known wherever the anchor was read. -/
def Dev.readTable (d : Dev) (x : LookupCtx) (anchor : Nat) : (Option Nat × Except Nat Header) × Dev :=
  match d.lread x anchor 64 with
  | (.error c, d) => ((none, .error c), d)
  | (.ok b, d) =>
    let a : Anchor := ⟨field b 0 8, field b 8 4⟩
    if a.root = 0 ∨ a.root % 64 ≠ 0 then ((some a.version, .error stTableFormat), d)
    else
      match d.lread x a.root 64 with
      | (.error c, d) => ((some a.version, .error c), d)
      | (.ok h, d) => ((some a.version, .ok ⟨field h 0 1, h⟩), d)

/-! ### Exact match (R151, R152) -/

/-- CRC-32C with a seed and no final inversion. -/
def crc32c (seed : Nat) (b : List Byte) : Nat := crcBytes 0x82F63B78 seed b

/-- The candidate buckets and the signature of a key. -/
def emHash (h : Header) (key : List Byte) : Nat × Nat × Nat :=
  let h0 := crc32c h.seed0 key
  let h1 := crc32c h.seed1 key
  let nb := 2 ^ h.log2Nb
  let b0 := h0 % nb
  let b1 := h1 % nb
  (b0, if b1 = b0 then b0 ^^^ 1 else b1, h0 / 2 ^ 13 % 2 ^ 19)

/-- The entry indices of a bucket's slots whose signature matches, in slot order (Table MS-16). -/
def bucketHits (b : List Byte) (sig : Nat) : List Nat :=
  ((List.range 8).map fun i => field b (8 * i) 8).filterMap fun w =>
    if w.testBit 63 ∧ w / 2 ^ 44 % 2 ^ 19 = sig then some (w % 2 ^ 28) else none

/-- Try entries in order: the first whose key equals is the hit, with its index and value. -/
def Dev.tryEntries (d : Dev) (x : LookupCtx) (h : Header) (key : List Byte) : List Nat → Except Nat (Option (Nat × List Byte)) × Dev
  | [] => (.ok none, d)
  | i :: rest =>
    match d.lread x (h.entries + i * classSize h.keyClass) (classSize h.keyClass) with
    | (.error c, d) => (.error c, d)
    | (.ok e, d) =>
      if e.take h.keyLen = key then (.ok (some (i, slice e (classKey h.keyClass) 16)), d) else d.tryEntries x h key rest

/-- One exact-match lookup of a key of KEY_LEN bytes. -/
def Dev.emLookup (d : Dev) (x : LookupCtx) (h : Header) (key : List Byte) : Except Nat (Option (Nat × List Byte)) × Dev :=
  let (b0, b1, sig) := emHash h key
  match d.lread x (h.buckets + b0 * 64) 64 with
  | (.error c, d) => (.error c, d)
  | (.ok l0, d) =>
    match d.lread x (h.buckets + b1 * 64) 64 with
    | (.error c, d) => (.error c, d)
    | (.ok l1, d) => d.tryEntries x h key (bucketHits l0 sig ++ bucketHits l1 sig)

/-! ### Longest-prefix match (R153, R154) -/

/-- An entry of the trie: the eight bytes at an address. -/
def Dev.lpmEntry (d : Dev) (x : LookupCtx) (addr : Nat) : Except Nat Nat × Dev :=
  match d.lread x addr 8 with
  | (.error c, d) => (.error c, d)
  | (.ok b, d) => (.ok (field b 0 8), d)

def lpmResult (e : Nat) : Nat := e / 2 ^ 30 % 2 ^ 24
def lpmPlen (e : Nat) : Nat := e / 2 ^ 54 % 256
def lpmChild (e : Nat) : Nat := e % 2 ^ 24

/-- Walk on from an entry: addr are the address bytes that the deeper levels are indexed by. -/
def Dev.lpmWalk (d : Dev) (x : LookupCtx) (h : Header) : List Byte → Nat → Option Nat → Except Nat (Option Nat) × Dev
  | addr, e, best =>
    if e.testBit 62 ∧ h.results ≤ lpmResult e then (.error stTableFormat, d)
    else
      let best := if e.testBit 62 then some e else best
      match addr with
      | [] => (.ok best, d)
      | b :: rest =>
        if !e.testBit 63 then (.ok best, d)
        else if h.nodes ≤ lpmChild e then (.error stTableFormat, d)
        else
          match d.lpmEntry x (h.nodeBase + lpmChild e * 2048 + b.toNat * 8) with
          | (.error c, d) => (.error c, d)
          | (.ok e', d) => d.lpmWalk x h rest e' best

/-- One LPM lookup of an address of 4 or 16 bytes in network order. -/
def Dev.lpmLookup (d : Dev) (x : LookupCtx) (h : Header) (addr : List Byte) : Except Nat (Option (Nat × List Byte)) × Dev :=
  let i := (addr.getD 0 0).toNat * 256 + (addr.getD 1 0).toNat
  match d.lpmEntry x (h.root16 + i * 8) with
  | (.error c, d) => (.error c, d)
  | (.ok e, d) =>
    match d.lpmWalk x h (addr.drop 2) e none with
    | (.error c, d) => (.error c, d)
    | (.ok none, d) => (.ok none, d)
    | (.ok (some e), d) =>
      match d.lread x (h.resultBase + lpmResult e * 16) 16 with
      | (.error c, d) => (.error c, d)
      | (.ok r, d) => (.ok (some (lpmPlen e + lpmResult e * 256, r)), d)

/-! ### Results (Table MS-12) -/

/-- The result of one lookup: AUX and DATA on a hit. -/
def lookupResult (version : Option Nat) : Except Nat (Option (Nat × List Byte)) → OpResult
  | .error c => ⟨c, 0, version.getD 0, 0, []⟩
  | .ok none => ⟨stMiss, 0, version.getD 0, 0, []⟩
  | .ok (some (aux, v)) => ⟨stOk, 0, version.getD 0, aux, v⟩

/-- A lookup operation ends, counted by its status. -/
def Dev.endLookup (d : Dev) (s : SliceRec) (r : Nat) (o : RingOp) (e : Nat) (x : OpResult) : Dev :=
  let d := if x.status = stOk then d.count (e / 16) 0x4001 1 else if x.status = stMiss then d.count (e / 16) 0x4002 1 else d
  d.endOp s r o x

/-- EM_LOOKUP (R152): the key lies in the entry, or at KEY_ADDR where it is longer than 48 bytes. -/
def execEmLookup (slice : Fin 4096) (ring : Fin 64) (index : BitVec 32) (st : State) : Host.Outcome State Fault Refusal :=
  onAccess st fun d => d.startOp slice ring index.toNat 1 [1] fun d s _ o e =>
    let x : LookupCtx := ⟨s, s.regionsFor o, engineAgent e⟩
    let stop (d : Dev) (c : Nat) : Dev := d.endLookup s ring o e (.of c)
    if field o.entry 4 4 ≠ 0 then stop d stBadParam
    else if field o.entry 8 8 % 64 ≠ 0 then stop d stAlignment
    else
      match d.readTable x (field o.entry 8 8) with
      | ((v, .error c), d) => d.endLookup s ring o e ⟨c, 0, v.getD 0, 0, []⟩
      | ((v, .ok h), d) =>
        if !h.emOk then d.endLookup s ring o e ⟨stTableFormat, 0, v.getD 0, 0, []⟩
        else if h.keyLen ≤ 48 then
          let (res, d) := d.emLookup x h (Machine.slice o.entry 16 h.keyLen)
          d.endLookup s ring o e (lookupResult v res)
        else if field o.entry 24 40 ≠ 0 then stop d stBadParam
        else if field o.entry 16 8 % 64 ≠ 0 then stop d stAlignment
        else
          match d.lread x (field o.entry 16 8) h.keyLen with
          | (.error c, d) => d.endLookup s ring o e ⟨c, 0, v.getD 0, 0, []⟩
          | (.ok key, d) =>
            let (res, d) := d.emLookup x h key
            d.endLookup s ring o e (lookupResult v res)

/-- LPM_LOOKUP (R154). -/
def execLpmLookup (slice : Fin 4096) (ring : Fin 64) (index : BitVec 32) (st : State) : Host.Outcome State Fault Refusal :=
  onAccess st fun d => d.startOp slice ring index.toNat 2 [1] fun d s _ o e =>
    let x : LookupCtx := ⟨s, s.regionsFor o, engineAgent e⟩
    let stop (d : Dev) (c : Nat) : Dev := d.endLookup s ring o e (.of c)
    if field o.entry 4 4 ≠ 0 ∨ field o.entry 32 32 ≠ 0 then stop d stBadParam
    else if field o.entry 8 8 % 64 ≠ 0 then stop d stAlignment
    else
      match d.readTable x (field o.entry 8 8) with
      | ((v, .error c), d) => d.endLookup s ring o e ⟨c, 0, v.getD 0, 0, []⟩
      | ((v, .ok h), d) =>
        if !h.lpmOk then d.endLookup s ring o e ⟨stTableFormat, 0, v.getD 0, 0, []⟩
        else if h.typ = 2 ∧ field o.entry 20 12 ≠ 0 then stop d stBadParam
        else
          let (res, d) := d.lpmLookup x h (Machine.slice o.entry 16 (if h.typ = 2 then 4 else 16))
          d.endLookup s ring o e (lookupResult v res)

/-! ### Batches (R155) -/

/-- One lookup of a batch under its header. -/
def Dev.batchOne (d : Dev) (x : LookupCtx) (h : Header) (keys k : Nat) : Except Nat (Option (Nat × List Byte)) × Dev :=
  if h.typ = 1 then
    match d.lread x (keys + 64 * k) h.keyLen with
    | (.error c, d) => (.error c, d)
    | (.ok key, d) => d.emLookup x h key
  else
    match d.lread x (keys + 16 * k) (if h.typ = 2 then 4 else 16) with
    | (.error c, d) => (.error c, d)
    | (.ok a, d) => d.lpmLookup x h a

/-- The lookups of a batch from key k on, n of them: each result record is written, and the hits are counted. A result that
cannot be written ends the batch. -/
def Dev.batchAll (d : Dev) (x : LookupCtx) (h : Header) (version : Option Nat) (keys results : Nat) :
    Nat → Nat → Nat → Except Nat Nat × Dev
  | 0, _, hits => (.ok hits, d)
  | n + 1, k, hits =>
    let (res, d) := d.batchOne x h keys k
    let r := lookupResult version res
    let o : RingOp := ⟨0, toBytes 2 0 ++ toBytes 2 k, .ended, r, false, []⟩
    match d.sliceWrite x.s x.rs x.a (results + 32 * k) (completionBytes o) with
    | (0, d) => d.batchAll x h version keys results n (k + 1) (hits + if r.status = stOk then 1 else 0)
    | (c, d) => (.error c, d)

/-- LOOKUP_BATCH (R155). -/
def execLookupBatch (slice : Fin 4096) (ring : Fin 64) (index : BitVec 32) (st : State) : Host.Outcome State Fault Refusal :=
  onAccess st fun d => d.startOp slice ring index.toNat 3 [1] fun d s _ o e =>
    let x : LookupCtx := ⟨s, s.regionsFor o, engineAgent e⟩
    let n := field o.entry 4 2
    let kind := field o.entry 6 1
    let keys := field o.entry 16 8
    let results := field o.entry 24 8
    let stop (d : Dev) (c : Nat) : Dev := d.endLookup s ring o e (.of c)
    if n < 1 ∨ 256 < n ∨ kind < 1 ∨ 2 < kind ∨ field o.entry 7 1 ≠ 0 ∨ field o.entry 32 32 ≠ 0 then stop d stBadParam
    else if field o.entry 8 8 % 64 ≠ 0 ∨ keys % 64 ≠ 0 ∨ results % 64 ≠ 0 then stop d stAlignment
    else
      match d.readTable x (field o.entry 8 8) with
      | ((v, .error c), d) => d.endLookup s ring o e ⟨c, 0, v.getD 0, 0, []⟩
      | ((v, .ok h), d) =>
        if !(if kind = 1 then h.emOk else h.lpmOk) then d.endLookup s ring o e ⟨stTableFormat, 0, v.getD 0, 0, []⟩
        else
          match d.batchAll x h v keys results n 0 0 with
          | (.ok hits, d) => d.endLookup s ring o e ⟨stOk, 0, v.getD 0, hits, []⟩
          | (.error c, d) => d.endLookup s ring o e ⟨c, 0, v.getD 0, 0, []⟩

end Sys2Proof.Machine
end

