-- ==== Sys2Proof/Machine/Power.lean ====
section
/-! DEFINITION. Power domains, sleep, breakers and retries, rails and feeds, AO-ONLY, clocks, adaptive voltage and POWER_POLICY_SET
(R352 to R375). -/

namespace Sys2Proof.Machine

/-! ### What a domain is -/

/-- The Carillon source of a power domain (Table PW-10). -/
def powerSource (i : Nat) : Nat := if i < 44 then 0x280 + i else 0x2AC + (i - 44) / 20

/-- Whether a domain has segment 1 (Table PW-1). -/
def hasSegment1 (i : Nat) : Bool := decide (i ≠ 0 ∧ i ≠ 3 ∧ ¬ (40 ≤ i ∧ i < 44))

/-- The rails that feed a domain (Table PW-1). -/
def railsOf (i : Nat) : List Nat :=
  if i = 0 ∨ i = 3 then [] else if 44 ≤ i then [2, 3] else if 40 ≤ i then [0] else [0, 1]

/-- Whether every rail of a domain is qualified (R360). -/
def Dev.railsOk (d : Dev) (i : Nat) : Bool := (railsOf i).all fun r => d.bitOf (.rail r) 62

/-- SWITCH of PWR.DOM_STATUS: 0 ON, 1 RAMPING, 2 OPEN, 3 RETRY_WAIT, 4 LATCHED (Table PW-11). -/
def Dev.switchOf (d : Dev) (i : Nat) : Nat := d.rd (.domStatus i) 28 26

def Dev.setSwitch (d : Dev) (i n : Nat) : Dev := d.wr (.domStatus i) 28 26 n

/-- FLOOR of PWR.DOM_CFG: the deepest state entered. -/
def Dev.floorOf (d : Dev) (i : Nat) : Nat := d.rd (.domCfg i) 31 30

/-- The PMUs of a domain (Table TM-1). -/
def pmusOf (i : Nat) : List Nat :=
  if i = 1 then [36] else if 8 ≤ i ∧ i < 24 then [i - 8]
  else if 40 ≤ i ∧ i < 44 then (16 + (i - 40)) :: (List.range 4).map fun k => 20 + 4 * (i - 40) + k else []

/-! ### Sleep conditions (Table PW-3) -/

/-- Whether the link of a port is in L1, L2 or L3. -/
def Dev.lowPower (d : Dev) (p : Nat) : Bool := decide (1 ≤ d.rd (.prtStatus p) 10 8)

/-- Whether a port has no traffic for its Tambour: OFF, IDLE, SETTLE, QUARANTINE or FAILED, or a link in low power. -/
def Dev.portQuiet (d : Dev) (p : Nat) : Bool := [0, 1, 8, 9, 10].contains (d.portState p) || d.lowPower p

/-- Whether a link is OFF, DOWN or FAILED. -/
def Dev.linkQuiet (d : Dev) (s : Nat) : Bool := [0, 3, 4].contains (d.linkState s)

/-- Whether a logical slice has neither a conflict-table nor a victim-buffer entry. -/
def Dev.sliceIdle (d : Dev) (t : Nat) : Bool :=
  (d.dir.ct.all fun e => !decide (e.2.slice = t)) && d.dir.victims.all fun v => !decide (v.2.slice = t)

/-- The Nap condition of Tambour t. -/
def Dev.tambourNaps (d : Dev) (t : Nat) : Bool :=
  ((List.range 4).all fun k => d.portQuiet (4 * t + k)) && d.linkQuiet t &&
    ((List.range 16).all fun k => decide (d.threadsOf (16 * t + k) = 0)) &&
    ((List.range 4).all fun k => decide (d.dmvState (4 * t + k) = 0 ∨ d.dmvState (4 * t + k) = 4)) &&
    ((d.slicesAt t).all fun s => (d.dir.ct.all fun e => !decide (e.2.slice = s)) &&
      (if h : s < 16 then !d.queuedFor (.home ⟨s, h⟩) else true) && d.dir.retried.all fun r => !decide (r.1.2 = s))

/-- Whether the quads of port die p are all in a state of at least n. -/
def Dev.quadsAt (d : Dev) (p n : Nat) : Bool := (List.range 20).all fun k => decide (n ≤ d.domState (domQuad (20 * p + k)))

/-- Whether a domain may enter Doze, as far as the device's own state says. -/
def Dev.mayDoze (d : Dev) (i : Nat) : Bool := if 40 ≤ i ∧ i < 44 then d.quadsAt (i - 40) 1 else true

/-- Whether a domain may enter Nap. -/
def Dev.mayNap (d : Dev) (i : Nat) : Bool :=
  if i = domMgt then true
  else if i = domKeyv then
    ((List.range 64).all fun p => decide (d.portMode p ≠ 2) || decide (2 ≤ d.domState (domTmb (p / 4)))) && d.sec.zeroize.isNone &&
      d.sec.dl2Pending.isNone && !d.pool.revoking
  else if 8 ≤ i ∧ i < 24 then d.tambourNaps (i - 8)
  else if 24 ≤ i ∧ i < 40 then (d.slicesAt (i - 24)).all d.sliceIdle
  else if 40 ≤ i ∧ i < 44 then d.quadsAt (i - 40) 2
  else if 44 ≤ i then
    let t := (i - 44) / 5
    let k := (i - 44) % 5
    if k = 4 then d.linkQuiet t
    else match d.quadPort (4 * t + k) with
      | some p => d.lowPower p
      | none => true
  else false

/-- Whether a domain may enter Deep. -/
def Dev.mayDeep (d : Dev) (i : Nat) : Bool :=
  if 8 ≤ i ∧ i < 24 then d.tambourNaps (i - 8) && d.allSlices.all fun s => !s.uses (i - 8)
  else if 24 ≤ i ∧ i < 40 then
    ((d.slicesAt (i - 24)).all d.sliceIdle) && decide (d.rd (.dirStatus (i - 24)) 19 0 = 0)
  else if 40 ≤ i ∧ i < 44 then d.quadsAt (i - 40) 3
  else if 44 ≤ i then
    let t := (i - 44) / 5
    let k := (i - 44) % 5
    if k = 4 then decide (d.linkState t = 0 ∨ d.linkState t = 4)
    else match d.quadPort (4 * t + k) with
      | some p => decide (d.portState p = 0 ∨ d.portState p = 10)
      | none => true
  else false

/-- Whether a sleeping state may be entered from here: the switches are on, no wake runs, and FLOOR permits it (R355). -/
def Dev.maySleep (d : Dev) (i st : Nat) : Bool :=
  decide (d.switchOf i = 0 ∧ d.domState i < st ∧ st ≤ d.floorOf i) && (tget d.pwr.wakeFrom i).isNone && !d.mgmt.coldHeld

/-- A Tambour's slot caches, and the block and set caches of the slices it serves, are invalidated (R357). -/
def Dev.dropCaches (d : Dev) (t : Nat) : Dev :=
  { d with pool := { d.pool with
    slotCache := d.pool.slotCache.filter fun e => !decide (e.1.1 / 4 = t)
    blockCache := d.pool.blockCache.filter fun e => !decide (e.1.1 = t)
    setCache := d.pool.setCache.filter fun e => !decide (e.1.1 = t) } }

/-! ### Sleeping and waking (R353 to R358) -/

def execDomainDozeEntry (dom : Fin 124) (s : State) : Host.Outcome State Fault Refusal :=
  onDev s fun d => if d.maySleep dom 1 && d.mayDoze dom then d.setDomState dom 1 else d

/-- Entry to Nap: not within 32 ms of the last exit; a HUB quarter first leaves the buffer (R110, R355, R357, R404). -/
def execDomainNapEntry (dom : Fin 124) (s : State) : Host.Outcome State Fault Refusal :=
  onDev s fun d =>
    let i := dom.val
    let rested := match tget d.pwr.napExit i with
      | some t => decide (t + 32000000 ≤ d.now)
      | none => true
    if !(d.maySleep i 2 && rested) then d
    else if 4 ≤ i ∧ i < 8 then d.quarterNap (i - 4)
    else if d.mayNap i then
      let d := (pmusOf i).foldl (fun (d : Dev) u => d.wr (.pmcStatus u) 17 17 1) (d.setDomState i 2)
      if 8 ≤ i ∧ i < 24 then d.dropCaches (i - 8) else d
    else d

/-- Entry to Deep: the breakers open and nothing is kept (Table PW-2, R404). -/
def execDomainDeepEntry (dom : Fin 124) (s : State) : Host.Outcome State Fault Refusal :=
  onDev s fun d =>
    let i := dom.val
    if d.maySleep i 3 && d.mayDeep i then
      let d := (pmusOf i).foldl (fun (d : Dev) u => d.pmuLost u) (d.domainOff i 3)
      if 8 ≤ i ∧ i < 24 then d.dropCaches (i - 8) else d
    else d

/-- A wake event: a domain in Deep begins to close its breakers where its rails are qualified (R354, R360). -/
def execDomainWakeEvent (dom : Fin 124) (s : State) : Host.Outcome State Fault Refusal :=
  onDev s fun d =>
    if d.aoOnly || d.mgmt.coldHeld then d
    else
      let d := d.wake dom
      if d.domState dom = 3 ∧ d.switchOf dom = 2 ∧ d.railsOk dom then d.setSwitch dom 1 else d

/-- The wake time is over: the domain accepts work, and what it could not keep is restored (Table PW-1, R357). -/
def execDomainWakeComplete (dom : Fin 124) (s : State) : Host.Outcome State Fault Refusal :=
  onDev s fun d =>
    let i := dom.val
    match tget d.pwr.wakeFrom i with
    | none => d
    | some st =>
      if st = 3 ∧ ¬ d.railsOk i then d
      else
        let d := { d.domainOn i with pwr := { d.pwr with
          wakeFrom := tdel d.pwr.wakeFrom i, napExit := if st = 2 then tset d.pwr.napExit i d.now else d.pwr.napExit } }
        if 4 ≤ i ∧ i < 8 ∧ st = 2 ∧ d.sw.napping = some (i - 4) then
          let q := i - 4
          (({ d with sw := { d.sw with napping := none } }).wr .bufStatus (28 + q) (28 + q) 1).showCells.admitBlocked
        else d

/-! ### Breakers and retries (R360 to R364, Table PW-9) -/

/-- Whether a breaker of the domain ramps: a wake from Deep, a retry, or a restart after a rail. -/
def Dev.ramping (d : Dev) (i : Nat) : Bool := decide (d.switchOf i = 1)

/-- Whether a segment of the domain is on, so that it can trip. -/
def Dev.segmentsOn (d : Dev) (i : Nat) : Bool := decide (d.switchOf i ≤ 1)

/-- A class B domain has been commanded off: its residual output is checked 50 µs later (R364). -/
def Dev.checkLater (d : Dev) (i : Nat) : Dev :=
  if (i = 2 ∨ i = 3) ∧ ¬ d.pwr.checkDue.contains i then { d with pwr := { d.pwr with checkDue := d.pwr.checkDue ++ [i] } } else d

/-- The AO island loses all power, or is latched off: everything but OTP, flash, what MRAM holds and the expanders resets (R366,
Table SC-7, Table PS-20). -/
def Dev.aoReset (d : Dev) : Dev :=
  let z := Dev.reset
  { z with
    pool := { z.pool with keyGen := d.pool.keyGen, mem := d.pool.mem }
    dir := { z.dir with lostLog := d.dir.lostLog }
    fab := { z.fab with log := d.fab.log }
    mgmt := { z.mgmt with flash := d.mgmt.flash, preferred := d.mgmt.preferred, trial := d.mgmt.trial, bcbSlot := d.mgmt.bcbSlot }
    sec := { z.sec with otp := d.sec.otp, lockRecord := d.sec.lockRecord, sessionNext := d.sec.sessionNext }
    flt := { z.flt with log := d.flt.log, retirement := d.flt.retirement, diesOut := d.flt.diesOut }
    out := d.out
    free := d.free }

/-- The selector changes to the other feed (R366). -/
def Dev.changeFeed (d : Dev) (toB : Bool) : Dev :=
  ((d.wr .aoFeed 31 31 (if toB then 1 else 0)).bumpWrap .aoFeed 15 0 1).report 0x280 (openClass 366) (if toB then 1 else 0)

/-- A trip of the AO feed in use: one changeover; a second trip latches the island off until both feeds have been removed. -/
def Dev.aoTrip (d : Dev) : Dev :=
  let toB := !d.bitOf .aoFeed 31
  let other := d.bitOf .aoFeed (if toB then 29 else 30)
  if d.pwr.feedTripped || !other then
    let d := d.aoReset
    { d with pwr := { d.pwr with feedOut := [5, 6] } }
  else { d.changeFeed toB with pwr := { d.pwr with feedTripped := true } }

/-- A breaker trips (R362, R363): during a ramp it is a short, which latches; after retry 2 it latches; else the domain waits for a
retry. Its contents are lost. -/
def Dev.trip (d : Dev) (i segment cause : Nat) : Dev :=
  if i = 0 then d.aoTrip
  else if !d.segmentsOn i || (decide (segment = 1) && !hasSegment1 i) then d
  else
    let d := { d with pwr := { d.pwr with wakeFrom := tdel d.pwr.wakeFrom i } }
    let ramp := d.ramping i
    let d := ((d.bumpSat (.domStatus i) 15 0 1).wr (.domStatus i) 20 20 segment).report (powerSource i) (openClass 363) (i + 256 * cause)
    let d := d.checkLater i
    if ramp then d.latchDomain i 3
    else if d.rd (.domStatus i) 22 21 = 3 then d.latchDomain i cause
    else (((d.setDomState i 4).setSwitch i 3).wr (.domStatus i) 25 23 cause).domainLost i false

def execBreakerCurveTrip (dom : Fin 124) (segment : Fin 2) (s : State) : Host.Outcome State Fault Refusal :=
  onDev s fun d => d.trip dom segment 1

def execBreakerFastTrip (dom : Fin 124) (segment : Fin 2) (s : State) : Host.Outcome State Fault Refusal :=
  onDev s fun d => d.trip dom segment 2

/-- The backoff is over and the rail is qualified: the retry's ramp starts, reported (R363). -/
def execRetryBackoffExpiry (dom : Fin 124) (s : State) : Host.Outcome State Fault Refusal :=
  onDev s fun d =>
    if d.switchOf dom = 3 ∧ d.railsOk dom then
      (d.setSwitch dom 1).report (powerSource dom) (openClass 363) (dom.val + 256 * 8)
    else d

/-- A ramp completes: a domain that woke from Deep has its switches on; a retry restores the domain and is counted; a domain that lost
its rail returns (R361, R363, R365). -/
def execRampComplete (dom : Fin 124) (s : State) : Host.Outcome State Fault Refusal :=
  onDev s fun d =>
    if !d.ramping dom then d
    else if d.domState dom = 3 then d.setSwitch dom 0
    else if d.rd (.domStatus dom) 25 23 = 6 then d.domainBack dom
    else (d.bumpSat (.domStatus dom) 22 21 1).domainBack dom

/-- The output has not reached 95 % within RAMP plus 20 %: the domain latches with CAUSE 4 (R361). -/
def execRampTimeout (dom : Fin 124) (s : State) : Host.Outcome State Fault Refusal :=
  onDev s fun d =>
    if d.ramping dom then
      (({ d with pwr := { d.pwr with wakeFrom := tdel d.pwr.wakeFrom dom.val } }).report (powerSource dom) (openClass 361)
        (dom.val + 256 * 4)).latchDomain dom 4
    else d

/-- 1 s without a trip: the sequence ends (R363). -/
def execRetrySequenceEnd (dom : Fin 124) (s : State) : Host.Outcome State Fault Refusal :=
  onDev s fun d => if d.switchOf dom = 0 then d.wr (.domStatus dom) 22 21 0 else d

/-- The residual check of a class B domain after a command off (R364). -/
def execClassBResidualCheck (dom : Fin 124) (high : Bool) (s : State) : Host.Outcome State Fault Refusal :=
  onDev s fun d =>
    if d.pwr.checkDue.contains dom.val then
      let d := { d with pwr := { d.pwr with checkDue := d.pwr.checkDue.filter fun x => !decide (x = dom.val) } }
      if high then (d.report (powerSource dom) 3 (dom.val + 256 * 5)).latchDomain dom 5 else d
    else d

/-! ### Rails and feeds (R365, R366) -/

/-- Every quad loses its rails: quads that were on open with CAUSE 6, ports are removed, links declared dead with reason 8. -/
def Dev.serdesLost (d : Dev) : Dev :=
  let d := (List.range 80).foldl (fun (d : Dev) k =>
    let i := domQuad k
    if d.switchOf i ≤ 1 then
      ((({ d with pwr := { d.pwr with wakeFrom := tdel d.pwr.wakeFrom i } }).setDomState i 4).setSwitch i 2).wr (.domStatus i) 25 23 6
    else d) d
  let d := (List.range 64).foldl (fun (d : Dev) p => d.removal p) d
  (List.range 16).foldl (fun (d : Dev) l => d.linkLost l 8) d

/-- VDD_CORE or VDD_SRAM is lost: every domain but AO is off and held in cold reset. -/
def Dev.coreLost (d : Dev) (rail : Nat) : Dev :=
  let d := if d.mgmt.coldHeld then d else d.coldReset
  (List.range 44).foldl (fun (d : Dev) i =>
    if (railsOf i).contains rail ∧ d.switchOf i ≠ 4 then ((d.setDomState i 4).setSwitch i 2).wr (.domStatus i) 25 23 6 else d) d

def execRailOutOfWindow (rail : Fin 7) (mv : BitVec 12) (s : State) : Host.Outcome State Fault Refusal :=
  onDev s fun d =>
    let r := rail.val
    let inWin := d.bitOf (.rail r) 63
    let d := (d.wr (.rail r) 63 62 0).wr (.rail r) 11 0 mv.toNat
    let d := if r = 5 then d.wr .aoFeed 30 30 0 else if r = 6 then d.wr .aoFeed 29 29 0 else d
    let d := { d with pwr := { d.pwr with
      feedOut := d.pwr.feedOut.filter fun x => !decide (x = r)
      feedTripped := d.pwr.feedTripped && !decide (r = 5 ∨ r = 6) } }
    if !inWin then d
    else
      let d := d.report (0x2B0 + r) (openClass 365) mv.toNat
      if r ≤ 1 then d.coreLost r
      else if r ≤ 3 then d.serdesLost
      else if r = 4 then (if d.bitOf .sbsCtl 31 && !d.bitOf .sbsStatus 31 then (d.wr .sbsStatus 31 31 1).report 0x390 2 0 else d)
      else d

/-- The rail has been inside its window for its insertion delay (R360, R365). -/
def execRailQualified (rail : Fin 7) (mv : BitVec 12) (s : State) : Host.Outcome State Fault Refusal :=
  onDev s fun d =>
    let r := rail.val
    let d := (d.wr (.rail r) 63 62 3).wr (.rail r) 11 0 mv.toNat
    let d := if r = 5 then d.wr .aoFeed 30 30 1 else if r = 6 then d.wr .aoFeed 29 29 1 else d
    if d.mgmt.coldHeld then d.releaseCold true true
    else if (r = 2 ∨ r = 3) ∧ d.railsOk 44 then
      (List.range 80).foldl (fun (d : Dev) k =>
        let i := domQuad k
        if d.domState i = 4 ∧ d.switchOf i = 2 ∧ d.rd (.domStatus i) 25 23 = 6 then d.setSwitch i 1 else d) d
    else d

/-- The feed in use has left its window: the selector closes the other feed, if that one is qualified. -/
def execAoFeedChangeover (s : State) : Host.Outcome State Fault Refusal :=
  onDev s fun d =>
    let toB := !d.bitOf .aoFeed 31
    if !d.bitOf .aoFeed (if toB then 30 else 29) && d.bitOf .aoFeed (if toB then 29 else 30) then d.changeFeed toB else d

/-- VDD_AO_A is qualified again: the selector changes back. -/
def execAoFeedReturn (s : State) : Host.Outcome State Fault Refusal :=
  onDev s fun d => if d.bitOf .aoFeed 31 && d.bitOf .aoFeed 30 && !d.pwr.feedTripped then d.changeFeed false else d

/-- VDD_AO_HOLD falls below 0.70 V: reported during a gap; with neither feed qualified the AO domain resets. -/
def execVddAoHoldLow (s : State) : Host.Outcome State Fault Refusal :=
  onDev s fun d => if !d.bitOf .aoFeed 30 && !d.bitOf .aoFeed 29 then d.aoReset else d.wr .aoFeed 28 28 1

/-! ### AO-ONLY (R367) -/

/-- Every port is OFF, the links dead, the key vault and the lifecycle block off, every other domain but AO in Deep. Registers held in
the AO island keep their values. -/
def Dev.enterAoOnly (d : Dev) (mask timer : Nat) : Dev :=
  let d := (List.range 16).foldl (fun (d : Dev) l => linkDown l d) d
  let kept := d.regs.filter fun e => decide (e.1.layout.held = .ao ∧ e.1.layout.domain = .cold)
  let ports := d.port
  let d := d.lastScan.enterCold
  let d := kept.foldl (fun (d : Dev) e => d.setReg e.1 e.2) d
  let d := ((d.checkLater 2).checkLater 3).wr .sleepCtl 30 30 1
  let d := (d.wr .secStatus 29 28 0).wr .secStatus 24 24 0
  let d := (List.range 64).foldl (fun (d : Dev) p => d.wr (.hpStatus p) 26 26 0) d
  let d := { d with
    port := ports
    mgmt := { d.mgmt with coldHeld := false }
    pwr := { d.pwr with wakeMask := mask, timerS := timer } }
  d.showFaults

/-- A wake source ends AO-ONLY where WAKE enables it: the device boots from step 2 of Table MG-18. -/
def Dev.leaveAoOnly (d : Dev) (source : Nat) : Dev :=
  if d.aoOnly && bit d.pwr.wakeMask source then
    let d := (d.wr .sleepCtl 30 30 0).wr .sleepCtl 29 28 (source + 1)
    ({ d with pwr := { d.pwr with wakeMask := 0, timerS := 0 } }).boot true true
  else d

def execAoOnlyWake (source : Fin 3) (s : State) : Host.Outcome State Fault Refusal := onDev s fun d => d.leaveAoOnly source

def execAoOnlyTimerExpiry (s : State) : Host.Outcome State Fault Refusal :=
  onDev s fun d => if d.pwr.timerS = 0 then d else d.leaveAoOnly 2

/-- A write of 1 to PWR.SLEEP_CTL.WAKE. -/
def execSleepCtlWake (s : State) : Host.Outcome State Fault Refusal := onDev s fun d => d.leaveAoOnly 1

/-! ### Clocks (R368 to R370) -/

def execAoclkLoss (s : State) : Host.Outcome State Fault Refusal :=
  onDev s fun d => ((d.wr .clkStatus 31 31 0).wr .clkStatus 30 30 1).report 0x2B7 (openClass 369) 0

def execAoclkReturn (s : State) : Host.Outcome State Fault Refusal :=
  onDev s fun d => (d.wr .clkStatus 31 31 1).wr .clkStatus 30 30 0

/-- REFCLK of a port die is absent: its ports recognise removal, its links are declared dead with reason 5. -/
def execRefclkLoss (die : Fin 4) (s : State) : Host.Outcome State Fault Refusal :=
  onDev s fun d =>
    let p := die.val
    let d := (d.wr .clkStatus (26 + p) (26 + p) 0).report (0x2B8 + p) (openClass 370) 0
    let d := (List.range 16).foldl (fun (d : Dev) k => d.removal (16 * p + k)) d
    (List.range 4).foldl (fun (d : Dev) k => d.linkLost (4 * p + k) 5) d

def execRefclkReturn (die : Fin 4) (s : State) : Host.Outcome State Fault Refusal :=
  onDev s fun d => d.wr .clkStatus (26 + die.val) (26 + die.val) 1

/-! ### Adaptive voltage (R371) -/

/-- The VDD_CORE target and the window that follows it (Table PW-4). -/
def Dev.setTarget (d : Dev) (mv : Nat) : Dev :=
  let d := (d.wr .avs 11 0 mv).coreWindow mv mv
  { d with pwr := { d.pwr with avsHold := 0 } }

/-- A step from the old target to a new one: for 100 µs, which are 2,500 cycles of the AO clock (R368), the window spans both (R371). -/
def Dev.stepTarget (d : Dev) (old new : Nat) : Dev :=
  let d := (d.wr .avs 11 0 new).coreWindow (min old new) (max old new)
  { d with pwr := { d.pwr with avsHold := 2500 } }

/-- One step of the target, of at most 5 mV and at most once every 100 µs: written as VOUT_COMMAND, and repeated up to three times where
it is not acknowledged. -/
def execAvsStep (target : BitVec 12) (acked : Bool) (s : State) : Host.Outcome State Fault Refusal :=
  onDev s fun d =>
    let old := d.rd .avs 11 0
    let new := target.toNat
    if !d.bitOf .avs 31 || d.mgmt.coldHeld || decide (d.pwr.avsHold ≠ 0) || !decide (680 ≤ new ∧ new ≤ 820 ∧ new ≤ old + 5 ∧ old ≤ new + 5) then d
    else
      let cmd := Out.pmbus (d.rd .avs 29 23) new
      if acked then (d.emit cmd).stepTarget old new
      else ((d.emits [cmd, cmd, cmd, cmd]).wr .avs 30 30 1).report 0x2BD 1 new

/-! ### POWER_POLICY_SET (R372, R373) -/

/-- A DOMAINS entry: its domain index and its DOM_CFG image. -/
def policyEntries (input : List Byte) : List (Nat × Word) :=
  (List.range (field input 1 1)).map fun k => (field input (8 + 8 * k) 2, BitVec.ofNat 64 (field input (12 + 8 * k) 4))

/-- A DOM_CFG image in range for its domain; Deep for KEYV is a conflict of state and not an invalid input (R359, R373). -/
def policyEntryOk (e : Nat × Word) : Bool :=
  decide (e.1 < 124 ∧ e.1 ≠ 3) && domCfgOk e.1 (if e.1 = 2 ∧ getBits e.2 31 30 = 3 then setBits e.2 31 30 2 else e.2)

def domainsForm (input : List Byte) : Bool :=
  let n := field input 1 1
  decide (1 ≤ n ∧ n ≤ 124 ∧ input.length = 8 + 8 * n ∧ field input 2 6 = 0) &&
    ((List.range n).all fun k => decide (field input (10 + 8 * k) 2 = 0)) && (policyEntries input).all policyEntryOk

def execPowerPolicySetDomains (path : Path) (input : List Byte) (s : State) : Host.Outcome State Fault Refusal :=
  onDev s fun d => d.stoluo path 0xC070 false (domainsForm input) fun d =>
    if (policyEntries input).any fun e => decide (e.1 = 2 ∧ getBits e.2 31 30 = 3) then d.finish path 0xC070 rcConflict
    else ((policyEntries input).foldl (fun (d : Dev) e => d.setReg (.domCfg e.1) e.2) d).finish path 0xC070 rcSuccess

/-- The eight points of a CURVE action. -/
def policyPoints (input : List Byte) : List Word := (List.range 8).map fun k => BitVec.ofNat 64 (field input (8 + 4 * k) 4)

def curveForm (input : List Byte) : Bool :=
  decide (field input 1 1 < 8 ∧ input.length = 40 ∧ field input 2 6 = 0) && curveOk (policyPoints input)

def execPowerPolicySetCurve (path : Path) (input : List Byte) (s : State) : Host.Outcome State Fault Refusal :=
  onDev s fun d => d.stoluo path 0xC070 false (curveForm input) fun d =>
    let c := field input 1 1
    let d := (policyPoints input).zipIdx.foldl (fun (d : Dev) x => d.setReg (.curve c x.2) x.1) d
    d.finish path 0xC070 rcSuccess

def aoOnlyForm (input : List Byte) : Bool :=
  let mask := field input 1 1
  let timer := field input 4 4
  decide (input.length = 8 ∧ 1 ≤ mask ∧ mask < 8 ∧ field input 2 2 = 0) &&
    (if bit mask 2 then decide (1 ≤ timer ∧ timer ≤ 86400) else decide (timer = 0))

/-- Whether any block is OFFERED, BOUND or FENCING. -/
def Dev.anyBound (d : Dev) : Bool :=
  (d.pool.blocks.a ++ d.pool.blocks.b).any fun x => decide (1 ≤ x.2.state.toNat ∧ x.2.state.toNat ≤ 3)

/-- AO-ONLY is accepted where no block is OFFERED, BOUND or FENCING; the command completes, then the device enters it. -/
def execPowerPolicySetAoOnly (path : Path) (input : List Byte) (s : State) : Host.Outcome State Fault Refusal :=
  onDev s fun d => d.stoluo path 0xC070 false (aoOnlyForm input) fun d =>
    if d.anyBound then d.finish path 0xC070 rcConflict
    else (d.finish path 0xC070 rcSuccess).enterAoOnly (field input 1 1) (field input 4 4)

def avsForm (input : List Byte) : Bool :=
  decide (input.length = 8 ∧ field input 1 1 ≤ 1 ∧ field input 2 1 < 128 ∧ field input 3 5 = 0)

def execPowerPolicySetAvs (path : Path) (input : List Byte) (s : State) : Host.Outcome State Fault Refusal :=
  onDev s fun d => d.stoluo path 0xC070 false (avsForm input) fun d =>
    let en := field input 1 1
    let d := (d.wr .avs 31 31 en).wr .avs 29 23 (field input 2 1)
    (if en = 0 then d.setTarget 750 else d).finish path 0xC070 rcSuccess

end Sys2Proof.Machine
end

