-- ==== Sys2Proof/Machine/PortCmds.lean ====
section
/-! DEFINITION. The rest of the CXL ports: completion timeouts of an expander, orderly removal, low power, width and rate (R125, R126,
R200, R219, R220, R356). -/

namespace Sys2Proof.Machine

/-- A CXL.mem request to an expander has not been answered: it completes to its home as failed; the eighth in a row takes the link
down, and the removal is recognised (R214, R219, Table SW-6). -/
def execCxlMemCompletionTimeout (op : Nat) (s : State) : Host.Outcome State Fault Refusal :=
  onDev s fun d =>
    match d.sentOp op with
    | none => d
    | some o =>
      let p := o.port
      let n := (d.prec p).timeouts + 1
      let d := (d.count (p / 4) (0x6000 + p % 4) 1).report (portTxnSource p) (openClass 219) o.addr
      let d := d.modPort p fun r => { r with timeouts := n }
      let d := if o.what.isNone then d.readEnds o .error else (d.writeFails o).settle (granuleOf o.line.toNat)
      if 8 ≤ n then (d.modPort p fun r => { r with timeouts := 0 }).removal p else d

/-! ### Orderly removal (R220, R297) -/

/-- How PORT_REMOVE is taken for a port of a set: refused with a code and VENDOR_STATUS, or accepted, at once with SUCCESS where
no set holds the port. -/
inductive RemovalPlan
  | refused (rc vendor : Nat)
  | atOnce
  | leave (set way copy : Nat)
  | evacuate
  deriving DecidableEq, Repr

/-- The case of R220 that a POOL port is in. -/
def Dev.removalPlan (d : Dev) (p : Nat) : RemovalPlan :=
  match d.setOfPort p with
  | none => .atOnce
  | some (i, w, c) =>
    match d.setDesc? i with
    | none => .atOnce
    | some s =>
      if !s.inService || d.setPoisoned s then .leave i w c
      else if s.mirrored then
        if !s.ok w c || s.ok w (1 - c) then .leave i w c
        else .refused rcConflict (if s.resync w (1 - c) then 2 else 1)
      else
        let st (b : Nat) : Nat := (d.blockEntry b).state.toNat
        if s.blocks.any fun b => (decide (st b = 2) && !d.mayMigrate b) || decide (st b = 4) then .refused rcConflict 3
        else
          let bound := (s.blocks.filter fun b => decide (st b = 2)).length
          let others := d.setNumbers.filter fun j => !decide (j = i)
          if (others.map fun j => (d.freeBlocks j).length).sum < bound then .refused rcNoResource 0 else .evacuate

/-- The port enters DRAIN with its removal waiting for the end. -/
def Dev.drain (d : Dev) (p : Nat) (path : Option Path) : Dev :=
  (d.modPort p fun r => { r with removal := path }).enterPort p 6 0

/-- PORT_REMOVE. -/
def execPortRemove (path : Path) (input : List Byte) (s : State) : Host.Outcome State Fault Refusal :=
  onDev s fun d =>
    d.stoluo path 0xC030 false (decide (input.length = 4 ∧ field input 0 1 < 64 ∧ field input 1 3 = 0)) fun d =>
      let p := field input 0 1
      if (d.prec p).removal.isSome || (d.prec p).resetBy.isSome then d.finish path 0xC030 rcBusy
      else if d.portMode p ≠ 2 ∨ d.portState p ≠ 5 then d.finish path 0xC030 rcConflict
      else
        match d.removalPlan p with
        | .refused rc vendor => d.complete path 0xC030 rc vendor []
        | .atOnce => (d.drain p none).finish path 0xC030 rcSuccess
        | .leave i w c => d.background path 0xC030 fun d =>
            (d.modSet i fun s => s.withCopy w c false false).drain p (some path)
        | .evacuate => d.background path 0xC030 fun d => (d.drain p (some path)).evacuate p

/-! ### Low power, width and rate -/

/-- The power domains of a port's quads. -/
def Dev.portDomains (d : Dev) (p : Nat) : List Nat :=
  (List.range (widthQuads (d.rd (.prtCfg p) 27 26))).map fun k => domQuad (5 * ((p + k) / 4) + (p + k) % 4)

/-- A quad of a port in L1 enters the deeper of Doze and Nap that FLOOR permits, but not Nap within 32 ms of the last (R355, R356). -/
def Dev.quadSleeps (d : Dev) (i : Nat) : Dev :=
  let rested := match tget d.pwr.napExit i with
    | some t => decide (t + 32000000 ≤ d.now)
    | none => true
  if d.maySleep i 2 && rested then d.setDomState i 2 else if d.maySleep i 1 then d.setDomState i 1 else d

/-- A port enters ASPM L1 (R200, R356). -/
def execAspmL1Entry (p : Fin 64) (s : State) : Host.Outcome State Fault Refusal :=
  onDev s fun d =>
    if (d.portState p = 4 ∨ d.portState p = 5 ∨ d.portState p = 6) ∧ d.rd (.prtStatus p) 10 8 = 0 then
      (d.portDomains p).foldl (fun (d : Dev) i => d.quadSleeps i) (d.wr (.prtStatus p) 10 8 1)
    else d

/-- A port leaves L1 and wakes its quads (R356). -/
def execAspmL1Exit (p : Fin 64) (s : State) : Host.Outcome State Fault Refusal :=
  onDev s fun d =>
    if d.rd (.prtStatus p) 10 8 = 1 then
      (d.portDomains p).foldl (fun (d : Dev) i => d.wake i) (d.wr (.prtStatus p) 10 8 0)
    else d

/-- A port changes its width under L0p, in flit mode at the rate it has, to any width that the trained one allows, or trains to another
rate and width that its flit mode takes; the guard band follows (R125, R126, R200). LANES stays the trained width under L0p (DEDUCED, log
entry 72). -/
def execPortWidthOrRateChange (p : Fin 64) (rate lanes : Nat) (l0p : Bool) (s : State) : Host.Outcome State Fault Refusal :=
  onDev s fun d =>
    let up := decide (d.portState p = 4 ∨ d.portState p = 5 ∨ d.portState p = 6)
    let flit := d.bitOf (.prtStatus p) 15
    let trained := d.rd (.prtStatus p) 20 16
    if !up || !d.trains p rate lanes flit || !d.flitsOk p rate flit then d
    else if l0p then
      if flit ∧ rate = d.rd (.prtStatus p) 23 21 ∧ lanes ≤ trained then
        ((d.wr (.prtStatus p) 11 11 (if lanes < trained then 1 else 0)).modPort p fun r => { r with l0p := lanes }).gateWarn p
      else d
    else (((d.wr (.prtStatus p) 23 21 rate).wr (.prtStatus p) 20 16 lanes).wr (.prtStatus p) 11 11 0).gateWarn p

end Sys2Proof.Machine
end

