-- ==== Sys2Proof/Machine/RegAccess.lean ====
section
/-! DEFINITION. Register accesses: which register an address names, the checks of the register-space ACU and of the holding power
domain, what a read returns and what a write does (R5 to R8, R318, R322, R410, R416 to R424). -/

namespace Sys2Proof.Machine

/-! ### Requesters and addresses -/

/-- The requester that the register-space ACU checks; the Service Function and the Pool Device are not checked (R318). -/
def regRequester : RegRequester → Option Requester
  | .mgmt p => some ⟨0, p.val⟩
  | .firmware => some ⟨4, 0⟩
  | .debug => some ⟨5, 0⟩
  | .oob => some ⟨6, 0⟩
  | .service _ | .poolDev _ => none

/-- REQ_KIND of a requester as Out.access names it; a host's accesses to its other functions are the host's. -/
def regKind (who : RegRequester) : Nat := ((regRequester who).map (·.kind)).getD 0

/-- Whether a requester reaches registers by CXL.io. -/
def byCxlIo : RegRequester → Bool
  | .mgmt _ | .service _ | .poolDev _ => true
  | _ => false

/-- Bytes of the space a requester addresses (R416, Table RI-10, Table RI-13). -/
def spaceSize : RegRequester → Nat
  | .service _ => 0x2000000
  | .poolDev _ => 0x20000
  | _ => 0x4000000

/-- The lowest-numbered fabric-manager port, whose MSI-X table the bridge and REG_READ see (R421). -/
def Dev.firstFm (d : Dev) : Nat := d.fmPorts.head?.getD 0

/-- The channel behind local channel c of the slice with local index i of a host (R423). -/
def Dev.channelOf (d : Dev) (h i c : Nat) : Option Nat :=
  match d.sliceAt h i with
  | some s => (s.quota.channels[c]?).join
  | none => none

/-- Whether a slice page register has an owner: a group that the quota does not cover, and a page without a slice, read as 0 and
ignore writes (R136, R7). -/
def Dev.pageCovers (d : Dev) : Reg → Bool
  | .ring h i r _ => match d.sliceAt h i with
    | some s => decide (r < s.quota.rings.length)
    | none => false
  | .dirtyCtl h i | .dirtyStatus h i | .dirtyWin h i | .dirtyBuf h i _ => (d.sliceAt h i).isSome
  | _ => true

/-- The register that an offset names for a requester. -/
def Dev.regAt (d : Dev) (who : RegRequester) (a : Nat) : Option Reg :=
  let r := match who with
    | .mgmt p => mgmtRegAt p.val a
    | .service p => sfnRegAt (d.channelOf p.val) p.val a
    | .poolDev p => pdRegAt p.val a
    | _ => mgmtRegAt d.firstFm a
  match r with
  | some x => if x.present && d.pageCovers x then some x else none
  | none => none

/-! ### Checks -/

/-- How a register access ends: served, unsupported in form, refused by the ACU, or in a domain that is off. -/
inductive RegStatus
  | ok | unsupported | denied | off
  deriving DecidableEq, Repr

/-- The power domain behind a "Held in" entry; the hub's register logic does not sleep. -/
def heldDomain : Held → Option Nat
  | .ao | .hub => none
  | .mgt => some domMgt
  | .keyv => some domKeyv
  | .tmb t => some (domTmb t)
  | .pdie p => some (domPdie p)

/-- An access to a register whose domain sleeps wakes the domain, and in a domain that is off it fails; in AO-ONLY every
register but those of the AO island is off, and so it is while cold reset is in force (R418, R419, R433). -/
def Dev.reachHeld (d : Dev) (h : Held) : Bool × Dev :=
  if (d.aoOnly || d.mgmt.coldHeld) ∧ h ≠ .ao then (false, d)
  else
    let st := d.heldState h
    if st = 4 then (false, d)
    else if st = 0 then (true, d)
    else match heldDomain h with
      | some i => (true, d.wake i)
      | none => (true, d)

/-- The registers that an access of a width meets: one of 64 bits, or each half's own (R6). -/
def Dev.regsMet (d : Dev) (who : RegRequester) (a width : Nat) : List Reg :=
  let half (x : Nat) : List Reg :=
    match d.regAt who x with
    | some r => [r]
    | none =>
      if x % 8 = 4 then (((d.regAt who (x - 4)).toList).filter fun r => decide (r.layout.width = 64)) else []
  if width = 8 then (half a ++ half (a + 4)).dedup else half a

/-- Whether the function whose BAR a CXL.io requester addresses exists: functions 0 and 1 on HOST ports, function 2 on designated
fabric-manager ports (R284, R205). -/
def Dev.hasFunction (d : Dev) : RegRequester → Bool
  | .mgmt p => d.fmPorts.contains p.val
  | .service p | .poolDev p => decide (d.portMode p.val = 1)
  | _ => true

/-- The checks of an access by the requester that the ACU sees: form, ACU, power (R6, R318, R322, R418). -/
def Dev.regCheckAs (d : Dev) (who : RegRequester) (q : Option Requester) (a width : Nat) (write : Bool) : RegStatus × Dev :=
  if !d.hasFunction who || !decide ((width = 4 ∨ width = 8) ∧ a % width = 0 ∧ a + width ≤ spaceSize who) then (.unsupported, d)
  else
    match q.bind fun x => (d.acuDecide false a x ⟨!write, write⟩).map fun region => (x, region) with
    | some (x, region) => (.denied, d.acuViolation 16 a write x region)
    | none =>
      let held := ((d.regsMet who a width).map fun r => r.layout.held).dedup
      held.foldl (fun (s : RegStatus × Dev) h =>
        if s.1 = .ok then (let (up, d) := s.2.reachHeld h; (if up then RegStatus.ok else RegStatus.off, d)) else s) (.ok, d)

def Dev.regCheck (d : Dev) (who : RegRequester) (a width : Nat) (write : Bool) : RegStatus × Dev :=
  d.regCheckAs who (regRequester who) a width write

/-! ### Reading -/

/-- The latch that a 32-bit read of a register's low half sets: that of the PMU, or GLB.FTIME's own (R410, R420). -/
inductive HalfLatch
  | pmu (u : Nat)
  | ftime
  deriving DecidableEq, Repr

def latchOf : Reg → Option HalfLatch
  | .pmcCycles u | .pmcCnt u _ => some (.pmu u)
  | .ftime => some .ftime
  | _ => none

def Dev.setLatch (d : Dev) (l : HalfLatch) (v : Option (BitVec 32)) : Dev :=
  match l, v with
  | .pmu u, some x => { d with tel := { d.tel with latch := tset d.tel.latch u x } }
  | .pmu u, none => { d with tel := { d.tel with latch := tdel d.tel.latch u } }
  | .ftime, v => { d with tel := { d.tel with ftimeHigh := v } }

def Dev.latched (d : Dev) : HalfLatch → Option (BitVec 32)
  | .pmu u => tget d.tel.latch u
  | .ftime => d.tel.ftimeHigh

/-- A 32-bit read of the low half of a 64-bit register. -/
def Dev.readLow (d : Dev) (r : Reg) : Nat × Dev :=
  let v := (d.reg r).toNat
  match latchOf r with
  | some l => (v % 2 ^ 32, d.setLatch l (some (BitVec.ofNat 32 (v / 2 ^ 32))))
  | none => (v % 2 ^ 32, d)

/-- A 32-bit read of the high half: the latched value once, else the register's. -/
def Dev.readHigh (d : Dev) (r : Reg) : Nat × Dev :=
  match latchOf r with
  | some l => match d.latched l with
    | some x => (x.toNat, d.setLatch l none)
    | none => ((d.reg r).toNat / 2 ^ 32, d)
  | none => ((d.reg r).toNat / 2 ^ 32, d)

/-- One 32-bit read; an offset that no register occupies reads 0 (R7). -/
def Dev.read32 (d : Dev) (who : RegRequester) (a : Nat) : Nat × Dev :=
  match d.regAt who a with
  | some r => if r.layout.width = 64 then d.readLow r else ((d.reg r).toNat % 2 ^ 32, d)
  | none =>
    match (if a % 8 = 4 then d.regAt who (a - 4) else none) with
    | some r => if r.layout.width = 64 then d.readHigh r else (0, d)
    | none => (0, d)

/-- A register read that has passed its checks (R6). -/
def Dev.regRead (d : Dev) (who : RegRequester) (a width : Nat) : Word × Dev :=
  let one : Option Reg := if width = 8 then (d.regAt who a).filter fun r => decide (r.layout.width = 64) else none
  match one with
  | some r => (d.reg r, d)
  | none =>
    let (lo, d) := d.read32 who a
    if width = 8 then (let (hi, d) := d.read32 who (a + 4); (BitVec.ofNat 64 (lo + 2 ^ 32 * hi), d)) else (BitVec.ofNat 64 lo, d)

/-! ### Writing -/

/-- The low or the high 32 bits of a 64-bit register. -/
def lowLanes : Word := 0xFFFFFFFF
def highLanes : Word := 0xFFFFFFFF00000000
def allLanes : Word := 0xFFFFFFFFFFFFFFFF

/-- A write that only the access codes of the fields govern. -/
def Dev.softWrite (d : Dev) (r : Reg) (unlocked : Bool) (v lanes : Word) : Dev :=
  d.setReg r (r.softWrite unlocked (d.reg r) v lanes)

/-- A field that keeps its value where the one written lies outside its range (R261, Table CP-14). -/
def Dev.rangedField (d : Dev) (r : Reg) (hi lo low high : Nat) (v : Word) : Dev :=
  let n := getBits v hi lo
  if low ≤ n ∧ n ≤ high then d.wr r hi lo n else d

/-- PRT.GCL_CTL and STL.GCL_CTL (Table SW-15): EN puts the list in force, SWAP requests a swap. -/
def gclCtlWrite (e : Egress) (v : Word) (d : Dev) : Dev :=
  let was := d.bitOf (gclCtl e) 31
  let d := d.softWrite (gclCtl e) true v lowLanes
  let d := if !was && d.bitOf (gclCtl e) 31 then gclEnable e d else d
  if getBits v 27 27 = 1 then gclSwap e d else d

/-- STL.LINK_CTL (Table ST-15): DOWN acts alone beside RETRAIN. -/
def linkCtlWrite (s : Nat) (v : Word) (d : Dev) : Dev :=
  let r := Reg.linkCtl s
  let d := d.wr r 29 24 (getBits v 29 24)
  let d := ((d.rangedField r 20 12 5 500 v).rangedField r 11 4 1 255 v).rangedField r 3 0 1 15 v
  if getBits v 30 30 = 1 then linkDown s d else if getBits v 31 31 = 1 then linkRetrain s d else d

/-- PRT.HP_CTL (Table CP-14). -/
def hpCtlWrite (p : Nat) (v : Word) (d : Dev) : Dev :=
  let r := Reg.hpCtl p
  let d := (d.rangedField r 23 14 10 1000 v).rangedField r 13 0 100 10000 v
  let d := if getBits v 31 31 = 1 then hpQclr p d else d
  let d := if getBits v 30 30 = 1 then hpFclr p d else d
  if getBits v 29 29 = 1 then hpRetry p d else d

/-- PRT.CPL_TO and GLB.TOLL_CTL: ignored as a whole where either field is out of range (Table CP-16, Table MF-9). -/
def Dev.wholeWrite (d : Dev) (r : Reg) (hi1 lo1 low1 high1 hi2 lo2 low2 high2 : Nat) (v : Word) : Dev :=
  let a := getBits v hi1 lo1
  let b := getBits v hi2 lo2
  if low1 ≤ a ∧ a ≤ high1 ∧ low2 ≤ b ∧ b ≤ high2 then (d.wr r hi1 lo1 a).wr r hi2 lo2 b else d

/-- DMV.CMD (Table DM-11): ABORT acts alone; else ACK, DISARM and ARM in that order. -/
def dmvCmdWrite (c : Fin 64) (v : Word) (d : Dev) : Dev :=
  if getBits v 2 2 = 1 then d.dmvAbort c
  else
    let d := if getBits v 3 3 = 1 then d.dmvAck c else d
    let d := if getBits v 1 1 = 1 then d.dmvDisarm c else d
    if getBits v 0 0 = 1 then d.dmvArm c else d

/-- A register of a data-mover channel; the shadow is locked while ARMED is 1 (Table DM-9, Table DM-10). -/
def dmvRegWrite (c : Nat) (r : DmvReg) (v lanes : Word) (d : Dev) : Dev :=
  match r with
  | .cmd => if h : c < 64 then dmvCmdWrite ⟨c, h⟩ v d else d
  | _ => d.softWrite (.dmv c r) (!d.bitOf (.dmv c .status) 28) v lanes

/-- A register of a ring: SQ_PI and CQ_CI are ignored in DISABLED, RING_CTX is locked in every other state, and DISABLE acts alone
beside ENABLE (Table MS-4, Table MS-6, Table MS-8). An ENABLE whose context cannot be read yet leaves the ring as it was (log entry 35). -/
def ringWrite (h i n : Nat) (r : RingReg) (v lanes : Word) (d : Dev) : Dev :=
  match d.sliceAt h i with
  | none => d
  | some s =>
    match r with
    | .sqPi => if d.ringState s n = 0 then d else d.softWrite (.ring h i n .sqPi) true v lanes
    | .cqCi => d.cqCiWrite s n (getBits v 31 0)
    | .ctl => if getBits v 30 30 = 1 then d.ringDisable s n else if getBits v 31 31 = 1 then (d.attempt fun d => d.ringEnable s n).2 else d
    | .ctx => d.softWrite (.ring h i n .ctx) (decide (d.ringState s n = 0)) v lanes
    | _ => d

/-- An MSI-X table entry: unmasking a vector whose Pending bit is set sends its message (PCIe's rule, log entry 52). -/
def msixWrite (f n : Nat) (v lanes : Word) (d : Dev) : Dev :=
  let d := d.softWrite (.msixData f n) true v lanes
  if d.bitOf (.msixPba f (n / 64)) (n % 64) ∧ ¬ d.bitOf (.msixData f n) 32 then
    (d.wr (.msixPba f (n / 64)) (n % 64) (n % 64) 0).emit (.msix f n)
  else d

/-- PMC.EVSEL(i): BAD shows whether the PMU serves the event (R407, Table TM-5). -/
def evselWrite (u i : Nat) (v lanes : Word) (d : Dev) : Dev :=
  let d := d.softWrite (.pmcEvsel u i) true v lanes
  d.wr (.pmcStatus u) (24 + i) (24 + i) (if pmuServes u (d.rd (.pmcEvsel u i) 15 0) then 0 else 1)

/-- GLB_CTL.SNAP requests a snapshot, where none is pending (R411). -/
def Dev.snapRequest (d : Dev) : Dev := d.wr .pmcGlbCtl 29 29 1

/-- TLS.CTL.SWAP sets PENDING (R415). -/
def Dev.tlsSwapRequest (d : Dev) : Dev := d.wr .tlsCtl 29 29 1

/-- A doorbell: the device reads opcode, length and input once, and completes at once a length above 4,096 (R285) and a Stoluo
opcode that Table MG-6 does not list (R288). -/
def Dev.doorbell (d : Dev) (m : Nat) : Dev :=
  let op := d.rd (.mbxCmd m) 15 0
  let len := d.rd (.mbxCmd m) 36 16
  let d := (d.wr (.mbxCtl m) 0 0 1).wake domMgt
  let path : Path := if h : m < 64 then .pool ⟨m, h⟩ else .fm
  let d := { d with mgmt := { d.mgmt with submitted := tset d.mgmt.submitted m ⟨op, d.payload m (min len 4096)⟩ } }
  if 4096 < len then (if d.serves path op then d.finish path op rcInvalid else d)
  else if 0xC000 ≤ op ∧ op ≤ 0xCFFF ∧ cmdClass op = none then d.stoluo path op false true fun d => d
  else d

/-- MBX.CTL: while DOORBELL reads 1 a write of it is ignored; a write of 0 has no effect (Table MG-3, R285). -/
def mbxCtlWrite (m : Nat) (v : Word) (d : Dev) : Dev :=
  let busy := d.bitOf (.mbxCtl m) 0
  let d := (d.wr (.mbxCtl m) 2 2 (getBits v 2 2)).wr (.mbxCtl m) 1 1 (getBits v 1 1)
  if !busy && decide (getBits v 0 0 = 1) then d.doorbell m else d

/-- A write of v to a register in the bit lanes of the access, with everything its chapter says the write does. -/
def Dev.writeReg (d : Dev) (r : Reg) (v lanes : Word) : Dev :=
  match r with
  | .ageLimit => ageLimitWrite (getBits v 16 0) d
  | .dirBiTimeout t => dirBiTimeoutWrite t (getBits v 19 0) d
  | .mirCtl s => mirCtlWrite s (getBits v 31 0) d
  | .tollCtl => d.wholeWrite r 23 16 2 64 15 0 10 1000 v
  | .cplTo _ => d.wholeWrite r 31 16 1 1000 15 0 10 50000 v
  | .prtGclCtl p => if h : p < 64 then gclCtlWrite (.port ⟨p, h⟩) v d else d
  | .stlGclCtl s => if h : s < 16 then gclCtlWrite (.link ⟨s, h⟩) v d else d
  | .hpCtl p => hpCtlWrite p v d
  | .linkCtl s => linkCtlWrite s v d
  | .trainCtl _ => (d.wr r 31 16 (getBits v 31 16)).rangedField r 15 0 100 10000 v
  | .widthCtl s => widthTarget s (getBits v 3 0) d
  | .sleepCtl => if getBits v 31 31 = 1 then d.leaveAoOnly 1 else d
  | .sbsCtl => if getBits v 30 30 = 1 then sbsResume d else d
  | .violInfo n => if getBits v 31 31 = 1 then d.clearViolation n else d
  | .pmcEvsel u i => evselWrite u i v lanes d
  | .pmcGlbCtl =>
    let d := d.wr r 31 31 (getBits v 31 31)
    if getBits v 30 30 = 1 then d.snapRequest else d
  | .tlsCtl =>
    let d := (d.wr r 31 31 (getBits v 31 31)).wr r 15 0 (getBits v 15 0)
    if getBits v 30 30 = 1 then d.tlsSwapRequest else d
  | .mbxCtl m => mbxCtlWrite m v d
  | .mbxCmd m => if d.bitOf (.mbxCtl m) 0 then d else d.softWrite r true v lanes
  | .mbxPayload m _ => if d.bitOf (.mbxCtl m) 0 then d else d.softWrite r true v lanes
  | .msixData f n => msixWrite f n v lanes d
  | .dmv c x => dmvRegWrite c x v lanes d
  | .dirtyCtl h i => match d.sliceAt h i with
    | some s => d.dirtyCtlWrite s v
    | none => d
  | .dirtyWin h i => d.softWrite r (!d.bitOf (.dirtyCtl h i) 31) v lanes
  | .dirtyBuf h i b =>
    d.softWrite r (!(d.bitOf (.dirtyCtl h i) 31 && decide (d.rd (.dirtyStatus h i) 31 31 = b))) v lanes
  | .ring h i n x => ringWrite h i n x v lanes d
  | _ => d.softWrite r true v lanes

/-- One 32-bit write; one to an offset that no register occupies has no effect (R7). -/
def Dev.write32 (d : Dev) (who : RegRequester) (a v : Nat) : Dev :=
  let low := BitVec.ofNat 64 (v % 2 ^ 32)
  match d.regAt who a with
  | some r => d.writeReg r low lowLanes
  | none =>
    match (if a % 8 = 4 then d.regAt who (a - 4) else none) with
    | some r => if r.layout.width = 64 then d.writeReg r (BitVec.ofNat 64 (v % 2 ^ 32 * 2 ^ 32)) highLanes else d
    | none => d

/-- A register write that has passed its checks (R6). -/
def Dev.regWrite (d : Dev) (who : RegRequester) (a width : Nat) (v : Word) : Dev :=
  let one : Option Reg := if width = 8 then (d.regAt who a).filter fun r => decide (r.layout.width = 64) else none
  match one with
  | some r => d.writeReg r v allLanes
  | none =>
    let d := d.write32 who a (v.toNat % 2 ^ 32)
    if width = 8 then d.write32 who (a + 4) (v.toNat / 2 ^ 32) else d

/-! ### Completions -/

/-- How a requester other than the bridge and REG_READ sees the end of an access: 0 served, 1 Unsupported Request, 2 access error,
Completer Abort on CXL.io. A CXL.io write is posted: one that is served, refused or dropped shows nothing (Table PS-3, R418). R6 says how a
narrower or misaligned access ends on CXL.io only; one of firmware or of the debug requester ends as an access error, code 2 (DESIGN
CHOICE, log entry 67). -/
def Dev.accessEnds (d : Dev) (who : RegRequester) (write : Bool) (st : RegStatus) (value : Word) : Dev :=
  let k := regKind who
  match st with
  | .ok => if write ∧ byCxlIo who then d else d.emit (.access k 0 value)
  | .unsupported => d.emit (.access k (if byCxlIo who then 1 else 2) 0)
  | _ => if write ∧ byCxlIo who then d else d.emit (.access k 2 0)

/-- A checked register write. -/
def Dev.accessWrite (d : Dev) (who : RegRequester) (a width : Nat) (v : Word) : Dev :=
  match d.regCheck who a width true with
  | (.ok, d) => (d.regWrite who a width v).accessEnds who true .ok 0
  | (st, d) => d.accessEnds who true st 0

/-- A checked register read. -/
def Dev.accessRead (d : Dev) (who : RegRequester) (a width : Nat) : Dev :=
  match d.regCheck who a width false with
  | (.ok, d) => (let (v, d) := d.regRead who a width; d.accessEnds who false .ok v)
  | (st, d) => d.accessEnds who false st 0

/-- REGISTER_WRITE (R8). -/
def execRegisterWrite (who : RegRequester) (addr width : Nat) (v : Word) (s : State) : Host.Outcome State Fault Refusal :=
  onDev s fun d => d.accessWrite who addr width v

/-- FTIME_LOW_HALF_READ (R420). -/
def execFtimeLowHalfRead (who : RegRequester) (s : State) : Host.Outcome State Fault Refusal :=
  onDev s fun d => d.accessRead who 0x20008 4

/-- The offset of PMU u's counter i, or of its cycle counter for 8. -/
def counterAddr (u counter : Nat) : Nat := 0x400000 + u * 0x1000 + (if counter = 8 then 0 else 0x40 + 8 * counter)

/-- PMC_LOW_HALF_READ (R410). -/
def execPmcLowHalfRead (who : RegRequester) (u : Fin 37) (counter : Fin 9) (s : State) : Host.Outcome State Fault Refusal :=
  onDev s fun d => d.accessRead who (counterAddr u counter) 4

/-- PMC_COUNTER_WRITE: the value replaces the count (R408). -/
def execPmcCounterWrite (who : RegRequester) (u : Fin 37) (counter : Fin 9) (v : Word) (s : State) :
    Host.Outcome State Fault Refusal :=
  onDev s fun d => d.accessWrite who (counterAddr u counter) 8 v

/-- PMC_FREEZE_WRITE (R411). -/
def execPmcFreezeWrite (who : RegRequester) (freeze : Bool) (s : State) : Host.Outcome State Fault Refusal :=
  onDev s fun d => d.accessWrite who 0x440000 4 (if freeze then 0x80000000 else 0)

/-- PMC_SNAP: FREEZE keeps its value (R411). -/
def execPmcSnap (who : RegRequester) (s : State) : Host.Outcome State Fault Refusal :=
  onDev s fun d => d.accessWrite who 0x440000 4 (if d.bitOf .pmcGlbCtl 31 then 0xC0000000 else 0x40000000)

/-- TLS_SWAP: EN and PERIOD keep their values (R415). -/
def execTlsSwap (who : RegRequester) (s : State) : Host.Outcome State Fault Refusal :=
  onDev s fun d => d.accessWrite who 0x700000 4 (BitVec.ofNat 64 (d.rd .tlsCtl 31 31 * 2 ^ 31 + 2 ^ 30 + d.rd .tlsCtl 15 0))

/-- VIOL_INFO_CLEAR (R323). -/
def execViolInfoClear (who : RegRequester) (v : Fin 17) (s : State) : Host.Outcome State Fault Refusal :=
  onDev s fun d => d.accessWrite who (0x309008 + v * 0x20) 4 0x80000000

/-- MAILBOX_DOORBELL: a write of 1 to DOORBELL, ignored while it reads 1 (R285). -/
def execMailboxDoorbell (m : Fin 65) (s : State) : Host.Outcome State Fault Refusal :=
  onDev s fun d => if d.bitOf (.mbxCtl m) 0 || d.aoOnly || decide (2 < d.domState domMgt) then d else d.doorbell m

end Sys2Proof.Machine
end

