-- ==== Sys2Proof/Machine/Standard.lean ====
section
/-! DEFINITION. The standard CXL commands of the Pool Device mailbox and the FM-API subset (R290, R291). Opcodes, codes and
output layouts are CXL 3.1's (log entries 20, 21); what this specification says of a command is computed from the state. -/

namespace Sys2Proof.Machine

/-- A CXL command on the Pool Device mailbox of port p: code and output. -/
def Dev.cxl (d : Dev) (p : Fin 64) (opcode : Nat) (f : Dev → Nat × List Byte) : Dev :=
  d.standard (.pool p) opcode fun d => let (rc, out) := f d; d.complete (.pool p) opcode rc 0 out

/-- An FM-API command; the Pool Device mailbox and JTAG do not carry the set (Table MG-1). -/
def Dev.fmApi (d : Dev) (path : Path) (opcode : Nat) (f : Dev → Nat × List Byte) : Dev :=
  d.standard path opcode fun d =>
    match path with
    | .pool _ => d.finish path opcode rcUnsupported
    | .jtag => d
    | _ => let (rc, out) := f d; d.complete path opcode rc 0 out

/-- The commands that every path with standard commands carries. -/
def Dev.common (d : Dev) (path : Path) (opcode : Nat) (f : Dev → Nat × List Byte) : Dev :=
  d.standard path opcode fun d =>
    match path with
    | .jtag => d
    | _ => let (rc, out) := f d; d.complete path opcode rc 0 out

def zeros (n : Nat) : List Byte := List.replicate n 0

/-! ### What the device reports -/

/-- The state of a background operation: running or not with its percentage, opcode, code and vendor status. -/
def Dev.bgStatus (d : Dev) (path : Path) : List Byte :=
  match tget d.mgmt.bg path, tget d.mgmt.bgLast path with
  | some b, _ => [1, 0] ++ toBytes 2 b.opcode ++ toBytes 2 0 ++ toBytes 2 0
  | none, some (op, rc, v) => [200, 0] ++ toBytes 2 op ++ toBytes 2 rc ++ toBytes 2 v
  | none, none => zeros 8

/-- The events of one log of a host. -/
def Dev.eventsOf (d : Dev) (p log : Nat) : List EventRec :=
  (tgetD d.mgmt.events p []).filter fun e => decide (e.log = log)

/-- The worst severity among pending events of the sources that serve a host: its port, its Tambour, its port die. -/
def Dev.healthOf (d : Dev) (p : Nat) : Nat :=
  let srcs := (List.range 4).map (fun k => 0x100 + 4 * p + k) ++ (List.range 16).map (fun k => 16 * (p / 4) + k) ++
    (List.range 16).map (fun k => 0x240 + 16 * (p / 16) + k)
  srcs.foldl (fun m n => if d.bitOf (.srcStatus n) 63 then max m (1 + d.rd (.srcStatus n) 58 57) else m) 0

/-- The DPAs at which a host sees a line: one for each valid slot of its windows that maps the line's block. -/
def Dev.dpasOf (d : Dev) (p line : Nat) : List Nat :=
  match tget d.pool.windows p with
  | none => []
  | some (base, _, _) =>
    (d.pool.extents.filter fun e => decide (e.port = p) && !e.offered).flatMap fun e =>
      (List.range e.count).filterMap fun i =>
        let s := d.pool.slots.a.find? fun x => decide (x.1 = base + e.first + i)
        match s with
        | some (_, en) =>
          if en.valid && decide (en.block.toNat = line / 2 ^ 20) then some ((e.first + i) * 2 ^ 26 + line % 2 ^ 20 * 64)
          else none
        | none => none

/-- The lines of the lost-line log: bit i of a record's mask is line i of its granule. -/
def Dev.lostLines (d : Dev) : List Nat :=
  (d.dir.lostLog.live 0 d.flt.diesOut).flatMap fun r => (bitsSet r.mask 16).map fun i => r.line / 16 * 16 + i

/-- One entry of the poison list: DPA and length in lines. -/
def poisonEntry (dpa : Nat) : List Byte := toBytes 8 dpa ++ toBytes 4 1 ++ zeros 4

/-- The DC regions of a host: base and length, with region 1 of length 0 for a host without Back-Invalidate (R27). -/
def Dev.regions (d : Dev) (p : Nat) : List (Nat × Nat) :=
  match tget d.pool.windows p with
  | some (_, r0, r1) => [(0, r0 * 2 ^ 26), (r0 * 2 ^ 26, if d.hasBi p then r1 * 2 ^ 26 else 0)]
  | none => [(0, 0), (0, 0)]

def regionBytes (r : Nat × Nat) : List Byte :=
  toBytes 8 r.1 ++ toBytes 8 r.2 ++ toBytes 8 r.2 ++ toBytes 8 (2 ^ 26) ++ zeros 8

def extentBytes (e : Extent) : List Byte :=
  toBytes 8 (e.first * 2 ^ 26) ++ toBytes 8 (e.count * 2 ^ 26) ++ toBytes 16 e.tag ++ toBytes 2 e.seq ++ zeros 6

/-- A host's extents, from one index, at most a number of them; offered extents are not yet its own. -/
def Dev.extentList (d : Dev) (p first count : Nat) : List Byte :=
  let es := d.pool.extents.filter fun e => decide (e.port = p) && !e.offered
  let part := (es.drop first).take count
  toBytes 4 part.length ++ toBytes 4 es.length ++ toBytes 4 d.pool.extentSeq ++ zeros 4 ++ part.flatMap extentBytes

/-! ### Meanings: Table MG-4 -/

def execIdentify (p : Fin 64) (s : State) : Host.Outcome State Fault Refusal :=
  onDev s fun d => d.cxl p 0x0001 fun d => (0, d.standardOut 0x0001 18)

/-- Background Operation Status on a mailbox or on MCTP (R286, R287). -/
def execBackgroundOperationStatus (path : Path) (s : State) : Host.Outcome State Fault Refusal :=
  onDev s fun d => d.common path 0x0002 fun d => (0, d.bgStatus path)

/-- The payload area holds 2^12 bytes. -/
def execGetResponseMessageLimit (path : Path) (s : State) : Host.Outcome State Fault Refusal :=
  onDev s fun d => d.common path 0x0003 fun _ => (0, [12])

def execGetEventRecords (p : Fin 64) (log : Fin 5) (s : State) : Host.Outcome State Fault Refusal :=
  onDev s fun d => d.cxl p 0x0100 fun d =>
    let es := (d.eventsOf p log).take 31
    (0, d.standardOut 0x0100 20 ++ toBytes 2 es.length ++ zeros 10 ++
      es.flatMap fun e => d.standardOut (0x0100 + 65536 * e.kind) 16 ++ toBytes 2 e.handle ++ toBytes 8 e.dpa ++
        toBytes 8 e.length ++ toBytes 16 e.tag ++ zeros 78)

/-- Clear Event Records: a handle that the log does not hold gives Invalid Handle and clears nothing. -/
def execClearEventRecords (p : Fin 64) (log : Fin 5) (handles : List Nat) (s : State) :
    Host.Outcome State Fault Refusal :=
  onDev s fun d =>
    let held := (d.eventsOf p log).map (·.handle)
    let ok := handles.all fun h => held.contains h
    d.standard (.pool p) 0x0101 fun d =>
      if ok then
        let keep := (tgetD d.mgmt.events p []).filter fun e => !(decide (e.log = log.val) && handles.contains e.handle)
        ({ d with mgmt := { d.mgmt with events := tset d.mgmt.events p keep } }).finish (.pool p) 0x0101 rcSuccess
      else d.finish (.pool p) 0x0101 0xE

def execGetEventInterruptPolicy (p : Fin 64) (s : State) : Host.Outcome State Fault Refusal :=
  onDev s fun d => d.cxl p 0x0102 fun d => (0, tgetD d.mgmt.policies p (zeros 5))

def execSetEventInterruptPolicy (p : Fin 64) (input : List Byte) (s : State) : Host.Outcome State Fault Refusal :=
  onDev s fun d =>
    d.standard (.pool p) 0x0103 fun d =>
      if input.length = 5 then
        ({ d with mgmt := { d.mgmt with policies := tset d.mgmt.policies p input } }).finish (.pool p) 0x0103 rcSuccess
      else d.finish (.pool p) 0x0103 rcInvalid

/-- Get FW Info reports the active management firmware: its slot and version. -/
def execGetFwInfo (p : Fin 64) (s : State) : Host.Outcome State Fault Refusal :=
  onDev s fun d => d.cxl p 0x0200 fun d =>
    (0, [2, BitVec.ofNat 8 (1 + d.rd .oobBoot 27 27)] ++ d.standardOut 0x0200 14 ++ toBytes 16 d.mgmt.fwVersion ++
      d.standardOut 0x0201 48)

/-- Get Timestamp answers from fabric time. -/
def execGetTimestamp (p : Fin 64) (s : State) : Host.Outcome State Fault Refusal :=
  onDev s fun d => d.cxl p 0x0300 fun d => (0, toBytes 8 d.now)

/-- Set Timestamp is accepted and ignored. -/
def execSetTimestamp (p : Fin 64) (input : List Byte) (s : State) : Host.Outcome State Fault Refusal :=
  onDev s fun d => d.cxl p 0x0301 fun _ => (if input.length = 8 then rcSuccess else rcInvalid, [])

/-- The commands of Table MG-4 that the Pool Device supports, with Add Dynamic Capacity Response and Release Dynamic Capacity. -/
def supportedOpcodes : List Nat :=
  [0x0001, 0x0002, 0x0003, 0x0100, 0x0101, 0x0102, 0x0103, 0x0200, 0x0300, 0x0301, 0x0400, 0x0401, 0x4000, 0x4100, 0x4200, 0x4300,
    0x4800, 0x4801, 0x4802, 0x4803]

/-- The Command Effects Log: the supported commands and no other (R2, R290), each with its effects, which are open (log entry 21). -/
def Dev.effectsLog (d : Dev) : List Byte := supportedOpcodes.flatMap fun op => toBytes 2 op ++ d.standardOut (0x0401 + 2 ^ 48 * op) 2

/-- The identifier of the Command Effects Log, which CXL gives (log entry 21). -/
def Dev.effectsId (d : Dev) : List Byte := d.standardOut 0x0400 16

/-- The Command Effects Log, with its size. -/
def execGetSupportedLogs (p : Fin 64) (s : State) : Host.Outcome State Fault Refusal :=
  onDev s fun d => d.cxl p 0x0400 fun d => (0, toBytes 2 1 ++ zeros 6 ++ d.effectsId ++ toBytes 4 d.effectsLog.length)

/-- A part of the Command Effects Log by its offset and length; another log, or a part outside it, is refused. -/
def execGetLog (p : Fin 64) (input : List Byte) (s : State) : Host.Outcome State Fault Refusal :=
  onDev s fun d => d.cxl p 0x0401 fun d =>
    if input.length = 24 ∧ input.take 16 = d.effectsId ∧ field input 16 4 + field input 20 4 ≤ d.effectsLog.length then
      (0, slice d.effectsLog (field input 16 4) (field input 20 4))
    else (rcInvalid, [])

/-- Identify Memory Device: no static volatile or persistent capacity. -/
def execIdentifyMemoryDevice (p : Fin 64) (s : State) : Host.Outcome State Fault Refusal :=
  onDev s fun d => d.cxl p 0x4000 fun d => (0, toBytes 16 d.mgmt.fwVersion ++ zeros 24 ++ d.standardOut 0x4000 29)

def execGetPartitionInfo (p : Fin 64) (s : State) : Host.Outcome State Fault Refusal :=
  onDev s fun d => d.cxl p 0x4100 fun _ => (0, zeros 32)

/-- Get Health Info reports from the Carillon state of the sources that serve the host. -/
def execGetHealthInfo (p : Fin 64) (s : State) : Host.Outcome State Fault Refusal :=
  onDev s fun d => d.cxl p 0x4200 fun d => (0, d.standardOut (0x4200 + 65536 * 65536 * d.healthOf p) 18)

/-- Get Poison List: the lost lines behind the host's valid slots, as DPAs. -/
def execGetPoisonList (p : Fin 64) (s : State) : Host.Outcome State Fault Refusal :=
  onDev s fun d => d.cxl p 0x4300 fun d =>
    let es := (d.lostLines.flatMap fun l => d.dpasOf p l).take 254
    (0, zeros 10 ++ toBytes 2 es.length ++ zeros 20 ++ es.flatMap poisonEntry)

def execGetDynamicCapacityConfiguration (p : Fin 64) (s : State) : Host.Outcome State Fault Refusal :=
  onDev s fun d => d.cxl p 0x4800 fun d => (0, [2, 2] ++ zeros 6 ++ (d.regions p).flatMap regionBytes)

def execGetDynamicCapacityExtentList (p : Fin 64) (first count : Nat) (s : State) : Host.Outcome State Fault Refusal :=
  onDev s fun d => d.cxl p 0x4801 fun d => (0, d.extentList p first (min count 100))

/-- Every other CXL command returns Unsupported (R290). -/
def execUnsupportedCxlCommand (p : Fin 64) (opcode : BitVec 16) (s : State) : Host.Outcome State Fault Refusal :=
  onDev s fun d => d.cxl p opcode.toNat fun _ => (rcUnsupported, [])

/-! ### Meanings: Table MG-5 -/

def execFmIdentify (path : Path) (s : State) : Host.Outcome State Fault Refusal :=
  onDev s fun d => d.fmApi path 0x0001 fun d => (0, d.standardOut 0x0001 18)

/-- Identify Switch Device: one ingress and the ports that the BCB enables. -/
def execIdentifySwitchDevice (path : Path) (s : State) : Host.Outcome State Fault Refusal :=
  onDev s fun d => d.fmApi path 0x5100 fun d =>
    (0, [0, 0, 0, 0, BitVec.ofNat 8 ((List.range 64).filter fun p => decide (d.portMode p ≠ 0)).length] ++
      d.standardOut 0x5100 68)

/-- Get Physical Port State: one record for each port asked for, which follows its mode, state, width and rate. -/
def execGetPhysicalPortState (path : Path) (ports : List (Fin 64)) (s : State) : Host.Outcome State Fault Refusal :=
  onDev s fun d => d.fmApi path 0x5101 fun d =>
    (0, [BitVec.ofNat 8 ports.length, 0, 0, 0] ++ ports.flatMap fun (p : Fin 64) =>
      BitVec.ofNat 8 p.val ::
        (List.range 15).map (Config.standardByte (0x5101 + 65536 * ((d.reg (.prtStatus p)).toNat + 2 ^ 32 * d.portMode p))))

def execGetVirtualCxlSwitchInfo (path : Path) (s : State) : Host.Outcome State Fault Refusal :=
  onDev s fun d => d.fmApi path 0x5200 fun d => (0, d.standardOut 0x5200 (4 + 8 * d.hostPorts.length))

def execGetDcdInfo (path : Path) (host : Fin 64) (s : State) : Host.Outcome State Fault Refusal :=
  onDev s fun d => d.fmApi path 0x5600 fun d =>
    if d.portMode host = 1 then (0, [1, 2] ++ d.standardOut 0x5600 62) else (rcInvalid, [])

def execGetHostDcRegionConfiguration (path : Path) (host : Fin 64) (s : State) : Host.Outcome State Fault Refusal :=
  onDev s fun d => d.fmApi path 0x5601 fun d =>
    if d.portMode host = 1 then
      (0, toBytes 2 host.val ++ [2, 2] ++ zeros 4 ++ (d.regions host).flatMap regionBytes)
    else (rcInvalid, [])

def execGetDcRegionExtentLists (path : Path) (host : Fin 64) (first count : Nat) (s : State) :
    Host.Outcome State Fault Refusal :=
  onDev s fun d => d.fmApi path 0x5603 fun d =>
    if d.portMode host = 1 then (0, toBytes 2 host.val ++ zeros 2 ++ d.extentList host first (min count 100))
    else (rcInvalid, [])

/-- An FM-API command outside the subset is refused as unsupported (R291). -/
def execUnsupportedFmApiCommand (path : Path) (opcode : BitVec 16) (s : State) : Host.Outcome State Fault Refusal :=
  onDev s fun d => d.fmApi path opcode.toNat fun _ => (rcUnsupported, [])

end Sys2Proof.Machine
end

