-- ==== Sys2Proof/Machine/Management.lean ====
section
/-! DEFINITION. Management commands of the Stoluo set that name no pool, port or slice: information, register reads, logs; the MCTP
endpoint, the out-of-band bridge, and the update of firmware and service images (R283 to R304, R312 to R314). -/

namespace Sys2Proof.Machine

/-! ### MCTP and the bus (R283, R287, R432) -/

/-- Whether the pins of the BMC bus work (Table PW-4, VDD_IO). -/
def Dev.busUp (d : Dev) : Bool := d.bitOf (.rail 4) 62

/-- Whether an MCTP request message with an opcode is taken: firmware serves it (R283), at once or once its domain has woken, which the
message waits for without loss (R354). -/
def Dev.mctpServed (d : Dev) (opcode : Nat) : Bool :=
  if d.mgmt.coldHeld then false
  else if d.halted then decide (opcode = 0xC066)
  else decide (d.stage ≠ 8) && d.mgmt.fwUp && !d.mgmt.warmHeld && decide (d.domState domMgt ≤ 3)

/-- A request message arrives where the bus works: a second one of its type from the endpoint is BUSY (R287). -/
def execMctpRequest (eid : Nat) (componentCci : Bool) (opcode : BitVec 16) (length : Nat) (s : State) :
    Host.Outcome State Fault Refusal :=
  onDev s fun d =>
    let op := opcode.toNat
    let typ := if componentCci then 1 else 0
    if !d.busUp || !d.mctpServed op then d
    else
      let d := d.wake domMgt
      let answer (rc : Nat) : Dev := (d.emit (.cmdDone (.mctp eid) op rc 0 [])).count 36 0x9000 1
      if d.mgmt.mctpBusy.contains (eid, typ) then answer rcBusy
      else if mctpType op ≠ typ then answer rcUnsupported
      else if 4096 < length then answer rcInvalid
      else if 0xC000 ≤ op ∧ op ≤ 0xCFFF ∧ cmdClass op = none then answer rcUnsupported
      else { d with mgmt := { d.mgmt with mctpBusy := d.mgmt.mctpBusy ++ [(eid, typ)] } }

/-- The bus owner assigns the endpoint ID. -/
def execMctpControlMessage (eid : BitVec 8) (s : State) : Host.Outcome State Fault Refusal :=
  onDev s fun d =>
    if d.busUp && d.mgmt.fwUp && !d.mgmt.warmHeld && decide (d.domState domMgt ≤ 3) then
      { d.wake domMgt with mgmt := { d.mgmt with mctpEid := some eid.toNat } }
    else d

/-- The bus controller gives the bridge or the MCTP target its dynamic address; MCTP is a target only while firmware serves it. -/
def execI3cDynamicAddressAssignment (bridge : Bool) (addr : BitVec 7) (s : State) : Host.Outcome State Fault Refusal :=
  onDev s fun d =>
    if !d.busUp || !d.mgmt.i3cBus then d
    else if bridge then { d with mgmt := { d.mgmt with i3cBridge := some addr.toNat } }
    else if d.mgmt.fwUp then { d with mgmt := { d.mgmt with i3cMctp := some addr.toNat } }
    else d

/-! ### Information and registers (Table MG-7, R293) -/

/-- The output of GET_INFO. -/
def Dev.infoBytes (d : Dev) : List Byte :=
  let sets := d.hub.sets.filter fun x => x.2.valid
  let blocks := (sets.map fun x => x.2.count).sum
  let free := (sets.map fun x => (x.2.blocks.filter fun b => decide ((d.blockEntry b).state = 0)).length).sum
  toBytes 4 (d.reg .glbIdent).toNat ++ toBytes 4 d.mgmt.fwVersion ++ toBytes 4 d.mgmt.fwSvn ++ toBytes 2 d.devId ++
    toBytes 1 d.sec.otp.lifecycle ++ toBytes 1 d.debugLevel ++ toBytes 4 d.mgmt.bcbSeq ++
    toBytes 1 (d.rd .oobBoot 27 27 + 2 * d.rd .oobBoot 26 26 + 4 * d.rd .oobBoot 25 25) ++
    toBytes 1 (if d.compact then 0 else 1) ++ toBytes 2 (d.rd .keyStatus 11 0) ++ toBytes 4 blocks ++ toBytes 4 free

def execGetInfo (path : Path) (input : List Byte) (s : State) : Host.Outcome State Fault Refusal :=
  onDev s fun d => d.stoluo path 0xC000 false input.isEmpty fun d => d.complete path 0xC000 rcSuccess 0 d.infoBytes

/-- The requester of a REG_READ: the port of the FM mailbox, the lowest-numbered one (log entry 53), or the MCTP endpoint. -/
def Dev.regReader (d : Dev) : Path → Requester
  | .mctp eid => ⟨7, eid⟩
  | _ => ⟨0, d.firstFm⟩

def regReadForm (input : List Byte) : Bool :=
  decide (input.length = 8 ∧ field input 0 4 < 0x4000000 ∧ (field input 4 1 = 4 ∨ field input 4 1 = 8) ∧ field input 5 3 = 0)

/-- REG_READ: one read, with its side effects. -/
def execRegRead (path : Path) (input : List Byte) (s : State) : Host.Outcome State Fault Refusal :=
  onDev s fun d => d.stoluo path 0xC001 false (regReadForm input) fun d =>
    let a := field input 0 4
    let w := field input 4 1
    match d.regCheckAs .firmware (some (d.regReader path)) a w false with
    | (.ok, d) => (let (v, d) := d.regRead .firmware a w; d.complete path 0xC001 rcSuccess 0 (toBytes 8 v.toNat))
    | (.unsupported, d) => d.finish path 0xC001 rcAlignment
    | (.denied, d) => d.finish path 0xC001 rcPermission
    | (.off, d) => d.finish path 0xC001 rcConflict

/-! ### Logs (R298 to R300, Tables CO-17, FI-7) -/

/-- A record of 32 B from its bits [255:32]: the CRC-32 over them takes bits [31:0]. -/
def recordBytes (upper : Nat) : List Byte :=
  let b := toBytes 28 upper
  toBytes 4 (crc32 b) ++ b

/-- A field of a record that starts at bit lo of the record. -/
def at_ (lo v width : Nat) : Nat := v % 2 ^ width * 2 ^ (lo - 32)

def LostRec.bytes (r : LostRec) : List Byte :=
  recordBytes (at_ 224 r.seq 32 + at_ 160 r.ftime 64 + at_ 120 r.line 40 + at_ 104 r.mask 16 + at_ 92 r.domain 12 + at_ 88 r.prior 4 +
    at_ 84 r.cause 4 + at_ 73 r.agentDev 11 + at_ 70 r.kind 3 + at_ 61 r.num 9 + at_ 57 r.slice 4)

def FaultRec.bytes (r : FaultRec) : List Byte :=
  recordBytes (at_ 224 r.seq 32 + at_ 160 r.ftime 64 + at_ 150 r.source 10 + at_ 147 r.cls 3 + at_ 145 r.sev 2 +
    at_ 144 (if r.wire then 1 else 0) 1 + at_ 142 r.test 2 + at_ 141 (if r.retired then 1 else 0) 1 + at_ 136 r.react 5 +
    at_ 128 (min r.count 255) 8 + at_ 32 r.detail 96)

def FabRec.bytes (r : FabRec) : List Byte :=
  recordBytes (at_ 224 r.seq 32 + at_ 160 r.ftime 64 + at_ 152 r.typ 8 + at_ 32 r.detail 120)

/-- A log as LOG_READ sees it: its records with their sequence numbers, NEXT_SEQ and REFUSED. -/
def Dev.logOf (d : Dev) (id : Nat) : List (Nat × List Byte) × Nat × Nat :=
  match id with
  | 0 =>
    let l := d.dir.lostLog
    ((l.live 0 d.flt.diesOut).map fun r => (r.seq, r.bytes), l.seq, l.overflow)
  | 1 =>
    let l := d.flt.log
    ((l.live 1 d.flt.diesOut).map fun r => (r.seq, r.bytes), l.seq, l.overflow)
  | _ =>
    let l := d.fab.log
    ((l.live 0 d.flt.diesOut).map fun r => (r.seq, r.bytes), l.seq, l.overflow)

def logReadForm (input : List Byte) : Bool :=
  decide (input.length = 12 ∧ field input 0 1 ≤ 2 ∧ field input 1 3 = 0 ∧ 1 ≤ field input 8 2 ∧ field input 8 2 ≤ 127 ∧ field input 10 2 = 0)

def execLogRead (path : Path) (input : List Byte) (s : State) : Host.Outcome State Fault Refusal :=
  onDev s fun d => d.stoluo path 0xC040 false (logReadForm input) fun d =>
    let (records, next, refused) := d.logOf (field input 0 1)
    let l := (records.filter fun r => decide (field input 4 4 ≤ r.1)).take (field input 8 2)
    d.complete path 0xC040 rcSuccess 0
      (toBytes 4 l.length ++ toBytes 4 next ++ toBytes 4 (min refused (2 ^ 32 - 1)) ++ zeros 4 ++ l.flatMap (·.2))

/-- A log is emptied: SEQ counts from 0 and nothing has been refused (R299). -/
def Dev.clearLog (d : Dev) (id : Nat) : Dev :=
  match id with
  | 0 => { d with dir := { d.dir with lostLog := .empty _ } }
  | 1 => ({ d with flt := { d.flt with log := .empty _ } }).wr .faultStat 26 26 0
  | _ => { d with fab := { d.fab with log := .empty _ } }

def logClearForm (input : List Byte) : Bool :=
  decide (input.length = 8 ∧ field input 0 1 ≤ 2 ∧ field input 1 3 = 0)

def execLogClear (path : Path) (input : List Byte) (s : State) : Host.Outcome State Fault Refusal :=
  onDev s fun d => d.stoluo path 0xC041 false (logClearForm input) fun d =>
    let id := field input 0 1
    if (field input 4 4 + 1) % 2 ^ 32 = (d.logOf id).2.1 then (d.clearLog id).finish path 0xC041 rcSuccess
    else d.finish path 0xC041 rcConflict

/-! ### The out-of-band bridge (R301 to R304) -/

/-- The result of a READ or WRITE; DATA has a meaning only with status DATA and is open otherwise. -/
def Dev.oobAnswer (d : Dev) (status : Nat) (addr : BitVec 32) (data : Option Word) : Dev :=
  let (v, d) := match data with
    | some x => (x, d)
    | none => d.openBits 64
  { d with mgmt := { d.mgmt with oobResult := ⟨status, addr.toNat, v⟩ } }

/-- The offset, the width and FRESH of an ADDR (R301). -/
def oobOffset (addr : BitVec 32) : Nat := addr.toNat % 2 ^ 26
def oobWidth (addr : BitVec 32) : Nat := if addr.getLsbD 31 then 8 else 4
def oobFresh (addr : BitVec 32) : Bool := addr.getLsbD 30

/-- Whether an ADDR is good: bits [29:26] are 0 and the offset is aligned to the width. -/
def oobGood (addr : BitVec 32) : Bool := decide (addr.toNat / 2 ^ 26 % 16 = 0 ∧ oobOffset addr % oobWidth addr = 0)

def Dev.setSlots (d : Dev) (l : List OobSlot) : Dev := { d with mgmt := { d.mgmt with oobSlots := l } }

/-- Slots that hold a block are discarded; one that has not been read is counted. -/
def Dev.dropSlots (d : Dev) (which : OobSlot → Bool) : Dev :=
  let unread := d.mgmt.oobSlots.filter fun s => which s && s.words.isSome && !s.delivered
  (d.setSlots (d.mgmt.oobSlots.filter fun s => !which s)).count 36 0x9005 unread.length

/-- A fetch starts in a slot that may be taken: with FRESH the one that holds the block, a free one, or the oldest one whose data
has been delivered (R302); none where every slot is in use. -/
def Dev.startFetch (d : Dev) (block : Nat) : Option Dev :=
  let slots := d.mgmt.oobSlots
  let start (d : Dev) : Dev := (d.setSlots (d.mgmt.oobSlots ++ [⟨block, none, false⟩])).count 36 0x9004 1
  if slots.any fun s => decide (s.block = block) then some (start (d.dropSlots fun s => decide (s.block = block)))
  else if slots.length < 4 then some (start d)
  else
    match slots.findIdx? fun s => s.delivered with
    | some i => some (start (d.setSlots (slots.eraseIdx i)))
    | none => none

/-- The value that a slot's words give at an offset. -/
def slotValue (words : List (BitVec 32)) (a width : Nat) : Word :=
  let w (k : Nat) : Nat := (words.getD k 0).toNat
  let k := a % 64 / 4
  BitVec.ofNat 64 (if width = 8 then w k + 2 ^ 32 * w (k + 1) else w k)

/-- A READ attempt. -/
def execOobRead (addr : BitVec 32) (s : State) : Host.Outcome State Fault Refusal :=
  onDev s fun d =>
    let a := oobOffset addr
    let w := oobWidth addr
    let block := a / 64
    if !d.busUp then d
    else if !oobGood addr then d.oobAnswer 6 addr none
    else
      match d.regCheck .oob a w false with
      | (.denied, d) => d.oobAnswer 5 addr none
      | (.unsupported, d) => d.oobAnswer 6 addr none
      | (st, d) =>
        match d.mgmt.oobSlots.find? fun s => decide (s.block = block) with
        | some ⟨_, none, _⟩ => d.oobAnswer 2 addr none
        | some ⟨_, some words, _⟩ =>
          if oobFresh addr then
            if st = .off then d.oobAnswer 7 addr none
            else match d.startFetch block with
              | some d => d.oobAnswer 2 addr none
              | none => d.oobAnswer 3 addr none
          else
            (d.setSlots (d.mgmt.oobSlots.map fun s => if s.block = block then { s with delivered := true } else s)).oobAnswer
              1 addr (some (slotValue words a w))
        | none =>
          if st = .off then d.oobAnswer 7 addr none
          else match d.startFetch block with
            | some d => d.oobAnswer 2 addr none
            | none => d.oobAnswer 3 addr none

/-- One word of a fetch: each register is read at its own width, which neither sets a latch nor uses it (R420); a word of a register
whose domain has gone off is open. -/
def Dev.fetchWord (d : Dev) (a : Nat) : BitVec 32 × Dev :=
  match d.regsMet .oob a 4 with
  | r :: _ =>
    if (d.reachHeld r.layout.held).1 then
      let v := (d.reg r).toNat
      (BitVec.ofNat 32 (if r.layout.width = 64 ∧ (d.regAt .oob a).isNone then v / 2 ^ 32 else v % 2 ^ 32), d)
    else d.openBits 32
  | [] => (0, d)

/-- A fetch of a block ends with its 16 words. -/
def execOobFetchComplete (block : Nat) (s : State) : Host.Outcome State Fault Refusal :=
  onDev s fun d =>
    if d.mgmt.oobSlots.any fun s => decide (s.block = block) && s.words.isNone then
      let (words, d) := (List.range 16).foldl (fun (x : List (BitVec 32) × Dev) k =>
        let (v, d) := x.2.fetchWord (64 * block + 4 * k)
        (x.1 ++ [v], d)) (([] : List (BitVec 32)), d)
      d.setSlots (d.mgmt.oobSlots.map fun s => if s.block = block then { s with words := some words } else s)
    else d

/-- The 50 ms of a slot are over. -/
def execOobSlotExpiry (block : Nat) (s : State) : Host.Outcome State Fault Refusal :=
  onDev s fun d => d.dropSlots fun s => decide (s.block = block) && s.words.isSome

/-- A WRITE: performed at once, and every slot that holds the block is discarded. -/
def execOobWrite (addr : BitVec 32) (v : Word) (s : State) : Host.Outcome State Fault Refusal :=
  onDev s fun d =>
    let a := oobOffset addr
    let w := oobWidth addr
    if !d.busUp then d
    else if !oobGood addr then d.oobAnswer 6 addr none
    else
      match d.regCheck .oob a w true with
      | (.ok, d) => ((d.regWrite .oob a w v).dropSlots fun s => decide (s.block = a / 64)).oobAnswer 8 addr none
      | (.denied, d) => d.oobAnswer 5 addr none
      | (.unsupported, d) => d.oobAnswer 6 addr none
      | (.off, d) => d.oobAnswer 7 addr none

/-- RESULT: status, ADDR and DATA of the last READ or WRITE; after it the status is IDLE, ADDR and DATA open. -/
def execOobResult (s : State) : Host.Outcome State Fault Refusal :=
  onDev s fun d =>
    if d.busUp then
      let r := d.mgmt.oobResult
      let d := d.emit (.bridge 0xA2 (toBytes 1 r.status ++ toBytes 4 r.addr ++ toBytes 8 r.data.toNat))
      let (a, d) := d.openBits 32
      d.oobAnswer 0 a none
    else d

/-! ### Transfers (R312) -/

/-- The slot of a target that is not in use. -/
def Dev.spareSlot (d : Dev) (target : Nat) : Nat :=
  match tget d.mgmt.inUse target with
  | some s => 1 - s
  | none => if target = 0 then 1 - d.mgmt.preferred else if target = 3 then 1 - d.mgmt.bcbSlot else 0

/-- A slot is erased; what END had verified in it is gone. -/
def Dev.eraseSlot (d : Dev) (target slot : Nat) : Dev :=
  { d with mgmt := { d.mgmt with
    flash := tdel d.mgmt.flash (target, slot), verified := d.mgmt.verified.filter fun x => !decide (x = (target, slot)) } }

def Dev.setTransfer (d : Dev) (target : Nat) (t : Option Transfer) : Dev :=
  { d with mgmt := { d.mgmt with transfers := match t with
    | some t => tset d.mgmt.transfers target t
    | none => tdel d.mgmt.transfers target } }

/-- Bytes of a slot (Table MG-16). -/
def slotBytes (target : Nat) : Nat := if target = 0 then 0x400000 else 0x100000

/-- The form that every action but DATA shares. -/
def transferForm (input : List Byte) : Bool :=
  decide (input.length = 16 ∧ field input 1 1 ≤ 3 ∧ field input 2 2 = 0 ∧ field input 8 8 = 0)

def execFwTransferStart (path : Path) (input : List Byte) (s : State) : Host.Outcome State Fault Refusal :=
  onDev s fun d => d.stoluo path 0xC050 false (transferForm input) fun d =>
    let t := field input 1 1
    if (tget d.mgmt.imageMove t).isSome || (decide (t = 0) && d.mgmt.activation.isSome) then d.finish path 0xC050 rcBusy
    else ((d.eraseSlot t (d.spareSlot t)).setTransfer t (some ⟨0, []⟩)).finish path 0xC050 rcSuccess

def transferDataForm (input : List Byte) : Bool :=
  decide (32 ≤ input.length ∧ input.length ≤ 4096 ∧ field input 1 1 ≤ 3 ∧ field input 2 2 = 0 ∧ field input 8 8 = 0)

/-- DATA: the bytes that the header lies in are kept, the rest of the image is named by END. -/
def execFwTransferData (path : Path) (input : List Byte) (s : State) : Host.Outcome State Fault Refusal :=
  onDev s fun d => d.stoluo path 0xC050 false (transferDataForm input) fun d =>
    let t := field input 1 1
    let off := field input 4 4
    let n := input.length - 16
    match tget d.mgmt.transfers t with
    | none => d.finish path 0xC050 rcConflict
    | some x =>
      if off % 16 ≠ 0 then d.finish path 0xC050 rcAlignment
      else if off ≠ x.next ∨ slotBytes t < off + n then d.finish path 0xC050 rcInvalid
      else (d.setTransfer t (some ⟨off + n, (x.header ++ input.drop 16).take 256⟩)).finish path 0xC050 rcSuccess

/-- The image that a transfer has written: the header's fields are those of the bytes received (Table MG-17); whether the body's hash
and the signature verify, and what a BCB's body says, comes with the command. -/
def imageOf (t : Transfer) (body : Sys2Proof.Image) : Sys2Proof.Image :=
  let h := t.header
  { body with
    magic := field h 0 4, typ := field h 4 1, version := field h 8 4, svn := field h 12 4, length := field h 16 4
    keyId := field h 20 4, sequence := field h 24 4, hash := BitVec.ofNat 384 (field h 64 48)
    hashOk := body.hashOk && decide (256 + field h 16 4 ≤ t.next) }

/-- END verifies the slot under R307. -/
def execFwTransferEnd (path : Path) (input : List Byte) (body : Sys2Proof.Image) (s : State) : Host.Outcome State Fault Refusal :=
  onDev s fun d => d.stoluo path 0xC050 false (transferForm input) fun d =>
    let t := field input 1 1
    match tget d.mgmt.transfers t with
    | none => d.finish path 0xC050 rcConflict
    | some x =>
      let i := imageOf x body
      let slot := d.spareSlot t
      let rc := match d.imageError t i with
        | none => rcSuccess
        | some 5 => rcPermission
        | some _ => rcIntegrity
      d.bgWith path 0xC050 rc 0 fun d =>
        let d := d.setTransfer t none
        { d with mgmt := { d.mgmt with
          flash := tset d.mgmt.flash (t, slot) i
          verified := if rc = rcSuccess then d.mgmt.verified ++ [(t, slot)] else d.mgmt.verified } }

def execFwTransferAbort (path : Path) (input : List Byte) (s : State) : Host.Outcome State Fault Refusal :=
  onDev s fun d => d.stoluo path 0xC050 false (transferForm input) fun d =>
    let t := field input 1 1
    if (tget d.mgmt.transfers t).isNone then d.finish path 0xC050 rcConflict
    else ((d.setTransfer t none).eraseSlot t (d.spareSlot t)).finish path 0xC050 rcSuccess

/-! ### Activation (R313, R314) -/

/-- The form of FW_ACTIVATE; service images take only MODE 1 and BCBs only MODE 0. -/
def activateForm (input : List Byte) (live : Bool) : Bool :=
  let t := field input 0 1
  decide (input.length = 4 ∧ t ≤ 3 ∧ field input 2 2 = 0) && (if live then decide (t ≤ 2) else decide (t = 0 ∨ t = 3))

/-- A fabric event record of TYPE 7: target, version, return code. -/
def Dev.updateEvent (d : Dev) (target version rc : Nat) : Dev :=
  d.fabricEvent 7 (det 144 target + det 112 (version % 2 ^ 32) + det 96 rc)

/-- MODE 0: the verified slot is marked preferred and TRIAL, or as the BCB slot in use. -/
def execFwActivateNextReset (path : Path) (input : List Byte) (s : State) : Host.Outcome State Fault Refusal :=
  onDev s fun d => d.stoluo path 0xC051 false (activateForm input false) fun d =>
    let t := field input 0 1
    let slot := d.spareSlot t
    if (decide (t = 0) && d.mgmt.activation.isSome) || (tget d.mgmt.transfers t).isSome then d.finish path 0xC051 rcBusy
    else if !d.mgmt.verified.contains (t, slot) then d.finish path 0xC051 rcConflict
    else
      let m := if t = 0 then { d.mgmt with preferred := slot, trial := true } else { d.mgmt with bcbSlot := slot }
      ({ d with mgmt := m }).finish path 0xC051 rcSuccess

/-- The engines that carry an image and have still to move to the new version. -/
def Dev.toMove (d : Dev) (target : Nat) : List Nat :=
  (List.range 256).filter fun e => decide ((d.engine e).image = serviceImage target) && (d.engine e).move.isSome

/-- Every engine has moved: the new image is the one in use (R313). -/
def Dev.imageMoved (d : Dev) (target slot : Nat) : Dev :=
  let d := { d with mgmt := { d.mgmt with inUse := tset d.mgmt.inUse target slot, imageMove := tdel d.mgmt.imageMove target } }
  let d := match tget d.mgmt.flash (target, slot) with
    | some i => d.measure (5 + target) i.hash
    | none => d
  (d.showImages).updateEvent target (d.imageVersion target) rcSuccess

/-- MODE 1: firmware enters its window, with the slot preferred and TRIAL; a service image moves engine by engine, at once where no
engine carries it. -/
def execFwActivateLive (path : Path) (input : List Byte) (s : State) : Host.Outcome State Fault Refusal :=
  onDev s fun d => d.stoluo path 0xC051 true (activateForm input true) fun d =>
    let t := field input 0 1
    let slot := d.spareSlot t
    if d.mgmt.activation.isSome || (tget d.mgmt.imageMove t).isSome || (tget d.mgmt.transfers t).isSome then d.finish path 0xC051 rcBusy
    else if !d.mgmt.verified.contains (t, slot) then d.finish path 0xC051 rcConflict
    else if t = 0 then
      d.background path 0xC051 fun d =>
        { d with mgmt := { d.mgmt with
          activation := some ⟨path, slot, true, d.mgmt.preferred, d.mgmt.trial⟩, preferred := slot, trial := true } }
    else
      let version := ((tget d.mgmt.flash (t, slot)).map (·.version)).getD 0
      let mine := (List.range 256).filter fun e => decide ((d.engine e).image = serviceImage t)
      if mine.isEmpty then (d.imageMoved t slot).finish path 0xC051 rcSuccess
      else d.background path 0xC051 fun d =>
        let d := mine.foldl (fun (d : Dev) e => d.setEngine e { d.engine e with move := some version }) d
        { d with mgmt := { d.mgmt with imageMove := tset d.mgmt.imageMove t (slot, path) } }

/-- An engine moves to the new version between its operations; with the last one the activation completes (R313). -/
def execServiceImageEngineMove (e : Fin 256) (s : State) : Host.Outcome State Fault Refusal :=
  onDev s fun d =>
    let x := d.engine e
    match x.move with
    | none => d
    | some v =>
      if d.threadsOf e ≠ 0 then d
      else
        let d := d.setEngine e { x with version := v, move := none }
        let target := if x.image = serviceImage 1 then 1 else 2
        match tget d.mgmt.imageMove target with
        | some (slot, path) =>
          if (d.toMove target).isEmpty then (d.imageMoved target slot).bgResult path rcSuccess 0 else d
        | none => d

/-- The new firmware takes over (Table MG-21, steps 4 and 5). -/
def execLiveActivationTakeover (s : State) : Host.Outcome State Fault Refusal :=
  onDev s fun d =>
    match d.mgmt.activation with
    | none => d
    | some a =>
      match tget d.mgmt.flash (0, a.slot) with
      | none => d
      | some i =>
        let d := ((d.wr .oobBoot 27 27 a.slot).wr .oobBoot 26 26 1).measure 3 i.hash
        let d := { d with mgmt := { d.mgmt with
          activation := none, fwVersion := i.version, fwSvn := i.svn, inUse := tset d.mgmt.inUse 0 a.slot } }
        (d.bgResult a.path rcSuccess 0).updateEvent 0 i.version rcSuccess

/-- The window ends without a takeover: the old firmware resumes and the flash directory is restored. -/
def execLiveActivationTimeout (s : State) : Host.Outcome State Fault Refusal :=
  onDev s fun d =>
    match d.mgmt.activation with
    | none => d
    | some a =>
      let version := ((tget d.mgmt.flash (0, a.slot)).map (·.version)).getD 0
      let d := { d with mgmt := { d.mgmt with activation := none, preferred := a.preferred, trial := a.trial } }
      (d.bgResult a.path rcTimeout 0).updateEvent 0 version rcTimeout

/-- FW_COMMIT: the rollback counter takes the SVN of the image in use, TRIAL clears, and lower image keys are revoked (R313, R339). -/
def execFwCommit (path : Path) (input : List Byte) (s : State) : Host.Outcome State Fault Refusal :=
  onDev s fun d =>
    d.stoluo path 0xC052 false (decide (input.length = 4 ∧ field input 0 1 ≤ 3 ∧ field input 1 3 = 0)) fun d =>
      let t := field input 0 1
      match (tget d.mgmt.inUse t).bind fun slot => tget d.mgmt.flash (t, slot) with
      | none => d.finish path 0xC052 rcConflict
      | some i =>
        let o := d.sec.otp
        let revoked := if 1 ≤ i.keyId ∧ i.keyId ≤ 4 then
            (List.range 4).map fun k => o.revoked.getD k false || decide (k + 1 < i.keyId)
          else o.revoked
        let d := { d with sec := { d.sec with otp := { o with counters := o.counters.set t i.svn, revoked := revoked } } }
        let d := if t = 0 then ({ d with mgmt := { d.mgmt with trial := false } }).wr .oobBoot 26 26 0 else d
        d.finish path 0xC052 rcSuccess

end Sys2Proof.Machine
end

