-- ==== Sys2Proof/Machine/Security.lean ====
section
/-! DEFINITION. Protection and security: the ACU commands, lifecycle, debug, zeroization, the DRBG, and the end of background
operations, which completes a FULL zeroization (R286, R320 to R350). -/

namespace Sys2Proof.Machine

/-! ### Rule changes (R324 to R329, Table PS-8) -/

/-- One entry of ACU_REGION_SET. -/
structure RegionEntry where
  region : Nat
  flags  : Nat
  other  : Nat
  start  : Nat
  stop   : Nat
  ports  : Nat
  deriving DecidableEq, Repr

/-- The entries of an ACU_REGION_SET payload. -/
def regionEntries (input : List Byte) : List RegionEntry :=
  (List.range (field input 1 1)).map fun i =>
    let o := 8 + 40 * i
    ⟨field input o 2, field input (o + 2) 1, field input (o + 4) 4, field input (o + 8) 8, field input (o + 16) 8, field input (o + 24) 8⟩

/-- The input form of ACU_REGION_SET: lengths, ranges, and reserved bytes and bits of 0. -/
def regionSetForm (input : List Byte) : Bool :=
  let n := field input 1 1
  decide (1 ≤ n ∧ n ≤ 16 ∧ input.length = 8 + 40 * n ∧ field input 0 1 ≤ 1 ∧ field input 2 6 = 0) &&
    (List.range n).all fun i =>
      let o := 8 + 40 * i
      decide (field input o 2 ≤ 256 ∧ field input (o + 2) 1 < 16 ∧ field input (o + 3) 1 = 0 ∧ field input (o + 4) 4 < 2 ^ 22 ∧
        field input (o + 32) 8 = 0)

/-- The code of the first condition of R329 and R325 that fails. -/
def Dev.regionRefusal (d : Dev) (pool : Bool) (es : List RegionEntry) : Option Nat :=
  let named := es.filter fun e => decide (e.region < 256)
  let bound := if pool then 2 ^ 46 else 2 ^ 26
  if named.any fun e => decide (e.start % 256 ≠ 0 ∨ e.stop % 256 ≠ 0) then some rcAlignment
  else if (named.any fun e => decide (e.stop < e.start ∨ bound ≤ e.stop)) || !decide ((es.map (·.region)).Nodup) ||
      es.any fun e => decide (e.region = 256) && bit e.flags 3 then some rcInvalid
  else if named.any fun e => d.bitOf (regionRegs pool e.region).1 28 then some rcLocked
  else if d.acuOldLive then some rcBusy
  else none

/-- P_CTL or R_CTL of an entry; EN of DEF is always 1. -/
def regionCtl (e : RegionEntry) : Word :=
  let f := e.flags
  BitVec.ofNat 64 ((if bit f 0 || decide (e.region = 256) then 2 ^ 31 else 0) + (if bit f 1 then 2 ^ 30 else 0) +
    (if bit f 2 then 2 ^ 29 else 0) + (if bit f 3 then 2 ^ 28 else 0) + e.other)

/-- One entry is written into every ACU, master copies included (R325, R393); DEF has no START and END. -/
def Dev.writeRegion (d : Dev) (pool : Bool) (e : RegionEntry) : Dev :=
  let (c, m, s, t) := regionRegs pool e.region
  let d := (d.setReg c (regionCtl e)).setReg m (BitVec.ofNat 64 e.ports)
  let d := if e.region = 256 then d else (d.setReg s (BitVec.ofNat 64 e.start)).setReg t (BitVec.ofNat 64 e.stop)
  let space := if pool then 0 else 1
  { d with sec := { d.sec with masterBad := d.sec.masterBad.filter fun b => !decide (b = (space, e.region)) } }

/-- Every entry takes effect at one instant, and the epoch advances at that instant (R325). -/
def Dev.changeRules (d : Dev) (pool : Bool) (es : List RegionEntry) : Dev :=
  let d := es.foldl (fun d e => d.writeRegion pool e) d
  let d := ((d.recordLocks true).recordLocks false).showLocks
  let d := d.wr .acuStatus 31 30 (d.acuEpoch + 1)
  d.wr .acuStatus 29 29 (if d.acuOldLive then 1 else 0)

/-- Output of ACU_REGION_SET and ACU_FENCE: EPOCH and three reserved bytes. -/
def Dev.epochBytes (d : Dev) : List Byte := toBytes 1 d.acuEpoch ++ toBytes 3 0

def execAcuRegionSet (path : Path) (input : List Byte) (s : State) : Host.Outcome State Fault Refusal :=
  onDev s fun d => d.stoluo path 0xC060 false (regionSetForm input) fun d =>
    let pool := decide (field input 0 1 = 0)
    let es := regionEntries input
    match d.regionRefusal pool es with
    | some rc => d.finish path 0xC060 rc
    | none => (let d := d.changeRules pool es; d.complete path 0xC060 rcSuccess 0 d.epochBytes)

/-- ACU_FENCE: in the foreground where no access of an older epoch remains, else in the background (R326, R329). -/
def execAcuFence (path : Path) (input : List Byte) (s : State) : Host.Outcome State Fault Refusal :=
  onDev s fun d => d.stoluo path 0xC061 false input.isEmpty fun d =>
    if d.acuOldLive then
      d.background path 0xC061 fun d => { d with sec := { d.sec with fencePaths := d.sec.fencePaths ++ [path] } }
    else d.complete path 0xC061 rcSuccess 0 d.epochBytes

/-- The last access of an older epoch has ended: OLD_LIVE clears, and waiting fences end with the epoch (R324, R326). -/
def execAcuOldEpochDrained (s : State) : Host.Outcome State Fault Refusal :=
  onDev s fun d =>
    if d.acuOldLive then d
    else
      let d := d.wr .acuStatus 29 29 0
      let d := d.sec.fencePaths.foldl (fun (d : Dev) p => d.bgResult p rcSuccess d.acuEpoch) d
      { d with sec := { d.sec with fencePaths := [] } }

/-- ACU_VIOLATION_READ: a record, cleared in the same step where CLEAR asks for it (R329). -/
def execAcuViolationRead (path : Path) (input : List Byte) (s : State) : Host.Outcome State Fault Refusal :=
  onDev s fun d =>
    d.stoluo path 0xC062 false (decide (input.length = 4 ∧ field input 0 1 ≤ 16 ∧ field input 1 1 ≤ 1 ∧ field input 2 2 = 0)) fun d =>
      let v := field input 0 1
      let out := toBytes 8 (d.reg (.violAddr v)).toNat ++ toBytes 4 (d.reg (.violInfo v)).toNat ++ toBytes 4 (d.reg (.violCount v)).toNat
      let d := if field input 1 1 = 1 then d.clearViolation v else d
      d.complete path 0xC062 rcSuccess 0 out

/-! ### Debug (R343 to R346, Tables PS-15 to PS-17) -/

/-- No challenge is pending any more. -/
def Dev.dropChallenge (d : Dev) : Dev := ({ d with sec := { d.sec with challenge := none } }).wr .secStatus 25 25 0

/-- DEBUG_CHALLENGE: a nonce from the DRBG and the challenge record; it replaces a pending one. -/
def execDebugChallenge (path : Path) (input : List Byte) (s : State) : Host.Outcome State Fault Refusal :=
  onDev s fun d =>
    let level := field input 0 1
    d.stoluo path 0xC064 false (decide (input.length = 4 ∧ (level = 1 ∨ level = 2 ∨ level = 255) ∧ field input 1 3 = 0)) fun d =>
      if !d.drbgOk then d.finish path 0xC064 rcNoResource
      else
        let (nonce, d) := d.openBits 256
        let d := ({ d with sec := { d.sec with challenge := some ⟨level, nonce⟩ } }).wr .secStatus 25 25 1
        d.complete path 0xC064 rcSuccess 0 (toBytes 32 nonce.toNat ++ toBytes 16 d.sec.otp.serial.toNat ++
          toBytes 1 d.sec.otp.lifecycle ++ toBytes 1 level ++ toBytes 2 0 ++ toBytes 4 d.mgmt.fwSvn ++ toBytes 8 0)

/-- CHALLENGE_EXPIRY: 60 s after its issue (R344). -/
def execChallengeExpiry (s : State) : Host.Outcome State Fault Refusal := onDev s Dev.dropChallenge

/-- The key that Table PS-12 admits for a debug unlock in the current lifecycle state. -/
def Dev.debugKeyId (d : Dev) : Nat := if d.sec.otp.lifecycle = 0 ∨ d.sec.otp.lifecycle = 3 then 0x20 else 0x200

/-- A failed unlock: counted, and reported under source 0x2D4 (R344). -/
def Dev.unlockFails (d : Dev) (path : Path) (rc : Nat) : Dev :=
  ((d.bumpSat .secStatus 15 8 1).report 0x2D4 (openClass 344) rc).finish path 0xC065 rc

/-- Every SPDM session ends, and its secrets are erased (R332). -/
def Dev.endSessions (d : Dev) : Dev := { d with sec := { d.sec with sessions := [] } }

/-- Steps 1 to 4 of Table PS-17; the grant follows at the end of the forced revocation. -/
def Dev.enterDl2 (d : Dev) (path : Path) : Dev :=
  let d := { d with sec := { d.sec with noAdds := true, dl2Pending := some path } }
  ((d.keyvRun.zeroizeKeys).endSessions).revoke

def unlockForm (input : List Byte) : Bool := decide (input.length = 104 ∧ field input 2 6 = 0)

/-- DEBUG_UNLOCK: the pending challenge is consumed whatever comes of it (R344). -/
def execDebugUnlock (path : Path) (input : List Byte) (sigOk : Bool) (s : State) : Host.Outcome State Fault Refusal :=
  onDev s fun d => d.stoluo path 0xC065 false (unlockForm input) fun d =>
    let level := (d.sec.challenge.map (·.level)).getD 255
    let d := d.dropChallenge
    if level = 255 then d.unlockFails path rcConflict
    else if field input 0 2 ≠ d.debugKeyId then d.unlockFails path rcPermission
    else if !sigOk then d.unlockFails path rcIntegrity
    else if level = 1 then (d.grantDebug 1).finish path 0xC065 rcSuccess
    else if d.pool.revoking || d.sec.zeroize.isSome then d.finish path 0xC065 rcBusy
    else d.background path 0xC065 fun d => d.enterDl2 path

/-- Halted management cores run again and take an NMI that was held (R346, Table FI-14). -/
def Dev.releaseCores (d : Dev) : Dev :=
  if d.halted then
    let d := d.wr .secStatus 24 24 0
    if d.flt.nmiHeld then ({ d with flt := { d.flt with nmiHeld := false } }).emit (.firmware 0x201 0) else d
  else d

/-- DEBUG_LOCK: the level is DL0 at once, halted cores are released, and a pending challenge is discarded (R346). -/
def execDebugLock (path : Path) (input : List Byte) (s : State) : Host.Outcome State Fault Refusal :=
  onDev s fun d => d.stoluo path 0xC066 false input.isEmpty fun d =>
    ((d.wr .secStatus 29 28 0).releaseCores.dropChallenge).finish path 0xC066 rcSuccess

/-- JTAG_CORE_CONTROL: 0 halt, 1 step, 2 release, at DL2 only (Table PS-15). Halted cores serve nothing while traffic goes on. -/
def execJtagCoreControl (op : Fin 3) (s : State) : Host.Outcome State Fault Refusal :=
  onDev s fun d =>
    if d.debugLevel ≠ 2 then d
    else match op with
      | 0 => d.wr .secStatus 24 24 1
      | 1 => d
      | _ => d.releaseCores

/-! ### Zeroization (R347, Table PS-18) -/

/-- IDE keys are erased in every port controller (R332). -/
def Dev.eraseIdeKeys (d : Dev) : Dev :=
  let d := (d.sec.ideKeys.map (·.1.1)).dedup.foldl (fun (d : Dev) p => d.wr (.prtStatus p) 13 12 0) d
  { d with sec := { d.sec with ideKeys := [] } }

/-- A zeroization starts: keys, IDE keys and session secrets are erased, then the forced revocation runs. what is 0 for KEYS, 1 for
FULL, 2 for FULL before RMA is written, 3 where the write of RMA will fail its verification. -/
def Dev.startZeroize (d : Dev) (path : Path) (what : Nat) (readBack : Bool) : Dev :=
  let d := (d.keyvRun.wr .keyStatus 30 30 1).zeroizeKeys
  let d := d.eraseIdeKeys.endSessions
  let d := if readBack then d else d.report 0x2D1 3 what
  ({ d with sec := { d.sec with zeroize := some (what, path) } }).revoke

/-- A zeroization as a background operation; one at a time, and none while a forced revocation runs. -/
def Dev.zeroizeCommand (d : Dev) (path : Path) (opcode what : Nat) (readBack : Bool) : Dev :=
  if d.pool.revoking || d.sec.zeroize.isSome then d.finish path opcode rcBusy
  else d.background path opcode fun d => d.startZeroize path what readBack

def zeroizeForm (input : List Byte) : Bool := decide (input.length = 8 ∧ field input 1 3 = 0 ∧ field input 4 4 = 0x5A45524F)

def execZeroizeKeys (path : Path) (input : List Byte) (readBack : Bool) (s : State) : Host.Outcome State Fault Refusal :=
  onDev s fun d => d.stoluo path 0xC067 false (zeroizeForm input) fun d => d.zeroizeCommand path 0xC067 0 readBack

def execZeroizeFull (path : Path) (input : List Byte) (readBack : Bool) (s : State) : Host.Outcome State Fault Refusal :=
  onDev s fun d => d.stoluo path 0xC067 false (zeroizeForm input) fun d =>
    if d.sec.otp.lifecycle = 3 then d.zeroizeCommand path 0xC067 1 readBack else d.finish path 0xC067 rcLocked

/-- Whether a register is a region's. -/
def isRegionReg : Reg → Bool
  | .pStart _ | .pEnd _ | .pPorts _ | .pCtl _ | .rStart _ | .rEnd _ | .rPorts _ | .rCtl _ => true
  | _ => false

/-- The ACU regions return to the ACCESS section, without locks. -/
def Dev.accessRegions (d : Dev) : Dev :=
  let d := d.resetRegs isRegionReg
  let images := ((d.mgmt.bcb.map (·.registers)).getD []).filter fun x => ((mgmtRegAt 0 x.1).map isRegionReg).getD false
  let d := images.foldl Dev.loadImage d
  let d := (List.range 256).foldl (fun (d : Dev) i =>
    let d := if d.bitOf (.pCtl i) 28 then d.wr (.pCtl i) 28 28 0 else d
    if d.bitOf (.rCtl i) 28 then d.wr (.rCtl i) 28 28 0 else d) d
  d.showLocks

/-- The items of the FULL column that follow the revocation. -/
def Dev.fullErase (d : Dev) : Dev :=
  let d := { d with
    pool := { d.pool with blocks := ⟨[], []⟩, slots := ⟨[], []⟩, slotCache := [], blockCache := [] }
    dir := { d.dir with entries := [], mru := [] }
    svc := { d.svc with queues := [] }
    sec := { d.sec with lockRecord := .empty _, masterBad := [] } }
  (List.range 17).foldl Dev.clearViolation d.accessRegions

/-- The lifecycle state is written to OTP. -/
def Dev.setLifecycle (d : Dev) (n : Nat) : Dev :=
  ({ d with sec := { d.sec with otp := { d.sec.otp with lifecycle := n } } }).wr .secStatus 31 30 n

/-- The end of FULL: what remains is erased, RMA is written where asked for, the operation reports, and firmware ends with a warm
reset (R335, R347). -/
def Dev.fullEnds (d : Dev) (path : Path) (what : Nat) : Dev :=
  let d := d.fullErase
  let d := if what = 2 then d.setLifecycle 3
    else if what = 3 then (d.bgResult path rcIntegrity 0).report 0x2D3 (openClass 335) 3 else d
  let d := (d.bgEnd path).wr .keyStatus 30 30 0
  ({ d with sec := { d.sec with zeroize := none } }).warmReset.warmEnd

/-- BACKGROUND_OPERATION_END: an operation whose final codes are known ends (R286). -/
def execBackgroundOperationEnd (path : Path) (s : State) : Host.Outcome State Fault Refusal :=
  onDev s fun d =>
    match tget d.mgmt.bg path with
    | some ⟨_, some _⟩ =>
      if !d.serves path 0 || d.inWindow then d
      else match d.sec.zeroize with
        | some (what, p) => if p = path ∧ what ≠ 0 then d.fullEnds path what else d.bgEnd path
        | none => d.bgEnd path
    | _ => d

/-! ### Lifecycle (R335, Tables PS-10 and PS-11) -/

def lifecycleForm (input : List Byte) (len : Nat) : Bool :=
  decide (input.length = len ∧ field input 1 3 = 0 ∧ field input 4 4 = 0x5345434C)

/-- A transition: LOCKED where Table PS-10 does not list it, STATE_CONFLICT above DL0, then its own conditions. -/
def Dev.transition (d : Dev) (path : Path) (listed : Bool) (body : Dev → Dev) : Dev :=
  if !listed then d.finish path 0xC063 rcLocked
  else if d.debugLevel ≠ 0 then d.finish path 0xC063 rcConflict
  else body d

/-- OTP takes a transition, or its verification fails: INTEGRITY, the state unchanged, source 0x2D3 raised. -/
def Dev.otpTransition (d : Dev) (path : Path) (n : Nat) (otpOk : Bool) (keys : Otp → Otp) : Dev :=
  if otpOk then
    d.bgWith path 0xC063 rcSuccess 0 fun d =>
      ({ d with sec := { d.sec with otp := keys d.sec.otp } }).setLifecycle n
  else d.bgWith path 0xC063 rcIntegrity 0 fun d => d.report 0x2D3 (openClass 335) n

def execLifecycleSetProvisioned (path : Path) (input : List Byte) (otpOk : Bool) (s : State) : Host.Outcome State Fault Refusal :=
  onDev s fun d => d.stoluo path 0xC063 false (lifecycleForm input 112 && decide (field input 106 6 = 0)) fun d =>
    d.transition path (decide (d.sec.otp.lifecycle = 0)) fun d =>
      d.otpTransition path 1 otpOk fun o => { o with bcbKey := Machine.slice input 8 49, debugKey := Machine.slice input 57 49 }

/-- KEY_ID of the image of the BCB in force. -/
def Dev.bcbKeyId (d : Dev) : Nat :=
  ((tget d.mgmt.flash (3, tgetD d.mgmt.inUse 3 0)).map (·.keyId)).getD 0

def execLifecycleSetDeployed (path : Path) (input : List Byte) (otpOk : Bool) (s : State) : Host.Outcome State Fault Refusal :=
  onDev s fun d => d.stoluo path 0xC063 false (lifecycleForm input 8) fun d =>
    d.transition path (decide (d.sec.otp.lifecycle = 1)) fun d =>
      if d.bcbKeyId ≠ 0x100 || d.anyBound then d.finish path 0xC063 rcConflict
      else d.otpTransition path 2 otpOk id

/-- The key of the RMA token: the Rolkuco debug key in BLANK, else the owner's (Table PS-10). -/
def Dev.tokenKeyId (d : Dev) : Nat := if d.sec.otp.lifecycle = 0 then 0x20 else 0x200

/-- RMA: a token over the pending challenge of LEVEL 0xFF, which it consumes; then a FULL zeroization, then the write. -/
def execLifecycleSetRma (path : Path) (input : List Byte) (sigOk otpOk : Bool) (s : State) : Host.Outcome State Fault Refusal :=
  onDev s fun d => d.stoluo path 0xC063 false (lifecycleForm input 112 && decide (field input 10 6 = 0)) fun d =>
    d.transition path (decide (d.sec.otp.lifecycle < 3)) fun d =>
      if (d.sec.challenge.map (·.level)) ≠ some 255 then d.finish path 0xC063 rcConflict
      else
        let d := d.dropChallenge
        if field input 8 2 ≠ d.tokenKeyId then d.finish path 0xC063 rcPermission
        else if !sigOk then d.finish path 0xC063 rcIntegrity
        else d.zeroizeCommand path 0xC063 (if otpOk then 2 else 3) true

/-! ### The DRBG (R330) -/

/-- DRBG_HEALTH_FAILURE: the DRBG stops, and nothing is generated until a start-up test passes. -/
def execDrbgHealthFailure (s : State) : Host.Outcome State Fault Refusal :=
  onDev s fun d => if d.drbgOk then (d.wr .keyStatus 31 31 0).report 0x2D2 (openClass 330) 1 else d

/-- DRBG_STARTUP_RETRY: a pass seeds the DRBG again; a Domain 0 without a key gets one. -/
def execDrbgStartupRetry (pass : Bool) (s : State) : Host.Outcome State Fault Refusal :=
  onDev s fun d =>
    if d.drbgOk || d.mgmt.coldHeld || decide (2 < d.domState domKeyv) || !pass then d
    else
      let d := d.wr .keyStatus 31 31 1
      if d.pool.revoking then d else d.rekeyZero

end Sys2Proof.Machine
end

