-- ==== Sys2Proof/Machine/Spdm.lean ====
section
/-! DEFINITION. The SPDM responder and IDE key setup (R223, R332, R340 to R342). What an answer carries beyond this specification's
own contents is SPDM's, and appears as open bytes (log entry 21). -/

namespace Sys2Proof.Machine

/-! ### Answers -/

/-- Whether the responder answers on a transport: DOE on function 0 of a HOST port, or MCTP (R340). -/
def Dev.spdmUp (d : Dev) (path : Path) : Bool :=
  d.sec.aliasHeld && !d.mgmt.coldHeld && !d.mgmt.warmHeld && decide (d.domState domMgt ≤ 2) && (match path with
    | .pool p => decide (d.portMode p = 1)
    | .mctp _ => d.busUp && d.mgmt.fwUp && !d.halted
    | _ => false)

/-- A response with an SPDM code; the own bytes of the next response are other open ones. -/
def Dev.spdmAnswer (d : Dev) (path : Path) (code : Nat) (out : List Byte) : Dev :=
  { d.emit (.spdm path code out) with free := d.free + 1 }

/-- An ERROR response with SPDM's error code. -/
def Dev.spdmError (d : Dev) (path : Path) (err : Nat) : Dev := d.emit (.spdm path 0x7F (toBytes 1 err))

/-- How far the exchange of a transport has come: 1 version, 2 capabilities, 3 algorithms. -/
def Dev.conn (d : Dev) (path : Path) : Nat := tgetD d.sec.conns path 0

def Dev.setConn (d : Dev) (path : Path) (n : Nat) : Dev := { d with sec := { d.sec with conns := tset d.sec.conns path n } }

/-- A request that needs the exchange to have come to a stage; one out of order is answered with UnexpectedRequest. -/
def Dev.spdmRequest (d : Dev) (path : Path) (stage : Nat) (body : Dev → Dev) : Dev :=
  if !d.spdmUp path then d else if d.conn path < stage then d.spdmError path 4 else body d

/-- Bytes that are SPDM's own: nonces, signatures, framing. -/
def Dev.spdmBytes (d : Dev) (n : Nat) : List Byte := (List.range n).map (Config.standardByte (0x10000 + d.free))

/-! ### The exchange -/

def execGetVersion (path : Path) (s : State) : Host.Outcome State Fault Refusal :=
  onDev s fun d => d.spdmRequest path 0 fun d => (d.setConn path 1).spdmAnswer path 0x84 (toBytes 1 0x13)

/-- The flags of the capabilities that Table PS-13 lists, and of no other (R2): certificates, challenges, signed measurements, encryption
and authentication of messages, key exchange, heartbeat, key update and an alias certificate (R341). Their places are those of SPDM 1.3
(PRESUMED, log entry 66). -/
def spdmFlags : Nat := 2 ^ 1 + 2 ^ 2 + 2 ^ 4 + 2 ^ 6 + 2 ^ 7 + 2 ^ 9 + 2 ^ 13 + 2 ^ 14 + 2 ^ 18

/-- What CAPABILITIES carries after its header: the flags stand in bytes 4 to 7. -/
def Dev.capabilityBytes (d : Dev) : List Byte := (d.spdmBytes 16).take 4 ++ toBytes 4 spdmFlags ++ (d.spdmBytes 16).drop 8

def execGetCapabilities (path : Path) (s : State) : Host.Outcome State Fault Refusal :=
  onDev s fun d => d.spdmRequest path 1 fun d => (d.setConn path 2).spdmAnswer path 0xE1 d.capabilityBytes

/-- The algorithms of Table PS-13 are selected where the requester offers them. -/
def execNegotiateAlgorithms (path : Path) (offersSubset : Bool) (s : State) : Host.Outcome State Fault Refusal :=
  onDev s fun d => d.spdmRequest path 2 fun d =>
    if offersSubset then (d.setConn path 3).spdmAnswer path 0xE3 (d.spdmBytes 32) else d.spdmError path 1

/-! ### Certificates (R341) -/

/-- A byte of the slot 0 chain: in RMA the identity is another, and the alias certificate binds measurement 2. -/
def Dev.chainByte (d : Dev) (i : Nat) : Byte :=
  let rma := if d.sec.otp.lifecycle = 3 then 1 else 0
  Config.certificateByte (i + 65536 * (rma + 2 * (tgetD d.mgmt.measured 2 0).toNat))

def execGetDigests (path : Path) (s : State) : Host.Outcome State Fault Refusal :=
  onDev s fun d => d.spdmRequest path 3 fun d => d.spdmAnswer path 0x81 (toBytes 1 1 ++ d.spdmBytes 48)

/-- GET_CERTIFICATE: slot 0 is the only one. -/
def execGetCertificate (path : Path) (slot offset length : Nat) (s : State) : Host.Outcome State Fault Refusal :=
  onDev s fun d => d.spdmRequest path 3 fun d =>
    if slot ≠ 0 ∨ 65536 ≤ offset then d.spdmError path 1
    else d.spdmAnswer path 0x82 ((List.range (min length (65536 - offset))).map fun i => d.chainByte (offset + i))

/-- CHALLENGE: signed with the alias key over a nonce of the DRBG. -/
def execChallenge (path : Path) (slot : Nat) (s : State) : Host.Outcome State Fault Refusal :=
  onDev s fun d => d.spdmRequest path 3 fun d =>
    if slot ≠ 0 then d.spdmError path 1
    else if !d.drbgOk then d.spdmError path 5
    else d.spdmAnswer path 0x83 (d.spdmBytes 176)

/-! ### Measurements (R342, Table PS-14) -/

/-- A digest as 48 bytes. -/
def digestBytes (h : BitVec 384) : List Byte := toBytes 48 h.toNat

/-- One region of the lock record as the digest takes it (log entry 54). -/
def lockBytes (x : LockedRegion) : List Byte :=
  toBytes 1 x.space ++ toBytes 2 x.index ++ toBytes 4 x.ctl.toNat ++ toBytes 8 x.start.toNat ++ toBytes 8 x.stop.toNat ++
    toBytes 8 x.ports.toNat

/-- The lock record's regions in region order, the pool space first. -/
def Dev.locksInOrder (d : Dev) : List LockedRegion :=
  let live := d.sec.lockRecord.live 1 d.flt.diesOut
  (List.range 512).filterMap fun k => live.find? fun x => decide (256 * x.space + x.index = k)

/-- The content of a measurement. -/
def Dev.measurement (d : Dev) (i : Nat) : List Byte :=
  match i with
  | 1 => (List.range 48).map fun k => Config.certificateByte (2 ^ 512 + k)
  | 4 => toBytes 4 d.mgmt.fwVersion ++ toBytes 4 d.mgmt.fwSvn ++ ((List.range 4).map fun t => BitVec.ofNat 8 (d.rollback (t + 1))) ++
      toBytes 1 (((List.range 4).filter fun k => d.sec.otp.revoked.getD k false).map (2 ^ ·)).sum
  | 8 => toBytes 1 d.sec.otp.lifecycle ++ toBytes 1 d.debugLevel ++ toBytes 1 (d.rd .secStatus 27 26) ++
      toBytes 1 (d.rd .secStatus 23 23 + 2 * d.rd .secStatus 22 21)
  | 9 => digestBytes (Config.sha384 ((d.locksInOrder.map lockBytes).flatten))
  | k => digestBytes (tgetD d.mgmt.measured k 0)

/-- One block: its index and its content. -/
def Dev.measurementBlock (d : Dev) (i : Nat) : List Byte := toBytes 1 i ++ d.measurement i

/-- GET_MEASUREMENTS: index 0 asks for the number of blocks, 0xFF for all of them. -/
def execGetMeasurements (path : Path) (index : BitVec 8) (signed : Bool) (s : State) : Host.Outcome State Fault Refusal :=
  onDev s fun d => d.spdmRequest path 3 fun d =>
    let i := index.toNat
    if signed && !d.drbgOk then d.spdmError path 5
    else
      let sig := if signed then d.spdmBytes 128 else []
      if i = 0 then d.spdmAnswer path 0xE0 (toBytes 1 9 ++ sig)
      else if i = 255 then d.spdmAnswer path 0xE0 (((List.range 9).map fun k => d.measurementBlock (k + 1)).flatten ++ sig)
      else if i ≤ 9 then d.spdmAnswer path 0xE0 (d.measurementBlock i ++ sig)
      else d.spdmError path 1

/-! ### Sessions -/

/-- Whether a transport may open one more session: 1 per HOST port, 4 on MCTP (Table PS-13). -/
def Dev.sessionFree (d : Dev) (path : Path) : Bool :=
  match path with
  | .mctp _ => decide ((d.sec.sessions.filter fun x => match x.path with
    | .mctp _ => true
    | _ => false).length < 4)
  | p => !(d.sec.sessions.any fun x => decide (x.path = p))

/-- A session of a transport. -/
def Dev.session? (d : Dev) (path : Path) (id : Nat) : Option SpdmSession :=
  d.sec.sessions.find? fun x => decide (x.id = id ∧ x.path = path)

def Dev.modSession (d : Dev) (id : Nat) (f : SpdmSession → SpdmSession) : Dev :=
  { d with sec := { d.sec with sessions := d.sec.sessions.map fun x => if x.id = id then f x else x } }

/-- A session ends, and its secrets are erased (R332). -/
def Dev.dropSession (d : Dev) (id : Nat) : Dev :=
  { d with sec := { d.sec with sessions := d.sec.sessions.filter fun x => !decide (x.id = id) } }

/-- KEY_EXCHANGE over secp384r1: a session opens, to be completed by FINISH. -/
def execKeyExchange (path : Path) (slot : Nat) (s : State) : Host.Outcome State Fault Refusal :=
  onDev s fun d => d.spdmRequest path 3 fun d =>
    if slot ≠ 0 then d.spdmError path 1
    else if !d.sessionFree path then d.spdmError path 10
    else if !d.drbgOk then d.spdmError path 5
    else
      let id := d.sec.sessionNext
      let x : SpdmSession := ⟨id, path, false, 0⟩
      let d := { d with sec := { d.sec with sessions := d.sec.sessions ++ [x], sessionNext := id + 1 } }
      d.spdmAnswer path 0xE4 (toBytes 4 id ++ d.spdmBytes 272)

/-- A request inside a session whose set-up is complete. -/
def Dev.inSession (d : Dev) (path : Path) (id : Nat) (body : Dev → Dev) : Dev :=
  d.spdmRequest path 3 fun d =>
    match d.session? path id with
    | some x => if x.finished then body d else d.spdmError path 4
    | none => d.spdmError path 2

/-- FINISH: the session's set-up completes, or a message that does not verify ends it. -/
def execFinish (path : Path) (session : Nat) (verifies : Bool) (s : State) : Host.Outcome State Fault Refusal :=
  onDev s fun d => d.spdmRequest path 3 fun d =>
    match d.session? path session with
    | none => d.spdmError path 2
    | some x =>
      if x.finished then d.spdmError path 4
      else if verifies then (d.modSession session fun x => { x with finished := true }).spdmAnswer path 0xE5 []
      else (d.dropSession session).spdmError path 6

def execKeyUpdate (path : Path) (session : Nat) (s : State) : Host.Outcome State Fault Refusal :=
  onDev s fun d => d.inSession path session fun d =>
    (d.modSession session fun x => { x with keyGen := x.keyGen + 1 }).spdmAnswer path 0xE9 []

def execHeartbeat (path : Path) (session : Nat) (s : State) : Host.Outcome State Fault Refusal :=
  onDev s fun d => d.inSession path session fun d => d.spdmAnswer path 0xE8 []

def execEndSession (path : Path) (session : Nat) (s : State) : Host.Outcome State Fault Refusal :=
  onDev s fun d => d.inSession path session fun d => (d.dropSession session).spdmAnswer path 0xEC []

/-! ### IDE (R223, Table CP-11) -/

/-- IDE_KM: inside the session that the host of a HOST port has opened, the keys of a key set are set; link IDE is then active, and
with 256-byte flits CXL IDE. -/
def execIdeKm (path : Path) (session keySet : Nat) (s : State) : Host.Outcome State Fault Refusal :=
  onDev s fun d => d.inSession path session fun d =>
    match path with
    | .pool p =>
      if d.portState p ≠ 5 then d.spdmError path 4
      else
        let keys := tset d.sec.ideKeys (p.val, keySet) (((tget d.sec.ideKeys (p.val, keySet)).getD 0) + 1)
        let d := ({ d with sec := { d.sec with ideKeys := keys } }).wr (.prtStatus p) 13 13 1
        (if d.bitOf (.prtStatus p) 15 then d.wr (.prtStatus p) 12 12 1 else d).spdmAnswer path 0xFE (toBytes 1 keySet)
    | _ => d.spdmError path 7

end Sys2Proof.Machine
end

