-- ==== Sys2Proof/Machine/Telemetry.lean ====
section
/-! DEFINITION. Performance counters, snapshots, the latency sampler, and temperature (R403 to R415, R459 to R461). -/

namespace Sys2Proof.Machine

/-! ### Counters (R405 to R407) -/

/-- COUNTER_WRAP: a counter passes its end and wraps to the remainder; counter 8 is the cycle counter, which wraps at 2^64 and sets
CYC_OVF. A PMU whose domain does not count, and a programmable counter that is stopped, does not wrap. -/
def execCounterWrap (u : Fin 37) (counter : Fin 9) (rest : BitVec 48) (s : State) : Host.Outcome State Fault Refusal :=
  onDev s fun d =>
    if 2 ≤ d.heldState (pmuHeld u) then d
    else if counter.val = 8 then (d.setReg (.pmcCycles u) (BitVec.ofNat 64 rest.toNat)).wr (.pmcStatus u) 16 16 1
    else
      let i := counter.val
      let e := d.reg (.pmcEvsel u i)
      if getBits e 63 63 = 1 ∧ !d.bitOf .pmcGlbCtl 31 ∧ pmuServes u (getBits e 15 0) then
        d.addCounter u i (2 ^ 48 - (d.reg (.pmcCnt u i)).toNat % 2 ^ 48 + rest.toNat)
      else d

/-! ### Snapshots (R411) -/

/-- A PMU copies its counters; one in Deep or Off copies zeros and sets LOST. -/
def Dev.snapPmu (d : Dev) (u : Nat) : Dev :=
  let off := decide (3 ≤ d.heldState (pmuHeld u))
  let d := d.setReg (.pmcSnapCycles u) (if off then 0 else d.reg (.pmcCycles u))
  let d := (List.range 8).foldl (fun (d : Dev) i => d.setReg (.pmcSnapCnt u i) (if off then 0 else d.reg (.pmcCnt u i))) d
  if off then d.wr (.pmcStatus u) 18 18 1 else d

/-- SNAPSHOT_TAKEN: at the clock edge after a write of SNAP the fabric time and every PMU's counters are copied. -/
def execSnapshotTaken (s : State) : Host.Outcome State Fault Refusal :=
  onDev s fun d =>
    if d.bitOf .pmcGlbCtl 29 then
      ((List.range 37).foldl Dev.snapPmu (d.setReg .pmcSnapFtime (d.reg .ftime))).wr .pmcGlbCtl 29 29 0
    else d

/-! ### The latency sampler (R412 to R415) -/

/-- The queue that a slot watches: the messages in it, and the key of its head time; none where the slot selects nothing (R412). -/
def Dev.slotQueue (d : Dev) (cfg : Word) : Option (List Msg × (Egress × Nat × Nat)) :=
  let port := getBits cfg 60 54
  let cls := getBits cfg 53 52
  let host := getBits cfg 51 45
  let at_ (e : Egress) (c : Nat) : List Msg := d.sw.msgs.filter fun m => decide (m.dest = e ∧ classCode m.cls = c)
  match getBits cfg 62 61 with
  | 0 => if h : port < 64 then
      (if d.portMode port = 0 then none else some (at_ (.port ⟨port, h⟩) cls, (.port ⟨port, h⟩, cls, 0))) else none
  | 1 => if h : port < 16 then
      (if d.linkState port = 2 then some (at_ (.link ⟨port, h⟩) cls, (.link ⟨port, h⟩, cls, 0)) else none) else none
  | 2 => if h : port < 64 then
      (if d.portMode port = 2 ∧ host ≤ 80 then
        some ((at_ (.port ⟨port, h⟩) 0).filter fun m => decide (m.hostQueue = host), (.port ⟨port, h⟩, 0, 1 + host)) else none) else none
  | _ => none

/-- The bin of a value over a base; a base of 0 acts as 1 (R414). -/
def histBin (base v : Nat) : Nat :=
  let b := max 1 base
  ((List.range 15).filter fun k => decide (b * 2 ^ k ≤ v)).length

/-- One sample of a slot: depth in cells, and the time that the head has been at the head, in the active bank. -/
def Dev.sampleSlot (d : Dev) (i : Nat) (cfg : Word) : Dev :=
  match d.slotQueue cfg with
  | none => d
  | some (msgs, key) =>
    let depth := (msgs.map (·.cells)).sum
    let delay := if msgs.isEmpty then 0 else d.now - tgetD d.sw.headAt key d.now
    let k := d.rd .tlsCtl 28 28
    let d := d.bumpSat (.tlsHist i k 0 (histBin (getBits cfg 15 0) depth)) 31 0 1
    d.bumpSat (.tlsHist i k 1 (histBin (getBits cfg 31 16) delay)) 31 0 1

/-- A pending swap: the banks change places, the new bank is cleared, and new slot configurations take force (R415). -/
def Dev.flipBanks (d : Dev) : Dev :=
  let k := 1 - d.rd .tlsCtl 28 28
  let d := d.resetRegs fun r => match r with
    | .tlsHist _ b _ _ => decide (b = k)
    | _ => false
  let force := (List.range 256).filterMap fun i =>
    if d.reg (.tlsSlotCfg i) = 0 then none else some (i, d.reg (.tlsSlotCfg i))
  ({ d with tel := { d.tel with tlsForce := force } }).wr .tlsCtl 28 28 k |>.wr .tlsCtl 29 29 0

/-- TLS_SAMPLE: the fabric time is a multiple of the period; a pending swap comes first, then each enabled slot samples. -/
def execTlsSample (s : State) : Host.Outcome State Fault Refusal :=
  onDev s fun d =>
    if !d.bitOf .tlsCtl 31 then d
    else
      let d := if d.bitOf .tlsCtl 29 then d.flipBanks else d
      d.tel.tlsForce.foldl (fun (d : Dev) x => if getBits x.2 63 63 = 1 then d.sampleSlot x.1 x.2 else d) d

/-! ### Temperature (R459, R460, Tables ET-9 and ET-10) -/

/-- The Carillon source of a die's temperature: port die p, or 4 for the core die. -/
def tempSource (die : Nat) : Nat := if die = 4 then 0x38B else 0x243 + 16 * die

def Dev.setTemp (d : Dev) (die : Nat) (t : Temp) : Dev := { d with pwr := { d.pwr with temps := tset d.pwr.temps die t } }

/-- TEMPERATURE_THRESHOLD: a die's reading has reached or left a threshold: events at 95, 100 and 110 °C, the core die's throttle
from 100 °C until below 97 °C. After a thermal trip a boot waits for the dies to cool. -/
def execTemperatureThreshold (die : Fin 5) (reading : Nat) (s : State) : Host.Outcome State Fault Refusal :=
  onDev s fun d =>
    let t := d.temp die
    let hot := decide (110 ≤ reading)
    let throttle := decide (100 ≤ reading) || (t.throttle && decide (97 ≤ reading))
    let warned := decide (95 ≤ reading) || (t.warned && decide (92 ≤ reading))
    let d' := d.setTemp die ⟨reading, warned, throttle, hot⟩
    if d.mgmt.coldHeld then d'.releaseCold true true
    else if hot && !t.hot then d'.report (tempSource die) 3 reading
    else if (throttle && !t.throttle) || (warned && !t.warned) then d'.report (tempSource die) 1 reading
    else d'

/-- A thermal trip: everything but the AO island loses power and stays in cold reset, FAULT_B is held low, and the fault log
takes the trip under the die's source (R460). -/
def Dev.thermalTrip (d : Dev) (die reading : Nat) : Dev :=
  let d := d.setTemp die ⟨reading, true, true, true⟩
  let cls := openClass 460
  let x : FaultRec :=
    { seq := 0, ftime := d.now, source := tempSource die, cls := cls, sev := d.severity (tempSource die) cls, wire := false, test := 0
      retired := false, react := 0, count := 1, detail := reading }
  let d := (d.writeFault x).coldReset
  ({ d with
    mgmt := { d.mgmt with tripHeld := true }
    pwr := { d.pwr with tripOver := !d.mgmt.porst } }).showFaults

/-- THERMAL_TRIP: a reading of 120 °C or above. -/
def execThermalTrip (die : Fin 5) (reading : Nat) (s : State) : Host.Outcome State Fault Refusal :=
  onDev s fun d => if 120 ≤ reading then d.thermalTrip die reading else d

end Sys2Proof.Machine
end

