-- ==== Sys2Proof/Machine/Dispatch.lean ====
section
/-! DEFINITION. One arm for each command: a direct call of its meaning, or its rejection by name. -/

namespace Sys2Proof.Machine

def exec (i : Instr) (s : State) : Host.Outcome State Fault Refusal :=
  match i with
  | .registerWrite who addr width v => Sys2Proof.Machine.execRegisterWrite who addr width v s
  | .porstBFall => Sys2Proof.Machine.execPorstBFall s
  | .coldResetRelease straps found entropyOk trialStarts => Sys2Proof.Machine.execColdResetRelease straps found entropyOk trialStarts s
  | .wrstBFall => Sys2Proof.Machine.execWrstBFall s
  | .wrstBRise => Sys2Proof.Machine.execWrstBRise s
  | .bootTrialTimeout => Sys2Proof.Machine.execBootTrialTimeout s
  | .poolRequestIngress p dpa op txn data mask poisoned => Sys2Proof.Machine.execPoolRequestIngress p dpa op txn data mask poisoned s
  | .homeReadShared req => Sys2Proof.Machine.execHomeReadShared req s
  | .homeReadExclusive req => Sys2Proof.Machine.execHomeReadExclusive req s
  | .homeReadCurrent req => Sys2Proof.Machine.execHomeReadCurrent req s
  | .homeWrite req => Sys2Proof.Machine.execHomeWrite req s
  | .homePartialWrite req => Sys2Proof.Machine.execHomePartialWrite req s
  | .homeWriteBack req => Sys2Proof.Machine.execHomeWriteBack req s
  | .neighbourRelease req lines => Sys2Proof.Machine.execNeighbourRelease req lines s
  | .takeX req => Sys2Proof.Machine.execTakeX req s
  | .releaseX who granule => Sys2Proof.Machine.execReleaseX who granule s
  | .integrityRecoveryDone granule => Sys2Proof.Machine.execIntegrityRecoveryDone granule s
  | .expanderReadResponse op status => Sys2Proof.Machine.execExpanderReadResponse op status s
  | .expanderWriteCompletion op => Sys2Proof.Machine.execExpanderWriteCompletion op s
  | .expanderWriteFailure op => Sys2Proof.Machine.execExpanderWriteFailure op s
  | .conflictEntryRetire granule => Sys2Proof.Machine.execConflictEntryRetire granule s
  | .grantReceived granule => Sys2Proof.Machine.execGrantReceived granule s
  | .ingressResend group slice => Sys2Proof.Machine.execIngressResend group slice s
  | .passThroughRequest host p kind credit length txn => Sys2Proof.Machine.execPassThroughRequest host p kind credit length txn s
  | .lockedRequest p fn tag => Sys2Proof.Machine.execLockedRequest p fn tag s
  | .configRequest p fn tag => Sys2Proof.Machine.execConfigRequest p fn tag s
  | .birspReceived who line answer => Sys2Proof.Machine.execBirspReceived who line answer s
  | .biconflict p line => Sys2Proof.Machine.execBiconflict p line s
  | .bisnpTimeout p granule => Sys2Proof.Machine.execBisnpTimeout p granule s
  | .extendedBisnpTimeout p line => Sys2Proof.Machine.execExtendedBisnpTimeout p line s
  | .neighbourSnoopTimeout n line => Sys2Proof.Machine.execNeighbourSnoopTimeout n line s
  | .neighbourSnoopAtProxy src tag kind line => Sys2Proof.Machine.execNeighbourSnoopAtProxy src tag kind line s
  | .proxyForwardRead kind req => Sys2Proof.Machine.execProxyForwardRead kind req s
  | .proxyDataReceived words => Sys2Proof.Machine.execProxyDataReceived words s
  | .victimEntryFreed granule => Sys2Proof.Machine.execVictimEntryFreed granule s
  | .agentDeathDeclared who cause => Sys2Proof.Machine.execAgentDeathDeclared who cause s
  | .reclaimSweepDone who slice => Sys2Proof.Machine.execReclaimSweepDone who slice s
  | .dirBiTimeoutWrite t v => Sys2Proof.Machine.execDirBiTimeoutWrite t v s
  | .ingressMessage entity dest cls kind credit txn length cost raw => Sys2Proof.Machine.execIngressMessage entity dest cls kind credit txn length cost raw s
  | .egressGrant egress credits => Sys2Proof.Machine.execEgressGrant egress credits s
  | .ageDiscard id => Sys2Proof.Machine.execAgeDiscard id s
  | .hubQuarterNap q => Sys2Proof.Machine.execHubQuarterNap q s
  | .hubQuarterLost q => Sys2Proof.Machine.execHubQuarterLost q s
  | .glbAgeLimitWrite v => Sys2Proof.Machine.execGlbAgeLimitWrite v s
  | .peakBucketRelease id => Sys2Proof.Machine.execPeakBucketRelease id s
  | .gateIntervalEnd egress => Sys2Proof.Machine.execGateIntervalEnd egress s
  | .gateCycleStart egress => Sys2Proof.Machine.execGateCycleStart egress s
  | .gclSwap egress => Sys2Proof.Machine.execGclSwap egress s
  | .mirCtlWrite session v => Sys2Proof.Machine.execMirCtlWrite session v s
  | .mirrorCellWaitExpiry session => Sys2Proof.Machine.execMirrorCellWaitExpiry session s
  | .mirrorRecordSend session => Sys2Proof.Machine.execMirrorRecordSend session s
  | .ringEnable p index ring => Sys2Proof.Machine.execRingEnable p index ring s
  | .ringDisable p index ring => Sys2Proof.Machine.execRingDisable p index ring s
  | .ringPollSample slice ring => Sys2Proof.Machine.execRingPollSample slice ring s
  | .submissionFetched slice ring => Sys2Proof.Machine.execSubmissionFetched slice ring s
  | .fencedSubmissionStart slice ring => Sys2Proof.Machine.execFencedSubmissionStart slice ring s
  | .completionWrite slice ring index => Sys2Proof.Machine.execCompletionWrite slice ring index s
  | .completionWriteAccepted slice ring index => Sys2Proof.Machine.execCompletionWriteAccepted slice ring index s
  | .completionWriteFailed slice ring index => Sys2Proof.Machine.execCompletionWriteFailed slice ring index s
  | .cqCiWrite p index ring v => Sys2Proof.Machine.execCqCiWrite p index ring v s
  | .flrServiceFunction p => Sys2Proof.Machine.execFlrServiceFunction p s
  | .nop slice ring index => Sys2Proof.Machine.execNop slice ring index s
  | .emLookup slice ring index => Sys2Proof.Machine.execEmLookup slice ring index s
  | .lpmLookup slice ring index => Sys2Proof.Machine.execLpmLookup slice ring index s
  | .lookupBatch slice ring index => Sys2Proof.Machine.execLookupBatch slice ring index s
  | .qsInit slice ring index => Sys2Proof.Machine.execQsInit slice ring index s
  | .cellPool slice ring index => Sys2Proof.Machine.execCellPool slice ring index s
  | .nodeSet slice ring index => Sys2Proof.Machine.execNodeSet slice ring index s
  | .queueSet slice ring index => Sys2Proof.Machine.execQueueSet slice ring index s
  | .gateSet slice ring index => Sys2Proof.Machine.execGateSet slice ring index s
  | .enqueue slice ring index => Sys2Proof.Machine.execEnqueue slice ring index s
  | .enqueueCommit slice ring index => Sys2Proof.Machine.execEnqueueCommit slice ring index s
  | .dequeue slice ring index => Sys2Proof.Machine.execDequeue slice ring index s
  | .dequeueCopyDone slice ring index => Sys2Proof.Machine.execDequeueCopyDone slice ring index s
  | .queueQuery slice ring index => Sys2Proof.Machine.execQueueQuery slice ring index s
  | .queueFlush slice ring index => Sys2Proof.Machine.execQueueFlush slice ring index s
  | .queueAgeVisit slice queue => Sys2Proof.Machine.execQueueAgeVisit slice queue s
  | .engineLostReexecute slice ring index => Sys2Proof.Machine.execEngineLostReexecute slice ring index s
  | .serviceImageEngineMove e => Sys2Proof.Machine.execServiceImageEngineMove e s
  | .quotaDrainDone slice => Sys2Proof.Machine.execQuotaDrainDone slice s
  | .quotaDrainTimeout slice => Sys2Proof.Machine.execQuotaDrainTimeout slice s
  | .dmvArm c => Sys2Proof.Machine.execDmvArm c s
  | .dmvDisarm c => Sys2Proof.Machine.execDmvDisarm c s
  | .dmvAbort c => Sys2Proof.Machine.execDmvAbort c s
  | .dmvAck c => Sys2Proof.Machine.execDmvAck c s
  | .dmvHoldGranted c => Sys2Proof.Machine.execDmvHoldGranted c s
  | .dmvBurstDone c => Sys2Proof.Machine.execDmvBurstDone c s
  | .dmvTransferComplete c => Sys2Proof.Machine.execDmvTransferComplete c s
  | .dmvAbortDrained c => Sys2Proof.Machine.execDmvAbortDrained c s
  | .dmvLineFailure c offset write cause => Sys2Proof.Machine.execDmvLineFailure c offset write cause s
  | .dmvHaltedDrained c => Sys2Proof.Machine.execDmvHaltedDrained c s
  | .dmvChannelRetired c => Sys2Proof.Machine.execDmvChannelRetired c s
  | .dirtyEnable p index v => Sys2Proof.Machine.execDirtyEnable p index v s
  | .dirtyDisable p index v => Sys2Proof.Machine.execDirtyDisable p index v s
  | .dirtySwap p index v => Sys2Proof.Machine.execDirtySwap p index v s
  | .dirtySwapComplete slice => Sys2Proof.Machine.execDirtySwapComplete slice s
  | .portStartCondition p => Sys2Proof.Machine.execPortStartCondition p s
  | .portPowerElapsed p => Sys2Proof.Machine.execPortPowerElapsed p s
  | .portDlUp p rate lanes flit256 bi partnerOk => Sys2Proof.Machine.execPortDlUp p rate lanes flit256 bi partnerOk s
  | .portTrainTimeout p => Sys2Proof.Machine.execPortTrainTimeout p s
  | .configRetryTimeout p => Sys2Proof.Machine.execConfigRetryTimeout p s
  | .portSetupComplete p => Sys2Proof.Machine.execPortSetupComplete p s
  | .poolBringUp p enumerates cdatOk capacity commitOk => Sys2Proof.Machine.execPoolBringUp p enumerates cdatOk capacity commitOk s
  | .removalRecognised p => Sys2Proof.Machine.execRemovalRecognised p s
  | .teardownComplete p => Sys2Proof.Machine.execTeardownComplete p s
  | .settleExpiry p => Sys2Proof.Machine.execSettleExpiry p s
  | .chatterDetected p => Sys2Proof.Machine.execChatterDetected p s
  | .pwrfltAccepted p => Sys2Proof.Machine.execPwrfltAccepted p s
  | .sbsScan frame => Sys2Proof.Machine.execSbsScan frame s
  | .sbsResume => Sys2Proof.Machine.execSbsResume s
  | .hpQclr p => Sys2Proof.Machine.execHpQclr p s
  | .hpFclr p => Sys2Proof.Machine.execHpFclr p s
  | .hpRetry p => Sys2Proof.Machine.execHpRetry p s
  | .cxlMemCompletionTimeout op => Sys2Proof.Machine.execCxlMemCompletionTimeout op s
  | .cxlIoCompletionTimeout p tag => Sys2Proof.Machine.execCxlIoCompletionTimeout p tag s
  | .lateMemResponse p op => Sys2Proof.Machine.execLateMemResponse p op s
  | .drainComplete p => Sys2Proof.Machine.execDrainComplete p s
  | .passPowerControllerOff host p => Sys2Proof.Machine.execPassPowerControllerOff host p s
  | .passPowerControllerOn host p => Sys2Proof.Machine.execPassPowerControllerOn host p s
  | .aspmL1Entry p => Sys2Proof.Machine.execAspmL1Entry p s
  | .aspmL1Exit p => Sys2Proof.Machine.execAspmL1Exit p s
  | .stitchTrainingAttempt link => Sys2Proof.Machine.execStitchTrainingAttempt link s
  | .detectPhaseEnd link locked => Sys2Proof.Machine.execDetectPhaseEnd link locked s
  | .framePhaseEnd link deskewed => Sys2Proof.Machine.execFramePhaseEnd link deskewed s
  | .equalisePhaseEnd link peerReady => Sys2Proof.Machine.execEqualisePhaseEnd link peerReady s
  | .confirmWindowEnd link errors peerQualified => Sys2Proof.Machine.execConfirmWindowEnd link errors peerQualified s
  | .trainRequestReceived link lane request preset => Sys2Proof.Machine.execTrainRequestReceived link lane request preset s
  | .linkupReceived link dev peerLink limits => Sys2Proof.Machine.execLinkupReceived link dev peerLink limits s
  | .stitchPacketSend link words => Sys2Proof.Machine.execStitchPacketSend link words s
  | .packetReceived link words blockError => Sys2Proof.Machine.execPacketReceived link words blockError s
  | .ackReceived link seq => Sys2Proof.Machine.execAckReceived link seq s
  | .ackTimerExpiry link => Sys2Proof.Machine.execAckTimerExpiry link s
  | .nakReceived link seq => Sys2Proof.Machine.execNakReceived link seq s
  | .replayReceived link first => Sys2Proof.Machine.execReplayReceived link first s
  | .nakRepeatTimeout link => Sys2Proof.Machine.execNakRepeatTimeout link s
  | .replayTimeout link => Sys2Proof.Machine.execReplayTimeout link s
  | .creditReceived link limits => Sys2Proof.Machine.execCreditReceived link limits s
  | .creditAdvertiseTimer link => Sys2Proof.Machine.execCreditAdvertiseTimer link s
  | .widthReqReceived link mask => Sys2Proof.Machine.execWidthReqReceived link mask s
  | .widthSetReceived link mask => Sys2Proof.Machine.execWidthSetReceived link mask s
  | .widthReadyReceived link mask => Sys2Proof.Machine.execWidthReadyReceived link mask s
  | .widenLaneTimeout link => Sys2Proof.Machine.execWidenLaneTimeout link s
  | .laneSignalLoss link lane signal => Sys2Proof.Machine.execLaneSignalLoss link lane signal s
  | .linkDeclaredDead link reason => Sys2Proof.Machine.execLinkDeclaredDead link reason s
  | .takeoverReceived carrier dead event lastAccepted => Sys2Proof.Machine.execTakeoverReceived carrier dead event lastAccepted s
  | .takeoverRepeat link => Sys2Proof.Machine.execTakeoverRepeat link s
  | .linkCtlDown link => Sys2Proof.Machine.execLinkCtlDown link s
  | .linkCtlRetrain link => Sys2Proof.Machine.execLinkCtlRetrain link s
  | .widthCtlWrite link target => Sys2Proof.Machine.execWidthCtlWrite link target s
  | .tollSend => Sys2Proof.Machine.execTollSend s
  | .tollReceived link words => Sys2Proof.Machine.execTollReceived link words s
  | .tollSilence n => Sys2Proof.Machine.execTollSilence n s
  | .knellReceived link words => Sys2Proof.Machine.execKnellReceived link words s
  | .transitMessage link words => Sys2Proof.Machine.execTransitMessage link words s
  | .granuleTakeback n => Sys2Proof.Machine.execGranuleTakeback n s
  | .mgmtRequestRepeat tag => Sys2Proof.Machine.execMgmtRequestRepeat tag s
  | .mgmtReservedType src mtype => Sys2Proof.Machine.execMgmtReservedType src mtype s
  | .importBind src tag exportId domain coherent blocks => Sys2Proof.Machine.execImportBind src tag exportId domain coherent blocks s
  | .importBindAck src tag exportId status => Sys2Proof.Machine.execImportBindAck src tag exportId status s
  | .importUnmapRequest src tag exportId => Sys2Proof.Machine.execImportUnmapRequest src tag exportId s
  | .importUnmapped src tag exportId status => Sys2Proof.Machine.execImportUnmapped src tag exportId status s
  | .exportNotice src tag exportId domain coherent blocks => Sys2Proof.Machine.execExportNotice src tag exportId domain coherent blocks s
  | .exportNoticeAck src tag exportId status => Sys2Proof.Machine.execExportNoticeAck src tag exportId status s
  | .importDropped src tag exportId => Sys2Proof.Machine.execImportDropped src tag exportId s
  | .importDroppedAck src tag exportId status => Sys2Proof.Machine.execImportDroppedAck src tag exportId status s
  | .exportNoticeWaitExpiry tag => Sys2Proof.Machine.execExportNoticeWaitExpiry tag s
  | .importBindWaitExpiry tag => Sys2Proof.Machine.execImportBindWaitExpiry tag s
  | .importUnmappedWaitExpiry tag => Sys2Proof.Machine.execImportUnmappedWaitExpiry tag s
  | .initiateDynamicCapacityAdd path host region tag extents => Sys2Proof.Machine.execInitiateDynamicCapacityAdd path host region tag extents s
  | .addDynamicCapacityResponse p accepted => Sys2Proof.Machine.execAddDynamicCapacityResponse p accepted s
  | .offerTimeout p => Sys2Proof.Machine.execOfferTimeout p s
  | .initiateDynamicCapacityRelease path host extents => Sys2Proof.Machine.execInitiateDynamicCapacityRelease path host extents s
  | .forcedRelease path host extents => Sys2Proof.Machine.execForcedRelease path host extents s
  | .releaseDynamicCapacity p extents => Sys2Proof.Machine.execReleaseDynamicCapacity p extents s
  | .fenceStart => Sys2Proof.Machine.execFenceStart s
  | .fenceStepComplete => Sys2Proof.Machine.execFenceStepComplete s
  | .keySlotRekey slot => Sys2Proof.Machine.execKeySlotRekey slot s
  | .keyvPowerLoss => Sys2Proof.Machine.execKeyvPowerLoss s
  | .migrationChunkCopied block => Sys2Proof.Machine.execMigrationChunkCopied block s
  | .migrationComplete block => Sys2Proof.Machine.execMigrationComplete block s
  | .resyncComplete setNo way copy => Sys2Proof.Machine.execResyncComplete setNo way copy s
  | .mailboxDoorbell m => Sys2Proof.Machine.execMailboxDoorbell m s
  | .mctpRequest eid componentCci opcode length => Sys2Proof.Machine.execMctpRequest eid componentCci opcode length s
  | .backgroundOperationEnd path => Sys2Proof.Machine.execBackgroundOperationEnd path s
  | .identify p => Sys2Proof.Machine.execIdentify p s
  | .backgroundOperationStatus path => Sys2Proof.Machine.execBackgroundOperationStatus path s
  | .getResponseMessageLimit path => Sys2Proof.Machine.execGetResponseMessageLimit path s
  | .getEventRecords p log => Sys2Proof.Machine.execGetEventRecords p log s
  | .clearEventRecords p log handles => Sys2Proof.Machine.execClearEventRecords p log handles s
  | .getEventInterruptPolicy p => Sys2Proof.Machine.execGetEventInterruptPolicy p s
  | .setEventInterruptPolicy p input => Sys2Proof.Machine.execSetEventInterruptPolicy p input s
  | .getFwInfo p => Sys2Proof.Machine.execGetFwInfo p s
  | .getTimestamp p => Sys2Proof.Machine.execGetTimestamp p s
  | .setTimestamp p input => Sys2Proof.Machine.execSetTimestamp p input s
  | .getSupportedLogs p => Sys2Proof.Machine.execGetSupportedLogs p s
  | .getLog p input => Sys2Proof.Machine.execGetLog p input s
  | .identifyMemoryDevice p => Sys2Proof.Machine.execIdentifyMemoryDevice p s
  | .getPartitionInfo p => Sys2Proof.Machine.execGetPartitionInfo p s
  | .getHealthInfo p => Sys2Proof.Machine.execGetHealthInfo p s
  | .getPoisonList p => Sys2Proof.Machine.execGetPoisonList p s
  | .getDynamicCapacityConfiguration p => Sys2Proof.Machine.execGetDynamicCapacityConfiguration p s
  | .getDynamicCapacityExtentList p first count => Sys2Proof.Machine.execGetDynamicCapacityExtentList p first count s
  | .unsupportedCxlCommand p opcode => Sys2Proof.Machine.execUnsupportedCxlCommand p opcode s
  | .fmIdentify path => Sys2Proof.Machine.execFmIdentify path s
  | .identifySwitchDevice path => Sys2Proof.Machine.execIdentifySwitchDevice path s
  | .getPhysicalPortState path ports => Sys2Proof.Machine.execGetPhysicalPortState path ports s
  | .getVirtualCxlSwitchInfo path => Sys2Proof.Machine.execGetVirtualCxlSwitchInfo path s
  | .getDcdInfo path host => Sys2Proof.Machine.execGetDcdInfo path host s
  | .getHostDcRegionConfiguration path host => Sys2Proof.Machine.execGetHostDcRegionConfiguration path host s
  | .getDcRegionExtentLists path host first count => Sys2Proof.Machine.execGetDcRegionExtentLists path host first count s
  | .unsupportedFmApiCommand path opcode => Sys2Proof.Machine.execUnsupportedFmApiCommand path opcode s
  | .getInfo path input => Sys2Proof.Machine.execGetInfo path input s
  | .regRead path input => Sys2Proof.Machine.execRegRead path input s
  | .blockQuery path input => Sys2Proof.Machine.execBlockQuery path input s
  | .blockMigrate path input => Sys2Proof.Machine.execBlockMigrate path input s
  | .exportCreate path input => Sys2Proof.Machine.execExportCreate path input s
  | .exportRelease path input => Sys2Proof.Machine.execExportRelease path input s
  | .remoteMap path input => Sys2Proof.Machine.execRemoteMap path input s
  | .remoteUnmap path input => Sys2Proof.Machine.execRemoteUnmap path input s
  | .qosSet path input => Sys2Proof.Machine.execQosSet path input s
  | .gateListSet path input => Sys2Proof.Machine.execGateListSet path input s
  | .mirrorSet path input => Sys2Proof.Machine.execMirrorSet path input s
  | .sliceCreate path input => Sys2Proof.Machine.execSliceCreate path input s
  | .sliceResize path input => Sys2Proof.Machine.execSliceResize path input s
  | .sliceDestroy path input => Sys2Proof.Machine.execSliceDestroy path input s
  | .sliceQuery path input => Sys2Proof.Machine.execSliceQuery path input s
  | .engineAssign path input => Sys2Proof.Machine.execEngineAssign path input s
  | .portRemove path input => Sys2Proof.Machine.execPortRemove path input s
  | .portRelease path input => Sys2Proof.Machine.execPortRelease path input s
  | .linkSetDown path input => Sys2Proof.Machine.execLinkSetDown path input s
  | .linkSetRetrain path input => Sys2Proof.Machine.execLinkSetRetrain path input s
  | .linkSetTarget path input => Sys2Proof.Machine.execLinkSetTarget path input s
  | .routeSet path input => Sys2Proof.Machine.execRouteSet path input s
  | .neighbourRejoin path input => Sys2Proof.Machine.execNeighbourRejoin path input s
  | .logRead path input => Sys2Proof.Machine.execLogRead path input s
  | .logClear path input => Sys2Proof.Machine.execLogClear path input s
  | .fwTransferStart path input => Sys2Proof.Machine.execFwTransferStart path input s
  | .fwTransferData path input => Sys2Proof.Machine.execFwTransferData path input s
  | .fwTransferEnd path input body => Sys2Proof.Machine.execFwTransferEnd path input body s
  | .fwTransferAbort path input => Sys2Proof.Machine.execFwTransferAbort path input s
  | .fwActivateNextReset path input => Sys2Proof.Machine.execFwActivateNextReset path input s
  | .fwActivateLive path input => Sys2Proof.Machine.execFwActivateLive path input s
  | .liveActivationTakeover => Sys2Proof.Machine.execLiveActivationTakeover s
  | .liveActivationTimeout => Sys2Proof.Machine.execLiveActivationTimeout s
  | .fwCommit path input => Sys2Proof.Machine.execFwCommit path input s
  | .resetWarm path input => Sys2Proof.Machine.execResetWarm path input s
  | .resetTambour path input => Sys2Proof.Machine.execResetTambour path input s
  | .resetPort path input => Sys2Proof.Machine.execResetPort path input s
  | .resetLink path input => Sys2Proof.Machine.execResetLink path input s
  | .oobRead addr => Sys2Proof.Machine.execOobRead addr s
  | .oobWrite addr v => Sys2Proof.Machine.execOobWrite addr v s
  | .oobResult => Sys2Proof.Machine.execOobResult s
  | .oobFetchComplete block => Sys2Proof.Machine.execOobFetchComplete block s
  | .oobSlotExpiry block => Sys2Proof.Machine.execOobSlotExpiry block s
  | .acuRegionSet path input => Sys2Proof.Machine.execAcuRegionSet path input s
  | .acuFence path input => Sys2Proof.Machine.execAcuFence path input s
  | .acuOldEpochDrained => Sys2Proof.Machine.execAcuOldEpochDrained s
  | .acuViolationRead path input => Sys2Proof.Machine.execAcuViolationRead path input s
  | .violInfoClear who v => Sys2Proof.Machine.execViolInfoClear who v s
  | .lifecycleSetProvisioned path input otpOk => Sys2Proof.Machine.execLifecycleSetProvisioned path input otpOk s
  | .lifecycleSetDeployed path input otpOk => Sys2Proof.Machine.execLifecycleSetDeployed path input otpOk s
  | .lifecycleSetRma path input sigOk otpOk => Sys2Proof.Machine.execLifecycleSetRma path input sigOk otpOk s
  | .debugChallenge path input => Sys2Proof.Machine.execDebugChallenge path input s
  | .debugUnlock path input sigOk => Sys2Proof.Machine.execDebugUnlock path input sigOk s
  | .debugLock path input => Sys2Proof.Machine.execDebugLock path input s
  | .challengeExpiry => Sys2Proof.Machine.execChallengeExpiry s
  | .zeroizeKeys path input readBack => Sys2Proof.Machine.execZeroizeKeys path input readBack s
  | .zeroizeFull path input readBack => Sys2Proof.Machine.execZeroizeFull path input readBack s
  | .drbgHealthFailure => Sys2Proof.Machine.execDrbgHealthFailure s
  | .drbgStartupRetry pass => Sys2Proof.Machine.execDrbgStartupRetry pass s
  | .getVersion path => Sys2Proof.Machine.execGetVersion path s
  | .getCapabilities path => Sys2Proof.Machine.execGetCapabilities path s
  | .negotiateAlgorithms path offersSubset => Sys2Proof.Machine.execNegotiateAlgorithms path offersSubset s
  | .getDigests path => Sys2Proof.Machine.execGetDigests path s
  | .getCertificate path slot offset length => Sys2Proof.Machine.execGetCertificate path slot offset length s
  | .challenge path slot => Sys2Proof.Machine.execChallenge path slot s
  | .getMeasurements path index signed => Sys2Proof.Machine.execGetMeasurements path index signed s
  | .keyExchange path slot => Sys2Proof.Machine.execKeyExchange path slot s
  | .finish path session verifies => Sys2Proof.Machine.execFinish path session verifies s
  | .keyUpdate path session => Sys2Proof.Machine.execKeyUpdate path session s
  | .heartbeat path session => Sys2Proof.Machine.execHeartbeat path session s
  | .endSession path session => Sys2Proof.Machine.execEndSession path session s
  | .ideKm path session keySet => Sys2Proof.Machine.execIdeKm path session keySet s
  | .domainDozeEntry dom => Sys2Proof.Machine.execDomainDozeEntry dom s
  | .domainNapEntry dom => Sys2Proof.Machine.execDomainNapEntry dom s
  | .domainDeepEntry dom => Sys2Proof.Machine.execDomainDeepEntry dom s
  | .domainWakeEvent dom => Sys2Proof.Machine.execDomainWakeEvent dom s
  | .domainWakeComplete dom => Sys2Proof.Machine.execDomainWakeComplete dom s
  | .breakerCurveTrip dom segment => Sys2Proof.Machine.execBreakerCurveTrip dom segment s
  | .breakerFastTrip dom segment => Sys2Proof.Machine.execBreakerFastTrip dom segment s
  | .retryBackoffExpiry dom => Sys2Proof.Machine.execRetryBackoffExpiry dom s
  | .rampComplete dom => Sys2Proof.Machine.execRampComplete dom s
  | .rampTimeout dom => Sys2Proof.Machine.execRampTimeout dom s
  | .retrySequenceEnd dom => Sys2Proof.Machine.execRetrySequenceEnd dom s
  | .classBResidualCheck dom high => Sys2Proof.Machine.execClassBResidualCheck dom high s
  | .railOutOfWindow rail mv => Sys2Proof.Machine.execRailOutOfWindow rail mv s
  | .railQualified rail mv => Sys2Proof.Machine.execRailQualified rail mv s
  | .aoFeedChangeover => Sys2Proof.Machine.execAoFeedChangeover s
  | .aoFeedReturn => Sys2Proof.Machine.execAoFeedReturn s
  | .aoOnlyWake source => Sys2Proof.Machine.execAoOnlyWake source s
  | .aoOnlyTimerExpiry => Sys2Proof.Machine.execAoOnlyTimerExpiry s
  | .sleepCtlWake => Sys2Proof.Machine.execSleepCtlWake s
  | .aoclkLoss => Sys2Proof.Machine.execAoclkLoss s
  | .aoclkReturn => Sys2Proof.Machine.execAoclkReturn s
  | .refclkLoss die => Sys2Proof.Machine.execRefclkLoss die s
  | .refclkReturn die => Sys2Proof.Machine.execRefclkReturn die s
  | .avsStep target acked => Sys2Proof.Machine.execAvsStep target acked s
  | .powerPolicySetDomains path input => Sys2Proof.Machine.execPowerPolicySetDomains path input s
  | .powerPolicySetCurve path input => Sys2Proof.Machine.execPowerPolicySetCurve path input s
  | .powerPolicySetAoOnly path input => Sys2Proof.Machine.execPowerPolicySetAoOnly path input s
  | .powerPolicySetAvs path input => Sys2Proof.Machine.execPowerPolicySetAvs path input s
  | .faultSignal n cls detail resource => Sys2Proof.Machine.execFaultSignal n cls detail resource s
  | .brokenWire n => Sys2Proof.Machine.execBrokenWire n s
  | .selfTestResult n resource number passed => Sys2Proof.Machine.execSelfTestResult n resource number passed s
  | .tambourLogicLost t lasting => Sys2Proof.Machine.execTambourLogicLost t lasting s
  | .sliceMoveComplete t => Sys2Proof.Machine.execSliceMoveComplete t s
  | .tdirLost t => Sys2Proof.Machine.execTdirLost t s
  | .portDieLost die => Sys2Proof.Machine.execPortDieLost die s
  | .portDieReturn die => Sys2Proof.Machine.execPortDieReturn die s
  | .mgtRestore => Sys2Proof.Machine.execMgtRestore s
  | .carillonConfigScrub => Sys2Proof.Machine.execCarillonConfigScrub s
  | .faultClear path input => Sys2Proof.Machine.execFaultClear path input s
  | .resourceRestore path input passes => Sys2Proof.Machine.execResourceRestore path input passes s
  | .temperatureThreshold die reading => Sys2Proof.Machine.execTemperatureThreshold die reading s
  | .thermalTrip die reading => Sys2Proof.Machine.execThermalTrip die reading s
  | .counterWrap u counter rest => Sys2Proof.Machine.execCounterWrap u counter rest s
  | .pmcCounterWrite who u counter v => Sys2Proof.Machine.execPmcCounterWrite who u counter v s
  | .pmcLowHalfRead who u counter => Sys2Proof.Machine.execPmcLowHalfRead who u counter s
  | .ftimeLowHalfRead who => Sys2Proof.Machine.execFtimeLowHalfRead who s
  | .pmcFreezeWrite who freeze => Sys2Proof.Machine.execPmcFreezeWrite who freeze s
  | .pmcSnap who => Sys2Proof.Machine.execPmcSnap who s
  | .snapshotTaken => Sys2Proof.Machine.execSnapshotTaken s
  | .tlsSample => Sys2Proof.Machine.execTlsSample s
  | .tlsSwap who => Sys2Proof.Machine.execTlsSwap who s
  | .alignRowReceived link lanes => Sys2Proof.Machine.execAlignRowReceived link lanes s
  | .controlBlockError link lane => Sys2Proof.Machine.execControlBlockError link lane s
  | .linkupPhaseTimeout link => Sys2Proof.Machine.execLinkupPhaseTimeout link s
  | .jtagCoreControl op => Sys2Proof.Machine.execJtagCoreControl op s
  | .pmeTurnOff p => Sys2Proof.Machine.execPmeTurnOff p s
  | .portWidthOrRateChange p rate lanes l0p => Sys2Proof.Machine.execPortWidthOrRateChange p rate lanes l0p s
  | .vddAoHoldLow => Sys2Proof.Machine.execVddAoHoldLow s
  | .mctpControlMessage eid => Sys2Proof.Machine.execMctpControlMessage eid s
  | .i3cDynamicAddressAssignment bridge addr => Sys2Proof.Machine.execI3cDynamicAddressAssignment bridge addr s
  | .expanderEventRecord p kind dpa => Sys2Proof.Machine.execExpanderEventRecord p kind dpa s

end Sys2Proof.Machine
end

