-- ==== Sys2Proof/Machine/Tick.lean ====
section
/-! DEFINITION. What one cycle of the AO clock does when no command waits: fabric time and the performance counters advance (log
entry 1). -/

namespace Sys2Proof.Machine

/-- The Tambour whose ingress an entity belongs to (Table TM-2, 0x1034). -/
def tileOfEntity : Entity → Option Nat
  | .port p => some (p.val / 4)
  | .link s => some s.val
  | .tambour t => some t.val
  | .mgmt => none

/-- The occupancy that a kind O event reports in PMU u (Table TM-2). -/
def Dev.occupancy (d : Dev) (u ev : Nat) : Nat :=
  let low := ev % 4096
  match ev / 4096 with
  | 1 =>
    if low = 0x34 then ((d.sw.msgs.filter fun m => decide (tileOfEntity m.entity = some u)).map (·.fromShared)).sum
    else
      let port := 4 * u + (low - 0x20) / 4
      ((d.sw.msgs.filter fun m => decide (classCode m.cls = (low - 0x20) % 4) && (match m.dest with
        | .port p => decide (p.val = port)
        | _ => false)).map (·.cells)).sum
  | 2 =>
    if low = 0xB then (d.dir.ct.filter fun e => decide (e.2.slice = u)).length
    else if low = 0xC then (d.dir.victims.filter fun v => decide (v.2.slice = u)).length
    else if low = 0xD then (d.dir.ct.filter fun e => decide (e.2.slice = u) && !e.2.general).length
    else d.rd (.dirStatus u) 19 0
  | 3 => (d.pool.inflight.filter fun e => decide (e.2.epoch ≠ d.pool.epoch ∧ e.2.tile = u)).length
  | 4 => ((List.range 16).map fun k => d.threadsOf (16 * u + k)).sum
  | 8 => (d.lrec (u - 20)).entries.length
  | 9 =>
    if low = 1 then d.rd .bufStatus 18 0
    else if low = 7 then d.hub.repair.length
    else if d.mgmt.fwUp then 0 else 4
  | _ => 0

/-- Cycles of a PMU's clock in one cycle of the AO clock (Table TM-1). -/
def pmuCycles (u : Nat) : Nat := if u = 36 then 48 else 64

/-- A programmable counter on a kind O event takes the cycles that have passed: their sum, or those above the threshold (R406). -/
def Dev.countOccupancy (d : Dev) (u i : Nat) : Dev :=
  let e := d.reg (.pmcEvsel u i)
  let ev := getBits e 15 0
  if getBits e 63 63 = 1 ∧ eventKind ev = some true ∧ pmuServes u ev ∧ !d.bitOf .pmcGlbCtl 31 then
    let n := d.occupancy u ev
    if getBits e 62 62 = 0 then d.addCounter u i (n * pmuCycles u)
    else if getBits e 51 32 < n then d.addCounter u i (pmuCycles u) else d
  else d

/-- The cycle counter advances; past its end it wraps and sets CYC_OVF (R407). -/
def Dev.countCycles (d : Dev) (u : Nat) : Dev :=
  let v := (d.reg (.pmcCycles u)).toNat + pmuCycles u
  let d := d.setReg (.pmcCycles u) (BitVec.ofNat 64 v)
  if v < 2 ^ 64 then d else d.wr (.pmcStatus u) 16 16 1

/-- A PMU in Run or Doze counts (R404, R405). -/
def Dev.tickPmu (d : Dev) (u : Nat) : Dev :=
  if d.mgmt.coldHeld || decide (2 ≤ d.heldState (pmuHeld u)) then d
  else (List.range 8).foldl (fun d i => d.countOccupancy u i) (d.countCycles u)

/-- The 100 µs after a step of the VDD_CORE target pass; at their end the window follows the new target alone (R371). -/
def Dev.tickAvs (d : Dev) : Dev :=
  match d.pwr.avsHold with
  | 0 => d
  | 1 => d.setTarget (d.rd .avs 11 0)
  | n + 2 => { d with pwr := { d.pwr with avsHold := n + 1 } }

/-- One cycle of the AO clock: fabric time advances by 40 ns (R368), the time after an adaptive voltage step runs, and the performance
monitors count. -/
def Dev.tick (d : Dev) : Dev := (List.range 37).foldl Dev.tickPmu (d.setReg .ftime (d.reg .ftime + 40)).tickAvs

end Sys2Proof.Machine
end

