-- ==== Sys2Proof/Safety.lean ====
section
/-! DEFINITION. What counts as a safe run: a command completes, and what it leaves is what the statements say. -/

namespace Sys2Proof.Machine

/-- Registers that counting, reporting and signalling write. -/
def Reg.side : Reg → Bool
  | .srcStatus _ | .pmcCnt _ _ | .pmcStatus _ | .msixPba _ _ => true
  | _ => false

/-- Registers that the end of a command writes. -/
def Reg.show : Reg → Bool
  | .keyStatus | .bufStatus | .faultStat => true
  | _ => false

/-- Registers of a mailbox. -/
def Reg.box : Reg → Bool
  | .mbxCmd _ | .mbxCtl _ | .mbxStatus _ | .mbxBgStatus _ | .mbxPayload _ _ => true
  | _ => false

/-- A standard command is served on its path and nothing turns it away (R288, R290, R310). -/
def Dev.takesStandard (d : Dev) (path : Path) (opcode : Nat) : Prop :=
  d.serves path opcode = true ∧ d.inWindow = false ∧ d.stage ≠ 8 ∧ (d.stage = 9 → opcode = 1) ∧
    (d.safe = true → opcode = 1 ∨ opcode = 2)

/-- A Stoluo command is served on its path and passes every check of R288 that needs no payload. -/
def Dev.takesStoluo (d : Dev) (path : Path) (opcode : Nat) : Prop :=
  d.serves path opcode = true ∧ d.refusal path opcode false = none

/-- A command has completed: its code and output are sent and, on a mailbox, MBX.STATUS.RC holds the code and DOORBELL is
clear (R285). -/
def Dev.replied (d : Dev) (path : Path) (opcode rc vendor : Nat) (output : List Byte) : Prop :=
  .cmdDone path opcode rc vendor output ∈ d.out ∧
    ∀ m, mailboxOf path = some m → d.rd (.mbxStatus m) 47 32 = rc ∧ d.rd (.mbxStatus m) 63 48 = vendor ∧ d.bitOf (.mbxCtl m) 0 = false

/-- What a command that only reads leaves as it was: everything but what is sent, the management records and mailboxes, and
the counters, pending bits and status registers. -/
def Dev.onlyRead (d d' : Dev) : Prop :=
  d'.pool = d.pool ∧ d'.dir = d.dir ∧ d'.sw = d.sw ∧ d'.svc = d.svc ∧ d'.port = d.port ∧ d'.link = d.link ∧ d'.fab = d.fab ∧
    d'.sec = d.sec ∧ d'.pwr = d.pwr ∧ d'.flt.retirement = d.flt.retirement ∧ d'.flt.diesOut = d.flt.diesOut ∧
    ∀ r : Reg, r.side = false → r.show = false → r.box = false → d'.reg r = d.reg r

/-- The status registers tell the state: the key slots, the free cells, the pending sources and their worst severity, and
FAULT_B (R109, R382, Tables PS-9, FI-17). -/
def Dev.statusTrue (d : Dev) : Prop :=
  d.rd .keyStatus 27 16 = d.activeKeys % 2 ^ 12 ∧ d.rd .keyStatus 11 0 = d.readyKeys % 2 ^ 12 ∧
    d.rd .bufStatus 18 0 = (d.cellsIn - d.cellsUsed) % 2 ^ 19 ∧ d.rd .faultStat 15 0 = d.pendingSources.length % 2 ^ 16 ∧
    d.rd .faultStat 25 24 = ((d.pendingSources.map fun n => d.rd (.srcStatus n) 58 57).foldl max 0) % 2 ^ 2 ∧
    d.bitOf .faultStat 27 = d.pulls

/-- An operation of a ring starts: it waits, nothing before it holds it back, and an engine of the ring's image takes it; d' is the
device with the operation on that engine, counted (R132, R134, R144, R148, R166). -/
def Dev.starts (d : Dev) (slice ring index opcode : Nat) (services : List Nat) (sl : SliceRec) (x : RingRun) (o : RingOp) (e : Nat)
    (d' : Dev) : Prop :=
  d.sliceRec slice = some sl ∧ d.ringRun sl ring = some x ∧ x.find index = some o ∧ o.opcode = opcode ∧ x.mayStart o = true ∧
    services.contains x.service = true ∧ o.flagsOk = true ∧
    ∃ d1, d.dispatch sl (serviceImage x.service) = (.on e, d1) ∧ d' = d1.count (e / 16) (if x.service = 1 then 0x4000 else 0x4003) 1

/-- No access of a command is under way. -/
def Dev.noTurn (d : Dev) : Prop := d.dir.turn = ⟨none, []⟩

/-- No access of a command is under way, and no slice owes a bit update of its dirty-page log. -/
def Dev.atRest (d : Dev) : Prop := d.noTurn ∧ ∀ x ∈ d.svc.dirty, x.2.marks = []

/-- Every access of a command has been made, and nothing is owed to a dirty-page log. -/
def Dev.made (d : Dev) : Prop := d.dir.turn.stall = none ∧ ∀ x ∈ d.svc.dirty, x.2.marks = []

/-- What follows once a command has made all its accesses: the entries that kept answered recalls for it retire, and the bit updates of
the dirty-page log that are owed are made. -/
def Dev.accessed (d : Dev) : Dev := d.dropUsed.inTurn.drainAll

/-- The migration, export and import records of one copy of the hub structures. -/
def HubTables.bindings (h : HubTables) := (h.migrations, h.exports, h.imports)

/-- The records of the pool that no write of a table entry, of a cache or of a line of data changes. -/
def PoolState.records (p : PoolState) :=
  (p.extents, p.extentSeq, p.domains, p.dcOps, p.fence, p.fenceQueue, p.epoch, p.hubA.bindings, p.hubB.bindings, p.notices)

/-- Registers whose writes follow their access codes alone: those with a rule of their own, and those that the end of a command
writes, are left out (R8). -/
def Reg.plain : Reg → Bool
  | .ageLimit | .dirBiTimeout _ | .mirCtl _ | .tollCtl | .cplTo _ | .prtGclCtl _ | .stlGclCtl _ | .hpCtl _ | .linkCtl _ | .trainCtl _
  | .widthCtl _ | .sleepCtl | .sbsCtl | .violInfo _ | .pmcEvsel _ _ | .pmcGlbCtl | .tlsCtl | .mbxCtl _ | .mbxCmd _ | .mbxPayload _ _
  | .msixData _ _ | .dmv _ _ | .dirtyCtl _ _ | .dirtyWin _ _ | .dirtyBuf _ _ _ | .ring _ _ _ _ => false
  | r => !r.show

/-- A bit of a register after a write of a bit, by the access code of its field (R5, R8, Table SC-6). -/
def Acc.after (a : Acc) (old new : Bool) : Bool :=
  match a with
  | .rw | .rws | .rwl => new
  | .rw1c => old && !new
  | .wo => false
  | .ro | .rc => old

/-- Everything that a command which writes only registers leaves as it was. -/
def Dev.onlyRegs (d d' : Dev) : Prop :=
  d'.pool = d.pool ∧ d'.dir = d.dir ∧ d'.sw = d.sw ∧ d'.svc = d.svc ∧ d'.port = d.port ∧ d'.link = d.link ∧ d'.fab = d.fab ∧
    d'.mgmt = d.mgmt ∧ d'.sec = d.sec ∧ d'.flt = d.flt ∧ d'.tel = d.tel ∧ d'.free = d.free

/-- What a cold reset leaves: every register outside the AO domain at its reset value, every domain but AO in Deep or Off, no key; the
logs and records in MRAM, OTP, flash and what the expanders hold are kept (R9, R435, Table PS-20). -/
def Dev.coldLeft (d d' : Dev) : Prop :=
  d'.mgmt.coldHeld = true ∧ (∀ r : Reg, r.layout.domain ≠ .ao → r.show = false → d'.reg r = r.layout.reset) ∧
    (∀ i, 1 ≤ i → i < 124 → 3 ≤ d'.domState i) ∧ d'.pool.keys = [] ∧ d'.pool.blocks = ⟨[], []⟩ ∧ d'.pool.slots = ⟨[], []⟩ ∧
    d'.dir.entries = [] ∧ d'.pool.mem = d.pool.mem ∧ d'.sec.otp = d.sec.otp ∧ d'.sec.lockRecord = d.sec.lockRecord ∧
    d'.mgmt.flash = d.mgmt.flash ∧ d'.dir.lostLog = d.dir.lostLog ∧ d'.fab.log = d.fab.log ∧ d'.flt.retirement = d.flt.retirement

/-- The VDD_CORE target can be stepped to mv now: adaptive voltage is enabled, 100 µs have passed since the last step, mv lies within
680 to 820 mV and the step is at most 5 mV (R371). -/
def Dev.stepsTo (d : Dev) (mv : Nat) : Prop :=
  d.bitOf .avs 31 = true ∧ d.mgmt.coldHeld = false ∧ d.pwr.avsHold = 0 ∧ 680 ≤ mv ∧ mv ≤ 820 ∧ mv ≤ d.rd .avs 11 0 + 5 ∧
    d.rd .avs 11 0 ≤ mv + 5

/-- A ring's run with the operation of an index replaced. -/
def RingRun.put (x : RingRun) (o : RingOp) : RingRun := { x with ops := x.ops.map fun y => if y.index = o.index then o else y }

/-- A ring's run without the operation of an index. -/
def RingRun.without (x : RingRun) (o : RingOp) : RingRun := { x with ops := x.ops.filter fun y => !decide (y.index = o.index) }

end Sys2Proof.Machine

namespace Sys2Proof

/-- A requester that addresses the Management Endpoint BAR0 (Table RI-1). -/
def RegRequester.endpoint : RegRequester → Bool
  | .service _ | .poolDev _ => false
  | _ => true

end Sys2Proof

namespace Sys2Proof.Machine

/-- A message that makes an output once it is sent waits for an egress. -/
def Dev.queued (d : Dev) (e : Egress) (o : Out) : Prop := ∃ m ∈ d.sw.msgs ++ d.sw.blocked, m.dest = e ∧ o ∈ m.sends

/-- A host's port takes responses and snoops: it is in service, and traffic has not stopped (R463, Table FI-8). -/
def Dev.reaches (d : Dev) (p : Fin 64) : Prop := d.safe = false ∧ d.takesMessages (.port p) = true

/-- The home looks at a request now: its slice serves, and the request waits on no shaper, for no Grant and behind no older request for
its granule (R85, R86, R104, R122). A write is no write-back: its agent neither owns the granule nor is awaited there (R76). -/
def Dev.examines (d : Dev) (kind : ReqKind) (req : HomeReq) : Prop :=
  let g := granuleOf req.line.toNat
  d.safe = false ∧ d.sliceReady (sliceOf g) = true ∧ d.heldBack kind req = false ∧ d.reservedFor (sliceOf g) req = false ∧
    d.behindOlder (sliceOf g) req = false ∧ (kind.writes = true → ∀ h, agentHolder req.agent = some h →
      (d.trustEntry g).2 = d ∧ (d.ownerOf g h || d.underRecall g h) = false)

/-- A request can be accepted by its home slice now: the home looks at it, its granule is free and so is a conflict-table entry for it
(R83, R84). -/
def Dev.admits (d : Dev) (kind : ReqKind) (req : HomeReq) : Prop := d.examines kind req ∧ d.mayTake req false = true

/-- What Table PB-8 gives a request that its home admits, and the device that has looked its block up. -/
def Dev.outcomeOf (d : Dev) (kind : ReqKind) (req : HomeReq) : Served × Dev :=
  (d.takeEpoch (sliceOf (granuleOf req.line.toNat)) req.agent req.txn).homeOutcome (sliceOf (granuleOf req.line.toNat)) req
    (d.effectiveKind kind req).needs true (d.mirrorCopy req.agent)

/-- A granule that nothing tracks and whose set has a way free. -/
def Dev.untracked (d : Dev) (g : Nat) : Prop := d.entry g = none ∧ (d.waysTaken g).length < d.ways (sliceOf g)

end Sys2Proof.Machine

namespace Sys2Proof

/-- The state with another device, whose status registers are up to date. -/
def Machine.State.onto (s : Machine.State) (d : Machine.Dev) : Machine.State := { s with dev := d.shown }

/-- A command completes: exec answers a next state. -/
def completes (c : Instr) (s : Machine.State) : Prop := ∃ t, Machine.exec c s = .next t

/-- A command completes in a state that has a property. -/
def leads (c : Instr) (s : Machine.State) (P : Machine.State → Prop) : Prop := ∃ t, Machine.exec c s = .next t ∧ P t

/-- A command completes and changes the device alone: the next state's device has a property, its queue is as it was. -/
def yields (c : Instr) (s : Machine.State) (P : Machine.Dev → Prop) : Prop :=
  leads c s fun t => t.pending = s.pending ∧ P t.dev

/-- A command whose accesses lead to the device x completes: with all of its effect where each can be made now, otherwise with what the
first of them waits for alone (log entry 35). -/
def accesses (c : Instr) (s : Machine.State) (x : Machine.Dev) : Prop :=
  (x.dir.turn.stall = none → Machine.exec c s = .next (s.onto x.accessed)) ∧
    ∀ w, x.dir.turn.stall = some w → Machine.exec c s = .next (s.onto (s.dev.stalled w).drainAll)

end Sys2Proof
end

