-- ==== Sys2Proof/Certificates/Slice0/Obligations.lean ====
section
/-! DEFINITION. The statements for the provers. Each says of its commands, in states that meet its premises, that they complete and
what they leave; a clause that gives exec's whole next state fixes everything the command leaves as it was. -/

open Sys2Proof Sys2Proof.Machine

/-- For every command c and state s whose queue is c followed by rest, step of s is exec of c on s with the queue rest. On an empty
queue step answers the next state whose device has ticked once: fabric time is 40 ns later and the pool, the directory, the switch, the
services, management and security are as before. The queue, and that an empty one is one tick, are the model's choice (log entries 1, 2
and 3). (R274, R368.) -/
def Obligations.StepRunsTheFrontCommand : Prop :=
  (∀ (c : Instr) (rest : List Instr) (s : State), s.pending = c :: rest → step s = exec c { s with pending := rest }) ∧
  (∀ s : State, s.pending = [] → step s = .next (s.onto s.dev.tick) ∧ s.dev.tick.reg .ftime = s.dev.reg .ftime + 40 ∧
    s.dev.tick.pool = s.dev.pool ∧ s.dev.tick.dir = s.dev.dir ∧ s.dev.tick.sw = s.dev.sw ∧ s.dev.tick.svc = s.dev.svc ∧
    s.dev.tick.mgmt = s.dev.mgmt ∧ s.dev.tick.sec = s.dev.sec)

/-- In State.reset every register holds the reset value of its layout, the queue is empty, cold reset is in force, AGE_LIMIT is 500, AVS
is at 750 mV, the ACU epoch is 0, and no line, directory entry, message or output is listed. The key, buffer and fault status registers
tell that state. That what is no register starts empty is the model's choice (log entry 5). (R9, R371, R435, R463.) -/
def Obligations.ResetLeavesRegistersAtTheirResetValues : Prop :=
  (∀ r : Reg, State.reset.dev.reg r = r.layout.reset) ∧ State.reset.pending = [] ∧ State.reset.dev.mgmt.coldHeld = true ∧
    State.reset.dev.rd .ageLimit 16 0 = 500 ∧ State.reset.dev.rd .avs 11 0 = 750 ∧ State.reset.dev.rd .acuStatus 31 30 = 0 ∧
    State.reset.dev.pool.mem = [] ∧ State.reset.dev.dir.entries = [] ∧ State.reset.dev.sw.msgs = [] ∧ State.reset.dev.out = [] ∧
  State.reset.dev.statusTrue

/-- From every state in which KEY_STATUS counts the active and ready key slots, BUF_STATUS counts the free cells, and FAULT_STAT counts
the pending sources, names their worst severity and shows FAULT_B, a step that answers a next state answers one in which they all still
do: whatever the command, and when the queue is empty. (04_switch_core.md, Table SW-8, 11_protection_and_security.md, Table PS-9,
13_faults_and_integrity.md, Table FI-17, R382.) -/
def Obligations.EveryStepKeepsStatusRegistersTrue : Prop :=
  ∀ s t : State, s.dev.statusTrue → step s = .next t → t.dev.statusTrue

/-- For every command and every state, exec answers a next state; its queue is the queue it was given, and its key, buffer and fault
status registers tell the state. No command faults or is refused. Where no access of a command was under way, none is after the command
either: that record of the model's own (log entry 35) is empty between commands. (04_switch_core.md, Table SW-8, 11_protection_and_security.md, Table
PS-9, 13_faults_and_integrity.md, Table FI-17, R382.) -/
def Obligations.EveryCommandCompletes : Prop :=
  ∀ (c : Instr) (s : State), ∃ t : State, exec c s = .next t ∧ t.pending = s.pending ∧ t.dev.statusTrue ∧
    (s.dev.noTurn → t.dev.noTurn)

/-- After every step, unless a thermal trip holds the pin (R460), FAULT_STAT shows FAULT_B low if and only if a source whose REACT has
PIN set has PENDING set, or the device is in the safe state, or the ROM is in RECOVERY. (R382.) -/
def Obligations.FaultPinFollowsPendingSources : Prop :=
  ∀ s t : State, step s = .next t → t.dev.mgmt.tripHeld = false →
    (t.dev.bitOf .faultStat 27 = true ↔
      (∃ n, t.dev.bitOf (.srcStatus n) 63 = true ∧ t.dev.bitOf (.srcCfg n) 16 = true) ∨ t.dev.safe = true ∨ t.dev.stage = 8)

/-- A REG_READ that the access checks let through and that meets no register answers SUCCESS with eight zero bytes and changes nothing
else. A register write that they let through and that meets no register leaves the device as it was; by a path that answers, the access
is answered as good. (R7.) -/
def Obligations.UnoccupiedOffsetsReadZeroAndIgnoreWrites : Prop :=
  (∀ (path : Path) (input : List Byte) (d1 : Dev) (s : State), s.dev.takesStoluo path 0xC001 → regReadForm input = true →
    s.dev.regCheckAs .firmware (some (s.dev.regReader path)) (field input 0 4) (field input 4 1) false = (.ok, d1) →
    s.dev.regsMet .firmware (field input 0 4) (field input 4 1) = [] →
    yields (.regRead path input) s fun t => t.replied path 0xC001 0 0 [0, 0, 0, 0, 0, 0, 0, 0] ∧ s.dev.onlyRead t) ∧
  (∀ (who : RegRequester) (a width : Nat) (v : Word) (d1 : Dev) (s : State), s.dev.regCheck who a width true = (.ok, d1) →
    s.dev.regsMet who a width = [] →
    exec (.registerWrite who a width v) s =
      .next (s.onto (if byCxlIo who then s.dev else s.dev.emit (.access (regKind who) 0 0))))

/-- ACK in HALTED clears ERR_INFO.VALID, leaves ERR_ADDR and ends HALTED. With no shadow armed the channel is IDLE; with one armed it is
ACTIVE with the shadow's source, destination, length and control as the active ones and the shadow disarmed. ACK in any other state has
no effect. (R186.) -/
def Obligations.AckEndsHaltedAndPromotesAnArmedShadow : Prop :=
  (∀ (c : Fin 64) (s : State), s.dev.dmvState c = 3 → yields (.dmvAck c) s fun t => t.bitOf (.dmv c .errInfo) 31 = false ∧
    t.reg (.dmv c .errAddr) = s.dev.reg (.dmv c .errAddr) ∧ t.dmvState c ≠ 3) ∧
  (∀ (c : Fin 64) (s : State), s.dev.dmvState c = 3 → s.dev.bitOf (.dmv c .status) 28 = false → s.dev.closing c = false →
    yields (.dmvAck c) s fun t => t.dmvState c = 0) ∧
  (∀ (c : Fin 64) (s : State), s.dev.dmvState c = 3 → s.dev.bitOf (.dmv c .status) 28 = true → s.dev.closing c = false → s.dev.safe = false →
    yields (.dmvAck c) s fun t => t.dmvState c = 1 ∧ t.bitOf (.dmv c .status) 28 = false ∧
      t.reg (.dmv c .actSrc) = s.dev.reg (.dmv c .src) &&& (Reg.dmv c .actSrc).mask ∧
      t.reg (.dmv c .actDst) = s.dev.reg (.dmv c .dst) &&& (Reg.dmv c .actDst).mask ∧
      t.reg (.dmv c .actLen) = s.dev.reg (.dmv c .len) &&& (Reg.dmv c .actLen).mask ∧
      t.reg (.dmv c .actCtl) = s.dev.reg (.dmv c .ctl) &&& (Reg.dmv c .actCtl).mask) ∧
  (∀ (c : Fin 64) (s : State), s.dev.dmvState c ≠ 3 → exec (.dmvAck c) s = .next (s.onto s.dev))

/-- FW_COMMIT of a target whose image in use is signed under image key k sets the revocation bit of every image key below k, and leaves
that of k and of every key above it. An image signed under a revoked key is in error. (R339.) -/
def Obligations.CommitRevokesEveryLowerImageKey : Prop :=
  (∀ (path : Path) (target : Fin 4) (slot k : Nat) (i : Sys2Proof.Image) (s : State), s.dev.takesStoluo path 0xC052 →
    tget s.dev.mgmt.inUse target.val = some slot → tget s.dev.mgmt.flash (target.val, slot) = some i → i.keyId = k + 1 → k < 4 →
    yields (.fwCommit path [BitVec.ofNat 8 target.val, 0, 0, 0]) s fun t => (∀ j < k, t.sec.otp.revoked.getD j false = true) ∧
      t.sec.otp.revoked.getD k false = s.dev.sec.otp.revoked.getD k false ∧
      ∀ j, k ≤ j → j < 4 → t.sec.otp.revoked.getD j false = s.dev.sec.otp.revoked.getD j false) ∧
  (∀ (d : Dev) (target k : Nat) (i : Sys2Proof.Image), i.keyId = k + 1 → k < 4 → d.sec.otp.revoked.getD k false = true →
    (d.imageError target i).isSome = true)

/-- A write that the access checks let through, at the width or the low half of a register without a rule of its own, sets every field it
covers as its access code gives (RW, RWS and RWL take the value, RW1C clears where a 1 is written, RO and RC keep it, WO reads 0), leaves
reserved bits 0, every other register and everything that is no register. A CXL.io write of a wrong width or alignment is answered as an
error and changes nothing. A 4-byte write where no register stands changes nothing. A mailbox doorbell takes the command where none is
under way. (R5, R6, R7, R8, R285.) -/
def Obligations.RegisterWriteFollowsAccessCodes : Prop :=
  (∀ (who : RegRequester) (a w : Nat) (v : Word) (s : State) (d : Dev) (r : Reg),
    s.dev.regCheck who a w true = (.ok, d) → s.dev.regAt who a = some r → r.plain = true → (w = r.layout.width / 8 ∨ w = 4) →
    yields (.registerWrite who a w v) s fun t =>
      (∀ f ∈ r.layout.fields, ∀ i, f.lo ≤ i → i ≤ f.hi → i < 8 * w →
        (t.reg r).toNat.testBit i = f.acc.after ((s.dev.reg r).toNat.testBit i) (v.toNat.testBit i)) ∧
      (∀ i, (∀ f ∈ r.layout.fields, ¬(f.lo ≤ i ∧ i ≤ f.hi)) → (t.reg r).toNat.testBit i = false) ∧
      (∀ r', r' ≠ r → r'.show = false → t.reg r' = s.dev.reg r') ∧ s.dev.onlyRegs t) ∧
  (∀ (who : RegRequester) (a w : Nat) (v : Word) (s : State),
    byCxlIo who = true → ¬((w = 4 ∨ w = 8) ∧ a % w = 0) →
    exec (.registerWrite who a w v) s = .next (s.onto (s.dev.emit (.access (regKind who) 1 0)))) ∧
  (∀ (who : RegRequester) (a : Nat) (v : Word) (s : State) (d : Dev),
    s.dev.regCheck who a 4 true = (.ok, d) → d.regAt who a = none → (a % 8 = 4 → d.regAt who (a - 4) = none) →
    exec (.registerWrite who a 4 v) s = .next (s.onto (if byCxlIo who then d else d.emit (.access (regKind who) 0 0)))) ∧
  (∀ (m : Fin 65) (s : State), s.dev.aoOnly = false → s.dev.domState domMgt ≤ 2 →
    exec (.mailboxDoorbell m) s = .next (s.onto (if s.dev.bitOf (.mbxCtl m) 0 then s.dev else s.dev.doorbell m)))

/-- A low-half read of a counter or of FTIME answers the low half and latches the high one. A counter write replaces it. FREEZE, SNAP
and SWAP writes set their bit and leave the others. Clearing VIOL_INFO clears the record. A snapshot copies every counter of a unit that
has power at one time, gives zeros and STATUS for one that has not, and leaves the counters. A wrap sets the overflow bit and, where
enabled, signals the unit's source. A latency sample swaps banks on SWAP and otherwise counts the depth and the head's delay of its
slot. A temperature reading sets warning, throttle and trip with their hysteresis and signals the die's source. A thermal trip holds
cold reset and FAULT_B. (R323, R407, R408, R410, R411, R413, R415, R420, R459, R460.) -/
def Obligations.CountersSnapshotsAndSamplesAreTaken : Prop :=
  (∀ (who : RegRequester) (u : Fin 37) (i : Fin 9) (s : State) (d : Dev), who.endpoint = true →
    s.dev.regCheck who (counterAddr u i) 4 false = (.ok, d) →
    yields (.pmcLowHalfRead who u i) s fun t =>
      let r : Reg := if i.val = 8 then .pmcCycles u else .pmcCnt u i
      .access (regKind who) 0 (BitVec.ofNat 64 ((s.dev.reg r).toNat % 2 ^ 32)) ∈ t.out ∧
        tget t.tel.latch u.val = some (BitVec.ofNat 32 ((s.dev.reg r).toNat / 2 ^ 32)) ∧ ∀ r', r'.show = false → t.reg r' = s.dev.reg r') ∧
  (∀ (who : RegRequester) (s : State) (d : Dev), who.endpoint = true → s.dev.regCheck who 0x20008 4 false = (.ok, d) →
    yields (.ftimeLowHalfRead who) s fun t =>
      .access (regKind who) 0 (BitVec.ofNat 64 ((s.dev.reg .ftime).toNat % 2 ^ 32)) ∈ t.out ∧
        t.tel.ftimeHigh = some (BitVec.ofNat 32 ((s.dev.reg .ftime).toNat / 2 ^ 32)) ∧ ∀ r', r'.show = false → t.reg r' = s.dev.reg r') ∧
  (∀ (who : RegRequester) (u : Fin 37) (i : Fin 9) (v : Word) (s : State) (d : Dev), who.endpoint = true →
    s.dev.regCheck who (counterAddr u i) 8 true = (.ok, d) →
    yields (.pmcCounterWrite who u i v) s fun t =>
      let r : Reg := if i.val = 8 then .pmcCycles u else .pmcCnt u i
      t.reg r = (if i.val = 8 then v else v &&& 0xFFFFFFFFFFFF) ∧ s.dev.onlyRegs t ∧ ∀ r', r' ≠ r → r'.show = false → t.reg r' = s.dev.reg r') ∧
  (∀ (who : RegRequester) (freeze : Bool) (s : State) (d : Dev), who.endpoint = true → s.dev.regCheck who 0x440000 4 true = (.ok, d) →
    yields (.pmcFreezeWrite who freeze) s fun t =>
      t.bitOf .pmcGlbCtl 31 = freeze ∧ t.bitOf .pmcGlbCtl 29 = s.dev.bitOf .pmcGlbCtl 29 ∧ s.dev.onlyRegs t ∧
        ∀ r', r' ≠ .pmcGlbCtl → r'.show = false → t.reg r' = s.dev.reg r') ∧
  (∀ (who : RegRequester) (s : State) (d : Dev), who.endpoint = true → s.dev.regCheck who 0x440000 4 true = (.ok, d) →
    yields (.pmcSnap who) s fun t =>
      t.bitOf .pmcGlbCtl 29 = true ∧ t.bitOf .pmcGlbCtl 31 = s.dev.bitOf .pmcGlbCtl 31 ∧ s.dev.onlyRegs t ∧
        ∀ r', r' ≠ .pmcGlbCtl → r'.show = false → t.reg r' = s.dev.reg r') ∧
  (∀ (who : RegRequester) (s : State) (d : Dev), who.endpoint = true → s.dev.regCheck who 0x700000 4 true = (.ok, d) →
    yields (.tlsSwap who) s fun t =>
      t.bitOf .tlsCtl 29 = true ∧ t.bitOf .tlsCtl 31 = s.dev.bitOf .tlsCtl 31 ∧ t.rd .tlsCtl 15 0 = s.dev.rd .tlsCtl 15 0 ∧
        t.bitOf .tlsCtl 28 = s.dev.bitOf .tlsCtl 28 ∧ s.dev.onlyRegs t ∧ ∀ r', r' ≠ .tlsCtl → r'.show = false → t.reg r' = s.dev.reg r') ∧
  (∀ (who : RegRequester) (v : Fin 17) (s : State) (d : Dev), who.endpoint = true →
    s.dev.regCheck who (0x309008 + v * 0x20) 4 true = (.ok, d) →
    yields (.violInfoClear who v) s fun t =>
      t.reg (.violAddr v) = 0 ∧ t.reg (.violInfo v) = 0 ∧ t.reg (.violCount v) = 0 ∧ s.dev.onlyRegs t ∧
        ∀ r', r' ≠ .violAddr v → r' ≠ .violInfo v → r' ≠ .violCount v → r'.show = false → t.reg r' = s.dev.reg r') ∧
  (∀ s : State, s.dev.bitOf .pmcGlbCtl 29 = true →
    yields .snapshotTaken s fun t =>
      t.bitOf .pmcGlbCtl 29 = false ∧ t.reg .pmcSnapFtime = s.dev.reg .ftime ∧
      (∀ u, u < 37 →
        let off := 3 ≤ s.dev.heldState (pmuHeld u)
        t.reg (.pmcSnapCycles u) = (if off then 0 else s.dev.reg (.pmcCycles u)) ∧
        (∀ i, i < 8 → t.reg (.pmcSnapCnt u i) = if off then 0 else s.dev.reg (.pmcCnt u i) &&& 0xFFFFFFFFFFFF) ∧
        (t.bitOf (.pmcStatus u) 18 = if off then true else s.dev.bitOf (.pmcStatus u) 18)) ∧
      (∀ u, t.reg (.pmcCycles u) = s.dev.reg (.pmcCycles u) ∧ ∀ i, t.reg (.pmcCnt u i) = s.dev.reg (.pmcCnt u i)) ∧
      s.dev.onlyRegs t) ∧
  (∀ (u : Fin 37) (i : Fin 9) (rest : BitVec 48) (s : State), s.dev.heldState (pmuHeld u) < 2 → i.val < 8 →
    getBits (s.dev.reg (.pmcEvsel u i)) 63 63 = 1 → s.dev.bitOf .pmcGlbCtl 31 = false →
    pmuServes u (getBits (s.dev.reg (.pmcEvsel u i)) 15 0) = true →
    yields (.counterWrap u i rest) s fun t =>
      (t.reg (.pmcCnt u i)).toNat = rest.toNat ∧ t.bitOf (.pmcStatus u) i = true ∧
      (s.dev.bitOf (.pmcEvsel u i) 61 = true → s.dev.domState (sourceDomain (pmuSource u)) < 2 →
        (tgetD s.dev.flt.pairs (pmuSource u) ⟨.normal, 0, 0⟩).code = .normal →
        tget t.flt.pairs (pmuSource u) = some ⟨.fault, 0, i⟩) ∧
      ∀ r, r.side = false → r.show = false → t.reg r = s.dev.reg r) ∧
  (∀ (u : Fin 37) (rest : BitVec 48) (s : State), s.dev.heldState (pmuHeld u) < 2 →
    yields (.counterWrap u 8 rest) s fun t =>
      (t.reg (.pmcCycles u)).toNat = rest.toNat ∧ t.bitOf (.pmcStatus u) 16 = true ∧ s.dev.onlyRegs t ∧
      ∀ r, r ≠ .pmcCycles u → r.side = false → r.show = false → t.reg r = s.dev.reg r) ∧
  (∀ (s : State), s.dev.bitOf .tlsCtl 31 = true → s.dev.bitOf .tlsCtl 29 = true →
    yields .tlsSample s fun t =>
      t.bitOf .tlsCtl 29 = false ∧ t.bitOf .tlsCtl 28 = !s.dev.bitOf .tlsCtl 28 ∧
      (∀ i h b, t.reg (.tlsHist i (s.dev.rd .tlsCtl 28 28) h b) = s.dev.reg (.tlsHist i (s.dev.rd .tlsCtl 28 28) h b)) ∧
      (∀ i, getBits (s.dev.reg (.tlsSlotCfg i)) 63 63 = 0 → ∀ h b, t.rd (.tlsHist i (1 - s.dev.rd .tlsCtl 28 28) h b) 31 0 = 0)) ∧
  (∀ (s : State) (i : Nat) (cfg : Word) (msgs : List Msg) (key : Egress × Nat × Nat), s.dev.bitOf .tlsCtl 31 = true →
    s.dev.bitOf .tlsCtl 29 = false → s.dev.tel.tlsForce = [(i, cfg)] → getBits cfg 63 63 = 1 → s.dev.slotQueue cfg = some (msgs, key) →
    yields .tlsSample s fun t =>
      let k := s.dev.rd .tlsCtl 28 28
      let depth := (msgs.map (·.cells)).sum
      let delay := if msgs.isEmpty then 0 else s.dev.now - tgetD s.dev.sw.headAt key s.dev.now
      let bd := histBin (getBits cfg 15 0) depth
      let bt := histBin (getBits cfg 31 16) delay
      t.rd (.tlsHist i k 0 bd) 31 0 = min (2 ^ 32 - 1) (s.dev.rd (.tlsHist i k 0 bd) 31 0 + 1) ∧
      t.rd (.tlsHist i k 1 bt) 31 0 = min (2 ^ 32 - 1) (s.dev.rd (.tlsHist i k 1 bt) 31 0 + 1) ∧ s.dev.onlyRegs t ∧
      ∀ r, r ≠ .tlsHist i k 0 bd → r ≠ .tlsHist i k 1 bt → r.show = false → t.reg r = s.dev.reg r) ∧
  (∀ (die : Fin 5) (x : Nat) (s : State), s.dev.mgmt.coldHeld = false →
    yields (.temperatureThreshold die x) s fun t =>
      let o := s.dev.temp die
      t.temp die = ⟨x, decide (95 ≤ x) || (o.warned && decide (92 ≤ x)), decide (100 ≤ x) || (o.throttle && decide (97 ≤ x)),
        decide (110 ≤ x)⟩ ∧
      (s.dev.domState (sourceDomain (tempSource die)) < 2 → (tgetD s.dev.flt.pairs (tempSource die) ⟨.normal, 0, 0⟩).code = .normal →
        tget t.flt.pairs (tempSource die) =
          if 110 ≤ x ∧ o.hot = false then some ⟨.fault, 3, x % 2 ^ 96⟩
          else if (100 ≤ x ∧ o.throttle = false) ∨ (95 ≤ x ∧ o.warned = false) then some ⟨.fault, 1, x % 2 ^ 96⟩
          else tget s.dev.flt.pairs (tempSource die))) ∧
  (∀ (die : Fin 5) (x : Nat) (s : State), 120 ≤ x →
    yields (.thermalTrip die x) s fun t =>
      s.dev.coldLeft t ∧ t.mgmt.tripHeld = true ∧ t.bitOf .faultStat 27 = true ∧ t.temp die = ⟨x, true, true, true⟩)

/-- An accepted event of an enabled source sets PENDING, the worst class and its severity, counts, and writes a fault record with its
time, source, class, severity and detail when its severity is not 0; with REACT.FW it tells firmware. A broken wire sets PENDING and
WIRE at the source's top severity. Nothing of the ports changes but DPC of a PASS port that has it enabled. A failed self test, or a third transient in a day, retires the resource and notes it in STATUS and
the record; a passed one only notes a transient. A scrub that finds a corrupted configuration enters the safe state. FAULT_CLEAR clears
the named source and answers whether it is still pending. RESOURCE_RESTORE brings back a retired resource that passes its test, and else
fails. (R376, R378, R380, R381, R390, R393, R401.) -/
def Obligations.FaultEventsAreLoggedTestedAndCleared : Prop :=
  (∀ (n : Fin 1024) (cls : Fin 5) (detail : BitVec 96) (s : State), sourceKnown n = true → s.dev.domState (sourceDomain n) < 2 →
    (tgetD s.dev.flt.pairs n.val ⟨.normal, 0, 0⟩).code ≠ .fault → s.dev.srcCfgOk n = true → s.dev.bitOf (.srcCfg n) 31 = true →
    s.dev.rd (.srcCfg n) 15 13 = 0 → s.dev.rd (.srcCfg n) 19 18 ≤ s.dev.severity n cls → n.val ≠ 0x340 → n.val ≠ 0x341 →
    yields (.faultSignal n cls detail none) s fun t =>
      t.bitOf (.srcStatus n) 63 = true ∧ t.rd (.srcStatus n) 61 59 = max (s.dev.rd (.srcStatus n) 61 59) cls ∧
      (s.dev.rd (.srcStatus n) 61 59 ≤ cls.val → t.rd (.srcStatus n) 58 57 =
        if s.dev.bitOf (.srcStatus n) 62 then max (s.dev.severity n cls) (s.dev.rd (.srcStatus n) 58 57) else s.dev.severity n cls) ∧
      min (2 ^ 32 - 1) (s.dev.rd (.srcStatus n) 31 0 + 1) ≤ t.rd (.srcStatus n) 31 0 ∧
      (s.dev.bitOf (.srcStatus n) 63 = false → s.dev.severity n cls ≠ 0 → max s.dev.flt.log.a.length s.dev.flt.log.b.length < 8192 →
        ∃ x : FaultRec, t.flt.log = (s.dev.flt.log.append 8192 1 3 s.dev.flt.diesOut x).1 ∧ x.seq = s.dev.flt.log.seq ∧
          x.ftime = s.dev.now ∧ x.source = n ∧ x.cls = cls ∧ x.sev = s.dev.severity n cls ∧ x.wire = false ∧ x.count = 1 ∧
          x.detail = detail.toNat) ∧
      (bit (s.dev.reactions n true) 0 = true → .firmware 0x200 n.val ∈ t.out) ∧
      t.pool = s.dev.pool ∧ t.dir = s.dev.dir ∧ t.sw = s.dev.sw ∧ t.svc = s.dev.svc ∧
      t.port = (s.dev.dpcOn n (s.dev.severity n cls)).port ∧ t.link = s.dev.link ∧
      t.fab = s.dev.fab ∧ t.sec = s.dev.sec ∧ ∀ r : Reg, r.side = false → r.show = false → t.reg r = s.dev.reg r) ∧
  (∀ (n : Fin 1024) (s : State), sourceKnown n = true → s.dev.domState (sourceDomain n) < 2 →
    (tgetD s.dev.flt.pairs n.val ⟨.normal, 0, 0⟩).code ≠ .wire → s.dev.srcCfgOk n = true → s.dev.bitOf (.srcCfg n) 31 = true →
    s.dev.rd (.srcCfg n) 15 13 = 0 → (n.val < 0x340 ∨ 0x380 ≤ n.val) →
    yields (.brokenWire n) s fun t =>
      t.bitOf (.srcStatus n) 63 = true ∧ t.bitOf (.srcStatus n) 62 = true ∧
      t.rd (.srcStatus n) 58 57 = max (s.dev.topSeverity n) (s.dev.rd (.srcStatus n) 58 57) ∧
      t.rd (.srcStatus n) 61 59 = s.dev.rd (.srcStatus n) 61 59 ∧ tget t.flt.pairs n.val = some ⟨.wire, 0, 0⟩ ∧
      t.pool = s.dev.pool ∧ t.dir = s.dev.dir ∧ t.sw = s.dev.sw ∧ t.svc = s.dev.svc ∧
      t.port = (s.dev.dpcOn n (s.dev.topSeverity n)).port ∧ t.link = s.dev.link ∧
      t.fab = s.dev.fab ∧ t.sec = s.dev.sec ∧ ∀ r : Reg, r.side = false → r.show = false → t.reg r = s.dev.reg r) ∧
  (∀ (n : Fin 1024) (resource : Resource) (number : Nat) (s : State) (x : TestDue),
    s.dev.flt.testDue.find? (fun t => decide (t.source = n.val ∧ t.resource = resource ∧ t.number = number)) = some x →
    let d : Dev := { s.dev with flt := { s.dev.flt with
      testDue := s.dev.flt.testDue.filter fun t => !decide (t.source = n.val ∧ t.resource = resource ∧ t.number = number) } }
    let recent := (s.dev.retireRec resource number).transients.filter fun x => decide (s.dev.now < x + 86400 * 10 ^ 9)
    let logged (d : Dev) (code : Nat) (lasting : Bool) : Dev :=
      match x.record with
      | some r => d.writeFault { r with test := code, retired := lasting }
      | none => d
    exec (.selfTestResult n resource number false) s =
        .next (s.onto (((logged ((d.wr (.srcStatus n) 56 55 2).wr (.srcStatus n) 54 54 1) 2 true).retireResource resource number).mgmtVector 6)) ∧
      (2 ≤ recent.length → exec (.selfTestResult n resource number true) s =
        .next (s.onto (((logged ((d.wr (.srcStatus n) 56 55 3).wr (.srcStatus n) 54 54 1) 3 true).retireResource resource number).mgmtVector 6))) ∧
      (recent.length < 2 → yields (.selfTestResult n resource number true) s fun t =>
        t.rd (.srcStatus n) 56 55 = 1 ∧ t.bitOf (.srcStatus n) 54 = s.dev.bitOf (.srcStatus n) 54 ∧
        (s.dev.flt.diesOut = [] → t.retireRec resource number = ⟨(s.dev.retireRec resource number).retired, recent ++ [s.dev.now]⟩) ∧
        t.flt.testDue = d.flt.testDue ∧ t.pool = s.dev.pool ∧ t.dir = s.dev.dir ∧ t.sw = s.dev.sw ∧ t.svc = s.dev.svc)) ∧
  (∀ (n : Nat) (s : State), (List.range 1024).find? (fun n => !s.dev.srcCfgOk n) = some n →
    exec .carillonConfigScrub s = .next (s.onto ((s.dev.report 0x340 4 n).enterSafe 1))) ∧
  (∀ s : State, (∀ n, n < 1024 → s.dev.srcCfgOk n = true) → exec .carillonConfigScrub s = .next (s.onto s.dev)) ∧
  (∀ (path : Path) (input : List Byte) (s : State), s.dev.takesStoluo path 0xC078 → faultClearForm input = true → field input 0 2 < 1024 →
    let n := field input 0 2
    let named := (s.dev.clearSource (decide (field input 2 1 = 1)) n).showFaults
    exec (.faultClear path input) s =
      .next (s.onto (named.complete path 0xC078 0 0 (toBytes 2 (if named.bitOf (.srcStatus n) 63 then 1 else 0) ++ [0, 0])))) ∧
  (∀ (path : Path) (input : List Byte) (s : State) (r : Resource) (k : Nat), s.dev.takesStoluo path 0xC079 → restoreForm input = true →
    restoreKind (field input 0 1) = some (r, k) → s.dev.isRetired r (field input 1 2) = true → s.dev.stillMoving r (field input 1 2) = false →
    tget s.dev.mgmt.bg path = none →
    exec (.resourceRestore path input true) s =
        .next (s.onto (((s.dev.bgStart path 0xC079).restoreResource r (field input 1 2)).showRetired.bgResult path 0 0)) ∧
      exec (.resourceRestore path input false) s = .next (s.onto ((s.dev.bgStart path 0xC079).bgResult path 7 2)))

/-- The loss of a tambour's logic removes its ports, its link, its engines and its channels, and resets the slice's outstanding count. A
moved slice fits its guest tambour and the lost directory's domain goes off; while the victim buffer has no room, the move goes on. A lost
directory moves its slices or loses them. A lost hub quarter discards every message with a cell in it and shows the cells left; losing all
enters the safe state. A lost port die removes its ports and links and is reported. A port die that returns has its logs written anew from
their mirror and its domain on, and the pool, directory entries, switch, services, ports and links as before. The reference clock of a die
and AOCLK show when they are lost and when they return. (R386, R387, R389, R394, R395, R397, R398, R369, R370.) -/
def Obligations.PartsAreLostAndReturn : Prop :=
  (∀ (t : Fin 16) (lasting : Bool) (s : State), s.dev.logicUp t = true →
    let d : Dev := { s.dev with flt := { s.dev.flt with logicOut := s.dev.flt.logicOut ++ [t.val] } }
    let ports := (List.range 4).foldl (fun (d : Dev) k => d.removal (4 * t.val + k)) d
    let engines := (List.range 16).foldl (fun (d : Dev) k => d.engineLeaves (16 * t.val + k)) ((ports.linkDead t 8).pmuLost t)
    let channels := (List.range 4).foldl (fun (d : Dev) k => d.channelLeaves (4 * t.val + k) true) engines
    let left := (channels.setReg (.dirCtStatus t) 0).showEngines t
    (lasting = false → exec (.tambourLogicLost t lasting) s = .next (s.onto left)) ∧
      (lasting = true → left.isRetired .tambour t = true → exec (.tambourLogicLost t lasting) s = .next (s.onto left))) ∧
  (∀ (t u : Fin 16) (s : State), tget s.dev.flt.moving t.val = some u.val →
    let fitted := ((s.dev.takeGuest u t).slicesAt u).foldl (fun (d : Dev) x => d.fitSlice x) (s.dev.takeGuest u t)
    let d : Dev := { fitted with flt := { fitted.flt with moving := tdel fitted.flt.moving t.val } }
    (((fitted.slicesAt u).all fun x => fitted.fits x) = false → exec (.sliceMoveComplete t) s = .next (s.onto fitted)) ∧
      (((fitted.slicesAt u).all fun x => fitted.fits x) = true →
        exec (.sliceMoveComplete t) s = .next (s.onto (if d.domState (domTdir t) ≤ 2 then d.domainOff (domTdir t) 3 else d)))) ∧
  (∀ (t : Fin 16) (s : State), s.dev.isRetired .tdir t = false →
    let d := s.dev.markRetired .tdir t
    exec (.tdirLost t) s =
      .next (s.onto (((d.moveSlices t (d.slicesToMove t) true).directoryLost (s.dev.slicesAt t)).mgmtVector 6))) ∧
  (∀ (q : Fin 4) (s : State), s.dev.hubLost q = false → s.dev.sw.napping = none →
    let d : Dev := (s.dev.markRetired .hub q).wr .retireStatus (8 + q) (8 + q) 1
    let out : Dev := Dev.wr { d with sw := { d.sw with leaving := none } } .bufStatus (28 + q) (28 + q) 0
    let unread := (out.sw.linger.filter fun m => m.quarters.getLsbD q).foldl (fun (d : Dev) m => d.dropRecords m.id) out
    let gone := (((out.sw.msgs.filter fun m => m.quarters.getLsbD q).foldl (fun (d : Dev) m => d.discardCounted m) unread).showCells).mgmtVector 6
    exec (.hubQuarterLost q) s = .next (s.onto (if (List.range 4).any s.dev.hubLost then gone.enterSafe 3 else gone))) ∧
  (∀ (die : Fin 4) (s : State), die.val ∉ s.dev.flt.diesOut →
    let ports := (List.range 16).foldl (fun (d : Dev) k => d.removal (16 * die.val + k)) s.dev
    let links := (List.range 4).foldl (fun (d : Dev) k => d.linkLost (4 * die.val + k) 8) ports
    let out : Dev := { links with flt := { links.flt with diesOut := links.flt.diesOut ++ [die.val] } }
    let pmus := (List.range 4).foldl (fun (d : Dev) k => d.pmuLost (20 + 4 * die.val + k)) (out.pmuLost (16 + die.val))
    exec (.portDieLost die) s =
      .next (s.onto ((pmus.report 0x395 1 (die.val + 4 * dieLogs die.val)).domainOff (domPdie die) 4))) ∧
  (∀ (die : Fin 4) (s : State), s.dev.isRetired .portDie die = false →
    yields (.portDieReturn die) s fun t =>
      t.flt.diesOut = (s.dev.flt.diesOut.filter fun x => !decide (x = die.val)) ∧
      (∀ other : Nat, other = (die.val + 2) % 4 → die.val ∈ s.dev.flt.diesOut → other ∉ s.dev.flt.diesOut →
        (die.val % 2 = 0 → t.dir.lostLog.a = t.dir.lostLog.b ∧ t.fab.log.a = t.fab.log.b) ∧
        (die.val % 2 = 1 → t.flt.log.a = t.flt.log.b ∧ t.flt.retirement.a = t.flt.retirement.b ∧ t.sec.lockRecord.a = t.sec.lockRecord.b)) ∧
      t.rd (.domStatus (domPdie die)) 31 29 = 0 ∧
      t.pool = s.dev.pool ∧ t.dir.entries = s.dev.dir.entries ∧ t.sw = s.dev.sw ∧ t.svc = s.dev.svc ∧ t.port = s.dev.port ∧ t.link = s.dev.link) ∧
  (∀ (die : Fin 4) (s : State), (∀ k < 16, ¬(2 ≤ s.dev.portState (16 * die.val + k) ∧ s.dev.portState (16 * die.val + k) ≤ 7) ∧
      s.dev.portState (16 * die.val + k) ≠ 10) → (∀ k < 4, s.dev.active (4 * die.val + k) = false ∧ s.dev.linkState (4 * die.val + k) ≠ 1) →
    yields (.refclkLoss die) s fun t => t.bitOf .clkStatus (26 + die.val) = false ∧ t.port = s.dev.port ∧ t.link = s.dev.link ∧
      t.pool = s.dev.pool ∧ t.dir = s.dev.dir ∧ ∀ r : Reg, r ≠ .clkStatus → r.side = false → r.show = false → t.reg r = s.dev.reg r) ∧
  (∀ (die : Fin 4) (s : State), exec (.refclkReturn die) s = .next (s.onto (s.dev.wr .clkStatus (26 + die.val) (26 + die.val) 1))) ∧
  (∀ s : State, yields .aoclkLoss s fun t => t.bitOf .clkStatus 30 = true ∧ t.bitOf .clkStatus 31 = false ∧ t.port = s.dev.port ∧
    t.link = s.dev.link ∧ ∀ r : Reg, r ≠ .clkStatus → r.side = false → r.show = false → t.reg r = s.dev.reg r) ∧
  (∀ s : State, exec .aoclkReturn s = .next (s.onto ((s.dev.wr .clkStatus 31 31 1).wr .clkStatus 30 30 0)))

/-- A low PORST_B leaves every register outside AO at its reset value, every domain but AO asleep, no key, no binding and no directory
entry, and keeps memory, OTP, flash and the logs. The release of cold reset boots: with no valid image the ROM is in RECOVERY with its
error and FAULT_B low; with one and no BCB image it waits for the BCB with the image measured and the bus address from the straps. A low
WRST_B leaves warm-domain registers at reset values and ends sessions, challenges and commands; its rise starts ports where the boot was
done. A trial boot that times out falls back to the other slot. (R9, R50, R308, R311, R433, R435, R436.) -/
def Obligations.ResetsLeaveWhatTheyKeep : Prop :=
  (∀ s : State, s.dev.mgmt.coldHeld = false →
    yields .porstBFall s fun t => s.dev.coldLeft t ∧ t.mgmt.porst = false ∧ t.pwr.tripOver = s.dev.mgmt.tripHeld) ∧
  (∀ (straps : BitVec 4) (found : List ((Nat × Nat) × Sys2Proof.Image)) (entropyOk trialStarts : Bool) (s : State),
    s.dev.mgmt.coldHeld = true → s.dev.railsReady = true → s.dev.pwr.feedOut = [] → s.dev.mgmt.tripHeld = false →
    let d : Dev := { s.dev with
      mgmt := { s.dev.mgmt with
        porst := true, wrst := true, strapAddr := straps.toNat % 8, strapBus := straps.getLsbD 3, i3cBus := straps.getLsbD 3
        tripHeld := false, flash := found.foldl (fun m (x : (Nat × Nat) × Sys2Proof.Image) => tset m x.1 x.2) s.dev.mgmt.flash }
      pwr := { s.dev.pwr with tripOver := false } }
    exec (.coldResetRelease straps found entropyOk trialStarts) s = .next (s.onto (d.boot entropyOk trialStarts)) ∧
      ((∀ slot, d.validImage 0 slot = none) →
        yields (.coldResetRelease straps found entropyOk trialStarts) s fun t =>
          t.stage = 8 ∧ t.rd .oobBoot 23 16 = d.slotError 0 d.mgmt.preferred ∧ t.mgmt.coldHeld = false ∧ t.mgmt.fwUp = false ∧
            t.bitOf .faultStat 27 = true) ∧
      (∀ i, d.validImage 0 d.mgmt.preferred = some i → d.mgmt.trial = false → (∀ slot, d.validImage 3 slot = none) →
        yields (.coldResetRelease straps found entropyOk trialStarts) s fun t =>
          t.stage = 9 ∧ t.rd .oobBoot 23 16 = 7 ∧ t.mgmt.coldHeld = false ∧ t.mgmt.fwUp = true ∧ t.mgmt.fwVersion = i.version ∧
            tget t.mgmt.measured 2 = some i.hash ∧ t.mgmt.mctpAddr = 0x60 + straps.toNat % 8 ∧ t.mgmt.i3cBus = false)) ∧
  (∀ s : State, s.dev.mgmt.coldHeld = false →
    yields .wrstBFall s fun t =>
      t.mgmt.wrst = false ∧ t.mgmt.warmHeld = true ∧ t.sec.sessions = [] ∧ t.sec.challenge = none ∧ t.rd .secStatus 29 28 = 0 ∧
      (∀ r : Reg, ResetDomain.warm.covers r.layout.domain = true → r.show = false → r ≠ .secStatus → t.reg r = r.layout.reset) ∧
      t.mgmt.submitted = [] ∧ t.mgmt.bg = [] ∧ t.mgmt.mctpEid = none) ∧
  (∀ s : State, s.dev.mgmt.coldHeld = true → s.dev.mgmt.porst = true →
    exec .wrstBFall s = .next (s.onto { s.dev with mgmt := { s.dev.mgmt with wrst := false } })) ∧
  (∀ s : State, s.dev.mgmt.warmHeld = true →
    let d : Dev := { s.dev with mgmt := { s.dev.mgmt with wrst := true, warmHeld := false } }
    exec .wrstBRise s = .next (s.onto (if s.dev.stage = 7 then d.startPorts else d))) ∧
  (∀ (i : Sys2Proof.Image) (s : State), s.dev.stage = 5 → s.dev.bitOf .oobBoot 26 = true →
    s.dev.validImage 0 (1 - s.dev.rd .oobBoot 27 27) = some i →
    exec .bootTrialTimeout s = .next (s.onto
      (((((s.dev.boot1 24 24 1).boot1 23 16 6).boot1 26 26 0).startFirmware (1 - s.dev.rd .oobBoot 27 27) i).bootBcb)))

/-- RESET of the device answers first and is then a warm reset. RESET of a tambour ends and re-executes its operations and brings it
back. RESET of a port or link takes it down as a removal or a dead link does, and completes when the teardown has ended. After MGT
returns, the firmware image of the slot in use runs, measured and with its aliases held, and the pool, directory, switch, services,
ports, links and fabric are as before. (R315, R399.) -/
def Obligations.BlocksAreResetByCommand : Prop :=
  (∀ (path : Path) (input : List Byte) (s : State), s.dev.takesStoluo path 0xC058 → input.length = 4 → field input 1 3 = 0 →
    exec (.resetWarm path input) s = .next (s.onto (((s.dev.complete path 0xC058 0 0 []).warmReset).warmEnd))) ∧
  (∀ (path : Path) (input : List Byte) (s : State), s.dev.takesStoluo path 0xC058 → resetForm input 16 = true →
    s.dev.isRetired .tambour (field input 1 1) = false →
    exec (.resetTambour path input) s = .next (s.onto
      (((((s.dev.tambourLost (field input 1 1) false).reexecuteAll (field input 1 1)).tambourBack (field input 1 1)).showEngines
        (field input 1 1)).complete path 0xC058 0 0 []))) ∧
  (∀ (path : Path) (input : List Byte) (s : State), s.dev.takesStoluo path 0xC058 → resetForm input 64 = true →
    (s.dev.prec (field input 1 1)).resetBy = none →
    let d := s.dev.removal (field input 1 1)
    exec (.resetPort path input) s = .next (s.onto
      (if d.portState (field input 1 1) = 7 then d.modPort (field input 1 1) fun r => { r with resetBy := some path }
        else d.complete path 0xC058 0 0 []))) ∧
  (∀ (path : Path) (input : List Byte) (s : State), s.dev.takesStoluo path 0xC058 → resetForm input 16 = true →
    (s.dev.lrec (field input 1 1)).resetBy = none →
    let d := s.dev.linkDead (field input 1 1) 8
    exec (.resetLink path input) s = .next (s.onto
      (if (d.lrec (field input 1 1)).tko.isSome then d.modLink (field input 1 1) fun r => { r with resetBy := some path }
        else d.complete path 0xC058 0 0 []))) ∧
  (∀ (i : Sys2Proof.Image) (s : State), s.dev.mgmt.fwUp = false → s.dev.mgmt.coldHeld = false → s.dev.mgmt.warmHeld = false →
    s.dev.aoOnly = false → s.dev.validImage 0 (s.dev.rd .oobBoot 27 27) = some i →
    yields .mgtRestore s fun t =>
      t.mgmt.fwUp = true ∧ t.mgmt.fwVersion = i.version ∧ t.stage = (if s.dev.mgmt.bcb.isSome then 7 else 9) ∧
      t.rd (.domStatus domMgt) 31 29 = 0 ∧ t.sec.aliasHeld = true ∧ tget t.mgmt.measured 2 = some i.hash ∧
      t.pool = s.dev.pool ∧ t.dir = s.dev.dir ∧ t.sw = s.dev.sw ∧ t.svc = s.dev.svc ∧ t.port = s.dev.port ∧ t.link = s.dev.link ∧
      t.fab = s.dev.fab)

/-- INITIATE_DYNAMIC_CAPACITY_ADD starts a background operation, lists each extent as offered under its tag's domain and writes its
event record. The host's response accepts the named extents and withdraws the others, and completes the operation. An offer that times
out while firmware runs lists no offered extent of that host. A release asks the host and lists the extents until it answers; a forced release and
RELEASE_DYNAMIC_CAPACITY unlist them at once. (R54, R55, R56, R57.) -/
def Obligations.DynamicCapacityIsOfferedAndReleased : Prop :=
  (∀ (path : Path) (host : Fin 64) (region : Fin 2) (tag : BitVec 128) (extents ext : List (Nat × Nat)) (s : State),
    s.dev.takesStandard path 0x5604 → s.dev.addRefusal path host region tag.toNat extents = none → asBlocks extents = some ext →
    exec (.initiateDynamicCapacityAdd path host region tag extents) s =
      .next (s.onto ((s.dev.bgStart path 0x5604).offer path host region tag.toNat ext))) ∧
  (∀ (path : Path) (host : Fin 64) (region : Fin 2) (tag : BitVec 128) (extents : List (Nat × Nat)) (f n i : Nat) (r : DomainRec)
    (s : State), s.dev.takesStandard path 0x5604 → s.dev.addRefusal path host region tag.toNat extents = none →
    asBlocks extents = some [(f, n)] → s.dev.tagDomain tag.toNat = some (i, r) →
    yields (.initiateDynamicCapacityAdd path host region tag extents) s fun t =>
      t.pool.extents = s.dev.pool.extents ++ [⟨host, region, f, n, tag.toNat, i, r.blocks, true, s.dev.pool.extentSeq⟩] ∧
      tget t.pool.dcOps host.val = some ⟨true, path, [], 0⟩ ∧ t.pool.domains = s.dev.pool.domains ∧ t.pool.blocks = s.dev.pool.blocks ∧
      .cmdDone path 0x5604 1 0 [] ∈ t.out ∧ .eventRecord host 4 0 (f * 2 ^ 26) ∈ t.out) ∧
  (∀ (p : Fin 64) (accepted : List (Nat × Nat)) (es : List Extent) (s : State), s.dev.takesStandard (.pool p) 0x4802 →
    s.dev.namedExtents p true accepted = some es →
    let d := es.foldl (fun (d : Dev) e => d.acceptExtent e) s.dev
    exec (.addDynamicCapacityResponse p accepted) s =
      .next (s.onto ((((d.offersTo p).foldl (fun (d : Dev) e => d.withdraw e true) d).dcSettle p).complete (.pool p) 0x4802 0 0 []))) ∧
  (∀ (p : Fin 64) (accepted : List (Nat × Nat)) (e : Extent) (path : Path) (s : State), s.dev.takesStandard (.pool p) 0x4802 →
    s.dev.namedExtents p true accepted = some [e] → s.dev.pool.extents = [e] → tget s.dev.pool.dcOps p.val = some ⟨true, path, [], 0⟩ →
    yields (.addDynamicCapacityResponse p accepted) s fun t =>
      t.pool.extents = [{ e with offered := false }] ∧ tget t.pool.dcOps p.val = none ∧ t.pool.fenceQueue = s.dev.pool.fenceQueue ∧
      t.replied (.pool p) 0x4802 0 0 [] ∧ (∀ b, tget s.dev.mgmt.bg path = some b → tget t.mgmt.bg path = some { b with result := some (0, 0) })) ∧
  (∀ (p : Fin 64) (s : State), s.dev.fwRuns = true → yields (.offerTimeout p) s fun t =>
    t.pool.extents = s.dev.pool.extents.filter fun e => !(decide (e.port = p.val) && e.offered)) ∧
  (∀ (p : Fin 64) (s : State), s.dev.fwRuns = false → exec (.offerTimeout p) s = .next (s.onto s.dev)) ∧
  (∀ (path : Path) (host : Fin 64) (extents : List (Nat × Nat)) (es : List Extent) (s : State), s.dev.takesStandard path 0x5605 →
    s.dev.releaseRefusal path host extents = none → s.dev.namedExtents host false extents = some es →
    yields (.initiateDynamicCapacityRelease path host extents) s fun t =>
      tget t.pool.dcOps host.val = some ⟨false, path, es.map fun e => (e.first, e.count), 0⟩ ∧ t.pool.extents = s.dev.pool.extents ∧
      t.pool.fenceQueue = s.dev.pool.fenceQueue ∧ .cmdDone path 0x5605 1 0 [] ∈ t.out ∧
      ∀ e ∈ es, .eventRecord host 4 1 (e.first * 2 ^ 26) ∈ t.out) ∧
  (∀ (path : Path) (host : Fin 64) (extents : List (Nat × Nat)) (es : List Extent) (s : State), s.dev.takesStandard path 0x5605 →
    s.dev.releaseRefusal path host extents = none → s.dev.namedExtents host false extents = some es →
    yields (.forcedRelease path host extents) s fun t =>
      t.pool.extents = (s.dev.pool.extents.filter fun e => !es.contains e) ∧ .cmdDone path 0x5605 1 0 [] ∈ t.out ∧
      ∀ e ∈ es, .eventRecord host 4 2 (e.first * 2 ^ 26) ∈ t.out) ∧
  (∀ (p : Fin 64) (extents : List (Nat × Nat)) (es : List Extent) (s : State), s.dev.takesStandard (.pool p) 0x4803 →
    s.dev.namedExtents p false extents = some es →
    yields (.releaseDynamicCapacity p extents) s fun t =>
      t.pool.extents = (s.dev.pool.extents.filter fun e => !es.contains e) ∧ t.replied (.pool p) 0x4803 0 0 [])

/-- A fence is firmware's: without it FENCE_START and FENCE_STEP_COMPLETE change nothing. FENCE_START does the forced work that has waited
for firmware, takes the next batch and starts at step 1 with the epoch unchanged. Step 1 raises the epoch and drops cached map entries
of the batch; step 2 recalls; step 3 ends only when no granule is left; step 4 only when no access of the old epoch is outstanding, and
recalls again what is tracked by then; step 5 has blocks leave their domains; step 6 ends each record, opens the device to the next batch
and ends a revocation whose fences are done. (R17, R58, R59, R61.) -/
def Obligations.FenceRunsItsSteps : Prop :=
  (∀ s : State, s.dev.fwRuns = false →
    exec .fenceStart s = .next (s.onto s.dev) ∧ exec .fenceStepComplete s = .next (s.onto s.dev)) ∧
  (∀ s : State, s.dev.fwRuns = true → exec .fenceStart s = .next (s.onto s.dev.forcedWork.fenceStart)) ∧
  (∀ (batch left : List FenceRec) (s : State), s.dev.fwRuns = true → s.dev.pool.forcedDue = [] → s.dev.pool.fence = none →
    s.dev.nextBatch s.dev.pool.fenceQueue [] [] = (batch, left) →
    batch ≠ [] → yields .fenceStart s fun t =>
      t.pool.fence = some ⟨batch, 1, s.dev.pool.epoch⟩ ∧ t.pool.fenceQueue = left ∧ t.pool.epoch = s.dev.pool.epoch ∧
      t.pool.extents = s.dev.pool.extents ∧ t.pool.domains = s.dev.pool.domains ∧ t.dir = s.dev.dir) ∧
  (∀ (f : FenceRun) (s : State), s.dev.fwRuns = true → s.dev.pool.fence = some f → f.step = 1 → yields .fenceStepComplete s fun t =>
      t.pool.epoch = s.dev.pool.epoch + 1 ∧ t.pool.fence = some ⟨f.recs, 2, s.dev.pool.epoch⟩ ∧
      (∀ r ∈ f.recs, ∀ b ∈ r.blocks, ∀ n, tget t.pool.blockCache (n, b) = none) ∧
      (∀ r ∈ f.recs, ∀ b ∈ r.slots, (∃ e ∈ s.dev.pool.slots.a ++ s.dev.pool.slots.b, e.1 = b) → ∀ n, tget t.pool.slotCache (n, b) = none) ∧
      t.dir = s.dev.dir) ∧
  (∀ (f : FenceRun) (s : State), s.dev.fwRuns = true → s.dev.pool.fence = some f → f.step = 2 →
    exec .fenceStepComplete s =
      .next (s.onto ((f.recs.foldl (fun (d : Dev) r => d.sweepFor r) s.dev).setFence ⟨f.recs, 3, f.oldEpoch⟩))) ∧
  (∀ (f : FenceRun) (s : State), s.dev.fwRuns = true → s.dev.pool.fence = some f → f.step = 3 → (f.recs.any fun r => s.dev.sweepLeft r) = true →
    exec .fenceStepComplete s = .next (s.onto (f.recs.foldl (fun (d : Dev) r => d.sweepFor r) s.dev))) ∧
  (∀ (f : FenceRun) (s : State), s.dev.fwRuns = true → s.dev.pool.fence = some f → f.step = 3 → (f.recs.any fun r => s.dev.sweepLeft r) = false →
    exec .fenceStepComplete s = .next (s.onto (s.dev.setFence ⟨f.recs, 4, f.oldEpoch⟩))) ∧
  (∀ (f : FenceRun) (s : State), s.dev.fwRuns = true → s.dev.pool.fence = some f → f.step = 4 → s.dev.outstanding f.oldEpoch = 0 →
    (f.recs.any fun r => s.dev.sweepLeft r) = true →
    exec .fenceStepComplete s = .next (s.onto (f.recs.foldl (fun (d : Dev) r => d.sweepFor r) s.dev))) ∧
  (∀ (f : FenceRun) (s : State), s.dev.fwRuns = true → s.dev.pool.fence = some f → f.step = 4 → s.dev.outstanding f.oldEpoch = 0 →
    (f.recs.any fun r => s.dev.sweepLeft r) = false →
    exec .fenceStepComplete s =
      .next (s.onto ((f.recs.foldl (fun (d : Dev) r => d.fenceStep5 r) s.dev).setFence ⟨f.recs, 5, f.oldEpoch⟩))) ∧
  (∀ (f : FenceRun) (s : State), s.dev.fwRuns = true → s.dev.pool.fence = some f → f.step = 4 → s.dev.outstanding f.oldEpoch ≠ 0 →
    exec .fenceStepComplete s = .next (s.onto s.dev)) ∧
  (∀ (f : FenceRun) (s : State), s.dev.fwRuns = true → s.dev.pool.fence = some f → f.step = 5 →
    exec .fenceStepComplete s = .next (s.onto
      ((f.recs.foldl (fun (d : Dev) r => if r.whole then d.leaveDomain r.domain r.blocks else d) s.dev).setFence ⟨f.recs, 6, f.oldEpoch⟩))) ∧
  (∀ (f : FenceRun) (s : State), s.dev.fwRuns = true → s.dev.pool.fence = some f → f.step = 6 →
    let open_ : Dev := { s.dev with pool := { s.dev.pool with fence := none } }
    let done := (List.range 64).foldl (fun (d : Dev) p => d.evacuate p) (f.recs.foldl (fun (d : Dev) r => d.afterFence r.after) open_)
    exec .fenceStepComplete s =
      .next (s.onto (if done.pool.revoking && done.pool.fenceQueue.isEmpty && done.pool.forcedDue.isEmpty then done.revocationEnds else done)))

/-- A spent slot other than 0 is rekeyed while the generator is healthy, and nothing else changes. A loss of KEYV power forgets every
key and revokes every binding. A chunk of a migration that is copied advances its watermark by 4,096 bytes and leaves no entry where its
channel held X; one that a home refuses is not copied, and one that has to wait leaves the device as it was but for what it waits for; a
whole copy replaces source by target everywhere and queues the source's fence. A resynchronised copy is in service. BLOCK_QUERY
answers the block's entry. BLOCK_MIGRATE starts a migration in the background. (R36, R47, R50, R64, R294.) -/
def Obligations.KeysAndMigrationsKeepTheirRecords : Prop :=
  (∀ (slot : Fin 4096) (s : State), slot.val ≠ 0 → s.dev.keySlot slot = .spent → s.dev.drbgOk = true → s.dev.pool.revoking = false →
    s.dev.domState domKeyv ≤ 2 → yields (.keySlotRekey slot) s fun t =>
      t.keySlot slot = .ready ∧ (∀ i, i ≠ slot.val → t.keySlot i = s.dev.keySlot i) ∧
      t.pool.readyOrder = (s.dev.pool.readyOrder.filter fun i => !decide (i = slot.val)) ++ [slot.val] ∧
      t.domState domKeyv = 0 ∧ t.dir = s.dev.dir ∧ t.sw = s.dev.sw ∧ t.mgmt = s.dev.mgmt ∧ t.sec = s.dev.sec) ∧
  (∀ (slot : Fin 4096) (s : State), slot.val = 0 ∨ s.dev.keySlot slot ≠ .spent ∨ s.dev.drbgOk = false →
    exec (.keySlotRekey slot) s = .next (s.onto s.dev)) ∧
  (∀ s : State, exec .keyvPowerLoss s = .next (s.onto
    ((({ s.dev with pool := { s.dev.pool with keys := [], readyOrder := [] } } : Dev).wr .keyStatus 27 16 0 |>.wr .keyStatus 11 0 0
      |>.wr .keyStatus 31 31 0 |>.wr (.domStatus domKeyv) 31 29 4).revoke))) ∧
  (∀ (block : BitVec 20) (m : Migration) (d1 : Dev) (s : State), s.dev.migrationOf block.toNat = some m → s.dev.atRest →
    s.dev.fwRuns = true → s.dev.safe = false → m.watermark < 2 ^ 26 → s.dev.copyChunk m = (true, d1) → d1.dir.turn.stall = none →
    yields (.migrationChunkCopied block) s fun t =>
      t.hub.migrations = (s.dev.hub.migrations.map fun (x : Migration) =>
        if x.source = m.source then { x with watermark := x.watermark + 4096 } else x) ∧
      (∀ g ∈ m.chunk, ∀ h, agentHolder s.dev.migrationAgent = some h → d1.entryState g = 3 →
        ((d1.entry g).map fun e => e.holders.contains h) = some true → t.entry g = none) ∧
      t.pool.extents = s.dev.pool.extents ∧ t.pool.domains = s.dev.pool.domains ∧ t.pool.fence = s.dev.pool.fence) ∧
  (∀ (block : BitVec 20) (m : Migration) (d1 : Dev) (s : State), s.dev.migrationOf block.toNat = some m → s.dev.atRest →
    s.dev.fwRuns = true → s.dev.safe = false → m.watermark < 2 ^ 26 → s.dev.copyChunk m = (false, d1) → d1.dir.turn.stall = none →
    yields (.migrationChunkCopied block) s fun t => t.hub.migrations = s.dev.hub.migrations) ∧
  (∀ (block : BitVec 20) (m : Migration) (ok : Bool) (d1 : Dev) (w : Stall) (s : State), s.dev.migrationOf block.toNat = some m →
    s.dev.atRest → s.dev.fwRuns = true → s.dev.safe = false → m.watermark < 2 ^ 26 → s.dev.copyChunk m = (ok, d1) →
    d1.dir.turn.stall = some w → exec (.migrationChunkCopied block) s = .next (s.onto (s.dev.stalled w).drainAll)) ∧
  (∀ (block : BitVec 20) (m : Migration) (s : State), s.dev.migrationOf block.toNat = some m → s.dev.fwRuns = true → 2 ^ 26 ≤ m.watermark →
    (∀ r ∈ s.dev.pool.fenceQueue ++ ((s.dev.pool.fence.map (·.recs)).getD []), r.after ≠ .migrated m.source) →
    yields (.migrationComplete block) s fun t =>
      (∃ x : FenceRec, t.pool.fenceQueue = (s.dev.pool.fenceQueue.map fun (r : FenceRec) =>
          { r with blocks := replaceBlock m.source m.target r.blocks }) ++ [x] ∧
        x.whole = true ∧ x.blocks = [m.source] ∧ x.after = .migrated m.source) ∧
      t.pool.extents = (s.dev.pool.extents.map fun (e : Extent) => { e with blocks := replaceBlock m.source m.target e.blocks }) ∧
      t.hub.migrations = s.dev.hub.migrations) ∧
  (∀ (setNo : Fin 64) (way : Fin 16) (copy : Fin 2) (sd : SetDesc) (s : State), s.dev.setDesc? setNo = some sd → s.dev.safe = false →
    sd.mirrored = true → sd.resync way copy = true → sd.ok way (1 - copy.val) = true →
    yields (.resyncComplete setNo way copy) s fun t =>
      tget t.hub.sets setNo.val = some (sd.withCopy way copy true false) ∧
      t.hub.repair = (s.dev.hub.repair.filter fun (r : RepairEntry) =>
        !decide (r.set = setNo.val ∧ r.way = way.val ∧ r.copy = copy.val)) ∧
      t.pool.records = s.dev.pool.records ∧ t.pool.blocks = s.dev.pool.blocks ∧ t.pool.keys = s.dev.pool.keys) ∧
  (∀ (path : Path) (input : List Byte) (s : State), s.dev.takesStoluo path 0xC010 → input.length = 4 → field input 0 4 < 2 ^ 20 →
    yields (.blockQuery path input) s fun t =>
      let e := (s.dev.readBlock (field input 0 4)).2.blockEntry (field input 0 4)
      t.replied path 0xC010 0 0
        (toBytes 2 e.owner.toNat ++ toBytes 1 e.state.toNat ++
          toBytes 1 ((if e.remote then 1 else 0) + (if e.coherent then 2 else 0)) ++
          toBytes 4 (if e.remote then 0 else e.set.toNat) ++
          toBytes 4 (if e.remote then e.remoteBlock.toNat else e.setIndex.toNat) ++
          toBytes 2 (if e.remote then e.homeDev.toNat else 0) ++ toBytes 2 (if e.remote then e.remoteDomain.toNat else 0))) ∧
  (∀ (path : Path) (input : List Byte) (target : Nat) (d1 : Dev) (s : State), s.dev.takesStoluo path 0xC011 → input.length = 8 →
    field input 0 4 < 2 ^ 20 → field input 4 1 < 64 → field input 5 3 = 0 → s.dev.mayMigrate (field input 0 4) = true →
    s.dev.hub.migrations.length < 16 → s.dev.bgRunning path = false → s.dev.pickBlocks [field input 4 1] 1 [] = (some [target], d1) →
    yields (.blockMigrate path input) s fun t =>
      t.hub.migrations = s.dev.hub.migrations ++ [⟨field input 0 4, target, 0, some path⟩] ∧
      .cmdDone path 0xC011 1 0 [] ∈ t.out ∧ tget t.mgmt.bg path = some ⟨0xC011, none⟩ ∧ t.pool.extents = s.dev.pool.extents ∧ t.dir = s.dev.dir)

/-- EXPORT_CREATE sends an export notice for free blocks and binds nothing yet; an acknowledgement makes the export and its domain and
answers its blocks, a refusal or the end of the wait answers so and changes no binding. EXPORT_RELEASE of a mapped export asks its
importer; of one that is not, and once the importer answers or the wait ends, it fences the export. An importer's bind request is
answered by its match with the export, and its unmap as well. (R65, R66, R67.) -/
def Obligations.ExportsAreMadeAndReleased : Prop :=
  (∀ (path : Path) (input : List Byte) (s : State), s.dev.takesStoluo path 0xC012 → input.length = 8 → field input 0 2 < 2048 →
    field input 2 1 ≤ 1 → 1 ≤ field input 4 2 → field input 4 2 ≤ 1016 → field input 6 2 = 0 →
    (field input 3 1 = 0xFF ∨ ∃ x, s.dev.setDesc? (field input 3 1) = some x ∧ x.inService = true) →
    (field input 2 1 = 1 → s.dev.coherentPeer (field input 0 2) = true) →
    s.dev.hasRoute (field input 0 2) (decide (field input 2 1 = 1)) = true →
    field input 4 2 ≤ (s.dev.exportable (field input 3 1)).length →
    (s.dev.fab.requests.filter fun r => decide (r.mtype = 5)).length < s.dev.readyDomains.length →
    s.dev.hub.exports.length + (s.dev.fab.requests.filter fun r => decide (r.mtype = 5)).length < 256 → s.dev.exportIds ≠ [] →
    yields (.exportCreate path input) s fun t =>
      (∃ id ∈ s.dev.exportIds, ∃ k, t.fab.requests = s.dev.fab.requests ++ [⟨s.dev.fab.tagNext.toNat, BitVec.ofNat 11 (field input 0 2), 5, id, 0,
        decide (field input 2 1 = 1), ((s.dev.exportable (field input 3 1)).rotate k).take (field input 4 2), some path, 0⟩]) ∧
      t.pool = s.dev.pool ∧ t.dir = s.dev.dir ∧ t.mgmt = s.dev.mgmt) ∧
  (∀ (src : DeviceId) (tag : BitVec 16) (exportId : BitVec 12) (r : MgmtReq) (path : Path) (dom : Nat) (d1 d2 : Dev) (s : State),
    s.dev.takeRequest src tag.toNat 5 = some (r, d1) → r.path = some path →
    (∀ b ∈ r.blocks, (d1.blockEntry b).state = 0) → d1.createDomain ⟨.exported, 0, [], r.blocks, false⟩ = (some dom, d2) →
    yields (.exportNoticeAck src tag exportId 0) s fun t =>
      t.hub.exports = s.dev.hub.exports ++ [⟨r.exportId, src, dom, r.coherent, false, false, r.blocks⟩] ∧
      tget t.pool.domains dom = some ⟨.exported, 0, [], r.blocks, false⟩ ∧ t.fab.requests = d1.fab.requests ∧
      t.replied path 0xC012 0 0 (toBytes 2 r.exportId ++ toBytes 2 dom ++ toBytes 2 r.blocks.length ++ toBytes 2 0 ++ blockBytes r.blocks)) ∧
  (∀ (src : DeviceId) (tag : BitVec 16) (exportId : BitVec 12) (status : Fin 3) (r : MgmtReq) (path : Path) (d1 : Dev) (s : State),
    s.dev.takeRequest src tag.toNat 5 = some (r, d1) → r.path = some path → status.val ≠ 0 →
    yields (.exportNoticeAck src tag exportId status) s fun t =>
      t.pool = s.dev.pool ∧ t.fab.requests = d1.fab.requests ∧ t.replied path 0xC012 7 0 []) ∧
  (∀ (tag : BitVec 16) (r : MgmtReq) (path : Path) (d1 : Dev) (s : State), s.dev.expireRequest tag.toNat 5 = some (r, d1) → r.path = some path →
    yields (.exportNoticeWaitExpiry tag) s fun t =>
      t.replied path 0xC012 10 0 [] ∧ t.fab.requests = d1.fab.requests ∧ t.pool = s.dev.pool) ∧
  (∀ (path : Path) (input : List Byte) (x : ExportRec) (s : State), s.dev.takesStoluo path 0xC013 → input.length = 4 → field input 2 2 = 0 →
    (s.dev.hub.exports.find? fun x => decide (x.id = field input 0 2)) = some x → x.releasing = false → tget s.dev.mgmt.bg path = none →
    x.mapped = true → yields (.exportRelease path input) s fun t =>
      t.hub.exports = (s.dev.hub.exports.map fun (y : ExportRec) => if y.id = field input 0 2 then { y with releasing := true } else y) ∧
      t.fab.requests = s.dev.fab.requests ++ [⟨s.dev.fab.tagNext.toNat, x.importer, 3, field input 0 2, x.domain, x.coherent, [], some path, 0⟩] ∧
      t.pool.fenceQueue = s.dev.pool.fenceQueue ∧ .cmdDone path 0xC013 1 0 [] ∈ t.out) ∧
  (∀ (path : Path) (input : List Byte) (x : ExportRec) (s : State), s.dev.takesStoluo path 0xC013 → input.length = 4 → field input 2 2 = 0 →
    (s.dev.hub.exports.find? fun x => decide (x.id = field input 0 2)) = some x → x.releasing = false → tget s.dev.mgmt.bg path = none →
    x.mapped = false →
    let d := s.dev.bgStart path 0xC013
    let mark (h : HubTables) : HubTables :=
      { h with exports := h.exports.map fun (y : ExportRec) => if y.id = field input 0 2 then { y with releasing := true } else y }
    exec (.exportRelease path input) s = .next (s.onto ((d.modHub mark).fenceExport (field input 0 2) (some path) false))) ∧
  (∀ (src : DeviceId) (tag : BitVec 16) (exportId : BitVec 12) (status : Fin 3) (r : MgmtReq) (d1 : Dev) (s : State),
    s.dev.takeRequest src tag.toNat 3 = some (r, d1) →
    exec (.importUnmapped src tag exportId status) s = .next (s.onto (d1.fenceExport r.exportId r.path false))) ∧
  (∀ (tag : BitVec 16) (r : MgmtReq) (d1 : Dev) (s : State), s.dev.expireRequest tag.toNat 3 = some (r, d1) →
    exec (.importUnmappedWaitExpiry tag) s = .next (s.onto (d1.fenceExport r.exportId r.path true))) ∧
  (∀ (src : DeviceId) (tag : BitVec 16) (exportId domain : BitVec 12) (coherent : Bool) (blocks : List Nat) (s : State),
    s.dev.answeredBefore src tag.toNat 2 = none →
    yields (.importBind src tag exportId domain coherent blocks) s fun t =>
      let found := s.dev.hub.exports.find? fun x => decide (x.id = exportId.toNat)
      let status := match found with
        | none => 2
        | some x => if x.releasing = false ∧ x.importer = src ∧ x.domain = domain.toNat ∧ x.coherent = coherent ∧ sameBlocks x.blocks blocks = true
            then 0 else 1
      t.fab.answered = (s.dev.fab.answered.filter fun a => !decide (a.dev = src ∧ a.tag = tag.toNat)) ++ [⟨src, tag.toNat, 2, status⟩] ∧
      t.hub.exports = (if status = 0 then s.dev.hub.exports.map fun x => if x.id = exportId.toNat then { x with mapped := true } else x
        else s.dev.hub.exports) ∧ t.hub.imports = s.dev.hub.imports ∧ t.pool.blocks = s.dev.pool.blocks) ∧
  (∀ (src : DeviceId) (tag : BitVec 16) (exportId : BitVec 12) (s : State), s.dev.answeredBefore src tag.toNat 8 = none →
    yields (.importDropped src tag exportId) s fun t =>
      let known := s.dev.hub.exports.any fun x => decide (x.id = exportId.toNat ∧ x.importer = src)
      t.fab.answered = (s.dev.fab.answered.filter fun a => !decide (a.dev = src ∧ a.tag = tag.toNat)) ++
        [⟨src, tag.toNat, 8, if known then 0 else 2⟩] ∧
      t.hub.exports = (if known then s.dev.hub.exports.map fun x => if x.id = exportId.toNat then { x with mapped := false } else x
        else s.dev.hub.exports) ∧ t.hub.imports = s.dev.hub.imports)

/-- REMOTE_MAP sends an import request and binds nothing yet; the acknowledgement makes the import and its proxy domain under a ready
key slot and answers the local numbers, a refusal or the end of the wait answers so. REMOTE_UNMAP, and the home's request, end an
import. An export notice is acknowledged once no stale import names its blocks. An unanswered request is sent again. A reserved message
type is reported as a fault; a known one is not. (R65, R66, R67, R278.) -/
def Obligations.ImportsAreMadeAndEnded : Prop :=
  (∀ (path : Path) (input : List Byte) (s : State), s.dev.takesStoluo path 0xC014 → field input 0 2 < 2048 → field input 2 2 < 4096 →
    field input 4 2 < 4096 → field input 6 1 ≤ 1 → field input 7 1 = 0 → field input 26 6 = 0 → 1 ≤ field input 24 2 →
    field input 24 2 ≤ 1016 → input.length = 32 + 4 * field input 24 2 → (∀ b ∈ mapBlocks input, b < 2 ^ 20) →
    let dev : DeviceId := BitVec.ofNat 11 (field input 0 2)
    let coh := decide (field input 6 1 = 1)
    (coh = true → s.dev.coherentPeer (field input 0 2) = true) →
    (∀ r ∈ s.dev.fab.requests, ¬(r.mtype = 1 ∧ r.dev = dev ∧ r.exportId = field input 2 2)) →
    s.dev.mapRefusal dev (field input 2 2) coh (field input 8 16) (mapBlocks input) = none →
    yields (.remoteMap path input) s fun t =>
      t.fab.requests = s.dev.fab.requests ++
        [⟨s.dev.fab.tagNext.toNat, dev, 1, field input 2 2, field input 4 2, coh, mapBlocks input, some path, field input 8 16⟩] ∧
      t.pool = s.dev.pool ∧ t.mgmt = s.dev.mgmt) ∧
  (∀ (src : DeviceId) (tag : BitVec 16) (exportId : BitVec 12) (r : MgmtReq) (path : Path) (proxy : Nat) (d1 : Dev) (s : State),
    s.dev.takeRequest src tag.toNat 1 = some (r, d1) → r.path = some path →
    s.dev.mapRefusal r.dev r.exportId r.coherent r.tagBytes r.blocks = none → s.dev.readyDomains.head? = some proxy →
    yields (.importBindAck src tag exportId 0) s fun t =>
      let nums := s.dev.localNumbers r.coherent r.blocks
      t.hub.imports = s.dev.hub.imports ++
        [⟨r.dev, r.exportId, r.domain, proxy, r.coherent, r.tagBytes, r.blocks.zip nums, []⟩] ∧
      tget t.pool.domains proxy = some ⟨.proxy, r.tagBytes, [], nums, false⟩ ∧ t.keySlot proxy = s.dev.keySlot proxy ∧
      t.fab.requests = d1.fab.requests ∧ t.replied path 0xC014 0 0 (toBytes 2 proxy ++ toBytes 2 0 ++ blockBytes nums)) ∧
  (∀ (src : DeviceId) (tag : BitVec 16) (exportId : BitVec 12) (status : Fin 3) (r : MgmtReq) (path : Path) (d1 : Dev) (s : State),
    s.dev.takeRequest src tag.toNat 1 = some (r, d1) → r.path = some path → status.val ≠ 0 →
    yields (.importBindAck src tag exportId status) s fun t =>
      t.replied path 0xC014 11 status.val [] ∧ t.pool = s.dev.pool ∧ t.fab.requests = d1.fab.requests) ∧
  (∀ (tag : BitVec 16) (r : MgmtReq) (path : Path) (d1 : Dev) (s : State), s.dev.expireRequest tag.toNat 1 = some (r, d1) → r.path = some path →
    yields (.importBindWaitExpiry tag) s fun t =>
      t.replied path 0xC014 10 0 [] ∧ t.fab.requests = d1.fab.requests ∧ t.pool = s.dev.pool) ∧
  (∀ (path : Path) (input : List Byte) (i : ImportRec) (s : State), s.dev.takesStoluo path 0xC015 → input.length = 4 →
    field input 0 2 < 2048 → s.dev.findImport (BitVec.ofNat 11 (field input 0 2)) (field input 2 2) = some i → i.ending = [] →
    tget s.dev.mgmt.bg path = none →
    exec (.remoteUnmap path input) s = .next (s.onto ((s.dev.bgStart path 0xC015).endImport i (.unmap path)))) ∧
  (∀ (src : DeviceId) (tag : BitVec 16) (exportId : BitVec 12) (i : ImportRec) (s : State), s.dev.answeredBefore src tag.toNat 4 = none →
    s.dev.findImport src exportId.toNat = some i → .request tag.toNat ∉ i.ending →
    exec (.importUnmapRequest src tag exportId) s = .next (s.onto (s.dev.endImport i (.request tag.toNat)))) ∧
  (∀ (src : DeviceId) (tag : BitVec 16) (exportId : BitVec 12) (s : State), s.dev.answeredBefore src tag.toNat 4 = none →
    s.dev.findImport src exportId.toNat = none → yields (.importUnmapRequest src tag exportId) s fun t =>
      t.fab.answered = (s.dev.fab.answered.filter fun a => !decide (a.dev = src ∧ a.tag = tag.toNat)) ++ [⟨src, tag.toNat, 4, 2⟩] ∧
      t.pool = s.dev.pool) ∧
  (∀ (src : DeviceId) (tag : BitVec 16) (exportId domain : BitVec 12) (coherent : Bool) (blocks : List Nat) (s : State),
    s.dev.answeredBefore src tag.toNat 6 = none → s.dev.pool.notices = [] →
    (∀ i ∈ s.dev.hub.imports, i.homeDev = src → ∀ b ∈ i.blocks, b.1 ∉ blocks) →
    yields (.exportNotice src tag exportId domain coherent blocks) s fun t =>
      t.fab.answered = (s.dev.fab.answered.filter fun a => !decide (a.dev = src ∧ a.tag = tag.toNat)) ++ [⟨src, tag.toNat, 6, 0⟩] ∧
      t.pool = s.dev.pool) ∧
  (∀ (src : DeviceId) (tag : BitVec 16) (exportId domain : BitVec 12) (coherent : Bool) (blocks : List Nat) (s : State),
    s.dev.answeredBefore src tag.toNat 6 = none → (∀ n ∈ s.dev.pool.notices, ¬(n.home = src ∧ n.tag = tag.toNat)) →
    let stale := s.dev.hub.imports.filter fun i => decide (i.homeDev = src) && i.blocks.any fun b => blocks.contains b.1
    let d : Dev := { s.dev with pool := { s.dev.pool with notices := s.dev.pool.notices ++ [⟨src, tag.toNat, exportId.toNat, blocks⟩] } }
    exec (.exportNotice src tag exportId domain coherent blocks) s =
      .next (s.onto ((stale.foldl (fun (d : Dev) i => d.endImport i .notice) d).answerNotices))) ∧
  (∀ (src : DeviceId) (tag : BitVec 16) (exportId : BitVec 12) (status : Fin 3) (r : MgmtReq) (d1 : Dev) (s : State),
    s.dev.takeRequest src tag.toNat 7 = some (r, d1) → exec (.importDroppedAck src tag exportId status) s = .next (s.onto d1)) ∧
  (∀ (tag : BitVec 16) (r : MgmtReq) (s : State), (s.dev.fab.requests.find? fun r => decide (r.tag = tag.toNat)) = some r →
    exec (.mgmtRequestRepeat tag) s = .next (s.onto
      ((mgmtMessages s.dev.devId r.dev.toNat r.tag r.mtype r.exportId r.domain 0 r.coherent r.blocks).foldl
        (fun (d : Dev) ws => d.postOrDrop ws) s.dev))) ∧
  (∀ (src : DeviceId) (mtype : BitVec 8) (s : State), (mtype = 0 ∨ 9 ≤ mtype.toNat) →
    exec (.mgmtReservedType src mtype) s = .next (s.onto (s.dev.report 0x304 2 mtype.toNat))) ∧
  (∀ (src : DeviceId) (mtype : BitVec 8) (s : State), mtype ≠ 0 → mtype.toNat < 9 →
    exec (.mgmtReservedType src mtype) s = .next (s.onto s.dev))

/-- A request that its home admits is served at its block or forwarded to its home device, as Table PB-8 gives; one whose granule is
busy is retried. On a coherent block whose granule nothing tracks, a shared read leaves an S entry, an exclusive read an E entry, a take
in a block that is not FENCING an X entry with the conflict entry gone and its completion sent; a current read and a write leave no
entry; every other granule's entry stays, and a write's completion waits for its host's port. (R22, R70, R72, R74, R80, R82.) -/
def Obligations.HomeServesRequestsByItsTables : Prop :=
  (∀ (kind : ReqKind) (c : Instr) (req : HomeReq) (s : State),
    (kind, c) ∈ [(.readShared, .homeReadShared req), (.readExclusive, .homeReadExclusive req), (.readCurrent, .homeReadCurrent req),
      (.write, .homeWrite req), (.partialWrite, .homePartialWrite req)] → s.dev.admits kind req →
    (∀ b e d1, s.dev.outcomeOf kind req = (.here b e, d1) → exec c s =
      .next (s.onto (d1.serve (s.dev.effectiveKind kind req) req b (e.coherent && !d1.mirrorCopy req.agent) false false))) ∧
    (∀ e d1, s.dev.outcomeOf kind req = (.forward e, d1) → exec c s =
      .next (s.onto (d1.serve (s.dev.effectiveKind kind req) req (blockOfGranule (granuleOf req.line.toNat)) e.coherent true false)))) ∧
  (∀ (kind : ReqKind) (c : Instr) (req : HomeReq) (s : State),
    (kind, c) ∈ [(.readShared, .homeReadShared req), (.readExclusive, .homeReadExclusive req), (.readCurrent, .homeReadCurrent req),
      (.write, .homeWrite req), (.partialWrite, .homePartialWrite req)] → s.dev.examines kind req →
    s.dev.busy (granuleOf req.line.toNat) = true →
    exec c s = .next (s.onto ((s.dev.takeEpoch (sliceOf (granuleOf req.line.toNat)) req.agent req.txn).retry
      (s.dev.kindOf kind req) req []))) ∧
  (∀ (req : HomeReq) (r : Holder) (b : Nat) (e : BlockEntry) (d1 : Dev) (s : State), agentHolder req.agent = some r →
    s.dev.mirrorCopy req.agent = false → e.coherent = true → s.dev.untracked (granuleOf req.line.toNat) →
    let g := granuleOf req.line.toNat
    (s.dev.admits .readShared req → s.dev.outcomeOf .readShared req = (.here b e, d1) →
      s.dev.effectiveKind .readShared req = .readShared →
      yields (.homeReadShared req) s fun t => t.entry g = some (mkEntry g 1 (bitVector r)) ∧ ∀ x, x ≠ g → t.entry x = s.dev.entry x) ∧
    (s.dev.admits .readExclusive req → s.dev.outcomeOf .readExclusive req = (.here b e, d1) →
      s.dev.effectiveKind .readExclusive req = .readExclusive →
      yields (.homeReadExclusive req) s fun t => t.entry g = some (mkEntry g 2 (bitVector r)) ∧ ∀ x, x ≠ g → t.entry x = s.dev.entry x) ∧
    (s.dev.admits .readCurrent req → s.dev.outcomeOf .readCurrent req = (.here b e, d1) →
      s.dev.effectiveKind .readCurrent req = .readCurrent →
      yields (.homeReadCurrent req) s fun t => ∀ x, t.entry x = s.dev.entry x) ∧
    (∀ p : Fin 64, req.agent = .host p → s.dev.takesMessages (.port p) = true → s.dev.admits .write req →
      s.dev.outcomeOf .write req = (.here b e, d1) →
      yields (.homeWrite req) s fun t => (∃ l, t.queued (.port p) (.memDone (.host p) req.txn l)) ∧ ∀ x, t.entry x = s.dev.entry x) ∧
    (∀ p : Fin 64, req.agent = .host p → s.dev.takesMessages (.port p) = true → s.dev.admits .partialWrite req →
      s.dev.outcomeOf .partialWrite req = (.here b e, d1) →
      yields (.homePartialWrite req) s fun t =>
        (∃ l, t.queued (.port p) (.memDone (.host p) req.txn l)) ∧ ∀ x, t.entry x = s.dev.entry x) ∧
    (∀ n, req.agent = .engine n → s.dev.admits .takeX req → s.dev.outcomeOf .takeX req = (.here b e, d1) → s.dev.ctEntry g = none →
      (s.dev.blockEntry (blockOfGranule g)).state.toNat ≠ 3 →
      yields (.takeX req) s fun t => t.entry g = some (mkEntry g 3 (bitVector r)) ∧ t.ctEntry g = none ∧
        (∃ l, .memDone (.engine n) req.txn l ∈ t.out) ∧ ∀ x, x ≠ g → t.entry x = s.dev.entry x))

/-- A write-back by the owner joins the conflict entry or is written. A neighbour's release, and a release of X, leave no entry on that
granule and every other as it was. An integrity recovery poisons and drops its granule. A snoop response that is awaited is taken, one
that is not is counted as stray; a conflict is acknowledged. A snoop that times out poisons the lines not answered, removes the
holder, and releases a proxy's grant that none holds any more; the eighth in a row declares the port dead. (R75, R77, R78, R80, R81, R95, R97, R98.) -/
def Obligations.WriteBacksReleasesAndAnswersFollowTheDirectory : Prop :=
  (∀ (req : HomeReq) (h : Holder) (b : Nat) (e : BlockEntry) (x : DirEntry) (d1 : Dev) (s : State), agentHolder req.agent = some h →
    let g := granuleOf req.line.toNat
    let kind := if req.mask = BitVec.allOnes 64 then ReqKind.write else .partialWrite
    let d := (s.dev.trustEntry g).2
    d.entry g = some x → x.ownedBy h = true → s.dev.safe = false → s.dev.sliceReady (sliceOf g) = true → s.dev.heldBack kind req = false →
    (d.takeEpoch (sliceOf g) req.agent req.txn).homeOutcome (sliceOf g) req ⟨false, true⟩ false false = (.here b e, d1) →
    let m := d1.homeMsg (sliceOf g) req true
    exec (.homeWriteBack req) s = .next (s.onto
      (if d1.busy g then (((d1.leaveBuffer kind req).unretry (groupOf req.agent) (sliceOf g) req).joinWriteBack kind req b
          ((m.map (·.green)).getD true) ((m.map (·.peakWaited)).getD false)).endTxn req.agent req.txn
        else d1.takeIn kind req b true false false))) ∧
  (∀ (req : HomeReq) (lines : List (Fin 16 × LineData)) (h : Holder) (x : DirEntry) (s : State), agentHolder req.agent = some h →
    let g := granuleOf req.line.toNat
    s.dev.sliceReady (sliceOf g) = true → s.dev.reservedFor (sliceOf g) req = false → s.dev.behindOlder (sliceOf g) req = false →
    s.dev.underRecall g h = false → s.dev.mayTake req false = true → (s.dev.trustEntry g).2 = s.dev → s.dev.entry g = some x →
    x.ownedBy h = true → x.holders = [h] →
    yields (.neighbourRelease req lines) s fun t => t.entry g = none ∧ ∀ y, y ≠ g → t.entry y = s.dev.entry y) ∧
  (∀ (who : Holder) (granule : BitVec 36) (x : DirEntry) (s : State), (holderCode who).isSome = true →
    s.dev.entry granule.toNat = some x → x.state = 3 → x.holders.contains who = true → s.dev.ctEntry granule.toNat = none →
    yields (.releaseX who granule) s fun t =>
      t.entry granule.toNat = none ∧ (∀ y, y ≠ granule.toNat → t.entry y = s.dev.entry y) ∧ t.pool = s.dev.pool ∧ t.sw = s.dev.sw) ∧
  (∀ (granule : BitVec 36) (e : CtEntry) (s : State), s.dev.ctEntry granule.toNat = some e → e.kind = .integrity → e.waits = [] →
    exec (.integrityRecoveryDone granule) s = .next (s.onto
      (((s.dev.poisonMask granule.toNat 0xFFFF 7 none).dropEntry granule.toNat).retire granule.toNat))) ∧
  (∀ (who : Holder) (line : LineNo) (answer : SnoopAnswer) (s : State), s.dev.snoopOut who line.toNat = true →
    let d := s.dev.birspTap who line.toNat
    exec (.birspReceived who line answer) s = .next (s.onto
      (Dev.answered { d with dir := { s.dev.dir with timeouts := tdel s.dev.dir.timeouts who } } who line.toNat
        (decide (answer = SnoopAnswer.shared))))) ∧
  (∀ (who : Holder) (line : LineNo) (answer : SnoopAnswer) (s : State), s.dev.snoopOut who line.toNat = false →
    exec (.birspReceived who line answer) s =
      .next (s.onto ((s.dev.birspTap who line.toNat).count (sliceOf (granuleOf line.toNat)) 0x2009 1))) ∧
  (∀ (p : Fin 64) (line : LineNo) (s : State), s.dev.snoopOut (.port p) line.toNat = true → s.dev.reaches p →
    yields (.biconflict p line) s fun t => t.queued (.port p) (.conflictAck p line) ∧ t.dir = s.dev.dir ∧ t.pool = s.dev.pool) ∧
  (∀ (p : Fin 64) (granule : BitVec 36) (s : State), s.dev.compact = true → s.dev.unanswered (.port p) granule.toNat ≠ 0 →
    let g := granule.toNat
    let d := s.dev.count (sliceOf g) 0x2008 1
    exec (.bisnpTimeout p granule) s = .next (s.onto
      (Dev.stopWaiting (if (d.ctEntry g).map (·.kind) = some .integrity then d
        else
          let d := (d.poisonMask g (s.dev.unanswered (.port p) g).toNat 1 (some (.port p))).removeHolder g (.port p)
          if (d.blockEntry (blockOfGranule g)).remote then d.proxyLeft g else d) (.port p) g))) ∧
  (∀ (n : Fin 16) (line : LineNo) (s : State), s.dev.compact = true → s.dev.unanswered (.slot n) (granuleOf line.toNat) ≠ 0 →
    let g := granuleOf line.toNat
    let d := s.dev.count (sliceOf g) 0x2008 1
    exec (.neighbourSnoopTimeout n line) s = .next (s.onto
      (Dev.stopWaiting (if (d.ctEntry g).map (·.kind) = some .integrity then d
        else
          let d := (d.poisonMask g (s.dev.unanswered (.slot n) g).toNat 1 (some (.slot n))).removeHolder g (.slot n)
          if (d.blockEntry (blockOfGranule g)).remote then d.proxyLeft g else d) (.slot n) g))) ∧
  (∀ (p : Fin 64) (line : LineNo) (s : State), s.dev.compact = false → s.dev.snoopOut (.port p) line.toNat = true →
    (s.dev.ctEntry (granuleOf line.toNat)).map (·.kind) ≠ some .integrity → tgetD s.dev.dir.timeouts (.port p) 0 + 1 = 8 →
    s.dev.mortal (.port p) = true →
    yields (.extendedBisnpTimeout p line) s fun t =>
      .port p ∈ t.dir.dead ∧ tget t.dir.sweeps (.port p) = some (2, List.range 16) ∧ tget t.dir.timeouts (.port p) = none ∧
        t.fab.deaths = s.dev.fab.deaths + 1)

/-- A write completion stores the line at its expander address, leaves every other line, ends the access and settles its granule. A
write failure fails the access. A read response gives the host the decrypted line where the read succeeded. A finished conflict entry
retires; a granted one is served; a retried request is resent when its entry is free. (R23, R31, R34, R85, R86.) -/
def Obligations.ExpanderAnswersEndTheirAccesses : Prop :=
  (∀ (op : Nat) (o : ExpOp) (v : Stored) (s : State), s.dev.sentOp op = some o → o.what = some v →
    exec (.expanderWriteCompletion op) s = .next (s.onto
      ((((((s.dev.answerTap o false false).answeredInTime o.port).memWrite o.port o.addr v).dropOp op).count (o.port / 4) 0x3011 1).settle
        (granuleOf o.line.toNat)))) ∧
  (∀ (op : Nat) (o : ExpOp) (v : Stored) (s : State), s.dev.sentOp op = some o → o.what = some v → s.dev.ctEntry (granuleOf o.line.toNat) = none →
    yields (.expanderWriteCompletion op) s fun t =>
      t.memAt o.port o.addr = some v ∧ (∀ p a, memKey p a ≠ memKey o.port o.addr → t.memAt p a = s.dev.memAt p a) ∧ (∀ x ∈ t.dir.expOps, x.op ≠ op) ∧
      t.dir.entries = s.dev.dir.entries ∧ t.sw.msgs = s.dev.sw.msgs ∧ t.sw.blocked = s.dev.sw.blocked) ∧
  (∀ (op : Nat) (o : ExpOp) (s : State), s.dev.sentOp op = some o → o.what.isSome = true →
    exec (.expanderWriteFailure op) s = .next (s.onto ((s.dev.writeFails o).settle (granuleOf o.line.toNat)))) ∧
  (∀ (op : Nat) (o : ExpOp) (s : State), s.dev.sentOp op = some o → o.what = none →
    ∀ status, exec (.expanderReadResponse op status) s =
      .next (s.onto (((s.dev.answerTap o true (decide (status ≠ .good))).answeredInTime o.port).readEnds o status))) ∧
  (∀ (op : Nat) (o : ExpOp) (p : Place) (v : LineData) (poison : Bool) (e : CtEntry) (h : Fin 64) (d1 : Dev) (s : State),
    s.dev.sentOp op = some o → o.what = none → o.fallback = false →
    s.dev.place (s.dev.blockEntry (blockOfLine o.real.toNat)) o.real.toNat = some p → s.dev.memNow o.port o.addr ≠ some .poison →
    (s.dev.blockEntry (blockOfLine o.real.toNat)).ownerC = ~~~(s.dev.blockEntry (blockOfLine o.real.toNat)).owner → s.dev.reaches h →
    (((s.dev.answerTap o true false).answeredInTime o.port).dropOp op).decrypt (s.dev.blockEntry (blockOfLine o.real.toNat)).owner.toNat
      o.real.toNat (s.dev.memNow o.port o.addr) = ((v, poison), d1) →
    s.dev.ctEntry (granuleOf o.line.toNat) = some e → e.kind = .readShared → e.req.agent = .host h → e.req.line = o.line →
    yields (.expanderReadResponse op .good) s fun t =>
      (∃ n, t.queued (.port h) (.memData (.host h) e.req.txn v poison n)) ∧ (∀ x ∈ t.dir.expOps, x.op ≠ op)) ∧
  (∀ (granule : BitVec 36) (e : CtEntry) (s : State), s.dev.ctEntry granule.toNat = some e → e.done = true → e.waits = [] →
    s.dev.opsOf granule.toNat = false → exec (.conflictEntryRetire granule) s = .next (s.onto (s.dev.retire granule.toNat))) ∧
  (∀ (granule : BitVec 36) (e : CtEntry) (s : State), s.dev.ctEntry granule.toNat = some e → e.state = .held →
    let r := ((s.dev.retriedList e.group e.slice).find? fun r => sameReq r.req e.req).getD ⟨e.kind, e.req, true, []⟩
    exec (.grantReceived granule) s = .next (s.onto
      (if r.kind = .release then s.dev.releaseIn r.req r.lines true else s.dev.arrive r.kind r.req true))) ∧
  (∀ (group : Fin 33) (slice : Fin 16) (r : Retried) (s : State), s.dev.reservedFree slice group = true →
    execIngressResend.nextResend [] (s.dev.retriedList group slice) = some r →
    exec (.ingressResend group slice) s = .next (s.onto
      (if r.kind = .release then s.dev.releaseIn r.req r.lines false
        else if r.kind.writes = true then s.dev.writeIn r.kind r.req else s.dev.arrive r.kind r.req false)))

/-- A host request whose address is bound enters as one request cell towards the home slice of its granule with its kind, line, owner,
poison and time, and nothing else is read or written yet; one that is not bound is completed with poison or dropped and enters nothing. A
pass-through request enters towards its port. A forwarded read arrives at the proxy. DIR_BI_TIMEOUT takes a value in range that exceeds
AGE_LIMIT and ignores every other. (R18, R19, R24, R93, R105.) -/
def Obligations.RequestsEnterTowardsTheirHome : Prop :=
  (∀ (p : Fin 64) (dpa : Nat) (op : HostOp) (txn : Nat) (data : LineData) (mask : BitVec 64) (poisoned : Bool) (line dom sh : Nat) (d1 : Dev)
    (s : State), s.dev.portMode p = 1 → s.dev.portState p = 5 → s.dev.safe = false → s.dev.translate p.val dpa = (some (line, dom), d1) →
    s.dev.takeCells (.port p) .req (if opWrites op then 1 else 0) 1 = some sh →
    yields (.poolRequestIngress p dpa op txn data mask poisoned) s fun t =>
      (∃ m, t.sw.msgs = s.dev.sw.msgs ++ [m] ∧ m.entity = .port p ∧ m.cls = .req ∧ m.cells = 1 ∧ m.fromShared = sh ∧
        (∃ h : sliceOf (granuleOf line) < 16, m.dest = .home ⟨sliceOf (granuleOf line), h⟩) ∧
        m.kind = (if opWrites op then .hostMemWrite else .hostMemRead) ∧ m.txn = txn ∧ m.domain = some (BitVec.ofNat 12 dom) ∧
        m.homeKind = some (hostKind op) ∧ m.paddr = some (line * 64) ∧ m.poison = poisoned ∧ m.born = s.dev.now) ∧
      t.pool.mem = s.dev.pool.mem ∧ t.dir.ct = s.dev.dir.ct ∧ t.sw.nextId = s.dev.sw.nextId + 1) ∧
  (∀ (p : Fin 64) (dpa : Nat) (op : HostOp) (txn : Nat) (data : LineData) (mask : BitVec 64) (poisoned : Bool) (d1 : Dev) (s : State),
    s.dev.portMode p = 1 → s.dev.portState p = 5 → s.dev.safe = false → s.dev.translate p.val dpa = (none, d1) →
    yields (.poolRequestIngress p dpa op txn data mask poisoned) s fun t =>
      t.queued (.port p) (if opWrites op then .memDone (.host p) txn 0 else .memData (.host p) txn 0 true 0) ∧
      (∀ m ∈ t.sw.msgs, m ∈ s.dev.sw.msgs ∨ m.dest = .port p) ∧ t.pool.mem = s.dev.pool.mem) ∧
  (∀ (host p : Fin 64) (kind : MsgKind) (credit length txn sh : Nat) (s : State), s.dev.portMode host = 1 → s.dev.portState host = 5 →
    s.dev.portMode p = 3 → s.dev.rd (.prtCfg p) 17 12 = host.val → 4 ≤ s.dev.portState p → s.dev.portState p ≤ 6 →
    s.dev.takeCells (.port host) .req credit (ceilDiv length 128) = some sh →
    yields (.passThroughRequest host p kind credit length txn) s fun t =>
      (∃ m, t.sw.msgs = s.dev.sw.msgs ++ [m] ∧ m.entity = .port host ∧ m.cls = .req ∧ m.cells = ceilDiv length 128 ∧ m.dest = .port p ∧
        m.kind = kind ∧ m.txn = txn ∧ m.credit = credit ∧ m.cost = length ∧ m.hostQueue = host.val ∧ m.paddr = none) ∧
      t.pool = s.dev.pool ∧ t.dir = s.dev.dir) ∧
  (∀ (kind : Fin 3) (req : HomeReq) (s : State), (s.dev.blockEntry (blockOfLine req.line.toNat)).remote = true →
    (s.dev.blockEntry (blockOfLine req.line.toNat)).coherent = true →
    exec (.proxyForwardRead kind req) s = .next (s.onto
      (s.dev.arrive (if kind.val = 0 then .readShared else if kind.val = 1 then .readExclusive else .readCurrent) req false))) ∧
  (∀ (t : Fin 16) (v : BitVec 32) (s : State), 10 ≤ v.toNat % 2 ^ 20 → v.toNat % 2 ^ 20 ≤ 1000000 →
    s.dev.rd .ageLimit 16 0 < v.toNat % 2 ^ 20 →
    yields (.dirBiTimeoutWrite t v) s fun u => u.rd (.dirBiTimeout t) 19 0 = v.toNat % 2 ^ 20 ∧ s.dev.onlyRegs u ∧
      ∀ r : Reg, r ≠ .dirBiTimeout t → r.show = false → u.reg r = s.dev.reg r) ∧
  (∀ (t : Fin 16) (v : BitVec 32) (s : State), v.toNat % 2 ^ 20 < 10 ∨ 1000000 < v.toNat % 2 ^ 20 ∨
    v.toNat % 2 ^ 20 ≤ s.dev.rd .ageLimit 16 0 → exec (.dirBiTimeoutWrite t v) s = .next (s.onto s.dev))

/-- A home's snoop is answered at once where the proxy tracks nothing and else snoops its holders. A home's data, completion or failure
is passed to the waiting host and ends the request. A victim whose answers are in frees its entry. A death that can be declared lists
the agent as dead (a slot as DEAD), starts its sweeps with the cause and is counted; one that cannot has no effect. A swept slice
reclaims its granules and leaves the list when none is left. (R90, R93, R94, R99, R100.) -/
def Obligations.ProxiesAnswerAndDeathsAreDeclared : Prop :=
  (∀ (src : DeviceId) (tag : BitVec 16) (kind : Fin 3) (line : LineNo) (s : State), s.dev.entry (granuleOf line.toNat) = none →
    tget s.dev.dir.victims (granuleOf line.toNat) = none → (s.dev.ctEntry (granuleOf line.toNat)).map (·.kind) ≠ some .integrity →
    kind.val ≠ 2 → let k := if kind.val = 0 then SnoopKind.cur else .dat
    exec (.neighbourSnoopAtProxy src tag kind line) s = .next (s.onto (s.dev.answerHome line.toNat ⟨src, tag.toNat, k, [], false, []⟩))) ∧
  (∀ (src : DeviceId) (tag : BitVec 16) (line : LineNo) (x : DirEntry) (p : Fin 64) (s : State),
    s.dev.entry (granuleOf line.toNat) = some x → x.holders = [.port p] → tget s.dev.dir.victims (granuleOf line.toNat) = none →
    s.dev.trustEntry (granuleOf line.toNat) = (true, s.dev) → s.dev.reaches p →
    yields (.neighbourSnoopAtProxy src tag 2 line) s fun t =>
      t.queued (.port p) (.snoop (.port p) line .inv) ∧ tget t.dir.psnoops line.toNat = some ⟨src, tag.toNat, .inv, [.port p], false, []⟩ ∧
        t.dir.entries = s.dev.dir.entries ∧ t.dir.ct = s.dev.dir.ct) ∧
  (∀ (words : List Word) (x : ProxyOut) (s : State), tget s.dev.dir.proxyOut (msgTag words) = some x → msgOp words = 0x25 →
    exec (.proxyDataReceived words) s = .next (s.onto (s.dev.failForwarded (msgTag words)))) ∧
  (∀ (words : List Word) (x : ProxyOut) (h : Fin 64) (s : State), tget s.dev.dir.proxyOut (msgTag words) = some x → msgOp words = 0x21 →
    x.kind = .write → x.reply = true → x.req.agent = .host h → s.dev.reaches h →
    yields (.proxyDataReceived words) s fun t => (∃ n, t.queued (.port h) (.memDone (.host h) x.req.txn n)) ∧ tget t.dir.proxyOut (msgTag words) = none) ∧
  (∀ (words : List Word) (x : ProxyOut) (h : Fin 64) (s : State), tget s.dev.dir.proxyOut (msgTag words) = some x → msgOp words = 0x20 →
    x.kind = .readCurrent → x.req.agent = .host h → (s.dev.blockEntry (blockOfGranule (granuleOf x.req.line.toNat))).coherent = false →
    s.dev.reaches h → yields (.proxyDataReceived words) s fun t =>
      (∃ n, t.queued (.port h) (.memData (.host h) x.req.txn (wordsData words) (decide (getBits (word words 1) 63 63 = 1)) n)) ∧
        tget t.dir.proxyOut (msgTag words) = none ∧ t.dir.entries = s.dev.dir.entries) ∧
  (∀ (granule : BitVec 36) (v : Victim) (s : State), tget s.dev.dir.victims granule.toNat = some v → v.waits = [] →
    s.dev.opsOf granule.toNat = false → (s.dev.blockEntry v.block).remote = false →
    exec (.victimEntryFreed granule) s = .next (s.onto
      ((Dev.showSlice { s.dev with dir := { s.dev.dir with victims := tdel s.dev.dir.victims granule.toNat } } (sliceOf granule.toNat)).holdFor
        granule.toNat v.resv))) ∧
  (∀ (p : Fin 64) (cause : Fin 8) (s : State), s.dev.mortal (.port p) = true →
    yields (.agentDeathDeclared (.port p) cause) s fun t =>
      t.dir.dead = s.dev.dir.dead ++ [.port p] ∧ tget t.dir.sweeps (.port p) = some (lostCause cause.val, List.range 16) ∧
        t.fab.deaths = s.dev.fab.deaths + 1) ∧
  (∀ (n : Fin 16) (cause : Fin 8) (s : State), s.dev.mortal (.slot n) = true →
    yields (.agentDeathDeclared (.slot n) cause) s fun t =>
      t.slotState n = 2 ∧ tget t.dir.sweeps (.slot n) = some (lostCause cause.val, List.range 16) ∧ t.fab.deaths = s.dev.fab.deaths + 1) ∧
  (∀ (who : Holder) (cause : Fin 8) (s : State), s.dev.mortal who = false →
    exec (.agentDeathDeclared who cause) s = .next (s.onto s.dev)) ∧
  (∀ (who : Holder) (slice : Fin 16) (cause : Nat) (left : List Nat) (s : State), tget s.dev.dir.sweeps who = some (cause, left) →
    left.contains slice.val = true → s.dev.sliceReady slice = true → s.dev.reclaimList who slice = [] → s.dev.orphans who slice = [] →
    yields (.reclaimSweepDone who slice) s fun t =>
      t.dir.sweeps = (if (left.filter fun t => !decide (t = slice.val)).isEmpty then tdel s.dev.dir.sweeps who
        else tset s.dev.dir.sweeps who (cause, left.filter fun t => !decide (t = slice.val))) ∧
      t.dir.entries = s.dev.dir.entries ∧ t.pool = s.dev.pool ∧ t.sw = s.dev.sw) ∧
  (∀ (who : Holder) (slice : Fin 16) (cause : Nat) (left : List Nat) (s : State), tget s.dev.dir.sweeps who = some (cause, left) →
    left.contains slice.val = true → s.dev.sliceReady slice = true →
    (s.dev.reclaimSlice who cause slice).reclaimed who slice = false →
    exec (.reclaimSweepDone who slice) s = .next (s.onto (s.dev.reclaimSlice who cause slice)))

/-- A message for which cells are free enters with its cells, route, complement, tag and time, and FREE_CELLS follows; one without a
destination is discarded. A grant sends the winner, and a port's only message that has credit and an open gate is sent and moves its
virtual times on. A message past the age limit is discarded and its agent told, an earlier one stays. AGE_LIMIT takes a value in range. A shaped request is released
when its bucket lets it. A quarter naps at once when it holds no message, and leaves first when it does. (R22, R107, R110, R118, R119,
R120, R122.) -/
def Obligations.MessagesEnterAndLeaveTheBuffer : Prop :=
  (∀ (entity : Entity) (dest : Egress) (cls : MsgClass) (kind : MsgKind) (credit txn length cost : Nat) (raw : List Byte) (sh : Nat)
    (s : State), s.dev.sends entity = true → s.dev.mayCross entity dest = true → s.dev.takesMessages dest = true →
    s.dev.takeCells entity cls credit (ceilDiv length 128) = some sh →
    yields (.ingressMessage entity dest cls kind credit txn length cost raw) s fun t =>
      (∃ m, t.sw.msgs = s.dev.sw.msgs ++ [m] ∧ m.id = s.dev.sw.nextId ∧ m.entity = entity ∧ m.dest = dest ∧
        m.destC = ~~~(BitVec.ofNat 8 (egressNumber dest)) ∧ m.cls = cls ∧ m.cells = ceilDiv length 128 ∧ m.fromShared = sh ∧ m.kind = kind ∧
        m.txn = txn ∧ m.credit = credit ∧ m.raw = raw ∧ m.cost = cost ∧ m.born = s.dev.now ∧
        m.f1 = finishTag (tgetD s.dev.sw.vtime (dest, 0) 0) (tgetD s.dev.sw.flast (dest, 0, classCode cls) 0) cost
          (s.dev.classWeight dest cls)) ∧
      t.sw.nextId = s.dev.sw.nextId + 1 ∧ t.pool = s.dev.pool ∧ t.dir = s.dev.dir ∧
      t.rd .bufStatus 18 0 = (t.cellsIn - t.cellsUsed) % 2 ^ 19) ∧
  (∀ (entity : Entity) (dest : Egress) (cls : MsgClass) (kind : MsgKind) (credit txn length cost : Nat) (raw : List Byte) (s : State),
    s.dev.sends entity = true → s.dev.mayCross entity dest = true → s.dev.takesMessages dest = false →
    yields (.ingressMessage entity dest cls kind credit txn length cost raw) s fun t => .discarded s.dev.sw.nextId ∈ t.out) ∧
  (∀ (egress : Egress) (credits : List (Fin 4 × Nat)) (c : MsgClass) (m : Msg) (s : State), (∀ t, egress ≠ .home t) → s.dev.safe = false →
    let d := if classes.any fun c => s.dev.guarded egress c && (s.dev.sw.msgs.any fun m => decide (m.dest = egress ∧ m.cls = c))
      then s.dev.countEgress egress 0x1038 else s.dev
    d.winner egress (d.contenders egress credits) = some (c, m) →
    exec (.egressGrant egress credits) s = .next (s.onto (d.grantMsg egress c m))) ∧
  (∀ (p : Fin 64) (credits : List (Fin 4 × Nat)) (m : Msg) (s : State), s.dev.safe = false → s.dev.sw.msgs = [m] → m.dest = .port p →
    m.destC = ~~~(BitVec.ofNat 8 p.val) → s.dev.gateAllows (.port p) m.cls = true → (⟨classCode m.cls % 4, by omega⟩, m.credit) ∈ credits →
    (∀ op, m.kind ≠ .homeRead op ∧ m.kind ≠ .homeWrite op) → s.dev.sw.blocked = [] → s.dev.sw.leaving = none →
    yields (.egressGrant (.port p) credits) s fun t => .sent (.port p) m.id ∈ t.out ∧ (∀ o ∈ m.sends, o ∈ t.out) ∧ t.sw.msgs = [] ∧
      tgetD t.sw.vtime (.port p, 0) 0 = m.f1 ∧ tgetD t.sw.vtime (.port p, subLevel m.cls) 0 = m.f2) ∧
  (∀ (id : Nat) (m : Msg) (s : State), s.dev.sw.msgs.find? (fun m => decide (m.id = id)) = some m →
    exec (.ageDiscard id) s =
      .next (s.onto (if m.born + 1000 * s.dev.rd .ageLimit 16 0 ≤ s.dev.now then s.dev.discardCounted m else s.dev))) ∧
  (∀ (id : Nat) (m : Msg) (a : Agent) (s : State), s.dev.sw.msgs.find? (fun m => decide (m.id = id)) = some m →
    m.born + 1000 * s.dev.rd .ageLimit 16 0 ≤ s.dev.now → m.kind = .agentAccess a → yields (.ageDiscard id) s fun t => .discarded id ∈ t.out ∧ .accessError a m.txn ∈ t.out) ∧
  (∀ (v : BitVec 32) (s : State), 1 ≤ v.toNat % 2 ^ 17 → v.toNat % 2 ^ 17 ≤ 100000 →
    (∀ t < 16, v.toNat % 2 ^ 17 < s.dev.rd (.dirBiTimeout t) 19 0) →
    yields (.glbAgeLimitWrite v) s fun t => t.rd .ageLimit 16 0 = v.toNat % 2 ^ 17 ∧ s.dev.onlyRegs t ∧
      ∀ r : Reg, r ≠ .ageLimit → r.show = false → t.reg r = s.dev.reg r) ∧
  (∀ (v : BitVec 32) (s : State), v.toNat % 2 ^ 17 = 0 ∨ 100000 < v.toNat % 2 ^ 17 →
    exec (.glbAgeLimitWrite v) s = .next (s.onto s.dev)) ∧
  (∀ (id : Nat) (m : Msg) (p : Fin 64) (green : Bool) (d1 : Dev) (s : State),
    s.dev.sw.msgs.find? (fun m => decide (m.id = id) && m.held) = some m → m.entity = .port p → s.dev.passShaper p = (some green, d1) →
    yields (.peakBucketRelease id) s fun t => t.sw.msgs = s.dev.sw.msgs.map (fun x => if x.id = id then { x with held := false, green := green } else x) ∧
      t.pool = s.dev.pool ∧ t.dir = s.dev.dir ∧ t.sw.blocked = s.dev.sw.blocked) ∧
  (∀ (q : Fin 4) (s : State), s.dev.quartersIn = 15 → s.dev.sw.leaving = none → s.dev.holdsDescriptors q = false → s.dev.domState (domHub q) ≤ 1 →
    (∃ m ∈ s.dev.sw.msgs, m.quarters.getLsbD q = true) →
    yields (.hubQuarterNap q) s fun t => t.sw.leaving = some q.val ∧ t.sw.msgs = s.dev.sw.msgs ∧ t.quartersIn = 15) ∧
  (∀ (q : Fin 4) (s : State), s.dev.quartersIn = 15 → s.dev.sw.leaving = none → s.dev.holdsDescriptors q = false → s.dev.domState (domHub q) ≤ 1 →
    (∀ m ∈ s.dev.holding, m.quarters.getLsbD q = false) →
    yields (.hubQuarterNap q) s fun t => t.sw.leaving = none ∧ t.sw.napping = some q.val ∧ t.sw.msgs = s.dev.sw.msgs ∧
      t.bitOf .bufStatus (28 + q) = false ∧ t.domState (domHub q) = 2)

/-- A gate interval steps to the next entry. A cycle start restarts the list, and with a swap pending takes the other bank's length and
clears the pending bit. SWAP of a bank that is bad sets the error bit and swaps nothing; of a good one it swaps at the next start, or at
once while gating is off. MIR_CTL enables a session whose link is a mirror link outside DEPLOYED, and is ignored otherwise. A mirror
record is sent in order with drops and sequence, and the oldest one is dropped and counted when its session waits too long for a cell.
(R124, R126, R128, R129, R259.) -/
def Obligations.GatesSwapAndMirrorSessionsSend : Prop :=
  (∀ (egress : Egress) (s : State), s.dev.bitOf (gclCtl egress) 31 = true →
    let g := s.dev.gateRun egress
    exec (.gateIntervalEnd egress) s = .next (s.onto (s.dev.setGate egress
      ⟨g.length, if g.entry + 1 < g.length then g.entry + 1 else 0, g.since + s.dev.gateInterval egress (s.dev.gclActive egress) g.entry⟩))) ∧
  (∀ (egress : Egress) (s : State), s.dev.bitOf (gclCtl egress) 31 = true → s.dev.bitOf (gclCtl egress) 30 = false →
    exec (.gateCycleStart egress) s = .next (s.onto (s.dev.setGate egress ⟨(s.dev.gateRun egress).length, 0, s.dev.now⟩))) ∧
  (∀ (egress : Egress) (s : State), s.dev.bitOf (gclCtl egress) 31 = true → s.dev.bitOf (gclCtl egress) 30 = true →
    yields (.gateCycleStart egress) s fun t =>
      t.bitOf (gclCtl egress) 30 = false ∧ t.gclActive egress = 1 - s.dev.gclActive egress ∧
      (t.gateRun egress).length = s.dev.rd (gclCtl egress) 5 0 + 1 ∧ t.sw.msgs = s.dev.sw.msgs ∧
      ∀ r : Reg, r ≠ gclCtl egress → r.show = false → t.reg r = s.dev.reg r) ∧
  (∀ (egress : Egress) (s : State), (∀ t, egress ≠ .home t) → s.dev.bankOk egress = false →
    yields (.gclSwap egress) s fun t => t.bitOf (gclCtl egress) 28 = true ∧ t.gclActive egress = s.dev.gclActive egress ∧
      t.sw.gates = s.dev.sw.gates ∧ ∀ r : Reg, r ≠ gclCtl egress → r.show = false → t.reg r = s.dev.reg r) ∧
  (∀ (egress : Egress) (s : State), (∀ t, egress ≠ .home t) → s.dev.bankOk egress = true → s.dev.bitOf (gclCtl egress) 31 = true →
    yields (.gclSwap egress) s fun t => t.bitOf (gclCtl egress) 30 = true ∧ t.gclActive egress = s.dev.gclActive egress ∧
      t.sw.gates = s.dev.sw.gates) ∧
  (∀ (egress : Egress) (s : State), (∀ t, egress ≠ .home t) → s.dev.bankOk egress = true → s.dev.bitOf (gclCtl egress) 31 = false →
    yields (.gclSwap egress) s fun t => t.gclActive egress = 1 - s.dev.gclActive egress ∧
      (t.gateRun egress).length = s.dev.rd (gclCtl egress) 5 0 + 1) ∧
  (∀ (session : Fin 16) (v : BitVec 32) (s : State), v.getLsbD 31 = false ∨ (s.dev.linkState session = 5 ∧ s.dev.sec.otp.lifecycle ≠ 2) →
    yields (.mirCtlWrite session v) s fun t => t.reg (.mirCtl session) = BitVec.ofNat 64 v.toNat &&& (Reg.mirCtl session).mask ∧ s.dev.onlyRegs t ∧
      ∀ r : Reg, r ≠ .mirCtl session → r.show = false → t.reg r = s.dev.reg r) ∧
  (∀ (session : Fin 16) (v : BitVec 32) (s : State), v.getLsbD 31 = true → s.dev.linkState session ≠ 5 ∨ s.dev.sec.otp.lifecycle = 2 →
    exec (.mirCtlWrite session v) s = .next (s.onto s.dev)) ∧
  (∀ (session : Fin 16) (r : MirrorRec) (rest : List MirrorRec) (s : State), (s.dev.session session).queue = r :: rest →
    yields (.mirrorCellWaitExpiry session) s fun t =>
      (t.session session).queue = rest ∧
      (t.session session).drops = satAdd 0xFFFFFFFF (s.dev.session session).drops 1 ∧ (t.session session).seq = (s.dev.session session).seq ∧
      ∀ m ∈ s.dev.sw.msgs, m ∈ t.sw.msgs) ∧
  (∀ (session : Fin 16) (r : MirrorRec) (rest : List MirrorRec) (s : State), (s.dev.session session).queue = r :: rest →
    s.dev.linkState session = 5 →
    let bytes := mirrorBytes session r (s.dev.session session).drops (s.dev.session session).seq
    yields (.mirrorRecordSend session) s fun t =>
      .mirror session bytes ∈ t.out ∧ .block session (recBlock (bytes.length / 8) session) ∈ t.out ∧
      t.session session = ⟨rest, 0, ((s.dev.session session).seq + 1) % 65536⟩ ∧ ∀ m ∈ s.dev.sw.msgs, m ∈ t.sw.msgs)

/-- RING_ENABLE with a good context makes the ring RUNNING with all four indexes 0; a bad context or a failed read makes it ERROR with
its code. RING_DISABLE is at once where nothing runs, else DISABLING. A sampled producer index is taken, or is an error where it passes
the ring's size. A fetched entry waits, fenced if it says so, and SQ_CI moves on. A fenced entry starts when it is first and no
completion is pending. CQ_CI takes a value that does not pass CQ_PI and counts others as ignored. (R137, R140, R143, R144, R146.) -/
def Obligations.RingsEnableSampleAndFetch : Prop :=
  (∀ (p : Fin 64) (index : Fin 256) (ring : Fin 64) (sl : SliceRec) (c : List Byte) (d1 : Dev) (s : State), s.dev.atRest → s.dev.sliceAt p index = some sl →
    ring.val < sl.ringCount → s.dev.ringState sl ring = 0 →
    (s.dev.wr (.ring sl.port sl.index ring .status) 24 17 0).sliceRead sl sl.regionsNow sl.agent
      ((s.dev.wr (.ring sl.port sl.index ring .status) 24 17 0).ringReg sl ring .ctx) 64 = (.ok c, d1) → sl.contextOk c = true →
    d1.made → (∃ e ∈ sl.sharedEngines, d1.engineRuns e.1 (serviceImage (ringOf c).service) = true) →
    yields (.ringEnable p index ring) s fun t =>
      t.ringState sl ring = 1 ∧ t.rd (.ring sl.port sl.index ring .status) 24 17 = d1.rd (.ring sl.port sl.index ring .status) 24 17 ∧
      t.ringReg sl ring .sqPi = 0 ∧ t.ringReg sl ring .sqCi = 0 ∧ t.ringReg sl ring .cqPi = 0 ∧ t.ringReg sl ring .cqCi = 0 ∧
      t.ringRun sl ring = some { ringOf c with
        msixEn := (ringOf c).msixEn && sl.hasVector (ringOf c).msixVec, sent := (tget s.dev.svc.held (sl.id, ring.val)).isSome }) ∧
  (∀ (p : Fin 64) (index : Fin 256) (ring : Fin 64) (sl : SliceRec) (c : List Byte) (d1 : Dev) (s : State), s.dev.atRest → s.dev.sliceAt p index = some sl →
    ring.val < sl.ringCount → s.dev.ringState sl ring = 0 →
    (s.dev.wr (.ring sl.port sl.index ring .status) 24 17 0).sliceRead sl sl.regionsNow sl.agent
      ((s.dev.wr (.ring sl.port sl.index ring .status) 24 17 0).ringReg sl ring .ctx) 64 = (.ok c, d1) → sl.contextOk c = false → d1.made →
    yields (.ringEnable p index ring) s fun t =>
      t.ringState sl ring = 4 ∧ t.rd (.ring sl.port sl.index ring .status) 24 17 = 2) ∧
  (∀ (p : Fin 64) (index : Fin 256) (ring : Fin 64) (sl : SliceRec) (st : Nat) (d1 : Dev) (s : State), s.dev.atRest → s.dev.sliceAt p index = some sl →
    ring.val < sl.ringCount → s.dev.ringState sl ring = 0 →
    (s.dev.wr (.ring sl.port sl.index ring .status) 24 17 0).sliceRead sl sl.regionsNow sl.agent
      ((s.dev.wr (.ring sl.port sl.index ring .status) 24 17 0).ringReg sl ring .ctx) 64 = (.error st, d1) → d1.made →
    yields (.ringEnable p index ring) s fun t =>
      t.ringState sl ring = 4 ∧ t.rd (.ring sl.port sl.index ring .status) 24 17 = 1) ∧
  (∀ (p : Fin 64) (index : Fin 256) (ring : Fin 64) (sl : SliceRec) (x : RingRun) (s : State), s.dev.sliceAt p index = some sl →
    ring.val < sl.quota.rings.length → s.dev.ringState sl ring = 1 ∨ s.dev.ringState sl ring = 2 ∨ s.dev.ringState sl ring = 4 →
    s.dev.ringRun sl ring = some x → x.ops ≠ [] →
    yields (.ringDisable p index ring) s fun t => t.ringState sl ring = 3 ∧ t.ringRun sl ring = some x ∧ t.pool = s.dev.pool ∧
      t.dir = s.dev.dir ∧ t.sw = s.dev.sw) ∧
  (∀ (p : Fin 64) (index : Fin 256) (ring : Fin 64) (sl : SliceRec) (x : RingRun) (s : State), s.dev.sliceAt p index = some sl →
    ring.val < sl.quota.rings.length → s.dev.ringState sl ring = 1 ∨ s.dev.ringState sl ring = 2 ∨ s.dev.ringState sl ring = 4 →
    s.dev.ringRun sl ring = some x → x.ops = [] →
    yields (.ringDisable p index ring) s fun t => t.ringState sl ring = 0 ∧ t.ringRun sl ring = none) ∧
  (∀ (slice : Fin 4096) (ring : Fin 64) (sl : SliceRec) (x : RingRun) (s : State), s.dev.sliceRec slice = some sl →
    s.dev.ringRun sl ring = some x → x.notify = false → s.dev.ringState sl ring = 1 ∨ s.dev.ringState sl ring = 2 →
    gap (s.dev.ringReg sl ring .sqPi) (s.dev.ringReg sl ring .sqCi) ≤ 2 ^ x.sqLog2 →
    yields (.ringPollSample slice ring) s fun t =>
      t.ringRun sl ring = some { x with sent := false, sampled := s.dev.ringReg sl ring .sqPi } ∧
      t.ringState sl ring = (if s.dev.ringReg sl ring .sqCi ≠ s.dev.ringReg sl ring .sqPi ∧
        2 ^ x.cqLog2 ≤ gap (s.dev.ringReg sl ring .sqCi) (s.dev.ringReg sl ring .cqCi) then 2 else 1) ∧
      ∀ w, w ≠ .status → t.ringReg sl ring w = s.dev.ringReg sl ring w) ∧
  (∀ (slice : Fin 4096) (ring : Fin 64) (sl : SliceRec) (x : RingRun) (s : State), s.dev.sliceRec slice = some sl →
    s.dev.ringRun sl ring = some x → x.notify = false → s.dev.ringState sl ring = 1 ∨ s.dev.ringState sl ring = 2 →
    2 ^ x.sqLog2 < gap (s.dev.ringReg sl ring .sqPi) (s.dev.ringReg sl ring .sqCi) →
    yields (.ringPollSample slice ring) s fun t =>
      t.ringState sl ring = 4 ∧ t.rd (.ring sl.port sl.index ring .status) 24 17 = 3) ∧
  (∀ (slice : Fin 4096) (ring : Fin 64) (sl : SliceRec) (x : RingRun) (b : List Byte) (d1 : Dev) (s : State), s.dev.atRest →
    s.dev.sliceRec slice = some sl → s.dev.ringRun sl ring = some x → s.dev.safe = false →
    s.dev.ringState sl ring = 1 ∨ s.dev.ringState sl ring = 2 → s.dev.ringReg sl ring .sqCi ≠ x.sampled →
    gap (s.dev.ringReg sl ring .sqCi) (s.dev.ringReg sl ring .cqCi) < 2 ^ x.cqLog2 →
    s.dev.sliceRead sl sl.quota.regions sl.agent (x.sqBase + s.dev.ringReg sl ring .sqCi % 2 ^ x.sqLog2 * 64) 64 = (.ok b, d1) → d1.made →
    let o : RingOp := ⟨s.dev.ringReg sl ring .sqCi, b, .waiting, .of 0, false, sl.regionsNow⟩
    yields (.submissionFetched slice ring) s fun t =>
      t.ringRun sl ring = some { x with ops := x.ops ++ [{ o with stage := if o.fence then .fenced else .waiting }] } ∧
      t.ringReg sl ring .sqCi = next32 (s.dev.ringReg sl ring .sqCi)) ∧
  (∀ (slice : Fin 4096) (ring : Fin 64) (sl : SliceRec) (x : RingRun) (o : RingOp) (rest : List RingOp) (s : State),
    s.dev.sliceRec slice = some sl → s.dev.ringRun sl ring = some x → x.ops = o :: rest → s.dev.safe = false → o.stage = .fenced →
    x.done = [] →
    yields (.fencedSubmissionStart slice ring) s fun t =>
      t.ringRun sl ring = some { x with ops := { o with stage := .waiting } :: rest } ∧ t.ringState sl ring = s.dev.ringState sl ring ∧
      t.pool = s.dev.pool ∧ t.svc.queues = s.dev.svc.queues) ∧
  (∀ (p : Fin 64) (index : Fin 256) (ring : Fin 64) (v : BitVec 32) (sl : SliceRec) (s : State), s.dev.sliceAt p index = some sl →
    ring.val < sl.quota.rings.length → s.dev.ringState sl ring ≠ 0 →
    gap v.toNat (s.dev.ringReg sl ring .cqCi) ≤ gap (s.dev.ringReg sl ring .cqPi) (s.dev.ringReg sl ring .cqCi) →
    yields (.cqCiWrite p index ring v) s fun t => t.ringReg sl ring .cqCi = v.toNat ∧ t.svc = s.dev.svc ∧ t.pool = s.dev.pool ∧
      ∀ w, w ≠ .status → w ≠ .cqCi → t.ringReg sl ring w = s.dev.ringReg sl ring w) ∧
  (∀ (p : Fin 64) (index : Fin 256) (ring : Fin 64) (v : BitVec 32) (sl : SliceRec) (s : State), s.dev.sliceAt p index = some sl →
    ring.val < sl.quota.rings.length → s.dev.ringState sl ring ≠ 0 →
    gap (s.dev.ringReg sl ring .cqPi) (s.dev.ringReg sl ring .cqCi) < gap v.toNat (s.dev.ringReg sl ring .cqCi) →
    yields (.cqCiWrite p index ring v) s fun t => t.svc.ignoredCi = s.dev.svc.ignoredCi + 1 ∧ t.svc.rings = s.dev.svc.rings ∧
      ∀ w, t.ringReg sl ring w = s.dev.ringReg sl ring w) ∧
  (∀ (p : Fin 64) (index : Fin 256) (ring : Fin 64) (v : BitVec 32) (sl : SliceRec) (s : State), s.dev.sliceAt p index = some sl →
    s.dev.ringState sl ring = 0 → exec (.cqCiWrite p index ring v) s = .next (s.onto s.dev))

/-- NOP ends with OK, or with BAD_PARAM where a reserved byte is set. An ended operation, or one whose service has no such opcode, takes
the next completion slot. An accepted write moves CQ_PI past the slot and ends the operation; a failed one puts the ring in ERROR with
its code and leaves CQ_PI. (R142, R147, R148.) -/
def Obligations.CompletionsAreWrittenAndPassed : Prop :=
  (∀ (slice : Fin 4096) (ring : Fin 64) (index : BitVec 32) (sl : SliceRec) (x : RingRun) (o : RingOp) (e : Nat) (d' : Dev) (s : State),
    s.dev.starts slice ring index.toNat 0 [1, 2] sl x o e d' → field o.entry 4 60 = 0 → x.service = 2 →
    exec (.nop slice ring index) s = .next (s.onto (d'.endOp sl ring o (.of stOk)))) ∧
  (∀ (slice : Fin 4096) (ring : Fin 64) (index : BitVec 32) (sl : SliceRec) (x : RingRun) (o : RingOp) (e : Nat) (d' : Dev) (s : State),
    s.dev.starts slice ring index.toNat 0 [1, 2] sl x o e d' → field o.entry 4 60 = 0 → x.service = 1 →
    exec (.nop slice ring index) s = .next (s.onto ((d'.count (e / 16) 0x4001 1).endOp sl ring o (.of stOk)))) ∧
  (∀ (slice : Fin 4096) (ring : Fin 64) (index : BitVec 32) (sl : SliceRec) (x : RingRun) (o : RingOp) (e : Nat) (d' : Dev) (s : State),
    s.dev.starts slice ring index.toNat 0 [1, 2] sl x o e d' → field o.entry 4 60 ≠ 0 →
    yields (.nop slice ring index) s fun t => t.ringRun sl ring = some (x.put { o with stage := .ended, result := .of stBadParam })) ∧
  (∀ (slice : Fin 4096) (ring : Fin 64) (index : BitVec 32) (sl : SliceRec) (x : RingRun) (o : RingOp) (s : State),
    s.dev.sliceRec slice = some sl → s.dev.ringRun sl ring = some x → x.find index.toNat = some o → o.stage = .ended →
    yields (.completionWrite slice ring index) s fun t => t.ringRun sl ring =
      some { x.put { o with stage := .written x.slotNext } with slotNext := next32 x.slotNext }) ∧
  (∀ (slice : Fin 4096) (ring : Fin 64) (index : BitVec 32) (sl : SliceRec) (x : RingRun) (o : RingOp) (s : State),
    s.dev.sliceRec slice = some sl → s.dev.ringRun sl ring = some x → x.find index.toNat = some o → o.stage = .waiting →
    serves x.service o.opcode = false → x.mayStart o = true →
    yields (.completionWrite slice ring index) s fun t => t.ringRun sl ring =
      some { x.put { o with stage := .written x.slotNext, result := .of stBadOpcode } with slotNext := next32 x.slotNext }) ∧
  (∀ (slice : Fin 4096) (ring : Fin 64) (index : BitVec 32) (sl : SliceRec) (x : RingRun) (o : RingOp) (slot : Nat) (d1 : Dev) (s : State), s.dev.noTurn →
    s.dev.writtenOp slice ring index.toNat = some (sl, x, o, slot) →
    s.dev.sliceWrite sl (sl.regionsFor o) sl.agent (x.cqBase + slot % 2 ^ x.cqLog2 * 32) (completionBytes o) = (0, d1) →
    accesses (.completionWriteAccepted slice ring index) s (d1.slotDone sl ring o slot true)) ∧
  (∀ (slice : Fin 4096) (ring : Fin 64) (index : BitVec 32) (sl : SliceRec) (x : RingRun) (o : RingOp) (slot : Nat) (d1 : Dev) (s : State), s.dev.atRest →
    s.dev.writtenOp slice ring index.toNat = some (sl, x, o, slot) → x.done = [] → x.shadow = 0 → o.notify = false →
    s.dev.sliceWrite sl (sl.regionsFor o) sl.agent (x.cqBase + slot % 2 ^ x.cqLog2 * 32) (completionBytes o) = (0, d1) →
    d1.made → d1.ringRun sl ring = some x → d1.ringReg sl ring .cqPi = slot → d1.ringState sl ring = 1 →
    yields (.completionWriteAccepted slice ring index) s fun t => t.ringReg sl ring .cqPi = next32 slot ∧
      t.ringRun sl ring = some (x.without o)) ∧
  (∀ (slice : Fin 4096) (ring : Fin 64) (index : BitVec 32) (sl : SliceRec) (x : RingRun) (o : RingOp) (slot : Nat) (s : State), s.dev.atRest →
    s.dev.writtenOp slice ring index.toNat = some (sl, x, o, slot) → s.dev.ringState sl ring ≠ 3 → x.done = [] → x.msixEn = false →
    yields (.completionWriteFailed slice ring index) s fun t => t.ringState sl ring = 4 ∧
      t.rd (.ring sl.port sl.index ring .status) 24 17 = 5 ∧ t.ringReg sl ring .cqPi = s.dev.ringReg sl ring .cqPi ∧
      t.ringRun sl ring = some { x.without o with done := [(slot, false, o.notify)] })

/-- A lookup whose entry is well formed reads the table's header and answers the result and version that its table gives for the key in
the entry or in memory; a batch answers its number of hits. A reserved byte, a misaligned address, a count out of range, or a header
that is not of its kind, ends the operation with its status. An ended lookup holds its result. (R152, R154, R155.) -/
def Obligations.LookupsAnswerWithTheTablesEntry : Prop :=
  (∀ (slice : Fin 4096) (ring : Fin 64) (index : BitVec 32) (sl : SliceRec) (x : RingRun) (o : RingOp) (e : Nat) (v : Nat) (h : Header)
    (d' d1 d2 : Dev) (res : Except Nat (Option (Nat × List Byte))) (s : State), s.dev.noTurn → s.dev.starts slice ring index.toNat 1 [1] sl x o e d' →
    field o.entry 4 4 = 0 → field o.entry 8 8 % 64 = 0 → let c : LookupCtx := ⟨sl, sl.regionsFor o, engineAgent e⟩
    d'.readTable c (field o.entry 8 8) = ((some v, .ok h), d1) → h.emOk = true → h.keyLen ≤ 48 →
    d1.emLookup c h (Machine.slice o.entry 16 h.keyLen) = (res, d2) →
    accesses (.emLookup slice ring index) s (d2.endLookup sl ring o e (lookupResult (some v) res))) ∧
  (∀ (slice : Fin 4096) (ring : Fin 64) (index : BitVec 32) (sl : SliceRec) (x : RingRun) (o : RingOp) (e : Nat) (v : Nat) (h : Header)
    (key : List Byte) (d' d1 d2 d3 : Dev) (res : Except Nat (Option (Nat × List Byte))) (s : State), s.dev.noTurn →
    s.dev.starts slice ring index.toNat 1 [1] sl x o e d' → field o.entry 4 4 = 0 → field o.entry 8 8 % 64 = 0 →
    let c : LookupCtx := ⟨sl, sl.regionsFor o, engineAgent e⟩
    d'.readTable c (field o.entry 8 8) = ((some v, .ok h), d1) → h.emOk = true → 48 < h.keyLen → field o.entry 24 40 = 0 →
    field o.entry 16 8 % 64 = 0 → d1.lread c (field o.entry 16 8) h.keyLen = (.ok key, d2) → d2.emLookup c h key = (res, d3) →
    accesses (.emLookup slice ring index) s (d3.endLookup sl ring o e (lookupResult (some v) res))) ∧
  (∀ (slice : Fin 4096) (ring : Fin 64) (index : BitVec 32) (sl : SliceRec) (x : RingRun) (o : RingOp) (e : Nat) (d' : Dev) (s : State), s.dev.atRest →
    s.dev.starts slice ring index.toNat 1 [1] sl x o e d' → field o.entry 4 4 ≠ 0 →
    yields (.emLookup slice ring index) s fun t =>
      t.ringRun sl ring = some (x.put { o with stage := .ended, result := .of stBadParam })) ∧
  (∀ (slice : Fin 4096) (ring : Fin 64) (index : BitVec 32) (sl : SliceRec) (x : RingRun) (o : RingOp) (e : Nat) (d' : Dev) (s : State), s.dev.atRest →
    s.dev.starts slice ring index.toNat 1 [1] sl x o e d' → field o.entry 4 4 = 0 → field o.entry 8 8 % 64 ≠ 0 →
    yields (.emLookup slice ring index) s fun t =>
      t.ringRun sl ring = some (x.put { o with stage := .ended, result := .of stAlignment })) ∧
  (∀ (slice : Fin 4096) (ring : Fin 64) (index : BitVec 32) (sl : SliceRec) (x : RingRun) (o : RingOp) (e : Nat) (v : Nat) (h : Header)
    (d' d1 d2 : Dev) (res : Except Nat (Option (Nat × List Byte))) (s : State), s.dev.noTurn → s.dev.starts slice ring index.toNat 2 [1] sl x o e d' →
    field o.entry 4 4 = 0 → field o.entry 32 32 = 0 → field o.entry 8 8 % 64 = 0 →
    let c : LookupCtx := ⟨sl, sl.regionsFor o, engineAgent e⟩
    d'.readTable c (field o.entry 8 8) = ((some v, .ok h), d1) → h.lpmOk = true → (h.typ = 2 → field o.entry 20 12 = 0) →
    d1.lpmLookup c h (Machine.slice o.entry 16 (if h.typ = 2 then 4 else 16)) = (res, d2) →
    accesses (.lpmLookup slice ring index) s (d2.endLookup sl ring o e (lookupResult (some v) res))) ∧
  (∀ (slice : Fin 4096) (ring : Fin 64) (index : BitVec 32) (sl : SliceRec) (x : RingRun) (o : RingOp) (e : Nat) (v : Nat) (h : Header)
    (d' d1 : Dev) (s : State), s.dev.noTurn → s.dev.starts slice ring index.toNat 2 [1] sl x o e d' →
    field o.entry 4 4 = 0 → field o.entry 32 32 = 0 → field o.entry 8 8 % 64 = 0 →
    d'.readTable ⟨sl, sl.regionsFor o, engineAgent e⟩ (field o.entry 8 8) = ((some v, .ok h), d1) → h.lpmOk = false →
    accesses (.lpmLookup slice ring index) s (d1.endLookup sl ring o e ⟨stTableFormat, 0, v, 0, []⟩)) ∧
  (∀ (slice : Fin 4096) (ring : Fin 64) (index : BitVec 32) (sl : SliceRec) (x : RingRun) (o : RingOp) (e : Nat) (v : Nat) (h : Header)
    (hits : Nat) (d' d1 d2 : Dev) (s : State), s.dev.noTurn → s.dev.starts slice ring index.toNat 3 [1] sl x o e d' → 1 ≤ field o.entry 4 2 →
    field o.entry 4 2 ≤ 256 → field o.entry 6 1 = 1 ∨ field o.entry 6 1 = 2 → field o.entry 7 1 = 0 → field o.entry 32 32 = 0 →
    field o.entry 8 8 % 64 = 0 → field o.entry 16 8 % 64 = 0 → field o.entry 24 8 % 64 = 0 →
    let c : LookupCtx := ⟨sl, sl.regionsFor o, engineAgent e⟩
    d'.readTable c (field o.entry 8 8) = ((some v, .ok h), d1) → (if field o.entry 6 1 = 1 then h.emOk else h.lpmOk) = true →
    d1.batchAll c h (some v) (field o.entry 16 8) (field o.entry 24 8) (field o.entry 4 2) 0 0 = (.ok hits, d2) →
    accesses (.lookupBatch slice ring index) s (d2.endLookup sl ring o e ⟨stOk, 0, v, hits, []⟩)) ∧
  (∀ (slice : Fin 4096) (ring : Fin 64) (index : BitVec 32) (sl : SliceRec) (x : RingRun) (o : RingOp) (e : Nat) (d' : Dev) (s : State), s.dev.atRest →
    s.dev.starts slice ring index.toNat 3 [1] sl x o e d' → field o.entry 4 2 = 0 ∨ 256 < field o.entry 4 2 →
    yields (.lookupBatch slice ring index) s fun t =>
      t.ringRun sl ring = some (x.put { o with stage := .ended, result := .of stBadParam })) ∧
  (∀ (d : Dev) (sl : SliceRec) (r : Nat) (x : RingRun) (o : RingOp) (e : Nat) (res : OpResult), d.ringRun sl r = some x →
    (d.endLookup sl r o e res).ringRun sl r = some (x.put { o with stage := .ended, result := res }))

/-- Each of these operations, with its fields in range and its object free, writes its area and makes the service, cell pool, node, queue
or gate with the values of the entry, and ends with OK. QS_INIT with queues in being, NODE_SET removing a node with objects below it, and
QUEUE_SET removing a queue that holds packets, end with BUSY_OBJECT and change nothing. CELL_POOL with COUNT 0 of a pool that is not there
ends with BAD_PARAM. (R157, R158, R162, R164, R167.) -/
def Obligations.QueueServiceIsSetUp : Prop :=
  (∀ (slice : Fin 4096) (ring : Fin 64) (index : BitVec 32) (sl : SliceRec) (x : RingRun) (o : RingOp) (e : Nat) (d' : Dev) (s : State),
    s.dev.starts slice ring index.toNat 0x10 [2] sl x o e d' → field o.entry 4 4 = 0 → field o.entry 16 48 = 0 → field o.entry 8 8 % 4096 = 0 →
    inRegions sl.regionsNow (field o.entry 8 8) (272 * 1024) = true → d'.qservice sl = none →
    yields (.qsInit slice ring index) s fun t => t.qservice sl = some ⟨field o.entry 8 8, [], [], [], []⟩ ∧
      t.ringRun sl ring = some (x.put { o with stage := .ended, result := .of stOk }) ∧ t.pool = d'.pool) ∧
  (∀ (slice : Fin 4096) (ring : Fin 64) (index : BitVec 32) (sl : SliceRec) (x : RingRun) (o : RingOp) (e : Nat) (q : QService) (d' : Dev)
    (s : State), s.dev.starts slice ring index.toNat 0x10 [2] sl x o e d' → field o.entry 4 4 = 0 → field o.entry 16 48 = 0 →
    field o.entry 8 8 % 4096 = 0 → inRegions sl.regionsNow (field o.entry 8 8) (272 * 1024) = true → d'.qservice sl = some q → q.queues ≠ [] →
    yields (.qsInit slice ring index) s fun t => t.qservice sl = some q ∧
      t.ringRun sl ring = some (x.put { o with stage := .ended, result := .of stBusyObject })) ∧
  (∀ (slice : Fin 4096) (ring : Fin 64) (index : BitVec 32) (sl : SliceRec) (x : RingRun) (o : RingOp) (e k : Nat) (q : QService)
    (d' d1 d2 d3 : Dev) (s : State), s.dev.noTurn → s.dev.starts slice ring index.toNat 0x11 [2] sl x o e d' → d'.qservice sl = some q →
    field o.entry 4 1 < 16 → field o.entry 5 1 < 3 → field o.entry 6 2 = 0 → field o.entry 28 36 = 0 → 64 ≤ field o.entry 24 4 →
    field o.entry 24 4 ≤ 16777216 → field o.entry 8 8 % 4096 = 0 → field o.entry 16 8 % 64 = 0 →
    d'.poolUsed sl q (field o.entry 4 1) = false → d'.openNat = (k, d1) →
    let n := field o.entry 24 4
    let p : CellPool := ⟨field o.entry 5 1, field o.entry 8 8, field o.entry 16 8, n, (List.range n).rotate k⟩
    inRegions (sl.regionsFor o) p.cellBase (n * p.bytes) = true → inRegions (sl.regionsFor o) p.linkBase (4 * n) = true →
    d1.writeLinks sl (sl.regionsFor o) (engineAgent e) p (chain p.free noCell) = (0, d2) →
    d2.writeArea sl (sl.regionsFor o) (engineAgent e) q (0x42000 + 64 * field o.entry 4 1) 1 = (stOk, d3) →
    accesses (.cellPool slice ring index) s
      ((d3.setQService sl { q with pools := tset q.pools (field o.entry 4 1) p }).endOp sl ring o (.of stOk))) ∧
  (∀ (slice : Fin 4096) (ring : Fin 64) (index : BitVec 32) (sl : SliceRec) (x : RingRun) (o : RingOp) (e : Nat) (q : QService) (d' : Dev)
    (s : State), s.dev.atRest → s.dev.starts slice ring index.toNat 0x11 [2] sl x o e d' → d'.qservice sl = some q →
    field o.entry 24 4 = 0 → tget q.pools (field o.entry 4 1) = none →
    yields (.cellPool slice ring index) s fun t => t.qservice sl = some q ∧
      t.ringRun sl ring = some (x.put { o with stage := .ended, result := .of stBadParam })) ∧
  (∀ (slice : Fin 4096) (ring : Fin 64) (index : BitVec 32) (sl : SliceRec) (x : RingRun) (o : RingOp) (e : Nat) (q : QService) (d' d1 : Dev)
    (s : State), s.dev.noTurn → s.dev.starts slice ring index.toNat 0x12 [2] sl x o e d' → d'.qservice sl = some q → let b := o.entry
    field b 4 2 < 4096 → field b 6 2 = 0xFFFF → field b 10 1 = 0xFF → field b 11 1 = 1 → field b 12 4 ≤ 1000000 → 16384 ≤ field b 24 4 →
    16384 ≤ field b 28 4 → field b 32 32 = 0 → q.node (field b 4 2) = none →
    let n : QNode := ⟨0xFFFF, field b 8 2, 0xFF, field b 12 4, field b 16 4, field b 20 4, field b 24 4, field b 28 4, 256000 * field b 24 4,
      256000 * field b 28 4, d'.now, 0, 0⟩
    (q.setNode (field b 4 2) n).treeOk = true →
    d'.writeArea sl (sl.regionsFor o) (engineAgent e) q (64 * field b 4 2) 1 = (stOk, d1) →
    accesses (.nodeSet slice ring index) s ((d1.setQService sl (q.setNode (field b 4 2) n)).endOp sl ring o (.of stOk))) ∧
  (∀ (slice : Fin 4096) (ring : Fin 64) (index : BitVec 32) (sl : SliceRec) (x : RingRun) (o : RingOp) (e : Nat) (q : QService) (n : QNode)
    (d' : Dev) (s : State), s.dev.atRest → s.dev.starts slice ring index.toNat 0x12 [2] sl x o e d' → d'.qservice sl = some q → let b := o.entry
    field b 4 2 < 4096 → field b 6 2 = 0xFFFF → field b 10 1 = 0xFF → field b 11 1 = 0 → field b 12 4 ≤ 1000000 → 16384 ≤ field b 24 4 →
    16384 ≤ field b 28 4 → field b 32 32 = 0 → q.node (field b 4 2) = some n → q.holdsBelow (field b 4 2) = true →
    yields (.nodeSet slice ring index) s fun t => t.qservice sl = some q ∧
      t.ringRun sl ring = some (x.put { o with stage := .ended, result := .of stBusyObject })) ∧
  (∀ (slice : Fin 4096) (ring : Fin 64) (index : BitVec 32) (sl : SliceRec) (x : RingRun) (o : RingOp) (e : Nat) (q : QService) (n : QNode)
    (p : CellPool) (d' : Dev) (s : State), s.dev.starts slice ring index.toNat 0x13 [2] sl x o e d' → d'.qservice sl = some q → let b := o.entry
    field b 4 4 < 65536 → field b 12 1 < 16 → field b 13 1 = 1 → field b 14 2 = 0 → field b 16 4 ≤ 1000000 → field b 32 32 = 0 →
    sl.quota.hasQueue (field b 4 4) = true → sl.openQueue (field b 4 4) = true → d'.descriptorLost (field b 4 4) = false →
    q.node (field b 8 2) = some n → tget q.pools (field b 12 1) = some p → q.queue (field b 4 4) = none →
    yields (.queueSet slice ring index) s fun t =>
      t.qservice sl = some (q.setQueue (field b 4 4) ⟨field b 8 2, field b 10 2, field b 12 1, field b 16 4, field b 20 4, field b 24 8,
        [], 0, 0, 0, []⟩) ∧ t.ringRun sl ring = some (x.put { o with stage := .ended, result := .of stOk }) ∧ t.pool = d'.pool) ∧
  (∀ (slice : Fin 4096) (ring : Fin 64) (index : BitVec 32) (sl : SliceRec) (x : RingRun) (o : RingOp) (e : Nat) (q : QService) (y : PQueue)
    (d' : Dev) (s : State), s.dev.starts slice ring index.toNat 0x13 [2] sl x o e d' → d'.qservice sl = some q → let b := o.entry
    field b 4 4 < 65536 → field b 12 1 < 16 → field b 13 1 = 0 → field b 14 2 = 0 → field b 16 4 ≤ 1000000 → field b 32 32 = 0 →
    sl.quota.hasQueue (field b 4 4) = true → d'.descriptorLost (field b 4 4) = false → q.queue (field b 4 4) = some y → y.packets ≠ [] →
    yields (.queueSet slice ring index) s fun t => t.qservice sl = some q ∧
      t.ringRun sl ring = some (x.put { o with stage := .ended, result := .of stBusyObject })) ∧
  (∀ (slice : Fin 4096) (ring : Fin 64) (index : BitVec 32) (sl : SliceRec) (x : RingRun) (o : RingOp) (e : Nat) (q : QService)
    (bytes : List Byte) (d' d1 d2 : Dev) (s : State), s.dev.noTurn → s.dev.starts slice ring index.toNat 0x14 [2] sl x o e d' → d'.qservice sl = some q →
    let b := o.entry
    let l := (List.range (field b 5 1 + 1)).map fun k => field bytes (4 * k) 4
    field b 4 1 < 16 → field b 5 1 < 64 → field b 6 2 = 0 → field b 24 40 = 0 → field b 8 8 % 64 = 0 →
    d'.sliceRead sl (sl.regionsFor o) (engineAgent e) (field b 8 8) (4 * (field b 5 1 + 1)) = (.ok bytes, d1) → bankOk l = true →
    (∀ n ∈ q.nodes, n.2.gate = field b 4 1 → guardOk l n.2.guardNs = true) → tget q.gates (field b 4 1) = none →
    d1.writeArea sl (sl.regionsFor o) (engineAgent e) q (0x40000 + 512 * field b 4 1) 8 = (stOk, d2) →
    accesses (.gateSet slice ring index) s
      ((d2.setQService sl { q with gates := tset q.gates (field b 4 1) ⟨l, field b 16 8, none⟩ }).endOp sl ring o (.of stOk)))

/-- ENQUEUE takes cells, copies the packet and, at its commit, appends it and answers the queue's length and time; a full queue refuses
it and counts. DEQUEUE takes the head with its length, age and info and, when copied, returns its cells; an empty queue answers EMPTY.
QUEUE_QUERY answers the queue's counts. QUEUE_FLUSH drops its packets. An age visit drops packets past their age and counts them. An
operation whose engine was lost is re-executed on another engine, or ends with ENGINE_LOST and returns its cells. (R134, R149, R160,
R161, R165, R167.) -/
def Obligations.PacketsAreQueuedAndTaken : Prop :=
  (∀ (slice : Fin 4096) (ring : Fin 64) (index : BitVec 32) (sl : SliceRec) (x : RingRun) (o : RingOp) (e : Nat) (q : QService) (y : PQueue)
    (p : CellPool) (data : List Byte) (d' d1 d2 d3 : Dev) (s : State), s.dev.noTurn → s.dev.starts slice ring index.toNat 0x18 [2] sl x o e d' →
    d'.qservice sl = some q → let b := o.entry
    let len := field b 16 2
    field b 4 4 < 65536 → 1 ≤ len → len ≤ 16384 → field b 18 6 = 0 → field b 40 24 = 0 → field b 8 8 % 64 = 0 →
    sl.openQueue (field b 4 4) = true → d'.descriptorLost (field b 4 4) = false → q.queue (field b 4 4) = some y →
    tget q.pools y.pool = some p → y.full len = false → p.need len ≤ p.free.length →
    let rs := sl.regionsFor o
    let a := engineAgent e
    (d'.setQService sl { q with pools := tset q.pools y.pool { p with free := p.free.drop (p.need len) } }).sliceRead sl rs a (field b 8 8) len =
      (.ok data, d1) →
    d1.writeLinks sl rs a p (chain (p.free.take (p.need len)) noCell) = (0, d2) →
    d2.writeCells sl rs a p (p.free.take (p.need len)) 32 data = (0, d3) →
    accesses (.enqueue slice ring index) s (d3.setOp sl ring { o with stage := .copyingIn e y.pool (p.free.take (p.need len)) })) ∧
  (∀ (slice : Fin 4096) (ring : Fin 64) (index : BitVec 32) (sl : SliceRec) (x : RingRun) (o : RingOp) (e : Nat) (q : QService) (y : PQueue)
    (p : CellPool) (d' : Dev) (s : State), s.dev.atRest → s.dev.starts slice ring index.toNat 0x18 [2] sl x o e d' →
    d'.qservice sl = some q → let b := o.entry
    let len := field b 16 2
    field b 4 4 < 65536 → 1 ≤ len → len ≤ 16384 → field b 18 6 = 0 → field b 40 24 = 0 → field b 8 8 % 64 = 0 →
    sl.openQueue (field b 4 4) = true → d'.descriptorLost (field b 4 4) = false → q.queue (field b 4 4) = some y →
    tget q.pools y.pool = some p → y.full len = true →
    yields (.enqueue slice ring index) s fun t =>
      t.qservice sl = some (q.setQueue (field b 4 4) { y with refused := y.refused + 1 }) ∧
      t.ringRun sl ring = some (x.put { o with stage := .ended, result := .of stQueueFull })) ∧
  (∀ (slice : Fin 4096) (ring : Fin 64) (index : BitVec 32) (sl : SliceRec) (x : RingRun) (o : RingOp) (e : Nat) (cells : List Nat)
    (q : QService) (y : PQueue) (p : CellPool) (d1 : Dev) (s : State), s.dev.noTurn → s.dev.queueOp slice ring index.toNat = some (sl, x, o, q) →
    o.stage = .copyingIn e y.pool cells → x.objectBusy o = false → let b := o.entry
    let len := field b 16 2
    q.queue (field b 4 4) = some y → tget q.pools y.pool = some p → s.dev.descriptorLost (field b 4 4) = false → y.full len = false →
    y.packets = [] → s.dev.sliceWrite sl (sl.regionsFor o) (engineAgent e) (p.cellBase + cells.headD 0 * p.bytes)
      (packetHeader noCell len cells.length s.dev.now (Machine.slice b 24 16)) = (0, d1) →
    accesses (.enqueueCommit slice ring index) s ((d1.setQService sl ((q.setQueue (field b 4 4)
      { y with packets := [⟨y.pool, cells, len, s.dev.now, Machine.slice b 24 16⟩] }).tagHead (field b 4 4))).endOp sl ring o
        ⟨stOk, 0, 1, s.dev.now, []⟩)) ∧
  (∀ (slice : Fin 4096) (ring : Fin 64) (index : BitVec 32) (sl : SliceRec) (x : RingRun) (o : RingOp) (e : Nat) (q : QService) (y : PQueue)
    (p : Packet) (rest : List Packet) (d' : Dev) (s : State), s.dev.atRest → s.dev.starts slice ring index.toNat 0x19 [2] sl x o e d' →
    d'.qservice sl = some q → let b := o.entry
    field b 4 4 < 65536 → field b 16 2 % 64 = 0 → 64 ≤ field b 16 2 → field b 16 2 ≤ 16384 → field b 18 46 = 0 → field b 8 8 % 64 = 0 →
    sl.quota.hasQueue (field b 4 4) = true → d'.descriptorLost (field b 4 4) = false → q.queue (field b 4 4) = some y →
    y.packets = p :: rest → y.ageUs = 0 →
    yields (.dequeue slice ring index) s fun t =>
      t.qservice sl = some (q.popHead (field b 4 4)) ∧
      t.ringRun sl ring = some (x.put { o with stage := .copyingOut e (field b 4 4) p, result :=
        ⟨stOk, if field b 16 2 < p.len then 2 else 0, field b 4 4, p.len + (d'.now - p.ftime) % 2 ^ 48 * 2 ^ 16, p.info⟩ })) ∧
  (∀ (slice : Fin 4096) (ring : Fin 64) (index : BitVec 32) (sl : SliceRec) (x : RingRun) (o : RingOp) (e : Nat) (q : QService) (y : PQueue)
    (d' : Dev) (s : State), s.dev.atRest → s.dev.starts slice ring index.toNat 0x19 [2] sl x o e d' →
    d'.qservice sl = some q → let b := o.entry
    field b 4 4 < 65536 → field b 16 2 % 64 = 0 → 64 ≤ field b 16 2 → field b 16 2 ≤ 16384 → field b 18 46 = 0 → field b 8 8 % 64 = 0 →
    sl.quota.hasQueue (field b 4 4) = true → d'.descriptorLost (field b 4 4) = false → q.queue (field b 4 4) = some y → y.packets = [] →
    yields (.dequeue slice ring index) s fun t => t.qservice sl = some q ∧
      t.ringRun sl ring = some (x.put { o with stage := .ended, result := .of stEmpty })) ∧
  (∀ (slice : Fin 4096) (ring : Fin 64) (index : BitVec 32) (sl : SliceRec) (x : RingRun) (o : RingOp) (e i : Nat) (q : QService)
    (pk : Packet) (p : CellPool) (bytes out : List Byte) (d1 d2 d3 : Dev) (s : State), s.dev.noTurn →
    s.dev.queueOp slice ring index.toNat = some (sl, x, o, q) → o.stage = .copyingOut e i pk →
    tget q.pools pk.pool = some p →
    s.dev.readCells sl (sl.regionsFor o) (engineAgent e) p pk.cells 32 (min pk.len (field o.entry 16 2)) = (.ok bytes, d1) →
    d1.padLine bytes = (out, d2) → d2.sliceWrite sl (sl.regionsFor o) (engineAgent e) (field o.entry 8 8) out = (0, d3) →
    accesses (.dequeueCopyDone slice ring index) s
      ((d3.returnCells sl (sl.regionsFor o) (engineAgent e) pk.pool pk.cells).endOp sl ring o o.result)) ∧
  (∀ (slice : Fin 4096) (ring : Fin 64) (index : BitVec 32) (sl : SliceRec) (x : RingRun) (o : RingOp) (e i : Nat) (q : QService) (y : PQueue)
    (d' : Dev) (s : State), s.dev.starts slice ring index.toNat 0x1A [2] sl x o e d' → d'.qservice sl = some q →
    d'.namedQueue sl o q = .ok (i, y) →
    yields (.queueQuery slice ring index) s fun t => t.qservice sl = some q ∧
      t.ringRun sl ring = some (x.put { o with stage := .ended, result :=
        ⟨stOk, 0, y.packets.length, y.bytes, toBytes 8 y.aged ++ toBytes 8 y.refused⟩ })) ∧
  (∀ (slice : Fin 4096) (ring : Fin 64) (index : BitVec 32) (sl : SliceRec) (x : RingRun) (o : RingOp) (e i : Nat) (q : QService) (y : PQueue)
    (d' : Dev) (s : State), s.dev.noTurn → s.dev.starts slice ring index.toNat 0x1B [2] sl x o e d' → d'.qservice sl = some q →
    d'.namedQueue sl o q = .ok (i, y) →
    accesses (.queueFlush slice ring index) s
      ((d'.flushQueue sl (engineAgent e) i).endOp sl ring o ⟨stOk, 0, y.packets.length, y.bytes, []⟩)) ∧
  (∀ (slice : Fin 4096) (queue : BitVec 16) (sl : SliceRec) (e : Nat) (d1 : Dev) (s : State), s.dev.noTurn → s.dev.sliceRec slice = some sl →
    s.dev.descriptorLost queue.toNat = false →
    s.dev.choose ((sl.sharedEngines.map (·.1)).filter fun e => s.dev.engineRuns e .queue) = (some e, d1) →
    accesses (.queueAgeVisit slice queue) s (d1.ageAll sl (engineAgent e) [queue.toNat]).2) ∧
  (∀ (slice : Fin 4096) (queue : BitVec 16) (sl : SliceRec) (e : Nat) (d1 : Dev) (q : QService) (y : PQueue) (p : Packet) (s : State), s.dev.atRest →
    s.dev.sliceRec slice = some sl → s.dev.descriptorLost queue.toNat = false →
    s.dev.choose ((sl.sharedEngines.map (·.1)).filter fun e => s.dev.engineRuns e .queue) = (some e, d1) →
    d1.qservice sl = some q → q.queue queue.toNat = some y → y.packets = [p] → y.headAged d1.now = true → tget q.pools p.pool = none →
    yields (.queueAgeVisit slice queue) s fun t => ∃ q' y', t.qservice sl = some q' ∧ q'.queue queue.toNat = some y' ∧ y'.packets = [] ∧
      y'.aged = y.aged + 1 ∧ y'.refused = y.refused) ∧
  (∀ (slice : Fin 4096) (ring : Fin 64) (index : BitVec 32) (sl : SliceRec) (x : RingRun) (o : RingOp) (q : QService) (old e i : Nat)
    (p : Packet) (d1 : Dev) (s : State), s.dev.atRest → s.dev.queueOp slice ring index.toNat = some (sl, x, o, q) → o.stage = .copyingOut old i p →
    s.dev.engineOut old = true → s.dev.dispatch sl .queue = (.on e, d1) →
    yields (.engineLostReexecute slice ring index) s fun t => t.qservice sl = some q ∧
      t.ringRun sl ring = some (x.put { o with stage := .copyingOut e i p, retried := true })) ∧
  (∀ (slice : Fin 4096) (ring : Fin 64) (index : BitVec 32) (sl : SliceRec) (x : RingRun) (o : RingOp) (q : QService) (old pool : Nat)
    (cells : List Nat) (d1 : Dev) (s : State), s.dev.noTurn → s.dev.queueOp slice ring index.toNat = some (sl, x, o, q) →
    o.stage = .copyingIn old pool cells → s.dev.engineOut old = true → s.dev.dispatch sl .queue = (.lost, d1) →
    accesses (.engineLostReexecute slice ring index) s
      ((d1.returnCells sl (sl.regionsFor o) sl.agent pool cells).endOp sl ring o (.of stEngineLost)))

/-- ARM of an idle channel whose registers pass starts them as the active ones; of a busy channel it arms the shadow; of a channel that
is armed it has no effect; where a check fails it records the error. DISARM clears the shadow. ABORT of an active transfer drains it, of
a halted one ends it. ACK ends HALTED. A retired channel that cannot be replaced is CLOSED with its error. (R179, R184, R186, R187, R191.)
-/
def Obligations.TransfersAreArmedAbortedAndAcknowledged : Prop :=
  (∀ (c : Fin 64) (s : State), s.dev.bitOf (.dmv c .status) 28 = true → exec (.dmvArm c) s = .next (s.onto s.dev)) ∧
  (∀ (c : Fin 64) (s : State), s.dev.bitOf (.dmv c .status) 28 = false → s.dev.dmvState c = 0 → s.dev.safe = false → s.dev.armCheck c = none →
    s.dev.closing c = false →
    yields (.dmvArm c) s fun t => t.dmvState c = 1 ∧ t.bitOf (.dmv c .status) 28 = false ∧ t.reg (.dmv c .actSrc) = s.dev.reg (.dmv c .src) &&& (Reg.dmv c .actSrc).mask ∧
      t.reg (.dmv c .actDst) = s.dev.reg (.dmv c .dst) &&& (Reg.dmv c .actDst).mask ∧ t.reg (.dmv c .actLen) = s.dev.reg (.dmv c .len) &&& (Reg.dmv c .actLen).mask ∧
      t.reg (.dmv c .actCtl) = s.dev.reg (.dmv c .ctl) &&& (Reg.dmv c .actCtl).mask ∧
      t.chan c = some ⟨false, 0, false, none, 0, [], ((s.dev.channelSlice c).map SliceRec.regionsNow).getD []⟩ ∧ t.pool = s.dev.pool) ∧
  (∀ (c : Fin 64) (s : State), s.dev.bitOf (.dmv c .status) 28 = false → s.dev.dmvState c = 1 ∨ s.dev.dmvState c = 2 ∨ s.dev.dmvState c = 3 →
    s.dev.armCheck c = none →
    yields (.dmvArm c) s fun t => t.bitOf (.dmv c .status) 28 = true ∧ t.dmvState c = s.dev.dmvState c ∧ t.chan c = s.dev.chan c ∧
      ∀ r : Reg, r ≠ .dmv c .status → r.show = false → t.reg r = s.dev.reg r) ∧
  (∀ (c : Fin 64) (n : Nat) (s : State), s.dev.bitOf (.dmv c .status) 28 = false →
    (if s.dev.dmvState c = 4 then some 4 else s.dev.armCheck c) = some n → s.dev.bitOf (.dmv c .cfg) 31 = false →
    yields (.dmvArm c) s fun t => t.rd (.dmv c .status) 27 24 = n ∧ t.rd (.dmv c .status) 15 0 = s.dev.rd (.dmv c .ctl) 31 16 ∧
      t.dmvState c = s.dev.dmvState c ∧ t.chan c = s.dev.chan c ∧ t.bitOf (.dmv c .status) 28 = false) ∧
  (∀ (c : Fin 64) (s : State), yields (.dmvDisarm c) s fun t => t.bitOf (.dmv c .status) 28 = false ∧ t.dmvState c = s.dev.dmvState c ∧
    s.dev.onlyRegs t ∧ ∀ r : Reg, r ≠ .dmv c .status → r.show = false → t.reg r = s.dev.reg r) ∧
  (∀ (c : Fin 64) (x : ChannelRun) (s : State), s.dev.dmvState c ≠ 3 → s.dev.chan c = some x →
    yields (.dmvAbort c) s fun t => t.dmvState c = (if s.dev.dmvState c = 1 then 2 else s.dev.dmvState c) ∧
      t.bitOf (.dmv c .status) 28 = false ∧ t.chan c = some { x with aborting := true } ∧ t.pool = s.dev.pool ∧ t.dir = s.dev.dir ∧
      t.sw = s.dev.sw ∧ ∀ r : Reg, r ≠ .dmv c .status → r.show = false → t.reg r = s.dev.reg r) ∧
  (∀ (c : Fin 64) (s : State), s.dev.dmvState c ≠ 3 → s.dev.chan c = none → yields (.dmvAbort c) s fun t =>
    t.dmvState c = s.dev.dmvState c ∧ t.bitOf (.dmv c .status) 28 = false ∧ s.dev.onlyRegs t) ∧
  (∀ (c : Fin 64) (s : State), s.dev.dmvState c = 3 → s.dev.closing c = false → yields (.dmvAbort c) s fun t => t.dmvState c = 0 ∧
    t.bitOf (.dmv c .status) 28 = false ∧ t.bitOf (.dmv c .errInfo) 31 = false ∧ t.chan c = none) ∧
  (∀ (c : Fin 64) (s : State), s.dev.dmvState c = 3 → s.dev.bitOf (.dmv c .status) 28 = false → s.dev.closing c = false →
    yields (.dmvAck c) s fun t => t.dmvState c = 0 ∧ t.bitOf (.dmv c .errInfo) 31 = false ∧ t.chan c = none ∧ t.pool = s.dev.pool) ∧
  (∀ (c : Fin 64) (s : State), s.dev.dmvState c = 3 → s.dev.bitOf (.dmv c .status) 28 = true → s.dev.closing c = false → s.dev.safe = false →
    yields (.dmvAck c) s fun t => t.dmvState c = 1 ∧ t.bitOf (.dmv c .errInfo) 31 = false ∧ t.bitOf (.dmv c .status) 28 = false ∧
      t.reg (.dmv c .actSrc) = s.dev.reg (.dmv c .src) &&& (Reg.dmv c .actSrc).mask ∧ t.pool = s.dev.pool) ∧
  (∀ (c : Fin 64) (s : State), s.dev.dmvState c ≠ 3 → exec (.dmvAck c) s = .next (s.onto s.dev)) ∧
  (∀ (c : Fin 64) (s : State), exec (.dmvChannelRetired c) s = .next (s.onto (s.dev.channelLost c false))) ∧
  (∀ (c : Fin 64) (sl : SliceRec) (x : ChannelRun) (s : State), s.dev.firmwareChannel c = false → s.dev.channelSlice c = some sl →
    s.dev.chan c = some x → x.held = [] → (s.dev.freeChannels.filter fun n => !decide (n = c.val)) = [] → s.dev.bitOf (.dmv c .cfg) 31 = false →
    yields (.dmvChannelRetired c) s fun t => t.dmvState c = 4 ∧ t.rd (.dmv c .status) 27 24 = 5 ∧ t.rd (.dmv c .errInfo) 27 24 = 4 ∧
      t.chan c = none)

/-- A burst moves its lines and advances the offset and RESIDUE. A hold takes every granule of the burst when all are free. A finished
transfer is IDLE with status COMPLETE, or starts the armed shadow; a drained one is ABORTED with its residue; a line that fails records
its address, side and cause, later ones keep the lowest offset, and the halted channel shows its residue. The byte swap of a line is its
own inverse. DIRTY_CTL enables, disables and swaps a slice's bitmap, and a swap that ends shows what the old bitmap missed. A swap waits
while a bit update of the old bitmap is due. (R181, R182, R184, R185, R189, R194, R195.) -/
def Obligations.TransfersMoveLinesAndDirtyPagesAreLogged : Prop :=
  (∀ (c : Fin 64) (x : ChannelRun) (s : State), s.dev.chan c = some x → s.dev.safe = false → s.dev.burstReady c x = true →
    s.dev.noTurn → accesses (.dmvBurstDone c) s (s.dev.dmvBurst c x)) ∧
  (∀ (c : Fin 64) (x : ChannelRun) (d1 : Dev) (s : State), s.dev.atRest → s.dev.chan c = some x → s.dev.safe = false → s.dev.burstReady c x = true →
    s.dev.dmvLines c x ((List.range (s.dev.burstLen c x.offset / 64)).map fun i => x.offset + 64 * i) = (none, d1) →
    d1.made → d1.bitOf (.dmv c .actCtl) 7 = false → x.held = [] →
    yields (.dmvBurstDone c) s fun t =>
      t.chan c = some { x with offset := x.offset + s.dev.burstLen c x.offset, held := [], stopped := x.aborting } ∧
      t.reg (.dmv c .residue) = BitVec.ofNat 64 (d1.actLen c - (x.offset + s.dev.burstLen c x.offset)) &&& (Reg.dmv c .residue).mask) ∧
  (∀ (c : Fin 64) (x : ChannelRun) (ok : Bool) (d1 : Dev) (s : State), s.dev.noTurn → s.dev.chan c = some x →
    s.dev.safe = false → s.dev.bitOf (.dmv c .actCtl) 7 = true →
    x.held = [] → x.failed = none → x.stopped = false → x.offset < s.dev.actLen c →
    let first := ((s.dev.reg (.dmv c .actSrc)).toNat + x.offset) / 1024
    let last := ((s.dev.reg (.dmv c .actSrc)).toNat + x.offset + s.dev.burstLen c x.offset - 1) / 1024
    let gs := (List.range (last + 1 - first)).map fun k => first + k
    gs.foldl (fun (r : Bool × Dev) g => if r.1 then r.2.holdX (dmvAgent c) g false else r) (true, s.dev) = (ok, d1) →
    accesses (.dmvHoldGranted c) s
      (if ok then d1.setChan c { x with held := gs } else (d1.releaseHeld c gs).dmvFails c x x.offset false 2)) ∧
  (∀ (c : Fin 64) (x : ChannelRun) (s : State), s.dev.chan c = some x → x.failed = none → s.dev.actLen c ≤ x.offset → x.aborting = false →
    s.dev.bitOf (.dmv c .status) 28 = false → s.dev.closing c = false → s.dev.bitOf (.dmv c .actCtl) 6 = false →
    yields (.dmvTransferComplete c) s fun t => t.dmvState c = 0 ∧ t.rd (.dmv c .status) 27 24 = 1 ∧
      t.rd (.dmv c .status) 15 0 = s.dev.actTag c ∧ t.reg (.dmv c .residue) = 0 ∧ t.chan c = none ∧ t.pool = s.dev.pool) ∧
  (∀ (c : Fin 64) (x : ChannelRun) (s : State), s.dev.chan c = some x → x.failed = none → s.dev.actLen c ≤ x.offset → x.aborting = false →
    s.dev.bitOf (.dmv c .status) 28 = true → s.dev.closing c = false → s.dev.bitOf (.dmv c .actCtl) 6 = false → s.dev.safe = false →
    yields (.dmvTransferComplete c) s fun t => t.dmvState c = 1 ∧ t.rd (.dmv c .status) 27 24 = 1 ∧
      t.reg (.dmv c .actLen) = s.dev.reg (.dmv c .len) &&& (Reg.dmv c .actLen).mask ∧ t.bitOf (.dmv c .status) 28 = false) ∧
  (∀ (c : Fin 64) (x : ChannelRun) (s : State), s.dev.atRest → x.aborting = true → s.dev.chan c = some x → s.dev.burstReady c x = false → x.failed = none →
    x.stopped = true → x.held = [] → s.dev.bitOf (.dmv c .status) 28 = false → s.dev.closing c = false → s.dev.bitOf (.dmv c .cfg) 31 = false →
    yields (.dmvAbortDrained c) s fun t => t.dmvState c = 0 ∧ t.rd (.dmv c .status) 27 24 = 2 ∧
      t.reg (.dmv c .residue) = BitVec.ofNat 64 (s.dev.actLen c - x.offset) &&& (Reg.dmv c .residue).mask ∧ t.chan c = none) ∧
  (∀ (c : Fin 64) (offset : Nat) (write : Bool) (cause : Fin 4) (x : ChannelRun) (s : State), s.dev.chan c = some x → x.failed = none →
    x.stopped = false → offset % 64 = 0 → x.offset ≤ offset → offset < x.offset + s.dev.burstLen c x.offset →
    yields (.dmvLineFailure c offset write cause) s fun t =>
      t.chan c = some { x with failed := some offset } ∧ t.bitOf (.dmv c .errInfo) 31 = true ∧ t.bitOf (.dmv c .errInfo) 30 = write ∧
      t.rd (.dmv c .errInfo) 27 24 = cause.val ∧ t.rd (.dmv c .errInfo) 15 0 = s.dev.actTag c ∧
      t.reg (.dmv c .errAddr) = BitVec.ofNat 64 ((if write then (s.dev.reg (.dmv c .actDst)).toNat else (s.dev.reg (.dmv c .actSrc)).toNat)
        + offset) &&& (Reg.dmv c .errAddr).mask ∧ t.dmvState c = s.dev.dmvState c) ∧
  (∀ (c : Fin 64) (offset off : Nat) (write : Bool) (cause : Fin 4) (x : ChannelRun) (s : State), s.dev.chan c = some x → x.failed = some off →
    x.stopped = false → offset % 64 = 0 → x.offset ≤ offset → offset < x.offset + s.dev.burstLen c x.offset →
    yields (.dmvLineFailure c offset write cause) s fun t =>
      t.chan c = some { x with failed := some (min off offset), failures := x.failures + 1 } ∧
      ∀ r : Reg, r.show = false → t.reg r = s.dev.reg r) ∧
  (∀ (c : Fin 64) (x : ChannelRun) (off : Nat) (s : State), s.dev.chan c = some x → x.failed = some off → s.dev.closing c = false →
    s.dev.bitOf (.dmv c .cfg) 31 = false → x.held = [] →
    yields (.dmvHaltedDrained c) s fun t => t.dmvState c = 3 ∧ t.rd (.dmv c .status) 27 24 = 5 ∧
      t.rd (.dmv c .status) 15 0 = s.dev.actTag c ∧
      t.reg (.dmv c .residue) = BitVec.ofNat 64 (s.dev.actLen c - s.dev.burstOf c off) &&& (Reg.dmv c .residue).mask ∧ t.chan c = none ∧
      t.pool = s.dev.pool) ∧
  (∀ mode i : Nat, mode < 8 → i < 64 → swapByte mode (swapByte mode i) = i ∧ swapByte mode i < 64) ∧
  (∀ (p : Fin 64) (index : Fin 256) (v : BitVec 32) (sl : SliceRec) (s : State), s.dev.sliceAt p index = some sl → v.getLsbD 31 = true →
    v.getLsbD 30 = false → s.dev.bitOf (.dirtyCtl sl.port sl.index) 31 = false → s.dev.dirtyOk sl (getBits (v.setWidth 64) 26 0) = true →
    yields (.dirtyEnable p index v) s fun t => t.bitOf (.dirtyCtl sl.port sl.index) 31 = true ∧
      t.rd (.dirtyCtl sl.port sl.index) 26 0 = v.toNat % 2 ^ 27 ∧ t.bitOf (.dirtyCtl sl.port sl.index) 29 = v.getLsbD 29 ∧
      s.dev.onlyRegs t ∧ ∀ r : Reg, r ≠ .dirtyCtl sl.port sl.index → r.show = false → t.reg r = s.dev.reg r) ∧
  (∀ (p : Fin 64) (index : Fin 256) (v : BitVec 32) (sl : SliceRec) (s : State), s.dev.sliceAt p index = some sl → v.getLsbD 31 = true →
    s.dev.bitOf (.dirtyCtl sl.port sl.index) 31 = false → s.dev.dirtyOk sl (getBits (v.setWidth 64) 26 0) = false →
    yields (.dirtyEnable p index v) s fun t => t.bitOf (.dirtyCtl sl.port sl.index) 31 = false) ∧
  (∀ (p : Fin 64) (index : Fin 256) (v : BitVec 32) (sl : SliceRec) (s : State), s.dev.sliceAt p index = some sl → v.getLsbD 31 = false →
    v.getLsbD 30 = false →
    yields (.dirtyDisable p index v) s fun t => t.bitOf (.dirtyCtl sl.port sl.index) 31 = false ∧
      (s.dev.bitOf (.dirtyCtl sl.port sl.index) 31 = true →
        t.rd (.dirtyCtl sl.port sl.index) 26 0 = s.dev.rd (.dirtyCtl sl.port sl.index) 26 0) ∧
      s.dev.onlyRegs t ∧ ∀ r : Reg, r ≠ .dirtyCtl sl.port sl.index → r.show = false → t.reg r = s.dev.reg r) ∧
  (∀ (p : Fin 64) (index : Fin 256) (v : BitVec 32) (sl : SliceRec) (s : State), s.dev.sliceAt p index = some sl → v.getLsbD 30 = true →
    s.dev.bitOf (.dirtyCtl sl.port sl.index) 31 = true → s.dev.bitOf (.dirtyStatus sl.port sl.index) 30 = false →
    yields (.dirtySwap p index v) s fun t => t.bitOf (.dirtyStatus sl.port sl.index) 30 = true ∧
      t.rd (.dirtyStatus sl.port sl.index) 31 31 = 1 - s.dev.rd (.dirtyStatus sl.port sl.index) 31 31 ∧
      t.dirtyRun sl.id = ⟨false, false, (s.dev.dirtyRun sl.id).outside, (s.dev.dirtyRun sl.id).lost, (s.dev.dirtyRun sl.id).marks⟩ ∧ t.pool = s.dev.pool) ∧
  (∀ (slice : Fin 4096) (sl : SliceRec) (s : State), s.dev.atRest → s.dev.sliceRec slice = some sl → s.dev.bitOf (.dirtyStatus sl.port sl.index) 30 = true →
    s.dev.bitOf (.dirtyCtl sl.port sl.index) 29 = false →
    yields (.dirtySwapComplete slice) s fun t => t.bitOf (.dirtyStatus sl.port sl.index) 30 = false ∧
      t.bitOf (.dirtyStatus sl.port sl.index) 29 = (s.dev.dirtyRun sl.id).oldOut ∧
      t.bitOf (.dirtyStatus sl.port sl.index) 28 = (s.dev.dirtyRun sl.id).oldLost ∧
      t.rd (.dirtyStatus sl.port sl.index) 15 0 = (s.dev.rd (.dirtyStatus sl.port sl.index) 15 0 + 1) % 2 ^ 16 ∧ s.dev.onlyRegs t ∧
      ∀ r : Reg, r ≠ .dirtyStatus sl.port sl.index → r.show = false → t.reg r = s.dev.reg r) ∧
  (∀ (slice : Fin 4096) (sl : SliceRec) (s : State), s.dev.sliceRec slice = some sl →
    exec (.dirtySwapComplete slice) s = .next (s.onto (s.dev.drainAll.dirtySwapDone sl))) ∧
  (∀ (slice : Fin 4096) (sl : SliceRec) (s : State), s.dev.sliceRec slice = some sl → let d := s.dev.drainAll
    d.bitOf (.dirtyStatus sl.port sl.index) 30 = false ∨
      (∃ m ∈ (d.dirtyRun sl.id).marks, m.buf ≠ d.rd (.dirtyStatus sl.port sl.index) 31 31) →
    exec (.dirtySwapComplete slice) s = .next (s.onto d))

/-- SLICE_CREATE with a quota that passes every check makes a slice under a fresh id and index. SLICE_QUERY answers its state and quota.
SLICE_RESIZE and SLICE_DESTROY start a drain in the background, which ends by applying the target; a drain that times out is forced. A
function-level reset of a host without slices only resets its ring registers; of one with slices it quiesces them. ENGINE_ASSIGN of an
engine no slice shares loads the image; of one that is shared it is refused. An engine moves to a new image between operations. A change
of a slice is answered BUSY while one changes, and ENGINE_ASSIGN without a loaded image NOT_FOUND (the model's choices, log entries 49 and
55). (R172, R175, R176, R296, R313.) -/
def Obligations.SlicesAreMadeSizedAndDestroyed : Prop :=
  (∀ (path : Path) (input : List Byte) (p id index : Nat) (rings : List Nat) (channels : List (Option Nat)) (d1 d2 d3 d4 : Dev) (s : State),
    s.dev.takesStoluo path 0xC020 → (sliceHead path input 216 && quotaForm (input.drop 8)) = true → hostOf path input = some p →
    let q := quotaOf (input.drop 8)
    s.dev.portMode p = 1 → s.dev.portState p ≠ 7 → (∀ e ∈ q.engines, s.dev.engineOk e.1 = true) →
    s.dev.regionsOk p [] q.regions = true → s.dev.regionsBarred q = false →
    (∀ x ∈ s.dev.slicesOf p, x.pasid ≠ field input 4 4) → s.dev.overBudget p 0 q = false → s.dev.queuesTaken 0 q = false →
    s.dev.freshNumber 4096 (0 :: s.dev.allSlices.map (·.id)) = (some id, d1) → d1.freshNumber 256 ((d1.slicesOf p).map (·.index)) = (some index, d2) →
    d2.freshRings q.rings (d2.allSlices.flatMap fun s => s.quota.rings) = (some rings, d3) → d3.freshChannels q.channels [] = (some channels, d4) →
    let sl : SliceRec := ⟨id, p, index, field input 4 4, ⟨rings, channels, q.engines, q.queueBase, q.queues, q.regions, q.msixBase, q.msixCount⟩, none⟩
    exec (.sliceCreate path input) s = .next (s.onto
      ((d4.putSlice sl).complete path 0xC020 0 0 (toBytes 2 id ++ toBytes 1 index ++ toBytes 1 0)))) ∧
  (∀ (path : Path) (input : List Byte) (p id index : Nat) (d1 d2 : Dev) (s : State),
    s.dev.takesStoluo path 0xC020 → (sliceHead path input 216 && quotaForm (input.drop 8)) = true → hostOf path input = some p →
    let q := quotaOf (input.drop 8)
    q.rings = 0 → q.channels = 0 → s.dev.portMode p = 1 → s.dev.portState p ≠ 7 → (∀ e ∈ q.engines, s.dev.engineOk e.1 = true) → s.dev.regionsOk p [] q.regions = true →
    s.dev.regionsBarred q = false →
    (∀ x ∈ s.dev.slicesOf p, x.pasid ≠ field input 4 4) → s.dev.overBudget p 0 q = false → s.dev.queuesTaken 0 q = false →
    s.dev.freshNumber 4096 (0 :: s.dev.allSlices.map (·.id)) = (some id, d1) → d1.freshNumber 256 ((d1.slicesOf p).map (·.index)) = (some index, d2) →
    yields (.sliceCreate path input) s fun t =>
      t.sliceRec id = some ⟨id, p, index, field input 4 4, ⟨[], [], q.engines, q.queueBase, q.queues, q.regions, q.msixBase, q.msixCount⟩, none⟩ ∧
      id ≠ 0 ∧ id < 4096 ∧ id ∉ s.dev.allSlices.map (·.id) ∧ index < 256 ∧ index ∉ (s.dev.slicesOf p).map (·.index) ∧
      t.replied path 0xC020 0 0 (toBytes 2 id ++ toBytes 1 index ++ toBytes 1 0) ∧ t.rd (.sliceInfo p index) 63 62 = 1 ∧ t.pool = s.dev.pool) ∧
  (∀ (path : Path) (input : List Byte) (sl : SliceRec) (s : State), s.dev.takesStoluo path 0xC023 → sliceHead path input 8 = true →
    s.dev.namedSlice path input = some sl → sl.resize = none →
    yields (.sliceQuery path input) s fun t => t.replied path 0xC023 0 0 (toBytes 2 sl.id ++ toBytes 1 sl.index ++ toBytes 1 sl.state ++
      sl.quota.bytes ++ ((List.range 64).flatMap fun r => toBytes 2 (sl.quota.rings.getD r 0xFFFF)) ++
      ((List.range 4).flatMap fun c => toBytes 1 (((sl.quota.channels.getD c none)).getD 0xFF))) ∧ s.dev.onlyRead t) ∧
  (∀ (path : Path) (input : List Byte) (sl : SliceRec) (r : Resize) (s : State), s.dev.takesStoluo path 0xC023 →
    sliceHead path input 8 = true → s.dev.namedSlice path input = some sl → sl.resize = some r →
    yields (.sliceQuery path input) s fun t => t.replied path 0xC023 rcBusy 0 [] ∧ s.dev.onlyRead t) ∧
  (∀ (path : Path) (input : List Byte) (sl : SliceRec) (s : State), s.dev.takesStoluo path 0xC021 →
    (sliceHead path input 216 && quotaForm (input.drop 8)) = true → s.dev.namedSlice path input = some sl → s.dev.changing = true →
    yields (.sliceResize path input) s fun t => t.replied path 0xC021 rcBusy 0 [] ∧ s.dev.onlyRead t) ∧
  (∀ (path : Path) (input : List Byte) (sl : SliceRec) (s : State), s.dev.takesStoluo path 0xC022 → sliceHead path input 8 = true →
    s.dev.namedSlice path input = some sl → s.dev.changing = true →
    yields (.sliceDestroy path input) s fun t => t.replied path 0xC022 rcBusy 0 [] ∧ s.dev.onlyRead t) ∧
  (∀ (path : Path) (input : List Byte) (s : State), s.dev.takesStoluo path 0xC023 → sliceHead path input 8 = true →
    s.dev.namedSlice path input = none → yields (.sliceQuery path input) s fun t => t.replied path 0xC023 rcNotFound 0 [] ∧ s.dev.onlyRead t) ∧
  (∀ (path : Path) (input : List Byte) (sl : SliceRec) (s : State), s.dev.takesStoluo path 0xC021 →
    (sliceHead path input 216 && quotaForm (input.drop 8)) = true → s.dev.namedSlice path input = some sl →
    s.dev.changing = false → tget s.dev.mgmt.bg path = none →
    let q := quotaOf (input.drop 8)
    (∀ e ∈ q.engines, s.dev.engineOk e.1 = true) → s.dev.regionsOk sl.port sl.quota.regions q.regions = true →
    queueRangeOk sl.quota q.queueBase q.queues = true → s.dev.regionsBarred q = false → s.dev.lastEngineLost sl q.engines = false →
    s.dev.pinnedLost sl q.regions = false → s.dev.vectorLost sl q.msixBase q.msixCount = false → s.dev.overBudget sl.port sl.id q = false →
    s.dev.queuesTaken sl.id q = false → q.rings ≤ sl.quota.rings.length → q.channels ≤ sl.quota.channels.length →
    exec (.sliceResize path input) s = .next (s.onto ((s.dev.bgStart path 0xC021).startResize sl
      ⟨⟨sl.quota.rings.take q.rings, sl.quota.channels.take q.channels, q.engines, q.queueBase, q.queues, q.regions, q.msixBase, q.msixCount⟩,
        false, some path, false⟩))) ∧
  (∀ (path : Path) (input : List Byte) (sl : SliceRec) (s : State), s.dev.takesStoluo path 0xC022 → sliceHead path input 8 = true →
    s.dev.namedSlice path input = some sl → s.dev.changing = false → tget s.dev.mgmt.bg path = none →
    exec (.sliceDestroy path input) s = .next (s.onto
      ((s.dev.bgStart path 0xC022).startResize sl ⟨.zero, true, some path, false⟩))) ∧
  (∀ (path : Path) (input : List Byte) (sl : SliceRec) (s : State), s.dev.takesStoluo path 0xC022 → sliceHead path input 8 = true →
    s.dev.namedSlice path input = some sl → s.dev.changing = false → tget s.dev.mgmt.bg path = none → sl.quota.rings = [] → sl.quota.channels = [] →
    yields (.sliceDestroy path input) s fun t => ∃ x, t.sliceRec sl.id = some x ∧ x.state = 3 ∧ .cmdDone path 0xC022 1 0 [] ∈ t.out ∧
      t.pool = s.dev.pool) ∧
  (∀ (slice : Fin 4096) (sl : SliceRec) (r : Resize) (s : State), s.dev.sliceRec slice = some sl → sl.resize = some r →
    s.dev.fwRuns = true → s.dev.drained sl r.target = true →
    exec (.quotaDrainDone slice) s = .next (s.onto ((s.dev.applyResize sl r (if r.forced then rcTimeout else rcSuccess)).assistFor sl))) ∧
  (∀ (slice : Fin 4096) (sl : SliceRec) (r : Resize) (path : Path) (b : BgOp) (s : State), s.dev.sliceRec slice = some sl → sl.resize = some r →
    sl.id = slice.val → s.dev.fwRuns = true → (∀ t, t < 16 → (s.dev.assistEngine t).isSome = true) → s.dev.drained sl r.target = true → r.path = some path → r.destroy = true → r.forced = false →
    tget s.dev.mgmt.bg path = some b →
    yields (.quotaDrainDone slice) s fun t => t.sliceRec sl.id = none ∧ tget t.mgmt.bg path = some { b with result := some (rcSuccess, 0) } ∧
      t.pool = s.dev.pool ∧ t.dir = s.dev.dir) ∧
  (∀ (slice : Fin 4096) (sl : SliceRec) (r : Resize) (s : State), s.dev.atRest → s.dev.sliceRec slice = some sl → sl.id = slice.val →
    sl.resize = some r → r.forced = false → removedChannels sl.quota r.target = [] → s.dev.qservice sl = none →
    yields (.quotaDrainTimeout slice) s fun t => t.sliceRec slice = some { sl with resize := some { r with forced := true } } ∧
      t.pool = s.dev.pool) ∧
  (∀ (p : Fin 64) (s : State), s.dev.slicesOf p = [] →
    yields (.flrServiceFunction p) s fun t => p.val ∉ t.svc.flr ∧ (∀ i r w, t.reg (.ring p i r w) = (Reg.ring p i r w).layout.reset) ∧
      t.pool = s.dev.pool ∧ t.dir = s.dev.dir) ∧
  (∀ (p : Fin 64) (s : State), exec (.flrServiceFunction p) s = .next (s.onto (((s.dev.slicesOf p).foldl (fun (d : Dev) x => d.quiesceSlice x)
    { s.dev with svc := { s.dev.svc with flr := s.dev.svc.flr.filter (fun q => !decide (q = p.val)) ++ [p.val] } }).flrEnds p))) ∧
  (∀ (path : Path) (input : List Byte) (s : State), s.dev.takesStoluo path 0xC024 → input.length = 4 → field input 0 2 < 256 →
    field input 2 1 = 1 ∨ field input 2 1 = 2 → field input 3 1 = 0 → s.dev.engineShared (field input 0 2) = false →
    s.dev.assistEngine (field input 0 2 / 16) ≠ some (field input 0 2) → (tget s.dev.mgmt.inUse (field input 2 1)).isSome = true →
    yields (.engineAssign path input) s fun t => t.replied path 0xC024 0 0 [] ∧
      t.engine (field input 0 2) = { s.dev.engine (field input 0 2) with
        image := serviceImage (field input 2 1), version := s.dev.imageVersion (field input 2 1), move := none } ∧
      (∀ e, e ≠ field input 0 2 → t.engine e = s.dev.engine e) ∧ t.pool = s.dev.pool) ∧
  (∀ (path : Path) (input : List Byte) (s : State), s.dev.takesStoluo path 0xC024 → input.length = 4 → field input 0 2 < 256 →
    field input 2 1 = 1 ∨ field input 2 1 = 2 → field input 3 1 = 0 → s.dev.engineShared (field input 0 2) = false →
    s.dev.assistEngine (field input 0 2 / 16) ≠ some (field input 0 2) → tget s.dev.mgmt.inUse (field input 2 1) = none →
    yields (.engineAssign path input) s fun t => t.replied path 0xC024 rcNotFound 0 [] ∧ s.dev.onlyRead t) ∧
  (∀ (path : Path) (input : List Byte) (s : State), s.dev.takesStoluo path 0xC024 → input.length = 4 → field input 0 2 < 256 →
    field input 2 1 = 1 ∨ field input 2 1 = 2 → field input 3 1 = 0 → s.dev.engineShared (field input 0 2) = true →
    yields (.engineAssign path input) s fun t => t.replied path 0xC024 rcConflict 0 [] ∧ s.dev.onlyRead t) ∧
  (∀ (e : Fin 256) (v : Nat) (s : State), (s.dev.engine e).move = some v → s.dev.threadsOf e = 0 → s.dev.mgmt.imageMove = [] →
    yields (.serviceImageEngineMove e) s fun t => t.engine e = { s.dev.engine e with version := v, move := none } ∧
      (∀ k, k ≠ e.val → t.engine k = s.dev.engine k) ∧ t.pool = s.dev.pool)

/-- A port whose start condition holds powers or trains; a power fault or timeouts fail it with their reasons; training that ends at DL_Up
shows rate, width and mode; the set-up of its kind makes it ACTIVE, or fails it. Configuration requests are answered by function and
state, a locked one as unsupported. Power-off of a pass-through port drains it. PME_Turn_Off, ASPM L1 and a width or rate change are shown
in PRT_STATUS, DEGRADED being set where the change was the link's own. DL_Up at a rate, width or flit mode that the port does not take has
no effect or fails the port. L0p keeps the trained width shown (log entry 72). (R125, R200, R201, R206, R207, R218, R222, R305, R356.) -/
def Obligations.PortsStartTrainAndServe : Prop :=
  (∀ (p : Fin 64) (s : State), s.dev.portState p = 1 → s.dev.mayStart p = true → s.dev.portMode p = 1 →
    yields (.portStartCondition p) s fun t => t.portState p = 3 ∧ s.dev.onlyRegs t ∧ ∀ q, q ≠ p.val → t.portState q = s.dev.portState q) ∧
  (∀ (p : Fin 64) (s : State), s.dev.portState p = 1 → s.dev.mayStart p = true → s.dev.portMode p ≠ 1 → s.dev.bitOf (.hpStatus p) 28 = true →
    yields (.portStartCondition p) s fun t => t.portState p = 2 ∧ s.dev.onlyRegs t ∧ ∀ q, q ≠ p.val → t.portState q = s.dev.portState q) ∧
  (∀ (p : Fin 64) (s : State), s.dev.portState p = 1 → s.dev.mayStart p = true → s.dev.portMode p ≠ 1 → s.dev.bitOf (.hpStatus p) 28 = false →
    yields (.portStartCondition p) s fun t => t.portState p = 10 ∧ t.rd (.prtStatus p) 27 24 = 2 ∧ t.bitOf (.hpStatus p) 25 = true) ∧
  (∀ (p : Fin 64) (s : State), s.dev.portState p = 2 → s.dev.bitOf (.hpStatus p) 28 = true →
    yields (.portPowerElapsed p) s fun t => t.portState p = 3 ∧ s.dev.onlyRegs t ∧ ∀ q, q ≠ p.val → t.portState q = s.dev.portState q) ∧
  (∀ (p : Fin 64) (rate lanes : Nat) (flit256 bi : Bool) (s : State), s.dev.portState p = 3 → rate < 8 → lanes < 32 →
    rate ≤ s.dev.rd (.prtCfg p) 23 20 → lanes ≤ 4 * widthQuads (s.dev.rd (.prtCfg p) 27 26) → flit256 = true ∨ rate ≤ 5 →
    flit256 = true ∨ s.dev.portMode p = 3 ∨ (3 ≤ rate ∧ rate ≤ 5) →
    yields (.portDlUp p rate lanes flit256 bi true) s fun t => t.portState p = 4 ∧ t.rd (.prtStatus p) 23 21 = rate ∧
      t.rd (.prtStatus p) 20 16 = lanes ∧ t.bitOf (.prtStatus p) 15 = flit256 ∧
      t.bitOf (.prtStatus p) 14 = (flit256 && bi && decide (s.dev.portMode p = 1)) ∧ t.pool = s.dev.pool) ∧
  (∀ (p : Fin 64) (rate lanes : Nat) (flit256 bi ok : Bool) (s : State), s.dev.portState p = 3 →
    rate ≤ s.dev.rd (.prtCfg p) 23 20 → lanes ≤ 4 * widthQuads (s.dev.rd (.prtCfg p) 27 26) → flit256 = true ∨ rate ≤ 5 →
    ok = false ∨ (flit256 = false ∧ s.dev.portMode p ≠ 3 ∧ rate < 3) →
    yields (.portDlUp p rate lanes flit256 bi ok) s fun t => t.portState p = 10 ∧ t.rd (.prtStatus p) 27 24 = 1) ∧
  (∀ (p : Fin 64) (rate lanes : Nat) (flit256 bi ok : Bool) (s : State),
    s.dev.portState p ≠ 3 ∨ s.dev.rd (.prtCfg p) 23 20 < rate ∨ 4 * widthQuads (s.dev.rd (.prtCfg p) 27 26) < lanes ∨
      (flit256 = false ∧ 5 < rate) →
    exec (.portDlUp p rate lanes flit256 bi ok) s = .next (s.onto s.dev)) ∧
  (∀ (p : Fin 64) (s : State), s.dev.portState p = 3 →
    yields (.portTrainTimeout p) s fun t => t.portState p = 10 ∧ t.rd (.prtStatus p) 27 24 = 3) ∧
  (∀ (p : Fin 64) (s : State), s.dev.portMode p = 1 → s.dev.portState p = 4 →
    yields (.configRetryTimeout p) s fun t => t.portState p = 10 ∧ t.rd (.prtStatus p) 27 24 = 4) ∧
  (∀ (p : Fin 64) (s : State), s.dev.portState p = 4 → s.dev.portMode p = 1 → s.dev.mgmt.fwUp = true →
    yields (.portSetupComplete p) s fun t => t.portState p = 5 ∧ s.dev.onlyRegs t) ∧
  (∀ (p : Fin 64) (s : State), s.dev.portState p = 4 → s.dev.portMode p = 2 → (s.dev.prec p).readyOk = true →
    exec (.portSetupComplete p) s = .next (s.onto ((s.dev.enterPort p 5 0).memberJoins p))) ∧
  (∀ (p : Fin 64) (s : State), s.dev.portState p = 4 → s.dev.portMode p = 3 →
    yields (.portSetupComplete p) s fun t => t.portState p = 5 ∧ (t.prec p).vppb.linkUp = true ∧ (t.prec p).vppb.dllChange = true ∧
      t.pool = s.dev.pool) ∧
  (∀ (p : Fin 64) (enumerates cdatOk : Bool) (capacity need : Nat) (commitOk : Bool) (x : Nat × Nat × Nat) (s : State), s.dev.portMode p = 2 →
    s.dev.portState p = 4 → s.dev.setOfPort p = some x → tgetD s.dev.pool.setCap x.1 0 = need →
    yields (.poolBringUp p enumerates cdatOk capacity commitOk) s fun t =>
      (enumerates = true → cdatOk = true → need ≤ capacity → commitOk = true → t.portState p = 4 ∧ (t.prec p).readyOk = true ∧ t.pool = s.dev.pool) ∧
      (enumerates = false ∨ cdatOk = false → t.portState p = 10 ∧ t.rd (.prtStatus p) 27 24 = 4) ∧
      (enumerates = true → cdatOk = true → capacity < need → t.portState p = 10 ∧ t.rd (.prtStatus p) 27 24 = 5) ∧
      (enumerates = true → cdatOk = true → need ≤ capacity → commitOk = false → t.portState p = 10 ∧ t.rd (.prtStatus p) 27 24 = 4)) ∧
  (∀ (p : Fin 64) (fn : Fin 256) (tag : Nat) (s : State), s.dev.portMode p = 1 → s.dev.portState p = 4 →
    yields (.configRequest p fn tag) s fun t => .ioCpl p tag 2 0 ∈ t.out ∧ t.pool = s.dev.pool ∧ t.port = s.dev.port) ∧
  (∀ (p : Fin 64) (fn : Fin 256) (tag : Nat) (s : State), s.dev.portMode p = 1 → s.dev.portState p = 5 →
    fn.val ≤ 1 ∨ (fn.val = 2 ∧ s.dev.bitOf (.prtCfg p) 25 = true) ∨ (64 ≤ fn.val ∧ fn.val < 128 ∧ s.dev.portMode (fn.val - 64) = 3 ∧
      s.dev.rd (.prtCfg (fn.val - 64)) 17 12 = p.val) →
    yields (.configRequest p fn tag) s fun t => (∃ v, .ioCpl p tag 0 v ∈ t.out) ∧ t.pool = s.dev.pool ∧ t.port = s.dev.port) ∧
  (∀ (p : Fin 64) (fn : Fin 256) (tag : Nat) (s : State), s.dev.portMode p = 1 → s.dev.portState p = 5 →
    ¬(fn.val ≤ 1 ∨ (fn.val = 2 ∧ s.dev.bitOf (.prtCfg p) 25 = true) ∨ (64 ≤ fn.val ∧ fn.val < 128 ∧ s.dev.portMode (fn.val - 64) = 3 ∧
      s.dev.rd (.prtCfg (fn.val - 64)) 17 12 = p.val)) →
    yields (.configRequest p fn tag) s fun t => .ioCpl p tag 1 0 ∈ t.out ∧ t.pool = s.dev.pool ∧ t.port = s.dev.port) ∧
  (∀ (p : Fin 64) (fn : Fin 256) (tag : Nat) (s : State), s.dev.portMode p = 1 → s.dev.portState p = 4 ∨ s.dev.portState p = 5 →
    yields (.lockedRequest p fn tag) s fun t => .ioCpl p tag 1 0 ∈ t.out ∧ s.dev.onlyRegs t) ∧
  (∀ (host p : Fin 64) (s : State), s.dev.portMode p = 3 → s.dev.rd (.prtCfg p) 17 12 = host.val → s.dev.portState p = 5 →
    yields (.passPowerControllerOff host p) s fun t => t.portState p = 6 ∧ (t.prec p).vppb.powerOff = true ∧ t.pool = s.dev.pool) ∧
  (∀ (host p : Fin 64) (s : State), s.dev.portMode p = 3 → s.dev.rd (.prtCfg p) 17 12 = host.val →
    yields (.passPowerControllerOn host p) s fun t => (t.prec p).vppb.powerOff = false ∧ t.portState p = s.dev.portState p ∧
      t.pool = s.dev.pool) ∧
  (∀ (p : Fin 64) (s : State), s.dev.portState p = 4 ∨ s.dev.portState p = 5 →
    yields (.pmeTurnOff p) s fun t => t.rd (.prtStatus p) 10 8 = 2 ∧ t.portState p = s.dev.portState p ∧ s.dev.onlyRegs t ∧
      ∀ r : Reg, r ≠ .prtStatus p → r.show = false → t.reg r = s.dev.reg r) ∧
  (∀ (p : Fin 64) (s : State), s.dev.portState p = 4 ∨ s.dev.portState p = 5 ∨ s.dev.portState p = 6 → s.dev.rd (.prtStatus p) 10 8 = 0 →
    yields (.aspmL1Entry p) s fun t => t.rd (.prtStatus p) 10 8 = 1 ∧ t.portState p = s.dev.portState p ∧ t.pool = s.dev.pool ∧
      t.sw = s.dev.sw) ∧
  (∀ (p : Fin 64) (s : State), s.dev.rd (.prtStatus p) 10 8 = 1 →
    yields (.aspmL1Exit p) s fun t => t.rd (.prtStatus p) 10 8 = 0 ∧ t.portState p = s.dev.portState p ∧ t.pool = s.dev.pool) ∧
  (∀ (p : Fin 64) (rate lanes : Nat) (s : State), s.dev.portState p = 4 ∨ s.dev.portState p = 5 ∨ s.dev.portState p = 6 →
    lanes ≤ 4 * widthQuads (s.dev.rd (.prtCfg p) 27 26) → rate = s.dev.rd (.prtStatus p) 23 21 → rate ≤ s.dev.rd (.prtCfg p) 23 20 →
    s.dev.bitOf (.prtStatus p) 15 = true → lanes ≤ s.dev.rd (.prtStatus p) 20 16 →
    yields (.portWidthOrRateChange p rate lanes true) s fun t => (t.prec p).l0p = lanes ∧
      t.rd (.prtStatus p) 20 16 = s.dev.rd (.prtStatus p) 20 16 ∧ t.rd (.prtStatus p) 23 21 = rate ∧
      t.bitOf (.prtStatus p) 11 = decide (lanes < s.dev.rd (.prtStatus p) 20 16) ∧ t.portState p = s.dev.portState p) ∧
  (∀ (p : Fin 64) (rate lanes : Nat) (s : State), s.dev.portState p = 4 ∨ s.dev.portState p = 5 ∨ s.dev.portState p = 6 →
    lanes ≤ 4 * widthQuads (s.dev.rd (.prtCfg p) 27 26) → rate ≤ s.dev.rd (.prtCfg p) 23 20 → rate < 8 → lanes < 32 →
    s.dev.bitOf (.prtStatus p) 15 = true ∨ (rate ≤ 5 ∧ (s.dev.portMode p = 3 ∨ 3 ≤ rate)) →
    yields (.portWidthOrRateChange p rate lanes false) s fun t => t.rd (.prtStatus p) 20 16 = lanes ∧ t.rd (.prtStatus p) 23 21 = rate ∧
      t.bitOf (.prtStatus p) 11 = false ∧ t.portState p = s.dev.portState p)

/-- A removal of an active pass-through port tears it down and settles; of a failed port it only settles. A torn-down port goes on to
settle, start again, quarantine or fail as its cause gives. Settling ends at its timer. Chatter quarantines, a power fault fails the port.
QCLR, FCLR and RETRY act only in their states. A drained port tears down. PORT_REMOVE drains a pool port or is refused with its reason;
PORT_RELEASE lets a held port start, and is refused where none is held. A removal of a port that is not in service, chatter and a power
fault that are not accepted have no effect; a teardown that is not over goes on. (R212, R213, R214, R215, R216, R220, R297.) -/
def Obligations.PortsAreTornDownAndSettle : Prop :=
  (∀ (p : Fin 64) (s : State), s.dev.portMode p = 3 → s.dev.portState p = 5 → (s.dev.prec p).removal = none →
    yields (.removalRecognised p) s fun t => t.portState p = 7 ∧ t.bitOf (.hpStatus p) 23 = true ∧ (t.prec p).after = .settle ∧
      t.rd (.prtStatus p) 23 8 = 0 ∧ (t.prec p).vppb.linkUp = false) ∧
  (∀ (p : Fin 64) (s : State), s.dev.portState p < 2 ∨ (8 ≤ s.dev.portState p ∧ (s.dev.portState p = 10 →
    s.dev.bitOf (.hpStatus p) 31 = false)) → exec (.removalRecognised p) s = .next (s.onto s.dev)) ∧
  (∀ (p : Fin 64) (s : State), s.dev.portState p = 10 → s.dev.bitOf (.hpStatus p) 31 = true →
    yields (.removalRecognised p) s fun t => t.portState p = 8 ∧ t.bitOf (.hpStatus p) 23 = true ∧ t.pool = s.dev.pool ∧ t.sw = s.dev.sw) ∧
  (∀ (p : Fin 64) (s : State), s.dev.portState p = 7 → s.dev.teardownDone p = true → (s.dev.prec p).removal = none →
    (s.dev.prec p).resetBy = none → (s.dev.prec p).after = .settle ∨ (s.dev.prec p).after = .idle →
    yields (.teardownComplete p) s fun t => t.portState p = (if s.dev.settling p then 8 else 1) ∧ t.pool = s.dev.pool) ∧
  (∀ (p : Fin 64) (s : State), s.dev.portState p = 7 → s.dev.teardownDone p = true → (s.dev.prec p).removal = none →
    (s.dev.prec p).resetBy = none → (s.dev.prec p).after = .quarantine →
    yields (.teardownComplete p) s fun t => t.portState p = 9 ∧ t.bitOf (.hpStatus p) 26 = true ∧ t.pool = s.dev.pool) ∧
  (∀ (p : Fin 64) (n : Nat) (s : State), s.dev.portState p = 7 → s.dev.teardownDone p = true → (s.dev.prec p).removal = none →
    (s.dev.prec p).resetBy = none → (s.dev.prec p).after = .failed n →
    yields (.teardownComplete p) s fun t => t.portState p = 10 ∧ t.rd (.prtStatus p) 27 24 = n % 16) ∧
  (∀ (p : Fin 64) (s : State), s.dev.portState p = 7 → s.dev.teardownDone p = false →
    exec (.teardownComplete p) s = .next (s.onto (if s.dev.portMode p = 2 then s.dev.sweepLost p else s.dev))) ∧
  (∀ (p : Fin 64) (s : State), s.dev.bitOf (.hpStatus p) 23 = true →
    yields (.settleExpiry p) s fun t => t.bitOf (.hpStatus p) 23 = false ∧
      t.portState p = (if s.dev.portState p = 8 then 1 else s.dev.portState p) ∧ s.dev.onlyRegs t) ∧
  (∀ (p : Fin 64) (s : State), s.dev.chatters p = true → s.dev.portMode p = 3 → s.dev.portState p = 5 → (s.dev.prec p).removal = none →
    yields (.chatterDetected p) s fun t => t.portState p = 7 ∧ t.bitOf (.hpStatus p) 23 = true ∧ (t.prec p).after = .quarantine) ∧
  (∀ (p : Fin 64) (s : State), s.dev.portState p = 0 ∨ s.dev.portState p = 9 ∨ s.dev.bitOf .sbsCtl 31 = false ∨
    s.dev.bitOf .sbsStatus 31 = true ∨ (s.dev.prec p).edges.length ≤ 16 → exec (.chatterDetected p) s = .next (s.onto s.dev)) ∧
  (∀ (p : Fin 64) (s : State), s.dev.powerFaulty p = false → exec (.pwrfltAccepted p) s = .next (s.onto s.dev)) ∧
  (∀ (p : Fin 64) (s : State), s.dev.powerFaulty p = true → s.dev.portMode p = 3 → s.dev.portState p = 5 → (s.dev.prec p).removal = none →
    yields (.pwrfltAccepted p) s fun t => t.portState p = 7 ∧ t.bitOf (.hpStatus p) 25 = true ∧ (t.prec p).after = .failed 2) ∧
  (∀ (p : Fin 64) (s : State), s.dev.powerFaulty p = true → s.dev.portState p = 1 → s.dev.mayStart p = true →
    yields (.pwrfltAccepted p) s fun t => t.portState p = 10 ∧ t.rd (.prtStatus p) 27 24 = 2 ∧ t.bitOf (.hpStatus p) 25 = true) ∧
  (∀ (p : Fin 64) (s : State), s.dev.portState p = 9 →
    yields (.hpQclr p) s fun t => t.portState p = 8 ∧ t.bitOf (.hpStatus p) 23 = true ∧ t.bitOf (.hpStatus p) 26 = false ∧
      t.pool = s.dev.pool) ∧
  (∀ (p : Fin 64) (s : State), yields (.hpFclr p) s fun t => t.bitOf (.hpStatus p) 24 = false ∧ (t.prec p).fclr = true ∧
    t.bitOf (.hpStatus p) 25 = (s.dev.bitOf (.hpStatus p) 25 && !s.dev.bitOf (.hpStatus p) 28) ∧ t.portState p = s.dev.portState p ∧
    ∀ r : Reg, r ≠ .hpStatus p → r.show = false → t.reg r = s.dev.reg r) ∧
  (∀ (p : Fin 64) (s : State), s.dev.portState p = 10 → s.dev.bitOf (.hpStatus p) 25 = false →
    yields (.hpRetry p) s fun t => t.portState p = 1 ∧ t.rd (.prtStatus p) 27 24 = 0 ∧ s.dev.onlyRegs t) ∧
  (∀ (p : Fin 64) (s : State), s.dev.bitOf (.hpStatus p) 25 = true → exec (.hpRetry p) s = .next (s.onto s.dev)) ∧
  (∀ (p : Fin 64) (s : State), s.dev.portState p = 6 → s.dev.portMode p = 3 → s.dev.evacuated p = true →
    (∀ o ∈ s.dev.dir.expOps, o.port ≠ p.val) → s.dev.queuedFor (.port p) = false →
    yields (.drainComplete p) s fun t => t.portState p = 7 ∧ (t.prec p).after = .idle ∧ (t.prec p).held = false) ∧
  (∀ (path : Path) (input : List Byte) (s : State), s.dev.takesStoluo path 0xC030 → input.length = 4 → field input 0 1 < 64 →
    field input 1 3 = 0 → let p := field input 0 1
    (s.dev.prec p).removal = none → (s.dev.prec p).resetBy = none → s.dev.portMode p = 2 → s.dev.portState p = 5 →
    s.dev.removalPlan p = .atOnce →
    yields (.portRemove path input) s fun t => t.portState p = 6 ∧ t.replied path 0xC030 0 0 [] ∧ t.pool = s.dev.pool) ∧
  (∀ (path : Path) (input : List Byte) (rc vendor : Nat) (s : State), s.dev.takesStoluo path 0xC030 → input.length = 4 →
    field input 0 1 < 64 → field input 1 3 = 0 → let p := field input 0 1
    (s.dev.prec p).removal = none → (s.dev.prec p).resetBy = none → s.dev.portMode p = 2 → s.dev.portState p = 5 →
    s.dev.removalPlan p = .refused rc vendor →
    yields (.portRemove path input) s fun t => t.portState p = 5 ∧ t.replied path 0xC030 rc vendor [] ∧ t.pool = s.dev.pool) ∧
  (∀ (path : Path) (input : List Byte) (s : State), s.dev.takesStoluo path 0xC031 → input.length = 4 → field input 0 1 < 64 →
    field input 1 3 = 0 → let p := field input 0 1
    (s.dev.prec p).held = true → s.dev.portState p = 1 →
    yields (.portRelease path input) s fun t => (t.prec p).held = false ∧ t.portState p = 1 ∧ t.replied path 0xC031 0 0 [] ∧
      t.pool = s.dev.pool) ∧
  (∀ (path : Path) (input : List Byte) (s : State), s.dev.takesStoluo path 0xC031 → input.length = 4 → field input 0 1 < 64 →
    field input 1 3 = 0 → (s.dev.prec (field input 0 1)).held = false →
    yields (.portRelease path input) s fun t => t.replied path 0xC031 rcConflict 0 [] ∧ s.dev.onlyRead t)

/-- A scan with the chain off has no effect; a frozen chain still sends its frame and leaves HP_STATUS; a frame with more than 8
presence changes freezes it. A line follows a new level after 8 equal scans. SBS resume clears the freeze and the filters. A CXL.io
timeout completes the request with an error. A CXL.mem timeout fails its access and counts, and the eighth in a row removes the port. A
late answer is counted; an event record is passed to firmware. The class of the timeout's event is open (log entry 12). (R208, R211,
R218, R219.) -/
def Obligations.TheSidebandChainIsScannedAndFiltered : Prop :=
  (∀ (frame : BitVec 256) (s : State), s.dev.bitOf .sbsCtl 31 = false → exec (.sbsScan frame) s = .next (s.onto s.dev)) ∧
  (∀ (frame : BitVec 256) (s : State), s.dev.bitOf .sbsCtl 31 = true → s.dev.bitOf .sbsStatus 31 = true →
    yields (.sbsScan frame) s fun t => t.port.scans = s.dev.port.scans ∧ .sbs s.dev.outFrame ∈ t.out ∧
      ∀ p, t.reg (.hpStatus p) = s.dev.reg (.hpStatus p)) ∧
  (∀ (frame : BitVec 256) (s : State), s.dev.bitOf .sbsCtl 31 = true → s.dev.bitOf .sbsStatus 31 = false →
    8 < s.dev.presenceChanges frame →
    yields (.sbsScan frame) s fun t => t.bitOf .sbsStatus 31 = true ∧ t.port.scans = s.dev.port.scans + 1) ∧
  (∀ (d : Dev) (p line : Nat) (level : Bool), level ≠ d.bitOf (.hpStatus p) (lineBit line) → ((d.prec p).runOf line) + 1 < 8 →
    line = 0 ∨ line = 1 ∨ line = 3 → d.filterLine p line level = d.modPort p fun x => x.setRun line ((d.prec p).runOf line + 1)) ∧
  (∀ (d : Dev) (p : Nat) (line : Nat) (level : Bool), p < 64 → level ≠ d.bitOf (.hpStatus p) (lineBit line) → ((d.prec p).runOf line) = 7 →
    line = 0 ∨ line = 1 ∨ line = 3 → (d.filterLine p line level).bitOf (.hpStatus p) (lineBit line) = level ∧
      ((d.filterLine p line level).prec p).runOf line = 0) ∧
  (∀ s : State, yields .sbsResume s fun t => t.bitOf .sbsStatus 31 = false ∧ (∀ p < 64, (t.prec p).run = (0, 0, 0)) ∧ t.port.scans = 0 ∧
    (∀ r : Reg, r ≠ .sbsStatus → r.show = false → t.reg r = s.dev.reg r) ∧ t.pool = s.dev.pool) ∧
  (∀ (p : Fin 64) (tag : Nat) (s : State), s.dev.portMode p = 2 →
    yields (.cxlIoCompletionTimeout p tag) s fun t => .ioCpl p tag 4 0 ∈ t.out ∧ t.pool = s.dev.pool ∧ t.portState p = s.dev.portState p) ∧
  (∀ (op : Nat) (o : ExpOp) (s : State), s.dev.sentOp op = some o → o.what = none → (s.dev.prec o.port).timeouts < 7 →
    exec (.cxlMemCompletionTimeout op) s = .next (s.onto
      (((((s.dev.count (o.port / 4) (0x6000 + o.port % 4) 1).report (portTxnSource o.port) (openClass 219) o.addr).modPort o.port fun r =>
        { r with timeouts := (s.dev.prec o.port).timeouts + 1 })).readEnds o .error))) ∧
  (∀ (op : Nat) (o : ExpOp) (s : State), s.dev.sentOp op = some o → o.what.isSome = true → (s.dev.prec o.port).timeouts = 7 →
    let d := ((((s.dev.count (o.port / 4) (0x6000 + o.port % 4) 1).report (portTxnSource o.port) (openClass 219) o.addr).modPort o.port fun r =>
        { r with timeouts := 8 })).writeFails o
    exec (.cxlMemCompletionTimeout op) s = .next (s.onto
      (((d.settle (granuleOf o.line.toNat)).modPort o.port fun r => { r with timeouts := 0 }).removal o.port))) ∧
  (∀ (p : Fin 64) (op : Nat) (s : State), (∀ o ∈ s.dev.dir.expOps, o.op ≠ op) →
    yields (.lateMemResponse p op) s fun t => (t.prec p).late = (s.dev.prec p).late + 1 ∧ t.pool = s.dev.pool ∧ t.dir = s.dev.dir) ∧
  (∀ (p : Fin 64) (kind : Fin 3) (dpa : Nat) (s : State), s.dev.portMode p = 2 →
    yields (.expanderEventRecord p kind dpa) s fun t => .firmware (0x100 + kind.val) dpa ∈ t.out ∧ t.pool = s.dev.pool ∧ t.dir = s.dev.dir)

/-- An attempt presets the equaliser and starts phase 1; each phase that succeeds leads to the next, and one that fails puts the link
DOWN with its reason. The confirm window sets the masks from the qualifying lanes and sends LINKUP. A LINKUP from the configured peer
makes the link ACTIVE with sequence and credit state cleared; from another it puts it in MISWIRED. A valid equaliser request is applied,
an invalid one is not. (R235, R236, R237.) -/
def Obligations.LinksTrainInPhasesToActive : Prop :=
  (∀ (l : Fin 16) (s : State), s.dev.linkState l = 3 → (s.dev.lrec l).held = false → (s.dev.lrec l).tko = none →
    let e := presetEq (s.dev.rd (.stlCfg l) 26 24)
    yields (.stitchTrainingAttempt l) s fun t => t.linkState l = 1 ∧
      t.lrec l = { s.dev.lrec l with
        phase := 1, attempts := (s.dev.lrec l).attempts + 1, locked := 0, ready := false, txShed := 0, rxShed := 0,
        farMask := 15, ownMask := 15, adding := 0, addingRx := 0, secondTry := false } ∧
      t.bitOf (.stlStatus l) 15 = ((s.dev.lrec l).slow || s.dev.bitOf (.stlCfg l) 29) ∧
      (∀ lane < 4, t.rd (.txeq l lane) 17 12 = e.1 ∧ t.rd (.txeq l lane) 11 6 = e.2.1 ∧ t.rd (.txeq l lane) 5 0 = e.2.2) ∧
      (∀ k, k ≠ l.val → t.lrec k = s.dev.lrec k) ∧ t.pool = s.dev.pool ∧ t.dir = s.dev.dir ∧ t.sw = s.dev.sw) ∧
  (∀ (l : Fin 16) (locked : BitVec 4) (s : State), s.dev.linkState l = 1 → (s.dev.lrec l).phase = 1 → locked ≠ 0 →
    yields (.detectPhaseEnd l locked) s fun t => t.lrec l = { s.dev.lrec l with phase := 2, locked := locked.toNat } ∧ t.linkState l = 1) ∧
  (∀ (l : Fin 16) (s : State), s.dev.linkState l = 1 → (s.dev.lrec l).phase = 1 →
    yields (.detectPhaseEnd l 0) s fun t => t.linkState l = 3 ∧ t.rd (.stlStatus l) 27 24 = 1 ∧ (t.lrec l).phase = 0) ∧
  (∀ (l : Fin 16) (locked : BitVec 4) (s : State), s.dev.linkState l = 2 →
    yields (.detectPhaseEnd l locked) s fun t => t.linkState l = 2 ∧ t.lrec l = { s.dev.lrec l with
      addingRx := locked.toNat &&& (15 ^^^ s.dev.rxMask l) &&& (15 ^^^ ((s.dev.lrec l).rxShed &&& 15)), secondTry := false }) ∧
  (∀ (l : Fin 16) (s : State), s.dev.linkState l = 1 → (s.dev.lrec l).phase = 2 →
    yields (.framePhaseEnd l true) s fun t => t.lrec l = { s.dev.lrec l with phase := 3 } ∧ t.linkState l = 1) ∧
  (∀ (l : Fin 16) (s : State), s.dev.linkState l = 1 → (s.dev.lrec l).phase = 2 →
    yields (.framePhaseEnd l false) s fun t => t.linkState l = 3 ∧ (t.lrec l).phase = 0) ∧
  (∀ (l : Fin 16) (s : State), s.dev.linkState l = 1 → (s.dev.lrec l).phase = 3 →
    yields (.equalisePhaseEnd l true) s fun t => t.lrec l = { s.dev.lrec l with phase := 4, ready := true } ∧ t.linkState l = 1) ∧
  (∀ (l : Fin 16) (s : State), s.dev.linkState l = 1 → (s.dev.lrec l).phase = 3 →
    yields (.equalisePhaseEnd l false) s fun t => t.linkState l = 3 ∧ (t.lrec l).phase = 0) ∧
  (∀ (l : Fin 16) (errors : List Nat) (peer : BitVec 4) (s : State), s.dev.linkState l = 1 → (s.dev.lrec l).phase = 4 →
    s.dev.qualifying l (s.dev.lrec l).locked errors = 0 ∨ peer = 0 →
    yields (.confirmWindowEnd l errors peer) s fun t => t.linkState l = 3 ∧ t.rd (.stlStatus l) 27 24 = 2 ∧ (t.lrec l).phase = 0) ∧
  (∀ (l : Fin 16) (errors : List Nat) (peer : BitVec 4) (s : State), s.dev.linkState l = 1 → (s.dev.lrec l).phase = 4 →
    let q := s.dev.qualifying l (s.dev.lrec l).locked errors
    let tx := laneSetIn (s.dev.rd (.widthCtl l) 3 0 &&& peer.toNat &&& (15 ^^^ ((s.dev.lrec l).txShed &&& 15)))
    q ≠ 0 → peer ≠ 0 → tx ≠ 0 →
    yields (.confirmWindowEnd l errors peer) s fun t => t.lrec l = { s.dev.lrec l with phase := 5, farMask := peer.toNat, ownMask := q } ∧
      t.txMask l = tx ∧ t.rxMask l = laneSetIn q ∧ t.linkState l = 1 ∧
      .block l (linkupBlock s.dev.devId l (s.dev.rd (.stlStatus l) 15 15) tx (laneSetIn q)) ∈ t.out) ∧
  (∀ (l : Fin 16) (lane : Fin 4) (request preset : Fin 8) (n : Nat × Nat × Nat) (s : State), s.dev.linkState l = 1 ∨ s.dev.linkState l = 2 →
    request.val < 6 → requestedEq (s.dev.rd (.txeq l lane) 17 12, s.dev.rd (.txeq l lane) 11 6, s.dev.rd (.txeq l lane) 5 0) request preset = some n →
    eqOk n.1 n.2.1 n.2.2 = true →
    yields (.trainRequestReceived l lane request preset) s fun t => t.rd (.txeq l lane) 17 12 = n.1 ∧ t.rd (.txeq l lane) 11 6 = n.2.1 ∧
      t.rd (.txeq l lane) 5 0 = n.2.2 ∧ (∀ r : Reg, r ≠ .txeq l lane → r.show = false → t.reg r = s.dev.reg r) ∧ t.lrec l = s.dev.lrec l) ∧
  (∀ (l : Fin 16) (lane : Fin 4) (request preset : Fin 8) (n : Nat × Nat × Nat) (s : State), s.dev.linkState l = 1 ∨ s.dev.linkState l = 2 →
    request.val < 6 → requestedEq (s.dev.rd (.txeq l lane) 17 12, s.dev.rd (.txeq l lane) 11 6, s.dev.rd (.txeq l lane) 5 0) request preset = some n →
    eqOk n.1 n.2.1 n.2.2 = false →
    yields (.trainRequestReceived l lane request preset) s fun t => t.rd (.txeq l lane) 17 12 = s.dev.rd (.txeq l lane) 17 12 ∧
      t.rd (.txeq l lane) 11 6 = s.dev.rd (.txeq l lane) 11 6 ∧ t.rd (.txeq l lane) 5 0 = s.dev.rd (.txeq l lane) 5 0) ∧
  (∀ (l : Fin 16) (dev : DeviceId) (link : Fin 16) (limits : Four) (s : State), s.dev.linkState l = 1 → (s.dev.lrec l).phase = 5 →
    dev.toNat ≠ s.dev.rd (.stlCfg l) 19 8 ∨ link.val ≠ s.dev.rd (.stlCfg l) 7 4 →
    yields (.linkupReceived l dev link limits) s fun t => t.linkState l = 4 ∧ t.rd (.stlStatus l) 27 24 = 3 ∧ (t.lrec l).phase = 0) ∧
  (∀ (l : Fin 16) (dev : DeviceId) (link : Fin 16) (limits : Four) (s : State), s.dev.linkState l = 1 → (s.dev.lrec l).phase = 5 →
    dev.toNat = s.dev.rd (.stlCfg l) 19 8 → link.val = s.dev.rd (.stlCfg l) 7 4 →
    yields (.linkupReceived l dev link limits) s fun t => t.linkState l = 2 ∧ t.reg (.seqStatus l) = 0 ∧
      t.lrec l = { s.dev.lrec l with
        phase := 0, attempts := 0, slow := false, discarding := false, sinceAck := 0, ackDue := false,
        lastReplay := none, replays := 0, extra := .zero, limit := limits, spent := .zero, adv := s.dev.initialCredit l, sentAdv := s.dev.initialCredit l,
        taken := .zero, frozen := false, blockErrs := [], entries := [] } ∧
      .block l (creditBlock (s.dev.initialCredit l)) ∈ t.out ∧
      (s.dev.linkSlot l < 16 → s.dev.slotValid (s.dev.linkSlot l) = true → s.dev.slotState (s.dev.linkSlot l) = 0 →
        t.slotState (s.dev.linkSlot l) = 1) ∧ t.pool = s.dev.pool) ∧
  (∀ (l : Fin 16) (s : State), s.dev.linkState l = 1 → (s.dev.lrec l).phase = 5 →
    yields (.linkupPhaseTimeout l) s fun t => t.linkState l = 3 ∧ (t.lrec l).phase = 0)

/-- A packet with credit is kept for replay, numbered and sent, and spends its cost; without, it is not sent. A good packet in sequence is
accepted and the receive sequence moves on; a bad one is discarded with a NAK; an old one only owes an ACK. ACK drops what it covers; NAK
and the replay timer resend from the first kept, NAK not twice for one cause. Credit, ACK and NAK timers send their blocks. A
control-block error discards and counts. A receiver advertises the credits of its reservation, and of shared cells a number that is open
(log entry 59). (R234, R242, R243, R244, R246, R247.) -/
def Obligations.PacketsAreSentAcceptedAndReplayed : Prop :=
  (∀ (l : Fin 16) (words : List Word) (c : MsgClass) (s : State), opClass (msgOp words) = some c → s.dev.linkState l = 2 →
    (s.dev.lrec l).residue = [] → s.dev.mayGo l (msgOp words) = true → s.dev.canSend l c (words.length + 1) = true →
    yields (.stitchPacketSend l words) s fun t =>
      (t.lrec l).entries = (s.dev.lrec l).entries ++ [⟨s.dev.rd (.seqStatus l) 63 52, c, words⟩] ∧
      t.rd (.seqStatus l) 63 52 = (s.dev.rd (.seqStatus l) 63 52 + 1) % 4096 ∧
      (t.lrec l).spent = (s.dev.lrec l).spent.put c (((s.dev.lrec l).spent.get c + packetCost (words.length + 1)) % 2048) ∧
      (msgOp words ≠ 0x30 → .packet l (packet c (s.dev.rd (.seqStatus l) 63 52) words) ∈ t.out) ∧ t.pool = s.dev.pool ∧ t.dir = s.dev.dir) ∧
  (∀ (l : Fin 16) (words : List Word) (c : MsgClass) (s : State), opClass (msgOp words) = some c →
    s.dev.canSend l c (words.length + 1) = false →
    yields (.stitchPacketSend l words) s fun t => t.lrec l = s.dev.lrec l ∧ t.rd (.seqStatus l) 63 52 = s.dev.rd (.seqStatus l) 63 52 ∧
      t.pool = s.dev.pool ∧ t.dir = s.dev.dir) ∧
  (∀ (l : Fin 16) (words : List Word) (s : State), s.dev.linkState l = 2 → (s.dev.lrec l).frozen = false → (s.dev.lrec l).discarding = false →
    packetGood words = true → getBits (word words 0) 55 44 = s.dev.rd (.seqStatus l) 39 28 →
    packetCost words.length ≤ ((s.dev.lrec l).adv.get (codeClass (getBits (word words 0) 63 62)) + 2048 -
      (s.dev.lrec l).taken.get (codeClass (getBits (word words 0) 63 62))) % 2048 →
    exec (.packetReceived l words none) s = .next (s.onto (s.dev.accept l (codeClass (getBits (word words 0) 63 62)) words))) ∧
  (∀ (l : Fin 16) (words : List Word) (k : MsgClass) (s : State), s.dev.linkState l = 2 → (s.dev.lrec l).frozen = false →
    (s.dev.lrec l).discarding = false → packetGood words = true → getBits (word words 0) 55 44 = s.dev.rd (.seqStatus l) 39 28 →
    packetCost words.length ≤ ((s.dev.lrec l).adv.get (codeClass (getBits (word words 0) 63 62)) + 2048 -
      (s.dev.lrec l).taken.get (codeClass (getBits (word words 0) 63 62))) % 2048 →
    opClass (msgOp words.tail) = some k → s.dev.slotState (s.dev.linkSlot l) ≠ 2 →
    yields (.packetReceived l words none) s fun t => .accepted l words.tail ∈ t.out ∧
      t.rd (.seqStatus l) 39 28 = (s.dev.rd (.seqStatus l) 39 28 + 1) % 4096 ∧ t.pool = s.dev.pool ∧
      t.dir = (if msgDst words.tail = s.dev.devId ∧ (msgOp words.tail = 0x23 ∨ msgOp words.tail = 0x24) then { s.dev.dir with
        proxyOut := tmod s.dev.dir.proxyOut (msgTag words.tail) fun x => { x with retried := decide (msgOp words.tail = 0x23) } }
        else s.dev.dir)) ∧
  (∀ (l : Fin 16) (words : List Word) (s : State), s.dev.linkState l = 2 → (s.dev.lrec l).frozen = false → (s.dev.lrec l).discarding = false →
    packetGood words = false →
    yields (.packetReceived l words none) s fun t => (t.lrec l).discarding = true ∧
      .block l (nakBlock ((s.dev.rd (.seqStatus l) 39 28 + 4095) % 4096)) ∈ t.out ∧
      t.rd (.seqStatus l) 39 28 = s.dev.rd (.seqStatus l) 39 28 ∧
      t.rd (.errCnt l) 63 48 = (s.dev.rd (.errCnt l) 63 48 + 1) % 2 ^ 16 ∧ t.pool = s.dev.pool) ∧
  (∀ (l : Fin 16) (words : List Word) (s : State), s.dev.linkState l = 2 → (s.dev.lrec l).frozen = false → (s.dev.lrec l).discarding = false →
    packetGood words = true → 2048 ≤ (getBits (word words 0) 55 44 + 4096 - s.dev.rd (.seqStatus l) 39 28) % 4096 →
    yields (.packetReceived l words none) s fun t => t.lrec l = { s.dev.lrec l with ackDue := true } ∧
      t.rd (.seqStatus l) 39 28 = s.dev.rd (.seqStatus l) 39 28 ∧ t.pool = s.dev.pool) ∧
  (∀ (l : Fin 16) (seq : BitVec 12) (e : Entry) (rest : List Entry) (s : State), s.dev.linkState l = 2 → (s.dev.lrec l).residue = [] →
    (s.dev.lrec l).entries = e :: rest → (seq.toNat + 4096 - e.seq) % 4096 ≤ rest.length →
    yields (.ackReceived l seq) s fun t =>
      t.lrec l = { s.dev.lrec l with entries := rest.drop ((seq.toNat + 4096 - e.seq) % 4096), lastReplay := none, replays := 0 } ∧
      t.pool = s.dev.pool ∧ t.rd (.seqStatus l) 39 28 = s.dev.rd (.seqStatus l) 39 28) ∧
  (∀ (l : Fin 16) (s : State), s.dev.linkState l = 2 → (s.dev.lrec l).sinceAck ≠ 0 ∨ (s.dev.lrec l).ackDue = true →
    yields (.ackTimerExpiry l) s fun t => .block l (ackBlock ((s.dev.rd (.seqStatus l) 39 28 + 4095) % 4096)) ∈ t.out ∧
      t.lrec l = { s.dev.lrec l with sinceAck := 0, ackDue := false } ∧ s.dev.linkState l = t.linkState l ∧ t.pool = s.dev.pool) ∧
  (∀ (l : Fin 16) (seq : BitVec 12) (e : Entry) (s : State), s.dev.linkState l = 2 →
    ((s.dev.acknowledge l seq.toNat).1.lrec l).entries.head? = some e → (s.dev.acknowledge l seq.toNat).1.replayedLately l e.seq = false →
    exec (.nakReceived l seq) s = .next (s.onto ((s.dev.acknowledge l seq.toNat).1.startReplay l))) ∧
  (∀ (l : Fin 16) (seq : BitVec 12) (e : Entry) (s : State), s.dev.linkState l = 2 →
    ((s.dev.acknowledge l seq.toNat).1.lrec l).entries.head? = some e → (s.dev.acknowledge l seq.toNat).1.replayedLately l e.seq = true →
    exec (.nakReceived l seq) s = .next (s.onto (s.dev.acknowledge l seq.toNat).1)) ∧
  (∀ (l : Fin 16) (first : BitVec 12) (s : State), s.dev.linkState l = 2 →
    yields (.replayReceived l first) s fun t => t.lrec l = { s.dev.lrec l with discarding := false } ∧ t.pool = s.dev.pool ∧
      ∀ r : Reg, r.show = false → t.reg r = s.dev.reg r) ∧
  (∀ (l : Fin 16) (s : State), s.dev.linkState l = 2 → (s.dev.lrec l).discarding = true →
    yields (.nakRepeatTimeout l) s fun t => .block l (nakBlock ((s.dev.rd (.seqStatus l) 39 28 + 4095) % 4096)) ∈ t.out ∧
      t.lrec l = s.dev.lrec l ∧ t.rd (.errCnt l) 47 32 = (s.dev.rd (.errCnt l) 47 32 + 1) % 2 ^ 16) ∧
  (∀ (l : Fin 16) (e : Entry) (rest : List Entry) (s : State), s.dev.linkState l = 2 → (s.dev.lrec l).entries = e :: rest →
    (s.dev.lrec l).lastReplay = none → 1 < s.dev.rd (.linkCtl l) 3 0 →
    yields (.replayTimeout l) s fun t => .block l (replayBlock e.seq) ∈ t.out ∧ (t.lrec l).replays = 1 ∧
      (t.lrec l).lastReplay = some (e.seq, s.dev.now) ∧ (t.lrec l).entries = e :: rest ∧
      (∀ x ∈ e :: rest, msgOp x.words ≠ 0x30 → .packet l (packet x.cls x.seq x.words) ∈ t.out) ∧ t.linkState l = 2) ∧
  (∀ (l : Fin 16) (limits : Four) (s : State), s.dev.linkState l = 2 → (s.dev.lrec l).residue = [] →
    yields (.creditReceived l limits) s fun t => t.lrec l = { s.dev.lrec l with limit := limits } ∧ t.pool = s.dev.pool ∧
      ∀ r : Reg, r.show = false → t.reg r = s.dev.reg r) ∧
  (∀ (l : Fin 16) (s : State), s.dev.linkState l = 2 →
    exec (.creditAdvertiseTimer l) s = .next (s.onto (classes.foldl (fun d c => d.advertiseMore l c) (s.dev.sendCredit l))) ∧
    yields (.creditAdvertiseTimer l) s fun t => .block l (creditBlock (s.dev.lrec l).adv) ∈ t.out ∧ t.pool = s.dev.pool ∧
      t.dir = s.dev.dir ∧ t.linkState l = 2) ∧
  (∀ (l : Fin 16) (d : Dev), d.active l = true → (d.sendCredit l).lrec l = { d.lrec l with sentAdv := (d.lrec l).adv }) ∧
  (∀ (l : Fin 16) (c : MsgClass) (d : Dev), let t := d.advertiseMore l c
    t.lrec l = d.lrec l ∨ (min 1023 (2 * d.reserved (.link l) c) + 2 * (t.lrec l).extra.get c ≤ 1023 ∧ ∃ k,
      (t.lrec l).extra = (d.lrec l).extra.put c ((d.lrec l).extra.get c + k) ∧
      (t.lrec l).adv = (d.lrec l).adv.put c (((d.lrec l).adv.get c + 2 * k) % 2048))) ∧
  (∀ (l : Fin 16) (lane : Fin 4) (s : State), s.dev.linkState l = 2 → (s.dev.lrec l).blockErrs = [] → (s.dev.lrec l).discarding = false →
    yields (.controlBlockError l lane) s fun t => (t.lrec l).discarding = true ∧ (t.lrec l).blockErrs = [(lane.val, s.dev.now)] ∧
      t.rd (.laneStatus l lane) 47 24 = (s.dev.rd (.laneStatus l lane) 47 24 + 1) % 2 ^ 24 ∧ t.linkState l = 2)

/-- A width request narrows and answers; SET and ALIGN set the receive mask; READY widens; a lost lane is shed. WIDTH_CTL takes only a
lane set. A link declared dead is DOWN with its reason, frozen, with a TAKEOVER sent on the lowest active link of its bundle, or its
bundle is lost. A takeover received is answered. LINK_CTL and LINK_SET put the link down, retrain it or set its width, and are refused
on a link that is no Stitch link. (R229, R237, R250, R251, R252, R254, R255, R256, R297, R340.) -/
def Obligations.WidthFollowsItsMasksAndDeadLinksAreTakenOver : Prop :=
  (∀ (l : Fin 16) (mask : BitVec 4) (s : State), s.dev.linkState l = 2 →
    let want := laneSetIn (s.dev.rd (.widthCtl l) 3 0 &&& mask.toNat &&& (15 ^^^ ((s.dev.lrec l).txShed &&& 15)))
    want ≠ 0 → want ≠ s.dev.txMask l → want &&& s.dev.txMask l = want →
    yields (.widthReqReceived l mask) s fun t => t.txMask l = want ∧ .block l (widthSetBlock want) ∈ t.out ∧
      t.lrec l = { s.dev.lrec l with farMask := mask.toNat, adding := 0 } ∧ t.linkState l = 2) ∧
  (∀ (l : Fin 16) (mask : BitVec 4) (s : State), s.dev.linkState l = 2 → laneSets.contains mask.toNat = true →
    yields (.widthSetReceived l mask) s fun t => t.rxMask l = mask.toNat ∧ s.dev.onlyRegs t ∧
      ∀ r : Reg, r ≠ .stlStatus l → r.show = false → t.reg r = s.dev.reg r) ∧
  (∀ (l : Fin 16) (lanes : BitVec 4) (s : State), s.dev.linkState l = 2 → laneSets.contains lanes.toNat = true →
    yields (.alignRowReceived l lanes) s fun t => t.rxMask l = lanes.toNat ∧ s.dev.onlyRegs t ∧
      ∀ r : Reg, r ≠ .stlStatus l → r.show = false → t.reg r = s.dev.reg r) ∧
  (∀ (l : Fin 16) (mask : BitVec 4) (s : State), s.dev.linkState l = 2 → (s.dev.lrec l).adding &&& mask.toNat ≠ 0 →
    let want := laneSetIn (s.dev.permitted l &&& (s.dev.txMask l ||| ((s.dev.lrec l).adding &&& mask.toNat)))
    want ≠ 0 → want ≠ s.dev.txMask l →
    yields (.widthReadyReceived l mask) s fun t => t.txMask l = want ∧ .block l (widthSetBlock want) ∈ t.out ∧ t.linkState l = 2) ∧
  (∀ (l : Fin 16) (s : State), yields (.widenLaneTimeout l) s fun t => t.lrec l = { s.dev.lrec l with adding := 0, addingRx := 0 } ∧
    ∀ r : Reg, r.show = false → t.reg r = s.dev.reg r) ∧
  (∀ (l : Fin 16) (lane : Fin 4) (signal : Bool) (s : State), s.dev.linkState l ≠ 2 →
    yields (.laneSignalLoss l lane signal) s fun t => t.bitOf (.laneStatus l lane) (if signal then 63 else 62) = true ∧
      t.lrec l = s.dev.lrec l ∧ t.linkState l = s.dev.linkState l) ∧
  (∀ (l : Fin 16) (lane : Fin 4) (signal : Bool) (s : State), s.dev.linkState l = 2 → bit (s.dev.lrec l).rxShed lane = false →
    laneSetIn ((s.dev.lrec l).ownMask &&& (15 ^^^ 2 ^ lane.val)) ≠ 0 →
    yields (.laneSignalLoss l lane signal) s fun t => t.bitOf (.laneStatus l lane) (if signal then 63 else 62) = true ∧
      (t.lrec l).rxShed = (s.dev.lrec l).rxShed ||| 2 ^ lane.val ∧ (t.lrec l).ownMask = (s.dev.lrec l).ownMask &&& (15 ^^^ 2 ^ lane.val) ∧
      .block l (widthReqBlock ((s.dev.lrec l).ownMask &&& (15 ^^^ 2 ^ lane.val))) ∈ t.out ∧ t.linkState l = 2) ∧
  (∀ (l : Fin 16) (target : BitVec 4) (s : State), laneSets.contains target.toNat = true → s.dev.linkState l ≠ 2 →
    yields (.widthCtlWrite l target) s fun t => t.rd (.widthCtl l) 3 0 = target.toNat ∧ s.dev.onlyRegs t ∧
      ∀ r : Reg, r ≠ .widthCtl l → r.show = false → t.reg r = s.dev.reg r) ∧
  (∀ (l : Fin 16) (target : BitVec 4) (s : State), laneSets.contains target.toNat = false →
    exec (.widthCtlWrite l target) s = .next (s.onto s.dev)) ∧
  (∀ (l reason : Fin 16) (s : State), s.dev.linkState l ≠ 2 → exec (.linkDeclaredDead l reason) s = .next (s.onto s.dev)) ∧
  (∀ (l reason : Fin 16) (c : Nat) (s : State), s.dev.linkState l = 2 →
    (s.dev.linkStops l reason).lowestActive (s.dev.linkSlot l) = some c →
    yields (.linkDeclaredDead l reason) s fun t => t.linkState l = 3 ∧ t.rd (.stlStatus l) 27 24 = reason.val ∧
      t.rd (.stlStatus l) 7 0 = (s.dev.rd (.stlStatus l) 7 0 + 1) % 256 ∧ t.bitOf (.stlStatus l) 14 = true ∧ (t.lrec l).frozen = true ∧
      (t.lrec l).tko = some ⟨(s.dev.rd (.stlStatus l) 7 0 + 1) % 256, (s.dev.rd (.seqStatus l) 39 28 + 4095) % 4096, c, false⟩ ∧
      .block c (takeoverBlock l ((s.dev.rd (.stlStatus l) 7 0 + 1) % 256) ((s.dev.rd (.seqStatus l) 39 28 + 4095) % 4096)) ∈ t.out) ∧
  (∀ (l reason : Fin 16) (s : State), s.dev.linkState l = 2 → (s.dev.linkStops l reason).lowestActive (s.dev.linkSlot l) = none →
    exec (.linkDeclaredDead l reason) s = .next (s.onto ((s.dev.linkStops l reason).bundleLost (s.dev.linkSlot l)))) ∧
  (∀ (carrier dead : Fin 16) (event : BitVec 8) (lastAccepted : BitVec 12) (l : Nat) (s : State), s.dev.linkByPeer carrier dead = some l →
    s.dev.linkState carrier = 2 →
    exec (.takeoverReceived carrier dead event lastAccepted) s = .next (s.onto (s.dev.takeoverIn carrier l event.toNat lastAccepted.toNat))) ∧
  (∀ (carrier dead : Fin 16) (event : BitVec 8) (lastAccepted : BitVec 12) (l : Nat) (k : Takeover) (s : State),
    s.dev.linkByPeer carrier dead = some l → s.dev.linkState carrier = 2 → s.dev.linkState l = 3 → (s.dev.lrec l).tko = some k →
    k.peerSeen = true →
    yields (.takeoverReceived carrier dead event lastAccepted) s fun t =>
      .block k.carrier (takeoverBlock l k.event k.lastAccepted) ∈ t.out ∧ t.link = s.dev.link ∧ t.pool = s.dev.pool) ∧
  (∀ (l : Fin 16) (k : Takeover) (s : State), (s.dev.lrec l).tko = some k → k.peerSeen = false →
    yields (.takeoverRepeat l) s fun t => .block k.carrier (takeoverBlock l k.event k.lastAccepted) ∈ t.out ∧ t.link = s.dev.link ∧
      t.pool = s.dev.pool) ∧
  (∀ (l : Fin 16) (s : State), s.dev.linkState l = 1 ∨ s.dev.linkState l = 3 ∨ s.dev.linkState l = 4 →
    yields (.linkCtlDown l) s fun t => t.linkState l = 3 ∧ t.rd (.stlStatus l) 27 24 = 6 ∧
      t.lrec l = { s.dev.lrec l with held := true, phase := 0 } ∧ t.pool = s.dev.pool) ∧
  (∀ (l : Fin 16) (s : State), s.dev.linkState l = 0 ∨ s.dev.linkState l = 5 → exec (.linkCtlDown l) s = .next (s.onto s.dev)) ∧
  (∀ (l : Fin 16) (s : State), s.dev.linkState l = 3 ∨ s.dev.linkState l = 4 → (s.dev.lrec l).tko = none →
    yields (.linkCtlRetrain l) s fun t => t.linkState l = 1 ∧ (t.lrec l).phase = 1 ∧ (t.lrec l).attempts = 1 ∧ (t.lrec l).held = false ∧
      (t.lrec l).slow = false ∧ t.pool = s.dev.pool) ∧
  (∀ (path : Path) (input : List Byte) (s : State), s.dev.takesStoluo path 0xC032 → s.dev.linkMode (field input 0 1) = 1 →
    (linkSetInput input 0 = true → exec (.linkSetDown path input) s =
      .next (s.onto ((linkDown (field input 0 1) s.dev).finish path 0xC032 0))) ∧
    (linkSetInput input 1 = true → exec (.linkSetRetrain path input) s =
      .next (s.onto ((linkRetrain (field input 0 1) s.dev).finish path 0xC032 0))) ∧
    (linkSetInput input 2 = true → laneSets.contains (field input 2 1) = true → exec (.linkSetTarget path input) s =
      .next (s.onto ((widthTarget (field input 0 1) (field input 2 1) s.dev).finish path 0xC032 0)))) ∧
  (∀ (path : Path) (input : List Byte) (s : State), s.dev.takesStoluo path 0xC032 → s.dev.linkMode (field input 0 1) ≠ 1 →
    linkSetInput input 0 = true → yields (.linkSetDown path input) s fun t => t.replied path 0xC032 rcConflict 0 [] ∧ s.dev.onlyRead t)

/-- TOLL_SEND sends on every active link and follows time. A toll on a link that is not active has no effect. One of another fabric
mode, or from a neighbour that gives this device up, declares the neighbour dead. A good toll of the time parent gives the offset of the
four times, sets the error field and depth, steps time beyond 10,000 ns and moves the lock by its counters. Tolls of a rejoining
neighbour count to its return. Silence declares death with its cause. (R272, R273, R274.) -/
def Obligations.TollsCarryTimeAndTellDeaths : Prop :=
  (∀ s : State, exec .tollSend s = .next (s.onto ((List.range 16).foldl (fun (d : Dev) n => d.rejoinPeriod n)
    ((List.range 16).foldl (fun (d : Dev) l => if d.active l then d.sendToll l else d) s.dev)).followTime)) ∧
  (∀ (l : Fin 16) (words : List Word) (s : State), s.dev.active l = false → exec (.tollReceived l words) s = .next (s.onto s.dev)) ∧
  (∀ (l : Fin 16) (words : List Word) (n : Fin 16) (s : State), s.dev.active l = true → s.dev.linkSlot l = n.val →
    getBits (word words 5) 52 52 ≠ s.dev.rd .fabCfg 31 31 →
    let d := (s.dev.count (linkPmu l) 0x8017 1).report (linkSource l 3) 2 0
    exec (.tollReceived l words) s = .next (s.onto (if s.dev.slotState n = 1 then d.declareDeath (.slot n) 4 else d))) ∧
  (∀ (l : Fin 16) (words : List Word) (n : Fin 16) (s : State), s.dev.active l = true → s.dev.linkSlot l = n.val →
    getBits (word words 5) 52 52 = s.dev.rd .fabCfg 31 31 → getBits (word words 5) 53 53 = 1 → getBits (word words 5) 51 51 = 0 →
    s.dev.slotState n = 1 → exec (.tollReceived l words) s =
      .next (s.onto (((s.dev.count (linkPmu l) 0x8017 1).tollTime l n words).declareDeath (.slot n) 6))) ∧
  (∀ (l : Fin 16) (words : List Word) (n : Fin 16) (s : State), s.dev.active l = true → s.dev.linkSlot l = n.val →
    getBits (word words 5) 52 52 = s.dev.rd .fabCfg 31 31 → getBits (word words 5) 53 53 = 0 → getBits (word words 5) 51 51 = 0 →
    tget s.dev.fab.rejoins n.val = none → s.dev.bitOf .fabCfg 30 = false → n.val = s.dev.rd .fabCfg 23 20 → s.dev.slotState n = 1 →
    getBits (word words 5) 59 59 = 1 → word words 3 ≠ 0 → (tgetD s.dev.fab.tollTx l.val []).contains (word words 3).toNat = true →
    s.dev.now ≤ (word words 3).toNat + 4 * (s.dev.rd .tollCtl 15 0 * 1000) →
    let theta := thetaOf (word words 2).toNat s.dev.now (word words 3).toNat (word words 4).toNat
    yields (.tollReceived l words) s fun t =>
      t.rd .timeStatus 15 0 = offsetField theta ∧ t.rd .timeStatus 29 25 = min 31 (getBits (word words 5) 58 54 + 1) ∧
      t.rd .timeStatus 24 21 = n.val ∧ t.bitOf .timeStatus 30 = false ∧
      t.reg .ftime = (if 10000 < theta.natAbs then BitVec.ofInt 64 ((s.dev.now : Int) - theta) else s.dev.reg .ftime) ∧
      (20 < theta.natAbs → theta.natAbs ≤ 40 → t.bitOf .timeStatus 31 = s.dev.bitOf .timeStatus 31) ∧
      (theta.natAbs ≤ 20 → 7 ≤ s.dev.fab.low → t.bitOf .timeStatus 31 = true) ∧
      (40 < theta.natAbs → 7 ≤ s.dev.fab.high → t.bitOf .timeStatus 31 = false) ∧
      tget t.fab.tollRx l.val = some ((word words 2).toNat, s.dev.now) ∧
      t.pool = s.dev.pool ∧ t.dir = s.dev.dir ∧ t.sw = s.dev.sw ∧ t.link = s.dev.link ∧ t.slotState n = 1) ∧
  (∀ (l : Fin 16) (words : List Word) (n : Fin 16) (r : Rejoin) (s : State), s.dev.active l = true → s.dev.linkSlot l = n.val →
    getBits (word words 5) 52 52 = s.dev.rd .fabCfg 31 31 → getBits (word words 5) 51 51 = 1 → s.dev.slotState n = 2 →
    tget s.dev.fab.rejoins n.val = some r → r.fresh = false → r.count + 1 < s.dev.rd .tollCtl 23 16 →
    yields (.tollReceived l words) s fun t =>
      tget t.fab.rejoins n.val = some { r with count := r.count + 1, fresh := true } ∧ t.slotState n = 2 ∧ t.dir = s.dev.dir) ∧
  (∀ (l : Fin 16) (words : List Word) (n : Fin 16) (r : Rejoin) (s : State), s.dev.active l = true → s.dev.linkSlot l = n.val →
    getBits (word words 5) 52 52 = s.dev.rd .fabCfg 31 31 → getBits (word words 5) 51 51 = 1 → s.dev.slotState n = 2 →
    tget s.dev.fab.rejoins n.val = some r → r.fresh = false → s.dev.rd .tollCtl 23 16 ≤ r.count + 1 →
    yields (.tollReceived l words) s fun t =>
      tget t.fab.rejoins n.val = some ⟨0, true, s.dev.rd .tollCtl 23 16, decide (getBits (word words 5) 53 53 = 1)⟩ ∧
      t.slotState n = 1 ∧ t.dir = s.dev.dir) ∧
  (∀ (n : Fin 16) (s : State), s.dev.slotState n = 1 → exec (.tollSilence n) s =
    .next (s.onto (s.dev.declareDeath (.slot n) (if (s.dev.lowestActive n).isSome then 3 else 4)))) ∧
  (∀ (n : Fin 16) (s : State), s.dev.slotState n ≠ 1 → exec (.tollSilence n) s = .next (s.onto s.dev))

/-- A knell seen within the last millisecond has no effect; a new one is logged and, for a death of a neighbour of this device, declares
it. A message for this device is not transit; another follows its route to a link, or is failed back and its credit returned. A granule
substitution ends when no other link holds. ROUTE_SET writes a route that is legal and refuses others. NEIGHBOUR_REJOIN starts a rejoin
only of a dead slot with an active link whose sweeps are over. (R269, R271, R277, R279, R297.) -/
def Obligations.KnellsRoutesAndRejoinsFollowTheirTables : Prop :=
  (∀ (l : Fin 16) (words : List Word) (k : Nat × Nat × Nat) (s : State), k ∈ s.dev.fab.knells → k.1 = msgSrc words →
    k.2.1 = getBits (word words 2) 37 30 → s.dev.now ≤ k.2.2 + 1000000 →
    exec (.knellReceived l words) s = .next (s.onto s.dev)) ∧
  (∀ (l : Fin 16) (words : List Word) (s : State),
    (∀ k ∈ s.dev.fab.knells, k.1 = msgSrc words → k.2.1 = getBits (word words 2) 37 30 → k.2.2 + 1000000 < s.dev.now) →
    getBits (word words 2) 63 62 ≠ 1 →
    yields (.knellReceived l words) s fun t =>
      (msgSrc words, getBits (word words 2) 37 30, s.dev.now) ∈ t.fab.knells ∧ t.dir = s.dev.dir ∧ t.pool = s.dev.pool ∧
      (∀ n, t.slotState n = s.dev.slotState n) ∧
      t.fab.log = (s.dev.fab.log.append 4096 0 2 s.dev.flt.diesOut
        ⟨s.dev.fab.log.seq, s.dev.now, 1, det 88 (word words 2).toNat + det 77 (msgSrc words)⟩).1) ∧
  (∀ (l : Fin 16) (words : List Word) (n : Fin 16) (s : State),
    (∀ k ∈ s.dev.fab.knells, k.1 = msgSrc words → k.2.1 = getBits (word words 2) 37 30 → k.2.2 + 1000000 < s.dev.now) →
    getBits (word words 2) 63 62 = 1 → s.dev.slotState n = 1 →
    let subj := getBits (word words 2) 61 51
    s.dev.slotOf (if subj = s.dev.devId then msgSrc words else subj) = some n.val →
    let d : Dev := { s.dev with fab := { s.dev.fab with
      knells := (s.dev.fab.knells.filter fun k => decide (s.dev.now ≤ k.2.2 + 1000000)) ++
        [(msgSrc words, getBits (word words 2) 37 30, s.dev.now)] } }
    exec (.knellReceived l words) s = .next (s.onto
      ((d.fabricEvent 1 (det 88 (word words 2).toNat + det 77 (msgSrc words))).declareDeath (.slot n) 5))) ∧
  (∀ (l : Fin 16) (words : List Word) (s : State), msgDst words = s.dev.devId →
    exec (.transitMessage l words) s = .next (s.onto s.dev)) ∧
  (∀ (l : Fin 16) (words : List Word) (n out : Nat) (s : State), msgDst words ≠ s.dev.devId → s.dev.routeSlot words = some n →
    n ≠ s.dev.linkSlot l → s.dev.linkFor n words = some out →
    exec (.transitMessage l words) s = .next (s.onto (s.dev.bufferTransit l out words))) ∧
  (∀ (l : Fin 16) (words : List Word) (s : State), msgDst words ≠ s.dev.devId →
    s.dev.routeSlot words = none ∨ s.dev.routeSlot words = some (s.dev.linkSlot l) →
    let d := (s.dev.noRoute (msgDst words)).returnCredit l ((opClass (msgOp words)).getD .mgt) (packetCost (words.length + 1))
    exec (.transitMessage l words) s = .next (s.onto (if opClass (msgOp words) = some .req then
      d.postOrDrop (nfailFor s.dev.devId words (if opReads (msgOp words) then 1 else 2)) else d))) ∧
  (∀ (n : Fin 16) (s : State), yields (.granuleTakeback n) s fun t =>
    (∀ l, l ∈ t.fab.subst ↔ l ∈ s.dev.fab.subst ∧ ¬ (l ∈ s.dev.bundle n ∧ s.dev.active l = true ∧
      ∀ m ∈ s.dev.bundle n, m = l ∨ s.dev.active m = false ∨ s.dev.holdsGranules (s.dev.bundle n) m l = false)) ∧
    t.dir = s.dev.dir ∧ t.pool = s.dev.pool ∧ t.link = s.dev.link) ∧
  (∀ (path : Path) (dst : BitVec 16) (image : BitVec 32) (s : State), s.dev.takesStoluo path 0xC038 → dst.toNat < 2048 →
    image.toNat % 2 ^ 16 = 0 → image.toNat / 2 ^ 24 % 64 = 0 → s.dev.routeOk dst.toNat (BitVec.ofNat 64 image.toNat) = true →
    let input := toBytes 2 1 ++ toBytes 2 0 ++ toBytes 2 dst.toNat ++ toBytes 2 0 ++ toBytes 4 image.toNat
    yields (.routeSet path input) s fun t => t.reg (.route dst.toNat) = BitVec.ofNat 64 image.toNat ∧
      (∀ r : Reg, r ≠ .route dst.toNat → r.side = false → r.show = false → r.box = false → t.reg r = s.dev.reg r) ∧
      t.replied path 0xC038 0 0 [] ∧ t.fab = s.dev.fab) ∧
  (∀ (path : Path) (input : List Byte) (s : State), s.dev.takesStoluo path 0xC038 → field input 0 2 = 1 → input.length = 12 →
    field input 2 2 = 0 → field input 6 2 = 0 → (field input 4 2) < 2048 →
    BitVec.ofNat 64 (field input 8 4) &&& (Reg.route 0).mask = BitVec.ofNat 64 (field input 8 4) →
    s.dev.routeOk (field input 4 2) (BitVec.ofNat 64 (field input 8 4)) = false →
    yields (.routeSet path input) s fun t => t.replied path 0xC038 2 0 [] ∧ s.dev.onlyRead t) ∧
  (∀ (path : Path) (n : Fin 16) (s : State), s.dev.takesStoluo path 0xC039 → s.dev.slotState n = 2 →
    (s.dev.lowestActive n).isSome = true → s.dev.sweepsOver (.slot n) = true →
    yields (.neighbourRejoin path [BitVec.ofNat 8 n.val, 0, 0, 0]) s fun t => t.replied path 0xC039 0 0 [] ∧
      tget t.fab.rejoins n.val = some ⟨0, false, 0, false⟩ ∧ t.slotState n = 2 ∧ t.dir = s.dev.dir ∧ t.pool = s.dev.pool) ∧
  (∀ (path : Path) (n : Fin 16) (s : State), s.dev.takesStoluo path 0xC039 →
    s.dev.slotState n ≠ 2 ∨ (s.dev.lowestActive n).isSome = false ∨ s.dev.sweepsOver (.slot n) = false →
    yields (.neighbourRejoin path [BitVec.ofNat 8 n.val, 0, 0, 0]) s fun t => t.replied path 0xC039 7 0 [] ∧ s.dev.onlyRead t)

/-- A doorbell already set has no effect; a new one takes the mailbox's command. An MCTP request occupies its kind for that requester, and
a second is answered BUSY. An MCTP control message sets the endpoint id, and I3C assignment the dynamic addresses, where the bus is up. A
background operation that has its result shows it with 100 percent and its opcode in the path's background status; one that has none goes
on. A message waits for a sleeping management domain, which it wakes; a path that is not up takes nothing. (R283, R285, R286, R287, R432,
R354.) -/
def Obligations.ManagementPathsTakeAndAnswer : Prop :=
  (∀ (m : Fin 65) (s : State), s.dev.bitOf (.mbxCtl m) 0 = false → s.dev.aoOnly = false → s.dev.domState domMgt ≤ 2 →
    exec (.mailboxDoorbell m) s = .next (s.onto (s.dev.doorbell m))) ∧
  (∀ (m : Fin 65) (s : State), s.dev.bitOf (.mbxCtl m) 0 = false → s.dev.aoOnly = false → s.dev.domState domMgt ≤ 2 →
    s.dev.rd (.mbxCmd m) 36 16 ≤ 4096 → ¬(0xC000 ≤ s.dev.rd (.mbxCmd m) 15 0 ∧ s.dev.rd (.mbxCmd m) 15 0 ≤ 0xCFFF ∧
      cmdClass (s.dev.rd (.mbxCmd m) 15 0) = none) →
    yields (.mailboxDoorbell m) s fun t => t.bitOf (.mbxCtl m) 0 = true ∧
      tget t.mgmt.submitted m.val = some ⟨s.dev.rd (.mbxCmd m) 15 0, s.dev.payload m (s.dev.rd (.mbxCmd m) 36 16)⟩ ∧
      (∀ k, k ≠ m.val → tget t.mgmt.submitted k = tget s.dev.mgmt.submitted k) ∧ t.mgmt.bg = s.dev.mgmt.bg ∧
      (∀ r : Reg, r ≠ .mbxCtl m → r.show = false → t.reg r = s.dev.reg r) ∧ t.pool = s.dev.pool ∧ t.dir = s.dev.dir ∧ t.sw = s.dev.sw ∧
      t.svc = s.dev.svc ∧ t.port = s.dev.port ∧ t.link = s.dev.link ∧ t.sec = s.dev.sec ∧
      ∀ p op rc v l, .cmdDone p op rc v l ∈ t.out → .cmdDone p op rc v l ∈ s.dev.out) ∧
  (∀ (m : Fin 65) (s : State), s.dev.bitOf (.mbxCtl m) 0 = false → s.dev.aoOnly = false → s.dev.domState domMgt = 0 →
    4096 < s.dev.rd (.mbxCmd m) 36 16 → s.dev.serves (if h : m.val < 64 then .pool ⟨m.val, h⟩ else .fm) (s.dev.rd (.mbxCmd m) 15 0) = true →
    yields (.mailboxDoorbell m) s fun t => t.bitOf (.mbxCtl m) 0 = false ∧ t.rd (.mbxStatus m) 47 32 = 2 ∧ t.rd (.mbxCmd m) 36 16 = 0 ∧
      t.pool = s.dev.pool ∧ t.dir = s.dev.dir ∧ t.sec = s.dev.sec) ∧
  (∀ (m : Fin 65) (s : State), s.dev.bitOf (.mbxCtl m) 0 = true ∨ s.dev.aoOnly = true ∨ 2 < s.dev.domState domMgt →
    exec (.mailboxDoorbell m) s = .next (s.onto s.dev)) ∧
  (∀ (eid : Nat) (cci : Bool) (opcode : BitVec 16) (length : Nat) (s : State), s.dev.busUp = true →
    s.dev.serves (.mctp eid) opcode.toNat = true → (eid, if cci then 1 else 0) ∉ s.dev.mgmt.mctpBusy →
    mctpType opcode.toNat = (if cci then 1 else 0) → length ≤ 4096 → (cci = true → (cmdClass opcode.toNat).isSome = true ∨ 0xCFFF < opcode.toNat) →
    s.dev.domState domMgt = 0 →
    yields (.mctpRequest eid cci opcode length) s fun t =>
      t.mgmt = { s.dev.mgmt with mctpBusy := s.dev.mgmt.mctpBusy ++ [(eid, if cci then 1 else 0)] } ∧
      (∀ p op rc v l, .cmdDone p op rc v l ∈ t.out → .cmdDone p op rc v l ∈ s.dev.out) ∧
      t.pool = s.dev.pool ∧ t.dir = s.dev.dir) ∧
  (∀ (eid : Nat) (cci : Bool) (opcode : BitVec 16) (length : Nat) (s : State), s.dev.busUp = true →
    s.dev.serves (.mctp eid) opcode.toNat = true → (eid, if cci then 1 else 0) ∈ s.dev.mgmt.mctpBusy → s.dev.domState domMgt = 0 →
    yields (.mctpRequest eid cci opcode length) s fun t =>
      .cmdDone (.mctp eid) opcode.toNat 4 0 [] ∈ t.out ∧ t.mgmt = s.dev.mgmt) ∧
  (∀ (eid : Nat) (cci : Bool) (opcode : BitVec 16) (length : Nat) (s : State), s.dev.busUp = true → s.dev.mctpServed opcode.toNat = true →
    (eid, if cci then 1 else 0) ∉ s.dev.mgmt.mctpBusy → mctpType opcode.toNat = (if cci then 1 else 0) → length ≤ 4096 →
    (cci = true → (cmdClass opcode.toNat).isSome = true ∨ 0xCFFF < opcode.toNat) →
    yields (.mctpRequest eid cci opcode length) s fun t =>
      t.mgmt = { s.dev.mgmt with mctpBusy := s.dev.mgmt.mctpBusy ++ [(eid, if cci then 1 else 0)] } ∧
      t.pwr = (s.dev.wake domMgt).pwr ∧ (∀ r : Reg, r.show = false → t.reg r = s.dev.reg r) ∧ t.pool = s.dev.pool ∧ t.dir = s.dev.dir ∧
      ∀ p op rc v l, .cmdDone p op rc v l ∈ t.out → .cmdDone p op rc v l ∈ s.dev.out) ∧
  (∀ (eid : Nat) (cci : Bool) (opcode : BitVec 16) (length rc : Nat) (s : State), s.dev.busUp = true → s.dev.mctpServed opcode.toNat = true →
    ((eid, if cci then 1 else 0) ∈ s.dev.mgmt.mctpBusy ∧ rc = 4) ∨
      ((eid, if cci then 1 else 0) ∉ s.dev.mgmt.mctpBusy ∧ mctpType opcode.toNat ≠ (if cci then 1 else 0) ∧ rc = 3) ∨
      ((eid, if cci then 1 else 0) ∉ s.dev.mgmt.mctpBusy ∧ mctpType opcode.toNat = (if cci then 1 else 0) ∧
        (4096 < length ∧ rc = 2 ∨ length ≤ 4096 ∧ 0xC000 ≤ opcode.toNat ∧ opcode.toNat ≤ 0xCFFF ∧ cmdClass opcode.toNat = none ∧ rc = 3)) →
    exec (.mctpRequest eid cci opcode length) s = .next (s.onto
      (((s.dev.wake domMgt).emit (.cmdDone (.mctp eid) opcode.toNat rc 0 [])).count 36 0x9000 1))) ∧
  (∀ (eid : Nat) (cci : Bool) (opcode : BitVec 16) (length : Nat) (s : State), s.dev.busUp = false ∨ s.dev.mctpServed opcode.toNat = false →
    exec (.mctpRequest eid cci opcode length) s = .next (s.onto s.dev)) ∧
  (∀ (eid : BitVec 8) (s : State), s.dev.busUp = true → s.dev.mgmt.fwUp = true → s.dev.mgmt.warmHeld = false → s.dev.domState domMgt ≤ 3 →
    yields (.mctpControlMessage eid) s fun t => t.mgmt = { s.dev.mgmt with mctpEid := some eid.toNat } ∧ t.pool = s.dev.pool ∧ t.sec = s.dev.sec) ∧
  (∀ (eid : BitVec 8) (s : State),
    s.dev.busUp = false ∨ s.dev.mgmt.fwUp = false ∨ s.dev.mgmt.warmHeld = true ∨ 3 < s.dev.domState domMgt →
    exec (.mctpControlMessage eid) s = .next (s.onto s.dev)) ∧
  (∀ (addr : BitVec 7) (s : State), s.dev.busUp = true → s.dev.mgmt.i3cBus = true →
    yields (.i3cDynamicAddressAssignment true addr) s fun t => t.mgmt = { s.dev.mgmt with i3cBridge := some addr.toNat }) ∧
  (∀ (addr : BitVec 7) (s : State), s.dev.busUp = true → s.dev.mgmt.i3cBus = true → s.dev.mgmt.fwUp = true →
    yields (.i3cDynamicAddressAssignment false addr) s fun t => t.mgmt = { s.dev.mgmt with i3cMctp := some addr.toNat }) ∧
  (∀ (bridge : Bool) (addr : BitVec 7) (s : State),
    s.dev.mgmt.i3cBus = false ∨ s.dev.busUp = false ∨ (bridge = false ∧ s.dev.mgmt.fwUp = false) →
    exec (.i3cDynamicAddressAssignment bridge addr) s = .next (s.onto s.dev)) ∧
  (∀ (path : Path) (b : BgOp) (rc vendor : Nat) (s : State), tget s.dev.mgmt.bg path = some b → b.result = some (rc, vendor) →
    s.dev.serves path 0 = true → s.dev.inWindow = false → (∀ what p, s.dev.sec.zeroize = some (what, p) → p ≠ path ∨ what = 0) →
    yields (.backgroundOperationEnd path) s fun t =>
      tget t.mgmt.bg path = none ∧ tget t.mgmt.bgLast path = some (b.opcode, rc, vendor) ∧
      (∀ m, mailboxOf path = some m → t.rd (.mbxBgStatus m) 47 32 = rc % 2 ^ 16 ∧ t.rd (.mbxBgStatus m) 63 48 = vendor % 2 ^ 16 ∧
        t.rd (.mbxBgStatus m) 22 16 = 100 ∧ t.rd (.mbxBgStatus m) 15 0 = b.opcode % 2 ^ 16 ∧ t.bitOf (.mbxStatus m) 0 = false ∧
        ∀ w, t.reg (.mbxPayload m w) = s.dev.reg (.mbxPayload m w)) ∧ s.dev.onlyRead t) ∧
  (∀ (path : Path) (s : State),
    (∀ b, tget s.dev.mgmt.bg path = some b → b.result = none) ∨ s.dev.serves path 0 = false ∨ s.dev.inWindow = true →
    exec (.backgroundOperationEnd path) s = .next (s.onto s.dev)) ∧
  (∀ (path : Path) (what : Nat) (b : BgOp) (r : Nat × Nat) (s : State), tget s.dev.mgmt.bg path = some b → b.result = some r →
    s.dev.serves path 0 = true → s.dev.inWindow = false → s.dev.sec.zeroize = some (what, path) → what ≠ 0 →
    exec (.backgroundOperationEnd path) s = .next (s.onto (s.dev.fullEnds path what)))

/-- GET_INFO answers the device's information, and refuses input. REG_READ answers the register's value, or that access is denied.
LOG_READ answers the records of its log from a sequence number on, with the counts. LOG_CLEAR that names the newest record empties that
log and leaves the others; naming another it is refused. (R292, R293, R298, R299.) -/
def Obligations.InformationRegistersAndLogsAreRead : Prop :=
  (∀ (path : Path) (s : State), s.dev.takesStoluo path 0xC000 →
    yields (.getInfo path []) s fun t => t.replied path 0xC000 0 0 s.dev.infoBytes ∧ s.dev.onlyRead t) ∧
  (∀ (path : Path) (input : List Byte) (s : State), s.dev.takesStoluo path 0xC000 → input ≠ [] →
    yields (.getInfo path input) s fun t => t.replied path 0xC000 2 0 [] ∧ s.dev.onlyRead t) ∧
  (∀ (path : Path) (input : List Byte) (d1 d2 : Dev) (v : Word) (s : State), s.dev.takesStoluo path 0xC001 → regReadForm input = true →
    s.dev.regCheckAs .firmware (some (s.dev.regReader path)) (field input 0 4) (field input 4 1) false = (.ok, d1) →
    d1.regRead .firmware (field input 0 4) (field input 4 1) = (v, d2) →
    exec (.regRead path input) s = .next (s.onto (d2.complete path 0xC001 0 0 (toBytes 8 v.toNat)))) ∧
  (∀ (path : Path) (input : List Byte) (d1 : Dev) (s : State), s.dev.takesStoluo path 0xC001 → regReadForm input = true →
    s.dev.regCheckAs .firmware (some (s.dev.regReader path)) (field input 0 4) (field input 4 1) false = (.denied, d1) →
    yields (.regRead path input) s fun t => t.replied path 0xC001 6 0 []) ∧
  (∀ (path : Path) (id : Fin 3) (start count : Nat) (s : State), s.dev.takesStoluo path 0xC040 → start < 2 ^ 32 → 1 ≤ count → count ≤ 127 →
    let input := [BitVec.ofNat 8 id.val, 0, 0, 0] ++ toBytes 4 start ++ toBytes 2 count ++ [0, 0]
    let l := ((s.dev.logOf id).1.filter fun r => decide (start ≤ r.1)).take count
    yields (.logRead path input) s fun t => s.dev.onlyRead t ∧ t.replied path 0xC040 0 0
      (toBytes 4 l.length ++ toBytes 4 (s.dev.logOf id).2.1 ++ toBytes 4 (min (s.dev.logOf id).2.2 (2 ^ 32 - 1)) ++ [0, 0, 0, 0] ++
        l.flatMap (·.2))) ∧
  (∀ (path : Path) (s : State), s.dev.takesStoluo path 0xC041 → s.dev.dir.lostLog.seq < 2 ^ 32 → 1 ≤ s.dev.dir.lostLog.seq →
    yields (.logClear path ([0, 0, 0, 0] ++ toBytes 4 (s.dev.dir.lostLog.seq - 1))) s fun t => t.replied path 0xC041 0 0 [] ∧
      t.dir = { s.dev.dir with lostLog := .empty _ } ∧ t.flt.log = s.dev.flt.log ∧ t.flt.retirement = s.dev.flt.retirement ∧ t.fab = s.dev.fab ∧ t.pool = s.dev.pool) ∧
  (∀ (path : Path) (s : State), s.dev.takesStoluo path 0xC041 → s.dev.flt.log.seq < 2 ^ 32 → 1 ≤ s.dev.flt.log.seq →
    yields (.logClear path ([1, 0, 0, 0] ++ toBytes 4 (s.dev.flt.log.seq - 1))) s fun t => t.replied path 0xC041 0 0 [] ∧
      t.flt.log = .empty _ ∧ t.bitOf .faultStat 26 = false ∧ t.flt.retirement = s.dev.flt.retirement ∧ t.dir = s.dev.dir ∧
      t.fab = s.dev.fab) ∧
  (∀ (path : Path) (s : State), s.dev.takesStoluo path 0xC041 → s.dev.fab.log.seq < 2 ^ 32 → 1 ≤ s.dev.fab.log.seq →
    yields (.logClear path ([2, 0, 0, 0] ++ toBytes 4 (s.dev.fab.log.seq - 1))) s fun t => t.replied path 0xC041 0 0 [] ∧
      t.fab = { s.dev.fab with log := .empty _ } ∧ t.flt.log = s.dev.flt.log ∧ t.flt.retirement = s.dev.flt.retirement ∧ t.dir = s.dev.dir) ∧
  (∀ (path : Path) (id : Fin 3) (last : Nat) (s : State), s.dev.takesStoluo path 0xC041 → last < 2 ^ 32 →
    (last + 1) % 2 ^ 32 ≠ (s.dev.logOf id).2.1 →
    yields (.logClear path ([BitVec.ofNat 8 id.val, 0, 0, 0] ++ toBytes 4 last)) s fun t =>
      t.replied path 0xC041 7 0 [] ∧ s.dev.onlyRead t ∧ t.flt.log = s.dev.flt.log)

/-- An OOB_READ while the bus is down has no effect; of a bad address or one that is denied it answers so; of a block not held it starts a
fetch in a free slot, or answers that none is; of a block held it delivers the value. A fetch reads each register at its own width. An
OOB_WRITE writes the register and drops the block's slot. OOB_RESULT sends status, address and data and clears the status. A held block
expires. While the bus is up, MCTP messages and address assignments are taken. (R301, R302, R303, R304, R420, R283, R287.) -/
def Obligations.TheBridgeFetchesReadsAndWrites : Prop :=
  (∀ (addr : BitVec 32) (s : State), s.dev.busUp = false → exec (.oobRead addr) s = .next (s.onto s.dev)) ∧
  (∀ (addr : BitVec 32) (s : State), s.dev.busUp = true → oobGood addr = false →
    exec (.oobRead addr) s = .next (s.onto (s.dev.oobAnswer 6 addr none))) ∧
  (∀ (addr : BitVec 32) (d1 : Dev) (s : State), s.dev.busUp = true → oobGood addr = true →
    s.dev.regCheck .oob (oobOffset addr) (oobWidth addr) false = (.denied, d1) →
    exec (.oobRead addr) s = .next (s.onto (d1.oobAnswer 5 addr none))) ∧
  (∀ (addr : BitVec 32) (d1 : Dev) (s : State), s.dev.busUp = true → oobGood addr = true →
    s.dev.regCheck .oob (oobOffset addr) (oobWidth addr) false = (.ok, d1) → s.dev.mgmt.oobSlots = [] →
    yields (.oobRead addr) s fun t => t.mgmt.oobSlots = [⟨oobOffset addr / 64, none, false⟩] ∧ t.mgmt.oobResult.status = 2 ∧
      t.mgmt.oobResult.addr = addr.toNat ∧ d1.onlyRead t) ∧
  (∀ (addr : BitVec 32) (d1 : Dev) (s : State), s.dev.busUp = true → oobGood addr = true →
    s.dev.regCheck .oob (oobOffset addr) (oobWidth addr) false = (.ok, d1) → s.dev.mgmt.oobSlots.length = 4 →
    (∀ x ∈ s.dev.mgmt.oobSlots, x.block ≠ oobOffset addr / 64 ∧ x.delivered = false) →
    yields (.oobRead addr) s fun t => t.mgmt.oobSlots = s.dev.mgmt.oobSlots ∧ t.mgmt.oobResult.status = 3 ∧ d1.onlyRead t) ∧
  (∀ (addr : BitVec 32) (d1 : Dev) (x : OobSlot) (words : List (BitVec 32)) (s : State), s.dev.busUp = true → oobGood addr = true →
    s.dev.regCheck .oob (oobOffset addr) (oobWidth addr) false = (.ok, d1) → oobFresh addr = false →
    (s.dev.mgmt.oobSlots.find? fun y => decide (y.block = oobOffset addr / 64)) = some x → x.words = some words →
    yields (.oobRead addr) s fun t => t.mgmt.oobResult = ⟨1, addr.toNat, slotValue words (oobOffset addr) (oobWidth addr)⟩ ∧
      t.mgmt.oobSlots = (s.dev.mgmt.oobSlots.map fun (y : OobSlot) =>
        if y.block = oobOffset addr / 64 then { y with delivered := true } else y) ∧ d1.onlyRead t) ∧
  (∀ (addr : BitVec 32) (v : Word) (d1 : Dev) (s : State), s.dev.busUp = true → oobGood addr = true →
    s.dev.regCheck .oob (oobOffset addr) (oobWidth addr) true = (.ok, d1) →
    exec (.oobWrite addr v) s = .next (s.onto
      (((d1.regWrite .oob (oobOffset addr) (oobWidth addr) v).dropSlots fun x => decide (x.block = oobOffset addr / 64)).oobAnswer 8 addr none))) ∧
  (∀ (addr : BitVec 32) (v : Word) (s : State), s.dev.busUp = true → oobGood addr = false →
    exec (.oobWrite addr v) s = .next (s.onto (s.dev.oobAnswer 6 addr none))) ∧
  (∀ s : State, s.dev.busUp = true → yields .oobResult s fun t =>
    s.dev.out ++ [.bridge 0xA2 (toBytes 1 s.dev.mgmt.oobResult.status ++ toBytes 4 s.dev.mgmt.oobResult.addr ++
      toBytes 8 s.dev.mgmt.oobResult.data.toNat)] <+: t.out ∧ t.mgmt.oobResult.status = 0 ∧ t.mgmt.oobSlots = s.dev.mgmt.oobSlots ∧ s.dev.onlyRead t) ∧
  (∀ (block : Nat) (s : State), (∀ y ∈ s.dev.mgmt.oobSlots, y.block = block → y.words ≠ none) →
    exec (.oobFetchComplete block) s = .next (s.onto s.dev)) ∧
  (∀ (block : Nat) (s : State), (∃ y ∈ s.dev.mgmt.oobSlots, y.block = block ∧ y.words = none) →
    yields (.oobFetchComplete block) s fun t => ∃ words : List (BitVec 32), words.length = 16 ∧
      t.mgmt.oobSlots = (s.dev.mgmt.oobSlots.map fun (y : OobSlot) => if y.block = block then { y with words := some words } else y) ∧
      (∀ k < 16, ∀ r rest, s.dev.regsMet .oob (64 * block + 4 * k) 4 = r :: rest → (s.dev.reachHeld r.layout.held).1 = true →
        words[k]? = some (BitVec.ofNat 32 (if r.layout.width = 64 ∧ (s.dev.regAt .oob (64 * block + 4 * k)).isNone
          then (s.dev.reg r).toNat / 2 ^ 32 else (s.dev.reg r).toNat % 2 ^ 32))) ∧ s.dev.onlyRead t) ∧
  (∀ (block : Nat) (s : State), yields (.oobSlotExpiry block) s fun t =>
    t.mgmt.oobSlots = (s.dev.mgmt.oobSlots.filter fun y => !(decide (y.block = block) && y.words.isSome)) ∧ s.dev.onlyRead t) ∧
  (∀ (bridge : Bool) (addr : BitVec 7) (s : State), s.dev.busUp = true → s.dev.mgmt.i3cBus = true → bridge = true ∨ s.dev.mgmt.fwUp = true →
    yields (.i3cDynamicAddressAssignment bridge addr) s fun t =>
      (bridge = true → t.mgmt.i3cBridge = some addr.toNat ∧ t.mgmt.i3cMctp = s.dev.mgmt.i3cMctp) ∧
      (bridge = false → t.mgmt.i3cMctp = some addr.toNat ∧ t.mgmt.i3cBridge = s.dev.mgmt.i3cBridge)) ∧
  (∀ (eid : BitVec 8) (s : State), s.dev.busUp = true → s.dev.mgmt.fwUp = true → s.dev.mgmt.warmHeld = false → s.dev.domState domMgt ≤ 3 →
    yields (.mctpControlMessage eid) s fun t => t.mgmt.mctpEid = some eid.toNat ∧ t.mgmt.i3cMctp = s.dev.mgmt.i3cMctp ∧
      t.mgmt.oobSlots = s.dev.mgmt.oobSlots) ∧
  (∀ (eid : Nat) (cci : Bool) (opcode : BitVec 16) (length : Nat) (s : State), s.dev.busUp = true → s.dev.mctpServed opcode.toNat = true →
    yields (.mctpRequest eid cci opcode length) s fun t => t.mgmt.oobSlots = s.dev.mgmt.oobSlots ∧
      ((eid, if cci then 1 else 0) ∈ t.mgmt.mctpBusy ∨ ∃ rc, .cmdDone (.mctp eid) opcode.toNat rc 0 [] ∈ t.out))

/-- START erases the spare slot and marks it unverified; it is BUSY while the target moves or activates. DATA is taken only at the next
offset, aligned and within the slot. END puts the image in the slot and, in the background, verifies it or fails with the code of its
error. ABORT erases what was written. Each without a transfer is a state conflict. (R312.) -/
def Obligations.TransfersWriteTheSpareSlot : Prop :=
  (∀ (path : Path) (input : List Byte) (s : State), s.dev.takesStoluo path 0xC050 → transferForm input = true →
    tget s.dev.mgmt.imageMove (field input 1 1) = none → (field input 1 1 = 0 → s.dev.mgmt.activation = none) →
    let t0 := field input 1 1
    yields (.fwTransferStart path input) s fun t => t.replied path 0xC050 0 0 [] ∧ tget t.mgmt.transfers t0 = some ⟨0, []⟩ ∧
      tget t.mgmt.flash (t0, s.dev.spareSlot t0) = none ∧ (t0, s.dev.spareSlot t0) ∉ t.mgmt.verified ∧
      (∀ x, x ≠ (t0, s.dev.spareSlot t0) → tget t.mgmt.flash x = tget s.dev.mgmt.flash x) ∧ t.mgmt.inUse = s.dev.mgmt.inUse ∧ s.dev.onlyRead t) ∧
  (∀ (path : Path) (input : List Byte) (s : State), s.dev.takesStoluo path 0xC050 → transferForm input = true →
    (tget s.dev.mgmt.imageMove (field input 1 1)).isSome = true ∨ (field input 1 1 = 0 ∧ s.dev.mgmt.activation.isSome = true) →
    yields (.fwTransferStart path input) s fun t => t.replied path 0xC050 4 0 [] ∧ s.dev.onlyRead t ∧ t.mgmt.flash = s.dev.mgmt.flash) ∧
  (∀ (path : Path) (input : List Byte) (x : Transfer) (s : State), s.dev.takesStoluo path 0xC050 → transferDataForm input = true →
    tget s.dev.mgmt.transfers (field input 1 1) = some x → field input 4 4 % 16 = 0 → field input 4 4 = x.next →
    x.next + (input.length - 16) ≤ slotBytes (field input 1 1) →
    yields (.fwTransferData path input) s fun t => t.replied path 0xC050 0 0 [] ∧
      tget t.mgmt.transfers (field input 1 1) = some ⟨x.next + (input.length - 16), (x.header ++ input.drop 16).take 256⟩ ∧
      t.mgmt.flash = s.dev.mgmt.flash ∧ s.dev.onlyRead t) ∧
  (∀ (path : Path) (input : List Byte) (x : Transfer) (s : State), s.dev.takesStoluo path 0xC050 → transferDataForm input = true →
    tget s.dev.mgmt.transfers (field input 1 1) = some x → field input 4 4 % 16 ≠ 0 →
    yields (.fwTransferData path input) s fun t => t.replied path 0xC050 12 0 [] ∧ t.mgmt.transfers = s.dev.mgmt.transfers ∧ s.dev.onlyRead t) ∧
  (∀ (path : Path) (input : List Byte) (x : Transfer) (s : State), s.dev.takesStoluo path 0xC050 → transferDataForm input = true →
    tget s.dev.mgmt.transfers (field input 1 1) = some x → field input 4 4 % 16 = 0 →
    field input 4 4 ≠ x.next ∨ slotBytes (field input 1 1) < field input 4 4 + (input.length - 16) →
    yields (.fwTransferData path input) s fun t => t.replied path 0xC050 2 0 [] ∧ t.mgmt.transfers = s.dev.mgmt.transfers ∧ s.dev.onlyRead t) ∧
  (∀ (path : Path) (input : List Byte) (body : Sys2Proof.Image) (x : Transfer) (s : State), s.dev.takesStoluo path 0xC050 →
    transferForm input = true → tget s.dev.mgmt.transfers (field input 1 1) = some x → tget s.dev.mgmt.bg path = none →
    let t0 := field input 1 1
    let i := imageOf x body
    yields (.fwTransferEnd path input body) s fun t => .cmdDone path 0xC050 1 0 [] ∈ t.out ∧
      tget t.mgmt.transfers t0 = none ∧ tget t.mgmt.flash (t0, s.dev.spareSlot t0) = some i ∧
      (s.dev.imageError t0 i = none → tget t.mgmt.bg path = some ⟨0xC050, some (0, 0)⟩ ∧
        t.mgmt.verified = s.dev.mgmt.verified ++ [(t0, s.dev.spareSlot t0)]) ∧
      (s.dev.imageError t0 i = some 5 → tget t.mgmt.bg path = some ⟨0xC050, some (6, 0)⟩ ∧ t.mgmt.verified = s.dev.mgmt.verified) ∧
      (∀ e, s.dev.imageError t0 i = some e → e ≠ 5 → tget t.mgmt.bg path = some ⟨0xC050, some (8, 0)⟩ ∧ t.mgmt.verified = s.dev.mgmt.verified) ∧
      s.dev.onlyRead t) ∧
  (∀ (path : Path) (input : List Byte) (body : Sys2Proof.Image) (s : State), s.dev.takesStoluo path 0xC050 → transferForm input = true →
    tget s.dev.mgmt.transfers (field input 1 1) = none →
    yields (.fwTransferEnd path input body) s fun t => t.replied path 0xC050 7 0 [] ∧ s.dev.onlyRead t ∧ t.mgmt.flash = s.dev.mgmt.flash) ∧
  (∀ (path : Path) (input : List Byte) (x : Transfer) (s : State), s.dev.takesStoluo path 0xC050 → transferForm input = true →
    tget s.dev.mgmt.transfers (field input 1 1) = some x →
    let t0 := field input 1 1
    yields (.fwTransferAbort path input) s fun t => t.replied path 0xC050 0 0 [] ∧ tget t.mgmt.transfers t0 = none ∧
      tget t.mgmt.flash (t0, s.dev.spareSlot t0) = none ∧
      (∀ y, y ≠ (t0, s.dev.spareSlot t0) → tget t.mgmt.flash y = tget s.dev.mgmt.flash y) ∧ s.dev.onlyRead t) ∧
  (∀ (path : Path) (input : List Byte) (s : State), s.dev.takesStoluo path 0xC050 → transferForm input = true →
    tget s.dev.mgmt.transfers (field input 1 1) = none →
    yields (.fwTransferAbort path input) s fun t => t.replied path 0xC050 7 0 [] ∧ s.dev.onlyRead t ∧ t.mgmt.flash = s.dev.mgmt.flash)

/-- MODE 0 marks a verified slot preferred and on trial (firmware) or in use (BCB). MODE 1 starts a live activation of firmware, which
ends by running the new image or, at its timeout, by restoring the directory; for a service image it moves each engine. Without a
verified slot each is a state conflict. FW_COMMIT sets the target's counter to the SVN, revokes lower image keys and ends a trial; with
no image in use it is a state conflict. (R313, R314, R339, R340.) -/
def Obligations.ImagesAreActivatedAndCommitted : Prop :=
  (∀ (path : Path) (s : State), s.dev.takesStoluo path 0xC051 → s.dev.mgmt.activation = none → tget s.dev.mgmt.transfers 0 = none →
    (0, s.dev.spareSlot 0) ∈ s.dev.mgmt.verified →
    yields (.fwActivateNextReset path [0, 0, 0, 0]) s fun t => t.replied path 0xC051 0 0 [] ∧ t.mgmt.preferred = s.dev.spareSlot 0 ∧
      t.mgmt.trial = true ∧ t.mgmt.bcbSlot = s.dev.mgmt.bcbSlot ∧ t.mgmt.inUse = s.dev.mgmt.inUse ∧ t.mgmt.flash = s.dev.mgmt.flash ∧
      s.dev.onlyRead t) ∧
  (∀ (path : Path) (s : State), s.dev.takesStoluo path 0xC051 → tget s.dev.mgmt.transfers 3 = none →
    (3, s.dev.spareSlot 3) ∈ s.dev.mgmt.verified →
    yields (.fwActivateNextReset path [3, 0, 0, 0]) s fun t => t.replied path 0xC051 0 0 [] ∧ t.mgmt.bcbSlot = s.dev.spareSlot 3 ∧
      t.mgmt.preferred = s.dev.mgmt.preferred ∧ t.mgmt.trial = s.dev.mgmt.trial ∧ t.mgmt.inUse = s.dev.mgmt.inUse ∧ s.dev.onlyRead t) ∧
  (∀ (path : Path) (input : List Byte) (s : State), s.dev.takesStoluo path 0xC051 → activateForm input false = true →
    (field input 0 1 = 0 → s.dev.mgmt.activation = none) → tget s.dev.mgmt.transfers (field input 0 1) = none →
    (field input 0 1, s.dev.spareSlot (field input 0 1)) ∉ s.dev.mgmt.verified →
    yields (.fwActivateNextReset path input) s fun t => t.replied path 0xC051 7 0 [] ∧ s.dev.onlyRead t) ∧
  (∀ (path : Path) (s : State), s.dev.serves path 0xC051 = true → s.dev.refusal path 0xC051 true = none → s.dev.mgmt.activation = none →
    tget s.dev.mgmt.imageMove 0 = none → tget s.dev.mgmt.transfers 0 = none → tget s.dev.mgmt.bg path = none →
    (0, s.dev.spareSlot 0) ∈ s.dev.mgmt.verified →
    yields (.fwActivateLive path [0, 1, 0, 0]) s fun t => .cmdDone path 0xC051 1 0 [] ∈ t.out ∧ t.inWindow = true ∧
      t.mgmt.activation = some ⟨path, s.dev.spareSlot 0, true, s.dev.mgmt.preferred, s.dev.mgmt.trial⟩ ∧
      t.mgmt.preferred = s.dev.spareSlot 0 ∧ t.mgmt.trial = true ∧ t.mgmt.inUse = s.dev.mgmt.inUse ∧ s.dev.onlyRead t) ∧
  (∀ (path : Path) (target : Nat) (s : State), target = 1 ∨ target = 2 → s.dev.serves path 0xC051 = true →
    s.dev.refusal path 0xC051 true = none → s.dev.mgmt.activation = none → tget s.dev.mgmt.imageMove target = none →
    tget s.dev.mgmt.transfers target = none → (target, s.dev.spareSlot target) ∈ s.dev.mgmt.verified →
    (∀ e < 256, (s.dev.engine e).image ≠ serviceImage target) →
    exec (.fwActivateLive path [BitVec.ofNat 8 target, 1, 0, 0]) s = .next (s.onto
      ((s.dev.imageMoved target (s.dev.spareSlot target)).finish path 0xC051 0))) ∧
  (∀ (path : Path) (target : Nat) (e : Nat) (s : State), target = 1 ∨ target = 2 → s.dev.serves path 0xC051 = true →
    s.dev.refusal path 0xC051 true = none → s.dev.mgmt.activation = none → tget s.dev.mgmt.imageMove target = none →
    tget s.dev.mgmt.transfers target = none → (target, s.dev.spareSlot target) ∈ s.dev.mgmt.verified → tget s.dev.mgmt.bg path = none →
    e < 256 → (s.dev.engine e).image = serviceImage target →
    yields (.fwActivateLive path [BitVec.ofNat 8 target, 1, 0, 0]) s fun t =>
      tget t.mgmt.imageMove target = some (s.dev.spareSlot target, path) ∧ tget t.mgmt.bg path = some ⟨0xC051, none⟩ ∧
      (t.engine e).move = some (((tget s.dev.mgmt.flash (target, s.dev.spareSlot target)).map (·.version)).getD 0) ∧
      (t.engine e).version = (s.dev.engine e).version ∧ t.mgmt.inUse = s.dev.mgmt.inUse ∧ .cmdDone path 0xC051 1 0 [] ∈ t.out) ∧
  (∀ (path : Path) (input : List Byte) (s : State), s.dev.serves path 0xC051 = true → s.dev.refusal path 0xC051 true = none →
    activateForm input true = true → s.dev.mgmt.activation = none → tget s.dev.mgmt.imageMove (field input 0 1) = none →
    tget s.dev.mgmt.transfers (field input 0 1) = none →
    (field input 0 1, s.dev.spareSlot (field input 0 1)) ∉ s.dev.mgmt.verified →
    yields (.fwActivateLive path input) s fun t => t.replied path 0xC051 7 0 [] ∧ s.dev.onlyRead t) ∧
  (∀ (a : Activation) (i : Sys2Proof.Image) (s : State), s.dev.mgmt.activation = some a → tget s.dev.mgmt.flash (0, a.slot) = some i → a.slot < 2 →
    yields .liveActivationTakeover s fun t => t.mgmt.activation = none ∧ t.mgmt.fwVersion = i.version ∧ t.mgmt.fwSvn = i.svn ∧
      tget t.mgmt.inUse 0 = some a.slot ∧ t.rd .oobBoot 27 27 = a.slot ∧ t.bitOf .oobBoot 26 = true ∧
      t.mgmt.preferred = s.dev.mgmt.preferred ∧ t.pool = s.dev.pool ∧ t.dir = s.dev.dir ∧
      (∀ b, tget s.dev.mgmt.bg a.path = some b → tget t.mgmt.bg a.path = some { b with result := some (0, 0) })) ∧
  (∀ (a : Activation) (s : State), s.dev.mgmt.activation = some a →
    yields .liveActivationTimeout s fun t => t.mgmt.activation = none ∧ t.mgmt.preferred = a.preferred ∧ t.mgmt.trial = a.trial ∧
      t.mgmt.fwVersion = s.dev.mgmt.fwVersion ∧ t.mgmt.inUse = s.dev.mgmt.inUse ∧ t.pool = s.dev.pool ∧ t.dir = s.dev.dir ∧
      (∀ b, tget s.dev.mgmt.bg a.path = some b → tget t.mgmt.bg a.path = some { b with result := some (10, 0) })) ∧
  (∀ s : State, s.dev.mgmt.activation = none → exec .liveActivationTakeover s = .next (s.onto s.dev) ∧
    exec .liveActivationTimeout s = .next (s.onto s.dev)) ∧
  (∀ (path : Path) (target : Fin 4) (slot : Nat) (i : Sys2Proof.Image) (s : State), s.dev.takesStoluo path 0xC052 →
    tget s.dev.mgmt.inUse target.val = some slot → tget s.dev.mgmt.flash (target.val, slot) = some i →
    yields (.fwCommit path [BitVec.ofNat 8 target.val, 0, 0, 0]) s fun t => t.replied path 0xC052 0 0 [] ∧
      t.sec.otp.counters = s.dev.sec.otp.counters.set target i.svn ∧
      (1 ≤ i.keyId → i.keyId ≤ 4 → ∀ k < 4, t.sec.otp.revoked.getD k false = (s.dev.sec.otp.revoked.getD k false || decide (k + 1 < i.keyId))) ∧
      (i.keyId = 0 ∨ 4 < i.keyId → t.sec.otp.revoked = s.dev.sec.otp.revoked) ∧
      (target.val = 0 → t.mgmt.trial = false ∧ t.bitOf .oobBoot 26 = false) ∧ (target.val ≠ 0 → t.mgmt.trial = s.dev.mgmt.trial) ∧
      t.mgmt.flash = s.dev.mgmt.flash ∧ t.sec.otp.lifecycle = s.dev.sec.otp.lifecycle ∧ t.pool = s.dev.pool ∧ t.dir = s.dev.dir) ∧
  (∀ (path : Path) (target : Fin 4) (s : State), s.dev.takesStoluo path 0xC052 → tget s.dev.mgmt.inUse target.val = none →
    yields (.fwCommit path [BitVec.ofNat 8 target.val, 0, 0, 0]) s fun t => t.replied path 0xC052 7 0 [] ∧ s.dev.onlyRead t)

/-- QOS_SET writes a reservation that fits, a class weight, host weights, a shaper, the age limit or the load thresholds; one that does
not fit or is out of range is refused and changes nothing. GATE_LIST_SET writes the idle bank and swaps it, disabled or enabled; a bad
list is refused. MIRROR_SET writes a session where the lifecycle and its checks allow it, and is not permitted in DEPLOYED without the
mark. (R294, R340.) -/
def Obligations.QosGateListsAndMirrorSessionsAreSet : Prop :=
  (∀ (path : Path) (input : List Byte) (e : Entity) (s : State), s.dev.takesStoluo path 0xC018 → qosForm input = true → field input 2 1 = 0 →
    qosEntity (field input 0 1) (field input 1 1) = some e →
    let d := s.dev.setReserve e (BitVec.ofNat 64 (field input 8 8))
    d.reserveOk e = true → d.reserveFits = true → exec (.qosSet path input) s = .next (s.onto (d.showCells.finish path 0xC018 0))) ∧
  (∀ (path : Path) (input : List Byte) (e : Entity) (s : State), s.dev.takesStoluo path 0xC018 → qosForm input = true → field input 2 1 = 0 →
    qosEntity (field input 0 1) (field input 1 1) = some e →
    let d := s.dev.setReserve e (BitVec.ofNat 64 (field input 8 8))
    d.reserveOk e = false ∨ d.reserveFits = false → yields (.qosSet path input) s fun t =>
      t.replied path 0xC018 (if d.reserveOk e then 5 else 2) 0 [] ∧ s.dev.onlyRead t) ∧
  (∀ (path : Path) (input : List Byte) (s : State), s.dev.takesStoluo path 0xC018 → qosForm input = true → field input 2 1 = 1 →
    field input 0 1 = 0 → yields (.qosSet path input) s fun t => t.replied path 0xC018 0 0 [] ∧
      t.reg (.prtClassWeight (field input 1 1)) = BitVec.ofNat 64 (field input 8 8) &&& (Reg.prtClassWeight (field input 1 1)).mask ∧
      ∀ r : Reg, r ≠ .prtClassWeight (field input 1 1) → r.side = false → r.show = false → r.box = false → t.reg r = s.dev.reg r) ∧
  (∀ (path : Path) (input : List Byte) (s : State), s.dev.takesStoluo path 0xC018 → qosForm input = true → field input 2 1 = 1 →
    field input 0 1 = 1 → yields (.qosSet path input) s fun t => t.replied path 0xC018 0 0 [] ∧
      t.reg (.stlClassWeight (field input 1 1)) = BitVec.ofNat 64 (field input 8 8) &&& (Reg.stlClassWeight (field input 1 1)).mask ∧
      ∀ r : Reg, r ≠ .stlClassWeight (field input 1 1) → r.side = false → r.show = false → r.box = false → t.reg r = s.dev.reg r) ∧
  (∀ (path : Path) (input : List Byte) (s : State), s.dev.takesStoluo path 0xC018 → qosForm input = true → field input 2 1 = 2 →
    yields (.qosSet path input) s fun t => t.replied path 0xC018 0 0 [] ∧
      ∀ i < 21, t.reg (.prtHostWeight (field input 1 1) i) =
        BitVec.ofNat 64 (field input (8 + 4 * i) 4) &&& (Reg.prtHostWeight (field input 1 1) i).mask) ∧
  (∀ (path : Path) (input : List Byte) (s : State), s.dev.takesStoluo path 0xC018 → qosForm input = true → field input 2 1 = 3 →
    shapeOk (BitVec.ofNat 64 (field input 8 8)) = true →
    yields (.qosSet path input) s fun t => t.replied path 0xC018 0 0 [] ∧
      t.reg (.prtShape (field input 1 1)) = BitVec.ofNat 64 (field input 8 8) &&& (Reg.prtShape (field input 1 1)).mask) ∧
  (∀ (path : Path) (input : List Byte) (s : State), s.dev.takesStoluo path 0xC018 → qosForm input = true → field input 2 1 = 3 →
    shapeOk (BitVec.ofNat 64 (field input 8 8)) = false →
    yields (.qosSet path input) s fun t => t.replied path 0xC018 2 0 [] ∧ s.dev.onlyRead t) ∧
  (∀ (path : Path) (input : List Byte) (s : State), s.dev.takesStoluo path 0xC018 → qosForm input = true → field input 2 1 = 4 →
    let n := (BitVec.ofNat 64 (field input 8 8)).toNat
    s.dev.ageLimitOk n = true → yields (.qosSet path input) s fun t => t.replied path 0xC018 0 0 [] ∧ t.rd .ageLimit 16 0 = n) ∧
  (∀ (path : Path) (input : List Byte) (s : State), s.dev.takesStoluo path 0xC018 → qosForm input = true → field input 2 1 = 5 →
    yields (.qosSet path input) s fun t => t.replied path 0xC018 0 0 [] ∧
      t.reg .devloadThr = BitVec.ofNat 64 (field input 8 8) &&& Reg.devloadThr.mask) ∧
  (∀ (path : Path) (input : List Byte) (e : Egress) (s : State), s.dev.takesStoluo path 0xC019 → gateForm input = true →
    gateTarget input = some e → (s.dev.writeBank e input).gateListOk e = false →
    yields (.gateListSet path input) s fun t => t.replied path 0xC019 2 0 [] ∧ s.dev.onlyRead t) ∧
  (∀ (path : Path) (input : List Byte) (e : Egress) (s : State), s.dev.takesStoluo path 0xC019 → gateForm input = true →
    gateTarget input = some e → (s.dev.writeBank e input).gateListOk e = true → field input 3 1 = 0 →
    exec (.gateListSet path input) s = .next (s.onto
      ((gclSwap e ((s.dev.writeBank e input).wr (gclCtl e) 31 31 0)).finish path 0xC019 0))) ∧
  (∀ (path : Path) (input : List Byte) (e : Egress) (s : State), s.dev.takesStoluo path 0xC019 → gateForm input = true →
    gateTarget input = some e → (s.dev.writeBank e input).gateListOk e = true → field input 3 1 = 1 →
    (s.dev.writeBank e input).bitOf (gclCtl e) 31 = false →
    exec (.gateListSet path input) s = .next (s.onto
      ((gclSwap e (gclEnable e ((s.dev.writeBank e input).wr (gclCtl e) 31 31 1))).finish path 0xC019 0))) ∧
  (∀ (path : Path) (input : List Byte) (s : State), s.dev.takesStoluo path 0xC01A → mirrorForm input = true →
    let n := field input 0 1
    let d := ((s.dev.setReg (.mirCtl n) (BitVec.ofNat 64 (field input 4 4))).setReg (.mirLo n)
      (BitVec.ofNat 64 (field input 8 8))).setReg (.mirHi n) (BitVec.ofNat 64 (field input 16 8))
    (d.bitOf (.mirCtl n) 31 = true → s.dev.sec.otp.lifecycle = 2 → s.dev.bitOf .secStatus 23 = true) → d.mirrorOk n = true →
    yields (.mirrorSet path input) s fun t => t.replied path 0xC01A 0 0 [] ∧
      t.reg (.mirCtl n) = BitVec.ofNat 64 (field input 4 4) &&& (Reg.mirCtl n).mask ∧
      t.reg (.mirLo n) = BitVec.ofNat 64 (field input 8 8) &&& (Reg.mirLo n).mask ∧
      t.reg (.mirHi n) = BitVec.ofNat 64 (field input 16 8) &&& (Reg.mirHi n).mask ∧ t.pool = s.dev.pool ∧ t.sw = s.dev.sw) ∧
  (∀ (path : Path) (input : List Byte) (s : State), s.dev.takesStoluo path 0xC01A → mirrorForm input = true →
    getBits (BitVec.ofNat 64 (field input 4 4)) 31 31 = 1 → s.dev.sec.otp.lifecycle = 2 → s.dev.bitOf .secStatus 23 = false →
    yields (.mirrorSet path input) s fun t => t.replied path 0xC01A 9 0 [] ∧ s.dev.onlyRead t)

/-- Each standard command answers SUCCESS with the fields that the state gives, in its output format; fields the source leaves to the
standard are open bytes (log entries 20 and 21). They read only, but for the events that CLEAR_EVENT_RECORDS clears and the policy that
SET_EVENT_INTERRUPT_POLICY sets. A bad handle or length is refused. Any other opcode is unsupported. The supported logs and the Command
Effects Log name what the device supports. (R290.) -/
def Obligations.StandardCommandsAnswerFromTheState : Prop :=
  (∀ (p : Fin 64) (s : State), s.dev.takesStandard (.pool p) 0x0001 →
    yields (.identify p) s fun t => t.replied (.pool p) 1 0 0 (s.dev.standardOut 1 18) ∧ s.dev.onlyRead t) ∧
  (∀ (path : Path) (b : BgOp) (s : State), s.dev.takesStandard path 0x0002 → path ≠ .jtag → tget s.dev.mgmt.bg path = some b →
    yields (.backgroundOperationStatus path) s fun t =>
      t.replied path 2 0 0 ([1, 0] ++ toBytes 2 b.opcode ++ [0, 0, 0, 0]) ∧ s.dev.onlyRead t) ∧
  (∀ (path : Path) (op rc v : Nat) (s : State), s.dev.takesStandard path 0x0002 → path ≠ .jtag → tget s.dev.mgmt.bg path = none →
    tget s.dev.mgmt.bgLast path = some (op, rc, v) →
    yields (.backgroundOperationStatus path) s fun t =>
      t.replied path 2 0 0 ([200, 0] ++ toBytes 2 op ++ toBytes 2 rc ++ toBytes 2 v) ∧ s.dev.onlyRead t) ∧
  (∀ (path : Path) (s : State), s.dev.takesStandard path 0x0003 → path ≠ .jtag →
    yields (.getResponseMessageLimit path) s fun t => t.replied path 3 0 0 [12] ∧ s.dev.onlyRead t) ∧
  (∀ (p : Fin 64) (log : Fin 5) (s : State), s.dev.takesStandard (.pool p) 0x0100 →
    let es := (s.dev.eventsOf p log).take 31
    yields (.getEventRecords p log) s fun t => t.replied (.pool p) 0x100 0 0
      (s.dev.standardOut 0x100 20 ++ toBytes 2 es.length ++ zeros 10 ++ es.flatMap fun e => s.dev.standardOut (0x100 + 65536 * e.kind) 16 ++
        toBytes 2 e.handle ++ toBytes 8 e.dpa ++ toBytes 8 e.length ++ toBytes 16 e.tag ++ zeros 78) ∧
      s.dev.onlyRead t ∧ t.mgmt.events = s.dev.mgmt.events) ∧
  (∀ (p : Fin 64) (log : Fin 5) (handles : List Nat) (s : State), s.dev.takesStandard (.pool p) 0x0101 →
    (∀ h ∈ handles, ∃ e ∈ s.dev.eventsOf p log, e.handle = h) →
    yields (.clearEventRecords p log handles) s fun t => t.replied (.pool p) 0x101 0 0 [] ∧
      tgetD t.mgmt.events p.val [] = ((tgetD s.dev.mgmt.events p.val []).filter fun e => !(decide (e.log = log.val) && handles.contains e.handle)) ∧
      (∀ q, q ≠ p.val → tget t.mgmt.events q = tget s.dev.mgmt.events q) ∧ s.dev.onlyRead t) ∧
  (∀ (p : Fin 64) (log : Fin 5) (handles : List Nat) (h : Nat) (s : State), s.dev.takesStandard (.pool p) 0x0101 → h ∈ handles →
    (∀ e ∈ s.dev.eventsOf p log, e.handle ≠ h) →
    yields (.clearEventRecords p log handles) s fun t => t.replied (.pool p) 0x101 0xE 0 [] ∧ t.mgmt.events = s.dev.mgmt.events) ∧
  (∀ (p : Fin 64) (s : State), s.dev.takesStandard (.pool p) 0x0102 →
    yields (.getEventInterruptPolicy p) s fun t => t.replied (.pool p) 0x102 0 0 (tgetD s.dev.mgmt.policies p.val (zeros 5)) ∧ s.dev.onlyRead t) ∧
  (∀ (p : Fin 64) (input : List Byte) (s : State), s.dev.takesStandard (.pool p) 0x0103 → input.length = 5 →
    yields (.setEventInterruptPolicy p input) s fun t => t.replied (.pool p) 0x103 0 0 [] ∧ tget t.mgmt.policies p.val = some input ∧
      (∀ q, q ≠ p.val → tget t.mgmt.policies q = tget s.dev.mgmt.policies q) ∧ s.dev.onlyRead t) ∧
  (∀ (p : Fin 64) (input : List Byte) (s : State), s.dev.takesStandard (.pool p) 0x0103 → input.length ≠ 5 →
    yields (.setEventInterruptPolicy p input) s fun t => t.replied (.pool p) 0x103 2 0 [] ∧ t.mgmt.policies = s.dev.mgmt.policies) ∧
  (∀ (p : Fin 64) (s : State), s.dev.takesStandard (.pool p) 0x0200 →
    yields (.getFwInfo p) s fun t => t.replied (.pool p) 0x200 0 0 ([2, BitVec.ofNat 8 (1 + s.dev.rd .oobBoot 27 27)] ++
      s.dev.standardOut 0x200 14 ++ toBytes 16 s.dev.mgmt.fwVersion ++ s.dev.standardOut 0x201 48) ∧ s.dev.onlyRead t) ∧
  (∀ (p : Fin 64) (s : State), s.dev.takesStandard (.pool p) 0x0300 →
    yields (.getTimestamp p) s fun t => t.replied (.pool p) 0x300 0 0 (toBytes 8 s.dev.now) ∧ s.dev.onlyRead t) ∧
  (∀ (p : Fin 64) (input : List Byte) (s : State), s.dev.takesStandard (.pool p) 0x0301 → input.length = 8 →
    yields (.setTimestamp p input) s fun t => t.replied (.pool p) 0x301 0 0 [] ∧ t.reg .ftime = s.dev.reg .ftime ∧ s.dev.onlyRead t) ∧
  (∀ (p : Fin 64) (s : State), s.dev.takesStandard (.pool p) 0x0400 →
    yields (.getSupportedLogs p) s fun t => t.replied (.pool p) 0x400 0 0 
      ([1, 0, 0, 0, 0, 0, 0, 0] ++ s.dev.effectsId ++ toBytes 4 (4 * supportedOpcodes.length)) ∧ s.dev.onlyRead t) ∧
  (∀ d : Dev, d.effectsLog.length = 4 * supportedOpcodes.length ∧ ∀ k op, supportedOpcodes[k]? = some op → field d.effectsLog (4 * k) 2 = op) ∧
  (∀ (p : Fin 64) (input : List Byte) (s : State), s.dev.takesStandard (.pool p) 0x0401 → input.length = 24 →
    input.take 16 = s.dev.effectsId → field input 16 4 + field input 20 4 ≤ 4 * supportedOpcodes.length →
    yields (.getLog p input) s fun t => t.replied (.pool p) 0x401 0 0 (slice s.dev.effectsLog (field input 16 4) (field input 20 4)) ∧
      s.dev.onlyRead t) ∧
  (∀ (p : Fin 64) (input : List Byte) (s : State), s.dev.takesStandard (.pool p) 0x0401 →
    input.length ≠ 24 ∨ input.take 16 ≠ s.dev.effectsId ∨ 4 * supportedOpcodes.length < field input 16 4 + field input 20 4 →
    yields (.getLog p input) s fun t => t.replied (.pool p) 0x401 2 0 [] ∧ s.dev.onlyRead t) ∧
  (∀ (p : Fin 64) (s : State), s.dev.takesStandard (.pool p) 0x4000 →
    yields (.identifyMemoryDevice p) s fun t => t.replied (.pool p) 0x4000 0 0
      (toBytes 16 s.dev.mgmt.fwVersion ++ zeros 24 ++ s.dev.standardOut 0x4000 29) ∧ s.dev.onlyRead t) ∧
  (∀ (p : Fin 64) (s : State), s.dev.takesStandard (.pool p) 0x4100 →
    yields (.getPartitionInfo p) s fun t => t.replied (.pool p) 0x4100 0 0 (zeros 32) ∧ s.dev.onlyRead t) ∧
  (∀ (p : Fin 64) (s : State), s.dev.takesStandard (.pool p) 0x4200 →
    yields (.getHealthInfo p) s fun t => t.replied (.pool p) 0x4200 0 0
      (s.dev.standardOut (0x4200 + 65536 * 65536 * s.dev.healthOf p) 18) ∧ s.dev.onlyRead t) ∧
  (∀ (p : Fin 64) (s : State), s.dev.takesStandard (.pool p) 0x4300 →
    let es := (s.dev.lostLines.flatMap fun l => s.dev.dpasOf p l).take 254
    yields (.getPoisonList p) s fun t => t.replied (.pool p) 0x4300 0 0 (zeros 10 ++ toBytes 2 es.length ++ zeros 20 ++ es.flatMap poisonEntry) ∧
      s.dev.onlyRead t) ∧
  (∀ (p : Fin 64) (s : State), s.dev.takesStandard (.pool p) 0x4800 →
    yields (.getDynamicCapacityConfiguration p) s fun t =>
      t.replied (.pool p) 0x4800 0 0 ([2, 2] ++ zeros 6 ++ (s.dev.regions p).flatMap regionBytes) ∧ s.dev.onlyRead t) ∧
  (∀ (p : Fin 64) (first count : Nat) (s : State), s.dev.takesStandard (.pool p) 0x4801 →
    yields (.getDynamicCapacityExtentList p first count) s fun t =>
      t.replied (.pool p) 0x4801 0 0 (s.dev.extentList p first (min count 100)) ∧ s.dev.onlyRead t) ∧
  (∀ (p : Fin 64) (opcode : BitVec 16) (s : State), s.dev.takesStandard (.pool p) opcode.toNat →
    yields (.unsupportedCxlCommand p opcode) s fun t => t.replied (.pool p) opcode.toNat 3 0 [] ∧ s.dev.onlyRead t)

/-- On the fabric-manager mailbox and on MCTP, the identity, switch, port, virtual-switch and dynamic-capacity queries answer SUCCESS
from the state and change nothing else; a port that is no host port is refused. Any other opcode of the set is unsupported, as is the
set on a pool mailbox. Opcodes and open bytes are those of log entries 20 and 21. (R291.) -/
def Obligations.FabricManagerCommandsAnswerFromTheState : Prop :=
  (∀ (path : Path) (s : State), s.dev.takesStandard path 0x0001 → path = .fm ∨ (∃ e, path = .mctp e) →
    yields (.fmIdentify path) s fun t => t.replied path 1 0 0 (s.dev.standardOut 1 18) ∧ s.dev.onlyRead t) ∧
  (∀ (path : Path) (s : State), s.dev.takesStandard path 0x5100 → path = .fm ∨ (∃ e, path = .mctp e) →
    yields (.identifySwitchDevice path) s fun t => t.replied path 0x5100 0 0
      ([0, 0, 0, 0, BitVec.ofNat 8 ((List.range 64).filter fun p => decide (s.dev.portMode p ≠ 0)).length] ++ s.dev.standardOut 0x5100 68) ∧
      s.dev.onlyRead t) ∧
  (∀ (path : Path) (ports : List (Fin 64)) (s : State), s.dev.takesStandard path 0x5101 → path = .fm ∨ (∃ e, path = .mctp e) →
    yields (.getPhysicalPortState path ports) s fun t => ∃ out : List Byte, t.replied path 0x5101 0 0 out ∧ out.length = 4 + 16 * ports.length ∧
      out[0]? = some (BitVec.ofNat 8 ports.length) ∧ (∀ i p, ports[i]? = some p → out[4 + 16 * i]? = some (BitVec.ofNat 8 p.val)) ∧ s.dev.onlyRead t) ∧
  (∀ (path : Path) (s : State), s.dev.takesStandard path 0x5200 → path = .fm ∨ (∃ e, path = .mctp e) →
    yields (.getVirtualCxlSwitchInfo path) s fun t => t.replied path 0x5200 0 0 (s.dev.standardOut 0x5200 (4 + 8 * s.dev.hostPorts.length)) ∧
      s.dev.onlyRead t) ∧
  (∀ (path : Path) (host : Fin 64) (s : State), s.dev.takesStandard path 0x5600 → path = .fm ∨ (∃ e, path = .mctp e) →
    yields (.getDcdInfo path host) s fun t => (s.dev.portMode host = 1 → t.replied path 0x5600 0 0 ([1, 2] ++ s.dev.standardOut 0x5600 62)) ∧
      (s.dev.portMode host ≠ 1 → t.replied path 0x5600 2 0 []) ∧ s.dev.onlyRead t) ∧
  (∀ (path : Path) (host : Fin 64) (s : State), s.dev.takesStandard path 0x5601 → path = .fm ∨ (∃ e, path = .mctp e) →
    yields (.getHostDcRegionConfiguration path host) s fun t => (s.dev.portMode host = 1 →
        t.replied path 0x5601 0 0 (toBytes 2 host.val ++ [2, 2] ++ zeros 4 ++ (s.dev.regions host).flatMap regionBytes)) ∧
      (s.dev.portMode host ≠ 1 → t.replied path 0x5601 2 0 []) ∧ s.dev.onlyRead t) ∧
  (∀ (path : Path) (host : Fin 64) (first count : Nat) (s : State), s.dev.takesStandard path 0x5603 → path = .fm ∨ (∃ e, path = .mctp e) →
    yields (.getDcRegionExtentLists path host first count) s fun t => (s.dev.portMode host = 1 →
        t.replied path 0x5603 0 0 (toBytes 2 host.val ++ zeros 2 ++ s.dev.extentList host first (min count 100))) ∧
      (s.dev.portMode host ≠ 1 → t.replied path 0x5603 2 0 []) ∧ s.dev.onlyRead t) ∧
  (∀ (path : Path) (opcode : BitVec 16) (s : State), s.dev.takesStandard path opcode.toNat → path = .fm ∨ (∃ e, path = .mctp e) →
    yields (.unsupportedFmApiCommand path opcode) s fun t => t.replied path opcode.toNat 3 0 [] ∧ s.dev.onlyRead t) ∧
  (∀ (p : Fin 64) (s : State), s.dev.takesStandard (.pool p) 0x5100 →
    yields (.identifySwitchDevice (.pool p)) s fun t => t.replied (.pool p) 0x5100 3 0 [] ∧ s.dev.onlyRead t)

/-- ACU_REGION_SET of entries that pass writes each region's four registers and advances the epoch modulo 4, leaving every other region;
entries that do not are refused. ACU_FENCE answers at once when no access of the old epoch lives and else when it has drained.
ACU_VIOLATION_READ answers a record and, asked to, clears it. (R326, R329.) -/
def Obligations.AccessRulesChangeByEpoch : Prop :=
  (∀ (path : Path) (input : List Byte) (s : State), s.dev.takesStoluo path 0xC060 → regionSetForm input = true →
    s.dev.regionRefusal (decide (field input 0 1 = 0)) (regionEntries input) = none →
    let d := s.dev.changeRules (decide (field input 0 1 = 0)) (regionEntries input)
    exec (.acuRegionSet path input) s = .next (s.onto (d.complete path 0xC060 0 0 d.epochBytes))) ∧
  (∀ (path : Path) (input : List Byte) (e : RegionEntry) (s : State), s.dev.takesStoluo path 0xC060 → regionSetForm input = true →
    regionEntries input = [e] → field input 0 1 = 0 → e.region < 256 → s.dev.regionRefusal true [e] = none →
    yields (.acuRegionSet path input) s fun t =>
      t.reg (.pStart e.region) = BitVec.ofNat 64 e.start &&& (Reg.pStart e.region).mask ∧
      t.reg (.pEnd e.region) = BitVec.ofNat 64 e.stop &&& (Reg.pEnd e.region).mask ∧
      t.reg (.pPorts e.region) = BitVec.ofNat 64 e.ports &&& (Reg.pPorts e.region).mask ∧
      t.reg (.pCtl e.region) = regionCtl e &&& (Reg.pCtl e.region).mask ∧ t.acuEpoch = (s.dev.acuEpoch + 1) % 4 ∧
      (∀ r, r ≠ e.region → t.reg (.pCtl r) = s.dev.reg (.pCtl r) ∧ t.reg (.pStart r) = s.dev.reg (.pStart r) ∧
        t.reg (.pEnd r) = s.dev.reg (.pEnd r) ∧ t.reg (.pPorts r) = s.dev.reg (.pPorts r)) ∧
      (∀ r, t.reg (.rCtl r) = s.dev.reg (.rCtl r)) ∧ t.pool = s.dev.pool ∧ t.dir = s.dev.dir) ∧
  (∀ (path : Path) (input : List Byte) (rc : Nat) (s : State), s.dev.takesStoluo path 0xC060 → regionSetForm input = true →
    s.dev.regionRefusal (decide (field input 0 1 = 0)) (regionEntries input) = some rc →
    yields (.acuRegionSet path input) s fun t => t.replied path 0xC060 rc 0 [] ∧ s.dev.onlyRead t) ∧
  (∀ (path : Path) (s : State), s.dev.takesStoluo path 0xC061 → s.dev.acuOldLive = false →
    yields (.acuFence path []) s fun t => t.replied path 0xC061 0 0 (toBytes 1 s.dev.acuEpoch ++ [0, 0, 0]) ∧ s.dev.onlyRead t) ∧
  (∀ (path : Path) (s : State), s.dev.takesStoluo path 0xC061 → s.dev.acuOldLive = true → tget s.dev.mgmt.bg path = none →
    yields (.acuFence path []) s fun t => .cmdDone path 0xC061 1 0 [] ∈ t.out ∧ t.sec.fencePaths = s.dev.sec.fencePaths ++ [path] ∧
      tget t.mgmt.bg path = some ⟨0xC061, none⟩) ∧
  (∀ s : State, s.dev.acuOldLive = false → yields .acuOldEpochDrained s fun t => t.bitOf .acuStatus 29 = false ∧ t.sec.fencePaths = [] ∧
    (∀ p ∈ s.dev.sec.fencePaths, ∀ b, tget s.dev.mgmt.bg p = some b →
      tget t.mgmt.bg p = some { b with result := some (0, s.dev.acuEpoch) }) ∧ t.acuEpoch = s.dev.acuEpoch ∧ t.pool = s.dev.pool) ∧
  (∀ s : State, s.dev.acuOldLive = true → exec .acuOldEpochDrained s = .next (s.onto s.dev)) ∧
  (∀ (path : Path) (v : Fin 17) (s : State), s.dev.takesStoluo path 0xC062 →
    yields (.acuViolationRead path [BitVec.ofNat 8 v.val, 0, 0, 0]) s fun t => s.dev.onlyRead t ∧ t.replied path 0xC062 0 0
      (toBytes 8 (s.dev.reg (.violAddr v)).toNat ++ toBytes 4 (s.dev.reg (.violInfo v)).toNat ++ toBytes 4 (s.dev.reg (.violCount v)).toNat)) ∧
  (∀ (path : Path) (v : Fin 17) (s : State), s.dev.takesStoluo path 0xC062 →
    yields (.acuViolationRead path [BitVec.ofNat 8 v.val, 1, 0, 0]) s fun t =>
      t.reg (.violAddr v) = 0 ∧ t.reg (.violInfo v) = 0 ∧ t.reg (.violCount v) = 0 ∧ t.replied path 0xC062 0 0
      (toBytes 8 (s.dev.reg (.violAddr v)).toNat ++ toBytes 4 (s.dev.reg (.violInfo v)).toNat ++ toBytes 4 (s.dev.reg (.violCount v)).toNat))

/-- LIFECYCLE_SET to PROVISIONED burns the keys and the state; where OTP reads back wrong nothing is burnt and it fails. To DEPLOYED it
needs the owner's BCB and nothing bound. To RMA it needs a challenge for it, the token's key and signature, and then erases before the
state moves; a bad signature ends the challenge. In any other state each is not permitted or a state conflict. (R335.) -/
def Obligations.LifecycleStatesMoveForward : Prop :=
  (∀ (path : Path) (input : List Byte) (s : State), s.dev.takesStoluo path 0xC063 →
    (lifecycleForm input 112 && decide (field input 106 6 = 0)) = true → s.dev.sec.otp.lifecycle = 0 → s.dev.debugLevel = 0 →
    tget s.dev.mgmt.bg path = none →
    yields (.lifecycleSetProvisioned path input true) s fun t => t.sec.otp.lifecycle = 1 ∧ t.rd .secStatus 31 30 = 1 ∧
      t.sec.otp.bcbKey = Machine.slice input 8 49 ∧ t.sec.otp.debugKey = Machine.slice input 57 49 ∧
      t.sec.otp.counters = s.dev.sec.otp.counters ∧ tget t.mgmt.bg path = some ⟨0xC063, some (0, 0)⟩ ∧
      .cmdDone path 0xC063 1 0 [] ∈ t.out ∧ t.pool = s.dev.pool ∧ t.dir = s.dev.dir) ∧
  (∀ (path : Path) (input : List Byte) (s : State), s.dev.takesStoluo path 0xC063 →
    (lifecycleForm input 112 && decide (field input 106 6 = 0)) = true → s.dev.sec.otp.lifecycle = 0 → s.dev.debugLevel = 0 →
    tget s.dev.mgmt.bg path = none →
    yields (.lifecycleSetProvisioned path input false) s fun t => t.sec.otp = s.dev.sec.otp ∧
      tget t.mgmt.bg path = some ⟨0xC063, some (8, 0)⟩ ∧ t.pool = s.dev.pool) ∧
  (∀ (path : Path) (input : List Byte) (otpOk : Bool) (s : State), s.dev.takesStoluo path 0xC063 →
    (lifecycleForm input 112 && decide (field input 106 6 = 0)) = true → s.dev.sec.otp.lifecycle ≠ 0 →
    yields (.lifecycleSetProvisioned path input otpOk) s fun t => t.replied path 0xC063 9 0 [] ∧ s.dev.onlyRead t) ∧
  (∀ (path : Path) (input : List Byte) (s : State), s.dev.takesStoluo path 0xC063 → lifecycleForm input 8 = true →
    s.dev.sec.otp.lifecycle = 1 → s.dev.debugLevel = 0 → s.dev.bcbKeyId = 0x100 → s.dev.anyBound = false → tget s.dev.mgmt.bg path = none →
    yields (.lifecycleSetDeployed path input true) s fun t => t.sec.otp = { s.dev.sec.otp with lifecycle := 2 } ∧
      t.rd .secStatus 31 30 = 2 ∧ tget t.mgmt.bg path = some ⟨0xC063, some (0, 0)⟩ ∧ t.pool = s.dev.pool ∧ t.dir = s.dev.dir) ∧
  (∀ (path : Path) (input : List Byte) (otpOk : Bool) (s : State), s.dev.takesStoluo path 0xC063 → lifecycleForm input 8 = true →
    s.dev.sec.otp.lifecycle = 1 → s.dev.debugLevel = 0 → s.dev.bcbKeyId ≠ 0x100 ∨ s.dev.anyBound = true →
    yields (.lifecycleSetDeployed path input otpOk) s fun t => t.replied path 0xC063 7 0 [] ∧ s.dev.onlyRead t) ∧
  (∀ (path : Path) (input : List Byte) (otpOk : Bool) (c : Challenge) (s : State), s.dev.takesStoluo path 0xC063 →
    (lifecycleForm input 112 && decide (field input 10 6 = 0)) = true → s.dev.sec.otp.lifecycle < 3 → s.dev.debugLevel = 0 →
    s.dev.sec.challenge = some c → c.level = 255 → field input 8 2 = s.dev.tokenKeyId → s.dev.pool.revoking = false →
    s.dev.sec.zeroize = none → tget s.dev.mgmt.bg path = none →
    exec (.lifecycleSetRma path input true otpOk) s = .next (s.onto
      ((s.dev.dropChallenge.bgStart path 0xC063).startZeroize path (if otpOk then 2 else 3) true))) ∧
  (∀ (path : Path) (input : List Byte) (sigOk otpOk : Bool) (c : Challenge) (s : State), s.dev.takesStoluo path 0xC063 →
    (lifecycleForm input 112 && decide (field input 10 6 = 0)) = true → s.dev.sec.otp.lifecycle < 3 → s.dev.debugLevel = 0 →
    s.dev.sec.challenge = some c → c.level = 255 → field input 8 2 = s.dev.tokenKeyId → sigOk = false →
    yields (.lifecycleSetRma path input sigOk otpOk) s fun t => t.replied path 0xC063 8 0 [] ∧ t.sec.challenge = none ∧
      t.sec.otp = s.dev.sec.otp ∧ t.pool = s.dev.pool) ∧
  (∀ (path : Path) (input : List Byte) (sigOk otpOk : Bool) (s : State), s.dev.takesStoluo path 0xC063 →
    (lifecycleForm input 112 && decide (field input 10 6 = 0)) = true → s.dev.sec.otp.lifecycle < 3 → s.dev.debugLevel = 0 →
    (∀ c, s.dev.sec.challenge = some c → c.level ≠ 255) →
    yields (.lifecycleSetRma path input sigOk otpOk) s fun t => t.replied path 0xC063 7 0 [] ∧ s.dev.onlyRead t)

/-- DEBUG_CHALLENGE with a healthy generator records a fresh nonce and answers it with the serial, lifecycle and SVN; it ends at its
expiry. DEBUG_UNLOCK with a good signature opens level 1, or erases and opens level 2; with a bad one, or without a challenge, it fails
and the challenge is gone. DEBUG_LOCK closes debug and runs the core. JTAG core control halts and runs only at level 2, and a held NMI
is given on the run. (R340, R343, R344, R346.) -/
def Obligations.DebugIsUnlockedByChallenge : Prop :=
  (∀ (path : Path) (level : Nat) (s : State), s.dev.takesStoluo path 0xC064 → level = 1 ∨ level = 2 ∨ level = 255 → s.dev.drbgOk = true →
    let nonce : BitVec 256 := Config.freeBits 256 s.dev.free
    yields (.debugChallenge path [BitVec.ofNat 8 level, 0, 0, 0]) s fun t => t.sec.challenge = some ⟨level, nonce⟩ ∧
      t.bitOf .secStatus 25 = true ∧ t.replied path 0xC064 0 0 (toBytes 32 nonce.toNat ++ toBytes 16 s.dev.sec.otp.serial.toNat ++
        toBytes 1 s.dev.sec.otp.lifecycle ++ toBytes 1 level ++ [0, 0] ++ toBytes 4 s.dev.mgmt.fwSvn ++ toBytes 8 0) ∧ t.pool = s.dev.pool) ∧
  (∀ (path : Path) (level : Nat) (s : State), s.dev.takesStoluo path 0xC064 → level = 1 ∨ level = 2 ∨ level = 255 → s.dev.drbgOk = false →
    yields (.debugChallenge path [BitVec.ofNat 8 level, 0, 0, 0]) s fun t => t.replied path 0xC064 5 0 [] ∧ s.dev.onlyRead t) ∧
  (∀ s : State, yields .challengeExpiry s fun t => t.sec = { s.dev.sec with challenge := none } ∧ t.bitOf .secStatus 25 = false ∧
    t.debugLevel = s.dev.debugLevel ∧ t.pool = s.dev.pool ∧ t.mgmt = s.dev.mgmt) ∧
  (∀ (path : Path) (input : List Byte) (c : Challenge) (s : State), s.dev.takesStoluo path 0xC065 → unlockForm input = true →
    s.dev.sec.challenge = some c → c.level = 1 → field input 0 2 = s.dev.debugKeyId →
    exec (.debugUnlock path input true) s = .next (s.onto ((s.dev.dropChallenge.grantDebug 1).finish path 0xC065 0))) ∧
  (∀ (path : Path) (input : List Byte) (c : Challenge) (s : State), s.dev.takesStoluo path 0xC065 → unlockForm input = true →
    s.dev.sec.challenge = some c → c.level = 2 → field input 0 2 = s.dev.debugKeyId → s.dev.pool.revoking = false →
    s.dev.sec.zeroize = none → tget s.dev.mgmt.bg path = none →
    exec (.debugUnlock path input true) s = .next (s.onto ((s.dev.dropChallenge.bgStart path 0xC065).enterDl2 path))) ∧
  (∀ (path : Path) (input : List Byte) (sigOk : Bool) (s : State), s.dev.takesStoluo path 0xC065 → unlockForm input = true →
    (∀ c, s.dev.sec.challenge = some c → c.level = 255) →
    exec (.debugUnlock path input sigOk) s = .next (s.onto (s.dev.dropChallenge.unlockFails path 7))) ∧
  (∀ (path : Path) (input : List Byte) (c : Challenge) (s : State), s.dev.takesStoluo path 0xC065 → unlockForm input = true →
    s.dev.sec.challenge = some c → c.level ≠ 255 → field input 0 2 = s.dev.debugKeyId →
    exec (.debugUnlock path input false) s = .next (s.onto (s.dev.dropChallenge.unlockFails path 8))) ∧
  (∀ (path : Path) (s : State), s.dev.takesStoluo path 0xC066 →
    yields (.debugLock path []) s fun t => t.debugLevel = 0 ∧ t.halted = false ∧ t.sec.challenge = none ∧ t.bitOf .secStatus 25 = false ∧
      t.replied path 0xC066 0 0 [] ∧ t.pool = s.dev.pool ∧ t.dir = s.dev.dir) ∧
  (∀ s : State, s.dev.debugLevel = 2 → yields (.jtagCoreControl 0) s fun t => t.halted = true ∧ t.debugLevel = 2 ∧ t.pool = s.dev.pool ∧
    t.sec = s.dev.sec) ∧
  (∀ s : State, s.dev.debugLevel = 2 → exec (.jtagCoreControl 1) s = .next (s.onto s.dev)) ∧
  (∀ s : State, s.dev.debugLevel = 2 → yields (.jtagCoreControl 2) s fun t => t.halted = false ∧ t.debugLevel = 2 ∧ t.pool = s.dev.pool ∧
    (s.dev.halted = true → s.dev.flt.nmiHeld = true → .firmware 0x201 0 ∈ t.out ∧ t.flt.nmiHeld = false)) ∧
  (∀ (op : Fin 3) (s : State), s.dev.debugLevel ≠ 2 → exec (.jtagCoreControl op) s = .next (s.onto s.dev))

/-- ZEROIZE starts an erasure in the background: keys, or everything in RMA, and is refused while one or a revocation runs, or outside
RMA. An erasure leaves no IDE key, no session and every slot but 0 spent. A health failure of the generator is noted; a start-up retry
that passes notes health and rekeys slot 0. A background operation that has its result ends, and with it a full erasure that it reports.
(R330, R347, R286.) -/
def Obligations.ZeroizationsEraseAndTheGeneratorIsWatched : Prop :=
  (∀ (path : Path) (input : List Byte) (readBack : Bool) (s : State), s.dev.takesStoluo path 0xC067 → zeroizeForm input = true →
    s.dev.pool.revoking = false → s.dev.sec.zeroize = none → tget s.dev.mgmt.bg path = none →
    exec (.zeroizeKeys path input readBack) s = .next (s.onto ((s.dev.bgStart path 0xC067).startZeroize path 0 readBack))) ∧
  (∀ (path : Path) (input : List Byte) (readBack : Bool) (s : State), s.dev.takesStoluo path 0xC067 → zeroizeForm input = true →
    s.dev.pool.revoking = true ∨ s.dev.sec.zeroize.isSome = true →
    yields (.zeroizeKeys path input readBack) s fun t => t.replied path 0xC067 4 0 [] ∧ s.dev.onlyRead t) ∧
  (∀ (path : Path) (input : List Byte) (readBack : Bool) (s : State), s.dev.takesStoluo path 0xC067 → zeroizeForm input = true →
    s.dev.sec.otp.lifecycle = 3 → s.dev.pool.revoking = false → s.dev.sec.zeroize = none → tget s.dev.mgmt.bg path = none →
    exec (.zeroizeFull path input readBack) s = .next (s.onto ((s.dev.bgStart path 0xC067).startZeroize path 1 readBack))) ∧
  (∀ (path : Path) (input : List Byte) (readBack : Bool) (s : State), s.dev.takesStoluo path 0xC067 → zeroizeForm input = true →
    s.dev.sec.otp.lifecycle ≠ 3 → yields (.zeroizeFull path input readBack) s fun t => t.replied path 0xC067 9 0 [] ∧ s.dev.onlyRead t) ∧
  (∀ (path : Path) (what : Nat) (readBack : Bool) (d : Dev), (d.startZeroize path what readBack).sec.ideKeys = [] ∧
    (d.startZeroize path what readBack).sec.sessions = [] ∧ ∀ i, i ≠ 0 → (d.startZeroize path what readBack).keySlot i = .spent) ∧
  (∀ s : State, s.dev.drbgOk = true → yields .drbgHealthFailure s fun t => t.drbgOk = false ∧ t.pool = s.dev.pool ∧ t.dir = s.dev.dir ∧
    t.sec = s.dev.sec) ∧
  (∀ s : State, s.dev.drbgOk = false → exec .drbgHealthFailure s = .next (s.onto s.dev)) ∧
  (∀ s : State, s.dev.drbgOk = false → s.dev.mgmt.coldHeld = false → s.dev.domState domKeyv ≤ 2 → s.dev.pool.revoking = false →
    exec (.drbgStartupRetry true) s = .next (s.onto ((s.dev.wr .keyStatus 31 31 1).rekeyZero))) ∧
  (∀ s : State, s.dev.drbgOk = true ∨ s.dev.mgmt.coldHeld = true → exec (.drbgStartupRetry true) s = .next (s.onto s.dev)) ∧
  (∀ s : State, exec (.drbgStartupRetry false) s = .next (s.onto s.dev)) ∧
  (∀ (path : Path) (b : BgOp) (r : Nat × Nat) (s : State), tget s.dev.mgmt.bg path = some b → b.result = some r →
    s.dev.serves path 0 = true → s.dev.inWindow = false →
    exec (.backgroundOperationEnd path) s = .next (s.onto
      (if s.dev.sec.zeroize = some (1, path) then s.dev.fullEnds path 1
       else if s.dev.sec.zeroize = some (2, path) then s.dev.fullEnds path 2
       else match s.dev.sec.zeroize with
         | some (n + 3, p) => if p = path then s.dev.fullEnds path (n + 3) else s.dev.bgEnd path
         | _ => s.dev.bgEnd path)))

/-- Each request is answered only after those before it: VERSION starts over, CAPABILITIES and ALGORITHMS move on, and digests,
certificates, challenges and measurements come after. A certificate answers the chain's bytes; a measurement answers the index's value,
all of them at 255, signed where asked. Out of order, out of range or without entropy it answers the error. Bytes the source leaves open
are open (log entry 21). The capability flags are those of Table PS-13, at SPDM's places (log entry 66). (R340, R341, R342.) -/
def Obligations.TheSpdmResponderAnswersInOrder : Prop :=
  (∀ (path : Path) (s : State), s.dev.spdmUp path = true →
    yields (.getVersion path) s fun t => .spdm path 0x84 [0x13] ∈ t.out ∧ t.conn path = 1 ∧ (∀ p, p ≠ path → t.conn p = s.dev.conn p) ∧
      t.sec.sessions = s.dev.sec.sessions ∧ t.pool = s.dev.pool ∧ t.mgmt = s.dev.mgmt) ∧
  (∀ (path : Path) (s : State), s.dev.spdmUp path = true → 1 ≤ s.dev.conn path →
    yields (.getCapabilities path) s fun t => .spdm path 0xE1 s.dev.capabilityBytes ∈ t.out ∧ t.conn path = 2 ∧ t.pool = s.dev.pool ∧
      t.mgmt = s.dev.mgmt) ∧
  (∀ (path : Path) (s : State), s.dev.spdmUp path = true → s.dev.conn path = 0 →
    yields (.getCapabilities path) s fun t => .spdm path 0x7F [4] ∈ t.out ∧ t.sec = s.dev.sec) ∧
  (∀ (path : Path) (s : State), s.dev.spdmUp path = true → 2 ≤ s.dev.conn path →
    yields (.negotiateAlgorithms path true) s fun t => .spdm path 0xE3 (s.dev.spdmBytes 32) ∈ t.out ∧ t.conn path = 3) ∧
  (∀ (path : Path) (s : State), s.dev.spdmUp path = true → 2 ≤ s.dev.conn path →
    yields (.negotiateAlgorithms path false) s fun t => .spdm path 0x7F [1] ∈ t.out ∧ t.sec = s.dev.sec) ∧
  (∀ (path : Path) (s : State), s.dev.spdmUp path = true → 3 ≤ s.dev.conn path →
    yields (.getDigests path) s fun t => .spdm path 0x81 (1 :: s.dev.spdmBytes 48) ∈ t.out ∧ t.sec = s.dev.sec ∧ t.pool = s.dev.pool) ∧
  (∀ (path : Path) (offset length : Nat) (s : State), s.dev.spdmUp path = true → 3 ≤ s.dev.conn path → offset < 65536 →
    yields (.getCertificate path 0 offset length) s fun t => t.sec = s.dev.sec ∧ t.pool = s.dev.pool ∧
      .spdm path 0x82 ((List.range (min length (65536 - offset))).map fun i => s.dev.chainByte (offset + i)) ∈ t.out) ∧
  (∀ (path : Path) (slot offset length : Nat) (s : State), s.dev.spdmUp path = true → 3 ≤ s.dev.conn path → slot ≠ 0 ∨ 65536 ≤ offset →
    yields (.getCertificate path slot offset length) s fun t => .spdm path 0x7F [1] ∈ t.out ∧ t.sec = s.dev.sec) ∧
  (∀ (path : Path) (s : State), s.dev.spdmUp path = true → 3 ≤ s.dev.conn path → s.dev.drbgOk = true →
    yields (.challenge path 0) s fun t => .spdm path 0x83 (s.dev.spdmBytes 176) ∈ t.out ∧ t.sec = s.dev.sec ∧ t.pool = s.dev.pool) ∧
  (∀ (path : Path) (s : State), s.dev.spdmUp path = true → 3 ≤ s.dev.conn path → s.dev.drbgOk = false →
    yields (.challenge path 0) s fun t => .spdm path 0x7F [5] ∈ t.out ∧ t.sec = s.dev.sec) ∧
  (∀ (path : Path) (s : State), s.dev.spdmUp path = true → 3 ≤ s.dev.conn path →
    yields (.getMeasurements path 0 false) s fun t => .spdm path 0xE0 [9] ∈ t.out ∧ t.sec = s.dev.sec ∧ t.pool = s.dev.pool ∧ t.mgmt = s.dev.mgmt) ∧
  (∀ (path : Path) (index : BitVec 8) (s : State), s.dev.spdmUp path = true → 3 ≤ s.dev.conn path → 1 ≤ index.toNat → index.toNat ≤ 9 →
    s.dev.drbgOk = true →
    yields (.getMeasurements path index true) s fun t => t.sec = s.dev.sec ∧ t.pool = s.dev.pool ∧
      .spdm path 0xE0 (toBytes 1 index.toNat ++ s.dev.measurement index.toNat ++ s.dev.spdmBytes 128) ∈ t.out) ∧
  (∀ (path : Path) (s : State), s.dev.spdmUp path = true → 3 ≤ s.dev.conn path →
    yields (.getMeasurements path 255 false) s fun t => t.sec = s.dev.sec ∧
      .spdm path 0xE0 (((List.range 9).map fun k => s.dev.measurementBlock (k + 1)).flatten) ∈ t.out) ∧
  (∀ (path : Path) (index : BitVec 8) (signed : Bool) (s : State), s.dev.spdmUp path = true → 3 ≤ s.dev.conn path → s.dev.drbgOk = true →
    9 < index.toNat → index.toNat < 255 →
    yields (.getMeasurements path index signed) s fun t => .spdm path 0x7F [1] ∈ t.out ∧ t.sec = s.dev.sec)

/-- KEY_EXCHANGE opens a session where one is free, FINISH makes it usable or, with a bad signature, ends it; KEY_UPDATE, HEARTBEAT and
END_SESSION act on a finished one. IDE key management on a pool port installs its keys and shows the port secured; on MCTP it is
refused. A path that is down answers nothing. (R223, R332, R340.) -/
def Obligations.SpdmSessionsOpenCarryIdeKeysAndEnd : Prop :=
  (∀ (path : Path) (s : State), s.dev.spdmUp path = true → 3 ≤ s.dev.conn path → s.dev.sessionFree path = true → s.dev.drbgOk = true →
    yields (.keyExchange path 0) s fun t => t.sec.sessions = s.dev.sec.sessions ++ [⟨s.dev.sec.sessionNext, path, false, 0⟩] ∧
      t.sec.sessionNext = s.dev.sec.sessionNext + 1 ∧ .spdm path 0xE4 (toBytes 4 s.dev.sec.sessionNext ++ s.dev.spdmBytes 272) ∈ t.out ∧
      t.pool = s.dev.pool ∧ t.sec.ideKeys = s.dev.sec.ideKeys) ∧
  (∀ (path : Path) (s : State), s.dev.spdmUp path = true → 3 ≤ s.dev.conn path → s.dev.sessionFree path = false →
    yields (.keyExchange path 0) s fun t => .spdm path 0x7F [10] ∈ t.out ∧ t.sec = s.dev.sec) ∧
  (∀ (path : Path) (session : Nat) (x : SpdmSession) (s : State), s.dev.spdmUp path = true → 3 ≤ s.dev.conn path →
    s.dev.session? path session = some x → x.finished = false →
    yields (.finish path session true) s fun t => .spdm path 0xE5 [] ∈ t.out ∧ t.pool = s.dev.pool ∧
      t.sec.sessions = s.dev.sec.sessions.map fun (y : SpdmSession) => if y.id = session then { y with finished := true } else y) ∧
  (∀ (path : Path) (session : Nat) (x : SpdmSession) (s : State), s.dev.spdmUp path = true → 3 ≤ s.dev.conn path →
    s.dev.session? path session = some x → x.finished = false →
    yields (.finish path session false) s fun t => .spdm path 0x7F [6] ∈ t.out ∧
      t.sec.sessions = s.dev.sec.sessions.filter fun y => !decide (y.id = session)) ∧
  (∀ (path : Path) (session : Nat) (x : SpdmSession) (s : State), s.dev.spdmUp path = true → 3 ≤ s.dev.conn path →
    s.dev.session? path session = some x → x.finished = true →
    yields (.keyUpdate path session) s fun t => .spdm path 0xE9 [] ∈ t.out ∧
      t.sec.sessions = s.dev.sec.sessions.map fun (y : SpdmSession) => if y.id = session then { y with keyGen := y.keyGen + 1 } else y) ∧
  (∀ (path : Path) (session : Nat) (x : SpdmSession) (s : State), s.dev.spdmUp path = true → 3 ≤ s.dev.conn path →
    s.dev.session? path session = some x → x.finished = true →
    yields (.heartbeat path session) s fun t => .spdm path 0xE8 [] ∈ t.out ∧ t.sec = s.dev.sec) ∧
  (∀ (path : Path) (session : Nat) (x : SpdmSession) (s : State), s.dev.spdmUp path = true → 3 ≤ s.dev.conn path →
    s.dev.session? path session = some x → x.finished = true →
    yields (.endSession path session) s fun t => .spdm path 0xEC [] ∈ t.out ∧ t.pool = s.dev.pool ∧ t.sec.ideKeys = s.dev.sec.ideKeys ∧
      t.sec.sessions = s.dev.sec.sessions.filter fun y => !decide (y.id = session)) ∧
  (∀ (path : Path) (session : Nat) (s : State), s.dev.spdmUp path = true → 3 ≤ s.dev.conn path → s.dev.session? path session = none →
    yields (.heartbeat path session) s fun t => .spdm path 0x7F [2] ∈ t.out ∧ t.sec = s.dev.sec) ∧
  (∀ (p : Fin 64) (session keySet : Nat) (x : SpdmSession) (s : State), s.dev.spdmUp (.pool p) = true → 3 ≤ s.dev.conn (.pool p) →
    s.dev.session? (.pool p) session = some x → x.finished = true → s.dev.portState p = 5 →
    yields (.ideKm (.pool p) session keySet) s fun t => .spdm (.pool p) 0xFE (toBytes 1 keySet) ∈ t.out ∧
      tget t.sec.ideKeys (p.val, keySet) = some (((tget s.dev.sec.ideKeys (p.val, keySet)).getD 0) + 1) ∧ t.bitOf (.prtStatus p) 13 = true ∧
      t.bitOf (.prtStatus p) 12 = (s.dev.bitOf (.prtStatus p) 15 || s.dev.bitOf (.prtStatus p) 12) ∧ t.portState p = 5 ∧
      (∀ k, k ≠ (p.val, keySet) → tget t.sec.ideKeys k = tget s.dev.sec.ideKeys k) ∧ t.sec.sessions = s.dev.sec.sessions) ∧
  (∀ (eid session keySet : Nat) (x : SpdmSession) (s : State), s.dev.spdmUp (.mctp eid) = true → 3 ≤ s.dev.conn (.mctp eid) →
    s.dev.session? (.mctp eid) session = some x → x.finished = true →
    yields (.ideKm (.mctp eid) session keySet) s fun t => .spdm (.mctp eid) 0x7F [7] ∈ t.out ∧ t.sec = s.dev.sec) ∧
  (∀ (path : Path) (s : State), s.dev.spdmUp path = false → exec (.getVersion path) s = .next (s.onto s.dev) ∧
    exec (.keyExchange path 0) s = .next (s.onto s.dev))

/-- Doze, Nap and Deep are entered only where the power table lets that domain; else nothing changes. Doze changes the state alone; Nap
takes the unit's counters out and a hub's quarter through its emptying, not within 32 ms of the last; Deep opens the switch and drops
the caches of a tambour's directory. A wake notes what it wakes from and, from Deep, closes the switch; its end makes the domain Active.
(R354, R355.) -/
def Obligations.DomainsSleepAndWake : Prop :=
  (∀ (dom : Fin 124) (s : State), s.dev.maySleep dom 1 = true → s.dev.mayDoze dom = true →
    yields (.domainDozeEntry dom) s fun t => t.domState dom = 1 ∧ t.switchOf dom = s.dev.switchOf dom ∧
      (∀ r : Reg, r ≠ .domStatus dom → r.show = false → t.reg r = s.dev.reg r) ∧ t.pool = s.dev.pool ∧ t.dir = s.dev.dir ∧ t.pwr = s.dev.pwr) ∧
  (∀ (dom : Fin 124) (s : State), s.dev.maySleep dom 1 = false ∨ s.dev.mayDoze dom = false →
    exec (.domainDozeEntry dom) s = .next (s.onto s.dev)) ∧
  (∀ (dom : Fin 124) (s : State), s.dev.maySleep dom 2 = true → (∀ n, tget s.dev.pwr.napExit dom.val = some n → n + 32000000 ≤ s.dev.now) →
    dom.val < 4 ∨ 8 ≤ dom.val → s.dev.mayNap dom = true →
    yields (.domainNapEntry dom) s fun t => t.domState dom = 2 ∧ t.switchOf dom = s.dev.switchOf dom ∧
      (∀ u ∈ pmusOf dom, t.bitOf (.pmcStatus u) 17 = true) ∧ t.pool.mem = s.dev.pool.mem ∧ t.pool.blocks = s.dev.pool.blocks ∧
      t.dir = s.dev.dir ∧ (∀ i, i ≠ dom.val → t.domState i = s.dev.domState i)) ∧
  (∀ (dom : Fin 124) (s : State), s.dev.maySleep dom 2 = true → (∀ n, tget s.dev.pwr.napExit dom.val = some n → n + 32000000 ≤ s.dev.now) →
    4 ≤ dom.val → dom.val < 8 → exec (.domainNapEntry dom) s = .next (s.onto (s.dev.quarterNap (dom.val - 4)))) ∧
  (∀ (dom : Fin 124) (n : Nat) (s : State), tget s.dev.pwr.napExit dom.val = some n → s.dev.now < n + 32000000 →
    exec (.domainNapEntry dom) s = .next (s.onto s.dev)) ∧
  (∀ (dom : Fin 124) (s : State), s.dev.maySleep dom 3 = true → s.dev.mayDeep dom = true →
    yields (.domainDeepEntry dom) s fun t => t.domState dom = 3 ∧ t.switchOf dom = 2 ∧ t.pool.mem = s.dev.pool.mem ∧
      t.pool.blocks = s.dev.pool.blocks ∧ t.dir = s.dev.dir ∧ (∀ i, i ≠ dom.val → t.domState i = s.dev.domState i) ∧
      (8 ≤ dom.val → dom.val < 24 → ∀ e ∈ t.pool.slotCache, e.1.1 / 4 ≠ dom.val - 8)) ∧
  (∀ (dom : Fin 124) (s : State), s.dev.maySleep dom 3 = false ∨ s.dev.mayDeep dom = false →
    exec (.domainDeepEntry dom) s = .next (s.onto s.dev)) ∧
  (∀ (dom : Fin 124) (s : State), s.dev.aoOnly = false → s.dev.mgmt.coldHeld = false → s.dev.domState dom = 1 ∨ s.dev.domState dom = 2 →
    tget s.dev.pwr.wakeFrom dom.val = none →
    yields (.domainWakeEvent dom) s fun t => tget t.pwr.wakeFrom dom.val = some (s.dev.domState dom) ∧ t.domState dom = s.dev.domState dom ∧
      t.switchOf dom = s.dev.switchOf dom ∧ t.pool = s.dev.pool ∧ t.dir = s.dev.dir) ∧
  (∀ (dom : Fin 124) (s : State), s.dev.aoOnly = false → s.dev.mgmt.coldHeld = false → s.dev.domState dom = 3 → s.dev.switchOf dom = 2 →
    s.dev.railsOk dom = true → tget s.dev.pwr.wakeFrom dom.val = none →
    yields (.domainWakeEvent dom) s fun t => tget t.pwr.wakeFrom dom.val = some 3 ∧ t.switchOf dom = 1 ∧ t.domState dom = 3) ∧
  (∀ (dom : Fin 124) (st : Nat) (s : State), tget s.dev.pwr.wakeFrom dom.val = some st → (st = 3 → s.dev.railsOk dom = true) →
    s.dev.sw.napping ≠ some (dom.val - 4) ∨ dom.val < 4 ∨ 8 ≤ dom.val ∨ st ≠ 2 →
    yields (.domainWakeComplete dom) s fun t => t.domState dom = 0 ∧ t.switchOf dom = 0 ∧ tget t.pwr.wakeFrom dom.val = none ∧
      (st = 2 → tget t.pwr.napExit dom.val = some s.dev.now) ∧ (st ≠ 2 → t.pwr.napExit = s.dev.pwr.napExit) ∧
      (∀ r : Reg, r ≠ .domStatus dom → r.show = false → t.reg r = s.dev.reg r) ∧ t.pool = s.dev.pool ∧ t.dir = s.dev.dir) ∧
  (∀ (dom : Fin 124) (s : State), tget s.dev.pwr.wakeFrom dom.val = none → exec (.domainWakeComplete dom) s = .next (s.onto s.dev)) ∧
  (∀ (dom : Fin 124) (q : Nat) (s : State), dom.val = q + 4 → q < 4 → tget s.dev.pwr.wakeFrom dom.val = some 2 → s.dev.sw.napping = some q →
    let d : Dev := { s.dev.domainOn dom with pwr := { s.dev.pwr with
      wakeFrom := tdel s.dev.pwr.wakeFrom dom.val, napExit := tset s.dev.pwr.napExit dom.val s.dev.now } }
    exec (.domainWakeComplete dom) s = .next (s.onto
      (({ d with sw := { d.sw with napping := none } } : Dev).wr .bufStatus (28 + q) (28 + q) 1).showCells.admitBlocked))

/-- A trip of a closed switch counts, notes cause and segment, opens the switch and takes the domain's loss; during a ramp it latches. A
trip on AO changes the feed. A backoff that ends closes the switch; a ramp that ends brings the domain back and counts the retry; one that
times out latches. A residual check that reads high latches. The class of these events is open (log entry 12). A rail that leaves its
window is no longer qualified, one that returns is; the AO feed changes over to the other feed, and back. (R361, R362, R363, R364, R360,
R366.) -/
def Obligations.BreakersTripRetryAndLatch : Prop :=
  (∀ (dom : Fin 124) (segment : Fin 2) (s : State), dom.val ≠ 0 → s.dev.segmentsOn dom = false →
    exec (.breakerCurveTrip dom segment) s = .next (s.onto s.dev) ∧ exec (.breakerFastTrip dom segment) s = .next (s.onto s.dev)) ∧
  (∀ (dom : Fin 124) (segment : Fin 2) (fast : Bool) (s : State), dom.val ≠ 0 → (segment.val = 1 → hasSegment1 dom = true) → s.dev.switchOf dom = 0 →
    s.dev.rd (.domStatus dom) 22 21 ≠ 3 →
    let cause := if fast then 2 else 1
    let d : Dev := { s.dev with pwr := { s.dev.pwr with wakeFrom := tdel s.dev.pwr.wakeFrom dom.val } }
    let d := (((d.bumpSat (.domStatus dom) 15 0 1).wr (.domStatus dom) 20 20 segment).report (powerSource dom) (openClass 363)
      (dom.val + 256 * cause)).checkLater dom
    exec (if fast then .breakerFastTrip dom segment else .breakerCurveTrip dom segment) s = .next (s.onto
      ((((d.setDomState dom 4).setSwitch dom 3).wr (.domStatus dom) 25 23 cause).domainLost dom false))) ∧
  (∀ (dom : Fin 124) (segment : Fin 2) (fast : Bool) (s : State), dom.val ≠ 0 → (segment.val = 1 → hasSegment1 dom = true) → s.dev.switchOf dom = 1 →
    let cause := if fast then 2 else 1
    let d : Dev := { s.dev with pwr := { s.dev.pwr with wakeFrom := tdel s.dev.pwr.wakeFrom dom.val } }
    let d := (((d.bumpSat (.domStatus dom) 15 0 1).wr (.domStatus dom) 20 20 segment).report (powerSource dom) (openClass 363)
      (dom.val + 256 * cause)).checkLater dom
    exec (if fast then .breakerFastTrip dom segment else .breakerCurveTrip dom segment) s = .next (s.onto (d.latchDomain dom 3))) ∧
  (∀ (segment : Fin 2) (s : State), let toB := !s.dev.bitOf .aoFeed 31
    s.dev.pwr.feedTripped = false → s.dev.bitOf .aoFeed (if toB then 29 else 30) = true →
    exec (.breakerCurveTrip 0 segment) s = .next (s.onto
      { s.dev.changeFeed toB with pwr := { (s.dev.changeFeed toB).pwr with feedTripped := true } })) ∧
  (∀ (dom : Fin 124) (s : State), s.dev.switchOf dom = 3 → s.dev.railsOk dom = true →
    yields (.retryBackoffExpiry dom) s fun t => t.switchOf dom = 1 ∧ t.domState dom = s.dev.domState dom ∧ t.pool = s.dev.pool ∧ t.dir = s.dev.dir ∧
      ∀ i, i ≠ dom.val → t.switchOf i = s.dev.switchOf i) ∧
  (∀ (dom : Fin 124) (s : State), s.dev.switchOf dom ≠ 3 ∨ s.dev.railsOk dom = false →
    exec (.retryBackoffExpiry dom) s = .next (s.onto s.dev)) ∧
  (∀ (dom : Fin 124) (s : State), s.dev.switchOf dom = 1 → s.dev.domState dom = 3 →
    yields (.rampComplete dom) s fun t => t.switchOf dom = 0 ∧ t.domState dom = 3 ∧
      (∀ r : Reg, r ≠ .domStatus dom → r.show = false → t.reg r = s.dev.reg r) ∧ t.pool = s.dev.pool) ∧
  (∀ (dom : Fin 124) (s : State), s.dev.switchOf dom = 1 → s.dev.domState dom ≠ 3 → s.dev.rd (.domStatus dom) 25 23 ≠ 6 →
    exec (.rampComplete dom) s = .next (s.onto ((s.dev.bumpSat (.domStatus dom) 22 21 1).domainBack dom))) ∧
  (∀ (dom : Fin 124) (s : State), s.dev.switchOf dom = 1 → s.dev.domState dom ≠ 3 → s.dev.rd (.domStatus dom) 25 23 = 6 →
    exec (.rampComplete dom) s = .next (s.onto (s.dev.domainBack dom))) ∧
  (∀ (dom : Fin 124) (s : State), s.dev.switchOf dom ≠ 1 → exec (.rampComplete dom) s = .next (s.onto s.dev) ∧
    exec (.rampTimeout dom) s = .next (s.onto s.dev)) ∧
  (∀ (dom : Fin 124) (s : State), s.dev.switchOf dom = 1 →
    let d : Dev := { s.dev with pwr := { s.dev.pwr with wakeFrom := tdel s.dev.pwr.wakeFrom dom.val } }
    exec (.rampTimeout dom) s = .next (s.onto ((d.report (powerSource dom) (openClass 361) (dom.val + 256 * 4)).latchDomain dom 4))) ∧
  (∀ (dom : Fin 124) (s : State), s.dev.switchOf dom = 0 → yields (.retrySequenceEnd dom) s fun t => t.rd (.domStatus dom) 22 21 = 0 ∧
    t.switchOf dom = 0 ∧ t.domState dom = s.dev.domState dom ∧ (∀ r : Reg, r ≠ .domStatus dom → r.show = false → t.reg r = s.dev.reg r) ∧
    t.pool = s.dev.pool) ∧
  (∀ (dom : Fin 124) (s : State), dom.val ∈ s.dev.pwr.checkDue → yields (.classBResidualCheck dom false) s fun t =>
    t.pwr = { s.dev.pwr with checkDue := s.dev.pwr.checkDue.filter fun x => !decide (x = dom.val) } ∧ t.pool = s.dev.pool ∧
    ∀ r : Reg, r.show = false → t.reg r = s.dev.reg r) ∧
  (∀ (dom : Fin 124) (s : State), dom.val ∈ s.dev.pwr.checkDue →
    let d : Dev := { s.dev with pwr := { s.dev.pwr with checkDue := s.dev.pwr.checkDue.filter fun x => !decide (x = dom.val) } }
    exec (.classBResidualCheck dom true) s = .next (s.onto ((d.report (powerSource dom) 3 (dom.val + 256 * 5)).latchDomain dom 5))) ∧
  (∀ (dom : Fin 124) (high : Bool) (s : State), dom.val ∉ s.dev.pwr.checkDue → exec (.classBResidualCheck dom high) s = .next (s.onto s.dev)) ∧
  (∀ (rail : Fin 7) (mv : BitVec 12) (s : State), 4 ≤ rail.val ∨ s.dev.bitOf (.rail rail) 63 = false →
    yields (.railOutOfWindow rail mv) s fun t => t.bitOf (.rail rail) 63 = false ∧ t.bitOf (.rail rail) 62 = false ∧
      ∀ dom, t.reg (.domStatus dom) = s.dev.reg (.domStatus dom)) ∧
  (∀ (rail : Fin 7) (mv : BitVec 12) (s : State), s.dev.mgmt.coldHeld = false →
    yields (.railQualified rail mv) s fun t => t.bitOf (.rail rail) 63 = true ∧ t.bitOf (.rail rail) 62 = true ∧
      t.rd (.rail rail) 11 0 = mv.toNat) ∧
  (∀ s : State, s.dev.bitOf .aoFeed 31 = false → s.dev.bitOf .aoFeed 30 = false → s.dev.bitOf .aoFeed 29 = true →
    exec .aoFeedChangeover s = .next (s.onto (s.dev.changeFeed true))) ∧
  (∀ s : State, s.dev.bitOf .aoFeed 31 = true → s.dev.bitOf .aoFeed 29 = false → s.dev.bitOf .aoFeed 30 = true →
    exec .aoFeedChangeover s = .next (s.onto (s.dev.changeFeed false))) ∧
  (∀ s : State, s.dev.bitOf .aoFeed 31 = true → s.dev.bitOf .aoFeed 30 = true → s.dev.pwr.feedTripped = false →
    exec .aoFeedReturn s = .next (s.onto (s.dev.changeFeed false))) ∧
  (∀ s : State, s.dev.bitOf .aoFeed 30 = true ∨ s.dev.bitOf .aoFeed 29 = true →
    exec .vddAoHoldLow s = .next (s.onto (s.dev.wr .aoFeed 28 28 1)))

/-- A rail out of window loses GOOD and, for core and SerDes rails, the parts on it, or freezes the sideband; a qualified one gains it,
releases cold reset once all are ready and ramps quads that lost it. The AO feed changes over and back. A loss of both resets AO. AO-only
mode ends on an enabled wake source and boots. Clock losses show and take a die's ports and links. An AVS step of at most 5 mV within 680
to 820 mV, no earlier than 100 µs after the last, is sent and shown; for 100 µs, counted as AO clock cycles on an empty queue (log entry
1), the window spans the old and the new target. The class of these events is open (log entry 12). AO-only mode and an AVS step that their
conditions do not allow have no effect. (R360, R365, R366, R367, R369, R370, R371.) -/
def Obligations.RailsFeedsClocksAndVoltageFollowTheirTables : Prop :=
  (∀ (rail : Fin 7) (mv : BitVec 12) (s : State), s.dev.bitOf (.rail rail) 63 = false ∨ 4 ≤ rail.val →
    yields (.railOutOfWindow rail mv) s fun t => t.bitOf (.rail rail) 63 = false ∧ t.bitOf (.rail rail) 62 = false ∧
      t.rd (.rail rail) 11 0 = mv.toNat ∧ t.pool = s.dev.pool ∧ t.dir = s.dev.dir ∧
      (rail.val = 5 → t.bitOf .aoFeed 30 = false) ∧ (rail.val = 6 → t.bitOf .aoFeed 29 = false) ∧
      t.bitOf .aoFeed 31 = s.dev.bitOf .aoFeed 31 ∧ (5 ≤ rail.val → t.pwr.feedTripped = false) ∧ rail.val ∉ t.pwr.feedOut ∧
      (∀ r, r ≠ rail.val → t.reg (.rail r) = s.dev.reg (.rail r))) ∧
  (∀ (rail : Fin 7) (mv : BitVec 12) (s : State), rail.val ≤ 3 → s.dev.bitOf (.rail rail) 63 = true →
    let d := (s.dev.wr (.rail rail) 63 62 0).wr (.rail rail) 11 0 mv.toNat
    let d : Dev := { d with pwr := { d.pwr with feedOut := d.pwr.feedOut.filter fun x => !decide (x = rail.val) } }
    let d := d.report (0x2B0 + rail.val) (openClass 365) mv.toNat
    exec (.railOutOfWindow rail mv) s = .next (s.onto (if rail.val ≤ 1 then d.coreLost rail else d.serdesLost))) ∧
  (∀ (rail : Fin 7) (mv : BitVec 12) (s : State), rail.val ≤ 1 → s.dev.bitOf (.rail rail) 63 = true → s.dev.mgmt.coldHeld = false →
    yields (.railOutOfWindow rail mv) s fun t => s.dev.coldLeft t ∧ t.bitOf (.rail rail) 62 = false ∧ t.rd (.rail rail) 11 0 = mv.toNat) ∧
  (∀ (mv : BitVec 12) (s : State), s.dev.bitOf (.rail 4) 63 = true → s.dev.bitOf .sbsCtl 31 = true → s.dev.bitOf .sbsStatus 31 = false →
    yields (.railOutOfWindow 4 mv) s fun t => t.bitOf (.rail 4) 62 = false ∧ t.bitOf .sbsStatus 31 = true ∧ t.pool = s.dev.pool) ∧
  (∀ (rail : Fin 7) (mv : BitVec 12) (s : State), s.dev.mgmt.coldHeld = false →
    (rail.val = 2 ∨ rail.val = 3 → s.dev.bitOf (.rail (5 - rail.val)) 62 = false) →
    yields (.railQualified rail mv) s fun t => t.bitOf (.rail rail) 63 = true ∧ t.bitOf (.rail rail) 62 = true ∧
      t.rd (.rail rail) 11 0 = mv.toNat ∧ (rail.val = 5 → t.bitOf .aoFeed 30 = true) ∧ (rail.val = 6 → t.bitOf .aoFeed 29 = true) ∧
      (∀ r, r ≠ rail.val → t.reg (.rail r) = s.dev.reg (.rail r)) ∧ t.pool = s.dev.pool ∧ t.dir = s.dev.dir) ∧
  (∀ (rail : Fin 7) (mv : BitVec 12) (s : State), s.dev.mgmt.coldHeld = true → rail.val < 5 →
    exec (.railQualified rail mv) s = .next (s.onto
      (((s.dev.wr (.rail rail) 63 62 3).wr (.rail rail) 11 0 mv.toNat).releaseCold true true))) ∧
  (∀ (rail : Fin 7) (mv : BitVec 12) (s : State), s.dev.mgmt.coldHeld = true → 5 ≤ rail.val →
    exec (.railQualified rail mv) s = .next (s.onto
      ((((s.dev.wr (.rail rail) 63 62 3).wr (.rail rail) 11 0 mv.toNat).wr .aoFeed (35 - rail.val) (35 - rail.val) 1).releaseCold true true))) ∧
  (∀ (rail : Fin 7) (mv : BitVec 12) (s : State), s.dev.mgmt.coldHeld = false → rail.val = 2 ∨ rail.val = 3 →
    s.dev.bitOf (.rail (5 - rail.val)) 62 = true →
    yields (.railQualified rail mv) s fun t => t.bitOf (.rail rail) 63 = true ∧ t.bitOf (.rail rail) 62 = true ∧
      t.rd (.rail rail) 11 0 = mv.toNat ∧ t.pool = s.dev.pool ∧ t.dir = s.dev.dir ∧
      ∀ k : Fin 80, t.domState (domQuad k) = s.dev.domState (domQuad k) ∧ t.switchOf (domQuad k) =
        if s.dev.domState (domQuad k) = 4 ∧ s.dev.switchOf (domQuad k) = 2 ∧ s.dev.rd (.domStatus (domQuad k)) 25 23 = 6 then 1
        else s.dev.switchOf (domQuad k)) ∧
  (∀ s : State, let toB := !s.dev.bitOf .aoFeed 31
    s.dev.bitOf .aoFeed (if toB then 30 else 29) = false → s.dev.bitOf .aoFeed (if toB then 29 else 30) = true →
    yields .aoFeedChangeover s fun t => t.bitOf .aoFeed 31 = toB ∧ t.rd .aoFeed 15 0 = (s.dev.rd .aoFeed 15 0 + 1) % 2 ^ 16 ∧
      t.bitOf .aoFeed 30 = s.dev.bitOf .aoFeed 30 ∧ t.bitOf .aoFeed 29 = s.dev.bitOf .aoFeed 29 ∧ t.pool = s.dev.pool) ∧
  (∀ s : State, s.dev.bitOf .aoFeed (if s.dev.bitOf .aoFeed 31 then 29 else 30) = true ∨
      s.dev.bitOf .aoFeed (if s.dev.bitOf .aoFeed 31 then 30 else 29) = false →
    exec .aoFeedChangeover s = .next (s.onto s.dev)) ∧
  (∀ s : State, s.dev.bitOf .aoFeed 31 = true → s.dev.bitOf .aoFeed 30 = true → s.dev.pwr.feedTripped = false →
    yields .aoFeedReturn s fun t => t.bitOf .aoFeed 31 = false ∧ t.rd .aoFeed 15 0 = (s.dev.rd .aoFeed 15 0 + 1) % 2 ^ 16 ∧ t.pool = s.dev.pool) ∧
  (∀ s : State, s.dev.bitOf .aoFeed 31 = false ∨ s.dev.bitOf .aoFeed 30 = false ∨ s.dev.pwr.feedTripped = true →
    exec .aoFeedReturn s = .next (s.onto s.dev)) ∧
  (∀ s : State, s.dev.bitOf .aoFeed 30 = true ∨ s.dev.bitOf .aoFeed 29 = true →
    yields .vddAoHoldLow s fun t => t.bitOf .aoFeed 28 = true ∧ t.pool = s.dev.pool ∧ ∀ r : Reg, r ≠ .aoFeed → r.show = false → t.reg r = s.dev.reg r) ∧
  (∀ s : State, s.dev.bitOf .aoFeed 30 = false → s.dev.bitOf .aoFeed 29 = false → exec .vddAoHoldLow s = .next (s.onto s.dev.aoReset)) ∧
  (∀ s : State, s.dev.bitOf .aoFeed 30 = false → s.dev.bitOf .aoFeed 29 = false →
    yields .vddAoHoldLow s fun t => t.mgmt.coldHeld = true ∧ (∀ r : Reg, r.show = false → t.reg r = r.layout.reset) ∧ t.pool.keys = [] ∧
      t.pool.mem = s.dev.pool.mem ∧ t.sec.otp = s.dev.sec.otp ∧ t.mgmt.flash = s.dev.mgmt.flash ∧ t.dir.lostLog = s.dev.dir.lostLog ∧
      t.fab.log = s.dev.fab.log ∧ t.flt.retirement = s.dev.flt.retirement) ∧
  (∀ (source : Fin 3) (s : State), s.dev.aoOnly = true → bit s.dev.pwr.wakeMask source = true →
    let d := (s.dev.wr .sleepCtl 30 30 0).wr .sleepCtl 29 28 (source.val + 1)
    exec (.aoOnlyWake source) s = .next (s.onto
      (({ d with pwr := { d.pwr with wakeMask := 0, timerS := 0 } } : Dev).boot true true))) ∧
  (∀ (source : Fin 3) (s : State), s.dev.aoOnly = false ∨ bit s.dev.pwr.wakeMask source = false →
    exec (.aoOnlyWake source) s = .next (s.onto s.dev)) ∧
  (∀ s : State, s.dev.pwr.timerS = 0 ∨ s.dev.aoOnly = false ∨ bit s.dev.pwr.wakeMask 2 = false →
    exec .aoOnlyTimerExpiry s = .next (s.onto s.dev)) ∧
  (∀ s : State, s.dev.aoOnly = false ∨ bit s.dev.pwr.wakeMask 1 = false → exec .sleepCtlWake s = .next (s.onto s.dev)) ∧
  (∀ s : State, s.dev.pwr.timerS ≠ 0 → s.dev.aoOnly = true → bit s.dev.pwr.wakeMask 2 = true →
    let d := (s.dev.wr .sleepCtl 30 30 0).wr .sleepCtl 29 28 3
    exec .aoOnlyTimerExpiry s = .next (s.onto (({ d with pwr := { d.pwr with wakeMask := 0, timerS := 0 } } : Dev).boot true true))) ∧
  (∀ s : State, s.dev.aoOnly = true → bit s.dev.pwr.wakeMask 1 = true →
    let d := (s.dev.wr .sleepCtl 30 30 0).wr .sleepCtl 29 28 2
    exec .sleepCtlWake s = .next (s.onto (({ d with pwr := { d.pwr with wakeMask := 0, timerS := 0 } } : Dev).boot true true))) ∧
  (∀ s : State, yields .aoclkLoss s fun t => t.bitOf .clkStatus 31 = false ∧ t.bitOf .clkStatus 30 = true ∧ t.pool = s.dev.pool ∧ t.dir = s.dev.dir) ∧
  (∀ s : State, yields .aoclkReturn s fun t => t.bitOf .clkStatus 31 = true ∧ t.bitOf .clkStatus 30 = false ∧
    (∀ r : Reg, r ≠ .clkStatus → r.show = false → t.reg r = s.dev.reg r) ∧ t.pool = s.dev.pool) ∧
  (∀ (die : Fin 4) (s : State),
    let d := (s.dev.wr .clkStatus (26 + die.val) (26 + die.val) 0).report (0x2B8 + die.val) (openClass 370) 0
    exec (.refclkLoss die) s = .next (s.onto ((List.range 4).foldl (fun (d : Dev) k => d.linkLost (4 * die.val + k) 5)
      ((List.range 16).foldl (fun (d : Dev) k => d.removal (16 * die.val + k)) d)))) ∧
  (∀ (die : Fin 4) (s : State), yields (.refclkReturn die) s fun t => t.bitOf .clkStatus (26 + die.val) = true ∧
    (∀ r : Reg, r ≠ .clkStatus → r.show = false → t.reg r = s.dev.reg r) ∧ t.pool = s.dev.pool) ∧
  (∀ (target : BitVec 12) (s : State), s.dev.stepsTo target.toNat →
    yields (.avsStep target true) s fun t => t.rd .avs 11 0 = target.toNat ∧
      t.rd (.rail 0) 35 24 = max (s.dev.rd .avs 11 0) target.toNat + 50 ∧
      t.rd (.rail 0) 23 12 = min (s.dev.rd .avs 11 0) target.toNat - 50 ∧ t.pwr.avsHold = 2500 ∧
      .pmbus (s.dev.rd .avs 29 23) target.toNat ∈ t.out ∧ t.pool = s.dev.pool) ∧
  (∀ (target : BitVec 12) (s : State), s.dev.stepsTo target.toNat →
    yields (.avsStep target false) s fun t => t.rd .avs 11 0 = s.dev.rd .avs 11 0 ∧ t.bitOf .avs 30 = true ∧
      t.reg (.rail 0) = s.dev.reg (.rail 0) ∧ t.pwr = s.dev.pwr ∧
      4 + s.dev.out.count (.pmbus (s.dev.rd .avs 29 23) target.toNat) = t.out.count (.pmbus (s.dev.rd .avs 29 23) target.toNat) ∧
      t.pool = s.dev.pool) ∧
  (∀ (target : BitVec 12) (acked : Bool) (s : State), ¬s.dev.stepsTo target.toNat → exec (.avsStep target acked) s = .next (s.onto s.dev)) ∧
  (∀ s : State, s.pending = [] → s.dev.pwr.avsHold = 1 → 50 ≤ s.dev.rd .avs 11 0 → s.dev.rd .avs 11 0 ≤ 4045 →
    ∃ t, step s = .next t ∧ t.dev.rd (.rail 0) 35 24 = s.dev.rd .avs 11 0 + 50 ∧ t.dev.rd (.rail 0) 23 12 = s.dev.rd .avs 11 0 - 50 ∧
      t.dev.pwr.avsHold = 0)

/-- It writes the policy register of each entry, refusing Deep for MGT; it writes one curve's eight points and no other; it enters AO-only
mode with its wake mask and timer where nothing is bound, and else is a state conflict; it enables adaptive voltage, or disables it and
goes back to 750 mV. An enabled wake source ends AO-only mode, and a step of the adaptive voltage is sent. (R340, R367, R372, R373, R371.)
-/
def Obligations.PowerPolicySetsDomainsCurvesAndSleep : Prop :=
  (∀ (path : Path) (input : List Byte) (s : State), s.dev.takesStoluo path 0xC070 → domainsForm input = true →
    (∀ e ∈ policyEntries input, e.1 = 2 → getBits e.2 31 30 ≠ 3) →
    exec (.powerPolicySetDomains path input) s = .next (s.onto
      (((policyEntries input).foldl (fun (d : Dev) e => d.setReg (.domCfg e.1) e.2) s.dev).finish path 0xC070 0))) ∧
  (∀ (path : Path) (input : List Byte) (i : Nat) (v : Word) (s : State), s.dev.takesStoluo path 0xC070 → domainsForm input = true →
    policyEntries input = [(i, v)] → (i = 2 → getBits v 31 30 ≠ 3) →
    yields (.powerPolicySetDomains path input) s fun t => t.reg (.domCfg i) = v &&& (Reg.domCfg i).mask ∧ t.replied path 0xC070 0 0 [] ∧
      ∀ r : Reg, r ≠ .domCfg i → r.side = false → r.show = false → r.box = false → t.reg r = s.dev.reg r) ∧
  (∀ (path : Path) (input : List Byte) (s : State), s.dev.takesStoluo path 0xC070 → domainsForm input = true →
    (∃ e ∈ policyEntries input, e.1 = 2 ∧ getBits e.2 31 30 = 3) →
    yields (.powerPolicySetDomains path input) s fun t => t.replied path 0xC070 7 0 [] ∧ s.dev.onlyRead t) ∧
  (∀ (path : Path) (input : List Byte) (s : State), s.dev.takesStoluo path 0xC070 → curveForm input = true →
    yields (.powerPolicySetCurve path input) s fun t => t.replied path 0xC070 0 0 [] ∧
      (∀ k < 8, t.reg (.curve (field input 1 1) k) = BitVec.ofNat 64 (field input (8 + 4 * k) 4) &&& (Reg.curve (field input 1 1) k).mask) ∧
      (∀ c k, c ≠ field input 1 1 → t.reg (.curve c k) = s.dev.reg (.curve c k)) ∧ t.pool = s.dev.pool) ∧
  (∀ (path : Path) (input : List Byte) (s : State), s.dev.takesStoluo path 0xC070 → curveForm input = false →
    yields (.powerPolicySetCurve path input) s fun t => t.replied path 0xC070 2 0 [] ∧ s.dev.onlyRead t) ∧
  (∀ (path : Path) (input : List Byte) (s : State), s.dev.takesStoluo path 0xC070 → aoOnlyForm input = true → s.dev.anyBound = false →
    exec (.powerPolicySetAoOnly path input) s = .next (s.onto ((s.dev.finish path 0xC070 0).enterAoOnly (field input 1 1) (field input 4 4)))) ∧
  (∀ (path : Path) (input : List Byte) (s : State), s.dev.takesStoluo path 0xC070 → aoOnlyForm input = true → s.dev.anyBound = false →
    yields (.powerPolicySetAoOnly path input) s fun t => t.aoOnly = true ∧ t.pwr.wakeMask = field input 1 1 ∧ t.pwr.timerS = field input 4 4 ∧
      t.pool.keys = [] ∧ t.mgmt.coldHeld = false ∧ t.debugLevel = 0) ∧
  (∀ (path : Path) (input : List Byte) (s : State), s.dev.takesStoluo path 0xC070 → aoOnlyForm input = true → s.dev.anyBound = true →
    yields (.powerPolicySetAoOnly path input) s fun t => t.replied path 0xC070 7 0 [] ∧ s.dev.onlyRead t) ∧
  (∀ (path : Path) (input : List Byte) (s : State), s.dev.takesStoluo path 0xC070 → avsForm input = true → field input 1 1 = 1 →
    yields (.powerPolicySetAvs path input) s fun t => t.replied path 0xC070 0 0 [] ∧ t.bitOf .avs 31 = true ∧ t.rd .avs 29 23 = field input 2 1 ∧
      t.rd .avs 11 0 = s.dev.rd .avs 11 0 ∧ t.reg (.rail 0) = s.dev.reg (.rail 0)) ∧
  (∀ (path : Path) (input : List Byte) (s : State), s.dev.takesStoluo path 0xC070 → avsForm input = true → field input 1 1 = 0 →
    yields (.powerPolicySetAvs path input) s fun t => t.replied path 0xC070 0 0 [] ∧ t.bitOf .avs 31 = false ∧ t.rd .avs 29 23 = field input 2 1 ∧
      t.rd .avs 11 0 = 750 ∧ t.rd (.rail 0) 35 24 = 800 ∧ t.rd (.rail 0) 23 12 = 700) ∧
  (∀ (source : Fin 3) (s : State), exec (.aoOnlyWake source) s = .next (s.onto (s.dev.leaveAoOnly source))) ∧
  (∀ s : State, exec .sleepCtlWake s = .next (s.onto (s.dev.leaveAoOnly 1))) ∧
  (∀ s : State, s.dev.pwr.timerS ≠ 0 → exec .aoOnlyTimerExpiry s = .next (s.onto (s.dev.leaveAoOnly 2))) ∧
  (∀ (target : BitVec 12) (s : State), s.dev.stepsTo target.toNat →
    yields (.avsStep target true) s fun t => t.rd .avs 11 0 = target.toNat ∧ .pmbus (s.dev.rd .avs 29 23) target.toNat ∈ t.out)
end

