-- ==== Sys2Proof/Laws/Bits.lean ====
section
/-! SUPPORT. Bit fields: what a field holds after a write to it, and after a write to another. -/

namespace Sys2Proof.Machine

theorem testBit_fieldMask (hi lo i : Nat) :
    (fieldMask hi lo).toNat.testBit i = (decide (i < 64) && decide (lo ≤ i) && decide (i - lo < hi + 1 - lo)) := by
  rw [fieldMask, BitVec.toNat_ofNat, Nat.testBit_mod_two_pow, Nat.testBit_mul_two_pow, Nat.testBit_two_pow_sub_one]
  simp [Bool.and_assoc]

theorem testBit_getBits (v : Word) (hi lo i : Nat) :
    (getBits v hi lo).testBit i = (decide (i < hi + 1 - lo) && v.toNat.testBit (lo + i)) := by
  rw [getBits, Nat.testBit_mod_two_pow, Nat.testBit_div_two_pow, Nat.add_comm i lo]

/-- Two fields agree when the words agree on every bit of the field. -/
theorem getBits_congr {v w : Word} {hi lo : Nat}
    (h : ∀ i, lo ≤ i → i ≤ hi → v.toNat.testBit i = w.toNat.testBit i) : getBits v hi lo = getBits w hi lo := by
  apply Nat.eq_of_testBit_eq
  intro i
  rw [testBit_getBits, testBit_getBits]
  by_cases hi' : i < hi + 1 - lo
  · rw [h (lo + i) (by omega) (by omega)]
  · simp [hi']

theorem testBit_setBits (v : Word) (hi lo n i : Nat) (hi64 : i < 64) :
    (setBits v hi lo n).toNat.testBit i =
      (if lo ≤ i ∧ i ≤ hi then n.testBit (i - lo) else v.toNat.testBit i) := by
  have hm : (~~~ fieldMask hi lo).toNat.testBit i = !(decide (lo ≤ i) && decide (i - lo < hi + 1 - lo)) := by
    rw [BitVec.testBit_toNat, BitVec.getLsbD_not, ← BitVec.testBit_toNat, testBit_fieldMask]
    simp [hi64]
  rw [setBits, BitVec.toNat_or, BitVec.toNat_and, Nat.testBit_or, Nat.testBit_and, hm, BitVec.toNat_ofNat,
    Nat.testBit_mod_two_pow, Nat.testBit_mul_two_pow, Nat.testBit_mod_two_pow]
  by_cases h : lo ≤ i ∧ i ≤ hi
  · have h1 : i - lo < hi + 1 - lo := by omega
    simp [h, hi64, h1]
  · by_cases h2 : lo ≤ i
    · have h3 : ¬ (i - lo < hi + 1 - lo) := by omega
      simp [h, h3]
    · simp [h2]

/-- Bits above 63 are 0. -/
theorem testBit_word_high (v : Word) {i : Nat} (h : 64 ≤ i) : v.toNat.testBit i = false :=
  Nat.testBit_lt_two_pow (Nat.lt_of_lt_of_le v.isLt (Nat.pow_le_pow_right (by decide) h))

/-- A field holds what is written to it, cut to its width. -/
theorem getBits_setBits_same {v : Word} {hi lo : Nat} (n : Nat) (h : hi < 64) :
    getBits (setBits v hi lo n) hi lo = n % 2 ^ (hi + 1 - lo) := by
  apply Nat.eq_of_testBit_eq
  intro i
  rw [testBit_getBits, Nat.testBit_mod_two_pow]
  by_cases hi' : i < hi + 1 - lo
  · rw [testBit_setBits _ _ _ _ _ (by omega), if_pos (by omega)]
    simp
  · simp [hi']

/-- A field keeps what it holds when a field beside it is written. -/
theorem getBits_setBits_ne {v : Word} {hi lo hi' lo' : Nat} (n : Nat) (h : hi' < lo ∨ hi < lo') :
    getBits (setBits v hi lo n) hi' lo' = getBits v hi' lo' := by
  apply getBits_congr
  intro i h1 h2
  by_cases h64 : i < 64
  · rw [testBit_setBits _ _ _ _ _ h64, if_neg (by omega)]
  · rw [testBit_word_high _ (by omega), testBit_word_high _ (by omega)]

/-- A field that lies in the mask is not changed by it. -/
theorem getBits_and_mask {v m : Word} {hi lo : Nat} (h : fieldMask hi lo &&& m = fieldMask hi lo) :
    getBits (v &&& m) hi lo = getBits v hi lo := by
  apply getBits_congr
  intro i h1 h2
  by_cases h64 : i < 64
  · have h3 : (fieldMask hi lo &&& m).toNat.testBit i = true := by
      rw [h, testBit_fieldMask]
      simp [h64, h1]
      omega
    rw [BitVec.toNat_and, Nat.testBit_and, Bool.and_eq_true] at h3
    rw [BitVec.toNat_and, Nat.testBit_and, h3.2, Bool.and_true]
  · rw [testBit_word_high _ (by omega), testBit_word_high _ (by omega)]

theorem getBits_lt (v : Word) (hi lo : Nat) : getBits v hi lo < 2 ^ (hi + 1 - lo) :=
  Nat.mod_lt _ (Nat.two_pow_pos _)

end Sys2Proof.Machine
end

