-- ==== Sys2Proof/Laws/Tables.lean ====
section
/-! SUPPORT. Sparse tables: what a key holds after a write or a removal of a key. -/

namespace Sys2Proof.Machine

variable {κ β : Type} [DecidableEq κ]

@[simp] theorem tget_nil (k : κ) : tget ([] : Table κ β) k = none := rfl

@[simp] theorem tget_tset_same (m : Table κ β) (k : κ) (v : β) : tget (tset m k v) k = some v := by
  induction m with
  | nil => simp [tset, tget]
  | cons e r ih =>
    obtain ⟨k', v'⟩ := e
    by_cases h : k' = k <;> simp [tset, tget, h, ih]

theorem tget_tset_ne (m : Table κ β) {k k' : κ} (v : β) (h : k' ≠ k) : tget (tset m k v) k' = tget m k' := by
  induction m with
  | nil => simp [tset, tget, h.symm]
  | cons e r ih =>
    obtain ⟨k1, v1⟩ := e
    by_cases h1 : k1 = k
    · subst h1
      simp [tset, tget, h.symm]
    · rw [tset, if_neg h1, tget, tget, ih]

@[simp] theorem tget_tdel_same (m : Table κ β) (k : κ) : tget (tdel m k) k = none := by
  induction m with
  | nil => rfl
  | cons e r ih =>
    obtain ⟨k', v'⟩ := e
    by_cases h : k' = k
    · simpa [tdel, h] using ih
    · have h2 : tdel ((k', v') :: r) k = (k', v') :: tdel r k := by simp [tdel, h]
      rw [h2, tget, if_neg h, ih]

theorem tget_tdel_ne (m : Table κ β) {k k' : κ} (h : k' ≠ k) : tget (tdel m k) k' = tget m k' := by
  induction m with
  | nil => rfl
  | cons e r ih =>
    obtain ⟨k1, v1⟩ := e
    by_cases h1 : k1 = k
    · have h2 : tdel ((k1, v1) :: r) k = tdel r k := by simp [tdel, h1]
      have h3 : k1 ≠ k' := fun h4 => h (h4.symm.trans h1)
      rw [h2, ih, tget, if_neg h3]
    · have h2 : tdel ((k1, v1) :: r) k = (k1, v1) :: tdel r k := by simp [tdel, h1]
      rw [h2, tget, tget, ih]

@[simp] theorem tgetD_tset_same (m : Table κ β) (k : κ) (v dflt : β) : tgetD (tset m k v) k dflt = v := by simp [tgetD]

theorem tgetD_tset_ne (m : Table κ β) {k k' : κ} (v dflt : β) (h : k' ≠ k) :
    tgetD (tset m k v) k' dflt = tgetD m k' dflt := by simp [tgetD, tget_tset_ne m v h]

@[simp] theorem tgetD_tdel_same (m : Table κ β) (k : κ) (dflt : β) : tgetD (tdel m k) k dflt = dflt := by simp [tgetD]

theorem tgetD_tdel_ne (m : Table κ β) {k k' : κ} (dflt : β) (h : k' ≠ k) :
    tgetD (tdel m k) k' dflt = tgetD m k' dflt := by simp [tgetD, tget_tdel_ne m h]

/-- Changing a key that is present. -/
theorem tget_tmod_same (m : Table κ β) (k : κ) (f : β → β) : tget (tmod m k f) k = (tget m k).map f := by
  unfold tmod
  cases h : tget m k <;> simp [h]

theorem tget_tmod_ne (m : Table κ β) {k k' : κ} (f : β → β) (h : k' ≠ k) : tget (tmod m k f) k' = tget m k' := by
  unfold tmod
  cases tget m k with
  | none => rfl
  | some v => exact tget_tset_ne m _ h

/-- Keeping only some keys. -/
theorem tget_filter (m : Table κ β) (p : κ → Bool) (k : κ) :
    tget (m.filter fun e => p e.1) k = if p k then tget m k else none := by
  induction m with
  | nil => simp
  | cons e r ih =>
    obtain ⟨k1, v1⟩ := e
    rw [List.filter_cons, tget]
    by_cases h : k1 = k
    · subst h
      cases h1 : p k1 <;> simp [h1, tget, ih]
    · cases h1 : p k1 <;> simp [tget, ih, h]

end Sys2Proof.Machine
end

