-- ==== Sys2Proof/Laws/Registers.lean ====
section
/-! SUPPORT. Reading a register after a write: the same field, another field, another register. -/

namespace Sys2Proof.Machine

/-- Whether every bit of a field is a bit of the register, so that a write of it is kept. -/
def Reg.holds (r : Reg) (hi lo : Nat) : Bool := decide (hi < 64) && decide (fieldMask hi lo &&& r.mask = fieldMask hi lo)

theorem Dev.reg_setReg_same (d : Dev) (r : Reg) (v : Word) : (d.setReg r v).reg r = v &&& r.mask := by
  unfold Dev.setReg Dev.reg
  by_cases h : v &&& r.mask = r.layout.reset <;> simp [h]

theorem Dev.reg_setReg_ne (d : Dev) {r r' : Reg} (v : Word) (h : r' ≠ r) : (d.setReg r v).reg r' = d.reg r' := by
  unfold Dev.setReg Dev.reg
  by_cases h1 : v &&& r.mask = r.layout.reset
  · simp [h1, tgetD_tdel_ne _ _ h]
  · simp [h1, tgetD_tset_ne _ _ _ h]

theorem Dev.rd_setReg_same (d : Dev) {r : Reg} (v : Word) {hi lo : Nat} (h : r.holds hi lo = true) :
    (d.setReg r v).rd r hi lo = getBits v hi lo := by
  simp only [Reg.holds, Bool.and_eq_true, decide_eq_true_eq] at h
  rw [Dev.rd, Dev.reg_setReg_same, getBits_and_mask h.2]

theorem Dev.rd_setReg_ne (d : Dev) {r r' : Reg} (v : Word) (hi lo : Nat) (h : r' ≠ r) :
    (d.setReg r v).rd r' hi lo = d.rd r' hi lo := by
  rw [Dev.rd, Dev.rd, Dev.reg_setReg_ne d v h]

/-- A field of a register holds what is written to it. -/
theorem Dev.rd_wr_same (d : Dev) {r : Reg} {hi lo : Nat} (n : Nat) (h : r.holds hi lo = true) :
    (d.wr r hi lo n).rd r hi lo = n % 2 ^ (hi + 1 - lo) := by
  have h2 := h
  simp only [Reg.holds, Bool.and_eq_true, decide_eq_true_eq] at h2
  rw [Dev.wr, Dev.rd_setReg_same d _ h, getBits_setBits_same n h2.1]

theorem Dev.reg_wr_ne (d : Dev) {r r' : Reg} (hi lo n : Nat) (h : r' ≠ r) : (d.wr r hi lo n).reg r' = d.reg r' :=
  Dev.reg_setReg_ne d _ h

theorem Dev.rd_wr_ne (d : Dev) {r r' : Reg} (hi lo n hi' lo' : Nat) (h : r' ≠ r) :
    (d.wr r hi lo n).rd r' hi' lo' = d.rd r' hi' lo' := Dev.rd_setReg_ne d _ _ _ h

/-- A field keeps what it holds when a field beside it is written, in its register or in another. -/
theorem Dev.rd_wr_field (d : Dev) {r r' : Reg} {hi lo hi' lo' : Nat} (n : Nat) (h : r'.holds hi' lo' = true)
    (hne : hi' < lo ∨ hi < lo') : (d.wr r hi lo n).rd r' hi' lo' = d.rd r' hi' lo' := by
  by_cases hr : r' = r
  · subst hr
    rw [Dev.wr, Dev.rd_setReg_same d _ h, getBits_setBits_ne n hne, Dev.rd]
  · exact d.rd_wr_ne _ _ _ _ _ hr

theorem Dev.bitOf_wr_same (d : Dev) {r : Reg} {i : Nat} (n : Nat) (h : r.holds i i = true) :
    (d.wr r i i n).bitOf r i = decide (n % 2 = 1) := by
  rw [Dev.bitOf, Dev.rd_wr_same d n h]
  simp

theorem Dev.bitOf_wr_field (d : Dev) {r r' : Reg} {hi lo i : Nat} (n : Nat) (h : r'.holds i i = true)
    (hne : i < lo ∨ hi < i) : (d.wr r hi lo n).bitOf r' i = d.bitOf r' i := by
  rw [Dev.bitOf, Dev.rd_wr_field d n h hne, Dev.bitOf]

theorem Dev.bitOf_wr_ne (d : Dev) {r r' : Reg} (hi lo n i : Nat) (h : r' ≠ r) :
    (d.wr r hi lo n).bitOf r' i = d.bitOf r' i := by
  rw [Dev.bitOf, Dev.rd_wr_ne d hi lo n i i h, Dev.bitOf]

theorem Dev.bitOf_setReg_ne (d : Dev) {r r' : Reg} (v : Word) (i : Nat) (h : r' ≠ r) :
    (d.setReg r v).bitOf r' i = d.bitOf r' i := by
  rw [Dev.bitOf, Dev.rd_setReg_ne d v i i h, Dev.bitOf]

/-- A field is never wider than its bits. -/
theorem Dev.rd_lt (d : Dev) (r : Reg) (hi lo : Nat) : d.rd r hi lo < 2 ^ (hi + 1 - lo) := getBits_lt _ _ _

/-- The mask of a register's fields, one field at a time. -/
theorem Dev.rd_eq_of_reg {d d' : Dev} {r : Reg} (h : d.reg r = d'.reg r) (hi lo : Nat) : d.rd r hi lo = d'.rd r hi lo := by
  rw [Dev.rd, Dev.rd, h]

theorem Dev.bitOf_eq_of_reg {d d' : Dev} {r : Reg} (h : d.reg r = d'.reg r) (i : Nat) : d.bitOf r i = d'.bitOf r i := by
  rw [Dev.bitOf, Dev.bitOf, Dev.rd_eq_of_reg h]

/-- A reset returns the registers that it covers to their reset values, and no others. -/
theorem Dev.reg_resetRegs (d : Dev) (which : Reg → Bool) (r : Reg) :
    (d.resetRegs which).reg r = if which r then r.layout.reset else d.reg r := by
  unfold Dev.resetRegs Dev.reg tgetD
  dsimp only
  rw [tget_filter d.regs (fun k => !which k)]
  cases which r <;> simp

theorem Dev.reg_resetDomain (d : Dev) (x : ResetDomain) (r : Reg) :
    (d.resetDomain x).reg r = if x.covers r.layout.domain then r.layout.reset else d.reg r :=
  d.reg_resetRegs (fun r => x.covers r.layout.domain) r

end Sys2Proof.Machine
end

