-- ==== Sys2Proof/Laws/State.lean ====
section
/-! SUPPORT. What each shared operation leaves alone: one lemma for each operation and each component of the device that it
does not touch. -/

namespace Sys2Proof.Machine

/-- A component that one step of a fold leaves alone is left alone by the fold. -/
theorem foldl_frame {δ α β : Type} (g : δ → β) (f : δ → α → δ) (l : List α) (h : ∀ d x, g (f d x) = g d) (d : δ) :
    g (l.foldl f d) = g d := by
  induction l generalizing d with
  | nil => rfl
  | cons x r ih => rw [List.foldl_cons, ih, h]

@[simp] theorem Dev.emit_regs (d : Dev) (o : Out) : (d.emit o).regs = d.regs := rfl
@[simp] theorem Dev.emit_pool (d : Dev) (o : Out) : (d.emit o).pool = d.pool := rfl
@[simp] theorem Dev.emit_dir (d : Dev) (o : Out) : (d.emit o).dir = d.dir := rfl
@[simp] theorem Dev.emit_sw (d : Dev) (o : Out) : (d.emit o).sw = d.sw := rfl
@[simp] theorem Dev.emit_svc (d : Dev) (o : Out) : (d.emit o).svc = d.svc := rfl
@[simp] theorem Dev.emit_port (d : Dev) (o : Out) : (d.emit o).port = d.port := rfl
@[simp] theorem Dev.emit_link (d : Dev) (o : Out) : (d.emit o).link = d.link := rfl
@[simp] theorem Dev.emit_fab (d : Dev) (o : Out) : (d.emit o).fab = d.fab := rfl
@[simp] theorem Dev.emit_mgmt (d : Dev) (o : Out) : (d.emit o).mgmt = d.mgmt := rfl
@[simp] theorem Dev.emit_sec (d : Dev) (o : Out) : (d.emit o).sec = d.sec := rfl
@[simp] theorem Dev.emit_pwr (d : Dev) (o : Out) : (d.emit o).pwr = d.pwr := rfl
@[simp] theorem Dev.emit_flt (d : Dev) (o : Out) : (d.emit o).flt = d.flt := rfl
@[simp] theorem Dev.emit_tel (d : Dev) (o : Out) : (d.emit o).tel = d.tel := rfl
@[simp] theorem Dev.emit_free (d : Dev) (o : Out) : (d.emit o).free = d.free := rfl

@[simp] theorem Dev.emits_regs (d : Dev) (os : List Out) : (d.emits os).regs = d.regs := rfl
@[simp] theorem Dev.emits_pool (d : Dev) (os : List Out) : (d.emits os).pool = d.pool := rfl
@[simp] theorem Dev.emits_dir (d : Dev) (os : List Out) : (d.emits os).dir = d.dir := rfl
@[simp] theorem Dev.emits_sw (d : Dev) (os : List Out) : (d.emits os).sw = d.sw := rfl
@[simp] theorem Dev.emits_svc (d : Dev) (os : List Out) : (d.emits os).svc = d.svc := rfl
@[simp] theorem Dev.emits_port (d : Dev) (os : List Out) : (d.emits os).port = d.port := rfl
@[simp] theorem Dev.emits_link (d : Dev) (os : List Out) : (d.emits os).link = d.link := rfl
@[simp] theorem Dev.emits_fab (d : Dev) (os : List Out) : (d.emits os).fab = d.fab := rfl
@[simp] theorem Dev.emits_mgmt (d : Dev) (os : List Out) : (d.emits os).mgmt = d.mgmt := rfl
@[simp] theorem Dev.emits_sec (d : Dev) (os : List Out) : (d.emits os).sec = d.sec := rfl
@[simp] theorem Dev.emits_pwr (d : Dev) (os : List Out) : (d.emits os).pwr = d.pwr := rfl
@[simp] theorem Dev.emits_flt (d : Dev) (os : List Out) : (d.emits os).flt = d.flt := rfl
@[simp] theorem Dev.emits_tel (d : Dev) (os : List Out) : (d.emits os).tel = d.tel := rfl
@[simp] theorem Dev.emits_free (d : Dev) (os : List Out) : (d.emits os).free = d.free := rfl

@[simp] theorem Dev.setReg_pool (d : Dev) (r : Reg) (v : Word) : (d.setReg r v).pool = d.pool := rfl
@[simp] theorem Dev.setReg_dir (d : Dev) (r : Reg) (v : Word) : (d.setReg r v).dir = d.dir := rfl
@[simp] theorem Dev.setReg_sw (d : Dev) (r : Reg) (v : Word) : (d.setReg r v).sw = d.sw := rfl
@[simp] theorem Dev.setReg_svc (d : Dev) (r : Reg) (v : Word) : (d.setReg r v).svc = d.svc := rfl
@[simp] theorem Dev.setReg_port (d : Dev) (r : Reg) (v : Word) : (d.setReg r v).port = d.port := rfl
@[simp] theorem Dev.setReg_link (d : Dev) (r : Reg) (v : Word) : (d.setReg r v).link = d.link := rfl
@[simp] theorem Dev.setReg_fab (d : Dev) (r : Reg) (v : Word) : (d.setReg r v).fab = d.fab := rfl
@[simp] theorem Dev.setReg_mgmt (d : Dev) (r : Reg) (v : Word) : (d.setReg r v).mgmt = d.mgmt := rfl
@[simp] theorem Dev.setReg_sec (d : Dev) (r : Reg) (v : Word) : (d.setReg r v).sec = d.sec := rfl
@[simp] theorem Dev.setReg_pwr (d : Dev) (r : Reg) (v : Word) : (d.setReg r v).pwr = d.pwr := rfl
@[simp] theorem Dev.setReg_flt (d : Dev) (r : Reg) (v : Word) : (d.setReg r v).flt = d.flt := rfl
@[simp] theorem Dev.setReg_tel (d : Dev) (r : Reg) (v : Word) : (d.setReg r v).tel = d.tel := rfl
@[simp] theorem Dev.setReg_out (d : Dev) (r : Reg) (v : Word) : (d.setReg r v).out = d.out := rfl
@[simp] theorem Dev.setReg_free (d : Dev) (r : Reg) (v : Word) : (d.setReg r v).free = d.free := rfl

@[simp] theorem Dev.wr_pool (d : Dev) (r : Reg) (hi lo n : Nat) : (d.wr r hi lo n).pool = d.pool := rfl
@[simp] theorem Dev.wr_dir (d : Dev) (r : Reg) (hi lo n : Nat) : (d.wr r hi lo n).dir = d.dir := rfl
@[simp] theorem Dev.wr_sw (d : Dev) (r : Reg) (hi lo n : Nat) : (d.wr r hi lo n).sw = d.sw := rfl
@[simp] theorem Dev.wr_svc (d : Dev) (r : Reg) (hi lo n : Nat) : (d.wr r hi lo n).svc = d.svc := rfl
@[simp] theorem Dev.wr_port (d : Dev) (r : Reg) (hi lo n : Nat) : (d.wr r hi lo n).port = d.port := rfl
@[simp] theorem Dev.wr_link (d : Dev) (r : Reg) (hi lo n : Nat) : (d.wr r hi lo n).link = d.link := rfl
@[simp] theorem Dev.wr_fab (d : Dev) (r : Reg) (hi lo n : Nat) : (d.wr r hi lo n).fab = d.fab := rfl
@[simp] theorem Dev.wr_mgmt (d : Dev) (r : Reg) (hi lo n : Nat) : (d.wr r hi lo n).mgmt = d.mgmt := rfl
@[simp] theorem Dev.wr_sec (d : Dev) (r : Reg) (hi lo n : Nat) : (d.wr r hi lo n).sec = d.sec := rfl
@[simp] theorem Dev.wr_pwr (d : Dev) (r : Reg) (hi lo n : Nat) : (d.wr r hi lo n).pwr = d.pwr := rfl
@[simp] theorem Dev.wr_flt (d : Dev) (r : Reg) (hi lo n : Nat) : (d.wr r hi lo n).flt = d.flt := rfl
@[simp] theorem Dev.wr_tel (d : Dev) (r : Reg) (hi lo n : Nat) : (d.wr r hi lo n).tel = d.tel := rfl
@[simp] theorem Dev.wr_out (d : Dev) (r : Reg) (hi lo n : Nat) : (d.wr r hi lo n).out = d.out := rfl
@[simp] theorem Dev.wr_free (d : Dev) (r : Reg) (hi lo n : Nat) : (d.wr r hi lo n).free = d.free := rfl

@[simp] theorem Dev.bumpWrap_pool (d : Dev) (r : Reg) (hi lo n : Nat) : (d.bumpWrap r hi lo n).pool = d.pool := rfl
@[simp] theorem Dev.bumpWrap_dir (d : Dev) (r : Reg) (hi lo n : Nat) : (d.bumpWrap r hi lo n).dir = d.dir := rfl
@[simp] theorem Dev.bumpWrap_sw (d : Dev) (r : Reg) (hi lo n : Nat) : (d.bumpWrap r hi lo n).sw = d.sw := rfl
@[simp] theorem Dev.bumpWrap_svc (d : Dev) (r : Reg) (hi lo n : Nat) : (d.bumpWrap r hi lo n).svc = d.svc := rfl
@[simp] theorem Dev.bumpWrap_port (d : Dev) (r : Reg) (hi lo n : Nat) : (d.bumpWrap r hi lo n).port = d.port := rfl
@[simp] theorem Dev.bumpWrap_link (d : Dev) (r : Reg) (hi lo n : Nat) : (d.bumpWrap r hi lo n).link = d.link := rfl
@[simp] theorem Dev.bumpWrap_fab (d : Dev) (r : Reg) (hi lo n : Nat) : (d.bumpWrap r hi lo n).fab = d.fab := rfl
@[simp] theorem Dev.bumpWrap_mgmt (d : Dev) (r : Reg) (hi lo n : Nat) : (d.bumpWrap r hi lo n).mgmt = d.mgmt := rfl
@[simp] theorem Dev.bumpWrap_sec (d : Dev) (r : Reg) (hi lo n : Nat) : (d.bumpWrap r hi lo n).sec = d.sec := rfl
@[simp] theorem Dev.bumpWrap_pwr (d : Dev) (r : Reg) (hi lo n : Nat) : (d.bumpWrap r hi lo n).pwr = d.pwr := rfl
@[simp] theorem Dev.bumpWrap_flt (d : Dev) (r : Reg) (hi lo n : Nat) : (d.bumpWrap r hi lo n).flt = d.flt := rfl
@[simp] theorem Dev.bumpWrap_tel (d : Dev) (r : Reg) (hi lo n : Nat) : (d.bumpWrap r hi lo n).tel = d.tel := rfl
@[simp] theorem Dev.bumpWrap_out (d : Dev) (r : Reg) (hi lo n : Nat) : (d.bumpWrap r hi lo n).out = d.out := rfl
@[simp] theorem Dev.bumpWrap_free (d : Dev) (r : Reg) (hi lo n : Nat) : (d.bumpWrap r hi lo n).free = d.free := rfl

@[simp] theorem Dev.bumpSat_pool (d : Dev) (r : Reg) (hi lo n : Nat) : (d.bumpSat r hi lo n).pool = d.pool := rfl
@[simp] theorem Dev.bumpSat_dir (d : Dev) (r : Reg) (hi lo n : Nat) : (d.bumpSat r hi lo n).dir = d.dir := rfl
@[simp] theorem Dev.bumpSat_sw (d : Dev) (r : Reg) (hi lo n : Nat) : (d.bumpSat r hi lo n).sw = d.sw := rfl
@[simp] theorem Dev.bumpSat_svc (d : Dev) (r : Reg) (hi lo n : Nat) : (d.bumpSat r hi lo n).svc = d.svc := rfl
@[simp] theorem Dev.bumpSat_port (d : Dev) (r : Reg) (hi lo n : Nat) : (d.bumpSat r hi lo n).port = d.port := rfl
@[simp] theorem Dev.bumpSat_link (d : Dev) (r : Reg) (hi lo n : Nat) : (d.bumpSat r hi lo n).link = d.link := rfl
@[simp] theorem Dev.bumpSat_fab (d : Dev) (r : Reg) (hi lo n : Nat) : (d.bumpSat r hi lo n).fab = d.fab := rfl
@[simp] theorem Dev.bumpSat_mgmt (d : Dev) (r : Reg) (hi lo n : Nat) : (d.bumpSat r hi lo n).mgmt = d.mgmt := rfl
@[simp] theorem Dev.bumpSat_sec (d : Dev) (r : Reg) (hi lo n : Nat) : (d.bumpSat r hi lo n).sec = d.sec := rfl
@[simp] theorem Dev.bumpSat_pwr (d : Dev) (r : Reg) (hi lo n : Nat) : (d.bumpSat r hi lo n).pwr = d.pwr := rfl
@[simp] theorem Dev.bumpSat_flt (d : Dev) (r : Reg) (hi lo n : Nat) : (d.bumpSat r hi lo n).flt = d.flt := rfl
@[simp] theorem Dev.bumpSat_tel (d : Dev) (r : Reg) (hi lo n : Nat) : (d.bumpSat r hi lo n).tel = d.tel := rfl
@[simp] theorem Dev.bumpSat_out (d : Dev) (r : Reg) (hi lo n : Nat) : (d.bumpSat r hi lo n).out = d.out := rfl
@[simp] theorem Dev.bumpSat_free (d : Dev) (r : Reg) (hi lo n : Nat) : (d.bumpSat r hi lo n).free = d.free := rfl

@[simp] theorem Dev.resetDomain_pool (d : Dev) (x : ResetDomain) : (d.resetDomain x).pool = d.pool := rfl
@[simp] theorem Dev.resetDomain_dir (d : Dev) (x : ResetDomain) : (d.resetDomain x).dir = d.dir := rfl
@[simp] theorem Dev.resetDomain_sw (d : Dev) (x : ResetDomain) : (d.resetDomain x).sw = d.sw := rfl
@[simp] theorem Dev.resetDomain_svc (d : Dev) (x : ResetDomain) : (d.resetDomain x).svc = d.svc := rfl
@[simp] theorem Dev.resetDomain_port (d : Dev) (x : ResetDomain) : (d.resetDomain x).port = d.port := rfl
@[simp] theorem Dev.resetDomain_link (d : Dev) (x : ResetDomain) : (d.resetDomain x).link = d.link := rfl
@[simp] theorem Dev.resetDomain_fab (d : Dev) (x : ResetDomain) : (d.resetDomain x).fab = d.fab := rfl
@[simp] theorem Dev.resetDomain_mgmt (d : Dev) (x : ResetDomain) : (d.resetDomain x).mgmt = d.mgmt := rfl
@[simp] theorem Dev.resetDomain_sec (d : Dev) (x : ResetDomain) : (d.resetDomain x).sec = d.sec := rfl
@[simp] theorem Dev.resetDomain_pwr (d : Dev) (x : ResetDomain) : (d.resetDomain x).pwr = d.pwr := rfl
@[simp] theorem Dev.resetDomain_flt (d : Dev) (x : ResetDomain) : (d.resetDomain x).flt = d.flt := rfl
@[simp] theorem Dev.resetDomain_tel (d : Dev) (x : ResetDomain) : (d.resetDomain x).tel = d.tel := rfl
@[simp] theorem Dev.resetDomain_out (d : Dev) (x : ResetDomain) : (d.resetDomain x).out = d.out := rfl
@[simp] theorem Dev.resetDomain_free (d : Dev) (x : ResetDomain) : (d.resetDomain x).free = d.free := rfl

@[simp] theorem Dev.resetRegs_pool (d : Dev) (w : Reg → Bool) : (d.resetRegs w).pool = d.pool := rfl
@[simp] theorem Dev.resetRegs_dir (d : Dev) (w : Reg → Bool) : (d.resetRegs w).dir = d.dir := rfl
@[simp] theorem Dev.resetRegs_sw (d : Dev) (w : Reg → Bool) : (d.resetRegs w).sw = d.sw := rfl
@[simp] theorem Dev.resetRegs_svc (d : Dev) (w : Reg → Bool) : (d.resetRegs w).svc = d.svc := rfl
@[simp] theorem Dev.resetRegs_port (d : Dev) (w : Reg → Bool) : (d.resetRegs w).port = d.port := rfl
@[simp] theorem Dev.resetRegs_link (d : Dev) (w : Reg → Bool) : (d.resetRegs w).link = d.link := rfl
@[simp] theorem Dev.resetRegs_fab (d : Dev) (w : Reg → Bool) : (d.resetRegs w).fab = d.fab := rfl
@[simp] theorem Dev.resetRegs_mgmt (d : Dev) (w : Reg → Bool) : (d.resetRegs w).mgmt = d.mgmt := rfl
@[simp] theorem Dev.resetRegs_sec (d : Dev) (w : Reg → Bool) : (d.resetRegs w).sec = d.sec := rfl
@[simp] theorem Dev.resetRegs_pwr (d : Dev) (w : Reg → Bool) : (d.resetRegs w).pwr = d.pwr := rfl
@[simp] theorem Dev.resetRegs_flt (d : Dev) (w : Reg → Bool) : (d.resetRegs w).flt = d.flt := rfl
@[simp] theorem Dev.resetRegs_tel (d : Dev) (w : Reg → Bool) : (d.resetRegs w).tel = d.tel := rfl
@[simp] theorem Dev.resetRegs_out (d : Dev) (w : Reg → Bool) : (d.resetRegs w).out = d.out := rfl
@[simp] theorem Dev.resetRegs_free (d : Dev) (w : Reg → Bool) : (d.resetRegs w).free = d.free := rfl

@[simp] theorem Dev.setDomState_pool (d : Dev) (i st : Nat) : (d.setDomState i st).pool = d.pool := rfl
@[simp] theorem Dev.setDomState_dir (d : Dev) (i st : Nat) : (d.setDomState i st).dir = d.dir := rfl
@[simp] theorem Dev.setDomState_sw (d : Dev) (i st : Nat) : (d.setDomState i st).sw = d.sw := rfl
@[simp] theorem Dev.setDomState_svc (d : Dev) (i st : Nat) : (d.setDomState i st).svc = d.svc := rfl
@[simp] theorem Dev.setDomState_port (d : Dev) (i st : Nat) : (d.setDomState i st).port = d.port := rfl
@[simp] theorem Dev.setDomState_link (d : Dev) (i st : Nat) : (d.setDomState i st).link = d.link := rfl
@[simp] theorem Dev.setDomState_fab (d : Dev) (i st : Nat) : (d.setDomState i st).fab = d.fab := rfl
@[simp] theorem Dev.setDomState_mgmt (d : Dev) (i st : Nat) : (d.setDomState i st).mgmt = d.mgmt := rfl
@[simp] theorem Dev.setDomState_sec (d : Dev) (i st : Nat) : (d.setDomState i st).sec = d.sec := rfl
@[simp] theorem Dev.setDomState_pwr (d : Dev) (i st : Nat) : (d.setDomState i st).pwr = d.pwr := rfl
@[simp] theorem Dev.setDomState_flt (d : Dev) (i st : Nat) : (d.setDomState i st).flt = d.flt := rfl
@[simp] theorem Dev.setDomState_tel (d : Dev) (i st : Nat) : (d.setDomState i st).tel = d.tel := rfl
@[simp] theorem Dev.setDomState_out (d : Dev) (i st : Nat) : (d.setDomState i st).out = d.out := rfl
@[simp] theorem Dev.setDomState_free (d : Dev) (i st : Nat) : (d.setDomState i st).free = d.free := rfl

@[simp] theorem Dev.openNat_regs (d : Dev) : (d.openNat.2).regs = d.regs := rfl
@[simp] theorem Dev.openNat_pool (d : Dev) : (d.openNat.2).pool = d.pool := rfl
@[simp] theorem Dev.openNat_dir (d : Dev) : (d.openNat.2).dir = d.dir := rfl
@[simp] theorem Dev.openNat_sw (d : Dev) : (d.openNat.2).sw = d.sw := rfl
@[simp] theorem Dev.openNat_svc (d : Dev) : (d.openNat.2).svc = d.svc := rfl
@[simp] theorem Dev.openNat_port (d : Dev) : (d.openNat.2).port = d.port := rfl
@[simp] theorem Dev.openNat_link (d : Dev) : (d.openNat.2).link = d.link := rfl
@[simp] theorem Dev.openNat_fab (d : Dev) : (d.openNat.2).fab = d.fab := rfl
@[simp] theorem Dev.openNat_mgmt (d : Dev) : (d.openNat.2).mgmt = d.mgmt := rfl
@[simp] theorem Dev.openNat_sec (d : Dev) : (d.openNat.2).sec = d.sec := rfl
@[simp] theorem Dev.openNat_pwr (d : Dev) : (d.openNat.2).pwr = d.pwr := rfl
@[simp] theorem Dev.openNat_flt (d : Dev) : (d.openNat.2).flt = d.flt := rfl
@[simp] theorem Dev.openNat_tel (d : Dev) : (d.openNat.2).tel = d.tel := rfl
@[simp] theorem Dev.openNat_out (d : Dev) : (d.openNat.2).out = d.out := rfl

@[simp] theorem Dev.openBits_regs (d : Dev) (w : Nat) : ((d.openBits w).2).regs = d.regs := rfl
@[simp] theorem Dev.openBits_pool (d : Dev) (w : Nat) : ((d.openBits w).2).pool = d.pool := rfl
@[simp] theorem Dev.openBits_dir (d : Dev) (w : Nat) : ((d.openBits w).2).dir = d.dir := rfl
@[simp] theorem Dev.openBits_sw (d : Dev) (w : Nat) : ((d.openBits w).2).sw = d.sw := rfl
@[simp] theorem Dev.openBits_svc (d : Dev) (w : Nat) : ((d.openBits w).2).svc = d.svc := rfl
@[simp] theorem Dev.openBits_port (d : Dev) (w : Nat) : ((d.openBits w).2).port = d.port := rfl
@[simp] theorem Dev.openBits_link (d : Dev) (w : Nat) : ((d.openBits w).2).link = d.link := rfl
@[simp] theorem Dev.openBits_fab (d : Dev) (w : Nat) : ((d.openBits w).2).fab = d.fab := rfl
@[simp] theorem Dev.openBits_mgmt (d : Dev) (w : Nat) : ((d.openBits w).2).mgmt = d.mgmt := rfl
@[simp] theorem Dev.openBits_sec (d : Dev) (w : Nat) : ((d.openBits w).2).sec = d.sec := rfl
@[simp] theorem Dev.openBits_pwr (d : Dev) (w : Nat) : ((d.openBits w).2).pwr = d.pwr := rfl
@[simp] theorem Dev.openBits_flt (d : Dev) (w : Nat) : ((d.openBits w).2).flt = d.flt := rfl
@[simp] theorem Dev.openBits_tel (d : Dev) (w : Nat) : ((d.openBits w).2).tel = d.tel := rfl
@[simp] theorem Dev.openBits_out (d : Dev) (w : Nat) : ((d.openBits w).2).out = d.out := rfl

@[simp] theorem Dev.choose_regs (d : Dev) {α : Type} (l : List α) : ((d.choose l).2).regs = d.regs := by
  unfold Dev.choose; split <;> rfl
@[simp] theorem Dev.choose_pool (d : Dev) {α : Type} (l : List α) : ((d.choose l).2).pool = d.pool := by
  unfold Dev.choose; split <;> rfl
@[simp] theorem Dev.choose_dir (d : Dev) {α : Type} (l : List α) : ((d.choose l).2).dir = d.dir := by
  unfold Dev.choose; split <;> rfl
@[simp] theorem Dev.choose_sw (d : Dev) {α : Type} (l : List α) : ((d.choose l).2).sw = d.sw := by
  unfold Dev.choose; split <;> rfl
@[simp] theorem Dev.choose_svc (d : Dev) {α : Type} (l : List α) : ((d.choose l).2).svc = d.svc := by
  unfold Dev.choose; split <;> rfl
@[simp] theorem Dev.choose_port (d : Dev) {α : Type} (l : List α) : ((d.choose l).2).port = d.port := by
  unfold Dev.choose; split <;> rfl
@[simp] theorem Dev.choose_link (d : Dev) {α : Type} (l : List α) : ((d.choose l).2).link = d.link := by
  unfold Dev.choose; split <;> rfl
@[simp] theorem Dev.choose_fab (d : Dev) {α : Type} (l : List α) : ((d.choose l).2).fab = d.fab := by
  unfold Dev.choose; split <;> rfl
@[simp] theorem Dev.choose_mgmt (d : Dev) {α : Type} (l : List α) : ((d.choose l).2).mgmt = d.mgmt := by
  unfold Dev.choose; split <;> rfl
@[simp] theorem Dev.choose_sec (d : Dev) {α : Type} (l : List α) : ((d.choose l).2).sec = d.sec := by
  unfold Dev.choose; split <;> rfl
@[simp] theorem Dev.choose_pwr (d : Dev) {α : Type} (l : List α) : ((d.choose l).2).pwr = d.pwr := by
  unfold Dev.choose; split <;> rfl
@[simp] theorem Dev.choose_flt (d : Dev) {α : Type} (l : List α) : ((d.choose l).2).flt = d.flt := by
  unfold Dev.choose; split <;> rfl
@[simp] theorem Dev.choose_tel (d : Dev) {α : Type} (l : List α) : ((d.choose l).2).tel = d.tel := by
  unfold Dev.choose; split <;> rfl
@[simp] theorem Dev.choose_out (d : Dev) {α : Type} (l : List α) : ((d.choose l).2).out = d.out := by
  unfold Dev.choose; split <;> rfl

@[simp] theorem Dev.wake_regs (d : Dev) (i : Nat) : (d.wake i).regs = d.regs := by
  simp only [Dev.wake]; repeat' split
  all_goals simp
@[simp] theorem Dev.wake_pool (d : Dev) (i : Nat) : (d.wake i).pool = d.pool := by
  simp only [Dev.wake]; repeat' split
  all_goals simp
@[simp] theorem Dev.wake_dir (d : Dev) (i : Nat) : (d.wake i).dir = d.dir := by
  simp only [Dev.wake]; repeat' split
  all_goals simp
@[simp] theorem Dev.wake_sw (d : Dev) (i : Nat) : (d.wake i).sw = d.sw := by
  simp only [Dev.wake]; repeat' split
  all_goals simp
@[simp] theorem Dev.wake_svc (d : Dev) (i : Nat) : (d.wake i).svc = d.svc := by
  simp only [Dev.wake]; repeat' split
  all_goals simp
@[simp] theorem Dev.wake_port (d : Dev) (i : Nat) : (d.wake i).port = d.port := by
  simp only [Dev.wake]; repeat' split
  all_goals simp
@[simp] theorem Dev.wake_link (d : Dev) (i : Nat) : (d.wake i).link = d.link := by
  simp only [Dev.wake]; repeat' split
  all_goals simp
@[simp] theorem Dev.wake_fab (d : Dev) (i : Nat) : (d.wake i).fab = d.fab := by
  simp only [Dev.wake]; repeat' split
  all_goals simp
@[simp] theorem Dev.wake_mgmt (d : Dev) (i : Nat) : (d.wake i).mgmt = d.mgmt := by
  simp only [Dev.wake]; repeat' split
  all_goals simp
@[simp] theorem Dev.wake_sec (d : Dev) (i : Nat) : (d.wake i).sec = d.sec := by
  simp only [Dev.wake]; repeat' split
  all_goals simp
@[simp] theorem Dev.wake_flt (d : Dev) (i : Nat) : (d.wake i).flt = d.flt := by
  simp only [Dev.wake]; repeat' split
  all_goals simp
@[simp] theorem Dev.wake_tel (d : Dev) (i : Nat) : (d.wake i).tel = d.tel := by
  simp only [Dev.wake]; repeat' split
  all_goals simp
@[simp] theorem Dev.wake_out (d : Dev) (i : Nat) : (d.wake i).out = d.out := by
  simp only [Dev.wake]; repeat' split
  all_goals simp
@[simp] theorem Dev.wake_free (d : Dev) (i : Nat) : (d.wake i).free = d.free := by
  simp only [Dev.wake]; repeat' split
  all_goals simp

@[simp] theorem Dev.report_pool (d : Dev) (src cls detail : Nat) : (d.report src cls detail).pool = d.pool := by
  simp only [Dev.report]; repeat' split
  all_goals simp
@[simp] theorem Dev.report_dir (d : Dev) (src cls detail : Nat) : (d.report src cls detail).dir = d.dir := by
  simp only [Dev.report]; repeat' split
  all_goals simp
@[simp] theorem Dev.report_sw (d : Dev) (src cls detail : Nat) : (d.report src cls detail).sw = d.sw := by
  simp only [Dev.report]; repeat' split
  all_goals simp
@[simp] theorem Dev.report_svc (d : Dev) (src cls detail : Nat) : (d.report src cls detail).svc = d.svc := by
  simp only [Dev.report]; repeat' split
  all_goals simp
@[simp] theorem Dev.report_port (d : Dev) (src cls detail : Nat) : (d.report src cls detail).port = d.port := by
  simp only [Dev.report]; repeat' split
  all_goals simp
@[simp] theorem Dev.report_link (d : Dev) (src cls detail : Nat) : (d.report src cls detail).link = d.link := by
  simp only [Dev.report]; repeat' split
  all_goals simp
@[simp] theorem Dev.report_fab (d : Dev) (src cls detail : Nat) : (d.report src cls detail).fab = d.fab := by
  simp only [Dev.report]; repeat' split
  all_goals simp
@[simp] theorem Dev.report_mgmt (d : Dev) (src cls detail : Nat) : (d.report src cls detail).mgmt = d.mgmt := by
  simp only [Dev.report]; repeat' split
  all_goals simp
@[simp] theorem Dev.report_sec (d : Dev) (src cls detail : Nat) : (d.report src cls detail).sec = d.sec := by
  simp only [Dev.report]; repeat' split
  all_goals simp
@[simp] theorem Dev.report_pwr (d : Dev) (src cls detail : Nat) : (d.report src cls detail).pwr = d.pwr := by
  simp only [Dev.report]; repeat' split
  all_goals simp
@[simp] theorem Dev.report_tel (d : Dev) (src cls detail : Nat) : (d.report src cls detail).tel = d.tel := by
  simp only [Dev.report]; repeat' split
  all_goals simp
@[simp] theorem Dev.report_out (d : Dev) (src cls detail : Nat) : (d.report src cls detail).out = d.out := by
  simp only [Dev.report]; repeat' split
  all_goals simp
@[simp] theorem Dev.report_free (d : Dev) (src cls detail : Nat) : (d.report src cls detail).free = d.free := by
  simp only [Dev.report]; repeat' split
  all_goals simp

@[simp] theorem Dev.addCounter_pool (d : Dev) (u i n : Nat) : (d.addCounter u i n).pool = d.pool := by
  simp only [Dev.addCounter]; repeat' split
  all_goals simp
@[simp] theorem Dev.addCounter_dir (d : Dev) (u i n : Nat) : (d.addCounter u i n).dir = d.dir := by
  simp only [Dev.addCounter]; repeat' split
  all_goals simp
@[simp] theorem Dev.addCounter_sw (d : Dev) (u i n : Nat) : (d.addCounter u i n).sw = d.sw := by
  simp only [Dev.addCounter]; repeat' split
  all_goals simp
@[simp] theorem Dev.addCounter_svc (d : Dev) (u i n : Nat) : (d.addCounter u i n).svc = d.svc := by
  simp only [Dev.addCounter]; repeat' split
  all_goals simp
@[simp] theorem Dev.addCounter_port (d : Dev) (u i n : Nat) : (d.addCounter u i n).port = d.port := by
  simp only [Dev.addCounter]; repeat' split
  all_goals simp
@[simp] theorem Dev.addCounter_link (d : Dev) (u i n : Nat) : (d.addCounter u i n).link = d.link := by
  simp only [Dev.addCounter]; repeat' split
  all_goals simp
@[simp] theorem Dev.addCounter_fab (d : Dev) (u i n : Nat) : (d.addCounter u i n).fab = d.fab := by
  simp only [Dev.addCounter]; repeat' split
  all_goals simp
@[simp] theorem Dev.addCounter_mgmt (d : Dev) (u i n : Nat) : (d.addCounter u i n).mgmt = d.mgmt := by
  simp only [Dev.addCounter]; repeat' split
  all_goals simp
@[simp] theorem Dev.addCounter_sec (d : Dev) (u i n : Nat) : (d.addCounter u i n).sec = d.sec := by
  simp only [Dev.addCounter]; repeat' split
  all_goals simp
@[simp] theorem Dev.addCounter_pwr (d : Dev) (u i n : Nat) : (d.addCounter u i n).pwr = d.pwr := by
  simp only [Dev.addCounter]; repeat' split
  all_goals simp
@[simp] theorem Dev.addCounter_tel (d : Dev) (u i n : Nat) : (d.addCounter u i n).tel = d.tel := by
  simp only [Dev.addCounter]; repeat' split
  all_goals simp
@[simp] theorem Dev.addCounter_out (d : Dev) (u i n : Nat) : (d.addCounter u i n).out = d.out := by
  simp only [Dev.addCounter]; repeat' split
  all_goals simp
@[simp] theorem Dev.addCounter_free (d : Dev) (u i n : Nat) : (d.addCounter u i n).free = d.free := by
  simp only [Dev.addCounter]; repeat' split
  all_goals simp

@[simp] theorem Dev.count_pool (d : Dev) (u ev n : Nat) : (d.count u ev n).pool = d.pool := by
  unfold Dev.count; split
  · rfl
  · refine foldl_frame Dev.pool _ _ ?_ d
    intro d i; dsimp only; repeat' split
    all_goals simp
@[simp] theorem Dev.count_dir (d : Dev) (u ev n : Nat) : (d.count u ev n).dir = d.dir := by
  unfold Dev.count; split
  · rfl
  · refine foldl_frame Dev.dir _ _ ?_ d
    intro d i; dsimp only; repeat' split
    all_goals simp
@[simp] theorem Dev.count_sw (d : Dev) (u ev n : Nat) : (d.count u ev n).sw = d.sw := by
  unfold Dev.count; split
  · rfl
  · refine foldl_frame Dev.sw _ _ ?_ d
    intro d i; dsimp only; repeat' split
    all_goals simp
@[simp] theorem Dev.count_svc (d : Dev) (u ev n : Nat) : (d.count u ev n).svc = d.svc := by
  unfold Dev.count; split
  · rfl
  · refine foldl_frame Dev.svc _ _ ?_ d
    intro d i; dsimp only; repeat' split
    all_goals simp
@[simp] theorem Dev.count_port (d : Dev) (u ev n : Nat) : (d.count u ev n).port = d.port := by
  unfold Dev.count; split
  · rfl
  · refine foldl_frame Dev.port _ _ ?_ d
    intro d i; dsimp only; repeat' split
    all_goals simp
@[simp] theorem Dev.count_link (d : Dev) (u ev n : Nat) : (d.count u ev n).link = d.link := by
  unfold Dev.count; split
  · rfl
  · refine foldl_frame Dev.link _ _ ?_ d
    intro d i; dsimp only; repeat' split
    all_goals simp
@[simp] theorem Dev.count_fab (d : Dev) (u ev n : Nat) : (d.count u ev n).fab = d.fab := by
  unfold Dev.count; split
  · rfl
  · refine foldl_frame Dev.fab _ _ ?_ d
    intro d i; dsimp only; repeat' split
    all_goals simp
@[simp] theorem Dev.count_mgmt (d : Dev) (u ev n : Nat) : (d.count u ev n).mgmt = d.mgmt := by
  unfold Dev.count; split
  · rfl
  · refine foldl_frame Dev.mgmt _ _ ?_ d
    intro d i; dsimp only; repeat' split
    all_goals simp
@[simp] theorem Dev.count_sec (d : Dev) (u ev n : Nat) : (d.count u ev n).sec = d.sec := by
  unfold Dev.count; split
  · rfl
  · refine foldl_frame Dev.sec _ _ ?_ d
    intro d i; dsimp only; repeat' split
    all_goals simp
@[simp] theorem Dev.count_pwr (d : Dev) (u ev n : Nat) : (d.count u ev n).pwr = d.pwr := by
  unfold Dev.count; split
  · rfl
  · refine foldl_frame Dev.pwr _ _ ?_ d
    intro d i; dsimp only; repeat' split
    all_goals simp
@[simp] theorem Dev.count_tel (d : Dev) (u ev n : Nat) : (d.count u ev n).tel = d.tel := by
  unfold Dev.count; split
  · rfl
  · refine foldl_frame Dev.tel _ _ ?_ d
    intro d i; dsimp only; repeat' split
    all_goals simp
@[simp] theorem Dev.count_out (d : Dev) (u ev n : Nat) : (d.count u ev n).out = d.out := by
  unfold Dev.count; split
  · rfl
  · refine foldl_frame Dev.out _ _ ?_ d
    intro d i; dsimp only; repeat' split
    all_goals simp
@[simp] theorem Dev.count_free (d : Dev) (u ev n : Nat) : (d.count u ev n).free = d.free := by
  unfold Dev.count; split
  · rfl
  · refine foldl_frame Dev.free _ _ ?_ d
    intro d i; dsimp only; repeat' split
    all_goals simp

@[simp] theorem Dev.msix_pool (d : Dev) (f v : Nat) : (d.msix f v).pool = d.pool := by
  simp only [Dev.msix]; repeat' split
  all_goals simp
@[simp] theorem Dev.msix_dir (d : Dev) (f v : Nat) : (d.msix f v).dir = d.dir := by
  simp only [Dev.msix]; repeat' split
  all_goals simp
@[simp] theorem Dev.msix_sw (d : Dev) (f v : Nat) : (d.msix f v).sw = d.sw := by
  simp only [Dev.msix]; repeat' split
  all_goals simp
@[simp] theorem Dev.msix_svc (d : Dev) (f v : Nat) : (d.msix f v).svc = d.svc := by
  simp only [Dev.msix]; repeat' split
  all_goals simp
@[simp] theorem Dev.msix_port (d : Dev) (f v : Nat) : (d.msix f v).port = d.port := by
  simp only [Dev.msix]; repeat' split
  all_goals simp
@[simp] theorem Dev.msix_link (d : Dev) (f v : Nat) : (d.msix f v).link = d.link := by
  simp only [Dev.msix]; repeat' split
  all_goals simp
@[simp] theorem Dev.msix_fab (d : Dev) (f v : Nat) : (d.msix f v).fab = d.fab := by
  simp only [Dev.msix]; repeat' split
  all_goals simp
@[simp] theorem Dev.msix_mgmt (d : Dev) (f v : Nat) : (d.msix f v).mgmt = d.mgmt := by
  simp only [Dev.msix]; repeat' split
  all_goals simp
@[simp] theorem Dev.msix_sec (d : Dev) (f v : Nat) : (d.msix f v).sec = d.sec := by
  simp only [Dev.msix]; repeat' split
  all_goals simp
@[simp] theorem Dev.msix_pwr (d : Dev) (f v : Nat) : (d.msix f v).pwr = d.pwr := by
  simp only [Dev.msix]; repeat' split
  all_goals simp
@[simp] theorem Dev.msix_flt (d : Dev) (f v : Nat) : (d.msix f v).flt = d.flt := by
  simp only [Dev.msix]; repeat' split
  all_goals simp
@[simp] theorem Dev.msix_tel (d : Dev) (f v : Nat) : (d.msix f v).tel = d.tel := by
  simp only [Dev.msix]; repeat' split
  all_goals simp
@[simp] theorem Dev.msix_free (d : Dev) (f v : Nat) : (d.msix f v).free = d.free := by
  simp only [Dev.msix]; repeat' split
  all_goals simp

@[simp] theorem Dev.mgmtVector_pool (d : Dev) (v : Nat) : (d.mgmtVector v).pool = d.pool := foldl_frame Dev.pool _ _ (fun d _ => d.msix_pool _ _) d
@[simp] theorem Dev.mgmtVector_dir (d : Dev) (v : Nat) : (d.mgmtVector v).dir = d.dir := foldl_frame Dev.dir _ _ (fun d _ => d.msix_dir _ _) d
@[simp] theorem Dev.mgmtVector_sw (d : Dev) (v : Nat) : (d.mgmtVector v).sw = d.sw := foldl_frame Dev.sw _ _ (fun d _ => d.msix_sw _ _) d
@[simp] theorem Dev.mgmtVector_svc (d : Dev) (v : Nat) : (d.mgmtVector v).svc = d.svc := foldl_frame Dev.svc _ _ (fun d _ => d.msix_svc _ _) d
@[simp] theorem Dev.mgmtVector_port (d : Dev) (v : Nat) : (d.mgmtVector v).port = d.port := foldl_frame Dev.port _ _ (fun d _ => d.msix_port _ _) d
@[simp] theorem Dev.mgmtVector_link (d : Dev) (v : Nat) : (d.mgmtVector v).link = d.link := foldl_frame Dev.link _ _ (fun d _ => d.msix_link _ _) d
@[simp] theorem Dev.mgmtVector_fab (d : Dev) (v : Nat) : (d.mgmtVector v).fab = d.fab := foldl_frame Dev.fab _ _ (fun d _ => d.msix_fab _ _) d
@[simp] theorem Dev.mgmtVector_mgmt (d : Dev) (v : Nat) : (d.mgmtVector v).mgmt = d.mgmt := foldl_frame Dev.mgmt _ _ (fun d _ => d.msix_mgmt _ _) d
@[simp] theorem Dev.mgmtVector_sec (d : Dev) (v : Nat) : (d.mgmtVector v).sec = d.sec := foldl_frame Dev.sec _ _ (fun d _ => d.msix_sec _ _) d
@[simp] theorem Dev.mgmtVector_pwr (d : Dev) (v : Nat) : (d.mgmtVector v).pwr = d.pwr := foldl_frame Dev.pwr _ _ (fun d _ => d.msix_pwr _ _) d
@[simp] theorem Dev.mgmtVector_flt (d : Dev) (v : Nat) : (d.mgmtVector v).flt = d.flt := foldl_frame Dev.flt _ _ (fun d _ => d.msix_flt _ _) d
@[simp] theorem Dev.mgmtVector_tel (d : Dev) (v : Nat) : (d.mgmtVector v).tel = d.tel := foldl_frame Dev.tel _ _ (fun d _ => d.msix_tel _ _) d
@[simp] theorem Dev.mgmtVector_free (d : Dev) (v : Nat) : (d.mgmtVector v).free = d.free := foldl_frame Dev.free _ _ (fun d _ => d.msix_free _ _) d

@[simp] theorem Dev.memWrite_regs (d : Dev) (port addr : Nat) (v : Stored) : (d.memWrite port addr v).regs = d.regs := rfl
@[simp] theorem Dev.memWrite_dir (d : Dev) (port addr : Nat) (v : Stored) : (d.memWrite port addr v).dir = d.dir := rfl
@[simp] theorem Dev.memWrite_sw (d : Dev) (port addr : Nat) (v : Stored) : (d.memWrite port addr v).sw = d.sw := rfl
@[simp] theorem Dev.memWrite_svc (d : Dev) (port addr : Nat) (v : Stored) : (d.memWrite port addr v).svc = d.svc := rfl
@[simp] theorem Dev.memWrite_port (d : Dev) (port addr : Nat) (v : Stored) : (d.memWrite port addr v).port = d.port := rfl
@[simp] theorem Dev.memWrite_link (d : Dev) (port addr : Nat) (v : Stored) : (d.memWrite port addr v).link = d.link := rfl
@[simp] theorem Dev.memWrite_fab (d : Dev) (port addr : Nat) (v : Stored) : (d.memWrite port addr v).fab = d.fab := rfl
@[simp] theorem Dev.memWrite_mgmt (d : Dev) (port addr : Nat) (v : Stored) : (d.memWrite port addr v).mgmt = d.mgmt := rfl
@[simp] theorem Dev.memWrite_sec (d : Dev) (port addr : Nat) (v : Stored) : (d.memWrite port addr v).sec = d.sec := rfl
@[simp] theorem Dev.memWrite_pwr (d : Dev) (port addr : Nat) (v : Stored) : (d.memWrite port addr v).pwr = d.pwr := rfl
@[simp] theorem Dev.memWrite_flt (d : Dev) (port addr : Nat) (v : Stored) : (d.memWrite port addr v).flt = d.flt := rfl
@[simp] theorem Dev.memWrite_tel (d : Dev) (port addr : Nat) (v : Stored) : (d.memWrite port addr v).tel = d.tel := rfl
@[simp] theorem Dev.memWrite_out (d : Dev) (port addr : Nat) (v : Stored) : (d.memWrite port addr v).out = d.out := rfl
@[simp] theorem Dev.memWrite_free (d : Dev) (port addr : Nat) (v : Stored) : (d.memWrite port addr v).free = d.free := rfl

@[simp] theorem Dev.showKeys_pool (d : Dev) : (d.showKeys).pool = d.pool := rfl
@[simp] theorem Dev.showKeys_dir (d : Dev) : (d.showKeys).dir = d.dir := rfl
@[simp] theorem Dev.showKeys_sw (d : Dev) : (d.showKeys).sw = d.sw := rfl
@[simp] theorem Dev.showKeys_svc (d : Dev) : (d.showKeys).svc = d.svc := rfl
@[simp] theorem Dev.showKeys_port (d : Dev) : (d.showKeys).port = d.port := rfl
@[simp] theorem Dev.showKeys_link (d : Dev) : (d.showKeys).link = d.link := rfl
@[simp] theorem Dev.showKeys_fab (d : Dev) : (d.showKeys).fab = d.fab := rfl
@[simp] theorem Dev.showKeys_mgmt (d : Dev) : (d.showKeys).mgmt = d.mgmt := rfl
@[simp] theorem Dev.showKeys_sec (d : Dev) : (d.showKeys).sec = d.sec := rfl
@[simp] theorem Dev.showKeys_pwr (d : Dev) : (d.showKeys).pwr = d.pwr := rfl
@[simp] theorem Dev.showKeys_flt (d : Dev) : (d.showKeys).flt = d.flt := rfl
@[simp] theorem Dev.showKeys_tel (d : Dev) : (d.showKeys).tel = d.tel := rfl
@[simp] theorem Dev.showKeys_out (d : Dev) : (d.showKeys).out = d.out := rfl
@[simp] theorem Dev.showKeys_free (d : Dev) : (d.showKeys).free = d.free := rfl

@[simp] theorem Dev.showCells_pool (d : Dev) : (d.showCells).pool = d.pool := rfl
@[simp] theorem Dev.showCells_dir (d : Dev) : (d.showCells).dir = d.dir := rfl
@[simp] theorem Dev.showCells_sw (d : Dev) : (d.showCells).sw = d.sw := rfl
@[simp] theorem Dev.showCells_svc (d : Dev) : (d.showCells).svc = d.svc := rfl
@[simp] theorem Dev.showCells_port (d : Dev) : (d.showCells).port = d.port := rfl
@[simp] theorem Dev.showCells_link (d : Dev) : (d.showCells).link = d.link := rfl
@[simp] theorem Dev.showCells_fab (d : Dev) : (d.showCells).fab = d.fab := rfl
@[simp] theorem Dev.showCells_mgmt (d : Dev) : (d.showCells).mgmt = d.mgmt := rfl
@[simp] theorem Dev.showCells_sec (d : Dev) : (d.showCells).sec = d.sec := rfl
@[simp] theorem Dev.showCells_pwr (d : Dev) : (d.showCells).pwr = d.pwr := rfl
@[simp] theorem Dev.showCells_flt (d : Dev) : (d.showCells).flt = d.flt := rfl
@[simp] theorem Dev.showCells_tel (d : Dev) : (d.showCells).tel = d.tel := rfl
@[simp] theorem Dev.showCells_out (d : Dev) : (d.showCells).out = d.out := rfl
@[simp] theorem Dev.showCells_free (d : Dev) : (d.showCells).free = d.free := rfl

@[simp] theorem Dev.showFaults_pool (d : Dev) : (d.showFaults).pool = d.pool := by
  simp only [Dev.showFaults]; split <;> simp
@[simp] theorem Dev.showFaults_dir (d : Dev) : (d.showFaults).dir = d.dir := by
  simp only [Dev.showFaults]; split <;> simp
@[simp] theorem Dev.showFaults_sw (d : Dev) : (d.showFaults).sw = d.sw := by
  simp only [Dev.showFaults]; split <;> simp
@[simp] theorem Dev.showFaults_svc (d : Dev) : (d.showFaults).svc = d.svc := by
  simp only [Dev.showFaults]; split <;> simp
@[simp] theorem Dev.showFaults_port (d : Dev) : (d.showFaults).port = d.port := by
  simp only [Dev.showFaults]; split <;> simp
@[simp] theorem Dev.showFaults_link (d : Dev) : (d.showFaults).link = d.link := by
  simp only [Dev.showFaults]; split <;> simp
@[simp] theorem Dev.showFaults_fab (d : Dev) : (d.showFaults).fab = d.fab := by
  simp only [Dev.showFaults]; split <;> simp
@[simp] theorem Dev.showFaults_mgmt (d : Dev) : (d.showFaults).mgmt = d.mgmt := by
  simp only [Dev.showFaults]; split <;> simp
@[simp] theorem Dev.showFaults_sec (d : Dev) : (d.showFaults).sec = d.sec := by
  simp only [Dev.showFaults]; split <;> simp
@[simp] theorem Dev.showFaults_pwr (d : Dev) : (d.showFaults).pwr = d.pwr := by
  simp only [Dev.showFaults]; split <;> simp
@[simp] theorem Dev.showFaults_flt (d : Dev) : (d.showFaults).flt = d.flt := by
  simp only [Dev.showFaults]; split <;> simp
@[simp] theorem Dev.showFaults_tel (d : Dev) : (d.showFaults).tel = d.tel := by
  simp only [Dev.showFaults]; split <;> simp
@[simp] theorem Dev.showFaults_free (d : Dev) : (d.showFaults).free = d.free := by
  simp only [Dev.showFaults]; split <;> simp

@[simp] theorem Dev.shown_pool (d : Dev) : (d.shown).pool = d.pool := by
  simp [Dev.shown]
@[simp] theorem Dev.shown_dir (d : Dev) : (d.shown).dir = d.dir := by
  simp [Dev.shown]
@[simp] theorem Dev.shown_sw (d : Dev) : (d.shown).sw = d.sw := by
  simp [Dev.shown]
@[simp] theorem Dev.shown_svc (d : Dev) : (d.shown).svc = d.svc := by
  simp [Dev.shown]
@[simp] theorem Dev.shown_port (d : Dev) : (d.shown).port = d.port := by
  simp [Dev.shown]
@[simp] theorem Dev.shown_link (d : Dev) : (d.shown).link = d.link := by
  simp [Dev.shown]
@[simp] theorem Dev.shown_fab (d : Dev) : (d.shown).fab = d.fab := by
  simp [Dev.shown]
@[simp] theorem Dev.shown_mgmt (d : Dev) : (d.shown).mgmt = d.mgmt := by
  simp [Dev.shown]
@[simp] theorem Dev.shown_sec (d : Dev) : (d.shown).sec = d.sec := by
  simp [Dev.shown]
@[simp] theorem Dev.shown_pwr (d : Dev) : (d.shown).pwr = d.pwr := by
  simp [Dev.shown]
@[simp] theorem Dev.shown_flt (d : Dev) : (d.shown).flt = d.flt := by
  simp [Dev.shown]
@[simp] theorem Dev.shown_tel (d : Dev) : (d.shown).tel = d.tel := by
  simp [Dev.shown]
@[simp] theorem Dev.shown_free (d : Dev) : (d.shown).free = d.free := by
  simp [Dev.shown]

@[simp] theorem Dev.showRetired_pool (d : Dev) : (d.showRetired).pool = d.pool := rfl
@[simp] theorem Dev.showRetired_dir (d : Dev) : (d.showRetired).dir = d.dir := rfl
@[simp] theorem Dev.showRetired_sw (d : Dev) : (d.showRetired).sw = d.sw := rfl
@[simp] theorem Dev.showRetired_svc (d : Dev) : (d.showRetired).svc = d.svc := rfl
@[simp] theorem Dev.showRetired_port (d : Dev) : (d.showRetired).port = d.port := rfl
@[simp] theorem Dev.showRetired_link (d : Dev) : (d.showRetired).link = d.link := rfl
@[simp] theorem Dev.showRetired_fab (d : Dev) : (d.showRetired).fab = d.fab := rfl
@[simp] theorem Dev.showRetired_mgmt (d : Dev) : (d.showRetired).mgmt = d.mgmt := rfl
@[simp] theorem Dev.showRetired_sec (d : Dev) : (d.showRetired).sec = d.sec := rfl
@[simp] theorem Dev.showRetired_pwr (d : Dev) : (d.showRetired).pwr = d.pwr := rfl
@[simp] theorem Dev.showRetired_flt (d : Dev) : (d.showRetired).flt = d.flt := rfl
@[simp] theorem Dev.showRetired_tel (d : Dev) : (d.showRetired).tel = d.tel := rfl
@[simp] theorem Dev.showRetired_out (d : Dev) : (d.showRetired).out = d.out := rfl
@[simp] theorem Dev.showRetired_free (d : Dev) : (d.showRetired).free = d.free := rfl

@[simp] theorem Dev.setRetireRec_pool (d : Dev) (r : Resource) (i : Nat) (x : RetireRec) : (d.setRetireRec r i x).pool = d.pool := rfl
@[simp] theorem Dev.setRetireRec_dir (d : Dev) (r : Resource) (i : Nat) (x : RetireRec) : (d.setRetireRec r i x).dir = d.dir := rfl
@[simp] theorem Dev.setRetireRec_sw (d : Dev) (r : Resource) (i : Nat) (x : RetireRec) : (d.setRetireRec r i x).sw = d.sw := rfl
@[simp] theorem Dev.setRetireRec_svc (d : Dev) (r : Resource) (i : Nat) (x : RetireRec) : (d.setRetireRec r i x).svc = d.svc := rfl
@[simp] theorem Dev.setRetireRec_port (d : Dev) (r : Resource) (i : Nat) (x : RetireRec) : (d.setRetireRec r i x).port = d.port := rfl
@[simp] theorem Dev.setRetireRec_link (d : Dev) (r : Resource) (i : Nat) (x : RetireRec) : (d.setRetireRec r i x).link = d.link := rfl
@[simp] theorem Dev.setRetireRec_fab (d : Dev) (r : Resource) (i : Nat) (x : RetireRec) : (d.setRetireRec r i x).fab = d.fab := rfl
@[simp] theorem Dev.setRetireRec_mgmt (d : Dev) (r : Resource) (i : Nat) (x : RetireRec) : (d.setRetireRec r i x).mgmt = d.mgmt := rfl
@[simp] theorem Dev.setRetireRec_sec (d : Dev) (r : Resource) (i : Nat) (x : RetireRec) : (d.setRetireRec r i x).sec = d.sec := rfl
@[simp] theorem Dev.setRetireRec_pwr (d : Dev) (r : Resource) (i : Nat) (x : RetireRec) : (d.setRetireRec r i x).pwr = d.pwr := rfl
@[simp] theorem Dev.setRetireRec_tel (d : Dev) (r : Resource) (i : Nat) (x : RetireRec) : (d.setRetireRec r i x).tel = d.tel := rfl
@[simp] theorem Dev.setRetireRec_out (d : Dev) (r : Resource) (i : Nat) (x : RetireRec) : (d.setRetireRec r i x).out = d.out := rfl
@[simp] theorem Dev.setRetireRec_free (d : Dev) (r : Resource) (i : Nat) (x : RetireRec) : (d.setRetireRec r i x).free = d.free := rfl

@[simp] theorem Dev.fabricEvent_pool (d : Dev) (typ detail : Nat) : (d.fabricEvent typ detail).pool = d.pool := by
  simp [Dev.fabricEvent]
@[simp] theorem Dev.fabricEvent_dir (d : Dev) (typ detail : Nat) : (d.fabricEvent typ detail).dir = d.dir := by
  simp [Dev.fabricEvent]
@[simp] theorem Dev.fabricEvent_sw (d : Dev) (typ detail : Nat) : (d.fabricEvent typ detail).sw = d.sw := by
  simp [Dev.fabricEvent]
@[simp] theorem Dev.fabricEvent_svc (d : Dev) (typ detail : Nat) : (d.fabricEvent typ detail).svc = d.svc := by
  simp [Dev.fabricEvent]
@[simp] theorem Dev.fabricEvent_port (d : Dev) (typ detail : Nat) : (d.fabricEvent typ detail).port = d.port := by
  simp [Dev.fabricEvent]
@[simp] theorem Dev.fabricEvent_link (d : Dev) (typ detail : Nat) : (d.fabricEvent typ detail).link = d.link := by
  simp [Dev.fabricEvent]
@[simp] theorem Dev.fabricEvent_mgmt (d : Dev) (typ detail : Nat) : (d.fabricEvent typ detail).mgmt = d.mgmt := by
  simp [Dev.fabricEvent]
@[simp] theorem Dev.fabricEvent_sec (d : Dev) (typ detail : Nat) : (d.fabricEvent typ detail).sec = d.sec := by
  simp [Dev.fabricEvent]
@[simp] theorem Dev.fabricEvent_pwr (d : Dev) (typ detail : Nat) : (d.fabricEvent typ detail).pwr = d.pwr := by
  simp [Dev.fabricEvent]
@[simp] theorem Dev.fabricEvent_flt (d : Dev) (typ detail : Nat) : (d.fabricEvent typ detail).flt = d.flt := by
  simp [Dev.fabricEvent]
@[simp] theorem Dev.fabricEvent_tel (d : Dev) (typ detail : Nat) : (d.fabricEvent typ detail).tel = d.tel := by
  simp [Dev.fabricEvent]
@[simp] theorem Dev.fabricEvent_free (d : Dev) (typ detail : Nat) : (d.fabricEvent typ detail).free = d.free := by
  simp [Dev.fabricEvent]

@[simp] theorem Dev.hostEvent_regs (d : Dev) (p log kind dpa len tag : Nat) : (d.hostEvent p log kind dpa len tag).regs = d.regs := rfl
@[simp] theorem Dev.hostEvent_pool (d : Dev) (p log kind dpa len tag : Nat) : (d.hostEvent p log kind dpa len tag).pool = d.pool := rfl
@[simp] theorem Dev.hostEvent_dir (d : Dev) (p log kind dpa len tag : Nat) : (d.hostEvent p log kind dpa len tag).dir = d.dir := rfl
@[simp] theorem Dev.hostEvent_sw (d : Dev) (p log kind dpa len tag : Nat) : (d.hostEvent p log kind dpa len tag).sw = d.sw := rfl
@[simp] theorem Dev.hostEvent_svc (d : Dev) (p log kind dpa len tag : Nat) : (d.hostEvent p log kind dpa len tag).svc = d.svc := rfl
@[simp] theorem Dev.hostEvent_port (d : Dev) (p log kind dpa len tag : Nat) : (d.hostEvent p log kind dpa len tag).port = d.port := rfl
@[simp] theorem Dev.hostEvent_link (d : Dev) (p log kind dpa len tag : Nat) : (d.hostEvent p log kind dpa len tag).link = d.link := rfl
@[simp] theorem Dev.hostEvent_fab (d : Dev) (p log kind dpa len tag : Nat) : (d.hostEvent p log kind dpa len tag).fab = d.fab := rfl
@[simp] theorem Dev.hostEvent_sec (d : Dev) (p log kind dpa len tag : Nat) : (d.hostEvent p log kind dpa len tag).sec = d.sec := rfl
@[simp] theorem Dev.hostEvent_pwr (d : Dev) (p log kind dpa len tag : Nat) : (d.hostEvent p log kind dpa len tag).pwr = d.pwr := rfl
@[simp] theorem Dev.hostEvent_flt (d : Dev) (p log kind dpa len tag : Nat) : (d.hostEvent p log kind dpa len tag).flt = d.flt := rfl
@[simp] theorem Dev.hostEvent_tel (d : Dev) (p log kind dpa len tag : Nat) : (d.hostEvent p log kind dpa len tag).tel = d.tel := rfl
@[simp] theorem Dev.hostEvent_free (d : Dev) (p log kind dpa len tag : Nat) : (d.hostEvent p log kind dpa len tag).free = d.free := rfl

@[simp] theorem Dev.writePayload_pool (d : Dev) (m : Nat) (l : List Byte) : (d.writePayload m l).pool = d.pool := by
  unfold Dev.writePayload; apply foldl_frame Dev.pool; intros; rfl
@[simp] theorem Dev.writePayload_dir (d : Dev) (m : Nat) (l : List Byte) : (d.writePayload m l).dir = d.dir := by
  unfold Dev.writePayload; apply foldl_frame Dev.dir; intros; rfl
@[simp] theorem Dev.writePayload_sw (d : Dev) (m : Nat) (l : List Byte) : (d.writePayload m l).sw = d.sw := by
  unfold Dev.writePayload; apply foldl_frame Dev.sw; intros; rfl
@[simp] theorem Dev.writePayload_svc (d : Dev) (m : Nat) (l : List Byte) : (d.writePayload m l).svc = d.svc := by
  unfold Dev.writePayload; apply foldl_frame Dev.svc; intros; rfl
@[simp] theorem Dev.writePayload_port (d : Dev) (m : Nat) (l : List Byte) : (d.writePayload m l).port = d.port := by
  unfold Dev.writePayload; apply foldl_frame Dev.port; intros; rfl
@[simp] theorem Dev.writePayload_link (d : Dev) (m : Nat) (l : List Byte) : (d.writePayload m l).link = d.link := by
  unfold Dev.writePayload; apply foldl_frame Dev.link; intros; rfl
@[simp] theorem Dev.writePayload_fab (d : Dev) (m : Nat) (l : List Byte) : (d.writePayload m l).fab = d.fab := by
  unfold Dev.writePayload; apply foldl_frame Dev.fab; intros; rfl
@[simp] theorem Dev.writePayload_mgmt (d : Dev) (m : Nat) (l : List Byte) : (d.writePayload m l).mgmt = d.mgmt := by
  unfold Dev.writePayload; apply foldl_frame Dev.mgmt; intros; rfl
@[simp] theorem Dev.writePayload_sec (d : Dev) (m : Nat) (l : List Byte) : (d.writePayload m l).sec = d.sec := by
  unfold Dev.writePayload; apply foldl_frame Dev.sec; intros; rfl
@[simp] theorem Dev.writePayload_pwr (d : Dev) (m : Nat) (l : List Byte) : (d.writePayload m l).pwr = d.pwr := by
  unfold Dev.writePayload; apply foldl_frame Dev.pwr; intros; rfl
@[simp] theorem Dev.writePayload_flt (d : Dev) (m : Nat) (l : List Byte) : (d.writePayload m l).flt = d.flt := by
  unfold Dev.writePayload; apply foldl_frame Dev.flt; intros; rfl
@[simp] theorem Dev.writePayload_tel (d : Dev) (m : Nat) (l : List Byte) : (d.writePayload m l).tel = d.tel := by
  unfold Dev.writePayload; apply foldl_frame Dev.tel; intros; rfl
@[simp] theorem Dev.writePayload_out (d : Dev) (m : Nat) (l : List Byte) : (d.writePayload m l).out = d.out := by
  unfold Dev.writePayload; apply foldl_frame Dev.out; intros; rfl
@[simp] theorem Dev.writePayload_free (d : Dev) (m : Nat) (l : List Byte) : (d.writePayload m l).free = d.free := by
  unfold Dev.writePayload; apply foldl_frame Dev.free; intros; rfl

@[simp] theorem Dev.mailboxIrq_pool (d : Dev) (m w : Nat) : (d.mailboxIrq m w).pool = d.pool := by
  unfold Dev.mailboxIrq; split <;> simp
@[simp] theorem Dev.mailboxIrq_dir (d : Dev) (m w : Nat) : (d.mailboxIrq m w).dir = d.dir := by
  unfold Dev.mailboxIrq; split <;> simp
@[simp] theorem Dev.mailboxIrq_sw (d : Dev) (m w : Nat) : (d.mailboxIrq m w).sw = d.sw := by
  unfold Dev.mailboxIrq; split <;> simp
@[simp] theorem Dev.mailboxIrq_svc (d : Dev) (m w : Nat) : (d.mailboxIrq m w).svc = d.svc := by
  unfold Dev.mailboxIrq; split <;> simp
@[simp] theorem Dev.mailboxIrq_port (d : Dev) (m w : Nat) : (d.mailboxIrq m w).port = d.port := by
  unfold Dev.mailboxIrq; split <;> simp
@[simp] theorem Dev.mailboxIrq_link (d : Dev) (m w : Nat) : (d.mailboxIrq m w).link = d.link := by
  unfold Dev.mailboxIrq; split <;> simp
@[simp] theorem Dev.mailboxIrq_fab (d : Dev) (m w : Nat) : (d.mailboxIrq m w).fab = d.fab := by
  unfold Dev.mailboxIrq; split <;> simp
@[simp] theorem Dev.mailboxIrq_mgmt (d : Dev) (m w : Nat) : (d.mailboxIrq m w).mgmt = d.mgmt := by
  unfold Dev.mailboxIrq; split <;> simp
@[simp] theorem Dev.mailboxIrq_sec (d : Dev) (m w : Nat) : (d.mailboxIrq m w).sec = d.sec := by
  unfold Dev.mailboxIrq; split <;> simp
@[simp] theorem Dev.mailboxIrq_pwr (d : Dev) (m w : Nat) : (d.mailboxIrq m w).pwr = d.pwr := by
  unfold Dev.mailboxIrq; split <;> simp
@[simp] theorem Dev.mailboxIrq_flt (d : Dev) (m w : Nat) : (d.mailboxIrq m w).flt = d.flt := by
  unfold Dev.mailboxIrq; split <;> simp
@[simp] theorem Dev.mailboxIrq_tel (d : Dev) (m w : Nat) : (d.mailboxIrq m w).tel = d.tel := by
  unfold Dev.mailboxIrq; split <;> simp
@[simp] theorem Dev.mailboxIrq_free (d : Dev) (m w : Nat) : (d.mailboxIrq m w).free = d.free := by
  unfold Dev.mailboxIrq; split <;> simp

@[simp] theorem Dev.complete_pool (d : Dev) (path : Path) (op rc v : Nat) (l : List Byte) : (d.complete path op rc v l).pool = d.pool := by
  simp only [Dev.complete]; repeat' split
  all_goals simp
@[simp] theorem Dev.complete_dir (d : Dev) (path : Path) (op rc v : Nat) (l : List Byte) : (d.complete path op rc v l).dir = d.dir := by
  simp only [Dev.complete]; repeat' split
  all_goals simp
@[simp] theorem Dev.complete_sw (d : Dev) (path : Path) (op rc v : Nat) (l : List Byte) : (d.complete path op rc v l).sw = d.sw := by
  simp only [Dev.complete]; repeat' split
  all_goals simp
@[simp] theorem Dev.complete_svc (d : Dev) (path : Path) (op rc v : Nat) (l : List Byte) : (d.complete path op rc v l).svc = d.svc := by
  simp only [Dev.complete]; repeat' split
  all_goals simp
@[simp] theorem Dev.complete_port (d : Dev) (path : Path) (op rc v : Nat) (l : List Byte) : (d.complete path op rc v l).port = d.port := by
  simp only [Dev.complete]; repeat' split
  all_goals simp
@[simp] theorem Dev.complete_link (d : Dev) (path : Path) (op rc v : Nat) (l : List Byte) : (d.complete path op rc v l).link = d.link := by
  simp only [Dev.complete]; repeat' split
  all_goals simp
@[simp] theorem Dev.complete_fab (d : Dev) (path : Path) (op rc v : Nat) (l : List Byte) : (d.complete path op rc v l).fab = d.fab := by
  simp only [Dev.complete]; repeat' split
  all_goals simp
@[simp] theorem Dev.complete_sec (d : Dev) (path : Path) (op rc v : Nat) (l : List Byte) : (d.complete path op rc v l).sec = d.sec := by
  simp only [Dev.complete]; repeat' split
  all_goals simp
@[simp] theorem Dev.complete_pwr (d : Dev) (path : Path) (op rc v : Nat) (l : List Byte) : (d.complete path op rc v l).pwr = d.pwr := by
  simp only [Dev.complete]; repeat' split
  all_goals simp
@[simp] theorem Dev.complete_tel (d : Dev) (path : Path) (op rc v : Nat) (l : List Byte) : (d.complete path op rc v l).tel = d.tel := by
  simp only [Dev.complete]; repeat' split
  all_goals simp
@[simp] theorem Dev.complete_free (d : Dev) (path : Path) (op rc v : Nat) (l : List Byte) : (d.complete path op rc v l).free = d.free := by
  simp only [Dev.complete]; repeat' split
  all_goals simp

@[simp] theorem Dev.finish_pool (d : Dev) (path : Path) (op rc : Nat) : (d.finish path op rc).pool = d.pool := by
  simp [Dev.finish]
@[simp] theorem Dev.finish_dir (d : Dev) (path : Path) (op rc : Nat) : (d.finish path op rc).dir = d.dir := by
  simp [Dev.finish]
@[simp] theorem Dev.finish_sw (d : Dev) (path : Path) (op rc : Nat) : (d.finish path op rc).sw = d.sw := by
  simp [Dev.finish]
@[simp] theorem Dev.finish_svc (d : Dev) (path : Path) (op rc : Nat) : (d.finish path op rc).svc = d.svc := by
  simp [Dev.finish]
@[simp] theorem Dev.finish_port (d : Dev) (path : Path) (op rc : Nat) : (d.finish path op rc).port = d.port := by
  simp [Dev.finish]
@[simp] theorem Dev.finish_link (d : Dev) (path : Path) (op rc : Nat) : (d.finish path op rc).link = d.link := by
  simp [Dev.finish]
@[simp] theorem Dev.finish_fab (d : Dev) (path : Path) (op rc : Nat) : (d.finish path op rc).fab = d.fab := by
  simp [Dev.finish]
@[simp] theorem Dev.finish_sec (d : Dev) (path : Path) (op rc : Nat) : (d.finish path op rc).sec = d.sec := by
  simp [Dev.finish]
@[simp] theorem Dev.finish_pwr (d : Dev) (path : Path) (op rc : Nat) : (d.finish path op rc).pwr = d.pwr := by
  simp [Dev.finish]
@[simp] theorem Dev.finish_tel (d : Dev) (path : Path) (op rc : Nat) : (d.finish path op rc).tel = d.tel := by
  simp [Dev.finish]
@[simp] theorem Dev.finish_free (d : Dev) (path : Path) (op rc : Nat) : (d.finish path op rc).free = d.free := by
  simp [Dev.finish]

@[simp] theorem Dev.bgStart_pool (d : Dev) (path : Path) (op : Nat) : (d.bgStart path op).pool = d.pool := by
  simp only [Dev.bgStart]; split <;> simp
@[simp] theorem Dev.bgStart_dir (d : Dev) (path : Path) (op : Nat) : (d.bgStart path op).dir = d.dir := by
  simp only [Dev.bgStart]; split <;> simp
@[simp] theorem Dev.bgStart_sw (d : Dev) (path : Path) (op : Nat) : (d.bgStart path op).sw = d.sw := by
  simp only [Dev.bgStart]; split <;> simp
@[simp] theorem Dev.bgStart_svc (d : Dev) (path : Path) (op : Nat) : (d.bgStart path op).svc = d.svc := by
  simp only [Dev.bgStart]; split <;> simp
@[simp] theorem Dev.bgStart_port (d : Dev) (path : Path) (op : Nat) : (d.bgStart path op).port = d.port := by
  simp only [Dev.bgStart]; split <;> simp
@[simp] theorem Dev.bgStart_link (d : Dev) (path : Path) (op : Nat) : (d.bgStart path op).link = d.link := by
  simp only [Dev.bgStart]; split <;> simp
@[simp] theorem Dev.bgStart_fab (d : Dev) (path : Path) (op : Nat) : (d.bgStart path op).fab = d.fab := by
  simp only [Dev.bgStart]; split <;> simp
@[simp] theorem Dev.bgStart_sec (d : Dev) (path : Path) (op : Nat) : (d.bgStart path op).sec = d.sec := by
  simp only [Dev.bgStart]; split <;> simp
@[simp] theorem Dev.bgStart_pwr (d : Dev) (path : Path) (op : Nat) : (d.bgStart path op).pwr = d.pwr := by
  simp only [Dev.bgStart]; split <;> simp
@[simp] theorem Dev.bgStart_tel (d : Dev) (path : Path) (op : Nat) : (d.bgStart path op).tel = d.tel := by
  simp only [Dev.bgStart]; split <;> simp
@[simp] theorem Dev.bgStart_free (d : Dev) (path : Path) (op : Nat) : (d.bgStart path op).free = d.free := by
  simp only [Dev.bgStart]; split <;> simp

@[simp] theorem Dev.bgResult_regs (d : Dev) (path : Path) (rc v : Nat) : (d.bgResult path rc v).regs = d.regs := rfl
@[simp] theorem Dev.bgResult_pool (d : Dev) (path : Path) (rc v : Nat) : (d.bgResult path rc v).pool = d.pool := rfl
@[simp] theorem Dev.bgResult_dir (d : Dev) (path : Path) (rc v : Nat) : (d.bgResult path rc v).dir = d.dir := rfl
@[simp] theorem Dev.bgResult_sw (d : Dev) (path : Path) (rc v : Nat) : (d.bgResult path rc v).sw = d.sw := rfl
@[simp] theorem Dev.bgResult_svc (d : Dev) (path : Path) (rc v : Nat) : (d.bgResult path rc v).svc = d.svc := rfl
@[simp] theorem Dev.bgResult_port (d : Dev) (path : Path) (rc v : Nat) : (d.bgResult path rc v).port = d.port := rfl
@[simp] theorem Dev.bgResult_link (d : Dev) (path : Path) (rc v : Nat) : (d.bgResult path rc v).link = d.link := rfl
@[simp] theorem Dev.bgResult_fab (d : Dev) (path : Path) (rc v : Nat) : (d.bgResult path rc v).fab = d.fab := rfl
@[simp] theorem Dev.bgResult_sec (d : Dev) (path : Path) (rc v : Nat) : (d.bgResult path rc v).sec = d.sec := rfl
@[simp] theorem Dev.bgResult_pwr (d : Dev) (path : Path) (rc v : Nat) : (d.bgResult path rc v).pwr = d.pwr := rfl
@[simp] theorem Dev.bgResult_flt (d : Dev) (path : Path) (rc v : Nat) : (d.bgResult path rc v).flt = d.flt := rfl
@[simp] theorem Dev.bgResult_tel (d : Dev) (path : Path) (rc v : Nat) : (d.bgResult path rc v).tel = d.tel := rfl
@[simp] theorem Dev.bgResult_out (d : Dev) (path : Path) (rc v : Nat) : (d.bgResult path rc v).out = d.out := rfl
@[simp] theorem Dev.bgResult_free (d : Dev) (path : Path) (rc v : Nat) : (d.bgResult path rc v).free = d.free := rfl

@[simp] theorem Dev.bgEnd_pool (d : Dev) (path : Path) : (d.bgEnd path).pool = d.pool := by
  simp only [Dev.bgEnd]; repeat' split
  all_goals simp
@[simp] theorem Dev.bgEnd_dir (d : Dev) (path : Path) : (d.bgEnd path).dir = d.dir := by
  simp only [Dev.bgEnd]; repeat' split
  all_goals simp
@[simp] theorem Dev.bgEnd_sw (d : Dev) (path : Path) : (d.bgEnd path).sw = d.sw := by
  simp only [Dev.bgEnd]; repeat' split
  all_goals simp
@[simp] theorem Dev.bgEnd_svc (d : Dev) (path : Path) : (d.bgEnd path).svc = d.svc := by
  simp only [Dev.bgEnd]; repeat' split
  all_goals simp
@[simp] theorem Dev.bgEnd_port (d : Dev) (path : Path) : (d.bgEnd path).port = d.port := by
  simp only [Dev.bgEnd]; repeat' split
  all_goals simp
@[simp] theorem Dev.bgEnd_link (d : Dev) (path : Path) : (d.bgEnd path).link = d.link := by
  simp only [Dev.bgEnd]; repeat' split
  all_goals simp
@[simp] theorem Dev.bgEnd_fab (d : Dev) (path : Path) : (d.bgEnd path).fab = d.fab := by
  simp only [Dev.bgEnd]; repeat' split
  all_goals simp
@[simp] theorem Dev.bgEnd_sec (d : Dev) (path : Path) : (d.bgEnd path).sec = d.sec := by
  simp only [Dev.bgEnd]; repeat' split
  all_goals simp
@[simp] theorem Dev.bgEnd_pwr (d : Dev) (path : Path) : (d.bgEnd path).pwr = d.pwr := by
  simp only [Dev.bgEnd]; repeat' split
  all_goals simp
@[simp] theorem Dev.bgEnd_flt (d : Dev) (path : Path) : (d.bgEnd path).flt = d.flt := by
  simp only [Dev.bgEnd]; repeat' split
  all_goals simp
@[simp] theorem Dev.bgEnd_tel (d : Dev) (path : Path) : (d.bgEnd path).tel = d.tel := by
  simp only [Dev.bgEnd]; repeat' split
  all_goals simp
@[simp] theorem Dev.bgEnd_free (d : Dev) (path : Path) : (d.bgEnd path).free = d.free := by
  simp only [Dev.bgEnd]; repeat' split
  all_goals simp

@[simp] theorem Dev.reg_emit (d : Dev) (o : Out) (r' : Reg) : (d.emit o).reg r' = d.reg r' := rfl
@[simp] theorem Dev.rd_emit (d : Dev) (o : Out) (r' : Reg) (hi' lo' : Nat) : (d.emit o).rd r' hi' lo' = d.rd r' hi' lo' := rfl
@[simp] theorem Dev.bitOf_emit (d : Dev) (o : Out) (r' : Reg) (i' : Nat) : (d.emit o).bitOf r' i' = d.bitOf r' i' := rfl

@[simp] theorem Dev.reg_emits (d : Dev) (os : List Out) (r' : Reg) : (d.emits os).reg r' = d.reg r' := rfl
@[simp] theorem Dev.rd_emits (d : Dev) (os : List Out) (r' : Reg) (hi' lo' : Nat) : (d.emits os).rd r' hi' lo' = d.rd r' hi' lo' := rfl
@[simp] theorem Dev.bitOf_emits (d : Dev) (os : List Out) (r' : Reg) (i' : Nat) : (d.emits os).bitOf r' i' = d.bitOf r' i' := rfl

@[simp] theorem Dev.reg_openNat (d : Dev)  (r' : Reg) : (d.openNat.2).reg r' = d.reg r' := rfl
@[simp] theorem Dev.rd_openNat (d : Dev)  (r' : Reg) (hi' lo' : Nat) : (d.openNat.2).rd r' hi' lo' = d.rd r' hi' lo' := rfl
@[simp] theorem Dev.bitOf_openNat (d : Dev)  (r' : Reg) (i' : Nat) : (d.openNat.2).bitOf r' i' = d.bitOf r' i' := rfl

@[simp] theorem Dev.reg_openBits (d : Dev) (w : Nat) (r' : Reg) : ((d.openBits w).2).reg r' = d.reg r' := rfl
@[simp] theorem Dev.rd_openBits (d : Dev) (w : Nat) (r' : Reg) (hi' lo' : Nat) : ((d.openBits w).2).rd r' hi' lo' = d.rd r' hi' lo' := rfl
@[simp] theorem Dev.bitOf_openBits (d : Dev) (w : Nat) (r' : Reg) (i' : Nat) : ((d.openBits w).2).bitOf r' i' = d.bitOf r' i' := rfl

@[simp] theorem Dev.reg_choose (d : Dev) {α : Type} (l : List α) (r' : Reg) : ((d.choose l).2).reg r' = d.reg r' := by
  simp [Dev.reg]
@[simp] theorem Dev.rd_choose (d : Dev) {α : Type} (l : List α) (r' : Reg) (hi' lo' : Nat) : ((d.choose l).2).rd r' hi' lo' = d.rd r' hi' lo' := by
  simp [Dev.rd, Dev.reg]
@[simp] theorem Dev.bitOf_choose (d : Dev) {α : Type} (l : List α) (r' : Reg) (i' : Nat) : ((d.choose l).2).bitOf r' i' = d.bitOf r' i' := Dev.bitOf_eq_of_reg (by simp) i'

@[simp] theorem Dev.reg_wake (d : Dev) (i : Nat) (r' : Reg) : (d.wake i).reg r' = d.reg r' := by
  simp [Dev.reg]
@[simp] theorem Dev.rd_wake (d : Dev) (i : Nat) (r' : Reg) (hi' lo' : Nat) : (d.wake i).rd r' hi' lo' = d.rd r' hi' lo' := by
  simp [Dev.rd, Dev.reg]
@[simp] theorem Dev.bitOf_wake (d : Dev) (i : Nat) (r' : Reg) (i' : Nat) : (d.wake i).bitOf r' i' = d.bitOf r' i' := Dev.bitOf_eq_of_reg (by simp) i'

@[simp] theorem Dev.reg_memWrite (d : Dev) (port addr : Nat) (v : Stored) (r' : Reg) : (d.memWrite port addr v).reg r' = d.reg r' := rfl
@[simp] theorem Dev.rd_memWrite (d : Dev) (port addr : Nat) (v : Stored) (r' : Reg) (hi' lo' : Nat) : (d.memWrite port addr v).rd r' hi' lo' = d.rd r' hi' lo' := rfl
@[simp] theorem Dev.bitOf_memWrite (d : Dev) (port addr : Nat) (v : Stored) (r' : Reg) (i' : Nat) : (d.memWrite port addr v).bitOf r' i' = d.bitOf r' i' := rfl

@[simp] theorem Dev.reg_hostEvent (d : Dev) (p log kind dpa len tag : Nat) (r' : Reg) : (d.hostEvent p log kind dpa len tag).reg r' = d.reg r' := rfl
@[simp] theorem Dev.rd_hostEvent (d : Dev) (p log kind dpa len tag : Nat) (r' : Reg) (hi' lo' : Nat) : (d.hostEvent p log kind dpa len tag).rd r' hi' lo' = d.rd r' hi' lo' := rfl
@[simp] theorem Dev.bitOf_hostEvent (d : Dev) (p log kind dpa len tag : Nat) (r' : Reg) (i' : Nat) : (d.hostEvent p log kind dpa len tag).bitOf r' i' = d.bitOf r' i' := rfl

@[simp] theorem Dev.reg_bgResult (d : Dev) (path : Path) (rc v : Nat) (r' : Reg) : (d.bgResult path rc v).reg r' = d.reg r' := rfl
@[simp] theorem Dev.rd_bgResult (d : Dev) (path : Path) (rc v : Nat) (r' : Reg) (hi' lo' : Nat) : (d.bgResult path rc v).rd r' hi' lo' = d.rd r' hi' lo' := rfl
@[simp] theorem Dev.bitOf_bgResult (d : Dev) (path : Path) (rc v : Nat) (r' : Reg) (i' : Nat) : (d.bgResult path rc v).bitOf r' i' = d.bitOf r' i' := rfl

/-! Fields beside those that a report or a completion writes. -/

@[simp] theorem Dev.report_flt_log (d : Dev) (src cls detail : Nat) : (d.report src cls detail).flt.log = d.flt.log := by
  simp only [Dev.report]; repeat' split
  all_goals simp
@[simp] theorem Dev.report_flt_lastLog0 (d : Dev) (src cls detail : Nat) : (d.report src cls detail).flt.lastLog0 = d.flt.lastLog0 := by
  simp only [Dev.report]; repeat' split
  all_goals simp
@[simp] theorem Dev.report_flt_retirement (d : Dev) (src cls detail : Nat) : (d.report src cls detail).flt.retirement = d.flt.retirement := by
  simp only [Dev.report]; repeat' split
  all_goals simp
@[simp] theorem Dev.report_flt_testDue (d : Dev) (src cls detail : Nat) : (d.report src cls detail).flt.testDue = d.flt.testDue := by
  simp only [Dev.report]; repeat' split
  all_goals simp
@[simp] theorem Dev.report_flt_diesOut (d : Dev) (src cls detail : Nat) : (d.report src cls detail).flt.diesOut = d.flt.diesOut := by
  simp only [Dev.report]; repeat' split
  all_goals simp
@[simp] theorem Dev.report_flt_logicOut (d : Dev) (src cls detail : Nat) : (d.report src cls detail).flt.logicOut = d.flt.logicOut := by
  simp only [Dev.report]; repeat' split
  all_goals simp
@[simp] theorem Dev.report_flt_moving (d : Dev) (src cls detail : Nat) : (d.report src cls detail).flt.moving = d.flt.moving := by
  simp only [Dev.report]; repeat' split
  all_goals simp
@[simp] theorem Dev.report_flt_hosts (d : Dev) (src cls detail : Nat) : (d.report src cls detail).flt.hosts = d.flt.hosts := by
  simp only [Dev.report]; repeat' split
  all_goals simp
@[simp] theorem Dev.report_flt_nmiHeld (d : Dev) (src cls detail : Nat) : (d.report src cls detail).flt.nmiHeld = d.flt.nmiHeld := by
  simp only [Dev.report]; repeat' split
  all_goals simp

@[simp] theorem Dev.addCounter_flt_log (d : Dev) (u i n : Nat) : (d.addCounter u i n).flt.log = d.flt.log := by
  simp only [Dev.addCounter]; repeat' split
  all_goals simp
@[simp] theorem Dev.addCounter_flt_lastLog0 (d : Dev) (u i n : Nat) : (d.addCounter u i n).flt.lastLog0 = d.flt.lastLog0 := by
  simp only [Dev.addCounter]; repeat' split
  all_goals simp
@[simp] theorem Dev.addCounter_flt_retirement (d : Dev) (u i n : Nat) : (d.addCounter u i n).flt.retirement = d.flt.retirement := by
  simp only [Dev.addCounter]; repeat' split
  all_goals simp
@[simp] theorem Dev.addCounter_flt_testDue (d : Dev) (u i n : Nat) : (d.addCounter u i n).flt.testDue = d.flt.testDue := by
  simp only [Dev.addCounter]; repeat' split
  all_goals simp
@[simp] theorem Dev.addCounter_flt_diesOut (d : Dev) (u i n : Nat) : (d.addCounter u i n).flt.diesOut = d.flt.diesOut := by
  simp only [Dev.addCounter]; repeat' split
  all_goals simp
@[simp] theorem Dev.addCounter_flt_logicOut (d : Dev) (u i n : Nat) : (d.addCounter u i n).flt.logicOut = d.flt.logicOut := by
  simp only [Dev.addCounter]; repeat' split
  all_goals simp
@[simp] theorem Dev.addCounter_flt_moving (d : Dev) (u i n : Nat) : (d.addCounter u i n).flt.moving = d.flt.moving := by
  simp only [Dev.addCounter]; repeat' split
  all_goals simp
@[simp] theorem Dev.addCounter_flt_hosts (d : Dev) (u i n : Nat) : (d.addCounter u i n).flt.hosts = d.flt.hosts := by
  simp only [Dev.addCounter]; repeat' split
  all_goals simp
@[simp] theorem Dev.addCounter_flt_nmiHeld (d : Dev) (u i n : Nat) : (d.addCounter u i n).flt.nmiHeld = d.flt.nmiHeld := by
  simp only [Dev.addCounter]; repeat' split
  all_goals simp

@[simp] theorem Dev.count_flt_log (d : Dev) (u ev n : Nat) : (d.count u ev n).flt.log = d.flt.log := by
  unfold Dev.count; split
  · rfl
  · refine foldl_frame (fun d : Dev => d.flt.log) _ _ ?_ d
    intro d i; dsimp only; repeat' split
    all_goals simp
@[simp] theorem Dev.count_flt_lastLog0 (d : Dev) (u ev n : Nat) : (d.count u ev n).flt.lastLog0 = d.flt.lastLog0 := by
  unfold Dev.count; split
  · rfl
  · refine foldl_frame (fun d : Dev => d.flt.lastLog0) _ _ ?_ d
    intro d i; dsimp only; repeat' split
    all_goals simp
@[simp] theorem Dev.count_flt_retirement (d : Dev) (u ev n : Nat) : (d.count u ev n).flt.retirement = d.flt.retirement := by
  unfold Dev.count; split
  · rfl
  · refine foldl_frame (fun d : Dev => d.flt.retirement) _ _ ?_ d
    intro d i; dsimp only; repeat' split
    all_goals simp
@[simp] theorem Dev.count_flt_testDue (d : Dev) (u ev n : Nat) : (d.count u ev n).flt.testDue = d.flt.testDue := by
  unfold Dev.count; split
  · rfl
  · refine foldl_frame (fun d : Dev => d.flt.testDue) _ _ ?_ d
    intro d i; dsimp only; repeat' split
    all_goals simp
@[simp] theorem Dev.count_flt_diesOut (d : Dev) (u ev n : Nat) : (d.count u ev n).flt.diesOut = d.flt.diesOut := by
  unfold Dev.count; split
  · rfl
  · refine foldl_frame (fun d : Dev => d.flt.diesOut) _ _ ?_ d
    intro d i; dsimp only; repeat' split
    all_goals simp
@[simp] theorem Dev.count_flt_logicOut (d : Dev) (u ev n : Nat) : (d.count u ev n).flt.logicOut = d.flt.logicOut := by
  unfold Dev.count; split
  · rfl
  · refine foldl_frame (fun d : Dev => d.flt.logicOut) _ _ ?_ d
    intro d i; dsimp only; repeat' split
    all_goals simp
@[simp] theorem Dev.count_flt_moving (d : Dev) (u ev n : Nat) : (d.count u ev n).flt.moving = d.flt.moving := by
  unfold Dev.count; split
  · rfl
  · refine foldl_frame (fun d : Dev => d.flt.moving) _ _ ?_ d
    intro d i; dsimp only; repeat' split
    all_goals simp
@[simp] theorem Dev.count_flt_hosts (d : Dev) (u ev n : Nat) : (d.count u ev n).flt.hosts = d.flt.hosts := by
  unfold Dev.count; split
  · rfl
  · refine foldl_frame (fun d : Dev => d.flt.hosts) _ _ ?_ d
    intro d i; dsimp only; repeat' split
    all_goals simp
@[simp] theorem Dev.count_flt_nmiHeld (d : Dev) (u ev n : Nat) : (d.count u ev n).flt.nmiHeld = d.flt.nmiHeld := by
  unfold Dev.count; split
  · rfl
  · refine foldl_frame (fun d : Dev => d.flt.nmiHeld) _ _ ?_ d
    intro d i; dsimp only; repeat' split
    all_goals simp

@[simp] theorem Dev.complete_flt_log (d : Dev) (path : Path) (op rc v : Nat) (l : List Byte) : (d.complete path op rc v l).flt.log = d.flt.log := by
  simp only [Dev.complete]; repeat' split
  all_goals simp
@[simp] theorem Dev.complete_flt_lastLog0 (d : Dev) (path : Path) (op rc v : Nat) (l : List Byte) : (d.complete path op rc v l).flt.lastLog0 = d.flt.lastLog0 := by
  simp only [Dev.complete]; repeat' split
  all_goals simp
@[simp] theorem Dev.complete_flt_retirement (d : Dev) (path : Path) (op rc v : Nat) (l : List Byte) : (d.complete path op rc v l).flt.retirement = d.flt.retirement := by
  simp only [Dev.complete]; repeat' split
  all_goals simp
@[simp] theorem Dev.complete_flt_testDue (d : Dev) (path : Path) (op rc v : Nat) (l : List Byte) : (d.complete path op rc v l).flt.testDue = d.flt.testDue := by
  simp only [Dev.complete]; repeat' split
  all_goals simp
@[simp] theorem Dev.complete_flt_diesOut (d : Dev) (path : Path) (op rc v : Nat) (l : List Byte) : (d.complete path op rc v l).flt.diesOut = d.flt.diesOut := by
  simp only [Dev.complete]; repeat' split
  all_goals simp
@[simp] theorem Dev.complete_flt_logicOut (d : Dev) (path : Path) (op rc v : Nat) (l : List Byte) : (d.complete path op rc v l).flt.logicOut = d.flt.logicOut := by
  simp only [Dev.complete]; repeat' split
  all_goals simp
@[simp] theorem Dev.complete_flt_moving (d : Dev) (path : Path) (op rc v : Nat) (l : List Byte) : (d.complete path op rc v l).flt.moving = d.flt.moving := by
  simp only [Dev.complete]; repeat' split
  all_goals simp
@[simp] theorem Dev.complete_flt_hosts (d : Dev) (path : Path) (op rc v : Nat) (l : List Byte) : (d.complete path op rc v l).flt.hosts = d.flt.hosts := by
  simp only [Dev.complete]; repeat' split
  all_goals simp
@[simp] theorem Dev.complete_flt_nmiHeld (d : Dev) (path : Path) (op rc v : Nat) (l : List Byte) : (d.complete path op rc v l).flt.nmiHeld = d.flt.nmiHeld := by
  simp only [Dev.complete]; repeat' split
  all_goals simp

@[simp] theorem Dev.finish_flt_log (d : Dev) (path : Path) (op rc : Nat) : (d.finish path op rc).flt.log = d.flt.log := by
  simp [Dev.finish]
@[simp] theorem Dev.finish_flt_lastLog0 (d : Dev) (path : Path) (op rc : Nat) : (d.finish path op rc).flt.lastLog0 = d.flt.lastLog0 := by
  simp [Dev.finish]
@[simp] theorem Dev.finish_flt_retirement (d : Dev) (path : Path) (op rc : Nat) : (d.finish path op rc).flt.retirement = d.flt.retirement := by
  simp [Dev.finish]
@[simp] theorem Dev.finish_flt_testDue (d : Dev) (path : Path) (op rc : Nat) : (d.finish path op rc).flt.testDue = d.flt.testDue := by
  simp [Dev.finish]
@[simp] theorem Dev.finish_flt_diesOut (d : Dev) (path : Path) (op rc : Nat) : (d.finish path op rc).flt.diesOut = d.flt.diesOut := by
  simp [Dev.finish]
@[simp] theorem Dev.finish_flt_logicOut (d : Dev) (path : Path) (op rc : Nat) : (d.finish path op rc).flt.logicOut = d.flt.logicOut := by
  simp [Dev.finish]
@[simp] theorem Dev.finish_flt_moving (d : Dev) (path : Path) (op rc : Nat) : (d.finish path op rc).flt.moving = d.flt.moving := by
  simp [Dev.finish]
@[simp] theorem Dev.finish_flt_hosts (d : Dev) (path : Path) (op rc : Nat) : (d.finish path op rc).flt.hosts = d.flt.hosts := by
  simp [Dev.finish]
@[simp] theorem Dev.finish_flt_nmiHeld (d : Dev) (path : Path) (op rc : Nat) : (d.finish path op rc).flt.nmiHeld = d.flt.nmiHeld := by
  simp [Dev.finish]

@[simp] theorem Dev.bgStart_flt_log (d : Dev) (path : Path) (op : Nat) : (d.bgStart path op).flt.log = d.flt.log := by
  simp only [Dev.bgStart]; split <;> simp
@[simp] theorem Dev.bgStart_flt_lastLog0 (d : Dev) (path : Path) (op : Nat) : (d.bgStart path op).flt.lastLog0 = d.flt.lastLog0 := by
  simp only [Dev.bgStart]; split <;> simp
@[simp] theorem Dev.bgStart_flt_retirement (d : Dev) (path : Path) (op : Nat) : (d.bgStart path op).flt.retirement = d.flt.retirement := by
  simp only [Dev.bgStart]; split <;> simp
@[simp] theorem Dev.bgStart_flt_testDue (d : Dev) (path : Path) (op : Nat) : (d.bgStart path op).flt.testDue = d.flt.testDue := by
  simp only [Dev.bgStart]; split <;> simp
@[simp] theorem Dev.bgStart_flt_diesOut (d : Dev) (path : Path) (op : Nat) : (d.bgStart path op).flt.diesOut = d.flt.diesOut := by
  simp only [Dev.bgStart]; split <;> simp
@[simp] theorem Dev.bgStart_flt_logicOut (d : Dev) (path : Path) (op : Nat) : (d.bgStart path op).flt.logicOut = d.flt.logicOut := by
  simp only [Dev.bgStart]; split <;> simp
@[simp] theorem Dev.bgStart_flt_moving (d : Dev) (path : Path) (op : Nat) : (d.bgStart path op).flt.moving = d.flt.moving := by
  simp only [Dev.bgStart]; split <;> simp
@[simp] theorem Dev.bgStart_flt_hosts (d : Dev) (path : Path) (op : Nat) : (d.bgStart path op).flt.hosts = d.flt.hosts := by
  simp only [Dev.bgStart]; split <;> simp
@[simp] theorem Dev.bgStart_flt_nmiHeld (d : Dev) (path : Path) (op : Nat) : (d.bgStart path op).flt.nmiHeld = d.flt.nmiHeld := by
  simp only [Dev.bgStart]; split <;> simp

@[simp] theorem Dev.complete_mgmt_strapAddr (d : Dev) (path : Path) (op rc v : Nat) (l : List Byte) : (d.complete path op rc v l).mgmt.strapAddr = d.mgmt.strapAddr := by
  simp only [Dev.complete]; repeat' split
  all_goals simp
@[simp] theorem Dev.complete_mgmt_strapBus (d : Dev) (path : Path) (op rc v : Nat) (l : List Byte) : (d.complete path op rc v l).mgmt.strapBus = d.mgmt.strapBus := by
  simp only [Dev.complete]; repeat' split
  all_goals simp
@[simp] theorem Dev.complete_mgmt_porst (d : Dev) (path : Path) (op rc v : Nat) (l : List Byte) : (d.complete path op rc v l).mgmt.porst = d.mgmt.porst := by
  simp only [Dev.complete]; repeat' split
  all_goals simp
@[simp] theorem Dev.complete_mgmt_wrst (d : Dev) (path : Path) (op rc v : Nat) (l : List Byte) : (d.complete path op rc v l).mgmt.wrst = d.mgmt.wrst := by
  simp only [Dev.complete]; repeat' split
  all_goals simp
@[simp] theorem Dev.complete_mgmt_coldHeld (d : Dev) (path : Path) (op rc v : Nat) (l : List Byte) : (d.complete path op rc v l).mgmt.coldHeld = d.mgmt.coldHeld := by
  simp only [Dev.complete]; repeat' split
  all_goals simp
@[simp] theorem Dev.complete_mgmt_warmHeld (d : Dev) (path : Path) (op rc v : Nat) (l : List Byte) : (d.complete path op rc v l).mgmt.warmHeld = d.mgmt.warmHeld := by
  simp only [Dev.complete]; repeat' split
  all_goals simp
@[simp] theorem Dev.complete_mgmt_tripHeld (d : Dev) (path : Path) (op rc v : Nat) (l : List Byte) : (d.complete path op rc v l).mgmt.tripHeld = d.mgmt.tripHeld := by
  simp only [Dev.complete]; repeat' split
  all_goals simp
@[simp] theorem Dev.complete_mgmt_flash (d : Dev) (path : Path) (op rc v : Nat) (l : List Byte) : (d.complete path op rc v l).mgmt.flash = d.mgmt.flash := by
  simp only [Dev.complete]; repeat' split
  all_goals simp
@[simp] theorem Dev.complete_mgmt_preferred (d : Dev) (path : Path) (op rc v : Nat) (l : List Byte) : (d.complete path op rc v l).mgmt.preferred = d.mgmt.preferred := by
  simp only [Dev.complete]; repeat' split
  all_goals simp
@[simp] theorem Dev.complete_mgmt_trial (d : Dev) (path : Path) (op rc v : Nat) (l : List Byte) : (d.complete path op rc v l).mgmt.trial = d.mgmt.trial := by
  simp only [Dev.complete]; repeat' split
  all_goals simp
@[simp] theorem Dev.complete_mgmt_bcbSlot (d : Dev) (path : Path) (op rc v : Nat) (l : List Byte) : (d.complete path op rc v l).mgmt.bcbSlot = d.mgmt.bcbSlot := by
  simp only [Dev.complete]; repeat' split
  all_goals simp
@[simp] theorem Dev.complete_mgmt_inUse (d : Dev) (path : Path) (op rc v : Nat) (l : List Byte) : (d.complete path op rc v l).mgmt.inUse = d.mgmt.inUse := by
  simp only [Dev.complete]; repeat' split
  all_goals simp
@[simp] theorem Dev.complete_mgmt_verified (d : Dev) (path : Path) (op rc v : Nat) (l : List Byte) : (d.complete path op rc v l).mgmt.verified = d.mgmt.verified := by
  simp only [Dev.complete]; repeat' split
  all_goals simp
@[simp] theorem Dev.complete_mgmt_fwVersion (d : Dev) (path : Path) (op rc v : Nat) (l : List Byte) : (d.complete path op rc v l).mgmt.fwVersion = d.mgmt.fwVersion := by
  simp only [Dev.complete]; repeat' split
  all_goals simp
@[simp] theorem Dev.complete_mgmt_fwSvn (d : Dev) (path : Path) (op rc v : Nat) (l : List Byte) : (d.complete path op rc v l).mgmt.fwSvn = d.mgmt.fwSvn := by
  simp only [Dev.complete]; repeat' split
  all_goals simp
@[simp] theorem Dev.complete_mgmt_fwUp (d : Dev) (path : Path) (op rc v : Nat) (l : List Byte) : (d.complete path op rc v l).mgmt.fwUp = d.mgmt.fwUp := by
  simp only [Dev.complete]; repeat' split
  all_goals simp
@[simp] theorem Dev.complete_mgmt_bcb (d : Dev) (path : Path) (op rc v : Nat) (l : List Byte) : (d.complete path op rc v l).mgmt.bcb = d.mgmt.bcb := by
  simp only [Dev.complete]; repeat' split
  all_goals simp
@[simp] theorem Dev.complete_mgmt_bcbSeq (d : Dev) (path : Path) (op rc v : Nat) (l : List Byte) : (d.complete path op rc v l).mgmt.bcbSeq = d.mgmt.bcbSeq := by
  simp only [Dev.complete]; repeat' split
  all_goals simp
@[simp] theorem Dev.complete_mgmt_measured (d : Dev) (path : Path) (op rc v : Nat) (l : List Byte) : (d.complete path op rc v l).mgmt.measured = d.mgmt.measured := by
  simp only [Dev.complete]; repeat' split
  all_goals simp
@[simp] theorem Dev.complete_mgmt_bg (d : Dev) (path : Path) (op rc v : Nat) (l : List Byte) : (d.complete path op rc v l).mgmt.bg = d.mgmt.bg := by
  simp only [Dev.complete]; repeat' split
  all_goals simp
@[simp] theorem Dev.complete_mgmt_bgLast (d : Dev) (path : Path) (op rc v : Nat) (l : List Byte) : (d.complete path op rc v l).mgmt.bgLast = d.mgmt.bgLast := by
  simp only [Dev.complete]; repeat' split
  all_goals simp
@[simp] theorem Dev.complete_mgmt_transfers (d : Dev) (path : Path) (op rc v : Nat) (l : List Byte) : (d.complete path op rc v l).mgmt.transfers = d.mgmt.transfers := by
  simp only [Dev.complete]; repeat' split
  all_goals simp
@[simp] theorem Dev.complete_mgmt_activation (d : Dev) (path : Path) (op rc v : Nat) (l : List Byte) : (d.complete path op rc v l).mgmt.activation = d.mgmt.activation := by
  simp only [Dev.complete]; repeat' split
  all_goals simp
@[simp] theorem Dev.complete_mgmt_imageMove (d : Dev) (path : Path) (op rc v : Nat) (l : List Byte) : (d.complete path op rc v l).mgmt.imageMove = d.mgmt.imageMove := by
  simp only [Dev.complete]; repeat' split
  all_goals simp
@[simp] theorem Dev.complete_mgmt_events (d : Dev) (path : Path) (op rc v : Nat) (l : List Byte) : (d.complete path op rc v l).mgmt.events = d.mgmt.events := by
  simp only [Dev.complete]; repeat' split
  all_goals simp
@[simp] theorem Dev.complete_mgmt_eventNext (d : Dev) (path : Path) (op rc v : Nat) (l : List Byte) : (d.complete path op rc v l).mgmt.eventNext = d.mgmt.eventNext := by
  simp only [Dev.complete]; repeat' split
  all_goals simp
@[simp] theorem Dev.complete_mgmt_policies (d : Dev) (path : Path) (op rc v : Nat) (l : List Byte) : (d.complete path op rc v l).mgmt.policies = d.mgmt.policies := by
  simp only [Dev.complete]; repeat' split
  all_goals simp
@[simp] theorem Dev.complete_mgmt_oobSlots (d : Dev) (path : Path) (op rc v : Nat) (l : List Byte) : (d.complete path op rc v l).mgmt.oobSlots = d.mgmt.oobSlots := by
  simp only [Dev.complete]; repeat' split
  all_goals simp
@[simp] theorem Dev.complete_mgmt_oobResult (d : Dev) (path : Path) (op rc v : Nat) (l : List Byte) : (d.complete path op rc v l).mgmt.oobResult = d.mgmt.oobResult := by
  simp only [Dev.complete]; repeat' split
  all_goals simp
@[simp] theorem Dev.complete_mgmt_mctpEid (d : Dev) (path : Path) (op rc v : Nat) (l : List Byte) : (d.complete path op rc v l).mgmt.mctpEid = d.mgmt.mctpEid := by
  simp only [Dev.complete]; repeat' split
  all_goals simp
@[simp] theorem Dev.complete_mgmt_i3cBridge (d : Dev) (path : Path) (op rc v : Nat) (l : List Byte) : (d.complete path op rc v l).mgmt.i3cBridge = d.mgmt.i3cBridge := by
  simp only [Dev.complete]; repeat' split
  all_goals simp
@[simp] theorem Dev.complete_mgmt_i3cMctp (d : Dev) (path : Path) (op rc v : Nat) (l : List Byte) : (d.complete path op rc v l).mgmt.i3cMctp = d.mgmt.i3cMctp := by
  simp only [Dev.complete]; repeat' split
  all_goals simp
@[simp] theorem Dev.complete_mgmt_i3cBus (d : Dev) (path : Path) (op rc v : Nat) (l : List Byte) : (d.complete path op rc v l).mgmt.i3cBus = d.mgmt.i3cBus := by
  simp only [Dev.complete]; repeat' split
  all_goals simp
@[simp] theorem Dev.complete_mgmt_mctpAddr (d : Dev) (path : Path) (op rc v : Nat) (l : List Byte) : (d.complete path op rc v l).mgmt.mctpAddr = d.mgmt.mctpAddr := by
  simp only [Dev.complete]; repeat' split
  all_goals simp
@[simp] theorem Dev.complete_mgmt_ioPending (d : Dev) (path : Path) (op rc v : Nat) (l : List Byte) : (d.complete path op rc v l).mgmt.ioPending = d.mgmt.ioPending := by
  simp only [Dev.complete]; repeat' split
  all_goals simp

@[simp] theorem Dev.finish_mgmt_strapAddr (d : Dev) (path : Path) (op rc : Nat) : (d.finish path op rc).mgmt.strapAddr = d.mgmt.strapAddr := by
  simp [Dev.finish]
@[simp] theorem Dev.finish_mgmt_strapBus (d : Dev) (path : Path) (op rc : Nat) : (d.finish path op rc).mgmt.strapBus = d.mgmt.strapBus := by
  simp [Dev.finish]
@[simp] theorem Dev.finish_mgmt_porst (d : Dev) (path : Path) (op rc : Nat) : (d.finish path op rc).mgmt.porst = d.mgmt.porst := by
  simp [Dev.finish]
@[simp] theorem Dev.finish_mgmt_wrst (d : Dev) (path : Path) (op rc : Nat) : (d.finish path op rc).mgmt.wrst = d.mgmt.wrst := by
  simp [Dev.finish]
@[simp] theorem Dev.finish_mgmt_coldHeld (d : Dev) (path : Path) (op rc : Nat) : (d.finish path op rc).mgmt.coldHeld = d.mgmt.coldHeld := by
  simp [Dev.finish]
@[simp] theorem Dev.finish_mgmt_warmHeld (d : Dev) (path : Path) (op rc : Nat) : (d.finish path op rc).mgmt.warmHeld = d.mgmt.warmHeld := by
  simp [Dev.finish]
@[simp] theorem Dev.finish_mgmt_tripHeld (d : Dev) (path : Path) (op rc : Nat) : (d.finish path op rc).mgmt.tripHeld = d.mgmt.tripHeld := by
  simp [Dev.finish]
@[simp] theorem Dev.finish_mgmt_flash (d : Dev) (path : Path) (op rc : Nat) : (d.finish path op rc).mgmt.flash = d.mgmt.flash := by
  simp [Dev.finish]
@[simp] theorem Dev.finish_mgmt_preferred (d : Dev) (path : Path) (op rc : Nat) : (d.finish path op rc).mgmt.preferred = d.mgmt.preferred := by
  simp [Dev.finish]
@[simp] theorem Dev.finish_mgmt_trial (d : Dev) (path : Path) (op rc : Nat) : (d.finish path op rc).mgmt.trial = d.mgmt.trial := by
  simp [Dev.finish]
@[simp] theorem Dev.finish_mgmt_bcbSlot (d : Dev) (path : Path) (op rc : Nat) : (d.finish path op rc).mgmt.bcbSlot = d.mgmt.bcbSlot := by
  simp [Dev.finish]
@[simp] theorem Dev.finish_mgmt_inUse (d : Dev) (path : Path) (op rc : Nat) : (d.finish path op rc).mgmt.inUse = d.mgmt.inUse := by
  simp [Dev.finish]
@[simp] theorem Dev.finish_mgmt_verified (d : Dev) (path : Path) (op rc : Nat) : (d.finish path op rc).mgmt.verified = d.mgmt.verified := by
  simp [Dev.finish]
@[simp] theorem Dev.finish_mgmt_fwVersion (d : Dev) (path : Path) (op rc : Nat) : (d.finish path op rc).mgmt.fwVersion = d.mgmt.fwVersion := by
  simp [Dev.finish]
@[simp] theorem Dev.finish_mgmt_fwSvn (d : Dev) (path : Path) (op rc : Nat) : (d.finish path op rc).mgmt.fwSvn = d.mgmt.fwSvn := by
  simp [Dev.finish]
@[simp] theorem Dev.finish_mgmt_fwUp (d : Dev) (path : Path) (op rc : Nat) : (d.finish path op rc).mgmt.fwUp = d.mgmt.fwUp := by
  simp [Dev.finish]
@[simp] theorem Dev.finish_mgmt_bcb (d : Dev) (path : Path) (op rc : Nat) : (d.finish path op rc).mgmt.bcb = d.mgmt.bcb := by
  simp [Dev.finish]
@[simp] theorem Dev.finish_mgmt_bcbSeq (d : Dev) (path : Path) (op rc : Nat) : (d.finish path op rc).mgmt.bcbSeq = d.mgmt.bcbSeq := by
  simp [Dev.finish]
@[simp] theorem Dev.finish_mgmt_measured (d : Dev) (path : Path) (op rc : Nat) : (d.finish path op rc).mgmt.measured = d.mgmt.measured := by
  simp [Dev.finish]
@[simp] theorem Dev.finish_mgmt_bg (d : Dev) (path : Path) (op rc : Nat) : (d.finish path op rc).mgmt.bg = d.mgmt.bg := by
  simp [Dev.finish]
@[simp] theorem Dev.finish_mgmt_bgLast (d : Dev) (path : Path) (op rc : Nat) : (d.finish path op rc).mgmt.bgLast = d.mgmt.bgLast := by
  simp [Dev.finish]
@[simp] theorem Dev.finish_mgmt_transfers (d : Dev) (path : Path) (op rc : Nat) : (d.finish path op rc).mgmt.transfers = d.mgmt.transfers := by
  simp [Dev.finish]
@[simp] theorem Dev.finish_mgmt_activation (d : Dev) (path : Path) (op rc : Nat) : (d.finish path op rc).mgmt.activation = d.mgmt.activation := by
  simp [Dev.finish]
@[simp] theorem Dev.finish_mgmt_imageMove (d : Dev) (path : Path) (op rc : Nat) : (d.finish path op rc).mgmt.imageMove = d.mgmt.imageMove := by
  simp [Dev.finish]
@[simp] theorem Dev.finish_mgmt_events (d : Dev) (path : Path) (op rc : Nat) : (d.finish path op rc).mgmt.events = d.mgmt.events := by
  simp [Dev.finish]
@[simp] theorem Dev.finish_mgmt_eventNext (d : Dev) (path : Path) (op rc : Nat) : (d.finish path op rc).mgmt.eventNext = d.mgmt.eventNext := by
  simp [Dev.finish]
@[simp] theorem Dev.finish_mgmt_policies (d : Dev) (path : Path) (op rc : Nat) : (d.finish path op rc).mgmt.policies = d.mgmt.policies := by
  simp [Dev.finish]
@[simp] theorem Dev.finish_mgmt_oobSlots (d : Dev) (path : Path) (op rc : Nat) : (d.finish path op rc).mgmt.oobSlots = d.mgmt.oobSlots := by
  simp [Dev.finish]
@[simp] theorem Dev.finish_mgmt_oobResult (d : Dev) (path : Path) (op rc : Nat) : (d.finish path op rc).mgmt.oobResult = d.mgmt.oobResult := by
  simp [Dev.finish]
@[simp] theorem Dev.finish_mgmt_mctpEid (d : Dev) (path : Path) (op rc : Nat) : (d.finish path op rc).mgmt.mctpEid = d.mgmt.mctpEid := by
  simp [Dev.finish]
@[simp] theorem Dev.finish_mgmt_i3cBridge (d : Dev) (path : Path) (op rc : Nat) : (d.finish path op rc).mgmt.i3cBridge = d.mgmt.i3cBridge := by
  simp [Dev.finish]
@[simp] theorem Dev.finish_mgmt_i3cMctp (d : Dev) (path : Path) (op rc : Nat) : (d.finish path op rc).mgmt.i3cMctp = d.mgmt.i3cMctp := by
  simp [Dev.finish]
@[simp] theorem Dev.finish_mgmt_i3cBus (d : Dev) (path : Path) (op rc : Nat) : (d.finish path op rc).mgmt.i3cBus = d.mgmt.i3cBus := by
  simp [Dev.finish]
@[simp] theorem Dev.finish_mgmt_mctpAddr (d : Dev) (path : Path) (op rc : Nat) : (d.finish path op rc).mgmt.mctpAddr = d.mgmt.mctpAddr := by
  simp [Dev.finish]
@[simp] theorem Dev.finish_mgmt_ioPending (d : Dev) (path : Path) (op rc : Nat) : (d.finish path op rc).mgmt.ioPending = d.mgmt.ioPending := by
  simp [Dev.finish]

@[simp] theorem Dev.bgStart_mgmt_strapAddr (d : Dev) (path : Path) (op : Nat) : (d.bgStart path op).mgmt.strapAddr = d.mgmt.strapAddr := by
  simp only [Dev.bgStart]; split <;> simp
@[simp] theorem Dev.bgStart_mgmt_strapBus (d : Dev) (path : Path) (op : Nat) : (d.bgStart path op).mgmt.strapBus = d.mgmt.strapBus := by
  simp only [Dev.bgStart]; split <;> simp
@[simp] theorem Dev.bgStart_mgmt_porst (d : Dev) (path : Path) (op : Nat) : (d.bgStart path op).mgmt.porst = d.mgmt.porst := by
  simp only [Dev.bgStart]; split <;> simp
@[simp] theorem Dev.bgStart_mgmt_wrst (d : Dev) (path : Path) (op : Nat) : (d.bgStart path op).mgmt.wrst = d.mgmt.wrst := by
  simp only [Dev.bgStart]; split <;> simp
@[simp] theorem Dev.bgStart_mgmt_coldHeld (d : Dev) (path : Path) (op : Nat) : (d.bgStart path op).mgmt.coldHeld = d.mgmt.coldHeld := by
  simp only [Dev.bgStart]; split <;> simp
@[simp] theorem Dev.bgStart_mgmt_warmHeld (d : Dev) (path : Path) (op : Nat) : (d.bgStart path op).mgmt.warmHeld = d.mgmt.warmHeld := by
  simp only [Dev.bgStart]; split <;> simp
@[simp] theorem Dev.bgStart_mgmt_tripHeld (d : Dev) (path : Path) (op : Nat) : (d.bgStart path op).mgmt.tripHeld = d.mgmt.tripHeld := by
  simp only [Dev.bgStart]; split <;> simp
@[simp] theorem Dev.bgStart_mgmt_flash (d : Dev) (path : Path) (op : Nat) : (d.bgStart path op).mgmt.flash = d.mgmt.flash := by
  simp only [Dev.bgStart]; split <;> simp
@[simp] theorem Dev.bgStart_mgmt_preferred (d : Dev) (path : Path) (op : Nat) : (d.bgStart path op).mgmt.preferred = d.mgmt.preferred := by
  simp only [Dev.bgStart]; split <;> simp
@[simp] theorem Dev.bgStart_mgmt_trial (d : Dev) (path : Path) (op : Nat) : (d.bgStart path op).mgmt.trial = d.mgmt.trial := by
  simp only [Dev.bgStart]; split <;> simp
@[simp] theorem Dev.bgStart_mgmt_bcbSlot (d : Dev) (path : Path) (op : Nat) : (d.bgStart path op).mgmt.bcbSlot = d.mgmt.bcbSlot := by
  simp only [Dev.bgStart]; split <;> simp
@[simp] theorem Dev.bgStart_mgmt_inUse (d : Dev) (path : Path) (op : Nat) : (d.bgStart path op).mgmt.inUse = d.mgmt.inUse := by
  simp only [Dev.bgStart]; split <;> simp
@[simp] theorem Dev.bgStart_mgmt_verified (d : Dev) (path : Path) (op : Nat) : (d.bgStart path op).mgmt.verified = d.mgmt.verified := by
  simp only [Dev.bgStart]; split <;> simp
@[simp] theorem Dev.bgStart_mgmt_fwVersion (d : Dev) (path : Path) (op : Nat) : (d.bgStart path op).mgmt.fwVersion = d.mgmt.fwVersion := by
  simp only [Dev.bgStart]; split <;> simp
@[simp] theorem Dev.bgStart_mgmt_fwSvn (d : Dev) (path : Path) (op : Nat) : (d.bgStart path op).mgmt.fwSvn = d.mgmt.fwSvn := by
  simp only [Dev.bgStart]; split <;> simp
@[simp] theorem Dev.bgStart_mgmt_fwUp (d : Dev) (path : Path) (op : Nat) : (d.bgStart path op).mgmt.fwUp = d.mgmt.fwUp := by
  simp only [Dev.bgStart]; split <;> simp
@[simp] theorem Dev.bgStart_mgmt_bcb (d : Dev) (path : Path) (op : Nat) : (d.bgStart path op).mgmt.bcb = d.mgmt.bcb := by
  simp only [Dev.bgStart]; split <;> simp
@[simp] theorem Dev.bgStart_mgmt_bcbSeq (d : Dev) (path : Path) (op : Nat) : (d.bgStart path op).mgmt.bcbSeq = d.mgmt.bcbSeq := by
  simp only [Dev.bgStart]; split <;> simp
@[simp] theorem Dev.bgStart_mgmt_measured (d : Dev) (path : Path) (op : Nat) : (d.bgStart path op).mgmt.measured = d.mgmt.measured := by
  simp only [Dev.bgStart]; split <;> simp
@[simp] theorem Dev.bgStart_mgmt_bgLast (d : Dev) (path : Path) (op : Nat) : (d.bgStart path op).mgmt.bgLast = d.mgmt.bgLast := by
  simp only [Dev.bgStart]; split <;> simp
@[simp] theorem Dev.bgStart_mgmt_transfers (d : Dev) (path : Path) (op : Nat) : (d.bgStart path op).mgmt.transfers = d.mgmt.transfers := by
  simp only [Dev.bgStart]; split <;> simp
@[simp] theorem Dev.bgStart_mgmt_activation (d : Dev) (path : Path) (op : Nat) : (d.bgStart path op).mgmt.activation = d.mgmt.activation := by
  simp only [Dev.bgStart]; split <;> simp
@[simp] theorem Dev.bgStart_mgmt_imageMove (d : Dev) (path : Path) (op : Nat) : (d.bgStart path op).mgmt.imageMove = d.mgmt.imageMove := by
  simp only [Dev.bgStart]; split <;> simp
@[simp] theorem Dev.bgStart_mgmt_events (d : Dev) (path : Path) (op : Nat) : (d.bgStart path op).mgmt.events = d.mgmt.events := by
  simp only [Dev.bgStart]; split <;> simp
@[simp] theorem Dev.bgStart_mgmt_eventNext (d : Dev) (path : Path) (op : Nat) : (d.bgStart path op).mgmt.eventNext = d.mgmt.eventNext := by
  simp only [Dev.bgStart]; split <;> simp
@[simp] theorem Dev.bgStart_mgmt_policies (d : Dev) (path : Path) (op : Nat) : (d.bgStart path op).mgmt.policies = d.mgmt.policies := by
  simp only [Dev.bgStart]; split <;> simp
@[simp] theorem Dev.bgStart_mgmt_oobSlots (d : Dev) (path : Path) (op : Nat) : (d.bgStart path op).mgmt.oobSlots = d.mgmt.oobSlots := by
  simp only [Dev.bgStart]; split <;> simp
@[simp] theorem Dev.bgStart_mgmt_oobResult (d : Dev) (path : Path) (op : Nat) : (d.bgStart path op).mgmt.oobResult = d.mgmt.oobResult := by
  simp only [Dev.bgStart]; split <;> simp
@[simp] theorem Dev.bgStart_mgmt_mctpEid (d : Dev) (path : Path) (op : Nat) : (d.bgStart path op).mgmt.mctpEid = d.mgmt.mctpEid := by
  simp only [Dev.bgStart]; split <;> simp
@[simp] theorem Dev.bgStart_mgmt_i3cBridge (d : Dev) (path : Path) (op : Nat) : (d.bgStart path op).mgmt.i3cBridge = d.mgmt.i3cBridge := by
  simp only [Dev.bgStart]; split <;> simp
@[simp] theorem Dev.bgStart_mgmt_i3cMctp (d : Dev) (path : Path) (op : Nat) : (d.bgStart path op).mgmt.i3cMctp = d.mgmt.i3cMctp := by
  simp only [Dev.bgStart]; split <;> simp
@[simp] theorem Dev.bgStart_mgmt_i3cBus (d : Dev) (path : Path) (op : Nat) : (d.bgStart path op).mgmt.i3cBus = d.mgmt.i3cBus := by
  simp only [Dev.bgStart]; split <;> simp
@[simp] theorem Dev.bgStart_mgmt_mctpAddr (d : Dev) (path : Path) (op : Nat) : (d.bgStart path op).mgmt.mctpAddr = d.mgmt.mctpAddr := by
  simp only [Dev.bgStart]; split <;> simp
@[simp] theorem Dev.bgStart_mgmt_ioPending (d : Dev) (path : Path) (op : Nat) : (d.bgStart path op).mgmt.ioPending = d.mgmt.ioPending := by
  simp only [Dev.bgStart]; split <;> simp

@[simp] theorem Dev.bgResult_mgmt_strapAddr (d : Dev) (path : Path) (rc v : Nat) : (d.bgResult path rc v).mgmt.strapAddr = d.mgmt.strapAddr := rfl
@[simp] theorem Dev.bgResult_mgmt_strapBus (d : Dev) (path : Path) (rc v : Nat) : (d.bgResult path rc v).mgmt.strapBus = d.mgmt.strapBus := rfl
@[simp] theorem Dev.bgResult_mgmt_porst (d : Dev) (path : Path) (rc v : Nat) : (d.bgResult path rc v).mgmt.porst = d.mgmt.porst := rfl
@[simp] theorem Dev.bgResult_mgmt_wrst (d : Dev) (path : Path) (rc v : Nat) : (d.bgResult path rc v).mgmt.wrst = d.mgmt.wrst := rfl
@[simp] theorem Dev.bgResult_mgmt_coldHeld (d : Dev) (path : Path) (rc v : Nat) : (d.bgResult path rc v).mgmt.coldHeld = d.mgmt.coldHeld := rfl
@[simp] theorem Dev.bgResult_mgmt_warmHeld (d : Dev) (path : Path) (rc v : Nat) : (d.bgResult path rc v).mgmt.warmHeld = d.mgmt.warmHeld := rfl
@[simp] theorem Dev.bgResult_mgmt_tripHeld (d : Dev) (path : Path) (rc v : Nat) : (d.bgResult path rc v).mgmt.tripHeld = d.mgmt.tripHeld := rfl
@[simp] theorem Dev.bgResult_mgmt_flash (d : Dev) (path : Path) (rc v : Nat) : (d.bgResult path rc v).mgmt.flash = d.mgmt.flash := rfl
@[simp] theorem Dev.bgResult_mgmt_preferred (d : Dev) (path : Path) (rc v : Nat) : (d.bgResult path rc v).mgmt.preferred = d.mgmt.preferred := rfl
@[simp] theorem Dev.bgResult_mgmt_trial (d : Dev) (path : Path) (rc v : Nat) : (d.bgResult path rc v).mgmt.trial = d.mgmt.trial := rfl
@[simp] theorem Dev.bgResult_mgmt_bcbSlot (d : Dev) (path : Path) (rc v : Nat) : (d.bgResult path rc v).mgmt.bcbSlot = d.mgmt.bcbSlot := rfl
@[simp] theorem Dev.bgResult_mgmt_inUse (d : Dev) (path : Path) (rc v : Nat) : (d.bgResult path rc v).mgmt.inUse = d.mgmt.inUse := rfl
@[simp] theorem Dev.bgResult_mgmt_verified (d : Dev) (path : Path) (rc v : Nat) : (d.bgResult path rc v).mgmt.verified = d.mgmt.verified := rfl
@[simp] theorem Dev.bgResult_mgmt_fwVersion (d : Dev) (path : Path) (rc v : Nat) : (d.bgResult path rc v).mgmt.fwVersion = d.mgmt.fwVersion := rfl
@[simp] theorem Dev.bgResult_mgmt_fwSvn (d : Dev) (path : Path) (rc v : Nat) : (d.bgResult path rc v).mgmt.fwSvn = d.mgmt.fwSvn := rfl
@[simp] theorem Dev.bgResult_mgmt_fwUp (d : Dev) (path : Path) (rc v : Nat) : (d.bgResult path rc v).mgmt.fwUp = d.mgmt.fwUp := rfl
@[simp] theorem Dev.bgResult_mgmt_bcb (d : Dev) (path : Path) (rc v : Nat) : (d.bgResult path rc v).mgmt.bcb = d.mgmt.bcb := rfl
@[simp] theorem Dev.bgResult_mgmt_bcbSeq (d : Dev) (path : Path) (rc v : Nat) : (d.bgResult path rc v).mgmt.bcbSeq = d.mgmt.bcbSeq := rfl
@[simp] theorem Dev.bgResult_mgmt_measured (d : Dev) (path : Path) (rc v : Nat) : (d.bgResult path rc v).mgmt.measured = d.mgmt.measured := rfl
@[simp] theorem Dev.bgResult_mgmt_bgLast (d : Dev) (path : Path) (rc v : Nat) : (d.bgResult path rc v).mgmt.bgLast = d.mgmt.bgLast := rfl
@[simp] theorem Dev.bgResult_mgmt_transfers (d : Dev) (path : Path) (rc v : Nat) : (d.bgResult path rc v).mgmt.transfers = d.mgmt.transfers := rfl
@[simp] theorem Dev.bgResult_mgmt_activation (d : Dev) (path : Path) (rc v : Nat) : (d.bgResult path rc v).mgmt.activation = d.mgmt.activation := rfl
@[simp] theorem Dev.bgResult_mgmt_imageMove (d : Dev) (path : Path) (rc v : Nat) : (d.bgResult path rc v).mgmt.imageMove = d.mgmt.imageMove := rfl
@[simp] theorem Dev.bgResult_mgmt_events (d : Dev) (path : Path) (rc v : Nat) : (d.bgResult path rc v).mgmt.events = d.mgmt.events := rfl
@[simp] theorem Dev.bgResult_mgmt_eventNext (d : Dev) (path : Path) (rc v : Nat) : (d.bgResult path rc v).mgmt.eventNext = d.mgmt.eventNext := rfl
@[simp] theorem Dev.bgResult_mgmt_policies (d : Dev) (path : Path) (rc v : Nat) : (d.bgResult path rc v).mgmt.policies = d.mgmt.policies := rfl
@[simp] theorem Dev.bgResult_mgmt_oobSlots (d : Dev) (path : Path) (rc v : Nat) : (d.bgResult path rc v).mgmt.oobSlots = d.mgmt.oobSlots := rfl
@[simp] theorem Dev.bgResult_mgmt_oobResult (d : Dev) (path : Path) (rc v : Nat) : (d.bgResult path rc v).mgmt.oobResult = d.mgmt.oobResult := rfl
@[simp] theorem Dev.bgResult_mgmt_mctpEid (d : Dev) (path : Path) (rc v : Nat) : (d.bgResult path rc v).mgmt.mctpEid = d.mgmt.mctpEid := rfl
@[simp] theorem Dev.bgResult_mgmt_i3cBridge (d : Dev) (path : Path) (rc v : Nat) : (d.bgResult path rc v).mgmt.i3cBridge = d.mgmt.i3cBridge := rfl
@[simp] theorem Dev.bgResult_mgmt_i3cMctp (d : Dev) (path : Path) (rc v : Nat) : (d.bgResult path rc v).mgmt.i3cMctp = d.mgmt.i3cMctp := rfl
@[simp] theorem Dev.bgResult_mgmt_i3cBus (d : Dev) (path : Path) (rc v : Nat) : (d.bgResult path rc v).mgmt.i3cBus = d.mgmt.i3cBus := rfl
@[simp] theorem Dev.bgResult_mgmt_mctpAddr (d : Dev) (path : Path) (rc v : Nat) : (d.bgResult path rc v).mgmt.mctpAddr = d.mgmt.mctpAddr := rfl
@[simp] theorem Dev.bgResult_mgmt_ioPending (d : Dev) (path : Path) (rc v : Nat) : (d.bgResult path rc v).mgmt.ioPending = d.mgmt.ioPending := rfl

/-! Registers are read from the register file alone. -/

@[simp] theorem Dev.reg_mk (d : Dev) (a1 : PoolState) (a2 : DirState) (a3 : SwitchState) (a4 : SvcState) (a5 : PortState) (a6 : LinkState) (a7 : FabState)
    (a8 : MgmtState) (a9 : SecState) (a10 : PwrState) (a11 : FltState) (a12 : TelState) (a13 : List Out) (a14 : Nat)
    (r : Reg) : (Dev.mk d.regs a1 a2 a3 a4 a5 a6 a7 a8 a9 a10 a11 a12 a13 a14).reg r = d.reg r := rfl
@[simp] theorem Dev.rd_mk (d : Dev) (a1 : PoolState) (a2 : DirState) (a3 : SwitchState) (a4 : SvcState) (a5 : PortState) (a6 : LinkState) (a7 : FabState)
    (a8 : MgmtState) (a9 : SecState) (a10 : PwrState) (a11 : FltState) (a12 : TelState) (a13 : List Out) (a14 : Nat)
    (r : Reg) (hi lo : Nat) : (Dev.mk d.regs a1 a2 a3 a4 a5 a6 a7 a8 a9 a10 a11 a12 a13 a14).rd r hi lo = d.rd r hi lo := rfl
@[simp] theorem Dev.bitOf_mk (d : Dev) (a1 : PoolState) (a2 : DirState) (a3 : SwitchState) (a4 : SvcState) (a5 : PortState) (a6 : LinkState) (a7 : FabState)
    (a8 : MgmtState) (a9 : SecState) (a10 : PwrState) (a11 : FltState) (a12 : TelState) (a13 : List Out) (a14 : Nat)
    (r : Reg) (i : Nat) : (Dev.mk d.regs a1 a2 a3 a4 a5 a6 a7 a8 a9 a10 a11 a12 a13 a14).bitOf r i = d.bitOf r i := rfl

end Sys2Proof.Machine
end

