-- ==== Sys2Proof/Laws/Out.lean ====
section
/-! SUPPORT. What the device has sent stays sent: each shared operation only adds to it. -/

namespace Sys2Proof.Machine

/-- A fold whose steps only add to what is sent only adds to it. -/
theorem foldl_out {α : Type} (f : Dev → α → Dev) (l : List α) (h : ∀ d x, d.out <+: (f d x).out) (d : Dev) :
    d.out <+: (l.foldl f d).out := by
  induction l generalizing d with
  | nil => exact List.prefix_rfl
  | cons x r ih => exact (h d x).trans (ih (f d x))

theorem Dev.out_emit (d : Dev) (o : Out) : d.out <+: (d.emit o).out := List.prefix_append _ _

theorem Dev.out_emits (d : Dev) (os : List Out) : d.out <+: (d.emits os).out := List.prefix_append _ _

/-- What is emitted is sent. -/
theorem Dev.mem_emit (d : Dev) (o : Out) : o ∈ (d.emit o).out := by simp [Dev.emit]

theorem Dev.out_msix (d : Dev) (f v : Nat) : d.out <+: (d.msix f v).out := by
  unfold Dev.msix; split
  · simp
  · exact d.out_emit _

theorem Dev.out_mgmtVector (d : Dev) (v : Nat) : d.out <+: (d.mgmtVector v).out := foldl_out _ _ (fun d _ => d.out_msix _ _) d

theorem Dev.out_fabricEvent (d : Dev) (typ detail : Nat) : d.out <+: (d.fabricEvent typ detail).out := by
  dsimp only [Dev.fabricEvent]
  refine List.IsPrefix.trans ?_ (Dev.out_mgmtVector _ _)
  exact List.prefix_rfl

theorem Dev.out_hostEvent (d : Dev) (p log kind dpa len tag : Nat) : d.out <+: (d.hostEvent p log kind dpa len tag).out :=
  Dev.out_emit _ _

theorem Dev.out_showFaults (d : Dev) : d.out <+: d.showFaults.out := by
  dsimp only [Dev.showFaults]; split
  · simp
  · refine List.IsPrefix.trans ?_ (Dev.out_emit _ _); simp

/-- What a command sends stands in the state that it answers. -/
theorem Dev.out_shown (d : Dev) : d.out <+: d.shown.out := by
  rw [Dev.shown]
  have h := Dev.out_showFaults d.showKeys.showCells
  rw [Dev.showCells_out, Dev.showKeys_out] at h
  exact h

theorem Dev.mem_shown {d : Dev} {o : Out} (h : o ∈ d.out) : o ∈ d.shown.out := d.out_shown.subset h

theorem Dev.out_mailboxIrq (d : Dev) (m w : Nat) : d.out <+: (d.mailboxIrq m w).out := by
  unfold Dev.mailboxIrq; split
  · exact d.out_mgmtVector _
  · exact d.out_msix _ _

theorem Dev.out_complete (d : Dev) (path : Path) (op rc v : Nat) (l : List Byte) :
    (d.emit (.cmdDone path op rc v l)).out <+: (d.complete path op rc v l).out := by
  dsimp only [Dev.complete]; repeat' split
  · refine List.IsPrefix.trans ?_ (Dev.out_mailboxIrq _ _ _); simp
  all_goals simp

/-- Completing a command sends its codes and its output. -/
theorem Dev.mem_complete (d : Dev) (path : Path) (op rc v : Nat) (l : List Byte) :
    .cmdDone path op rc v l ∈ (d.complete path op rc v l).out := (d.out_complete _ _ _ _ _).subset (d.mem_emit _)

theorem Dev.mem_finish (d : Dev) (path : Path) (op rc : Nat) : .cmdDone path op rc 0 [] ∈ (d.finish path op rc).out :=
  d.mem_complete _ _ _ _ _

theorem Dev.out_finish (d : Dev) (path : Path) (op rc : Nat) : d.out <+: (d.finish path op rc).out :=
  (d.out_emit _).trans (d.out_complete _ _ _ _ _)

theorem Dev.mem_bgStart (d : Dev) (path : Path) (op : Nat) : .cmdDone path op rcBackground 0 [] ∈ (d.bgStart path op).out := by
  dsimp only [Dev.bgStart]; split <;> exact Dev.mem_finish _ _ _ _

theorem Dev.out_bgStart (d : Dev) (path : Path) (op : Nat) : d.out <+: (d.bgStart path op).out := by
  dsimp only [Dev.bgStart]; split
  all_goals refine List.IsPrefix.trans ?_ (Dev.out_finish _ _ _ _); simp

theorem Dev.out_bgEnd (d : Dev) (path : Path) : d.out <+: (d.bgEnd path).out := by
  dsimp only [Dev.bgEnd]; repeat' split
  · refine List.IsPrefix.trans ?_ (Dev.out_mailboxIrq _ _ _); simp
  all_goals simp

/-- A background operation starts: the path runs it, with no result. -/
theorem Dev.bg_bgStart (d : Dev) (path : Path) (op : Nat) : tget (d.bgStart path op).mgmt.bg path = some ⟨op, none⟩ := by
  have h : ∀ (d : Dev) p o rc, (d.finish p o rc).mgmt.bg = d.mgmt.bg := fun d p o rc => by
    dsimp only [Dev.finish, Dev.complete]; repeat' split
    all_goals simp
  dsimp only [Dev.bgStart]; split
  all_goals rw [h]; simp

end Sys2Proof.Machine
end

