-- ==== Sys2Proof/Laws/Quiet.lean ====
section
/-! SUPPORT. Registers that counting, reporting, signalling and completing leave alone: all but the counters, the source status
registers, the pending bits, the status registers shown at the end of a command, and a mailbox's own. -/

namespace Sys2Proof.Machine

@[simp] theorem Reg.side_glbIdent : (Reg.glbIdent).side = false := id rfl
@[simp] theorem Reg.show_glbIdent : (Reg.glbIdent).show = false := id rfl
@[simp] theorem Reg.box_glbIdent : (Reg.glbIdent).box = false := id rfl
@[simp] theorem Reg.side_bufStatus : (Reg.bufStatus).side = false := id rfl
@[simp] theorem Reg.show_bufStatus : (Reg.bufStatus).show = true := id rfl
@[simp] theorem Reg.box_bufStatus : (Reg.bufStatus).box = false := id rfl
@[simp] theorem Reg.side_ageLimit : (Reg.ageLimit).side = false := id rfl
@[simp] theorem Reg.show_ageLimit : (Reg.ageLimit).show = false := id rfl
@[simp] theorem Reg.box_ageLimit : (Reg.ageLimit).box = false := id rfl
@[simp] theorem Reg.side_devloadThr : (Reg.devloadThr).side = false := id rfl
@[simp] theorem Reg.show_devloadThr : (Reg.devloadThr).show = false := id rfl
@[simp] theorem Reg.box_devloadThr : (Reg.devloadThr).box = false := id rfl
@[simp] theorem Reg.side_intResv (a : Nat) : (Reg.intResv a).side = false := id rfl
@[simp] theorem Reg.show_intResv (a : Nat) : (Reg.intResv a).show = false := id rfl
@[simp] theorem Reg.box_intResv (a : Nat) : (Reg.intResv a).box = false := id rfl
@[simp] theorem Reg.side_mgtResv : (Reg.mgtResv).side = false := id rfl
@[simp] theorem Reg.show_mgtResv : (Reg.mgtResv).show = false := id rfl
@[simp] theorem Reg.box_mgtResv : (Reg.mgtResv).box = false := id rfl
@[simp] theorem Reg.side_mirCtl (a : Nat) : (Reg.mirCtl a).side = false := id rfl
@[simp] theorem Reg.show_mirCtl (a : Nat) : (Reg.mirCtl a).show = false := id rfl
@[simp] theorem Reg.box_mirCtl (a : Nat) : (Reg.mirCtl a).box = false := id rfl
@[simp] theorem Reg.side_mirLo (a : Nat) : (Reg.mirLo a).side = false := id rfl
@[simp] theorem Reg.show_mirLo (a : Nat) : (Reg.mirLo a).show = false := id rfl
@[simp] theorem Reg.box_mirLo (a : Nat) : (Reg.mirLo a).box = false := id rfl
@[simp] theorem Reg.side_mirHi (a : Nat) : (Reg.mirHi a).side = false := id rfl
@[simp] theorem Reg.show_mirHi (a : Nat) : (Reg.mirHi a).show = false := id rfl
@[simp] theorem Reg.box_mirHi (a : Nat) : (Reg.mirHi a).box = false := id rfl
@[simp] theorem Reg.side_fabCfg : (Reg.fabCfg).side = false := id rfl
@[simp] theorem Reg.show_fabCfg : (Reg.fabCfg).show = false := id rfl
@[simp] theorem Reg.box_fabCfg : (Reg.fabCfg).box = false := id rfl
@[simp] theorem Reg.side_tollCtl : (Reg.tollCtl).side = false := id rfl
@[simp] theorem Reg.show_tollCtl : (Reg.tollCtl).show = false := id rfl
@[simp] theorem Reg.box_tollCtl : (Reg.tollCtl).box = false := id rfl
@[simp] theorem Reg.side_ftime : (Reg.ftime).side = false := id rfl
@[simp] theorem Reg.show_ftime : (Reg.ftime).show = false := id rfl
@[simp] theorem Reg.box_ftime : (Reg.ftime).box = false := id rfl
@[simp] theorem Reg.side_timeStatus : (Reg.timeStatus).side = false := id rfl
@[simp] theorem Reg.show_timeStatus : (Reg.timeStatus).show = false := id rfl
@[simp] theorem Reg.box_timeStatus : (Reg.timeStatus).box = false := id rfl
@[simp] theorem Reg.side_nbr (a : Nat) : (Reg.nbr a).side = false := id rfl
@[simp] theorem Reg.show_nbr (a : Nat) : (Reg.nbr a).show = false := id rfl
@[simp] theorem Reg.box_nbr (a : Nat) : (Reg.nbr a).box = false := id rfl
@[simp] theorem Reg.side_keyStatus : (Reg.keyStatus).side = false := id rfl
@[simp] theorem Reg.show_keyStatus : (Reg.keyStatus).show = true := id rfl
@[simp] theorem Reg.box_keyStatus : (Reg.keyStatus).box = false := id rfl
@[simp] theorem Reg.side_secStatus : (Reg.secStatus).side = false := id rfl
@[simp] theorem Reg.show_secStatus : (Reg.secStatus).show = false := id rfl
@[simp] theorem Reg.box_secStatus : (Reg.secStatus).box = false := id rfl
@[simp] theorem Reg.side_route (a : Nat) : (Reg.route a).side = false := id rfl
@[simp] theorem Reg.show_route (a : Nat) : (Reg.route a).show = false := id rfl
@[simp] theorem Reg.box_route (a : Nat) : (Reg.route a).box = false := id rfl
@[simp] theorem Reg.side_srcCfg (a : Nat) : (Reg.srcCfg a).side = false := id rfl
@[simp] theorem Reg.show_srcCfg (a : Nat) : (Reg.srcCfg a).show = false := id rfl
@[simp] theorem Reg.box_srcCfg (a : Nat) : (Reg.srcCfg a).box = false := id rfl
@[simp] theorem Reg.side_srcStatus (a : Nat) : (Reg.srcStatus a).side = true := id rfl
@[simp] theorem Reg.show_srcStatus (a : Nat) : (Reg.srcStatus a).show = false := id rfl
@[simp] theorem Reg.box_srcStatus (a : Nat) : (Reg.srcStatus a).box = false := id rfl
@[simp] theorem Reg.side_faultStat : (Reg.faultStat).side = false := id rfl
@[simp] theorem Reg.show_faultStat : (Reg.faultStat).show = true := id rfl
@[simp] theorem Reg.box_faultStat : (Reg.faultStat).box = false := id rfl
@[simp] theorem Reg.side_retireStatus : (Reg.retireStatus).side = false := id rfl
@[simp] theorem Reg.show_retireStatus : (Reg.retireStatus).show = false := id rfl
@[simp] theorem Reg.box_retireStatus : (Reg.retireStatus).box = false := id rfl
@[simp] theorem Reg.side_domStatus (a : Nat) : (Reg.domStatus a).side = false := id rfl
@[simp] theorem Reg.show_domStatus (a : Nat) : (Reg.domStatus a).show = false := id rfl
@[simp] theorem Reg.box_domStatus (a : Nat) : (Reg.domStatus a).box = false := id rfl
@[simp] theorem Reg.side_domCfg (a : Nat) : (Reg.domCfg a).side = false := id rfl
@[simp] theorem Reg.show_domCfg (a : Nat) : (Reg.domCfg a).show = false := id rfl
@[simp] theorem Reg.box_domCfg (a : Nat) : (Reg.domCfg a).box = false := id rfl
@[simp] theorem Reg.side_curve (a b : Nat) : (Reg.curve a b).side = false := id rfl
@[simp] theorem Reg.show_curve (a b : Nat) : (Reg.curve a b).show = false := id rfl
@[simp] theorem Reg.box_curve (a b : Nat) : (Reg.curve a b).box = false := id rfl
@[simp] theorem Reg.side_rail (a : Nat) : (Reg.rail a).side = false := id rfl
@[simp] theorem Reg.show_rail (a : Nat) : (Reg.rail a).show = false := id rfl
@[simp] theorem Reg.box_rail (a : Nat) : (Reg.rail a).box = false := id rfl
@[simp] theorem Reg.side_aoFeed : (Reg.aoFeed).side = false := id rfl
@[simp] theorem Reg.show_aoFeed : (Reg.aoFeed).show = false := id rfl
@[simp] theorem Reg.box_aoFeed : (Reg.aoFeed).box = false := id rfl
@[simp] theorem Reg.side_clkStatus : (Reg.clkStatus).side = false := id rfl
@[simp] theorem Reg.show_clkStatus : (Reg.clkStatus).show = false := id rfl
@[simp] theorem Reg.box_clkStatus : (Reg.clkStatus).box = false := id rfl
@[simp] theorem Reg.side_avs : (Reg.avs).side = false := id rfl
@[simp] theorem Reg.show_avs : (Reg.avs).show = false := id rfl
@[simp] theorem Reg.box_avs : (Reg.avs).box = false := id rfl
@[simp] theorem Reg.side_sleepCtl : (Reg.sleepCtl).side = false := id rfl
@[simp] theorem Reg.show_sleepCtl : (Reg.sleepCtl).show = false := id rfl
@[simp] theorem Reg.box_sleepCtl : (Reg.sleepCtl).box = false := id rfl
@[simp] theorem Reg.side_pStart (a : Nat) : (Reg.pStart a).side = false := id rfl
@[simp] theorem Reg.show_pStart (a : Nat) : (Reg.pStart a).show = false := id rfl
@[simp] theorem Reg.box_pStart (a : Nat) : (Reg.pStart a).box = false := id rfl
@[simp] theorem Reg.side_pEnd (a : Nat) : (Reg.pEnd a).side = false := id rfl
@[simp] theorem Reg.show_pEnd (a : Nat) : (Reg.pEnd a).show = false := id rfl
@[simp] theorem Reg.box_pEnd (a : Nat) : (Reg.pEnd a).box = false := id rfl
@[simp] theorem Reg.side_pPorts (a : Nat) : (Reg.pPorts a).side = false := id rfl
@[simp] theorem Reg.show_pPorts (a : Nat) : (Reg.pPorts a).show = false := id rfl
@[simp] theorem Reg.box_pPorts (a : Nat) : (Reg.pPorts a).box = false := id rfl
@[simp] theorem Reg.side_pCtl (a : Nat) : (Reg.pCtl a).side = false := id rfl
@[simp] theorem Reg.show_pCtl (a : Nat) : (Reg.pCtl a).show = false := id rfl
@[simp] theorem Reg.box_pCtl (a : Nat) : (Reg.pCtl a).box = false := id rfl
@[simp] theorem Reg.side_rStart (a : Nat) : (Reg.rStart a).side = false := id rfl
@[simp] theorem Reg.show_rStart (a : Nat) : (Reg.rStart a).show = false := id rfl
@[simp] theorem Reg.box_rStart (a : Nat) : (Reg.rStart a).box = false := id rfl
@[simp] theorem Reg.side_rEnd (a : Nat) : (Reg.rEnd a).side = false := id rfl
@[simp] theorem Reg.show_rEnd (a : Nat) : (Reg.rEnd a).show = false := id rfl
@[simp] theorem Reg.box_rEnd (a : Nat) : (Reg.rEnd a).box = false := id rfl
@[simp] theorem Reg.side_rPorts (a : Nat) : (Reg.rPorts a).side = false := id rfl
@[simp] theorem Reg.show_rPorts (a : Nat) : (Reg.rPorts a).show = false := id rfl
@[simp] theorem Reg.box_rPorts (a : Nat) : (Reg.rPorts a).box = false := id rfl
@[simp] theorem Reg.side_rCtl (a : Nat) : (Reg.rCtl a).side = false := id rfl
@[simp] theorem Reg.show_rCtl (a : Nat) : (Reg.rCtl a).show = false := id rfl
@[simp] theorem Reg.box_rCtl (a : Nat) : (Reg.rCtl a).box = false := id rfl
@[simp] theorem Reg.side_acuStatus : (Reg.acuStatus).side = false := id rfl
@[simp] theorem Reg.show_acuStatus : (Reg.acuStatus).show = false := id rfl
@[simp] theorem Reg.box_acuStatus : (Reg.acuStatus).box = false := id rfl
@[simp] theorem Reg.side_violAddr (a : Nat) : (Reg.violAddr a).side = false := id rfl
@[simp] theorem Reg.show_violAddr (a : Nat) : (Reg.violAddr a).show = false := id rfl
@[simp] theorem Reg.box_violAddr (a : Nat) : (Reg.violAddr a).box = false := id rfl
@[simp] theorem Reg.side_violInfo (a : Nat) : (Reg.violInfo a).side = false := id rfl
@[simp] theorem Reg.show_violInfo (a : Nat) : (Reg.violInfo a).show = false := id rfl
@[simp] theorem Reg.box_violInfo (a : Nat) : (Reg.violInfo a).box = false := id rfl
@[simp] theorem Reg.side_violCount (a : Nat) : (Reg.violCount a).side = false := id rfl
@[simp] theorem Reg.show_violCount (a : Nat) : (Reg.violCount a).show = false := id rfl
@[simp] theorem Reg.box_violCount (a : Nat) : (Reg.violCount a).box = false := id rfl
@[simp] theorem Reg.side_pmcCycles (a : Nat) : (Reg.pmcCycles a).side = false := id rfl
@[simp] theorem Reg.show_pmcCycles (a : Nat) : (Reg.pmcCycles a).show = false := id rfl
@[simp] theorem Reg.box_pmcCycles (a : Nat) : (Reg.pmcCycles a).box = false := id rfl
@[simp] theorem Reg.side_pmcStatus (a : Nat) : (Reg.pmcStatus a).side = true := id rfl
@[simp] theorem Reg.show_pmcStatus (a : Nat) : (Reg.pmcStatus a).show = false := id rfl
@[simp] theorem Reg.box_pmcStatus (a : Nat) : (Reg.pmcStatus a).box = false := id rfl
@[simp] theorem Reg.side_pmcCnt (a b : Nat) : (Reg.pmcCnt a b).side = true := id rfl
@[simp] theorem Reg.show_pmcCnt (a b : Nat) : (Reg.pmcCnt a b).show = false := id rfl
@[simp] theorem Reg.box_pmcCnt (a b : Nat) : (Reg.pmcCnt a b).box = false := id rfl
@[simp] theorem Reg.side_pmcEvsel (a b : Nat) : (Reg.pmcEvsel a b).side = false := id rfl
@[simp] theorem Reg.show_pmcEvsel (a b : Nat) : (Reg.pmcEvsel a b).show = false := id rfl
@[simp] theorem Reg.box_pmcEvsel (a b : Nat) : (Reg.pmcEvsel a b).box = false := id rfl
@[simp] theorem Reg.side_pmcSnapCycles (a : Nat) : (Reg.pmcSnapCycles a).side = false := id rfl
@[simp] theorem Reg.show_pmcSnapCycles (a : Nat) : (Reg.pmcSnapCycles a).show = false := id rfl
@[simp] theorem Reg.box_pmcSnapCycles (a : Nat) : (Reg.pmcSnapCycles a).box = false := id rfl
@[simp] theorem Reg.side_pmcSnapCnt (a b : Nat) : (Reg.pmcSnapCnt a b).side = false := id rfl
@[simp] theorem Reg.show_pmcSnapCnt (a b : Nat) : (Reg.pmcSnapCnt a b).show = false := id rfl
@[simp] theorem Reg.box_pmcSnapCnt (a b : Nat) : (Reg.pmcSnapCnt a b).box = false := id rfl
@[simp] theorem Reg.side_pmcGlbCtl : (Reg.pmcGlbCtl).side = false := id rfl
@[simp] theorem Reg.show_pmcGlbCtl : (Reg.pmcGlbCtl).show = false := id rfl
@[simp] theorem Reg.box_pmcGlbCtl : (Reg.pmcGlbCtl).box = false := id rfl
@[simp] theorem Reg.side_pmcSnapFtime : (Reg.pmcSnapFtime).side = false := id rfl
@[simp] theorem Reg.show_pmcSnapFtime : (Reg.pmcSnapFtime).show = false := id rfl
@[simp] theorem Reg.box_pmcSnapFtime : (Reg.pmcSnapFtime).box = false := id rfl
@[simp] theorem Reg.side_prtCfg (a : Nat) : (Reg.prtCfg a).side = false := id rfl
@[simp] theorem Reg.show_prtCfg (a : Nat) : (Reg.prtCfg a).show = false := id rfl
@[simp] theorem Reg.box_prtCfg (a : Nat) : (Reg.prtCfg a).box = false := id rfl
@[simp] theorem Reg.side_prtStatus (a : Nat) : (Reg.prtStatus a).side = false := id rfl
@[simp] theorem Reg.show_prtStatus (a : Nat) : (Reg.prtStatus a).show = false := id rfl
@[simp] theorem Reg.box_prtStatus (a : Nat) : (Reg.prtStatus a).box = false := id rfl
@[simp] theorem Reg.side_hpCtl (a : Nat) : (Reg.hpCtl a).side = false := id rfl
@[simp] theorem Reg.show_hpCtl (a : Nat) : (Reg.hpCtl a).show = false := id rfl
@[simp] theorem Reg.box_hpCtl (a : Nat) : (Reg.hpCtl a).box = false := id rfl
@[simp] theorem Reg.side_hpStatus (a : Nat) : (Reg.hpStatus a).side = false := id rfl
@[simp] theorem Reg.show_hpStatus (a : Nat) : (Reg.hpStatus a).show = false := id rfl
@[simp] theorem Reg.box_hpStatus (a : Nat) : (Reg.hpStatus a).box = false := id rfl
@[simp] theorem Reg.side_cplTo (a : Nat) : (Reg.cplTo a).side = false := id rfl
@[simp] theorem Reg.show_cplTo (a : Nat) : (Reg.cplTo a).show = false := id rfl
@[simp] theorem Reg.box_cplTo (a : Nat) : (Reg.cplTo a).box = false := id rfl
@[simp] theorem Reg.side_prtResv (a : Nat) : (Reg.prtResv a).side = false := id rfl
@[simp] theorem Reg.show_prtResv (a : Nat) : (Reg.prtResv a).show = false := id rfl
@[simp] theorem Reg.box_prtResv (a : Nat) : (Reg.prtResv a).box = false := id rfl
@[simp] theorem Reg.side_prtClassWeight (a : Nat) : (Reg.prtClassWeight a).side = false := id rfl
@[simp] theorem Reg.show_prtClassWeight (a : Nat) : (Reg.prtClassWeight a).show = false := id rfl
@[simp] theorem Reg.box_prtClassWeight (a : Nat) : (Reg.prtClassWeight a).box = false := id rfl
@[simp] theorem Reg.side_prtShape (a : Nat) : (Reg.prtShape a).side = false := id rfl
@[simp] theorem Reg.show_prtShape (a : Nat) : (Reg.prtShape a).show = false := id rfl
@[simp] theorem Reg.box_prtShape (a : Nat) : (Reg.prtShape a).box = false := id rfl
@[simp] theorem Reg.side_prtGclCtl (a : Nat) : (Reg.prtGclCtl a).side = false := id rfl
@[simp] theorem Reg.show_prtGclCtl (a : Nat) : (Reg.prtGclCtl a).show = false := id rfl
@[simp] theorem Reg.box_prtGclCtl (a : Nat) : (Reg.prtGclCtl a).box = false := id rfl
@[simp] theorem Reg.side_prtGclBase (a : Nat) : (Reg.prtGclBase a).side = false := id rfl
@[simp] theorem Reg.show_prtGclBase (a : Nat) : (Reg.prtGclBase a).show = false := id rfl
@[simp] theorem Reg.box_prtGclBase (a : Nat) : (Reg.prtGclBase a).box = false := id rfl
@[simp] theorem Reg.side_prtHostWeight (a b : Nat) : (Reg.prtHostWeight a b).side = false := id rfl
@[simp] theorem Reg.show_prtHostWeight (a b : Nat) : (Reg.prtHostWeight a b).show = false := id rfl
@[simp] theorem Reg.box_prtHostWeight (a b : Nat) : (Reg.prtHostWeight a b).box = false := id rfl
@[simp] theorem Reg.side_prtGclEntry (a b c : Nat) : (Reg.prtGclEntry a b c).side = false := id rfl
@[simp] theorem Reg.show_prtGclEntry (a b c : Nat) : (Reg.prtGclEntry a b c).show = false := id rfl
@[simp] theorem Reg.box_prtGclEntry (a b c : Nat) : (Reg.prtGclEntry a b c).box = false := id rfl
@[simp] theorem Reg.side_stlCfg (a : Nat) : (Reg.stlCfg a).side = false := id rfl
@[simp] theorem Reg.show_stlCfg (a : Nat) : (Reg.stlCfg a).show = false := id rfl
@[simp] theorem Reg.box_stlCfg (a : Nat) : (Reg.stlCfg a).box = false := id rfl
@[simp] theorem Reg.side_stlStatus (a : Nat) : (Reg.stlStatus a).side = false := id rfl
@[simp] theorem Reg.show_stlStatus (a : Nat) : (Reg.stlStatus a).show = false := id rfl
@[simp] theorem Reg.box_stlStatus (a : Nat) : (Reg.stlStatus a).box = false := id rfl
@[simp] theorem Reg.side_linkCtl (a : Nat) : (Reg.linkCtl a).side = false := id rfl
@[simp] theorem Reg.show_linkCtl (a : Nat) : (Reg.linkCtl a).show = false := id rfl
@[simp] theorem Reg.box_linkCtl (a : Nat) : (Reg.linkCtl a).box = false := id rfl
@[simp] theorem Reg.side_widthCtl (a : Nat) : (Reg.widthCtl a).side = false := id rfl
@[simp] theorem Reg.show_widthCtl (a : Nat) : (Reg.widthCtl a).show = false := id rfl
@[simp] theorem Reg.box_widthCtl (a : Nat) : (Reg.widthCtl a).box = false := id rfl
@[simp] theorem Reg.side_txeq (a b : Nat) : (Reg.txeq a b).side = false := id rfl
@[simp] theorem Reg.show_txeq (a b : Nat) : (Reg.txeq a b).show = false := id rfl
@[simp] theorem Reg.box_txeq (a b : Nat) : (Reg.txeq a b).box = false := id rfl
@[simp] theorem Reg.side_laneStatus (a b : Nat) : (Reg.laneStatus a b).side = false := id rfl
@[simp] theorem Reg.show_laneStatus (a b : Nat) : (Reg.laneStatus a b).show = false := id rfl
@[simp] theorem Reg.box_laneStatus (a b : Nat) : (Reg.laneStatus a b).box = false := id rfl
@[simp] theorem Reg.side_errCnt (a : Nat) : (Reg.errCnt a).side = false := id rfl
@[simp] theorem Reg.show_errCnt (a : Nat) : (Reg.errCnt a).show = false := id rfl
@[simp] theorem Reg.box_errCnt (a : Nat) : (Reg.errCnt a).box = false := id rfl
@[simp] theorem Reg.side_trainCtl (a : Nat) : (Reg.trainCtl a).side = false := id rfl
@[simp] theorem Reg.show_trainCtl (a : Nat) : (Reg.trainCtl a).show = false := id rfl
@[simp] theorem Reg.box_trainCtl (a : Nat) : (Reg.trainCtl a).box = false := id rfl
@[simp] theorem Reg.side_seqStatus (a : Nat) : (Reg.seqStatus a).side = false := id rfl
@[simp] theorem Reg.show_seqStatus (a : Nat) : (Reg.seqStatus a).show = false := id rfl
@[simp] theorem Reg.box_seqStatus (a : Nat) : (Reg.seqStatus a).box = false := id rfl
@[simp] theorem Reg.side_stlResv (a : Nat) : (Reg.stlResv a).side = false := id rfl
@[simp] theorem Reg.show_stlResv (a : Nat) : (Reg.stlResv a).show = false := id rfl
@[simp] theorem Reg.box_stlResv (a : Nat) : (Reg.stlResv a).box = false := id rfl
@[simp] theorem Reg.side_stlClassWeight (a : Nat) : (Reg.stlClassWeight a).side = false := id rfl
@[simp] theorem Reg.show_stlClassWeight (a : Nat) : (Reg.stlClassWeight a).show = false := id rfl
@[simp] theorem Reg.box_stlClassWeight (a : Nat) : (Reg.stlClassWeight a).box = false := id rfl
@[simp] theorem Reg.side_stlGclCtl (a : Nat) : (Reg.stlGclCtl a).side = false := id rfl
@[simp] theorem Reg.show_stlGclCtl (a : Nat) : (Reg.stlGclCtl a).show = false := id rfl
@[simp] theorem Reg.box_stlGclCtl (a : Nat) : (Reg.stlGclCtl a).box = false := id rfl
@[simp] theorem Reg.side_stlGclBase (a : Nat) : (Reg.stlGclBase a).side = false := id rfl
@[simp] theorem Reg.show_stlGclBase (a : Nat) : (Reg.stlGclBase a).show = false := id rfl
@[simp] theorem Reg.box_stlGclBase (a : Nat) : (Reg.stlGclBase a).box = false := id rfl
@[simp] theorem Reg.side_stlGclEntry (a b c : Nat) : (Reg.stlGclEntry a b c).side = false := id rfl
@[simp] theorem Reg.show_stlGclEntry (a b c : Nat) : (Reg.stlGclEntry a b c).show = false := id rfl
@[simp] theorem Reg.box_stlGclEntry (a b c : Nat) : (Reg.stlGclEntry a b c).box = false := id rfl
@[simp] theorem Reg.side_tlsCtl : (Reg.tlsCtl).side = false := id rfl
@[simp] theorem Reg.show_tlsCtl : (Reg.tlsCtl).show = false := id rfl
@[simp] theorem Reg.box_tlsCtl : (Reg.tlsCtl).box = false := id rfl
@[simp] theorem Reg.side_tlsSlotCfg (a : Nat) : (Reg.tlsSlotCfg a).side = false := id rfl
@[simp] theorem Reg.show_tlsSlotCfg (a : Nat) : (Reg.tlsSlotCfg a).show = false := id rfl
@[simp] theorem Reg.box_tlsSlotCfg (a : Nat) : (Reg.tlsSlotCfg a).box = false := id rfl
@[simp] theorem Reg.side_tlsHist (a b c d : Nat) : (Reg.tlsHist a b c d).side = false := id rfl
@[simp] theorem Reg.show_tlsHist (a b c d : Nat) : (Reg.tlsHist a b c d).show = false := id rfl
@[simp] theorem Reg.box_tlsHist (a b c d : Nat) : (Reg.tlsHist a b c d).box = false := id rfl
@[simp] theorem Reg.side_mbxCap (a : Nat) : (Reg.mbxCap a).side = false := id rfl
@[simp] theorem Reg.show_mbxCap (a : Nat) : (Reg.mbxCap a).show = false := id rfl
@[simp] theorem Reg.box_mbxCap (a : Nat) : (Reg.mbxCap a).box = false := id rfl
@[simp] theorem Reg.side_mbxCtl (a : Nat) : (Reg.mbxCtl a).side = false := id rfl
@[simp] theorem Reg.show_mbxCtl (a : Nat) : (Reg.mbxCtl a).show = false := id rfl
@[simp] theorem Reg.box_mbxCtl (a : Nat) : (Reg.mbxCtl a).box = true := id rfl
@[simp] theorem Reg.side_mbxCmd (a : Nat) : (Reg.mbxCmd a).side = false := id rfl
@[simp] theorem Reg.show_mbxCmd (a : Nat) : (Reg.mbxCmd a).show = false := id rfl
@[simp] theorem Reg.box_mbxCmd (a : Nat) : (Reg.mbxCmd a).box = true := id rfl
@[simp] theorem Reg.side_mbxStatus (a : Nat) : (Reg.mbxStatus a).side = false := id rfl
@[simp] theorem Reg.show_mbxStatus (a : Nat) : (Reg.mbxStatus a).show = false := id rfl
@[simp] theorem Reg.box_mbxStatus (a : Nat) : (Reg.mbxStatus a).box = true := id rfl
@[simp] theorem Reg.side_mbxBgStatus (a : Nat) : (Reg.mbxBgStatus a).side = false := id rfl
@[simp] theorem Reg.show_mbxBgStatus (a : Nat) : (Reg.mbxBgStatus a).show = false := id rfl
@[simp] theorem Reg.box_mbxBgStatus (a : Nat) : (Reg.mbxBgStatus a).box = true := id rfl
@[simp] theorem Reg.side_mbxPayload (a b : Nat) : (Reg.mbxPayload a b).side = false := id rfl
@[simp] theorem Reg.show_mbxPayload (a b : Nat) : (Reg.mbxPayload a b).show = false := id rfl
@[simp] theorem Reg.box_mbxPayload (a b : Nat) : (Reg.mbxPayload a b).box = true := id rfl
@[simp] theorem Reg.side_msixAddr (a b : Nat) : (Reg.msixAddr a b).side = false := id rfl
@[simp] theorem Reg.show_msixAddr (a b : Nat) : (Reg.msixAddr a b).show = false := id rfl
@[simp] theorem Reg.box_msixAddr (a b : Nat) : (Reg.msixAddr a b).box = false := id rfl
@[simp] theorem Reg.side_msixData (a b : Nat) : (Reg.msixData a b).side = false := id rfl
@[simp] theorem Reg.show_msixData (a b : Nat) : (Reg.msixData a b).show = false := id rfl
@[simp] theorem Reg.box_msixData (a b : Nat) : (Reg.msixData a b).box = false := id rfl
@[simp] theorem Reg.side_msixPba (a b : Nat) : (Reg.msixPba a b).side = true := id rfl
@[simp] theorem Reg.show_msixPba (a b : Nat) : (Reg.msixPba a b).show = false := id rfl
@[simp] theorem Reg.box_msixPba (a b : Nat) : (Reg.msixPba a b).box = false := id rfl
@[simp] theorem Reg.side_oobBoot : (Reg.oobBoot).side = false := id rfl
@[simp] theorem Reg.show_oobBoot : (Reg.oobBoot).show = false := id rfl
@[simp] theorem Reg.box_oobBoot : (Reg.oobBoot).box = false := id rfl
@[simp] theorem Reg.side_sbsCtl : (Reg.sbsCtl).side = false := id rfl
@[simp] theorem Reg.show_sbsCtl : (Reg.sbsCtl).show = false := id rfl
@[simp] theorem Reg.box_sbsCtl : (Reg.sbsCtl).box = false := id rfl
@[simp] theorem Reg.side_sbsStatus : (Reg.sbsStatus).side = false := id rfl
@[simp] theorem Reg.show_sbsStatus : (Reg.sbsStatus).show = false := id rfl
@[simp] theorem Reg.box_sbsStatus : (Reg.sbsStatus).box = false := id rfl
@[simp] theorem Reg.side_dirBiTimeout (a : Nat) : (Reg.dirBiTimeout a).side = false := id rfl
@[simp] theorem Reg.show_dirBiTimeout (a : Nat) : (Reg.dirBiTimeout a).show = false := id rfl
@[simp] theorem Reg.box_dirBiTimeout (a : Nat) : (Reg.dirBiTimeout a).box = false := id rfl
@[simp] theorem Reg.side_dirStatus (a : Nat) : (Reg.dirStatus a).side = false := id rfl
@[simp] theorem Reg.show_dirStatus (a : Nat) : (Reg.dirStatus a).show = false := id rfl
@[simp] theorem Reg.box_dirStatus (a : Nat) : (Reg.dirStatus a).box = false := id rfl
@[simp] theorem Reg.side_dirCtStatus (a : Nat) : (Reg.dirCtStatus a).side = false := id rfl
@[simp] theorem Reg.show_dirCtStatus (a : Nat) : (Reg.dirCtStatus a).show = false := id rfl
@[simp] theorem Reg.box_dirCtStatus (a : Nat) : (Reg.dirCtStatus a).box = false := id rfl
@[simp] theorem Reg.side_lksStatus (a : Nat) : (Reg.lksStatus a).side = false := id rfl
@[simp] theorem Reg.show_lksStatus (a : Nat) : (Reg.lksStatus a).show = false := id rfl
@[simp] theorem Reg.box_lksStatus (a : Nat) : (Reg.lksStatus a).box = false := id rfl
@[simp] theorem Reg.side_qsvStatus (a : Nat) : (Reg.qsvStatus a).side = false := id rfl
@[simp] theorem Reg.show_qsvStatus (a : Nat) : (Reg.qsvStatus a).show = false := id rfl
@[simp] theorem Reg.box_qsvStatus (a : Nat) : (Reg.qsvStatus a).box = false := id rfl
@[simp] theorem Reg.side_dmv (a : Nat) (b : DmvReg) : (Reg.dmv a b).side = false := id rfl
@[simp] theorem Reg.show_dmv (a : Nat) (b : DmvReg) : (Reg.dmv a b).show = false := id rfl
@[simp] theorem Reg.box_dmv (a : Nat) (b : DmvReg) : (Reg.dmv a b).box = false := id rfl
@[simp] theorem Reg.side_svcVer (a : Nat) : (Reg.svcVer a).side = false := id rfl
@[simp] theorem Reg.show_svcVer (a : Nat) : (Reg.svcVer a).show = false := id rfl
@[simp] theorem Reg.box_svcVer (a : Nat) : (Reg.svcVer a).box = false := id rfl
@[simp] theorem Reg.side_sliceDir (a b : Nat) : (Reg.sliceDir a b).side = false := id rfl
@[simp] theorem Reg.show_sliceDir (a b : Nat) : (Reg.sliceDir a b).show = false := id rfl
@[simp] theorem Reg.box_sliceDir (a b : Nat) : (Reg.sliceDir a b).box = false := id rfl
@[simp] theorem Reg.side_sliceInfo (a b : Nat) : (Reg.sliceInfo a b).side = false := id rfl
@[simp] theorem Reg.show_sliceInfo (a b : Nat) : (Reg.sliceInfo a b).show = false := id rfl
@[simp] theorem Reg.box_sliceInfo (a b : Nat) : (Reg.sliceInfo a b).box = false := id rfl
@[simp] theorem Reg.side_sliceQuota (a b : Nat) : (Reg.sliceQuota a b).side = false := id rfl
@[simp] theorem Reg.show_sliceQuota (a b : Nat) : (Reg.sliceQuota a b).show = false := id rfl
@[simp] theorem Reg.box_sliceQuota (a b : Nat) : (Reg.sliceQuota a b).box = false := id rfl
@[simp] theorem Reg.side_sliceQueues (a b : Nat) : (Reg.sliceQueues a b).side = false := id rfl
@[simp] theorem Reg.show_sliceQueues (a b : Nat) : (Reg.sliceQueues a b).show = false := id rfl
@[simp] theorem Reg.box_sliceQueues (a b : Nat) : (Reg.sliceQueues a b).box = false := id rfl
@[simp] theorem Reg.side_sliceRegionBase (a b c : Nat) : (Reg.sliceRegionBase a b c).side = false := id rfl
@[simp] theorem Reg.show_sliceRegionBase (a b c : Nat) : (Reg.sliceRegionBase a b c).show = false := id rfl
@[simp] theorem Reg.box_sliceRegionBase (a b c : Nat) : (Reg.sliceRegionBase a b c).box = false := id rfl
@[simp] theorem Reg.side_sliceRegionLimit (a b c : Nat) : (Reg.sliceRegionLimit a b c).side = false := id rfl
@[simp] theorem Reg.show_sliceRegionLimit (a b c : Nat) : (Reg.sliceRegionLimit a b c).show = false := id rfl
@[simp] theorem Reg.box_sliceRegionLimit (a b c : Nat) : (Reg.sliceRegionLimit a b c).box = false := id rfl
@[simp] theorem Reg.side_dirtyCtl (a b : Nat) : (Reg.dirtyCtl a b).side = false := id rfl
@[simp] theorem Reg.show_dirtyCtl (a b : Nat) : (Reg.dirtyCtl a b).show = false := id rfl
@[simp] theorem Reg.box_dirtyCtl (a b : Nat) : (Reg.dirtyCtl a b).box = false := id rfl
@[simp] theorem Reg.side_dirtyStatus (a b : Nat) : (Reg.dirtyStatus a b).side = false := id rfl
@[simp] theorem Reg.show_dirtyStatus (a b : Nat) : (Reg.dirtyStatus a b).show = false := id rfl
@[simp] theorem Reg.box_dirtyStatus (a b : Nat) : (Reg.dirtyStatus a b).box = false := id rfl
@[simp] theorem Reg.side_dirtyWin (a b : Nat) : (Reg.dirtyWin a b).side = false := id rfl
@[simp] theorem Reg.show_dirtyWin (a b : Nat) : (Reg.dirtyWin a b).show = false := id rfl
@[simp] theorem Reg.box_dirtyWin (a b : Nat) : (Reg.dirtyWin a b).box = false := id rfl
@[simp] theorem Reg.side_dirtyBuf (a b c : Nat) : (Reg.dirtyBuf a b c).side = false := id rfl
@[simp] theorem Reg.show_dirtyBuf (a b c : Nat) : (Reg.dirtyBuf a b c).show = false := id rfl
@[simp] theorem Reg.box_dirtyBuf (a b c : Nat) : (Reg.dirtyBuf a b c).box = false := id rfl
@[simp] theorem Reg.side_ring (a b c : Nat) (e : RingReg) : (Reg.ring a b c e).side = false := id rfl
@[simp] theorem Reg.show_ring (a b c : Nat) (e : RingReg) : (Reg.ring a b c e).show = false := id rfl
@[simp] theorem Reg.box_ring (a b c : Nat) (e : RingReg) : (Reg.ring a b c e).box = false := id rfl

theorem Reg.ne_of_side {r r' : Reg} (h : r.side = false) (h' : r'.side = true) : r ≠ r' := fun e => by
  rw [e, h'] at h
  cases h

theorem Reg.ne_of_box {r r' : Reg} (h : r.box = false) (h' : r'.box = true) : r ≠ r' := fun e => by
  rw [e, h'] at h
  cases h

theorem Reg.ne_of_show {r r' : Reg} (h : r.show = false) (h' : r'.show = true) : r ≠ r' := fun e => by
  rw [e, h'] at h
  cases h

theorem Dev.reg_wr_show (d : Dev) {r r' : Reg} (hi lo n : Nat) (h : r'.show = false) (h' : r.show = true) :
    (d.wr r hi lo n).reg r' = d.reg r' := d.reg_wr_ne _ _ _ (Reg.ne_of_show h h')

theorem Dev.reg_wr_side (d : Dev) {r r' : Reg} (hi lo n : Nat) (h : r'.side = false) (h' : r.side = true) :
    (d.wr r hi lo n).reg r' = d.reg r' := d.reg_wr_ne _ _ _ (Reg.ne_of_side h h')

theorem Dev.reg_wr_box (d : Dev) {r r' : Reg} (hi lo n : Nat) (h : r'.box = false) (h' : r.box = true) :
    (d.wr r hi lo n).reg r' = d.reg r' := d.reg_wr_ne _ _ _ (Reg.ne_of_box h h')

theorem Dev.reg_report (d : Dev) (src cls detail : Nat) (r : Reg) (hs : r.side = false) :
    (d.report src cls detail).reg r = d.reg r := by
  simp only [Dev.report]; repeat' split
  · rfl
  · simp
  · exact d.reg_wr_side _ _ _ hs rfl
theorem Dev.rd_report (d : Dev) (src cls detail : Nat) (r : Reg) (hi lo : Nat) (hs : r.side = false) :
    (d.report src cls detail).rd r hi lo = d.rd r hi lo := Dev.rd_eq_of_reg (d.reg_report _ _ _ r hs) hi lo
theorem Dev.bitOf_report (d : Dev) (src cls detail : Nat) (r : Reg) (i' : Nat) (hs : r.side = false) :
    (d.report src cls detail).bitOf r i' = d.bitOf r i' := Dev.bitOf_eq_of_reg (d.reg_report _ _ _ r hs) i'

theorem Dev.reg_addCounter (d : Dev) (u i n : Nat) (r : Reg) (hs : r.side = false) :
    (d.addCounter u i n).reg r = d.reg r := by
  have h1 := Reg.ne_of_side hs (r' := .pmcCnt u i) rfl
  simp only [Dev.addCounter]; repeat' split
  · exact d.reg_setReg_ne _ h1
  · rw [Dev.reg_report _ _ _ _ _ hs, Dev.reg_wr_side _ _ _ _ hs rfl, d.reg_setReg_ne _ h1]
  · rw [Dev.reg_wr_side _ _ _ _ hs rfl, d.reg_setReg_ne _ h1]
theorem Dev.rd_addCounter (d : Dev) (u i n : Nat) (r : Reg) (hi lo : Nat) (hs : r.side = false) :
    (d.addCounter u i n).rd r hi lo = d.rd r hi lo := Dev.rd_eq_of_reg (d.reg_addCounter _ _ _ r hs) hi lo
theorem Dev.bitOf_addCounter (d : Dev) (u i n : Nat) (r : Reg) (i' : Nat) (hs : r.side = false) :
    (d.addCounter u i n).bitOf r i' = d.bitOf r i' := Dev.bitOf_eq_of_reg (d.reg_addCounter _ _ _ r hs) i'

theorem Dev.reg_count (d : Dev) (u ev n : Nat) (r : Reg) (hs : r.side = false) :
    (d.count u ev n).reg r = d.reg r := by
  unfold Dev.count; split
  · rfl
  · refine foldl_frame (fun d : Dev => d.reg r) _ _ ?_ d
    intro d i; dsimp only; repeat' split
    all_goals first | rfl | exact Dev.reg_addCounter _ _ _ _ _ hs
theorem Dev.rd_count (d : Dev) (u ev n : Nat) (r : Reg) (hi lo : Nat) (hs : r.side = false) :
    (d.count u ev n).rd r hi lo = d.rd r hi lo := Dev.rd_eq_of_reg (d.reg_count _ _ _ r hs) hi lo
theorem Dev.bitOf_count (d : Dev) (u ev n : Nat) (r : Reg) (i' : Nat) (hs : r.side = false) :
    (d.count u ev n).bitOf r i' = d.bitOf r i' := Dev.bitOf_eq_of_reg (d.reg_count _ _ _ r hs) i'

theorem Dev.reg_msix (d : Dev) (f v : Nat) (r : Reg) (hs : r.side = false) :
    (d.msix f v).reg r = d.reg r := by
  unfold Dev.msix; split
  · exact d.reg_wr_side _ _ _ hs rfl
  · simp
theorem Dev.rd_msix (d : Dev) (f v : Nat) (r : Reg) (hi lo : Nat) (hs : r.side = false) :
    (d.msix f v).rd r hi lo = d.rd r hi lo := Dev.rd_eq_of_reg (d.reg_msix _ _ r hs) hi lo
theorem Dev.bitOf_msix (d : Dev) (f v : Nat) (r : Reg) (i' : Nat) (hs : r.side = false) :
    (d.msix f v).bitOf r i' = d.bitOf r i' := Dev.bitOf_eq_of_reg (d.reg_msix _ _ r hs) i'

theorem Dev.reg_mgmtVector (d : Dev) (v : Nat) (r : Reg) (hs : r.side = false) :
    (d.mgmtVector v).reg r = d.reg r := foldl_frame (fun d : Dev => d.reg r) _ _ (fun d _ => d.reg_msix _ _ r hs) d
theorem Dev.rd_mgmtVector (d : Dev) (v : Nat) (r : Reg) (hi lo : Nat) (hs : r.side = false) :
    (d.mgmtVector v).rd r hi lo = d.rd r hi lo := Dev.rd_eq_of_reg (d.reg_mgmtVector _ r hs) hi lo
theorem Dev.bitOf_mgmtVector (d : Dev) (v : Nat) (r : Reg) (i' : Nat) (hs : r.side = false) :
    (d.mgmtVector v).bitOf r i' = d.bitOf r i' := Dev.bitOf_eq_of_reg (d.reg_mgmtVector _ r hs) i'

theorem Dev.reg_fabricEvent (d : Dev) (typ detail : Nat) (r : Reg) (hs : r.side = false) :
    (d.fabricEvent typ detail).reg r = d.reg r := by
  simp [Dev.fabricEvent, Dev.reg_mgmtVector _ _ _ hs]
theorem Dev.rd_fabricEvent (d : Dev) (typ detail : Nat) (r : Reg) (hi lo : Nat) (hs : r.side = false) :
    (d.fabricEvent typ detail).rd r hi lo = d.rd r hi lo := Dev.rd_eq_of_reg (d.reg_fabricEvent _ _ r hs) hi lo
theorem Dev.bitOf_fabricEvent (d : Dev) (typ detail : Nat) (r : Reg) (i' : Nat) (hs : r.side = false) :
    (d.fabricEvent typ detail).bitOf r i' = d.bitOf r i' := Dev.bitOf_eq_of_reg (d.reg_fabricEvent _ _ r hs) i'

theorem Dev.reg_showKeys (d : Dev) (r : Reg) (hw : r.show = false) :
    (d.showKeys).reg r = d.reg r := by
  rw [Dev.showKeys, Dev.reg_wr_show _ _ _ _ hw rfl, Dev.reg_wr_show _ _ _ _ hw rfl]
theorem Dev.rd_showKeys (d : Dev) (r : Reg) (hi lo : Nat) (hw : r.show = false) :
    (d.showKeys).rd r hi lo = d.rd r hi lo := Dev.rd_eq_of_reg (d.reg_showKeys r hw) hi lo
theorem Dev.bitOf_showKeys (d : Dev) (r : Reg) (i' : Nat) (hw : r.show = false) :
    (d.showKeys).bitOf r i' = d.bitOf r i' := Dev.bitOf_eq_of_reg (d.reg_showKeys r hw) i'

theorem Dev.reg_showCells (d : Dev) (r : Reg) (hw : r.show = false) :
    (d.showCells).reg r = d.reg r := by
  rw [Dev.showCells, Dev.reg_wr_show _ _ _ _ hw rfl]
theorem Dev.rd_showCells (d : Dev) (r : Reg) (hi lo : Nat) (hw : r.show = false) :
    (d.showCells).rd r hi lo = d.rd r hi lo := Dev.rd_eq_of_reg (d.reg_showCells r hw) hi lo
theorem Dev.bitOf_showCells (d : Dev) (r : Reg) (i' : Nat) (hw : r.show = false) :
    (d.showCells).bitOf r i' = d.bitOf r i' := Dev.bitOf_eq_of_reg (d.reg_showCells r hw) i'

theorem Dev.reg_showFaults (d : Dev) (r : Reg) (hw : r.show = false) :
    (d.showFaults).reg r = d.reg r := by
  dsimp only [Dev.showFaults]; split
  · rw [Dev.reg_wr_show _ _ _ _ hw rfl, Dev.reg_wr_show _ _ _ _ hw rfl]
  · rw [Dev.reg_emit, Dev.reg_wr_show _ _ _ _ hw rfl, Dev.reg_wr_show _ _ _ _ hw rfl, Dev.reg_wr_show _ _ _ _ hw rfl]
theorem Dev.rd_showFaults (d : Dev) (r : Reg) (hi lo : Nat) (hw : r.show = false) :
    (d.showFaults).rd r hi lo = d.rd r hi lo := Dev.rd_eq_of_reg (d.reg_showFaults r hw) hi lo
theorem Dev.bitOf_showFaults (d : Dev) (r : Reg) (i' : Nat) (hw : r.show = false) :
    (d.showFaults).bitOf r i' = d.bitOf r i' := Dev.bitOf_eq_of_reg (d.reg_showFaults r hw) i'

theorem Dev.reg_shown (d : Dev) (r : Reg) (hw : r.show = false) :
    (d.shown).reg r = d.reg r := by
  rw [Dev.shown, Dev.reg_showFaults _ _ hw, Dev.reg_showCells _ _ hw, Dev.reg_showKeys _ _ hw]
theorem Dev.rd_shown (d : Dev) (r : Reg) (hi lo : Nat) (hw : r.show = false) :
    (d.shown).rd r hi lo = d.rd r hi lo := Dev.rd_eq_of_reg (d.reg_shown r hw) hi lo
theorem Dev.bitOf_shown (d : Dev) (r : Reg) (i' : Nat) (hw : r.show = false) :
    (d.shown).bitOf r i' = d.bitOf r i' := Dev.bitOf_eq_of_reg (d.reg_shown r hw) i'

theorem Dev.reg_writePayload (d : Dev) (m : Nat) (l : List Byte) (r : Reg) (hb : r.box = false) :
    (d.writePayload m l).reg r = d.reg r := by
  unfold Dev.writePayload; apply foldl_frame (fun d : Dev => d.reg r); intro d _
  exact d.reg_setReg_ne _ (Reg.ne_of_box hb rfl)
theorem Dev.rd_writePayload (d : Dev) (m : Nat) (l : List Byte) (r : Reg) (hi lo : Nat) (hb : r.box = false) :
    (d.writePayload m l).rd r hi lo = d.rd r hi lo := Dev.rd_eq_of_reg (d.reg_writePayload _ _ r hb) hi lo
theorem Dev.bitOf_writePayload (d : Dev) (m : Nat) (l : List Byte) (r : Reg) (i' : Nat) (hb : r.box = false) :
    (d.writePayload m l).bitOf r i' = d.bitOf r i' := Dev.bitOf_eq_of_reg (d.reg_writePayload _ _ r hb) i'

theorem Dev.reg_mailboxIrq (d : Dev) (m w : Nat) (r : Reg) (hs : r.side = false) :
    (d.mailboxIrq m w).reg r = d.reg r := by
  unfold Dev.mailboxIrq; split
  · exact Dev.reg_mgmtVector _ _ _ hs
  · exact Dev.reg_msix _ _ _ _ hs
theorem Dev.rd_mailboxIrq (d : Dev) (m w : Nat) (r : Reg) (hi lo : Nat) (hs : r.side = false) :
    (d.mailboxIrq m w).rd r hi lo = d.rd r hi lo := Dev.rd_eq_of_reg (d.reg_mailboxIrq _ _ r hs) hi lo
theorem Dev.bitOf_mailboxIrq (d : Dev) (m w : Nat) (r : Reg) (i' : Nat) (hs : r.side = false) :
    (d.mailboxIrq m w).bitOf r i' = d.bitOf r i' := Dev.bitOf_eq_of_reg (d.reg_mailboxIrq _ _ r hs) i'

theorem Dev.reg_complete (d : Dev) (path : Path) (op rc v : Nat) (l : List Byte) (r : Reg) (hs : r.side = false) (hb : r.box = false) :
    (d.complete path op rc v l).reg r = d.reg r := by
  have h : ∀ m, ((((((((d.emit (.cmdDone path op rc v l)).count 36 0x9000 1).writePayload m l).wr (.mbxCmd m) 36 16 l.length).wr
      (.mbxStatus m) 47 32 rc).wr (.mbxStatus m) 63 48 v).wr (.mbxCtl m) 0 0 0)).reg r = d.reg r := fun m => by
    rw [Dev.reg_wr_box _ _ _ _ hb rfl, Dev.reg_wr_box _ _ _ _ hb rfl, Dev.reg_wr_box _ _ _ _ hb rfl,
      Dev.reg_wr_box _ _ _ _ hb rfl, Dev.reg_writePayload _ _ _ _ hb, Dev.reg_count _ _ _ _ _ hs, Dev.reg_emit]
  dsimp only [Dev.complete]; repeat' split
  · rw [Dev.reg_mailboxIrq _ _ _ _ hs, Dev.reg_mk, h]
  · rw [Dev.reg_mk, h]
  · rw [Dev.reg_mk, Dev.reg_count _ _ _ _ _ hs, Dev.reg_emit]
  · rw [Dev.reg_count _ _ _ _ _ hs, Dev.reg_emit]
theorem Dev.rd_complete (d : Dev) (path : Path) (op rc v : Nat) (l : List Byte) (r : Reg) (hi lo : Nat) (hs : r.side = false) (hb : r.box = false) :
    (d.complete path op rc v l).rd r hi lo = d.rd r hi lo := Dev.rd_eq_of_reg (d.reg_complete _ _ _ _ _ r hs hb) hi lo
theorem Dev.bitOf_complete (d : Dev) (path : Path) (op rc v : Nat) (l : List Byte) (r : Reg) (i' : Nat) (hs : r.side = false) (hb : r.box = false) :
    (d.complete path op rc v l).bitOf r i' = d.bitOf r i' := Dev.bitOf_eq_of_reg (d.reg_complete _ _ _ _ _ r hs hb) i'

theorem Dev.reg_finish (d : Dev) (path : Path) (op rc : Nat) (r : Reg) (hs : r.side = false) (hb : r.box = false) :
    (d.finish path op rc).reg r = d.reg r := Dev.reg_complete _ _ _ _ _ _ _ hs hb
theorem Dev.rd_finish (d : Dev) (path : Path) (op rc : Nat) (r : Reg) (hi lo : Nat) (hs : r.side = false) (hb : r.box = false) :
    (d.finish path op rc).rd r hi lo = d.rd r hi lo := Dev.rd_eq_of_reg (d.reg_finish _ _ _ r hs hb) hi lo
theorem Dev.bitOf_finish (d : Dev) (path : Path) (op rc : Nat) (r : Reg) (i' : Nat) (hs : r.side = false) (hb : r.box = false) :
    (d.finish path op rc).bitOf r i' = d.bitOf r i' := Dev.bitOf_eq_of_reg (d.reg_finish _ _ _ r hs hb) i'

theorem Dev.reg_bgStart (d : Dev) (path : Path) (op : Nat) (r : Reg) (hs : r.side = false) (hb : r.box = false) :
    (d.bgStart path op).reg r = d.reg r := by
  dsimp only [Dev.bgStart]; split
  · rw [Dev.reg_finish _ _ _ _ _ hs hb, Dev.reg_wr_box _ _ _ _ hb rfl, Dev.reg_wr_box _ _ _ _ hb rfl,
      Dev.reg_wr_box _ _ _ _ hb rfl, Dev.reg_mk]
  · rw [Dev.reg_finish _ _ _ _ _ hs hb, Dev.reg_mk]
theorem Dev.rd_bgStart (d : Dev) (path : Path) (op : Nat) (r : Reg) (hi lo : Nat) (hs : r.side = false) (hb : r.box = false) :
    (d.bgStart path op).rd r hi lo = d.rd r hi lo := Dev.rd_eq_of_reg (d.reg_bgStart _ _ r hs hb) hi lo
theorem Dev.bitOf_bgStart (d : Dev) (path : Path) (op : Nat) (r : Reg) (i' : Nat) (hs : r.side = false) (hb : r.box = false) :
    (d.bgStart path op).bitOf r i' = d.bitOf r i' := Dev.bitOf_eq_of_reg (d.reg_bgStart _ _ r hs hb) i'

theorem Dev.reg_bgEnd (d : Dev) (path : Path) (r : Reg) (hs : r.side = false) (hb : r.box = false) :
    (d.bgEnd path).reg r = d.reg r := by
  have h : ∀ (d : Dev) m a b c e, ((((((d.wr (.mbxBgStatus m) 63 48 a).wr (.mbxBgStatus m) 47 32 b).wr (.mbxBgStatus m) 22 16 c)).wr
      (.mbxBgStatus m) 15 0 e).wr (.mbxStatus m) 0 0 0).reg r = d.reg r := fun d m a b c e => by
    rw [Dev.reg_wr_box _ _ _ _ hb rfl, Dev.reg_wr_box _ _ _ _ hb rfl, Dev.reg_wr_box _ _ _ _ hb rfl,
      Dev.reg_wr_box _ _ _ _ hb rfl, Dev.reg_wr_box _ _ _ _ hb rfl]
  dsimp only [Dev.bgEnd]; repeat' split
  · rw [Dev.reg_mailboxIrq _ _ _ _ hs, h, Dev.reg_mk]
  · rw [h, Dev.reg_mk]
  · rfl
  · rfl
theorem Dev.rd_bgEnd (d : Dev) (path : Path) (r : Reg) (hi lo : Nat) (hs : r.side = false) (hb : r.box = false) :
    (d.bgEnd path).rd r hi lo = d.rd r hi lo := Dev.rd_eq_of_reg (d.reg_bgEnd _ r hs hb) hi lo
theorem Dev.bitOf_bgEnd (d : Dev) (path : Path) (r : Reg) (i' : Nat) (hs : r.side = false) (hb : r.box = false) :
    (d.bgEnd path).bitOf r i' = d.bitOf r i' := Dev.bitOf_eq_of_reg (d.reg_bgEnd _ r hs hb) i'

end Sys2Proof.Machine
end

