-- ==== Sys2Proof/Laws/Link.lean ====
section
/-! SUPPORT. What the shared operations of a Stitch link leave alone. -/

namespace Sys2Proof.Machine

/-- The record of a link after it is changed. -/
@[simp] theorem Dev.lrec_modLink_same (d : Dev) (s : Nat) (f : LinkRec → LinkRec) : (d.modLink s f).lrec s = f (d.lrec s) := by
  simp [Dev.modLink, Dev.lrec]

theorem Dev.lrec_modLink_ne (d : Dev) {s s' : Nat} (f : LinkRec → LinkRec) (h : s' ≠ s) : (d.modLink s f).lrec s' = d.lrec s' := by
  simp [Dev.modLink, Dev.lrec, tgetD_tset_ne _ _ _ h]

theorem Dev.lrec_congr {d d' : Dev} (h : d.link = d'.link) (s : Nat) : d.lrec s = d'.lrec s := by
  rw [Dev.lrec, Dev.lrec, h]

@[simp] theorem Dev.lrec_emit (d : Dev) (o : Out) (k : Nat) : (d.emit o).lrec k = d.lrec k := Dev.lrec_congr (by simp) k
@[simp] theorem Dev.lrec_setReg (d : Dev) (r : Reg) (v : Word) (k : Nat) : (d.setReg r v).lrec k = d.lrec k := Dev.lrec_congr (by simp) k
@[simp] theorem Dev.lrec_wr (d : Dev) (r : Reg) (hi lo n : Nat) (k : Nat) : (d.wr r hi lo n).lrec k = d.lrec k := Dev.lrec_congr (by simp) k
@[simp] theorem Dev.lrec_bumpWrap (d : Dev) (r : Reg) (hi lo n : Nat) (k : Nat) : (d.bumpWrap r hi lo n).lrec k = d.lrec k := Dev.lrec_congr (by simp) k
@[simp] theorem Dev.lrec_report (d : Dev) (src cls detail : Nat) (k : Nat) : (d.report src cls detail).lrec k = d.lrec k := Dev.lrec_congr (by simp) k
@[simp] theorem Dev.lrec_count (d : Dev) (u ev n : Nat) (k : Nat) : (d.count u ev n).lrec k = d.lrec k := Dev.lrec_congr (by simp) k
@[simp] theorem Dev.lrec_fabricEvent (d : Dev) (typ detail : Nat) (k : Nat) : (d.fabricEvent typ detail).lrec k = d.lrec k := Dev.lrec_congr (by simp) k
@[simp] theorem Dev.lrec_shown (d : Dev) (k : Nat) : (d.shown).lrec k = d.lrec k := Dev.lrec_congr (by simp) k
@[simp] theorem Dev.lrec_openNat (d : Dev) (k : Nat) : (d.openNat.2).lrec k = d.lrec k := Dev.lrec_congr (by simp) k
@[simp] theorem Dev.lrec_finish (d : Dev) (path : Path) (op rc : Nat) (k : Nat) : (d.finish path op rc).lrec k = d.lrec k := Dev.lrec_congr (by simp) k
@[simp] theorem Dev.lrec_mgmtVector (d : Dev) (v : Nat) (k : Nat) : (d.mgmtVector v).lrec k = d.lrec k := Dev.lrec_congr (by simp) k

@[simp] theorem Dev.modLink_regs (d : Dev) (s : Nat) (f : LinkRec → LinkRec) : (d.modLink s f).regs = d.regs := rfl
@[simp] theorem Dev.modLink_pool (d : Dev) (s : Nat) (f : LinkRec → LinkRec) : (d.modLink s f).pool = d.pool := rfl
@[simp] theorem Dev.modLink_dir (d : Dev) (s : Nat) (f : LinkRec → LinkRec) : (d.modLink s f).dir = d.dir := rfl
@[simp] theorem Dev.modLink_sw (d : Dev) (s : Nat) (f : LinkRec → LinkRec) : (d.modLink s f).sw = d.sw := rfl
@[simp] theorem Dev.modLink_svc (d : Dev) (s : Nat) (f : LinkRec → LinkRec) : (d.modLink s f).svc = d.svc := rfl
@[simp] theorem Dev.modLink_port (d : Dev) (s : Nat) (f : LinkRec → LinkRec) : (d.modLink s f).port = d.port := rfl
@[simp] theorem Dev.modLink_fab (d : Dev) (s : Nat) (f : LinkRec → LinkRec) : (d.modLink s f).fab = d.fab := rfl
@[simp] theorem Dev.modLink_mgmt (d : Dev) (s : Nat) (f : LinkRec → LinkRec) : (d.modLink s f).mgmt = d.mgmt := rfl
@[simp] theorem Dev.modLink_sec (d : Dev) (s : Nat) (f : LinkRec → LinkRec) : (d.modLink s f).sec = d.sec := rfl
@[simp] theorem Dev.modLink_pwr (d : Dev) (s : Nat) (f : LinkRec → LinkRec) : (d.modLink s f).pwr = d.pwr := rfl
@[simp] theorem Dev.modLink_flt (d : Dev) (s : Nat) (f : LinkRec → LinkRec) : (d.modLink s f).flt = d.flt := rfl
@[simp] theorem Dev.modLink_tel (d : Dev) (s : Nat) (f : LinkRec → LinkRec) : (d.modLink s f).tel = d.tel := rfl
@[simp] theorem Dev.modLink_out (d : Dev) (s : Nat) (f : LinkRec → LinkRec) : (d.modLink s f).out = d.out := rfl
@[simp] theorem Dev.modLink_free (d : Dev) (s : Nat) (f : LinkRec → LinkRec) : (d.modLink s f).free = d.free := rfl

@[simp] theorem Dev.reg_modLink (d : Dev) (s : Nat) (f : LinkRec → LinkRec) (r : Reg) :
    (d.modLink s f).reg r = d.reg r := rfl
@[simp] theorem Dev.rd_modLink (d : Dev) (s : Nat) (f : LinkRec → LinkRec) (r : Reg) (hi' lo' : Nat) :
    (d.modLink s f).rd r hi' lo' = d.rd r hi' lo' := Dev.rd_eq_of_reg (d.reg_modLink _ _ r) hi' lo'
@[simp] theorem Dev.bitOf_modLink (d : Dev) (s : Nat) (f : LinkRec → LinkRec) (r : Reg) (i' : Nat) :
    (d.modLink s f).bitOf r i' = d.bitOf r i' := Dev.bitOf_eq_of_reg (d.reg_modLink _ _ r) i'

@[simp] theorem Dev.sendBlock_regs (d : Dev) (s : Nat) (b : Word) : (d.sendBlock s b).regs = d.regs := rfl
@[simp] theorem Dev.sendBlock_pool (d : Dev) (s : Nat) (b : Word) : (d.sendBlock s b).pool = d.pool := rfl
@[simp] theorem Dev.sendBlock_dir (d : Dev) (s : Nat) (b : Word) : (d.sendBlock s b).dir = d.dir := rfl
@[simp] theorem Dev.sendBlock_sw (d : Dev) (s : Nat) (b : Word) : (d.sendBlock s b).sw = d.sw := rfl
@[simp] theorem Dev.sendBlock_svc (d : Dev) (s : Nat) (b : Word) : (d.sendBlock s b).svc = d.svc := rfl
@[simp] theorem Dev.sendBlock_port (d : Dev) (s : Nat) (b : Word) : (d.sendBlock s b).port = d.port := rfl
@[simp] theorem Dev.sendBlock_link (d : Dev) (s : Nat) (b : Word) : (d.sendBlock s b).link = d.link := rfl
@[simp] theorem Dev.sendBlock_fab (d : Dev) (s : Nat) (b : Word) : (d.sendBlock s b).fab = d.fab := rfl
@[simp] theorem Dev.sendBlock_mgmt (d : Dev) (s : Nat) (b : Word) : (d.sendBlock s b).mgmt = d.mgmt := rfl
@[simp] theorem Dev.sendBlock_sec (d : Dev) (s : Nat) (b : Word) : (d.sendBlock s b).sec = d.sec := rfl
@[simp] theorem Dev.sendBlock_pwr (d : Dev) (s : Nat) (b : Word) : (d.sendBlock s b).pwr = d.pwr := rfl
@[simp] theorem Dev.sendBlock_flt (d : Dev) (s : Nat) (b : Word) : (d.sendBlock s b).flt = d.flt := rfl
@[simp] theorem Dev.sendBlock_tel (d : Dev) (s : Nat) (b : Word) : (d.sendBlock s b).tel = d.tel := rfl
@[simp] theorem Dev.sendBlock_free (d : Dev) (s : Nat) (b : Word) : (d.sendBlock s b).free = d.free := rfl

@[simp] theorem Dev.reg_sendBlock (d : Dev) (s : Nat) (b : Word) (r : Reg) :
    (d.sendBlock s b).reg r = d.reg r := rfl
@[simp] theorem Dev.rd_sendBlock (d : Dev) (s : Nat) (b : Word) (r : Reg) (hi' lo' : Nat) :
    (d.sendBlock s b).rd r hi' lo' = d.rd r hi' lo' := Dev.rd_eq_of_reg (d.reg_sendBlock _ _ r) hi' lo'
@[simp] theorem Dev.bitOf_sendBlock (d : Dev) (s : Nat) (b : Word) (r : Reg) (i' : Nat) :
    (d.sendBlock s b).bitOf r i' = d.bitOf r i' := Dev.bitOf_eq_of_reg (d.reg_sendBlock _ _ r) i'

@[simp] theorem Dev.lrec_sendBlock (d : Dev) (s : Nat) (b : Word) (k : Nat) : (d.sendBlock s b).lrec k = d.lrec k := Dev.lrec_congr (by simp) k

@[simp] theorem Dev.setLive_pool (d : Dev) (s : Nat) (l : Bool) : (d.setLive s l).pool = d.pool := by
  unfold Dev.setLive; apply foldl_frame Dev.pool; intros; split <;> rfl
@[simp] theorem Dev.setLive_dir (d : Dev) (s : Nat) (l : Bool) : (d.setLive s l).dir = d.dir := by
  unfold Dev.setLive; apply foldl_frame Dev.dir; intros; split <;> rfl
@[simp] theorem Dev.setLive_sw (d : Dev) (s : Nat) (l : Bool) : (d.setLive s l).sw = d.sw := by
  unfold Dev.setLive; apply foldl_frame Dev.sw; intros; split <;> rfl
@[simp] theorem Dev.setLive_svc (d : Dev) (s : Nat) (l : Bool) : (d.setLive s l).svc = d.svc := by
  unfold Dev.setLive; apply foldl_frame Dev.svc; intros; split <;> rfl
@[simp] theorem Dev.setLive_port (d : Dev) (s : Nat) (l : Bool) : (d.setLive s l).port = d.port := by
  unfold Dev.setLive; apply foldl_frame Dev.port; intros; split <;> rfl
@[simp] theorem Dev.setLive_link (d : Dev) (s : Nat) (l : Bool) : (d.setLive s l).link = d.link := by
  unfold Dev.setLive; apply foldl_frame Dev.link; intros; split <;> rfl
@[simp] theorem Dev.setLive_fab (d : Dev) (s : Nat) (l : Bool) : (d.setLive s l).fab = d.fab := by
  unfold Dev.setLive; apply foldl_frame Dev.fab; intros; split <;> rfl
@[simp] theorem Dev.setLive_mgmt (d : Dev) (s : Nat) (l : Bool) : (d.setLive s l).mgmt = d.mgmt := by
  unfold Dev.setLive; apply foldl_frame Dev.mgmt; intros; split <;> rfl
@[simp] theorem Dev.setLive_sec (d : Dev) (s : Nat) (l : Bool) : (d.setLive s l).sec = d.sec := by
  unfold Dev.setLive; apply foldl_frame Dev.sec; intros; split <;> rfl
@[simp] theorem Dev.setLive_pwr (d : Dev) (s : Nat) (l : Bool) : (d.setLive s l).pwr = d.pwr := by
  unfold Dev.setLive; apply foldl_frame Dev.pwr; intros; split <;> rfl
@[simp] theorem Dev.setLive_flt (d : Dev) (s : Nat) (l : Bool) : (d.setLive s l).flt = d.flt := by
  unfold Dev.setLive; apply foldl_frame Dev.flt; intros; split <;> rfl
@[simp] theorem Dev.setLive_tel (d : Dev) (s : Nat) (l : Bool) : (d.setLive s l).tel = d.tel := by
  unfold Dev.setLive; apply foldl_frame Dev.tel; intros; split <;> rfl
@[simp] theorem Dev.setLive_out (d : Dev) (s : Nat) (l : Bool) : (d.setLive s l).out = d.out := by
  unfold Dev.setLive; apply foldl_frame Dev.out; intros; split <;> rfl
@[simp] theorem Dev.setLive_free (d : Dev) (s : Nat) (l : Bool) : (d.setLive s l).free = d.free := by
  unfold Dev.setLive; apply foldl_frame Dev.free; intros; split <;> rfl

theorem Dev.reg_setLive (d : Dev) (s : Nat) (l : Bool) (r : Reg) (h : ∀ n, r ≠ .nbr n) :
    (d.setLive s l).reg r = d.reg r := by
  unfold Dev.setLive; apply foldl_frame (fun d : Dev => d.reg r); intro d n; split
  · exact d.reg_wr_ne _ _ _ (h n)
  · rfl
theorem Dev.rd_setLive (d : Dev) (s : Nat) (l : Bool) (r : Reg) (hi' lo' : Nat) (h : ∀ n, r ≠ .nbr n) :
    (d.setLive s l).rd r hi' lo' = d.rd r hi' lo' := Dev.rd_eq_of_reg (d.reg_setLive _ _ r h) hi' lo'
theorem Dev.bitOf_setLive (d : Dev) (s : Nat) (l : Bool) (r : Reg) (i' : Nat) (h : ∀ n, r ≠ .nbr n) :
    (d.setLive s l).bitOf r i' = d.bitOf r i' := Dev.bitOf_eq_of_reg (d.reg_setLive _ _ r h) i'

@[simp] theorem Dev.lrec_setLive (d : Dev) (s : Nat) (l : Bool) (k : Nat) : (d.setLive s l).lrec k = d.lrec k := Dev.lrec_congr (by simp) k

@[simp] theorem Dev.enterLink_pool (d : Dev) (s st : Nat) : (d.enterLink s st).pool = d.pool := by simp [Dev.enterLink]
@[simp] theorem Dev.enterLink_dir (d : Dev) (s st : Nat) : (d.enterLink s st).dir = d.dir := by simp [Dev.enterLink]
@[simp] theorem Dev.enterLink_sw (d : Dev) (s st : Nat) : (d.enterLink s st).sw = d.sw := by simp [Dev.enterLink]
@[simp] theorem Dev.enterLink_svc (d : Dev) (s st : Nat) : (d.enterLink s st).svc = d.svc := by simp [Dev.enterLink]
@[simp] theorem Dev.enterLink_port (d : Dev) (s st : Nat) : (d.enterLink s st).port = d.port := by simp [Dev.enterLink]
@[simp] theorem Dev.enterLink_link (d : Dev) (s st : Nat) : (d.enterLink s st).link = d.link := by simp [Dev.enterLink]
@[simp] theorem Dev.enterLink_fab (d : Dev) (s st : Nat) : (d.enterLink s st).fab = d.fab := by simp [Dev.enterLink]
@[simp] theorem Dev.enterLink_mgmt (d : Dev) (s st : Nat) : (d.enterLink s st).mgmt = d.mgmt := by simp [Dev.enterLink]
@[simp] theorem Dev.enterLink_sec (d : Dev) (s st : Nat) : (d.enterLink s st).sec = d.sec := by simp [Dev.enterLink]
@[simp] theorem Dev.enterLink_pwr (d : Dev) (s st : Nat) : (d.enterLink s st).pwr = d.pwr := by simp [Dev.enterLink]
@[simp] theorem Dev.enterLink_flt (d : Dev) (s st : Nat) : (d.enterLink s st).flt = d.flt := by simp [Dev.enterLink]
@[simp] theorem Dev.enterLink_tel (d : Dev) (s st : Nat) : (d.enterLink s st).tel = d.tel := by simp [Dev.enterLink]
@[simp] theorem Dev.enterLink_out (d : Dev) (s st : Nat) : (d.enterLink s st).out = d.out := by simp [Dev.enterLink]
@[simp] theorem Dev.enterLink_free (d : Dev) (s st : Nat) : (d.enterLink s st).free = d.free := by simp [Dev.enterLink]

theorem Dev.reg_enterLink (d : Dev) (s st : Nat) (r : Reg) (h : ∀ n, r ≠ .nbr n) (h' : r ≠ .stlStatus s) :
    (d.enterLink s st).reg r = d.reg r := by
  rw [Dev.enterLink, Dev.reg_setLive _ _ _ _ h, Dev.reg_wr_ne _ _ _ _ h']
theorem Dev.rd_enterLink (d : Dev) (s st : Nat) (r : Reg) (hi' lo' : Nat) (h : ∀ n, r ≠ .nbr n) (h' : r ≠ .stlStatus s) :
    (d.enterLink s st).rd r hi' lo' = d.rd r hi' lo' := Dev.rd_eq_of_reg (d.reg_enterLink _ _ r h h') hi' lo'
theorem Dev.bitOf_enterLink (d : Dev) (s st : Nat) (r : Reg) (i' : Nat) (h : ∀ n, r ≠ .nbr n) (h' : r ≠ .stlStatus s) :
    (d.enterLink s st).bitOf r i' = d.bitOf r i' := Dev.bitOf_eq_of_reg (d.reg_enterLink _ _ r h h') i'

@[simp] theorem Dev.lrec_enterLink (d : Dev) (s st : Nat) (k : Nat) : (d.enterLink s st).lrec k = d.lrec k := Dev.lrec_congr (by simp) k

@[simp] theorem Dev.setReason_pool (d : Dev) (s st : Nat) : (d.setReason s st).pool = d.pool := rfl
@[simp] theorem Dev.setReason_dir (d : Dev) (s st : Nat) : (d.setReason s st).dir = d.dir := rfl
@[simp] theorem Dev.setReason_sw (d : Dev) (s st : Nat) : (d.setReason s st).sw = d.sw := rfl
@[simp] theorem Dev.setReason_svc (d : Dev) (s st : Nat) : (d.setReason s st).svc = d.svc := rfl
@[simp] theorem Dev.setReason_port (d : Dev) (s st : Nat) : (d.setReason s st).port = d.port := rfl
@[simp] theorem Dev.setReason_link (d : Dev) (s st : Nat) : (d.setReason s st).link = d.link := rfl
@[simp] theorem Dev.setReason_fab (d : Dev) (s st : Nat) : (d.setReason s st).fab = d.fab := rfl
@[simp] theorem Dev.setReason_mgmt (d : Dev) (s st : Nat) : (d.setReason s st).mgmt = d.mgmt := rfl
@[simp] theorem Dev.setReason_sec (d : Dev) (s st : Nat) : (d.setReason s st).sec = d.sec := rfl
@[simp] theorem Dev.setReason_pwr (d : Dev) (s st : Nat) : (d.setReason s st).pwr = d.pwr := rfl
@[simp] theorem Dev.setReason_flt (d : Dev) (s st : Nat) : (d.setReason s st).flt = d.flt := rfl
@[simp] theorem Dev.setReason_tel (d : Dev) (s st : Nat) : (d.setReason s st).tel = d.tel := rfl
@[simp] theorem Dev.setReason_out (d : Dev) (s st : Nat) : (d.setReason s st).out = d.out := rfl
@[simp] theorem Dev.setReason_free (d : Dev) (s st : Nat) : (d.setReason s st).free = d.free := rfl

theorem Dev.reg_setReason (d : Dev) (s st : Nat) (r : Reg) (h : r ≠ .stlStatus s) :
    (d.setReason s st).reg r = d.reg r := by
  rw [Dev.setReason, Dev.reg_wr_ne _ _ _ _ h]
theorem Dev.rd_setReason (d : Dev) (s st : Nat) (r : Reg) (hi' lo' : Nat) (h : r ≠ .stlStatus s) :
    (d.setReason s st).rd r hi' lo' = d.rd r hi' lo' := Dev.rd_eq_of_reg (d.reg_setReason _ _ r h) hi' lo'
theorem Dev.bitOf_setReason (d : Dev) (s st : Nat) (r : Reg) (i' : Nat) (h : r ≠ .stlStatus s) :
    (d.setReason s st).bitOf r i' = d.bitOf r i' := Dev.bitOf_eq_of_reg (d.reg_setReason _ _ r h) i'

@[simp] theorem Dev.lrec_setReason (d : Dev) (s st : Nat) (k : Nat) : (d.setReason s st).lrec k = d.lrec k := Dev.lrec_congr (by simp) k

@[simp] theorem Dev.setEq_pool (d : Dev) (s lane : Nat) (e : Nat × Nat × Nat) : (d.setEq s lane e).pool = d.pool := rfl
@[simp] theorem Dev.setEq_dir (d : Dev) (s lane : Nat) (e : Nat × Nat × Nat) : (d.setEq s lane e).dir = d.dir := rfl
@[simp] theorem Dev.setEq_sw (d : Dev) (s lane : Nat) (e : Nat × Nat × Nat) : (d.setEq s lane e).sw = d.sw := rfl
@[simp] theorem Dev.setEq_svc (d : Dev) (s lane : Nat) (e : Nat × Nat × Nat) : (d.setEq s lane e).svc = d.svc := rfl
@[simp] theorem Dev.setEq_port (d : Dev) (s lane : Nat) (e : Nat × Nat × Nat) : (d.setEq s lane e).port = d.port := rfl
@[simp] theorem Dev.setEq_link (d : Dev) (s lane : Nat) (e : Nat × Nat × Nat) : (d.setEq s lane e).link = d.link := rfl
@[simp] theorem Dev.setEq_fab (d : Dev) (s lane : Nat) (e : Nat × Nat × Nat) : (d.setEq s lane e).fab = d.fab := rfl
@[simp] theorem Dev.setEq_mgmt (d : Dev) (s lane : Nat) (e : Nat × Nat × Nat) : (d.setEq s lane e).mgmt = d.mgmt := rfl
@[simp] theorem Dev.setEq_sec (d : Dev) (s lane : Nat) (e : Nat × Nat × Nat) : (d.setEq s lane e).sec = d.sec := rfl
@[simp] theorem Dev.setEq_pwr (d : Dev) (s lane : Nat) (e : Nat × Nat × Nat) : (d.setEq s lane e).pwr = d.pwr := rfl
@[simp] theorem Dev.setEq_flt (d : Dev) (s lane : Nat) (e : Nat × Nat × Nat) : (d.setEq s lane e).flt = d.flt := rfl
@[simp] theorem Dev.setEq_tel (d : Dev) (s lane : Nat) (e : Nat × Nat × Nat) : (d.setEq s lane e).tel = d.tel := rfl
@[simp] theorem Dev.setEq_out (d : Dev) (s lane : Nat) (e : Nat × Nat × Nat) : (d.setEq s lane e).out = d.out := rfl
@[simp] theorem Dev.setEq_free (d : Dev) (s lane : Nat) (e : Nat × Nat × Nat) : (d.setEq s lane e).free = d.free := rfl

theorem Dev.reg_setEq (d : Dev) (s lane : Nat) (e : Nat × Nat × Nat) (r : Reg) (h : ∀ i, r ≠ .txeq s i) :
    (d.setEq s lane e).reg r = d.reg r := d.reg_setReg_ne _ (h lane)
theorem Dev.rd_setEq (d : Dev) (s lane : Nat) (e : Nat × Nat × Nat) (r : Reg) (hi' lo' : Nat) (h : ∀ i, r ≠ .txeq s i) :
    (d.setEq s lane e).rd r hi' lo' = d.rd r hi' lo' := Dev.rd_eq_of_reg (d.reg_setEq _ _ _ r h) hi' lo'
theorem Dev.bitOf_setEq (d : Dev) (s lane : Nat) (e : Nat × Nat × Nat) (r : Reg) (i' : Nat) (h : ∀ i, r ≠ .txeq s i) :
    (d.setEq s lane e).bitOf r i' = d.bitOf r i' := Dev.bitOf_eq_of_reg (d.reg_setEq _ _ _ r h) i'

@[simp] theorem Dev.lrec_setEq (d : Dev) (s lane : Nat) (e : Nat × Nat × Nat) (k : Nat) : (d.setEq s lane e).lrec k = d.lrec k := Dev.lrec_congr (by simp) k

@[simp] theorem Dev.showShed_pool (d : Dev) (s : Nat) : (d.showShed s).pool = d.pool := by
  unfold Dev.showShed; exact (foldl_frame Dev.pool _ _ (by intros; rfl) _).trans rfl
@[simp] theorem Dev.showShed_dir (d : Dev) (s : Nat) : (d.showShed s).dir = d.dir := by
  unfold Dev.showShed; exact (foldl_frame Dev.dir _ _ (by intros; rfl) _).trans rfl
@[simp] theorem Dev.showShed_sw (d : Dev) (s : Nat) : (d.showShed s).sw = d.sw := by
  unfold Dev.showShed; exact (foldl_frame Dev.sw _ _ (by intros; rfl) _).trans rfl
@[simp] theorem Dev.showShed_svc (d : Dev) (s : Nat) : (d.showShed s).svc = d.svc := by
  unfold Dev.showShed; exact (foldl_frame Dev.svc _ _ (by intros; rfl) _).trans rfl
@[simp] theorem Dev.showShed_port (d : Dev) (s : Nat) : (d.showShed s).port = d.port := by
  unfold Dev.showShed; exact (foldl_frame Dev.port _ _ (by intros; rfl) _).trans rfl
@[simp] theorem Dev.showShed_link (d : Dev) (s : Nat) : (d.showShed s).link = d.link := by
  unfold Dev.showShed; exact (foldl_frame Dev.link _ _ (by intros; rfl) _).trans rfl
@[simp] theorem Dev.showShed_fab (d : Dev) (s : Nat) : (d.showShed s).fab = d.fab := by
  unfold Dev.showShed; exact (foldl_frame Dev.fab _ _ (by intros; rfl) _).trans rfl
@[simp] theorem Dev.showShed_mgmt (d : Dev) (s : Nat) : (d.showShed s).mgmt = d.mgmt := by
  unfold Dev.showShed; exact (foldl_frame Dev.mgmt _ _ (by intros; rfl) _).trans rfl
@[simp] theorem Dev.showShed_sec (d : Dev) (s : Nat) : (d.showShed s).sec = d.sec := by
  unfold Dev.showShed; exact (foldl_frame Dev.sec _ _ (by intros; rfl) _).trans rfl
@[simp] theorem Dev.showShed_pwr (d : Dev) (s : Nat) : (d.showShed s).pwr = d.pwr := by
  unfold Dev.showShed; exact (foldl_frame Dev.pwr _ _ (by intros; rfl) _).trans rfl
@[simp] theorem Dev.showShed_flt (d : Dev) (s : Nat) : (d.showShed s).flt = d.flt := by
  unfold Dev.showShed; exact (foldl_frame Dev.flt _ _ (by intros; rfl) _).trans rfl
@[simp] theorem Dev.showShed_tel (d : Dev) (s : Nat) : (d.showShed s).tel = d.tel := by
  unfold Dev.showShed; exact (foldl_frame Dev.tel _ _ (by intros; rfl) _).trans rfl
@[simp] theorem Dev.showShed_out (d : Dev) (s : Nat) : (d.showShed s).out = d.out := by
  unfold Dev.showShed; exact (foldl_frame Dev.out _ _ (by intros; rfl) _).trans rfl
@[simp] theorem Dev.showShed_free (d : Dev) (s : Nat) : (d.showShed s).free = d.free := by
  unfold Dev.showShed; exact (foldl_frame Dev.free _ _ (by intros; rfl) _).trans rfl

theorem Dev.reg_showShed (d : Dev) (s : Nat) (r : Reg) (h : ∀ i, r ≠ .laneStatus s i) (h' : r ≠ .widthCtl s) :
    (d.showShed s).reg r = d.reg r := by
  unfold Dev.showShed
  exact (foldl_frame (fun d : Dev => d.reg r) _ _ (fun d i => d.reg_wr_ne _ _ _ (h i)) _).trans (Dev.reg_wr_ne _ _ _ _ h')
theorem Dev.rd_showShed (d : Dev) (s : Nat) (r : Reg) (hi' lo' : Nat) (h : ∀ i, r ≠ .laneStatus s i) (h' : r ≠ .widthCtl s) :
    (d.showShed s).rd r hi' lo' = d.rd r hi' lo' := Dev.rd_eq_of_reg (d.reg_showShed _ r h h') hi' lo'
theorem Dev.bitOf_showShed (d : Dev) (s : Nat) (r : Reg) (i' : Nat) (h : ∀ i, r ≠ .laneStatus s i) (h' : r ≠ .widthCtl s) :
    (d.showShed s).bitOf r i' = d.bitOf r i' := Dev.bitOf_eq_of_reg (d.reg_showShed _ r h h') i'

@[simp] theorem Dev.lrec_showShed (d : Dev) (s : Nat) (k : Nat) : (d.showShed s).lrec k = d.lrec k := Dev.lrec_congr (by simp) k

@[simp] theorem Dev.showEntries_pool (d : Dev) (s : Nat) : (d.showEntries s).pool = d.pool := rfl
@[simp] theorem Dev.showEntries_dir (d : Dev) (s : Nat) : (d.showEntries s).dir = d.dir := rfl
@[simp] theorem Dev.showEntries_sw (d : Dev) (s : Nat) : (d.showEntries s).sw = d.sw := rfl
@[simp] theorem Dev.showEntries_svc (d : Dev) (s : Nat) : (d.showEntries s).svc = d.svc := rfl
@[simp] theorem Dev.showEntries_port (d : Dev) (s : Nat) : (d.showEntries s).port = d.port := rfl
@[simp] theorem Dev.showEntries_link (d : Dev) (s : Nat) : (d.showEntries s).link = d.link := rfl
@[simp] theorem Dev.showEntries_fab (d : Dev) (s : Nat) : (d.showEntries s).fab = d.fab := rfl
@[simp] theorem Dev.showEntries_mgmt (d : Dev) (s : Nat) : (d.showEntries s).mgmt = d.mgmt := rfl
@[simp] theorem Dev.showEntries_sec (d : Dev) (s : Nat) : (d.showEntries s).sec = d.sec := rfl
@[simp] theorem Dev.showEntries_pwr (d : Dev) (s : Nat) : (d.showEntries s).pwr = d.pwr := rfl
@[simp] theorem Dev.showEntries_flt (d : Dev) (s : Nat) : (d.showEntries s).flt = d.flt := rfl
@[simp] theorem Dev.showEntries_tel (d : Dev) (s : Nat) : (d.showEntries s).tel = d.tel := rfl
@[simp] theorem Dev.showEntries_out (d : Dev) (s : Nat) : (d.showEntries s).out = d.out := rfl
@[simp] theorem Dev.showEntries_free (d : Dev) (s : Nat) : (d.showEntries s).free = d.free := rfl

theorem Dev.reg_showEntries (d : Dev) (s : Nat) (r : Reg) (h : r ≠ .seqStatus s) :
    (d.showEntries s).reg r = d.reg r := by
  unfold Dev.showEntries; dsimp only
  rw [Dev.reg_wr_ne _ _ _ _ h, Dev.reg_wr_ne _ _ _ _ h, Dev.reg_wr_ne _ _ _ _ h]
theorem Dev.rd_showEntries (d : Dev) (s : Nat) (r : Reg) (hi' lo' : Nat) (h : r ≠ .seqStatus s) :
    (d.showEntries s).rd r hi' lo' = d.rd r hi' lo' := Dev.rd_eq_of_reg (d.reg_showEntries _ r h) hi' lo'
theorem Dev.bitOf_showEntries (d : Dev) (s : Nat) (r : Reg) (i' : Nat) (h : r ≠ .seqStatus s) :
    (d.showEntries s).bitOf r i' = d.bitOf r i' := Dev.bitOf_eq_of_reg (d.reg_showEntries _ r h) i'

@[simp] theorem Dev.lrec_showEntries (d : Dev) (s : Nat) (k : Nat) : (d.showEntries s).lrec k = d.lrec k := Dev.lrec_congr (by simp) k

@[simp] theorem Dev.setEntries_pool (d : Dev) (s : Nat) (es : List Entry) : (d.setEntries s es).pool = d.pool := by simp [Dev.setEntries]
@[simp] theorem Dev.setEntries_dir (d : Dev) (s : Nat) (es : List Entry) : (d.setEntries s es).dir = d.dir := by simp [Dev.setEntries]
@[simp] theorem Dev.setEntries_sw (d : Dev) (s : Nat) (es : List Entry) : (d.setEntries s es).sw = d.sw := by simp [Dev.setEntries]
@[simp] theorem Dev.setEntries_svc (d : Dev) (s : Nat) (es : List Entry) : (d.setEntries s es).svc = d.svc := by simp [Dev.setEntries]
@[simp] theorem Dev.setEntries_port (d : Dev) (s : Nat) (es : List Entry) : (d.setEntries s es).port = d.port := by simp [Dev.setEntries]
@[simp] theorem Dev.setEntries_fab (d : Dev) (s : Nat) (es : List Entry) : (d.setEntries s es).fab = d.fab := by simp [Dev.setEntries]
@[simp] theorem Dev.setEntries_mgmt (d : Dev) (s : Nat) (es : List Entry) : (d.setEntries s es).mgmt = d.mgmt := by simp [Dev.setEntries]
@[simp] theorem Dev.setEntries_sec (d : Dev) (s : Nat) (es : List Entry) : (d.setEntries s es).sec = d.sec := by simp [Dev.setEntries]
@[simp] theorem Dev.setEntries_pwr (d : Dev) (s : Nat) (es : List Entry) : (d.setEntries s es).pwr = d.pwr := by simp [Dev.setEntries]
@[simp] theorem Dev.setEntries_flt (d : Dev) (s : Nat) (es : List Entry) : (d.setEntries s es).flt = d.flt := by simp [Dev.setEntries]
@[simp] theorem Dev.setEntries_tel (d : Dev) (s : Nat) (es : List Entry) : (d.setEntries s es).tel = d.tel := by simp [Dev.setEntries]
@[simp] theorem Dev.setEntries_out (d : Dev) (s : Nat) (es : List Entry) : (d.setEntries s es).out = d.out := by simp [Dev.setEntries]
@[simp] theorem Dev.setEntries_free (d : Dev) (s : Nat) (es : List Entry) : (d.setEntries s es).free = d.free := by simp [Dev.setEntries]

theorem Dev.reg_setEntries (d : Dev) (s : Nat) (es : List Entry) (r : Reg) (h : r ≠ .seqStatus s) :
    (d.setEntries s es).reg r = d.reg r := by
  rw [Dev.setEntries, Dev.reg_showEntries _ _ _ h, Dev.reg_modLink]
theorem Dev.rd_setEntries (d : Dev) (s : Nat) (es : List Entry) (r : Reg) (hi' lo' : Nat) (h : r ≠ .seqStatus s) :
    (d.setEntries s es).rd r hi' lo' = d.rd r hi' lo' := Dev.rd_eq_of_reg (d.reg_setEntries _ _ r h) hi' lo'
theorem Dev.bitOf_setEntries (d : Dev) (s : Nat) (es : List Entry) (r : Reg) (i' : Nat) (h : r ≠ .seqStatus s) :
    (d.setEntries s es).bitOf r i' = d.bitOf r i' := Dev.bitOf_eq_of_reg (d.reg_setEntries _ _ r h) i'

@[simp] theorem Dev.sendCredit_regs (d : Dev) (s : Nat) : (d.sendCredit s).regs = d.regs := by simp [Dev.sendCredit]
@[simp] theorem Dev.sendCredit_pool (d : Dev) (s : Nat) : (d.sendCredit s).pool = d.pool := by simp [Dev.sendCredit]
@[simp] theorem Dev.sendCredit_dir (d : Dev) (s : Nat) : (d.sendCredit s).dir = d.dir := by simp [Dev.sendCredit]
@[simp] theorem Dev.sendCredit_sw (d : Dev) (s : Nat) : (d.sendCredit s).sw = d.sw := by simp [Dev.sendCredit]
@[simp] theorem Dev.sendCredit_svc (d : Dev) (s : Nat) : (d.sendCredit s).svc = d.svc := by simp [Dev.sendCredit]
@[simp] theorem Dev.sendCredit_port (d : Dev) (s : Nat) : (d.sendCredit s).port = d.port := by simp [Dev.sendCredit]
@[simp] theorem Dev.sendCredit_fab (d : Dev) (s : Nat) : (d.sendCredit s).fab = d.fab := by simp [Dev.sendCredit]
@[simp] theorem Dev.sendCredit_mgmt (d : Dev) (s : Nat) : (d.sendCredit s).mgmt = d.mgmt := by simp [Dev.sendCredit]
@[simp] theorem Dev.sendCredit_sec (d : Dev) (s : Nat) : (d.sendCredit s).sec = d.sec := by simp [Dev.sendCredit]
@[simp] theorem Dev.sendCredit_pwr (d : Dev) (s : Nat) : (d.sendCredit s).pwr = d.pwr := by simp [Dev.sendCredit]
@[simp] theorem Dev.sendCredit_flt (d : Dev) (s : Nat) : (d.sendCredit s).flt = d.flt := by simp [Dev.sendCredit]
@[simp] theorem Dev.sendCredit_tel (d : Dev) (s : Nat) : (d.sendCredit s).tel = d.tel := by simp [Dev.sendCredit]
@[simp] theorem Dev.sendCredit_free (d : Dev) (s : Nat) : (d.sendCredit s).free = d.free := by simp [Dev.sendCredit]

@[simp] theorem Dev.reg_sendCredit (d : Dev) (s : Nat) (r : Reg) :
    (d.sendCredit s).reg r = d.reg r := by
  rw [Dev.sendCredit, Dev.reg_sendBlock, Dev.reg_modLink]
@[simp] theorem Dev.rd_sendCredit (d : Dev) (s : Nat) (r : Reg) (hi' lo' : Nat) :
    (d.sendCredit s).rd r hi' lo' = d.rd r hi' lo' := Dev.rd_eq_of_reg (d.reg_sendCredit _ r) hi' lo'
@[simp] theorem Dev.bitOf_sendCredit (d : Dev) (s : Nat) (r : Reg) (i' : Nat) :
    (d.sendCredit s).bitOf r i' = d.bitOf r i' := Dev.bitOf_eq_of_reg (d.reg_sendCredit _ r) i'

@[simp] theorem Dev.setSlotState_pool (d : Dev) (n st : Nat) : (d.setSlotState n st).pool = d.pool := by
  unfold Dev.setSlotState; split <;> simp
@[simp] theorem Dev.setSlotState_dir (d : Dev) (n st : Nat) : (d.setSlotState n st).dir = d.dir := by
  unfold Dev.setSlotState; split <;> simp
@[simp] theorem Dev.setSlotState_sw (d : Dev) (n st : Nat) : (d.setSlotState n st).sw = d.sw := by
  unfold Dev.setSlotState; split <;> simp
@[simp] theorem Dev.setSlotState_svc (d : Dev) (n st : Nat) : (d.setSlotState n st).svc = d.svc := by
  unfold Dev.setSlotState; split <;> simp
@[simp] theorem Dev.setSlotState_port (d : Dev) (n st : Nat) : (d.setSlotState n st).port = d.port := by
  unfold Dev.setSlotState; split <;> simp
@[simp] theorem Dev.setSlotState_link (d : Dev) (n st : Nat) : (d.setSlotState n st).link = d.link := by
  unfold Dev.setSlotState; split <;> simp
@[simp] theorem Dev.setSlotState_mgmt (d : Dev) (n st : Nat) : (d.setSlotState n st).mgmt = d.mgmt := by
  unfold Dev.setSlotState; split <;> simp
@[simp] theorem Dev.setSlotState_sec (d : Dev) (n st : Nat) : (d.setSlotState n st).sec = d.sec := by
  unfold Dev.setSlotState; split <;> simp
@[simp] theorem Dev.setSlotState_pwr (d : Dev) (n st : Nat) : (d.setSlotState n st).pwr = d.pwr := by
  unfold Dev.setSlotState; split <;> simp
@[simp] theorem Dev.setSlotState_flt (d : Dev) (n st : Nat) : (d.setSlotState n st).flt = d.flt := by
  unfold Dev.setSlotState; split <;> simp
@[simp] theorem Dev.setSlotState_tel (d : Dev) (n st : Nat) : (d.setSlotState n st).tel = d.tel := by
  unfold Dev.setSlotState; split <;> simp
@[simp] theorem Dev.setSlotState_free (d : Dev) (n st : Nat) : (d.setSlotState n st).free = d.free := by
  unfold Dev.setSlotState; split <;> simp

theorem Dev.reg_setSlotState (d : Dev) (n st : Nat) (r : Reg) (hs : r.side = false) (h : r ≠ .nbr n) :
    (d.setSlotState n st).reg r = d.reg r := by
  unfold Dev.setSlotState; split
  · rfl
  · rw [Dev.reg_fabricEvent _ _ _ _ hs, Dev.reg_wr_ne _ _ _ _ h]
theorem Dev.rd_setSlotState (d : Dev) (n st : Nat) (r : Reg) (hi' lo' : Nat) (hs : r.side = false) (h : r ≠ .nbr n) :
    (d.setSlotState n st).rd r hi' lo' = d.rd r hi' lo' := Dev.rd_eq_of_reg (d.reg_setSlotState _ _ r hs h) hi' lo'
theorem Dev.bitOf_setSlotState (d : Dev) (n st : Nat) (r : Reg) (i' : Nat) (hs : r.side = false) (h : r ≠ .nbr n) :
    (d.setSlotState n st).bitOf r i' = d.bitOf r i' := Dev.bitOf_eq_of_reg (d.reg_setSlotState _ _ r hs h) i'

@[simp] theorem Dev.lrec_setSlotState (d : Dev) (n st : Nat) (k : Nat) : (d.setSlotState n st).lrec k = d.lrec k := Dev.lrec_congr (by simp) k

@[simp] theorem Dev.attemptFails_pool (d : Dev) (s reason : Nat) : (d.attemptFails s reason).pool = d.pool := by simp [Dev.attemptFails]
@[simp] theorem Dev.attemptFails_dir (d : Dev) (s reason : Nat) : (d.attemptFails s reason).dir = d.dir := by simp [Dev.attemptFails]
@[simp] theorem Dev.attemptFails_sw (d : Dev) (s reason : Nat) : (d.attemptFails s reason).sw = d.sw := by simp [Dev.attemptFails]
@[simp] theorem Dev.attemptFails_svc (d : Dev) (s reason : Nat) : (d.attemptFails s reason).svc = d.svc := by simp [Dev.attemptFails]
@[simp] theorem Dev.attemptFails_port (d : Dev) (s reason : Nat) : (d.attemptFails s reason).port = d.port := by simp [Dev.attemptFails]
@[simp] theorem Dev.attemptFails_fab (d : Dev) (s reason : Nat) : (d.attemptFails s reason).fab = d.fab := by simp [Dev.attemptFails]
@[simp] theorem Dev.attemptFails_mgmt (d : Dev) (s reason : Nat) : (d.attemptFails s reason).mgmt = d.mgmt := by simp [Dev.attemptFails]
@[simp] theorem Dev.attemptFails_sec (d : Dev) (s reason : Nat) : (d.attemptFails s reason).sec = d.sec := by simp [Dev.attemptFails]
@[simp] theorem Dev.attemptFails_pwr (d : Dev) (s reason : Nat) : (d.attemptFails s reason).pwr = d.pwr := by simp [Dev.attemptFails]
@[simp] theorem Dev.attemptFails_tel (d : Dev) (s reason : Nat) : (d.attemptFails s reason).tel = d.tel := by simp [Dev.attemptFails]
@[simp] theorem Dev.attemptFails_out (d : Dev) (s reason : Nat) : (d.attemptFails s reason).out = d.out := by simp [Dev.attemptFails]
@[simp] theorem Dev.attemptFails_free (d : Dev) (s reason : Nat) : (d.attemptFails s reason).free = d.free := by simp [Dev.attemptFails]

@[simp] theorem Dev.stamp_regs (d : Dev) (s : Nat) (m : List Word) : ((d.stamp s m).2).regs = d.regs := by
  unfold Dev.stamp; split <;> rfl
@[simp] theorem Dev.stamp_pool (d : Dev) (s : Nat) (m : List Word) : ((d.stamp s m).2).pool = d.pool := by
  unfold Dev.stamp; split <;> rfl
@[simp] theorem Dev.stamp_dir (d : Dev) (s : Nat) (m : List Word) : ((d.stamp s m).2).dir = d.dir := by
  unfold Dev.stamp; split <;> rfl
@[simp] theorem Dev.stamp_sw (d : Dev) (s : Nat) (m : List Word) : ((d.stamp s m).2).sw = d.sw := by
  unfold Dev.stamp; split <;> rfl
@[simp] theorem Dev.stamp_svc (d : Dev) (s : Nat) (m : List Word) : ((d.stamp s m).2).svc = d.svc := by
  unfold Dev.stamp; split <;> rfl
@[simp] theorem Dev.stamp_port (d : Dev) (s : Nat) (m : List Word) : ((d.stamp s m).2).port = d.port := by
  unfold Dev.stamp; split <;> rfl
@[simp] theorem Dev.stamp_link (d : Dev) (s : Nat) (m : List Word) : ((d.stamp s m).2).link = d.link := by
  unfold Dev.stamp; split <;> rfl
@[simp] theorem Dev.stamp_mgmt (d : Dev) (s : Nat) (m : List Word) : ((d.stamp s m).2).mgmt = d.mgmt := by
  unfold Dev.stamp; split <;> rfl
@[simp] theorem Dev.stamp_sec (d : Dev) (s : Nat) (m : List Word) : ((d.stamp s m).2).sec = d.sec := by
  unfold Dev.stamp; split <;> rfl
@[simp] theorem Dev.stamp_pwr (d : Dev) (s : Nat) (m : List Word) : ((d.stamp s m).2).pwr = d.pwr := by
  unfold Dev.stamp; split <;> rfl
@[simp] theorem Dev.stamp_flt (d : Dev) (s : Nat) (m : List Word) : ((d.stamp s m).2).flt = d.flt := by
  unfold Dev.stamp; split <;> rfl
@[simp] theorem Dev.stamp_tel (d : Dev) (s : Nat) (m : List Word) : ((d.stamp s m).2).tel = d.tel := by
  unfold Dev.stamp; split <;> rfl
@[simp] theorem Dev.stamp_out (d : Dev) (s : Nat) (m : List Word) : ((d.stamp s m).2).out = d.out := by
  unfold Dev.stamp; split <;> rfl
@[simp] theorem Dev.stamp_free (d : Dev) (s : Nat) (m : List Word) : ((d.stamp s m).2).free = d.free := by
  unfold Dev.stamp; split <;> rfl

@[simp] theorem Dev.reg_stamp (d : Dev) (s : Nat) (m : List Word) (r : Reg) :
    ((d.stamp s m).2).reg r = d.reg r := by
  unfold Dev.stamp; split <;> rfl
@[simp] theorem Dev.rd_stamp (d : Dev) (s : Nat) (m : List Word) (r : Reg) (hi' lo' : Nat) :
    ((d.stamp s m).2).rd r hi' lo' = d.rd r hi' lo' := Dev.rd_eq_of_reg (d.reg_stamp _ _ r) hi' lo'
@[simp] theorem Dev.bitOf_stamp (d : Dev) (s : Nat) (m : List Word) (r : Reg) (i' : Nat) :
    ((d.stamp s m).2).bitOf r i' = d.bitOf r i' := Dev.bitOf_eq_of_reg (d.reg_stamp _ _ r) i'

@[simp] theorem Dev.lrec_stamp (d : Dev) (s : Nat) (m : List Word) (k : Nat) : ((d.stamp s m).2).lrec k = d.lrec k := Dev.lrec_congr (by simp) k

@[simp] theorem Dev.transmit_pool (d : Dev) (s : Nat) (e : Entry) : (d.transmit s e).pool = d.pool := by
  dsimp only [Dev.transmit]; simp
@[simp] theorem Dev.transmit_dir (d : Dev) (s : Nat) (e : Entry) : (d.transmit s e).dir = d.dir := by
  dsimp only [Dev.transmit]; simp
@[simp] theorem Dev.transmit_sw (d : Dev) (s : Nat) (e : Entry) : (d.transmit s e).sw = d.sw := by
  dsimp only [Dev.transmit]; simp
@[simp] theorem Dev.transmit_svc (d : Dev) (s : Nat) (e : Entry) : (d.transmit s e).svc = d.svc := by
  dsimp only [Dev.transmit]; simp
@[simp] theorem Dev.transmit_port (d : Dev) (s : Nat) (e : Entry) : (d.transmit s e).port = d.port := by
  dsimp only [Dev.transmit]; simp
@[simp] theorem Dev.transmit_link (d : Dev) (s : Nat) (e : Entry) : (d.transmit s e).link = d.link := by
  dsimp only [Dev.transmit]; simp
@[simp] theorem Dev.transmit_mgmt (d : Dev) (s : Nat) (e : Entry) : (d.transmit s e).mgmt = d.mgmt := by
  dsimp only [Dev.transmit]; simp
@[simp] theorem Dev.transmit_sec (d : Dev) (s : Nat) (e : Entry) : (d.transmit s e).sec = d.sec := by
  dsimp only [Dev.transmit]; simp
@[simp] theorem Dev.transmit_pwr (d : Dev) (s : Nat) (e : Entry) : (d.transmit s e).pwr = d.pwr := by
  dsimp only [Dev.transmit]; simp
@[simp] theorem Dev.transmit_tel (d : Dev) (s : Nat) (e : Entry) : (d.transmit s e).tel = d.tel := by
  dsimp only [Dev.transmit]; simp
@[simp] theorem Dev.transmit_free (d : Dev) (s : Nat) (e : Entry) : (d.transmit s e).free = d.free := by
  dsimp only [Dev.transmit]; simp

theorem Dev.reg_transmit (d : Dev) (s : Nat) (e : Entry) (r : Reg) (hs : r.side = false) :
    (d.transmit s e).reg r = d.reg r := by
  dsimp only [Dev.transmit]; rw [Dev.reg_count _ _ _ _ _ hs, Dev.reg_emit, Dev.reg_stamp]
theorem Dev.rd_transmit (d : Dev) (s : Nat) (e : Entry) (r : Reg) (hi' lo' : Nat) (hs : r.side = false) :
    (d.transmit s e).rd r hi' lo' = d.rd r hi' lo' := Dev.rd_eq_of_reg (d.reg_transmit _ _ r hs) hi' lo'
theorem Dev.bitOf_transmit (d : Dev) (s : Nat) (e : Entry) (r : Reg) (i' : Nat) (hs : r.side = false) :
    (d.transmit s e).bitOf r i' = d.bitOf r i' := Dev.bitOf_eq_of_reg (d.reg_transmit _ _ r hs) i'

@[simp] theorem Dev.lrec_transmit (d : Dev) (s : Nat) (e : Entry) (k : Nat) : (d.transmit s e).lrec k = d.lrec k := Dev.lrec_congr (by simp) k

@[simp] theorem Dev.sendNak_pool (d : Dev) (s : Nat) : (d.sendNak s).pool = d.pool := by simp [Dev.sendNak]
@[simp] theorem Dev.sendNak_dir (d : Dev) (s : Nat) : (d.sendNak s).dir = d.dir := by simp [Dev.sendNak]
@[simp] theorem Dev.sendNak_sw (d : Dev) (s : Nat) : (d.sendNak s).sw = d.sw := by simp [Dev.sendNak]
@[simp] theorem Dev.sendNak_svc (d : Dev) (s : Nat) : (d.sendNak s).svc = d.svc := by simp [Dev.sendNak]
@[simp] theorem Dev.sendNak_port (d : Dev) (s : Nat) : (d.sendNak s).port = d.port := by simp [Dev.sendNak]
@[simp] theorem Dev.sendNak_link (d : Dev) (s : Nat) : (d.sendNak s).link = d.link := by simp [Dev.sendNak]
@[simp] theorem Dev.sendNak_fab (d : Dev) (s : Nat) : (d.sendNak s).fab = d.fab := by simp [Dev.sendNak]
@[simp] theorem Dev.sendNak_mgmt (d : Dev) (s : Nat) : (d.sendNak s).mgmt = d.mgmt := by simp [Dev.sendNak]
@[simp] theorem Dev.sendNak_sec (d : Dev) (s : Nat) : (d.sendNak s).sec = d.sec := by simp [Dev.sendNak]
@[simp] theorem Dev.sendNak_pwr (d : Dev) (s : Nat) : (d.sendNak s).pwr = d.pwr := by simp [Dev.sendNak]
@[simp] theorem Dev.sendNak_tel (d : Dev) (s : Nat) : (d.sendNak s).tel = d.tel := by simp [Dev.sendNak]
@[simp] theorem Dev.sendNak_free (d : Dev) (s : Nat) : (d.sendNak s).free = d.free := by simp [Dev.sendNak]

theorem Dev.reg_sendNak (d : Dev) (s : Nat) (r : Reg) (hs : r.side = false) (h : r ≠ .errCnt s) :
    (d.sendNak s).reg r = d.reg r := by
  rw [Dev.sendNak, Dev.reg_count _ _ _ _ _ hs, Dev.bumpWrap, Dev.reg_wr_ne _ _ _ _ h, Dev.reg_sendBlock]
theorem Dev.rd_sendNak (d : Dev) (s : Nat) (r : Reg) (hi' lo' : Nat) (hs : r.side = false) (h : r ≠ .errCnt s) :
    (d.sendNak s).rd r hi' lo' = d.rd r hi' lo' := Dev.rd_eq_of_reg (d.reg_sendNak _ r hs h) hi' lo'
theorem Dev.bitOf_sendNak (d : Dev) (s : Nat) (r : Reg) (i' : Nat) (hs : r.side = false) (h : r ≠ .errCnt s) :
    (d.sendNak s).bitOf r i' = d.bitOf r i' := Dev.bitOf_eq_of_reg (d.reg_sendNak _ r hs h) i'

@[simp] theorem Dev.lrec_sendNak (d : Dev) (s : Nat) (k : Nat) : (d.sendNak s).lrec k = d.lrec k := Dev.lrec_congr (by simp) k

@[simp] theorem Dev.startDiscard_pool (d : Dev) (s : Nat) : (d.startDiscard s).pool = d.pool := by simp [Dev.startDiscard]
@[simp] theorem Dev.startDiscard_dir (d : Dev) (s : Nat) : (d.startDiscard s).dir = d.dir := by simp [Dev.startDiscard]
@[simp] theorem Dev.startDiscard_sw (d : Dev) (s : Nat) : (d.startDiscard s).sw = d.sw := by simp [Dev.startDiscard]
@[simp] theorem Dev.startDiscard_svc (d : Dev) (s : Nat) : (d.startDiscard s).svc = d.svc := by simp [Dev.startDiscard]
@[simp] theorem Dev.startDiscard_port (d : Dev) (s : Nat) : (d.startDiscard s).port = d.port := by simp [Dev.startDiscard]
@[simp] theorem Dev.startDiscard_fab (d : Dev) (s : Nat) : (d.startDiscard s).fab = d.fab := by simp [Dev.startDiscard]
@[simp] theorem Dev.startDiscard_mgmt (d : Dev) (s : Nat) : (d.startDiscard s).mgmt = d.mgmt := by simp [Dev.startDiscard]
@[simp] theorem Dev.startDiscard_sec (d : Dev) (s : Nat) : (d.startDiscard s).sec = d.sec := by simp [Dev.startDiscard]
@[simp] theorem Dev.startDiscard_pwr (d : Dev) (s : Nat) : (d.startDiscard s).pwr = d.pwr := by simp [Dev.startDiscard]
@[simp] theorem Dev.startDiscard_tel (d : Dev) (s : Nat) : (d.startDiscard s).tel = d.tel := by simp [Dev.startDiscard]
@[simp] theorem Dev.startDiscard_free (d : Dev) (s : Nat) : (d.startDiscard s).free = d.free := by simp [Dev.startDiscard]

theorem Dev.reg_startDiscard (d : Dev) (s : Nat) (r : Reg) (hs : r.side = false) (h : r ≠ .errCnt s) :
    (d.startDiscard s).reg r = d.reg r := by
  rw [Dev.startDiscard, Dev.reg_sendNak _ _ _ hs h, Dev.reg_modLink]
theorem Dev.rd_startDiscard (d : Dev) (s : Nat) (r : Reg) (hi' lo' : Nat) (hs : r.side = false) (h : r ≠ .errCnt s) :
    (d.startDiscard s).rd r hi' lo' = d.rd r hi' lo' := Dev.rd_eq_of_reg (d.reg_startDiscard _ r hs h) hi' lo'
theorem Dev.bitOf_startDiscard (d : Dev) (s : Nat) (r : Reg) (i' : Nat) (hs : r.side = false) (h : r ≠ .errCnt s) :
    (d.startDiscard s).bitOf r i' = d.bitOf r i' := Dev.bitOf_eq_of_reg (d.reg_startDiscard _ r hs h) i'

@[simp] theorem Dev.lrec_startDiscard_same (d : Dev) (s : Nat) :
    (d.startDiscard s).lrec s = { d.lrec s with discarding := true } := by simp [Dev.startDiscard]

@[simp] theorem Dev.lrec_setEntries_same (d : Dev) (s : Nat) (es : List Entry) :
    (d.setEntries s es).lrec s = { d.lrec s with entries := es } := by simp [Dev.setEntries]

@[simp] theorem Dev.lrec_sendCredit_same (d : Dev) (s : Nat) :
    (d.sendCredit s).lrec s = { d.lrec s with sentAdv := (d.lrec s).adv } := by simp [Dev.sendCredit]

/-- Entering a state writes it. -/
theorem Dev.linkState_enterLink (d : Dev) (s st : Nat) (h : st < 16) : (d.enterLink s st).linkState s = st := by
  rw [Dev.linkState, Dev.enterLink, Dev.rd_setLive _ _ _ _ _ _ (by simp), Dev.rd_wr_same _ _ (by simp [Reg.holds, Reg.mask, Reg.layout, fieldMask])]
  omega

/-- Entering a state leaves the other fields of STL.STATUS. -/
theorem Dev.rd_stlStatus_enterLink (d : Dev) (s st hi lo : Nat) (h : hi < 28) (h' : (Reg.stlStatus s).holds hi lo = true) :
    (d.enterLink s st).rd (.stlStatus s) hi lo = d.rd (.stlStatus s) hi lo := by
  rw [Dev.enterLink, Dev.rd_setLive _ _ _ _ _ _ (by simp), Dev.rd_wr_field _ _ h' (.inl h)]

@[simp] theorem Dev.linkState_shown (d : Dev) (s : Nat) : d.shown.linkState s = d.linkState s := by
  rw [Dev.linkState, Dev.rd_shown _ _ _ _ (by simp), Dev.linkState]

theorem Dev.active_congr {d d' : Dev} {s : Nat} (h : d.linkState s = d'.linkState s) : d.active s = d'.active s := by
  rw [Dev.active, Dev.active, h]

@[simp] theorem Dev.active_modLink (d : Dev) (k : Nat) (f : LinkRec → LinkRec) (s : Nat) : (d.modLink k f).active s = d.active s := rfl

@[simp] theorem Dev.txMask_modLink (d : Dev) (k : Nat) (f : LinkRec → LinkRec) (s : Nat) : (d.modLink k f).txMask s = d.txMask s := rfl

@[simp] theorem Dev.rxMask_modLink (d : Dev) (k : Nat) (f : LinkRec → LinkRec) (s : Nat) : (d.modLink k f).rxMask s = d.rxMask s := rfl

@[simp] theorem Dev.linkState_modLink (d : Dev) (k : Nat) (f : LinkRec → LinkRec) (s : Nat) :
    (d.modLink k f).linkState s = d.linkState s := rfl

/-- A failed attempt leaves the link DOWN with its reason (R236). -/
theorem Dev.attemptFails_state (d : Dev) (s reason : Nat) : (d.attemptFails s reason).linkState s = 3 := by
  rw [Dev.linkState, Dev.attemptFails, Dev.rd_report _ _ _ _ _ _ _ (by simp), Dev.setReason,
    Dev.rd_wr_field _ _ (by simp [Reg.holds, Reg.mask, Reg.layout, fieldMask]) (.inr (by decide))]
  exact Dev.linkState_enterLink _ s 3 (by decide)

theorem Dev.attemptFails_reason (d : Dev) (s reason : Nat) (h : reason < 16) :
    (d.attemptFails s reason).rd (.stlStatus s) 27 24 = reason := by
  rw [Dev.attemptFails, Dev.rd_report _ _ _ _ _ _ _ (by simp), Dev.setReason,
    Dev.rd_wr_same _ _ (by simp [Reg.holds, Reg.mask, Reg.layout, fieldMask])]
  omega

/-- A failed attempt leaves no phase running. -/
@[simp] theorem Dev.attemptFails_phase (d : Dev) (s reason : Nat) : ((d.attemptFails s reason).lrec s).phase = 0 := by
  simp [Dev.attemptFails]

/-- What sending a new packet does (R242, R245, R248). -/
theorem Dev.lrec_sendNew (d : Dev) (s : Nat) (c : MsgClass) (m : List Word) :
    (d.sendNew s c m).lrec s = { d.lrec s with
      spent := (d.lrec s).spent.put c (((d.lrec s).spent.get c + packetCost (m.length + 1)) % 2048)
      entries := (d.lrec s).entries ++ [⟨d.rd (.seqStatus s) 63 52, c, m⟩] } := by
  simp [Dev.sendNew]

theorem Dev.seq_sendNew (d : Dev) (s : Nat) (c : MsgClass) (m : List Word) :
    (d.sendNew s c m).rd (.seqStatus s) 63 52 = (d.rd (.seqStatus s) 63 52 + 1) % 4096 := by
  dsimp only [Dev.sendNew]
  rw [Dev.rd_count _ _ _ _ _ _ _ (by simp), Dev.rd_transmit _ _ _ _ _ _ (by simp)]
  simp [Dev.setEntries, Dev.showEntries, Dev.rd_wr_field, Dev.rd_wr_same, Reg.holds, Reg.mask, Reg.layout, fieldMask]

theorem Dev.out_sendBlock (d : Dev) (s : Nat) (b : Word) : d.out <+: (d.sendBlock s b).out := d.out_emit _

theorem Dev.out_transmit (d : Dev) (s : Nat) (e : Entry) : d.out <+: (d.transmit s e).out := by
  dsimp only [Dev.transmit]
  rw [Dev.count_out]
  refine List.IsPrefix.trans ?_ (Dev.out_emit _ _)
  simp

/-- The bundle of a slot is not changed by what leaves the neighbour map's links alone. -/
theorem Dev.bundle_congr {d d' : Dev} {n : Nat} (h : d.rd (.nbr n) 31 16 = d'.rd (.nbr n) 31 16) : d.bundle n = d'.bundle n := by
  rw [Dev.bundle, Dev.bundle, h]

/-- LIVE bits are not the bits of a bundle. -/
theorem Dev.rd_bundle_setLive (d : Dev) (s : Nat) (b : Bool) (n : Nat) (h : s < 16) :
    (d.setLive s b).rd (.nbr n) 31 16 = d.rd (.nbr n) 31 16 := by
  unfold Dev.setLive
  refine foldl_frame (fun d : Dev => d.rd (.nbr n) 31 16) _ _ ?_ d
  intro d m
  split
  · exact Dev.rd_wr_field _ _ (by simp [Reg.holds, Reg.mask, Reg.layout, fieldMask]) (.inr (by omega))
  · rfl

/-- What stopping a link leaves: DOWN, its reason, a frozen receiver, and the same bundle, with no link lost but this one. -/
theorem Dev.linkStops_spec (d : Dev) (s reason : Nat) (hs : s < 16) (hr : reason < 16) :
    (d.linkStops s reason).linkState s = 3 ∧ (d.linkStops s reason).rd (.stlStatus s) 27 24 = reason ∧
    ((d.linkStops s reason).lrec s).frozen = true ∧ (∀ n, (d.linkStops s reason).bundle n = d.bundle n) ∧
    (∀ x, (d.linkStops s reason).active x = (!decide (x = s) && d.active x)) ∧
    (d.linkStops s reason).rd (.seqStatus s) 39 28 = d.rd (.seqStatus s) 39 28 ∧
    ((d.linkStops s reason).lrec s).residue = (d.lrec s).residue ∧ ((d.linkStops s reason).lrec s).resetBy = (d.lrec s).resetBy := by
  have h : ∀ r, r.side = false → (∀ n, r ≠ .nbr n) → r ≠ .stlStatus s → (d.linkStops s reason).reg r = d.reg r := fun r h1 h2 h3 => by
    dsimp only [Dev.linkStops]
    rw [Dev.reg_mk, Dev.reg_modLink, Dev.reg_fabricEvent _ _ _ _ h1, Dev.reg_report _ _ _ _ _ h1, Dev.reg_wr_ne _ _ _ _ h3,
      Dev.reg_wr_ne _ _ _ _ h3, Dev.reg_setReason _ _ _ _ h3, Dev.reg_enterLink _ _ _ _ h2 h3]
  have hst : (d.linkStops s reason).linkState s = 3 := by
    rw [Dev.linkState]
    dsimp only [Dev.linkStops]
    rw [Dev.rd_mk, Dev.rd_modLink, Dev.rd_fabricEvent _ _ _ _ _ _ (by simp), Dev.rd_report _ _ _ _ _ _ _ (by simp),
      Dev.rd_wr_field _ _ (by simp [Reg.holds, Reg.mask, Reg.layout, fieldMask]) (.inr (by decide)),
      Dev.rd_wr_field _ _ (by simp [Reg.holds, Reg.mask, Reg.layout, fieldMask]) (.inr (by decide)), Dev.setReason,
      Dev.rd_wr_field _ _ (by simp [Reg.holds, Reg.mask, Reg.layout, fieldMask]) (.inr (by decide))]
    exact Dev.linkState_enterLink d s 3 (by decide)
  refine ⟨hst, ?_, ?_, ?_, ?_, ?_, ?_, ?_⟩
  · dsimp only [Dev.linkStops]
    rw [Dev.rd_mk, Dev.rd_modLink, Dev.rd_fabricEvent _ _ _ _ _ _ (by simp), Dev.rd_report _ _ _ _ _ _ _ (by simp),
      Dev.rd_wr_field _ _ (by simp [Reg.holds, Reg.mask, Reg.layout, fieldMask]) (.inr (by decide)),
      Dev.rd_wr_field _ _ (by simp [Reg.holds, Reg.mask, Reg.layout, fieldMask]) (.inr (by decide)), Dev.setReason,
      Dev.rd_wr_same _ _ (by simp [Reg.holds, Reg.mask, Reg.layout, fieldMask])]
    omega
  · simp [Dev.linkStops, Dev.lrec, Dev.modLink]
  · intro n
    refine Dev.bundle_congr ?_
    dsimp only [Dev.linkStops]
    rw [Dev.rd_mk, Dev.rd_modLink, Dev.rd_fabricEvent _ _ _ _ _ _ (by simp), Dev.rd_report _ _ _ _ _ _ _ (by simp),
      Dev.rd_wr_ne _ _ _ _ _ _ (by simp), Dev.rd_wr_ne _ _ _ _ _ _ (by simp), Dev.setReason, Dev.rd_wr_ne _ _ _ _ _ _ (by simp),
      Dev.enterLink, Dev.rd_bundle_setLive _ _ _ _ hs, Dev.rd_wr_ne _ _ _ _ _ _ (by simp)]
  · intro x
    by_cases hx : x = s
    · subst hx
      simp [Dev.active, hst]
    · simp only [hx, decide_false, Bool.not_false, Bool.true_and]
      refine Dev.active_congr ?_
      exact Dev.rd_eq_of_reg (h _ (by simp) (by simp) (by simp [hx])) _ _
  · exact Dev.rd_eq_of_reg (h _ (by simp) (by simp) (by simp)) _ _
  · have : (d.linkStops s reason).lrec s = { d.lrec s with frozen := true, phase := 0, adding := 0, addingRx := 0, discarding := false, extra := .zero } := by
      simp [Dev.linkStops, Dev.lrec, Dev.modLink]
    rw [this]
  · have : (d.linkStops s reason).lrec s = { d.lrec s with frozen := true, phase := 0, adding := 0, addingRx := 0, discarding := false, extra := .zero } := by
      simp [Dev.linkStops, Dev.lrec, Dev.modLink]
    rw [this]

/-- A queued message that takes another link changes the buffer alone. -/
theorem Dev.moveQueued_frame (d : Dev) (m : Msg) (c : Nat) : (d.moveQueued m c).regs = d.regs ∧ (d.moveQueued m c).link = d.link := by
  unfold Dev.moveQueued
  split
  · exact ⟨rfl, rfl⟩
  · exact ⟨rfl, rfl⟩

/-- A takeover whose peer has answered and whose residue is gone ends (R256). -/
theorem Dev.takeoverEnd_done (d : Dev) (s : Nat) {t : Takeover} (h : (d.lrec s).tko = some t) (hp : t.peerSeen = true)
    (hr : ∀ e ∈ (d.lrec t.carrier).residue, e.1 ≠ s) :
    ((d.takeoverEnd s).lrec s).tko = none ∧ (d.takeoverEnd s).bitOf (.stlStatus s) 14 = false := by
  have hall : (d.lrec t.carrier).residue.all (fun e => !decide (e.1 = s)) = true := by
    rw [List.all_eq_true]
    intro e he
    simpa using hr e he
  have hf : ∀ (old l : List Msg) (d : Dev), (l.foldl (fun (d : Dev) m => d.markHeads old m) d).regs = d.regs ∧
      (l.foldl (fun (d : Dev) m => d.markHeads old m) d).link = d.link := fun old l d =>
    ⟨foldl_frame Dev.regs _ _ (by intros; rfl) d, foldl_frame Dev.link _ _ (by intros; rfl) d⟩
  have hm : ∀ (c : Nat) (l : List Msg) (d : Dev), (l.foldl (fun (d : Dev) m => d.moveQueued m c) d).regs = d.regs ∧
      (l.foldl (fun (d : Dev) m => d.moveQueued m c) d).link = d.link := fun c l d =>
    ⟨foldl_frame Dev.regs _ _ (fun d m => (d.moveQueued_frame m c).1) d, foldl_frame Dev.link _ _ (fun d m => (d.moveQueued_frame m c).2) d⟩
  have hb : ∀ (d d' : Dev), d.regs = d'.regs → d.bitOf (.stlStatus s) 14 = d'.bitOf (.stlStatus s) 14 := fun d d' e =>
    Dev.bitOf_eq_of_reg (by rw [Dev.reg, Dev.reg, e]) _
  have h1 : ∀ (d : Dev) a b c, ((d.wr (.stlStatus s) 14 14 0).report a b c).bitOf (.stlStatus s) 14 = false :=
    fun d a b c => by
      rw [Dev.bitOf_report _ _ _ _ _ _ (by simp), Dev.bitOf_wr_same _ _ (by simp [Reg.holds, Reg.mask, Reg.layout, fieldMask])]
      simp
  unfold Dev.takeoverEnd
  rw [h]
  simp only [hp, hall, Bool.and_self, if_true]
  split
  · refine ⟨?_, ?_⟩
    · rw [Dev.lrec_finish, Dev.lrec_congr ((hf _ _ _).2.trans (hm _ _ _).2)]
      simp [Dev.lrec, Dev.setEntries, Dev.modLink]
    · rw [Dev.bitOf_finish _ _ _ _ _ _ (by simp) (by simp), hb _ _ ((hf _ _ _).1.trans (hm _ _ _).1)]
      exact h1 _ _ _ _
  · refine ⟨?_, ?_⟩
    · rw [Dev.lrec_congr ((hf _ _ _).2.trans (hm _ _ _).2)]
      simp [Dev.lrec, Dev.setEntries, Dev.modLink]
    · rw [hb _ _ ((hf _ _ _).1.trans (hm _ _ _).1)]
      exact h1 _ _ _ _

end Sys2Proof.Machine
end

