-- ==== Sys2Proof/Laws/Buffer.lean ====
section
/-! SUPPORT. What the shared operations of the buffer leave alone, and what they send. -/

namespace Sys2Proof.Machine

@[simp] theorem Dev.endTxn_regs (d : Dev) (a : Agent) (x : Nat) : (d.endTxn a x).regs = d.regs := rfl
@[simp] theorem Dev.endTxn_dir (d : Dev) (a : Agent) (x : Nat) : (d.endTxn a x).dir = d.dir := rfl
@[simp] theorem Dev.endTxn_sw (d : Dev) (a : Agent) (x : Nat) : (d.endTxn a x).sw = d.sw := rfl
@[simp] theorem Dev.endTxn_svc (d : Dev) (a : Agent) (x : Nat) : (d.endTxn a x).svc = d.svc := rfl
@[simp] theorem Dev.endTxn_port (d : Dev) (a : Agent) (x : Nat) : (d.endTxn a x).port = d.port := rfl
@[simp] theorem Dev.endTxn_link (d : Dev) (a : Agent) (x : Nat) : (d.endTxn a x).link = d.link := rfl
@[simp] theorem Dev.endTxn_fab (d : Dev) (a : Agent) (x : Nat) : (d.endTxn a x).fab = d.fab := rfl
@[simp] theorem Dev.endTxn_mgmt (d : Dev) (a : Agent) (x : Nat) : (d.endTxn a x).mgmt = d.mgmt := rfl
@[simp] theorem Dev.endTxn_sec (d : Dev) (a : Agent) (x : Nat) : (d.endTxn a x).sec = d.sec := rfl
@[simp] theorem Dev.endTxn_pwr (d : Dev) (a : Agent) (x : Nat) : (d.endTxn a x).pwr = d.pwr := rfl
@[simp] theorem Dev.endTxn_flt (d : Dev) (a : Agent) (x : Nat) : (d.endTxn a x).flt = d.flt := rfl
@[simp] theorem Dev.endTxn_tel (d : Dev) (a : Agent) (x : Nat) : (d.endTxn a x).tel = d.tel := rfl
@[simp] theorem Dev.endTxn_out (d : Dev) (a : Agent) (x : Nat) : (d.endTxn a x).out = d.out := rfl
@[simp] theorem Dev.endTxn_free (d : Dev) (a : Agent) (x : Nat) : (d.endTxn a x).free = d.free := rfl

@[simp] theorem Dev.reg_endTxn (d : Dev) (a : Agent) (x : Nat) (r : Reg) :
    (d.endTxn a x).reg r = d.reg r := rfl
@[simp] theorem Dev.rd_endTxn (d : Dev) (a : Agent) (x : Nat) (r : Reg) (hi' lo' : Nat) :
    (d.endTxn a x).rd r hi' lo' = d.rd r hi' lo' := Dev.rd_eq_of_reg (d.reg_endTxn _ _ r) hi' lo'
@[simp] theorem Dev.bitOf_endTxn (d : Dev) (a : Agent) (x : Nat) (r : Reg) (i' : Nat) :
    (d.endTxn a x).bitOf r i' = d.bitOf r i' := Dev.bitOf_eq_of_reg (d.reg_endTxn _ _ r) i'

@[simp] theorem Dev.newId_regs (d : Dev) : (d.newId.2).regs = d.regs := rfl
@[simp] theorem Dev.newId_pool (d : Dev) : (d.newId.2).pool = d.pool := rfl
@[simp] theorem Dev.newId_dir (d : Dev) : (d.newId.2).dir = d.dir := rfl
@[simp] theorem Dev.newId_svc (d : Dev) : (d.newId.2).svc = d.svc := rfl
@[simp] theorem Dev.newId_port (d : Dev) : (d.newId.2).port = d.port := rfl
@[simp] theorem Dev.newId_link (d : Dev) : (d.newId.2).link = d.link := rfl
@[simp] theorem Dev.newId_fab (d : Dev) : (d.newId.2).fab = d.fab := rfl
@[simp] theorem Dev.newId_mgmt (d : Dev) : (d.newId.2).mgmt = d.mgmt := rfl
@[simp] theorem Dev.newId_sec (d : Dev) : (d.newId.2).sec = d.sec := rfl
@[simp] theorem Dev.newId_pwr (d : Dev) : (d.newId.2).pwr = d.pwr := rfl
@[simp] theorem Dev.newId_flt (d : Dev) : (d.newId.2).flt = d.flt := rfl
@[simp] theorem Dev.newId_tel (d : Dev) : (d.newId.2).tel = d.tel := rfl
@[simp] theorem Dev.newId_out (d : Dev) : (d.newId.2).out = d.out := rfl
@[simp] theorem Dev.newId_free (d : Dev) : (d.newId.2).free = d.free := rfl

@[simp] theorem Dev.reg_newId (d : Dev) (r : Reg) :
    (d.newId.2).reg r = d.reg r := rfl
@[simp] theorem Dev.rd_newId (d : Dev) (r : Reg) (hi' lo' : Nat) :
    (d.newId.2).rd r hi' lo' = d.rd r hi' lo' := Dev.rd_eq_of_reg (d.reg_newId  r) hi' lo'
@[simp] theorem Dev.bitOf_newId (d : Dev) (r : Reg) (i' : Nat) :
    (d.newId.2).bitOf r i' = d.bitOf r i' := Dev.bitOf_eq_of_reg (d.reg_newId  r) i'

@[simp] theorem Dev.countIngress_pool (d : Dev) (e : Entity) (c : MsgClass) : (d.countIngress e c).pool = d.pool := by
  unfold Dev.countIngress; split <;> simp
@[simp] theorem Dev.countIngress_dir (d : Dev) (e : Entity) (c : MsgClass) : (d.countIngress e c).dir = d.dir := by
  unfold Dev.countIngress; split <;> simp
@[simp] theorem Dev.countIngress_sw (d : Dev) (e : Entity) (c : MsgClass) : (d.countIngress e c).sw = d.sw := by
  unfold Dev.countIngress; split <;> simp
@[simp] theorem Dev.countIngress_svc (d : Dev) (e : Entity) (c : MsgClass) : (d.countIngress e c).svc = d.svc := by
  unfold Dev.countIngress; split <;> simp
@[simp] theorem Dev.countIngress_port (d : Dev) (e : Entity) (c : MsgClass) : (d.countIngress e c).port = d.port := by
  unfold Dev.countIngress; split <;> simp
@[simp] theorem Dev.countIngress_link (d : Dev) (e : Entity) (c : MsgClass) : (d.countIngress e c).link = d.link := by
  unfold Dev.countIngress; split <;> simp
@[simp] theorem Dev.countIngress_fab (d : Dev) (e : Entity) (c : MsgClass) : (d.countIngress e c).fab = d.fab := by
  unfold Dev.countIngress; split <;> simp
@[simp] theorem Dev.countIngress_mgmt (d : Dev) (e : Entity) (c : MsgClass) : (d.countIngress e c).mgmt = d.mgmt := by
  unfold Dev.countIngress; split <;> simp
@[simp] theorem Dev.countIngress_sec (d : Dev) (e : Entity) (c : MsgClass) : (d.countIngress e c).sec = d.sec := by
  unfold Dev.countIngress; split <;> simp
@[simp] theorem Dev.countIngress_pwr (d : Dev) (e : Entity) (c : MsgClass) : (d.countIngress e c).pwr = d.pwr := by
  unfold Dev.countIngress; split <;> simp
@[simp] theorem Dev.countIngress_tel (d : Dev) (e : Entity) (c : MsgClass) : (d.countIngress e c).tel = d.tel := by
  unfold Dev.countIngress; split <;> simp
@[simp] theorem Dev.countIngress_out (d : Dev) (e : Entity) (c : MsgClass) : (d.countIngress e c).out = d.out := by
  unfold Dev.countIngress; split <;> simp
@[simp] theorem Dev.countIngress_free (d : Dev) (e : Entity) (c : MsgClass) : (d.countIngress e c).free = d.free := by
  unfold Dev.countIngress; split <;> simp

theorem Dev.reg_countIngress (d : Dev) (e : Entity) (c : MsgClass) (r : Reg) (hs : r.side = false) :
    (d.countIngress e c).reg r = d.reg r := by
  unfold Dev.countIngress; split
  · exact Dev.reg_count _ _ _ _ _ hs
  · rfl
theorem Dev.rd_countIngress (d : Dev) (e : Entity) (c : MsgClass) (r : Reg) (hi' lo' : Nat) (hs : r.side = false) :
    (d.countIngress e c).rd r hi' lo' = d.rd r hi' lo' := Dev.rd_eq_of_reg (d.reg_countIngress _ _ r hs) hi' lo'
theorem Dev.bitOf_countIngress (d : Dev) (e : Entity) (c : MsgClass) (r : Reg) (i' : Nat) (hs : r.side = false) :
    (d.countIngress e c).bitOf r i' = d.bitOf r i' := Dev.bitOf_eq_of_reg (d.reg_countIngress _ _ r hs) i'

@[simp] theorem Dev.passAnswered_regs (d : Dev) (e : Entity) (c : MsgClass) (x : Nat) : (d.passAnswered e c x).regs = d.regs := by
  unfold Dev.passAnswered; split <;> rfl
@[simp] theorem Dev.passAnswered_pool (d : Dev) (e : Entity) (c : MsgClass) (x : Nat) : (d.passAnswered e c x).pool = d.pool := by
  unfold Dev.passAnswered; split <;> rfl
@[simp] theorem Dev.passAnswered_dir (d : Dev) (e : Entity) (c : MsgClass) (x : Nat) : (d.passAnswered e c x).dir = d.dir := by
  unfold Dev.passAnswered; split <;> rfl
@[simp] theorem Dev.passAnswered_sw (d : Dev) (e : Entity) (c : MsgClass) (x : Nat) : (d.passAnswered e c x).sw = d.sw := by
  unfold Dev.passAnswered; split <;> rfl
@[simp] theorem Dev.passAnswered_svc (d : Dev) (e : Entity) (c : MsgClass) (x : Nat) : (d.passAnswered e c x).svc = d.svc := by
  unfold Dev.passAnswered; split <;> rfl
@[simp] theorem Dev.passAnswered_port (d : Dev) (e : Entity) (c : MsgClass) (x : Nat) : (d.passAnswered e c x).port = d.port := by
  unfold Dev.passAnswered; split <;> rfl
@[simp] theorem Dev.passAnswered_link (d : Dev) (e : Entity) (c : MsgClass) (x : Nat) : (d.passAnswered e c x).link = d.link := by
  unfold Dev.passAnswered; split <;> rfl
@[simp] theorem Dev.passAnswered_fab (d : Dev) (e : Entity) (c : MsgClass) (x : Nat) : (d.passAnswered e c x).fab = d.fab := by
  unfold Dev.passAnswered; split <;> rfl
@[simp] theorem Dev.passAnswered_sec (d : Dev) (e : Entity) (c : MsgClass) (x : Nat) : (d.passAnswered e c x).sec = d.sec := by
  unfold Dev.passAnswered; split <;> rfl
@[simp] theorem Dev.passAnswered_pwr (d : Dev) (e : Entity) (c : MsgClass) (x : Nat) : (d.passAnswered e c x).pwr = d.pwr := by
  unfold Dev.passAnswered; split <;> rfl
@[simp] theorem Dev.passAnswered_flt (d : Dev) (e : Entity) (c : MsgClass) (x : Nat) : (d.passAnswered e c x).flt = d.flt := by
  unfold Dev.passAnswered; split <;> rfl
@[simp] theorem Dev.passAnswered_tel (d : Dev) (e : Entity) (c : MsgClass) (x : Nat) : (d.passAnswered e c x).tel = d.tel := by
  unfold Dev.passAnswered; split <;> rfl
@[simp] theorem Dev.passAnswered_out (d : Dev) (e : Entity) (c : MsgClass) (x : Nat) : (d.passAnswered e c x).out = d.out := by
  unfold Dev.passAnswered; split <;> rfl
@[simp] theorem Dev.passAnswered_free (d : Dev) (e : Entity) (c : MsgClass) (x : Nat) : (d.passAnswered e c x).free = d.free := by
  unfold Dev.passAnswered; split <;> rfl

@[simp] theorem Dev.reg_passAnswered (d : Dev) (e : Entity) (c : MsgClass) (x : Nat) (r : Reg) :
    (d.passAnswered e c x).reg r = d.reg r := by
  unfold Dev.passAnswered; split <;> rfl
@[simp] theorem Dev.rd_passAnswered (d : Dev) (e : Entity) (c : MsgClass) (x : Nat) (r : Reg) (hi' lo' : Nat) :
    (d.passAnswered e c x).rd r hi' lo' = d.rd r hi' lo' := Dev.rd_eq_of_reg (d.reg_passAnswered _ _ _ r) hi' lo'
@[simp] theorem Dev.bitOf_passAnswered (d : Dev) (e : Entity) (c : MsgClass) (x : Nat) (r : Reg) (i' : Nat) :
    (d.passAnswered e c x).bitOf r i' = d.bitOf r i' := Dev.bitOf_eq_of_reg (d.reg_passAnswered _ _ _ r) i'

@[simp] theorem Dev.setSession_regs (d : Dev) (s : Nat) (x : MirrorSession) : (d.setSession s x).regs = d.regs := rfl
@[simp] theorem Dev.setSession_pool (d : Dev) (s : Nat) (x : MirrorSession) : (d.setSession s x).pool = d.pool := rfl
@[simp] theorem Dev.setSession_dir (d : Dev) (s : Nat) (x : MirrorSession) : (d.setSession s x).dir = d.dir := rfl
@[simp] theorem Dev.setSession_svc (d : Dev) (s : Nat) (x : MirrorSession) : (d.setSession s x).svc = d.svc := rfl
@[simp] theorem Dev.setSession_port (d : Dev) (s : Nat) (x : MirrorSession) : (d.setSession s x).port = d.port := rfl
@[simp] theorem Dev.setSession_link (d : Dev) (s : Nat) (x : MirrorSession) : (d.setSession s x).link = d.link := rfl
@[simp] theorem Dev.setSession_fab (d : Dev) (s : Nat) (x : MirrorSession) : (d.setSession s x).fab = d.fab := rfl
@[simp] theorem Dev.setSession_mgmt (d : Dev) (s : Nat) (x : MirrorSession) : (d.setSession s x).mgmt = d.mgmt := rfl
@[simp] theorem Dev.setSession_sec (d : Dev) (s : Nat) (x : MirrorSession) : (d.setSession s x).sec = d.sec := rfl
@[simp] theorem Dev.setSession_pwr (d : Dev) (s : Nat) (x : MirrorSession) : (d.setSession s x).pwr = d.pwr := rfl
@[simp] theorem Dev.setSession_flt (d : Dev) (s : Nat) (x : MirrorSession) : (d.setSession s x).flt = d.flt := rfl
@[simp] theorem Dev.setSession_tel (d : Dev) (s : Nat) (x : MirrorSession) : (d.setSession s x).tel = d.tel := rfl
@[simp] theorem Dev.setSession_out (d : Dev) (s : Nat) (x : MirrorSession) : (d.setSession s x).out = d.out := rfl
@[simp] theorem Dev.setSession_free (d : Dev) (s : Nat) (x : MirrorSession) : (d.setSession s x).free = d.free := rfl

@[simp] theorem Dev.reg_setSession (d : Dev) (s : Nat) (x : MirrorSession) (r : Reg) :
    (d.setSession s x).reg r = d.reg r := rfl
@[simp] theorem Dev.rd_setSession (d : Dev) (s : Nat) (x : MirrorSession) (r : Reg) (hi' lo' : Nat) :
    (d.setSession s x).rd r hi' lo' = d.rd r hi' lo' := Dev.rd_eq_of_reg (d.reg_setSession _ _ r) hi' lo'
@[simp] theorem Dev.bitOf_setSession (d : Dev) (s : Nat) (x : MirrorSession) (r : Reg) (i' : Nat) :
    (d.setSession s x).bitOf r i' = d.bitOf r i' := Dev.bitOf_eq_of_reg (d.reg_setSession _ _ r) i'

@[simp] theorem Dev.mirrorDrop_pool (d : Dev) (s : Nat) : (d.mirrorDrop s).pool = d.pool := by simp [Dev.mirrorDrop]
@[simp] theorem Dev.mirrorDrop_dir (d : Dev) (s : Nat) : (d.mirrorDrop s).dir = d.dir := by simp [Dev.mirrorDrop]
@[simp] theorem Dev.mirrorDrop_svc (d : Dev) (s : Nat) : (d.mirrorDrop s).svc = d.svc := by simp [Dev.mirrorDrop]
@[simp] theorem Dev.mirrorDrop_port (d : Dev) (s : Nat) : (d.mirrorDrop s).port = d.port := by simp [Dev.mirrorDrop]
@[simp] theorem Dev.mirrorDrop_link (d : Dev) (s : Nat) : (d.mirrorDrop s).link = d.link := by simp [Dev.mirrorDrop]
@[simp] theorem Dev.mirrorDrop_fab (d : Dev) (s : Nat) : (d.mirrorDrop s).fab = d.fab := by simp [Dev.mirrorDrop]
@[simp] theorem Dev.mirrorDrop_mgmt (d : Dev) (s : Nat) : (d.mirrorDrop s).mgmt = d.mgmt := by simp [Dev.mirrorDrop]
@[simp] theorem Dev.mirrorDrop_sec (d : Dev) (s : Nat) : (d.mirrorDrop s).sec = d.sec := by simp [Dev.mirrorDrop]
@[simp] theorem Dev.mirrorDrop_pwr (d : Dev) (s : Nat) : (d.mirrorDrop s).pwr = d.pwr := by simp [Dev.mirrorDrop]
@[simp] theorem Dev.mirrorDrop_tel (d : Dev) (s : Nat) : (d.mirrorDrop s).tel = d.tel := by simp [Dev.mirrorDrop]
@[simp] theorem Dev.mirrorDrop_out (d : Dev) (s : Nat) : (d.mirrorDrop s).out = d.out := by simp [Dev.mirrorDrop]
@[simp] theorem Dev.mirrorDrop_free (d : Dev) (s : Nat) : (d.mirrorDrop s).free = d.free := by simp [Dev.mirrorDrop]

theorem Dev.reg_mirrorDrop (d : Dev) (s : Nat) (r : Reg) (hs : r.side = false) :
    (d.mirrorDrop s).reg r = d.reg r := by rw [Dev.mirrorDrop, Dev.reg_count _ _ _ _ _ hs, Dev.reg_setSession]
theorem Dev.rd_mirrorDrop (d : Dev) (s : Nat) (r : Reg) (hi' lo' : Nat) (hs : r.side = false) :
    (d.mirrorDrop s).rd r hi' lo' = d.rd r hi' lo' := Dev.rd_eq_of_reg (d.reg_mirrorDrop _ r hs) hi' lo'
theorem Dev.bitOf_mirrorDrop (d : Dev) (s : Nat) (r : Reg) (i' : Nat) (hs : r.side = false) :
    (d.mirrorDrop s).bitOf r i' = d.bitOf r i' := Dev.bitOf_eq_of_reg (d.reg_mirrorDrop _ r hs) i'

@[simp] theorem Dev.rawBytes_regs (d : Dev) (m : Msg) : ((d.rawBytes m).2).regs = d.regs := by
  unfold Dev.rawBytes; split <;> rfl
@[simp] theorem Dev.rawBytes_pool (d : Dev) (m : Msg) : ((d.rawBytes m).2).pool = d.pool := by
  unfold Dev.rawBytes; split <;> rfl
@[simp] theorem Dev.rawBytes_dir (d : Dev) (m : Msg) : ((d.rawBytes m).2).dir = d.dir := by
  unfold Dev.rawBytes; split <;> rfl
@[simp] theorem Dev.rawBytes_sw (d : Dev) (m : Msg) : ((d.rawBytes m).2).sw = d.sw := by
  unfold Dev.rawBytes; split <;> rfl
@[simp] theorem Dev.rawBytes_svc (d : Dev) (m : Msg) : ((d.rawBytes m).2).svc = d.svc := by
  unfold Dev.rawBytes; split <;> rfl
@[simp] theorem Dev.rawBytes_port (d : Dev) (m : Msg) : ((d.rawBytes m).2).port = d.port := by
  unfold Dev.rawBytes; split <;> rfl
@[simp] theorem Dev.rawBytes_link (d : Dev) (m : Msg) : ((d.rawBytes m).2).link = d.link := by
  unfold Dev.rawBytes; split <;> rfl
@[simp] theorem Dev.rawBytes_fab (d : Dev) (m : Msg) : ((d.rawBytes m).2).fab = d.fab := by
  unfold Dev.rawBytes; split <;> rfl
@[simp] theorem Dev.rawBytes_mgmt (d : Dev) (m : Msg) : ((d.rawBytes m).2).mgmt = d.mgmt := by
  unfold Dev.rawBytes; split <;> rfl
@[simp] theorem Dev.rawBytes_sec (d : Dev) (m : Msg) : ((d.rawBytes m).2).sec = d.sec := by
  unfold Dev.rawBytes; split <;> rfl
@[simp] theorem Dev.rawBytes_pwr (d : Dev) (m : Msg) : ((d.rawBytes m).2).pwr = d.pwr := by
  unfold Dev.rawBytes; split <;> rfl
@[simp] theorem Dev.rawBytes_flt (d : Dev) (m : Msg) : ((d.rawBytes m).2).flt = d.flt := by
  unfold Dev.rawBytes; split <;> rfl
@[simp] theorem Dev.rawBytes_tel (d : Dev) (m : Msg) : ((d.rawBytes m).2).tel = d.tel := by
  unfold Dev.rawBytes; split <;> rfl
@[simp] theorem Dev.rawBytes_out (d : Dev) (m : Msg) : ((d.rawBytes m).2).out = d.out := by
  unfold Dev.rawBytes; split <;> rfl

@[simp] theorem Dev.reg_rawBytes (d : Dev) (m : Msg) (r : Reg) :
    ((d.rawBytes m).2).reg r = d.reg r := by
  unfold Dev.rawBytes; split <;> rfl
@[simp] theorem Dev.rd_rawBytes (d : Dev) (m : Msg) (r : Reg) (hi' lo' : Nat) :
    ((d.rawBytes m).2).rd r hi' lo' = d.rd r hi' lo' := Dev.rd_eq_of_reg (d.reg_rawBytes _ r) hi' lo'
@[simp] theorem Dev.bitOf_rawBytes (d : Dev) (m : Msg) (r : Reg) (i' : Nat) :
    ((d.rawBytes m).2).bitOf r i' = d.bitOf r i' := Dev.bitOf_eq_of_reg (d.reg_rawBytes _ r) i'

@[simp] theorem Dev.mirrorTake_pool (d : Dev) (s t : Nat) (m : Msg) (e : Bool) : (d.mirrorTake s t m e).pool = d.pool := by
  unfold Dev.mirrorTake; by_cases h : 256 ≤ (d.session s).queue.length <;> simp [h]
@[simp] theorem Dev.mirrorTake_dir (d : Dev) (s t : Nat) (m : Msg) (e : Bool) : (d.mirrorTake s t m e).dir = d.dir := by
  unfold Dev.mirrorTake; by_cases h : 256 ≤ (d.session s).queue.length <;> simp [h]
@[simp] theorem Dev.mirrorTake_svc (d : Dev) (s t : Nat) (m : Msg) (e : Bool) : (d.mirrorTake s t m e).svc = d.svc := by
  unfold Dev.mirrorTake; by_cases h : 256 ≤ (d.session s).queue.length <;> simp [h]
@[simp] theorem Dev.mirrorTake_port (d : Dev) (s t : Nat) (m : Msg) (e : Bool) : (d.mirrorTake s t m e).port = d.port := by
  unfold Dev.mirrorTake; by_cases h : 256 ≤ (d.session s).queue.length <;> simp [h]
@[simp] theorem Dev.mirrorTake_link (d : Dev) (s t : Nat) (m : Msg) (e : Bool) : (d.mirrorTake s t m e).link = d.link := by
  unfold Dev.mirrorTake; by_cases h : 256 ≤ (d.session s).queue.length <;> simp [h]
@[simp] theorem Dev.mirrorTake_fab (d : Dev) (s t : Nat) (m : Msg) (e : Bool) : (d.mirrorTake s t m e).fab = d.fab := by
  unfold Dev.mirrorTake; by_cases h : 256 ≤ (d.session s).queue.length <;> simp [h]
@[simp] theorem Dev.mirrorTake_mgmt (d : Dev) (s t : Nat) (m : Msg) (e : Bool) : (d.mirrorTake s t m e).mgmt = d.mgmt := by
  unfold Dev.mirrorTake; by_cases h : 256 ≤ (d.session s).queue.length <;> simp [h]
@[simp] theorem Dev.mirrorTake_sec (d : Dev) (s t : Nat) (m : Msg) (e : Bool) : (d.mirrorTake s t m e).sec = d.sec := by
  unfold Dev.mirrorTake; by_cases h : 256 ≤ (d.session s).queue.length <;> simp [h]
@[simp] theorem Dev.mirrorTake_pwr (d : Dev) (s t : Nat) (m : Msg) (e : Bool) : (d.mirrorTake s t m e).pwr = d.pwr := by
  unfold Dev.mirrorTake; by_cases h : 256 ≤ (d.session s).queue.length <;> simp [h]
@[simp] theorem Dev.mirrorTake_tel (d : Dev) (s t : Nat) (m : Msg) (e : Bool) : (d.mirrorTake s t m e).tel = d.tel := by
  unfold Dev.mirrorTake; by_cases h : 256 ≤ (d.session s).queue.length <;> simp [h]
@[simp] theorem Dev.mirrorTake_out (d : Dev) (s t : Nat) (m : Msg) (e : Bool) : (d.mirrorTake s t m e).out = d.out := by
  unfold Dev.mirrorTake; by_cases h : 256 ≤ (d.session s).queue.length <;> simp [h]

theorem Dev.reg_mirrorTake (d : Dev) (s t : Nat) (m : Msg) (e : Bool) (r : Reg) (hs : r.side = false) :
    (d.mirrorTake s t m e).reg r = d.reg r := by
  unfold Dev.mirrorTake; by_cases h : 256 ≤ (d.session s).queue.length
  · simp [h, Dev.reg_mirrorDrop _ _ _ hs]
  · simp [h]
theorem Dev.rd_mirrorTake (d : Dev) (s t : Nat) (m : Msg) (e : Bool) (r : Reg) (hi' lo' : Nat) (hs : r.side = false) :
    (d.mirrorTake s t m e).rd r hi' lo' = d.rd r hi' lo' := Dev.rd_eq_of_reg (d.reg_mirrorTake _ _ _ _ r hs) hi' lo'
theorem Dev.bitOf_mirrorTake (d : Dev) (s t : Nat) (m : Msg) (e : Bool) (r : Reg) (i' : Nat) (hs : r.side = false) :
    (d.mirrorTake s t m e).bitOf r i' = d.bitOf r i' := Dev.bitOf_eq_of_reg (d.reg_mirrorTake _ _ _ _ r hs) i'

@[simp] theorem Dev.mirror_pool (d : Dev) (t : Option Nat) (m : Msg) (e : Bool) : (d.mirror t m e).pool = d.pool := by
  unfold Dev.mirror; split
  · rfl
  · refine foldl_frame Dev.pool _ _ ?_ d; intros; split <;> simp
@[simp] theorem Dev.mirror_dir (d : Dev) (t : Option Nat) (m : Msg) (e : Bool) : (d.mirror t m e).dir = d.dir := by
  unfold Dev.mirror; split
  · rfl
  · refine foldl_frame Dev.dir _ _ ?_ d; intros; split <;> simp
@[simp] theorem Dev.mirror_svc (d : Dev) (t : Option Nat) (m : Msg) (e : Bool) : (d.mirror t m e).svc = d.svc := by
  unfold Dev.mirror; split
  · rfl
  · refine foldl_frame Dev.svc _ _ ?_ d; intros; split <;> simp
@[simp] theorem Dev.mirror_port (d : Dev) (t : Option Nat) (m : Msg) (e : Bool) : (d.mirror t m e).port = d.port := by
  unfold Dev.mirror; split
  · rfl
  · refine foldl_frame Dev.port _ _ ?_ d; intros; split <;> simp
@[simp] theorem Dev.mirror_link (d : Dev) (t : Option Nat) (m : Msg) (e : Bool) : (d.mirror t m e).link = d.link := by
  unfold Dev.mirror; split
  · rfl
  · refine foldl_frame Dev.link _ _ ?_ d; intros; split <;> simp
@[simp] theorem Dev.mirror_fab (d : Dev) (t : Option Nat) (m : Msg) (e : Bool) : (d.mirror t m e).fab = d.fab := by
  unfold Dev.mirror; split
  · rfl
  · refine foldl_frame Dev.fab _ _ ?_ d; intros; split <;> simp
@[simp] theorem Dev.mirror_mgmt (d : Dev) (t : Option Nat) (m : Msg) (e : Bool) : (d.mirror t m e).mgmt = d.mgmt := by
  unfold Dev.mirror; split
  · rfl
  · refine foldl_frame Dev.mgmt _ _ ?_ d; intros; split <;> simp
@[simp] theorem Dev.mirror_sec (d : Dev) (t : Option Nat) (m : Msg) (e : Bool) : (d.mirror t m e).sec = d.sec := by
  unfold Dev.mirror; split
  · rfl
  · refine foldl_frame Dev.sec _ _ ?_ d; intros; split <;> simp
@[simp] theorem Dev.mirror_pwr (d : Dev) (t : Option Nat) (m : Msg) (e : Bool) : (d.mirror t m e).pwr = d.pwr := by
  unfold Dev.mirror; split
  · rfl
  · refine foldl_frame Dev.pwr _ _ ?_ d; intros; split <;> simp
@[simp] theorem Dev.mirror_tel (d : Dev) (t : Option Nat) (m : Msg) (e : Bool) : (d.mirror t m e).tel = d.tel := by
  unfold Dev.mirror; split
  · rfl
  · refine foldl_frame Dev.tel _ _ ?_ d; intros; split <;> simp
@[simp] theorem Dev.mirror_out (d : Dev) (t : Option Nat) (m : Msg) (e : Bool) : (d.mirror t m e).out = d.out := by
  unfold Dev.mirror; split
  · rfl
  · refine foldl_frame Dev.out _ _ ?_ d; intros; split <;> simp

theorem Dev.reg_mirror (d : Dev) (t : Option Nat) (m : Msg) (e : Bool) (r : Reg) (hs : r.side = false) :
    (d.mirror t m e).reg r = d.reg r := by
  unfold Dev.mirror; split
  · rfl
  · refine foldl_frame (fun d : Dev => d.reg r) _ _ ?_ d; intro d s; split
    · exact Dev.reg_mirrorTake _ _ _ _ _ _ hs
    · rfl
theorem Dev.rd_mirror (d : Dev) (t : Option Nat) (m : Msg) (e : Bool) (r : Reg) (hi' lo' : Nat) (hs : r.side = false) :
    (d.mirror t m e).rd r hi' lo' = d.rd r hi' lo' := Dev.rd_eq_of_reg (d.reg_mirror _ _ _ r hs) hi' lo'
theorem Dev.bitOf_mirror (d : Dev) (t : Option Nat) (m : Msg) (e : Bool) (r : Reg) (i' : Nat) (hs : r.side = false) :
    (d.mirror t m e).bitOf r i' = d.bitOf r i' := Dev.bitOf_eq_of_reg (d.reg_mirror _ _ _ r hs) i'

@[simp] theorem Dev.pickQuarters_regs (d : Dev) : (d.pickQuarters.2).regs = d.regs := rfl
@[simp] theorem Dev.pickQuarters_pool (d : Dev) : (d.pickQuarters.2).pool = d.pool := rfl
@[simp] theorem Dev.pickQuarters_dir (d : Dev) : (d.pickQuarters.2).dir = d.dir := rfl
@[simp] theorem Dev.pickQuarters_sw (d : Dev) : (d.pickQuarters.2).sw = d.sw := rfl
@[simp] theorem Dev.pickQuarters_svc (d : Dev) : (d.pickQuarters.2).svc = d.svc := rfl
@[simp] theorem Dev.pickQuarters_port (d : Dev) : (d.pickQuarters.2).port = d.port := rfl
@[simp] theorem Dev.pickQuarters_link (d : Dev) : (d.pickQuarters.2).link = d.link := rfl
@[simp] theorem Dev.pickQuarters_fab (d : Dev) : (d.pickQuarters.2).fab = d.fab := rfl
@[simp] theorem Dev.pickQuarters_mgmt (d : Dev) : (d.pickQuarters.2).mgmt = d.mgmt := rfl
@[simp] theorem Dev.pickQuarters_sec (d : Dev) : (d.pickQuarters.2).sec = d.sec := rfl
@[simp] theorem Dev.pickQuarters_pwr (d : Dev) : (d.pickQuarters.2).pwr = d.pwr := rfl
@[simp] theorem Dev.pickQuarters_flt (d : Dev) : (d.pickQuarters.2).flt = d.flt := rfl
@[simp] theorem Dev.pickQuarters_tel (d : Dev) : (d.pickQuarters.2).tel = d.tel := rfl
@[simp] theorem Dev.pickQuarters_out (d : Dev) : (d.pickQuarters.2).out = d.out := rfl

@[simp] theorem Dev.reg_pickQuarters (d : Dev) (r : Reg) :
    (d.pickQuarters.2).reg r = d.reg r := rfl
@[simp] theorem Dev.rd_pickQuarters (d : Dev) (r : Reg) (hi' lo' : Nat) :
    (d.pickQuarters.2).rd r hi' lo' = d.rd r hi' lo' := Dev.rd_eq_of_reg (d.reg_pickQuarters  r) hi' lo'
@[simp] theorem Dev.bitOf_pickQuarters (d : Dev) (r : Reg) (i' : Nat) :
    (d.pickQuarters.2).bitOf r i' = d.bitOf r i' := Dev.bitOf_eq_of_reg (d.reg_pickQuarters  r) i'

@[simp] theorem Dev.tag_regs (d : Dev) (m : Msg) : ((d.tag m).2).regs = d.regs := by
  unfold Dev.tag Dev.tagCredit; dsimp only; split <;> rfl
@[simp] theorem Dev.tag_pool (d : Dev) (m : Msg) : ((d.tag m).2).pool = d.pool := by
  unfold Dev.tag Dev.tagCredit; dsimp only; split <;> rfl
@[simp] theorem Dev.tag_dir (d : Dev) (m : Msg) : ((d.tag m).2).dir = d.dir := by
  unfold Dev.tag Dev.tagCredit; dsimp only; split <;> rfl
@[simp] theorem Dev.tag_svc (d : Dev) (m : Msg) : ((d.tag m).2).svc = d.svc := by
  unfold Dev.tag Dev.tagCredit; dsimp only; split <;> rfl
@[simp] theorem Dev.tag_port (d : Dev) (m : Msg) : ((d.tag m).2).port = d.port := by
  unfold Dev.tag Dev.tagCredit; dsimp only; split <;> rfl
@[simp] theorem Dev.tag_link (d : Dev) (m : Msg) : ((d.tag m).2).link = d.link := by
  unfold Dev.tag Dev.tagCredit; dsimp only; split <;> rfl
@[simp] theorem Dev.tag_fab (d : Dev) (m : Msg) : ((d.tag m).2).fab = d.fab := by
  unfold Dev.tag Dev.tagCredit; dsimp only; split <;> rfl
@[simp] theorem Dev.tag_mgmt (d : Dev) (m : Msg) : ((d.tag m).2).mgmt = d.mgmt := by
  unfold Dev.tag Dev.tagCredit; dsimp only; split <;> rfl
@[simp] theorem Dev.tag_sec (d : Dev) (m : Msg) : ((d.tag m).2).sec = d.sec := by
  unfold Dev.tag Dev.tagCredit; dsimp only; split <;> rfl
@[simp] theorem Dev.tag_pwr (d : Dev) (m : Msg) : ((d.tag m).2).pwr = d.pwr := by
  unfold Dev.tag Dev.tagCredit; dsimp only; split <;> rfl
@[simp] theorem Dev.tag_flt (d : Dev) (m : Msg) : ((d.tag m).2).flt = d.flt := by
  unfold Dev.tag Dev.tagCredit; dsimp only; split <;> rfl
@[simp] theorem Dev.tag_tel (d : Dev) (m : Msg) : ((d.tag m).2).tel = d.tel := by
  unfold Dev.tag Dev.tagCredit; dsimp only; split <;> rfl
@[simp] theorem Dev.tag_out (d : Dev) (m : Msg) : ((d.tag m).2).out = d.out := by
  unfold Dev.tag Dev.tagCredit; dsimp only; split <;> rfl
@[simp] theorem Dev.tag_free (d : Dev) (m : Msg) : ((d.tag m).2).free = d.free := by
  unfold Dev.tag Dev.tagCredit; dsimp only; split <;> rfl

@[simp] theorem Dev.reg_tag (d : Dev) (m : Msg) (r : Reg) :
    ((d.tag m).2).reg r = d.reg r := by rw [Dev.reg, Dev.tag_regs, Dev.reg]
@[simp] theorem Dev.rd_tag (d : Dev) (m : Msg) (r : Reg) (hi' lo' : Nat) :
    ((d.tag m).2).rd r hi' lo' = d.rd r hi' lo' := Dev.rd_eq_of_reg (d.reg_tag _ r) hi' lo'
@[simp] theorem Dev.bitOf_tag (d : Dev) (m : Msg) (r : Reg) (i' : Nat) :
    ((d.tag m).2).bitOf r i' = d.bitOf r i' := Dev.bitOf_eq_of_reg (d.reg_tag _ r) i'

@[simp] theorem Dev.markHeads_regs (d : Dev) (old : List Msg) (m : Msg) : (d.markHeads old m).regs = d.regs := rfl
@[simp] theorem Dev.markHeads_pool (d : Dev) (old : List Msg) (m : Msg) : (d.markHeads old m).pool = d.pool := rfl
@[simp] theorem Dev.markHeads_dir (d : Dev) (old : List Msg) (m : Msg) : (d.markHeads old m).dir = d.dir := rfl
@[simp] theorem Dev.markHeads_svc (d : Dev) (old : List Msg) (m : Msg) : (d.markHeads old m).svc = d.svc := rfl
@[simp] theorem Dev.markHeads_port (d : Dev) (old : List Msg) (m : Msg) : (d.markHeads old m).port = d.port := rfl
@[simp] theorem Dev.markHeads_link (d : Dev) (old : List Msg) (m : Msg) : (d.markHeads old m).link = d.link := rfl
@[simp] theorem Dev.markHeads_fab (d : Dev) (old : List Msg) (m : Msg) : (d.markHeads old m).fab = d.fab := rfl
@[simp] theorem Dev.markHeads_mgmt (d : Dev) (old : List Msg) (m : Msg) : (d.markHeads old m).mgmt = d.mgmt := rfl
@[simp] theorem Dev.markHeads_sec (d : Dev) (old : List Msg) (m : Msg) : (d.markHeads old m).sec = d.sec := rfl
@[simp] theorem Dev.markHeads_pwr (d : Dev) (old : List Msg) (m : Msg) : (d.markHeads old m).pwr = d.pwr := rfl
@[simp] theorem Dev.markHeads_flt (d : Dev) (old : List Msg) (m : Msg) : (d.markHeads old m).flt = d.flt := rfl
@[simp] theorem Dev.markHeads_tel (d : Dev) (old : List Msg) (m : Msg) : (d.markHeads old m).tel = d.tel := rfl
@[simp] theorem Dev.markHeads_out (d : Dev) (old : List Msg) (m : Msg) : (d.markHeads old m).out = d.out := rfl
@[simp] theorem Dev.markHeads_free (d : Dev) (old : List Msg) (m : Msg) : (d.markHeads old m).free = d.free := rfl

@[simp] theorem Dev.reg_markHeads (d : Dev) (old : List Msg) (m : Msg) (r : Reg) :
    (d.markHeads old m).reg r = d.reg r := rfl
@[simp] theorem Dev.rd_markHeads (d : Dev) (old : List Msg) (m : Msg) (r : Reg) (hi' lo' : Nat) :
    (d.markHeads old m).rd r hi' lo' = d.rd r hi' lo' := Dev.rd_eq_of_reg (d.reg_markHeads _ _ r) hi' lo'
@[simp] theorem Dev.bitOf_markHeads (d : Dev) (old : List Msg) (m : Msg) (r : Reg) (i' : Nat) :
    (d.markHeads old m).bitOf r i' = d.bitOf r i' := Dev.bitOf_eq_of_reg (d.reg_markHeads _ _ r) i'

@[simp] theorem Dev.useAside_regs (d : Dev) (e : Entity) (c : MsgClass) (n : Nat) : (d.useAside e c n).regs = d.regs := by
  unfold Dev.useAside; split
  · split <;> rfl
  · rfl
@[simp] theorem Dev.useAside_pool (d : Dev) (e : Entity) (c : MsgClass) (n : Nat) : (d.useAside e c n).pool = d.pool := by
  unfold Dev.useAside; split
  · split <;> rfl
  · rfl
@[simp] theorem Dev.useAside_dir (d : Dev) (e : Entity) (c : MsgClass) (n : Nat) : (d.useAside e c n).dir = d.dir := by
  unfold Dev.useAside; split
  · split <;> rfl
  · rfl
@[simp] theorem Dev.useAside_sw (d : Dev) (e : Entity) (c : MsgClass) (n : Nat) : (d.useAside e c n).sw = d.sw := by
  unfold Dev.useAside; split
  · split <;> rfl
  · rfl
@[simp] theorem Dev.useAside_svc (d : Dev) (e : Entity) (c : MsgClass) (n : Nat) : (d.useAside e c n).svc = d.svc := by
  unfold Dev.useAside; split
  · split <;> rfl
  · rfl
@[simp] theorem Dev.useAside_port (d : Dev) (e : Entity) (c : MsgClass) (n : Nat) : (d.useAside e c n).port = d.port := by
  unfold Dev.useAside; split
  · split <;> rfl
  · rfl
@[simp] theorem Dev.useAside_fab (d : Dev) (e : Entity) (c : MsgClass) (n : Nat) : (d.useAside e c n).fab = d.fab := by
  unfold Dev.useAside; split
  · split <;> rfl
  · rfl
@[simp] theorem Dev.useAside_mgmt (d : Dev) (e : Entity) (c : MsgClass) (n : Nat) : (d.useAside e c n).mgmt = d.mgmt := by
  unfold Dev.useAside; split
  · split <;> rfl
  · rfl
@[simp] theorem Dev.useAside_sec (d : Dev) (e : Entity) (c : MsgClass) (n : Nat) : (d.useAside e c n).sec = d.sec := by
  unfold Dev.useAside; split
  · split <;> rfl
  · rfl
@[simp] theorem Dev.useAside_pwr (d : Dev) (e : Entity) (c : MsgClass) (n : Nat) : (d.useAside e c n).pwr = d.pwr := by
  unfold Dev.useAside; split
  · split <;> rfl
  · rfl
@[simp] theorem Dev.useAside_flt (d : Dev) (e : Entity) (c : MsgClass) (n : Nat) : (d.useAside e c n).flt = d.flt := by
  unfold Dev.useAside; split
  · split <;> rfl
  · rfl
@[simp] theorem Dev.useAside_tel (d : Dev) (e : Entity) (c : MsgClass) (n : Nat) : (d.useAside e c n).tel = d.tel := by
  unfold Dev.useAside; split
  · split <;> rfl
  · rfl
@[simp] theorem Dev.useAside_out (d : Dev) (e : Entity) (c : MsgClass) (n : Nat) : (d.useAside e c n).out = d.out := by
  unfold Dev.useAside; split
  · split <;> rfl
  · rfl
@[simp] theorem Dev.useAside_free (d : Dev) (e : Entity) (c : MsgClass) (n : Nat) : (d.useAside e c n).free = d.free := by
  unfold Dev.useAside; split
  · split <;> rfl
  · rfl
@[simp] theorem Dev.reg_useAside (d : Dev) (e : Entity) (c : MsgClass) (n : Nat) (r : Reg) : (d.useAside e c n).reg r = d.reg r := by
  rw [Dev.reg, Dev.useAside_regs, Dev.reg]

@[simp] theorem Dev.store_pool (d : Dev) (m : Msg) : (d.store m).pool = d.pool := by
  unfold Dev.store; cases d.takeCells m.entity m.cls m.credit m.cells with
  | none => cases m.entity <;> rfl
  | some sh => simp
@[simp] theorem Dev.store_dir (d : Dev) (m : Msg) : (d.store m).dir = d.dir := by
  unfold Dev.store; cases d.takeCells m.entity m.cls m.credit m.cells with
  | none => cases m.entity <;> rfl
  | some sh => simp
@[simp] theorem Dev.store_svc (d : Dev) (m : Msg) : (d.store m).svc = d.svc := by
  unfold Dev.store; cases d.takeCells m.entity m.cls m.credit m.cells with
  | none => cases m.entity <;> rfl
  | some sh => simp
@[simp] theorem Dev.store_port (d : Dev) (m : Msg) : (d.store m).port = d.port := by
  unfold Dev.store; cases d.takeCells m.entity m.cls m.credit m.cells with
  | none => cases m.entity <;> rfl
  | some sh => simp
@[simp] theorem Dev.store_fab (d : Dev) (m : Msg) : (d.store m).fab = d.fab := by
  unfold Dev.store; cases d.takeCells m.entity m.cls m.credit m.cells with
  | none => cases m.entity <;> rfl
  | some sh => simp
@[simp] theorem Dev.store_mgmt (d : Dev) (m : Msg) : (d.store m).mgmt = d.mgmt := by
  unfold Dev.store; cases d.takeCells m.entity m.cls m.credit m.cells with
  | none => cases m.entity <;> rfl
  | some sh => simp
@[simp] theorem Dev.store_sec (d : Dev) (m : Msg) : (d.store m).sec = d.sec := by
  unfold Dev.store; cases d.takeCells m.entity m.cls m.credit m.cells with
  | none => cases m.entity <;> rfl
  | some sh => simp
@[simp] theorem Dev.store_pwr (d : Dev) (m : Msg) : (d.store m).pwr = d.pwr := by
  unfold Dev.store; cases d.takeCells m.entity m.cls m.credit m.cells with
  | none => cases m.entity <;> rfl
  | some sh => simp
@[simp] theorem Dev.store_flt (d : Dev) (m : Msg) : (d.store m).flt = d.flt := by
  unfold Dev.store; cases d.takeCells m.entity m.cls m.credit m.cells with
  | none => cases m.entity <;> rfl
  | some sh => simp
@[simp] theorem Dev.store_tel (d : Dev) (m : Msg) : (d.store m).tel = d.tel := by
  unfold Dev.store; cases d.takeCells m.entity m.cls m.credit m.cells with
  | none => cases m.entity <;> rfl
  | some sh => simp
@[simp] theorem Dev.store_out (d : Dev) (m : Msg) : (d.store m).out = d.out := by
  unfold Dev.store; cases d.takeCells m.entity m.cls m.credit m.cells with
  | none => cases m.entity <;> rfl
  | some sh => simp

theorem Dev.reg_store (d : Dev) (m : Msg) (r : Reg) (hw : r.show = false) :
    (d.store m).reg r = d.reg r := by
  unfold Dev.store; cases d.takeCells m.entity m.cls m.credit m.cells with
  | none => cases m.entity <;> rfl
  | some sh => rw [Dev.reg_showCells _ _ hw, Dev.reg_markHeads]; simp
theorem Dev.rd_store (d : Dev) (m : Msg) (r : Reg) (hi' lo' : Nat) (hw : r.show = false) :
    (d.store m).rd r hi' lo' = d.rd r hi' lo' := Dev.rd_eq_of_reg (d.reg_store _ r hw) hi' lo'
theorem Dev.bitOf_store (d : Dev) (m : Msg) (r : Reg) (i' : Nat) (hw : r.show = false) :
    (d.store m).bitOf r i' = d.bitOf r i' := Dev.bitOf_eq_of_reg (d.reg_store _ r hw) i'

@[simp] theorem Dev.quarterLeaves_pool (d : Dev) : (d.quarterLeaves).pool = d.pool := by
  unfold Dev.quarterLeaves; repeat' split
  all_goals rfl
@[simp] theorem Dev.quarterLeaves_dir (d : Dev) : (d.quarterLeaves).dir = d.dir := by
  unfold Dev.quarterLeaves; repeat' split
  all_goals rfl
@[simp] theorem Dev.quarterLeaves_svc (d : Dev) : (d.quarterLeaves).svc = d.svc := by
  unfold Dev.quarterLeaves; repeat' split
  all_goals rfl
@[simp] theorem Dev.quarterLeaves_port (d : Dev) : (d.quarterLeaves).port = d.port := by
  unfold Dev.quarterLeaves; repeat' split
  all_goals rfl
@[simp] theorem Dev.quarterLeaves_link (d : Dev) : (d.quarterLeaves).link = d.link := by
  unfold Dev.quarterLeaves; repeat' split
  all_goals rfl
@[simp] theorem Dev.quarterLeaves_fab (d : Dev) : (d.quarterLeaves).fab = d.fab := by
  unfold Dev.quarterLeaves; repeat' split
  all_goals rfl
@[simp] theorem Dev.quarterLeaves_mgmt (d : Dev) : (d.quarterLeaves).mgmt = d.mgmt := by
  unfold Dev.quarterLeaves; repeat' split
  all_goals rfl
@[simp] theorem Dev.quarterLeaves_sec (d : Dev) : (d.quarterLeaves).sec = d.sec := by
  unfold Dev.quarterLeaves; repeat' split
  all_goals rfl
@[simp] theorem Dev.quarterLeaves_pwr (d : Dev) : (d.quarterLeaves).pwr = d.pwr := by
  unfold Dev.quarterLeaves; repeat' split
  all_goals rfl
@[simp] theorem Dev.quarterLeaves_flt (d : Dev) : (d.quarterLeaves).flt = d.flt := by
  unfold Dev.quarterLeaves; repeat' split
  all_goals rfl
@[simp] theorem Dev.quarterLeaves_tel (d : Dev) : (d.quarterLeaves).tel = d.tel := by
  unfold Dev.quarterLeaves; repeat' split
  all_goals rfl
@[simp] theorem Dev.quarterLeaves_out (d : Dev) : (d.quarterLeaves).out = d.out := by
  unfold Dev.quarterLeaves; repeat' split
  all_goals rfl
@[simp] theorem Dev.quarterLeaves_free (d : Dev) : (d.quarterLeaves).free = d.free := by
  unfold Dev.quarterLeaves; repeat' split
  all_goals rfl

theorem Dev.reg_quarterLeaves (d : Dev) (r : Reg) (hw : r.show = false) (h : ∀ i, r ≠ .domStatus i) :
    (d.quarterLeaves).reg r = d.reg r := by
  unfold Dev.quarterLeaves; repeat' split
  · rfl
  · rw [Dev.setDomState, Dev.reg_wr_ne _ _ _ _ (h _), Dev.reg_wr_show _ _ _ _ hw rfl, Dev.reg_mk]
  · rfl
theorem Dev.rd_quarterLeaves (d : Dev) (r : Reg) (hi' lo' : Nat) (hw : r.show = false) (h : ∀ i, r ≠ .domStatus i) :
    (d.quarterLeaves).rd r hi' lo' = d.rd r hi' lo' := Dev.rd_eq_of_reg (d.reg_quarterLeaves  r hw h) hi' lo'
theorem Dev.bitOf_quarterLeaves (d : Dev) (r : Reg) (i' : Nat) (hw : r.show = false) (h : ∀ i, r ≠ .domStatus i) :
    (d.quarterLeaves).bitOf r i' = d.bitOf r i' := Dev.bitOf_eq_of_reg (d.reg_quarterLeaves  r hw h) i'

@[simp] theorem Dev.admitBlocked_pool (d : Dev) : (d.admitBlocked).pool = d.pool := by
  unfold Dev.admitBlocked; exact (foldl_frame Dev.pool _ _ (by intros; simp) _).trans rfl
@[simp] theorem Dev.admitBlocked_dir (d : Dev) : (d.admitBlocked).dir = d.dir := by
  unfold Dev.admitBlocked; exact (foldl_frame Dev.dir _ _ (by intros; simp) _).trans rfl
@[simp] theorem Dev.admitBlocked_svc (d : Dev) : (d.admitBlocked).svc = d.svc := by
  unfold Dev.admitBlocked; exact (foldl_frame Dev.svc _ _ (by intros; simp) _).trans rfl
@[simp] theorem Dev.admitBlocked_port (d : Dev) : (d.admitBlocked).port = d.port := by
  unfold Dev.admitBlocked; exact (foldl_frame Dev.port _ _ (by intros; simp) _).trans rfl
@[simp] theorem Dev.admitBlocked_fab (d : Dev) : (d.admitBlocked).fab = d.fab := by
  unfold Dev.admitBlocked; exact (foldl_frame Dev.fab _ _ (by intros; simp) _).trans rfl
@[simp] theorem Dev.admitBlocked_mgmt (d : Dev) : (d.admitBlocked).mgmt = d.mgmt := by
  unfold Dev.admitBlocked; exact (foldl_frame Dev.mgmt _ _ (by intros; simp) _).trans rfl
@[simp] theorem Dev.admitBlocked_sec (d : Dev) : (d.admitBlocked).sec = d.sec := by
  unfold Dev.admitBlocked; exact (foldl_frame Dev.sec _ _ (by intros; simp) _).trans rfl
@[simp] theorem Dev.admitBlocked_pwr (d : Dev) : (d.admitBlocked).pwr = d.pwr := by
  unfold Dev.admitBlocked; exact (foldl_frame Dev.pwr _ _ (by intros; simp) _).trans rfl
@[simp] theorem Dev.admitBlocked_flt (d : Dev) : (d.admitBlocked).flt = d.flt := by
  unfold Dev.admitBlocked; exact (foldl_frame Dev.flt _ _ (by intros; simp) _).trans rfl
@[simp] theorem Dev.admitBlocked_tel (d : Dev) : (d.admitBlocked).tel = d.tel := by
  unfold Dev.admitBlocked; exact (foldl_frame Dev.tel _ _ (by intros; simp) _).trans rfl
@[simp] theorem Dev.admitBlocked_out (d : Dev) : (d.admitBlocked).out = d.out := by
  unfold Dev.admitBlocked; exact (foldl_frame Dev.out _ _ (by intros; simp) _).trans rfl

theorem Dev.reg_admitBlocked (d : Dev) (r : Reg) (hw : r.show = false) :
    (d.admitBlocked).reg r = d.reg r := by
  unfold Dev.admitBlocked; exact (foldl_frame (fun d : Dev => d.reg r) _ _ (by intro d m; exact d.reg_store m r hw) _).trans rfl
theorem Dev.rd_admitBlocked (d : Dev) (r : Reg) (hi' lo' : Nat) (hw : r.show = false) :
    (d.admitBlocked).rd r hi' lo' = d.rd r hi' lo' := Dev.rd_eq_of_reg (d.reg_admitBlocked  r hw) hi' lo'
theorem Dev.bitOf_admitBlocked (d : Dev) (r : Reg) (i' : Nat) (hw : r.show = false) :
    (d.admitBlocked).bitOf r i' = d.bitOf r i' := Dev.bitOf_eq_of_reg (d.reg_admitBlocked  r hw) i'

@[simp] theorem Dev.returnCredit_regs (d : Dev) (s : Nat) (c : MsgClass) (n : Nat) : (d.returnCredit s c n).regs = d.regs := by
  unfold Dev.returnCredit; dsimp only; split <;> simp
@[simp] theorem Dev.returnCredit_pool (d : Dev) (s : Nat) (c : MsgClass) (n : Nat) : (d.returnCredit s c n).pool = d.pool := by
  unfold Dev.returnCredit; dsimp only; split <;> simp
@[simp] theorem Dev.returnCredit_dir (d : Dev) (s : Nat) (c : MsgClass) (n : Nat) : (d.returnCredit s c n).dir = d.dir := by
  unfold Dev.returnCredit; dsimp only; split <;> simp
@[simp] theorem Dev.returnCredit_sw (d : Dev) (s : Nat) (c : MsgClass) (n : Nat) : (d.returnCredit s c n).sw = d.sw := by
  unfold Dev.returnCredit; dsimp only; split <;> simp
@[simp] theorem Dev.returnCredit_svc (d : Dev) (s : Nat) (c : MsgClass) (n : Nat) : (d.returnCredit s c n).svc = d.svc := by
  unfold Dev.returnCredit; dsimp only; split <;> simp
@[simp] theorem Dev.returnCredit_port (d : Dev) (s : Nat) (c : MsgClass) (n : Nat) : (d.returnCredit s c n).port = d.port := by
  unfold Dev.returnCredit; dsimp only; split <;> simp
@[simp] theorem Dev.returnCredit_fab (d : Dev) (s : Nat) (c : MsgClass) (n : Nat) : (d.returnCredit s c n).fab = d.fab := by
  unfold Dev.returnCredit; dsimp only; split <;> simp
@[simp] theorem Dev.returnCredit_mgmt (d : Dev) (s : Nat) (c : MsgClass) (n : Nat) : (d.returnCredit s c n).mgmt = d.mgmt := by
  unfold Dev.returnCredit; dsimp only; split <;> simp
@[simp] theorem Dev.returnCredit_sec (d : Dev) (s : Nat) (c : MsgClass) (n : Nat) : (d.returnCredit s c n).sec = d.sec := by
  unfold Dev.returnCredit; dsimp only; split <;> simp
@[simp] theorem Dev.returnCredit_pwr (d : Dev) (s : Nat) (c : MsgClass) (n : Nat) : (d.returnCredit s c n).pwr = d.pwr := by
  unfold Dev.returnCredit; dsimp only; split <;> simp
@[simp] theorem Dev.returnCredit_flt (d : Dev) (s : Nat) (c : MsgClass) (n : Nat) : (d.returnCredit s c n).flt = d.flt := by
  unfold Dev.returnCredit; dsimp only; split <;> simp
@[simp] theorem Dev.returnCredit_tel (d : Dev) (s : Nat) (c : MsgClass) (n : Nat) : (d.returnCredit s c n).tel = d.tel := by
  unfold Dev.returnCredit; dsimp only; split <;> simp
@[simp] theorem Dev.returnCredit_free (d : Dev) (s : Nat) (c : MsgClass) (n : Nat) : (d.returnCredit s c n).free = d.free := by
  unfold Dev.returnCredit; dsimp only; split <;> simp

@[simp] theorem Dev.reg_returnCredit (d : Dev) (s : Nat) (c : MsgClass) (n : Nat) (r : Reg) :
    (d.returnCredit s c n).reg r = d.reg r := by
  unfold Dev.returnCredit; dsimp only; split <;> simp
@[simp] theorem Dev.rd_returnCredit (d : Dev) (s : Nat) (c : MsgClass) (n : Nat) (r : Reg) (hi' lo' : Nat) :
    (d.returnCredit s c n).rd r hi' lo' = d.rd r hi' lo' := Dev.rd_eq_of_reg (d.reg_returnCredit _ _ _ r) hi' lo'
@[simp] theorem Dev.bitOf_returnCredit (d : Dev) (s : Nat) (c : MsgClass) (n : Nat) (r : Reg) (i' : Nat) :
    (d.returnCredit s c n).bitOf r i' = d.bitOf r i' := Dev.bitOf_eq_of_reg (d.reg_returnCredit _ _ _ r) i'

@[simp] theorem Dev.cellsBack_regs (d : Dev) (m : Msg) : (d.cellsBack m).regs = d.regs := by
  unfold Dev.cellsBack; repeat' split
  all_goals simp
@[simp] theorem Dev.cellsBack_pool (d : Dev) (m : Msg) : (d.cellsBack m).pool = d.pool := by
  unfold Dev.cellsBack; repeat' split
  all_goals simp
@[simp] theorem Dev.cellsBack_dir (d : Dev) (m : Msg) : (d.cellsBack m).dir = d.dir := by
  unfold Dev.cellsBack; repeat' split
  all_goals simp
@[simp] theorem Dev.cellsBack_sw (d : Dev) (m : Msg) : (d.cellsBack m).sw = d.sw := by
  unfold Dev.cellsBack; repeat' split
  all_goals simp
@[simp] theorem Dev.cellsBack_svc (d : Dev) (m : Msg) : (d.cellsBack m).svc = d.svc := by
  unfold Dev.cellsBack; repeat' split
  all_goals simp
@[simp] theorem Dev.cellsBack_port (d : Dev) (m : Msg) : (d.cellsBack m).port = d.port := by
  unfold Dev.cellsBack; repeat' split
  all_goals simp
@[simp] theorem Dev.cellsBack_fab (d : Dev) (m : Msg) : (d.cellsBack m).fab = d.fab := by
  unfold Dev.cellsBack; repeat' split
  all_goals simp
@[simp] theorem Dev.cellsBack_mgmt (d : Dev) (m : Msg) : (d.cellsBack m).mgmt = d.mgmt := by
  unfold Dev.cellsBack; repeat' split
  all_goals simp
@[simp] theorem Dev.cellsBack_sec (d : Dev) (m : Msg) : (d.cellsBack m).sec = d.sec := by
  unfold Dev.cellsBack; repeat' split
  all_goals simp
@[simp] theorem Dev.cellsBack_pwr (d : Dev) (m : Msg) : (d.cellsBack m).pwr = d.pwr := by
  unfold Dev.cellsBack; repeat' split
  all_goals simp
@[simp] theorem Dev.cellsBack_flt (d : Dev) (m : Msg) : (d.cellsBack m).flt = d.flt := by
  unfold Dev.cellsBack; repeat' split
  all_goals simp
@[simp] theorem Dev.cellsBack_tel (d : Dev) (m : Msg) : (d.cellsBack m).tel = d.tel := by
  unfold Dev.cellsBack; repeat' split
  all_goals simp
@[simp] theorem Dev.cellsBack_free (d : Dev) (m : Msg) : (d.cellsBack m).free = d.free := by
  unfold Dev.cellsBack; repeat' split
  all_goals simp

@[simp] theorem Dev.reg_cellsBack (d : Dev) (m : Msg) (r : Reg) :
    (d.cellsBack m).reg r = d.reg r := by
  unfold Dev.cellsBack; repeat' split
  all_goals simp
@[simp] theorem Dev.rd_cellsBack (d : Dev) (i : Msg) (r : Reg) (hi' lo' : Nat) :
    (d.cellsBack i).rd r hi' lo' = d.rd r hi' lo' := Dev.rd_eq_of_reg (d.reg_cellsBack _ r) hi' lo'
@[simp] theorem Dev.bitOf_cellsBack (d : Dev) (i : Msg) (r : Reg) (i' : Nat) :
    (d.cellsBack i).bitOf r i' = d.bitOf r i' := Dev.bitOf_eq_of_reg (d.reg_cellsBack _ r) i'

@[simp] theorem Dev.cellsFreed_pool (d : Dev) : d.cellsFreed.pool = d.pool := by simp [Dev.cellsFreed]
@[simp] theorem Dev.cellsFreed_dir (d : Dev) : d.cellsFreed.dir = d.dir := by simp [Dev.cellsFreed]
@[simp] theorem Dev.cellsFreed_svc (d : Dev) : d.cellsFreed.svc = d.svc := by simp [Dev.cellsFreed]
@[simp] theorem Dev.cellsFreed_port (d : Dev) : d.cellsFreed.port = d.port := by simp [Dev.cellsFreed]
@[simp] theorem Dev.cellsFreed_fab (d : Dev) : d.cellsFreed.fab = d.fab := by simp [Dev.cellsFreed]
@[simp] theorem Dev.cellsFreed_mgmt (d : Dev) : d.cellsFreed.mgmt = d.mgmt := by simp [Dev.cellsFreed]
@[simp] theorem Dev.cellsFreed_sec (d : Dev) : d.cellsFreed.sec = d.sec := by simp [Dev.cellsFreed]
@[simp] theorem Dev.cellsFreed_pwr (d : Dev) : d.cellsFreed.pwr = d.pwr := by simp [Dev.cellsFreed]
@[simp] theorem Dev.cellsFreed_flt (d : Dev) : d.cellsFreed.flt = d.flt := by simp [Dev.cellsFreed]
@[simp] theorem Dev.cellsFreed_tel (d : Dev) : d.cellsFreed.tel = d.tel := by simp [Dev.cellsFreed]
@[simp] theorem Dev.cellsFreed_out (d : Dev) : d.cellsFreed.out = d.out := by simp [Dev.cellsFreed]
theorem Dev.reg_cellsFreed (d : Dev) (r : Reg) (hw : r.show = false) (h : ∀ i, r ≠ .domStatus i) : d.cellsFreed.reg r = d.reg r := by
  rw [Dev.cellsFreed, Dev.reg_admitBlocked _ _ hw, Dev.reg_showCells _ _ hw, Dev.reg_quarterLeaves _ _ hw h]

@[simp] theorem Dev.unstore_pool (d : Dev) (i : Nat) : (d.unstore i).pool = d.pool := by
  unfold Dev.unstore; dsimp only; split
  · rfl
  · split <;> simp
@[simp] theorem Dev.unstore_dir (d : Dev) (i : Nat) : (d.unstore i).dir = d.dir := by
  unfold Dev.unstore; dsimp only; split
  · rfl
  · split <;> simp
@[simp] theorem Dev.unstore_svc (d : Dev) (i : Nat) : (d.unstore i).svc = d.svc := by
  unfold Dev.unstore; dsimp only; split
  · rfl
  · split <;> simp
@[simp] theorem Dev.unstore_port (d : Dev) (i : Nat) : (d.unstore i).port = d.port := by
  unfold Dev.unstore; dsimp only; split
  · rfl
  · split <;> simp
@[simp] theorem Dev.unstore_fab (d : Dev) (i : Nat) : (d.unstore i).fab = d.fab := by
  unfold Dev.unstore; dsimp only; split
  · rfl
  · split <;> simp
@[simp] theorem Dev.unstore_mgmt (d : Dev) (i : Nat) : (d.unstore i).mgmt = d.mgmt := by
  unfold Dev.unstore; dsimp only; split
  · rfl
  · split <;> simp
@[simp] theorem Dev.unstore_sec (d : Dev) (i : Nat) : (d.unstore i).sec = d.sec := by
  unfold Dev.unstore; dsimp only; split
  · rfl
  · split <;> simp
@[simp] theorem Dev.unstore_pwr (d : Dev) (i : Nat) : (d.unstore i).pwr = d.pwr := by
  unfold Dev.unstore; dsimp only; split
  · rfl
  · split <;> simp
@[simp] theorem Dev.unstore_flt (d : Dev) (i : Nat) : (d.unstore i).flt = d.flt := by
  unfold Dev.unstore; dsimp only; split
  · rfl
  · split <;> simp
@[simp] theorem Dev.unstore_tel (d : Dev) (i : Nat) : (d.unstore i).tel = d.tel := by
  unfold Dev.unstore; dsimp only; split
  · rfl
  · split <;> simp

theorem Dev.reg_unstore (d : Dev) (i : Nat) (r : Reg) (hw : r.show = false) (h : ∀ i, r ≠ .domStatus i) :
    (d.unstore i).reg r = d.reg r := by
  unfold Dev.unstore; dsimp only; split
  · rfl
  · rw [Dev.reg_cellsFreed _ _ hw h, Dev.reg_markHeads]; split <;> simp
theorem Dev.rd_unstore (d : Dev) (i : Nat) (r : Reg) (hi' lo' : Nat) (hw : r.show = false) (h : ∀ i, r ≠ .domStatus i) :
    (d.unstore i).rd r hi' lo' = d.rd r hi' lo' := Dev.rd_eq_of_reg (d.reg_unstore _ r hw h) hi' lo'
theorem Dev.bitOf_unstore (d : Dev) (i : Nat) (r : Reg) (i' : Nat) (hw : r.show = false) (h : ∀ i, r ≠ .domStatus i) :
    (d.unstore i).bitOf r i' = d.bitOf r i' := Dev.bitOf_eq_of_reg (d.reg_unstore _ r hw h) i'

@[simp] theorem Dev.advanceTags_regs (d : Dev) (e : Egress) (c : MsgClass) (m : Msg) : (d.advanceTags e c m).regs = d.regs := rfl
@[simp] theorem Dev.advanceTags_pool (d : Dev) (e : Egress) (c : MsgClass) (m : Msg) : (d.advanceTags e c m).pool = d.pool := rfl
@[simp] theorem Dev.advanceTags_dir (d : Dev) (e : Egress) (c : MsgClass) (m : Msg) : (d.advanceTags e c m).dir = d.dir := rfl
@[simp] theorem Dev.advanceTags_svc (d : Dev) (e : Egress) (c : MsgClass) (m : Msg) : (d.advanceTags e c m).svc = d.svc := rfl
@[simp] theorem Dev.advanceTags_port (d : Dev) (e : Egress) (c : MsgClass) (m : Msg) : (d.advanceTags e c m).port = d.port := rfl
@[simp] theorem Dev.advanceTags_link (d : Dev) (e : Egress) (c : MsgClass) (m : Msg) : (d.advanceTags e c m).link = d.link := rfl
@[simp] theorem Dev.advanceTags_fab (d : Dev) (e : Egress) (c : MsgClass) (m : Msg) : (d.advanceTags e c m).fab = d.fab := rfl
@[simp] theorem Dev.advanceTags_mgmt (d : Dev) (e : Egress) (c : MsgClass) (m : Msg) : (d.advanceTags e c m).mgmt = d.mgmt := rfl
@[simp] theorem Dev.advanceTags_sec (d : Dev) (e : Egress) (c : MsgClass) (m : Msg) : (d.advanceTags e c m).sec = d.sec := rfl
@[simp] theorem Dev.advanceTags_pwr (d : Dev) (e : Egress) (c : MsgClass) (m : Msg) : (d.advanceTags e c m).pwr = d.pwr := rfl
@[simp] theorem Dev.advanceTags_flt (d : Dev) (e : Egress) (c : MsgClass) (m : Msg) : (d.advanceTags e c m).flt = d.flt := rfl
@[simp] theorem Dev.advanceTags_tel (d : Dev) (e : Egress) (c : MsgClass) (m : Msg) : (d.advanceTags e c m).tel = d.tel := rfl
@[simp] theorem Dev.advanceTags_out (d : Dev) (e : Egress) (c : MsgClass) (m : Msg) : (d.advanceTags e c m).out = d.out := rfl
@[simp] theorem Dev.advanceTags_free (d : Dev) (e : Egress) (c : MsgClass) (m : Msg) : (d.advanceTags e c m).free = d.free := rfl

@[simp] theorem Dev.reg_advanceTags (d : Dev) (e : Egress) (c : MsgClass) (m : Msg) (r : Reg) :
    (d.advanceTags e c m).reg r = d.reg r := rfl
@[simp] theorem Dev.rd_advanceTags (d : Dev) (e : Egress) (c : MsgClass) (m : Msg) (r : Reg) (hi' lo' : Nat) :
    (d.advanceTags e c m).rd r hi' lo' = d.rd r hi' lo' := Dev.rd_eq_of_reg (d.reg_advanceTags _ _ _ r) hi' lo'
@[simp] theorem Dev.bitOf_advanceTags (d : Dev) (e : Egress) (c : MsgClass) (m : Msg) (r : Reg) (i' : Nat) :
    (d.advanceTags e c m).bitOf r i' = d.bitOf r i' := Dev.bitOf_eq_of_reg (d.reg_advanceTags _ _ _ r) i'

@[simp] theorem Dev.countEgress_pool (d : Dev) (e : Egress) (n : Nat) : (d.countEgress e n).pool = d.pool := by
  unfold Dev.countEgress; split <;> simp
@[simp] theorem Dev.countEgress_dir (d : Dev) (e : Egress) (n : Nat) : (d.countEgress e n).dir = d.dir := by
  unfold Dev.countEgress; split <;> simp
@[simp] theorem Dev.countEgress_sw (d : Dev) (e : Egress) (n : Nat) : (d.countEgress e n).sw = d.sw := by
  unfold Dev.countEgress; split <;> simp
@[simp] theorem Dev.countEgress_svc (d : Dev) (e : Egress) (n : Nat) : (d.countEgress e n).svc = d.svc := by
  unfold Dev.countEgress; split <;> simp
@[simp] theorem Dev.countEgress_port (d : Dev) (e : Egress) (n : Nat) : (d.countEgress e n).port = d.port := by
  unfold Dev.countEgress; split <;> simp
@[simp] theorem Dev.countEgress_link (d : Dev) (e : Egress) (n : Nat) : (d.countEgress e n).link = d.link := by
  unfold Dev.countEgress; split <;> simp
@[simp] theorem Dev.countEgress_fab (d : Dev) (e : Egress) (n : Nat) : (d.countEgress e n).fab = d.fab := by
  unfold Dev.countEgress; split <;> simp
@[simp] theorem Dev.countEgress_mgmt (d : Dev) (e : Egress) (n : Nat) : (d.countEgress e n).mgmt = d.mgmt := by
  unfold Dev.countEgress; split <;> simp
@[simp] theorem Dev.countEgress_sec (d : Dev) (e : Egress) (n : Nat) : (d.countEgress e n).sec = d.sec := by
  unfold Dev.countEgress; split <;> simp
@[simp] theorem Dev.countEgress_pwr (d : Dev) (e : Egress) (n : Nat) : (d.countEgress e n).pwr = d.pwr := by
  unfold Dev.countEgress; split <;> simp
@[simp] theorem Dev.countEgress_tel (d : Dev) (e : Egress) (n : Nat) : (d.countEgress e n).tel = d.tel := by
  unfold Dev.countEgress; split <;> simp
@[simp] theorem Dev.countEgress_out (d : Dev) (e : Egress) (n : Nat) : (d.countEgress e n).out = d.out := by
  unfold Dev.countEgress; split <;> simp
@[simp] theorem Dev.countEgress_free (d : Dev) (e : Egress) (n : Nat) : (d.countEgress e n).free = d.free := by
  unfold Dev.countEgress; split <;> simp

theorem Dev.reg_countEgress (d : Dev) (e : Egress) (n : Nat) (r : Reg) (hs : r.side = false) :
    (d.countEgress e n).reg r = d.reg r := by
  unfold Dev.countEgress; split
  · exact Dev.reg_count _ _ _ _ _ hs
  · rfl
theorem Dev.rd_countEgress (d : Dev) (e : Egress) (n : Nat) (r : Reg) (hi' lo' : Nat) (hs : r.side = false) :
    (d.countEgress e n).rd r hi' lo' = d.rd r hi' lo' := Dev.rd_eq_of_reg (d.reg_countEgress _ _ r hs) hi' lo'
theorem Dev.bitOf_countEgress (d : Dev) (e : Egress) (n : Nat) (r : Reg) (i' : Nat) (hs : r.side = false) :
    (d.countEgress e n).bitOf r i' = d.bitOf r i' := Dev.bitOf_eq_of_reg (d.reg_countEgress _ _ r hs) i'

@[simp] theorem Dev.mirrorTake_sw_msgs (d : Dev) (s t : Nat) (m : Msg) (e : Bool) : (d.mirrorTake s t m e).sw.msgs = d.sw.msgs := by
  unfold Dev.mirrorTake; by_cases h : 256 ≤ (d.session s).queue.length <;> simp [h, Dev.mirrorDrop, Dev.setSession]
@[simp] theorem Dev.mirror_sw_msgs (d : Dev) (t : Option Nat) (m : Msg) (e : Bool) : (d.mirror t m e).sw.msgs = d.sw.msgs := by
  unfold Dev.mirror; split
  · rfl
  · refine foldl_frame (fun d : Dev => d.sw.msgs) _ _ ?_ d; intros; split <;> simp
@[simp] theorem Dev.mirrorTake_sw_blocked (d : Dev) (s t : Nat) (m : Msg) (e : Bool) : (d.mirrorTake s t m e).sw.blocked = d.sw.blocked := by
  unfold Dev.mirrorTake; by_cases h : 256 ≤ (d.session s).queue.length <;> simp [h, Dev.mirrorDrop, Dev.setSession]
@[simp] theorem Dev.mirror_sw_blocked (d : Dev) (t : Option Nat) (m : Msg) (e : Bool) : (d.mirror t m e).sw.blocked = d.sw.blocked := by
  unfold Dev.mirror; split
  · rfl
  · refine foldl_frame (fun d : Dev => d.sw.blocked) _ _ ?_ d; intros; split <;> simp
@[simp] theorem Dev.mirrorTake_sw_vtime (d : Dev) (s t : Nat) (m : Msg) (e : Bool) : (d.mirrorTake s t m e).sw.vtime = d.sw.vtime := by
  unfold Dev.mirrorTake; by_cases h : 256 ≤ (d.session s).queue.length <;> simp [h, Dev.mirrorDrop, Dev.setSession]
@[simp] theorem Dev.mirror_sw_vtime (d : Dev) (t : Option Nat) (m : Msg) (e : Bool) : (d.mirror t m e).sw.vtime = d.sw.vtime := by
  unfold Dev.mirror; split
  · rfl
  · refine foldl_frame (fun d : Dev => d.sw.vtime) _ _ ?_ d; intros; split <;> simp
@[simp] theorem Dev.mirrorTake_sw_flast (d : Dev) (s t : Nat) (m : Msg) (e : Bool) : (d.mirrorTake s t m e).sw.flast = d.sw.flast := by
  unfold Dev.mirrorTake; by_cases h : 256 ≤ (d.session s).queue.length <;> simp [h, Dev.mirrorDrop, Dev.setSession]
@[simp] theorem Dev.mirror_sw_flast (d : Dev) (t : Option Nat) (m : Msg) (e : Bool) : (d.mirror t m e).sw.flast = d.sw.flast := by
  unfold Dev.mirror; split
  · rfl
  · refine foldl_frame (fun d : Dev => d.sw.flast) _ _ ?_ d; intros; split <;> simp
@[simp] theorem Dev.mirrorTake_sw_buckets (d : Dev) (s t : Nat) (m : Msg) (e : Bool) : (d.mirrorTake s t m e).sw.buckets = d.sw.buckets := by
  unfold Dev.mirrorTake; by_cases h : 256 ≤ (d.session s).queue.length <;> simp [h, Dev.mirrorDrop, Dev.setSession]
@[simp] theorem Dev.mirror_sw_buckets (d : Dev) (t : Option Nat) (m : Msg) (e : Bool) : (d.mirror t m e).sw.buckets = d.sw.buckets := by
  unfold Dev.mirror; split
  · rfl
  · refine foldl_frame (fun d : Dev => d.sw.buckets) _ _ ?_ d; intros; split <;> simp
@[simp] theorem Dev.mirrorTake_sw_gates (d : Dev) (s t : Nat) (m : Msg) (e : Bool) : (d.mirrorTake s t m e).sw.gates = d.sw.gates := by
  unfold Dev.mirrorTake; by_cases h : 256 ≤ (d.session s).queue.length <;> simp [h, Dev.mirrorDrop, Dev.setSession]
@[simp] theorem Dev.mirror_sw_gates (d : Dev) (t : Option Nat) (m : Msg) (e : Bool) : (d.mirror t m e).sw.gates = d.sw.gates := by
  unfold Dev.mirror; split
  · rfl
  · refine foldl_frame (fun d : Dev => d.sw.gates) _ _ ?_ d; intros; split <;> simp
@[simp] theorem Dev.mirrorTake_sw_lastWait (d : Dev) (s t : Nat) (m : Msg) (e : Bool) : (d.mirrorTake s t m e).sw.lastWait = d.sw.lastWait := by
  unfold Dev.mirrorTake; by_cases h : 256 ≤ (d.session s).queue.length <;> simp [h, Dev.mirrorDrop, Dev.setSession]
@[simp] theorem Dev.mirror_sw_lastWait (d : Dev) (t : Option Nat) (m : Msg) (e : Bool) : (d.mirror t m e).sw.lastWait = d.sw.lastWait := by
  unfold Dev.mirror; split
  · rfl
  · refine foldl_frame (fun d : Dev => d.sw.lastWait) _ _ ?_ d; intros; split <;> simp
@[simp] theorem Dev.mirrorTake_sw_headAt (d : Dev) (s t : Nat) (m : Msg) (e : Bool) : (d.mirrorTake s t m e).sw.headAt = d.sw.headAt := by
  unfold Dev.mirrorTake; by_cases h : 256 ≤ (d.session s).queue.length <;> simp [h, Dev.mirrorDrop, Dev.setSession]
@[simp] theorem Dev.mirror_sw_headAt (d : Dev) (t : Option Nat) (m : Msg) (e : Bool) : (d.mirror t m e).sw.headAt = d.sw.headAt := by
  unfold Dev.mirror; split
  · rfl
  · refine foldl_frame (fun d : Dev => d.sw.headAt) _ _ ?_ d; intros; split <;> simp
@[simp] theorem Dev.mirrorTake_sw_napping (d : Dev) (s t : Nat) (m : Msg) (e : Bool) : (d.mirrorTake s t m e).sw.napping = d.sw.napping := by
  unfold Dev.mirrorTake; by_cases h : 256 ≤ (d.session s).queue.length <;> simp [h, Dev.mirrorDrop, Dev.setSession]
@[simp] theorem Dev.mirror_sw_napping (d : Dev) (t : Option Nat) (m : Msg) (e : Bool) : (d.mirror t m e).sw.napping = d.sw.napping := by
  unfold Dev.mirror; split
  · rfl
  · refine foldl_frame (fun d : Dev => d.sw.napping) _ _ ?_ d; intros; split <;> simp
@[simp] theorem Dev.mirrorTake_sw_leaving (d : Dev) (s t : Nat) (m : Msg) (e : Bool) : (d.mirrorTake s t m e).sw.leaving = d.sw.leaving := by
  unfold Dev.mirrorTake; by_cases h : 256 ≤ (d.session s).queue.length <;> simp [h, Dev.mirrorDrop, Dev.setSession]
@[simp] theorem Dev.mirror_sw_leaving (d : Dev) (t : Option Nat) (m : Msg) (e : Bool) : (d.mirror t m e).sw.leaving = d.sw.leaving := by
  unfold Dev.mirror; split
  · rfl
  · refine foldl_frame (fun d : Dev => d.sw.leaving) _ _ ?_ d; intros; split <;> simp
@[simp] theorem Dev.mirrorTake_sw_nextId (d : Dev) (s t : Nat) (m : Msg) (e : Bool) : (d.mirrorTake s t m e).sw.nextId = d.sw.nextId := by
  unfold Dev.mirrorTake; by_cases h : 256 ≤ (d.session s).queue.length <;> simp [h, Dev.mirrorDrop, Dev.setSession]
@[simp] theorem Dev.mirror_sw_nextId (d : Dev) (t : Option Nat) (m : Msg) (e : Bool) : (d.mirror t m e).sw.nextId = d.sw.nextId := by
  unfold Dev.mirror; split
  · rfl
  · refine foldl_frame (fun d : Dev => d.sw.nextId) _ _ ?_ d; intros; split <;> simp
@[simp] theorem Dev.countIngress_flt_log (d : Dev) (e : Entity) (c : MsgClass) : (d.countIngress e c).flt.log = d.flt.log := by
  unfold Dev.countIngress; split <;> simp
@[simp] theorem Dev.mirrorTake_flt_log (d : Dev) (s t : Nat) (m : Msg) (e : Bool) : (d.mirrorTake s t m e).flt.log = d.flt.log := by
  unfold Dev.mirrorTake; by_cases h : 256 ≤ (d.session s).queue.length <;> simp [h, Dev.mirrorDrop]
@[simp] theorem Dev.mirror_flt_log (d : Dev) (t : Option Nat) (m : Msg) (e : Bool) : (d.mirror t m e).flt.log = d.flt.log := by
  unfold Dev.mirror; split
  · rfl
  · refine foldl_frame (fun d : Dev => d.flt.log) _ _ ?_ d; intros; split <;> simp
@[simp] theorem Dev.countIngress_flt_lastLog0 (d : Dev) (e : Entity) (c : MsgClass) : (d.countIngress e c).flt.lastLog0 = d.flt.lastLog0 := by
  unfold Dev.countIngress; split <;> simp
@[simp] theorem Dev.mirrorTake_flt_lastLog0 (d : Dev) (s t : Nat) (m : Msg) (e : Bool) : (d.mirrorTake s t m e).flt.lastLog0 = d.flt.lastLog0 := by
  unfold Dev.mirrorTake; by_cases h : 256 ≤ (d.session s).queue.length <;> simp [h, Dev.mirrorDrop]
@[simp] theorem Dev.mirror_flt_lastLog0 (d : Dev) (t : Option Nat) (m : Msg) (e : Bool) : (d.mirror t m e).flt.lastLog0 = d.flt.lastLog0 := by
  unfold Dev.mirror; split
  · rfl
  · refine foldl_frame (fun d : Dev => d.flt.lastLog0) _ _ ?_ d; intros; split <;> simp
@[simp] theorem Dev.countIngress_flt_retirement (d : Dev) (e : Entity) (c : MsgClass) : (d.countIngress e c).flt.retirement = d.flt.retirement := by
  unfold Dev.countIngress; split <;> simp
@[simp] theorem Dev.mirrorTake_flt_retirement (d : Dev) (s t : Nat) (m : Msg) (e : Bool) : (d.mirrorTake s t m e).flt.retirement = d.flt.retirement := by
  unfold Dev.mirrorTake; by_cases h : 256 ≤ (d.session s).queue.length <;> simp [h, Dev.mirrorDrop]
@[simp] theorem Dev.mirror_flt_retirement (d : Dev) (t : Option Nat) (m : Msg) (e : Bool) : (d.mirror t m e).flt.retirement = d.flt.retirement := by
  unfold Dev.mirror; split
  · rfl
  · refine foldl_frame (fun d : Dev => d.flt.retirement) _ _ ?_ d; intros; split <;> simp
@[simp] theorem Dev.countIngress_flt_testDue (d : Dev) (e : Entity) (c : MsgClass) : (d.countIngress e c).flt.testDue = d.flt.testDue := by
  unfold Dev.countIngress; split <;> simp
@[simp] theorem Dev.mirrorTake_flt_testDue (d : Dev) (s t : Nat) (m : Msg) (e : Bool) : (d.mirrorTake s t m e).flt.testDue = d.flt.testDue := by
  unfold Dev.mirrorTake; by_cases h : 256 ≤ (d.session s).queue.length <;> simp [h, Dev.mirrorDrop]
@[simp] theorem Dev.mirror_flt_testDue (d : Dev) (t : Option Nat) (m : Msg) (e : Bool) : (d.mirror t m e).flt.testDue = d.flt.testDue := by
  unfold Dev.mirror; split
  · rfl
  · refine foldl_frame (fun d : Dev => d.flt.testDue) _ _ ?_ d; intros; split <;> simp
@[simp] theorem Dev.countIngress_flt_diesOut (d : Dev) (e : Entity) (c : MsgClass) : (d.countIngress e c).flt.diesOut = d.flt.diesOut := by
  unfold Dev.countIngress; split <;> simp
@[simp] theorem Dev.mirrorTake_flt_diesOut (d : Dev) (s t : Nat) (m : Msg) (e : Bool) : (d.mirrorTake s t m e).flt.diesOut = d.flt.diesOut := by
  unfold Dev.mirrorTake; by_cases h : 256 ≤ (d.session s).queue.length <;> simp [h, Dev.mirrorDrop]
@[simp] theorem Dev.mirror_flt_diesOut (d : Dev) (t : Option Nat) (m : Msg) (e : Bool) : (d.mirror t m e).flt.diesOut = d.flt.diesOut := by
  unfold Dev.mirror; split
  · rfl
  · refine foldl_frame (fun d : Dev => d.flt.diesOut) _ _ ?_ d; intros; split <;> simp
@[simp] theorem Dev.countIngress_flt_logicOut (d : Dev) (e : Entity) (c : MsgClass) : (d.countIngress e c).flt.logicOut = d.flt.logicOut := by
  unfold Dev.countIngress; split <;> simp
@[simp] theorem Dev.mirrorTake_flt_logicOut (d : Dev) (s t : Nat) (m : Msg) (e : Bool) : (d.mirrorTake s t m e).flt.logicOut = d.flt.logicOut := by
  unfold Dev.mirrorTake; by_cases h : 256 ≤ (d.session s).queue.length <;> simp [h, Dev.mirrorDrop]
@[simp] theorem Dev.mirror_flt_logicOut (d : Dev) (t : Option Nat) (m : Msg) (e : Bool) : (d.mirror t m e).flt.logicOut = d.flt.logicOut := by
  unfold Dev.mirror; split
  · rfl
  · refine foldl_frame (fun d : Dev => d.flt.logicOut) _ _ ?_ d; intros; split <;> simp
@[simp] theorem Dev.countIngress_flt_moving (d : Dev) (e : Entity) (c : MsgClass) : (d.countIngress e c).flt.moving = d.flt.moving := by
  unfold Dev.countIngress; split <;> simp
@[simp] theorem Dev.mirrorTake_flt_moving (d : Dev) (s t : Nat) (m : Msg) (e : Bool) : (d.mirrorTake s t m e).flt.moving = d.flt.moving := by
  unfold Dev.mirrorTake; by_cases h : 256 ≤ (d.session s).queue.length <;> simp [h, Dev.mirrorDrop]
@[simp] theorem Dev.mirror_flt_moving (d : Dev) (t : Option Nat) (m : Msg) (e : Bool) : (d.mirror t m e).flt.moving = d.flt.moving := by
  unfold Dev.mirror; split
  · rfl
  · refine foldl_frame (fun d : Dev => d.flt.moving) _ _ ?_ d; intros; split <;> simp
@[simp] theorem Dev.countIngress_flt_hosts (d : Dev) (e : Entity) (c : MsgClass) : (d.countIngress e c).flt.hosts = d.flt.hosts := by
  unfold Dev.countIngress; split <;> simp
@[simp] theorem Dev.mirrorTake_flt_hosts (d : Dev) (s t : Nat) (m : Msg) (e : Bool) : (d.mirrorTake s t m e).flt.hosts = d.flt.hosts := by
  unfold Dev.mirrorTake; by_cases h : 256 ≤ (d.session s).queue.length <;> simp [h, Dev.mirrorDrop]
@[simp] theorem Dev.mirror_flt_hosts (d : Dev) (t : Option Nat) (m : Msg) (e : Bool) : (d.mirror t m e).flt.hosts = d.flt.hosts := by
  unfold Dev.mirror; split
  · rfl
  · refine foldl_frame (fun d : Dev => d.flt.hosts) _ _ ?_ d; intros; split <;> simp
@[simp] theorem Dev.countIngress_flt_nmiHeld (d : Dev) (e : Entity) (c : MsgClass) : (d.countIngress e c).flt.nmiHeld = d.flt.nmiHeld := by
  unfold Dev.countIngress; split <;> simp
@[simp] theorem Dev.mirrorTake_flt_nmiHeld (d : Dev) (s t : Nat) (m : Msg) (e : Bool) : (d.mirrorTake s t m e).flt.nmiHeld = d.flt.nmiHeld := by
  unfold Dev.mirrorTake; by_cases h : 256 ≤ (d.session s).queue.length <;> simp [h, Dev.mirrorDrop]
@[simp] theorem Dev.mirror_flt_nmiHeld (d : Dev) (t : Option Nat) (m : Msg) (e : Bool) : (d.mirror t m e).flt.nmiHeld = d.flt.nmiHeld := by
  unfold Dev.mirror; split
  · rfl
  · refine foldl_frame (fun d : Dev => d.flt.nmiHeld) _ _ ?_ d; intros; split <;> simp

/-- Cells depend on the messages that hold cells, the reservations, the quarters, the retired banks and what links have set aside. -/
theorem Dev.takeCells_congr {d d' : Dev} (h1 : d.holding = d'.holding) (h2 : d.flt.retirement = d'.flt.retirement)
    (h3 : d.flt.diesOut = d'.flt.diesOut) (h4 : ∀ r : Reg, r.side = false → d.reg r = d'.reg r) (h5 : d.link = d'.link) (e : Entity)
    (c : MsgClass) (k n : Nat) : d.takeCells e c k n = d'.takeCells e c k n := by
  have hr : ∀ (r : Reg) hi lo, r.side = false → d.rd r hi lo = d'.rd r hi lo := fun r hi lo h => Dev.rd_eq_of_reg (h4 r h) hi lo
  have hq : d.quartersIn = d'.quartersIn := hr _ _ _ (by simp)
  have hc : d.cellsIn = d'.cellsIn := by
    simp only [Dev.cellsIn, hq, Dev.retiredOf, h2, h3]
  have hres : ∀ e c, d.reserved e c = d'.reserved e c := fun e c => hr _ _ _ (by cases e <;> simp [resvReg])
  have hall : ∀ r : Reg, r.side = false → d.reservedAll r = d'.reservedAll r := fun r h => by
    simp only [Dev.reservedAll, hr r _ _ h]
  have ha : d.allReserved = d'.allReserved := by
    simp only [Dev.allReserved, hall, Reg.side_prtResv, Reg.side_stlResv, Reg.side_intResv, Reg.side_mgtResv]
  have hal : ∀ e, d.alpha16 e = d'.alpha16 e := fun e => by
    cases e <;> simp [Dev.alpha16, hr]
  have hl : ∀ s, d.lrec s = d'.lrec s := fun s => by rw [Dev.lrec, Dev.lrec, h5]
  have hs : d.sharedFree = d'.sharedFree := by
    have : d.setAside = d'.setAside := funext fun s => by simp only [Dev.setAside, hl]
    rw [Dev.sharedFree, Dev.sharedFree, hc, ha, h1, this]
  have hk : d.keptFor e c k = d'.keptFor e c k := by
    cases e with
    | port p =>
      have hm : d.portMode p = d'.portMode p := hr _ _ _ (by simp)
      simp only [Dev.keptFor, h1, hm]
    | _ => rfl
  unfold Dev.takeCells
  rw [h1, hs, hk, hres, hal]
  cases e with
  | link s => simp only [hl]
  | _ => rfl

/-- A message receives its tags and nothing else, and the buffer holds what it held. -/
theorem Dev.tag_msg (d : Dev) (m : Msg) :
    (∃ f1 f2 f3, (d.tag m).1 = { m with f1 := f1, f2 := f2, f3 := f3 }) ∧ (d.tag m).2.sw.msgs = d.sw.msgs := by
  unfold Dev.tag Dev.tagCredit
  dsimp only
  split
  · exact ⟨⟨_, _, _, rfl⟩, rfl⟩
  · exact ⟨⟨_, _, m.f3, rfl⟩, rfl⟩

/-- A message for which there is room is stored, with its cells and its tags. -/
theorem Dev.store_fits (d : Dev) (m : Msg) {sh : Nat} (h : d.takeCells m.entity m.cls m.credit m.cells = some sh) :
    ∃ q f1 f2 f3, (d.store m).sw.msgs =
      d.sw.msgs ++ [{ m with fromShared := sh, quarters := q, born := d.now, f1 := f1, f2 := f2, f3 := f3 }] := by
  unfold Dev.store
  rw [h]
  obtain ⟨⟨f1, f2, f3, e⟩, e2⟩ := Dev.tag_msg (d.pickQuarters.2.useAside m.entity m.cls sh)
    { m with fromShared := sh, quarters := d.pickQuarters.1, born := d.pickQuarters.2.now }
  refine ⟨d.pickQuarters.1, f1, f2, f3, ?_⟩
  simp only [Dev.showCells, Dev.wr_sw, Dev.markHeads]
  rw [e2, e]
  simp [Dev.now]

theorem Dev.out_returnCredit (d : Dev) (s : Nat) (c : MsgClass) (n : Nat) : d.out <+: (d.returnCredit s c n).out := by
  unfold Dev.returnCredit; dsimp only; split
  · exact List.IsPrefix.trans (by simp) (Dev.out_sendBlock _ _ _)
  · simp

theorem Dev.out_cellsBack (d : Dev) (i : Msg) : d.out <+: (d.cellsBack i).out := by
  unfold Dev.cellsBack; repeat' split
  · exact Dev.out_returnCredit _ _ _ _
  all_goals simp

theorem Dev.out_unstore (d : Dev) (i : Nat) : d.out <+: (d.unstore i).out := by
  unfold Dev.unstore; dsimp only; split
  · exact List.prefix_rfl
  · rw [Dev.cellsFreed_out, Dev.markHeads_out]
    split
    · exact List.prefix_rfl
    · exact d.out_cellsBack _

theorem Dev.out_noRoute (d : Dev) (n : Nat) : (d.noRoute n).out = d.out := by
  unfold Dev.noRoute; dsimp only; split <;> simp

theorem Dev.out_foldl_emit (l : List Out) (d : Dev) : d.out <+: (l.foldl (fun d o => d.emit o) d).out := by
  induction l generalizing d with
  | nil => exact List.prefix_rfl
  | cons o r ih => exact (d.out_emit o).trans (ih _)

/-- A message that the device writes only adds to what is sent. -/
theorem Dev.out_writeOut (d : Dev) (m : Msg) : d.out <+: (d.writeOut m).out := by
  unfold Dev.writeOut
  split
  · exact Dev.out_foldl_emit _ _
  · split
    · simp
    · exact Dev.out_emit _ _

theorem Dev.out_writeLink (d : Dev) (e : Entity) (s : Nat) (ws : List Word) : d.out <+: (d.writeLink e s ws).out := by
  unfold Dev.writeLink
  split
  · exact Dev.out_writeOut _ _
  · exact List.prefix_rfl

theorem Dev.out_postOrDrop (d : Dev) (ws : List Word) : d.out <+: (d.postOrDrop ws).out := by
  unfold Dev.postOrDrop Dev.post Dev.postFrom
  cases d.routeSlot ws with
  | none => simp [Dev.out_noRoute]
  | some n =>
    cases h2 : d.linkFor n ws with
    | none => simp [h2, Dev.out_noRoute]
    | some s => simpa [h2] using d.out_writeLink _ _ _

theorem Dev.out_replyData (d : Dev) (req : HomeReq) (data : LineData) (p : Bool) (g w : Nat) (k : Bool) :
    d.out <+: (d.replyData req data p g w k).out := by
  unfold Dev.replyData; split
  · exact Dev.out_postOrDrop _ _
  · exact Dev.out_writeOut _ _
  · exact d.out_emit _

theorem Dev.out_replyDone (d : Dev) (req : HomeReq) (w : Nat) (k : Bool) : d.out <+: (d.replyDone req w k).out := by
  unfold Dev.replyDone; split
  · exact Dev.out_postOrDrop _ _
  · exact Dev.out_writeOut _ _
  · exact d.out_emit _

theorem Dev.out_failNeighbour (d : Dev) (s : Fin 16) (m : Msg) : d.out <+: (d.failNeighbour s m).out := by
  rw [Dev.failNeighbour]
  exact (List.IsPrefix.trans (by rw [Dev.endTxn_out]) (Dev.out_postOrDrop _ _))

/-- What Table SW-6 completes for a message other than a home's own access or a request to another device only adds to what is sent. -/
theorem Dev.out_completeDiscarded (d : Dev) (m : Msg) (h : ∀ op, m.kind ≠ .homeRead op ∧ m.kind ≠ .homeWrite op)
    (h2 : m.kind = .other → m.cls ≠ .req) :
    d.out <+: (d.completeDiscarded m).out := by
  cases hk : m.kind with
  | homeRead op => exact absurd hk (h op).1
  | homeWrite op => exact absurd hk (h op).2
  | agentAccess a => simp only [Dev.completeDiscarded, hk]; rw [Dev.endTxn_out]; exact d.out_emit _
  | other =>
    simp only [Dev.completeDiscarded, hk]
    split
    · rename_i hc; exact absurd hc (h2 hk)
    · exact List.prefix_rfl
  | hostMemRead =>
    cases he : m.entity with
    | port p => simp only [Dev.completeDiscarded, hk, he]; rw [Dev.endTxn_out]; exact d.out_replyData _ _ _ _ _ _
    | _ => simp only [Dev.completeDiscarded, hk, he]; exact List.prefix_rfl
  | hostMemWrite =>
    cases he : m.entity with
    | port p => simp only [Dev.completeDiscarded, hk, he]; rw [Dev.report_out, Dev.endTxn_out]; exact d.out_replyDone _ _ _
    | _ => simp only [Dev.completeDiscarded, hk, he]; exact List.prefix_rfl
  | ioNonPosted =>
    cases he : m.entity with
    | port p => simp only [Dev.completeDiscarded, hk, he]; exact d.out_emit _
    | _ => simp only [Dev.completeDiscarded, hk, he]; exact List.prefix_rfl
  | ioPosted =>
    cases he : m.entity with
    | port p => simp only [Dev.completeDiscarded, hk, he]; rw [Dev.report_out]
    | _ => simp only [Dev.completeDiscarded, hk, he]; exact List.prefix_rfl
  | neighbourRequest =>
    cases he : m.entity with
    | link s => simp only [Dev.completeDiscarded, hk, he]; exact d.out_failNeighbour _ _
    | _ => simp only [Dev.completeDiscarded, hk, he]; exact List.prefix_rfl

end Sys2Proof.Machine
end

