-- ==== Sys2Proof/Laws/Exec.lean ====
section
/-! SUPPORT. The meaning that each command is dispatched to, and what every step answers. -/

namespace Sys2Proof.Machine

theorem exec_registerWrite : ∀ who addr width v s, exec (.registerWrite who addr width v) s = execRegisterWrite who addr width v s := fun _ _ _ _ _ => rfl
theorem exec_porstBFall : ∀ s, exec (.porstBFall) s = execPorstBFall s := fun _ => rfl
theorem exec_coldResetRelease : ∀ straps found entropyOk trialStarts s, exec (.coldResetRelease straps found entropyOk trialStarts) s = execColdResetRelease straps found entropyOk trialStarts s := fun _ _ _ _ _ => rfl
theorem exec_wrstBFall : ∀ s, exec (.wrstBFall) s = execWrstBFall s := fun _ => rfl
theorem exec_wrstBRise : ∀ s, exec (.wrstBRise) s = execWrstBRise s := fun _ => rfl
theorem exec_bootTrialTimeout : ∀ s, exec (.bootTrialTimeout) s = execBootTrialTimeout s := fun _ => rfl
theorem exec_poolRequestIngress : ∀ p dpa op txn data mask poisoned s, exec (.poolRequestIngress p dpa op txn data mask poisoned) s = execPoolRequestIngress p dpa op txn data mask poisoned s := fun _ _ _ _ _ _ _ _ => rfl
theorem exec_homeReadShared : ∀ req s, exec (.homeReadShared req) s = execHomeReadShared req s := fun _ _ => rfl
theorem exec_homeReadExclusive : ∀ req s, exec (.homeReadExclusive req) s = execHomeReadExclusive req s := fun _ _ => rfl
theorem exec_homeReadCurrent : ∀ req s, exec (.homeReadCurrent req) s = execHomeReadCurrent req s := fun _ _ => rfl
theorem exec_homeWrite : ∀ req s, exec (.homeWrite req) s = execHomeWrite req s := fun _ _ => rfl
theorem exec_homePartialWrite : ∀ req s, exec (.homePartialWrite req) s = execHomePartialWrite req s := fun _ _ => rfl
theorem exec_homeWriteBack : ∀ req s, exec (.homeWriteBack req) s = execHomeWriteBack req s := fun _ _ => rfl
theorem exec_neighbourRelease : ∀ req lines s, exec (.neighbourRelease req lines) s = execNeighbourRelease req lines s := fun _ _ _ => rfl
theorem exec_takeX : ∀ req s, exec (.takeX req) s = execTakeX req s := fun _ _ => rfl
theorem exec_releaseX : ∀ who granule s, exec (.releaseX who granule) s = execReleaseX who granule s := fun _ _ _ => rfl
theorem exec_integrityRecoveryDone : ∀ granule s, exec (.integrityRecoveryDone granule) s = execIntegrityRecoveryDone granule s := fun _ _ => rfl
theorem exec_expanderReadResponse : ∀ op status s, exec (.expanderReadResponse op status) s = execExpanderReadResponse op status s := fun _ _ _ => rfl
theorem exec_expanderWriteCompletion : ∀ op s, exec (.expanderWriteCompletion op) s = execExpanderWriteCompletion op s := fun _ _ => rfl
theorem exec_expanderWriteFailure : ∀ op s, exec (.expanderWriteFailure op) s = execExpanderWriteFailure op s := fun _ _ => rfl
theorem exec_conflictEntryRetire : ∀ granule s, exec (.conflictEntryRetire granule) s = execConflictEntryRetire granule s := fun _ _ => rfl
theorem exec_grantReceived : ∀ granule s, exec (.grantReceived granule) s = execGrantReceived granule s := fun _ _ => rfl
theorem exec_ingressResend : ∀ group slice s, exec (.ingressResend group slice) s = execIngressResend group slice s := fun _ _ _ => rfl
theorem exec_passThroughRequest : ∀ host p kind credit length txn s, exec (.passThroughRequest host p kind credit length txn) s = execPassThroughRequest host p kind credit length txn s := fun _ _ _ _ _ _ _ => rfl
theorem exec_lockedRequest : ∀ p fn tag s, exec (.lockedRequest p fn tag) s = execLockedRequest p fn tag s := fun _ _ _ _ => rfl
theorem exec_configRequest : ∀ p fn tag s, exec (.configRequest p fn tag) s = execConfigRequest p fn tag s := fun _ _ _ _ => rfl
theorem exec_birspReceived : ∀ who line answer s, exec (.birspReceived who line answer) s = execBirspReceived who line answer s := fun _ _ _ _ => rfl
theorem exec_biconflict : ∀ p line s, exec (.biconflict p line) s = execBiconflict p line s := fun _ _ _ => rfl
theorem exec_bisnpTimeout : ∀ p granule s, exec (.bisnpTimeout p granule) s = execBisnpTimeout p granule s := fun _ _ _ => rfl
theorem exec_extendedBisnpTimeout : ∀ p line s, exec (.extendedBisnpTimeout p line) s = execExtendedBisnpTimeout p line s := fun _ _ _ => rfl
theorem exec_neighbourSnoopTimeout : ∀ n line s, exec (.neighbourSnoopTimeout n line) s = execNeighbourSnoopTimeout n line s := fun _ _ _ => rfl
theorem exec_neighbourSnoopAtProxy : ∀ src tag kind line s, exec (.neighbourSnoopAtProxy src tag kind line) s = execNeighbourSnoopAtProxy src tag kind line s := fun _ _ _ _ _ => rfl
theorem exec_proxyForwardRead : ∀ kind req s, exec (.proxyForwardRead kind req) s = execProxyForwardRead kind req s := fun _ _ _ => rfl
theorem exec_proxyDataReceived : ∀ words s, exec (.proxyDataReceived words) s = execProxyDataReceived words s := fun _ _ => rfl
theorem exec_victimEntryFreed : ∀ granule s, exec (.victimEntryFreed granule) s = execVictimEntryFreed granule s := fun _ _ => rfl
theorem exec_agentDeathDeclared : ∀ who cause s, exec (.agentDeathDeclared who cause) s = execAgentDeathDeclared who cause s := fun _ _ _ => rfl
theorem exec_reclaimSweepDone : ∀ who slice s, exec (.reclaimSweepDone who slice) s = execReclaimSweepDone who slice s := fun _ _ _ => rfl
theorem exec_dirBiTimeoutWrite : ∀ t v s, exec (.dirBiTimeoutWrite t v) s = execDirBiTimeoutWrite t v s := fun _ _ _ => rfl
theorem exec_ingressMessage : ∀ entity dest cls kind credit txn length cost raw s, exec (.ingressMessage entity dest cls kind credit txn length cost raw) s = execIngressMessage entity dest cls kind credit txn length cost raw s := fun _ _ _ _ _ _ _ _ _ _ => rfl
theorem exec_egressGrant : ∀ egress credits s, exec (.egressGrant egress credits) s = execEgressGrant egress credits s := fun _ _ _ => rfl
theorem exec_ageDiscard : ∀ id s, exec (.ageDiscard id) s = execAgeDiscard id s := fun _ _ => rfl
theorem exec_hubQuarterNap : ∀ q s, exec (.hubQuarterNap q) s = execHubQuarterNap q s := fun _ _ => rfl
theorem exec_hubQuarterLost : ∀ q s, exec (.hubQuarterLost q) s = execHubQuarterLost q s := fun _ _ => rfl
theorem exec_glbAgeLimitWrite : ∀ v s, exec (.glbAgeLimitWrite v) s = execGlbAgeLimitWrite v s := fun _ _ => rfl
theorem exec_peakBucketRelease : ∀ id s, exec (.peakBucketRelease id) s = execPeakBucketRelease id s := fun _ _ => rfl
theorem exec_gateIntervalEnd : ∀ egress s, exec (.gateIntervalEnd egress) s = execGateIntervalEnd egress s := fun _ _ => rfl
theorem exec_gateCycleStart : ∀ egress s, exec (.gateCycleStart egress) s = execGateCycleStart egress s := fun _ _ => rfl
theorem exec_gclSwap : ∀ egress s, exec (.gclSwap egress) s = execGclSwap egress s := fun _ _ => rfl
theorem exec_mirCtlWrite : ∀ session v s, exec (.mirCtlWrite session v) s = execMirCtlWrite session v s := fun _ _ _ => rfl
theorem exec_mirrorCellWaitExpiry : ∀ session s, exec (.mirrorCellWaitExpiry session) s = execMirrorCellWaitExpiry session s := fun _ _ => rfl
theorem exec_mirrorRecordSend : ∀ session s, exec (.mirrorRecordSend session) s = execMirrorRecordSend session s := fun _ _ => rfl
theorem exec_ringEnable : ∀ p index ring s, exec (.ringEnable p index ring) s = execRingEnable p index ring s := fun _ _ _ _ => rfl
theorem exec_ringDisable : ∀ p index ring s, exec (.ringDisable p index ring) s = execRingDisable p index ring s := fun _ _ _ _ => rfl
theorem exec_ringPollSample : ∀ slice ring s, exec (.ringPollSample slice ring) s = execRingPollSample slice ring s := fun _ _ _ => rfl
theorem exec_submissionFetched : ∀ slice ring s, exec (.submissionFetched slice ring) s = execSubmissionFetched slice ring s := fun _ _ _ => rfl
theorem exec_fencedSubmissionStart : ∀ slice ring s, exec (.fencedSubmissionStart slice ring) s = execFencedSubmissionStart slice ring s := fun _ _ _ => rfl
theorem exec_completionWrite : ∀ slice ring index s, exec (.completionWrite slice ring index) s = execCompletionWrite slice ring index s := fun _ _ _ _ => rfl
theorem exec_completionWriteAccepted : ∀ slice ring index s, exec (.completionWriteAccepted slice ring index) s = execCompletionWriteAccepted slice ring index s := fun _ _ _ _ => rfl
theorem exec_completionWriteFailed : ∀ slice ring index s, exec (.completionWriteFailed slice ring index) s = execCompletionWriteFailed slice ring index s := fun _ _ _ _ => rfl
theorem exec_cqCiWrite : ∀ p index ring v s, exec (.cqCiWrite p index ring v) s = execCqCiWrite p index ring v s := fun _ _ _ _ _ => rfl
theorem exec_flrServiceFunction : ∀ p s, exec (.flrServiceFunction p) s = execFlrServiceFunction p s := fun _ _ => rfl
theorem exec_nop : ∀ slice ring index s, exec (.nop slice ring index) s = execNop slice ring index s := fun _ _ _ _ => rfl
theorem exec_emLookup : ∀ slice ring index s, exec (.emLookup slice ring index) s = execEmLookup slice ring index s := fun _ _ _ _ => rfl
theorem exec_lpmLookup : ∀ slice ring index s, exec (.lpmLookup slice ring index) s = execLpmLookup slice ring index s := fun _ _ _ _ => rfl
theorem exec_lookupBatch : ∀ slice ring index s, exec (.lookupBatch slice ring index) s = execLookupBatch slice ring index s := fun _ _ _ _ => rfl
theorem exec_qsInit : ∀ slice ring index s, exec (.qsInit slice ring index) s = execQsInit slice ring index s := fun _ _ _ _ => rfl
theorem exec_cellPool : ∀ slice ring index s, exec (.cellPool slice ring index) s = execCellPool slice ring index s := fun _ _ _ _ => rfl
theorem exec_nodeSet : ∀ slice ring index s, exec (.nodeSet slice ring index) s = execNodeSet slice ring index s := fun _ _ _ _ => rfl
theorem exec_queueSet : ∀ slice ring index s, exec (.queueSet slice ring index) s = execQueueSet slice ring index s := fun _ _ _ _ => rfl
theorem exec_gateSet : ∀ slice ring index s, exec (.gateSet slice ring index) s = execGateSet slice ring index s := fun _ _ _ _ => rfl
theorem exec_enqueue : ∀ slice ring index s, exec (.enqueue slice ring index) s = execEnqueue slice ring index s := fun _ _ _ _ => rfl
theorem exec_enqueueCommit : ∀ slice ring index s, exec (.enqueueCommit slice ring index) s = execEnqueueCommit slice ring index s := fun _ _ _ _ => rfl
theorem exec_dequeue : ∀ slice ring index s, exec (.dequeue slice ring index) s = execDequeue slice ring index s := fun _ _ _ _ => rfl
theorem exec_dequeueCopyDone : ∀ slice ring index s, exec (.dequeueCopyDone slice ring index) s = execDequeueCopyDone slice ring index s := fun _ _ _ _ => rfl
theorem exec_queueQuery : ∀ slice ring index s, exec (.queueQuery slice ring index) s = execQueueQuery slice ring index s := fun _ _ _ _ => rfl
theorem exec_queueFlush : ∀ slice ring index s, exec (.queueFlush slice ring index) s = execQueueFlush slice ring index s := fun _ _ _ _ => rfl
theorem exec_queueAgeVisit : ∀ slice queue s, exec (.queueAgeVisit slice queue) s = execQueueAgeVisit slice queue s := fun _ _ _ => rfl
theorem exec_engineLostReexecute : ∀ slice ring index s, exec (.engineLostReexecute slice ring index) s = execEngineLostReexecute slice ring index s := fun _ _ _ _ => rfl
theorem exec_serviceImageEngineMove : ∀ e s, exec (.serviceImageEngineMove e) s = execServiceImageEngineMove e s := fun _ _ => rfl
theorem exec_quotaDrainDone : ∀ slice s, exec (.quotaDrainDone slice) s = execQuotaDrainDone slice s := fun _ _ => rfl
theorem exec_quotaDrainTimeout : ∀ slice s, exec (.quotaDrainTimeout slice) s = execQuotaDrainTimeout slice s := fun _ _ => rfl
theorem exec_dmvArm : ∀ c s, exec (.dmvArm c) s = execDmvArm c s := fun _ _ => rfl
theorem exec_dmvDisarm : ∀ c s, exec (.dmvDisarm c) s = execDmvDisarm c s := fun _ _ => rfl
theorem exec_dmvAbort : ∀ c s, exec (.dmvAbort c) s = execDmvAbort c s := fun _ _ => rfl
theorem exec_dmvAck : ∀ c s, exec (.dmvAck c) s = execDmvAck c s := fun _ _ => rfl
theorem exec_dmvHoldGranted : ∀ c s, exec (.dmvHoldGranted c) s = execDmvHoldGranted c s := fun _ _ => rfl
theorem exec_dmvBurstDone : ∀ c s, exec (.dmvBurstDone c) s = execDmvBurstDone c s := fun _ _ => rfl
theorem exec_dmvTransferComplete : ∀ c s, exec (.dmvTransferComplete c) s = execDmvTransferComplete c s := fun _ _ => rfl
theorem exec_dmvAbortDrained : ∀ c s, exec (.dmvAbortDrained c) s = execDmvAbortDrained c s := fun _ _ => rfl
theorem exec_dmvLineFailure : ∀ c offset write cause s, exec (.dmvLineFailure c offset write cause) s = execDmvLineFailure c offset write cause s := fun _ _ _ _ _ => rfl
theorem exec_dmvHaltedDrained : ∀ c s, exec (.dmvHaltedDrained c) s = execDmvHaltedDrained c s := fun _ _ => rfl
theorem exec_dmvChannelRetired : ∀ c s, exec (.dmvChannelRetired c) s = execDmvChannelRetired c s := fun _ _ => rfl
theorem exec_dirtyEnable : ∀ p index v s, exec (.dirtyEnable p index v) s = execDirtyEnable p index v s := fun _ _ _ _ => rfl
theorem exec_dirtyDisable : ∀ p index v s, exec (.dirtyDisable p index v) s = execDirtyDisable p index v s := fun _ _ _ _ => rfl
theorem exec_dirtySwap : ∀ p index v s, exec (.dirtySwap p index v) s = execDirtySwap p index v s := fun _ _ _ _ => rfl
theorem exec_dirtySwapComplete : ∀ slice s, exec (.dirtySwapComplete slice) s = execDirtySwapComplete slice s := fun _ _ => rfl
theorem exec_portStartCondition : ∀ p s, exec (.portStartCondition p) s = execPortStartCondition p s := fun _ _ => rfl
theorem exec_portPowerElapsed : ∀ p s, exec (.portPowerElapsed p) s = execPortPowerElapsed p s := fun _ _ => rfl
theorem exec_portDlUp : ∀ p rate lanes flit256 bi partnerOk s, exec (.portDlUp p rate lanes flit256 bi partnerOk) s = execPortDlUp p rate lanes flit256 bi partnerOk s := fun _ _ _ _ _ _ _ => rfl
theorem exec_portTrainTimeout : ∀ p s, exec (.portTrainTimeout p) s = execPortTrainTimeout p s := fun _ _ => rfl
theorem exec_configRetryTimeout : ∀ p s, exec (.configRetryTimeout p) s = execConfigRetryTimeout p s := fun _ _ => rfl
theorem exec_portSetupComplete : ∀ p s, exec (.portSetupComplete p) s = execPortSetupComplete p s := fun _ _ => rfl
theorem exec_poolBringUp : ∀ p enumerates cdatOk capacity commitOk s, exec (.poolBringUp p enumerates cdatOk capacity commitOk) s = execPoolBringUp p enumerates cdatOk capacity commitOk s := fun _ _ _ _ _ _ => rfl
theorem exec_removalRecognised : ∀ p s, exec (.removalRecognised p) s = execRemovalRecognised p s := fun _ _ => rfl
theorem exec_teardownComplete : ∀ p s, exec (.teardownComplete p) s = execTeardownComplete p s := fun _ _ => rfl
theorem exec_settleExpiry : ∀ p s, exec (.settleExpiry p) s = execSettleExpiry p s := fun _ _ => rfl
theorem exec_chatterDetected : ∀ p s, exec (.chatterDetected p) s = execChatterDetected p s := fun _ _ => rfl
theorem exec_pwrfltAccepted : ∀ p s, exec (.pwrfltAccepted p) s = execPwrfltAccepted p s := fun _ _ => rfl
theorem exec_sbsScan : ∀ frame s, exec (.sbsScan frame) s = execSbsScan frame s := fun _ _ => rfl
theorem exec_sbsResume : ∀ s, exec (.sbsResume) s = execSbsResume s := fun _ => rfl
theorem exec_hpQclr : ∀ p s, exec (.hpQclr p) s = execHpQclr p s := fun _ _ => rfl
theorem exec_hpFclr : ∀ p s, exec (.hpFclr p) s = execHpFclr p s := fun _ _ => rfl
theorem exec_hpRetry : ∀ p s, exec (.hpRetry p) s = execHpRetry p s := fun _ _ => rfl
theorem exec_cxlMemCompletionTimeout : ∀ op s, exec (.cxlMemCompletionTimeout op) s = execCxlMemCompletionTimeout op s := fun _ _ => rfl
theorem exec_cxlIoCompletionTimeout : ∀ p tag s, exec (.cxlIoCompletionTimeout p tag) s = execCxlIoCompletionTimeout p tag s := fun _ _ _ => rfl
theorem exec_lateMemResponse : ∀ p op s, exec (.lateMemResponse p op) s = execLateMemResponse p op s := fun _ _ _ => rfl
theorem exec_drainComplete : ∀ p s, exec (.drainComplete p) s = execDrainComplete p s := fun _ _ => rfl
theorem exec_passPowerControllerOff : ∀ host p s, exec (.passPowerControllerOff host p) s = execPassPowerControllerOff host p s := fun _ _ _ => rfl
theorem exec_passPowerControllerOn : ∀ host p s, exec (.passPowerControllerOn host p) s = execPassPowerControllerOn host p s := fun _ _ _ => rfl
theorem exec_aspmL1Entry : ∀ p s, exec (.aspmL1Entry p) s = execAspmL1Entry p s := fun _ _ => rfl
theorem exec_aspmL1Exit : ∀ p s, exec (.aspmL1Exit p) s = execAspmL1Exit p s := fun _ _ => rfl
theorem exec_stitchTrainingAttempt : ∀ link s, exec (.stitchTrainingAttempt link) s = execStitchTrainingAttempt link s := fun _ _ => rfl
theorem exec_detectPhaseEnd : ∀ link locked s, exec (.detectPhaseEnd link locked) s = execDetectPhaseEnd link locked s := fun _ _ _ => rfl
theorem exec_framePhaseEnd : ∀ link deskewed s, exec (.framePhaseEnd link deskewed) s = execFramePhaseEnd link deskewed s := fun _ _ _ => rfl
theorem exec_equalisePhaseEnd : ∀ link peerReady s, exec (.equalisePhaseEnd link peerReady) s = execEqualisePhaseEnd link peerReady s := fun _ _ _ => rfl
theorem exec_confirmWindowEnd : ∀ link errors peerQualified s, exec (.confirmWindowEnd link errors peerQualified) s = execConfirmWindowEnd link errors peerQualified s := fun _ _ _ _ => rfl
theorem exec_trainRequestReceived : ∀ link lane request preset s, exec (.trainRequestReceived link lane request preset) s = execTrainRequestReceived link lane request preset s := fun _ _ _ _ _ => rfl
theorem exec_linkupReceived : ∀ link dev peerLink limits s, exec (.linkupReceived link dev peerLink limits) s = execLinkupReceived link dev peerLink limits s := fun _ _ _ _ _ => rfl
theorem exec_stitchPacketSend : ∀ link words s, exec (.stitchPacketSend link words) s = execStitchPacketSend link words s := fun _ _ _ => rfl
theorem exec_packetReceived : ∀ link words blockError s, exec (.packetReceived link words blockError) s = execPacketReceived link words blockError s := fun _ _ _ _ => rfl
theorem exec_ackReceived : ∀ link seq s, exec (.ackReceived link seq) s = execAckReceived link seq s := fun _ _ _ => rfl
theorem exec_ackTimerExpiry : ∀ link s, exec (.ackTimerExpiry link) s = execAckTimerExpiry link s := fun _ _ => rfl
theorem exec_nakReceived : ∀ link seq s, exec (.nakReceived link seq) s = execNakReceived link seq s := fun _ _ _ => rfl
theorem exec_replayReceived : ∀ link first s, exec (.replayReceived link first) s = execReplayReceived link first s := fun _ _ _ => rfl
theorem exec_nakRepeatTimeout : ∀ link s, exec (.nakRepeatTimeout link) s = execNakRepeatTimeout link s := fun _ _ => rfl
theorem exec_replayTimeout : ∀ link s, exec (.replayTimeout link) s = execReplayTimeout link s := fun _ _ => rfl
theorem exec_creditReceived : ∀ link limits s, exec (.creditReceived link limits) s = execCreditReceived link limits s := fun _ _ _ => rfl
theorem exec_creditAdvertiseTimer : ∀ link s, exec (.creditAdvertiseTimer link) s = execCreditAdvertiseTimer link s := fun _ _ => rfl
theorem exec_widthReqReceived : ∀ link mask s, exec (.widthReqReceived link mask) s = execWidthReqReceived link mask s := fun _ _ _ => rfl
theorem exec_widthSetReceived : ∀ link mask s, exec (.widthSetReceived link mask) s = execWidthSetReceived link mask s := fun _ _ _ => rfl
theorem exec_widthReadyReceived : ∀ link mask s, exec (.widthReadyReceived link mask) s = execWidthReadyReceived link mask s := fun _ _ _ => rfl
theorem exec_widenLaneTimeout : ∀ link s, exec (.widenLaneTimeout link) s = execWidenLaneTimeout link s := fun _ _ => rfl
theorem exec_laneSignalLoss : ∀ link lane signal s, exec (.laneSignalLoss link lane signal) s = execLaneSignalLoss link lane signal s := fun _ _ _ _ => rfl
theorem exec_linkDeclaredDead : ∀ link reason s, exec (.linkDeclaredDead link reason) s = execLinkDeclaredDead link reason s := fun _ _ _ => rfl
theorem exec_takeoverReceived : ∀ carrier dead event lastAccepted s, exec (.takeoverReceived carrier dead event lastAccepted) s = execTakeoverReceived carrier dead event lastAccepted s := fun _ _ _ _ _ => rfl
theorem exec_takeoverRepeat : ∀ link s, exec (.takeoverRepeat link) s = execTakeoverRepeat link s := fun _ _ => rfl
theorem exec_linkCtlDown : ∀ link s, exec (.linkCtlDown link) s = execLinkCtlDown link s := fun _ _ => rfl
theorem exec_linkCtlRetrain : ∀ link s, exec (.linkCtlRetrain link) s = execLinkCtlRetrain link s := fun _ _ => rfl
theorem exec_widthCtlWrite : ∀ link target s, exec (.widthCtlWrite link target) s = execWidthCtlWrite link target s := fun _ _ _ => rfl
theorem exec_tollSend : ∀ s, exec (.tollSend) s = execTollSend s := fun _ => rfl
theorem exec_tollReceived : ∀ link words s, exec (.tollReceived link words) s = execTollReceived link words s := fun _ _ _ => rfl
theorem exec_tollSilence : ∀ n s, exec (.tollSilence n) s = execTollSilence n s := fun _ _ => rfl
theorem exec_knellReceived : ∀ link words s, exec (.knellReceived link words) s = execKnellReceived link words s := fun _ _ _ => rfl
theorem exec_transitMessage : ∀ link words s, exec (.transitMessage link words) s = execTransitMessage link words s := fun _ _ _ => rfl
theorem exec_granuleTakeback : ∀ n s, exec (.granuleTakeback n) s = execGranuleTakeback n s := fun _ _ => rfl
theorem exec_mgmtRequestRepeat : ∀ tag s, exec (.mgmtRequestRepeat tag) s = execMgmtRequestRepeat tag s := fun _ _ => rfl
theorem exec_mgmtReservedType : ∀ src mtype s, exec (.mgmtReservedType src mtype) s = execMgmtReservedType src mtype s := fun _ _ _ => rfl
theorem exec_importBind : ∀ src tag exportId domain coherent blocks s, exec (.importBind src tag exportId domain coherent blocks) s = execImportBind src tag exportId domain coherent blocks s := fun _ _ _ _ _ _ _ => rfl
theorem exec_importBindAck : ∀ src tag exportId status s, exec (.importBindAck src tag exportId status) s = execImportBindAck src tag exportId status s := fun _ _ _ _ _ => rfl
theorem exec_importUnmapRequest : ∀ src tag exportId s, exec (.importUnmapRequest src tag exportId) s = execImportUnmapRequest src tag exportId s := fun _ _ _ _ => rfl
theorem exec_importUnmapped : ∀ src tag exportId status s, exec (.importUnmapped src tag exportId status) s = execImportUnmapped src tag exportId status s := fun _ _ _ _ _ => rfl
theorem exec_exportNotice : ∀ src tag exportId domain coherent blocks s, exec (.exportNotice src tag exportId domain coherent blocks) s = execExportNotice src tag exportId domain coherent blocks s := fun _ _ _ _ _ _ _ => rfl
theorem exec_exportNoticeAck : ∀ src tag exportId status s, exec (.exportNoticeAck src tag exportId status) s = execExportNoticeAck src tag exportId status s := fun _ _ _ _ _ => rfl
theorem exec_importDropped : ∀ src tag exportId s, exec (.importDropped src tag exportId) s = execImportDropped src tag exportId s := fun _ _ _ _ => rfl
theorem exec_importDroppedAck : ∀ src tag exportId status s, exec (.importDroppedAck src tag exportId status) s = execImportDroppedAck src tag exportId status s := fun _ _ _ _ _ => rfl
theorem exec_exportNoticeWaitExpiry : ∀ tag s, exec (.exportNoticeWaitExpiry tag) s = execExportNoticeWaitExpiry tag s := fun _ _ => rfl
theorem exec_importBindWaitExpiry : ∀ tag s, exec (.importBindWaitExpiry tag) s = execImportBindWaitExpiry tag s := fun _ _ => rfl
theorem exec_importUnmappedWaitExpiry : ∀ tag s, exec (.importUnmappedWaitExpiry tag) s = execImportUnmappedWaitExpiry tag s := fun _ _ => rfl
theorem exec_initiateDynamicCapacityAdd : ∀ path host region tag extents s, exec (.initiateDynamicCapacityAdd path host region tag extents) s = execInitiateDynamicCapacityAdd path host region tag extents s := fun _ _ _ _ _ _ => rfl
theorem exec_addDynamicCapacityResponse : ∀ p accepted s, exec (.addDynamicCapacityResponse p accepted) s = execAddDynamicCapacityResponse p accepted s := fun _ _ _ => rfl
theorem exec_offerTimeout : ∀ p s, exec (.offerTimeout p) s = execOfferTimeout p s := fun _ _ => rfl
theorem exec_initiateDynamicCapacityRelease : ∀ path host extents s, exec (.initiateDynamicCapacityRelease path host extents) s = execInitiateDynamicCapacityRelease path host extents s := fun _ _ _ _ => rfl
theorem exec_forcedRelease : ∀ path host extents s, exec (.forcedRelease path host extents) s = execForcedRelease path host extents s := fun _ _ _ _ => rfl
theorem exec_releaseDynamicCapacity : ∀ p extents s, exec (.releaseDynamicCapacity p extents) s = execReleaseDynamicCapacity p extents s := fun _ _ _ => rfl
theorem exec_fenceStart : ∀ s, exec (.fenceStart) s = execFenceStart s := fun _ => rfl
theorem exec_fenceStepComplete : ∀ s, exec (.fenceStepComplete) s = execFenceStepComplete s := fun _ => rfl
theorem exec_keySlotRekey : ∀ slot s, exec (.keySlotRekey slot) s = execKeySlotRekey slot s := fun _ _ => rfl
theorem exec_keyvPowerLoss : ∀ s, exec (.keyvPowerLoss) s = execKeyvPowerLoss s := fun _ => rfl
theorem exec_migrationChunkCopied : ∀ block s, exec (.migrationChunkCopied block) s = execMigrationChunkCopied block s := fun _ _ => rfl
theorem exec_migrationComplete : ∀ block s, exec (.migrationComplete block) s = execMigrationComplete block s := fun _ _ => rfl
theorem exec_resyncComplete : ∀ setNo way copy s, exec (.resyncComplete setNo way copy) s = execResyncComplete setNo way copy s := fun _ _ _ _ => rfl
theorem exec_mailboxDoorbell : ∀ m s, exec (.mailboxDoorbell m) s = execMailboxDoorbell m s := fun _ _ => rfl
theorem exec_mctpRequest : ∀ eid componentCci opcode length s, exec (.mctpRequest eid componentCci opcode length) s = execMctpRequest eid componentCci opcode length s := fun _ _ _ _ _ => rfl
theorem exec_backgroundOperationEnd : ∀ path s, exec (.backgroundOperationEnd path) s = execBackgroundOperationEnd path s := fun _ _ => rfl
theorem exec_identify : ∀ p s, exec (.identify p) s = execIdentify p s := fun _ _ => rfl
theorem exec_backgroundOperationStatus : ∀ path s, exec (.backgroundOperationStatus path) s = execBackgroundOperationStatus path s := fun _ _ => rfl
theorem exec_getResponseMessageLimit : ∀ path s, exec (.getResponseMessageLimit path) s = execGetResponseMessageLimit path s := fun _ _ => rfl
theorem exec_getEventRecords : ∀ p log s, exec (.getEventRecords p log) s = execGetEventRecords p log s := fun _ _ _ => rfl
theorem exec_clearEventRecords : ∀ p log handles s, exec (.clearEventRecords p log handles) s = execClearEventRecords p log handles s := fun _ _ _ _ => rfl
theorem exec_getEventInterruptPolicy : ∀ p s, exec (.getEventInterruptPolicy p) s = execGetEventInterruptPolicy p s := fun _ _ => rfl
theorem exec_setEventInterruptPolicy : ∀ p input s, exec (.setEventInterruptPolicy p input) s = execSetEventInterruptPolicy p input s := fun _ _ _ => rfl
theorem exec_getFwInfo : ∀ p s, exec (.getFwInfo p) s = execGetFwInfo p s := fun _ _ => rfl
theorem exec_getTimestamp : ∀ p s, exec (.getTimestamp p) s = execGetTimestamp p s := fun _ _ => rfl
theorem exec_setTimestamp : ∀ p input s, exec (.setTimestamp p input) s = execSetTimestamp p input s := fun _ _ _ => rfl
theorem exec_getSupportedLogs : ∀ p s, exec (.getSupportedLogs p) s = execGetSupportedLogs p s := fun _ _ => rfl
theorem exec_getLog : ∀ p input s, exec (.getLog p input) s = execGetLog p input s := fun _ _ _ => rfl
theorem exec_identifyMemoryDevice : ∀ p s, exec (.identifyMemoryDevice p) s = execIdentifyMemoryDevice p s := fun _ _ => rfl
theorem exec_getPartitionInfo : ∀ p s, exec (.getPartitionInfo p) s = execGetPartitionInfo p s := fun _ _ => rfl
theorem exec_getHealthInfo : ∀ p s, exec (.getHealthInfo p) s = execGetHealthInfo p s := fun _ _ => rfl
theorem exec_getPoisonList : ∀ p s, exec (.getPoisonList p) s = execGetPoisonList p s := fun _ _ => rfl
theorem exec_getDynamicCapacityConfiguration : ∀ p s, exec (.getDynamicCapacityConfiguration p) s = execGetDynamicCapacityConfiguration p s := fun _ _ => rfl
theorem exec_getDynamicCapacityExtentList : ∀ p first count s, exec (.getDynamicCapacityExtentList p first count) s = execGetDynamicCapacityExtentList p first count s := fun _ _ _ _ => rfl
theorem exec_unsupportedCxlCommand : ∀ p opcode s, exec (.unsupportedCxlCommand p opcode) s = execUnsupportedCxlCommand p opcode s := fun _ _ _ => rfl
theorem exec_fmIdentify : ∀ path s, exec (.fmIdentify path) s = execFmIdentify path s := fun _ _ => rfl
theorem exec_identifySwitchDevice : ∀ path s, exec (.identifySwitchDevice path) s = execIdentifySwitchDevice path s := fun _ _ => rfl
theorem exec_getPhysicalPortState : ∀ path ports s, exec (.getPhysicalPortState path ports) s = execGetPhysicalPortState path ports s := fun _ _ _ => rfl
theorem exec_getVirtualCxlSwitchInfo : ∀ path s, exec (.getVirtualCxlSwitchInfo path) s = execGetVirtualCxlSwitchInfo path s := fun _ _ => rfl
theorem exec_getDcdInfo : ∀ path host s, exec (.getDcdInfo path host) s = execGetDcdInfo path host s := fun _ _ _ => rfl
theorem exec_getHostDcRegionConfiguration : ∀ path host s, exec (.getHostDcRegionConfiguration path host) s = execGetHostDcRegionConfiguration path host s := fun _ _ _ => rfl
theorem exec_getDcRegionExtentLists : ∀ path host first count s, exec (.getDcRegionExtentLists path host first count) s = execGetDcRegionExtentLists path host first count s := fun _ _ _ _ _ => rfl
theorem exec_unsupportedFmApiCommand : ∀ path opcode s, exec (.unsupportedFmApiCommand path opcode) s = execUnsupportedFmApiCommand path opcode s := fun _ _ _ => rfl
theorem exec_getInfo : ∀ path input s, exec (.getInfo path input) s = execGetInfo path input s := fun _ _ _ => rfl
theorem exec_regRead : ∀ path input s, exec (.regRead path input) s = execRegRead path input s := fun _ _ _ => rfl
theorem exec_blockQuery : ∀ path input s, exec (.blockQuery path input) s = execBlockQuery path input s := fun _ _ _ => rfl
theorem exec_blockMigrate : ∀ path input s, exec (.blockMigrate path input) s = execBlockMigrate path input s := fun _ _ _ => rfl
theorem exec_exportCreate : ∀ path input s, exec (.exportCreate path input) s = execExportCreate path input s := fun _ _ _ => rfl
theorem exec_exportRelease : ∀ path input s, exec (.exportRelease path input) s = execExportRelease path input s := fun _ _ _ => rfl
theorem exec_remoteMap : ∀ path input s, exec (.remoteMap path input) s = execRemoteMap path input s := fun _ _ _ => rfl
theorem exec_remoteUnmap : ∀ path input s, exec (.remoteUnmap path input) s = execRemoteUnmap path input s := fun _ _ _ => rfl
theorem exec_qosSet : ∀ path input s, exec (.qosSet path input) s = execQosSet path input s := fun _ _ _ => rfl
theorem exec_gateListSet : ∀ path input s, exec (.gateListSet path input) s = execGateListSet path input s := fun _ _ _ => rfl
theorem exec_mirrorSet : ∀ path input s, exec (.mirrorSet path input) s = execMirrorSet path input s := fun _ _ _ => rfl
theorem exec_sliceCreate : ∀ path input s, exec (.sliceCreate path input) s = execSliceCreate path input s := fun _ _ _ => rfl
theorem exec_sliceResize : ∀ path input s, exec (.sliceResize path input) s = execSliceResize path input s := fun _ _ _ => rfl
theorem exec_sliceDestroy : ∀ path input s, exec (.sliceDestroy path input) s = execSliceDestroy path input s := fun _ _ _ => rfl
theorem exec_sliceQuery : ∀ path input s, exec (.sliceQuery path input) s = execSliceQuery path input s := fun _ _ _ => rfl
theorem exec_engineAssign : ∀ path input s, exec (.engineAssign path input) s = execEngineAssign path input s := fun _ _ _ => rfl
theorem exec_portRemove : ∀ path input s, exec (.portRemove path input) s = execPortRemove path input s := fun _ _ _ => rfl
theorem exec_portRelease : ∀ path input s, exec (.portRelease path input) s = execPortRelease path input s := fun _ _ _ => rfl
theorem exec_linkSetDown : ∀ path input s, exec (.linkSetDown path input) s = execLinkSetDown path input s := fun _ _ _ => rfl
theorem exec_linkSetRetrain : ∀ path input s, exec (.linkSetRetrain path input) s = execLinkSetRetrain path input s := fun _ _ _ => rfl
theorem exec_linkSetTarget : ∀ path input s, exec (.linkSetTarget path input) s = execLinkSetTarget path input s := fun _ _ _ => rfl
theorem exec_routeSet : ∀ path input s, exec (.routeSet path input) s = execRouteSet path input s := fun _ _ _ => rfl
theorem exec_neighbourRejoin : ∀ path input s, exec (.neighbourRejoin path input) s = execNeighbourRejoin path input s := fun _ _ _ => rfl
theorem exec_logRead : ∀ path input s, exec (.logRead path input) s = execLogRead path input s := fun _ _ _ => rfl
theorem exec_logClear : ∀ path input s, exec (.logClear path input) s = execLogClear path input s := fun _ _ _ => rfl
theorem exec_fwTransferStart : ∀ path input s, exec (.fwTransferStart path input) s = execFwTransferStart path input s := fun _ _ _ => rfl
theorem exec_fwTransferData : ∀ path input s, exec (.fwTransferData path input) s = execFwTransferData path input s := fun _ _ _ => rfl
theorem exec_fwTransferEnd : ∀ path input body s, exec (.fwTransferEnd path input body) s = execFwTransferEnd path input body s := fun _ _ _ _ => rfl
theorem exec_fwTransferAbort : ∀ path input s, exec (.fwTransferAbort path input) s = execFwTransferAbort path input s := fun _ _ _ => rfl
theorem exec_fwActivateNextReset : ∀ path input s, exec (.fwActivateNextReset path input) s = execFwActivateNextReset path input s := fun _ _ _ => rfl
theorem exec_fwActivateLive : ∀ path input s, exec (.fwActivateLive path input) s = execFwActivateLive path input s := fun _ _ _ => rfl
theorem exec_liveActivationTakeover : ∀ s, exec (.liveActivationTakeover) s = execLiveActivationTakeover s := fun _ => rfl
theorem exec_liveActivationTimeout : ∀ s, exec (.liveActivationTimeout) s = execLiveActivationTimeout s := fun _ => rfl
theorem exec_fwCommit : ∀ path input s, exec (.fwCommit path input) s = execFwCommit path input s := fun _ _ _ => rfl
theorem exec_resetWarm : ∀ path input s, exec (.resetWarm path input) s = execResetWarm path input s := fun _ _ _ => rfl
theorem exec_resetTambour : ∀ path input s, exec (.resetTambour path input) s = execResetTambour path input s := fun _ _ _ => rfl
theorem exec_resetPort : ∀ path input s, exec (.resetPort path input) s = execResetPort path input s := fun _ _ _ => rfl
theorem exec_resetLink : ∀ path input s, exec (.resetLink path input) s = execResetLink path input s := fun _ _ _ => rfl
theorem exec_oobRead : ∀ addr s, exec (.oobRead addr) s = execOobRead addr s := fun _ _ => rfl
theorem exec_oobWrite : ∀ addr v s, exec (.oobWrite addr v) s = execOobWrite addr v s := fun _ _ _ => rfl
theorem exec_oobResult : ∀ s, exec (.oobResult) s = execOobResult s := fun _ => rfl
theorem exec_oobFetchComplete : ∀ block s, exec (.oobFetchComplete block) s = execOobFetchComplete block s := fun _ _ => rfl
theorem exec_oobSlotExpiry : ∀ block s, exec (.oobSlotExpiry block) s = execOobSlotExpiry block s := fun _ _ => rfl
theorem exec_acuRegionSet : ∀ path input s, exec (.acuRegionSet path input) s = execAcuRegionSet path input s := fun _ _ _ => rfl
theorem exec_acuFence : ∀ path input s, exec (.acuFence path input) s = execAcuFence path input s := fun _ _ _ => rfl
theorem exec_acuOldEpochDrained : ∀ s, exec (.acuOldEpochDrained) s = execAcuOldEpochDrained s := fun _ => rfl
theorem exec_acuViolationRead : ∀ path input s, exec (.acuViolationRead path input) s = execAcuViolationRead path input s := fun _ _ _ => rfl
theorem exec_violInfoClear : ∀ who v s, exec (.violInfoClear who v) s = execViolInfoClear who v s := fun _ _ _ => rfl
theorem exec_lifecycleSetProvisioned : ∀ path input otpOk s, exec (.lifecycleSetProvisioned path input otpOk) s = execLifecycleSetProvisioned path input otpOk s := fun _ _ _ _ => rfl
theorem exec_lifecycleSetDeployed : ∀ path input otpOk s, exec (.lifecycleSetDeployed path input otpOk) s = execLifecycleSetDeployed path input otpOk s := fun _ _ _ _ => rfl
theorem exec_lifecycleSetRma : ∀ path input sigOk otpOk s, exec (.lifecycleSetRma path input sigOk otpOk) s = execLifecycleSetRma path input sigOk otpOk s := fun _ _ _ _ _ => rfl
theorem exec_debugChallenge : ∀ path input s, exec (.debugChallenge path input) s = execDebugChallenge path input s := fun _ _ _ => rfl
theorem exec_debugUnlock : ∀ path input sigOk s, exec (.debugUnlock path input sigOk) s = execDebugUnlock path input sigOk s := fun _ _ _ _ => rfl
theorem exec_debugLock : ∀ path input s, exec (.debugLock path input) s = execDebugLock path input s := fun _ _ _ => rfl
theorem exec_challengeExpiry : ∀ s, exec (.challengeExpiry) s = execChallengeExpiry s := fun _ => rfl
theorem exec_zeroizeKeys : ∀ path input readBack s, exec (.zeroizeKeys path input readBack) s = execZeroizeKeys path input readBack s := fun _ _ _ _ => rfl
theorem exec_zeroizeFull : ∀ path input readBack s, exec (.zeroizeFull path input readBack) s = execZeroizeFull path input readBack s := fun _ _ _ _ => rfl
theorem exec_drbgHealthFailure : ∀ s, exec (.drbgHealthFailure) s = execDrbgHealthFailure s := fun _ => rfl
theorem exec_drbgStartupRetry : ∀ pass s, exec (.drbgStartupRetry pass) s = execDrbgStartupRetry pass s := fun _ _ => rfl
theorem exec_getVersion : ∀ path s, exec (.getVersion path) s = execGetVersion path s := fun _ _ => rfl
theorem exec_getCapabilities : ∀ path s, exec (.getCapabilities path) s = execGetCapabilities path s := fun _ _ => rfl
theorem exec_negotiateAlgorithms : ∀ path offersSubset s, exec (.negotiateAlgorithms path offersSubset) s = execNegotiateAlgorithms path offersSubset s := fun _ _ _ => rfl
theorem exec_getDigests : ∀ path s, exec (.getDigests path) s = execGetDigests path s := fun _ _ => rfl
theorem exec_getCertificate : ∀ path slot offset length s, exec (.getCertificate path slot offset length) s = execGetCertificate path slot offset length s := fun _ _ _ _ _ => rfl
theorem exec_challenge : ∀ path slot s, exec (.challenge path slot) s = execChallenge path slot s := fun _ _ _ => rfl
theorem exec_getMeasurements : ∀ path index signed s, exec (.getMeasurements path index signed) s = execGetMeasurements path index signed s := fun _ _ _ _ => rfl
theorem exec_keyExchange : ∀ path slot s, exec (.keyExchange path slot) s = execKeyExchange path slot s := fun _ _ _ => rfl
theorem exec_finish : ∀ path session verifies s, exec (.finish path session verifies) s = execFinish path session verifies s := fun _ _ _ _ => rfl
theorem exec_keyUpdate : ∀ path session s, exec (.keyUpdate path session) s = execKeyUpdate path session s := fun _ _ _ => rfl
theorem exec_heartbeat : ∀ path session s, exec (.heartbeat path session) s = execHeartbeat path session s := fun _ _ _ => rfl
theorem exec_endSession : ∀ path session s, exec (.endSession path session) s = execEndSession path session s := fun _ _ _ => rfl
theorem exec_ideKm : ∀ path session keySet s, exec (.ideKm path session keySet) s = execIdeKm path session keySet s := fun _ _ _ _ => rfl
theorem exec_domainDozeEntry : ∀ dom s, exec (.domainDozeEntry dom) s = execDomainDozeEntry dom s := fun _ _ => rfl
theorem exec_domainNapEntry : ∀ dom s, exec (.domainNapEntry dom) s = execDomainNapEntry dom s := fun _ _ => rfl
theorem exec_domainDeepEntry : ∀ dom s, exec (.domainDeepEntry dom) s = execDomainDeepEntry dom s := fun _ _ => rfl
theorem exec_domainWakeEvent : ∀ dom s, exec (.domainWakeEvent dom) s = execDomainWakeEvent dom s := fun _ _ => rfl
theorem exec_domainWakeComplete : ∀ dom s, exec (.domainWakeComplete dom) s = execDomainWakeComplete dom s := fun _ _ => rfl
theorem exec_breakerCurveTrip : ∀ dom segment s, exec (.breakerCurveTrip dom segment) s = execBreakerCurveTrip dom segment s := fun _ _ _ => rfl
theorem exec_breakerFastTrip : ∀ dom segment s, exec (.breakerFastTrip dom segment) s = execBreakerFastTrip dom segment s := fun _ _ _ => rfl
theorem exec_retryBackoffExpiry : ∀ dom s, exec (.retryBackoffExpiry dom) s = execRetryBackoffExpiry dom s := fun _ _ => rfl
theorem exec_rampComplete : ∀ dom s, exec (.rampComplete dom) s = execRampComplete dom s := fun _ _ => rfl
theorem exec_rampTimeout : ∀ dom s, exec (.rampTimeout dom) s = execRampTimeout dom s := fun _ _ => rfl
theorem exec_retrySequenceEnd : ∀ dom s, exec (.retrySequenceEnd dom) s = execRetrySequenceEnd dom s := fun _ _ => rfl
theorem exec_classBResidualCheck : ∀ dom high s, exec (.classBResidualCheck dom high) s = execClassBResidualCheck dom high s := fun _ _ _ => rfl
theorem exec_railOutOfWindow : ∀ rail mv s, exec (.railOutOfWindow rail mv) s = execRailOutOfWindow rail mv s := fun _ _ _ => rfl
theorem exec_railQualified : ∀ rail mv s, exec (.railQualified rail mv) s = execRailQualified rail mv s := fun _ _ _ => rfl
theorem exec_aoFeedChangeover : ∀ s, exec (.aoFeedChangeover) s = execAoFeedChangeover s := fun _ => rfl
theorem exec_aoFeedReturn : ∀ s, exec (.aoFeedReturn) s = execAoFeedReturn s := fun _ => rfl
theorem exec_aoOnlyWake : ∀ source s, exec (.aoOnlyWake source) s = execAoOnlyWake source s := fun _ _ => rfl
theorem exec_aoOnlyTimerExpiry : ∀ s, exec (.aoOnlyTimerExpiry) s = execAoOnlyTimerExpiry s := fun _ => rfl
theorem exec_sleepCtlWake : ∀ s, exec (.sleepCtlWake) s = execSleepCtlWake s := fun _ => rfl
theorem exec_aoclkLoss : ∀ s, exec (.aoclkLoss) s = execAoclkLoss s := fun _ => rfl
theorem exec_aoclkReturn : ∀ s, exec (.aoclkReturn) s = execAoclkReturn s := fun _ => rfl
theorem exec_refclkLoss : ∀ die s, exec (.refclkLoss die) s = execRefclkLoss die s := fun _ _ => rfl
theorem exec_refclkReturn : ∀ die s, exec (.refclkReturn die) s = execRefclkReturn die s := fun _ _ => rfl
theorem exec_avsStep : ∀ target acked s, exec (.avsStep target acked) s = execAvsStep target acked s := fun _ _ _ => rfl
theorem exec_powerPolicySetDomains : ∀ path input s, exec (.powerPolicySetDomains path input) s = execPowerPolicySetDomains path input s := fun _ _ _ => rfl
theorem exec_powerPolicySetCurve : ∀ path input s, exec (.powerPolicySetCurve path input) s = execPowerPolicySetCurve path input s := fun _ _ _ => rfl
theorem exec_powerPolicySetAoOnly : ∀ path input s, exec (.powerPolicySetAoOnly path input) s = execPowerPolicySetAoOnly path input s := fun _ _ _ => rfl
theorem exec_powerPolicySetAvs : ∀ path input s, exec (.powerPolicySetAvs path input) s = execPowerPolicySetAvs path input s := fun _ _ _ => rfl
theorem exec_faultSignal : ∀ n cls detail resource s, exec (.faultSignal n cls detail resource) s = execFaultSignal n cls detail resource s := fun _ _ _ _ _ => rfl
theorem exec_brokenWire : ∀ n s, exec (.brokenWire n) s = execBrokenWire n s := fun _ _ => rfl
theorem exec_selfTestResult : ∀ n resource number passed s, exec (.selfTestResult n resource number passed) s = execSelfTestResult n resource number passed s := fun _ _ _ _ _ => rfl
theorem exec_tambourLogicLost : ∀ t lasting s, exec (.tambourLogicLost t lasting) s = execTambourLogicLost t lasting s := fun _ _ _ => rfl
theorem exec_sliceMoveComplete : ∀ t s, exec (.sliceMoveComplete t) s = execSliceMoveComplete t s := fun _ _ => rfl
theorem exec_tdirLost : ∀ t s, exec (.tdirLost t) s = execTdirLost t s := fun _ _ => rfl
theorem exec_portDieLost : ∀ die s, exec (.portDieLost die) s = execPortDieLost die s := fun _ _ => rfl
theorem exec_portDieReturn : ∀ die s, exec (.portDieReturn die) s = execPortDieReturn die s := fun _ _ => rfl
theorem exec_mgtRestore : ∀ s, exec (.mgtRestore) s = execMgtRestore s := fun _ => rfl
theorem exec_carillonConfigScrub : ∀ s, exec (.carillonConfigScrub) s = execCarillonConfigScrub s := fun _ => rfl
theorem exec_faultClear : ∀ path input s, exec (.faultClear path input) s = execFaultClear path input s := fun _ _ _ => rfl
theorem exec_resourceRestore : ∀ path input passes s, exec (.resourceRestore path input passes) s = execResourceRestore path input passes s := fun _ _ _ _ => rfl
theorem exec_temperatureThreshold : ∀ die reading s, exec (.temperatureThreshold die reading) s = execTemperatureThreshold die reading s := fun _ _ _ => rfl
theorem exec_thermalTrip : ∀ die reading s, exec (.thermalTrip die reading) s = execThermalTrip die reading s := fun _ _ _ => rfl
theorem exec_counterWrap : ∀ u counter rest s, exec (.counterWrap u counter rest) s = execCounterWrap u counter rest s := fun _ _ _ _ => rfl
theorem exec_pmcCounterWrite : ∀ who u counter v s, exec (.pmcCounterWrite who u counter v) s = execPmcCounterWrite who u counter v s := fun _ _ _ _ _ => rfl
theorem exec_pmcLowHalfRead : ∀ who u counter s, exec (.pmcLowHalfRead who u counter) s = execPmcLowHalfRead who u counter s := fun _ _ _ _ => rfl
theorem exec_ftimeLowHalfRead : ∀ who s, exec (.ftimeLowHalfRead who) s = execFtimeLowHalfRead who s := fun _ _ => rfl
theorem exec_pmcFreezeWrite : ∀ who freeze s, exec (.pmcFreezeWrite who freeze) s = execPmcFreezeWrite who freeze s := fun _ _ _ => rfl
theorem exec_pmcSnap : ∀ who s, exec (.pmcSnap who) s = execPmcSnap who s := fun _ _ => rfl
theorem exec_snapshotTaken : ∀ s, exec (.snapshotTaken) s = execSnapshotTaken s := fun _ => rfl
theorem exec_tlsSample : ∀ s, exec (.tlsSample) s = execTlsSample s := fun _ => rfl
theorem exec_tlsSwap : ∀ who s, exec (.tlsSwap who) s = execTlsSwap who s := fun _ _ => rfl
theorem exec_alignRowReceived : ∀ link lanes s, exec (.alignRowReceived link lanes) s = execAlignRowReceived link lanes s := fun _ _ _ => rfl
theorem exec_controlBlockError : ∀ link lane s, exec (.controlBlockError link lane) s = execControlBlockError link lane s := fun _ _ _ => rfl
theorem exec_linkupPhaseTimeout : ∀ link s, exec (.linkupPhaseTimeout link) s = execLinkupPhaseTimeout link s := fun _ _ => rfl
theorem exec_jtagCoreControl : ∀ op s, exec (.jtagCoreControl op) s = execJtagCoreControl op s := fun _ _ => rfl
theorem exec_pmeTurnOff : ∀ p s, exec (.pmeTurnOff p) s = execPmeTurnOff p s := fun _ _ => rfl
theorem exec_portWidthOrRateChange : ∀ p rate lanes l0p s, exec (.portWidthOrRateChange p rate lanes l0p) s = execPortWidthOrRateChange p rate lanes l0p s := fun _ _ _ _ _ => rfl
theorem exec_vddAoHoldLow : ∀ s, exec (.vddAoHoldLow) s = execVddAoHoldLow s := fun _ => rfl
theorem exec_mctpControlMessage : ∀ eid s, exec (.mctpControlMessage eid) s = execMctpControlMessage eid s := fun _ _ => rfl
theorem exec_i3cDynamicAddressAssignment : ∀ bridge addr s, exec (.i3cDynamicAddressAssignment bridge addr) s = execI3cDynamicAddressAssignment bridge addr s := fun _ _ _ => rfl
theorem exec_expanderEventRecord : ∀ p kind dpa s, exec (.expanderEventRecord p kind dpa) s = execExpanderEventRecord p kind dpa s := fun _ _ _ _ => rfl

/-- A command with accesses at home slices is an effect on the device too: the command's, where its accesses get their turn, and then
that of the commands which waited for it. -/
theorem access_onDev {c : Instr} {s : State} {f : Dev → Dev} (h : exec c s = onAccess s f) :
    exec c s = onDev s fun d => (d.attempt f).2.drainAll := h

/-- Every command is an effect on the device alone. -/
theorem exec_onDev (c : Instr) (s : State) : ∃ f : Dev → Dev, exec c s = onDev s f :=
  match c with
  | .registerWrite .. => ⟨_, exec_registerWrite ..⟩
  | .porstBFall .. => ⟨_, exec_porstBFall ..⟩
  | .coldResetRelease .. => ⟨_, exec_coldResetRelease ..⟩
  | .wrstBFall .. => ⟨_, exec_wrstBFall ..⟩
  | .wrstBRise .. => ⟨_, exec_wrstBRise ..⟩
  | .bootTrialTimeout .. => ⟨_, exec_bootTrialTimeout ..⟩
  | .poolRequestIngress .. => ⟨_, exec_poolRequestIngress ..⟩
  | .homeReadShared .. => ⟨_, exec_homeReadShared ..⟩
  | .homeReadExclusive .. => ⟨_, exec_homeReadExclusive ..⟩
  | .homeReadCurrent .. => ⟨_, exec_homeReadCurrent ..⟩
  | .homeWrite .. => ⟨_, exec_homeWrite ..⟩
  | .homePartialWrite .. => ⟨_, exec_homePartialWrite ..⟩
  | .homeWriteBack .. => ⟨_, exec_homeWriteBack ..⟩
  | .neighbourRelease .. => ⟨_, exec_neighbourRelease ..⟩
  | .takeX .. => ⟨_, exec_takeX ..⟩
  | .releaseX .. => ⟨_, exec_releaseX ..⟩
  | .integrityRecoveryDone .. => ⟨_, exec_integrityRecoveryDone ..⟩
  | .expanderReadResponse .. => ⟨_, exec_expanderReadResponse ..⟩
  | .expanderWriteCompletion .. => ⟨_, exec_expanderWriteCompletion ..⟩
  | .expanderWriteFailure .. => ⟨_, exec_expanderWriteFailure ..⟩
  | .conflictEntryRetire .. => ⟨_, exec_conflictEntryRetire ..⟩
  | .grantReceived .. => ⟨_, exec_grantReceived ..⟩
  | .ingressResend .. => ⟨_, exec_ingressResend ..⟩
  | .passThroughRequest .. => ⟨_, exec_passThroughRequest ..⟩
  | .lockedRequest .. => ⟨_, exec_lockedRequest ..⟩
  | .configRequest .. => ⟨_, exec_configRequest ..⟩
  | .birspReceived .. => ⟨_, exec_birspReceived ..⟩
  | .biconflict .. => ⟨_, exec_biconflict ..⟩
  | .bisnpTimeout .. => ⟨_, exec_bisnpTimeout ..⟩
  | .extendedBisnpTimeout .. => ⟨_, exec_extendedBisnpTimeout ..⟩
  | .neighbourSnoopTimeout .. => ⟨_, exec_neighbourSnoopTimeout ..⟩
  | .neighbourSnoopAtProxy .. => ⟨_, exec_neighbourSnoopAtProxy ..⟩
  | .proxyForwardRead .. => ⟨_, exec_proxyForwardRead ..⟩
  | .proxyDataReceived .. => ⟨_, exec_proxyDataReceived ..⟩
  | .victimEntryFreed .. => ⟨_, exec_victimEntryFreed ..⟩
  | .agentDeathDeclared .. => ⟨_, exec_agentDeathDeclared ..⟩
  | .reclaimSweepDone .. => ⟨_, exec_reclaimSweepDone ..⟩
  | .dirBiTimeoutWrite .. => ⟨_, exec_dirBiTimeoutWrite ..⟩
  | .ingressMessage .. => ⟨_, exec_ingressMessage ..⟩
  | .egressGrant .. => ⟨_, exec_egressGrant ..⟩
  | .ageDiscard .. => ⟨_, exec_ageDiscard ..⟩
  | .hubQuarterNap .. => ⟨_, exec_hubQuarterNap ..⟩
  | .hubQuarterLost .. => ⟨_, exec_hubQuarterLost ..⟩
  | .glbAgeLimitWrite .. => ⟨_, exec_glbAgeLimitWrite ..⟩
  | .peakBucketRelease .. => ⟨_, exec_peakBucketRelease ..⟩
  | .gateIntervalEnd .. => ⟨_, exec_gateIntervalEnd ..⟩
  | .gateCycleStart .. => ⟨_, exec_gateCycleStart ..⟩
  | .gclSwap .. => ⟨_, exec_gclSwap ..⟩
  | .mirCtlWrite .. => ⟨_, exec_mirCtlWrite ..⟩
  | .mirrorCellWaitExpiry .. => ⟨_, exec_mirrorCellWaitExpiry ..⟩
  | .mirrorRecordSend .. => ⟨_, exec_mirrorRecordSend ..⟩
  | .ringEnable .. => ⟨_, access_onDev (exec_ringEnable ..)⟩
  | .ringDisable .. => ⟨_, exec_ringDisable ..⟩
  | .ringPollSample .. => ⟨_, exec_ringPollSample ..⟩
  | .submissionFetched .. => ⟨_, access_onDev (exec_submissionFetched ..)⟩
  | .fencedSubmissionStart .. => ⟨_, exec_fencedSubmissionStart ..⟩
  | .completionWrite .. => ⟨_, exec_completionWrite ..⟩
  | .completionWriteAccepted .. => ⟨_, access_onDev (exec_completionWriteAccepted ..)⟩
  | .completionWriteFailed .. => ⟨_, access_onDev (exec_completionWriteFailed ..)⟩
  | .cqCiWrite .. => ⟨_, exec_cqCiWrite ..⟩
  | .flrServiceFunction .. => ⟨_, exec_flrServiceFunction ..⟩
  | .nop .. => ⟨_, exec_nop ..⟩
  | .emLookup .. => ⟨_, access_onDev (exec_emLookup ..)⟩
  | .lpmLookup .. => ⟨_, access_onDev (exec_lpmLookup ..)⟩
  | .lookupBatch .. => ⟨_, access_onDev (exec_lookupBatch ..)⟩
  | .qsInit .. => ⟨_, exec_qsInit ..⟩
  | .cellPool .. => ⟨_, access_onDev (exec_cellPool ..)⟩
  | .nodeSet .. => ⟨_, access_onDev (exec_nodeSet ..)⟩
  | .queueSet .. => ⟨_, exec_queueSet ..⟩
  | .gateSet .. => ⟨_, access_onDev (exec_gateSet ..)⟩
  | .enqueue .. => ⟨_, access_onDev (exec_enqueue ..)⟩
  | .enqueueCommit .. => ⟨_, access_onDev (exec_enqueueCommit ..)⟩
  | .dequeue .. => ⟨_, access_onDev (exec_dequeue ..)⟩
  | .dequeueCopyDone .. => ⟨_, access_onDev (exec_dequeueCopyDone ..)⟩
  | .queueQuery .. => ⟨_, exec_queueQuery ..⟩
  | .queueFlush .. => ⟨_, access_onDev (exec_queueFlush ..)⟩
  | .queueAgeVisit .. => ⟨_, access_onDev (exec_queueAgeVisit ..)⟩
  | .engineLostReexecute .. => ⟨_, access_onDev (exec_engineLostReexecute ..)⟩
  | .serviceImageEngineMove .. => ⟨_, exec_serviceImageEngineMove ..⟩
  | .quotaDrainDone .. => ⟨_, exec_quotaDrainDone ..⟩
  | .quotaDrainTimeout .. => ⟨_, access_onDev (exec_quotaDrainTimeout ..)⟩
  | .dmvArm .. => ⟨_, exec_dmvArm ..⟩
  | .dmvDisarm .. => ⟨_, exec_dmvDisarm ..⟩
  | .dmvAbort .. => ⟨_, exec_dmvAbort ..⟩
  | .dmvAck .. => ⟨_, exec_dmvAck ..⟩
  | .dmvHoldGranted .. => ⟨_, access_onDev (exec_dmvHoldGranted ..)⟩
  | .dmvBurstDone .. => ⟨_, access_onDev (exec_dmvBurstDone ..)⟩
  | .dmvTransferComplete .. => ⟨_, exec_dmvTransferComplete ..⟩
  | .dmvAbortDrained .. => ⟨_, access_onDev (exec_dmvAbortDrained ..)⟩
  | .dmvLineFailure .. => ⟨_, exec_dmvLineFailure ..⟩
  | .dmvHaltedDrained .. => ⟨_, exec_dmvHaltedDrained ..⟩
  | .dmvChannelRetired .. => ⟨_, exec_dmvChannelRetired ..⟩
  | .dirtyEnable .. => ⟨_, exec_dirtyEnable ..⟩
  | .dirtyDisable .. => ⟨_, exec_dirtyDisable ..⟩
  | .dirtySwap .. => ⟨_, exec_dirtySwap ..⟩
  | .dirtySwapComplete .. => ⟨_, exec_dirtySwapComplete ..⟩
  | .portStartCondition .. => ⟨_, exec_portStartCondition ..⟩
  | .portPowerElapsed .. => ⟨_, exec_portPowerElapsed ..⟩
  | .portDlUp .. => ⟨_, exec_portDlUp ..⟩
  | .portTrainTimeout .. => ⟨_, exec_portTrainTimeout ..⟩
  | .configRetryTimeout .. => ⟨_, exec_configRetryTimeout ..⟩
  | .portSetupComplete .. => ⟨_, exec_portSetupComplete ..⟩
  | .poolBringUp .. => ⟨_, exec_poolBringUp ..⟩
  | .removalRecognised .. => ⟨_, exec_removalRecognised ..⟩
  | .teardownComplete .. => ⟨_, exec_teardownComplete ..⟩
  | .settleExpiry .. => ⟨_, exec_settleExpiry ..⟩
  | .chatterDetected .. => ⟨_, exec_chatterDetected ..⟩
  | .pwrfltAccepted .. => ⟨_, exec_pwrfltAccepted ..⟩
  | .sbsScan .. => ⟨_, exec_sbsScan ..⟩
  | .sbsResume .. => ⟨_, exec_sbsResume ..⟩
  | .hpQclr .. => ⟨_, exec_hpQclr ..⟩
  | .hpFclr .. => ⟨_, exec_hpFclr ..⟩
  | .hpRetry .. => ⟨_, exec_hpRetry ..⟩
  | .cxlMemCompletionTimeout .. => ⟨_, exec_cxlMemCompletionTimeout ..⟩
  | .cxlIoCompletionTimeout .. => ⟨_, exec_cxlIoCompletionTimeout ..⟩
  | .lateMemResponse .. => ⟨_, exec_lateMemResponse ..⟩
  | .drainComplete .. => ⟨_, exec_drainComplete ..⟩
  | .passPowerControllerOff .. => ⟨_, exec_passPowerControllerOff ..⟩
  | .passPowerControllerOn .. => ⟨_, exec_passPowerControllerOn ..⟩
  | .aspmL1Entry .. => ⟨_, exec_aspmL1Entry ..⟩
  | .aspmL1Exit .. => ⟨_, exec_aspmL1Exit ..⟩
  | .stitchTrainingAttempt .. => ⟨_, exec_stitchTrainingAttempt ..⟩
  | .detectPhaseEnd .. => ⟨_, exec_detectPhaseEnd ..⟩
  | .framePhaseEnd .. => ⟨_, exec_framePhaseEnd ..⟩
  | .equalisePhaseEnd .. => ⟨_, exec_equalisePhaseEnd ..⟩
  | .confirmWindowEnd .. => ⟨_, exec_confirmWindowEnd ..⟩
  | .trainRequestReceived .. => ⟨_, exec_trainRequestReceived ..⟩
  | .linkupReceived .. => ⟨_, exec_linkupReceived ..⟩
  | .stitchPacketSend .. => ⟨_, exec_stitchPacketSend ..⟩
  | .packetReceived .. => ⟨_, exec_packetReceived ..⟩
  | .ackReceived .. => ⟨_, exec_ackReceived ..⟩
  | .ackTimerExpiry .. => ⟨_, exec_ackTimerExpiry ..⟩
  | .nakReceived .. => ⟨_, exec_nakReceived ..⟩
  | .replayReceived .. => ⟨_, exec_replayReceived ..⟩
  | .nakRepeatTimeout .. => ⟨_, exec_nakRepeatTimeout ..⟩
  | .replayTimeout .. => ⟨_, exec_replayTimeout ..⟩
  | .creditReceived .. => ⟨_, exec_creditReceived ..⟩
  | .creditAdvertiseTimer .. => ⟨_, exec_creditAdvertiseTimer ..⟩
  | .widthReqReceived .. => ⟨_, exec_widthReqReceived ..⟩
  | .widthSetReceived .. => ⟨_, exec_widthSetReceived ..⟩
  | .widthReadyReceived .. => ⟨_, exec_widthReadyReceived ..⟩
  | .widenLaneTimeout .. => ⟨_, exec_widenLaneTimeout ..⟩
  | .laneSignalLoss .. => ⟨_, exec_laneSignalLoss ..⟩
  | .linkDeclaredDead .. => ⟨_, exec_linkDeclaredDead ..⟩
  | .takeoverReceived .. => ⟨_, exec_takeoverReceived ..⟩
  | .takeoverRepeat .. => ⟨_, exec_takeoverRepeat ..⟩
  | .linkCtlDown .. => ⟨_, exec_linkCtlDown ..⟩
  | .linkCtlRetrain .. => ⟨_, exec_linkCtlRetrain ..⟩
  | .widthCtlWrite .. => ⟨_, exec_widthCtlWrite ..⟩
  | .tollSend .. => ⟨_, exec_tollSend ..⟩
  | .tollReceived .. => ⟨_, exec_tollReceived ..⟩
  | .tollSilence .. => ⟨_, exec_tollSilence ..⟩
  | .knellReceived .. => ⟨_, exec_knellReceived ..⟩
  | .transitMessage .. => ⟨_, exec_transitMessage ..⟩
  | .granuleTakeback .. => ⟨_, exec_granuleTakeback ..⟩
  | .mgmtRequestRepeat .. => ⟨_, exec_mgmtRequestRepeat ..⟩
  | .mgmtReservedType .. => ⟨_, exec_mgmtReservedType ..⟩
  | .importBind .. => ⟨_, exec_importBind ..⟩
  | .importBindAck .. => ⟨_, exec_importBindAck ..⟩
  | .importUnmapRequest .. => ⟨_, exec_importUnmapRequest ..⟩
  | .importUnmapped .. => ⟨_, exec_importUnmapped ..⟩
  | .exportNotice .. => ⟨_, exec_exportNotice ..⟩
  | .exportNoticeAck .. => ⟨_, exec_exportNoticeAck ..⟩
  | .importDropped .. => ⟨_, exec_importDropped ..⟩
  | .importDroppedAck .. => ⟨_, exec_importDroppedAck ..⟩
  | .exportNoticeWaitExpiry .. => ⟨_, exec_exportNoticeWaitExpiry ..⟩
  | .importBindWaitExpiry .. => ⟨_, exec_importBindWaitExpiry ..⟩
  | .importUnmappedWaitExpiry .. => ⟨_, exec_importUnmappedWaitExpiry ..⟩
  | .initiateDynamicCapacityAdd .. => ⟨_, exec_initiateDynamicCapacityAdd ..⟩
  | .addDynamicCapacityResponse .. => ⟨_, exec_addDynamicCapacityResponse ..⟩
  | .offerTimeout .. => ⟨_, exec_offerTimeout ..⟩
  | .initiateDynamicCapacityRelease .. => ⟨_, exec_initiateDynamicCapacityRelease ..⟩
  | .forcedRelease .. => ⟨_, exec_forcedRelease ..⟩
  | .releaseDynamicCapacity .. => ⟨_, exec_releaseDynamicCapacity ..⟩
  | .fenceStart .. => ⟨_, exec_fenceStart ..⟩
  | .fenceStepComplete .. => ⟨_, exec_fenceStepComplete ..⟩
  | .keySlotRekey .. => ⟨_, exec_keySlotRekey ..⟩
  | .keyvPowerLoss .. => ⟨_, exec_keyvPowerLoss ..⟩
  | .migrationChunkCopied .. => ⟨_, access_onDev (exec_migrationChunkCopied ..)⟩
  | .migrationComplete .. => ⟨_, exec_migrationComplete ..⟩
  | .resyncComplete .. => ⟨_, exec_resyncComplete ..⟩
  | .mailboxDoorbell .. => ⟨_, exec_mailboxDoorbell ..⟩
  | .mctpRequest .. => ⟨_, exec_mctpRequest ..⟩
  | .backgroundOperationEnd .. => ⟨_, exec_backgroundOperationEnd ..⟩
  | .identify .. => ⟨_, exec_identify ..⟩
  | .backgroundOperationStatus .. => ⟨_, exec_backgroundOperationStatus ..⟩
  | .getResponseMessageLimit .. => ⟨_, exec_getResponseMessageLimit ..⟩
  | .getEventRecords .. => ⟨_, exec_getEventRecords ..⟩
  | .clearEventRecords .. => ⟨_, exec_clearEventRecords ..⟩
  | .getEventInterruptPolicy .. => ⟨_, exec_getEventInterruptPolicy ..⟩
  | .setEventInterruptPolicy .. => ⟨_, exec_setEventInterruptPolicy ..⟩
  | .getFwInfo .. => ⟨_, exec_getFwInfo ..⟩
  | .getTimestamp .. => ⟨_, exec_getTimestamp ..⟩
  | .setTimestamp .. => ⟨_, exec_setTimestamp ..⟩
  | .getSupportedLogs .. => ⟨_, exec_getSupportedLogs ..⟩
  | .getLog .. => ⟨_, exec_getLog ..⟩
  | .identifyMemoryDevice .. => ⟨_, exec_identifyMemoryDevice ..⟩
  | .getPartitionInfo .. => ⟨_, exec_getPartitionInfo ..⟩
  | .getHealthInfo .. => ⟨_, exec_getHealthInfo ..⟩
  | .getPoisonList .. => ⟨_, exec_getPoisonList ..⟩
  | .getDynamicCapacityConfiguration .. => ⟨_, exec_getDynamicCapacityConfiguration ..⟩
  | .getDynamicCapacityExtentList .. => ⟨_, exec_getDynamicCapacityExtentList ..⟩
  | .unsupportedCxlCommand .. => ⟨_, exec_unsupportedCxlCommand ..⟩
  | .fmIdentify .. => ⟨_, exec_fmIdentify ..⟩
  | .identifySwitchDevice .. => ⟨_, exec_identifySwitchDevice ..⟩
  | .getPhysicalPortState .. => ⟨_, exec_getPhysicalPortState ..⟩
  | .getVirtualCxlSwitchInfo .. => ⟨_, exec_getVirtualCxlSwitchInfo ..⟩
  | .getDcdInfo .. => ⟨_, exec_getDcdInfo ..⟩
  | .getHostDcRegionConfiguration .. => ⟨_, exec_getHostDcRegionConfiguration ..⟩
  | .getDcRegionExtentLists .. => ⟨_, exec_getDcRegionExtentLists ..⟩
  | .unsupportedFmApiCommand .. => ⟨_, exec_unsupportedFmApiCommand ..⟩
  | .getInfo .. => ⟨_, exec_getInfo ..⟩
  | .regRead .. => ⟨_, exec_regRead ..⟩
  | .blockQuery .. => ⟨_, exec_blockQuery ..⟩
  | .blockMigrate .. => ⟨_, exec_blockMigrate ..⟩
  | .exportCreate .. => ⟨_, exec_exportCreate ..⟩
  | .exportRelease .. => ⟨_, exec_exportRelease ..⟩
  | .remoteMap .. => ⟨_, exec_remoteMap ..⟩
  | .remoteUnmap .. => ⟨_, exec_remoteUnmap ..⟩
  | .qosSet .. => ⟨_, exec_qosSet ..⟩
  | .gateListSet .. => ⟨_, exec_gateListSet ..⟩
  | .mirrorSet .. => ⟨_, exec_mirrorSet ..⟩
  | .sliceCreate .. => ⟨_, exec_sliceCreate ..⟩
  | .sliceResize .. => ⟨_, exec_sliceResize ..⟩
  | .sliceDestroy .. => ⟨_, exec_sliceDestroy ..⟩
  | .sliceQuery .. => ⟨_, exec_sliceQuery ..⟩
  | .engineAssign .. => ⟨_, exec_engineAssign ..⟩
  | .portRemove .. => ⟨_, exec_portRemove ..⟩
  | .portRelease .. => ⟨_, exec_portRelease ..⟩
  | .linkSetDown .. => ⟨_, exec_linkSetDown ..⟩
  | .linkSetRetrain .. => ⟨_, exec_linkSetRetrain ..⟩
  | .linkSetTarget .. => ⟨_, exec_linkSetTarget ..⟩
  | .routeSet .. => ⟨_, exec_routeSet ..⟩
  | .neighbourRejoin .. => ⟨_, exec_neighbourRejoin ..⟩
  | .logRead .. => ⟨_, exec_logRead ..⟩
  | .logClear .. => ⟨_, exec_logClear ..⟩
  | .fwTransferStart .. => ⟨_, exec_fwTransferStart ..⟩
  | .fwTransferData .. => ⟨_, exec_fwTransferData ..⟩
  | .fwTransferEnd .. => ⟨_, exec_fwTransferEnd ..⟩
  | .fwTransferAbort .. => ⟨_, exec_fwTransferAbort ..⟩
  | .fwActivateNextReset .. => ⟨_, exec_fwActivateNextReset ..⟩
  | .fwActivateLive .. => ⟨_, exec_fwActivateLive ..⟩
  | .liveActivationTakeover .. => ⟨_, exec_liveActivationTakeover ..⟩
  | .liveActivationTimeout .. => ⟨_, exec_liveActivationTimeout ..⟩
  | .fwCommit .. => ⟨_, exec_fwCommit ..⟩
  | .resetWarm .. => ⟨_, exec_resetWarm ..⟩
  | .resetTambour .. => ⟨_, exec_resetTambour ..⟩
  | .resetPort .. => ⟨_, exec_resetPort ..⟩
  | .resetLink .. => ⟨_, exec_resetLink ..⟩
  | .oobRead .. => ⟨_, exec_oobRead ..⟩
  | .oobWrite .. => ⟨_, exec_oobWrite ..⟩
  | .oobResult .. => ⟨_, exec_oobResult ..⟩
  | .oobFetchComplete .. => ⟨_, exec_oobFetchComplete ..⟩
  | .oobSlotExpiry .. => ⟨_, exec_oobSlotExpiry ..⟩
  | .acuRegionSet .. => ⟨_, exec_acuRegionSet ..⟩
  | .acuFence .. => ⟨_, exec_acuFence ..⟩
  | .acuOldEpochDrained .. => ⟨_, exec_acuOldEpochDrained ..⟩
  | .acuViolationRead .. => ⟨_, exec_acuViolationRead ..⟩
  | .violInfoClear .. => ⟨_, exec_violInfoClear ..⟩
  | .lifecycleSetProvisioned .. => ⟨_, exec_lifecycleSetProvisioned ..⟩
  | .lifecycleSetDeployed .. => ⟨_, exec_lifecycleSetDeployed ..⟩
  | .lifecycleSetRma .. => ⟨_, exec_lifecycleSetRma ..⟩
  | .debugChallenge .. => ⟨_, exec_debugChallenge ..⟩
  | .debugUnlock .. => ⟨_, exec_debugUnlock ..⟩
  | .debugLock .. => ⟨_, exec_debugLock ..⟩
  | .challengeExpiry .. => ⟨_, exec_challengeExpiry ..⟩
  | .zeroizeKeys .. => ⟨_, exec_zeroizeKeys ..⟩
  | .zeroizeFull .. => ⟨_, exec_zeroizeFull ..⟩
  | .drbgHealthFailure .. => ⟨_, exec_drbgHealthFailure ..⟩
  | .drbgStartupRetry .. => ⟨_, exec_drbgStartupRetry ..⟩
  | .getVersion .. => ⟨_, exec_getVersion ..⟩
  | .getCapabilities .. => ⟨_, exec_getCapabilities ..⟩
  | .negotiateAlgorithms .. => ⟨_, exec_negotiateAlgorithms ..⟩
  | .getDigests .. => ⟨_, exec_getDigests ..⟩
  | .getCertificate .. => ⟨_, exec_getCertificate ..⟩
  | .challenge .. => ⟨_, exec_challenge ..⟩
  | .getMeasurements .. => ⟨_, exec_getMeasurements ..⟩
  | .keyExchange .. => ⟨_, exec_keyExchange ..⟩
  | .finish .. => ⟨_, exec_finish ..⟩
  | .keyUpdate .. => ⟨_, exec_keyUpdate ..⟩
  | .heartbeat .. => ⟨_, exec_heartbeat ..⟩
  | .endSession .. => ⟨_, exec_endSession ..⟩
  | .ideKm .. => ⟨_, exec_ideKm ..⟩
  | .domainDozeEntry .. => ⟨_, exec_domainDozeEntry ..⟩
  | .domainNapEntry .. => ⟨_, exec_domainNapEntry ..⟩
  | .domainDeepEntry .. => ⟨_, exec_domainDeepEntry ..⟩
  | .domainWakeEvent .. => ⟨_, exec_domainWakeEvent ..⟩
  | .domainWakeComplete .. => ⟨_, exec_domainWakeComplete ..⟩
  | .breakerCurveTrip .. => ⟨_, exec_breakerCurveTrip ..⟩
  | .breakerFastTrip .. => ⟨_, exec_breakerFastTrip ..⟩
  | .retryBackoffExpiry .. => ⟨_, exec_retryBackoffExpiry ..⟩
  | .rampComplete .. => ⟨_, exec_rampComplete ..⟩
  | .rampTimeout .. => ⟨_, exec_rampTimeout ..⟩
  | .retrySequenceEnd .. => ⟨_, exec_retrySequenceEnd ..⟩
  | .classBResidualCheck .. => ⟨_, exec_classBResidualCheck ..⟩
  | .railOutOfWindow .. => ⟨_, exec_railOutOfWindow ..⟩
  | .railQualified .. => ⟨_, exec_railQualified ..⟩
  | .aoFeedChangeover .. => ⟨_, exec_aoFeedChangeover ..⟩
  | .aoFeedReturn .. => ⟨_, exec_aoFeedReturn ..⟩
  | .aoOnlyWake .. => ⟨_, exec_aoOnlyWake ..⟩
  | .aoOnlyTimerExpiry .. => ⟨_, exec_aoOnlyTimerExpiry ..⟩
  | .sleepCtlWake .. => ⟨_, exec_sleepCtlWake ..⟩
  | .aoclkLoss .. => ⟨_, exec_aoclkLoss ..⟩
  | .aoclkReturn .. => ⟨_, exec_aoclkReturn ..⟩
  | .refclkLoss .. => ⟨_, exec_refclkLoss ..⟩
  | .refclkReturn .. => ⟨_, exec_refclkReturn ..⟩
  | .avsStep .. => ⟨_, exec_avsStep ..⟩
  | .powerPolicySetDomains .. => ⟨_, exec_powerPolicySetDomains ..⟩
  | .powerPolicySetCurve .. => ⟨_, exec_powerPolicySetCurve ..⟩
  | .powerPolicySetAoOnly .. => ⟨_, exec_powerPolicySetAoOnly ..⟩
  | .powerPolicySetAvs .. => ⟨_, exec_powerPolicySetAvs ..⟩
  | .faultSignal .. => ⟨_, exec_faultSignal ..⟩
  | .brokenWire .. => ⟨_, exec_brokenWire ..⟩
  | .selfTestResult .. => ⟨_, exec_selfTestResult ..⟩
  | .tambourLogicLost .. => ⟨_, exec_tambourLogicLost ..⟩
  | .sliceMoveComplete .. => ⟨_, exec_sliceMoveComplete ..⟩
  | .tdirLost .. => ⟨_, exec_tdirLost ..⟩
  | .portDieLost .. => ⟨_, exec_portDieLost ..⟩
  | .portDieReturn .. => ⟨_, exec_portDieReturn ..⟩
  | .mgtRestore .. => ⟨_, exec_mgtRestore ..⟩
  | .carillonConfigScrub .. => ⟨_, exec_carillonConfigScrub ..⟩
  | .faultClear .. => ⟨_, exec_faultClear ..⟩
  | .resourceRestore .. => ⟨_, exec_resourceRestore ..⟩
  | .temperatureThreshold .. => ⟨_, exec_temperatureThreshold ..⟩
  | .thermalTrip .. => ⟨_, exec_thermalTrip ..⟩
  | .counterWrap .. => ⟨_, exec_counterWrap ..⟩
  | .pmcCounterWrite .. => ⟨_, exec_pmcCounterWrite ..⟩
  | .pmcLowHalfRead .. => ⟨_, exec_pmcLowHalfRead ..⟩
  | .ftimeLowHalfRead .. => ⟨_, exec_ftimeLowHalfRead ..⟩
  | .pmcFreezeWrite .. => ⟨_, exec_pmcFreezeWrite ..⟩
  | .pmcSnap .. => ⟨_, exec_pmcSnap ..⟩
  | .snapshotTaken .. => ⟨_, exec_snapshotTaken ..⟩
  | .tlsSample .. => ⟨_, exec_tlsSample ..⟩
  | .tlsSwap .. => ⟨_, exec_tlsSwap ..⟩
  | .alignRowReceived .. => ⟨_, exec_alignRowReceived ..⟩
  | .controlBlockError .. => ⟨_, exec_controlBlockError ..⟩
  | .linkupPhaseTimeout .. => ⟨_, exec_linkupPhaseTimeout ..⟩
  | .jtagCoreControl .. => ⟨_, exec_jtagCoreControl ..⟩
  | .pmeTurnOff .. => ⟨_, exec_pmeTurnOff ..⟩
  | .portWidthOrRateChange .. => ⟨_, exec_portWidthOrRateChange ..⟩
  | .vddAoHoldLow .. => ⟨_, exec_vddAoHoldLow ..⟩
  | .mctpControlMessage .. => ⟨_, exec_mctpControlMessage ..⟩
  | .i3cDynamicAddressAssignment .. => ⟨_, exec_i3cDynamicAddressAssignment ..⟩
  | .expanderEventRecord .. => ⟨_, exec_expanderEventRecord ..⟩

/-- What a command does to the device is what the state it answers holds. -/
theorem yields_onDev {c : Instr} {s : State} {f : Dev → Dev} {P : Dev → Prop} (h : exec c s = onDev s f)
    (hp : P (f s.dev).shown) : yields c s P := ⟨_, h, rfl, hp⟩

/-- Every step is an effect on the device alone, and takes the front of the queue. -/
theorem step_onDev (s : State) : ∃ f : Dev → Dev, step s = onDev { s with pending := s.pending.tail } f := by
  obtain ⟨d, p⟩ := s
  cases p with
  | nil => exact ⟨_, rfl⟩
  | cons c r => exact exec_onDev c ⟨d, r⟩

end Sys2Proof.Machine
end

