-- ==== Sys2Proof/Laws/Commands.lean ====
section
/-! SUPPORT. How a management command runs, is refused, and completes: one lemma for each way. -/

namespace Sys2Proof.Machine

/-- A Stoluo command whose checks all pass runs its own rules (R288). -/
theorem Dev.stoluo_runs (d : Dev) (path : Path) (op : Nat) (live ok : Bool) (body : Dev → Dev) (h1 : d.serves path op = true)
    (h2 : d.refusal path op live = none) (h3 : ok = true) : d.stoluo path op live ok body = body d := by
  simp [Dev.stoluo, h1, h2, h3]

/-- The first check that fails gives the code (R288). -/
theorem Dev.stoluo_refused (d : Dev) (path : Path) (op : Nat) (live ok : Bool) (body : Dev → Dev) {rc : Nat}
    (h1 : d.serves path op = true) (h2 : d.refusal path op live = some rc) :
    d.stoluo path op live ok body = d.finish path op rc := by
  simp [Dev.stoluo, h1, h2]

/-- A payload that does not follow its table completes with INVALID_INPUT. -/
theorem Dev.stoluo_invalid (d : Dev) (path : Path) (op : Nat) (live ok : Bool) (body : Dev → Dev) (h1 : d.serves path op = true)
    (h2 : d.refusal path op live = none) (h3 : ok = false) : d.stoluo path op live ok body = d.finish path op rcInvalid := by
  simp [Dev.stoluo, h1, h2, h3]

/-- Where nothing serves a command, nothing happens. -/
theorem Dev.stoluo_unserved (d : Dev) (path : Path) (op : Nat) (live ok : Bool) (body : Dev → Dev) (h1 : d.serves path op = false) :
    d.stoluo path op live ok body = d := by
  simp [Dev.stoluo, h1]

/-- A background command on a path that runs none starts. -/
theorem Dev.background_runs (d : Dev) (path : Path) (op : Nat) (body : Dev → Dev) (h : tget d.mgmt.bg path = none) :
    d.background path op body = body (d.bgStart path op) := by
  simp [Dev.background, Dev.bgRunning, h]

/-- On a path that runs one it completes with BUSY. -/
theorem Dev.background_busy (d : Dev) (path : Path) (op : Nat) (body : Dev → Dev) {b : BgOp} (h : tget d.mgmt.bg path = some b) :
    d.background path op body = d.finish path op rcBusy := by
  simp [Dev.background, Dev.bgRunning, h]

/-- The background operation of a path after its result is known. -/
theorem Dev.bg_bgResult (d : Dev) (path : Path) (rc v : Nat) :
    tget (d.bgResult path rc v).mgmt.bg path = (tget d.mgmt.bg path).map fun b => { b with result := some (rc, v) } := by
  simp [Dev.bgResult, tget_tmod_same]

/-- A standard command that is served and not turned away runs its own rules. -/
theorem Dev.standard_runs (d : Dev) (path : Path) (op : Nat) (body : Dev → Dev) (h : d.takesStandard path op) :
    d.standard path op body = body d := by
  obtain ⟨h1, h2, h3, h4, h5⟩ := h
  unfold Dev.standard
  rw [if_neg (by simp [h1]), if_neg (by simp [h2]), if_neg h3, if_neg (fun h => h.2 (h4 h.1)), if_neg]
  rintro ⟨a, b, c⟩
  exact (h5 a).elim b c

/-- A Stoluo command that is taken, whose payload follows its table, runs its own rules. -/
theorem Dev.stoluo_takes (d : Dev) (path : Path) (op : Nat) (ok : Bool) (body : Dev → Dev) (h : d.takesStoluo path op)
    (h3 : ok = true) : d.stoluo path op false ok body = body d := d.stoluo_runs _ _ _ _ _ h.1 h.2 h3

/-- The codes and DOORBELL of a mailbox after they are written. -/
def Dev.boxWritten (d : Dev) (m rc v : Nat) : Dev := ((d.wr (.mbxStatus m) 47 32 rc).wr (.mbxStatus m) 63 48 v).wr (.mbxCtl m) 0 0 0

theorem Dev.rc_boxWritten (d : Dev) (m rc v : Nat) (h : rc < 65536) : (d.boxWritten m rc v).rd (.mbxStatus m) 47 32 = rc := by
  unfold Dev.boxWritten
  rw [Dev.rd_wr_ne _ _ _ _ _ _ (by simp), Dev.rd_wr_field _ _ (by simp [Reg.holds, Reg.mask, Reg.layout, fieldMask]) (by decide),
    Dev.rd_wr_same _ _ (by simp [Reg.holds, Reg.mask, Reg.layout, fieldMask])]
  norm_num; exact h

theorem Dev.vendor_boxWritten (d : Dev) (m rc v : Nat) (h : v < 65536) : (d.boxWritten m rc v).rd (.mbxStatus m) 63 48 = v := by
  unfold Dev.boxWritten
  rw [Dev.rd_wr_ne _ _ _ _ _ _ (by simp), Dev.rd_wr_same _ _ (by simp [Reg.holds, Reg.mask, Reg.layout, fieldMask])]
  norm_num; exact h

theorem Dev.doorbell_boxWritten (d : Dev) (m rc v : Nat) : (d.boxWritten m rc v).bitOf (.mbxCtl m) 0 = false := by
  unfold Dev.boxWritten
  have hh : (Reg.mbxCtl m).holds 0 0 = true := by simp [Reg.holds, Reg.mask, Reg.layout, fieldMask]
  rw [Dev.bitOf_wr_same _ _ hh]; simp

/-- Completing a command leaves its codes where R285 puts them, and DOORBELL clear. -/
theorem Dev.replied_complete (d : Dev) (path : Path) (op rc v : Nat) (l : List Byte) (hrc : rc < 65536) (hv : v < 65536) :
    (d.complete path op rc v l).replied path op rc v l := by
  refine ⟨d.mem_complete _ _ _ _ _, fun m hm => ?_⟩
  unfold Dev.complete
  simp only [hm]
  generalize (d.emit (.cmdDone path op rc v l)).count _ _ _ = d0
  generalize (d0.writePayload m l).wr (.mbxCmd m) 36 16 l.length = d1
  generalize hd2 : Dev.mk _ _ _ _ _ _ _ _ _ _ _ _ _ _ _ = d2
  have hr : ∀ r, d2.reg r = (d1.boxWritten m rc v).reg r := fun r => by rw [← hd2, Dev.reg_mk, Dev.boxWritten]
  have e : d2.rd (.mbxStatus m) 47 32 = rc ∧ d2.rd (.mbxStatus m) 63 48 = v ∧ d2.bitOf (.mbxCtl m) 0 = false :=
    ⟨(Dev.rd_eq_of_reg (hr _) _ _).trans (d1.rc_boxWritten m rc v hrc), (Dev.rd_eq_of_reg (hr _) _ _).trans (d1.vendor_boxWritten m rc v hv),
      (Dev.bitOf_eq_of_reg (hr _) _).trans (d1.doorbell_boxWritten m rc v)⟩
  split
  · rw [Dev.rd_mailboxIrq _ _ _ _ _ _ (by simp), Dev.rd_mailboxIrq _ _ _ _ _ _ (by simp), Dev.bitOf_mailboxIrq _ _ _ _ _ (by simp)]
    exact e
  · exact e

/-- What a command has answered stands when its status registers are brought up to date. -/
theorem Dev.replied_shown {d : Dev} {path : Path} {op rc v : Nat} {l : List Byte} (h : d.replied path op rc v l) :
    d.shown.replied path op rc v l :=
  ⟨Dev.mem_shown h.1, fun m hm => by
    rw [Dev.rd_shown _ _ _ _ (by simp), Dev.rd_shown _ _ _ _ (by simp), Dev.bitOf_shown _ _ _ (by simp)]; exact h.2 m hm⟩

theorem Dev.onlyRead_complete (d : Dev) (path : Path) (op rc v : Nat) (l : List Byte) :
    d.onlyRead (d.complete path op rc v l) := by
  refine ⟨?_, ?_, ?_, ?_, ?_, ?_, ?_, ?_, ?_, ?_, ?_, fun r h1 _ h3 => Dev.reg_complete _ _ _ _ _ _ r h1 h3⟩ <;> simp

theorem Dev.onlyRead_shown {d d' : Dev} (h : d.onlyRead d') : d.onlyRead d'.shown := by
  obtain ⟨h1, h2, h3, h4, h5, h6, h7, h8, h9, h10, h11, h12⟩ := h
  refine ⟨?_, ?_, ?_, ?_, ?_, ?_, ?_, ?_, ?_, ?_, ?_, fun r a b c => (Dev.reg_shown _ r b).trans (h12 r a b c)⟩ <;> simp [*]

/-- A Stoluo command that is taken yields what its own rules do. -/
theorem yields_stoluo {c : Instr} {s : State} {path : Path} {op : Nat} {ok : Bool} {body : Dev → Dev} {P : Dev → Prop}
    (h : s.dev.takesStoluo path op) (he : exec c s = onDev s fun d => d.stoluo path op false ok body) (hok : ok = true)
    (hP : P (body s.dev).shown) : yields c s P := by
  refine yields_onDev he ?_
  beta_reduce
  rw [Dev.stoluo_takes _ _ _ _ _ h hok]
  exact hP

/-- A standard command that is taken yields what its own rules do. -/
theorem yields_standard {c : Instr} {s : State} {path : Path} {op : Nat} {body : Dev → Dev} {P : Dev → Prop}
    (h : s.dev.takesStandard path op) (he : exec c s = onDev s fun d => d.standard path op body) (hP : P (body s.dev).shown) :
    yields c s P := by
  refine yields_onDev he ?_
  beta_reduce
  rw [Dev.standard_runs _ _ _ _ h]
  exact hP

/-- What a command's end leaves of its answer. -/
theorem Dev.replied_end {d : Dev} {path : Path} {op rc : Nat} {l : List Byte} (h : rc < 65536) :
    (d.complete path op rc 0 l).shown.replied path op rc 0 l :=
  Dev.replied_shown (Dev.replied_complete _ _ _ _ _ _ h (by decide))

theorem Dev.replied_finish {d : Dev} {path : Path} {op rc : Nat} (h : rc < 65536) : (d.finish path op rc).shown.replied path op rc 0 [] :=
  Dev.replied_end h

theorem Dev.onlyRead_end {d : Dev} {path : Path} {op rc : Nat} {l : List Byte} : d.onlyRead (d.complete path op rc 0 l).shown :=
  Dev.onlyRead_shown (Dev.onlyRead_complete _ _ _ _ _ _)

/-- A Stoluo command that is taken answers the state that its own rules give. -/
theorem exec_stoluo {c : Instr} {s : State} {path : Path} {op : Nat} {ok : Bool} {body : Dev → Dev} {d' : Dev}
    (h : s.dev.takesStoluo path op) (he : exec c s = onDev s fun d => d.stoluo path op false ok body) (hok : ok = true)
    (hb : body s.dev = d') : exec c s = .next (s.onto d') := by
  rw [he, onDev, Dev.stoluo_takes _ _ _ _ _ h hok, hb]
  rfl

/-- A command whose effect on the device is known answers that. -/
theorem exec_onto {c : Instr} {s : State} {f : Dev → Dev} {d' : Dev} (he : exec c s = onDev s f) (hb : f s.dev = d') : exec c s = .next (s.onto d') := by
  rw [he, onDev, hb]; rfl

/-- A command that answers a device yields what that device shows. -/
theorem yields_of_eq {c : Instr} {s : State} {d' : Dev} {P : Dev → Prop} (h : exec c s = .next (s.onto d')) (hP : P d'.shown) :
    yields c s P := ⟨_, h, rfl, hP⟩

end Sys2Proof.Machine
end

