-- ==== Sys2Proof/Laws/Shown.lean ====
section
/-! SUPPORT. The status registers at the end of a command: what they show, and that showing it changes nothing they show. -/

namespace Sys2Proof.Machine

/-- Sources of a register file. -/
def sourcesIn (m : Table Reg Word) : List Nat := m.filterMap fun e => match e.1 with
  | .srcStatus n => some n
  | _ => none

theorem Dev.raisedSources_eq (d : Dev) : d.raisedSources = sourcesIn d.regs := rfl

theorem sourcesIn_tset (m : Table Reg Word) (r : Reg) (v : Word) (h : ∀ n, r ≠ .srcStatus n) : sourcesIn (tset m r v) = sourcesIn m := by
  have hr : ∀ v : Word, (match ((r, v) : Reg × Word).1 with
    | .srcStatus n => some n
    | _ => none) = (none : Option Nat) := fun v => by
    cases r <;> first | rfl | exact absurd rfl (h _)
  induction m with
  | nil => simp only [tset, sourcesIn, List.filterMap_cons, List.filterMap_nil]
  | cons e t ih =>
    obtain ⟨k, w⟩ := e
    rw [tset]
    split
    · subst k; simp only [sourcesIn, List.filterMap_cons]
    · have ih' := ih; simp only [sourcesIn] at ih'
      simp only [sourcesIn, List.filterMap_cons, ih']

theorem sourcesIn_tdel (m : Table Reg Word) (r : Reg) (h : ∀ n, r ≠ .srcStatus n) : sourcesIn (tdel m r) = sourcesIn m := by
  induction m with
  | nil => rfl
  | cons e t ih =>
    obtain ⟨k, w⟩ := e
    have ih' := ih
    simp only [sourcesIn, tdel] at ih'
    simp only [tdel, List.filter_cons, sourcesIn]
    split
    · simp only [List.filterMap_cons, ih']
    · rename_i hk
      simp only [Bool.not_eq_true, Bool.not_eq_false', decide_eq_true_eq] at hk
      subst hk
      rw [ih', List.filterMap_cons]
      cases k <;> first | rfl | exact absurd rfl (h _)

/-- Writing another register leaves the raised sources. -/
theorem Dev.raisedSources_setReg (d : Dev) (r : Reg) (v : Word) (h : ∀ n, r ≠ .srcStatus n) :
    (d.setReg r v).raisedSources = d.raisedSources := by
  rw [Dev.raisedSources_eq, Dev.raisedSources_eq, Dev.setReg]
  dsimp only
  split
  · exact sourcesIn_tdel _ _ h
  · exact sourcesIn_tset _ _ _ h

theorem Dev.pendingSources_setReg (d : Dev) (r : Reg) (v : Word) (h : ∀ n, r ≠ .srcStatus n) :
    (d.setReg r v).pendingSources = d.pendingSources := by
  rw [Dev.pendingSources, Dev.pendingSources, Dev.raisedSources_setReg _ _ _ h]
  exact List.filter_congr fun n _ => Dev.bitOf_setReg_ne _ _ _ (h n).symm

/-- A write of a status register leaves the pending sources. -/
theorem Dev.pendingSources_wr_show (d : Dev) {r : Reg} (hi lo n : Nat) (h : r.show = true) : (d.wr r hi lo n).pendingSources = d.pendingSources :=
  Dev.pendingSources_setReg _ _ _ (fun n e => by subst e; simp at h)

theorem Dev.pulls_wr_show (d : Dev) {r : Reg} (hi lo n : Nat) (h : r.show = true) (hf : r ≠ .faultStat) :
    (d.wr r hi lo n).pulls = d.pulls := by
  have e1 : ∀ r', r'.show = false → ∀ i, (d.wr r hi lo n).bitOf r' i = d.bitOf r' i := fun r' h' i =>
    Dev.bitOf_eq_of_reg (Dev.reg_wr_show _ _ _ _ h' h) i
  have e2 : (d.wr r hi lo n).safe = d.safe := by
    unfold Dev.safe; exact Dev.bitOf_wr_ne _ _ _ _ _ hf.symm
  have e3 : (d.wr r hi lo n).stage = d.stage := Dev.rd_eq_of_reg (Dev.reg_wr_show _ _ _ _ (by simp) h) _ _
  rw [Dev.pulls, Dev.pulls, Dev.pendingSources_wr_show _ _ _ _ h, e2, e3]
  simp only [e1 _ (Reg.show_srcCfg _)]
  rfl

/-- The four writes of the status registers, and the pin. -/
theorem Dev.pulls_wr_faultStat (d : Dev) {hi lo : Nat} (n : Nat) (h : 31 < lo ∨ hi < 31) : (d.wr .faultStat hi lo n).pulls = d.pulls := by
  have e2 : (d.wr .faultStat hi lo n).safe = d.safe := by
    unfold Dev.safe
    exact Dev.bitOf_wr_field _ _ (by simp [Reg.holds, Reg.mask, Reg.layout, fieldMask]) h
  have e3 : (d.wr .faultStat hi lo n).stage = d.stage := Dev.rd_eq_of_reg (Dev.reg_wr_show _ _ _ _ (by simp) (by simp)) _ _
  have e1 : ∀ m i, (d.wr .faultStat hi lo n).bitOf (.srcCfg m) i = d.bitOf (.srcCfg m) i := fun m i =>
    Dev.bitOf_eq_of_reg (Dev.reg_wr_show _ _ _ _ (by simp) (by simp)) i
  rw [Dev.pulls, Dev.pulls, Dev.pendingSources_wr_show _ _ _ _ (by simp), e2, e3]
  simp only [e1]
  rfl

/-- The count and the worst severity are shown. -/
def Dev.showCounts (d : Dev) : Dev :=
  (d.wr .faultStat 15 0 d.pendingSources.length).wr .faultStat 25 24 ((d.pendingSources.map fun n => d.rd (.srcStatus n) 58 57).foldl max 0)

theorem Dev.showFaults_eq (d : Dev) : d.showFaults = if d.showCounts.pulls = d.showCounts.bitOf .faultStat 27 then d.showCounts
    else (d.showCounts.wr .faultStat 27 27 (if d.showCounts.pulls then 1 else 0)).emit (.pin 0 (!d.showCounts.pulls)) := by
  have h : ∀ n, (d.wr .faultStat 15 0 d.pendingSources.length).rd (.srcStatus n) 58 57 = d.rd (.srcStatus n) 58 57 := fun n =>
    Dev.rd_wr_ne _ _ _ _ _ _ (by simp)
  unfold Dev.showFaults Dev.showCounts
  simp only [h]

theorem Dev.pulls_showCounts (d : Dev) : d.showCounts.pulls = d.pulls := by
  rw [Dev.showCounts, Dev.pulls_wr_faultStat _ _ (by decide), Dev.pulls_wr_faultStat _ _ (by decide)]

theorem Dev.pending_showCounts (d : Dev) : d.showCounts.pendingSources = d.pendingSources := by
  rw [Dev.showCounts, Dev.pendingSources_wr_show _ _ _ _ (by simp), Dev.pendingSources_wr_show _ _ _ _ (by simp)]

theorem Dev.pulls_emit (d : Dev) (o : Out) : (d.emit o).pulls = d.pulls := rfl
theorem Dev.pendingSources_emit (d : Dev) (o : Out) : (d.emit o).pendingSources = d.pendingSources := rfl
theorem Dev.bitOf_emit' (d : Dev) (o : Out) (r : Reg) (i : Nat) : (d.emit o).bitOf r i = d.bitOf r i := rfl
theorem Dev.rd_emit' (d : Dev) (o : Out) (r : Reg) (hi lo : Nat) : (d.emit o).rd r hi lo = d.rd r hi lo := rfl

theorem Dev.pulls_showFaults (d : Dev) : d.showFaults.pulls = d.pulls := by
  rw [Dev.showFaults_eq]
  split
  · exact d.pulls_showCounts
  · rw [Dev.pulls_emit, Dev.pulls_wr_faultStat _ _ (by decide), d.pulls_showCounts]

theorem Dev.pending_showFaults (d : Dev) : d.showFaults.pendingSources = d.pendingSources := by
  rw [Dev.showFaults_eq]
  split
  · exact d.pending_showCounts
  · rw [Dev.pendingSources_emit, Dev.pendingSources_wr_show _ _ _ _ (by simp), d.pending_showCounts]

/-- FAULT_STAT shows whether FAULT_B is held low. -/
theorem Dev.pin_showFaults (d : Dev) : d.showFaults.bitOf .faultStat 27 = d.pulls := by
  rw [Dev.showFaults_eq]
  split
  · rename_i h; rw [← h, d.pulls_showCounts]
  · have hh : (Reg.faultStat).holds 27 27 = true := by simp [Reg.holds, Reg.mask, Reg.layout, fieldMask]
    rw [Dev.bitOf_emit', Dev.bitOf_wr_same _ _ hh, d.pulls_showCounts]
    cases d.pulls <;> simp

theorem Dev.rd_showFaults_low (d : Dev) {hi lo : Nat} (h : (Reg.faultStat).holds hi lo = true) (hne : hi < 27 ∨ 27 < lo) :
    d.showFaults.rd .faultStat hi lo = d.showCounts.rd .faultStat hi lo := by
  rw [Dev.showFaults_eq]
  split
  · rfl
  · rw [Dev.rd_emit', Dev.rd_wr_field _ _ h hne]

theorem Dev.pendingCount_showFaults (d : Dev) : d.showFaults.rd .faultStat 15 0 = d.pendingSources.length % 2 ^ 16 := by
  have h0 : (Reg.faultStat).holds 15 0 = true := by simp [Reg.holds, Reg.mask, Reg.layout, fieldMask]
  rw [Dev.rd_showFaults_low _ h0 (by decide), Dev.showCounts, Dev.rd_wr_field _ _ h0 (by decide), Dev.rd_wr_same _ _ h0]

theorem Dev.worst_showFaults (d : Dev) : d.showFaults.rd .faultStat 25 24 =
    ((d.pendingSources.map fun n => d.rd (.srcStatus n) 58 57).foldl max 0) % 2 ^ 2 := by
  have h0 : (Reg.faultStat).holds 25 24 = true := by simp [Reg.holds, Reg.mask, Reg.layout, fieldMask]
  rw [Dev.rd_showFaults_low _ h0 (by decide), Dev.showCounts, Dev.rd_wr_same _ _ h0]

theorem Dev.rd_showFaults_ne (d : Dev) {r : Reg} (hi lo : Nat) (h : r ≠ .faultStat) : d.showFaults.rd r hi lo = d.rd r hi lo := by
  rw [Dev.showFaults_eq]
  have h1 : d.showCounts.rd r hi lo = d.rd r hi lo := by
    rw [Dev.showCounts, Dev.rd_wr_ne _ _ _ _ _ _ h, Dev.rd_wr_ne _ _ _ _ _ _ h]
  split
  · exact h1
  · rw [Dev.rd_emit', Dev.rd_wr_ne _ _ _ _ _ _ h, h1]

theorem Dev.cellsIn_congr {d d' : Dev} (h1 : d.quartersIn = d'.quartersIn) (h2 : d.flt.retirement = d'.flt.retirement)
    (h3 : d.flt.diesOut = d'.flt.diesOut) :
    d.cellsIn = d'.cellsIn := by
  simp only [Dev.cellsIn, Dev.retiredOf, h1, h2, h3]

/-- The status registers tell the state once they are brought up to date. -/
theorem Dev.statusTrue_shown (d : Dev) : d.shown.statusTrue := by
  have hb : (Reg.bufStatus).holds 18 0 = true := by simp [Reg.holds, Reg.mask, Reg.layout, fieldMask]
  have hb2 : (Reg.bufStatus).holds 31 28 = true := by simp [Reg.holds, Reg.mask, Reg.layout, fieldMask]
  have hk : (Reg.keyStatus).holds 27 16 = true := by simp [Reg.holds, Reg.mask, Reg.layout, fieldMask]
  have hk2 : (Reg.keyStatus).holds 11 0 = true := by simp [Reg.holds, Reg.mask, Reg.layout, fieldMask]
  have ek : d.shown.pool.keys = d.pool.keys := by simp
  refine ⟨?_, ?_, ?_, ?_, ?_, ?_⟩
  · have e : d.shown.activeKeys = d.activeKeys := by simp only [Dev.activeKeys, ek]
    rw [e, Dev.shown, Dev.rd_showFaults_ne _ _ _ (by simp), Dev.showCells, Dev.rd_wr_ne _ _ _ _ _ _ (by simp), Dev.showKeys,
      Dev.rd_wr_field _ _ hk (by decide), Dev.rd_wr_same _ _ hk]
  · have e : d.shown.readyKeys = d.readyKeys := by simp only [Dev.readyKeys, ek]
    rw [e, Dev.shown, Dev.rd_showFaults_ne _ _ _ (by simp), Dev.showCells, Dev.rd_wr_ne _ _ _ _ _ _ (by simp), Dev.showKeys,
      Dev.rd_wr_same _ _ hk2]
  · have eu : d.shown.cellsUsed = d.showKeys.cellsUsed := by simp [Dev.cellsUsed, Dev.holding]
    have ei : d.shown.cellsIn = d.showKeys.cellsIn := by
      refine Dev.cellsIn_congr ?_ (by simp) (by simp)
      unfold Dev.quartersIn
      rw [Dev.shown, Dev.rd_showFaults_ne _ _ _ (by simp), Dev.showCells, Dev.rd_wr_field _ _ hb2 (by decide)]
    rw [eu, ei, Dev.shown, Dev.rd_showFaults_ne _ _ _ (by simp), Dev.showCells, Dev.rd_wr_same _ _ hb]
  · rw [Dev.shown, Dev.pendingCount_showFaults, Dev.pending_showFaults]
  · rw [Dev.shown, Dev.worst_showFaults, Dev.pending_showFaults]
    simp only [fun n => Dev.rd_showFaults_ne d.showKeys.showCells (r := .srcStatus n) 58 57 (by simp)]
  · rw [Dev.shown, Dev.pin_showFaults, Dev.pulls_showFaults]

/-- The fields beside those that are shown keep what they hold. -/
theorem Dev.rd_shown_keyStatus (d : Dev) {hi lo : Nat} (h : (Reg.keyStatus).holds hi lo = true) (h1 : hi < 16 ∨ 27 < lo)
    (h2 : 11 < lo) : d.shown.rd .keyStatus hi lo = d.rd .keyStatus hi lo := by
  rw [Dev.shown, Dev.rd_showFaults_ne _ _ _ (by simp), Dev.showCells, Dev.rd_wr_ne _ _ _ _ _ _ (by simp), Dev.showKeys,
    Dev.rd_wr_field _ _ h (by omega), Dev.rd_wr_field _ _ h (by omega)]

theorem Dev.rd_shown_faultStat (d : Dev) {hi lo : Nat} (h : (Reg.faultStat).holds hi lo = true) (h1 : 27 < lo) :
    d.shown.rd .faultStat hi lo = d.rd .faultStat hi lo := by
  rw [Dev.shown, Dev.rd_showFaults_low _ h (by omega), Dev.showCounts, Dev.rd_wr_field _ _ h (by omega), Dev.rd_wr_field _ _ h (by omega),
    Dev.showCells, Dev.rd_wr_ne _ _ _ _ _ _ (by simp), Dev.showKeys, Dev.rd_wr_ne _ _ _ _ _ _ (by simp), Dev.rd_wr_ne _ _ _ _ _ _ (by simp)]

theorem Dev.rd_shown_bufStatus (d : Dev) {hi lo : Nat} (h : (Reg.bufStatus).holds hi lo = true) (h1 : 18 < lo) :
    d.shown.rd .bufStatus hi lo = d.rd .bufStatus hi lo := by
  rw [Dev.shown, Dev.rd_showFaults_ne _ _ _ (by simp), Dev.showCells, Dev.rd_wr_field _ _ h (by omega), Dev.showKeys,
    Dev.rd_wr_ne _ _ _ _ _ _ (by simp), Dev.rd_wr_ne _ _ _ _ _ _ (by simp)]

theorem Dev.drbgOk_shown (d : Dev) : d.shown.drbgOk = d.drbgOk := by
  have hh : (Reg.keyStatus).holds 31 31 = true := by simp [Reg.holds, Reg.mask, Reg.layout, fieldMask]
  rw [Dev.drbgOk, Dev.bitOf, Dev.rd_shown_keyStatus _ hh (by decide) (by decide), Dev.drbgOk, Dev.bitOf]

theorem Dev.safe_shown (d : Dev) : d.shown.safe = d.safe := by
  have hh : (Reg.faultStat).holds 31 31 = true := by simp [Reg.holds, Reg.mask, Reg.layout, fieldMask]
  rw [Dev.safe, Dev.bitOf, Dev.rd_shown_faultStat _ hh (by decide), Dev.safe, Dev.bitOf]

end Sys2Proof.Machine
end

