-- ==== Sys2Proof/Laws/Dmv.lean ====
section
/-! SUPPORT. What the channel operations write: the status fields, the interrupt, the promotion of an armed shadow. -/

namespace Sys2Proof.Machine

theorem dmvStatus_holds (c hi lo : Nat) (h : (hi = 31 ∧ lo = 29) ∨ (hi = 28 ∧ lo = 28) ∨ (hi = 27 ∧ lo = 24) ∨ (hi = 15 ∧ lo = 0)) : (Reg.dmv c .status).holds hi lo = true := by
  rcases h with ⟨rfl, rfl⟩ | ⟨rfl, rfl⟩ | ⟨rfl, rfl⟩ | ⟨rfl, rfl⟩ <;> simp [Reg.holds, Reg.mask, Reg.layout, fieldMask]
theorem Dev.reg_dmvIrq (d : Dev) (c : Nat) (r : Reg) (h : r.side = false) : (d.dmvIrq c).reg r = d.reg r := by
  unfold Dev.dmvIrq
  split
  · rfl
  · split
    · rfl
    · split
      · dsimp only; split
        · unfold Dev.sliceMsix; exact Dev.reg_msix _ _ _ _ h
        · rfl
      · rfl
theorem Dev.rd_dmvIrq (d : Dev) (c : Nat) (r : Reg) (hi lo : Nat) (h : r.side = false) : (d.dmvIrq c).rd r hi lo = d.rd r hi lo := Dev.rd_eq_of_reg (Dev.reg_dmvIrq d c r h) hi lo
theorem Dev.bitOf_dmvIrq (d : Dev) (c : Nat) (r : Reg) (i : Nat) (h : r.side = false) : (d.dmvIrq c).bitOf r i = d.bitOf r i := Dev.bitOf_eq_of_reg (Dev.reg_dmvIrq d c r h) i
theorem Dev.svc_dmvIrq (d : Dev) (c : Nat) : (d.dmvIrq c).svc = d.svc := by
  unfold Dev.dmvIrq
  split
  · rfl
  · split
    · rfl
    · split
      · dsimp only; split
        · unfold Dev.sliceMsix; rw [Dev.msix_svc]
        · rfl
      · rfl
theorem Dev.safe_dmvIrq (d : Dev) (c : Nat) : (d.dmvIrq c).safe = d.safe := by
  unfold Dev.safe; exact Dev.bitOf_dmvIrq _ _ _ _ rfl
theorem Dev.closing_congr {d d' : Dev} (h : d.svc = d'.svc) (c : Nat) : d.closing c = d'.closing c := by
  unfold Dev.closing Dev.channelSlice Dev.sliceOfChannel Dev.sliceRec
  rw [h]
theorem Dev.reg_setChan (d : Dev) (c : Nat) (x : ChannelRun) (r : Reg) : (d.setChan c x).reg r = d.reg r := rfl
theorem Dev.reg_dropChan (d : Dev) (c : Nat) (r : Reg) : (d.dropChan c).reg r = d.reg r := rfl
theorem Dev.closing_dropChan (d : Dev) (c k : Nat) : (d.dropChan c).closing k = d.closing k := rfl
/-- A channel whose active registers have been loaded and whose state is n. -/
def Dev.dmvLoaded (d : Dev) (c : Nat) (v1 v2 v3 v4 : Word) (n : Nat) : Dev :=
  (((((d.setReg (.dmv c .actSrc) v1).setReg (.dmv c .actDst) v2).setReg (.dmv c .actLen) v3).setReg (.dmv c .actCtl) v4).wr (.dmv c .status) 28 28 0).setDmvState c n
theorem dmvLoaded_ne (d : Dev) (c : Nat) (v1 v2 v3 v4 : Word) (n : Nat) (r : Reg) (h : ∀ w, w ∈ [DmvReg.actSrc, .actDst, .actLen, .actCtl, .status] → r ≠ .dmv c w) :
    (Dev.dmvLoaded d c v1 v2 v3 v4 n).reg r = d.reg r := by
  unfold Dev.dmvLoaded Dev.setDmvState
  have st := h .status (by simp)
  have ctl := h .actCtl (by simp)
  have len := h .actLen (by simp)
  have dst := h .actDst (by simp)
  have src := h .actSrc (by simp)
  rw [Dev.reg_wr_ne _ _ _ _ st, Dev.reg_wr_ne _ _ _ _ st, Dev.reg_setReg_ne _ _ ctl, Dev.reg_setReg_ne _ _ len,
    Dev.reg_setReg_ne _ _ dst, Dev.reg_setReg_ne _ _ src]
theorem dmvLoaded_src (d : Dev) (c : Nat) (v1 v2 v3 v4 : Word) (n : Nat) : (Dev.dmvLoaded d c v1 v2 v3 v4 n).reg (.dmv c .actSrc) = v1 &&& 0x3FFFFFFFFFFF := by
  have m : (Reg.dmv c .actSrc).mask = 0x3FFFFFFFFFFF := by simp [Reg.mask, Reg.layout, fieldMask]
  unfold Dev.dmvLoaded Dev.setDmvState
  rw [Dev.reg_wr_ne _ _ _ _ (by simp), Dev.reg_wr_ne _ _ _ _ (by simp), Dev.reg_setReg_ne _ _ (by simp), Dev.reg_setReg_ne _ _ (by simp), Dev.reg_setReg_ne _ _ (by simp), Dev.reg_setReg_same, m]
theorem dmvLoaded_dst (d : Dev) (c : Nat) (v1 v2 v3 v4 : Word) (n : Nat) : (Dev.dmvLoaded d c v1 v2 v3 v4 n).reg (.dmv c .actDst) = v2 &&& 0x3FFFFFFFFFFF := by
  have m : (Reg.dmv c .actDst).mask = 0x3FFFFFFFFFFF := by simp [Reg.mask, Reg.layout, fieldMask]
  unfold Dev.dmvLoaded Dev.setDmvState
  rw [Dev.reg_wr_ne _ _ _ _ (by simp), Dev.reg_wr_ne _ _ _ _ (by simp), Dev.reg_setReg_ne _ _ (by simp), Dev.reg_setReg_ne _ _ (by simp), Dev.reg_setReg_same, m]
theorem dmvLoaded_len (d : Dev) (c : Nat) (v1 v2 v3 v4 : Word) (n : Nat) : (Dev.dmvLoaded d c v1 v2 v3 v4 n).reg (.dmv c .actLen) = v3 &&& 0xFFFFFFFF := by
  have m : (Reg.dmv c .actLen).mask = 0xFFFFFFFF := by simp [Reg.mask, Reg.layout, fieldMask]
  unfold Dev.dmvLoaded Dev.setDmvState
  rw [Dev.reg_wr_ne _ _ _ _ (by simp), Dev.reg_wr_ne _ _ _ _ (by simp), Dev.reg_setReg_ne _ _ (by simp), Dev.reg_setReg_same, m]
theorem dmvLoaded_armed (d : Dev) (c : Nat) (v1 v2 v3 v4 : Word) (n : Nat) : (Dev.dmvLoaded d c v1 v2 v3 v4 n).bitOf (.dmv c .status) 28 = false := by
  unfold Dev.dmvLoaded Dev.setDmvState
  rw [Dev.bitOf_wr_field _ _ (dmvStatus_holds _ _ _ (by simp)) (by decide), Dev.bitOf_wr_same _ _ (dmvStatus_holds _ _ _ (by simp))]; rfl
theorem dmvLoaded_state (d : Dev) (c : Nat) (v1 v2 v3 v4 : Word) (n : Nat) : (Dev.dmvLoaded d c v1 v2 v3 v4 n).dmvState c = n % 8 := by
  unfold Dev.dmvLoaded Dev.setDmvState Dev.dmvState
  rw [Dev.rd_wr_same _ _ (dmvStatus_holds _ _ _ (by simp))]; rfl
theorem Dev.dmvPromote_eq (d : Dev) (c : Nat) : ∃ v4 x, x.offset = 0 ∧ d.dmvPromote c =
    (let b := Dev.dmvLoaded d c (d.reg (.dmv c .src)) (d.reg (.dmv c .dst)) (d.reg (.dmv c .len)) v4 (if d.closing c then 4 else 1)
     (b.setResidue c (b.actLen c)).setChan c x) := by
  unfold Dev.dmvPromote
  extract_lets a1 a2 a3 a4 a5
  refine ⟨a3.reg (.dmv c .ctl), ⟨false, 0, false, none, 0, [], ((a5.channelSlice c).map SliceRec.regionsNow).getD []⟩, rfl, ?_⟩
  have e : a5 = Dev.dmvLoaded d c (d.reg (.dmv c .src)) (d.reg (.dmv c .dst)) (d.reg (.dmv c .len)) (a3.reg (.dmv c .ctl)) (if d.closing c then 4 else 1) := by
      simp only [a5, Dev.dmvLoaded, a4]
      have h4 : a4.closing c = d.closing c := Dev.closing_congr (by simp [a4, a3, a2, a1]) c
      have h3 : a2.reg (.dmv c .len) = d.reg (.dmv c .len) := by
        simp only [a2, a1]; rw [Dev.reg_setReg_ne _ _ (by simp), Dev.reg_setReg_ne _ _ (by simp)]
      have h2 : a1.reg (.dmv c .dst) = d.reg (.dmv c .dst) := by
        simp only [a1]; rw [Dev.reg_setReg_ne _ _ (by simp)]
      simp only [a4] at h4
      rw [h4]
      have e2 : a2 = (d.setReg (.dmv c .actSrc) (d.reg (.dmv c .src))).setReg (.dmv c .actDst) (d.reg (.dmv c .dst)) := by
        show a1.setReg _ (a1.reg (.dmv c .dst)) = _; rw [h2]
      have e3 : a3 = ((d.setReg (.dmv c .actSrc) (d.reg (.dmv c .src))).setReg (.dmv c .actDst) (d.reg (.dmv c .dst))).setReg (.dmv c .actLen) (d.reg (.dmv c .len)) := by
        show a2.setReg _ (a2.reg (.dmv c .len)) = _; rw [h3, e2]
      rw [← e3]
  rw [e]
/-- What a promotion leaves. -/
theorem Dev.reg_dmvPromote (d : Dev) (c : Nat) : (d.dmvPromote c).bitOf (.dmv c .status) 28 = false ∧ (d.dmvPromote c).dmvState c = (if d.closing c then 4 else 1) ∧
    (d.dmvPromote c).reg (.dmv c .actLen) = d.reg (.dmv c .len) &&& 0xFFFFFFFF ∧
    (d.dmvPromote c).reg (.dmv c .residue) = (d.dmvPromote c).reg (.dmv c .actLen) ∧ ((d.dmvPromote c).chan c).map (·.offset) = some 0 ∧
    (d.dmvPromote c).reg (.dmv c .actSrc) = d.reg (.dmv c .src) &&& 0x3FFFFFFFFFFF ∧
    (d.dmvPromote c).reg (.dmv c .actDst) = d.reg (.dmv c .dst) &&& 0x3FFFFFFFFFFF ∧
    (∀ r, (∀ w, r ≠ .dmv c w) ∨ r = .dmv c .errInfo ∨ r = .dmv c .errAddr → (d.dmvPromote c).reg r = d.reg r) := by
  obtain ⟨v4, x, hx, e⟩ := Dev.dmvPromote_eq d c
  rw [e]
  have m2 : (Reg.dmv c .residue).mask = 0xFFFFFFFF := by simp [Reg.mask, Reg.layout, fieldMask]
  generalize hn : (if d.closing c = true then 4 else 1 : Nat) = n
  have hn8 : n % 8 = n := by rw [← hn]; split <;> rfl
  have k1 := dmvLoaded_armed d c (d.reg (.dmv c .src)) (d.reg (.dmv c .dst)) (d.reg (.dmv c .len)) v4 n
  have k2 := dmvLoaded_state d c (d.reg (.dmv c .src)) (d.reg (.dmv c .dst)) (d.reg (.dmv c .len)) v4 n
  have k3 := dmvLoaded_len d c (d.reg (.dmv c .src)) (d.reg (.dmv c .dst)) (d.reg (.dmv c .len)) v4 n
  have k4 := dmvLoaded_src d c (d.reg (.dmv c .src)) (d.reg (.dmv c .dst)) (d.reg (.dmv c .len)) v4 n
  have k5 := dmvLoaded_dst d c (d.reg (.dmv c .src)) (d.reg (.dmv c .dst)) (d.reg (.dmv c .len)) v4 n
  have k6 := dmvLoaded_ne d c (d.reg (.dmv c .src)) (d.reg (.dmv c .dst)) (d.reg (.dmv c .len)) v4 n
  generalize Dev.dmvLoaded d c (d.reg (.dmv c .src)) (d.reg (.dmv c .dst)) (d.reg (.dmv c .len)) v4 n = b at *
  dsimp only
  have hb : ∀ r, r ≠ .dmv c .residue → ((b.setResidue c (b.actLen c)).setChan c x).reg r = b.reg r := fun r hr => by
    rw [Dev.reg_setChan]; unfold Dev.setResidue; rw [Dev.reg_setReg_ne _ _ hr]
  refine ⟨?_, ?_, ?_, ?_, ?_, ?_, ?_, fun r hr => ?_⟩
  · rw [Dev.bitOf_eq_of_reg (hb _ (by simp))]; exact k1
  · exact (Dev.rd_eq_of_reg (hb _ (by simp)) _ _).trans (k2.trans hn8)
  · rw [hb _ (by simp)]; exact k3
  · rw [hb _ (by simp : Reg.dmv c .actLen ≠ .dmv c .residue), Dev.reg_setChan]
    unfold Dev.setResidue; rw [Dev.reg_setReg_same, m2]
    unfold Dev.actLen
    rw [BitVec.ofNat_toNat, k3, BitVec.setWidth_eq, BitVec.and_assoc]; rfl
  · unfold Dev.setChan Dev.chan; rw [tget_tset_same]; simp [hx]
  · rw [hb _ (by simp)]; exact k4
  · rw [hb _ (by simp)]; exact k5
  · rw [hb]
    · refine k6 r fun w hw => ?_
      rcases hr with h | rfl | rfl
      · exact h w
      · rintro h; simp at h; subst h; simp at hw
      · rintro h; simp at h; subst h; simp at hw
    · rcases hr with h | rfl | rfl
      · exact h _
      · simp
      · simp
theorem Dev.chan_dropChan (d : Dev) (c : Nat) : (d.dropChan c).chan c = none := tget_tdel_same _ _
theorem Dev.dmvState_shown (d : Dev) (c : Nat) : d.shown.dmvState c = d.dmvState c := Dev.rd_shown _ _ _ _ (by simp [Reg.show])
theorem Dev.dmvBit_shown (d : Dev) (c : Nat) (w : DmvReg) (i : Nat) : d.shown.bitOf (.dmv c w) i = d.bitOf (.dmv c w) i := Dev.bitOf_shown _ _ _ (by simp [Reg.show])
theorem Dev.dmvRd_shown (d : Dev) (c : Nat) (w : DmvReg) (hi lo : Nat) : d.shown.rd (.dmv c w) hi lo = d.rd (.dmv c w) hi lo := Dev.rd_shown _ _ _ _ (by simp [Reg.show])
theorem Dev.dmvReg_shown (d : Dev) (c : Nat) (w : DmvReg) : d.shown.reg (.dmv c w) = d.reg (.dmv c w) := Dev.reg_shown _ _ (by simp [Reg.show])
theorem Dev.chan_shown (d : Dev) (c : Nat) : d.shown.chan c = d.chan c := by unfold Dev.chan; rw [Dev.shown_svc]

end Sys2Proof.Machine
end

