-- ==== Sys2Proof/Laws/Memory.lean ====
section
/-! SUPPORT. The data of the expanders as a sorted list: writing keeps the canonical form, a read after a write, and that
equal contents are equal lists. -/

namespace Sys2Proof.Machine

/-- A canonical list: its head's key is below every later key, and its tail is canonical. -/
theorem memWf_cons (x : Nat × Stored) (m : List (Nat × Stored)) :
    memWf (x :: m) = true ↔ (∀ y ∈ m, x.1 < y.1) ∧ memWf m = true := by
  induction m generalizing x with
  | nil => simp [memWf]
  | cons y r ih =>
    obtain ⟨k, v⟩ := x
    obtain ⟨k', v'⟩ := y
    rw [memWf, Bool.and_eq_true, decide_eq_true_eq]
    constructor
    · rintro ⟨h1, h2⟩
      refine ⟨fun z hz => ?_, h2⟩
      rcases List.mem_cons.1 hz with rfl | hz
      · exact h1
      · exact lt_trans h1 (((ih _).1 h2).1 z hz)
    · rintro ⟨h1, h2⟩
      exact ⟨h1 _ (List.mem_cons_self ..), h2⟩

/-- What a write adds to the keys. -/
theorem mem_memPut {m : List (Nat × Stored)} {k : Nat} {v : Stored} {x : Nat × Stored} (h : x ∈ memPut m k v) :
    x = (k, v) ∨ x ∈ m := by
  induction m with
  | nil => simpa [memPut] using h
  | cons y r ih =>
    obtain ⟨k', v'⟩ := y
    rw [memPut] at h
    split at h
    · simpa using h
    · split at h
      · rcases List.mem_cons.1 h with h | h <;> simp [h]
      · rcases List.mem_cons.1 h with h | h
        · simp [h]
        · rcases ih h with h | h <;> simp [h]

/-- A write keeps the canonical form. -/
theorem memPut_wf (m : List (Nat × Stored)) (k : Nat) (v : Stored) (h : memWf m = true) : memWf (memPut m k v) = true := by
  induction m with
  | nil => rfl
  | cons y r ih =>
    obtain ⟨k', v'⟩ := y
    obtain ⟨h1, h2⟩ := (memWf_cons _ _).1 h
    rw [memPut]
    split
    · rename_i hk
      refine (memWf_cons _ _).2 ⟨fun z hz => ?_, h⟩
      rcases List.mem_cons.1 hz with rfl | hz
      · exact hk
      · exact lt_trans hk (h1 z hz)
    · split
      · rename_i hk
        subst hk
        exact (memWf_cons _ _).2 ⟨h1, h2⟩
      · refine (memWf_cons _ _).2 ⟨fun z hz => ?_, ih h2⟩
        rcases mem_memPut hz with rfl | hz
        · show k' < k; omega
        · exact h1 z hz

/-- Leaving entries out keeps the canonical form. -/
theorem memWf_filter (m : List (Nat × Stored)) (p : Nat × Stored → Bool) (h : memWf m = true) : memWf (m.filter p) = true := by
  induction m with
  | nil => rfl
  | cons y r ih =>
    obtain ⟨h1, h2⟩ := (memWf_cons _ _).1 h
    rw [List.filter_cons]
    split
    · exact (memWf_cons _ _).2 ⟨fun z hz => h1 z (List.mem_filter.1 hz).1, ih h2⟩
    · exact ih h2

/-- A read after a write to the same line. -/
theorem memGet_memPut_same (m : List (Nat × Stored)) (k : Nat) (v : Stored) : memGet (memPut m k v) k = some v := by
  induction m with
  | nil => simp [memPut, memGet]
  | cons y r ih =>
    obtain ⟨k', v'⟩ := y
    rw [memPut]
    split
    · simp [memGet]
    · split
      · simp [memGet]
      · rename_i h1 h2
        rw [memGet, if_neg (by omega), ih]

/-- A read after a write to another line. -/
theorem memGet_memPut_ne (m : List (Nat × Stored)) {k k2 : Nat} (v : Stored) (h : k2 ≠ k) :
    memGet (memPut m k v) k2 = memGet m k2 := by
  induction m with
  | nil => simp [memPut, memGet, h.symm]
  | cons y r ih =>
    obtain ⟨k', v'⟩ := y
    rw [memPut]
    split
    · rw [memGet, if_neg h.symm]
    · split
      · rename_i h1 h2
        subst h2
        rw [memGet, if_neg h.symm, memGet, if_neg h.symm]
      · rw [memGet, memGet, ih]

/-- No entry below every key of a list. -/
theorem memGet_below {m : List (Nat × Stored)} {k : Nat} (h : ∀ y ∈ m, k < y.1) : memGet m k = none := by
  induction m with
  | nil => rfl
  | cons y r ih =>
    obtain ⟨k', v'⟩ := y
    have := h _ (List.mem_cons_self ..)
    rw [memGet, if_neg (by simp only at this; omega)]
    exact ih fun z hz => h z (List.mem_cons_of_mem _ hz)

/-- Canonical lists with the same contents are equal. -/
theorem memWf_ext (m n : List (Nat × Stored)) (hm : memWf m = true) (hn : memWf n = true) (h : ∀ k, memGet m k = memGet n k) :
    m = n := by
  induction m generalizing n with
  | nil =>
    cases n with
    | nil => rfl
    | cons y r => obtain ⟨k, v⟩ := y; have := h k; simp [memGet] at this
  | cons x r ih =>
    obtain ⟨k, v⟩ := x
    cases n with
    | nil => have := h k; simp [memGet] at this
    | cons y t =>
      obtain ⟨k', v'⟩ := y
      obtain ⟨hm1, hm2⟩ := (memWf_cons _ _).1 hm
      obtain ⟨hn1, hn2⟩ := (memWf_cons _ _).1 hn
      have hk : k = k' := by
        rcases lt_trichotomy k k' with hlt | heq | hlt
        · have h1 := h k
          rw [memGet, if_pos rfl, memGet_below (k := k) (m := (k', v') :: t)] at h1
          · simp at h1
          · intro z hz
            rcases List.mem_cons.1 hz with rfl | hz
            · exact hlt
            · exact lt_trans hlt (hn1 z hz)
        · exact heq
        · have h1 := h k'
          rw [memGet_below (k := k') (m := (k, v) :: r), memGet, if_pos rfl] at h1
          · simp at h1
          · intro z hz
            rcases List.mem_cons.1 hz with rfl | hz
            · exact hlt
            · exact lt_trans hlt (hm1 z hz)
      subst hk
      have hv : v = v' := by have := h k; simpa [memGet] using this
      subst hv
      refine congrArg _ (ih t hm2 hn2 fun j => ?_)
      by_cases hj : k = j
      · subst hj
        rw [memGet_below hm1, memGet_below hn1]
      · have := h j
        rwa [memGet, if_neg hj, memGet, if_neg hj] at this

/-- The machine after reset lists no line. -/
theorem memWf_reset : memWf State.reset.dev.pool.mem = true := rfl

/-- A line written to an expander keeps the canonical form. -/
theorem Dev.memWrite_wf (d : Dev) (port addr : Nat) (v : Stored) (h : memWf d.pool.mem = true) :
    memWf (d.memWrite port addr v).pool.mem = true := memPut_wf _ _ _ h

/-- Copying many lines keeps the canonical form. -/
theorem memWf_foldl_memPut {α : Type} (l : List α) (f : α → Nat) (g : α → Stored) (m : List (Nat × Stored)) (h : memWf m = true) :
    memWf (l.foldl (fun m x => memPut m (f x) (g x)) m) = true := by
  induction l generalizing m with
  | nil => exact h
  | cons x r ih => exact ih _ (memPut_wf _ _ _ h)

end Sys2Proof.Machine
end

