-- ==== Sys2Proof/Laws/Pool.lean ====
section
/-! SUPPORT. What the tables, the caches, the line copies and the messages of the pool leave alone: the records of extents,
domains, operations, fences, migrations, exports and imports. -/

namespace Sys2Proof.Machine

theorem records_fields {p q : PoolState} (h : p.records = q.records) : p.extents = q.extents ∧ p.extentSeq = q.extentSeq ∧
    p.domains = q.domains ∧ p.dcOps = q.dcOps ∧ p.fence = q.fence ∧ p.fenceQueue = q.fenceQueue ∧ p.epoch = q.epoch ∧
    p.hubA.bindings = q.hubA.bindings ∧ p.hubB.bindings = q.hubB.bindings ∧ p.notices = q.notices := by
  simpa [PoolState.records] using h

theorem Dev.wakeQuarters_pool (d : Dev) (i : Nat) : (d.wakeQuarters i).pool = d.pool := by simp [Dev.wakeQuarters]
theorem Dev.countInvalidation_pool (d : Dev) : d.countInvalidation.pool = d.pool :=
  foldl_frame Dev.pool _ _ (fun d t => by simp) d
theorem Dev.writeBlock_records (d : Dev) (b : Nat) (e : BlockEntry) : (d.writeBlock b e).pool.records = d.pool.records := by
  unfold Dev.writeBlock; dsimp only; rw [Dev.count_pool]; dsimp only [PoolState.records]; rw [Dev.wakeQuarters_pool]
theorem Dev.writeSlot_records (d : Dev) (i : Nat) (e : SlotEntry) : (d.writeSlot i e).pool.records = d.pool.records := by
  unfold Dev.writeSlot; dsimp only; rw [Dev.count_pool]; dsimp only [PoolState.records]; rw [Dev.wakeQuarters_pool]
theorem Dev.invalidateBlock_records (d : Dev) (b : Nat) : (d.invalidateBlock b).pool.records = d.pool.records := by
  unfold Dev.invalidateBlock; rw [Dev.countInvalidation_pool]; rfl
theorem Dev.invalidateSlot_records (d : Dev) (i : Nat) : (d.invalidateSlot i).pool.records = d.pool.records := by
  unfold Dev.invalidateSlot; rw [Dev.countInvalidation_pool]; rfl

/-- A checked read changes only what its rewrite changes. -/
theorem readRow_records {β : Type} (d : Dev) (i : Nat) (a b : β) (ok : β → Bool) (put : Dev → β → Dev)
    (hput : ∀ d e, (put d e).pool.records = d.pool.records) : (readRow d i a b ok put).2.pool.records = d.pool.records := by
  unfold readRow
  dsimp only
  split_ifs <;> simp [hput]

theorem Dev.readBlock_records (d : Dev) (b : Nat) : (d.readBlock b).2.pool.records = d.pool.records := by
  have h := readRow_records d b (tgetD d.pool.blocks.a b (d.blockDefault b)) (tgetD d.pool.blocks.b b (d.blockDefault b))
    BlockEntry.ok (fun d e => d.writeBlock b e) fun d e => Dev.writeBlock_records d b e
  unfold Dev.readBlock
  dsimp only
  split <;> rename_i hr <;> rw [hr] at h
  · exact h
  · rw [Dev.invalidateBlock_records, Dev.writeBlock_records]; exact h
theorem Dev.readSlot_records (d : Dev) (i : Nat) : (d.readSlot i).2.pool.records = d.pool.records := by
  have h := readRow_records d i (tgetD d.pool.slots.a i slotDefault) (tgetD d.pool.slots.b i slotDefault)
    SlotEntry.ok (fun d e => d.writeSlot i e) fun d e => Dev.writeSlot_records d i e
  unfold Dev.readSlot
  split <;> rename_i hr <;> rw [hr] at h
  · exact h
  · rw [Dev.invalidateSlot_records, Dev.writeSlot_records]; exact h
theorem Dev.changeBlock_records (d : Dev) (b : Nat) (f : BlockEntry → BlockEntry) :
    (d.changeBlock b f).pool.records = d.pool.records := by
  unfold Dev.changeBlock; rw [Dev.writeBlock_records, Dev.readBlock_records]
theorem Dev.changeSlot_records (d : Dev) (i : Nat) (f : SlotEntry → SlotEntry) :
    (d.changeSlot i f).pool.records = d.pool.records := by
  unfold Dev.changeSlot; rw [Dev.writeSlot_records, Dev.readSlot_records]
theorem Dev.updateBlock_records (d : Dev) (b : Nat) (f : BlockEntry → BlockEntry) :
    (d.updateBlock b f).pool.records = d.pool.records := by
  unfold Dev.updateBlock; rw [Dev.invalidateBlock_records, Dev.changeBlock_records]
theorem Dev.updateSlot_records (d : Dev) (i : Nat) (f : SlotEntry → SlotEntry) :
    (d.updateSlot i f).pool.records = d.pool.records := by
  unfold Dev.updateSlot; rw [Dev.invalidateSlot_records, Dev.changeSlot_records]
theorem Dev.clearSlots_records (d : Dev) (l : List Nat) : (d.clearSlots l).pool.records = d.pool.records :=
  foldl_frame (fun d : Dev => d.pool.records) _ _ (fun d s => Dev.changeSlot_records d s _) d

/-- A message of the device's own, stored, sent at once or discarded, changes no state of the pool or of the fabric's requests. -/
theorem Dev.writeOut_frame (d : Dev) (m : Msg) : (d.writeOut m).pool = d.pool ∧ (d.writeOut m).fab = d.fab := by
  unfold Dev.writeOut
  split_ifs
  · exact ⟨foldl_frame Dev.pool _ _ (fun d o => by simp) d, foldl_frame Dev.fab _ _ (fun d o => by simp) d⟩
  · simp
  · simp
theorem Dev.writeLink_frame (d : Dev) (e : Entity) (s : Nat) (ws : List Word) :
    (d.writeLink e s ws).pool = d.pool ∧ (d.writeLink e s ws).fab = d.fab := by
  unfold Dev.writeLink; split_ifs
  · exact Dev.writeOut_frame _ _
  · exact ⟨rfl, rfl⟩

/-- A message that is sent or dropped changes no state of the pool or of the management processor's requests. -/
theorem Dev.postOrDrop_frame (d : Dev) (ws : List Word) : (d.postOrDrop ws).pool = d.pool ∧
    (d.postOrDrop ws).fab.requests = d.fab.requests ∧ (d.postOrDrop ws).fab.answered = d.fab.answered := by
  have h : (d.noRoute (msgDst ws)).pool = d.pool ∧ (d.noRoute (msgDst ws)).fab.requests = d.fab.requests ∧
      (d.noRoute (msgDst ws)).fab.answered = d.fab.answered := by
    unfold Dev.noRoute; dsimp only; split <;> simp
  unfold Dev.postOrDrop Dev.post Dev.postFrom
  split
  · exact h
  · rename_i n hn
    cases hl : d.linkFor n ws with
    | none => exact h
    | some s =>
      have hw := Dev.writeLink_frame d (d.writerOf ws) s ws
      exact ⟨hw.1, by simp [hw.2], by simp [hw.2]⟩
theorem Dev.posts_frame (d : Dev) (l : List (List Word)) :
    (l.foldl (fun d ws => d.postOrDrop ws) d).pool = d.pool ∧
    (l.foldl (fun d ws => d.postOrDrop ws) d).fab.requests = d.fab.requests ∧
    (l.foldl (fun d ws => d.postOrDrop ws) d).fab.answered = d.fab.answered :=
  ⟨foldl_frame Dev.pool _ _ (fun d w => (d.postOrDrop_frame w).1) d,
    foldl_frame (fun d : Dev => d.fab.requests) _ _ (fun d w => (d.postOrDrop_frame w).2.1) d,
    foldl_frame (fun d : Dev => d.fab.answered) _ _ (fun d w => (d.postOrDrop_frame w).2.2) d⟩

theorem Dev.posts_fab (d : Dev) (f : FabState) (l : List (List Word)) :
    (l.foldl (fun (d : Dev) ws => d.postOrDrop ws) { d with fab := f }).pool = d.pool ∧
    (l.foldl (fun (d : Dev) ws => d.postOrDrop ws) { d with fab := f }).fab.requests = f.requests ∧
    (l.foldl (fun (d : Dev) ws => d.postOrDrop ws) { d with fab := f }).fab.answered = f.answered := Dev.posts_frame _ _

/-- A management request is sent and waited for under the next tag (R278). -/
theorem Dev.mgmtRequest_does (d : Dev) (r : MgmtReq) : (d.mgmtRequest r).pool = d.pool ∧
    (d.mgmtRequest r).fab.requests = d.fab.requests ++ [{ r with tag := d.fab.tagNext.toNat }] := by
  unfold Dev.mgmtRequest
  dsimp only
  rw [(Dev.posts_fab _ _ _).1, (Dev.posts_fab _ _ _).2.1]
  exact ⟨rfl, rfl⟩

/-- An answer is remembered under its tag, in place of what that device had asked under it before (R278). -/
theorem Dev.mgmtAnswer_does (d : Dev) (dev : DeviceId) (tag mtype id st : Nat) : (d.mgmtAnswer dev tag mtype id st).pool = d.pool ∧
    (d.mgmtAnswer dev tag mtype id st).fab.answered =
      (d.fab.answered.filter fun a => !decide (a.dev = dev ∧ a.tag = tag)) ++ [⟨dev, tag, mtype, st⟩] := by
  unfold Dev.mgmtAnswer
  extract_lets f d1
  have h := Dev.posts_frame d1 (mgmtMessages d1.devId dev.toNat tag mtype id 0 st false [])
  exact ⟨h.1.trans (by rfl), h.2.2.trans (by rfl)⟩

theorem Dev.showSlice_pool (d : Dev) (t : Nat) : (d.showSlice t).pool = d.pool := by unfold Dev.showSlice; simp
theorem Dev.dropEntry_pool (d : Dev) (g : Nat) : (d.dropEntry g).pool = d.pool := by unfold Dev.dropEntry; rw [Dev.showSlice_pool]
theorem Dev.snoop_pool (d : Dev) (h : Holder) (line : Nat) (k : SnoopKind) : (d.snoop h line k).pool = d.pool := by
  unfold Dev.snoop
  split
  · rw [Dev.count_pool]; exact (Dev.writeOut_frame _ _).1
  · rw [Dev.count_pool, (Dev.postOrDrop_frame _ _).1]
  · simp
theorem Dev.snoopAll_pool (d : Dev) (hs : List Holder) (g : Nat) (m : BitVec 16) (k : SnoopKind) :
    (d.snoopAll hs g m k).pool = d.pool := by
  unfold Dev.snoopAll
  refine foldl_frame Dev.pool _ _ (fun d h => ?_) d
  split
  · exact foldl_frame Dev.pool _ _ (fun d i => Dev.snoop_pool _ _ _ _) d
  · exact Dev.snoop_pool _ _ _ _

theorem Dev.storeCopy_records (d : Dev) (p a : Nat) (v : Stored) : (d.storeCopy p a v).pool.records = d.pool.records := rfl
theorem Dev.poisonLine_records (d : Dev) (line : Nat) : (d.poisonLine line).pool.records = d.pool.records := by
  unfold Dev.poisonLine; split
  · rfl
  · dsimp only; split <;> rfl
theorem Dev.xtsDomain_pool (d : Dev) (e : BlockEntry) (line : Nat) : (d.xtsDomain e line).2.pool = d.pool := by
  unfold Dev.xtsDomain; split_ifs <;> simp
theorem Dev.decrypt_pool (d : Dev) (dom real : Nat) (v : Option Stored) : (d.decrypt dom real v).2.pool = d.pool := by
  unfold Dev.decrypt
  split
  · rfl
  · split
    · rfl
    · exact Dev.openBits_pool d 512
  · exact Dev.openBits_pool d 512
  · rfl
theorem Dev.readCopyAt_pool (d : Dev) (p : Place) (c dom real : Nat) : (d.readCopyAt p c dom real).2.pool = d.pool := by
  unfold Dev.readCopyAt; split
  · dsimp only; rw [Dev.count_pool, Dev.decrypt_pool]
  · rfl
theorem Dev.putLine_records (d : Dev) (e : BlockEntry) (real : Nat) (v : LineData) (p : Bool) :
    (d.putLine e real v p).pool.records = d.pool.records := by
  have hx : (if p then ((some e.owner.toNat, d) : Option Nat × Dev) else d.xtsDomain e real).2.pool = d.pool := by
    split_ifs
    · rfl
    · exact Dev.xtsDomain_pool d e real
  unfold Dev.putLine
  split
  · rename_i hd
    rw [hd] at hx
    dsimp only at hx ⊢
    split
    · refine (foldl_frame (fun d : Dev => d.pool.records) _ _ (fun d c => ?_) _).trans (by rw [hx])
      rw [Dev.count_pool, Dev.storeCopy_records]
    · rw [hx]
  · rename_i hd _
    rw [hd] at hx
    exact congrArg _ hx

end Sys2Proof.Machine
end

