-- ==== Sys2Proof/Laws/Ports.lean ====
section
/-! SUPPORT. A port: what entering a state leaves, and what a change of its record leaves. -/

namespace Sys2Proof.Machine

theorem Dev.enterPort_state (d : Dev) (p st reason : Nat) (h : st < 16) : (d.enterPort p st reason).portState p = st := by
  have h1 : (Reg.prtStatus p).holds 31 28 = true := by simp [Reg.holds, Reg.mask, Reg.layout, fieldMask]
  have : ∀ (x : Dev), x = (((d.wr (.prtStatus p) 31 28 st).wr (.prtStatus p) 27 24 (if st = 10 then reason else 0)).wr (.hpStatus p) 26 26 (if st = 9 then 1 else 0)) →
      x.rd (.prtStatus p) 31 28 = st := by
    rintro x rfl
    rw [Dev.rd_wr_ne _ _ _ _ _ _ (by simp), Dev.rd_wr_field _ _ h1 (by decide), Dev.rd_wr_same _ _ h1]
    norm_num; omega
  unfold Dev.enterPort Dev.portState
  dsimp only
  split
  · rw [Dev.rd_fabricEvent _ _ _ _ _ _ (by simp [Reg.side])]; exact this _ rfl
  · exact this _ rfl
theorem Dev.enterPort_reason (d : Dev) (p st reason : Nat) : (d.enterPort p st reason).rd (.prtStatus p) 27 24 = if st = 10 then reason % 16 else 0 := by
  have h1 : (Reg.prtStatus p).holds 27 24 = true := by simp [Reg.holds, Reg.mask, Reg.layout, fieldMask]
  have : ∀ (x : Dev), x = (((d.wr (.prtStatus p) 31 28 st).wr (.prtStatus p) 27 24 (if st = 10 then reason else 0)).wr (.hpStatus p) 26 26 (if st = 9 then 1 else 0)) →
      x.rd (.prtStatus p) 27 24 = if st = 10 then reason % 16 else 0 := by
    rintro x rfl
    rw [Dev.rd_wr_ne _ _ _ _ _ _ (by simp), Dev.rd_wr_same _ _ h1]
    split <;> norm_num
  unfold Dev.enterPort
  dsimp only
  split
  · rw [Dev.rd_fabricEvent _ _ _ _ _ _ (by simp [Reg.side])]; exact this _ rfl
  · exact this _ rfl
theorem Dev.enterPort_rd (d : Dev) (p st reason : Nat) (r : Reg) (hi lo : Nat) (hr : r.holds hi lo = true) (hs : r.side = false) (h1 : r = .prtStatus p → hi < 24) (h2 : r = .hpStatus p → hi < 26 ∨ 26 < lo) :
    (d.enterPort p st reason).rd r hi lo = d.rd r hi lo := by
  have : ∀ (x : Dev), x = (((d.wr (.prtStatus p) 31 28 st).wr (.prtStatus p) 27 24 (if st = 10 then reason else 0)).wr (.hpStatus p) 26 26 (if st = 9 then 1 else 0)) →
      x.rd r hi lo = d.rd r hi lo := by
    rintro x rfl
    have e1 : ∀ (d : Dev) a b n, 24 ≤ b → (d.wr (.prtStatus p) a b n).rd r hi lo = d.rd r hi lo := fun d a b n hb => by
      by_cases h : r = .prtStatus p
      · have := h1 h; rw [Dev.rd_wr_field _ _ hr (by omega)]
      · rw [Dev.rd_wr_ne _ _ _ _ _ _ h]
    have e2 : ∀ (d : Dev) n, (d.wr (.hpStatus p) 26 26 n).rd r hi lo = d.rd r hi lo := fun d n => by
      by_cases h : r = .hpStatus p
      · have := h2 h; rw [Dev.rd_wr_field _ _ hr (by omega)]
      · rw [Dev.rd_wr_ne _ _ _ _ _ _ h]
    rw [e2, e1 _ _ _ _ (by decide), e1 _ _ _ _ (by decide)]
  unfold Dev.enterPort
  dsimp only
  split
  · rw [Dev.rd_fabricEvent _ _ _ _ _ _ hs]; exact this _ rfl
  · exact this _ rfl
theorem Dev.enterPort_port (d : Dev) (p st reason : Nat) : (d.enterPort p st reason).port = d.port := by
  unfold Dev.enterPort; dsimp only; split <;> simp
theorem Dev.enterPort_prec (d : Dev) (p st reason q : Nat) : (d.enterPort p st reason).prec q = d.prec q := by
  unfold Dev.prec; rw [Dev.enterPort_port]
theorem Dev.modPort_prec (d : Dev) (p : Nat) (f : PortRec → PortRec) : (d.modPort p f).prec p = f (d.prec p) := by
  simp [Dev.modPort, Dev.prec, tgetD_tset_same]
theorem Dev.modPort_reg (d : Dev) (p : Nat) (f : PortRec → PortRec) (r : Reg) : (d.modPort p f).reg r = d.reg r := rfl
theorem Dev.modPort_rd (d : Dev) (p : Nat) (f : PortRec → PortRec) (r : Reg) (hi lo : Nat) : (d.modPort p f).rd r hi lo = d.rd r hi lo := Dev.rd_eq_of_reg (Dev.modPort_reg d p f r) _ _
theorem Dev.modPort_bit (d : Dev) (p : Nat) (f : PortRec → PortRec) (r : Reg) (i : Nat) : (d.modPort p f).bitOf r i = d.bitOf r i := Dev.bitOf_eq_of_reg (Dev.modPort_reg d p f r) _
theorem Dev.modPort_state (d : Dev) (p : Nat) (f : PortRec → PortRec) (q : Nat) : (d.modPort p f).portState q = d.portState q := Dev.modPort_rd d p f _ _ _
theorem Dev.modPort_mode (d : Dev) (p : Nat) (f : PortRec → PortRec) (q : Nat) : (d.modPort p f).portMode q = d.portMode q := Dev.modPort_rd d p f _ _ _
theorem Dev.portState_shown (d : Dev) (p : Nat) : d.shown.portState p = d.portState p := Dev.rd_shown _ _ _ _ (by simp [Reg.show])
theorem Dev.prec_shown (d : Dev) (p : Nat) : d.shown.prec p = d.prec p := by unfold Dev.prec; simp
theorem Dev.portState_report (d : Dev) (a b c p : Nat) : (d.report a b c).portState p = d.portState p := Dev.rd_report _ _ _ _ _ _ _ (by simp [Reg.side])
theorem Dev.enterFailed_state (d : Dev) (p : Fin 64) (reason : Nat) : (d.enterFailed p reason).portState p = 10 ∧ (d.enterFailed p reason).rd (.prtStatus p) 27 24 = reason % 16 := by
  unfold Dev.enterFailed
  rw [dif_pos p.isLt]
  exact ⟨Dev.enterPort_state _ _ _ _ (by decide), by rw [Dev.enterPort_reason]; rfl⟩
theorem Dev.failPort_state (d : Dev) (p : Fin 64) (reason : Nat) : (d.failPort p reason).portState p = 10 ∧ (d.failPort p reason).rd (.prtStatus p) 27 24 = reason % 16 := by
  unfold Dev.failPort
  rw [if_pos p.isLt]
  exact ⟨by rw [Dev.portState_report]; exact (d.enterFailed_state p reason).1,
    by rw [Dev.rd_report _ _ _ _ _ _ _ (by simp [Reg.side])]; exact (d.enterFailed_state p reason).2⟩
theorem Dev.gateWarn_reg (d : Dev) (p : Fin 64) (r : Reg) (h : r.side = false) : (d.gateWarn p).reg r = d.reg r := by
  unfold Dev.gateWarn; dsimp only; split
  · rw [Dev.reg_report _ _ _ _ _ h]
  · rfl
theorem Dev.raisePowerFault_bit (d : Dev) (p : Nat) : (d.raisePowerFault p).bitOf (.hpStatus p) 25 = true := by
  have h1 : (Reg.hpStatus p).holds 25 25 = true := by simp [Reg.holds, Reg.mask, Reg.layout, fieldMask]
  unfold Dev.raisePowerFault
  split
  · assumption
  · rw [Dev.bitOf_report _ _ _ _ _ _ (by simp [Reg.side]), Dev.modPort_bit, Dev.bitOf_wr_same _ _ h1]; rfl

end Sys2Proof.Machine
end

