-- ==== Sys2Proof/Laws/Rings.lean ====
section
/-! SUPPORT. What the ring operations write: a ring's run, its RING_STATUS fields and its index registers, each apart from the
others. -/

namespace Sys2Proof.Machine

theorem Dev.ringRun_setRing (d : Dev) (s : SliceRec) (r : Nat) (x : RingRun) : (d.setRing s r x).ringRun s r = some x := by
  unfold Dev.setRing Dev.ringRun; rw [Dev.wr_svc]; exact tget_tset_same _ _ _

theorem ringStatus_holds (p i r : Nat) (hi lo : Nat) (h : (hi = 31 ∧ lo = 29) ∨ (hi = 24 ∧ lo = 17) ∨ (hi = 16 ∧ lo = 0)) : (Reg.ring p i r .status).holds hi lo = true := by
  rcases h with ⟨rfl, rfl⟩ | ⟨rfl, rfl⟩ | ⟨rfl, rfl⟩ <;> simp [Reg.holds, Reg.mask, Reg.layout, fieldMask]

theorem Dev.ringState_setRing (d : Dev) (s : SliceRec) (r : Nat) (x : RingRun) : (d.setRing s r x).ringState s r = d.ringState s r := by
  unfold Dev.setRing Dev.ringState; rw [Dev.rd_wr_field _ _ (ringStatus_holds _ _ _ _ _ (by simp)) (by decide)]; rfl

theorem Dev.code_setRing (d : Dev) (s : SliceRec) (r : Nat) (x : RingRun) : (d.setRing s r x).rd (.ring s.port s.index r .status) 24 17 = d.rd (.ring s.port s.index r .status) 24 17 := by
  unfold Dev.setRing; rw [Dev.rd_wr_field _ _ (ringStatus_holds _ _ _ _ _ (by simp)) (by decide)]; rfl

theorem Dev.ringReg_setRing (d : Dev) (s : SliceRec) (r : Nat) (x : RingRun) (w : RingReg) (h : w ≠ .status) : (d.setRing s r x).ringReg s r w = d.ringReg s r w := by
  unfold Dev.setRing Dev.ringReg; rw [Dev.reg_wr_ne _ _ _ _ (by simp [h])]; rfl

theorem Dev.ringReg_setRingState (d : Dev) (s : SliceRec) (r n : Nat) (w : RingReg) (h : w ≠ .status) : (d.setRingState s r n).ringReg s r w = d.ringReg s r w := by
  unfold Dev.setRingState Dev.ringReg; rw [Dev.reg_wr_ne _ _ _ _ (by simp [h])]

theorem Dev.ringState_setRingState (d : Dev) (s : SliceRec) (r n : Nat) : (d.setRingState s r n).ringState s r = n % 8 := by
  unfold Dev.setRingState Dev.ringState; rw [Dev.rd_wr_same _ _ (ringStatus_holds _ _ _ _ _ (by simp))]; rfl

theorem Dev.ringRun_setRingState (d : Dev) (s : SliceRec) (r n : Nat) : (d.setRingState s r n).ringRun s r = d.ringRun s r := by
  unfold Dev.setRingState Dev.ringRun; rw [Dev.wr_svc]

theorem Dev.ringRun_setRingReg (d : Dev) (s : SliceRec) (r n : Nat) (w : RingReg) : (d.setRingReg s r w n).ringRun s r = d.ringRun s r := by
  unfold Dev.setRingReg Dev.ringRun; rw [Dev.setReg_svc]

theorem Dev.ringState_setRingReg (d : Dev) (s : SliceRec) (r n : Nat) (w : RingReg) (h : w ≠ .status) : (d.setRingReg s r w n).ringState s r = d.ringState s r := by
  unfold Dev.setRingReg Dev.ringState; rw [Dev.rd_setReg_ne _ _ _ _ (by simp [h.symm])]

theorem Dev.ringReg_setRingReg_ne (d : Dev) (s : SliceRec) (r n : Nat) {w w' : RingReg} (h : w' ≠ w) : (d.setRingReg s r w n).ringReg s r w' = d.ringReg s r w' := by
  unfold Dev.setRingReg Dev.ringReg; rw [Dev.reg_setReg_ne _ _ (by simp [h])]

theorem Dev.ringReg_setRingReg_zero (d : Dev) (s : SliceRec) (r : Nat) (w : RingReg) : (d.setRingReg s r w 0).ringReg s r w = 0 := by
  unfold Dev.setRingReg Dev.ringReg; rw [Dev.reg_setReg_same]; simp

theorem Dev.ringReg_setRingReg (d : Dev) (s : SliceRec) (r : Nat) (v : BitVec 32) : (d.setRingReg s r .cqCi v.toNat).ringReg s r .cqCi = v.toNat := by
  unfold Dev.setRingReg Dev.ringReg; rw [Dev.reg_setReg_same]
  have hm : (Reg.ring s.port s.index r .cqCi).mask = 0xFFFFFFFF := by simp [Reg.mask, Reg.layout, fieldMask]
  rw [hm, BitVec.toNat_and, BitVec.toNat_ofNat]
  have hv := v.isLt
  rw [Nat.mod_eq_of_lt (by omega)]
  exact (Nat.and_two_pow_sub_one_eq_mod v.toNat 32).trans (Nat.mod_eq_of_lt hv)

theorem Dev.ringState_shown (d : Dev) (s : SliceRec) (r : Nat) : d.shown.ringState s r = d.ringState s r := Dev.rd_shown _ _ _ _ (by simp [Reg.show])

theorem Dev.ringReg_shown (d : Dev) (s : SliceRec) (r : Nat) (w : RingReg) : d.shown.ringReg s r w = d.ringReg s r w := by
  unfold Dev.ringReg; rw [Dev.reg_shown _ _ (by simp [Reg.show])]

theorem Dev.ringRun_shown (d : Dev) (s : SliceRec) (r : Nat) : d.shown.ringRun s r = d.ringRun s r := by
  unfold Dev.ringRun; rw [Dev.shown_svc]

theorem Dev.rd_ringMessage (d : Dev) (s : SliceRec) (r hi lo : Nat) (h : (hi = 31 ∧ lo = 29) ∨ (hi = 24 ∧ lo = 17)) :
    (d.ringMessage s r).rd (.ring s.port s.index r .status) hi lo = d.rd (.ring s.port s.index r .status) hi lo := by
  have k : ∀ (x : RingRun), (d.setRing s r x).rd (.ring s.port s.index r .status) hi lo = d.rd (.ring s.port s.index r .status) hi lo := fun x => by
    rcases h with ⟨rfl, rfl⟩ | ⟨rfl, rfl⟩
    · exact Dev.ringState_setRing d s r x
    · exact Dev.code_setRing d s r x
  unfold Dev.ringMessage
  split
  · split
    · rfl
    · split
      · exact k _
      · unfold Dev.sliceMsix
        rw [Dev.rd_msix _ _ _ _ _ _ (by simp [Reg.side]), k]
  · rfl

/-- A ring's message leaves the ring's registers but its status as they are. -/
theorem Dev.ringReg_ringMessage (d : Dev) (s : SliceRec) (r : Nat) (w : RingReg) (h : w ≠ .status) :
    (d.ringMessage s r).ringReg s r w = d.ringReg s r w := by
  unfold Dev.ringMessage
  split
  · split
    · rfl
    · split
      · exact Dev.ringReg_setRing _ _ _ _ _ h
      · unfold Dev.sliceMsix Dev.ringReg
        rw [Dev.reg_msix _ _ _ _ (by simp [Reg.side])]
        exact Dev.ringReg_setRing d s r _ w h
  · rfl

theorem Dev.ringState_ringError (d : Dev) (s : SliceRec) (r code : Nat) : (d.ringError s r code).ringState s r = 4 := by
  unfold Dev.ringError Dev.ringState
  rw [Dev.rd_ringMessage _ _ _ _ _ (by simp), Dev.rd_wr_field _ _ (ringStatus_holds _ _ _ _ _ (by simp)) (by decide)]
  exact Dev.ringState_setRingState _ _ _ _

theorem Dev.code_ringError (d : Dev) (s : SliceRec) (r code : Nat) : (d.ringError s r code).rd (.ring s.port s.index r .status) 24 17 = code % 256 := by
  unfold Dev.ringError
  rw [Dev.rd_ringMessage _ _ _ _ _ (by simp), Dev.rd_wr_same _ _ (ringStatus_holds _ _ _ _ _ (by simp))]; rfl

theorem Dev.ringState_flrEnds (d : Dev) (s : SliceRec) (r p : Nat) (h : d.ringState s r = 0) : (d.flrEnds p).ringState s r = 0 := by
  unfold Dev.flrEnds
  split
  · unfold Dev.ringState Dev.rd
    rw [Dev.reg_resetRegs]
    rw [show (Reg.ring s.port s.index r .status).layout.reset = 0 from rfl]
    dsimp only
    by_cases hp : s.port = p
    · rw [if_pos (by simpa using hp)]; rfl
    · rw [if_neg (by simpa using hp)]; exact h
  · exact h

/-- An operation that starts runs its body on the engine that takes it. -/
theorem Dev.startOp_starts {d : Dev} {slice ring index opcode : Nat} {services : List Nat} {sl : SliceRec} {x : RingRun} {o : RingOp} {e : Nat}
    {d' : Dev} (h : d.starts slice ring index opcode services sl x o e d') (body : Dev → SliceRec → RingRun → RingOp → Nat → Dev) :
    d.startOp slice ring index opcode services body = body d' sl x o e := by
  obtain ⟨h1, h2, h3, h4, h5, h6, h7, d1, h8, rfl⟩ := h
  unfold Dev.startOp
  simp only [h1, h2, h3, h4, h5, h6, h7, h8]
  simp

/-- A command that starts an operation leaves the device that its body makes. -/
theorem exec_starts {c : Instr} {s : State} {slice ring index opcode : Nat} {services : List Nat} {sl : SliceRec} {x : RingRun} {o : RingOp}
    {e : Nat} {d' d2 : Dev} {body : Dev → SliceRec → RingRun → RingOp → Nat → Dev}
    (he : exec c s = onDev s fun d => d.startOp slice ring index opcode services body)
    (h : s.dev.starts slice ring index opcode services sl x o e d') (hb : body d' sl x o e = d2) : exec c s = .next (s.onto d2) :=
  exec_onto he ((Dev.startOp_starts h body).trans hb)

theorem Dev.showEngines_svc (d : Dev) (t : Nat) : (d.showEngines t).svc = d.svc := by
  unfold Dev.showEngines; simp

theorem Dev.ringRun_setOp (d : Dev) (s : SliceRec) (r : Nat) (o : RingOp) {x : RingRun} (h : d.ringRun s r = some x) :
    (d.setOp s r o).ringRun s r = some { x with ops := x.ops.map fun y => if y.index = o.index then o else y } := by
  unfold Dev.setOp
  rw [h]
  dsimp only
  split
  · unfold Dev.ringRun; rw [Dev.showEngines_svc]; exact Dev.ringRun_setRing _ _ _ _
  · exact Dev.ringRun_setRing _ _ _ _

theorem Dev.ringRun_endOp (d : Dev) (s : SliceRec) (r : Nat) (o : RingOp) (v : OpResult) {x : RingRun} (h : d.ringRun s r = some x) :
    (d.endOp s r o v).ringRun s r =
      some { x with ops := x.ops.map fun y => if y.index = o.index then { o with stage := .ended, result := v } else y } := by
  unfold Dev.endOp
  dsimp only
  split
  · unfold Dev.ringRun; rw [Dev.showEngines_svc]; exact Dev.ringRun_setOp _ _ _ _ h
  · exact Dev.ringRun_setOp _ _ _ _ h

/-- Replacing an operation by one of its index makes that one the operation found. -/
theorem find_replaced (l : List RingOp) {o o' : RingOp} {i : Nat} (hi : o'.index = i) (h : l.find? (fun o => decide (o.index = i)) = some o) :
    (l.map fun y => if y.index = o'.index then o' else y).find? (fun o => decide (o.index = i)) = some o' := by
  induction l with
  | nil => simp at h
  | cons y l ih =>
    by_cases hy : y.index = i
    · simp [hy, hi]
    · rw [List.find?_cons_of_neg (by simpa using hy)] at h
      rw [List.map_cons, if_neg (by rw [hi]; exact hy), List.find?_cons_of_neg (by simpa using hy)]
      exact ih h

/-- A queue operation that starts with the service set up runs its body on the service. -/
theorem exec_startsQueue {c : Instr} {s : State} {slice ring index opcode : Nat} {sl : SliceRec} {x : RingRun} {o : RingOp} {e : Nat}
    {d' d2 : Dev} {q : QService} {body : Dev → SliceRec → RingOp → Nat → QService → Dev}
    (he : exec c s = onDev s fun d => d.startQueueOp slice ring index opcode body)
    (h : s.dev.starts slice ring index opcode [2] sl x o e d') (hq : d'.qservice sl = some q) (hb : body d' sl o e q = d2) :
    exec c s = .next (s.onto d2) :=
  exec_starts he h (by rw [hq]; exact hb)

/-- A queue operation before QS_INIT ends with BAD_PARAM. -/
theorem exec_unready {c : Instr} {s : State} {slice ring index opcode : Nat} {sl : SliceRec} {x : RingRun} {o : RingOp} {e : Nat}
    {d' : Dev} {body : Dev → SliceRec → RingOp → Nat → QService → Dev}
    (he : exec c s = onDev s fun d => d.startQueueOp slice ring index opcode body)
    (h : s.dev.starts slice ring index opcode [2] sl x o e d') (hq : d'.qservice sl = none) :
    exec c s = .next (s.onto (d'.endOp sl ring o (.of stBadParam))) :=
  exec_starts he h (by rw [hq])

end Sys2Proof.Machine
end

