-- ==== Sys2Proof/Laws/Turn.lean ====
section
/-! SUPPORT. What a command that makes accesses of its own can answer (log entry 35), and what a step of the VDD_CORE target and the
100 µs after it leave alone (R371). -/

namespace Sys2Proof.Machine

/-! ### A command's own accesses -/

@[simp] theorem Dev.inTurn_regs (d : Dev) : d.inTurn.regs = d.regs := rfl
@[simp] theorem Dev.inTurn_pool (d : Dev) : d.inTurn.pool = d.pool := rfl
@[simp] theorem Dev.inTurn_sw (d : Dev) : d.inTurn.sw = d.sw := rfl
@[simp] theorem Dev.inTurn_svc (d : Dev) : d.inTurn.svc = d.svc := rfl
@[simp] theorem Dev.inTurn_out (d : Dev) : d.inTurn.out = d.out := rfl
@[simp] theorem Dev.inTurn_free (d : Dev) : d.inTurn.free = d.free := rfl
@[simp] theorem Dev.inTurn_turn (d : Dev) : d.inTurn.dir.turn = ⟨none, []⟩ := rfl

/-- Between commands, opening the record of accesses changes nothing. -/
theorem Dev.inTurn_rest {d : Dev} (h : d.dir.turn = ⟨none, []⟩) : d.inTurn = d := by
  unfold Dev.inTurn
  rw [← h]

/-- Every access can be made: the command has its whole effect, and the answered recalls it used retire. -/
theorem Dev.attempt_made {d : Dev} {f : Dev → Dev} (h : (f d.inTurn).dir.turn.stall = none) :
    d.attempt f = (true, (f d.inTurn).dropUsed.inTurn) := by
  simp [Dev.attempt, h]

/-- An access cannot be made yet: only what it waits for happens. -/
theorem Dev.attempt_waits {d : Dev} {f : Dev → Dev} {x : Stall} (h : (f d.inTurn).dir.turn.stall = some x) :
    d.attempt f = (false, d.inTurn.stalled x) := by
  simp [Dev.attempt, h]

/-- An attempt has one of these two outcomes. -/
theorem Dev.attempt_cases (d : Dev) (f : Dev → Dev) :
    d.attempt f = (true, (f d.inTurn).dropUsed.inTurn) ∨ ∃ x, d.attempt f = (false, d.inTurn.stalled x) := by
  rcases h : (f d.inTurn).dir.turn.stall with _ | x
  · exact .inl (Dev.attempt_made h)
  · exact .inr ⟨x, Dev.attempt_waits h⟩

/-- Where another access covers the granule, nothing happens. -/
@[simp] theorem Dev.stalled_covered (d : Dev) : d.stalled .covered = d := rfl

/-! ### The VDD_CORE target -/

/-- A step of the target starts the 100 µs in which no further step may come. -/
@[simp] theorem Dev.stepTarget_avsHold (d : Dev) (old new : Nat) : (d.stepTarget old new).pwr.avsHold = 2500 := rfl
@[simp] theorem Dev.setTarget_avsHold (d : Dev) (mv : Nat) : (d.setTarget mv).pwr.avsHold = 0 := rfl

/-- With no step under way the tick leaves the target and its window alone. -/
theorem Dev.tickAvs_idle {d : Dev} (h : d.pwr.avsHold = 0) : d.tickAvs = d := by
  simp [Dev.tickAvs, h]

/-- The last cycle of the 100 µs: the window follows the target in force. -/
theorem Dev.tickAvs_last {d : Dev} (h : d.pwr.avsHold = 1) : d.tickAvs = d.setTarget (d.rd .avs 11 0) := by
  simp [Dev.tickAvs, h]

/-- Every earlier cycle only counts. -/
theorem Dev.tickAvs_counts {d : Dev} (h : 2 ≤ d.pwr.avsHold) :
    d.tickAvs = { d with pwr := { d.pwr with avsHold := d.pwr.avsHold - 1 } } := by
  obtain ⟨n, hn⟩ := Nat.exists_eq_add_of_le' h
  simp [Dev.tickAvs, hn]

end Sys2Proof.Machine
end

