-- ==== Sys2Proof/WellFormed.lean ====
section
/-! DEFINITION. Which commands are well formed: the checks on operands that their types leave open. -/

namespace Sys2Proof

/-- The operand relations that the types of the operands do not already say. -/
def Instr.wf : Instr → Bool
  | .registerWrite _ _ width _ => decide (width = 1 ∨ width = 2 ∨ width = 4 ∨ width = 8)
  | .coldResetRelease _ found _ _ => found.all fun e => decide (e.1.1 < 4 ∧ e.1.2 < 2)
  | .poolRequestIngress _ dpa _ _ _ _ _ => decide (dpa < 2 ^ 44)
  | .passThroughRequest _ _ _ _ length _ => decide (1 ≤ length ∧ length ≤ 4224)
  | .proxyDataReceived words => decide (2 ≤ words.length)
  | .agentDeathDeclared _ cause => decide (1 ≤ cause.val)
  | .ingressMessage _ _ _ _ _ _ length _ _ => decide (1 ≤ length ∧ length ≤ 4224)
  | .dmvLineFailure _ _ _ cause => decide (1 ≤ cause.val)
  | .portDlUp _ rate lanes _ _ _ => decide (1 ≤ rate ∧ rate ≤ 6) && [1, 2, 4, 8, 16].contains lanes
  | .confirmWindowEnd _ errors _ => decide (errors.length = 4)
  | .stitchPacketSend _ words => decide (2 ≤ words.length ∧ words.length ≤ 33)
  | .packetReceived _ words _ => decide (1 ≤ words.length)
  | .linkDeclaredDead _ reason => [2, 4, 5, 6, 7, 8].contains reason.val
  | .tollReceived _ words => decide (words.length = 6)
  | .knellReceived _ words => decide (words.length = 4)
  | .transitMessage _ words => decide (2 ≤ words.length ∧ words.length ≤ 33)
  | .importBind _ _ _ _ _ blocks => decide (blocks.length ≤ 1016)
  | .exportNotice _ _ _ _ _ blocks => decide (blocks.length ≤ 1016)
  | .clearEventRecords _ _ handles => decide (handles.length ≤ 255)
  | .setEventInterruptPolicy _ input => decide (input.length ≤ 4096)
  | .setTimestamp _ input => decide (input.length ≤ 4096)
  | .getLog _ input => decide (input.length ≤ 4096)
  | .getInfo _ input => decide (input.length ≤ 4096)
  | .regRead _ input => decide (input.length ≤ 4096)
  | .blockQuery _ input => decide (input.length ≤ 4096)
  | .blockMigrate _ input => decide (input.length ≤ 4096)
  | .exportCreate _ input => decide (input.length ≤ 4096)
  | .exportRelease _ input => decide (input.length ≤ 4096)
  | .remoteMap _ input => decide (input.length ≤ 4096)
  | .remoteUnmap _ input => decide (input.length ≤ 4096)
  | .qosSet _ input => decide (input.length ≤ 4096)
  | .gateListSet _ input => decide (input.length ≤ 4096)
  | .mirrorSet _ input => decide (input.length ≤ 4096)
  | .sliceCreate _ input => decide (input.length ≤ 4096)
  | .sliceResize _ input => decide (input.length ≤ 4096)
  | .sliceDestroy _ input => decide (input.length ≤ 4096)
  | .sliceQuery _ input => decide (input.length ≤ 4096)
  | .engineAssign _ input => decide (input.length ≤ 4096)
  | .portRemove _ input => decide (input.length ≤ 4096)
  | .portRelease _ input => decide (input.length ≤ 4096)
  | .linkSetDown _ input => decide (input.length ≤ 4096) && decide (input.getD 1 0 = 0)
  | .linkSetRetrain _ input => decide (input.length ≤ 4096) && decide (input.getD 1 0 = 1)
  | .linkSetTarget _ input => decide (input.length ≤ 4096) && decide (input.getD 1 0 = 2)
  | .routeSet _ input => decide (input.length ≤ 4096)
  | .neighbourRejoin _ input => decide (input.length ≤ 4096)
  | .logRead _ input => decide (input.length ≤ 4096)
  | .logClear _ input => decide (input.length ≤ 4096)
  | .fwTransferStart _ input => decide (input.length ≤ 4096) && decide (input.getD 0 0 = 0)
  | .fwTransferData _ input => decide (input.length ≤ 4096) && decide (input.getD 0 0 = 1)
  | .fwTransferEnd _ input _ => decide (input.length ≤ 4096) && decide (input.getD 0 0 = 2)
  | .fwTransferAbort _ input => decide (input.length ≤ 4096) && decide (input.getD 0 0 = 3)
  | .fwActivateNextReset _ input => decide (input.length ≤ 4096) && decide (input.getD 1 0 = 0)
  | .fwActivateLive _ input => decide (input.length ≤ 4096) && decide (input.getD 1 0 = 1)
  | .fwCommit _ input => decide (input.length ≤ 4096)
  | .resetWarm _ input => decide (input.length ≤ 4096) && decide (input.getD 0 0 = 0)
  | .resetTambour _ input => decide (input.length ≤ 4096) && decide (input.getD 0 0 = 1)
  | .resetPort _ input => decide (input.length ≤ 4096) && decide (input.getD 0 0 = 2)
  | .resetLink _ input => decide (input.length ≤ 4096) && decide (input.getD 0 0 = 3)
  | .acuRegionSet _ input => decide (input.length ≤ 4096)
  | .acuFence _ input => decide (input.length ≤ 4096)
  | .acuViolationRead _ input => decide (input.length ≤ 4096)
  | .lifecycleSetProvisioned _ input _ => decide (input.length ≤ 4096) && decide (input.getD 0 0 = 1)
  | .lifecycleSetDeployed _ input _ => decide (input.length ≤ 4096) && decide (input.getD 0 0 = 2)
  | .lifecycleSetRma _ input _ _ => decide (input.length ≤ 4096) && decide (input.getD 0 0 = 3)
  | .debugChallenge _ input => decide (input.length ≤ 4096)
  | .debugUnlock _ input _ => decide (input.length ≤ 4096)
  | .debugLock _ input => decide (input.length ≤ 4096)
  | .zeroizeKeys _ input _ => decide (input.length ≤ 4096) && decide (input.getD 0 0 = 0)
  | .zeroizeFull _ input _ => decide (input.length ≤ 4096) && decide (input.getD 0 0 = 1)
  | .powerPolicySetDomains _ input => decide (input.length ≤ 4096) && decide (input.getD 0 0 = 0)
  | .powerPolicySetCurve _ input => decide (input.length ≤ 4096) && decide (input.getD 0 0 = 1)
  | .powerPolicySetAoOnly _ input => decide (input.length ≤ 4096) && decide (input.getD 0 0 = 2)
  | .powerPolicySetAvs _ input => decide (input.length ≤ 4096) && decide (input.getD 0 0 = 3)
  | .faultClear _ input => decide (input.length ≤ 4096)
  | .resourceRestore _ input _ => decide (input.length ≤ 4096)
  | .portWidthOrRateChange _ rate lanes _ => decide (1 ≤ rate ∧ rate ≤ 6) && [1, 2, 4, 8, 16].contains lanes
  | _ => true

end Sys2Proof
end

