-- ==== Sys2Proof/Tests/Slice0.lean ====
section
/-! SUPPORT. Tests: the checks of WellFormed refuse what they should, the interface of a block, values worked out by hand from the
specification, and for every statement of Certificates/Slice0 states and operands that meet what each of its clauses assumes. -/

set_option maxRecDepth 10000
set_option Elab.async false

open Sys2Proof.Machine

namespace Sys2Proof.Tests

/-! ### States to test on -/

/-- A device whose management cluster runs firmware, with nothing else up. -/
def up : Dev := (Dev.wr { Dev.reset with mgmt := { MgmtState.reset with coldHeld := false, fwUp := true } } (.domStatus 1) 31 26 0)

/-- That device with register fields written. -/
def on (l : List (Reg × Nat × Nat × Nat)) : State := ⟨l.foldl (fun d x => d.wr x.1 x.2.1 x.2.2.1 x.2.2.2) up, []⟩

/-- A state with its device changed. -/
def tweak (s : State) (f : Dev → Dev) : State := ⟨f s.dev, s.pending⟩

/-- A pair is its first component beside its second. -/
theorem pair_of {α β : Type} {p : α × β} {a : α} (h : p.1 = a) : p = (a, p.2) := by rw [← h]

theorem std {d : Dev} {path : Path} {opcode : Nat} (h : d.serves path opcode = true ∧ d.inWindow = false ∧ d.stage ≠ 8 ∧
    (d.stage = 9 → opcode = 1) ∧ (d.safe = true → opcode = 1 ∨ opcode = 2)) : d.takesStandard path opcode := h

theorem sto {d : Dev} {path : Path} {opcode : Nat} (h : d.serves path opcode = true ∧ d.refusal path opcode false = none) :
    d.takesStoluo path opcode := h

/-- An option that holds something holds that. -/
theorem some_of {α : Type} {o : Option α} (h : o.isSome = true) : o = some (o.get h) := by simp

theorem some_pair_of {α β : Type} {o : Option (α × β)} (h : o.isSome = true) : o = some ((o.get h).1, (o.get h).2) := by simp

/-- The result of an access that went well. -/
def good {ε α : Type} [Inhabited α] : Except ε α → α
  | .ok a => a
  | .error _ => default

theorem good_of {ε α β : Type} [Inhabited α] {p : Except ε α × β} (h : p.1.isOk = true) : p = (.ok (good p.1), p.2) := by
  rcases p with ⟨a | a, b⟩
  · simp [Except.isOk, Except.toBool] at h
  · rfl

/-- A firmware image that the device takes. -/
def image : Sys2Proof.Image := ⟨0x4B534D43, 1, 7, 0, 0, 1, 0, 0, true, true, none⟩

/-- A set of one way on port 1, in service, of 4 blocks. -/
def oneSet : SetDesc := ⟨true, 0, false, false, [1], [], 1, 0, 0, 0, true, 0, 4⟩

/-- A request of host 0 for line 0, and a general conflict-table entry of granule 0 for it. -/
def ask : HomeReq := ⟨0, .host 0, 0, 0, 0, BitVec.allOnes 64, false⟩
def entry : CtEntry := ⟨0, .mem, true, 0, .readShared, ask, 0, true, false, [], .cur, none, [], false, true, false, 0, 0, 0, false, []⟩

/-- Where one block is free it is the one picked. -/
theorem pick_one {d : Dev} {i b : Nat} (h : (d.freeBlocks i).filter (fun b => !([] : List Nat).contains b) = [b]) :
    d.pickBlocks [i] 1 [] = (some [b], (d.pickBlocks [i] 1 []).2) := by
  have : (d.pickBlocks [i] 1 []).1 = some [b] := by
    unfold Dev.pickBlocks
    simp only [List.filter_cons, List.filter_nil, h, List.length_singleton, Nat.le_refl, decide_true, if_true, Dev.choose]
    simp [Dev.openNat]
  rw [← this]

theorem turn {d : Dev} (h : d.dir.turn = ⟨none, []⟩) : d.noTurn := h

theorem rest {d : Dev} (h : d.dir.turn = ⟨none, []⟩ ∧ ∀ x ∈ d.svc.dirty, x.2.marks = []) : d.atRest := h

theorem done {d : Dev} (h : d.dir.turn.stall = none ∧ ∀ x ∈ d.svc.dirty, x.2.marks = []) : d.made := h

theorem reach {d : Dev} {p : Fin 64} (h : d.safe = false ∧ d.takesMessages (.port p) = true) : d.reaches p := h

theorem looks {d : Dev} {kind : ReqKind} {req : HomeReq} (h : d.safe = false ∧ d.sliceReady (sliceOf (granuleOf req.line.toNat)) = true ∧
    d.heldBack kind req = false ∧ d.reservedFor (sliceOf (granuleOf req.line.toNat)) req = false ∧
    d.behindOlder (sliceOf (granuleOf req.line.toNat)) req = false ∧ kind.writes = false) : d.examines kind req :=
  ⟨h.1, h.2.1, h.2.2.1, h.2.2.2.1, h.2.2.2.2.1, fun hw => (by rw [h.2.2.2.2.2] at hw; cases hw)⟩

theorem adm {d : Dev} {kind : ReqKind} {req : HomeReq} (h : (d.safe = false ∧ d.sliceReady (sliceOf (granuleOf req.line.toNat)) = true ∧
    d.heldBack kind req = false ∧ d.reservedFor (sliceOf (granuleOf req.line.toNat)) req = false ∧
    d.behindOlder (sliceOf (granuleOf req.line.toNat)) req = false ∧ kind.writes = false) ∧ d.mayTake req false = true) :
    d.admits kind req := ⟨looks h.1, h.2⟩

theorem none_held {o : Option Msg} (h : o = none) : ∀ m, o = some m → m.held = false := by
  intro m hm
  rw [h] at hm
  cases hm

/-- A block of set 0, owned by domain 1. -/
def bound : BlockEntry := mkBlock 1 2 false true 0 0 0 0 0

/-- An expander read, and a write, of line 0 that has gone to port 1. -/
def expR : ExpOp := ⟨0, 1, 0, 0, 0, none, 0, false, none⟩
def expW : ExpOp := ⟨0, 1, 0, 0, 0, some .poison, 0, false, none⟩

/-- A message in the buffer. -/
def cell : Msg :=
  { id := 0, entity := .port 0, cls := .req, cells := 1, fromShared := 0, dest := .port 0, destC := 255, kind := .other, txn := 0
    born := 0, domain := none, paddr := none, poison := false, raw := [], credit := 0, hostQueue := 0, cost := 64, green := true
    peakWaited := false, held := false, f1 := 0, f2 := 0, quarters := 1 }

theorem pair_some_pair {α β γ : Type} {p : Option (α × β) × γ} (h : p.1.isSome = true) :
    p = (some ((p.1.get h).1, (p.1.get h).2), p.2) := by
  rcases p with ⟨_ | ⟨a, b⟩, c⟩
  · cases h
  · rfl

theorem pair_some_of {α γ : Type} {p : Option α × γ} (h : p.1.isSome = true) : p = (some (p.1.get h), p.2) := by
  rcases p with ⟨_ | a, c⟩
  · cases h
  · rfl

/-- A slice of host 0 with one ring, one channel, engine 0, 4 queues and 100 pages. -/
def slice0 : SliceRec := ⟨0, 0, 1, 0, ⟨[0], [some 0], [(0, 1)], 0, 4, [(0, 99)], 0, 4⟩, none⟩

/-- A ring of a service with operations. -/
def ring0 (service : Nat) (ops : List RingOp) : RingRun :=
  { sqBase := 0, cqBase := 4096, shadow := 0, sqLog2 := 6, cqLog2 := 6, service := service, msixEn := false, pollN := 1, msixVec := 0
    sampled := 0, ops := ops, slotNext := 0, done := [], notify := false, sent := false }

/-- 64 bytes by fields: offset, then value. -/
def fields (l : List (Nat × Nat)) : Nat := (l.map fun x => x.2 * 256 ^ x.1).sum

/-- An operation by the fields of its entry. -/
def op0 (l : List (Nat × Nat)) : RingOp := ⟨0, toBytes 64 (fields l), .waiting, .of 0, false, []⟩

/-- A device that serves slice0: port 1 is its expander, block 0 lies there, its first lines hold what a list gives. -/
def served (l : List (Reg × Nat × Nat × Nat)) (image : Machine.Image) (rings : List RingRun) (mem : List (Nat × Nat)) : State :=
  tweak (on ([(.domStatus 8, 31, 26, 0), (.domStatus 24, 31, 26, 0), (.prtCfg 0, 31, 28, 1), (.prtStatus 0, 31, 28, 5),
    (.prtCfg 1, 31, 28, 2), (.prtStatus 1, 31, 28, 5), (.keyStatus, 31, 31, 1)] ++ l)) fun d =>
    { d with
      pool := { d.pool with
        hubA := ⟨[(0, oneSet)], [], [], [], []⟩, hubB := ⟨[(0, oneSet)], [], [], [], []⟩, blocks := ⟨[(0, bound)], [(0, bound)]⟩, keys := [(1, .active 1)], windows := [(0, (0, 16, 0))]
        slots := ⟨[(0, mkSlot true 0 1)], [(0, mkSlot true 0 1)]⟩
        mem := mem.map fun x => (memKey 1 (64 * x.1), .cipher 1 (BitVec.ofNat 40 x.1) (BitVec.ofNat 512 x.2)) }
      svc := { d.svc with
        slices := [(0, slice0)], rings := rings.map fun x => ((0, 0), x), engines := [(0, ⟨image, 0, false, none⟩)] } }

/-- An error of an access. -/
def failed {ε α : Type} [Inhabited ε] : Except ε α → ε
  | .ok _ => default
  | .error e => e

theorem failed_of {ε α β : Type} [Inhabited ε] {p : Except ε α × β} (h : p.1.isOk = false) : p = (.error (failed p.1), p.2) := by
  rcases p with ⟨a | a, b⟩
  · rfl
  · simp [Except.isOk, Except.toBool] at h

theorem starts_of {d : Dev} {slice ring index opcode : Nat} {services : List Nat} {sl : SliceRec} {x : RingRun} {o : RingOp} {e : Nat}
    (h : d.sliceRec slice = some sl ∧ d.ringRun sl ring = some x ∧ x.find index = some o ∧ o.opcode = opcode ∧ x.mayStart o = true ∧
      services.contains x.service = true ∧ o.flagsOk = true ∧ (d.dispatch sl (serviceImage x.service)).1 = .on e) :
    d.starts slice ring index opcode services sl x o e
      ((d.dispatch sl (serviceImage x.service)).2.count (e / 16) (if x.service = 1 then 0x4000 else 0x4003) 1) :=
  ⟨h.1, h.2.1, h.2.2.1, h.2.2.2.1, h.2.2.2.2.1, h.2.2.2.2.2.1, h.2.2.2.2.2.2.1, _, pair_of h.2.2.2.2.2.2.2, rfl⟩

/-- The header that a read of a table gave. -/
def headOf : Except Nat Header → Header
  | .ok h => h
  | .error _ => ⟨0, []⟩

theorem head_ok {γ : Type} {p : (Option Nat × Except Nat Header) × γ} {v : Nat} (h : p.1.1 = some v ∧ p.1.2.isOk = true) :
    p = ((some v, .ok (headOf p.1.2)), p.2) := by
  rcases p with ⟨⟨a, b | b⟩, c⟩
  · simp [Except.isOk, Except.toBool] at h
  · simp only at h
    simp [h.1, headOf]

/-- A device that serves slice0's ring of the queue service. -/
def queued (q : QService) (ops : List RingOp) (mem : List (Nat × Nat)) : State :=
  tweak (served [] .queue [ring0 2 ops] mem) fun d => { d with svc := { d.svc with queues := [(0, q)] } }

/-- A queue service with a pool of 4 cells, a node, and queue 0 with packets. -/
def qs0 (packets : List Packet) (age : Nat) : QService :=
  ⟨0, [(0, ⟨0, 0, 8192, 4, [0, 1, 2, 3]⟩)], [(0, ⟨0xFFFF, 1, 0xFF, 0, unlimited, unlimited, 16384, 16384, 0, 0, 0, 0, 0⟩)],
    [(0, ⟨0, 1, 0, age, 1, 16384, packets, 0, 0, 0, []⟩)], []⟩

def packet0 : Packet := ⟨0, [0], 64, 0, []⟩

/-- A device whose data-mover channel 0 is firmware's, with register fields and a run. -/
def moving (l : List (Reg × Nat × Nat × Nat)) (x : ChannelRun) : State :=
  tweak (on l) fun d => { d with svc := { d.svc with fwChannels := [0], channels := [(0, x)] } }

def run0 : ChannelRun := ⟨false, 0, false, none, 0, [], []⟩

theorem fresh_some (d : Dev) {l : List Nat} (h : l = [0]) : (d.freshNumber 4096 l).1.isSome = true := by
  subst h
  have hf (k : Nat) : (freshFrom 4096 [0] 2 k).isSome = true := by
    by_cases hk : k % 4096 = 0
    · have : (k + 1) % 4096 ≠ 0 := by omega
      simp [freshFrom, hk, this]
    · simp [freshFrom, hk]
  exact hf _



theorem store_unmapped {d : Dev} {s : SliceRec} (h : tget d.pool.windows s.port = none) (a : Agent) (dpa : Nat) (v : LineData) (m : BitVec 64) :
    d.sliceStore s a dpa v m = (.dropped, d.refuseTranslation (agentTile a) dpa) := by
  simp [Dev.sliceStore, Dev.translate, h]

theorem refuse_pool (d : Dev) (t n : Nat) : (d.refuseTranslation t n).pool = d.pool := by
  simp [Dev.refuseTranslation]

theorem write_unmapped {d : Dev} {s : SliceRec} (h : tget d.pool.windows s.port = none) {rs : List (Nat × Nat)} (a : Agent) {dpa : Nat}
    {b : List Byte} (hr : inRegions rs dpa b.length = true) :
    (d.sliceWrite s rs a dpa b).1 = 0 ∧ (d.sliceWrite s rs a dpa b).2.pool = d.pool := by
  have hs (n : Nat) : ∀ (d : Dev) (dpa off : Nat) (b : List Byte), tget d.pool.windows s.port = none →
      (d.sliceStores s a n dpa off b).1 = 0 ∧ (d.sliceStores s a n dpa off b).2.pool = d.pool := by
    induction n with
    | zero => intro d dpa off b h; simp [Dev.sliceStores, stOk]
    | succ n ih =>
      intro d dpa off b h
      simp only [Dev.sliceStores, store_unmapped h]
      have := ih (d.refuseTranslation (agentTile a) dpa) (dpa + 64) 0 (b.drop (64 - off)) (by rw [refuse_pool]; exact h)
      rwa [refuse_pool] at this
  simp only [Dev.sliceWrite, hr, Bool.not_true, Bool.false_eq_true, if_false]
  exact hs _ _ _ _ _ h

theorem links_unmapped {s : SliceRec} {rs : List (Nat × Nat)} (a : Agent) (p : CellPool) (l : List (Nat × Nat)) : ∀ {d : Dev},
    tget d.pool.windows s.port = none → (∀ x ∈ l, inRegions rs (p.linkBase + 4 * x.1) 4 = true) →
    (d.writeLinks s rs a p l).1 = 0 ∧ (d.writeLinks s rs a p l).2.pool = d.pool := by
  induction l with
  | nil => intro d h hl; simp [Dev.writeLinks, stOk]
  | cons x l ih =>
    intro d h hl
    obtain ⟨c, n⟩ := x
    have hw := write_unmapped (d := d) h (rs := rs) a (dpa := p.linkBase + 4 * c) (b := toBytes 4 n)
      (by have := hl (c, n) (by simp); simpa [toBytes] using this)
    simp only [Dev.writeLinks]
    rcases hx : d.sliceWrite s rs a (p.linkBase + 4 * c) (toBytes 4 n) with ⟨st, d1⟩
    rw [hx] at hw
    obtain ⟨rfl, hp⟩ := hw
    have := ih (d := d1) (by rw [hp]; exact h) (fun x hx => hl x (by simp [hx]))
    rwa [hp] at this

theorem chain_mem {l : List Nat} {last : Nat} : ∀ x ∈ chain l last, x.1 ∈ l := by
  induction l with
  | nil => intro x hx; simp [chain] at hx
  | cons c l ih =>
    cases l with
    | nil => intro x hx; simp [chain] at hx; simp [hx]
    | cons c' r =>
      intro x hx
      simp only [chain, List.mem_cons] at hx
      rcases hx with rfl | hx
      · simp
      · exact List.mem_cons_of_mem _ (ih x hx)


/-- The CELL_POOL_SETUP that the witness below uses: 64 cells. -/
def poolOp : RingOp := op0 [(0, 0x11), (8, 0), (16, 65536), (24, 64)]

/-- A device that serves it, with nothing translated. -/
def poolState : State :=
  tweak (queued ⟨0, [], [], [], []⟩ [poolOp] []) fun d => { d with pool := { d.pool with windows := [] } }

theorem links_of {d : Dev} (h : d.pool.windows = []) (a : Agent) (k : Nat) :
    let p : CellPool := ⟨0, 0, 65536, 64, (List.range 64).rotate k⟩
    (d.writeLinks slice0 [(0, 99)] a p (chain p.free noCell)).1 = 0 ∧
      (d.writeLinks slice0 [(0, 99)] a p (chain p.free noCell)).2.pool = d.pool := by
  intro p
  refine links_unmapped a p _ (by rw [h]; rfl) fun x hx => ?_
  have hm := chain_mem x hx
  simp only [p, List.mem_rotate, List.mem_range] at hm
  have : ∀ c < 64, inRegions [(0, 99)] (65536 + 4 * c) 4 = true := by decide +kernel
  exact this _ hm

theorem area_of {d : Dev} (h : d.pool.windows = []) (a : Agent) (q : QService) (off : Nat) (hr : inRegions [(0, 99)] (q.area + off) 64 = true) :
    (d.writeArea slice0 [(0, 99)] a q off 1).1 = stOk := by
  have := write_unmapped (s := slice0) (d := (d.openBits 512).2) (by simp [Dev.openBits, h]) (rs := [(0, 99)]) a (dpa := q.area + off)
    (b := lineBytes (d.openBits 512).1) (by simpa [lineBytes, toBytes] using hr)
  simp only [Dev.writeArea, List.range_one, List.foldl_cons, List.foldl_nil, ne_eq, not_true_eq_false, if_false, Nat.mul_zero, Nat.add_zero]
  exact this.1


theorem three_of {α β γ : Type} (p : (α × β) × γ) : p = ((p.1.1, p.1.2), p.2) := rfl

theorem two_of {α β : Type} (p : α × β) : p = (p.1, p.2) := rfl

theorem steps {d : Dev} {mv : Nat} (h : d.bitOf .avs 31 = true ∧ d.mgmt.coldHeld = false ∧ d.pwr.avsHold = 0 ∧ 680 ≤ mv ∧ mv ≤ 820 ∧
    mv ≤ d.rd .avs 11 0 + 5 ∧ d.rd .avs 11 0 ≤ mv + 5) : d.stepsTo mv := h

theorem four {a b c d p : Prop} (h : a ∧ b ∧ c ∧ d) (t : p) : a ∧ b ∧ c ∧ d ∧ p :=
  ⟨h.1, h.2.1, h.2.2.1, h.2.2.2, t⟩


/-! ### WellFormed refuses -/

/-- An input longer than a mailbox payload. -/
def long : List Byte := List.replicate 4097 0

theorem long_length : long.length = 4097 := List.length_replicate

theorem test_wf_operands : ([
    .registerWrite .firmware 0 3 0, .coldResetRelease 0 [((4, 0), image)] true true, .poolRequestIngress 0 (2 ^ 44) .memRdS 0 0 0 false,
    .passThroughRequest 0 1 .other 0 0 0, .proxyDataReceived [0], .agentDeathDeclared (.port 0) 0,
    .ingressMessage (.port 0) (.port 0) .req .other 0 0 4225 0 [], .dmvLineFailure 0 0 true 0, .portDlUp 0 0 1 true true true,
    .portDlUp 0 1 3 true true true, .confirmWindowEnd 0 [0] 0, .stitchPacketSend 0 [0], .packetReceived 0 [] none, .linkDeclaredDead 0 3,
    .tollReceived 0 [], .knellReceived 0 [], .transitMessage 0 [0], .importBind 0 0 0 0 true (List.replicate 1017 0),
    .exportNotice 0 0 0 0 true (List.replicate 1017 0), .clearEventRecords 0 0 (List.replicate 256 0), .portWidthOrRateChange 0 7 1 true,
    .portWidthOrRateChange 0 1 3 true] : List Instr).all (fun c => !c.wf) = true := by
  decide +kernel

theorem test_wf_actions : ([
    .linkSetDown .fm [9, 9], .linkSetRetrain .fm [9, 9], .linkSetTarget .fm [9, 9], .fwTransferStart .fm [9, 9],
    .fwTransferData .fm [9, 9], .fwTransferEnd .fm [9, 9] image, .fwTransferAbort .fm [9, 9],
    .fwActivateNextReset .fm [9, 9], .fwActivateLive .fm [9, 9], .resetWarm .fm [9, 9], .resetTambour .fm [9, 9],
    .resetPort .fm [9, 9], .resetLink .fm [9, 9], .lifecycleSetProvisioned .fm [9, 9] true,
    .lifecycleSetDeployed .fm [9, 9] true, .lifecycleSetRma .fm [9, 9] true true, .zeroizeKeys .fm [9, 9] true,
    .zeroizeFull .fm [9, 9] true, .powerPolicySetDomains .fm [9, 9], .powerPolicySetCurve .fm [9, 9],
    .powerPolicySetAoOnly .fm [9, 9], .powerPolicySetAvs .fm [9, 9]] : List Instr).all (fun c => !c.wf) = true := by
  decide +kernel

theorem test_wf_lengths : ([
    .setEventInterruptPolicy 0 long, .setTimestamp 0 long, .getLog 0 long, .getInfo .fm long, .regRead .fm long,
    .blockQuery .fm long, .blockMigrate .fm long, .exportCreate .fm long, .exportRelease .fm long, .remoteMap .fm long,
    .remoteUnmap .fm long, .qosSet .fm long, .gateListSet .fm long, .mirrorSet .fm long, .sliceCreate .fm long,
    .sliceResize .fm long, .sliceDestroy .fm long, .sliceQuery .fm long, .engineAssign .fm long, .portRemove .fm long,
    .portRelease .fm long, .linkSetDown .fm long, .linkSetRetrain .fm long, .linkSetTarget .fm long, .routeSet .fm long,
    .neighbourRejoin .fm long, .logRead .fm long, .logClear .fm long, .fwTransferStart .fm long, .fwTransferData .fm long,
    .fwTransferEnd .fm long image, .fwTransferAbort .fm long, .fwActivateNextReset .fm long, .fwActivateLive .fm long,
    .fwCommit .fm long, .resetWarm .fm long, .resetTambour .fm long, .resetPort .fm long, .resetLink .fm long,
    .acuRegionSet .fm long, .acuFence .fm long, .acuViolationRead .fm long, .lifecycleSetProvisioned .fm long true,
    .lifecycleSetDeployed .fm long true, .lifecycleSetRma .fm long true true, .debugChallenge .fm long,
    .debugUnlock .fm long true, .debugLock .fm long, .zeroizeKeys .fm long true, .zeroizeFull .fm long true,
    .powerPolicySetDomains .fm long, .powerPolicySetCurve .fm long, .powerPolicySetAoOnly .fm long,
    .powerPolicySetAvs .fm long, .faultClear .fm long, .resourceRestore .fm long true] : List Instr).all (fun c => !c.wf) = true := by
  simp [Instr.wf, long_length]

/-! ### The interface of a block -/

/-- The command table gives no row any bits, so no word spells a command. -/
theorem test_no_word (n w : Nat) : decodeTableWord n w = none := rfl

theorem test_fetch (s : State) (n w : Nat) : s.withFetchWord n w = s := rfl

/-- The front command runs, and the queue keeps the rest. -/
theorem test_front (p : Fin 64) (c : Instr) :
    step { State.reset with pending := [.portStartCondition p, c] } =
      exec (.portStartCondition p) { State.reset with pending := [c] } := rfl

/-- The status registers agree with the state at reset. -/
theorem test_reset_status : Dev.reset.statusTrue := by
  unfold Dev.statusTrue
  decide +kernel

/-! ### Values worked by hand -/

/-- Source: the example under Table SC-4 of spec/00_scope.md (GLB.IDENT of the A0 stepping reads 0x8320_1000). -/
theorem test_ident : Reg.glbIdent.layout.reset = 0x83201000 := by decide +kernel

/-- Source: the example of spec/03_coherence.md, line 0x1_2342_284F: home slice 8, set 8,836, tag 0x2468, block 4,660; the next
granule has home slice 9. -/
theorem test_granule : granuleOf 0x12342284F = 0x12342284 ∧ sliceOf 0x12342284 = 8 ∧ setOf 0x12342284 = 8836 ∧
    tagOf 0x12342284 = 0x2468 ∧ blockOfLine 0x12342284F = 4660 ∧ blockOfGranule 0x12342284 = 4660 ∧ sliceOf 0x12342285 = 9 := by
  decide +kernel

/-- Source: Table PB-12 of spec/02_pool_and_binding.md: set 0 of eight ways at 256 B; block 4,660, offset 0x8A_13C0 lies on way 3,
Port 26, at 0x09_1A11_42C0. -/
theorem test_translation :
    (Dev.place { Dev.reset with pool := { PoolState.reset with
        hubA := ⟨[(0, ⟨true, 3, false, false, [2, 10, 18, 26, 34, 42, 50, 58], [], 0xFF, 0, 0, 0, true, 0, 16384⟩)], [], [], [], []⟩ } }
      (mkBlock 37 2 false true 0 4660 0 0 0) 0x12342284F) = some ⟨0, 3, 0x091A1142C0, 26, none⟩ := by
  decide +kernel

/-- Source: Table SW-9 of spec/04_switch_core.md: costs of 64 at weights 4, 2 and 1 give 16 then 32, 32 then 64, and 96 from V = 32
(in 1/256 B). -/
theorem test_tags : finishTag 0 0 64 4 = 16 * 256 ∧ finishTag 0 (16 * 256) 64 4 = 32 * 256 ∧ finishTag 0 0 64 2 = 32 * 256 ∧
    finishTag 0 (32 * 256) 64 2 = 64 * 256 ∧ finishTag (32 * 256) 0 64 1 = 96 * 256 := by decide +kernel

/-- Source: the example of spec/14_telemetry.md: 1,500 ns over a base of 100 ns falls in bin 4. -/
theorem test_bin : histBin 100 1500 = 4 := by decide +kernel

/-- Source: the examples of spec/10_management_interface.md and spec/15_register_index.md. -/
theorem test_addresses : mgmtRegAt 0 0x01AA0148 = some (.dmv 41 .cfg) ∧ mgmtRegAt 0 0x00408088 = some (.pmcEvsel 8 1) ∧
    mgmtRegAt 0 0x00548020 = some (.cplTo 18) ∧ mgmtRegAt 0 0x00548018 = some (.hpStatus 18) ∧
    sfnRegAt (fun _ _ => some 9) 4 0x13818 = some (.ring 4 3 0 .ctx) ∧
    sfnRegAt (fun _ _ => some 9) 4 0x13448 = mgmtRegAt 0 0x012A0148 := by
  decide +kernel

/-- Source: the published check values of CRC-32 and CRC-32C, the CRC of the bytes "123456789"; the second without its final
inversion. -/
theorem test_crc : crc32 [0x31, 0x32, 0x33, 0x34, 0x35, 0x36, 0x37, 0x38, 0x39] = 0xCBF43926 ∧
    crc32c 0xFFFFFFFF [0x31, 0x32, 0x33, 0x34, 0x35, 0x36, 0x37, 0x38, 0x39] = 0xE3069283 ^^^ 0xFFFFFFFF := by
  decide +kernel

/-- A packet as sent is good (R239, R240); one with a bit of its message turned is not. -/
theorem test_packet : packetGood (packet .snp 4095 [7, 9]) = true ∧
    packetGood ((packet .snp 4095 [7, 9]).map fun w => if w = 9 then 8 else w) = false := by
  decide +kernel

/-- Source: R232 (the fixed body of ALIGN). -/
theorem test_align : alignBlock = 0xA55AC33C0FF09669 := rfl


/-! ### What the statements assume can be met -/

/-- What the clauses of StepRunsTheFrontCommand assume can be met. -/
theorem witness_StepRunsTheFrontCommand :
    (∃ (c : Instr) (rest : List Instr) (s : State), s.pending = c :: rest) ∧
    (∃ (s : State), s.pending = []) :=
  ⟨⟨.tlsSample, [], ⟨Dev.reset, [.tlsSample]⟩, by decide +kernel⟩,
    ⟨on [], by decide +kernel⟩⟩

/-- What the clauses of EveryStepKeepsStatusRegistersTrue assume can be met. -/
theorem witness_EveryStepKeepsStatusRegistersTrue :
    (∃ (s : State) (t : State), s.dev.statusTrue ∧
      step s = .next t) :=
  ⟨State.reset, _, by unfold Dev.statusTrue; decide +kernel, rfl⟩

/-- What the clauses of FaultPinFollowsPendingSources assume can be met. -/
theorem witness_FaultPinFollowsPendingSources :
    (∃ (s : State) (t : State), step s = .next t ∧
      t.dev.mgmt.tripHeld = false) :=
  ⟨State.reset, _, rfl, by decide +kernel⟩

/-- What the clauses of UnoccupiedOffsetsReadZeroAndIgnoreWrites assume can be met. -/
theorem witness_UnoccupiedOffsetsReadZeroAndIgnoreWrites :
    (∃ (path : Path) (input : List Byte) (d1 : Dev) (s : State), s.dev.takesStoluo path 0xC001 ∧
      regReadForm input = true ∧
      s.dev.regCheckAs .firmware (some (s.dev.regReader path)) (field input 0 4) (field input 4 1) false = (.ok, d1) ∧
      s.dev.regsMet .firmware (field input 0 4) (field input 4 1) = []) ∧
    (∃ (who : RegRequester) (a : Nat) (width : Nat) (d1 : Dev) (s : State), s.dev.regCheck who a width true = (.ok, d1) ∧
      s.dev.regsMet who a width = []) :=
  ⟨⟨.fm, [0xF8, 0xFF, 0xFF, 3, 8, 0, 0, 0], _, on [], sto (by decide +kernel), by decide +kernel, pair_of (by decide +kernel), by decide +kernel⟩,
    ⟨.firmware, 0x3FFFFF8, 8, _, on [], pair_of (by decide +kernel), by decide +kernel⟩⟩

/-- What the clauses of AckEndsHaltedAndPromotesAnArmedShadow assume can be met. -/
theorem witness_AckEndsHaltedAndPromotesAnArmedShadow :
    (∃ (c : Fin 64) (s : State), s.dev.dmvState c = 3) ∧
    (∃ (c : Fin 64) (s : State), s.dev.dmvState c = 3 ∧
      s.dev.bitOf (.dmv c .status) 28 = false ∧
      s.dev.closing c = false) ∧
    (∃ (c : Fin 64) (s : State), s.dev.dmvState c = 3 ∧
      s.dev.bitOf (.dmv c .status) 28 = true ∧
      s.dev.closing c = false ∧
      s.dev.safe = false) ∧
    (∃ (c : Fin 64) (s : State), s.dev.dmvState c ≠ 3) :=
  ⟨⟨0, (on [((.dmv 0 .status), 31, 28, 7)]), by decide +kernel⟩,
    ⟨0, (on [((.dmv 0 .status), 31, 28, 6)]), by decide +kernel⟩,
    ⟨0, (on [((.dmv 0 .status), 31, 28, 7)]), by decide +kernel⟩,
    ⟨0, on [], by decide +kernel⟩⟩

/-- What the clauses of CommitRevokesEveryLowerImageKey assume can be met. -/
theorem witness_CommitRevokesEveryLowerImageKey :
    (∃ (path : Path) (target : Fin 4) (slot : Nat) (k : Nat) (i : Sys2Proof.Image) (s : State), s.dev.takesStoluo path 0xC052 ∧
      tget s.dev.mgmt.inUse target.val = some slot ∧
      tget s.dev.mgmt.flash (target.val, slot) = some i ∧
      i.keyId = k + 1 ∧
      k < 4) ∧
    (∃ (d : Dev) (k : Nat) (i : Sys2Proof.Image), i.keyId = k + 1 ∧
      k < 4 ∧
      d.sec.otp.revoked.getD k false = true) :=
  ⟨⟨.fm, 0, 0, 2, { image with keyId := 3 }, (tweak (on []) fun d => { d with mgmt.inUse := [(0, 0)], mgmt.flash := [((0, 0), { image with keyId := 3 })] }), sto (by decide +kernel), by decide +kernel⟩,
    ⟨{ Dev.reset with sec.otp.revoked := [true] }, 0, { image with keyId := 1 }, by decide +kernel⟩⟩

/-- What the clauses of RegisterWriteFollowsAccessCodes assume can be met. -/
theorem witness_RegisterWriteFollowsAccessCodes :
    (∃ (who : RegRequester) (a : Nat) (w : Nat) (s : State) (d : Dev) (r : Reg), s.dev.regCheck who a w true = (.ok, d) ∧
      s.dev.regAt who a = some r ∧
      r.plain = true ∧
      (w = r.layout.width / 8 ∨ w = 4)) ∧
    (∃ (who : RegRequester) (a : Nat) (w : Nat), byCxlIo who = true ∧
      ¬((w = 4 ∨ w = 8) ∧ a % w = 0)) ∧
    (∃ (who : RegRequester) (a : Nat) (s : State) (d : Dev), s.dev.regCheck who a 4 true = (.ok, d) ∧
      d.regAt who a = none ∧
      (a % 8 = 4 → d.regAt who (a - 4) = none)) ∧
    (∃ (s : State), s.dev.aoOnly = false ∧
      s.dev.domState domMgt ≤ 2) :=
  ⟨⟨.firmware, 0x10008, 4, on [], _, _, pair_of (by decide +kernel), some_of (by decide +kernel), by decide +kernel⟩,
    ⟨.mgmt 0, 2, 4, by decide +kernel⟩,
    ⟨.firmware, 0x3FFFFF8, on [], _, pair_of (by decide +kernel), by decide +kernel⟩,
    ⟨on [], by decide +kernel⟩⟩

/-- What the clauses of CountersSnapshotsAndSamplesAreTaken assume can be met. -/
theorem witness_CountersSnapshotsAndSamplesAreTaken :
    (∃ (who : RegRequester) (u : Fin 37) (i : Fin 9) (s : State) (d : Dev), who.endpoint = true ∧
      s.dev.regCheck who (counterAddr u i) 4 false = (.ok, d)) ∧
    (∃ (who : RegRequester) (s : State) (d : Dev), who.endpoint = true ∧
      s.dev.regCheck who 0x20008 4 false = (.ok, d)) ∧
    (∃ (who : RegRequester) (u : Fin 37) (i : Fin 9) (s : State) (d : Dev), who.endpoint = true ∧
      s.dev.regCheck who (counterAddr u i) 8 true = (.ok, d)) ∧
    (∃ (who : RegRequester) (s : State) (d : Dev), who.endpoint = true ∧
      s.dev.regCheck who 0x440000 4 true = (.ok, d)) ∧
    (∃ (who : RegRequester) (s : State) (d : Dev), who.endpoint = true ∧
      s.dev.regCheck who 0x700000 4 true = (.ok, d)) ∧
    (∃ (who : RegRequester) (v : Fin 17) (s : State) (d : Dev), who.endpoint = true ∧
      s.dev.regCheck who (0x309008 + v * 0x20) 4 true = (.ok, d)) ∧
    (∃ (s : State), s.dev.bitOf .pmcGlbCtl 29 = true) ∧
    (∃ (u : Fin 37) (i : Fin 9) (s : State), s.dev.heldState (pmuHeld u) < 2 ∧
      i.val < 8 ∧
      getBits (s.dev.reg (.pmcEvsel u i)) 63 63 = 1 ∧
      s.dev.bitOf .pmcGlbCtl 31 = false ∧
      pmuServes u (getBits (s.dev.reg (.pmcEvsel u i)) 15 0) = true) ∧
    (∃ (u : Fin 37) (s : State), s.dev.heldState (pmuHeld u) < 2) ∧
    (∃ (s : State), s.dev.bitOf .tlsCtl 31 = true ∧
      s.dev.bitOf .tlsCtl 29 = true) ∧
    (∃ (s : State) (i : Nat) (cfg : Word) (msgs : List Msg) (key : Egress × Nat × Nat), s.dev.bitOf .tlsCtl 31 = true ∧
      s.dev.bitOf .tlsCtl 29 = false ∧
      s.dev.tel.tlsForce = [(i, cfg)] ∧
      getBits cfg 63 63 = 1 ∧
      s.dev.slotQueue cfg = some (msgs, key)) ∧
    (∃ (s : State), s.dev.mgmt.coldHeld = false) ∧
    (∃ (x : Nat), 120 ≤ x) :=
  ⟨⟨.firmware, 0, 0, on [], _, by decide +kernel, pair_of (by decide +kernel)⟩,
    ⟨.firmware, on [], _, by decide +kernel, pair_of (by decide +kernel)⟩,
    ⟨.firmware, 0, 0, on [], _, by decide +kernel, pair_of (by decide +kernel)⟩,
    ⟨.firmware, on [], _, by decide +kernel, pair_of (by decide +kernel)⟩,
    ⟨.firmware, on [], _, by decide +kernel, pair_of (by decide +kernel)⟩,
    ⟨.firmware, 0, on [], _, by decide +kernel, pair_of (by decide +kernel)⟩,
    ⟨(on [(.pmcGlbCtl, 29, 29, 1)]), by decide +kernel⟩,
    ⟨0, 0, (on [((.domStatus 8), 31, 26, 0), ((.pmcEvsel 0 0), 63, 63, 1), ((.pmcEvsel 0 0), 15, 0, 0x1010)]), by decide +kernel⟩,
    ⟨36, on [], by decide +kernel⟩,
    ⟨(on [(.tlsCtl, 31, 31, 1), (.tlsCtl, 29, 29, 1)]), by decide +kernel⟩,
    ⟨(tweak (on [(.tlsCtl, 31, 31, 1), ((.prtCfg 0), 31, 28, 1)]) fun d => { d with tel.tlsForce := [(0, 0x8000000000000000)] }), 0, 0x8000000000000000, _, _, by decide +kernel, by decide +kernel, by decide +kernel, by decide +kernel, some_pair_of (by decide +kernel)⟩,
    ⟨on [], by decide +kernel⟩,
    ⟨120, by decide +kernel⟩⟩

/-- What the clauses of FaultEventsAreLoggedTestedAndCleared assume can be met. -/
theorem witness_FaultEventsAreLoggedTestedAndCleared :
    (∃ (n : Fin 1024) (cls : Fin 5) (s : State), sourceKnown n = true ∧
      s.dev.domState (sourceDomain n) < 2 ∧
      (tgetD s.dev.flt.pairs n.val ⟨.normal, 0, 0⟩).code ≠ .fault ∧
      s.dev.srcCfgOk n = true ∧
      s.dev.bitOf (.srcCfg n) 31 = true ∧
      s.dev.rd (.srcCfg n) 15 13 = 0 ∧
      s.dev.rd (.srcCfg n) 19 18 ≤ s.dev.severity n cls ∧
      n.val ≠ 0x340 ∧
      n.val ≠ 0x341) ∧
    (∃ (n : Fin 1024) (s : State), sourceKnown n = true ∧
      s.dev.domState (sourceDomain n) < 2 ∧
      (tgetD s.dev.flt.pairs n.val ⟨.normal, 0, 0⟩).code ≠ .wire ∧
      s.dev.srcCfgOk n = true ∧
      s.dev.bitOf (.srcCfg n) 31 = true ∧
      s.dev.rd (.srcCfg n) 15 13 = 0 ∧
      (n.val < 0x340 ∨ 0x380 ≤ n.val)) ∧
    (∃ (n : Fin 1024) (resource : Resource) (number : Nat) (s : State) (x : TestDue), s.dev.flt.testDue.find? (fun t => decide (t.source = n.val ∧ t.resource = resource ∧ t.number = number)) = some x) ∧
    (∃ (n : Nat) (s : State), (List.range 1024).find? (fun n => !s.dev.srcCfgOk n) = some n) ∧
    (∃ (s : State), (∀ n, n < 1024 → s.dev.srcCfgOk n = true)) ∧
    (∃ (path : Path) (input : List Byte) (s : State), s.dev.takesStoluo path 0xC078 ∧
      faultClearForm input = true ∧
      field input 0 2 < 1024) ∧
    (∃ (path : Path) (input : List Byte) (s : State) (r : Resource) (k : Nat), s.dev.takesStoluo path 0xC079 ∧
      restoreForm input = true ∧
      restoreKind (field input 0 1) = some (r, k) ∧
      s.dev.isRetired r (field input 1 2) = true ∧
      s.dev.stillMoving r (field input 1 2) = false ∧
      tget s.dev.mgmt.bg path = none) :=
  ⟨⟨0, 3, (on [((.domStatus 8), 31, 26, 0)]), by decide +kernel⟩,
    ⟨0, (on [((.domStatus 8), 31, 26, 0)]), by decide +kernel⟩,
    ⟨0, .bank, 0, (tweak (on []) fun d => { d with flt.testDue := [⟨0, .bank, 0, none⟩] }), ⟨0, .bank, 0, none⟩, by decide +kernel⟩,
    ⟨5, (on [((.srcCfg 5), 63, 63, 0), ((.srcCfg 5), 32, 32, 0), ((.srcCfg 5), 0, 0, 0)]), by decide +kernel⟩,
    ⟨on [], by decide +kernel⟩,
    ⟨.fm, [0xFF, 3, 1, 0], on [], sto (by decide +kernel), by decide +kernel⟩,
    ⟨.fm, [3, 255, 0, 0], (tweak (on []) fun d => { d with flt.retirement := ⟨[(.engine, 255, ⟨true, []⟩)], [(.engine, 255, ⟨true, []⟩)], 1, 0⟩ }), .engine, 256, sto (by decide +kernel), by decide +kernel⟩⟩

/-- What the clauses of PartsAreLostAndReturn assume can be met. -/
theorem witness_PartsAreLostAndReturn :
    (∃ (t : Fin 16) (s : State), s.dev.logicUp t = true) ∧
    (∃ (t : Fin 16) (u : Fin 16) (s : State), tget s.dev.flt.moving t.val = some u.val) ∧
    (∃ (t : Fin 16) (s : State), s.dev.isRetired .tdir t = false) ∧
    (∃ (q : Fin 4) (s : State), s.dev.hubLost q = false ∧
      s.dev.sw.napping = none) ∧
    (∃ (die : Fin 4) (s : State), die.val ∉ s.dev.flt.diesOut) ∧
    (∃ (die : Fin 4) (s : State), s.dev.isRetired .portDie die = false) ∧
    (∃ (die : Fin 4) (s : State), (∀ k < 16, ¬(2 ≤ s.dev.portState (16 * die.val + k) ∧ s.dev.portState (16 * die.val + k) ≤ 7) ∧
      s.dev.portState (16 * die.val + k) ≠ 10) ∧
      (∀ k < 4, s.dev.active (4 * die.val + k) = false ∧ s.dev.linkState (4 * die.val + k) ≠ 1)) :=
  ⟨⟨0, on [], by decide +kernel⟩,
    ⟨0, 1, (tweak (on []) fun d => { d with flt.moving := [(0, 1)] }), by decide +kernel⟩,
    ⟨15, on [], by decide +kernel⟩,
    ⟨3, on [], by decide +kernel⟩,
    ⟨2, on [], by decide +kernel⟩,
    ⟨1, on [], by decide +kernel⟩,
    ⟨3, on [], by decide +kernel⟩⟩

/-- What the clauses of ResetsLeaveWhatTheyKeep assume can be met. -/
theorem witness_ResetsLeaveWhatTheyKeep :
    (∃ (s : State), s.dev.mgmt.coldHeld = false) ∧
    (∃ (s : State), s.dev.mgmt.coldHeld = true ∧
      s.dev.railsReady = true ∧
      s.dev.pwr.feedOut = [] ∧
      s.dev.mgmt.tripHeld = false) ∧
    (∃ (s : State), s.dev.mgmt.coldHeld = true ∧
      s.dev.mgmt.porst = true) ∧
    (∃ (s : State), s.dev.mgmt.warmHeld = true) ∧
    (∃ (i : Sys2Proof.Image) (s : State), s.dev.stage = 5 ∧
      s.dev.bitOf .oobBoot 26 = true ∧
      s.dev.validImage 0 (1 - s.dev.rd .oobBoot 27 27) = some i) :=
  ⟨⟨on [], by decide +kernel⟩,
    ⟨(⟨(List.range 6).foldl (fun d r => d.wr (.rail r) 63 62 3) Dev.reset, []⟩), by decide +kernel⟩,
    ⟨(tweak (on []) fun d => { d with mgmt.coldHeld := true, mgmt.porst := true }), by decide +kernel⟩,
    ⟨(tweak (on []) fun d => { d with mgmt.warmHeld := true }), by decide +kernel⟩,
    ⟨image, (tweak (on [(.oobBoot, 31, 28, 5), (.oobBoot, 26, 26, 1)]) fun d => { d with mgmt.flash := [((0, 1), image)] }), by decide +kernel⟩⟩

/-- What the clauses of BlocksAreResetByCommand assume can be met. -/
theorem witness_BlocksAreResetByCommand :
    (∃ (path : Path) (input : List Byte) (s : State), s.dev.takesStoluo path 0xC058 ∧
      input.length = 4 ∧
      field input 1 3 = 0) ∧
    (∃ (path : Path) (input : List Byte) (s : State), s.dev.takesStoluo path 0xC058 ∧
      resetForm input 16 = true ∧
      s.dev.isRetired .tambour (field input 1 1) = false) ∧
    (∃ (path : Path) (input : List Byte) (s : State), s.dev.takesStoluo path 0xC058 ∧
      resetForm input 64 = true ∧
      (s.dev.prec (field input 1 1)).resetBy = none) ∧
    (∃ (path : Path) (input : List Byte) (s : State), s.dev.takesStoluo path 0xC058 ∧
      resetForm input 16 = true ∧
      (s.dev.lrec (field input 1 1)).resetBy = none) ∧
    (∃ (i : Sys2Proof.Image) (s : State), s.dev.mgmt.fwUp = false ∧
      s.dev.mgmt.coldHeld = false ∧
      s.dev.mgmt.warmHeld = false ∧
      s.dev.aoOnly = false ∧
      s.dev.validImage 0 (s.dev.rd .oobBoot 27 27) = some i) :=
  ⟨⟨.fm, [255, 0, 0, 0], on [], sto (by decide +kernel), by decide +kernel⟩,
    ⟨.fm, [0, 15, 0, 0], on [], sto (by decide +kernel), by decide +kernel⟩,
    ⟨.fm, [0, 63, 0, 0], on [], sto (by decide +kernel), by decide +kernel⟩,
    ⟨.fm, [0, 15, 0, 0], on [], sto (by decide +kernel), by decide +kernel⟩,
    ⟨image, (tweak (on []) fun d => { d with mgmt.fwUp := false, mgmt.flash := [((0, 0), image)] }), by decide +kernel⟩⟩

/-- What the clauses of DynamicCapacityIsOfferedAndReleased assume can be met. -/
theorem witness_DynamicCapacityIsOfferedAndReleased :
    (∃ (path : Path) (host : Fin 64) (region : Fin 2) (tag : BitVec 128) (extents : List (Nat × Nat)) (ext : List (Nat × Nat)) (s : State), s.dev.takesStandard path 0x5604 ∧
      s.dev.addRefusal path host region tag.toNat extents = none ∧
      asBlocks extents = some ext) ∧
    (∃ (path : Path) (host : Fin 64) (region : Fin 2) (tag : BitVec 128) (extents : List (Nat × Nat)) (f : Nat) (n : Nat) (i : Nat) (r : DomainRec) (s : State), s.dev.takesStandard path 0x5604 ∧
      s.dev.addRefusal path host region tag.toNat extents = none ∧
      asBlocks extents = some [(f, n)] ∧
      s.dev.tagDomain tag.toNat = some (i, r)) ∧
    (∃ (p : Fin 64) (accepted : List (Nat × Nat)) (es : List Extent) (s : State), s.dev.takesStandard (.pool p) 0x4802 ∧
      s.dev.namedExtents p true accepted = some es) ∧
    (∃ (p : Fin 64) (accepted : List (Nat × Nat)) (e : Extent) (path : Path) (s : State), s.dev.takesStandard (.pool p) 0x4802 ∧
      s.dev.namedExtents p true accepted = some [e] ∧
      s.dev.pool.extents = [e] ∧
      tget s.dev.pool.dcOps p.val = some ⟨true, path, [], 0⟩) ∧
    (∃ (s : State), s.dev.fwRuns = true) ∧
    (∃ (s : State), s.dev.fwRuns = false) ∧
    (∃ (path : Path) (host : Fin 64) (extents : List (Nat × Nat)) (es : List Extent) (s : State), s.dev.takesStandard path 0x5605 ∧
      s.dev.releaseRefusal path host extents = none ∧
      s.dev.namedExtents host false extents = some es) ∧
    (∃ (p : Fin 64) (extents : List (Nat × Nat)) (es : List Extent) (s : State), s.dev.takesStandard (.pool p) 0x4803 ∧
      s.dev.namedExtents p false extents = some es) :=
  ⟨⟨.fm, 0, 0, 0, [(0, 67108864)], [(0, 1)], (tweak (on [((.prtCfg 0), 31, 28, 1), ((.prtStatus 0), 31, 28, 5), (.keyStatus, 31, 31, 1)]) fun d => { d with pool.hubA.sets := [(0, oneSet)], pool.hubB.sets := [(0, oneSet)], pool.readyOrder := [1], pool.windows := [(0, (0, 16, 0))] }), std (by decide +kernel), by decide +kernel⟩,
    ⟨.fm, 0, 0, 7, [(0, 67108864)], 0, 1, 1, ⟨.shared, 7, [], [0], false⟩, (tweak (on [((.prtCfg 0), 31, 28, 1), ((.prtStatus 0), 31, 28, 5), (.keyStatus, 31, 31, 1)]) fun d => { d with pool.hubA.sets := [(0, oneSet)], pool.hubB.sets := [(0, oneSet)], pool.readyOrder := [1], pool.windows := [(0, (0, 16, 0))], pool.domains := [(1, ⟨.shared, 7, [], [0], false⟩)] }), std (by decide +kernel), by decide +kernel⟩,
    ⟨0, [(0, 67108864)], [⟨0, 0, 0, 1, 0, 1, [0], true, 0⟩], (tweak (on [((.prtCfg 0), 31, 28, 1), ((.prtStatus 0), 31, 28, 5), (.keyStatus, 31, 31, 1)]) fun d => { d with pool.extents := [⟨0, 0, 0, 1, 0, 1, [0], true, 0⟩] }), std (by decide +kernel), by decide +kernel⟩,
    ⟨0, [(0, 67108864)], ⟨0, 0, 0, 1, 0, 1, [0], true, 0⟩, .fm, (tweak (on [((.prtCfg 0), 31, 28, 1), ((.prtStatus 0), 31, 28, 5), (.keyStatus, 31, 31, 1)]) fun d => { d with pool.extents := [⟨0, 0, 0, 1, 0, 1, [0], true, 0⟩], pool.dcOps := [(0, ⟨true, .fm, [], 0⟩)] }), std (by decide +kernel), by decide +kernel⟩,
    ⟨on [], by decide +kernel⟩,
    ⟨State.reset, by decide +kernel⟩,
    ⟨.fm, 0, [(0, 67108864)], [⟨0, 0, 0, 1, 0, 1, [0], false, 0⟩], (tweak (on [((.prtCfg 0), 31, 28, 1), ((.prtStatus 0), 31, 28, 5), (.keyStatus, 31, 31, 1)]) fun d => { d with pool.extents := [⟨0, 0, 0, 1, 0, 1, [0], false, 0⟩] }), std (by decide +kernel), by decide +kernel⟩,
    ⟨0, [(0, 67108864)], [⟨0, 0, 0, 1, 0, 1, [0], false, 0⟩], (tweak (on [((.prtCfg 0), 31, 28, 1), ((.prtStatus 0), 31, 28, 5), (.keyStatus, 31, 31, 1)]) fun d => { d with pool.extents := [⟨0, 0, 0, 1, 0, 1, [0], false, 0⟩] }), std (by decide +kernel), by decide +kernel⟩⟩

/-- What the clauses of FenceRunsItsSteps assume can be met. -/
theorem witness_FenceRunsItsSteps :
    (∃ (s : State), s.dev.fwRuns = false) ∧
    (∃ (s : State), s.dev.fwRuns = true) ∧
    (∃ (batch : List FenceRec) (left : List FenceRec) (s : State), s.dev.fwRuns = true ∧
      s.dev.pool.forcedDue = [] ∧
      s.dev.pool.fence = none ∧
      s.dev.nextBatch s.dev.pool.fenceQueue [] [] = (batch, left) ∧
      batch ≠ []) ∧
    (∃ (f : FenceRun) (s : State), s.dev.fwRuns = true ∧
      s.dev.pool.fence = some f ∧
      f.step = 1) ∧
    (∃ (f : FenceRun) (s : State), s.dev.fwRuns = true ∧
      s.dev.pool.fence = some f ∧
      f.step = 2) ∧
    (∃ (f : FenceRun) (s : State), s.dev.fwRuns = true ∧
      s.dev.pool.fence = some f ∧
      f.step = 3 ∧
      (f.recs.any fun r => s.dev.sweepLeft r) = true) ∧
    (∃ (f : FenceRun) (s : State), s.dev.fwRuns = true ∧
      s.dev.pool.fence = some f ∧
      f.step = 3 ∧
      (f.recs.any fun r => s.dev.sweepLeft r) = false) ∧
    (∃ (f : FenceRun) (s : State), s.dev.fwRuns = true ∧
      s.dev.pool.fence = some f ∧
      f.step = 4 ∧
      s.dev.outstanding f.oldEpoch = 0 ∧
      (f.recs.any fun r => s.dev.sweepLeft r) = true) ∧
    (∃ (f : FenceRun) (s : State), s.dev.fwRuns = true ∧
      s.dev.pool.fence = some f ∧
      f.step = 4 ∧
      s.dev.outstanding f.oldEpoch = 0 ∧
      (f.recs.any fun r => s.dev.sweepLeft r) = false) ∧
    (∃ (f : FenceRun) (s : State), s.dev.fwRuns = true ∧
      s.dev.pool.fence = some f ∧
      f.step = 4 ∧
      s.dev.outstanding f.oldEpoch ≠ 0) ∧
    (∃ (f : FenceRun) (s : State), s.dev.fwRuns = true ∧
      s.dev.pool.fence = some f ∧
      f.step = 5) ∧
    (∃ (f : FenceRun) (s : State), s.dev.fwRuns = true ∧
      s.dev.pool.fence = some f ∧
      f.step = 6) :=
  ⟨⟨State.reset, by decide +kernel⟩,
    ⟨on [], by decide +kernel⟩,
    ⟨[⟨true, [0], [], [], 1, .nothing⟩], [], (tweak (on []) fun d => { d with pool.fenceQueue := [⟨true, [0], [], [], 1, .nothing⟩] }), by decide +kernel⟩,
    ⟨⟨[⟨true, [0], [], [], 1, .nothing⟩], 1, 0⟩, (tweak (on []) fun d => { d with pool.fence := some ⟨[⟨true, [0], [], [], 1, .nothing⟩], 1, 0⟩ }), by decide +kernel⟩,
    ⟨⟨[⟨true, [0], [], [], 1, .nothing⟩], 2, 0⟩, (tweak (on []) fun d => { d with pool.fence := some ⟨[⟨true, [0], [], [], 1, .nothing⟩], 2, 0⟩ }), by decide +kernel⟩,
    ⟨⟨[⟨true, [0], [], [], 1, .nothing⟩], 3, 0⟩, (tweak (on []) fun d => { d with pool.fence := some ⟨[⟨true, [0], [], [], 1, .nothing⟩], 3, 0⟩, dir.ct := [(0, {entry with kind := .sweep})] }), by decide +kernel⟩,
    ⟨⟨[⟨true, [0], [], [], 1, .nothing⟩], 3, 0⟩, (tweak (on []) fun d => { d with pool.fence := some ⟨[⟨true, [0], [], [], 1, .nothing⟩], 3, 0⟩ }), by decide +kernel⟩,
    ⟨⟨[⟨true, [0], [], [], 1, .nothing⟩], 4, 0⟩, (tweak (on []) fun d => { d with pool.fence := some ⟨[⟨true, [0], [], [], 1, .nothing⟩], 4, 0⟩, dir.entries := [(0, mkEntry 0 2 (bitVector (.port 0)))], pool.blocks := ⟨[(0, bound)], [(0, bound)]⟩ }), by decide +kernel⟩,
    ⟨⟨[⟨true, [0], [], [], 1, .nothing⟩], 4, 0⟩, (tweak (on []) fun d => { d with pool.fence := some ⟨[⟨true, [0], [], [], 1, .nothing⟩], 4, 0⟩ }), by decide +kernel⟩,
    ⟨⟨[⟨true, [0], [], [], 1, .nothing⟩], 4, 0⟩, (tweak (on []) fun d => { d with pool.fence := some ⟨[⟨true, [0], [], [], 1, .nothing⟩], 4, 0⟩, pool.inflight := [((.host 0, 0), ⟨0, 0⟩)] }), by decide +kernel⟩,
    ⟨⟨[⟨true, [0], [], [], 1, .nothing⟩], 5, 0⟩, (tweak (on []) fun d => { d with pool.fence := some ⟨[⟨true, [0], [], [], 1, .nothing⟩], 5, 0⟩ }), by decide +kernel⟩,
    ⟨⟨[⟨true, [0], [], [], 1, .nothing⟩], 6, 0⟩, (tweak (on []) fun d => { d with pool.fence := some ⟨[⟨true, [0], [], [], 1, .nothing⟩], 6, 0⟩ }), by decide +kernel⟩⟩

/-- What the clauses of KeysAndMigrationsKeepTheirRecords assume can be met. -/
theorem witness_KeysAndMigrationsKeepTheirRecords :
    (∃ (slot : Fin 4096) (s : State), slot.val ≠ 0 ∧
      s.dev.keySlot slot = .spent ∧
      s.dev.drbgOk = true ∧
      s.dev.pool.revoking = false ∧
      s.dev.domState domKeyv ≤ 2) ∧
    (∃ (slot : Fin 4096) (s : State), (slot.val = 0 ∨ s.dev.keySlot slot ≠ .spent ∨ s.dev.drbgOk = false)) ∧
    (∃ (block : BitVec 20) (m : Migration) (d1 : Dev) (s : State), s.dev.migrationOf block.toNat = some m ∧
      s.dev.atRest ∧
      s.dev.fwRuns = true ∧
      s.dev.safe = false ∧
      m.watermark < 2 ^ 26 ∧
      s.dev.copyChunk m = (true, d1) ∧
      d1.dir.turn.stall = none) ∧
    (∃ (block : BitVec 20) (m : Migration) (d1 : Dev) (s : State), s.dev.migrationOf block.toNat = some m ∧
      s.dev.atRest ∧
      s.dev.fwRuns = true ∧
      s.dev.safe = false ∧
      m.watermark < 2 ^ 26 ∧
      s.dev.copyChunk m = (false, d1) ∧
      d1.dir.turn.stall = none) ∧
    (∃ (block : BitVec 20) (m : Migration) (ok : Bool) (d1 : Dev) (w : Stall) (s : State), s.dev.migrationOf block.toNat = some m ∧
      s.dev.atRest ∧
      s.dev.fwRuns = true ∧
      s.dev.safe = false ∧
      m.watermark < 2 ^ 26 ∧
      s.dev.copyChunk m = (ok, d1) ∧
      d1.dir.turn.stall = some w) ∧
    (∃ (block : BitVec 20) (m : Migration) (s : State), s.dev.migrationOf block.toNat = some m ∧
      s.dev.fwRuns = true ∧
      2 ^ 26 ≤ m.watermark ∧
      (∀ r ∈ s.dev.pool.fenceQueue ++ ((s.dev.pool.fence.map (·.recs)).getD []), r.after ≠ .migrated m.source)) ∧
    (∃ (setNo : Fin 64) (way : Fin 16) (copy : Fin 2) (sd : SetDesc) (s : State), s.dev.setDesc? setNo = some sd ∧
      s.dev.safe = false ∧
      sd.mirrored = true ∧
      sd.resync way copy = true ∧
      sd.ok way (1 - copy.val) = true) ∧
    (∃ (path : Path) (input : List Byte) (s : State), s.dev.takesStoluo path 0xC010 ∧
      input.length = 4 ∧
      field input 0 4 < 2 ^ 20) ∧
    (∃ (path : Path) (input : List Byte) (target : Nat) (d1 : Dev) (s : State), s.dev.takesStoluo path 0xC011 ∧
      input.length = 8 ∧
      field input 0 4 < 2 ^ 20 ∧
      field input 4 1 < 64 ∧
      field input 5 3 = 0 ∧
      s.dev.mayMigrate (field input 0 4) = true ∧
      s.dev.hub.migrations.length < 16 ∧
      s.dev.bgRunning path = false ∧
      s.dev.pickBlocks [field input 4 1] 1 [] = (some [target], d1)) :=
  ⟨⟨4095, (tweak (on [(.keyStatus, 31, 31, 1), ((.domStatus 2), 31, 26, 0)]) fun d => { d with pool.keys := [] }), by decide +kernel⟩,
    ⟨0, on [], by decide +kernel⟩,
    ⟨0, ⟨0, 1, 0, none⟩, _, (tweak (on []) fun d => { d with pool.hubA.migrations := [⟨0, 1, 0, none⟩], pool.hubB.migrations := [⟨0, 1, 0, none⟩], pool.blocks := ⟨[(0, bound.withState 5)], [(0, bound.withState 5)]⟩ }), by decide +kernel, rest (by decide +kernel), by decide +kernel, by decide +kernel, by decide +kernel, pair_of (by decide +kernel), by decide +kernel⟩,
    ⟨0, ⟨0, 1, 0, none⟩, _, (tweak (on [((.domStatus 8), 31, 26, 0), ((.domStatus 24), 31, 26, 0), ((.prtCfg 1), 31, 28, 2), ((.prtStatus 1), 31, 28, 5), (.keyStatus, 31, 31, 1)]) fun d => { d with pool.hubA.migrations := [⟨0, 1, 0, none⟩], pool.hubB.migrations := [⟨0, 1, 0, none⟩] }), by decide +kernel, rest (by decide +kernel), by decide +kernel, by decide +kernel, by decide +kernel, pair_of (by decide +kernel), by decide +kernel⟩,
    ⟨0, ⟨0, 1, 0, none⟩, _, _, _, (tweak (on []) fun d => { d with pool.hubA.migrations := [⟨0, 1, 0, none⟩], pool.hubB.migrations := [⟨0, 1, 0, none⟩] }), by decide +kernel, rest (by decide +kernel), by decide +kernel, by decide +kernel, by decide +kernel, Prod.mk.eta.symm, some_of (by decide +kernel)⟩,
    ⟨0, ⟨0, 1, 67108864, none⟩, (tweak (on []) fun d => { d with pool.hubA.migrations := [⟨0, 1, 67108864, none⟩], pool.hubB.migrations := [⟨0, 1, 67108864, none⟩] }), by decide +kernel⟩,
    ⟨0, 0, 1, { oneSet with mirrored := true, mirror := [2], resyncM := 1 }, (tweak (on []) fun d => { d with pool.hubA.sets := [(0, { oneSet with mirrored := true, mirror := [2], resyncM := 1 })], pool.hubB.sets := [(0, { oneSet with mirrored := true, mirror := [2], resyncM := 1 })] }), by decide +kernel⟩,
    ⟨.fm, [3, 0, 0, 0], on [], sto (by decide +kernel), by decide +kernel⟩,
    ⟨.fm, [0, 0, 0, 0, 0, 0, 0, 0], 1, _, (tweak (on [((.prtCfg 0), 31, 28, 1), ((.prtStatus 0), 31, 28, 5), (.keyStatus, 31, 31, 1)]) fun d => { d with pool.hubA.sets := [(0, { oneSet with count := 2 })], pool.hubB.sets := [(0, { oneSet with count := 2 })], pool.blocks := ⟨[(0, mkBlock 1 2 false true 0 0 0 0 0)], [(0, mkBlock 1 2 false true 0 0 0 0 0)]⟩ }), sto (by decide +kernel), four (by decide +kernel) ⟨by decide +kernel, by decide +kernel, by decide +kernel, pick_one (by decide +kernel)⟩⟩⟩

/-- What the clauses of ExportsAreMadeAndReleased assume can be met. -/
theorem witness_ExportsAreMadeAndReleased :
    (∃ (path : Path) (input : List Byte) (s : State), s.dev.takesStoluo path 0xC012 ∧
      input.length = 8 ∧
      field input 0 2 < 2048 ∧
      field input 2 1 ≤ 1 ∧
      1 ≤ field input 4 2 ∧
      field input 4 2 ≤ 1016 ∧
      field input 6 2 = 0 ∧
      (field input 3 1 = 0xFF ∨ ∃ x, s.dev.setDesc? (field input 3 1) = some x ∧ x.inService = true) ∧
      (field input 2 1 = 1 → s.dev.coherentPeer (field input 0 2) = true) ∧
      s.dev.hasRoute (field input 0 2) (decide (field input 2 1 = 1)) = true ∧
      field input 4 2 ≤ (s.dev.exportable (field input 3 1)).length ∧
      (s.dev.fab.requests.filter fun r => decide (r.mtype = 5)).length < s.dev.readyDomains.length ∧
      s.dev.hub.exports.length + (s.dev.fab.requests.filter fun r => decide (r.mtype = 5)).length < 256 ∧
      s.dev.exportIds ≠ []) ∧
    (∃ (src : DeviceId) (tag : BitVec 16) (r : MgmtReq) (path : Path) (dom : Nat) (d1 : Dev) (d2 : Dev) (s : State), s.dev.takeRequest src tag.toNat 5 = some (r, d1) ∧
      r.path = some path ∧
      (∀ b ∈ r.blocks, (d1.blockEntry b).state = 0) ∧
      d1.createDomain ⟨.exported, 0, [], r.blocks, false⟩ = (some dom, d2)) ∧
    (∃ (src : DeviceId) (tag : BitVec 16) (status : Fin 3) (r : MgmtReq) (path : Path) (d1 : Dev) (s : State), s.dev.takeRequest src tag.toNat 5 = some (r, d1) ∧
      r.path = some path ∧
      status.val ≠ 0) ∧
    (∃ (tag : BitVec 16) (r : MgmtReq) (path : Path) (d1 : Dev) (s : State), s.dev.expireRequest tag.toNat 5 = some (r, d1) ∧
      r.path = some path) ∧
    (∃ (path : Path) (input : List Byte) (x : ExportRec) (s : State), s.dev.takesStoluo path 0xC013 ∧
      input.length = 4 ∧
      field input 2 2 = 0 ∧
      (s.dev.hub.exports.find? fun x => decide (x.id = field input 0 2)) = some x ∧
      x.releasing = false ∧
      tget s.dev.mgmt.bg path = none ∧
      x.mapped = true) ∧
    (∃ (path : Path) (input : List Byte) (x : ExportRec) (s : State), s.dev.takesStoluo path 0xC013 ∧
      input.length = 4 ∧
      field input 2 2 = 0 ∧
      (s.dev.hub.exports.find? fun x => decide (x.id = field input 0 2)) = some x ∧
      x.releasing = false ∧
      tget s.dev.mgmt.bg path = none ∧
      x.mapped = false) ∧
    (∃ (src : DeviceId) (tag : BitVec 16) (r : MgmtReq) (d1 : Dev) (s : State), s.dev.takeRequest src tag.toNat 3 = some (r, d1)) ∧
    (∃ (tag : BitVec 16) (r : MgmtReq) (d1 : Dev) (s : State), s.dev.expireRequest tag.toNat 3 = some (r, d1)) ∧
    (∃ (src : DeviceId) (tag : BitVec 16) (s : State), s.dev.answeredBefore src tag.toNat 2 = none) ∧
    (∃ (src : DeviceId) (tag : BitVec 16) (s : State), s.dev.answeredBefore src tag.toNat 8 = none) :=
  ⟨⟨.fm, [5, 0, 1, 255, 1, 0, 0, 0], (tweak (on [((.route 5), 31, 30, 2), ((.nbr 0), 63, 62, 3), ((.nbr 0), 61, 60, 1), ((.nbr 0), 42, 32, 5), (.fabCfg, 10, 0, 1), ((.prtCfg 0), 31, 28, 1), ((.prtStatus 0), 31, 28, 5), (.keyStatus, 31, 31, 1)]) fun d => { d with pool.hubA.sets := [(0, oneSet)], pool.hubB.sets := [(0, oneSet)], pool.readyOrder := [1], pool.windows := [(0, (0, 16, 0))] }), sto (by decide +kernel), by decide +kernel⟩,
    ⟨5, 0, _, .fm, 1, _, _, (tweak (on [((.prtCfg 0), 31, 28, 1), ((.prtStatus 0), 31, 28, 5), (.keyStatus, 31, 31, 1)]) fun d => { d with pool.hubA.sets := [(0, oneSet)], pool.hubB.sets := [(0, oneSet)], pool.readyOrder := [1], pool.windows := [(0, (0, 16, 0))], fab.requests := [⟨0, 5, 5, 1, 1, false, [0], some .fm, 0⟩] }), some_pair_of (by decide +kernel), by decide +kernel, by decide +kernel, pair_of (by decide +kernel)⟩,
    ⟨5, 0, 1, _, .fm, _, (tweak (on [((.prtCfg 0), 31, 28, 1), ((.prtStatus 0), 31, 28, 5), (.keyStatus, 31, 31, 1)]) fun d => { d with pool.hubA.sets := [(0, oneSet)], pool.hubB.sets := [(0, oneSet)], pool.readyOrder := [1], pool.windows := [(0, (0, 16, 0))], fab.requests := [⟨0, 5, 5, 1, 1, false, [0], some .fm, 0⟩] }), some_pair_of (by decide +kernel), by decide +kernel⟩,
    ⟨0, _, .fm, _, (tweak (on []) fun d => { d with fab.requests := [⟨0, 5, 5, 1, 1, false, [0], some .fm, 0⟩] }), some_pair_of (by decide +kernel), by decide +kernel⟩,
    ⟨.fm, [1, 0, 0, 0], ⟨1, 5, 1, false, false, true, [0]⟩, (tweak (on []) fun d => { d with pool.hubA.exports := [⟨1, 5, 1, false, false, true, [0]⟩], pool.hubB.exports := [⟨1, 5, 1, false, false, true, [0]⟩] }), sto (by decide +kernel), by decide +kernel⟩,
    ⟨.fm, [1, 0, 0, 0], ⟨1, 5, 1, false, false, false, [0]⟩, (tweak (on []) fun d => { d with pool.hubA.exports := [⟨1, 5, 1, false, false, false, [0]⟩], pool.hubB.exports := [⟨1, 5, 1, false, false, false, [0]⟩] }), sto (by decide +kernel), by decide +kernel⟩,
    ⟨5, 0, _, _, (tweak (on [((.prtCfg 0), 31, 28, 1), ((.prtStatus 0), 31, 28, 5), (.keyStatus, 31, 31, 1)]) fun d => { d with pool.hubA.sets := [(0, oneSet)], pool.hubB.sets := [(0, oneSet)], pool.readyOrder := [1], pool.windows := [(0, (0, 16, 0))], fab.requests := [⟨0, 5, 3, 1, 1, false, [0], some .fm, 0⟩] }), some_pair_of (by decide +kernel)⟩,
    ⟨0, _, _, (tweak (on []) fun d => { d with fab.requests := [⟨0, 5, 3, 1, 1, false, [0], some .fm, 0⟩] }), some_pair_of (by decide +kernel)⟩,
    ⟨0, 0, on [], by decide +kernel⟩,
    ⟨0, 0, on [], by decide +kernel⟩⟩

/-- What the clauses of ImportsAreMadeAndEnded assume can be met. -/
theorem witness_ImportsAreMadeAndEnded :
    (∃ (path : Path) (input : List Byte) (s : State), s.dev.takesStoluo path 0xC014 ∧
      field input 0 2 < 2048 ∧
      field input 2 2 < 4096 ∧
      field input 4 2 < 4096 ∧
      field input 6 1 ≤ 1 ∧
      field input 7 1 = 0 ∧
      field input 26 6 = 0 ∧
      1 ≤ field input 24 2 ∧
      field input 24 2 ≤ 1016 ∧
      input.length = 32 + 4 * field input 24 2 ∧
      (∀ b ∈ mapBlocks input, b < 2 ^ 20) ∧
      let dev : DeviceId := BitVec.ofNat 11 (field input 0 2)
      let coh := decide (field input 6 1 = 1)
      (coh = true → s.dev.coherentPeer (field input 0 2) = true) ∧
      (∀ r ∈ s.dev.fab.requests, ¬(r.mtype = 1 ∧ r.dev = dev ∧ r.exportId = field input 2 2)) ∧
      s.dev.mapRefusal dev (field input 2 2) coh (field input 8 16) (mapBlocks input) = none) ∧
    (∃ (src : DeviceId) (tag : BitVec 16) (r : MgmtReq) (path : Path) (proxy : Nat) (d1 : Dev) (s : State), s.dev.takeRequest src tag.toNat 1 = some (r, d1) ∧
      r.path = some path ∧
      s.dev.mapRefusal r.dev r.exportId r.coherent r.tagBytes r.blocks = none ∧
      s.dev.readyDomains.head? = some proxy) ∧
    (∃ (src : DeviceId) (tag : BitVec 16) (status : Fin 3) (r : MgmtReq) (path : Path) (d1 : Dev) (s : State), s.dev.takeRequest src tag.toNat 1 = some (r, d1) ∧
      r.path = some path ∧
      status.val ≠ 0) ∧
    (∃ (tag : BitVec 16) (r : MgmtReq) (path : Path) (d1 : Dev) (s : State), s.dev.expireRequest tag.toNat 1 = some (r, d1) ∧
      r.path = some path) ∧
    (∃ (path : Path) (input : List Byte) (i : ImportRec) (s : State), s.dev.takesStoluo path 0xC015 ∧
      input.length = 4 ∧
      field input 0 2 < 2048 ∧
      s.dev.findImport (BitVec.ofNat 11 (field input 0 2)) (field input 2 2) = some i ∧
      i.ending = [] ∧
      tget s.dev.mgmt.bg path = none) ∧
    (∃ (src : DeviceId) (tag : BitVec 16) (exportId : BitVec 12) (i : ImportRec) (s : State), s.dev.answeredBefore src tag.toNat 4 = none ∧
      s.dev.findImport src exportId.toNat = some i ∧
      .request tag.toNat ∉ i.ending) ∧
    (∃ (src : DeviceId) (tag : BitVec 16) (exportId : BitVec 12) (s : State), s.dev.answeredBefore src tag.toNat 4 = none ∧
      s.dev.findImport src exportId.toNat = none) ∧
    (∃ (src : DeviceId) (tag : BitVec 16) (blocks : List Nat) (s : State), s.dev.answeredBefore src tag.toNat 6 = none ∧
      s.dev.pool.notices = [] ∧
      (∀ i ∈ s.dev.hub.imports, i.homeDev = src → ∀ b ∈ i.blocks, b.1 ∉ blocks)) ∧
    (∃ (src : DeviceId) (tag : BitVec 16) (s : State), s.dev.answeredBefore src tag.toNat 6 = none ∧
      (∀ n ∈ s.dev.pool.notices, ¬(n.home = src ∧ n.tag = tag.toNat))) ∧
    (∃ (src : DeviceId) (tag : BitVec 16) (r : MgmtReq) (d1 : Dev) (s : State), s.dev.takeRequest src tag.toNat 7 = some (r, d1)) ∧
    (∃ (tag : BitVec 16) (r : MgmtReq) (s : State), (s.dev.fab.requests.find? fun r => decide (r.tag = tag.toNat)) = some r) ∧
    (∃ (mtype : BitVec 8), (mtype = 0 ∨ 9 ≤ mtype.toNat)) ∧
    (∃ (mtype : BitVec 8), mtype ≠ 0 ∧
      mtype.toNat < 9) :=
  ⟨⟨.fm, (toBytes 2 5 ++ toBytes 2 1 ++ toBytes 2 1 ++ [0, 0] ++ zeros 16 ++ [1, 0] ++ zeros 6 ++ toBytes 4 9), (tweak (on [((.route 5), 31, 30, 2), ((.nbr 0), 63, 62, 3), ((.nbr 0), 61, 60, 1), ((.nbr 0), 42, 32, 5), (.fabCfg, 10, 0, 1), ((.prtCfg 0), 31, 28, 1), ((.prtStatus 0), 31, 28, 5), (.keyStatus, 31, 31, 1)]) fun d => { d with pool.hubA.sets := [(0, oneSet)], pool.hubB.sets := [(0, oneSet)], pool.readyOrder := [1], pool.windows := [(0, (0, 16, 0))] }), sto (by decide +kernel), by decide +kernel⟩,
    ⟨5, 0, _, .fm, 1, _, (tweak (on [((.route 5), 31, 30, 2), ((.nbr 0), 63, 62, 3), ((.nbr 0), 61, 60, 1), ((.nbr 0), 42, 32, 5), (.fabCfg, 10, 0, 1), ((.prtCfg 0), 31, 28, 1), ((.prtStatus 0), 31, 28, 5), (.keyStatus, 31, 31, 1)]) fun d => { d with pool.hubA.sets := [(0, oneSet)], pool.hubB.sets := [(0, oneSet)], pool.readyOrder := [1], pool.windows := [(0, (0, 16, 0))], fab.requests := [⟨0, 5, 1, 1, 1, false, [9], some .fm, 0⟩] }), some_pair_of (by decide +kernel), by decide +kernel⟩,
    ⟨5, 0, 2, _, .fm, _, (tweak (on []) fun d => { d with fab.requests := [⟨0, 5, 1, 1, 1, false, [9], some .fm, 0⟩] }), some_pair_of (by decide +kernel), by decide +kernel⟩,
    ⟨0, _, .fm, _, (tweak (on []) fun d => { d with fab.requests := [⟨0, 5, 1, 1, 1, false, [9], some .fm, 0⟩] }), some_pair_of (by decide +kernel), by decide +kernel⟩,
    ⟨.fm, [5, 0, 1, 0], ⟨5, 1, 1, 1, false, 0, [(9, 100)], []⟩, (tweak (on []) fun d => { d with pool.hubA.imports := [⟨5, 1, 1, 1, false, 0, [(9, 100)], []⟩], pool.hubB.imports := [⟨5, 1, 1, 1, false, 0, [(9, 100)], []⟩] }), sto (by decide +kernel), by decide +kernel⟩,
    ⟨5, 0, 1, ⟨5, 1, 1, 1, false, 0, [(9, 100)], []⟩, (tweak (on []) fun d => { d with pool.hubA.imports := [⟨5, 1, 1, 1, false, 0, [(9, 100)], []⟩], pool.hubB.imports := [⟨5, 1, 1, 1, false, 0, [(9, 100)], []⟩] }), by decide +kernel⟩,
    ⟨0, 0, 0, on [], by decide +kernel⟩,
    ⟨0, 0, [], on [], by decide +kernel⟩,
    ⟨0, 0, on [], by decide +kernel⟩,
    ⟨5, 0, _, _, (tweak (on []) fun d => { d with fab.requests := [⟨0, 5, 7, 1, 1, false, [9], none, 0⟩] }), some_pair_of (by decide +kernel)⟩,
    ⟨0, ⟨0, 5, 1, 1, 1, false, [9], some .fm, 0⟩, (tweak (on []) fun d => { d with fab.requests := [⟨0, 5, 1, 1, 1, false, [9], some .fm, 0⟩] }), by decide +kernel⟩,
    ⟨9, by decide +kernel⟩,
    ⟨8, by decide +kernel⟩⟩

/-- What the clauses of HomeServesRequestsByItsTables assume can be met. -/
theorem witness_HomeServesRequestsByItsTables :
    (∃ (kind : ReqKind) (c : Instr) (req : HomeReq) (s : State), (kind, c) ∈ [(.readShared, .homeReadShared req), (.readExclusive, .homeReadExclusive req), (.readCurrent, .homeReadCurrent req),
      (.write, .homeWrite req), (.partialWrite, .homePartialWrite req)] ∧
      s.dev.admits kind req) ∧
    (∃ (kind : ReqKind) (c : Instr) (req : HomeReq) (s : State), (kind, c) ∈ [(.readShared, .homeReadShared req), (.readExclusive, .homeReadExclusive req), (.readCurrent, .homeReadCurrent req),
      (.write, .homeWrite req), (.partialWrite, .homePartialWrite req)] ∧
      s.dev.examines kind req ∧
      s.dev.busy (granuleOf req.line.toNat) = true) ∧
    (∃ (req : HomeReq) (r : Holder) (e : BlockEntry) (s : State), agentHolder req.agent = some r ∧
      s.dev.mirrorCopy req.agent = false ∧
      e.coherent = true ∧
      s.dev.untracked (granuleOf req.line.toNat)) :=
  ⟨⟨.readShared, .homeReadShared ask, ask, (on [((.domStatus 8), 31, 26, 0), ((.domStatus 24), 31, 26, 0)]), by decide +kernel, adm (by decide +kernel)⟩,
    ⟨.readShared, .homeReadShared ask, ask, (tweak (on [((.domStatus 8), 31, 26, 0), ((.domStatus 24), 31, 26, 0)]) fun d => { d with dir.ct := [(0, entry)] }), by decide +kernel, looks (by decide +kernel), by decide +kernel⟩,
    ⟨ask, .port 0, bound, (on [((.domStatus 8), 31, 26, 0), ((.domStatus 24), 31, 26, 0)]), by decide +kernel, by decide +kernel, by decide +kernel, by unfold Dev.untracked; decide +kernel⟩⟩

/-- What the clauses of WriteBacksReleasesAndAnswersFollowTheDirectory assume can be met. -/
theorem witness_WriteBacksReleasesAndAnswersFollowTheDirectory :
    (∃ (req : HomeReq) (h : Holder) (b : Nat) (e : BlockEntry) (x : DirEntry) (d1 : Dev) (s : State), agentHolder req.agent = some h ∧
      let g := granuleOf req.line.toNat
      let kind := if req.mask = BitVec.allOnes 64 then ReqKind.write else .partialWrite
      let d := (s.dev.trustEntry g).2
      d.entry g = some x ∧
      x.ownedBy h = true ∧
      s.dev.safe = false ∧
      s.dev.sliceReady (sliceOf g) = true ∧
      s.dev.heldBack kind req = false ∧
      (d.takeEpoch (sliceOf g) req.agent req.txn).homeOutcome (sliceOf g) req ⟨false, true⟩ false false = (.here b e, d1)) ∧
    (∃ (req : HomeReq) (h : Holder) (x : DirEntry) (s : State), agentHolder req.agent = some h ∧
      let g := granuleOf req.line.toNat
      s.dev.sliceReady (sliceOf g) = true ∧
      s.dev.reservedFor (sliceOf g) req = false ∧
      s.dev.behindOlder (sliceOf g) req = false ∧
      s.dev.underRecall g h = false ∧
      s.dev.mayTake req false = true ∧
      (s.dev.trustEntry g).2 = s.dev ∧
      s.dev.entry g = some x ∧
      x.ownedBy h = true ∧
      x.holders = [h]) ∧
    (∃ (who : Holder) (granule : BitVec 36) (x : DirEntry) (s : State), (holderCode who).isSome = true ∧
      s.dev.entry granule.toNat = some x ∧
      x.state = 3 ∧
      x.holders.contains who = true ∧
      s.dev.ctEntry granule.toNat = none) ∧
    (∃ (granule : BitVec 36) (e : CtEntry) (s : State), s.dev.ctEntry granule.toNat = some e ∧
      e.kind = .integrity ∧
      e.waits = []) ∧
    (∃ (who : Holder) (line : LineNo) (s : State), s.dev.snoopOut who line.toNat = true) ∧
    (∃ (who : Holder) (line : LineNo) (s : State), s.dev.snoopOut who line.toNat = false) ∧
    (∃ (p : Fin 64) (line : LineNo) (s : State), s.dev.snoopOut (.port p) line.toNat = true ∧
      s.dev.reaches p) ∧
    (∃ (p : Fin 64) (granule : BitVec 36) (s : State), s.dev.compact = true ∧
      s.dev.unanswered (.port p) granule.toNat ≠ 0) ∧
    (∃ (n : Fin 16) (line : LineNo) (s : State), s.dev.compact = true ∧
      s.dev.unanswered (.slot n) (granuleOf line.toNat) ≠ 0) ∧
    (∃ (p : Fin 64) (line : LineNo) (s : State), s.dev.compact = false ∧
      s.dev.snoopOut (.port p) line.toNat = true ∧
      (s.dev.ctEntry (granuleOf line.toNat)).map (·.kind) ≠ some .integrity ∧
      tgetD s.dev.dir.timeouts (.port p) 0 + 1 = 8 ∧
      s.dev.mortal (.port p) = true) :=
  ⟨⟨{ ask with domain := 1 }, .port 0, 0, bound, _, _, (tweak (on [((.domStatus 8), 31, 26, 0), ((.domStatus 24), 31, 26, 0), ((.prtCfg 1), 31, 28, 2), ((.prtStatus 1), 31, 28, 5), (.keyStatus, 31, 31, 1)]) fun d => { d with dir.entries := [(0, mkEntry 0 2 (bitVector (.port 0)))], pool.hubA.sets := [(0, oneSet)], pool.hubB.sets := [(0, oneSet)], pool.blocks := ⟨[(0, bound)], [(0, bound)]⟩, pool.keys := [(1, .active 1)] }), by decide +kernel, some_of (by decide +kernel), by decide +kernel, by decide +kernel, by decide +kernel, by decide +kernel, pair_of (by decide +kernel)⟩,
    ⟨ask, .port 0, _, (tweak (on [((.domStatus 8), 31, 26, 0), ((.domStatus 24), 31, 26, 0), ((.prtCfg 0), 31, 28, 1)]) fun d => { d with dir.entries := [(0, mkEntry 0 2 (bitVector (.port 0)))], pool.windows := [(0, (0, 16, 16))] }), four (by decide +kernel) ⟨by decide +kernel, by decide +kernel, by decide +kernel, some_of (by decide +kernel), by decide +kernel⟩⟩,
    ⟨.engine 0, 0, _, (tweak (on [((.domStatus 8), 31, 26, 0), ((.domStatus 24), 31, 26, 0)]) fun d => { d with dir.entries := [(0, mkEntry 0 3 (bitVector (.engine 0)))] }), by decide +kernel, some_of (by decide +kernel), by decide +kernel⟩,
    ⟨0, _, (tweak (on [((.domStatus 8), 31, 26, 0), ((.domStatus 24), 31, 26, 0)]) fun d => { d with dir.ct := [(0, { entry with kind := .integrity })] }), some_of (by decide +kernel), by decide +kernel⟩,
    ⟨.port 0, 0, (tweak (on [((.domStatus 8), 31, 26, 0), ((.domStatus 24), 31, 26, 0)]) fun d => { d with dir.ct := [(0, { entry with waits := [⟨.port 0, 1, false, []⟩] })] }), by decide +kernel⟩,
    ⟨.port 0, 0, on [], by decide +kernel⟩,
    ⟨0, 0, (tweak (on [((.domStatus 8), 31, 26, 0), ((.domStatus 24), 31, 26, 0), ((.prtCfg 0), 31, 28, 1), ((.prtStatus 0), 31, 28, 5)]) fun d => { d with dir.ct := [(0, { entry with waits := [⟨.port 0, 1, false, []⟩] })] }), by decide +kernel, reach (by decide +kernel)⟩,
    ⟨0, 0, (tweak (on []) fun d => { d with dir.ct := [(0, { entry with waits := [⟨.port 0, 1, false, []⟩] })] }), by decide +kernel⟩,
    ⟨0, 0, (tweak (on []) fun d => { d with dir.ct := [(0, { entry with waits := [⟨.slot 0, 1, false, []⟩] })] }), by decide +kernel⟩,
    ⟨0, 0, (tweak (on [(.fabCfg, 31, 31, 1), ((.prtCfg 0), 31, 28, 1)]) fun d => { d with dir.ct := [(0, { entry with waits := [⟨.port 0, 1, false, []⟩] })], dir.timeouts := [(.port 0, 7)] }), by decide +kernel⟩⟩

/-- What the clauses of ExpanderAnswersEndTheirAccesses assume can be met. -/
theorem witness_ExpanderAnswersEndTheirAccesses :
    (∃ (op : Nat) (o : ExpOp) (v : Stored) (s : State), s.dev.sentOp op = some o ∧
      o.what = some v) ∧
    (∃ (op : Nat) (o : ExpOp) (v : Stored) (s : State), s.dev.sentOp op = some o ∧
      o.what = some v ∧
      s.dev.ctEntry (granuleOf o.line.toNat) = none) ∧
    (∃ (op : Nat) (o : ExpOp) (s : State), s.dev.sentOp op = some o ∧
      o.what.isSome = true) ∧
    (∃ (op : Nat) (o : ExpOp) (s : State), s.dev.sentOp op = some o ∧
      o.what = none) ∧
    (∃ (op : Nat) (o : ExpOp) (p : Place) (v : LineData) (poison : Bool) (e : CtEntry) (h : Fin 64) (d1 : Dev) (s : State), s.dev.sentOp op = some o ∧
      o.what = none ∧
      o.fallback = false ∧
      s.dev.place (s.dev.blockEntry (blockOfLine o.real.toNat)) o.real.toNat = some p ∧
      s.dev.memNow o.port o.addr ≠ some .poison ∧
      (s.dev.blockEntry (blockOfLine o.real.toNat)).ownerC = ~~~(s.dev.blockEntry (blockOfLine o.real.toNat)).owner ∧
      s.dev.reaches h ∧
      (((s.dev.answerTap o true false).answeredInTime o.port).dropOp op).decrypt (s.dev.blockEntry (blockOfLine o.real.toNat)).owner.toNat
      o.real.toNat (s.dev.memNow o.port o.addr) = ((v, poison), d1) ∧
      s.dev.ctEntry (granuleOf o.line.toNat) = some e ∧
      e.kind = .readShared ∧
      e.req.agent = .host h ∧
      e.req.line = o.line) ∧
    (∃ (granule : BitVec 36) (e : CtEntry) (s : State), s.dev.ctEntry granule.toNat = some e ∧
      e.done = true ∧
      e.waits = [] ∧
      s.dev.opsOf granule.toNat = false) ∧
    (∃ (granule : BitVec 36) (e : CtEntry) (s : State), s.dev.ctEntry granule.toNat = some e ∧
      e.state = .held) ∧
    (∃ (group : Fin 33) (slice : Fin 16) (r : Retried) (s : State), s.dev.reservedFree slice group = true ∧
      execIngressResend.nextResend [] (s.dev.retriedList group slice) = some r) :=
  ⟨⟨0, _, _, (tweak (on []) fun d => { d with dir.expOps := [expW] }), some_of (by decide +kernel), some_of (by decide +kernel)⟩,
    ⟨0, _, _, (tweak (on []) fun d => { d with dir.expOps := [expW] }), some_of (by decide +kernel), some_of (by decide +kernel), by decide +kernel⟩,
    ⟨0, _, (tweak (on []) fun d => { d with dir.expOps := [expW] }), some_of (by decide +kernel), by decide +kernel⟩,
    ⟨0, _, (tweak (on []) fun d => { d with dir.expOps := [expR] }), some_of (by decide +kernel), by decide +kernel⟩,
    ⟨0, _, _, _, _, { entry with state := .mem }, 0, _, (tweak (on [((.domStatus 8), 31, 26, 0), ((.domStatus 24), 31, 26, 0), ((.prtCfg 1), 31, 28, 2), ((.prtStatus 1), 31, 28, 5), (.keyStatus, 31, 31, 1), ((.prtCfg 0), 31, 28, 1), ((.prtStatus 0), 31, 28, 5)]) fun d => { d with dir.expOps := [expR], dir.ct := [(0, entry)], pool.hubA.sets := [(0, oneSet)], pool.hubB.sets := [(0, oneSet)], pool.blocks := ⟨[(0, bound)], [(0, bound)]⟩, pool.keys := [(1, .active 1)] }), some_of (by decide +kernel), by decide +kernel, by decide +kernel, some_of (by decide +kernel), by decide +kernel, rfl, reach (by decide +kernel), three_of _, by decide +kernel⟩,
    ⟨0, _, (tweak (on []) fun d => { d with dir.ct := [(0, { entry with done := true })] }), some_of (by decide +kernel), by decide +kernel⟩,
    ⟨0, _, (tweak (on []) fun d => { d with dir.ct := [(0, { entry with state := .held })] }), some_of (by decide +kernel), by decide +kernel⟩,
    ⟨0, 0, _, (tweak (on []) fun d => { d with dir.retried := [((0, 0), [⟨.readShared, ask, false, []⟩])] }), by decide +kernel, some_of (by decide +kernel)⟩⟩

/-- What the clauses of RequestsEnterTowardsTheirHome assume can be met. -/
theorem witness_RequestsEnterTowardsTheirHome :
    (∃ (p : Fin 64) (dpa : Nat) (op : HostOp) (line : Nat) (dom : Nat) (sh : Nat) (d1 : Dev) (s : State), s.dev.portMode p = 1 ∧
      s.dev.portState p = 5 ∧
      s.dev.safe = false ∧
      s.dev.translate p.val dpa = (some (line, dom), d1) ∧
      s.dev.takeCells (.port p) .req (if opWrites op then 1 else 0) 1 = some sh) ∧
    (∃ (p : Fin 64) (dpa : Nat) (d1 : Dev) (s : State), s.dev.portMode p = 1 ∧
      s.dev.portState p = 5 ∧
      s.dev.safe = false ∧
      s.dev.translate p.val dpa = (none, d1)) ∧
    (∃ (host : Fin 64) (p : Fin 64) (credit : Nat) (length : Nat) (sh : Nat) (s : State), s.dev.portMode host = 1 ∧
      s.dev.portState host = 5 ∧
      s.dev.portMode p = 3 ∧
      s.dev.rd (.prtCfg p) 17 12 = host.val ∧
      4 ≤ s.dev.portState p ∧
      s.dev.portState p ≤ 6 ∧
      s.dev.takeCells (.port host) .req credit (ceilDiv length 128) = some sh) ∧
    (∃ (req : HomeReq) (s : State), (s.dev.blockEntry (blockOfLine req.line.toNat)).remote = true ∧
      (s.dev.blockEntry (blockOfLine req.line.toNat)).coherent = true) ∧
    (∃ (v : BitVec 32) (s : State), 10 ≤ v.toNat % 2 ^ 20 ∧
      v.toNat % 2 ^ 20 ≤ 1000000 ∧
      s.dev.rd .ageLimit 16 0 < v.toNat % 2 ^ 20) ∧
    (∃ (v : BitVec 32) (s : State), (v.toNat % 2 ^ 20 < 10 ∨ 1000000 < v.toNat % 2 ^ 20 ∨
    v.toNat % 2 ^ 20 ≤ s.dev.rd .ageLimit 16 0)) :=
  ⟨⟨0, 0, .memRdS, _, _, _, _, (tweak (on [((.prtCfg 0), 31, 28, 1), ((.prtStatus 0), 31, 28, 5)]) fun d => { d with pool.windows := [(0, (0, 16, 0))], pool.slots := ⟨[(0, mkSlot true 0 1)], [(0, mkSlot true 0 1)]⟩ }), by decide +kernel, by decide +kernel, by decide +kernel, pair_some_pair (by decide +kernel), some_of (by decide +kernel)⟩,
    ⟨0, 0, _, (on [((.prtCfg 0), 31, 28, 1), ((.prtStatus 0), 31, 28, 5)]), by decide +kernel, by decide +kernel, by decide +kernel, pair_of (by decide +kernel)⟩,
    ⟨0, 1, 0, 0, 0, (on [((.prtCfg 0), 31, 28, 1), ((.prtStatus 0), 31, 28, 5), ((.prtCfg 1), 31, 28, 3), ((.prtStatus 1), 31, 28, 5)]), by decide +kernel⟩,
    ⟨ask, (tweak (on []) fun d => { d with pool.blocks := ⟨[(0, { bound with remote := true })], [(0, { bound with remote := true })]⟩ }), by decide +kernel⟩,
    ⟨100, (on [(.ageLimit, 16, 0, 50)]), by decide +kernel⟩,
    ⟨0, on [], by decide +kernel⟩⟩

/-- What the clauses of ProxiesAnswerAndDeathsAreDeclared assume can be met. -/
theorem witness_ProxiesAnswerAndDeathsAreDeclared :
    (∃ (kind : Fin 3) (line : LineNo) (s : State), s.dev.entry (granuleOf line.toNat) = none ∧
      tget s.dev.dir.victims (granuleOf line.toNat) = none ∧
      (s.dev.ctEntry (granuleOf line.toNat)).map (·.kind) ≠ some .integrity ∧
      kind.val ≠ 2) ∧
    (∃ (line : LineNo) (x : DirEntry) (p : Fin 64) (s : State), s.dev.entry (granuleOf line.toNat) = some x ∧
      x.holders = [.port p] ∧
      tget s.dev.dir.victims (granuleOf line.toNat) = none ∧
      s.dev.trustEntry (granuleOf line.toNat) = (true, s.dev) ∧
      s.dev.reaches p) ∧
    (∃ (words : List Word) (x : ProxyOut) (s : State), tget s.dev.dir.proxyOut (msgTag words) = some x ∧
      msgOp words = 0x25) ∧
    (∃ (words : List Word) (x : ProxyOut) (h : Fin 64) (s : State), tget s.dev.dir.proxyOut (msgTag words) = some x ∧
      msgOp words = 0x21 ∧
      x.kind = .write ∧
      x.reply = true ∧
      x.req.agent = .host h ∧
      s.dev.reaches h) ∧
    (∃ (words : List Word) (x : ProxyOut) (h : Fin 64) (s : State), tget s.dev.dir.proxyOut (msgTag words) = some x ∧
      msgOp words = 0x20 ∧
      x.kind = .readCurrent ∧
      x.req.agent = .host h ∧
      (s.dev.blockEntry (blockOfGranule (granuleOf x.req.line.toNat))).coherent = false ∧
      s.dev.reaches h) ∧
    (∃ (granule : BitVec 36) (v : Victim) (s : State), tget s.dev.dir.victims granule.toNat = some v ∧
      v.waits = [] ∧
      s.dev.opsOf granule.toNat = false ∧
      (s.dev.blockEntry v.block).remote = false) ∧
    (∃ (p : Fin 64) (s : State), s.dev.mortal (.port p) = true) ∧
    (∃ (n : Fin 16) (s : State), s.dev.mortal (.slot n) = true) ∧
    (∃ (who : Holder) (s : State), s.dev.mortal who = false) ∧
    (∃ (who : Holder) (slice : Fin 16) (cause : Nat) (left : List Nat) (s : State), tget s.dev.dir.sweeps who = some (cause, left) ∧
      left.contains slice.val = true ∧
      s.dev.sliceReady slice = true ∧
      s.dev.reclaimList who slice = [] ∧
      s.dev.orphans who slice = []) ∧
    (∃ (who : Holder) (slice : Fin 16) (cause : Nat) (left : List Nat) (s : State), tget s.dev.dir.sweeps who = some (cause, left) ∧
      left.contains slice.val = true ∧
      s.dev.sliceReady slice = true ∧
      (s.dev.reclaimSlice who cause slice).reclaimed who slice = false) :=
  ⟨⟨0, 0, on [], by decide +kernel⟩,
    ⟨0, _, 0, (tweak (on [((.domStatus 8), 31, 26, 0), ((.domStatus 24), 31, 26, 0), ((.prtStatus 0), 15, 14, 3), ((.prtCfg 0), 31, 28, 1), ((.prtStatus 0), 31, 28, 5)]) fun d => { d with dir.entries := [(0, mkEntry 0 1 (bitVector (.port 0)))], pool.windows := [(0, (0, 16, 16))] }), some_of (by decide +kernel), by decide +kernel, by decide +kernel, by decide +kernel, reach (by decide +kernel)⟩,
    ⟨[BitVec.ofNat 64 (0x25 * 2 ^ 58)], _, (tweak (on []) fun d => { d with dir.proxyOut := [(0, ⟨.write, ask, true, false⟩)] }), some_of (by decide +kernel), by decide +kernel⟩,
    ⟨[BitVec.ofNat 64 (0x21 * 2 ^ 58)], _, 0, (tweak (on [((.prtCfg 0), 31, 28, 1), ((.prtStatus 0), 31, 28, 5)]) fun d => { d with dir.proxyOut := [(0, ⟨.write, ask, true, false⟩)] }), some_of (by decide +kernel), by decide +kernel, by decide +kernel, by decide +kernel, by decide +kernel, reach (by decide +kernel)⟩,
    ⟨[BitVec.ofNat 64 (0x20 * 2 ^ 58)], _, 0, (tweak (on [((.prtCfg 0), 31, 28, 1), ((.prtStatus 0), 31, 28, 5)]) fun d => { d with dir.proxyOut := [(0, ⟨.readCurrent, ask, true, false⟩)] }), some_of (by decide +kernel), by decide +kernel, by decide +kernel, by decide +kernel, by decide +kernel, reach (by decide +kernel)⟩,
    ⟨0, _, (tweak (on []) fun d => { d with dir.victims := [(0, ⟨0, false, 0, [], []⟩)] }), some_of (by decide +kernel), by decide +kernel⟩,
    ⟨0, (on [((.prtCfg 0), 31, 28, 1)]), by decide +kernel⟩,
    ⟨0, (on [((.nbr 0), 63, 60, 13)]), by decide +kernel⟩,
    ⟨.port 0, on [], by decide +kernel⟩,
    ⟨.port 0, 0, 0, [0], (tweak (on [((.domStatus 8), 31, 26, 0), ((.domStatus 24), 31, 26, 0)]) fun d => { d with dir.sweeps := [(.port 0, (0, [0]))] }), by decide +kernel⟩,
    ⟨.slot 0, 0, 0, [0], (tweak (on [((.domStatus 8), 31, 26, 0), ((.domStatus 24), 31, 26, 0), ((.nbr 0), 63, 60, 13), ((.nbr 0), 42, 32, 5)]) fun d => { d with dir.sweeps := [(.slot 0, (0, [0]))], dir.entries := [(0, mkEntry 0 1 (bitVector (.port 0)))], pool.blocks := ⟨[(0, { bound with remote := true, homeDev := 5 })], [(0, { bound with remote := true, homeDev := 5 })]⟩ }), by decide +kernel⟩⟩

/-- What the clauses of MessagesEnterAndLeaveTheBuffer assume can be met. -/
theorem witness_MessagesEnterAndLeaveTheBuffer :
    (∃ (entity : Entity) (dest : Egress) (cls : MsgClass) (credit : Nat) (length : Nat) (sh : Nat) (s : State), s.dev.sends entity = true ∧
      s.dev.mayCross entity dest = true ∧
      s.dev.takesMessages dest = true ∧
      s.dev.takeCells entity cls credit (ceilDiv length 128) = some sh) ∧
    (∃ (entity : Entity) (dest : Egress) (s : State), s.dev.sends entity = true ∧
      s.dev.mayCross entity dest = true ∧
      s.dev.takesMessages dest = false) ∧
    (∃ (egress : Egress) (credits : List (Fin 4 × Nat)) (c : MsgClass) (m : Msg) (s : State), (∀ t, egress ≠ .home t) ∧
      s.dev.safe = false ∧
      let d := if classes.any fun c => s.dev.guarded egress c && (s.dev.sw.msgs.any fun m => decide (m.dest = egress ∧ m.cls = c))
      then s.dev.countEgress egress 0x1038 else s.dev
    d.winner egress (d.contenders egress credits) = some (c, m)) ∧
    (∃ (p : Fin 64) (credits : List (Fin 4 × Nat)) (m : Msg) (s : State), s.dev.safe = false ∧
      s.dev.sw.msgs = [m] ∧
      m.dest = .port p ∧
      m.destC = ~~~(BitVec.ofNat 8 p.val) ∧
      s.dev.gateAllows (.port p) m.cls = true ∧
      (⟨classCode m.cls % 4, by omega⟩, m.credit) ∈ credits ∧
      (∀ op, m.kind ≠ .homeRead op ∧ m.kind ≠ .homeWrite op) ∧
      s.dev.sw.blocked = [] ∧
      s.dev.sw.leaving = none) ∧
    (∃ (id : Nat) (m : Msg) (s : State), s.dev.sw.msgs.find? (fun m => decide (m.id = id)) = some m) ∧
    (∃ (id : Nat) (m : Msg) (a : Agent) (s : State), s.dev.sw.msgs.find? (fun m => decide (m.id = id)) = some m ∧
      m.born + 1000 * s.dev.rd .ageLimit 16 0 ≤ s.dev.now ∧
      m.kind = .agentAccess a) ∧
    (∃ (v : BitVec 32) (s : State), 1 ≤ v.toNat % 2 ^ 17 ∧
      v.toNat % 2 ^ 17 ≤ 100000 ∧
      (∀ t < 16, v.toNat % 2 ^ 17 < s.dev.rd (.dirBiTimeout t) 19 0)) ∧
    (∃ (v : BitVec 32), (v.toNat % 2 ^ 17 = 0 ∨ 100000 < v.toNat % 2 ^ 17)) ∧
    (∃ (id : Nat) (m : Msg) (p : Fin 64) (green : Bool) (d1 : Dev) (s : State), s.dev.sw.msgs.find? (fun m => decide (m.id = id) && m.held) = some m ∧
      m.entity = .port p ∧
      s.dev.passShaper p = (some green, d1)) ∧
    (∃ (q : Fin 4) (s : State), s.dev.quartersIn = 15 ∧
      s.dev.sw.leaving = none ∧
      s.dev.holdsDescriptors q = false ∧
      s.dev.domState (domHub q) ≤ 1 ∧
      (∃ m ∈ s.dev.sw.msgs, m.quarters.getLsbD q = true)) ∧
    (∃ (q : Fin 4) (s : State), s.dev.quartersIn = 15 ∧
      s.dev.sw.leaving = none ∧
      s.dev.holdsDescriptors q = false ∧
      s.dev.domState (domHub q) ≤ 1 ∧
      (∀ m ∈ s.dev.holding, m.quarters.getLsbD q = false)) :=
  ⟨⟨.port 0, .home 0, .req, 0, 128, _, (on [((.prtStatus 0), 31, 28, 5)]), by decide +kernel, by decide +kernel, by decide +kernel, some_of (by decide +kernel)⟩,
    ⟨.tambour 0, .port 0, on [], by decide +kernel⟩,
    ⟨.port 0, [(0, 0)], .req, cell, (tweak (on []) fun d => { d with sw.msgs := [cell] }), fun _ h => (by cases h), by decide +kernel⟩,
    ⟨0, [(0, 0)], cell, (tweak (on []) fun d => { d with sw.msgs := [cell] }), four (by decide +kernel) ⟨by decide +kernel, by decide +kernel, fun _ => ⟨fun h => (by cases h), fun h => (by cases h)⟩, by decide +kernel⟩⟩,
    ⟨0, _, (tweak (on []) fun d => { d with sw.msgs := [cell] }), some_of (by decide +kernel)⟩,
    ⟨0, _, .host 0, (tweak (on [(.ageLimit, 16, 0, 0)]) fun d => { d with sw.msgs := [{ cell with kind := .agentAccess (.host 0) }] }), some_of (by decide +kernel), by decide +kernel⟩,
    ⟨100, on [], by decide +kernel⟩,
    ⟨0, by decide +kernel⟩,
    ⟨0, _, 0, _, _, (tweak (on []) fun d => { d with sw.msgs := [{ cell with held := true }] }), some_of (by decide +kernel), by decide +kernel, pair_some_of (by decide +kernel)⟩,
    ⟨0, (tweak (on [((.domStatus 4), 31, 26, 0)]) fun d => { d with sw.msgs := [cell] }), by decide +kernel⟩,
    ⟨0, (tweak (on [((.domStatus 4), 31, 26, 0)]) fun d => { d with sw.msgs := [] }), by decide +kernel⟩⟩

/-- What the clauses of GatesSwapAndMirrorSessionsSend assume can be met. -/
theorem witness_GatesSwapAndMirrorSessionsSend :
    (∃ (egress : Egress) (s : State), s.dev.bitOf (gclCtl egress) 31 = true) ∧
    (∃ (egress : Egress) (s : State), s.dev.bitOf (gclCtl egress) 31 = true ∧
      s.dev.bitOf (gclCtl egress) 30 = false) ∧
    (∃ (egress : Egress) (s : State), s.dev.bitOf (gclCtl egress) 31 = true ∧
      s.dev.bitOf (gclCtl egress) 30 = true) ∧
    (∃ (egress : Egress) (s : State), (∀ t, egress ≠ .home t) ∧
      s.dev.bankOk egress = false) ∧
    (∃ (egress : Egress) (s : State), (∀ t, egress ≠ .home t) ∧
      s.dev.bankOk egress = true ∧
      s.dev.bitOf (gclCtl egress) 31 = true) ∧
    (∃ (egress : Egress) (s : State), (∀ t, egress ≠ .home t) ∧
      s.dev.bankOk egress = true ∧
      s.dev.bitOf (gclCtl egress) 31 = false) ∧
    (∃ (session : Fin 16) (v : BitVec 32) (s : State), (v.getLsbD 31 = false ∨ (s.dev.linkState session = 5 ∧ s.dev.sec.otp.lifecycle ≠ 2))) ∧
    (∃ (session : Fin 16) (v : BitVec 32) (s : State), v.getLsbD 31 = true ∧
      (s.dev.linkState session ≠ 5 ∨ s.dev.sec.otp.lifecycle = 2)) ∧
    (∃ (session : Fin 16) (r : MirrorRec) (rest : List MirrorRec) (s : State), (s.dev.session session).queue = r :: rest) ∧
    (∃ (session : Fin 16) (r : MirrorRec) (rest : List MirrorRec) (s : State), (s.dev.session session).queue = r :: rest ∧
      s.dev.linkState session = 5) :=
  ⟨⟨.port 0, (on [((.prtGclCtl 0), 31, 31, 1)]), by decide +kernel⟩,
    ⟨.port 0, (on [((.prtGclCtl 0), 31, 31, 1)]), by decide +kernel⟩,
    ⟨.port 0, (on [((.prtGclCtl 0), 31, 30, 3)]), by decide +kernel⟩,
    ⟨.port 0, (on [((.prtGclEntry 0 1 0), 27, 0, 0), ((.prtGclEntry 0 1 1), 27, 0, 0), ((.prtGclEntry 0 0 0), 27, 0, 0)]), fun _ h => (by cases h), by decide +kernel⟩,
    ⟨.port 0, (on [((.prtGclCtl 0), 31, 31, 1)]), fun _ h => (by cases h), by decide +kernel⟩,
    ⟨.port 0, on [], by decide +kernel⟩,
    ⟨0, 0, on [], by decide +kernel⟩,
    ⟨0, 0x80000000, on [], by decide +kernel⟩,
    ⟨0, ⟨0, 0, 0, 0, 0, 0, 0, []⟩, [], (tweak (on []) fun d => { d with sw.sessions := [(0, ⟨[⟨0, 0, 0, 0, 0, 0, 0, []⟩], 0, 0⟩)] }), by decide +kernel⟩,
    ⟨0, ⟨0, 0, 0, 0, 0, 0, 0, []⟩, [], (tweak (on [((.stlStatus 0), 31, 28, 5)]) fun d => { d with sw.sessions := [(0, ⟨[⟨0, 0, 0, 0, 0, 0, 0, []⟩], 0, 0⟩)] }), by decide +kernel⟩⟩

/-- What the clauses of RingsEnableSampleAndFetch assume can be met. -/
theorem witness_RingsEnableSampleAndFetch :
    (∃ (p : Fin 64) (index : Fin 256) (ring : Fin 64) (sl : SliceRec) (c : List Byte) (d1 : Dev) (s : State), s.dev.atRest ∧
      s.dev.sliceAt p index = some sl ∧
      ring.val < sl.ringCount ∧
      s.dev.ringState sl ring = 0 ∧
      (s.dev.wr (.ring sl.port sl.index ring .status) 24 17 0).sliceRead sl sl.regionsNow sl.agent
      ((s.dev.wr (.ring sl.port sl.index ring .status) 24 17 0).ringReg sl ring .ctx) 64 = (.ok c, d1) ∧
      sl.contextOk c = true ∧
      d1.made ∧
      (∃ e ∈ sl.sharedEngines, d1.engineRuns e.1 (serviceImage (ringOf c).service) = true)) ∧
    (∃ (p : Fin 64) (index : Fin 256) (ring : Fin 64) (sl : SliceRec) (c : List Byte) (d1 : Dev) (s : State), s.dev.atRest ∧
      s.dev.sliceAt p index = some sl ∧
      ring.val < sl.ringCount ∧
      s.dev.ringState sl ring = 0 ∧
      (s.dev.wr (.ring sl.port sl.index ring .status) 24 17 0).sliceRead sl sl.regionsNow sl.agent
      ((s.dev.wr (.ring sl.port sl.index ring .status) 24 17 0).ringReg sl ring .ctx) 64 = (.ok c, d1) ∧
      sl.contextOk c = false ∧
      d1.made) ∧
    (∃ (p : Fin 64) (index : Fin 256) (ring : Fin 64) (sl : SliceRec) (st : Nat) (d1 : Dev) (s : State), s.dev.atRest ∧
      s.dev.sliceAt p index = some sl ∧
      ring.val < sl.ringCount ∧
      s.dev.ringState sl ring = 0 ∧
      (s.dev.wr (.ring sl.port sl.index ring .status) 24 17 0).sliceRead sl sl.regionsNow sl.agent
      ((s.dev.wr (.ring sl.port sl.index ring .status) 24 17 0).ringReg sl ring .ctx) 64 = (.error st, d1) ∧
      d1.made) ∧
    (∃ (p : Fin 64) (index : Fin 256) (ring : Fin 64) (sl : SliceRec) (x : RingRun) (s : State), s.dev.sliceAt p index = some sl ∧
      ring.val < sl.quota.rings.length ∧
      (s.dev.ringState sl ring = 1 ∨ s.dev.ringState sl ring = 2 ∨ s.dev.ringState sl ring = 4) ∧
      s.dev.ringRun sl ring = some x ∧
      x.ops ≠ []) ∧
    (∃ (p : Fin 64) (index : Fin 256) (ring : Fin 64) (sl : SliceRec) (x : RingRun) (s : State), s.dev.sliceAt p index = some sl ∧
      ring.val < sl.quota.rings.length ∧
      (s.dev.ringState sl ring = 1 ∨ s.dev.ringState sl ring = 2 ∨ s.dev.ringState sl ring = 4) ∧
      s.dev.ringRun sl ring = some x ∧
      x.ops = []) ∧
    (∃ (slice : Fin 4096) (ring : Fin 64) (sl : SliceRec) (x : RingRun) (s : State), s.dev.sliceRec slice = some sl ∧
      s.dev.ringRun sl ring = some x ∧
      x.notify = false ∧
      (s.dev.ringState sl ring = 1 ∨ s.dev.ringState sl ring = 2) ∧
      gap (s.dev.ringReg sl ring .sqPi) (s.dev.ringReg sl ring .sqCi) ≤ 2 ^ x.sqLog2) ∧
    (∃ (slice : Fin 4096) (ring : Fin 64) (sl : SliceRec) (x : RingRun) (s : State), s.dev.sliceRec slice = some sl ∧
      s.dev.ringRun sl ring = some x ∧
      x.notify = false ∧
      (s.dev.ringState sl ring = 1 ∨ s.dev.ringState sl ring = 2) ∧
      2 ^ x.sqLog2 < gap (s.dev.ringReg sl ring .sqPi) (s.dev.ringReg sl ring .sqCi)) ∧
    (∃ (slice : Fin 4096) (ring : Fin 64) (sl : SliceRec) (x : RingRun) (b : List Byte) (d1 : Dev) (s : State), s.dev.atRest ∧
      s.dev.sliceRec slice = some sl ∧
      s.dev.ringRun sl ring = some x ∧
      s.dev.safe = false ∧
      (s.dev.ringState sl ring = 1 ∨ s.dev.ringState sl ring = 2) ∧
      s.dev.ringReg sl ring .sqCi ≠ x.sampled ∧
      gap (s.dev.ringReg sl ring .sqCi) (s.dev.ringReg sl ring .cqCi) < 2 ^ x.cqLog2 ∧
      s.dev.sliceRead sl sl.quota.regions sl.agent (x.sqBase + s.dev.ringReg sl ring .sqCi % 2 ^ x.sqLog2 * 64) 64 = (.ok b, d1) ∧
      d1.made) ∧
    (∃ (slice : Fin 4096) (ring : Fin 64) (sl : SliceRec) (x : RingRun) (o : RingOp) (rest : List RingOp) (s : State), s.dev.sliceRec slice = some sl ∧
      s.dev.ringRun sl ring = some x ∧
      x.ops = o :: rest ∧
      s.dev.safe = false ∧
      o.stage = .fenced ∧
      x.done = []) ∧
    (∃ (p : Fin 64) (index : Fin 256) (ring : Fin 64) (v : BitVec 32) (sl : SliceRec) (s : State), s.dev.sliceAt p index = some sl ∧
      ring.val < sl.quota.rings.length ∧
      s.dev.ringState sl ring ≠ 0 ∧
      gap v.toNat (s.dev.ringReg sl ring .cqCi) ≤ gap (s.dev.ringReg sl ring .cqPi) (s.dev.ringReg sl ring .cqCi)) ∧
    (∃ (p : Fin 64) (index : Fin 256) (ring : Fin 64) (v : BitVec 32) (sl : SliceRec) (s : State), s.dev.sliceAt p index = some sl ∧
      ring.val < sl.quota.rings.length ∧
      s.dev.ringState sl ring ≠ 0 ∧
      gap (s.dev.ringReg sl ring .cqPi) (s.dev.ringReg sl ring .cqCi) < gap v.toNat (s.dev.ringReg sl ring .cqCi)) ∧
    (∃ (p : Fin 64) (index : Fin 256) (ring : Fin 64) (sl : SliceRec) (s : State), s.dev.sliceAt p index = some sl ∧
      s.dev.ringState sl ring = 0) :=
  ⟨⟨0, 1, 0, slice0, _, _, (served [((.ring 0 1 0 .ctx), 63, 0, 0)] .lookup [] [(0, fields [(8, 4096), (24, 6), (25, 6), (26, 1), (28, 1)])]), rest (by decide +kernel), by decide +kernel, by decide +kernel, by decide +kernel, good_of (by decide +kernel), by decide +kernel, done (by decide +kernel), by decide +kernel⟩,
    ⟨0, 1, 0, slice0, _, _, (served [((.ring 0 1 0 .ctx), 63, 0, 0)] .lookup [] [(0, 0)]), rest (by decide +kernel), by decide +kernel, by decide +kernel, by decide +kernel, good_of (by decide +kernel), by decide +kernel, done (by decide +kernel)⟩,
    ⟨0, 1, 0, _, _, _, (served [((.ring 0 1 0 .ctx), 63, 0, 0x1000000)] .lookup [] []), rest (by decide +kernel), some_of (by decide +kernel), by decide +kernel, by decide +kernel, failed_of (by decide +kernel), done (by decide +kernel)⟩,
    ⟨0, 1, 0, _, _, (served [((.ring 0 1 0 .status), 31, 29, 1)] .lookup [ring0 1 [op0 []]] []), some_of (by decide +kernel), by decide +kernel, by decide +kernel, some_of (by decide +kernel), by decide +kernel⟩,
    ⟨0, 1, 0, _, _, (served [((.ring 0 1 0 .status), 31, 29, 1)] .lookup [ring0 1 []] []), some_of (by decide +kernel), by decide +kernel, by decide +kernel, some_of (by decide +kernel), by decide +kernel⟩,
    ⟨0, 0, _, _, (served [((.ring 0 1 0 .status), 31, 29, 1)] .lookup [ring0 1 []] []), some_of (by decide +kernel), some_of (by decide +kernel), by decide +kernel⟩,
    ⟨0, 0, _, _, (served [((.ring 0 1 0 .status), 31, 29, 1), ((.ring 0 1 0 .sqPi), 31, 0, 65)] .lookup [ring0 1 []] []), some_of (by decide +kernel), some_of (by decide +kernel), by decide +kernel⟩,
    ⟨0, 0, _, _, _, _, (served [((.ring 0 1 0 .status), 31, 29, 1)] .lookup [{ ring0 1 [] with sampled := 1 }] [(0, 0)]), rest (by decide +kernel), some_of (by decide +kernel), some_of (by decide +kernel), by decide +kernel, by decide +kernel, by decide +kernel, by decide +kernel, good_of (by decide +kernel), done (by decide +kernel)⟩,
    ⟨0, 0, _, _, { op0 [] with stage := .fenced }, [], (served [((.ring 0 1 0 .status), 31, 29, 1)] .lookup [ring0 1 [{ op0 [] with stage := .fenced }]] []), some_of (by decide +kernel), some_of (by decide +kernel), by decide +kernel⟩,
    ⟨0, 1, 0, 0, _, (served [((.ring 0 1 0 .status), 31, 29, 1)] .lookup [ring0 1 []] []), some_of (by decide +kernel), by decide +kernel⟩,
    ⟨0, 1, 0, 1, _, (served [((.ring 0 1 0 .status), 31, 29, 1)] .lookup [ring0 1 []] []), some_of (by decide +kernel), by decide +kernel⟩,
    ⟨0, 1, 0, _, (served [] .lookup [] []), some_of (by decide +kernel), by decide +kernel⟩⟩

/-- What the clauses of CompletionsAreWrittenAndPassed assume can be met. -/
theorem witness_CompletionsAreWrittenAndPassed :
    (∃ (slice : Fin 4096) (ring : Fin 64) (index : BitVec 32) (sl : SliceRec) (x : RingRun) (o : RingOp) (e : Nat) (d' : Dev) (s : State), s.dev.starts slice ring index.toNat 0 [1, 2] sl x o e d' ∧
      field o.entry 4 60 = 0 ∧
      x.service = 2) ∧
    (∃ (slice : Fin 4096) (ring : Fin 64) (index : BitVec 32) (sl : SliceRec) (x : RingRun) (o : RingOp) (e : Nat) (d' : Dev) (s : State), s.dev.starts slice ring index.toNat 0 [1, 2] sl x o e d' ∧
      field o.entry 4 60 = 0 ∧
      x.service = 1) ∧
    (∃ (slice : Fin 4096) (ring : Fin 64) (index : BitVec 32) (sl : SliceRec) (x : RingRun) (o : RingOp) (e : Nat) (d' : Dev) (s : State), s.dev.starts slice ring index.toNat 0 [1, 2] sl x o e d' ∧
      field o.entry 4 60 ≠ 0) ∧
    (∃ (slice : Fin 4096) (ring : Fin 64) (index : BitVec 32) (sl : SliceRec) (x : RingRun) (o : RingOp) (s : State), s.dev.sliceRec slice = some sl ∧
      s.dev.ringRun sl ring = some x ∧
      x.find index.toNat = some o ∧
      o.stage = .ended) ∧
    (∃ (slice : Fin 4096) (ring : Fin 64) (index : BitVec 32) (sl : SliceRec) (x : RingRun) (o : RingOp) (s : State), s.dev.sliceRec slice = some sl ∧
      s.dev.ringRun sl ring = some x ∧
      x.find index.toNat = some o ∧
      o.stage = .waiting ∧
      serves x.service o.opcode = false ∧
      x.mayStart o = true) ∧
    (∃ (slice : Fin 4096) (ring : Fin 64) (index : BitVec 32) (sl : SliceRec) (x : RingRun) (o : RingOp) (slot : Nat) (d1 : Dev) (s : State), s.dev.noTurn ∧
      s.dev.writtenOp slice ring index.toNat = some (sl, x, o, slot) ∧
      s.dev.sliceWrite sl (sl.regionsFor o) sl.agent (x.cqBase + slot % 2 ^ x.cqLog2 * 32) (completionBytes o) = (0, d1)) ∧
    (∃ (slice : Fin 4096) (ring : Fin 64) (index : BitVec 32) (sl : SliceRec) (x : RingRun) (o : RingOp) (slot : Nat) (d1 : Dev) (s : State), s.dev.atRest ∧
      s.dev.writtenOp slice ring index.toNat = some (sl, x, o, slot) ∧
      x.done = [] ∧
      x.shadow = 0 ∧
      o.notify = false ∧
      s.dev.sliceWrite sl (sl.regionsFor o) sl.agent (x.cqBase + slot % 2 ^ x.cqLog2 * 32) (completionBytes o) = (0, d1) ∧
      d1.made ∧
      d1.ringRun sl ring = some x ∧
      d1.ringReg sl ring .cqPi = slot ∧
      d1.ringState sl ring = 1) ∧
    (∃ (slice : Fin 4096) (ring : Fin 64) (index : BitVec 32) (sl : SliceRec) (x : RingRun) (o : RingOp) (slot : Nat) (s : State), s.dev.atRest ∧
      s.dev.writtenOp slice ring index.toNat = some (sl, x, o, slot) ∧
      s.dev.ringState sl ring ≠ 3 ∧
      x.done = [] ∧
      x.msixEn = false) :=
  ⟨⟨0, 0, 0, slice0, ring0 2 [op0 []], op0 [], 0, _, (served [] .queue [ring0 2 [op0 []]] []), starts_of (by decide +kernel), by decide +kernel⟩,
    ⟨0, 0, 0, slice0, ring0 1 [op0 []], op0 [], 0, _, (served [] .lookup [ring0 1 [op0 []]] []), starts_of (by decide +kernel), by decide +kernel⟩,
    ⟨0, 0, 0, slice0, ring0 1 [op0 [(4, 1)]], op0 [(4, 1)], 0, _, (served [] .lookup [ring0 1 [op0 [(4, 1)]]] []), starts_of (by decide +kernel), by decide +kernel⟩,
    ⟨0, 0, 0, _, _, _, (served [((.ring 0 1 0 .status), 31, 29, 1)] .lookup [ring0 1 [{ op0 [] with stage := .ended }]] []), some_of (by decide +kernel), some_of (by decide +kernel), some_of (by decide +kernel), by decide +kernel⟩,
    ⟨0, 0, 0, _, _, _, (served [((.ring 0 1 0 .status), 31, 29, 1)] .lookup [ring0 1 [op0 [(0, 0x10)]]] []), some_of (by decide +kernel), some_of (by decide +kernel), some_of (by decide +kernel), by decide +kernel⟩,
    ⟨0, 0, 0, slice0, ring0 1 [{ op0 [] with stage := .written 0 }], { op0 [] with stage := .written 0 }, 0, _, (served [((.ring 0 1 0 .status), 31, 29, 1)] .lookup [ring0 1 [{ op0 [] with stage := .written 0 }]] [(64, 0)]), turn (by decide +kernel), by decide +kernel, pair_of (by decide +kernel)⟩,
    ⟨0, 0, 0, slice0, ring0 1 [{ op0 [] with stage := .written 0 }], { op0 [] with stage := .written 0 }, 0, _, (served [(.domStatus 12, 31, 26, 0), (.domStatus 28, 31, 26, 0), ((.ring 0 1 0 .status), 31, 29, 1)] .lookup [ring0 1 [{ op0 [] with stage := .written 0 }]] [(64, 0)]), rest (by decide +kernel), by decide +kernel, by decide +kernel, by decide +kernel, by decide +kernel, pair_of (by decide +kernel), done (by decide +kernel), by decide +kernel⟩,
    ⟨0, 0, 0, slice0, ring0 1 [{ op0 [] with stage := .written 0 }], { op0 [] with stage := .written 0 }, 0, (served [((.ring 0 1 0 .status), 31, 29, 1)] .lookup [ring0 1 [{ op0 [] with stage := .written 0 }]] [(64, 0)]), rest (by decide +kernel), by decide +kernel⟩⟩

/-- What the clauses of LookupsAnswerWithTheTablesEntry assume can be met. -/
theorem witness_LookupsAnswerWithTheTablesEntry :
    (∃ (slice : Fin 4096) (ring : Fin 64) (index : BitVec 32) (sl : SliceRec) (x : RingRun) (o : RingOp) (e : Nat) (v : Nat) (h : Header) (d' : Dev) (d1 : Dev) (d2 : Dev) (res : Except Nat (Option (Nat × List Byte))) (s : State), s.dev.noTurn ∧
      s.dev.starts slice ring index.toNat 1 [1] sl x o e d' ∧
      field o.entry 4 4 = 0 ∧
      field o.entry 8 8 % 64 = 0 ∧
      let c : LookupCtx := ⟨sl, sl.regionsFor o, engineAgent e⟩
      d'.readTable c (field o.entry 8 8) = ((some v, .ok h), d1) ∧
      h.emOk = true ∧
      h.keyLen ≤ 48 ∧
      d1.emLookup c h (Machine.slice o.entry 16 h.keyLen) = (res, d2)) ∧
    (∃ (slice : Fin 4096) (ring : Fin 64) (index : BitVec 32) (sl : SliceRec) (x : RingRun) (o : RingOp) (e : Nat) (v : Nat) (h : Header) (key : List Byte) (d' : Dev) (d1 : Dev) (d2 : Dev) (d3 : Dev) (res : Except Nat (Option (Nat × List Byte))) (s : State), s.dev.noTurn ∧
      s.dev.starts slice ring index.toNat 1 [1] sl x o e d' ∧
      field o.entry 4 4 = 0 ∧
      field o.entry 8 8 % 64 = 0 ∧
      let c : LookupCtx := ⟨sl, sl.regionsFor o, engineAgent e⟩
      d'.readTable c (field o.entry 8 8) = ((some v, .ok h), d1) ∧
      h.emOk = true ∧
      48 < h.keyLen ∧
      field o.entry 24 40 = 0 ∧
      field o.entry 16 8 % 64 = 0 ∧
      d1.lread c (field o.entry 16 8) h.keyLen = (.ok key, d2) ∧
      d2.emLookup c h key = (res, d3)) ∧
    (∃ (slice : Fin 4096) (ring : Fin 64) (index : BitVec 32) (sl : SliceRec) (x : RingRun) (o : RingOp) (e : Nat) (d' : Dev) (s : State), s.dev.atRest ∧
      s.dev.starts slice ring index.toNat 1 [1] sl x o e d' ∧
      field o.entry 4 4 ≠ 0) ∧
    (∃ (slice : Fin 4096) (ring : Fin 64) (index : BitVec 32) (sl : SliceRec) (x : RingRun) (o : RingOp) (e : Nat) (d' : Dev) (s : State), s.dev.atRest ∧
      s.dev.starts slice ring index.toNat 1 [1] sl x o e d' ∧
      field o.entry 4 4 = 0 ∧
      field o.entry 8 8 % 64 ≠ 0) ∧
    (∃ (slice : Fin 4096) (ring : Fin 64) (index : BitVec 32) (sl : SliceRec) (x : RingRun) (o : RingOp) (e : Nat) (v : Nat) (h : Header) (d' : Dev) (d1 : Dev) (d2 : Dev) (res : Except Nat (Option (Nat × List Byte))) (s : State), s.dev.noTurn ∧
      s.dev.starts slice ring index.toNat 2 [1] sl x o e d' ∧
      field o.entry 4 4 = 0 ∧
      field o.entry 32 32 = 0 ∧
      field o.entry 8 8 % 64 = 0 ∧
      let c : LookupCtx := ⟨sl, sl.regionsFor o, engineAgent e⟩
      d'.readTable c (field o.entry 8 8) = ((some v, .ok h), d1) ∧
      h.lpmOk = true ∧
      (h.typ = 2 → field o.entry 20 12 = 0) ∧
      d1.lpmLookup c h (Machine.slice o.entry 16 (if h.typ = 2 then 4 else 16)) = (res, d2)) ∧
    (∃ (slice : Fin 4096) (ring : Fin 64) (index : BitVec 32) (sl : SliceRec) (x : RingRun) (o : RingOp) (e : Nat) (v : Nat) (h : Header) (d' : Dev) (d1 : Dev) (s : State), s.dev.noTurn ∧
      s.dev.starts slice ring index.toNat 2 [1] sl x o e d' ∧
      field o.entry 4 4 = 0 ∧
      field o.entry 32 32 = 0 ∧
      field o.entry 8 8 % 64 = 0 ∧
      d'.readTable ⟨sl, sl.regionsFor o, engineAgent e⟩ (field o.entry 8 8) = ((some v, .ok h), d1) ∧
      h.lpmOk = false) ∧
    (∃ (slice : Fin 4096) (ring : Fin 64) (index : BitVec 32) (sl : SliceRec) (x : RingRun) (o : RingOp) (e : Nat) (v : Nat) (h : Header) (hits : Nat) (d' : Dev) (d1 : Dev) (d2 : Dev) (s : State), s.dev.noTurn ∧
      s.dev.starts slice ring index.toNat 3 [1] sl x o e d' ∧
      1 ≤ field o.entry 4 2 ∧
      field o.entry 4 2 ≤ 256 ∧
      (field o.entry 6 1 = 1 ∨ field o.entry 6 1 = 2) ∧
      field o.entry 7 1 = 0 ∧
      field o.entry 32 32 = 0 ∧
      field o.entry 8 8 % 64 = 0 ∧
      field o.entry 16 8 % 64 = 0 ∧
      field o.entry 24 8 % 64 = 0 ∧
      let c : LookupCtx := ⟨sl, sl.regionsFor o, engineAgent e⟩
      d'.readTable c (field o.entry 8 8) = ((some v, .ok h), d1) ∧
      (if field o.entry 6 1 = 1 then h.emOk else h.lpmOk) = true ∧
      d1.batchAll c h (some v) (field o.entry 16 8) (field o.entry 24 8) (field o.entry 4 2) 0 0 = (.ok hits, d2)) ∧
    (∃ (slice : Fin 4096) (ring : Fin 64) (index : BitVec 32) (sl : SliceRec) (x : RingRun) (o : RingOp) (e : Nat) (d' : Dev) (s : State), s.dev.atRest ∧
      s.dev.starts slice ring index.toNat 3 [1] sl x o e d' ∧
      (field o.entry 4 2 = 0 ∨ 256 < field o.entry 4 2)) ∧
    (∃ (d : Dev) (sl : SliceRec) (r : Nat) (x : RingRun), d.ringRun sl r = some x) :=
  ⟨⟨0, 0, 0, slice0, ring0 1 [op0 [(0, 1), (8, 64)]], op0 [(0, 1), (8, 64)], 0, 0, _, _, _, _, _, (served [] .lookup [ring0 1 [op0 [(0, 1), (8, 64)]]] [(1, fields [(0, 128)]), (2, fields [(0, 1), (1, 16), (3, 1), (16, 4096), (24, 8192)]), (64, 0), (65, 0)]), turn (by decide +kernel), starts_of (by decide +kernel), by decide +kernel, by decide +kernel, head_ok (by decide +kernel), by decide +kernel, by decide +kernel, rfl⟩,
    ⟨0, 0, 0, slice0, ring0 1 [op0 [(0, 1), (8, 64), (16, 256)]], op0 [(0, 1), (8, 64), (16, 256)], 0, 0, _, _, _, _, _, _, _, (served [] .lookup [ring0 1 [op0 [(0, 1), (8, 64), (16, 256)]]] [(1, fields [(0, 128)]), (2, fields [(0, 1), (1, 64), (2, 2), (3, 1), (16, 4096), (24, 8192)]), (4, 0), (64, 0), (65, 0)]), turn (by decide +kernel), starts_of (by decide +kernel), by decide +kernel, by decide +kernel, head_ok (by decide +kernel), by decide +kernel, by decide +kernel, by decide +kernel, by decide +kernel, good_of (by decide +kernel), rfl⟩,
    ⟨0, 0, 0, slice0, ring0 1 [op0 [(0, 1), (4, 1)]], op0 [(0, 1), (4, 1)], 0, _, (served [] .lookup [ring0 1 [op0 [(0, 1), (4, 1)]]] []), rest (by decide +kernel), starts_of (by decide +kernel), by decide +kernel⟩,
    ⟨0, 0, 0, slice0, ring0 1 [op0 [(0, 1), (8, 1)]], op0 [(0, 1), (8, 1)], 0, _, (served [] .lookup [ring0 1 [op0 [(0, 1), (8, 1)]]] []), rest (by decide +kernel), starts_of (by decide +kernel), by decide +kernel⟩,
    ⟨0, 0, 0, slice0, ring0 1 [op0 [(0, 2), (8, 64)]], op0 [(0, 2), (8, 64)], 0, 0, _, _, _, _, _, (served [] .lookup [ring0 1 [op0 [(0, 2), (8, 64)]]] [(1, fields [(0, 128)]), (2, fields [(0, 2), (4, 1), (8, 1), (16, 4096), (24, 2048), (32, 256)]), (64, 0)]), turn (by decide +kernel), starts_of (by decide +kernel), by decide +kernel, by decide +kernel, by decide +kernel, head_ok (by decide +kernel), by decide +kernel, by decide +kernel, rfl⟩,
    ⟨0, 0, 0, slice0, ring0 1 [op0 [(0, 2), (8, 64)]], op0 [(0, 2), (8, 64)], 0, 0, _, _, _, (served [] .lookup [ring0 1 [op0 [(0, 2), (8, 64)]]] [(1, fields [(0, 128)]), (2, 9), (64, 0)]), turn (by decide +kernel), starts_of (by decide +kernel), by decide +kernel, by decide +kernel, by decide +kernel, head_ok (by decide +kernel), by decide +kernel⟩,
    ⟨0, 0, 0, slice0, ring0 1 [op0 [(0, 3), (4, 1), (6, 1), (8, 64), (16, 256), (24, 512)]], op0 [(0, 3), (4, 1), (6, 1), (8, 64), (16, 256), (24, 512)], 0, 0, _, _, _, _, _, (served [] .lookup [ring0 1 [op0 [(0, 3), (4, 1), (6, 1), (8, 64), (16, 256), (24, 512)]]] [(1, fields [(0, 128)]), (2, fields [(0, 1), (1, 16), (3, 1), (16, 4096), (24, 8192)]), (4, 0), (8, 0), (64, 0), (65, 0)]), turn (by decide +kernel), starts_of (by decide +kernel), four (by decide +kernel) ⟨by decide +kernel, by decide +kernel, by decide +kernel, by decide +kernel, head_ok (by decide +kernel), by decide +kernel, good_of (by decide +kernel)⟩⟩,
    ⟨0, 0, 0, slice0, ring0 1 [op0 [(0, 3)]], op0 [(0, 3)], 0, _, (served [] .lookup [ring0 1 [op0 [(0, 3)]]] []), rest (by decide +kernel), starts_of (by decide +kernel), by decide +kernel⟩,
    ⟨((served [] .lookup [ring0 1 []] [])).dev, slice0, 0, _, some_of (by decide +kernel)⟩⟩

/-- What the clauses of QueueServiceIsSetUp assume can be met. -/
theorem witness_QueueServiceIsSetUp :
    (∃ (slice : Fin 4096) (ring : Fin 64) (index : BitVec 32) (sl : SliceRec) (x : RingRun) (o : RingOp) (e : Nat) (d' : Dev) (s : State), s.dev.starts slice ring index.toNat 0x10 [2] sl x o e d' ∧
      field o.entry 4 4 = 0 ∧
      field o.entry 16 48 = 0 ∧
      field o.entry 8 8 % 4096 = 0 ∧
      inRegions sl.regionsNow (field o.entry 8 8) (272 * 1024) = true ∧
      d'.qservice sl = none) ∧
    (∃ (slice : Fin 4096) (ring : Fin 64) (index : BitVec 32) (sl : SliceRec) (x : RingRun) (o : RingOp) (e : Nat) (q : QService) (d' : Dev) (s : State), s.dev.starts slice ring index.toNat 0x10 [2] sl x o e d' ∧
      field o.entry 4 4 = 0 ∧
      field o.entry 16 48 = 0 ∧
      field o.entry 8 8 % 4096 = 0 ∧
      inRegions sl.regionsNow (field o.entry 8 8) (272 * 1024) = true ∧
      d'.qservice sl = some q ∧
      q.queues ≠ []) ∧
    (∃ (slice : Fin 4096) (ring : Fin 64) (index : BitVec 32) (sl : SliceRec) (x : RingRun) (o : RingOp) (e : Nat) (k : Nat) (q : QService) (d' : Dev) (d1 : Dev) (d2 : Dev) (d3 : Dev) (s : State), s.dev.noTurn ∧
      s.dev.starts slice ring index.toNat 0x11 [2] sl x o e d' ∧
      d'.qservice sl = some q ∧
      field o.entry 4 1 < 16 ∧
      field o.entry 5 1 < 3 ∧
      field o.entry 6 2 = 0 ∧
      field o.entry 28 36 = 0 ∧
      64 ≤ field o.entry 24 4 ∧
      field o.entry 24 4 ≤ 16777216 ∧
      field o.entry 8 8 % 4096 = 0 ∧
      field o.entry 16 8 % 64 = 0 ∧
      d'.poolUsed sl q (field o.entry 4 1) = false ∧
      d'.openNat = (k, d1) ∧
      let n := field o.entry 24 4
      let p : CellPool := ⟨field o.entry 5 1, field o.entry 8 8, field o.entry 16 8, n, (List.range n).rotate k⟩
      inRegions (sl.regionsFor o) p.cellBase (n * p.bytes) = true ∧
      inRegions (sl.regionsFor o) p.linkBase (4 * n) = true ∧
      d1.writeLinks sl (sl.regionsFor o) (engineAgent e) p (chain p.free noCell) = (0, d2) ∧
      d2.writeArea sl (sl.regionsFor o) (engineAgent e) q (0x42000 + 64 * field o.entry 4 1) 1 = (stOk, d3)) ∧
    (∃ (slice : Fin 4096) (ring : Fin 64) (index : BitVec 32) (sl : SliceRec) (x : RingRun) (o : RingOp) (e : Nat) (q : QService) (d' : Dev) (s : State), s.dev.atRest ∧
      s.dev.starts slice ring index.toNat 0x11 [2] sl x o e d' ∧
      d'.qservice sl = some q ∧
      field o.entry 24 4 = 0 ∧
      tget q.pools (field o.entry 4 1) = none) ∧
    (∃ (slice : Fin 4096) (ring : Fin 64) (index : BitVec 32) (sl : SliceRec) (x : RingRun) (o : RingOp) (e : Nat) (q : QService) (d' : Dev) (d1 : Dev) (s : State), s.dev.noTurn ∧
      s.dev.starts slice ring index.toNat 0x12 [2] sl x o e d' ∧
      d'.qservice sl = some q ∧
      let b := o.entry
      field b 4 2 < 4096 ∧
      field b 6 2 = 0xFFFF ∧
      field b 10 1 = 0xFF ∧
      field b 11 1 = 1 ∧
      field b 12 4 ≤ 1000000 ∧
      16384 ≤ field b 24 4 ∧
      16384 ≤ field b 28 4 ∧
      field b 32 32 = 0 ∧
      q.node (field b 4 2) = none ∧
      let n : QNode := ⟨0xFFFF, field b 8 2, 0xFF, field b 12 4, field b 16 4, field b 20 4, field b 24 4, field b 28 4, 256000 * field b 24 4,
      256000 * field b 28 4, d'.now, 0, 0⟩
      (q.setNode (field b 4 2) n).treeOk = true ∧
      d'.writeArea sl (sl.regionsFor o) (engineAgent e) q (64 * field b 4 2) 1 = (stOk, d1)) ∧
    (∃ (slice : Fin 4096) (ring : Fin 64) (index : BitVec 32) (sl : SliceRec) (x : RingRun) (o : RingOp) (e : Nat) (q : QService) (n : QNode) (d' : Dev) (s : State), s.dev.atRest ∧
      s.dev.starts slice ring index.toNat 0x12 [2] sl x o e d' ∧
      d'.qservice sl = some q ∧
      let b := o.entry
      field b 4 2 < 4096 ∧
      field b 6 2 = 0xFFFF ∧
      field b 10 1 = 0xFF ∧
      field b 11 1 = 0 ∧
      field b 12 4 ≤ 1000000 ∧
      16384 ≤ field b 24 4 ∧
      16384 ≤ field b 28 4 ∧
      field b 32 32 = 0 ∧
      q.node (field b 4 2) = some n ∧
      q.holdsBelow (field b 4 2) = true) ∧
    (∃ (slice : Fin 4096) (ring : Fin 64) (index : BitVec 32) (sl : SliceRec) (x : RingRun) (o : RingOp) (e : Nat) (q : QService) (n : QNode) (p : CellPool) (d' : Dev) (s : State), s.dev.starts slice ring index.toNat 0x13 [2] sl x o e d' ∧
      d'.qservice sl = some q ∧
      let b := o.entry
      field b 4 4 < 65536 ∧
      field b 12 1 < 16 ∧
      field b 13 1 = 1 ∧
      field b 14 2 = 0 ∧
      field b 16 4 ≤ 1000000 ∧
      field b 32 32 = 0 ∧
      sl.quota.hasQueue (field b 4 4) = true ∧
      sl.openQueue (field b 4 4) = true ∧
      d'.descriptorLost (field b 4 4) = false ∧
      q.node (field b 8 2) = some n ∧
      tget q.pools (field b 12 1) = some p ∧
      q.queue (field b 4 4) = none) ∧
    (∃ (slice : Fin 4096) (ring : Fin 64) (index : BitVec 32) (sl : SliceRec) (x : RingRun) (o : RingOp) (e : Nat) (q : QService) (y : PQueue) (d' : Dev) (s : State), s.dev.starts slice ring index.toNat 0x13 [2] sl x o e d' ∧
      d'.qservice sl = some q ∧
      let b := o.entry
      field b 4 4 < 65536 ∧
      field b 12 1 < 16 ∧
      field b 13 1 = 0 ∧
      field b 14 2 = 0 ∧
      field b 16 4 ≤ 1000000 ∧
      field b 32 32 = 0 ∧
      sl.quota.hasQueue (field b 4 4) = true ∧
      d'.descriptorLost (field b 4 4) = false ∧
      q.queue (field b 4 4) = some y ∧
      y.packets ≠ []) ∧
    (∃ (slice : Fin 4096) (ring : Fin 64) (index : BitVec 32) (sl : SliceRec) (x : RingRun) (o : RingOp) (e : Nat) (q : QService) (bytes : List Byte) (d' : Dev) (d1 : Dev) (d2 : Dev) (s : State), s.dev.noTurn ∧
      s.dev.starts slice ring index.toNat 0x14 [2] sl x o e d' ∧
      d'.qservice sl = some q ∧
      let b := o.entry
      let l := (List.range (field b 5 1 + 1)).map fun k => field bytes (4 * k) 4
      field b 4 1 < 16 ∧
      field b 5 1 < 64 ∧
      field b 6 2 = 0 ∧
      field b 24 40 = 0 ∧
      field b 8 8 % 64 = 0 ∧
      d'.sliceRead sl (sl.regionsFor o) (engineAgent e) (field b 8 8) (4 * (field b 5 1 + 1)) = (.ok bytes, d1) ∧
      bankOk l = true ∧
      (∀ n ∈ q.nodes, n.2.gate = field b 4 1 → guardOk l n.2.guardNs = true) ∧
      tget q.gates (field b 4 1) = none ∧
      d1.writeArea sl (sl.regionsFor o) (engineAgent e) q (0x40000 + 512 * field b 4 1) 8 = (stOk, d2)) :=
  ⟨⟨0, 0, 0, slice0, ring0 2 [op0 [(0, 0x10)]], op0 [(0, 0x10)], 0, _, (served [] .queue [ring0 2 [op0 [(0, 0x10)]]] []), starts_of (by decide +kernel), by decide +kernel⟩,
    ⟨0, 0, 0, slice0, ring0 2 [op0 [(0, 0x10)]], op0 [(0, 0x10)], 0, _, _, (queued (qs0 [] 0) [op0 [(0, 0x10)]] []), starts_of (by decide +kernel), by decide +kernel, by decide +kernel, by decide +kernel, by decide +kernel, some_of (by decide +kernel), by decide +kernel⟩,
    ⟨0, 0, 0, slice0, ring0 2 [poolOp], poolOp, 0, _, ⟨0, [], [], [], []⟩, _, _, _, _, poolState, turn (by decide +kernel), starts_of (by decide +kernel), four (by decide +kernel) ⟨by decide +kernel, by decide +kernel, by decide +kernel, by decide +kernel, by decide +kernel, by decide +kernel, rfl, by decide +kernel, by decide +kernel, pair_of (by
      show (Dev.writeLinks _ slice0 [(0, 99)] _ ⟨0, 0, 65536, 64, (List.range 64).rotate _⟩ (chain (CellPool.free ⟨0, 0, 65536, 64, (List.range 64).rotate _⟩) noCell)).1 = 0
      exact (links_of (by decide +kernel) _ _).1), pair_of (by
      show (Dev.writeArea (Dev.writeLinks _ slice0 [(0, 99)] _ ⟨0, 0, 65536, 64, (List.range 64).rotate _⟩ (chain (CellPool.free ⟨0, 0, 65536, 64, (List.range 64).rotate _⟩) noCell)).2 slice0 [(0, 99)] _ _ _ 1).1 = stOk
      refine area_of ?_ _ _ _ (by decide +kernel)
      rw [(links_of (by decide +kernel) _ _).2]
      decide +kernel)⟩⟩,
    ⟨0, 0, 0, slice0, ring0 2 [op0 [(0, 0x11)]], op0 [(0, 0x11)], 0, ⟨0, [], [], [], []⟩, _, (queued ⟨0, [], [], [], []⟩ [op0 [(0, 0x11)]] []), rest (by decide +kernel), starts_of (by decide +kernel), rfl, by decide +kernel⟩,
    ⟨0, 0, 0, slice0, ring0 2 [op0 [(0, 0x12), (4, 1), (6, 0xFFFF), (10, 0xFF), (11, 1), (24, 16384), (28, 16384)]], op0 [(0, 0x12), (4, 1), (6, 0xFFFF), (10, 0xFF), (11, 1), (24, 16384), (28, 16384)], 0, _, _, _, (queued (qs0 [] 0) [op0 [(0, 0x12), (4, 1), (6, 0xFFFF), (10, 0xFF), (11, 1), (24, 16384), (28, 16384)]] []), turn (by decide +kernel), starts_of (by decide +kernel), some_of (by decide +kernel), four (by decide +kernel) ⟨by decide +kernel, by decide +kernel, by decide +kernel, by decide +kernel, by decide +kernel, by decide +kernel, pair_of (by decide +kernel)⟩⟩,
    ⟨0, 0, 0, slice0, ring0 2 [op0 [(0, 0x12), (4, 0), (6, 0xFFFF), (10, 0xFF), (24, 16384), (28, 16384)]], op0 [(0, 0x12), (4, 0), (6, 0xFFFF), (10, 0xFF), (24, 16384), (28, 16384)], 0, _, _, _, (queued (qs0 [packet0] 0) [op0 [(0, 0x12), (4, 0), (6, 0xFFFF), (10, 0xFF), (24, 16384), (28, 16384)]] []), rest (by decide +kernel), starts_of (by decide +kernel), some_of (by decide +kernel), four (by decide +kernel) ⟨by decide +kernel, by decide +kernel, by decide +kernel, by decide +kernel, some_of (by decide +kernel), by decide +kernel⟩⟩,
    ⟨0, 0, 0, slice0, ring0 2 [op0 [(0, 0x13), (4, 1), (8, 0), (13, 1)]], op0 [(0, 0x13), (4, 1), (8, 0), (13, 1)], 0, _, _, _, _, (queued (qs0 [] 0) [op0 [(0, 0x13), (4, 1), (8, 0), (13, 1)]] []), starts_of (by decide +kernel), some_of (by decide +kernel), four (by decide +kernel) ⟨by decide +kernel, by decide +kernel, by decide +kernel, by decide +kernel, by decide +kernel, some_of (by decide +kernel), some_of (by decide +kernel), by decide +kernel⟩⟩,
    ⟨0, 0, 0, slice0, ring0 2 [op0 [(0, 0x13)]], op0 [(0, 0x13)], 0, _, _, _, (queued (qs0 [packet0] 0) [op0 [(0, 0x13)]] []), starts_of (by decide +kernel), some_of (by decide +kernel), four (by decide +kernel) ⟨by decide +kernel, by decide +kernel, by decide +kernel, by decide +kernel, some_of (by decide +kernel), by decide +kernel⟩⟩,
    ⟨0, 0, 0, slice0, ring0 2 [op0 [(0, 0x14), (8, 64)]], op0 [(0, 0x14), (8, 64)], 0, _, _, _, _, _, (queued (qs0 [] 0) [op0 [(0, 0x14), (8, 64)]] [(1, 0x100000FA)]), turn (by decide +kernel), starts_of (by decide +kernel), some_of (by decide +kernel), four (by decide +kernel) ⟨by decide +kernel, good_of (by decide +kernel), by decide +kernel, by decide +kernel, by decide +kernel, pair_of (by decide +kernel)⟩⟩⟩

/-- What the clauses of PacketsAreQueuedAndTaken assume can be met. -/
theorem witness_PacketsAreQueuedAndTaken :
    (∃ (slice : Fin 4096) (ring : Fin 64) (index : BitVec 32) (sl : SliceRec) (x : RingRun) (o : RingOp) (e : Nat) (q : QService) (y : PQueue) (p : CellPool) (data : List Byte) (d' : Dev) (d1 : Dev) (d2 : Dev) (d3 : Dev) (s : State), s.dev.noTurn ∧
      s.dev.starts slice ring index.toNat 0x18 [2] sl x o e d' ∧
      d'.qservice sl = some q ∧
      let b := o.entry
      let len := field b 16 2
      field b 4 4 < 65536 ∧
      1 ≤ len ∧
      len ≤ 16384 ∧
      field b 18 6 = 0 ∧
      field b 40 24 = 0 ∧
      field b 8 8 % 64 = 0 ∧
      sl.openQueue (field b 4 4) = true ∧
      d'.descriptorLost (field b 4 4) = false ∧
      q.queue (field b 4 4) = some y ∧
      tget q.pools y.pool = some p ∧
      y.full len = false ∧
      p.need len ≤ p.free.length ∧
      let rs := sl.regionsFor o
      let a := engineAgent e
      (d'.setQService sl { q with pools := tset q.pools y.pool { p with free := p.free.drop (p.need len) } }).sliceRead sl rs a (field b 8 8) len =
      (.ok data, d1) ∧
      d1.writeLinks sl rs a p (chain (p.free.take (p.need len)) noCell) = (0, d2) ∧
      d2.writeCells sl rs a p (p.free.take (p.need len)) 32 data = (0, d3)) ∧
    (∃ (slice : Fin 4096) (ring : Fin 64) (index : BitVec 32) (sl : SliceRec) (x : RingRun) (o : RingOp) (e : Nat) (q : QService) (y : PQueue) (p : CellPool) (d' : Dev) (s : State), s.dev.atRest ∧
      s.dev.starts slice ring index.toNat 0x18 [2] sl x o e d' ∧
      d'.qservice sl = some q ∧
      let b := o.entry
      let len := field b 16 2
      field b 4 4 < 65536 ∧
      1 ≤ len ∧
      len ≤ 16384 ∧
      field b 18 6 = 0 ∧
      field b 40 24 = 0 ∧
      field b 8 8 % 64 = 0 ∧
      sl.openQueue (field b 4 4) = true ∧
      d'.descriptorLost (field b 4 4) = false ∧
      q.queue (field b 4 4) = some y ∧
      tget q.pools y.pool = some p ∧
      y.full len = true) ∧
    (∃ (slice : Fin 4096) (ring : Fin 64) (index : BitVec 32) (sl : SliceRec) (x : RingRun) (o : RingOp) (e : Nat) (cells : List Nat) (q : QService) (y : PQueue) (p : CellPool) (d1 : Dev) (s : State), s.dev.noTurn ∧
      s.dev.queueOp slice ring index.toNat = some (sl, x, o, q) ∧
      o.stage = .copyingIn e y.pool cells ∧
      x.objectBusy o = false ∧
      let b := o.entry
      let len := field b 16 2
      q.queue (field b 4 4) = some y ∧
      tget q.pools y.pool = some p ∧
      s.dev.descriptorLost (field b 4 4) = false ∧
      y.full len = false ∧
      y.packets = [] ∧
      s.dev.sliceWrite sl (sl.regionsFor o) (engineAgent e) (p.cellBase + cells.headD 0 * p.bytes)
      (packetHeader noCell len cells.length s.dev.now (Machine.slice b 24 16)) = (0, d1)) ∧
    (∃ (slice : Fin 4096) (ring : Fin 64) (index : BitVec 32) (sl : SliceRec) (x : RingRun) (o : RingOp) (e : Nat) (q : QService) (y : PQueue) (p : Packet) (rest : List Packet) (d' : Dev) (s : State), s.dev.atRest ∧
      s.dev.starts slice ring index.toNat 0x19 [2] sl x o e d' ∧
      d'.qservice sl = some q ∧
      let b := o.entry
      field b 4 4 < 65536 ∧
      field b 16 2 % 64 = 0 ∧
      64 ≤ field b 16 2 ∧
      field b 16 2 ≤ 16384 ∧
      field b 18 46 = 0 ∧
      field b 8 8 % 64 = 0 ∧
      sl.quota.hasQueue (field b 4 4) = true ∧
      d'.descriptorLost (field b 4 4) = false ∧
      q.queue (field b 4 4) = some y ∧
      y.packets = p :: rest ∧
      y.ageUs = 0) ∧
    (∃ (slice : Fin 4096) (ring : Fin 64) (index : BitVec 32) (sl : SliceRec) (x : RingRun) (o : RingOp) (e : Nat) (q : QService) (y : PQueue) (d' : Dev) (s : State), s.dev.atRest ∧
      s.dev.starts slice ring index.toNat 0x19 [2] sl x o e d' ∧
      d'.qservice sl = some q ∧
      let b := o.entry
      field b 4 4 < 65536 ∧
      field b 16 2 % 64 = 0 ∧
      64 ≤ field b 16 2 ∧
      field b 16 2 ≤ 16384 ∧
      field b 18 46 = 0 ∧
      field b 8 8 % 64 = 0 ∧
      sl.quota.hasQueue (field b 4 4) = true ∧
      d'.descriptorLost (field b 4 4) = false ∧
      q.queue (field b 4 4) = some y ∧
      y.packets = []) ∧
    (∃ (slice : Fin 4096) (ring : Fin 64) (index : BitVec 32) (sl : SliceRec) (x : RingRun) (o : RingOp) (e : Nat) (i : Nat) (q : QService) (pk : Packet) (p : CellPool) (bytes : List Byte) (out : List Byte) (d1 : Dev) (d2 : Dev) (d3 : Dev) (s : State), s.dev.noTurn ∧
      s.dev.queueOp slice ring index.toNat = some (sl, x, o, q) ∧
      o.stage = .copyingOut e i pk ∧
      tget q.pools pk.pool = some p ∧
      s.dev.readCells sl (sl.regionsFor o) (engineAgent e) p pk.cells 32 (min pk.len (field o.entry 16 2)) = (.ok bytes, d1) ∧
      d1.padLine bytes = (out, d2) ∧
      d2.sliceWrite sl (sl.regionsFor o) (engineAgent e) (field o.entry 8 8) out = (0, d3)) ∧
    (∃ (slice : Fin 4096) (ring : Fin 64) (index : BitVec 32) (sl : SliceRec) (x : RingRun) (o : RingOp) (e : Nat) (i : Nat) (q : QService) (y : PQueue) (d' : Dev) (s : State), s.dev.starts slice ring index.toNat 0x1A [2] sl x o e d' ∧
      d'.qservice sl = some q ∧
      d'.namedQueue sl o q = .ok (i, y)) ∧
    (∃ (slice : Fin 4096) (ring : Fin 64) (index : BitVec 32) (sl : SliceRec) (x : RingRun) (o : RingOp) (e : Nat) (i : Nat) (q : QService) (y : PQueue) (d' : Dev) (s : State), s.dev.noTurn ∧
      s.dev.starts slice ring index.toNat 0x1B [2] sl x o e d' ∧
      d'.qservice sl = some q ∧
      d'.namedQueue sl o q = .ok (i, y)) ∧
    (∃ (slice : Fin 4096) (queue : BitVec 16) (sl : SliceRec) (e : Nat) (d1 : Dev) (s : State), s.dev.noTurn ∧
      s.dev.sliceRec slice = some sl ∧
      s.dev.descriptorLost queue.toNat = false ∧
      s.dev.choose ((sl.sharedEngines.map (·.1)).filter fun e => s.dev.engineRuns e .queue) = (some e, d1)) ∧
    (∃ (slice : Fin 4096) (queue : BitVec 16) (sl : SliceRec) (e : Nat) (d1 : Dev) (q : QService) (y : PQueue) (p : Packet) (s : State), s.dev.atRest ∧
      s.dev.sliceRec slice = some sl ∧
      s.dev.descriptorLost queue.toNat = false ∧
      s.dev.choose ((sl.sharedEngines.map (·.1)).filter fun e => s.dev.engineRuns e .queue) = (some e, d1) ∧
      d1.qservice sl = some q ∧
      q.queue queue.toNat = some y ∧
      y.packets = [p] ∧
      y.headAged d1.now = true ∧
      tget q.pools p.pool = none) ∧
    (∃ (slice : Fin 4096) (ring : Fin 64) (index : BitVec 32) (sl : SliceRec) (x : RingRun) (o : RingOp) (q : QService) (old : Nat) (e : Nat) (i : Nat) (p : Packet) (d1 : Dev) (s : State), s.dev.atRest ∧
      s.dev.queueOp slice ring index.toNat = some (sl, x, o, q) ∧
      o.stage = .copyingOut old i p ∧
      s.dev.engineOut old = true ∧
      s.dev.dispatch sl .queue = (.on e, d1)) ∧
    (∃ (slice : Fin 4096) (ring : Fin 64) (index : BitVec 32) (sl : SliceRec) (x : RingRun) (o : RingOp) (q : QService) (old : Nat) (pool : Nat) (cells : List Nat) (d1 : Dev) (s : State), s.dev.noTurn ∧
      s.dev.queueOp slice ring index.toNat = some (sl, x, o, q) ∧
      o.stage = .copyingIn old pool cells ∧
      s.dev.engineOut old = true ∧
      s.dev.dispatch sl .queue = (.lost, d1)) :=
  ⟨⟨0, 0, 0, slice0, ring0 2 [op0 [(0, 0x18), (8, 64), (16, 64)]], op0 [(0, 0x18), (8, 64), (16, 64)], 0, _, _, _, _, _, _, _, _, (queued (qs0 [] 0) [op0 [(0, 0x18), (8, 64), (16, 64)]] [(1, 0)]), turn (by decide +kernel), starts_of (by decide +kernel), some_of (by decide +kernel), four (by decide +kernel) ⟨by decide +kernel, by decide +kernel, by decide +kernel, by decide +kernel, some_of (by decide +kernel), some_of (by decide +kernel), by decide +kernel, by decide +kernel, good_of (by decide +kernel), pair_of (by decide +kernel), pair_of (by decide +kernel)⟩⟩,
    ⟨0, 0, 0, slice0, ring0 2 [op0 [(0, 0x18), (8, 64), (16, 64)]], op0 [(0, 0x18), (8, 64), (16, 64)], 0, _, _, _, _, (queued (qs0 [packet0] 0) [op0 [(0, 0x18), (8, 64), (16, 64)]] [(1, 0)]), rest (by decide +kernel), starts_of (by decide +kernel), some_of (by decide +kernel), four (by decide +kernel) ⟨by decide +kernel, by decide +kernel, by decide +kernel, by decide +kernel, some_of (by decide +kernel), some_of (by decide +kernel), by decide +kernel⟩⟩,
    ⟨0, 0, 0, slice0, ring0 2 [{ op0 [(0, 0x18), (16, 64)] with stage := .copyingIn 0 0 [0] }], { op0 [(0, 0x18), (16, 64)] with stage := .copyingIn 0 0 [0] }, 0, [0], qs0 [] 0, ⟨0, 1, 0, 0, 1, 16384, [], 0, 0, 0, []⟩, ⟨0, 0, 8192, 4, [0, 1, 2, 3]⟩, _, (queued (qs0 [] 0) [{ op0 [(0, 0x18), (16, 64)] with stage := .copyingIn 0 0 [0] }] []), turn (by decide +kernel), four (by decide +kernel) ⟨by decide +kernel, by decide +kernel, by decide +kernel, by decide +kernel, pair_of (by decide +kernel)⟩⟩,
    ⟨0, 0, 0, slice0, ring0 2 [op0 [(0, 0x19), (16, 64)]], op0 [(0, 0x19), (16, 64)], 0, _, _, packet0, [], _, (queued (qs0 [packet0] 0) [op0 [(0, 0x19), (16, 64)]] []), rest (by decide +kernel), starts_of (by decide +kernel), some_of (by decide +kernel), four (by decide +kernel) ⟨by decide +kernel, by decide +kernel, by decide +kernel, by decide +kernel, some_of (by decide +kernel), by decide +kernel⟩⟩,
    ⟨0, 0, 0, slice0, ring0 2 [op0 [(0, 0x19), (16, 64)]], op0 [(0, 0x19), (16, 64)], 0, _, _, _, (queued (qs0 [] 0) [op0 [(0, 0x19), (16, 64)]] []), rest (by decide +kernel), starts_of (by decide +kernel), some_of (by decide +kernel), four (by decide +kernel) ⟨by decide +kernel, by decide +kernel, by decide +kernel, by decide +kernel, some_of (by decide +kernel), by decide +kernel⟩⟩,
    ⟨0, 0, 0, slice0, ring0 2 [{ op0 [(0, 0x19), (16, 64)] with stage := .copyingOut 0 0 packet0 }], { op0 [(0, 0x19), (16, 64)] with stage := .copyingOut 0 0 packet0 }, 0, 0, qs0 [] 0, packet0, _, _, _, _, _, _, (queued (qs0 [] 0) [{ op0 [(0, 0x19), (16, 64)] with stage := .copyingOut 0 0 packet0 }] [(0, 0), (1, 0)]), turn (by decide +kernel), by decide +kernel, by decide +kernel, some_of (by decide +kernel), good_of (by decide +kernel), rfl, pair_of (by decide +kernel)⟩,
    ⟨0, 0, 0, slice0, ring0 2 [op0 [(0, 0x1A)]], op0 [(0, 0x1A)], 0, 0, qs0 [packet0] 0, _, _, (queued (qs0 [packet0] 0) [op0 [(0, 0x1A)]] []), starts_of (by decide +kernel), by decide +kernel, rfl⟩,
    ⟨0, 0, 0, slice0, ring0 2 [op0 [(0, 0x1B)]], op0 [(0, 0x1B)], 0, 0, qs0 [packet0] 0, _, _, (queued (qs0 [packet0] 0) [op0 [(0, 0x1B)]] []), turn (by decide +kernel), starts_of (by decide +kernel), by decide +kernel, rfl⟩,
    ⟨0, 0, _, 0, _, (queued (qs0 [] 0) [] []), turn (by decide +kernel), some_of (by decide +kernel), by decide +kernel, pair_of (by decide +kernel)⟩,
    ⟨0, 0, _, 0, _, _, _, packet0, (tweak (queued { qs0 [packet0] 1 with pools := [] } [] []) fun d => { d with regs := tset d.regs .ftime 2000 }), rest (by decide +kernel), some_of (by decide +kernel), by decide +kernel, pair_of (by decide +kernel), some_of (by decide +kernel), some_of (by decide +kernel), by decide +kernel⟩,
    ⟨0, 0, 0, slice0, ring0 2 [{ op0 [(0, 0x19), (16, 64)] with stage := .copyingOut 1 0 packet0 }], { op0 [(0, 0x19), (16, 64)] with stage := .copyingOut 1 0 packet0 }, qs0 [] 0, 1, 0, 0, packet0, _, (tweak (queued (qs0 [] 0) [{ op0 [(0, 0x19), (16, 64)] with stage := .copyingOut 1 0 packet0 }] []) fun d => { d with svc := { d.svc with engines := [(0, ⟨.queue, 0, false, none⟩), (1, ⟨.queue, 0, true, none⟩)] } }), rest (by decide +kernel), by decide +kernel, by decide +kernel, by decide +kernel, pair_of (by decide +kernel)⟩,
    ⟨0, 0, 0, slice0, ring0 2 [{ op0 [(0, 0x18), (16, 64)] with stage := .copyingIn 0 0 [0] }], { op0 [(0, 0x18), (16, 64)] with stage := .copyingIn 0 0 [0] }, qs0 [] 0, 0, 0, [0], _, (tweak (queued (qs0 [] 0) [{ op0 [(0, 0x18), (16, 64)] with stage := .copyingIn 0 0 [0] }] []) fun d => { d with svc := { d.svc with engines := [(0, ⟨.queue, 0, true, none⟩)] } }), turn (by decide +kernel), by decide +kernel, by decide +kernel, by decide +kernel, pair_of (by decide +kernel)⟩⟩

/-- What the clauses of TransfersAreArmedAbortedAndAcknowledged assume can be met. -/
theorem witness_TransfersAreArmedAbortedAndAcknowledged :
    (∃ (c : Fin 64) (s : State), s.dev.bitOf (.dmv c .status) 28 = true) ∧
    (∃ (c : Fin 64) (s : State), s.dev.bitOf (.dmv c .status) 28 = false ∧
      s.dev.dmvState c = 0 ∧
      s.dev.safe = false ∧
      s.dev.armCheck c = none ∧
      s.dev.closing c = false) ∧
    (∃ (c : Fin 64) (s : State), s.dev.bitOf (.dmv c .status) 28 = false ∧
      (s.dev.dmvState c = 1 ∨ s.dev.dmvState c = 2 ∨ s.dev.dmvState c = 3) ∧
      s.dev.armCheck c = none) ∧
    (∃ (c : Fin 64) (n : Nat) (s : State), s.dev.bitOf (.dmv c .status) 28 = false ∧
      (if s.dev.dmvState c = 4 then some 4 else s.dev.armCheck c) = some n ∧
      s.dev.bitOf (.dmv c .cfg) 31 = false) ∧
    (∃ (c : Fin 64) (x : ChannelRun) (s : State), s.dev.dmvState c ≠ 3 ∧
      s.dev.chan c = some x) ∧
    (∃ (c : Fin 64) (s : State), s.dev.dmvState c ≠ 3 ∧
      s.dev.chan c = none) ∧
    (∃ (c : Fin 64) (s : State), s.dev.dmvState c = 3 ∧
      s.dev.closing c = false) ∧
    (∃ (c : Fin 64) (s : State), s.dev.dmvState c = 3 ∧
      s.dev.bitOf (.dmv c .status) 28 = false ∧
      s.dev.closing c = false) ∧
    (∃ (c : Fin 64) (s : State), s.dev.dmvState c = 3 ∧
      s.dev.bitOf (.dmv c .status) 28 = true ∧
      s.dev.closing c = false ∧
      s.dev.safe = false) ∧
    (∃ (c : Fin 64) (s : State), s.dev.dmvState c ≠ 3) ∧
    (∃ (c : Fin 64) (sl : SliceRec) (x : ChannelRun) (s : State), s.dev.firmwareChannel c = false ∧
      s.dev.channelSlice c = some sl ∧
      s.dev.chan c = some x ∧
      x.held = [] ∧
      (s.dev.freeChannels.filter fun n => !decide (n = c.val)) = [] ∧
      s.dev.bitOf (.dmv c .cfg) 31 = false) :=
  ⟨⟨0, (moving [((.dmv 0 .status), 28, 28, 1)] (run0)), by decide +kernel⟩,
    ⟨0, (moving [((.dmv 0 .src), 63, 0, 0), ((.dmv 0 .dst), 63, 0, 4096), ((.dmv 0 .len), 63, 0, 64)] (run0)), by decide +kernel⟩,
    ⟨0, (moving [((.dmv 0 .src), 63, 0, 0), ((.dmv 0 .dst), 63, 0, 4096), ((.dmv 0 .len), 63, 0, 64), ((.dmv 0 .status), 31, 29, 1)] (run0)), by decide +kernel⟩,
    ⟨0, 4, (moving [] (run0)), by decide +kernel⟩,
    ⟨0, _, (moving [((.dmv 0 .status), 31, 29, 1)] (run0)), by decide +kernel, some_of (by decide +kernel)⟩,
    ⟨0, on [], by decide +kernel⟩,
    ⟨0, (moving [((.dmv 0 .status), 31, 29, 3)] (run0)), by decide +kernel⟩,
    ⟨0, (moving [((.dmv 0 .status), 31, 29, 3)] (run0)), by decide +kernel⟩,
    ⟨0, (moving [((.dmv 0 .status), 31, 28, 7)] (run0)), by decide +kernel⟩,
    ⟨0, on [], by decide +kernel⟩,
    ⟨0, _, _, (tweak (served [] .lookup [] []) fun d => { d with svc := { d.svc with channels := [(0, run0)] }, flt := { d.flt with logicOut := List.range 16 } }), by decide +kernel, some_of (by decide +kernel), some_of (by decide +kernel), by decide +kernel⟩⟩

/-- What the clauses of TransfersMoveLinesAndDirtyPagesAreLogged assume can be met. -/
theorem witness_TransfersMoveLinesAndDirtyPagesAreLogged :
    (∃ (c : Fin 64) (x : ChannelRun) (s : State), s.dev.chan c = some x ∧
      s.dev.safe = false ∧
      s.dev.burstReady c x = true ∧
      s.dev.noTurn) ∧
    (∃ (c : Fin 64) (x : ChannelRun) (d1 : Dev) (s : State), s.dev.atRest ∧
      s.dev.chan c = some x ∧
      s.dev.safe = false ∧
      s.dev.burstReady c x = true ∧
      s.dev.dmvLines c x ((List.range (s.dev.burstLen c x.offset / 64)).map fun i => x.offset + 64 * i) = (none, d1) ∧
      d1.made ∧
      d1.bitOf (.dmv c .actCtl) 7 = false ∧
      x.held = []) ∧
    (∃ (c : Fin 64) (x : ChannelRun) (ok : Bool) (d1 : Dev) (s : State), s.dev.noTurn ∧
      s.dev.chan c = some x ∧
      s.dev.safe = false ∧
      s.dev.bitOf (.dmv c .actCtl) 7 = true ∧
      x.held = [] ∧
      x.failed = none ∧
      x.stopped = false ∧
      x.offset < s.dev.actLen c ∧
      let first := ((s.dev.reg (.dmv c .actSrc)).toNat + x.offset) / 1024
      let last := ((s.dev.reg (.dmv c .actSrc)).toNat + x.offset + s.dev.burstLen c x.offset - 1) / 1024
      let gs := (List.range (last + 1 - first)).map fun k => first + k
      gs.foldl (fun (r : Bool × Dev) g => if r.1 then r.2.holdX (dmvAgent c) g false else r) (true, s.dev) = (ok, d1)) ∧
    (∃ (c : Fin 64) (x : ChannelRun) (s : State), s.dev.chan c = some x ∧
      x.failed = none ∧
      s.dev.actLen c ≤ x.offset ∧
      x.aborting = false ∧
      s.dev.bitOf (.dmv c .status) 28 = false ∧
      s.dev.closing c = false ∧
      s.dev.bitOf (.dmv c .actCtl) 6 = false) ∧
    (∃ (c : Fin 64) (x : ChannelRun) (s : State), s.dev.chan c = some x ∧
      x.failed = none ∧
      s.dev.actLen c ≤ x.offset ∧
      x.aborting = false ∧
      s.dev.bitOf (.dmv c .status) 28 = true ∧
      s.dev.closing c = false ∧
      s.dev.bitOf (.dmv c .actCtl) 6 = false ∧
      s.dev.safe = false) ∧
    (∃ (c : Fin 64) (x : ChannelRun) (s : State), s.dev.atRest ∧
      x.aborting = true ∧
      s.dev.chan c = some x ∧
      s.dev.burstReady c x = false ∧
      x.failed = none ∧
      x.stopped = true ∧
      x.held = [] ∧
      s.dev.bitOf (.dmv c .status) 28 = false ∧
      s.dev.closing c = false ∧
      s.dev.bitOf (.dmv c .cfg) 31 = false) ∧
    (∃ (c : Fin 64) (offset : Nat) (x : ChannelRun) (s : State), s.dev.chan c = some x ∧
      x.failed = none ∧
      x.stopped = false ∧
      offset % 64 = 0 ∧
      x.offset ≤ offset ∧
      offset < x.offset + s.dev.burstLen c x.offset) ∧
    (∃ (c : Fin 64) (offset : Nat) (off : Nat) (x : ChannelRun) (s : State), s.dev.chan c = some x ∧
      x.failed = some off ∧
      x.stopped = false ∧
      offset % 64 = 0 ∧
      x.offset ≤ offset ∧
      offset < x.offset + s.dev.burstLen c x.offset) ∧
    (∃ (c : Fin 64) (x : ChannelRun) (off : Nat) (s : State), s.dev.chan c = some x ∧
      x.failed = some off ∧
      s.dev.closing c = false ∧
      s.dev.bitOf (.dmv c .cfg) 31 = false ∧
      x.held = []) ∧
    (∃ (mode : Nat) (i : Nat), mode < 8 ∧
      i < 64) ∧
    (∃ (p : Fin 64) (index : Fin 256) (v : BitVec 32) (sl : SliceRec) (s : State), s.dev.sliceAt p index = some sl ∧
      v.getLsbD 31 = true ∧
      v.getLsbD 30 = false ∧
      s.dev.bitOf (.dirtyCtl sl.port sl.index) 31 = false ∧
      s.dev.dirtyOk sl (getBits (v.setWidth 64) 26 0) = true) ∧
    (∃ (p : Fin 64) (index : Fin 256) (v : BitVec 32) (sl : SliceRec) (s : State), s.dev.sliceAt p index = some sl ∧
      v.getLsbD 31 = true ∧
      s.dev.bitOf (.dirtyCtl sl.port sl.index) 31 = false ∧
      s.dev.dirtyOk sl (getBits (v.setWidth 64) 26 0) = false) ∧
    (∃ (p : Fin 64) (index : Fin 256) (v : BitVec 32) (sl : SliceRec) (s : State), s.dev.sliceAt p index = some sl ∧
      v.getLsbD 31 = false ∧
      v.getLsbD 30 = false) ∧
    (∃ (p : Fin 64) (index : Fin 256) (v : BitVec 32) (sl : SliceRec) (s : State), s.dev.sliceAt p index = some sl ∧
      v.getLsbD 30 = true ∧
      s.dev.bitOf (.dirtyCtl sl.port sl.index) 31 = true ∧
      s.dev.bitOf (.dirtyStatus sl.port sl.index) 30 = false) ∧
    (∃ (slice : Fin 4096) (sl : SliceRec) (s : State), s.dev.atRest ∧
      s.dev.sliceRec slice = some sl ∧
      s.dev.bitOf (.dirtyStatus sl.port sl.index) 30 = true ∧
      s.dev.bitOf (.dirtyCtl sl.port sl.index) 29 = false) ∧
    (∃ (slice : Fin 4096) (sl : SliceRec) (s : State), s.dev.sliceRec slice = some sl) ∧
    (∃ (slice : Fin 4096) (sl : SliceRec) (s : State), s.dev.sliceRec slice = some sl ∧
      let d := s.dev.drainAll
      d.bitOf (.dirtyStatus sl.port sl.index) 30 = false ∨
      (∃ m ∈ (d.dirtyRun sl.id).marks, m.buf ≠ d.rd (.dirtyStatus sl.port sl.index) 31 31)) :=
  ⟨⟨0, _, (moving [((.dmv 0 .actSrc), 63, 0, 0), ((.dmv 0 .actDst), 63, 0, 4096), ((.dmv 0 .actLen), 63, 0, 64)] (run0)), some_of (by decide +kernel), by decide +kernel, by decide +kernel, turn (by decide +kernel)⟩,
    ⟨0, run0, _, (tweak (served [(.dmv 0 .actDst, 63, 0, 64), (.dmv 0 .actLen, 63, 0, 64)] .lookup [] [(0, 0), (1, 0)]) fun d => { d with svc := { d.svc with fwChannels := [0], channels := [(0, run0)] } }), rest (by decide +kernel), by decide +kernel, by decide +kernel, by decide +kernel, pair_of (by decide +kernel), done (by decide +kernel), by decide +kernel⟩,
    ⟨0, _, true, _, (moving [((.dmv 0 .actSrc), 63, 0, 0), ((.dmv 0 .actDst), 63, 0, 4096), ((.dmv 0 .actLen), 63, 0, 64), ((.dmv 0 .actCtl), 7, 7, 1)] (run0)), turn (by decide +kernel), some_of (by decide +kernel), four (by decide +kernel) ⟨by decide +kernel, by decide +kernel, pair_of (by decide +kernel)⟩⟩,
    ⟨0, _, (moving [((.dmv 0 .actSrc), 63, 0, 0), ((.dmv 0 .actDst), 63, 0, 4096), ((.dmv 0 .actLen), 63, 0, 64), ((.dmv 0 .status), 31, 29, 1)] ({ run0 with offset := 64 })), some_of (by decide +kernel), by decide +kernel⟩,
    ⟨0, _, (moving [((.dmv 0 .actSrc), 63, 0, 0), ((.dmv 0 .actDst), 63, 0, 4096), ((.dmv 0 .actLen), 63, 0, 64), ((.dmv 0 .status), 31, 28, 3)] ({ run0 with offset := 64 })), some_of (by decide +kernel), by decide +kernel⟩,
    ⟨0, { run0 with aborting := true, stopped := true }, (moving [((.dmv 0 .actSrc), 63, 0, 0), ((.dmv 0 .actDst), 63, 0, 4096), ((.dmv 0 .actLen), 63, 0, 64), ((.dmv 0 .status), 31, 29, 2)] ({ run0 with aborting := true, stopped := true })), rest (by decide +kernel), by decide +kernel⟩,
    ⟨0, 0, _, (moving [((.dmv 0 .actSrc), 63, 0, 0), ((.dmv 0 .actDst), 63, 0, 4096), ((.dmv 0 .actLen), 63, 0, 64)] (run0)), some_of (by decide +kernel), by decide +kernel⟩,
    ⟨0, 0, 0, _, (moving [((.dmv 0 .actSrc), 63, 0, 0), ((.dmv 0 .actDst), 63, 0, 4096), ((.dmv 0 .actLen), 63, 0, 64)] ({ run0 with failed := some 0 })), some_of (by decide +kernel), by decide +kernel⟩,
    ⟨0, _, 0, (moving [((.dmv 0 .actSrc), 63, 0, 0), ((.dmv 0 .actDst), 63, 0, 4096), ((.dmv 0 .actLen), 63, 0, 64)] ({ run0 with failed := some 0 })), some_of (by decide +kernel), by decide +kernel⟩,
    ⟨0, 0, by decide +kernel⟩,
    ⟨0, 1, 0x80000200, _, (tweak (served [((.dirtyWin 0 1), 43, 12, 0), ((.dirtyBuf 0 1 0), 43, 6, 0), ((.dirtyBuf 0 1 1), 43, 6, 1)] .lookup [] []) fun d => { d with pool := { d.pool with windows := [(0, (0, 0, 16))] } }), some_of (by decide +kernel), by decide +kernel⟩,
    ⟨0, 1, 0x80000001, _, (served [((.dirtyWin 0 1), 43, 12, 0), ((.dirtyBuf 0 1 0), 43, 6, 0), ((.dirtyBuf 0 1 1), 43, 6, 1)] .lookup [] []), some_of (by decide +kernel), by decide +kernel⟩,
    ⟨0, 1, 0, _, (served [((.dirtyWin 0 1), 43, 12, 0), ((.dirtyBuf 0 1 0), 43, 6, 0), ((.dirtyBuf 0 1 1), 43, 6, 1)] .lookup [] []), some_of (by decide +kernel), by decide +kernel⟩,
    ⟨0, 1, 0x40000000, _, (served [((.dirtyWin 0 1), 43, 12, 0), ((.dirtyBuf 0 1 0), 43, 6, 0), ((.dirtyBuf 0 1 1), 43, 6, 1), ((.dirtyCtl 0 1), 31, 31, 1)] .lookup [] []), some_of (by decide +kernel), by decide +kernel⟩,
    ⟨0, _, (served [((.dirtyWin 0 1), 43, 12, 0), ((.dirtyBuf 0 1 0), 43, 6, 0), ((.dirtyBuf 0 1 1), 43, 6, 1), ((.dirtyStatus 0 1), 30, 30, 1)] .lookup [] []), rest (by decide +kernel), some_of (by decide +kernel), by decide +kernel⟩,
    ⟨0, slice0, (served [] .lookup [] []), by decide +kernel⟩,
    ⟨0, _, (served [((.dirtyWin 0 1), 43, 12, 0), ((.dirtyBuf 0 1 0), 43, 6, 0), ((.dirtyBuf 0 1 1), 43, 6, 1)] .lookup [] []), some_of (by decide +kernel), by decide +kernel⟩⟩

/-- What the clauses of SlicesAreMadeSizedAndDestroyed assume can be met. -/
theorem witness_SlicesAreMadeSizedAndDestroyed :
    (∃ (path : Path) (input : List Byte) (p : Nat) (id : Nat) (index : Nat) (rings : List Nat) (channels : List (Option Nat)) (d1 : Dev) (d2 : Dev) (d3 : Dev) (d4 : Dev) (s : State), s.dev.takesStoluo path 0xC020 ∧
      (sliceHead path input 216 && quotaForm (input.drop 8)) = true ∧
      hostOf path input = some p ∧
      let q := quotaOf (input.drop 8)
      s.dev.portMode p = 1 ∧
      s.dev.portState p ≠ 7 ∧
      (∀ e ∈ q.engines, s.dev.engineOk e.1 = true) ∧
      s.dev.regionsOk p [] q.regions = true ∧
      s.dev.regionsBarred q = false ∧
      (∀ x ∈ s.dev.slicesOf p, x.pasid ≠ field input 4 4) ∧
      s.dev.overBudget p 0 q = false ∧
      s.dev.queuesTaken 0 q = false ∧
      s.dev.freshNumber 4096 (0 :: s.dev.allSlices.map (·.id)) = (some id, d1) ∧
      d1.freshNumber 256 ((d1.slicesOf p).map (·.index)) = (some index, d2) ∧
      d2.freshRings q.rings (d2.allSlices.flatMap fun s => s.quota.rings) = (some rings, d3) ∧
      d3.freshChannels q.channels [] = (some channels, d4)) ∧
    (∃ (path : Path) (input : List Byte) (p : Nat) (id : Nat) (index : Nat) (d1 : Dev) (d2 : Dev) (s : State), s.dev.takesStoluo path 0xC020 ∧
      (sliceHead path input 216 && quotaForm (input.drop 8)) = true ∧
      hostOf path input = some p ∧
      let q := quotaOf (input.drop 8)
      q.rings = 0 ∧
      q.channels = 0 ∧
      s.dev.portMode p = 1 ∧
      s.dev.portState p ≠ 7 ∧
      (∀ e ∈ q.engines, s.dev.engineOk e.1 = true) ∧
      s.dev.regionsOk p [] q.regions = true ∧
      s.dev.regionsBarred q = false ∧
      (∀ x ∈ s.dev.slicesOf p, x.pasid ≠ field input 4 4) ∧
      s.dev.overBudget p 0 q = false ∧
      s.dev.queuesTaken 0 q = false ∧
      s.dev.freshNumber 4096 (0 :: s.dev.allSlices.map (·.id)) = (some id, d1) ∧
      d1.freshNumber 256 ((d1.slicesOf p).map (·.index)) = (some index, d2)) ∧
    (∃ (path : Path) (input : List Byte) (sl : SliceRec) (s : State), s.dev.takesStoluo path 0xC023 ∧
      sliceHead path input 8 = true ∧
      s.dev.namedSlice path input = some sl ∧
      sl.resize = none) ∧
    (∃ (path : Path) (input : List Byte) (sl : SliceRec) (r : Resize) (s : State), s.dev.takesStoluo path 0xC023 ∧
      sliceHead path input 8 = true ∧
      s.dev.namedSlice path input = some sl ∧
      sl.resize = some r) ∧
    (∃ (path : Path) (input : List Byte) (sl : SliceRec) (s : State), s.dev.takesStoluo path 0xC021 ∧
      (sliceHead path input 216 && quotaForm (input.drop 8)) = true ∧
      s.dev.namedSlice path input = some sl ∧
      s.dev.changing = true) ∧
    (∃ (path : Path) (input : List Byte) (sl : SliceRec) (s : State), s.dev.takesStoluo path 0xC022 ∧
      sliceHead path input 8 = true ∧
      s.dev.namedSlice path input = some sl ∧
      s.dev.changing = true) ∧
    (∃ (path : Path) (input : List Byte) (s : State), s.dev.takesStoluo path 0xC023 ∧
      sliceHead path input 8 = true ∧
      s.dev.namedSlice path input = none) ∧
    (∃ (path : Path) (input : List Byte) (sl : SliceRec) (s : State), s.dev.takesStoluo path 0xC021 ∧
      (sliceHead path input 216 && quotaForm (input.drop 8)) = true ∧
      s.dev.namedSlice path input = some sl ∧
      s.dev.changing = false ∧
      tget s.dev.mgmt.bg path = none ∧
      let q := quotaOf (input.drop 8)
      (∀ e ∈ q.engines, s.dev.engineOk e.1 = true) ∧
      s.dev.regionsOk sl.port sl.quota.regions q.regions = true ∧
      queueRangeOk sl.quota q.queueBase q.queues = true ∧
      s.dev.regionsBarred q = false ∧
      s.dev.lastEngineLost sl q.engines = false ∧
      s.dev.pinnedLost sl q.regions = false ∧
      s.dev.vectorLost sl q.msixBase q.msixCount = false ∧
      s.dev.overBudget sl.port sl.id q = false ∧
      s.dev.queuesTaken sl.id q = false ∧
      q.rings ≤ sl.quota.rings.length ∧
      q.channels ≤ sl.quota.channels.length) ∧
    (∃ (path : Path) (input : List Byte) (sl : SliceRec) (s : State), s.dev.takesStoluo path 0xC022 ∧
      sliceHead path input 8 = true ∧
      s.dev.namedSlice path input = some sl ∧
      s.dev.changing = false ∧
      tget s.dev.mgmt.bg path = none) ∧
    (∃ (path : Path) (input : List Byte) (sl : SliceRec) (s : State), s.dev.takesStoluo path 0xC022 ∧
      sliceHead path input 8 = true ∧
      s.dev.namedSlice path input = some sl ∧
      s.dev.changing = false ∧
      tget s.dev.mgmt.bg path = none ∧
      sl.quota.rings = [] ∧
      sl.quota.channels = []) ∧
    (∃ (slice : Fin 4096) (sl : SliceRec) (r : Resize) (s : State), s.dev.sliceRec slice = some sl ∧
      sl.resize = some r ∧
      s.dev.fwRuns = true ∧
      s.dev.drained sl r.target = true) ∧
    (∃ (slice : Fin 4096) (sl : SliceRec) (r : Resize) (path : Path) (b : BgOp) (s : State), s.dev.sliceRec slice = some sl ∧
      sl.resize = some r ∧
      sl.id = slice.val ∧
      s.dev.fwRuns = true ∧
      (∀ t, t < 16 → (s.dev.assistEngine t).isSome = true) ∧
      s.dev.drained sl r.target = true ∧
      r.path = some path ∧
      r.destroy = true ∧
      r.forced = false ∧
      tget s.dev.mgmt.bg path = some b) ∧
    (∃ (slice : Fin 4096) (sl : SliceRec) (r : Resize) (s : State), s.dev.atRest ∧
      s.dev.sliceRec slice = some sl ∧
      sl.id = slice.val ∧
      sl.resize = some r ∧
      r.forced = false ∧
      removedChannels sl.quota r.target = [] ∧
      s.dev.qservice sl = none) ∧
    (∃ (p : Fin 64) (s : State), s.dev.slicesOf p = []) ∧
    (∃ (path : Path) (input : List Byte) (s : State), s.dev.takesStoluo path 0xC024 ∧
      input.length = 4 ∧
      field input 0 2 < 256 ∧
      (field input 2 1 = 1 ∨ field input 2 1 = 2) ∧
      field input 3 1 = 0 ∧
      s.dev.engineShared (field input 0 2) = false ∧
      s.dev.assistEngine (field input 0 2 / 16) ≠ some (field input 0 2) ∧
      (tget s.dev.mgmt.inUse (field input 2 1)).isSome = true) ∧
    (∃ (path : Path) (input : List Byte) (s : State), s.dev.takesStoluo path 0xC024 ∧
      input.length = 4 ∧
      field input 0 2 < 256 ∧
      (field input 2 1 = 1 ∨ field input 2 1 = 2) ∧
      field input 3 1 = 0 ∧
      s.dev.engineShared (field input 0 2) = false ∧
      s.dev.assistEngine (field input 0 2 / 16) ≠ some (field input 0 2) ∧
      tget s.dev.mgmt.inUse (field input 2 1) = none) ∧
    (∃ (path : Path) (input : List Byte) (s : State), s.dev.takesStoluo path 0xC024 ∧
      input.length = 4 ∧
      field input 0 2 < 256 ∧
      (field input 2 1 = 1 ∨ field input 2 1 = 2) ∧
      field input 3 1 = 0 ∧
      s.dev.engineShared (field input 0 2) = true) ∧
    (∃ (e : Fin 256) (v : Nat) (s : State), (s.dev.engine e).move = some v ∧
      s.dev.threadsOf e = 0 ∧
      s.dev.mgmt.imageMove = []) :=
  ⟨⟨.fm, zeros 216, 0, _, _, _, _, _, _, _, _, (on [((.prtCfg 0), 31, 28, 1)]), sto (by decide +kernel), four (by decide +kernel) ⟨by decide +kernel, by decide +kernel, by decide +kernel, by decide +kernel, by decide +kernel, by decide +kernel, pair_some_of (fresh_some _ (by decide +kernel)), pair_some_of (by decide +kernel), pair_some_of (by decide +kernel), pair_some_of (by decide +kernel)⟩⟩,
    ⟨.fm, zeros 216, 0, _, _, _, _, (on [((.prtCfg 0), 31, 28, 1)]), sto (by decide +kernel), four (by decide +kernel) ⟨by decide +kernel, by decide +kernel, by decide +kernel, by decide +kernel, by decide +kernel, by decide +kernel, by decide +kernel, by decide +kernel, pair_some_of (fresh_some _ (by decide +kernel)), pair_some_of (by decide +kernel)⟩⟩,
    ⟨.fm, zeros 8, _, (served [] .lookup [] []), sto (by decide +kernel), by decide +kernel, some_of (by decide +kernel), by decide +kernel⟩,
    ⟨.fm, zeros 8, _, _, (tweak (served [] .lookup [] []) fun d => { d with svc := { d.svc with slices := [(0, { slice0 with resize := some ⟨slice0.quota, false, none, false⟩ })] } }), sto (by decide +kernel), by decide +kernel, some_of (by decide +kernel), some_of (by decide +kernel)⟩,
    ⟨.fm, (zeros 8 ++ toBytes 208 (fields [(0, 0)])), _, (tweak (served [] .lookup [] []) fun d => { d with svc := { d.svc with slices := [(0, { slice0 with resize := some ⟨slice0.quota, false, none, false⟩ })] } }), sto (by decide +kernel), by decide +kernel, some_of (by decide +kernel), by decide +kernel⟩,
    ⟨.fm, zeros 8, _, (tweak (served [] .lookup [] []) fun d => { d with svc := { d.svc with slices := [(0, { slice0 with resize := some ⟨slice0.quota, false, none, false⟩ })] } }), sto (by decide +kernel), by decide +kernel, some_of (by decide +kernel), by decide +kernel⟩,
    ⟨.fm, zeros 8, on [], sto (by decide +kernel), by decide +kernel⟩,
    ⟨.fm, zeros 216, _, (served [] .lookup [] []), sto (by decide +kernel), by decide +kernel, some_of (by decide +kernel), by decide +kernel⟩,
    ⟨.fm, zeros 8, _, (served [] .lookup [] []), sto (by decide +kernel), by decide +kernel, some_of (by decide +kernel), by decide +kernel⟩,
    ⟨.fm, zeros 8, _, (tweak (served [] .lookup [] []) fun d => { d with svc := { d.svc with slices := [(0, { slice0 with quota := { slice0.quota with rings := [], channels := [] } })] } }), sto (by decide +kernel), by decide +kernel, some_of (by decide +kernel), by decide +kernel⟩,
    ⟨0, { slice0 with resize := some ⟨slice0.quota, true, some .fm, false⟩ }, ⟨slice0.quota, true, some .fm, false⟩, (tweak (served [] .lookup [] []) fun d => { d with svc := { d.svc with slices := [(0, { slice0 with resize := some ⟨slice0.quota, true, some .fm, false⟩ })] } }), by decide +kernel, by decide, by decide +kernel⟩,
    ⟨0, { slice0 with resize := some ⟨slice0.quota, true, some .fm, false⟩ }, ⟨slice0.quota, true, some .fm, false⟩, .fm, _, (tweak (served [] .lookup [] []) fun d => { d with svc := { d.svc with slices := [(0, { slice0 with resize := some ⟨slice0.quota, true, some .fm, false⟩ })], engines := (List.range 16).map fun t => (16 * t + 15, ⟨.assist, 0, false, none⟩) }, mgmt := { d.mgmt with bg := [(.fm, ⟨0xC022, none⟩)] } }), four (by decide +kernel) ⟨by decide +kernel, by decide +kernel, by decide +kernel, by decide +kernel, by decide +kernel, some_of (by decide +kernel)⟩⟩,
    ⟨0, _, _, (tweak (served [] .lookup [] []) fun d => { d with svc := { d.svc with slices := [(0, { slice0 with resize := some ⟨slice0.quota, true, some .fm, false⟩ })] }, mgmt := { d.mgmt with bg := [(.fm, ⟨0xC022, none⟩)] } }), rest (by decide +kernel), some_of (by decide +kernel), by decide +kernel, some_of (by decide +kernel), by decide +kernel⟩,
    ⟨0, on [], by decide +kernel⟩,
    ⟨.fm, [0, 0, 1, 0], (tweak (on []) fun d => { d with mgmt.inUse := [(1, 0)] }), sto (by decide +kernel), by decide +kernel⟩,
    ⟨.fm, [0, 0, 1, 0], on [], sto (by decide +kernel), by decide +kernel⟩,
    ⟨.fm, [0, 0, 1, 0], (served [] .lookup [] []), sto (by decide +kernel), by decide +kernel⟩,
    ⟨0, 1, (tweak (on []) fun d => { d with svc.engines := [(0, ⟨.lookup, 0, false, some 1⟩)] }), by decide +kernel⟩⟩

/-- What the clauses of PortsStartTrainAndServe assume can be met. -/
theorem witness_PortsStartTrainAndServe :
    (∃ (p : Fin 64) (s : State), s.dev.portState p = 1 ∧
      s.dev.mayStart p = true ∧
      s.dev.portMode p = 1) ∧
    (∃ (p : Fin 64) (s : State), s.dev.portState p = 1 ∧
      s.dev.mayStart p = true ∧
      s.dev.portMode p ≠ 1 ∧
      s.dev.bitOf (.hpStatus p) 28 = true) ∧
    (∃ (p : Fin 64) (s : State), s.dev.portState p = 1 ∧
      s.dev.mayStart p = true ∧
      s.dev.portMode p ≠ 1 ∧
      s.dev.bitOf (.hpStatus p) 28 = false) ∧
    (∃ (p : Fin 64) (s : State), s.dev.portState p = 2 ∧
      s.dev.bitOf (.hpStatus p) 28 = true) ∧
    (∃ (p : Fin 64) (rate : Nat) (lanes : Nat) (flit256 : Bool) (s : State), s.dev.portState p = 3 ∧
      rate < 8 ∧
      lanes < 32 ∧
      rate ≤ s.dev.rd (.prtCfg p) 23 20 ∧
      lanes ≤ 4 * widthQuads (s.dev.rd (.prtCfg p) 27 26) ∧
      (flit256 = true ∨ rate ≤ 5) ∧
      (flit256 = true ∨ s.dev.portMode p = 3 ∨ (3 ≤ rate ∧ rate ≤ 5))) ∧
    (∃ (p : Fin 64) (rate : Nat) (lanes : Nat) (flit256 : Bool) (ok : Bool) (s : State), s.dev.portState p = 3 ∧
      rate ≤ s.dev.rd (.prtCfg p) 23 20 ∧
      lanes ≤ 4 * widthQuads (s.dev.rd (.prtCfg p) 27 26) ∧
      (flit256 = true ∨ rate ≤ 5) ∧
      (ok = false ∨ (flit256 = false ∧ s.dev.portMode p ≠ 3 ∧ rate < 3))) ∧
    (∃ (p : Fin 64) (rate : Nat) (lanes : Nat) (flit256 : Bool) (s : State), (s.dev.portState p ≠ 3 ∨ s.dev.rd (.prtCfg p) 23 20 < rate ∨ 4 * widthQuads (s.dev.rd (.prtCfg p) 27 26) < lanes ∨
      (flit256 = false ∧ 5 < rate))) ∧
    (∃ (p : Fin 64) (s : State), s.dev.portState p = 3) ∧
    (∃ (p : Fin 64) (s : State), s.dev.portMode p = 1 ∧
      s.dev.portState p = 4) ∧
    (∃ (p : Fin 64) (s : State), s.dev.portState p = 4 ∧
      s.dev.portMode p = 1 ∧
      s.dev.mgmt.fwUp = true) ∧
    (∃ (p : Fin 64) (s : State), s.dev.portState p = 4 ∧
      s.dev.portMode p = 2 ∧
      (s.dev.prec p).readyOk = true) ∧
    (∃ (p : Fin 64) (s : State), s.dev.portState p = 4 ∧
      s.dev.portMode p = 3) ∧
    (∃ (p : Fin 64) (need : Nat) (x : Nat × Nat × Nat) (s : State), s.dev.portMode p = 2 ∧
      s.dev.portState p = 4 ∧
      s.dev.setOfPort p = some x ∧
      tgetD s.dev.pool.setCap x.1 0 = need) ∧
    (∃ (p : Fin 64) (fn : Fin 256) (s : State), s.dev.portMode p = 1 ∧
      s.dev.portState p = 5 ∧
      (fn.val ≤ 1 ∨ (fn.val = 2 ∧ s.dev.bitOf (.prtCfg p) 25 = true) ∨ (64 ≤ fn.val ∧ fn.val < 128 ∧ s.dev.portMode (fn.val - 64) = 3 ∧
      s.dev.rd (.prtCfg (fn.val - 64)) 17 12 = p.val))) ∧
    (∃ (p : Fin 64) (fn : Fin 256) (s : State), s.dev.portMode p = 1 ∧
      s.dev.portState p = 5 ∧
      ¬(fn.val ≤ 1 ∨ (fn.val = 2 ∧ s.dev.bitOf (.prtCfg p) 25 = true) ∨ (64 ≤ fn.val ∧ fn.val < 128 ∧ s.dev.portMode (fn.val - 64) = 3 ∧
      s.dev.rd (.prtCfg (fn.val - 64)) 17 12 = p.val))) ∧
    (∃ (p : Fin 64) (s : State), s.dev.portMode p = 1 ∧
      (s.dev.portState p = 4 ∨ s.dev.portState p = 5)) ∧
    (∃ (host : Fin 64) (p : Fin 64) (s : State), s.dev.portMode p = 3 ∧
      s.dev.rd (.prtCfg p) 17 12 = host.val ∧
      s.dev.portState p = 5) ∧
    (∃ (host : Fin 64) (p : Fin 64) (s : State), s.dev.portMode p = 3 ∧
      s.dev.rd (.prtCfg p) 17 12 = host.val) ∧
    (∃ (p : Fin 64) (s : State), (s.dev.portState p = 4 ∨ s.dev.portState p = 5)) ∧
    (∃ (p : Fin 64) (s : State), (s.dev.portState p = 4 ∨ s.dev.portState p = 5 ∨ s.dev.portState p = 6) ∧
      s.dev.rd (.prtStatus p) 10 8 = 0) ∧
    (∃ (p : Fin 64) (s : State), s.dev.rd (.prtStatus p) 10 8 = 1) ∧
    (∃ (p : Fin 64) (rate : Nat) (lanes : Nat) (s : State), (s.dev.portState p = 4 ∨ s.dev.portState p = 5 ∨ s.dev.portState p = 6) ∧
      lanes ≤ 4 * widthQuads (s.dev.rd (.prtCfg p) 27 26) ∧
      rate = s.dev.rd (.prtStatus p) 23 21 ∧
      rate ≤ s.dev.rd (.prtCfg p) 23 20 ∧
      s.dev.bitOf (.prtStatus p) 15 = true ∧
      lanes ≤ s.dev.rd (.prtStatus p) 20 16) ∧
    (∃ (p : Fin 64) (rate : Nat) (lanes : Nat) (s : State), (s.dev.portState p = 4 ∨ s.dev.portState p = 5 ∨ s.dev.portState p = 6) ∧
      lanes ≤ 4 * widthQuads (s.dev.rd (.prtCfg p) 27 26) ∧
      rate ≤ s.dev.rd (.prtCfg p) 23 20 ∧
      rate < 8 ∧
      lanes < 32 ∧
      (s.dev.bitOf (.prtStatus p) 15 = true ∨ (rate ≤ 5 ∧ (s.dev.portMode p = 3 ∨ 3 ≤ rate)))) :=
  ⟨⟨0, (on [((.prtCfg 0), 31, 28, 1), ((.prtStatus 0), 31, 28, 1), ((.hpStatus 0), 31, 23, 240)]), by decide +kernel⟩,
    ⟨0, (on [((.prtCfg 0), 31, 28, 2), ((.prtStatus 0), 31, 28, 1), ((.hpStatus 0), 31, 23, 240)]), by decide +kernel⟩,
    ⟨0, (on [((.prtCfg 0), 31, 28, 2), ((.prtStatus 0), 31, 28, 1), ((.hpStatus 0), 31, 23, 208)]), by decide +kernel⟩,
    ⟨0, (on [((.prtCfg 0), 31, 28, 2), ((.prtStatus 0), 31, 28, 2), ((.hpStatus 0), 31, 23, 240)]), by decide +kernel⟩,
    ⟨0, 0, 0, true, (on [((.prtCfg 0), 31, 28, 1), ((.prtStatus 0), 31, 28, 3)]), by decide +kernel⟩,
    ⟨0, 0, 0, true, false, (on [((.prtCfg 0), 31, 28, 1), ((.prtStatus 0), 31, 28, 3)]), by decide +kernel⟩,
    ⟨0, 0, 0, true, on [], by decide +kernel⟩,
    ⟨0, (on [((.prtCfg 0), 31, 28, 1), ((.prtStatus 0), 31, 28, 3)]), by decide +kernel⟩,
    ⟨0, (on [((.prtCfg 0), 31, 28, 1), ((.prtStatus 0), 31, 28, 4)]), by decide +kernel⟩,
    ⟨0, (on [((.prtCfg 0), 31, 28, 1), ((.prtStatus 0), 31, 28, 4)]), by decide +kernel⟩,
    ⟨0, (tweak (on [((.prtCfg 0), 31, 28, 2), ((.prtStatus 0), 31, 28, 4)]) fun d => { d with port.recs := [(0, { PortRec.reset with readyOk := true })] }), by decide +kernel⟩,
    ⟨0, (on [((.prtCfg 0), 31, 28, 3), ((.prtStatus 0), 31, 28, 4)]), by decide +kernel⟩,
    ⟨1, 0, _, (tweak (on [((.prtCfg 1), 31, 28, 2), ((.prtStatus 1), 31, 28, 4)]) fun d => { d with pool.hubA.sets := [(0, oneSet)], pool.hubB.sets := [(0, oneSet)] }), by decide +kernel, by decide +kernel, some_of (by decide +kernel), by decide +kernel⟩,
    ⟨0, 0, (on [((.prtCfg 0), 31, 28, 1), ((.prtStatus 0), 31, 28, 5)]), by decide +kernel⟩,
    ⟨0, 128, (on [((.prtCfg 0), 31, 28, 1), ((.prtStatus 0), 31, 28, 5)]), by decide +kernel⟩,
    ⟨0, (on [((.prtCfg 0), 31, 28, 1), ((.prtStatus 0), 31, 28, 4)]), by decide +kernel⟩,
    ⟨0, 1, (on [((.prtCfg 1), 31, 28, 3), ((.prtStatus 1), 31, 28, 5)]), by decide +kernel⟩,
    ⟨0, 1, (on [((.prtCfg 1), 31, 28, 3), ((.prtStatus 1), 31, 28, 5)]), by decide +kernel⟩,
    ⟨0, (on [((.prtCfg 0), 31, 28, 1), ((.prtStatus 0), 31, 28, 4)]), by decide +kernel⟩,
    ⟨0, (on [((.prtCfg 0), 31, 28, 1), ((.prtStatus 0), 31, 28, 4)]), by decide +kernel⟩,
    ⟨0, (on [((.prtStatus 0), 10, 8, 1)]), by decide +kernel⟩,
    ⟨0, 0, 0, (on [((.prtCfg 0), 31, 28, 1), ((.prtStatus 0), 31, 28, 5), ((.prtStatus 0), 15, 15, 1)]), by decide +kernel⟩,
    ⟨0, 0, 0, (on [((.prtCfg 0), 31, 28, 3), ((.prtStatus 0), 31, 28, 5)]), by decide +kernel⟩⟩

/-- What the clauses of PortsAreTornDownAndSettle assume can be met. -/
theorem witness_PortsAreTornDownAndSettle :
    (∃ (p : Fin 64) (s : State), s.dev.portMode p = 3 ∧
      s.dev.portState p = 5 ∧
      (s.dev.prec p).removal = none) ∧
    (∃ (p : Fin 64) (s : State), (s.dev.portState p < 2 ∨ (8 ≤ s.dev.portState p ∧ (s.dev.portState p = 10 →
    s.dev.bitOf (.hpStatus p) 31 = false)))) ∧
    (∃ (p : Fin 64) (s : State), s.dev.portState p = 10 ∧
      s.dev.bitOf (.hpStatus p) 31 = true) ∧
    (∃ (p : Fin 64) (s : State), s.dev.portState p = 7 ∧
      s.dev.teardownDone p = true ∧
      (s.dev.prec p).removal = none ∧
      (s.dev.prec p).resetBy = none ∧
      ((s.dev.prec p).after = .settle ∨ (s.dev.prec p).after = .idle)) ∧
    (∃ (p : Fin 64) (s : State), s.dev.portState p = 7 ∧
      s.dev.teardownDone p = true ∧
      (s.dev.prec p).removal = none ∧
      (s.dev.prec p).resetBy = none ∧
      (s.dev.prec p).after = .quarantine) ∧
    (∃ (p : Fin 64) (n : Nat) (s : State), s.dev.portState p = 7 ∧
      s.dev.teardownDone p = true ∧
      (s.dev.prec p).removal = none ∧
      (s.dev.prec p).resetBy = none ∧
      (s.dev.prec p).after = .failed n) ∧
    (∃ (p : Fin 64) (s : State), s.dev.portState p = 7 ∧
      s.dev.teardownDone p = false) ∧
    (∃ (p : Fin 64) (s : State), s.dev.bitOf (.hpStatus p) 23 = true) ∧
    (∃ (p : Fin 64) (s : State), s.dev.chatters p = true ∧
      s.dev.portMode p = 3 ∧
      s.dev.portState p = 5 ∧
      (s.dev.prec p).removal = none) ∧
    (∃ (p : Fin 64) (s : State), (s.dev.portState p = 0 ∨ s.dev.portState p = 9 ∨ s.dev.bitOf .sbsCtl 31 = false ∨
    s.dev.bitOf .sbsStatus 31 = true ∨ (s.dev.prec p).edges.length ≤ 16)) ∧
    (∃ (p : Fin 64) (s : State), s.dev.powerFaulty p = false) ∧
    (∃ (p : Fin 64) (s : State), s.dev.powerFaulty p = true ∧
      s.dev.portMode p = 3 ∧
      s.dev.portState p = 5 ∧
      (s.dev.prec p).removal = none) ∧
    (∃ (p : Fin 64) (s : State), s.dev.powerFaulty p = true ∧
      s.dev.portState p = 1 ∧
      s.dev.mayStart p = true) ∧
    (∃ (p : Fin 64) (s : State), s.dev.portState p = 9) ∧
    (∃ (p : Fin 64) (s : State), s.dev.portState p = 10 ∧
      s.dev.bitOf (.hpStatus p) 25 = false) ∧
    (∃ (p : Fin 64) (s : State), s.dev.bitOf (.hpStatus p) 25 = true) ∧
    (∃ (p : Fin 64) (s : State), s.dev.portState p = 6 ∧
      s.dev.portMode p = 3 ∧
      s.dev.evacuated p = true ∧
      (∀ o ∈ s.dev.dir.expOps, o.port ≠ p.val) ∧
      s.dev.queuedFor (.port p) = false) ∧
    (∃ (path : Path) (input : List Byte) (s : State), s.dev.takesStoluo path 0xC030 ∧
      input.length = 4 ∧
      field input 0 1 < 64 ∧
      field input 1 3 = 0 ∧
      let p := field input 0 1
      (s.dev.prec p).removal = none ∧
      (s.dev.prec p).resetBy = none ∧
      s.dev.portMode p = 2 ∧
      s.dev.portState p = 5 ∧
      s.dev.removalPlan p = .atOnce) ∧
    (∃ (path : Path) (input : List Byte) (rc : Nat) (vendor : Nat) (s : State), s.dev.takesStoluo path 0xC030 ∧
      input.length = 4 ∧
      field input 0 1 < 64 ∧
      field input 1 3 = 0 ∧
      let p := field input 0 1
      (s.dev.prec p).removal = none ∧
      (s.dev.prec p).resetBy = none ∧
      s.dev.portMode p = 2 ∧
      s.dev.portState p = 5 ∧
      s.dev.removalPlan p = .refused rc vendor) ∧
    (∃ (path : Path) (input : List Byte) (s : State), s.dev.takesStoluo path 0xC031 ∧
      input.length = 4 ∧
      field input 0 1 < 64 ∧
      field input 1 3 = 0 ∧
      let p := field input 0 1
      (s.dev.prec p).held = true ∧
      s.dev.portState p = 1) ∧
    (∃ (path : Path) (input : List Byte) (s : State), s.dev.takesStoluo path 0xC031 ∧
      input.length = 4 ∧
      field input 0 1 < 64 ∧
      field input 1 3 = 0 ∧
      (s.dev.prec (field input 0 1)).held = false) :=
  ⟨⟨0, (on [((.prtCfg 0), 31, 28, 3), ((.prtStatus 0), 31, 28, 5)]), by decide +kernel⟩,
    ⟨0, on [], by decide +kernel⟩,
    ⟨0, (on [((.prtCfg 0), 31, 28, 2), ((.prtStatus 0), 31, 28, 10), ((.hpStatus 0), 31, 31, 1)]), by decide +kernel⟩,
    ⟨0, (on [((.prtCfg 0), 31, 28, 3), ((.prtStatus 0), 31, 28, 7)]), by decide +kernel⟩,
    ⟨0, (tweak (on [((.prtCfg 0), 31, 28, 3), ((.prtStatus 0), 31, 28, 7)]) fun d => { d with port.recs := [(0, { PortRec.reset with after := .quarantine })] }), by decide +kernel⟩,
    ⟨0, 1, (tweak (on [((.prtCfg 0), 31, 28, 3), ((.prtStatus 0), 31, 28, 7)]) fun d => { d with port.recs := [(0, { PortRec.reset with after := .failed 1 })] }), by decide +kernel⟩,
    ⟨0, (tweak (on [((.prtCfg 0), 31, 28, 3), ((.prtStatus 0), 31, 28, 7)]) fun d => { d with sw.msgs := [cell] }), by decide +kernel⟩,
    ⟨0, (on [((.hpStatus 0), 23, 23, 1)]), by decide +kernel⟩,
    ⟨0, (tweak (on [(.prtCfg 0, 31, 28, 3), (.prtStatus 0, 31, 28, 5), (.sbsCtl, 31, 31, 1)]) fun d => d.modPort 0 fun r => { r with edges := List.replicate 17 1 }), by decide +kernel⟩,
    ⟨0, on [], by decide +kernel⟩,
    ⟨0, on [], by decide +kernel⟩,
    ⟨0, (on [((.prtCfg 0), 31, 28, 3), ((.prtStatus 0), 31, 28, 5), (.sbsCtl, 31, 31, 1), ((.hpStatus 0), 27, 27, 1), ((.hpStatus 0), 28, 28, 0)]), by decide +kernel⟩,
    ⟨0, (on [((.prtCfg 0), 31, 28, 2), ((.prtStatus 0), 31, 28, 1), ((.hpStatus 0), 31, 31, 0), ((.hpStatus 0), 28, 28, 0), ((.hpStatus 0), 27, 27, 1), (.sbsCtl, 31, 31, 1)]), by decide +kernel⟩,
    ⟨0, (on [((.prtCfg 0), 31, 28, 2), ((.prtStatus 0), 31, 28, 9)]), by decide +kernel⟩,
    ⟨0, (on [((.prtCfg 0), 31, 28, 2), ((.prtStatus 0), 31, 28, 10)]), by decide +kernel⟩,
    ⟨0, (on [((.hpStatus 0), 25, 25, 1)]), by decide +kernel⟩,
    ⟨0, (on [((.prtCfg 0), 31, 28, 3), ((.prtStatus 0), 31, 28, 6)]), by decide +kernel, by decide +kernel, by decide +kernel, fun _ h => (by cases h), by decide +kernel⟩,
    ⟨.fm, zeros 4, (on [((.prtCfg 0), 31, 28, 2), ((.prtStatus 0), 31, 28, 5)]), sto (by decide +kernel), by decide +kernel⟩,
    ⟨.fm, [1, 0, 0, 0], rcConflict, 3, (tweak (on [((.prtCfg 1), 31, 28, 2), ((.prtStatus 1), 31, 28, 5)]) fun d => { d with pool.hubA.sets := [(0, oneSet)], pool.hubB.sets := [(0, oneSet)], pool.blocks := ⟨[(0, bound.withState 4)], [(0, bound.withState 4)]⟩ }), sto (by decide +kernel), by decide +kernel⟩,
    ⟨.fm, zeros 4, (tweak (on [((.prtCfg 0), 31, 28, 2), ((.prtStatus 0), 31, 28, 1)]) fun d => { d with port.recs := [(0, { PortRec.reset with held := true })] }), sto (by decide +kernel), by decide +kernel⟩,
    ⟨.fm, zeros 4, on [], sto (by decide +kernel), by decide +kernel⟩⟩

/-- What the clauses of TheSidebandChainIsScannedAndFiltered assume can be met. -/
theorem witness_TheSidebandChainIsScannedAndFiltered :
    (∃ (s : State), s.dev.bitOf .sbsCtl 31 = false) ∧
    (∃ (s : State), s.dev.bitOf .sbsCtl 31 = true ∧
      s.dev.bitOf .sbsStatus 31 = true) ∧
    (∃ (frame : BitVec 256) (s : State), s.dev.bitOf .sbsCtl 31 = true ∧
      s.dev.bitOf .sbsStatus 31 = false ∧
      8 < s.dev.presenceChanges frame) ∧
    (∃ (d : Dev) (p : Nat) (line : Nat) (level : Bool), level ≠ d.bitOf (.hpStatus p) (lineBit line) ∧
      ((d.prec p).runOf line) + 1 < 8 ∧
      (line = 0 ∨ line = 1 ∨ line = 3)) ∧
    (∃ (d : Dev) (p : Nat) (line : Nat) (level : Bool), p < 64 ∧
      level ≠ d.bitOf (.hpStatus p) (lineBit line) ∧
      ((d.prec p).runOf line) = 7 ∧
      (line = 0 ∨ line = 1 ∨ line = 3)) ∧
    (∃ (p : Fin 64) (s : State), s.dev.portMode p = 2) ∧
    (∃ (op : Nat) (o : ExpOp) (s : State), s.dev.sentOp op = some o ∧
      o.what = none ∧
      (s.dev.prec o.port).timeouts < 7) ∧
    (∃ (op : Nat) (o : ExpOp) (s : State), s.dev.sentOp op = some o ∧
      o.what.isSome = true ∧
      (s.dev.prec o.port).timeouts = 7) ∧
    (∃ (op : Nat) (s : State), (∀ o ∈ s.dev.dir.expOps, o.op ≠ op)) :=
  ⟨⟨on [], by decide +kernel⟩,
    ⟨(on [(.sbsCtl, 31, 31, 1), (.sbsStatus, 31, 31, 1)]), by decide +kernel⟩,
    ⟨BitVec.allOnes 256, (tweak (on [(.sbsCtl, 31, 31, 1), ((.prtCfg 0), 31, 28, 2), ((.prtCfg 1), 31, 28, 2), ((.prtCfg 2), 31, 28, 2), ((.prtCfg 3), 31, 28, 2), ((.prtCfg 4), 31, 28, 2), ((.prtCfg 5), 31, 28, 2), ((.prtCfg 6), 31, 28, 2), ((.prtCfg 7), 31, 28, 2), ((.prtCfg 8), 31, 28, 2)]) fun d => { d with port.scans := 8 }), by decide +kernel⟩,
    ⟨Dev.reset, 0, 0, true, by decide +kernel⟩,
    ⟨{ Dev.reset with port := ⟨[(0, { PortRec.reset with run := (7, 0, 0) })], 0⟩ }, 0, 0, true, by decide +kernel⟩,
    ⟨0, (on [((.prtCfg 0), 31, 28, 2), ((.prtStatus 0), 31, 28, 5)]), by decide +kernel⟩,
    ⟨0, _, (tweak (on []) fun d => { d with dir.expOps := [expR] }), some_of (by decide +kernel), by decide +kernel⟩,
    ⟨0, _, (tweak (on []) fun d => { d with dir.expOps := [expW], port.recs := [(1, { PortRec.reset with timeouts := 7 })] }), some_of (by decide +kernel), by decide +kernel⟩,
    ⟨0, on [], by decide +kernel⟩⟩

/-- What the clauses of LinksTrainInPhasesToActive assume can be met. -/
theorem witness_LinksTrainInPhasesToActive :
    (∃ (l : Fin 16) (s : State), s.dev.linkState l = 3 ∧
      (s.dev.lrec l).held = false ∧
      (s.dev.lrec l).tko = none) ∧
    (∃ (l : Fin 16) (locked : BitVec 4) (s : State), s.dev.linkState l = 1 ∧
      (s.dev.lrec l).phase = 1 ∧
      locked ≠ 0) ∧
    (∃ (l : Fin 16) (s : State), s.dev.linkState l = 1 ∧
      (s.dev.lrec l).phase = 1) ∧
    (∃ (l : Fin 16) (s : State), s.dev.linkState l = 2) ∧
    (∃ (l : Fin 16) (s : State), s.dev.linkState l = 1 ∧
      (s.dev.lrec l).phase = 2) ∧
    (∃ (l : Fin 16) (s : State), s.dev.linkState l = 1 ∧
      (s.dev.lrec l).phase = 3) ∧
    (∃ (l : Fin 16) (errors : List Nat) (peer : BitVec 4) (s : State), s.dev.linkState l = 1 ∧
      (s.dev.lrec l).phase = 4 ∧
      (s.dev.qualifying l (s.dev.lrec l).locked errors = 0 ∨ peer = 0)) ∧
    (∃ (l : Fin 16) (errors : List Nat) (peer : BitVec 4) (s : State), s.dev.linkState l = 1 ∧
      (s.dev.lrec l).phase = 4 ∧
      let q := s.dev.qualifying l (s.dev.lrec l).locked errors
      let tx := laneSetIn (s.dev.rd (.widthCtl l) 3 0 &&& peer.toNat &&& (15 ^^^ ((s.dev.lrec l).txShed &&& 15)))
      q ≠ 0 ∧
      peer ≠ 0 ∧
      tx ≠ 0) ∧
    (∃ (l : Fin 16) (lane : Fin 4) (request : Fin 8) (preset : Fin 8) (n : Nat × Nat × Nat) (s : State), (s.dev.linkState l = 1 ∨ s.dev.linkState l = 2) ∧
      request.val < 6 ∧
      requestedEq (s.dev.rd (.txeq l lane) 17 12, s.dev.rd (.txeq l lane) 11 6, s.dev.rd (.txeq l lane) 5 0) request preset = some n ∧
      eqOk n.1 n.2.1 n.2.2 = true) ∧
    (∃ (l : Fin 16) (lane : Fin 4) (request : Fin 8) (preset : Fin 8) (n : Nat × Nat × Nat) (s : State), (s.dev.linkState l = 1 ∨ s.dev.linkState l = 2) ∧
      request.val < 6 ∧
      requestedEq (s.dev.rd (.txeq l lane) 17 12, s.dev.rd (.txeq l lane) 11 6, s.dev.rd (.txeq l lane) 5 0) request preset = some n ∧
      eqOk n.1 n.2.1 n.2.2 = false) ∧
    (∃ (l : Fin 16) (dev : DeviceId) (link : Fin 16) (s : State), s.dev.linkState l = 1 ∧
      (s.dev.lrec l).phase = 5 ∧
      (dev.toNat ≠ s.dev.rd (.stlCfg l) 19 8 ∨ link.val ≠ s.dev.rd (.stlCfg l) 7 4)) ∧
    (∃ (l : Fin 16) (dev : DeviceId) (link : Fin 16) (s : State), s.dev.linkState l = 1 ∧
      (s.dev.lrec l).phase = 5 ∧
      dev.toNat = s.dev.rd (.stlCfg l) 19 8 ∧
      link.val = s.dev.rd (.stlCfg l) 7 4) ∧
    (∃ (l : Fin 16) (s : State), s.dev.linkState l = 1 ∧
      (s.dev.lrec l).phase = 5) :=
  ⟨⟨0, (on [((.stlStatus 0), 31, 28, 3)]), by decide +kernel⟩,
    ⟨0, 15, (tweak (on [((.stlStatus 0), 31, 28, 1)]) fun d => { d with link.recs := [(0, { LinkRec.reset with phase := 1 })] }), by decide +kernel⟩,
    ⟨0, (tweak (on [((.stlStatus 0), 31, 28, 1)]) fun d => { d with link.recs := [(0, { LinkRec.reset with phase := 1 })] }), by decide +kernel⟩,
    ⟨0, (on [((.stlStatus 0), 31, 28, 2)]), by decide +kernel⟩,
    ⟨0, (tweak (on [((.stlStatus 0), 31, 28, 1)]) fun d => { d with link.recs := [(0, { LinkRec.reset with phase := 2 })] }), by decide +kernel⟩,
    ⟨0, (tweak (on [((.stlStatus 0), 31, 28, 1)]) fun d => { d with link.recs := [(0, { LinkRec.reset with phase := 3 })] }), by decide +kernel⟩,
    ⟨0, [], 0, (tweak (on [((.stlStatus 0), 31, 28, 1)]) fun d => { d with link.recs := [(0, { LinkRec.reset with phase := 4 })] }), by decide +kernel⟩,
    ⟨0, [0, 0, 0, 0], 15, (tweak (on [((.stlStatus 0), 31, 28, 1), ((.widthCtl 0), 3, 0, 15)]) fun d => { d with link.recs := [(0, { LinkRec.reset with phase := 4, locked := 15 })] }), by decide +kernel⟩,
    ⟨0, 0, 1, 0, _, (on [((.stlStatus 0), 31, 28, 1)]), by decide +kernel, by decide +kernel, some_of (by decide +kernel), by decide +kernel⟩,
    ⟨0, 0, 2, 0, _, (on [((.stlStatus 0), 31, 28, 1), ((.txeq 0 0), 17, 12, 15), ((.txeq 0 0), 11, 6, 48), ((.txeq 0 0), 5, 0, 0)]), by decide +kernel, by decide +kernel, some_of (by decide +kernel), by decide +kernel⟩,
    ⟨0, 9, 0, (tweak (on [((.stlStatus 0), 31, 28, 1)]) fun d => { d with link.recs := [(0, { LinkRec.reset with phase := 5 })] }), by decide +kernel⟩,
    ⟨0, 0, 0, (tweak (on [((.stlStatus 0), 31, 28, 1), ((.stlCfg 0), 19, 4, 0)]) fun d => { d with link.recs := [(0, { LinkRec.reset with phase := 5 })] }), by decide +kernel⟩,
    ⟨0, (tweak (on [((.stlStatus 0), 31, 28, 1)]) fun d => { d with link.recs := [(0, { LinkRec.reset with phase := 5 })] }), by decide +kernel⟩⟩

/-- What the clauses of PacketsAreSentAcceptedAndReplayed assume can be met. -/
theorem witness_PacketsAreSentAcceptedAndReplayed :
    (∃ (l : Fin 16) (words : List Word) (c : MsgClass) (s : State), opClass (msgOp words) = some c ∧
      s.dev.linkState l = 2 ∧
      (s.dev.lrec l).residue = [] ∧
      s.dev.mayGo l (msgOp words) = true ∧
      s.dev.canSend l c (words.length + 1) = true) ∧
    (∃ (l : Fin 16) (words : List Word) (c : MsgClass) (s : State), opClass (msgOp words) = some c ∧
      s.dev.canSend l c (words.length + 1) = false) ∧
    (∃ (l : Fin 16) (words : List Word) (s : State), s.dev.linkState l = 2 ∧
      (s.dev.lrec l).frozen = false ∧
      (s.dev.lrec l).discarding = false ∧
      packetGood words = true ∧
      getBits (word words 0) 55 44 = s.dev.rd (.seqStatus l) 39 28 ∧
      packetCost words.length ≤ ((s.dev.lrec l).adv.get (codeClass (getBits (word words 0) 63 62)) + 2048 -
      (s.dev.lrec l).taken.get (codeClass (getBits (word words 0) 63 62))) % 2048) ∧
    (∃ (l : Fin 16) (words : List Word) (k : MsgClass) (s : State), s.dev.linkState l = 2 ∧
      (s.dev.lrec l).frozen = false ∧
      (s.dev.lrec l).discarding = false ∧
      packetGood words = true ∧
      getBits (word words 0) 55 44 = s.dev.rd (.seqStatus l) 39 28 ∧
      packetCost words.length ≤ ((s.dev.lrec l).adv.get (codeClass (getBits (word words 0) 63 62)) + 2048 -
      (s.dev.lrec l).taken.get (codeClass (getBits (word words 0) 63 62))) % 2048 ∧
      opClass (msgOp words.tail) = some k ∧
      s.dev.slotState (s.dev.linkSlot l) ≠ 2) ∧
    (∃ (l : Fin 16) (words : List Word) (s : State), s.dev.linkState l = 2 ∧
      (s.dev.lrec l).frozen = false ∧
      (s.dev.lrec l).discarding = false ∧
      packetGood words = false) ∧
    (∃ (l : Fin 16) (words : List Word) (s : State), s.dev.linkState l = 2 ∧
      (s.dev.lrec l).frozen = false ∧
      (s.dev.lrec l).discarding = false ∧
      packetGood words = true ∧
      2048 ≤ (getBits (word words 0) 55 44 + 4096 - s.dev.rd (.seqStatus l) 39 28) % 4096) ∧
    (∃ (l : Fin 16) (seq : BitVec 12) (e : Entry) (rest : List Entry) (s : State), s.dev.linkState l = 2 ∧
      (s.dev.lrec l).residue = [] ∧
      (s.dev.lrec l).entries = e :: rest ∧
      (seq.toNat + 4096 - e.seq) % 4096 ≤ rest.length) ∧
    (∃ (l : Fin 16) (s : State), s.dev.linkState l = 2 ∧
      ((s.dev.lrec l).sinceAck ≠ 0 ∨ (s.dev.lrec l).ackDue = true)) ∧
    (∃ (l : Fin 16) (seq : BitVec 12) (e : Entry) (s : State), s.dev.linkState l = 2 ∧
      ((s.dev.acknowledge l seq.toNat).1.lrec l).entries.head? = some e ∧
      (s.dev.acknowledge l seq.toNat).1.replayedLately l e.seq = false) ∧
    (∃ (l : Fin 16) (seq : BitVec 12) (e : Entry) (s : State), s.dev.linkState l = 2 ∧
      ((s.dev.acknowledge l seq.toNat).1.lrec l).entries.head? = some e ∧
      (s.dev.acknowledge l seq.toNat).1.replayedLately l e.seq = true) ∧
    (∃ (l : Fin 16) (s : State), s.dev.linkState l = 2) ∧
    (∃ (l : Fin 16) (s : State), s.dev.linkState l = 2 ∧
      (s.dev.lrec l).discarding = true) ∧
    (∃ (l : Fin 16) (e : Entry) (rest : List Entry) (s : State), s.dev.linkState l = 2 ∧
      (s.dev.lrec l).entries = e :: rest ∧
      (s.dev.lrec l).lastReplay = none ∧
      1 < s.dev.rd (.linkCtl l) 3 0) ∧
    (∃ (l : Fin 16) (s : State), s.dev.linkState l = 2 ∧
      (s.dev.lrec l).residue = []) ∧
    (∃ (l : Fin 16) (d : Dev), d.active l = true) ∧
    (∃ (l : Fin 16) (s : State), s.dev.linkState l = 2 ∧
      (s.dev.lrec l).blockErrs = [] ∧
      (s.dev.lrec l).discarding = false) :=
  ⟨⟨0, [BitVec.ofNat 64 (2 ^ 58), 0], .req, (tweak (on [((.stlStatus 0), 31, 28, 2)]) fun d => { d with link.recs := [(0, { LinkRec.reset with limit := ⟨100, 100, 100, 100⟩ })] }), by decide +kernel⟩,
    ⟨0, [BitVec.ofNat 64 (2 ^ 58), 0], .req, on [], by decide +kernel⟩,
    ⟨0, (packet .req 0 [BitVec.ofNat 64 (2 ^ 58), 0]), (tweak (on [((.stlStatus 0), 31, 28, 2)]) fun d => { d with link.recs := [(0, { LinkRec.reset with adv := ⟨100, 100, 100, 100⟩ })] }), by decide +kernel⟩,
    ⟨0, (packet .req 0 [BitVec.ofNat 64 (2 ^ 58), 0]), .req, (tweak (on [((.stlStatus 0), 31, 28, 2)]) fun d => { d with link.recs := [(0, { LinkRec.reset with adv := ⟨100, 100, 100, 100⟩ })] }), by decide +kernel⟩,
    ⟨0, [], (on [((.stlStatus 0), 31, 28, 2)]), by decide +kernel⟩,
    ⟨0, (packet .req 3000 [0, 0]), (on [((.stlStatus 0), 31, 28, 2)]), by decide +kernel⟩,
    ⟨0, 0, ⟨0, .req, []⟩, [], (tweak (on [((.stlStatus 0), 31, 28, 2)]) fun d => { d with link.recs := [(0, { LinkRec.reset with entries := [⟨0, .req, []⟩] })] }), by decide +kernel⟩,
    ⟨0, (tweak (on [((.stlStatus 0), 31, 28, 2)]) fun d => { d with link.recs := [(0, { LinkRec.reset with ackDue := true })] }), by decide +kernel⟩,
    ⟨0, 0, ⟨1, .req, []⟩, (tweak (on [((.stlStatus 0), 31, 28, 2)]) fun d => { d with link.recs := [(0, { LinkRec.reset with entries := [⟨0, .req, []⟩, ⟨1, .req, []⟩] })] }), by decide +kernel⟩,
    ⟨0, 5, ⟨0, .req, []⟩, (tweak (on [((.stlStatus 0), 31, 28, 2), ((.linkCtl 0), 11, 4, 1)]) fun d => { d with link.recs := [(0, { LinkRec.reset with entries := [⟨0, .req, []⟩], lastReplay := some (0, 0) })] }), by decide +kernel⟩,
    ⟨0, (on [((.stlStatus 0), 31, 28, 2)]), by decide +kernel⟩,
    ⟨0, (tweak (on [((.stlStatus 0), 31, 28, 2)]) fun d => { d with link.recs := [(0, { LinkRec.reset with discarding := true })] }), by decide +kernel⟩,
    ⟨0, ⟨0, .req, []⟩, [], (tweak (on [((.stlStatus 0), 31, 28, 2), ((.linkCtl 0), 3, 0, 4)]) fun d => { d with link.recs := [(0, { LinkRec.reset with entries := [⟨0, .req, []⟩] })] }), by decide +kernel⟩,
    ⟨0, (on [((.stlStatus 0), 31, 28, 2)]), by decide +kernel⟩,
    ⟨0, (on [((.stlStatus 0), 31, 28, 2)]).dev, by decide +kernel⟩,
    ⟨0, (on [((.stlStatus 0), 31, 28, 2)]), by decide +kernel⟩⟩

/-- What the clauses of WidthFollowsItsMasksAndDeadLinksAreTakenOver assume can be met. -/
theorem witness_WidthFollowsItsMasksAndDeadLinksAreTakenOver :
    (∃ (l : Fin 16) (mask : BitVec 4) (s : State), s.dev.linkState l = 2 ∧
      let want := laneSetIn (s.dev.rd (.widthCtl l) 3 0 &&& mask.toNat &&& (15 ^^^ ((s.dev.lrec l).txShed &&& 15)))
      want ≠ 0 ∧
      want ≠ s.dev.txMask l ∧
      want &&& s.dev.txMask l = want) ∧
    (∃ (l : Fin 16) (mask : BitVec 4) (s : State), s.dev.linkState l = 2 ∧
      laneSets.contains mask.toNat = true) ∧
    (∃ (l : Fin 16) (lanes : BitVec 4) (s : State), s.dev.linkState l = 2 ∧
      laneSets.contains lanes.toNat = true) ∧
    (∃ (l : Fin 16) (mask : BitVec 4) (s : State), s.dev.linkState l = 2 ∧
      (s.dev.lrec l).adding &&& mask.toNat ≠ 0 ∧
      let want := laneSetIn (s.dev.permitted l &&& (s.dev.txMask l ||| ((s.dev.lrec l).adding &&& mask.toNat)))
      want ≠ 0 ∧
      want ≠ s.dev.txMask l) ∧
    (∃ (l : Fin 16) (s : State), s.dev.linkState l ≠ 2) ∧
    (∃ (l : Fin 16) (lane : Fin 4) (s : State), s.dev.linkState l = 2 ∧
      bit (s.dev.lrec l).rxShed lane = false ∧
      laneSetIn ((s.dev.lrec l).ownMask &&& (15 ^^^ 2 ^ lane.val)) ≠ 0) ∧
    (∃ (l : Fin 16) (target : BitVec 4) (s : State), laneSets.contains target.toNat = true ∧
      s.dev.linkState l ≠ 2) ∧
    (∃ (target : BitVec 4), laneSets.contains target.toNat = false) ∧
    (∃ (l : Fin 16) (reason : Fin 16) (c : Nat) (s : State), s.dev.linkState l = 2 ∧
      (s.dev.linkStops l reason).lowestActive (s.dev.linkSlot l) = some c) ∧
    (∃ (l : Fin 16) (reason : Fin 16) (s : State), s.dev.linkState l = 2 ∧
      (s.dev.linkStops l reason).lowestActive (s.dev.linkSlot l) = none) ∧
    (∃ (carrier : Fin 16) (dead : Fin 16) (l : Nat) (s : State), s.dev.linkByPeer carrier dead = some l ∧
      s.dev.linkState carrier = 2) ∧
    (∃ (carrier : Fin 16) (dead : Fin 16) (l : Nat) (k : Takeover) (s : State), s.dev.linkByPeer carrier dead = some l ∧
      s.dev.linkState carrier = 2 ∧
      s.dev.linkState l = 3 ∧
      (s.dev.lrec l).tko = some k ∧
      k.peerSeen = true) ∧
    (∃ (l : Fin 16) (k : Takeover) (s : State), (s.dev.lrec l).tko = some k ∧
      k.peerSeen = false) ∧
    (∃ (l : Fin 16) (s : State), (s.dev.linkState l = 1 ∨ s.dev.linkState l = 3 ∨ s.dev.linkState l = 4)) ∧
    (∃ (l : Fin 16) (s : State), (s.dev.linkState l = 0 ∨ s.dev.linkState l = 5)) ∧
    (∃ (l : Fin 16) (s : State), (s.dev.linkState l = 3 ∨ s.dev.linkState l = 4) ∧
      (s.dev.lrec l).tko = none) ∧
    (∃ (path : Path) (input : List Byte) (s : State), s.dev.takesStoluo path 0xC032 ∧
      s.dev.linkMode (field input 0 1) = 1) ∧
    (∃ (path : Path) (input : List Byte) (s : State), s.dev.takesStoluo path 0xC032 ∧
      s.dev.linkMode (field input 0 1) ≠ 1 ∧
      linkSetInput input 0 = true) :=
  ⟨⟨0, 3, (on [((.stlStatus 0), 31, 28, 2), ((.widthCtl 0), 3, 0, 15), ((.stlStatus 0), 23, 20, 15)]), by decide +kernel⟩,
    ⟨0, 15, (on [((.stlStatus 0), 31, 28, 2)]), by decide +kernel⟩,
    ⟨0, 15, (on [((.stlStatus 0), 31, 28, 2)]), by decide +kernel⟩,
    ⟨0, 12, (tweak (on [((.stlStatus 0), 31, 28, 2), ((.widthCtl 0), 3, 0, 15), ((.stlStatus 0), 23, 20, 3)]) fun d => { d with link.recs := [(0, { LinkRec.reset with adding := 12 })] }), by decide +kernel⟩,
    ⟨0, on [], by decide +kernel⟩,
    ⟨0, 0, (on [((.stlStatus 0), 31, 28, 2)]), by decide +kernel⟩,
    ⟨0, 15, (on [((.stlStatus 0), 31, 28, 3)]), by decide +kernel⟩,
    ⟨0, by decide +kernel⟩,
    ⟨0, 0, 1, (on [((.stlCfg 0), 23, 20, 0), ((.stlCfg 1), 23, 20, 0), ((.nbr 0), 63, 60, 13), ((.nbr 0), 31, 16, 3), ((.nbr 0), 42, 32, 5), ((.stlStatus 0), 31, 28, 2), ((.stlStatus 1), 31, 28, 2)]), by decide +kernel⟩,
    ⟨0, 0, (on [((.stlCfg 0), 23, 20, 0), ((.stlCfg 1), 23, 20, 0), ((.nbr 0), 63, 60, 13), ((.nbr 0), 31, 16, 3), ((.nbr 0), 42, 32, 5), ((.stlStatus 0), 31, 28, 2)]), by decide +kernel⟩,
    ⟨0, 1, 1, (on [((.stlCfg 0), 23, 20, 0), ((.stlCfg 1), 23, 20, 0), ((.nbr 0), 63, 60, 13), ((.nbr 0), 31, 16, 3), ((.nbr 0), 42, 32, 5), ((.stlStatus 0), 31, 28, 2), ((.stlCfg 1), 7, 4, 1)]), by decide +kernel⟩,
    ⟨0, 1, 1, ⟨1, 0, 0, true⟩, (tweak (on [((.stlCfg 0), 23, 20, 0), ((.stlCfg 1), 23, 20, 0), ((.nbr 0), 63, 60, 13), ((.nbr 0), 31, 16, 3), ((.nbr 0), 42, 32, 5), ((.stlStatus 0), 31, 28, 2), ((.stlCfg 1), 7, 4, 1), ((.stlStatus 1), 31, 28, 3)]) fun d => { d with link.recs := [(1, { LinkRec.reset with tko := some ⟨1, 0, 0, true⟩ })] }), by decide +kernel⟩,
    ⟨0, ⟨1, 0, 0, false⟩, (tweak (on [((.stlStatus 0), 31, 28, 3)]) fun d => { d with link.recs := [(0, { LinkRec.reset with tko := some ⟨1, 0, 0, false⟩ })] }), by decide +kernel⟩,
    ⟨0, (on [((.stlStatus 0), 31, 28, 3)]), by decide +kernel⟩,
    ⟨0, on [], by decide +kernel⟩,
    ⟨0, (on [((.stlStatus 0), 31, 28, 3)]), by decide +kernel⟩,
    ⟨.fm, zeros 4, (on [((.stlCfg 0), 31, 30, 1)]), sto (by decide +kernel), by decide +kernel⟩,
    ⟨.fm, zeros 4, on [], sto (by decide +kernel), by decide +kernel⟩⟩

/-- What the clauses of TollsCarryTimeAndTellDeaths assume can be met. -/
theorem witness_TollsCarryTimeAndTellDeaths :
    (∃ (l : Fin 16) (s : State), s.dev.active l = false) ∧
    (∃ (l : Fin 16) (words : List Word) (n : Fin 16) (s : State), s.dev.active l = true ∧
      s.dev.linkSlot l = n.val ∧
      getBits (word words 5) 52 52 ≠ s.dev.rd .fabCfg 31 31) ∧
    (∃ (l : Fin 16) (words : List Word) (n : Fin 16) (s : State), s.dev.active l = true ∧
      s.dev.linkSlot l = n.val ∧
      getBits (word words 5) 52 52 = s.dev.rd .fabCfg 31 31 ∧
      getBits (word words 5) 53 53 = 1 ∧
      getBits (word words 5) 51 51 = 0 ∧
      s.dev.slotState n = 1) ∧
    (∃ (l : Fin 16) (words : List Word) (n : Fin 16) (s : State), s.dev.active l = true ∧
      s.dev.linkSlot l = n.val ∧
      getBits (word words 5) 52 52 = s.dev.rd .fabCfg 31 31 ∧
      getBits (word words 5) 53 53 = 0 ∧
      getBits (word words 5) 51 51 = 0 ∧
      tget s.dev.fab.rejoins n.val = none ∧
      s.dev.bitOf .fabCfg 30 = false ∧
      n.val = s.dev.rd .fabCfg 23 20 ∧
      s.dev.slotState n = 1 ∧
      getBits (word words 5) 59 59 = 1 ∧
      word words 3 ≠ 0 ∧
      (tgetD s.dev.fab.tollTx l.val []).contains (word words 3).toNat = true ∧
      s.dev.now ≤ (word words 3).toNat + 4 * (s.dev.rd .tollCtl 15 0 * 1000)) ∧
    (∃ (l : Fin 16) (words : List Word) (n : Fin 16) (r : Rejoin) (s : State), s.dev.active l = true ∧
      s.dev.linkSlot l = n.val ∧
      getBits (word words 5) 52 52 = s.dev.rd .fabCfg 31 31 ∧
      getBits (word words 5) 51 51 = 1 ∧
      s.dev.slotState n = 2 ∧
      tget s.dev.fab.rejoins n.val = some r ∧
      r.fresh = false ∧
      r.count + 1 < s.dev.rd .tollCtl 23 16) ∧
    (∃ (l : Fin 16) (words : List Word) (n : Fin 16) (r : Rejoin) (s : State), s.dev.active l = true ∧
      s.dev.linkSlot l = n.val ∧
      getBits (word words 5) 52 52 = s.dev.rd .fabCfg 31 31 ∧
      getBits (word words 5) 51 51 = 1 ∧
      s.dev.slotState n = 2 ∧
      tget s.dev.fab.rejoins n.val = some r ∧
      r.fresh = false ∧
      s.dev.rd .tollCtl 23 16 ≤ r.count + 1) ∧
    (∃ (n : Fin 16) (s : State), s.dev.slotState n = 1) ∧
    (∃ (n : Fin 16) (s : State), s.dev.slotState n ≠ 1) :=
  ⟨⟨0, on [], by decide +kernel⟩,
    ⟨0, [0, 0, 0, 0, 0, BitVec.ofNat 64 (2 ^ 52)], 0, (on [((.stlCfg 0), 23, 20, 0), ((.stlCfg 1), 23, 20, 0), ((.nbr 0), 63, 60, 13), ((.nbr 0), 31, 16, 3), ((.nbr 0), 42, 32, 5), ((.stlStatus 0), 31, 28, 2)]), by decide +kernel⟩,
    ⟨0, [0, 0, 0, 0, 0, BitVec.ofNat 64 (2 ^ 53)], 0, (on [((.stlCfg 0), 23, 20, 0), ((.stlCfg 1), 23, 20, 0), ((.nbr 0), 63, 60, 13), ((.nbr 0), 31, 16, 3), ((.nbr 0), 42, 32, 5), ((.stlStatus 0), 31, 28, 2)]), by decide +kernel⟩,
    ⟨0, [0, 0, 0, 7, 0, BitVec.ofNat 64 (2 ^ 59)], 0, (tweak (on [((.stlCfg 0), 23, 20, 0), ((.stlCfg 1), 23, 20, 0), ((.nbr 0), 63, 60, 13), ((.nbr 0), 31, 16, 3), ((.nbr 0), 42, 32, 5), ((.stlStatus 0), 31, 28, 2), (.fabCfg, 23, 20, 0)]) fun d => { d with fab.tollTx := [(0, [7])] }), by decide +kernel⟩,
    ⟨0, [0, 0, 0, 0, 0, BitVec.ofNat 64 (2 ^ 51)], 0, ⟨0, false, 0, false⟩, (tweak (on [((.stlCfg 0), 23, 20, 0), ((.stlCfg 1), 23, 20, 0), ((.nbr 0), 63, 60, 13), ((.nbr 0), 31, 16, 3), ((.nbr 0), 42, 32, 5), ((.stlStatus 0), 31, 28, 2), ((.nbr 0), 61, 60, 2), (.tollCtl, 23, 16, 3)]) fun d => { d with fab.rejoins := [(0, ⟨0, false, 0, false⟩)] }), by decide +kernel⟩,
    ⟨0, [0, 0, 0, 0, 0, BitVec.ofNat 64 (2 ^ 51)], 0, ⟨2, false, 0, false⟩, (tweak (on [((.stlCfg 0), 23, 20, 0), ((.stlCfg 1), 23, 20, 0), ((.nbr 0), 63, 60, 13), ((.nbr 0), 31, 16, 3), ((.nbr 0), 42, 32, 5), ((.stlStatus 0), 31, 28, 2), ((.nbr 0), 61, 60, 2), (.tollCtl, 23, 16, 3)]) fun d => { d with fab.rejoins := [(0, ⟨2, false, 0, false⟩)] }), by decide +kernel⟩,
    ⟨0, (on [((.stlCfg 0), 23, 20, 0), ((.stlCfg 1), 23, 20, 0), ((.nbr 0), 63, 60, 13), ((.nbr 0), 31, 16, 3), ((.nbr 0), 42, 32, 5), ((.stlStatus 0), 31, 28, 2)]), by decide +kernel⟩,
    ⟨0, on [], by decide +kernel⟩⟩

/-- What the clauses of KnellsRoutesAndRejoinsFollowTheirTables assume can be met. -/
theorem witness_KnellsRoutesAndRejoinsFollowTheirTables :
    (∃ (words : List Word) (k : Nat × Nat × Nat) (s : State), k ∈ s.dev.fab.knells ∧
      k.1 = msgSrc words ∧
      k.2.1 = getBits (word words 2) 37 30 ∧
      s.dev.now ≤ k.2.2 + 1000000) ∧
    (∃ (words : List Word) (s : State), (∀ k ∈ s.dev.fab.knells, k.1 = msgSrc words → k.2.1 = getBits (word words 2) 37 30 → k.2.2 + 1000000 < s.dev.now) ∧
      getBits (word words 2) 63 62 ≠ 1) ∧
    (∃ (words : List Word) (n : Fin 16) (s : State), (∀ k ∈ s.dev.fab.knells, k.1 = msgSrc words → k.2.1 = getBits (word words 2) 37 30 → k.2.2 + 1000000 < s.dev.now) ∧
      getBits (word words 2) 63 62 = 1 ∧
      s.dev.slotState n = 1 ∧
      let subj := getBits (word words 2) 61 51
      s.dev.slotOf (if subj = s.dev.devId then msgSrc words else subj) = some n.val) ∧
    (∃ (words : List Word) (s : State), msgDst words = s.dev.devId) ∧
    (∃ (l : Fin 16) (words : List Word) (n : Nat) (out : Nat) (s : State), msgDst words ≠ s.dev.devId ∧
      s.dev.routeSlot words = some n ∧
      n ≠ s.dev.linkSlot l ∧
      s.dev.linkFor n words = some out) ∧
    (∃ (l : Fin 16) (words : List Word) (s : State), msgDst words ≠ s.dev.devId ∧
      (s.dev.routeSlot words = none ∨ s.dev.routeSlot words = some (s.dev.linkSlot l))) ∧
    (∃ (path : Path) (dst : BitVec 16) (image : BitVec 32) (s : State), s.dev.takesStoluo path 0xC038 ∧
      dst.toNat < 2048 ∧
      image.toNat % 2 ^ 16 = 0 ∧
      image.toNat / 2 ^ 24 % 64 = 0 ∧
      s.dev.routeOk dst.toNat (BitVec.ofNat 64 image.toNat) = true) ∧
    (∃ (path : Path) (input : List Byte) (s : State), s.dev.takesStoluo path 0xC038 ∧
      field input 0 2 = 1 ∧
      input.length = 12 ∧
      field input 2 2 = 0 ∧
      field input 6 2 = 0 ∧
      (field input 4 2) < 2048 ∧
      BitVec.ofNat 64 (field input 8 4) &&& (Reg.route 0).mask = BitVec.ofNat 64 (field input 8 4) ∧
      s.dev.routeOk (field input 4 2) (BitVec.ofNat 64 (field input 8 4)) = false) ∧
    (∃ (path : Path) (n : Fin 16) (s : State), s.dev.takesStoluo path 0xC039 ∧
      s.dev.slotState n = 2 ∧
      (s.dev.lowestActive n).isSome = true ∧
      s.dev.sweepsOver (.slot n) = true) ∧
    (∃ (path : Path) (n : Fin 16) (s : State), s.dev.takesStoluo path 0xC039 ∧
      (s.dev.slotState n ≠ 2 ∨ (s.dev.lowestActive n).isSome = false ∨ s.dev.sweepsOver (.slot n) = false)) :=
  ⟨⟨[], (0, 0, 0), (tweak (on []) fun d => { d with fab.knells := [(0, 0, 0)] }), by decide +kernel⟩,
    ⟨[], on [], by decide +kernel⟩,
    ⟨[0, 0, BitVec.ofNat 64 (2 ^ 62 + 5 * 2 ^ 51)], 0, (on [((.stlCfg 0), 23, 20, 0), ((.stlCfg 1), 23, 20, 0), ((.nbr 0), 63, 60, 13), ((.nbr 0), 31, 16, 3), ((.nbr 0), 42, 32, 5), ((.stlStatus 0), 31, 28, 2), (.fabCfg, 10, 0, 1)]), fun _ h => (by cases h), by decide +kernel⟩,
    ⟨[], on [], by decide +kernel⟩,
    ⟨2, [BitVec.ofNat 64 (2 ^ 58 + 5 * 2 ^ 36), 0], 0, 0, (on [((.stlCfg 0), 23, 20, 0), ((.stlCfg 1), 23, 20, 0), ((.nbr 0), 63, 60, 13), ((.nbr 0), 31, 16, 3), ((.nbr 0), 42, 32, 5), ((.stlStatus 0), 31, 28, 2), ((.stlCfg 2), 23, 20, 1), (.fabCfg, 10, 0, 1)]), by decide +kernel⟩,
    ⟨0, [BitVec.ofNat 64 (2 ^ 58 + 9 * 2 ^ 36), 0], (on [(.fabCfg, 10, 0, 1)]), by decide +kernel⟩,
    ⟨.fm, 0, 0, on [], sto (by decide +kernel), by decide +kernel⟩,
    ⟨.fm, (toBytes 2 1 ++ [0, 0, 9, 0, 0, 0] ++ toBytes 4 (2 ^ 31)), (on [(.fabCfg, 10, 0, 1)]), sto (by decide +kernel), by decide +kernel⟩,
    ⟨.fm, 0, (on [((.stlCfg 0), 23, 20, 0), ((.stlCfg 1), 23, 20, 0), ((.nbr 0), 63, 60, 13), ((.nbr 0), 31, 16, 3), ((.nbr 0), 42, 32, 5), ((.stlStatus 0), 31, 28, 2), ((.nbr 0), 61, 60, 2)]), sto (by decide +kernel), by decide +kernel⟩,
    ⟨.fm, 0, on [], sto (by decide +kernel), by decide +kernel⟩⟩

/-- What the clauses of ManagementPathsTakeAndAnswer assume can be met. -/
theorem witness_ManagementPathsTakeAndAnswer :
    (∃ (m : Fin 65) (s : State), s.dev.bitOf (.mbxCtl m) 0 = false ∧
      s.dev.aoOnly = false ∧
      s.dev.domState domMgt ≤ 2) ∧
    (∃ (m : Fin 65) (s : State), s.dev.bitOf (.mbxCtl m) 0 = false ∧
      s.dev.aoOnly = false ∧
      s.dev.domState domMgt ≤ 2 ∧
      s.dev.rd (.mbxCmd m) 36 16 ≤ 4096 ∧
      ¬(0xC000 ≤ s.dev.rd (.mbxCmd m) 15 0 ∧ s.dev.rd (.mbxCmd m) 15 0 ≤ 0xCFFF ∧
      cmdClass (s.dev.rd (.mbxCmd m) 15 0) = none)) ∧
    (∃ (m : Fin 65) (s : State), s.dev.bitOf (.mbxCtl m) 0 = false ∧
      s.dev.aoOnly = false ∧
      s.dev.domState domMgt = 0 ∧
      4096 < s.dev.rd (.mbxCmd m) 36 16 ∧
      s.dev.serves (if h : m.val < 64 then .pool ⟨m.val, h⟩ else .fm) (s.dev.rd (.mbxCmd m) 15 0) = true) ∧
    (∃ (m : Fin 65) (s : State), (s.dev.bitOf (.mbxCtl m) 0 = true ∨ s.dev.aoOnly = true ∨ 2 < s.dev.domState domMgt)) ∧
    (∃ (eid : Nat) (cci : Bool) (opcode : BitVec 16) (length : Nat) (s : State), s.dev.busUp = true ∧
      s.dev.serves (.mctp eid) opcode.toNat = true ∧
      (eid, if cci then 1 else 0) ∉ s.dev.mgmt.mctpBusy ∧
      mctpType opcode.toNat = (if cci then 1 else 0) ∧
      length ≤ 4096 ∧
      (cci = true → (cmdClass opcode.toNat).isSome = true ∨ 0xCFFF < opcode.toNat) ∧
      s.dev.domState domMgt = 0) ∧
    (∃ (eid : Nat) (cci : Bool) (opcode : BitVec 16) (s : State), s.dev.busUp = true ∧
      s.dev.serves (.mctp eid) opcode.toNat = true ∧
      (eid, if cci then 1 else 0) ∈ s.dev.mgmt.mctpBusy ∧
      s.dev.domState domMgt = 0) ∧
    (∃ (eid : Nat) (cci : Bool) (opcode : BitVec 16) (length : Nat) (s : State), s.dev.busUp = true ∧
      s.dev.mctpServed opcode.toNat = true ∧
      (eid, if cci then 1 else 0) ∉ s.dev.mgmt.mctpBusy ∧
      mctpType opcode.toNat = (if cci then 1 else 0) ∧
      length ≤ 4096 ∧
      (cci = true → (cmdClass opcode.toNat).isSome = true ∨ 0xCFFF < opcode.toNat)) ∧
    (∃ (eid : Nat) (cci : Bool) (opcode : BitVec 16) (length : Nat) (rc : Nat) (s : State), s.dev.busUp = true ∧
      s.dev.mctpServed opcode.toNat = true ∧
      (((eid, if cci then 1 else 0) ∈ s.dev.mgmt.mctpBusy ∧ rc = 4) ∨
      ((eid, if cci then 1 else 0) ∉ s.dev.mgmt.mctpBusy ∧ mctpType opcode.toNat ≠ (if cci then 1 else 0) ∧ rc = 3) ∨
      ((eid, if cci then 1 else 0) ∉ s.dev.mgmt.mctpBusy ∧ mctpType opcode.toNat = (if cci then 1 else 0) ∧
        (4096 < length ∧ rc = 2 ∨ length ≤ 4096 ∧ 0xC000 ≤ opcode.toNat ∧ opcode.toNat ≤ 0xCFFF ∧ cmdClass opcode.toNat = none ∧ rc = 3)))) ∧
    (∃ (opcode : BitVec 16) (s : State), (s.dev.busUp = false ∨ s.dev.mctpServed opcode.toNat = false)) ∧
    (∃ (s : State), s.dev.busUp = true ∧
      s.dev.mgmt.fwUp = true ∧
      s.dev.mgmt.warmHeld = false ∧
      s.dev.domState domMgt ≤ 3) ∧
    (∃ (s : State), (s.dev.busUp = false ∨ s.dev.mgmt.fwUp = false ∨ s.dev.mgmt.warmHeld = true ∨ 3 < s.dev.domState domMgt)) ∧
    (∃ (s : State), s.dev.busUp = true ∧
      s.dev.mgmt.i3cBus = true) ∧
    (∃ (s : State), s.dev.busUp = true ∧
      s.dev.mgmt.i3cBus = true ∧
      s.dev.mgmt.fwUp = true) ∧
    (∃ (bridge : Bool) (s : State), (s.dev.mgmt.i3cBus = false ∨ s.dev.busUp = false ∨ (bridge = false ∧ s.dev.mgmt.fwUp = false))) ∧
    (∃ (path : Path) (b : BgOp) (rc : Nat) (vendor : Nat) (s : State), tget s.dev.mgmt.bg path = some b ∧
      b.result = some (rc, vendor) ∧
      s.dev.serves path 0 = true ∧
      s.dev.inWindow = false ∧
      (∀ what p, s.dev.sec.zeroize = some (what, p) → p ≠ path ∨ what = 0)) ∧
    (∃ (path : Path) (s : State), ((∀ b, tget s.dev.mgmt.bg path = some b → b.result = none) ∨ s.dev.serves path 0 = false ∨ s.dev.inWindow = true)) ∧
    (∃ (path : Path) (what : Nat) (b : BgOp) (r : Nat × Nat) (s : State), tget s.dev.mgmt.bg path = some b ∧
      b.result = some r ∧
      s.dev.serves path 0 = true ∧
      s.dev.inWindow = false ∧
      s.dev.sec.zeroize = some (what, path) ∧
      what ≠ 0) :=
  ⟨⟨0, on [], by decide +kernel⟩,
    ⟨0, on [], by decide +kernel⟩,
    ⟨0, (on [((.mbxCmd 0), 36, 16, 5000)]), by decide +kernel⟩,
    ⟨0, (on [((.mbxCtl 0), 0, 0, 1)]), by decide +kernel⟩,
    ⟨0, false, 0, 0, (on [((.rail 4), 62, 62, 1), ((.domStatus 1), 31, 26, 0)]), four (by decide +kernel) ⟨by decide +kernel, fun h => (by cases h), by decide +kernel⟩⟩,
    ⟨0, true, 0, (tweak (on [((.rail 4), 62, 62, 1), ((.domStatus 1), 31, 26, 0)]) fun d => { d with mgmt.mctpBusy := [(0, 1)] }), by decide +kernel⟩,
    ⟨0, true, 0xD000, 0, (on [((.rail 4), 63, 62, 3)]), by decide +kernel⟩,
    ⟨0, true, 0, 0, 3, (on [((.rail 4), 63, 62, 3)]), by decide +kernel⟩,
    ⟨0, on [], by decide +kernel⟩,
    ⟨(on [((.rail 4), 62, 62, 1), ((.domStatus 1), 31, 26, 0)]), by decide +kernel⟩,
    ⟨on [], by decide +kernel⟩,
    ⟨(tweak (on [((.rail 4), 62, 62, 1), ((.domStatus 1), 31, 26, 0)]) fun d => { d with mgmt.i3cBus := true }), by decide +kernel⟩,
    ⟨(tweak (on [((.rail 4), 62, 62, 1), ((.domStatus 1), 31, 26, 0)]) fun d => { d with mgmt.i3cBus := true }), by decide +kernel⟩,
    ⟨true, on [], by decide +kernel⟩,
    ⟨.fm, ⟨1, some (0, 0)⟩, 0, 0, (tweak (on []) fun d => { d with mgmt.bg := [(.fm, ⟨1, some (0, 0)⟩)] }), by decide +kernel, by decide +kernel, by decide +kernel, by decide +kernel, fun _ _ h => (by cases h)⟩,
    ⟨.fm, on [], by decide +kernel⟩,
    ⟨.fm, 1, ⟨1, some (0, 0)⟩, (0, 0), (tweak (on []) fun d => { d with mgmt.bg := [(.fm, ⟨1, some (0, 0)⟩)], sec.zeroize := some (1, .fm) }), by decide +kernel⟩⟩

/-- What the clauses of InformationRegistersAndLogsAreRead assume can be met. -/
theorem witness_InformationRegistersAndLogsAreRead :
    (∃ (path : Path) (s : State), s.dev.takesStoluo path 0xC000) ∧
    (∃ (path : Path) (input : List Byte) (s : State), s.dev.takesStoluo path 0xC000 ∧
      input ≠ []) ∧
    (∃ (path : Path) (input : List Byte) (d1 : Dev) (d2 : Dev) (v : Word) (s : State), s.dev.takesStoluo path 0xC001 ∧
      regReadForm input = true ∧
      s.dev.regCheckAs .firmware (some (s.dev.regReader path)) (field input 0 4) (field input 4 1) false = (.ok, d1) ∧
      d1.regRead .firmware (field input 0 4) (field input 4 1) = (v, d2)) ∧
    (∃ (path : Path) (input : List Byte) (d1 : Dev) (s : State), s.dev.takesStoluo path 0xC001 ∧
      regReadForm input = true ∧
      s.dev.regCheckAs .firmware (some (s.dev.regReader path)) (field input 0 4) (field input 4 1) false = (.denied, d1)) ∧
    (∃ (path : Path) (start : Nat) (count : Nat) (s : State), s.dev.takesStoluo path 0xC040 ∧
      start < 2 ^ 32 ∧
      1 ≤ count ∧
      count ≤ 127) ∧
    (∃ (path : Path) (s : State), s.dev.takesStoluo path 0xC041 ∧
      s.dev.dir.lostLog.seq < 2 ^ 32 ∧
      1 ≤ s.dev.dir.lostLog.seq) ∧
    (∃ (path : Path) (s : State), s.dev.takesStoluo path 0xC041 ∧
      s.dev.flt.log.seq < 2 ^ 32 ∧
      1 ≤ s.dev.flt.log.seq) ∧
    (∃ (path : Path) (s : State), s.dev.takesStoluo path 0xC041 ∧
      s.dev.fab.log.seq < 2 ^ 32 ∧
      1 ≤ s.dev.fab.log.seq) ∧
    (∃ (path : Path) (id : Fin 3) (last : Nat) (s : State), s.dev.takesStoluo path 0xC041 ∧
      last < 2 ^ 32 ∧
      (last + 1) % 2 ^ 32 ≠ (s.dev.logOf id).2.1) :=
  ⟨⟨.fm, on [], sto (by decide +kernel)⟩,
    ⟨.fm, [0], on [], sto (by decide +kernel), by decide +kernel⟩,
    ⟨.fm, (toBytes 4 0x10004 ++ [4, 0, 0, 0]), _, _, _, on [], sto (by decide +kernel), by decide +kernel, pair_of (by decide +kernel), rfl⟩,
    ⟨.fm, (toBytes 4 0x10004 ++ [4, 0, 0, 0]), _, (on [((.rCtl 256), 30, 30, 0)]), sto (by decide +kernel), by decide +kernel, pair_of (by decide +kernel)⟩,
    ⟨.fm, 0, 1, on [], sto (by decide +kernel), by decide +kernel⟩,
    ⟨.fm, (tweak (on []) fun d => { d with dir.lostLog := ⟨[], [], 1, 0⟩ }), sto (by decide +kernel), by decide +kernel⟩,
    ⟨.fm, (tweak (on []) fun d => { d with flt.log := ⟨[], [], 1, 0⟩ }), sto (by decide +kernel), by decide +kernel⟩,
    ⟨.fm, (tweak (on []) fun d => { d with fab.log := ⟨[], [], 1, 0⟩ }), sto (by decide +kernel), by decide +kernel⟩,
    ⟨.fm, 0, 0, on [], sto (by decide +kernel), by decide +kernel⟩⟩

/-- What the clauses of TheBridgeFetchesReadsAndWrites assume can be met. -/
theorem witness_TheBridgeFetchesReadsAndWrites :
    (∃ (s : State), s.dev.busUp = false) ∧
    (∃ (addr : BitVec 32) (s : State), s.dev.busUp = true ∧
      oobGood addr = false) ∧
    (∃ (addr : BitVec 32) (d1 : Dev) (s : State), s.dev.busUp = true ∧
      oobGood addr = true ∧
      s.dev.regCheck .oob (oobOffset addr) (oobWidth addr) false = (.denied, d1)) ∧
    (∃ (addr : BitVec 32) (d1 : Dev) (s : State), s.dev.busUp = true ∧
      oobGood addr = true ∧
      s.dev.regCheck .oob (oobOffset addr) (oobWidth addr) false = (.ok, d1) ∧
      s.dev.mgmt.oobSlots = []) ∧
    (∃ (addr : BitVec 32) (d1 : Dev) (s : State), s.dev.busUp = true ∧
      oobGood addr = true ∧
      s.dev.regCheck .oob (oobOffset addr) (oobWidth addr) false = (.ok, d1) ∧
      s.dev.mgmt.oobSlots.length = 4 ∧
      (∀ x ∈ s.dev.mgmt.oobSlots, x.block ≠ oobOffset addr / 64 ∧ x.delivered = false)) ∧
    (∃ (addr : BitVec 32) (d1 : Dev) (x : OobSlot) (words : List (BitVec 32)) (s : State), s.dev.busUp = true ∧
      oobGood addr = true ∧
      s.dev.regCheck .oob (oobOffset addr) (oobWidth addr) false = (.ok, d1) ∧
      oobFresh addr = false ∧
      (s.dev.mgmt.oobSlots.find? fun y => decide (y.block = oobOffset addr / 64)) = some x ∧
      x.words = some words) ∧
    (∃ (addr : BitVec 32) (d1 : Dev) (s : State), s.dev.busUp = true ∧
      oobGood addr = true ∧
      s.dev.regCheck .oob (oobOffset addr) (oobWidth addr) true = (.ok, d1)) ∧
    (∃ (s : State), s.dev.busUp = true) ∧
    (∃ (block : Nat) (s : State), (∀ y ∈ s.dev.mgmt.oobSlots, y.block = block → y.words ≠ none)) ∧
    (∃ (block : Nat) (s : State), (∃ y ∈ s.dev.mgmt.oobSlots, y.block = block ∧ y.words = none)) ∧
    (∃ (bridge : Bool) (s : State), s.dev.busUp = true ∧
      s.dev.mgmt.i3cBus = true ∧
      (bridge = true ∨ s.dev.mgmt.fwUp = true)) ∧
    (∃ (s : State), s.dev.busUp = true ∧
      s.dev.mgmt.fwUp = true ∧
      s.dev.mgmt.warmHeld = false ∧
      s.dev.domState domMgt ≤ 3) ∧
    (∃ (opcode : BitVec 16) (s : State), s.dev.busUp = true ∧
      s.dev.mctpServed opcode.toNat = true) :=
  ⟨⟨on [], by decide +kernel⟩,
    ⟨0x10005, (on [((.rail 4), 62, 62, 1), ((.domStatus 1), 31, 26, 0)]), by decide +kernel⟩,
    ⟨0x10004, _, (on [((.rail 4), 62, 62, 1), ((.domStatus 1), 31, 26, 0), ((.rCtl 256), 30, 30, 0)]), by decide +kernel, by decide +kernel, pair_of (by decide +kernel)⟩,
    ⟨0x10004, _, (on [((.rail 4), 62, 62, 1), ((.domStatus 1), 31, 26, 0)]), by decide +kernel, by decide +kernel, pair_of (by decide +kernel), by decide +kernel⟩,
    ⟨0x10004, _, (tweak (on [((.rail 4), 62, 62, 1), ((.domStatus 1), 31, 26, 0)]) fun d => { d with mgmt.oobSlots := [⟨0, none, false⟩, ⟨1, none, false⟩, ⟨2, none, false⟩, ⟨3, none, false⟩] }), by decide +kernel, by decide +kernel, pair_of (by decide +kernel), by decide +kernel⟩,
    ⟨0x10004, _, ⟨0x400, some [], false⟩, [], (tweak (on [((.rail 4), 62, 62, 1), ((.domStatus 1), 31, 26, 0)]) fun d => { d with mgmt.oobSlots := [⟨0x400, some [], false⟩] }), by decide +kernel, by decide +kernel, pair_of (by decide +kernel), by decide +kernel⟩,
    ⟨0x10004, _, (on [((.rail 4), 62, 62, 1), ((.domStatus 1), 31, 26, 0)]), by decide +kernel, by decide +kernel, pair_of (by decide +kernel)⟩,
    ⟨(on [((.rail 4), 62, 62, 1), ((.domStatus 1), 31, 26, 0)]), by decide +kernel⟩,
    ⟨0, on [], by decide +kernel⟩,
    ⟨0, (tweak (on []) fun d => { d with mgmt.oobSlots := [⟨0, none, false⟩] }), by decide +kernel⟩,
    ⟨true, (tweak (on [((.rail 4), 63, 62, 3)]) fun d => { d with mgmt.i3cBus := true }), by decide +kernel⟩,
    ⟨(on [((.rail 4), 63, 62, 3)]), by decide +kernel⟩,
    ⟨0, (on [((.rail 4), 63, 62, 3)]), by decide +kernel⟩⟩

/-- What the clauses of TransfersWriteTheSpareSlot assume can be met. -/
theorem witness_TransfersWriteTheSpareSlot :
    (∃ (path : Path) (input : List Byte) (s : State), s.dev.takesStoluo path 0xC050 ∧
      transferForm input = true ∧
      tget s.dev.mgmt.imageMove (field input 1 1) = none ∧
      (field input 1 1 = 0 → s.dev.mgmt.activation = none)) ∧
    (∃ (path : Path) (input : List Byte) (s : State), s.dev.takesStoluo path 0xC050 ∧
      transferForm input = true ∧
      ((tget s.dev.mgmt.imageMove (field input 1 1)).isSome = true ∨ (field input 1 1 = 0 ∧ s.dev.mgmt.activation.isSome = true))) ∧
    (∃ (path : Path) (input : List Byte) (x : Transfer) (s : State), s.dev.takesStoluo path 0xC050 ∧
      transferDataForm input = true ∧
      tget s.dev.mgmt.transfers (field input 1 1) = some x ∧
      field input 4 4 % 16 = 0 ∧
      field input 4 4 = x.next ∧
      x.next + (input.length - 16) ≤ slotBytes (field input 1 1)) ∧
    (∃ (path : Path) (input : List Byte) (x : Transfer) (s : State), s.dev.takesStoluo path 0xC050 ∧
      transferDataForm input = true ∧
      tget s.dev.mgmt.transfers (field input 1 1) = some x ∧
      field input 4 4 % 16 ≠ 0) ∧
    (∃ (path : Path) (input : List Byte) (x : Transfer) (s : State), s.dev.takesStoluo path 0xC050 ∧
      transferDataForm input = true ∧
      tget s.dev.mgmt.transfers (field input 1 1) = some x ∧
      field input 4 4 % 16 = 0 ∧
      (field input 4 4 ≠ x.next ∨ slotBytes (field input 1 1) < field input 4 4 + (input.length - 16))) ∧
    (∃ (path : Path) (input : List Byte) (x : Transfer) (s : State), s.dev.takesStoluo path 0xC050 ∧
      transferForm input = true ∧
      tget s.dev.mgmt.transfers (field input 1 1) = some x ∧
      tget s.dev.mgmt.bg path = none) ∧
    (∃ (path : Path) (input : List Byte) (s : State), s.dev.takesStoluo path 0xC050 ∧
      transferForm input = true ∧
      tget s.dev.mgmt.transfers (field input 1 1) = none) ∧
    (∃ (path : Path) (input : List Byte) (x : Transfer) (s : State), s.dev.takesStoluo path 0xC050 ∧
      transferForm input = true ∧
      tget s.dev.mgmt.transfers (field input 1 1) = some x) :=
  ⟨⟨.fm, zeros 16, on [], sto (by decide +kernel), by decide +kernel⟩,
    ⟨.fm, zeros 16, (tweak (on []) fun d => { d with mgmt.imageMove := [(0, (1, .fm))] }), sto (by decide +kernel), by decide +kernel⟩,
    ⟨.fm, zeros 32, _, (tweak (on []) fun d => { d with mgmt.transfers := [(0, ⟨0, []⟩)] }), sto (by decide +kernel), by decide +kernel, some_of (by decide +kernel), by decide +kernel⟩,
    ⟨.fm, (zeros 4 ++ [1] ++ zeros 27), _, (tweak (on []) fun d => { d with mgmt.transfers := [(0, ⟨0, []⟩)] }), sto (by decide +kernel), by decide +kernel, some_of (by decide +kernel), by decide +kernel⟩,
    ⟨.fm, (zeros 4 ++ [16] ++ zeros 27), _, (tweak (on []) fun d => { d with mgmt.transfers := [(0, ⟨0, []⟩)] }), sto (by decide +kernel), by decide +kernel, some_of (by decide +kernel), by decide +kernel⟩,
    ⟨.fm, zeros 16, _, (tweak (on []) fun d => { d with mgmt.transfers := [(0, ⟨0, []⟩)] }), sto (by decide +kernel), by decide +kernel, some_of (by decide +kernel), by decide +kernel⟩,
    ⟨.fm, zeros 16, on [], sto (by decide +kernel), by decide +kernel⟩,
    ⟨.fm, zeros 16, _, (tweak (on []) fun d => { d with mgmt.transfers := [(0, ⟨0, []⟩)] }), sto (by decide +kernel), by decide +kernel, some_of (by decide +kernel)⟩⟩

/-- What the clauses of ImagesAreActivatedAndCommitted assume can be met. -/
theorem witness_ImagesAreActivatedAndCommitted :
    (∃ (path : Path) (s : State), s.dev.takesStoluo path 0xC051 ∧
      s.dev.mgmt.activation = none ∧
      tget s.dev.mgmt.transfers 0 = none ∧
      (0, s.dev.spareSlot 0) ∈ s.dev.mgmt.verified) ∧
    (∃ (path : Path) (s : State), s.dev.takesStoluo path 0xC051 ∧
      tget s.dev.mgmt.transfers 3 = none ∧
      (3, s.dev.spareSlot 3) ∈ s.dev.mgmt.verified) ∧
    (∃ (path : Path) (input : List Byte) (s : State), s.dev.takesStoluo path 0xC051 ∧
      activateForm input false = true ∧
      (field input 0 1 = 0 → s.dev.mgmt.activation = none) ∧
      tget s.dev.mgmt.transfers (field input 0 1) = none ∧
      (field input 0 1, s.dev.spareSlot (field input 0 1)) ∉ s.dev.mgmt.verified) ∧
    (∃ (path : Path) (s : State), s.dev.serves path 0xC051 = true ∧
      s.dev.refusal path 0xC051 true = none ∧
      s.dev.mgmt.activation = none ∧
      tget s.dev.mgmt.imageMove 0 = none ∧
      tget s.dev.mgmt.transfers 0 = none ∧
      tget s.dev.mgmt.bg path = none ∧
      (0, s.dev.spareSlot 0) ∈ s.dev.mgmt.verified) ∧
    (∃ (path : Path) (target : Nat) (s : State), (target = 1 ∨ target = 2) ∧
      s.dev.serves path 0xC051 = true ∧
      s.dev.refusal path 0xC051 true = none ∧
      s.dev.mgmt.activation = none ∧
      tget s.dev.mgmt.imageMove target = none ∧
      tget s.dev.mgmt.transfers target = none ∧
      (target, s.dev.spareSlot target) ∈ s.dev.mgmt.verified ∧
      (∀ e < 256, (s.dev.engine e).image ≠ serviceImage target)) ∧
    (∃ (path : Path) (target : Nat) (e : Nat) (s : State), (target = 1 ∨ target = 2) ∧
      s.dev.serves path 0xC051 = true ∧
      s.dev.refusal path 0xC051 true = none ∧
      s.dev.mgmt.activation = none ∧
      tget s.dev.mgmt.imageMove target = none ∧
      tget s.dev.mgmt.transfers target = none ∧
      (target, s.dev.spareSlot target) ∈ s.dev.mgmt.verified ∧
      tget s.dev.mgmt.bg path = none ∧
      e < 256 ∧
      (s.dev.engine e).image = serviceImage target) ∧
    (∃ (path : Path) (input : List Byte) (s : State), s.dev.serves path 0xC051 = true ∧
      s.dev.refusal path 0xC051 true = none ∧
      activateForm input true = true ∧
      s.dev.mgmt.activation = none ∧
      tget s.dev.mgmt.imageMove (field input 0 1) = none ∧
      tget s.dev.mgmt.transfers (field input 0 1) = none ∧
      (field input 0 1, s.dev.spareSlot (field input 0 1)) ∉ s.dev.mgmt.verified) ∧
    (∃ (a : Activation) (i : Sys2Proof.Image) (s : State), s.dev.mgmt.activation = some a ∧
      tget s.dev.mgmt.flash (0, a.slot) = some i ∧
      a.slot < 2) ∧
    (∃ (a : Activation) (s : State), s.dev.mgmt.activation = some a) ∧
    (∃ (s : State), s.dev.mgmt.activation = none) ∧
    (∃ (path : Path) (target : Fin 4) (slot : Nat) (i : Sys2Proof.Image) (s : State), s.dev.takesStoluo path 0xC052 ∧
      tget s.dev.mgmt.inUse target.val = some slot ∧
      tget s.dev.mgmt.flash (target.val, slot) = some i) ∧
    (∃ (path : Path) (target : Fin 4) (s : State), s.dev.takesStoluo path 0xC052 ∧
      tget s.dev.mgmt.inUse target.val = none) :=
  ⟨⟨.fm, (tweak (on []) fun d => { d with mgmt.verified := [(0, 1), (1, 0), (3, 1)] }), sto (by decide +kernel), by decide +kernel⟩,
    ⟨.fm, (tweak (on []) fun d => { d with mgmt.verified := [(0, 1), (1, 0), (3, 1)] }), sto (by decide +kernel), by decide +kernel⟩,
    ⟨.fm, zeros 4, on [], sto (by decide +kernel), by decide +kernel⟩,
    ⟨.fm, (tweak (on []) fun d => { d with mgmt.verified := [(0, 1), (1, 0), (3, 1)] }), by decide +kernel⟩,
    ⟨.fm, 1, (tweak (on []) fun d => { d with mgmt.verified := [(0, 1), (1, 0), (3, 1)] }), by decide +kernel⟩,
    ⟨.fm, 1, 0, (tweak (on []) fun d => { d with mgmt.verified := [(0, 1), (1, 0), (3, 1)], svc.engines := [(0, ⟨.lookup, 0, false, none⟩)] }), by decide +kernel⟩,
    ⟨.fm, zeros 4, on [], by decide +kernel⟩,
    ⟨⟨.fm, 0, true, 0, false⟩, image, (tweak (on []) fun d => { d with mgmt.activation := some ⟨.fm, 0, true, 0, false⟩, mgmt.flash := [((0, 0), image)] }), by decide +kernel⟩,
    ⟨⟨.fm, 0, true, 0, false⟩, (tweak (on []) fun d => { d with mgmt.activation := some ⟨.fm, 0, true, 0, false⟩ }), by decide +kernel⟩,
    ⟨on [], by decide +kernel⟩,
    ⟨.fm, 0, 0, image, (tweak (on []) fun d => { d with mgmt.inUse := [(0, 0)], mgmt.flash := [((0, 0), image)] }), sto (by decide +kernel), by decide +kernel⟩,
    ⟨.fm, 0, on [], sto (by decide +kernel), by decide +kernel⟩⟩

/-- What the clauses of QosGateListsAndMirrorSessionsAreSet assume can be met. -/
theorem witness_QosGateListsAndMirrorSessionsAreSet :
    (∃ (path : Path) (input : List Byte) (e : Entity) (s : State), s.dev.takesStoluo path 0xC018 ∧
      qosForm input = true ∧
      field input 2 1 = 0 ∧
      qosEntity (field input 0 1) (field input 1 1) = some e ∧
      let d := s.dev.setReserve e (BitVec.ofNat 64 (field input 8 8))
      d.reserveOk e = true ∧
      d.reserveFits = true) ∧
    (∃ (path : Path) (input : List Byte) (e : Entity) (s : State), s.dev.takesStoluo path 0xC018 ∧
      qosForm input = true ∧
      field input 2 1 = 0 ∧
      qosEntity (field input 0 1) (field input 1 1) = some e ∧
      let d := s.dev.setReserve e (BitVec.ofNat 64 (field input 8 8))
      (d.reserveOk e = false ∨ d.reserveFits = false)) ∧
    (∃ (path : Path) (input : List Byte) (s : State), s.dev.takesStoluo path 0xC018 ∧
      qosForm input = true ∧
      field input 2 1 = 1 ∧
      field input 0 1 = 0) ∧
    (∃ (path : Path) (input : List Byte) (s : State), s.dev.takesStoluo path 0xC018 ∧
      qosForm input = true ∧
      field input 2 1 = 1 ∧
      field input 0 1 = 1) ∧
    (∃ (path : Path) (input : List Byte) (s : State), s.dev.takesStoluo path 0xC018 ∧
      qosForm input = true ∧
      field input 2 1 = 2) ∧
    (∃ (path : Path) (input : List Byte) (s : State), s.dev.takesStoluo path 0xC018 ∧
      qosForm input = true ∧
      field input 2 1 = 3 ∧
      shapeOk (BitVec.ofNat 64 (field input 8 8)) = true) ∧
    (∃ (path : Path) (input : List Byte) (s : State), s.dev.takesStoluo path 0xC018 ∧
      qosForm input = true ∧
      field input 2 1 = 3 ∧
      shapeOk (BitVec.ofNat 64 (field input 8 8)) = false) ∧
    (∃ (path : Path) (input : List Byte) (s : State), s.dev.takesStoluo path 0xC018 ∧
      qosForm input = true ∧
      field input 2 1 = 4 ∧
      let n := (BitVec.ofNat 64 (field input 8 8)).toNat
      s.dev.ageLimitOk n = true) ∧
    (∃ (path : Path) (input : List Byte) (s : State), s.dev.takesStoluo path 0xC018 ∧
      qosForm input = true ∧
      field input 2 1 = 5) ∧
    (∃ (path : Path) (input : List Byte) (e : Egress) (s : State), s.dev.takesStoluo path 0xC019 ∧
      gateForm input = true ∧
      gateTarget input = some e ∧
      (s.dev.writeBank e input).gateListOk e = false) ∧
    (∃ (path : Path) (input : List Byte) (e : Egress) (s : State), s.dev.takesStoluo path 0xC019 ∧
      gateForm input = true ∧
      gateTarget input = some e ∧
      (s.dev.writeBank e input).gateListOk e = true ∧
      field input 3 1 = 0) ∧
    (∃ (path : Path) (input : List Byte) (e : Egress) (s : State), s.dev.takesStoluo path 0xC019 ∧
      gateForm input = true ∧
      gateTarget input = some e ∧
      (s.dev.writeBank e input).gateListOk e = true ∧
      field input 3 1 = 1 ∧
      (s.dev.writeBank e input).bitOf (gclCtl e) 31 = false) ∧
    (∃ (path : Path) (input : List Byte) (s : State), s.dev.takesStoluo path 0xC01A ∧
      mirrorForm input = true ∧
      let n := field input 0 1
      let d := ((s.dev.setReg (.mirCtl n) (BitVec.ofNat 64 (field input 4 4))).setReg (.mirLo n)
      (BitVec.ofNat 64 (field input 8 8))).setReg (.mirHi n) (BitVec.ofNat 64 (field input 16 8))
      (d.bitOf (.mirCtl n) 31 = true → s.dev.sec.otp.lifecycle = 2 → s.dev.bitOf .secStatus 23 = true) ∧
      d.mirrorOk n = true) ∧
    (∃ (path : Path) (input : List Byte) (s : State), s.dev.takesStoluo path 0xC01A ∧
      mirrorForm input = true ∧
      getBits (BitVec.ofNat 64 (field input 4 4)) 31 31 = 1 ∧
      s.dev.sec.otp.lifecycle = 2 ∧
      s.dev.bitOf .secStatus 23 = false) :=
  ⟨⟨.fm, ([3, 0, 0] ++ zeros 5 ++ toBytes 8 (100 * (2 ^ 48 + 2 ^ 32 + 2 ^ 16 + 1))), .mgmt, on [], sto (by decide +kernel), by decide +kernel⟩,
    ⟨.fm, ([3, 0, 0] ++ zeros 5 ++ zeros 8), .mgmt, on [], sto (by decide +kernel), by decide +kernel⟩,
    ⟨.fm, ([0, 0, 1] ++ zeros 5 ++ zeros 4), on [], sto (by decide +kernel), by decide +kernel⟩,
    ⟨.fm, ([1, 0, 1] ++ zeros 5 ++ zeros 4), on [], sto (by decide +kernel), by decide +kernel⟩,
    ⟨.fm, ([0, 0, 2] ++ zeros 5 ++ zeros 84), on [], sto (by decide +kernel), by decide +kernel⟩,
    ⟨.fm, ([0, 0, 3] ++ zeros 5 ++ toBytes 8 (2 ^ 48 + 2 ^ 32)), on [], sto (by decide +kernel), by decide +kernel⟩,
    ⟨.fm, ([0, 0, 3] ++ zeros 5 ++ zeros 8), on [], sto (by decide +kernel), by decide +kernel⟩,
    ⟨.fm, ([0, 0, 4] ++ zeros 5 ++ toBytes 4 100), on [], sto (by decide +kernel), by decide +kernel⟩,
    ⟨.fm, ([0, 0, 5] ++ zeros 5 ++ zeros 4), on [], sto (by decide +kernel), by decide +kernel⟩,
    ⟨.fm, ([0, 0, 0, 0, 0, 0, 0, 0] ++ zeros 8 ++ toBytes 4 0), .port 0, on [], sto (by decide +kernel), by decide +kernel⟩,
    ⟨.fm, ([0, 0, 0, 0, 0, 0, 0, 0] ++ zeros 8 ++ toBytes 4 0x300000FA), .port 0, on [], sto (by decide +kernel), by decide +kernel⟩,
    ⟨.fm, ([0, 0, 0, 1, 0, 0, 0, 0] ++ zeros 8 ++ toBytes 4 0x300000FA), .port 0, on [], sto (by decide +kernel), by decide +kernel⟩,
    ⟨.fm, zeros 24, (on [((.stlCfg 0), 31, 30, 2)]), sto (by decide +kernel), by decide +kernel, fun h => absurd h (by decide +kernel), by decide +kernel⟩,
    ⟨.fm, ([0, 0, 0, 0] ++ toBytes 4 (2 ^ 31) ++ zeros 16), (tweak (on [(.secStatus, 23, 23, 0)]) fun d => { d with sec.otp := { Otp.blank with lifecycle := 2 } }), sto (by decide +kernel), by decide +kernel⟩⟩

/-- What the clauses of StandardCommandsAnswerFromTheState assume can be met. -/
theorem witness_StandardCommandsAnswerFromTheState :
    (∃ (p : Fin 64) (s : State), s.dev.takesStandard (.pool p) 0x0001) ∧
    (∃ (path : Path) (b : BgOp) (s : State), s.dev.takesStandard path 0x0002 ∧
      path ≠ .jtag ∧
      tget s.dev.mgmt.bg path = some b) ∧
    (∃ (path : Path) (op : Nat) (rc : Nat) (v : Nat) (s : State), s.dev.takesStandard path 0x0002 ∧
      path ≠ .jtag ∧
      tget s.dev.mgmt.bg path = none ∧
      tget s.dev.mgmt.bgLast path = some (op, rc, v)) ∧
    (∃ (path : Path) (s : State), s.dev.takesStandard path 0x0003 ∧
      path ≠ .jtag) ∧
    (∃ (p : Fin 64) (s : State), s.dev.takesStandard (.pool p) 0x0100) ∧
    (∃ (p : Fin 64) (log : Fin 5) (handles : List Nat) (s : State), s.dev.takesStandard (.pool p) 0x0101 ∧
      (∀ h ∈ handles, ∃ e ∈ s.dev.eventsOf p log, e.handle = h)) ∧
    (∃ (p : Fin 64) (log : Fin 5) (handles : List Nat) (h : Nat) (s : State), s.dev.takesStandard (.pool p) 0x0101 ∧
      h ∈ handles ∧
      (∀ e ∈ s.dev.eventsOf p log, e.handle ≠ h)) ∧
    (∃ (p : Fin 64) (s : State), s.dev.takesStandard (.pool p) 0x0102) ∧
    (∃ (p : Fin 64) (input : List Byte) (s : State), s.dev.takesStandard (.pool p) 0x0103 ∧
      input.length = 5) ∧
    (∃ (p : Fin 64) (input : List Byte) (s : State), s.dev.takesStandard (.pool p) 0x0103 ∧
      input.length ≠ 5) ∧
    (∃ (p : Fin 64) (s : State), s.dev.takesStandard (.pool p) 0x0200) ∧
    (∃ (p : Fin 64) (s : State), s.dev.takesStandard (.pool p) 0x0300) ∧
    (∃ (p : Fin 64) (input : List Byte) (s : State), s.dev.takesStandard (.pool p) 0x0301 ∧
      input.length = 8) ∧
    (∃ (p : Fin 64) (s : State), s.dev.takesStandard (.pool p) 0x0400) ∧
    (∃ (p : Fin 64) (input : List Byte) (s : State), s.dev.takesStandard (.pool p) 0x0401 ∧
      input.length = 24 ∧
      input.take 16 = s.dev.effectsId ∧
      field input 16 4 + field input 20 4 ≤ 4 * supportedOpcodes.length) ∧
    (∃ (p : Fin 64) (input : List Byte) (s : State), s.dev.takesStandard (.pool p) 0x0401 ∧
      (input.length ≠ 24 ∨ input.take 16 ≠ s.dev.effectsId ∨ 4 * supportedOpcodes.length < field input 16 4 + field input 20 4)) ∧
    (∃ (p : Fin 64) (s : State), s.dev.takesStandard (.pool p) 0x4000) ∧
    (∃ (p : Fin 64) (s : State), s.dev.takesStandard (.pool p) 0x4100) ∧
    (∃ (p : Fin 64) (s : State), s.dev.takesStandard (.pool p) 0x4200) ∧
    (∃ (p : Fin 64) (s : State), s.dev.takesStandard (.pool p) 0x4300) ∧
    (∃ (p : Fin 64) (s : State), s.dev.takesStandard (.pool p) 0x4800) ∧
    (∃ (p : Fin 64) (s : State), s.dev.takesStandard (.pool p) 0x4801) ∧
    (∃ (p : Fin 64) (opcode : BitVec 16) (s : State), s.dev.takesStandard (.pool p) opcode.toNat) :=
  ⟨⟨0, on [], std (by decide +kernel)⟩,
    ⟨.fm, ⟨1, none⟩, (tweak (on []) fun d => { d with mgmt.bg := [(.fm, ⟨1, none⟩)] }), std (by decide +kernel), by decide +kernel⟩,
    ⟨.fm, 1, 0, 0, (tweak (on []) fun d => { d with mgmt.bgLast := [(.fm, (1, 0, 0))] }), std (by decide +kernel), by decide +kernel⟩,
    ⟨.fm, on [], std (by decide +kernel), by decide +kernel⟩,
    ⟨0, on [], std (by decide +kernel)⟩,
    ⟨0, 0, [], on [], std (by decide +kernel), by decide +kernel⟩,
    ⟨0, 0, [1], 1, on [], std (by decide +kernel), by decide +kernel, fun _ h => (by cases h)⟩,
    ⟨0, on [], std (by decide +kernel)⟩,
    ⟨0, zeros 5, on [], std (by decide +kernel), by decide +kernel⟩,
    ⟨0, [], on [], std (by decide +kernel), by decide +kernel⟩,
    ⟨0, on [], std (by decide +kernel)⟩,
    ⟨0, on [], std (by decide +kernel)⟩,
    ⟨0, zeros 8, on [], std (by decide +kernel), by decide +kernel⟩,
    ⟨0, on [], std (by decide +kernel)⟩,
    ⟨0, ((on []).dev.effectsId ++ zeros 8), on [], std (by decide +kernel), by simp [Dev.effectsId, Dev.standardOut, zeros], List.take_left' (by simp [Dev.effectsId, Dev.standardOut]), by simp [field, Dev.effectsId, Dev.standardOut, zeros, List.drop_append]; decide⟩,
    ⟨0, [], on [], std (by decide +kernel), by decide +kernel⟩,
    ⟨0, on [], std (by decide +kernel)⟩,
    ⟨0, on [], std (by decide +kernel)⟩,
    ⟨0, on [], std (by decide +kernel)⟩,
    ⟨0, on [], std (by decide +kernel)⟩,
    ⟨0, on [], std (by decide +kernel)⟩,
    ⟨0, on [], std (by decide +kernel)⟩,
    ⟨0, 0, on [], std (by decide +kernel)⟩⟩

/-- What the clauses of FabricManagerCommandsAnswerFromTheState assume can be met. -/
theorem witness_FabricManagerCommandsAnswerFromTheState :
    (∃ (path : Path) (s : State), s.dev.takesStandard path 0x0001 ∧
      (path = .fm ∨ (∃ e, path = .mctp e))) ∧
    (∃ (path : Path) (s : State), s.dev.takesStandard path 0x5100 ∧
      (path = .fm ∨ (∃ e, path = .mctp e))) ∧
    (∃ (path : Path) (s : State), s.dev.takesStandard path 0x5101 ∧
      (path = .fm ∨ (∃ e, path = .mctp e))) ∧
    (∃ (path : Path) (s : State), s.dev.takesStandard path 0x5200 ∧
      (path = .fm ∨ (∃ e, path = .mctp e))) ∧
    (∃ (path : Path) (s : State), s.dev.takesStandard path 0x5600 ∧
      (path = .fm ∨ (∃ e, path = .mctp e))) ∧
    (∃ (path : Path) (s : State), s.dev.takesStandard path 0x5601 ∧
      (path = .fm ∨ (∃ e, path = .mctp e))) ∧
    (∃ (path : Path) (s : State), s.dev.takesStandard path 0x5603 ∧
      (path = .fm ∨ (∃ e, path = .mctp e))) ∧
    (∃ (path : Path) (opcode : BitVec 16) (s : State), s.dev.takesStandard path opcode.toNat ∧
      (path = .fm ∨ (∃ e, path = .mctp e))) ∧
    (∃ (p : Fin 64) (s : State), s.dev.takesStandard (.pool p) 0x5100) :=
  ⟨⟨.fm, on [], std (by decide +kernel), .inl rfl⟩,
    ⟨.fm, on [], std (by decide +kernel), .inl rfl⟩,
    ⟨.fm, on [], std (by decide +kernel), .inl rfl⟩,
    ⟨.fm, on [], std (by decide +kernel), .inl rfl⟩,
    ⟨.fm, on [], std (by decide +kernel), .inl rfl⟩,
    ⟨.fm, on [], std (by decide +kernel), .inl rfl⟩,
    ⟨.fm, on [], std (by decide +kernel), .inl rfl⟩,
    ⟨.fm, 0, on [], std (by decide +kernel), .inl rfl⟩,
    ⟨0, on [], std (by decide +kernel)⟩⟩

/-- What the clauses of AccessRulesChangeByEpoch assume can be met. -/
theorem witness_AccessRulesChangeByEpoch :
    (∃ (path : Path) (input : List Byte) (s : State), s.dev.takesStoluo path 0xC060 ∧
      regionSetForm input = true ∧
      s.dev.regionRefusal (decide (field input 0 1 = 0)) (regionEntries input) = none) ∧
    (∃ (path : Path) (input : List Byte) (e : RegionEntry) (s : State), s.dev.takesStoluo path 0xC060 ∧
      regionSetForm input = true ∧
      regionEntries input = [e] ∧
      field input 0 1 = 0 ∧
      e.region < 256 ∧
      s.dev.regionRefusal true [e] = none) ∧
    (∃ (path : Path) (input : List Byte) (rc : Nat) (s : State), s.dev.takesStoluo path 0xC060 ∧
      regionSetForm input = true ∧
      s.dev.regionRefusal (decide (field input 0 1 = 0)) (regionEntries input) = some rc) ∧
    (∃ (path : Path) (s : State), s.dev.takesStoluo path 0xC061 ∧
      s.dev.acuOldLive = false) ∧
    (∃ (path : Path) (s : State), s.dev.takesStoluo path 0xC061 ∧
      s.dev.acuOldLive = true ∧
      tget s.dev.mgmt.bg path = none) ∧
    (∃ (s : State), s.dev.acuOldLive = false) ∧
    (∃ (s : State), s.dev.acuOldLive = true) ∧
    (∃ (path : Path) (s : State), s.dev.takesStoluo path 0xC062) :=
  ⟨⟨.fm, ([0, 1] ++ zeros 6 ++ zeros 40), on [], sto (by decide +kernel), by decide +kernel⟩,
    ⟨.fm, ([0, 1] ++ zeros 6 ++ zeros 40), ⟨0, 0, 0, 0, 0, 0⟩, on [], sto (by decide +kernel), by decide +kernel⟩,
    ⟨.fm, ([0, 1] ++ zeros 6 ++ zeros 8 ++ [1] ++ zeros 31), _, on [], sto (by decide +kernel), by decide +kernel, some_of (by decide +kernel)⟩,
    ⟨.fm, on [], sto (by decide +kernel), by decide +kernel⟩,
    ⟨.fm, (tweak (on []) fun d => { d with dir.ct := [(0, { entry with epoch := 1 })] }), sto (by decide +kernel), by decide +kernel⟩,
    ⟨on [], by decide +kernel⟩,
    ⟨(tweak (on []) fun d => { d with dir.ct := [(0, { entry with epoch := 1 })] }), by decide +kernel⟩,
    ⟨.fm, on [], sto (by decide +kernel)⟩⟩

/-- What the clauses of LifecycleStatesMoveForward assume can be met. -/
theorem witness_LifecycleStatesMoveForward :
    (∃ (path : Path) (input : List Byte) (s : State), s.dev.takesStoluo path 0xC063 ∧
      (lifecycleForm input 112 && decide (field input 106 6 = 0)) = true ∧
      s.dev.sec.otp.lifecycle = 0 ∧
      s.dev.debugLevel = 0 ∧
      tget s.dev.mgmt.bg path = none) ∧
    (∃ (path : Path) (input : List Byte) (s : State), s.dev.takesStoluo path 0xC063 ∧
      (lifecycleForm input 112 && decide (field input 106 6 = 0)) = true ∧
      s.dev.sec.otp.lifecycle ≠ 0) ∧
    (∃ (path : Path) (input : List Byte) (s : State), s.dev.takesStoluo path 0xC063 ∧
      lifecycleForm input 8 = true ∧
      s.dev.sec.otp.lifecycle = 1 ∧
      s.dev.debugLevel = 0 ∧
      s.dev.bcbKeyId = 0x100 ∧
      s.dev.anyBound = false ∧
      tget s.dev.mgmt.bg path = none) ∧
    (∃ (path : Path) (input : List Byte) (s : State), s.dev.takesStoluo path 0xC063 ∧
      lifecycleForm input 8 = true ∧
      s.dev.sec.otp.lifecycle = 1 ∧
      s.dev.debugLevel = 0 ∧
      (s.dev.bcbKeyId ≠ 0x100 ∨ s.dev.anyBound = true)) ∧
    (∃ (path : Path) (input : List Byte) (c : Challenge) (s : State), s.dev.takesStoluo path 0xC063 ∧
      (lifecycleForm input 112 && decide (field input 10 6 = 0)) = true ∧
      s.dev.sec.otp.lifecycle < 3 ∧
      s.dev.debugLevel = 0 ∧
      s.dev.sec.challenge = some c ∧
      c.level = 255 ∧
      field input 8 2 = s.dev.tokenKeyId ∧
      s.dev.pool.revoking = false ∧
      s.dev.sec.zeroize = none ∧
      tget s.dev.mgmt.bg path = none) ∧
    (∃ (path : Path) (input : List Byte) (sigOk : Bool) (c : Challenge) (s : State), s.dev.takesStoluo path 0xC063 ∧
      (lifecycleForm input 112 && decide (field input 10 6 = 0)) = true ∧
      s.dev.sec.otp.lifecycle < 3 ∧
      s.dev.debugLevel = 0 ∧
      s.dev.sec.challenge = some c ∧
      c.level = 255 ∧
      field input 8 2 = s.dev.tokenKeyId ∧
      sigOk = false) ∧
    (∃ (path : Path) (input : List Byte) (s : State), s.dev.takesStoluo path 0xC063 ∧
      (lifecycleForm input 112 && decide (field input 10 6 = 0)) = true ∧
      s.dev.sec.otp.lifecycle < 3 ∧
      s.dev.debugLevel = 0 ∧
      (∀ c, s.dev.sec.challenge = some c → c.level ≠ 255)) :=
  ⟨⟨.fm, (zeros 4 ++ toBytes 4 0x5345434C ++ zeros 104), on [], sto (by decide +kernel), by decide +kernel⟩,
    ⟨.fm, (zeros 4 ++ toBytes 4 0x5345434C ++ zeros 104), (tweak (on []) fun d => { d with sec.otp := { Otp.blank with lifecycle := 1 } }), sto (by decide +kernel), by decide +kernel⟩,
    ⟨.fm, (zeros 4 ++ toBytes 4 0x5345434C ++ zeros 0), (tweak (on []) fun d => { d with sec.otp := { Otp.blank with lifecycle := 1 }, mgmt.flash := [((3, 0), { image with keyId := 0x100 })] }), sto (by decide +kernel), by decide +kernel⟩,
    ⟨.fm, (zeros 4 ++ toBytes 4 0x5345434C ++ zeros 0), (tweak (on []) fun d => { d with sec.otp := { Otp.blank with lifecycle := 1 } }), sto (by decide +kernel), by decide +kernel⟩,
    ⟨.fm, (zeros 4 ++ toBytes 4 0x5345434C ++ [0x20] ++ zeros 103), ⟨255, 0⟩, (tweak (on []) fun d => { d with sec.challenge := some ⟨255, 0⟩ }), sto (by decide +kernel), by decide +kernel⟩,
    ⟨.fm, (zeros 4 ++ toBytes 4 0x5345434C ++ [0x20] ++ zeros 103), false, ⟨255, 0⟩, (tweak (on []) fun d => { d with sec.challenge := some ⟨255, 0⟩ }), sto (by decide +kernel), by decide +kernel⟩,
    ⟨.fm, (zeros 4 ++ toBytes 4 0x5345434C ++ [0x20] ++ zeros 103), on [], sto (by decide +kernel), by decide +kernel, by decide +kernel, by decide +kernel, fun _ h => (by cases h)⟩⟩

/-- What the clauses of DebugIsUnlockedByChallenge assume can be met. -/
theorem witness_DebugIsUnlockedByChallenge :
    (∃ (path : Path) (level : Nat) (s : State), s.dev.takesStoluo path 0xC064 ∧
      (level = 1 ∨ level = 2 ∨ level = 255) ∧
      s.dev.drbgOk = true) ∧
    (∃ (path : Path) (level : Nat) (s : State), s.dev.takesStoluo path 0xC064 ∧
      (level = 1 ∨ level = 2 ∨ level = 255) ∧
      s.dev.drbgOk = false) ∧
    (∃ (path : Path) (input : List Byte) (c : Challenge) (s : State), s.dev.takesStoluo path 0xC065 ∧
      unlockForm input = true ∧
      s.dev.sec.challenge = some c ∧
      c.level = 1 ∧
      field input 0 2 = s.dev.debugKeyId) ∧
    (∃ (path : Path) (input : List Byte) (c : Challenge) (s : State), s.dev.takesStoluo path 0xC065 ∧
      unlockForm input = true ∧
      s.dev.sec.challenge = some c ∧
      c.level = 2 ∧
      field input 0 2 = s.dev.debugKeyId ∧
      s.dev.pool.revoking = false ∧
      s.dev.sec.zeroize = none ∧
      tget s.dev.mgmt.bg path = none) ∧
    (∃ (path : Path) (input : List Byte) (s : State), s.dev.takesStoluo path 0xC065 ∧
      unlockForm input = true ∧
      (∀ c, s.dev.sec.challenge = some c → c.level = 255)) ∧
    (∃ (path : Path) (input : List Byte) (c : Challenge) (s : State), s.dev.takesStoluo path 0xC065 ∧
      unlockForm input = true ∧
      s.dev.sec.challenge = some c ∧
      c.level ≠ 255 ∧
      field input 0 2 = s.dev.debugKeyId) ∧
    (∃ (path : Path) (s : State), s.dev.takesStoluo path 0xC066) ∧
    (∃ (s : State), s.dev.debugLevel = 2) ∧
    (∃ (s : State), s.dev.debugLevel ≠ 2) :=
  ⟨⟨.fm, 1, (on [(.keyStatus, 31, 31, 1)]), sto (by decide +kernel), by decide +kernel⟩,
    ⟨.fm, 1, (on [(.keyStatus, 31, 31, 0)]), sto (by decide +kernel), by decide +kernel⟩,
    ⟨.fm, ([0x20] ++ zeros 103), ⟨1, 0⟩, (tweak (on []) fun d => { d with sec.challenge := some ⟨1, 0⟩ }), sto (by decide +kernel), by decide +kernel⟩,
    ⟨.fm, ([0x20] ++ zeros 103), ⟨2, 0⟩, (tweak (on []) fun d => { d with sec.challenge := some ⟨2, 0⟩ }), sto (by decide +kernel), by decide +kernel⟩,
    ⟨.fm, ([0x20] ++ zeros 103), on [], sto (by decide +kernel), by decide +kernel, fun _ h => (by cases h)⟩,
    ⟨.fm, ([0x20] ++ zeros 103), ⟨1, 0⟩, (tweak (on []) fun d => { d with sec.challenge := some ⟨1, 0⟩ }), sto (by decide +kernel), by decide +kernel⟩,
    ⟨.fm, on [], sto (by decide +kernel)⟩,
    ⟨(on [(.secStatus, 29, 28, 2)]), by decide +kernel⟩,
    ⟨on [], by decide +kernel⟩⟩

/-- What the clauses of ZeroizationsEraseAndTheGeneratorIsWatched assume can be met. -/
theorem witness_ZeroizationsEraseAndTheGeneratorIsWatched :
    (∃ (path : Path) (input : List Byte) (s : State), s.dev.takesStoluo path 0xC067 ∧
      zeroizeForm input = true ∧
      s.dev.pool.revoking = false ∧
      s.dev.sec.zeroize = none ∧
      tget s.dev.mgmt.bg path = none) ∧
    (∃ (path : Path) (input : List Byte) (s : State), s.dev.takesStoluo path 0xC067 ∧
      zeroizeForm input = true ∧
      (s.dev.pool.revoking = true ∨ s.dev.sec.zeroize.isSome = true)) ∧
    (∃ (path : Path) (input : List Byte) (s : State), s.dev.takesStoluo path 0xC067 ∧
      zeroizeForm input = true ∧
      s.dev.sec.otp.lifecycle = 3 ∧
      s.dev.pool.revoking = false ∧
      s.dev.sec.zeroize = none ∧
      tget s.dev.mgmt.bg path = none) ∧
    (∃ (path : Path) (input : List Byte) (s : State), s.dev.takesStoluo path 0xC067 ∧
      zeroizeForm input = true ∧
      s.dev.sec.otp.lifecycle ≠ 3) ∧
    (∃ (s : State), s.dev.drbgOk = true) ∧
    (∃ (s : State), s.dev.drbgOk = false) ∧
    (∃ (s : State), s.dev.drbgOk = false ∧
      s.dev.mgmt.coldHeld = false ∧
      s.dev.domState domKeyv ≤ 2 ∧
      s.dev.pool.revoking = false) ∧
    (∃ (s : State), (s.dev.drbgOk = true ∨ s.dev.mgmt.coldHeld = true)) ∧
    (∃ (path : Path) (b : BgOp) (r : Nat × Nat) (s : State), tget s.dev.mgmt.bg path = some b ∧
      b.result = some r ∧
      s.dev.serves path 0 = true ∧
      s.dev.inWindow = false) :=
  ⟨⟨.fm, (zeros 4 ++ toBytes 4 0x5A45524F), on [], sto (by decide +kernel), by decide +kernel⟩,
    ⟨.fm, (zeros 4 ++ toBytes 4 0x5A45524F), (tweak (on []) fun d => { d with pool.revoking := true }), sto (by decide +kernel), by decide +kernel⟩,
    ⟨.fm, (zeros 4 ++ toBytes 4 0x5A45524F), (tweak (on []) fun d => { d with sec.otp := { Otp.blank with lifecycle := 3 } }), sto (by decide +kernel), by decide +kernel⟩,
    ⟨.fm, (zeros 4 ++ toBytes 4 0x5A45524F), on [], sto (by decide +kernel), by decide +kernel⟩,
    ⟨(on [(.keyStatus, 31, 31, 1)]), by decide +kernel⟩,
    ⟨on [], by decide +kernel⟩,
    ⟨(on [((.domStatus 2), 31, 26, 0), (.keyStatus, 31, 31, 0)]), by decide +kernel⟩,
    ⟨(on [(.keyStatus, 31, 31, 1)]), by decide +kernel⟩,
    ⟨.fm, _, _, (tweak (on []) fun d => { d with mgmt.bg := [(.fm, ⟨0xC022, some (0, 0)⟩)] }), some_of (by decide +kernel), some_of (by decide +kernel), by decide +kernel⟩⟩

/-- What the clauses of TheSpdmResponderAnswersInOrder assume can be met. -/
theorem witness_TheSpdmResponderAnswersInOrder :
    (∃ (path : Path) (s : State), s.dev.spdmUp path = true) ∧
    (∃ (path : Path) (s : State), s.dev.spdmUp path = true ∧
      1 ≤ s.dev.conn path) ∧
    (∃ (path : Path) (s : State), s.dev.spdmUp path = true ∧
      s.dev.conn path = 0) ∧
    (∃ (path : Path) (s : State), s.dev.spdmUp path = true ∧
      2 ≤ s.dev.conn path) ∧
    (∃ (path : Path) (s : State), s.dev.spdmUp path = true ∧
      3 ≤ s.dev.conn path) ∧
    (∃ (path : Path) (offset : Nat) (s : State), s.dev.spdmUp path = true ∧
      3 ≤ s.dev.conn path ∧
      offset < 65536) ∧
    (∃ (path : Path) (slot : Nat) (offset : Nat) (s : State), s.dev.spdmUp path = true ∧
      3 ≤ s.dev.conn path ∧
      (slot ≠ 0 ∨ 65536 ≤ offset)) ∧
    (∃ (path : Path) (s : State), s.dev.spdmUp path = true ∧
      3 ≤ s.dev.conn path ∧
      s.dev.drbgOk = true) ∧
    (∃ (path : Path) (s : State), s.dev.spdmUp path = true ∧
      3 ≤ s.dev.conn path ∧
      s.dev.drbgOk = false) ∧
    (∃ (path : Path) (index : BitVec 8) (s : State), s.dev.spdmUp path = true ∧
      3 ≤ s.dev.conn path ∧
      1 ≤ index.toNat ∧
      index.toNat ≤ 9 ∧
      s.dev.drbgOk = true) ∧
    (∃ (path : Path) (index : BitVec 8) (s : State), s.dev.spdmUp path = true ∧
      3 ≤ s.dev.conn path ∧
      s.dev.drbgOk = true ∧
      9 < index.toNat ∧
      index.toNat < 255) :=
  ⟨⟨.pool 0, (tweak (on [((.prtCfg 0), 31, 28, 1), ((.prtStatus 0), 31, 28, 5), ((.domStatus 1), 31, 26, 0), ((.rail 4), 62, 62, 1)]) fun d => { d with sec.aliasHeld := true, sec.conns := [(.pool 0, 0)] }), by decide +kernel⟩,
    ⟨.pool 0, (tweak (on [((.prtCfg 0), 31, 28, 1), ((.prtStatus 0), 31, 28, 5), ((.domStatus 1), 31, 26, 0), ((.rail 4), 62, 62, 1)]) fun d => { d with sec.aliasHeld := true, sec.conns := [(.pool 0, 1)] }), by decide +kernel⟩,
    ⟨.pool 0, (tweak (on [((.prtCfg 0), 31, 28, 1), ((.prtStatus 0), 31, 28, 5), ((.domStatus 1), 31, 26, 0), ((.rail 4), 62, 62, 1)]) fun d => { d with sec.aliasHeld := true, sec.conns := [(.pool 0, 0)] }), by decide +kernel⟩,
    ⟨.pool 0, (tweak (on [((.prtCfg 0), 31, 28, 1), ((.prtStatus 0), 31, 28, 5), ((.domStatus 1), 31, 26, 0), ((.rail 4), 62, 62, 1)]) fun d => { d with sec.aliasHeld := true, sec.conns := [(.pool 0, 2)] }), by decide +kernel⟩,
    ⟨.pool 0, (tweak (on [((.prtCfg 0), 31, 28, 1), ((.prtStatus 0), 31, 28, 5), ((.domStatus 1), 31, 26, 0), ((.rail 4), 62, 62, 1)]) fun d => { d with sec.aliasHeld := true, sec.conns := [(.pool 0, 3)] }), by decide +kernel⟩,
    ⟨.pool 0, 0, (tweak (on [((.prtCfg 0), 31, 28, 1), ((.prtStatus 0), 31, 28, 5), ((.domStatus 1), 31, 26, 0), ((.rail 4), 62, 62, 1)]) fun d => { d with sec.aliasHeld := true, sec.conns := [(.pool 0, 3)] }), by decide +kernel⟩,
    ⟨.pool 0, 1, 0, (tweak (on [((.prtCfg 0), 31, 28, 1), ((.prtStatus 0), 31, 28, 5), ((.domStatus 1), 31, 26, 0), ((.rail 4), 62, 62, 1)]) fun d => { d with sec.aliasHeld := true, sec.conns := [(.pool 0, 3)] }), by decide +kernel⟩,
    ⟨.pool 0, (tweak (on [((.prtCfg 0), 31, 28, 1), ((.prtStatus 0), 31, 28, 5), ((.domStatus 1), 31, 26, 0), ((.rail 4), 62, 62, 1), (.keyStatus, 31, 31, 1)]) fun d => { d with sec.aliasHeld := true, sec.conns := [(.pool 0, 3)] }), by decide +kernel⟩,
    ⟨.pool 0, (tweak (on [((.prtCfg 0), 31, 28, 1), ((.prtStatus 0), 31, 28, 5), ((.domStatus 1), 31, 26, 0), ((.rail 4), 62, 62, 1)]) fun d => { d with sec.aliasHeld := true, sec.conns := [(.pool 0, 3)] }), by decide +kernel⟩,
    ⟨.pool 0, 1, (tweak (on [((.prtCfg 0), 31, 28, 1), ((.prtStatus 0), 31, 28, 5), ((.domStatus 1), 31, 26, 0), ((.rail 4), 62, 62, 1), (.keyStatus, 31, 31, 1)]) fun d => { d with sec.aliasHeld := true, sec.conns := [(.pool 0, 3)] }), by decide +kernel⟩,
    ⟨.pool 0, 10, (tweak (on [((.prtCfg 0), 31, 28, 1), ((.prtStatus 0), 31, 28, 5), ((.domStatus 1), 31, 26, 0), ((.rail 4), 62, 62, 1), (.keyStatus, 31, 31, 1)]) fun d => { d with sec.aliasHeld := true, sec.conns := [(.pool 0, 3)] }), by decide +kernel⟩⟩

/-- What the clauses of SpdmSessionsOpenCarryIdeKeysAndEnd assume can be met. -/
theorem witness_SpdmSessionsOpenCarryIdeKeysAndEnd :
    (∃ (path : Path) (s : State), s.dev.spdmUp path = true ∧
      3 ≤ s.dev.conn path ∧
      s.dev.sessionFree path = true ∧
      s.dev.drbgOk = true) ∧
    (∃ (path : Path) (s : State), s.dev.spdmUp path = true ∧
      3 ≤ s.dev.conn path ∧
      s.dev.sessionFree path = false) ∧
    (∃ (path : Path) (session : Nat) (x : SpdmSession) (s : State), s.dev.spdmUp path = true ∧
      3 ≤ s.dev.conn path ∧
      s.dev.session? path session = some x ∧
      x.finished = false) ∧
    (∃ (path : Path) (session : Nat) (x : SpdmSession) (s : State), s.dev.spdmUp path = true ∧
      3 ≤ s.dev.conn path ∧
      s.dev.session? path session = some x ∧
      x.finished = true) ∧
    (∃ (path : Path) (session : Nat) (s : State), s.dev.spdmUp path = true ∧
      3 ≤ s.dev.conn path ∧
      s.dev.session? path session = none) ∧
    (∃ (p : Fin 64) (session : Nat) (x : SpdmSession) (s : State), s.dev.spdmUp (.pool p) = true ∧
      3 ≤ s.dev.conn (.pool p) ∧
      s.dev.session? (.pool p) session = some x ∧
      x.finished = true ∧
      s.dev.portState p = 5) ∧
    (∃ (eid : Nat) (session : Nat) (x : SpdmSession) (s : State), s.dev.spdmUp (.mctp eid) = true ∧
      3 ≤ s.dev.conn (.mctp eid) ∧
      s.dev.session? (.mctp eid) session = some x ∧
      x.finished = true) ∧
    (∃ (path : Path) (s : State), s.dev.spdmUp path = false) :=
  ⟨⟨.pool 0, (tweak (on [((.prtCfg 0), 31, 28, 1), ((.prtStatus 0), 31, 28, 5), ((.domStatus 1), 31, 26, 0), ((.rail 4), 62, 62, 1), (.keyStatus, 31, 31, 1)]) fun d => { d with sec.aliasHeld := true, sec.conns := [(.pool 0, 3)] }), by decide +kernel⟩,
    ⟨.pool 0, (tweak (on [((.prtCfg 0), 31, 28, 1), ((.prtStatus 0), 31, 28, 5), ((.domStatus 1), 31, 26, 0), ((.rail 4), 62, 62, 1)]) fun d => { d with sec.aliasHeld := true, sec.conns := [(.pool 0, 3)], sec.sessions := [⟨0, .pool 0, false, 0⟩] }), by decide +kernel⟩,
    ⟨.pool 0, 0, _, (tweak (on [((.prtCfg 0), 31, 28, 1), ((.prtStatus 0), 31, 28, 5), ((.domStatus 1), 31, 26, 0), ((.rail 4), 62, 62, 1)]) fun d => { d with sec.aliasHeld := true, sec.conns := [(.pool 0, 3)], sec.sessions := [⟨0, .pool 0, false, 0⟩] }), by decide +kernel, by decide +kernel, some_of (by decide +kernel), by decide +kernel⟩,
    ⟨.pool 0, 0, _, (tweak (on [((.prtCfg 0), 31, 28, 1), ((.prtStatus 0), 31, 28, 5), ((.domStatus 1), 31, 26, 0), ((.rail 4), 62, 62, 1)]) fun d => { d with sec.aliasHeld := true, sec.conns := [(.pool 0, 3)], sec.sessions := [⟨0, .pool 0, true, 0⟩] }), by decide +kernel, by decide +kernel, some_of (by decide +kernel), by decide +kernel⟩,
    ⟨.pool 0, 0, (tweak (on [((.prtCfg 0), 31, 28, 1), ((.prtStatus 0), 31, 28, 5), ((.domStatus 1), 31, 26, 0), ((.rail 4), 62, 62, 1)]) fun d => { d with sec.aliasHeld := true, sec.conns := [(.pool 0, 3)] }), by decide +kernel⟩,
    ⟨0, 0, _, (tweak (on [((.prtCfg 0), 31, 28, 1), ((.prtStatus 0), 31, 28, 5), ((.domStatus 1), 31, 26, 0), ((.rail 4), 62, 62, 1)]) fun d => { d with sec.aliasHeld := true, sec.conns := [(.pool 0, 3)], sec.sessions := [⟨0, .pool 0, true, 0⟩] }), by decide +kernel, by decide +kernel, some_of (by decide +kernel), by decide +kernel⟩,
    ⟨0, 0, _, (tweak (on [((.prtCfg 0), 31, 28, 1), ((.prtStatus 0), 31, 28, 5), ((.domStatus 1), 31, 26, 0), ((.rail 4), 62, 62, 1)]) fun d => { d with sec.aliasHeld := true, sec.conns := [(.mctp 0, 3)], sec.sessions := [⟨0, .mctp 0, true, 0⟩] }), by decide +kernel, by decide +kernel, some_of (by decide +kernel), by decide +kernel⟩,
    ⟨.fm, on [], by decide +kernel⟩⟩

/-- What the clauses of DomainsSleepAndWake assume can be met. -/
theorem witness_DomainsSleepAndWake :
    (∃ (dom : Fin 124) (s : State), s.dev.maySleep dom 1 = true ∧
      s.dev.mayDoze dom = true) ∧
    (∃ (dom : Fin 124) (s : State), (s.dev.maySleep dom 1 = false ∨ s.dev.mayDoze dom = false)) ∧
    (∃ (dom : Fin 124) (s : State), s.dev.maySleep dom 2 = true ∧
      (∀ n, tget s.dev.pwr.napExit dom.val = some n → n + 32000000 ≤ s.dev.now) ∧
      (dom.val < 4 ∨ 8 ≤ dom.val) ∧
      s.dev.mayNap dom = true) ∧
    (∃ (dom : Fin 124) (s : State), s.dev.maySleep dom 2 = true ∧
      (∀ n, tget s.dev.pwr.napExit dom.val = some n → n + 32000000 ≤ s.dev.now) ∧
      4 ≤ dom.val ∧
      dom.val < 8) ∧
    (∃ (dom : Fin 124) (n : Nat) (s : State), tget s.dev.pwr.napExit dom.val = some n ∧
      s.dev.now < n + 32000000) ∧
    (∃ (dom : Fin 124) (s : State), s.dev.maySleep dom 3 = true ∧
      s.dev.mayDeep dom = true) ∧
    (∃ (dom : Fin 124) (s : State), (s.dev.maySleep dom 3 = false ∨ s.dev.mayDeep dom = false)) ∧
    (∃ (dom : Fin 124) (s : State), s.dev.aoOnly = false ∧
      s.dev.mgmt.coldHeld = false ∧
      (s.dev.domState dom = 1 ∨ s.dev.domState dom = 2) ∧
      tget s.dev.pwr.wakeFrom dom.val = none) ∧
    (∃ (dom : Fin 124) (s : State), s.dev.aoOnly = false ∧
      s.dev.mgmt.coldHeld = false ∧
      s.dev.domState dom = 3 ∧
      s.dev.switchOf dom = 2 ∧
      s.dev.railsOk dom = true ∧
      tget s.dev.pwr.wakeFrom dom.val = none) ∧
    (∃ (dom : Fin 124) (st : Nat) (s : State), tget s.dev.pwr.wakeFrom dom.val = some st ∧
      (st = 3 → s.dev.railsOk dom = true) ∧
      (s.dev.sw.napping ≠ some (dom.val - 4) ∨ dom.val < 4 ∨ 8 ≤ dom.val ∨ st ≠ 2)) ∧
    (∃ (dom : Fin 124) (s : State), tget s.dev.pwr.wakeFrom dom.val = none) ∧
    (∃ (dom : Fin 124) (q : Nat) (s : State), dom.val = q + 4 ∧
      q < 4 ∧
      tget s.dev.pwr.wakeFrom dom.val = some 2 ∧
      s.dev.sw.napping = some q) :=
  ⟨⟨1, (on [((.domStatus 1), 31, 29, 0), ((.domStatus 1), 28, 26, 0), ((.domCfg 1), 31, 30, 3)]), by decide +kernel⟩,
    ⟨0, on [], by decide +kernel⟩,
    ⟨1, (on [((.domStatus 1), 31, 29, 0), ((.domStatus 1), 28, 26, 0), ((.domCfg 1), 31, 30, 3)]), by decide +kernel, fun _ h => (by cases h), by decide +kernel⟩,
    ⟨4, (on [((.domStatus 4), 31, 29, 0), ((.domStatus 4), 28, 26, 0), ((.domCfg 4), 31, 30, 3)]), by decide +kernel, fun _ h => (by cases h), by decide +kernel⟩,
    ⟨0, 0, (tweak (on []) fun d => { d with pwr.napExit := [(0, 0)] }), by decide +kernel⟩,
    ⟨48, (on [((.domStatus 48), 31, 29, 0), ((.domStatus 48), 28, 26, 0), ((.domCfg 48), 31, 30, 3)]), by decide +kernel⟩,
    ⟨0, on [], by decide +kernel⟩,
    ⟨1, (on [((.domStatus 1), 31, 29, 1), ((.domStatus 1), 28, 26, 0), ((.domCfg 1), 31, 30, 3)]), by decide +kernel⟩,
    ⟨40, (on [((.domStatus 40), 31, 29, 3), ((.domStatus 40), 28, 26, 2), ((.domCfg 40), 31, 30, 3), ((.rail 0), 62, 62, 1)]), by decide +kernel⟩,
    ⟨1, 1, (tweak (on []) fun d => { d with pwr.wakeFrom := [(1, 1)] }), by decide +kernel, fun h => (by cases h), by decide +kernel⟩,
    ⟨0, on [], by decide +kernel⟩,
    ⟨4, 0, (tweak (on []) fun d => { d with pwr.wakeFrom := [(4, 2)], sw.napping := some 0 }), by decide +kernel⟩⟩

/-- What the clauses of BreakersTripRetryAndLatch assume can be met. -/
theorem witness_BreakersTripRetryAndLatch :
    (∃ (dom : Fin 124) (s : State), dom.val ≠ 0 ∧
      s.dev.segmentsOn dom = false) ∧
    (∃ (dom : Fin 124) (segment : Fin 2) (s : State), dom.val ≠ 0 ∧
      (segment.val = 1 → hasSegment1 dom = true) ∧
      s.dev.switchOf dom = 0 ∧
      s.dev.rd (.domStatus dom) 22 21 ≠ 3) ∧
    (∃ (dom : Fin 124) (segment : Fin 2) (s : State), dom.val ≠ 0 ∧
      (segment.val = 1 → hasSegment1 dom = true) ∧
      s.dev.switchOf dom = 1) ∧
    (∃ (s : State), let toB := !s.dev.bitOf .aoFeed 31
      s.dev.pwr.feedTripped = false ∧
      s.dev.bitOf .aoFeed (if toB then 29 else 30) = true) ∧
    (∃ (dom : Fin 124) (s : State), s.dev.switchOf dom = 3 ∧
      s.dev.railsOk dom = true) ∧
    (∃ (dom : Fin 124) (s : State), (s.dev.switchOf dom ≠ 3 ∨ s.dev.railsOk dom = false)) ∧
    (∃ (dom : Fin 124) (s : State), s.dev.switchOf dom = 1 ∧
      s.dev.domState dom = 3) ∧
    (∃ (dom : Fin 124) (s : State), s.dev.switchOf dom = 1 ∧
      s.dev.domState dom ≠ 3 ∧
      s.dev.rd (.domStatus dom) 25 23 ≠ 6) ∧
    (∃ (dom : Fin 124) (s : State), s.dev.switchOf dom = 1 ∧
      s.dev.domState dom ≠ 3 ∧
      s.dev.rd (.domStatus dom) 25 23 = 6) ∧
    (∃ (dom : Fin 124) (s : State), s.dev.switchOf dom ≠ 1) ∧
    (∃ (dom : Fin 124) (s : State), s.dev.switchOf dom = 1) ∧
    (∃ (dom : Fin 124) (s : State), s.dev.switchOf dom = 0) ∧
    (∃ (dom : Fin 124) (s : State), dom.val ∈ s.dev.pwr.checkDue) ∧
    (∃ (dom : Fin 124) (s : State), dom.val ∉ s.dev.pwr.checkDue) ∧
    (∃ (rail : Fin 7) (s : State), (4 ≤ rail.val ∨ s.dev.bitOf (.rail rail) 63 = false)) ∧
    (∃ (s : State), s.dev.mgmt.coldHeld = false) ∧
    (∃ (s : State), s.dev.bitOf .aoFeed 31 = false ∧
      s.dev.bitOf .aoFeed 30 = false ∧
      s.dev.bitOf .aoFeed 29 = true) ∧
    (∃ (s : State), s.dev.bitOf .aoFeed 31 = true ∧
      s.dev.bitOf .aoFeed 29 = false ∧
      s.dev.bitOf .aoFeed 30 = true) ∧
    (∃ (s : State), s.dev.bitOf .aoFeed 31 = true ∧
      s.dev.bitOf .aoFeed 30 = true ∧
      s.dev.pwr.feedTripped = false) ∧
    (∃ (s : State), (s.dev.bitOf .aoFeed 30 = true ∨ s.dev.bitOf .aoFeed 29 = true)) :=
  ⟨⟨1, (on [((.domStatus 1), 31, 29, 3), ((.domStatus 1), 28, 26, 2), ((.domCfg 1), 31, 30, 3)]), by decide +kernel⟩,
    ⟨1, 0, (on [((.domStatus 1), 31, 29, 0), ((.domStatus 1), 28, 26, 0), ((.domCfg 1), 31, 30, 3)]), by decide +kernel, fun h => (by cases h), by decide +kernel⟩,
    ⟨1, 0, (on [((.domStatus 1), 31, 29, 3), ((.domStatus 1), 28, 26, 1), ((.domCfg 1), 31, 30, 3)]), by decide +kernel, fun h => (by cases h), by decide +kernel⟩,
    ⟨(on [(.aoFeed, 31, 29, 3)]), by decide +kernel⟩,
    ⟨40, (on [((.domStatus 40), 31, 29, 3), ((.domStatus 40), 28, 26, 3), ((.domCfg 40), 31, 30, 3), ((.rail 0), 62, 62, 1)]), by decide +kernel⟩,
    ⟨0, on [], by decide +kernel⟩,
    ⟨0, (on [((.domStatus 0), 31, 29, 3), ((.domStatus 0), 28, 26, 1), ((.domCfg 0), 31, 30, 3)]), by decide +kernel⟩,
    ⟨0, (on [((.domStatus 0), 31, 29, 2), ((.domStatus 0), 28, 26, 1), ((.domCfg 0), 31, 30, 3)]), by decide +kernel⟩,
    ⟨0, (on [((.domStatus 0), 31, 29, 4), ((.domStatus 0), 28, 26, 1), ((.domCfg 0), 31, 30, 3), ((.domStatus 0), 25, 23, 6)]), by decide +kernel⟩,
    ⟨0, on [], by decide +kernel⟩,
    ⟨0, (on [((.domStatus 0), 31, 29, 3), ((.domStatus 0), 28, 26, 1), ((.domCfg 0), 31, 30, 3)]), by decide +kernel⟩,
    ⟨0, on [], by decide +kernel⟩,
    ⟨2, (tweak (on []) fun d => { d with pwr.checkDue := [2] }), by decide +kernel⟩,
    ⟨0, on [], by decide +kernel⟩,
    ⟨0, on [], by decide +kernel⟩,
    ⟨on [], by decide +kernel⟩,
    ⟨(on [(.aoFeed, 31, 29, 1)]), by decide +kernel⟩,
    ⟨(on [(.aoFeed, 31, 29, 6)]), by decide +kernel⟩,
    ⟨(on [(.aoFeed, 31, 29, 6)]), by decide +kernel⟩,
    ⟨(on [(.aoFeed, 31, 29, 6)]), by decide +kernel⟩⟩

/-- What the clauses of RailsFeedsClocksAndVoltageFollowTheirTables assume can be met. -/
theorem witness_RailsFeedsClocksAndVoltageFollowTheirTables :
    (∃ (rail : Fin 7) (s : State), (s.dev.bitOf (.rail rail) 63 = false ∨ 4 ≤ rail.val)) ∧
    (∃ (rail : Fin 7) (s : State), rail.val ≤ 3 ∧
      s.dev.bitOf (.rail rail) 63 = true) ∧
    (∃ (rail : Fin 7) (s : State), rail.val ≤ 1 ∧
      s.dev.bitOf (.rail rail) 63 = true ∧
      s.dev.mgmt.coldHeld = false) ∧
    (∃ (s : State), s.dev.bitOf (.rail 4) 63 = true ∧
      s.dev.bitOf .sbsCtl 31 = true ∧
      s.dev.bitOf .sbsStatus 31 = false) ∧
    (∃ (rail : Fin 7) (s : State), s.dev.mgmt.coldHeld = false ∧
      (rail.val = 2 ∨ rail.val = 3 → s.dev.bitOf (.rail (5 - rail.val)) 62 = false)) ∧
    (∃ (rail : Fin 7) (s : State), s.dev.mgmt.coldHeld = true ∧
      rail.val < 5) ∧
    (∃ (rail : Fin 7) (s : State), s.dev.mgmt.coldHeld = true ∧
      5 ≤ rail.val) ∧
    (∃ (rail : Fin 7) (s : State), s.dev.mgmt.coldHeld = false ∧
      (rail.val = 2 ∨ rail.val = 3) ∧
      s.dev.bitOf (.rail (5 - rail.val)) 62 = true) ∧
    (∃ (s : State), let toB := !s.dev.bitOf .aoFeed 31
      s.dev.bitOf .aoFeed (if toB then 30 else 29) = false ∧
      s.dev.bitOf .aoFeed (if toB then 29 else 30) = true) ∧
    (∃ (s : State), s.dev.bitOf .aoFeed (if s.dev.bitOf .aoFeed 31 then 29 else 30) = true ∨
      s.dev.bitOf .aoFeed (if s.dev.bitOf .aoFeed 31 then 30 else 29) = false) ∧
    (∃ (s : State), s.dev.bitOf .aoFeed 31 = true ∧
      s.dev.bitOf .aoFeed 30 = true ∧
      s.dev.pwr.feedTripped = false) ∧
    (∃ (s : State), (s.dev.bitOf .aoFeed 31 = false ∨ s.dev.bitOf .aoFeed 30 = false ∨ s.dev.pwr.feedTripped = true)) ∧
    (∃ (s : State), (s.dev.bitOf .aoFeed 30 = true ∨ s.dev.bitOf .aoFeed 29 = true)) ∧
    (∃ (s : State), s.dev.bitOf .aoFeed 30 = false ∧
      s.dev.bitOf .aoFeed 29 = false) ∧
    (∃ (source : Fin 3) (s : State), s.dev.aoOnly = true ∧
      bit s.dev.pwr.wakeMask source = true) ∧
    (∃ (source : Fin 3) (s : State), (s.dev.aoOnly = false ∨ bit s.dev.pwr.wakeMask source = false)) ∧
    (∃ (s : State), (s.dev.pwr.timerS = 0 ∨ s.dev.aoOnly = false ∨ bit s.dev.pwr.wakeMask 2 = false)) ∧
    (∃ (s : State), (s.dev.aoOnly = false ∨ bit s.dev.pwr.wakeMask 1 = false)) ∧
    (∃ (s : State), s.dev.pwr.timerS ≠ 0 ∧
      s.dev.aoOnly = true ∧
      bit s.dev.pwr.wakeMask 2 = true) ∧
    (∃ (s : State), s.dev.aoOnly = true ∧
      bit s.dev.pwr.wakeMask 1 = true) ∧
    (∃ (target : BitVec 12) (s : State), s.dev.stepsTo target.toNat) ∧
    (∃ (target : BitVec 12) (s : State), ¬s.dev.stepsTo target.toNat) ∧
    (∃ (s : State), s.pending = [] ∧
      s.dev.pwr.avsHold = 1 ∧
      50 ≤ s.dev.rd .avs 11 0 ∧
      s.dev.rd .avs 11 0 ≤ 4045) :=
  ⟨⟨0, on [], by decide +kernel⟩,
    ⟨0, (on [((.rail 0), 63, 63, 1)]), by decide +kernel⟩,
    ⟨0, (on [((.rail 0), 63, 63, 1)]), by decide +kernel⟩,
    ⟨(on [((.rail 4), 63, 63, 1), (.sbsCtl, 31, 31, 1)]), by decide +kernel⟩,
    ⟨0, on [], by decide +kernel⟩,
    ⟨0, (tweak (on []) fun d => { d with mgmt.coldHeld := true }), by decide +kernel⟩,
    ⟨5, State.reset, by decide +kernel⟩,
    ⟨2, (on [((.rail 3), 62, 62, 1), ((.domStatus 44), 31, 29, 4), ((.domStatus 44), 28, 26, 2), ((.domStatus 44), 25, 23, 6)]), by decide +kernel⟩,
    ⟨(on [(.aoFeed, 31, 29, 1)]), by decide +kernel⟩,
    ⟨(on [(.aoFeed, 31, 29, 3)]), by decide +kernel⟩,
    ⟨(on [(.aoFeed, 31, 30, 3)]), by decide +kernel⟩,
    ⟨on [], by decide +kernel⟩,
    ⟨(on [(.aoFeed, 30, 29, 3)]), by decide +kernel⟩,
    ⟨on [], by decide +kernel⟩,
    ⟨1, (tweak (on [(.sleepCtl, 30, 30, 1)]) fun d => { d with pwr.wakeMask := 7 }), by decide +kernel⟩,
    ⟨0, on [], by decide +kernel⟩,
    ⟨on [], by decide +kernel⟩,
    ⟨on [], by decide +kernel⟩,
    ⟨(tweak (on [(.sleepCtl, 30, 30, 1)]) fun d => { d with pwr.wakeMask := 7, pwr.timerS := 1 }), by decide +kernel⟩,
    ⟨(tweak (on [(.sleepCtl, 30, 30, 1)]) fun d => { d with pwr.wakeMask := 7 }), by decide +kernel⟩,
    ⟨750, (on [(.avs, 31, 31, 1)]), steps (by decide +kernel)⟩,
    ⟨0, (on []), fun h => by have := h.2.2.2.1; revert this; decide⟩,
    ⟨(tweak (on []) fun d => { d with pwr.avsHold := 1 }), by decide +kernel⟩⟩

/-- What the clauses of PowerPolicySetsDomainsCurvesAndSleep assume can be met. -/
theorem witness_PowerPolicySetsDomainsCurvesAndSleep :
    (∃ (path : Path) (input : List Byte) (s : State), s.dev.takesStoluo path 0xC070 ∧
      domainsForm input = true ∧
      (∀ e ∈ policyEntries input, e.1 = 2 → getBits e.2 31 30 ≠ 3)) ∧
    (∃ (path : Path) (input : List Byte) (i : Nat) (v : Word) (s : State), s.dev.takesStoluo path 0xC070 ∧
      domainsForm input = true ∧
      policyEntries input = [(i, v)] ∧
      (i = 2 → getBits v 31 30 ≠ 3)) ∧
    (∃ (path : Path) (input : List Byte) (s : State), s.dev.takesStoluo path 0xC070 ∧
      domainsForm input = true ∧
      (∃ e ∈ policyEntries input, e.1 = 2 ∧ getBits e.2 31 30 = 3)) ∧
    (∃ (path : Path) (input : List Byte) (s : State), s.dev.takesStoluo path 0xC070 ∧
      curveForm input = true) ∧
    (∃ (path : Path) (input : List Byte) (s : State), s.dev.takesStoluo path 0xC070 ∧
      curveForm input = false) ∧
    (∃ (path : Path) (input : List Byte) (s : State), s.dev.takesStoluo path 0xC070 ∧
      aoOnlyForm input = true ∧
      s.dev.anyBound = false) ∧
    (∃ (path : Path) (input : List Byte) (s : State), s.dev.takesStoluo path 0xC070 ∧
      aoOnlyForm input = true ∧
      s.dev.anyBound = true) ∧
    (∃ (path : Path) (input : List Byte) (s : State), s.dev.takesStoluo path 0xC070 ∧
      avsForm input = true ∧
      field input 1 1 = 1) ∧
    (∃ (path : Path) (input : List Byte) (s : State), s.dev.takesStoluo path 0xC070 ∧
      avsForm input = true ∧
      field input 1 1 = 0) ∧
    (∃ (s : State), s.dev.pwr.timerS ≠ 0) ∧
    (∃ (target : BitVec 12) (s : State), s.dev.stepsTo target.toNat) :=
  ⟨⟨.fm, ([0, 1] ++ zeros 6 ++ toBytes 2 1 ++ zeros 2 ++ toBytes 4 (0x40A06464)), on [], sto (by decide +kernel), by decide +kernel⟩,
    ⟨.fm, ([0, 1] ++ zeros 6 ++ toBytes 2 1 ++ zeros 2 ++ toBytes 4 (0x40A06464)), 1, 0x40A06464, on [], sto (by decide +kernel), by decide +kernel⟩,
    ⟨.fm, ([0, 1] ++ zeros 6 ++ toBytes 2 2 ++ zeros 2 ++ toBytes 4 (0xC0A06464)), on [], sto (by decide +kernel), by decide +kernel⟩,
    ⟨.fm, (zeros 8 ++ toBytes 4 0x64000010 ++ zeros 28), on [], sto (by decide +kernel), by decide +kernel⟩,
    ⟨.fm, [], on [], sto (by decide +kernel), by decide +kernel⟩,
    ⟨.fm, ([0, 1] ++ zeros 6), on [], sto (by decide +kernel), by decide +kernel⟩,
    ⟨.fm, ([0, 1] ++ zeros 6), (tweak (on []) fun d => { d with pool.blocks := ⟨[(0, bound)], [(0, bound)]⟩ }), sto (by decide +kernel), by decide +kernel⟩,
    ⟨.fm, ([0, 1, 5] ++ zeros 5), on [], sto (by decide +kernel), by decide +kernel⟩,
    ⟨.fm, zeros 8, on [], sto (by decide +kernel), by decide +kernel⟩,
    ⟨(tweak (on []) fun d => { d with pwr.timerS := 1 }), by decide +kernel⟩,
    ⟨750, (on [(.avs, 31, 31, 1)]), steps (by decide +kernel)⟩⟩

end Sys2Proof.Tests
end

section
/-! PROOFS. Register accesses: what a check that lets an access through leaves, what stands at an offset without a register, and what a
write does to the fields of a register by their access codes (R5 to R8). Settles O2, O6 and O9. -/

namespace Sys2Proof.Machine

/-! ### Reset -/

/-- The status registers tell the reset state: no key, an empty buffer of four quarters, no source pending, FAULT_B high. -/
theorem Dev.statusTrue_reset : Dev.reset.statusTrue := by
  refine ⟨?_, ?_, ?_, ?_, ?_, ?_⟩ <;> decide

/-- Settles O2: no register is listed at reset, so each reads its reset value. -/
theorem resetLeavesRegistersAtTheirResetValues : Obligations.ResetLeavesRegistersAtTheirResetValues :=
  ⟨fun _ => rfl, rfl, rfl, by decide, by decide, by decide, rfl, rfl, rfl, rfl, Dev.statusTrue_reset⟩

/-! ### The checks of an access -/

/-- Reaching the domain that holds a register changes at most the power records. -/
theorem Dev.reachHeld_pwr (d : Dev) (h : Held) : ∃ p, (d.reachHeld h).2 = { d with pwr := p } := by
  have hw : ∀ i, ∃ p, d.wake i = { d with pwr := p } := fun i => by
    unfold Dev.wake
    dsimp only
    split
    · exact ⟨_, rfl⟩
    · exact ⟨d.pwr, rfl⟩
  unfold Dev.reachHeld
  dsimp only
  split
  · exact ⟨d.pwr, rfl⟩
  split
  · exact ⟨d.pwr, rfl⟩
  split
  · exact ⟨d.pwr, rfl⟩
  split
  · exact hw _
  · exact ⟨d.pwr, rfl⟩

/-- The next domain of an access is reached where those before it were. -/
def reachNext (s : RegStatus × Dev) (h : Held) : RegStatus × Dev :=
  if s.1 = .ok then (if (s.2.reachHeld h).1 then RegStatus.ok else RegStatus.off, (s.2.reachHeld h).2) else s

theorem foldl_reachNext_pwr (l : List Held) (s : RegStatus × Dev) : ∃ p, (l.foldl reachNext s).2 = { s.2 with pwr := p } := by
  induction l generalizing s with
  | nil => exact ⟨s.2.pwr, rfl⟩
  | cons h r ih =>
    obtain ⟨p, hp⟩ := ih (reachNext s h)
    obtain ⟨q, hq⟩ : ∃ q, (reachNext s h).2 = { s.2 with pwr := q } := by
      unfold reachNext
      split
      · exact s.2.reachHeld_pwr h
      · exact ⟨s.2.pwr, rfl⟩
    exact ⟨p, by rw [List.foldl_cons, hp, hq]⟩

/-- An access that the checks let through has the form of R6, has reached the domains of the registers it meets, and has changed at most
the power records. -/
theorem Dev.regCheckAs_ok {d d' : Dev} {who : RegRequester} {q : Option Requester} {a w : Nat} {write : Bool}
    (h : d.regCheckAs who q a w write = (.ok, d')) :
    (w = 4 ∨ w = 8) ∧ (((d.regsMet who a w).map fun r => r.layout.held).dedup).foldl reachNext (.ok, d) = (.ok, d') := by
  unfold Dev.regCheckAs at h
  split at h
  · cases h
  · rename_i hform
    simp only [Bool.or_eq_true, Bool.not_eq_true', decide_eq_false_iff_not, not_or, not_not] at hform
    split at h
    · cases h
    · exact ⟨hform.2.1, h⟩

/-- An access that meets no register reaches no domain, so its checks change nothing. -/
theorem Dev.regCheckAs_ok_unmet {d d' : Dev} {who : RegRequester} {q : Option Requester} {a w : Nat} {write : Bool}
    (h : d.regCheckAs who q a w write = (.ok, d')) (hm : d.regsMet who a w = []) : d' = d := by
  have hf := (Dev.regCheckAs_ok h).2
  rw [hm] at hf
  exact (congrArg Prod.snd hf).symm

theorem Dev.regCheckAs_ok_pwr {d d' : Dev} {who : RegRequester} {q : Option Requester} {a w : Nat} {write : Bool}
    (h : d.regCheckAs who q a w write = (.ok, d')) : ∃ p, d' = { d with pwr := p } := by
  obtain ⟨p, hp⟩ := foldl_reachNext_pwr (((d.regsMet who a w).map fun r => r.layout.held).dedup) (.ok, d)
  rw [(Dev.regCheckAs_ok h).2] at hp
  exact ⟨p, hp⟩

/-! ### Offsets without a register -/

/-- No register stands at an offset, and it is no upper half of a 64-bit one. -/
def Dev.unoccupied (d : Dev) (who : RegRequester) (x : Nat) : Prop :=
  d.regAt who x = none ∧ (x % 8 = 4 → ∀ r, d.regAt who (x - 4) = some r → r.layout.width ≠ 64)

/-- The registers that a 4-byte access meets. -/
theorem Dev.unoccupied_of_regsMet_four {d : Dev} {who : RegRequester} {x : Nat} (h : d.regsMet who x 4 = []) : d.unoccupied who x := by
  unfold Dev.regsMet at h
  dsimp only at h
  rw [if_neg (by decide)] at h
  split at h
  · cases h
  · rename_i hx
    refine ⟨hx, fun h4 r hr => ?_⟩
    rw [if_pos h4, hr] at h
    simpa using h

/-- An access of 8 bytes meets what its halves meet. -/
theorem Dev.regsMet_eight (d : Dev) (who : RegRequester) (a : Nat) :
    d.regsMet who a 8 = (d.regsMet who a 4 ++ d.regsMet who (a + 4) 4).dedup := rfl

/-- Where an access meets no register, both its halves are unoccupied. -/
theorem Dev.unoccupied_of_regsMet {d : Dev} {who : RegRequester} {a w : Nat} (hw : w = 4 ∨ w = 8) (h : d.regsMet who a w = []) :
    d.unoccupied who a ∧ (w = 8 → d.unoccupied who (a + 4)) := by
  rcases hw with rfl | rfl
  · exact ⟨Dev.unoccupied_of_regsMet_four h, fun h8 => absurd h8 (by decide)⟩
  · rw [Dev.regsMet_eight, List.dedup_eq_nil, List.append_eq_nil_iff] at h
    exact ⟨Dev.unoccupied_of_regsMet_four h.1, fun _ => Dev.unoccupied_of_regsMet_four h.2⟩

theorem Dev.read32_unoccupied {d : Dev} {who : RegRequester} {x : Nat} (h : d.unoccupied who x) : d.read32 who x = (0, d) := by
  obtain ⟨hx, hlow⟩ := h
  unfold Dev.read32
  rw [hx]
  dsimp only
  split
  · rename_i r hr
    obtain ⟨h4, hr⟩ : x % 8 = 4 ∧ d.regAt who (x - 4) = some r := by simpa using hr
    rw [if_neg (hlow h4 r hr)]
  · rfl

theorem Dev.write32_unoccupied {d : Dev} {who : RegRequester} {x : Nat} (h : d.unoccupied who x) (v : Nat) : d.write32 who x v = d := by
  obtain ⟨hx, hlow⟩ := h
  unfold Dev.write32
  rw [hx]
  dsimp only
  split
  · rename_i r hr
    obtain ⟨h4, hr⟩ : x % 8 = 4 ∧ d.regAt who (x - 4) = some r := by simpa using hr
    rw [if_neg (hlow h4 r hr)]
  · rfl

/-- A read where no register stands gives 0 (R7). -/
theorem Dev.regRead_unmet {d : Dev} {who : RegRequester} {a w : Nat} (hw : w = 4 ∨ w = 8) (h : d.regsMet who a w = []) :
    d.regRead who a w = (0, d) := by
  obtain ⟨hlow, hhigh⟩ := Dev.unoccupied_of_regsMet hw h
  rcases hw with rfl | rfl
  · simp [Dev.regRead, Dev.read32_unoccupied hlow]
  · simp [Dev.regRead, hlow.1, Dev.read32_unoccupied hlow, Dev.read32_unoccupied (hhigh rfl)]

/-- A write where no register stands has no effect (R7). -/
theorem Dev.regWrite_unmet {d : Dev} {who : RegRequester} {a w : Nat} (hw : w = 4 ∨ w = 8) (h : d.regsMet who a w = []) (v : Word) :
    d.regWrite who a w v = d := by
  obtain ⟨hlow, hhigh⟩ := Dev.unoccupied_of_regsMet hw h
  rcases hw with rfl | rfl
  · simp [Dev.regWrite, Dev.write32_unoccupied hlow]
  · simp [Dev.regWrite, hlow.1, Dev.write32_unoccupied hlow, Dev.write32_unoccupied (hhigh rfl)]

/-- A 4-byte write is one 32-bit write. -/
theorem Dev.regWrite_four (d : Dev) (who : RegRequester) (a : Nat) (v : Word) :
    d.regWrite who a 4 v = d.write32 who a (v.toNat % 2 ^ 32) := rfl

/-! ### What a register write answers -/

theorem exec_registerWrite_onDev (who : RegRequester) (a w : Nat) (v : Word) (s : State) :
    exec (.registerWrite who a w v) s = onDev s fun d => d.accessWrite who a w v := rfl

/-- A write that the checks let through is made, and a path that answers is told so. -/
theorem Dev.accessWrite_ok {d d' : Dev} {who : RegRequester} {a w : Nat} (v : Word) (h : d.regCheck who a w true = (.ok, d')) :
    d.accessWrite who a w v =
      if byCxlIo who then d'.regWrite who a w v else (d'.regWrite who a w v).emit (.access (regKind who) 0 0) := by
  unfold Dev.accessWrite
  rw [h]
  simp [Dev.accessEnds]

/-- The output of a read of 0. -/
theorem toBytes_zero : toBytes 8 (0 : Word).toNat = [0, 0, 0, 0, 0, 0, 0, 0] := by decide

/-- Settles O6: the checks reach no domain and the access reads or writes nothing. -/
theorem unoccupiedOffsetsReadZeroAndIgnoreWrites : Obligations.UnoccupiedOffsetsReadZeroAndIgnoreWrites := by
  refine ⟨fun path input d1 s htakes hform hcheck hmet => ?_, fun who a w v d1 s hcheck hmet => ?_⟩
  · have hw := (Dev.regCheckAs_ok hcheck).1
    obtain rfl := Dev.regCheckAs_ok_unmet hcheck hmet
    refine yields_stoluo htakes rfl hform ?_
    dsimp only
    rw [hcheck]
    dsimp only
    rw [Dev.regRead_unmet hw hmet, toBytes_zero]
    exact ⟨Dev.replied_end (by decide), Dev.onlyRead_end⟩
  · obtain rfl := Dev.regCheckAs_ok_unmet hcheck hmet
    refine exec_onto (exec_registerWrite_onDev who a w v s) ?_
    rw [Dev.accessWrite_ok v hcheck, Dev.regWrite_unmet (Dev.regCheckAs_ok hcheck).1 hmet]

end Sys2Proof.Machine
end

section
/-! PROOFS. What a software write does to a register of which only the access codes govern the fields (R5, R6, R8). Settles O9. -/

namespace Sys2Proof.Machine

/-! ### The fields of a register -/

/-- A bit lies in a field. -/
def RegField.has (f : RegField) (i : Nat) : Bool := decide (f.lo ≤ i ∧ i ≤ f.hi)

/-- The fields of every register are listed from the highest to the lowest, and none meets another. -/
theorem Reg.fields_descend (r : Reg) : r.layout.fields.Pairwise fun f g => g.hi < f.lo := by
  cases r with
  | prtHostWeight p n => by_cases hn : n = 20 <;> simp [Reg.layout, hn]
  | dmv c x => cases x <;> simp [Reg.layout]
  | ring h i n x => cases x <;> simp [Reg.layout]
  | _ => simp [Reg.layout]

/-- A register has 32 or 64 bits. -/
theorem Reg.width_cases (r : Reg) : r.layout.width = 32 ∨ r.layout.width = 64 := by
  cases r with
  | dmv c x => cases x <;> simp [Reg.layout]
  | ring h i n x => cases x <;> simp [Reg.layout]
  | _ => simp [Reg.layout]

/-- No bit lies in two fields of a register. -/
theorem Reg.field_unique (r : Reg) {f g : RegField} (hf : f ∈ r.layout.fields) (hg : g ∈ r.layout.fields) {i : Nat}
    (hfi : f.has i = true) (hgi : g.has i = true) : g = f := by
  simp only [RegField.has, decide_eq_true_eq] at hfi hgi
  by_contra hne
  have hdis : r.layout.fields.Pairwise fun f g => ¬(f.has i = true ∧ g.has i = true) :=
    r.fields_descend.imp fun {a b} hab => by simp only [RegField.has, decide_eq_true_eq]; omega
  have : Std.Symm fun f g : RegField => ¬(f.has i = true ∧ g.has i = true) := ⟨fun _ _ h h' => h h'.symm⟩
  exact hdis.forall hg hf hne (by simp [RegField.has, hfi, hgi])

/-! ### Masks of chosen fields -/

/-- The mask of the fields whose access code is chosen. -/
def fieldsMask (p : Acc → Bool) (l : List RegField) (m : Word) : Word :=
  l.foldl (fun m f => if p f.acc then m ||| fieldMask f.hi f.lo else m) m

theorem testBit_fieldsMask (p : Acc → Bool) (l : List RegField) (m : Word) {i : Nat} (hi : i < 64) :
    (fieldsMask p l m).toNat.testBit i = (m.toNat.testBit i || l.any fun f => p f.acc && f.has i) := by
  induction l generalizing m with
  | nil => simp [fieldsMask]
  | cons f r ih =>
    have hbit : (fieldMask f.hi f.lo).toNat.testBit i = f.has i := by
      rw [testBit_fieldMask, RegField.has, Bool.eq_iff_iff]
      simp only [Bool.and_eq_true, decide_eq_true_eq]
      omega
    rw [fieldsMask, List.foldl_cons]
    refine (ih _).trans ?_
    cases hp : p f.acc <;> simp [hp, hbit, Bool.or_assoc]

/-- In a field of a register, the mask of the chosen access codes holds the bits of the field or none of them. -/
theorem Reg.testBit_fieldsMask_mem (r : Reg) (p : Acc → Bool) {f : RegField} (hf : f ∈ r.layout.fields) {i : Nat} (hi : i < 64)
    (hfi : f.has i = true) : (fieldsMask p r.layout.fields 0).toNat.testBit i = p f.acc := by
  rw [testBit_fieldsMask p _ _ hi, Bool.eq_iff_iff]
  simp only [BitVec.ofNat_eq_ofNat, BitVec.toNat_ofNat, Nat.zero_mod, Nat.zero_testBit, Bool.false_or, List.any_eq_true, Bool.and_eq_true]
  constructor
  · rintro ⟨g, hg, hp, hgi⟩
    rwa [r.field_unique hf hg hfi hgi] at hp
  · exact fun hp => ⟨f, hf, hp, hfi⟩

theorem Reg.mask_eq (r : Reg) : r.mask = fieldsMask (fun a => !decide (a = .wo)) r.layout.fields 0 := by
  unfold Reg.mask fieldsMask
  congr 1
  funext m f
  by_cases h : f.acc = .wo <;> simp [h]

theorem Reg.writable_eq (r : Reg) :
    r.writable true = fieldsMask (fun a => decide (a = .rw ∨ a = .rws ∨ a = .rwl)) r.layout.fields 0 := by
  unfold Reg.writable fieldsMask
  congr 1
  funext m f
  cases f.acc <;> simp

theorem Reg.clearable_eq (r : Reg) : r.clearable = fieldsMask (fun a => decide (a = .rw1c)) r.layout.fields 0 := by
  unfold Reg.clearable fieldsMask
  congr 1
  funext m f
  by_cases h : f.acc = .rw1c <;> simp [h]

/-! ### A software write -/

theorem testBit_not (v : Word) {i : Nat} (hi : i < 64) : (~~~v).toNat.testBit i = !v.toNat.testBit i := by
  rw [BitVec.testBit_toNat, BitVec.getLsbD_not, BitVec.testBit_toNat]
  simp [hi]

/-- A bit of a field that the access covers follows the access code of the field. -/
theorem Reg.testBit_softWrite (r : Reg) (old v lanes : Word) {f : RegField} (hf : f ∈ r.layout.fields) {i : Nat} (hi : i < 64)
    (hfi : f.has i = true) (hlane : lanes.toNat.testBit i = true) :
    (r.softWrite true old v lanes).toNat.testBit i = f.acc.after (old.toNat.testBit i) (v.toNat.testBit i) := by
  unfold Reg.softWrite
  simp only [r.mask_eq, r.writable_eq, r.clearable_eq, BitVec.toNat_and, BitVec.toNat_or, Nat.testBit_and, Nat.testBit_or,
    testBit_not _ hi, r.testBit_fieldsMask_mem _ hf hi hfi, hlane]
  cases f.acc <;> simp [Acc.after]

/-- Bits that lie in no field are not in the mask. -/
theorem Reg.testBit_mask_reserved (r : Reg) {i : Nat} (h : ∀ f ∈ r.layout.fields, f.has i = false) : r.mask.toNat.testBit i = false := by
  by_cases hi : i < 64
  · rw [r.mask_eq, testBit_fieldsMask _ _ _ hi]
    simpa using fun f hf _ => h f hf
  · exact testBit_word_high _ (by omega)

/-- What a software write lists is within the mask already. -/
theorem Dev.reg_softWrite_same (d : Dev) (r : Reg) (v lanes : Word) :
    (d.softWrite r true v lanes).reg r = r.softWrite true (d.reg r) v lanes := by
  rw [Dev.softWrite, Dev.reg_setReg_same]
  unfold Reg.softWrite
  dsimp only
  rw [BitVec.and_assoc, BitVec.and_self]

/-- A register without a rule of its own takes a software write. -/
theorem Dev.writeReg_plain (d : Dev) {r : Reg} (h : r.plain = true) (v lanes : Word) :
    d.writeReg r v lanes = d.softWrite r true v lanes := by
  cases r <;> cases h <;> rfl

/-- The word and the lanes of a write give every bit that the access covers. -/
def writeCovers (w : Nat) (v v' lanes : Word) : Prop := ∀ i, i < 8 * w → v'.toNat.testBit i = v.toNat.testBit i ∧ lanes.toNat.testBit i = true

theorem writeCovers_eight (v : Word) : writeCovers 8 v v allLanes := fun i hi => by
  refine ⟨rfl, ?_⟩
  rw [show allLanes.toNat = 2 ^ 64 - 1 from rfl, Nat.testBit_two_pow_sub_one]
  simpa using hi

theorem writeCovers_four (v : Word) : writeCovers 4 v (BitVec.ofNat 64 (v.toNat % 2 ^ 32 % 2 ^ 32)) lowLanes := fun i hi => by
  constructor
  · rw [BitVec.toNat_ofNat, Nat.mod_mod, Nat.testBit_mod_two_pow, Nat.testBit_mod_two_pow]
    simp [show i < 64 by omega, show i < 32 by omega]
  · rw [show lowLanes.toNat = 2 ^ 32 - 1 from rfl, Nat.testBit_two_pow_sub_one]
    simpa using hi

/-- A write at the width or the low half of a register without a rule of its own is one software write of it (R6). -/
theorem Dev.regWrite_plain {d : Dev} {who : RegRequester} {a w : Nat} {r : Reg} (v : Word) (hat : d.regAt who a = some r)
    (hp : r.plain = true) (hw : w = 4 ∨ w = 8) (hwidth : w = r.layout.width / 8 ∨ w = 4) :
    ∃ v' lanes, d.regWrite who a w v = d.softWrite r true v' lanes ∧ writeCovers w v v' lanes := by
  rcases hw with rfl | rfl
  · refine ⟨_, _, ?_, writeCovers_four v⟩
    rw [Dev.regWrite_four, Dev.write32, hat]
    exact d.writeReg_plain hp _ _
  · have h64 : r.layout.width = 64 := by have := r.width_cases; omega
    refine ⟨_, _, ?_, writeCovers_eight v⟩
    rw [← d.writeReg_plain hp]
    simp [Dev.regWrite, hat, Option.filter, h64]

theorem Reg.show_of_plain {r : Reg} (h : r.plain = true) : r.show = false := by
  cases r <;> cases h <;> rfl

/-- What a register write that only the access codes govern leaves (R5, R8). -/
theorem Dev.softWrite_leaves (d : Dev) (r : Reg) (w : Nat) (v v' lanes : Word) (hc : writeCovers w v v' lanes) (hw : w = 4 ∨ w = 8) :
    (∀ f ∈ r.layout.fields, ∀ i, f.lo ≤ i → i ≤ f.hi → i < 8 * w →
        ((d.softWrite r true v' lanes).reg r).toNat.testBit i = f.acc.after ((d.reg r).toNat.testBit i) (v.toNat.testBit i)) ∧
      (∀ i, (∀ f ∈ r.layout.fields, ¬(f.lo ≤ i ∧ i ≤ f.hi)) → ((d.softWrite r true v' lanes).reg r).toNat.testBit i = false) ∧
      ∀ r', r' ≠ r → (d.softWrite r true v' lanes).reg r' = d.reg r' := by
  refine ⟨fun f hf i h1 h2 h3 => ?_, fun i hi => ?_, fun r' hr => d.reg_setReg_ne _ hr⟩
  · obtain ⟨hv, hl⟩ := hc i h3
    rw [Dev.reg_softWrite_same, r.testBit_softWrite _ _ _ hf (by omega) (by simp [RegField.has, h1, h2]) hl, hv]
  · rw [Dev.softWrite, Dev.reg_setReg_same, BitVec.toNat_and, Nat.testBit_and,
      r.testBit_mask_reserved fun f hf => by simpa [RegField.has] using hi f hf, Bool.and_false]

/-- Telling a path that its access was served, and showing the status registers, leaves the other registers. -/
theorem Dev.reg_answered (d : Dev) (who : RegRequester) (o : Out) {r : Reg} (h : r.show = false) :
    ((if byCxlIo who then d else d.emit o).shown).reg r = d.reg r := by
  rw [Dev.reg_shown _ _ h]
  split <;> rfl

theorem Dev.onlyRegs_answered (d : Dev) (p : PwrState) (who : RegRequester) (o : Out) (r : Reg) (v lanes : Word) :
    d.onlyRegs (if byCxlIo who then ({ d with pwr := p } : Dev).softWrite r true v lanes
      else (({ d with pwr := p } : Dev).softWrite r true v lanes).emit o).shown := by
  unfold Dev.onlyRegs
  split <;> simp [Dev.softWrite]

/-- A CXL.io access of a wrong width or alignment is refused for its form. -/
theorem Dev.regCheck_misformed (d : Dev) (who : RegRequester) {a w : Nat} (write : Bool) (h : ¬((w = 4 ∨ w = 8) ∧ a % w = 0)) :
    d.regCheck who a w write = (.unsupported, d) := by
  unfold Dev.regCheck Dev.regCheckAs
  have hf : decide ((w = 4 ∨ w = 8) ∧ a % w = 0 ∧ a + w ≤ spaceSize who) = false := decide_eq_false fun h' => h ⟨h'.1, h'.2.1⟩
  rw [if_pos (by simp [hf])]

/-- Settles O9: a write of a plain register is one software write, whose bits follow the access codes. -/
theorem registerWriteFollowsAccessCodes : Obligations.RegisterWriteFollowsAccessCodes := by
  refine ⟨fun who a w v s d r hcheck hat hp hwidth => ?_, fun who a w v s hio hform => ?_,
    fun who a v s d hcheck hat hlow => ?_, fun m s hao hdom => ?_⟩
  · have hw := (Dev.regCheckAs_ok hcheck).1
    obtain ⟨p, rfl⟩ := Dev.regCheckAs_ok_pwr hcheck
    have hat' : ({ s.dev with pwr := p } : Dev).regAt who a = some r := hat
    obtain ⟨v', lanes, hwrite, hcov⟩ := Dev.regWrite_plain v hat' hp hw hwidth
    obtain ⟨hfields, hreserved, hothers⟩ := Dev.softWrite_leaves { s.dev with pwr := p } r w v v' lanes hcov hw
    refine yields_onDev (exec_registerWrite_onDev who a w v s) ?_
    rw [Dev.accessWrite_ok v hcheck, hwrite]
    have hshow := Reg.show_of_plain hp
    refine ⟨?_, ?_, fun r' hne hs => ?_, s.dev.onlyRegs_answered p who _ r v' lanes⟩
    · rw [Dev.reg_answered _ _ _ hshow]
      exact hfields
    · rw [Dev.reg_answered _ _ _ hshow]
      exact hreserved
    · rw [Dev.reg_answered _ _ _ hs]
      exact hothers r' hne
  · refine exec_onto (exec_registerWrite_onDev who a w v s) ?_
    unfold Dev.accessWrite
    rw [s.dev.regCheck_misformed who true hform]
    simp [Dev.accessEnds, hio]
  · have hfree : d.unoccupied who a := ⟨hat, fun h4 r hr => by rw [hlow h4] at hr; cases hr⟩
    refine exec_onto (exec_registerWrite_onDev who a 4 v s) ?_
    rw [Dev.accessWrite_ok v hcheck, Dev.regWrite_four, Dev.write32_unoccupied hfree]
  · refine exec_onto (f := fun d => if d.bitOf (.mbxCtl m) 0 || d.aoOnly || decide (2 < d.domState domMgt) then d else d.doorbell m) rfl ?_
    simp [hao, Nat.not_lt.mpr hdom]

end Sys2Proof.Machine
end

section
/-! PROOFS. Cold reset (R9, R435): what it leaves of the registers and of the records. -/

namespace Sys2Proof.Machine

/-! ### All of the device but its registers and what it sends -/

/-- The device without its register file and what it has sent. -/
def Dev.bare (d : Dev) : Dev := { d with regs := [], out := [] }

theorem Dev.bare_emit (d : Dev) (o : Out) : (d.emit o).bare = d.bare := rfl

theorem Dev.bare_showFaults (d : Dev) : d.showFaults.bare = d.bare := by
  rw [Dev.showFaults_eq]
  split <;> rfl

theorem Dev.bare_shown (d : Dev) : d.shown.bare = d.bare := by
  rw [Dev.shown, Dev.bare_showFaults]
  rfl

theorem Dev.bare_domainOff (d : Dev) (i st : Nat) : (d.domainOff i st).bare = d.bare := by
  unfold Dev.domainOff
  dsimp only
  split <;> rfl

theorem Dev.bare_lastScan (d : Dev) : d.lastScan.bare = d.bare := by
  unfold Dev.lastScan
  dsimp only
  split
  · rw [Dev.bare_emit]
    refine foldl_frame Dev.bare _ _ ?_ d
    exact fun _ _ => rfl
  · rfl

/-! ### Power domains -/

/-- What one step of a fold establishes and every step keeps holds after the fold. -/
theorem foldl_establishes {δ α : Type} {P : δ → Prop} {f : δ → α → δ} {x : α} (est : ∀ d, P (f d x)) (keep : ∀ d y, P d → P (f d y))
    {l : List α} (hx : x ∈ l) (d : δ) : P (l.foldl f d) := by
  have stays : ∀ (l : List α) d, P d → P (l.foldl f d) := fun l => by
    induction l with
    | nil => exact fun _ h => h
    | cons y r ih => exact fun d h => ih _ (keep d y h)
  induction l generalizing d with
  | nil => cases hx
  | cons y r ih =>
    rcases List.mem_cons.mp hx with rfl | hr
    · exact stays r _ (est d)
    · exact ih hr _

theorem Reg.holds_domStatus_state (i : Nat) : (Reg.domStatus i).holds 31 29 = true := by simp [Reg.holds, Reg.mask, Reg.layout, fieldMask]

theorem Dev.reg_domainOff_ne (d : Dev) {i : Nat} (st : Nat) {r : Reg} (h : r ≠ .domStatus i) : (d.domainOff i st).reg r = d.reg r := by
  unfold Dev.domainOff Dev.setDomState
  dsimp only
  split
  · rw [Dev.reg_wr_ne _ _ _ _ h, Dev.reg_wr_ne _ _ _ _ h]
  · rw [Dev.reg_wr_ne _ _ _ _ h, Dev.reg_wr_ne _ _ _ _ h]

/-- A domain commanded to Deep is in Deep, or in Off where it was latched. -/
theorem Dev.domState_domainOff (d : Dev) (i : Nat) : 3 ≤ (d.domainOff i 3).domState i := by
  have hh := Reg.holds_domStatus_state i
  unfold Dev.domainOff Dev.setDomState Dev.domState
  dsimp only
  split
  · rw [Dev.rd_wr_same _ _ hh]; decide
  · rw [Dev.rd_wr_field _ _ hh (by decide), Dev.rd_wr_same _ _ hh]; decide

theorem Dev.domState_domainOff_keeps (d : Dev) (i j : Nat) (h : 3 ≤ d.domState i) : 3 ≤ (d.domainOff j 3).domState i := by
  by_cases hij : i = j
  · exact hij ▸ d.domState_domainOff i
  · rw [Dev.domState, Dev.rd_eq_of_reg (d.reg_domainOff_ne 3 (by simpa using hij))]
    exact h

/-! ### Cold reset (R9, R435) -/

/-- The power switches of every domain but AO open. -/
def Dev.allOff (d : Dev) : Dev := (List.range 124).foldl (fun d i => if i = 0 then d else d.domainOff i 3) d

/-- What a cold reset does to the registers. -/
def Dev.coldRegs (d : Dev) : Dev :=
  ((((d.resetDomain .cold).allOff.wr .clkStatus 25 20 0).wr .sleepCtl 30 30 0).wr .faultStat 31 28 0).coreWindow 750 750

theorem Dev.bare_allOff (d : Dev) : d.allOff.bare = d.bare :=
  foldl_frame Dev.bare _ _ (fun d i => by split; exacts [rfl, d.bare_domainOff i 3]) d

theorem Dev.bare_coldRegs (d : Dev) : d.coldRegs.bare = d.bare := (d.resetDomain .cold).bare_allOff

theorem Dev.reg_enterCold (d : Dev) (r : Reg) : d.enterCold.reg r = d.coldRegs.reg r := rfl

theorem Dev.reg_allOff (d : Dev) {r : Reg} (h : ∀ i, r ≠ .domStatus i) : d.allOff.reg r = d.reg r :=
  foldl_frame (fun d : Dev => d.reg r) _ _ (fun d i => by split; exacts [rfl, d.reg_domainOff_ne 3 (h i)]) d

theorem Dev.domState_allOff (d : Dev) {i : Nat} (h1 : 1 ≤ i) (h2 : i < 124) : 3 ≤ d.allOff.domState i := by
  refine foldl_establishes (P := fun d : Dev => 3 ≤ d.domState i) (x := i) (fun d => ?_) (fun d j h => ?_) (List.mem_range.mpr h2) d
  · rw [if_neg (by omega)]
    exact d.domState_domainOff i
  · split
    · exact h
    · exact d.domState_domainOff_keeps i j h

/-- Past the domains, a cold reset writes only registers of the AO domain. -/
theorem Dev.reg_coldRegs (d : Dev) {r : Reg} (h1 : r ≠ .clkStatus) (h2 : r ≠ .sleepCtl) (h3 : r ≠ .faultStat) (h4 : r ≠ .rail 0) :
    d.coldRegs.reg r = (d.resetDomain .cold).allOff.reg r := by
  unfold Dev.coldRegs Dev.coreWindow
  rw [Dev.reg_wr_ne _ _ _ _ h4, Dev.reg_wr_ne _ _ _ _ h4, Dev.reg_wr_ne _ _ _ _ h3, Dev.reg_wr_ne _ _ _ _ h2, Dev.reg_wr_ne _ _ _ _ h1]

theorem Reg.ne_of_domain {r r' : Reg} (h : r.layout.domain ≠ .ao) (h' : r'.layout.domain = .ao) : r ≠ r' := fun e => h (e ▸ h')

theorem ResetDomain.cold_covers {x : ResetDomain} (h : x ≠ .ao) : ResetDomain.cold.covers x = true := by
  cases x with
  | ao => exact absurd rfl h
  | _ => rfl

theorem Dev.reg_enterCold_reset (d : Dev) {r : Reg} (h : r.layout.domain ≠ .ao) : d.enterCold.reg r = r.layout.reset := by
  rw [Dev.reg_enterCold, Dev.reg_coldRegs _ (Reg.ne_of_domain h rfl) (Reg.ne_of_domain h rfl) (Reg.ne_of_domain h rfl)
    (Reg.ne_of_domain h rfl), Dev.reg_allOff _ fun i => Reg.ne_of_domain h rfl, Dev.reg_resetDomain, if_pos (ResetDomain.cold_covers h)]

theorem Dev.coldLeft_enterCold (d : Dev) : d.coldLeft d.enterCold := by
  have hb := d.bare_coldRegs
  refine ⟨rfl, fun r h _ => d.reg_enterCold_reset h, fun i h1 h2 => ?_, rfl, rfl, rfl, rfl, congrArg (·.pool.mem) hb, congrArg (·.sec.otp) hb,
    congrArg (·.sec.lockRecord) hb, congrArg (·.mgmt.flash) hb, congrArg (·.dir.lostLog) hb, congrArg (·.fab.log) hb,
    congrArg (·.flt.retirement) hb⟩
  have hr : d.enterCold.reg (.domStatus i) = (d.resetDomain .cold).allOff.reg (.domStatus i) :=
    d.reg_coldRegs (by simp) (by simp) (by simp) (by simp)
  rw [Dev.domState, Dev.rd_eq_of_reg hr]
  exact Dev.domState_allOff _ h1 h2

/-- What a cold reset leaves is told by the records before and after it, and by the registers that the end of a command does not write. -/
theorem Dev.coldLeft_congr {d d' x x' : Dev} (hd : d'.bare = d.bare) (hx : x'.bare = x.bare)
    (hr : ∀ r : Reg, r.show = false → x'.reg r = x.reg r) (h : d.coldLeft x) : d'.coldLeft x' := by
  obtain ⟨hheld, hregs, hdoms, hkeys, hblocks, hslots, hentries, hmem, hotp, hlock, hflash, hlost, hlog, hret⟩ := h
  refine ⟨(congrArg (·.mgmt.coldHeld) hx).trans hheld, fun r h1 h2 => (hr r h2).trans (hregs r h1 h2), fun i h1 h2 => ?_,
    (congrArg (·.pool.keys) hx).trans hkeys, (congrArg (·.pool.blocks) hx).trans hblocks, (congrArg (·.pool.slots) hx).trans hslots,
    (congrArg (·.dir.entries) hx).trans hentries, (congrArg (·.pool.mem) hx).trans (hmem.trans (congrArg (·.pool.mem) hd.symm)),
    (congrArg (·.sec.otp) hx).trans (hotp.trans (congrArg (·.sec.otp) hd.symm)),
    (congrArg (·.sec.lockRecord) hx).trans (hlock.trans (congrArg (·.sec.lockRecord) hd.symm)),
    (congrArg (·.mgmt.flash) hx).trans (hflash.trans (congrArg (·.mgmt.flash) hd.symm)),
    (congrArg (·.dir.lostLog) hx).trans (hlost.trans (congrArg (·.dir.lostLog) hd.symm)),
    (congrArg (·.fab.log) hx).trans (hlog.trans (congrArg (·.fab.log) hd.symm)),
    (congrArg (·.flt.retirement) hx).trans (hret.trans (congrArg (·.flt.retirement) hd.symm))⟩
  rw [Dev.domState, Dev.rd_eq_of_reg (hr _ (by simp))]
  exact hdoms i h1 h2

/-- A cold reset leaves the records that it enters with; its last scan and the status registers touch none. -/
theorem Dev.bare_coldReset (d : Dev) : d.coldReset.shown.bare = d.lastScan.enterCold.bare := by
  rw [Dev.bare_shown, Dev.coldReset, Dev.bare_showFaults]
  rfl

theorem Dev.coldLeft_coldReset (d : Dev) : d.coldLeft d.coldReset.shown := by
  refine Dev.coldLeft_congr d.bare_lastScan.symm (x := d.lastScan.enterCold) d.bare_coldReset (fun r hs => ?_)
    d.lastScan.coldLeft_enterCold
  rw [Dev.reg_shown _ _ hs, Dev.coldReset, Dev.reg_showFaults _ _ hs]
  rfl

/-- The level of PORST_B and the record of a trip stand through it. -/
theorem Dev.porst_coldReset (d : Dev) : d.coldReset.shown.mgmt.porst = d.mgmt.porst :=
  (congrArg (·.mgmt.porst) d.bare_coldReset).trans
    ((congrArg (·.mgmt.porst) d.lastScan.bare_coldRegs).trans (congrArg (·.mgmt.porst) d.bare_lastScan))

theorem Dev.tripOver_coldReset (d : Dev) : d.coldReset.shown.pwr.tripOver = d.pwr.tripOver :=
  (congrArg (·.pwr.tripOver) d.bare_coldReset).trans
    ((congrArg (·.pwr.tripOver) d.lastScan.bare_coldRegs).trans (congrArg (·.pwr.tripOver) d.bare_lastScan))

end Sys2Proof.Machine
end

section
/-! PROOFS. The boot of Table MG-18, warm reset, and the commands that start and end resets (R308, R310, R315, R433, R436). Settles O13. -/

namespace Sys2Proof.Machine

/-! ### Images (R307) -/

/-- Which image is valid depends on the flash and on OTP alone. -/
theorem Dev.imageError_congr {d d' : Dev} (h : d'.sec.otp = d.sec.otp) (target : Nat) (i : Sys2Proof.Image) :
    d'.imageError target i = d.imageError target i := by
  unfold Dev.imageError Dev.keyAdmitted Dev.rollback
  rw [h]

theorem Dev.validImage_congr {d d' : Dev} (hf : d'.mgmt.flash = d.mgmt.flash) (ho : d'.sec.otp = d.sec.otp) (target slot : Nat) :
    d'.validImage target slot = d.validImage target slot := by
  simp only [Dev.validImage, hf, Dev.imageError_congr ho]

theorem Dev.slotError_congr {d d' : Dev} (hf : d'.mgmt.flash = d.mgmt.flash) (ho : d'.sec.otp = d.sec.otp) (target slot : Nat) :
    d'.slotError target slot = d.slotError target slot := by
  simp only [Dev.slotError, hf, Dev.imageError_congr ho]

/-- The error codes of Table MG-19 for an image that is not valid. -/
theorem Dev.imageError_le {d : Dev} {target e : Nat} {i : Sys2Proof.Image} (h : d.imageError target i = some e) : e ≤ 5 := by
  unfold Dev.imageError at h
  dsimp only at h
  split_ifs at h <;> cases h <;> decide

theorem Dev.slotError_le (d : Dev) (target slot : Nat) : d.slotError target slot ≤ 5 := by
  unfold Dev.slotError
  split
  · rename_i i _
    cases he : d.imageError target i with
    | none => exact Nat.zero_le 5
    | some e => exact Dev.imageError_le he
  · decide

/-! ### The steps of the boot (Table MG-18) -/

theorem Dev.bootOtp_mgmt (d : Dev) (ok : Bool) : (d.bootOtp ok).mgmt = d.mgmt := by
  cases ok <;> simp [Dev.bootOtp, Dev.domainOn]

theorem Dev.bootOtp_otp (d : Dev) (ok : Bool) : (d.bootOtp ok).sec.otp = d.sec.otp := by
  cases ok <;> simp [Dev.bootOtp, Dev.domainOn]

/-- The device that has left cold reset and read OTP (steps 1 and 2). -/
def Dev.otpRead (d : Dev) (ok : Bool) : Dev := ({ d with mgmt := { d.mgmt with coldHeld := false } } : Dev).bootOtp ok

theorem Dev.otpRead_mgmt (d : Dev) (ok : Bool) : (d.otpRead ok).mgmt = { d.mgmt with coldHeld := false } := Dev.bootOtp_mgmt _ ok

theorem Dev.validImage_otpRead (d : Dev) (ok : Bool) (target slot : Nat) : (d.otpRead ok).validImage target slot = d.validImage target slot :=
  Dev.validImage_congr (congrArg (·.flash) (d.otpRead_mgmt ok)) (Dev.bootOtp_otp _ ok) target slot

theorem Dev.slotError_otpRead (d : Dev) (ok : Bool) (target slot : Nat) : (d.otpRead ok).slotError target slot = d.slotError target slot :=
  Dev.slotError_congr (congrArg (·.flash) (d.otpRead_mgmt ok)) (Dev.bootOtp_otp _ ok) target slot

theorem Dev.boot_eq (d : Dev) (ok starts : Bool) : d.boot ok starts =
    if (d.validImage 0 d.mgmt.preferred).isSome then (d.otpRead ok).bootSlot d.mgmt.preferred 0 true starts
    else (d.otpRead ok).bootSlot (1 - d.mgmt.preferred) (d.slotError 0 d.mgmt.preferred) false starts := by
  have hp : (d.otpRead ok).mgmt.preferred = d.mgmt.preferred := congrArg (·.preferred) (d.otpRead_mgmt ok)
  rw [← d.validImage_otpRead ok, ← d.slotError_otpRead ok, ← hp]
  rfl

/-- Without a valid firmware image the ROM stays in RECOVERY with the error of the first choice (R308, R310). -/
theorem Dev.boot_invalid {d : Dev} (h : ∀ slot, d.validImage 0 slot = none) (ok starts : Bool) :
    d.boot ok starts = (d.otpRead ok).recovery (d.slotError 0 d.mgmt.preferred) := by
  rw [Dev.boot_eq, h, if_neg (by simp), Dev.bootSlot, Dev.validImage_otpRead, h]

/-- A valid first choice that is not on trial starts (R308). -/
theorem Dev.boot_valid {d : Dev} {i : Sys2Proof.Image} (h : d.validImage 0 d.mgmt.preferred = some i) (ht : d.mgmt.trial = false)
    (ok starts : Bool) :
    d.boot ok starts = (((d.otpRead ok).boot1 26 26 0).startFirmware d.mgmt.preferred i).bootBcb := by
  have ht' : (d.otpRead ok).mgmt.trial = false := (congrArg (·.trial) (d.otpRead_mgmt ok)).trans ht
  rw [Dev.boot_eq, h, if_pos Option.isSome_some, Dev.bootSlot, Dev.validImage_otpRead, h]
  simp [ht']

/-- A second choice that is valid starts, with FALLBACK and the first choice's error (R308). -/
theorem Dev.bootSlot_second {d : Dev} {slot : Nat} {i : Sys2Proof.Image} (h : d.validImage 0 slot = some i) (error : Nat) (starts : Bool) :
    d.bootSlot slot error false starts = ((((d.boot1 24 24 1).boot1 23 16 error).boot1 26 26 0).startFirmware slot i).bootBcb := by
  rw [Dev.bootSlot, h]
  simp

theorem Dev.validImage_startFirmware (d : Dev) (slot : Nat) (i : Sys2Proof.Image) (target x : Nat) :
    (d.startFirmware slot i).validImage target x = d.validImage target x := Dev.validImage_congr rfl rfl target x

/-- Without a valid BCB image the firmware waits for one (R310). -/
theorem Dev.bootBcb_none {d : Dev} (h : ∀ slot, d.validImage 3 slot = none) : d.bootBcb = d.noBcb.showFaults := by
  have hc : d.bcbCandidates = [] := by simp [Dev.bcbCandidates, h]
  rw [Dev.bootBcb, hc]
  rfl

theorem Reg.oobBoot_holds_stage : Reg.oobBoot.holds 31 28 = true := by simp [Reg.holds, Reg.mask, Reg.layout, fieldMask]

theorem Reg.oobBoot_holds_error : Reg.oobBoot.holds 23 16 = true := by simp [Reg.holds, Reg.mask, Reg.layout, fieldMask]

/-- STAGE and ERROR of OOB.BOOT as a step of the boot writes them. -/
theorem Dev.boot1_stage_error (d : Dev) {stage error : Nat} (hs : stage < 16) (he : error < 256) :
    ((d.boot1 31 28 stage).boot1 23 16 error).stage = stage ∧ ((d.boot1 31 28 stage).boot1 23 16 error).rd .oobBoot 23 16 = error := by
  unfold Dev.boot1 Dev.stage
  rw [Dev.rd_wr_field _ _ Reg.oobBoot_holds_stage (by decide), Dev.rd_wr_same _ _ Reg.oobBoot_holds_stage,
    Dev.rd_wr_same _ _ Reg.oobBoot_holds_error]
  exact ⟨Nat.mod_eq_of_lt hs, Nat.mod_eq_of_lt he⟩

/-- Showing the fault status leaves OOB.BOOT. -/
theorem Dev.oobBoot_showFaults_shown (d : Dev) (hi lo : Nat) : d.showFaults.shown.rd .oobBoot hi lo = d.rd .oobBoot hi lo := by
  rw [Dev.rd_shown _ _ _ _ (by simp), Dev.rd_showFaults _ _ _ _ (by simp)]

/-- FAULT_STAT shows FAULT_B low in RECOVERY (R310, R382). -/
theorem Dev.pin_shown_recovery {d : Dev} (h : d.shown.stage = 8) : d.shown.bitOf .faultStat 27 = true := by
  obtain ⟨-, -, -, -, -, hpin⟩ := d.statusTrue_shown
  rw [hpin]
  simp [Dev.pulls, h]

/-- What RECOVERY shows. -/
theorem Dev.recovery_shown (d : Dev) {error : Nat} (he : error < 256) :
    (d.recovery error).shown.stage = 8 ∧ (d.recovery error).shown.rd .oobBoot 23 16 = error ∧
      (d.recovery error).shown.mgmt.coldHeld = d.mgmt.coldHeld ∧ (d.recovery error).shown.mgmt.fwUp = false ∧
      (d.recovery error).shown.bitOf .faultStat 27 = true := by
  obtain ⟨hstage, herror⟩ := d.boot1_stage_error (stage := 8) (by decide) he
  have hs : (d.recovery error).shown.stage = 8 := (Dev.oobBoot_showFaults_shown _ _ _).trans hstage
  exact ⟨hs, (Dev.oobBoot_showFaults_shown _ _ _).trans herror, by simp [Dev.recovery, Dev.boot1], by simp [Dev.recovery],
    Dev.pin_shown_recovery hs⟩

/-- What NO_BCB shows. -/
theorem Dev.noBcb_shown (d : Dev) :
    d.noBcb.showFaults.shown.stage = 9 ∧ d.noBcb.showFaults.shown.rd .oobBoot 23 16 = 7 ∧
      d.noBcb.showFaults.shown.mgmt = { d.mgmt with i3cBus := false, mctpAddr := 0x60 + d.mgmt.strapAddr } := by
  obtain ⟨hstage, herror⟩ := d.boot1_stage_error (stage := 9) (error := 7) (by decide) (by decide)
  exact ⟨(Dev.oobBoot_showFaults_shown _ _ _).trans hstage, (Dev.oobBoot_showFaults_shown _ _ _).trans herror,
    by simp [Dev.noBcb, Dev.boot1]⟩

/-- The management records of firmware that has started. -/
theorem Dev.startFirmware_mgmt (d : Dev) (slot : Nat) (i : Sys2Proof.Image) : (d.startFirmware slot i).mgmt =
    { d.mgmt with
      measured := tset (tset d.mgmt.measured 2 i.hash) 3 i.hash, fwVersion := i.version, fwSvn := i.svn, fwUp := true
      inUse := tset d.mgmt.inUse 0 slot } := rfl

/-! ### Warm reset (R436) -/

/-- A warm reset leaves every register that it covers at its reset value. -/
theorem Dev.reg_warmReset (d : Dev) {r : Reg} (h : ResetDomain.warm.covers r.layout.domain = true) (hne : r ≠ .secStatus) :
    d.warmReset.reg r = r.layout.reset := by
  unfold Dev.warmReset
  dsimp only
  rw [Dev.reg_mk, Dev.reg_wr_ne _ _ _ _ hne, Dev.reg_wr_ne _ _ _ _ hne, Dev.reg_resetDomain, if_pos h]

/-- A warm reset ends the debug level. -/
theorem Dev.debugLevel_warmReset (d : Dev) : d.warmReset.rd .secStatus 29 28 = 0 := by
  have hh : Reg.secStatus.holds 29 28 = true := by simp [Reg.holds, Reg.mask, Reg.layout, fieldMask]
  unfold Dev.warmReset
  dsimp only
  rw [Dev.rd_mk, Dev.rd_wr_field _ _ hh (by decide), Dev.rd_wr_same _ _ hh]
  rfl

/-! ### The commands -/

/-- A low PORST_B outside cold reset starts one. -/
theorem porstBFall_leaves {s : State} (h : s.dev.mgmt.coldHeld = false) : yields .porstBFall s fun t =>
    s.dev.coldLeft t ∧ t.mgmt.porst = false ∧ t.pwr.tripOver = s.dev.mgmt.tripHeld := by
  refine yields_of_eq (d' := Dev.coldReset { s.dev with
    mgmt := { s.dev.mgmt with porst := false }, pwr := { s.dev.pwr with tripOver := s.dev.mgmt.tripHeld } }) (exec_onto (exec_porstBFall s) ?_) ?_
  · dsimp only
    rw [if_neg (by simp [h])]
  · exact ⟨Dev.coldLeft_coldReset _, Dev.porst_coldReset _, Dev.tripOver_coldReset _⟩

/-- What the release of cold reset finds on the board: the straps and the flash slots that have changed. -/
def Dev.strapped (d : Dev) (straps : BitVec 4) (found : List ((Nat × Nat) × Sys2Proof.Image)) : Dev :=
  { d with
    mgmt := { d.mgmt with
      porst := true, wrst := true, strapAddr := straps.toNat % 8, strapBus := straps.getLsbD 3, i3cBus := straps.getLsbD 3
      tripHeld := false, flash := found.foldl (fun m (x : (Nat × Nat) × Sys2Proof.Image) => tset m x.1 x.2) d.mgmt.flash }
    pwr := { d.pwr with tripOver := false } }

/-- With the rails qualified and no trip held, the release boots (R433). -/
theorem exec_coldResetRelease_boots {s : State} (straps : BitVec 4) (found : List ((Nat × Nat) × Sys2Proof.Image)) (ok starts : Bool)
    (hcold : s.dev.mgmt.coldHeld = true) (hrails : s.dev.railsReady = true) (hfeed : s.dev.pwr.feedOut = [])
    (htrip : s.dev.mgmt.tripHeld = false) :
    exec (.coldResetRelease straps found ok starts) s = .next (s.onto ((s.dev.strapped straps found).boot ok starts)) := by
  have hr : ∀ m, ({ s.dev with mgmt := m } : Dev).railsReady = true := fun _ => hrails
  refine exec_onto (exec_coldResetRelease straps found ok starts s) ?_
  dsimp only
  rw [if_pos (by simp [hcold, hrails, hfeed, htrip]), Dev.releaseCold, if_pos (by simp [hcold, hr, hfeed, htrip, Dev.tripForbids])]
  rfl

/-- The release without a valid firmware image ends in RECOVERY (R310). -/
theorem Dev.boot_invalid_shown {d : Dev} (h : ∀ slot, d.validImage 0 slot = none) (ok starts : Bool) :
    (d.boot ok starts).shown.stage = 8 ∧ (d.boot ok starts).shown.rd .oobBoot 23 16 = d.slotError 0 d.mgmt.preferred ∧
      (d.boot ok starts).shown.mgmt.coldHeld = false ∧ (d.boot ok starts).shown.mgmt.fwUp = false ∧
      (d.boot ok starts).shown.bitOf .faultStat 27 = true := by
  rw [Dev.boot_invalid h]
  obtain ⟨hstage, herror, hcold, hfw, hpin⟩ :=
    (d.otpRead ok).recovery_shown (lt_of_le_of_lt (d.slotError_le 0 d.mgmt.preferred) (by decide))
  exact ⟨hstage, herror, hcold.trans (congrArg (·.coldHeld) (d.otpRead_mgmt ok)), hfw, hpin⟩

/-- The release with a firmware image and no BCB image ends in NO_BCB, the image measured (R310). -/
theorem Dev.boot_noBcb_shown {d : Dev} {i : Sys2Proof.Image} (h : d.validImage 0 d.mgmt.preferred = some i) (ht : d.mgmt.trial = false)
    (hb : ∀ slot, d.validImage 3 slot = none) (ok starts : Bool) :
    (d.boot ok starts).shown.stage = 9 ∧ (d.boot ok starts).shown.rd .oobBoot 23 16 = 7 ∧
      (d.boot ok starts).shown.mgmt.coldHeld = false ∧ (d.boot ok starts).shown.mgmt.fwUp = true ∧
      (d.boot ok starts).shown.mgmt.fwVersion = i.version ∧ tget (d.boot ok starts).shown.mgmt.measured 2 = some i.hash ∧
      (d.boot ok starts).shown.mgmt.mctpAddr = 0x60 + d.mgmt.strapAddr ∧ (d.boot ok starts).shown.mgmt.i3cBus = false := by
  have hnone : ∀ slot, (((d.otpRead ok).boot1 26 26 0).startFirmware d.mgmt.preferred i).validImage 3 slot = none := fun slot => by
    rw [Dev.validImage_startFirmware, Dev.validImage_congr (d' := (d.otpRead ok).boot1 26 26 0) (d := d.otpRead ok) rfl rfl, Dev.validImage_otpRead, hb]
  rw [Dev.boot_valid h ht, Dev.bootBcb_none hnone]
  obtain ⟨hstage, herror, hmgmt⟩ := Dev.noBcb_shown (((d.otpRead ok).boot1 26 26 0).startFirmware d.mgmt.preferred i)
  have hm : ((d.otpRead ok).boot1 26 26 0).mgmt = { d.mgmt with coldHeld := false } := d.otpRead_mgmt ok
  rw [hmgmt, Dev.startFirmware_mgmt, hm]
  exact ⟨hstage, herror, rfl, rfl, rfl, by rw [tget_tset_ne _ _ (by decide), tget_tset_same], rfl, rfl⟩

/-- A low WRST_B outside cold reset is a warm reset (R436). -/
theorem wrstBFall_leaves {s : State} (h : s.dev.mgmt.coldHeld = false) : yields .wrstBFall s fun t =>
    t.mgmt.wrst = false ∧ t.mgmt.warmHeld = true ∧ t.sec.sessions = [] ∧ t.sec.challenge = none ∧ t.rd .secStatus 29 28 = 0 ∧
      (∀ r : Reg, ResetDomain.warm.covers r.layout.domain = true → r.show = false → r ≠ .secStatus → t.reg r = r.layout.reset) ∧
      t.mgmt.submitted = [] ∧ t.mgmt.bg = [] ∧ t.mgmt.mctpEid = none := by
  refine yields_of_eq
    (d' := { s.dev.warmReset with mgmt := { s.dev.warmReset.mgmt with wrst := false, warmHeld := true } }) (exec_onto (exec_wrstBFall s) ?_) ?_
  · dsimp only
    rw [if_neg (by simp [h])]
  · refine ⟨by simp, by simp, by simp [Dev.warmReset], by simp [Dev.warmReset], ?_, fun r hcov hs hne => ?_, by simp [Dev.warmReset],
      by simp [Dev.warmReset], by simp [Dev.warmReset]⟩
    · rw [Dev.rd_shown _ _ _ _ (by simp)]
      exact s.dev.debugLevel_warmReset
    · rw [Dev.reg_shown _ _ hs]
      exact s.dev.reg_warmReset hcov hne

/-- Settles O13: each command's effect on the device is known, and what it leaves is read off it. -/
theorem resetsLeaveWhatTheyKeep : Obligations.ResetsLeaveWhatTheyKeep := by
  refine ⟨fun s hcold => porstBFall_leaves hcold, fun straps found ok starts s hcold hrails hfeed htrip => ?_,
    fun s hcold => wrstBFall_leaves hcold, fun s hcold hporst => ?_, fun s hwarm => ?_, fun i s hstage htrial himage => ?_⟩
  · have hexec := exec_coldResetRelease_boots straps found ok starts hcold hrails hfeed htrip
    exact ⟨hexec, fun hnone => yields_of_eq hexec (Dev.boot_invalid_shown hnone ok starts),
      fun i himage htrial hnone => yields_of_eq hexec (Dev.boot_noBcb_shown himage htrial hnone ok starts)⟩
  · refine exec_onto (exec_wrstBFall s) ?_
    rw [if_pos hcold, if_pos hporst]
  · refine exec_onto (exec_wrstBRise s) ?_
    dsimp only
    rw [if_pos hwarm]
    rfl
  · refine exec_onto (exec_bootTrialTimeout s) ?_
    rw [if_pos ⟨hstage, htrial⟩, Dev.bootSlot_second himage]

end Sys2Proof.Machine
end

section
/-! PROOFS. The fence (R59, Table PB-11): what its first steps write and leave, and how each step ends. Settles O16. -/

namespace Sys2Proof.Machine

/-! ### Folds that reach a property -/

/-- A fold reaches a property that one of its steps brings about and every step keeps, under an invariant of the steps. -/
theorem foldl_reaches {δ α : Type} {I P : δ → Prop} {f : δ → α → δ} {l : List α} {x : α} (hx : x ∈ l)
    (hinv : ∀ d y, I d → I (f d y)) (hreach : ∀ d, I d → P (f d x)) (hkeep : ∀ d y, P d → P (f d y)) {d : δ} (hd : I d) :
    P (l.foldl f d) := by
  induction l generalizing d with
  | nil => cases hx
  | cons y r ih =>
    rcases List.mem_cons.1 hx with rfl | hx
    · exact List.foldlRecOn r f (hreach d hd) fun e he z _ => hkeep e z he
    · exact ih hx (hinv d y hd)

/-! ### What the table accesses leave of the directory -/

theorem Dev.wakeQuarters_dir (d : Dev) (i : Nat) : (d.wakeQuarters i).dir = d.dir := by simp [Dev.wakeQuarters]
theorem Dev.countInvalidation_dir (d : Dev) : d.countInvalidation.dir = d.dir := foldl_frame Dev.dir _ _ (fun d t => by simp) d
theorem Dev.invalidateBlock_dir (d : Dev) (b : Nat) : (d.invalidateBlock b).dir = d.dir := Dev.countInvalidation_dir _
theorem Dev.invalidateSlot_dir (d : Dev) (i : Nat) : (d.invalidateSlot i).dir = d.dir := Dev.countInvalidation_dir _
theorem Dev.writeBlock_dir (d : Dev) (b : Nat) (e : BlockEntry) : (d.writeBlock b e).dir = d.dir := by
  unfold Dev.writeBlock; simp [Dev.wakeQuarters_dir]
theorem Dev.writeSlot_dir (d : Dev) (i : Nat) (e : SlotEntry) : (d.writeSlot i e).dir = d.dir := by
  unfold Dev.writeSlot; simp [Dev.wakeQuarters_dir]

/-- A checked read leaves the directory where its rewrite does. -/
theorem readRow_dir {β : Type} (d : Dev) (i : Nat) (a b : β) (ok : β → Bool) (put : Dev → β → Dev)
    (hput : ∀ d e, (put d e).dir = d.dir) : (readRow d i a b ok put).2.dir = d.dir := by
  unfold readRow
  dsimp only
  split_ifs <;> simp [hput]

theorem Dev.readBlock_dir (d : Dev) (b : Nat) : (d.readBlock b).2.dir = d.dir := by
  have h := readRow_dir d b (tgetD d.pool.blocks.a b (d.blockDefault b)) (tgetD d.pool.blocks.b b (d.blockDefault b))
    BlockEntry.ok (fun d e => d.writeBlock b e) fun d e => d.writeBlock_dir b e
  unfold Dev.readBlock
  dsimp only
  split <;> rename_i hr <;> rw [hr] at h
  · exact h
  · rw [Dev.invalidateBlock_dir, Dev.writeBlock_dir]; exact h

theorem Dev.readSlot_dir (d : Dev) (i : Nat) : (d.readSlot i).2.dir = d.dir := by
  have h := readRow_dir d i (tgetD d.pool.slots.a i slotDefault) (tgetD d.pool.slots.b i slotDefault)
    SlotEntry.ok (fun d e => d.writeSlot i e) fun d e => d.writeSlot_dir i e
  unfold Dev.readSlot
  split <;> rename_i hr <;> rw [hr] at h
  · exact h
  · rw [Dev.invalidateSlot_dir, Dev.writeSlot_dir]; exact h

theorem Dev.changeBlock_dir (d : Dev) (b : Nat) (f : BlockEntry → BlockEntry) : (d.changeBlock b f).dir = d.dir := by
  unfold Dev.changeBlock; rw [Dev.writeBlock_dir, Dev.readBlock_dir]
theorem Dev.changeSlot_dir (d : Dev) (i : Nat) (f : SlotEntry → SlotEntry) : (d.changeSlot i f).dir = d.dir := by
  unfold Dev.changeSlot; rw [Dev.writeSlot_dir, Dev.readSlot_dir]
theorem Dev.clearSlots_dir (d : Dev) (l : List Nat) : (d.clearSlots l).dir = d.dir :=
  foldl_frame Dev.dir _ _ (fun d s => d.changeSlot_dir s _) d

/-! ### Step 1: the tables are cleared -/

theorem Dev.fenceStep1_dir (d : Dev) (r : FenceRec) : (d.fenceStep1 r).dir = d.dir := by
  unfold Dev.fenceStep1
  dsimp only
  split
  · refine (foldl_frame Dev.dir _ _ (fun d b => ?_) _).trans (Dev.clearSlots_dir _ _)
    split
    · rfl
    · exact d.changeBlock_dir b _
  · exact Dev.clearSlots_dir _ _

theorem Dev.fenceStep1_records (d : Dev) (r : FenceRec) : (d.fenceStep1 r).pool.records = d.pool.records := by
  unfold Dev.fenceStep1
  dsimp only
  split
  · refine (foldl_frame (fun d : Dev => d.pool.records) _ _ (fun d b => ?_) _).trans (Dev.clearSlots_records _ _)
    split
    · rfl
    · exact d.changeBlock_records b _
  · exact Dev.clearSlots_records _ _

/-- A batch starts with step 1 under the epoch in force, and the requests that are left wait (R59). -/
theorem Dev.fenceStart_batch {d : Dev} {batch left : List FenceRec} (hidle : d.pool.fence = none)
    (hbatch : d.nextBatch d.pool.fenceQueue [] [] = (batch, left)) (hne : batch ≠ []) :
    d.fenceStart.dir = d.dir ∧ d.fenceStart.pool.records =
      ({ d.pool with fence := some ⟨batch, 1, d.pool.epoch⟩, fenceQueue := left } : PoolState).records := by
  unfold Dev.fenceStart
  rw [hidle, if_neg (by simp), hbatch]
  cases batch with
  | nil => exact absurd rfl hne
  | cons r rest =>
    exact ⟨foldl_frame Dev.dir _ _ (fun d r => d.fenceStep1_dir r) _,
      foldl_frame (fun d : Dev => d.pool.records) _ _ (fun d r => d.fenceStep1_records r) _⟩

/-! ### Step 2: the caches are emptied of the batch -/

theorem Dev.slotCache_invalidateBlock (d : Dev) (b : Nat) : (d.invalidateBlock b).pool.slotCache = d.pool.slotCache := by
  unfold Dev.invalidateBlock; rw [Dev.countInvalidation_pool]
theorem Dev.slots_invalidateBlock (d : Dev) (b : Nat) : (d.invalidateBlock b).pool.slots = d.pool.slots := by
  unfold Dev.invalidateBlock; rw [Dev.countInvalidation_pool]
theorem Dev.blockCache_invalidateSlot (d : Dev) (i : Nat) : (d.invalidateSlot i).pool.blockCache = d.pool.blockCache := by
  unfold Dev.invalidateSlot; rw [Dev.countInvalidation_pool]
theorem Dev.slots_invalidateSlot (d : Dev) (i : Nat) : (d.invalidateSlot i).pool.slots = d.pool.slots := by
  unfold Dev.invalidateSlot; rw [Dev.countInvalidation_pool]

theorem Dev.tget_invalidateBlock (d : Dev) (b : Nat) (k : Nat × Nat) :
    tget (d.invalidateBlock b).pool.blockCache k = if k.2 = b then none else tget d.pool.blockCache k := by
  unfold Dev.invalidateBlock
  rw [Dev.countInvalidation_pool]
  simpa using tget_filter d.pool.blockCache (fun k => !decide (k.2 = b)) k

theorem Dev.tget_invalidateSlot (d : Dev) (i : Nat) (k : Nat × Nat) :
    tget (d.invalidateSlot i).pool.slotCache k = if k.2 = i then none else tget d.pool.slotCache k := by
  unfold Dev.invalidateSlot
  rw [Dev.countInvalidation_pool]
  simpa using tget_filter d.pool.slotCache (fun k => !decide (k.2 = i)) k

/-- No cache holds an entry of a block. -/
def Dev.blockUncached (d : Dev) (b : Nat) : Prop := ∀ n, tget d.pool.blockCache (n, b) = none

/-- No cache holds an entry of a slot. -/
def Dev.slotUncached (d : Dev) (i : Nat) : Prop := ∀ n, tget d.pool.slotCache (n, i) = none

theorem Dev.blockUncached_invalidateBlock (d : Dev) (b : Nat) : (d.invalidateBlock b).blockUncached b := fun n => by
  rw [Dev.tget_invalidateBlock, if_pos rfl]

theorem Dev.blockUncached.invalidateBlock {d : Dev} {b : Nat} (h : d.blockUncached b) (c : Nat) : (d.invalidateBlock c).blockUncached b :=
  fun n => by rw [Dev.tget_invalidateBlock, h n, ite_self]

theorem Dev.slotUncached_invalidateSlot (d : Dev) (i : Nat) : (d.invalidateSlot i).slotUncached i := fun n => by
  rw [Dev.tget_invalidateSlot, if_pos rfl]

theorem Dev.slotUncached.invalidateSlot {d : Dev} {i : Nat} (h : d.slotUncached i) (c : Nat) : (d.invalidateSlot c).slotUncached i :=
  fun n => by rw [Dev.tget_invalidateSlot, h n, ite_self]

/-- Slots of the batch, and those that map its blocks, leave the slot caches. -/
def Dev.uncacheSlot (r : FenceRec) (d : Dev) (s : Nat) : Dev :=
  if r.slots.contains s || r.blocks.contains (d.slotEntry s).block.toNat then d.invalidateSlot s else d

/-- The slots that either copy of the slot table lists. -/
def Copies.keys {β : Type} (c : Copies β) : List Nat := ((c.a ++ c.b).map (·.1)).dedup

theorem Dev.fenceStep2_eq (d : Dev) (r : FenceRec) :
    d.fenceStep2 r = r.blocks.foldl (fun d b => d.invalidateBlock b) (d.pool.slots.keys.foldl (Dev.uncacheSlot r) d) := rfl

/-- What every invalidation of step 2 keeps, the whole step keeps. -/
theorem Dev.fenceStep2_keeps {P : Dev → Prop} (hslot : ∀ d i, P d → P (Dev.invalidateSlot d i))
    (hblock : ∀ d b, P d → P (Dev.invalidateBlock d b)) (r : FenceRec) {d : Dev} (h : P d) : P (d.fenceStep2 r) := by
  rw [Dev.fenceStep2_eq]
  refine List.foldlRecOn _ _ (List.foldlRecOn _ _ h fun d hd s _ => ?_) fun d hd b _ => hblock d b hd
  unfold Dev.uncacheSlot
  split
  · exact hslot d s hd
  · exact hd

theorem Dev.fenceStep2_dir (d : Dev) (r : FenceRec) : (d.fenceStep2 r).dir = d.dir :=
  Dev.fenceStep2_keeps (P := fun e => e.dir = d.dir) (fun e i h => (e.invalidateSlot_dir i).trans h)
    (fun e b h => (e.invalidateBlock_dir b).trans h) r rfl

theorem Dev.fenceStep2_records (d : Dev) (r : FenceRec) : (d.fenceStep2 r).pool.records = d.pool.records :=
  Dev.fenceStep2_keeps (P := fun e => e.pool.records = d.pool.records) (fun e i h => (e.invalidateSlot_records i).trans h)
    (fun e b h => (e.invalidateBlock_records b).trans h) r rfl

theorem Dev.fenceStep2_slots (d : Dev) (r : FenceRec) : (d.fenceStep2 r).pool.slots = d.pool.slots :=
  Dev.fenceStep2_keeps (P := fun e => e.pool.slots = d.pool.slots) (fun e i h => (e.slots_invalidateSlot i).trans h)
    (fun e b h => (e.slots_invalidateBlock b).trans h) r rfl

theorem Dev.blockUncached.fenceStep2 {d : Dev} {b : Nat} (h : d.blockUncached b) (r : FenceRec) : (d.fenceStep2 r).blockUncached b :=
  Dev.fenceStep2_keeps (P := fun e => e.blockUncached b) (fun e i h n => by rw [e.blockCache_invalidateSlot]; exact h n)
    (fun _ c h => h.invalidateBlock c) r h

theorem Dev.slotUncached.fenceStep2 {d : Dev} {i : Nat} (h : d.slotUncached i) (r : FenceRec) : (d.fenceStep2 r).slotUncached i :=
  Dev.fenceStep2_keeps (P := fun e => e.slotUncached i) (fun _ c h => h.invalidateSlot c)
    (fun e b h n => by rw [e.slotCache_invalidateBlock]; exact h n) r h

theorem Dev.fenceStep2_uncaches_block (d : Dev) {r : FenceRec} {b : Nat} (hb : b ∈ r.blocks) : (d.fenceStep2 r).blockUncached b :=
  foldl_reaches (I := fun _ => True) (P := fun e : Dev => e.blockUncached b) hb (fun _ _ h => h)
    (fun d _ => d.blockUncached_invalidateBlock b) (fun _ c h => h.invalidateBlock c) trivial

theorem Dev.fenceStep2_uncaches_slot (d : Dev) {r : FenceRec} {i : Nat} (hi : i ∈ r.slots) (hk : i ∈ d.pool.slots.keys) :
    (d.fenceStep2 r).slotUncached i := by
  have huncached : (d.pool.slots.keys.foldl (Dev.uncacheSlot r) d).slotUncached i := by
    refine foldl_reaches (I := fun _ => True) (P := fun e : Dev => e.slotUncached i) hk (fun _ _ h => h) (fun d _ => ?_)
      (fun d c h => ?_) trivial
    · unfold Dev.uncacheSlot
      rw [if_pos (by simp [hi])]
      exact d.slotUncached_invalidateSlot i
    · unfold Dev.uncacheSlot
      split
      · exact h.invalidateSlot c
      · exact h
  exact List.foldlRecOn (motive := fun e : Dev => e.slotUncached i) _ _ huncached fun e h b _ n => by
    rw [e.slotCache_invalidateBlock]; exact h n

/-! ### How a step ends -/

/-- The first step ends with the epoch raised, and the step that recalls begins (Table PB-11). -/
theorem Dev.fenceNext_one (d : Dev) (recs : List FenceRec) (old : BitVec 2) :
    d.fenceNext ⟨recs, 1, old⟩ = (recs.foldl (fun (d : Dev) r => d.fenceStep2 r) d).advanceEpoch.setFence ⟨recs, 2, d.pool.epoch⟩ := by
  have hepoch : (recs.foldl (fun (d : Dev) r => d.fenceStep2 r) d).pool.epoch = d.pool.epoch :=
    foldl_frame (fun d : Dev => d.pool.epoch) _ _
      (fun d r => by obtain ⟨_, _, _, _, _, _, h, _⟩ := records_fields (d.fenceStep2_records r); exact h) d
  rw [← hepoch]
  rfl

theorem Dev.fenceNext_three (d : Dev) (recs : List FenceRec) (old : BitVec 2) :
    d.fenceNext ⟨recs, 3, old⟩ =
      if recs.any fun r => d.sweepLeft r then recs.foldl (fun (d : Dev) r => d.sweepFor r) d else d.setFence ⟨recs, 4, old⟩ := rfl

theorem Dev.fenceNext_four (d : Dev) (recs : List FenceRec) (old : BitVec 2) :
    d.fenceNext ⟨recs, 4, old⟩ =
      if d.outstanding old ≠ 0 then d
      else if recs.any fun r => d.sweepLeft r then recs.foldl (fun (d : Dev) r => d.sweepFor r) d
      else (recs.foldl (fun (d : Dev) r => d.fenceStep5 r) d).setFence ⟨recs, 5, old⟩ := rfl

/-- The last step ends each record and lets the device go on (Table PB-11). -/
theorem Dev.fenceNext_six (d : Dev) (recs : List FenceRec) (old : BitVec 2) :
    let open_ : Dev := { d with pool := { d.pool with fence := none } }
    let done := (List.range 64).foldl (fun (d : Dev) p => d.evacuate p) (recs.foldl (fun (d : Dev) r => d.afterFence r.after) open_)
    d.fenceNext ⟨recs, 6, old⟩ =
      if done.pool.revoking && done.pool.fenceQueue.isEmpty && done.pool.forcedDue.isEmpty then done.revocationEnds else done := by
  simp only [Dev.fenceNext]

theorem exec_fenceStart_runs {s : State} (hruns : s.dev.fwRuns = true) :
    exec .fenceStart s = .next (s.onto s.dev.forcedWork.fenceStart) :=
  exec_onto (exec_fenceStart s) (if_pos hruns)

theorem Dev.forcedWork_idle {d : Dev} (h : d.pool.forcedDue = []) : d.forcedWork = d := by
  unfold Dev.forcedWork
  rw [h, List.foldl_nil, ← h]

/-- Where firmware runs a fence, the end of a step is that of Table PB-11. -/
theorem exec_fenceStepComplete_runs {s : State} {f : FenceRun} (hruns : s.dev.fwRuns = true) (hf : s.dev.pool.fence = some f) :
    exec .fenceStepComplete s = .next (s.onto (s.dev.fenceNext f)) := by
  refine exec_onto (exec_fenceStepComplete s) ?_
  rw [hf]
  exact if_pos hruns

theorem exec_fenceStepComplete_halted {s : State} (hhalted : s.dev.fwRuns = false) :
    exec .fenceStepComplete s = .next (s.onto s.dev) := by
  refine exec_onto (exec_fenceStepComplete s) ?_
  split
  · exact if_neg (by simp [hhalted])
  · rfl

/-- The first step raises the epoch and leaves no entry of the batch in a cache (Table PB-11, R60). -/
theorem Dev.fenceNext_one_leaves (d : Dev) (recs : List FenceRec) (old : BitVec 2) :
    (d.fenceNext ⟨recs, 1, old⟩).pool.epoch = d.pool.epoch + 1 ∧
    (d.fenceNext ⟨recs, 1, old⟩).pool.fence = some ⟨recs, 2, d.pool.epoch⟩ ∧
    (∀ r ∈ recs, ∀ b ∈ r.blocks, (d.fenceNext ⟨recs, 1, old⟩).blockUncached b) ∧
    (∀ r ∈ recs, ∀ b ∈ r.slots, b ∈ d.pool.slots.keys → (d.fenceNext ⟨recs, 1, old⟩).slotUncached b) ∧
    (d.fenceNext ⟨recs, 1, old⟩).dir = d.dir := by
  have hrecords : (recs.foldl (fun (d : Dev) r => d.fenceStep2 r) d).pool.records = d.pool.records :=
    foldl_frame (fun d : Dev => d.pool.records) _ _ (fun d r => d.fenceStep2_records r) _
  obtain ⟨_, _, _, _, _, _, hepoch, _⟩ := records_fields hrecords
  rw [Dev.fenceNext_one]
  refine ⟨congrArg (· + 1) hepoch, rfl, fun r hr b hb => ?_, fun r hr b hb hlisted => ?_,
    foldl_frame Dev.dir _ _ (fun d r => d.fenceStep2_dir r) _⟩
  · exact foldl_reaches (I := fun _ => True) (P := fun e : Dev => e.blockUncached b) hr (fun _ _ h => h)
      (fun d _ => d.fenceStep2_uncaches_block hb) (fun _ x h => h.fenceStep2 x) trivial
  · refine foldl_reaches (I := fun e : Dev => e.pool.slots = d.pool.slots) (P := fun e : Dev => e.slotUncached b) hr
      (fun e x h => (e.fenceStep2_slots x).trans h) (fun e h => e.fenceStep2_uncaches_slot hb ?_) (fun _ x h => h.fenceStep2 x) rfl
    rwa [h]

/-- Settles O16: firmware runs the fence; its first two steps are followed through tables and caches, the others are Table PB-11's. -/
theorem fenceRunsItsSteps : Obligations.FenceRunsItsSteps := by
  refine ⟨fun s hhalted => ⟨exec_onto (exec_fenceStart s) (if_neg (by simp [hhalted])), exec_fenceStepComplete_halted hhalted⟩,
    fun s hruns => exec_fenceStart_runs hruns, fun batch left s hruns hdue hidle hbatch hne => ?start, ?_⟩
  case start =>
    obtain ⟨hdir, hrecords⟩ := Dev.fenceStart_batch hidle hbatch hne
    obtain ⟨hextents, _, hdomains, _, hfence, hqueue, hepoch, _⟩ := records_fields hrecords
    refine yields_of_eq (exec_fenceStart_runs hruns) ?_
    rw [Dev.forcedWork_idle hdue, Dev.shown_pool, Dev.shown_dir]
    exact ⟨hfence, hqueue, hepoch, hextents, hdomains, hdir⟩
  refine ⟨?one, ?two, ?threeLeft, ?three, ?fourLeft, ?four, ?fourOld, ?five, ?six⟩
  all_goals
    rintro ⟨recs, step, old⟩ s hruns hf hstep
    obtain rfl := hstep
    have hexec := exec_fenceStepComplete_runs hruns hf
  case one =>
    refine yields_of_eq hexec ?_
    obtain ⟨hepoch, hfence, hblocks, hslots, hdir⟩ := s.dev.fenceNext_one_leaves recs old
    rw [Dev.shown_pool, Dev.shown_dir]
    refine ⟨hepoch, hfence, hblocks, fun r hr b hb hlisted => ?_, hdir⟩
    exact hslots r hr b hb (List.mem_dedup.2 (List.mem_map.2 hlisted))
  case two => exact hexec
  case threeLeft => exact fun hleft => by rw [hexec, Dev.fenceNext_three, if_pos hleft]
  case three => exact fun hleft => by rw [hexec, Dev.fenceNext_three, if_neg (by simp [hleft])]
  case fourLeft => exact fun hdrained hleft => by rw [hexec, Dev.fenceNext_four, if_neg (by simp [hdrained]), if_pos hleft]
  case four => exact fun hdrained hleft => by rw [hexec, Dev.fenceNext_four, if_neg (by simp [hdrained]), if_neg (by simp [hleft])]
  case fourOld => exact fun hold => by rw [hexec, Dev.fenceNext_four, if_pos hold]
  case five => exact hexec
  case six => exact hexec.trans (by rw [Dev.fenceNext_six])

end Sys2Proof.Machine
end

section
/-! PROOFS. What the homes' operations add to the device: messages that wait for an egress, and what is sent, while neither is taken
back and no directory entry changes. -/

namespace Sys2Proof.Machine

/-! ### Adding messages -/

/-- A later device has sent at least as much, and what waited for an egress still waits. -/
structure Dev.Adds (d d' : Dev) : Prop where
  queued : ∀ e o, d.queued e o → d'.queued e o
  out : d.out <+: d'.out

theorem Dev.Adds.refl (d : Dev) : d.Adds d := ⟨fun _ _ h => h, List.prefix_rfl⟩

theorem Dev.Adds.trans {d d' d'' : Dev} (h : d.Adds d') (h' : d'.Adds d'') : d.Adds d'' :=
  ⟨fun e o hq => h'.queued e o (h.queued e o hq), h.out.trans h'.out⟩

/-- A later device has sent at least as much, what waited still waits, and the directory holds the same entries. -/
structure Dev.Carries (d d' : Dev) : Prop extends Dev.Adds d d' where
  entries : d'.dir.entries = d.dir.entries

theorem Dev.Carries.refl (d : Dev) : d.Carries d := ⟨Dev.Adds.refl d, rfl⟩

theorem Dev.Carries.trans {d d' d'' : Dev} (h : d.Carries d') (h' : d'.Carries d'') : d.Carries d'' :=
  ⟨h.toAdds.trans h'.toAdds, h'.entries.trans h.entries⟩

/-- A change beside buffer and directory. -/
theorem Dev.Carries.of_same {d d' : Dev} (hsw : d'.sw = d.sw) (hout : d.out <+: d'.out) (hentries : d'.dir.entries = d.dir.entries) :
    d.Carries d' :=
  ⟨⟨fun e o h => by unfold Dev.queued; rwa [hsw], hout⟩, hentries⟩

theorem Dev.Carries.ite {c : Prop} [Decidable c] {d a b : Dev} (ha : d.Carries a) (hb : d.Carries b) : d.Carries (if c then a else b) := by
  split
  · exact ha
  · exact hb

/-- A fold carries what each of its steps carries. -/
theorem Dev.Carries.foldl {α : Type} {f : Dev → α → Dev} (h : ∀ (d : Dev) (x : α), d.Carries (f d x)) (l : List α) (d : Dev) :
    d.Carries (l.foldl f d) :=
  List.foldlRecOn (motive := fun e : Dev => d.Carries e) l f (.refl d) fun e he x _ => he.trans (h e x)

/-- A later device has sent at least as much, what waited still waits, and nothing of the directory has changed. -/
structure Dev.Sends (d d' : Dev) : Prop extends Dev.Adds d d' where
  dir : d'.dir = d.dir

theorem Dev.Sends.refl (d : Dev) : d.Sends d := ⟨Dev.Adds.refl d, rfl⟩

theorem Dev.Sends.trans {d d' d'' : Dev} (h : d.Sends d') (h' : d'.Sends d'') : d.Sends d'' :=
  ⟨h.toAdds.trans h'.toAdds, h'.dir.trans h.dir⟩

theorem Dev.Sends.carries {d d' : Dev} (h : d.Sends d') : d.Carries d' := ⟨h.toAdds, by rw [h.dir]⟩

/-- A change beside buffer and directory. -/
theorem Dev.Sends.of_same {d d' : Dev} (hsw : d'.sw = d.sw) (hout : d.out <+: d'.out) (hdir : d'.dir = d.dir) : d.Sends d' :=
  ⟨⟨fun e o h => by unfold Dev.queued; rwa [hsw], hout⟩, hdir⟩

/-- A fold sends what its steps send. -/
theorem Dev.Sends.foldl {α : Type} {f : Dev → α → Dev} (h : ∀ (d : Dev) (x : α), d.Sends (f d x)) (l : List α) (d : Dev) :
    d.Sends (l.foldl f d) :=
  List.foldlRecOn (motive := fun e : Dev => d.Sends e) l f (.refl d) fun e he x _ => he.trans (h e x)

/-! ### Sending -/

theorem Dev.sends_emit (d : Dev) (o : Out) : d.Sends (d.emit o) := .of_same rfl (d.out_emit o) rfl
theorem Dev.sends_count (d : Dev) (u ev n : Nat) : d.Sends (d.count u ev n) := .of_same (by simp) (by simp) (by simp)
theorem Dev.sends_report (d : Dev) (src cls detail : Nat) : d.Sends (d.report src cls detail) := .of_same (by simp) (by simp) (by simp)
theorem Dev.sends_newId (d : Dev) : d.Sends d.newId.2 := ⟨⟨fun _ _ h => h, List.prefix_rfl⟩, rfl⟩
theorem Dev.sends_choose {α : Type} (d : Dev) (l : List α) : d.Sends (d.choose l).2 := .of_same (by simp) (by simp) (by simp)

theorem Dev.sw_showSlice (d : Dev) (t : Nat) : (d.showSlice t).sw = d.sw := by unfold Dev.showSlice; simp
theorem Dev.dir_showSlice (d : Dev) (t : Nat) : (d.showSlice t).dir = d.dir := by unfold Dev.showSlice; simp
theorem Dev.out_showSlice (d : Dev) (t : Nat) : (d.showSlice t).out = d.out := by unfold Dev.showSlice; simp

/-! ### The buffer -/

/-- What storing a message does to the messages that wait: it joins them, or it is one of a port or link without room. -/
theorem Dev.store_sw (d : Dev) (m : Msg) :
    (∃ sh q f1 f2 f3, d.takeCells m.entity m.cls m.credit m.cells = some sh ∧ (d.store m).sw.blocked = d.sw.blocked ∧
      (d.store m).sw.msgs = d.sw.msgs ++ [{ m with fromShared := sh, quarters := q, born := d.now, f1 := f1, f2 := f2, f3 := f3 }]) ∨
    (((∃ t, m.entity = .tambour t) ∨ m.entity = .mgmt) ∧ (d.store m).sw.msgs = d.sw.msgs ∧ (d.store m).sw.blocked = d.sw.blocked ++ [m]) ∨
    ((∀ t, m.entity ≠ .tambour t) ∧ m.entity ≠ .mgmt ∧ d.store m = d) := by
  cases hroom : d.takeCells m.entity m.cls m.credit m.cells with
  | some sh =>
    obtain ⟨q, f1, f2, f3, hmsgs⟩ := d.store_fits m hroom
    refine .inl ⟨sh, q, f1, f2, f3, rfl, ?_, hmsgs⟩
    unfold Dev.store
    rw [hroom]
    unfold Dev.tag Dev.tagCredit
    dsimp only
    split <;> simp [Dev.showCells, Dev.markHeads]
  | none =>
    unfold Dev.store
    rw [hroom]
    cases he : m.entity <;> simp

theorem Dev.sends_store (d : Dev) (m : Msg) : d.Sends (d.store m) := by
  refine ⟨⟨?_, by simp⟩, by simp⟩
  rintro e o ⟨x, hx, hdest, ho⟩
  rcases d.store_sw m with ⟨sh, q, f1, f2, f3, _, hblocked, hmsgs⟩ | ⟨_, hmsgs, hblocked⟩ | ⟨_, _, hsame⟩
  · exact ⟨x, by rw [hmsgs, hblocked]; grind, hdest, ho⟩
  · exact ⟨x, by rw [hmsgs, hblocked]; grind, hdest, ho⟩
  · exact ⟨x, by rwa [hsame], hdest, ho⟩

/-- An internal message that is stored waits for its egress. -/
theorem Dev.queued_store (d : Dev) {m : Msg} {o : Out} (hentity : (∃ t, m.entity = .tambour t) ∨ m.entity = .mgmt) (ho : o ∈ m.sends) :
    (d.store m).queued m.dest o := by
  rcases d.store_sw m with ⟨sh, q, f1, f2, f3, _, hblocked, hmsgs⟩ | ⟨_, hmsgs, hblocked⟩ | ⟨htile, hmgmt, _⟩
  · refine ⟨{ m with fromShared := sh, quarters := q, born := d.now, f1 := f1, f2 := f2, f3 := f3 }, ?_, rfl, ho⟩
    rw [hmsgs]
    simp
  · exact ⟨m, List.mem_append_right _ (by rw [hblocked]; simp), rfl, ho⟩
  · rcases hentity with ⟨t, ht⟩ | h
    · exact absurd ht (htile t)
    · exact absurd h hmgmt

theorem Dev.sends_writeOut (d : Dev) (m : Msg) : d.Sends (d.writeOut m) := by
  unfold Dev.writeOut
  split
  · exact .foldl (fun d o => d.sends_emit o) _ d
  split
  · exact d.sends_newId.trans (Dev.sends_store _ m)
  · exact d.sends_newId.trans (Dev.sends_emit _ _)

theorem Dev.sends_writeLink (d : Dev) (e : Entity) (s : Nat) (ws : List Word) : d.Sends (d.writeLink e s ws) := by
  unfold Dev.writeLink
  split
  · exact d.sends_writeOut _
  · exact .refl d

theorem Dev.sends_noRoute (d : Dev) (n : Nat) : d.Sends (d.noRoute n) := by
  refine .of_same ?_ (by rw [d.out_noRoute]) ?_
  all_goals
    unfold Dev.noRoute
    dsimp only
    split <;> simp

theorem Dev.sends_postFrom {d d' : Dev} {e : Entity} {ws : List Word} (h : d.postFrom e ws = some d') : d.Sends d' := by
  unfold Dev.postFrom at h
  split at h
  · cases h
  · obtain ⟨s, _, rfl⟩ := Option.map_eq_some_iff.1 h
    exact d.sends_writeLink e s ws

theorem Dev.sends_postOrDrop (d : Dev) (ws : List Word) : d.Sends (d.postOrDrop ws) := by
  unfold Dev.postOrDrop Dev.post
  cases h : d.postFrom (d.writerOf ws) ws with
  | none => exact d.sends_noRoute _
  | some d' => exact Dev.sends_postFrom h

/-! ### Answers and snoops -/

theorem Dev.sends_respond (d : Dev) (p : Fin 64) (e : Entity) (data : Bool) (o : Out) : d.Sends (d.respond p e data o) :=
  d.sends_writeOut _

/-- An answer of the device's own to a port that takes messages waits for it. -/
theorem Dev.queued_respond {d : Dev} {p : Fin 64} (hsafe : d.safe = false) (htakes : d.takesMessages (.port p) = true) {e : Entity}
    (hentity : (∃ t, e = .tambour t) ∨ e = .mgmt) (data : Bool) (o : Out) : (d.respond p e data o).queued (.port p) o := by
  unfold Dev.respond Dev.writeOut
  rw [if_neg (by simp [hsafe])]
  have hdest : d.takesMessages (d.ownMsg e p .rsp (if data then 0 else 1) (if data then 80 else 16) o).dest = true := htakes
  rw [if_pos hdest]
  exact Dev.queued_store _ (m := d.ownMsg e p .rsp (if data then 0 else 1) (if data then 80 else 16) o) hentity (List.mem_singleton_self o)

theorem Dev.homeEntity_internal (d : Dev) (g : Nat) : (∃ t, d.homeEntity g = .tambour t) ∨ d.homeEntity g = .mgmt := by
  unfold Dev.homeEntity
  dsimp only
  split
  · exact .inl ⟨_, rfl⟩
  · exact .inr rfl

theorem Dev.sends_replyData (d : Dev) (req : HomeReq) (data : LineData) (poison : Bool) (grant wait : Nat) (peak : Bool) :
    d.Sends (d.replyData req data poison grant wait peak) := by
  unfold Dev.replyData
  split
  · exact d.sends_postOrDrop _
  · exact d.sends_respond _ _ _ _
  · exact d.sends_emit _

theorem Dev.sends_replyDone (d : Dev) (req : HomeReq) (wait : Nat) (peak : Bool) : d.Sends (d.replyDone req wait peak) := by
  unfold Dev.replyDone
  split
  · exact d.sends_postOrDrop _
  · exact d.sends_respond _ _ _ _
  · exact d.sends_emit _

/-- The data of a host's read waits for its port. -/
theorem Dev.queued_replyData {d : Dev} {req : HomeReq} {h : Fin 64} (hagent : req.agent = .host h) (hreach : d.reaches h) (data : LineData)
    (poison : Bool) (grant wait : Nat) (peak : Bool) :
    (d.replyData req data poison grant wait peak).queued (.port h) (.memData (.host h) req.txn data poison (d.devLoad wait peak)) := by
  unfold Dev.replyData
  rw [hagent]
  exact Dev.queued_respond hreach.1 hreach.2 (d.homeEntity_internal _) _ _

/-- The completion of a host's write waits for its port. -/
theorem Dev.queued_replyDone {d : Dev} {req : HomeReq} {h : Fin 64} (hagent : req.agent = .host h) (hreach : d.reaches h) (wait : Nat)
    (peak : Bool) :
    (d.replyDone req wait peak).queued (.port h) (.memDone (.host h) req.txn (d.devLoad wait peak)) := by
  unfold Dev.replyDone
  rw [hagent]
  exact Dev.queued_respond hreach.1 hreach.2 (d.homeEntity_internal _) _ _

theorem Dev.sends_snoop (d : Dev) (h : Holder) (line : Nat) (k : SnoopKind) : d.Sends (d.snoop h line k) := by
  unfold Dev.snoop
  split
  · exact (d.sends_writeOut _).trans (Dev.sends_count _ _ _ _)
  · exact (d.sends_postOrDrop _).trans (Dev.sends_count _ _ _ _)
  · exact d.sends_emit _

theorem Dev.sends_snoopAll (d : Dev) (hs : List Holder) (g : Nat) (m : BitVec 16) (k : SnoopKind) : d.Sends (d.snoopAll hs g m k) := by
  refine .foldl (fun d h => ?_) hs d
  split
  · exact .foldl (fun d i => d.sends_snoop h _ k) _ d
  · exact d.sends_snoop h _ k

theorem Dev.sends_tellNeighbour (d : Dev) (op : Nat) (req : HomeReq) (resv : Bool) : d.Sends (d.tellNeighbour op req resv) := by
  unfold Dev.tellNeighbour
  split
  · cases h : d.postFrom _ _ with
    | none => exact .refl d
    | some d' => exact Dev.sends_postFrom h
  · exact .refl d

/-! ### The conflict table -/

theorem Dev.carries_setCt (d : Dev) (g : Nat) (e : CtEntry) : d.Carries (d.setCt g e) := by
  unfold Dev.setCt
  exact .of_same (Dev.sw_showSlice _ _) (by rw [Dev.out_showSlice]) (by rw [Dev.dir_showSlice])

theorem Dev.carries_dropCt (d : Dev) (g : Nat) : d.Carries (d.dropCt g) := by
  unfold Dev.dropCt
  exact .of_same (Dev.sw_showSlice _ _) (by rw [Dev.out_showSlice]) (by rw [Dev.dir_showSlice])

theorem Dev.carries_endTxn (d : Dev) (a : Agent) (txn : Nat) : d.Carries (d.endTxn a txn) := .of_same rfl List.prefix_rfl rfl

theorem Dev.carries_holdFor (g : Nat) (l : List (Nat × Nat)) (d : Dev) : d.Carries (d.holdFor g l) := by
  induction l generalizing d with
  | nil => exact .refl d
  | cons x rest ih =>
    obtain ⟨grp, txn⟩ := x
    unfold Dev.holdFor
    split
    · exact (((d.carries_setCt g _).trans (Dev.sends_emit _ _).carries).trans (Dev.sends_tellNeighbour _ _ _ _).carries).trans
        (Dev.sends_count _ _ _ _).carries
    · exact ih d

theorem Dev.carries_retire (d : Dev) (g : Nat) : d.Carries (d.retire g) := by
  unfold Dev.retire
  split
  · exact .refl d
  · rename_i e _
    refine Dev.Carries.trans ?_ ((Dev.carries_dropCt _ g).trans (Dev.carries_holdFor g e.resv _))
    split
    · exact .refl d
    · exact d.carries_endTxn _ _

theorem Dev.carries_settle (d : Dev) (g : Nat) : d.Carries (d.settle g) := by
  unfold Dev.settle
  split
  · split
    · exact d.carries_retire g
    · exact .refl d
  · exact .refl d

theorem Dev.carries_readServed (d : Dev) (g : Nat) : d.Carries (d.readServed g) := by
  unfold Dev.readServed
  split
  · exact .refl d
  · dsimp only
    split
    · exact (d.carries_setCt g _).trans (Dev.sends_snoopAll _ _ _ _ _).carries
    · exact d.carries_setCt g _

/-! ### Expander accesses -/

theorem Dev.carries_sendExp (d : Dev) (req : HomeReq) (real port addr copy : Nat) (what : Option Stored) (fallback green : Bool) :
    d.Carries (d.sendExp req real port addr copy what fallback green) := by
  unfold Dev.sendExp
  split
  · dsimp only
    refine Dev.Carries.trans ?_ (Dev.sends_store _ _).carries
    exact ⟨⟨fun _ _ h => h, List.prefix_rfl⟩, rfl⟩
  · exact .refl d

theorem Dev.carries_storeCopy (d : Dev) (port addr : Nat) (v : Stored) : d.Carries (d.storeCopy port addr v) :=
  .of_same rfl List.prefix_rfl rfl

theorem Dev.carries_poisonLine (d : Dev) (line : Nat) : d.Carries (d.poisonLine line) := by
  unfold Dev.poisonLine
  split
  · exact .refl d
  · dsimp only
    split
    · exact (d.carries_storeCopy _ _ _).trans (Dev.carries_storeCopy _ _ _ _)
    · exact d.carries_storeCopy _ _ _

theorem Dev.carries_lineLost (d : Dev) (line real : Nat) : d.Carries (d.lineLost line real) :=
  (d.carries_poisonLine real).trans (Dev.sends_report _ _ _ _).carries

theorem Dev.carries_modHub (d : Dev) (f : HubTables → HubTables) : d.Carries (d.modHub f) := by
  unfold Dev.modHub
  exact .of_same (by simp [Dev.wakeQuarters]) (by simp [Dev.wakeQuarters]) (by simp [Dev.wakeQuarters])

theorem Dev.carries_countInvalidation (d : Dev) : d.Carries d.countInvalidation :=
  .foldl (fun d t => (d.sends_count t 0x300C 1).carries) (List.range 16) d

theorem Dev.carries_invalidateSet (d : Dev) (i : Nat) : d.Carries (d.invalidateSet i) := by
  unfold Dev.invalidateSet
  refine Dev.Carries.trans ?_ (Dev.carries_countInvalidation _)
  exact .of_same rfl List.prefix_rfl rfl

theorem Dev.carries_markRepair (d : Dev) (p : Place) (copy granule : Nat) : d.Carries (d.markRepair p copy granule) := by
  unfold Dev.markRepair Dev.modSet
  split
  · exact .refl d
  split
  · exact d.carries_modHub _
  · exact ((d.carries_modHub _).trans (Dev.carries_invalidateSet _ _)).trans (Dev.sends_report _ _ _ _).carries

theorem Dev.carries_xtsDomain (d : Dev) (e : BlockEntry) (line : Nat) : d.Carries (d.xtsDomain e line).2 := by
  unfold Dev.xtsDomain
  split
  · exact .refl d
  · exact (d.sends_report _ _ _).carries

theorem Dev.carries_decrypt (d : Dev) (dom line : Nat) (v : Option Stored) : d.Carries (d.decrypt dom line v).2 := by
  have hopen : d.Carries (d.openBits 512).2 := .of_same (by simp) (by simp) (by simp)
  unfold Dev.decrypt
  split
  · exact .refl d
  · split
    · exact .refl d
    · exact hopen
  · exact hopen
  · exact .refl d

theorem Dev.carries_writeLine (d : Dev) (req : HomeReq) (real : Nat) (data : LineData) (poison green : Bool) :
    d.Carries (d.writeLine req real data poison green) := by
  have hx : d.Carries (if poison then ((some (d.blockEntry (blockOfLine real)).owner.toNat, d) : Option Nat × Dev)
      else d.xtsDomain (d.blockEntry (blockOfLine real)) real).2 := by
    split
    · exact .refl d
    · exact d.carries_xtsDomain _ _
  unfold Dev.writeLine
  dsimp only
  split
  · rename_i hd
    rw [hd] at hx
    refine hx.trans ?_
    dsimp only
    cases (if poison = true then some Stored.poison else Dev.encrypt _ _ real data) with
    | none => exact .refl _
    | some v =>
      dsimp only
      refine .ite (Dev.carries_lineLost _ _ _) ?_
      refine Dev.Carries.trans ?_ (.foldl (fun d c => d.carries_sendExp _ _ _ _ _ _ _ _) _ _)
      exact .ite (.refl _) (.foldl (fun d c => d.carries_markRepair _ _ _) _ _)
  · rename_i hd _
    rwa [hd] at hx

theorem Dev.carries_readArrived (d : Dev) (g : Nat) (data : LineData) (poison : Bool) (wait : Nat) :
    d.Carries (d.readArrived g data poison wait) := by
  unfold Dev.readArrived
  split
  · exact .refl d
  split
  · dsimp only
    split
    · exact (d.carries_setCt g _).trans (Dev.carries_settle _ g)
    · exact ((d.carries_setCt g _).trans (Dev.carries_writeLine _ _ _ _ _ _)).trans (Dev.carries_settle _ g)
  · exact (d.sends_replyData _ _ _ _ _ _).carries.trans (Dev.carries_readServed _ g)

theorem Dev.carries_readLine (d : Dev) (g : Nat) : d.Carries (d.readLine g) := by
  unfold Dev.readLine
  split
  · exact .refl d
  dsimp only
  rename_i e _
  refine Dev.Carries.trans (d.carries_setCt g { e with state := .mem }) ?_
  generalize d.setCt g { e with state := .mem } = d
  split
  · exact Dev.carries_readArrived _ _ _ _ _
  split
  · exact Dev.carries_sendExp _ _ _ _ _ _ _ _ _
  split
  · exact Dev.carries_sendExp _ _ _ _ _ _ _ _ _
  · exact Dev.carries_readArrived _ _ _ _ _

/-! ### The dirty-page log -/

theorem Dev.carries_dirtyMark (d : Dev) (id dpa : Nat) (a : Agent) : d.Carries (d.dirtyMark id dpa a) := by
  unfold Dev.dirtyMark Dev.setDirtyRun
  split
  · exact .refl d
  split
  · exact .refl d
  dsimp only
  split <;> exact .of_same rfl List.prefix_rfl rfl

theorem Dev.carries_dirtyLog (d : Dev) (a : Agent) (line : Nat) : d.Carries (d.dirtyLog a line) := by
  have hlogged : d.Carries (d.loggedFor a line).2 := by
    unfold Dev.loggedFor
    dsimp only
    split
    · exact .refl d
    · exact (d.sends_choose _).carries
    · exact .refl d
  unfold Dev.dirtyLog
  split <;> rename_i h <;> rw [h] at hlogged
  · exact hlogged.trans (Dev.carries_dirtyMark _ _ _ _)
  · exact hlogged

end Sys2Proof.Machine
end

section
/-! PROOFS. The answers of the expanders, and the requests that go on after them. -/

namespace Sys2Proof.Machine

/-! ### What a home reads of its tables -/

theorem Dev.hubLost_congr {d d' : Dev} (h : d'.reg .retireStatus = d.reg .retireStatus) (q : Nat) : d'.hubLost q = d.hubLost q := by
  unfold Dev.hubLost
  rw [Dev.rd_eq_of_reg h]

theorem Dev.hub_congr {d d' : Dev} (h : d'.reg .retireStatus = d.reg .retireStatus) (ha : d'.pool.hubA = d.pool.hubA)
    (hb : d'.pool.hubB = d.pool.hubB) : d'.hub = d.hub := by
  simp only [Dev.hub, Dev.hubLost_congr h, ha, hb]

theorem Dev.lostBlock_congr {d d' : Dev} (hhub : d'.hub = d.hub) (hdomains : d'.pool.domains = d.pool.domains)
    (hextents : d'.pool.extents = d.pool.extents) (b : Nat) : d'.lostBlock b = d.lostBlock b := by
  have hdefault : d'.blockDefault b = d.blockDefault b := by unfold Dev.blockDefault; rw [hhub]
  have hcoherent : d'.recordedCoherent b = d.recordedCoherent b := by unfold Dev.recordedCoherent; rw [hhub, hextents]
  unfold Dev.lostBlock Dev.domainOfBlock
  rw [hdefault, hcoherent, hdomains]

/-- A block's entry depends on its rows, on the hub's structures and quarters, and on firmware's records. -/
theorem Dev.blockEntry_congr {d d' : Dev} (hretired : d'.reg .retireStatus = d.reg .retireStatus) (hhub : d'.hub = d.hub)
    (hblocks : d'.pool.blocks = d.pool.blocks) (hdomains : d'.pool.domains = d.pool.domains)
    (hextents : d'.pool.extents = d.pool.extents) (b : Nat) : d'.blockEntry b = d.blockEntry b := by
  have hdefault : d'.blockDefault b = d.blockDefault b := by unfold Dev.blockDefault; rw [hhub]
  simp only [Dev.blockEntry, Dev.checkedRow, Dev.hubLost_congr hretired, hdefault, Dev.lostBlock_congr hhub hdomains hextents, hblocks]

/-- A later device has the same pool, and the same registers, those that count events aside. -/
structure Dev.Alike (d d' : Dev) : Prop where
  pool : d'.pool = d.pool
  reg : ∀ r : Reg, r.side = false → d'.reg r = d.reg r

theorem Dev.Alike.trans {d d' d'' : Dev} (h : d.Alike d') (h' : d'.Alike d'') : d.Alike d'' :=
  ⟨h'.pool.trans h.pool, fun r hr => (h'.reg r hr).trans (h.reg r hr)⟩

theorem Dev.Alike.hub {d d' : Dev} (h : d.Alike d') : d'.hub = d.hub :=
  Dev.hub_congr (h.reg _ rfl) (by rw [h.pool]) (by rw [h.pool])

theorem Dev.Alike.blockEntry {d d' : Dev} (h : d.Alike d') (b : Nat) : d'.blockEntry b = d.blockEntry b :=
  Dev.blockEntry_congr (h.reg _ rfl) h.hub (by rw [h.pool]) (by rw [h.pool]) (by rw [h.pool]) b

theorem Dev.Alike.place {d d' : Dev} (h : d.Alike d') (e : BlockEntry) (line : Nat) : d'.place e line = d.place e line := by
  simp only [Dev.place, Dev.setAt, Dev.setDesc?, h.hub, h.pool]

theorem Dev.Alike.memNow {d d' : Dev} (h : d.Alike d') (hops : d'.dir.expOps = d.dir.expOps) (port addr : Nat) :
    d'.memNow port addr = d.memNow port addr := by
  simp only [Dev.memNow, Dev.memAt, hops, h.pool]

theorem Dev.Alike.safe {d d' : Dev} (h : d.Alike d') : d'.safe = d.safe := Dev.bitOf_eq_of_reg (h.reg _ rfl) 31

/-- Registers that neither an event's counts nor the buffer and the directory slices show their state in. -/
def Reg.steady : Reg → Bool
  | .bufStatus | .domStatus _ | .dirStatus _ | .dirCtStatus _ => false
  | r => !r.side

theorem Reg.side_of_steady {r : Reg} (h : r.steady = true) : r.side = false := by
  cases r <;> simp_all [Reg.steady, Reg.side]

/-- Whether an egress takes messages is a matter of registers. -/
theorem Dev.takesMessages_congr {d d' : Dev} (h : ∀ r : Reg, r.steady = true → d'.reg r = d.reg r) (e : Egress) :
    d'.takesMessages e = d.takesMessages e := by
  have hstate : ∀ q, d'.portState q = d.portState q := fun q => Dev.rd_eq_of_reg (h _ rfl) 31 28
  have hmode : ∀ q, d'.portMode q = d.portMode q := fun q => Dev.rd_eq_of_reg (h _ rfl) 31 28
  have hsafe : d'.safe = d.safe := Dev.bitOf_eq_of_reg (h _ rfl) 31
  have hactive : ∀ s, d'.active s = d.active s := fun s => Dev.active_congr (Dev.rd_eq_of_reg (h _ rfl) 31 28)
  cases e with
  | port p => simp only [Dev.takesMessages, Dev.boundActive, hstate, hmode, hsafe, Dev.rd_eq_of_reg (h (.prtCfg p) rfl)]
  | link s => simp only [Dev.takesMessages, hactive, hsafe]
  | home t => rfl

theorem Dev.reaches_congr {d d' : Dev} (h : ∀ r : Reg, r.steady = true → d'.reg r = d.reg r) {p : Fin 64} (hreach : d.reaches p) :
    d'.reaches p :=
  ⟨(Dev.bitOf_eq_of_reg (h _ rfl) 31).trans hreach.1, (Dev.takesMessages_congr h _).trans hreach.2⟩

theorem Dev.Alike.reaches {d d' : Dev} (h : d.Alike d') {p : Fin 64} (hreach : d.reaches p) : d'.reaches p :=
  Dev.reaches_congr (fun r hr => h.reg r (Reg.side_of_steady hr)) hreach

/-! ### The tap of an expander's answer -/

theorem Dev.alike_consumed (d : Dev) (m : Msg) : d.Alike (d.consumed m) :=
  ⟨by simp [Dev.consumed], fun r hr => by simp [Dev.consumed, Dev.reg_mirror, hr]⟩

/-- The answer as the mirror sessions and the timeout count take it. -/
def Dev.tapped (d : Dev) (o : ExpOp) (data poison : Bool) : Dev := (d.answerTap o data poison).answeredInTime o.port

theorem Dev.tapped_sw (d : Dev) (o : ExpOp) (data poison : Bool) :
    (d.tapped o data poison).sw.msgs = d.sw.msgs ∧ (d.tapped o data poison).sw.blocked = d.sw.blocked := by
  unfold Dev.tapped Dev.answerTap Dev.answeredInTime
  split <;> simp [Dev.consumed, Dev.newId]

@[simp] theorem Dev.tapped_dir (d : Dev) (o : ExpOp) (data poison : Bool) : (d.tapped o data poison).dir = d.dir := by
  unfold Dev.tapped Dev.answerTap Dev.answeredInTime
  split <;> simp [Dev.consumed]

theorem Dev.alike_tapped (d : Dev) (o : ExpOp) (data poison : Bool) : d.Alike (d.tapped o data poison) := by
  unfold Dev.tapped Dev.answerTap Dev.answeredInTime
  split
  · exact (d.alike_consumed _).trans ⟨rfl, fun _ _ => rfl⟩
  · exact ⟨rfl, fun _ _ => rfl⟩

/-! ### The accesses under way -/

theorem Dev.op_of_sentOp {d : Dev} {op : Nat} {o : ExpOp} (h : d.sentOp op = some o) : o.op = op := by
  have hfound := List.find?_some h
  simp only [Bool.and_eq_true, decide_eq_true_eq] at hfound
  exact hfound.1.1

theorem Dev.ctEntry_of_dir {d d' : Dev} (h : d'.dir.ct = d.dir.ct) (g : Nat) : d'.ctEntry g = d.ctEntry g := by
  unfold Dev.ctEntry
  rw [h]

theorem Dev.settle_of_none {d : Dev} {g : Nat} (h : d.ctEntry g = none) : d.settle g = d := by
  unfold Dev.settle
  rw [h]

theorem Dev.mem_dropOp {d : Dev} {op : Nat} {x : ExpOp} (h : x ∈ (d.dropOp op).dir.expOps) : x.op ≠ op := by
  simpa using (List.mem_filter.1 h).2

theorem Dev.alike_dropOp (d : Dev) (op : Nat) : d.Alike (d.dropOp op) := ⟨rfl, fun _ _ => rfl⟩

theorem Dev.alike_count (d : Dev) (u ev n : Nat) : d.Alike (d.count u ev n) := ⟨by simp, fun r hr => d.reg_count u ev n r hr⟩

/-! ### Write completions -/

theorem exec_expanderWriteCompletion_sent {op : Nat} {o : ExpOp} {v : Stored} {s : State} (hsent : s.dev.sentOp op = some o)
    (hwhat : o.what = some v) :
    exec (.expanderWriteCompletion op) s = .next (s.onto
      (((((s.dev.tapped o false false).memWrite o.port o.addr v).dropOp op).count (o.port / 4) 0x3011 1).settle
        (granuleOf o.line.toNat))) := by
  refine exec_onto (exec_expanderWriteCompletion op s) ?_
  simp only [hsent, hwhat]
  rfl

theorem Dev.memAt_memWrite_same (d : Dev) (port addr : Nat) (v : Stored) : (d.memWrite port addr v).memAt port addr = some v :=
  memGet_memPut_same _ _ _

theorem Dev.memAt_memWrite_ne (d : Dev) {port addr p a : Nat} (v : Stored) (h : memKey p a ≠ memKey port addr) :
    (d.memWrite port addr v).memAt p a = d.memAt p a := memGet_memPut_ne _ _ h

theorem Dev.memAt_congr {d d' : Dev} (h : d'.pool.mem = d.pool.mem) (p a : Nat) : d'.memAt p a = d.memAt p a := by
  unfold Dev.memAt
  rw [h]

/-- What a completed write leaves where its granule has no conflict entry. -/
theorem Dev.writeCompleted (d : Dev) {op : Nat} {o : ExpOp} {v : Stored} (hfree : d.ctEntry (granuleOf o.line.toNat) = none) :
    let t := (((((d.tapped o false false).memWrite o.port o.addr v).dropOp op).count (o.port / 4) 0x3011 1).settle
        (granuleOf o.line.toNat)).shown
    t.memAt o.port o.addr = some v ∧ (∀ p a, memKey p a ≠ memKey o.port o.addr → t.memAt p a = d.memAt p a) ∧
      (∀ x ∈ t.dir.expOps, x.op ≠ op) ∧ t.dir.entries = d.dir.entries ∧ t.sw.msgs = d.sw.msgs ∧ t.sw.blocked = d.sw.blocked := by
  intro t
  have ht : t = ((((d.tapped o false false).memWrite o.port o.addr v).dropOp op).count (o.port / 4) 0x3011 1).shown := by
    refine congrArg Dev.shown (Dev.settle_of_none ?_)
    rw [← hfree]
    exact Dev.ctEntry_of_dir (by simp [Dev.dropOp, Dev.memWrite]) _
  have hpool : t.pool = ((d.tapped o false false).memWrite o.port o.addr v).pool := by rw [ht]; simp [Dev.dropOp]
  have hdir : t.dir = (d.dropOp op).dir := by rw [ht]; simp [Dev.dropOp, Dev.memWrite]
  have hsw : t.sw = (d.tapped o false false).sw := by rw [ht]; simp [Dev.dropOp, Dev.memWrite]
  obtain ⟨hmsgs, hblocked⟩ := d.tapped_sw o false false
  refine ⟨?_, fun p a hne => ?_, fun x hx => ?_, by rw [hdir]; rfl, hsw ▸ hmsgs, hsw ▸ hblocked⟩
  · rw [Dev.memAt_congr (congrArg (·.mem) hpool), Dev.memAt_memWrite_same]
  · rw [Dev.memAt_congr (congrArg (·.mem) hpool), Dev.memAt_memWrite_ne _ _ hne,
      Dev.memAt_congr (congrArg (·.mem) (d.alike_tapped o false false).pool)]
  · exact Dev.mem_dropOp (d := d) (by rwa [hdir] at hx)

/-! ### Read responses -/

theorem exec_expanderReadResponse_sent {op : Nat} {o : ExpOp} {s : State} (hsent : s.dev.sentOp op = some o) (hwhat : o.what = none)
    (status : ReadStatus) :
    exec (.expanderReadResponse op status) s = .next (s.onto ((s.dev.tapped o true (decide (status ≠ .good))).readEnds o status)) := by
  refine exec_onto (exec_expanderReadResponse op status s) ?_
  simp only [hsent, hwhat]
  rfl

/-- A read that succeeds hands its granule the decrypted line. -/
theorem Dev.readEnds_good {d d1 : Dev} {o : ExpOp} {p : Place} {v : LineData} {poison : Bool}
    (hplace : d.place (d.blockEntry (blockOfLine o.real.toNat)) o.real.toNat = some p) (hmem : d.memNow o.port o.addr ≠ some .poison)
    (howner : (d.blockEntry (blockOfLine o.real.toNat)).ownerC = ~~~(d.blockEntry (blockOfLine o.real.toNat)).owner)
    (hdecrypt : (d.dropOp o.op).decrypt (d.blockEntry (blockOfLine o.real.toNat)).owner.toNat o.real.toNat (d.memNow o.port o.addr) =
      ((v, poison), d1)) (hfallback : o.fallback = false) :
    d.readEnds o .good = (d1.count (o.port / 4) 0x3010 1).readArrived (granuleOf o.line.toNat) v poison (o.wait.getD 0) := by
  have hplace' := ((d.alike_dropOp o.op).place (d.blockEntry (blockOfLine o.real.toNat)) o.real.toNat).trans hplace
  unfold Dev.readEnds
  simp only [hplace', hmem, Dev.xtsDomain, howner, hfallback]
  simp [hdecrypt]

theorem Dev.decrypt_frame (d : Dev) (dom line : Nat) (x : Option Stored) :
    d.Alike (d.decrypt dom line x).2 ∧ (d.decrypt dom line x).2.dir = d.dir := by
  have hsame : ∀ n, d.Alike { d with free := n } ∧ ({ d with free := n } : Dev).dir = d.dir := fun n => ⟨⟨rfl, fun _ _ => rfl⟩, rfl⟩
  unfold Dev.decrypt
  split
  · exact hsame _
  · split <;> exact hsame _
  · exact hsame _
  · exact hsame _

theorem Dev.expOps_readServed (d : Dev) (g : Nat) : (d.readServed g).dir.expOps = d.dir.expOps := by
  have hset : ∀ e : CtEntry, (d.setCt g e).dir.expOps = d.dir.expOps := fun e => by rw [Dev.setCt, Dev.dir_showSlice]
  unfold Dev.readServed
  split
  · rfl
  dsimp only
  split
  · rw [(Dev.sends_snoopAll _ _ _ _ _).dir, hset]
  · exact hset _

/-- The data of a host's shared read waits for its port, and no access of an expander is added or ended. -/
theorem Dev.readArrived_host {d : Dev} {g : Nat} {e : CtEntry} {h : Fin 64} (hct : d.ctEntry g = some e) (hkind : e.kind = .readShared)
    (hagent : e.req.agent = .host h) (hreach : d.reaches h) (v : LineData) (poison : Bool) (wait : Nat) :
    (∃ n, (d.readArrived g v poison wait).queued (.port h) (.memData (.host h) e.req.txn v poison n)) ∧
      (d.readArrived g v poison wait).dir.expOps = d.dir.expOps := by
  have hread : d.readArrived g v poison wait =
      (d.replyData e.req v poison (d.granted e.kind e.req) wait e.peakWaited).readServed g := by
    unfold Dev.readArrived
    rw [hct]
    exact if_neg (by simp [hkind])
  rw [hread, Dev.expOps_readServed, (Dev.sends_replyData _ _ _ _ _ _ _).dir]
  exact ⟨⟨_, (Dev.carries_readServed _ g).queued _ _ (Dev.queued_replyData hagent hreach _ _ _ _ _)⟩, rfl⟩

/-! ### Requests that go on -/

theorem Dev.resend_granted (d : Dev) (r : Retried) :
    d.resend r true = if r.kind = .release then d.releaseIn r.req r.lines true else d.arrive r.kind r.req true := by
  unfold Dev.resend
  simp

theorem Dev.resend_free (d : Dev) (r : Retried) :
    d.resend r false = if r.kind = .release then d.releaseIn r.req r.lines false
      else if r.kind.writes = true then d.writeIn r.kind r.req else d.arrive r.kind r.req false := by
  unfold Dev.resend
  simp

theorem Dev.queued_shown {d : Dev} {e : Egress} {o : Out} (h : d.queued e o) : d.shown.queued e o := by
  unfold Dev.queued at *
  rwa [Dev.shown_sw]

/-- Settles O22: each answer runs the chain of steps that its command names; a completed write's store, ended access and untouched
queues are read off that chain, and a read's data is queued by its reply, which nothing after it takes back. -/
theorem expanderAnswersEndTheirAccesses : Obligations.ExpanderAnswersEndTheirAccesses := by
  unfold Obligations.ExpanderAnswersEndTheirAccesses
  refine ⟨fun op o v s hsent hwhat => exec_expanderWriteCompletion_sent hsent hwhat,
    fun op o v s hsent hwhat hfree => yields_of_eq (exec_expanderWriteCompletion_sent hsent hwhat) (s.dev.writeCompleted hfree),
    fun op o s hsent hwhat => exec_onto (exec_expanderWriteFailure op s) ?failure,
    fun op o s hsent hwhat => exec_expanderReadResponse_sent hsent hwhat, ?read,
    fun granule e s hct hdone hwaits hops => exec_onto (exec_conflictEntryRetire granule s) ?retire,
    fun granule e s hct hheld => exec_onto (exec_grantReceived granule s) ?grant,
    fun group slice r s hfree hnext => exec_onto (exec_ingressResend group slice s) ?resend⟩
  case failure => simp [hsent, hwhat]
  case retire => simp [hct, hdone, hwaits, hops]
  case grant => simp only [hct, hheld, if_true, Dev.resend_granted]
  case resend => simp only [hfree, hnext, if_true, Dev.resend_free]
  case read =>
    intro op o p v poison e h d1 s hsent hwhat hfallback hplace hmem howner hreach hdecrypt hct hkind hagent _
    have hop := Dev.op_of_sentOp hsent
    have hlike := s.dev.alike_tapped o true false
    have hframe := Dev.decrypt_frame ((s.dev.tapped o true false).dropOp op) (s.dev.blockEntry (blockOfLine o.real.toNat)).owner.toNat
      o.real.toNat (s.dev.memNow o.port o.addr)
    have hdecrypted : ((s.dev.tapped o true false).dropOp op).decrypt (s.dev.blockEntry (blockOfLine o.real.toNat)).owner.toNat o.real.toNat
      (s.dev.memNow o.port o.addr) = ((v, poison), d1) := hdecrypt
    rw [hdecrypted] at hframe
    obtain ⟨hlike1, hdir1⟩ := hframe
    have hends : (s.dev.tapped o true false).readEnds o .good =
        (d1.count (o.port / 4) 0x3010 1).readArrived (granuleOf o.line.toNat) v poison (o.wait.getD 0) := by
      have hnow := hlike.memNow (congrArg (·.expOps) (s.dev.tapped_dir o true false)) o.port o.addr
      refine Dev.readEnds_good (p := p) ?_ ?_ ?_ ?_ hfallback
      · rw [hlike.blockEntry, hlike.place, hplace]
      · rwa [hnow]
      · rwa [hlike.blockEntry]
      · rwa [hlike.blockEntry, hnow, hop]
    have hlast := ((hlike.trans (Dev.alike_dropOp _ op)).trans hlike1).trans (d1.alike_count (o.port / 4) 0x3010 1)
    have hdir : (d1.count (o.port / 4) 0x3010 1).dir = (s.dev.dropOp op).dir := by
      rw [Dev.count_dir, hdir1]
      simp [Dev.dropOp]
    obtain ⟨⟨n, hqueued⟩, hexpOps⟩ := Dev.readArrived_host ((Dev.ctEntry_of_dir (by rw [hdir]; rfl) _).trans hct) hkind hagent
      (hlast.reaches hreach) v poison (o.wait.getD 0)
    refine yields_of_eq (exec_expanderReadResponse_sent hsent hwhat .good) ?_
    have hends' : (s.dev.tapped o true (decide (ReadStatus.good ≠ .good))).readEnds o .good = _ := hends
    rw [hends']
    refine ⟨⟨n, Dev.queued_shown hqueued⟩, fun x hx => ?_⟩
    rw [Dev.shown_dir, hexpOps, hdir] at hx
    exact Dev.mem_dropOp hx

end Sys2Proof.Machine
end

section
/-! PROOFS. What looking tables up leaves as it was: lookups repair, count, report and fill caches, and no more. -/

namespace Sys2Proof.Machine

/-- A later device has looked something up: its caches, the copies of a repaired row and its counts may differ. -/
structure Dev.Looked (d d' : Dev) : Prop where
  sw : d'.sw = d.sw
  dir : d'.dir = d.dir
  link : d'.link = d.link
  svc : d'.svc = d.svc
  out : d.out <+: d'.out
  retirement : d'.flt.retirement = d.flt.retirement
  diesOut : d'.flt.diesOut = d.flt.diesOut
  hosts : d'.flt.hosts = d.flt.hosts
  mem : d'.pool.mem = d.pool.mem
  domains : d'.pool.domains = d.pool.domains
  extents : d'.pool.extents = d.pool.extents
  hub : d'.hub = d.hub
  reg : ∀ r : Reg, r.side = false → d'.reg r = d.reg r
  rows : ∀ b, d'.blockEntry b = d.blockEntry b

theorem Dev.Looked.refl (d : Dev) : d.Looked d :=
  ⟨rfl, rfl, rfl, rfl, List.prefix_rfl, rfl, rfl, rfl, rfl, rfl, rfl, rfl, fun _ _ => rfl, fun _ => rfl⟩

theorem Dev.Looked.trans {d d' d'' : Dev} (h : d.Looked d') (h' : d'.Looked d'') : d.Looked d'' where
  sw := h'.sw.trans h.sw
  dir := h'.dir.trans h.dir
  link := h'.link.trans h.link
  svc := h'.svc.trans h.svc
  out := h.out.trans h'.out
  retirement := h'.retirement.trans h.retirement
  diesOut := h'.diesOut.trans h.diesOut
  hosts := h'.hosts.trans h.hosts
  mem := h'.mem.trans h.mem
  domains := h'.domains.trans h.domains
  extents := h'.extents.trans h.extents
  hub := h'.hub.trans h.hub
  reg := fun r hr => (h'.reg r hr).trans (h.reg r hr)
  rows := fun b => (h'.rows b).trans (h.rows b)

/-- A fold of lookups looks up. -/
theorem Dev.Looked.foldl {α : Type} {f : Dev → α → Dev} (h : ∀ (d : Dev) (x : α), d.Looked (f d x)) (l : List α) (d : Dev) :
    d.Looked (l.foldl f d) :=
  List.foldlRecOn (motive := fun e : Dev => d.Looked e) l f (.refl d) fun e he x _ => he.trans (h e x)

/-- What leaves pool, buffer, directory and links and the registers that count no events. -/
theorem Dev.Looked.of_alike {d d' : Dev} (h : d.Alike d') (hsw : d'.sw = d.sw) (hdir : d'.dir = d.dir) (hlink : d'.link = d.link)
    (hsvc : d'.svc = d.svc) (hout : d.out <+: d'.out) (hretirement : d'.flt.retirement = d.flt.retirement)
    (hdies : d'.flt.diesOut = d.flt.diesOut) (hhosts : d'.flt.hosts = d.flt.hosts) : d.Looked d' :=
  ⟨hsw, hdir, hlink, hsvc, hout, hretirement, hdies, hhosts, by rw [h.pool], by rw [h.pool], by rw [h.pool], h.hub, h.reg, h.blockEntry⟩

/-- What changes tables of the pool that no entry of the block map depends on, or rewrites rows that read as before. -/
theorem Dev.Looked.of_pool {d : Dev} {p : PoolState} (hmem : p.mem = d.pool.mem) (hdomains : p.domains = d.pool.domains)
    (hextents : p.extents = d.pool.extents) (ha : p.hubA = d.pool.hubA) (hb : p.hubB = d.pool.hubB)
    (hrows : ∀ b, ({ d with pool := p } : Dev).blockEntry b = d.blockEntry b) : d.Looked { d with pool := p } :=
  ⟨rfl, rfl, rfl, rfl, List.prefix_rfl, rfl, rfl, rfl, hmem, hdomains, hextents, Dev.hub_congr rfl ha hb, fun _ _ => rfl, hrows⟩

theorem Dev.looked_count (d : Dev) (u ev n : Nat) : d.Looked (d.count u ev n) :=
  .of_alike (d.alike_count u ev n) (by simp) (by simp) (by simp) (by simp) (by simp) (by simp) (by simp) (by simp)

theorem Dev.looked_report (d : Dev) (src cls detail : Nat) : d.Looked (d.report src cls detail) :=
  .of_alike ⟨by simp, fun r hr => d.reg_report src cls detail r hr⟩ (by simp) (by simp) (by simp) (by simp) (by simp) (by simp) (by simp)
    (by simp)

theorem Dev.looked_choose {α : Type} (d : Dev) (l : List α) : d.Looked (d.choose l).2 :=
  .of_alike ⟨by simp, fun r _ => d.reg_choose l r⟩ (by simp) (by simp) (by simp) (by simp) (by simp) (by simp) (by simp) (by simp)

theorem Dev.looked_wake (d : Dev) (i : Nat) : d.Looked (d.wake i) :=
  .of_alike ⟨by simp, fun r _ => d.reg_wake i r⟩ (by simp) (by simp) (by simp) (by simp) (by simp) (by simp) (by simp) (by simp)

theorem Dev.looked_wakeQuarters (d : Dev) (i : Nat) : d.Looked (d.wakeQuarters i) := (d.looked_wake _).trans (Dev.looked_wake _ _)

/-! ### The host slot table -/

/-- The slot table and the slot caches change. -/
theorem Dev.looked_slots (d : Dev) (c : Table (Nat × Nat) SlotEntry) (slots : Copies SlotEntry) :
    d.Looked { d with pool := { d.pool with slotCache := c, slots := slots } } :=
  .of_pool rfl rfl rfl rfl rfl (Dev.blockEntry_congr rfl rfl rfl rfl rfl)

theorem Dev.looked_countInvalidation (d : Dev) : d.Looked d.countInvalidation :=
  .foldl (fun d t => d.looked_count t 0x300C 1) (List.range 16) d

theorem Dev.looked_invalidateSlot (d : Dev) (i : Nat) : d.Looked (d.invalidateSlot i) := by
  unfold Dev.invalidateSlot
  exact (d.looked_slots _ d.pool.slots).trans (Dev.looked_countInvalidation _)

theorem Dev.looked_writeSlot (d : Dev) (i : Nat) (e : SlotEntry) : d.Looked (d.writeSlot i e) := by
  unfold Dev.writeSlot
  exact ((d.looked_wakeQuarters i).trans (Dev.looked_slots _ _ _)).trans (Dev.looked_count _ _ _ _)

/-- A read of a row looks up where what it repairs does. -/
theorem readRow_looked {β : Type} {d : Dev} {i : Nat} {a b : β} {ok : β → Bool} {put : Dev → β → Dev}
    (hput : d.hubLost (quarters i).1 = false → d.hubLost (quarters i).2 = false → ok b = true → d.checkedRow i a b ok = some b →
      d.Looked (put d b)) :
    d.Looked (readRow d i a b ok put).2 ∧ (readRow d i a b ok put).1 = d.checkedRow i a b ok := by
  unfold Dev.checkedRow at hput ⊢
  unfold readRow
  dsimp only
  split
  · exact ⟨.refl d, rfl⟩
  · rename_i ha
    split
    · rename_i hb
      split
      · exact ⟨.refl d, rfl⟩
      · rename_i hlost
        simp only [Bool.and_eq_true, Bool.not_eq_true'] at hb
        refine ⟨(hput (by simpa using hlost) hb.1 hb.2 ?_).trans (Dev.looked_report _ _ _ _), rfl⟩
        rw [if_neg ha, if_pos (by simp [hb])]
    · refine ⟨?_, rfl⟩
      dsimp only
      split
      · exact d.looked_report _ _ _
      split
      · exact d.looked_report _ _ _
      · exact (d.looked_report _ _ _).trans (Dev.looked_report _ _ _ _)

/-- The slot entry that a read of the table gives. -/
def Dev.slotRow (d : Dev) (i : Nat) : Option SlotEntry :=
  d.checkedRow i (tgetD d.pool.slots.a i slotDefault) (tgetD d.pool.slots.b i slotDefault) SlotEntry.ok

theorem Dev.looked_readSlot (d : Dev) (i : Nat) : d.Looked (d.readSlot i).2 ∧ (d.readSlot i).1 = d.slotRow i := by
  have h := readRow_looked (d := d) (i := i) (a := tgetD d.pool.slots.a i slotDefault) (b := tgetD d.pool.slots.b i slotDefault)
    (ok := SlotEntry.ok) (put := fun d e => d.writeSlot i e) fun _ _ _ _ => d.looked_writeSlot i _
  unfold Dev.readSlot Dev.slotRow
  split <;> rename_i heq <;> rw [heq] at h
  · exact h
  · exact ⟨(h.1.trans (Dev.looked_writeSlot _ _ _)).trans (Dev.looked_invalidateSlot _ _), h.2⟩

theorem Dev.looked_makeRoom {β : Type} (d : Dev) (m : Table (Nat × Nat) β) (who bound : Nat) : d.Looked (d.makeRoom m who bound).2 := by
  have hchoose := fun l : List ((Nat × Nat) × β) => d.looked_choose l
  unfold Dev.makeRoom
  dsimp only
  split
  · exact .refl d
  · split <;> rename_i heq
    all_goals
      have h := hchoose (m.filter fun e => decide (e.1.1 = who))
      rwa [heq] at h

/-- The slot entry that port p's lookup gives: the cached one that checks, or the table's. -/
def Dev.slotFor (d : Dev) (p i : Nat) : Option SlotEntry :=
  match tget d.pool.slotCache (p, i) with
  | some e => if e.ok then some e else d.slotRow i
  | none => d.slotRow i

theorem Dev.slotRow_congr {d d' : Dev} (h : d'.pool.slots = d.pool.slots) (hretired : d'.reg .retireStatus = d.reg .retireStatus) (i : Nat) :
    d'.slotRow i = d.slotRow i := by
  simp only [Dev.slotRow, Dev.checkedRow, Dev.hubLost_congr hretired, h]

/-- A slot cache takes an entry from the table. -/
def Dev.fillSlot (d : Dev) (p i : Nat) : Option SlotEntry × Dev :=
  match d.readSlot i with
  | (none, d) => (none, d)
  | (some e, d) =>
    let (m, d) := d.makeRoom d.pool.slotCache p 2048
    (some e, { d with pool := { d.pool with slotCache := tset m (p, i) e } })

theorem Dev.looked_fillSlot (d : Dev) (p i : Nat) : d.Looked (d.fillSlot p i).2 ∧ (d.fillSlot p i).1 = d.slotRow i := by
  obtain ⟨hread, hrow⟩ := d.looked_readSlot i
  unfold Dev.fillSlot
  split <;> rename_i heq <;> rw [heq] at hread hrow
  · exact ⟨hread, hrow⟩
  · exact ⟨(hread.trans (Dev.looked_makeRoom _ _ _ _)).trans (Dev.looked_slots _ _ _), hrow⟩

theorem Dev.lookupSlot_hit {d : Dev} {p i : Nat} {e : SlotEntry} (h : tget d.pool.slotCache (p, i) = some e) :
    d.lookupSlot p i = if e.ok then (some e, d.count (p / 4) (0x3000 + p % 4) 1)
      else (({ d with pool := { d.pool with slotCache := tdel d.pool.slotCache (p, i) } }).report (16 * (p / 4) + 2) 4 i).fillSlot p i := by
  unfold Dev.lookupSlot Dev.fillSlot
  rw [h] <;> rfl

theorem Dev.lookupSlot_miss {d : Dev} {p i : Nat} (h : tget d.pool.slotCache (p, i) = none) :
    d.lookupSlot p i = (d.count (p / 4) (0x3004 + p % 4) 1).fillSlot p i := by
  unfold Dev.lookupSlot Dev.fillSlot
  rw [h] <;> rfl

theorem Dev.looked_lookupSlot (d : Dev) (p i : Nat) : d.Looked (d.lookupSlot p i).2 ∧ (d.lookupSlot p i).1 = d.slotFor p i := by
  have hfill : ∀ x : Dev, d.Looked x → x.pool.slots = d.pool.slots →
      d.Looked (x.fillSlot p i).2 ∧ (x.fillSlot p i).1 = d.slotRow i := fun x hx hslots =>
    ⟨hx.trans (x.looked_fillSlot p i).1, (x.looked_fillSlot p i).2.trans (Dev.slotRow_congr hslots (hx.reg _ rfl) i)⟩
  unfold Dev.slotFor
  cases hcached : tget d.pool.slotCache (p, i) with
  | none =>
    rw [Dev.lookupSlot_miss hcached]
    exact hfill _ (d.looked_count _ _ _) (by simp)
  | some e =>
    rw [Dev.lookupSlot_hit hcached]
    dsimp only
    split
    · exact ⟨d.looked_count _ _ _, rfl⟩
    · exact hfill _ ((d.looked_slots _ d.pool.slots).trans (Dev.looked_report _ _ _ _)) (by simp)

/-! ### Translation -/

/-- What the translation of a device address answers. -/
def Dev.translated (d : Dev) (p dpa : Nat) : Option (Nat × Nat) :=
  match tget d.pool.windows p with
  | none => none
  | some (base, r0, r1) =>
    if r0 + r1 ≤ dpa / 2 ^ 26 then none
    else ((d.slotFor p (base + dpa / 2 ^ 26)).filter (·.valid)).map fun e =>
      (e.block.toNat * 2 ^ 20 + dpa % 2 ^ 26 / 64, e.domain.toNat)

theorem Dev.looked_translate (d : Dev) (p dpa : Nat) : d.Looked (d.translate p dpa).2 ∧ (d.translate p dpa).1 = d.translated p dpa := by
  unfold Dev.translate Dev.translated
  cases tget d.pool.windows p with
  | none => exact ⟨.refl d, rfl⟩
  | some w =>
    obtain ⟨base, r0, r1⟩ := w
    obtain ⟨hlook, hslot⟩ := d.looked_lookupSlot p (base + dpa / 2 ^ 26)
    dsimp only
    by_cases hout : r0 + r1 ≤ dpa / 2 ^ 26
    · rw [if_pos hout, if_pos hout]
      exact ⟨.refl d, rfl⟩
    · rw [if_neg hout, if_neg hout, ← hslot]
      rcases hfound : d.lookupSlot p (base + dpa / 2 ^ 26) with ⟨_ | e, d'⟩ <;> rw [hfound] at hlook
      · exact ⟨hlook, rfl⟩
      · cases hvalid : e.valid
        · exact ⟨by simpa [hvalid] using hlook, by simp [Option.filter, hvalid]⟩
        · exact ⟨by simpa [hvalid] using hlook, by simp [Option.filter, hvalid]⟩

/-- The answer of a translation depends on the pool's tables and on the hub quarters in service. -/
theorem Dev.Alike.translated {d d' : Dev} (h : d.Alike d') (p dpa : Nat) : d'.translated p dpa = d.translated p dpa := by
  simp only [Dev.translated, Dev.slotFor, Dev.slotRow_congr (congrArg (·.slots) h.pool) (h.reg _ rfl), h.pool]

theorem Dev.looked_refuseTranslation (d : Dev) (t detail : Nat) : d.Looked (d.refuseTranslation t detail) :=
  (d.looked_count _ _ _).trans (Dev.looked_report _ _ _ _)

theorem Dev.Looked.takeCells {d d' : Dev} (h : d.Looked d') (e : Entity) (c : MsgClass) (k n : Nat) :
    d'.takeCells e c k n = d.takeCells e c k n :=
  (Dev.takeCells_congr (by rw [Dev.holding, Dev.holding, h.sw]) h.retirement.symm h.diesOut.symm (fun r hr => (h.reg r hr).symm) h.link.symm
    e c k n).symm

end Sys2Proof.Machine
end

section
/-! PROOFS. Requests of hosts on their way to a home slice or a port. -/

namespace Sys2Proof.Machine

/-! ### What entering the buffer leaves -/

theorem Dev.passShaper_frame (d : Dev) (p : Nat) :
    (d.passShaper p).2 = { d with sw := { d.sw with buckets := (d.passShaper p).2.sw.buckets } } := by
  unfold Dev.passShaper
  dsimp only
  split_ifs <;> rfl

theorem Dev.tag_sw_nextId (d : Dev) (m : Msg) : (d.tag m).2.sw.nextId = d.sw.nextId := by
  unfold Dev.tag Dev.tagCredit
  dsimp only
  split <;> rfl

theorem Dev.store_sw_nextId (d : Dev) (m : Msg) : (d.store m).sw.nextId = d.sw.nextId := by
  unfold Dev.store
  split
  · split <;> rfl
  · simp only [Dev.showCells, Dev.wr_sw, Dev.markHeads, Dev.tag_sw_nextId, Dev.useAside_sw]
    rfl

theorem sliceOf_lt (g : Nat) : sliceOf g < 16 := by
  unfold sliceOf foldSlice
  have hmod : ∀ n, n % 16 < 2 ^ 4 := fun n => Nat.mod_lt _ (by decide)
  exact Nat.xor_lt_two_pow (Nat.xor_lt_two_pow (Nat.xor_lt_two_pow (Nat.xor_lt_two_pow (Nat.xor_lt_two_pow (Nat.xor_lt_two_pow
    (Nat.xor_lt_two_pow (Nat.xor_lt_two_pow (hmod _) (hmod _)) (hmod _)) (hmod _)) (hmod _)) (hmod _)) (hmod _)) (hmod _)) (hmod _)

theorem Dev.mirrorTake_sw_linger (d : Dev) (s t : Nat) (m : Msg) (e : Bool) : (d.mirrorTake s t m e).sw.linger = d.sw.linger := by
  unfold Dev.mirrorTake; by_cases h : 256 ≤ (d.session s).queue.length <;> simp [h, Dev.mirrorDrop, Dev.setSession]

theorem Dev.mirror_holding (d : Dev) (t : Option Nat) (m : Msg) (e : Bool) : (d.mirror t m e).holding = d.holding := by
  have hlinger : (d.mirror t m e).sw.linger = d.sw.linger := by
    unfold Dev.mirror
    split
    · rfl
    · refine foldl_frame (fun d : Dev => d.sw.linger) _ _ (fun d s => ?_) d
      split
      · exact Dev.mirrorTake_sw_linger _ _ _ _ _
      · rfl
  rw [Dev.holding, Dev.holding, hlinger, Dev.mirror_sw_msgs]

/-- The mirror sessions see a message, and it takes its cells. -/
theorem Dev.mirror_store_fits {d : Dev} {t : Option Nat} {m : Msg} {sh : Nat}
    (h : d.takeCells m.entity m.cls m.credit m.cells = some sh) :
    ∃ q f1 f2 f3, ((d.mirror t m false).store m).sw.msgs =
      d.sw.msgs ++ [{ m with fromShared := sh, quarters := q, born := d.now, f1 := f1, f2 := f2, f3 := f3 }] := by
  have hcells : (d.mirror t m false).takeCells m.entity m.cls m.credit m.cells = some sh := by
    rw [← h]
    exact Dev.takeCells_congr (d.mirror_holding t m false) (by simp) (by simp) (fun r hr => d.reg_mirror t m false r hr) (by simp) _ _ _ _
  obtain ⟨q, f1, f2, f3, hmsgs⟩ := (d.mirror t m false).store_fits m hcells
  refine ⟨q, f1, f2, f3, ?_⟩
  rw [hmsgs, Dev.mirror_sw_msgs, Dev.now, d.reg_mirror t m false .ftime rfl]
  rfl

/-! ### Pool requests -/

/-- The counts of a host's request at its ingress. -/
def Dev.arrived (d : Dev) (p : Fin 64) (poisoned : Bool) : Dev :=
  let d := d.count (p.val / 4) (0x1000 + 4 * (p.val % 4)) 1
  if poisoned then d.count (p.val / 4) (0x6008 + p.val % 4) 1 else d

theorem Dev.looked_arrived (d : Dev) (p : Fin 64) (poisoned : Bool) : d.Looked (d.arrived p poisoned) := by
  unfold Dev.arrived
  split
  · exact (d.looked_count _ _ _).trans (Dev.looked_count _ _ _ _)
  · exact d.looked_count _ _ _

theorem Dev.alike_arrived (d : Dev) (p : Fin 64) (poisoned : Bool) : d.Alike (d.arrived p poisoned) := by
  unfold Dev.arrived
  split
  · exact (d.alike_count _ _ _).trans (Dev.alike_count _ _ _ _)
  · exact d.alike_count _ _ _

/-- The device once it has translated a host's request. -/
def Dev.resolved (d : Dev) (p : Fin 64) (dpa : Nat) (poisoned : Bool) : Dev := ((d.arrived p poisoned).translate p.val dpa).2

theorem Dev.looked_resolved (d : Dev) (p : Fin 64) (dpa : Nat) (poisoned : Bool) : d.Looked (d.resolved p dpa poisoned) :=
  (d.looked_arrived p poisoned).trans (Dev.looked_translate _ _ _).1

theorem Dev.translate_arrived (d : Dev) (p : Fin 64) (dpa : Nat) (poisoned : Bool) :
    (d.arrived p poisoned).translate p.val dpa = ((d.translate p.val dpa).1, d.resolved p dpa poisoned) := by
  refine Prod.ext ?_ rfl
  rw [(Dev.looked_translate _ _ _).2, (Dev.looked_translate _ _ _).2]
  exact (d.alike_arrived p poisoned).translated _ _

/-- The message that a host's bound request is. -/
def Dev.hostMsg (d : Dev) (p : Fin 64) (line dom : Nat) (op : HostOp) (txn : Nat) (poisoned : Bool) (colour : Option Bool) : Msg :=
  { id := d.sw.nextId, entity := .port p, cls := .req, cells := 1, fromShared := 0
    dest := .home ⟨sliceOf (granuleOf line) % 16, by omega⟩, destC := ~~~(BitVec.ofNat 8 (sliceOf (granuleOf line)))
    kind := if opWrites op then .hostMemWrite else .hostMemRead, txn := txn, born := d.now, domain := some (BitVec.ofNat 12 dom)
    paddr := some (line * 64), poison := poisoned, raw := [], credit := if opWrites op then 1 else 0, hostQueue := p.val, cost := 64
    green := colour.getD false, peakWaited := colour.isNone, held := colour.isNone, f1 := 0, f2 := 0
    quarters := 0, homeKind := some (hostKind op) }

/-- The device when a bound request is written to the buffer. -/
def Dev.shaped (d : Dev) (p : Fin 64) (dpa txn : Nat) (poisoned : Bool) : Option Bool × Dev :=
  ((d.resolved p dpa poisoned).takeEpoch (p.val / 4) (.host p) txn).passShaper p.val

theorem Dev.takeEpoch_frame (d : Dev) (tile : Nat) (a : Agent) (txn : Nat) :
    ∃ inflight, d.takeEpoch tile a txn = { d with pool := { d.pool with inflight := inflight } } := by
  unfold Dev.takeEpoch
  split
  · exact ⟨_, rfl⟩
  · exact ⟨_, rfl⟩

/-- A request that has been translated and shaped has written nothing to the buffer and read nothing. -/
structure Dev.Poised (d x : Dev) : Prop where
  msgs : x.sw.msgs = d.sw.msgs
  holding : x.holding = d.holding
  nextId : x.sw.nextId = d.sw.nextId
  mem : x.pool.mem = d.pool.mem
  dir : x.dir = d.dir
  cells : ∀ e c k n, x.takeCells e c k n = d.takeCells e c k n
  now : x.now = d.now

theorem Dev.poised_shaped (d : Dev) (p : Fin 64) (dpa txn : Nat) (poisoned : Bool) : d.Poised (d.shaped p dpa txn poisoned).2 := by
  have hlook := d.looked_resolved p dpa poisoned
  obtain ⟨inflight, hepoch⟩ := (d.resolved p dpa poisoned).takeEpoch_frame (p.val / 4) (.host p) txn
  unfold Dev.shaped
  rw [Dev.passShaper_frame, hepoch]
  generalize d.resolved p dpa poisoned = x at hlook
  have hholding : x.holding = d.holding := by rw [Dev.holding, Dev.holding, hlook.sw]
  refine ⟨congrArg (·.msgs) hlook.sw, hholding, congrArg (·.nextId) hlook.sw, hlook.mem, hlook.dir, fun e c k n => ?_,
    congrArg BitVec.toNat (hlook.reg .ftime rfl)⟩
  exact (Dev.takeCells_congr hholding.symm hlook.retirement.symm hlook.diesOut.symm (fun r hr => (hlook.reg r hr).symm) hlook.link.symm
    e c k n).symm

theorem Dev.poolIngress_bound {d : Dev} {p : Fin 64} {dpa line dom sh : Nat} {d1 : Dev} {op : HostOp} (hsafe : d.safe = false)
    (htranslate : d.translate p.val dpa = (some (line, dom), d1))
    (htake : d.takeCells (.port p) .req (if opWrites op then 1 else 0) 1 = some sh) (txn : Nat) (poisoned : Bool) :
    d.poolIngress p dpa op txn poisoned =
      let x := (d.shaped p dpa txn poisoned).2
      let m := x.hostMsg p line dom op txn poisoned (d.shaped p dpa txn poisoned).1
      (x.newId.2.mirror (some p.val) m false).store m := by
  have htrans := d.translate_arrived p dpa poisoned
  have hsafe' : (d.arrived p poisoned).safe = false := (d.alike_arrived p poisoned).safe.trans hsafe
  have htake' := ((d.looked_resolved p dpa poisoned).takeCells (.port p) .req (if opWrites op then 1 else 0) 1).trans htake
  rw [htranslate] at htrans
  unfold Dev.poolIngress
  change (if (d.arrived p poisoned).safe = true then (d.arrived p poisoned).noTranslation p op txn else
    match (d.arrived p poisoned).translate p.val dpa with
    | (none, x) => (x.refuseTranslation (p.val / 4) dpa).noTranslation p op txn
    | (some (line, dom), x) => _) = _
  rw [hsafe', htrans]
  simp only [htake', Option.isNone_some, Bool.false_eq_true, if_false]
  rfl

/-- A bound request takes one cell towards the home slice of its granule. -/
theorem Dev.poolIngress_enters {d : Dev} {p : Fin 64} {dpa line dom sh : Nat} {d1 : Dev} {op : HostOp} (hsafe : d.safe = false)
    (htranslate : d.translate p.val dpa = (some (line, dom), d1))
    (htake : d.takeCells (.port p) .req (if opWrites op then 1 else 0) 1 = some sh) (txn : Nat) (poisoned : Bool) :
    let t := (d.poolIngress p dpa op txn poisoned).shown
    (∃ m, t.sw.msgs = d.sw.msgs ++ [m] ∧ m.entity = .port p ∧ m.cls = .req ∧ m.cells = 1 ∧ m.fromShared = sh ∧
        (∃ h : sliceOf (granuleOf line) < 16, m.dest = .home ⟨sliceOf (granuleOf line), h⟩) ∧
        m.kind = (if opWrites op then .hostMemWrite else .hostMemRead) ∧ m.txn = txn ∧ m.domain = some (BitVec.ofNat 12 dom) ∧
        m.homeKind = some (hostKind op) ∧ m.paddr = some (line * 64) ∧ m.poison = poisoned ∧ m.born = d.now) ∧
      t.pool.mem = d.pool.mem ∧ t.dir.ct = d.dir.ct ∧ t.sw.nextId = d.sw.nextId + 1 := by
  intro t
  have ht : t = _ := congrArg Dev.shown (Dev.poolIngress_bound hsafe htranslate htake txn poisoned)
  have hpoised := d.poised_shaped p dpa txn poisoned
  dsimp only at ht
  generalize (d.shaped p dpa txn poisoned).1 = colour at ht
  generalize (d.shaped p dpa txn poisoned).2 = x at ht hpoised
  have hcells : x.newId.2.takeCells (.port p) .req (if opWrites op then 1 else 0) 1 = some sh := (hpoised.cells _ _ _ _).trans htake
  obtain ⟨q, f1, f2, f3, hmsgs⟩ := Dev.mirror_store_fits (t := some p.val) (m := x.hostMsg p line dom op txn poisoned colour) hcells
  refine ⟨⟨_, by rw [ht, Dev.shown_sw, hmsgs, ← hpoised.msgs]; rfl, rfl, rfl, rfl, rfl, ⟨sliceOf_lt _, ?_⟩, rfl, rfl, rfl, rfl, rfl, rfl,
    hpoised.now⟩, ?_, ?_, ?_⟩
  · simp only [Dev.hostMsg, Nat.mod_eq_of_lt (sliceOf_lt _)]
  · rw [ht, Dev.shown_pool, Dev.store_pool, Dev.mirror_pool]
    exact hpoised.mem
  · rw [ht, Dev.shown_dir, Dev.store_dir, Dev.mirror_dir]
    exact congrArg (·.ct) hpoised.dir
  · rw [ht, Dev.shown_sw, Dev.store_sw_nextId, Dev.mirror_sw_nextId, ← hpoised.nextId]
    rfl

/-! ### Requests that translate to nothing -/

/-- A message that the device writes is the only one that may enter the buffer. -/
theorem Dev.msgs_writeOut (d : Dev) (x : Msg) : ∀ m ∈ (d.writeOut x).sw.msgs, m ∈ d.sw.msgs ∨ m.dest = x.dest := by
  intro m hm
  unfold Dev.writeOut at hm
  split_ifs at hm
  · exact .inl (by rwa [foldl_frame (fun d : Dev => d.sw) _ _ (fun d o => Dev.emit_sw d o) d] at hm)
  · rcases d.newId.2.store_sw x with ⟨sh, q, f1, f2, f3, _, _, hmsgs⟩ | ⟨_, hmsgs, _⟩ | ⟨_, _, hsame⟩
    · rw [hmsgs] at hm
      rcases List.mem_append.1 hm with hm | hm
      · exact .inl hm
      · exact .inr (by rw [List.mem_singleton.1 hm])
    · exact .inl (by rwa [hmsgs] at hm)
    · exact .inl (by rwa [hsame] at hm)
  · exact .inl (by rw [Dev.emit_sw] at hm; exact hm)

theorem Dev.pool_respond (d : Dev) (p : Fin 64) (e : Entity) (data : Bool) (o : Out) : (d.respond p e data o).pool = d.pool :=
  (d.writeOut_frame _).1

theorem Dev.poolIngress_unbound {d : Dev} {p : Fin 64} {dpa : Nat} {d1 : Dev} (hsafe : d.safe = false)
    (htranslate : d.translate p.val dpa = (none, d1)) (op : HostOp) (txn : Nat) (poisoned : Bool) :
    d.poolIngress p dpa op txn poisoned = ((d.resolved p dpa poisoned).refuseTranslation (p.val / 4) dpa).noTranslation p op txn := by
  have htrans := d.translate_arrived p dpa poisoned
  have hsafe' : (d.arrived p poisoned).safe = false := (d.alike_arrived p poisoned).safe.trans hsafe
  rw [htranslate] at htrans
  unfold Dev.poolIngress
  change (if (d.arrived p poisoned).safe = true then (d.arrived p poisoned).noTranslation p op txn else
    match (d.arrived p poisoned).translate p.val dpa with
    | (none, x) => (x.refuseTranslation (p.val / 4) dpa).noTranslation p op txn
    | (some (line, dom), x) => _) = _
  rw [hsafe', htrans]
  rfl

/-- A host port in ACTIVE takes messages where the device is not in the safe state. -/
theorem Dev.reaches_active {d : Dev} {p : Fin 64} (hmode : d.portMode p = 1) (hstate : d.portState p = 5) (hsafe : d.safe = false) :
    d.reaches p := by
  refine ⟨hsafe, ?_⟩
  simp [Dev.takesMessages, Dev.boundActive, hmode, hstate, hsafe]

theorem Dev.poolIngress_answers {d : Dev} {p : Fin 64} {dpa : Nat} {d1 : Dev} (hreach : d.reaches p)
    (htranslate : d.translate p.val dpa = (none, d1)) (op : HostOp) (txn : Nat) (poisoned : Bool) :
    let t := (d.poolIngress p dpa op txn poisoned).shown
    t.queued (.port p) (if opWrites op then .memDone (.host p) txn 0 else .memData (.host p) txn 0 true 0) ∧
      (∀ m ∈ t.sw.msgs, m ∈ d.sw.msgs ∨ m.dest = .port p) ∧ t.pool.mem = d.pool.mem := by
  intro t
  have hlook := (d.looked_resolved p dpa poisoned).trans ((d.resolved p dpa poisoned).looked_refuseTranslation (p.val / 4) dpa)
  have ht : t = _ := congrArg Dev.shown (Dev.poolIngress_unbound hreach.1 htranslate op txn poisoned)
  have hreach' := Dev.reaches_congr (fun r hr => hlook.reg r (Reg.side_of_steady hr)) hreach
  generalize (d.resolved p dpa poisoned).refuseTranslation (p.val / 4) dpa = x at ht hlook hreach'
  unfold Dev.noTranslation at ht
  refine ⟨?_, fun m hm => ?_, ?_⟩
  · rw [ht]
    exact Dev.queued_shown (Dev.queued_respond hreach'.1 hreach'.2 (.inl ⟨_, rfl⟩) _ _)
  · rw [ht, Dev.shown_sw] at hm
    rw [← hlook.sw]
    exact x.msgs_writeOut _ m hm
  · rw [ht, Dev.shown_pool, Dev.pool_respond, hlook.mem]

/-! ### Requests past the pool -/

/-- The message that a request for a device below a vPPB is. -/
def Dev.passMsg (d : Dev) (host p : Fin 64) (kind : MsgKind) (credit length txn : Nat) : Msg :=
  { id := d.sw.nextId, entity := .port host, cls := .req, cells := ceilDiv length 128, fromShared := 0, dest := .port p
    destC := ~~~(BitVec.ofNat 8 p.val), kind := kind, txn := txn, born := d.now, domain := none, paddr := none
    poison := false, raw := [], credit := credit, hostQueue := host.val, cost := length, green := true
    peakWaited := false, held := false, f1 := 0, f2 := 0, quarters := 0 }

/-- The device once a pass-through request is in the buffer. -/
def Dev.passIn (d : Dev) (host p : Fin 64) (kind : MsgKind) (credit length txn : Nat) : Dev :=
  ((d.newId.2.count (host.val / 4) (0x1000 + 4 * (host.val % 4)) 1).mirror (some host.val) (d.passMsg host p kind credit length txn)
    false).store (d.passMsg host p kind credit length txn)

theorem exec_passThroughRequest_bound {host p : Fin 64} {s : State} (hmode : s.dev.portMode host = 1) (hstate : s.dev.portState host = 5)
    (hpass : s.dev.portMode p = 3 ∧ s.dev.rd (.prtCfg p) 17 12 = host.val ∧ 4 ≤ s.dev.portState p ∧ s.dev.portState p ≤ 6)
    (kind : MsgKind) (credit length txn : Nat) :
    exec (.passThroughRequest host p kind credit length txn) s = .next (s.onto (s.dev.passIn host p kind credit length txn)) := by
  refine exec_onto (exec_passThroughRequest host p kind credit length txn s) ?_
  rw [if_neg (by simp [hmode, hstate]), if_pos hpass]
  rfl

theorem Dev.passIn_enters {d : Dev} {host : Fin 64} {credit length sh : Nat}
    (htake : d.takeCells (.port host) .req credit (ceilDiv length 128) = some sh) (p : Fin 64) (kind : MsgKind) (txn : Nat) :
    let t := (d.passIn host p kind credit length txn).shown
    (∃ m, t.sw.msgs = d.sw.msgs ++ [m] ∧ m.entity = .port host ∧ m.cls = .req ∧ m.cells = ceilDiv length 128 ∧ m.dest = .port p ∧
        m.kind = kind ∧ m.txn = txn ∧ m.credit = credit ∧ m.cost = length ∧ m.hostQueue = host.val ∧ m.paddr = none) ∧
      t.pool = d.pool ∧ t.dir = d.dir := by
  intro t
  have hcells : (d.newId.2.count (host.val / 4) (0x1000 + 4 * (host.val % 4)) 1).takeCells (.port host) .req credit
      (ceilDiv length 128) = some sh := ((d.newId.2.looked_count _ _ _).takeCells _ _ _ _).trans htake
  obtain ⟨q, f1, f2, f3, hmsgs⟩ :=
    Dev.mirror_store_fits (t := some host.val) (m := d.passMsg host p kind credit length txn) hcells
  rw [Dev.count_sw] at hmsgs
  refine ⟨⟨_, (congrArg (·.msgs) (Dev.shown_sw (d.passIn host p kind credit length txn))).trans hmsgs, rfl, rfl, rfl, rfl, rfl, rfl,
    rfl, rfl, rfl, rfl⟩, ?_, ?_⟩
  · simp [t, Dev.passIn]
  · simp [t, Dev.passIn]

/-! ### DIR_BI_TIMEOUT -/

/-- A write of one field of one register, as the end of its command leaves the device. -/
theorem Dev.wr_shown (d : Dev) {r : Reg} {hi lo : Nat} (n : Nat) (hfield : r.holds hi lo = true) (hshow : r.show = false) :
    (d.wr r hi lo n).shown.rd r hi lo = n % 2 ^ (hi + 1 - lo) ∧ d.onlyRegs (d.wr r hi lo n).shown ∧
      ∀ r' : Reg, r' ≠ r → r'.show = false → (d.wr r hi lo n).shown.reg r' = d.reg r' := by
  refine ⟨?_, ?_, fun r' hne hs => ?_⟩
  · rw [Dev.rd_shown _ _ _ _ hshow, Dev.rd_wr_same _ _ hfield]
  · unfold Dev.onlyRegs
    simp
  · rw [Dev.reg_shown _ _ hs, Dev.reg_wr_ne _ _ _ _ hne]

/-- Settles O23: a request's message is read off the one store that its ingress ends in, which finds the cells that the state had
before the lookups; an unbound one ends in the response, and a register write is one field's. -/
theorem requestsEnterTowardsTheirHome : Obligations.RequestsEnterTowardsTheirHome := by
  unfold Obligations.RequestsEnterTowardsTheirHome
  refine ⟨?bound, ?unbound, ?pass, fun kind req s hremote hcoherent => exec_onto (exec_proxyForwardRead kind req s) ?forward, ?set, ?ignore⟩
  case bound =>
    intro p dpa op txn data mask poisoned line dom sh d1 s hmode hstate hsafe htranslate htake
    exact yields_of_eq (exec_onto (exec_poolRequestIngress p dpa op txn data mask poisoned s) (if_pos ⟨hmode, hstate⟩))
      (Dev.poolIngress_enters hsafe htranslate htake txn poisoned)
  case unbound =>
    intro p dpa op txn data mask poisoned d1 s hmode hstate hsafe htranslate
    exact yields_of_eq (exec_onto (exec_poolRequestIngress p dpa op txn data mask poisoned s) (if_pos ⟨hmode, hstate⟩))
      (Dev.poolIngress_answers (Dev.reaches_active hmode hstate hsafe) htranslate op txn poisoned)
  case pass =>
    intro host p kind credit length txn sh s hmode hstate hpass hhost hlow hhigh htake
    exact yields_of_eq (exec_passThroughRequest_bound hmode hstate ⟨hpass, hhost, hlow, hhigh⟩ kind credit length txn)
      (Dev.passIn_enters htake p kind txn)
  case forward =>
    simp [hremote, hcoherent]
  case set =>
    intro t v s hlow hhigh hage
    refine yields_of_eq (exec_onto (exec_dirBiTimeoutWrite t v s) (if_pos ⟨hlow, hhigh, hage⟩)) ?_
    obtain ⟨hfield, hrest⟩ := s.dev.wr_shown (r := .dirBiTimeout t.val) (hi := 19) (lo := 0) (v.toNat % 2 ^ 20) (by decide +revert) rfl
    exact ⟨hfield.trans (Nat.mod_mod _ _), hrest⟩
  case ignore =>
    intro t v s hout
    exact exec_onto (exec_dirBiTimeoutWrite t v s) (if_neg (by omega))

end Sys2Proof.Machine
end

section
/-! PROOFS. What an access that goes on at its home adds to the device, where directory entries may change. -/

namespace Sys2Proof.Machine

/-! ### Directory entries -/

theorem Dev.Adds.of_same {d d' : Dev} (hsw : d'.sw = d.sw) (hout : d.out <+: d'.out) : d.Adds d' :=
  ⟨fun e o h => by unfold Dev.queued; rwa [hsw], hout⟩

theorem Dev.Adds.ite {c : Prop} [Decidable c] {d a b : Dev} (ha : d.Adds a) (hb : d.Adds b) : d.Adds (if c then a else b) := by
  split
  · exact ha
  · exact hb

theorem Dev.adds_setEntry (d : Dev) (g : Nat) (e : DirEntry) : d.Adds (d.setEntry g e) := by
  unfold Dev.setEntry
  exact .of_same (Dev.sw_showSlice _ _) (by rw [Dev.out_showSlice])

theorem Dev.adds_dropEntry (d : Dev) (g : Nat) : d.Adds (d.dropEntry g) := by
  unfold Dev.dropEntry
  exact .of_same (Dev.sw_showSlice _ _) (by rw [Dev.out_showSlice])

theorem Dev.carries_touch (d : Dev) (g : Nat) : d.Carries (d.touch g) := .of_same rfl List.prefix_rfl rfl

theorem Dev.adds_addSharer (d : Dev) (g : Nat) (h : Holder) : d.Adds (d.addSharer g h) := by
  unfold Dev.addSharer
  split <;> exact d.adds_setEntry _ _

theorem Dev.adds_grantEntry (d : Dev) (g : Nat) (kind : ReqKind) (a : Agent) : d.Adds (d.grantEntry g kind a) := by
  have hadd : ∀ h, d.Adds ((d.addSharer g h).touch g) := fun h => (d.adds_addSharer g h).trans (Dev.carries_touch _ g).toAdds
  have hset : ∀ e, d.Adds ((d.setEntry g e).touch g) := fun e => (d.adds_setEntry g e).trans (Dev.carries_touch _ g).toAdds
  unfold Dev.grantEntry
  split
  · exact .refl d
  split
  · split
    · exact .ite (d.carries_touch g).toAdds (hadd _)
    · exact hadd _
  · exact hset _
  · exact hset _
  · exact .refl d

/-! ### A granule whose recalls are complete -/

theorem Dev.carries_turnAnswered (d : Dev) (g : Nat) (e : CtEntry) : d.Carries (d.turnAnswered g e) := by
  unfold Dev.turnAnswered
  exact .ite (d.carries_setCt g _) (d.carries_retire g)

theorem Dev.carries_release (l : List (Fin 16 × LineData)) (e : CtEntry) (g : Nat) (d : Dev) :
    d.Carries (l.foldl (fun d x => d.writeLine { e.req with line := BitVec.ofNat 40 (g * 16 + x.1.val), data := x.2 }
      (e.block * 2 ^ 20 + g * 16 % 2 ^ 20 + x.1.val) x.2 false e.green) d) :=
  .foldl (fun d _ => d.carries_writeLine _ _ _ _ _) l d

/-- The write of a granule whose recalls are complete is answered, logged and sent to memory. -/
theorem Dev.carries_writeProceeds (d : Dev) (g : Nat) (e : CtEntry) :
    d.Carries (((((d.replyDone e.req (d.lastWaitOf e.req) e.peakWaited).dirtyLog e.req.agent e.req.line.toNat).setCt g
      { e with state := .write, done := true }).writeLine e.req e.real e.req.data e.req.poisoned e.green).settle g) :=
  ((((d.sends_replyDone _ _ _).carries.trans (Dev.carries_dirtyLog _ _ _)).trans (Dev.carries_setCt _ g _)).trans
    (Dev.carries_writeLine _ _ _ _ _ _)).trans (Dev.carries_settle _ g)

theorem Dev.adds_proceed (d : Dev) (g : Nat) : d.Adds (d.proceed g) := by
  unfold Dev.proceed
  split
  · exact .refl d
  rename_i e _
  split
  · exact (d.carries_writeProceeds g e).toAdds
  · exact (((d.sends_replyDone _ _ _).carries.trans (Dev.carries_dirtyLog _ _ _)).trans (Dev.carries_readLine _ g)).toAdds
  · have hserved := ((d.adds_grantEntry g .takeX e.req.agent).trans (Dev.sends_replyDone _ e.req 0 false).toAdds).trans
      (Dev.carries_readServed _ g).toAdds
    exact .ite (hserved.trans (Dev.carries_retire _ g).toAdds) hserved
  · refine ((d.carries_release e.lines e g).toAdds.trans ?_).trans
      ((Dev.carries_setCt _ g _).trans (Dev.carries_settle _ g)).toAdds
    exact .ite (Dev.adds_dropEntry _ g) (.refl _)
  · exact (d.carries_turnAnswered g e).toAdds
  · exact (d.carries_retire g).toAdds
  · exact (d.adds_dropEntry g).trans (Dev.carries_retire _ g).toAdds
  · exact (d.carries_setCt g _).toAdds
  · dsimp only
    have hgrant : d.Adds (if e.coherent then d.grantEntry g e.kind e.req.agent else d) := .ite (d.adds_grantEntry g _ _) (.refl d)
    refine hgrant.trans ?_
    generalize (if e.coherent then d.grantEntry g e.kind e.req.agent else d) = x
    split
    · exact ((Dev.sends_replyData _ _ _ _ _ _ _).carries.trans (Dev.carries_readServed _ g)).toAdds
    · exact (Dev.carries_readLine _ g).toAdds

theorem Dev.sends_freshTag (d : Dev) : d.Sends d.freshTag.2 := .of_same rfl List.prefix_rfl rfl

theorem Dev.sends_releaseGrant (d : Dev) (g : Nat) : d.Sends (d.releaseGrant g) := by
  unfold Dev.releaseGrant
  exact d.sends_freshTag.trans (Dev.sends_postOrDrop _ _)

theorem Dev.carries_proxyLeft (d : Dev) (g : Nat) : d.Carries (d.proxyLeft g) := by
  unfold Dev.proxyLeft
  refine .ite ?_ (.refl d)
  have hleft : d.Carries { d with dir := { d.dir with grantE := d.dir.grantE.filter fun x => !decide (x = g) } } :=
    .of_same rfl List.prefix_rfl rfl
  exact hleft.trans (Dev.sends_releaseGrant _ g).carries

theorem Dev.carries_forward {d d' : Dev} {kind : ReqKind} {req : HomeReq} {b : BlockEntry} {reply : Bool}
    (h : d.forward kind req b reply = some d') : d.Carries d' := by
  unfold Dev.forward at h
  obtain ⟨x, hpost, rfl⟩ := Option.map_eq_some_iff.1 h
  refine (Dev.sends_postFrom hpost).carries.trans (Dev.Carries.trans ?_ (Dev.sends_count _ _ _ _).carries)
  exact .of_same rfl List.prefix_rfl rfl

theorem Dev.sends_replyFailed (d : Dev) (kind : ReqKind) (req : HomeReq) : d.Sends (d.replyFailed kind req) := by
  unfold Dev.replyFailed
  split
  · dsimp only
    split
    · exact d.sends_replyData _ _ _ _ _ _
    · exact (d.sends_replyDone _ _ _).trans (Dev.sends_report _ _ _ _)
  · exact d.sends_emit _

theorem Dev.adds_proxyProceed (d : Dev) (g : Nat) : d.Adds (d.proxyProceed g) := by
  unfold Dev.proxyProceed
  split
  · exact .refl d
  refine .ite (.refl d) (.ite ?_ (.ite ?_ ?_))
  · exact ((d.carries_proxyLeft g).trans (Dev.carries_retire _ g)).toAdds
  · exact (d.adds_dropEntry g).trans (Dev.carries_retire _ g).toAdds
  · dsimp only
    split
    · rename_i hforward
      exact ((Dev.carries_forward hforward).trans (Dev.carries_setCt _ g _)).toAdds
    · exact (((d.sends_noRoute _).trans (Dev.sends_replyFailed _ _ _)).carries.trans (Dev.carries_retire _ g)).toAdds

theorem Dev.adds_advance (d : Dev) (g : Nat) : d.Adds (d.advance g) := by
  unfold Dev.advance
  split
  · exact .ite (.ite (d.adds_proxyProceed g) (d.adds_proceed g)) (.refl d)
  · exact .refl d

/-! ### Accesses that end -/

theorem Dev.carries_dropOp (d : Dev) (op : Nat) : d.Carries (d.dropOp op) := .of_same rfl List.prefix_rfl rfl

theorem Dev.carries_memWrite (d : Dev) (port addr : Nat) (v : Stored) : d.Carries (d.memWrite port addr v) := .of_same rfl List.prefix_rfl rfl

theorem Dev.carries_readEnds (d : Dev) (o : ExpOp) (status : ReadStatus) : d.Carries (d.readEnds o status) := by
  unfold Dev.readEnds
  dsimp only
  refine (d.carries_dropOp o.op).trans ?_
  split
  · exact Dev.carries_readArrived _ _ _ _ _
  split
  · have hcount := ((d.dropOp o.op).sends_count (o.port / 4) (0x6008 + o.port % 4) (if status = .error then 0 else 1)).carries
    refine hcount.trans ?_
    generalize (d.dropOp o.op).count (o.port / 4) (0x6008 + o.port % 4) (if status = .error then 0 else 1) = x
    refine .ite ?_ (.ite ?_ ?_)
    · split
      · exact Dev.carries_sendExp _ _ _ _ _ _ _ _ _
      · exact .refl _
    · exact (Dev.carries_lineLost _ _ _).trans (Dev.carries_readArrived _ _ _ _ _)
    · exact Dev.carries_readArrived _ _ _ _ _
  · have hx := (d.dropOp o.op).carries_xtsDomain (d.blockEntry (blockOfLine o.real.toNat)) o.real.toNat
    split <;> rename_i heq <;> rw [heq] at hx
    · exact hx.trans (Dev.carries_readArrived _ _ _ _ _)
    · refine hx.trans ((Dev.carries_decrypt _ _ _ _).trans ((Dev.sends_count _ _ _ _).carries.trans
        (Dev.Carries.trans (.ite ?_ (.refl _)) (Dev.carries_readArrived _ _ _ _ _))))
      refine Dev.Carries.trans ?_ (Dev.sends_report _ _ _ _).carries
      split
      · exact Dev.carries_memWrite _ _ _ _
      · exact .refl _

/-- The accesses of a failed write's line as its failure leaves them. -/
def Dev.failedOver (d : Dev) (o : ExpOp) : Dev :=
  { d with dir := { d.dir with expOps := (d.dir.expOps.filter fun (x : ExpOp) => !decide (x.op = o.op)).map fun (x : ExpOp) =>
    if x.line = o.line ∧ x.what.isSome then { x with fallback := true } else x } }

theorem Dev.carries_failedOver (d : Dev) (o : ExpOp) : d.Carries (d.failedOver o) := .of_same rfl List.prefix_rfl rfl

theorem Dev.writeFails_eq (d : Dev) (o : ExpOp) : d.writeFails o =
    match (d.failedOver o).place ((d.failedOver o).blockEntry (blockOfLine o.real.toNat)) o.real.toNat with
    | none => d.failedOver o
    | some p =>
      if p.mirr.isNone || o.fallback then (d.failedOver o).lineLost o.line.toNat o.real.toNat
      else if o.what = some .poison then d.failedOver o
      else (d.failedOver o).markRepair p o.copy (granuleOf o.real.toNat) := rfl

theorem Dev.carries_writeFails (d : Dev) (o : ExpOp) : d.Carries (d.writeFails o) := by
  refine (d.carries_failedOver o).trans ?_
  rw [Dev.writeFails_eq]
  generalize d.failedOver o = x
  split
  · exact .refl x
  · exact .ite (x.carries_lineLost _ _) (.ite (.refl x) (x.carries_markRepair _ _ _))

theorem Dev.adds_failForwarded (d : Dev) (tag : Nat) : d.Adds (d.failForwarded tag) := by
  unfold Dev.failForwarded
  split
  · exact .refl d
  rename_i x _
  have hdel : d.Adds { d with dir := { d.dir with proxyOut := tdel d.dir.proxyOut tag } } := .of_same rfl List.prefix_rfl
  refine hdel.trans ?_
  dsimp only
  generalize ({ d with dir := { d.dir with proxyOut := tdel d.dir.proxyOut tag } } : Dev) = y
  have hreply : y.Adds (if x.reply then y.replyFailed x.kind x.req else y) := .ite (y.sends_replyFailed _ _).toAdds (.refl y)
  refine hreply.trans ?_
  generalize (if x.reply then y.replyFailed x.kind x.req else y) = z
  exact .ite ((z.carries_endTxn _ _).toAdds.trans (Dev.adds_advance _ _)) (z.carries_retire _).toAdds

/-- What Table SW-6 completes for a discarded message only adds to what is sent. -/
theorem Dev.out_completeDiscarded_any (d : Dev) (m : Msg) : d.out <+: (d.completeDiscarded m).out := by
  have hrest := d.out_completeDiscarded m
  cases hk : m.kind with
  | homeRead op =>
    simp only [Dev.completeDiscarded, hk]
    split
    · exact (d.carries_readEnds _ _).out
    · exact List.prefix_rfl
  | homeWrite op =>
    simp only [Dev.completeDiscarded, hk]
    split
    · exact ((d.carries_writeFails _).trans (Dev.carries_settle _ _)).out
    · exact List.prefix_rfl
  | other =>
    simp only [Dev.completeDiscarded, hk]
    split
    · exact (Dev.Adds.ite (d.adds_failForwarded _) (.refl d)).out
    · exact List.prefix_rfl
  | _ => exact hrest (by simp [hk]) (by simp [hk])

end Sys2Proof.Machine
end

section
/-! PROOFS. Messages that enter the buffer, are granted, grow old or are shaped, and the hub quarters that hold them. -/

namespace Sys2Proof.Machine

/-! ### Entering -/

/-- The class tag that a message gets where the buffer holds what it holds (R120). -/
def Dev.firstTag (d : Dev) (m : Msg) : Nat :=
  finishTag (tgetD d.sw.vtime (m.dest, 0) 0) (tgetD d.sw.flast (m.dest, 0, classCode m.cls) 0) m.cost (d.classWeight m.dest m.cls)

theorem Dev.tag_f1 (d : Dev) (m : Msg) : (d.tag m).1.f1 = d.firstTag m := by
  unfold Dev.tag Dev.tagCredit
  dsimp only
  split <;> rfl

theorem Dev.classWeight_congr {d d' : Dev} (h : ∀ r : Reg, r.side = false → d'.reg r = d.reg r) (e : Egress) (c : MsgClass) :
    d'.classWeight e c = d.classWeight e c := by
  have hrd : ∀ hi lo, d'.rd (weightReg e) hi lo = d.rd (weightReg e) hi lo := fun hi lo => Dev.rd_eq_of_reg (h _ (by cases e <;> rfl)) hi lo
  unfold Dev.classWeight
  simp only [hrd]

theorem Dev.firstTag_congr {d d' : Dev} (hvtime : d'.sw.vtime = d.sw.vtime) (hflast : d'.sw.flast = d.sw.flast)
    (hreg : ∀ r : Reg, r.side = false → d'.reg r = d.reg r) (m : Msg) : d'.firstTag m = d.firstTag m := by
  unfold Dev.firstTag
  rw [hvtime, hflast, Dev.classWeight_congr hreg]

/-- A message for which there is room is stored with the class tag of its egress. -/
theorem Dev.store_fits_tagged (d : Dev) (m : Msg) {sh : Nat} (h : d.takeCells m.entity m.cls m.credit m.cells = some sh) :
    ∃ x, (d.store m).sw.msgs = d.sw.msgs ++ [x] ∧ x.f1 = d.firstTag m ∧
      ∃ q f1 f2 f3, x = { m with fromShared := sh, quarters := q, born := d.now, f1 := f1, f2 := f2, f3 := f3 } := by
  unfold Dev.store
  rw [h]
  dsimp only
  generalize hx : ({ m with fromShared := sh, quarters := d.pickQuarters.1, born := d.pickQuarters.2.now } : Msg) = x
  generalize hd : d.pickQuarters.2.useAside m.entity m.cls sh = d'
  have hsw : d'.sw = d.sw := by rw [← hd, Dev.useAside_sw, Dev.pickQuarters_sw]
  have hreg : ∀ r, d'.reg r = d.reg r := fun r => by rw [← hd, Dev.reg_useAside]; rfl
  obtain ⟨⟨f1, f2, f3, hmsg⟩, hmsgs⟩ := d'.tag_msg x
  refine ⟨(d'.tag x).1, ?_, ?_, d.pickQuarters.1, f1, f2, f3, ?_⟩
  · simp only [Dev.showCells, Dev.wr_sw, Dev.markHeads]
    rw [hmsgs, hsw]
  · rw [Dev.tag_f1, Dev.firstTag_congr (congrArg (·.vtime) hsw) (congrArg (·.flast) hsw) fun r _ => hreg r, ← hx]
    rfl
  · rw [hmsg, ← hx]
    rfl

/-- The device as a message of an entity finds it at the buffer: counted, with its number, seen by the mirror sessions. -/
def Dev.heard (d : Dev) (entity : Entity) (cls : MsgClass) (txn : Nat) (m : Msg) : Dev :=
  ((d.countIngress entity cls).passAnswered entity cls txn).newId.2.mirror (tapOfEntity entity) m false

theorem Dev.reg_heard (d : Dev) (entity : Entity) (cls : MsgClass) (txn : Nat) (m : Msg) (r : Reg) (hr : r.side = false) :
    (d.heard entity cls txn m).reg r = d.reg r := by
  simp [Dev.heard, Dev.reg_mirror, Dev.reg_countIngress, hr]

theorem Dev.takeCells_heard (d : Dev) (entity : Entity) (cls : MsgClass) (txn : Nat) (m : Msg) (e : Entity) (c : MsgClass) (k n : Nat) :
    (d.heard entity cls txn m).takeCells e c k n = d.takeCells e c k n := by
  refine (Dev.takeCells_congr ?_ (by simp [Dev.heard, Dev.newId]) (by simp [Dev.heard, Dev.newId])
    (fun r hr => (d.reg_heard entity cls txn m r hr).symm) (by simp [Dev.heard, Dev.newId]) e c k n).symm
  rw [Dev.heard, Dev.mirror_holding]
  simp [Dev.holding, Dev.newId]

/-- What an accepted message is. -/
def Dev.taken (d : Dev) (entity : Entity) (dest : Egress) (cls : MsgClass) (kind : MsgKind) (credit txn length cost : Nat) (raw : List Byte) :
    Msg :=
  ((d.countIngress entity cls).passAnswered entity cls txn).ingressMsg entity dest cls kind credit txn length cost raw

theorem exec_ingressMessage_crosses {entity : Entity} {dest : Egress} {s : State} (hsends : s.dev.sends entity = true)
    (hcross : s.dev.mayCross entity dest = true) (cls : MsgClass) (kind : MsgKind) (credit txn length cost : Nat) (raw : List Byte) :
    exec (.ingressMessage entity dest cls kind credit txn length cost raw) s =
      let m := s.dev.taken entity dest cls kind credit txn length cost raw
      let d := s.dev.heard entity cls txn m
      .next (s.onto (if s.dev.takesMessages dest then d.store m else (d.emit (.discarded m.id)).completeDiscarded m)) := by
  refine exec_onto (exec_ingressMessage entity dest cls kind credit txn length cost raw s) ?_
  rw [if_neg (by simp [hsends, hcross])]
  generalize hm : s.dev.taken entity dest cls kind credit txn length cost raw = m
  rw [← Dev.takesMessages_congr (fun r hr => s.dev.reg_heard entity cls txn m r (Reg.side_of_steady hr)) dest, ← hm]
  rfl

theorem Dev.id_taken (d : Dev) (entity : Entity) (dest : Egress) (cls : MsgClass) (kind : MsgKind) (credit txn length cost : Nat)
    (raw : List Byte) : (d.taken entity dest cls kind credit txn length cost raw).id = d.sw.nextId := by
  simp [Dev.taken, Dev.ingressMsg]

theorem Dev.taken_enters {d : Dev} {entity : Entity} {cls : MsgClass} {credit length sh : Nat}
    (htake : d.takeCells entity cls credit (ceilDiv length 128) = some sh) (dest : Egress) (kind : MsgKind) (txn cost : Nat)
    (raw : List Byte) :
    let m := d.taken entity dest cls kind credit txn length cost raw
    let t := ((d.heard entity cls txn m).store m).shown
    (∃ m, t.sw.msgs = d.sw.msgs ++ [m] ∧ m.id = d.sw.nextId ∧ m.entity = entity ∧ m.dest = dest ∧
        m.destC = ~~~(BitVec.ofNat 8 (egressNumber dest)) ∧ m.cls = cls ∧ m.cells = ceilDiv length 128 ∧ m.fromShared = sh ∧ m.kind = kind ∧
        m.txn = txn ∧ m.credit = credit ∧ m.raw = raw ∧ m.cost = cost ∧ m.born = d.now ∧
        m.f1 = finishTag (tgetD d.sw.vtime (dest, 0) 0) (tgetD d.sw.flast (dest, 0, classCode cls) 0) cost (d.classWeight dest cls)) ∧
      t.sw.nextId = d.sw.nextId + 1 ∧ t.pool = d.pool ∧ t.dir = d.dir ∧ t.rd .bufStatus 18 0 = (t.cellsIn - t.cellsUsed) % 2 ^ 19 := by
  intro m t
  have hcells : (d.heard entity cls txn m).takeCells m.entity m.cls m.credit m.cells = some sh := (d.takeCells_heard _ _ _ _ _ _ _ _).trans htake
  obtain ⟨x, hmsgs, htag, q, f1, f2, f3, hx⟩ := (d.heard entity cls txn m).store_fits_tagged m hcells
  have hold : (d.heard entity cls txn m).sw.msgs = d.sw.msgs := by simp [Dev.heard, Dev.newId]
  subst hx
  refine ⟨⟨{ m with fromShared := sh, quarters := q, born := (d.heard entity cls txn m).now, f1 := f1, f2 := f2, f3 := f3 }, ?_,
    d.id_taken entity dest cls kind credit txn length cost raw, rfl, rfl, rfl, rfl, rfl, rfl, rfl, rfl, rfl, rfl, rfl,
    congrArg BitVec.toNat (d.reg_heard entity cls txn m .ftime rfl), ?_⟩, ?_, ?_, ?_, (Dev.statusTrue_shown _).2.2.1⟩
  · rw [Dev.shown_sw, hmsgs, hold]
  · rw [htag]
    exact Dev.firstTag_congr (by simp [Dev.heard, Dev.newId]) (by simp [Dev.heard, Dev.newId]) (d.reg_heard entity cls txn m) m
  · rw [Dev.shown_sw, Dev.store_sw_nextId]
    simp [Dev.heard, Dev.newId]
  · simp [t, Dev.heard]
  · simp [t, Dev.heard]

/-! ### A port's only message -/

/-- The queues of a port that holds one message hold that message, in its class. -/
theorem Dev.eligible_single {d : Dev} {e : Egress} {m : Msg} (hmsgs : d.sw.msgs = [m]) (hdest : m.dest = e) {credits : List (Fin 4 × Nat)}
    (hcredit : (⟨classCode m.cls % 4, by omega⟩, m.credit) ∈ credits) (c : MsgClass) :
    d.eligible e credits c = if m.cls = c then [m] else [] := by
  have hheads : d.heads e c = if m.cls = c then [m] else [] := by
    unfold Dev.heads
    rw [hmsgs]
    by_cases hc : m.cls = c <;> simp [hdest, hc]
  have hfollow : d.mustFollow m = false := by
    simp [Dev.mustFollow, hmsgs]
  have hmatch : ∃ a : Fin 4, (a, m.credit) ∈ credits ∧ a.val = classCode m.cls :=
    ⟨_, hcredit, Nat.mod_eq_of_lt (by cases m.cls <;> decide)⟩
  unfold Dev.eligible
  rw [hheads]
  by_cases hc : m.cls = c
  · subst hc
    rw [if_pos rfl, List.filter_cons_of_pos (by simpa [hfollow] using hmatch)]
    by_cases hpool : d.poolEgress e = true ∧ m.cls = .req
    · cases hgreen : m.green <;> simp [hpool, bestOf, hgreen]
    · simp [hpool]
  · simp [hc]

theorem Dev.winner_single {d : Dev} {e : Egress} {m : Msg} (hmsgs : d.sw.msgs = [m]) (hdest : m.dest = e) {credits : List (Fin 4 × Nat)}
    (hcredit : (⟨classCode m.cls % 4, by omega⟩, m.credit) ∈ credits) (hgate : d.gateAllows e m.cls = true) :
    d.winner e (d.contenders e credits) = some (m.cls, m) := by
  have hone : d.contenders e credits = [(m.cls, m)] := by
    unfold Dev.contenders classes
    simp only [Dev.eligible_single hmsgs hdest hcredit]
    cases hc : m.cls <;> simp [hc ▸ hgate, Dev.smallest]
  rw [hone]
  rfl

theorem Dev.classTag_single {d : Dev} {e : Egress} {m : Msg} (hmsgs : d.sw.msgs = [m]) (hdest : m.dest = e) : d.classTag e m.cls = m.f1 := by
  simp [Dev.classTag, hmsgs, hdest, List.min?]

theorem Dev.queueTag_single {d : Dev} {m : Msg} (hmsgs : d.sw.msgs = [m]) : d.queueTag m = m.f2 := by
  simp [Dev.queueTag, hmsgs, List.min?]

/-- With no message waiting for room and no quarter about to leave, freed cells change FREE_CELLS alone. -/
theorem Dev.cellsFreed_idle {d : Dev} (hblocked : d.sw.blocked = []) (hleaving : d.sw.leaving = none) : d.cellsFreed = d.showCells := by
  have hquarter : d.quarterLeaves = d := by
    unfold Dev.quarterLeaves
    rw [hleaving]
  have hsame : ({ d.showCells with sw := { d.showCells.sw with blocked := [] } } : Dev) = d.showCells := by
    have h : d.showCells.sw.blocked = [] := by rw [Dev.showCells, Dev.wr_sw, hblocked]
    rw [← h]
  have hwaiting : d.showCells.sw.blocked = [] := by rw [Dev.showCells, Dev.wr_sw, hblocked]
  rw [Dev.cellsFreed, hquarter, Dev.admitBlocked, hwaiting, hsame]
  rfl

theorem Dev.unstore_idle {d : Dev} (hblocked : d.sw.blocked = []) (hleaving : d.sw.leaving = none) (id : Nat) :
    (d.unstore id).sw.msgs = d.sw.msgs.filter (fun m => !decide (m.id = id)) ∧ (d.unstore id).sw.vtime = d.sw.vtime := by
  unfold Dev.unstore
  dsimp only
  split
  · rename_i hnone
    refine ⟨(List.filter_eq_self.2 fun m hm => ?_).symm, rfl⟩
    simpa using List.find?_eq_none.1 hnone m hm
  · rw [Dev.cellsFreed_idle]
    · simp only [Dev.showCells, Dev.wr_sw, Dev.markHeads]
      split <;> simp
    · simp only [Dev.markHeads]
      split <;> simp [hblocked]
    · simp only [Dev.markHeads]
      split <;> simp [hleaving]

theorem Dev.out_foldl_emits (l : List Out) (d : Dev) : (l.foldl (fun d o => d.emit o) d).out = d.out ++ l := by
  induction l generalizing d with
  | nil => simp
  | cons o r ih => rw [List.foldl_cons, ih]; simp [Dev.emit]

theorem Dev.sendOut_sw {d : Dev} {m : Msg} (hkind : ∀ op, m.kind ≠ .homeRead op ∧ m.kind ≠ .homeWrite op) (p : Fin 64) :
    (d.sendOut (.port p) m).sw = d.sw ∧ .sent (.port p) m.id ∈ (d.sendOut (.port p) m).out ∧
      ∀ o ∈ m.sends, o ∈ (d.sendOut (.port p) m).out := by
  have hsent : ∀ x : Dev, x.sw = d.sw →
      let y := m.sends.foldl (fun d o => d.emit o) (x.emit (.sent (.port p) m.id))
      y.sw = d.sw ∧ .sent (.port p) m.id ∈ y.out ∧ ∀ o ∈ m.sends, o ∈ y.out := by
    intro x hx y
    have hout : y.out = (x.emit (.sent (.port p) m.id)).out ++ m.sends := Dev.out_foldl_emits _ _
    refine ⟨?_, ?_, fun o ho => ?_⟩
    · exact (foldl_frame (fun d : Dev => d.sw) _ _ (fun d o => Dev.emit_sw d o) _).trans hx
    · rw [hout]; exact List.mem_append_left _ (Dev.mem_emit _ _)
    · rw [hout]; exact List.mem_append_right _ ho
  unfold Dev.sendOut
  cases hk : m.kind with
  | homeRead op => exact absurd hk (hkind op).1
  | homeWrite op => exact absurd hk (hkind op).2
  | _ =>
    dsimp only
    cases m.entity with
    | port h =>
      refine hsent _ ?_
      dsimp only
      split <;> rfl
    | _ => exact hsent d rfl

/-- The virtual times of the egress and of the message's class move on to the message's tags. -/
theorem Dev.advanceTags_single {d : Dev} {e : Egress} {m : Msg} (hmsgs : d.sw.msgs = [m]) (hdest : m.dest = e) :
    (d.advanceTags e m.cls m).sw.msgs = [m] ∧ tgetD (d.advanceTags e m.cls m).sw.vtime (e, 0) 0 = m.f1 ∧
      tgetD (d.advanceTags e m.cls m).sw.vtime (e, subLevel m.cls) 0 = m.f2 := by
  have hhead := Dev.classTag_single hmsgs hdest
  have hmine := Dev.queueTag_single hmsgs
  have hsub : (e, (0 : Nat)) ≠ (e, subLevel m.cls) := by simp [subLevel]; omega
  have hlevel : ∀ q, (e, (0 : Nat)) ≠ (e, hostLevel q) ∧ (e, subLevel m.cls) ≠ (e, hostLevel q) := fun q => by
    have : classCode m.cls < 4 := by cases m.cls <;> decide
    exact ⟨by simp [hostLevel]; omega, by simp [subLevel, hostLevel]; omega⟩
  unfold Dev.advanceTags
  dsimp only
  rw [hmsgs, hhead, hmine]
  refine ⟨by simp, ?_, ?_⟩
  · split
    · rw [tgetD_tset_ne _ _ _ (hlevel _).1, tgetD_tset_ne _ _ _ hsub, tgetD_tset_same]
    · rw [tgetD_tset_ne _ _ _ hsub, tgetD_tset_same]
  · split
    · rw [tgetD_tset_ne _ _ _ (hlevel _).2, tgetD_tset_same]
    · rw [tgetD_tset_same]

/-- A grant of a message whose destination checks sends it, counts it and frees its cells. -/
theorem Dev.grantMsg_sends (d : Dev) {p : Fin 64} {m : Msg} (hdestC : m.destC = ~~~(BitVec.ofNat 8 p.val)) (c : MsgClass) :
    let y := ((d.advanceTags (.port p) c m).mirror (some p.val) m true).sendOut (.port p) m
    ∃ z : Dev, d.grantMsg (.port p) c m = z.unstore m.id ∧ z.sw = y.sw ∧ y.out <+: z.out := by
  intro y
  have hcount : ∀ x : Dev, (x.countEgress (.port p) 0x103C).sw = x.sw ∧ x.out <+: (x.countEgress (.port p) 0x103C).out := fun x => by
    simp [Dev.countEgress]
  have hcheck : ¬ m.destC ≠ ~~~(BitVec.ofNat 8 (egressNumber (.port p))) := not_not_intro hdestC
  unfold Dev.grantMsg
  dsimp only
  rw [if_neg hcheck]
  refine ⟨_, rfl, ?_, ?_⟩
  · split
    · rw [(hcount _).1, Dev.count_sw]; rfl
    · rw [Dev.count_sw]; rfl
  · split
    · exact List.IsPrefix.trans (by rw [Dev.count_out]; exact List.prefix_rfl) (hcount _).2
    · rw [Dev.count_out]; exact List.prefix_rfl

/-- A granted message of a port that holds nothing else leaves the buffer empty, with the virtual times moved on to its tags. -/
theorem Dev.grantMsg_single {d : Dev} {p : Fin 64} {m : Msg} (hmsgs : d.sw.msgs = [m]) (hdest : m.dest = .port p)
    (hdestC : m.destC = ~~~(BitVec.ofNat 8 p.val)) (hkind : ∀ op, m.kind ≠ .homeRead op ∧ m.kind ≠ .homeWrite op)
    (hblocked : d.sw.blocked = []) (hleaving : d.sw.leaving = none) :
    let t := (d.grantMsg (.port p) m.cls m).shown
    .sent (.port p) m.id ∈ t.out ∧ (∀ o ∈ m.sends, o ∈ t.out) ∧ t.sw.msgs = [] ∧ tgetD t.sw.vtime (.port p, 0) 0 = m.f1 ∧
      tgetD t.sw.vtime (.port p, subLevel m.cls) 0 = m.f2 := by
  intro t
  obtain ⟨hone, hclass, hqueue⟩ := Dev.advanceTags_single hmsgs hdest
  have hsame : (d.advanceTags (.port p) m.cls m).sw.blocked = [] ∧ (d.advanceTags (.port p) m.cls m).sw.leaving = none :=
    ⟨hblocked, hleaving⟩
  obtain ⟨z, hz, hsw, hout⟩ := d.grantMsg_sends hdestC m.cls
  have hmirror : ((d.advanceTags (.port p) m.cls m).mirror (some p.val) m true).sw.msgs = [m] := by rw [Dev.mirror_sw_msgs, hone]
  obtain ⟨hsend, hsent, hall⟩ := Dev.sendOut_sw (d := (d.advanceTags (.port p) m.cls m).mirror (some p.val) m true) hkind p
  rw [hsend] at hsw
  obtain ⟨hleft, hvtime⟩ := Dev.unstore_idle (d := z) (by rw [hsw, Dev.mirror_sw_blocked]; exact hblocked)
    (by rw [hsw, Dev.mirror_sw_leaving]; exact hleaving) m.id
  have hrest : z.out <+: t.out := by
    show z.out <+: (d.grantMsg (.port p) m.cls m).shown.out
    rw [hz]
    exact (z.out_unstore m.id).trans (Dev.out_shown _)
  have htsw : t.sw = (z.unstore m.id).sw := by
    show (d.grantMsg (.port p) m.cls m).shown.sw = _
    rw [Dev.shown_sw, hz]
  refine ⟨hrest.subset (hout.subset hsent), fun o ho => hrest.subset (hout.subset (hall o ho)), ?_, ?_, ?_⟩
  · rw [htsw, hleft, hsw, hmirror]
    simp
  · rw [htsw, hvtime, hsw, Dev.mirror_sw_vtime, hclass]
  · rw [htsw, hvtime, hsw, Dev.mirror_sw_vtime, hqueue]

/-! ### Age, shaping and naps -/

/-- A shaped request leaves its bucket with its colour. -/
def Dev.released (d : Dev) (id : Nat) (green : Bool) : Dev :=
  { d with sw := { d.sw with msgs := d.sw.msgs.map fun (x : Msg) => if x.id = id then { x with held := false, green := green } else x } }

theorem Dev.mem_discardCounted (d : Dev) {m : Msg} {a : Agent} (hkind : m.kind = .agentAccess a) :
    .discarded m.id ∈ (d.discardCounted m).shown.out ∧ .accessError a m.txn ∈ (d.discardCounted m).shown.out := by
  have hcomplete : ∀ x : Dev, x.completeDiscarded m = (x.emit (.accessError a m.txn)).endTxn a m.txn := fun x => by
    simp only [Dev.completeDiscarded, hkind]
  refine ⟨Dev.mem_shown ?_, Dev.mem_shown ?_⟩
  all_goals
    unfold Dev.discardCounted Dev.discardMsg
    rw [Dev.count_out, hcomplete]
  · exact (Dev.out_emit _ _).subset (Dev.mem_emit _ _)
  · exact Dev.mem_emit _ _

/-- A quarter is about to leave. -/
def Dev.leavingFrom (d : Dev) (q : Nat) : Dev := { d with sw := { d.sw with leaving := some q } }

/-- A quarter that nothing keeps begins to leave at once. -/
theorem exec_hubQuarterNap_leaves {q : Fin 4} {s : State} (hall : s.dev.quartersIn = 15) (hnone : s.dev.sw.leaving = none)
    (hfree : s.dev.holdsDescriptors q = false) (hawake : s.dev.domState (domHub q) ≤ 1) :
    exec (.hubQuarterNap q) s =
      .next (s.onto (s.dev.leavingFrom q.val).quarterLeaves.showCells) :=
  exec_onto (exec_hubQuarterNap q s) (if_pos ⟨hall, hnone, by simp [hfree], hawake⟩)

theorem Dev.quarterLeaves_holds {d : Dev} {q : Nat} (hleaving : d.sw.leaving = some q) (hheld : ∃ m ∈ d.holding, m.quarters.getLsbD q = true) :
    d.quarterLeaves = d := by
  unfold Dev.quarterLeaves
  rw [hleaving]
  exact if_pos (by simpa using hheld)

theorem Dev.quarterLeaves_empty {d : Dev} {q : Nat} (hleaving : d.sw.leaving = some q) (hempty : ∀ m ∈ d.holding, m.quarters.getLsbD q = false) :
    d.quarterLeaves = (({ d with sw := { d.sw with leaving := none, napping := some q } } : Dev).wr .bufStatus (28 + q) (28 + q) 0).setDomState
      (domHub q) 2 := by
  unfold Dev.quarterLeaves
  rw [hleaving]
  exact if_neg (by simpa using hempty)

/-- FREE_CELLS takes no other field of its register. -/
theorem Dev.rd_showCells_bufStatus (d : Dev) {hi lo : Nat} (h : (Reg.bufStatus).holds hi lo = true) (hlo : 18 < lo) :
    d.showCells.shown.rd .bufStatus hi lo = d.rd .bufStatus hi lo := by
  rw [Dev.rd_shown_bufStatus _ h hlo, Dev.showCells, Dev.rd_wr_field _ _ h (.inr hlo)]

theorem Dev.quarter_left (d : Dev) (q : Fin 4) :
    let x := ((({ d with sw := { d.sw with leaving := none, napping := some q.val } } : Dev).wr .bufStatus (28 + q.val) (28 + q.val)
      0).setDomState (domHub q) 2).showCells.shown
    x.bitOf .bufStatus (28 + q) = false ∧ x.domState (domHub q) = 2 := by
  have hfield : (Reg.bufStatus).holds (28 + q.val) (28 + q.val) = true := by
    fin_cases q <;> simp [Reg.holds, Reg.mask, Reg.layout, fieldMask]
  constructor
  · rw [Dev.bitOf, Dev.rd_showCells_bufStatus _ hfield (by omega), Dev.setDomState, Dev.rd_wr_ne _ _ _ _ _ _ (by simp), Dev.rd_wr_same _ _ hfield]
    simp
  · have hdom : (Reg.domStatus (domHub q)).holds 31 29 = true := by
      fin_cases q <;> simp [domHub, Reg.holds, Reg.mask, Reg.layout, fieldMask]
    rw [Dev.domState, Dev.rd_shown _ _ _ _ rfl, Dev.rd_showCells _ _ _ _ rfl, Dev.setDomState, Dev.rd_wr_same _ _ hdom]
    rfl

/-- Settles O25: the message that enters is the one that the store adds, its tag that of the buffer before it; a port's only message
wins every choice of its grant; and what naps, leaves, ages or is shaped is read off the one step that does it. -/
theorem messagesEnterAndLeaveTheBuffer : Obligations.MessagesEnterAndLeaveTheBuffer := by
  unfold Obligations.MessagesEnterAndLeaveTheBuffer
  refine ⟨?enter, ?discard, ?grant, ?single, fun id m s hfound => exec_onto (exec_ageDiscard id s) (by rw [hfound]), ?agent, ?limit,
    fun v s hout => exec_onto (exec_glbAgeLimitWrite v s) (if_neg (by omega)), ?release, ?busy, ?nap⟩
  case enter =>
    intro entity dest cls kind credit txn length cost raw sh s hsends hcross htakes hcells
    refine yields_of_eq ((exec_ingressMessage_crosses hsends hcross cls kind credit txn length cost raw).trans ?_)
      (Dev.taken_enters hcells dest kind txn cost raw)
    simp only [htakes, if_true]
  case discard =>
    intro entity dest cls kind credit txn length cost raw s hsends hcross htakes
    have hexec := exec_ingressMessage_crosses hsends hcross cls kind credit txn length cost raw
    simp only [htakes, Bool.false_eq_true, if_false] at hexec
    refine yields_of_eq hexec (Dev.mem_shown ((Dev.out_completeDiscarded_any _ _).subset ?_))
    rw [s.dev.id_taken]
    exact Dev.mem_emit _ _
  case grant =>
    intro egress credits c m s hhome hsafe d hwinner
    refine exec_onto (exec_egressGrant egress credits s) ?_
    cases egress with
    | home t => exact absurd rfl (hhome t)
    | port p => simp only [hsafe, Bool.false_eq_true, if_false]; rw [hwinner]
    | link l => simp only [hsafe, Bool.false_eq_true, if_false]; rw [hwinner]
  case single =>
    intro p credits m s hsafe hmsgs hdest hdestC hgate hcredit hkind hblocked hleaving
    have hheld : (classes.any fun c => s.dev.guarded (.port p) c && (s.dev.sw.msgs.any fun m => decide (m.dest = .port p ∧ m.cls = c))) =
        false := by
      rw [List.any_eq_false]
      intro c _ h
      obtain ⟨hguarded, hheads⟩ := Bool.and_eq_true_iff.1 h
      have hc : m.cls = c := by simpa [hmsgs, hdest] using hheads
      simp [Dev.guarded, ← hc, hgate] at hguarded
    have hexec : exec (.egressGrant (.port p) credits) s = .next (s.onto (s.dev.grantMsg (.port p) m.cls m)) := by
      refine exec_onto (exec_egressGrant (.port p) credits s) ?_
      simp only [hsafe, Bool.false_eq_true, if_false, hheld]
      rw [Dev.winner_single hmsgs hdest hcredit hgate]
    exact yields_of_eq hexec (Dev.grantMsg_single hmsgs hdest hdestC hkind hblocked hleaving)
  case agent =>
    intro id m a s hfound hold hkind
    have hid : m.id = id := by simpa using List.find?_some hfound
    have hexec : exec (.ageDiscard id) s = .next (s.onto (s.dev.discardCounted m)) :=
      exec_onto (exec_ageDiscard id s) (by rw [hfound]; exact if_pos hold)
    rw [← hid]
    exact yields_of_eq (hid ▸ hexec) (s.dev.mem_discardCounted hkind)
  case limit =>
    intro v s hlow hhigh htimeouts
    have hall : (List.range 16).all fun t => !(!bit (s.dev.rd .retireStatus 63 48) t && decide (s.dev.domState (domTmb t) ≠ 4) &&
        s.dev.logicUp t) || decide (v.toNat % 2 ^ 17 < s.dev.rd (.dirBiTimeout t) 19 0) :=
      List.all_eq_true.2 fun t ht => by
        rw [Bool.or_eq_true]
        exact .inr (decide_eq_true (htimeouts t (List.mem_range.1 ht)))
    refine yields_of_eq (exec_onto (exec_glbAgeLimitWrite v s) (if_pos ⟨hlow, hhigh, hall⟩)) ?_
    obtain ⟨hfield, hrest⟩ := s.dev.wr_shown (r := .ageLimit) (hi := 16) (lo := 0) (v.toNat % 2 ^ 17) (by decide) rfl
    exact ⟨hfield.trans (Nat.mod_mod _ _), hrest⟩
  case release =>
    intro id m p green d1 s hfound hentity hshaper
    have hframe := s.dev.passShaper_frame p
    rw [hshaper] at hframe
    have hexec : exec (.peakBucketRelease id) s = .next (s.onto (d1.released id green)) :=
      exec_onto (exec_peakBucketRelease id s) (by simp only [hfound, hentity, hshaper]; rfl)
    refine yields_of_eq hexec ?_
    simp only [Dev.shown_sw, Dev.shown_pool, Dev.shown_dir]
    have hd1 : d1 = { s.dev with sw := { s.dev.sw with buckets := d1.sw.buckets } } := hframe
    rw [hd1]
    exact ⟨rfl, rfl, rfl, rfl⟩
  case busy =>
    intro q s hall hnone hfree hawake hheld
    obtain ⟨m, hm, hquarter⟩ := hheld
    refine yields_of_eq (exec_hubQuarterNap_leaves hall hnone hfree hawake) ?_
    rw [Dev.quarterLeaves_holds (d := s.dev.leavingFrom q.val) rfl ⟨m, List.mem_append_left _ hm, hquarter⟩]
    refine ⟨by simp [Dev.showCells, Dev.leavingFrom], by simp [Dev.showCells, Dev.leavingFrom], ?_⟩
    rw [Dev.quartersIn, Dev.rd_showCells_bufStatus _ (by simp [Reg.holds, Reg.mask, Reg.layout, fieldMask]) (by decide)]
    exact hall
  case nap =>
    intro q s hall hnone hfree hawake hempty
    refine yields_of_eq (exec_hubQuarterNap_leaves hall hnone hfree hawake) ?_
    rw [Dev.quarterLeaves_empty (d := s.dev.leavingFrom q.val) rfl hempty]
    refine ⟨?_, ?_, ?_, s.dev.quarter_left q⟩
    all_goals simp [Dev.showCells, Dev.setDomState, Dev.leavingFrom]

end Sys2Proof.Machine
end

section
/-! PROOFS. What a home's lookups leave as it was: the block map, the set caches, and the outcome of an access at its home. -/

namespace Sys2Proof.Machine

/-! ### The block map -/

theorem Dev.looked_blockCache (d : Dev) (c : Table (Nat × Nat) BlockEntry) : d.Looked { d with pool := { d.pool with blockCache := c } } :=
  .of_pool rfl rfl rfl rfl rfl (Dev.blockEntry_congr rfl rfl rfl rfl rfl)

theorem Dev.looked_invalidateBlock (d : Dev) (b : Nat) : d.Looked (d.invalidateBlock b) := by
  unfold Dev.invalidateBlock
  exact (d.looked_blockCache _).trans (Dev.looked_countInvalidation _)

/-- The block map entry that a read of the table finds. -/
def Dev.blockRow (d : Dev) (b : Nat) : Option BlockEntry :=
  d.checkedRow b (tgetD d.pool.blocks.a b (d.blockDefault b)) (tgetD d.pool.blocks.b b (d.blockDefault b)) BlockEntry.ok

theorem Dev.blockEntry_eq (d : Dev) (b : Nat) : d.blockEntry b = (d.blockRow b).getD (d.lostBlock b) := rfl

/-- The two copies of a row after a write of it where they are in service. -/
def Dev.rowWritten (d : Dev) (b : Nat) (e : BlockEntry) : Copies BlockEntry :=
  { a := if d.hubLost (quarters b).1 then d.pool.blocks.a else tset d.pool.blocks.a b e
    b := if d.hubLost (quarters b).2 then d.pool.blocks.b else tset d.pool.blocks.b b e }

/-- The device with a row written to the copies in service. -/
def Dev.withRow (d : Dev) (b : Nat) (e : BlockEntry) : Dev := { d with pool := { d.pool with blocks := d.rowWritten b e } }

theorem Dev.ok_of_checkedRow {β : Type} {d : Dev} {i : Nat} {a b r : β} {ok : β → Bool} (h : d.checkedRow i a b ok = some r) :
    ok r = true ∧ (d.hubLost (quarters i).1 = false ∨ d.hubLost (quarters i).2 = false) := by
  unfold Dev.checkedRow at h
  split at h
  · rename_i ha
    cases h
    simp only [Bool.and_eq_true, Bool.not_eq_true'] at ha
    exact ⟨ha.2, .inl ha.1⟩
  · split at h
    · rename_i hb
      cases h
      simp only [Bool.and_eq_true, Bool.not_eq_true'] at hb
      exact ⟨hb.2, .inr hb.1⟩
    · cases h

theorem Dev.blockEntry_withRow_eq (d : Dev) (b x : Nat) (e : BlockEntry) : (d.withRow b e).blockEntry x =
    (d.checkedRow x (tgetD (d.rowWritten b e).a x (d.blockDefault x)) (tgetD (d.rowWritten b e).b x (d.blockDefault x)) BlockEntry.ok).getD
      (d.lostBlock x) := rfl

/-- A row that both copies in service hold reads as that row, unless it does not check. -/
theorem Dev.checkedRow_written (d : Dev) (i : Nat) (a b e : BlockEntry) :
    (d.checkedRow i (if d.hubLost (quarters i).1 then a else e) (if d.hubLost (quarters i).2 then b else e) BlockEntry.ok) =
      if e.ok && !(d.hubLost (quarters i).1 && d.hubLost (quarters i).2) then some e else none := by
  unfold Dev.checkedRow
  cases d.hubLost (quarters i).1 <;> cases d.hubLost (quarters i).2 <;> cases hok : e.ok <;> simp [hok]

/-- Writing back what a row reads as changes no entry. -/
theorem Dev.blockEntry_withRow (d : Dev) (b x : Nat) : (d.withRow b (d.blockEntry b)).blockEntry x = d.blockEntry x := by
  rw [Dev.blockEntry_withRow_eq]
  by_cases hx : x = b
  · subst hx
    have hcopies : ∀ (lost : Bool) (t : Table Nat BlockEntry), tgetD (if lost then t else tset t x (d.blockEntry x)) x (d.blockDefault x) =
        if lost then tgetD t x (d.blockDefault x) else d.blockEntry x := fun lost t => by cases lost <;> simp
    unfold Dev.rowWritten
    rw [hcopies, hcopies, Dev.checkedRow_written]
    split
    · rfl
    · rename_i hbad
      have hnone : d.blockRow x = none := by
        by_contra hsome
        obtain ⟨r, hr⟩ := Option.ne_none_iff_exists'.1 hsome
        obtain ⟨hok, hserved⟩ := Dev.ok_of_checkedRow hr
        have hentry : d.blockEntry x = r := by rw [Dev.blockEntry_eq, hr]; rfl
        rw [hentry, hok] at hbad
        rcases hserved with h | h <;> simp [h] at hbad
      have hentry : d.blockEntry x = d.lostBlock x := by rw [Dev.blockEntry_eq, hnone]; rfl
      exact hentry.symm
  · have hcopies : ∀ (lost : Bool) (t : Table Nat BlockEntry), tgetD (if lost then t else tset t b (d.blockEntry b)) x (d.blockDefault x) =
        tgetD t x (d.blockDefault x) := fun lost t => by
      cases lost
      · exact tgetD_tset_ne _ _ _ hx
      · rfl
    unfold Dev.rowWritten
    rw [hcopies, hcopies]
    rfl

theorem Dev.looked_withRow (d : Dev) (b : Nat) : d.Looked (d.withRow b (d.blockEntry b)) :=
  .of_pool rfl rfl rfl rfl rfl (d.blockEntry_withRow b)

/-- A write of a row that writes back what it reads as. -/
theorem Dev.looked_writeBlock (d : Dev) (b : Nat) {e : BlockEntry} (h : e = d.blockEntry b) : d.Looked (d.writeBlock b e) := by
  have hwake := d.looked_wakeQuarters b
  rw [h, ← hwake.rows b]
  exact (hwake.trans (Dev.looked_withRow _ b)).trans (Dev.looked_count _ _ _ _)

theorem Dev.looked_readBlock (d : Dev) (b : Nat) : d.Looked (d.readBlock b).2 := by
  have h := readRow_looked (d := d) (i := b) (a := tgetD d.pool.blocks.a b (d.blockDefault b)) (b := tgetD d.pool.blocks.b b (d.blockDefault b))
    (ok := BlockEntry.ok) (put := fun d e => d.writeBlock b e) fun _ _ _ hrow => d.looked_writeBlock b (by
      rw [Dev.blockEntry_eq, Dev.blockRow, hrow]; rfl)
  unfold Dev.readBlock
  dsimp only
  split <;> rename_i heq <;> rw [heq] at h
  · exact h.1
  · obtain ⟨hlook, hnone⟩ := h
    refine (hlook.trans (Dev.looked_writeBlock _ b ?_)).trans (Dev.looked_invalidateBlock _ _)
    rw [hlook.rows, Dev.lostBlock_congr hlook.hub hlook.domains hlook.extents]
    rw [Dev.blockEntry_eq, Dev.blockRow, ← hnone]
    rfl

/-! ### The caches of a home slice -/

/-- A block cache takes an entry from the table. -/
def Dev.fillBlock (d : Dev) (t b : Nat) : Option BlockEntry × Dev :=
  match d.readBlock b with
  | (none, d) => (none, d)
  | (some e, d) =>
    let (m, d) := d.makeRoom d.pool.blockCache t 8192
    (some e, { d with pool := { d.pool with blockCache := tset m (t, b) e } })

theorem Dev.looked_fillBlock (d : Dev) (t b : Nat) : d.Looked (d.fillBlock t b).2 := by
  have hread := d.looked_readBlock b
  unfold Dev.fillBlock
  split <;> rename_i heq <;> rw [heq] at hread
  · exact hread
  · exact (hread.trans (Dev.looked_makeRoom _ _ _ _)).trans (Dev.looked_blockCache _ _)

theorem Dev.lookupBlock_hit {d : Dev} {t b : Nat} {e : BlockEntry} (h : tget d.pool.blockCache (t, b) = some e) :
    d.lookupBlock t b = if e.ok then (some e, d.count t 0x3008 1)
      else (({ d with pool := { d.pool with blockCache := tdel d.pool.blockCache (t, b) } }).report (16 * t + 4) 4 b).fillBlock t b := by
  unfold Dev.lookupBlock Dev.fillBlock
  rw [h] <;> rfl

theorem Dev.lookupBlock_miss {d : Dev} {t b : Nat} (h : tget d.pool.blockCache (t, b) = none) :
    d.lookupBlock t b = (d.count t 0x3009 1).fillBlock t b := by
  unfold Dev.lookupBlock Dev.fillBlock
  rw [h] <;> rfl

theorem Dev.looked_lookupBlock (d : Dev) (t b : Nat) : d.Looked (d.lookupBlock t b).2 := by
  cases hcached : tget d.pool.blockCache (t, b) with
  | none =>
    rw [Dev.lookupBlock_miss hcached]
    exact (d.looked_count _ _ _).trans (Dev.looked_fillBlock _ _ _)
  | some e =>
    rw [Dev.lookupBlock_hit hcached]
    split
    · exact d.looked_count _ _ _
    · exact ((d.looked_blockCache _).trans (Dev.looked_report _ _ _ _)).trans (Dev.looked_fillBlock _ _ _)

theorem Dev.looked_setCache (d : Dev) (c : Table (Nat × Nat) SetDesc) : d.Looked { d with pool := { d.pool with setCache := c } } :=
  .of_pool rfl rfl rfl rfl rfl (Dev.blockEntry_congr rfl rfl rfl rfl rfl)

theorem Dev.looked_fillSet (d : Dev) (t i : Nat) : d.Looked (d.fillSet t i) := by
  unfold Dev.fillSet
  split
  · exact (d.looked_makeRoom _ _ _).trans (Dev.looked_setCache _ _)
  · exact .refl d

/-! ### The outcome at the home -/

theorem Dev.looked_takeEpoch (d : Dev) (tile : Nat) (a : Agent) (txn : Nat) : d.Looked (d.takeEpoch tile a txn) := by
  unfold Dev.takeEpoch
  split
  · exact .refl d
  · exact .of_pool rfl rfl rfl rfl rfl (Dev.blockEntry_congr rfl rfl rfl rfl rfl)

/-- An access that its home serves has been looked up and no more. -/
theorem Dev.looked_homeOutcome {d d1 : Dev} {t : Nat} {q : HomeReq} {n : Needs} {checked mirror : Bool} {b : Nat} {e : BlockEntry}
    (h : d.homeOutcome t q n checked mirror = (.here b e, d1)) : d.Looked d1 := by
  have hlook := d.looked_lookupBlock t (blockOfLine q.line.toNat)
  unfold Dev.homeOutcome at h
  dsimp only at h
  split at h <;> rename_i heq <;> rw [heq] at hlook
  · simp at h
  have hset : ∀ {s : Served} {i : Nat} {x : Dev}, (s, x.fillSet t i) = (Served.here b e, d1) → d.Looked x → d.Looked d1 := fun hs hx => by
    have hd1 : Dev.fillSet _ t _ = d1 := congrArg Prod.snd hs
    rw [← hd1]
    exact hx.trans (Dev.looked_fillSet _ _ _)
  rcases ite_eq_iff.1 h with ⟨_, h⟩ | ⟨_, h⟩
  · simp at h
  rcases ite_eq_iff.1 h with ⟨_, h⟩ | ⟨_, h⟩
  · simp at h
  split at h
  · simp at h
  split at h
  · rcases ite_eq_iff.1 h with ⟨_, h⟩ | ⟨_, h⟩
    · simp at h
    · exact hset h hlook
  · rcases ite_eq_iff.1 h with ⟨_, h⟩ | ⟨_, h⟩
    · simp at h
    · exact hset h hlook
  · exact hset h hlook
  · simp at h

end Sys2Proof.Machine
end

section
/-! PROOFS. Requests that a home admits: where they are served, and what they leave in the directory. -/

namespace Sys2Proof.Machine

/-! ### Registers beside the buffer's and the slices' own -/

theorem Dev.reg_wr_steady (d : Dev) {r r' : Reg} (hi lo n : Nat) (h : r'.steady = true) (hr : r.steady = false) :
    (d.wr r hi lo n).reg r' = d.reg r' :=
  Dev.reg_wr_ne d hi lo n fun he => by rw [he, hr] at h; cases h

theorem Dev.steady_showCells (d : Dev) {r : Reg} (h : r.steady = true) : d.showCells.reg r = d.reg r := d.reg_wr_steady _ _ _ h rfl

theorem Dev.steady_showSlice (d : Dev) (t : Nat) {r : Reg} (h : r.steady = true) : (d.showSlice t).reg r = d.reg r := by
  unfold Dev.showSlice
  dsimp only
  rw [Dev.reg_wr_steady _ _ _ _ h rfl, Dev.reg_wr_steady _ _ _ _ h rfl, Dev.reg_wr_steady _ _ _ _ h rfl, Dev.reg_wr_steady _ _ _ _ h rfl]

theorem Dev.steady_store (d : Dev) (m : Msg) {r : Reg} (h : r.steady = true) : (d.store m).reg r = d.reg r := by
  unfold Dev.store
  split
  · split <;> rfl
  · dsimp only
    rw [Dev.steady_showCells _ h, Dev.reg_markHeads]
    simp

theorem Dev.steady_quarterLeaves (d : Dev) {r : Reg} (h : r.steady = true) : d.quarterLeaves.reg r = d.reg r := by
  unfold Dev.quarterLeaves
  split
  · split
    · rfl
    · rw [Dev.setDomState, Dev.reg_wr_steady _ _ _ _ h rfl, Dev.reg_wr_steady _ _ _ _ h rfl]
      rfl
  · rfl

theorem Dev.steady_admitBlocked (d : Dev) {r : Reg} (h : r.steady = true) : d.admitBlocked.reg r = d.reg r := by
  unfold Dev.admitBlocked
  exact foldl_frame (fun d : Dev => d.reg r) _ _ (fun d m => d.steady_store m h) _

theorem Dev.steady_unstore (d : Dev) (id : Nat) {r : Reg} (h : r.steady = true) : (d.unstore id).reg r = d.reg r := by
  unfold Dev.unstore
  dsimp only
  split
  · rfl
  · rw [Dev.cellsFreed, Dev.steady_admitBlocked _ h, Dev.steady_showCells _ h, Dev.steady_quarterLeaves _ h, Dev.reg_markHeads]
    split <;> simp

/-! ### Admission -/

theorem Dev.mayTake_of_busy {d : Dev} {req : HomeReq} (h : d.busy (granuleOf req.line.toNat) = true) : d.mayTake req false = false := by
  simp [Dev.mayTake, h]

/-- A home that examines a request retries one that it may not take. -/
theorem Dev.arrive_retried {d : Dev} {kind : ReqKind} {req : HomeReq} (h : d.examines kind req) (hbusy : d.mayTake req false = false) :
    d.arrive kind req false =
      (d.takeEpoch (sliceOf (granuleOf req.line.toNat)) req.agent req.txn).retry (d.kindOf kind req) req [] := by
  obtain ⟨hsafe, hready, hheld, hreserved, holder, _⟩ := h
  unfold Dev.arrive
  simp [hsafe, hready, hheld, hreserved, holder, hbusy]

/-- A request that its home admits is served at its block. -/
theorem Dev.arrive_here {d d1 : Dev} {kind : ReqKind} {req : HomeReq} {b : Nat} {e : BlockEntry} (h : d.admits kind req)
    (hout : d.outcomeOf kind req = (.here b e, d1)) :
    d.arrive kind req false = d1.serve (d.effectiveKind kind req) req b (e.coherent && !d1.mirrorCopy req.agent) false false := by
  obtain ⟨⟨hsafe, hready, hheld, hreserved, holder, _⟩, htake⟩ := h
  unfold Dev.outcomeOf at hout
  unfold Dev.arrive
  simp [hsafe, hready, hheld, hreserved, holder, htake, hout]

/-- A request that its home admits goes on to its home device. -/
theorem Dev.arrive_forward {d d1 : Dev} {kind : ReqKind} {req : HomeReq} {e : BlockEntry} (h : d.admits kind req)
    (hout : d.outcomeOf kind req = (.forward e, d1)) :
    d.arrive kind req false =
      d1.serve (d.effectiveKind kind req) req (blockOfGranule (granuleOf req.line.toNat)) e.coherent true false := by
  obtain ⟨⟨hsafe, hready, hheld, hreserved, holder, _⟩, htake⟩ := h
  unfold Dev.outcomeOf at hout
  unfold Dev.arrive
  simp [hsafe, hready, hheld, hreserved, holder, htake, hout]

/-- A write of one that neither owns the granule nor is under recall there is a request like any other. -/
theorem Dev.writeIn_examined {d : Dev} {kind : ReqKind} {req : HomeReq} (h : d.examines kind req) (hwrites : kind.writes = true) :
    d.writeIn kind req = d.arrive kind req false := by
  obtain ⟨hsafe, hready, hheld, _, _, howner⟩ := h
  unfold Dev.writeIn
  split
  · rfl
  · rename_i r hr
    obtain ⟨htrust, hforeign⟩ := howner hwrites r hr
    simp [hsafe, hready, hheld, htrust, hforeign]

/-- Each of the home's requests that is examined arrives. -/
theorem exec_home_arrives {kind : ReqKind} {c : Instr} {req : HomeReq} {s : State}
    (hc : (kind, c) ∈ [(.readShared, .homeReadShared req), (.readExclusive, .homeReadExclusive req), (.readCurrent, .homeReadCurrent req),
      (.write, .homeWrite req), (.partialWrite, .homePartialWrite req)]) (h : s.dev.examines kind req) {d' : Dev}
    (harrive : s.dev.arrive kind req false = d') : exec c s = .next (s.onto d') := by
  simp only [List.mem_cons, Prod.mk.injEq, List.not_mem_nil, or_false] at hc
  rcases hc with ⟨rfl, rfl⟩ | ⟨rfl, rfl⟩ | ⟨rfl, rfl⟩ | ⟨rfl, rfl⟩ | ⟨rfl, rfl⟩
  · exact exec_onto (exec_homeReadShared req s) harrive
  · exact exec_onto (exec_homeReadExclusive req s) harrive
  · exact exec_onto (exec_homeReadCurrent req s) harrive
  · exact exec_onto (exec_homeWrite req s) ((Dev.writeIn_examined h rfl).trans harrive)
  · exact exec_onto (exec_homePartialWrite req s) ((Dev.writeIn_examined h rfl).trans harrive)

/-! ### A granule that nothing tracks -/

/-- The conflict entry of a request whose granule nothing tracks: no recall is needed. -/
def Dev.freshEntry (d : Dev) (kind : ReqKind) (req : HomeReq) (block : Nat) : CtEntry :=
  let t := sliceOf (granuleOf req.line.toNat)
  let m := d.homeMsg t req (!kind.reads)
  { slice := t, state := .recall, general := d.generalFree t, group := groupOf req.agent, kind := kind, req := req, block := block
    coherent := true, remote := false, waits := [], snoop := .inv, answered := none
    resv := ((d.ctEntry (granuleOf req.line.toNat)).map (·.resv)).getD [], done := false, green := (m.map (·.green)).getD true
    peakWaited := (m.map (·.peakWaited)).getD false, epoch := BitVec.ofNat 2 d.acuEpoch }

/-- The device with such a request in its conflict table. -/
def Dev.entered (d : Dev) (kind : ReqKind) (req : HomeReq) (block : Nat) : Dev :=
  let g := granuleOf req.line.toNat
  ((((d.unretry (groupOf req.agent) (sliceOf g) req).leaveBuffer kind req).setCt g (d.freshEntry kind req block)).count (sliceOf g) 0x2005
    1).count (sliceOf g) 0x2000 1

theorem Dev.leaveBuffer_dir (d : Dev) (kind : ReqKind) (req : HomeReq) : (d.leaveBuffer kind req).dir = d.dir := by
  unfold Dev.leaveBuffer
  split
  · simp
  · rfl

theorem Dev.leaveBuffer_pool (d : Dev) (kind : ReqKind) (req : HomeReq) : (d.leaveBuffer kind req).pool = d.pool := by
  unfold Dev.leaveBuffer
  split
  · simp
  · rfl

theorem Dev.steady_leaveBuffer (d : Dev) (kind : ReqKind) (req : HomeReq) {r : Reg} (h : r.steady = true) :
    (d.leaveBuffer kind req).reg r = d.reg r := by
  unfold Dev.leaveBuffer
  split
  · exact d.steady_unstore _ h
  · rfl

theorem Dev.setCt_dir (d : Dev) (g : Nat) (e : CtEntry) : (d.setCt g e).dir = { d.dir with ct := tset d.dir.ct g e } := by
  unfold Dev.setCt
  exact Dev.dir_showSlice _ _

theorem Dev.setCt_pool (d : Dev) (g : Nat) (e : CtEntry) : (d.setCt g e).pool = d.pool := by
  unfold Dev.setCt
  exact Dev.showSlice_pool _ _

theorem Dev.steady_setCt (d : Dev) (g : Nat) (e : CtEntry) {r : Reg} (h : r.steady = true) : (d.setCt g e).reg r = d.reg r := by
  unfold Dev.setCt
  exact Dev.steady_showSlice _ _ h

theorem Dev.ctEntry_entered (d : Dev) (kind : ReqKind) (req : HomeReq) (block : Nat) :
    (d.entered kind req block).ctEntry (granuleOf req.line.toNat) = some (d.freshEntry kind req block) := by
  simp [Dev.entered, Dev.ctEntry, Dev.setCt_dir]

theorem Dev.entries_entered (d : Dev) (kind : ReqKind) (req : HomeReq) (block : Nat) :
    (d.entered kind req block).dir.entries = d.dir.entries := by
  simp [Dev.entered, Dev.setCt_dir, Dev.leaveBuffer_dir, Dev.unretry, Dev.setRetried]

theorem Dev.pool_entered (d : Dev) (kind : ReqKind) (req : HomeReq) (block : Nat) : (d.entered kind req block).pool = d.pool := by
  simp [Dev.entered, Dev.setCt_pool, Dev.leaveBuffer_pool, Dev.unretry, Dev.setRetried]

theorem Dev.steady_entered (d : Dev) (kind : ReqKind) (req : HomeReq) (block : Nat) {r : Reg} (h : r.steady = true) :
    (d.entered kind req block).reg r = d.reg r := by
  unfold Dev.entered
  dsimp only
  rw [Dev.reg_count _ _ _ _ _ (Reg.side_of_steady h), Dev.reg_count _ _ _ _ _ (Reg.side_of_steady h), Dev.steady_setCt _ _ _ h,
    Dev.steady_leaveBuffer _ _ _ h]
  rfl

/-- A request whose granule nothing tracks proceeds at once. -/
theorem Dev.takeIn_untracked {d : Dev} {req : HomeReq} (hnone : d.entry (granuleOf req.line.toNat) = none) (kind : ReqKind) (block : Nat) :
    d.takeIn kind req block true false false = (d.entered kind req block).proceed (granuleOf req.line.toNat) := by
  have hleft : ((((d.unretry (groupOf req.agent) (sliceOf (granuleOf req.line.toNat)) req).leaveBuffer kind req).setCt
      (granuleOf req.line.toNat) (d.freshEntry kind req block))).entry (granuleOf req.line.toNat) = none := by
    rw [← hnone]
    simp [Dev.entry, Dev.setCt_dir, Dev.leaveBuffer_dir, Dev.unretry, Dev.setRetried]
  have hcounted : ∀ (x : Dev) (u ev n : Nat), (x.count u ev n).entry (granuleOf req.line.toNat) = x.entry (granuleOf req.line.toNat) :=
    fun x u ev n => by simp [Dev.entry]
  have hadvance : (d.entered kind req block).advance (granuleOf req.line.toNat) =
      (d.entered kind req block).proceed (granuleOf req.line.toNat) := by
    unfold Dev.advance
    rw [Dev.ctEntry_entered]
    simp [Dev.freshEntry]
  rw [← hadvance]
  unfold Dev.takeIn
  simp only [hnone, recallPlan, waitsFor, if_true, List.map_nil, List.isEmpty_nil, Bool.not_true, Bool.and_false, Bool.not_false, Bool.true_and,
    Bool.false_eq_true, if_false]
  simp only [Dev.freshEntry] at hleft
  simp only [hcounted, hleft, Option.isSome_none, Bool.false_and, Bool.false_eq_true, if_false]
  rfl

theorem Dev.serve_untracked {d : Dev} {req : HomeReq} (h : d.untracked (granuleOf req.line.toNat)) (kind : ReqKind) (block : Nat) :
    d.serve kind req block true false false = (d.entered kind req block).proceed (granuleOf req.line.toNat) := by
  obtain ⟨hnone, hways⟩ := h
  have hcheck : d.checkEntry (granuleOf req.line.toNat) = (true, d) := by
    unfold Dev.checkEntry
    rw [hnone]
  have hfree : d.wayFree (granuleOf req.line.toNat) = true := by simp [Dev.wayFree, hways]
  have hway : d.makeWay (granuleOf req.line.toNat) = (true, d) := by
    unfold Dev.makeWay
    exact if_pos (.inr hways)
  rw [← Dev.takeIn_untracked hnone]
  unfold Dev.serve
  simp [hcheck, hfree, hway]

theorem Dev.Looked.untracked {d d' : Dev} (h : d.Looked d') {g : Nat} (hfree : d.untracked g) : d'.untracked g := by
  have hentry : ∀ x, d'.entry x = d.entry x := fun x => by rw [Dev.entry, Dev.entry, h.dir]
  have htaken : d'.waysTaken g = d.waysTaken g := by
    simp only [Dev.waysTaken, Dev.setGranules, hentry, h.dir]
  have hways : d'.ways (sliceOf g) = d.ways (sliceOf g) := by
    unfold Dev.ways Dev.guestsOf Dev.hostTile
    rw [h.hosts]
  exact ⟨(hentry g).trans hfree.1, by rw [htaken, hways]; exact hfree.2⟩

theorem Dev.Looked.mirrorCopy {d d' : Dev} (h : d.Looked d') (a : Agent) : d'.mirrorCopy a = d.mirrorCopy a := by
  cases a with
  | dmv c => simp only [Dev.mirrorCopy, h.svc, Dev.bitOf_eq_of_reg (h.reg (.dmv c .actCtl) rfl)]
  | _ => rfl

/-- A request in the conflict table, whose granule has no entry of the directory: what it finds is what the device was. -/
structure Dev.Waiting (d x : Dev) (kind : ReqKind) (req : HomeReq) (f : CtEntry) : Prop where
  ct : x.ctEntry (granuleOf req.line.toNat) = some f
  kind_eq : f.kind = kind
  req_eq : f.req = req
  coherent : f.coherent = true
  answered : f.answered = none
  resv : f.resv = ((d.ctEntry (granuleOf req.line.toNat)).map (·.resv)).getD []
  entries : x.dir.entries = d.dir.entries
  reg : ∀ r : Reg, r.steady = true → x.reg r = d.reg r
  rows : ∀ b, x.blockEntry b = d.blockEntry b

/-- An admitted request for an untracked granule of a coherent block proceeds at its home. -/
theorem Dev.arrive_proceeds {d d1 : Dev} {kind : ReqKind} {req : HomeReq} {b : Nat} {e : BlockEntry} (hmirror : d.mirrorCopy req.agent = false)
    (hcoherent : e.coherent = true) (hfree : d.untracked (granuleOf req.line.toNat)) (h : d.admits kind req)
    (hout : d.outcomeOf kind req = (.here b e, d1)) (hkind : d.effectiveKind kind req = kind) :
    ∃ x f, d.Waiting x kind req f ∧ d.arrive kind req false = x.proceed (granuleOf req.line.toNat) := by
  have hlook : d.Looked d1 := (d.looked_takeEpoch _ _ _).trans (Dev.looked_homeOutcome hout)
  refine ⟨d1.entered kind req b, d1.freshEntry kind req b, ?_, ?_⟩
  · have hreg : ∀ r : Reg, r.steady = true → (d1.entered kind req b).reg r = d1.reg r := fun r hr => d1.steady_entered kind req b hr
    refine ⟨d1.ctEntry_entered kind req b, rfl, rfl, rfl, rfl, ?_, (d1.entries_entered kind req b).trans (by rw [hlook.dir]),
      fun r hr => (hreg r hr).trans (hlook.reg r (Reg.side_of_steady hr)), fun n => ?_⟩
    · rw [← Dev.ctEntry_of_dir (by rw [hlook.dir])]
      rfl
    · have hpool := d1.pool_entered kind req b
      rw [← hlook.rows n]
      exact Dev.blockEntry_congr (hreg _ rfl) (Dev.hub_congr (hreg _ rfl) (by rw [hpool]) (by rw [hpool])) (by rw [hpool]) (by rw [hpool])
        (by rw [hpool]) n
  · rw [Dev.arrive_here h hout, hkind, hlook.mirrorCopy, hmirror, hcoherent]
    exact Dev.serve_untracked (hlook.untracked hfree) kind b

/-! ### What an access leaves in the directory -/

theorem Dev.entries_setEntry (d : Dev) (g : Nat) (e : DirEntry) : (d.setEntry g e).dir.entries = tset d.dir.entries g e := by
  unfold Dev.setEntry
  rw [Dev.dir_showSlice]

theorem Dev.entries_grantShared {d : Dev} {g : Nat} (hnone : d.entry g = none) {a : Agent} {r : Holder} (hr : agentHolder a = some r) :
    (d.grantEntry g .readShared a).dir.entries = tset d.dir.entries g (mkEntry g 1 (bitVector r)) := by
  simp only [Dev.grantEntry, hr, hnone, Dev.addSharer, Dev.touch, Dev.entries_setEntry]

theorem Dev.entries_grantExclusive (d : Dev) (g : Nat) {a : Agent} {r : Holder} (hr : agentHolder a = some r) :
    (d.grantEntry g .readExclusive a).dir.entries = tset d.dir.entries g (mkEntry g 2 (bitVector r)) := by
  simp only [Dev.grantEntry, hr, Dev.touch, Dev.entries_setEntry]

theorem Dev.entries_grantX (d : Dev) (g : Nat) {a : Agent} {r : Holder} (hr : agentHolder a = some r) :
    (d.grantEntry g .takeX a).dir.entries = tset d.dir.entries g (mkEntry g 3 (bitVector r)) := by
  simp only [Dev.grantEntry, hr, Dev.touch, Dev.entries_setEntry]

theorem Dev.grantEntry_readCurrent (d : Dev) (g : Nat) (a : Agent) : d.grantEntry g .readCurrent a = d := by
  unfold Dev.grantEntry
  split <;> rfl

/-- A read that proceeds leaves the entry that its grant makes. -/
theorem Dev.proceed_read {d x : Dev} {kind : ReqKind} {req : HomeReq} {f : CtEntry} (h : d.Waiting x kind req f) (hreads : kind.reads = true) :
    (x.proceed (granuleOf req.line.toNat)).dir.entries = (x.grantEntry (granuleOf req.line.toNat) kind req.agent).dir.entries := by
  have hread : x.proceed (granuleOf req.line.toNat) = (x.grantEntry (granuleOf req.line.toNat) kind req.agent).readLine
      (granuleOf req.line.toNat) := by
    unfold Dev.proceed
    rw [h.ct]
    simp only [h.kind_eq, h.req_eq, h.coherent, h.answered]
    cases kind with
    | readShared => rfl
    | readExclusive => rfl
    | readCurrent => rfl
    | _ => cases hreads
  rw [hread, (Dev.carries_readLine _ _).entries]

/-- A write of a host that proceeds completes towards its port and leaves no entry. -/
theorem Dev.proceed_write {d x : Dev} {kind : ReqKind} {req : HomeReq} {f : CtEntry} {p : Fin 64} (h : d.Waiting x kind req f)
    (hkind : kind = .write ∨ kind = .partialWrite) (hagent : req.agent = .host p) (hreach : d.reaches p) :
    (∃ l, (x.proceed (granuleOf req.line.toNat)).queued (.port p) (.memDone (.host p) req.txn l)) ∧
      (x.proceed (granuleOf req.line.toNat)).dir.entries = d.dir.entries := by
  have hdone := Dev.queued_replyDone hagent (Dev.reaches_congr h.reg hreach) (x.lastWaitOf req) f.peakWaited
  have hrest : (x.replyDone req (x.lastWaitOf req) f.peakWaited).Carries (x.proceed (granuleOf req.line.toNat)) := by
    unfold Dev.proceed
    rw [h.ct]
    rcases hkind with rfl | rfl
    · simp only [h.kind_eq, h.req_eq]
      exact ((Dev.carries_dirtyLog _ _ _).trans (Dev.carries_setCt _ _ _)).trans
        ((Dev.carries_writeLine _ _ _ _ _ _).trans (Dev.carries_settle _ _))
    · simp only [h.kind_eq, h.req_eq]
      exact (Dev.carries_dirtyLog _ _ _).trans (Dev.carries_readLine _ _)
  exact ⟨⟨_, hrest.queued _ _ hdone⟩, by rw [hrest.entries, (x.sends_replyDone _ _ _).dir, h.entries]⟩

/-- A retired granule that nothing waits for has no conflict entry. -/
theorem Dev.ctEntry_retire {d : Dev} {g : Nat} {f : CtEntry} (hct : d.ctEntry g = some f) (hresv : f.resv = []) :
    (d.retire g).ctEntry g = none := by
  have hdrop : ∀ x : Dev, (x.dropCt g).ctEntry g = none := fun x => by
    unfold Dev.dropCt Dev.ctEntry
    rw [Dev.dir_showSlice]
    exact tget_tdel_same _ _
  unfold Dev.retire
  rw [hct]
  simp only [hresv, Dev.holdFor]
  exact hdrop _

theorem Dev.ctEntry_grantX (d : Dev) (g x : Nat) (a : Agent) : (d.grantEntry g .takeX a).ctEntry x = d.ctEntry x := by
  unfold Dev.grantEntry
  split
  · rfl
  · unfold Dev.touch Dev.setEntry Dev.ctEntry
    dsimp only
    rw [Dev.dir_showSlice]

theorem Dev.blockEntry_grantX (d : Dev) (g : Nat) (a : Agent) (b : Nat) : (d.grantEntry g .takeX a).blockEntry b = d.blockEntry b := by
  unfold Dev.grantEntry
  split
  · rfl
  · have hpool : ∀ (y : Dev) (t : Nat), (y.showSlice t).blockEntry b = y.blockEntry b := fun y t =>
      Dev.blockEntry_congr (y.steady_showSlice t rfl) (Dev.hub_congr (y.steady_showSlice t rfl) (by rw [Dev.showSlice_pool])
        (by rw [Dev.showSlice_pool])) (by rw [Dev.showSlice_pool]) (by rw [Dev.showSlice_pool]) (by rw [Dev.showSlice_pool]) b
    exact hpool _ _

/-- An engine's take in a block that is not FENCING completes and leaves no conflict entry. -/
theorem Dev.proceed_takeX {d x : Dev} {req : HomeReq} {f : CtEntry} {n : Fin 256} (h : d.Waiting x .takeX req f) (hagent : req.agent = .engine n)
    (hct : d.ctEntry (granuleOf req.line.toNat) = none) (hstate : (d.blockEntry (blockOfGranule (granuleOf req.line.toNat))).state.toNat ≠ 3) :
    (x.proceed (granuleOf req.line.toNat)).dir.entries = (x.grantEntry (granuleOf req.line.toNat) .takeX req.agent).dir.entries ∧
      (x.proceed (granuleOf req.line.toNat)).ctEntry (granuleOf req.line.toNat) = none ∧
      ∃ l, .memDone (.engine n) req.txn l ∈ (x.proceed (granuleOf req.line.toNat)).out := by
  generalize hg : granuleOf req.line.toNat = g at *
  have hgct := h.ct
  have hresv := h.resv
  rw [hg] at hgct hresv
  rw [hct] at hresv
  let y := (x.grantEntry g .takeX req.agent).replyDone req 0 false
  have hy : y = (x.grantEntry g .takeX req.agent).emit (.memDone (.engine n) req.txn ((x.grantEntry g .takeX req.agent).devLoad 0 false)) := by
    show (x.grantEntry g .takeX req.agent).replyDone req 0 false = _
    unfold Dev.replyDone
    rw [hagent]
  have hyct : y.ctEntry g = some f := by
    rw [hy]
    exact (x.ctEntry_grantX g g req.agent).trans hgct
  have hfencing : decide ((y.blockEntry (blockOfGranule g)).state.toNat = 3) = false := by
    have hrow : y.blockEntry (blockOfGranule g) = d.blockEntry (blockOfGranule g) := by
      rw [hy]
      exact (x.blockEntry_grantX g req.agent _).trans (h.rows _)
    simpa [hrow] using hstate
  have hserved : y.readServed g = y.setCt g { f with done := true } := by
    unfold Dev.readServed
    rw [hyct]
    simp [hfencing]
  have hdone : (y.setCt g { f with done := true }).ctEntry g = some { f with done := true } := by
    unfold Dev.ctEntry
    rw [Dev.setCt_dir]
    exact tget_tset_same _ _ _
  have hproceed : x.proceed g = (y.setCt g { f with done := true }).retire g := by
    rw [← hserved] at hdone ⊢
    unfold Dev.proceed
    rw [hgct]
    simp only [h.kind_eq, h.req_eq]
    exact if_pos (by rw [hdone]; rfl)
  have hcarries : y.Carries (x.proceed g) := by
    rw [hproceed]
    exact (y.carries_setCt g _).trans (Dev.carries_retire _ g)
  refine ⟨?_, ?_, _, hcarries.out.subset (by rw [hy]; exact Dev.mem_emit _ _)⟩
  · rw [hcarries.entries, hy]
    rfl
  · rw [hproceed]
    exact Dev.ctEntry_retire hdone hresv

/-! ### The obligation -/

/-- Only a read's kind may change on its way to its home. -/
theorem Dev.effectiveKind_of_not_reads (d : Dev) {kind : ReqKind} (h : kind.reads = false) (req : HomeReq) :
    d.effectiveKind kind req = kind := by
  have hkind : d.kindOf kind req = kind := by
    unfold Dev.kindOf
    split
    · simp [h]
    · rfl
  unfold Dev.effectiveKind
  rw [hkind]
  exact if_neg fun hread => by rw [hread.1] at h; cases h

theorem Dev.entry_of_entries {d d' : Dev} (h : d'.dir.entries = d.dir.entries) (x : Nat) : d'.shown.entry x = d.entry x := by
  rw [Dev.entry, Dev.shown_dir, h, Dev.entry]

/-- One granule's entry is set, every other one stays. -/
theorem Dev.entry_of_tset {d d' : Dev} {g : Nat} {e : DirEntry} (h : d'.dir.entries = tset d.dir.entries g e) :
    d'.shown.entry g = some e ∧ ∀ x, x ≠ g → d'.shown.entry x = d.entry x := by
  refine ⟨?_, fun x hx => ?_⟩
  · rw [Dev.entry, Dev.shown_dir, h, tget_tset_same]
  · rw [Dev.entry, Dev.shown_dir, h, tget_tset_ne _ _ hx, Dev.entry]

/-- A host's write that is admitted completes towards its port and leaves no entry. -/
theorem Dev.write_admitted {d d1 : Dev} {kind : ReqKind} {req : HomeReq} {b : Nat} {e : BlockEntry} {p : Fin 64}
    (hkind : kind = .write ∨ kind = .partialWrite) (hmirror : d.mirrorCopy req.agent = false) (hcoherent : e.coherent = true)
    (hfree : d.untracked (granuleOf req.line.toNat)) (hagent : req.agent = .host p) (htakes : d.takesMessages (.port p) = true)
    (h : d.admits kind req) (hout : d.outcomeOf kind req = (.here b e, d1)) :
    (∃ l, (d.arrive kind req false).shown.queued (.port p) (.memDone (.host p) req.txn l)) ∧
      ∀ x, (d.arrive kind req false).shown.entry x = d.entry x := by
  have hreads : kind.reads = false := by rcases hkind with rfl | rfl <;> rfl
  obtain ⟨x, f, hwait, hproceed⟩ := Dev.arrive_proceeds hmirror hcoherent hfree h hout (d.effectiveKind_of_not_reads hreads req)
  obtain ⟨⟨l, hqueued⟩, hentries⟩ := Dev.proceed_write hwait hkind hagent ⟨h.1.1, htakes⟩
  rw [hproceed]
  exact ⟨⟨l, Dev.queued_shown hqueued⟩, Dev.entry_of_entries hentries⟩

/-- Settles O20: an examined request is dispatched by its outcome; where nothing tracks its granule it recalls nothing and proceeds at
once, and what proceeds after its grant and its answer changes no directory entry and takes no message back. -/
theorem homeServesRequestsByItsTables : Obligations.HomeServesRequestsByItsTables := by
  unfold Obligations.HomeServesRequestsByItsTables
  refine ⟨fun kind c req s hc h => ⟨fun b e d1 hout => exec_home_arrives hc h.1 (Dev.arrive_here h hout),
      fun e d1 hout => exec_home_arrives hc h.1 (Dev.arrive_forward h hout)⟩,
    fun kind c req s hc h hbusy => exec_home_arrives hc h (Dev.arrive_retried h (Dev.mayTake_of_busy hbusy)), ?_⟩
  intro req r b e d1 s hr hmirror hcoherent hfree g
  refine ⟨fun h hout hkind => yields_of_eq (exec_home_arrives (kind := .readShared) (by simp) h.1 rfl) ?shared,
    fun h hout hkind => yields_of_eq (exec_home_arrives (kind := .readExclusive) (by simp) h.1 rfl) ?exclusive,
    fun h hout hkind => yields_of_eq (exec_home_arrives (kind := .readCurrent) (by simp) h.1 rfl) ?current,
    fun p hagent htakes h hout => yields_of_eq (exec_home_arrives (kind := .write) (by simp) h.1 rfl)
      (Dev.write_admitted (.inl rfl) hmirror hcoherent hfree hagent htakes h hout),
    fun p hagent htakes h hout => yields_of_eq (exec_home_arrives (kind := .partialWrite) (by simp) h.1 rfl)
      (Dev.write_admitted (.inr rfl) hmirror hcoherent hfree hagent htakes h hout),
    fun n hagent h hout hct hstate => yields_of_eq (exec_onto (exec_takeX req s) (d' := s.dev.arrive .takeX req false) ?exec) ?take⟩
  case shared =>
    obtain ⟨x, f, hwait, hproceed⟩ := Dev.arrive_proceeds hmirror hcoherent hfree h hout hkind
    have hnone : x.entry g = none := by rw [Dev.entry, hwait.entries]; exact hfree.1
    rw [hproceed]
    exact Dev.entry_of_tset ((Dev.proceed_read hwait rfl).trans ((Dev.entries_grantShared hnone hr).trans (by rw [hwait.entries])))
  case exclusive =>
    obtain ⟨x, f, hwait, hproceed⟩ := Dev.arrive_proceeds hmirror hcoherent hfree h hout hkind
    rw [hproceed]
    exact Dev.entry_of_tset ((Dev.proceed_read hwait rfl).trans ((x.entries_grantExclusive g hr).trans (by rw [hwait.entries])))
  case current =>
    obtain ⟨x, f, hwait, hproceed⟩ := Dev.arrive_proceeds hmirror hcoherent hfree h hout hkind
    rw [hproceed]
    exact Dev.entry_of_entries ((Dev.proceed_read hwait rfl).trans (by rw [Dev.grantEntry_readCurrent, hwait.entries]))
  case exec =>
    simp only [hagent]
  case take =>
    obtain ⟨x, f, hwait, hproceed⟩ := Dev.arrive_proceeds hmirror hcoherent hfree h hout (s.dev.effectiveKind_of_not_reads rfl req)
    obtain ⟨hentries, hnone, l, hdone⟩ := Dev.proceed_takeX hwait hagent hct hstate
    obtain ⟨hset, hothers⟩ := Dev.entry_of_tset (d := s.dev) (hentries.trans ((x.entries_grantX g hr).trans (by rw [hwait.entries])))
    rw [hproceed]
    exact ⟨hset, (Dev.ctEntry_of_dir (by rw [Dev.shown_dir]) _).trans hnone, ⟨l, Dev.mem_shown hdone⟩, hothers⟩

end Sys2Proof.Machine
end

section
/-! PROOFS. What accesses of the block map and the slot table, changes of the hub structures and management messages leave alone. -/

namespace Sys2Proof.Machine

/-! ### Rows of the block map and of the slot table -/

/-- A later device has read, repaired or written rows of the block map and of the slot table and emptied caches of them, and no more. -/
structure Dev.Rows (d d' : Dev) : Prop where
  records : d'.pool.records = d.pool.records
  keys : d'.pool.keys = d.pool.keys
  hub : d'.hub = d.hub
  mgmt : d'.mgmt = d.mgmt
  fab : d'.fab = d.fab
  out : d.out <+: d'.out

theorem Dev.Rows.refl (d : Dev) : d.Rows d := ⟨rfl, rfl, rfl, rfl, rfl, List.prefix_rfl⟩

theorem Dev.Rows.trans {d d' d'' : Dev} (h : d.Rows d') (h' : d'.Rows d'') : d.Rows d'' :=
  ⟨h'.records.trans h.records, h'.keys.trans h.keys, h'.hub.trans h.hub, h'.mgmt.trans h.mgmt, h'.fab.trans h.fab, h.out.trans h'.out⟩

/-- A fold of row accesses accesses rows. -/
theorem Dev.Rows.foldl {α : Type} {f : Dev → α → Dev} (h : ∀ (d : Dev) (x : α), d.Rows (f d x)) (l : List α) (d : Dev) :
    d.Rows (l.foldl f d) :=
  List.foldlRecOn (motive := fun e : Dev => d.Rows e) l f (.refl d) fun e he x _ => he.trans (h e x)

/-- A change of the rows or of the caches themselves. -/
theorem Dev.Rows.of_pool {d : Dev} {p : PoolState} (hrecords : p.records = d.pool.records) (hkeys : p.keys = d.pool.keys)
    (ha : p.hubA = d.pool.hubA) (hb : p.hubB = d.pool.hubB) : d.Rows { d with pool := p } :=
  ⟨hrecords, hkeys, Dev.hub_congr rfl ha hb, rfl, rfl, List.prefix_rfl⟩

theorem Dev.rows_blocks (d : Dev) (c : Table (Nat × Nat) BlockEntry) (blocks : Copies BlockEntry) :
    d.Rows { d with pool := { d.pool with blockCache := c, blocks := blocks } } := .of_pool rfl rfl rfl rfl
theorem Dev.rows_slots (d : Dev) (c : Table (Nat × Nat) SlotEntry) (slots : Copies SlotEntry) :
    d.Rows { d with pool := { d.pool with slotCache := c, slots := slots } } := .of_pool rfl rfl rfl rfl

/-- Events are counted and reported beside it. -/
theorem Dev.Rows.of_alike {d d' : Dev} (h : d.Alike d') (hmgmt : d'.mgmt = d.mgmt) (hfab : d'.fab = d.fab) (hout : d.out <+: d'.out) :
    d.Rows d' :=
  ⟨by rw [h.pool], by rw [h.pool], h.hub, hmgmt, hfab, hout⟩

theorem Dev.rows_count (d : Dev) (u ev n : Nat) : d.Rows (d.count u ev n) := .of_alike (d.alike_count u ev n) (by simp) (by simp) (by simp)
theorem Dev.rows_report (d : Dev) (src cls detail : Nat) : d.Rows (d.report src cls detail) :=
  .of_alike ⟨by simp, fun r hr => d.reg_report src cls detail r hr⟩ (by simp) (by simp) (by simp)
theorem Dev.rows_wake (d : Dev) (i : Nat) : d.Rows (d.wake i) :=
  .of_alike ⟨by simp, fun r _ => d.reg_wake i r⟩ (by simp) (by simp) (by simp)
theorem Dev.rows_wakeQuarters (d : Dev) (i : Nat) : d.Rows (d.wakeQuarters i) := (d.rows_wake _).trans (Dev.rows_wake _ _)
theorem Dev.rows_countInvalidation (d : Dev) : d.Rows d.countInvalidation := .foldl (fun d t => d.rows_count t 0x300C 1) (List.range 16) d

theorem Dev.rows_writeBlock (d : Dev) (b : Nat) (e : BlockEntry) : d.Rows (d.writeBlock b e) := by
  unfold Dev.writeBlock
  exact ((d.rows_wakeQuarters b).trans (Dev.rows_blocks _ _ _)).trans (Dev.rows_count _ _ _ _)
theorem Dev.rows_writeSlot (d : Dev) (i : Nat) (e : SlotEntry) : d.Rows (d.writeSlot i e) := by
  unfold Dev.writeSlot
  exact ((d.rows_wakeQuarters i).trans (Dev.rows_slots _ _ _)).trans (Dev.rows_count _ _ _ _)
theorem Dev.rows_invalidateBlock (d : Dev) (b : Nat) : d.Rows (d.invalidateBlock b) := by
  unfold Dev.invalidateBlock
  exact (d.rows_blocks _ d.pool.blocks).trans (Dev.rows_countInvalidation _)
theorem Dev.rows_invalidateSlot (d : Dev) (i : Nat) : d.Rows (d.invalidateSlot i) := by
  unfold Dev.invalidateSlot
  exact (d.rows_slots _ d.pool.slots).trans (Dev.rows_countInvalidation _)

/-- A checked read accesses rows where its rewrite does. -/
theorem readRow_rows {β : Type} (d : Dev) (i : Nat) (a b : β) (ok : β → Bool) {put : Dev → β → Dev}
    (hput : ∀ (d : Dev) (e : β), d.Rows (put d e)) :
    d.Rows (readRow d i a b ok put).2 := by
  unfold readRow
  dsimp only
  split_ifs
  · exact .refl d
  · exact .refl d
  · exact (hput d b).trans (Dev.rows_report _ _ _ _)
  · exact d.rows_report _ _ _
  · exact d.rows_report _ _ _
  · exact (d.rows_report _ _ _).trans (Dev.rows_report _ _ _ _)

theorem Dev.rows_readBlock (d : Dev) (b : Nat) : d.Rows (d.readBlock b).2 := by
  have h := readRow_rows d b (tgetD d.pool.blocks.a b (d.blockDefault b)) (tgetD d.pool.blocks.b b (d.blockDefault b))
    BlockEntry.ok fun d e => d.rows_writeBlock b e
  unfold Dev.readBlock
  dsimp only
  split <;> rename_i hr <;> rw [hr] at h
  · exact h
  · exact (h.trans (Dev.rows_writeBlock _ _ _)).trans (Dev.rows_invalidateBlock _ _)

theorem Dev.rows_readSlot (d : Dev) (i : Nat) : d.Rows (d.readSlot i).2 := by
  have h := readRow_rows d i (tgetD d.pool.slots.a i slotDefault) (tgetD d.pool.slots.b i slotDefault)
    SlotEntry.ok fun d e => d.rows_writeSlot i e
  unfold Dev.readSlot
  split <;> rename_i hr <;> rw [hr] at h
  · exact h
  · exact (h.trans (Dev.rows_writeSlot _ _ _)).trans (Dev.rows_invalidateSlot _ _)

theorem Dev.rows_changeBlock (d : Dev) (b : Nat) (f : BlockEntry → BlockEntry) : d.Rows (d.changeBlock b f) :=
  (d.rows_readBlock b).trans (Dev.rows_writeBlock _ _ _)
theorem Dev.rows_changeSlot (d : Dev) (i : Nat) (f : SlotEntry → SlotEntry) : d.Rows (d.changeSlot i f) :=
  (d.rows_readSlot i).trans (Dev.rows_writeSlot _ _ _)
theorem Dev.rows_updateBlock (d : Dev) (b : Nat) (f : BlockEntry → BlockEntry) : d.Rows (d.updateBlock b f) :=
  (d.rows_changeBlock b f).trans (Dev.rows_invalidateBlock _ _)
theorem Dev.rows_updateSlot (d : Dev) (i : Nat) (f : SlotEntry → SlotEntry) : d.Rows (d.updateSlot i f) :=
  (d.rows_changeSlot i f).trans (Dev.rows_invalidateSlot _ _)
theorem Dev.rows_clearSlots (d : Dev) (l : List Nat) : d.Rows (d.clearSlots l) := .foldl (fun d s => d.rows_changeSlot s _) l d

/-- What a row access leaves of the records. -/
theorem Dev.Rows.fields {d d' : Dev} (h : d.Rows d') : d'.pool.extents = d.pool.extents ∧ d'.pool.extentSeq = d.pool.extentSeq ∧
    d'.pool.domains = d.pool.domains ∧ d'.pool.dcOps = d.pool.dcOps ∧ d'.pool.fenceQueue = d.pool.fenceQueue := by
  obtain ⟨hextents, hseq, hdomains, hops, _, hqueue, _⟩ := records_fields h.records
  exact ⟨hextents, hseq, hdomains, hops, hqueue⟩

/-! ### The hub structures -/

theorem Dev.hub_shown (d : Dev) : d.shown.hub = d.hub := Dev.hub_congr (d.reg_shown _ rfl) (by simp) (by simp)

/-- A change of the hub structures is read back, whichever copy serves (R16, R394). -/
theorem Dev.hub_modHub (d : Dev) (f : HubTables → HubTables) : (d.modHub f).hub = f d.hub := by
  have hreg : (d.modHub f).reg .retireStatus = d.reg .retireStatus := by
    unfold Dev.modHub
    rw [Dev.reg_count _ _ _ _ _ rfl, Dev.reg_mk, (d.looked_wakeQuarters 0).reg _ rfl]
  have hlost : ∀ q, (d.wakeQuarters 0).hubLost q = d.hubLost q := Dev.hubLost_congr ((d.looked_wakeQuarters 0).reg _ rfl)
  simp only [Dev.hub, Dev.hubLost_congr hreg]
  simp only [Dev.modHub, Dev.count_pool, hlost, Dev.wakeQuarters_pool]
  cases d.hubLost 0 <;> cases d.hubLost 2 <;> rfl

/-- What a change of the hub structures leaves alone. -/
theorem Dev.modHub_frame (d : Dev) (f : HubTables → HubTables) : (d.modHub f).mgmt = d.mgmt ∧ (d.modHub f).fab = d.fab ∧
    (d.modHub f).dir = d.dir ∧ d.out <+: (d.modHub f).out := by
  unfold Dev.modHub
  simp [Dev.wakeQuarters]

theorem Dev.modHub_pool (d : Dev) (f : HubTables → HubTables) :
    ∃ a b, (d.modHub f).pool = { d.pool with hubA := a, hubB := b } := by
  unfold Dev.modHub
  exact ⟨_, _, by rw [Dev.count_pool, Dev.wakeQuarters_pool]⟩

/-! ### Management messages -/

theorem Dev.writeOut_mgmt (d : Dev) (m : Msg) : (d.writeOut m).mgmt = d.mgmt := by
  unfold Dev.writeOut
  split_ifs
  · exact foldl_frame Dev.mgmt _ _ (fun d o => by simp) d
  · simp
  · simp

theorem Dev.steady_writeOut (d : Dev) (m : Msg) {r : Reg} (h : r.steady = true) : (d.writeOut m).reg r = d.reg r := by
  unfold Dev.writeOut
  split_ifs
  · exact foldl_frame (fun d : Dev => d.reg r) _ _ (fun d o => by simp) d
  · rw [Dev.steady_store _ _ h, Dev.reg_newId]
  · simp

/-- A message that is sent or dropped leaves the management records and every register beside the buffer's and the counters. -/
theorem Dev.postOrDrop_quiet (d : Dev) (ws : List Word) : (d.postOrDrop ws).mgmt = d.mgmt ∧
    ∀ r : Reg, r.steady = true → (d.postOrDrop ws).reg r = d.reg r := by
  have hdrop : (d.noRoute (msgDst ws)).mgmt = d.mgmt ∧ ∀ r : Reg, r.steady = true → (d.noRoute (msgDst ws)).reg r = d.reg r := by
    unfold Dev.noRoute
    dsimp only
    split
    · exact ⟨by simp, fun r hr => by rw [Dev.reg_report _ _ _ _ _ (Reg.side_of_steady hr), Dev.reg_mk]⟩
    · exact ⟨by simp, fun r hr => by rw [Dev.reg_report _ _ _ _ _ (Reg.side_of_steady hr), Dev.reg_mk]⟩
  unfold Dev.postOrDrop Dev.post Dev.postFrom
  split
  · exact hdrop
  · rename_i n _
    cases d.linkFor n ws with
    | none => exact hdrop
    | some s =>
      show (d.writeLink _ s ws).mgmt = d.mgmt ∧ ∀ r : Reg, r.steady = true → (d.writeLink _ s ws).reg r = d.reg r
      unfold Dev.writeLink
      split
      · exact ⟨d.writeOut_mgmt _, fun r hr => d.steady_writeOut _ hr⟩
      · exact ⟨rfl, fun _ _ => rfl⟩

/-- Messages leave pool, hub structures, management records and directory, and only add to what is sent. -/
structure Dev.Posts (d d' : Dev) : Prop where
  pool : d'.pool = d.pool
  hub : d'.hub = d.hub
  mgmt : d'.mgmt = d.mgmt
  dir : d'.dir = d.dir
  out : d.out <+: d'.out

theorem Dev.Posts.refl (d : Dev) : d.Posts d := ⟨rfl, rfl, rfl, rfl, List.prefix_rfl⟩

theorem Dev.Posts.trans {d d' d'' : Dev} (h : d.Posts d') (h' : d'.Posts d'') : d.Posts d'' :=
  ⟨h'.pool.trans h.pool, h'.hub.trans h.hub, h'.mgmt.trans h.mgmt, h'.dir.trans h.dir, h.out.trans h'.out⟩

theorem Dev.posts_postOrDrop (d : Dev) (ws : List Word) : d.Posts (d.postOrDrop ws) :=
  have hpool := (d.postOrDrop_frame ws).1
  ⟨hpool, Dev.hub_congr ((d.postOrDrop_quiet ws).2 _ rfl) (by rw [hpool]) (by rw [hpool]), (d.postOrDrop_quiet ws).1,
    (d.sends_postOrDrop ws).dir, (d.sends_postOrDrop ws).out⟩

theorem Dev.posts_foldl (l : List (List Word)) (d : Dev) : d.Posts (l.foldl (fun d ws => d.postOrDrop ws) d) :=
  List.foldlRecOn (motive := fun e : Dev => d.Posts e) l _ (.refl d) fun e he ws _ => he.trans (e.posts_postOrDrop ws)

/-- As much of messages sent after the fabric state changed. -/
theorem Dev.posts_fab_foldl (d : Dev) (f : FabState) (l : List (List Word)) :
    d.Posts (l.foldl (fun d ws => d.postOrDrop ws) { d with fab := f }) :=
  have h : d.Posts { d with fab := f } := ⟨rfl, rfl, rfl, rfl, List.prefix_rfl⟩
  h.trans (Dev.posts_foldl l _)

theorem Dev.posts_mgmtRequest (d : Dev) (r : MgmtReq) : d.Posts (d.mgmtRequest r) := d.posts_fab_foldl _ _
theorem Dev.posts_mgmtAnswer (d : Dev) (dev : DeviceId) (tag mtype id status : Nat) : d.Posts (d.mgmtAnswer dev tag mtype id status) :=
  d.posts_fab_foldl _ _

end Sys2Proof.Machine
end

section
/-! PROOFS. A migration's chunk of a POISONED source block: the X it never took is given up all the same, and what waited for that X is granted. -/

namespace Sys2Proof.Machine

/-- Engine 0's take of granule 0, which waits for data mover 0 to give up its X. -/
def waitingTake : CtEntry :=
  { slice := 0, state := .xrecall, general := true, group := 32, kind := .takeX, req := ⟨0, .engine 0, 0, 0, 0, 0, false⟩, block := 0,
    coherent := true, remote := false, waits := [⟨.dmv 0, BitVec.allOnes 16, false, []⟩], snoop := .inv, answered := none, resv := [],
    done := false, green := true, peakWaited := false, epoch := 0 }

/-- Block 0, POISONED. -/
def poisonedBlock : BlockEntry := (mkBlock 1 2 false true 0 0 0 0 0).withState 5

/-- The migration of block 0 to block 1, at its first chunk. -/
def firstChunk : Migration := ⟨0, 1, 0, none⟩

/-- Firmware runs and copies the POISONED block 0; data mover 0 holds its granule 0 in X, and an engine's take waits for that X. -/
def poisonedMigration : Dev :=
  let d : Dev := Dev.wr { Dev.reset with mgmt := { MgmtState.reset with coldHeld := false, fwUp := true } } (.domStatus 1) 31 26 0
  { d with
    pool.hubA.migrations := [firstChunk], pool.hubB.migrations := [firstChunk]
    pool.blocks := ⟨[(0, poisonedBlock)], [(0, poisonedBlock)]⟩
    dir.entries := [(0, mkEntry 0 3 (bitVector (.dmv 0)))], dir.ct := [(0, waitingTake)] }

/-- Whether an outcome is a next state that tracks a granule. -/
def tracksNext (o : Host.Outcome State Fault Refusal) (g : Nat) : Bool :=
  match o with
  | .next t => (t.dev.entry g).isSome
  | _ => false

theorem poisonedMigration_atRest : poisonedMigration.atRest := by
  have hturn : poisonedMigration.noTurn := by unfold Dev.noTurn; decide +kernel
  have hmarks : ∀ x ∈ poisonedMigration.svc.dirty, x.2.marks = [] := by decide +kernel
  exact ⟨hturn, hmarks⟩

/-- Its chunk is copied without a wait, and without a take of X. -/
theorem poisonedMigration_copies : (poisonedMigration.copyChunk firstChunk).1 = true ∧
    (poisonedMigration.copyChunk firstChunk).2.dir.turn.stall = none ∧
    (poisonedMigration.copyChunk firstChunk).2.entryState 0 = 3 ∧
    ((poisonedMigration.copyChunk firstChunk).2.entry 0).map (fun e => e.holders.contains (.dmv 0)) = some true := by decide +kernel

/-- The release of data mover 0's X lets the engine's take proceed: granule 0 has an entry again. -/
theorem poisonedMigration_tracks : tracksNext (exec (.migrationChunkCopied 0) { dev := poisonedMigration, pending := [] }) 0 = true := by
  decide +kernel

theorem eq_mk_of_fst {α β : Type} {p : α × β} {a : α} (h : p.1 = a) : p = (a, p.2) := by rw [← h]

/-- Refutes O17: where the source block is POISONED the chunk takes no X, so its granule may be busy with another agent's take that waits
for the migration's data mover; giving up that X lets the take proceed, which leaves the new holder's entry. -/
theorem not_keysAndMigrationsKeepTheirRecords : ¬ Obligations.KeysAndMigrationsKeepTheirRecords := by
  unfold Obligations.KeysAndMigrationsKeepTheirRecords
  rintro ⟨_, _, _, hchunk, _⟩
  obtain ⟨hok, hstall, hx, hholds⟩ := poisonedMigration_copies
  have hcopies : poisonedMigration.copyChunk firstChunk = (true, (poisonedMigration.copyChunk firstChunk).2) :=
    eq_mk_of_fst hok
  obtain ⟨t, hexec, _, _, hgone, _⟩ := hchunk 0 firstChunk _ { dev := poisonedMigration, pending := [] } (by decide +kernel)
    poisonedMigration_atRest (by decide +kernel) (by decide +kernel) (by decide) hcopies hstall
  have hnone : t.dev.entry 0 = none := hgone 0 (by decide) (.dmv 0) (by decide +kernel) hx hholds
  have htracks := poisonedMigration_tracks
  rw [hexec] at htracks
  simp [tracksNext, hnone] at htracks

end Sys2Proof.Machine
end

section
/-! PROOFS. Dynamic capacity: what offering, accepting, withdrawing and releasing an extent leave of the list of extents, and O15. -/

namespace Sys2Proof.Machine

/-! ### What keeps the list of extents -/

/-- A later device lists the same extents, and has taken no message back. -/
structure Dev.Listed (d d' : Dev) : Prop where
  extents : d'.pool.extents = d.pool.extents
  out : d.out <+: d'.out

theorem Dev.Listed.refl (d : Dev) : d.Listed d := ⟨rfl, List.prefix_rfl⟩
theorem Dev.Listed.trans {d d' d'' : Dev} (h : d.Listed d') (h' : d'.Listed d'') : d.Listed d'' :=
  ⟨h'.extents.trans h.extents, h.out.trans h'.out⟩
theorem Dev.Rows.listed {d d' : Dev} (h : d.Rows d') : d.Listed d' := ⟨h.fields.1, h.out⟩

theorem Dev.listed_setDomain (d : Dev) (i : Nat) (r : DomainRec) : d.Listed (d.setDomain i r) := ⟨rfl, List.prefix_rfl⟩
theorem Dev.listed_dcWait (d : Dev) (p : Nat) : d.Listed (d.dcWait p) := ⟨rfl, List.prefix_rfl⟩
theorem Dev.listed_hostEvent (d : Dev) (p log kind dpa len tag : Nat) : d.Listed (d.hostEvent p log kind dpa len tag) :=
  ⟨by simp, d.out_hostEvent _ _ _ _ _ _⟩
theorem Dev.listed_bgStart (d : Dev) (path : Path) (op : Nat) : d.Listed (d.bgStart path op) := ⟨by simp, d.out_bgStart _ _⟩
theorem Dev.listed_complete (d : Dev) (path : Path) (op rc v : Nat) (l : List Byte) : d.Listed (d.complete path op rc v l) :=
  ⟨by simp, (d.out_emit _).trans (d.out_complete _ _ _ _ _)⟩
theorem Dev.listed_shown (d : Dev) : d.Listed d.shown := ⟨by simp, d.out_shown⟩
theorem Dev.listed_releaseBegins (d : Dev) (path : Path) (p : Nat) (es : List Extent) : d.Listed (d.releaseBegins path p es) :=
  ⟨rfl, List.prefix_rfl⟩

/-- Only the host's operation and its path's codes change where it completes. -/
theorem Dev.listed_dcSettle (d : Dev) (p : Nat) : d.Listed (d.dcSettle p) := by
  unfold Dev.dcSettle
  split
  · split_ifs
    · exact ⟨rfl, List.prefix_rfl⟩
    · exact .refl d
  · exact .refl d

/-- What follows a fence that dynamic capacity asked for: nothing, the operation's step, or an event record. -/
theorem Dev.listed_afterFence (d : Dev) {after : AfterFence}
    (h : after = .nothing ∨ (∃ p, after = .dc p) ∨ ∃ p x, after = .unprompted p x) : d.Listed (d.afterFence after) := by
  obtain rfl | ⟨p, rfl⟩ | ⟨p, x, rfl⟩ := h
  · exact .refl d
  · have hfenced : d.Listed { d with pool := { d.pool with dcOps := tmod d.pool.dcOps p fun (o : DcOp) => { o with pending := o.pending - 1 } } } :=
      ⟨rfl, List.prefix_rfl⟩
    exact hfenced.trans (Dev.listed_dcSettle _ p)
  · exact ⟨by rw [Dev.afterFence, Dev.fabricEvent_pool], d.out_fabricEvent _ _⟩

theorem Dev.listed_queueFence {d : Dev} {after : AfterFence} (h : d.Listed (d.afterFence after)) (whole : Bool) (blocks slots : List Nat)
    (holders : List Holder) (dom : Nat) : d.Listed (d.queueFence whole blocks slots holders dom after) := by
  unfold Dev.queueFence
  split
  · exact h
  · exact ⟨rfl, List.prefix_rfl⟩

/-! ### Extents that leave the list (R55, R57) -/

/-- A withdrawal takes its extent off the list, and no other. -/
theorem Dev.listed_withdraw (d : Dev) (e : Extent) (wait : Bool) : (d.dropExtent e).Listed (d.withdraw e wait) := by
  have hcleared : (d.dropExtent e).Listed ((d.dropExtent e).clearSlots (d.extentSlots e)) := (Dev.rows_clearSlots _ _).listed
  have hfence : ∀ (x : Dev) (bs : List Nat), x.Listed ((if wait then x.dcWait e.port else x).queueFence true bs [] [] e.domain
      (if wait then .dc e.port else .nothing)) := fun x bs => by
    cases wait
    · exact Dev.listed_queueFence (x.listed_afterFence (.inl rfl)) _ _ _ _ _
    · exact (x.listed_dcWait e.port).trans (Dev.listed_queueFence (Dev.listed_afterFence _ (.inr (.inl ⟨_, rfl⟩))) _ _ _ _ _)
  unfold Dev.withdraw
  dsimp only
  split
  · split
    · exact hcleared
    · refine hcleared.trans (Dev.Listed.trans ?_ (hfence _ _))
      split
      · exact Dev.listed_setDomain _ _ _
      · exact .refl _
  · exact hcleared

/-- So does a release, whatever of these follows its fence. -/
theorem Dev.listed_releaseExtent (d : Dev) (e : Extent) {after : AfterFence}
    (h : after = .nothing ∨ (∃ p, after = .dc p) ∨ ∃ p x, after = .unprompted p x) : (d.dropExtent e).Listed (d.releaseExtent e after) := by
  have hfence : ∀ (x : Dev) whole blocks slots holders dom, x.Listed (x.queueFence whole blocks slots holders dom after) :=
    fun x => Dev.listed_queueFence (x.listed_afterFence h)
  have hfirst : ∀ (x : Dev) whole blocks slots holders dom, x.Listed (x.queueFence whole blocks slots holders dom .nothing) :=
    fun x => Dev.listed_queueFence (.refl x)
  unfold Dev.releaseExtent
  extract_lets slots cleared waiting hs
  have hcleared : (d.dropExtent e).Listed cleared := (Dev.rows_clearSlots _ _).listed
  have hwaiting : cleared.Listed waiting := by
    unfold waiting
    split
    · exact cleared.listed_dcWait _
    · exact .refl cleared
  refine hcleared.trans (hwaiting.trans ?_)
  split
  · exact hfence _ _ _ _ _ _
  · extract_lets rec gone left
    have hleft : waiting.Listed left := waiting.listed_setDomain _ _
    refine hleft.trans ?_
    split
    · exact (hfirst _ _ _ _ _ _).trans (hfence _ _ _ _ _ _)
    · exact hfence _ _ _ _ _ _

theorem Dev.listed_forceRelease (d : Dev) (e : Extent) (p : Nat) : (d.dropExtent e).Listed (d.forceRelease e (.dc p)) :=
  (d.listed_releaseExtent e (.inr (.inl ⟨p, rfl⟩))).trans (Dev.listed_hostEvent _ _ _ _ _ _ _)

theorem Dev.Listed.dropExtent {d d' : Dev} (h : d.Listed d') (e : Extent) : (d.dropExtent e).Listed (d'.dropExtent e) :=
  ⟨congrArg (List.filter fun x => !decide (x = e)) h.extents, h.out⟩

/-- A host's release of an extent changes its operation's list and takes the extent off the device's. -/
theorem Dev.listed_hostReleases (d : Dev) (p : Nat) (e : Extent) : (d.dropExtent e).Listed (d.hostReleases p e) := by
  have hasked : ∀ ops, d.Listed { d with pool := { d.pool with dcOps := ops } } := fun _ => ⟨rfl, List.prefix_rfl⟩
  unfold Dev.hostReleases
  dsimp only
  split
  · exact ((hasked _).dropExtent e).trans (Dev.listed_releaseExtent _ e (.inr (.inl ⟨p, rfl⟩)))
  · exact d.listed_releaseExtent e (.inr (.inr ⟨p, _, rfl⟩))

/-- What takes one extent after another off the list takes all of them off. -/
theorem extents_foldl {f : Dev → Extent → Dev} (h : ∀ d e, (f d e).pool.extents = d.pool.extents.filter fun x => !decide (x = e))
    (es : List Extent) (d : Dev) : (es.foldl f d).pool.extents = d.pool.extents.filter fun x => !es.contains x := by
  induction es generalizing d with
  | nil => simp
  | cons e es ih =>
    rw [List.foldl_cons, ih, h, List.filter_filter]
    refine List.filter_congr fun x _ => ?_
    by_cases hx : x = e <;> simp [hx]

/-! ### Extents that are named, accepted and offered -/

/-- What a request names is the host's. -/
theorem Dev.port_of_named {d : Dev} {p : Nat} {offered : Bool} {l : List (Nat × Nat)} {es : List Extent}
    (h : d.namedExtents p offered l = some es) : ∀ e ∈ es, e.port = p := by
  unfold Dev.namedExtents at h
  dsimp only at h
  split_ifs at h
  cases h
  intro e he
  obtain ⟨x, _, hx⟩ := List.mem_filterMap.1 he
  have hfound := List.find?_some hx
  simp at hfound
  exact hfound.1

/-- An accepted extent is no longer offered; operations and fences are as they were (R55). -/
theorem Dev.acceptExtent_lists (d : Dev) (e : Extent) :
    (d.acceptExtent e).pool.extents = (d.pool.extents.map fun (x : Extent) => if x = e then { x with offered := false } else x) ∧
      (d.acceptExtent e).pool.dcOps = d.pool.dcOps ∧ (d.acceptExtent e).pool.fenceQueue = d.pool.fenceQueue ∧
      (d.acceptExtent e).mgmt = d.mgmt := by
  have hslots : ∀ (l : List Nat) (x : Dev),
      x.Rows (l.foldl (fun d i => d.updateSlot i fun x => { x with valid := true, validC := false }) x) :=
    Dev.Rows.foldl fun x i => x.rows_updateSlot i _
  have hblocks : ∀ (l : List Nat) (x : Dev),
      x.Rows (l.foldl (fun d b => if (d.blockEntry b).state = 1 then d.updateBlock b fun x => x.withState 2 else d) x) :=
    Dev.Rows.foldl fun x b => by
      split
      · exact x.rows_updateBlock b _
      · exact .refl x
  have hrows := (hslots (d.extentSlots e) d).trans (hblocks e.blocks _)
  obtain ⟨hextents, _, _, hops, hqueue⟩ := hrows.fields
  unfold Dev.acceptExtent
  dsimp only
  split
  · exact ⟨by rw [← hextents]; rfl, hops, hqueue, hrows.mgmt⟩
  · exact ⟨by rw [← hextents], hops, hqueue, hrows.mgmt⟩

theorem Dev.blocks_writeSlot (d : Dev) (i : Nat) (e : SlotEntry) : (d.writeSlot i e).pool.blocks = d.pool.blocks := by
  unfold Dev.writeSlot
  simp [Dev.wakeQuarters_pool]
theorem Dev.blocks_invalidateSlot (d : Dev) (i : Nat) : (d.invalidateSlot i).pool.blocks = d.pool.blocks := by
  unfold Dev.invalidateSlot
  rw [Dev.countInvalidation_pool]
theorem Dev.blocks_invalidateBlock (d : Dev) (b : Nat) : (d.invalidateBlock b).pool.blocks = d.pool.blocks := by
  unfold Dev.invalidateBlock
  rw [Dev.countInvalidation_pool]

/-- An extent of blocks that its domain already holds is listed at the end, its rows and its record are written, and the block map is as
it was (R56). -/
theorem Dev.offerExtent_held (d : Dev) (p region tag first dom : Nat) (blocks : List Nat) :
    let t := d.offerExtent p region tag first dom blocks false
    t.pool.extents = d.pool.extents ++ [⟨p, region, first, blocks.length, tag, dom, blocks, true, d.pool.extentSeq⟩] ∧
      t.pool.dcOps = d.pool.dcOps ∧ t.pool.domains = d.pool.domains ∧ t.pool.blocks = d.pool.blocks ∧ d.out <+: t.out ∧
      .eventRecord p 4 0 (first * 2 ^ 26) ∈ t.out := by
  have hslots : ∀ (l : List (Nat × Nat)) (x : Dev),
      x.Rows (l.foldl (fun d x => (d.writeSlot x.1 (mkSlot false x.2 dom)).invalidateSlot x.1) x) :=
    Dev.Rows.foldl fun x i => (x.rows_writeSlot _ _).trans (Dev.rows_invalidateSlot _ _)
  have hblocks : ∀ (l : List Nat) (x : Dev), x.Rows (l.foldl (fun d b => d.invalidateBlock b) x) :=
    Dev.Rows.foldl fun x b => x.rows_invalidateBlock b
  have hmap : ∀ (l : List (Nat × Nat)) (x : Dev),
      (l.foldl (fun (d : Dev) x => (d.writeSlot x.1 (mkSlot false x.2 dom)).invalidateSlot x.1) x).pool.blocks = x.pool.blocks :=
    fun l => foldl_frame (fun d : Dev => d.pool.blocks) _ l fun x i => (Dev.blocks_invalidateSlot _ _).trans (x.blocks_writeSlot _ _)
  have hcaches : ∀ (l : List Nat) (x : Dev), (l.foldl (fun (d : Dev) b => d.invalidateBlock b) x).pool.blocks = x.pool.blocks :=
    fun l => foldl_frame (fun d : Dev => d.pool.blocks) _ l fun x b => x.blocks_invalidateBlock b
  have hrows := (hslots (((List.range blocks.length).map fun i => d.slotIndex p (first + i)).zip blocks) d).trans (hblocks blocks _)
  obtain ⟨hextents, hseq, hdomains, hops, _⟩ := hrows.fields
  refine ⟨?_, hops, hdomains, (hcaches _ _).trans (hmap _ _),
    hrows.out.trans (Dev.out_hostEvent _ p 4 0 (first * 2 ^ 26) (blocks.length * 2 ^ 26) tag),
    Dev.mem_emit _ _⟩
  rw [← hextents, ← hseq]
  rfl

/-- One extent under the tag of a domain with that many blocks. -/
theorem Dev.offer_tagged {d : Dev} {tag i n : Nat} {r : DomainRec} (hnamed : d.tagDomain tag = some (i, r)) (hlength : r.blocks.length = n)
    (path : Path) (p region first : Nat) :
    d.offer path p region tag [(first, n)] =
      Dev.offerExtent { d with pool := { d.pool with dcOps := tset d.pool.dcOps p ⟨true, path, [], 0⟩ } } p region tag first i r.blocks
        false := by
  unfold Dev.offer
  simp [hnamed, cut, Dev.offerAll, ← hlength]

/-- An add that is not refused names as many blocks as its tag's domain holds (R54). -/
theorem Dev.length_of_addRefusal {d : Dev} {path : Path} {p region tag f n i : Nat} {extents : List (Nat × Nat)} {r : DomainRec}
    (h : d.addRefusal path p region tag extents = none) (hext : asBlocks extents = some [(f, n)]) (hnamed : d.tagDomain tag = some (i, r)) :
    r.blocks.length = n := by
  unfold Dev.addRefusal at h
  simp only [hext, hnamed] at h
  by_contra hlength
  split_ifs at h with _ _ _ _ _ hcounts
  exact hcounts (.inl (by simpa using hlength))

theorem Dev.tagDomain_congr {d d' : Dev} (h : d'.pool = d.pool) (tag : Nat) : d'.tagDomain tag = d.tagDomain tag := by
  unfold Dev.tagDomain
  rw [h]

/-- A host's operation that waits for nothing completes (R53). -/
theorem Dev.dcSettle_completes {d : Dev} {p : Nat} {offering : Bool} {path : Path}
    (hop : tget d.pool.dcOps p = some ⟨offering, path, [], 0⟩) (hnone : ∀ e ∈ d.pool.extents, e.offered = false) :
    d.dcSettle p = ({ d with pool := { d.pool with dcOps := tdel d.pool.dcOps p } } : Dev).bgResult path 0 0 := by
  have hsettled : ¬ (d.pool.extents.any fun e => decide (e.port = p) && e.offered) = true := by
    simp only [List.any_eq_true, not_exists, not_and]
    intro e he hoffered
    simp [hnone e he] at hoffered
  unfold Dev.dcSettle
  rw [hop]
  exact if_pos ⟨rfl, rfl, hsettled⟩

/-! ### The obligation -/

/-- A standard command that is taken answers the state that its own rules give. -/
theorem exec_standard {c : Instr} {s : State} {path : Path} {op : Nat} {body : Dev → Dev} {d' : Dev} (h : s.dev.takesStandard path op)
    (he : exec c s = onDev s fun d => d.standard path op body) (hb : body s.dev = d') : exec c s = .next (s.onto d') :=
  exec_onto he ((Dev.standard_runs _ _ _ _ h).trans hb)

/-- An add that is not refused offers its extents in the background (Table PB-9). -/
theorem exec_add {path : Path} {host : Fin 64} {region : Fin 2} {tag : BitVec 128} {extents ext : List (Nat × Nat)} {s : State}
    (h : s.dev.takesStandard path 0x5604) (hadd : s.dev.addRefusal path host region tag.toNat extents = none)
    (hext : asBlocks extents = some ext) :
    exec (.initiateDynamicCapacityAdd path host region tag extents) s =
      .next (s.onto ((s.dev.bgStart path 0x5604).offer path host region tag.toNat ext)) :=
  exec_standard h (exec_initiateDynamicCapacityAdd path host region tag extents s) (by simp only [hadd, hext, Option.getD_some]; rfl)

/-- A response that names extents accepts them and withdraws the others (Table PB-9). -/
theorem exec_response {p : Fin 64} {accepted : List (Nat × Nat)} {es : List Extent} {s : State}
    (h : s.dev.takesStandard (.pool p) 0x4802) (hnamed : s.dev.namedExtents p true accepted = some es) :
    exec (.addDynamicCapacityResponse p accepted) s =
      .next (s.onto (((((es.foldl (fun (d : Dev) e => d.acceptExtent e) s.dev).offersTo p).foldl (fun (d : Dev) e => d.withdraw e true)
        (es.foldl (fun (d : Dev) e => d.acceptExtent e) s.dev)).dcSettle p).complete (.pool p) 0x4802 0 0 [])) :=
  exec_standard h (exec_addDynamicCapacityResponse p accepted s) (by simp only [hnamed]; rfl)

/-- A release that is not refused begins in the background and asks the host (Table PB-10). -/
theorem exec_release {path : Path} {host : Fin 64} {extents : List (Nat × Nat)} {es : List Extent} {s : State}
    (h : s.dev.takesStandard path 0x5605) (hrelease : s.dev.releaseRefusal path host extents = none)
    (hnamed : s.dev.namedExtents host false extents = some es) :
    exec (.initiateDynamicCapacityRelease path host extents) s =
      .next (s.onto (es.foldl (fun (d : Dev) e => d.hostEvent host 4 1 (e.first * 2 ^ 26) (e.count * 2 ^ 26) e.tag)
        ((s.dev.bgStart path 0x5605).releaseBegins path host es))) :=
  exec_standard h (exec_initiateDynamicCapacityRelease path host extents s) (by simp only [hrelease, hnamed, Option.getD_some]; rfl)

/-- A forced one releases the extents itself (R57). -/
theorem exec_forcedRelease_named {path : Path} {host : Fin 64} {extents : List (Nat × Nat)} {es : List Extent} {s : State}
    (h : s.dev.takesStandard path 0x5605) (hrelease : s.dev.releaseRefusal path host extents = none)
    (hnamed : s.dev.namedExtents host false extents = some es) :
    exec (.forcedRelease path host extents) s =
      .next (s.onto ((es.foldl (fun (d : Dev) e => d.forceRelease e (.dc host.val))
        ((s.dev.bgStart path 0x5605).releaseBegins path host [])).dcSettle host)) :=
  exec_standard h (exec_forcedRelease path host extents s) (by simp only [hrelease, hnamed, Option.getD_some]; rfl)

/-- A host's own release (Table PB-10). -/
theorem exec_hostRelease {p : Fin 64} {extents : List (Nat × Nat)} {es : List Extent} {s : State}
    (h : s.dev.takesStandard (.pool p) 0x4803) (hnamed : s.dev.namedExtents p false extents = some es) :
    exec (.releaseDynamicCapacity p extents) s =
      .next (s.onto (((es.foldl (fun (d : Dev) e => d.hostReleases p e) s.dev).dcSettle p).complete (.pool p) 0x4803 0 0 [])) :=
  exec_standard h (exec_releaseDynamicCapacity p extents s) (by simp only [hnamed]; rfl)

/-- A message that a fold sends at one of its elements is sent when the fold ends. -/
theorem mem_foldl_out {α : Type} {f : Dev → α → Dev} (h : ∀ d x, d.out <+: (f d x).out) {l : List α} {x : α} (hx : x ∈ l) {o : Out}
    (ho : ∀ d, o ∈ (f d x).out) (d : Dev) : o ∈ (l.foldl f d).out :=
  foldl_reaches (I := fun _ => True) (P := fun d : Dev => o ∈ d.out) hx (fun _ _ _ => trivial) (fun d _ => ho d)
    (fun d y hd => (h d y).subset hd) trivial

/-- Settles O15: each command's rule names the extents that it takes off the list or puts on it; accesses of the slot table and the block
map, fences that are queued and operations that complete keep the list. -/
theorem dynamicCapacityIsOfferedAndReleased : Obligations.DynamicCapacityIsOfferedAndReleased := by
  unfold Obligations.DynamicCapacityIsOfferedAndReleased
  refine ⟨fun path host region tag extents ext s h hadd hext => exec_add h hadd hext,
    fun path host region tag extents f n i r s h hadd hext hnamed => yields_of_eq (exec_add h hadd hext) ?offered,
    fun p accepted es s h hnamed => exec_response h hnamed,
    fun p accepted e path s h hnamed hextents hop => yields_of_eq (exec_response h hnamed) ?accepted,
    fun p s hfw => yields_of_eq (exec_onto (exec_offerTimeout p s) (if_neg (by simp [hfw]))) ?timeout,
    fun p s hfw => exec_onto (exec_offerTimeout p s) (if_pos (by simp [hfw])),
    fun path host extents es s h hrelease hnamed => yields_of_eq (exec_release h hrelease hnamed) ?asked,
    fun path host extents es s h hrelease hnamed => yields_of_eq (exec_forcedRelease_named h hrelease hnamed) ?forced,
    fun p extents es s h hnamed => yields_of_eq (exec_hostRelease h hnamed) ?released⟩
  case offered =>
    have hnamed' : (s.dev.bgStart path 0x5604).tagDomain tag.toNat = some (i, r) := by
      rw [Dev.tagDomain_congr (Dev.bgStart_pool _ _ _), hnamed]
    have hlength := Dev.length_of_addRefusal hadd hext hnamed
    rw [Dev.offer_tagged hnamed' hlength]
    obtain ⟨hextents, hops, hdomains, hblocks, hout, hevent⟩ := Dev.offerExtent_held { s.dev.bgStart path 0x5604 with
      pool := { (s.dev.bgStart path 0x5604).pool with dcOps := tset (s.dev.bgStart path 0x5604).pool.dcOps host.val ⟨true, path, [], 0⟩ } }
      host region tag.toNat f i r.blocks
    simp only [Dev.shown_pool]
    refine ⟨?_, ?_, ?_, ?_, Dev.mem_shown (hout.subset (Dev.mem_bgStart _ _ _)), Dev.mem_shown hevent⟩
    · rw [hextents, hlength, Dev.bgStart_pool]
    · rw [hops, tget_tset_same]
    · rw [hdomains, Dev.bgStart_pool]
    · rw [hblocks, Dev.bgStart_pool]
  case accepted =>
    obtain ⟨hlisted, hops, hqueue, hmgmt⟩ := s.dev.acceptExtent_lists e
    rw [hextents, List.map_singleton, if_pos rfl] at hlisted
    have hoffers : (s.dev.acceptExtent e).offersTo p = [] := by
      unfold Dev.offersTo Dev.extentsOf
      rw [hlisted]
      simp
    have hsettle := Dev.dcSettle_completes (d := s.dev.acceptExtent e) (p := p.val) (by rw [hops, hop]) (by simp [hlisted])
    simp only [List.foldl_cons, List.foldl_nil, hoffers, hsettle, Dev.shown_pool, Dev.complete_pool, Dev.bgResult_pool, Dev.shown_mgmt,
      Dev.complete_mgmt_bg, Dev.bg_bgResult]
    refine ⟨hlisted, tget_tdel_same _ _, hqueue, Dev.replied_end (by decide), fun b hb => ?_⟩
    rw [hmgmt, hb]
    rfl
  case timeout =>
    rw [Dev.shown_pool, (Dev.listed_dcSettle _ _).extents, extents_foldl fun d e => (d.listed_withdraw e true).extents]
    refine List.filter_congr fun x hx => ?_
    by_cases hport : x.port = p.val <;> by_cases hoffered : x.offered <;>
      simp [Dev.offersTo, Dev.extentsOf, hx, hport, hoffered]
  case asked =>
    have hevents : ∀ (l : List Extent) (x : Dev),
        (l.foldl (fun (d : Dev) e => d.hostEvent host 4 1 (e.first * 2 ^ 26) (e.count * 2 ^ 26) e.tag) x).pool = x.pool :=
      fun l => foldl_frame Dev.pool _ l fun d e => by simp
    have hout := fun (d : Dev) (e : Extent) => d.out_hostEvent host 4 1 (e.first * 2 ^ 26) (e.count * 2 ^ 26) e.tag
    simp only [Dev.shown_pool, hevents, Dev.releaseBegins, Dev.bgStart_pool]
    exact ⟨tget_tset_same _ _ _, trivial, trivial, Dev.mem_shown ((foldl_out _ es hout _).subset (Dev.mem_bgStart _ _ _)),
      fun e he => Dev.mem_shown (mem_foldl_out hout he (fun d => Dev.mem_emit _ _) _)⟩
  case forced =>
    have hout := fun (d : Dev) (e : Extent) => (d.listed_forceRelease e host.val).out
    have hsettle := fun x : Dev => x.listed_dcSettle host
    refine ⟨?_, Dev.mem_shown ((hsettle _).out.subset ((foldl_out _ es hout _).subset (Dev.mem_bgStart _ _ _))),
      fun e he => Dev.mem_shown ((hsettle _).out.subset (mem_foldl_out hout he (fun d => ?_) _))⟩
    · rw [Dev.shown_pool, (hsettle _).extents, extents_foldl fun d e => (d.listed_forceRelease e host.val).extents,
        (Dev.listed_releaseBegins _ _ _ _).extents, Dev.bgStart_pool]
    · rw [← Dev.port_of_named hnamed e he]
      exact Dev.mem_emit _ _
  case released =>
    refine ⟨?_, Dev.replied_end (by decide)⟩
    rw [Dev.shown_pool, Dev.complete_pool, (Dev.listed_dcSettle _ _).extents,
      extents_foldl fun d e => (d.listed_hostReleases p.val e).extents]

end Sys2Proof.Machine
end

section
/-! PROOFS. Exports: requests that are taken, domains that are made, and O18. -/

namespace Sys2Proof.Machine

/-! ### Requests and their answers (R278) -/

/-- A taken request leaves the fabric state alone changed. -/
theorem Dev.takeRequest_fab {d d1 : Dev} {dev : DeviceId} {tag mtype : Nat} {r : MgmtReq} (h : d.takeRequest dev tag mtype = some (r, d1)) :
    ∃ f : FabState, d1 = { d with fab := f } := by
  unfold Dev.takeRequest at h
  obtain ⟨r', _, hr⟩ := Option.map_eq_some_iff.1 h
  exact ⟨_, (congrArg Prod.snd hr).symm⟩

/-- So does one whose answer is no longer waited for. -/
theorem Dev.expireRequest_fab {d d1 : Dev} {tag mtype : Nat} {r : MgmtReq} (h : d.expireRequest tag mtype = some (r, d1)) :
    ∃ f : FabState, d1 = { d with fab := f } := by
  unfold Dev.expireRequest at h
  split at h
  · exact Dev.takeRequest_fab h
  · cases h

theorem Dev.hub_bgStart (d : Dev) (path : Path) (op : Nat) : (d.bgStart path op).hub = d.hub :=
  Dev.hub_congr (d.reg_bgStart _ _ _ rfl rfl) (by simp) (by simp)
theorem Dev.hub_complete (d : Dev) (path : Path) (op rc v : Nat) (l : List Byte) : (d.complete path op rc v l).hub = d.hub :=
  Dev.hub_congr (d.reg_complete _ _ _ _ _ _ rfl rfl) (by simp) (by simp)

/-- A value that a choice makes from a list that is not empty is of that list. -/
theorem Dev.choose_mem {α : Type} (d : Dev) {l : List α} (h : l ≠ []) :
    ∃ x ∈ l, d.choose l = (some x, (d.choose l).2) := by
  match l, h with
  | [x], _ => exact ⟨x, by simp, rfl⟩
  | x :: y :: r, _ =>
    have hlt : Config.freeNat d.free % (x :: y :: r).length < (x :: y :: r).length := Nat.mod_lt _ (by simp)
    exact ⟨_, List.getElem_mem hlt, Prod.ext (List.getElem?_eq_getElem hlt) rfl⟩

/-! ### A domain that is made (R47) -/

theorem Dev.keyvRun_frame (d : Dev) : d.keyvRun.pool = d.pool ∧ d.keyvRun.fab = d.fab ∧ d.keyvRun.hub = d.hub := by
  have hreg : d.keyvRun.reg .retireStatus = d.reg .retireStatus := by
    unfold Dev.keyvRun
    split_ifs
    · exact d.reg_wr_steady _ _ _ rfl rfl
    · rfl
  have hpool : d.keyvRun.pool = d.pool := by
    unfold Dev.keyvRun
    split_ifs <;> rfl
  refine ⟨hpool, ?_, Dev.hub_congr hreg (by rw [hpool]) (by rw [hpool])⟩
  unfold Dev.keyvRun
  split_ifs <;> rfl

/-- A created domain is recorded; the hub structures and the requests stay. -/
theorem Dev.createDomain_records {d d2 : Dev} {r : DomainRec} {i : Nat} (h : d.createDomain r = (some i, d2)) :
    tget d2.pool.domains i = some r ∧ d2.fab = d.fab ∧ d2.hub = d.hub := by
  obtain ⟨hpool, hfab, hhub⟩ := d.keyvRun_frame
  unfold Dev.createDomain at h
  split at h
  · split_ifs at h
    · cases h
      refine ⟨tget_tset_same _ _ _, hfab, ?_⟩
      rw [← hhub]
      refine Dev.hub_congr ?_ rfl rfl
      unfold Dev.setDomain Dev.setKeySlot
      rw [Dev.reg_mk, Dev.reg_showKeys _ _ rfl, Dev.reg_mk, Dev.reg_mk]
    · cases h
  · cases h

/-! ### Changes of the hub structures -/

theorem Dev.modHub_records (d : Dev) (f : HubTables → HubTables) : (d.modHub f).pool.domains = d.pool.domains ∧
    (d.modHub f).pool.fenceQueue = d.pool.fenceQueue ∧ (d.modHub f).pool.blocks = d.pool.blocks ∧
    (d.modHub f).pool.keys = d.pool.keys := by
  obtain ⟨a, b, hpool⟩ := d.modHub_pool f
  rw [hpool]
  exact ⟨rfl, rfl, rfl, rfl⟩

/-- What an importer's acknowledgement makes: the blocks are written, then the record (R65). -/
def Dev.exportMade (d : Dev) (r : MgmtReq) (src : DeviceId) (dom : Nat) : Dev :=
  (r.blocks.foldl (fun (d : Dev) b => d.updateBlock b (d.allotted b dom 2 r.coherent)) d).modHub fun h =>
    { h with exports := h.exports ++ [⟨r.exportId, src, dom, r.coherent, false, false, r.blocks⟩] }

theorem Dev.exportMade_records (d : Dev) (r : MgmtReq) (src : DeviceId) (dom : Nat) :
    (d.exportMade r src dom).hub.exports = d.hub.exports ++ [⟨r.exportId, src, dom, r.coherent, false, false, r.blocks⟩] ∧
      (d.exportMade r src dom).pool.domains = d.pool.domains ∧ (d.exportMade r src dom).fab = d.fab := by
  have hrows : d.Rows (r.blocks.foldl (fun (d : Dev) b => d.updateBlock b (d.allotted b dom 2 r.coherent)) d) :=
    .foldl (fun d b => d.rows_updateBlock b _) r.blocks d
  obtain ⟨_, _, hdomains, _, _⟩ := hrows.fields
  unfold Dev.exportMade
  refine ⟨?_, ?_, ?_⟩
  · rw [Dev.hub_modHub, hrows.hub]
  · rw [(Dev.modHub_records _ _).1, hdomains]
  · rw [(Dev.modHub_frame _ _).2.1, hrows.fab]

/-- A change of one record of the exports and the answer to its importer (R66, R67). -/
theorem Dev.modExport_answers (d : Dev) (id : Nat) (f : ExportRec → ExportRec) (src : DeviceId) (tag mtype status : Nat) :
    let t := ((d.modExport id f).mgmtAnswer src tag mtype id status).shown
    t.fab.answered = (d.fab.answered.filter fun a => !decide (a.dev = src ∧ a.tag = tag)) ++ [⟨src, tag, mtype, status⟩] ∧
      t.hub.exports = (d.hub.exports.map fun x => if x.id = id then f x else x) ∧ t.hub.imports = d.hub.imports ∧
      t.pool.blocks = d.pool.blocks := by
  have hanswer := Dev.posts_mgmtAnswer (d.modExport id f) src tag mtype id status
  obtain ⟨_, hfab, _, _⟩ := d.modHub_frame fun h => { h with exports := h.exports.map fun (x : ExportRec) => if x.id = id then f x else x }
  obtain ⟨_, _, hblocks, _⟩ := d.modHub_records fun h => { h with exports := h.exports.map fun (x : ExportRec) => if x.id = id then f x else x }
  have hhub : (d.modExport id f).hub = { d.hub with exports := d.hub.exports.map fun (x : ExportRec) => if x.id = id then f x else x } :=
    d.hub_modHub _
  refine ⟨?_, ?_, ?_, ?_⟩
  · rw [Dev.shown_fab, (Dev.mgmtAnswer_does _ _ _ _ _ _).2, Dev.modExport, hfab]
  · rw [Dev.hub_shown, hanswer.hub, hhub]
  · rw [Dev.hub_shown, hanswer.hub, hhub]
  · rw [Dev.shown_pool, hanswer.pool]
    exact hblocks

/-- An answer alone. -/
theorem Dev.mgmtAnswer_shown (d : Dev) (src : DeviceId) (tag mtype id status : Nat) :
    let t := (d.mgmtAnswer src tag mtype id status).shown
    t.fab.answered = (d.fab.answered.filter fun a => !decide (a.dev = src ∧ a.tag = tag)) ++ [⟨src, tag, mtype, status⟩] ∧
      t.hub = d.hub ∧ t.pool = d.pool := by
  refine ⟨?_, ?_, ?_⟩
  · rw [Dev.shown_fab, (Dev.mgmtAnswer_does _ _ _ _ _ _).2]
  · rw [Dev.hub_shown, (Dev.posts_mgmtAnswer d src tag mtype id status).hub]
  · rw [Dev.shown_pool, (Dev.mgmtAnswer_does _ _ _ _ _ _).1]

/-! ### The commands and messages of exports -/

/-- A notice goes for free blocks under a free EXPORT_ID (R65). -/
theorem exec_export_notified {path : Path} {input : List Byte} {s : State} {id : Nat} (h : s.dev.takesStoluo path 0xC012)
    (hlength : input.length = 8) (hdev : field input 0 2 < 2048) (hcoh : field input 2 1 ≤ 1) (hsome : 1 ≤ field input 4 2)
    (hmost : field input 4 2 ≤ 1016) (hzero : field input 6 2 = 0)
    (hset : field input 3 1 = 0xFF ∨ ∃ x, s.dev.setDesc? (field input 3 1) = some x ∧ x.inService = true)
    (hpeer : field input 2 1 = 1 → s.dev.coherentPeer (field input 0 2) = true)
    (hroute : s.dev.hasRoute (field input 0 2) (decide (field input 2 1 = 1)) = true)
    (hfree : field input 4 2 ≤ (s.dev.exportable (field input 3 1)).length)
    (hready : (s.dev.fab.requests.filter fun r => decide (r.mtype = 5)).length < s.dev.readyDomains.length)
    (hroom : s.dev.hub.exports.length + (s.dev.fab.requests.filter fun r => decide (r.mtype = 5)).length < 256)
    (hid : s.dev.openNat.2.choose s.dev.exportIds = (some id, (s.dev.openNat.2.choose s.dev.exportIds).2)) :
    exec (.exportCreate path input) s = .next (s.onto ((s.dev.openNat.2.choose s.dev.exportIds).2.mgmtRequest
      ⟨0, BitVec.ofNat 11 (field input 0 2), 5, id, 0, decide (field input 2 1 = 1),
        ((s.dev.exportable (field input 3 1)).rotate s.dev.openNat.1).take (field input 4 2), some path, 0⟩)) := by
  refine exec_stoluo h (exec_exportCreate path input s) (by simp [hlength, hdev, hcoh, hsome, hmost, hzero]) ?_
  have hserves : (decide (field input 3 1 = 0xFF) || ((s.dev.setDesc? (field input 3 1)).map fun x => x.inService).getD false) = true := by
    obtain hall | ⟨x, hx, hin⟩ := hset
    · simp [hall]
    · simp [hx, hin]
  have hinput : ¬ ((decide (field input 2 1 = 1) && !s.dev.coherentPeer (field input 0 2)) ||
      !(decide (field input 3 1 = 0xFF) || ((s.dev.setDesc? (field input 3 1)).map fun x => x.inService).getD false)) = true := by
    rw [hserves]
    by_cases hone : field input 2 1 = 1
    · simp [hone, hpeer hone]
    · simp [hone]
  dsimp only
  rw [if_neg hinput, if_neg (by simp [hroute]), if_neg (by omega)]
  have hids : s.dev.openNat.2.exportIds = s.dev.exportIds := rfl
  rw [hids, hid]

/-- An importer that acknowledges a notice whose blocks are still FREE gets them exported (R65). -/
theorem exec_export_acknowledged {src : DeviceId} {tag : BitVec 16} {exportId : BitVec 12} {r : MgmtReq} {path : Path} {dom : Nat}
    {d1 d2 : Dev} {s : State} (htake : s.dev.takeRequest src tag.toNat 5 = some (r, d1)) (hpath : r.path = some path)
    (hfree : ∀ b ∈ r.blocks, (d1.blockEntry b).state = 0)
    (hmade : d1.createDomain ⟨.exported, 0, [], r.blocks, false⟩ = (some dom, d2)) :
    exec (.exportNoticeAck src tag exportId 0) s = .next (s.onto ((d2.exportMade r src dom).complete path 0xC012 0 0
      (toBytes 2 r.exportId ++ toBytes 2 dom ++ toBytes 2 r.blocks.length ++ toBytes 2 0 ++ blockBytes r.blocks))) := by
  have hnone : ¬ (r.blocks.any fun b => decide ((d1.blockEntry b).state ≠ 0)) = true := by simpa using hfree
  refine exec_onto (exec_exportNoticeAck src tag exportId 0 s) ?_
  simp only [htake, hpath, Option.getD_some]
  rw [if_neg (by decide), if_neg hnone, hmade]
  rfl

theorem exec_export_refused {src : DeviceId} {tag : BitVec 16} {exportId : BitVec 12} {status : Fin 3} {r : MgmtReq} {path : Path}
    {d1 : Dev} {s : State} (htake : s.dev.takeRequest src tag.toNat 5 = some (r, d1)) (hpath : r.path = some path)
    (hstatus : status.val ≠ 0) :
    exec (.exportNoticeAck src tag exportId status) s = .next (s.onto (d1.finish path 0xC012 7)) := by
  refine exec_onto (exec_exportNoticeAck src tag exportId status s) ?_
  simp only [htake, hpath, Option.getD_some]
  exact if_pos hstatus

theorem exec_export_expired {tag : BitVec 16} {r : MgmtReq} {path : Path} {d1 : Dev} {s : State}
    (hexpire : s.dev.expireRequest tag.toNat 5 = some (r, d1)) (hpath : r.path = some path) :
    exec (.exportNoticeWaitExpiry tag) s = .next (s.onto (d1.finish path 0xC012 10)) := by
  refine exec_onto (exec_exportNoticeWaitExpiry tag s) ?_
  simp only [hexpire, hpath, Option.getD_some]
  rfl

/-- A release marks the record (R67). -/
def Dev.exportReleasing (d : Dev) (id : Nat) : Dev :=
  d.modHub fun h => { h with exports := h.exports.map fun (y : ExportRec) => if y.id = id then { y with releasing := true } else y }

/-- A release that is not refused runs in the background: the importer of mapped blocks is asked, others are fenced. -/
theorem exec_export_released {path : Path} {input : List Byte} {x : ExportRec} {s : State} (h : s.dev.takesStoluo path 0xC013)
    (hlength : input.length = 4) (hzero : field input 2 2 = 0)
    (hfound : (s.dev.hub.exports.find? fun x => decide (x.id = field input 0 2)) = some x) (hopen : x.releasing = false)
    (hidle : tget s.dev.mgmt.bg path = none) :
    exec (.exportRelease path input) s = .next (s.onto
      (if x.mapped then ((s.dev.bgStart path 0xC013).exportReleasing (field input 0 2)).mgmtRequest
          ⟨0, x.importer, 3, field input 0 2, x.domain, x.coherent, [], some path, 0⟩
        else ((s.dev.bgStart path 0xC013).exportReleasing (field input 0 2)).fenceExport (field input 0 2) (some path) false)) := by
  refine exec_stoluo h (exec_exportRelease path input s) (by simp [hlength, hzero]) ?_
  simp only [hfound]
  rw [if_neg (by simp [hopen])]
  exact Dev.background_runs _ _ _ _ hidle

/-! ### The obligation -/

/-- Settles O18: each message's rule is an equation; rows, hub structures and messages leave the rest of the pool alone. -/
theorem exportsAreMadeAndReleased : Obligations.ExportsAreMadeAndReleased := by
  unfold Obligations.ExportsAreMadeAndReleased
  refine ⟨?create, fun src tag exportId r path dom d1 d2 s htake hpath hfree hmade => ?made,
    fun src tag exportId status r path d1 s htake hpath hstatus => ?refused,
    fun tag r path d1 s hexpire hpath => ?expired,
    fun path input x s h hlength hzero hfound hopen hidle hmapped =>
      yields_of_eq (exec_export_released h hlength hzero hfound hopen hidle) ?asked,
    fun path input x s h hlength hzero hfound hopen hidle hmapped => ?fenced,
    fun src tag exportId status r d1 s htake => exec_onto (exec_importUnmapped src tag exportId status s) (by simp only [htake]),
    fun tag r d1 s hexpire => exec_onto (exec_importUnmappedWaitExpiry tag s) (by simp only [hexpire]),
    fun src tag exportId domain coherent blocks s hnew => ?bound,
    fun src tag exportId s hnew => ?dropped⟩
  case create =>
    intro path input s h hlength hdev hcoh hsome hmost hzero hset hpeer hroute hfree hready hroom hids
    obtain ⟨id, hmem, hid⟩ := s.dev.openNat.2.choose_mem hids
    have hexec := exec_export_notified h hlength hdev hcoh hsome hmost hzero hset hpeer hroute hfree hready hroom hid
    have hposts := Dev.posts_mgmtRequest (s.dev.openNat.2.choose s.dev.exportIds).2
    refine yields_of_eq hexec ⟨⟨id, hmem, s.dev.openNat.1, ?_⟩, ?_, ?_, ?_⟩
    · rw [Dev.shown_fab, (Dev.mgmtRequest_does _ _).2]
      simp
    · rw [Dev.shown_pool, (hposts _).pool]
      simp
    · rw [Dev.shown_dir, (hposts _).dir]
      simp
    · rw [Dev.shown_mgmt, (hposts _).mgmt]
      simp
  case made =>
    obtain ⟨f, rfl⟩ := Dev.takeRequest_fab htake
    obtain ⟨hdomain, hfab, hhub⟩ := Dev.createDomain_records hmade
    obtain ⟨hexports, hdomains, hrequests⟩ := d2.exportMade_records r src dom
    refine yields_of_eq (exec_export_acknowledged htake hpath hfree hmade) ⟨?_, ?_, ?_, Dev.replied_end (by decide)⟩
    · rw [Dev.hub_shown, Dev.hub_complete, hexports, hhub]
      rfl
    · rw [Dev.shown_pool, Dev.complete_pool, hdomains, hdomain]
    · rw [Dev.shown_fab, Dev.complete_fab, hrequests, hfab]
  case refused =>
    obtain ⟨f, rfl⟩ := Dev.takeRequest_fab htake
    exact yields_of_eq (exec_export_refused htake hpath hstatus) ⟨by simp, by simp, Dev.replied_finish (by decide)⟩
  case expired =>
    obtain ⟨f, rfl⟩ := Dev.expireRequest_fab hexpire
    exact yields_of_eq (exec_export_expired hexpire hpath) ⟨Dev.replied_finish (by decide), by simp, by simp⟩
  case asked =>
    rw [if_pos hmapped]
    have hposts := Dev.posts_mgmtRequest ((s.dev.bgStart path 0xC013).exportReleasing (field input 0 2))
      ⟨0, x.importer, 3, field input 0 2, x.domain, x.coherent, [], some path, 0⟩
    obtain ⟨_, hfab, _, hout⟩ := (s.dev.bgStart path 0xC013).modHub_frame fun h => { h with
      exports := h.exports.map fun (y : ExportRec) => if y.id = field input 0 2 then { y with releasing := true } else y }
    refine ⟨?_, ?_, ?_, Dev.mem_shown (hposts.out.subset (hout.subset (Dev.mem_bgStart _ _ _)))⟩
    · rw [Dev.hub_shown, hposts.hub, Dev.exportReleasing, Dev.hub_modHub, Dev.hub_bgStart]
    · rw [Dev.shown_fab, (Dev.mgmtRequest_does _ _).2, Dev.exportReleasing, hfab, Dev.bgStart_fab]
    · rw [Dev.shown_pool, hposts.pool, Dev.exportReleasing, (Dev.modHub_records _ _).2.1, Dev.bgStart_pool]
  case fenced =>
    rw [exec_export_released h hlength hzero hfound hopen hidle, if_neg (by simp [hmapped])]
    rfl
  case bound =>
    refine yields_onDev (exec_importBind src tag exportId domain coherent blocks s) ?_
    simp only [hnew]
    cases hfound : s.dev.hub.exports.find? fun x => decide (x.id = exportId.toNat) with
    | none =>
      obtain ⟨hanswer, hhub, hpool⟩ := s.dev.mgmtAnswer_shown src tag.toNat 2 exportId.toNat 2
      exact ⟨hanswer, congrArg HubTables.exports hhub, congrArg HubTables.imports hhub, by rw [hpool]⟩
    | some x =>
      by_cases hmatch : x.releasing = false ∧ x.importer = src ∧ x.domain = domain.toNat ∧ x.coherent = coherent ∧
          sameBlocks x.blocks blocks = true
      · simp only [if_pos hmatch]
        obtain ⟨hanswer, hexports, himports, hblocks⟩ :=
          s.dev.modExport_answers exportId.toNat (fun x => { x with mapped := true }) src tag.toNat 2 0
        exact ⟨hanswer, by simpa using hexports, himports, hblocks⟩
      · simp only [if_neg hmatch]
        obtain ⟨hanswer, hhub, hpool⟩ := s.dev.mgmtAnswer_shown src tag.toNat 2 exportId.toNat 1
        exact ⟨hanswer, congrArg HubTables.exports hhub, congrArg HubTables.imports hhub, by rw [hpool]⟩
  case dropped =>
    refine yields_onDev (exec_importDropped src tag exportId s) ?_
    simp only [hnew]
    cases hknown : s.dev.hub.exports.any fun x => decide (x.id = exportId.toNat ∧ x.importer = src) with
    | true =>
      obtain ⟨hanswer, hexports, himports, _⟩ :=
        s.dev.modExport_answers exportId.toNat (fun x => { x with mapped := false }) src tag.toNat 8 0
      exact ⟨hanswer, hexports, himports⟩
    | false =>
      obtain ⟨hanswer, hhub, _⟩ := s.dev.mgmtAnswer_shown src tag.toNat 8 exportId.toNat 2
      exact ⟨hanswer, congrArg HubTables.exports hhub, congrArg HubTables.imports hhub⟩

end Sys2Proof.Machine
end

section
/-! PROOFS. Imports: the numbers and conditions of a remote map, notices that nothing holds up, and O19. -/

namespace Sys2Proof.Machine

/-! ### What a remote map looks at (R66, R295) -/

theorem Dev.freeNumbers_congr {d d' : Dev} (h : d'.hub = d.hub) (fuel b n : Nat) : d'.freeNumbers fuel b n = d.freeNumbers fuel b n := by
  have hused : ∀ x, d'.numberUsed x = d.numberUsed x := fun x => by rw [Dev.numberUsed, h, Dev.numberUsed]
  induction fuel generalizing b n with
  | zero => rfl
  | succ fuel ih => simp only [Dev.freeNumbers, hused, ih]

theorem Dev.localNumbers_congr {d d' : Dev} (h : d'.hub = d.hub) (coherent : Bool) (blocks : List Nat) :
    d'.localNumbers coherent blocks = d.localNumbers coherent blocks := by
  unfold Dev.localNumbers
  rw [Dev.freeNumbers_congr h]

/-- A remote map is refused by the pool and the hub structures alone. -/
theorem Dev.mapRefusal_congr {d d' : Dev} (hhub : d'.hub = d.hub) (hpool : d'.pool = d.pool) (home : DeviceId) (id : Nat) (coherent : Bool)
    (tag : Nat) (blocks : List Nat) : d'.mapRefusal home id coherent tag blocks = d.mapRefusal home id coherent tag blocks := by
  have hused : d'.numberUsed = d.numberUsed := funext fun x => by rw [Dev.numberUsed, hhub, Dev.numberUsed]
  have hready : d'.readyDomains = d.readyDomains := by unfold Dev.readyDomains Dev.domain; rw [hpool]
  unfold Dev.mapRefusal
  rw [hhub, Dev.tagDomain_congr hpool, hused, hready, Dev.localNumbers_congr hhub]

/-! ### An import that begins (R66) -/

/-- The import and its proxy domain are recorded; no key slot changes. -/
theorem Dev.importBegins_records (d : Dev) (r : MgmtReq) (proxy : Nat) (nums : List Nat) :
    (d.importBegins r proxy nums).hub.imports =
        d.hub.imports ++ [⟨r.dev, r.exportId, r.domain, proxy, r.coherent, r.tagBytes, r.blocks.zip nums, []⟩] ∧
      tget (d.importBegins r proxy nums).pool.domains proxy = some ⟨.proxy, r.tagBytes, [], nums, false⟩ ∧
      (d.importBegins r proxy nums).pool.keys = d.pool.keys ∧ (d.importBegins r proxy nums).fab = d.fab := by
  have hrows : ∀ (l : List (Nat × Nat)) (x : Dev), x.Rows (l.foldl (fun (d : Dev) x =>
      (d.writeBlock x.2 (mkBlock proxy 2 true r.coherent 0 0 r.dev.toNat x.1 r.domain)).invalidateBlock x.2) x) :=
    Dev.Rows.foldl fun x b => (x.rows_writeBlock _ _).trans (Dev.rows_invalidateBlock _ _)
  unfold Dev.importBegins
  extract_lets pairs written i made
  have hwritten : d.Rows written := hrows pairs d
  have hhub : (made.setDomain proxy ⟨.proxy, r.tagBytes, [], nums, false⟩).hub = made.hub := Dev.hub_congr rfl rfl rfl
  obtain ⟨_, _, _, hkeys⟩ := written.modHub_records fun h => { h with imports := h.imports ++ [i] }
  obtain ⟨_, hfab, _, _⟩ := written.modHub_frame fun h => { h with imports := h.imports ++ [i] }
  exact ⟨by rw [hhub, Dev.hub_modHub, hwritten.hub], tget_tset_same _ _ _, hkeys.trans hwritten.keys, hfab.trans hwritten.fab⟩

/-! ### Notices (R67) -/

/-- No import of a home is stale where none names one of the blocks. -/
theorem notStale {imports : List ImportRec} {home : DeviceId} {blocks : List Nat}
    (hfresh : ∀ i ∈ imports, i.homeDev = home → ∀ b ∈ i.blocks, b.1 ∉ blocks) :
    ∀ i ∈ imports, ¬ (decide (i.homeDev = home) && i.blocks.any fun b => blocks.contains b.1) = true := by
  intro i hi hstale
  simp only [Bool.and_eq_true, decide_eq_true_eq, List.any_eq_true, List.contains_iff_mem] at hstale
  obtain ⟨hhome, b, hb, hmem⟩ := hstale
  exact hfresh i hi hhome b hb hmem

/-- A notice whose blocks no import of its home names is answered at once. -/
theorem Dev.answerNotices_one {d : Dev} {n : Notice} (hnotices : d.pool.notices = [n])
    (hfresh : ∀ i ∈ d.hub.imports, i.homeDev = n.home → ∀ b ∈ i.blocks, b.1 ∉ n.blocks) :
    d.answerNotices = Dev.mgmtAnswer { d with pool := { d.pool with notices := [] } } n.home n.tag 6 n.exportId 0 := by
  unfold Dev.answerNotices
  extract_lets stale ready
  have hstale : stale n = false := List.any_eq_false.2 (notStale hfresh)
  have hready : ready = [n] := by simp [ready, hnotices, hstale]
  have hleft : d.pool.notices.filter stale = [] := by simp [hnotices, hstale]
  rw [hready, hleft, List.foldl_cons, List.foldl_nil]

/-- The first notice that a device holds leaves its pool as it was. -/
theorem Dev.answerNotices_first {d : Dev} {n : Notice} (hnone : d.pool.notices = [])
    (hfresh : ∀ i ∈ d.hub.imports, i.homeDev = n.home → ∀ b ∈ i.blocks, b.1 ∉ n.blocks) :
    Dev.answerNotices { d with pool := { d.pool with notices := d.pool.notices ++ [n] } } = d.mgmtAnswer n.home n.tag 6 n.exportId 0 := by
  have hhub : Dev.hub { d with pool := { d.pool with notices := d.pool.notices ++ [n] } } = d.hub := Dev.hub_congr rfl rfl rfl
  have hback : ({ d with pool := { d.pool with notices := [] } } : Dev) = d := by rw [← hnone]
  rw [Dev.answerNotices_one (n := n) (by simp [hnone]) (by rw [hhub]; exact hfresh)]
  exact congrArg (fun x : Dev => x.mgmtAnswer n.home n.tag 6 n.exportId 0) hback

/-! ### The commands and messages of an import -/

/-- A request goes for a remote map that nothing refuses (R66). -/
theorem exec_remote_mapped {path : Path} {input : List Byte} {s : State} (h : s.dev.takesStoluo path 0xC014)
    (hok : (decide (field input 0 2 < 2048 ∧ field input 2 2 < 4096 ∧ field input 4 2 < 4096 ∧ field input 6 1 ≤ 1 ∧ field input 7 1 = 0 ∧
      field input 26 6 = 0 ∧ 1 ≤ field input 24 2 ∧ field input 24 2 ≤ 1016 ∧ input.length = 32 + 4 * field input 24 2) &&
        (mapBlocks input).all fun b => decide (b < 2 ^ 20)) = true)
    (hpeer : decide (field input 6 1 = 1) = true → s.dev.coherentPeer (field input 0 2) = true)
    (hfirst : ∀ r ∈ s.dev.fab.requests,
      ¬(r.mtype = 1 ∧ r.dev = BitVec.ofNat 11 (field input 0 2) ∧ r.exportId = field input 2 2))
    (hmap : s.dev.mapRefusal (BitVec.ofNat 11 (field input 0 2)) (field input 2 2) (decide (field input 6 1 = 1)) (field input 8 16)
      (mapBlocks input) = none) :
    exec (.remoteMap path input) s = .next (s.onto (s.dev.mgmtRequest ⟨0, BitVec.ofNat 11 (field input 0 2), 1, field input 2 2,
      field input 4 2, decide (field input 6 1 = 1), mapBlocks input, some path, field input 8 16⟩)) := by
  have hvalid : ¬ (decide (field input 6 1 = 1) && !s.dev.coherentPeer (field input 0 2)) = true := by
    intro hbad
    obtain ⟨hone, hno⟩ := Bool.and_eq_true_iff.1 hbad
    simp [hpeer hone] at hno
  have hidle : ¬ (s.dev.fab.requests.any fun r =>
      decide (r.mtype = 1 ∧ r.dev = BitVec.ofNat 11 (field input 0 2) ∧ r.exportId = field input 2 2)) = true := by
    intro hany
    obtain ⟨r, hr, hsame⟩ := List.any_eq_true.1 hany
    exact hfirst r hr (of_decide_eq_true hsame)
  refine exec_stoluo h (exec_remoteMap path input s) hok ?_
  dsimp only
  rw [if_neg hvalid, if_neg hidle, hmap]

/-- A home that accepts gets an import where nothing has come to refuse it since the request went (R66). -/
theorem exec_import_acknowledged {src : DeviceId} {tag : BitVec 16} {exportId : BitVec 12} {r : MgmtReq} {path : Path} {proxy : Nat}
    {d1 : Dev} {s : State} (htake : s.dev.takeRequest src tag.toNat 1 = some (r, d1)) (hpath : r.path = some path)
    (hmap : d1.mapRefusal r.dev r.exportId r.coherent r.tagBytes r.blocks = none) (hproxy : d1.readyDomains.head? = some proxy) :
    exec (.importBindAck src tag exportId 0) s = .next (s.onto
      ((d1.importBegins r proxy (d1.localNumbers r.coherent r.blocks)).complete path 0xC014 0 0
        (toBytes 2 proxy ++ toBytes 2 0 ++ blockBytes (d1.localNumbers r.coherent r.blocks)))) := by
  refine exec_onto (exec_importBindAck src tag exportId 0 s) ?_
  simp only [htake, hpath, Option.getD_some, hmap, hproxy]
  exact if_neg (by decide)

theorem exec_import_refused {src : DeviceId} {tag : BitVec 16} {exportId : BitVec 12} {status : Fin 3} {r : MgmtReq} {path : Path}
    {d1 : Dev} {s : State} (htake : s.dev.takeRequest src tag.toNat 1 = some (r, d1)) (hpath : r.path = some path)
    (hstatus : status.val ≠ 0) :
    exec (.importBindAck src tag exportId status) s = .next (s.onto (d1.complete path 0xC014 11 status.val [])) := by
  refine exec_onto (exec_importBindAck src tag exportId status s) ?_
  simp only [htake, hpath, Option.getD_some]
  exact if_pos hstatus

theorem exec_import_expired {tag : BitVec 16} {r : MgmtReq} {path : Path} {d1 : Dev} {s : State}
    (hexpire : s.dev.expireRequest tag.toNat 1 = some (r, d1)) (hpath : r.path = some path) :
    exec (.importBindWaitExpiry tag) s = .next (s.onto (d1.finish path 0xC014 10)) := by
  refine exec_onto (exec_importBindWaitExpiry tag s) ?_
  simp only [hexpire, hpath, Option.getD_some]
  rfl

/-- A new notice that no import of its home holds up is answered at once (R67). -/
theorem exec_notice_answered {src : DeviceId} {tag : BitVec 16} {exportId domain : BitVec 12} {coherent : Bool} {blocks : List Nat}
    {s : State} (hnew : s.dev.answeredBefore src tag.toNat 6 = none) (hnotices : s.dev.pool.notices = [])
    (hfresh : ∀ i ∈ s.dev.hub.imports, i.homeDev = src → ∀ b ∈ i.blocks, b.1 ∉ blocks) :
    exec (.exportNotice src tag exportId domain coherent blocks) s =
      .next (s.onto (s.dev.mgmtAnswer src tag.toNat 6 exportId.toNat 0)) := by
  refine exec_onto (exec_exportNotice src tag exportId domain coherent blocks s) ?_
  simp only [hnew]
  rw [if_neg (by simp [hnotices]), List.filter_eq_nil_iff.2 (notStale hfresh), List.foldl_nil]
  exact Dev.answerNotices_first (n := ⟨src, tag.toNat, exportId.toNat, blocks⟩) hnotices hfresh

/-! ### The obligation -/

/-- Settles O19: each message's rule is an equation; a begun import is recorded beside rows of the block map, and a message sent leaves
the pool alone. -/
theorem importsAreMadeAndEnded : Obligations.ImportsAreMadeAndEnded := by
  unfold Obligations.ImportsAreMadeAndEnded
  refine ⟨?mapped, fun src tag exportId r path proxy d1 s htake hpath hmap hproxy => ?made,
    fun src tag exportId status r path d1 s htake hpath hstatus => ?refused,
    fun tag r path d1 s hexpire hpath => ?expired,
    fun path input i s h hlength hdev hfound hopen hidle => ?unmapped,
    fun src tag exportId i s hnew hfound hfirst => exec_onto (exec_importUnmapRequest src tag exportId s) ?ended,
    fun src tag exportId s hnew hnone => ?unknown,
    fun src tag exportId domain coherent blocks s hnew hnotices hfresh => ?noticed,
    fun src tag exportId domain coherent blocks s hnew hfirst =>
      exec_onto (exec_exportNotice src tag exportId domain coherent blocks s) ?stale,
    fun src tag exportId status r d1 s htake => exec_onto (exec_importDroppedAck src tag exportId status s) (by simp only [htake]),
    fun tag r s hfound => exec_onto (exec_mgmtRequestRepeat tag s) (by simp only [hfound]),
    fun src mtype s hreserved => exec_onto (exec_mgmtReservedType src mtype s) (if_pos hreserved),
    fun src mtype s hzero hlt => exec_onto (exec_mgmtReservedType src mtype s) (if_neg fun h => h.elim hzero (by omega))⟩
  case mapped =>
    intro path input s h hdev hid hdom hcoh hzero hzeros hsome hmost hlength hblocks dev coh hpeer hfirst hmap
    have hall : (mapBlocks input).all (fun b => decide (b < 2 ^ 20)) = true := List.all_eq_true.2 fun b hb => decide_eq_true (hblocks b hb)
    have hexec := exec_remote_mapped h (Bool.and_eq_true_iff.2
      ⟨decide_eq_true ⟨hdev, hid, hdom, hcoh, hzero, hzeros, hsome, hmost, hlength⟩, hall⟩) hpeer hfirst hmap
    have hposts := s.dev.posts_mgmtRequest ⟨0, dev, 1, field input 2 2, field input 4 2, coh, mapBlocks input, some path, field input 8 16⟩
    refine yields_of_eq hexec ⟨?_, ?_, ?_⟩
    · rw [Dev.shown_fab, (Dev.mgmtRequest_does _ _).2]
    · rw [Dev.shown_pool, hposts.pool]
    · rw [Dev.shown_mgmt, hposts.mgmt]
  case made =>
    obtain ⟨f, rfl⟩ := Dev.takeRequest_fab htake
    have hhub : Dev.hub { s.dev with fab := f } = s.dev.hub := Dev.hub_congr rfl rfl rfl
    have hnums := Dev.localNumbers_congr hhub r.coherent r.blocks
    have hexec := exec_import_acknowledged (exportId := exportId) htake hpath
      ((Dev.mapRefusal_congr hhub rfl _ _ _ _ _).trans hmap) hproxy
    rw [hnums] at hexec
    obtain ⟨himports, hdomain, hkeys, hfab⟩ :=
      Dev.importBegins_records { s.dev with fab := f } r proxy (s.dev.localNumbers r.coherent r.blocks)
    refine yields_of_eq hexec ⟨?_, ?_, ?_, ?_, Dev.replied_end (by decide)⟩
    · rw [Dev.hub_shown, Dev.hub_complete, himports, hhub]
    · rw [Dev.shown_pool, Dev.complete_pool, hdomain]
    · rw [Dev.keySlot, Dev.shown_pool, Dev.complete_pool, hkeys, Dev.keySlot]
    · rw [Dev.shown_fab, Dev.complete_fab, hfab]
  case refused =>
    obtain ⟨f, rfl⟩ := Dev.takeRequest_fab htake
    exact yields_of_eq (exec_import_refused htake hpath hstatus)
      ⟨Dev.replied_shown (Dev.replied_complete _ _ _ _ _ _ (by decide) (by omega)), by simp, by simp⟩
  case expired =>
    obtain ⟨f, rfl⟩ := Dev.expireRequest_fab hexpire
    exact yields_of_eq (exec_import_expired hexpire hpath) ⟨Dev.replied_finish (by decide), by simp, by simp⟩
  case unmapped =>
    refine exec_stoluo h (exec_remoteUnmap path input s) (by simp [hlength, hdev]) ?_
    simp only [hfound]
    rw [if_neg (by simp [hopen])]
    exact Dev.background_runs _ _ _ _ hidle
  case ended =>
    simp only [hnew, hfound]
    exact if_neg (by simpa using hfirst)
  case unknown =>
    refine yields_onDev (exec_importUnmapRequest src tag exportId s) ?_
    simp only [hnew, hnone]
    obtain ⟨hanswer, _, hpool⟩ := s.dev.mgmtAnswer_shown src tag.toNat 4 exportId.toNat 2
    exact ⟨hanswer, hpool⟩
  case noticed =>
    obtain ⟨hanswer, _, hpool⟩ := s.dev.mgmtAnswer_shown src tag.toNat 6 exportId.toNat 0
    exact yields_of_eq (exec_notice_answered hnew hnotices hfresh) ⟨hanswer, hpool⟩
  case stale =>
    have hnone : ¬ (s.dev.pool.notices.any fun n => decide (n.home = src ∧ n.tag = tag.toNat)) = true := by
      intro hany
      obtain ⟨n, hn, hsame⟩ := List.any_eq_true.1 hany
      exact hfirst n hn (of_decide_eq_true hsame)
    simp only [hnew]
    exact if_neg hnone

end Sys2Proof.Machine
end

section
/-! PROOFS. The records that the declaration of a death writes, and what leaves them: messages, the home's operations, and what a dead
host held. -/

namespace Sys2Proof.Machine

/-- What the declaration of a death writes and goes by: the agents declared dead, their sweeps, the snoop timeouts, how many deaths were
declared, and the registers beside those that show counts, the buffer and the slices. -/
structure DeathRecords where
  dead : List Holder
  sweeps : Table Holder (Nat × List Nat)
  timeouts : Table Holder Nat
  deaths : Nat
  steady : {r : Reg // r.steady = true} → Word

def Dev.deathRecords (d : Dev) : DeathRecords := ⟨d.dir.dead, d.dir.sweeps, d.dir.timeouts, d.fab.deaths, fun r => d.reg r.1⟩

theorem Dev.deathRecords_congr {d d' : Dev} (hdir : d'.dir = d.dir) (hfab : d'.fab = d.fab)
    (hreg : ∀ r : Reg, r.steady = true → d'.reg r = d.reg r) : d'.deathRecords = d.deathRecords := by
  have hsteady : (fun r : {r : Reg // r.steady = true} => d'.reg r.1) = fun r => d.reg r.1 := funext fun r => hreg r.1 r.2
  unfold Dev.deathRecords
  rw [hdir, hfab, hsteady]

/-- Equal records hold equal registers. -/
theorem Dev.reg_of_deathRecords {d d' : Dev} (h : d'.deathRecords.steady = d.deathRecords.steady) {r : Reg} (hr : r.steady = true) :
    d'.reg r = d.reg r := congrFun h ⟨r, hr⟩

/-! ### Counting and sending -/

@[simp] theorem Dev.deathRecords_emit (d : Dev) (o : Out) : (d.emit o).deathRecords = d.deathRecords := rfl
@[simp] theorem Dev.deathRecords_count (d : Dev) (u ev n : Nat) : (d.count u ev n).deathRecords = d.deathRecords :=
  Dev.deathRecords_congr (by simp) (by simp) fun r hr => d.reg_count u ev n r (Reg.side_of_steady hr)
@[simp] theorem Dev.deathRecords_report (d : Dev) (src cls detail : Nat) : (d.report src cls detail).deathRecords = d.deathRecords :=
  Dev.deathRecords_congr (by simp) (by simp) fun r hr => d.reg_report src cls detail r (Reg.side_of_steady hr)
@[simp] theorem Dev.deathRecords_wake (d : Dev) (i : Nat) : (d.wake i).deathRecords = d.deathRecords :=
  Dev.deathRecords_congr (by simp) (by simp) fun r _ => d.reg_wake i r
@[simp] theorem Dev.deathRecords_fabricEvent (d : Dev) (typ detail : Nat) : (d.fabricEvent typ detail).deathRecords = d.deathRecords := by
  have hvector : ∀ x : Dev, (x.mgmtVector 2).deathRecords = x.deathRecords := fun x =>
    Dev.deathRecords_congr (by simp) (by simp) fun r hr => x.reg_mgmtVector 2 r (Reg.side_of_steady hr)
  unfold Dev.fabricEvent
  rw [hvector]
  rfl

@[simp] theorem Dev.deathRecords_writeOut (d : Dev) (m : Msg) : (d.writeOut m).deathRecords = d.deathRecords :=
  Dev.deathRecords_congr (d.sends_writeOut m).dir (d.writeOut_frame m).2 fun _ hr => d.steady_writeOut m hr
@[simp] theorem Dev.deathRecords_store (d : Dev) (m : Msg) : (d.store m).deathRecords = d.deathRecords :=
  Dev.deathRecords_congr (by simp) (by simp) fun _ hr => d.steady_store m hr
@[simp] theorem Dev.deathRecords_writeLink (d : Dev) (e : Entity) (s : Nat) (ws : List Word) :
    (d.writeLink e s ws).deathRecords = d.deathRecords := by
  unfold Dev.writeLink
  split <;> simp
@[simp] theorem Dev.deathRecords_noRoute (d : Dev) (n : Nat) : (d.noRoute n).deathRecords = d.deathRecords := by
  unfold Dev.noRoute
  dsimp only
  split
  · rw [Dev.deathRecords_report]; rfl
  · rw [Dev.deathRecords_report]; rfl

theorem Dev.deathRecords_postFrom {d d' : Dev} {e : Entity} {ws : List Word} (h : d.postFrom e ws = some d') :
    d'.deathRecords = d.deathRecords := by
  unfold Dev.postFrom at h
  split at h
  · cases h
  · obtain ⟨s, _, rfl⟩ := Option.map_eq_some_iff.1 h
    exact d.deathRecords_writeLink e s ws

@[simp] theorem Dev.deathRecords_postOrDrop (d : Dev) (ws : List Word) : (d.postOrDrop ws).deathRecords = d.deathRecords := by
  unfold Dev.postOrDrop Dev.post
  cases h : d.postFrom (d.writerOf ws) ws with
  | none => exact d.deathRecords_noRoute _
  | some d' => exact Dev.deathRecords_postFrom h

@[simp] theorem Dev.deathRecords_replyData (d : Dev) (req : HomeReq) (data : LineData) (poison : Bool) (grant wait : Nat) (peak : Bool) :
    (d.replyData req data poison grant wait peak).deathRecords = d.deathRecords := by
  unfold Dev.replyData Dev.respond
  split <;> simp
@[simp] theorem Dev.deathRecords_replyDone (d : Dev) (req : HomeReq) (wait : Nat) (peak : Bool) :
    (d.replyDone req wait peak).deathRecords = d.deathRecords := by
  unfold Dev.replyDone Dev.respond
  split <;> simp
@[simp] theorem Dev.deathRecords_replyFailed (d : Dev) (kind : ReqKind) (req : HomeReq) : (d.replyFailed kind req).deathRecords = d.deathRecords := by
  unfold Dev.replyFailed
  split
  · dsimp only
    split <;> simp
  · rfl
@[simp] theorem Dev.deathRecords_snoop (d : Dev) (h : Holder) (line : Nat) (k : SnoopKind) : (d.snoop h line k).deathRecords = d.deathRecords := by
  unfold Dev.snoop Dev.snoopHost
  split <;> simp
@[simp] theorem Dev.deathRecords_snoopAll (d : Dev) (hs : List Holder) (g : Nat) (m : BitVec 16) (k : SnoopKind) :
    (d.snoopAll hs g m k).deathRecords = d.deathRecords := by
  refine foldl_frame Dev.deathRecords _ hs (fun d h => ?_) d
  split
  · exact foldl_frame Dev.deathRecords _ _ (fun d i => d.deathRecords_snoop h _ k) d
  · exact d.deathRecords_snoop h _ k
@[simp] theorem Dev.deathRecords_tellNeighbour (d : Dev) (op : Nat) (req : HomeReq) (resv : Bool) :
    (d.tellNeighbour op req resv).deathRecords = d.deathRecords := by
  unfold Dev.tellNeighbour
  split
  · cases h : d.postFrom _ _ with
    | none => rfl
    | some d' => exact Dev.deathRecords_postFrom h
  · rfl

/-! ### The directory and the conflict table -/

@[simp] theorem Dev.deathRecords_showSlice (d : Dev) (t : Nat) : (d.showSlice t).deathRecords = d.deathRecords :=
  Dev.deathRecords_congr (d.dir_showSlice t) (by unfold Dev.showSlice; simp) fun _ hr => d.steady_showSlice t hr
@[simp] theorem Dev.deathRecords_setEntry (d : Dev) (g : Nat) (e : DirEntry) : (d.setEntry g e).deathRecords = d.deathRecords := by
  rw [Dev.setEntry, Dev.deathRecords_showSlice]; rfl
@[simp] theorem Dev.deathRecords_dropEntry (d : Dev) (g : Nat) : (d.dropEntry g).deathRecords = d.deathRecords := by
  rw [Dev.dropEntry, Dev.deathRecords_showSlice]; rfl
@[simp] theorem Dev.deathRecords_touch (d : Dev) (g : Nat) : (d.touch g).deathRecords = d.deathRecords := rfl
@[simp] theorem Dev.deathRecords_addSharer (d : Dev) (g : Nat) (h : Holder) : (d.addSharer g h).deathRecords = d.deathRecords := by
  unfold Dev.addSharer
  split <;> simp
@[simp] theorem Dev.deathRecords_grantEntry (d : Dev) (g : Nat) (kind : ReqKind) (a : Agent) :
    (d.grantEntry g kind a).deathRecords = d.deathRecords := by
  unfold Dev.grantEntry
  split
  · rfl
  split
  · split
    · split <;> simp
    · simp
  all_goals simp

@[simp] theorem Dev.deathRecords_setCt (d : Dev) (g : Nat) (e : CtEntry) : (d.setCt g e).deathRecords = d.deathRecords := by
  rw [Dev.setCt, Dev.deathRecords_showSlice]; rfl
@[simp] theorem Dev.deathRecords_dropCt (d : Dev) (g : Nat) : (d.dropCt g).deathRecords = d.deathRecords := by
  rw [Dev.dropCt, Dev.deathRecords_showSlice]; rfl
@[simp] theorem Dev.deathRecords_endTxn (d : Dev) (a : Agent) (txn : Nat) : (d.endTxn a txn).deathRecords = d.deathRecords := rfl
@[simp] theorem Dev.deathRecords_holdFor (g : Nat) (l : List (Nat × Nat)) (d : Dev) : (d.holdFor g l).deathRecords = d.deathRecords := by
  induction l generalizing d with
  | nil => rfl
  | cons x rest ih =>
    unfold Dev.holdFor
    split
    · simp
    · exact ih d
@[simp] theorem Dev.deathRecords_retire (d : Dev) (g : Nat) : (d.retire g).deathRecords = d.deathRecords := by
  unfold Dev.retire
  split
  · rfl
  · rw [Dev.deathRecords_holdFor, Dev.deathRecords_dropCt]
    split <;> rfl
@[simp] theorem Dev.deathRecords_settle (d : Dev) (g : Nat) : (d.settle g).deathRecords = d.deathRecords := by
  unfold Dev.settle
  split
  · split <;> simp
  · rfl
@[simp] theorem Dev.deathRecords_readServed (d : Dev) (g : Nat) : (d.readServed g).deathRecords = d.deathRecords := by
  unfold Dev.readServed
  split
  · rfl
  dsimp only
  split <;> simp
@[simp] theorem Dev.deathRecords_turnAnswered (d : Dev) (g : Nat) (e : CtEntry) : (d.turnAnswered g e).deathRecords = d.deathRecords := by
  unfold Dev.turnAnswered
  split <;> simp

/-! ### Expander accesses and the dirty-page log -/

@[simp] theorem Dev.deathRecords_sendExp (d : Dev) (req : HomeReq) (real port addr copy : Nat) (what : Option Stored) (fallback green : Bool) :
    (d.sendExp req real port addr copy what fallback green).deathRecords = d.deathRecords := by
  unfold Dev.sendExp
  split
  · dsimp only
    rw [Dev.deathRecords_store]
    rfl
  · rfl
@[simp] theorem Dev.deathRecords_poisonLine (d : Dev) (line : Nat) : (d.poisonLine line).deathRecords = d.deathRecords := by
  unfold Dev.poisonLine
  split
  · rfl
  dsimp only
  split <;> rfl
@[simp] theorem Dev.deathRecords_lineLost (d : Dev) (line real : Nat) : (d.lineLost line real).deathRecords = d.deathRecords := by
  simp [Dev.lineLost]
@[simp] theorem Dev.deathRecords_modHub (d : Dev) (f : HubTables → HubTables) : (d.modHub f).deathRecords = d.deathRecords := by
  have hwoken : (d.wakeQuarters 0).deathRecords = d.deathRecords := by simp [Dev.wakeQuarters]
  unfold Dev.modHub
  rw [Dev.deathRecords_count, ← hwoken]
  rfl
@[simp] theorem Dev.deathRecords_invalidateSet (d : Dev) (i : Nat) : (d.invalidateSet i).deathRecords = d.deathRecords := by
  unfold Dev.invalidateSet Dev.countInvalidation
  rw [foldl_frame Dev.deathRecords _ _ fun d t => d.deathRecords_count t 0x300C 1]
  rfl
@[simp] theorem Dev.deathRecords_markRepair (d : Dev) (p : Place) (copy granule : Nat) :
    (d.markRepair p copy granule).deathRecords = d.deathRecords := by
  unfold Dev.markRepair Dev.modSet
  split
  · rfl
  split <;> simp
@[simp] theorem Dev.deathRecords_xtsDomain (d : Dev) (e : BlockEntry) (line : Nat) : (d.xtsDomain e line).2.deathRecords = d.deathRecords := by
  unfold Dev.xtsDomain
  split <;> simp
@[simp] theorem Dev.deathRecords_writeLine (d : Dev) (req : HomeReq) (real : Nat) (data : LineData) (poison green : Bool) :
    (d.writeLine req real data poison green).deathRecords = d.deathRecords := by
  have hdomain : (if poison then ((some (d.blockEntry (blockOfLine real)).owner.toNat, d) : Option Nat × Dev)
      else d.xtsDomain (d.blockEntry (blockOfLine real)) real).2.deathRecords = d.deathRecords := by
    split <;> simp
  unfold Dev.writeLine
  dsimp only
  split
  · rename_i p dom x _ heq
    rw [heq] at hdomain
    split
    · exact hdomain
    · generalize (if p.mirr.isSome then [0, 1] else [0] : List Nat) = copies
      split
      · rw [Dev.deathRecords_lineLost, hdomain]
      · rw [foldl_frame Dev.deathRecords _ _ fun d c => d.deathRecords_sendExp _ _ _ _ _ _ _ _]
        split
        · exact hdomain
        · rw [foldl_frame Dev.deathRecords _ _ fun d c => d.deathRecords_markRepair _ _ _, hdomain]
  · rename_i heq _
    rwa [heq] at hdomain
@[simp] theorem Dev.deathRecords_readArrived (d : Dev) (g : Nat) (data : LineData) (poison : Bool) (wait : Nat) :
    (d.readArrived g data poison wait).deathRecords = d.deathRecords := by
  unfold Dev.readArrived
  split
  · rfl
  split
  · dsimp only
    split <;> simp
  · simp
@[simp] theorem Dev.deathRecords_readLine (d : Dev) (g : Nat) : (d.readLine g).deathRecords = d.deathRecords := by
  unfold Dev.readLine
  split
  · rfl
  dsimp only
  split
  · simp
  split
  · simp
  split <;> simp

@[simp] theorem Dev.deathRecords_dirtyLog (d : Dev) (a : Agent) (line : Nat) : (d.dirtyLog a line).deathRecords = d.deathRecords := by
  have hlogged : (d.loggedFor a line).2.deathRecords = d.deathRecords := by
    unfold Dev.loggedFor
    dsimp only
    split
    · rfl
    · exact Dev.deathRecords_congr (by simp) (by simp) fun r _ => by simp
    · rfl
  have hmark : ∀ (x : Dev) (id dpa : Nat), (x.dirtyMark id dpa a).deathRecords = x.deathRecords := fun x id dpa => by
    unfold Dev.dirtyMark
    split
    · rfl
    split
    · rfl
    dsimp only
    split <;> rfl
  unfold Dev.dirtyLog
  split <;> rename_i heq <;> rw [heq] at hlogged
  · rw [hmark, hlogged]
  · exact hlogged

/-! ### A granule that goes on, at its home and at a proxy -/

@[simp] theorem Dev.deathRecords_proceed (d : Dev) (g : Nat) : (d.proceed g).deathRecords = d.deathRecords := by
  unfold Dev.proceed
  split
  · rfl
  rename_i e _
  split
  · simp
  · simp
  · dsimp only
    split <;> simp
  · dsimp only
    rw [Dev.deathRecords_settle, Dev.deathRecords_setCt]
    have hlines : ∀ (l : List (Fin 16 × LineData)) (x : Dev), (l.foldl (fun d l => d.writeLine
        { e.req with line := BitVec.ofNat 40 (g * 16 + l.1.val), data := l.2 } (e.block * 2 ^ 20 + g * 16 % 2 ^ 20 + l.1.val) l.2 false
        e.green) x).deathRecords = x.deathRecords := fun l =>
      foldl_frame Dev.deathRecords _ l fun d _ => d.deathRecords_writeLine _ _ _ _ _
    rw [apply_ite Dev.deathRecords, Dev.deathRecords_dropEntry, ite_self]
    exact hlines e.lines d
  · simp
  · simp
  · simp
  · simp
  · dsimp only
    have hgrant : (if e.coherent then d.grantEntry g e.kind e.req.agent else d).deathRecords = d.deathRecords := by
      split <;> simp
    split
    · simp [hgrant]
    · simp [hgrant]

@[simp] theorem Dev.deathRecords_releaseGrant (d : Dev) (g : Nat) : (d.releaseGrant g).deathRecords = d.deathRecords := by
  unfold Dev.releaseGrant Dev.freshTag
  rw [Dev.deathRecords_postOrDrop]
  rfl
@[simp] theorem Dev.deathRecords_proxyLeft (d : Dev) (g : Nat) : (d.proxyLeft g).deathRecords = d.deathRecords := by
  unfold Dev.proxyLeft
  split
  · rw [Dev.deathRecords_releaseGrant]
    rfl
  · rfl
theorem Dev.deathRecords_forward {d d' : Dev} {kind : ReqKind} {req : HomeReq} {b : BlockEntry} {reply : Bool}
    (h : d.forward kind req b reply = some d') : d'.deathRecords = d.deathRecords := by
  unfold Dev.forward at h
  obtain ⟨x, hpost, rfl⟩ := Option.map_eq_some_iff.1 h
  rw [Dev.deathRecords_count, ← Dev.deathRecords_postFrom hpost]
  rfl
@[simp] theorem Dev.deathRecords_proxyProceed (d : Dev) (g : Nat) : (d.proxyProceed g).deathRecords = d.deathRecords := by
  unfold Dev.proxyProceed
  split
  · rfl
  split
  · rfl
  split
  · simp
  split
  · simp
  dsimp only
  split
  · rename_i hforward
    rw [Dev.deathRecords_setCt, Dev.deathRecords_forward hforward]
  · simp
@[simp] theorem Dev.deathRecords_advance (d : Dev) (g : Nat) : (d.advance g).deathRecords = d.deathRecords := by
  unfold Dev.advance
  split
  · split
    · split <;> simp
    · rfl
  · rfl
@[simp] theorem Dev.deathRecords_failForwarded (d : Dev) (tag : Nat) : (d.failForwarded tag).deathRecords = d.deathRecords := by
  unfold Dev.failForwarded
  split
  · rfl
  rename_i x _
  dsimp only
  have hreply : ∀ y : Dev, (if x.reply then y.replyFailed x.kind x.req else y).deathRecords = y.deathRecords := fun y => by
    split <;> simp
  split
  · rw [Dev.deathRecords_advance, Dev.deathRecords_endTxn, hreply]
    rfl
  · rw [Dev.deathRecords_retire, hreply]
    rfl

/-! ### What a dead host held (R58) -/

theorem Dev.looked_changeSlot (d : Dev) (i : Nat) (f : SlotEntry → SlotEntry) : d.Looked (d.changeSlot i f) :=
  (d.looked_readSlot i).1.trans (Dev.looked_writeSlot _ _ _)
@[simp] theorem Dev.deathRecords_clearSlots (d : Dev) (l : List Nat) : (d.clearSlots l).deathRecords = d.deathRecords :=
  have hlook : d.Looked (d.clearSlots l) := .foldl (fun d s => d.looked_changeSlot s _) l d
  Dev.deathRecords_congr hlook.dir (d.rows_clearSlots l).fab fun r hr => hlook.reg r (Reg.side_of_steady hr)
@[simp] theorem Dev.deathRecords_dropExtent (d : Dev) (e : Extent) : (d.dropExtent e).deathRecords = d.deathRecords := rfl
@[simp] theorem Dev.deathRecords_setDomain (d : Dev) (i : Nat) (r : DomainRec) : (d.setDomain i r).deathRecords = d.deathRecords := rfl
@[simp] theorem Dev.deathRecords_dcWait (d : Dev) (p : Nat) : (d.dcWait p).deathRecords = d.deathRecords := rfl
@[simp] theorem Dev.deathRecords_hostEvent (d : Dev) (p log kind dpa len tag : Nat) :
    (d.hostEvent p log kind dpa len tag).deathRecords = d.deathRecords := rfl
@[simp] theorem Dev.deathRecords_dcSettle (d : Dev) (p : Nat) : (d.dcSettle p).deathRecords = d.deathRecords := by
  unfold Dev.dcSettle
  split
  · split <;> rfl
  · rfl

/-- A fence that is queued writes no death records where what follows it writes none. -/
theorem Dev.deathRecords_queueFence {d : Dev} {after : AfterFence} (h : (d.afterFence after).deathRecords = d.deathRecords) (whole : Bool)
    (blocks slots : List Nat) (holders : List Holder) (dom : Nat) :
    (d.queueFence whole blocks slots holders dom after).deathRecords = d.deathRecords := by
  unfold Dev.queueFence
  split
  · exact h
  · rfl

/-- What follows the fence of a forced release: the host's operation goes on, or nothing. -/
theorem Dev.deathRecords_afterFence (d : Dev) (wait : Bool) (p : Nat) :
    (d.afterFence (if wait then .dc p else .nothing)).deathRecords = d.deathRecords := by
  cases wait
  · rfl
  · exact Dev.deathRecords_dcSettle _ p

@[simp] theorem Dev.deathRecords_withdraw (d : Dev) (e : Extent) (wait : Bool) : (d.withdraw e wait).deathRecords = d.deathRecords := by
  have hcleared : ((d.dropExtent e).clearSlots (d.extentSlots e)).deathRecords = d.deathRecords := by simp
  have hwaiting : ∀ x : Dev, (if wait then x.dcWait e.port else x).deathRecords = x.deathRecords := fun x => by
    split <;> rfl
  unfold Dev.withdraw
  dsimp only
  split
  · split
    · exact hcleared
    · rw [Dev.deathRecords_queueFence (Dev.deathRecords_afterFence _ wait e.port), hwaiting]
      split
      · exact hcleared
      · exact hcleared
  · exact hcleared

@[simp] theorem Dev.deathRecords_releaseExtent (d : Dev) (e : Extent) (wait : Bool) (p : Nat) :
    (d.releaseExtent e (if wait then .dc p else .nothing)).deathRecords = d.deathRecords := by
  unfold Dev.releaseExtent
  extract_lets slots cleared waiting hs
  have hwaiting : waiting.deathRecords = d.deathRecords := by
    have hcleared : cleared.deathRecords = d.deathRecords := Dev.deathRecords_clearSlots _ _
    unfold waiting
    split
    · exact hcleared
    · exact hcleared
  split
  · rw [Dev.deathRecords_queueFence (Dev.deathRecords_afterFence _ wait p), hwaiting]
  · extract_lets rec gone left
    have hleft : left.deathRecords = d.deathRecords := hwaiting
    split
    · rw [Dev.deathRecords_queueFence (Dev.deathRecords_afterFence _ wait p), Dev.deathRecords_queueFence rfl, hleft]
    · rw [Dev.deathRecords_queueFence (Dev.deathRecords_afterFence _ wait p), hleft]

@[simp] theorem Dev.deathRecords_forceHost (d : Dev) (p : Nat) : (d.forceHost p).deathRecords = d.deathRecords := by
  have hnow : (d.forceHostNow p).deathRecords = d.deathRecords := by
    unfold Dev.forceHostNow
    dsimp only
    rw [Dev.deathRecords_dcSettle, foldl_frame Dev.deathRecords _ _ fun x e => ?_]
    · rfl
    · split
      · exact x.deathRecords_withdraw e _
      · exact x.deathRecords_releaseExtent e _ p
  unfold Dev.forceHost Dev.whenFirmware
  split
  · exact hnow
  · rfl

end Sys2Proof.Machine
end

section
/-! PROOFS. Deaths that are declared, their sweeps, and a proxy's answers to its home and its hosts. Settles O24. -/

namespace Sys2Proof.Machine

/-! ### Declaring a death (R99, R276) -/

/-- The records once an agent's death is written in them: it is counted, every slice has a sweep to make, and the agent's run of snoop
timeouts is over. -/
def DeathRecords.withDeath (r : DeathRecords) (h : Holder) (cause : Nat) : DeathRecords :=
  { r with deaths := r.deaths + 1, timeouts := tdel r.timeouts h, sweeps := tset r.sweeps h (lostCause cause, List.range 16) }

/-- The device with an agent's death in its records. -/
def Dev.enrolled (d : Dev) (h : Holder) (cause : Nat) (dead : List Holder) : Dev :=
  { d with
    fab := { d.fab with deaths := d.fab.deaths + 1 }
    dir := { d.dir with
      dead := dead, timeouts := tdel d.dir.timeouts h
      sweeps := tset d.dir.sweeps h (lostCause cause, List.range 16) } }

theorem Dev.deathRecords_enrolled (d : Dev) (h : Holder) (cause : Nat) (dead : List Holder) :
    (d.enrolled h cause dead).deathRecords = { d.deathRecords.withDeath h cause with dead := dead } := rfl

@[simp] theorem Dev.deathRecords_sendKnells (d : Dev) (w : Word) : (d.sendKnells w).deathRecords = d.deathRecords := by
  refine foldl_frame Dev.deathRecords _ _ (fun d l => ?_) d
  dsimp only
  split
  · exact d.deathRecords_writeLink _ _ _
  · rfl

@[simp] theorem Dev.deathRecords_wakeSlices (d : Dev) : d.wakeSlices.deathRecords = d.deathRecords :=
  foldl_frame Dev.deathRecords _ _ (fun d _ => d.deathRecords_wake _) d

@[simp] theorem Dev.deathRecords_dropNeighbour (d : Dev) (n : Nat) : (d.dropNeighbour n).deathRecords = d.deathRecords :=
  foldl_frame Dev.deathRecords _ _ (fun d tag => d.deathRecords_failForwarded tag) _

/-- Whether an agent can be declared dead is a matter of the death records. -/
theorem Dev.mortal_congr {d d' : Dev} (hdead : d'.dir.dead = d.dir.dead) (hsteady : d'.deathRecords.steady = d.deathRecords.steady)
    (h : Holder) : d'.mortal h = d.mortal h := by
  cases h with
  | port p =>
    have hmode : d'.portMode p = d.portMode p := Dev.rd_eq_of_reg (Dev.reg_of_deathRecords hsteady rfl) 31 28
    simp only [Dev.mortal, hmode, hdead]
  | slot n =>
    have hstate : d'.slotState n = d.slotState n := Dev.rd_eq_of_reg (Dev.reg_of_deathRecords hsteady rfl) 61 60
    simp only [Dev.mortal, hstate]
  | engine e => simp only [Dev.mortal, hdead]
  | dmv c => simp only [Dev.mortal, hdead]

/-- The death of a host is listed, counted and swept for. -/
theorem Dev.deathRecords_declareDeath_port {d : Dev} {p : Fin 64} (h : d.mortal (.port p) = true) (cause : Nat) :
    (d.declareDeath (.port p) cause).deathRecords =
      { d.deathRecords.withDeath (.port p) cause with dead := d.dir.dead ++ [.port p] } := by
  have hreported : ((d.report 0x38C 2 p).report (portSource p) 2 cause).deathRecords = d.deathRecords := by simp
  unfold Dev.declareDeath
  rw [if_neg (by simp [h])]
  dsimp only [Dev.knellSubject]
  rw [Dev.deathRecords_wakeSlices, Dev.deathRecords_forceHost, Dev.deathRecords_fabricEvent, Dev.deathRecords_sendKnells]
  rw [Nat.zero_mul, Nat.zero_add]
  refine (Dev.deathRecords_enrolled _ (.port p) cause _).trans ?_
  rw [hreported]
  simp

theorem Dev.setSlotState_frame (d : Dev) (n st : Nat) :
    (d.setSlotState n st).dir = d.dir ∧ (d.setSlotState n st).fab.deaths = d.fab.deaths := by
  unfold Dev.setSlotState
  split
  · exact ⟨rfl, rfl⟩
  · exact ⟨by simp, congrArg DeathRecords.deaths (Dev.deathRecords_fabricEvent _ _ _)⟩

theorem Reg.holds_nbr_state (n : Fin 16) : (Reg.nbr n).holds 61 60 = true := by decide +revert

theorem Dev.slotState_setSlotState (d : Dev) (n : Fin 16) {st : Nat} (hst : st < 4) : (d.setSlotState n st).slotState n = st := by
  unfold Dev.setSlotState
  split
  · assumption
  · rw [Dev.slotState, Dev.rd_fabricEvent _ _ _ _ _ _ rfl, Dev.rd_wr_same _ _ (Reg.holds_nbr_state n)]
    exact Nat.mod_eq_of_lt hst

/-- The death of a neighbour slot makes it DEAD, and is counted and swept for. -/
theorem Dev.declareDeath_slot {d : Dev} {n : Fin 16} (h : d.mortal (.slot n) = true) (cause : Nat) :
    (d.declareDeath (.slot n) cause).slotState n = 2 ∧
      (d.declareDeath (.slot n) cause).dir.sweeps = tset d.dir.sweeps (.slot n) (lostCause cause, List.range 16) ∧
      (d.declareDeath (.slot n) cause).fab.deaths = d.fab.deaths + 1 := by
  let reported := d.report 0x38C 2 (1 * 2 ^ 9)
  let listed := reported.enrolled (.slot n) cause reported.dir.dead
  let x : Dev := { listed with fab := { listed.fab with rejoins := tdel listed.fab.rejoins n.val } }
  have hrecords : (d.declareDeath (.slot n) cause).deathRecords = (x.setSlotState n 2).deathRecords := by
    unfold Dev.declareDeath
    rw [if_neg (by simp [h])]
    dsimp only [Dev.knellSubject]
    rw [Dev.deathRecords_wakeSlices, Dev.deathRecords_fabricEvent, Dev.deathRecords_sendKnells, Dev.deathRecords_dropNeighbour]
    rfl
  obtain ⟨hdir, hdeaths⟩ := x.setSlotState_frame n 2
  refine ⟨?_, ?_, ?_⟩
  · rw [← x.slotState_setSlotState n (st := 2) (by decide)]
    exact Dev.rd_eq_of_reg (Dev.reg_of_deathRecords (congrArg DeathRecords.steady hrecords) rfl) 61 60
  · refine (congrArg DeathRecords.sweeps hrecords).trans ((congrArg DirState.sweeps hdir).trans ?_)
    show tset reported.dir.sweeps _ _ = _
    rw [Dev.report_dir]
  · refine (congrArg DeathRecords.deaths hrecords).trans (hdeaths.trans ?_)
    show reported.fab.deaths + 1 = _
    rw [Dev.report_fab]

/-! ### Sweeps (R100) -/

/-- A slice that has nothing of a dead agent is swept at once. -/
theorem Dev.reclaimSlice_empty {d : Dev} {who : Holder} {t : Nat} (hready : d.sliceReady t = true) (hlist : d.reclaimList who t = [])
    (horphans : d.orphans who t = []) (cause : Nat) : d.reclaimSlice who cause t = d ∧ d.reclaimed who t = true := by
  constructor
  · unfold Dev.reclaimSlice
    rw [if_neg (by simp [hready]), hlist]
    dsimp only [List.foldl_nil]
    rw [horphans]
    rfl
  · simp [Dev.reclaimed, hlist, horphans, hready]

/-- The device with a slice off the list of a sweep. -/
def Dev.sliceSwept (d : Dev) (who : Holder) (slice : Fin 16) (cause : Nat) (left : List Nat) : Dev :=
  let left := left.filter fun t => !decide (t = slice.val)
  { d with dir := { d.dir with
    sweeps := if left.isEmpty then tdel d.dir.sweeps who else tset d.dir.sweeps who (cause, left) } }

/-- A slice that has still to sweep does so, and leaves the list where nothing of the agent is left. -/
theorem exec_reclaimSweepDone_listed {who : Holder} {slice : Fin 16} {cause : Nat} {left : List Nat} {s : State}
    (hsweeps : tget s.dev.dir.sweeps who = some (cause, left)) (hleft : left.contains slice.val = true) :
    exec (.reclaimSweepDone who slice) s = .next (s.onto
      (if (s.dev.reclaimSlice who cause slice).reclaimed who slice then (s.dev.reclaimSlice who cause slice).sliceSwept who slice cause left
        else s.dev.reclaimSlice who cause slice)) := by
  refine exec_onto (exec_reclaimSweepDone who slice s) ?_
  simp only [hsweeps]
  exact if_neg (by simpa using hleft)

/-! ### A home's snoop at a proxy (R94) -/

/-- A granule without an entry, of which no recovery runs, is believed to have none. -/
theorem Dev.trustEntry_untracked {d : Dev} {g : Nat} (hentry : d.entry g = none) (hct : (d.ctEntry g).map (·.kind) ≠ some .integrity) :
    d.trustEntry g = (true, d) := by
  have hcheck : d.checkEntry g = (true, d) := by
    unfold Dev.checkEntry
    rw [hentry]
  unfold Dev.trustEntry
  split
  · rename_i e he
    have hkind : e.kind ≠ .integrity := by simpa [he] using hct
    rw [hcheck, decide_eq_true hkind, ite_self]
  · exact hcheck

theorem Dev.proxySnoop_untracked {d : Dev} {line : Nat} (hentry : d.entry (granuleOf line) = none)
    (hvictim : tget d.dir.victims (granuleOf line) = none) (hct : (d.ctEntry (granuleOf line)).map (·.kind) ≠ some .integrity)
    (home : DeviceId) (tag : Nat) (kind : SnoopKind) :
    d.proxySnoop home tag kind line = d.answerHome line ⟨home, tag, kind, [], false, []⟩ := by
  unfold Dev.proxySnoop
  dsimp only
  rw [Dev.trustEntry_untracked hentry hct]
  simp [hentry, hvictim]

/-- The device with a home's snoop of a line in progress. -/
def Dev.servingSnoop (d : Dev) (line : Nat) (x : ProxySnoop) : Dev := { d with dir := { d.dir with psnoops := tset d.dir.psnoops line x } }

/-- An invalidating snoop goes on to the one host that holds the granule. -/
theorem Dev.proxySnoop_held {d : Dev} {line : Nat} {e : DirEntry} {p : Fin 64} (hentry : d.entry (granuleOf line) = some e)
    (hholders : e.holders = [.port p]) (hvictim : tget d.dir.victims (granuleOf line) = none)
    (htrust : d.trustEntry (granuleOf line) = (true, d)) (home : DeviceId) (tag : Nat) :
    d.proxySnoop home tag .inv line = (d.servingSnoop line ⟨home, tag, .inv, [.port p], false, []⟩).snoop (.port p) line .inv := by
  unfold Dev.proxySnoop
  dsimp only
  rw [htrust]
  simp [hentry, hvictim, hholders]
  rfl

/-- A snoop to a host whose port takes messages waits for it. -/
theorem Dev.queued_snoop {d : Dev} {p : Fin 64} (hreach : d.reaches p) (line : Nat) (k : SnoopKind) :
    (d.snoop (.port p) line k).queued (.port p) (.snoop (.port p) (BitVec.ofNat 40 line) k) := by
  let m := d.ownMsg (d.homeEntity (granuleOf line)) p .snp 0 16 (.snoop (.port p) (BitVec.ofNat 40 line) k)
  have hdest : d.takesMessages m.dest = true := hreach.2
  have hstored : (d.writeOut m).queued (.port p) (.snoop (.port p) (BitVec.ofNat 40 line) k) := by
    unfold Dev.writeOut
    rw [if_neg (by simp [hreach.1]), if_pos hdest]
    exact Dev.queued_store _ (m := m) (d.homeEntity_internal _) (List.mem_singleton_self _)
  exact (Dev.sends_count _ _ _ _).queued _ _ hstored

/-! ### A home's answer to a forwarded request (R93) -/

theorem Dev.holdFor_dir (g : Nat) (l : List (Nat × Nat)) (d : Dev) : ∃ ct, (d.holdFor g l).dir = { d.dir with ct := ct } := by
  induction l generalizing d with
  | nil => exact ⟨_, rfl⟩
  | cons x rest ih =>
    unfold Dev.holdFor
    split
    · exact ⟨_, by rw [Dev.count_dir, (Dev.sends_tellNeighbour _ _ _ _).dir, Dev.emit_dir, Dev.setCt_dir]⟩
    · exact ih d

/-- A granule that retires changes the conflict table, and nothing else of the directory. -/
theorem Dev.retire_dir (d : Dev) (g : Nat) : ∃ ct, (d.retire g).dir = { d.dir with ct := ct } := by
  unfold Dev.retire
  split
  · exact ⟨_, rfl⟩
  · rename_i e _
    obtain ⟨ct, hct⟩ := Dev.holdFor_dir g e.resv ((if e.kind = .turn then d else d.endTxn e.req.agent e.req.txn).dropCt g)
    refine ⟨ct, hct.trans ?_⟩
    rw [Dev.dropCt, Dev.dir_showSlice]
    split <;> rfl

/-- So does a granule whose read has been answered. -/
theorem Dev.readServed_dir (d : Dev) (g : Nat) : ∃ ct, (d.readServed g).dir = { d.dir with ct := ct } := by
  unfold Dev.readServed
  split
  · exact ⟨_, rfl⟩
  · dsimp only
    split
    · exact ⟨_, by rw [(Dev.sends_snoopAll _ _ _ _ _).dir, Dev.setCt_dir]⟩
    · exact ⟨_, d.setCt_dir g _⟩

/-- The device that awaits no answer to a forwarded request. -/
def Dev.unforwarded (d : Dev) (tag : Nat) : Dev := { d with dir := { d.dir with proxyOut := tdel d.dir.proxyOut tag } }

/-- Nor counts the home's snoops of its granule. -/
def Dev.unforwardedRead (d : Dev) (tag g : Nat) : Dev :=
  { d with dir := { d.dir with proxyOut := tdel d.dir.proxyOut tag, invd := tdel d.dir.invd g, datd := tdel d.dir.datd g } }

/-- A failure fails the forwarded request. -/
theorem Dev.proxyAnswer_fails {d : Dev} {ws : List Word} {x : ProxyOut} (hout : tget d.dir.proxyOut (msgTag ws) = some x)
    (hop : msgOp ws = 0x25) : d.proxyAnswer ws = d.failForwarded (msgTag ws) := by
  unfold Dev.proxyAnswer
  dsimp only
  rw [hout]
  exact if_pos hop

/-- A completion of a forwarded write completes it to its host. -/
theorem Dev.proxyAnswer_completes {d : Dev} {ws : List Word} {x : ProxyOut} (hout : tget d.dir.proxyOut (msgTag ws) = some x)
    (hop : msgOp ws = 0x21) (hkind : x.kind = .write) (hreply : x.reply = true) : ∃ wait peak,
    d.proxyAnswer ws = ((d.unforwarded (msgTag ws)).replyDone x.req wait peak).retire (granuleOf x.req.line.toNat) := by
  unfold Dev.proxyAnswer
  dsimp only
  rw [hout]
  simp only [hop, hkind, hreply, ReqKind.reads]
  exact ⟨_, _, rfl⟩

/-- Data for a forwarded current read in a block without coherence goes to its host. -/
theorem Dev.proxyAnswer_returns {d : Dev} {ws : List Word} {x : ProxyOut} (hout : tget d.dir.proxyOut (msgTag ws) = some x)
    (hop : msgOp ws = 0x20) (hkind : x.kind = .readCurrent)
    (hcoherent : (d.blockEntry (blockOfGranule (granuleOf x.req.line.toNat))).coherent = false) : ∃ wait peak,
    d.proxyAnswer ws = ((d.unforwardedRead (msgTag ws) (granuleOf x.req.line.toNat)).replyData x.req (wordsData ws)
      (decide (getBits (word ws 1) 63 63 = 1)) 0 wait peak).readServed (granuleOf x.req.line.toNat) := by
  have hblock : (d.unforwardedRead (msgTag ws) (granuleOf x.req.line.toNat)).blockEntry
      (blockOfGranule (granuleOf x.req.line.toNat)) = d.blockEntry (blockOfGranule (granuleOf x.req.line.toNat)) := rfl
  rw [← hblock] at hcoherent
  unfold Dev.unforwardedRead at hcoherent
  unfold Dev.proxyAnswer
  dsimp only
  rw [hout]
  simp only [hop, hkind, hcoherent, ReqKind.reads]
  exact ⟨_, _, rfl⟩

/-! ### Victims (R90) -/

theorem Dev.blockEntry_showSlice (d : Dev) (t b : Nat) : (d.showSlice t).blockEntry b = d.blockEntry b :=
  Dev.blockEntry_congr (d.steady_showSlice t rfl) (Dev.hub_congr (d.steady_showSlice t rfl) (by rw [Dev.showSlice_pool])
    (by rw [Dev.showSlice_pool])) (by rw [Dev.showSlice_pool]) (by rw [Dev.showSlice_pool]) (by rw [Dev.showSlice_pool]) b

/-- A victim of a block of this device whose answers are in frees its entry, and a request that waited is granted. -/
theorem Dev.freeVictim_answered {d : Dev} {g : Nat} {v : Victim} (hvictim : tget d.dir.victims g = some v) (hwaits : v.waits = [])
    (hops : d.opsOf g = false) (hlocal : (d.blockEntry v.block).remote = false) :
    d.freeVictim g =
      (Dev.showSlice { d with dir := { d.dir with victims := tdel d.dir.victims g } } (sliceOf g)).holdFor g v.resv := by
  have hrow : ((Dev.showSlice { d with dir := { d.dir with victims := tdel d.dir.victims g } } (sliceOf g)).blockEntry v.block).remote =
      false := by
    rw [Dev.blockEntry_showSlice]
    exact hlocal
  unfold Dev.freeVictim
  rw [hvictim]
  simp [hwaits, hops, hrow]

/-! ### The obligation -/

/-- Settles O24: a proxy's snoop is answered or sent on as its granule is held; an answer goes to its host by a reply that nothing after
it takes back, and what follows changes the conflict table alone; a declared death stands in records that the Knells, the forced release
and what the death of a neighbour ends leave alone. -/
theorem proxiesAnswerAndDeathsAreDeclared : Obligations.ProxiesAnswerAndDeathsAreDeclared := by
  unfold Obligations.ProxiesAnswerAndDeathsAreDeclared
  refine ⟨?untracked,
    fun src tag line x p s hentry hholders hvictim htrust hreach => yields_of_eq
      (exec_onto (exec_neighbourSnoopAtProxy src tag 2 line s) (Dev.proxySnoop_held hentry hholders hvictim htrust src tag.toNat)) ?held,
    fun words x s hout hop => exec_onto (exec_proxyDataReceived words s) (Dev.proxyAnswer_fails hout hop),
    fun words x h s hout hop hkind hreply hagent hreach => yields_of_eq (exec_onto (exec_proxyDataReceived words s) rfl) ?completed,
    fun words x h s hout hop hkind hagent hcoherent hreach => yields_of_eq (exec_onto (exec_proxyDataReceived words s) rfl) ?returned,
    fun granule v s hvictim hwaits hops hlocal => exec_onto (exec_victimEntryFreed granule s)
      (Dev.freeVictim_answered hvictim hwaits hops hlocal),
    fun p cause s hmortal => yields_of_eq (exec_onto (exec_agentDeathDeclared (.port p) cause s) rfl) ?port,
    fun n cause s hmortal => yields_of_eq (exec_onto (exec_agentDeathDeclared (.slot n) cause s) rfl) ?slot,
    fun who cause s himmortal => exec_onto (exec_agentDeathDeclared who cause s) (if_pos (by simp [himmortal])),
    fun who slice cause left s hsweeps hleft hready hlist horphans => yields_of_eq (exec_reclaimSweepDone_listed hsweeps hleft) ?swept,
    fun who slice cause left s hsweeps hleft hready hmore => (exec_reclaimSweepDone_listed hsweeps hleft).trans ?unswept⟩
  case untracked =>
    intro src tag kind line s hentry hvictim hct hkind k
    have hk : (if kind.val = 0 then SnoopKind.cur else if kind.val = 1 then .dat else .inv) = k := by
      have hlt := kind.isLt
      by_cases hzero : kind.val = 0
      · simp only [k, hzero, if_true]
      · have hone : kind.val = 1 := by omega
        simp [k, hone]
    exact exec_onto (exec_neighbourSnoopAtProxy src tag kind line s)
      ((congrArg (fun k => s.dev.proxySnoop src tag.toNat k line.toNat) hk).trans
        (Dev.proxySnoop_untracked hentry hvictim hct src tag.toNat k))
  case held =>
    have hqueued := Dev.queued_snoop (d := s.dev.servingSnoop line.toNat ⟨src, tag.toNat, .inv, [.port p], false, []⟩)
      (Dev.reaches_congr (fun _ _ => rfl) hreach) line.toNat .inv
    rw [BitVec.ofNat_toNat, BitVec.setWidth_eq] at hqueued
    refine ⟨Dev.queued_shown hqueued, ?_⟩
    rw [Dev.shown_dir, (Dev.sends_snoop _ _ _ _).dir]
    exact ⟨tget_tset_same _ _ _, rfl, rfl⟩
  case completed =>
    obtain ⟨wait, peak, hanswer⟩ := Dev.proxyAnswer_completes hout hop hkind hreply
    have hqueued := Dev.queued_replyDone (d := s.dev.unforwarded (msgTag words)) hagent (Dev.reaches_congr (fun _ _ => rfl) hreach) wait peak
    obtain ⟨ct, hdir⟩ := Dev.retire_dir ((s.dev.unforwarded (msgTag words)).replyDone x.req wait peak) (granuleOf x.req.line.toNat)
    rw [hanswer, Dev.shown_dir, hdir, (Dev.sends_replyDone _ _ _ _).dir]
    exact ⟨⟨_, Dev.queued_shown ((Dev.carries_retire _ _).queued _ _ hqueued)⟩, tget_tdel_same _ _⟩
  case returned =>
    obtain ⟨wait, peak, hanswer⟩ := Dev.proxyAnswer_returns hout hop hkind hcoherent
    have hqueued := Dev.queued_replyData (d := s.dev.unforwardedRead (msgTag words) (granuleOf x.req.line.toNat)) hagent
      (Dev.reaches_congr (fun _ _ => rfl) hreach) (wordsData words) (decide (getBits (word words 1) 63 63 = 1)) 0 wait peak
    obtain ⟨ct, hdir⟩ := Dev.readServed_dir ((s.dev.unforwardedRead (msgTag words) (granuleOf x.req.line.toNat)).replyData x.req
      (wordsData words) (decide (getBits (word words 1) 63 63 = 1)) 0 wait peak) (granuleOf x.req.line.toNat)
    rw [hanswer, Dev.shown_dir, hdir, (Dev.sends_replyData _ _ _ _ _ _ _).dir]
    exact ⟨⟨_, Dev.queued_shown ((Dev.carries_readServed _ _).queued _ _ hqueued)⟩, tget_tdel_same _ _, rfl⟩
  case port =>
    have hrecords := Dev.deathRecords_declareDeath_port hmortal cause.val
    rw [Dev.shown_dir, Dev.shown_fab]
    refine ⟨congrArg DeathRecords.dead hrecords, ?_, congrArg DeathRecords.deaths hrecords⟩
    exact (congrArg (fun r : DeathRecords => tget r.sweeps (.port p)) hrecords).trans (tget_tset_same _ _ _)
  case slot =>
    obtain ⟨hstate, hsweeps, hdeaths⟩ := Dev.declareDeath_slot hmortal cause.val
    rw [Dev.shown_dir, Dev.shown_fab, Dev.slotState, Dev.rd_shown _ _ _ _ rfl, hsweeps]
    exact ⟨hstate, tget_tset_same _ _ _, hdeaths⟩
  case swept =>
    obtain ⟨hslice, hdone⟩ := Dev.reclaimSlice_empty hready hlist horphans cause
    rw [hslice, if_pos hdone, Dev.shown_dir, Dev.shown_pool, Dev.shown_sw]
    exact ⟨rfl, rfl, rfl, rfl⟩
  case unswept => rw [if_neg (by simp [hmore])]

end Sys2Proof.Machine
end

section
/-! PROOFS. Write-backs, releases, answers to snoops and snoops that time out. Settles O21. -/

namespace Sys2Proof.Machine

/-! ### Write-backs (R81) -/

/-- A write-back of an owner is not checked again by the ACU: it joins the entry that covers its granule, or is taken in. -/
theorem Dev.writeIn_owner {d d1 : Dev} {kind : ReqKind} {req : HomeReq} {h : Holder} {b : Nat} {e : BlockEntry} {x : DirEntry}
    (hagent : agentHolder req.agent = some h) (hentry : (d.trustEntry (granuleOf req.line.toNat)).2.entry (granuleOf req.line.toNat) = some x)
    (howned : x.ownedBy h = true) (hsafe : d.safe = false) (hready : d.sliceReady (sliceOf (granuleOf req.line.toNat)) = true)
    (hheld : d.heldBack kind req = false)
    (hout : ((d.trustEntry (granuleOf req.line.toNat)).2.takeEpoch (sliceOf (granuleOf req.line.toNat)) req.agent req.txn).homeOutcome
      (sliceOf (granuleOf req.line.toNat)) req ⟨false, true⟩ false false = (.here b e, d1)) :
    d.writeIn kind req =
      if d1.busy (granuleOf req.line.toNat) then
        (((d1.leaveBuffer kind req).unretry (groupOf req.agent) (sliceOf (granuleOf req.line.toNat)) req).joinWriteBack kind req b
          (((d1.homeMsg (sliceOf (granuleOf req.line.toNat)) req true).map (·.green)).getD true)
          (((d1.homeMsg (sliceOf (granuleOf req.line.toNat)) req true).map (·.peakWaited)).getD false)).endTxn req.agent req.txn
      else d1.takeIn kind req b true false false := by
  have howner : (d.trustEntry (granuleOf req.line.toNat)).2.ownerOf (granuleOf req.line.toNat) h = true := by
    simp [Dev.ownerOf, hentry, howned]
  have hgives : (d.trustEntry (granuleOf req.line.toNat)).2.givesBack (granuleOf req.line.toNat) h = true := by
    simp [Dev.givesBack, howner]
  unfold Dev.writeIn
  simp only [hagent, hsafe, hready, hheld, howner, hgives, Bool.not_true, Bool.or_false, Bool.true_or, Bool.false_eq_true, if_false, hout]

/-! ### Releases (R75, R80, R81) -/

theorem Dev.acuRecord_dir (d : Dev) (v addr : Nat) (info : Word) :
    (if d.bitOf (.violInfo v) 31 then d.bumpSat (.violCount v) 31 0 1
      else (d.setReg (.violAddr v) (BitVec.ofNat 64 addr)).setReg (.violInfo v) info).dir = d.dir := by
  split
  · simp
  · simp

theorem Dev.acuReport_dir (d : Dev) (v addr : Nat) :
    (if v < 16 then (d.count v 0x300B 1).report (16 * v + 5) 2 addr else d.report 0x2D0 2 addr).dir = d.dir := by
  split
  · simp
  · simp

/-- A refusal by an ACU is recorded and reported. -/
theorem Dev.acuViolation_dir (d : Dev) (v addr : Nat) (write : Bool) (q : Requester) (region : Nat) :
    (d.acuViolation v addr write q region).dir = d.dir :=
  (Dev.acuReport_dir _ v addr).trans (d.acuRecord_dir v addr _)

theorem dir_ite {c : Prop} [Decidable c] {a b : Served × Dev} {dir : DirState} (ha : a.2.dir = dir) (hb : b.2.dir = dir) :
    (if c then a else b).2.dir = dir := by
  split
  · exact ha
  · exact hb

/-- Whatever Table PB-8 answers, the directory is as it was. -/
theorem Dev.homeOutcome_dir (d : Dev) (t : Nat) (q : HomeReq) (n : Needs) (checked mirror : Bool) :
    (d.homeOutcome t q n checked mirror).2.dir = d.dir := by
  have hlook := (d.looked_lookupBlock t (blockOfLine q.line.toNat)).dir
  have hrefuse : ∀ x : Dev, (x.refuseHome t q.line.toNat).dir = x.dir := fun x => by simp [Dev.refuseHome]
  have hset : ∀ (x : Dev) (i : Nat), (x.fillSet t i).dir = x.dir := fun x i => (x.looked_fillSet t i).dir
  unfold Dev.homeOutcome
  dsimp only
  split <;> rename_i heq <;> rw [heq] at hlook
  · exact (hrefuse _).trans hlook
  refine dir_ite ((hrefuse _).trans hlook) (dir_ite ((hrefuse _).trans hlook) ?_)
  split
  · exact (Dev.acuViolation_dir _ _ _ _ _ _).trans hlook
  split
  · exact dir_ite hlook ((hset _ _).trans hlook)
  · exact dir_ite hlook ((hset _ _).trans hlook)
  · exact (hset _ _).trans hlook
  · exact (hrefuse _).trans hlook

/-- The entry leaves its granule, and no other changes. -/
def Dev.Untracks (d d' : Dev) (g : Nat) : Prop := d'.dir.entries = tdel d.dir.entries g

theorem Dev.Untracks.shown {d d' : Dev} {g : Nat} (h : d.Untracks d' g) :
    d'.shown.entry g = none ∧ ∀ y, y ≠ g → d'.shown.entry y = d.entry y := by
  have hentry : ∀ y, d'.shown.entry y = tget (tdel d.dir.entries g) y := fun y => by rw [Dev.entry, Dev.shown_dir, h]
  exact ⟨(hentry g).trans (tget_tdel_same _ _), fun y hy => (hentry y).trans (tget_tdel_ne _ hy)⟩

theorem Dev.untracks_dropEntry (d : Dev) (g : Nat) : d.Untracks (d.dropEntry g) g := by
  unfold Dev.Untracks Dev.dropEntry
  rw [Dev.dir_showSlice]

/-- A release of the granule's owner that waits for nobody writes its lines and leaves no entry. -/
theorem Dev.untracks_proceed_release {d : Dev} {g : Nat} {e : CtEntry} {h : Holder} {x : DirEntry} (hct : d.ctEntry g = some e)
    (hkind : e.kind = .release) (hagent : agentHolder e.req.agent = some h) (hentry : d.entry g = some x) (howned : x.ownedBy h = true) :
    d.Untracks (d.proceed g) g := by
  have hwritten := (Dev.carries_release e.lines e g d).entries
  unfold Dev.proceed
  rw [hct]
  simp only [hkind]
  dsimp only at hwritten
  generalize List.foldl _ d e.lines = y at hwritten ⊢
  have hy : y.entry g = some x := by rw [Dev.entry, hwritten]; exact hentry
  simp only [hagent, hy, howned, if_true]
  refine ((Dev.carries_setCt _ g _).trans (Dev.carries_settle _ g)).entries.trans ?_
  rw [Dev.untracks_dropEntry, hwritten]

theorem Dev.advance_recalled {d : Dev} {g : Nat} {e : CtEntry} (hct : d.ctEntry g = some e) (hstate : e.state = .recall)
    (hwaits : e.waits = []) (hlocal : e.remote = false) : d.advance g = d.proceed g := by
  unfold Dev.advance
  rw [hct]
  simp [hstate, hwaits, hlocal]

/-- A release of a granule's only holder, its owner, is accepted and waits for nobody. -/
theorem Dev.untracks_takeRelease {d : Dev} {req : HomeReq} {h : Holder} {x : DirEntry} (hagent : agentHolder req.agent = some h)
    (hentry : d.entry (granuleOf req.line.toNat) = some x) (howned : x.ownedBy h = true) (hholders : x.holders = [h])
    (lines : List (Fin 16 × LineData)) (block : Nat) (granted : Bool) :
    d.Untracks (d.takeRelease req lines block granted) (granuleOf req.line.toNat) := by
  unfold Dev.takeRelease
  extract_lets g t mask hs excl e taken
  have hnobody : hs = [] := by
    unfold hs g
    rw [hentry]
    simp [hholders, hagent]
  have hsnoop : ∀ (y : Dev) (m : BitVec 16), y.snoopAll hs g m .inv = y := fun y m => by rw [hnobody]; rfl
  have hwaits : e.waits = [] := by
    show waitsFor hs _ = []
    rw [hnobody]
    rfl
  have hstate : e.state = .recall := by
    show (if excl && !hs.isEmpty then _ else _) = _
    simp [hnobody]
  have hct : (taken.count t 0x2000 1).ctEntry g = some e := by simp [taken, Dev.ctEntry, Dev.setCt_dir]
  have hentries : (taken.count t 0x2000 1).dir.entries = d.dir.entries := by
    simp [taken, Dev.setCt_dir, Dev.leaveBuffer_dir, Dev.unretry, Dev.setRetried]
  rw [hsnoop, Dev.advance_recalled hct hstate hwaits rfl]
  refine (Dev.untracks_proceed_release hct rfl hagent ?_ howned).trans ?_
  · rw [Dev.entry, hentries]
    exact hentry
  · rw [hentries]

/-- A release by a granule's only holder, its owner, that is accepted leaves no entry. -/
theorem Dev.untracks_releaseIn {d : Dev} {req : HomeReq} {h : Holder} {x : DirEntry} (hagent : agentHolder req.agent = some h)
    (hready : d.sliceReady (sliceOf (granuleOf req.line.toNat)) = true)
    (hreserved : d.reservedFor (sliceOf (granuleOf req.line.toNat)) req = false)
    (holder : d.behindOlder (sliceOf (granuleOf req.line.toNat)) req = false)
    (hrecall : d.underRecall (granuleOf req.line.toNat) h = false) (htake : d.mayTake req false = true)
    (htrust : (d.trustEntry (granuleOf req.line.toNat)).2 = d) (hentry : d.entry (granuleOf req.line.toNat) = some x)
    (howned : x.ownedBy h = true) (hholders : x.holders = [h]) (lines : List (Fin 16 × LineData)) :
    d.Untracks (d.releaseIn req lines false) (granuleOf req.line.toNat) := by
  have htaken : ∀ (y : Dev) (kept : List (Fin 16 × LineData)) (block : Nat), y.dir = d.dir →
      d.Untracks (y.takeRelease req kept block false) (granuleOf req.line.toNat) := fun y kept block hdir => by
    have hy : y.entry (granuleOf req.line.toNat) = some x := by rw [Dev.entry, hdir]; exact hentry
    refine (Dev.untracks_takeRelease hagent hy howned hholders kept block false).trans ?_
    rw [hdir]
  unfold Dev.releaseIn
  dsimp only
  rw [hagent]
  simp only [hready, hreserved, htrust, hrecall, holder, htake, Bool.not_true, Bool.not_false, Bool.and_false, Bool.or_false, Bool.false_eq_true,
    if_false]
  cases lines with
  | nil => exact htaken d [] _ rfl
  | cons l rest =>
    have hdir := d.homeOutcome_dir (sliceOf (granuleOf req.line.toNat)) req ⟨false, true⟩ (!d.givesBack (granuleOf req.line.toNat) h) false
    simp only [List.isEmpty_cons, Bool.false_eq_true, if_false]
    split <;> rename_i heq <;> rw [heq] at hdir
    · exact htaken _ _ _ hdir
    · exact htaken _ _ _ hdir

/-- A holder of X that nothing waits for leaves no entry. -/
theorem Dev.releaseX_free {d : Dev} {who : Holder} {g : Nat} {x : DirEntry} (hentry : d.entry g = some x) (hstate : x.state = 3)
    (hholds : x.holders.contains who = true) (hct : d.ctEntry g = none) : d.releaseX who g = d.dropEntry g := by
  have hdropped : (d.dropEntry g).ctEntry g = none := by
    rw [← hct]
    exact Dev.ctEntry_of_dir (by rw [Dev.dropEntry, Dev.dir_showSlice]) g
  unfold Dev.releaseX
  rw [if_pos ⟨by simp [Dev.entryState, hentry, hstate], by rw [hentry]; exact congrArg some hholds⟩]
  simp only [hdropped]

/-! ### Answers (R77, R78, R81) -/

theorem Dev.birspTap_dir (d : Dev) (who : Holder) (line : Nat) : (d.birspTap who line).dir = d.dir := by
  cases who with
  | port p => exact d.newId.2.mirror_dir _ _ _
  | _ => rfl

/-- Whether a snoop is outstanding is a matter of the directory. -/
theorem Dev.snoopOut_congr {d d' : Dev} (h : d'.dir = d.dir) (who : Holder) (line : Nat) : d'.snoopOut who line = d.snoopOut who line := by
  simp only [Dev.snoopOut, Dev.ctEntry, h]

/-! ### Snoop timeouts (R97, R98) -/

/-- In Compact mode lines left unanswered are poisoned, and their holder leaves (R97). -/
theorem Dev.compactTimeout_unanswered {d : Dev} {h : Holder} {g : Nat} (hlines : d.unanswered h g ≠ 0) :
    d.compactTimeout h g =
      let x := d.count (sliceOf g) 0x2008 1
      Dev.stopWaiting (if (x.ctEntry g).map (·.kind) = some .integrity then x
        else
          let x := (x.poisonMask g (d.unanswered h g).toNat 1 (some h)).removeHolder g h
          if (x.blockEntry (blockOfGranule g)).remote then x.proxyLeft g else x) h g := by
  unfold Dev.compactTimeout
  exact if_neg hlines

/-- One more timeout of a snoop is noted with what waits for it, and no death record. -/
theorem Dev.deathRecords_countRetry (d : Dev) (h : Holder) (line : Nat) : (d.countRetry h line).2.deathRecords = d.deathRecords := by
  have hct : ∀ (g : Nat) (f : CtEntry → CtEntry), (d.modCt g f).deathRecords = d.deathRecords := fun g f => by
    unfold Dev.modCt
    split <;> simp
  exact hct _ _

/-- In Extended mode the eighth timeout in a row declares the agent dead (R98). -/
theorem Dev.extendedTimeout_eighth {d : Dev} {h : Holder} {line : Nat} (hout : d.snoopOut h line = true)
    (hkind : (d.ctEntry (granuleOf line)).map (·.kind) ≠ some .integrity) (height : tgetD d.dir.timeouts h 0 + 1 = 8) :
    ∃ x : Dev, x.deathRecords = { d.deathRecords with timeouts := tset d.dir.timeouts h 8 } ∧ d.extendedTimeout h line = x.declareDeath h 1 := by
  let counted := d.count (sliceOf (granuleOf line)) 0x2008 1
  have hdir : counted.dir = d.dir := d.count_dir _ _ _
  let noted : Dev := { counted with dir := { counted.dir with timeouts := tset counted.dir.timeouts h 8 } }
  refine ⟨(noted.countRetry h line).2, (noted.deathRecords_countRetry h line).trans ?_, ?_⟩
  · show ({ counted.deathRecords with timeouts := tset counted.dir.timeouts h 8 } : DeathRecords) = _
    rw [hdir, Dev.deathRecords_count]
  · have hnumber : tgetD counted.dir.timeouts h 0 + 1 = 8 := by rw [hdir]; exact height
    have hnone : ¬ (counted.ctEntry (granuleOf line)).map (·.kind) = some .integrity := by
      rw [Dev.ctEntry_of_dir (congrArg (·.ct) hdir) (granuleOf line)]
      exact hkind
    unfold Dev.extendedTimeout
    rw [if_neg (by simp [hout])]
    dsimp only
    rw [if_neg hnone, hnumber]
    exact if_pos (.inl (le_refl 8))

/-- Where the agent is a host that can be declared dead, its death stands in the records afterwards. -/
theorem Dev.extendedTimeout_declares {d : Dev} {p : Fin 64} {line : Nat} (hout : d.snoopOut (.port p) line = true)
    (hkind : (d.ctEntry (granuleOf line)).map (·.kind) ≠ some .integrity) (height : tgetD d.dir.timeouts (.port p) 0 + 1 = 8)
    (hmortal : d.mortal (.port p) = true) :
    (d.extendedTimeout (.port p) line).deathRecords =
      { { d.deathRecords with timeouts := tset d.dir.timeouts (.port p) 8 }.withDeath (.port p) 1 with dead := d.dir.dead ++ [.port p] } := by
  obtain ⟨x, hrecords, hdeclares⟩ := Dev.extendedTimeout_eighth hout hkind height
  have hdead : x.dir.dead = d.dir.dead := congrArg DeathRecords.dead hrecords
  have hsteady : x.deathRecords.steady = d.deathRecords.steady := by rw [hrecords]
  rw [hdeclares, Dev.deathRecords_declareDeath_port ((Dev.mortal_congr hdead hsteady _).trans hmortal), hrecords, hdead]

/-! ### The obligation -/

/-- Settles O21: a write-back and the answers of a snoop run the chain of steps that their command names; a release that waits for nobody
proceeds at once and takes its granule's entry alone; the eighth timeout declares a death, which stands in the death records. -/
theorem writeBacksReleasesAndAnswersFollowTheDirectory : Obligations.WriteBacksReleasesAndAnswersFollowTheDirectory := by
  unfold Obligations.WriteBacksReleasesAndAnswersFollowTheDirectory
  refine ⟨?writeBack,
    fun req lines h x s hagent hready hreserved holder hrecall htake htrust hentry howned hholders => yields_of_eq
      (exec_onto (exec_neighbourRelease req lines s) rfl)
      (Dev.untracks_releaseIn hagent hready hreserved holder hrecall htake htrust hentry howned hholders lines).shown,
    fun who granule x s hcode hentry hstate hholds hct => yields_of_eq (exec_onto (exec_releaseX who granule s)
      ((if_pos hcode).trans (Dev.releaseX_free hentry hstate hholds hct))) ?released,
    fun granule e s hct hkind hwaits => exec_onto (exec_integrityRecoveryDone granule s) ?recovered,
    fun who line answer s hout => exec_onto (exec_birspReceived who line answer s) ?answered,
    fun who line answer s hout => exec_onto (exec_birspReceived who line answer s) ?stray,
    fun p line s hout hreach => yields_of_eq (exec_onto (exec_biconflict p line s) (if_pos hout)) ?conflict,
    fun p granule s hcompact hlines => exec_onto (exec_bisnpTimeout p granule s)
      ((if_pos hcompact).trans (Dev.compactTimeout_unanswered hlines)),
    fun n line s hcompact hlines => exec_onto (exec_neighbourSnoopTimeout n line s)
      ((if_pos hcompact).trans (Dev.compactTimeout_unanswered hlines)),
    fun p line s hextended hout hkind height hmortal => yields_of_eq
      (exec_onto (exec_extendedBisnpTimeout p line s) (if_neg (by simp [hextended]))) ?eighth⟩
  case writeBack =>
    intro req h b e x d1 s hagent g kind d hentry howned hsafe hready hheld hout m
    exact exec_onto (exec_homeWriteBack req s) (Dev.writeIn_owner hagent hentry howned hsafe hready hheld hout)
  case released =>
    obtain ⟨hnone, hothers⟩ := (s.dev.untracks_dropEntry granule.toNat).shown
    rw [Dev.shown_pool, Dev.shown_sw, Dev.dropEntry_pool, Dev.dropEntry, Dev.sw_showSlice]
    exact ⟨hnone, hothers, rfl, rfl⟩
  case recovered => simp [hct, hkind, hwaits]
  case answered =>
    simp only [Dev.snoopOut_congr (s.dev.birspTap_dir who line.toNat), hout, if_true, Dev.birspTap_dir]
  case stray =>
    simp only [Dev.snoopOut_congr (s.dev.birspTap_dir who line.toNat), hout, Bool.false_eq_true, if_false]
  case conflict =>
    have hqueued := Dev.queued_respond hreach.1 hreach.2 (s.dev.homeEntity_internal (granuleOf line.toNat)) false (.conflictAck p line)
    exact ⟨Dev.queued_shown hqueued, by rw [Dev.shown_dir, (Dev.sends_respond _ _ _ _ _).dir], by rw [Dev.shown_pool, Dev.pool_respond]⟩
  case eighth =>
    have hrecords := Dev.extendedTimeout_declares hout hkind height hmortal
    have hdead : (s.dev.extendedTimeout (.port p) line.toNat).dir.dead = s.dev.dir.dead ++ [.port p] := congrArg DeathRecords.dead hrecords
    rw [Dev.shown_dir, Dev.shown_fab]
    refine ⟨by simp [hdead], ?_, ?_, congrArg DeathRecords.deaths hrecords⟩
    · exact (congrArg (fun r : DeathRecords => tget r.sweeps (.port p)) hrecords).trans (tget_tset_same _ _ _)
    · exact (congrArg (fun r : DeathRecords => tget r.timeouts (.port p)) hrecords).trans (tget_tdel_same _ _)

end Sys2Proof.Machine
end

section
/-! PROOFS. Gate lists that step and swap, and mirror sessions that drop and send their records (R124 to R129, R259). Settles O26. -/

namespace Sys2Proof.Machine

/-! ### GCL_CTL and the place in a gate list (R124, R126) -/

/-- The fields of GCL_CTL that the device writes are bits of it, at every egress. -/
theorem Reg.holds_gclCtl (e : Egress) {i : Nat} (h : 28 ≤ i ∧ i ≤ 30) : (gclCtl e).holds i i = true := by
  obtain ⟨hlow, hhigh⟩ := h
  cases e <;> interval_cases i <;> simp [gclCtl, Reg.holds, Reg.mask, Reg.layout, fieldMask]

@[simp] theorem Reg.show_gclCtl (e : Egress) : (gclCtl e).show = false := by cases e <;> rfl

theorem Dev.gclActive_shown (d : Dev) (e : Egress) : d.shown.gclActive e = d.gclActive e := d.rd_shown _ _ _ (Reg.show_gclCtl e)

/-- The bank in force is bank 0 or bank 1. -/
theorem Dev.gclActive_lt (d : Dev) (e : Egress) : d.gclActive e < 2 := d.rd_lt _ _ _

theorem Dev.reg_setGate (d : Dev) (e : Egress) (g : GateRun) (r : Reg) : (d.setGate e g).reg r = d.reg r := rfl

theorem Dev.gateRun_setGate (d : Dev) (e : Egress) (g : GateRun) : (d.setGate e g).gateRun e = g := tgetD_tset_same _ _ _ _

theorem Dev.gateRun_shown (d : Dev) (e : Egress) : d.shown.gateRun e = d.gateRun e := by rw [Dev.gateRun, Dev.shown_sw, Dev.gateRun]

theorem Dev.gatePlace_length (d : Dev) (e : Egress) (n : Nat) : (d.gatePlace e n).length = n := by
  unfold Dev.gatePlace
  dsimp only
  split <;> rfl

/-- Setting ERR or PENDING of a gate list shows the bit, leaves the bank in force and the list's place, and writes no other register. -/
theorem Dev.gclBit_shown (d : Dev) (e : Egress) {i : Nat} (h : i = 28 ∨ i = 30) :
    let t := (d.wr (gclCtl e) i i 1).shown
    t.bitOf (gclCtl e) i = true ∧ t.gclActive e = d.gclActive e ∧ t.sw.gates = d.sw.gates ∧
      ∀ r : Reg, r ≠ gclCtl e → r.show = false → t.reg r = d.reg r := by
  obtain ⟨hbit, _, hrest⟩ := d.wr_shown 1 (Reg.holds_gclCtl e (i := i) (by omega)) (Reg.show_gclCtl e)
  refine ⟨?_, ?_, by rw [Dev.shown_sw, Dev.wr_sw], hrest⟩
  · rw [Dev.bitOf, hbit]
    simp
  · rw [Dev.gclActive_shown]
    exact Dev.rd_wr_field _ _ (Reg.holds_gclCtl e (by decide)) (by omega)

theorem Dev.reg_swapBanks (d : Dev) (e : Egress) (r : Reg) :
    (d.swapBanks e).reg r = ((d.wr (gclCtl e) 30 30 0).wr (gclCtl e) 29 29 (1 - d.gclActive e)).reg r := by
  rw [Dev.swapBanks, Dev.reg_setGate]

/-- A swap puts the other bank in force with LENGTH + 1 entries, and PENDING is clear. -/
theorem Dev.swapBanks_shown (d : Dev) (e : Egress) :
    let t := (d.swapBanks e).shown
    t.bitOf (gclCtl e) 30 = false ∧ t.gclActive e = 1 - d.gclActive e ∧ (t.gateRun e).length = d.rd (gclCtl e) 5 0 + 1 ∧
      t.sw.msgs = d.sw.msgs ∧ ∀ r : Reg, r ≠ gclCtl e → r.show = false → t.reg r = d.reg r := by
  have hpending := Reg.holds_gclCtl e (i := 30) (by decide)
  have hactive := Reg.holds_gclCtl e (i := 29) (by decide)
  refine ⟨?_, ?_, ?_, by rw [Dev.shown_sw]; rfl, fun r hne hshow => ?_⟩
  · rw [Dev.bitOf_shown _ _ _ (Reg.show_gclCtl e), Dev.bitOf_eq_of_reg (d.reg_swapBanks e _), Dev.bitOf_wr_field _ _ hpending (by decide),
      Dev.bitOf_wr_same _ _ hpending]
    rfl
  · have hlt := d.gclActive_lt e
    rw [Dev.gclActive_shown, Dev.gclActive, Dev.rd_eq_of_reg (d.reg_swapBanks e _), Dev.rd_wr_same _ _ hactive]
    omega
  · rw [Dev.gateRun_shown, Dev.swapBanks, Dev.gateRun_setGate, Dev.gatePlace_length]
    rfl
  · rw [Dev.reg_shown _ _ hshow, Dev.reg_swapBanks, Dev.reg_wr_ne _ _ _ _ hne, Dev.reg_wr_ne _ _ _ _ hne]

/-- GCL_SWAP of an egress that has a gate list runs the swap's own rules. -/
theorem exec_gclSwap_listed {e : Egress} (h : ∀ t, e ≠ .home t) (s : State) : exec (.gclSwap e) s = .next (s.onto (gclSwap e s.dev)) := by
  refine exec_onto (exec_gclSwap e s) ?_
  cases e with
  | home t => exact absurd rfl (h t)
  | port p => rfl
  | link l => rfl

/-! ### Mirror sessions (R128, R129) -/

/-- The bit of MIR_CTL that enables a session, as a write carries it. -/
theorem getBits_write_enable (v : BitVec 32) : getBits (BitVec.ofNat 64 (v.toNat % 2 ^ 32)) 31 31 = 1 ↔ v.getLsbD 31 = true := by
  have hlt := v.isLt
  rw [getBits, BitVec.toNat_ofNat, ← BitVec.testBit_toNat, Nat.testBit_eq_decide_div_mod_eq, decide_eq_true_eq]
  omega

theorem exec_mirCtlWrite_taken {session : Fin 16} {v : BitVec 32} {s : State}
    (h : v.getLsbD 31 = false ∨ (s.dev.linkState session = 5 ∧ s.dev.sec.otp.lifecycle ≠ 2)) :
    exec (.mirCtlWrite session v) s = .next (s.onto (s.dev.setReg (.mirCtl session) (BitVec.ofNat 64 v.toNat))) := by
  refine exec_onto (exec_mirCtlWrite session v s) ?_
  have hword : v.toNat % 2 ^ 32 = v.toNat := Nat.mod_eq_of_lt v.isLt
  have hoff : ¬(getBits (BitVec.ofNat 64 (v.toNat % 2 ^ 32)) 31 31 = 1 ∧ (s.dev.linkState session ≠ 5 ∨ s.dev.sec.otp.lifecycle = 2)) := by
    rw [getBits_write_enable]
    rintro ⟨hen, hbarred⟩
    rcases h with hclear | ⟨hlink, hcycle⟩
    · rw [hclear] at hen; cases hen
    · exact hbarred.elim (· hlink) hcycle
  rw [mirCtlWrite, if_neg hoff, hword]

theorem Dev.session_congr {d d' : Dev} (h : d'.sw.sessions = d.sw.sessions) (n : Nat) : d'.session n = d.session n := by
  rw [Dev.session, Dev.session, h]

theorem Dev.session_setSession (d : Dev) (n : Nat) (x : MirrorSession) : (d.setSession n x).session n = x := tgetD_tset_same _ _ _ _

theorem Dev.session_mirrorDrop (d : Dev) (n : Nat) :
    (d.mirrorDrop n).session n = { d.session n with drops := satAdd 0xFFFFFFFF (d.session n).drops 1 } :=
  (Dev.session_congr (by rw [Dev.mirrorDrop, Dev.count_sw]) n).trans (d.session_setSession n _)

theorem Dev.mirrorDrop_sw_msgs (d : Dev) (n : Nat) : (d.mirrorDrop n).sw.msgs = d.sw.msgs := by
  rw [Dev.mirrorDrop, Dev.count_sw]
  rfl

/-! ### Cells that become free -/

/-- A later device still holds the messages that wait, and its mirror sessions stand where they stood. -/
structure Dev.KeepsBuffer (d d' : Dev) : Prop where
  msgs : ∀ m ∈ d.sw.msgs, m ∈ d'.sw.msgs
  sessions : d'.sw.sessions = d.sw.sessions

theorem Dev.KeepsBuffer.of_same {d d' : Dev} (hmsgs : d'.sw.msgs = d.sw.msgs) (hsessions : d'.sw.sessions = d.sw.sessions) :
    d.KeepsBuffer d' :=
  ⟨fun m hm => by rwa [hmsgs], hsessions⟩

theorem Dev.KeepsBuffer.refl (d : Dev) : d.KeepsBuffer d := .of_same rfl rfl

theorem Dev.KeepsBuffer.trans {d d' d'' : Dev} (h : d.KeepsBuffer d') (h' : d'.KeepsBuffer d'') : d.KeepsBuffer d'' :=
  ⟨fun m hm => h'.msgs m (h.msgs m hm), h'.sessions.trans h.sessions⟩

theorem Dev.tag_sw_sessions (d : Dev) (m : Msg) : (d.tag m).2.sw.sessions = d.sw.sessions := by
  unfold Dev.tag Dev.tagCredit
  dsimp only
  split <;> rfl

theorem Dev.store_sw_sessions (d : Dev) (m : Msg) : (d.store m).sw.sessions = d.sw.sessions := by
  unfold Dev.store
  split
  · split <;> rfl
  · simp only [Dev.showCells, Dev.wr_sw, Dev.markHeads, Dev.tag_sw_sessions, Dev.useAside_sw]
    rfl

theorem Dev.keepsBuffer_store (d : Dev) (m : Msg) : d.KeepsBuffer (d.store m) := by
  refine ⟨fun x hx => ?_, d.store_sw_sessions m⟩
  rcases d.store_sw m with ⟨_, _, _, _, _, _, _, hmsgs⟩ | ⟨_, hmsgs, _⟩ | ⟨_, _, hsame⟩
  · rw [hmsgs]
    exact List.mem_append_left _ hx
  · rwa [hmsgs]
  · rwa [hsame]

theorem Dev.keepsBuffer_admitBlocked (d : Dev) : d.KeepsBuffer d.admitBlocked := by
  have hcleared : d.KeepsBuffer { d with sw := { d.sw with blocked := [] } } := .of_same rfl rfl
  exact List.foldlRecOn (motive := fun x : Dev => d.KeepsBuffer x) _ _ hcleared fun x hx m _ => hx.trans (x.keepsBuffer_store m)

theorem Dev.keepsBuffer_quarterLeaves (d : Dev) : d.KeepsBuffer d.quarterLeaves := by
  unfold Dev.quarterLeaves
  split
  · split
    · exact .refl d
    · exact .of_same rfl rfl
  · exact .refl d

theorem Dev.keepsBuffer_cellsFreed (d : Dev) : d.KeepsBuffer d.cellsFreed := by
  have hshown : d.quarterLeaves.KeepsBuffer d.quarterLeaves.showCells := .of_same rfl rfl
  exact (d.keepsBuffer_quarterLeaves.trans hshown).trans (Dev.keepsBuffer_admitBlocked _)

/-- What a session has read makes room for messages, and takes none away. -/
theorem Dev.keepsBuffer_readDone (d : Dev) (id : Nat) : d.KeepsBuffer (d.readDone id) := by
  unfold Dev.readDone
  split
  · split
    · exact .refl d
    · next m _ _ =>
      have hback : d.KeepsBuffer (d.cellsBack m) := .of_same (by rw [Dev.cellsBack_sw]) (by rw [Dev.cellsBack_sw])
      refine hback.trans (.trans ?_ (Dev.keepsBuffer_cellsFreed _))
      exact .of_same rfl rfl
  · exact .refl d

theorem Dev.keepsBuffer_shown (d : Dev) : d.KeepsBuffer d.shown := .of_same (by rw [Dev.shown_sw]) (by rw [Dev.shown_sw])

/-- The session without its oldest record, which is dropped and counted. -/
def Dev.oldestDropped (d : Dev) (n : Nat) (r : MirrorRec) (rest : List MirrorRec) : Dev :=
  ((d.setSession n { d.session n with queue := rest }).mirrorDrop n).readDone r.msg

theorem exec_mirrorCellWaitExpiry_drops {session : Fin 16} {r : MirrorRec} {rest : List MirrorRec} {s : State}
    (h : (s.dev.session session).queue = r :: rest) :
    exec (.mirrorCellWaitExpiry session) s = .next (s.onto (s.dev.oldestDropped session r rest)) :=
  exec_onto (exec_mirrorCellWaitExpiry session s) (by dsimp only; rw [h]; rfl)

theorem Dev.oldestDropped_shown (d : Dev) (n : Nat) (r : MirrorRec) (rest : List MirrorRec) :
    let t := (d.oldestDropped n r rest).shown
    t.session n = ⟨rest, satAdd 0xFFFFFFFF (d.session n).drops 1, (d.session n).seq⟩ ∧ ∀ m ∈ d.sw.msgs, m ∈ t.sw.msgs := by
  have hkeeps := (Dev.keepsBuffer_readDone ((d.setSession n { d.session n with queue := rest }).mirrorDrop n) r.msg).trans
    (Dev.keepsBuffer_shown _)
  refine ⟨?_, fun m hm => hkeeps.msgs m (by rwa [Dev.mirrorDrop_sw_msgs])⟩
  refine (Dev.session_congr hkeeps.sessions n).trans ?_
  rw [Dev.session_mirrorDrop, Dev.session_setSession]

/-- A session's oldest record goes out in its data blocks, and the session goes on with the next number. -/
def Dev.recordSent (d : Dev) (n : Fin 16) (r : MirrorRec) (rest : List MirrorRec) (bytes : List Byte) : Dev :=
  (((((d.setSession n ⟨rest, 0, ((d.session n).seq + 1) % 65536⟩).readDone r.msg).emit (.block n (recBlock (bytes.length / 8) n))).emit
    (.mirror n bytes))).count n 0x1040 1

theorem exec_mirrorRecordSend_sends {session : Fin 16} {r : MirrorRec} {rest : List MirrorRec} {s : State}
    (h : (s.dev.session session).queue = r :: rest) (hlink : s.dev.linkState session = 5) :
    exec (.mirrorRecordSend session) s = .next (s.onto (s.dev.recordSent session r rest
      (mirrorBytes session r (s.dev.session session).drops (s.dev.session session).seq))) :=
  exec_onto (exec_mirrorRecordSend session s) (by dsimp only; rw [h]; exact if_neg (not_not_intro hlink))

theorem Dev.recordSent_shown (d : Dev) (n : Fin 16) (r : MirrorRec) (rest : List MirrorRec) (bytes : List Byte) :
    let t := (d.recordSent n r rest bytes).shown
    .mirror n bytes ∈ t.out ∧ .block n (recBlock (bytes.length / 8) n) ∈ t.out ∧
      t.session n = ⟨rest, 0, ((d.session n).seq + 1) % 65536⟩ ∧ ∀ m ∈ d.sw.msgs, m ∈ t.sw.msgs := by
  have hkeeps : (d.setSession n ⟨rest, 0, ((d.session n).seq + 1) % 65536⟩).KeepsBuffer (d.recordSent n r rest bytes).shown := by
    refine ((Dev.keepsBuffer_readDone _ r.msg).trans (.of_same ?_ ?_)).trans (Dev.keepsBuffer_shown _)
    all_goals
      rw [Dev.recordSent, Dev.count_sw]
      rfl
  refine ⟨Dev.mem_shown ?_, Dev.mem_shown ?_, ?_, hkeeps.msgs⟩
  · rw [Dev.recordSent, Dev.count_out]
    exact Dev.mem_emit _ _
  · rw [Dev.recordSent, Dev.count_out]
    exact (Dev.out_emit _ _).subset (Dev.mem_emit _ _)
  · rw [Dev.session_congr hkeeps.sessions, Dev.session_setSession]

/-! ### The obligation -/

/-- Settles O26: a gate list is followed by what its one step writes; a session's record is taken off its queue before anything else, and
the cells that it frees only let messages in. -/
theorem gatesSwapAndMirrorSessionsSend : Obligations.GatesSwapAndMirrorSessionsSend := by
  unfold Obligations.GatesSwapAndMirrorSessionsSend
  refine ⟨fun egress s hen => exec_onto (exec_gateIntervalEnd egress s) (if_pos hen),
    fun egress s hen hpending => exec_onto (exec_gateCycleStart egress s) ((if_pos hen).trans (if_neg (by simp [hpending]))),
    fun egress s hen hpending => yields_of_eq (exec_onto (exec_gateCycleStart egress s) ((if_pos hen).trans (if_pos hpending)))
      (s.dev.swapBanks_shown egress),
    ?bad, ?pending, ?atOnce, ?enable,
    fun session v s hen hbarred => exec_onto (exec_mirCtlWrite session v s) (if_pos ⟨(getBits_write_enable v).2 hen, hbarred⟩),
    ?drop, ?send⟩
  case bad =>
    intro egress s hlisted hbad
    refine yields_of_eq (exec_gclSwap_listed hlisted s) ?_
    rw [gclSwap, hbad]
    exact s.dev.gclBit_shown egress (.inl rfl)
  case pending =>
    intro egress s hlisted hok hen
    refine yields_of_eq (exec_gclSwap_listed hlisted s) ?_
    rw [gclSwap, hok, hen]
    obtain ⟨hset, hactive, hgates, _⟩ := s.dev.gclBit_shown egress (.inr rfl)
    exact ⟨hset, hactive, hgates⟩
  case atOnce =>
    intro egress s hlisted hok hoff
    refine yields_of_eq (exec_gclSwap_listed hlisted s) ?_
    rw [gclSwap, hok, hoff]
    obtain ⟨_, hactive, hlength, _⟩ := s.dev.swapBanks_shown egress
    exact ⟨hactive, hlength⟩
  case enable =>
    intro session v s hallowed
    refine yields_of_eq (exec_mirCtlWrite_taken hallowed) ⟨?_, ?_, fun r hne hshow => ?_⟩
    · rw [Dev.reg_shown _ _ rfl, Dev.reg_setReg_same]
    · unfold Dev.onlyRegs
      simp
    · rw [Dev.reg_shown _ _ hshow, Dev.reg_setReg_ne _ _ hne]
  case drop =>
    intro session r rest s hqueue
    obtain ⟨hsession, hmsgs⟩ := s.dev.oldestDropped_shown session r rest
    refine yields_of_eq (exec_mirrorCellWaitExpiry_drops hqueue) ?_
    rw [hsession]
    exact ⟨rfl, rfl, rfl, hmsgs⟩
  case send =>
    intro session r rest s hqueue hlink bytes
    exact yields_of_eq (exec_mirrorRecordSend_sends hqueue hlink) (s.dev.recordSent_shown session r rest bytes)

end Sys2Proof.Machine
end

section
/-! PROOFS. A port's way from IDLE to ACTIVE, what it answers there, and its power and width events (R200 to R222, R305, R356). Settles O35. -/

namespace Sys2Proof.Machine

/-! ### The fields of PRT_STATUS (Table CP-13) -/

/-- STATE, RATE, LANES, FLIT256, BI, L0P and PM: highest and lowest bit. -/
def prtStatusFields : List (Nat × Nat) := [(31, 28), (23, 21), (20, 16), (15, 15), (14, 14), (11, 11), (10, 8)]

/-- Each of them lies in the register. -/
theorem Reg.holds_prtStatus (p : Nat) {hi lo : Nat} (h : (hi, lo) ∈ prtStatusFields) : (Reg.prtStatus p).holds hi lo = true := by
  simp only [prtStatusFields, List.mem_cons, Prod.mk.injEq, List.not_mem_nil, or_false] at h
  rcases h with ⟨rfl, rfl⟩ | ⟨rfl, rfl⟩ | ⟨rfl, rfl⟩ | ⟨rfl, rfl⟩ | ⟨rfl, rfl⟩ | ⟨rfl, rfl⟩ | ⟨rfl, rfl⟩ <;>
    simp [Reg.holds, Reg.mask, Reg.layout, fieldMask]

/-- A field of PRT_STATUS keeps what it holds when a field beside it is written. -/
theorem Dev.rd_wrPrtStatus (d : Dev) (p n : Nat) {hi lo hi' lo' : Nat}
    (h : (hi', lo') ∈ prtStatusFields) (hne : hi' < lo ∨ hi < lo') :
    (d.wr (.prtStatus p) hi lo n).rd (.prtStatus p) hi' lo' = d.rd (.prtStatus p) hi' lo' :=
  Dev.rd_wr_field d n (Reg.holds_prtStatus p h) hne

/-- A field of PRT_STATUS holds the number that is written to it, where it is wide enough. -/
theorem Dev.rd_wrPrtStatus_same (d : Dev) (p : Nat) {hi lo n : Nat}
    (h : (hi, lo) ∈ prtStatusFields) (hn : n < 2 ^ (hi + 1 - lo)) :
    (d.wr (.prtStatus p) hi lo n).rd (.prtStatus p) hi lo = n :=
  (Dev.rd_wr_same d n (Reg.holds_prtStatus p h)).trans (Nat.mod_eq_of_lt hn)

/-! ### Entering a state that writes no record (Table CP-5) -/

/-- Up to TEARDOWN, entering a state writes three fields. -/
theorem Dev.enterPort_quiet (d : Dev) (p : Nat) {st : Nat} (hst : st < 8) (reason : Nat) :
    d.enterPort p st reason = ((d.wr (.prtStatus p) 31 28 st).wr (.prtStatus p) 27 24 0).wr (.hpStatus p) 26 26 0 := by
  unfold Dev.enterPort
  dsimp only
  rw [if_neg (by omega), if_neg (by omega), if_neg (by omega)]

theorem Dev.onlyRegs_shown {d d' : Dev} (h : d.onlyRegs d') : d.onlyRegs d'.shown := by
  unfold Dev.onlyRegs at h ⊢
  simpa using h

theorem Dev.enterPort_pool (d : Dev) (p st reason : Nat) : (d.enterPort p st reason).pool = d.pool := by
  unfold Dev.enterPort
  dsimp only
  split <;> simp

/-- Entering a state leaves the other ports' states. -/
theorem Dev.enterPort_others (d : Dev) (p st reason : Nat) {q : Nat} (h : q ≠ p) : (d.enterPort p st reason).portState q = d.portState q :=
  d.enterPort_rd p st reason (.prtStatus q) 31 28 (Reg.holds_prtStatus q (by decide)) rfl (fun he => absurd (Reg.prtStatus.inj he) h) (by simp)

theorem Dev.enterPort_mode (d : Dev) (p st reason q : Nat) : (d.enterPort p st reason).portMode q = d.portMode q :=
  d.enterPort_rd p st reason (.prtCfg q) 31 28 (by simp [Reg.holds, Reg.mask, Reg.layout, fieldMask]) rfl (by simp) (by simp)

/-- A port that enters a state up to TEARDOWN is in it, and nothing but registers has changed. -/
theorem Dev.enterPort_shown (d : Dev) (p : Nat) {st : Nat} (hst : st < 8) :
    let t := (d.enterPort p st 0).shown
    t.portState p = st ∧ d.onlyRegs t ∧ ∀ q, q ≠ p → t.portState q = d.portState q := by
  refine ⟨?_, Dev.onlyRegs_shown ?_, fun q hq => ?_⟩
  · rw [Dev.portState_shown, Dev.enterPort_state _ _ _ _ (by omega)]
  · rw [Dev.enterPort_quiet _ _ hst]
    unfold Dev.onlyRegs
    simp
  · rw [Dev.portState_shown, Dev.enterPort_others _ _ _ _ hq]

/-- A port that fails is in FAILED with its reason. -/
theorem Dev.failPort_shown (d : Dev) (p : Fin 64) {reason : Nat} (h : reason < 16) :
    (d.failPort p reason).shown.portState p = 10 ∧ (d.failPort p reason).shown.rd (.prtStatus p) 27 24 = reason := by
  obtain ⟨hstate, hreason⟩ := d.failPort_state p reason
  exact ⟨(Dev.portState_shown _ _).trans hstate, (Dev.rd_shown _ _ _ _ rfl).trans (hreason.trans (Nat.mod_eq_of_lt h))⟩

/-- A power fault at the start fails the port with reason 2 and shows PFAULT (R213). -/
theorem Dev.powerFault_shown (d : Dev) (p : Nat) :
    let t := ((d.raisePowerFault p).enterPort p 10 2).shown
    t.portState p = 10 ∧ t.rd (.prtStatus p) 27 24 = 2 ∧ t.bitOf (.hpStatus p) 25 = true := by
  refine ⟨?_, ?_, ?_⟩
  · rw [Dev.portState_shown, Dev.enterPort_state _ _ _ _ (by decide)]
  · rw [Dev.rd_shown _ _ _ _ rfl, Dev.enterPort_reason]
    rfl
  · have hfield : (Reg.hpStatus p).holds 25 25 = true := by simp [Reg.holds, Reg.mask, Reg.layout, fieldMask]
    rw [Dev.bitOf_shown _ _ _ rfl, Dev.bitOf, Dev.enterPort_rd _ _ _ _ _ _ _ hfield rfl (by simp) (by simp)]
    exact d.raisePowerFault_bit p

/-! ### DL_Up (R200, R203) -/

theorem Dev.gateWarn_pool (d : Dev) (p : Fin 64) : (d.gateWarn p).pool = d.pool := by
  unfold Dev.gateWarn
  dsimp only
  split <;> simp

theorem Dev.gateWarn_port (d : Dev) (p : Fin 64) : (d.gateWarn p).port = d.port := by
  unfold Dev.gateWarn
  dsimp only
  split <;> simp

/-- Warning of short gate intervals takes no field of a port's registers. -/
theorem Dev.gateWarn_rd (d : Dev) (p : Fin 64) {r : Reg} (h : r.side = false) (hi lo : Nat) : (d.gateWarn p).rd r hi lo = d.rd r hi lo :=
  Dev.rd_eq_of_reg (d.gateWarn_reg p r h) hi lo

/-- What PRT_STATUS shows of a link that has come up. -/
def Dev.showLink (d : Dev) (p rate lanes : Nat) (flit256 bi : Bool) : Dev :=
  let x := (d.wr (.prtStatus p) 23 21 rate).wr (.prtStatus p) 20 16 lanes
  (x.wr (.prtStatus p) 15 15 (if flit256 then 1 else 0)).wr (.prtStatus p) 14 14
    (if flit256 && bi && decide (x.portMode p = 1) then 1 else 0)

theorem Dev.wrPrtStatus_mode (d : Dev) (p hi lo n q : Nat) : (d.wr (.prtStatus p) hi lo n).portMode q = d.portMode q :=
  Dev.rd_wr_ne _ _ _ _ _ _ (by simp)

theorem Dev.showLink_fields (d : Dev) (p : Nat) {rate lanes : Nat} (hrate : rate < 8) (hlanes : lanes < 32) (flit256 bi : Bool) :
    let t := d.showLink p rate lanes flit256 bi
    t.rd (.prtStatus p) 23 21 = rate ∧ t.rd (.prtStatus p) 20 16 = lanes ∧ t.bitOf (.prtStatus p) 15 = flit256 ∧
      t.bitOf (.prtStatus p) 14 = (flit256 && bi && decide (d.portMode p = 1)) := by
  refine ⟨?_, ?_, ?_, ?_⟩
  · rw [Dev.showLink, Dev.rd_wrPrtStatus _ _ _ (by decide) (by decide), Dev.rd_wrPrtStatus _ _ _ (by decide) (by decide),
      Dev.rd_wrPrtStatus _ _ _ (by decide) (by decide), Dev.rd_wrPrtStatus_same _ _ (by decide) hrate]
  · rw [Dev.showLink, Dev.rd_wrPrtStatus _ _ _ (by decide) (by decide), Dev.rd_wrPrtStatus _ _ _ (by decide) (by decide),
      Dev.rd_wrPrtStatus_same _ _ (by decide) hlanes]
  · rw [Dev.showLink, Dev.bitOf_wr_field _ _ (Reg.holds_prtStatus p (by decide)) (by decide),
      Dev.bitOf_wr_same _ _ (Reg.holds_prtStatus p (by decide))]
    cases flit256 <;> rfl
  · rw [Dev.showLink, Dev.bitOf_wr_same _ _ (Reg.holds_prtStatus p (by decide)), Dev.wrPrtStatus_mode, Dev.wrPrtStatus_mode]
    cases flit256 && bi && decide (d.portMode p = 1) <;> rfl

/-- A link has come up: its port is in SETUP and shows it. -/
def Dev.dlUp (d : Dev) (p : Fin 64) (rate lanes : Nat) (flit256 bi : Bool) : Dev :=
  ((d.showLink p rate lanes flit256 bi).enterPort p 4 0).gateWarn p

theorem Dev.dlUp_rd (d : Dev) (p : Fin 64) (rate lanes : Nat) (flit256 bi : Bool) {hi lo : Nat}
    (h : (hi, lo) ∈ [(23, 21), (20, 16), (15, 15), (14, 14)]) :
    (d.dlUp p rate lanes flit256 bi).shown.rd (.prtStatus p) hi lo = (d.showLink p rate lanes flit256 bi).rd (.prtStatus p) hi lo := by
  have hfield : (Reg.prtStatus p).holds hi lo = true := Reg.holds_prtStatus p (List.mem_cons_of_mem _ (List.mem_append_left _ h))
  have hlow : hi < 24 := by
    simp only [List.mem_cons, Prod.mk.injEq, List.not_mem_nil, or_false] at h
    omega
  rw [Dev.rd_shown _ _ _ _ rfl, Dev.dlUp, Dev.gateWarn_rd _ _ rfl, Dev.enterPort_rd _ _ _ _ _ _ _ hfield rfl (fun _ => hlow) (by simp)]

theorem Dev.dlUp_bitOf (d : Dev) (p : Fin 64) (rate lanes : Nat) (flit256 bi : Bool) {i : Nat} (h : i = 15 ∨ i = 14) :
    (d.dlUp p rate lanes flit256 bi).shown.bitOf (.prtStatus p) i = (d.showLink p rate lanes flit256 bi).bitOf (.prtStatus p) i := by
  rw [Dev.bitOf, Dev.dlUp_rd _ _ _ _ _ _ (by rcases h with rfl | rfl <;> decide), Dev.bitOf]

/-- The flit modes that a port takes are those of its mode, which DL_Up leaves. -/
theorem Dev.flitsOk_dlUp (d : Dev) (p : Fin 64) (rate lanes : Nat) (flit256 bi : Bool) :
    (d.dlUp p rate lanes flit256 bi).flitsOk p rate flit256 = d.flitsOk p rate flit256 := by
  have hmode : (d.dlUp p rate lanes flit256 bi).portMode p = d.portMode p := by
    rw [Dev.portMode, Dev.dlUp, Dev.gateWarn_rd _ _ rfl]
    refine (Dev.enterPort_mode _ _ _ _ _).trans ?_
    simp only [Dev.showLink, Dev.wrPrtStatus_mode]
  rw [Dev.flitsOk, Dev.flitsOk, hmode]

theorem Dev.trains_eq {d : Dev} {p rate lanes : Nat} {flit : Bool} (hrate : rate ≤ d.rd (.prtCfg p) 23 20)
    (hlanes : lanes ≤ 4 * widthQuads (d.rd (.prtCfg p) 27 26)) (hflit : flit = true ∨ rate ≤ 5) : d.trains p rate lanes flit = true := by
  unfold Dev.trains
  simpa [hrate, hlanes] using hflit

theorem exec_portDlUp_trains {p : Fin 64} {rate lanes : Nat} {flit256 : Bool} {s : State} (hstate : s.dev.portState p = 3)
    (htrains : s.dev.trains p rate lanes flit256 = true) (bi ok : Bool) :
    exec (.portDlUp p rate lanes flit256 bi ok) s = .next (s.onto
      (if ok && s.dev.flitsOk p rate flit256 then s.dev.dlUp p rate lanes flit256 bi else (s.dev.dlUp p rate lanes flit256 bi).failPort p 1)) := by
  refine exec_onto (exec_portDlUp p rate lanes flit256 bi ok s) ((if_pos ⟨hstate, htrains⟩).trans ?_)
  rw [← Dev.flitsOk_dlUp _ _ _ lanes _ bi]
  rfl

/-! ### Low power and width (R200, R356) -/

theorem Dev.reg_quadSleeps (d : Dev) (i : Nat) {r : Reg} (h : ∀ i, r ≠ .domStatus i) : (d.quadSleeps i).reg r = d.reg r := by
  unfold Dev.quadSleeps Dev.setDomState
  dsimp only
  split_ifs
  · exact Dev.reg_wr_ne _ _ _ _ (h i)
  · exact Dev.reg_wr_ne _ _ _ _ (h i)
  · rfl

/-- A quad that sleeps leaves pool and switch. -/
theorem Dev.quadSleeps_frame (d : Dev) (i : Nat) : (d.quadSleeps i).pool = d.pool ∧ (d.quadSleeps i).sw = d.sw := by
  unfold Dev.quadSleeps
  dsimp only
  split_ifs <;> simp

/-- PM of PRT_STATUS, and a port's state beside it. -/
theorem Dev.wrPm_fields (d : Dev) (p : Nat) {n : Nat} (h : n < 8) :
    (d.wr (.prtStatus p) 10 8 n).rd (.prtStatus p) 10 8 = n ∧ (d.wr (.prtStatus p) 10 8 n).portState p = d.portState p :=
  ⟨d.rd_wrPrtStatus_same p (by decide) h, d.rd_wrPrtStatus p n (by decide) (by decide)⟩

/-- PM changes, and each quad of the port takes a step that leaves the port's status: PM is shown beside the state. -/
theorem Dev.lowPower_shown (d : Dev) (p : Fin 64) {f : Dev → Nat → Dev} (hreg : ∀ d i, (f d i).reg (.prtStatus p) = d.reg (.prtStatus p))
    (hpool : ∀ d i, (f d i).pool = d.pool) (quads : List Nat) {n : Nat} (hn : n < 8) :
    let t := (quads.foldl f (d.wr (.prtStatus p) 10 8 n)).shown
    t.rd (.prtStatus p) 10 8 = n ∧ t.portState p = d.portState p ∧ t.pool = d.pool := by
  have hquads := foldl_frame (fun d : Dev => d.reg (.prtStatus p)) f quads hreg (d.wr (.prtStatus p) 10 8 n)
  obtain ⟨hpm, hstate⟩ := d.wrPm_fields p hn
  refine ⟨?_, ?_, (Dev.shown_pool _).trans (foldl_frame Dev.pool f quads hpool _)⟩
  · rw [Dev.rd_shown _ _ _ _ rfl, Dev.rd_eq_of_reg hquads, hpm]
  · rw [Dev.portState_shown, ← hstate]
    exact Dev.rd_eq_of_reg hquads _ _

/-- A link under L0p: its width shown as trained, with the narrower one beside it. -/
def Dev.narrowed (d : Dev) (p : Fin 64) (lanes : Nat) : Dev :=
  ((d.wr (.prtStatus p) 11 11 (if lanes < d.rd (.prtStatus p) 20 16 then 1 else 0)).modPort p fun r => { r with l0p := lanes }).gateWarn p

theorem Dev.narrowed_shown (d : Dev) (p : Fin 64) (lanes : Nat) :
    let t := (d.narrowed p lanes).shown
    (t.prec p).l0p = lanes ∧ t.rd (.prtStatus p) 20 16 = d.rd (.prtStatus p) 20 16 ∧ t.rd (.prtStatus p) 23 21 = d.rd (.prtStatus p) 23 21 ∧
      t.bitOf (.prtStatus p) 11 = decide (lanes < d.rd (.prtStatus p) 20 16) ∧ t.portState p = d.portState p := by
  have hreg : (d.narrowed p lanes).shown.reg (.prtStatus p) =
      (d.wr (.prtStatus p) 11 11 (if lanes < d.rd (.prtStatus p) 20 16 then 1 else 0)).reg (.prtStatus p) :=
    (Dev.reg_shown _ _ rfl).trans (Dev.gateWarn_reg _ p _ rfl)
  refine ⟨?_, ?_, ?_, ?_, ?_⟩
  · rw [Dev.prec_shown, Dev.prec, Dev.narrowed, Dev.gateWarn_port]
    exact congrArg PortRec.l0p (Dev.modPort_prec _ _ _)
  · exact (Dev.rd_eq_of_reg hreg _ _).trans (d.rd_wrPrtStatus p _ (by decide) (by decide))
  · exact (Dev.rd_eq_of_reg hreg _ _).trans (d.rd_wrPrtStatus p _ (by decide) (by decide))
  · rw [Dev.bitOf_eq_of_reg hreg, Dev.bitOf_wr_same _ _ (Reg.holds_prtStatus p (by decide))]
    by_cases hnarrow : lanes < d.rd (.prtStatus p) 20 16 <;> simp [hnarrow]
  · exact (Dev.rd_eq_of_reg hreg _ _).trans (d.rd_wrPrtStatus p _ (by decide) (by decide))

/-- A link that has trained to another rate and width. -/
def Dev.retrained (d : Dev) (p : Fin 64) (rate lanes : Nat) : Dev :=
  (((d.wr (.prtStatus p) 23 21 rate).wr (.prtStatus p) 20 16 lanes).wr (.prtStatus p) 11 11 0).gateWarn p

theorem Dev.retrained_shown (d : Dev) (p : Fin 64) {rate lanes : Nat} (hrate : rate < 8) (hlanes : lanes < 32) :
    let t := (d.retrained p rate lanes).shown
    t.rd (.prtStatus p) 20 16 = lanes ∧ t.rd (.prtStatus p) 23 21 = rate ∧ t.bitOf (.prtStatus p) 11 = false ∧
      t.portState p = d.portState p := by
  have hreg : (d.retrained p rate lanes).shown.reg (.prtStatus p) =
      (((d.wr (.prtStatus p) 23 21 rate).wr (.prtStatus p) 20 16 lanes).wr (.prtStatus p) 11 11 0).reg (.prtStatus p) :=
    (Dev.reg_shown _ _ rfl).trans (Dev.gateWarn_reg _ p _ rfl)
  refine ⟨(Dev.rd_eq_of_reg hreg _ _).trans ?_, (Dev.rd_eq_of_reg hreg _ _).trans ?_, (Dev.bitOf_eq_of_reg hreg _).trans ?_,
    (Dev.rd_eq_of_reg hreg _ _).trans ?_⟩
  · rw [Dev.rd_wrPrtStatus _ _ _ (by decide) (by decide), Dev.rd_wrPrtStatus_same _ _ (by decide) hlanes]
  · rw [Dev.rd_wrPrtStatus _ _ _ (by decide) (by decide), Dev.rd_wrPrtStatus _ _ _ (by decide) (by decide),
      Dev.rd_wrPrtStatus_same _ _ (by decide) hrate]
  · exact Dev.bitOf_wr_same _ _ (Reg.holds_prtStatus p (by decide))
  · rw [Dev.rd_wrPrtStatus _ _ _ (by decide) (by decide), Dev.rd_wrPrtStatus _ _ _ (by decide) (by decide),
      Dev.rd_wrPrtStatus _ _ _ (by decide) (by decide)]
    rfl

/-- A port serves a change of rate or width while its link is up, within what it trains to and its flit mode takes. -/
theorem exec_portWidthOrRateChange_taken {p : Fin 64} {rate lanes : Nat} {s : State}
    (hup : s.dev.portState p = 4 ∨ s.dev.portState p = 5 ∨ s.dev.portState p = 6)
    (htrains : s.dev.trains p rate lanes (s.dev.bitOf (.prtStatus p) 15) = true)
    (hflits : s.dev.flitsOk p rate (s.dev.bitOf (.prtStatus p) 15) = true) (l0p : Bool) :
    exec (.portWidthOrRateChange p rate lanes l0p) s = .next (s.onto
      (if l0p then
        if s.dev.bitOf (.prtStatus p) 15 = true ∧ rate = s.dev.rd (.prtStatus p) 23 21 ∧ lanes ≤ s.dev.rd (.prtStatus p) 20 16 then
          s.dev.narrowed p lanes
        else s.dev
      else s.dev.retrained p rate lanes)) :=
  exec_onto (exec_portWidthOrRateChange p rate lanes l0p s) (if_neg (by simp [hup, htrains, hflits]))

/-! ### Configuration requests (R205, R206) -/

/-- The functions of a HOST port (Table CP-4). -/
theorem Dev.functionThere_iff (d : Dev) (p fn : Nat) :
    d.functionThere p fn = true ↔ fn ≤ 1 ∨ (fn = 2 ∧ d.bitOf (.prtCfg p) 25 = true) ∨
      (64 ≤ fn ∧ fn < 128 ∧ d.portMode (fn - 64) = 3 ∧ d.rd (.prtCfg (fn - 64)) 17 12 = p) := by
  simp [Dev.functionThere, or_assoc]

/-- What a request sends is all that it changes of the pool and the ports. -/
theorem Dev.emit_shown (d : Dev) (o : Out) :
    o ∈ (d.emit o).shown.out ∧ (d.emit o).shown.pool = d.pool ∧ (d.emit o).shown.port = d.port :=
  ⟨Dev.mem_shown (d.mem_emit o), by simp, by simp⟩

/-! ### Bring-up of a POOL port (R218) -/

/-- The member's capacity is that of the port's set; the first step that fails gives the reason. -/
theorem exec_poolBringUp_member {p : Fin 64} {x : Nat × Nat × Nat} {s : State} (hmode : s.dev.portMode p = 2) (hstate : s.dev.portState p = 4)
    (hset : s.dev.setOfPort p = some x) (enumerates cdatOk : Bool) (capacity : Nat) (commitOk : Bool) :
    exec (.poolBringUp p enumerates cdatOk capacity commitOk) s = .next (s.onto
      (if !enumerates || !cdatOk then s.dev.failPort p 4
      else if capacity < tgetD s.dev.pool.setCap x.1 0 then s.dev.failPort p 5
      else if !commitOk then s.dev.failPort p 4
      else s.dev.modPort p fun r => { r with readyOk := true })) := by
  refine exec_onto (exec_poolBringUp p enumerates cdatOk capacity commitOk s) ((if_pos ⟨hmode, hstate⟩).trans ?_)
  rw [hset]
  rfl

/-! ### The obligation -/

/-- Settles O35: a start, a failure and an end of set-up each enter one state; DL_Up, power events and width changes write fields of
PRT_STATUS, which the steps after them leave. -/
theorem portsStartTrainAndServe : Obligations.PortsStartTrainAndServe := by
  unfold Obligations.PortsStartTrainAndServe
  refine ⟨fun p s hstate hmay hmode => yields_of_eq (exec_onto (exec_portStartCondition p s) ((if_pos ⟨hstate, hmay⟩).trans (if_pos hmode)))
      (s.dev.enterPort_shown p (by decide)),
    fun p s hstate hmay hmode hfine => yields_of_eq (exec_onto (exec_portStartCondition p s)
      ((if_pos ⟨hstate, hmay⟩).trans ((if_neg hmode).trans (if_pos hfine)))) (s.dev.enterPort_shown p (by decide)),
    fun p s hstate hmay hmode hfault => yields_of_eq (exec_onto (exec_portStartCondition p s)
      ((if_pos ⟨hstate, hmay⟩).trans ((if_neg hmode).trans (if_neg (by simp [hfault]))))) (s.dev.powerFault_shown p),
    fun p s hstate hfine => yields_of_eq (exec_onto (exec_portPowerElapsed p s) (if_pos ⟨hstate, hfine⟩))
      (s.dev.enterPort_shown p (by decide)),
    ?up, ?unfit, ?ignored,
    fun p s hstate => yields_of_eq (exec_onto (exec_portTrainTimeout p s) (if_pos hstate)) (s.dev.failPort_shown p (by decide)),
    fun p s hmode hstate => yields_of_eq (exec_onto (exec_configRetryTimeout p s) (if_pos ⟨hmode, hstate⟩))
      (s.dev.failPort_shown p (by decide)),
    ?host, ?pool, ?pass, ?bringUp,
    fun p fn tag s hmode hstate => yields_of_eq (exec_onto (exec_configRequest p fn tag s)
      ((if_neg (not_not_intro hmode)).trans (if_pos hstate))) (Dev.emit_shown _ _),
    ?function, ?noFunction,
    fun p fn tag s hmode hstate => yields_of_eq (exec_onto (exec_lockedRequest p fn tag s) (if_pos ⟨hmode, hstate⟩))
      ⟨Dev.mem_shown (Dev.mem_emit _ _), Dev.onlyRegs_shown (by simp [Dev.onlyRegs])⟩,
    ?powerOff, ?powerOn, ?turnOff, ?enterL1, ?leaveL1, ?narrow, ?retrain⟩
  case up =>
    intro p rate lanes flit256 bi s hstate hrate hlanes hmaxRate hmaxLanes hflit hkind
    have hflits : s.dev.flitsOk p rate flit256 = true := by simpa [Dev.flitsOk, or_assoc] using hkind
    have hexec := exec_portDlUp_trains hstate (Dev.trains_eq hmaxRate hmaxLanes hflit) bi true
    rw [hflits] at hexec
    obtain ⟨hshownRate, hshownLanes, hshownFlit, hshownBi⟩ := s.dev.showLink_fields p hrate hlanes flit256 bi
    refine yields_of_eq hexec ⟨?_, ?_, ?_, ?_, ?_, ?_⟩
    · exact (Dev.portState_shown _ _).trans ((Dev.gateWarn_rd _ p rfl _ _).trans (Dev.enterPort_state _ _ _ _ (by decide)))
    · exact (Dev.dlUp_rd _ _ _ _ _ _ (by decide)).trans hshownRate
    · exact (Dev.dlUp_rd _ _ _ _ _ _ (by decide)).trans hshownLanes
    · exact (Dev.dlUp_bitOf _ _ _ _ _ _ (.inl rfl)).trans hshownFlit
    · exact (Dev.dlUp_bitOf _ _ _ _ _ _ (.inr rfl)).trans hshownBi
    · exact (Dev.shown_pool _).trans ((Dev.gateWarn_pool _ p).trans (Dev.enterPort_pool _ _ _ _))
  case unfit =>
    intro p rate lanes flit256 bi ok s hstate hmaxRate hmaxLanes hflit hunfit
    have hrefused : (ok && s.dev.flitsOk p rate flit256) = false := by
      rcases hunfit with rfl | ⟨rfl, hmode, hslow⟩
      · rfl
      · simp [Dev.flitsOk, hmode]
        omega
    have hexec := exec_portDlUp_trains hstate (Dev.trains_eq hmaxRate hmaxLanes hflit) bi ok
    rw [hrefused] at hexec
    exact yields_of_eq hexec (Dev.failPort_shown _ p (by decide))
  case ignored =>
    intro p rate lanes flit256 bi ok s hout
    refine exec_onto (exec_portDlUp p rate lanes flit256 bi ok s) (if_neg ?_)
    rintro ⟨hstate, htrains⟩
    simp only [Dev.trains, Bool.and_eq_true, Bool.or_eq_true, decide_eq_true_eq] at htrains
    obtain ⟨⟨hrate, hlanes⟩, hflit⟩ := htrains
    rcases hout with hother | hfast | hwide | ⟨rfl, hfast⟩
    · exact hother hstate
    · omega
    · omega
    · exact hflit.elim (by simp) (by omega)
  case host =>
    intro p s hstate hmode hup
    have hexec : exec (.portSetupComplete p) s = .next (s.onto (s.dev.enterPort p 5 0)) :=
      exec_onto (exec_portSetupComplete p s) ((if_pos hstate).trans (by rw [hmode]; exact if_pos hup))
    obtain ⟨hactive, hregs, _⟩ := s.dev.enterPort_shown p (st := 5) (by decide)
    exact yields_of_eq hexec ⟨hactive, hregs⟩
  case pool =>
    intro p s hstate hmode hready
    exact exec_onto (exec_portSetupComplete p s) ((if_pos hstate).trans (by rw [hmode]; exact if_pos hready))
  case pass =>
    intro p s hstate hmode
    have hexec : exec (.portSetupComplete p) s = .next (s.onto
        ((s.dev.enterPort p 5 0).modPort p fun r => { r with vppb := { r.vppb with linkUp := true, dllChange := true } })) :=
      exec_onto (exec_portSetupComplete p s) ((if_pos hstate).trans (by rw [hmode]; rfl))
    refine yields_of_eq hexec ⟨?_, ?_, ?_, ?_⟩
    · rw [Dev.portState_shown, Dev.modPort_state, Dev.enterPort_state _ _ _ _ (by decide)]
    · rw [Dev.prec_shown, Dev.modPort_prec]
    · rw [Dev.prec_shown, Dev.modPort_prec]
    · exact (Dev.shown_pool _).trans (Dev.enterPort_pool _ _ _ _)
  case bringUp =>
    intro p enumerates cdatOk capacity need commitOk x s hmode hstate hset hneed
    refine yields_of_eq (exec_poolBringUp_member hmode hstate hset enumerates cdatOk capacity commitOk) ?_
    rw [hneed]
    refine ⟨fun he hc hcap hok => ?_, fun hbad => ?_, fun he hc hcap => ?_, fun he hc hcap hok => ?_⟩
    · rw [he, hc, hok, if_neg (by decide), if_neg (by omega), if_neg (by decide)]
      exact ⟨(Dev.portState_shown _ _).trans hstate, by rw [Dev.prec_shown, Dev.modPort_prec], Dev.shown_pool _⟩
    · rw [if_pos (by rcases hbad with rfl | rfl <;> simp)]
      exact s.dev.failPort_shown p (by decide)
    · rw [he, hc, if_neg (by decide), if_pos hcap]
      exact s.dev.failPort_shown p (by decide)
    · rw [he, hc, hok, if_neg (by decide), if_neg (by omega), if_pos (by decide)]
      exact s.dev.failPort_shown p (by decide)
  case function =>
    intro p fn tag s hmode hstate hthere
    refine yields_of_eq (exec_onto (exec_configRequest p fn tag s) ((if_neg (not_not_intro hmode)).trans ((if_neg (by omega)).trans
      ((if_pos hstate).trans (if_pos ((s.dev.functionThere_iff p fn).2 hthere)))))) ?_
    obtain ⟨hsent, hpool, hport⟩ := Dev.emit_shown _ _
    exact ⟨⟨_, hsent⟩, hpool, hport⟩
  case noFunction =>
    intro p fn tag s hmode hstate hnone
    exact yields_of_eq (exec_onto (exec_configRequest p fn tag s) ((if_neg (not_not_intro hmode)).trans ((if_neg (by omega)).trans
      ((if_pos hstate).trans (if_neg (mt (s.dev.functionThere_iff p fn).1 hnone)))))) (Dev.emit_shown _ _)
  case powerOff =>
    intro host p s hmode hhost hstate
    refine yields_of_eq (exec_onto (exec_passPowerControllerOff host p s) ((if_pos ⟨hmode, hhost⟩).trans (if_pos hstate))) ⟨?_, ?_, ?_⟩
    · rw [Dev.portState_shown, Dev.enterPort_state _ _ _ _ (by decide)]
    · rw [Dev.prec_shown, Dev.enterPort_prec, Dev.modPort_prec]
    · exact (Dev.shown_pool _).trans (Dev.enterPort_pool _ _ _ _)
  case powerOn =>
    intro host p s hmode hhost
    refine yields_of_eq (exec_onto (exec_passPowerControllerOn host p s) (if_pos ⟨hmode, hhost⟩)) ⟨?_, ?_, Dev.shown_pool _⟩
    · rw [Dev.prec_shown, Dev.modPort_prec]
    · rw [Dev.portState_shown, Dev.modPort_state]
  case turnOff =>
    intro p s hstate
    obtain ⟨hpm, hregs, hothers⟩ := s.dev.wr_shown (r := .prtStatus p) (hi := 10) (lo := 8) 2 (Reg.holds_prtStatus p (by decide)) rfl
    exact yields_of_eq (exec_onto (exec_pmeTurnOff p s) (if_pos hstate))
      ⟨hpm, (Dev.portState_shown _ _).trans (s.dev.wrPm_fields p (by decide)).2, hregs, hothers⟩
  case enterL1 =>
    intro p s hstate hactive
    refine yields_of_eq (exec_onto (exec_aspmL1Entry p s) (if_pos ⟨hstate, hactive⟩)) ?_
    obtain ⟨hpm, hport, hpool⟩ := s.dev.lowPower_shown p (fun d i => d.reg_quadSleeps i (by simp)) (fun d i => (d.quadSleeps_frame i).1)
      (s.dev.portDomains p) (n := 1) (by decide)
    exact ⟨hpm, hport, hpool, (Dev.shown_sw _).trans (foldl_frame Dev.sw _ _ (fun d i => (d.quadSleeps_frame i).2) _)⟩
  case leaveL1 =>
    intro p s hlow
    exact yields_of_eq (exec_onto (exec_aspmL1Exit p s) (if_pos hlow))
      (s.dev.lowPower_shown p (fun d i => d.reg_wake i _) (fun d i => d.wake_pool i) _ (by decide))
  case narrow =>
    rintro p _ lanes s hup hmaxLanes rfl hmaxRate hflit hlanes
    have hexec := exec_portWidthOrRateChange_taken hup (Dev.trains_eq hmaxRate hmaxLanes (.inl hflit))
      (by rw [Dev.flitsOk, hflit]; rfl) true
    rw [if_pos rfl, if_pos ⟨hflit, rfl, hlanes⟩] at hexec
    exact yields_of_eq hexec (s.dev.narrowed_shown p lanes)
  case retrain =>
    intro p rate lanes s hup hmaxLanes hmaxRate hrate hlanes hkind
    have hflit : s.dev.bitOf (.prtStatus p) 15 = true ∨ rate ≤ 5 := hkind.imp_right And.left
    have hflits : s.dev.flitsOk p rate (s.dev.bitOf (.prtStatus p) 15) = true := by
      simp only [Dev.flitsOk, Bool.or_eq_true, decide_eq_true_eq]
      tauto
    exact yields_of_eq (exec_portWidthOrRateChange_taken hup (Dev.trains_eq hmaxRate hmaxLanes hflit) hflits false)
      (s.dev.retrained_shown p hrate hlanes)

end Sys2Proof.Machine
end

section
/-! PROOFS. Commands that make accesses of their own where none is under way, and what the end of those leaves alone. -/

namespace Sys2Proof.Machine

/-! ### A command's own accesses (log entry 35) -/

/-- Where no slice owes a bit update of its dirty-page log, none is made. -/
theorem Dev.drainAll_unowed {d : Dev} (h : ∀ x ∈ d.svc.dirty, x.2.marks = []) : d.drainAll = d := by
  unfold Dev.drainAll
  exact List.foldlRecOn (motive := fun e : Dev => e = d) d.svc.dirty _ rfl fun e he x hx => by rw [he, if_pos (by simp [h x hx])]

/-- A command whose accesses lead to a device, where no access was under way. -/
theorem accesses_of_eq {c : Instr} {s : State} {f : Dev → Dev} {x : Dev} (he : exec c s = onAccess s f) (hturn : s.dev.noTurn)
    (hx : f s.dev = x) : accesses c s x := by
  have hopen : f s.dev.inTurn = x := by rw [Dev.inTurn_rest hturn, hx]
  refine ⟨fun hstall => exec_onto (access_onDev he) ?_, fun w hstall => exec_onto (access_onDev he) ?_⟩
  · rw [Dev.attempt_made (by rw [hopen]; exact hstall), hopen]
    rfl
  · rw [Dev.attempt_waits (by rw [hopen]; exact hstall), Dev.inTurn_rest hturn]

/-- A device at rest has nothing left to do for its accesses. -/
theorem Dev.accessed_atRest {d : Dev} (h : d.atRest) : d.accessed = d := by
  obtain ⟨hturn, hmarks⟩ := h
  have hused : d.dropUsed = d := by rw [Dev.dropUsed, hturn]; rfl
  rw [Dev.accessed, hused, Dev.inTurn_rest hturn, Dev.drainAll_unowed hmarks]

/-- A command that leads to a device at rest leaves that device. -/
theorem exec_rests {c : Instr} {s : State} {f : Dev → Dev} {x : Dev} (he : exec c s = onAccess s f) (hturn : s.dev.noTurn)
    (hx : f s.dev = x) (hrest : x.atRest) : exec c s = .next (s.onto x) := by
  rw [(accesses_of_eq he hturn hx).1 (by rw [hrest.1]), Dev.accessed_atRest hrest]

/-! ### What the end of the accesses leaves alone -/

theorem Dev.showSlice_svc (d : Dev) (t : Nat) : (d.showSlice t).svc = d.svc := by unfold Dev.showSlice; simp

theorem Dev.writeOut_svc (d : Dev) (m : Msg) : (d.writeOut m).svc = d.svc := by
  unfold Dev.writeOut
  split_ifs
  · exact foldl_frame Dev.svc _ _ (fun d o => d.emit_svc o) d
  · simp
  · simp

theorem Dev.tellNeighbour_svc (d : Dev) (op : Nat) (req : HomeReq) (resv : Bool) : (d.tellNeighbour op req resv).svc = d.svc := by
  have hpost : ∀ (e : Entity) (ws : List Word), ((d.postFrom e ws).getD d).svc = d.svc := fun e ws => by
    unfold Dev.postFrom
    split
    · rfl
    · cases d.linkFor _ ws with
      | none => rfl
      | some link =>
        simp only [Option.map_some, Option.getD_some]
        unfold Dev.writeLink
        split
        · exact d.writeOut_svc _
        · rfl
  unfold Dev.tellNeighbour
  split
  · exact hpost _ _
  · rfl

theorem Dev.holdFor_svc (g : Nat) (l : List (Nat × Nat)) (d : Dev) : (d.holdFor g l).svc = d.svc := by
  induction l generalizing d with
  | nil => rfl
  | cons x rest ih =>
    unfold Dev.holdFor
    split
    · rw [Dev.count_svc, Dev.tellNeighbour_svc, Dev.emit_svc, Dev.setCt, Dev.showSlice_svc]
    · exact ih d

theorem Dev.retire_svc (d : Dev) (g : Nat) : (d.retire g).svc = d.svc := by
  unfold Dev.retire
  split
  · rfl
  · rw [Dev.holdFor_svc, Dev.dropCt, Dev.showSlice_svc]
    split <;> rfl

theorem Dev.dropUsed_svc (d : Dev) : d.dropUsed.svc = d.svc := by
  refine foldl_frame Dev.svc _ _ (fun d g => ?_) d
  split
  · split
    · exact d.retire_svc g
    · rfl
  · rfl

theorem Dev.steady_dropUsed (d : Dev) {r : Reg} (h : r.steady = true) : d.dropUsed.reg r = d.reg r := by
  refine foldl_frame (fun d : Dev => d.reg r) _ _ (fun d g => ?_) d
  split
  · split
    · exact Dev.reg_of_deathRecords (congrArg DeathRecords.steady (d.deathRecords_retire g)) h
    · rfl
  · rfl

/-- A device whose accesses are made: nothing but the retired entries differs. -/
theorem Dev.accessed_made {d : Dev} (h : d.made) : d.accessed = d.dropUsed.inTurn :=
  Dev.drainAll_unowed (by rw [Dev.inTurn_svc, Dev.dropUsed_svc]; exact h.2)

/-! ### Rings that stay as they are -/

/-- A later device has the same services, and the registers of every ring hold what they held. -/
structure Dev.SameRings (d d' : Dev) : Prop where
  svc : d'.svc = d.svc
  reg : ∀ p i r w, d'.reg (.ring p i r w) = d.reg (.ring p i r w)

theorem Dev.SameRings.trans {d d' d'' : Dev} (h : d.SameRings d') (h' : d'.SameRings d'') : d.SameRings d'' :=
  ⟨h'.svc.trans h.svc, fun p i r w => (h'.reg p i r w).trans (h.reg p i r w)⟩

theorem Dev.SameRings.ringRun {d d' : Dev} (h : d.SameRings d') (s : SliceRec) (r : Nat) : d'.ringRun s r = d.ringRun s r := by
  rw [Dev.ringRun, h.svc]; rfl

theorem Dev.SameRings.ringReg {d d' : Dev} (h : d.SameRings d') (s : SliceRec) (r : Nat) (w : RingReg) :
    d'.ringReg s r w = d.ringReg s r w := by
  rw [Dev.ringReg, h.reg]; rfl

theorem Dev.SameRings.rd {d d' : Dev} (h : d.SameRings d') (p i r hi lo : Nat) (w : RingReg) :
    d'.rd (.ring p i r w) hi lo = d.rd (.ring p i r w) hi lo := Dev.rd_eq_of_reg (h.reg p i r w) hi lo

theorem Dev.SameRings.ringState {d d' : Dev} (h : d.SameRings d') (s : SliceRec) (r : Nat) : d'.ringState s r = d.ringState s r :=
  h.rd _ _ _ _ _ _

theorem Dev.sameRings_shown (d : Dev) : d.SameRings d.shown := ⟨d.shown_svc, fun _ _ _ _ => Dev.reg_shown _ _ rfl⟩

theorem Dev.sameRings_count (d : Dev) (u ev n : Nat) : d.SameRings (d.count u ev n) :=
  ⟨d.count_svc u ev n, fun _ _ _ _ => Dev.reg_count _ _ _ _ _ rfl⟩

theorem Dev.sameRings_accessed {d : Dev} (h : d.made) : d.SameRings d.accessed := by
  rw [Dev.accessed_made h]
  exact ⟨d.dropUsed_svc, fun _ _ _ _ => Dev.steady_dropUsed d rfl⟩

/-- A command that has made all its accesses leaves the rings as its last step does. -/
theorem yields_made {c : Instr} {s : State} {f : Dev → Dev} {x : Dev} {P : Dev → Prop} (he : exec c s = onAccess s f)
    (hturn : s.dev.noTurn) (hx : f s.dev = x) (hmade : x.made) (hP : ∀ t, x.SameRings t → P t) : yields c s P :=
  yields_of_eq ((accesses_of_eq he hturn hx).1 hmade.1) (hP _ ((Dev.sameRings_accessed hmade).trans (Dev.sameRings_shown _)))

/-! ### Accesses under way, beside what rings write -/

/-- A later device has the same accesses under way and owes the same bit updates of dirty-page logs. -/
structure Dev.SameTurn (d d' : Dev) : Prop where
  dir : d'.dir = d.dir
  dirty : d'.svc.dirty = d.svc.dirty

theorem Dev.SameTurn.refl (d : Dev) : d.SameTurn d := ⟨rfl, rfl⟩

theorem Dev.SameTurn.trans {d d' d'' : Dev} (h : d.SameTurn d') (h' : d'.SameTurn d'') : d.SameTurn d'' :=
  ⟨h'.dir.trans h.dir, h'.dirty.trans h.dirty⟩

theorem Dev.SameTurn.made {d d' : Dev} (h : d.SameTurn d') (hd : d.made) : d'.made := by
  obtain ⟨hstall, hmarks⟩ := hd
  exact ⟨by rw [h.dir]; exact hstall, by rw [h.dirty]; exact hmarks⟩

theorem Dev.SameTurn.atRest {d d' : Dev} (h : d.SameTurn d') (hd : d.atRest) : d'.atRest := by
  obtain ⟨hturn, hmarks⟩ := hd
  exact ⟨by rw [Dev.noTurn, h.dir]; exact hturn, by rw [h.dirty]; exact hmarks⟩

theorem Dev.sameTurn_count (d : Dev) (u ev n : Nat) : d.SameTurn (d.count u ev n) := ⟨d.count_dir _ _ _, by rw [Dev.count_svc]⟩
theorem Dev.sameTurn_setRing (d : Dev) (s : SliceRec) (r : Nat) (x : RingRun) : d.SameTurn (d.setRing s r x) := ⟨rfl, rfl⟩
theorem Dev.sameTurn_setRingReg (d : Dev) (s : SliceRec) (r : Nat) (w : RingReg) (v : Nat) : d.SameTurn (d.setRingReg s r w v) := ⟨rfl, rfl⟩

theorem Dev.sameTurn_ringMessage (d : Dev) (s : SliceRec) (r : Nat) : d.SameTurn (d.ringMessage s r) := by
  unfold Dev.ringMessage
  split
  · split
    · exact .refl d
    split
    · exact d.sameTurn_setRing s r _
    · exact (d.sameTurn_setRing s r _).trans ⟨Dev.msix_dir _ _ _, by rw [Dev.sliceMsix, Dev.msix_svc]⟩
  · exact .refl d

theorem Dev.sameTurn_ringError (d : Dev) (s : SliceRec) (r code : Nat) : d.SameTurn (d.ringError s r code) :=
  have hfields : d.SameTurn ((d.setRingState s r 4).wr (.ring s.port s.index r .status) 24 17 code) := ⟨rfl, rfl⟩
  hfields.trans (Dev.sameTurn_ringMessage _ s r)

theorem Dev.sameTurn_showStall (d : Dev) (s : SliceRec) (r : Nat) : d.SameTurn (d.showStall s r) := by
  unfold Dev.showStall
  dsimp only
  split
  · split
    · exact ⟨rfl, rfl⟩
    · exact .refl d
  · exact .refl d

end Sys2Proof.Machine
end

section
/-! PROOFS. What reading a slice's pool memory leaves of the services: all of them. -/

namespace Sys2Proof.Machine

/-! ### At the home -/

theorem Dev.stall_svc (d : Dev) (x : Stall) : (d.stall x).svc = d.svc := by
  unfold Dev.stall
  split <;> rfl

theorem Dev.mayEnter_svc (d : Dev) (g : Nat) : (d.mayEnter g).2.svc = d.svc := by
  unfold Dev.mayEnter
  dsimp only
  split
  · exact d.stall_svc _
  split
  · exact d.stall_svc _
  · rfl

theorem Dev.correctEntry_svc (d : Dev) (g : Nat) : (d.correctEntry g).svc = d.svc := by
  unfold Dev.correctEntry
  split
  · split
    · rw [Dev.report_svc, Dev.setEntry, Dev.showSlice_svc]
    · rfl
  · rfl

theorem Dev.mayAccess_svc (d : Dev) (k : ReqKind) (req : HomeReq) (coherent : Bool) : (d.mayAccess k req coherent).2.svc = d.svc := by
  unfold Dev.mayAccess
  dsimp only
  split
  · rfl
  split
  · rfl
  split
  · exact d.stall_svc _
  split
  · exact d.correctEntry_svc _
  split
  · exact d.correctEntry_svc _
  · rw [Dev.stall_svc, Dev.correctEntry_svc]

theorem Dev.acuRecord_svc (d : Dev) (v addr : Nat) (info : Word) :
    (if d.bitOf (.violInfo v) 31 then d.bumpSat (.violCount v) 31 0 1
      else (d.setReg (.violAddr v) (BitVec.ofNat 64 addr)).setReg (.violInfo v) info).svc = d.svc := by
  split
  · exact d.bumpSat_svc _ _ _ _
  · rfl

theorem Dev.acuReport_svc (d : Dev) (v addr : Nat) :
    (if v < 16 then (d.count v 0x300B 1).report (16 * v + 5) 2 addr else d.report 0x2D0 2 addr).svc = d.svc := by
  split
  · rw [Dev.report_svc, Dev.count_svc]
  · exact d.report_svc _ _ _

theorem Dev.acuViolation_svc (d : Dev) (v addr : Nat) (write : Bool) (q : Requester) (region : Nat) :
    (d.acuViolation v addr write q region).svc = d.svc :=
  (Dev.acuReport_svc _ v addr).trans (d.acuRecord_svc v addr _)

theorem Dev.refuseHome_svc (d : Dev) (t line : Nat) : (d.refuseHome t line).svc = d.svc := by simp [Dev.refuseHome]

theorem svc_ite {c : Prop} [Decidable c] {a b : Served × Dev} {svc : SvcState} (ha : a.2.svc = svc) (hb : b.2.svc = svc) :
    (if c then a else b).2.svc = svc := by
  split
  · exact ha
  · exact hb

/-- Whatever Table PB-8 answers, the services are as they were. -/
theorem Dev.homeOutcome_svc (d : Dev) (t : Nat) (q : HomeReq) (n : Needs) (checked mirror : Bool) :
    (d.homeOutcome t q n checked mirror).2.svc = d.svc := by
  have hlook := (d.looked_lookupBlock t (blockOfLine q.line.toNat)).svc
  have hset : ∀ (x : Dev) (i : Nat), (x.fillSet t i).svc = x.svc := fun x i => (x.looked_fillSet t i).svc
  unfold Dev.homeOutcome
  dsimp only
  split <;> rename_i heq <;> rw [heq] at hlook
  · exact (Dev.refuseHome_svc _ _ _).trans hlook
  refine svc_ite ((Dev.refuseHome_svc _ _ _).trans hlook) (svc_ite ((Dev.refuseHome_svc _ _ _).trans hlook) ?_)
  split
  · exact (Dev.acuViolation_svc _ _ _ _ _ _).trans hlook
  split
  · exact svc_ite hlook ((hset _ _).trans hlook)
  · exact svc_ite hlook ((hset _ _).trans hlook)
  · exact (hset _ _).trans hlook
  · exact (Dev.refuseHome_svc _ _ _).trans hlook

theorem Dev.agentEnters_svc (d : Dev) (a : Agent) (k : ReqKind) (line : Nat) (dom : DomainId) (n : Needs) :
    (d.agentEnters a k line dom n).2.svc = d.svc := by
  have henter := d.mayEnter_svc (granuleOf line)
  unfold Dev.agentEnters
  dsimp only
  split <;> rename_i x heq <;> rw [heq] at henter
  · exact henter
  have hserved := x.homeOutcome_svc (sliceOf (granuleOf line)) ⟨0, a, BitVec.ofNat 40 line, dom, 0, 0, false⟩ n true (x.mirrorCopy a)
  split <;> rename_i heq' <;> rw [heq'] at hserved
  · rename_i b e y
    have haccess := y.mayAccess_svc k ⟨0, a, BitVec.ofNat 40 line, dom, 0, 0, false⟩ (e.coherent && !y.mirrorCopy a)
    split <;> rename_i heq'' <;> rw [heq''] at haccess
    · exact (Dev.count_svc _ _ _ _).trans (haccess.trans (hserved.trans henter))
    · exact haccess.trans (hserved.trans henter)
  · exact hserved.trans henter

/-! ### At the expanders -/

theorem Dev.xtsDomain_svc (d : Dev) (e : BlockEntry) (line : Nat) : (d.xtsDomain e line).2.svc = d.svc := by
  unfold Dev.xtsDomain
  split
  · rfl
  · exact d.report_svc _ _ _

theorem Dev.decrypt_svc (d : Dev) (dom line : Nat) (v : Option Stored) : (d.decrypt dom line v).2.svc = d.svc := by
  unfold Dev.decrypt
  split
  · rfl
  · split <;> rfl
  · rfl
  · rfl

theorem Dev.readCopyAt_svc (d : Dev) (p : Place) (c dom real : Nat) : (d.readCopyAt p c dom real).2.svc = d.svc := by
  unfold Dev.readCopyAt
  split
  · exact (Dev.count_svc _ _ _ _).trans (d.decrypt_svc _ _ _)
  · rfl

theorem Dev.poisonLine_svc (d : Dev) (line : Nat) : (d.poisonLine line).svc = d.svc := by
  unfold Dev.poisonLine
  split
  · rfl
  · dsimp only
    split <;> rfl

theorem Dev.fetchLine_svc (d : Dev) (e : BlockEntry) (real : Nat) : (d.fetchLine e real).2.svc = d.svc := by
  have hdomain := d.xtsDomain_svc e real
  unfold Dev.fetchLine
  split
  · rename_i p dom x _ heq
    rw [heq] at hdomain
    dsimp only
    have hfirst := x.readCopyAt_svc p (x.readCopy p (granuleOf real)) dom real
    split
    · rename_i heq1
      rw [heq1] at hfirst
      exact hfirst.trans hdomain
    rename_i y _ heq1
    rw [heq1] at hfirst
    split
    · have hsecond := y.readCopyAt_svc p 1 dom real
      split <;> rename_i heq2 <;> rw [heq2] at hsecond
      · rw [Dev.report_svc]
        split
        · exact hsecond.trans (hfirst.trans hdomain)
        · exact hsecond.trans (hfirst.trans hdomain)
      · rw [Dev.report_svc, Dev.poisonLine_svc]
        exact hsecond.trans (hfirst.trans hdomain)
    · exact hfirst.trans hdomain
  · rename_i heq _
    rw [heq] at hdomain
    exact hdomain

/-! ### A slice's reads (R133) -/

theorem Dev.agentRead_svc (d : Dev) (a : Agent) (line : Nat) (dom : DomainId) : (d.agentRead a line dom).2.svc = d.svc := by
  have henters := d.agentEnters_svc a .readCurrent line dom ⟨true, false⟩
  unfold Dev.agentRead
  split
  · rfl
  split <;> rename_i heq <;> rw [heq] at henters
  · rename_i b e x
    have hfetched := x.fetchLine_svc e (b * 2 ^ 20 + line % 2 ^ 20)
    split <;> rename_i heq' <;> rw [heq'] at hfetched <;> exact hfetched.trans henters
  all_goals exact henters

theorem Dev.sliceLine_svc (d : Dev) (s : SliceRec) (a : Agent) (dpa : Nat) : (d.sliceLine s a dpa).2.svc = d.svc := by
  have htranslated := (d.looked_translate s.port dpa).1.svc
  unfold Dev.sliceLine
  split <;> rename_i heq <;> rw [heq] at htranslated
  · exact (Dev.looked_refuseTranslation _ _ _).svc.trans htranslated
  · exact (Dev.agentRead_svc _ _ _ _).trans htranslated

theorem Dev.sliceLines_succ (d : Dev) (s : SliceRec) (a : Agent) (n dpa : Nat) : d.sliceLines s a (n + 1) dpa =
    match d.sliceLine s a dpa with
    | (.data v, d) =>
      match d.sliceLines s a n (dpa + 64) with
      | (.ok r, d) => (.ok (lineBytes v ++ r), d)
      | (.error c, d) => (.error c, d)
    | (.error, d) => (.error stAccess, d)
    | (_, d) => (.error stPoison, d) := rfl

theorem Dev.sliceLines_svc (s : SliceRec) (a : Agent) (n : Nat) (d : Dev) (dpa : Nat) : (d.sliceLines s a n dpa).2.svc = d.svc := by
  induction n generalizing d dpa with
  | zero => rfl
  | succ n ih =>
    have hline := d.sliceLine_svc s a dpa
    rw [Dev.sliceLines_succ]
    rcases hread : d.sliceLine s a dpa with ⟨_ | _ | _ | _, x⟩ <;> rw [hread] at hline
    case data =>
      have hrest := ih x (dpa + 64)
      dsimp only
      rcases hfound : x.sliceLines s a n (dpa + 64) with ⟨_ | _, y⟩ <;> rw [hfound] at hrest <;> exact hrest.trans hline
    all_goals exact hline

theorem Dev.sliceRead_svc (d : Dev) (s : SliceRec) (rs : List (Nat × Nat)) (a : Agent) (dpa len : Nat) :
    (d.sliceRead s rs a dpa len).2.svc = d.svc := by
  have hlines := Dev.sliceLines_svc s a ((dpa % 64 + len + 63) / 64) d (dpa / 64 * 64)
  unfold Dev.sliceRead
  split
  · rfl
  · rcases hfound : d.sliceLines s a ((dpa % 64 + len + 63) / 64) (dpa / 64 * 64) with ⟨_ | _, x⟩ <;> rw [hfound] at hlines <;> exact hlines

end Sys2Proof.Machine
end

section
/-! PROOFS. Rings that are enabled, disabled, sampled and fetched from, and CQ_CI (R137 to R146). Settles O27. -/

namespace Sys2Proof.Machine

/-! ### The fields of RING_STATUS and the indexes (Table MS-4) -/

theorem Dev.code_setRingReg (d : Dev) (s : SliceRec) (r v : Nat) (w : RingReg) (h : w ≠ .status) :
    (d.setRingReg s r w v).rd (.ring s.port s.index r .status) 24 17 = d.rd (.ring s.port s.index r .status) 24 17 :=
  Dev.rd_setReg_ne _ _ _ _ (by simp [h.symm])

theorem Dev.code_setRingState (d : Dev) (s : SliceRec) (r st : Nat) :
    (d.setRingState s r st).rd (.ring s.port s.index r .status) 24 17 = d.rd (.ring s.port s.index r .status) 24 17 :=
  Dev.rd_wr_field _ _ (ringStatus_holds _ _ _ _ _ (by simp)) (by decide)

/-- An index register holds what the device writes to it, cut to its 32 bits. -/
theorem Dev.ringReg_setRingReg_index (d : Dev) (s : SliceRec) (r v : Nat) {w : RingReg} (h : w = .sqPi ∨ w = .sqCi ∨ w = .cqPi ∨ w = .cqCi) :
    (d.setRingReg s r w v).ringReg s r w = v % 2 ^ 32 := by
  have hmask : (Reg.ring s.port s.index r w).mask = 0xFFFFFFFF := by
    rcases h with rfl | rfl | rfl | rfl <;> simp [Reg.mask, Reg.layout, fieldMask]
  rw [Dev.ringReg, Dev.setRingReg, Dev.reg_setReg_same, hmask, BitVec.toNat_and, BitVec.toNat_ofNat]
  exact (Nat.and_two_pow_sub_one_eq_mod _ 32).trans (Nat.mod_mod_of_dvd v (by decide))

/-! ### A stall shown or not (R140) -/

theorem Dev.showStall_svc (d : Dev) (s : SliceRec) (r : Nat) : (d.showStall s r).svc = d.svc := by
  unfold Dev.showStall
  dsimp only
  split
  · split <;> rfl
  · rfl

theorem Dev.showStall_pool (d : Dev) (s : SliceRec) (r : Nat) : (d.showStall s r).pool = d.pool := by
  unfold Dev.showStall
  dsimp only
  split
  · split <;> rfl
  · rfl

theorem Dev.ringRun_showStall (d : Dev) (s : SliceRec) (r : Nat) : (d.showStall s r).ringRun s r = d.ringRun s r := by
  rw [Dev.ringRun, Dev.showStall_svc, Dev.ringRun]

theorem Dev.ringReg_showStall (d : Dev) (s : SliceRec) (r : Nat) {w : RingReg} (h : w ≠ .status) :
    (d.showStall s r).ringReg s r w = d.ringReg s r w := by
  unfold Dev.showStall
  dsimp only
  split
  · split
    · exact d.ringReg_setRingState s r _ w h
    · rfl
  · rfl

/-- A ring that runs is STALLED where unfetched entries wait for completion space alone, else ACTIVE. -/
theorem Dev.ringState_showStall {d : Dev} {s : SliceRec} {r : Nat} {x : RingRun} (hrun : d.ringRun s r = some x)
    (hstate : d.ringState s r = 1 ∨ d.ringState s r = 2) :
    (d.showStall s r).ringState s r = if d.ringReg s r .sqCi ≠ x.sampled ∧ 2 ^ x.cqLog2 ≤ gap (d.ringReg s r .sqCi) (d.ringReg s r .cqCi)
      then 2 else 1 := by
  unfold Dev.showStall
  simp only [hrun, hstate, if_true, decide_eq_true_eq, Dev.ringState_setRingState]
  split <;> rfl

/-! ### Enabling (R137) -/

/-- The run that a ring begins with, as its context describes it. -/
def Dev.contextRun (d : Dev) (s : SliceRec) (r : Nat) (c : List Byte) : RingRun :=
  { ringOf c with
    msixEn := (ringOf c).msixEn && s.hasVector (ringOf c).msixVec, sent := (tget d.svc.held (s.id, r)).isSome }

/-- The four indexes at 0. -/
def Dev.zeroIndexes (d : Dev) (s : SliceRec) (r : Nat) : Dev :=
  (((d.setRingReg s r .sqPi 0).setRingReg s r .sqCi 0).setRingReg s r .cqPi 0).setRingReg s r .cqCi 0

theorem Dev.ringRun_zeroIndexes (d : Dev) (s : SliceRec) (r : Nat) : (d.zeroIndexes s r).ringRun s r = d.ringRun s r := by
  simp only [Dev.zeroIndexes, Dev.ringRun_setRingReg]

theorem Dev.code_zeroIndexes (d : Dev) (s : SliceRec) (r : Nat) :
    (d.zeroIndexes s r).rd (.ring s.port s.index r .status) 24 17 = d.rd (.ring s.port s.index r .status) 24 17 := by
  rw [Dev.zeroIndexes, Dev.code_setRingReg _ _ _ _ _ (by decide), Dev.code_setRingReg _ _ _ _ _ (by decide),
    Dev.code_setRingReg _ _ _ _ _ (by decide), Dev.code_setRingReg _ _ _ _ _ (by decide)]

theorem Dev.ringReg_zeroIndexes (d : Dev) (s : SliceRec) (r : Nat) {w : RingReg} (h : w = .sqPi ∨ w = .sqCi ∨ w = .cqPi ∨ w = .cqCi) :
    (d.zeroIndexes s r).ringReg s r w = 0 := by
  unfold Dev.zeroIndexes
  rcases h with rfl | rfl | rfl | rfl
  · rw [Dev.ringReg_setRingReg_ne _ _ _ _ (by decide), Dev.ringReg_setRingReg_ne _ _ _ _ (by decide),
      Dev.ringReg_setRingReg_ne _ _ _ _ (by decide), Dev.ringReg_setRingReg_zero]
  · rw [Dev.ringReg_setRingReg_ne _ _ _ _ (by decide), Dev.ringReg_setRingReg_ne _ _ _ _ (by decide), Dev.ringReg_setRingReg_zero]
  · rw [Dev.ringReg_setRingReg_ne _ _ _ _ (by decide), Dev.ringReg_setRingReg_zero]
  · rw [Dev.ringReg_setRingReg_zero]

section
variable {d d1 : Dev} {s : SliceRec} {r : Nat} (hcount : r < s.ringCount) (hoff : d.ringState s r = 0)
include hcount hoff

/-- A context that cannot be read. -/
theorem Dev.ringEnable_unread {st : Nat} (hread : (d.wr (.ring s.port s.index r .status) 24 17 0).sliceRead s s.regionsNow s.agent
    ((d.wr (.ring s.port s.index r .status) 24 17 0).ringReg s r .ctx) 64 = (.error st, d1)) : d.ringEnable s r = d1.ringError s r 1 := by
  unfold Dev.ringEnable
  rw [if_neg (by omega)]
  dsimp only
  rw [hread]

/-- A context that fails its checks. -/
theorem Dev.ringEnable_bad {c : List Byte} (hread : (d.wr (.ring s.port s.index r .status) 24 17 0).sliceRead s s.regionsNow s.agent
    ((d.wr (.ring s.port s.index r .status) 24 17 0).ringReg s r .ctx) 64 = (.ok c, d1)) (hbad : s.contextOk c = false) :
    d.ringEnable s r = (d1.setRing s r (d1.contextRun s r c)).ringError s r 2 := by
  unfold Dev.ringEnable
  rw [if_neg (by omega)]
  dsimp only
  rw [hread]
  dsimp only
  rw [hbad]
  rfl

/-- A context that passes, with an engine of its image in the share. -/
theorem Dev.ringEnable_good {c : List Byte} (hread : (d.wr (.ring s.port s.index r .status) 24 17 0).sliceRead s s.regionsNow s.agent
    ((d.wr (.ring s.port s.index r .status) 24 17 0).ringReg s r .ctx) 64 = (.ok c, d1)) (hok : s.contextOk c = true)
    (hengine : ∃ e ∈ s.sharedEngines, d1.engineRuns e.1 (serviceImage (ringOf c).service) = true) :
    d.ringEnable s r = ((d1.setRing s r (d1.contextRun s r c)).zeroIndexes s r).setRingState s r 1 := by
  have hany : s.sharedEngines.any (fun e => (d1.setRing s r (d1.contextRun s r c)).engineRuns e.1 (serviceImage (ringOf c).service)) = true :=
    List.any_eq_true.2 hengine
  unfold Dev.ringEnable
  rw [if_neg (by omega)]
  dsimp only
  rw [hread]
  dsimp only
  rw [hok]
  exact (if_neg (by decide)).trans (if_neg (by rw [← Dev.contextRun, hany]; decide))

end

/-- RING_ENABLE of a slice's ring, whose accesses are all made. -/
theorem yields_ringEnable {p : Fin 64} {index : Fin 256} {ring : Fin 64} {s : State} {sl : SliceRec} {x : Dev} {P : Dev → Prop}
    (hrest : s.dev.atRest) (hslice : s.dev.sliceAt p index = some sl) (henable : s.dev.ringEnable sl ring = x) (hmade : x.made)
    (hP : ∀ t, x.SameRings t → P t) : yields (.ringEnable p index ring) s P :=
  yields_made (exec_ringEnable p index ring s) hrest.1 (by rw [hslice]; exact henable) hmade hP

/-! ### Disabling (R146) -/

/-- DISABLE of a ring that runs, stalls or is in error. -/
theorem exec_ringDisable_on {p : Fin 64} {index : Fin 256} {ring : Fin 64} {s : State} {sl : SliceRec}
    (hslice : s.dev.sliceAt p index = some sl) (hring : ring.val < sl.quota.rings.length)
    (hstate : s.dev.ringState sl ring = 1 ∨ s.dev.ringState sl ring = 2 ∨ s.dev.ringState sl ring = 4) :
    exec (.ringDisable p index ring) s = .next (s.onto ((s.dev.setRingState sl ring 3).ringSettles sl ring)) := by
  refine exec_onto (exec_ringDisable p index ring s) ?_
  rw [hslice]
  exact (if_pos hring).trans (if_pos hstate)

/-- A DISABLING ring with operations goes on. -/
theorem Dev.ringSettles_runs {d : Dev} {s : SliceRec} {r : Nat} {x : RingRun} (hrun : d.ringRun s r = some x) (hops : x.ops ≠ []) :
    d.ringSettles s r = d := by
  unfold Dev.ringSettles
  rw [hrun]
  split
  · rfl
  · exact if_neg (by simpa using hops)

/-- A DISABLING ring without operations is DISABLED, and its run has ended. -/
theorem Dev.ringSettles_ends {d : Dev} {s : SliceRec} {r : Nat} {x : RingRun} (hstate : d.ringState s r = 3)
    (hrun : d.ringRun s r = some x) (hops : x.ops = []) :
    (d.ringSettles s r).ringState s r = 0 ∧ (d.ringSettles s r).ringRun s r = none := by
  have hrings : ∀ e : Dev, (e.flrEnds s.port).svc.rings = e.svc.rings := fun e => by
    unfold Dev.flrEnds
    split <;> rfl
  unfold Dev.ringSettles
  rw [if_neg (by simp [hstate]), hrun]
  dsimp only
  rw [if_pos (by simp [hops])]
  refine ⟨Dev.ringState_flrEnds _ _ _ _ (Dev.ringState_setRingState _ _ _ _), ?_⟩
  rw [Dev.ringRun, hrings]
  exact tget_tdel_same _ _

/-! ### Sampling (R139) -/

/-- A held message goes without a change of runs or of rings' registers. -/
theorem Dev.heldMessage_frame (d : Dev) (s : SliceRec) (r : Nat) : (d.heldMessage s r).svc.rings = d.svc.rings ∧
    ∀ p i r' w, (d.heldMessage s r).reg (.ring p i r' w) = d.reg (.ring p i r' w) := by
  unfold Dev.heldMessage
  split
  · exact ⟨by rw [Dev.sliceMsix, Dev.msix_svc], fun _ _ _ _ => Dev.reg_msix _ _ _ _ rfl⟩
  · exact ⟨rfl, fun _ _ _ _ => rfl⟩

/-- The device with a ring whose poll interval begins: it has sent no message in it, and none is due. -/
def Dev.polled (d : Dev) (s : SliceRec) (r : Nat) (x : RingRun) : Dev :=
  (d.heldMessage s r).setRing s r { x with sent := false, notify := false }

theorem Dev.ringReg_polled (d : Dev) (s : SliceRec) (r : Nat) (x : RingRun) {w : RingReg} (h : w ≠ .status) :
    (d.polled s r x).ringReg s r w = d.ringReg s r w := by
  rw [Dev.polled, Dev.ringReg_setRing _ _ _ _ _ h, Dev.ringReg, (d.heldMessage_frame s r).2, Dev.ringReg]

theorem Dev.ringState_polled (d : Dev) (s : SliceRec) (r : Nat) (x : RingRun) : (d.polled s r x).ringState s r = d.ringState s r := by
  rw [Dev.polled, Dev.ringState_setRing]
  exact Dev.rd_eq_of_reg ((d.heldMessage_frame s r).2 _ _ _ _) 31 29

/-- A sample of SQ_PI in a ring that runs or stalls and owes no message: an error past the ring's size, else taken. -/
theorem exec_ringPollSample_samples {slice : Fin 4096} {ring : Fin 64} {s : State} {sl : SliceRec} {x : RingRun}
    (hslice : s.dev.sliceRec slice = some sl) (hrun : s.dev.ringRun sl ring = some x) (hquiet : x.notify = false)
    (hstate : s.dev.ringState sl ring = 1 ∨ s.dev.ringState sl ring = 2) :
    exec (.ringPollSample slice ring) s = .next (s.onto
      (if 2 ^ x.sqLog2 < gap (s.dev.ringReg sl ring .sqPi) (s.dev.ringReg sl ring .sqCi) then (s.dev.polled sl ring x).ringError sl ring 3
      else ((s.dev.polled sl ring x).setRing sl ring
        { x with sent := false, notify := false, sampled := s.dev.ringReg sl ring .sqPi }).showStall sl ring)) := by
  have hheld : (s.dev.heldMessage sl ring).ringRun sl ring = some x := by
    rw [Dev.ringRun, (s.dev.heldMessage_frame sl ring).1]
    exact hrun
  have hpolled : (s.dev.polled sl ring x).ringRun sl ring = some { x with sent := false, notify := false } := Dev.ringRun_setRing _ _ _ _
  refine exec_onto (exec_ringPollSample slice ring s) ?_
  rw [hslice]
  dsimp only
  rw [hheld]
  dsimp only
  simp only [hquiet, Bool.false_eq_true, if_false]
  rw [← Dev.polled, Dev.ringState_polled, if_neg (by omega), Dev.ringReg_polled _ _ _ _ (by decide),
    Dev.ringReg_polled _ _ _ _ (by decide), hpolled]

/-! ### Fetching (R140, R144) -/

/-- The operation of an entry that has been read. -/
def fetchedOp (ci : Nat) (b : List Byte) (regions : List (Nat × Nat)) : RingOp :=
  let o : RingOp := ⟨ci, b, .waiting, .of 0, false, regions⟩
  { o with stage := if o.fence then .fenced else .waiting }

/-- The device with an operation added to a ring, SQ_CI moved on. -/
def Dev.fetched (d : Dev) (s : SliceRec) (r : Nat) (x : RingRun) (o : RingOp) (ci : Nat) : Dev :=
  ((d.setRing s r { x with ops := x.ops ++ [o] }).setRingReg s r .sqCi (next32 ci)).showStall s r

theorem Dev.sameTurn_fetched (d : Dev) (s : SliceRec) (r : Nat) (x : RingRun) (o : RingOp) (ci : Nat) : d.SameTurn (d.fetched s r x o ci) :=
  ((d.sameTurn_setRing s r _).trans (Dev.sameTurn_setRingReg _ s r _ _)).trans (Dev.sameTurn_showStall _ s r)

theorem Dev.ringRun_fetched (d : Dev) (s : SliceRec) (r : Nat) (x : RingRun) (o : RingOp) (ci : Nat) :
    (d.fetched s r x o ci).ringRun s r = some { x with ops := x.ops ++ [o] } := by
  rw [Dev.fetched, Dev.ringRun_showStall, Dev.ringRun_setRingReg, Dev.ringRun_setRing]

theorem Dev.sqCi_fetched (d : Dev) (s : SliceRec) (r : Nat) (x : RingRun) (o : RingOp) (ci : Nat) :
    (d.fetched s r x o ci).ringReg s r .sqCi = next32 ci := by
  rw [Dev.fetched, Dev.ringReg_showStall _ _ _ (by decide), Dev.ringReg_setRingReg_index _ _ _ _ (by decide)]
  exact Nat.mod_mod _ _

/-- An entry that waits, with room for its completion, is fetched where it can be read. -/
theorem yields_submissionFetched {slice : Fin 4096} {ring : Fin 64} {sl : SliceRec} {x : RingRun} {b : List Byte} {d1 : Dev} {s : State}
    {P : Dev → Prop} (hrest : s.dev.atRest) (hslice : s.dev.sliceRec slice = some sl) (hrun : s.dev.ringRun sl ring = some x)
    (hsafe : s.dev.safe = false) (hstate : s.dev.ringState sl ring = 1 ∨ s.dev.ringState sl ring = 2)
    (hmore : s.dev.ringReg sl ring .sqCi ≠ x.sampled)
    (hroom : gap (s.dev.ringReg sl ring .sqCi) (s.dev.ringReg sl ring .cqCi) < 2 ^ x.cqLog2)
    (hread : s.dev.sliceRead sl sl.quota.regions sl.agent (x.sqBase + s.dev.ringReg sl ring .sqCi % 2 ^ x.sqLog2 * 64) 64 = (.ok b, d1))
    (hmade : d1.made)
    (hP : ∀ t, (d1.fetched sl ring x (fetchedOp (s.dev.ringReg sl ring .sqCi) b sl.regionsNow) (s.dev.ringReg sl ring .sqCi)).SameRings t →
      P t) : yields (.submissionFetched slice ring) s P := by
  refine yields_made (exec_submissionFetched slice ring s) hrest.1 ?_ ((d1.sameTurn_fetched _ _ _ _ _).made hmade) hP
  rw [hslice]
  dsimp only
  rw [hrun]
  dsimp only
  rw [if_neg (by rw [hsafe]; simp only [Bool.false_eq_true, false_or]; omega), hread]
  rfl

/-- A fenced operation that is first, with no completion pending, starts. -/
theorem exec_fencedSubmissionStart_first {slice : Fin 4096} {ring : Fin 64} {sl : SliceRec} {x : RingRun} {o : RingOp} {rest : List RingOp}
    {s : State} (hslice : s.dev.sliceRec slice = some sl) (hrun : s.dev.ringRun sl ring = some x) (hops : x.ops = o :: rest)
    (hsafe : s.dev.safe = false) (hfenced : o.stage = .fenced) (hdone : x.done = []) :
    exec (.fencedSubmissionStart slice ring) s =
      .next (s.onto (s.dev.setRing sl ring { x with ops := { o with stage := .waiting } :: rest })) := by
  refine exec_onto (exec_fencedSubmissionStart slice ring s) ?_
  rw [hslice]
  dsimp only
  rw [hrun]
  dsimp only
  rw [hops]
  exact if_pos ⟨by simp [hsafe], hfenced, hdone⟩

/-! ### CQ_CI (R143) -/

/-- A write of CQ_CI to a ring that is not DISABLED: counted where it passes CQ_PI, else taken. -/
theorem exec_cqCiWrite_on {p : Fin 64} {index : Fin 256} {ring : Fin 64} {v : BitVec 32} {sl : SliceRec} {s : State}
    (hslice : s.dev.sliceAt p index = some sl) (hring : ring.val < sl.quota.rings.length) (hstate : s.dev.ringState sl ring ≠ 0) :
    exec (.cqCiWrite p index ring v) s = .next (s.onto
      (if gap (s.dev.ringReg sl ring .cqPi) (s.dev.ringReg sl ring .cqCi) < gap v.toNat (s.dev.ringReg sl ring .cqCi) then
        ({ s.dev with svc := { s.dev.svc with ignoredCi := s.dev.svc.ignoredCi + 1 } }).count 36 0x9003 1
      else (s.dev.setRingReg sl ring .cqCi v.toNat).showStall sl ring)) := by
  refine exec_onto (exec_cqCiWrite p index ring v s) ?_
  rw [hslice]
  exact if_neg (by omega)

/-! ### The obligation -/

/-- Settles O27: what enabling and fetching read leaves the services, and the end of their accesses leaves the rings; every other command
writes a ring's run, its status or an index, each apart from the others. -/
theorem ringsEnableSampleAndFetch : Obligations.RingsEnableSampleAndFetch := by
  unfold Obligations.RingsEnableSampleAndFetch
  refine ⟨?enabled, ?bad, ?unread, ?disabling, ?disabled, ?sampled, ?overrun, ?fetched, ?started, ?taken, ?ignored, ?off⟩
  case enabled =>
    intro p index ring sl c d1 s hrest hslice hcount hoff hread hok hmade hengine
    have hsvc : d1.svc = s.dev.svc := by
      have h := Dev.sliceRead_svc (s.dev.wr (.ring sl.port sl.index ring .status) 24 17 0) sl sl.regionsNow sl.agent
        ((s.dev.wr (.ring sl.port sl.index ring .status) 24 17 0).ringReg sl ring .ctx) 64
      rw [hread] at h
      exact h
    refine yields_ringEnable hrest hslice (Dev.ringEnable_good hcount hoff hread hok hengine) (Dev.SameTurn.made ⟨rfl, rfl⟩ hmade)
      fun t ht => ⟨?_, ?_, ?_, ?_, ?_, ?_, ?_⟩
    · rw [ht.ringState, Dev.ringState_setRingState]
    · rw [ht.rd, Dev.code_setRingState, Dev.code_zeroIndexes, Dev.code_setRing]
    · rw [ht.ringReg, Dev.ringReg_setRingState _ _ _ _ _ (by decide), Dev.ringReg_zeroIndexes _ _ _ (by decide)]
    · rw [ht.ringReg, Dev.ringReg_setRingState _ _ _ _ _ (by decide), Dev.ringReg_zeroIndexes _ _ _ (by decide)]
    · rw [ht.ringReg, Dev.ringReg_setRingState _ _ _ _ _ (by decide), Dev.ringReg_zeroIndexes _ _ _ (by decide)]
    · rw [ht.ringReg, Dev.ringReg_setRingState _ _ _ _ _ (by decide), Dev.ringReg_zeroIndexes _ _ _ (by decide)]
    · rw [ht.ringRun, Dev.ringRun_setRingState, Dev.ringRun_zeroIndexes, Dev.ringRun_setRing, Dev.contextRun, hsvc]
  case bad =>
    intro p index ring sl c d1 s hrest hslice hcount hoff hread hbad hmade
    exact yields_ringEnable hrest hslice (Dev.ringEnable_bad hcount hoff hread hbad)
      (((d1.sameTurn_setRing sl ring _).trans (Dev.sameTurn_ringError _ sl ring 2)).made hmade)
      fun t ht => ⟨(ht.ringState _ _).trans (Dev.ringState_ringError _ _ _ _), (ht.rd _ _ _ _ _ _).trans (Dev.code_ringError _ _ _ _)⟩
  case unread =>
    intro p index ring sl st d1 s hrest hslice hcount hoff hread hmade
    exact yields_ringEnable hrest hslice (Dev.ringEnable_unread hcount hoff hread) ((d1.sameTurn_ringError sl ring 1).made hmade)
      fun t ht => ⟨(ht.ringState _ _).trans (Dev.ringState_ringError _ _ _ _), (ht.rd _ _ _ _ _ _).trans (Dev.code_ringError _ _ _ _)⟩
  case disabling =>
    intro p index ring sl x s hslice hring hstate hrun hops
    have hexec := exec_ringDisable_on hslice hring hstate
    rw [Dev.ringSettles_runs ((s.dev.ringRun_setRingState sl ring 3).trans hrun) hops] at hexec
    exact yields_of_eq hexec ⟨(Dev.ringState_shown _ _ _).trans (Dev.ringState_setRingState _ _ _ _),
      (Dev.ringRun_shown _ _ _).trans ((Dev.ringRun_setRingState _ _ _ _).trans hrun), Dev.shown_pool _, Dev.shown_dir _, Dev.shown_sw _⟩
  case disabled =>
    intro p index ring sl x s hslice hring hstate hrun hops
    obtain ⟨hoff, hnone⟩ := Dev.ringSettles_ends (s.dev.ringState_setRingState sl ring 3) ((s.dev.ringRun_setRingState sl ring 3).trans hrun) hops
    exact yields_of_eq (exec_ringDisable_on hslice hring hstate)
      ⟨(Dev.ringState_shown _ _ _).trans hoff, (Dev.ringRun_shown _ _ _).trans hnone⟩
  case sampled =>
    intro slice ring sl x s hslice hrun hquiet hstate hfits
    have hexec := exec_ringPollSample_samples hslice hrun hquiet hstate
    rw [if_neg (by omega)] at hexec
    refine yields_of_eq hexec ⟨?_, ?_, fun w hw => ?_⟩
    · rw [Dev.ringRun_shown, Dev.ringRun_showStall, Dev.ringRun_setRing, ← hquiet]
    · rw [Dev.ringState_shown, Dev.ringState_showStall (Dev.ringRun_setRing _ _ _ _)
        (by rw [Dev.ringState_setRing, Dev.ringState_polled]; exact hstate), Dev.ringReg_setRing _ _ _ _ _ (by decide),
        Dev.ringReg_setRing _ _ _ _ _ (by decide), Dev.ringReg_polled _ _ _ _ (by decide), Dev.ringReg_polled _ _ _ _ (by decide)]
    · rw [Dev.ringReg_shown, Dev.ringReg_showStall _ _ _ hw, Dev.ringReg_setRing _ _ _ _ _ hw, Dev.ringReg_polled _ _ _ _ hw]
  case overrun =>
    intro slice ring sl x s hslice hrun hquiet hstate hover
    have hexec := exec_ringPollSample_samples hslice hrun hquiet hstate
    rw [if_pos hover] at hexec
    exact yields_of_eq hexec ⟨(Dev.ringState_shown _ _ _).trans (Dev.ringState_ringError _ _ _ _),
      ((Dev.sameRings_shown _).rd _ _ _ _ _ _).trans (Dev.code_ringError _ _ _ _)⟩
  case fetched =>
    intro slice ring sl x b d1 s hrest hslice hrun hsafe hstate hmore hroom hread hmade o
    exact yields_submissionFetched hrest hslice hrun hsafe hstate hmore hroom hread hmade fun t ht =>
      ⟨(ht.ringRun _ _).trans (Dev.ringRun_fetched _ _ _ _ _ _), (ht.ringReg _ _ _).trans (Dev.sqCi_fetched _ _ _ _ _ _)⟩
  case started =>
    intro slice ring sl x o rest s hslice hrun hops hsafe hfenced hdone
    refine yields_of_eq (exec_fencedSubmissionStart_first hslice hrun hops hsafe hfenced hdone) ⟨?_, ?_, Dev.shown_pool _, ?_⟩
    · rw [Dev.ringRun_shown, Dev.ringRun_setRing]
    · rw [Dev.ringState_shown, Dev.ringState_setRing]
    · rw [Dev.shown_svc]
      rfl
  case taken =>
    intro p index ring v sl s hslice hring hstate hfits
    have hexec := exec_cqCiWrite_on (v := v) hslice hring hstate
    rw [if_neg (by omega)] at hexec
    refine yields_of_eq hexec ⟨?_, ?_, ?_, fun w hstatus hindex => ?_⟩
    · rw [Dev.ringReg_shown, Dev.ringReg_showStall _ _ _ (by decide), Dev.ringReg_setRingReg]
    · rw [Dev.shown_svc, Dev.showStall_svc]
      rfl
    · rw [Dev.shown_pool, Dev.showStall_pool]
      rfl
    · rw [Dev.ringReg_shown, Dev.ringReg_showStall _ _ _ hstatus, Dev.ringReg_setRingReg_ne _ _ _ _ hindex]
  case ignored =>
    intro p index ring v sl s hslice hring hstate hpast
    have hexec := exec_cqCiWrite_on (v := v) hslice hring hstate
    rw [if_pos hpast] at hexec
    have hsame := (Dev.sameRings_count { s.dev with svc := { s.dev.svc with ignoredCi := s.dev.svc.ignoredCi + 1 } } 36 0x9003 1).trans
      (Dev.sameRings_shown _)
    exact yields_of_eq hexec ⟨(congrArg SvcState.ignoredCi hsame.svc).trans rfl, (congrArg SvcState.rings hsame.svc).trans rfl,
      fun w => (hsame.ringReg _ _ _).trans rfl⟩
  case off =>
    intro p index ring v sl s hslice hoff
    refine exec_onto (exec_cqCiWrite p index ring v s) ?_
    rw [hslice]
    exact if_pos (.inr hoff)

end Sys2Proof.Machine
end

section
/-! PROOFS. A failed completion write in a ring whose CQ_PI register lists more than its 32 bits: what it writes back is cut. -/

namespace Sys2Proof.Machine

/-- A slice of no quota. -/
def bareSlice : SliceRec := ⟨0, 0, 0, 0, ⟨[], [], [], 0, 0, [], 0, 0⟩, none⟩

/-- An operation whose completion write is on its way to slot 0. -/
def writtenZero : RingOp := ⟨0, [], .written 0, .of 0, false, []⟩

/-- A ring with that operation alone. -/
def failingRun : RingRun :=
  { sqBase := 0, cqBase := 0, shadow := 0, sqLog2 := 6, cqLog2 := 6, service := 1, msixEn := false, pollN := 1, msixVec := 0, sampled := 0
    ops := [writtenZero], slotNext := 1, done := [], notify := false, sent := false }

/-- A device with that ring, whose CQ_PI register lists 2^32. -/
def wideCqPi : Dev :=
  { Dev.reset with
    regs := [(.ring 0 0 0 .cqPi, 0x100000000)]
    svc := { SvcState.reset with slices := [(0, bareSlice)], rings := [((0, 0), failingRun)] } }

theorem wideCqPi_atRest : wideCqPi.atRest := ⟨rfl, fun _ h => absurd h List.not_mem_nil⟩

/-- CQ_PI of the ring in the next state of an outcome. -/
def cqPiNext (o : Host.Outcome State Fault Refusal) : Option Nat :=
  match o with
  | .next t => some (t.dev.ringReg bareSlice 0 .cqPi)
  | _ => none

/-- The failed write leaves CQ_PI at 0: the slot is not passed, and what the register lists is written back within its 32 bits. -/
theorem wideCqPi_cut : cqPiNext (exec (.completionWriteFailed 0 0 0) { dev := wideCqPi, pending := [] }) = some 0 := by decide +kernel

/-- Refutes O28: CQ_PI is written back after a failed completion write, and a write keeps the register's own bits alone; a register file
that lists others there, which no rule of the statement shuts out, shows another CQ_PI afterwards. -/
theorem not_completionsAreWrittenAndPassed : ¬ Obligations.CompletionsAreWrittenAndPassed := by
  unfold Obligations.CompletionsAreWrittenAndPassed
  rintro ⟨_, _, _, _, _, _, _, hfailed⟩
  obtain ⟨t, hexec, _, _, _, hkept, _⟩ := hfailed 0 0 0 bareSlice failingRun writtenZero 0 { dev := wideCqPi, pending := [] }
    wideCqPi_atRest (by decide +kernel) (by decide +kernel) rfl rfl
  have hcut := wideCqPi_cut
  rw [hexec] at hcut
  have hzero : t.dev.ringReg bareSlice 0 .cqPi = 0 := Option.some.inj hcut
  have hwide : wideCqPi.ringReg bareSlice 0 .cqPi = 0x100000000 := by decide
  have hsame : (0 : Nat) = 0x100000000 := hzero.symm.trans (hkept.trans hwide)
  exact absurd hsame (by decide)

end Sys2Proof.Machine
end

section
/-! PROOFS. Operations that rings start and end: what a start and an end leave alone, and the commands that start them. -/

namespace Sys2Proof.Machine

/-! ### The start of an operation (R132, R174) -/

/-- An engine that takes an operation leaves the accesses under way, and of the services changes the rounds alone. -/
theorem Dev.dispatch_on {d d1 : Dev} {s : SliceRec} {i : Image} {e : Nat} (h : d.dispatch s i = (.on e, d1)) :
    d1.dir = d.dir ∧ ∃ rounds, d1.svc = { d.svc with rounds := rounds } := by
  unfold Dev.dispatch at h
  dsimp only at h
  split at h
  · cases h
  split at h
  · cases h
  split at h <;> rename_i d2 hchosen
  · have hdir : d2.dir = d.dir := (congrArg (fun p => p.2.dir) hchosen).symm.trans (d.choose_dir _)
    have hsvc : d2.svc = d.svc := (congrArg (fun p => p.2.svc) hchosen).symm.trans (d.choose_svc _)
    cases h
    exact ⟨hdir, _, by rw [Dev.takeTurn, hsvc]⟩
  · cases h

section
variable {d d' : Dev} {slice ring index opcode e : Nat} {services : List Nat} {sl : SliceRec} {x : RingRun} {o : RingOp}
  (h : d.starts slice ring index opcode services sl x o e d')
include h

theorem Dev.starts_frame : d'.dir = d.dir ∧ ∃ rounds, d'.svc = { d.svc with rounds := rounds } := by
  obtain ⟨_, _, _, _, _, _, _, d1, hdispatch, rfl⟩ := h
  obtain ⟨hdir, rounds, hsvc⟩ := Dev.dispatch_on hdispatch
  exact ⟨(d1.count_dir _ _ _).trans hdir, rounds, (d1.count_svc _ _ _).trans hsvc⟩

theorem Dev.sameTurn_starts : d.SameTurn d' := by
  obtain ⟨hdir, rounds, hsvc⟩ := Dev.starts_frame h
  exact ⟨hdir, by rw [hsvc]⟩

theorem Dev.ringRun_starts : d'.ringRun sl ring = some x := by
  obtain ⟨_, rounds, hsvc⟩ := Dev.starts_frame h
  obtain ⟨_, hrun, _⟩ := h
  rw [Dev.ringRun, hsvc]
  exact hrun

end

/-! ### The end of an operation -/

/-- The engines' status registers are all that showing them writes. -/
theorem Dev.showEngines_frame (d : Dev) (t : Nat) : ∃ regs, d.showEngines t = { d with regs := regs } := ⟨_, rfl⟩

/-- An operation that is replaced changes rings and registers alone. -/
theorem Dev.setOp_frame (d : Dev) (s : SliceRec) (r : Nat) (o : RingOp) :
    ∃ regs rings, d.setOp s r o = { d with regs := regs, svc := { d.svc with rings := rings } } := by
  unfold Dev.setOp
  split
  · dsimp only
    split
    · exact ⟨_, _, rfl⟩
    · exact ⟨_, _, rfl⟩
  · exact ⟨_, _, rfl⟩

/-- So does one that ends. -/
theorem Dev.endOp_frame (d : Dev) (s : SliceRec) (r : Nat) (o : RingOp) (v : OpResult) :
    ∃ regs rings, d.endOp s r o v = { d with regs := regs, svc := { d.svc with rings := rings } } := by
  obtain ⟨regs, rings, h⟩ := d.setOp_frame s r { o with stage := .ended, result := v }
  unfold Dev.endOp
  dsimp only
  rw [h]
  split
  · exact ⟨_, _, rfl⟩
  · exact ⟨_, _, rfl⟩

theorem Dev.sameTurn_setOp (d : Dev) (s : SliceRec) (r : Nat) (o : RingOp) : d.SameTurn (d.setOp s r o) := by
  obtain ⟨regs, rings, h⟩ := d.setOp_frame s r o
  rw [h]
  exact ⟨rfl, rfl⟩

theorem Dev.sameTurn_endOp (d : Dev) (s : SliceRec) (r : Nat) (o : RingOp) (v : OpResult) : d.SameTurn (d.endOp s r o v) := by
  obtain ⟨regs, rings, h⟩ := d.endOp_frame s r o v
  rw [h]
  exact ⟨rfl, rfl⟩

theorem Dev.qservice_setOp (d : Dev) (s s' : SliceRec) (r : Nat) (o : RingOp) : (d.setOp s r o).qservice s' = d.qservice s' := by
  obtain ⟨regs, rings, h⟩ := d.setOp_frame s r o
  rw [h]
  rfl

theorem Dev.qservice_endOp (d : Dev) (s s' : SliceRec) (r : Nat) (o : RingOp) (v : OpResult) :
    (d.endOp s r o v).qservice s' = d.qservice s' := by
  obtain ⟨regs, rings, h⟩ := d.endOp_frame s r o v
  rw [h]
  rfl

theorem Dev.endOp_pool (d : Dev) (s : SliceRec) (r : Nat) (o : RingOp) (v : OpResult) : (d.endOp s r o v).pool = d.pool := by
  obtain ⟨regs, rings, h⟩ := d.endOp_frame s r o v
  rw [h]

theorem Dev.qservice_setQService (d : Dev) (s : SliceRec) (q : QService) : (d.setQService s q).qservice s = some q := tget_tset_same _ _ _

theorem Dev.qservice_count (d : Dev) (s : SliceRec) (u ev n : Nat) : (d.count u ev n).qservice s = d.qservice s := by
  rw [Dev.qservice, Dev.count_svc, Dev.qservice]

theorem Dev.qservice_showEngines (d : Dev) (s : SliceRec) (t : Nat) : (d.showEngines t).qservice s = d.qservice s := by
  rw [Dev.qservice, Dev.showEngines_svc, Dev.qservice]

theorem Dev.ringRun_showEngines (d : Dev) (s : SliceRec) (r t : Nat) : (d.showEngines t).ringRun s r = d.ringRun s r := by
  rw [Dev.ringRun, Dev.showEngines_svc, Dev.ringRun]

theorem Dev.ringRun_setQService (d : Dev) (s s' : SliceRec) (q : QService) (r : Nat) : (d.setQService s q).ringRun s' r = d.ringRun s' r := rfl

theorem Dev.sameTurn_setQService (d : Dev) (s : SliceRec) (q : QService) : d.SameTurn (d.setQService s q) := ⟨rfl, rfl⟩

theorem Dev.sameTurn_showEngines (d : Dev) (t : Nat) : d.SameTurn (d.showEngines t) := by
  obtain ⟨regs, h⟩ := d.showEngines_frame t
  rw [h]
  exact ⟨rfl, rfl⟩

theorem Dev.qservice_shown (d : Dev) (s : SliceRec) : d.shown.qservice s = d.qservice s := by
  rw [Dev.qservice, Dev.shown_svc, Dev.qservice]

/-! ### Commands that start an operation -/

section
variable {c : Instr} {s : State} {slice ring index opcode e : Nat} {services : List Nat} {sl : SliceRec} {x : RingRun} {o : RingOp}
  {d' d2 : Dev}

/-- A command with accesses that starts an operation leads to the device that its body makes. -/
theorem accesses_starts {body : Dev → SliceRec → RingRun → RingOp → Nat → Dev}
    (he : exec c s = onAccess s fun d => d.startOp slice ring index opcode services body) (hturn : s.dev.noTurn)
    (h : s.dev.starts slice ring index opcode services sl x o e d') (hb : body d' sl x o e = d2) : accesses c s d2 :=
  accesses_of_eq he hturn ((Dev.startOp_starts h body).trans hb)

/-- So does a queue operation, on the service of its slice. -/
theorem accesses_startsQueue {q : QService} {body : Dev → SliceRec → RingOp → Nat → QService → Dev}
    (he : exec c s = onAccess s fun d => d.startQueueOp slice ring index opcode body) (hturn : s.dev.noTurn)
    (h : s.dev.starts slice ring index opcode [2] sl x o e d') (hq : d'.qservice sl = some q) (hb : body d' sl o e q = d2) :
    accesses c s d2 :=
  accesses_starts he hturn h (by rw [hq]; exact hb)

/-- A queue operation that ends holds its result, and the service is what it was. -/
theorem yields_endedQueue {v : OpResult} {q : QService} (he : exec c s = .next (s.onto (d'.endOp sl ring o v)))
    (hrun : d'.ringRun sl ring = some x) (hq : d'.qservice sl = some q) :
    yields c s fun t => t.qservice sl = some q ∧ t.ringRun sl ring = some (x.put { o with stage := .ended, result := v }) :=
  yields_of_eq he ⟨(Dev.qservice_shown _ _).trans ((Dev.qservice_endOp _ _ _ _ _ _).trans hq),
    (Dev.ringRun_shown _ _ _).trans (Dev.ringRun_endOp _ _ _ _ _ hrun)⟩

/-- A command with accesses whose operation starts and ends where nothing has to wait. -/
theorem exec_startsRests {body : Dev → SliceRec → RingRun → RingOp → Nat → Dev}
    (he : exec c s = onAccess s fun d => d.startOp slice ring index opcode services body) (hrest : s.dev.atRest)
    (h : s.dev.starts slice ring index opcode services sl x o e d') (hb : body d' sl x o e = d2) (hsame : d'.SameTurn d2) :
    exec c s = .next (s.onto d2) :=
  exec_rests he hrest.1 ((Dev.startOp_starts h body).trans hb) (((Dev.sameTurn_starts h).trans hsame).atRest hrest)

theorem exec_startsQueueRests {q : QService} {body : Dev → SliceRec → RingOp → Nat → QService → Dev}
    (he : exec c s = onAccess s fun d => d.startQueueOp slice ring index opcode body) (hrest : s.dev.atRest)
    (h : s.dev.starts slice ring index opcode [2] sl x o e d') (hq : d'.qservice sl = some q) (hb : body d' sl o e q = d2)
    (hsame : d'.SameTurn d2) : exec c s = .next (s.onto d2) :=
  exec_startsRests he hrest h (by rw [hq]; exact hb) hsame

end

end Sys2Proof.Machine
end

section
/-! PROOFS. Lookups (R150 to R156). Settles O29. -/

namespace Sys2Proof.Machine

/-! ### Lookups that end -/

/-- The count of a lookup by its status. -/
def Dev.countLookup (d : Dev) (e status : Nat) : Dev :=
  if status = stOk then d.count (e / 16) 0x4001 1 else if status = stMiss then d.count (e / 16) 0x4002 1 else d

theorem Dev.endLookup_eq (d : Dev) (s : SliceRec) (r : Nat) (o : RingOp) (e : Nat) (v : OpResult) :
    d.endLookup s r o e v = (d.countLookup e v.status).endOp s r o v := rfl

theorem Dev.countLookup_frame (d : Dev) (e status : Nat) : d.SameTurn (d.countLookup e status) ∧ (d.countLookup e status).svc = d.svc := by
  unfold Dev.countLookup
  split
  · exact ⟨d.sameTurn_count _ _ _, d.count_svc _ _ _⟩
  split
  · exact ⟨d.sameTurn_count _ _ _, d.count_svc _ _ _⟩
  · exact ⟨.refl d, rfl⟩

theorem Dev.sameTurn_endLookup (d : Dev) (s : SliceRec) (r : Nat) (o : RingOp) (e : Nat) (v : OpResult) :
    d.SameTurn (d.endLookup s r o e v) :=
  (d.countLookup_frame e v.status).1.trans (Dev.sameTurn_endOp _ s r o v)

/-- An ended lookup holds its result. -/
theorem Dev.ringRun_endLookup {d : Dev} {s : SliceRec} {r : Nat} {x : RingRun} (o : RingOp) (e : Nat) (v : OpResult)
    (hrun : d.ringRun s r = some x) : (d.endLookup s r o e v).ringRun s r = some (x.put { o with stage := .ended, result := v }) := by
  have hcounted : (d.countLookup e v.status).ringRun s r = some x := by
    rw [Dev.ringRun, (d.countLookup_frame e v.status).2]
    exact hrun
  rw [Dev.endLookup_eq]
  exact Dev.ringRun_endOp _ _ _ _ _ hcounted

/-- A lookup that ends before it reads anything holds its status. -/
theorem yields_stops {c : Instr} {s : State} {slice ring index opcode e : Nat} {services : List Nat} {sl : SliceRec} {x : RingRun}
    {o : RingOp} {d' : Dev} {v : OpResult} {body : Dev → SliceRec → RingRun → RingOp → Nat → Dev}
    (he : exec c s = onAccess s fun d => d.startOp slice ring index opcode services body) (hrest : s.dev.atRest)
    (h : s.dev.starts slice ring index opcode services sl x o e d') (hb : body d' sl x o e = d'.endLookup sl ring o e v) :
    yields c s fun t => t.ringRun sl ring = some (x.put { o with stage := .ended, result := v }) :=
  yields_of_eq (exec_startsRests he hrest h hb (d'.sameTurn_endLookup _ _ _ _ _))
    ((Dev.ringRun_shown _ _ _).trans (Dev.ringRun_endLookup o e v (Dev.ringRun_starts h)))

/-! ### The obligation -/

/-- Settles O29: each lookup goes through its checks in their order, and ends with what the reads that its premises name have found. -/
theorem lookupsAnswerWithTheTablesEntry : Obligations.LookupsAnswerWithTheTablesEntry := by
  unfold Obligations.LookupsAnswerWithTheTablesEntry
  refine ⟨?inline, ?byAddress, ?reserved, ?misaligned, ?lpm, ?lpmHeader, ?batch, ?count,
    fun d sl r x o e v hrun => Dev.ringRun_endLookup o e v hrun⟩
  case inline =>
    intro slice ring index sl x o e v h d' d1 d2 res s hturn hstart hreserved haligned c htable hok hshort hfound
    refine accesses_starts (exec_emLookup slice ring index s) hturn hstart ?_
    simp only [hreserved, haligned, ne_eq, not_true_eq_false, if_false]
    rw [htable]
    simp only [hok, hshort, if_true, Bool.not_true, Bool.false_eq_true, if_false]
    rw [hfound]
  case byAddress =>
    intro slice ring index sl x o e v h key d' d1 d2 d3 res s hturn hstart hreserved haligned c htable hok hlong hkeyless hkeyAligned hkey
      hfound
    refine accesses_starts (exec_emLookup slice ring index s) hturn hstart ?_
    simp only [hreserved, haligned, ne_eq, not_true_eq_false, if_false]
    rw [htable]
    simp only [hok, Nat.not_le.2 hlong, hkeyless, hkeyAligned, not_true_eq_false, Bool.not_true, Bool.false_eq_true, if_false]
    rw [hkey]
    dsimp only
    rw [hfound]
  case reserved =>
    intro slice ring index sl x o e d' s hrest hstart hreserved
    exact yields_stops (exec_emLookup slice ring index s) hrest hstart (if_pos hreserved)
  case misaligned =>
    intro slice ring index sl x o e d' s hrest hstart hreserved hmisaligned
    exact yields_stops (exec_emLookup slice ring index s) hrest hstart ((if_neg (not_not_intro hreserved)).trans (if_pos hmisaligned))
  case lpm =>
    intro slice ring index sl x o e v h d' d1 d2 res s hturn hstart hreserved htail haligned c htable hok hshort hfound
    refine accesses_starts (exec_lpmLookup slice ring index s) hturn hstart ?_
    simp only [hreserved, htail, haligned, ne_eq, not_true_eq_false, or_self, if_false]
    rw [htable]
    simp only [hok, Bool.not_true, Bool.false_eq_true, if_false]
    rw [if_neg (fun hbad => hbad.2 (hshort hbad.1)), hfound]
  case lpmHeader =>
    intro slice ring index sl x o e v h d' d1 s hturn hstart hreserved htail haligned htable hbad
    refine accesses_starts (exec_lpmLookup slice ring index s) hturn hstart ?_
    simp only [hreserved, htail, haligned, ne_eq, not_true_eq_false, or_self, if_false]
    rw [htable]
    simp only [hbad, Bool.not_false, if_true, Option.getD_some]
  case batch =>
    intro slice ring index sl x o e v h hits d' d1 d2 s hturn hstart hone hmany hkind hreserved htail haligned hkeys hresults c htable hok
      hfound
    refine accesses_starts (exec_lookupBatch slice ring index s) hturn hstart ?_
    dsimp only
    rw [if_neg (by omega), if_neg (by omega), htable]
    dsimp only
    rw [hok]
    simp only [Bool.not_true, Bool.false_eq_true, if_false]
    rw [hfound]
    rfl
  case count =>
    intro slice ring index sl x o e d' s hrest hstart hcount
    exact yields_stops (exec_lookupBatch slice ring index s) hrest hstart (if_pos (by omega))

end Sys2Proof.Machine
end

section
/-! PROOFS. Queue-service areas, cell pools, nodes, queues and gate lists that are made or refused (R157 to R167). Settles O30. -/

namespace Sys2Proof.Machine

/-- A queue operation of slice registers alone that ends holds its result; its service is the one written last, and the pool is as it was. -/
theorem yields_endedService {c : Instr} {s : State} {sl : SliceRec} {ring : Nat} {x : RingRun} {o : RingOp} {d' : Dev} {v : OpResult}
    {q : QService} (he : exec c s = .next (s.onto ((d'.setQService sl q).endOp sl ring o v))) (hrun : d'.ringRun sl ring = some x) :
    yields c s fun t => t.qservice sl = some q ∧ t.ringRun sl ring = some (x.put { o with stage := .ended, result := v }) ∧
      t.pool = d'.pool :=
  yields_of_eq he ⟨(Dev.qservice_shown _ _).trans ((Dev.qservice_endOp _ _ _ _ _ _).trans (Dev.qservice_setQService _ _ _)),
    (Dev.ringRun_shown _ _ _).trans (Dev.ringRun_endOp _ _ _ _ _ hrun), (Dev.shown_pool _).trans (Dev.endOp_pool _ _ _ _ _)⟩

/-- A queue operation that ends at one of its checks, where nothing has to wait, leaves the service as it was. -/
theorem yields_stopsQueue {c : Instr} {s : State} {slice ring index opcode e : Nat} {sl : SliceRec} {x : RingRun} {o : RingOp} {d' : Dev}
    {q : QService} {v : OpResult} {body : Dev → SliceRec → RingOp → Nat → QService → Dev}
    (he : exec c s = onAccess s fun d => d.startQueueOp slice ring index opcode body) (hrest : s.dev.atRest)
    (h : s.dev.starts slice ring index opcode [2] sl x o e d') (hq : d'.qservice sl = some q) (hb : body d' sl o e q = d'.endOp sl ring o v) :
    yields c s fun t => t.qservice sl = some q ∧ t.ringRun sl ring = some (x.put { o with stage := .ended, result := v }) :=
  yields_endedQueue (exec_startsQueueRests he hrest h hq hb (d'.sameTurn_endOp _ _ _ _)) (Dev.ringRun_starts h) hq

/-! ### The obligation -/

/-- Settles O30: each operation goes through its checks in their order; what ends at a check writes nothing of the service, and what passes
them all writes the area and then the object. -/
theorem queueServiceIsSetUp : Obligations.QueueServiceIsSetUp := by
  unfold Obligations.QueueServiceIsSetUp
  dsimp only
  refine ⟨?service, ?serviceBusy, ?pool, ?poolMissing, ?node, ?nodeBusy, ?queue, ?queueBusy, ?gate⟩
  case service =>
    intro slice ring index sl x o e d' s hstart hreserved htail haligned hinside hnone
    refine yields_endedService (exec_starts (exec_qsInit slice ring index s) hstart ?_) (Dev.ringRun_starts hstart)
    simp only [hreserved, htail, haligned, hinside, hnone, ne_eq, not_true_eq_false, or_self, Bool.not_true, Bool.false_eq_true, if_false, if_true]
  case serviceBusy =>
    intro slice ring index sl x o e q d' s hstart hreserved htail haligned hinside hq hqueues
    refine yields_endedQueue (exec_starts (exec_qsInit slice ring index s) hstart ?_) (Dev.ringRun_starts hstart) hq
    have hbusy : (q.pools.isEmpty && q.nodes.isEmpty && q.queues.isEmpty) = false := by simp [hqueues]
    simp only [hreserved, htail, haligned, hinside, hq, hbusy, ne_eq, not_true_eq_false, or_self, Bool.not_true, Bool.false_eq_true, if_false]
    rw [if_neg (by decide)]
  case pool =>
    intro slice ring index sl x o e k q d' d1 d2 d3 s hturn hstart hq hpool hsize hreserved htail hmin hmax hcells hlinks hunused hopen
      hcellsIn hlinksIn hlinked harea
    refine accesses_startsQueue (exec_cellPool slice ring index s) hturn hstart hq ?_
    rw [if_neg (by omega), if_neg (by omega), hunused, if_neg (by decide), if_neg (by omega), hopen]
    dsimp only
    rw [hcellsIn, hlinksIn, if_neg (by decide)]
    simp only [hlinked, harea]
    rfl
  case poolMissing =>
    intro slice ring index sl x o e q d' s hrest hstart hq hcount hmissing
    exact yields_stopsQueue (exec_cellPool slice ring index s) hrest hstart hq (if_pos (by simp [hcount, hmissing]))
  case node =>
    intro slice ring index sl x o e q d' d1 s hturn hstart hq hnode hroot hopen hon hguard hcbs hpbs htail hfresh htree harea
    refine accesses_startsQueue (exec_nodeSet slice ring index s) hturn hstart hq ?_
    simp only [hfresh]
    rw [if_neg (by simp [hnode, hroot, hopen, hon, hguard, hcbs, hpbs, htail])]
    simp only [hroot, hopen, hon, decide_true, if_true, Bool.false_and, Bool.false_eq_true, if_false]
    rw [htree, harea]
    rfl
  case nodeBusy =>
    intro slice ring index sl x o e q n d' s hrest hstart hq hnode hroot hopen hoff hguard hcbs hpbs htail hold hbelow
    refine yields_stopsQueue (exec_nodeSet slice ring index s) hrest hstart hq ?_
    simp only [hold]
    rw [if_neg (by simp [hnode, hroot, hopen, hoff, hguard, hcbs, hpbs, htail])]
    exact if_pos (by simp [hoff, hbelow])
  case queue =>
    intro slice ring index sl x o e q n p d' s hstart hq hqueue hpool hon hreserved hage htail hmine hopen hkept hnode hpools hfresh
    refine yields_endedService (exec_startsQueue (exec_queueSet slice ring index s) hstart hq ?_) (Dev.ringRun_starts hstart)
    simp only [hfresh]
    rw [if_neg (by omega), if_neg (by simp [hmine, hopen]), hkept, if_neg (by decide), if_neg (by simp [hon, hnode, hpools])]
    simp only [hon, decide_true, Bool.false_and, Bool.false_eq_true, if_false]
  case queueBusy =>
    intro slice ring index sl x o e q y d' s hstart hq hqueue hpool hoff hreserved hage htail hmine hkept hold hpackets
    refine yields_endedQueue (exec_startsQueue (exec_queueSet slice ring index s) hstart hq ?_) (Dev.ringRun_starts hstart) hq
    simp only [hold]
    rw [if_neg (by omega), if_neg (by simp [hmine, hoff]), hkept, if_neg (by decide), if_neg (by simp [hoff])]
    exact if_pos (by simp [hoff, hpackets])
  case gate =>
    intro slice ring index sl x o e q bytes d' d1 d2 s hturn hstart hq hgate hlength hreserved htail haligned hread hbank hguard hfresh
      harea
    refine accesses_startsQueue (exec_gateSet slice ring index s) hturn hstart hq ?_
    have husers : ((q.nodes.filter fun n => decide (n.2.gate = field o.entry 4 1)).all fun n =>
        guardOk ((List.range (field o.entry 5 1 + 1)).map fun k => field bytes (4 * k) 4) n.2.guardNs) = true := by
      simp only [List.all_eq_true, List.mem_filter, decide_eq_true_eq]
      exact fun n hn => hguard n hn.1 hn.2
    dsimp only
    rw [if_neg (by omega), if_neg (by omega), hread]
    dsimp only
    rw [hbank, husers, if_neg (by decide), harea]
    dsimp only
    rw [hfresh]
    rfl

end Sys2Proof.Machine
end

section
/-! PROOFS. Packets that are queued, taken, dropped and re-executed (R134, R149, R160 to R167). Settles O31. -/

namespace Sys2Proof.Machine

/-! ### The operation of a command that goes on (R160, R161) -/

/-- An operation found with its slice, its ring and its slice's queue service. -/
theorem Dev.queueOp_eq {d : Dev} {slice ring index : Nat} {sl : SliceRec} {x : RingRun} {o : RingOp} {q : QService}
    (h : d.queueOp slice ring index = some (sl, x, o, q)) : d.ringRun sl ring = some x ∧ d.qservice sl = some q := by
  unfold Dev.queueOp at h
  split at h
  · cases h
  split at h
  · rename_i y p hrun hservice
    obtain ⟨o', _, heq⟩ := Option.map_eq_some_iff.1 h
    cases heq
    exact ⟨hrun, hservice⟩
  · cases h

/-! ### Queues and their heads -/

theorem QService.queue_setQueue (q : QService) (i : Nat) (y : PQueue) : (q.setQueue i y).queue i = some y := tget_tset_same _ _ _

/-- A queue without packets has no message and so no tag. -/
theorem QService.tagHead_empty {q : QService} {i : Nat} {y : PQueue} (h : q.queue i = some y) (hempty : y.packets = []) :
    q.tagHead i = q.setQueue i { y with tags := [] } := by
  unfold QService.tagHead
  rw [h]
  dsimp only
  rw [hempty]

theorem QService.tagHead_pools (q : QService) (i : Nat) : (q.tagHead i).pools = q.pools := by
  unfold QService.tagHead
  split
  · split
    · rfl
    · split <;> rfl
  · rfl

theorem QService.popHead_pools (q : QService) (i : Nat) : (q.popHead i).pools = q.pools := by
  unfold QService.popHead
  split
  · exact QService.tagHead_pools _ _
  · rfl

/-- The only packet of a queue leaves it empty. -/
theorem QService.queue_popHead_only {q : QService} {i : Nat} {y : PQueue} {p : Packet} (h : q.queue i = some y) (honly : y.packets = [p]) :
    (q.popHead i).queue i = some { y with packets := [], tags := [] } := by
  unfold QService.popHead
  rw [h]
  dsimp only
  rw [honly, QService.tagHead_empty (QService.queue_setQueue _ _ _) rfl, QService.queue_setQueue]
  rfl

/-! ### Refusing a packet (R160) -/

theorem Dev.refuseEnqueue_eq {d : Dev} {s : SliceRec} {q : QService} {i : Nat} {y : PQueue} (hq : d.qservice s = some q)
    (hy : q.queue i = some y) (ring : Nat) (o : RingOp) (status : Nat) :
    d.refuseEnqueue s ring o i status = (d.setQService s (q.setQueue i { y with refused := y.refused + 1 })).endOp s ring o (.of status) := by
  unfold Dev.refuseEnqueue
  rw [hq]
  dsimp only
  rw [hy]

/-! ### Ageing (R165) -/

theorem PQueue.headAged_ageless {y : PQueue} (h : y.ageUs = 0) (now : Nat) : y.headAged now = false := by
  unfold PQueue.headAged
  split
  · simp [h]
  · rfl

/-- A queue whose head is not past its age, or that is empty, drops nothing. -/
theorem Dev.ageAll_keeps {d : Dev} {s : SliceRec} (a : Agent) {q : QService} {i : Nat} {y : PQueue} (hq : d.qservice s = some q)
    (hy : q.queue i = some y) (hyoung : y.headAged d.now = false) : d.ageAll s a [i] = (0, d) := by
  have hfound : (d.qservice s).bind (fun q => q.queue i) = some y := by rw [hq]; exact hy
  have hkeeps : ∀ n, d.ageHeads s a i n = (0, d) := fun n => by
    cases n with
    | zero => rfl
    | succ n =>
      rw [Dev.ageHeads, hfound]
      exact if_neg (by simp [hyoung])
  simp only [Dev.ageAll, List.foldl_cons, List.foldl_nil, hkeeps]

/-- A head whose cell pool is gone is dropped with no cells to return. -/
theorem Dev.dropHead_poolless {d : Dev} {s : SliceRec} (a : Agent) {q : QService} {i : Nat} {y : PQueue} {p : Packet}
    (hq : d.qservice s = some q) (hy : q.queue i = some y) (honly : y.packets = [p]) (hpool : tget q.pools p.pool = none) :
    d.dropHead s a i = (d.setQService s ((q.setQueue i { y with aged := y.aged + 1 }).popHead i)).count (agentTile a) 0x4006 1 := by
  have hpools : ∀ z, tget ((q.setQueue i z).popHead i).pools p.pool = none := fun z => by
    rw [QService.popHead_pools]
    exact hpool
  unfold Dev.dropHead Dev.returnCells
  rw [hq]
  dsimp only
  rw [hy]
  dsimp only
  rw [honly]
  dsimp only
  rw [Dev.qservice_setQService]
  dsimp only
  rw [hpools]

/-- A queue of one packet past its age drops that. -/
theorem Dev.ageAll_only {d : Dev} {s : SliceRec} (a : Agent) {q : QService} {i : Nat} {y : PQueue} {p : Packet}
    (hq : d.qservice s = some q) (hy : q.queue i = some y) (honly : y.packets = [p]) (hold : y.headAged d.now = true) :
    d.ageAll s a [i] = (1, d.dropHead s a i) := by
  have hfound : (d.qservice s).bind (fun q => q.queue i) = some y := by rw [hq]; exact hy
  have hone : d.ageHeads s a i 1 = (1, d.dropHead s a i) := by
    rw [Dev.ageHeads, hfound]
    exact if_pos hold
  simp only [Dev.ageAll, List.foldl_cons, List.foldl_nil, hfound, Option.map_some, honly, List.length_singleton, Option.getD_some, hone]

/-! ### Taking a packet (R161) -/

/-- A packet that is taken by its queue's number leaves the queue, and its copy starts. -/
theorem Dev.takePacket_head {d : Dev} {s : SliceRec} {q : QService} {i : Nat} {y : PQueue} {p : Packet} {rest : List Packet}
    (hq : d.qservice s = some q) (hy : q.queue i = some y) (hpackets : y.packets = p :: rest) (ring : Nat) (o : RingOp) (e aged : Nat) :
    d.takePacket s ring o e i aged [] = (d.setQService s (q.popHead i)).setOp s ring { o with
      stage := .copyingOut e i p
      result := ⟨stOk, if field o.entry 16 2 < p.len then 2 else 0, i + aged * 2 ^ 16, p.len + (d.now - p.ftime) % 2 ^ 48 * 2 ^ 16, p.info⟩ } := by
  unfold Dev.takePacket
  rw [hq]
  dsimp only
  rw [hy]
  dsimp only
  rw [hpackets]
  rfl

theorem Dev.takePacket_empty {d : Dev} {s : SliceRec} {q : QService} {i : Nat} {y : PQueue} (hq : d.qservice s = some q)
    (hy : q.queue i = some y) (hempty : y.packets = []) (ring : Nat) (o : RingOp) (e : Nat) (path : List Nat) :
    d.takePacket s ring o e i 0 path = d.endOp s ring o (.of stEmpty) := by
  unfold Dev.takePacket
  rw [hq]
  dsimp only
  rw [hy]
  dsimp only
  rw [hempty]
  rfl

/-- DEQUEUE of a queue with no aged head goes on to its packet. -/
theorem Dev.dequeue_queue {d : Dev} {s : SliceRec} {ring : Nat} {o : RingOp} {e : Nat} {q : QService} {y : PQueue}
    (hqueue : field o.entry 4 4 < 65536) (hlines : field o.entry 16 2 % 64 = 0) (hmin : 64 ≤ field o.entry 16 2)
    (hmax : field o.entry 16 2 ≤ 16384) (hreserved : field o.entry 18 46 = 0) (haligned : field o.entry 8 8 % 64 = 0)
    (hmine : s.quota.hasQueue (field o.entry 4 4) = true) (hkept : d.descriptorLost (field o.entry 4 4) = false)
    (hq : d.qservice s = some q) (hy : q.queue (field o.entry 4 4) = some y) (hyoung : y.headAged d.now = false) :
    d.dequeue s ring o e q = d.takePacket s ring o e (field o.entry 4 4) 0 [] := by
  have hnumber : field o.entry 4 4 % 65536 = field o.entry 4 4 := Nat.mod_eq_of_lt hqueue
  have hnode : (field o.entry 4 4).testBit 31 = false := Nat.testBit_lt_two_pow (by omega)
  have hzero : field o.entry 4 4 / 65536 % 32768 = 0 := by omega
  unfold Dev.dequeue
  simp only [hnumber, hnode, hzero, hlines, hreserved, haligned, hmine, hkept, hy, Dev.ageAll_keeps (engineAgent e) hq hy hyoung]
  rw [if_neg (by simp; omega)]
  simp

/-! ### The obligation -/

/-- Settles O31: each step of ENQUEUE and DEQUEUE goes through its checks in their order to the accesses that its premises name; what drops,
flushes or counts a packet changes the slice's service alone. -/
theorem packetsAreQueuedAndTaken : Obligations.PacketsAreQueuedAndTaken := by
  unfold Obligations.PacketsAreQueuedAndTaken
  dsimp only
  refine ⟨?copied, ?full, ?committed, ?taken, ?empty, ?returned, ?queried, ?flushed, ?visited, ?aged, ?reexecuted, ?lost⟩
  case copied =>
    intro slice ring index sl x o e q y p data d' d1 d2 d3 s hturn hstart hq hqueue hmin hmax hreserved htail haligned hopen hkept hy hpool
      hroom hcells hread hlinked hwritten
    refine accesses_startsQueue (exec_enqueue slice ring index s) hturn hstart hq ?_
    unfold Dev.enqueue
    dsimp only
    rw [if_neg (by omega), if_neg (by omega), hopen, hkept, hy]
    simp only [hpool, hroom, Bool.not_true, Bool.false_eq_true, if_false, Nat.not_lt.2 hcells]
    rw [hread]
    simp only [hlinked, hwritten]
  case full =>
    intro slice ring index sl x o e q y p d' s hrest hstart hq hqueue hmin hmax hreserved htail haligned hopen hkept hy hpool hfull
    have hended : d'.enqueue sl ring o e q =
        (d'.setQService sl (q.setQueue (field o.entry 4 4) { y with refused := y.refused + 1 })).endOp sl ring o (.of stQueueFull) := by
      unfold Dev.enqueue
      dsimp only
      rw [if_neg (by omega), if_neg (by omega), hopen, hkept, hy]
      simp only [hpool, hfull, Bool.not_true, Bool.false_eq_true, if_false, if_true]
      exact Dev.refuseEnqueue_eq hq hy _ _ _
    exact yields_endedQueue (exec_startsQueueRests (exec_enqueue slice ring index s) hrest hstart hq hended
      ((d'.sameTurn_setQService sl _).trans (Dev.sameTurn_endOp _ _ _ _ _)))
      ((Dev.ringRun_setQService _ _ _ _ _).trans (Dev.ringRun_starts hstart)) (Dev.qservice_setQService _ _ _)
  case committed =>
    intro slice ring index sl x o e cells q y p d1 s hturn hop hstage hfree hy hpool hkept hroom hempty hwritten
    refine accesses_of_eq (exec_enqueueCommit slice ring index s) hturn ?_
    rw [hop]
    dsimp only
    rw [hstage]
    dsimp only
    rw [hfree, hy]
    simp only [Option.filter_some, decide_true, Bool.false_eq_true, if_false, if_true, hpool, hkept, hroom]
    simp only [hwritten, hempty, List.getLast?_nil, Option.map_none]
    rfl
  case taken =>
    intro slice ring index sl x o e q y p rest d' s hrest hstart hq hqueue hlines hmin hmax hreserved haligned hmine hkept hy hpackets hageless
    have hyoung : y.headAged d'.now = false := PQueue.headAged_ageless hageless _
    have htaken := (Dev.dequeue_queue (ring := ring) hqueue hlines hmin hmax hreserved haligned hmine hkept hq hy hyoung).trans
      (Dev.takePacket_head hq hy hpackets ring o e 0)
    refine yields_of_eq (exec_startsQueueRests (exec_dequeue slice ring index s) hrest hstart hq htaken
      ((d'.sameTurn_setQService sl _).trans (Dev.sameTurn_setOp _ _ _ _))) ⟨?_, ?_⟩
    · rw [Dev.qservice_shown, Dev.qservice_setOp, Dev.qservice_setQService]
    · rw [Dev.ringRun_shown,
        Dev.ringRun_setOp _ _ _ _ ((Dev.ringRun_setQService _ _ _ _ _).trans (Dev.ringRun_starts hstart)), Nat.zero_mul, Nat.add_zero]
      rfl
  case empty =>
    intro slice ring index sl x o e q y d' s hrest hstart hq hqueue hlines hmin hmax hreserved haligned hmine hkept hy hempty
    have hyoung : y.headAged d'.now = false := by rw [PQueue.headAged, hempty]
    exact yields_stopsQueue (exec_dequeue slice ring index s) hrest hstart hq
      ((Dev.dequeue_queue (ring := ring) hqueue hlines hmin hmax hreserved haligned hmine hkept hq hy hyoung).trans
        (Dev.takePacket_empty hq hy hempty ring o e []))
  case returned =>
    intro slice ring index sl x o e i q pk p bytes out d1 d2 d3 s hturn hop hstage hpool hread hpadded hwritten
    refine accesses_of_eq (exec_dequeueCopyDone slice ring index s) hturn ?_
    have hfound : (s.dev.qservice sl).bind (fun q => tget q.pools pk.pool) = some p := by
      rw [(Dev.queueOp_eq hop).2]
      exact hpool
    rw [hop]
    dsimp only
    rw [hstage]
    dsimp only
    unfold Dev.copyOut
    dsimp only
    rw [hfound]
    dsimp only
    rw [hread]
    dsimp only
    rw [hpadded]
    simp only [hwritten]
  case queried =>
    intro slice ring index sl x o e i q y d' s hstart hq hnamed
    exact yields_endedQueue (exec_startsQueue (exec_queueQuery slice ring index s) hstart hq (by rw [hnamed])) (Dev.ringRun_starts hstart) hq
  case flushed =>
    intro slice ring index sl x o e i q y d' s hturn hstart hq hnamed
    refine accesses_startsQueue (exec_queueFlush slice ring index s) hturn hstart hq ?_
    rw [hnamed]
  case visited =>
    intro slice queue sl e d1 s hturn hslice hkept hchosen
    refine accesses_of_eq (exec_queueAgeVisit slice queue s) hturn ?_
    rw [hslice]
    dsimp only
    rw [hkept, if_neg (by decide), hchosen]
  case aged =>
    intro slice queue sl e d1 q y p s hrest hslice hkept hchosen hq hy honly hold hpool
    have hsame : s.dev.SameTurn d1 := ⟨(congrArg (fun r => r.2.dir) hchosen).symm.trans (s.dev.choose_dir _),
      (congrArg (fun r => r.2.svc.dirty) hchosen).symm.trans (congrArg SvcState.dirty (s.dev.choose_svc _))⟩
    have hdropped := Dev.dropHead_poolless (engineAgent e) hq hy honly hpool
    have hkeeps : s.dev.SameTurn (d1.dropHead sl (engineAgent e) queue.toNat) := by
      rw [hdropped]
      exact hsame.trans ((d1.sameTurn_setQService sl _).trans (Dev.sameTurn_count _ _ _ _))
    have hexec : exec (.queueAgeVisit slice queue) s = .next (s.onto (d1.dropHead sl (engineAgent e) queue.toNat)) := by
      refine exec_rests (exec_queueAgeVisit slice queue s) hrest.1 ?_ (hkeeps.atRest hrest)
      rw [hslice]
      dsimp only
      rw [hkept, if_neg (by decide), hchosen]
      dsimp only
      rw [Dev.ageAll_only (engineAgent e) hq hy honly hold]
    refine yields_of_eq hexec ⟨_, _, ?_, QService.queue_popHead_only (QService.queue_setQueue q queue.toNat { y with aged := y.aged + 1 })
      honly, rfl, rfl, rfl⟩
    rw [Dev.qservice_shown, hdropped, Dev.qservice_count, Dev.qservice_setQService]
  case reexecuted =>
    intro slice ring index sl x o q old e i p d1 s hrest hop hstage hout hdispatch
    obtain ⟨hrun, hq⟩ := Dev.queueOp_eq hop
    obtain ⟨hdir, rounds, hsvc⟩ := Dev.dispatch_on hdispatch
    have hgoesOn : s.dev.reexecute slice ring index.toNat = ((d1.count (e / 16) 0x4005 1).setOp sl ring
        { o with stage := .copyingOut e i p, retried := true }).showEngines (old / 16) := by
      unfold Dev.reexecute
      rw [hop]
      simp only [hstage, OpStage.engine]
      rw [hout, hdispatch]
      rfl
    have hsame : s.dev.SameTurn (((d1.count (e / 16) 0x4005 1).setOp sl ring
        { o with stage := .copyingOut e i p, retried := true }).showEngines (old / 16)) :=
      (Dev.SameTurn.mk hdir (by rw [hsvc])).trans (((d1.sameTurn_count _ _ _).trans (Dev.sameTurn_setOp _ _ _ _)).trans
        (Dev.sameTurn_showEngines _ _))
    have hcounted : (d1.count (e / 16) 0x4005 1).ringRun sl ring = some x := by
      rw [Dev.ringRun, Dev.count_svc, hsvc]
      exact hrun
    refine yields_of_eq (exec_rests (exec_engineLostReexecute slice ring index s) hrest.1 hgoesOn (hsame.atRest hrest)) ⟨?_, ?_⟩
    · rw [Dev.qservice_shown, Dev.qservice_showEngines, Dev.qservice_setOp, Dev.qservice_count, Dev.qservice, hsvc]
      exact hq
    · rw [Dev.ringRun_shown, Dev.ringRun_showEngines, Dev.ringRun_setOp _ _ _ _ hcounted]
      rfl
  case lost =>
    intro slice ring index sl x o q old pool cells d1 s hturn hop hstage hout hdispatch
    refine accesses_of_eq (exec_engineLostReexecute slice ring index s) hturn ?_
    unfold Dev.reexecute
    rw [hop]
    simp only [hstage, OpStage.engine]
    rw [hout, hdispatch]
    rfl

end Sys2Proof.Machine
end

section
/-! PROOFS. Data-mover channels: the fields of DMV.STATUS as one record, what each channel operation writes of them, and how a channel
comes to rest (R179 to R187). Settles O7. -/

namespace Sys2Proof.Machine

/-! ### The fields of DMV.STATUS (Table DM-12) -/

/-- What DMV.STATUS shows of a channel: STATE, ARMED, LAST_RESULT and LAST_TAG. -/
@[ext] structure ChannelStatus where
  state  : Nat
  armed  : Bool
  result : Nat
  tag    : Nat

def Dev.channelStatus (d : Dev) (c : Nat) : ChannelStatus :=
  ⟨d.dmvState c, d.bitOf (.dmv c .status) 28, d.rd (.dmv c .status) 27 24, d.rd (.dmv c .status) 15 0⟩

/-- The fields of DMV.STATUS are a matter of that register. -/
theorem Dev.channelStatus_congr {d d' : Dev} {c : Nat} (h : d'.reg (.dmv c .status) = d.reg (.dmv c .status)) :
    d'.channelStatus c = d.channelStatus c := by
  rw [Dev.channelStatus, Dev.channelStatus, Dev.bitOf_eq_of_reg h, Dev.rd_eq_of_reg h 27 24, Dev.rd_eq_of_reg h 15 0,
    show d'.dmvState c = d.dmvState c from Dev.rd_eq_of_reg h 31 29]

theorem Dev.channelStatus_shown (d : Dev) (c : Nat) : d.shown.channelStatus c = d.channelStatus c :=
  Dev.channelStatus_congr (d.dmvReg_shown c _)

theorem Dev.channelStatus_setReg_ne (d : Dev) {c : Nat} {w : DmvReg} (v : Word) (h : w ≠ .status) :
    (d.setReg (.dmv c w) v).channelStatus c = d.channelStatus c :=
  Dev.channelStatus_congr (d.reg_setReg_ne v (by simp [h.symm]))

theorem Dev.channelStatus_wr_ne (d : Dev) {c : Nat} {w : DmvReg} (hi lo n : Nat) (h : w ≠ .status) :
    (d.wr (.dmv c w) hi lo n).channelStatus c = d.channelStatus c := d.channelStatus_setReg_ne _ h

theorem Dev.channelStatus_setResidue (d : Dev) (c n : Nat) : (d.setResidue c n).channelStatus c = d.channelStatus c :=
  d.channelStatus_setReg_ne _ (by decide)

theorem Dev.channelStatus_setChan (d : Dev) (c k : Nat) (x : ChannelRun) : (d.setChan k x).channelStatus c = d.channelStatus c :=
  Dev.channelStatus_congr (d.reg_setChan k x _)

theorem Dev.channelStatus_dropChan (d : Dev) (c k : Nat) : (d.dropChan k).channelStatus c = d.channelStatus c :=
  Dev.channelStatus_congr (d.reg_dropChan k _)

theorem Dev.channelStatus_count (d : Dev) (c u ev n : Nat) : (d.count u ev n).channelStatus c = d.channelStatus c :=
  Dev.channelStatus_congr (d.reg_count u ev n _ rfl)

theorem Dev.channelStatus_setDmvState (d : Dev) (c n : Nat) :
    (d.setDmvState c n).channelStatus c = { d.channelStatus c with state := n % 8 } := by
  have hkeeps : ∀ {hi lo : Nat}, (Reg.dmv c .status).holds hi lo = true → hi < 29 →
      (d.setDmvState c n).rd (.dmv c .status) hi lo = d.rd (.dmv c .status) hi lo :=
    fun hheld hlow => d.rd_wr_field n hheld (.inl hlow)
  ext1
  · exact d.rd_wr_same n (dmvStatus_holds c 31 29 (by simp))
  · exact congrArg (fun n : Nat => decide (n = 1)) (hkeeps (dmvStatus_holds c 28 28 (by simp)) (by decide))
  · exact hkeeps (dmvStatus_holds c 27 24 (by simp)) (by decide)
  · exact hkeeps (dmvStatus_holds c 15 0 (by simp)) (by decide)

/-- A write of ARMED. -/
theorem Dev.channelStatus_wr_armed (d : Dev) (c n : Nat) :
    (d.wr (.dmv c .status) 28 28 n).channelStatus c = { d.channelStatus c with armed := decide (n % 2 = 1) } := by
  have hkeeps : ∀ {hi lo : Nat}, (Reg.dmv c .status).holds hi lo = true → hi < 28 ∨ 28 < lo →
      (d.wr (.dmv c .status) 28 28 n).rd (.dmv c .status) hi lo = d.rd (.dmv c .status) hi lo :=
    fun hheld hapart => d.rd_wr_field n hheld hapart
  ext1
  · exact hkeeps (dmvStatus_holds c 31 29 (by simp)) (by decide)
  · exact d.bitOf_wr_same n (dmvStatus_holds c 28 28 (by simp))
  · exact hkeeps (dmvStatus_holds c 27 24 (by simp)) (by decide)
  · exact hkeeps (dmvStatus_holds c 15 0 (by simp)) (by decide)

theorem Dev.channelStatus_dmvDisarm (d : Dev) (c : Nat) : (d.dmvDisarm c).channelStatus c = { d.channelStatus c with armed := false } :=
  d.channelStatus_wr_armed c 0

theorem Dev.channelStatus_dmvResult (d : Dev) (c result tag : Nat) :
    (d.dmvResult c result tag).channelStatus c = { d.channelStatus c with result := result % 16, tag := tag % 65536 } := by
  have hkeeps : ∀ {hi lo : Nat}, (Reg.dmv c .status).holds hi lo = true → 27 < lo →
      (d.dmvResult c result tag).rd (.dmv c .status) hi lo = d.rd (.dmv c .status) hi lo := fun hheld hhigh => by
    rw [Dev.dmvResult, Dev.rd_wr_field _ _ hheld (.inr (by omega)), Dev.rd_wr_field _ _ hheld (.inr hhigh)]
  ext1
  · exact hkeeps (dmvStatus_holds c 31 29 (by simp)) (by decide)
  · exact congrArg (fun n : Nat => decide (n = 1)) (hkeeps (dmvStatus_holds c 28 28 (by simp)) (by decide))
  · exact (Dev.rd_wr_field _ _ (dmvStatus_holds c 27 24 (by simp)) (by decide)).trans (d.rd_wr_same _ (dmvStatus_holds c 27 24 (by simp)))
  · exact Dev.rd_wr_same _ _ (dmvStatus_holds c 15 0 (by simp))

theorem Dev.reg_dmvResult_ne (d : Dev) {c : Nat} (result tag : Nat) {r : Reg} (h : r ≠ .dmv c .status) :
    (d.dmvResult c result tag).reg r = d.reg r := by
  rw [Dev.dmvResult, Dev.reg_wr_ne _ _ _ _ h, Dev.reg_wr_ne _ _ _ _ h]

/-! ### Promotion (R180) -/

/-- What a promotion loads, sets to work and records. -/
theorem Dev.dmvPromote_loaded (d : Dev) (c : Nat) : d.dmvPromote c =
    (let b := d.dmvLoaded c (d.reg (.dmv c .src)) (d.reg (.dmv c .dst)) (d.reg (.dmv c .len)) (d.reg (.dmv c .ctl)) (if d.closing c then 4 else 1)
     (b.setResidue c (b.actLen c)).setChan c ⟨false, 0, false, none, 0, [], ((d.channelSlice c).map SliceRec.regionsNow).getD []⟩) := by
  have hshadow : ∀ (e : Dev) (v : Word) {w w' : DmvReg}, w ≠ w' → (e.setReg (.dmv c w') v).reg (.dmv c w) = e.reg (.dmv c w) :=
    fun e v w w' h => e.reg_setReg_ne v (by simp [h])
  unfold Dev.dmvPromote Dev.dmvLoaded
  simp only [hshadow _ _ (show DmvReg.dst ≠ .actSrc by decide), hshadow _ _ (show DmvReg.len ≠ .actDst by decide),
    hshadow _ _ (show DmvReg.len ≠ .actSrc by decide), hshadow _ _ (show DmvReg.ctl ≠ .actLen by decide),
    hshadow _ _ (show DmvReg.ctl ≠ .actDst by decide), hshadow _ _ (show DmvReg.ctl ≠ .actSrc by decide)]
  rfl

theorem Dev.chan_setChan (d : Dev) (c : Nat) (x : ChannelRun) : (d.setChan c x).chan c = some x := tget_tset_same _ _ _

theorem Dev.chan_dmvPromote (d : Dev) (c : Nat) : (d.dmvPromote c).chan c =
    some ⟨false, 0, false, none, 0, [], ((d.channelSlice c).map SliceRec.regionsNow).getD []⟩ := by
  rw [Dev.dmvPromote_loaded]
  exact Dev.chan_setChan _ _ _

/-- The active registers take the shadow's values. -/
theorem Dev.active_dmvPromote (d : Dev) (c : Nat) :
    (d.dmvPromote c).reg (.dmv c .actSrc) = d.reg (.dmv c .src) &&& (Reg.dmv c .actSrc).mask ∧
      (d.dmvPromote c).reg (.dmv c .actDst) = d.reg (.dmv c .dst) &&& (Reg.dmv c .actDst).mask ∧
      (d.dmvPromote c).reg (.dmv c .actLen) = d.reg (.dmv c .len) &&& (Reg.dmv c .actLen).mask ∧
      (d.dmvPromote c).reg (.dmv c .actCtl) = d.reg (.dmv c .ctl) &&& (Reg.dmv c .actCtl).mask := by
  have hlast : ∀ (e : Dev) (n v : Nat) (x : ChannelRun) {w : DmvReg}, w ≠ .residue → w ≠ .status →
      ((((e.wr (.dmv c .status) 28 28 0).setDmvState c n).setResidue c v).setChan c x).reg (.dmv c w) = e.reg (.dmv c w) :=
    fun e n v x w hresidue hstatus => by
      rw [Dev.reg_setChan, Dev.setResidue, Dev.reg_setReg_ne _ _ (by simp [hresidue]), Dev.setDmvState,
        Dev.reg_wr_ne _ _ _ _ (by simp [hstatus]), Dev.reg_wr_ne _ _ _ _ (by simp [hstatus])]
  rw [Dev.dmvPromote_loaded]
  unfold Dev.dmvLoaded
  refine ⟨?_, ?_, ?_, ?_⟩ <;>
    (dsimp only; rw [hlast _ _ _ _ (by decide) (by decide)])
  · rw [Dev.reg_setReg_ne _ _ (by simp), Dev.reg_setReg_ne _ _ (by simp), Dev.reg_setReg_ne _ _ (by simp), Dev.reg_setReg_same]
  · rw [Dev.reg_setReg_ne _ _ (by simp), Dev.reg_setReg_ne _ _ (by simp), Dev.reg_setReg_same]
  · rw [Dev.reg_setReg_ne _ _ (by simp), Dev.reg_setReg_same]
  · rw [Dev.reg_setReg_same]

theorem Dev.channelStatus_dmvPromote (d : Dev) (c : Nat) :
    (d.dmvPromote c).channelStatus c = { d.channelStatus c with state := if d.closing c then 4 else 1, armed := false } := by
  have hloaded : ∀ n, (d.dmvLoaded c (d.reg (.dmv c .src)) (d.reg (.dmv c .dst)) (d.reg (.dmv c .len)) (d.reg (.dmv c .ctl)) n).channelStatus c =
      { d.channelStatus c with state := n % 8, armed := false } := fun n => by
    unfold Dev.dmvLoaded
    rw [Dev.channelStatus_setDmvState, Dev.channelStatus_wr_armed, Dev.channelStatus_setReg_ne _ _ (by decide),
      Dev.channelStatus_setReg_ne _ _ (by decide), Dev.channelStatus_setReg_ne _ _ (by decide), Dev.channelStatus_setReg_ne _ _ (by decide)]
    simp
  rw [Dev.dmvPromote_loaded, Dev.channelStatus_setChan, Dev.channelStatus_setResidue, hloaded]
  split <;> simp

/-! ### Rest (R180, Table DM-3) -/

/-- Without an armed shadow a channel whose transfer has ended is IDLE, or CLOSED while it is being removed. -/
theorem Dev.dmvRest_unarmed {d : Dev} {c : Nat} (h : d.bitOf (.dmv c .status) 28 = false) :
    d.dmvRest c = (d.dropChan c).setDmvState c (if d.closing c then 4 else 0) := by
  unfold Dev.dmvRest
  dsimp only
  rw [if_neg (by rw [show (d.dropChan c).bitOf (.dmv c .status) 28 = false from h]; simp), Dev.closing_dropChan]

/-- An armed shadow is promoted outside the safe state. -/
theorem Dev.dmvRest_armed {d : Dev} {c : Nat} (h : d.bitOf (.dmv c .status) 28 = true) (hsafe : d.safe = false) :
    d.dmvRest c = (d.dropChan c).dmvPromote c := by
  unfold Dev.dmvRest
  dsimp only
  rw [if_pos (by rw [show (d.dropChan c).bitOf (.dmv c .status) 28 = true from h, show (d.dropChan c).safe = false from hsafe]; rfl)]

/-- A channel comes to rest by a promotion, or by a write of its STATE. -/
theorem Dev.dmvRest_cases (d : Dev) (c : Nat) :
    d.dmvRest c = (d.dropChan c).dmvPromote c ∨ d.dmvRest c = (d.dropChan c).setDmvState c (if d.closing c then 4 else 0) := by
  unfold Dev.dmvRest
  dsimp only
  rw [Dev.closing_dropChan]
  split
  · exact .inl rfl
  · exact .inr rfl

theorem Dev.dmvRest_pool (d : Dev) (c : Nat) : (d.dmvRest c).pool = d.pool := by
  rcases d.dmvRest_cases c with h | h <;> rw [h] <;> rfl

/-- A channel that rests is not HALTED. -/
theorem Dev.dmvRest_state_ne (d : Dev) (c : Nat) : (d.dmvRest c).dmvState c ≠ 3 := by
  rcases d.dmvRest_cases c with h | h <;> rw [h]
  · have hstate := congrArg ChannelStatus.state ((d.dropChan c).channelStatus_dmvPromote c)
    change ((d.dropChan c).dmvPromote c).dmvState c = if (d.dropChan c).closing c then 4 else 1 at hstate
    rw [hstate]
    split <;> simp
  · have hstate : ∀ n, ((d.dropChan c).setDmvState c n).dmvState c = n % 8 := fun n =>
      congrArg ChannelStatus.state ((d.dropChan c).channelStatus_setDmvState c n)
    rw [hstate]
    split <;> simp

/-- Coming to rest leaves what is recorded of an error. -/
theorem Dev.reg_dmvRest_err (d : Dev) (c : Nat) {w : DmvReg} (h : w = .errInfo ∨ w = .errAddr) :
    (d.dmvRest c).reg (.dmv c w) = d.reg (.dmv c w) := by
  have hstatus : Reg.dmv c w ≠ .dmv c .status := by rcases h with rfl | rfl <;> simp
  rcases d.dmvRest_cases c with hrest | hrest <;> rw [hrest]
  · obtain ⟨-, -, -, -, -, -, -, hkeeps⟩ := (d.dropChan c).reg_dmvPromote c
    exact hkeeps _ (.inr (h.imp (congrArg _) (congrArg _)))
  · exact Dev.reg_wr_ne _ _ _ _ hstatus

/-! ### ACK (R186) -/

/-- The channel with ERR_INFO.VALID clear. -/
def Dev.errCleared (d : Dev) (c : Nat) : Dev := d.wr (.dmv c .errInfo) 31 31 0

theorem Dev.channelStatus_errCleared (d : Dev) (c : Nat) : (d.errCleared c).channelStatus c = d.channelStatus c :=
  d.channelStatus_wr_ne _ _ _ (by decide)

theorem Dev.reg_errCleared (d : Dev) (c : Nat) {w : DmvReg} (h : w ≠ .errInfo) : (d.errCleared c).reg (.dmv c w) = d.reg (.dmv c w) :=
  d.reg_wr_ne _ _ _ (by simp [h])

theorem Dev.safe_errCleared (d : Dev) (c : Nat) : (d.errCleared c).safe = d.safe := d.bitOf_wr_ne _ _ _ _ (by simp)

theorem dmvErrInfo_holds (c hi lo : Nat) (h : (hi = 31 ∧ lo = 31) ∨ (hi = 30 ∧ lo = 30) ∨ (hi = 27 ∧ lo = 24) ∨ (hi = 15 ∧ lo = 0)) :
    (Reg.dmv c .errInfo).holds hi lo = true := by
  rcases h with ⟨rfl, rfl⟩ | ⟨rfl, rfl⟩ | ⟨rfl, rfl⟩ | ⟨rfl, rfl⟩ <;> simp [Reg.holds, Reg.mask, Reg.layout, fieldMask]

theorem Dev.dmvAck_halted {d : Dev} {c : Nat} (h : d.dmvState c = 3) : d.dmvAck c = (d.errCleared c).dmvRest c := if_pos h

theorem Dev.dmvAck_other {d : Dev} {c : Nat} (h : d.dmvState c ≠ 3) : d.dmvAck c = d := if_neg h

/-- ACK in HALTED clears ERR_INFO.VALID and leaves ERR_ADDR. -/
theorem Dev.err_dmvAck {d : Dev} {c : Nat} (h : d.dmvState c = 3) :
    (d.dmvAck c).bitOf (.dmv c .errInfo) 31 = false ∧ (d.dmvAck c).reg (.dmv c .errAddr) = d.reg (.dmv c .errAddr) := by
  rw [Dev.dmvAck_halted h, Dev.bitOf_eq_of_reg ((d.errCleared c).reg_dmvRest_err c (.inl rfl)), Dev.reg_dmvRest_err _ _ (.inr rfl)]
  exact ⟨d.bitOf_wr_same 0 (dmvErrInfo_holds c 31 31 (by simp)), d.reg_errCleared c (by decide)⟩

/-- ACK in HALTED without an armed shadow ends the transfer. -/
theorem Dev.dmvAck_unarmed {d : Dev} {c : Nat} (h : d.dmvState c = 3) (harmed : d.bitOf (.dmv c .status) 28 = false)
    (hclosing : d.closing c = false) : d.dmvAck c = ((d.errCleared c).dropChan c).setDmvState c 0 := by
  have hunarmed : (d.errCleared c).bitOf (.dmv c .status) 28 = false :=
    (congrArg ChannelStatus.armed (d.channelStatus_errCleared c)).trans harmed
  rw [Dev.dmvAck_halted h, Dev.dmvRest_unarmed hunarmed, show (d.errCleared c).closing c = false from hclosing]
  rfl

/-- ACK in HALTED with an armed shadow promotes it outside the safe state. -/
theorem Dev.dmvAck_armed {d : Dev} {c : Nat} (h : d.dmvState c = 3) (harmed : d.bitOf (.dmv c .status) 28 = true)
    (hsafe : d.safe = false) : d.dmvAck c = ((d.errCleared c).dropChan c).dmvPromote c := by
  have hstill : (d.errCleared c).bitOf (.dmv c .status) 28 = true :=
    (congrArg ChannelStatus.armed (d.channelStatus_errCleared c)).trans harmed
  rw [Dev.dmvAck_halted h, Dev.dmvRest_armed hstill ((d.safe_errCleared c).trans hsafe)]

/-- The STATUS fields after ACK in HALTED, without and with an armed shadow. -/
theorem Dev.channelStatus_dmvAck_unarmed {d : Dev} {c : Nat} (h : d.dmvState c = 3) (harmed : d.bitOf (.dmv c .status) 28 = false)
    (hclosing : d.closing c = false) : (d.dmvAck c).channelStatus c = { d.channelStatus c with state := 0 } := by
  rw [Dev.dmvAck_unarmed h harmed hclosing, Dev.channelStatus_setDmvState]
  exact congrArg (fun x : ChannelStatus => { x with state := 0 }) (d.channelStatus_errCleared c)

theorem Dev.channelStatus_dmvAck_armed {d : Dev} {c : Nat} (h : d.dmvState c = 3) (harmed : d.bitOf (.dmv c .status) 28 = true)
    (hclosing : d.closing c = false) (hsafe : d.safe = false) :
    (d.dmvAck c).channelStatus c = { d.channelStatus c with state := 1, armed := false } := by
  rw [Dev.dmvAck_armed h harmed hsafe, Dev.channelStatus_dmvPromote, show ((d.errCleared c).dropChan c).closing c = false from hclosing]
  exact congrArg (fun x : ChannelStatus => { x with state := 1, armed := false }) (d.channelStatus_errCleared c)

/-- The active registers after ACK in HALTED with an armed shadow. -/
theorem Dev.active_dmvAck {d : Dev} {c : Nat} (h : d.dmvState c = 3) (harmed : d.bitOf (.dmv c .status) 28 = true) (hsafe : d.safe = false) :
    (d.dmvAck c).reg (.dmv c .actSrc) = d.reg (.dmv c .src) &&& (Reg.dmv c .actSrc).mask ∧
      (d.dmvAck c).reg (.dmv c .actDst) = d.reg (.dmv c .dst) &&& (Reg.dmv c .actDst).mask ∧
      (d.dmvAck c).reg (.dmv c .actLen) = d.reg (.dmv c .len) &&& (Reg.dmv c .actLen).mask ∧
      (d.dmvAck c).reg (.dmv c .actCtl) = d.reg (.dmv c .ctl) &&& (Reg.dmv c .actCtl).mask := by
  obtain ⟨hsrc, hdst, hlen, hctl⟩ := ((d.errCleared c).dropChan c).active_dmvPromote c
  rw [Dev.dmvAck_armed h harmed hsafe, hsrc, hdst, hlen, hctl]
  simp only [Dev.reg_dropChan]
  rw [d.reg_errCleared c (by decide), d.reg_errCleared c (by decide), d.reg_errCleared c (by decide), d.reg_errCleared c (by decide)]
  exact ⟨rfl, rfl, rfl, rfl⟩

/-! ### The obligation -/

theorem exec_dmvAck_onDev (c : Fin 64) (s : State) : exec (.dmvAck c) s = onDev s fun d => d.dmvAck c := rfl

/-- Settles O7: ACK in HALTED clears VALID and lets the channel rest, and rest is a write of STATE or a promotion. -/
theorem ackEndsHaltedAndPromotesAnArmedShadow : Obligations.AckEndsHaltedAndPromotesAnArmedShadow := by
  unfold Obligations.AckEndsHaltedAndPromotesAnArmedShadow
  refine ⟨fun c s h => ?ended, fun c s h harmed hclosing => ?idle, fun c s h harmed hclosing hsafe => ?active, fun c s h => ?other⟩
  case ended =>
    obtain ⟨hvalid, haddr⟩ := Dev.err_dmvAck h
    refine yields_onDev (exec_dmvAck_onDev c s) ⟨(Dev.dmvBit_shown _ _ _ _).trans hvalid, (Dev.dmvReg_shown _ _ _).trans haddr, ?_⟩
    rw [Dev.dmvState_shown, Dev.dmvAck_halted h]
    exact Dev.dmvRest_state_ne _ _
  case idle =>
    exact yields_onDev (exec_dmvAck_onDev c s) (congrArg ChannelStatus.state
      ((Dev.channelStatus_shown _ _).trans (Dev.channelStatus_dmvAck_unarmed h harmed hclosing)))
  case active =>
    have hstatus := (Dev.channelStatus_shown _ _).trans (Dev.channelStatus_dmvAck_armed h harmed hclosing hsafe)
    obtain ⟨hsrc, hdst, hlen, hctl⟩ := Dev.active_dmvAck h harmed hsafe
    exact yields_onDev (exec_dmvAck_onDev c s) ⟨congrArg ChannelStatus.state hstatus, congrArg ChannelStatus.armed hstatus,
      (Dev.dmvReg_shown _ _ _).trans hsrc, (Dev.dmvReg_shown _ _ _).trans hdst, (Dev.dmvReg_shown _ _ _).trans hlen,
      (Dev.dmvReg_shown _ _ _).trans hctl⟩
  case other =>
    exact exec_onto (exec_dmvAck_onDev c s) (Dev.dmvAck_other h)

end Sys2Proof.Machine
end

section
/-! PROOFS. Transfers that are armed, disarmed and aborted, errors that are recorded, and channels that are lost (R179 to R191). Settles
O32. -/

namespace Sys2Proof.Machine

/-! ### Interrupts (Table DM-14) -/

theorem Dev.dmvIrq_off {d : Dev} {c : Nat} (h : d.bitOf (.dmv c .cfg) 31 = false) : d.dmvIrq c = d := by
  unfold Dev.dmvIrq
  rw [h]
  rfl

/-! ### ARM (R179) -/

theorem Dev.dmvArm_armed {d : Dev} {c : Nat} (h : d.bitOf (.dmv c .status) 28 = true) : d.dmvArm c = d := by
  unfold Dev.dmvArm
  rw [h]
  rfl

/-- The shadow is armed. -/
def Dev.shadowArmed (d : Dev) (c : Nat) : Dev := d.wr (.dmv c .status) 28 28 1

theorem Dev.channelStatus_shadowArmed (d : Dev) (c : Nat) : (d.shadowArmed c).channelStatus c = { d.channelStatus c with armed := true } :=
  d.channelStatus_wr_armed c 1

/-- ARM that passes its checks arms the shadow, and promotes it where the channel is IDLE outside the safe state. -/
theorem Dev.dmvArm_passes {d : Dev} {c : Nat} (harmed : d.bitOf (.dmv c .status) 28 = false) (hopen : d.dmvState c ≠ 4)
    (hcheck : d.armCheck c = none) :
    d.dmvArm c = if d.dmvState c = 0 ∧ ¬ d.safe then (d.shadowArmed c).dmvPromote c else d.shadowArmed c := by
  have hstate : (d.wr (.dmv c .status) 28 28 1).dmvState c = d.dmvState c := congrArg ChannelStatus.state (d.channelStatus_shadowArmed c)
  have hsafe : (d.wr (.dmv c .status) 28 28 1).safe = d.safe := d.bitOf_wr_ne _ _ _ _ (by simp)
  unfold Dev.dmvArm Dev.shadowArmed
  rw [harmed, if_neg hopen, hcheck]
  dsimp only
  rw [hstate, hsafe]
  rfl

/-- ARM that a check refuses, or of a CLOSED channel, shows its result. -/
theorem Dev.dmvArm_refused {d : Dev} {c n : Nat} (harmed : d.bitOf (.dmv c .status) 28 = false)
    (hresult : (if d.dmvState c = 4 then some 4 else d.armCheck c) = some n) (hirq : d.bitOf (.dmv c .cfg) 31 = false) :
    d.dmvArm c = d.dmvResult c n (d.rd (.dmv c .ctl) 31 16) := by
  have hoff : (d.dmvResult c n (d.rd (.dmv c .ctl) 31 16)).bitOf (.dmv c .cfg) 31 = false :=
    (Dev.bitOf_eq_of_reg (d.reg_dmvResult_ne _ _ (by simp)) _).trans hirq
  unfold Dev.dmvArm
  rw [harmed, hresult]
  exact Dev.dmvIrq_off hoff

/-- The results that refuse fit LAST_RESULT. -/
theorem Dev.armCheck_lt {d : Dev} {c n : Nat} (h : d.armCheck c = some n) : n < 16 := by
  have hcodes : n = 3 ∨ n = 4 := by
    unfold Dev.armCheck at h
    dsimp only at h
    split_ifs at h
    · exact .inl (Option.some.inj h).symm
    · exact .inr (Option.some.inj h).symm
    · exact .inr (Option.some.inj h).symm
    · exact .inr (Option.some.inj h).symm
    · split at h
      · exact .inr (Option.some.inj h).symm
      · split_ifs at h
        · exact .inr (Option.some.inj h).symm
        · exact .inr (Option.some.inj h).symm
  omega

/-! ### ABORT (R184, Table DM-11) -/

theorem Dev.reg_dmvDisarm_ne (d : Dev) {c : Nat} {r : Reg} (h : r ≠ .dmv c .status) : (d.dmvDisarm c).reg r = d.reg r :=
  d.reg_wr_ne _ _ _ h

theorem Dev.state_dmvDisarm (d : Dev) (c : Nat) : (d.dmvDisarm c).dmvState c = d.dmvState c :=
  congrArg ChannelStatus.state (d.channelStatus_dmvDisarm c)

/-- ABORT in HALTED acknowledges, without a shadow. -/
theorem Dev.dmvAbort_halted {d : Dev} {c : Nat} (h : d.dmvState c = 3) : d.dmvAbort c = (d.dmvDisarm c).dmvAck c :=
  if_pos ((d.state_dmvDisarm c).trans h)

/-- ABORT without an active transfer only disarms. -/
theorem Dev.dmvAbort_inactive {d : Dev} {c : Nat} (h : d.dmvState c ≠ 3) (hrun : d.chan c = none) : d.dmvAbort c = d.dmvDisarm c := by
  unfold Dev.dmvAbort
  dsimp only
  rw [if_neg (by rw [Dev.state_dmvDisarm]; exact h), show (d.dmvDisarm c).chan c = none from hrun]

/-- ABORT of an active transfer marks it, and a BUSY channel is ABORTING. -/
theorem Dev.dmvAbort_active {d : Dev} {c : Nat} {x : ChannelRun} (h : d.dmvState c ≠ 3) (hrun : d.chan c = some x) :
    d.dmvAbort c = if d.dmvState c = 1 then ((d.dmvDisarm c).setChan c { x with aborting := true }).setDmvState c 2
      else (d.dmvDisarm c).setChan c { x with aborting := true } := by
  have hstate : ((d.dmvDisarm c).setChan c { x with aborting := true }).dmvState c = d.dmvState c :=
    congrArg ChannelStatus.state ((Dev.channelStatus_setChan _ c c _).trans (d.channelStatus_dmvDisarm c))
  unfold Dev.dmvAbort
  dsimp only
  rw [if_neg (by rw [Dev.state_dmvDisarm]; exact h), show (d.dmvDisarm c).chan c = some x from hrun]
  dsimp only
  rw [hstate]

theorem Dev.channelStatus_dmvAbort_active {d : Dev} {c : Nat} {x : ChannelRun} (h : d.dmvState c ≠ 3) (hrun : d.chan c = some x) :
    (d.dmvAbort c).channelStatus c =
      { d.channelStatus c with state := if d.dmvState c = 1 then 2 else d.dmvState c, armed := false } := by
  rw [Dev.dmvAbort_active h hrun]
  split
  · rw [Dev.channelStatus_setDmvState, Dev.channelStatus_setChan, Dev.channelStatus_dmvDisarm]
  · rw [Dev.channelStatus_setChan, Dev.channelStatus_dmvDisarm]
    rfl

/-! ### An error is recorded (R185, Table DM-13) -/

/-- ERR_INFO of an error: VALID, the direction, the cause and the tag. -/
def errInfoOf (write : Bool) (cause tag : Nat) : Nat := 2 ^ 31 + (if write then 2 ^ 30 else 0) + cause * 2 ^ 24 + tag

/-- The fields of ERR_INFO of an error whose cause and tag fit. -/
theorem errInfoOf_fields {write : Bool} {cause tag : Nat} (hcause : cause < 16) (htag : tag < 65536) :
    getBits (BitVec.ofNat 64 (errInfoOf write cause tag)) 31 31 = 1 ∧
      getBits (BitVec.ofNat 64 (errInfoOf write cause tag)) 30 30 = (if write then 1 else 0) ∧
      getBits (BitVec.ofNat 64 (errInfoOf write cause tag)) 27 24 = cause ∧
      getBits (BitVec.ofNat 64 (errInfoOf write cause tag)) 15 0 = tag := by
  have hword : errInfoOf write cause tag < 2 ^ 64 := by
    unfold errInfoOf
    split <;> omega
  simp only [getBits, BitVec.toNat_ofNat, Nat.mod_eq_of_lt hword]
  unfold errInfoOf
  refine ⟨?_, ?_, ?_, ?_⟩ <;> (split <;> omega)

/-- The first error of a transfer latched: its registers, and the count of bus errors. -/
def Dev.errLatched (d : Dev) (c off : Nat) (write : Bool) (cause : Nat) : Dev :=
  ((d.setReg (.dmv c .errInfo) (BitVec.ofNat 64 (errInfoOf write cause (d.actTag c)))).setReg (.dmv c .errAddr)
    (BitVec.ofNat 64 ((if write then (d.reg (.dmv c .actDst)).toNat else (d.reg (.dmv c .actSrc)).toNat) + off))).count (c / 4) 0x5008 1

theorem Dev.dmvFails_first {d : Dev} {c : Nat} {x : ChannelRun} (h : x.failed = none) (off : Nat) (write : Bool) (cause : Nat) :
    d.dmvFails c x off write cause = (d.errLatched c off write cause).setChan c { x with failed := some off } := by
  unfold Dev.dmvFails
  rw [h]
  rfl

theorem Dev.dmvFails_later {d : Dev} {c f : Nat} {x : ChannelRun} (h : x.failed = some f) (off : Nat) (write : Bool) (cause : Nat) :
    d.dmvFails c x off write cause = d.setChan c { x with failed := some (min f off), failures := x.failures + 1 } := by
  unfold Dev.dmvFails
  rw [h]

theorem Dev.reg_errLatched_ne (d : Dev) {c : Nat} (off : Nat) (write : Bool) (cause : Nat) {r : Reg} (hside : r.side = false)
    (hinfo : r ≠ .dmv c .errInfo) (haddr : r ≠ .dmv c .errAddr) : (d.errLatched c off write cause).reg r = d.reg r := by
  rw [Dev.errLatched, Dev.reg_count _ _ _ _ _ hside, Dev.reg_setReg_ne _ _ haddr, Dev.reg_setReg_ne _ _ hinfo]

theorem Dev.actTag_lt (d : Dev) (c : Nat) : d.actTag c < 65536 := d.rd_lt _ _ _

/-- What a latched error shows in ERR_INFO. -/
theorem Dev.errInfo_errLatched (d : Dev) (c off : Nat) (write : Bool) {cause : Nat} (hcause : cause < 16) :
    (d.errLatched c off write cause).bitOf (.dmv c .errInfo) 31 = true ∧ (d.errLatched c off write cause).bitOf (.dmv c .errInfo) 30 = write ∧
      (d.errLatched c off write cause).rd (.dmv c .errInfo) 27 24 = cause ∧
      (d.errLatched c off write cause).rd (.dmv c .errInfo) 15 0 = d.actTag c := by
  have hrd : ∀ {hi lo : Nat}, (Reg.dmv c .errInfo).holds hi lo = true → (d.errLatched c off write cause).rd (.dmv c .errInfo) hi lo =
      getBits (BitVec.ofNat 64 (errInfoOf write cause (d.actTag c))) hi lo := fun hheld => by
    rw [Dev.errLatched, Dev.rd_count _ _ _ _ _ _ _ rfl, Dev.rd_setReg_ne _ _ _ _ (by simp), Dev.rd_setReg_same _ _ hheld]
  obtain ⟨hvalid, hwrite, hcode, htag⟩ := errInfoOf_fields (write := write) hcause (d.actTag_lt c)
  refine ⟨?_, ?_, (hrd (dmvErrInfo_holds c 27 24 (by simp))).trans hcode, (hrd (dmvErrInfo_holds c 15 0 (by simp))).trans htag⟩
  · rw [Dev.bitOf, hrd (dmvErrInfo_holds c 31 31 (by simp)), hvalid]
    rfl
  · rw [Dev.bitOf, hrd (dmvErrInfo_holds c 30 30 (by simp)), hwrite]
    cases write <;> rfl

theorem Dev.errAddr_errLatched (d : Dev) (c off : Nat) (write : Bool) (cause : Nat) :
    (d.errLatched c off write cause).reg (.dmv c .errAddr) =
      BitVec.ofNat 64 ((if write then (d.reg (.dmv c .actDst)).toNat else (d.reg (.dmv c .actSrc)).toNat) + off) &&&
        (Reg.dmv c .errAddr).mask := by
  rw [Dev.errLatched, Dev.reg_count _ _ _ _ _ rfl, Dev.reg_setReg_same]

theorem Dev.errLatched_svc (d : Dev) (c off : Nat) (write : Bool) (cause : Nat) : (d.errLatched c off write cause).svc = d.svc := by
  rw [Dev.errLatched, Dev.count_svc, Dev.setReg_svc, Dev.setReg_svc]

theorem Dev.errLatched_flt (d : Dev) (c off : Nat) (write : Bool) (cause : Nat) :
    (d.errLatched c off write cause).flt.retirement = d.flt.retirement ∧ (d.errLatched c off write cause).flt.diesOut = d.flt.diesOut ∧
      (d.errLatched c off write cause).flt.logicOut = d.flt.logicOut := by
  rw [Dev.errLatched, Dev.count_flt_retirement, Dev.count_flt_diesOut, Dev.count_flt_logicOut, Dev.setReg_flt, Dev.setReg_flt]
  exact ⟨rfl, rfl, rfl⟩

/-! ### A channel is lost (R191, R392) -/

/-- Which channels are free is a matter of the slices, the firmware channels, the retirement record and the domains. -/
theorem Dev.freeChannels_congr {d d' : Dev} (hfirmware : d'.svc.fwChannels = d.svc.fwChannels) (hslices : d'.svc.slices = d.svc.slices)
    (hrecord : d'.flt.retirement = d.flt.retirement) (hdies : d'.flt.diesOut = d.flt.diesOut) (hlogic : d'.flt.logicOut = d.flt.logicOut)
    (hdomains : ∀ i, d'.domState i = d.domState i) : d'.freeChannels = d.freeChannels := by
  simp only [Dev.freeChannels, Dev.firmwareChannel, Dev.sliceOfChannel, Dev.isRetired, Dev.retireRec, Dev.logicUp, hfirmware, hslices,
    hrecord, hdies, hlogic, hdomains]

/-- A transfer ends: RESIDUE counts from an offset, and LAST_RESULT and LAST_TAG show the result and the tag. -/
def Dev.transferEnded (d : Dev) (c result off : Nat) : Dev := (d.setResidue c (d.actLen c - off)).dmvResult c result (d.actTag c)

theorem Dev.reg_transferEnded_ne (d : Dev) {c : Nat} (result off : Nat) {r : Reg} (hstatus : r ≠ .dmv c .status)
    (hresidue : r ≠ .dmv c .residue) : (d.transferEnded c result off).reg r = d.reg r := by
  rw [Dev.transferEnded, Dev.reg_dmvResult_ne _ _ _ hstatus, Dev.setResidue, Dev.reg_setReg_ne _ _ hresidue]

theorem Dev.residue_transferEnded (d : Dev) (c result off : Nat) : (d.transferEnded c result off).reg (.dmv c .residue) =
    BitVec.ofNat 64 (d.actLen c - off) &&& (Reg.dmv c .residue).mask := by
  rw [Dev.transferEnded, Dev.reg_dmvResult_ne _ _ _ (by simp), Dev.setResidue, Dev.reg_setReg_same]

theorem Dev.channelStatus_transferEnded (d : Dev) (c result off : Nat) : (d.transferEnded c result off).channelStatus c =
    { d.channelStatus c with result := result % 16, tag := d.actTag c } := by
  rw [Dev.transferEnded, Dev.channelStatus_dmvResult, Dev.channelStatus_setResidue, Nat.mod_eq_of_lt (d.actTag_lt c)]

theorem Dev.transferEnded_frame (d : Dev) (c result off : Nat) : ∃ regs, d.transferEnded c result off = { d with regs := regs } := ⟨_, rfl⟩

/-- A transfer ends with CHANNEL_LOST in a device that has latched its error: the line is one of the burst at an offset. -/
def Dev.transferLost (d : Dev) (c off : Nat) (write : Bool) : Dev := ((d.errLatched c off write 4).transferEnded c 5 off).dropChan c

/-- What the end of a lost transfer leaves of the other registers. -/
theorem Dev.reg_transferLost (d : Dev) {c : Nat} (off : Nat) (write : Bool) {r : Reg} (hside : r.side = false)
    (h : ∀ w ∈ [DmvReg.status, .residue, .errInfo, .errAddr], r ≠ .dmv c w) : (d.transferLost c off write).reg r = d.reg r := by
  rw [Dev.transferLost, Dev.reg_dropChan, Dev.reg_transferEnded_ne _ _ _ (h .status (by simp)) (h .residue (by simp)),
    Dev.reg_errLatched_ne _ _ _ _ hside (h .errInfo (by simp)) (h .errAddr (by simp))]

theorem Dev.transferLost_svc (d : Dev) (c off : Nat) (write : Bool) :
    (d.transferLost c off write).svc = { d.svc with channels := tdel d.svc.channels c } := by
  obtain ⟨regs, hended⟩ := (d.errLatched c off write 4).transferEnded_frame c 5 off
  rw [Dev.transferLost, hended, ← d.errLatched_svc c off write 4]
  rfl

theorem Dev.transferLost_flt (d : Dev) (c off : Nat) (write : Bool) : (d.transferLost c off write).flt.retirement = d.flt.retirement ∧
    (d.transferLost c off write).flt.diesOut = d.flt.diesOut ∧ (d.transferLost c off write).flt.logicOut = d.flt.logicOut := by
  obtain ⟨regs, hended⟩ := (d.errLatched c off write 4).transferEnded_frame c 5 off
  rw [Dev.transferLost, hended]
  exact d.errLatched_flt c off write 4

/-- Dropping a channel's run forgets what it was set to. -/
theorem Dev.dropChan_setChan (d : Dev) (c : Nat) (x : ChannelRun) : (d.setChan c x).dropChan c = d.dropChan c := by
  have hdel : ∀ m : Table Nat ChannelRun, tdel (tset m c x) c = tdel m c := fun m => by
    induction m with
    | nil => simp [tset, tdel]
    | cons e rest ih =>
      obtain ⟨k, v⟩ := e
      by_cases hk : k = c
      · simp [tset, tdel, hk]
      · have htail : List.filter (fun e => !decide (e.1 = c)) (tset rest c x) = List.filter (fun e => !decide (e.1 = c)) rest := ih
        simp [tset, tdel, hk, htail]
  simp only [Dev.dropChan, Dev.setChan, hdel]

/-- The active transfer of a lost channel ends; the line of the error, and so its direction, is open. -/
theorem Dev.transferLost_of_dmvFails {d : Dev} {c : Nat} {x : ChannelRun} (h : x.failed = none) (off : Nat) (write : Bool) :
    ((d.dmvFails c x off write 4).transferEnded c 5 off).dropChan c = d.transferLost c off write := by
  rw [Dev.dmvFails_first h]
  exact Dev.dropChan_setChan ((d.errLatched c off write 4).transferEnded c 5 off) c { x with failed := some off }

/-- A lost channel of a slice that has no channel to move to is CLOSED with the error of its transfer. -/
theorem Dev.channelLost_closed {d : Dev} {c : Nat} {sl : SliceRec} {x : ChannelRun} (hlocal : d.firmwareChannel c = false)
    (hslice : d.channelSlice c = some sl) (hrun : d.chan c = some x) (hheld : x.held = [])
    (hnone : (d.freeChannels.filter fun n => !decide (n = c)) = []) (hirq : d.bitOf (.dmv c .cfg) 31 = false) :
    ∃ off write, d.channelLost c false = (d.openNat.2.transferLost c off write).setDmvState c 4 := by
  let off := d.burstOf c (x.failed.getD x.offset)
  let write := decide (d.openNat.1 % 2 = 1)
  let y := d.openNat.2.transferLost c off write
  refine ⟨off, write, ?_⟩
  have hsvc : y.svc = { d.svc with channels := tdel d.svc.channels c } := d.openNat.2.transferLost_svc c off write
  obtain ⟨hrecord, hdies, hlogic⟩ := d.openNat.2.transferLost_flt c off write
  have hregs : ∀ {r : Reg}, r.side = false → (∀ w ∈ [DmvReg.status, .residue, .errInfo, .errAddr], r ≠ .dmv c w) → y.reg r = d.reg r :=
    fun hside h => d.openNat.2.reg_transferLost off write hside h
  have hstill : y.firmwareChannel c = false := by
    rw [Dev.firmwareChannel, hsvc]
    exact hlocal
  have hmine : y.channelSlice c = some sl := by
    unfold Dev.channelSlice Dev.sliceOfChannel Dev.sliceRec
    rw [hsvc]
    exact hslice
  have hfree : y.freeChannels = d.freeChannels :=
    Dev.freeChannels_congr (by rw [hsvc]) (by rw [hsvc]) hrecord hdies hlogic fun i => Dev.rd_eq_of_reg (hregs rfl (by simp)) 31 29
  have hoff : y.dmvIrq c = y := Dev.dmvIrq_off ((Dev.bitOf_eq_of_reg (hregs rfl (by simp)) _).trans hirq)
  have hended : ((d.openNat.2.dmvFails c { x with failed := none } off write 4).transferEnded c 5 off).dropChan c = y :=
    Dev.transferLost_of_dmvFails rfl off write
  unfold Dev.transferEnded at hended
  unfold Dev.channelLost
  rw [hrun]
  dsimp only
  rw [show ∀ e : Dev, e.releaseHeld c x.held = e from fun e => by rw [hheld]; rfl, hended, hstill, hmine]
  dsimp only
  rw [hfree, hnone]
  simp only [Dev.choose, Option.isSome_some, Bool.true_or, if_true, Bool.false_eq_true, if_false]
  rw [hoff]

theorem Dev.channelStatus_errLatched (d : Dev) (c off : Nat) (write : Bool) (cause : Nat) :
    (d.errLatched c off write cause).channelStatus c = d.channelStatus c :=
  Dev.channelStatus_congr (d.reg_errLatched_ne off write cause rfl (by simp) (by simp))

theorem Dev.channelStatus_transferLost (d : Dev) (c off : Nat) (write : Bool) :
    (d.transferLost c off write).channelStatus c = { d.channelStatus c with result := 5, tag := (d.errLatched c off write 4).actTag c } := by
  rw [Dev.transferLost, Dev.channelStatus_dropChan, Dev.channelStatus_transferEnded, Dev.channelStatus_errLatched]

theorem Dev.cause_transferLost (d : Dev) (c off : Nat) (write : Bool) : (d.transferLost c off write).rd (.dmv c .errInfo) 27 24 = 4 := by
  obtain ⟨-, -, hcause, -⟩ := d.errInfo_errLatched c off write (cause := 4) (by decide)
  exact (Dev.rd_eq_of_reg (Dev.reg_transferEnded_ne _ _ _ (by simp) (by simp)) 27 24).trans hcause

/-! ### The obligation -/

/-- Writes of DMV.STATUS change only registers. -/
theorem Dev.onlyRegs_setReg_shown (d : Dev) (r : Reg) (v : Word) : d.onlyRegs (d.setReg r v).shown :=
  Dev.onlyRegs_shown (by simp [Dev.onlyRegs])

theorem exec_dmvArm_onDev (c : Fin 64) (s : State) : exec (.dmvArm c) s = onDev s fun d => d.dmvArm c := rfl
theorem exec_dmvDisarm_onDev (c : Fin 64) (s : State) : exec (.dmvDisarm c) s = onDev s fun d => d.dmvDisarm c := rfl
theorem exec_dmvAbort_onDev (c : Fin 64) (s : State) : exec (.dmvAbort c) s = onDev s fun d => d.dmvAbort c := rfl
theorem exec_dmvChannelRetired_onDev (c : Fin 64) (s : State) :
    exec (.dmvChannelRetired c) s = onDev s fun d => d.channelLost c false := rfl

/-- Settles O32: each command's result is an equation over the device, and what it shows is read off the record of DMV.STATUS. -/
theorem transfersAreArmedAbortedAndAcknowledged : Obligations.TransfersAreArmedAbortedAndAcknowledged := by
  unfold Obligations.TransfersAreArmedAbortedAndAcknowledged
  refine ⟨?armArmed, ?armIdle, ?armBusy, ?armRefused, ?disarm, ?abortActive, ?abortInactive, ?abortHalted, ?ackUnarmed, ?ackArmed, ?ackOther,
    ?retired, ?closed⟩
  case armArmed =>
    intro c s harmed
    exact exec_onto (exec_dmvArm_onDev c s) (Dev.dmvArm_armed harmed)
  case armIdle =>
    intro c s harmed hidle hsafe hcheck hclosing
    have hpromoted : s.dev.dmvArm c = (s.dev.shadowArmed c).dmvPromote c := by
      rw [Dev.dmvArm_passes harmed (by omega) hcheck, if_pos ⟨hidle, by simp [hsafe]⟩]
    obtain ⟨hsrc, hdst, hlen, hctl⟩ := (s.dev.shadowArmed c).active_dmvPromote c
    have hshadow : ∀ {w : DmvReg}, w ≠ .status → (s.dev.shadowArmed c).reg (.dmv c w) = s.dev.reg (.dmv c w) :=
      fun h => s.dev.reg_wr_ne _ _ _ (by simp [h])
    rw [hshadow (by decide)] at hsrc hdst hlen hctl
    have hstatus := (Dev.channelStatus_shown _ c.val).trans ((s.dev.shadowArmed c).channelStatus_dmvPromote c)
    rw [show (s.dev.shadowArmed c).closing c = false from hclosing] at hstatus
    refine yields_of_eq (exec_onto (exec_dmvArm_onDev c s) hpromoted) ⟨congrArg ChannelStatus.state hstatus,
      congrArg ChannelStatus.armed hstatus, ?_⟩
    rw [Dev.dmvReg_shown, Dev.dmvReg_shown, Dev.dmvReg_shown, Dev.dmvReg_shown, Dev.chan_shown, Dev.shown_pool]
    exact ⟨hsrc, hdst, hlen, hctl, Dev.chan_dmvPromote _ _, rfl⟩
  case armBusy =>
    intro c s harmed hbusy hcheck
    have hshadowed : s.dev.dmvArm c = s.dev.shadowArmed c := by
      rw [Dev.dmvArm_passes harmed (by omega) hcheck, if_neg (by omega)]
    have hstatus := (Dev.channelStatus_shown _ c.val).trans (s.dev.channelStatus_shadowArmed c)
    exact yields_of_eq (exec_onto (exec_dmvArm_onDev c s) hshadowed) ⟨congrArg ChannelStatus.armed hstatus,
      congrArg ChannelStatus.state hstatus, Dev.chan_shown _ _,
      fun r hr hshow => (Dev.reg_shown _ r hshow).trans (s.dev.reg_wr_ne _ _ _ hr)⟩
  case armRefused =>
    intro c n s harmed hresult hirq
    have hn : n < 16 := by
      split at hresult
      · cases hresult
        decide
      · exact Dev.armCheck_lt hresult
    have hstatus := (Dev.channelStatus_shown _ c.val).trans (s.dev.channelStatus_dmvResult c n (s.dev.rd (.dmv c .ctl) 31 16))
    have htag : s.dev.rd (.dmv c .ctl) 31 16 < 65536 := s.dev.rd_lt _ _ _
    rw [Nat.mod_eq_of_lt hn, Nat.mod_eq_of_lt htag] at hstatus
    exact yields_of_eq (exec_onto (exec_dmvArm_onDev c s) (Dev.dmvArm_refused harmed hresult hirq))
      ⟨congrArg ChannelStatus.result hstatus, congrArg ChannelStatus.tag hstatus, congrArg ChannelStatus.state hstatus,
        Dev.chan_shown _ _, (congrArg ChannelStatus.armed hstatus).trans harmed⟩
  case disarm =>
    intro c s
    have hstatus := (Dev.channelStatus_shown _ c.val).trans (s.dev.channelStatus_dmvDisarm c)
    exact yields_onDev (exec_dmvDisarm_onDev c s) ⟨congrArg ChannelStatus.armed hstatus, congrArg ChannelStatus.state hstatus,
      s.dev.onlyRegs_setReg_shown _ _, fun r hr hshow => (Dev.reg_shown _ r hshow).trans (s.dev.reg_dmvDisarm_ne hr)⟩
  case abortActive =>
    intro c x s hstate hrun
    have hstatus := (Dev.channelStatus_shown _ c.val).trans (Dev.channelStatus_dmvAbort_active hstate hrun)
    refine yields_onDev (exec_dmvAbort_onDev c s) ⟨congrArg ChannelStatus.state hstatus, congrArg ChannelStatus.armed hstatus, ?_⟩
    rw [Dev.chan_shown, Dev.shown_pool, Dev.shown_dir, Dev.shown_sw]
    have hreg : ∀ r : Reg, r ≠ .dmv c .status → (s.dev.dmvAbort c).reg r = s.dev.reg r := fun r hr => by
      rw [Dev.dmvAbort_active hstate hrun]
      split
      · rw [Dev.setDmvState, Dev.reg_wr_ne _ _ _ _ hr, Dev.reg_setChan, Dev.reg_dmvDisarm_ne _ hr]
      · rw [Dev.reg_setChan, Dev.reg_dmvDisarm_ne _ hr]
    refine ⟨?_, ?_, ?_, ?_, fun r hr hshow => (Dev.reg_shown _ r hshow).trans (hreg r hr)⟩
    · rw [Dev.dmvAbort_active hstate hrun]
      split <;> exact Dev.chan_setChan _ _ _
    all_goals
      rw [Dev.dmvAbort_active hstate hrun]
      split <;> rfl
  case abortInactive =>
    intro c s hstate hrun
    have hstatus := (Dev.channelStatus_shown _ c.val).trans (s.dev.channelStatus_dmvDisarm c)
    exact yields_of_eq (exec_onto (exec_dmvAbort_onDev c s) (Dev.dmvAbort_inactive hstate hrun))
      ⟨congrArg ChannelStatus.state hstatus, congrArg ChannelStatus.armed hstatus, s.dev.onlyRegs_setReg_shown _ _⟩
  case abortHalted =>
    intro c s hstate hclosing
    have hhalted : (s.dev.dmvDisarm c).dmvState c = 3 := (s.dev.state_dmvDisarm c).trans hstate
    have hunarmed : (s.dev.dmvDisarm c).bitOf (.dmv c .status) 28 = false := congrArg ChannelStatus.armed (s.dev.channelStatus_dmvDisarm c)
    have hstatus := (Dev.channelStatus_shown _ c.val).trans (Dev.channelStatus_dmvAck_unarmed hhalted hunarmed hclosing)
    refine yields_of_eq (exec_onto (exec_dmvAbort_onDev c s) (Dev.dmvAbort_halted hstate)) ⟨congrArg ChannelStatus.state hstatus,
      (congrArg ChannelStatus.armed hstatus).trans hunarmed, (Dev.dmvBit_shown _ _ _ _).trans (Dev.err_dmvAck hhalted).1, ?_⟩
    rw [Dev.chan_shown, Dev.dmvAck_unarmed hhalted hunarmed hclosing]
    exact Dev.chan_dropChan _ _
  case ackUnarmed =>
    intro c s hstate harmed hclosing
    have hstatus := (Dev.channelStatus_shown _ c.val).trans (Dev.channelStatus_dmvAck_unarmed hstate harmed hclosing)
    refine yields_onDev (exec_dmvAck_onDev c s) ⟨congrArg ChannelStatus.state hstatus,
      (Dev.dmvBit_shown _ _ _ _).trans (Dev.err_dmvAck hstate).1, ?_⟩
    rw [Dev.chan_shown, Dev.shown_pool, Dev.dmvAck_unarmed hstate harmed hclosing]
    exact ⟨Dev.chan_dropChan _ _, rfl⟩
  case ackArmed =>
    intro c s hstate harmed hclosing hsafe
    have hstatus := (Dev.channelStatus_shown _ c.val).trans (Dev.channelStatus_dmvAck_armed hstate harmed hclosing hsafe)
    refine yields_onDev (exec_dmvAck_onDev c s) ⟨congrArg ChannelStatus.state hstatus,
      (Dev.dmvBit_shown _ _ _ _).trans (Dev.err_dmvAck hstate).1, congrArg ChannelStatus.armed hstatus,
      (Dev.dmvReg_shown _ _ _).trans (Dev.active_dmvAck hstate harmed hsafe).1, ?_⟩
    rw [Dev.shown_pool, Dev.dmvAck_halted hstate, Dev.dmvRest_pool]
    rfl
  case ackOther =>
    intro c s hstate
    exact exec_onto (exec_dmvAck_onDev c s) (Dev.dmvAck_other hstate)
  case retired =>
    intro c s
    exact exec_onto (exec_dmvChannelRetired_onDev c s) rfl
  case closed =>
    intro c sl x s hlocal hslice hrun hheld hnone hirq
    obtain ⟨off, write, hclosed⟩ := Dev.channelLost_closed hlocal hslice hrun hheld hnone hirq
    have hstatus := (Dev.channelStatus_shown _ c.val).trans ((s.dev.openNat.2.transferLost c off write).channelStatus_setDmvState c 4)
    rw [Dev.channelStatus_transferLost] at hstatus
    refine yields_of_eq (exec_onto (exec_dmvChannelRetired_onDev c s) hclosed) ⟨congrArg ChannelStatus.state hstatus,
      congrArg ChannelStatus.result hstatus, ?_, (Dev.chan_shown _ _).trans (Dev.chan_dropChan _ _)⟩
    rw [Dev.dmvRd_shown, Dev.setDmvState, Dev.rd_wr_ne _ _ _ _ _ _ (by simp)]
    exact Dev.cause_transferLost _ _ _ _

end Sys2Proof.Machine
end

section
/-! PROOFS. Bursts, the ends of a transfer and failing lines (R181 to R189), and the byte swap (Table DM-16). -/

namespace Sys2Proof.Machine

/-! ### Commands that have made their accesses -/

/-- A command that has made all its accesses leaves the services, and the registers that counts and states do not show, as its last step
does. -/
theorem yields_accessed {c : Instr} {s : State} {x : Dev} {P : Dev → Prop} (h : accesses c s x) (hmade : x.made)
    (hP : ∀ t : Dev, t.svc = x.svc → (∀ r : Reg, r.steady = true → r.show = false → t.reg r = x.reg r) → P t) : yields c s P := by
  refine yields_of_eq (h.1 hmade.1) (hP _ ?_ fun r hsteady hshow => ?_)
  · rw [Dev.shown_svc, Dev.accessed_made hmade, Dev.inTurn_svc, Dev.dropUsed_svc]
  · rw [Dev.reg_shown _ _ hshow, Dev.accessed_made hmade]
    exact Dev.steady_dropUsed x hsteady

theorem Dev.sameTurn_setChan (d : Dev) (c : Nat) (x : ChannelRun) : d.SameTurn (d.setChan c x) := ⟨rfl, rfl⟩
theorem Dev.sameTurn_dropChan (d : Dev) (c : Nat) : d.SameTurn (d.dropChan c) := ⟨rfl, rfl⟩
theorem Dev.sameTurn_setReg (d : Dev) (r : Reg) (v : Word) : d.SameTurn (d.setReg r v) := ⟨rfl, rfl⟩
theorem Dev.sameTurn_transferEnded (d : Dev) (c result off : Nat) : d.SameTurn (d.transferEnded c result off) := ⟨rfl, rfl⟩

/-! ### Bursts (R181, R189) -/

/-- A burst that has been copied: it is counted, the offset moves on, and RESIDUE follows. -/
def Dev.burstCopied (d : Dev) (c : Nat) (x : ChannelRun) (len : Nat) : Dev :=
  ((d.count (c / 4) (0x5004 + c % 4) 1).setChan c { x with offset := x.offset + len, held := [], stopped := x.aborting }).setResidue c
    (d.actLen c - (x.offset + len))

/-- A burst without HOLD whose lines are all copied. -/
theorem Dev.dmvBurst_copied {d d1 : Dev} {c : Nat} {x : ChannelRun}
    (hlines : d.dmvLines c x ((List.range (d.burstLen c x.offset / 64)).map fun i => x.offset + 64 * i) = (none, d1))
    (hhold : d1.bitOf (.dmv c .actCtl) 7 = false) (hheld : x.held = []) :
    d.dmvBurst c x = d1.burstCopied c x (d.burstLen c x.offset) := by
  have hcounted : (d1.count (c / 4) (0x5004 + c % 4) 1).bitOf (.dmv c .actCtl) 7 = false :=
    (Dev.bitOf_count _ _ _ _ _ _ rfl).trans hhold
  have hlen : (d1.count (c / 4) (0x5004 + c % 4) 1).actLen c = d1.actLen c := congrArg BitVec.toNat (Dev.reg_count _ _ _ _ _ rfl)
  unfold Dev.dmvBurst Dev.burstCopied
  dsimp only
  rw [hlines]
  dsimp only
  rw [show ∀ e : Dev, e.releaseHeld c x.held = e from fun e => by rw [hheld]; rfl, hcounted, ← hlen]
  rfl

theorem Dev.sameTurn_burstCopied (d : Dev) (c : Nat) (x : ChannelRun) (len : Nat) : d.SameTurn (d.burstCopied c x len) :=
  (d.sameTurn_count _ _ _).trans ((Dev.sameTurn_setChan _ _ _).trans (Dev.sameTurn_setReg _ _ _))

/-! ### The ends of a transfer (R182, R184, R185) -/

/-- Where nothing is left, RESIDUE is 0. -/
theorem Dev.transferEnded_done {d : Dev} {c off : Nat} (h : d.actLen c ≤ off) (result : Nat) :
    d.transferEnded c result off = (d.setResidue c 0).dmvResult c result (d.actTag c) := by
  rw [Dev.transferEnded, Nat.sub_eq_zero_of_le h]

theorem Dev.armed_transferEnded (d : Dev) (c result off : Nat) :
    (d.transferEnded c result off).bitOf (.dmv c .status) 28 = d.bitOf (.dmv c .status) 28 :=
  congrArg ChannelStatus.armed (d.channelStatus_transferEnded c result off)

/-- A transfer that ends without an armed shadow rests. -/
theorem Dev.dmvRest_ended {d : Dev} {c : Nat} (result off : Nat) (harmed : d.bitOf (.dmv c .status) 28 = false) (hclosing : d.closing c = false) :
    (d.transferEnded c result off).dmvRest c = ((d.transferEnded c result off).dropChan c).setDmvState c 0 := by
  rw [Dev.dmvRest_unarmed ((d.armed_transferEnded c result off).trans harmed),
    show (d.transferEnded c result off).closing c = false from hclosing]
  rfl

/-- A transfer that ends with an armed shadow promotes that. -/
theorem Dev.dmvRest_endedArmed {d : Dev} {c : Nat} (result off : Nat) (harmed : d.bitOf (.dmv c .status) 28 = true) (hsafe : d.safe = false) :
    (d.transferEnded c result off).dmvRest c = ((d.transferEnded c result off).dropChan c).dmvPromote c := by
  have hstill : (d.transferEnded c result off).safe = false :=
    (Dev.bitOf_eq_of_reg (d.reg_transferEnded_ne result off (by simp) (by simp)) 31).trans hsafe
  exact Dev.dmvRest_armed ((d.armed_transferEnded c result off).trans harmed) hstill

/-- The state and RESIDUE that a channel ends in, written after its transfer has ended. -/
theorem Dev.ended_shows (d : Dev) (c result off n : Nat) :
    (((d.transferEnded c result off).dropChan c).setDmvState c n).channelStatus c = ⟨n % 8, d.bitOf (.dmv c .status) 28, result % 16, d.actTag c⟩ ∧
      (((d.transferEnded c result off).dropChan c).setDmvState c n).reg (.dmv c .residue) =
        BitVec.ofNat 64 (d.actLen c - off) &&& (Reg.dmv c .residue).mask ∧
      (((d.transferEnded c result off).dropChan c).setDmvState c n).chan c = none := by
  refine ⟨?_, ?_, ?_⟩
  · rw [Dev.channelStatus_setDmvState, Dev.channelStatus_dropChan, Dev.channelStatus_transferEnded]
    simp only [Dev.channelStatus]
  · rw [Dev.setDmvState, Dev.reg_wr_ne _ _ _ _ (by simp), Dev.reg_dropChan, Dev.residue_transferEnded]
  · rw [Dev.chan, Dev.setDmvState, Dev.wr_svc]
    exact (d.transferEnded c result off).chan_dropChan c

/-- A halted transfer that holds no granule. -/
theorem Dev.dmvHalted_open {d : Dev} {c off : Nat} {x : ChannelRun} (hclosing : d.closing c = false)
    (hirq : d.bitOf (.dmv c .cfg) 31 = false) (hheld : x.held = []) :
    d.dmvHalted c x off = ((d.transferEnded c 5 (d.burstOf c off)).dropChan c).setDmvState c 3 := by
  let y := d.transferEnded c 5 (d.burstOf c off)
  have hoff : y.dmvIrq c = y := Dev.dmvIrq_off ((Dev.bitOf_eq_of_reg (d.reg_transferEnded_ne _ _ (by simp) (by simp)) _).trans hirq)
  have hopen : y.closing c = false := (Dev.closing_congr rfl c).trans hclosing
  change (if ((y.releaseHeld c x.held).dmvIrq c).closing c = true then ((y.releaseHeld c x.held).dmvIrq c).dmvRest c
    else (((y.releaseHeld c x.held).dmvIrq c).dropChan c).setDmvState c 3) = (y.dropChan c).setDmvState c 3
  rw [show ∀ e : Dev, e.releaseHeld c x.held = e from fun e => by rw [hheld]; rfl, hoff, hopen, if_neg (by decide)]

/-- An aborted transfer that holds no granule and has no shadow. -/
theorem Dev.dmvAborted_unarmed {d : Dev} {c : Nat} {x : ChannelRun} (harmed : d.bitOf (.dmv c .status) 28 = false)
    (hclosing : d.closing c = false) (hirq : d.bitOf (.dmv c .cfg) 31 = false) (hheld : x.held = []) :
    d.dmvAborted c x = ((((d.transferEnded c 2 x.offset).count (c / 4) 0x5009 1).dropChan c).setDmvState c 0) := by
  let y := (d.transferEnded c 2 x.offset).count (c / 4) 0x5009 1
  have hoff : y.dmvIrq c = y := Dev.dmvIrq_off ((Dev.bitOf_count _ _ _ _ _ _ rfl).trans
    ((Dev.bitOf_eq_of_reg (d.reg_transferEnded_ne _ _ (by simp) (by simp)) _).trans hirq))
  have hunarmed : y.bitOf (.dmv c .status) 28 = false :=
    (Dev.bitOf_count _ _ _ _ _ _ rfl).trans ((d.armed_transferEnded c 2 x.offset).trans harmed)
  have hopen : y.closing c = false := (Dev.closing_congr (Dev.count_svc _ _ _ _) c).trans hclosing
  change ((((d.transferEnded c 2 x.offset).releaseHeld c x.held).count (c / 4) 0x5009 1).dmvIrq c).dmvRest c = (y.dropChan c).setDmvState c 0
  rw [show ∀ e : Dev, e.releaseHeld c x.held = e from fun e => by rw [hheld]; rfl, hoff, Dev.dmvRest_unarmed hunarmed, hopen]
  rfl

/-! ### The byte swap (Table DM-16) -/

/-- The byte swap is its own inverse and stays in its line. -/
theorem swapByte_involutive (mode : Nat) {i : Nat} (h : i < 64) : swapByte mode (swapByte mode i) = i ∧ swapByte mode i < 64 := by
  unfold swapByte
  refine ⟨by rw [Nat.xor_assoc, Nat.xor_self, Nat.xor_zero], Nat.xor_lt_two_pow (n := 6) h ?_⟩
  split <;> decide

end Sys2Proof.Machine
end

section
/-! PROOFS. The registers of the dirty-page log (R194 to R196), and the commands of transfers and of the log. Settles O33. -/

namespace Sys2Proof.Machine

/-! ### The fields of SFN.DIRTY_CTL and SFN.DIRTY_STATUS -/

/-- A bit of a word that a 32-bit write carries. -/
theorem getBits_setWidth_bit (v : BitVec 32) (i : Nat) : getBits (v.setWidth 64) i i = if v.getLsbD i then 1 else 0 := by
  rw [getBits, BitVec.toNat_setWidth, Nat.mod_eq_of_lt (Nat.lt_trans v.isLt (by decide)), ← BitVec.testBit_toNat,
    Nat.testBit_eq_decide_div_mod_eq, Nat.add_sub_cancel_left, Nat.pow_one]
  split <;> simp_all

theorem dirtyCtl_holds (p i hi lo : Nat) (h : (hi = 31 ∧ lo = 31) ∨ (hi = 29 ∧ lo = 29) ∨ (hi = 26 ∧ lo = 0)) :
    (Reg.dirtyCtl p i).holds hi lo = true := by
  rcases h with ⟨rfl, rfl⟩ | ⟨rfl, rfl⟩ | ⟨rfl, rfl⟩ <;> simp [Reg.holds, Reg.mask, Reg.layout, fieldMask]

theorem dirtyStatus_holds (p i hi lo : Nat)
    (h : (hi = 31 ∧ lo = 31) ∨ (hi = 30 ∧ lo = 30) ∨ (hi = 29 ∧ lo = 29) ∨ (hi = 28 ∧ lo = 28) ∨ (hi = 15 ∧ lo = 0)) :
    (Reg.dirtyStatus p i).holds hi lo = true := by
  rcases h with ⟨rfl, rfl⟩ | ⟨rfl, rfl⟩ | ⟨rfl, rfl⟩ | ⟨rfl, rfl⟩ | ⟨rfl, rfl⟩ <;> simp [Reg.holds, Reg.mask, Reg.layout, fieldMask]

/-! ### A write of SFN.DIRTY_CTL (R194) -/

/-- IRQ_EN and EN as a write leaves them. -/
def Dev.dirtyModes (d : Dev) (s : SliceRec) (irq en : Nat) : Dev :=
  (d.wr (.dirtyCtl s.port s.index) 29 29 irq).wr (.dirtyCtl s.port s.index) 31 31 en

theorem Dev.reg_dirtyModes_ne (d : Dev) (s : SliceRec) (irq en : Nat) {r : Reg} (h : r ≠ .dirtyCtl s.port s.index) :
    (d.dirtyModes s irq en).reg r = d.reg r := by
  rw [Dev.dirtyModes, Dev.reg_wr_ne _ _ _ _ h, Dev.reg_wr_ne _ _ _ _ h]

theorem Dev.fields_dirtyModes (d : Dev) (s : SliceRec) (irq en : Nat) :
    (d.dirtyModes s irq en).bitOf (.dirtyCtl s.port s.index) 31 = decide (en % 2 = 1) ∧
      (d.dirtyModes s irq en).bitOf (.dirtyCtl s.port s.index) 29 = decide (irq % 2 = 1) ∧
      (d.dirtyModes s irq en).rd (.dirtyCtl s.port s.index) 26 0 = d.rd (.dirtyCtl s.port s.index) 26 0 := by
  have hen := dirtyCtl_holds s.port s.index 31 31 (by simp)
  have hirq := dirtyCtl_holds s.port s.index 29 29 (by simp)
  have hpages := dirtyCtl_holds s.port s.index 26 0 (by simp)
  unfold Dev.dirtyModes
  refine ⟨Dev.bitOf_wr_same _ _ hen, ?_, ?_⟩
  · rw [Dev.bitOf_wr_field _ _ hirq (by decide), Dev.bitOf_wr_same _ _ hirq]
  · rw [Dev.rd_wr_field _ _ hpages (by decide), Dev.rd_wr_field _ _ hpages (by decide)]

/-- The conditions of R194 are no matter of SFN.DIRTY_CTL. -/
theorem Dev.dirtyOk_wr_ctl (d : Dev) (s : SliceRec) (hi lo n pages : Nat) :
    (d.wr (.dirtyCtl s.port s.index) hi lo n).dirtyOk s pages = d.dirtyOk s pages := by
  have hbuf : ∀ b, (d.wr (.dirtyCtl s.port s.index) hi lo n).rd (.dirtyBuf s.port s.index b) 43 6 = d.rd (.dirtyBuf s.port s.index b) 43 6 :=
    fun b => d.rd_wr_ne _ _ _ _ _ (by simp)
  have hwin : (d.wr (.dirtyCtl s.port s.index) hi lo n).rd (.dirtyWin s.port s.index) 43 12 = d.rd (.dirtyWin s.port s.index) 43 12 :=
    d.rd_wr_ne _ _ _ _ _ (by simp)
  unfold Dev.dirtyOk
  simp only [hbuf, hwin, Dev.wr_pool]

/-- A write where EN is 0: PAGES is written, and EN where the conditions hold. -/
theorem Dev.dirtyCtlWrite_off {d : Dev} {s : SliceRec} (v : Word) (hwas : d.bitOf (.dirtyCtl s.port s.index) 31 = false) :
    d.dirtyCtlWrite s v = (d.wr (.dirtyCtl s.port s.index) 26 0 (getBits v 26 0)).dirtyModes s (getBits v 29 29)
      (if getBits v 31 31 = 1 ∧ d.dirtyOk s (getBits v 26 0) = true then 1 else 0) := by
  have hpages : (d.wr (.dirtyCtl s.port s.index) 26 0 (getBits v 26 0)).rd (.dirtyCtl s.port s.index) 26 0 = getBits v 26 0 :=
    (d.rd_wr_same _ (dirtyCtl_holds _ _ 26 0 (by simp))).trans (Nat.mod_eq_of_lt (getBits_lt v 26 0))
  unfold Dev.dirtyCtlWrite Dev.dirtyModes
  simp only [hwas, Bool.false_eq_true, if_false, false_and, and_false, false_or, hpages, Dev.dirtyOk_wr_ctl]

/-- A write where EN is 1 leaves PAGES. -/
theorem Dev.dirtyCtlWrite_on {d : Dev} {s : SliceRec} {v : Word} (hwas : d.bitOf (.dirtyCtl s.port s.index) 31 = true)
    (hswap : getBits v 30 30 ≠ 1) :
    d.dirtyCtlWrite s v = d.dirtyModes s (getBits v 29 29) (if getBits v 31 31 = 1 then 1 else 0) := by
  unfold Dev.dirtyCtlWrite Dev.dirtyModes
  simp only [hwas, if_true, true_or, and_true, hswap, false_and, if_false]

/-- The active buffer flips, and the swap is pending. -/
def Dev.dirtyFlip (d : Dev) (s : SliceRec) : Dev :=
  ((d.wr (.dirtyStatus s.port s.index) 31 31 (1 - d.rd (.dirtyStatus s.port s.index) 31 31)).wr (.dirtyStatus s.port s.index) 30 30 1).setDirtyRun
    s.id ⟨false, false, (d.dirtyRun s.id).outside, (d.dirtyRun s.id).lost, (d.dirtyRun s.id).marks⟩

theorem Dev.dirtyCtlWrite_swap {d : Dev} {s : SliceRec} {v : Word} (hwas : d.bitOf (.dirtyCtl s.port s.index) 31 = true)
    (hswap : getBits v 30 30 = 1) (hpending : d.bitOf (.dirtyStatus s.port s.index) 30 = false) :
    d.dirtyCtlWrite s v = (d.dirtyModes s (getBits v 29 29) (if getBits v 31 31 = 1 then 1 else 0)).dirtyFlip s := by
  have hstill : ∀ irq en : Nat, ((d.wr (.dirtyCtl s.port s.index) 29 29 irq).wr (.dirtyCtl s.port s.index) 31 31 en).bitOf
      (.dirtyStatus s.port s.index) 30 = false := fun irq en =>
    (Dev.bitOf_eq_of_reg (d.reg_dirtyModes_ne s irq en (by simp)) 30).trans hpending
  unfold Dev.dirtyCtlWrite Dev.dirtyModes
  simp only [hwas, if_true, true_or, and_true, hswap, hstill]
  rfl

theorem Dev.reg_setDirtyRun (d : Dev) (id : Nat) (x : DirtyRun) (r : Reg) : (d.setDirtyRun id x).reg r = d.reg r := rfl

theorem Dev.dirtyFlip_shows (d : Dev) (s : SliceRec) :
    (d.dirtyFlip s).bitOf (.dirtyStatus s.port s.index) 30 = true ∧
      (d.dirtyFlip s).rd (.dirtyStatus s.port s.index) 31 31 = 1 - d.rd (.dirtyStatus s.port s.index) 31 31 := by
  have hactive := dirtyStatus_holds s.port s.index 31 31 (by simp)
  unfold Dev.dirtyFlip
  constructor
  · rw [Dev.bitOf_eq_of_reg (Dev.reg_setDirtyRun _ _ _ _), Dev.bitOf_wr_same _ _ (dirtyStatus_holds _ _ 30 30 (by simp))]
    rfl
  · rw [Dev.rd_eq_of_reg (Dev.reg_setDirtyRun _ _ _ _), Dev.rd_wr_field _ _ hactive (by decide), Dev.rd_wr_same _ _ hactive]
    omega

theorem Dev.dirtyRun_setDirtyRun (d : Dev) (id : Nat) (x : DirtyRun) : (d.setDirtyRun id x).dirtyRun id = x := tgetD_tset_same _ _ _ _

/-! ### The end of a swap (R195, R196) -/

/-- A swap that is not pending, or has bit updates of the old buffer due, does not end. -/
theorem Dev.dirtySwapDone_waits {d : Dev} {s : SliceRec} (h : d.bitOf (.dirtyStatus s.port s.index) 30 = false ∨
    ∃ m ∈ (d.dirtyRun s.id).marks, m.buf ≠ d.rd (.dirtyStatus s.port s.index) 31 31) : d.dirtySwapDone s = d := by
  refine if_neg ?_
  rw [Bool.and_eq_true, List.all_eq_true]
  rintro ⟨hpending, hall⟩
  rcases h with hnone | ⟨m, hm, hold⟩
  · rw [hnone] at hpending
    cases hpending
  · exact hold (by simpa using hall m hm)

/-- SFN.DIRTY_STATUS of a swap that has ended. -/
def Dev.dirtySwapped (d : Dev) (s : SliceRec) : Dev :=
  (((d.wr (.dirtyStatus s.port s.index) 30 30 0).wr (.dirtyStatus s.port s.index) 29 29 (if (d.dirtyRun s.id).oldOut then 1 else 0)).wr
    (.dirtyStatus s.port s.index) 28 28 (if (d.dirtyRun s.id).oldLost then 1 else 0)).bumpWrap (.dirtyStatus s.port s.index) 15 0 1

theorem Dev.reg_dirtySwapped_ne (d : Dev) (s : SliceRec) {r : Reg} (h : r ≠ .dirtyStatus s.port s.index) :
    (d.dirtySwapped s).reg r = d.reg r := by
  rw [Dev.dirtySwapped, Dev.bumpWrap, Dev.reg_wr_ne _ _ _ _ h, Dev.reg_wr_ne _ _ _ _ h, Dev.reg_wr_ne _ _ _ _ h, Dev.reg_wr_ne _ _ _ _ h]

/-- A pending swap without bit updates due ends; without IRQ_EN it sends nothing. -/
theorem Dev.dirtySwapDone_ends {d : Dev} {s : SliceRec} (hpending : d.bitOf (.dirtyStatus s.port s.index) 30 = true)
    (hmarks : (d.dirtyRun s.id).marks = []) (hirq : d.bitOf (.dirtyCtl s.port s.index) 29 = false) :
    d.dirtySwapDone s = d.dirtySwapped s := by
  have hquiet : (d.dirtySwapped s).bitOf (.dirtyCtl s.port s.index) 29 = false :=
    (Dev.bitOf_eq_of_reg (d.reg_dirtySwapped_ne s (by simp)) 29).trans hirq
  unfold Dev.dirtySwapped at hquiet ⊢
  unfold Dev.dirtySwapDone
  simp only [hpending, hmarks, List.all_nil, Bool.and_self, if_true, hquiet, Bool.false_and, Bool.false_eq_true, if_false]

theorem Dev.dirtySwapped_shows (d : Dev) (s : SliceRec) :
    (d.dirtySwapped s).bitOf (.dirtyStatus s.port s.index) 30 = false ∧
      (d.dirtySwapped s).bitOf (.dirtyStatus s.port s.index) 29 = (d.dirtyRun s.id).oldOut ∧
      (d.dirtySwapped s).bitOf (.dirtyStatus s.port s.index) 28 = (d.dirtyRun s.id).oldLost ∧
      (d.dirtySwapped s).rd (.dirtyStatus s.port s.index) 15 0 = (d.rd (.dirtyStatus s.port s.index) 15 0 + 1) % 2 ^ 16 := by
  have hpending := dirtyStatus_holds s.port s.index 30 30 (by simp)
  have hout := dirtyStatus_holds s.port s.index 29 29 (by simp)
  have hlost := dirtyStatus_holds s.port s.index 28 28 (by simp)
  have hcount := dirtyStatus_holds s.port s.index 15 0 (by simp)
  unfold Dev.dirtySwapped Dev.bumpWrap
  refine ⟨?_, ?_, ?_, ?_⟩
  · rw [Dev.bitOf_wr_field _ _ hpending (by decide), Dev.bitOf_wr_field _ _ hpending (by decide), Dev.bitOf_wr_field _ _ hpending (by decide),
      Dev.bitOf_wr_same _ _ hpending]
    rfl
  · rw [Dev.bitOf_wr_field _ _ hout (by decide), Dev.bitOf_wr_field _ _ hout (by decide), Dev.bitOf_wr_same _ _ hout]
    cases (d.dirtyRun s.id).oldOut <;> rfl
  · rw [Dev.bitOf_wr_field _ _ hlost (by decide), Dev.bitOf_wr_same _ _ hlost]
    cases (d.dirtyRun s.id).oldLost <;> rfl
  · rw [Dev.rd_wr_same _ _ hcount, Dev.rd_wr_field _ _ hcount (by decide), Dev.rd_wr_field _ _ hcount (by decide),
      Dev.rd_wr_field _ _ hcount (by decide)]

/-- At rest no slice owes a bit update. -/
theorem Dev.marks_atRest {d : Dev} (h : d.atRest) (id : Nat) : (d.dirtyRun id).marks = [] := by
  obtain ⟨-, hmarks⟩ := h
  have hall : ∀ m : Table Nat DirtyRun, (∀ x ∈ m, x.2.marks = []) → (tgetD m id ⟨false, false, false, false, []⟩).marks = [] := fun m => by
    induction m with
    | nil => exact fun _ => rfl
    | cons e rest ih =>
      intro hm
      rw [tgetD, tget]
      split
      · exact hm e List.mem_cons_self
      · exact ih fun x hx => hm x (List.mem_cons_of_mem e hx)
  exact hall d.svc.dirty hmarks

/-! ### Commands of the log -/

theorem exec_dirtyEnable_on {p : Fin 64} {index : Fin 256} {v : BitVec 32} {sl : SliceRec} {s : State} (hslice : s.dev.sliceAt p index = some sl)
    (hen : v.getLsbD 31 = true) : exec (.dirtyEnable p index v) s = .next (s.onto (s.dev.dirtyCtlWrite sl (v.setWidth 64))) := by
  refine exec_onto (exec_dirtyEnable p index v s) ?_
  rw [hslice]
  exact if_pos hen

theorem exec_dirtyDisable_on {p : Fin 64} {index : Fin 256} {v : BitVec 32} {sl : SliceRec} {s : State}
    (hslice : s.dev.sliceAt p index = some sl) (hen : v.getLsbD 31 = false) :
    exec (.dirtyDisable p index v) s = .next (s.onto (s.dev.dirtyCtlWrite sl (v.setWidth 64))) := by
  refine exec_onto (exec_dirtyDisable p index v s) ?_
  rw [hslice]
  exact if_neg (by rw [hen]; decide)

theorem exec_dirtySwap_on {p : Fin 64} {index : Fin 256} {v : BitVec 32} {sl : SliceRec} {s : State} (hslice : s.dev.sliceAt p index = some sl)
    (hswap : v.getLsbD 30 = true) : exec (.dirtySwap p index v) s = .next (s.onto (s.dev.dirtyCtlWrite sl (v.setWidth 64))) := by
  refine exec_onto (exec_dirtySwap p index v s) ?_
  rw [hslice]
  exact if_pos hswap

theorem exec_dirtySwapComplete_on {slice : Fin 4096} {sl : SliceRec} {s : State} (hslice : s.dev.sliceRec slice = some sl) :
    exec (.dirtySwapComplete slice) s = .next (s.onto (s.dev.drainAll.dirtySwapDone sl)) := by
  refine exec_onto (exec_dirtySwapComplete slice s) ?_
  rw [hslice]

/-- Writes of SFN.DIRTY_CTL and SFN.DIRTY_STATUS change only registers. -/
theorem Dev.onlyRegs_dirtyModes (d : Dev) (s : SliceRec) (irq en : Nat) : d.onlyRegs (d.dirtyModes s irq en) := by
  simp [Dev.onlyRegs, Dev.dirtyModes]

theorem Dev.onlyRegs_dirtySwapped (d : Dev) (s : SliceRec) : d.onlyRegs (d.dirtySwapped s) := by
  simp [Dev.onlyRegs, Dev.dirtySwapped, Dev.bumpWrap]

/-- A write with EN 1 to a disabled log. -/
theorem Dev.dirtyCtlWrite_enabling {d : Dev} {s : SliceRec} {v : BitVec 32} (hwas : d.bitOf (.dirtyCtl s.port s.index) 31 = false)
    (hen : v.getLsbD 31 = true) : d.dirtyCtlWrite s (v.setWidth 64) =
      (d.wr (.dirtyCtl s.port s.index) 26 0 (getBits (v.setWidth 64) 26 0)).dirtyModes s (if v.getLsbD 29 then 1 else 0)
        (if d.dirtyOk s (getBits (v.setWidth 64) 26 0) then 1 else 0) := by
  rw [Dev.dirtyCtlWrite_off _ hwas, getBits_setWidth_bit, getBits_setWidth_bit, hen]
  simp only [if_true, true_and]

/-- A write with EN 0 and SWAP 0 disables the log; PAGES of one that was enabled stays. -/
theorem Dev.dirtyCtlWrite_disabling {d : Dev} {s : SliceRec} {v : BitVec 32} (hen : v.getLsbD 31 = false) (hswap : v.getLsbD 30 = false) :
    d.dirtyCtlWrite s (v.setWidth 64) =
      (if d.bitOf (.dirtyCtl s.port s.index) 31 then d else d.wr (.dirtyCtl s.port s.index) 26 0 (getBits (v.setWidth 64) 26 0)).dirtyModes s
        (if v.getLsbD 29 then 1 else 0) 0 := by
  cases hwas : d.bitOf (.dirtyCtl s.port s.index) 31 with
  | false =>
    rw [Dev.dirtyCtlWrite_off _ hwas, getBits_setWidth_bit, getBits_setWidth_bit, hen]
    simp
  | true =>
    rw [Dev.dirtyCtlWrite_on hwas (by rw [getBits_setWidth_bit, hswap]; decide), getBits_setWidth_bit, getBits_setWidth_bit, hen]
    simp

/-! ### Commands of transfers -/

theorem accesses_dmvBurstDone {c : Fin 64} {x : ChannelRun} {s : State} (hturn : s.dev.noTurn) (hrun : s.dev.chan c = some x)
    (hsafe : s.dev.safe = false) (hready : s.dev.burstReady c x = true) : accesses (.dmvBurstDone c) s (s.dev.dmvBurst c x) := by
  refine accesses_of_eq (exec_dmvBurstDone c s) hturn ?_
  rw [hrun]
  exact if_pos (by rw [hsafe, hready]; rfl)

/-- DMV_TRANSFER_COMPLETE of a transfer that has moved everything, without an interrupt on completion. -/
theorem exec_dmvTransferComplete_done {c : Fin 64} {x : ChannelRun} {s : State} (hrun : s.dev.chan c = some x) (hgood : x.failed = none)
    (hall : s.dev.actLen c ≤ x.offset) (hgoing : x.aborting = false) (hirq : s.dev.bitOf (.dmv c .actCtl) 6 = false) :
    exec (.dmvTransferComplete c) s = .next (s.onto ((s.dev.transferEnded c 1 x.offset).dmvRest c)) := by
  have hquiet : (s.dev.transferEnded c 1 x.offset).bitOf (.dmv c .actCtl) 6 = false :=
    (Dev.bitOf_eq_of_reg (s.dev.reg_transferEnded_ne _ _ (by simp) (by simp)) _).trans hirq
  rw [Dev.transferEnded_done hall] at hquiet ⊢
  refine exec_onto (exec_dmvTransferComplete c s) ?_
  rw [hrun]
  dsimp only
  rw [if_neg (by rw [hgood, hgoing]; simp [hall]), hquiet]
  rfl

/-- DMV_ABORT_DRAINED of a transfer that has stopped. -/
theorem exec_dmvAbortDrained_stopped {c : Fin 64} {x : ChannelRun} {s : State} {y : Dev} (hturn : s.dev.noTurn) (haborting : x.aborting = true)
    (hrun : s.dev.chan c = some x) (hready : s.dev.burstReady c x = false) (hgood : x.failed = none) (hstopped : x.stopped = true)
    (hy : s.dev.dmvAborted c x = y) (hrest : y.atRest) : exec (.dmvAbortDrained c) s = .next (s.onto y) := by
  refine exec_rests (exec_dmvAbortDrained c s) hturn ?_ hrest
  rw [hrun]
  dsimp only
  rw [haborting, hready]
  simp only [Bool.not_true, Bool.false_eq_true, if_false, hrun, hgood, hstopped, Option.isNone_none, Bool.true_or, Bool.and_self, if_true]
  exact hy

/-- DMV_LINE_FAILURE of a line of the current burst. -/
theorem exec_dmvLineFailure_issued {c : Fin 64} {offset : Nat} {write : Bool} {cause : Fin 4} {x : ChannelRun} {s : State}
    (hrun : s.dev.chan c = some x) (hgoing : x.stopped = false) (hline : offset % 64 = 0) (hlow : x.offset ≤ offset)
    (hhigh : offset < x.offset + s.dev.burstLen c x.offset) :
    exec (.dmvLineFailure c offset write cause) s = .next (s.onto (s.dev.dmvFails c x offset write cause)) := by
  refine exec_onto (exec_dmvLineFailure c offset write cause s) ?_
  rw [hrun]
  dsimp only
  rw [hgoing]
  exact if_neg (by simp; omega)

/-! ### The obligation -/

/-- Settles O33: a burst's and an end's effect are equations over the device, and DMV.STATUS, SFN.DIRTY_CTL and SFN.DIRTY_STATUS are read
field by field off the writes that make them. -/
theorem transfersMoveLinesAndDirtyPagesAreLogged : Obligations.TransfersMoveLinesAndDirtyPagesAreLogged := by
  unfold Obligations.TransfersMoveLinesAndDirtyPagesAreLogged
  refine ⟨?burst, ?copied, ?hold, ?complete, ?completeArmed, ?aborted, ?failsFirst, ?failsLater, ?halted, fun mode i _ hi => swapByte_involutive mode hi,
    ?enabled, ?notEnabled, ?disabled, ?swaps, ?swapped, ?swapDone, ?swapWaits⟩
  case burst =>
    intro c x s hrun hsafe hready hturn
    exact accesses_dmvBurstDone hturn hrun hsafe hready
  case copied =>
    intro c x d1 s hrest hrun hsafe hready hlines hmade hhold hheld
    have hburst := accesses_dmvBurstDone hrest.1 hrun hsafe hready
    rw [Dev.dmvBurst_copied hlines hhold hheld] at hburst
    refine yields_accessed hburst ((d1.sameTurn_burstCopied c x _).made hmade) fun t hsvc hreg => ⟨?_, ?_⟩
    · rw [Dev.chan, hsvc]
      exact Dev.chan_setChan _ _ _
    · rw [hreg _ rfl rfl, Dev.burstCopied, Dev.setResidue, Dev.reg_setReg_same]
  case hold =>
    intro c x ok d1 s hturn hrun hsafe hhold hheld hgood hgoing hleft first last gs hfold
    refine accesses_of_eq (exec_dmvHoldGranted c s) hturn ?_
    rw [hrun]
    dsimp only
    rw [hsafe, hhold, hheld, hgood, hgoing, if_neg (by simp; omega), hfold]
  case complete =>
    intro c x s hrun hgood hall hgoing harmed hclosing hirq
    have hexec := exec_dmvTransferComplete_done hrun hgood hall hgoing hirq
    rw [Dev.dmvRest_ended 1 x.offset harmed hclosing] at hexec
    obtain ⟨hended, hresidue, hnone⟩ := s.dev.ended_shows c 1 x.offset 0
    have hstatus := (Dev.channelStatus_shown _ c.val).trans hended
    refine yields_of_eq hexec ⟨congrArg ChannelStatus.state hstatus, congrArg ChannelStatus.result hstatus, congrArg ChannelStatus.tag hstatus, ?_⟩
    rw [Dev.dmvReg_shown, Dev.chan_shown, Dev.shown_pool]
    refine ⟨hresidue.trans ?_, hnone, rfl⟩
    rw [Nat.sub_eq_zero_of_le hall]
    exact BitVec.zero_and
  case completeArmed =>
    intro c x s hrun hgood hall hgoing harmed hclosing hirq hsafe
    have hexec := exec_dmvTransferComplete_done hrun hgood hall hgoing hirq
    rw [Dev.dmvRest_endedArmed 1 x.offset harmed hsafe] at hexec
    let y := (s.dev.transferEnded c 1 x.offset).dropChan c
    have hopen : y.closing c = false := (Dev.closing_congr rfl c).trans hclosing
    have hstatus := (Dev.channelStatus_shown _ c.val).trans (y.channelStatus_dmvPromote c)
    rw [hopen, Dev.channelStatus_dropChan, Dev.channelStatus_transferEnded] at hstatus
    obtain ⟨-, -, hlen, -⟩ := y.active_dmvPromote c
    refine yields_of_eq hexec ⟨congrArg ChannelStatus.state hstatus, congrArg ChannelStatus.result hstatus, ?_,
      congrArg ChannelStatus.armed hstatus⟩
    rw [Dev.dmvReg_shown, hlen, Dev.reg_dropChan, Dev.reg_transferEnded_ne _ _ _ (by simp) (by simp)]
  case aborted =>
    intro c x s hrest haborting hrun hready hgood hstopped hheld harmed hclosing hirq
    let y := (s.dev.transferEnded c 2 x.offset).count (c / 4) 0x5009 1
    have hsame : s.dev.SameTurn ((y.dropChan c).setDmvState c 0) := (s.dev.sameTurn_transferEnded c 2 x.offset).trans
      ((Dev.sameTurn_count _ _ _ _).trans ((Dev.sameTurn_dropChan _ _).trans (Dev.sameTurn_setReg _ _ _)))
    have hstatus := (Dev.channelStatus_shown _ c.val).trans ((y.dropChan c).channelStatus_setDmvState c 0)
    rw [Dev.channelStatus_dropChan, Dev.channelStatus_count, Dev.channelStatus_transferEnded] at hstatus
    refine yields_of_eq (exec_dmvAbortDrained_stopped hrest.1 haborting hrun hready hgood hstopped
      (Dev.dmvAborted_unarmed harmed hclosing hirq hheld) (hsame.atRest hrest)) ⟨congrArg ChannelStatus.state hstatus,
      congrArg ChannelStatus.result hstatus, ?_, (Dev.chan_shown _ _).trans (y.chan_dropChan c)⟩
    rw [Dev.dmvReg_shown, Dev.setDmvState, Dev.reg_wr_ne _ _ _ _ (by simp), Dev.reg_dropChan, Dev.reg_count _ _ _ _ _ rfl,
      Dev.residue_transferEnded]
  case failsFirst =>
    intro c offset write cause x s hrun hgood hgoing hline hlow hhigh
    have hexec := exec_dmvLineFailure_issued (write := write) (cause := cause) hrun hgoing hline hlow hhigh
    rw [Dev.dmvFails_first hgood] at hexec
    obtain ⟨hvalid, hwrite, hcause, htag⟩ := s.dev.errInfo_errLatched c offset write (cause := cause.val) (by omega)
    refine yields_of_eq hexec ?_
    rw [Dev.chan_shown, Dev.dmvBit_shown, Dev.dmvBit_shown, Dev.dmvRd_shown, Dev.dmvRd_shown, Dev.dmvReg_shown, Dev.dmvState_shown]
    exact ⟨Dev.chan_setChan _ _ _, hvalid, hwrite, hcause, htag, Dev.errAddr_errLatched _ _ _ _ _,
      congrArg ChannelStatus.state (Dev.channelStatus_errLatched _ _ _ _ _)⟩
  case failsLater =>
    intro c offset off write cause x s hrun hbad hgoing hline hlow hhigh
    have hexec := exec_dmvLineFailure_issued (write := write) (cause := cause) hrun hgoing hline hlow hhigh
    rw [Dev.dmvFails_later hbad] at hexec
    exact yields_of_eq hexec ⟨(Dev.chan_shown _ _).trans (Dev.chan_setChan _ _ _), fun r hshow => Dev.reg_shown _ r hshow⟩
  case halted =>
    intro c x off s hrun hbad hclosing hirq hheld
    have hexec : exec (.dmvHaltedDrained c) s =
        .next (s.onto (((s.dev.transferEnded c 5 (s.dev.burstOf c off)).dropChan c).setDmvState c 3)) := by
      refine exec_onto (exec_dmvHaltedDrained c s) ?_
      rw [hrun]
      dsimp only
      rw [hbad]
      exact Dev.dmvHalted_open hclosing hirq hheld
    obtain ⟨hended, hresidue, hnone⟩ := s.dev.ended_shows c 5 (s.dev.burstOf c off) 3
    have hstatus := (Dev.channelStatus_shown _ c.val).trans hended
    refine yields_of_eq hexec ⟨congrArg ChannelStatus.state hstatus, congrArg ChannelStatus.result hstatus, congrArg ChannelStatus.tag hstatus, ?_⟩
    rw [Dev.dmvReg_shown, Dev.chan_shown, Dev.shown_pool]
    exact ⟨hresidue, hnone, rfl⟩
  case enabled =>
    intro p index v sl s hslice hen _ hwas hok
    have hexec := exec_dirtyEnable_on hslice hen
    rw [Dev.dirtyCtlWrite_enabling hwas hen, hok] at hexec
    let y := s.dev.wr (.dirtyCtl sl.port sl.index) 26 0 (getBits (v.setWidth 64) 26 0)
    obtain ⟨hon, hirq, hpages⟩ := y.fields_dirtyModes sl (if v.getLsbD 29 then 1 else 0) 1
    refine yields_of_eq hexec ?_
    rw [Dev.bitOf_shown _ _ _ rfl, Dev.bitOf_shown _ _ _ rfl, Dev.rd_shown _ _ _ _ rfl]
    refine ⟨hon, hpages.trans ?_, hirq.trans ?_, Dev.onlyRegs_shown (y.onlyRegs_dirtyModes sl _ _), fun r hr hshow => ?_⟩
    · rw [Dev.rd_wr_same _ _ (dirtyCtl_holds _ _ 26 0 (by simp)), getBits, BitVec.toNat_setWidth]
      omega
    · cases v.getLsbD 29 <;> rfl
    · rw [Dev.reg_shown _ _ hshow]
      exact (y.reg_dirtyModes_ne sl _ _ hr).trans (s.dev.reg_wr_ne _ _ _ hr)
  case notEnabled =>
    intro p index v sl s hslice hen hwas hok
    have hexec := exec_dirtyEnable_on hslice hen
    rw [Dev.dirtyCtlWrite_enabling hwas hen, hok] at hexec
    exact yields_of_eq hexec ((Dev.bitOf_shown _ _ _ rfl).trans (Dev.fields_dirtyModes _ sl _ 0).1)
  case disabled =>
    intro p index v sl s hslice hen hswap
    have hexec := exec_dirtyDisable_on hslice hen
    rw [Dev.dirtyCtlWrite_disabling hen hswap] at hexec
    refine yields_of_eq hexec ?_
    rw [Dev.bitOf_shown _ _ _ rfl, Dev.rd_shown _ _ _ _ rfl]
    obtain ⟨hoff, -, hpages⟩ := Dev.fields_dirtyModes (if s.dev.bitOf (.dirtyCtl sl.port sl.index) 31 then s.dev
      else s.dev.wr (.dirtyCtl sl.port sl.index) 26 0 (getBits (v.setWidth 64) 26 0)) sl (if v.getLsbD 29 then 1 else 0) 0
    refine ⟨hoff, fun hwas => ?_, Dev.onlyRegs_shown ?_, fun r hr hshow => ?_⟩
    · rw [hpages, if_pos hwas]
    · split
      · exact s.dev.onlyRegs_dirtyModes sl _ _
      · exact Dev.onlyRegs_dirtyModes (s.dev.wr _ _ _ _) sl _ _
    · rw [Dev.reg_shown _ _ hshow, Dev.reg_dirtyModes_ne _ _ _ _ hr]
      split
      · rfl
      · exact s.dev.reg_wr_ne _ _ _ hr
  case swaps =>
    intro p index v sl s hslice hswap hwas hpending
    have hexec := exec_dirtySwap_on hslice hswap
    rw [Dev.dirtyCtlWrite_swap hwas (by rw [getBits_setWidth_bit, hswap]; rfl) hpending] at hexec
    generalize getBits (v.setWidth 64) 29 29 = irq at hexec
    generalize (if getBits (v.setWidth 64) 31 31 = 1 then 1 else 0) = en at hexec
    obtain ⟨hflipped, hactive⟩ := (s.dev.dirtyModes sl irq en).dirtyFlip_shows sl
    refine yields_of_eq hexec ?_
    rw [Dev.bitOf_shown _ _ _ rfl, Dev.rd_shown _ _ _ _ rfl, Dev.shown_pool, Dev.dirtyRun, Dev.shown_svc]
    refine ⟨hflipped, hactive.trans ?_, Dev.dirtyRun_setDirtyRun _ _ _, rfl⟩
    rw [Dev.rd_eq_of_reg (s.dev.reg_dirtyModes_ne sl irq en (by simp))]
  case swapped =>
    intro slice sl s hrest hslice hpending hirq
    have hexec := exec_dirtySwapComplete_on hslice
    rw [Dev.drainAll_unowed hrest.2, Dev.dirtySwapDone_ends hpending (Dev.marks_atRest hrest _) hirq] at hexec
    obtain ⟨hended, hout, hlost, hcount⟩ := s.dev.dirtySwapped_shows sl
    refine yields_of_eq hexec ?_
    rw [Dev.bitOf_shown _ _ _ rfl, Dev.bitOf_shown _ _ _ rfl, Dev.bitOf_shown _ _ _ rfl, Dev.rd_shown _ _ _ _ rfl]
    exact ⟨hended, hout, hlost, hcount, Dev.onlyRegs_shown (s.dev.onlyRegs_dirtySwapped sl),
      fun r hr hshow => (Dev.reg_shown _ r hshow).trans (s.dev.reg_dirtySwapped_ne sl hr)⟩
  case swapDone =>
    intro slice sl s hslice
    exact exec_dirtySwapComplete_on hslice
  case swapWaits =>
    intro slice sl s hslice d hwaits
    rw [exec_dirtySwapComplete_on hslice, Dev.dirtySwapDone_waits hwaits]

end Sys2Proof.Machine
end

section
/-! PROOFS. What the slice operations write: the registers that describe a slice, fresh numbers, engines, and what the removal of a slice
leaves alone (R131, R169 to R176). -/

namespace Sys2Proof.Machine

/-! ### Operations that write registers alone -/

/-- A later device differs in its registers alone. -/
def Dev.SameButRegs (d d' : Dev) : Prop := ∃ regs, d' = { d with regs := regs }

theorem Dev.SameButRegs.trans {d d' d'' : Dev} (h : d.SameButRegs d') (h' : d'.SameButRegs d'') : d.SameButRegs d'' := by
  obtain ⟨regs, rfl⟩ := h
  obtain ⟨regs', rfl⟩ := h'
  exact ⟨regs', rfl⟩

theorem Dev.sameButRegs_setReg (d : Dev) (r : Reg) (v : Word) : d.SameButRegs (d.setReg r v) := ⟨_, rfl⟩

/-- A fold whose steps write registers alone writes registers alone. -/
theorem sameButRegs_foldl {α : Type} {f : Dev → α → Dev} (h : ∀ (d : Dev) (x : α), d.SameButRegs (f d x)) (l : List α) (d : Dev) :
    d.SameButRegs (l.foldl f d) := by
  induction l generalizing d with
  | nil => exact ⟨d.regs, rfl⟩
  | cons x rest ih => exact (h d x).trans (ih (f d x))

/-! ### The registers that describe a slice (Tables DM-2, DM-4 to DM-7) -/

/-- What describes a slice is registers. -/
theorem Dev.sameButRegs_showSliceRec (d : Dev) (s : SliceRec) : d.SameButRegs (d.showSliceRec s) := by
  unfold Dev.showSliceRec
  dsimp only
  have htwice : ∀ (e : Dev) (r r' : Reg) (v v' : Word), e.SameButRegs ((e.setReg r v).setReg r' v') := fun e r r' v v' =>
    (e.sameButRegs_setReg r v).trans (Dev.sameButRegs_setReg _ r' v')
  refine ((htwice d _ _ _ _).trans (htwice _ _ _ _ _)).trans (sameButRegs_foldl (fun e i => ?_) _ _)
  split <;> exact htwice e _ _ _ _

/-- A slice's record is written, and besides only registers. -/
theorem Dev.putSlice_frame (d : Dev) (s : SliceRec) : ∃ regs, d.putSlice s = { d.setSlice s with regs := regs } :=
  (d.setSlice s).sameButRegs_showSliceRec s

/-- What SFN.SLICE_INFO shows. -/
theorem Dev.info_showSliceRec (d : Dev) (s : SliceRec) : (d.showSliceRec s).reg (.sliceInfo s.port s.index) =
    BitVec.ofNat 64 (s.state * 2 ^ 62 + (s.pasid * 2 ^ 24 + s.id)) &&& (Reg.sliceInfo s.port s.index).mask := by
  unfold Dev.showSliceRec
  dsimp only
  rw [foldl_frame (fun d : Dev => d.reg (.sliceInfo s.port s.index)) _ _ fun d i => by
    split <;> rw [Dev.reg_setReg_ne _ _ (by simp), Dev.reg_setReg_ne _ _ (by simp)]]
  rw [Dev.reg_setReg_ne _ _ (by simp), Dev.reg_setReg_ne _ _ (by simp), Dev.reg_setReg_same]

theorem Dev.sliceRec_setSlice (d : Dev) (s : SliceRec) : (d.setSlice s).sliceRec s.id = some s := tget_tset_same _ _ _

theorem Dev.sliceRec_putSlice (d : Dev) (s : SliceRec) : (d.putSlice s).sliceRec s.id = some s := by
  obtain ⟨regs, hput⟩ := d.putSlice_frame s
  rw [hput]
  exact d.sliceRec_setSlice s

theorem Dev.putSlice_pool (d : Dev) (s : SliceRec) : (d.putSlice s).pool = d.pool := by
  obtain ⟨regs, hput⟩ := d.putSlice_frame s
  rw [hput]
  rfl

theorem Dev.putSlice_out (d : Dev) (s : SliceRec) : (d.putSlice s).out = d.out := by
  obtain ⟨regs, hput⟩ := d.putSlice_frame s
  rw [hput]
  rfl

theorem SliceRec.state_le (s : SliceRec) : s.state ≤ 3 := by
  unfold SliceRec.state
  split
  · decide
  · split <;> decide

/-- SLICE_INFO.STATE of a slice whose PASID and ID fit. -/
theorem Dev.state_putSlice (d : Dev) {s : SliceRec} (hpasid : s.pasid < 2 ^ 20) (hid : s.id < 4096) :
    (d.putSlice s).rd (.sliceInfo s.port s.index) 63 62 = s.state := by
  have hstate := s.state_le
  rw [Dev.rd, Dev.putSlice, Dev.info_showSliceRec, getBits_and_mask (by simp [Reg.mask, Reg.layout, fieldMask]), getBits, BitVec.toNat_ofNat]
  omega

/-! ### Fresh numbers -/

theorem freshFrom_spec {bound : Nat} (hbound : 0 < bound) {used : List Nat} {fuel k n : Nat} (h : freshFrom bound used fuel k = some n) :
    n < bound ∧ n ∉ used := by
  induction fuel generalizing k with
  | zero => cases h
  | succ fuel ih =>
    unfold freshFrom at h
    split at h
    · exact ih h
    · rename_i hfree
      cases h
      exact ⟨Nat.mod_lt _ hbound, by simpa using hfree⟩

/-- A fresh number is below its bound and not in use; taking one uses an open value alone. -/
theorem Dev.freshNumber_spec {d d' : Dev} {bound n : Nat} {used : List Nat} (hbound : 0 < bound)
    (h : d.freshNumber bound used = (some n, d')) : n < bound ∧ n ∉ used ∧ d' = { d with free := d.free + 1 } := by
  obtain ⟨hfound, hdev⟩ := Prod.mk.inj h
  obtain ⟨hlt, hfresh⟩ := freshFrom_spec hbound hfound
  exact ⟨hlt, hfresh, hdev.symm⟩

/-! ### Engines (R131, R132) -/

theorem Dev.engine_setEngine_same (d : Dev) (e : Nat) (x : Engine) : (d.setEngine e x).engine e = x := tgetD_tset_same _ _ _ _

theorem Dev.engine_setEngine_ne (d : Dev) {e k : Nat} (x : Engine) (h : k ≠ e) : (d.setEngine e x).engine k = d.engine k :=
  tgetD_tset_ne _ _ _ h

/-- Engines are a matter of the services. -/
theorem Dev.engine_congr {d d' : Dev} (h : d'.svc.engines = d.svc.engines) (e : Nat) : d'.engine e = d.engine e := by
  rw [Dev.engine, Dev.engine, h]

theorem Dev.assistEngine_congr {d d' : Dev} (h : d'.svc.engines = d.svc.engines) (t : Nat) : d'.assistEngine t = d.assistEngine t := by
  simp only [Dev.assistEngine, Dev.engine_congr h]

/-- Where every Tambour has its coherence-assist engine, nothing settles. -/
theorem Dev.assistFor_settled {d : Dev} (h : ∀ t, t < 16 → (d.assistEngine t).isSome = true) (s : SliceRec) : d.assistFor s = d := by
  unfold Dev.assistFor
  refine List.foldlRecOn (motive := fun e : Dev => e = d) _ _ rfl fun e he t ht => ?_
  have hlt : t < 16 := by
    rcases List.mem_append.1 ht with hown | hother
    · exact List.mem_range.1 (List.mem_filter.1 hown).1
    · exact List.mem_range.1 (List.mem_filter.1 hother).1
  rw [he, Dev.assistSettle, if_pos (h t hlt)]

/-! ### A slice is removed (R176) -/

/-- What the removal of a slice leaves alone. -/
def Dev.besideSlices (d : Dev) : PoolState × DirState × MgmtState × Table Nat Engine := (d.pool, d.dir, d.mgmt, d.svc.engines)

theorem Dev.besideSlices_regs (d : Dev) (regs : Table Reg Word) : ({ d with regs := regs } : Dev).besideSlices = d.besideSlices := rfl

theorem Dev.besideSlices_dirtySwapDone (d : Dev) (s : SliceRec) : (d.dirtySwapDone s).besideSlices = d.besideSlices := by
  have hmessage : ∀ (e : Dev) (b : Bool) (v : Nat), (if b then e.sliceMsix s v else e).besideSlices = e.besideSlices := fun e b v => by
    split
    · simp only [Dev.besideSlices, Dev.sliceMsix, Dev.msix_pool, Dev.msix_dir, Dev.msix_mgmt, Dev.msix_svc]
    · rfl
  unfold Dev.dirtySwapDone
  dsimp only
  by_cases hends : (d.bitOf (.dirtyStatus s.port s.index) 30 &&
      (d.dirtyRun s.id).marks.all fun m => decide (m.buf = d.rd (.dirtyStatus s.port s.index) 31 31)) = true
  · rw [if_pos hends, hmessage]
    rfl
  · rw [if_neg hends]

theorem Dev.besideSlices_resetRing (d : Dev) (s : SliceRec) (r : Nat) : (d.resetRing s r).besideSlices = d.besideSlices := by
  unfold Dev.resetRing
  dsimp only
  rw [Dev.resetRegs, Dev.besideSlices_regs, foldl_frame Dev.besideSlices _ _ fun d t => by
    obtain ⟨regs, hshown⟩ := d.showEngines_frame t
    rw [hshown, Dev.besideSlices_regs]]
  rfl

theorem Dev.besideSlices_removeSlice (d : Dev) (s : SliceRec) : (d.removeSlice s).besideSlices = d.besideSlices := by
  have hrings := foldl_frame Dev.besideSlices (fun (d : Dev) r => d.resetRing s r) (List.range s.quota.rings.length)
    (fun d r => d.besideSlices_resetRing s r) (d.dirtySwapDone s)
  have hchannels := fun e : Dev => foldl_frame Dev.besideSlices (fun (d : Dev) c => d.resetChannel c) (s.quota.channels.filterMap id)
    (fun _ _ => rfl) e
  exact (hchannels _).trans (hrings.trans (d.besideSlices_dirtySwapDone s))

theorem Dev.sliceRec_removeSlice (d : Dev) (s : SliceRec) : (d.removeSlice s).sliceRec s.id = none := tget_tdel_same _ _

/-- The end of a Function Level Reset writes ring registers, and that it has ended. -/
theorem Dev.flrEnds_frame (d : Dev) (p : Nat) :
    ∃ flr regs, d.flrEnds p = { d with svc := { d.svc with flr := flr }, regs := regs } := by
  unfold Dev.flrEnds
  split
  · exact ⟨_, _, rfl⟩
  · exact ⟨d.svc.flr, d.regs, rfl⟩

/-- A destruction that takes effect removes the slice and tells who waits. -/
theorem Dev.applyResize_destroy {d : Dev} {s : SliceRec} {r : Resize} {path : Path} (hdestroy : r.destroy = true) (hpath : r.path = some path)
    (rc : Nat) : d.applyResize s r rc = ((d.removeSlice s).bgResult path rc 0).flrEnds s.port := by
  unfold Dev.applyResize Dev.resizeAnswer
  rw [if_pos hdestroy, hpath]

/-! ### A change starts (Table DM-3) -/

/-- A destruction of a slice without rings and channels starts with nothing to drain among them. -/
theorem Dev.startResize_bare {d : Dev} {s : SliceRec} {r : Resize} (hrings : s.quota.rings = []) (hchannels : s.quota.channels = [])
    (htarget : r.target = .zero) (hdestroy : r.destroy = true) :
    ∃ quota, d.startResize s r = d.putSlice { s with quota := quota, resize := some r } := by
  unfold Dev.startResize
  simp only [hrings, hchannels, htarget, hdestroy, Bool.not_true, Bool.and_false, Bool.false_eq_true, if_false]
  exact ⟨_, rfl⟩

end Sys2Proof.Machine
end

section
/-! PROOFS. The commands that make, change and destroy slices and assign engines (R172 to R176, R296, R313). Settles O34. -/

namespace Sys2Proof.Machine

/-! ### SLICE_CREATE (R172) -/

/-- A SLICE_CREATE that passes every check makes the slice under the fresh numbers it takes. -/
theorem exec_sliceCreate_made {path : Path} {input : List Byte} {p id index : Nat} {rings : List Nat} {channels : List (Option Nat)}
    {d1 d2 d3 d4 : Dev} {s : State} (htakes : s.dev.takesStoluo path 0xC020)
    (hform : (sliceHead path input 216 && quotaForm (input.drop 8)) = true) (hhost : hostOf path input = some p)
    (hmode : s.dev.portMode p = 1) (hstate : s.dev.portState p ≠ 7)
    (hengines : ∀ e ∈ (quotaOf (input.drop 8)).engines, s.dev.engineOk e.1 = true)
    (hregions : s.dev.regionsOk p [] (quotaOf (input.drop 8)).regions = true) (hbarred : s.dev.regionsBarred (quotaOf (input.drop 8)) = false)
    (hpasid : ∀ x ∈ s.dev.slicesOf p, x.pasid ≠ field input 4 4) (hbudget : s.dev.overBudget p 0 (quotaOf (input.drop 8)) = false)
    (hqueues : s.dev.queuesTaken 0 (quotaOf (input.drop 8)) = false)
    (hid : s.dev.freshNumber 4096 (0 :: s.dev.allSlices.map (·.id)) = (some id, d1))
    (hindex : d1.freshNumber 256 ((d1.slicesOf p).map (·.index)) = (some index, d2))
    (hrings : d2.freshRings (quotaOf (input.drop 8)).rings (d2.allSlices.flatMap fun s => s.quota.rings) = (some rings, d3))
    (hchannels : d3.freshChannels (quotaOf (input.drop 8)).channels [] = (some channels, d4)) :
    let q := quotaOf (input.drop 8)
    exec (.sliceCreate path input) s = .next (s.onto ((d4.putSlice ⟨id, p, index, field input 4 4,
      ⟨rings, channels, q.engines, q.queueBase, q.queues, q.regions, q.msixBase, q.msixCount⟩, none⟩).complete path 0xC020 0 0
        (toBytes 2 id ++ toBytes 1 index ++ toBytes 1 0))) := by
  have hall : ((quotaOf (input.drop 8)).engines.all fun e => s.dev.engineOk e.1) = true := List.all_eq_true.2 hengines
  have hany : ((s.dev.slicesOf p).any fun x => decide (x.pasid = field input 4 4)) = false := by simpa using hpasid
  refine exec_stoluo htakes rfl hform ?_
  simp only [hhost, Option.getD_some]
  rw [if_neg (by simp [hmode, hall, hregions]), if_neg (by simp [hbarred]), if_neg hstate, if_neg (by simp [hany]),
    if_neg (by simp [hbudget, hqueues]), hid]
  dsimp only
  rw [hindex]
  dsimp only
  rw [hrings]
  dsimp only
  rw [hchannels]
  rfl

/-! ### SLICE_RESIZE and SLICE_DESTROY (R172, R175, R176) -/

/-- A destruction starts in the background where no slice changes and the path runs no operation. -/
theorem exec_sliceDestroy_starts {path : Path} {input : List Byte} {sl : SliceRec} {s : State} (htakes : s.dev.takesStoluo path 0xC022)
    (hform : sliceHead path input 8 = true) (hnamed : s.dev.namedSlice path input = some sl) (hchanging : s.dev.changing = false)
    (hfree : tget s.dev.mgmt.bg path = none) :
    exec (.sliceDestroy path input) s = .next (s.onto ((s.dev.bgStart path 0xC022).startResize sl ⟨.zero, true, some path, false⟩)) := by
  refine exec_stoluo htakes rfl hform ?_
  simp only [hnamed]
  exact if_neg (by simp [hchanging, Dev.bgRunning, hfree])

/-- A resize that passes every check and takes nothing new starts in the background. -/
theorem exec_sliceResize_starts {path : Path} {input : List Byte} {sl : SliceRec} {s : State} (htakes : s.dev.takesStoluo path 0xC021)
    (hform : (sliceHead path input 216 && quotaForm (input.drop 8)) = true) (hnamed : s.dev.namedSlice path input = some sl)
    (hchanging : s.dev.changing = false) (hfree : tget s.dev.mgmt.bg path = none)
    (hengines : ∀ e ∈ (quotaOf (input.drop 8)).engines, s.dev.engineOk e.1 = true)
    (hregions : s.dev.regionsOk sl.port sl.quota.regions (quotaOf (input.drop 8)).regions = true)
    (hrange : queueRangeOk sl.quota (quotaOf (input.drop 8)).queueBase (quotaOf (input.drop 8)).queues = true)
    (hbarred : s.dev.regionsBarred (quotaOf (input.drop 8)) = false)
    (hlast : s.dev.lastEngineLost sl (quotaOf (input.drop 8)).engines = false)
    (hpinned : s.dev.pinnedLost sl (quotaOf (input.drop 8)).regions = false)
    (hvector : s.dev.vectorLost sl (quotaOf (input.drop 8)).msixBase (quotaOf (input.drop 8)).msixCount = false)
    (hbudget : s.dev.overBudget sl.port sl.id (quotaOf (input.drop 8)) = false)
    (hqueues : s.dev.queuesTaken sl.id (quotaOf (input.drop 8)) = false)
    (hrings : (quotaOf (input.drop 8)).rings ≤ sl.quota.rings.length)
    (hchannels : (quotaOf (input.drop 8)).channels ≤ sl.quota.channels.length) :
    let q := quotaOf (input.drop 8)
    exec (.sliceResize path input) s = .next (s.onto ((s.dev.bgStart path 0xC021).startResize sl
      ⟨⟨sl.quota.rings.take q.rings, sl.quota.channels.take q.channels, q.engines, q.queueBase, q.queues, q.regions, q.msixBase, q.msixCount⟩,
        false, some path, false⟩)) := by
  have hall : ((quotaOf (input.drop 8)).engines.all fun e =>
      (sl.quota.engines.any fun x => decide (x.1 = e.1)) || s.dev.engineOk e.1) = true :=
    List.all_eq_true.2 fun e he => by rw [hengines e he, Bool.or_true]
  refine exec_stoluo htakes rfl hform ?_
  simp only [hnamed]
  rw [if_neg (by simp [hchanging, Dev.bgRunning, hfree]), if_neg (by simp [hall, hregions, hrange]), if_neg (by simp [hbarred]),
    if_neg (by simp [hlast, hpinned, hvector]), if_neg (by simp [hbudget, hqueues]), Nat.sub_eq_zero_of_le hrings,
    Nat.sub_eq_zero_of_le hchannels]
  simp only [Dev.freshRings, Dev.freshChannels, List.append_nil]
  rfl

/-- The drain of a change that is over: the target takes effect. -/
theorem exec_quotaDrainDone_drained {slice : Fin 4096} {sl : SliceRec} {r : Resize} {s : State} (hslice : s.dev.sliceRec slice = some sl)
    (hresize : sl.resize = some r) (hruns : s.dev.fwRuns = true) (hdrained : s.dev.drained sl r.target = true) :
    exec (.quotaDrainDone slice) s =
      .next (s.onto ((s.dev.applyResize sl r (if r.forced then rcTimeout else rcSuccess)).assistFor sl)) := by
  refine exec_onto (exec_quotaDrainDone slice s) ?_
  simp only [hslice, hresize, hruns, hdrained, Bool.and_self, if_true]

/-- A drain without removed channels and without a queue service that times out is marked as forced. -/
theorem exec_quotaDrainTimeout_forced {slice : Fin 4096} {sl : SliceRec} {r : Resize} {s : State} (hrest : s.dev.atRest)
    (hslice : s.dev.sliceRec slice = some sl) (hresize : sl.resize = some r) (hforced : r.forced = false)
    (hchannels : removedChannels sl.quota r.target = []) (hservice : s.dev.qservice sl = none) :
    exec (.quotaDrainTimeout slice) s = .next (s.onto ((s.dev.setSlice { sl with resize := some { r with forced := true } }).fabricEvent 8
      (det 146 sl.port + det 126 sl.pasid + det 114 sl.id))) := by
  refine exec_rests (exec_quotaDrainTimeout slice s) hrest.1 ?_ (Dev.SameTurn.atRest ⟨?_, ?_⟩ hrest)
  · simp only [hslice, hresize, hforced, Bool.false_eq_true, if_false, hchannels, List.foldl_nil, hservice, Option.map_none,
      Option.getD_none, List.filter_nil]
  · rw [Dev.fabricEvent_dir]
    rfl
  · rw [Dev.fabricEvent_svc]
    rfl

/-! ### Function Level Reset (R146, R176) -/

/-- A Function Level Reset of a host is under way. -/
def Dev.flrBegins (d : Dev) (p : Nat) : Dev :=
  { d with svc := { d.svc with flr := d.svc.flr.filter (fun q => !decide (q = p)) ++ [p] } }

/-- The reset of a host quiesces its slices. -/
theorem exec_flrServiceFunction_quiesces (p : Fin 64) (s : State) : exec (.flrServiceFunction p) s =
    .next (s.onto (((s.dev.slicesOf p).foldl (fun (d : Dev) x => d.quiesceSlice x) (s.dev.flrBegins p)).flrEnds p)) :=
  exec_onto (exec_flrServiceFunction p s) rfl

/-- The reset of a host without slices is over at once: its ring registers show their reset values. -/
theorem Dev.flrEnds_bare {d : Dev} {p : Nat} (hpending : p ∈ d.svc.flr) (hnone : d.slicesOf p = []) :
    p ∉ (d.flrEnds p).svc.flr ∧ (∀ i r w, (d.flrEnds p).reg (.ring p i r w) = (Reg.ring p i r w).layout.reset) ∧
      (d.flrEnds p).pool = d.pool ∧ (d.flrEnds p).dir = d.dir := by
  unfold Dev.flrEnds
  rw [if_pos (by simp [hpending, hnone])]
  exact ⟨by simp, fun i r w => by simp [Dev.reg_resetRegs], by simp, by simp⟩

/-! ### ENGINE_ASSIGN (R131, R296) -/

/-- The payload of ENGINE_ASSIGN follows its table. -/
theorem engineAssign_form {input : List Byte} (hlength : input.length = 4) (hengine : field input 0 2 < 256)
    (himage : field input 2 1 = 1 ∨ field input 2 1 = 2) (hzero : field input 3 1 = 0) :
    decide (input.length = 4 ∧ field input 0 2 < 256 ∧ 1 ≤ field input 2 1 ∧ field input 2 1 ≤ 2 ∧ field input 3 1 = 0) = true :=
  decide_eq_true ⟨hlength, hengine, by omega, by omega, hzero⟩

/-- Engines of a device whose services are those of a device with one engine written. -/
theorem Dev.engines_setEngine {d t : Dev} {e : Nat} {x : Engine} (h : t.svc = (d.setEngine e x).svc) :
    t.engine e = x ∧ ∀ k, k ≠ e → t.engine k = d.engine k := by
  have hall : ∀ k, t.engine k = (d.setEngine e x).engine k := fun k => Dev.engine_congr (by rw [h]) k
  exact ⟨(hall e).trans (d.engine_setEngine_same e x), fun k hk => (hall k).trans (d.engine_setEngine_ne x hk)⟩

theorem Dev.showEngines_pool (d : Dev) (t : Nat) : (d.showEngines t).pool = d.pool := by
  obtain ⟨regs, hshown⟩ := d.showEngines_frame t
  rw [hshown]

/-- A served engine that no slice shares, and that is not the coherence-assist engine of its Tambour, takes a loaded image. -/
theorem exec_engineAssign_loads {path : Path} {input : List Byte} {s : State} (htakes : s.dev.takesStoluo path 0xC024)
    (hform : decide (input.length = 4 ∧ field input 0 2 < 256 ∧ 1 ≤ field input 2 1 ∧ field input 2 1 ≤ 2 ∧ field input 3 1 = 0) = true)
    (hshared : s.dev.engineShared (field input 0 2) = false) (hassist : s.dev.assistEngine (field input 0 2 / 16) ≠ some (field input 0 2))
    (hloaded : (tget s.dev.mgmt.inUse (field input 2 1)).isSome = true) :
    let e := field input 0 2
    exec (.engineAssign path input) s = .next (s.onto (((s.dev.setEngine e { s.dev.engine e with
      image := serviceImage (field input 2 1), version := s.dev.imageVersion (field input 2 1), move := none }).showEngines (e / 16)).finish
        path 0xC024 0)) := by
  refine exec_stoluo htakes rfl hform ?_
  rw [if_neg (by simp [hshared, hassist]), if_neg (by simp [← Option.not_isSome, hloaded])]
  rfl

/-! ### Between operations (R313) -/

/-- An idle engine moves to its new image; where no activation waits for that, nothing else happens. -/
theorem exec_serviceImageEngineMove_moves {e : Fin 256} {v : Nat} {s : State} (hmove : (s.dev.engine e).move = some v)
    (hidle : s.dev.threadsOf e = 0) (hwaiting : s.dev.mgmt.imageMove = []) :
    exec (.serviceImageEngineMove e) s =
      .next (s.onto (s.dev.setEngine e { s.dev.engine e with version := v, move := none })) := by
  have hnone : ∀ k, tget (s.dev.setEngine e { s.dev.engine e with version := v, move := none }).mgmt.imageMove k = none := fun k => by
    rw [show (s.dev.setEngine e { s.dev.engine e with version := v, move := none }).mgmt.imageMove = [] from hwaiting]
    rfl
  refine exec_onto (exec_serviceImageEngineMove e s) ?_
  simp only [hmove, hidle, hnone]
  rfl

/-! ### The end of a destruction (R176) -/

/-- A destruction that takes effect removes the slice, gives its path the result, and leaves the pool and the directory. -/
theorem Dev.applyResize_removes {d : Dev} {sl : SliceRec} {r : Resize} {path : Path} {b : BgOp} (hdestroy : r.destroy = true)
    (hpath : r.path = some path) (hbg : tget d.mgmt.bg path = some b) (rc : Nat) :
    (d.applyResize sl r rc).sliceRec sl.id = none ∧
      tget (d.applyResize sl r rc).mgmt.bg path = some { b with result := some (rc, 0) } ∧
      (d.applyResize sl r rc).pool = d.pool ∧ (d.applyResize sl r rc).dir = d.dir ∧
      (d.applyResize sl r rc).svc.engines = d.svc.engines := by
  obtain ⟨flr, regs, hends⟩ := ((d.removeSlice sl).bgResult path rc 0).flrEnds_frame sl.port
  have hbeside := d.besideSlices_removeSlice sl
  simp only [Dev.besideSlices, Prod.mk.injEq] at hbeside
  obtain ⟨hpool, hdir, hmgmt, hkept⟩ := hbeside
  have hresult : tget ((d.removeSlice sl).bgResult path rc 0).mgmt.bg path = some { b with result := some (rc, 0) } := by
    rw [Dev.bg_bgResult, hmgmt, hbg, Option.map_some]
  rw [Dev.applyResize_destroy hdestroy hpath, hends]
  exact ⟨d.sliceRec_removeSlice sl, hresult, hpool, hdir, hkept⟩

/-- Slices are made, queried, resized and destroyed, and engines are assigned. Settles O34, clause by clause: what a command does where its
checks pass is an equation above, and what that leaves follows from the rules of the slice registers, of fresh numbers and of engines. -/
theorem slicesAreMadeSizedAndDestroyed : Obligations.SlicesAreMadeSizedAndDestroyed := by
  unfold Obligations.SlicesAreMadeSizedAndDestroyed
  refine ⟨?create, ?createBare, ?query, ?queryBusy, ?resizeBusy, ?destroyBusy, ?queryUnknown, ?resize, ?destroy, ?destroyBare, ?drainDone,
    ?drainDestroys, ?drainTimeout, ?flrBare, ?flr, ?assign, ?assignUnloaded, ?assignShared, ?move⟩
  case create =>
    intro path input p id index rings channels d1 d2 d3 d4 s htakes hform hhost q hmode hstate hengines hregions hbarred hpasid hbudget
      hqueues hid hindex hrings hchannels
    exact exec_sliceCreate_made htakes hform hhost hmode hstate hengines hregions hbarred hpasid hbudget hqueues hid hindex hrings hchannels
  case createBare =>
    intro path input p id index d1 d2 s htakes hform hhost q hrings hchannels hmode hstate hengines hregions hbarred hpasid hbudget hqueues
      hid hindex
    have hnoRings : d2.freshRings q.rings (d2.allSlices.flatMap fun s => s.quota.rings) = (some [], d2) := by rw [hrings]; rfl
    have hnoChannels : d2.freshChannels q.channels [] = (some [], d2) := by rw [hchannels]; rfl
    have hexec := exec_sliceCreate_made htakes hform hhost hmode hstate hengines hregions hbarred hpasid hbudget hqueues hid hindex
      hnoRings hnoChannels
    obtain ⟨hidLt, hidFresh, rfl⟩ := Dev.freshNumber_spec (by decide) hid
    obtain ⟨hindexLt, hindexFresh, rfl⟩ := Dev.freshNumber_spec (by decide) hindex
    obtain ⟨hidPos, hidNew⟩ := not_or.1 (mt List.mem_cons.2 hidFresh)
    have hfits : field input 4 4 < 2 ^ 20 := by
      simp only [sliceHead, Bool.and_eq_true, decide_eq_true_eq] at hform
      exact hform.1.1.2.2
    refine yields_of_eq hexec ⟨?_, hidPos, hidLt, hidNew, hindexLt, hindexFresh, Dev.replied_end (by decide), ?_, ?_⟩
    · rw [Dev.sliceRec, Dev.shown_svc, Dev.complete_svc]
      exact Dev.sliceRec_putSlice _ _
    · rw [Dev.rd_shown _ _ _ _ rfl, Dev.rd_complete _ _ _ _ _ _ _ _ _ rfl rfl]
      exact Dev.state_putSlice _ hfits hidLt
    · rw [Dev.shown_pool, Dev.complete_pool, Dev.putSlice_pool]
  case query =>
    intro path input sl s htakes hform hnamed hsteady
    refine yields_stoluo htakes rfl hform ?_
    simp only [hnamed, hsteady]
    exact ⟨Dev.replied_end (by decide), Dev.onlyRead_end⟩
  case queryBusy =>
    intro path input sl r s htakes hform hnamed hresize
    refine yields_stoluo htakes rfl hform ?_
    simp only [hnamed, hresize]
    exact ⟨Dev.replied_end (by decide), Dev.onlyRead_end⟩
  case resizeBusy =>
    intro path input sl s htakes hform hnamed hchanging
    refine yields_stoluo htakes rfl hform ?_
    simp only [hnamed, hchanging, true_or, if_true]
    exact ⟨Dev.replied_end (by decide), Dev.onlyRead_end⟩
  case destroyBusy =>
    intro path input sl s htakes hform hnamed hchanging
    refine yields_stoluo htakes rfl hform ?_
    simp only [hnamed, hchanging, true_or, if_true]
    exact ⟨Dev.replied_end (by decide), Dev.onlyRead_end⟩
  case queryUnknown =>
    intro path input s htakes hform hnamed
    refine yields_stoluo htakes rfl hform ?_
    simp only [hnamed]
    exact ⟨Dev.replied_end (by decide), Dev.onlyRead_end⟩
  case resize =>
    intro path input sl s htakes hform hnamed hchanging hfree q hengines hregions hrange hbarred hlast hpinned hvector hbudget hqueues
      hrings hchannels
    exact exec_sliceResize_starts htakes hform hnamed hchanging hfree hengines hregions hrange hbarred hlast hpinned hvector hbudget
      hqueues hrings hchannels
  case destroy =>
    intro path input sl s htakes hform hnamed hchanging hfree
    exact exec_sliceDestroy_starts htakes hform hnamed hchanging hfree
  case destroyBare =>
    intro path input sl s htakes hform hnamed hchanging hfree hrings hchannels
    obtain ⟨quota, hstarts⟩ := (s.dev.bgStart path 0xC022).startResize_bare (r := ⟨.zero, true, some path, false⟩) hrings hchannels rfl rfl
    refine yields_of_eq ((exec_sliceDestroy_starts htakes hform hnamed hchanging hfree).trans (by rw [hstarts]))
      ⟨{ sl with quota := quota, resize := some ⟨.zero, true, some path, false⟩ }, ?_, rfl, Dev.mem_shown ?_, ?_⟩
    · rw [Dev.sliceRec, Dev.shown_svc]
      exact Dev.sliceRec_putSlice _ _
    · rw [Dev.putSlice_out]
      exact Dev.mem_bgStart _ _ _
    · rw [Dev.shown_pool, Dev.putSlice_pool, Dev.bgStart_pool]
  case drainDone =>
    intro slice sl r s hslice hresize hruns hdrained
    exact exec_quotaDrainDone_drained hslice hresize hruns hdrained
  case drainDestroys =>
    intro slice sl r path b s hslice hresize hname hruns hassist hdrained hpath hdestroy hforced hbg
    obtain ⟨hgone, hresult, hpool, hdir, hengines⟩ := Dev.applyResize_removes (sl := sl) hdestroy hpath hbg rcSuccess
    have hsettled : (s.dev.applyResize sl r rcSuccess).assistFor sl = s.dev.applyResize sl r rcSuccess :=
      Dev.assistFor_settled (fun t ht => by rw [Dev.assistEngine_congr hengines]; exact hassist t ht) sl
    have hexec := exec_quotaDrainDone_drained hslice hresize hruns hdrained
    rw [hforced, if_neg (by decide), hsettled] at hexec
    refine yields_of_eq hexec ⟨?_, ?_, ?_, ?_⟩
    · rw [Dev.sliceRec, Dev.shown_svc]
      exact hgone
    · rw [Dev.shown_mgmt, hresult]
    · rw [Dev.shown_pool, hpool]
    · rw [Dev.shown_dir, hdir]
  case drainTimeout =>
    intro slice sl r s hrest hslice hname hresize hforced hchannels hservice
    refine yields_of_eq (exec_quotaDrainTimeout_forced hrest hslice hresize hforced hchannels hservice) ⟨?_, ?_⟩
    · rw [Dev.sliceRec, Dev.shown_svc, Dev.fabricEvent_svc, ← hname]
      exact Dev.sliceRec_setSlice s.dev { sl with resize := some { r with forced := true } }
    · rw [Dev.shown_pool, Dev.fabricEvent_pool]
      rfl
  case flrBare =>
    intro p s hnone
    have hpending : p.val ∈ (s.dev.flrBegins p).svc.flr := List.mem_append_right _ (List.mem_singleton.2 rfl)
    obtain ⟨hflr, hrings, hpool, hdir⟩ := Dev.flrEnds_bare hpending hnone
    have hexec := exec_flrServiceFunction_quiesces p s
    rw [hnone, List.foldl_nil] at hexec
    refine yields_of_eq hexec ⟨?_, fun i r w => ?_, ?_, ?_⟩
    · rwa [Dev.shown_svc]
    · rw [Dev.reg_shown _ _ rfl, hrings]
    · rw [Dev.shown_pool, hpool]
      rfl
    · rw [Dev.shown_dir, hdir]
      rfl
  case flr => exact fun p s => exec_flrServiceFunction_quiesces p s
  case assign =>
    intro path input s htakes hlength hengine himage hzero hshared hassist hloaded
    have hform := engineAssign_form hlength hengine himage hzero
    refine yields_of_eq (exec_engineAssign_loads htakes hform hshared hassist hloaded) ?_
    refine ⟨Dev.replied_finish (by decide), and_assoc.1 ⟨Dev.engines_setEngine ?_, ?_⟩⟩
    · rw [Dev.shown_svc, Dev.finish_svc, Dev.showEngines_svc]
    · rw [Dev.shown_pool, Dev.finish_pool, Dev.showEngines_pool]
      rfl
  case assignUnloaded =>
    intro path input s htakes hlength hengine himage hzero hshared hassist hunloaded
    refine yields_stoluo htakes rfl (engineAssign_form hlength hengine himage hzero) ?_
    rw [if_neg (by simp [hshared, hassist]), if_pos (by rw [hunloaded]; rfl)]
    exact ⟨Dev.replied_finish (by decide), Dev.onlyRead_end⟩
  case assignShared =>
    intro path input s htakes hlength hengine himage hzero hshared
    refine yields_stoluo htakes rfl (engineAssign_form hlength hengine himage hzero) ?_
    rw [if_pos (Or.inl hshared)]
    exact ⟨Dev.replied_finish (by decide), Dev.onlyRead_end⟩
  case move =>
    intro e v s hmove hidle hwaiting
    refine yields_of_eq (exec_serviceImageEngineMove_moves hmove hidle hwaiting) (and_assoc.1 ⟨Dev.engines_setEngine ?_, ?_⟩)
    · rw [Dev.shown_svc]
    · rw [Dev.shown_pool]
      rfl

end Sys2Proof.Machine
end

section
/-! PROOFS. SPDM sessions, from KEY_EXCHANGE to END_SESSION, and the IDE keys that they carry (R223, R332, R340). Settles O56. -/

namespace Sys2Proof.Machine

/-! ### Requests that the responder takes (R340) -/

theorem Dev.spdmRequest_down {d : Dev} {path : Path} (h : d.spdmUp path = false) (stage : Nat) (body : Dev → Dev) :
    d.spdmRequest path stage body = d := by
  simp [Dev.spdmRequest, h]

/-- A request runs its own rules once the exchange has come to its stage. -/
theorem Dev.spdmRequest_runs {d : Dev} {path : Path} {stage : Nat} (hup : d.spdmUp path = true) (hconn : stage ≤ d.conn path)
    (body : Dev → Dev) : d.spdmRequest path stage body = body d := by
  unfold Dev.spdmRequest
  rw [if_neg (by simp [hup]), if_neg (Nat.not_lt.2 hconn)]

theorem Dev.inSession_runs {d : Dev} {path : Path} {id : Nat} {x : SpdmSession} (hup : d.spdmUp path = true) (hconn : 3 ≤ d.conn path)
    (hsession : d.session? path id = some x) (hfinished : x.finished = true) (body : Dev → Dev) : d.inSession path id body = body d := by
  rw [Dev.inSession, Dev.spdmRequest_runs hup hconn, hsession]
  exact if_pos hfinished

/-- A request in a session that the transport does not have is answered with an error. -/
theorem Dev.inSession_unknown {d : Dev} {path : Path} {id : Nat} (hup : d.spdmUp path = true) (hconn : 3 ≤ d.conn path)
    (hsession : d.session? path id = none) (body : Dev → Dev) : d.inSession path id body = d.spdmError path 2 := by
  rw [Dev.inSession, Dev.spdmRequest_runs hup hconn, hsession]

/-! ### Answers -/

/-- What a response leaves: it is sent, and security and pool are as they were. -/
theorem Dev.spdmAnswer_shown (d : Dev) (path : Path) (code : Nat) (output : List Byte) :
    let t := (d.spdmAnswer path code output).shown
    .spdm path code output ∈ t.out ∧ t.sec = d.sec ∧ t.pool = d.pool :=
  ⟨Dev.mem_shown (d.mem_emit _), Dev.shown_sec _, Dev.shown_pool _⟩

theorem Dev.spdmError_shown (d : Dev) (path : Path) (err : Nat) :
    let t := (d.spdmError path err).shown
    .spdm path 0x7F (toBytes 1 err) ∈ t.out ∧ t.sec = d.sec :=
  ⟨Dev.mem_shown (d.mem_emit _), Dev.shown_sec _⟩

/-! ### Sessions -/

/-- FINISH in a session whose set-up is under way completes it, or ends it (R332). -/
theorem exec_finish_open {path : Path} {session : Nat} {x : SpdmSession} {s : State} (hup : s.dev.spdmUp path = true)
    (hconn : 3 ≤ s.dev.conn path) (hsession : s.dev.session? path session = some x) (hopen : x.finished = false) (verifies : Bool) :
    exec (.finish path session verifies) s = .next (s.onto
      (if verifies then (s.dev.modSession session fun y => { y with finished := true }).spdmAnswer path 0xE5 []
      else (s.dev.dropSession session).spdmError path 6)) := by
  refine exec_onto (exec_finish path session verifies s) ?_
  rw [Dev.spdmRequest_runs hup hconn, hsession]
  exact if_neg (by simp [hopen])

/-! ### IDE (R223, Table CP-11) -/

/-- The keys of a port's key set are set once more. -/
def Dev.ideKeyed (d : Dev) (p : Fin 64) (keySet : Nat) : Dev :=
  { d with sec := { d.sec with
      ideKeys := tset d.sec.ideKeys (p.val, keySet) (((tget d.sec.ideKeys (p.val, keySet)).getD 0) + 1) } }

/-- PRT_STATUS shows link IDE and, with 256-byte flits, CXL IDE. -/
def Dev.ideShown (d : Dev) (p : Fin 64) : Dev :=
  let d := d.wr (.prtStatus p) 13 13 1
  if d.bitOf (.prtStatus p) 15 then d.wr (.prtStatus p) 12 12 1 else d

theorem exec_ideKm_keys {p : Fin 64} {session : Nat} {x : SpdmSession} {s : State} (hup : s.dev.spdmUp (.pool p) = true)
    (hconn : 3 ≤ s.dev.conn (.pool p)) (hsession : s.dev.session? (.pool p) session = some x) (hfinished : x.finished = true)
    (hactive : s.dev.portState p = 5) (keySet : Nat) :
    exec (.ideKm (.pool p) session keySet) s = .next (s.onto
      (((s.dev.ideKeyed p keySet).ideShown p).spdmAnswer (.pool p) 0xFE (toBytes 1 keySet))) :=
  exec_onto (exec_ideKm (.pool p) session keySet s)
    ((Dev.inSession_runs hup hconn hsession hfinished _).trans (if_neg (not_not_intro hactive)))

theorem Reg.holds_prtStatus_ide (p : Nat) :
    (Reg.prtStatus p).holds 13 13 = true ∧ (Reg.prtStatus p).holds 12 12 = true := by
  simp [Reg.holds, Reg.mask, Reg.layout, fieldMask]

theorem Dev.ideShown_sec (d : Dev) (p : Fin 64) : (d.ideShown p).sec = d.sec := by
  unfold Dev.ideShown
  dsimp only
  split <;> rfl

/-- Both IDE bits of PRT_STATUS, and the port's state beside them. -/
theorem Dev.ideShown_fields (d : Dev) (p : Fin 64) :
    (d.ideShown p).bitOf (.prtStatus p) 13 = true ∧
      (d.ideShown p).bitOf (.prtStatus p) 12 = (d.bitOf (.prtStatus p) 15 || d.bitOf (.prtStatus p) 12) ∧
      (d.ideShown p).portState p = d.portState p := by
  obtain ⟨hlink, hcxl⟩ := Reg.holds_prtStatus_ide p
  have hstate : ∀ (x : Dev) (i : Nat), i < 28 → (x.wr (.prtStatus p) i i 1).portState p = x.portState p := fun x i hi =>
    Dev.rd_wr_field x 1 (Reg.holds_prtStatus p (by decide)) (.inr hi)
  have hflits : (d.wr (.prtStatus p) 13 13 1).bitOf (.prtStatus p) 15 = d.bitOf (.prtStatus p) 15 :=
    Dev.bitOf_wr_field d 1 (Reg.holds_prtStatus p (by decide)) (by decide)
  unfold Dev.ideShown
  dsimp only
  rw [hflits]
  cases d.bitOf (.prtStatus p) 15 with
  | false =>
    refine ⟨?_, ?_, hstate d 13 (by decide)⟩
    · exact Dev.bitOf_wr_same d 1 hlink
    · exact Dev.bitOf_wr_field d 1 hcxl (by decide)
  | true =>
    refine ⟨?_, ?_, (hstate _ 12 (by decide)).trans (hstate d 13 (by decide))⟩
    · exact (Dev.bitOf_wr_field _ 1 hlink (by decide)).trans (Dev.bitOf_wr_same d 1 hlink)
    · exact Dev.bitOf_wr_same _ 1 hcxl

/-! ### The obligation -/

/-- Settles O56: a request that the responder takes runs its own rules, whose answer leaves what they have written; IDE_KM writes one key
set and two bits of PRT_STATUS. -/
theorem spdmSessionsOpenCarryIdeKeysAndEnd : Obligations.SpdmSessionsOpenCarryIdeKeysAndEnd := by
  unfold Obligations.SpdmSessionsOpenCarryIdeKeysAndEnd
  refine ⟨?exchange, ?noneFree, ?finish, ?badSignature, ?update, ?heartbeat, ?ends, ?unknown, ?ide, ?ideMctp, ?down⟩
  case exchange =>
    intro path s hup hconn hfree hrandom
    refine yields_of_eq (exec_onto (exec_keyExchange path 0 s) ((Dev.spdmRequest_runs hup hconn _).trans
      ((if_neg (by decide)).trans ((if_neg (by simp [hfree])).trans (if_neg (by simp [hrandom])))))) ?_
    obtain ⟨hsent, hsec, hpool⟩ := Dev.spdmAnswer_shown _ path _ _
    exact ⟨by rw [hsec], by rw [hsec], hsent, hpool, by rw [hsec]⟩
  case noneFree =>
    intro path s hup hconn hfree
    exact yields_of_eq (exec_onto (exec_keyExchange path 0 s) ((Dev.spdmRequest_runs hup hconn _).trans
      ((if_neg (by decide)).trans (if_pos (by simp [hfree]))))) (Dev.spdmError_shown _ path 10)
  case finish =>
    intro path session x s hup hconn hsession hopen
    refine yields_of_eq (exec_finish_open hup hconn hsession hopen true) ?_
    obtain ⟨hsent, hsec, hpool⟩ := Dev.spdmAnswer_shown (s.dev.modSession session fun y => { y with finished := true }) path 0xE5 []
    exact ⟨hsent, hpool, congrArg SecState.sessions hsec⟩
  case badSignature =>
    intro path session x s hup hconn hsession hopen
    refine yields_of_eq (exec_finish_open hup hconn hsession hopen false) ?_
    obtain ⟨hsent, hsec⟩ := Dev.spdmError_shown (s.dev.dropSession session) path 6
    exact ⟨hsent, congrArg SecState.sessions hsec⟩
  case update =>
    intro path session x s hup hconn hsession hfinished
    refine yields_of_eq (exec_onto (exec_keyUpdate path session s) (Dev.inSession_runs hup hconn hsession hfinished _)) ?_
    obtain ⟨hsent, hsec, _⟩ := Dev.spdmAnswer_shown (s.dev.modSession session fun y => { y with keyGen := y.keyGen + 1 }) path 0xE9 []
    exact ⟨hsent, congrArg SecState.sessions hsec⟩
  case heartbeat =>
    intro path session x s hup hconn hsession hfinished
    refine yields_of_eq (exec_onto (exec_heartbeat path session s) (Dev.inSession_runs hup hconn hsession hfinished _)) ?_
    obtain ⟨hsent, hsec, _⟩ := Dev.spdmAnswer_shown s.dev path 0xE8 []
    exact ⟨hsent, hsec⟩
  case ends =>
    intro path session x s hup hconn hsession hfinished
    refine yields_of_eq (exec_onto (exec_endSession path session s) (Dev.inSession_runs hup hconn hsession hfinished _)) ?_
    obtain ⟨hsent, hsec, hpool⟩ := Dev.spdmAnswer_shown (s.dev.dropSession session) path 0xEC []
    exact ⟨hsent, hpool, (congrArg SecState.ideKeys hsec).trans rfl, congrArg SecState.sessions hsec⟩
  case unknown =>
    intro path session s hup hconn hsession
    exact yields_of_eq (exec_onto (exec_heartbeat path session s) (Dev.inSession_unknown hup hconn hsession _))
      (Dev.spdmError_shown s.dev path 2)
  case ide =>
    intro p session keySet x s hup hconn hsession hfinished hactive
    refine yields_of_eq (exec_ideKm_keys hup hconn hsession hfinished hactive keySet) ?_
    obtain ⟨hsent, hsec, _⟩ := Dev.spdmAnswer_shown ((s.dev.ideKeyed p keySet).ideShown p) (.pool p) 0xFE (toBytes 1 keySet)
    rw [Dev.ideShown_sec] at hsec
    obtain ⟨hlink, hcxl, hstate⟩ := (s.dev.ideKeyed p keySet).ideShown_fields p
    have hreg : (((s.dev.ideKeyed p keySet).ideShown p).spdmAnswer (.pool p) 0xFE (toBytes 1 keySet)).shown.reg (.prtStatus p) =
        ((s.dev.ideKeyed p keySet).ideShown p).reg (.prtStatus p) := Dev.reg_shown _ _ rfl
    refine ⟨hsent, ?_, (Dev.bitOf_eq_of_reg hreg 13).trans hlink, (Dev.bitOf_eq_of_reg hreg 12).trans hcxl,
      (Dev.rd_eq_of_reg hreg 31 28).trans (hstate.trans hactive), fun k hk => ?_, (congrArg SecState.sessions hsec).trans rfl⟩
    · exact (congrArg (fun sec => tget sec.ideKeys (p.val, keySet)) hsec).trans (tget_tset_same _ _ _)
    · exact (congrArg (fun sec => tget sec.ideKeys k) hsec).trans (tget_tset_ne _ _ hk)
  case ideMctp =>
    intro eid session keySet x s hup hconn hsession hfinished
    exact yields_of_eq (exec_onto (exec_ideKm (.mctp eid) session keySet s) (Dev.inSession_runs hup hconn hsession hfinished _))
      (Dev.spdmError_shown s.dev (.mctp eid) 7)
  case down =>
    intro path s hdown
    exact ⟨exec_onto (exec_getVersion path s) (Dev.spdmRequest_down hdown _ _),
      exec_onto (exec_keyExchange path 0 s) (Dev.spdmRequest_down hdown _ _)⟩

end Sys2Proof.Machine
end

section
/-! PROOFS. Messages that are discarded when their egress leaves service, and the registers that this leaves alone (R463). -/

namespace Sys2Proof.Machine

/-! ### Messages that are discarded (R463) -/

@[simp] theorem Dev.deathRecords_unstore (d : Dev) (id : Nat) : (d.unstore id).deathRecords = d.deathRecords :=
  Dev.deathRecords_congr (by simp) (by simp) fun _ hr => d.steady_unstore id hr

@[simp] theorem Dev.deathRecords_giveUp (d : Dev) (m : Msg) : (d.giveUp m).deathRecords = d.deathRecords := by
  have hmodCt : ∀ (x : Dev) (g : Nat) (f : CtEntry → CtEntry), (x.modCt g f).deathRecords = x.deathRecords := fun x g f => by
    unfold Dev.modCt
    split
    · exact x.deathRecords_setCt g _
    · rfl
  unfold Dev.giveUp
  split
  · dsimp only
    split
    · rfl
    · split
      · rfl
      · split
        · split
          · exact (Dev.deathRecords_retire _ _).trans (hmodCt _ _ _)
          · exact hmodCt _ _ _
        · exact hmodCt _ _ _
  · rfl

@[simp] theorem Dev.deathRecords_decrypt (d : Dev) (dom line : Nat) (v : Option Stored) :
    (d.decrypt dom line v).2.deathRecords = d.deathRecords := by
  unfold Dev.decrypt
  split
  · rfl
  · split <;> rfl
  · rfl
  · rfl

@[simp] theorem Dev.deathRecords_readEnds (d : Dev) (o : ExpOp) (status : ReadStatus) :
    (d.readEnds o status).deathRecords = d.deathRecords := by
  have hdrop : (d.dropOp o.op).deathRecords = d.deathRecords := rfl
  unfold Dev.readEnds
  dsimp only
  rw [← hdrop]
  generalize d.dropOp o.op = x
  split
  · exact x.deathRecords_readArrived _ _ _ _
  split
  · have hcount := x.deathRecords_count (o.port / 4) (0x6008 + o.port % 4) (if status = .error then 0 else 1)
    rw [← hcount]
    generalize x.count (o.port / 4) (0x6008 + o.port % 4) (if status = .error then 0 else 1) = y
    split
    · split
      · exact y.deathRecords_sendExp _ _ _ _ _ _ _ _
      · rfl
    · split
      · rw [Dev.deathRecords_readArrived, Dev.deathRecords_lineLost]
      · exact y.deathRecords_readArrived _ _ _ _
  · have hdomain := x.deathRecords_xtsDomain (d.blockEntry (blockOfLine o.real.toNat)) o.real.toNat
    split <;> rename_i heq <;> rw [heq] at hdomain
    · exact (Dev.deathRecords_readArrived _ _ _ _ _).trans hdomain
    · rename_i dom y
      have hdecrypted : ((y.decrypt dom o.real.toNat (d.memNow o.port o.addr)).2.count (o.port / 4) 0x3010 1).deathRecords =
          x.deathRecords := ((Dev.deathRecords_count _ _ _ _).trans (y.deathRecords_decrypt _ _ _)).trans hdomain
      rw [Dev.deathRecords_readArrived]
      split
      · rw [Dev.deathRecords_report]
        split
        · exact hdecrypted
        · exact hdecrypted
      · exact hdecrypted

@[simp] theorem Dev.deathRecords_writeFails (d : Dev) (o : ExpOp) : (d.writeFails o).deathRecords = d.deathRecords := by
  have hfailed : (d.failedOver o).deathRecords = d.deathRecords := rfl
  rw [Dev.writeFails_eq, ← hfailed]
  generalize d.failedOver o = x
  split
  · rfl
  split
  · exact x.deathRecords_lineLost _ _
  split
  · rfl
  · exact x.deathRecords_markRepair _ _ _

/-- The completion of a discarded message writes no record that a death goes by. -/
@[simp] theorem Dev.deathRecords_completeDiscarded (d : Dev) (m : Msg) : (d.completeDiscarded m).deathRecords = d.deathRecords := by
  unfold Dev.completeDiscarded
  dsimp only
  split
  case h_5 => simp [Dev.failNeighbour]
  case h_6 | h_7 => split <;> simp
  case h_8 =>
    split
    · split <;> simp
    · rfl
  all_goals simp

@[simp] theorem Dev.deathRecords_flushEgress (d : Dev) (e : Egress) : (d.flushEgress e).deathRecords = d.deathRecords := by
  refine foldl_frame Dev.deathRecords _ _ (fun d m => ?_) d
  rw [Dev.discardMsg, Dev.deathRecords_completeDiscarded, Dev.deathRecords_emit, Dev.deathRecords_giveUp, Dev.deathRecords_unstore]
  rfl

/-- Flushing an egress takes no register of a port. -/
theorem Dev.steady_flushEgress (d : Dev) (e : Egress) {r : Reg} (h : r.steady = true) : (d.flushEgress e).reg r = d.reg r :=
  Dev.reg_of_deathRecords (congrArg DeathRecords.steady (d.deathRecords_flushEgress e)) h

/-- Where nothing is queued for an egress, nothing is discarded. -/
theorem Dev.flushEgress_empty {d : Dev} {e : Egress} (h : d.queuedFor e = false) : d.flushEgress e = d := by
  have hnone : ((d.sw.msgs ++ d.sw.blocked).filter fun m => decide (m.dest = e)) = [] := by
    simp only [Dev.queuedFor, Bool.or_eq_false_iff, List.any_eq_false] at h
    obtain ⟨hmsgs, hblocked⟩ := h
    refine List.filter_eq_nil_iff.2 fun m hm => ?_
    exact (List.mem_append.1 hm).elim (hmsgs m) (hblocked m)
  rw [Dev.flushEgress, hnone]
  rfl

end Sys2Proof.Machine
end

section
/-! PROOFS. The flags of HP_STATUS, and what tearing down a port writes, to its end (R214, R216, R217). -/

namespace Sys2Proof.Machine

/-! ### The fields of PRT_STATUS and HP_STATUS (Table CP-13) -/

/-- The levels and flags of HP_STATUS stand in bits 23 to 31. -/
theorem Reg.holds_hpStatus (p : Nat) {i : Nat} (hlow : 23 ≤ i) (hhigh : i ≤ 31) : (Reg.hpStatus p).holds i i = true := by
  interval_cases i <;> simp [Reg.holds, Reg.mask, Reg.layout, fieldMask]

/-- What describes a port's link stands in bits 8 to 23 of PRT_STATUS. -/
theorem Reg.holds_prtStatus_link (p : Nat) : (Reg.prtStatus p).holds 23 8 = true := by
  simp [Reg.holds, Reg.mask, Reg.layout, fieldMask]

/-- A flag of HP_STATUS keeps what it shows when a flag beside it is written. -/
theorem Dev.hpFlag_wr (d : Dev) (p j n : Nat) {i : Nat} (hlow : 23 ≤ i) (hhigh : i ≤ 31) (hne : i ≠ j) :
    (d.wr (.hpStatus p) j j n).bitOf (.hpStatus p) i = d.bitOf (.hpStatus p) i :=
  Dev.bitOf_wr_field d n (Reg.holds_hpStatus p hlow hhigh) (Nat.lt_or_gt_of_ne hne)

theorem Dev.hpFlag_wr_same (d : Dev) (p n : Nat) {i : Nat} (hlow : 23 ≤ i) (hhigh : i ≤ 31) :
    (d.wr (.hpStatus p) i i n).bitOf (.hpStatus p) i = decide (n % 2 = 1) :=
  Dev.bitOf_wr_same d n (Reg.holds_hpStatus p hlow hhigh)

/-- Writing HP_STATUS leaves every port's state and mode. -/
theorem Dev.hpStatus_wr_state (d : Dev) (p hi lo n q : Nat) : (d.wr (.hpStatus p) hi lo n).portState q = d.portState q :=
  Dev.rd_wr_ne _ _ _ _ _ _ (by simp)

theorem Dev.hpStatus_wr_mode (d : Dev) (p hi lo n q : Nat) : (d.wr (.hpStatus p) hi lo n).portMode q = d.portMode q :=
  Dev.rd_wr_ne _ _ _ _ _ _ (by simp)

/-- Entering a state leaves the flags of HP_STATUS but QUAR. -/
theorem Dev.enterPort_hpFlag (d : Dev) (p st reason : Nat) {i : Nat} (hlow : 23 ≤ i) (hhigh : i ≤ 31) (hne : i ≠ 26) :
    (d.enterPort p st reason).bitOf (.hpStatus p) i = d.bitOf (.hpStatus p) i := by
  rw [Dev.bitOf, Dev.enterPort_rd d p st reason _ i i (Reg.holds_hpStatus p hlow hhigh) rfl (by simp) fun _ => Nat.lt_or_gt_of_ne hne,
    Dev.bitOf]

/-- QUAR shows whether the port is in QUARANTINE. -/
theorem Dev.enterPort_quar (d : Dev) (p st reason : Nat) : (d.enterPort p st reason).bitOf (.hpStatus p) 26 = decide (st = 9) := by
  unfold Dev.enterPort
  extract_lets old r x
  have hquar : x.bitOf (.hpStatus p) 26 = decide (st = 9) := by
    refine (Dev.hpFlag_wr_same _ p _ (by decide) (by decide)).trans ?_
    split <;> simp [*]
  split
  · exact (Dev.bitOf_fabricEvent _ _ _ _ _ rfl).trans hquar
  · exact hquar

theorem Dev.enterPort_sw (d : Dev) (p st reason : Nat) : (d.enterPort p st reason).sw = d.sw := by
  unfold Dev.enterPort
  dsimp only
  split <;> simp

/-- The settle timer starts, and the port is in SETTLE. -/
theorem Dev.settles_shown (d : Dev) (p : Nat) :
    let t := ((d.startSettle p).enterPort p 8 0).shown
    t.portState p = 8 ∧ t.bitOf (.hpStatus p) 23 = true ∧ t.bitOf (.hpStatus p) 26 = false ∧ t.pool = d.pool ∧ t.sw = d.sw := by
  refine ⟨?_, ?_, ?_, ?_, ?_⟩
  · rw [Dev.portState_shown, Dev.enterPort_state _ _ _ _ (by decide)]
  · rw [Dev.bitOf_shown _ _ _ rfl, Dev.enterPort_hpFlag _ _ _ _ (by decide) (by decide) (by decide)]
    exact Dev.hpFlag_wr_same d p 1 (by decide) (by decide)
  · rw [Dev.bitOf_shown _ _ _ rfl, Dev.enterPort_quar]
    rfl
  · rw [Dev.shown_pool, Dev.enterPort_pool]
    rfl
  · rw [Dev.shown_sw, Dev.enterPort_sw]
    rfl

/-! ### Tearing a port down (R214, R217, Table CP-8a) -/

/-- A port whose link has been dropped and whose messages have been discarded. -/
def Dev.cutOff (d : Dev) (p : Fin 64) (settle : Bool) : Dev :=
  ((if settle then d.startSettle p else d).dropLink p).flushEgress (.port p)

/-- It is in TEARDOWN, and its record says what follows. -/
def Dev.tornDown (d : Dev) (p : Fin 64) (settle : Bool) (after : AfterTeardown) : Dev :=
  ((d.cutOff p settle).enterPort p 7 0).modPort p fun r => { r with after := after, readyOk := false, timeouts := 0 }

theorem Dev.startSettle_state (d : Dev) (p : Nat) (settle : Bool) :
    (if settle then d.startSettle p else d).portState p = d.portState p := by
  cases settle
  · rfl
  · exact Dev.hpStatus_wr_state d p 23 23 1 p

/-- A port that is not in TEARDOWN enters it, and the items of its mode follow. -/
theorem Dev.teardown_enters {d : Dev} {p : Fin 64} (h : d.portState p ≠ 7) (settle : Bool) (after : AfterTeardown) :
    d.teardown p settle after = (d.tornDown p settle after).teardownItems p (decide (d.portState p = 5 ∨ d.portState p = 6)) := by
  have hstate := d.startSettle_state p settle
  unfold Dev.teardown
  rw [dif_pos p.isLt]
  dsimp only
  rw [if_neg (by rwa [hstate]), hstate]
  rfl

/-- What the cut leaves of HP_STATUS: all but SETTLING. -/
theorem Dev.cutOff_hpFlag (d : Dev) (p : Fin 64) (settle : Bool) {i : Nat} (hlow : 23 ≤ i) (hhigh : i ≤ 31) :
    (d.cutOff p settle).bitOf (.hpStatus p) i = if i = 23 ∧ settle = true then true else d.bitOf (.hpStatus p) i := by
  have hdrop : ∀ x : Dev, ((x.dropLink p).flushEgress (.port p)).bitOf (.hpStatus p) i = x.bitOf (.hpStatus p) i := fun x =>
    (Dev.bitOf_eq_of_reg (Dev.steady_flushEgress _ _ rfl) i).trans (Dev.bitOf_wr_ne x 23 8 0 i (by simp))
  rw [Dev.cutOff, hdrop]
  cases settle with
  | false => simp
  | true =>
    by_cases hi : i = 23
    · subst hi
      exact (Dev.hpFlag_wr_same d p 1 (by decide) (by decide)).trans (by simp)
    · exact (Dev.hpFlag_wr d p 23 1 hlow hhigh hi).trans (by simp [hi])

theorem Dev.cutOff_link (d : Dev) (p : Fin 64) (settle : Bool) : (d.cutOff p settle).rd (.prtStatus p) 23 8 = 0 :=
  (Dev.rd_eq_of_reg (Dev.steady_flushEgress _ _ rfl) 23 8).trans ((Dev.rd_wr_same _ 0 (Reg.holds_prtStatus_link p)).trans rfl)

theorem Dev.cutOff_mode (d : Dev) (p : Fin 64) (settle : Bool) : (d.cutOff p settle).portMode p = d.portMode p := by
  have hdrop : ∀ x : Dev, ((x.dropLink p).flushEgress (.port p)).portMode p = x.portMode p := fun x =>
    (Dev.rd_eq_of_reg (Dev.steady_flushEgress _ _ rfl) 31 28).trans (Dev.wrPrtStatus_mode x p 23 8 0 p)
  rw [Dev.cutOff, hdrop]
  cases settle
  · rfl
  · exact Dev.hpStatus_wr_mode d p 23 23 1 p

/-- A port that has just entered TEARDOWN: its state, its flags, its link and its record. -/
theorem Dev.tornDown_fields (d : Dev) (p : Fin 64) (settle : Bool) (after : AfterTeardown) :
    let t := d.tornDown p settle after
    t.portState p = 7 ∧ t.portMode p = d.portMode p ∧ t.rd (.prtStatus p) 23 8 = 0 ∧
      (settle = true → t.bitOf (.hpStatus p) 23 = true) ∧ t.bitOf (.hpStatus p) 25 = d.bitOf (.hpStatus p) 25 ∧
      t.prec p = { (d.cutOff p settle).prec p with after := after, readyOk := false, timeouts := 0 } := by
  refine ⟨?_, ?_, ?_, fun hsettle => ?_, ?_, ?_⟩
  · rw [Dev.tornDown, Dev.modPort_state, Dev.enterPort_state _ _ _ _ (by decide)]
  · rw [Dev.tornDown, Dev.modPort_mode, Dev.enterPort_mode, Dev.cutOff_mode]
  · rw [Dev.tornDown, Dev.modPort_rd, Dev.enterPort_rd _ _ _ _ _ _ _ (Reg.holds_prtStatus_link p) rfl (by simp) (by simp), Dev.cutOff_link]
  · rw [Dev.tornDown, Dev.modPort_bit, Dev.enterPort_hpFlag _ _ _ _ (by decide) (by decide) (by decide),
      Dev.cutOff_hpFlag _ _ _ (by decide) (by decide), if_pos ⟨rfl, hsettle⟩]
  · rw [Dev.tornDown, Dev.modPort_bit, Dev.enterPort_hpFlag _ _ _ _ (by decide) (by decide) (by decide),
      Dev.cutOff_hpFlag _ _ _ (by decide) (by decide), if_neg (by simp)]
  · rw [Dev.tornDown, Dev.modPort_prec, Dev.enterPort_prec]

/-- The requests that wait at a PASS port's expander end as unsupported. -/
def Dev.passAborted (d : Dev) (p : Nat) : Dev :=
  (d.mgmt.ioPending.filter fun x => decide (x.1 = p)).foldl (fun d x => d.emit (.ioCpl x.2.1 x.2.2 1 0))
    { d with mgmt := { d.mgmt with ioPending := d.mgmt.ioPending.filter fun x => !decide (x.1 = p) } }

theorem Dev.teardownItems_pass {d : Dev} {p : Nat} (hmode : d.portMode p = 3) (bound : Bool) :
    d.teardownItems p bound = (d.passAborted p).modPort p fun r => { r with vppb := { r.vppb with
      linkUp := false, presence := true, dllChange := true, dpc := r.vppb.dpc || Config.dpcEnabled p } } := by
  unfold Dev.teardownItems
  rw [hmode]
  rfl

/-- The items of a PASS port take no register, and change its record in its virtual bridge alone, whose link is down (Table CP-8a). -/
theorem Dev.teardownItems_pass_frame {d : Dev} {p : Nat} (hmode : d.portMode p = 3) (bound : Bool) :
    (∀ r, (d.teardownItems p bound).reg r = d.reg r) ∧
      ∃ v : Vppb, v.linkUp = false ∧ (d.teardownItems p bound).prec p = { d.prec p with vppb := v } := by
  have hreg : ∀ r, (d.passAborted p).reg r = d.reg r := fun r => by
    unfold Dev.passAborted
    refine foldl_frame (fun d : Dev => d.reg r) _ _ (fun x y => ?_) _
    rfl
  have hprec : (d.passAborted p).prec p = d.prec p := by
    unfold Dev.passAborted
    refine foldl_frame (fun d : Dev => d.prec p) _ _ (fun x y => ?_) _
    rfl
  rw [Dev.teardownItems_pass hmode]
  refine ⟨fun r => (Dev.modPort_reg _ p _ r).trans (hreg r), ?_⟩
  rw [Dev.modPort_prec, hprec]
  exact ⟨_, rfl, rfl⟩

/-- A PASS port that is torn down, as the end of its command leaves it. -/
theorem Dev.teardown_pass {d : Dev} {p : Fin 64} (hmode : d.portMode p = 3) (hstate : d.portState p ≠ 7) (settle : Bool)
    (after : AfterTeardown) :
    let t := d.teardown p settle after
    t.portState p = 7 ∧ t.rd (.prtStatus p) 23 8 = 0 ∧ (settle = true → t.bitOf (.hpStatus p) 23 = true) ∧
      t.bitOf (.hpStatus p) 25 = d.bitOf (.hpStatus p) 25 ∧ (t.prec p).after = after ∧ (t.prec p).vppb.linkUp = false ∧
      (t.prec p).held = ((d.cutOff p settle).prec p).held := by
  obtain ⟨hentered, hsame, hlink, hsettling, hfault, hrecord⟩ := d.tornDown_fields p settle after
  rw [Dev.teardown_enters hstate]
  obtain ⟨hreg, v, hdown, hprec⟩ :=
    Dev.teardownItems_pass_frame (hsame.trans hmode) (decide (d.portState p = 5 ∨ d.portState p = 6))
  rw [hrecord] at hprec
  refine ⟨(Dev.rd_eq_of_reg (hreg _) 31 28).trans hentered, (Dev.rd_eq_of_reg (hreg _) 23 8).trans hlink,
    fun hsettle => (Dev.bitOf_eq_of_reg (hreg _) 23).trans (hsettling hsettle),
    (Dev.bitOf_eq_of_reg (hreg _) 25).trans hfault, ?_, ?_, ?_⟩
  · rw [hprec]
  · rw [hprec]
    exact hdown
  · rw [hprec]

/-- Where no PORT_REMOVE runs, a surprise removal takes none. -/
theorem Dev.dropRemoval_none {d : Dev} {p : Nat} (h : (d.prec p).removal = none) : d.dropRemoval p = d := by
  rw [Dev.dropRemoval, h]

theorem Dev.prec_report (d : Dev) (src cls detail q : Nat) : (d.report src cls detail).prec q = d.prec q := by
  rw [Dev.prec, Dev.report_port, Dev.prec]

/-- A power fault that is raised leaves mode, state and what a removal waits for. -/
theorem Dev.raisePowerFault_frame (d : Dev) (p : Nat) :
    (d.raisePowerFault p).portMode p = d.portMode p ∧ (d.raisePowerFault p).portState p = d.portState p ∧
      ((d.raisePowerFault p).prec p).removal = (d.prec p).removal := by
  unfold Dev.raisePowerFault
  split
  · exact ⟨rfl, rfl, rfl⟩
  · refine ⟨?_, ?_, ?_⟩
    · exact (Dev.rd_report _ _ _ _ _ _ _ rfl).trans (Dev.hpStatus_wr_mode d p 25 25 1 p)
    · exact (Dev.rd_report _ _ _ _ _ _ _ rfl).trans (Dev.hpStatus_wr_state d p 25 25 1 p)
    · rw [Dev.prec_report, Dev.modPort_prec]
      rfl

/-! ### The end of a teardown (Table CP-6) -/

/-- A port that no command waits for. -/
def Dev.unawaited (d : Dev) (p : Nat) : Dev := d.modPort p fun r => { r with removal := none, resetBy := none }

/-- Where a port goes whose teardown is over. -/
def Dev.leavesTeardown (d : Dev) (p : Nat) : AfterTeardown → Dev
  | .quarantine => d.enterPort p 9 0
  | .failed n => d.enterFailed p n
  | .settle | .idle => d.enterPort p (if d.settling p then 8 else 1) 0

theorem Dev.teardownAnswers_none {d : Dev} {p : Nat} (hremoval : (d.prec p).removal = none) (hreset : (d.prec p).resetBy = none) :
    d.teardownAnswers p = d.unawaited p := by
  unfold Dev.teardownAnswers
  dsimp only
  rw [hremoval, hreset]
  rfl

/-- A teardown that is over, where no command waits for it, goes where its record says. -/
theorem exec_teardownComplete_ends {p : Fin 64} {s : State} (hstate : s.dev.portState p = 7) (hdone : s.dev.teardownDone p = true)
    (hremoval : (s.dev.prec p).removal = none) (hreset : (s.dev.prec p).resetBy = none) {after : AfterTeardown}
    (hafter : (s.dev.prec p).after = after) :
    exec (.teardownComplete p) s = .next (s.onto ((s.dev.unawaited p).leavesTeardown p after)) := by
  have hrecord : ((s.dev.unawaited p).prec p).after = after := by rw [Dev.unawaited, Dev.modPort_prec, hafter]
  refine exec_onto (exec_teardownComplete p s) ((if_neg (not_not_intro hstate)).trans ((if_pos hdone).trans ?_))
  rw [Dev.teardownEnd, Dev.teardownAnswers_none hremoval hreset, hrecord]
  cases after with
  | quarantine => rfl
  | failed n => rfl
  | settle => exact (apply_ite (fun st => (s.dev.unawaited p).enterPort p st 0) _ 8 1).symm
  | idle => exact (apply_ite (fun st => (s.dev.unawaited p).enterPort p st 0) _ 8 1).symm

/-- A port goes on to SETTLE while its settle timer runs, else to IDLE. -/
theorem Dev.leavesTeardown_settles {d : Dev} {p : Nat} {after : AfterTeardown} (h : after = .settle ∨ after = .idle) :
    d.leavesTeardown p after = d.enterPort p (if d.settling p then 8 else 1) 0 := by
  rcases h with rfl | rfl <;> rfl

end Sys2Proof.Machine
end

section
/-! PROOFS. What removal, faults and commands write on a port's way through TEARDOWN, SETTLE, QUARANTINE and FAILED (R212 to R216, R220,
R297). Settles O36. -/

namespace Sys2Proof.Machine

/-! ### Faults, chatter and removals that have no effect (R212, R213, R214) -/

theorem Dev.removal_ignored {d : Dev} {p : Nat}
    (h : d.portState p < 2 ∨ (8 ≤ d.portState p ∧ (d.portState p = 10 → d.bitOf (.hpStatus p) 31 = false))) : d.removal p = d := by
  unfold Dev.removal
  dsimp only
  rw [if_neg (by omega), if_neg]
  rintro ⟨hfailed, habsent⟩
  obtain hlow | ⟨_, hpresent⟩ := h
  · omega
  · simp [hpresent hfailed] at habsent

/-- A port does not chatter while the chain does not serve, or with at most 16 edges. -/
theorem Dev.chatters_false {d : Dev} {p : Nat}
    (h : d.bitOf .sbsCtl 31 = false ∨ d.bitOf .sbsStatus 31 = true ∨ (d.prec p).edges.length ≤ 16) : d.chatters p = false := by
  have hrecent : (within10ms d.now (d.prec p).edges).length ≤ (d.prec p).edges.length := List.length_filter_le _ _
  unfold Dev.chatters Dev.chainServes
  obtain hoff | hfrozen | hfew := h
  · simp [hoff]
  · simp [hfrozen]
  · rw [decide_eq_false (by omega), Bool.and_false]

/-! ### FCLR (R210, R213) -/

/-- Re-arming the power fault writes PFAULT alone, and no port's record. -/
theorem Dev.rearm_frame (d : Dev) (p : Nat) :
    (d.rearm p).port = d.port ∧
      (∀ i, 23 ≤ i → i ≤ 31 → i ≠ 25 → (d.rearm p).bitOf (.hpStatus p) i = d.bitOf (.hpStatus p) i) ∧
      ∀ r : Reg, r ≠ .hpStatus p → (d.rearm p).reg r = d.reg r := by
  unfold Dev.rearm
  split
  · exact ⟨rfl, fun i hlow hhigh hne => d.hpFlag_wr p 25 0 hlow hhigh hne, fun r hr => d.reg_wr_ne _ _ _ hr⟩
  · exact ⟨rfl, fun _ _ _ _ => rfl, fun _ _ => rfl⟩

/-- Once FCLR has been written, PFAULT clears where PWRFLT_B is inactive. -/
theorem Dev.rearm_pfault {d : Dev} {p : Nat} (h : (d.prec p).fclr = true) :
    (d.rearm p).bitOf (.hpStatus p) 25 = (d.bitOf (.hpStatus p) 25 && !d.bitOf (.hpStatus p) 28) := by
  unfold Dev.rearm
  rw [h, Bool.true_and]
  split
  next hinactive =>
    rw [hinactive, Bool.not_true, Bool.and_false]
    exact d.hpFlag_wr_same p 0 (by decide) (by decide)
  next hactive => simp [hactive]

/-- FCLR has been written: NOISE is clear, and the port's record notes it. -/
def Dev.fclrNoted (d : Dev) (p : Nat) : Dev := (d.wr (.hpStatus p) 24 24 0).modPort p fun r => { r with fclr := true }

theorem Dev.fclrNoted_flag (d : Dev) (p : Nat) {i : Nat} (hlow : 23 ≤ i) (hhigh : i ≤ 31) (hne : i ≠ 24) :
    (d.fclrNoted p).bitOf (.hpStatus p) i = d.bitOf (.hpStatus p) i :=
  (Dev.modPort_bit _ _ _ _ _).trans (d.hpFlag_wr p 24 0 hlow hhigh hne)

theorem hpFclr_eq (p : Nat) (d : Dev) : hpFclr p d = (d.fclrNoted p).rearm p := rfl

/-- FCLR clears NOISE, and PFAULT where PWRFLT_B is inactive; it writes nothing beside HP_STATUS and its own note. -/
theorem hpFclr_fields (d : Dev) (p : Nat) :
    let t := hpFclr p d
    t.bitOf (.hpStatus p) 24 = false ∧ (t.prec p).fclr = true ∧
      t.bitOf (.hpStatus p) 25 = (d.bitOf (.hpStatus p) 25 && !d.bitOf (.hpStatus p) 28) ∧
      ∀ r : Reg, r ≠ .hpStatus p → t.reg r = d.reg r := by
  have hnoted : ((d.fclrNoted p).prec p).fclr = true := by rw [Dev.fclrNoted, Dev.modPort_prec]
  obtain ⟨hport, hflags, hothers⟩ := (d.fclrNoted p).rearm_frame p
  rw [hpFclr_eq]
  refine ⟨?_, ?_, ?_, fun r hr => (hothers r hr).trans (Dev.reg_wr_ne d _ _ _ hr)⟩
  · rw [hflags 24 (by decide) (by decide) (by decide), Dev.fclrNoted, Dev.modPort_bit, Dev.hpFlag_wr_same _ _ _ (by decide) (by decide)]
    rfl
  · rw [Dev.prec, hport]
    exact hnoted
  · rw [Dev.rearm_pfault hnoted, Dev.fclrNoted_flag _ _ (by decide) (by decide) (by decide),
      Dev.fclrNoted_flag _ _ (by decide) (by decide) (by decide)]

/-! ### PORT_REMOVE and PORT_RELEASE (R220, R297) -/

theorem port_form {input : List Byte} (hlength : input.length = 4) (hport : field input 0 1 < 64) (hzero : field input 1 3 = 0) :
    decide (input.length = 4 ∧ field input 0 1 < 64 ∧ field input 1 3 = 0) = true := decide_eq_true ⟨hlength, hport, hzero⟩

/-- A refusal that R220 gives is one of two codes, with a VENDOR_STATUS up to 3. -/
theorem Dev.removalPlan_refused {d : Dev} {p rc vendor : Nat} (h : d.removalPlan p = .refused rc vendor) :
    rc < 65536 ∧ vendor < 65536 := by
  unfold Dev.removalPlan at h
  split at h
  · cases h
  split at h
  · cases h
  split at h
  · cases h
  split at h
  · split at h
    · cases h
    · cases h
      refine ⟨by decide, ?_⟩
      split <;> decide
  dsimp only at h
  split at h
  · cases h
    decide
  split at h
  · cases h
    decide
  · cases h

/-- What PORT_REMOVE does by its plan. -/
def Dev.followsPlan (d : Dev) (path : Path) (p : Nat) : RemovalPlan → Dev
  | .refused rc vendor => d.complete path 0xC030 rc vendor []
  | .atOnce => (d.drain p none).finish path 0xC030 rcSuccess
  | .leave i w c => d.background path 0xC030 fun d => (d.modSet i fun s => s.withCopy w c false false).drain p (some path)
  | .evacuate => d.background path 0xC030 fun d => (d.drain p (some path)).evacuate p

/-- PORT_REMOVE of an ACTIVE POOL port that no other command waits for follows its plan. -/
theorem exec_portRemove_plans {path : Path} {input : List Byte} {s : State} (htakes : s.dev.takesStoluo path 0xC030)
    (hform : decide (input.length = 4 ∧ field input 0 1 < 64 ∧ field input 1 3 = 0) = true)
    (hremoval : (s.dev.prec (field input 0 1)).removal = none) (hreset : (s.dev.prec (field input 0 1)).resetBy = none)
    (hmode : s.dev.portMode (field input 0 1) = 2) (hactive : s.dev.portState (field input 0 1) = 5) {plan : RemovalPlan}
    (hplan : s.dev.removalPlan (field input 0 1) = plan) :
    exec (.portRemove path input) s = .next (s.onto (s.dev.followsPlan path (field input 0 1) plan)) := by
  refine exec_stoluo htakes (exec_portRemove path input s) hform ?_
  dsimp only
  rw [if_neg (by simp [hremoval, hreset]), if_neg (by simp [hmode, hactive]), hplan]
  cases plan <;> rfl

/-! ### The obligation -/

/-- Settles O36: an ACTIVE PASS port is torn down by one operation, whichever happening leads to it; each other clause is one change of
state, the fields that are written with it, or none. -/
theorem portsAreTornDownAndSettle : Obligations.PortsAreTornDownAndSettle := by
  unfold Obligations.PortsAreTornDownAndSettle
  refine ⟨?removal, fun p s hidle => exec_onto (exec_removalRecognised p s) (Dev.removal_ignored hidle), ?removalFailed, ?settle,
    ?quarantine, ?failed,
    fun p s hstate hgoing => exec_onto (exec_teardownComplete p s) ((if_neg (not_not_intro hstate)).trans (if_neg (by simp [hgoing]))),
    ?expiry, ?chatter, ?chatterNot, fun p s hfine => exec_onto (exec_pwrfltAccepted p s) (if_pos (by simp [hfine])), ?power, ?powerIdle,
    ?qclr, ?fclr, ?retry,
    fun p s hfault => exec_onto (exec_hpRetry p s) (if_neg fun h => h.2 hfault),
    ?drained, ?remove, ?removeRefused, ?release, ?releaseRefused⟩
  case removal =>
    intro p s hmode hactive hnone
    have hexec : exec (.removalRecognised p) s = .next (s.onto (s.dev.teardown p true .settle)) :=
      exec_onto (exec_removalRecognised p s) ((if_pos (by omega)).trans (by rw [Dev.dropRemoval_none hnone]))
    obtain ⟨hstate, hlink, hsettling, _, hafter, hdown, _⟩ := Dev.teardown_pass hmode (by omega) true .settle
    refine yields_of_eq hexec ⟨(Dev.portState_shown _ _).trans hstate, (Dev.bitOf_shown _ _ _ rfl).trans (hsettling rfl), ?_,
      (Dev.rd_shown _ _ _ _ rfl).trans hlink, ?_⟩
    · rw [Dev.prec_shown, hafter]
    · rw [Dev.prec_shown, hdown]
  case removalFailed =>
    intro p s hfailed habsent
    obtain ⟨hstate, hsettling, _, hpool, hsw⟩ := s.dev.settles_shown p
    exact yields_of_eq (exec_onto (exec_removalRecognised p s) ((if_neg (by omega)).trans (if_pos ⟨hfailed, habsent⟩)))
      ⟨hstate, hsettling, hpool, hsw⟩
  case settle =>
    intro p s hstate hdone hremoval hreset hafter
    have hexec := exec_teardownComplete_ends hstate hdone hremoval hreset rfl
    rw [Dev.leavesTeardown_settles hafter] at hexec
    refine yields_of_eq hexec ⟨?_, ?_⟩
    · rw [Dev.portState_shown, Dev.enterPort_state _ _ _ _ (by split <;> decide)]
      rfl
    · rw [Dev.shown_pool, Dev.enterPort_pool]
      rfl
  case quarantine =>
    intro p s hstate hdone hremoval hreset hafter
    refine yields_of_eq (exec_teardownComplete_ends hstate hdone hremoval hreset hafter) ⟨?_, ?_, ?_⟩
    · rw [Dev.portState_shown, Dev.leavesTeardown, Dev.enterPort_state _ _ _ _ (by decide)]
    · rw [Dev.bitOf_shown _ _ _ rfl, Dev.leavesTeardown, Dev.enterPort_quar]
      rfl
    · rw [Dev.shown_pool, Dev.leavesTeardown, Dev.enterPort_pool]
      rfl
  case failed =>
    intro p n s hstate hdone hremoval hreset hafter
    obtain ⟨hentered, hreason⟩ := (s.dev.unawaited p).enterFailed_state p n
    exact yields_of_eq (exec_teardownComplete_ends hstate hdone hremoval hreset hafter)
      ⟨(Dev.portState_shown _ _).trans hentered, (Dev.rd_shown _ _ _ _ rfl).trans hreason⟩
  case expiry =>
    intro p s hsettling
    have hcleared : (s.dev.wr (.hpStatus p) 23 23 0).bitOf (.hpStatus p) 23 = false := Dev.hpFlag_wr_same _ p 0 (by decide) (by decide)
    have hstate := s.dev.hpStatus_wr_state p 23 23 0 p
    refine yields_of_eq (exec_onto (exec_settleExpiry p s) (if_pos hsettling)) ?_
    dsimp only
    rw [hstate]
    by_cases hsettle : s.dev.portState p = 8
    · rw [if_pos hsettle, if_pos hsettle]
      obtain ⟨hidle, hregs, _⟩ := (s.dev.wr (.hpStatus p) 23 23 0).enterPort_shown p (st := 1) (by decide)
      refine ⟨?_, hidle, hregs⟩
      rw [Dev.bitOf_shown _ _ _ rfl, Dev.enterPort_hpFlag _ _ _ _ (by decide) (by decide) (by decide), hcleared]
    · rw [if_neg hsettle, if_neg hsettle]
      exact ⟨(Dev.bitOf_shown _ _ _ rfl).trans hcleared, (Dev.portState_shown _ _).trans hstate,
        Dev.onlyRegs_shown (by simp [Dev.onlyRegs])⟩
  case chatter =>
    intro p s hchatters hmode hactive hnone
    have hexec : exec (.chatterDetected p) s = .next (s.onto
        ((s.dev.teardown p true .quarantine).report (portSource p) (openClass 212) 9)) :=
      exec_onto (exec_chatterDetected p s) ((if_neg (by simp [hchatters, hactive])).trans (by rw [Dev.dropRemoval_none hnone]))
    obtain ⟨hstate, _, hsettling, _, hafter, _, _⟩ := Dev.teardown_pass hmode (by omega) true .quarantine
    refine yields_of_eq hexec ⟨?_, ?_, ?_⟩
    · rw [Dev.portState_shown, Dev.portState_report, hstate]
    · rw [Dev.bitOf_shown _ _ _ rfl, Dev.bitOf_report _ _ _ _ _ _ rfl, hsettling rfl]
    · rw [Dev.prec_shown, Dev.prec_report, hafter]
  case chatterNot =>
    intro p s hquiet
    refine exec_onto (exec_chatterDetected p s) (if_pos ?_)
    rcases hquiet with hoff | hquarantined | hquiet
    · exact .inl hoff
    · exact .inr (.inl hquarantined)
    · exact .inr (.inr (by simp [Dev.chatters_false hquiet]))
  case power =>
    intro p s hfaulty hmode hactive hnone
    obtain ⟨hsameMode, hsameState, hsameRemoval⟩ := s.dev.raisePowerFault_frame p
    have hexec : exec (.pwrfltAccepted p) s = .next (s.onto ((s.dev.raisePowerFault p).teardown p false (.failed 2))) :=
      exec_onto (exec_pwrfltAccepted p s) ((if_neg (by simp [hfaulty])).trans ((if_pos (by omega)).trans
        (by rw [Dev.dropRemoval_none (hsameRemoval.trans hnone)])))
    obtain ⟨hstate, _, _, hfault, hafter, _, _⟩ := Dev.teardown_pass (hsameMode.trans hmode) (by omega) false (.failed 2)
    refine yields_of_eq hexec ⟨(Dev.portState_shown _ _).trans hstate, ?_, ?_⟩
    · rw [Dev.bitOf_shown _ _ _ rfl, hfault, Dev.raisePowerFault_bit]
    · rw [Dev.prec_shown, hafter]
  case powerIdle =>
    intro p s hfaulty hidle hstarts
    exact yields_of_eq (exec_onto (exec_pwrfltAccepted p s) ((if_neg (by simp [hfaulty])).trans ((if_neg (by omega)).trans
      (if_pos ⟨hidle, hstarts⟩)))) (s.dev.powerFault_shown p)
  case qclr =>
    intro p s hquarantined
    obtain ⟨hstate, hsettling, hquar, hpool, _⟩ := s.dev.settles_shown p
    exact yields_of_eq (exec_onto (exec_hpQclr p s) (if_pos hquarantined)) ⟨hstate, hsettling, hquar, hpool⟩
  case fclr =>
    intro p s
    obtain ⟨hnoise, hnoted, hpfault, hothers⟩ := hpFclr_fields s.dev p
    refine yields_of_eq (exec_onto (exec_hpFclr p s) rfl) ⟨(Dev.bitOf_shown _ _ _ rfl).trans hnoise, ?_,
      (Dev.bitOf_shown _ _ _ rfl).trans hpfault, ?_, fun r hr hshow => (Dev.reg_shown _ _ hshow).trans (hothers r hr)⟩
    · rw [Dev.prec_shown, hnoted]
    · exact (Dev.portState_shown _ _).trans (Dev.rd_eq_of_reg (hothers _ (by simp)) 31 28)
  case retry =>
    intro p s hfailed hrearmed
    obtain ⟨hidle, hregs, _⟩ := s.dev.enterPort_shown p (st := 1) (by decide)
    refine yields_of_eq (exec_onto (exec_hpRetry p s) (if_pos ⟨hfailed, by simp [hrearmed]⟩)) ⟨hidle, ?_, hregs⟩
    rw [Dev.rd_shown _ _ _ _ rfl, Dev.enterPort_reason]
    rfl
  case drained =>
    intro p s hdrain hmode hempty hnoOps hunqueued
    let d := s.dev.modPort p fun r => { r with held := decide (s.dev.portMode p = 2) }
    have hexec : exec (.drainComplete p) s = .next (s.onto (d.teardown p false .idle)) :=
      exec_onto (exec_drainComplete p s) (if_pos ⟨hdrain, hempty, by simpa using hnoOps, by simp [hunqueued]⟩)
    have hcut : (d.cutOff p false).prec p = d.prec p := by
      rw [Dev.cutOff, Dev.flushEgress_empty (d := (if false then d.startSettle p else d).dropLink p) hunqueued]
      rfl
    have hstate : d.portState p ≠ 7 := fun h => absurd (h.symm.trans hdrain) (by decide)
    obtain ⟨htorn, _, _, _, hafter, _, hheld⟩ := Dev.teardown_pass (d := d) hmode hstate false .idle
    refine yields_of_eq hexec ⟨(Dev.portState_shown _ _).trans htorn, ?_, ?_⟩
    · rw [Dev.prec_shown, hafter]
    · rw [Dev.prec_shown, hheld, hcut, Dev.modPort_prec]
      simp [hmode]
  case remove =>
    intro path input s htakes hlength hport hzero p hremoval hreset hmode hactive hplan
    refine yields_of_eq (exec_portRemove_plans htakes (port_form hlength hport hzero) hremoval hreset hmode hactive hplan)
      ⟨?_, Dev.replied_finish (by decide), ?_⟩
    · rw [Dev.portState_shown, Dev.portState, Dev.followsPlan, Dev.rd_finish _ _ _ _ _ _ _ rfl rfl]
      exact Dev.enterPort_state _ _ _ _ (by decide)
    · rw [Dev.shown_pool, Dev.followsPlan, Dev.finish_pool, Dev.drain, Dev.enterPort_pool]
      rfl
  case removeRefused =>
    intro path input rc vendor s htakes hlength hport hzero p hremoval hreset hmode hactive hplan
    obtain ⟨hrc, hvendor⟩ := Dev.removalPlan_refused hplan
    refine yields_of_eq (exec_portRemove_plans htakes (port_form hlength hport hzero) hremoval hreset hmode hactive hplan)
      ⟨?_, Dev.replied_shown (Dev.replied_complete _ _ _ _ _ _ hrc hvendor), ?_⟩
    · rw [Dev.portState_shown, Dev.portState, Dev.followsPlan, Dev.rd_complete _ _ _ _ _ _ _ _ _ rfl rfl]
      exact hactive
    · rw [Dev.shown_pool, Dev.followsPlan, Dev.complete_pool]
  case release =>
    intro path input s htakes hlength hport hzero p hheld hidle
    refine yields_stoluo htakes rfl (port_form hlength hport hzero) ?_
    dsimp only
    rw [if_pos (by rw [hheld, hidle]; rfl)]
    refine ⟨?_, ?_, Dev.replied_finish (by decide), ?_⟩
    · rw [Dev.prec_shown, Dev.prec, Dev.finish_port]
      exact congrArg PortRec.held (Dev.modPort_prec _ _ _)
    · rw [Dev.portState_shown, Dev.portState, Dev.rd_finish _ _ _ _ _ _ _ rfl rfl]
      exact hidle
    · rw [Dev.shown_pool, Dev.finish_pool]
      rfl
  case releaseRefused =>
    intro path input s htakes hlength hport hzero hfree
    refine yields_stoluo htakes rfl (port_form hlength hport hzero) ?_
    dsimp only
    rw [if_neg (by simp [hfree])]
    exact ⟨Dev.replied_finish (by decide), Dev.onlyRead_end⟩

end Sys2Proof.Machine
end

section
/-! PROOFS. The sideband chain: its frames, its filter and RESUME, and an expander's timeouts and records (R208 to R211, R218, R219).
Settles O37. -/

namespace Sys2Proof.Machine

/-! ### Frames (R208, R211) -/

/-- Driving a port's outputs writes HP_STATUS alone, beside the level of PRSNT_B. -/
theorem Dev.driveOutputs_frame (d : Dev) (p : Nat) :
    (d.driveOutputs p).port = d.port ∧ (∀ q, (d.driveOutputs p).bitOf (.hpStatus q) 31 = d.bitOf (.hpStatus q) 31) ∧
      ∀ r : Reg, (∀ q, r ≠ .hpStatus q) → (d.driveOutputs p).reg r = d.reg r := by
  have hbit : ∀ (x : Dev) (i n q : Nat), i < 31 → (x.wr (.hpStatus p) i i n).bitOf (.hpStatus q) 31 = x.bitOf (.hpStatus q) 31 :=
    fun x i n q hi => Dev.bitOf_wr_field x n (Reg.holds_hpStatus q (by decide) (by decide)) (.inr hi)
  unfold Dev.driveOutputs
  split
  · refine ⟨rfl, fun q => ?_, fun r hr => ?_⟩
    · exact (hbit _ 29 _ q (by decide)).trans (hbit _ 30 _ q (by decide))
    · exact (Dev.reg_wr_ne _ _ _ _ (hr p)).trans (Dev.reg_wr_ne _ _ _ _ (hr p))
  · exact ⟨rfl, fun _ => rfl, fun _ _ => rfl⟩

/-- Every port's outputs driven, from a list of ports. -/
theorem Dev.driveAll_frame (d : Dev) (l : List Nat) :
    let t := l.foldl (fun d p => d.driveOutputs p) d
    t.port = d.port ∧ (∀ q, t.bitOf (.hpStatus q) 31 = d.bitOf (.hpStatus q) 31) ∧
      ∀ r : Reg, (∀ q, r ≠ .hpStatus q) → t.reg r = d.reg r := by
  refine ⟨foldl_frame Dev.port _ l (fun d p => ?_) d,
    fun q => foldl_frame (fun d : Dev => d.bitOf (.hpStatus q) 31) _ l (fun d p => ?_) d,
    fun r hr => foldl_frame (fun d : Dev => d.reg r) _ l (fun d p => ?_) d⟩ <;> obtain ⟨hport, hlevel, hreg⟩ := d.driveOutputs_frame p
  · exact hport
  · exact hlevel q
  · exact hreg r hr

/-- The frame that goes out depends on the ports' modes and on HP_STATUS. -/
theorem Dev.outFrame_congr {d d' : Dev} (hcfg : ∀ p, d'.reg (.prtCfg p) = d.reg (.prtCfg p))
    (hhp : ∀ p, d'.reg (.hpStatus p) = d.reg (.hpStatus p)) : d'.outFrame = d.outFrame := by
  have hmode : ∀ p, d'.portMode p = d.portMode p := fun p => Dev.rd_eq_of_reg (hcfg p) 31 28
  have hlevel : ∀ p i, d'.rd (.hpStatus p) i i = d.rd (.hpStatus p) i i := fun p i => Dev.rd_eq_of_reg (hhp p) i i
  simp only [Dev.outFrame, hmode, hlevel]

/-- The ports whose presence a frame shows changed depend on their states and modes and on the accepted levels of PRSNT_B. -/
theorem Dev.presenceChanges_congr {d d' : Dev} (hcfg : ∀ p, d'.reg (.prtCfg p) = d.reg (.prtCfg p))
    (hstatus : ∀ p, d'.reg (.prtStatus p) = d.reg (.prtStatus p)) (hlevel : ∀ p, d'.bitOf (.hpStatus p) 31 = d.bitOf (.hpStatus p) 31)
    (frame : BitVec 256) : d'.presenceChanges frame = d.presenceChanges frame := by
  have hmode : ∀ p, d'.portMode p = d.portMode p := fun p => Dev.rd_eq_of_reg (hcfg p) 31 28
  have hstate : ∀ p, d'.portState p = d.portState p := fun p => Dev.rd_eq_of_reg (hstatus p) 31 28
  simp only [Dev.presenceChanges, Dev.scannedLines, hmode, hstate, hlevel]

theorem Reg.holds_sbsStatus_fault : Reg.sbsStatus.holds 31 31 = true := by decide

/-- A scan has begun: it is counted in SBS_STATUS, and, unless the chain is frozen, since the filter started. -/
def Dev.scanned (d : Dev) (n : Nat) : Dev := ({ d with port := { d.port with scans := d.port.scans + n } }).bumpWrap .sbsStatus 30 0 1

theorem Dev.scanned_reg (d : Dev) (n : Nat) {r : Reg} (h : r ≠ .sbsStatus) : (d.scanned n).reg r = d.reg r :=
  Dev.reg_wr_ne _ _ _ _ h

/-- A frozen chain sends its frame, and no more. -/
theorem sbsScan_frozen {d : Dev} (hon : d.bitOf .sbsCtl 31 = true) (hfrozen : d.bitOf .sbsStatus 31 = true) (frame : BitVec 256) :
    sbsScan frame d = (d.scanned 0).emit (.sbs d.outFrame) := by
  have hframe : (d.scanned 0).outFrame = d.outFrame :=
    Dev.outFrame_congr (fun p => d.scanned_reg 0 (by simp)) fun p => d.scanned_reg 0 (by simp)
  unfold sbsScan
  rw [if_neg (by simp [hon]), hfrozen, ← hframe]
  rfl

/-- The device with every port's outputs driven and its frame sent. -/
def Dev.framed (d : Dev) : Dev :=
  let t := (List.range 64).foldl (fun d p => d.driveOutputs p) (d.scanned 1)
  t.emit (.sbs t.outFrame)

/-- A frame in which too many ports change presence freezes the chain (R211). -/
theorem sbsScan_implausible {d : Dev} (hon : d.bitOf .sbsCtl 31 = true) (hserves : d.bitOf .sbsStatus 31 = false) {frame : BitVec 256}
    (hmany : 8 < d.presenceChanges frame) : sbsScan frame d = (d.framed.wr .sbsStatus 31 31 1).report 0x390 2 0 := by
  obtain ⟨_, hlevel, hreg⟩ := (d.scanned 1).driveAll_frame (List.range 64)
  have hcount : d.framed.presenceChanges frame = d.presenceChanges frame :=
    Dev.presenceChanges_congr (fun p => (hreg _ (by simp)).trans (d.scanned_reg 1 (by simp)))
      (fun p => (hreg _ (by simp)).trans (d.scanned_reg 1 (by simp)))
      (fun p => (hlevel p).trans (Dev.bitOf_eq_of_reg (d.scanned_reg 1 (by simp)) 31)) frame
  rw [← hcount] at hmany
  unfold sbsScan
  rw [if_neg (by simp [hon]), hserves]
  exact if_pos hmany

theorem Dev.framed_scans (d : Dev) : d.framed.port.scans = d.port.scans + 1 :=
  congrArg PortState.scans ((d.scanned 1).driveAll_frame (List.range 64)).1

/-! ### The filter (R209) -/

theorem PortRec.runOf_setRun (r : PortRec) (line n : Nat) : (r.setRun line n).runOf line = n := by
  unfold PortRec.setRun PortRec.runOf
  split
  · rfl
  · split <;> rfl

/-- The level of a scanned line stands among the flags of HP_STATUS. -/
theorem lineBit_flag (line : Nat) : 28 ≤ lineBit line ∧ lineBit line ≤ 31 := by
  unfold lineBit
  split
  · decide
  · split <;> decide

/-- A line's level is the accepted one, and its filter is empty. -/
def Dev.shows (d : Dev) (p line : Nat) (level : Bool) : Prop :=
  d.bitOf (.hpStatus p) (lineBit line) = level ∧ (d.prec p).runOf line = 0

/-- It stays so where neither the level nor the filters of the port change. -/
theorem Dev.shows.of_same {d d' : Dev} {p line : Nat} {level : Bool} (h : d.shows p line level)
    (hbit : d'.bitOf (.hpStatus p) (lineBit line) = d.bitOf (.hpStatus p) (lineBit line)) (hrun : (d'.prec p).run = (d.prec p).run) :
    d'.shows p line level := by
  obtain ⟨hlevel, hempty⟩ := h
  exact ⟨hbit.trans hlevel, by rwa [PortRec.runOf, hrun]⟩

/-- A new level that is accepted is shown; what else its acceptance writes is beside it. -/
theorem Dev.shows_acceptLevel (d : Dev) (p line : Nat) (level : Bool) : (d.acceptLevel p line level).shows p line level := by
  obtain ⟨hlow, hhigh⟩ := lineBit_flag line
  unfold Dev.acceptLevel
  extract_lets written released rearmed edges
  have hwritten : written.shows p line level := by
    refine ⟨(Dev.hpFlag_wr_same d p _ (by omega) hhigh).trans (by cases level <;> rfl), ?_⟩
    rw [Dev.modPort_prec, PortRec.runOf_setRun]
  have hreleased : released.shows p line level := by
    unfold released
    split
    · exact hwritten.of_same rfl (by rw [Dev.modPort_prec])
    · exact hwritten
  have hrearmed : rearmed.shows p line level := by
    unfold rearmed
    split
    · obtain ⟨hport, hflags, _⟩ := released.rearm_frame p
      exact hreleased.of_same (hflags _ (by omega) hhigh (by omega)) (by rw [Dev.prec, hport, Dev.prec])
    · exact hreleased
  split
  · exact hrearmed.of_same (Dev.bitOf_wr_field _ _ (Reg.holds_hpStatus p (by omega) hhigh) (.inr (by omega)))
      ((congrArg PortRec.run (Dev.modPort_prec rearmed p fun r => { r with edges := edges })).trans rfl)
  · exact hrearmed

/-! ### RESUME (R211) -/

theorem Dev.modPort_prec_ne (d : Dev) {p q : Nat} (f : PortRec → PortRec) (h : q ≠ p) : (d.modPort p f).prec q = d.prec q :=
  tgetD_tset_ne _ _ _ h

/-- The filters of the ports of a list start again. -/
def Dev.filtersRestarted (d : Dev) (l : List Nat) : Dev := l.foldl (fun d p => d.modPort p fun r => { r with run := (0, 0, 0) }) d

theorem Dev.filtersRestarted_reg (d : Dev) (l : List Nat) (r : Reg) : (d.filtersRestarted l).reg r = d.reg r :=
  foldl_frame (fun d : Dev => d.reg r) (fun d p => d.modPort p fun r => { r with run := (0, 0, 0) }) l (fun d p => d.modPort_reg p _ r) d

theorem Dev.filtersRestarted_pool (d : Dev) (l : List Nat) : (d.filtersRestarted l).pool = d.pool :=
  foldl_frame Dev.pool (fun d p => d.modPort p fun r => { r with run := (0, 0, 0) }) l (fun _ _ => rfl) d

/-- The ports of the list have an empty filter, and so have others that had one. -/
theorem Dev.filtersRestarted_run (l : List Nat) (d : Dev) (p : Nat) (h : p ∈ l ∨ (d.prec p).run = (0, 0, 0)) :
    ((d.filtersRestarted l).prec p).run = (0, 0, 0) := by
  induction l generalizing d with
  | nil => exact h.resolve_left (by simp)
  | cons q rest ih =>
    refine ih _ ?_
    by_cases hq : p = q
    · subst hq
      exact .inr (congrArg PortRec.run (Dev.modPort_prec d p _))
    · rw [Dev.modPort_prec_ne d _ hq]
      exact h.imp_left fun hp => (List.mem_cons.1 hp).resolve_left hq

/-- RESUME, with the ports whose filters it restarts. -/
def Dev.resumed (d : Dev) (l : List Nat) : Dev :=
  let d := (d.wr .sbsStatus 31 31 0).filtersRestarted l
  { d with port := { d.port with scans := 0 } }

theorem sbsResume_eq (d : Dev) : sbsResume d = d.resumed (List.range 64) := rfl

/-- RESUME ends a chain fault and restarts the filters; it takes no other register. -/
theorem Dev.resumed_fields (d : Dev) (l : List Nat) :
    let t := d.resumed l
    t.bitOf .sbsStatus 31 = false ∧ (∀ p ∈ l, (t.prec p).run = (0, 0, 0)) ∧ t.port.scans = 0 ∧
      (∀ r : Reg, r ≠ .sbsStatus → t.reg r = d.reg r) ∧ t.pool = d.pool := by
  have hreg : ∀ r, (d.resumed l).reg r = (d.wr .sbsStatus 31 31 0).reg r := Dev.filtersRestarted_reg _ l
  refine ⟨?_, fun p hp => Dev.filtersRestarted_run l _ p (.inl hp), rfl, fun r hr => (hreg r).trans (Dev.reg_wr_ne d _ _ _ hr),
    Dev.filtersRestarted_pool _ l⟩
  rw [Dev.bitOf_eq_of_reg (hreg _), Dev.bitOf_wr_same _ _ Reg.holds_sbsStatus_fault]
  rfl

/-! ### Timeouts (R219) -/

/-- A CXL.mem request has timed out: it is counted, reported, and noted in its port's run of timeouts. -/
def Dev.timedOut (d : Dev) (o : ExpOp) (n : Nat) : Dev :=
  ((d.count (o.port / 4) (0x6000 + o.port % 4) 1).report (portTxnSource o.port) (openClass 219) o.addr).modPort o.port fun r =>
    { r with timeouts := n }

/-- The access fails, and after the eighth timeout in a row the port's removal is recognised. -/
theorem exec_cxlMemCompletionTimeout_sent {op : Nat} {o : ExpOp} {s : State} (hsent : s.dev.sentOp op = some o) {n : Nat}
    (hrun : (s.dev.prec o.port).timeouts + 1 = n) :
    exec (.cxlMemCompletionTimeout op) s = .next (s.onto
      (let d := if o.what.isNone then (s.dev.timedOut o n).readEnds o .error
          else ((s.dev.timedOut o n).writeFails o).settle (granuleOf o.line.toNat)
        if 8 ≤ n then (d.modPort o.port fun r => { r with timeouts := 0 }).removal o.port else d)) := by
  subst hrun
  refine exec_onto (exec_cxlMemCompletionTimeout op s) ?_
  rw [hsent]
  rfl

/-! ### Event records (R218) -/

/-- What is sent to firmware, with or without a report, leaves pool and directory. -/
theorem Dev.toldFirmware_shown {d x : Dev} {o : Out} (h : x = d.emit o ∨ ∃ src cls detail, x = (d.emit o).report src cls detail) :
    o ∈ x.shown.out ∧ x.shown.pool = d.pool ∧ x.shown.dir = d.dir := by
  rcases h with rfl | ⟨src, cls, detail, rfl⟩
  · exact ⟨Dev.mem_shown (d.mem_emit o), Dev.shown_pool _, Dev.shown_dir _⟩
  · refine ⟨Dev.mem_shown ?_, by simp, by simp⟩
    rw [Dev.report_out]
    exact d.mem_emit o

/-! ### The obligation -/

/-- Settles O37: a scan is the frame it sends and what follows from what it shows; a line's filter is one step of its run; a timeout is one
equation over the device. -/
theorem theSidebandChainIsScannedAndFiltered : Obligations.TheSidebandChainIsScannedAndFiltered := by
  unfold Obligations.TheSidebandChainIsScannedAndFiltered
  refine ⟨fun frame s hoff => exec_onto (exec_sbsScan frame s) (if_pos (by simp [hoff])), ?frozen, ?implausible,
    fun d p line level hnew hfew _ => (if_neg hnew).trans (if_neg (Nat.ne_of_lt hfew)), ?accepted, ?resume, ?io, ?timeout, ?eighth, ?late,
    ?record⟩
  case frozen =>
    intro frame s hon hfrozen
    refine yields_of_eq (exec_onto (exec_sbsScan frame s) (sbsScan_frozen hon hfrozen frame)) ⟨?_, Dev.mem_shown (Dev.mem_emit _ _),
      fun p => (Dev.reg_shown _ _ rfl).trans (s.dev.scanned_reg 0 (by simp))⟩
    rw [Dev.shown_port]
    rfl
  case implausible =>
    intro frame s hon hserves hmany
    refine yields_of_eq (exec_onto (exec_sbsScan frame s) (sbsScan_implausible hon hserves hmany)) ⟨?_, ?_⟩
    · rw [Dev.bitOf_shown _ _ _ rfl, Dev.bitOf_report _ _ _ _ _ _ rfl, Dev.bitOf_wr_same _ _ Reg.holds_sbsStatus_fault]
      rfl
    · rw [Dev.shown_port, Dev.report_port]
      exact s.dev.framed_scans
  case accepted =>
    intro d p line level _ hnew hrun _
    have haccepted : d.filterLine p line level = d.acceptLevel p line level := (if_neg hnew).trans (if_pos (by rw [hrun]))
    rw [haccepted]
    exact d.shows_acceptLevel p line level
  case resume =>
    intro s
    obtain ⟨hfault, hfilters, hscans, hothers, hpool⟩ := s.dev.resumed_fields (List.range 64)
    refine yields_of_eq (exec_onto (exec_sbsResume s) (sbsResume_eq s.dev)) ⟨(Dev.bitOf_shown _ _ _ rfl).trans hfault, fun p hp => ?_, ?_,
      fun r hr hshow => (Dev.reg_shown _ _ hshow).trans (hothers r hr), (Dev.shown_pool _).trans hpool⟩
    · rw [Dev.prec_shown]
      exact hfilters p (List.mem_range.2 hp)
    · rw [Dev.shown_port, hscans]
  case io =>
    intro p tag s hmode
    refine yields_of_eq (exec_onto (exec_cxlIoCompletionTimeout p tag s) (if_pos hmode)) ⟨Dev.mem_shown ?_, ?_, ?_⟩
    · rw [Dev.report_out]
      exact Dev.mem_emit _ _
    · rw [Dev.shown_pool, Dev.report_pool, Dev.emit_pool]
    · rw [Dev.portState_shown, Dev.portState_report]
      rfl
  case timeout =>
    intro op o s hsent hread hfew
    rw [exec_cxlMemCompletionTimeout_sent hsent rfl]
    dsimp only
    rw [if_neg (show ¬8 ≤ (s.dev.prec o.port).timeouts + 1 by omega), if_pos (by rw [hread]; rfl)]
    rfl
  case eighth =>
    intro op o s hsent hwrite hseven
    rw [exec_cxlMemCompletionTimeout_sent hsent (n := 8) (by rw [hseven])]
    dsimp only
    rw [if_pos (Nat.le_refl 8), if_neg (by rw [Option.isNone_eq_false_iff.2 hwrite]; decide)]
    rfl
  case late =>
    intro p op s hnone
    refine yields_of_eq (exec_onto (exec_lateMemResponse p op s) (if_neg (by simpa using hnone))) ⟨?_, ?_, ?_⟩
    · rw [Dev.prec_shown, Dev.prec, Dev.count_port]
      exact congrArg PortRec.late (Dev.modPort_prec _ _ _)
    · rw [Dev.shown_pool, Dev.count_pool]
      rfl
    · rw [Dev.shown_dir, Dev.count_dir]
      rfl
  case record =>
    intro p kind dpa s hmode
    refine yields_of_eq (exec_onto (exec_expanderEventRecord p kind dpa s) (if_pos hmode)) (Dev.toldFirmware_shown ?_)
    split
    · exact .inr ⟨_, _, _, rfl⟩
    · split
      · exact .inr ⟨_, _, _, rfl⟩
      · exact .inl rfl

end Sys2Proof.Machine
end

section
/-! PROOFS. What the operations of a Stitch link write: the fields of its registers, its lane sets and its equaliser settings (R228, R235,
R250). -/

namespace Sys2Proof.Machine

/-! ### Fields -/

/-- Bits hi down to lo are a field of the register's layout that can be read. -/
def Reg.hasField (r : Reg) (hi lo : Nat) : Bool :=
  decide (hi < 64) && r.layout.fields.any fun f => decide (f.hi = hi) && decide (f.lo = lo) && !decide (f.acc = .wo)

/-- The mask of a register covers each of its fields that can be read. -/
theorem Reg.holds_field {r : Reg} {hi lo : Nat} (h : r.hasField hi lo = true) : r.holds hi lo = true := by
  simp only [Reg.hasField, Bool.and_eq_true, List.any_eq_true, decide_eq_true_eq] at h
  obtain ⟨h64, f, hf, ⟨rfl, rfl⟩, hacc⟩ := h
  refine Bool.and_eq_true_iff.2 ⟨decide_eq_true h64, decide_eq_true (BitVec.eq_of_getLsbD_eq fun i hi => ?_)⟩
  rw [BitVec.getLsbD_and, ← BitVec.testBit_toNat, ← BitVec.testBit_toNat, testBit_fieldMask]
  by_cases hin : f.lo ≤ i ∧ i ≤ f.hi
  · rw [Reg.mask_eq, r.testBit_fieldsMask_mem _ hf hi (decide_eq_true hin), hacc, Bool.and_true]
  · rw [show (decide (i < 64) && decide (f.lo ≤ i) && decide (i - f.lo < f.hi + 1 - f.lo)) = false by simp; omega, Bool.false_and]

/-! ### STL.STATUS and the neighbour map (Tables ST-14, MF-12) -/

/-- Writing a field below STATE leaves every link's state. -/
theorem Dev.linkState_wr (d : Dev) (s n k : Nat) {hi : Nat} (lo : Nat) (h : hi < 28) : (d.wr (.stlStatus s) hi lo n).linkState k = d.linkState k :=
  Dev.rd_wr_field d n (Reg.holds_field rfl) (.inr h)

theorem Dev.linkState_setReason (d : Dev) (s r k : Nat) : (d.setReason s r).linkState k = d.linkState k := d.linkState_wr s r k 24 (by decide)

theorem Dev.linkState_congr {d d' : Dev} {s : Nat} (h : d'.reg (.stlStatus s) = d.reg (.stlStatus s)) : d'.linkState s = d.linkState s :=
  Dev.rd_eq_of_reg h 31 28

/-- A change of LIVE leaves the other fields of the neighbour map. -/
theorem Dev.rd_nbr_setLive (d : Dev) {s : Nat} (b : Bool) (n : Nat) {hi lo : Nat} (hfield : (Reg.nbr n).holds hi lo = true) (hs : s < lo) :
    (d.setLive s b).rd (.nbr n) hi lo = d.rd (.nbr n) hi lo := by
  unfold Dev.setLive
  refine foldl_frame (fun d : Dev => d.rd (.nbr n) hi lo) _ _ (fun d m => ?_) d
  split
  · exact Dev.rd_wr_field _ _ hfield (.inr hs)
  · rfl

theorem Dev.rd_nbr_enterLink (d : Dev) {s : Nat} (st n : Nat) {hi lo : Nat} (hfield : (Reg.nbr n).holds hi lo = true) (hs : s < lo) :
    (d.enterLink s st).rd (.nbr n) hi lo = d.rd (.nbr n) hi lo := by
  rw [Dev.enterLink, Dev.rd_nbr_setLive _ _ _ hfield hs, Dev.rd_wr_ne _ _ _ _ _ _ (by simp)]

theorem Dev.setSlotState_state (d : Dev) (n : Nat) {st : Nat} (hst : st < 4) : (d.setSlotState n st).slotState n = st := by
  unfold Dev.setSlotState
  split
  · assumption
  · rw [Dev.slotState, Dev.rd_fabricEvent _ _ _ _ _ _ (by simp), Dev.rd_wr_same _ _ (Reg.holds_field rfl)]
    exact Nat.mod_eq_of_lt hst

theorem Dev.out_setSlotState (d : Dev) (n st : Nat) : d.out <+: (d.setSlotState n st).out := by
  unfold Dev.setSlotState
  split
  · exact List.prefix_rfl
  · exact Dev.out_fabricEvent (d.wr _ _ _ _) _ _

/-! ### Lane sets and equaliser settings -/

/-- A lane set has four bits. -/
theorem laneSetIn_lt (mask : Nat) : laneSetIn mask < 16 := by
  unfold laneSetIn
  cases h : laneSets.find? fun m => m &&& mask = m with
  | none => decide
  | some m =>
    have hall : ∀ m ∈ laneSets, m < 16 := by decide
    exact hall m (List.mem_of_find?_eq_some h)

/-- TXEQ of a lane holds PRE, MAIN and POST of a setting. -/
def Dev.eqIs (d : Dev) (s lane : Nat) (e : Nat × Nat × Nat) : Prop :=
  d.rd (.txeq s lane) 17 12 = e.1 ∧ d.rd (.txeq s lane) 11 6 = e.2.1 ∧ d.rd (.txeq s lane) 5 0 = e.2.2

/-- The setting that TXEQ of a lane holds. -/
def Dev.eqOf (d : Dev) (s lane : Nat) : Nat × Nat × Nat :=
  (d.rd (.txeq s lane) 17 12, d.rd (.txeq s lane) 11 6, d.rd (.txeq s lane) 5 0)

theorem Dev.eqIs_congr {d d' : Dev} {s lane : Nat} {e : Nat × Nat × Nat} (hreg : d'.reg (.txeq s lane) = d.reg (.txeq s lane))
    (h : d.eqIs s lane e) : d'.eqIs s lane e := by
  unfold Dev.eqIs Dev.rd at h ⊢
  rwa [hreg]

/-- A setting whose parts fit their fields is held once it is written. -/
theorem Dev.eqIs_setEq (d : Dev) (s lane : Nat) {e : Nat × Nat × Nat} (h : e.1 < 64 ∧ e.2.1 < 64 ∧ e.2.2 < 64) : (d.setEq s lane e).eqIs s lane e := by
  obtain ⟨hpre, hmain, hpost⟩ := h
  refine ⟨?_, ?_, ?_⟩ <;>
  · rw [Dev.setEq, Dev.rd_setReg_same _ _ (Reg.holds_field rfl), getBits, BitVec.toNat_ofNat]
    omega

theorem Dev.eqIs_setEq_ne (d : Dev) {s lane lane' : Nat} (e' : Nat × Nat × Nat) {e : Nat × Nat × Nat} (hne : lane ≠ lane')
    (h : d.eqIs s lane e) : (d.setEq s lane' e').eqIs s lane e :=
  Dev.eqIs_congr (d.reg_setReg_ne _ (by simpa using hne)) h

theorem presetEq_fits (p : Nat) : (presetEq p).1 < 64 ∧ (presetEq p).2.1 < 64 ∧ (presetEq p).2.2 < 64 := by
  unfold presetEq
  split <;> decide

theorem eqOk_fits {pre main post : Nat} (h : eqOk pre main post = true) : pre < 64 ∧ main < 64 ∧ post < 64 := by
  unfold eqOk at h
  have := of_decide_eq_true h
  omega

end Sys2Proof.Machine
end

section
/-! PROOFS. A Stitch link's way through the phases of training to ACTIVE (R235 to R237). Settles O38. -/

namespace Sys2Proof.Machine

/-! ### The start of an attempt (R228, R235, R236, R252) -/

/-- The record of a link whose attempt starts. -/
def LinkRec.attempted (r : LinkRec) : LinkRec :=
  { r with
    phase := 1, attempts := r.attempts + 1, locked := 0, ready := false, txShed := 0, rxShed := 0,
    farMask := 15, ownMask := 15, adding := 0, addingRx := 0, secondTry := false }

/-- A link in TRAIN at its rate, its shed lanes returned, its equaliser not yet preset. -/
def Dev.enteredTrain (d : Dev) (s : Nat) : Dev :=
  (((d.modLink s LinkRec.attempted).enterLink s 1).wr (.stlStatus s) 15 15 (if (d.lrec s).slow then 1 else d.rd (.stlCfg s) 29 29)).showShed s

theorem Dev.startAttempt_eq (d : Dev) (s : Nat) : d.startAttempt s =
    (List.range 4).foldl (fun d i => d.setEq s i (presetEq (d.rd (.stlCfg s) 26 24))) (d.enteredTrain s) := by
  unfold Dev.startAttempt Dev.enteredTrain
  dsimp only
  rw [Dev.rd_modLink]
  rfl

/-- Presetting the equaliser writes TXEQ alone. -/
theorem Dev.startAttempt_frame (d : Dev) (s : Nat) :
    (d.startAttempt s).link = (d.modLink s LinkRec.attempted).link ∧ (d.startAttempt s).pool = d.pool ∧
      (d.startAttempt s).dir = d.dir ∧ (d.startAttempt s).sw = d.sw ∧
      ∀ r : Reg, (∀ i, r ≠ .txeq s i) → (d.startAttempt s).reg r = (d.enteredTrain s).reg r := by
  rw [Dev.startAttempt_eq]
  refine ⟨(foldl_frame Dev.link _ _ (fun d i => d.setEq_link s i _) _).trans ?_, (foldl_frame Dev.pool _ _ (fun d i => d.setEq_pool s i _) _).trans ?_,
    (foldl_frame Dev.dir _ _ (fun d i => d.setEq_dir s i _) _).trans ?_, (foldl_frame Dev.sw _ _ (fun d i => d.setEq_sw s i _) _).trans ?_,
    fun r hr => foldl_frame (fun d : Dev => d.reg r) _ _ (fun d i => d.reg_setEq _ _ _ _ hr) _⟩
  all_goals simp [Dev.enteredTrain]

theorem Dev.lrec_startAttempt (d : Dev) (s : Nat) : (d.startAttempt s).lrec s = (d.lrec s).attempted :=
  (Dev.lrec_congr (d.startAttempt_frame s).1 s).trans (d.lrec_modLink_same s _)

theorem Dev.startAttempt_status (d : Dev) (s : Nat) :
    (d.startAttempt s).linkState s = 1 ∧ (d.startAttempt s).bitOf (.stlStatus s) 15 = ((d.lrec s).slow || d.bitOf (.stlCfg s) 29) := by
  have hreg := (d.startAttempt_frame s).2.2.2.2 (.stlStatus s) (by simp)
  refine ⟨?_, ?_⟩
  · rw [Dev.linkState_congr hreg, Dev.enteredTrain, Dev.linkState_congr (Dev.reg_showShed _ _ _ (by simp) (by simp)),
      Dev.linkState_wr _ _ _ _ _ (by decide), Dev.linkState_enterLink _ _ _ (by decide)]
  · rw [Dev.bitOf_eq_of_reg hreg, Dev.enteredTrain, Dev.bitOf_showShed _ _ _ _ (by simp) (by simp), Dev.bitOf_wr_same _ _ (Reg.holds_field rfl)]
    cases hslow : (d.lrec s).slow
    · have := d.rd_lt (.stlCfg s) 29 29
      simp [Dev.bitOf]
      omega
    · simp

/-- Every lane starts from the configured preset. -/
theorem Dev.startAttempt_eqIs (d : Dev) (s : Nat) {lane : Nat} (h : lane < 4) :
    (d.startAttempt s).eqIs s lane (presetEq (d.rd (.stlCfg s) 26 24)) := by
  let preset (x : Dev) : Prop := x.rd (.stlCfg s) 26 24 = d.rd (.stlCfg s) 26 24
  have hkeeps : ∀ (x : Dev) (i : Nat) e, preset x → preset (x.setEq s i e) := fun x i e hx =>
    (x.rd_setEq _ _ _ _ _ _ (by simp)).trans hx
  rw [Dev.startAttempt_eq]
  refine (foldl_reaches (I := preset) (P := fun x => preset x ∧ x.eqIs s lane (presetEq (d.rd (.stlCfg s) 26 24))) (List.mem_range.2 h)
    (fun x i hx => hkeeps x i _ hx) (fun x hx => ⟨hkeeps x lane _ hx, ?_⟩) (fun x i hx => ⟨hkeeps x i _ hx.1, ?_⟩) ?_).2
  · rw [hx]
    exact x.eqIs_setEq s lane (presetEq_fits _)
  · by_cases hlane : lane = i
    · rw [hx.1, hlane]
      exact x.eqIs_setEq s i (presetEq_fits _)
    · exact x.eqIs_setEq_ne _ hlane hx.2
  · show (d.enteredTrain s).rd (.stlCfg s) 26 24 = _
    rw [Dev.enteredTrain, Dev.rd_showShed _ _ _ _ _ (by simp) (by simp), Dev.rd_wr_ne _ _ _ _ _ _ (by simp),
      Dev.rd_enterLink _ _ _ _ _ _ (by simp) (by simp), Dev.rd_modLink]

/-! ### Phases that end -/

/-- An attempt that fails leaves the link DOWN with its reason, in no phase. -/
theorem Dev.attemptFails_shown (d : Dev) (s : Nat) {reason : Nat} (h : reason < 16) :
    let t := (d.attemptFails s reason).shown
    t.linkState s = 3 ∧ t.rd (.stlStatus s) 27 24 = reason ∧ (t.lrec s).phase = 0 := by
  refine ⟨?_, ?_, ?_⟩
  · rw [Dev.linkState_shown, Dev.attemptFails_state]
  · rw [Dev.rd_shown _ _ _ _ (by simp), Dev.attemptFails_reason _ _ _ h]
  · rw [Dev.lrec_shown, Dev.attemptFails_phase]

/-- So does one whose reason is open (log entry 26). -/
theorem Dev.attemptFailsOpen_shown (d : Dev) (s : Nat) :
    (d.attemptFailsOpen s).shown.linkState s = 3 ∧ ((d.attemptFailsOpen s).shown.lrec s).phase = 0 :=
  have h := d.openReason.2.attemptFails_shown s (Nat.mod_lt (d.openNat.1) (by decide : 0 < 16))
  ⟨h.1, h.2.2⟩

/-- A phase that ends with a note in the link's record writes nothing else of the link. -/
theorem Dev.modLink_shown (d : Dev) (s : Nat) (f : LinkRec → LinkRec) :
    (d.modLink s f).shown.lrec s = f (d.lrec s) ∧ (d.modLink s f).shown.linkState s = d.linkState s := by
  rw [Dev.lrec_shown, Dev.lrec_modLink_same, Dev.linkState_shown, Dev.linkState_modLink]
  exact ⟨rfl, rfl⟩

/-! ### The confirm window (R235, R236) -/

/-- Showing the window's errors writes LANE_STATUS alone. -/
theorem Dev.showConfirm_frame (d : Dev) (s mask q : Nat) (errors : List Nat) :
    (d.showConfirm s mask q errors).link = d.link ∧ ∀ r : Reg, (∀ i, r ≠ .laneStatus s i) → (d.showConfirm s mask q errors).reg r = d.reg r := by
  unfold Dev.showConfirm
  refine ⟨foldl_frame Dev.link _ _ (fun d i => ?_) d, fun r hr => foldl_frame (fun d : Dev => d.reg r) _ _ (fun d i => ?_) d⟩
  · split <;> rfl
  · split
    · rw [Dev.reg_wr_ne _ _ _ _ (hr i), Dev.reg_wr_ne _ _ _ _ (hr i)]
    · rfl

/-- The link after a window in which lanes qualified at both ends: its masks are set. -/
def Dev.masksSet (d : Dev) (s : Nat) (q peer tx : Nat) (errors : List Nat) : Dev :=
  (((d.showConfirm s (d.lrec s).locked q errors).modLink s fun r => { r with phase := 5, farMask := peer, ownMask := q }).wr (.stlStatus s) 23 20 tx).wr
    (.stlStatus s) 19 16 (laneSetIn q)

theorem exec_confirmWindowEnd_confirms {l : Fin 16} {errors : List Nat} {peer : BitVec 4} {s : State} (htrain : s.dev.linkState l = 1)
    (hphase : (s.dev.lrec l).phase = 4) {q tx : Nat} (hq : s.dev.qualifying l (s.dev.lrec l).locked errors = q)
    (htx : laneSetIn (s.dev.rd (.widthCtl l) 3 0 &&& peer.toNat &&& (15 ^^^ ((s.dev.lrec l).txShed &&& 15))) = tx)
    (hown : q ≠ 0) (hpeer : peer ≠ 0) (hset : tx ≠ 0) {d : Dev} (hd : s.dev.masksSet l q peer.toNat tx errors = d) :
    exec (.confirmWindowEnd l errors peer) s =
      .next (s.onto (d.sendBlock l (linkupBlock d.devId l (d.rd (.stlStatus l) 15 15) tx (laneSetIn q)))) := by
  obtain ⟨hlink, hregs⟩ := s.dev.showConfirm_frame l (s.dev.lrec l).locked q errors
  have hpermitted : laneSetIn (((s.dev.showConfirm l (s.dev.lrec l).locked q errors).modLink l fun r =>
      { r with phase := 5, farMask := peer.toNat, ownMask := q }).permitted l) = tx := by
    rw [Dev.permitted, Dev.lrec_modLink_same, Dev.rd_modLink, Dev.rd_eq_of_reg (hregs _ (by simp)), Dev.lrec_congr hlink]
    exact htx
  refine exec_onto (exec_confirmWindowEnd l errors peer s) ((if_pos ⟨htrain, hphase⟩).trans ?_)
  dsimp only
  rw [hq, if_neg (not_or.2 ⟨hown, hpeer⟩), hpermitted, if_neg hset, ← hd]
  rfl

theorem Dev.masksSet_fields (d : Dev) (s q peer : Nat) {tx : Nat} (htx : tx < 16) (errors : List Nat) :
    let t := d.masksSet s q peer tx errors
    t.lrec s = { d.lrec s with phase := 5, farMask := peer, ownMask := q } ∧ t.txMask s = tx ∧ t.rxMask s = laneSetIn q ∧
      t.linkState s = d.linkState s ∧ t.devId = d.devId ∧ t.rd (.stlStatus s) 15 15 = d.rd (.stlStatus s) 15 15 := by
  obtain ⟨hlink, hregs⟩ := d.showConfirm_frame s (d.lrec s).locked q errors
  unfold Dev.masksSet
  refine ⟨?_, ?_, ?_, ?_, ?_, ?_⟩
  · rw [Dev.lrec_wr, Dev.lrec_wr, Dev.lrec_modLink_same, Dev.lrec_congr hlink]
  · rw [Dev.txMask, Dev.rd_wr_field _ _ (Reg.holds_field rfl) (by decide), Dev.rd_wr_same _ _ (Reg.holds_field rfl)]
    exact Nat.mod_eq_of_lt htx
  · rw [Dev.rxMask, Dev.rd_wr_same _ _ (Reg.holds_field rfl)]
    exact Nat.mod_eq_of_lt (laneSetIn_lt q)
  · rw [Dev.linkState_wr _ _ _ _ _ (by decide), Dev.linkState_wr _ _ _ _ _ (by decide), Dev.linkState_modLink,
      Dev.linkState_congr (hregs _ (by simp))]
  · rw [Dev.devId, Dev.rd_wr_ne _ _ _ _ _ _ (by simp), Dev.rd_wr_ne _ _ _ _ _ _ (by simp), Dev.rd_modLink, Dev.rd_eq_of_reg (hregs _ (by simp)),
      Dev.devId]
  · rw [Dev.rd_wr_field _ _ (Reg.holds_field rfl) (by decide), Dev.rd_wr_field _ _ (Reg.holds_field rfl) (by decide), Dev.rd_modLink,
      Dev.rd_eq_of_reg (hregs _ (by simp))]

/-! ### Equaliser requests (R235, Table ST-4) -/

/-- A request that moves the setting is applied where the setting that it asks for obeys R228, and TXEQ keeps what it holds otherwise. -/
theorem exec_trainRequest {l : Fin 16} {lane : Fin 4} {request preset : Fin 8} {n : Nat × Nat × Nat} {s : State}
    (hup : s.dev.linkState l = 1 ∨ s.dev.linkState l = 2) (hmoves : request.val < 6)
    (hasked : requestedEq (s.dev.eqOf l lane) request preset = some n) :
    ∃ b, exec (.trainRequestReceived l lane request preset) s =
      .next (s.onto ((s.dev.setEq l lane (if eqOk n.1 n.2.1 n.2.2 then n else s.dev.eqOf l lane)).sendBlock l b)) := by
  have hactive : s.dev.linkState l = 1 ∨ s.dev.active l = true := hup.imp_right fun h => decide_eq_true h
  have hasked' : requestedEq (getBits (s.dev.reg (.txeq l lane)) 17 12, getBits (s.dev.reg (.txeq l lane)) 11 6,
      getBits (s.dev.reg (.txeq l lane)) 5 0) request preset = some n := hasked
  have hexec : ∀ d', _ → _ := fun d' => exec_onto (d' := d') (exec_trainRequestReceived l lane request preset s)
  dsimp only at hexec
  rw [if_pos hactive, if_neg (by omega), hasked'] at hexec
  split <;>
  next hok =>
    dsimp only at hexec
    simp only [hok] at hexec
    exact ⟨_, hexec _ rfl⟩

theorem Dev.eqIs_eqOf (d : Dev) (s lane : Nat) : (d.setEq s lane (d.eqOf s lane)).eqIs s lane (d.eqOf s lane) :=
  d.eqIs_setEq s lane ⟨d.rd_lt _ 17 12, d.rd_lt _ 11 6, d.rd_lt _ 5 0⟩

/-- What TXEQ holds stands when the answer has been sent. -/
theorem Dev.eqIs_answered {d : Dev} {s lane : Nat} {e : Nat × Nat × Nat} (h : d.eqIs s lane e) (b : Word) : (d.sendBlock s b).shown.eqIs s lane e :=
  Dev.eqIs_congr (Dev.reg_shown _ _ (by simp)) h

/-! ### LINKUP (R236, R237) -/

/-- The record of a link that enters ACTIVE. -/
def LinkRec.linkedUp (r : LinkRec) (limit adv : Four) : LinkRec :=
  { r with
    phase := 0, attempts := 0, slow := false, discarding := false, sinceAck := 0, ackDue := false,
    lastReplay := none, replays := 0, extra := .zero, limit := limit, spent := .zero, adv := adv, sentAdv := adv,
    taken := .zero, frozen := false, blockErrs := [], entries := [] }

/-- A link that has entered ACTIVE and sent its credits; its slot has still the state it had. -/
def Dev.wentActive (d : Dev) (s : Nat) (limits : Four) : Dev :=
  ((((d.modLink s fun r => { r with
      phase := 0, attempts := 0, slow := false, discarding := false
      sinceAck := 0, ackDue := false, lastReplay := none, replays := 0, extra := .zero, limit := limits, spent := .zero, adv := d.initialCredit s
      sentAdv := d.initialCredit s, taken := .zero, frozen := false, blockErrs := [] }).setReg (.seqStatus s) 0).setEntries s []).enterLink s 2).sendCredit s

/-- An empty replay buffer whose next SEQ is 0 shows as zeros. -/
theorem Dev.seqStatus_cleared (d : Dev) (s : Nat) : ((d.setReg (.seqStatus s) 0).setEntries s []).reg (.seqStatus s) = 0 := by
  have hzero : ∀ (x : Dev) (hi lo : Nat), x.reg (.seqStatus s) = 0 → (x.wr (.seqStatus s) hi lo 0).reg (.seqStatus s) = 0 := fun x hi lo hx => by
    rw [Dev.wr, Dev.reg_setReg_same, hx]
    simp [setBits]
  have hstart : ((d.setReg (.seqStatus s) 0).modLink s fun r => { r with entries := [] }).reg (.seqStatus s) = 0 := by
    rw [Dev.reg_modLink, Dev.reg_setReg_same]
    exact BitVec.zero_and
  have hshown : (d.setReg (.seqStatus s) 0).setEntries s [] =
      (((((d.setReg (.seqStatus s) 0).modLink s fun r => { r with entries := [] }).wr (.seqStatus s) 51 40 0).wr (.seqStatus s) 27 17 0).wr
        (.seqStatus s) 16 0 0) := by
    unfold Dev.setEntries Dev.showEntries
    dsimp only
    rw [Dev.lrec_modLink_same]
    dsimp only [List.head?_nil]
    rw [Dev.rd, hstart]
    rfl
  rw [hshown]
  exact hzero _ _ _ (hzero _ _ _ (hzero _ _ _ hstart))

theorem Dev.wentActive_frame (d : Dev) (s : Nat) (limits : Four) :
    (d.wentActive s limits).linkState s = 2 ∧ (d.wentActive s limits).reg (.seqStatus s) = 0 ∧
      (d.wentActive s limits).lrec s = (d.lrec s).linkedUp limits (d.initialCredit s) ∧
      .block s (creditBlock (d.initialCredit s)) ∈ (d.wentActive s limits).out ∧ (d.wentActive s limits).linkSlot s = d.linkSlot s ∧
      (d.wentActive s limits).pool = d.pool := by
  have hrec : (((d.modLink s fun r => { r with
      phase := 0, attempts := 0, slow := false, discarding := false
      sinceAck := 0, ackDue := false, lastReplay := none, replays := 0, extra := .zero, limit := limits, spent := .zero, adv := d.initialCredit s
      sentAdv := d.initialCredit s, taken := .zero, frozen := false, blockErrs := [] }).setReg (.seqStatus s) 0).setEntries s []).lrec s =
      (d.lrec s).linkedUp limits (d.initialCredit s) := by
    rw [Dev.lrec_setEntries_same, Dev.lrec_setReg, Dev.lrec_modLink_same]
    rfl
  refine ⟨?_, ?_, ?_, ?_, ?_, ?_⟩
  · rw [Dev.wentActive, Dev.linkState_congr (Dev.reg_sendCredit _ _ _), Dev.linkState_enterLink _ _ _ (by decide)]
  · rw [Dev.wentActive, Dev.reg_sendCredit, Dev.reg_enterLink _ _ _ _ (by simp) (by simp), Dev.seqStatus_cleared]
  · rw [Dev.wentActive, Dev.lrec_sendCredit_same, Dev.lrec_enterLink, hrec]
    rfl
  · have hadv := congrArg LinkRec.adv hrec
    rw [Dev.wentActive, Dev.sendCredit, Dev.lrec_enterLink, hadv]
    exact Dev.mem_emit _ _
  · rw [Dev.linkSlot, Dev.wentActive, Dev.rd_sendCredit, Dev.rd_enterLink _ _ _ _ _ _ (by simp) (by simp), Dev.rd_setEntries _ _ _ _ _ _ (by simp),
      Dev.rd_setReg_ne _ _ _ _ (by simp), Dev.rd_modLink, Dev.linkSlot]
  · simp [Dev.wentActive]

/-- STATE and VALID of a slot are not changed by a link that enters ACTIVE. -/
theorem Dev.wentActive_nbr (d : Dev) (s : Fin 16) (limits : Four) (n : Nat) {hi lo : Nat} (hfield : (Reg.nbr n).holds hi lo = true) (h : 16 ≤ lo) :
    (d.wentActive s limits).rd (.nbr n) hi lo = d.rd (.nbr n) hi lo := by
  rw [Dev.wentActive, Dev.rd_sendCredit, Dev.rd_nbr_enterLink _ _ _ hfield (by omega), Dev.rd_setEntries _ _ _ _ _ _ (by simp),
    Dev.rd_setReg_ne _ _ _ _ (by simp), Dev.rd_modLink]

/-- LINKUP of the configured peer. -/
theorem exec_linkupReceived_active {l : Fin 16} {dev : DeviceId} {link : Fin 16} {limits : Four} {s : State} (htrain : s.dev.linkState l = 1)
    (hphase : (s.dev.lrec l).phase = 5) (hdev : dev.toNat = s.dev.rd (.stlCfg l) 19 8) (hlink : link.val = s.dev.rd (.stlCfg l) 7 4) :
    exec (.linkupReceived l dev link limits) s = .next (s.onto (if s.dev.slotValid (s.dev.linkSlot l) ∧ s.dev.slotState (s.dev.linkSlot l) = 0
      then (s.dev.wentActive l limits).setSlotState (s.dev.linkSlot l) 1 else s.dev.wentActive l limits)) := by
  refine exec_onto (exec_linkupReceived l dev link limits s) ((if_pos ⟨htrain, hphase⟩).trans ((if_neg (by simp [hdev, hlink])).trans ?_))
  have hvalid : (s.dev.wentActive l limits).slotValid (s.dev.linkSlot l) = s.dev.slotValid (s.dev.linkSlot l) := by
    rw [Dev.slotValid, Dev.bitOf, Dev.wentActive_nbr _ _ _ _ (Reg.holds_field rfl) (by decide), Dev.slotValid, Dev.bitOf]
  have hstate : (s.dev.wentActive l limits).slotState (s.dev.linkSlot l) = s.dev.slotState (s.dev.linkSlot l) :=
    s.dev.wentActive_nbr l limits _ (Reg.holds_field rfl) (by decide)
  show (if (s.dev.wentActive l limits).slotValid ((s.dev.wentActive l limits).linkSlot l) ∧
      (s.dev.wentActive l limits).slotState ((s.dev.wentActive l limits).linkSlot l) = 0 then
    (s.dev.wentActive l limits).setSlotState ((s.dev.wentActive l limits).linkSlot l) 1 else s.dev.wentActive l limits) = _
  obtain ⟨_, _, _, _, hslot, _⟩ := s.dev.wentActive_frame l limits
  rw [hslot, hvalid, hstate]

/-! ### The obligation -/

/-- Settles O38: each phase ends with a note in the link's record, or with a failed attempt; the window, the request and LINKUP write what
their own rules name. -/
theorem linksTrainInPhasesToActive : Obligations.LinksTrainInPhasesToActive := by
  unfold Obligations.LinksTrainInPhasesToActive
  refine ⟨?attempt, ?detect, ?detectFails, ?detectAdded, ?frame, ?frameFails, ?equalise, ?equaliseFails, ?confirmFails, ?confirm, ?applied,
    ?refused, ?miswired, ?linkup, ?timeout⟩
  case attempt =>
    intro l s hdown hheld htko
    obtain ⟨hlink, hpool, hdir, hsw, _⟩ := s.dev.startAttempt_frame l
    obtain ⟨hstate, hrate⟩ := s.dev.startAttempt_status l
    refine yields_of_eq (exec_onto (exec_stitchTrainingAttempt l s) (if_pos ⟨hdown, by simp [hheld], htko⟩))
      ⟨(Dev.linkState_shown _ _).trans hstate, (Dev.lrec_shown _ _).trans (s.dev.lrec_startAttempt l), (Dev.bitOf_shown _ _ _ rfl).trans hrate,
        fun lane hlane => Dev.eqIs_congr (Dev.reg_shown _ _ rfl) (s.dev.startAttempt_eqIs l hlane), fun k hk => ?_, ?_, ?_, ?_⟩
    · rw [Dev.lrec_shown, Dev.lrec_congr hlink, Dev.lrec_modLink_ne _ _ hk]
    · rw [Dev.shown_pool, hpool]
    · rw [Dev.shown_dir, hdir]
    · rw [Dev.shown_sw, hsw]
  case detect =>
    intro l locked s htrain hphase hlocked
    obtain ⟨hrec, hstate⟩ := s.dev.modLink_shown l fun r => { r with phase := 2, locked := locked.toNat }
    exact yields_of_eq (exec_onto (exec_detectPhaseEnd l locked s) ((if_pos ⟨htrain, hphase⟩).trans (if_neg hlocked)))
      ⟨hrec, hstate.trans htrain⟩
  case detectFails =>
    intro l s htrain hphase
    exact yields_of_eq (exec_onto (exec_detectPhaseEnd l 0 s) ((if_pos ⟨htrain, hphase⟩).trans (if_pos rfl)))
      (s.dev.attemptFails_shown l (by decide))
  case detectAdded =>
    intro l locked s hactive
    obtain ⟨hrec, hstate⟩ := s.dev.modLink_shown l fun r => { r with
      addingRx := locked.toNat &&& (15 ^^^ s.dev.rxMask l) &&& (15 ^^^ (r.rxShed &&& 15)), secondTry := false }
    exact yields_of_eq (exec_onto (exec_detectPhaseEnd l locked s) ((if_neg (by omega)).trans (if_pos (decide_eq_true hactive))))
      ⟨hstate.trans hactive, hrec⟩
  case frame =>
    intro l s htrain hphase
    obtain ⟨hrec, hstate⟩ := s.dev.modLink_shown l fun r => { r with phase := 3 }
    exact yields_of_eq (exec_onto (exec_framePhaseEnd l true s) (if_pos ⟨htrain, hphase⟩)) ⟨hrec, hstate.trans htrain⟩
  case frameFails =>
    intro l s htrain hphase
    exact yields_of_eq (exec_onto (exec_framePhaseEnd l false s) (if_pos ⟨htrain, hphase⟩)) (s.dev.attemptFailsOpen_shown l)
  case equalise =>
    intro l s htrain hphase
    obtain ⟨hrec, hstate⟩ := s.dev.modLink_shown l fun r => { r with phase := 4, ready := true }
    exact yields_of_eq (exec_onto (exec_equalisePhaseEnd l true s) (if_pos ⟨htrain, hphase⟩)) ⟨hrec, hstate.trans htrain⟩
  case equaliseFails =>
    intro l s htrain hphase
    exact yields_of_eq (exec_onto (exec_equalisePhaseEnd l false s) (if_pos ⟨htrain, hphase⟩)) (s.dev.attemptFailsOpen_shown l)
  case confirmFails =>
    intro l errors peer s htrain hphase hnone
    exact yields_of_eq (exec_onto (exec_confirmWindowEnd l errors peer s) ((if_pos ⟨htrain, hphase⟩).trans (if_pos hnone)))
      (Dev.attemptFails_shown _ l (by decide))
  case confirm =>
    intro l errors peer s htrain hphase q tx hown hpeer hset
    obtain ⟨hrec, htx, hrx, hstate, hdev, hrate⟩ := s.dev.masksSet_fields l q peer.toNat (laneSetIn_lt _ : tx < 16) errors
    have hexec := exec_confirmWindowEnd_confirms htrain hphase rfl rfl hown hpeer hset rfl
    rw [hdev, hrate] at hexec
    refine yields_of_eq hexec ⟨?_, ?_, ?_, ?_, Dev.mem_shown (Dev.mem_emit _ _)⟩
    · rw [Dev.lrec_shown, Dev.lrec_sendBlock, hrec]
    · rw [Dev.txMask, Dev.rd_shown _ _ _ _ (by simp), Dev.rd_sendBlock]
      exact htx
    · rw [Dev.rxMask, Dev.rd_shown _ _ _ _ (by simp), Dev.rd_sendBlock]
      exact hrx
    · rw [Dev.linkState_shown, Dev.linkState_congr (Dev.reg_sendBlock _ _ _ _), hstate, htrain]
  case applied =>
    intro l lane request preset n s hup hmoves hasked hok
    obtain ⟨b, hexec⟩ := exec_trainRequest hup hmoves hasked
    rw [if_pos hok] at hexec
    obtain ⟨hpre, hmain, hpost⟩ := Dev.eqIs_answered (s.dev.eqIs_setEq l lane (eqOk_fits hok)) b
    exact yields_of_eq hexec ⟨hpre, hmain, hpost,
      fun r hr hshow => (Dev.reg_shown _ _ hshow).trans (s.dev.reg_setReg_ne _ hr), Dev.lrec_shown _ _⟩
  case refused =>
    intro l lane request preset n s hup hmoves hasked hbad
    obtain ⟨b, hexec⟩ := exec_trainRequest hup hmoves hasked
    rw [if_neg (by simp [hbad])] at hexec
    exact yields_of_eq hexec (Dev.eqIs_answered (s.dev.eqIs_eqOf l lane) b)
  case miswired =>
    intro l dev link limits s htrain hphase hother
    refine yields_of_eq (exec_onto (exec_linkupReceived l dev link limits s) ((if_pos ⟨htrain, hphase⟩).trans (if_pos hother))) ⟨?_, ?_, ?_⟩
    · rw [Dev.linkState_shown, Dev.linkState_congr (Dev.reg_report _ _ _ _ _ (by simp)), Dev.linkState_setReason,
        Dev.linkState_enterLink _ _ _ (by decide)]
    · rw [Dev.rd_shown _ _ _ _ (by simp), Dev.rd_report _ _ _ _ _ _ _ (by simp), Dev.setReason, Dev.rd_wr_same _ _ (Reg.holds_field rfl)]
      rfl
    · rw [Dev.lrec_shown, Dev.lrec_report, Dev.lrec_setReason, Dev.lrec_enterLink, Dev.lrec_modLink_same]
  case linkup =>
    intro l dev link limits s htrain hphase hdev hlink
    have hexec := exec_linkupReceived_active (limits := limits) htrain hphase hdev hlink
    obtain ⟨hstate, hseq, hrec, hcredit, _, hpool⟩ := s.dev.wentActive_frame l limits
    split at hexec
    · refine yields_of_eq hexec ⟨?_, ?_, ?_, Dev.mem_shown ((Dev.out_setSlotState _ _ _).subset hcredit), fun _ _ _ => ?_, ?_⟩
      · rw [Dev.linkState_shown, Dev.linkState_congr (Dev.reg_setSlotState _ _ _ _ (by simp) (by simp)), hstate]
      · rw [Dev.reg_shown _ _ (by simp), Dev.reg_setSlotState _ _ _ _ (by simp) (by simp), hseq]
      · rw [Dev.lrec_shown, Dev.lrec_setSlotState, hrec]
        rfl
      · exact (Dev.rd_shown _ _ _ _ rfl).trans (Dev.setSlotState_state _ _ (by decide))
      · rw [Dev.shown_pool, Dev.setSlotState_pool, hpool]
    next hslot =>
      refine yields_of_eq hexec ⟨(Dev.linkState_shown _ _).trans hstate, (Dev.reg_shown _ _ rfl).trans hseq, (Dev.lrec_shown _ _).trans hrec,
        Dev.mem_shown hcredit, fun _ hvalid hnone => absurd ⟨hvalid, hnone⟩ hslot, (Dev.shown_pool _).trans hpool⟩
  case timeout =>
    intro l s htrain hphase
    exact yields_of_eq (exec_onto (exec_linkupPhaseTimeout l s) (if_pos ⟨htrain, hphase⟩)) (s.dev.attemptFailsOpen_shown l)

end Sys2Proof.Machine
end

section
/-! PROOFS. The packets of a Stitch link: sending with credit, acceptance in sequence, ACK, NAK, replay and credits (R234, R242 to R248).
Settles O39. -/

namespace Sys2Proof.Machine

/-! ### Sending (R242, R245, R248) -/

/-- A message other than a Toll goes on the wire as it stands. -/
theorem Dev.mem_transmit (d : Dev) (s : Nat) {e : Entry} (h : msgOp e.words ≠ 0x30) : .packet s (packet e.cls e.seq e.words) ∈ (d.transmit s e).out := by
  have hstamp : d.stamp s e.words = (e.words, d) := if_neg h
  rw [Dev.transmit, hstamp]
  dsimp only
  rw [Dev.count_out]
  exact Dev.mem_emit _ _

theorem Dev.mem_sendNew (d : Dev) (s : Nat) (c : MsgClass) {m : List Word} (h : msgOp m ≠ 0x30) :
    .packet s (packet c (d.rd (.seqStatus s) 63 52) m) ∈ (d.sendNew s c m).out := by
  dsimp only [Dev.sendNew]
  rw [Dev.count_out]
  exact Dev.mem_transmit _ s (e := ⟨_, c, m⟩) h

theorem Dev.sendNew_frame (d : Dev) (s : Nat) (c : MsgClass) (m : List Word) : (d.sendNew s c m).pool = d.pool ∧ (d.sendNew s c m).dir = d.dir := by
  simp [Dev.sendNew]

/-! ### Acceptance (R241 to R243, R248, R279) -/

/-- An ACK changes the record of its link alone. -/
theorem Dev.sendAck_frame (d : Dev) (s : Nat) : (d.sendAck s).pool = d.pool ∧ (d.sendAck s).dir = d.dir ∧ ∀ r, (d.sendAck s).reg r = d.reg r :=
  ⟨rfl, rfl, fun _ => rfl⟩

/-- A packet in sequence is counted, and toward the ACK. -/
def Dev.counted (d : Dev) (s : Nat) (c : MsgClass) (cost : Nat) : Dev :=
  ((d.wr (.seqStatus s) 39 28 ((d.rd (.seqStatus s) 39 28 + 1) % 4096)).count (linkPmu s) (0x8004 + classCode c) 1).modLink s fun r => { r with
    taken := r.taken.put c ((r.taken.get c + cost) % 2048), sinceAck := r.sinceAck + 1 }

/-- An ACK is sent once as many packets as ACK_COUNT gives have been accepted. -/
def Dev.ackWhenDue (d : Dev) (s : Nat) : Dev := if d.rd (.linkCtl s) 29 24 + 1 ≤ (d.lrec s).sinceAck then d.sendAck s else d

theorem Dev.ackWhenDue_frame (d : Dev) (s : Nat) :
    (d.ackWhenDue s).pool = d.pool ∧ (d.ackWhenDue s).dir = d.dir ∧ ∀ r, (d.ackWhenDue s).reg r = d.reg r := by
  unfold Dev.ackWhenDue
  split
  · exact d.sendAck_frame s
  · exact ⟨rfl, rfl, fun _ => rfl⟩

theorem Dev.counted_frame (d : Dev) (s : Nat) (c : MsgClass) (cost : Nat) :
    ((d.counted s c cost).ackWhenDue s).pool = d.pool ∧ ((d.counted s c cost).ackWhenDue s).dir = d.dir ∧
      ((d.counted s c cost).ackWhenDue s).rd (.seqStatus s) 39 28 = (d.rd (.seqStatus s) 39 28 + 1) % 4096 ∧
      ∀ r : Reg, r.side = false → r ≠ .seqStatus s → ((d.counted s c cost).ackWhenDue s).reg r = d.reg r := by
  obtain ⟨hpool, hdir, hreg⟩ := (d.counted s c cost).ackWhenDue_frame s
  refine ⟨hpool.trans (by simp [Dev.counted]), hdir.trans (by simp [Dev.counted]), ?_, fun r hside hr => ?_⟩
  · rw [Dev.rd_eq_of_reg (hreg _), Dev.counted, Dev.rd_modLink, Dev.rd_count _ _ _ _ _ _ _ (by simp), Dev.rd_wr_same _ _ (Reg.holds_field rfl)]
    exact Nat.mod_mod _ _
  · rw [hreg, Dev.counted, Dev.reg_modLink, Dev.reg_count _ _ _ _ _ hside, Dev.reg_wr_ne _ _ _ _ hr]

/-- A message of a neighbour that is not DEAD goes on, to its consumer, or to the buffer for its home. -/
theorem Dev.accept_eq {d : Dev} {s : Nat} {c k : MsgClass} {ws : List Word} (hop : opClass (msgOp ws.tail) = some k)
    (hslot : d.slotState (d.linkSlot s) ≠ 2) : d.accept s c ws =
      (let t := ((d.counted s c (packetCost ws.length)).ackWhenDue s).emit (.accepted s ws.tail)
      if msgDst ws.tail ≠ d.devId then t
      else if k = .req then t.bufferRequest s ws.tail
      else ((t.linkTap s ws.tail).noteRetry ws.tail).returnCredit s c (packetCost ws.length)) := by
  obtain ⟨_, _, _, hreg⟩ := d.counted_frame s c (packetCost ws.length)
  have hlink : ((d.counted s c (packetCost ws.length)).ackWhenDue s).linkSlot s = d.linkSlot s := Dev.rd_eq_of_reg (hreg _ (by simp) (by simp)) _ _
  have hdead : ¬ (k = .req ∧ ((d.counted s c (packetCost ws.length)).ackWhenDue s).slotState
      (((d.counted s c (packetCost ws.length)).ackWhenDue s).linkSlot s) = 2) := fun h => hslot (by
    rw [← h.2, hlink]
    exact (Dev.rd_eq_of_reg (hreg _ (by simp) (by simp)) _ _).symm)
  have hdev : ((d.counted s c (packetCost ws.length)).ackWhenDue s).devId = d.devId := Dev.rd_eq_of_reg (hreg _ (by simp) (by simp)) _ _
  simp only [Dev.accept, hop]
  refine (if_neg hdead).trans ?_
  rw [← hdev]
  rfl

/-- A buffered request changes neither the pool nor the directory nor a register that shows nothing. -/
theorem Dev.bufferRequest_frame (d : Dev) (s : Nat) (ws : List Word) :
    (d.bufferRequest s ws).pool = d.pool ∧ (d.bufferRequest s ws).dir = d.dir ∧ (d.bufferRequest s ws).out = d.out ∧
      ∀ r : Reg, r.side = false → r.show = false → (d.bufferRequest s ws).reg r = d.reg r := by
  unfold Dev.bufferRequest
  split
  · dsimp only
    refine ⟨by simp, by simp, by simp, fun r hside hshow => ?_⟩
    rw [Dev.reg_store _ _ _ hshow, Dev.reg_mirror _ _ _ _ _ hside, Dev.reg_newId]
  · exact ⟨rfl, rfl, rfl, fun _ _ _ => rfl⟩

theorem Dev.linkTap_frame (d : Dev) (s : Nat) (ws : List Word) :
    (d.linkTap s ws).pool = d.pool ∧ (d.linkTap s ws).dir = d.dir ∧ (d.linkTap s ws).out = d.out ∧
      ∀ r : Reg, r.side = false → (d.linkTap s ws).reg r = d.reg r := by
  unfold Dev.linkTap
  split
  · refine ⟨by simp [Dev.consumed], by simp [Dev.consumed], by simp [Dev.consumed], fun r hside => ?_⟩
    rw [Dev.consumed, Dev.reg_mirror _ _ _ _ _ hside, Dev.reg_newId]
  · exact ⟨rfl, rfl, rfl, fun _ _ => rfl⟩

theorem Dev.noteRetry_frame (d : Dev) (ws : List Word) :
    (d.noteRetry ws).pool = d.pool ∧ (d.noteRetry ws).out = d.out ∧ (∀ r, (d.noteRetry ws).reg r = d.reg r) ∧
      (d.noteRetry ws).dir = (if msgOp ws = 0x23 ∨ msgOp ws = 0x24 then { d.dir with
        proxyOut := tmod d.dir.proxyOut (msgTag ws) fun x => { x with retried := decide (msgOp ws = 0x23) } } else d.dir) := by
  unfold Dev.noteRetry
  split
  · exact ⟨rfl, rfl, fun _ => rfl, rfl⟩
  · exact ⟨rfl, rfl, fun _ => rfl, rfl⟩

/-- An accepted message is seen, and its link's receive sequence moves on; only NRETRY and NGRANT to this device change the directory. -/
theorem Dev.accept_spec {d : Dev} {s : Nat} {c k : MsgClass} {ws : List Word} (hop : opClass (msgOp ws.tail) = some k)
    (hslot : d.slotState (d.linkSlot s) ≠ 2) :
    .accepted s ws.tail ∈ (d.accept s c ws).out ∧ (d.accept s c ws).rd (.seqStatus s) 39 28 = (d.rd (.seqStatus s) 39 28 + 1) % 4096 ∧
      (d.accept s c ws).pool = d.pool ∧ (d.accept s c ws).dir =
        (if msgDst ws.tail = d.devId ∧ (msgOp ws.tail = 0x23 ∨ msgOp ws.tail = 0x24) then { d.dir with
          proxyOut := tmod d.dir.proxyOut (msgTag ws.tail) fun x => { x with retried := decide (msgOp ws.tail = 0x23) } } else d.dir) := by
  obtain ⟨hpool, hdir, hseq, _⟩ := d.counted_frame s c (packetCost ws.length)
  rw [Dev.accept_eq hop hslot]
  generalize ((d.counted s c (packetCost ws.length)).ackWhenDue s) = x at hpool hdir hseq
  have hseen : .accepted s ws.tail ∈ (x.emit (.accepted s ws.tail)).out := Dev.mem_emit _ _
  dsimp only
  by_cases hdst : msgDst ws.tail = d.devId
  · rw [if_neg (not_not.2 hdst)]
    by_cases hreq : k = .req
    · obtain ⟨hp, hd, ho, hr⟩ := (x.emit (.accepted s ws.tail)).bufferRequest_frame s ws.tail
      have hretry : ¬ (msgDst ws.tail = d.devId ∧ (msgOp ws.tail = 0x23 ∨ msgOp ws.tail = 0x24)) := by
        rintro ⟨_, h | h⟩ <;>
        · rw [h, hreq] at hop
          exact absurd hop (by decide)
      rw [if_pos hreq, if_neg hretry]
      exact ⟨by rwa [ho], (Dev.rd_eq_of_reg (hr _ (by simp) (by simp)) _ _).trans hseq, hp.trans hpool, hd.trans hdir⟩
    · obtain ⟨hp, hd, ho, hr⟩ := (x.emit (.accepted s ws.tail)).linkTap_frame s ws.tail
      obtain ⟨hp', ho', hr', hd'⟩ := ((x.emit (.accepted s ws.tail)).linkTap s ws.tail).noteRetry_frame ws.tail
      rw [if_neg hreq]
      refine ⟨(Dev.out_returnCredit _ _ _ _).subset (by rwa [ho', ho]), ?_, ?_, ?_⟩
      · rw [Dev.rd_returnCredit, Dev.rd_eq_of_reg (hr' _), Dev.rd_eq_of_reg (hr _ (by simp))]
        exact hseq
      · rw [Dev.returnCredit_pool, hp', hp]
        exact hpool
      · rw [Dev.returnCredit_dir, hd', hd, Dev.emit_dir, hdir]
        simp only [hdst, true_and]
  · rw [if_pos hdst, if_neg fun h => hdst h.1]
    exact ⟨hseen, hseq, hpool, hdir⟩

/-! ### What a receiver sends back (R242 to R244) -/

/-- A link that is ACTIVE, not frozen and not discarding examines a packet. -/
theorem Dev.examines_packet {d : Dev} {l : Nat} (hactive : d.linkState l = 2) (hfrozen : (d.lrec l).frozen = false)
    (hdiscard : (d.lrec l).discarding = false) :
    ¬ (!d.active l || (d.lrec l).frozen) = true ∧ ¬ (!d.active l || (d.lrec l).discarding) = true := by
  simp [Dev.active, hactive, hfrozen, hdiscard]

/-- A NAK of a link names the packet before the one expected, and is counted. -/
theorem Dev.mem_sendNak (d : Dev) (s : Nat) : .block s (nakBlock ((d.rd (.seqStatus s) 39 28 + 4095) % 4096)) ∈ (d.sendNak s).out := by
  rw [Dev.sendNak, Dev.count_out, Dev.bumpWrap_out]
  exact Dev.mem_emit _ _

theorem Dev.naks_sendNak (d : Dev) (s : Nat) : (d.sendNak s).rd (.errCnt s) 47 32 = (d.rd (.errCnt s) 47 32 + 1) % 2 ^ 16 := by
  rw [Dev.sendNak, Dev.rd_count _ _ _ _ _ _ _ (by simp), Dev.bumpWrap, Dev.rd_wr_same _ _ (Reg.holds_field rfl), Dev.rd_sendBlock]

/-- The count of bad packets is a field beside the count of NAKs. -/
theorem Dev.badPackets_startDiscard (d : Dev) (s : Nat) : (d.startDiscard s).rd (.errCnt s) 63 48 = d.rd (.errCnt s) 63 48 := by
  rw [Dev.startDiscard, Dev.sendNak, Dev.rd_count _ _ _ _ _ _ _ (by simp), Dev.bumpWrap, Dev.rd_wr_field _ _ (Reg.holds_field rfl) (by decide),
    Dev.rd_sendBlock, Dev.rd_modLink]

theorem Dev.mem_startDiscard (d : Dev) (s : Nat) : .block s (nakBlock ((d.rd (.seqStatus s) 39 28 + 4095) % 4096)) ∈ (d.startDiscard s).out :=
  (d.modLink s fun r => { r with discarding := true }).mem_sendNak s

/-- A packet whose CRC is bad is counted and reported. -/
def Dev.badPacket (d : Dev) (s : Nat) : Dev :=
  ((d.bumpWrap (.errCnt s) 63 48 1).count (linkPmu s) 0x8009 1).report (linkSource s 1) (openClass 240) 0

theorem Dev.badPacket_frame (d : Dev) (s : Nat) :
    (d.badPacket s).pool = d.pool ∧ (d.badPacket s).rd (.seqStatus s) 39 28 = d.rd (.seqStatus s) 39 28 ∧
      (d.badPacket s).rd (.errCnt s) 63 48 = (d.rd (.errCnt s) 63 48 + 1) % 2 ^ 16 := by
  refine ⟨by simp [Dev.badPacket], ?_, ?_⟩
  · rw [Dev.badPacket, Dev.rd_report _ _ _ _ _ _ _ (by simp), Dev.rd_count _ _ _ _ _ _ _ (by simp), Dev.bumpWrap, Dev.rd_wr_ne _ _ _ _ _ _ (by simp)]
  · rw [Dev.badPacket, Dev.rd_report _ _ _ _ _ _ _ (by simp), Dev.rd_count _ _ _ _ _ _ _ (by simp), Dev.bumpWrap,
      Dev.rd_wr_same _ _ (Reg.holds_field rfl)]

/-- A packet in sequence with credit is accepted. -/
theorem exec_packetReceived_inSequence {l : Fin 16} {words : List Word} {s : State} (hactive : s.dev.linkState l = 2)
    (hfrozen : (s.dev.lrec l).frozen = false) (hdiscard : (s.dev.lrec l).discarding = false) (hgood : packetGood words = true)
    (hseq : getBits (word words 0) 55 44 = s.dev.rd (.seqStatus l) 39 28)
    (hcost : packetCost words.length ≤ ((s.dev.lrec l).adv.get (codeClass (getBits (word words 0) 63 62)) + 2048 -
      (s.dev.lrec l).taken.get (codeClass (getBits (word words 0) 63 62))) % 2048) :
    exec (.packetReceived l words none) s = .next (s.onto (s.dev.accept l (codeClass (getBits (word words 0) 63 62)) words)) := by
  obtain ⟨hlive, htakes⟩ := Dev.examines_packet hactive hfrozen hdiscard
  have hnext : (getBits (word words 0) 55 44 + 4096 - s.dev.rd (.seqStatus l) 39 28) % 4096 = 0 := by
    rw [hseq]
    omega
  exact exec_onto (exec_packetReceived l words none s) ((if_neg hlive).trans ((if_neg htakes).trans ((if_neg (by simp)).trans
    ((if_neg (by simp [hgood])).trans ((if_pos hnext).trans (if_pos hcost))))))

/-! ### Acknowledgement (R243) -/

/-- The receive sequence is a field beside those that show the replay buffer. -/
theorem Dev.received_setEntries (d : Dev) (s : Nat) (es : List Entry) : (d.setEntries s es).rd (.seqStatus s) 39 28 = d.rd (.seqStatus s) 39 28 := by
  dsimp only [Dev.setEntries, Dev.showEntries]
  rw [Dev.rd_wr_field _ _ (Reg.holds_field rfl) (by decide), Dev.rd_wr_field _ _ (Reg.holds_field rfl) (by decide),
    Dev.rd_wr_field _ _ (Reg.holds_field rfl) (by decide), Dev.rd_modLink]

/-- An ACK in the window drops what it covers. -/
theorem Dev.acknowledge_eq {d : Dev} {s seq : Nat} {e : Entry} {rest : List Entry} (h : (d.lrec s).entries = e :: rest)
    (hwindow : (seq + 4096 - e.seq) % 4096 ≤ rest.length) :
    (d.acknowledge s seq).1 =
      (d.setEntries s (rest.drop ((seq + 4096 - e.seq) % 4096))).modLink s fun r => { r with lastReplay := none, replays := 0 } := by
  have hcovered : (seq + 4096 - e.seq) % 4096 < (e :: rest).length := Nat.lt_succ_of_le hwindow
  unfold Dev.acknowledge
  dsimp only
  rw [h]
  dsimp only [List.head?_cons]
  rw [if_pos hcovered]
  rfl

/-- A link without residue drains none. -/
theorem Dev.drainResidue_of_nil {d : Dev} {s : Nat} (h : (d.lrec s).residue = []) : d.drainResidue s = d := if_pos (by rw [h]; rfl)

/-! ### Replay (R244, R246) -/

/-- A link that starts to resend from an entry: noted, counted and announced. -/
def Dev.announced (d : Dev) (s n : Nat) (e : Entry) : Dev :=
  (((((d.modLink s fun r => { r with lastReplay := some (e.seq, d.now), replays := n }).bumpWrap (.errCnt s) 31 16 1).count
    (linkPmu s) 0x800B 1).report (linkSource s 1) (openClass 244) e.seq).sendBlock s (replayBlock e.seq)).sendBlock s alignBlock

theorem Dev.announced_frame (d : Dev) (s n : Nat) (e : Entry) :
    (d.announced s n e).lrec s = { d.lrec s with lastReplay := some (e.seq, d.now), replays := n } ∧
      .block s (replayBlock e.seq) ∈ (d.announced s n e).out ∧
      ∀ r : Reg, r.side = false → r ≠ .errCnt s → (d.announced s n e).reg r = d.reg r := by
  refine ⟨?_, (Dev.out_sendBlock _ _ _).subset (Dev.mem_emit _ _), fun r hside hr => ?_⟩
  · rw [Dev.announced, Dev.lrec_sendBlock, Dev.lrec_sendBlock, Dev.lrec_report, Dev.lrec_count, Dev.lrec_bumpWrap, Dev.lrec_modLink_same]
  · rw [Dev.announced, Dev.reg_sendBlock, Dev.reg_sendBlock, Dev.reg_report _ _ _ _ _ hside, Dev.reg_count _ _ _ _ _ hside, Dev.bumpWrap,
      Dev.reg_wr_ne _ _ _ _ hr, Dev.reg_modLink]

/-- Sending entries again changes no record and no register of a link. -/
theorem Dev.resend_frame (d : Dev) (s : Nat) (es : List Entry) :
    (es.foldl (fun d e => d.transmit s e) d).lrec s = d.lrec s ∧ d.out <+: (es.foldl (fun d e => d.transmit s e) d).out ∧
      ∀ r : Reg, r.side = false → (es.foldl (fun d e => d.transmit s e) d).reg r = d.reg r :=
  ⟨foldl_frame (fun d : Dev => d.lrec s) _ _ (fun d e => d.lrec_transmit s e s) d, foldl_out _ _ (fun d e => d.out_transmit s e) d,
    fun r hside => foldl_frame (fun d : Dev => d.reg r) _ _ (fun d e => d.reg_transmit s e r hside) d⟩

/-- The first replay from an entry resends all that is kept, below the limit of replays. -/
theorem Dev.startReplay_first {d : Dev} {s : Nat} {e : Entry} {rest : List Entry} (h : (d.lrec s).entries = e :: rest)
    (hfirst : (d.lrec s).lastReplay = none) (hlimit : 1 < d.rd (.linkCtl s) 3 0) :
    d.startReplay s = (e :: rest).foldl (fun d e => d.transmit s e) (d.announced s 1 e) := by
  obtain ⟨hrec, _, hreg⟩ := d.announced_frame s 1 e
  obtain ⟨_, _, hreg'⟩ := (d.announced s 1 e).resend_frame s (e :: rest)
  have hentries : ((d.announced s 1 e).lrec s).entries = e :: rest := by rw [hrec, ← h]
  have hbelow : ¬ ((e :: rest).foldl (fun d e => d.transmit s e) (d.announced s 1 e)).rd (.linkCtl s) 3 0 ≤ 1 := by
    rw [Dev.rd_eq_of_reg (hreg' _ (by simp)), Dev.rd_eq_of_reg (hreg _ (by simp) (by simp))]
    omega
  have hall : d.startReplay s =
      if (((d.announced s 1 e).lrec s).entries.foldl (fun d e => d.transmit s e) (d.announced s 1 e)).rd (.linkCtl s) 3 0 ≤ 1 then
        (((d.announced s 1 e).lrec s).entries.foldl (fun d e => d.transmit s e) (d.announced s 1 e)).linkDead s 4
      else ((d.announced s 1 e).lrec s).entries.foldl (fun d e => d.transmit s e) (d.announced s 1 e) := by
    unfold Dev.startReplay
    rw [h]
    dsimp only [List.head?_cons]
    rw [hfirst]
    rfl
  rw [hall, hentries, if_neg hbelow]

/-! ### Credits (R113, R114, R247) -/

theorem Four.get_put_same (f : Four) (c : MsgClass) (v : Nat) : (f.put c v).get c = v := by cases c <;> rfl

/-- Credits that go back raise the limit advertised. -/
theorem Dev.lrec_returnCredit (d : Dev) (s : Nat) (c : MsgClass) (n : Nat) :
    ((d.returnCredit s c n).lrec s).extra = (d.lrec s).extra ∧
      ((d.returnCredit s c n).lrec s).adv = (d.lrec s).adv.put c (((d.lrec s).adv.get c + n) % 2048) := by
  unfold Dev.returnCredit
  dsimp only
  split <;> simp

/-- A receiver sets aside nothing, or cells of the shared pool within the 1,023 credits of R247. -/
theorem Dev.advertiseMore_cases (d : Dev) (s : Fin 16) (c : MsgClass) :
    d.advertiseMore s c = d.openNat.2 ∨ ∃ k, min 1023 (2 * d.reserved (.link s) c) + 2 * ((d.lrec s).extra.get c + k) ≤ 1023 ∧
      d.advertiseMore s c =
        (d.openNat.2.modLink s fun r => { r with extra := r.extra.put c (r.extra.get c + k) }).returnCredit s c (2 * k) := by
  dsimp only [Dev.advertiseMore]
  split
  next k hlast =>
    split
    · exact .inl rfl
    · have hok := (List.mem_filter.1 (List.mem_of_getLast? hlast)).2
      have hbound := of_decide_eq_true (Bool.and_eq_true_iff.1 hok).2
      rw [Dev.lrec_openNat] at hbound
      exact .inr ⟨k, le_trans (Nat.add_le_add_left (by omega) _) hbound, rfl⟩
  · exact .inl rfl

theorem Dev.advertiseMore_frame (d : Dev) (s : Fin 16) (c : MsgClass) :
    (d.advertiseMore s c).pool = d.pool ∧ (d.advertiseMore s c).dir = d.dir ∧ (∀ r, (d.advertiseMore s c).reg r = d.reg r) ∧
      d.out <+: (d.advertiseMore s c).out := by
  rcases d.advertiseMore_cases s c with h | ⟨k, _, h⟩
  · rw [h]
    exact ⟨rfl, rfl, fun _ => rfl, List.prefix_rfl⟩
  · have hout := (d.openNat.2.modLink s fun r => { r with extra := r.extra.put c (r.extra.get c + k) }).out_returnCredit s c (2 * k)
    rw [Dev.modLink_out, Dev.openNat_out] at hout
    rw [h]
    refine ⟨?_, ?_, fun r => ?_, hout⟩
    · rw [Dev.returnCredit_pool, Dev.modLink_pool, Dev.openNat_pool]
    · rw [Dev.returnCredit_dir, Dev.modLink_dir, Dev.openNat_dir]
    · rw [Dev.reg_returnCredit, Dev.reg_modLink, Dev.reg_openNat]

/-- What is advertised of the shared cells is open, within the 1,023 credits of R247. -/
theorem Dev.advertiseMore_within (d : Dev) (s : Fin 16) (c : MsgClass) :
    (d.advertiseMore s c).lrec s = d.lrec s ∨
      (min 1023 (2 * d.reserved (.link s) c) + 2 * ((d.advertiseMore s c).lrec s).extra.get c ≤ 1023 ∧ ∃ k,
        ((d.advertiseMore s c).lrec s).extra = (d.lrec s).extra.put c ((d.lrec s).extra.get c + k) ∧
        ((d.advertiseMore s c).lrec s).adv = (d.lrec s).adv.put c (((d.lrec s).adv.get c + 2 * k) % 2048)) := by
  rcases d.advertiseMore_cases s c with h | ⟨k, hbound, h⟩
  · rw [h, Dev.lrec_openNat]
    exact .inl rfl
  · obtain ⟨hextra, hadv⟩ := (d.openNat.2.modLink s fun r => { r with extra := r.extra.put c (r.extra.get c + k) }).lrec_returnCredit s c (2 * k)
    rw [Dev.lrec_modLink_same, Dev.lrec_openNat] at hextra hadv
    rw [h]
    refine .inr ⟨?_, k, hextra, hadv⟩
    rw [hextra, Four.get_put_same]
    exact hbound

/-- Advertising for every class leaves the registers and what has been sent. -/
theorem Dev.advertises_frame (d : Dev) (s : Fin 16) (cs : List MsgClass) :
    (cs.foldl (fun d c => d.advertiseMore s c) d).pool = d.pool ∧ (cs.foldl (fun d c => d.advertiseMore s c) d).dir = d.dir ∧
      (∀ r, (cs.foldl (fun d c => d.advertiseMore s c) d).reg r = d.reg r) ∧ d.out <+: (cs.foldl (fun d c => d.advertiseMore s c) d).out := by
  refine ⟨foldl_frame Dev.pool _ _ (fun d c => ?_) d, foldl_frame Dev.dir _ _ (fun d c => ?_) d,
    fun r => foldl_frame (fun d : Dev => d.reg r) _ _ (fun d c => ?_) d, foldl_out _ _ (fun d c => ?_) d⟩ <;>
    obtain ⟨hpool, hdir, hreg, hout⟩ := d.advertiseMore_frame s c
  · exact hpool
  · exact hdir
  · exact hreg r
  · exact hout

/-! ### Control blocks in error (R234) -/

/-- The first block error of a link is noted with its lane and its time, and sheds no lane. -/
theorem Dev.blockError_first {d : Dev} {s lane : Nat} (h : (d.lrec s).blockErrs = []) :
    d.blockError s lane =
      (((d.bumpWrap (.laneStatus s lane) 47 24 1).modLink s fun r => { r with blockErrs := [(lane, d.now)] }).count (linkPmu s) 0x800E 1).report
        (linkSource s 0) (openClass 234) lane := by
  have hfew : ¬ 16 ≤ ([(lane, d.now)].filter fun e => decide (e.1 = lane)).length := by simp
  unfold Dev.blockError
  dsimp only
  rw [h]
  exact if_neg hfew

theorem Dev.blockError_frame {d : Dev} {s lane : Nat} (h : (d.lrec s).blockErrs = []) :
    (d.blockError s lane).lrec s = { d.lrec s with blockErrs := [(lane, d.now)] } ∧
      (d.blockError s lane).rd (.laneStatus s lane) 47 24 = (d.rd (.laneStatus s lane) 47 24 + 1) % 2 ^ 24 ∧
      (d.blockError s lane).linkState s = d.linkState s := by
  rw [Dev.blockError_first h]
  refine ⟨?_, ?_, ?_⟩
  · rw [Dev.lrec_report, Dev.lrec_count, Dev.lrec_modLink_same, Dev.lrec_bumpWrap]
  · rw [Dev.rd_report _ _ _ _ _ _ _ (by simp), Dev.rd_count _ _ _ _ _ _ _ (by simp), Dev.rd_modLink, Dev.bumpWrap,
      Dev.rd_wr_same _ _ (Reg.holds_field rfl)]
  · rw [Dev.linkState, Dev.rd_report _ _ _ _ _ _ _ (by simp), Dev.rd_count _ _ _ _ _ _ _ (by simp), Dev.rd_modLink, Dev.bumpWrap,
      Dev.rd_wr_ne _ _ _ _ _ _ (by simp), Dev.linkState]

/-! ### The obligation -/

/-- Settles O39: a packet with credit is sent by the rule of sending; what is received goes by its CRC and its sequence; ACK, NAK and the
timers read the entries that are kept, and every credit that is advertised is within the limit of its class. -/
theorem packetsAreSentAcceptedAndReplayed : Obligations.PacketsAreSentAcceptedAndReplayed := by
  unfold Obligations.PacketsAreSentAcceptedAndReplayed
  refine ⟨?send, ?noCredit, ?accept, ?accepted, ?bad, ?old, ?ack, ?ackTimer, ?nak, ?nakLate, ?replay, ?nakRepeat, ?replayTimeout, ?credit,
    ?creditTimer, fun l _ _ => Dev.lrec_sendCredit_same _ l, fun l c d => d.advertiseMore_within l c, ?blockError⟩
  case send =>
    intro l words c s hop hactive hresidue hgo hcredit
    have hmay : (s.dev.active l && (s.dev.lrec l).residue.isEmpty && s.dev.mayGo l (msgOp words) && s.dev.canSend l c (words.length + 1)) = true := by
      simp [Dev.active, hactive, hresidue, hgo, hcredit]
    obtain ⟨hpool, hdir⟩ := s.dev.sendNew_frame l c words
    have hexec := exec_onto (d' := s.dev.sendNew l c words) (exec_stitchPacketSend l words s) (by rw [hop]; exact if_pos hmay)
    refine yields_of_eq hexec ⟨?_, ?_, ?_, fun htoll => Dev.mem_shown (s.dev.mem_sendNew l c htoll), ?_, ?_⟩
    · rw [Dev.lrec_shown, Dev.lrec_sendNew]
    · rw [Dev.rd_shown _ _ _ _ (by simp), Dev.seq_sendNew]
    · rw [Dev.lrec_shown, Dev.lrec_sendNew]
    · rw [Dev.shown_pool, hpool]
    · rw [Dev.shown_dir, hdir]
  case noCredit =>
    intro l words c s hop hcredit
    have hexec := exec_onto (d' := s.dev.count (linkPmu l) (0x8010 + classCode c) 1) (exec_stitchPacketSend l words s)
      (by rw [hop]; exact if_neg (by simp [hcredit]))
    refine yields_of_eq hexec ⟨?_, ?_, ?_, ?_⟩
    · rw [Dev.lrec_shown, Dev.lrec_count]
    · rw [Dev.rd_shown _ _ _ _ (by simp), Dev.rd_count _ _ _ _ _ _ _ (by simp)]
    · rw [Dev.shown_pool, Dev.count_pool]
    · rw [Dev.shown_dir, Dev.count_dir]
  case accept =>
    intro l words s hactive hfrozen hdiscard hgood hseq hcost
    exact exec_packetReceived_inSequence hactive hfrozen hdiscard hgood hseq hcost
  case accepted =>
    intro l words k s hactive hfrozen hdiscard hgood hseq hcost hop hslot
    obtain ⟨hseen, hnext, hpool, hdir⟩ := s.dev.accept_spec (c := codeClass (getBits (word words 0) 63 62)) hop hslot
    refine yields_of_eq (exec_packetReceived_inSequence hactive hfrozen hdiscard hgood hseq hcost) ⟨Dev.mem_shown hseen, ?_, ?_, ?_⟩
    · rw [Dev.rd_shown _ _ _ _ (by simp), hnext]
    · rw [Dev.shown_pool, hpool]
    · rw [Dev.shown_dir, hdir]
  case bad =>
    intro l words s hactive hfrozen hdiscard hbad
    obtain ⟨hlive, htakes⟩ := Dev.examines_packet hactive hfrozen hdiscard
    obtain ⟨hpool, hseq, hcount⟩ := s.dev.badPacket_frame l
    have hexec := exec_onto (d' := (s.dev.badPacket l).startDiscard l) (exec_packetReceived l words none s)
      ((if_neg hlive).trans ((if_neg htakes).trans ((if_neg (by simp)).trans (if_pos (by simp [hbad])))))
    have hnak := (s.dev.badPacket l).mem_startDiscard l
    rw [hseq] at hnak
    refine yields_of_eq hexec ⟨?_, Dev.mem_shown hnak, ?_, ?_, ?_⟩
    · rw [Dev.lrec_shown, Dev.lrec_startDiscard_same]
    · rw [Dev.rd_shown _ _ _ _ (by simp), Dev.rd_startDiscard _ _ _ _ _ (by simp) (by simp), hseq]
    · rw [Dev.rd_shown _ _ _ _ (by simp), Dev.badPackets_startDiscard, hcount]
    · rw [Dev.shown_pool, Dev.startDiscard_pool, hpool]
  case old =>
    intro l words s hactive hfrozen hdiscard hgood hbehind
    obtain ⟨hlive, htakes⟩ := Dev.examines_packet hactive hfrozen hdiscard
    have hother : (getBits (word words 0) 55 44 + 4096 - s.dev.rd (.seqStatus l) 39 28) % 4096 ≠ 0 := by omega
    have hexec := exec_onto (exec_packetReceived l words none s) ((if_neg hlive).trans ((if_neg htakes).trans ((if_neg (by simp)).trans
      ((if_neg (by simp [hgood])).trans ((if_neg hother).trans (if_pos hbehind))))))
    refine yields_of_eq hexec ⟨?_, ?_, ?_⟩
    · rw [Dev.lrec_shown, Dev.lrec_modLink_same, Dev.lrec_count, Dev.lrec_bumpWrap]
    · rw [Dev.rd_shown _ _ _ _ (by simp), Dev.rd_modLink, Dev.rd_count _ _ _ _ _ _ _ (by simp), Dev.bumpWrap, Dev.rd_wr_ne _ _ _ _ _ _ (by simp)]
    · rw [Dev.shown_pool, Dev.modLink_pool, Dev.count_pool, Dev.bumpWrap_pool]
  case ack =>
    intro l seq e rest s hactive hresidue hentries hwindow
    have hrec : ((s.dev.acknowledge l seq.toNat).1.lrec l) =
        { s.dev.lrec l with entries := rest.drop ((seq.toNat + 4096 - e.seq) % 4096), lastReplay := none, replays := 0 } := by
      rw [Dev.acknowledge_eq hentries hwindow, Dev.lrec_modLink_same, Dev.lrec_setEntries_same]
    have hdrained : (s.dev.acknowledge l seq.toNat).1.drainResidue l = (s.dev.acknowledge l seq.toNat).1 :=
      Dev.drainResidue_of_nil (by rw [hrec]; exact hresidue)
    refine yields_of_eq (exec_onto (exec_ackReceived l seq s) ((if_pos (decide_eq_true hactive)).trans hdrained)) ⟨?_, ?_, ?_⟩
    · rw [Dev.lrec_shown, hrec]
    · rw [Dev.shown_pool, Dev.acknowledge_eq hentries hwindow, Dev.modLink_pool, Dev.setEntries_pool]
    · rw [Dev.rd_shown _ _ _ _ (by simp), Dev.acknowledge_eq hentries hwindow, Dev.rd_modLink, Dev.received_setEntries]
  case ackTimer =>
    intro l s hactive howed
    obtain ⟨hpool, _, hreg⟩ := s.dev.sendAck_frame l
    refine yields_of_eq (exec_onto (exec_ackTimerExpiry l s) (if_pos ⟨decide_eq_true hactive, howed⟩))
      ⟨Dev.mem_shown (Dev.mem_emit _ _), ?_, ?_, ?_⟩
    · rw [Dev.lrec_shown, Dev.sendAck, Dev.lrec_sendBlock, Dev.lrec_modLink_same]
    · rw [Dev.linkState_shown, Dev.linkState_congr (hreg _)]
    · rw [Dev.shown_pool, hpool]
  case nak =>
    intro l seq e s hactive hfirst hlate
    refine exec_onto (exec_nakReceived l seq s) ((if_pos (decide_eq_true hactive)).trans ?_)
    dsimp only
    rw [hfirst]
    exact if_neg (by simp [hlate])
  case nakLate =>
    intro l seq e s hactive hfirst hlate
    refine exec_onto (exec_nakReceived l seq s) ((if_pos (decide_eq_true hactive)).trans ?_)
    dsimp only
    rw [hfirst]
    exact if_pos hlate
  case replay =>
    intro l first s hactive
    refine yields_of_eq (exec_onto (exec_replayReceived l first s) (if_pos (decide_eq_true hactive)))
      ⟨?_, ?_, fun r hshow => (Dev.reg_shown _ _ hshow).trans (Dev.reg_modLink _ _ _ _)⟩
    · rw [Dev.lrec_shown, Dev.lrec_modLink_same]
    · rw [Dev.shown_pool, Dev.modLink_pool]
  case nakRepeat =>
    intro l s hactive hdiscard
    refine yields_of_eq (exec_onto (exec_nakRepeatTimeout l s) (if_pos ⟨decide_eq_true hactive, hdiscard⟩))
      ⟨Dev.mem_shown (s.dev.mem_sendNak l), ?_, ?_⟩
    · rw [Dev.lrec_shown, Dev.lrec_sendNak]
    · rw [Dev.rd_shown _ _ _ _ (by simp), Dev.naks_sendNak]
  case replayTimeout =>
    intro l e rest s hactive hentries hfirst hlimit
    obtain ⟨hrec, hblock, hreg⟩ := s.dev.announced_frame l 1 e
    obtain ⟨hrec', hout, hreg'⟩ := (s.dev.announced l 1 e).resend_frame l (e :: rest)
    refine yields_of_eq (exec_onto (exec_replayTimeout l s) ((if_pos (decide_eq_true hactive)).trans (Dev.startReplay_first hentries hfirst hlimit)))
      ⟨Dev.mem_shown (hout.subset hblock), ?_, ?_, ?_, fun x hx htoll => Dev.mem_shown ?_, ?_⟩
    · rw [Dev.lrec_shown, hrec', hrec]
    · rw [Dev.lrec_shown, hrec', hrec]
    · rw [Dev.lrec_shown, hrec', hrec, ← hentries]
    · exact mem_foldl_out (fun d e => d.out_transmit l e) hx (fun d => d.mem_transmit l htoll) _
    · rw [Dev.linkState_shown, Dev.linkState_congr (hreg' _ (by simp)), Dev.linkState_congr (hreg _ (by simp) (by simp)), hactive]
  case credit =>
    intro l limits s hactive hresidue
    have hdrained : (s.dev.modLink l fun r => { r with limit := limits }).drainResidue l = s.dev.modLink l fun r => { r with limit := limits } :=
      Dev.drainResidue_of_nil (by rw [Dev.lrec_modLink_same]; exact hresidue)
    refine yields_of_eq (exec_onto (exec_creditReceived l limits s) ((if_pos (decide_eq_true hactive)).trans hdrained))
      ⟨?_, ?_, fun r hshow => (Dev.reg_shown _ _ hshow).trans (Dev.reg_modLink _ _ _ _)⟩
    · rw [Dev.lrec_shown, Dev.lrec_modLink_same]
    · rw [Dev.shown_pool, Dev.modLink_pool]
  case creditTimer =>
    intro l s hactive
    obtain ⟨hpool, hdir, hreg, hout⟩ := (s.dev.sendCredit l).advertises_frame l classes
    have hexec := exec_onto (exec_creditAdvertiseTimer l s) (if_pos (decide_eq_true hactive))
    refine ⟨hexec, yields_of_eq hexec ⟨Dev.mem_shown (hout.subset (Dev.mem_emit _ _)), ?_, ?_, ?_⟩⟩
    · rw [Dev.shown_pool, hpool, Dev.sendCredit_pool]
    · rw [Dev.shown_dir, hdir, Dev.sendCredit_dir]
    · rw [Dev.linkState_shown, Dev.linkState_congr (hreg _), Dev.linkState_congr (Dev.reg_sendCredit _ _ _), hactive]
  case blockError =>
    intro l lane s hactive hnone hdiscard
    obtain ⟨hrec, hcount, hstate⟩ := Dev.blockError_frame (lane := lane.val) hnone
    have hgoes : ((s.dev.blockError l lane).active l && !((s.dev.blockError l lane).lrec l).discarding) = true := by
      simp [Dev.active, hstate, hactive, hrec, hdiscard]
    refine yields_of_eq (exec_onto (exec_controlBlockError l lane s) ((if_pos (decide_eq_true hactive)).trans (if_pos hgoes))) ⟨?_, ?_, ?_, ?_⟩
    · rw [Dev.lrec_shown, Dev.lrec_startDiscard_same]
    · rw [Dev.lrec_shown, Dev.lrec_startDiscard_same, hrec]
    · rw [Dev.rd_shown _ _ _ _ (by simp), Dev.rd_startDiscard _ _ _ _ _ (by simp) (by simp), hcount]
    · rw [Dev.linkState_shown, Dev.linkState_congr (Dev.reg_startDiscard _ _ _ (by simp) (by simp)), hstate, hactive]

end Sys2Proof.Machine
end

section
/-! PROOFS. A Stitch link's width, its death and its takeover (R229, R250 to R256), and the commands on a link (R237, R297). Settles O40. -/

namespace Sys2Proof.Machine

theorem Dev.not_active {d : Dev} {s : Nat} (h : d.linkState s ≠ 2) : d.active s = false := decide_eq_false h

/-! ### Width (R250 to R252) -/

/-- The receive mask that a WIDTH_SET or an ALIGN row gives is all that changes. -/
theorem Dev.rxMaskSet_shown (d : Dev) (l : Nat) (mask : BitVec 4) :
    let t := (d.wr (.stlStatus l) 19 16 mask.toNat).shown
    t.rxMask l = mask.toNat ∧ d.onlyRegs t ∧ ∀ r : Reg, r ≠ .stlStatus l → r.show = false → t.reg r = d.reg r := by
  refine ⟨?_, d.onlyRegs_setReg_shown _ _, fun r hr hshow => ?_⟩
  · rw [Dev.rxMask, Dev.rd_shown _ _ _ _ (by simp), Dev.rd_wr_same _ _ (Reg.holds_field rfl)]
    exact Nat.mod_eq_of_lt mask.isLt
  · rw [Dev.reg_shown _ _ hshow, Dev.reg_wr_ne _ _ _ _ hr]

/-- A change of the transmit set announces the set and shows it. -/
theorem Dev.setTx_spec (d : Dev) (l : Nat) {mask : Nat} (h : mask < 16) :
    (d.setTx l mask).txMask l = mask ∧ .block l (widthSetBlock mask) ∈ (d.setTx l mask).out ∧ (d.setTx l mask).lrec l = d.lrec l ∧
      (d.setTx l mask).linkState l = d.linkState l := by
  refine ⟨?_, (Dev.out_sendBlock _ _ _).subset (Dev.mem_emit _ _), ?_, ?_⟩
  · rw [Dev.txMask, Dev.setTx, Dev.rd_wr_same _ _ (Reg.holds_field rfl)]
    exact Nat.mod_eq_of_lt h
  · rw [Dev.setTx, Dev.lrec_wr, Dev.lrec_sendBlock, Dev.lrec_sendBlock]
  · rw [Dev.setTx, Dev.linkState_wr _ _ _ _ _ (by decide), Dev.linkState_congr (Dev.reg_sendBlock _ _ _ _),
      Dev.linkState_congr (Dev.reg_sendBlock _ _ _ _)]

/-- The transmitter narrows at once to the set that is permitted. -/
theorem Dev.applyWidth_narrows {d : Dev} {l want : Nat} (hactive : d.linkState l = 2) (hwant : laneSetIn (d.permitted l) = want)
    (hset : want ≠ 0) (hother : want ≠ d.txMask l) (hinside : want &&& d.txMask l = want) :
    d.applyWidth l = (d.setTx l want).modLink l fun r => { r with adding := 0 } := by
  subst hwant
  exact (if_neg (by simp [Dev.active, hactive])).trans ((if_neg hset).trans ((if_neg hother).trans (if_pos hinside)))

theorem Dev.applyWidth_of_inactive {d : Dev} {l : Nat} (h : d.linkState l ≠ 2) : d.applyWidth l = d := if_pos (by simp [Dev.not_active h])

/-! ### Lost lanes (R229, R253) -/

/-- The status bit that tells what a lane has lost: signal or lock. -/
def lossBit (signal : Bool) : Nat := if signal then 63 else 62

theorem lossBit_held (signal : Bool) (l lane : Nat) : (Reg.laneStatus l lane).holds (lossBit signal) (lossBit signal) = true := by
  cases signal <;> exact Reg.holds_field rfl

/-- A loss on a lane is shown and reported. -/
def Dev.lossShown (d : Dev) (l lane : Nat) (signal : Bool) : Dev :=
  (d.wr (.laneStatus l lane) (lossBit signal) (lossBit signal) 1).report (linkSource l 0) (openClass 229) lane

theorem Dev.lossShown_frame (d : Dev) (l lane : Nat) (signal : Bool) :
    (d.lossShown l lane signal).bitOf (.laneStatus l lane) (lossBit signal) = true ∧ (d.lossShown l lane signal).lrec l = d.lrec l ∧
      (d.lossShown l lane signal).linkState l = d.linkState l := by
  refine ⟨?_, ?_, ?_⟩
  · rw [Dev.lossShown, Dev.bitOf_report _ _ _ _ _ _ (by simp), Dev.bitOf_wr_same _ _ (lossBit_held _ _ _)]
    rfl
  · rw [Dev.lossShown, Dev.lrec_report, Dev.lrec_wr]
  · rw [Dev.linkState, Dev.lossShown, Dev.rd_report _ _ _ _ _ _ _ (by simp), Dev.rd_wr_ne _ _ _ _ _ _ (by simp), Dev.linkState]

/-- Marking shed lanes writes bit 60 of their status. -/
theorem Dev.bitOf_laneStatus_showShed (d : Dev) (l lane : Nat) (signal : Bool) :
    (d.showShed l).bitOf (.laneStatus l lane) (lossBit signal) = d.bitOf (.laneStatus l lane) (lossBit signal) := by
  have habove : 60 < lossBit signal := by cases signal <;> decide
  unfold Dev.showShed
  dsimp only
  refine (foldl_frame (fun d : Dev => d.bitOf (.laneStatus l lane) (lossBit signal)) _ _
    (fun d i => Dev.bitOf_wr_field _ _ (lossBit_held _ _ _) (.inr habove)) _).trans ?_
  exact Dev.bitOf_wr_ne _ _ _ _ _ (by simp)

/-- The receiver's record once a lane is shed. -/
def LinkRec.shedding (r : LinkRec) (lane : Nat) : LinkRec :=
  { r with rxShed := r.rxShed ||| 2 ^ lane, ownMask := r.ownMask &&& (15 ^^^ 2 ^ lane), addingRx := 0 }

/-- A lane is marked shed and reported. -/
def Dev.shedShown (d : Dev) (l lane : Nat) : Dev :=
  ((d.modLink l fun r => r.shedding lane).showShed l).report (linkSource l 0) (openClass 253) lane

theorem Dev.shedShown_frame (d : Dev) (l lane : Nat) (signal : Bool) :
    (d.shedShown l lane).lrec l = (d.lrec l).shedding lane ∧ (d.shedShown l lane).linkState l = d.linkState l ∧
      (d.shedShown l lane).bitOf (.laneStatus l lane) (lossBit signal) = d.bitOf (.laneStatus l lane) (lossBit signal) := by
  refine ⟨?_, ?_, ?_⟩
  · rw [Dev.shedShown, Dev.lrec_report, Dev.lrec_showShed, Dev.lrec_modLink_same]
  · rw [Dev.shedShown, Dev.linkState_congr (Dev.reg_report _ _ _ _ _ (by simp)), Dev.linkState_congr (Dev.reg_showShed _ _ _ (by simp) (by simp)),
      Dev.linkState_modLink]
  · rw [Dev.shedShown, Dev.bitOf_report _ _ _ _ _ _ (by simp), Dev.bitOf_laneStatus_showShed, Dev.bitOf_modLink]

/-- A receiver that sheds a lane and has lanes left asks for the set without it. -/
theorem Dev.shedRx_eq {d : Dev} {l lane : Nat} (hactive : d.linkState l = 2) (hnew : bit (d.lrec l).rxShed lane = false)
    (hleft : laneSetIn ((d.lrec l).ownMask &&& (15 ^^^ 2 ^ lane)) ≠ 0) :
    d.shedRx l lane = (d.shedShown l lane).sendBlock l (widthReqBlock ((d.lrec l).ownMask &&& (15 ^^^ 2 ^ lane))) := by
  obtain ⟨hrec, hstate, _⟩ := d.shedShown_frame l lane true
  have hactive' : (d.shedShown l lane).active l = true := decide_eq_true (hstate.trans hactive)
  have hown : ((d.shedShown l lane).lrec l).ownMask = (d.lrec l).ownMask &&& (15 ^^^ 2 ^ lane) := congrArg LinkRec.ownMask hrec
  refine (if_neg (by simp [hnew])).trans ((if_pos hactive').trans ((if_neg fun h => hleft ?_).trans ?_))
  · rw [← hown]
    exact h.2
  · rw [← hown]
    rfl

/-! ### Link death and takeover (R254, R255) -/

theorem Dev.linkDead_of_inactive {d : Dev} {l : Nat} (reason : Nat) (h : d.linkState l ≠ 2) : d.linkDead l reason = d :=
  if_pos (by simp [Dev.not_active h])

/-- A stop is counted in STL.STATUS. -/
theorem Dev.downs_linkStops (d : Dev) (l reason : Nat) : (d.linkStops l reason).rd (.stlStatus l) 7 0 = (d.rd (.stlStatus l) 7 0 + 1) % 256 := by
  dsimp only [Dev.linkStops]
  rw [Dev.rd_mk, Dev.rd_modLink, Dev.rd_fabricEvent _ _ _ _ _ _ (by simp), Dev.rd_report _ _ _ _ _ _ _ (by simp),
    Dev.rd_wr_field _ _ (Reg.holds_field rfl) (by decide), Dev.rd_wr_same _ _ (Reg.holds_field rfl)]
  exact Nat.mod_mod _ _

/-- A takeover starts on the carrier: noted with the count and the last packet accepted, shown, and announced. -/
theorem Dev.startTakeover_frame (d : Dev) {l c : Nat} (h : l ≠ c) :
    ((d.startTakeover l c).lrec l).frozen = (d.lrec l).frozen ∧
      ((d.startTakeover l c).lrec l).tko = some ⟨d.rd (.stlStatus l) 7 0, (d.rd (.seqStatus l) 39 28 + 4095) % 4096, c, false⟩ ∧
      (d.startTakeover l c).bitOf (.stlStatus l) 14 = true ∧
      (∀ hi lo, (Reg.stlStatus l).holds hi lo = true → hi < 14 ∨ 14 < lo →
        (d.startTakeover l c).rd (.stlStatus l) hi lo = d.rd (.stlStatus l) hi lo) ∧
      .block c (takeoverBlock l (d.rd (.stlStatus l) 7 0) ((d.rd (.seqStatus l) 39 28 + 4095) % 4096)) ∈ (d.startTakeover l c).out := by
  dsimp only [Dev.startTakeover, Dev.sendTakeover]
  refine ⟨?_, ?_, ?_, fun hi lo hfield hbeside => ?_, Dev.mem_emit _ _⟩
  · rw [Dev.lrec_sendBlock, Dev.lrec_wr, Dev.lrec_modLink_ne _ _ h, Dev.lrec_modLink_same]
  · rw [Dev.lrec_sendBlock, Dev.lrec_wr, Dev.lrec_modLink_ne _ _ h, Dev.lrec_modLink_same]
  · rw [Dev.bitOf_sendBlock, Dev.bitOf_wr_same _ _ (Reg.holds_field rfl)]
    rfl
  · rw [Dev.rd_sendBlock, Dev.rd_wr_field _ _ hfield hbeside, Dev.rd_modLink, Dev.rd_modLink]

/-- Takeovers that a dead link carried move on; its own, which another link carries, stays. -/
theorem Dev.moveCarriers_frame (d : Dev) (n : Nat) {l : Nat} (h : ∀ t, (d.lrec l).tko = some t → t.carrier ≠ l) :
    (d.moveCarriers n l).lrec l = d.lrec l ∧ (∀ r, (d.moveCarriers n l).reg r = d.reg r) ∧ d.out <+: (d.moveCarriers n l).out := by
  unfold Dev.moveCarriers
  split
  · exact ⟨rfl, fun _ => rfl, List.prefix_rfl⟩
  next c _ =>
    refine ⟨List.foldlRecOn (motive := fun x : Dev => x.lrec l = d.lrec l) (d.bundle n) _ rfl fun x hx r _ => ?_,
      fun r => foldl_frame (fun d : Dev => d.reg r) _ _ (fun x k => ?_) d, foldl_out _ _ (fun x k => ?_) d⟩
    · split
      next t htko =>
        split
        next hcarrier =>
          have hother : l ≠ r := fun hl => h t (by rw [← hx, hl, htko]) hcarrier
          rw [Dev.sendTakeover, Dev.lrec_sendBlock, Dev.lrec_modLink_ne _ _ hother, hx]
        · exact hx
      · exact hx
    · split
      · split <;> rfl
      · rfl
    · split
      · split
        · exact (x.modLink k _).out_sendBlock _ _
        · exact List.prefix_rfl
      · exact List.prefix_rfl

/-- A link that stops with an ACTIVE link in its bundle is taken over by the lowest of them. -/
theorem Dev.linkDead_eq {d : Dev} {l reason c : Nat} (hactive : d.linkState l = 2)
    (hc : (d.linkStops l reason).lowestActive (d.linkSlot l) = some c) :
    d.linkDead l reason = ((d.linkStops l reason).startTakeover l c).moveCarriers (d.linkSlot l) l := by
  refine (if_neg (by simp [Dev.active, hactive])).trans ?_
  dsimp only
  rw [hc]

theorem Dev.linkDead_spec (d : Dev) (l : Fin 16) {reason c : Nat} (hreason : reason < 16) (hactive : d.linkState l = 2)
    (hc : (d.linkStops l reason).lowestActive (d.linkSlot l) = some c) :
    let t := d.linkDead l reason
    let downs := (d.rd (.stlStatus l) 7 0 + 1) % 256
    let last := (d.rd (.seqStatus l) 39 28 + 4095) % 4096
    t.linkState l = 3 ∧ t.rd (.stlStatus l) 27 24 = reason ∧ t.rd (.stlStatus l) 7 0 = downs ∧ t.bitOf (.stlStatus l) 14 = true ∧
      (t.lrec l).frozen = true ∧ (t.lrec l).tko = some ⟨downs, last, c, false⟩ ∧ .block c (takeoverBlock l downs last) ∈ t.out := by
  obtain ⟨hstate, hwhy, hfrozen, _, hlive, hseq, _, _⟩ := d.linkStops_spec l reason l.isLt hreason
  have hother : l.val ≠ c := by
    rintro rfl
    have hup := List.find?_some hc
    rw [hlive] at hup
    simp at hup
  obtain ⟨hfrozen', htko, hshown, hfields, hblock⟩ := (d.linkStops l reason).startTakeover_frame hother
  rw [d.downs_linkStops, hseq] at htko hblock
  obtain ⟨hrec, hreg, hout⟩ := ((d.linkStops l reason).startTakeover l c).moveCarriers_frame (d.linkSlot l) (l := l) fun t ht => by
    rw [htko] at ht
    obtain rfl := Option.some.inj ht
    exact hother.symm
  rw [Dev.linkDead_eq hactive hc]
  refine ⟨?_, ?_, ?_, ?_, ?_, ?_, hout.subset hblock⟩
  · rw [Dev.linkState_congr (hreg _), Dev.linkState, hfields _ _ (Reg.holds_field rfl) (by decide)]
    exact hstate
  · rw [Dev.rd_eq_of_reg (hreg _), hfields _ _ (Reg.holds_field rfl) (by decide), hwhy]
  · rw [Dev.rd_eq_of_reg (hreg _), hfields _ _ (Reg.holds_field rfl) (by decide), d.downs_linkStops]
  · rw [Dev.bitOf_eq_of_reg (hreg _), hshown]
  · rw [hrec, hfrozen', hfrozen]
  · rw [hrec, htko]

/-! ### Commands on a link (R237, R297) -/

/-- DOWN, by command, of a link that is not ACTIVE. -/
theorem linkDown_eq {d : Dev} {l : Nat} (h : d.linkState l = 1 ∨ d.linkState l = 3 ∨ d.linkState l = 4) :
    linkDown l d = (if d.linkState l = 3 then d.setReason l 6 else (d.enterLink l 3).setReason l 6).modLink l fun r =>
      { r with held := true, phase := 0 } := by
  refine (if_neg (by omega)).trans ?_
  rw [Dev.linkDead_of_inactive 6 (by omega)]

theorem linkDown_spec {d : Dev} {l : Nat} (h : d.linkState l = 1 ∨ d.linkState l = 3 ∨ d.linkState l = 4) :
    (linkDown l d).linkState l = 3 ∧ (linkDown l d).rd (.stlStatus l) 27 24 = 6 ∧
      (linkDown l d).lrec l = { d.lrec l with held := true, phase := 0 } ∧ (linkDown l d).pool = d.pool := by
  have hreason : ∀ x : Dev, (x.setReason l 6).rd (.stlStatus l) 27 24 = 6 := fun x => Dev.rd_wr_same _ _ (Reg.holds_field rfl)
  rw [linkDown_eq h, Dev.linkState_modLink, Dev.rd_modLink, Dev.lrec_modLink_same, Dev.modLink_pool]
  split
  next hdown => exact ⟨(Dev.linkState_setReason _ _ _ _).trans hdown, hreason _, by rw [Dev.lrec_setReason], rfl⟩
  next =>
    refine ⟨(Dev.linkState_setReason _ _ _ _).trans (Dev.linkState_enterLink _ _ _ (by decide)), hreason _, ?_, ?_⟩
    · rw [Dev.lrec_setReason, Dev.lrec_enterLink]
    · rw [Dev.setReason_pool, Dev.enterLink_pool]

/-- A link that may be retrained and has no takeover starts a new sequence of attempts. -/
theorem linkRetrain_eq {d : Dev} {l : Nat} (h : d.linkState l = 3 ∨ d.linkState l = 4) (htko : (d.lrec l).tko = none) :
    linkRetrain l d = (d.modLink l fun r => { r with held := false, attempts := 0, slow := false }).startAttempt l := by
  refine (if_pos (by omega)).trans ?_
  rw [Dev.linkDead_of_inactive 6 (by omega)]
  exact if_neg (by rw [Dev.lrec_modLink_same, htko]; decide)

theorem linkRetrain_spec {d : Dev} {l : Nat} (h : d.linkState l = 3 ∨ d.linkState l = 4) (htko : (d.lrec l).tko = none) :
    (linkRetrain l d).linkState l = 1 ∧ (linkRetrain l d).pool = d.pool ∧
      (linkRetrain l d).lrec l = LinkRec.attempted { d.lrec l with held := false, attempts := 0, slow := false } := by
  rw [linkRetrain_eq h htko]
  obtain ⟨_, hpool, _⟩ := (d.modLink l fun r => { r with held := false, attempts := 0, slow := false }).startAttempt_frame l
  obtain ⟨htrain, _⟩ := (d.modLink l fun r => { r with held := false, attempts := 0, slow := false }).startAttempt_status l
  exact ⟨htrain, hpool, by rw [Dev.lrec_startAttempt, Dev.lrec_modLink_same]⟩

theorem Dev.linkSet_of_stitch {d : Dev} {path : Path} {input : List Byte} (act : Nat → Dev → Dev) (h : d.linkMode (field input 0 1) = 1) :
    d.linkSet path input act = (act (field input 0 1) d).finish path 0xC032 0 := if_pos h

/-- LINK_SET on a link that is no Stitch link. -/
theorem Dev.linkSet_refused {d : Dev} {path : Path} {input : List Byte} (act : Nat → Dev → Dev) (h : d.linkMode (field input 0 1) ≠ 1) :
    d.linkSet path input act = d.finish path 0xC032 rcConflict := if_neg h

/-! ### The obligation -/

/-- Settles O40: width goes by the permitted set, a dead link by the rule of its stop and of the takeover that starts, and LINK_SET does
what the same writes of LINK_CTL and WIDTH_CTL do. -/
theorem widthFollowsItsMasksAndDeadLinksAreTakenOver : Obligations.WidthFollowsItsMasksAndDeadLinksAreTakenOver := by
  unfold Obligations.WidthFollowsItsMasksAndDeadLinksAreTakenOver
  refine ⟨?widthReq, ?widthSet, ?align, ?widthReady, ?widen, ?loss, ?shed, ?widthCtl, ?widthCtlBad, ?deadInactive, ?dead, ?deadLast, ?takeover,
    ?takeoverAgain, ?takeoverRepeat, ?down, ?downUnused, ?retrain, ?linkSet, ?linkSetRefused⟩
  case widthReq =>
    intro l mask s hactive want hset hother hinside
    have hwant : laneSetIn ((s.dev.modLink l fun r => { r with farMask := mask.toNat }).permitted l) = want := by
      rw [Dev.permitted, Dev.lrec_modLink_same, Dev.rd_modLink]
    obtain ⟨htx, hblock, hrec, hstate⟩ := (s.dev.modLink l fun r => { r with farMask := mask.toNat }).setTx_spec l (laneSetIn_lt _ : want < 16)
    refine yields_of_eq (exec_onto (exec_widthReqReceived l mask s) ((if_pos (decide_eq_true hactive)).trans
      (Dev.applyWidth_narrows hactive hwant hset hother hinside))) ⟨?_, Dev.mem_shown hblock, ?_, ?_⟩
    · rw [Dev.txMask, Dev.rd_shown _ _ _ _ (by simp), Dev.rd_modLink]
      exact htx
    · rw [Dev.lrec_shown, Dev.lrec_modLink_same, hrec, Dev.lrec_modLink_same]
    · rw [Dev.linkState_shown, Dev.linkState_modLink, hstate, Dev.linkState_modLink, hactive]
  case widthSet =>
    intro l mask s hactive hvalid
    exact yields_of_eq (exec_onto (exec_widthSetReceived l mask s) (if_pos ⟨decide_eq_true hactive, hvalid⟩)) (s.dev.rxMaskSet_shown l mask)
  case align =>
    intro l lanes s hactive hvalid
    exact yields_of_eq (exec_onto (exec_alignRowReceived l lanes s) (if_pos ⟨decide_eq_true hactive, hvalid⟩)) (s.dev.rxMaskSet_shown l lanes)
  case widthReady =>
    intro l mask s hactive hready want hset hother
    obtain ⟨htx, hblock, _, hstate⟩ := (s.dev.modLink l fun r =>
      { r with adding := r.adding &&& (15 ^^^ ((s.dev.lrec l).adding &&& mask.toNat)) }).setTx_spec l (laneSetIn_lt _ : want < 16)
    refine yields_of_eq (exec_onto (exec_widthReadyReceived l mask s) ((if_pos ⟨decide_eq_true hactive, hready⟩).trans
      (if_neg (not_or.2 ⟨hset, hother⟩)))) ⟨?_, Dev.mem_shown hblock, ?_⟩
    · rw [Dev.txMask, Dev.rd_shown _ _ _ _ (by simp)]
      exact htx
    · rw [Dev.linkState_shown, hstate, Dev.linkState_modLink, hactive]
  case widen =>
    intro l s
    refine yields_of_eq (exec_onto (exec_widenLaneTimeout l s) rfl) ⟨?_, fun r hshow => (Dev.reg_shown _ _ hshow).trans (Dev.reg_modLink _ _ _ _)⟩
    rw [Dev.lrec_shown, Dev.lrec_modLink_same]
  case loss =>
    intro l lane signal s hinactive
    obtain ⟨hbit, hrec, hstate⟩ := s.dev.lossShown_frame l lane signal
    have hdown : (s.dev.lossShown l lane signal).active l = false := Dev.not_active (by rwa [hstate])
    refine yields_of_eq (exec_onto (d' := s.dev.lossShown l lane signal) (exec_laneSignalLoss l lane signal s) (if_neg (Bool.eq_false_iff.1 hdown)))
      ⟨?_, ?_, ?_⟩
    · exact (Dev.bitOf_shown _ _ _ rfl).trans hbit
    · rw [Dev.lrec_shown, hrec]
    · rw [Dev.linkState_shown, hstate]
  case shed =>
    intro l lane signal s hactive hnew hleft
    obtain ⟨hbit, hrec, hstate⟩ := s.dev.lossShown_frame l lane signal
    obtain ⟨hrec', hstate', hbit'⟩ := (s.dev.lossShown l lane signal).shedShown_frame l lane signal
    have hshed := Dev.shedRx_eq (d := s.dev.lossShown l lane signal) (hstate.trans hactive) (by rwa [hrec]) (by rwa [hrec])
    rw [hrec] at hshed hrec'
    refine yields_of_eq (exec_onto (exec_laneSignalLoss l lane signal s) ((if_pos (decide_eq_true (hstate.trans hactive))).trans hshed))
      ⟨?_, ?_, ?_, Dev.mem_shown (Dev.mem_emit _ _), ?_⟩
    · refine (Dev.bitOf_shown _ _ _ rfl).trans ?_
      rw [Dev.bitOf_sendBlock]
      exact hbit'.trans hbit
    · rw [Dev.lrec_shown, Dev.lrec_sendBlock, hrec']
      rfl
    · rw [Dev.lrec_shown, Dev.lrec_sendBlock, hrec']
      rfl
    · rw [Dev.linkState_shown, Dev.linkState_congr (Dev.reg_sendBlock _ _ _ _), hstate', hstate, hactive]
  case widthCtl =>
    intro l target s hvalid hinactive
    have hstays : (s.dev.wr (.widthCtl l) 3 0 target.toNat).linkState l ≠ 2 := by
      rwa [Dev.linkState, Dev.rd_wr_ne _ _ _ _ _ _ (by simp)]
    refine yields_of_eq (exec_onto (exec_widthCtlWrite l target s) ((if_pos hvalid).trans (Dev.applyWidth_of_inactive hstays)))
      ⟨?_, s.dev.onlyRegs_setReg_shown _ _, fun r hr hshow => ?_⟩
    · rw [Dev.rd_shown _ _ _ _ (by simp), Dev.rd_wr_same _ _ (Reg.holds_field rfl)]
      exact Nat.mod_eq_of_lt target.isLt
    · rw [Dev.reg_shown _ _ hshow, Dev.reg_wr_ne _ _ _ _ hr]
  case widthCtlBad =>
    intro l target s hbad
    exact exec_onto (exec_widthCtlWrite l target s) (if_neg (Bool.eq_false_iff.1 hbad))
  case deadInactive =>
    intro l reason s hinactive
    exact exec_onto (exec_linkDeclaredDead l reason s) (Dev.linkDead_of_inactive _ hinactive)
  case dead =>
    intro l reason c s hactive hc
    obtain ⟨hstate, hwhy, hdowns, hbit, hfrozen, htko, hblock⟩ := s.dev.linkDead_spec l reason.isLt hactive hc
    refine yields_of_eq (exec_onto (exec_linkDeclaredDead l reason s) rfl)
      ⟨?_, ?_, ?_, (Dev.bitOf_shown _ _ _ rfl).trans hbit, ?_, ?_, Dev.mem_shown hblock⟩
    · rw [Dev.linkState_shown, hstate]
    · rw [Dev.rd_shown _ _ _ _ (by simp), hwhy]
    · rw [Dev.rd_shown _ _ _ _ (by simp), hdowns]
    · rw [Dev.lrec_shown, hfrozen]
    · rw [Dev.lrec_shown, htko]
  case deadLast =>
    intro l reason s hactive hnone
    refine exec_onto (exec_linkDeclaredDead l reason s) ((if_neg (by simp [Dev.active, hactive])).trans ?_)
    dsimp only
    rw [hnone]
  case takeover =>
    intro carrier dead event lastAccepted l s hpeer hactive
    refine exec_onto (exec_takeoverReceived carrier dead event lastAccepted s) ?_
    rw [hpeer]
    exact if_pos (decide_eq_true hactive)
  case takeoverAgain =>
    intro carrier dead event lastAccepted l k s hpeer hactive hdown htko hseen
    have hresent : s.dev.takeoverIn carrier l event.toNat lastAccepted.toNat = s.dev.sendTakeover l k := by
      unfold Dev.takeoverIn
      dsimp only
      rw [Dev.linkDead_of_inactive 7 (by omega), htko]
      exact if_pos hseen
    have hexec := exec_onto (d' := s.dev.sendTakeover l k) (exec_takeoverReceived carrier dead event lastAccepted s)
      (by rw [hpeer]; exact (if_pos (decide_eq_true hactive)).trans hresent)
    exact yields_of_eq hexec ⟨Dev.mem_shown (Dev.mem_emit _ _), Dev.shown_link _, Dev.shown_pool _⟩
  case takeoverRepeat =>
    intro l k s htko hseen
    have hexec := exec_onto (d' := s.dev.sendTakeover l k) (exec_takeoverRepeat l s) (by rw [htko]; exact if_neg (by simp [hseen]))
    exact yields_of_eq hexec ⟨Dev.mem_shown (Dev.mem_emit _ _), Dev.shown_link _, Dev.shown_pool _⟩
  case down =>
    intro l s hstate
    obtain ⟨hdown, hwhy, hrec, hpool⟩ := linkDown_spec hstate
    refine yields_of_eq (exec_onto (exec_linkCtlDown l s) rfl) ⟨?_, ?_, ?_, ?_⟩
    · rw [Dev.linkState_shown, hdown]
    · rw [Dev.rd_shown _ _ _ _ (by simp), hwhy]
    · rw [Dev.lrec_shown, hrec]
    · rw [Dev.shown_pool, hpool]
  case downUnused =>
    intro l s hunused
    exact exec_onto (exec_linkCtlDown l s) (if_pos hunused)
  case retrain =>
    intro l s hstate htko
    obtain ⟨htrain, hpool, hrec⟩ := linkRetrain_spec hstate htko
    have hshown := (Dev.lrec_shown _ l).trans hrec
    refine yields_of_eq (exec_onto (exec_linkCtlRetrain l s) rfl) ⟨?_, congrArg LinkRec.phase hshown, congrArg LinkRec.attempts hshown,
      congrArg LinkRec.held hshown, congrArg LinkRec.slow hshown, ?_⟩
    · rw [Dev.linkState_shown, htrain]
    · rw [Dev.shown_pool, hpool]
  case linkSet =>
    intro path input s htakes hstitch
    exact ⟨fun hform => exec_stoluo htakes (exec_linkSetDown path input s) hform (Dev.linkSet_of_stitch _ hstitch),
      fun hform => exec_stoluo htakes (exec_linkSetRetrain path input s) hform (Dev.linkSet_of_stitch _ hstitch),
      fun hform hset => exec_stoluo htakes (exec_linkSetTarget path input s) (by rw [hform, hset]; rfl) (Dev.linkSet_of_stitch _ hstitch)⟩
  case linkSetRefused =>
    intro path input s htakes hother hform
    refine yields_stoluo htakes (exec_linkSetDown path input s) hform ?_
    rw [Dev.linkSet_refused _ hother]
    exact ⟨Dev.replied_finish (by decide), Dev.onlyRead_end⟩

end Sys2Proof.Machine
end

section
/-! PROOFS. A step: the front command's, or one cycle of the AO clock on an empty queue (R274, R368). Settles O1. -/

namespace Sys2Proof.Machine

/-! ### What the parts of a tick leave alone -/

/-- What no part of a tick changes once fabric time has advanced. -/
structure Dev.KeepsTime (d d' : Dev) : Prop where
  ftime : d'.reg .ftime = d.reg .ftime
  pool : d'.pool = d.pool
  dir : d'.dir = d.dir
  sw : d'.sw = d.sw
  svc : d'.svc = d.svc
  mgmt : d'.mgmt = d.mgmt
  sec : d'.sec = d.sec

theorem Dev.KeepsTime.refl (d : Dev) : d.KeepsTime d := ⟨rfl, rfl, rfl, rfl, rfl, rfl, rfl⟩

theorem Dev.KeepsTime.trans {d d' d'' : Dev} (h : d.KeepsTime d') (h' : d'.KeepsTime d'') : d.KeepsTime d'' :=
  ⟨h'.ftime.trans h.ftime, h'.pool.trans h.pool, h'.dir.trans h.dir, h'.sw.trans h.sw, h'.svc.trans h.svc, h'.mgmt.trans h.mgmt,
    h'.sec.trans h.sec⟩

theorem Dev.KeepsTime.foldl {α : Type} {f : Dev → α → Dev} (h : ∀ (d : Dev) (x : α), d.KeepsTime (f d x)) (l : List α) (d : Dev) :
    d.KeepsTime (l.foldl f d) := by
  induction l generalizing d with
  | nil => exact .refl d
  | cons x l ih => exact (h d x).trans (ih _)

theorem Dev.keepsTime_setReg (d : Dev) {r : Reg} (v : Word) (h : r ≠ .ftime) : d.KeepsTime (d.setReg r v) :=
  ⟨d.reg_setReg_ne v h.symm, rfl, rfl, rfl, rfl, rfl, rfl⟩

theorem Dev.keepsTime_wr (d : Dev) {r : Reg} (hi lo n : Nat) (h : r ≠ .ftime) : d.KeepsTime (d.wr r hi lo n) := d.keepsTime_setReg _ h

theorem Dev.keepsTime_pwr (d : Dev) (p : PwrState) : d.KeepsTime { d with pwr := p } := ⟨rfl, rfl, rfl, rfl, rfl, rfl, rfl⟩

theorem Dev.keepsTime_addCounter (d : Dev) (u i n : Nat) : d.KeepsTime (d.addCounter u i n) :=
  ⟨d.reg_addCounter u i n _ rfl, by simp, by simp, by simp, by simp, by simp, by simp⟩

theorem Dev.keepsTime_countOccupancy (d : Dev) (u i : Nat) : d.KeepsTime (d.countOccupancy u i) := by
  unfold Dev.countOccupancy
  dsimp only
  split
  · split
    · exact d.keepsTime_addCounter _ _ _
    · split
      · exact d.keepsTime_addCounter _ _ _
      · exact .refl d
  · exact .refl d

theorem Dev.keepsTime_countCycles (d : Dev) (u : Nat) : d.KeepsTime (d.countCycles u) := by
  unfold Dev.countCycles
  dsimp only
  have hcount (v : Word) : d.KeepsTime (d.setReg (.pmcCycles u) v) := d.keepsTime_setReg v (by simp)
  split
  · exact hcount _
  · exact (hcount _).trans (Dev.keepsTime_wr _ _ _ _ (by simp))

theorem Dev.keepsTime_tickPmu (d : Dev) (u : Nat) : d.KeepsTime (d.tickPmu u) := by
  unfold Dev.tickPmu
  split
  · exact .refl d
  · exact (d.keepsTime_countCycles u).trans (.foldl (fun d i => d.keepsTime_countOccupancy u i) _ _)

theorem Dev.keepsTime_setTarget (d : Dev) (mv : Nat) : d.KeepsTime (d.setTarget mv) :=
  (((d.keepsTime_wr 11 0 mv (by simp)).trans (Dev.keepsTime_wr _ 35 24 (mv + 50) (by simp))).trans
    (Dev.keepsTime_wr _ 23 12 (mv - 50) (by simp))).trans (Dev.keepsTime_pwr _ _)

theorem Dev.keepsTime_tickAvs (d : Dev) : d.KeepsTime d.tickAvs := by
  unfold Dev.tickAvs
  split
  · exact .refl d
  · exact d.keepsTime_setTarget _
  · exact d.keepsTime_pwr _

/-! ### A tick -/

/-- Every bit of FTIME holds a value. -/
theorem Dev.reg_setReg_ftime (d : Dev) (v : Word) : (d.setReg .ftime v).reg .ftime = v := by
  have hmask : Reg.mask .ftime = BitVec.allOnes 64 := by decide
  rw [Dev.reg_setReg_same, hmask, BitVec.and_allOnes]

/-- After the advance of fabric time a tick keeps it, and what no clock cycle changes. -/
theorem Dev.keepsTime_tick (d : Dev) : (d.setReg .ftime (d.reg .ftime + 40)).KeepsTime d.tick :=
  (Dev.keepsTime_tickAvs _).trans (.foldl Dev.keepsTime_tickPmu _ _)

/-! ### The obligation -/

/-- Settles O1: a step goes by the queue; the tick adds 40 ns to FTIME, and its voltage window and performance monitors keep the rest. -/
theorem stepRunsTheFrontCommand : Obligations.StepRunsTheFrontCommand := by
  unfold Obligations.StepRunsTheFrontCommand
  constructor
  · intro c rest s hqueue
    rw [step, hqueue]
  · intro s hempty
    obtain ⟨hftime, hpool, hdir, hsw, hsvc, hmgmt, hsec⟩ := s.dev.keepsTime_tick
    refine ⟨?_, hftime.trans (Dev.reg_setReg_ftime _ _), hpool, hdir, hsw, hsvc, hmgmt, hsec⟩
    rw [step, hempty]
    rfl

end Sys2Proof.Machine
end

section
/-! PROOFS. Tolls: what following fabric time writes (R274), how rejoins count (R279), and the deaths that Tolls and silence tell (R272,
R273). Settles O41. -/

namespace Sys2Proof.Machine

/-! ### What following fabric time leaves alone -/

/-- What counting and following fabric time leave: all but the counters, TIME_STATUS, FTIME, and the records of the exchanges. -/
structure Dev.Timed (d d' : Dev) : Prop where
  reg : ∀ r : Reg, r.side = false → r ≠ .timeStatus → r ≠ .ftime → d'.reg r = d.reg r
  rejoins : d'.fab.rejoins = d.fab.rejoins
  pool : d'.pool = d.pool
  dir : d'.dir = d.dir
  sw : d'.sw = d.sw
  link : d'.link = d.link

theorem Dev.Timed.trans {d d' d'' : Dev} (h : d.Timed d') (h' : d'.Timed d'') : d.Timed d'' :=
  ⟨fun r hside hstatus hftime => (h'.reg r hside hstatus hftime).trans (h.reg r hside hstatus hftime), h'.rejoins.trans h.rejoins,
    h'.pool.trans h.pool, h'.dir.trans h.dir, h'.sw.trans h.sw, h'.link.trans h.link⟩

theorem Dev.Timed.slotState {d d' : Dev} (h : d.Timed d') (n : Nat) : d'.slotState n = d.slotState n :=
  Dev.rd_eq_of_reg (h.reg _ (by simp) (by simp) (by simp)) 61 60

theorem Dev.Timed.rd_tollCtl {d d' : Dev} (h : d.Timed d') (hi lo : Nat) : d'.rd .tollCtl hi lo = d.rd .tollCtl hi lo :=
  Dev.rd_eq_of_reg (h.reg _ rfl (by simp) (by simp)) hi lo

theorem Dev.timed_count (d : Dev) (u ev n : Nat) : d.Timed (d.count u ev n) :=
  ⟨fun r hside _ _ => d.reg_count u ev n r hside, by simp, by simp, by simp, by simp, by simp⟩

theorem Dev.timed_wr_timeStatus (d : Dev) (hi lo n : Nat) : d.Timed (d.wr .timeStatus hi lo n) :=
  ⟨fun _ _ hstatus _ => d.reg_wr_ne hi lo n hstatus, rfl, rfl, rfl, rfl, rfl⟩

theorem Dev.timed_setReg_ftime (d : Dev) (v : Word) : d.Timed (d.setReg .ftime v) :=
  ⟨fun _ _ _ hftime => d.reg_setReg_ne v hftime, rfl, rfl, rfl, rfl, rfl⟩

theorem Dev.Timed.wr_timeStatus {d d' : Dev} (h : d.Timed d') (hi lo n : Nat) : d.Timed (d'.wr .timeStatus hi lo n) :=
  h.trans (d'.timed_wr_timeStatus hi lo n)

/-- The records of the exchanges are written. -/
theorem Dev.Timed.fab {d d' : Dev} (h : d.Timed d') {f : FabState} (hf : f.rejoins = d'.fab.rejoins) : d.Timed { d' with fab := f } :=
  h.trans ⟨fun _ _ _ _ => rfl, hf, rfl, rfl, rfl, rfl⟩

theorem Dev.Timed.ite {d a b : Dev} {c : Prop} [Decidable c] (ha : d.Timed a) (hb : d.Timed b) : d.Timed (if c then a else b) := by
  split <;> assumption

/-! ### One exchange (R274) -/

/-- The lock set, cleared or left by the counts of consecutive exchanges. -/
def Dev.lockMoved (d : Dev) (low high : Nat) : Dev :=
  if 8 ≤ low then d.wr .timeStatus 31 31 1 else if 8 ≤ high then d.wr .timeStatus 31 31 0 else d

/-- FTIME stepped by a theta beyond 10,000 ns. -/
def Dev.timeStepped (d : Dev) (theta : Int) : Dev :=
  if 10000 < theta.natAbs then d.setReg .ftime (BitVec.ofInt 64 ((d.now : Int) - theta)) else d

/-- The consecutive exchanges within 20 ns, with one of a given theta. -/
def Dev.lowNext (d : Dev) (theta : Int) : Nat := if theta.natAbs ≤ 20 then d.fab.low + 1 else 0

/-- The consecutive exchanges beyond 40 ns, with one of a given theta. -/
def Dev.highNext (d : Dev) (theta : Int) : Nat := if 40 < theta.natAbs then d.fab.high + 1 else 0

/-- The device with an exchange counted, and its theta and depth shown. -/
def Dev.exchangeShown (d : Dev) (theta : Int) (depth : Nat) : Dev :=
  let counted : Dev := { d with fab := { d.fab with low := min 8 (d.lowNext theta), high := min 8 (d.highNext theta) } }
  (counted.wr .timeStatus 15 0 (offsetField theta)).wr .timeStatus 29 25 (min 31 (depth + 1))

theorem Dev.exchange_eq (d : Dev) (theta : Int) (depth : Nat) :
    d.exchange theta depth = ((d.exchangeShown theta depth).lockMoved (d.lowNext theta) (d.highNext theta)).timeStepped theta := rfl

theorem Dev.Timed.exchange {d d' : Dev} (h : d.Timed d') (theta : Int) (depth : Nat) : d.Timed (d'.exchange theta depth) := by
  have hshown : d.Timed (d'.exchangeShown theta depth) := by
    refine .wr_timeStatus (.wr_timeStatus (.fab h ?_) _ _ _) _ _ _
    rfl
  have hlock : d.Timed ((d'.exchangeShown theta depth).lockMoved (d'.lowNext theta) (d'.highNext theta)) :=
    .ite (hshown.wr_timeStatus _ _ _) (.ite (hshown.wr_timeStatus _ _ _) hshown)
  exact .ite (hlock.trans (Dev.timed_setReg_ftime _ _)) hlock

/-- The lock is bit 31 of TIME_STATUS; its other fields stay. -/
theorem Dev.rd_timeStatus_lockMoved (d : Dev) (low high : Nat) {hi lo : Nat} (hfield : Reg.timeStatus.holds hi lo = true) (h : hi < 31) :
    (d.lockMoved low high).rd .timeStatus hi lo = d.rd .timeStatus hi lo := by
  unfold Dev.lockMoved
  split
  · exact d.rd_wr_field _ hfield (.inl h)
  · split
    · exact d.rd_wr_field _ hfield (.inl h)
    · rfl

theorem Dev.reg_lockMoved (d : Dev) (low high : Nat) {r : Reg} (h : r ≠ .timeStatus) : (d.lockMoved low high).reg r = d.reg r := by
  unfold Dev.lockMoved
  split
  · exact d.reg_wr_ne _ _ _ h
  · split
    · exact d.reg_wr_ne _ _ _ h
    · rfl

theorem Dev.locked_lockMoved (d : Dev) (low high : Nat) : (d.lockMoved low high).bitOf .timeStatus 31 =
    if 8 ≤ low then true else if 8 ≤ high then false else d.bitOf .timeStatus 31 := by
  have hfield : Reg.timeStatus.holds 31 31 = true := Reg.holds_field rfl
  unfold Dev.lockMoved
  split
  · exact d.bitOf_wr_same 1 hfield
  · split
    · exact d.bitOf_wr_same 0 hfield
    · rfl

theorem Dev.rd_timeStatus_timeStepped (d : Dev) (theta : Int) (hi lo : Nat) :
    (d.timeStepped theta).rd .timeStatus hi lo = d.rd .timeStatus hi lo := by
  unfold Dev.timeStepped
  split
  · exact d.rd_setReg_ne _ hi lo (by simp)
  · rfl

theorem Dev.ftime_timeStepped (d : Dev) (theta : Int) : (d.timeStepped theta).reg .ftime =
    if 10000 < theta.natAbs then BitVec.ofInt 64 ((d.now : Int) - theta) else d.reg .ftime := by
  unfold Dev.timeStepped
  split
  · exact d.reg_setReg_ftime _
  · rfl

/-- A field of TIME_STATUS below the lock reads after an exchange what was shown of it. -/
theorem Dev.rd_timeStatus_exchange (d : Dev) (theta : Int) (depth : Nat) {hi lo : Nat} (hfield : Reg.timeStatus.holds hi lo = true)
    (h : hi < 31) : (d.exchange theta depth).rd .timeStatus hi lo = (d.exchangeShown theta depth).rd .timeStatus hi lo := by
  rw [Dev.exchange_eq, Dev.rd_timeStatus_timeStepped, Dev.rd_timeStatus_lockMoved _ _ _ hfield h]

theorem offsetField_lt (theta : Int) : offsetField theta < 2 ^ 16 := by
  unfold offsetField
  dsimp only
  split <;> omega

theorem Dev.offset_exchange (d : Dev) (theta : Int) (depth : Nat) :
    (d.exchange theta depth).rd .timeStatus 15 0 = offsetField theta := by
  have hfield : Reg.timeStatus.holds 15 0 = true := Reg.holds_field rfl
  rw [Dev.rd_timeStatus_exchange _ _ _ hfield (by decide), Dev.exchangeShown, Dev.rd_wr_field _ _ hfield (by decide),
    Dev.rd_wr_same _ _ hfield]
  exact Nat.mod_eq_of_lt (offsetField_lt theta)

theorem Dev.depth_exchange (d : Dev) (theta : Int) (depth : Nat) :
    (d.exchange theta depth).rd .timeStatus 29 25 = min 31 (depth + 1) := by
  have hfield : Reg.timeStatus.holds 29 25 = true := Reg.holds_field rfl
  rw [Dev.rd_timeStatus_exchange _ _ _ hfield (by decide), Dev.exchangeShown, Dev.rd_wr_same _ _ hfield]
  exact Nat.mod_eq_of_lt (by omega)

/-- An exchange leaves the source and the holdover bit. -/
theorem Dev.source_exchange (d : Dev) (theta : Int) (depth : Nat) :
    (d.exchange theta depth).rd .timeStatus 24 21 = d.rd .timeStatus 24 21 ∧
      (d.exchange theta depth).bitOf .timeStatus 30 = d.bitOf .timeStatus 30 := by
  have hsource : Reg.timeStatus.holds 24 21 = true := Reg.holds_field rfl
  have hholdover : Reg.timeStatus.holds 30 30 = true := Reg.holds_field rfl
  constructor
  · rw [Dev.rd_timeStatus_exchange _ _ _ hsource (by decide), Dev.exchangeShown, Dev.rd_wr_field _ _ hsource (by decide),
      Dev.rd_wr_field _ _ hsource (by decide)]
    rfl
  · rw [Dev.bitOf, Dev.rd_timeStatus_exchange _ _ _ hholdover (by decide), Dev.exchangeShown, Dev.rd_wr_field _ _ hholdover (by decide),
      Dev.rd_wr_field _ _ hholdover (by decide)]
    rfl

theorem Dev.locked_exchange (d : Dev) (theta : Int) (depth : Nat) : (d.exchange theta depth).bitOf .timeStatus 31 =
    if 8 ≤ d.lowNext theta then true else if 8 ≤ d.highNext theta then false else d.bitOf .timeStatus 31 := by
  have hfield : Reg.timeStatus.holds 31 31 = true := Reg.holds_field rfl
  have hshown : (d.exchangeShown theta depth).bitOf .timeStatus 31 = d.bitOf .timeStatus 31 := by
    rw [Dev.exchangeShown, Dev.bitOf_wr_field _ _ hfield (by decide), Dev.bitOf_wr_field _ _ hfield (by decide)]
    rfl
  rw [Dev.exchange_eq, Dev.bitOf, Dev.rd_timeStatus_timeStepped, ← Dev.bitOf, Dev.locked_lockMoved, hshown]

/-- A theta between 20 and 40 ns leaves the lock. -/
theorem Dev.lock_kept_exchange {d : Dev} {theta : Int} (depth : Nat) (hbeyond : 20 < theta.natAbs) (hwithin : theta.natAbs ≤ 40) :
    (d.exchange theta depth).bitOf .timeStatus 31 = d.bitOf .timeStatus 31 := by
  rw [Dev.locked_exchange, Dev.lowNext, if_neg (Nat.not_le.2 hbeyond), Dev.highNext, if_neg (Nat.not_lt.2 hwithin)]
  rfl

/-- The eighth consecutive theta within 20 ns locks. -/
theorem Dev.locked_exchange_low {d : Dev} {theta : Int} (depth : Nat) (hwithin : theta.natAbs ≤ 20) (hcounted : 7 ≤ d.fab.low) :
    (d.exchange theta depth).bitOf .timeStatus 31 = true := by
  rw [Dev.locked_exchange, Dev.lowNext, if_pos hwithin, if_pos (Nat.succ_le_succ hcounted)]

/-- The eighth consecutive theta beyond 40 ns unlocks. -/
theorem Dev.unlocked_exchange_high {d : Dev} {theta : Int} (depth : Nat) (hbeyond : 40 < theta.natAbs) (hcounted : 7 ≤ d.fab.high) :
    (d.exchange theta depth).bitOf .timeStatus 31 = false := by
  have hlow : ¬ theta.natAbs ≤ 20 := by omega
  rw [Dev.locked_exchange, Dev.lowNext, if_neg hlow, Dev.highNext, if_pos hbeyond, if_pos (Nat.succ_le_succ hcounted)]
  rfl

theorem Dev.ftime_exchange (d : Dev) (theta : Int) (depth : Nat) : (d.exchange theta depth).reg .ftime =
    if 10000 < theta.natAbs then BitVec.ofInt 64 ((d.now : Int) - theta) else d.reg .ftime := by
  have hftime : ((d.exchangeShown theta depth).lockMoved (d.lowNext theta) (d.highNext theta)).reg .ftime = d.reg .ftime :=
    (Dev.reg_lockMoved _ _ _ (by simp)).trans ((Dev.reg_wr_ne _ _ _ _ (by simp)).trans (Dev.reg_wr_ne _ _ _ _ (by simp)))
  rw [Dev.exchange_eq, Dev.ftime_timeStepped, Dev.now, hftime, Dev.now]

/-! ### Following the source -/

/-- The device that holds fabric time after a Toll of its live parent with TIME_VALID. -/
def Dev.afterParent (d : Dev) (n : Nat) : Dev :=
  ((({ d with fab := { d.fab with parentOk := true } } : Dev).wr .timeStatus 24 21 n).wr .timeStatus 30 30 0)

/-- The times of the last Toll received on a link are kept for the next one sent. -/
def Dev.noteToll (d : Dev) (l t1 t2 : Nat) : Dev := { d with fab := { d.fab with tollRx := tset d.fab.tollRx l (t1, t2) } }

theorem Dev.Timed.followTime {d d' : Dev} (h : d.Timed d') : d.Timed d'.followTime := by
  unfold Dev.followTime
  split
  · exact h
  · split
    · exact (h.wr_timeStatus _ _ _).wr_timeStatus _ _ _
    · refine .wr_timeStatus (.wr_timeStatus (.fab h ?_) _ _ _) _ _ _
      rfl

theorem Dev.Timed.tollTime {d d' : Dev} (h : d.Timed d') (l n : Nat) (words : List Word) : d.Timed (d'.tollTime l n words) := by
  have hparent (valid : Bool) : d.Timed (if n = d'.rd .fabCfg 23 20 then { d' with fab := { d'.fab with parentOk := valid } } else d') :=
    .ite (h.fab rfl) h
  refine .fab (.ite (.exchange (hparent _).followTime _ _) (hparent _).followTime) ?_
  rfl

theorem Dev.timeSource_of_parent {d : Dev} (hroot : d.bitOf .fabCfg 30 = false) (halive : d.slotState (d.rd .fabCfg 23 20) = 1)
    (hvalid : d.fab.parentOk = true) : d.timeSource = some (d.rd .fabCfg 23 20) := by
  simp [Dev.timeSource, hroot, halive, hvalid]

/-- Writing TIME_STATUS changes nothing that the source is chosen by. -/
theorem Dev.timeSource_congr {d d' : Dev} (hreg : ∀ r : Reg, r ≠ .timeStatus → d'.reg r = d.reg r)
    (hfab : d'.fab.parentOk = d.fab.parentOk) : d'.timeSource = d.timeSource := by
  have hbit (i : Nat) : d'.bitOf .fabCfg i = d.bitOf .fabCfg i := Dev.bitOf_eq_of_reg (hreg _ (by simp)) i
  have hrd (hi lo : Nat) : d'.rd .fabCfg hi lo = d.rd .fabCfg hi lo := Dev.rd_eq_of_reg (hreg _ (by simp)) hi lo
  have hstate (n : Nat) : d'.slotState n = d.slotState n := Dev.rd_eq_of_reg (hreg _ (by simp)) 61 60
  simp only [Dev.timeSource, hbit, hrd, hstate, hfab]

theorem Dev.reg_afterParent (d : Dev) (n : Nat) {r : Reg} (h : r ≠ .timeStatus) : (d.afterParent n).reg r = d.reg r :=
  (Dev.reg_wr_ne _ _ _ _ h).trans (Dev.reg_wr_ne _ _ _ _ h)

theorem Dev.fab_afterParent (d : Dev) (n : Nat) : (d.afterParent n).fab = { d.fab with parentOk := true } := rfl

theorem Dev.timeStatus_afterParent (d : Dev) (n : Fin 16) : (d.afterParent n).rd .timeStatus 24 21 = n.val ∧
    (d.afterParent n).bitOf .timeStatus 30 = false ∧ (d.afterParent n).bitOf .timeStatus 31 = d.bitOf .timeStatus 31 := by
  have hfield {hi lo : Nat} (h : Reg.timeStatus.hasField hi lo = true) : Reg.timeStatus.holds hi lo = true := Reg.holds_field h
  refine ⟨?_, Dev.bitOf_wr_same _ 0 (hfield rfl), ?_⟩
  · exact ((Dev.rd_wr_field _ _ (hfield rfl) (by decide)).trans (Dev.rd_wr_same _ _ (hfield rfl))).trans (Nat.mod_eq_of_lt n.isLt)
  · exact (Dev.bitOf_wr_field _ _ (hfield rfl) (by decide)).trans (Dev.bitOf_wr_field _ _ (hfield rfl) (by decide))

/-- The device that follows fabric time with what a Toll of a slot tells. -/
def Dev.tollFollowed (d : Dev) (n : Nat) (words : List Word) : Dev :=
  (if n = d.rd .fabCfg 23 20 then { d with fab := { d.fab with parentOk := decide (getBits (word words 5) 59 59 = 1) } } else d).followTime

/-- A Toll answers one that was sent on the link within the last four periods. -/
def Dev.tollAnswers (d : Dev) (l now : Nat) (words : List Word) : Bool :=
  (tgetD d.fab.tollTx l []).contains (word words 3).toNat && decide (now ≤ (word words 3).toNat + 4 * (d.rd .tollCtl 15 0 * 1000))

theorem Dev.tollTime_eq (d : Dev) (l n : Nat) (words : List Word) : d.tollTime l n words =
    Dev.noteToll (if (decide (getBits (word words 5) 59 59 = 1) && decide ((d.tollFollowed n words).timeSource = some n) &&
        decide ((word words 3).toNat ≠ 0) && (d.tollFollowed n words).tollAnswers l d.now words) = true then
      (d.tollFollowed n words).exchange (thetaOf (word words 2).toNat d.now (word words 3).toNat (word words 4).toNat)
        (getBits (word words 5) 58 54)
    else d.tollFollowed n words) l (word words 2).toNat d.now := rfl

/-- A Toll of the live parent with TIME_VALID: the device follows the parent. -/
theorem Dev.tollFollowed_parent {d : Dev} {n : Nat} {words : List Word} (hroot : d.bitOf .fabCfg 30 = false)
    (hparent : n = d.rd .fabCfg 23 20) (halive : d.slotState n = 1) (hvalid : getBits (word words 5) 59 59 = 1) :
    d.tollFollowed n words = d.afterParent n ∧ (d.afterParent n).timeSource = some n := by
  let known : Dev := { d with fab := { d.fab with parentOk := true } }
  have hsource : known.timeSource = some n := by
    rw [hparent]
    exact Dev.timeSource_of_parent hroot (hparent ▸ halive) rfl
  have hfollow : known.followTime = d.afterParent n := by
    rw [Dev.followTime, if_neg (by rw [show known.bitOf .fabCfg 30 = false from hroot]; decide), hsource]
    rfl
  refine ⟨?_, (Dev.timeSource_congr (d := known) (fun r hr => d.reg_afterParent n hr) rfl).trans hsource⟩
  rw [Dev.tollFollowed, if_pos hparent, decide_eq_true hvalid]
  exact hfollow

/-- A Toll of the live time parent that answers a Toll sent within the last four periods is an exchange with it. -/
theorem Dev.tollTime_parent {d : Dev} {l n : Nat} {words : List Word} (hroot : d.bitOf .fabCfg 30 = false)
    (hparent : n = d.rd .fabCfg 23 20) (halive : d.slotState n = 1) (hvalid : getBits (word words 5) 59 59 = 1)
    (hanswers : word words 3 ≠ 0) (hsent : (tgetD d.fab.tollTx l []).contains (word words 3).toNat = true)
    (hrecent : d.now ≤ (word words 3).toNat + 4 * (d.rd .tollCtl 15 0 * 1000)) :
    d.tollTime l n words = ((d.afterParent n).exchange
      (thetaOf (word words 2).toNat d.now (word words 3).toNat (word words 4).toNat) (getBits (word words 5) 58 54)).noteToll l
      (word words 2).toNat d.now := by
  obtain ⟨hfollow, hsource⟩ := Dev.tollFollowed_parent hroot hparent halive hvalid
  have hperiod : (d.afterParent n).rd .tollCtl 15 0 = d.rd .tollCtl 15 0 := Dev.rd_eq_of_reg (d.reg_afterParent n (by simp)) 15 0
  have hnonzero : (word words 3).toNat ≠ 0 := fun h => hanswers (BitVec.eq_of_toNat_eq h)
  have hanswer : (d.afterParent n).tollAnswers l d.now words = true := by
    rw [Dev.tollAnswers, hperiod, Bool.and_eq_true]
    exact ⟨hsent, decide_eq_true hrecent⟩
  rw [Dev.tollTime_eq, hfollow, hsource, hanswer, if_pos (by simp [hvalid, hnonzero])]

/-! ### Rejoining (R279) -/

/-- A fabric event writes the log of fabric event records alone. -/
theorem Dev.fab_fabricEvent (d : Dev) (typ detail : Nat) : (d.fabricEvent typ detail).fab =
    { d.fab with log := (d.fab.log.append 4096 0 2 d.flt.diesOut ⟨d.fab.log.seq, d.now, typ, detail⟩).1 } := by
  rw [Dev.fabricEvent, Dev.mgmtVector_fab]

theorem Dev.rejoins_setSlotState (d : Dev) (n st : Nat) : (d.setSlotState n st).fab.rejoins = d.fab.rejoins := by
  unfold Dev.setSlotState
  split
  · rfl
  · rw [Dev.fab_fabricEvent]
    rfl

@[simp] theorem Dev.tget_setRejoin (d : Dev) (n : Nat) (r : Rejoin) : tget (d.setRejoin n r).fab.rejoins n = some r := tget_tset_same _ _ _
theorem Dev.slotState_setRejoin (d : Dev) (n m : Nat) (r : Rejoin) : (d.setRejoin n r).slotState m = d.slotState m := rfl

/-- The first Toll with REJOIN_READY of a period counts. -/
theorem Dev.rejoinToll_counts {d : Dev} {n : Nat} {r : Rejoin} (hrejoin : tget d.fab.rejoins n = some r) (hdead : d.slotState n = 2)
    (hfirst : r.fresh = false) (hshort : r.count + 1 < d.rd .tollCtl 23 16) :
    d.rejoinToll n = d.setRejoin n { r with count := r.count + 1, fresh := true } := by
  unfold Dev.rejoinToll
  simp only [hrejoin, hfirst, hdead]
  exact if_neg (Nat.not_le.2 hshort)

/-- After MISS consecutive periods the slot is ALIVE again. -/
theorem Dev.rejoinToll_returns {d : Dev} {n : Nat} {r : Rejoin} (hrejoin : tget d.fab.rejoins n = some r) (hdead : d.slotState n = 2)
    (hfirst : r.fresh = false) (henough : d.rd .tollCtl 23 16 ≤ r.count + 1) :
    d.rejoinToll n = ((d.setRejoin n { r with count := r.count + 1, fresh := true }).setRejoin n
      ⟨0, true, d.rd .tollCtl 23 16, true⟩).setSlotState n 1 := by
  unfold Dev.rejoinToll
  simp only [hrejoin, hfirst, hdead]
  exact if_pos henough

/-- A Toll with PEER_DEAD clear, from a slot that is ALIVE: it is awaited no longer. -/
def Dev.peerHeard (d : Dev) (n : Nat) (peerDead : Bool) : Dev :=
  match tget d.fab.rejoins n with
  | some r => if !peerDead && decide (d.slotState n = 1) then d.setRejoin n { r with waiting := false } else d
  | none => d

theorem Dev.peerHeard_of_none {d : Dev} {n : Nat} (h : tget d.fab.rejoins n = none) (peerDead : Bool) : d.peerHeard n peerDead = d := by
  rw [Dev.peerHeard, h]

theorem Dev.peerHeard_of_dead {d : Dev} {n : Nat} (h : d.slotState n ≠ 1) (peerDead : Bool) : d.peerHeard n peerDead = d := by
  unfold Dev.peerHeard
  split
  · exact if_neg (by simp [h])
  · rfl

theorem Dev.peerHeard_deaf (d : Dev) (n : Nat) : d.peerHeard n true = d := by
  unfold Dev.peerHeard
  split <;> rfl

/-- The rejoin of a slot that is ALIVE waits on only where PEER_DEAD is set. -/
theorem Dev.peerHeard_alive {d : Dev} {n : Nat} {r : Rejoin} (hrejoin : tget d.fab.rejoins n = some r) (halive : d.slotState n = 1)
    (hwaits : r.waiting = true) (peerDead : Bool) :
    tget (d.peerHeard n peerDead).fab.rejoins n = some { r with waiting := peerDead } ∧ (d.peerHeard n peerDead).slotState n = 1 ∧
      (d.peerHeard n peerDead).dir = d.dir := by
  cases peerDead with
  | true => rw [Dev.peerHeard_deaf, hrejoin, ← hwaits]; exact ⟨rfl, halive, rfl⟩
  | false =>
    have hheard : d.peerHeard n false = d.setRejoin n { r with waiting := false } := by
      rw [Dev.peerHeard, hrejoin]
      exact if_pos (by simp [halive])
    rw [hheard]
    exact ⟨Dev.tget_setRejoin _ _ _, halive, rfl⟩

/-! ### Tolls received (R273, R274) -/

/-- The device that has counted a Toll and followed its time. -/
def Dev.tollHeard (d : Dev) (l : Fin 16) (n : Nat) (words : List Word) : Dev := (d.count (linkPmu l) 0x8017 1).tollTime l n words

theorem Dev.timed_tollHeard (d : Dev) (l : Fin 16) (n : Nat) (words : List Word) : d.Timed (d.tollHeard l n words) :=
  (d.timed_count _ _ _).tollTime l n words

/-- What a Toll of this fabric's mode does beside fabric time: a death that the neighbour tells, the rejoin, and what the rejoin awaits. -/
def Dev.tollTold (d : Dev) (n : Fin 16) (words : List Word) : Dev :=
  let told := if getBits (word words 5) 53 53 = 1 ∧ ¬ getBits (word words 5) 51 51 = 1 ∧ d.slotState n = 1 then
    d.declareDeath (.slot n) 6 else d
  (if getBits (word words 5) 51 51 = 1 then told.rejoinToll n else told).peerHeard n (decide (getBits (word words 5) 53 53 = 1))

/-- The neighbour gives this device up. -/
theorem Dev.tollTold_givenUp {d : Dev} {n : Fin 16} {words : List Word} (hdead : getBits (word words 5) 53 53 = 1)
    (hready : getBits (word words 5) 51 51 = 0) (halive : d.slotState n = 1) : d.tollTold n words = d.declareDeath (.slot n) 6 := by
  simp [Dev.tollTold, hdead, hready, halive, Dev.peerHeard_deaf]

/-- The neighbour knows this device, and no rejoin is under way. -/
theorem Dev.tollTold_nothing {d : Dev} {n : Fin 16} {words : List Word} (hdead : getBits (word words 5) 53 53 = 0)
    (hready : getBits (word words 5) 51 51 = 0) (hrejoin : tget d.fab.rejoins n.val = none) : d.tollTold n words = d := by
  simp [Dev.tollTold, hdead, hready, Dev.peerHeard_of_none hrejoin]

theorem Dev.tollTold_ready {d : Dev} {n : Fin 16} {words : List Word} (hready : getBits (word words 5) 51 51 = 1) :
    d.tollTold n words = (d.rejoinToll n).peerHeard n (decide (getBits (word words 5) 53 53 = 1)) := by
  simp [Dev.tollTold, hready]

section
variable {l : Fin 16} {words : List Word} {n : Fin 16} {s : State}

theorem exec_tollReceived_inactive (hinactive : s.dev.active l = false) : exec (.tollReceived l words) s = .next (s.onto s.dev) :=
  exec_onto (exec_tollReceived l words s) (if_pos (by rw [hinactive]; rfl))

/-- A Toll of another fabric mode tells the death of the bundle. -/
theorem exec_tollReceived_otherMode (hactive : s.dev.active l = true) (hslot : s.dev.linkSlot l = n.val)
    (hmode : getBits (word words 5) 52 52 ≠ s.dev.rd .fabCfg 31 31) :
    let d := (s.dev.count (linkPmu l) 0x8017 1).report (linkSource l 3) 2 0
    exec (.tollReceived l words) s = .next (s.onto (if s.dev.slotState n = 1 then d.declareDeath (.slot n) 4 else d)) := by
  intro d
  obtain ⟨n, hn⟩ := n
  obtain rfl : (s.dev.count (linkPmu l) 0x8017 1).linkSlot l = n := (Dev.rd_count _ _ _ _ _ _ _ rfl).trans hslot
  have hfabric : (s.dev.count (linkPmu l) 0x8017 1).rd .fabCfg 31 31 = s.dev.rd .fabCfg 31 31 := Dev.rd_count _ _ _ _ _ _ _ rfl
  have hstate (m : Nat) : d.slotState m = s.dev.slotState m :=
    (Dev.rd_report _ _ _ _ _ _ _ (by simp)).trans (Dev.rd_count _ _ _ _ _ _ _ (by simp))
  exact exec_onto (exec_tollReceived l words s) ((if_neg (by simp [hactive])).trans ((dif_pos hn).trans
    ((if_pos (hfabric ▸ hmode)).trans (if_congr (by rw [← hstate]) rfl rfl))))

theorem exec_tollReceived_mode (hactive : s.dev.active l = true) (hslot : s.dev.linkSlot l = n.val)
    (hmode : getBits (word words 5) 52 52 = s.dev.rd .fabCfg 31 31) :
    exec (.tollReceived l words) s = .next (s.onto ((s.dev.tollHeard l n words).tollTold n words)) := by
  obtain ⟨n, hn⟩ := n
  obtain rfl : (s.dev.count (linkPmu l) 0x8017 1).linkSlot l = n := (Dev.rd_count _ _ _ _ _ _ _ rfl).trans hslot
  have hfabric : (s.dev.count (linkPmu l) 0x8017 1).rd .fabCfg 31 31 = s.dev.rd .fabCfg 31 31 := Dev.rd_count _ _ _ _ _ _ _ rfl
  exact exec_onto (exec_tollReceived l words s) ((if_neg (by simp [hactive])).trans ((dif_pos hn).trans
    (if_neg (not_not.2 (hmode.trans hfabric.symm)))))

/-- A Toll of a neighbour that gives this device up declares the neighbour dead. -/
theorem exec_tollReceived_givenUp (hactive : s.dev.active l = true) (hslot : s.dev.linkSlot l = n.val)
    (hmode : getBits (word words 5) 52 52 = s.dev.rd .fabCfg 31 31) (hdead : getBits (word words 5) 53 53 = 1)
    (hready : getBits (word words 5) 51 51 = 0) (halive : s.dev.slotState n = 1) :
    exec (.tollReceived l words) s = .next (s.onto ((s.dev.tollHeard l n words).declareDeath (.slot n) 6)) := by
  rw [exec_tollReceived_mode hactive hslot hmode,
    Dev.tollTold_givenUp hdead hready (((s.dev.timed_tollHeard l n words).slotState n).trans halive)]

/-- A Toll of a neighbour that knows this device tells its time alone where no rejoin is under way. -/
theorem exec_tollReceived_time (hactive : s.dev.active l = true) (hslot : s.dev.linkSlot l = n.val)
    (hmode : getBits (word words 5) 52 52 = s.dev.rd .fabCfg 31 31) (hdead : getBits (word words 5) 53 53 = 0)
    (hready : getBits (word words 5) 51 51 = 0) (hrejoin : tget s.dev.fab.rejoins n.val = none) :
    exec (.tollReceived l words) s = .next (s.onto (s.dev.tollHeard l n words)) := by
  rw [exec_tollReceived_mode hactive hslot hmode,
    Dev.tollTold_nothing hdead hready (by rw [(s.dev.timed_tollHeard l n words).rejoins, hrejoin])]

/-- A Toll with REJOIN_READY. -/
theorem exec_tollReceived_ready (hactive : s.dev.active l = true) (hslot : s.dev.linkSlot l = n.val)
    (hmode : getBits (word words 5) 52 52 = s.dev.rd .fabCfg 31 31) (hready : getBits (word words 5) 51 51 = 1) :
    exec (.tollReceived l words) s = .next (s.onto (((s.dev.tollHeard l n words).rejoinToll n).peerHeard n
      (decide (getBits (word words 5) 53 53 = 1)))) := by
  rw [exec_tollReceived_mode hactive hslot hmode, Dev.tollTold_ready hready]

/-- A Toll with REJOIN_READY that does not complete the count leaves the slot DEAD. -/
theorem yields_tollReceived_counts {r : Rejoin} (hactive : s.dev.active l = true) (hslot : s.dev.linkSlot l = n.val)
    (hmode : getBits (word words 5) 52 52 = s.dev.rd .fabCfg 31 31) (hready : getBits (word words 5) 51 51 = 1)
    (hdead : s.dev.slotState n = 2) (hrejoin : tget s.dev.fab.rejoins n.val = some r) (hfirst : r.fresh = false)
    (hshort : r.count + 1 < s.dev.rd .tollCtl 23 16) : yields (.tollReceived l words) s fun t =>
      tget t.fab.rejoins n.val = some { r with count := r.count + 1, fresh := true } ∧ t.slotState n = 2 ∧ t.dir = s.dev.dir := by
  have htime := s.dev.timed_tollHeard l n words
  have hstate : (s.dev.tollHeard l n words).slotState n = 2 := (htime.slotState n).trans hdead
  refine yields_of_eq (exec_tollReceived_ready hactive hslot hmode hready) ?_
  rw [Dev.rejoinToll_counts (by rw [htime.rejoins, hrejoin]) hstate hfirst (by rw [htime.rd_tollCtl]; exact hshort),
    Dev.peerHeard_of_dead (by rw [Dev.slotState_setRejoin, hstate]; decide)]
  refine ⟨?_, ?_, ?_⟩
  · rw [Dev.shown_fab, Dev.tget_setRejoin]
  · exact (Dev.rd_shown _ _ _ _ rfl).trans hstate
  · rw [Dev.shown_dir]
    exact htime.dir

/-- The Toll that completes the count makes the slot ALIVE; a Toll with PEER_DEAD clear is awaited where this one has it set. -/
theorem yields_tollReceived_returns {r : Rejoin} (hactive : s.dev.active l = true) (hslot : s.dev.linkSlot l = n.val)
    (hmode : getBits (word words 5) 52 52 = s.dev.rd .fabCfg 31 31) (hready : getBits (word words 5) 51 51 = 1)
    (hdead : s.dev.slotState n = 2) (hrejoin : tget s.dev.fab.rejoins n.val = some r) (hfirst : r.fresh = false)
    (henough : s.dev.rd .tollCtl 23 16 ≤ r.count + 1) : yields (.tollReceived l words) s fun t =>
      tget t.fab.rejoins n.val = some ⟨0, true, s.dev.rd .tollCtl 23 16, decide (getBits (word words 5) 53 53 = 1)⟩ ∧
        t.slotState n = 1 ∧ t.dir = s.dev.dir := by
  have htime := s.dev.timed_tollHeard l n words
  have hmiss := htime.rd_tollCtl 23 16
  have hreturns := Dev.rejoinToll_returns (htime.rejoins ▸ hrejoin) ((htime.slotState n).trans hdead) hfirst (hmiss ▸ henough)
  have hleft : tget ((s.dev.tollHeard l n words).rejoinToll n).fab.rejoins n = some ⟨0, true, s.dev.rd .tollCtl 23 16, true⟩ := by
    rw [hreturns, Dev.rejoins_setSlotState, Dev.tget_setRejoin, hmiss]
  have halive : ((s.dev.tollHeard l n words).rejoinToll n).slotState n = 1 := by
    rw [hreturns]
    exact Dev.setSlotState_state _ _ (by decide)
  have hdir : ((s.dev.tollHeard l n words).rejoinToll n).dir = s.dev.dir := by
    rw [hreturns, Dev.setSlotState_dir]
    exact htime.dir
  obtain ⟨hwaits, hstate, hkept⟩ := Dev.peerHeard_alive hleft halive rfl (decide (getBits (word words 5) 53 53 = 1))
  refine yields_of_eq (exec_tollReceived_ready hactive hslot hmode hready) ⟨?_, ?_, ?_⟩
  · rw [Dev.shown_fab, hwaits]
  · exact (Dev.rd_shown _ _ _ _ rfl).trans hstate
  · rw [Dev.shown_dir, hkept, hdir]

/-- What a good Toll of the time parent leaves (Table MF-6). -/
theorem yields_tollReceived_exchange (hactive : s.dev.active l = true) (hslot : s.dev.linkSlot l = n.val)
    (hmode : getBits (word words 5) 52 52 = s.dev.rd .fabCfg 31 31) (hdead : getBits (word words 5) 53 53 = 0)
    (hready : getBits (word words 5) 51 51 = 0) (hrejoin : tget s.dev.fab.rejoins n.val = none) (hroot : s.dev.bitOf .fabCfg 30 = false)
    (hparent : n.val = s.dev.rd .fabCfg 23 20) (halive : s.dev.slotState n = 1) (hvalid : getBits (word words 5) 59 59 = 1)
    (hanswers : word words 3 ≠ 0) (hsent : (tgetD s.dev.fab.tollTx l.val []).contains (word words 3).toNat = true)
    (hrecent : s.dev.now ≤ (word words 3).toNat + 4 * (s.dev.rd .tollCtl 15 0 * 1000)) :
    let theta := thetaOf (word words 2).toNat s.dev.now (word words 3).toNat (word words 4).toNat
    yields (.tollReceived l words) s fun t =>
      t.rd .timeStatus 15 0 = offsetField theta ∧ t.rd .timeStatus 29 25 = min 31 (getBits (word words 5) 58 54 + 1) ∧
      t.rd .timeStatus 24 21 = n.val ∧ t.bitOf .timeStatus 30 = false ∧
      t.reg .ftime = (if 10000 < theta.natAbs then BitVec.ofInt 64 ((s.dev.now : Int) - theta) else s.dev.reg .ftime) ∧
      (20 < theta.natAbs → theta.natAbs ≤ 40 → t.bitOf .timeStatus 31 = s.dev.bitOf .timeStatus 31) ∧
      (theta.natAbs ≤ 20 → 7 ≤ s.dev.fab.low → t.bitOf .timeStatus 31 = true) ∧
      (40 < theta.natAbs → 7 ≤ s.dev.fab.high → t.bitOf .timeStatus 31 = false) ∧
      tget t.fab.tollRx l.val = some ((word words 2).toNat, s.dev.now) ∧
      t.pool = s.dev.pool ∧ t.dir = s.dev.dir ∧ t.sw = s.dev.sw ∧ t.link = s.dev.link ∧ t.slotState n = 1 := by
  intro theta
  have htime := s.dev.timed_tollHeard l n words
  have hcount := s.dev.timed_count (linkPmu l) 0x8017 1
  have hreg (r : Reg) (hr : r.side = false) : (s.dev.count (linkPmu l) 0x8017 1).reg r = s.dev.reg r := s.dev.reg_count _ _ _ r hr
  have hfab : (s.dev.count (linkPmu l) 0x8017 1).fab = s.dev.fab := s.dev.count_fab _ _ _
  have hnow : (s.dev.count (linkPmu l) 0x8017 1).now = s.dev.now := congrArg BitVec.toNat (hreg .ftime rfl)
  have hheard := Dev.tollTime_parent (d := s.dev.count (linkPmu l) 0x8017 1) (l := l)
    ((Dev.bitOf_eq_of_reg (hreg .fabCfg rfl) 30).trans hroot) (hparent.trans (Dev.rd_eq_of_reg (hreg .fabCfg rfl) 23 20).symm)
    ((hcount.slotState n).trans halive) hvalid hanswers (hfab ▸ hsent) (by rw [hnow, hcount.rd_tollCtl]; exact hrecent)
  rw [hnow] at hheard
  refine yields_of_eq (exec_tollReceived_time hactive hslot hmode hdead hready hrejoin) ?_
  obtain ⟨hsource, hheld, hlock⟩ := (s.dev.count (linkPmu l) 0x8017 1).timeStatus_afterParent n
  have hlock := hlock.trans (Dev.bitOf_eq_of_reg (hreg .timeStatus rfl) 31)
  have hftime := ((s.dev.count (linkPmu l) 0x8017 1).reg_afterParent n (r := .ftime) (by simp)).trans (hreg .ftime rfl)
  have hlow : ((s.dev.count (linkPmu l) 0x8017 1).afterParent n).fab.low = s.dev.fab.low := by rw [Dev.fab_afterParent, hfab]
  have hhigh : ((s.dev.count (linkPmu l) 0x8017 1).afterParent n).fab.high = s.dev.fab.high := by rw [Dev.fab_afterParent, hfab]
  generalize (s.dev.count (linkPmu l) 0x8017 1).afterParent n = p at hheard hsource hheld hlock hftime hlow hhigh
  have hshown (r : Reg) (hr : r.show = false) : (s.dev.tollHeard l n words).shown.reg r =
      (p.exchange theta (getBits (word words 5) 58 54)).reg r := by
    rw [Dev.reg_shown _ _ hr, Dev.tollHeard, hheard]
    rfl
  have hstatus (hi lo : Nat) := Dev.rd_eq_of_reg (hshown .timeStatus rfl) hi lo
  have hbit (i : Nat) := Dev.bitOf_eq_of_reg (hshown .timeStatus rfl) i
  refine ⟨?_, ?_, ?_, ?_, ?_, ?_, ?_, ?_, ?_, ?_, ?_, ?_, ?_, ?_⟩
  · exact (hstatus _ _).trans (p.offset_exchange _ _)
  · exact (hstatus _ _).trans (p.depth_exchange _ _)
  · exact (hstatus _ _).trans ((p.source_exchange _ _).1.trans hsource)
  · exact (hbit _).trans ((p.source_exchange _ _).2.trans hheld)
  · rw [hshown .ftime rfl, p.ftime_exchange, Dev.now, hftime, Dev.now]
  · exact fun hbeyond hwithin => (hbit _).trans ((Dev.lock_kept_exchange _ hbeyond hwithin).trans hlock)
  · exact fun hwithin hcounted => (hbit _).trans (Dev.locked_exchange_low _ hwithin (hlow ▸ hcounted))
  · exact fun hbeyond hcounted => (hbit _).trans (Dev.unlocked_exchange_high _ hbeyond (hhigh ▸ hcounted))
  · rw [Dev.shown_fab, Dev.tollHeard, hheard]
    exact tget_tset_same _ _ _
  · rw [Dev.shown_pool, htime.pool]
  · rw [Dev.shown_dir, htime.dir]
  · rw [Dev.shown_sw, htime.sw]
  · rw [Dev.shown_link, htime.link]
  · exact (Dev.rd_shown _ _ _ _ rfl).trans ((htime.slotState n).trans halive)

end

/-! ### The obligation -/

/-- Settles O41: the Tolls of a period and a silence are their commands' rules; a Toll received goes by its mode, its PEER_DEAD and its
REJOIN_READY, and one of the time parent is an exchange. -/
theorem tollsCarryTimeAndTellDeaths : Obligations.TollsCarryTimeAndTellDeaths := by
  unfold Obligations.TollsCarryTimeAndTellDeaths
  refine ⟨?send, ?inactive, ?mode, ?givenUp, ?exchange, ?counts, ?returns, ?silent, ?gone⟩
  case send => exact fun s => exec_onto (exec_tollSend s) rfl
  case inactive => exact fun l words s => exec_tollReceived_inactive
  case mode => exact fun l words n s => exec_tollReceived_otherMode
  case givenUp => exact fun l words n s => exec_tollReceived_givenUp
  case exchange => exact fun l words n s => yields_tollReceived_exchange
  case counts => exact fun l words n r s => yields_tollReceived_counts
  case returns => exact fun l words n r s => yields_tollReceived_returns
  case silent => exact fun n s halive => exec_onto (exec_tollSilence n s) (if_pos halive)
  case gone => exact fun n s hgone => exec_onto (exec_tollSilence n s) (if_neg hgone)

end Sys2Proof.Machine
end

section
/-! PROOFS. Knells, messages in transit, granules taken back, routes and rejoins that are commanded (R269 to R271, R277, R279, R297).
Settles O42. -/

namespace Sys2Proof.Machine

/-! ### Knells (R277) -/

/-- The Knells of the last millisecond. -/
def Dev.recentKnells (d : Dev) : List (Nat × Nat × Nat) := d.fab.knells.filter fun k => decide (d.now ≤ k.2.2 + 1000000)

/-- The device that has noted a Knell. -/
def Dev.knellNoted (d : Dev) (words : List Word) : Dev :=
  { d with fab := { d.fab with knells := d.recentKnells ++ [(msgSrc words, getBits (word words 2) 37 30, d.now)] } }

/-- The device that has noted a Knell and written its fabric event record. -/
def Dev.knellLogged (d : Dev) (words : List Word) : Dev :=
  (d.knellNoted words).fabricEvent 1 (det 88 (word words 2).toNat + det 77 (msgSrc words))

/-- The Knell is a copy of one received within the last millisecond. -/
def Dev.knellSeen (d : Dev) (words : List Word) : Bool :=
  d.recentKnells.any fun k => decide (k.1 = msgSrc words ∧ k.2.1 = getBits (word words 2) 37 30)

theorem Dev.knellSeen_of_mem {d : Dev} {words : List Word} {k : Nat × Nat × Nat} (hmem : k ∈ d.fab.knells) (hsrc : k.1 = msgSrc words)
    (hevent : k.2.1 = getBits (word words 2) 37 30) (hrecent : d.now ≤ k.2.2 + 1000000) : d.knellSeen words = true :=
  List.any_eq_true.2 ⟨k, List.mem_filter.2 ⟨hmem, decide_eq_true hrecent⟩, decide_eq_true ⟨hsrc, hevent⟩⟩

theorem Dev.knellSeen_of_old {d : Dev} {words : List Word} (hold : ∀ k ∈ d.fab.knells, k.1 = msgSrc words →
    k.2.1 = getBits (word words 2) 37 30 → k.2.2 + 1000000 < d.now) : d.knellSeen words = false := by
  refine List.any_eq_false.2 fun k hk hcopy => ?_
  obtain ⟨hmem, hrecent⟩ := List.mem_filter.1 hk
  obtain ⟨hsrc, hevent⟩ := of_decide_eq_true hcopy
  exact absurd (of_decide_eq_true hrecent) (Nat.not_le.2 (hold k hmem hsrc hevent))

theorem Dev.reg_knellLogged (d : Dev) (words : List Word) (r : Reg) (hside : r.side = false) : (d.knellLogged words).reg r = d.reg r :=
  Dev.reg_fabricEvent _ _ _ _ hside

theorem Dev.slotOf_congr {d d' : Dev} (h : ∀ n, d'.reg (.nbr n) = d.reg (.nbr n)) (dev : Nat) : d'.slotOf dev = d.slotOf dev := by
  have hvalid (n : Nat) : d'.slotValid n = d.slotValid n := Dev.bitOf_eq_of_reg (h n) 63
  have hdev (n : Nat) : d'.slotDev n = d.slotDev n := Dev.rd_eq_of_reg (h n) 42 32
  simp only [Dev.slotOf, hvalid, hdev]

section
variable {l : Fin 16} {words : List Word} {s : State}

theorem exec_knellReceived_copy (hseen : s.dev.knellSeen words = true) : exec (.knellReceived l words) s = .next (s.onto s.dev) :=
  exec_onto (exec_knellReceived l words s) (if_pos hseen)

/-- A new Knell that tells of no neighbour's death is logged. -/
theorem exec_knellReceived_other (hnew : s.dev.knellSeen words = false) (hkind : getBits (word words 2) 63 62 ≠ 1) :
    exec (.knellReceived l words) s = .next (s.onto (s.dev.knellLogged words)) :=
  exec_onto (exec_knellReceived l words s) ((if_neg (Bool.eq_false_iff.1 hnew)).trans (if_neg hkind))

/-- A new Knell that tells of the death of a neighbour in service, or by that neighbour of this device, declares the neighbour dead. -/
theorem exec_knellReceived_neighbour {n : Fin 16} (hnew : s.dev.knellSeen words = false) (hkind : getBits (word words 2) 63 62 = 1)
    (halive : s.dev.slotState n = 1) (hslot : s.dev.slotOf (if getBits (word words 2) 61 51 = s.dev.devId then msgSrc words
      else getBits (word words 2) 61 51) = some n.val) :
    exec (.knellReceived l words) s = .next (s.onto ((s.dev.knellLogged words).declareDeath (.slot n) 5)) := by
  refine exec_onto (exec_knellReceived l words s) ((if_neg (Bool.eq_false_iff.1 hnew)).trans ((if_pos hkind).trans ?_))
  have hid : (s.dev.knellLogged words).devId = s.dev.devId := Dev.rd_eq_of_reg (s.dev.reg_knellLogged words _ rfl) 10 0
  have hstate : (s.dev.knellLogged words).slotState n = 1 :=
    (Dev.rd_eq_of_reg (s.dev.reg_knellLogged words _ rfl) 61 60).trans halive
  have hsubject : (s.dev.knellLogged words).slotOf (if getBits (word words 2) 61 51 = (s.dev.knellLogged words).devId then msgSrc words
      else getBits (word words 2) 61 51) = some n.val := by
    rw [hid, Dev.slotOf_congr fun n => s.dev.reg_knellLogged words _ rfl, hslot]
  change (match (s.dev.knellLogged words).slotOf (if getBits (word words 2) 61 51 = (s.dev.knellLogged words).devId then msgSrc words
    else getBits (word words 2) 61 51) with | some n => _ | none => _) = _
  rw [hsubject]
  exact (dif_pos n.isLt).trans (if_pos hstate)

theorem yields_knellReceived_other (hnew : s.dev.knellSeen words = false) (hkind : getBits (word words 2) 63 62 ≠ 1) :
    yields (.knellReceived l words) s fun t =>
      (msgSrc words, getBits (word words 2) 37 30, s.dev.now) ∈ t.fab.knells ∧ t.dir = s.dev.dir ∧ t.pool = s.dev.pool ∧
      (∀ n, t.slotState n = s.dev.slotState n) ∧
      t.fab.log = (s.dev.fab.log.append 4096 0 2 s.dev.flt.diesOut
        ⟨s.dev.fab.log.seq, s.dev.now, 1, det 88 (word words 2).toNat + det 77 (msgSrc words)⟩).1 := by
  have hfab : (s.dev.knellLogged words).shown.fab = _ := (Dev.shown_fab _).trans (Dev.fab_fabricEvent (s.dev.knellNoted words) _ _)
  refine yields_of_eq (exec_knellReceived_other hnew hkind) ⟨?_, ?_, ?_, fun n => ?_, ?_⟩
  · rw [hfab]
    exact List.mem_append_right _ List.mem_cons_self
  · rw [Dev.shown_dir, Dev.knellLogged, Dev.fabricEvent_dir]
    rfl
  · rw [Dev.shown_pool, Dev.knellLogged, Dev.fabricEvent_pool]
    rfl
  · exact (Dev.rd_shown _ _ _ _ (by simp)).trans (Dev.rd_eq_of_reg (s.dev.reg_knellLogged words _ (by simp)) 61 60)
  · rw [hfab]
    rfl

/-! ### Transit (R269, R270) -/

theorem exec_transitMessage_own (hown : msgDst words = s.dev.devId) : exec (.transitMessage l words) s = .next (s.onto s.dev) :=
  exec_onto (exec_transitMessage l words s) (if_pos hown)

theorem exec_transitMessage_routed {n out : Nat} (hother : msgDst words ≠ s.dev.devId) (hroute : s.dev.routeSlot words = some n)
    (hback : n ≠ s.dev.linkSlot l) (hlink : s.dev.linkFor n words = some out) :
    exec (.transitMessage l words) s = .next (s.onto (s.dev.bufferTransit l out words)) := by
  have hslot : ((s.dev.routeSlot words).filter fun n => !decide (n = s.dev.linkSlot l)) = some n := by simp [hroute, hback]
  refine exec_onto (exec_transitMessage l words s) ((if_neg hother).trans ?_)
  simp only [hslot, Option.bind_some, hlink]

theorem Dev.devId_noRoute (d : Dev) (dst : Nat) : (d.noRoute dst).devId = d.devId := by
  unfold Dev.noRoute
  dsimp only
  split <;> exact Dev.rd_report _ _ _ _ _ _ _ rfl

/-- A message without a route, or whose route leads back, is failed. -/
theorem exec_transitMessage_failed (hother : msgDst words ≠ s.dev.devId)
    (hroute : s.dev.routeSlot words = none ∨ s.dev.routeSlot words = some (s.dev.linkSlot l)) :
    let d := (s.dev.noRoute (msgDst words)).returnCredit l ((opClass (msgOp words)).getD .mgt) (packetCost (words.length + 1))
    exec (.transitMessage l words) s = .next (s.onto (if opClass (msgOp words) = some .req then
      d.postOrDrop (nfailFor s.dev.devId words (if opReads (msgOp words) then 1 else 2)) else d)) := by
  intro d
  have hnone : ((s.dev.routeSlot words).filter fun n => !decide (n = s.dev.linkSlot l)) = none := by
    rcases hroute with h | h <;> simp [h]
  have hid : d.devId = s.dev.devId := (Dev.rd_returnCredit _ _ _ _ _ _ _).trans (s.dev.devId_noRoute _)
  refine exec_onto (exec_transitMessage l words s) ((if_neg hother).trans ?_)
  rw [hnone, ← hid]
  rfl

end

/-! ### Granules taken back (R271) -/

theorem yields_granuleTakeback (n : Fin 16) (s : State) : yields (.granuleTakeback n) s fun t =>
    (∀ l, l ∈ t.fab.subst ↔ l ∈ s.dev.fab.subst ∧ ¬ (l ∈ s.dev.bundle n ∧ s.dev.active l = true ∧
      ∀ m ∈ s.dev.bundle n, m = l ∨ s.dev.active m = false ∨ s.dev.holdsGranules (s.dev.bundle n) m l = false)) ∧
    t.dir = s.dev.dir ∧ t.pool = s.dev.pool ∧ t.link = s.dev.link := by
  refine yields_of_eq (exec_onto (exec_granuleTakeback n s) rfl) ⟨fun l => ?_, by simp, by simp, by simp⟩
  rw [Dev.shown_fab]
  refine List.mem_filter.trans (and_congr_right fun _ => ?_)
  rw [Bool.not_eq_true', ← Bool.not_eq_true]
  refine not_congr ?_
  simp [and_assoc, or_assoc]

/-! ### Routes that are set (R297) -/

theorem length_toBytes (n v : Nat) : (toBytes n v).length = n := by
  induction n generalizing v with
  | zero => rfl
  | succ n ih => rw [toBytes, List.length_cons, ih]

theorem ofBytes_toBytes (n v : Nat) : ofBytes (toBytes n v) = v % 256 ^ n := by
  induction n generalizing v with
  | zero => rw [Nat.pow_zero, Nat.mod_one]; rfl
  | succ n ih =>
    rw [toBytes, ofBytes, ih, BitVec.toNat_ofNat, Nat.mod_mod, Nat.pow_succ', Nat.mod_mul]

/-- A number written at its place in a payload is what its field holds. -/
theorem field_toBytes {before : List Byte} {off : Nat} (n v : Nat) (rest : List Byte) (h : before.length = off) :
    field (before ++ (toBytes n v ++ rest)) off n = v % 256 ^ n := by
  rw [field, ← h, List.drop_left, List.take_left' (length_toBytes n v), ofBytes_toBytes]

/-- The payload of a ROUTE_SET of one entry. -/
def routePayload (dst : BitVec 16) (image : BitVec 32) : List Byte :=
  toBytes 2 1 ++ toBytes 2 0 ++ toBytes 2 dst.toNat ++ toBytes 2 0 ++ toBytes 4 image.toNat

/-- A ROUTE_SET payload of one entry follows its table. -/
structure OneRoute (input : List Byte) : Prop where
  entries : field input 0 2 = 1
  length : input.length = 12
  reserved : field input 2 2 = 0
  entryReserved : field input 6 2 = 0
  device : field input 4 2 < 2048
  image : BitVec.ofNat 64 (field input 8 4) &&& (Reg.route 0).mask = BitVec.ofNat 64 (field input 8 4)

theorem routeEntries_of_one {input : List Byte} (h : OneRoute input) :
    routeEntries input = [(field input 4 2, BitVec.ofNat 64 (field input 8 4))] := by
  rw [routeEntries, h.entries]
  rfl

/-- A payload of one entry runs the command: its route is checked, and written where it is legal. -/
theorem exec_routeSet_one {path : Path} {input : List Byte} {s : State} (htakes : s.dev.takesStoluo path 0xC038) (h : OneRoute input) :
    exec (.routeSet path input) s = .next (s.onto
      (if s.dev.routeOk (field input 4 2) (BitVec.ofNat 64 (field input 8 4)) = true then
        (s.dev.setReg (.route (field input 4 2)) (BitVec.ofNat 64 (field input 8 4))).finish path 0xC038 rcSuccess
      else s.dev.finish path 0xC038 rcInvalid)) := by
  refine exec_stoluo htakes (exec_routeSet path input s) ?_ ?_
  · rw [routeEntries_of_one h, h.entries]
    simp [h.length, h.reserved, h.entryReserved, h.device, h.image]
  · rw [routeEntries_of_one h]
    simp

theorem routePayload_fields (dst : BitVec 16) (image : BitVec 32) :
    field (routePayload dst image) 0 2 = 1 ∧ field (routePayload dst image) 2 2 = 0 ∧
      field (routePayload dst image) 4 2 = dst.toNat ∧ field (routePayload dst image) 6 2 = 0 ∧
      field (routePayload dst image) 8 4 = image.toNat := by
  unfold routePayload
  refine ⟨?_, ?_, ?_, ?_, ?_⟩
  · simp only [List.append_assoc]
    exact field_toBytes (before := []) 2 1 _ rfl
  · simp only [List.append_assoc]
    exact field_toBytes (before := toBytes 2 1) 2 0 _ rfl
  · rw [List.append_assoc, List.append_assoc]
    exact (field_toBytes 2 _ _ rfl).trans (Nat.mod_eq_of_lt dst.isLt)
  · rw [List.append_assoc]
    exact field_toBytes 2 0 _ rfl
  · rw [← List.append_nil (toBytes 4 image.toNat)]
    exact (field_toBytes 4 _ [] rfl).trans (Nat.mod_eq_of_lt image.isLt)

/-- A routing entry's image has no bit beside VALID, ALT_VALID, PRI and ALT. -/
theorem route_image_mask (image : BitVec 32) (hlow : image.toNat % 2 ^ 16 = 0) (hhigh : image.toNat / 2 ^ 24 % 64 = 0) :
    BitVec.ofNat 64 image.toNat &&& (Reg.route 0).mask = BitVec.ofNat 64 image.toNat := by
  have hmask : ∀ i : Fin 64, (Reg.route 0).mask.getLsbD i = decide ((16 ≤ i.val ∧ i.val < 24) ∨ i.val = 30 ∨ i.val = 31) := by decide
  refine BitVec.eq_of_getLsbD_eq fun i hi => ?_
  rw [BitVec.getLsbD_and, hmask ⟨i, hi⟩]
  by_cases hfield : (16 ≤ i ∧ i < 24) ∨ i = 30 ∨ i = 31
  · rw [decide_eq_true hfield, Bool.and_true]
  · have hclear : image.toNat.testBit i = false := by
      by_cases hi16 : i < 16
      · have hbit := Nat.testBit_mod_two_pow image.toNat 16 i
        rw [hlow, Nat.zero_testBit, decide_eq_true hi16, Bool.true_and] at hbit
        exact hbit.symm
      by_cases hi30 : i < 30
      · have hbit := Nat.testBit_mod_two_pow (image.toNat / 2 ^ 24) 6 (i - 24)
        rw [show (2 : Nat) ^ 6 = 64 from rfl, hhigh, Nat.zero_testBit, Nat.testBit_div_two_pow, show i - 24 + 24 = i by omega,
          decide_eq_true (by omega : i - 24 < 6), Bool.true_and] at hbit
        exact hbit.symm
      · exact Nat.testBit_lt_two_pow (Nat.lt_of_lt_of_le image.isLt (Nat.pow_le_pow_right (by decide) (by omega)))
    rw [BitVec.getLsbD_ofNat, hclear, Bool.and_false, Bool.false_and]

theorem oneRoute_routePayload {dst : BitVec 16} {image : BitVec 32} (hdst : dst.toNat < 2048) (hlow : image.toNat % 2 ^ 16 = 0)
    (hhigh : image.toNat / 2 ^ 24 % 64 = 0) : OneRoute (routePayload dst image) := by
  obtain ⟨hcount, hreserved, hdevice, hentry, himage⟩ := routePayload_fields dst image
  exact ⟨hcount, rfl, hreserved, hentry, hdevice ▸ hdst, himage ▸ route_image_mask image hlow hhigh⟩

theorem yields_routeSet_legal {path : Path} {dst : BitVec 16} {image : BitVec 32} {s : State} (htakes : s.dev.takesStoluo path 0xC038)
    (hdst : dst.toNat < 2048) (hlow : image.toNat % 2 ^ 16 = 0) (hhigh : image.toNat / 2 ^ 24 % 64 = 0)
    (hlegal : s.dev.routeOk dst.toNat (BitVec.ofNat 64 image.toNat) = true) :
    yields (.routeSet path (routePayload dst image)) s fun t => t.reg (.route dst.toNat) = BitVec.ofNat 64 image.toNat ∧
      (∀ r : Reg, r ≠ .route dst.toNat → r.side = false → r.show = false → r.box = false → t.reg r = s.dev.reg r) ∧
      t.replied path 0xC038 0 0 [] ∧ t.fab = s.dev.fab := by
  obtain ⟨-, -, hdevice, -, himage⟩ := routePayload_fields dst image
  have hexec := exec_routeSet_one htakes (oneRoute_routePayload hdst hlow hhigh)
  rw [hdevice, himage, if_pos hlegal] at hexec
  refine yields_of_eq hexec ⟨?_, fun r hr hside hshow hbox => ?_, Dev.replied_finish (by decide), ?_⟩
  · rw [Dev.reg_shown _ _ (by simp), Dev.reg_finish _ _ _ _ _ (by simp) (by simp), Dev.reg_setReg_same]
    exact route_image_mask image hlow hhigh
  · rw [Dev.reg_shown _ _ hshow, Dev.reg_finish _ _ _ _ _ hside hbox, Dev.reg_setReg_ne _ _ hr]
  · rw [Dev.shown_fab, Dev.finish_fab]
    rfl

theorem yields_routeSet_refused {path : Path} {input : List Byte} {s : State} (htakes : s.dev.takesStoluo path 0xC038)
    (h : OneRoute input) (hillegal : s.dev.routeOk (field input 4 2) (BitVec.ofNat 64 (field input 8 4)) = false) :
    yields (.routeSet path input) s fun t => t.replied path 0xC038 2 0 [] ∧ s.dev.onlyRead t := by
  have hexec := exec_routeSet_one htakes h
  rw [if_neg (by simp [hillegal])] at hexec
  exact yields_of_eq hexec ⟨Dev.replied_finish (by decide), Dev.onlyRead_end⟩

/-! ### Rejoins that are commanded (R279) -/

/-- The payload of a NEIGHBOUR_REJOIN of a slot. -/
def rejoinPayload (n : Fin 16) : List Byte := [BitVec.ofNat 8 n.val, 0, 0, 0]

theorem rejoinPayload_slot (n : Fin 16) : field (rejoinPayload n) 0 1 = n.val := by decide +revert

theorem exec_neighbourRejoin_slot {path : Path} {n : Fin 16} {s : State} (htakes : s.dev.takesStoluo path 0xC039) :
    exec (.neighbourRejoin path (rejoinPayload n)) s = .next (s.onto
      (if s.dev.slotState n = 2 ∧ (s.dev.lowestActive n).isSome = true ∧ s.dev.sweepsOver (.slot n) = true then
        (s.dev.setRejoin n ⟨0, false, 0, false⟩).finish path 0xC039 rcSuccess
      else s.dev.finish path 0xC039 rcConflict)) := by
  refine exec_stoluo htakes (exec_neighbourRejoin path (rejoinPayload n) s) ?_ ?_
  · rw [rejoinPayload_slot]
    simp [n.isLt, rejoinPayload, field, ofBytes]
  · simp only [rejoinPayload_slot, n.isLt, dite_true]

theorem yields_neighbourRejoin_starts {path : Path} {n : Fin 16} {s : State} (htakes : s.dev.takesStoluo path 0xC039)
    (hdead : s.dev.slotState n = 2) (hactive : (s.dev.lowestActive n).isSome = true) (hswept : s.dev.sweepsOver (.slot n) = true) :
    yields (.neighbourRejoin path (rejoinPayload n)) s fun t => t.replied path 0xC039 0 0 [] ∧
      tget t.fab.rejoins n.val = some ⟨0, false, 0, false⟩ ∧ t.slotState n = 2 ∧ t.dir = s.dev.dir ∧ t.pool = s.dev.pool := by
  have hexec := exec_neighbourRejoin_slot (n := n) htakes
  rw [if_pos ⟨hdead, hactive, hswept⟩] at hexec
  refine yields_of_eq hexec ⟨Dev.replied_finish (by decide), ?_, ?_, ?_, ?_⟩
  · rw [Dev.shown_fab, Dev.finish_fab, Dev.tget_setRejoin]
  · exact (Dev.rd_shown _ _ _ _ rfl).trans ((Dev.rd_finish _ _ _ _ _ _ _ rfl rfl).trans hdead)
  · rw [Dev.shown_dir, Dev.finish_dir]
    rfl
  · rw [Dev.shown_pool, Dev.finish_pool]
    rfl

theorem yields_neighbourRejoin_refused {path : Path} {n : Fin 16} {s : State} (htakes : s.dev.takesStoluo path 0xC039)
    (hrefused : s.dev.slotState n ≠ 2 ∨ (s.dev.lowestActive n).isSome = false ∨ s.dev.sweepsOver (.slot n) = false) :
    yields (.neighbourRejoin path (rejoinPayload n)) s fun t => t.replied path 0xC039 7 0 [] ∧ s.dev.onlyRead t := by
  have hexec := exec_neighbourRejoin_slot (n := n) htakes
  rw [if_neg] at hexec
  · exact yields_of_eq hexec ⟨Dev.replied_finish (by decide), Dev.onlyRead_end⟩
  · rintro ⟨hdead, hactive, hswept⟩
    simp [hdead, hactive, hswept] at hrefused

/-! ### The obligation -/

/-- Settles O42: a Knell goes by whether it was seen and whose death it tells, a message in transit by its route, and the two commands by
their payloads of one entry. -/
theorem knellsRoutesAndRejoinsFollowTheirTables : Obligations.KnellsRoutesAndRejoinsFollowTheirTables := by
  unfold Obligations.KnellsRoutesAndRejoinsFollowTheirTables
  refine ⟨?copy, ?other, ?neighbour, ?own, ?routed, ?failed, ?takeback, ?route, ?illegal, ?rejoin, ?conflict⟩
  case copy => exact fun l words k s hmem hsrc hevent hrecent => exec_knellReceived_copy (Dev.knellSeen_of_mem hmem hsrc hevent hrecent)
  case other => exact fun l words s hold hkind => yields_knellReceived_other (Dev.knellSeen_of_old hold) hkind
  case neighbour =>
    exact fun l words n s hold hkind halive hslot => exec_knellReceived_neighbour (Dev.knellSeen_of_old hold) hkind halive hslot
  case own => exact fun l words s => exec_transitMessage_own
  case routed => exact fun l words n out s => exec_transitMessage_routed
  case failed => exact fun l words s => exec_transitMessage_failed
  case takeback => exact yields_granuleTakeback
  case route => exact fun path dst image s => yields_routeSet_legal
  case illegal =>
    exact fun path input s htakes hentries hlength hreserved hentry hdevice himage hillegal =>
      yields_routeSet_refused htakes ⟨hentries, hlength, hreserved, hentry, hdevice, himage⟩ hillegal
  case rejoin => exact fun path n s => yields_neighbourRejoin_starts
  case conflict => exact fun path n s => yields_neighbourRejoin_refused

end Sys2Proof.Machine
end

section
/-! PROOFS. Commands that complete at once: what reading leaves, and the codes of a command that its checks refuse (R285, R288). -/

namespace Sys2Proof.Machine

/-! ### Only reading -/

theorem Dev.onlyRead.trans {d1 d2 d3 : Dev} (h : d1.onlyRead d2) (h' : d2.onlyRead d3) : d1.onlyRead d3 := by
  obtain ⟨hpool, hdir, hsw, hsvc, hport, hlink, hfab, hsec, hpwr, hretired, hdies, hreg⟩ := h
  obtain ⟨hpool', hdir', hsw', hsvc', hport', hlink', hfab', hsec', hpwr', hretired', hdies', hreg'⟩ := h'
  exact ⟨hpool'.trans hpool, hdir'.trans hdir, hsw'.trans hsw, hsvc'.trans hsvc, hport'.trans hport, hlink'.trans hlink, hfab'.trans hfab,
    hsec'.trans hsec, hpwr'.trans hpwr, hretired'.trans hretired, hdies'.trans hdies,
    fun r hside hshow hbox => (hreg' r hside hshow hbox).trans (hreg r hside hshow hbox)⟩

theorem Dev.onlyRead.reg {d d' : Dev} (h : d.onlyRead d') {r : Reg} (hside : r.side = false) (hshow : r.show = false) (hbox : r.box = false) :
    d'.reg r = d.reg r := by
  obtain ⟨-, -, -, -, -, -, -, -, -, -, -, hreg⟩ := h
  exact hreg r hside hshow hbox

/-- The management records are no part of what reading leaves. -/
theorem Dev.onlyRead_mgmt (d : Dev) (m : MgmtState) : d.onlyRead { d with mgmt := m } :=
  ⟨rfl, rfl, rfl, rfl, rfl, rfl, rfl, rfl, rfl, rfl, rfl, fun _ _ _ _ => rfl⟩

theorem Dev.onlyRead.refl (d : Dev) : d.onlyRead d := d.onlyRead_mgmt d.mgmt

theorem Dev.onlyRead_emit (d : Dev) (o : Out) : d.onlyRead (d.emit o) :=
  ⟨rfl, rfl, rfl, rfl, rfl, rfl, rfl, rfl, rfl, rfl, rfl, fun _ _ _ _ => rfl⟩

theorem Dev.onlyRead_openBits (d : Dev) (w : Nat) : d.onlyRead (d.openBits w).2 :=
  ⟨rfl, rfl, rfl, rfl, rfl, rfl, rfl, rfl, rfl, rfl, rfl, fun _ _ _ _ => rfl⟩

theorem Dev.onlyRead_count (d : Dev) (u ev n : Nat) : d.onlyRead (d.count u ev n) := by
  refine ⟨?_, ?_, ?_, ?_, ?_, ?_, ?_, ?_, ?_, ?_, ?_, fun r hside _ _ => d.reg_count u ev n r hside⟩ <;> simp

theorem Dev.onlyRead_bgStart (d : Dev) (path : Path) (op : Nat) : d.onlyRead (d.bgStart path op) := by
  refine ⟨?_, ?_, ?_, ?_, ?_, ?_, ?_, ?_, ?_, ?_, ?_, fun r hside _ hbox => d.reg_bgStart path op r hside hbox⟩ <;> simp

theorem Dev.onlyRead_bgEnd (d : Dev) (path : Path) : d.onlyRead (d.bgEnd path) := by
  refine ⟨?_, ?_, ?_, ?_, ?_, ?_, ?_, ?_, ?_, ?_, ?_, fun r hside _ hbox => d.reg_bgEnd path r hside hbox⟩ <;> simp

/-! ### Commands that complete -/

/-- A command that is completed answers its code and output; a device that only reads before it only reads. -/
theorem yields_completed {c : Instr} {s : State} {d : Dev} {path : Path} {op rc : Nat} {l : List Byte}
    (h : exec c s = .next (s.onto (d.complete path op rc 0 l))) (hrc : rc < 65536) (hread : s.dev.onlyRead d) :
    yields c s fun t => t.replied path op rc 0 l ∧ s.dev.onlyRead t :=
  yields_of_eq h ⟨Dev.replied_end hrc, hread.trans Dev.onlyRead_end⟩

theorem yields_mono {c : Instr} {s : State} {P Q : Dev → Prop} (h : yields c s P) (hPQ : ∀ t, P t → Q t) : yields c s Q := by
  obtain ⟨t, hexec, hpending, hP⟩ := h
  exact ⟨t, hexec, hpending, hPQ _ hP⟩

/-- A Stoluo command that is taken, whose payload does not follow its table, is refused. -/
theorem exec_stoluo_invalid {c : Instr} {s : State} {path : Path} {op : Nat} {ok : Bool} {body : Dev → Dev}
    (h : s.dev.takesStoluo path op) (he : exec c s = onDev s fun d => d.stoluo path op false ok body) (hok : ok = false) :
    exec c s = .next (s.onto (s.dev.finish path op rcInvalid)) :=
  exec_onto he (Dev.stoluo_invalid _ _ _ _ _ _ h.1 h.2 hok)

end Sys2Proof.Machine
end

section
/-! PROOFS. The standard CXL commands of the Pool Device and the queries of a fabric manager (R290, R291). Settles O49 and O50. -/

namespace Sys2Proof.Machine

/-! ### Commands that answer what the state gives -/

theorem exec_cxl {c : Instr} {s : State} {p : Fin 64} {op rc : Nat} {l : List Byte} {f : Dev → Nat × List Byte}
    (h : s.dev.takesStandard (.pool p) op) (he : exec c s = onDev s fun d => d.cxl p op f) (hf : f s.dev = (rc, l)) :
    exec c s = .next (s.onto (s.dev.complete (.pool p) op rc 0 l)) :=
  exec_standard (body := fun d => d.complete (.pool p) op (f d).1 0 (f d).2) h he (by rw [hf])

theorem yields_cxl {c : Instr} {s : State} {p : Fin 64} {op rc : Nat} {l : List Byte} {f : Dev → Nat × List Byte}
    (h : s.dev.takesStandard (.pool p) op) (he : exec c s = onDev s fun d => d.cxl p op f) (hf : f s.dev = (rc, l)) (hrc : rc < 65536) :
    yields c s fun t => t.replied (.pool p) op rc 0 l ∧ s.dev.onlyRead t :=
  yields_completed (exec_cxl h he hf) hrc (.refl _)

/-- The commands of every path but JTAG. -/
theorem yields_common {c : Instr} {s : State} {path : Path} {op rc : Nat} {l : List Byte} {f : Dev → Nat × List Byte}
    (h : s.dev.takesStandard path op) (hpath : path ≠ .jtag) (he : exec c s = onDev s fun d => d.common path op f)
    (hf : f s.dev = (rc, l)) (hrc : rc < 65536) : yields c s fun t => t.replied path op rc 0 l ∧ s.dev.onlyRead t := by
  refine yields_completed (exec_standard h he ?_) hrc (.refl _)
  cases path with
  | jtag => exact absurd rfl hpath
  | pool p => simp only [hf]
  | fm => simp only [hf]
  | mctp e => simp only [hf]

/-- The paths that carry the FM-API set (Table MG-1). -/
theorem yields_fmApi {c : Instr} {s : State} {path : Path} {op rc : Nat} {l : List Byte} {f : Dev → Nat × List Byte}
    (h : s.dev.takesStandard path op) (hpath : path = .fm ∨ ∃ e, path = .mctp e) (he : exec c s = onDev s fun d => d.fmApi path op f)
    (hf : f s.dev = (rc, l)) (hrc : rc < 65536) : yields c s fun t => t.replied path op rc 0 l ∧ s.dev.onlyRead t := by
  refine yields_completed (exec_standard h he ?_) hrc (.refl _)
  obtain rfl | ⟨e, rfl⟩ := hpath <;> simp only [hf]

/-- A query about a host is refused for a port that is no host port. -/
theorem yields_hostQuery {c : Instr} {s : State} {path : Path} {op host : Nat} {out : Dev → List Byte} (h : s.dev.takesStandard path op)
    (hpath : path = .fm ∨ ∃ e, path = .mctp e)
    (he : exec c s = onDev s fun d => d.fmApi path op fun d => if d.portMode host = 1 then (0, out d) else (rcInvalid, [])) :
    yields c s fun t => (s.dev.portMode host = 1 → t.replied path op 0 0 (out s.dev)) ∧
      (s.dev.portMode host ≠ 1 → t.replied path op 2 0 []) ∧ s.dev.onlyRead t := by
  by_cases hmode : s.dev.portMode host = 1
  · exact yields_mono (yields_fmApi h hpath he (if_pos hmode) (by decide)) fun t ⟨hreplied, hread⟩ =>
      ⟨fun _ => hreplied, fun hnot => absurd hmode hnot, hread⟩
  · exact yields_mono (yields_fmApi h hpath he (if_neg hmode) (by decide)) fun t ⟨hreplied, hread⟩ =>
      ⟨fun hhost => absurd hhost hmode, fun _ => hreplied, hread⟩

/-! ### Outputs of entries of one length -/

/-- What stands from the entry of an index on, in an output of entries of one length. -/
theorem drop_flatMap_entry {α β : Type} {f : α → List β} {n : Nat} (hlength : ∀ x, (f x).length = n) {l : List α} {k : Nat} {x : α}
    (h : l[k]? = some x) : ∃ rest, (l.flatMap f).drop (n * k) = f x ++ rest := by
  induction l generalizing k with
  | nil => simp at h
  | cons y ys ih =>
    cases k with
    | zero =>
      obtain rfl : y = x := by simpa using h
      exact ⟨ys.flatMap f, by rw [Nat.mul_zero, List.drop_zero, List.flatMap_cons]⟩
    | succ k =>
      obtain ⟨rest, hrest⟩ := ih (k := k) (by simpa using h)
      refine ⟨rest, ?_⟩
      rw [List.flatMap_cons, Nat.mul_succ, Nat.add_comm, ← List.drop_drop, ← hlength y, List.drop_left, hlength y, hrest]

theorem length_flatMap_entries {α β : Type} {f : α → List β} {n : Nat} (hlength : ∀ x, (f x).length = n) (l : List α) :
    (l.flatMap f).length = n * l.length := by
  simp [List.length_flatMap, hlength, Nat.mul_comm]

theorem Dev.length_standardOut (d : Dev) (op n : Nat) : (d.standardOut op n).length = n := by simp [Dev.standardOut]

/-! ### The Command Effects Log -/

theorem Dev.length_effectsLog (d : Dev) : d.effectsLog.length = 4 * supportedOpcodes.length :=
  length_flatMap_entries (fun op => by rw [List.length_append, length_toBytes, Dev.length_standardOut]) _

/-- The entry of an opcode starts with it. -/
theorem Dev.effectsLog_entry (d : Dev) {k op : Nat} (h : supportedOpcodes[k]? = some op) : field d.effectsLog (4 * k) 2 = op := by
  have hsmall : ∀ op ∈ supportedOpcodes, op < 65536 := by decide
  obtain ⟨rest, hrest⟩ := drop_flatMap_entry (f := fun op => toBytes 2 op ++ d.standardOut (0x0401 + 2 ^ 48 * op) 2) (n := 4)
    (fun op => by rw [List.length_append, length_toBytes, Dev.length_standardOut]) h
  rw [field, Dev.effectsLog, hrest, List.append_assoc, List.take_left' (length_toBytes 2 op), ofBytes_toBytes]
  exact Nat.mod_eq_of_lt (hsmall op (List.mem_of_getElem? h))

theorem yields_getLog_refused {p : Fin 64} {input : List Byte} {s : State} (h : s.dev.takesStandard (.pool p) 0x0401)
    (hbad : input.length ≠ 24 ∨ input.take 16 ≠ s.dev.effectsId ∨ 4 * supportedOpcodes.length < field input 16 4 + field input 20 4) :
    yields (.getLog p input) s fun t => t.replied (.pool p) 0x401 2 0 [] ∧ s.dev.onlyRead t := by
  refine yields_cxl h (exec_getLog p input s) (if_neg ?_) (by decide)
  rw [Dev.length_effectsLog]
  rintro ⟨hlength, hid, hpart⟩
  exact hbad.elim (· hlength) fun hbad => hbad.elim (· hid) fun hlong => absurd hpart (Nat.not_le.2 hlong)

/-! ### Events of a host -/

theorem exec_clearEventRecords_held {p : Fin 64} {log : Fin 5} {handles : List Nat} {s : State} (h : s.dev.takesStandard (.pool p) 0x0101)
    (hheld : ∀ x ∈ handles, ∃ e ∈ s.dev.eventsOf p log, e.handle = x) :
    exec (.clearEventRecords p log handles) s = .next (s.onto (({ s.dev with mgmt := { s.dev.mgmt with
      events := tset s.dev.mgmt.events p.val ((tgetD s.dev.mgmt.events p.val []).filter fun e =>
        !(decide (e.log = log.val) && handles.contains e.handle)) } }).finish (.pool p) 0x101 0)) := by
  have hall : (handles.all fun x => ((s.dev.eventsOf p log).map (·.handle)).contains x) = true := by simpa using hheld
  exact exec_onto (exec_clearEventRecords p log handles s) ((Dev.standard_runs _ _ _ _ h).trans (if_pos hall))

theorem exec_clearEventRecords_unheld {p : Fin 64} {log : Fin 5} {handles : List Nat} {x : Nat} {s : State}
    (h : s.dev.takesStandard (.pool p) 0x0101) (hx : x ∈ handles) (hunheld : ∀ e ∈ s.dev.eventsOf p log, e.handle ≠ x) :
    exec (.clearEventRecords p log handles) s = .next (s.onto (s.dev.finish (.pool p) 0x101 0xE)) := by
  have hall : ¬ (handles.all fun x => ((s.dev.eventsOf p log).map (·.handle)).contains x) = true := fun hall => by
    obtain ⟨e, he, hhandle⟩ := List.mem_map.1 (List.contains_iff_mem.1 (List.all_eq_true.1 hall x hx))
    exact hunheld e he hhandle
  exact exec_onto (exec_clearEventRecords p log handles s) ((Dev.standard_runs _ _ _ _ h).trans (if_neg hall))

theorem exec_setEventInterruptPolicy_runs {p : Fin 64} {input : List Byte} {s : State} (h : s.dev.takesStandard (.pool p) 0x0103) :
    exec (.setEventInterruptPolicy p input) s = .next (s.onto (if input.length = 5 then
      ({ s.dev with mgmt := { s.dev.mgmt with policies := tset s.dev.mgmt.policies p.val input } }).finish (.pool p) 0x0103 rcSuccess
      else s.dev.finish (.pool p) 0x0103 rcInvalid)) :=
  exec_standard h (exec_setEventInterruptPolicy p input s) rfl

/-! ### The obligations -/

/-- Settles O49: each command answers what its function gives of the state; the events and the policy of a host are the only records that
one of them writes. -/
theorem standardCommandsAnswerFromTheState : Obligations.StandardCommandsAnswerFromTheState := by
  unfold Obligations.StandardCommandsAnswerFromTheState
  refine ⟨?identify, ?running, ?ended, ?limit, ?events, ?clear, ?unheld, ?policy, ?setPolicy, ?badPolicy, ?firmware, ?timestamp,
    ?setTimestamp, ?logs, ?effects, ?log, ?badLog, ?device, ?partition, ?health, ?poison, ?capacity, ?extents, ?unsupported⟩
  case identify => exact fun p s h => yields_cxl h (exec_identify p s) rfl (by decide)
  case running =>
    intro path b s h hpath hbg
    exact yields_common h hpath (exec_backgroundOperationStatus path s) (by rw [Dev.bgStatus, hbg]; rfl) (by decide)
  case ended =>
    intro path op rc v s h hpath hbg hlast
    exact yields_common h hpath (exec_backgroundOperationStatus path s) (by rw [Dev.bgStatus, hbg, hlast]) (by decide)
  case limit => exact fun path s h hpath => yields_common h hpath (exec_getResponseMessageLimit path s) rfl (by decide)
  case events =>
    intro p log s h
    exact yields_of_eq (exec_cxl h (exec_getEventRecords p log s) rfl)
      ⟨Dev.replied_end (by decide), Dev.onlyRead_end, by rw [Dev.shown_mgmt, Dev.complete_mgmt_events]⟩
  case clear =>
    intro p log handles s h hheld
    refine yields_of_eq (exec_clearEventRecords_held h hheld) ⟨Dev.replied_finish (by decide), ?_, fun q hq => ?_,
      (Dev.onlyRead_mgmt _ _).trans Dev.onlyRead_end⟩
    · rw [Dev.shown_mgmt, Dev.finish_mgmt_events, tgetD_tset_same]
    · rw [Dev.shown_mgmt, Dev.finish_mgmt_events, tget_tset_ne _ _ hq]
  case unheld =>
    intro p log handles x s h hx hunheld
    exact yields_of_eq (exec_clearEventRecords_unheld h hx hunheld)
      ⟨Dev.replied_finish (by decide), by rw [Dev.shown_mgmt, Dev.finish_mgmt_events]⟩
  case policy => exact fun p s h => yields_cxl h (exec_getEventInterruptPolicy p s) rfl (by decide)
  case setPolicy =>
    intro p input s h hlength
    have hexec := exec_setEventInterruptPolicy_runs (input := input) h
    rw [if_pos hlength] at hexec
    refine yields_of_eq hexec ⟨Dev.replied_finish (by decide), ?_, fun q hq => ?_, (Dev.onlyRead_mgmt _ _).trans Dev.onlyRead_end⟩
    · rw [Dev.shown_mgmt, Dev.finish_mgmt_policies, tget_tset_same]
    · rw [Dev.shown_mgmt, Dev.finish_mgmt_policies, tget_tset_ne _ _ hq]
  case badPolicy =>
    intro p input s h hlength
    have hexec := exec_setEventInterruptPolicy_runs (input := input) h
    rw [if_neg hlength] at hexec
    exact yields_of_eq hexec ⟨Dev.replied_finish (by decide), by rw [Dev.shown_mgmt, Dev.finish_mgmt_policies]⟩
  case firmware => exact fun p s h => yields_cxl h (exec_getFwInfo p s) rfl (by decide)
  case timestamp => exact fun p s h => yields_cxl h (exec_getTimestamp p s) rfl (by decide)
  case setTimestamp =>
    intro p input s h hlength
    exact yields_mono (yields_cxl h (exec_setTimestamp p input s) (by rw [if_pos hlength]; rfl) (by decide))
      fun t ⟨hreplied, hread⟩ => ⟨hreplied, hread.reg rfl rfl rfl, hread⟩
  case logs => exact fun p s h => yields_cxl h (exec_getSupportedLogs p s) (by rw [Dev.length_effectsLog]; rfl) (by decide)
  case effects => exact fun d => ⟨d.length_effectsLog, fun k op => d.effectsLog_entry⟩
  case log =>
    intro p input s h hlength hid hpart
    exact yields_cxl h (exec_getLog p input s) (if_pos ⟨hlength, hid, by rwa [Dev.length_effectsLog]⟩) (by decide)
  case badLog => exact fun p input s h hbad => yields_getLog_refused h hbad
  case device => exact fun p s h => yields_cxl h (exec_identifyMemoryDevice p s) rfl (by decide)
  case partition => exact fun p s h => yields_cxl h (exec_getPartitionInfo p s) rfl (by decide)
  case health => exact fun p s h => yields_cxl h (exec_getHealthInfo p s) rfl (by decide)
  case poison => exact fun p s h => yields_cxl h (exec_getPoisonList p s) rfl (by decide)
  case capacity => exact fun p s h => yields_cxl h (exec_getDynamicCapacityConfiguration p s) rfl (by decide)
  case extents => exact fun p first count s h => yields_cxl h (exec_getDynamicCapacityExtentList p first count s) rfl (by decide)
  case unsupported => exact fun p opcode s h => yields_cxl h (exec_unsupportedCxlCommand p opcode s) rfl (by decide)

/-- Settles O50: on the two paths that carry the set each query answers what its function gives of the state, and on a Pool Device mailbox
the set is unsupported. -/
theorem fabricManagerCommandsAnswerFromTheState : Obligations.FabricManagerCommandsAnswerFromTheState := by
  unfold Obligations.FabricManagerCommandsAnswerFromTheState
  refine ⟨?identify, ?switch, ?ports, ?virtual, ?capacity, ?regions, ?extents, ?unsupported, ?pool⟩
  case identify => exact fun path s h hpath => yields_fmApi h hpath (exec_fmIdentify path s) rfl (by decide)
  case switch => exact fun path s h hpath => yields_fmApi h hpath (exec_identifySwitchDevice path s) rfl (by decide)
  case ports =>
    intro path ports s h hpath
    have hlength : ∀ p : Fin 64, (BitVec.ofNat 8 p.val :: (List.range 15).map (Config.standardByte
        (0x5101 + 65536 * ((s.dev.reg (.prtStatus p)).toNat + 2 ^ 32 * s.dev.portMode p)))).length = 16 := fun p => by simp
    refine yields_mono (yields_fmApi h hpath (exec_getPhysicalPortState path ports s) rfl (by decide)) fun t ⟨hreplied, hread⟩ =>
      ⟨_, hreplied, ?_, rfl, fun i p hp => ?_, hread⟩
    · rw [List.length_append, length_flatMap_entries hlength]
      rfl
    · obtain ⟨rest, hrest⟩ := drop_flatMap_entry hlength hp
      have hhead := congrArg (·[0]?) hrest
      rw [List.getElem?_drop] at hhead
      rw [List.getElem?_append_right (Nat.le_add_right 4 _), List.length_cons]
      simpa using hhead
  case virtual => exact fun path s h hpath => yields_fmApi h hpath (exec_getVirtualCxlSwitchInfo path s) rfl (by decide)
  case capacity => exact fun path host s h hpath => yields_hostQuery h hpath (exec_getDcdInfo path host s)
  case regions => exact fun path host s h hpath => yields_hostQuery h hpath (exec_getHostDcRegionConfiguration path host s)
  case extents => exact fun path host first count s h hpath => yields_hostQuery h hpath (exec_getDcRegionExtentLists path host first count s)
  case unsupported => exact fun path opcode s h hpath => yields_fmApi h hpath (exec_unsupportedFmApiCommand path opcode s) rfl (by decide)
  case pool =>
    exact fun p s h => yields_completed (exec_standard h (exec_identifySwitchDevice (.pool p) s) rfl) (by decide) (.refl _)

end Sys2Proof.Machine
end

section
/-! PROOFS. Information, register reads and the logs (R292, R293, R298, R299). Settles O44. -/

namespace Sys2Proof.Machine

/-! ### Payloads (Tables MG-7, MG-10) -/

/-- A byte that stands for a number below 3. -/
theorem toNat_logByte (id : Fin 3) : (BitVec.ofNat 8 id.val).toNat = id.val := by decide +revert

/-- The payload of a LOG_READ. -/
def logReadPayload (id : Fin 3) (start count : Nat) : List Byte :=
  [BitVec.ofNat 8 id.val, 0, 0, 0] ++ toBytes 4 start ++ toBytes 2 count ++ [0, 0]

/-- The payload of a LOG_CLEAR. -/
def logClearPayload (id : Fin 3) (last : Nat) : List Byte := [BitVec.ofNat 8 id.val, 0, 0, 0] ++ toBytes 4 last

theorem logReadPayload_fields (id : Fin 3) {start count : Nat} (hstart : start < 2 ^ 32) (hcount : count ≤ 127) :
    field (logReadPayload id start count) 0 1 = id.val ∧ field (logReadPayload id start count) 1 3 = 0 ∧
      field (logReadPayload id start count) 4 4 = start ∧ field (logReadPayload id start count) 8 2 = count ∧
      field (logReadPayload id start count) 10 2 = 0 := by
  refine ⟨toNat_logByte id, rfl, ?_, ?_, rfl⟩
  · rw [logReadPayload, List.append_assoc, List.append_assoc]
    exact (field_toBytes 4 start _ rfl).trans (Nat.mod_eq_of_lt hstart)
  · rw [logReadPayload, List.append_assoc]
    exact (field_toBytes 2 count _ rfl).trans (Nat.mod_eq_of_lt (by omega))

theorem logClearPayload_fields (id : Fin 3) {last : Nat} (hlast : last < 2 ^ 32) :
    field (logClearPayload id last) 0 1 = id.val ∧ field (logClearPayload id last) 1 3 = 0 ∧ field (logClearPayload id last) 4 4 = last := by
  refine ⟨toNat_logByte id, rfl, ?_⟩
  rw [logClearPayload, ← List.append_nil (toBytes 4 last)]
  exact (field_toBytes 4 last [] rfl).trans (Nat.mod_eq_of_lt hlast)

/-! ### REG_READ (R293) -/

theorem exec_regRead_ok {path : Path} {input : List Byte} {d1 d2 : Dev} {v : Word} {s : State} (h : s.dev.takesStoluo path 0xC001)
    (hform : regReadForm input = true)
    (hcheck : s.dev.regCheckAs .firmware (some (s.dev.regReader path)) (field input 0 4) (field input 4 1) false = (.ok, d1))
    (hread : d1.regRead .firmware (field input 0 4) (field input 4 1) = (v, d2)) :
    exec (.regRead path input) s = .next (s.onto (d2.complete path 0xC001 0 0 (toBytes 8 v.toNat))) := by
  refine exec_stoluo h (exec_regRead path input s) hform ?_
  simp only [hcheck, hread]
  rfl

theorem exec_regRead_denied {path : Path} {input : List Byte} {d1 : Dev} {s : State} (h : s.dev.takesStoluo path 0xC001)
    (hform : regReadForm input = true)
    (hcheck : s.dev.regCheckAs .firmware (some (s.dev.regReader path)) (field input 0 4) (field input 4 1) false = (.denied, d1)) :
    exec (.regRead path input) s = .next (s.onto (d1.finish path 0xC001 rcPermission)) := by
  refine exec_stoluo h (exec_regRead path input s) hform ?_
  simp only [hcheck]

/-! ### Logs (R298, R299) -/

theorem yields_logRead {path : Path} (id : Fin 3) {start count : Nat} {s : State} (h : s.dev.takesStoluo path 0xC040)
    (hstart : start < 2 ^ 32) (hone : 1 ≤ count) (hcount : count ≤ 127) :
    let l := ((s.dev.logOf id).1.filter fun r => decide (start ≤ r.1)).take count
    yields (.logRead path (logReadPayload id start count)) s fun t => t.replied path 0xC040 0 0
      (toBytes 4 l.length ++ toBytes 4 (s.dev.logOf id).2.1 ++ toBytes 4 (min (s.dev.logOf id).2.2 (2 ^ 32 - 1)) ++ [0, 0, 0, 0] ++
        l.flatMap (·.2)) ∧ s.dev.onlyRead t := by
  obtain ⟨hid, hzero, hfrom, hmany, hend⟩ := logReadPayload_fields id hstart hcount
  refine yields_completed (exec_stoluo h (exec_logRead path _ s) ?_ ?_) (by decide) (.refl _)
  · rw [logReadForm, hid, hzero, hmany, hend]
    exact decide_eq_true ⟨by simp [logReadPayload, length_toBytes], Nat.lt_succ_iff.1 id.isLt, rfl, hone, hcount, rfl⟩
  · rw [hid, hfrom, hmany]
    rfl

/-- LOG_CLEAR empties the log where it names its newest record, and is refused otherwise. -/
theorem exec_logClear_payload {path : Path} (id : Fin 3) {last : Nat} {s : State} (h : s.dev.takesStoluo path 0xC041)
    (hlast : last < 2 ^ 32) : exec (.logClear path (logClearPayload id last)) s = .next (s.onto
      (if (last + 1) % 2 ^ 32 = (s.dev.logOf id).2.1 then (s.dev.clearLog id).finish path 0xC041 rcSuccess
        else s.dev.finish path 0xC041 rcConflict)) := by
  obtain ⟨hid, hzero, hnamed⟩ := logClearPayload_fields id hlast
  refine exec_stoluo h (exec_logClear path _ s) ?_ ?_
  · rw [logClearForm, hid, hzero]
    exact decide_eq_true ⟨by simp [logClearPayload, length_toBytes], Nat.lt_succ_iff.1 id.isLt, rfl⟩
  · rw [hid, hnamed]

/-- The newest record of a log that has taken one is named by the number before NEXT_SEQ. -/
theorem exec_logClear_newest {path : Path} (id : Fin 3) {s : State} (h : s.dev.takesStoluo path 0xC041)
    (hlt : (s.dev.logOf id).2.1 < 2 ^ 32) (hone : 1 ≤ (s.dev.logOf id).2.1) :
    exec (.logClear path (logClearPayload id ((s.dev.logOf id).2.1 - 1))) s =
      .next (s.onto ((s.dev.clearLog id).finish path 0xC041 rcSuccess)) := by
  rw [exec_logClear_payload id h (by omega), Nat.sub_add_cancel hone, if_pos (Nat.mod_eq_of_lt hlt)]

/-- LOG_FULL of FAULT_STAT is beside what the end of a command shows there. -/
theorem Dev.logFull_shown (d : Dev) : d.shown.bitOf .faultStat 26 = d.bitOf .faultStat 26 := by
  have hholds : Reg.faultStat.holds 26 26 = true := by simp [Reg.holds, Reg.mask, Reg.layout, fieldMask]
  rw [Dev.bitOf, Dev.shown, Dev.rd_showFaults_low _ hholds (by decide), Dev.showCounts, Dev.rd_wr_field _ _ hholds (by decide),
    Dev.rd_wr_field _ _ hholds (by decide), Dev.showCells, Dev.rd_wr_ne _ _ _ _ _ _ (by simp), Dev.showKeys,
    Dev.rd_wr_ne _ _ _ _ _ _ (by simp), Dev.rd_wr_ne _ _ _ _ _ _ (by simp), Dev.bitOf]

/-! ### The obligation -/

/-- Settles O44: the queries answer what the state gives; LOG_CLEAR of a log's newest record replaces that log alone. -/
theorem informationRegistersAndLogsAreRead : Obligations.InformationRegistersAndLogsAreRead := by
  unfold Obligations.InformationRegistersAndLogsAreRead
  refine ⟨?info, ?badInfo, ?read, ?denied, ?logRead, ?lost, ?faults, ?fabric, ?conflict⟩
  case info => exact fun path s h => yields_completed (exec_stoluo h (exec_getInfo path [] s) rfl rfl) (by decide) (.refl _)
  case badInfo =>
    intro path input s h hinput
    exact yields_completed (exec_stoluo_invalid h (exec_getInfo path input s) (by simpa using hinput)) (by decide) (.refl _)
  case read => exact fun path input d1 d2 v s => exec_regRead_ok
  case denied =>
    exact fun path input d1 s h hform hcheck => yields_of_eq (exec_regRead_denied h hform hcheck) (Dev.replied_finish (by decide))
  case logRead => exact fun path id start count s h hstart hone hcount => yields_mono (yields_logRead id h hstart hone hcount) fun t => And.symm
  case lost =>
    intro path s h hlt hone
    refine yields_of_eq (exec_logClear_newest 0 h hlt hone) ⟨Dev.replied_finish (by decide), ?_, ?_, ?_, ?_, ?_⟩ <;> simp [Dev.clearLog]
  case faults =>
    intro path s h hlt hone
    refine yields_of_eq (exec_logClear_newest 1 h hlt hone) ⟨Dev.replied_finish (by decide), ?_, ?_, ?_, ?_, ?_⟩
    · simp [Dev.clearLog]
    · rw [Dev.logFull_shown, Dev.bitOf_finish _ _ _ _ _ _ rfl rfl]
      exact Dev.bitOf_wr_same _ 0 (by simp [Reg.holds, Reg.mask, Reg.layout, fieldMask])
    all_goals simp [Dev.clearLog]
  case fabric =>
    intro path s h hlt hone
    refine yields_of_eq (exec_logClear_newest 2 h hlt hone) ⟨Dev.replied_finish (by decide), ?_, ?_, ?_, ?_⟩ <;> simp [Dev.clearLog]
  case conflict =>
    intro path id last s h hlast hother
    have hexec := exec_logClear_payload id h hlast
    rw [if_neg hother] at hexec
    exact yields_of_eq hexec ⟨Dev.replied_finish (by decide), Dev.onlyRead_end, by simp⟩

end Sys2Proof.Machine
end

section
/-! PROOFS. Mailboxes, MCTP, the addresses of the bus, and background operations that end (R283 to R287, R354, R432). Settles O43. -/

namespace Sys2Proof.Machine

/-! ### What the end of a command sends -/

/-- The end of a command sends no command's answer. -/
theorem Dev.cmdDone_of_shown {d : Dev} {path : Path} {op rc v : Nat} {l : List Byte} (h : .cmdDone path op rc v l ∈ d.shown.out) :
    .cmdDone path op rc v l ∈ d.out := by
  rw [Dev.shown, Dev.showFaults_eq] at h
  split at h
  · exact h
  · exact (List.mem_append.1 h).elim id fun hpin => by simp at hpin

/-! ### The doorbell (R285) -/

/-- A mailbox with its doorbell set, whose opcode, length and input have been read. -/
def Dev.rung (d : Dev) (m : Nat) : Dev :=
  let d' := (d.wr (.mbxCtl m) 0 0 1).wake domMgt
  { d' with mgmt := { d'.mgmt with
    submitted := tset d'.mgmt.submitted m ⟨d.rd (.mbxCmd m) 15 0, d'.payload m (min (d.rd (.mbxCmd m) 36 16) 4096)⟩ } }

/-- The path of a mailbox. -/
def boxPath (m : Nat) : Path := if h : m < 64 then .pool ⟨m, h⟩ else .fm

theorem mailboxOf_boxPath (m : Fin 65) : mailboxOf (boxPath m) = some m.val := by
  unfold boxPath
  split
  · rfl
  · exact congrArg some (by omega)

theorem Dev.doorbell_taken {d : Dev} {m : Nat} (hlength : d.rd (.mbxCmd m) 36 16 ≤ 4096)
    (hlisted : ¬(0xC000 ≤ d.rd (.mbxCmd m) 15 0 ∧ d.rd (.mbxCmd m) 15 0 ≤ 0xCFFF ∧ cmdClass (d.rd (.mbxCmd m) 15 0) = none)) :
    d.doorbell m = d.rung m := by
  unfold Dev.doorbell
  dsimp only
  rw [if_neg (Nat.not_lt.2 hlength), if_neg hlisted]
  rfl

theorem Dev.reg_rung (d : Dev) (m : Nat) {r : Reg} (h : r ≠ .mbxCtl m) : (d.rung m).reg r = d.reg r :=
  (Dev.reg_wake _ _ r).trans (d.reg_wr_ne _ _ _ h)

theorem Dev.submitted_rung (d : Dev) (m : Nat) : (d.rung m).mgmt.submitted =
    tset d.mgmt.submitted m ⟨d.rd (.mbxCmd m) 15 0, d.payload m (min (d.rd (.mbxCmd m) 36 16) 4096)⟩ := by
  have hpayload : ∀ n, ((d.wr (.mbxCtl m) 0 0 1).wake domMgt).payload m n = d.payload m n := fun n => by
    simp only [Dev.payload, Dev.reg_wake, fun i => d.reg_wr_ne (r := .mbxCtl m) (r' := .mbxPayload m i) 0 0 1 Reg.noConfusion]
  rw [Dev.rung, hpayload, Dev.wake_mgmt]
  rfl

theorem Dev.serves_rung (d : Dev) (m : Nat) (path : Path) (op : Nat) : (d.rung m).serves path op = d.serves path op := by
  have hmgmt : ∀ {α : Type} (f : MgmtState → α), (∀ x y, f { x with submitted := y } = f x) → f (d.rung m).mgmt = f d.mgmt := fun f hf => by
    rw [Dev.rung, hf, Dev.wake_mgmt]
    rfl
  unfold Dev.serves Dev.halted Dev.stage Dev.domState Dev.bitOf Dev.rd
  rw [d.reg_rung m (r := .secStatus) Reg.noConfusion, d.reg_rung m (r := .oobBoot) Reg.noConfusion,
    d.reg_rung m (r := .domStatus domMgt) Reg.noConfusion, hmgmt (·.coldHeld) fun _ _ => rfl, hmgmt (·.fwUp) fun _ _ => rfl,
    hmgmt (·.warmHeld) fun _ _ => rfl]

/-- A length above 4,096 completes at once, where the path is served. -/
theorem Dev.doorbell_long {d : Dev} {m : Nat} (hlength : 4096 < d.rd (.mbxCmd m) 36 16)
    (hserves : d.serves (boxPath m) (d.rd (.mbxCmd m) 15 0) = true) :
    d.doorbell m = (d.rung m).finish (boxPath m) (d.rd (.mbxCmd m) 15 0) rcInvalid := by
  unfold Dev.doorbell
  dsimp only
  rw [if_pos hlength]
  exact if_pos ((d.serves_rung m _ _).trans hserves)

/-- Completing a command of a mailbox leaves the length of its output in MBX.CMD. -/
theorem Dev.rd_complete_length (d : Dev) {path : Path} {m : Nat} (hm : mailboxOf path = some m) (op rc v : Nat) (l : List Byte) :
    (d.complete path op rc v l).rd (.mbxCmd m) 36 16 = l.length % 2 ^ 21 := by
  have hholds : (Reg.mbxCmd m).holds 36 16 = true := by simp [Reg.holds, Reg.mask, Reg.layout, fieldMask]
  unfold Dev.complete
  simp only [hm]
  generalize ((d.emit (.cmdDone path op rc v l)).count 36 0x9000 1).writePayload m l = d1
  have hwritten : ((((d1.wr (.mbxCmd m) 36 16 l.length).wr (.mbxStatus m) 47 32 rc).wr (.mbxStatus m) 63 48 v).wr (.mbxCtl m) 0 0 0).rd
      (.mbxCmd m) 36 16 = l.length % 2 ^ 21 := by
    rw [Dev.rd_wr_ne _ _ _ _ _ _ Reg.noConfusion, Dev.rd_wr_ne _ _ _ _ _ _ Reg.noConfusion, Dev.rd_wr_ne _ _ _ _ _ _ Reg.noConfusion,
      Dev.rd_wr_same _ _ hholds]
  split
  · rw [Dev.rd_mailboxIrq _ _ _ _ _ _ rfl, Dev.rd_mk, hwritten]
  · rw [Dev.rd_mk, hwritten]

theorem exec_mailboxDoorbell_rings {m : Fin 65} {s : State} (hclear : s.dev.bitOf (.mbxCtl m) 0 = false) (hon : s.dev.aoOnly = false)
    (hdom : s.dev.domState domMgt ≤ 2) : exec (.mailboxDoorbell m) s = .next (s.onto (s.dev.doorbell m)) :=
  exec_onto (exec_mailboxDoorbell m s) (if_neg (by simp [hclear, hon, Nat.not_lt.2 hdom]))

theorem exec_mailboxDoorbell_ignored {m : Fin 65} {s : State}
    (h : s.dev.bitOf (.mbxCtl m) 0 = true ∨ s.dev.aoOnly = true ∨ 2 < s.dev.domState domMgt) :
    exec (.mailboxDoorbell m) s = .next (s.onto s.dev) :=
  exec_onto (exec_mailboxDoorbell m s) (if_pos (by simpa [or_assoc] using h))

/-- What a doorbell that is taken leaves. -/
theorem Dev.rung_shown (d : Dev) (m : Nat) (hlength : d.rd (.mbxCmd m) 36 16 ≤ 4096) :
    let t := (d.rung m).shown
    t.bitOf (.mbxCtl m) 0 = true ∧
      tget t.mgmt.submitted m = some ⟨d.rd (.mbxCmd m) 15 0, d.payload m (d.rd (.mbxCmd m) 36 16)⟩ ∧
      (∀ k, k ≠ m → tget t.mgmt.submitted k = tget d.mgmt.submitted k) ∧ t.mgmt.bg = d.mgmt.bg ∧
      (∀ r : Reg, r ≠ .mbxCtl m → r.show = false → t.reg r = d.reg r) ∧ t.pool = d.pool ∧ t.dir = d.dir ∧ t.sw = d.sw ∧
      t.svc = d.svc ∧ t.port = d.port ∧ t.link = d.link ∧ t.sec = d.sec ∧
      ∀ p op rc v l, .cmdDone p op rc v l ∈ t.out → .cmdDone p op rc v l ∈ d.out := by
  have hholds : (Reg.mbxCtl m).holds 0 0 = true := by simp [Reg.holds, Reg.mask, Reg.layout, fieldMask]
  refine ⟨?_, ?_, fun k hk => ?_, by simp [Dev.rung], fun r hr hshow => ?_, ?_, ?_, ?_, ?_, ?_, ?_, ?_, fun p op rc v l hdone => ?_⟩
  · rw [Dev.bitOf_shown _ _ _ rfl]
    exact (Dev.bitOf_wake _ _ _ _).trans (Dev.bitOf_wr_same d 1 hholds)
  · rw [Dev.shown_mgmt, Dev.submitted_rung, tget_tset_same, Nat.min_eq_left hlength]
  · rw [Dev.shown_mgmt, Dev.submitted_rung, tget_tset_ne _ _ hk]
  · rw [Dev.reg_shown _ _ hshow, Dev.reg_rung _ _ hr]
  case refine_12 => simpa [Dev.rung] using Dev.cmdDone_of_shown hdone
  all_goals simp [Dev.rung]

/-! ### MCTP (R287, R354) -/

/-- The code with which an MCTP request is refused on arrival. -/
def Dev.mctpRefusal (d : Dev) (eid typ op length : Nat) : Option Nat :=
  if d.mgmt.mctpBusy.contains (eid, typ) then some rcBusy
  else if mctpType op ≠ typ then some rcUnsupported
  else if 4096 < length then some rcInvalid
  else if 0xC000 ≤ op ∧ op ≤ 0xCFFF ∧ cmdClass op = none then some rcUnsupported
  else none

/-- An MCTP request that is taken, in a device whose management domain wakes. -/
def Dev.mctpTaken (d : Dev) (eid typ : Nat) : Dev :=
  { d.wake domMgt with mgmt := { d.mgmt with mctpBusy := d.mgmt.mctpBusy ++ [(eid, typ)] } }

/-- An MCTP request that is answered at once with a code. -/
def Dev.mctpAnswered (d : Dev) (eid op rc : Nat) : Dev :=
  ((d.wake domMgt).emit (.cmdDone (.mctp eid) op rc 0 [])).count 36 0x9000 1

theorem exec_mctpRequest_refused {eid : Nat} {cci : Bool} {opcode : BitVec 16} {length rc : Nat} {s : State} (hbus : s.dev.busUp = true)
    (hserved : s.dev.mctpServed opcode.toNat = true)
    (h : s.dev.mctpRefusal eid (if cci then 1 else 0) opcode.toNat length = some rc) :
    exec (.mctpRequest eid cci opcode length) s = .next (s.onto (s.dev.mctpAnswered eid opcode.toNat rc)) := by
  refine exec_onto (exec_mctpRequest eid cci opcode length s) ?_
  rw [if_neg (by simp [hbus, hserved])]
  dsimp only
  rw [Dev.wake_mgmt]
  unfold Dev.mctpRefusal at h
  generalize (if cci then 1 else 0) = typ at h ⊢
  split_ifs at h ⊢ <;> cases h <;> rfl

theorem exec_mctpRequest_taken {eid : Nat} {cci : Bool} {opcode : BitVec 16} {length : Nat} {s : State} (hbus : s.dev.busUp = true)
    (hserved : s.dev.mctpServed opcode.toNat = true) (h : s.dev.mctpRefusal eid (if cci then 1 else 0) opcode.toNat length = none) :
    exec (.mctpRequest eid cci opcode length) s = .next (s.onto (s.dev.mctpTaken eid (if cci then 1 else 0))) := by
  refine exec_onto (exec_mctpRequest eid cci opcode length s) ?_
  rw [if_neg (by simp [hbus, hserved])]
  dsimp only
  rw [Dev.wake_mgmt]
  unfold Dev.mctpRefusal at h
  generalize (if cci then 1 else 0) = typ at h ⊢
  split_ifs at h ⊢
  rfl

theorem exec_mctpRequest_dropped {eid : Nat} {cci : Bool} {opcode : BitVec 16} {length : Nat} {s : State}
    (h : s.dev.busUp = false ∨ s.dev.mctpServed opcode.toNat = false) :
    exec (.mctpRequest eid cci opcode length) s = .next (s.onto s.dev) :=
  exec_onto (exec_mctpRequest eid cci opcode length s) (if_pos (by simpa using h))

/-- A path that is served takes its MCTP messages. -/
theorem Dev.mctpServed_of_serves {d : Dev} {eid op : Nat} (h : d.serves (.mctp eid) op = true) : d.mctpServed op = true := by
  unfold Dev.serves at h
  unfold Dev.mctpServed
  cases hhalted : d.halted with
  | true =>
    simp only [hhalted] at h ⊢
    simpa using h
  | false =>
    simp [hhalted] at h
    obtain ⟨hcold, hstage, ⟨hup, hwarm⟩, hdom⟩ := h
    simp [hcold, hstage, hup, hwarm, Nat.le_trans hdom (by decide : 1 ≤ 3)]

theorem Dev.mctpRefusal_none {d : Dev} {eid op length : Nat} {cci : Bool} (hfree : (eid, if cci then 1 else 0) ∉ d.mgmt.mctpBusy)
    (htype : mctpType op = (if cci then 1 else 0)) (hlength : length ≤ 4096)
    (hlisted : cci = true → (cmdClass op).isSome = true ∨ 0xCFFF < op) : d.mctpRefusal eid (if cci then 1 else 0) op length = none := by
  unfold Dev.mctpRefusal
  rw [if_neg (by simpa using hfree), if_neg (not_not.2 htype), if_neg (Nat.not_lt.2 hlength), if_neg]
  rintro ⟨hlow, hhigh, hnone⟩
  have hcci : cci = true := by
    by_contra hcci
    simp [mctpType, hlow, hcci] at htype
  exact (hlisted hcci).elim (by simp [hnone]) (Nat.not_lt.2 hhigh)

theorem Dev.mctpRefusal_busy {d : Dev} {eid op length typ : Nat} (hbusy : (eid, typ) ∈ d.mgmt.mctpBusy) :
    d.mctpRefusal eid typ op length = some rcBusy := if_pos (by simpa using hbusy)

/-- The codes of the refusals, in the order of their checks. -/
theorem Dev.mctpRefusal_some {d : Dev} {eid op length typ rc : Nat}
    (h : ((eid, typ) ∈ d.mgmt.mctpBusy ∧ rc = 4) ∨ ((eid, typ) ∉ d.mgmt.mctpBusy ∧ mctpType op ≠ typ ∧ rc = 3) ∨
      ((eid, typ) ∉ d.mgmt.mctpBusy ∧ mctpType op = typ ∧
        (4096 < length ∧ rc = 2 ∨ length ≤ 4096 ∧ 0xC000 ≤ op ∧ op ≤ 0xCFFF ∧ cmdClass op = none ∧ rc = 3))) :
    d.mctpRefusal eid typ op length = some rc := by
  obtain ⟨hbusy, rfl⟩ | ⟨hfree, htype, rfl⟩ | ⟨hfree, htype, ⟨hlength, rfl⟩ | ⟨hlength, hlow, hhigh, hnone, rfl⟩⟩ := h
  · exact Dev.mctpRefusal_busy hbusy
  · rw [Dev.mctpRefusal, if_neg (by simpa using hfree), if_pos htype]
    rfl
  · rw [Dev.mctpRefusal, if_neg (by simpa using hfree), if_neg (not_not.2 htype), if_pos hlength]
    rfl
  · rw [Dev.mctpRefusal, if_neg (by simpa using hfree), if_neg (not_not.2 htype), if_neg (Nat.not_lt.2 hlength),
      if_pos ⟨hlow, hhigh, hnone⟩]
    rfl

theorem Dev.mctpTaken_shown (d : Dev) (eid typ : Nat) :
    let t := (d.mctpTaken eid typ).shown
    t.mgmt = { d.mgmt with mctpBusy := d.mgmt.mctpBusy ++ [(eid, typ)] } ∧ t.pwr = (d.wake domMgt).pwr ∧
      (∀ r : Reg, r.show = false → t.reg r = d.reg r) ∧ t.pool = d.pool ∧ t.dir = d.dir ∧
      ∀ p op rc v l, .cmdDone p op rc v l ∈ t.out → .cmdDone p op rc v l ∈ d.out := by
  refine ⟨?_, ?_, fun r hshow => ?_, ?_, ?_, fun p op rc v l hdone => ?_⟩
  case refine_3 => exact (Dev.reg_shown _ _ hshow).trans (Dev.reg_wake d domMgt r)
  case refine_6 => simpa [Dev.mctpTaken] using Dev.cmdDone_of_shown hdone
  all_goals simp [Dev.mctpTaken]

theorem Dev.mctpAnswered_shown (d : Dev) (eid op rc : Nat) :
    .cmdDone (.mctp eid) op rc 0 [] ∈ (d.mctpAnswered eid op rc).shown.out ∧ (d.mctpAnswered eid op rc).shown.mgmt = d.mgmt :=
  ⟨Dev.mem_shown (by rw [Dev.mctpAnswered, Dev.count_out]; exact Dev.mem_emit _ _), by simp [Dev.mctpAnswered]⟩

/-! ### Addresses (R283, R432) -/

theorem exec_mctpControlMessage_taken {eid : BitVec 8} {s : State} (hbus : s.dev.busUp = true) (hup : s.dev.mgmt.fwUp = true)
    (hwarm : s.dev.mgmt.warmHeld = false) (hdom : s.dev.domState domMgt ≤ 3) :
    exec (.mctpControlMessage eid) s =
      .next (s.onto { s.dev.wake domMgt with mgmt := { s.dev.mgmt with mctpEid := some eid.toNat } }) :=
  exec_onto (exec_mctpControlMessage eid s) (if_pos (by simp [hbus, hup, hwarm, hdom]))

theorem exec_mctpControlMessage_dropped {eid : BitVec 8} {s : State}
    (h : s.dev.busUp = false ∨ s.dev.mgmt.fwUp = false ∨ s.dev.mgmt.warmHeld = true ∨ 3 < s.dev.domState domMgt) :
    exec (.mctpControlMessage eid) s = .next (s.onto s.dev) := by
  refine exec_onto (exec_mctpControlMessage eid s) (if_neg fun htaken => ?_)
  simp only [Bool.and_eq_true, Bool.not_eq_true', decide_eq_true_eq] at htaken
  obtain ⟨⟨⟨hbus, hup⟩, hwarm⟩, hdom⟩ := htaken
  simp [hbus, hup, hwarm, Nat.not_lt.2 hdom] at h

theorem exec_i3cDynamicAddressAssignment_bridge {addr : BitVec 7} {s : State} (hbus : s.dev.busUp = true) (hi3c : s.dev.mgmt.i3cBus = true) :
    exec (.i3cDynamicAddressAssignment true addr) s =
      .next (s.onto { s.dev with mgmt := { s.dev.mgmt with i3cBridge := some addr.toNat } }) :=
  exec_onto (exec_i3cDynamicAddressAssignment true addr s) (if_neg (by simp [hbus, hi3c]))

theorem exec_i3cDynamicAddressAssignment_mctp {addr : BitVec 7} {s : State} (hbus : s.dev.busUp = true) (hi3c : s.dev.mgmt.i3cBus = true)
    (hup : s.dev.mgmt.fwUp = true) : exec (.i3cDynamicAddressAssignment false addr) s =
      .next (s.onto { s.dev with mgmt := { s.dev.mgmt with i3cMctp := some addr.toNat } }) :=
  exec_onto (exec_i3cDynamicAddressAssignment false addr s) ((if_neg (by simp [hbus, hi3c])).trans (if_pos hup))

theorem exec_i3cDynamicAddressAssignment_none {bridge : Bool} {addr : BitVec 7} {s : State}
    (h : s.dev.mgmt.i3cBus = false ∨ s.dev.busUp = false ∨ (bridge = false ∧ s.dev.mgmt.fwUp = false)) :
    exec (.i3cDynamicAddressAssignment bridge addr) s = .next (s.onto s.dev) := by
  refine exec_onto (exec_i3cDynamicAddressAssignment bridge addr s) ?_
  obtain hi3c | hbus | ⟨hmctp, hup⟩ := h
  · exact if_pos (by simp [hi3c])
  · exact if_pos (by simp [hbus])
  · subst hmctp
    dsimp only
    split_ifs <;> simp_all

/-! ### Background operations that end (R286) -/

/-- A background operation's result as its mailbox shows it. -/
def Dev.bgShown (d : Dev) (m op rc v : Nat) : Dev :=
  ((((d.wr (.mbxBgStatus m) 63 48 v).wr (.mbxBgStatus m) 47 32 rc).wr (.mbxBgStatus m) 22 16 100).wr (.mbxBgStatus m) 15 0 op).wr
    (.mbxStatus m) 0 0 0

theorem Reg.holds_mbxBgStatus (m : Nat) {hi lo : Nat} (h : (hi, lo) ∈ [(63, 48), (47, 32), (22, 16), (15, 0)]) :
    (Reg.mbxBgStatus m).holds hi lo = true := by
  simp only [List.mem_cons, Prod.mk.injEq, List.not_mem_nil, or_false] at h
  obtain ⟨rfl, rfl⟩ | ⟨rfl, rfl⟩ | ⟨rfl, rfl⟩ | ⟨rfl, rfl⟩ := h <;> simp [Reg.holds, Reg.mask, Reg.layout, fieldMask]

theorem Dev.bgShown_fields (d : Dev) (m op rc v : Nat) :
    (d.bgShown m op rc v).rd (.mbxBgStatus m) 47 32 = rc % 2 ^ 16 ∧ (d.bgShown m op rc v).rd (.mbxBgStatus m) 63 48 = v % 2 ^ 16 ∧
      (d.bgShown m op rc v).rd (.mbxBgStatus m) 22 16 = 100 ∧ (d.bgShown m op rc v).rd (.mbxBgStatus m) 15 0 = op % 2 ^ 16 ∧
      (d.bgShown m op rc v).bitOf (.mbxStatus m) 0 = false ∧
      ∀ w, (d.bgShown m op rc v).reg (.mbxPayload m w) = d.reg (.mbxPayload m w) := by
  have hvendor := Reg.holds_mbxBgStatus m (hi := 63) (lo := 48) (by decide)
  have hrc := Reg.holds_mbxBgStatus m (hi := 47) (lo := 32) (by decide)
  have hdone := Reg.holds_mbxBgStatus m (hi := 22) (lo := 16) (by decide)
  have hop := Reg.holds_mbxBgStatus m (hi := 15) (lo := 0) (by decide)
  have hstatus : (Reg.mbxStatus m).holds 0 0 = true := by simp [Reg.holds, Reg.mask, Reg.layout, fieldMask]
  have hne : Reg.mbxBgStatus m ≠ .mbxStatus m := Reg.noConfusion
  unfold Dev.bgShown
  refine ⟨?_, ?_, ?_, ?_, Dev.bitOf_wr_same _ 0 hstatus, fun w => ?_⟩
  · rw [Dev.rd_wr_ne _ _ _ _ _ _ hne, Dev.rd_wr_field _ _ hrc (by decide), Dev.rd_wr_field _ _ hrc (by decide), Dev.rd_wr_same _ _ hrc]
  · rw [Dev.rd_wr_ne _ _ _ _ _ _ hne, Dev.rd_wr_field _ _ hvendor (by decide), Dev.rd_wr_field _ _ hvendor (by decide),
      Dev.rd_wr_field _ _ hvendor (by decide), Dev.rd_wr_same _ _ hvendor]
  · rw [Dev.rd_wr_ne _ _ _ _ _ _ hne, Dev.rd_wr_field _ _ hdone (by decide), Dev.rd_wr_same _ _ hdone]
    rfl
  · rw [Dev.rd_wr_ne _ _ _ _ _ _ hne, Dev.rd_wr_same _ _ hop]
  · repeat rw [Dev.reg_wr_ne _ _ _ _ Reg.noConfusion]

/-- A path's background operation has ended, in the management records. -/
def Dev.bgEnded (d : Dev) (path : Path) (op rc v : Nat) : Dev :=
  { d with mgmt := { d.mgmt with bg := tdel d.mgmt.bg path, bgLast := tset d.mgmt.bgLast path (op, rc, v) } }

theorem Dev.bgEnd_eq {d : Dev} {path : Path} {op rc v : Nat} (h : tget d.mgmt.bg path = some ⟨op, some (rc, v)⟩) :
    d.bgEnd path = match mailboxOf path with
      | some m =>
        let d := (d.bgEnded path op rc v).bgShown m op rc v
        if d.bitOf (.mbxCtl m) 2 then d.mailboxIrq m 1 else d
      | none => d.bgEnded path op rc v := by
  unfold Dev.bgEnd
  rw [h]
  rfl

theorem Dev.mgmt_bgEnd {d : Dev} {path : Path} {op rc v : Nat} (h : tget d.mgmt.bg path = some ⟨op, some (rc, v)⟩) :
    (d.bgEnd path).mgmt = (d.bgEnded path op rc v).mgmt := by
  rw [Dev.bgEnd_eq h]
  split
  · dsimp only
    split
    · rw [Dev.mailboxIrq_mgmt]
      rfl
    · rfl
  · rfl

theorem Dev.reg_bgEnd_box {d : Dev} {path : Path} {op rc v m : Nat} (h : tget d.mgmt.bg path = some ⟨op, some (rc, v)⟩)
    (hm : mailboxOf path = some m) {r : Reg} (hside : r.side = false) :
    (d.bgEnd path).reg r = ((d.bgEnded path op rc v).bgShown m op rc v).reg r := by
  rw [Dev.bgEnd_eq h, hm]
  dsimp only
  split
  · exact Dev.reg_mailboxIrq _ _ _ _ hside
  · rfl

/-- What the end of a background operation leaves in its mailbox (R286). -/
theorem Dev.bgEnd_shown {d : Dev} {path : Path} {op rc v m : Nat} (h : tget d.mgmt.bg path = some ⟨op, some (rc, v)⟩)
    (hm : mailboxOf path = some m) :
    let t := (d.bgEnd path).shown
    t.rd (.mbxBgStatus m) 47 32 = rc % 2 ^ 16 ∧ t.rd (.mbxBgStatus m) 63 48 = v % 2 ^ 16 ∧ t.rd (.mbxBgStatus m) 22 16 = 100 ∧
      t.rd (.mbxBgStatus m) 15 0 = op % 2 ^ 16 ∧ t.bitOf (.mbxStatus m) 0 = false ∧
      ∀ w, t.reg (.mbxPayload m w) = d.reg (.mbxPayload m w) := by
  have hreg : ∀ r : Reg, r.side = false → r.show = false →
      (d.bgEnd path).shown.reg r = ((d.bgEnded path op rc v).bgShown m op rc v).reg r := fun r hside hshow =>
    (Dev.reg_shown _ _ hshow).trans (Dev.reg_bgEnd_box h hm hside)
  obtain ⟨hrc, hvendor, hdone, hop, hstatus, hpayload⟩ := (d.bgEnded path op rc v).bgShown_fields m op rc v
  have hfield := fun hi lo => Dev.rd_eq_of_reg (hreg (.mbxBgStatus m) rfl rfl) hi lo
  exact ⟨(hfield _ _).trans hrc, (hfield _ _).trans hvendor, (hfield _ _).trans hdone, (hfield _ _).trans hop,
    (Dev.bitOf_eq_of_reg (hreg (.mbxStatus m) rfl rfl) 0).trans hstatus, fun w => (hreg _ rfl rfl).trans (hpayload w)⟩

/-- BACKGROUND_OPERATION_END of an operation that has its result, where firmware serves the path. -/
theorem exec_backgroundOperationEnd_ends {path : Path} {op : Nat} {r : Nat × Nat} {s : State}
    (hbg : tget s.dev.mgmt.bg path = some ⟨op, some r⟩) (hserves : s.dev.serves path 0 = true) (hwindow : s.dev.inWindow = false) :
    exec (.backgroundOperationEnd path) s = .next (s.onto (match s.dev.sec.zeroize with
      | some (what, p) => if p = path ∧ what ≠ 0 then s.dev.fullEnds path what else s.dev.bgEnd path
      | none => s.dev.bgEnd path)) := by
  refine exec_onto (exec_backgroundOperationEnd path s) ?_
  rw [hbg]
  exact if_neg (by simp [hserves, hwindow])

theorem exec_backgroundOperationEnd_goesOn {path : Path} {s : State}
    (h : (∀ b, tget s.dev.mgmt.bg path = some b → b.result = none) ∨ s.dev.serves path 0 = false ∨ s.dev.inWindow = true) :
    exec (.backgroundOperationEnd path) s = .next (s.onto s.dev) := by
  refine exec_onto (exec_backgroundOperationEnd path s) ?_
  match hbg : tget s.dev.mgmt.bg path with
  | none => rfl
  | some ⟨op, none⟩ => rfl
  | some ⟨op, some r⟩ =>
    refine if_pos ?_
    obtain hnone | hserves | hwindow := h
    · cases hnone _ hbg
    · simp [hserves]
    · simp [hwindow]

/-! ### The obligation -/

/-- Settles O43: a doorbell and an MCTP request are taken, answered or ignored by what the device is when they come; an operation that has
its result ends with it. -/
theorem managementPathsTakeAndAnswer : Obligations.ManagementPathsTakeAndAnswer := by
  unfold Obligations.ManagementPathsTakeAndAnswer
  refine ⟨?rings, ?taken, ?long, ?ignored, ?mctp, ?mctpBusy, ?mctpWakes, ?mctpRefused, ?mctpDown, ?control, ?controlDown, ?bridge, ?target,
    ?noAddress, ?ends, ?goesOn, ?full⟩
  case rings => exact fun m s => exec_mailboxDoorbell_rings
  case taken =>
    intro m s hclear hon hdom hlength hlisted
    have hexec := exec_mailboxDoorbell_rings hclear hon hdom
    rw [Dev.doorbell_taken hlength hlisted] at hexec
    exact yields_of_eq hexec (s.dev.rung_shown m hlength)
  case long =>
    intro m s hclear hon hdom hlength hserves
    have hexec := exec_mailboxDoorbell_rings hclear hon (by omega)
    rw [Dev.doorbell_long hlength hserves] at hexec
    obtain ⟨-, hbox⟩ := Dev.replied_finish (d := s.dev.rung m) (path := boxPath m) (op := s.dev.rd (.mbxCmd m) 15 0) (rc := rcInvalid)
      (by decide)
    obtain ⟨hrc, -, hdone⟩ := hbox m (mailboxOf_boxPath m)
    refine yields_of_eq hexec ⟨hdone, hrc, ?_, ?_, ?_, ?_⟩
    · exact (Dev.rd_shown _ _ _ _ rfl).trans (Dev.rd_complete_length _ (mailboxOf_boxPath m) _ _ _ [])
    all_goals simp [Dev.rung]
  case ignored => exact fun m s => exec_mailboxDoorbell_ignored
  case mctp =>
    intro eid cci opcode length s hbus hserves hfree htype hlength hlisted hdom
    obtain ⟨hmgmt, -, -, hpool, hdir, hsent⟩ := s.dev.mctpTaken_shown eid (if cci then 1 else 0)
    exact yields_of_eq (exec_mctpRequest_taken hbus (Dev.mctpServed_of_serves hserves) (Dev.mctpRefusal_none hfree htype hlength hlisted))
      ⟨hmgmt, hsent, hpool, hdir⟩
  case mctpBusy =>
    intro eid cci opcode length s hbus hserves hbusy hdom
    exact yields_of_eq (exec_mctpRequest_refused hbus (Dev.mctpServed_of_serves hserves) (Dev.mctpRefusal_busy hbusy))
      (s.dev.mctpAnswered_shown eid opcode.toNat rcBusy)
  case mctpWakes =>
    intro eid cci opcode length s hbus hserved hfree htype hlength hlisted
    exact yields_of_eq (exec_mctpRequest_taken hbus hserved (Dev.mctpRefusal_none hfree htype hlength hlisted))
      (s.dev.mctpTaken_shown eid (if cci then 1 else 0))
  case mctpRefused =>
    exact fun eid cci opcode length rc s hbus hserved hrefused =>
      exec_mctpRequest_refused hbus hserved (Dev.mctpRefusal_some hrefused)
  case mctpDown => exact fun eid cci opcode length s => exec_mctpRequest_dropped
  case control =>
    intro eid s hbus hup hwarm hdom
    refine yields_of_eq (exec_mctpControlMessage_taken hbus hup hwarm hdom) ⟨?_, ?_, ?_⟩ <;> simp
  case controlDown => exact fun eid s => exec_mctpControlMessage_dropped
  case bridge => exact fun addr s hbus hi3c => yields_of_eq (exec_i3cDynamicAddressAssignment_bridge hbus hi3c) (Dev.shown_mgmt _)
  case target => exact fun addr s hbus hi3c hup => yields_of_eq (exec_i3cDynamicAddressAssignment_mctp hbus hi3c hup) (Dev.shown_mgmt _)
  case noAddress => exact fun bridge addr s => exec_i3cDynamicAddressAssignment_none
  case ends =>
    intro path b rc vendor s hbg hresult hserves hwindow hother
    obtain ⟨op, result⟩ := b
    obtain rfl : result = some (rc, vendor) := hresult
    have hexec := exec_backgroundOperationEnd_ends hbg hserves hwindow
    have hend : (match s.dev.sec.zeroize with
        | some (what, p) => if p = path ∧ what ≠ 0 then s.dev.fullEnds path what else s.dev.bgEnd path
        | none => s.dev.bgEnd path) = s.dev.bgEnd path := by
      split
      · rename_i what p hzeroize
        exact if_neg fun hfull => (hother what p hzeroize).elim (· hfull.1) hfull.2
      · rfl
    rw [hend] at hexec
    refine yields_of_eq hexec ⟨?_, ?_, fun m hm => Dev.bgEnd_shown hbg hm, Dev.onlyRead_shown (Dev.onlyRead_bgEnd _ _)⟩
    · rw [Dev.shown_mgmt, Dev.mgmt_bgEnd hbg]
      exact tget_tdel_same _ _
    · rw [Dev.shown_mgmt, Dev.mgmt_bgEnd hbg]
      exact tget_tset_same _ _ _
  case goesOn => exact fun path s => exec_backgroundOperationEnd_goesOn
  case full =>
    intro path what b r s hbg hresult hserves hwindow hzeroize hwhat
    obtain ⟨op, result⟩ := b
    obtain rfl : result = some r := hresult
    have hexec := exec_backgroundOperationEnd_ends hbg hserves hwindow
    rw [hzeroize] at hexec
    dsimp only at hexec
    rwa [if_pos ⟨rfl, hwhat⟩] at hexec

end Sys2Proof.Machine
end

section
/-! PROOFS. The out-of-band bridge: its four slots, its reads, fetches and writes, and its result (R301 to R304, R420). Settles O45. -/

namespace Sys2Proof.Machine

/-! ### Slots and answers -/

theorem Dev.onlyRead_oobAnswer (d : Dev) (st : Nat) (addr : BitVec 32) (data : Option Word) : d.onlyRead (d.oobAnswer st addr data) := by
  cases data with
  | none => exact (d.onlyRead_openBits 64).trans (Dev.onlyRead_mgmt _ _)
  | some x => exact d.onlyRead_mgmt _

theorem Dev.oobAnswer_mgmt (d : Dev) (st : Nat) (addr : BitVec 32) (data : Option Word) :
    ∃ v, (d.oobAnswer st addr data).mgmt = { d.mgmt with oobResult := ⟨st, addr.toNat, v⟩ } ∧ ∀ x, data = some x → v = x := by
  cases data with
  | none => exact ⟨_, rfl, fun x hx => by cases hx⟩
  | some x => exact ⟨x, rfl, fun y hy => Option.some.inj hy⟩

theorem Dev.oobAnswer_out (d : Dev) (st : Nat) (addr : BitVec 32) (data : Option Word) : (d.oobAnswer st addr data).out = d.out := by
  cases data <;> rfl

theorem Dev.onlyRead_setSlots (d : Dev) (l : List OobSlot) : d.onlyRead (d.setSlots l) := d.onlyRead_mgmt _

theorem Dev.onlyRead_dropSlots (d : Dev) (which : OobSlot → Bool) : d.onlyRead (d.dropSlots which) :=
  (d.onlyRead_setSlots _).trans (Dev.onlyRead_count _ _ _ _)

theorem Dev.slots_dropSlots (d : Dev) (which : OobSlot → Bool) :
    (d.dropSlots which).mgmt.oobSlots = d.mgmt.oobSlots.filter fun x => !which x := by
  unfold Dev.dropSlots
  rw [Dev.count_mgmt]
  rfl

/-- What an answer of the bridge leaves once the command has ended. -/
theorem Dev.oobAnswer_shown {d d' : Dev} (h : d.onlyRead d') (st : Nat) (addr : BitVec 32) (data : Option Word) :
    let t := (d'.oobAnswer st addr data).shown
    t.mgmt.oobSlots = d'.mgmt.oobSlots ∧ t.mgmt.oobResult.status = st ∧ t.mgmt.oobResult.addr = addr.toNat ∧ d.onlyRead t := by
  obtain ⟨v, hmgmt, -⟩ := d'.oobAnswer_mgmt st addr data
  refine ⟨?_, ?_, ?_, Dev.onlyRead_shown (h.trans (d'.onlyRead_oobAnswer st addr data))⟩ <;> rw [Dev.shown_mgmt, hmgmt]

/-! ### Reads (R301, R302) -/

/-- A fetch that starts in a free slot. -/
def Dev.fetchStarted (d : Dev) (block : Nat) : Dev := (d.setSlots (d.mgmt.oobSlots ++ [⟨block, none, false⟩])).count 36 0x9004 1

theorem Dev.onlyRead_fetchStarted (d : Dev) (block : Nat) : d.onlyRead (d.fetchStarted block) :=
  (d.onlyRead_setSlots _).trans (Dev.onlyRead_count _ _ _ _)

theorem Dev.slots_fetchStarted (d : Dev) (block : Nat) : (d.fetchStarted block).mgmt.oobSlots = d.mgmt.oobSlots ++ [⟨block, none, false⟩] := by
  rw [Dev.fetchStarted, Dev.count_mgmt]
  rfl

theorem Dev.startFetch_free {d : Dev} {block : Nat} (habsent : ∀ x ∈ d.mgmt.oobSlots, x.block ≠ block) (hroom : d.mgmt.oobSlots.length < 4) :
    d.startFetch block = some (d.fetchStarted block) := by
  unfold Dev.startFetch
  dsimp only
  rw [if_neg (by simpa using habsent), if_pos hroom]
  rfl

theorem Dev.startFetch_full {d : Dev} {block : Nat} (hfull : d.mgmt.oobSlots.length = 4)
    (hheld : ∀ x ∈ d.mgmt.oobSlots, x.block ≠ block ∧ x.delivered = false) : d.startFetch block = none := by
  have hnone : d.mgmt.oobSlots.findIdx? (fun x => x.delivered) = none := by
    rw [List.findIdx?_eq_none_iff]
    exact fun x hx => (hheld x hx).2
  unfold Dev.startFetch
  dsimp only
  rw [if_neg (by simpa using fun x hx => (hheld x hx).1), if_neg (by omega), hnone]

section
variable {addr : BitVec 32} {s : State} (hbus : s.dev.busUp = true)
include hbus

theorem exec_oobRead_bad (hbad : oobGood addr = false) : exec (.oobRead addr) s = .next (s.onto (s.dev.oobAnswer 6 addr none)) := by
  refine exec_onto (exec_oobRead addr s) ?_
  dsimp only
  rw [if_neg (by simp [hbus]), if_pos (by simp [hbad])]

theorem exec_oobRead_denied {d1 : Dev} (hgood : oobGood addr = true)
    (hcheck : s.dev.regCheck .oob (oobOffset addr) (oobWidth addr) false = (.denied, d1)) :
    exec (.oobRead addr) s = .next (s.onto (d1.oobAnswer 5 addr none)) := by
  refine exec_onto (exec_oobRead addr s) ?_
  dsimp only
  rw [if_neg (by simp [hbus]), if_neg (by simp [hgood]), hcheck]

/-- A read of a block that no slot holds starts its fetch, or finds no slot. -/
theorem exec_oobRead_absent {d1 : Dev} (hgood : oobGood addr = true)
    (hcheck : s.dev.regCheck .oob (oobOffset addr) (oobWidth addr) false = (.ok, d1))
    (habsent : ∀ x ∈ d1.mgmt.oobSlots, x.block ≠ oobOffset addr / 64) :
    exec (.oobRead addr) s = .next (s.onto (match d1.startFetch (oobOffset addr / 64) with
      | some d => d.oobAnswer 2 addr none
      | none => d1.oobAnswer 3 addr none)) := by
  have hfind : d1.mgmt.oobSlots.find? (fun x => decide (x.block = oobOffset addr / 64)) = none := by simpa using habsent
  refine exec_onto (exec_oobRead addr s) ?_
  dsimp only
  rw [if_neg (by simp [hbus]), if_neg (by simp [hgood]), hcheck]
  dsimp only
  rw [hfind]
  rfl

/-- A read of a block whose words a slot holds delivers the value. -/
theorem exec_oobRead_held {d1 : Dev} {x : OobSlot} {words : List (BitVec 32)} (hgood : oobGood addr = true)
    (hcheck : s.dev.regCheck .oob (oobOffset addr) (oobWidth addr) false = (.ok, d1)) (hfresh : oobFresh addr = false)
    (hfind : (d1.mgmt.oobSlots.find? fun y => decide (y.block = oobOffset addr / 64)) = some x) (hwords : x.words = some words) :
    exec (.oobRead addr) s = .next (s.onto ((d1.setSlots (d1.mgmt.oobSlots.map fun (y : OobSlot) =>
      if y.block = oobOffset addr / 64 then { y with delivered := true } else y)).oobAnswer 1 addr
        (some (slotValue words (oobOffset addr) (oobWidth addr))))) := by
  obtain ⟨block, held, delivered⟩ := x
  obtain rfl : held = some words := hwords
  refine exec_onto (exec_oobRead addr s) ?_
  dsimp only
  rw [if_neg (by simp [hbus]), if_neg (by simp [hgood]), hcheck]
  dsimp only
  rw [hfind]
  dsimp only
  rw [if_neg (by simp [hfresh])]

/-! ### Writes and the result (R303, R304) -/

theorem exec_oobWrite_ok {v : Word} {d1 : Dev} (hgood : oobGood addr = true)
    (hcheck : s.dev.regCheck .oob (oobOffset addr) (oobWidth addr) true = (.ok, d1)) :
    exec (.oobWrite addr v) s = .next (s.onto (((d1.regWrite .oob (oobOffset addr) (oobWidth addr) v).dropSlots fun x =>
      decide (x.block = oobOffset addr / 64)).oobAnswer 8 addr none)) := by
  refine exec_onto (exec_oobWrite addr v s) ?_
  dsimp only
  rw [if_neg (by simp [hbus]), if_neg (by simp [hgood]), hcheck]

theorem exec_oobWrite_bad {v : Word} (hbad : oobGood addr = false) :
    exec (.oobWrite addr v) s = .next (s.onto (s.dev.oobAnswer 6 addr none)) := by
  refine exec_onto (exec_oobWrite addr v s) ?_
  dsimp only
  rw [if_neg (by simp [hbus]), if_pos (by simp [hbad])]

/-- RESULT sends what the last READ or WRITE answered, and the status is IDLE. -/
theorem yields_oobResult : yields .oobResult s fun t =>
    s.dev.out ++ [.bridge 0xA2 (toBytes 1 s.dev.mgmt.oobResult.status ++ toBytes 4 s.dev.mgmt.oobResult.addr ++
      toBytes 8 s.dev.mgmt.oobResult.data.toNat)] <+: t.out ∧ t.mgmt.oobResult.status = 0 ∧ t.mgmt.oobSlots = s.dev.mgmt.oobSlots ∧
      s.dev.onlyRead t := by
  let sent := s.dev.emit (.bridge 0xA2 (toBytes 1 s.dev.mgmt.oobResult.status ++ toBytes 4 s.dev.mgmt.oobResult.addr ++
    toBytes 8 s.dev.mgmt.oobResult.data.toNat))
  have hread : s.dev.onlyRead (sent.openBits 32).2 := (s.dev.onlyRead_emit _).trans (sent.onlyRead_openBits 32)
  obtain ⟨hslots, hstatus, -, honly⟩ := Dev.oobAnswer_shown hread 0 (sent.openBits 32).1 none
  refine yields_of_eq (exec_onto (exec_oobResult s) (if_pos hbus)) ⟨?_, hstatus, hslots, honly⟩
  exact Dev.out_shown ((sent.openBits 32).2.oobAnswer 0 (sent.openBits 32).1 none)

end

/-! ### Fetches (R302, R420) -/

/-- One word more of a fetch. -/
def fetchStep (block : Nat) (x : List (BitVec 32) × Dev) (k : Nat) : List (BitVec 32) × Dev :=
  (x.1 ++ [(x.2.fetchWord (64 * block + 4 * k)).1], (x.2.fetchWord (64 * block + 4 * k)).2)

theorem Dev.fetchWord_free (d : Dev) (a : Nat) : ∃ n, (d.fetchWord a).2 = { d with free := n } := by
  unfold Dev.fetchWord
  split
  · split
    · exact ⟨d.free, rfl⟩
    · exact ⟨d.free + 1, rfl⟩
  · exact ⟨d.free, rfl⟩

theorem Dev.reachHeld_fst (d : Dev) (h : Held) : (d.reachHeld h).1 =
    if (d.aoOnly || d.mgmt.coldHeld) ∧ h ≠ .ao then false else if d.heldState h = 4 then false else true := by
  unfold Dev.reachHeld
  dsimp only
  split_ifs with hnone hoff hactive
  · rfl
  · rfl
  · rfl
  · cases heldDomain h <;> rfl

/-- Whether a register can be reached does not go by the open values taken. -/
theorem Dev.reachHeld_free (d : Dev) (n : Nat) (h : Held) : (({ d with free := n } : Dev).reachHeld h).1 = (d.reachHeld h).1 := by
  rw [Dev.reachHeld_fst, Dev.reachHeld_fst]
  rfl

theorem Dev.onlyRead_free (d : Dev) (n : Nat) : d.onlyRead { d with free := n } :=
  ⟨rfl, rfl, rfl, rfl, rfl, rfl, rfl, rfl, rfl, rfl, rfl, fun _ _ _ _ => rfl⟩

/-- A word of a register in a domain that is not off is the register's, whatever open values have been taken. -/
theorem Dev.fetchWord_met {d : Dev} {a : Nat} {r : Reg} {rest : List Reg} (n : Nat) (hmet : d.regsMet .oob a 4 = r :: rest)
    (hreach : (d.reachHeld r.layout.held).1 = true) : (({ d with free := n } : Dev).fetchWord a).1 =
      BitVec.ofNat 32 (if r.layout.width = 64 ∧ (d.regAt .oob a).isNone then (d.reg r).toNat / 2 ^ 32 else (d.reg r).toNat % 2 ^ 32) := by
  have hmet' : ({ d with free := n } : Dev).regsMet .oob a 4 = r :: rest := hmet
  have hreach' : (({ d with free := n } : Dev).reachHeld r.layout.held).1 = true := (d.reachHeld_free n _).trans hreach
  unfold Dev.fetchWord
  rw [hmet']
  dsimp only
  rw [if_pos hreach']
  rfl

/-- The words that a fetch has read, each in a device that has taken open values alone. -/
theorem fetchStep_words (d : Dev) (block n : Nat) : ∃ (words : List (BitVec 32)) (m : Nat),
    (List.range n).foldl (fetchStep block) ([], d) = (words, { d with free := m }) ∧ words.length = n ∧
      ∀ k < n, ∃ j, words[k]? = some (({ d with free := j } : Dev).fetchWord (64 * block + 4 * k)).1 := by
  induction n with
  | zero => exact ⟨[], d.free, rfl, rfl, fun k hk => absurd hk (Nat.not_lt_zero k)⟩
  | succ n ih =>
    obtain ⟨words, m, hfold, hlength, hwords⟩ := ih
    obtain ⟨m', hfree⟩ := ({ d with free := m } : Dev).fetchWord_free (64 * block + 4 * n)
    refine ⟨words ++ [(({ d with free := m } : Dev).fetchWord (64 * block + 4 * n)).1], m', ?_, by simp [hlength], fun k hk => ?_⟩
    · rw [List.range_succ, List.foldl_append, hfold, List.foldl_cons, List.foldl_nil, fetchStep, hfree]
    · by_cases hlast : k = n
      · exact ⟨m, by rw [hlast, List.getElem?_append_right (by omega), hlength, Nat.sub_self]; rfl⟩
      · obtain ⟨j, hj⟩ := hwords k (by omega)
        exact ⟨j, by rw [List.getElem?_append_left (by omega), hj]⟩

theorem exec_oobFetchComplete_idle {block : Nat} {s : State} (h : ∀ y ∈ s.dev.mgmt.oobSlots, y.block = block → y.words ≠ none) :
    exec (.oobFetchComplete block) s = .next (s.onto s.dev) :=
  exec_onto (exec_oobFetchComplete block s) (if_neg (by simpa using h))

theorem yields_oobFetchComplete {block : Nat} {s : State} (h : ∃ y ∈ s.dev.mgmt.oobSlots, y.block = block ∧ y.words = none) :
    yields (.oobFetchComplete block) s fun t => ∃ words : List (BitVec 32), words.length = 16 ∧
      t.mgmt.oobSlots = (s.dev.mgmt.oobSlots.map fun (y : OobSlot) => if y.block = block then { y with words := some words } else y) ∧
      (∀ k < 16, ∀ r rest, s.dev.regsMet .oob (64 * block + 4 * k) 4 = r :: rest → (s.dev.reachHeld r.layout.held).1 = true →
        words[k]? = some (BitVec.ofNat 32 (if r.layout.width = 64 ∧ (s.dev.regAt .oob (64 * block + 4 * k)).isNone
          then (s.dev.reg r).toNat / 2 ^ 32 else (s.dev.reg r).toNat % 2 ^ 32))) ∧ s.dev.onlyRead t := by
  obtain ⟨words, m, hfold, hlength, hwords⟩ := fetchStep_words s.dev block 16
  have hexec : exec (.oobFetchComplete block) s = .next (s.onto (({ s.dev with free := m } : Dev).setSlots
      (s.dev.mgmt.oobSlots.map fun (y : OobSlot) => if y.block = block then { y with words := some words } else y))) := by
    refine exec_onto (exec_oobFetchComplete block s) ((if_pos (by simpa using h)).trans ?_)
    change (match (List.range 16).foldl (fetchStep block) ([], s.dev) with
      | (words, d) => d.setSlots (d.mgmt.oobSlots.map fun (y : OobSlot) => if y.block = block then { y with words := some words } else y)) = _
    rw [hfold]
  refine yields_of_eq hexec ⟨words, hlength, by rw [Dev.shown_mgmt]; rfl, fun k hk r rest hmet hreach => ?_,
    Dev.onlyRead_shown ((Dev.onlyRead_free _ m).trans (Dev.onlyRead_setSlots _ _))⟩
  obtain ⟨j, hj⟩ := hwords k hk
  rw [hj, Dev.fetchWord_met j hmet hreach]

/-! ### The obligation -/

/-- Settles O45: a read goes by what the slots hold; a fetch reads register by register; what the bus assigns and MCTP messages are those
of O43. -/
theorem theBridgeFetchesReadsAndWrites : Obligations.TheBridgeFetchesReadsAndWrites := by
  unfold Obligations.TheBridgeFetchesReadsAndWrites
  refine ⟨?down, ?bad, ?denied, ?start, ?noSlot, ?deliver, ?write, ?badWrite, ?result, ?idle, ?fetch, ?expiry, ?address, ?control, ?request⟩
  case down => exact fun addr s hbus => exec_onto (exec_oobRead addr s) (if_pos (by simp [hbus]))
  case bad => exact fun addr s hbus hbad => exec_oobRead_bad hbus hbad
  case denied => exact fun addr d1 s hbus hgood hcheck => exec_oobRead_denied hbus hgood hcheck
  case start =>
    intro addr d1 s hbus hgood hcheck hempty
    obtain ⟨p, rfl⟩ := Dev.regCheckAs_ok_pwr hcheck
    have hslots : ({ s.dev with pwr := p } : Dev).mgmt.oobSlots = [] := hempty
    have hexec := exec_oobRead_absent hbus hgood hcheck (by simp [hempty])
    rw [Dev.startFetch_free (by simp [hempty]) (by simp [hempty])] at hexec
    obtain ⟨hheld, hstatus, haddr, hread⟩ := Dev.oobAnswer_shown (Dev.onlyRead_fetchStarted { s.dev with pwr := p } (oobOffset addr / 64))
      2 addr none
    rw [Dev.slots_fetchStarted, hslots] at hheld
    exact yields_of_eq hexec ⟨hheld, hstatus, haddr, hread⟩
  case noSlot =>
    intro addr d1 s hbus hgood hcheck hfull hheld
    obtain ⟨p, rfl⟩ := Dev.regCheckAs_ok_pwr hcheck
    have hexec := exec_oobRead_absent hbus hgood hcheck fun x hx => (hheld x hx).1
    rw [Dev.startFetch_full (d := { s.dev with pwr := p }) hfull hheld] at hexec
    obtain ⟨hslots, hstatus, -, hread⟩ := Dev.oobAnswer_shown (Dev.onlyRead.refl { s.dev with pwr := p }) 3 addr none
    exact yields_of_eq hexec ⟨hslots, hstatus, hread⟩
  case deliver =>
    intro addr d1 x words s hbus hgood hcheck hfresh hfind hwords
    obtain ⟨p, rfl⟩ := Dev.regCheckAs_ok_pwr hcheck
    refine yields_of_eq (exec_oobRead_held hbus hgood hcheck hfresh hfind hwords) ⟨?_, ?_, ?_⟩
    · rw [Dev.shown_mgmt]
      rfl
    · rw [Dev.shown_mgmt]
      rfl
    · exact Dev.onlyRead_shown ((Dev.onlyRead_setSlots _ _).trans (Dev.onlyRead_oobAnswer _ _ _ _))
  case write => exact fun addr v d1 s hbus hgood hcheck => exec_oobWrite_ok hbus hgood hcheck
  case badWrite => exact fun addr v s hbus hbad => exec_oobWrite_bad hbus hbad
  case result => exact fun s hbus => yields_oobResult hbus
  case idle => exact fun block s => exec_oobFetchComplete_idle
  case fetch => exact fun block s => yields_oobFetchComplete
  case expiry =>
    intro block s
    refine yields_of_eq (exec_onto (exec_oobSlotExpiry block s) rfl) ⟨?_, Dev.onlyRead_shown (Dev.onlyRead_dropSlots _ _)⟩
    rw [Dev.shown_mgmt, Dev.slots_dropSlots]
  case address =>
    intro bridge addr s hbus hi3c hmay
    cases bridge with
    | true =>
      refine yields_of_eq (exec_i3cDynamicAddressAssignment_bridge hbus hi3c) ⟨fun _ => ?_, fun hmctp => absurd hmctp (by decide)⟩
      simp
    | false =>
      refine yields_of_eq (exec_i3cDynamicAddressAssignment_mctp hbus hi3c (hmay.resolve_left Bool.noConfusion))
        ⟨fun hbridge => absurd hbridge (by decide), fun _ => ?_⟩
      simp
  case control =>
    intro eid s hbus hup hwarm hdom
    refine yields_of_eq (exec_mctpControlMessage_taken hbus hup hwarm hdom) ⟨?_, ?_, ?_⟩ <;> simp
  case request =>
    intro eid cci opcode length s hbus hserved
    cases hrefusal : s.dev.mctpRefusal eid (if cci then 1 else 0) opcode.toNat length with
    | none =>
      obtain ⟨hmgmt, -⟩ := s.dev.mctpTaken_shown eid (if cci then 1 else 0)
      exact yields_of_eq (exec_mctpRequest_taken hbus hserved hrefusal) ⟨by rw [hmgmt], .inl (by rw [hmgmt]; simp)⟩
    | some rc =>
      obtain ⟨hanswered, hmgmt⟩ := s.dev.mctpAnswered_shown eid opcode.toNat rc
      exact yields_of_eq (exec_mctpRequest_refused hbus hserved hrefusal) ⟨by rw [hmgmt], .inr ⟨rc, hanswered⟩⟩

end Sys2Proof.Machine
end

section
/-! PROOFS. FW_TRANSFER: the spare slot of a target, written in order and verified at the end (R312). Settles O46. -/

namespace Sys2Proof.Machine

/-! ### The records of a transfer -/

theorem Dev.onlyRead_eraseSlot (d : Dev) (target slot : Nat) : d.onlyRead (d.eraseSlot target slot) := d.onlyRead_mgmt _

theorem Dev.onlyRead_setTransfer (d : Dev) (target : Nat) (x : Option Transfer) : d.onlyRead (d.setTransfer target x) := d.onlyRead_mgmt _

@[simp] theorem Dev.setTransfer_flash (d : Dev) (target : Nat) (x : Option Transfer) : (d.setTransfer target x).mgmt.flash = d.mgmt.flash := rfl
@[simp] theorem Dev.setTransfer_verified (d : Dev) (target : Nat) (x : Option Transfer) :
    (d.setTransfer target x).mgmt.verified = d.mgmt.verified := rfl
@[simp] theorem Dev.setTransfer_inUse (d : Dev) (target : Nat) (x : Option Transfer) : (d.setTransfer target x).mgmt.inUse = d.mgmt.inUse := rfl
@[simp] theorem Dev.eraseSlot_transfers (d : Dev) (target slot : Nat) : (d.eraseSlot target slot).mgmt.transfers = d.mgmt.transfers := rfl
@[simp] theorem Dev.eraseSlot_inUse (d : Dev) (target slot : Nat) : (d.eraseSlot target slot).mgmt.inUse = d.mgmt.inUse := rfl

/-- An erased slot holds nothing and nothing of it is verified. -/
theorem Dev.eraseSlot_slot (d : Dev) (target slot : Nat) :
    tget (d.eraseSlot target slot).mgmt.flash (target, slot) = none ∧ (target, slot) ∉ (d.eraseSlot target slot).mgmt.verified ∧
      ∀ x, x ≠ (target, slot) → tget (d.eraseSlot target slot).mgmt.flash x = tget d.mgmt.flash x :=
  ⟨tget_tdel_same _ _, by simp [Dev.eraseSlot], fun _ hx => tget_tdel_ne _ hx⟩

theorem Dev.transfer_setTransfer (d : Dev) (target : Nat) (x : Option Transfer) : tget (d.setTransfer target x).mgmt.transfers target = x := by
  cases x with
  | none => exact tget_tdel_same _ _
  | some x => exact tget_tset_same _ _ _

/-- A transfer command that its checks refuse changes nothing (R288). -/
theorem yields_transfer_refused {c : Instr} {s : State} {path : Path} {rc : Nat} (hexec : exec c s = .next (s.onto (s.dev.finish path 0xC050 rc)))
    (hrc : rc < 65536) : yields c s fun t => t.replied path 0xC050 rc 0 [] ∧ s.dev.onlyRead t ∧ t.mgmt.flash = s.dev.mgmt.flash ∧
      t.mgmt.transfers = s.dev.mgmt.transfers :=
  yields_of_eq hexec ⟨Dev.replied_finish hrc, Dev.onlyRead_end, by simp, by simp⟩

/-! ### START -/

section
variable {path : Path} {input : List Byte} {s : State} (htakes : s.dev.takesStoluo path 0xC050)

section
variable (hform : transferForm input = true)
include htakes hform

theorem exec_fwTransferStart_idle (hmove : tget s.dev.mgmt.imageMove (field input 1 1) = none)
    (hactivation : field input 1 1 = 0 → s.dev.mgmt.activation = none) :
    exec (.fwTransferStart path input) s = .next (s.onto (((s.dev.eraseSlot (field input 1 1) (s.dev.spareSlot (field input 1 1))).setTransfer
      (field input 1 1) (some ⟨0, []⟩)).finish path 0xC050 rcSuccess)) := by
  refine exec_stoluo htakes (exec_fwTransferStart path input s) hform (if_neg ?_)
  simpa [hmove] using hactivation

theorem exec_fwTransferStart_busy (hbusy : (tget s.dev.mgmt.imageMove (field input 1 1)).isSome = true ∨
    (field input 1 1 = 0 ∧ s.dev.mgmt.activation.isSome = true)) :
    exec (.fwTransferStart path input) s = .next (s.onto (s.dev.finish path 0xC050 rcBusy)) :=
  exec_stoluo htakes (exec_fwTransferStart path input s) hform (if_pos (by simpa using hbusy))

/-! ### END and ABORT -/

theorem exec_fwTransferAbort_open {x : Transfer} (hopen : tget s.dev.mgmt.transfers (field input 1 1) = some x) :
    exec (.fwTransferAbort path input) s = .next (s.onto (((s.dev.setTransfer (field input 1 1) none).eraseSlot (field input 1 1)
      (s.dev.spareSlot (field input 1 1))).finish path 0xC050 rcSuccess)) :=
  exec_stoluo htakes (exec_fwTransferAbort path input s) hform (if_neg (by simp [hopen]))

theorem exec_fwTransferAbort_closed (hclosed : tget s.dev.mgmt.transfers (field input 1 1) = none) :
    exec (.fwTransferAbort path input) s = .next (s.onto (s.dev.finish path 0xC050 rcConflict)) :=
  exec_stoluo htakes (exec_fwTransferAbort path input s) hform (if_pos (by simp [hclosed]))

theorem exec_fwTransferEnd_closed {body : Sys2Proof.Image} (hclosed : tget s.dev.mgmt.transfers (field input 1 1) = none) :
    exec (.fwTransferEnd path input body) s = .next (s.onto (s.dev.finish path 0xC050 rcConflict)) := by
  refine exec_stoluo htakes (exec_fwTransferEnd path input body s) hform ?_
  dsimp only
  rw [hclosed]

end

/-- The code with which END's verification ends (R307, R312). -/
def verifyCode : Option Nat → Nat
  | none => rcSuccess
  | some 5 => rcPermission
  | some _ => rcIntegrity

/-- END leaves the image in the slot, verified where its code is success. -/
def Dev.imageReceived (d : Dev) (target slot rc : Nat) (i : Sys2Proof.Image) : Dev :=
  let d := d.setTransfer target none
  { d with mgmt := { d.mgmt with
    flash := tset d.mgmt.flash (target, slot) i
    verified := if rc = rcSuccess then d.mgmt.verified ++ [(target, slot)] else d.mgmt.verified } }

theorem exec_fwTransferEnd_open {body : Sys2Proof.Image} {x : Transfer} (htakes : s.dev.takesStoluo path 0xC050)
    (hform : transferForm input = true) (hopen : tget s.dev.mgmt.transfers (field input 1 1) = some x) (hidle : tget s.dev.mgmt.bg path = none) :
    let code := verifyCode (s.dev.imageError (field input 1 1) (imageOf x body))
    exec (.fwTransferEnd path input body) s = .next (s.onto ((((s.dev.bgStart path 0xC050).imageReceived (field input 1 1)
      (s.dev.spareSlot (field input 1 1)) code (imageOf x body))).bgResult path code 0)) := by
  refine exec_stoluo htakes (exec_fwTransferEnd path input body s) hform ?_
  dsimp only
  rw [hopen]
  exact Dev.background_runs _ _ _ _ hidle

theorem Dev.onlyRead_imageReceived (d : Dev) (target slot rc : Nat) (i : Sys2Proof.Image) : d.onlyRead (d.imageReceived target slot rc i) :=
  (d.onlyRead_setTransfer target none).trans (Dev.onlyRead_mgmt _ _)

theorem Dev.onlyRead_bgResult (d : Dev) (path : Path) (rc v : Nat) : d.onlyRead (d.bgResult path rc v) := d.onlyRead_mgmt _

/-- The records that a received image leaves: no transfer, the image in its slot, and the slot verified where the code is success. -/
theorem Dev.imageReceived_mgmt (d : Dev) (target slot rc : Nat) (i : Sys2Proof.Image) :
    tget (d.imageReceived target slot rc i).mgmt.transfers target = none ∧
      tget (d.imageReceived target slot rc i).mgmt.flash (target, slot) = some i ∧
      (d.imageReceived target slot rc i).mgmt.verified =
        (if rc = rcSuccess then d.mgmt.verified ++ [(target, slot)] else d.mgmt.verified) ∧
      (d.imageReceived target slot rc i).mgmt.bg = d.mgmt.bg ∧ (d.imageReceived target slot rc i).out = d.out :=
  ⟨tget_tdel_same _ _, tget_tset_same _ _ _, rfl, rfl, rfl⟩

/-- What END shows: the image in the slot, and its outcome in the background. -/
theorem Dev.imageReceived_shown (d : Dev) (path : Path) (target slot rc : Nat) (i : Sys2Proof.Image) :
    let t := (((d.bgStart path 0xC050).imageReceived target slot rc i).bgResult path rc 0).shown
    .cmdDone path 0xC050 1 0 [] ∈ t.out ∧ tget t.mgmt.transfers target = none ∧ tget t.mgmt.flash (target, slot) = some i ∧
      tget t.mgmt.bg path = some ⟨0xC050, some (rc, 0)⟩ ∧
      t.mgmt.verified = (if rc = rcSuccess then d.mgmt.verified ++ [(target, slot)] else d.mgmt.verified) ∧ d.onlyRead t := by
  obtain ⟨htransfers, hflash, hverified, hbg, hout⟩ := (d.bgStart path 0xC050).imageReceived_mgmt target slot rc i
  refine ⟨Dev.mem_shown ?_, ?_, ?_, ?_, ?_, Dev.onlyRead_shown (((d.onlyRead_bgStart path _).trans
    (Dev.onlyRead_imageReceived _ _ _ _ _)).trans (Dev.onlyRead_bgResult _ _ _ _))⟩
  · rw [Dev.bgResult_out, hout]
    exact Dev.mem_bgStart _ _ _
  · rw [Dev.shown_mgmt, Dev.bgResult_mgmt_transfers, htransfers]
  · rw [Dev.shown_mgmt, Dev.bgResult_mgmt_flash, hflash]
  · rw [Dev.shown_mgmt, Dev.bg_bgResult, hbg, Dev.bg_bgStart]
    rfl
  · rw [Dev.shown_mgmt, Dev.bgResult_mgmt_verified, hverified, Dev.bgStart_mgmt_verified]

/-! ### DATA -/

section
variable (hform : transferDataForm input = true) {x : Transfer} (hopen : tget s.dev.mgmt.transfers (field input 1 1) = some x)
include htakes hform hopen

theorem exec_fwTransferData_next (haligned : field input 4 4 % 16 = 0) (hnext : field input 4 4 = x.next)
    (hfits : x.next + (input.length - 16) ≤ slotBytes (field input 1 1)) :
    exec (.fwTransferData path input) s = .next (s.onto ((s.dev.setTransfer (field input 1 1)
      (some ⟨x.next + (input.length - 16), (x.header ++ input.drop 16).take 256⟩)).finish path 0xC050 rcSuccess)) := by
  refine exec_stoluo htakes (exec_fwTransferData path input s) hform ?_
  dsimp only
  rw [hopen]
  dsimp only
  rw [if_neg (by omega), if_neg (by omega), hnext]

theorem exec_fwTransferData_unaligned (hodd : field input 4 4 % 16 ≠ 0) :
    exec (.fwTransferData path input) s = .next (s.onto (s.dev.finish path 0xC050 rcAlignment)) := by
  refine exec_stoluo htakes (exec_fwTransferData path input s) hform ?_
  dsimp only
  rw [hopen]
  dsimp only
  rw [if_pos hodd]

theorem exec_fwTransferData_misplaced (haligned : field input 4 4 % 16 = 0)
    (hplace : field input 4 4 ≠ x.next ∨ slotBytes (field input 1 1) < field input 4 4 + (input.length - 16)) :
    exec (.fwTransferData path input) s = .next (s.onto (s.dev.finish path 0xC050 rcInvalid)) := by
  refine exec_stoluo htakes (exec_fwTransferData path input s) hform ?_
  dsimp only
  rw [hopen]
  dsimp only
  rw [if_neg (by omega), if_pos hplace]

end
end

/-! ### The obligation -/

/-- Settles O46: each phase's checks in their order, and what the phase that passes them writes. -/
theorem transfersWriteTheSpareSlot : Obligations.TransfersWriteTheSpareSlot := by
  unfold Obligations.TransfersWriteTheSpareSlot
  refine ⟨?start, ?busy, ?data, ?unaligned, ?misplaced, ?ends, ?endClosed, ?abort, ?abortClosed⟩
  case start =>
    intro path input s htakes hform hmove hactivation
    obtain ⟨herased, hverified, hothers⟩ := s.dev.eraseSlot_slot (field input 1 1) (s.dev.spareSlot (field input 1 1))
    refine yields_of_eq (exec_fwTransferStart_idle htakes hform hmove hactivation) ⟨Dev.replied_finish (by decide), ?_, ?_, ?_, ?_, ?_,
      ((s.dev.onlyRead_eraseSlot _ _).trans (Dev.onlyRead_setTransfer _ _ _)).trans Dev.onlyRead_end⟩
    · simpa using Dev.transfer_setTransfer _ _ _
    · simpa using herased
    · simpa using hverified
    · simpa using hothers
    · simp
  case busy =>
    intro path input s htakes hform hbusy
    exact yields_mono (yields_transfer_refused (exec_fwTransferStart_busy htakes hform hbusy) (by decide))
      fun t ⟨hreplied, hread, hflash, _⟩ => ⟨hreplied, hread, hflash⟩
  case data =>
    intro path input x s htakes hform hopen haligned hnext hfits
    refine yields_of_eq (exec_fwTransferData_next htakes hform hopen haligned hnext hfits) ⟨Dev.replied_finish (by decide), ?_, ?_,
      (s.dev.onlyRead_setTransfer _ _).trans Dev.onlyRead_end⟩
    · simpa using Dev.transfer_setTransfer _ _ _
    · simp
  case unaligned =>
    intro path input x s htakes hform hopen hodd
    exact yields_mono (yields_transfer_refused (exec_fwTransferData_unaligned htakes hform hopen hodd) (by decide))
      fun t ⟨hreplied, hread, _, htransfers⟩ => ⟨hreplied, htransfers, hread⟩
  case misplaced =>
    intro path input x s htakes hform hopen haligned hplace
    exact yields_mono (yields_transfer_refused (exec_fwTransferData_misplaced htakes hform hopen haligned hplace) (by decide))
      fun t ⟨hreplied, hread, _, htransfers⟩ => ⟨hreplied, htransfers, hread⟩
  case ends =>
    intro path input body x s htakes hform hopen hidle
    obtain ⟨hdone, htransfers, hflash, hbg, hverified, hread⟩ := s.dev.imageReceived_shown path (field input 1 1)
      (s.dev.spareSlot (field input 1 1)) (verifyCode (s.dev.imageError (field input 1 1) (imageOf x body))) (imageOf x body)
    refine yields_of_eq (exec_fwTransferEnd_open htakes hform hopen hidle) ⟨hdone, htransfers, hflash, fun hgood => ?_, fun hkey => ?_,
      fun e herror hother => ?_, hread⟩
    · rw [hbg, hverified, hgood]
      exact ⟨rfl, rfl⟩
    · rw [hbg, hverified, hkey]
      exact ⟨rfl, rfl⟩
    · have hcode : verifyCode (some e) = rcIntegrity := by
        unfold verifyCode
        split
        · contradiction
        · rename_i h5
          exact absurd (Option.some.inj h5) hother
        · rfl
      rw [hbg, hverified, herror, hcode]
      exact ⟨rfl, rfl⟩
  case endClosed =>
    intro path input body s htakes hform hclosed
    exact yields_mono (yields_transfer_refused (exec_fwTransferEnd_closed htakes hform hclosed) (by decide))
      fun t ⟨hreplied, hread, hflash, _⟩ => ⟨hreplied, hread, hflash⟩
  case abort =>
    intro path input x s htakes hform hopen
    obtain ⟨herased, -, hothers⟩ := (s.dev.setTransfer (field input 1 1) none).eraseSlot_slot (field input 1 1)
      (s.dev.spareSlot (field input 1 1))
    refine yields_of_eq (exec_fwTransferAbort_open htakes hform hopen) ⟨Dev.replied_finish (by decide), ?_, ?_, ?_,
      ((s.dev.onlyRead_setTransfer _ _).trans (Dev.onlyRead_eraseSlot _ _ _)).trans Dev.onlyRead_end⟩
    · simpa using Dev.transfer_setTransfer s.dev _ none
    · simpa using herased
    · simpa using hothers
  case abortClosed =>
    intro path input s htakes hform hclosed
    exact yields_mono (yields_transfer_refused (exec_fwTransferAbort_closed htakes hform hclosed) (by decide))
      fun t ⟨hreplied, hread, hflash, _⟩ => ⟨hreplied, hread, hflash⟩

end Sys2Proof.Machine
end

section
/-! PROOFS. FW_ACTIVATE and FW_COMMIT: the slot marked, the live activation with its two ends, engines that move, and the rollback
counter (R313, R314, R339). Settles O47. -/

namespace Sys2Proof.Machine

theorem Reg.oobBoot_holds_slot : Reg.oobBoot.holds 27 27 = true := by simp [Reg.holds, Reg.mask, Reg.layout, fieldMask]

theorem Reg.oobBoot_holds_trial : Reg.oobBoot.holds 26 26 = true := by simp [Reg.holds, Reg.mask, Reg.layout, fieldMask]

/-! ### MODE 0 -/

/-- The slot that the next reset runs firmware from, or the BCB slot in use. -/
def Dev.slotMarked (d : Dev) (target slot : Nat) : Dev :=
  { d with mgmt := if target = 0 then { d.mgmt with preferred := slot, trial := true } else { d.mgmt with bcbSlot := slot } }

section
variable {path : Path} {input : List Byte} {s : State} (htakes : s.dev.takesStoluo path 0xC051) (hform : activateForm input false = true)
  (hactivation : field input 0 1 = 0 → s.dev.mgmt.activation = none) (hclosed : tget s.dev.mgmt.transfers (field input 0 1) = none)
include htakes hform hactivation hclosed

theorem exec_fwActivateNextReset_verified (hverified : (field input 0 1, s.dev.spareSlot (field input 0 1)) ∈ s.dev.mgmt.verified) :
    exec (.fwActivateNextReset path input) s = .next (s.onto ((s.dev.slotMarked (field input 0 1)
      (s.dev.spareSlot (field input 0 1))).finish path 0xC051 rcSuccess)) := by
  refine exec_stoluo htakes (exec_fwActivateNextReset path input s) hform ?_
  dsimp only
  rw [if_neg (by simpa [hclosed] using hactivation), if_neg (by simp [hverified])]
  rfl

theorem exec_fwActivateNextReset_unverified (hverified : (field input 0 1, s.dev.spareSlot (field input 0 1)) ∉ s.dev.mgmt.verified) :
    exec (.fwActivateNextReset path input) s = .next (s.onto (s.dev.finish path 0xC051 rcConflict)) := by
  refine exec_stoluo htakes (exec_fwActivateNextReset path input s) hform ?_
  dsimp only
  rw [if_neg (by simpa [hclosed] using hactivation), if_pos (by simp [hverified])]

end

/-! ### MODE 1 -/

/-- A live activation has started: the window is open, and the slot preferred and on trial. -/
def Dev.activating (d : Dev) (path : Path) (slot : Nat) : Dev :=
  { d with mgmt := { d.mgmt with
    activation := some ⟨path, slot, true, d.mgmt.preferred, d.mgmt.trial⟩, preferred := slot, trial := true } }

/-- The engines of a list are due to move to a version. -/
def Dev.enginesDue (d : Dev) (engines : List Nat) (version : Nat) : Dev :=
  engines.foldl (fun (d : Dev) e => d.setEngine e { d.engine e with move := some version }) d

theorem Dev.enginesDue_cons (d : Dev) (e : Nat) (engines : List Nat) (version : Nat) :
    d.enginesDue (e :: engines) version = (d.setEngine e { d.engine e with move := some version }).enginesDue engines version := rfl

theorem Dev.enginesDue_mgmt (d : Dev) (engines : List Nat) (version : Nat) : (d.enginesDue engines version).mgmt = d.mgmt := by
  induction engines generalizing d with
  | nil => rfl
  | cons e engines ih => exact ih _

theorem Dev.enginesDue_out (d : Dev) (engines : List Nat) (version : Nat) : (d.enginesDue engines version).out = d.out := by
  induction engines generalizing d with
  | nil => rfl
  | cons e engines ih => exact ih _

theorem Dev.engine_enginesDue (d : Dev) (engines : List Nat) (version e : Nat) : (d.enginesDue engines version).engine e =
    if e ∈ engines then { d.engine e with move := some version } else d.engine e := by
  induction engines generalizing d with
  | nil => rfl
  | cons k engines ih =>
    rw [Dev.enginesDue_cons, ih]
    by_cases hsame : e = k
    · subst hsame
      rw [Dev.engine_setEngine_same, if_pos (List.mem_cons_self ..), ite_self]
    · rw [Dev.engine_setEngine_ne _ _ hsame]
      simp [hsame]

/-- The version that a target's slot holds. -/
def Dev.slotVersion (d : Dev) (target slot : Nat) : Nat := ((tget d.mgmt.flash (target, slot)).map (·.version)).getD 0

/-- The engines that carry a target's image. -/
def Dev.carriers (d : Dev) (target : Nat) : List Nat := (List.range 256).filter fun e => decide ((d.engine e).image = serviceImage target)

theorem Dev.mem_carriers {d : Dev} {target e : Nat} : e ∈ d.carriers target ↔ e < 256 ∧ (d.engine e).image = serviceImage target := by
  simp [Dev.carriers]

/-- The move of a service image to its new slot has started. -/
def Dev.imageMoving (d : Dev) (path : Path) (target slot : Nat) (engines : List Nat) (version : Nat) : Dev :=
  let d := d.enginesDue engines version
  { d with mgmt := { d.mgmt with imageMove := tset d.mgmt.imageMove target (slot, path) } }

/-- What a starting move shows: its record, an engine that carries the image, and nothing else of the management records. -/
theorem Dev.imageMoving_shown (d : Dev) (path : Path) (target slot version : Nat) {engines : List Nat} {e : Nat} (he : e ∈ engines) :
    let t := (d.imageMoving path target slot engines version).shown
    tget t.mgmt.imageMove target = some (slot, path) ∧ t.mgmt = { d.mgmt with imageMove := tset d.mgmt.imageMove target (slot, path) } ∧
      t.engine e = { d.engine e with move := some version } ∧ ∀ {o}, o ∈ d.out → o ∈ t.out := by
  have hmgmt : (d.imageMoving path target slot engines version).mgmt =
      { d.mgmt with imageMove := tset d.mgmt.imageMove target (slot, path) } := by
    simp only [Dev.imageMoving, Dev.enginesDue_mgmt]
  refine ⟨?_, ?_, ?_, fun ho => Dev.mem_shown ?_⟩
  · rw [Dev.shown_mgmt, hmgmt]
    exact tget_tset_same _ _ _
  · rw [Dev.shown_mgmt, hmgmt]
  · refine (Dev.engine_congr (d := d.enginesDue engines version) (by simp [Dev.imageMoving]) e).trans ((Dev.engine_enginesDue _ _ _ e).trans ?_)
    rw [if_pos he]
  · exact (Dev.enginesDue_out d engines version).symm ▸ ho

section
variable {path : Path} {input : List Byte} {s : State} (hserves : s.dev.serves path 0xC051 = true)
  (hrefusal : s.dev.refusal path 0xC051 true = none) (hform : activateForm input true = true) (hactivation : s.dev.mgmt.activation = none)
  (hmove : tget s.dev.mgmt.imageMove (field input 0 1) = none) (hclosed : tget s.dev.mgmt.transfers (field input 0 1) = none)
include hserves hrefusal hform hactivation hmove hclosed

/-- A live activation that its checks allow: firmware opens its window, a service image that engines carry moves with them, and one that
none carries is in use at once. -/
theorem exec_fwActivateLive_verified (hverified : (field input 0 1, s.dev.spareSlot (field input 0 1)) ∈ s.dev.mgmt.verified) :
    let target := field input 0 1
    let slot := s.dev.spareSlot target
    exec (.fwActivateLive path input) s = .next (s.onto (
      if target = 0 then s.dev.background path 0xC051 fun d => d.activating path slot
      else if (s.dev.carriers target).isEmpty then (s.dev.imageMoved target slot).finish path 0xC051 rcSuccess
      else s.dev.background path 0xC051 fun d =>
        d.imageMoving path target slot (s.dev.carriers target) (s.dev.slotVersion target slot))) := by
  refine exec_onto (exec_fwActivateLive path input s) ((Dev.stoluo_runs _ _ _ _ _ _ hserves hrefusal hform).trans ?_)
  dsimp only
  rw [if_neg (by simp [hactivation, hmove, hclosed]), if_neg (by simp [hverified])]
  rfl

theorem exec_fwActivateLive_unverified (hverified : (field input 0 1, s.dev.spareSlot (field input 0 1)) ∉ s.dev.mgmt.verified) :
    exec (.fwActivateLive path input) s = .next (s.onto (s.dev.finish path 0xC051 rcConflict)) := by
  refine exec_onto (exec_fwActivateLive path input s) ((Dev.stoluo_runs _ _ _ _ _ _ hserves hrefusal hform).trans ?_)
  dsimp only
  rw [if_neg (by simp [hactivation, hmove, hclosed]), if_pos (by simp [hverified])]

end

theorem activateForm_service {target : Nat} (h : target = 1 ∨ target = 2) : field [BitVec.ofNat 8 target, 1, 0, 0] 0 1 = target ∧
    activateForm [BitVec.ofNat 8 target, 1, 0, 0] true = true ∧ target ≠ 0 := by
  obtain rfl | rfl := h <;> decide

/-! ### The ends of a live activation -/

theorem exec_liveActivationTakeover_taken {a : Activation} {i : Sys2Proof.Image} {s : State} (hactivation : s.dev.mgmt.activation = some a)
    (himage : tget s.dev.mgmt.flash (0, a.slot) = some i) :
    let d := ((s.dev.wr .oobBoot 27 27 a.slot).wr .oobBoot 26 26 1).measure 3 i.hash
    let d : Dev := { d with mgmt := { d.mgmt with
      activation := none, fwVersion := i.version, fwSvn := i.svn, inUse := tset d.mgmt.inUse 0 a.slot } }
    exec .liveActivationTakeover s = .next (s.onto ((d.bgResult a.path rcSuccess 0).updateEvent 0 i.version rcSuccess)) := by
  refine exec_onto (exec_liveActivationTakeover s) ?_
  dsimp only
  rw [hactivation]
  dsimp only
  rw [himage]

theorem exec_liveActivationTimeout_restored {a : Activation} {s : State} (hactivation : s.dev.mgmt.activation = some a) :
    exec .liveActivationTimeout s = .next (s.onto ((({ s.dev with mgmt := { s.dev.mgmt with
      activation := none, preferred := a.preferred, trial := a.trial } } : Dev).bgResult a.path rcTimeout 0).updateEvent 0
        (s.dev.slotVersion 0 a.slot) rcTimeout)) := by
  refine exec_onto (exec_liveActivationTimeout s) ?_
  dsimp only
  rw [hactivation]
  rfl

theorem Dev.updateEvent_mgmt (d : Dev) (target version rc : Nat) : (d.updateEvent target version rc).mgmt = d.mgmt := Dev.fabricEvent_mgmt _ _ _

theorem Dev.bg_bgResult_of {d : Dev} {path : Path} {b : BgOp} (rc v : Nat) (h : tget d.mgmt.bg path = some b) :
    tget (d.bgResult path rc v).mgmt.bg path = some { b with result := some (rc, v) } := by
  rw [Dev.bg_bgResult, h]
  rfl

/-- An update event and the end of a command leave OOB.BOOT. -/
theorem Dev.rd_updateEvent_shown (d : Dev) (target version rc hi lo : Nat) :
    (d.updateEvent target version rc).shown.rd .oobBoot hi lo = d.rd .oobBoot hi lo := by
  rw [Dev.rd_shown _ _ _ _ (by simp)]
  exact Dev.rd_fabricEvent _ _ _ _ _ _ (by simp)

/-! ### FW_COMMIT -/

/-- Image keys below that of the image in use are revoked (R339). -/
def revokedBelow (revoked : List Bool) (key : Nat) : List Bool :=
  if 1 ≤ key ∧ key ≤ 4 then (List.range 4).map fun k => revoked.getD k false || decide (k + 1 < key) else revoked

theorem getD_revokedBelow {revoked : List Bool} {key k : Nat} (hlow : 1 ≤ key) (hhigh : key ≤ 4) (hk : k < 4) :
    (revokedBelow revoked key).getD k false = (revoked.getD k false || decide (k + 1 < key)) := by
  rw [revokedBelow, if_pos ⟨hlow, hhigh⟩, List.getD_eq_getElem?_getD, List.getElem?_map, List.getElem?_range hk]
  rfl

theorem revokedBelow_none {revoked : List Bool} {key : Nat} (h : key = 0 ∨ 4 < key) : revokedBelow revoked key = revoked :=
  if_neg (by omega)

/-- A commit in OTP. -/
def Dev.otpCommitted (d : Dev) (target : Nat) (i : Sys2Proof.Image) : Dev :=
  { d with sec := { d.sec with otp := { d.sec.otp with
    counters := d.sec.otp.counters.set target i.svn, revoked := revokedBelow d.sec.otp.revoked i.keyId } } }

/-- A firmware image is no longer on trial. -/
def Dev.trialEnded (d : Dev) : Dev := ({ d with mgmt := { d.mgmt with trial := false } } : Dev).wr .oobBoot 26 26 0

theorem commitForm (target : Fin 4) : field [BitVec.ofNat 8 target.val, 0, 0, 0] 0 1 = target.val ∧
    (decide (([BitVec.ofNat 8 target.val, 0, 0, 0] : List Byte).length = 4 ∧ field [BitVec.ofNat 8 target.val, 0, 0, 0] 0 1 ≤ 3 ∧
      field [BitVec.ofNat 8 target.val, 0, 0, 0] 1 3 = 0)) = true := by
  revert target
  decide

section
variable {path : Path} {target : Fin 4} {s : State} (htakes : s.dev.takesStoluo path 0xC052)
include htakes

theorem exec_fwCommit_inUse {slot : Nat} {i : Sys2Proof.Image} (hslot : tget s.dev.mgmt.inUse target.val = some slot)
    (himage : tget s.dev.mgmt.flash (target.val, slot) = some i) :
    exec (.fwCommit path [BitVec.ofNat 8 target.val, 0, 0, 0]) s = .next (s.onto
      ((if target.val = 0 then (s.dev.otpCommitted target i).trialEnded else s.dev.otpCommitted target i).finish path 0xC052 rcSuccess)) := by
  obtain ⟨hfield, hform⟩ := commitForm target
  refine exec_stoluo htakes (exec_fwCommit path _ s) hform ?_
  dsimp only
  rw [hfield, hslot, Option.bind_some, himage]
  rfl

theorem exec_fwCommit_unused (hslot : tget s.dev.mgmt.inUse target.val = none) :
    exec (.fwCommit path [BitVec.ofNat 8 target.val, 0, 0, 0]) s = .next (s.onto (s.dev.finish path 0xC052 rcConflict)) := by
  obtain ⟨hfield, hform⟩ := commitForm target
  refine exec_stoluo htakes (exec_fwCommit path _ s) hform ?_
  dsimp only
  rw [hfield, hslot, Option.bind_none]

end

/-! ### What each command yields -/

theorem yields_fwActivateNextReset_firmware {path : Path} {s : State} (htakes : s.dev.takesStoluo path 0xC051)
    (hactivation : s.dev.mgmt.activation = none) (hclosed : tget s.dev.mgmt.transfers 0 = none)
    (hverified : (0, s.dev.spareSlot 0) ∈ s.dev.mgmt.verified) :
    yields (.fwActivateNextReset path [0, 0, 0, 0]) s fun t => t.replied path 0xC051 0 0 [] ∧ t.mgmt.preferred = s.dev.spareSlot 0 ∧
      t.mgmt.trial = true ∧ t.mgmt.bcbSlot = s.dev.mgmt.bcbSlot ∧ t.mgmt.inUse = s.dev.mgmt.inUse ∧ t.mgmt.flash = s.dev.mgmt.flash ∧
      s.dev.onlyRead t := by
  have hfield : field [0, 0, 0, 0] 0 1 = 0 := rfl
  have hexec := exec_fwActivateNextReset_verified htakes (input := [0, 0, 0, 0]) (by decide) (fun _ => hactivation) hclosed hverified
  rw [hfield] at hexec
  refine yields_of_eq hexec ⟨Dev.replied_finish (by decide), ?_, ?_, ?_, ?_, ?_, (s.dev.onlyRead_mgmt _).trans Dev.onlyRead_end⟩
  all_goals simp [Dev.slotMarked]

theorem yields_fwActivateNextReset_bcb {path : Path} {s : State} (htakes : s.dev.takesStoluo path 0xC051)
    (hclosed : tget s.dev.mgmt.transfers 3 = none) (hverified : (3, s.dev.spareSlot 3) ∈ s.dev.mgmt.verified) :
    yields (.fwActivateNextReset path [3, 0, 0, 0]) s fun t => t.replied path 0xC051 0 0 [] ∧ t.mgmt.bcbSlot = s.dev.spareSlot 3 ∧
      t.mgmt.preferred = s.dev.mgmt.preferred ∧ t.mgmt.trial = s.dev.mgmt.trial ∧ t.mgmt.inUse = s.dev.mgmt.inUse ∧ s.dev.onlyRead t := by
  have hfield : field [3, 0, 0, 0] 0 1 = 3 := rfl
  have hexec := exec_fwActivateNextReset_verified htakes (input := [3, 0, 0, 0]) (by decide) (fun h => absurd h (by decide)) hclosed hverified
  rw [hfield] at hexec
  refine yields_of_eq hexec ⟨Dev.replied_finish (by decide), ?_, ?_, ?_, ?_, (s.dev.onlyRead_mgmt _).trans Dev.onlyRead_end⟩
  all_goals simp [Dev.slotMarked]

theorem yields_fwActivateLive_firmware {path : Path} {s : State} (hserves : s.dev.serves path 0xC051 = true)
    (hrefusal : s.dev.refusal path 0xC051 true = none) (hactivation : s.dev.mgmt.activation = none)
    (hmove : tget s.dev.mgmt.imageMove 0 = none) (hclosed : tget s.dev.mgmt.transfers 0 = none) (hidle : tget s.dev.mgmt.bg path = none)
    (hverified : (0, s.dev.spareSlot 0) ∈ s.dev.mgmt.verified) :
    yields (.fwActivateLive path [0, 1, 0, 0]) s fun t => .cmdDone path 0xC051 1 0 [] ∈ t.out ∧ t.inWindow = true ∧
      t.mgmt.activation = some ⟨path, s.dev.spareSlot 0, true, s.dev.mgmt.preferred, s.dev.mgmt.trial⟩ ∧
      t.mgmt.preferred = s.dev.spareSlot 0 ∧ t.mgmt.trial = true ∧ t.mgmt.inUse = s.dev.mgmt.inUse ∧ s.dev.onlyRead t := by
  have hfield : field [0, 1, 0, 0] 0 1 = 0 := rfl
  have hexec := exec_fwActivateLive_verified hserves hrefusal (input := [0, 1, 0, 0]) (by decide) hactivation hmove hclosed hverified
  rw [hfield] at hexec
  dsimp only at hexec
  rw [if_pos rfl, Dev.background_runs _ _ _ _ hidle] at hexec
  refine yields_of_eq hexec ⟨Dev.mem_shown (Dev.mem_bgStart _ _ _), ?_, ?_, ?_, ?_, ?_,
    Dev.onlyRead_shown ((s.dev.onlyRead_bgStart path _).trans (Dev.onlyRead_mgmt _ _))⟩
  all_goals simp [Dev.activating, Dev.inWindow]

section
variable {path : Path} {target : Nat} {s : State} (htarget : target = 1 ∨ target = 2) (hserves : s.dev.serves path 0xC051 = true)
  (hrefusal : s.dev.refusal path 0xC051 true = none) (hactivation : s.dev.mgmt.activation = none)
  (hmove : tget s.dev.mgmt.imageMove target = none) (hclosed : tget s.dev.mgmt.transfers target = none)
  (hverified : (target, s.dev.spareSlot target) ∈ s.dev.mgmt.verified)
include htarget hserves hrefusal hactivation hmove hclosed hverified

theorem exec_fwActivateLive_service : exec (.fwActivateLive path [BitVec.ofNat 8 target, 1, 0, 0]) s = .next (s.onto (
    if (s.dev.carriers target).isEmpty then (s.dev.imageMoved target (s.dev.spareSlot target)).finish path 0xC051 rcSuccess
    else s.dev.background path 0xC051 fun d => d.imageMoving path target (s.dev.spareSlot target) (s.dev.carriers target)
      (s.dev.slotVersion target (s.dev.spareSlot target)))) := by
  obtain ⟨hfield, hform, hnonzero⟩ := activateForm_service htarget
  have hexec := exec_fwActivateLive_verified hserves hrefusal hform hactivation (by rwa [hfield]) (by rwa [hfield]) (by rwa [hfield])
  rw [hfield] at hexec
  dsimp only at hexec
  rwa [if_neg hnonzero] at hexec

theorem exec_fwActivateLive_uncarried (hnone : ∀ e < 256, (s.dev.engine e).image ≠ serviceImage target) :
    exec (.fwActivateLive path [BitVec.ofNat 8 target, 1, 0, 0]) s = .next (s.onto
      ((s.dev.imageMoved target (s.dev.spareSlot target)).finish path 0xC051 0)) := by
  have hempty : (s.dev.carriers target).isEmpty = true := by
    rw [List.isEmpty_iff, List.eq_nil_iff_forall_not_mem]
    exact fun e he => hnone e (Dev.mem_carriers.mp he).1 (Dev.mem_carriers.mp he).2
  have hexec := exec_fwActivateLive_service htarget hserves hrefusal hactivation hmove hclosed hverified
  rwa [if_pos hempty] at hexec

theorem yields_fwActivateLive_carried {e : Nat} (hidle : tget s.dev.mgmt.bg path = none) (he : e < 256)
    (himage : (s.dev.engine e).image = serviceImage target) :
    yields (.fwActivateLive path [BitVec.ofNat 8 target, 1, 0, 0]) s fun t =>
      tget t.mgmt.imageMove target = some (s.dev.spareSlot target, path) ∧ tget t.mgmt.bg path = some ⟨0xC051, none⟩ ∧
      (t.engine e).move = some (s.dev.slotVersion target (s.dev.spareSlot target)) ∧
      (t.engine e).version = (s.dev.engine e).version ∧ t.mgmt.inUse = s.dev.mgmt.inUse ∧ .cmdDone path 0xC051 1 0 [] ∈ t.out := by
  have hcarrier : e ∈ s.dev.carriers target := Dev.mem_carriers.mpr ⟨he, himage⟩
  have hexec := exec_fwActivateLive_service htarget hserves hrefusal hactivation hmove hclosed hverified
  rw [if_neg (by simpa using List.ne_nil_of_mem hcarrier), Dev.background_runs _ _ _ _ hidle] at hexec
  obtain ⟨hmoves, hmgmt, hdue, hout⟩ := (s.dev.bgStart path 0xC051).imageMoving_shown path target (s.dev.spareSlot target)
    (s.dev.slotVersion target (s.dev.spareSlot target)) hcarrier
  have hengine : (s.dev.bgStart path 0xC051).engine e = s.dev.engine e := Dev.engine_congr (by simp) e
  rw [hengine] at hdue
  refine yields_of_eq hexec ⟨hmoves, ?_, by rw [hdue], by rw [hdue], ?_, hout (Dev.mem_bgStart _ _ _)⟩
  · rw [hmgmt]
    exact Dev.bg_bgStart _ _ _
  · rw [hmgmt]
    exact Dev.bgStart_mgmt_inUse _ _ _

end

theorem yields_liveActivationTakeover {a : Activation} {i : Sys2Proof.Image} {s : State} (hactivation : s.dev.mgmt.activation = some a)
    (himage : tget s.dev.mgmt.flash (0, a.slot) = some i) (hslot : a.slot < 2) :
    yields .liveActivationTakeover s fun t => t.mgmt.activation = none ∧ t.mgmt.fwVersion = i.version ∧ t.mgmt.fwSvn = i.svn ∧
      tget t.mgmt.inUse 0 = some a.slot ∧ t.rd .oobBoot 27 27 = a.slot ∧ t.bitOf .oobBoot 26 = true ∧
      t.mgmt.preferred = s.dev.mgmt.preferred ∧ t.pool = s.dev.pool ∧ t.dir = s.dev.dir ∧
      (∀ b, tget s.dev.mgmt.bg a.path = some b → tget t.mgmt.bg a.path = some { b with result := some (0, 0) }) := by
  refine yields_of_eq (exec_liveActivationTakeover_taken hactivation himage) ⟨?_, ?_, ?_, ?_, ?_, ?_, ?_, ?_, ?_, fun b hb => ?_⟩
  case refine_5 =>
    rw [Dev.rd_updateEvent_shown]
    refine (Dev.rd_wr_field _ _ Reg.oobBoot_holds_slot (by decide)).trans ((Dev.rd_wr_same _ _ Reg.oobBoot_holds_slot).trans ?_)
    exact Nat.mod_eq_of_lt hslot
  case refine_6 =>
    rw [Dev.bitOf, Dev.rd_updateEvent_shown]
    exact Dev.bitOf_wr_same _ _ Reg.oobBoot_holds_trial
  case refine_10 =>
    rw [Dev.shown_mgmt, Dev.updateEvent_mgmt]
    exact Dev.bg_bgResult_of _ _ hb
  all_goals simp [Dev.updateEvent, Dev.bgResult, Dev.measure]

theorem yields_liveActivationTimeout {a : Activation} {s : State} (hactivation : s.dev.mgmt.activation = some a) :
    yields .liveActivationTimeout s fun t => t.mgmt.activation = none ∧ t.mgmt.preferred = a.preferred ∧ t.mgmt.trial = a.trial ∧
      t.mgmt.fwVersion = s.dev.mgmt.fwVersion ∧ t.mgmt.inUse = s.dev.mgmt.inUse ∧ t.pool = s.dev.pool ∧ t.dir = s.dev.dir ∧
      (∀ b, tget s.dev.mgmt.bg a.path = some b → tget t.mgmt.bg a.path = some { b with result := some (10, 0) }) := by
  refine yields_of_eq (exec_liveActivationTimeout_restored hactivation) ⟨?_, ?_, ?_, ?_, ?_, ?_, ?_, fun b hb => ?_⟩
  case refine_8 =>
    rw [Dev.shown_mgmt, Dev.updateEvent_mgmt]
    exact Dev.bg_bgResult_of _ _ hb
  all_goals simp [Dev.updateEvent, Dev.bgResult]

theorem yields_fwCommit_inUse {path : Path} {target : Fin 4} {slot : Nat} {i : Sys2Proof.Image} {s : State}
    (htakes : s.dev.takesStoluo path 0xC052) (hslot : tget s.dev.mgmt.inUse target.val = some slot)
    (himage : tget s.dev.mgmt.flash (target.val, slot) = some i) :
    yields (.fwCommit path [BitVec.ofNat 8 target.val, 0, 0, 0]) s fun t => t.replied path 0xC052 0 0 [] ∧
      t.sec.otp.counters = s.dev.sec.otp.counters.set target i.svn ∧
      t.sec.otp.revoked = revokedBelow s.dev.sec.otp.revoked i.keyId ∧
      (target.val = 0 → t.mgmt.trial = false ∧ t.bitOf .oobBoot 26 = false) ∧ (target.val ≠ 0 → t.mgmt.trial = s.dev.mgmt.trial) ∧
      t.mgmt.flash = s.dev.mgmt.flash ∧ t.sec.otp.lifecycle = s.dev.sec.otp.lifecycle ∧ t.pool = s.dev.pool ∧ t.dir = s.dev.dir := by
  have hexec := exec_fwCommit_inUse htakes hslot himage
  by_cases hzero : target.val = 0
  · rw [if_pos hzero] at hexec
    refine yields_of_eq hexec ⟨Dev.replied_finish (by decide), ?_, ?_, fun _ => ⟨?_, ?_⟩, fun h => absurd hzero h, ?_, ?_, ?_, ?_⟩
    case refine_4 =>
      rw [Dev.bitOf_shown _ _ _ (by simp), Dev.bitOf_finish _ _ _ _ _ _ (by simp) (by simp)]
      exact Dev.bitOf_wr_same _ _ Reg.oobBoot_holds_trial
    all_goals simp [Dev.otpCommitted, Dev.trialEnded]
  · rw [if_neg hzero] at hexec
    refine yields_of_eq hexec ⟨Dev.replied_finish (by decide), ?_, ?_, fun h => absurd h hzero, fun _ => ?_, ?_, ?_, ?_, ?_⟩
    all_goals simp [Dev.otpCommitted]

/-! ### The obligation -/

/-- Settles O47: the checks of each mode in their order, the two ends of a live activation, and what a commit burns. -/
theorem imagesAreActivatedAndCommitted : Obligations.ImagesAreActivatedAndCommitted := by
  unfold Obligations.ImagesAreActivatedAndCommitted
  refine ⟨?firmware, ?bcb, ?unverified, ?live, ?uncarried, ?carried, ?liveUnverified, ?takeover, ?timeout, ?idle, ?commit, ?unused⟩
  case firmware => exact fun path s => yields_fwActivateNextReset_firmware
  case bcb => exact fun path s => yields_fwActivateNextReset_bcb
  case unverified =>
    intro path input s htakes hform hactivation hclosed hverified
    exact yields_of_eq (exec_fwActivateNextReset_unverified htakes hform hactivation hclosed hverified)
      ⟨Dev.replied_finish (by decide), Dev.onlyRead_end⟩
  case live => exact fun path s => yields_fwActivateLive_firmware
  case uncarried => exact fun path target s => exec_fwActivateLive_uncarried
  case carried =>
    intro path target e s htarget hserves hrefusal hactivation hmove hclosed hverified
    exact yields_fwActivateLive_carried htarget hserves hrefusal hactivation hmove hclosed hverified
  case liveUnverified =>
    intro path input s hserves hrefusal hform hactivation hmove hclosed hverified
    exact yields_of_eq (exec_fwActivateLive_unverified hserves hrefusal hform hactivation hmove hclosed hverified)
      ⟨Dev.replied_finish (by decide), Dev.onlyRead_end⟩
  case takeover => exact fun a i s => yields_liveActivationTakeover
  case timeout => exact fun a s => yields_liveActivationTimeout
  case idle =>
    intro s hnone
    refine ⟨exec_onto (exec_liveActivationTakeover s) ?_, exec_onto (exec_liveActivationTimeout s) ?_⟩ <;> simp only [hnone]
  case commit =>
    intro path target slot i s htakes hslot himage
    refine yields_mono (yields_fwCommit_inUse htakes hslot himage) fun t ⟨hreplied, hcounters, hrevoked, hrest⟩ => ?_
    exact ⟨hreplied, hcounters, fun hlow hhigh k hk => hrevoked ▸ getD_revokedBelow hlow hhigh hk,
      fun hkey => hrevoked.trans (revokedBelow_none hkey), hrest⟩
  case unused =>
    intro path target s htakes hslot
    exact yields_of_eq (exec_fwCommit_unused htakes hslot) ⟨Dev.replied_finish (by decide), Dev.onlyRead_end⟩

end Sys2Proof.Machine
end

section
/-! PROOFS. QOS_SET, GATE_LIST_SET and MIRROR_SET: the checks of Table SW-4 and the registers that a command which passes them writes
(R294). Settles O48. -/

namespace Sys2Proof.Machine

/-! ### QOS_SET -/

/-- A register that a command wrote before it ended. -/
theorem Dev.reg_finished_same (d : Dev) (path : Path) (op rc : Nat) (v : Word) {r : Reg} (hside : r.side = false) (hshow : r.show = false)
    (hbox : r.box = false) : ((d.setReg r v).finish path op rc).shown.reg r = v &&& r.mask := by
  rw [Dev.reg_shown _ _ hshow, Dev.reg_finish _ _ _ _ _ hside hbox, Dev.reg_setReg_same]

theorem Dev.reg_finished_ne (d : Dev) (path : Path) (op rc : Nat) (v : Word) {r r' : Reg} (hne : r' ≠ r) (hside : r'.side = false)
    (hshow : r'.show = false) (hbox : r'.box = false) : ((d.setReg r v).finish path op rc).shown.reg r' = d.reg r' := by
  rw [Dev.reg_shown _ _ hshow, Dev.reg_finish _ _ _ _ _ hside hbox, Dev.reg_setReg_ne _ _ hne]

section
variable {d : Dev} {input : List Byte}

theorem Dev.qosApply_reserve {e : Entity} (hitem : field input 2 1 = 0) (he : qosEntity (field input 0 1) (field input 1 1) = some e) :
    d.qosApply input =
      if !(d.setReserve e (BitVec.ofNat 64 (field input 8 8))).reserveOk e then (rcInvalid, d)
      else if !(d.setReserve e (BitVec.ofNat 64 (field input 8 8))).reserveFits then (rcNoResource, d)
      else (rcSuccess, (d.setReserve e (BitVec.ofNat 64 (field input 8 8))).showCells) := by
  unfold Dev.qosApply
  dsimp only
  rw [hitem, he]
  rfl

theorem Dev.qosApply_portWeight {p : Fin 64} (hitem : field input 2 1 = 1)
    (he : qosEntity (field input 0 1) (field input 1 1) = some (.port p)) :
    d.qosApply input = (rcSuccess, d.setReg (.prtClassWeight (field input 1 1)) (BitVec.ofNat 64 (field input 8 8))) := by
  unfold Dev.qosApply
  dsimp only
  rw [hitem, he]
  rfl

theorem Dev.qosApply_linkWeight {l : Fin 16} (hitem : field input 2 1 = 1)
    (he : qosEntity (field input 0 1) (field input 1 1) = some (.link l)) :
    d.qosApply input = (rcSuccess, d.setReg (.stlClassWeight l) (BitVec.ofNat 64 (field input 8 8))) := by
  unfold Dev.qosApply
  dsimp only
  rw [hitem, he]
  rfl

theorem Dev.qosApply_hostWeights (hitem : field input 2 1 = 2) : d.qosApply input = (rcSuccess, (List.range 21).foldl
    (fun d i => d.setReg (.prtHostWeight (field input 1 1) i) (BitVec.ofNat 64 (field input (8 + 4 * i) 4))) d) := by
  unfold Dev.qosApply
  rw [hitem]
  rfl

theorem Dev.qosApply_shape (hitem : field input 2 1 = 3) : d.qosApply input =
    if shapeOk (BitVec.ofNat 64 (field input 8 8)) then
      (rcSuccess, d.setReg (.prtShape (field input 1 1)) (BitVec.ofNat 64 (field input 8 8)))
    else (rcInvalid, d) := by
  unfold Dev.qosApply
  rw [hitem]
  rfl

theorem Dev.qosApply_ageLimit (hitem : field input 2 1 = 4) : d.qosApply input =
    if d.ageLimitOk (BitVec.ofNat 64 (field input 8 8)).toNat then
      (rcSuccess, ageLimitWrite (BitVec.ofNat 64 (field input 8 8)).toNat d)
    else (rcInvalid, d) := by
  unfold Dev.qosApply
  rw [hitem]
  rfl

theorem Dev.qosApply_thresholds (hitem : field input 2 1 = 5) :
    d.qosApply input = (rcSuccess, d.setReg .devloadThr (BitVec.ofNat 64 (field input 8 8))) := by
  unfold Dev.qosApply
  rw [hitem]
  rfl

/-- The form of a class weight names a port or a link. -/
theorem qosForm_weight (hform : qosForm input = true) (hitem : field input 2 1 = 1) :
    (field input 0 1 = 0 → ∃ p, qosEntity (field input 0 1) (field input 1 1) = some (.port p)) ∧
      (field input 0 1 = 1 → ∃ l : Fin 16, qosEntity (field input 0 1) (field input 1 1) = some (.link l) ∧ l.val = field input 1 1) := by
  have hsome : (qosEntity (field input 0 1) (field input 1 1)).isSome = true := by
    simp only [qosForm, Bool.and_eq_true, Bool.or_eq_true, hitem] at hform
    obtain ⟨⟨⟨-, hentity⟩, -⟩, -⟩ := hform
    exact hentity.resolve_right (by decide)
  constructor
  all_goals
    intro htarget
    rw [htarget, qosEntity] at hsome
    rw [htarget, qosEntity]
    split at hsome
  · rename_i hnumber
    exact ⟨⟨_, hnumber⟩, dif_pos hnumber⟩
  · exact absurd hsome (by decide)
  · rename_i hnumber
    exact ⟨⟨_, hnumber⟩, dif_pos hnumber, rfl⟩
  · exact absurd hsome (by decide)

end

/-- Registers that are written in turn each hold their own value. -/
theorem Dev.reg_setReg_foldl (d : Dev) (r : Nat → Reg) (v : Nat → Word) (hne : ∀ i j, i ≠ j → r i ≠ r j) {n i : Nat} (hi : i < n) :
    ((List.range n).foldl (fun d i => d.setReg (r i) (v i)) d).reg (r i) = v i &&& (r i).mask := by
  induction n with
  | zero => exact absurd hi (Nat.not_lt_zero i)
  | succ n ih =>
    rw [List.range_succ, List.foldl_append, List.foldl_cons, List.foldl_nil]
    by_cases hlast : i = n
    · rw [hlast, Dev.reg_setReg_same]
    · rw [Dev.reg_setReg_ne _ _ (hne i n hlast)]
      exact ih (by omega)

section
variable {path : Path} {input : List Byte} {s : State} (htakes : s.dev.takesStoluo path 0xC018) (hform : qosForm input = true)
include htakes hform

theorem exec_qosSet_applied {rc : Nat} {d : Dev} (happly : s.dev.qosApply input = (rc, d)) :
    exec (.qosSet path input) s = .next (s.onto (d.finish path 0xC018 rc)) := by
  refine exec_stoluo htakes (exec_qosSet path input s) hform ?_
  dsimp only
  rw [happly]

/-- An item that its check refuses changes nothing. -/
theorem yields_qosSet_refused {rc : Nat} (hrc : rc < 65536) (happly : s.dev.qosApply input = (rc, s.dev)) :
    yields (.qosSet path input) s fun t => t.replied path 0xC018 rc 0 [] ∧ s.dev.onlyRead t :=
  yields_of_eq (exec_qosSet_applied htakes hform happly) ⟨Dev.replied_finish hrc, Dev.onlyRead_end⟩

/-- An item of one register writes that register and no other. -/
theorem yields_qosSet_written {r : Reg} {v : Word} (hside : r.side = false) (hshow : r.show = false) (hbox : r.box = false)
    (happly : s.dev.qosApply input = (rcSuccess, s.dev.setReg r v)) :
    yields (.qosSet path input) s fun t => t.replied path 0xC018 0 0 [] ∧ t.reg r = v &&& r.mask ∧
      ∀ r' : Reg, r' ≠ r → r'.side = false → r'.show = false → r'.box = false → t.reg r' = s.dev.reg r' :=
  yields_of_eq (exec_qosSet_applied htakes hform happly) ⟨Dev.replied_finish (by decide),
    Dev.reg_finished_same _ _ _ _ _ hside hshow hbox, fun _ hne hside hshow hbox => Dev.reg_finished_ne _ _ _ _ _ hne hside hshow hbox⟩

theorem yields_qosSet_hostWeights (hitem : field input 2 1 = 2) :
    yields (.qosSet path input) s fun t => t.replied path 0xC018 0 0 [] ∧ ∀ i < 21, t.reg (.prtHostWeight (field input 1 1) i) =
      BitVec.ofNat 64 (field input (8 + 4 * i) 4) &&& (Reg.prtHostWeight (field input 1 1) i).mask := by
  refine yields_of_eq (exec_qosSet_applied htakes hform (Dev.qosApply_hostWeights hitem)) ⟨Dev.replied_finish (by decide), fun i hi => ?_⟩
  rw [Dev.reg_shown _ _ (by simp), Dev.reg_finish _ _ _ _ _ (by simp) (by simp)]
  exact Dev.reg_setReg_foldl s.dev (fun i => .prtHostWeight (field input 1 1) i) (fun i => BitVec.ofNat 64 (field input (8 + 4 * i) 4))
    (fun i j hij h => hij (Reg.prtHostWeight.inj h).2) hi

theorem yields_qosSet_ageLimit (hitem : field input 2 1 = 4) (hok : s.dev.ageLimitOk (BitVec.ofNat 64 (field input 8 8)).toNat = true) :
    yields (.qosSet path input) s fun t => t.replied path 0xC018 0 0 [] ∧
      t.rd .ageLimit 16 0 = (BitVec.ofNat 64 (field input 8 8)).toNat := by
  refine yields_of_eq (exec_qosSet_applied htakes hform ((Dev.qosApply_ageLimit hitem).trans (if_pos hok)))
    ⟨Dev.replied_finish (by decide), ?_⟩
  rw [Dev.rd_shown _ _ _ _ (by simp), Dev.rd_finish _ _ _ _ _ _ _ (by simp) (by simp)]
  simpa [Dev.ageLimitOk] using hok

end

/-! ### GATE_LIST_SET -/

section
variable {path : Path} {input : List Byte} {e : Egress} {s : State} (htakes : s.dev.takesStoluo path 0xC019)
  (hform : gateForm input = true) (htarget : gateTarget input = some e)
include htakes hform htarget

theorem exec_gateListSet_bad (hbad : (s.dev.writeBank e input).gateListOk e = false) :
    exec (.gateListSet path input) s = .next (s.onto (s.dev.finish path 0xC019 rcInvalid)) := by
  refine exec_stoluo htakes (exec_gateListSet path input s) hform ?_
  dsimp only
  rw [htarget]
  dsimp only
  rw [if_pos (by simp [hbad])]

variable (hgood : (s.dev.writeBank e input).gateListOk e = true)
include hgood

theorem exec_gateListSet_disabled (hoff : field input 3 1 = 0) : exec (.gateListSet path input) s = .next (s.onto
    ((gclSwap e ((s.dev.writeBank e input).wr (gclCtl e) 31 31 0)).finish path 0xC019 0)) := by
  refine exec_stoluo htakes (exec_gateListSet path input s) hform ?_
  dsimp only
  rw [htarget]
  dsimp only
  rw [if_neg (by simp [hgood]), hoff]
  rfl

theorem exec_gateListSet_enabled (hon : field input 3 1 = 1) (hwas : (s.dev.writeBank e input).bitOf (gclCtl e) 31 = false) :
    exec (.gateListSet path input) s = .next (s.onto
      ((gclSwap e (gclEnable e ((s.dev.writeBank e input).wr (gclCtl e) 31 31 1))).finish path 0xC019 0)) := by
  refine exec_stoluo htakes (exec_gateListSet path input s) hform ?_
  dsimp only
  rw [htarget]
  dsimp only
  rw [if_neg (by simp [hgood]), hon, hwas]
  rfl

end

/-! ### MIRROR_SET -/

theorem Reg.mirCtl_holds_enable (n : Nat) : (Reg.mirCtl n).holds 31 31 = true := by simp [Reg.holds, Reg.mask, Reg.layout, fieldMask]

/-- A mirror session's registers as the command gives them. -/
def Dev.mirrorWritten (d : Dev) (n : Nat) (ctl lo hi : Word) : Dev := ((d.setReg (.mirCtl n) ctl).setReg (.mirLo n) lo).setReg (.mirHi n) hi

theorem Dev.mirrorWritten_regs (d : Dev) (n : Nat) (ctl lo hi : Word) :
    (d.mirrorWritten n ctl lo hi).reg (.mirCtl n) = ctl &&& (Reg.mirCtl n).mask ∧
      (d.mirrorWritten n ctl lo hi).reg (.mirLo n) = lo &&& (Reg.mirLo n).mask ∧
      (d.mirrorWritten n ctl lo hi).reg (.mirHi n) = hi &&& (Reg.mirHi n).mask := by
  refine ⟨?_, ?_, Dev.reg_setReg_same _ _ _⟩
  · rw [Dev.mirrorWritten, Dev.reg_setReg_ne _ _ (by simp), Dev.reg_setReg_ne _ _ (by simp), Dev.reg_setReg_same]
  · rw [Dev.mirrorWritten, Dev.reg_setReg_ne _ _ (by simp), Dev.reg_setReg_same]

theorem Dev.mirrorWritten_enable (d : Dev) (n : Nat) (ctl lo hi : Word) :
    (d.mirrorWritten n ctl lo hi).bitOf (.mirCtl n) 31 = decide (getBits ctl 31 31 = 1) := by
  rw [Dev.mirrorWritten, Dev.bitOf_setReg_ne _ _ _ (by simp), Dev.bitOf_setReg_ne _ _ _ (by simp), Dev.bitOf,
    Dev.rd_setReg_same _ _ (Reg.mirCtl_holds_enable n)]

section
variable {path : Path} {input : List Byte} {s : State} (htakes : s.dev.takesStoluo path 0xC01A) (hform : mirrorForm input = true)
include htakes hform

theorem exec_mirrorSet_checked : exec (.mirrorSet path input) s = .next (s.onto (
    let n := field input 0 1
    let d := s.dev.mirrorWritten n (BitVec.ofNat 64 (field input 4 4)) (BitVec.ofNat 64 (field input 8 8))
      (BitVec.ofNat 64 (field input 16 8))
    if d.bitOf (.mirCtl n) 31 && decide (s.dev.sec.otp.lifecycle = 2) && !s.dev.bitOf .secStatus 23 then s.dev.finish path 0xC01A rcLocked
    else if !d.mirrorOk n then s.dev.finish path 0xC01A rcInvalid else d.finish path 0xC01A rcSuccess)) :=
  exec_stoluo htakes (exec_mirrorSet path input s) hform rfl

theorem exec_mirrorSet_allowed :
    let n := field input 0 1
    let d := s.dev.mirrorWritten n (BitVec.ofNat 64 (field input 4 4)) (BitVec.ofNat 64 (field input 8 8))
      (BitVec.ofNat 64 (field input 16 8))
    (d.bitOf (.mirCtl n) 31 = true → s.dev.sec.otp.lifecycle = 2 → s.dev.bitOf .secStatus 23 = true) → d.mirrorOk n = true →
      exec (.mirrorSet path input) s = .next (s.onto (d.finish path 0xC01A rcSuccess)) := by
  intro n d hallowed hok
  have hexec := exec_mirrorSet_checked htakes hform
  dsimp only at hexec
  rwa [if_neg (by simpa [and_assoc] using hallowed), if_neg (by simpa using hok)] at hexec

/-- In DEPLOYED an enabled session needs the mark of R337. -/
theorem exec_mirrorSet_locked (henable : getBits (BitVec.ofNat 64 (field input 4 4)) 31 31 = 1) (hdeployed : s.dev.sec.otp.lifecycle = 2)
    (hmark : s.dev.bitOf .secStatus 23 = false) :
    exec (.mirrorSet path input) s = .next (s.onto (s.dev.finish path 0xC01A rcLocked)) := by
  have hexec := exec_mirrorSet_checked htakes hform
  dsimp only at hexec
  rwa [Dev.mirrorWritten_enable, if_pos (by simp [henable, hdeployed, hmark])] at hexec

end

theorem yields_mirrorSet_allowed {path : Path} {input : List Byte} {s : State} {n : Nat} {ctl lo hi : Word}
    (hexec : exec (.mirrorSet path input) s = .next (s.onto ((s.dev.mirrorWritten n ctl lo hi).finish path 0xC01A rcSuccess))) :
    yields (.mirrorSet path input) s fun t => t.replied path 0xC01A 0 0 [] ∧ t.reg (.mirCtl n) = ctl &&& (Reg.mirCtl n).mask ∧
      t.reg (.mirLo n) = lo &&& (Reg.mirLo n).mask ∧ t.reg (.mirHi n) = hi &&& (Reg.mirHi n).mask ∧ t.pool = s.dev.pool ∧
      t.sw = s.dev.sw := by
  obtain ⟨hctl, hlo, hhi⟩ := s.dev.mirrorWritten_regs n ctl lo hi
  refine yields_of_eq hexec ⟨Dev.replied_finish (by decide), ?_, ?_, ?_, ?_, ?_⟩
  · rw [Dev.reg_shown _ _ (by simp), Dev.reg_finish _ _ _ _ _ (by simp) (by simp), hctl]
  · rw [Dev.reg_shown _ _ (by simp), Dev.reg_finish _ _ _ _ _ (by simp) (by simp), hlo]
  · rw [Dev.reg_shown _ _ (by simp), Dev.reg_finish _ _ _ _ _ (by simp) (by simp), hhi]
  · simp [Dev.mirrorWritten]
  · simp [Dev.mirrorWritten]

/-! ### The obligation -/

/-- Settles O48: each item of QOS_SET, each outcome of a gate list, and a mirror session that the lifecycle allows or bars. -/
theorem qosGateListsAndMirrorSessionsAreSet : Obligations.QosGateListsAndMirrorSessionsAreSet := by
  unfold Obligations.QosGateListsAndMirrorSessionsAreSet
  refine ⟨?reserve, ?noReserve, ?portWeight, ?linkWeight, ?hostWeights, ?shape, ?noShape, ?ageLimit, ?thresholds, ?badList, ?disabled,
    ?enabled, ?mirror, ?locked⟩
  case reserve =>
    intro path input e s htakes hform hitem he d hok hfits
    refine exec_qosSet_applied htakes hform ((Dev.qosApply_reserve hitem he).trans ?_)
    rw [if_neg (by simpa using hok), if_neg (by simpa using hfits)]
    rfl
  case noReserve =>
    intro path input e s htakes hform hitem he d hbad
    by_cases hok : d.reserveOk e = true
    · rw [if_pos hok]
      refine yields_qosSet_refused htakes hform (by decide) ((Dev.qosApply_reserve hitem he).trans ?_)
      rw [if_neg (by simpa using hok), if_pos (by simpa [hok] using hbad)]
      rfl
    · rw [if_neg hok]
      exact yields_qosSet_refused htakes hform (by decide) ((Dev.qosApply_reserve hitem he).trans (if_pos (by simpa using hok)))
  case portWeight =>
    intro path input s htakes hform hitem htarget
    obtain ⟨p, hp⟩ := (qosForm_weight hform hitem).1 htarget
    exact yields_qosSet_written htakes hform (by simp) (by simp) (by simp) (Dev.qosApply_portWeight hitem hp)
  case linkWeight =>
    intro path input s htakes hform hitem htarget
    obtain ⟨l, hl, hnumber⟩ := (qosForm_weight hform hitem).2 htarget
    rw [← hnumber]
    exact yields_qosSet_written htakes hform (by simp) (by simp) (by simp) (Dev.qosApply_linkWeight hitem hl)
  case hostWeights => exact fun path input s => yields_qosSet_hostWeights
  case shape =>
    intro path input s htakes hform hitem hok
    refine yields_mono (yields_qosSet_written htakes hform ?_ ?_ ?_ ((Dev.qosApply_shape hitem).trans (if_pos hok)))
      fun t ⟨hreplied, hreg, _⟩ => ⟨hreplied, hreg⟩ <;> simp
  case noShape =>
    intro path input s htakes hform hitem hbad
    exact yields_qosSet_refused htakes hform (by decide) ((Dev.qosApply_shape hitem).trans (if_neg (by simp [hbad])))
  case ageLimit => exact fun path input s => yields_qosSet_ageLimit
  case thresholds =>
    intro path input s htakes hform hitem
    refine yields_mono (yields_qosSet_written htakes hform ?_ ?_ ?_ (Dev.qosApply_thresholds hitem))
      fun t ⟨hreplied, hreg, _⟩ => ⟨hreplied, hreg⟩ <;> simp
  case badList =>
    intro path input e s htakes hform htarget hbad
    exact yields_of_eq (exec_gateListSet_bad htakes hform htarget hbad) ⟨Dev.replied_finish (by decide), Dev.onlyRead_end⟩
  case disabled => exact fun path input e s => exec_gateListSet_disabled
  case enabled => exact fun path input e s => exec_gateListSet_enabled
  case mirror =>
    intro path input s htakes hform n d hallowed hok
    exact yields_mirrorSet_allowed (exec_mirrorSet_allowed htakes hform hallowed hok)
  case locked =>
    intro path input s htakes hform henable hdeployed hmark
    exact yields_of_eq (exec_mirrorSet_locked htakes hform henable hdeployed hmark) ⟨Dev.replied_finish (by decide), Dev.onlyRead_end⟩

end Sys2Proof.Machine
end

section
/-! PROOFS. RESET of the device, a Tambour, a port and a link, and the return of the management cluster (R315, R399). Settles O14. -/

namespace Sys2Proof.Machine

/-! ### RESET -/

section
variable {path : Path} {input : List Byte} {s : State} (htakes : s.dev.takesStoluo path 0xC058)
include htakes

theorem exec_resetDevice_taken (hlength : input.length = 4) (hzero : field input 1 3 = 0) :
    exec (.resetWarm path input) s = .next (s.onto (((s.dev.complete path 0xC058 0 0 []).warmReset).warmEnd)) :=
  exec_stoluo htakes (exec_resetWarm path input s) (by simp [hlength, hzero]) rfl

theorem exec_resetTambour_standing (hform : resetForm input 16 = true) (hstands : s.dev.isRetired .tambour (field input 1 1) = false) :
    exec (.resetTambour path input) s = .next (s.onto
      (((((s.dev.tambourLost (field input 1 1) false).reexecuteAll (field input 1 1)).tambourBack (field input 1 1)).showEngines
        (field input 1 1)).complete path 0xC058 0 0 [])) := by
  refine exec_stoluo htakes (exec_resetTambour path input s) hform ?_
  rw [if_neg (by simp [hstands]), Dev.resetTambour, if_neg (by simp [hstands])]
  rfl

/-- The answer waits for a teardown that is still under way. -/
theorem exec_resetPort_idle (hform : resetForm input 64 = true) (hidle : (s.dev.prec (field input 1 1)).resetBy = none) :
    let d := s.dev.removal (field input 1 1)
    exec (.resetPort path input) s = .next (s.onto
      (if d.portState (field input 1 1) = 7 then d.modPort (field input 1 1) fun r => { r with resetBy := some path }
        else d.complete path 0xC058 0 0 [])) :=
  exec_stoluo htakes (exec_resetPort path input s) hform (if_neg (by simp [hidle]))

/-- The answer waits for a takeover that the link's death has begun. -/
theorem exec_resetLink_idle (hform : resetForm input 16 = true) (hidle : (s.dev.lrec (field input 1 1)).resetBy = none) :
    let d := s.dev.linkDead (field input 1 1) 8
    exec (.resetLink path input) s = .next (s.onto
      (if (d.lrec (field input 1 1)).tko.isSome then d.modLink (field input 1 1) fun r => { r with resetBy := some path }
        else d.complete path 0xC058 0 0 [])) :=
  exec_stoluo htakes (exec_resetLink path input s) hform (if_neg (by simp [hidle]))

end

/-! ### The management cluster returns -/

/-- The management and lifecycle domains are on, with the aliases held. -/
def Dev.mgtPowered (d : Dev) : Dev :=
  let d := (d.domainOn domMgt).domainOn domLife
  { d with sec := { d.sec with aliasHeld := true } }

/-- The firmware of a slot runs again, at the boot stage that the BCB gives. -/
def Dev.mgtRunning (d : Dev) (slot : Nat) (i : Sys2Proof.Image) : Dev :=
  (d.mgtPowered.startFirmware slot i).boot1 31 28 (if d.mgmt.bcb.isSome then 7 else 9)

theorem Dev.mgtPowered_slot (d : Dev) : d.mgtPowered.rd .oobBoot 27 27 = d.rd .oobBoot 27 27 := by
  have hon : ∀ (d : Dev) (i : Nat), (d.domainOn i).rd .oobBoot 27 27 = d.rd .oobBoot 27 27 := fun d i => by
    rw [Dev.domainOn, Dev.rd_wr_ne _ _ _ _ _ _ (by simp), Dev.setDomState, Dev.rd_wr_ne _ _ _ _ _ _ (by simp)]
  exact (hon (d.domainOn domMgt) domLife).trans (hon d domMgt)

/-- The domain that has been powered is in Run. -/
theorem Dev.mgtPowered_mgt (d : Dev) : d.mgtPowered.rd (.domStatus domMgt) 31 29 = 0 := by
  change ((d.domainOn domMgt).domainOn domLife).rd (.domStatus domMgt) 31 29 = 0
  rw [Dev.domainOn, Dev.rd_wr_ne _ _ _ _ _ _ (by decide), Dev.setDomState, Dev.rd_wr_ne _ _ _ _ _ _ (by decide), Dev.domainOn,
    Dev.rd_wr_field _ _ (Reg.holds_domStatus_state _) (by decide), Dev.setDomState, Dev.rd_wr_same _ _ (Reg.holds_domStatus_state _), Nat.zero_mod]

theorem Dev.mgtPowered_image (d : Dev) (target slot : Nat) : d.mgtPowered.validImage target slot = d.validImage target slot :=
  Dev.validImage_congr rfl rfl target slot

/-- With the slot in use valid, MGT's return runs its image. -/
theorem Dev.mgtRestore_valid {d : Dev} {i : Sys2Proof.Image} (hcold : d.mgmt.coldHeld = false) (hwarm : d.mgmt.warmHeld = false)
    (hao : d.aoOnly = false) (hvalid : d.validImage 0 (d.rd .oobBoot 27 27) = some i) :
    d.mgtRestore = d.mgtRunning (d.rd .oobBoot 27 27) i := by
  have himage : d.mgtPowered.validImage 0 (d.rd .oobBoot 27 27) = some i := (d.mgtPowered_image _ _).trans hvalid
  have hfind : [d.rd .oobBoot 27 27, 1 - d.rd .oobBoot 27 27].find? (fun x => (d.mgtPowered.validImage 0 x).isSome) =
      some (d.rd .oobBoot 27 27) := List.find?_cons_of_pos (by simp [himage])
  unfold Dev.mgtRestore
  rw [if_neg (by simp [hcold, hwarm, hao])]
  change (match [d.mgtPowered.rd .oobBoot 27 27, 1 - d.mgtPowered.rd .oobBoot 27 27].find?
      fun x => (d.mgtPowered.validImage 0 x).isSome with
    | none => d.mgtPowered.recovery (d.mgtPowered.slotError 0 (d.mgtPowered.rd .oobBoot 27 27))
    | some x => match d.mgtPowered.validImage 0 x with
      | some i => (d.mgtPowered.startFirmware x i).boot1 31 28 (if d.mgtPowered.mgmt.bcb.isSome then 7 else 9)
      | none => d.mgtPowered) = _
  rw [Dev.mgtPowered_slot, hfind]
  dsimp only
  rw [himage]
  rfl

theorem Dev.mgtRunning_stage (d : Dev) (slot : Nat) (i : Sys2Proof.Image) :
    (d.mgtRunning slot i).shown.stage = if d.mgmt.bcb.isSome then 7 else 9 := by
  rw [Dev.stage, Dev.rd_shown _ _ _ _ (by simp), Dev.mgtRunning, Dev.boot1, Dev.rd_wr_same _ _ Reg.oobBoot_holds_stage]
  split <;> rfl

theorem Dev.rd_startFirmware_ne (d : Dev) (slot : Nat) (i : Sys2Proof.Image) {r : Reg} (hi lo : Nat) (hne : r ≠ .oobBoot) :
    (d.startFirmware slot i).rd r hi lo = d.rd r hi lo := by
  rw [Dev.startFirmware, Dev.rd_mk]
  exact Dev.rd_wr_ne d 27 27 slot hi lo hne

theorem Dev.mgtRunning_mgt (d : Dev) (slot : Nat) (i : Sys2Proof.Image) : (d.mgtRunning slot i).shown.rd (.domStatus domMgt) 31 29 = 0 := by
  rw [Dev.rd_shown _ _ _ _ (by simp), Dev.mgtRunning, Dev.boot1, Dev.rd_wr_ne _ _ _ _ _ _ (by simp),
    Dev.rd_startFirmware_ne _ _ _ _ _ (by simp), Dev.mgtPowered_mgt]

theorem yields_mgtRestore {i : Sys2Proof.Image} {s : State} (hdown : s.dev.mgmt.fwUp = false) (hcold : s.dev.mgmt.coldHeld = false)
    (hwarm : s.dev.mgmt.warmHeld = false) (hao : s.dev.aoOnly = false)
    (hvalid : s.dev.validImage 0 (s.dev.rd .oobBoot 27 27) = some i) :
    yields .mgtRestore s fun t =>
      t.mgmt.fwUp = true ∧ t.mgmt.fwVersion = i.version ∧ t.stage = (if s.dev.mgmt.bcb.isSome then 7 else 9) ∧
      t.rd (.domStatus domMgt) 31 29 = 0 ∧ t.sec.aliasHeld = true ∧ tget t.mgmt.measured 2 = some i.hash ∧
      t.pool = s.dev.pool ∧ t.dir = s.dev.dir ∧ t.sw = s.dev.sw ∧ t.svc = s.dev.svc ∧ t.port = s.dev.port ∧ t.link = s.dev.link ∧
      t.fab = s.dev.fab := by
  have hexec : exec .mgtRestore s = .next (s.onto (s.dev.mgtRunning (s.dev.rd .oobBoot 27 27) i)) :=
    exec_onto (exec_mgtRestore s) ((if_neg (by simp [hdown])).trans (Dev.mgtRestore_valid hcold hwarm hao hvalid))
  refine yields_of_eq hexec ⟨?_, ?_, Dev.mgtRunning_stage _ _ _, Dev.mgtRunning_mgt _ _ _, ?_, ?_, ?_⟩
  · rw [Dev.shown_mgmt]
    rfl
  · rw [Dev.shown_mgmt]
    rfl
  · rw [Dev.shown_sec]
    rfl
  · rw [Dev.shown_mgmt]
    exact (tget_tset_ne _ _ (by decide)).trans (tget_tset_same _ _ _)
  · refine ⟨?_, ?_, ?_, ?_, ?_, ?_, ?_⟩
    all_goals simp [Dev.mgtRunning, Dev.mgtPowered, Dev.startFirmware, Dev.boot1, Dev.measure, Dev.domainOn, Dev.setDomState]

/-! ### The obligation -/

/-- Settles O14: each RESET is its block's loss and return with the answer at its end, and MGT's return is the boot of the slot in use. -/
theorem blocksAreResetByCommand : Obligations.BlocksAreResetByCommand := by
  unfold Obligations.BlocksAreResetByCommand
  refine ⟨?warm, ?tambour, ?port, ?link, ?mgt⟩
  case warm => exact fun path input s => exec_resetDevice_taken
  case tambour => exact fun path input s => exec_resetTambour_standing
  case port => exact fun path input s => exec_resetPort_idle
  case link => exact fun path input s => exec_resetLink_idle
  case mgt => exact fun i s => yields_mgtRestore

end Sys2Proof.Machine
end
